-- ==== Sys2Proof/Word.lean ====
section
/-! DEFINITION. The word types of the device: bytes, the 32-bit registers of R27, and the 64-bit stamps of Table 1.6.
Numbers the manual counts with (lines, lengths, times, sums formed exactly before rounding) are `Nat` or `Int`. -/

namespace Sys2Proof

/-- One byte, the unit of every byte-addressed memory of Table 1.8. -/
abbrev Byte := BitVec 8

/-- A 16-bit word. -/
abbrev Half := BitVec 16

/-- One register (R27: registers are 32-bit little-endian). -/
abbrev Word := BitVec 32

/-- One 64-bit value: a stamp, a digest, a node. -/
abbrev DWord := BitVec 64

end Sys2Proof
end

