-- ==== Sys2Proof/Syntax.lean ====
section
/-! DEFINITION. The commands of the block: one constructor per row of spec/opcode_table.json, with the operands of the row. -/

namespace Sys2Proof

/-- A lane slot in use (Table 2.1): camera receive and back-channel, peer, spout and Ethernet lanes. -/
inductive Lane where
  | cpRx (p : Fin 12) (l : Fin 4)
  | cpBc (p : Fin 12)
  | peerRx (n : Fin 3) (l : Fin 2)
  | peerTx (n : Fin 3) (l : Fin 2)
  | spRx (n : Fin 4)
  | spTx (n : Fin 4)
  | ethRx (l : Fin 4)
  | ethTx (l : Fin 4)
deriving DecidableEq, Repr, Inhabited

/-- The masters of the control view (Table 16.2). -/
inductive Master where
  | core (n : Fin 4)
  | kcp
  | dma
  | peer (n : Fin 3)
  | debug
deriving DecidableEq, Repr, Inhabited

/-- What an access does: a plain load or store, an atomic, and of a core an instruction fetch, a load-reserved or a store-conditional
(Table 16.1, R342, R343); or it is a core's FENCE.I, which accesses nothing (R344), or an access of a core to one of its own control and
status registers, whose number is the address (R341). -/
inductive AccessKind where
  | plain | atomic | fetch | reserve | conditional | fenceI | csr
deriving DecidableEq, Repr, Inhabited

/-- An access to the control view: who, where, how wide in bytes. -/
structure Access where
  master : Master
  addr : Nat
  width : Nat := 4
  kind : AccessKind := .plain
  /-- a core makes it in user mode (R341) -/
  user : Bool := false
  /-- KCP session on whose behalf the host proxy makes the access -/
  session : Nat := 0
deriving DecidableEq, Repr, Inhabited

/-- The link a training request travels on: a camera port or a peer port. -/
inductive TrainLink where
  | camera (p : Fin 12)
  | peer (n : Fin 3)
deriving DecidableEq, Repr, Inhabited

/-- What an eye scan has measured (R43): mismatches within the dwell at the centre, and at the steps outward from it, nearest first, as
far as the monitor went: phases before and after it, thresholds above and below it. -/
structure EyeScan where
  centre : Nat := 0
  before : List Nat := []
  after : List Nat := []
  above : List Nat := []
  below : List Nat := []
deriving DecidableEq, Repr, Inhabited

/-- What the ECC of a memory found (R177, R185, R289). -/
inductive Ecc where
  | clean | corrected | uncorrected
deriving DecidableEq, Repr, Inhabited

/-- The wrong bits of one 64-bit word of a burst read with inline ECC: one, or two (R289). Bits 64 to 71 are its check code. -/
structure WordError where
  word : Fin 8 := 0
  bit : Fin 72 := 0
  second : Option (Fin 72) := none
deriving DecidableEq, Repr, Inhabited

/-- A tracking observer (R233, R237). -/
structure Observer where
  x0 : Int := 0
  x1 : Int := 0
  x2 : Int := 0
  /-- time of the last update, ns -/
  tu : Nat := 0
  /-- it has had a measurement since its last start -/
  started : Bool := false
deriving DecidableEq, Repr, Inhabited

/-- The header of a received peer frame (Table 21.4), with the reliable sequence number of its payload (R445) and the apply line of the
chain commit that the root confirms in it (R411). -/
structure PeerHdr where
  seq : Nat := 0
  src : Nat := 0
  dst : Nat := 0xFF
  hops : Nat := 0
  line : Nat := 0
  rel : Option Nat := none
  confirm : Option Nat := none
deriving DecidableEq, Repr, Inhabited

/-- What a HELLO carries (Table 21.5). -/
structure HelloBody where
  chipId : Nat := 0
  level : Nat := 0
  buildId : Nat := 0
  pairCfg : Word := 0#32
  pairChain : Word := 0#32
  gridBase : Nat := 0
  ownLo : Nat := 0
  ownHi : Nat := 0
deriving DecidableEq, Repr, Inhabited

/-- What a STATUS frame carries (Table 21.5): pair state, CLAIM, spout port states, weir demand and the cycle it was decided at, and
the revert line where one is named. -/
structure PairStatus where
  state : Nat := 0
  claim : Nat := 0
  spouts : List Nat := []
  demand : Nat := 0
  demandCycle : Nat := 0
  revert : Option Nat := none
deriving DecidableEq, Repr, Inhabited

/-- What a TIME frame carries (R449), stamps in 1/256 ns. -/
structure TimeBody where
  tx : Int := 0
  rx : Int := 0
  rxSeq : Nat := 0
deriving DecidableEq, Repr, Inhabited

/-- A WINDOW request (Table 21.7). -/
structure WindowReq where
  sightId : Nat := 0
  row : Nat := 0
  lo : Int := 0
  hi : Int := 0
  tF : Nat := 0
  tB : Nat := 0
deriving DecidableEq, Repr, Inhabited

/-- What a DIGEST frame carries; selfTest: 0 none, 1 passed, 2 failed. -/
structure DigestBody where
  cycle : Nat := 0
  digest : Nat := 0
  loss : Nat := 0
  selfTest : Nat := 0
deriving DecidableEq, Repr, Inhabited

/-- The calibration sets of a context: registers of CAL_Cn by address, the footprint's deltas, and, in a snapshot, the bytes of its
MRAM records by address. -/
structure CalContent where
  ctx : Nat := 0
  slot : Nat := 0
  tr : Nat := 0x8000
  tApplied : Nat := 0x8000
  /-- completing line L_c of the run -/
  lc : Nat := 0
  regs : List (Nat × Word) := []
  deltas : List Byte := []
  mram : List (Nat × List Byte) := []
deriving DecidableEq, Repr, Inhabited

/-- A reservoir plan (R420). -/
structure PlanBody where
  cycle : Nat := 0
  g : Nat := 256
  q : Nat := 0
  capt : Bool := true
  cal : Bool := true
deriving DecidableEq, Repr, Inhabited

/-- What a join hands over at the warm line (R440): object counters of the views, sighting counters of the heights, lane observers,
and of each enabled axis its number, count and observer. -/
structure JoinCounters where
  views : List Nat := []
  heights : List Nat := []
  lanes : List Observer := []
  axes : List (Nat × Nat × Observer) := []
deriving DecidableEq, Repr, Inhabited

/-- The items of Table 21.3; the SNAPSHOT kind has a constructor for each thing that R440 sends. -/
inductive ItemBody where
  | commit (regs : List (Nat × Word)) (tabs : List (Nat × Byte))
  | calSet (c : CalContent)
  | plan (p : PlanBody)
  | firmware (bytes : List Byte)
  | snapConfig (regs : List (Nat × Word)) (tabs : List (Nat × Byte))
  | snapCal (c : CalContent)
  | snapPlan (p : PlanBody)
  /-- the warm line that the item's line names, as the active unit has postponed it -/
  | snapWarm
  | snapCounters (c : JoinCounters)
deriving DecidableEq, Repr, Inhabited

/-- The commit messages of R411. -/
inductive CommitMsg where
  /-- from the root: a commit with its apply line -/
  | commit
  /-- from a member: its result, and the split of step 3 -/
  | passed | refused | split
  /-- from the root -/
  | confirm | cancel
deriving DecidableEq, Repr, Inhabited

/-- What an ACCESS frame carries (Table 21.5): a request, or the reply with its status and data. -/
inductive AccessBody where
  | request (write : Bool) (addr : Nat) (data : Word)
  | reply (ok : Bool) (data : Word)
deriving DecidableEq, Repr, Inhabited

/-- What a peer frame carries (Table 21.5). -/
inductive PeerBody where
  | hello (b : HelloBody)
  | status (b : PairStatus)
  | time (b : TimeBody)
  | line (ts : Nat) (speed : Int)
  | window (b : WindowReq)
  | digest (b : DigestBody)
  /-- chunk `part` of an item, from 0 -/
  | item (line : Nat) (b : ItemBody) (part : Nat)
  | commit (a : Nat) (m : CommitMsg)
  | access (write : Bool) (addr : Nat) (data : Word)
  | accessReply (ok : Bool) (data : Word)
  | ack (rel : Nat)
  | train (word : Nat)
  | trainReply (word : Nat)
deriving DecidableEq, Repr, Inhabited

/-- The IP address of a KCP client. -/
structure KcpAddr where
  v6 : Bool := false
  ip : Nat := 0
deriving DecidableEq, Repr, Inhabited

/-- A KCP datagram as it arrives (Table 14.4): its sender's address and UDP port, the UDP port it is sent to; the code in TYPE is the row's. `rest` holds the bytes behind the header: the body of LEN
bytes, and the tag where AUTH = 1. -/
structure KcpMsg where
  client : KcpAddr := {}
  port : Nat := 0
  dport : Nat := 46528
  magic : Nat := 0x4B43
  version : Nat := 1
  reply : Bool := false
  auth : Bool := false
  session : Nat := 0
  seq : Nat := 0
  len : Nat := 0
  rest : List Byte := []
deriving DecidableEq, Repr, Inhabited

/-- What starts a region reset (R457): a write of FLT_CTRL with its RESET_REGION bits, or a level-3 fault with its INDEX. A fault of a cell or
a block that no other command holds is recorded here too (R455, R456), and with it an uncorrectable read of SRAM or TCM by a master (Table 22.7). -/
inductive ResetCause where
  | write (bits : Nat)
  | fault (code index : Nat)
  | memUncorr (m : Master) (addr : Nat)
deriving DecidableEq, Repr, Inhabited

/-- The chip causes of the safe state (Table 22.7, level 4). -/
inductive ChipCause where
  | tjMax | supply | refclk | escalation | memory | fwRequest
deriving DecidableEq, Repr, Inhabited

/-- Why REFCLK is raised (R466). -/
inductive RefclkCause where
  | noEdge | frequency | unlocked
deriving DecidableEq, Repr, Inhabited

/-- Instructions of the test access port: those of IEEE 1149.1, and the debug transport's of RISC-V External Debug Support. -/
inductive JtagIr where
  | bypass | idcode | sample | extest | dtmcs | dmi
deriving DecidableEq, Repr, Inhabited

/-- What the debug module is asked for (R350): the accesses that RISC-V External Debug Support 1.0.0 gives it, on hart `n`. -/
inductive DebugReq where
  /-- a read of dmstatus with hart `n` selected -/
  | status (n : Fin 4)
  /-- dmcontrol.dmactive -/
  | active (on : Bool)
  | halt (n : Fin 4)
  | resume (n : Fin 4)
  | haltOnReset (n : Fin 4) (on : Bool)
  /-- an abstract register access -/
  | readReg (n : Fin 4) (reg : Nat)
  | writeReg (n : Fin 4) (reg value : Nat)
  | readProgbuf (i : Fin 8)
  | writeProgbuf (i : Fin 8) (value : Word)
  /-- the program buffer runs on a halted hart; what its program does is no part of the request -/
  | runProgbuf (n : Fin 4)
  /-- dmcontrol.ackhavereset -/
  | ackReset (n : Fin 4)
  /-- trigger `i` of a hart: tdata1 and tdata2 -/
  | setTrigger (n : Fin 4) (i : Fin 8) (tdata1 tdata2 : Nat)
  | readTrigger (n : Fin 4) (i : Fin 8) (second : Bool)
  /-- system bus access as the debug master -/
  | sbRead (addr width : Nat)
  | sbWrite (addr width value : Nat)
  /-- sbcs.sberror, or abstractcs.cmderr, written 1 -/
  | clearError
  | clearCmderr
  /-- the test access port (R485): TRST_N low; an instruction scan; a scan of the data register it selects, with what is shifted into
  dtmcs or into the boundary-scan register -/
  | trst
  | irScan (ir : JtagIr)
  | drScan (value : Nat)
deriving DecidableEq, Repr, Inhabited

/-- The commands. Each names its row of the opcode table. -/
inductive Instr where
  /-- REGISTER_WRITE (R10): a write of the control view; hwSet are the W1C bits of the register that the hardware sets in the same cycle. -/
  | registerWrite (a : Access) (value : DWord) (hwSet : Word)
  /-- RC_COUNTER_READ (R10): a read of the control view; hwInc are the events the hardware counts in the register in the same cycle. -/
  | rcCounterRead (a : Access) (hwInc : Nat)
  /-- LANE_POWER_UP (R50): POWER := ACTIVE. -/
  | lanePowerUp (l : Lane)
  /-- LANE_POWER_DOWN (R51): POWER := STANDBY or OFF. -/
  | lanePowerDown (l : Lane) (standby : Bool)
  /-- LANE_WAKE_DONE (R50): bias and lane PLL have settled. -/
  | laneWakeDone (l : Lane)
  /-- LANE_SHUTDOWN_DONE (R51): SHUTDOWN completes. -/
  | laneShutdownDone (l : Lane)
  /-- LOSS_OF_SIGNAL (R39): the input has stayed below 65 mV for 1 µs. -/
  | lossOfSignal (l : Lane)
  /-- SIGNAL_PRESENT (R39): the input has stayed above 120 mV for 1 µs. -/
  | signalPresent (l : Lane)
  /-- CDR_LOCKED (R50): clock recovery is locked and the equaliser has adapted. -/
  | cdrLocked (l : Lane)
  /-- LOCK_LOST (R40): two consecutive windows of 4,096 words were off by more than 1,000 ppm. -/
  | lockLost (l : Lane)
  /-- CODE_GROUP_RECEIVE (R41): a group abcdei fghj, a first, cut at a bit phase in symbol period t, which the lanes of one link count alike. -/
  | codeGroupReceive (l : Lane) (group : BitVec 10) (phase : Fin 10) (t : Nat)
  /-- SCORE_DECAY (R41): 16 consecutive valid groups in SYNC. -/
  | scoreDecay (l : Lane)
  /-- TX_TAPS_WRITE (R42): a write of LN_TX_TAPS. -/
  | txTapsWrite (l : Lane) (value : Word)
  /-- EYE_SCAN_COMPLETE (R43): a scan ends with these mismatches. -/
  | eyeScanComplete (l : Lane) (scan : EyeScan)
  /-- RETRAIN (R49): a write of LN_CTRL.RETRAIN. -/
  | retrain (l : Lane)
  /-- TRAIN_REPLY (R47): a training reply arrives: on a camera link the control packet that its columns have brought, on a peer link the word of a TRAIN frame. -/
  | trainReply (l : TrainLink) (word : Word)
  /-- TRAIN_REQ_TIMEOUT (R48): 1 ms without a reply to the training request. -/
  | trainReqTimeout (l : TrainLink)
  /-- LINE_PACKET_RECEIVE (R65): the end column of the line packet in the port. -/
  | linePacketReceive (p : Fin 12)
  /-- PACKET_ABORT (R60): a K30.7 column ends the packet in progress. -/
  | packetAbort (p : Fin 12)
  /-- DESKEW_COLUMN (R58): the marker column that the lanes of a camera or peer link have brought. -/
  | deskewColumn (l : TrainLink)
  /-- INGRESS_OVERFLOW (R68): a byte arrives while the ingress buffer is full. -/
  | ingressOverflow (p : Fin 12)
  /-- TRIGGER_DUE (R73): T − TRIG_LEAD of the port's next line. -/
  | triggerDue (p : Fin 12)
  /-- BACKCHANNEL_SEND (R74): a free word boundary of the back-channel. -/
  | backchannelSend (p : Fin 12)
  /-- TIME_PACKET_DUE (R75): TIME_PERIOD has elapsed. -/
  | timePacketDue (p : Fin 12)
  /-- NO_LINES (R69): 64 consecutive triggers without an accepted packet. -/
  | noLines (p : Fin 12) (h : Fin 4)
  /-- REG_REPLY (R72): the control packet in the port is a REG_REPLY. -/
  | regReply (p : Fin 12)
  /-- CAM_EVENT (R71): the control packet in the port is an EVENT. -/
  | camEvent (p : Fin 12)
  /-- UNKNOWN_CTL (R70): the control packet in the port is one that no rule accepts. -/
  | unknownCtl (p : Fin 12)
  /-- CTL_GO (R72): a write of CPn_CTL_CMD with GO. -/
  | ctlGo (p : Fin 12) (value : Word)
  /-- CTL_TIMEOUT (R71): 1 ms without a reply to the register request. -/
  | ctlTimeout (p : Fin 12)
  /-- EXP_GO (R76): a write of CPn_EXP_CMD with GO. -/
  | expGo (p : Fin 12) (value : Word)
  /-- PORT_RESTART (R80): a write of RESTART. -/
  | portRestart (p : Fin 12)
  /-- PORT_STATE_TIMEOUT (R80): the time limit of the port's state. -/
  | portStateTimeout (p : Fin 12)
  /-- RETRY_END (R80): the 2 ms of RETRY end. -/
  | retryEnd (p : Fin 12)
  /-- PIPE_START (R89): a free pipe takes a line. -/
  | pipeStart
  /-- PIPE_COMPLETE (R88): a pipe finishes its line; snoopOk is the verdict of its snoop unit. -/
  | pipeComplete (p : Fin 8) (snoopOk : Bool)
  /-- STAT_RELEASE (R104): a write of RELEASE. -/
  | statRelease (c : Fin 48)
  /-- VIEW_LINE_ASSEMBLE (R15): the view's next line is assembled. -/
  | viewLineAssemble (v : Fin 4)
  /-- VIEW_DEADLINE (R15): the deadline of the view's next line. -/
  | viewDeadline (v : Fin 4)
  /-- HIST_ROW_COMPLETE (R143): the writes of the oldest row complete. -/
  | histRowComplete (v : Fin 4)
  /-- HIST_ROW_DROP (R143): the oldest row has not been written within 64 lines. -/
  | histRowDrop (v : Fin 4)
  /-- SEG_LINE_PROCESS (R152): the segmenter takes a view line. -/
  | segLineProcess (v : Fin 4)
  /-- SEG_LOST_LINE (R156): the segmenter takes a lost-line marker. -/
  | segLostLine (v : Fin 4)
  /-- SIGHTING_FORMATION (R161): sighting formation of the next line of a height, 0 upper and 1 lower. -/
  | sightingFormation (h : Fin 2)
  /-- FLIGHT_MATCHER_STEP (R198): the matcher steps over its next line. -/
  | flightMatcherStep
  /-- FOREST_DONE (R176): the forest evaluation of the k-th object in judgement order ends. -/
  | forestDone (k : Nat) (ecc : Ecc)
  /-- CLASSIFIER_DONE (R184): the array finishes its patch. -/
  | classifierDone (ecc : Ecc)
  /-- DECISION_RELEASE (R188): the first object in judgement order is released. -/
  | decisionRelease
  /-- CLA_POWER_REQ (R186): a write of CLA_POWER. -/
  | claPowerReq (value : Word)
  /-- CLA_SHUTDOWN_DONE (R186): the array reaches OFF. -/
  | claShutdownDone
  /-- CLA_WAKE_DONE (R186): the array reaches ON. -/
  | claWakeDone
  /-- SPOUT_FRAME_SEND (R215): 128 ns have passed since the port's last frame. -/
  | spoutFrameSend (p : Fin 4) (snoopOk : Bool)
  /-- RETURN_FRAME_RECEIVE (R219): a return frame, symbols 1 to 28, and the instant its first symbol K27.7 arrived, ns. -/
  | returnFrameReceive (p : Fin 4) (framed : Bool) (bytes : List Byte) (t : Nat)
  /-- RET_LOST (R219): 1,024 frame times without a valid return. -/
  | retLost (p : Fin 4)
  /-- LIMIT_WRITE (R221): a write of SPn_LIMIT_MAXON, _MINOFF, _DUTY or _MAXOPEN. -/
  | limitWrite (p : Fin 4) (which : Fin 4) (value : Word)
  /-- ENCODER_EDGE (R226): the levels A and B change to, the time in ns of the first sample with them, for how many samples they hold, and an edge on Z accepted in the same sample. -/
  | encoderEdge (n : Fin 4) (a b : Bool) (t held : Nat) (z : Option Bool)
  /-- Z_EDGE (R238): an edge on TRAn_Z, the time in ns of its first sample and for how many samples it holds. -/
  | zEdge (n : Fin 4) (rising : Bool) (t held : Nat)
  /-- QERR_WINDOW_END (R228): a one-second window ends. -/
  | qerrWindowEnd (n : Fin 4)
  /-- SSI_FRAME_START (R231): the latch instant of a frame and the level of the data line at it. -/
  | ssiFrameStart (n : Fin 4) (dataHigh : Bool) (t : Nat)
  /-- SSI_FRAME_DONE (R232): the data bits have been read; an edge on Z accepted in the same sample, with its time. -/
  | ssiFrameDone (n : Fin 4) (bits : Nat) (z : Option (Bool × Nat))
  /-- STANDSTILL_MEAS (R235): STILL µs without a measurement. -/
  | standstillMeas (n : Fin 4)
  /-- REF_ARM (R238): a write of REF_ARM. -/
  | refArm (n : Fin 4)
  /-- LIST_ARM (R239): a write of LIST_ARM. -/
  | listArm (n : Fin 4)
  /-- LIST_STOP (R239): a write of LIST_STOP. -/
  | listStop (n : Fin 4)
  /-- CLR_UNCERT (R227): a write of CLR_UNCERT. -/
  | clrUncert (n : Fin 4)
  /-- AXIS_SNAPSHOT_READ (R243): a read of TRAn_COUNT_LO, or of TRAn_POS_LO. -/
  | axisSnapshotRead (n : Fin 4) (pos : Bool)
  /-- MON_OUTPUT (R249): a channel delivers its next output. -/
  | monOutput (c : Fin 32)
  /-- MON_SLOT_GAP (R246): 128 ns after the last slot without a return frame. -/
  | monSlotGap (p : Fin 4)
  /-- MON_CLK_LOST (R245): 10 µs without a MON_CLK edge. -/
  | monClkLost
  /-- MON_OUT_READ (R256): a read of MON_Cc_OUT. -/
  | monOutRead (c : Fin 32)
  /-- MON_CLK_EDGE (R245): a rising edge of MON_CLK at time t in ns with the levels of MON_D0 to MON_D15. -/
  | monClkEdge (pins : Half) (t : Nat)
  /-- TB_ADJ_WRITE (R259): a write of TB_ADJ. -/
  | tbAdjWrite (value : Word)
  /-- TB_SLEW_WRITE (R260): a write of TB_SLEW. -/
  | tbSlewWrite (value : Word)
  /-- SLEW_END (R260): the TCLK edges that take the rest of the slew remainder have passed. -/
  | slewEnd
  /-- STEP (R261): a write of TB_CTRL, with STEP as its bit 0 says. -/
  | tbStep (value : Word)
  /-- TOD_READ (R262): a read of TB_TOD_FRAC. -/
  | todRead
  /-- TSQ_READ (R272): a read of TB_TSQ_INFO. -/
  | tsqRead
  /-- PPS_OUT_PULSE (R274): the next whole second, or WIDTH µs after it. -/
  | ppsOutPulse (fall : Bool)
  /-- PPS_IN_EDGE (R274): a PPS_IN edge, the time in ns of its first sample and for how many samples it holds. -/
  | ppsInEdge (rising : Bool) (t held : Nat)
  /-- TIO_ARM (R276): a write of TIO_Pn_CTRL. -/
  | tioArm (p : Fin 16) (value : Word)
  /-- TIO_STOP (R278): a write of STOP. -/
  | tioStop (p : Fin 16)
  /-- TIO_PULSE_START (R276): the earliest scheduled start is reached. -/
  | tioPulseStart (p : Fin 16)
  /-- TIO_PULSE_END (R276): the end of the active pulse is reached. -/
  | tioPulseEnd (p : Fin 16)
  /-- TIO_CAPTURE_EDGE (R279): an edge at the ball, the time in ns of its first sample and for how many samples it holds. -/
  | tioCaptureEdge (p : Fin 16) (rising : Bool) (t held : Nat)
  /-- TIO_CAP_READ (R279): a read of TIO_Pn_CAP_LO. -/
  | tioCapRead (p : Fin 16)
  /-- TIO_CFG_WRITE (R278): a write of one of the pin's registers CFG, START_LO, START_HI, WIDTH, PERIOD, COUNT, OFFSET, LINE. -/
  | tioCfgWrite (p : Fin 16) (reg : Fin 8) (value : Word)
  /-- MBX_WRITE (R356): a write of MBXk_DATA. -/
  | mbxWrite (m : Master) (k : Fin 32) (value : Word)
  /-- MBX_READ (R356): a read of MBXk_DATA. -/
  | mbxRead (m : Master) (k : Fin 32)
  /-- LOCK_READ (R360): a read of LCKk. -/
  | lockRead (m : Master) (k : Fin 64)
  /-- LOCK_WRITE (R360): a write of any value to LCKk. -/
  | lockWrite (m : Master) (k : Fin 64)
  /-- LOCK_FORCE (R362): a write of LCK_FORCE_LO or _HI. -/
  | lockForce (hi : Bool) (value : Word)
  /-- CORE_RESET (R346): a write of RESET. -/
  | coreReset (n : Fin 4)
  /-- CORE_RELEASE (R345): a write of RELEASE. -/
  | coreRelease (n : Fin 4)
  /-- WATCHDOG_KICK (R347): a write of CORE_Cn_KICK. -/
  | watchdogKick (n : Fin 4) (value : Word)
  /-- WATCHDOG_EXPIRE (R347): a watchdog reaches zero. -/
  | watchdogExpire (n : Fin 4)
  /-- CMO_GO (R344): a write of CORE_Cn_CMO. -/
  | cmoGo (n : Fin 4) (value : Word)
  /-- CMO_DONE (R344): a cache operation completes. -/
  | cmoDone (n : Fin 4)
  /-- MTIME_READ (R348): a read of CORE_MTIME_LO. -/
  | mtimeRead
  /-- MTIMER_INTERRUPT (R348): mtime reaches mtimecmp. -/
  | mtimerInterrupt (n : Fin 4)
  /-- PLIC_CLAIM (R349): a context claims an interrupt. -/
  | plicClaim (ctx : Fin 4)
  /-- CRC_DATA_WRITE (R379): a write of CRCu_DATA8, DATA16 or DATA32. -/
  | crcDataWrite (u : Fin 8) (size : Fin 3) (value : Word)
  /-- CRC_START (R380): a write of START. -/
  | crcStart (u : Fin 8)
  /-- CRC_STATE_WRITE (R381): a write of a half of POLY, INIT, XOR, STATE, RESULT or PREFIX. -/
  | crcStateWrite (u : Fin 8) (pair : Fin 6) (hi : Bool) (value : Word)
  /-- CRC_CFG_WRITE (R378): a write of CRCu_CFG. -/
  | crcCfgWrite (u : Fin 8) (value : Word)
  /-- MEM_INIT (R298): a write of MEM_CFG, with INIT as its bit 0 says. -/
  | memInit (value : Word)
  /-- MEM_TRAIN_DONE (R298): a controller ends its training. -/
  | memTrainDone (n : Fin 4) (ok : Bool)
  /-- MEM_REQUEST (R293): a port issues a request for bytes of one burst, which reaches its controller in that DCLK cycle. -/
  | memRequest (port : Fin 9) (source addr len : Nat) (write : Bool) (data : List Byte) (cycle : Nat)
  /-- MEM_REQUEST_COMPLETE (R290): a controller serves, in that DCLK cycle, the first of the requests whose bank timing allows it, given by their places in its queue; the words that its read finds wrong. -/
  | memRequestComplete (n : Fin 4) (ready : List Nat) (wrong : List WordError) (cycle : Nat)
  /-- URGENCY_STEP (R291): the age of the k-th queued request crosses its next threshold. -/
  | urgencyStep (n : Fin 4) (k : Nat)
  /-- REFRESH_DEBT_STEP (R297): tREFIpb / M has passed. -/
  | refreshDebtStep (n : Fin 4)
  /-- REFRESH_ISSUE (R297): a refresh command of the next bank. -/
  | refreshIssue (n : Fin 4)
  /-- MR4_POLL (R297): MR4 is read: the multiplier code, and a temperature above the limit. -/
  | mr4Poll (n : Fin 4) (mult : Fin 3) (hot : Bool)
  /-- DRIFT_CHECK (R299): the oscillators are read: drift in ps. -/
  | driftCheck (n : Fin 4) (ps : Nat)
  /-- DRIFT_RETRAIN_DONE (R299): a retraining ends. -/
  | driftRetrainDone (n : Fin 4) (ok : Bool)
  /-- CAPTURE_GROUP_COMPLETE (R334): the oldest group is complete; bad are the places of the blocks whose snoop CRC mismatches. -/
  | captureGroupComplete (bad : List Nat)
  /-- CAPTURE_BLOCK_STORED (R334): the writes of the first block of the output buffer complete. -/
  | captureBlockStored
  /-- CAP_POS_READ (R333): a read of CAP_WPOS_LO, or of CAP_IPOS_LO. -/
  | capPosRead (idx : Bool)
  /-- DMA_START (R365): a write of START. -/
  | dmaStart (c : Fin 16)
  /-- DMA_FIELD_WRITE (R366): a write of SRC_LO, SRC_HI, DST_LO, DST_HI, LEN or CFG. -/
  | dmaFieldWrite (c : Fin 16) (field : Fin 6) (value : Word)
  /-- DMA_SHADOW_WRITE (R370): a write of a shadow field, numbered as the live ones. -/
  | dmaShadowWrite (c : Fin 16) (field : Fin 6) (value : Word)
  /-- DMA_ARM (R370): a write of ARM. -/
  | dmaArm (c : Fin 16)
  /-- DMA_PAUSE (R372): PAUSE := 1. -/
  | dmaPause (c : Fin 16)
  /-- DMA_RESUME (R372): PAUSE := 0. -/
  | dmaResume (c : Fin 16)
  /-- DMA_DRAIN_DONE (R372): the accesses of a draining channel complete with that many bytes written since the drain was entered. -/
  | dmaDrainDone (c : Fin 16) (bytes : Nat)
  /-- DMA_ABORT (R373): a write of ABORT, and the bytes whose writes had been issued. -/
  | dmaAbort (c : Fin 16) (bytes : Nat)
  /-- DMA_COMPLETE (R367): the transfer completes. -/
  | dmaComplete (c : Fin 16)
  /-- DMA_BUS_ERROR (R374): an access ends with a bus error after that many bytes: of a write or a read, of an uncorrectable DRAM read or another; or it is the last write of a transfer that completed when it was issued. -/
  | dmaBusError (c : Fin 16) (bytes : Nat) (write dram late : Bool)
  /-- DMA_DOMAIN_TIMEOUT (R375): 10 µs have passed: bytes known to be written, bytes of outstanding accesses behind them, and whether the oldest is a write. -/
  | dmaDomainTimeout (c : Fin 16) (bytes outstanding : Nat) (write : Bool)
  /-- PLAN_WRITE (R420): a write of RSV_PLAN, and whether the next line is triggered in the same clock cycle. -/
  | planWrite (value : Word) (crossing : Bool)
  /-- DOMAIN_POWER_DOWN (R429): the work of a domain, 0 Judgement and 1 capture, has ended. -/
  | domainPowerDown (k : Fin 2)
  /-- DOMAIN_POWER_UP (R429): a waking domain is on. -/
  | domainPowerUp (k : Fin 2)
  /-- ENERGY_METER_SAMPLE (R414): a sample: energies of regions 1 to 6 in 2^-16 µJ and sixteen junction temperatures in 0.125 °C. -/
  | energyMeterSample (energy : List Nat) (temps : List Int)
  /-- RILL_EVENT (R383): idle ECLK cycles, then a cycle in which the given numbers of the oldest in-flight events of some rills cross. -/
  | rillEvent (idle : Nat) (events : List (Fin 384 × Nat))
  /-- CELL_FILTER_EXPIRE (R389): the LUT value of a cell has held for FILT cycles. -/
  | cellFilterExpire (k : Fin 64)
  /-- CELL_RATE_WINDOW (R392): 300 ECLK cycles of a cell's window have passed. -/
  | cellRateWindow (k : Fin 64)
  /-- EVT_FIRE (R385): a write of EVT_FIRE. -/
  | evtFire (value : Word)
  /-- EVT_REARM (R392): a write of EVT_REARM_LO or _HI. -/
  | evtRearm (hi : Bool) (value : Word)
  /-- PEER_CRC_ERR (R444): a peer frame with a bad CRC arrives; snoop says that the snoop unit found the mismatch. -/
  | peerCrcErr (n : Fin 3) (snoop : Bool)
  /-- PEER_FRAME_SEND (R446): a frame boundary of a peer port. -/
  | peerFrameSend (n : Fin 3)
  /-- PEER_TIME_DUE (R449): 64 µs since the port's last TIME frame. -/
  | peerTimeDue (n : Fin 3)
  /-- HELLO_REPEAT (R448): 1 ms since the port's last HELLO. -/
  | helloRepeat (n : Fin 3)
  /-- PEER_RETRANSMIT (R445): the reliable frame with sequence number rel has had no ACK for 10 µs. -/
  | peerRetransmit (n : Fin 3) (rel : Nat)
  /-- PEER_RX_TIMEOUT (R447): no valid frame for 10 µs. -/
  | peerRxTimeout (n : Fin 3)
  /-- PEER_STATE_TIMEOUT (R447): 10 ms in a bring-up state, or the 2 ms with the lanes OFF after it. -/
  | peerStateTimeout (n : Fin 3)
  /-- RESET_REGION (R457): a write of RESET_REGION, a level-3 fault, or a fault that is only recorded. -/
  | resetRegion (cause : ResetCause)
  /-- REGION_DRAINED (R457): the outstanding requests of region r + 1 complete. -/
  | regionDrained (r : Fin 5)
  /-- REGION_RESTART (R457): region r + 1 restarts. -/
  | regionRestart (r : Fin 5)
  /-- SAFE (R462): a write of SAFE. -/
  | fltSafe
  /-- EXIT (R463): a write of EXIT, with the chip cause that arrives in the same clock cycle, if one does, and its INDEX. -/
  | fltExit (cause : Option (ChipCause × Nat))
  /-- HIST_CLEAR (R470): a write of HIST_CLEAR. -/
  | histClear
  /-- REFCLK (R466): SYS_REFCLK is lost or off frequency, or a PLL unlocks. -/
  | refclk (cause : RefclkCause)
  /-- SYS_REFCLK_RETURN (R466): SYS_REFCLK is within limits again and the PLLs have locked on it. -/
  | sysRefclkReturn
  /-- CAL_RUN_GO (R113): a write of CAL_RUN with GO. -/
  | calRunGo (value : Word)
  /-- CAL_ABORT (R114): a write of CAL_RUN with ABORT. -/
  | calAbort
  /-- CAL_COMPUTE_DONE (R114): the update of R115 to R117 completes. -/
  | calComputeDone
  /-- CAL_MRAM_COMMIT_DONE (R123): the MRAM write of a footprint and record ends. -/
  | calMramCommitDone (ok : Bool)
  /-- INTERVAL_DUE (R112): INTERVAL seconds have passed since the start stamp of the context's last run. -/
  | intervalDue (c : Fin 48)
  /-- TABLE_WINDOW_WRITE (R98): a write through the correction table window. -/
  | tableWindowWrite (a : Access) (value : Word)
  /-- NODE_WINDOW_WRITE (R177): a write to forest node memory. -/
  | nodeWindowWrite (a : Access) (value : Word)
  /-- WEIGHTS_WINDOW_WRITE (R185): a write to weights memory. -/
  | weightsWindowWrite (a : Access) (value : Word)
  /-- LINK_UP (R302): the PCS aligns and the RS-FEC locks. -/
  | linkUp
  /-- LINK_DOWN (R302): the Ethernet link goes down. -/
  | linkDown
  /-- AN_FAIL (R301): the partner does not resolve to 100G with RS-FEC. -/
  | anFail
  /-- PORST (R397): PORST_N goes low or the internal power-on detector resets the device, and for how many ns the pulse lasts. -/
  | porst (held : Nat)
  /-- RESET_RELEASE (R398): reset is released with BOOT_MODE and the measured levels of the ten rails in mV. -/
  | resetRelease (mode : Fin 4) (levels : List Nat)
  /-- PLL_LOCK (R399): the PLLs lock and the boot ROM runs steps 1 to 6; sfdp says whether the flash answers with valid SFDP tables, octal whether these advertise 8D-8D-8D. -/
  | pllLock (sfdp octal : Bool)
  /-- BOOT_DRAM_READY (R399): every controller has reached RUN and the boot ROM runs steps 8 to 10. -/
  | bootDramReady
  /-- STAGING_WRITE (R319): a write to an RWS field. -/
  | stagingWrite (a : Access) (value : Word)
  /-- SLU_COMMIT (R405): a write of SLU_CMD with COMMIT. -/
  | sluCommit (m : Master) (value : Word)
  /-- SLU_CANCEL (R405): a write of CANCEL. -/
  | sluCancel
  /-- SLU_CHECK_ONLY (R405): a write of CHECK_ONLY without COMMIT. -/
  | sluCheckOnly
  /-- SLU_HW_CHECK_DONE (R405): the hardware part of the check ends. -/
  | sluHwCheckDone
  /-- SLU_FW_VERDICT (R405): a write of SLU_FW_VERDICT. -/
  | sluFwVerdict (value : Word)
  /-- SLU_FW_TIMEOUT (R405): 20 ms have passed since the firmware part was requested. -/
  | sluFwTimeout
  /-- SLU_SWITCH_DONE (R405): every block has switched. -/
  | sluSwitchDone
  /-- FIRST_APPLY_TIMEOUT (R406): 2 s have passed since step 10 of the boot. -/
  | firstApplyTimeout
  /-- SUPPLY_SAMPLE (R465): a sample of rails 0 to 9, in mV. -/
  | supplySample (levels : List Nat)
  /-- CYCLE_COMMIT (R434): the oldest open sort cycle commits. -/
  | cycleCommit
  /-- COMMIT_DEADLINE (R434): COMMIT_US after the next cycle began, the oldest cycle has not committed. -/
  | commitDeadline
  /-- HELLO (R448): a HELLO arrives on peer port n. -/
  | hello (n : Fin 3) (h : PeerHdr) (b : HelloBody)
  /-- PEER_STATUS (R435): a STATUS frame arrives. -/
  | peerStatus (n : Fin 3) (h : PeerHdr) (b : PairStatus)
  /-- PEER_TIME (R449): a TIME frame arrives. -/
  | peerTime (n : Fin 3) (h : PeerHdr) (b : TimeBody)
  /-- PEER_LINE (R440): a LINE frame arrives. -/
  | peerLine (n : Fin 3) (h : PeerHdr) (ts : Nat) (speed : Int)
  /-- PEER_WINDOW (R451): a WINDOW frame arrives. -/
  | peerWindow (n : Fin 3) (h : PeerHdr) (b : WindowReq)
  /-- DIGEST (R442): a DIGEST frame arrives. -/
  | digest (n : Fin 3) (h : PeerHdr) (b : DigestBody)
  /-- ITEM (R437): a state copy ITEM arrives: chunk `part` of an item, and whether more chunks follow. -/
  | pairItem (n : Fin 3) (h : PeerHdr) (line : Nat) (b : ItemBody) (part : Nat) (more : Bool)
  /-- PEER_COMMIT (R411): a COMMIT frame arrives. -/
  | peerCommit (n : Fin 3) (h : PeerHdr) (a : Nat) (m : CommitMsg)
  /-- ACCESS (R445): an ACCESS frame arrives. -/
  | peerAccess (n : Fin 3) (h : PeerHdr) (b : AccessBody)
  /-- ACK (R445): an ACK arrives. -/
  | peerAck (n : Fin 3) (h : PeerHdr) (rel : Nat)
  /-- PEER_TRAIN (R447): a TRAIN frame arrives, a request or a reply. -/
  | peerTrain (n : Fin 3) (h : PeerHdr) (reply : Bool) (word : Nat)
  /-- PEER_STATUS_DUE (R444): every 2 µs a STATUS frame becomes due on each link that is up. -/
  | peerStatusDue
  /-- TAKEOVER (R435): no valid STATUS for PEER_TO_US. -/
  | takeover
  /-- PAIR_ACTIVATE_TIMEOUT (R433): 2 s after its first apply the unit's partner is not ACTIVE. -/
  | pairActivateTimeout
  /-- YIELD (R433): a write of YIELD. -/
  | pairYield
  /-- REJOIN (R433): a write of REJOIN. -/
  | pairRejoin
  /-- PAIR_HELLO_TIMEOUT (R448): the private link has stayed in HELLO by mismatch for 100 ms. -/
  | pairHelloTimeout
  /-- SELFTEST_DONE (R443): the self-test ends. -/
  | selftestDone (pass : Bool)
  /-- LINE_TRIGGER (R264): t_L of the next line of the running line generator is reached. -/
  | lineTrigger
  /-- BELT_STAMP (R267): 1 µs after its trigger in belt mode a line gets its stamp and speed. -/
  | beltStamp
  /-- ETH_FRAME_RECEIVE (R305): a frame is received: its bytes with the FCS, the corrected and the uncorrectable FEC codewords since the frame before, and its timestamp point in 1/256 ns. -/
  | ethFrameReceive (bytes : List Byte) (corrected uncorrectable t : Nat)
  /-- PAUSE_RECEIVE (R304): a PAUSE frame is received. -/
  | pauseReceive (quanta : Nat)
  /-- PAUSE_EXPIRE (R304): the quanta of the last PAUSE frame run out. -/
  | pauseExpire
  /-- ETH_FRAME_TRANSMIT (R308): the transmitter reaches a frame boundary; t is the timestamp point of the frame it sends, in 1/256 ns. -/
  | ethFrameTransmit (t : Nat)
  /-- OBJECT_STREAM_FLUSH (R322): FLUSH_US have passed since the first record of the datagram in hand. -/
  | objectStreamFlush
  /-- CAPTURE_FETCH_DATAGRAM (R323): the capture-fetch engine builds its next datagram. -/
  | captureFetchDatagram
  /-- OPEN (R315): an OPEN arrives. -/
  | kcpOpen (q : KcpMsg)
  /-- CLOSE (R315): a CLOSE arrives. -/
  | kcpClose (q : KcpMsg)
  /-- READ (R320): a READ arrives. -/
  | kcpRead (q : KcpMsg)
  /-- WRITE (R320): a WRITE arrives. -/
  | kcpWrite (q : KcpMsg)
  /-- STAGE_ADD (R319): a STAGE with OP 0 arrives. -/
  | stageAdd (q : KcpMsg)
  /-- STAGE_CANCEL (R319): a STAGE with OP 1 arrives. -/
  | stageCancel (q : KcpMsg)
  /-- COMMIT (R319): a COMMIT arrives. -/
  | kcpCommit (q : KcpMsg)
  /-- STATUS (R313): a STATUS request arrives. -/
  | kcpStatus (q : KcpMsg)
  /-- OBJECT_STREAM_START (R322): an OBJECT_STREAM with OP 1 arrives. -/
  | objectStreamStart (q : KcpMsg)
  /-- OBJECT_STREAM_STOP (R322): an OBJECT_STREAM with OP 0 arrives. -/
  | objectStreamStop (q : KcpMsg)
  /-- CAPTURE_FETCH (R323): a CAPTURE_FETCH arrives. -/
  | captureFetch (q : KcpMsg)
  /-- MAILBOX_POST (R320): a MAILBOX with OP 0 arrives. -/
  | mailboxPost (q : KcpMsg)
  /-- MAILBOX_READ (R320): a MAILBOX with OP 1 arrives. -/
  | mailboxRead (q : KcpMsg)
  /-- EVENT_FIRE (R320): an EVENT_FIRE arrives. -/
  | eventFire (q : KcpMsg)
  /-- NV_ERASE (R321): an NV_PROGRAM with OP 0 arrives. -/
  | nvErase (q : KcpMsg)
  /-- NV_PROGRAM (R321): an NV_PROGRAM with OP 1 arrives. -/
  | nvProgram (q : KcpMsg)
  /-- NV_READ (R321): an NV_PROGRAM with OP 2 arrives. -/
  | nvRead (q : KcpMsg)
  /-- NV_CRC (R321): an NV_PROGRAM with OP 3 arrives. -/
  | nvCrc (q : KcpMsg)
  /-- NV_OP_DONE (R321): the oldest erase or program of the flash completes. -/
  | nvOpDone
  /-- LOG (R313): a LOG request arrives. -/
  | kcpLog (q : KcpMsg)
  /-- UNKNOWN_TYPE (R313): a datagram with a code outside Table 14.5 arrives. -/
  | unknownType (code : Fin 64) (q : KcpMsg)
  /-- KCP_SESSION_IDLE (R315): no valid request of the session has arrived for IDLE_S seconds. -/
  | kcpSessionIdle (session : Nat)
  /-- DEBUG_REQUEST (R350): the debug module is asked for something. -/
  | debugRequest (q : DebugReq)
deriving DecidableEq, Repr, Inhabited

end Sys2Proof
end

