-- ==== Sys2Proof/Decode.lean ====
section
/-! DEFINITION. Commands spelled by the bits of the opcode table. The block decodes no instruction words: no row of the table has bits. -/

namespace Sys2Proof

/-- The command that a word spells by the table's bits: none, for the table gives bits to no row (notes/assumptions/8.md). -/
def decodeTableWord (_nbits _w : Nat) : Option Instr := none

end Sys2Proof
end

