-- ==== Sys2Proof/Machine/Fld.lean ====
section
/-! DEFINITION. Register fields and register descriptions (00_scope.md "Registers", R10): a field is an address and a bit range. -/

namespace Sys2Proof.Machine

/-- A register field: bits [hi:lo] of the register at control-view address `addr`. -/
structure Fld where
  addr : Nat
  hi : Nat
  lo : Nat
deriving DecidableEq, Repr

/-- One row of the register map: address pattern (base, then one stride and count per index, outermost first), reset value, and
per access code of Table 0.4 the mask of the bits that carry it. -/
structure RegDesc where
  base : Nat
  dims : List (Nat × Nat) := []
  reset : Nat := 0
  rw : Nat := 0
  ro : Nat := 0
  rws : Nat := 0
  w1c : Nat := 0
  w1s : Nat := 0
  wo : Nat := 0
  rc : Nat := 0
  rwl : Nat := 0
deriving DecidableEq, Repr

end Sys2Proof.Machine
end

