-- ==== Sys2Proof/Machine/Arith.lean ====
section
/-! DEFINITION. Bit fields, number formats and the rounding of the datapath (R7, R8, R23, R24). -/

namespace Sys2Proof.Machine

/-- The bits of a field within its register. -/
def Fld.mask (f : Fld) : Word := BitVec.ofNat 32 (2 ^ (f.hi + 1 - f.lo) - 1) <<< f.lo

/-- The field's value in the register value `w`. -/
def Fld.of (f : Fld) (w : Word) : Nat := ((w &&& f.mask) >>> f.lo).toNat

/-- The register value `w` with `v` in the field. -/
def Fld.into (f : Fld) (v : Nat) (w : Word) : Word := (w &&& ~~~ f.mask) ||| ((BitVec.ofNat 32 v <<< f.lo) &&& f.mask)

/-- Bits [hi:lo] of a number. -/
def bitsOf (x hi lo : Nat) : Nat := (x >>> lo) % 2 ^ (hi + 1 - lo)

/-- Bit `i` of a number. -/
def bitAt (x i : Nat) : Bool := x.testBit i

/-- The two's-complement reading of the low `n` bits of `x`. -/
def sx (n x : Nat) : Int := if x % 2 ^ n < 2 ^ (n - 1) then ((x % 2 ^ n : Nat) : Int) else ((x % 2 ^ n : Nat) : Int) - (2 ^ n : Nat)

/-- The low `n` bits of the two's-complement form of `x`. -/
def wrapN (n : Nat) (x : Int) : Nat := (x % ((2 ^ n : Nat) : Int)).toNat

/-- `x` limited to [lo, hi] (R8: results saturate at the limits of their format). -/
def clampI (lo hi x : Int) : Int := if x < lo then lo else if hi < x then hi else x

/-- `x` limited to at most `hi`. -/
def capN (hi x : Nat) : Nat := if hi < x then hi else x

/-- Exact division by `d` > 0 rounded half to even (R8). -/
def rneDiv (x : Int) (d : Nat) : Int :=
  let q := x / (d : Int)
  let r := (x % (d : Int)).toNat
  if 2 * r < d then q else if d < 2 * r then q + 1 else if q % 2 = 0 then q else q + 1

/-- Exact shift right by `k` bits rounded half to even (R8). -/
def rneShift (x : Int) (k : Nat) : Int := rneDiv x (2 ^ k)

/-- Division rounded up. -/
def ceilDiv (x d : Nat) : Nat := (x + d - 1) / d

/-- Half-range comparison of 32-bit line numbers: `a` is before `b` (R23). -/
def lineBefore (a b : Nat) : Bool := let dlt := (b + 2 ^ 32 - a % 2 ^ 32) % 2 ^ 32; 0 < dlt && dlt < 2 ^ 31

/-- `a` is at or before `b` under the half-range comparison. -/
def lineLe (a b : Nat) : Bool := a % 2 ^ 32 = b % 2 ^ 32 || lineBefore a b

/-- Line number `a` advanced by `n`, modulo 2^32. -/
def lineAdd (a n : Nat) : Nat := (a + n) % 2 ^ 32

/-- Line number `a` less `n`, modulo 2^32. -/
def lineSub (a n : Nat) : Nat := (a + 2 ^ 32 - n % 2 ^ 32) % 2 ^ 32

/-- The bits of the root of `n` from bit `b − 1` down, added to what is known of it. -/
def rootBits (n : Nat) : Nat → Nat → Nat
  | 0, r => r
  | b + 1, r => rootBits n b (if (r + 2 ^ b) * (r + 2 ^ b) ≤ n then r + 2 ^ b else r)

/-- Integer square root, rounded down. -/
def isqrt (n : Nat) : Nat := rootBits n (n.log2 / 2 + 1) 0

/-- The `n` bytes of `x`, least significant first (R7). -/
def leBytes : Nat → Nat → List Byte
  | 0, _ => []
  | n + 1, x => BitVec.ofNat 8 x :: leBytes n (x / 256)

/-- The number whose bytes, least significant first, are given (R7). -/
def leNat : List Byte → Nat
  | [] => 0
  | b :: t => b.toNat + 256 * leNat t

/-- The number whose bytes, most significant first, are given (fields of published standards keep their order, R7). -/
def beNat (bs : List Byte) : Nat := leNat bs.reverse

/-- The `n` bytes of `x`, most significant first. -/
def beBytes (n x : Nat) : List Byte := (leBytes n x).reverse

/-- Field of `n` bytes at offset `o` of a byte list, little-endian; bytes past its end read 0. -/
def leAt (bs : List Byte) (o n : Nat) : Nat := leNat ((bs.drop o).take n)

end Sys2Proof.Machine
end

