-- ==== Sys2Proof/Machine/Crc.lean ====
section
/-! DEFINITION. The CRC-32C of R64. -/

namespace Sys2Proof.Machine

/-- One bit of the reflected CRC-32C. -/
def crcBit (r : Nat) : Nat := if r % 2 = 1 then (r / 2) ^^^ 0x82F63B78 else r / 2

/-- One byte of the reflected CRC-32C. -/
def crcByte (r : Nat) (b : Byte) : Nat :=
  crcBit (crcBit (crcBit (crcBit (crcBit (crcBit (crcBit (crcBit (r ^^^ b.toNat))))))))

/-- CRC-32C: polynomial 0x1EDC_6F41, reflected input and output, initial value and final XOR 0xFFFF_FFFF (R64). -/
def crc32c (bs : List Byte) : Nat := bs.foldl crcByte 0xFFFFFFFF ^^^ 0xFFFFFFFF

/-- A message with its CRC-32C appended, least significant byte first. -/
def withCrc (bs : List Byte) : List Byte := bs ++ leBytes 4 (crc32c bs)

/-- A message whose last four bytes are the CRC-32C of the bytes before. -/
def crcOk (bs : List Byte) : Bool := 4 ≤ bs.length && leNat (bs.drop (bs.length - 4)) == crc32c (bs.take (bs.length - 4))

end Sys2Proof.Machine
end

