-- ==== Sys2Proof/Config.lean ====
section
/-! DEFINITION. What the manual leaves to one part, one fuse or one board, and the free values: constants without a body, so that
no proof can see a value the manual does not give (notes/assumptions 1 and 2). -/

namespace Sys2Proof.Config

/-- Grade of the part: true for -EP, false for -E (R1; CHIP_STRAP.EP, reset of CORE_DBG). -/
opaque gradeEP : Bool

/-- CHIP_STRAP.KEY_SET: an OTP key hash has been programmed (R404). -/
opaque keySet : Bool

/-- The eight words of the OTP key hash (CHIP_KEYHASHw, R404). -/
opaque keyHash : Nat → Word

/-- CHIP_ID.LEVEL_MAX: the highest behaviour level the stepping supports (LL of the CHIP_ID reset value). -/
opaque levelMax : Byte

/-- CHIP_ID.STEPPING: SS of the CHIP_ID reset value. -/
opaque stepping : Byte

/-- How far the fused V_AVS of R475 lies above 680 mV, in mV. -/
opaque vAvsOver : Fin 141

/-- The fused V_AVS of R475 in mV, from 680 to 820, in the device information block. -/
def vAvs : Nat := 680 + vAvsOver.val

/-- The MAC address in OTP that the boot ROM uses (Table 19.1). -/
opaque otpMac : Nat

/-- The role table that the bytes of an image's section 0x07 stand for; the spec gives no layout. One entry: IPv6, prefix, prefix length,
maximum role, AUTH_REQ, key index (R316). -/
opaque rolesOf : List Byte → List (Bool × Nat × Nat × Nat × Bool × Nat)

/-- Key `k` of the same section (R317). -/
opaque keyOf : List Byte → Nat → List Byte

/-- The bytes of a state copy item behind its kind and apply line, which Table 21.3 names without a layout. -/
opaque itemBytes : ItemBody → List Byte

/-- The static addresses that the image gives the network services (Table 14.3), where it does. -/
opaque staticIp4 : Option (BitVec 32)
opaque staticIp6 : Option (BitVec 128)

/-- Time to live, and hop limit, of the IP packets that the device sends. -/
opaque ipTtl : Byte

/-- The fields of the JTAG IDCODE beside 0x1248 (R485): version and manufacturer. -/
opaque jtagVersion : BitVec 4
opaque jtagMaker : BitVec 11

/-- mvendorid, marchid and mimpid of the cores. -/
opaque coreIds : BitVec 32 × BitVec 64 × BitVec 64

/-- The 8-bit SEC-DED check code of a 64-bit word (R287); the spec names no code. -/
opaque secDed : Nat → Byte

/-- The syndrome of a word read with the given wrong bits, 64 to 71 those of its check code (MEMn_ERR_INFO). -/
opaque syndrome : List Nat → Byte

/-- A free value: a value the manual leaves open after which the device goes on. Its first argument is the counter
`Device.fresh` the step reads and advances, its second tells apart the values one step draws. -/
opaque free : Nat → Nat → Nat

end Sys2Proof.Config
end

