-- ==== Sys2Proof/Machine/Regs.lean ====
section
/-! DEFINITION. The addresses (`R`) and the fields (`F`) of every register of the register tables of the spec (chapters 02 to 22).
A register of a repeated block takes the indices of its block, outermost first, as in the manual's name: CPn_CFG is `R.CPn_CFG n`.
A field is its register's address with its bit range. A field that the manual leaves without a name is called `V`. -/

namespace Sys2Proof.Machine

/-! ## 02_serial_lanes.md: the lane layout (R53), at the lane's base address `b` -/

abbrev R.LN_CTRL (b : Nat) : Nat := b + 0x0
abbrev F.LN_CTRL.RETRAIN (b : Nat) : Fld := ⟨R.LN_CTRL b, 15, 15⟩
abbrev F.LN_CTRL.CDR_BW (b : Nat) : Fld := ⟨R.LN_CTRL b, 11, 10⟩
abbrev F.LN_CTRL.PRBS (b : Nat) : Fld := ⟨R.LN_CTRL b, 9, 8⟩
abbrev F.LN_CTRL.POLINV (b : Nat) : Fld := ⟨R.LN_CTRL b, 5, 5⟩
abbrev F.LN_CTRL.POWER (b : Nat) : Fld := ⟨R.LN_CTRL b, 1, 0⟩
abbrev R.LN_STATUS (b : Nat) : Nat := b + 0x4
abbrev F.LN_STATUS.RD (b : Nat) : Fld := ⟨R.LN_STATUS b, 12, 12⟩
abbrev F.LN_STATUS.ENABLE_PENDING (b : Nat) : Fld := ⟨R.LN_STATUS b, 11, 11⟩
abbrev F.LN_STATUS.RATE (b : Nat) : Fld := ⟨R.LN_STATUS b, 10, 8⟩
abbrev F.LN_STATUS.STATE (b : Nat) : Fld := ⟨R.LN_STATUS b, 3, 0⟩
abbrev R.LN_FLAGS (b : Nat) : Nat := b + 0x8
abbrev F.LN_FLAGS.PRBS_ERR (b : Nat) : Fld := ⟨R.LN_FLAGS b, 8, 8⟩
abbrev F.LN_FLAGS.UNKNOWN_K (b : Nat) : Fld := ⟨R.LN_FLAGS b, 7, 7⟩
abbrev F.LN_FLAGS.TAP_REJ (b : Nat) : Fld := ⟨R.LN_FLAGS b, 6, 6⟩
abbrev F.LN_FLAGS.TRAIN_FAIL (b : Nat) : Fld := ⟨R.LN_FLAGS b, 5, 5⟩
abbrev F.LN_FLAGS.EYE_LOW (b : Nat) : Fld := ⟨R.LN_FLAGS b, 4, 4⟩
abbrev F.LN_FLAGS.DISP_ERR (b : Nat) : Fld := ⟨R.LN_FLAGS b, 3, 3⟩
abbrev F.LN_FLAGS.CODE_ERR (b : Nat) : Fld := ⟨R.LN_FLAGS b, 2, 2⟩
abbrev F.LN_FLAGS.ALIGN_LOST (b : Nat) : Fld := ⟨R.LN_FLAGS b, 1, 1⟩
abbrev F.LN_FLAGS.LOCK_LOST (b : Nat) : Fld := ⟨R.LN_FLAGS b, 0, 0⟩
abbrev R.LN_IRQ_EN (b : Nat) : Nat := b + 0xC
abbrev F.LN_IRQ_EN.EN (b : Nat) : Fld := ⟨R.LN_IRQ_EN b, 8, 0⟩
abbrev R.LN_CODE_ERR (b : Nat) : Nat := b + 0x10
abbrev F.LN_CODE_ERR.COUNT (b : Nat) : Fld := ⟨R.LN_CODE_ERR b, 31, 0⟩
abbrev R.LN_DISP_ERR (b : Nat) : Nat := b + 0x14
abbrev F.LN_DISP_ERR.COUNT (b : Nat) : Fld := ⟨R.LN_DISP_ERR b, 31, 0⟩
abbrev R.LN_ALIGN_LOSS (b : Nat) : Nat := b + 0x18
abbrev F.LN_ALIGN_LOSS.COUNT (b : Nat) : Fld := ⟨R.LN_ALIGN_LOSS b, 31, 0⟩
abbrev R.LN_LOCK_LOSS (b : Nat) : Nat := b + 0x1C
abbrev F.LN_LOCK_LOSS.COUNT (b : Nat) : Fld := ⟨R.LN_LOCK_LOSS b, 31, 0⟩
abbrev R.LN_EYE (b : Nat) : Nat := b + 0x20
abbrev F.LN_EYE.VALID (b : Nat) : Fld := ⟨R.LN_EYE b, 31, 31⟩
abbrev F.LN_EYE.EW (b : Nat) : Fld := ⟨R.LN_EYE b, 30, 24⟩
abbrev F.LN_EYE.SCAN_SEQ (b : Nat) : Fld := ⟨R.LN_EYE b, 23, 16⟩
abbrev F.LN_EYE.EH (b : Nat) : Fld := ⟨R.LN_EYE b, 9, 0⟩
abbrev R.LN_EYE_CTRL (b : Nat) : Nat := b + 0x24
abbrev F.LN_EYE_CTRL.EH_MIN (b : Nat) : Fld := ⟨R.LN_EYE_CTRL b, 25, 16⟩
abbrev F.LN_EYE_CTRL.EW_MIN (b : Nat) : Fld := ⟨R.LN_EYE_CTRL b, 14, 8⟩
abbrev F.LN_EYE_CTRL.ERR_MAX (b : Nat) : Fld := ⟨R.LN_EYE_CTRL b, 7, 4⟩
abbrev F.LN_EYE_CTRL.DWELL (b : Nat) : Fld := ⟨R.LN_EYE_CTRL b, 3, 0⟩
abbrev R.LN_TRAIN_CTRL (b : Nat) : Nat := b + 0x2C
abbrev F.LN_TRAIN_CTRL.MAX_STEPS (b : Nat) : Fld := ⟨R.LN_TRAIN_CTRL b, 15, 8⟩
abbrev F.LN_TRAIN_CTRL.GAIN (b : Nat) : Fld := ⟨R.LN_TRAIN_CTRL b, 7, 4⟩
abbrev F.LN_TRAIN_CTRL.MODE (b : Nat) : Fld := ⟨R.LN_TRAIN_CTRL b, 1, 0⟩
abbrev R.LN_FAR_TAPS (b : Nat) : Nat := b + 0x30
abbrev F.LN_FAR_TAPS.VALID (b : Nat) : Fld := ⟨R.LN_FAR_TAPS b, 31, 31⟩
abbrev F.LN_FAR_TAPS.MAIN (b : Nat) : Fld := ⟨R.LN_FAR_TAPS b, 22, 17⟩
abbrev F.LN_FAR_TAPS.POST (b : Nat) : Fld := ⟨R.LN_FAR_TAPS b, 16, 12⟩
abbrev F.LN_FAR_TAPS.PRE (b : Nat) : Fld := ⟨R.LN_FAR_TAPS b, 11, 8⟩
abbrev R.LN_PRBS_ERR (b : Nat) : Nat := b + 0x34
abbrev F.LN_PRBS_ERR.COUNT (b : Nat) : Fld := ⟨R.LN_PRBS_ERR b, 31, 0⟩
abbrev R.LN_TX_TAPS (b : Nat) : Nat := b + 0x40
abbrev F.LN_TX_TAPS.C_MAIN (b : Nat) : Fld := ⟨R.LN_TX_TAPS b, 22, 17⟩
abbrev F.LN_TX_TAPS.C_POST (b : Nat) : Fld := ⟨R.LN_TX_TAPS b, 16, 12⟩
abbrev F.LN_TX_TAPS.C_PRE (b : Nat) : Fld := ⟨R.LN_TX_TAPS b, 11, 8⟩

/-! ## 03_camera_ports.md -/

abbrev R.CPn_CFG (n : Nat) : Nat := 0x20000000 + n * 0x10000
abbrev F.CPn_CFG.EYE_POLICY (n : Nat) : Fld := ⟨R.CPn_CFG n, 12, 12⟩
abbrev F.CPn_CFG.HEAD_EN (n : Nat) : Fld := ⟨R.CPn_CFG n, 11, 8⟩
abbrev F.CPn_CFG.RATE (n : Nat) : Fld := ⟨R.CPn_CFG n, 4, 2⟩
abbrev F.CPn_CFG.LANES (n : Nat) : Fld := ⟨R.CPn_CFG n, 1, 0⟩
abbrev R.CPn_HEAD_MAP (n : Nat) : Nat := 0x20000004 + n * 0x10000
abbrev F.CPn_HEAD_MAP.CTX3 (n : Nat) : Fld := ⟨R.CPn_HEAD_MAP n, 29, 24⟩
abbrev F.CPn_HEAD_MAP.CTX2 (n : Nat) : Fld := ⟨R.CPn_HEAD_MAP n, 21, 16⟩
abbrev F.CPn_HEAD_MAP.CTX1 (n : Nat) : Fld := ⟨R.CPn_HEAD_MAP n, 13, 8⟩
abbrev F.CPn_HEAD_MAP.CTX0 (n : Nat) : Fld := ⟨R.CPn_HEAD_MAP n, 5, 0⟩
abbrev R.CPn_TRIG_CTRL (n : Nat) : Nat := 0x20000008 + n * 0x10000
abbrev F.CPn_TRIG_CTRL.TIME_PERIOD (n : Nat) : Fld := ⟨R.CPn_TRIG_CTRL n, 31, 16⟩
abbrev F.CPn_TRIG_CTRL.TRIG_LEAD (n : Nat) : Fld := ⟨R.CPn_TRIG_CTRL n, 9, 0⟩
abbrev R.CPn_BC_DELAY (n : Nat) : Nat := 0x2000000C + n * 0x10000
abbrev F.CPn_BC_DELAY.DELAY (n : Nat) : Fld := ⟨R.CPn_BC_DELAY n, 23, 0⟩
abbrev R.CPn_LINK_CTRL (n : Nat) : Nat := 0x20000010 + n * 0x10000
abbrev F.CPn_LINK_CTRL.RESTART (n : Nat) : Fld := ⟨R.CPn_LINK_CTRL n, 0, 0⟩
abbrev R.CPn_STATUS (n : Nat) : Nat := 0x20000014 + n * 0x10000
abbrev F.CPn_STATUS.SYNC_LANES (n : Nat) : Fld := ⟨R.CPn_STATUS n, 15, 12⟩
abbrev F.CPn_STATUS.RETRIES (n : Nat) : Fld := ⟨R.CPn_STATUS n, 9, 8⟩
abbrev F.CPn_STATUS.STATE (n : Nat) : Fld := ⟨R.CPn_STATUS n, 3, 0⟩
abbrev R.CPn_FLAGS (n : Nat) : Nat := 0x20000018 + n * 0x10000
abbrev F.CPn_FLAGS.UNKNOWN_CTL (n : Nat) : Fld := ⟨R.CPn_FLAGS n, 15, 15⟩
abbrev F.CPn_FLAGS.FAULT (n : Nat) : Fld := ⟨R.CPn_FLAGS n, 14, 14⟩
abbrev F.CPn_FLAGS.CAM_EVENT (n : Nat) : Fld := ⟨R.CPn_FLAGS n, 13, 13⟩
abbrev F.CPn_FLAGS.NO_LINES (n : Nat) : Fld := ⟨R.CPn_FLAGS n, 12, 12⟩
abbrev F.CPn_FLAGS.RESYNC (n : Nat) : Fld := ⟨R.CPn_FLAGS n, 11, 11⟩
abbrev F.CPn_FLAGS.DESKEW_ERR (n : Nat) : Fld := ⟨R.CPn_FLAGS n, 10, 10⟩
abbrev F.CPn_FLAGS.CTL_REJ (n : Nat) : Fld := ⟨R.CPn_FLAGS n, 9, 9⟩
abbrev F.CPn_FLAGS.CTL_TIMEOUT (n : Nat) : Fld := ⟨R.CPn_FLAGS n, 8, 8⟩
abbrev F.CPn_FLAGS.EXP_REJ (n : Nat) : Fld := ⟨R.CPn_FLAGS n, 7, 7⟩
abbrev F.CPn_FLAGS.SETTINGS_MISMATCH (n : Nat) : Fld := ⟨R.CPn_FLAGS n, 6, 6⟩
abbrev F.CPn_FLAGS.ABORT (n : Nat) : Fld := ⟨R.CPn_FLAGS n, 5, 5⟩
abbrev F.CPn_FLAGS.OVF (n : Nat) : Fld := ⟨R.CPn_FLAGS n, 4, 4⟩
abbrev F.CPn_FLAGS.LOST (n : Nat) : Fld := ⟨R.CPn_FLAGS n, 3, 3⟩
abbrev F.CPn_FLAGS.DUP (n : Nat) : Fld := ⟨R.CPn_FLAGS n, 2, 2⟩
abbrev F.CPn_FLAGS.HDR_ERR (n : Nat) : Fld := ⟨R.CPn_FLAGS n, 1, 1⟩
abbrev F.CPn_FLAGS.CRC_ERR (n : Nat) : Fld := ⟨R.CPn_FLAGS n, 0, 0⟩
abbrev R.CPn_IRQ_EN (n : Nat) : Nat := 0x2000001C + n * 0x10000
abbrev F.CPn_IRQ_EN.EN (n : Nat) : Fld := ⟨R.CPn_IRQ_EN n, 15, 0⟩
abbrev R.CPn_LINES_OK (n : Nat) : Nat := 0x20000020 + n * 0x10000
abbrev F.CPn_LINES_OK.COUNT (n : Nat) : Fld := ⟨R.CPn_LINES_OK n, 31, 0⟩
abbrev R.CPn_LINES_LOST (n : Nat) : Nat := 0x20000024 + n * 0x10000
abbrev F.CPn_LINES_LOST.COUNT (n : Nat) : Fld := ⟨R.CPn_LINES_LOST n, 31, 0⟩
abbrev R.CPn_CRC_ERR (n : Nat) : Nat := 0x20000028 + n * 0x10000
abbrev F.CPn_CRC_ERR.COUNT (n : Nat) : Fld := ⟨R.CPn_CRC_ERR n, 31, 0⟩
abbrev R.CPn_HDR_ERR (n : Nat) : Nat := 0x2000002C + n * 0x10000
abbrev F.CPn_HDR_ERR.COUNT (n : Nat) : Fld := ⟨R.CPn_HDR_ERR n, 31, 0⟩
abbrev R.CPn_FRAME_ERR (n : Nat) : Nat := 0x20000030 + n * 0x10000
abbrev F.CPn_FRAME_ERR.COUNT (n : Nat) : Fld := ⟨R.CPn_FRAME_ERR n, 31, 0⟩
abbrev R.CPn_DUP (n : Nat) : Nat := 0x20000034 + n * 0x10000
abbrev F.CPn_DUP.COUNT (n : Nat) : Fld := ⟨R.CPn_DUP n, 31, 0⟩
abbrev R.CPn_OVF (n : Nat) : Nat := 0x20000038 + n * 0x10000
abbrev F.CPn_OVF.COUNT (n : Nat) : Fld := ⟨R.CPn_OVF n, 31, 0⟩
abbrev R.CPn_ABORTS (n : Nat) : Nat := 0x2000003C + n * 0x10000
abbrev F.CPn_ABORTS.COUNT (n : Nat) : Fld := ⟨R.CPn_ABORTS n, 31, 0⟩
abbrev R.CPn_SET_MISMATCH (n : Nat) : Nat := 0x20000040 + n * 0x10000
abbrev F.CPn_SET_MISMATCH.COUNT (n : Nat) : Fld := ⟨R.CPn_SET_MISMATCH n, 31, 0⟩
abbrev R.CPn_DESKEW_ERR (n : Nat) : Nat := 0x20000044 + n * 0x10000
abbrev F.CPn_DESKEW_ERR.COUNT (n : Nat) : Fld := ⟨R.CPn_DESKEW_ERR n, 31, 0⟩
abbrev R.CPn_BUF_HWM (n : Nat) : Nat := 0x20000048 + n * 0x10000
abbrev F.CPn_BUF_HWM.BYTES (n : Nat) : Fld := ⟨R.CPn_BUF_HWM n, 16, 0⟩
abbrev R.CPn_SKEW (n : Nat) : Nat := 0x2000004C + n * 0x10000
abbrev F.CPn_SKEW.LANE3 (n : Nat) : Fld := ⟨R.CPn_SKEW n, 31, 24⟩
abbrev F.CPn_SKEW.LANE2 (n : Nat) : Fld := ⟨R.CPn_SKEW n, 23, 16⟩
abbrev F.CPn_SKEW.LANE1 (n : Nat) : Fld := ⟨R.CPn_SKEW n, 15, 8⟩
abbrev R.CPn_TEMP01 (n : Nat) : Nat := 0x20000050 + n * 0x10000
abbrev F.CPn_TEMP01.HEAD1 (n : Nat) : Fld := ⟨R.CPn_TEMP01 n, 31, 16⟩
abbrev F.CPn_TEMP01.HEAD0 (n : Nat) : Fld := ⟨R.CPn_TEMP01 n, 15, 0⟩
abbrev R.CPn_TEMP23 (n : Nat) : Nat := 0x20000054 + n * 0x10000
abbrev F.CPn_TEMP23.HEAD3 (n : Nat) : Fld := ⟨R.CPn_TEMP23 n, 31, 16⟩
abbrev F.CPn_TEMP23.HEAD2 (n : Nat) : Fld := ⟨R.CPn_TEMP23 n, 15, 0⟩
abbrev R.CPn_CAM_EVENT (n : Nat) : Nat := 0x20000058 + n * 0x10000
abbrev F.CPn_CAM_EVENT.CODE (n : Nat) : Fld := ⟨R.CPn_CAM_EVENT n, 31, 0⟩
abbrev R.CPn_EXP_LINE (n : Nat) : Nat := 0x20000060 + n * 0x10000
abbrev F.CPn_EXP_LINE.APPLY_LINE (n : Nat) : Fld := ⟨R.CPn_EXP_LINE n, 31, 0⟩
abbrev R.CPn_EXP_TIME (n : Nat) : Nat := 0x20000064 + n * 0x10000
abbrev F.CPn_EXP_TIME.EXPOSURE_NS (n : Nat) : Fld := ⟨R.CPn_EXP_TIME n, 31, 0⟩
abbrev R.CPn_EXP_SET (n : Nat) : Nat := 0x20000068 + n * 0x10000
abbrev F.CPn_EXP_SET.GAIN (n : Nat) : Fld := ⟨R.CPn_EXP_SET n, 31, 16⟩
abbrev F.CPn_EXP_SET.SETTINGS_ID (n : Nat) : Fld := ⟨R.CPn_EXP_SET n, 15, 0⟩
abbrev R.CPn_EXP_CMD (n : Nat) : Nat := 0x2000006C + n * 0x10000
abbrev F.CPn_EXP_CMD.BUSY (n : Nat) : Fld := ⟨R.CPn_EXP_CMD n, 31, 31⟩
abbrev F.CPn_EXP_CMD.GO (n : Nat) : Fld := ⟨R.CPn_EXP_CMD n, 8, 8⟩
abbrev F.CPn_EXP_CMD.HEAD (n : Nat) : Fld := ⟨R.CPn_EXP_CMD n, 1, 0⟩
abbrev R.CPn_SETTINGS01 (n : Nat) : Nat := 0x20000070 + n * 0x10000
abbrev F.CPn_SETTINGS01.HEAD1 (n : Nat) : Fld := ⟨R.CPn_SETTINGS01 n, 31, 16⟩
abbrev F.CPn_SETTINGS01.HEAD0 (n : Nat) : Fld := ⟨R.CPn_SETTINGS01 n, 15, 0⟩
abbrev R.CPn_SETTINGS23 (n : Nat) : Nat := 0x20000074 + n * 0x10000
abbrev F.CPn_SETTINGS23.HEAD3 (n : Nat) : Fld := ⟨R.CPn_SETTINGS23 n, 31, 16⟩
abbrev F.CPn_SETTINGS23.HEAD2 (n : Nat) : Fld := ⟨R.CPn_SETTINGS23 n, 15, 0⟩
abbrev R.CPn_CTL_CMD (n : Nat) : Nat := 0x20000080 + n * 0x10000
abbrev F.CPn_CTL_CMD.BUSY (n : Nat) : Fld := ⟨R.CPn_CTL_CMD n, 31, 31⟩
abbrev F.CPn_CTL_CMD.RESULT (n : Nat) : Fld := ⟨R.CPn_CTL_CMD n, 30, 28⟩
abbrev F.CPn_CTL_CMD.CAM_STATUS (n : Nat) : Fld := ⟨R.CPn_CTL_CMD n, 23, 16⟩
abbrev F.CPn_CTL_CMD.COUNT (n : Nat) : Fld := ⟨R.CPn_CTL_CMD n, 12, 8⟩
abbrev F.CPn_CTL_CMD.WRITE (n : Nat) : Fld := ⟨R.CPn_CTL_CMD n, 4, 4⟩
abbrev F.CPn_CTL_CMD.GO (n : Nat) : Fld := ⟨R.CPn_CTL_CMD n, 0, 0⟩
abbrev R.CPn_CTL_ADDR (n : Nat) : Nat := 0x20000084 + n * 0x10000
abbrev F.CPn_CTL_ADDR.ADDR (n : Nat) : Fld := ⟨R.CPn_CTL_ADDR n, 31, 0⟩
abbrev R.CPn_CTL_DATAk (n : Nat) (k : Nat) : Nat := 0x200000C0 + n * 0x10000 + k * 0x4
abbrev F.CPn_CTL_DATAk.DATA (n : Nat) (k : Nat) : Fld := ⟨R.CPn_CTL_DATAk n k, 31, 0⟩

/-! ## 04_correction_pipes.md -/

abbrev R.PIPE_STATUS : Nat := 0x20200000
abbrev F.PIPE_STATUS.BUSY : Fld := ⟨R.PIPE_STATUS, 7, 0⟩
abbrev R.PIPE_WAIT : Nat := 0x20200004
abbrev F.PIPE_WAIT.LINES : Fld := ⟨R.PIPE_WAIT, 7, 0⟩
abbrev R.PIPE_WAIT_HWM : Nat := 0x20200008
abbrev F.PIPE_WAIT_HWM.LINES : Fld := ⟨R.PIPE_WAIT_HWM, 7, 0⟩
abbrev R.PIPE_LATE_START : Nat := 0x2020000C
abbrev F.PIPE_LATE_START.COUNT : Fld := ⟨R.PIPE_LATE_START, 31, 0⟩
abbrev R.PIPE_STAT_SEL : Nat := 0x20200010
abbrev F.PIPE_STAT_SEL.CTX : Fld := ⟨R.PIPE_STAT_SEL, 5, 0⟩
abbrev R.CXn_FMT (n : Nat) : Nat := 0x20100000 + n * 0x1000
abbrev F.CXn_FMT.LAYOUT (n : Nat) : Fld := ⟨R.CXn_FMT n, 31, 24⟩
abbrev F.CXn_FMT.PIXFMT (n : Nat) : Fld := ⟨R.CXn_FMT n, 23, 16⟩
abbrev F.CXn_FMT.PIXELS (n : Nat) : Fld := ⟨R.CXn_FMT n, 15, 0⟩
abbrev R.CXn_CFG (n : Nat) : Nat := 0x20100004 + n * 0x1000
abbrev F.CXn_CFG.MOSAIC_R1O (n : Nat) : Fld := ⟨R.CXn_CFG n, 31, 30⟩
abbrev F.CXn_CFG.MOSAIC_R1E (n : Nat) : Fld := ⟨R.CXn_CFG n, 29, 28⟩
abbrev F.CXn_CFG.MOSAIC_R0O (n : Nat) : Fld := ⟨R.CXn_CFG n, 27, 26⟩
abbrev F.CXn_CFG.MOSAIC_R0E (n : Nat) : Fld := ⟨R.CXn_CFG n, 25, 24⟩
abbrev F.CXn_CFG.NB_OUT (n : Nat) : Fld := ⟨R.CXn_CFG n, 19, 16⟩
abbrev F.CXn_CFG.STAT_TAP (n : Nat) : Fld := ⟨R.CXn_CFG n, 12, 12⟩
abbrev F.CXn_CFG.MATRIX_EN (n : Nat) : Fld := ⟨R.CXn_CFG n, 4, 4⟩
abbrev F.CXn_CFG.GI_EN (n : Nat) : Fld := ⟨R.CXn_CFG n, 3, 3⟩
abbrev F.CXn_CFG.XT_EN (n : Nat) : Fld := ⟨R.CXn_CFG n, 2, 2⟩
abbrev F.CXn_CFG.DEFECT_EN (n : Nat) : Fld := ⟨R.CXn_CFG n, 1, 1⟩
abbrev R.CXn_LAT (n : Nat) : Nat := 0x20100008 + n * 0x1000
abbrev F.CXn_LAT.LAT_TARGET (n : Nat) : Fld := ⟨R.CXn_LAT n, 9, 0⟩
abbrev R.CXn_PED (n : Nat) : Nat := 0x2010000C + n * 0x1000
abbrev F.CXn_PED.PED (n : Nat) : Fld := ⟨R.CXn_PED n, 15, 0⟩
abbrev R.CXn_TBL (n : Nat) : Nat := 0x20100010 + n * 0x1000
abbrev F.CXn_TBL.TBL_BASE (n : Nat) : Fld := ⟨R.CXn_TBL n, 19, 0⟩
abbrev R.CXn_GI (n : Nat) : Nat := 0x20100014 + n * 0x1000
abbrev F.CXn_GI.GI_SCALE (n : Nat) : Fld := ⟨R.CXn_GI n, 31, 16⟩
abbrev F.CXn_GI.GI_OFFSET (n : Nat) : Fld := ⟨R.CXn_GI n, 15, 0⟩
abbrev R.CXn_LIN0 (n : Nat) : Nat := 0x20100018 + n * 0x1000
abbrev F.CXn_LIN0.SLOT3 (n : Nat) : Fld := ⟨R.CXn_LIN0 n, 28, 24⟩
abbrev F.CXn_LIN0.SLOT2 (n : Nat) : Fld := ⟨R.CXn_LIN0 n, 20, 16⟩
abbrev F.CXn_LIN0.SLOT1 (n : Nat) : Fld := ⟨R.CXn_LIN0 n, 12, 8⟩
abbrev F.CXn_LIN0.SLOT0 (n : Nat) : Fld := ⟨R.CXn_LIN0 n, 4, 0⟩
abbrev R.CXn_LIN1 (n : Nat) : Nat := 0x2010001C + n * 0x1000
abbrev F.CXn_LIN1.SLOT7 (n : Nat) : Fld := ⟨R.CXn_LIN1 n, 28, 24⟩
abbrev F.CXn_LIN1.SLOT6 (n : Nat) : Fld := ⟨R.CXn_LIN1 n, 20, 16⟩
abbrev F.CXn_LIN1.SLOT5 (n : Nat) : Fld := ⟨R.CXn_LIN1 n, 12, 8⟩
abbrev F.CXn_LIN1.SLOT4 (n : Nat) : Fld := ⟨R.CXn_LIN1 n, 4, 0⟩
abbrev R.CXn_XTALKs (n : Nat) (s : Nat) : Nat := 0x20100020 + n * 0x1000 + s * 0x4
abbrev F.CXn_XTALKs.XT_B (n : Nat) (s : Nat) : Fld := ⟨R.CXn_XTALKs n s, 31, 16⟩
abbrev F.CXn_XTALKs.XT_A (n : Nat) (s : Nat) : Fld := ⟨R.CXn_XTALKs n s, 15, 0⟩
abbrev R.CXn_MATo_k (n : Nat) (o : Nat) (k : Nat) : Nat := 0x20100040 + n * 0x1000 + o * 0x10 + k * 0x4
abbrev F.CXn_MATo_k.M_ODD (n : Nat) (o : Nat) (k : Nat) : Fld := ⟨R.CXn_MATo_k n o k, 31, 16⟩
abbrev F.CXn_MATo_k.M_EVEN (n : Nat) (o : Nat) (k : Nat) : Fld := ⟨R.CXn_MATo_k n o k, 15, 0⟩
abbrev R.CXn_STAT_CTRL (n : Nat) : Nat := 0x201000C0 + n * 0x1000
abbrev F.CXn_STAT_CTRL.STAT_LINES (n : Nat) : Fld := ⟨R.CXn_STAT_CTRL n, 31, 16⟩
abbrev F.CXn_STAT_CTRL.RELEASE (n : Nat) : Fld := ⟨R.CXn_STAT_CTRL n, 0, 0⟩
abbrev R.CXn_STAT_STATUS (n : Nat) : Nat := 0x201000C4 + n * 0x1000
abbrev F.CXn_STAT_STATUS.READY (n : Nat) : Fld := ⟨R.CXn_STAT_STATUS n, 31, 31⟩
abbrev F.CXn_STAT_STATUS.OVERRUN (n : Nat) : Fld := ⟨R.CXn_STAT_STATUS n, 30, 30⟩
abbrev F.CXn_STAT_STATUS.BLOCK_SEQ (n : Nat) : Fld := ⟨R.CXn_STAT_STATUS n, 23, 16⟩
abbrev F.CXn_STAT_STATUS.SETTINGS_ID (n : Nat) : Fld := ⟨R.CXn_STAT_STATUS n, 15, 0⟩
abbrev R.CXn_STAT_LINES (n : Nat) : Nat := 0x201000C8 + n * 0x1000
abbrev F.CXn_STAT_LINES.LINES (n : Nat) : Fld := ⟨R.CXn_STAT_LINES n, 31, 0⟩
abbrev R.CXn_LINES_DONE (n : Nat) : Nat := 0x201000D0 + n * 0x1000
abbrev F.CXn_LINES_DONE.COUNT (n : Nat) : Fld := ⟨R.CXn_LINES_DONE n, 31, 0⟩
abbrev R.CXn_LINES_LATE (n : Nat) : Nat := 0x201000D4 + n * 0x1000
abbrev F.CXn_LINES_LATE.COUNT (n : Nat) : Fld := ⟨R.CXn_LINES_LATE n, 31, 0⟩
abbrev R.CXn_DEFECT_UNRES (n : Nat) : Nat := 0x201000D8 + n * 0x1000
abbrev F.CXn_DEFECT_UNRES.COUNT (n : Nat) : Fld := ⟨R.CXn_DEFECT_UNRES n, 31, 0⟩
abbrev R.CXn_CLIP (n : Nat) : Nat := 0x201000DC + n * 0x1000
abbrev F.CXn_CLIP.COUNT (n : Nat) : Fld := ⟨R.CXn_CLIP n, 31, 0⟩
abbrev R.CXn_STAT_SUMLO_b (n : Nat) (b : Nat) : Nat := 0x20100100 + n * 0x1000 + b * 0x10
abbrev F.CXn_STAT_SUMLO_b.SUM_LO (n : Nat) (b : Nat) : Fld := ⟨R.CXn_STAT_SUMLO_b n b, 31, 0⟩
abbrev R.CXn_STAT_SUMHI_b (n : Nat) (b : Nat) : Nat := 0x20100104 + n * 0x1000 + b * 0x10
abbrev F.CXn_STAT_SUMHI_b.SUM_HI (n : Nat) (b : Nat) : Fld := ⟨R.CXn_STAT_SUMHI_b n b, 15, 0⟩
abbrev R.CXn_STAT_MINMAX_b (n : Nat) (b : Nat) : Nat := 0x20100108 + n * 0x1000 + b * 0x10
abbrev F.CXn_STAT_MINMAX_b.MAX (n : Nat) (b : Nat) : Fld := ⟨R.CXn_STAT_MINMAX_b n b, 31, 16⟩
abbrev F.CXn_STAT_MINMAX_b.MIN (n : Nat) (b : Nat) : Fld := ⟨R.CXn_STAT_MINMAX_b n b, 15, 0⟩

/-! ## 05_gap_calibration.md -/

abbrev R.CAL_CTRL : Nat := 0x20300000
abbrev F.CAL_CTRL.APPLY_LAG : Fld := ⟨R.CAL_CTRL, 31, 22⟩
abbrev F.CAL_CTRL.GUARD_L : Fld := ⟨R.CAL_CTRL, 21, 20⟩
abbrev F.CAL_CTRL.GUARD_X : Fld := ⟨R.CAL_CTRL, 18, 16⟩
abbrev F.CAL_CTRL.N_MIN_LOG2 : Fld := ⟨R.CAL_CTRL, 15, 12⟩
abbrev F.CAL_CTRL.DECIM : Fld := ⟨R.CAL_CTRL, 11, 8⟩
abbrev F.CAL_CTRL.ENABLE : Fld := ⟨R.CAL_CTRL, 0, 0⟩
abbrev R.CAL_TRIG : Nat := 0x20300004
abbrev F.CAL_TRIG.TIMEOUT : Fld := ⟨R.CAL_TRIG, 31, 24⟩
abbrev F.CAL_TRIG.INTERVAL : Fld := ⟨R.CAL_TRIG, 23, 8⟩
abbrev F.CAL_TRIG.DT_TRIG : Fld := ⟨R.CAL_TRIG, 7, 0⟩
abbrev R.CAL_DRAM_BASE : Nat := 0x20300008
abbrev F.CAL_DRAM_BASE.ADDR : Fld := ⟨R.CAL_DRAM_BASE, 31, 23⟩
abbrev R.CAL_DRAM_BASE_HI : Nat := 0x2030000C
abbrev F.CAL_DRAM_BASE_HI.ADDR : Fld := ⟨R.CAL_DRAM_BASE_HI, 7, 0⟩
abbrev R.CAL_RUN : Nat := 0x20300010
abbrev F.CAL_RUN.GO : Fld := ⟨R.CAL_RUN, 31, 31⟩
abbrev F.CAL_RUN.ABORT : Fld := ⟨R.CAL_RUN, 30, 30⟩
abbrev F.CAL_RUN.CTX : Fld := ⟨R.CAL_RUN, 5, 0⟩
abbrev R.CAL_RUN_LINE : Nat := 0x20300014
abbrev F.CAL_RUN_LINE.START_LINE : Fld := ⟨R.CAL_RUN_LINE, 31, 0⟩
abbrev R.CAL_STATUS : Nat := 0x20300018
abbrev F.CAL_STATUS.BUSY : Fld := ⟨R.CAL_STATUS, 31, 31⟩
abbrev F.CAL_STATUS.SUSPENDED : Fld := ⟨R.CAL_STATUS, 30, 30⟩
abbrev F.CAL_STATUS.MRAM_BUSY : Fld := ⟨R.CAL_STATUS, 29, 29⟩
abbrev F.CAL_STATUS.CTX : Fld := ⟨R.CAL_STATUS, 21, 16⟩
abbrev F.CAL_STATUS.STATE : Fld := ⟨R.CAL_STATUS, 3, 0⟩
abbrev R.CAL_FLAGS : Nat := 0x2030001C
abbrev F.CAL_FLAGS.DUE : Fld := ⟨R.CAL_FLAGS, 7, 7⟩
abbrev F.CAL_FLAGS.SETS_DISCARDED : Fld := ⟨R.CAL_FLAGS, 6, 6⟩
abbrev F.CAL_FLAGS.MRAM_ERR : Fld := ⟨R.CAL_FLAGS, 5, 5⟩
abbrev F.CAL_FLAGS.DELTA_SAT : Fld := ⟨R.CAL_FLAGS, 4, 4⟩
abbrev F.CAL_FLAGS.RUN_REJ : Fld := ⟨R.CAL_FLAGS, 3, 3⟩
abbrev F.CAL_FLAGS.RUN_ABANDONED : Fld := ⟨R.CAL_FLAGS, 2, 2⟩
abbrev F.CAL_FLAGS.RUN_TIMEOUT : Fld := ⟨R.CAL_FLAGS, 1, 1⟩
abbrev F.CAL_FLAGS.RUN_DONE : Fld := ⟨R.CAL_FLAGS, 0, 0⟩
abbrev R.CAL_IRQ_EN : Nat := 0x20300020
abbrev F.CAL_IRQ_EN.EN : Fld := ⟨R.CAL_IRQ_EN, 7, 0⟩
abbrev R.CAL_DUE_LO : Nat := 0x20300024
abbrev F.CAL_DUE_LO.DUE : Fld := ⟨R.CAL_DUE_LO, 31, 0⟩
abbrev R.CAL_DUE_HI : Nat := 0x20300028
abbrev F.CAL_DUE_HI.DUE : Fld := ⟨R.CAL_DUE_HI, 15, 0⟩
abbrev R.CAL_PENDING : Nat := 0x2030002C
abbrev F.CAL_PENDING.ENTRIES : Fld := ⟨R.CAL_PENDING, 16, 0⟩
abbrev R.CAL_RUNS_OK : Nat := 0x20300040
abbrev F.CAL_RUNS_OK.COUNT : Fld := ⟨R.CAL_RUNS_OK, 31, 0⟩
abbrev R.CAL_TIMEOUTS : Nat := 0x20300044
abbrev F.CAL_TIMEOUTS.COUNT : Fld := ⟨R.CAL_TIMEOUTS, 31, 0⟩
abbrev R.CAL_ABANDONED : Nat := 0x20300048
abbrev F.CAL_ABANDONED.COUNT : Fld := ⟨R.CAL_ABANDONED, 31, 0⟩
abbrev R.CAL_SKIPPED : Nat := 0x2030004C
abbrev F.CAL_SKIPPED.COUNT : Fld := ⟨R.CAL_SKIPPED, 31, 0⟩
abbrev R.CAL_REJECT_BP : Nat := 0x20300050
abbrev F.CAL_REJECT_BP.COUNT : Fld := ⟨R.CAL_REJECT_BP, 31, 0⟩
abbrev R.CAL_DELTA_SAT : Nat := 0x20300054
abbrev F.CAL_DELTA_SAT.COUNT : Fld := ⟨R.CAL_DELTA_SAT, 31, 0⟩
abbrev R.CAL_Cn_CFG (n : Nat) : Nat := 0x20301000 + n * 0x40
abbrev F.CAL_Cn_CFG.SD_MAX (n : Nat) : Fld := ⟨R.CAL_Cn_CFG n, 31, 16⟩
abbrev F.CAL_Cn_CFG.DARK_EN (n : Nat) : Fld := ⟨R.CAL_Cn_CFG n, 1, 1⟩
abbrev F.CAL_Cn_CFG.CAL_EN (n : Nat) : Fld := ⟨R.CAL_Cn_CFG n, 0, 0⟩
abbrev R.CAL_Cn_RANGE (n : Nat) : Nat := 0x20301004 + n * 0x40
abbrev F.CAL_Cn_RANGE.PIX_LAST (n : Nat) : Fld := ⟨R.CAL_Cn_RANGE n, 28, 16⟩
abbrev F.CAL_Cn_RANGE.PIX_FIRST (n : Nat) : Fld := ⟨R.CAL_Cn_RANGE n, 12, 0⟩
abbrev R.CAL_Cn_DARK (n : Nat) : Nat := 0x20301008 + n * 0x40
abbrev F.CAL_Cn_DARK.DARK_LAST (n : Nat) : Fld := ⟨R.CAL_Cn_DARK n, 28, 16⟩
abbrev F.CAL_Cn_DARK.DARK_FIRST (n : Nat) : Fld := ⟨R.CAL_Cn_DARK n, 12, 0⟩
abbrev R.CAL_Cn_TGTk (n : Nat) (k : Nat) : Nat := 0x2030100C + n * 0x40 + k * 0x4
abbrev F.CAL_Cn_TGTk.TGT_ODD (n : Nat) (k : Nat) : Fld := ⟨R.CAL_Cn_TGTk n k, 31, 16⟩
abbrev F.CAL_Cn_TGTk.TGT_EVEN (n : Nat) (k : Nat) : Fld := ⟨R.CAL_Cn_TGTk n k, 15, 0⟩
abbrev R.CAL_Cn_SETT01 (n : Nat) : Nat := 0x2030101C + n * 0x40
abbrev F.CAL_Cn_SETT01.T1 (n : Nat) : Fld := ⟨R.CAL_Cn_SETT01 n, 31, 16⟩
abbrev F.CAL_Cn_SETT01.T0 (n : Nat) : Fld := ⟨R.CAL_Cn_SETT01 n, 15, 0⟩
abbrev R.CAL_Cn_SETT23 (n : Nat) : Nat := 0x20301020 + n * 0x40
abbrev F.CAL_Cn_SETT23.T3 (n : Nat) : Fld := ⟨R.CAL_Cn_SETT23 n, 31, 16⟩
abbrev F.CAL_Cn_SETT23.T2 (n : Nat) : Fld := ⟨R.CAL_Cn_SETT23 n, 15, 0⟩
abbrev R.CAL_Cn_SETS (n : Nat) : Nat := 0x20301024 + n * 0x40
abbrev F.CAL_Cn_SETS.T_APPLIED (n : Nat) : Fld := ⟨R.CAL_Cn_SETS n, 31, 16⟩
abbrev F.CAL_Cn_SETS.NO_TEMP (n : Nat) : Fld := ⟨R.CAL_Cn_SETS n, 4, 4⟩
abbrev F.CAL_Cn_SETS.VALID (n : Nat) : Fld := ⟨R.CAL_Cn_SETS n, 3, 0⟩
abbrev R.CAL_Cn_RESID (n : Nat) : Nat := 0x20301028 + n * 0x40
abbrev F.CAL_Cn_RESID.RMS (n : Nat) : Fld := ⟨R.CAL_Cn_RESID n, 31, 16⟩
abbrev F.CAL_Cn_RESID.MAX (n : Nat) : Fld := ⟨R.CAL_Cn_RESID n, 15, 0⟩
abbrev R.CAL_Cn_RESULT (n : Nat) : Nat := 0x2030102C + n * 0x40
abbrev F.CAL_Cn_RESULT.CODE (n : Nat) : Fld := ⟨R.CAL_Cn_RESULT n, 31, 28⟩
abbrev F.CAL_Cn_RESULT.SLOT (n : Nat) : Fld := ⟨R.CAL_Cn_RESULT n, 25, 24⟩
abbrev F.CAL_Cn_RESULT.INTERVAL_DUE (n : Nat) : Fld := ⟨R.CAL_Cn_RESULT n, 1, 1⟩
abbrev F.CAL_Cn_RESULT.TEMP_DUE (n : Nat) : Fld := ⟨R.CAL_Cn_RESULT n, 0, 0⟩
abbrev R.CAL_Cn_LAST (n : Nat) : Nat := 0x20301030 + n * 0x40
abbrev F.CAL_Cn_LAST.APPLY_LINE (n : Nat) : Fld := ⟨R.CAL_Cn_LAST n, 31, 0⟩
abbrev R.CAL_Cn_TR (n : Nat) : Nat := 0x20301034 + n * 0x40
abbrev F.CAL_Cn_TR.T_R (n : Nat) : Fld := ⟨R.CAL_Cn_TR n, 15, 0⟩

/-! ## 06_geometry_stitching.md -/

abbrev R.GEO_FLAGS : Nat := 0x30000000
abbrev F.GEO_FLAGS.HIST_DROP_V : Fld := ⟨R.GEO_FLAGS, 7, 4⟩
abbrev F.GEO_FLAGS.LOST_V : Fld := ⟨R.GEO_FLAGS, 3, 0⟩
abbrev R.GEO_IRQ_EN : Nat := 0x30000004
abbrev F.GEO_IRQ_EN.EN : Fld := ⟨R.GEO_IRQ_EN, 7, 0⟩
abbrev R.GEO_Vv_CFG (v : Nat) : Nat := 0x30000100 + v * 0x40
abbrev F.GEO_Vv_CFG.NB_M1 (v : Nat) : Fld := ⟨R.GEO_Vv_CFG v, 26, 24⟩
abbrev F.GEO_Vv_CFG.NSEG_M1 (v : Nat) : Fld := ⟨R.GEO_Vv_CFG v, 22, 20⟩
abbrev F.GEO_Vv_CFG.WIDTH (v : Nat) : Fld := ⟨R.GEO_Vv_CFG v, 15, 0⟩
abbrev R.GEO_Vv_LAT (v : Nat) : Nat := 0x30000104 + v * 0x40
abbrev F.GEO_Vv_LAT.LAT_TARGET (v : Nat) : Fld := ⟨R.GEO_Vv_LAT v, 9, 0⟩
abbrev R.GEO_Vv_BNDk (v : Nat) (k : Nat) : Nat := 0x30000108 + v * 0x40 + k * 0x4
abbrev F.GEO_Vv_BNDk.BLEND (v : Nat) (k : Nat) : Fld := ⟨R.GEO_Vv_BNDk v k, 31, 31⟩
abbrev F.GEO_Vv_BNDk.B (v : Nat) (k : Nat) : Fld := ⟨R.GEO_Vv_BNDk v k, 30, 16⟩
abbrev F.GEO_Vv_BNDk.A (v : Nat) (k : Nat) : Fld := ⟨R.GEO_Vv_BNDk v k, 14, 0⟩
abbrev R.GEO_Vv_HIST (v : Nat) : Nat := 0x30000124 + v * 0x40
abbrev F.GEO_Vv_HIST.HIST_EN (v : Nat) : Fld := ⟨R.GEO_Vv_HIST v, 31, 31⟩
abbrev F.GEO_Vv_HIST.SCALE (v : Nat) : Fld := ⟨R.GEO_Vv_HIST v, 28, 28⟩
abbrev F.GEO_Vv_HIST.RING_LOG2 (v : Nat) : Fld := ⟨R.GEO_Vv_HIST v, 27, 24⟩
abbrev F.GEO_Vv_HIST.HB3 (v : Nat) : Fld := ⟨R.GEO_Vv_HIST v, 14, 12⟩
abbrev F.GEO_Vv_HIST.HB2 (v : Nat) : Fld := ⟨R.GEO_Vv_HIST v, 10, 8⟩
abbrev F.GEO_Vv_HIST.HB1 (v : Nat) : Fld := ⟨R.GEO_Vv_HIST v, 6, 4⟩
abbrev F.GEO_Vv_HIST.HB0 (v : Nat) : Fld := ⟨R.GEO_Vv_HIST v, 2, 0⟩
abbrev R.GEO_Vv_HIST_BASE (v : Nat) : Nat := 0x30000128 + v * 0x40
abbrev F.GEO_Vv_HIST_BASE.ADDR (v : Nat) : Fld := ⟨R.GEO_Vv_HIST_BASE v, 31, 12⟩
abbrev R.GEO_Vv_HIST_BASE_HI (v : Nat) : Nat := 0x3000012C + v * 0x40
abbrev F.GEO_Vv_HIST_BASE_HI.ADDR (v : Nat) : Fld := ⟨R.GEO_Vv_HIST_BASE_HI v, 7, 0⟩
abbrev R.GEO_Vv_LINES (v : Nat) : Nat := 0x30000130 + v * 0x40
abbrev F.GEO_Vv_LINES.COUNT (v : Nat) : Fld := ⟨R.GEO_Vv_LINES v, 31, 0⟩
abbrev R.GEO_Vv_LOST (v : Nat) : Nat := 0x30000134 + v * 0x40
abbrev F.GEO_Vv_LOST.COUNT (v : Nat) : Fld := ⟨R.GEO_Vv_LOST v, 31, 0⟩
abbrev R.GEO_Vv_HIST_DROP (v : Nat) : Nat := 0x30000138 + v * 0x40
abbrev F.GEO_Vv_HIST_DROP.COUNT (v : Nat) : Fld := ⟨R.GEO_Vv_HIST_DROP v, 31, 0⟩
abbrev R.GEO_Cn_CFG (n : Nat) : Nat := 0x30001000 + n * 0x20
abbrev F.GEO_Cn_CFG.LINEAR (n : Nat) : Fld := ⟨R.GEO_Cn_CFG n, 10, 10⟩
abbrev F.GEO_Cn_CFG.RESID_EN (n : Nat) : Fld := ⟨R.GEO_Cn_CFG n, 9, 9⟩
abbrev F.GEO_Cn_CFG.FLIP (n : Nat) : Fld := ⟨R.GEO_Cn_CFG n, 8, 8⟩
abbrev F.GEO_Cn_CFG.SEG (n : Nat) : Fld := ⟨R.GEO_Cn_CFG n, 6, 4⟩
abbrev F.GEO_Cn_CFG.VIEW_EN (n : Nat) : Fld := ⟨R.GEO_Cn_CFG n, 3, 3⟩
abbrev F.GEO_Cn_CFG.VIEW (n : Nat) : Fld := ⟨R.GEO_Cn_CFG n, 1, 0⟩
abbrev R.GEO_Cn_BAND (n : Nat) : Nat := 0x30001004 + n * 0x20
abbrev F.GEO_Cn_BAND.BAND0 (n : Nat) : Fld := ⟨R.GEO_Cn_BAND n, 3, 0⟩
abbrev F.GEO_Cn_BAND.BAND1 (n : Nat) : Fld := ⟨R.GEO_Cn_BAND n, 7, 4⟩
abbrev F.GEO_Cn_BAND.BAND2 (n : Nat) : Fld := ⟨R.GEO_Cn_BAND n, 11, 8⟩
abbrev F.GEO_Cn_BAND.BAND3 (n : Nat) : Fld := ⟨R.GEO_Cn_BAND n, 15, 12⟩
abbrev F.GEO_Cn_BAND.BAND4 (n : Nat) : Fld := ⟨R.GEO_Cn_BAND n, 19, 16⟩
abbrev F.GEO_Cn_BAND.BAND5 (n : Nat) : Fld := ⟨R.GEO_Cn_BAND n, 23, 20⟩
abbrev F.GEO_Cn_BAND.BAND6 (n : Nat) : Fld := ⟨R.GEO_Cn_BAND n, 27, 24⟩
abbrev F.GEO_Cn_BAND.BAND7 (n : Nat) : Fld := ⟨R.GEO_Cn_BAND n, 31, 28⟩
abbrev R.GEO_Cn_DELAY (n : Nat) : Nat := 0x30001008 + n * 0x20
abbrev F.GEO_Cn_DELAY.LD0 (n : Nat) : Fld := ⟨R.GEO_Cn_DELAY n, 3, 0⟩
abbrev F.GEO_Cn_DELAY.LD1 (n : Nat) : Fld := ⟨R.GEO_Cn_DELAY n, 7, 4⟩
abbrev F.GEO_Cn_DELAY.LD2 (n : Nat) : Fld := ⟨R.GEO_Cn_DELAY n, 11, 8⟩
abbrev F.GEO_Cn_DELAY.LD3 (n : Nat) : Fld := ⟨R.GEO_Cn_DELAY n, 15, 12⟩
abbrev F.GEO_Cn_DELAY.LD4 (n : Nat) : Fld := ⟨R.GEO_Cn_DELAY n, 19, 16⟩
abbrev F.GEO_Cn_DELAY.LD5 (n : Nat) : Fld := ⟨R.GEO_Cn_DELAY n, 23, 20⟩
abbrev F.GEO_Cn_DELAY.LD6 (n : Nat) : Fld := ⟨R.GEO_Cn_DELAY n, 27, 24⟩
abbrev F.GEO_Cn_DELAY.LD7 (n : Nat) : Fld := ⟨R.GEO_Cn_DELAY n, 31, 28⟩
abbrev R.GEO_Cn_C0 (n : Nat) : Nat := 0x3000100C + n * 0x20
abbrev F.GEO_Cn_C0.C0 (n : Nat) : Fld := ⟨R.GEO_Cn_C0 n, 31, 0⟩
abbrev R.GEO_Cn_C1 (n : Nat) : Nat := 0x30001010 + n * 0x20
abbrev F.GEO_Cn_C1.C1 (n : Nat) : Fld := ⟨R.GEO_Cn_C1 n, 31, 0⟩
abbrev R.GEO_Cn_C2 (n : Nat) : Nat := 0x30001014 + n * 0x20
abbrev F.GEO_Cn_C2.C2 (n : Nat) : Fld := ⟨R.GEO_Cn_C2 n, 31, 0⟩
abbrev R.GEO_Cn_C3 (n : Nat) : Nat := 0x30001018 + n * 0x20
abbrev F.GEO_Cn_C3.C3 (n : Nat) : Fld := ⟨R.GEO_Cn_C3 n, 31, 0⟩
abbrev R.GEO_Cn_COVER (n : Nat) : Nat := 0x3000101C + n * 0x20
abbrev F.GEO_Cn_COVER.LAST (n : Nat) : Fld := ⟨R.GEO_Cn_COVER n, 31, 16⟩
abbrev F.GEO_Cn_COVER.FIRST (n : Nat) : Fld := ⟨R.GEO_Cn_COVER n, 15, 0⟩

/-! ## 07_segmentation_basin.md -/

abbrev R.SEGv_CFG (v : Nat) : Nat := 0x30100000 + v * 0x10000
abbrev F.SEGv_CFG.GAP_BRIDGE (v : Nat) : Fld := ⟨R.SEGv_CFG v, 18, 16⟩
abbrev F.SEGv_CFG.SH2 (v : Nat) : Fld := ⟨R.SEGv_CFG v, 11, 8⟩
abbrev F.SEGv_CFG.SH1 (v : Nat) : Fld := ⟨R.SEGv_CFG v, 7, 4⟩
abbrev F.SEGv_CFG.SH0 (v : Nat) : Fld := ⟨R.SEGv_CFG v, 3, 0⟩
abbrev R.SEGv_OFF01 (v : Nat) : Nat := 0x30100004 + v * 0x10000
abbrev F.SEGv_OFF01.OFF1 (v : Nat) : Fld := ⟨R.SEGv_OFF01 v, 31, 16⟩
abbrev F.SEGv_OFF01.OFF0 (v : Nat) : Fld := ⟨R.SEGv_OFF01 v, 15, 0⟩
abbrev R.SEGv_OFF2 (v : Nat) : Nat := 0x30100008 + v * 0x10000
abbrev F.SEGv_OFF2.OFF2 (v : Nat) : Fld := ⟨R.SEGv_OFF2 v, 15, 0⟩
abbrev R.SEGv_MATk_m (v : Nat) (k : Nat) (m : Nat) : Nat := 0x30100010 + v * 0x10000 + k * 0x10 + m * 0x4
abbrev F.SEGv_MATk_m.M_ODD (v : Nat) (k : Nat) (m : Nat) : Fld := ⟨R.SEGv_MATk_m v k m, 31, 16⟩
abbrev F.SEGv_MATk_m.M_EVEN (v : Nat) (k : Nat) (m : Nat) : Fld := ⟨R.SEGv_MATk_m v k m, 15, 0⟩
abbrev R.SEGv_FLAGS (v : Nat) : Nat := 0x30100040 + v * 0x10000
abbrev F.SEGv_FLAGS.BACKLOG (v : Nat) : Fld := ⟨R.SEGv_FLAGS v, 4, 4⟩
abbrev F.SEGv_FLAGS.GAP_CLOSE (v : Nat) : Fld := ⟨R.SEGv_FLAGS v, 3, 3⟩
abbrev F.SEGv_FLAGS.OVERSIZE (v : Nat) : Fld := ⟨R.SEGv_FLAGS v, 2, 2⟩
abbrev F.SEGv_FLAGS.OPENLIM (v : Nat) : Fld := ⟨R.SEGv_FLAGS v, 1, 1⟩
abbrev F.SEGv_FLAGS.RUNLIM (v : Nat) : Fld := ⟨R.SEGv_FLAGS v, 0, 0⟩
abbrev R.SEGv_IRQ_EN (v : Nat) : Nat := 0x30100044 + v * 0x10000
abbrev F.SEGv_IRQ_EN.EN (v : Nat) : Fld := ⟨R.SEGv_IRQ_EN v, 4, 0⟩
abbrev R.SEGv_OPEN (v : Nat) : Nat := 0x30100048 + v * 0x10000
abbrev F.SEGv_OPEN.HWM (v : Nat) : Fld := ⟨R.SEGv_OPEN v, 28, 16⟩
abbrev F.SEGv_OPEN.OPEN (v : Nat) : Fld := ⟨R.SEGv_OPEN v, 12, 0⟩
abbrev R.SEGv_NEXT_ID (v : Nat) : Nat := 0x3010004C + v * 0x10000
abbrev F.SEGv_NEXT_ID.OBJ_ID (v : Nat) : Fld := ⟨R.SEGv_NEXT_ID v, 31, 0⟩
abbrev R.SEGv_LINES (v : Nat) : Nat := 0x30100050 + v * 0x10000
abbrev F.SEGv_LINES.COUNT (v : Nat) : Fld := ⟨R.SEGv_LINES v, 31, 0⟩
abbrev R.SEGv_RUNLIM_LINES (v : Nat) : Nat := 0x30100054 + v * 0x10000
abbrev F.SEGv_RUNLIM_LINES.COUNT (v : Nat) : Fld := ⟨R.SEGv_RUNLIM_LINES v, 31, 0⟩
abbrev R.SEGv_CELLS_EXCL (v : Nat) : Nat := 0x30100058 + v * 0x10000
abbrev F.SEGv_CELLS_EXCL.COUNT (v : Nat) : Fld := ⟨R.SEGv_CELLS_EXCL v, 31, 0⟩
abbrev R.SEGv_OBJ_OPENED (v : Nat) : Nat := 0x3010005C + v * 0x10000
abbrev F.SEGv_OBJ_OPENED.COUNT (v : Nat) : Fld := ⟨R.SEGv_OBJ_OPENED v, 31, 0⟩
abbrev R.SEGv_OBJ_CLOSED (v : Nat) : Nat := 0x30100060 + v * 0x10000
abbrev F.SEGv_OBJ_CLOSED.COUNT (v : Nat) : Fld := ⟨R.SEGv_OBJ_CLOSED v, 31, 0⟩
abbrev R.SEGv_OBJ_REFUSED (v : Nat) : Nat := 0x30100064 + v * 0x10000
abbrev F.SEGv_OBJ_REFUSED.COUNT (v : Nat) : Fld := ⟨R.SEGv_OBJ_REFUSED v, 31, 0⟩
abbrev R.SEGv_OBJ_MERGES (v : Nat) : Nat := 0x30100068 + v * 0x10000
abbrev F.SEGv_OBJ_MERGES.COUNT (v : Nat) : Fld := ⟨R.SEGv_OBJ_MERGES v, 31, 0⟩
abbrev R.SEGv_OVERSIZE (v : Nat) : Nat := 0x3010006C + v * 0x10000
abbrev F.SEGv_OVERSIZE.COUNT (v : Nat) : Fld := ⟨R.SEGv_OVERSIZE v, 31, 0⟩
abbrev R.SEGv_GAP_CLOSES (v : Nat) : Nat := 0x30100070 + v * 0x10000
abbrev F.SEGv_GAP_CLOSES.COUNT (v : Nat) : Fld := ⟨R.SEGv_GAP_CLOSES v, 31, 0⟩
abbrev R.BSN_CFG : Nat := 0x30200000
abbrev F.BSN_CFG.WID_MAX : Fld := ⟨R.BSN_CFG, 26, 16⟩
abbrev F.BSN_CFG.LEN_MAX : Fld := ⟨R.BSN_CFG, 12, 0⟩
abbrev R.BSN_SIGHT : Nat := 0x30200004
abbrev F.BSN_SIGHT.HOLD : Fld := ⟨R.BSN_SIGHT, 21, 16⟩
abbrev F.BSN_SIGHT.OVL_MIN : Fld := ⟨R.BSN_SIGHT, 7, 0⟩
abbrev R.BSN_FLAGS : Nat := 0x30200008
abbrev F.BSN_FLAGS.FORCED_h : Fld := ⟨R.BSN_FLAGS, 1, 0⟩
abbrev R.BSN_IRQ_EN : Nat := 0x3020000C
abbrev F.BSN_IRQ_EN.EN : Fld := ⟨R.BSN_IRQ_EN, 1, 0⟩
abbrev R.BSN_NEXT_h (h : Nat) : Nat := 0x30200010 + h * 0x4
abbrev F.BSN_NEXT_h.SIGHT_ID (h : Nat) : Fld := ⟨R.BSN_NEXT_h h, 31, 0⟩
abbrev R.BSN_PAUSE : Nat := 0x30200018
abbrev F.BSN_PAUSE.CYCLES : Fld := ⟨R.BSN_PAUSE, 31, 0⟩
abbrev R.BSN_WAITv (v : Nat) : Nat := 0x30200020 + v * 0x4
abbrev F.BSN_WAITv.HWM (v : Nat) : Fld := ⟨R.BSN_WAITv v, 28, 16⟩
abbrev F.BSN_WAITv.WAIT (v : Nat) : Fld := ⟨R.BSN_WAITv v, 12, 0⟩
abbrev R.BSN_PAIRED_h (h : Nat) : Nat := 0x30200040 + h * 0x4
abbrev F.BSN_PAIRED_h.COUNT (h : Nat) : Fld := ⟨R.BSN_PAIRED_h h, 31, 0⟩
abbrev R.BSN_SINGLE_h (h : Nat) : Nat := 0x30200048 + h * 0x4
abbrev F.BSN_SINGLE_h.COUNT (h : Nat) : Fld := ⟨R.BSN_SINGLE_h h, 31, 0⟩
abbrev R.BSN_SHARED_h (h : Nat) : Nat := 0x30200050 + h * 0x4
abbrev F.BSN_SHARED_h.COUNT (h : Nat) : Fld := ⟨R.BSN_SHARED_h h, 31, 0⟩
abbrev R.BSN_FORCED_h (h : Nat) : Nat := 0x30200058 + h * 0x4
abbrev F.BSN_FORCED_h.COUNT (h : Nat) : Fld := ⟨R.BSN_FORCED_h h, 31, 0⟩

/-! ## 08_judgement.md -/

abbrev R.FOR_CFG : Nat := 0x40000000
abbrev F.FOR_CFG.NCLASS_M1 : Fld := ⟨R.FOR_CFG, 14, 12⟩
abbrev F.FOR_CFG.NTREES : Fld := ⟨R.FOR_CFG, 8, 0⟩
abbrev R.FOR_FLAGS : Nat := 0x40000004
abbrev F.FOR_FLAGS.ECC_UNCORR : Fld := ⟨R.FOR_FLAGS, 1, 1⟩
abbrev F.FOR_FLAGS.ECC_CORR : Fld := ⟨R.FOR_FLAGS, 0, 0⟩
abbrev R.FOR_IRQ_EN : Nat := 0x40000008
abbrev F.FOR_IRQ_EN.EN : Fld := ⟨R.FOR_IRQ_EN, 1, 0⟩
abbrev R.FOR_FMAPi (i : Nat) : Nat := 0x40000100 + i * 0x4
abbrev F.FOR_FMAPi.SRC (i : Nat) : Fld := ⟨R.FOR_FMAPi i, 31, 30⟩
abbrev F.FOR_FMAPi.MEMBER (i : Nat) : Fld := ⟨R.FOR_FMAPi i, 29, 28⟩
abbrev F.FOR_FMAPi.QTY (i : Nat) : Fld := ⟨R.FOR_FMAPi i, 27, 24⟩
abbrev F.FOR_FMAPi.IDX (i : Nat) : Fld := ⟨R.FOR_FMAPi i, 23, 20⟩
abbrev F.FOR_FMAPi.SHIFT (i : Nat) : Fld := ⟨R.FOR_FMAPi i, 19, 16⟩
abbrev F.FOR_FMAPi.CONST (i : Nat) : Fld := ⟨R.FOR_FMAPi i, 15, 0⟩
abbrev R.FOR_TREEt (t : Nat) : Nat := 0x40001000 + t * 0x4
abbrev F.FOR_TREEt.ROOT_LEAF (t : Nat) : Fld := ⟨R.FOR_TREEt t, 31, 31⟩
abbrev F.FOR_TREEt.ROOT (t : Nat) : Fld := ⟨R.FOR_TREEt t, 16, 0⟩
abbrev R.CLA_CFG : Nat := 0x40100000
abbrev F.CLA_CFG.NLAYERS_M1 : Fld := ⟨R.CLA_CFG, 29, 24⟩
abbrev F.CLA_CFG.LIST_BASE : Fld := ⟨R.CLA_CFG, 21, 0⟩
abbrev R.CLA_PAD : Nat := 0x40100004
abbrev F.CLA_PAD.PAD : Fld := ⟨R.CLA_PAD, 7, 0⟩
abbrev R.CLA_INm (m : Nat) : Nat := 0x40100008 + m * 0x4
abbrev F.CLA_INm.EN0 (m : Nat) : Fld := ⟨R.CLA_INm m, 7, 7⟩
abbrev F.CLA_INm.VIEW0 (m : Nat) : Fld := ⟨R.CLA_INm m, 3, 2⟩
abbrev F.CLA_INm.BYTE0 (m : Nat) : Fld := ⟨R.CLA_INm m, 1, 0⟩
abbrev F.CLA_INm.EN1 (m : Nat) : Fld := ⟨R.CLA_INm m, 15, 15⟩
abbrev F.CLA_INm.VIEW1 (m : Nat) : Fld := ⟨R.CLA_INm m, 11, 10⟩
abbrev F.CLA_INm.BYTE1 (m : Nat) : Fld := ⟨R.CLA_INm m, 9, 8⟩
abbrev F.CLA_INm.EN2 (m : Nat) : Fld := ⟨R.CLA_INm m, 23, 23⟩
abbrev F.CLA_INm.VIEW2 (m : Nat) : Fld := ⟨R.CLA_INm m, 19, 18⟩
abbrev F.CLA_INm.BYTE2 (m : Nat) : Fld := ⟨R.CLA_INm m, 17, 16⟩
abbrev F.CLA_INm.EN3 (m : Nat) : Fld := ⟨R.CLA_INm m, 31, 31⟩
abbrev F.CLA_INm.VIEW3 (m : Nat) : Fld := ⟨R.CLA_INm m, 27, 26⟩
abbrev F.CLA_INm.BYTE3 (m : Nat) : Fld := ⟨R.CLA_INm m, 25, 24⟩
abbrev R.CLA_POWER : Nat := 0x40100018
abbrev F.CLA_POWER.ENABLE_PENDING : Fld := ⟨R.CLA_POWER, 10, 10⟩
abbrev F.CLA_POWER.STATE : Fld := ⟨R.CLA_POWER, 9, 8⟩
abbrev F.CLA_POWER.REQ : Fld := ⟨R.CLA_POWER, 0, 0⟩
abbrev R.CLA_MACS : Nat := 0x4010001C
abbrev F.CLA_MACS.M : Fld := ⟨R.CLA_MACS, 31, 0⟩
abbrev R.CLA_FLAGS : Nat := 0x40100020
abbrev F.CLA_FLAGS.ROWS_STALE : Fld := ⟨R.CLA_FLAGS, 2, 2⟩
abbrev F.CLA_FLAGS.ECC_UNCORR : Fld := ⟨R.CLA_FLAGS, 1, 1⟩
abbrev F.CLA_FLAGS.ECC_CORR : Fld := ⟨R.CLA_FLAGS, 0, 0⟩
abbrev R.CLA_IRQ_EN : Nat := 0x40100024
abbrev F.CLA_IRQ_EN.EN : Fld := ⟨R.CLA_IRQ_EN, 2, 0⟩
abbrev R.CLA_PATCHES : Nat := 0x40100040
abbrev F.CLA_PATCHES.COUNT : Fld := ⟨R.CLA_PATCHES, 31, 0⟩
abbrev R.CLA_ROWS_LOST : Nat := 0x40100044
abbrev F.CLA_ROWS_LOST.COUNT : Fld := ⟨R.CLA_ROWS_LOST, 31, 0⟩
abbrev R.CLA_ROWS_STALE : Nat := 0x40100048
abbrev F.CLA_ROWS_STALE.COUNT : Fld := ⟨R.CLA_ROWS_STALE, 31, 0⟩
abbrev R.CLA_ECC_CORR : Nat := 0x4010004C
abbrev F.CLA_ECC_CORR.COUNT : Fld := ⟨R.CLA_ECC_CORR, 31, 0⟩
abbrev R.CASC_CFG : Nat := 0x40200000
abbrev F.CASC_CFG.CLA_EN : Fld := ⟨R.CASC_CFG, 31, 31⟩
abbrev F.CASC_CFG.REC_LOG2 : Fld := ⟨R.CASC_CFG, 15, 12⟩
abbrev F.CASC_CFG.REC_MODE : Fld := ⟨R.CASC_CFG, 9, 8⟩
abbrev F.CASC_CFG.LATE_MODE : Fld := ⟨R.CASC_CFG, 4, 4⟩
abbrev F.CASC_CFG.LATE_ACTION : Fld := ⟨R.CASC_CFG, 1, 0⟩
abbrev R.CASC_FLAG_RULE : Nat := 0x40200004
abbrev F.CASC_FLAG_RULE.EN : Fld := ⟨R.CASC_FLAG_RULE, 31, 31⟩
abbrev F.CASC_FLAG_RULE.ACTION : Fld := ⟨R.CASC_FLAG_RULE, 29, 28⟩
abbrev F.CASC_FLAG_RULE.MASK : Fld := ⟨R.CASC_FLAG_RULE, 11, 0⟩
abbrev R.CASC_FLAGS : Nat := 0x40200008
abbrev F.CASC_FLAGS.REC_DROP : Fld := ⟨R.CASC_FLAGS, 3, 3⟩
abbrev F.CASC_FLAGS.DENIED : Fld := ⟨R.CASC_FLAGS, 2, 2⟩
abbrev F.CASC_FLAGS.LATE : Fld := ⟨R.CASC_FLAGS, 1, 1⟩
abbrev F.CASC_FLAGS.QUOTA_CAP : Fld := ⟨R.CASC_FLAGS, 0, 0⟩
abbrev R.CASC_IRQ_EN : Nat := 0x4020000C
abbrev F.CASC_IRQ_EN.EN : Fld := ⟨R.CASC_IRQ_EN, 3, 0⟩
abbrev R.CASC_THRm (m : Nat) : Nat := 0x40200010 + m * 0x4
abbrev F.CASC_THRm.THR_ODD (m : Nat) : Fld := ⟨R.CASC_THRm m, 31, 16⟩
abbrev F.CASC_THRm.THR_EVEN (m : Nat) : Fld := ⟨R.CASC_THRm m, 15, 0⟩
abbrev R.CASC_GRANT : Nat := 0x40200020
abbrev F.CASC_GRANT.G : Fld := ⟨R.CASC_GRANT, 8, 0⟩
abbrev R.CASC_QUOTA : Nat := 0x40200024
abbrev F.CASC_QUOTA.Q : Fld := ⟨R.CASC_QUOTA, 23, 0⟩
abbrev R.CASC_CAP : Nat := 0x40200028
abbrev F.CASC_CAP.CAP : Fld := ⟨R.CASC_CAP, 23, 0⟩
abbrev R.CASC_USED : Nat := 0x4020002C
abbrev F.CASC_USED.COUNT : Fld := ⟨R.CASC_USED, 23, 0⟩
abbrev R.CASC_ACTk (k : Nat) : Nat := 0x40200040 + k * 0x10
abbrev F.CASC_ACTk.ALT_ACTION (k : Nat) : Fld := ⟨R.CASC_ACTk k, 5, 4⟩
abbrev F.CASC_ACTk.ACTION (k : Nat) : Fld := ⟨R.CASC_ACTk k, 1, 0⟩
abbrev R.CASC_AMINk (k : Nat) : Nat := 0x40200044 + k * 0x10
abbrev F.CASC_AMINk.AREA_MIN (k : Nat) : Fld := ⟨R.CASC_AMINk k, 31, 0⟩
abbrev R.CASC_AMAXk (k : Nat) : Nat := 0x40200048 + k * 0x10
abbrev F.CASC_AMAXk.AREA_MAX (k : Nat) : Fld := ⟨R.CASC_AMAXk k, 31, 0⟩
abbrev R.CASC_OBJECTS : Nat := 0x40200100
abbrev F.CASC_OBJECTS.COUNT : Fld := ⟨R.CASC_OBJECTS, 31, 0⟩
abbrev R.CASC_CANDIDATES : Nat := 0x40200104
abbrev F.CASC_CANDIDATES.COUNT : Fld := ⟨R.CASC_CANDIDATES, 31, 0⟩
abbrev R.CASC_CLASSIFIED : Nat := 0x40200108
abbrev F.CASC_CLASSIFIED.COUNT : Fld := ⟨R.CASC_CLASSIFIED, 31, 0⟩
abbrev R.CASC_DENIED : Nat := 0x4020010C
abbrev F.CASC_DENIED.COUNT : Fld := ⟨R.CASC_DENIED, 31, 0⟩
abbrev R.CASC_LATE : Nat := 0x40200110
abbrev F.CASC_LATE.COUNT : Fld := ⟨R.CASC_LATE, 31, 0⟩
abbrev R.CASC_FLAG_HITS : Nat := 0x40200114
abbrev F.CASC_FLAG_HITS.COUNT : Fld := ⟨R.CASC_FLAG_HITS, 31, 0⟩
abbrev R.CASC_SIZE_ALT : Nat := 0x40200118
abbrev F.CASC_SIZE_ALT.COUNT : Fld := ⟨R.CASC_SIZE_ALT, 31, 0⟩
abbrev R.CASC_REC_DROP : Nat := 0x4020011C
abbrev F.CASC_REC_DROP.COUNT : Fld := ⟨R.CASC_REC_DROP, 31, 0⟩
abbrev R.CASC_CLASS_k (k : Nat) : Nat := 0x40200120 + k * 0x4
abbrev F.CASC_CLASS_k.COUNT (k : Nat) : Fld := ⟨R.CASC_CLASS_k k, 31, 0⟩
abbrev R.CASC_ACTION_a (a : Nat) : Nat := 0x40200140 + a * 0x4
abbrev F.CASC_ACTION_a.COUNT (a : Nat) : Fld := ⟨R.CASC_ACTION_a a, 31, 0⟩
abbrev R.FOR_EVALS : Nat := 0x40000010
abbrev F.FOR_EVALS.COUNT : Fld := ⟨R.FOR_EVALS, 31, 0⟩
abbrev R.FOR_ECC_CORR : Nat := 0x40000014
abbrev F.FOR_ECC_CORR.COUNT : Fld := ⟨R.FOR_ECC_CORR, 31, 0⟩

/-! ## 09_flight_ejection.md -/

abbrev R.FLY_CFG : Nat := 0x30300000
abbrev F.FLY_CFG.UPPER_ONLY_EN : Fld := ⟨R.FLY_CFG, 1, 1⟩
abbrev F.FLY_CFG.MODE : Fld := ⟨R.FLY_CFG, 0, 0⟩
abbrev R.FLY_DUL : Nat := 0x30300004
abbrev F.FLY_DUL.D_UL : Fld := ⟨R.FLY_DUL, 31, 0⟩
abbrev R.FLY_DLEr (r : Nat) : Nat := 0x30300008 + r * 0x4
abbrev F.FLY_DLEr.DLE (r : Nat) : Fld := ⟨R.FLY_DLEr r, 31, 0⟩
abbrev R.FLY_GEFF : Nat := 0x30300010
abbrev F.FLY_GEFF.G : Fld := ⟨R.FLY_GEFF, 31, 0⟩
abbrev R.FLY_VMIN : Nat := 0x30300014
abbrev F.FLY_VMIN.VMIN : Fld := ⟨R.FLY_VMIN, 31, 0⟩
abbrev R.FLY_VMAX : Nat := 0x30300018
abbrev F.FLY_VMAX.VMAX : Fld := ⟨R.FLY_VMAX, 31, 0⟩
abbrev R.FLY_MATCH : Nat := 0x3030001C
abbrev F.FLY_MATCH.X_TOL : Fld := ⟨R.FLY_MATCH, 31, 16⟩
abbrev F.FLY_MATCH.AR_MIN : Fld := ⟨R.FLY_MATCH, 7, 0⟩
abbrev R.FLY_WEIGHT : Nat := 0x30300020
abbrev F.FLY_WEIGHT.W_X : Fld := ⟨R.FLY_WEIGHT, 31, 24⟩
abbrev F.FLY_WEIGHT.W_T : Fld := ⟨R.FLY_WEIGHT, 23, 16⟩
abbrev F.FLY_WEIGHT.W_A : Fld := ⟨R.FLY_WEIGHT, 15, 8⟩
abbrev R.FLY_SMARGIN : Nat := 0x30300024
abbrev F.FLY_SMARGIN.SCORE_MARGIN : Fld := ⟨R.FLY_SMARGIN, 15, 0⟩
abbrev R.FLY_LANE : Nat := 0x30300028
abbrev F.FLY_LANE.LANE_BW : Fld := ⟨R.FLY_LANE, 19, 16⟩
abbrev F.FLY_LANE.LANE_W : Fld := ⟨R.FLY_LANE, 15, 0⟩
abbrev R.FLY_VINIT : Nat := 0x3030002C
abbrev F.FLY_VINIT.V_INIT : Fld := ⟨R.FLY_VINIT, 31, 0⟩
abbrev R.FLY_DT_MIN : Nat := 0x30300030
abbrev F.FLY_DT_MIN.DT : Fld := ⟨R.FLY_DT_MIN, 31, 0⟩
abbrev R.FLY_DT_MAX : Nat := 0x30300034
abbrev F.FLY_DT_MAX.DT : Fld := ⟨R.FLY_DT_MAX, 31, 0⟩
abbrev R.FLY_EXP : Nat := 0x30300038
abbrev F.FLY_EXP.EXP_LINES : Fld := ⟨R.FLY_EXP, 15, 0⟩
abbrev R.FLY_FLAGS : Nat := 0x3030003C
abbrev F.FLY_FLAGS.OBS_INIT : Fld := ⟨R.FLY_FLAGS, 1, 1⟩
abbrev F.FLY_FLAGS.UPPER_EVICT : Fld := ⟨R.FLY_FLAGS, 0, 0⟩
abbrev R.FLY_IRQ_EN : Nat := 0x30300040
abbrev F.FLY_IRQ_EN.EN : Fld := ⟨R.FLY_IRQ_EN, 1, 0⟩
abbrev R.FLY_UPPER : Nat := 0x30300044
abbrev F.FLY_UPPER.HWM : Fld := ⟨R.FLY_UPPER, 31, 16⟩
abbrev F.FLY_UPPER.COUNT : Fld := ⟨R.FLY_UPPER, 15, 0⟩
abbrev R.FLY_MATCHED : Nat := 0x30300050
abbrev F.FLY_MATCHED.COUNT : Fld := ⟨R.FLY_MATCHED, 31, 0⟩
abbrev R.FLY_AMBIGUOUS : Nat := 0x30300054
abbrev F.FLY_AMBIGUOUS.COUNT : Fld := ⟨R.FLY_AMBIGUOUS, 31, 0⟩
abbrev R.FLY_UNMATCHED : Nat := 0x30300058
abbrev F.FLY_UNMATCHED.COUNT : Fld := ⟨R.FLY_UNMATCHED, 31, 0⟩
abbrev R.FLY_UPPER_ONLY : Nat := 0x3030005C
abbrev F.FLY_UPPER_ONLY.COUNT : Fld := ⟨R.FLY_UPPER_ONLY, 31, 0⟩
abbrev R.FLY_UPPER_DROP : Nat := 0x30300060
abbrev F.FLY_UPPER_DROP.COUNT : Fld := ⟨R.FLY_UPPER_DROP, 31, 0⟩
abbrev R.FLY_UPPER_EVICT : Nat := 0x30300064
abbrev F.FLY_UPPER_EVICT.COUNT : Fld := ⟨R.FLY_UPPER_EVICT, 31, 0⟩
abbrev R.FLY_LANEk_V (k : Nat) : Nat := 0x30300100 + k * 0x4
abbrev F.FLY_LANEk_V.V (k : Nat) : Fld := ⟨R.FLY_LANEk_V k, 31, 0⟩
abbrev R.EJ_MARGIN : Nat := 0x50000000
abbrev F.EJ_MARGIN.MARGIN : Fld := ⟨R.EJ_MARGIN, 15, 0⟩
abbrev R.EJ_TIMEr (r : Nat) : Nat := 0x50000004 + r * 0x4
abbrev F.EJ_TIMEr.POST (r : Nat) : Fld := ⟨R.EJ_TIMEr r, 31, 16⟩
abbrev F.EJ_TIMEr.PRE (r : Nat) : Fld := ⟨R.EJ_TIMEr r, 15, 0⟩
abbrev R.EJ_FLAGS : Nat := 0x5000000C
abbrev F.EJ_FLAGS.NO_VALVE : Fld := ⟨R.EJ_FLAGS, 4, 4⟩
abbrev F.EJ_FLAGS.VALVE_FULL : Fld := ⟨R.EJ_FLAGS, 3, 3⟩
abbrev F.EJ_FLAGS.POOL_FULL : Fld := ⟨R.EJ_FLAGS, 2, 2⟩
abbrev F.EJ_FLAGS.WIN_MISSED : Fld := ⟨R.EJ_FLAGS, 1, 1⟩
abbrev F.EJ_FLAGS.WIN_LATE : Fld := ⟨R.EJ_FLAGS, 0, 0⟩
abbrev R.EJ_IRQ_EN : Nat := 0x50000010
abbrev F.EJ_IRQ_EN.EN : Fld := ⟨R.EJ_IRQ_EN, 4, 0⟩
abbrev R.EJ_POOL : Nat := 0x50000014
abbrev F.EJ_POOL.HWM : Fld := ⟨R.EJ_POOL, 29, 16⟩
abbrev F.EJ_POOL.PENDING : Fld := ⟨R.EJ_POOL, 13, 0⟩
abbrev R.EJ_WINDOWS : Nat := 0x50000020
abbrev F.EJ_WINDOWS.COUNT : Fld := ⟨R.EJ_WINDOWS, 31, 0⟩
abbrev R.EJ_MERGED : Nat := 0x50000024
abbrev F.EJ_MERGED.COUNT : Fld := ⟨R.EJ_MERGED, 31, 0⟩
abbrev R.EJ_WIN_LATE : Nat := 0x50000028
abbrev F.EJ_WIN_LATE.COUNT : Fld := ⟨R.EJ_WIN_LATE, 31, 0⟩
abbrev R.EJ_WIN_MISSED : Nat := 0x5000002C
abbrev F.EJ_WIN_MISSED.COUNT : Fld := ⟨R.EJ_WIN_MISSED, 31, 0⟩
abbrev R.EJ_POOL_FULL : Nat := 0x50000030
abbrev F.EJ_POOL_FULL.COUNT : Fld := ⟨R.EJ_POOL_FULL, 31, 0⟩
abbrev R.EJ_VALVE_FULL : Nat := 0x50000034
abbrev F.EJ_VALVE_FULL.COUNT : Fld := ⟨R.EJ_VALVE_FULL, 31, 0⟩
abbrev R.EJ_NO_VALVE : Nat := 0x50000038
abbrev F.EJ_NO_VALVE.COUNT : Fld := ⟨R.EJ_NO_VALVE, 31, 0⟩
abbrev R.EJ_Vc_MAP (c : Nat) : Nat := 0x50001000 + c * 0x10
abbrev F.EJ_Vc_MAP.EN (c : Nat) : Fld := ⟨R.EJ_Vc_MAP c, 31, 31⟩
abbrev F.EJ_Vc_MAP.X_HI (c : Nat) : Fld := ⟨R.EJ_Vc_MAP c, 30, 16⟩
abbrev F.EJ_Vc_MAP.X_LO (c : Nat) : Fld := ⟨R.EJ_Vc_MAP c, 14, 0⟩
abbrev R.EJ_Vc_OPEN (c : Nat) : Nat := 0x50001004 + c * 0x10
abbrev F.EJ_Vc_OPEN.OPEN_LEAD (c : Nat) : Fld := ⟨R.EJ_Vc_OPEN c, 23, 0⟩
abbrev R.EJ_Vc_CLOSE (c : Nat) : Nat := 0x50001008 + c * 0x10
abbrev F.EJ_Vc_CLOSE.CLOSE_LEAD (c : Nat) : Fld := ⟨R.EJ_Vc_CLOSE c, 23, 0⟩
abbrev R.SPn_CFG (n : Nat) : Nat := 0x50100000 + n * 0x10000
abbrev F.SPn_CFG.EN (n : Nat) : Fld := ⟨R.SPn_CFG n, 31, 31⟩
abbrev F.SPn_CFG.ROW (n : Nat) : Fld := ⟨R.SPn_CFG n, 24, 24⟩
abbrev F.SPn_CFG.SEGMENT (n : Nat) : Fld := ⟨R.SPn_CFG n, 18, 16⟩
abbrev F.SPn_CFG.LEASE (n : Nat) : Fld := ⟨R.SPn_CFG n, 15, 8⟩
abbrev R.SPn_LEAD (n : Nat) : Nat := 0x50100004 + n * 0x10000
abbrev F.SPn_LEAD.LINK_LEAD (n : Nat) : Fld := ⟨R.SPn_LEAD n, 15, 0⟩
abbrev R.SPn_CLAIM (n : Nat) : Nat := 0x50100008 + n * 0x10000
abbrev F.SPn_CLAIM.RENEW (n : Nat) : Fld := ⟨R.SPn_CLAIM n, 16, 16⟩
abbrev F.SPn_CLAIM.CLAIM (n : Nat) : Fld := ⟨R.SPn_CLAIM n, 15, 0⟩
abbrev R.SPn_STATUS (n : Nat) : Nat := 0x5010000C + n * 0x10000
abbrev F.SPn_STATUS.RET_OK (n : Nat) : Fld := ⟨R.SPn_STATUS n, 8, 8⟩
abbrev F.SPn_STATUS.STATE (n : Nat) : Fld := ⟨R.SPn_STATUS n, 3, 0⟩
abbrev R.SPn_FLAGS (n : Nat) : Nat := 0x50100010 + n * 0x10000
abbrev F.SPn_FLAGS.LIMIT_REJ (n : Nat) : Fld := ⟨R.SPn_FLAGS n, 7, 7⟩
abbrev F.SPn_FLAGS.LEAD_SHORT (n : Nat) : Fld := ⟨R.SPn_FLAGS n, 6, 6⟩
abbrev F.SPn_FLAGS.COIL_FAULT (n : Nat) : Fld := ⟨R.SPn_FLAGS n, 5, 5⟩
abbrev F.SPn_FLAGS.RET_LOST (n : Nat) : Fld := ⟨R.SPn_FLAGS n, 4, 4⟩
abbrev F.SPn_FLAGS.MAXOPEN (n : Nat) : Fld := ⟨R.SPn_FLAGS n, 3, 3⟩
abbrev F.SPn_FLAGS.DUTY (n : Nat) : Fld := ⟨R.SPn_FLAGS n, 2, 2⟩
abbrev F.SPn_FLAGS.MINOFF (n : Nat) : Fld := ⟨R.SPn_FLAGS n, 1, 1⟩
abbrev F.SPn_FLAGS.MAXON (n : Nat) : Fld := ⟨R.SPn_FLAGS n, 0, 0⟩
abbrev R.SPn_IRQ_EN (n : Nat) : Nat := 0x50100014 + n * 0x10000
abbrev F.SPn_IRQ_EN.EN (n : Nat) : Fld := ⟨R.SPn_IRQ_EN n, 7, 0⟩
abbrev R.SPn_RETURN (n : Nat) : Nat := 0x50100018 + n * 0x10000
abbrev F.SPn_RETURN.TEMP (n : Nat) : Fld := ⟨R.SPn_RETURN n, 31, 24⟩
abbrev F.SPn_RETURN.APPLY_DELAY (n : Nat) : Fld := ⟨R.SPn_RETURN n, 23, 16⟩
abbrev F.SPn_RETURN.TURN (n : Nat) : Fld := ⟨R.SPn_RETURN n, 15, 8⟩
abbrev F.SPn_RETURN.STATUS (n : Nat) : Fld := ⟨R.SPn_RETURN n, 7, 0⟩
abbrev R.SPn_DELAY (n : Nat) : Nat := 0x5010001C + n * 0x10000
abbrev F.SPn_DELAY.DELAY (n : Nat) : Fld := ⟨R.SPn_DELAY n, 15, 0⟩
abbrev R.SPn_FRAMES_TX (n : Nat) : Nat := 0x50100020 + n * 0x10000
abbrev F.SPn_FRAMES_TX.COUNT (n : Nat) : Fld := ⟨R.SPn_FRAMES_TX n, 31, 0⟩
abbrev R.SPn_RET_OK (n : Nat) : Nat := 0x50100024 + n * 0x10000
abbrev F.SPn_RET_OK.COUNT (n : Nat) : Fld := ⟨R.SPn_RET_OK n, 31, 0⟩
abbrev R.SPn_RET_CRC_ERR (n : Nat) : Nat := 0x50100028 + n * 0x10000
abbrev F.SPn_RET_CRC_ERR.COUNT (n : Nat) : Fld := ⟨R.SPn_RET_CRC_ERR n, 31, 0⟩
abbrev R.SPn_SEQ_ERR (n : Nat) : Nat := 0x5010002C + n * 0x10000
abbrev F.SPn_SEQ_ERR.COUNT (n : Nat) : Fld := ⟨R.SPn_SEQ_ERR n, 31, 0⟩
abbrev R.SPn_MAXON_TRIPS (n : Nat) : Nat := 0x50100030 + n * 0x10000
abbrev F.SPn_MAXON_TRIPS.COUNT (n : Nat) : Fld := ⟨R.SPn_MAXON_TRIPS n, 31, 0⟩
abbrev R.SPn_MINOFF_HOLDS (n : Nat) : Nat := 0x50100034 + n * 0x10000
abbrev F.SPn_MINOFF_HOLDS.COUNT (n : Nat) : Fld := ⟨R.SPn_MINOFF_HOLDS n, 31, 0⟩
abbrev R.SPn_DUTY_CUTS (n : Nat) : Nat := 0x50100038 + n * 0x10000
abbrev F.SPn_DUTY_CUTS.COUNT (n : Nat) : Fld := ⟨R.SPn_DUTY_CUTS n, 31, 0⟩
abbrev R.SPn_MAXOPEN_CUTS (n : Nat) : Nat := 0x5010003C + n * 0x10000
abbrev F.SPn_MAXOPEN_CUTS.COUNT (n : Nat) : Fld := ⟨R.SPn_MAXOPEN_CUTS n, 31, 0⟩
abbrev R.SPn_LIMIT_MAXON (n : Nat) : Nat := 0x50100040 + n * 0x10000
abbrev F.SPn_LIMIT_MAXON.MAXON (n : Nat) : Fld := ⟨R.SPn_LIMIT_MAXON n, 16, 0⟩
abbrev R.SPn_LIMIT_MINOFF (n : Nat) : Nat := 0x50100044 + n * 0x10000
abbrev F.SPn_LIMIT_MINOFF.MINOFF (n : Nat) : Fld := ⟨R.SPn_LIMIT_MINOFF n, 13, 0⟩
abbrev R.SPn_LIMIT_DUTY (n : Nat) : Nat := 0x50100048 + n * 0x10000
abbrev F.SPn_LIMIT_DUTY.DUTY (n : Nat) : Fld := ⟨R.SPn_LIMIT_DUTY n, 8, 0⟩
abbrev R.SPn_LIMIT_MAXOPEN (n : Nat) : Nat := 0x5010004C + n * 0x10000
abbrev F.SPn_LIMIT_MAXOPEN.MAXOPEN (n : Nat) : Fld := ⟨R.SPn_LIMIT_MAXOPEN n, 7, 0⟩
abbrev R.SPn_LOCK (n : Nat) : Nat := 0x50100050 + n * 0x10000
abbrev F.SPn_LOCK.LOCK (n : Nat) : Fld := ⟨R.SPn_LOCK n, 0, 0⟩
abbrev R.SPn_COIL_FAULTk (n : Nat) (k : Nat) : Nat := 0x50100060 + n * 0x10000 + k * 0x4
abbrev F.SPn_COIL_FAULTk.FAULT (n : Nat) (k : Nat) : Fld := ⟨R.SPn_COIL_FAULTk n k, 31, 0⟩
abbrev R.SPn_COIL_SEL (n : Nat) : Nat := 0x50100070 + n * 0x10000
abbrev F.SPn_COIL_SEL.GROUP (n : Nat) : Fld := ⟨R.SPn_COIL_SEL n, 3, 0⟩

/-! ## 10_transport_axes.md -/

abbrev R.TRAn_CFG (n : Nat) : Nat := 0x50200000 + n * 0x10000
abbrev F.TRAn_CFG.EN (n : Nat) : Fld := ⟨R.TRAn_CFG n, 31, 31⟩
abbrev F.TRAn_CFG.TYPE (n : Nat) : Fld := ⟨R.TRAn_CFG n, 30, 30⟩
abbrev F.TRAn_CFG.BW (n : Nat) : Fld := ⟨R.TRAn_CFG n, 27, 24⟩
abbrev F.TRAn_CFG.FILT (n : Nat) : Fld := ⟨R.TRAn_CFG n, 23, 20⟩
abbrev F.TRAn_CFG.REVERSE (n : Nat) : Fld := ⟨R.TRAn_CFG n, 16, 16⟩
abbrev R.TRAn_SSI (n : Nat) : Nat := 0x50200004 + n * 0x10000
abbrev F.TRAn_SSI.GRAY (n : Nat) : Fld := ⟨R.TRAn_SSI n, 31, 31⟩
abbrev F.TRAn_SSI.NBITS (n : Nat) : Fld := ⟨R.TRAn_SSI n, 29, 24⟩
abbrev F.TRAn_SSI.DIV (n : Nat) : Fld := ⟨R.TRAn_SSI n, 23, 16⟩
abbrev F.TRAn_SSI.PERIOD (n : Nat) : Fld := ⟨R.TRAn_SSI n, 15, 0⟩
abbrev R.TRAn_SSI_LAT (n : Nat) : Nat := 0x50200008 + n * 0x10000
abbrev F.TRAn_SSI_LAT.JUMP_MAX (n : Nat) : Fld := ⟨R.TRAn_SSI_LAT n, 31, 16⟩
abbrev F.TRAn_SSI_LAT.LATCH_NS (n : Nat) : Fld := ⟨R.TRAn_SSI_LAT n, 15, 0⟩
abbrev R.TRAn_LIMITS (n : Nat) : Nat := 0x50200010 + n * 0x10000
abbrev F.TRAn_LIMITS.QERR_MAX (n : Nat) : Fld := ⟨R.TRAn_LIMITS n, 31, 24⟩
abbrev F.TRAn_LIMITS.STILL (n : Nat) : Fld := ⟨R.TRAn_LIMITS n, 23, 0⟩
abbrev R.TRAn_REF (n : Nat) : Nat := 0x50200014 + n * 0x10000
abbrev F.TRAn_REF.HOME (n : Nat) : Fld := ⟨R.TRAn_REF n, 31, 31⟩
abbrev F.TRAn_REF.RILL (n : Nat) : Fld := ⟨R.TRAn_REF n, 24, 16⟩
abbrev F.TRAn_REF.SRC (n : Nat) : Fld := ⟨R.TRAn_REF n, 1, 0⟩
abbrev R.TRAn_REF_VAL (n : Nat) : Nat := 0x50200018 + n * 0x10000
abbrev F.TRAn_REF_VAL.VAL_LO (n : Nat) : Fld := ⟨R.TRAn_REF_VAL n, 31, 0⟩
abbrev R.TRAn_REF_VAL_HI (n : Nat) : Nat := 0x5020001C + n * 0x10000
abbrev F.TRAn_REF_VAL_HI.VAL_HI (n : Nat) : Fld := ⟨R.TRAn_REF_VAL_HI n, 15, 0⟩
abbrev R.TRAn_CTRL (n : Nat) : Nat := 0x50200020 + n * 0x10000
abbrev F.TRAn_CTRL.CLR_UNCERT (n : Nat) : Fld := ⟨R.TRAn_CTRL n, 3, 3⟩
abbrev F.TRAn_CTRL.LIST_ARM (n : Nat) : Fld := ⟨R.TRAn_CTRL n, 2, 2⟩
abbrev F.TRAn_CTRL.LIST_STOP (n : Nat) : Fld := ⟨R.TRAn_CTRL n, 1, 1⟩
abbrev F.TRAn_CTRL.REF_ARM (n : Nat) : Fld := ⟨R.TRAn_CTRL n, 0, 0⟩
abbrev R.TRAn_STATUS (n : Nat) : Nat := 0x50200024 + n * 0x10000
abbrev F.TRAn_STATUS.UNCERTAIN (n : Nat) : Fld := ⟨R.TRAn_STATUS n, 31, 31⟩
abbrev F.TRAn_STATUS.REF_ARMED (n : Nat) : Fld := ⟨R.TRAn_STATUS n, 30, 30⟩
abbrev F.TRAn_STATUS.LIST_ARMED (n : Nat) : Fld := ⟨R.TRAn_STATUS n, 29, 29⟩
abbrev F.TRAn_STATUS.DIR (n : Nat) : Fld := ⟨R.TRAn_STATUS n, 28, 28⟩
abbrev F.TRAn_STATUS.STILL (n : Nat) : Fld := ⟨R.TRAn_STATUS n, 27, 27⟩
abbrev F.TRAn_STATUS.LIST_PTR (n : Nat) : Fld := ⟨R.TRAn_STATUS n, 11, 0⟩
abbrev R.TRAn_FLAGS (n : Nat) : Nat := 0x50200028 + n * 0x10000
abbrev F.TRAn_FLAGS.HOME_REJ (n : Nat) : Fld := ⟨R.TRAn_FLAGS n, 6, 6⟩
abbrev F.TRAn_FLAGS.SSI_JUMP (n : Nat) : Fld := ⟨R.TRAn_FLAGS n, 5, 5⟩
abbrev F.TRAn_FLAGS.SSI_ERR (n : Nat) : Fld := ⟨R.TRAn_FLAGS n, 4, 4⟩
abbrev F.TRAn_FLAGS.LIST_DONE (n : Nat) : Fld := ⟨R.TRAn_FLAGS n, 3, 3⟩
abbrev F.TRAn_FLAGS.REF_LATCH (n : Nat) : Fld := ⟨R.TRAn_FLAGS n, 2, 2⟩
abbrev F.TRAn_FLAGS.QERR_RATE (n : Nat) : Fld := ⟨R.TRAn_FLAGS n, 1, 1⟩
abbrev F.TRAn_FLAGS.QERR (n : Nat) : Fld := ⟨R.TRAn_FLAGS n, 0, 0⟩
abbrev R.TRAn_IRQ_EN (n : Nat) : Nat := 0x5020002C + n * 0x10000
abbrev F.TRAn_IRQ_EN.EN (n : Nat) : Fld := ⟨R.TRAn_IRQ_EN n, 6, 0⟩
abbrev R.TRAn_EDGES (n : Nat) : Nat := 0x50200030 + n * 0x10000
abbrev F.TRAn_EDGES.COUNT (n : Nat) : Fld := ⟨R.TRAn_EDGES n, 31, 0⟩
abbrev R.TRAn_QERR (n : Nat) : Nat := 0x50200034 + n * 0x10000
abbrev F.TRAn_QERR.COUNT (n : Nat) : Fld := ⟨R.TRAn_QERR n, 31, 0⟩
abbrev R.TRAn_REVERSALS (n : Nat) : Nat := 0x50200038 + n * 0x10000
abbrev F.TRAn_REVERSALS.COUNT (n : Nat) : Fld := ⟨R.TRAn_REVERSALS n, 31, 0⟩
abbrev R.TRAn_SSI_ERR (n : Nat) : Nat := 0x5020003C + n * 0x10000
abbrev F.TRAn_SSI_ERR.COUNT (n : Nat) : Fld := ⟨R.TRAn_SSI_ERR n, 31, 0⟩
abbrev R.TRAn_SSI_JUMP (n : Nat) : Nat := 0x50200040 + n * 0x10000
abbrev F.TRAn_SSI_JUMP.COUNT (n : Nat) : Fld := ⟨R.TRAn_SSI_JUMP n, 31, 0⟩
abbrev R.TRAn_LIST_FIRES (n : Nat) : Nat := 0x50200044 + n * 0x10000
abbrev F.TRAn_LIST_FIRES.COUNT (n : Nat) : Fld := ⟨R.TRAn_LIST_FIRES n, 31, 0⟩
abbrev R.TRAn_COUNT_LO (n : Nat) : Nat := 0x50200050 + n * 0x10000
abbrev F.TRAn_COUNT_LO.V (n : Nat) : Fld := ⟨R.TRAn_COUNT_LO n, 31, 0⟩
abbrev R.TRAn_COUNT_HI (n : Nat) : Nat := 0x50200054 + n * 0x10000
abbrev F.TRAn_COUNT_HI.V (n : Nat) : Fld := ⟨R.TRAn_COUNT_HI n, 15, 0⟩
abbrev R.TRAn_POS_LO (n : Nat) : Nat := 0x50200058 + n * 0x10000
abbrev F.TRAn_POS_LO.V (n : Nat) : Fld := ⟨R.TRAn_POS_LO n, 31, 0⟩
abbrev R.TRAn_POS_HI (n : Nat) : Nat := 0x5020005C + n * 0x10000
abbrev F.TRAn_POS_HI.V (n : Nat) : Fld := ⟨R.TRAn_POS_HI n, 31, 0⟩
abbrev R.TRAn_SPEED_LO (n : Nat) : Nat := 0x50200060 + n * 0x10000
abbrev F.TRAn_SPEED_LO.V (n : Nat) : Fld := ⟨R.TRAn_SPEED_LO n, 31, 0⟩
abbrev R.TRAn_SPEED_HI (n : Nat) : Nat := 0x50200064 + n * 0x10000
abbrev F.TRAn_SPEED_HI.V (n : Nat) : Fld := ⟨R.TRAn_SPEED_HI n, 31, 0⟩
abbrev R.TRAn_ACC_LO (n : Nat) : Nat := 0x50200068 + n * 0x10000
abbrev F.TRAn_ACC_LO.V (n : Nat) : Fld := ⟨R.TRAn_ACC_LO n, 31, 0⟩
abbrev R.TRAn_ACC_HI (n : Nat) : Nat := 0x5020006C + n * 0x10000
abbrev F.TRAn_ACC_HI.V (n : Nat) : Fld := ⟨R.TRAn_ACC_HI n, 31, 0⟩
abbrev R.TRAn_TUPD_LO (n : Nat) : Nat := 0x50200070 + n * 0x10000
abbrev F.TRAn_TUPD_LO.V (n : Nat) : Fld := ⟨R.TRAn_TUPD_LO n, 31, 0⟩
abbrev R.TRAn_TUPD_HI (n : Nat) : Nat := 0x50200074 + n * 0x10000
abbrev F.TRAn_TUPD_HI.V (n : Nat) : Fld := ⟨R.TRAn_TUPD_HI n, 31, 0⟩
abbrev R.TRAn_REF_CNT_LO (n : Nat) : Nat := 0x50200080 + n * 0x10000
abbrev F.TRAn_REF_CNT_LO.V (n : Nat) : Fld := ⟨R.TRAn_REF_CNT_LO n, 31, 0⟩
abbrev R.TRAn_REF_CNT_HI (n : Nat) : Nat := 0x50200084 + n * 0x10000
abbrev F.TRAn_REF_CNT_HI.V (n : Nat) : Fld := ⟨R.TRAn_REF_CNT_HI n, 15, 0⟩
abbrev R.TRAn_REF_TIME_LO (n : Nat) : Nat := 0x50200088 + n * 0x10000
abbrev F.TRAn_REF_TIME_LO.V (n : Nat) : Fld := ⟨R.TRAn_REF_TIME_LO n, 31, 0⟩
abbrev R.TRAn_REF_TIME_HI (n : Nat) : Nat := 0x5020008C + n * 0x10000
abbrev F.TRAn_REF_TIME_HI.V (n : Nat) : Fld := ⟨R.TRAn_REF_TIME_HI n, 31, 0⟩
abbrev R.TRAn_LIST_TIME_LO (n : Nat) : Nat := 0x50200090 + n * 0x10000
abbrev F.TRAn_LIST_TIME_LO.V (n : Nat) : Fld := ⟨R.TRAn_LIST_TIME_LO n, 31, 0⟩
abbrev R.TRAn_LIST_TIME_HI (n : Nat) : Nat := 0x50200094 + n * 0x10000
abbrev F.TRAn_LIST_TIME_HI.V (n : Nat) : Fld := ⟨R.TRAn_LIST_TIME_HI n, 31, 0⟩
abbrev R.TRAn_LIST_CFG (n : Nat) : Nat := 0x50200098 + n * 0x10000
abbrev F.TRAn_LIST_CFG.WRAP (n : Nat) : Fld := ⟨R.TRAn_LIST_CFG n, 31, 31⟩
abbrev F.TRAn_LIST_CFG.DIR (n : Nat) : Fld := ⟨R.TRAn_LIST_CFG n, 30, 30⟩
abbrev F.TRAn_LIST_CFG.LEN_M1 (n : Nat) : Fld := ⟨R.TRAn_LIST_CFG n, 27, 16⟩
abbrev F.TRAn_LIST_CFG.START (n : Nat) : Fld := ⟨R.TRAn_LIST_CFG n, 11, 0⟩

/-! ## 11_monitor_chain.md -/

abbrev R.MON_CTRL : Nat := 0x50300000
abbrev F.MON_CTRL.EN : Fld := ⟨R.MON_CTRL, 0, 0⟩
abbrev R.MON_FLAGS : Nat := 0x50300004
abbrev F.MON_FLAGS.SIG_FAIL : Fld := ⟨R.MON_FLAGS, 4, 4⟩
abbrev F.MON_FLAGS.SIG_DONE : Fld := ⟨R.MON_FLAGS, 3, 3⟩
abbrev F.MON_FLAGS.LIMIT : Fld := ⟨R.MON_FLAGS, 2, 2⟩
abbrev F.MON_FLAGS.GAP : Fld := ⟨R.MON_FLAGS, 1, 1⟩
abbrev F.MON_FLAGS.CLK_LOST : Fld := ⟨R.MON_FLAGS, 0, 0⟩
abbrev R.MON_IRQ_EN : Nat := 0x50300008
abbrev F.MON_IRQ_EN.EN : Fld := ⟨R.MON_IRQ_EN, 4, 0⟩
abbrev R.MON_CLK_KHZ : Nat := 0x5030000C
abbrev F.MON_CLK_KHZ.FREQ : Fld := ⟨R.MON_CLK_KHZ, 15, 0⟩
abbrev R.MON_SIG_DONE : Nat := 0x50300010
abbrev F.MON_SIG_DONE.DONE : Fld := ⟨R.MON_SIG_DONE, 31, 0⟩
abbrev R.MON_Cc_CFG (c : Nat) : Nat := 0x50300100 + c * 0x80
abbrev F.MON_Cc_CFG.EN (c : Nat) : Fld := ⟨R.MON_Cc_CFG c, 31, 31⟩
abbrev F.MON_Cc_CFG.SCS (c : Nat) : Fld := ⟨R.MON_Cc_CFG c, 30, 30⟩
abbrev F.MON_Cc_CFG.NSTAGE_M1 (c : Nat) : Fld := ⟨R.MON_Cc_CFG c, 29, 28⟩
abbrev F.MON_Cc_CFG.FIR (c : Nat) : Fld := ⟨R.MON_Cc_CFG c, 26, 24⟩
abbrev F.MON_Cc_CFG.TYPE (c : Nat) : Fld := ⟨R.MON_Cc_CFG c, 16, 16⟩
abbrev F.MON_Cc_CFG.PORT (c : Nat) : Fld := ⟨R.MON_Cc_CFG c, 9, 8⟩
abbrev F.MON_Cc_CFG.SRC (c : Nat) : Fld := ⟨R.MON_Cc_CFG c, 6, 0⟩
abbrev R.MON_Cc_DEC (c : Nat) : Nat := 0x50300104 + c * 0x80
abbrev F.MON_Cc_DEC.D (c : Nat) : Fld := ⟨R.MON_Cc_DEC c, 12, 0⟩
abbrev R.MON_Cc_STG01 (c : Nat) : Nat := 0x50300108 + c * 0x80
abbrev F.MON_Cc_STG01.S1 (c : Nat) : Fld := ⟨R.MON_Cc_STG01 c, 31, 27⟩
abbrev F.MON_Cc_STG01.L1_M1 (c : Nat) : Fld := ⟨R.MON_Cc_STG01 c, 25, 16⟩
abbrev F.MON_Cc_STG01.S0 (c : Nat) : Fld := ⟨R.MON_Cc_STG01 c, 15, 11⟩
abbrev F.MON_Cc_STG01.L0_M1 (c : Nat) : Fld := ⟨R.MON_Cc_STG01 c, 9, 0⟩
abbrev R.MON_Cc_STG23 (c : Nat) : Nat := 0x5030010C + c * 0x80
abbrev F.MON_Cc_STG23.S3 (c : Nat) : Fld := ⟨R.MON_Cc_STG23 c, 31, 27⟩
abbrev F.MON_Cc_STG23.L3_M1 (c : Nat) : Fld := ⟨R.MON_Cc_STG23 c, 25, 16⟩
abbrev F.MON_Cc_STG23.S2 (c : Nat) : Fld := ⟨R.MON_Cc_STG23 c, 15, 11⟩
abbrev F.MON_Cc_STG23.L2_M1 (c : Nat) : Fld := ⟨R.MON_Cc_STG23 c, 9, 0⟩
abbrev R.MON_Cc_SIG (c : Nat) : Nat := 0x50300110 + c * 0x80
abbrev F.MON_Cc_SIG.OPEN_EN (c : Nat) : Fld := ⟨R.MON_Cc_SIG c, 31, 31⟩
abbrev F.MON_Cc_SIG.CLOSE_EN (c : Nat) : Fld := ⟨R.MON_Cc_SIG c, 30, 30⟩
abbrev F.MON_Cc_SIG.WIN (c : Nat) : Fld := ⟨R.MON_Cc_SIG c, 15, 0⟩
abbrev R.MON_Cc_STATUS (c : Nat) : Nat := 0x50300114 + c * 0x80
abbrev F.MON_Cc_STATUS.IN_SERVICE (c : Nat) : Fld := ⟨R.MON_Cc_STATUS c, 31, 31⟩
abbrev F.MON_Cc_STATUS.SETTLED (c : Nat) : Fld := ⟨R.MON_Cc_STATUS c, 30, 30⟩
abbrev F.MON_Cc_STATUS.ARMED (c : Nat) : Fld := ⟨R.MON_Cc_STATUS c, 29, 29⟩
abbrev R.MON_Cc_FLAGS (c : Nat) : Nat := 0x50300118 + c * 0x80
abbrev F.MON_Cc_FLAGS.NO_BUMP (c : Nat) : Fld := ⟨R.MON_Cc_FLAGS c, 4, 4⟩
abbrev F.MON_Cc_FLAGS.NO_DIP (c : Nat) : Fld := ⟨R.MON_Cc_FLAGS c, 3, 3⟩
abbrev F.MON_Cc_FLAGS.GAP (c : Nat) : Fld := ⟨R.MON_Cc_FLAGS c, 2, 2⟩
abbrev F.MON_Cc_FLAGS.HI (c : Nat) : Fld := ⟨R.MON_Cc_FLAGS c, 1, 1⟩
abbrev F.MON_Cc_FLAGS.LO (c : Nat) : Fld := ⟨R.MON_Cc_FLAGS c, 0, 0⟩
abbrev R.MON_Cc_LIMIT_LO (c : Nat) : Nat := 0x5030011C + c * 0x80
abbrev F.MON_Cc_LIMIT_LO.V (c : Nat) : Fld := ⟨R.MON_Cc_LIMIT_LO c, 31, 0⟩
abbrev R.MON_Cc_LIMIT_HI (c : Nat) : Nat := 0x50300120 + c * 0x80
abbrev F.MON_Cc_LIMIT_HI.V (c : Nat) : Fld := ⟨R.MON_Cc_LIMIT_HI c, 31, 0⟩
abbrev R.MON_Cc_THR_HI (c : Nat) : Nat := 0x50300124 + c * 0x80
abbrev F.MON_Cc_THR_HI.V (c : Nat) : Fld := ⟨R.MON_Cc_THR_HI c, 31, 0⟩
abbrev R.MON_Cc_THR_LO (c : Nat) : Nat := 0x50300128 + c * 0x80
abbrev F.MON_Cc_THR_LO.V (c : Nat) : Fld := ⟨R.MON_Cc_THR_LO c, 31, 0⟩
abbrev R.MON_Cc_HYST (c : Nat) : Nat := 0x5030012C + c * 0x80
abbrev F.MON_Cc_HYST.V (c : Nat) : Fld := ⟨R.MON_Cc_HYST c, 31, 0⟩
abbrev R.MON_Cc_OUT (c : Nat) : Nat := 0x50300130 + c * 0x80
abbrev F.MON_Cc_OUT.V (c : Nat) : Fld := ⟨R.MON_Cc_OUT c, 31, 0⟩
abbrev R.MON_Cc_TIME_LO (c : Nat) : Nat := 0x50300134 + c * 0x80
abbrev F.MON_Cc_TIME_LO.V (c : Nat) : Fld := ⟨R.MON_Cc_TIME_LO c, 31, 0⟩
abbrev R.MON_Cc_TIME_HI (c : Nat) : Nat := 0x50300138 + c * 0x80
abbrev F.MON_Cc_TIME_HI.V (c : Nat) : Fld := ⟨R.MON_Cc_TIME_HI c, 31, 0⟩
abbrev R.MON_Cc_OPEN_LEAD (c : Nat) : Nat := 0x5030013C + c * 0x80
abbrev F.MON_Cc_OPEN_LEAD.V (c : Nat) : Fld := ⟨R.MON_Cc_OPEN_LEAD c, 31, 0⟩
abbrev R.MON_Cc_CLOSE_LEAD (c : Nat) : Nat := 0x50300140 + c * 0x80
abbrev F.MON_Cc_CLOSE_LEAD.V (c : Nat) : Fld := ⟨R.MON_Cc_CLOSE_LEAD c, 31, 0⟩
abbrev R.MON_Cc_SIG_OK (c : Nat) : Nat := 0x50300144 + c * 0x80
abbrev F.MON_Cc_SIG_OK.V (c : Nat) : Fld := ⟨R.MON_Cc_SIG_OK c, 31, 0⟩
abbrev R.MON_Cc_SIG_FAILS (c : Nat) : Nat := 0x50300148 + c * 0x80
abbrev F.MON_Cc_SIG_FAILS.V (c : Nat) : Fld := ⟨R.MON_Cc_SIG_FAILS c, 31, 0⟩

/-! ## 12_time_base.md -/

abbrev R.TB_CTRL : Nat := 0x50400000
abbrev F.TB_CTRL.SLEW_PPM : Fld := ⟨R.TB_CTRL, 25, 16⟩
abbrev F.TB_CTRL.STEP : Fld := ⟨R.TB_CTRL, 0, 0⟩
abbrev R.TB_ADJ : Nat := 0x50400004
abbrev F.TB_ADJ.ADJ : Fld := ⟨R.TB_ADJ, 31, 0⟩
abbrev R.TB_SLEW : Nat := 0x50400008
abbrev F.TB_SLEW.V : Fld := ⟨R.TB_SLEW, 31, 0⟩
abbrev R.TB_STEP_NS : Nat := 0x5040000C
abbrev F.TB_STEP_NS.NS : Fld := ⟨R.TB_STEP_NS, 29, 0⟩
abbrev R.TB_STEP_SEC_LO : Nat := 0x50400010
abbrev F.TB_STEP_SEC_LO.V : Fld := ⟨R.TB_STEP_SEC_LO, 31, 0⟩
abbrev R.TB_STEP_SEC_HI : Nat := 0x50400014
abbrev F.TB_STEP_SEC_HI.V : Fld := ⟨R.TB_STEP_SEC_HI, 15, 0⟩
abbrev R.TB_TOD_FRAC : Nat := 0x50400018
abbrev F.TB_TOD_FRAC.FRAC : Fld := ⟨R.TB_TOD_FRAC, 31, 0⟩
abbrev R.TB_TOD_NS : Nat := 0x5040001C
abbrev F.TB_TOD_NS.NS : Fld := ⟨R.TB_TOD_NS, 29, 0⟩
abbrev R.TB_TOD_SEC_LO : Nat := 0x50400020
abbrev F.TB_TOD_SEC_LO.V : Fld := ⟨R.TB_TOD_SEC_LO, 31, 0⟩
abbrev R.TB_TOD_SEC_HI : Nat := 0x50400024
abbrev F.TB_TOD_SEC_HI.V : Fld := ⟨R.TB_TOD_SEC_HI, 15, 0⟩
abbrev R.TB_STATUS : Nat := 0x50400028
abbrev F.TB_STATUS.RUNNING : Fld := ⟨R.TB_STATUS, 31, 31⟩
abbrev F.TB_STATUS.SLEWING : Fld := ⟨R.TB_STATUS, 30, 30⟩
abbrev F.TB_STATUS.TSQ_LEVEL : Fld := ⟨R.TB_STATUS, 7, 0⟩
abbrev R.TB_LINE : Nat := 0x5040002C
abbrev F.TB_LINE.L : Fld := ⟨R.TB_LINE, 31, 0⟩
abbrev R.TB_FLAGS : Nat := 0x50400030
abbrev F.TB_FLAGS.PPS_IN : Fld := ⟨R.TB_FLAGS, 4, 4⟩
abbrev F.TB_FLAGS.NO_POS : Fld := ⟨R.TB_FLAGS, 3, 3⟩
abbrev F.TB_FLAGS.TSQ_OVF : Fld := ⟨R.TB_FLAGS, 2, 2⟩
abbrev F.TB_FLAGS.ADJ_REJ : Fld := ⟨R.TB_FLAGS, 1, 1⟩
abbrev F.TB_FLAGS.STEP_REJ : Fld := ⟨R.TB_FLAGS, 0, 0⟩
abbrev R.TB_IRQ_EN : Nat := 0x50400034
abbrev F.TB_IRQ_EN.EN : Fld := ⟨R.TB_IRQ_EN, 4, 0⟩
abbrev R.TB_LINE_CFG : Nat := 0x50400040
abbrev F.TB_LINE_CFG.RUN : Fld := ⟨R.TB_LINE_CFG, 31, 31⟩
abbrev F.TB_LINE_CFG.BELT : Fld := ⟨R.TB_LINE_CFG, 30, 30⟩
abbrev F.TB_LINE_CFG.AXIS : Fld := ⟨R.TB_LINE_CFG, 25, 24⟩
abbrev F.TB_LINE_CFG.CYCLE_LOG2 : Fld := ⟨R.TB_LINE_CFG, 19, 16⟩
abbrev R.TB_PERIOD_NS : Nat := 0x50400044
abbrev F.TB_PERIOD_NS.V : Fld := ⟨R.TB_PERIOD_NS, 31, 0⟩
abbrev R.TB_PERIOD_FRAC : Nat := 0x50400048
abbrev F.TB_PERIOD_FRAC.V : Fld := ⟨R.TB_PERIOD_FRAC, 31, 0⟩
abbrev R.TB_ANCHOR_LINE : Nat := 0x5040004C
abbrev F.TB_ANCHOR_LINE.V : Fld := ⟨R.TB_ANCHOR_LINE, 31, 0⟩
abbrev R.TB_ANCHOR_T_LO : Nat := 0x50400050
abbrev F.TB_ANCHOR_T_LO.V : Fld := ⟨R.TB_ANCHOR_T_LO, 31, 0⟩
abbrev R.TB_ANCHOR_T_HI : Nat := 0x50400054
abbrev F.TB_ANCHOR_T_HI.V : Fld := ⟨R.TB_ANCHOR_T_HI, 31, 0⟩
abbrev R.TB_PPS : Nat := 0x50400060
abbrev F.TB_PPS.OUT_EN : Fld := ⟨R.TB_PPS, 31, 31⟩
abbrev F.TB_PPS.IN_EN : Fld := ⟨R.TB_PPS, 30, 30⟩
abbrev F.TB_PPS.IN_FALL : Fld := ⟨R.TB_PPS, 29, 29⟩
abbrev F.TB_PPS.WIDTH : Fld := ⟨R.TB_PPS, 19, 0⟩
abbrev R.TB_PPS_IN_LO : Nat := 0x50400064
abbrev F.TB_PPS_IN_LO.V : Fld := ⟨R.TB_PPS_IN_LO, 31, 0⟩
abbrev R.TB_PPS_IN_HI : Nat := 0x50400068
abbrev F.TB_PPS_IN_HI.V : Fld := ⟨R.TB_PPS_IN_HI, 31, 0⟩
abbrev R.TB_ETH_TXLAT : Nat := 0x50400070
abbrev F.TB_ETH_TXLAT.V : Fld := ⟨R.TB_ETH_TXLAT, 31, 0⟩
abbrev R.TB_ETH_RXLAT : Nat := 0x50400074
abbrev F.TB_ETH_RXLAT.V : Fld := ⟨R.TB_ETH_RXLAT, 31, 0⟩
abbrev R.TB_ETH_ASYM : Nat := 0x50400078
abbrev F.TB_ETH_ASYM.V : Fld := ⟨R.TB_ETH_ASYM, 31, 0⟩
abbrev R.TB_PEERn_TXLAT (n : Nat) : Nat := 0x50400080 + n * 0x10
abbrev F.TB_PEERn_TXLAT.V (n : Nat) : Fld := ⟨R.TB_PEERn_TXLAT n, 31, 0⟩
abbrev R.TB_PEERn_RXLAT (n : Nat) : Nat := 0x50400084 + n * 0x10
abbrev F.TB_PEERn_RXLAT.V (n : Nat) : Fld := ⟨R.TB_PEERn_RXLAT n, 31, 0⟩
abbrev R.TB_PEERn_ASYM (n : Nat) : Nat := 0x50400088 + n * 0x10
abbrev F.TB_PEERn_ASYM.V (n : Nat) : Fld := ⟨R.TB_PEERn_ASYM n, 31, 0⟩
abbrev R.TB_PTP_CFG : Nat := 0x504000B0
abbrev F.TB_PTP_CFG.L2_EN : Fld := ⟨R.TB_PTP_CFG, 2, 2⟩
abbrev F.TB_PTP_CFG.V6_EN : Fld := ⟨R.TB_PTP_CFG, 1, 1⟩
abbrev F.TB_PTP_CFG.V4_EN : Fld := ⟨R.TB_PTP_CFG, 0, 0⟩
abbrev R.TB_TSQ_INFO : Nat := 0x504000C0
abbrev F.TB_TSQ_INFO.VALID : Fld := ⟨R.TB_TSQ_INFO, 31, 31⟩
abbrev F.TB_TSQ_INFO.DIR : Fld := ⟨R.TB_TSQ_INFO, 30, 30⟩
abbrev F.TB_TSQ_INFO.MSG_TYPE : Fld := ⟨R.TB_TSQ_INFO, 27, 24⟩
abbrev F.TB_TSQ_INFO.DOMAIN : Fld := ⟨R.TB_TSQ_INFO, 23, 16⟩
abbrev F.TB_TSQ_INFO.SEQ_ID : Fld := ⟨R.TB_TSQ_INFO, 15, 0⟩
abbrev R.TB_TSQ_FRAC : Nat := 0x504000C4
abbrev F.TB_TSQ_FRAC.V : Fld := ⟨R.TB_TSQ_FRAC, 7, 0⟩
abbrev R.TB_TSQ_NS_LO : Nat := 0x504000C8
abbrev F.TB_TSQ_NS_LO.V : Fld := ⟨R.TB_TSQ_NS_LO, 31, 0⟩
abbrev R.TB_TSQ_NS_HI : Nat := 0x504000CC
abbrev F.TB_TSQ_NS_HI.V : Fld := ⟨R.TB_TSQ_NS_HI, 31, 0⟩
abbrev R.TB_TSQ_OVF : Nat := 0x504000D0
abbrev F.TB_TSQ_OVF.V : Fld := ⟨R.TB_TSQ_OVF, 31, 0⟩
abbrev R.TIO_LOCK : Nat := 0x50410000
abbrev F.TIO_LOCK.LOCK : Fld := ⟨R.TIO_LOCK, 0, 0⟩
abbrev R.TIO_PENDING : Nat := 0x50410004
abbrev F.TIO_PENDING.PIN : Fld := ⟨R.TIO_PENDING, 15, 0⟩
abbrev R.TIO_Pn_CFG (n : Nat) : Nat := 0x50410100 + n * 0x40
abbrev F.TIO_Pn_CFG.SAFE (n : Nat) : Fld := ⟨R.TIO_Pn_CFG n, 31, 30⟩
abbrev F.TIO_Pn_CFG.INV (n : Nat) : Fld := ⟨R.TIO_Pn_CFG n, 29, 29⟩
abbrev F.TIO_Pn_CFG.FILT (n : Nat) : Fld := ⟨R.TIO_Pn_CFG n, 27, 24⟩
abbrev F.TIO_Pn_CFG.MODE (n : Nat) : Fld := ⟨R.TIO_Pn_CFG n, 22, 20⟩
abbrev F.TIO_Pn_CFG.LEVEL (n : Nat) : Fld := ⟨R.TIO_Pn_CFG n, 19, 19⟩
abbrev F.TIO_Pn_CFG.EDGE (n : Nat) : Fld := ⟨R.TIO_Pn_CFG n, 17, 16⟩
abbrev F.TIO_Pn_CFG.RILL (n : Nat) : Fld := ⟨R.TIO_Pn_CFG n, 8, 0⟩
abbrev R.TIO_Pn_START_LO (n : Nat) : Nat := 0x50410104 + n * 0x40
abbrev F.TIO_Pn_START_LO.V (n : Nat) : Fld := ⟨R.TIO_Pn_START_LO n, 31, 0⟩
abbrev R.TIO_Pn_START_HI (n : Nat) : Nat := 0x50410108 + n * 0x40
abbrev F.TIO_Pn_START_HI.V (n : Nat) : Fld := ⟨R.TIO_Pn_START_HI n, 31, 0⟩
abbrev R.TIO_Pn_WIDTH (n : Nat) : Nat := 0x5041010C + n * 0x40
abbrev F.TIO_Pn_WIDTH.WIDTH (n : Nat) : Fld := ⟨R.TIO_Pn_WIDTH n, 31, 0⟩
abbrev R.TIO_Pn_PERIOD (n : Nat) : Nat := 0x50410110 + n * 0x40
abbrev F.TIO_Pn_PERIOD.PERIOD (n : Nat) : Fld := ⟨R.TIO_Pn_PERIOD n, 31, 0⟩
abbrev R.TIO_Pn_COUNT (n : Nat) : Nat := 0x50410114 + n * 0x40
abbrev F.TIO_Pn_COUNT.COUNT (n : Nat) : Fld := ⟨R.TIO_Pn_COUNT n, 31, 0⟩
abbrev R.TIO_Pn_OFFSET (n : Nat) : Nat := 0x50410118 + n * 0x40
abbrev F.TIO_Pn_OFFSET.OFFSET (n : Nat) : Fld := ⟨R.TIO_Pn_OFFSET n, 31, 0⟩
abbrev R.TIO_Pn_LINE (n : Nat) : Nat := 0x5041011C + n * 0x40
abbrev F.TIO_Pn_LINE.PHASE (n : Nat) : Fld := ⟨R.TIO_Pn_LINE n, 27, 16⟩
abbrev F.TIO_Pn_LINE.LINE_DIV (n : Nat) : Fld := ⟨R.TIO_Pn_LINE n, 11, 0⟩
abbrev R.TIO_Pn_CTRL (n : Nat) : Nat := 0x50410120 + n * 0x40
abbrev F.TIO_Pn_CTRL.STOP (n : Nat) : Fld := ⟨R.TIO_Pn_CTRL n, 1, 1⟩
abbrev F.TIO_Pn_CTRL.ARM (n : Nat) : Fld := ⟨R.TIO_Pn_CTRL n, 0, 0⟩
abbrev R.TIO_Pn_STATUS (n : Nat) : Nat := 0x50410124 + n * 0x40
abbrev F.TIO_Pn_STATUS.ARMED (n : Nat) : Fld := ⟨R.TIO_Pn_STATUS n, 31, 31⟩
abbrev F.TIO_Pn_STATUS.ACTIVE (n : Nat) : Fld := ⟨R.TIO_Pn_STATUS n, 30, 30⟩
abbrev F.TIO_Pn_STATUS.CAP_LEVEL (n : Nat) : Fld := ⟨R.TIO_Pn_STATUS n, 4, 0⟩
abbrev R.TIO_Pn_FLAGS (n : Nat) : Nat := 0x50410128 + n * 0x40
abbrev F.TIO_Pn_FLAGS.CFG_REJ (n : Nat) : Fld := ⟨R.TIO_Pn_FLAGS n, 3, 3⟩
abbrev F.TIO_Pn_FLAGS.CAP_OVF (n : Nat) : Fld := ⟨R.TIO_Pn_FLAGS n, 2, 2⟩
abbrev F.TIO_Pn_FLAGS.LATE (n : Nat) : Fld := ⟨R.TIO_Pn_FLAGS n, 1, 1⟩
abbrev F.TIO_Pn_FLAGS.CAP (n : Nat) : Fld := ⟨R.TIO_Pn_FLAGS n, 0, 0⟩
abbrev R.TIO_Pn_IRQ_EN (n : Nat) : Nat := 0x5041012C + n * 0x40
abbrev F.TIO_Pn_IRQ_EN.EN (n : Nat) : Fld := ⟨R.TIO_Pn_IRQ_EN n, 3, 0⟩
abbrev R.TIO_Pn_CAP_LO (n : Nat) : Nat := 0x50410130 + n * 0x40
abbrev F.TIO_Pn_CAP_LO.V (n : Nat) : Fld := ⟨R.TIO_Pn_CAP_LO n, 31, 0⟩
abbrev R.TIO_Pn_CAP_HI (n : Nat) : Nat := 0x50410134 + n * 0x40
abbrev F.TIO_Pn_CAP_HI.RISE (n : Nat) : Fld := ⟨R.TIO_Pn_CAP_HI n, 31, 31⟩
abbrev F.TIO_Pn_CAP_HI.V (n : Nat) : Fld := ⟨R.TIO_Pn_CAP_HI n, 30, 0⟩
abbrev R.TIO_Pn_LATE (n : Nat) : Nat := 0x5041013C + n * 0x40
abbrev F.TIO_Pn_LATE.V (n : Nat) : Fld := ⟨R.TIO_Pn_LATE n, 31, 0⟩

/-! ## 13_external_dram.md -/

abbrev R.MEM_CFG : Nat := 0x60000000
abbrev F.MEM_CFG.LOCK : Fld := ⟨R.MEM_CFG, 31, 31⟩
abbrev F.MEM_CFG.RATE : Fld := ⟨R.MEM_CFG, 11, 8⟩
abbrev F.MEM_CFG.CAP : Fld := ⟨R.MEM_CFG, 5, 4⟩
abbrev F.MEM_CFG.ECC_EN : Fld := ⟨R.MEM_CFG, 1, 1⟩
abbrev F.MEM_CFG.INIT : Fld := ⟨R.MEM_CFG, 0, 0⟩
abbrev R.MEM_HASH0_LO : Nat := 0x60000010
abbrev F.MEM_HASH0_LO.V : Fld := ⟨R.MEM_HASH0_LO, 31, 0⟩
abbrev R.MEM_HASH1_LO : Nat := 0x60000018
abbrev F.MEM_HASH1_LO.V : Fld := ⟨R.MEM_HASH1_LO, 31, 0⟩
abbrev R.MEM_HASH2_LO : Nat := 0x60000020
abbrev F.MEM_HASH2_LO.V : Fld := ⟨R.MEM_HASH2_LO, 31, 0⟩
abbrev R.MEM_HASH3_LO : Nat := 0x60000028
abbrev F.MEM_HASH3_LO.V : Fld := ⟨R.MEM_HASH3_LO, 31, 0⟩
abbrev R.MEM_HASH4_LO : Nat := 0x60000030
abbrev F.MEM_HASH4_LO.V : Fld := ⟨R.MEM_HASH4_LO, 31, 0⟩
abbrev R.MEM_HASH5_LO : Nat := 0x60000038
abbrev F.MEM_HASH5_LO.V : Fld := ⟨R.MEM_HASH5_LO, 31, 0⟩
abbrev R.MEM_HASHi_HI (i : Nat) : Nat := 0x60000014 + i * 0x8
abbrev F.MEM_HASHi_HI.V (i : Nat) : Fld := ⟨R.MEM_HASHi_HI i, 1, 0⟩
abbrev R.MEM_LATm (m : Nat) : Nat := 0x60000040 + m * 0x4
abbrev F.MEM_LATm.RT (m : Nat) : Fld := ⟨R.MEM_LATm m, 31, 31⟩
abbrev F.MEM_LATm.TARGET (m : Nat) : Fld := ⟨R.MEM_LATm m, 15, 0⟩
abbrev R.MEM_TRAIN : Nat := 0x60000064
abbrev F.MEM_TRAIN.DRIFT_PERIOD : Fld := ⟨R.MEM_TRAIN, 31, 16⟩
abbrev F.MEM_TRAIN.DRIFT_THR : Fld := ⟨R.MEM_TRAIN, 7, 0⟩
abbrev R.MEMn_STATUS (n : Nat) : Nat := 0x60000100 + n * 0x10000
abbrev F.MEMn_STATUS.DEBT (n : Nat) : Fld := ⟨R.MEMn_STATUS n, 20, 16⟩
abbrev F.MEMn_STATUS.MULT (n : Nat) : Fld := ⟨R.MEMn_STATUS n, 9, 8⟩
abbrev F.MEMn_STATUS.SLOT (n : Nat) : Fld := ⟨R.MEMn_STATUS n, 4, 4⟩
abbrev F.MEMn_STATUS.STATE (n : Nat) : Fld := ⟨R.MEMn_STATUS n, 3, 0⟩
abbrev R.MEMn_FLAGS (n : Nat) : Nat := 0x60000104 + n * 0x10000
abbrev F.MEMn_FLAGS.MAP_REJ (n : Nat) : Fld := ⟨R.MEMn_FLAGS n, 7, 7⟩
abbrev F.MEMn_FLAGS.LAT_MISS (n : Nat) : Fld := ⟨R.MEMn_FLAGS n, 6, 6⟩
abbrev F.MEMn_FLAGS.TEMP_HIGH (n : Nat) : Fld := ⟨R.MEMn_FLAGS n, 5, 5⟩
abbrev F.MEMn_FLAGS.REF_FORCED (n : Nat) : Fld := ⟨R.MEMn_FLAGS n, 4, 4⟩
abbrev F.MEMn_FLAGS.DRIFT_RETRAIN (n : Nat) : Fld := ⟨R.MEMn_FLAGS n, 3, 3⟩
abbrev F.MEMn_FLAGS.TRAIN_FAIL (n : Nat) : Fld := ⟨R.MEMn_FLAGS n, 2, 2⟩
abbrev F.MEMn_FLAGS.ECC_UNCORR (n : Nat) : Fld := ⟨R.MEMn_FLAGS n, 1, 1⟩
abbrev F.MEMn_FLAGS.ECC_CORR (n : Nat) : Fld := ⟨R.MEMn_FLAGS n, 0, 0⟩
abbrev R.MEMn_IRQ_EN (n : Nat) : Nat := 0x60000108 + n * 0x10000
abbrev F.MEMn_IRQ_EN.EN (n : Nat) : Fld := ⟨R.MEMn_IRQ_EN n, 7, 0⟩
abbrev R.MEMn_ECC_CORR (n : Nat) : Nat := 0x60000110 + n * 0x10000
abbrev F.MEMn_ECC_CORR.COUNT (n : Nat) : Fld := ⟨R.MEMn_ECC_CORR n, 31, 0⟩
abbrev R.MEMn_ECC_UNCORR (n : Nat) : Nat := 0x60000114 + n * 0x10000
abbrev F.MEMn_ECC_UNCORR.COUNT (n : Nat) : Fld := ⟨R.MEMn_ECC_UNCORR n, 31, 0⟩
abbrev R.MEMn_REF_FORCED (n : Nat) : Nat := 0x60000118 + n * 0x10000
abbrev F.MEMn_REF_FORCED.COUNT (n : Nat) : Fld := ⟨R.MEMn_REF_FORCED n, 31, 0⟩
abbrev R.MEMn_RETRAINS (n : Nat) : Nat := 0x6000011C + n * 0x10000
abbrev F.MEMn_RETRAINS.COUNT (n : Nat) : Fld := ⟨R.MEMn_RETRAINS n, 31, 0⟩
abbrev R.MEMn_URG3 (n : Nat) : Nat := 0x60000120 + n * 0x10000
abbrev F.MEMn_URG3.COUNT (n : Nat) : Fld := ⟨R.MEMn_URG3 n, 31, 0⟩
abbrev R.MEMn_ROW_HITS (n : Nat) : Nat := 0x60000124 + n * 0x10000
abbrev F.MEMn_ROW_HITS.COUNT (n : Nat) : Fld := ⟨R.MEMn_ROW_HITS n, 31, 0⟩
abbrev R.MEMn_ROW_MISSES (n : Nat) : Nat := 0x60000128 + n * 0x10000
abbrev F.MEMn_ROW_MISSES.COUNT (n : Nat) : Fld := ⟨R.MEMn_ROW_MISSES n, 31, 0⟩
abbrev R.MEMn_RD_BURSTS (n : Nat) : Nat := 0x6000012C + n * 0x10000
abbrev F.MEMn_RD_BURSTS.COUNT (n : Nat) : Fld := ⟨R.MEMn_RD_BURSTS n, 31, 0⟩
abbrev R.MEMn_WR_BURSTS (n : Nat) : Nat := 0x60000130 + n * 0x10000
abbrev F.MEMn_WR_BURSTS.COUNT (n : Nat) : Fld := ⟨R.MEMn_WR_BURSTS n, 31, 0⟩
abbrev R.MEMn_PORT_BURSTSm (n : Nat) (m : Nat) : Nat := 0x60000180 + n * 0x10000 + m * 0x4
abbrev F.MEMn_PORT_BURSTSm.COUNT (n : Nat) (m : Nat) : Fld := ⟨R.MEMn_PORT_BURSTSm n m, 31, 0⟩
abbrev R.MEMn_ERR_ADDR_LO (n : Nat) : Nat := 0x60000140 + n * 0x10000
abbrev F.MEMn_ERR_ADDR_LO.ADDR (n : Nat) : Fld := ⟨R.MEMn_ERR_ADDR_LO n, 31, 0⟩
abbrev R.MEMn_ERR_ADDR_HI (n : Nat) : Nat := 0x60000144 + n * 0x10000
abbrev F.MEMn_ERR_ADDR_HI.ADDR (n : Nat) : Fld := ⟨R.MEMn_ERR_ADDR_HI n, 7, 0⟩
abbrev R.MEMn_ERR_INFO (n : Nat) : Nat := 0x60000148 + n * 0x10000
abbrev F.MEMn_ERR_INFO.VALID (n : Nat) : Fld := ⟨R.MEMn_ERR_INFO n, 31, 31⟩
abbrev F.MEMn_ERR_INFO.UNCORR (n : Nat) : Fld := ⟨R.MEMn_ERR_INFO n, 30, 30⟩
abbrev F.MEMn_ERR_INFO.PORT (n : Nat) : Fld := ⟨R.MEMn_ERR_INFO n, 27, 24⟩
abbrev F.MEMn_ERR_INFO.WORD (n : Nat) : Fld := ⟨R.MEMn_ERR_INFO n, 10, 8⟩
abbrev F.MEMn_ERR_INFO.SYNDROME (n : Nat) : Fld := ⟨R.MEMn_ERR_INFO n, 7, 0⟩

/-! ## 14_ethernet_kcp.md -/

abbrev R.ETH_CFG : Nat := 0x100A0000
abbrev F.ETH_CFG.EN : Fld := ⟨R.ETH_CFG, 31, 31⟩
abbrev F.ETH_CFG.MODE : Fld := ⟨R.ETH_CFG, 9, 8⟩
abbrev F.ETH_CFG.VLAN_EN : Fld := ⟨R.ETH_CFG, 3, 3⟩
abbrev F.ETH_CFG.PAUSE_RX : Fld := ⟨R.ETH_CFG, 2, 2⟩
abbrev F.ETH_CFG.PAUSE_TX : Fld := ⟨R.ETH_CFG, 1, 1⟩
abbrev R.ETH_STATUS : Nat := 0x100A0018
abbrev F.ETH_STATUS.LINK : Fld := ⟨R.ETH_STATUS, 31, 31⟩
abbrev F.ETH_STATUS.FEC_LOCK : Fld := ⟨R.ETH_STATUS, 30, 30⟩
abbrev F.ETH_STATUS.ALIGNED : Fld := ⟨R.ETH_STATUS, 29, 29⟩
abbrev F.ETH_STATUS.AN_DONE : Fld := ⟨R.ETH_STATUS, 28, 28⟩
abbrev F.ETH_STATUS.PAUSED : Fld := ⟨R.ETH_STATUS, 27, 27⟩
abbrev F.ETH_STATUS.PHY_STATE : Fld := ⟨R.ETH_STATUS, 3, 0⟩
abbrev R.ETH_FLAGS : Nat := 0x100A001C
abbrev F.ETH_FLAGS.CFG_REJ : Fld := ⟨R.ETH_FLAGS, 6, 6⟩
abbrev F.ETH_FLAGS.AN_FAIL : Fld := ⟨R.ETH_FLAGS, 5, 5⟩
abbrev F.ETH_FLAGS.FEC_UNCORR : Fld := ⟨R.ETH_FLAGS, 4, 4⟩
abbrev F.ETH_FLAGS.CSUM_ERR : Fld := ⟨R.ETH_FLAGS, 3, 3⟩
abbrev F.ETH_FLAGS.RXQ_FULL : Fld := ⟨R.ETH_FLAGS, 2, 2⟩
abbrev F.ETH_FLAGS.LINK_UP : Fld := ⟨R.ETH_FLAGS, 1, 1⟩
abbrev F.ETH_FLAGS.LINK_DOWN : Fld := ⟨R.ETH_FLAGS, 0, 0⟩
abbrev R.ETH_IRQ_EN : Nat := 0x100A0020
abbrev F.ETH_IRQ_EN.EN : Fld := ⟨R.ETH_IRQ_EN, 6, 0⟩
abbrev R.ETH_VLAN : Nat := 0x100A0004
abbrev F.ETH_VLAN.PCP : Fld := ⟨R.ETH_VLAN, 15, 13⟩
abbrev F.ETH_VLAN.VID : Fld := ⟨R.ETH_VLAN, 11, 0⟩
abbrev R.ETH_MAC_LO : Nat := 0x100A0008
abbrev F.ETH_MAC_LO.V : Fld := ⟨R.ETH_MAC_LO, 31, 0⟩
abbrev R.ETH_MAC_HI : Nat := 0x100A000C
abbrev F.ETH_MAC_HI.V : Fld := ⟨R.ETH_MAC_HI, 15, 0⟩
abbrev R.ETH_MTU : Nat := 0x100A0010
abbrev F.ETH_MTU.MTU : Fld := ⟨R.ETH_MTU, 13, 0⟩
abbrev R.ETH_PAUSE : Nat := 0x100A0014
abbrev F.ETH_PAUSE.QUANTA : Fld := ⟨R.ETH_PAUSE, 31, 16⟩
abbrev R.ETH_RXQq_BASE_LO (q : Nat) : Nat := 0x100A0100 + q * 0x20
abbrev F.ETH_RXQq_BASE_LO.V (q : Nat) : Fld := ⟨R.ETH_RXQq_BASE_LO q, 31, 12⟩
abbrev R.ETH_RXQq_BASE_HI (q : Nat) : Nat := 0x100A0104 + q * 0x20
abbrev F.ETH_RXQq_BASE_HI.V (q : Nat) : Fld := ⟨R.ETH_RXQq_BASE_HI q, 7, 0⟩
abbrev R.ETH_RXQq_SIZE (q : Nat) : Nat := 0x100A0108 + q * 0x20
abbrev F.ETH_RXQq_SIZE.SLOTS_LOG2 (q : Nat) : Fld := ⟨R.ETH_RXQq_SIZE q, 3, 0⟩
abbrev F.ETH_RXQq_SIZE.EN (q : Nat) : Fld := ⟨R.ETH_RXQq_SIZE q, 31, 31⟩
abbrev R.ETH_RXQq_HEAD (q : Nat) : Nat := 0x100A010C + q * 0x20
abbrev F.ETH_RXQq_HEAD.HEAD (q : Nat) : Fld := ⟨R.ETH_RXQq_HEAD q, 11, 0⟩
abbrev R.ETH_RXQq_TAIL (q : Nat) : Nat := 0x100A0110 + q * 0x20
abbrev F.ETH_RXQq_TAIL.TAIL (q : Nat) : Fld := ⟨R.ETH_RXQq_TAIL q, 11, 0⟩
abbrev R.ETH_RXQq_DROP (q : Nat) : Nat := 0x100A0114 + q * 0x20
abbrev F.ETH_RXQq_DROP.V (q : Nat) : Fld := ⟨R.ETH_RXQq_DROP q, 31, 0⟩
abbrev R.ETH_RX_FRAMES : Nat := 0x100A0200
abbrev F.ETH_RX_FRAMES.COUNT : Fld := ⟨R.ETH_RX_FRAMES, 31, 0⟩
abbrev R.ETH_RX_FCS_ERR : Nat := 0x100A0204
abbrev F.ETH_RX_FCS_ERR.COUNT : Fld := ⟨R.ETH_RX_FCS_ERR, 31, 0⟩
abbrev R.ETH_RX_LEN_ERR : Nat := 0x100A0208
abbrev F.ETH_RX_LEN_ERR.COUNT : Fld := ⟨R.ETH_RX_LEN_ERR, 31, 0⟩
abbrev R.ETH_RX_CSUM_ERR : Nat := 0x100A020C
abbrev F.ETH_RX_CSUM_ERR.COUNT : Fld := ⟨R.ETH_RX_CSUM_ERR, 31, 0⟩
abbrev R.ETH_RX_FILTERED : Nat := 0x100A0210
abbrev F.ETH_RX_FILTERED.COUNT : Fld := ⟨R.ETH_RX_FILTERED, 31, 0⟩
abbrev R.ETH_TX_FRAMES : Nat := 0x100A0214
abbrev F.ETH_TX_FRAMES.COUNT : Fld := ⟨R.ETH_TX_FRAMES, 31, 0⟩
abbrev R.ETH_PAUSE_RX : Nat := 0x100A0218
abbrev F.ETH_PAUSE_RX.COUNT : Fld := ⟨R.ETH_PAUSE_RX, 31, 0⟩
abbrev R.ETH_PAUSE_TX : Nat := 0x100A021C
abbrev F.ETH_PAUSE_TX.COUNT : Fld := ⟨R.ETH_PAUSE_TX, 31, 0⟩
abbrev R.ETH_FEC_CORR : Nat := 0x100A0220
abbrev F.ETH_FEC_CORR.COUNT : Fld := ⟨R.ETH_FEC_CORR, 31, 0⟩
abbrev R.ETH_FEC_UNCORR : Nat := 0x100A0224
abbrev F.ETH_FEC_UNCORR.COUNT : Fld := ⟨R.ETH_FEC_UNCORR, 31, 0⟩
abbrev R.KCP_CFG : Nat := 0x100AC000
abbrev F.KCP_CFG.EN : Fld := ⟨R.KCP_CFG, 31, 31⟩
abbrev F.KCP_CFG.PORT : Fld := ⟨R.KCP_CFG, 15, 0⟩
abbrev R.KCP_OBJ_CTRL : Nat := 0x100AC010
abbrev F.KCP_OBJ_CTRL.EN : Fld := ⟨R.KCP_OBJ_CTRL, 31, 31⟩
abbrev F.KCP_OBJ_CTRL.RECS : Fld := ⟨R.KCP_OBJ_CTRL, 23, 16⟩
abbrev F.KCP_OBJ_CTRL.FLUSH_US : Fld := ⟨R.KCP_OBJ_CTRL, 15, 0⟩
abbrev R.KCP_OBJ_TMPL : Nat := 0x100AC014
abbrev F.KCP_OBJ_TMPL.SRAM : Fld := ⟨R.KCP_OBJ_TMPL, 20, 6⟩
abbrev R.KCP_OBJ_SEQ : Nat := 0x100AC018
abbrev F.KCP_OBJ_SEQ.V : Fld := ⟨R.KCP_OBJ_SEQ, 31, 0⟩
abbrev R.KCP_CAP_CTRL : Nat := 0x100AC020
abbrev F.KCP_CAP_CTRL.EN : Fld := ⟨R.KCP_CAP_CTRL, 31, 31⟩
abbrev F.KCP_CAP_CTRL.BUSY : Fld := ⟨R.KCP_CAP_CTRL, 30, 30⟩
abbrev R.KCP_CAP_TMPL : Nat := 0x100AC024
abbrev F.KCP_CAP_TMPL.SRAM : Fld := ⟨R.KCP_CAP_TMPL, 20, 6⟩
abbrev R.KCP_CAP_RATE : Nat := 0x100AC028
abbrev F.KCP_CAP_RATE.V : Fld := ⟨R.KCP_CAP_RATE, 6, 0⟩
abbrev R.KCP_OBJ_DGRAMS : Nat := 0x100AC040
abbrev F.KCP_OBJ_DGRAMS.V : Fld := ⟨R.KCP_OBJ_DGRAMS, 31, 0⟩
abbrev R.KCP_OBJ_RECS : Nat := 0x100AC044
abbrev F.KCP_OBJ_RECS.V : Fld := ⟨R.KCP_OBJ_RECS, 31, 0⟩
abbrev R.KCP_CAP_DGRAMS : Nat := 0x100AC048
abbrev F.KCP_CAP_DGRAMS.V : Fld := ⟨R.KCP_CAP_DGRAMS, 31, 0⟩
abbrev R.KCP_OBJ_DROP : Nat := 0x100AC04C
abbrev F.KCP_OBJ_DROP.V : Fld := ⟨R.KCP_OBJ_DROP, 31, 0⟩
abbrev R.ETH_TXQ_BASE_LO : Nat := 0x100A0180
abbrev F.ETH_TXQ_BASE_LO.V : Fld := ⟨R.ETH_TXQ_BASE_LO, 31, 12⟩
abbrev R.ETH_TXQ_BASE_HI : Nat := 0x100A0184
abbrev F.ETH_TXQ_BASE_HI.V : Fld := ⟨R.ETH_TXQ_BASE_HI, 7, 0⟩
abbrev R.ETH_TXQ_SIZE : Nat := 0x100A0188
abbrev F.ETH_TXQ_SIZE.SLOTS_LOG2 : Fld := ⟨R.ETH_TXQ_SIZE, 3, 0⟩
abbrev F.ETH_TXQ_SIZE.EN : Fld := ⟨R.ETH_TXQ_SIZE, 31, 31⟩
abbrev R.ETH_TXQ_HEAD : Nat := 0x100A018C
abbrev F.ETH_TXQ_HEAD.HEAD : Fld := ⟨R.ETH_TXQ_HEAD, 11, 0⟩
abbrev R.ETH_TXQ_TAIL : Nat := 0x100A0190
abbrev F.ETH_TXQ_TAIL.TAIL : Fld := ⟨R.ETH_TXQ_TAIL, 11, 0⟩

/-! ## 15_capture_coder.md -/

abbrev R.CAP_CTRL : Nat := 0x60100000
abbrev F.CAP_CTRL.EN : Fld := ⟨R.CAP_CTRL, 31, 31⟩
abbrev F.CAP_CTRL.STOP : Fld := ⟨R.CAP_CTRL, 30, 30⟩
abbrev F.CAP_CTRL.IDX_LOG2 : Fld := ⟨R.CAP_CTRL, 20, 16⟩
abbrev F.CAP_CTRL.DATA_LOG2 : Fld := ⟨R.CAP_CTRL, 12, 8⟩
abbrev R.CAP_FLAGS : Nat := 0x6010000C
abbrev F.CAP_FLAGS.SHED : Fld := ⟨R.CAP_FLAGS, 2, 2⟩
abbrev F.CAP_FLAGS.FULL : Fld := ⟨R.CAP_FLAGS, 1, 1⟩
abbrev F.CAP_FLAGS.DROP : Fld := ⟨R.CAP_FLAGS, 0, 0⟩
abbrev R.CAP_IRQ_EN : Nat := 0x60100010
abbrev F.CAP_IRQ_EN.EN : Fld := ⟨R.CAP_IRQ_EN, 2, 0⟩
abbrev R.CAP_STATUS : Nat := 0x60100008
abbrev F.CAP_STATUS.CODING : Fld := ⟨R.CAP_STATUS, 31, 31⟩
abbrev F.CAP_STATUS.PAUSED : Fld := ⟨R.CAP_STATUS, 30, 30⟩
abbrev F.CAP_STATUS.V : Fld := ⟨R.CAP_STATUS, 20, 0⟩
abbrev R.CAP_DATA_BASE_LO : Nat := 0x60100020
abbrev F.CAP_DATA_BASE_LO.V : Fld := ⟨R.CAP_DATA_BASE_LO, 31, 24⟩
abbrev R.CAP_DATA_BASE_HI : Nat := 0x60100024
abbrev F.CAP_DATA_BASE_HI.V : Fld := ⟨R.CAP_DATA_BASE_HI, 7, 0⟩
abbrev R.CAP_IDX_BASE_LO : Nat := 0x60100028
abbrev F.CAP_IDX_BASE_LO.V : Fld := ⟨R.CAP_IDX_BASE_LO, 31, 16⟩
abbrev R.CAP_IDX_BASE_HI : Nat := 0x6010002C
abbrev F.CAP_IDX_BASE_HI.V : Fld := ⟨R.CAP_IDX_BASE_HI, 7, 0⟩
abbrev R.CAP_WPOS_LO : Nat := 0x60100030
abbrev F.CAP_WPOS_LO.V : Fld := ⟨R.CAP_WPOS_LO, 31, 0⟩
abbrev R.CAP_WPOS_HI : Nat := 0x60100034
abbrev F.CAP_WPOS_HI.V : Fld := ⟨R.CAP_WPOS_HI, 31, 0⟩
abbrev R.CAP_IPOS_LO : Nat := 0x60100038
abbrev F.CAP_IPOS_LO.V : Fld := ⟨R.CAP_IPOS_LO, 31, 0⟩
abbrev R.CAP_IPOS_HI : Nat := 0x6010003C
abbrev F.CAP_IPOS_HI.V : Fld := ⟨R.CAP_IPOS_HI, 31, 0⟩
abbrev R.CAP_KEEP_LO : Nat := 0x60100040
abbrev F.CAP_KEEP_LO.V : Fld := ⟨R.CAP_KEEP_LO, 31, 0⟩
abbrev R.CAP_KEEP_HI : Nat := 0x60100044
abbrev F.CAP_KEEP_HI.V : Fld := ⟨R.CAP_KEEP_HI, 31, 0⟩
abbrev R.CAP_KEEP_IDX_LO : Nat := 0x60100048
abbrev F.CAP_KEEP_IDX_LO.V : Fld := ⟨R.CAP_KEEP_IDX_LO, 31, 0⟩
abbrev R.CAP_KEEP_IDX_HI : Nat := 0x6010004C
abbrev F.CAP_KEEP_IDX_HI.V : Fld := ⟨R.CAP_KEEP_IDX_HI, 31, 0⟩
abbrev R.CAP_BLOCKS : Nat := 0x60100050
abbrev F.CAP_BLOCKS.COUNT : Fld := ⟨R.CAP_BLOCKS, 31, 0⟩
abbrev R.CAP_RAW_BLOCKS : Nat := 0x60100054
abbrev F.CAP_RAW_BLOCKS.COUNT : Fld := ⟨R.CAP_RAW_BLOCKS, 31, 0⟩
abbrev R.CAP_BLK_DROP : Nat := 0x60100058
abbrev F.CAP_BLK_DROP.COUNT : Fld := ⟨R.CAP_BLK_DROP, 31, 0⟩
abbrev R.CAP_BLK_FULL : Nat := 0x6010005C
abbrev F.CAP_BLK_FULL.COUNT : Fld := ⟨R.CAP_BLK_FULL, 31, 0⟩
abbrev R.CAP_BLK_SHED : Nat := 0x60100060
abbrev F.CAP_BLK_SHED.COUNT : Fld := ⟨R.CAP_BLK_SHED, 31, 0⟩
abbrev R.CAP_GROUPS : Nat := 0x60100064
abbrev F.CAP_GROUPS.COUNT : Fld := ⟨R.CAP_GROUPS, 31, 0⟩
abbrev R.CAP_TRIGGERS : Nat := 0x60100068
abbrev F.CAP_TRIGGERS.COUNT : Fld := ⟨R.CAP_TRIGGERS, 31, 0⟩
abbrev R.CAP_Wk_CFG (k : Nat) : Nat := 0x60100100 + k * 0x20
abbrev F.CAP_Wk_CFG.TRIG (k : Nat) : Fld := ⟨R.CAP_Wk_CFG k, 31, 30⟩
abbrev F.CAP_Wk_CFG.VIEW (k : Nat) : Fld := ⟨R.CAP_Wk_CFG k, 29, 28⟩
abbrev F.CAP_Wk_CFG.BITS (k : Nat) : Fld := ⟨R.CAP_Wk_CFG k, 27, 26⟩
abbrev F.CAP_Wk_CFG.BANDS (k : Nat) : Fld := ⟨R.CAP_Wk_CFG k, 23, 16⟩
abbrev F.CAP_Wk_CFG.RILL (k : Nat) : Fld := ⟨R.CAP_Wk_CFG k, 8, 0⟩
abbrev R.CAP_Wk_X (k : Nat) : Nat := 0x60100104 + k * 0x20
abbrev F.CAP_Wk_X.X1 (k : Nat) : Fld := ⟨R.CAP_Wk_X k, 30, 16⟩
abbrev F.CAP_Wk_X.X0 (k : Nat) : Fld := ⟨R.CAP_Wk_X k, 14, 0⟩
abbrev R.CAP_Wk_START (k : Nat) : Nat := 0x60100108 + k * 0x20
abbrev F.CAP_Wk_START.START_LINE (k : Nat) : Fld := ⟨R.CAP_Wk_START k, 31, 0⟩
abbrev R.CAP_Wk_NBLK (k : Nat) : Nat := 0x6010010C + k * 0x20
abbrev F.CAP_Wk_NBLK.NBLK (k : Nat) : Fld := ⟨R.CAP_Wk_NBLK k, 15, 0⟩
abbrev R.CAP_Wk_STATE (k : Nat) : Nat := 0x60100110 + k * 0x20
abbrev F.CAP_Wk_STATE.ACTIVE (k : Nat) : Fld := ⟨R.CAP_Wk_STATE k, 31, 31⟩
abbrev F.CAP_Wk_STATE.V (k : Nat) : Fld := ⟨R.CAP_Wk_STATE k, 15, 0⟩

/-! ## 16_control_cores.md -/

abbrev R.CORE_MTIME_LO : Nat := 0x10040000
abbrev F.CORE_MTIME_LO.V : Fld := ⟨R.CORE_MTIME_LO, 31, 0⟩
abbrev R.CORE_MTIME_HI : Nat := 0x10040004
abbrev F.CORE_MTIME_HI.V : Fld := ⟨R.CORE_MTIME_HI, 31, 0⟩
abbrev R.CORE_BUSERR_ADDR_LO : Nat := 0x10040008
abbrev F.CORE_BUSERR_ADDR_LO.V : Fld := ⟨R.CORE_BUSERR_ADDR_LO, 31, 0⟩
abbrev R.CORE_BUSERR_ADDR_HI : Nat := 0x1004000C
abbrev F.CORE_BUSERR_ADDR_HI.V : Fld := ⟨R.CORE_BUSERR_ADDR_HI, 31, 0⟩
abbrev R.CORE_BUSERR_INFO : Nat := 0x10040010
abbrev F.CORE_BUSERR_INFO.VALID : Fld := ⟨R.CORE_BUSERR_INFO, 31, 31⟩
abbrev F.CORE_BUSERR_INFO.MASTER : Fld := ⟨R.CORE_BUSERR_INFO, 27, 24⟩
abbrev F.CORE_BUSERR_INFO.WRITE : Fld := ⟨R.CORE_BUSERR_INFO, 20, 20⟩
abbrev F.CORE_BUSERR_INFO.CAUSE : Fld := ⟨R.CORE_BUSERR_INFO, 19, 16⟩
abbrev R.CORE_DBG : Nat := 0x10040014
abbrev F.CORE_DBG.WDOG_HALT : Fld := ⟨R.CORE_DBG, 1, 1⟩
abbrev F.CORE_DBG.DBG_EN : Fld := ⟨R.CORE_DBG, 0, 0⟩
abbrev R.CORE_LOCK : Nat := 0x10040018
abbrev F.CORE_LOCK.LOCK : Fld := ⟨R.CORE_LOCK, 0, 0⟩
abbrev R.CORE_Cn_CTRL (n : Nat) : Nat := 0x10040100 + n * 0x40
abbrev F.CORE_Cn_CTRL.RESET (n : Nat) : Fld := ⟨R.CORE_Cn_CTRL n, 31, 31⟩
abbrev F.CORE_Cn_CTRL.RELEASE (n : Nat) : Fld := ⟨R.CORE_Cn_CTRL n, 30, 30⟩
abbrev R.CORE_Cn_STATUS (n : Nat) : Nat := 0x10040104 + n * 0x40
abbrev F.CORE_Cn_STATUS.RUNNING (n : Nat) : Fld := ⟨R.CORE_Cn_STATUS n, 31, 31⟩
abbrev F.CORE_Cn_STATUS.DEBUG_HALTED (n : Nat) : Fld := ⟨R.CORE_Cn_STATUS n, 30, 30⟩
abbrev F.CORE_Cn_STATUS.WDOG_EXPIRED (n : Nat) : Fld := ⟨R.CORE_Cn_STATUS n, 0, 0⟩
abbrev R.CORE_Cn_BOOT_LO (n : Nat) : Nat := 0x10040108 + n * 0x40
abbrev F.CORE_Cn_BOOT_LO.V (n : Nat) : Fld := ⟨R.CORE_Cn_BOOT_LO n, 31, 0⟩
abbrev R.CORE_Cn_BOOT_HI (n : Nat) : Nat := 0x1004010C + n * 0x40
abbrev F.CORE_Cn_BOOT_HI.V (n : Nat) : Fld := ⟨R.CORE_Cn_BOOT_HI n, 31, 0⟩
abbrev R.CORE_Cn_MTIMECMP_LO (n : Nat) : Nat := 0x10040110 + n * 0x40
abbrev F.CORE_Cn_MTIMECMP_LO.V (n : Nat) : Fld := ⟨R.CORE_Cn_MTIMECMP_LO n, 31, 0⟩
abbrev R.CORE_Cn_MTIMECMP_HI (n : Nat) : Nat := 0x10040114 + n * 0x40
abbrev F.CORE_Cn_MTIMECMP_HI.V (n : Nat) : Fld := ⟨R.CORE_Cn_MTIMECMP_HI n, 31, 0⟩
abbrev R.CORE_Cn_MSIP (n : Nat) : Nat := 0x10040118 + n * 0x40
abbrev F.CORE_Cn_MSIP.MSIP (n : Nat) : Fld := ⟨R.CORE_Cn_MSIP n, 0, 0⟩
abbrev R.CORE_Cn_WDOG (n : Nat) : Nat := 0x1004011C + n * 0x40
abbrev F.CORE_Cn_WDOG.EN (n : Nat) : Fld := ⟨R.CORE_Cn_WDOG n, 31, 31⟩
abbrev F.CORE_Cn_WDOG.TIMEOUT (n : Nat) : Fld := ⟨R.CORE_Cn_WDOG n, 23, 0⟩
abbrev R.CORE_Cn_KICK (n : Nat) : Nat := 0x10040120 + n * 0x40
abbrev F.CORE_Cn_KICK.V (n : Nat) : Fld := ⟨R.CORE_Cn_KICK n, 7, 0⟩
abbrev R.CORE_Cn_CMO_ADDR_LO (n : Nat) : Nat := 0x10040124 + n * 0x40
abbrev F.CORE_Cn_CMO_ADDR_LO.V (n : Nat) : Fld := ⟨R.CORE_Cn_CMO_ADDR_LO n, 31, 6⟩
abbrev R.CORE_Cn_CMO_ADDR_HI (n : Nat) : Nat := 0x10040128 + n * 0x40
abbrev F.CORE_Cn_CMO_ADDR_HI.V (n : Nat) : Fld := ⟨R.CORE_Cn_CMO_ADDR_HI n, 31, 0⟩
abbrev R.CORE_Cn_CMO (n : Nat) : Nat := 0x1004012C + n * 0x40
abbrev F.CORE_Cn_CMO.BUSY (n : Nat) : Fld := ⟨R.CORE_Cn_CMO n, 31, 31⟩
abbrev F.CORE_Cn_CMO.GO (n : Nat) : Fld := ⟨R.CORE_Cn_CMO n, 30, 30⟩
abbrev F.CORE_Cn_CMO.OP (n : Nat) : Fld := ⟨R.CORE_Cn_CMO n, 25, 24⟩
abbrev F.CORE_Cn_CMO.LINES (n : Nat) : Fld := ⟨R.CORE_Cn_CMO n, 19, 0⟩
abbrev R.MBX_LOCK : Nat := 0x10050000
abbrev F.MBX_LOCK.LOCK : Fld := ⟨R.MBX_LOCK, 0, 0⟩
abbrev R.MBX_FULL : Nat := 0x10050004
abbrev F.MBX_FULL.V : Fld := ⟨R.MBX_FULL, 31, 0⟩
abbrev R.MBX_IRQ_EN : Nat := 0x10050008
abbrev F.MBX_IRQ_EN.V : Fld := ⟨R.MBX_IRQ_EN, 31, 0⟩
abbrev R.MBXk_BIND (k : Nat) : Nat := 0x10050100 + k * 0x10
abbrev F.MBXk_BIND.EN (k : Nat) : Fld := ⟨R.MBXk_BIND k, 31, 31⟩
abbrev F.MBXk_BIND.RECEIVER (k : Nat) : Fld := ⟨R.MBXk_BIND k, 11, 8⟩
abbrev F.MBXk_BIND.SENDER (k : Nat) : Fld := ⟨R.MBXk_BIND k, 3, 0⟩
abbrev R.MBXk_DATA (k : Nat) : Nat := 0x10050104 + k * 0x10
abbrev F.MBXk_DATA.WORD (k : Nat) : Fld := ⟨R.MBXk_DATA k, 31, 0⟩
abbrev R.MBXk_STATUS (k : Nat) : Nat := 0x10050108 + k * 0x10
abbrev F.MBXk_STATUS.FULL (k : Nat) : Fld := ⟨R.MBXk_STATUS k, 31, 31⟩
abbrev F.MBXk_STATUS.EMPTY_RD (k : Nat) : Fld := ⟨R.MBXk_STATUS k, 4, 4⟩
abbrev F.MBXk_STATUS.BIND_ERR (k : Nat) : Fld := ⟨R.MBXk_STATUS k, 3, 3⟩
abbrev F.MBXk_STATUS.SENDER_RESET (k : Nat) : Fld := ⟨R.MBXk_STATUS k, 2, 2⟩
abbrev F.MBXk_STATUS.STALE (k : Nat) : Fld := ⟨R.MBXk_STATUS k, 1, 1⟩
abbrev F.MBXk_STATUS.COLLISION (k : Nat) : Fld := ⟨R.MBXk_STATUS k, 0, 0⟩
abbrev R.MBXk_COLLISIONS (k : Nat) : Nat := 0x1005010C + k * 0x10
abbrev F.MBXk_COLLISIONS.COUNT (k : Nat) : Fld := ⟨R.MBXk_COLLISIONS k, 31, 0⟩
abbrev R.LCKk (k : Nat) : Nat := 0x10060000 + k * 0x4
abbrev F.LCKk.VALUE (k : Nat) : Fld := ⟨R.LCKk k, 31, 0⟩
abbrev R.LCK_OWNED_LO : Nat := 0x10060100
abbrev F.LCK_OWNED_LO.V : Fld := ⟨R.LCK_OWNED_LO, 31, 0⟩
abbrev R.LCK_OWNED_HI : Nat := 0x10060104
abbrev F.LCK_OWNED_HI.V : Fld := ⟨R.LCK_OWNED_HI, 31, 0⟩
abbrev R.LCK_FORCE_LO : Nat := 0x10060108
abbrev F.LCK_FORCE_LO.V : Fld := ⟨R.LCK_FORCE_LO, 31, 0⟩
abbrev R.LCK_FORCE_HI : Nat := 0x1006010C
abbrev F.LCK_FORCE_HI.V : Fld := ⟨R.LCK_FORCE_HI, 31, 0⟩
abbrev R.LCK_REL_ERR : Nat := 0x10060114
abbrev F.LCK_REL_ERR.V : Fld := ⟨R.LCK_REL_ERR, 31, 0⟩
abbrev R.LCK_PEEKk (k : Nat) : Nat := 0x10060200 + k * 0x4
abbrev F.LCK_PEEKk.V (k : Nat) : Fld := ⟨R.LCK_PEEKk k, 31, 0⟩
abbrev R.LCK_FLAGS : Nat := 0x10060110
abbrev F.LCK_FLAGS.RESET_REL : Fld := ⟨R.LCK_FLAGS, 2, 2⟩
abbrev F.LCK_FLAGS.FORCED : Fld := ⟨R.LCK_FLAGS, 1, 1⟩
abbrev F.LCK_FLAGS.REL_ERR : Fld := ⟨R.LCK_FLAGS, 0, 0⟩

/-! ## 17_dma_crc.md -/

abbrev R.DMA_PENDING : Nat := 0x10070000
abbrev F.DMA_PENDING.CH : Fld := ⟨R.DMA_PENDING, 15, 0⟩
abbrev R.DMAc_CTRL (c : Nat) : Nat := 0x10070100 + c * 0x80
abbrev F.DMAc_CTRL.PAUSE (c : Nat) : Fld := ⟨R.DMAc_CTRL c, 2, 2⟩
abbrev F.DMAc_CTRL.ABORT (c : Nat) : Fld := ⟨R.DMAc_CTRL c, 1, 1⟩
abbrev F.DMAc_CTRL.START (c : Nat) : Fld := ⟨R.DMAc_CTRL c, 0, 0⟩
abbrev R.DMAc_STATUS (c : Nat) : Nat := 0x10070104 + c * 0x80
abbrev F.DMAc_STATUS.SHADOW_VALID (c : Nat) : Fld := ⟨R.DMAc_STATUS c, 31, 31⟩
abbrev F.DMAc_STATUS.STATE (c : Nat) : Fld := ⟨R.DMAc_STATUS c, 3, 0⟩
abbrev R.DMAc_FLAGS (c : Nat) : Nat := 0x10070108 + c * 0x80
abbrev F.DMAc_FLAGS.TRIG_MISS (c : Nat) : Fld := ⟨R.DMAc_FLAGS c, 8, 8⟩
abbrev F.DMAc_FLAGS.DOMAIN_PAUSE (c : Nat) : Fld := ⟨R.DMAc_FLAGS c, 7, 7⟩
abbrev F.DMAc_FLAGS.DOMAIN_DOWN (c : Nat) : Fld := ⟨R.DMAc_FLAGS c, 6, 6⟩
abbrev F.DMAc_FLAGS.ABORTED (c : Nat) : Fld := ⟨R.DMAc_FLAGS c, 5, 5⟩
abbrev F.DMAc_FLAGS.BUS_ERR (c : Nat) : Fld := ⟨R.DMAc_FLAGS c, 4, 4⟩
abbrev F.DMAc_FLAGS.CFG_REJ (c : Nat) : Fld := ⟨R.DMAc_FLAGS c, 3, 3⟩
abbrev F.DMAc_FLAGS.SHADOW_REJ (c : Nat) : Fld := ⟨R.DMAc_FLAGS c, 2, 2⟩
abbrev F.DMAc_FLAGS.HANDOVER (c : Nat) : Fld := ⟨R.DMAc_FLAGS c, 1, 1⟩
abbrev F.DMAc_FLAGS.DONE (c : Nat) : Fld := ⟨R.DMAc_FLAGS c, 0, 0⟩
abbrev R.DMAc_IRQ_EN (c : Nat) : Nat := 0x1007010C + c * 0x80
abbrev F.DMAc_IRQ_EN.EN (c : Nat) : Fld := ⟨R.DMAc_IRQ_EN c, 8, 0⟩
abbrev R.DMAc_CFG (c : Nat) : Nat := 0x10070124 + c * 0x80
abbrev F.DMAc_CFG.BARRIER (c : Nat) : Fld := ⟨R.DMAc_CFG c, 31, 31⟩
abbrev F.DMAc_CFG.CSUM (c : Nat) : Fld := ⟨R.DMAc_CFG c, 30, 29⟩
abbrev F.DMAc_CFG.CSUM_WR (c : Nat) : Fld := ⟨R.DMAc_CFG c, 28, 28⟩
abbrev F.DMAc_CFG.CSUM_CHAIN (c : Nat) : Fld := ⟨R.DMAc_CFG c, 27, 27⟩
abbrev F.DMAc_CFG.PRIO (c : Nat) : Fld := ⟨R.DMAc_CFG c, 26, 26⟩
abbrev F.DMAc_CFG.ESIZE (c : Nat) : Fld := ⟨R.DMAc_CFG c, 25, 24⟩
abbrev F.DMAc_CFG.DST_FIX (c : Nat) : Fld := ⟨R.DMAc_CFG c, 17, 17⟩
abbrev F.DMAc_CFG.SRC_FIX (c : Nat) : Fld := ⟨R.DMAc_CFG c, 16, 16⟩
abbrev F.DMAc_CFG.TRIG_EN (c : Nat) : Fld := ⟨R.DMAc_CFG c, 15, 15⟩
abbrev F.DMAc_CFG.TRIG_RILL (c : Nat) : Fld := ⟨R.DMAc_CFG c, 8, 0⟩
abbrev R.DMAc_SRC_LO (c : Nat) : Nat := 0x10070110 + c * 0x80
abbrev F.DMAc_SRC_LO.V (c : Nat) : Fld := ⟨R.DMAc_SRC_LO c, 31, 0⟩
abbrev R.DMAc_SRC_HI (c : Nat) : Nat := 0x10070114 + c * 0x80
abbrev F.DMAc_SRC_HI.V (c : Nat) : Fld := ⟨R.DMAc_SRC_HI c, 31, 0⟩
abbrev R.DMAc_DST_LO (c : Nat) : Nat := 0x10070118 + c * 0x80
abbrev F.DMAc_DST_LO.DST (c : Nat) : Fld := ⟨R.DMAc_DST_LO c, 31, 0⟩
abbrev R.DMAc_DST_HI (c : Nat) : Nat := 0x1007011C + c * 0x80
abbrev F.DMAc_DST_HI.DST (c : Nat) : Fld := ⟨R.DMAc_DST_HI c, 31, 0⟩
abbrev R.DMAc_LEN (c : Nat) : Nat := 0x10070120 + c * 0x80
abbrev F.DMAc_LEN.V (c : Nat) : Fld := ⟨R.DMAc_LEN c, 31, 0⟩
abbrev R.DMAc_CSUM (c : Nat) : Nat := 0x10070128 + c * 0x80
abbrev F.DMAc_CSUM.V (c : Nat) : Fld := ⟨R.DMAc_CSUM c, 31, 0⟩
abbrev R.DMAc_XFERS (c : Nat) : Nat := 0x1007012C + c * 0x80
abbrev F.DMAc_XFERS.V (c : Nat) : Fld := ⟨R.DMAc_XFERS c, 31, 0⟩
abbrev R.DMAc_ERR_ADDR_LO (c : Nat) : Nat := 0x10070130 + c * 0x80
abbrev F.DMAc_ERR_ADDR_LO.V (c : Nat) : Fld := ⟨R.DMAc_ERR_ADDR_LO c, 31, 0⟩
abbrev R.DMAc_ERR_ADDR_HI (c : Nat) : Nat := 0x10070134 + c * 0x80
abbrev F.DMAc_ERR_ADDR_HI.V (c : Nat) : Fld := ⟨R.DMAc_ERR_ADDR_HI c, 31, 0⟩
abbrev R.DMAc_SH_SRC_LO (c : Nat) : Nat := 0x10070140 + c * 0x80
abbrev F.DMAc_SH_SRC_LO.V (c : Nat) : Fld := ⟨R.DMAc_SH_SRC_LO c, 31, 0⟩
abbrev R.DMAc_SH_SRC_HI (c : Nat) : Nat := 0x10070144 + c * 0x80
abbrev F.DMAc_SH_SRC_HI.V (c : Nat) : Fld := ⟨R.DMAc_SH_SRC_HI c, 31, 0⟩
abbrev R.DMAc_SH_DST_LO (c : Nat) : Nat := 0x10070148 + c * 0x80
abbrev F.DMAc_SH_DST_LO.V (c : Nat) : Fld := ⟨R.DMAc_SH_DST_LO c, 31, 0⟩
abbrev R.DMAc_SH_DST_HI (c : Nat) : Nat := 0x1007014C + c * 0x80
abbrev F.DMAc_SH_DST_HI.V (c : Nat) : Fld := ⟨R.DMAc_SH_DST_HI c, 31, 0⟩
abbrev R.DMAc_SH_LEN (c : Nat) : Nat := 0x10070150 + c * 0x80
abbrev F.DMAc_SH_LEN.V (c : Nat) : Fld := ⟨R.DMAc_SH_LEN c, 31, 0⟩
abbrev R.DMAc_SH_CTRL (c : Nat) : Nat := 0x10070158 + c * 0x80
abbrev F.DMAc_SH_CTRL.ARM (c : Nat) : Fld := ⟨R.DMAc_SH_CTRL c, 0, 0⟩
abbrev R.DMAc_ERR_INFO (c : Nat) : Nat := 0x10070138 + c * 0x80
abbrev F.DMAc_ERR_INFO.VALID (c : Nat) : Fld := ⟨R.DMAc_ERR_INFO c, 31, 31⟩
abbrev F.DMAc_ERR_INFO.WRITE (c : Nat) : Fld := ⟨R.DMAc_ERR_INFO c, 30, 30⟩
abbrev F.DMAc_ERR_INFO.CAUSE (c : Nat) : Fld := ⟨R.DMAc_ERR_INFO c, 25, 24⟩
abbrev R.CRC_FLAGS : Nat := 0x10080000
abbrev F.CRC_FLAGS.CFG_REJ : Fld := ⟨R.CRC_FLAGS, 31, 31⟩
abbrev F.CRC_FLAGS.SNOOP_ERR : Fld := ⟨R.CRC_FLAGS, 19, 0⟩
abbrev R.CRC_IRQ_EN : Nat := 0x10080004
abbrev F.CRC_IRQ_EN.EN_CFG : Fld := ⟨R.CRC_IRQ_EN, 31, 31⟩
abbrev F.CRC_IRQ_EN.EN_SNOOP : Fld := ⟨R.CRC_IRQ_EN, 19, 0⟩
abbrev R.CRCu_CFG (u : Nat) : Nat := 0x10080100 + u * 0x80
abbrev F.CRCu_CFG.REFOUT (u : Nat) : Fld := ⟨R.CRCu_CFG u, 31, 31⟩
abbrev F.CRCu_CFG.REFIN (u : Nat) : Fld := ⟨R.CRCu_CFG u, 30, 30⟩
abbrev F.CRCu_CFG.PFX_LEN (u : Nat) : Fld := ⟨R.CRCu_CFG u, 29, 27⟩
abbrev F.CRCu_CFG.AUTO_INC (u : Nat) : Fld := ⟨R.CRCu_CFG u, 26, 26⟩
abbrev F.CRCu_CFG.WIDTH_M1 (u : Nat) : Fld := ⟨R.CRCu_CFG u, 5, 0⟩
abbrev R.CRCu_POLY_LO (u : Nat) : Nat := 0x10080104 + u * 0x80
abbrev F.CRCu_POLY_LO.V (u : Nat) : Fld := ⟨R.CRCu_POLY_LO u, 31, 0⟩
abbrev R.CRCu_POLY_HI (u : Nat) : Nat := 0x10080108 + u * 0x80
abbrev F.CRCu_POLY_HI.V (u : Nat) : Fld := ⟨R.CRCu_POLY_HI u, 31, 0⟩
abbrev R.CRCu_INIT_LO (u : Nat) : Nat := 0x1008010C + u * 0x80
abbrev F.CRCu_INIT_LO.V (u : Nat) : Fld := ⟨R.CRCu_INIT_LO u, 31, 0⟩
abbrev R.CRCu_INIT_HI (u : Nat) : Nat := 0x10080110 + u * 0x80
abbrev F.CRCu_INIT_HI.V (u : Nat) : Fld := ⟨R.CRCu_INIT_HI u, 31, 0⟩
abbrev R.CRCu_XOR_LO (u : Nat) : Nat := 0x10080114 + u * 0x80
abbrev F.CRCu_XOR_LO.V (u : Nat) : Fld := ⟨R.CRCu_XOR_LO u, 31, 0⟩
abbrev R.CRCu_XOR_HI (u : Nat) : Nat := 0x10080118 + u * 0x80
abbrev F.CRCu_XOR_HI.V (u : Nat) : Fld := ⟨R.CRCu_XOR_HI u, 31, 0⟩
abbrev R.CRCu_STATE_LO (u : Nat) : Nat := 0x1008011C + u * 0x80
abbrev F.CRCu_STATE_LO.V (u : Nat) : Fld := ⟨R.CRCu_STATE_LO u, 31, 0⟩
abbrev R.CRCu_STATE_HI (u : Nat) : Nat := 0x10080120 + u * 0x80
abbrev F.CRCu_STATE_HI.V (u : Nat) : Fld := ⟨R.CRCu_STATE_HI u, 31, 0⟩
abbrev R.CRCu_RESULT_LO (u : Nat) : Nat := 0x10080124 + u * 0x80
abbrev F.CRCu_RESULT_LO.V (u : Nat) : Fld := ⟨R.CRCu_RESULT_LO u, 31, 0⟩
abbrev R.CRCu_RESULT_HI (u : Nat) : Nat := 0x10080128 + u * 0x80
abbrev F.CRCu_RESULT_HI.V (u : Nat) : Fld := ⟨R.CRCu_RESULT_HI u, 31, 0⟩
abbrev R.CRCu_PREFIX_LO (u : Nat) : Nat := 0x1008012C + u * 0x80
abbrev F.CRCu_PREFIX_LO.V (u : Nat) : Fld := ⟨R.CRCu_PREFIX_LO u, 31, 0⟩
abbrev R.CRCu_PREFIX_HI (u : Nat) : Nat := 0x10080130 + u * 0x80
abbrev F.CRCu_PREFIX_HI.V (u : Nat) : Fld := ⟨R.CRCu_PREFIX_HI u, 31, 0⟩
abbrev R.CRCu_CTRL (u : Nat) : Nat := 0x10080134 + u * 0x80
abbrev F.CRCu_CTRL.START (u : Nat) : Fld := ⟨R.CRCu_CTRL u, 0, 0⟩
abbrev R.CRCu_DATA8 (u : Nat) : Nat := 0x10080138 + u * 0x80
abbrev F.CRCu_DATA8.V (u : Nat) : Fld := ⟨R.CRCu_DATA8 u, 7, 0⟩
abbrev R.CRCu_DATA16 (u : Nat) : Nat := 0x1008013C + u * 0x80
abbrev F.CRCu_DATA16.V (u : Nat) : Fld := ⟨R.CRCu_DATA16 u, 15, 0⟩
abbrev R.CRCu_DATA32 (u : Nat) : Nat := 0x10080140 + u * 0x80
abbrev F.CRCu_DATA32.V (u : Nat) : Fld := ⟨R.CRCu_DATA32 u, 31, 0⟩
abbrev R.DMAc_SH_CFG (c : Nat) : Nat := 0x10070154 + c * 0x80
abbrev F.DMAc_SH_CFG.BARRIER (c : Nat) : Fld := ⟨R.DMAc_SH_CFG c, 31, 31⟩
abbrev F.DMAc_SH_CFG.CSUM (c : Nat) : Fld := ⟨R.DMAc_SH_CFG c, 30, 29⟩
abbrev F.DMAc_SH_CFG.CSUM_WR (c : Nat) : Fld := ⟨R.DMAc_SH_CFG c, 28, 28⟩
abbrev F.DMAc_SH_CFG.CSUM_CHAIN (c : Nat) : Fld := ⟨R.DMAc_SH_CFG c, 27, 27⟩
abbrev F.DMAc_SH_CFG.PRIO (c : Nat) : Fld := ⟨R.DMAc_SH_CFG c, 26, 26⟩
abbrev F.DMAc_SH_CFG.ESIZE (c : Nat) : Fld := ⟨R.DMAc_SH_CFG c, 25, 24⟩
abbrev F.DMAc_SH_CFG.DST_FIX (c : Nat) : Fld := ⟨R.DMAc_SH_CFG c, 17, 17⟩
abbrev F.DMAc_SH_CFG.SRC_FIX (c : Nat) : Fld := ⟨R.DMAc_SH_CFG c, 16, 16⟩
abbrev F.DMAc_SH_CFG.TRIG_EN (c : Nat) : Fld := ⟨R.DMAc_SH_CFG c, 15, 15⟩
abbrev F.DMAc_SH_CFG.TRIG_RILL (c : Nat) : Fld := ⟨R.DMAc_SH_CFG c, 8, 0⟩
abbrev R.CRC_SNOOP_ERRk (k : Nat) : Nat := 0x10080800 + k * 0x4
abbrev F.CRC_SNOOP_ERRk.COUNT (k : Nat) : Fld := ⟨R.CRC_SNOOP_ERRk k, 31, 0⟩

/-! ## 18_event_rills.md -/

abbrev R.EVT_FIRE : Nat := 0x10090000
abbrev F.EVT_FIRE.RILL : Fld := ⟨R.EVT_FIRE, 8, 0⟩
abbrev R.EVT_FLAGS : Nat := 0x10090004
abbrev F.EVT_FLAGS.TRIP : Fld := ⟨R.EVT_FLAGS, 2, 2⟩
abbrev F.EVT_FLAGS.FIRE_REJ : Fld := ⟨R.EVT_FLAGS, 1, 1⟩
abbrev F.EVT_FLAGS.COALESCE : Fld := ⟨R.EVT_FLAGS, 0, 0⟩
abbrev R.EVT_IRQ_EN : Nat := 0x10090008
abbrev F.EVT_IRQ_EN.EN : Fld := ⟨R.EVT_IRQ_EN, 2, 0⟩
abbrev R.EVT_COAL : Nat := 0x1009000C
abbrev F.EVT_COAL.V : Fld := ⟨R.EVT_COAL, 31, 0⟩
abbrev R.EVT_TRIPPED_LO : Nat := 0x10090010
abbrev F.EVT_TRIPPED_LO.V : Fld := ⟨R.EVT_TRIPPED_LO, 31, 0⟩
abbrev R.EVT_TRIPPED_HI : Nat := 0x10090014
abbrev F.EVT_TRIPPED_HI.V : Fld := ⟨R.EVT_TRIPPED_HI, 31, 0⟩
abbrev R.EVT_REARM_LO : Nat := 0x10090018
abbrev F.EVT_REARM_LO.V : Fld := ⟨R.EVT_REARM_LO, 31, 0⟩
abbrev R.EVT_REARM_HI : Nat := 0x1009001C
abbrev F.EVT_REARM_HI.V : Fld := ⟨R.EVT_REARM_HI, 31, 0⟩
abbrev R.EVT_RI_PEND : Nat := 0x10090020
abbrev F.EVT_RI_PEND.V : Fld := ⟨R.EVT_RI_PEND, 23, 0⟩
abbrev R.EVT_RIj_EN (j : Nat) : Nat := 0x10090100 + j * 0x4
abbrev F.EVT_RIj_EN.V (j : Nat) : Fld := ⟨R.EVT_RIj_EN j, 15, 0⟩
abbrev R.EVT_Ck_CFG (k : Nat) : Nat := 0x10090200 + k * 0x10
abbrev F.EVT_Ck_CFG.EN (k : Nat) : Fld := ⟨R.EVT_Ck_CFG k, 31, 31⟩
abbrev F.EVT_Ck_CFG.FF (k : Nat) : Fld := ⟨R.EVT_Ck_CFG k, 30, 30⟩
abbrev F.EVT_Ck_CFG.OUT (k : Nat) : Fld := ⟨R.EVT_Ck_CFG k, 29, 29⟩
abbrev F.EVT_Ck_CFG.FILT (k : Nat) : Fld := ⟨R.EVT_Ck_CFG k, 23, 16⟩
abbrev F.EVT_Ck_CFG.LUT (k : Nat) : Fld := ⟨R.EVT_Ck_CFG k, 15, 0⟩
abbrev R.EVT_Ck_IN01 (k : Nat) : Nat := 0x10090204 + k * 0x10
abbrev F.EVT_Ck_IN01.MODE1 (k : Nat) : Fld := ⟨R.EVT_Ck_IN01 k, 25, 25⟩
abbrev F.EVT_Ck_IN01.SEL1 (k : Nat) : Fld := ⟨R.EVT_Ck_IN01 k, 24, 16⟩
abbrev F.EVT_Ck_IN01.MODE0 (k : Nat) : Fld := ⟨R.EVT_Ck_IN01 k, 9, 9⟩
abbrev F.EVT_Ck_IN01.SEL0 (k : Nat) : Fld := ⟨R.EVT_Ck_IN01 k, 8, 0⟩
abbrev R.EVT_Ck_IN23 (k : Nat) : Nat := 0x10090208 + k * 0x10
abbrev F.EVT_Ck_IN23.MODE3 (k : Nat) : Fld := ⟨R.EVT_Ck_IN23 k, 25, 25⟩
abbrev F.EVT_Ck_IN23.SEL3 (k : Nat) : Fld := ⟨R.EVT_Ck_IN23 k, 24, 16⟩
abbrev F.EVT_Ck_IN23.MODE2 (k : Nat) : Fld := ⟨R.EVT_Ck_IN23 k, 9, 9⟩
abbrev F.EVT_Ck_IN23.SEL2 (k : Nat) : Fld := ⟨R.EVT_Ck_IN23 k, 8, 0⟩
abbrev R.EVT_Ck_RATE (k : Nat) : Nat := 0x1009020C + k * 0x10
abbrev F.EVT_Ck_RATE.RATE_MAX (k : Nat) : Fld := ⟨R.EVT_Ck_RATE k, 7, 0⟩

/-! ## 19_startup_sluice.md -/

abbrev R.SLU_STATE : Nat := 0x10010000
abbrev F.SLU_STATE.SEQ : Fld := ⟨R.SLU_STATE, 31, 16⟩
abbrev F.SLU_STATE.OWNER : Fld := ⟨R.SLU_STATE, 9, 8⟩
abbrev F.SLU_STATE.STATE : Fld := ⟨R.SLU_STATE, 3, 0⟩
abbrev R.SLU_APPLY_LINE : Nat := 0x10010004
abbrev F.SLU_APPLY_LINE.A : Fld := ⟨R.SLU_APPLY_LINE, 31, 0⟩
abbrev R.SLU_CMD : Nat := 0x10010008
abbrev F.SLU_CMD.CHECK_ONLY : Fld := ⟨R.SLU_CMD, 2, 2⟩
abbrev F.SLU_CMD.CANCEL : Fld := ⟨R.SLU_CMD, 1, 1⟩
abbrev F.SLU_CMD.COMMIT : Fld := ⟨R.SLU_CMD, 0, 0⟩
abbrev R.SLU_CFG : Nat := 0x1001000C
abbrev F.SLU_CFG.FW_EN : Fld := ⟨R.SLU_CFG, 0, 0⟩
abbrev R.SLU_RESULT : Nat := 0x10010010
abbrev F.SLU_RESULT.INDEX : Fld := ⟨R.SLU_RESULT, 31, 16⟩
abbrev F.SLU_RESULT.ITEM : Fld := ⟨R.SLU_RESULT, 15, 8⟩
abbrev F.SLU_RESULT.CODE : Fld := ⟨R.SLU_RESULT, 7, 0⟩
abbrev R.SLU_FW_VERDICT : Nat := 0x10010014
abbrev F.SLU_FW_VERDICT.INDEX : Fld := ⟨R.SLU_FW_VERDICT, 31, 16⟩
abbrev F.SLU_FW_VERDICT.ITEM : Fld := ⟨R.SLU_FW_VERDICT, 15, 8⟩
abbrev F.SLU_FW_VERDICT.VERDICT : Fld := ⟨R.SLU_FW_VERDICT, 7, 0⟩
abbrev R.SLU_FLAGS : Nat := 0x10010018
abbrev F.SLU_FLAGS.CHAIN_SPLIT : Fld := ⟨R.SLU_FLAGS, 5, 5⟩
abbrev F.SLU_FLAGS.FW_REQ : Fld := ⟨R.SLU_FLAGS, 4, 4⟩
abbrev F.SLU_FLAGS.CANCEL_REJ : Fld := ⟨R.SLU_FLAGS, 3, 3⟩
abbrev F.SLU_FLAGS.STAGE_REJ : Fld := ⟨R.SLU_FLAGS, 2, 2⟩
abbrev F.SLU_FLAGS.REFUSED : Fld := ⟨R.SLU_FLAGS, 1, 1⟩
abbrev F.SLU_FLAGS.APPLIED : Fld := ⟨R.SLU_FLAGS, 0, 0⟩
abbrev R.SLU_IRQ_EN : Nat := 0x1001001C
abbrev F.SLU_IRQ_EN.EN : Fld := ⟨R.SLU_IRQ_EN, 5, 0⟩
abbrev R.SLU_LIVE_LINE : Nat := 0x10010020
abbrev F.SLU_LIVE_LINE.V : Fld := ⟨R.SLU_LIVE_LINE, 31, 0⟩
abbrev R.SLU_ARMED_LINE : Nat := 0x10010024
abbrev F.SLU_ARMED_LINE.V : Fld := ⟨R.SLU_ARMED_LINE, 31, 0⟩
abbrev R.SLU_CHECK_US : Nat := 0x10010028
abbrev F.SLU_CHECK_US.FW : Fld := ⟨R.SLU_CHECK_US, 31, 16⟩
abbrev F.SLU_CHECK_US.HW : Fld := ⟨R.SLU_CHECK_US, 15, 0⟩
abbrev R.SLU_INDEX : Nat := 0x1001002C
abbrev F.SLU_INDEX.INDEX : Fld := ⟨R.SLU_INDEX, 31, 0⟩
abbrev R.SLU_COMMITS : Nat := 0x10010030
abbrev F.SLU_COMMITS.COMMIT : Fld := ⟨R.SLU_COMMITS, 31, 0⟩
abbrev R.SLU_APPLIES : Nat := 0x10010034
abbrev F.SLU_APPLIES.V : Fld := ⟨R.SLU_APPLIES, 31, 0⟩
abbrev R.SLU_REFUSALS : Nat := 0x10010038
abbrev F.SLU_REFUSALS.V : Fld := ⟨R.SLU_REFUSALS, 31, 0⟩
abbrev R.SLU_STAGE_REJ : Nat := 0x1001003C
abbrev F.SLU_STAGE_REJ.V : Fld := ⟨R.SLU_STAGE_REJ, 31, 0⟩
abbrev R.SLU_CANCELS : Nat := 0x10010040
abbrev F.SLU_CANCELS.V : Fld := ⟨R.SLU_CANCELS, 31, 0⟩
abbrev R.CHIP_ID : Nat := 0x10000000
abbrev F.CHIP_ID.PART : Fld := ⟨R.CHIP_ID, 31, 16⟩
abbrev F.CHIP_ID.LEVEL_MAX : Fld := ⟨R.CHIP_ID, 15, 8⟩
abbrev F.CHIP_ID.STEPPING : Fld := ⟨R.CHIP_ID, 7, 0⟩
abbrev R.CHIP_LEVEL : Nat := 0x10000004
abbrev F.CHIP_LEVEL.LEVEL : Fld := ⟨R.CHIP_LEVEL, 7, 0⟩
abbrev R.CHIP_STRAP : Nat := 0x10000008
abbrev F.CHIP_STRAP.KEY_SET : Fld := ⟨R.CHIP_STRAP, 9, 9⟩
abbrev F.CHIP_STRAP.EP : Fld := ⟨R.CHIP_STRAP, 8, 8⟩
abbrev F.CHIP_STRAP.BOOT_MODE : Fld := ⟨R.CHIP_STRAP, 1, 0⟩
abbrev R.CHIP_BOOT : Nat := 0x1000000C
abbrev F.CHIP_BOOT.DONE : Fld := ⟨R.CHIP_BOOT, 31, 31⟩
abbrev F.CHIP_BOOT.FAIL : Fld := ⟨R.CHIP_BOOT, 30, 30⟩
abbrev F.CHIP_BOOT.STAGE : Fld := ⟨R.CHIP_BOOT, 15, 8⟩
abbrev F.CHIP_BOOT.CODE : Fld := ⟨R.CHIP_BOOT, 7, 0⟩
abbrev R.CHIP_BUILD_ID : Nat := 0x10000010
abbrev F.CHIP_BUILD_ID.BUILD_ID : Fld := ⟨R.CHIP_BUILD_ID, 31, 0⟩
abbrev R.CHIP_HDR_CRC : Nat := 0x10000014
abbrev F.CHIP_HDR_CRC.HDR_CRC : Fld := ⟨R.CHIP_HDR_CRC, 31, 0⟩
abbrev R.CHIP_BOOT_US : Nat := 0x10000018
abbrev F.CHIP_BOOT_US.V : Fld := ⟨R.CHIP_BOOT_US, 31, 0⟩
abbrev R.CHIP_PINS : Nat := 0x1000001C
abbrev F.CHIP_PINS.FAULT_N : Fld := ⟨R.CHIP_PINS, 2, 2⟩
abbrev F.CHIP_PINS.SAFE_N : Fld := ⟨R.CHIP_PINS, 1, 1⟩
abbrev F.CHIP_PINS.READY : Fld := ⟨R.CHIP_PINS, 0, 0⟩
abbrev R.CHIP_KEYHASHw (w : Nat) : Nat := 0x10000040 + w * 0x4
abbrev F.CHIP_KEYHASHw.V (w : Nat) : Fld := ⟨R.CHIP_KEYHASHw w, 31, 0⟩

/-! ## 20_reservoir_weir.md -/

abbrev R.RSV_LIMIT : Nat := 0x10020000
abbrev F.RSV_LIMIT.LIMIT : Fld := ⟨R.RSV_LIMIT, 15, 0⟩
abbrev R.RSV_TCASE : Nat := 0x10020004
abbrev F.RSV_TCASE.T_CASE : Fld := ⟨R.RSV_TCASE, 7, 0⟩
abbrev R.RSV_DECL : Nat := 0x10020008
abbrev F.RSV_DECL.LEAK : Fld := ⟨R.RSV_DECL, 31, 16⟩
abbrev F.RSV_DECL.P_RT : Fld := ⟨R.RSV_DECL, 15, 0⟩
abbrev R.RSV_WEIR : Nat := 0x1002000C
abbrev F.RSV_WEIR.WEIR_G : Fld := ⟨R.RSV_WEIR, 8, 0⟩
abbrev R.RSV_PLAN : Nat := 0x10020014
abbrev F.RSV_PLAN.GO : Fld := ⟨R.RSV_PLAN, 31, 31⟩
abbrev F.RSV_PLAN.CAL : Fld := ⟨R.RSV_PLAN, 17, 17⟩
abbrev F.RSV_PLAN.CAPT : Fld := ⟨R.RSV_PLAN, 16, 16⟩
abbrev F.RSV_PLAN.G : Fld := ⟨R.RSV_PLAN, 8, 0⟩
abbrev R.RSV_STATUS : Nat := 0x1002001C
abbrev F.RSV_STATUS.FLOOR : Fld := ⟨R.RSV_STATUS, 11, 10⟩
abbrev F.RSV_STATUS.NCLK : Fld := ⟨R.RSV_STATUS, 9, 8⟩
abbrev F.RSV_STATUS.D_T : Fld := ⟨R.RSV_STATUS, 5, 4⟩
abbrev F.RSV_STATUS.D_P : Fld := ⟨R.RSV_STATUS, 3, 2⟩
abbrev F.RSV_STATUS.STAGE : Fld := ⟨R.RSV_STATUS, 1, 0⟩
abbrev R.RSV_FLAGS : Nat := 0x10020020
abbrev F.RSV_FLAGS.OVER_RT : Fld := ⟨R.RSV_FLAGS, 7, 7⟩
abbrev F.RSV_FLAGS.TJ_HIGH : Fld := ⟨R.RSV_FLAGS, 6, 6⟩
abbrev F.RSV_FLAGS.CASE_OVER : Fld := ⟨R.RSV_FLAGS, 5, 5⟩
abbrev F.RSV_FLAGS.STAGE3 : Fld := ⟨R.RSV_FLAGS, 4, 4⟩
abbrev F.RSV_FLAGS.STAGE2 : Fld := ⟨R.RSV_FLAGS, 3, 3⟩
abbrev F.RSV_FLAGS.STAGE1 : Fld := ⟨R.RSV_FLAGS, 2, 2⟩
abbrev F.RSV_FLAGS.PLAN_MISS : Fld := ⟨R.RSV_FLAGS, 1, 1⟩
abbrev F.RSV_FLAGS.PLAN_REJ : Fld := ⟨R.RSV_FLAGS, 0, 0⟩
abbrev R.RSV_IRQ_EN : Nat := 0x10020024
abbrev F.RSV_IRQ_EN.EN : Fld := ⟨R.RSV_IRQ_EN, 7, 0⟩
abbrev R.RSV_POWER : Nat := 0x10020038
abbrev F.RSV_POWER.CAPT_PENDING : Fld := ⟨R.RSV_POWER, 13, 13⟩
abbrev F.RSV_POWER.JDG_PENDING : Fld := ⟨R.RSV_POWER, 12, 12⟩
abbrev F.RSV_POWER.CAPT_STATE : Fld := ⟨R.RSV_POWER, 11, 10⟩
abbrev F.RSV_POWER.JDG_STATE : Fld := ⟨R.RSV_POWER, 9, 8⟩
abbrev F.RSV_POWER.CAPT_OFF : Fld := ⟨R.RSV_POWER, 1, 1⟩
abbrev F.RSV_POWER.JDG_OFF : Fld := ⟨R.RSV_POWER, 0, 0⟩
abbrev R.RSV_PLAN_CYCLE : Nat := 0x10020010
abbrev F.RSV_PLAN_CYCLE.V : Fld := ⟨R.RSV_PLAN_CYCLE, 31, 0⟩
abbrev R.RSV_PLAN_Q : Nat := 0x10020018
abbrev F.RSV_PLAN_Q.V : Fld := ⟨R.RSV_PLAN_Q, 23, 0⟩
abbrev R.RSV_AVG16 : Nat := 0x10020028
abbrev F.RSV_AVG16.P16 : Fld := ⟨R.RSV_AVG16, 31, 0⟩
abbrev R.RSV_CYC_ENERGY : Nat := 0x1002002C
abbrev F.RSV_CYC_ENERGY.V : Fld := ⟨R.RSV_CYC_ENERGY, 31, 0⟩
abbrev R.RSV_TJ : Nat := 0x10020030
abbrev F.RSV_TJ.V : Fld := ⟨R.RSV_TJ, 15, 0⟩
abbrev R.RSV_LIVE : Nat := 0x10020034
abbrev F.RSV_LIVE.CAL : Fld := ⟨R.RSV_LIVE, 17, 17⟩
abbrev F.RSV_LIVE.CAPT : Fld := ⟨R.RSV_LIVE, 16, 16⟩
abbrev F.RSV_LIVE.G_EFF : Fld := ⟨R.RSV_LIVE, 8, 0⟩
abbrev R.RSV_SHEDk_CYCLES (k : Nat) : Nat := 0x10020040 + k * 0x4
abbrev F.RSV_SHEDk_CYCLES.V (k : Nat) : Fld := ⟨R.RSV_SHEDk_CYCLES k, 31, 0⟩
abbrev R.RSV_PLAN_MISS : Nat := 0x1002004C
abbrev F.RSV_PLAN_MISS.V : Fld := ⟨R.RSV_PLAN_MISS, 31, 0⟩
abbrev R.RSV_Rr_ENERGY_LO (r : Nat) : Nat := 0x10020100 + r * 0x10
abbrev F.RSV_Rr_ENERGY_LO.V (r : Nat) : Fld := ⟨R.RSV_Rr_ENERGY_LO r, 31, 0⟩
abbrev R.RSV_Rr_ENERGY_HI (r : Nat) : Nat := 0x10020104 + r * 0x10
abbrev F.RSV_Rr_ENERGY_HI.V (r : Nat) : Fld := ⟨R.RSV_Rr_ENERGY_HI r, 31, 0⟩
abbrev R.RSV_Rr_CYC (r : Nat) : Nat := 0x10020108 + r * 0x10
abbrev F.RSV_Rr_CYC.V (r : Nat) : Fld := ⟨R.RSV_Rr_CYC r, 31, 0⟩

/-! ## 21_pairing_chains.md -/

abbrev R.PAIR_CFG : Nat := 0x100D0000
abbrev F.PAIR_CFG.EN : Fld := ⟨R.PAIR_CFG, 31, 31⟩
abbrev F.PAIR_CFG.HOME : Fld := ⟨R.PAIR_CFG, 30, 30⟩
abbrev F.PAIR_CFG.INPUT : Fld := ⟨R.PAIR_CFG, 29, 29⟩
abbrev F.PAIR_CFG.PORT : Fld := ⟨R.PAIR_CFG, 27, 26⟩
abbrev F.PAIR_CFG.REVERT : Fld := ⟨R.PAIR_CFG, 15, 0⟩
abbrev R.PAIR_TIMING : Nat := 0x100D0004
abbrev F.PAIR_TIMING.COMMIT_US : Fld := ⟨R.PAIR_TIMING, 31, 16⟩
abbrev F.PAIR_TIMING.PEER_TO_US : Fld := ⟨R.PAIR_TIMING, 15, 0⟩
abbrev R.PAIR_STATUS : Nat := 0x100D0008
abbrev F.PAIR_STATUS.PRI : Fld := ⟨R.PAIR_STATUS, 31, 28⟩
abbrev F.PAIR_STATUS.EPOCH : Fld := ⟨R.PAIR_STATUS, 27, 16⟩
abbrev F.PAIR_STATUS.SELFTEST : Fld := ⟨R.PAIR_STATUS, 5, 5⟩
abbrev F.PAIR_STATUS.PEER_UP : Fld := ⟨R.PAIR_STATUS, 4, 4⟩
abbrev F.PAIR_STATUS.STATE : Fld := ⟨R.PAIR_STATUS, 3, 0⟩
abbrev R.PAIR_CTRL : Nat := 0x100D000C
abbrev F.PAIR_CTRL.YIELD : Fld := ⟨R.PAIR_CTRL, 1, 1⟩
abbrev F.PAIR_CTRL.REJOIN : Fld := ⟨R.PAIR_CTRL, 0, 0⟩
abbrev R.PAIR_FLAGS : Nat := 0x100D0010
abbrev F.PAIR_FLAGS.SPLIT : Fld := ⟨R.PAIR_FLAGS, 9, 9⟩
abbrev F.PAIR_FLAGS.JOINED : Fld := ⟨R.PAIR_FLAGS, 8, 8⟩
abbrev F.PAIR_FLAGS.LEASE_HOLD : Fld := ⟨R.PAIR_FLAGS, 7, 7⟩
abbrev F.PAIR_FLAGS.PEER_LOST : Fld := ⟨R.PAIR_FLAGS, 6, 6⟩
abbrev F.PAIR_FLAGS.YIELDED : Fld := ⟨R.PAIR_FLAGS, 5, 5⟩
abbrev F.PAIR_FLAGS.KAT_FAIL : Fld := ⟨R.PAIR_FLAGS, 4, 4⟩
abbrev F.PAIR_FLAGS.DIVERGENCE : Fld := ⟨R.PAIR_FLAGS, 3, 3⟩
abbrev F.PAIR_FLAGS.MISMATCH : Fld := ⟨R.PAIR_FLAGS, 2, 2⟩
abbrev F.PAIR_FLAGS.REVERTED : Fld := ⟨R.PAIR_FLAGS, 1, 1⟩
abbrev F.PAIR_FLAGS.TAKEOVER : Fld := ⟨R.PAIR_FLAGS, 0, 0⟩
abbrev R.PAIR_IRQ_EN : Nat := 0x100D0014
abbrev F.PAIR_IRQ_EN.EN : Fld := ⟨R.PAIR_IRQ_EN, 9, 0⟩
abbrev R.PAIR_CHAIN : Nat := 0x100D0030
abbrev F.PAIR_CHAIN.EN : Fld := ⟨R.PAIR_CHAIN, 31, 31⟩
abbrev F.PAIR_CHAIN.ROOT : Fld := ⟨R.PAIR_CHAIN, 30, 30⟩
abbrev F.PAIR_CHAIN.MASTER : Fld := ⟨R.PAIR_CHAIN, 29, 29⟩
abbrev F.PAIR_CHAIN.ID : Fld := ⟨R.PAIR_CHAIN, 27, 24⟩
abbrev R.PAIR_DIGEST_LO : Nat := 0x100D0018
abbrev F.PAIR_DIGEST_LO.V : Fld := ⟨R.PAIR_DIGEST_LO, 31, 0⟩
abbrev R.PAIR_DIGEST_HI : Nat := 0x100D001C
abbrev F.PAIR_DIGEST_HI.V : Fld := ⟨R.PAIR_DIGEST_HI, 31, 0⟩
abbrev R.PAIR_PDIGEST_LO : Nat := 0x100D0020
abbrev F.PAIR_PDIGEST_LO.V : Fld := ⟨R.PAIR_PDIGEST_LO, 31, 0⟩
abbrev R.PAIR_PDIGEST_HI : Nat := 0x100D0024
abbrev F.PAIR_PDIGEST_HI.V : Fld := ⟨R.PAIR_PDIGEST_HI, 31, 0⟩
abbrev R.PAIR_DIG_CYCLE : Nat := 0x100D0028
abbrev F.PAIR_DIG_CYCLE.V : Fld := ⟨R.PAIR_DIG_CYCLE, 31, 0⟩
abbrev R.PAIR_LOSS : Nat := 0x100D002C
abbrev F.PAIR_LOSS.V : Fld := ⟨R.PAIR_LOSS, 31, 0⟩
abbrev R.PAIR_GRID_BASE : Nat := 0x100D0034
abbrev F.PAIR_GRID_BASE.V : Fld := ⟨R.PAIR_GRID_BASE, 18, 0⟩
abbrev R.PAIR_OWN_LO : Nat := 0x100D0038
abbrev F.PAIR_OWN_LO.OWN_LO : Fld := ⟨R.PAIR_OWN_LO, 18, 0⟩
abbrev R.PAIR_OWN_HI : Nat := 0x100D003C
abbrev F.PAIR_OWN_HI.OWN_HI : Fld := ⟨R.PAIR_OWN_HI, 18, 0⟩
abbrev R.PAIR_SLACK : Nat := 0x100D0040
abbrev F.PAIR_SLACK.SLACK : Fld := ⟨R.PAIR_SLACK, 15, 0⟩
abbrev R.PAIR_CYCLES_OK : Nat := 0x100D0050
abbrev F.PAIR_CYCLES_OK.V : Fld := ⟨R.PAIR_CYCLES_OK, 31, 0⟩
abbrev R.PAIR_MISMATCH : Nat := 0x100D0054
abbrev F.PAIR_MISMATCH.V : Fld := ⟨R.PAIR_MISMATCH, 31, 0⟩
abbrev R.PAIR_TAKEOVERS : Nat := 0x100D0058
abbrev F.PAIR_TAKEOVERS.V : Fld := ⟨R.PAIR_TAKEOVERS, 31, 0⟩
abbrev R.PAIR_LATE_COMMIT : Nat := 0x100D005C
abbrev F.PAIR_LATE_COMMIT.V : Fld := ⟨R.PAIR_LATE_COMMIT, 31, 0⟩
abbrev R.PAIR_ITEMS_TX : Nat := 0x100D0060
abbrev F.PAIR_ITEMS_TX.V : Fld := ⟨R.PAIR_ITEMS_TX, 31, 0⟩
abbrev R.PAIR_ITEMS_RX : Nat := 0x100D0064
abbrev F.PAIR_ITEMS_RX.V : Fld := ⟨R.PAIR_ITEMS_RX, 31, 0⟩
abbrev R.PAIR_ITEM_LATE : Nat := 0x100D0068
abbrev F.PAIR_ITEM_LATE.V : Fld := ⟨R.PAIR_ITEM_LATE, 31, 0⟩
abbrev R.CHAIN_FWD_TX : Nat := 0x100D006C
abbrev F.CHAIN_FWD_TX.V : Fld := ⟨R.CHAIN_FWD_TX, 31, 0⟩
abbrev R.CHAIN_FWD_RX : Nat := 0x100D0070
abbrev F.CHAIN_FWD_RX.V : Fld := ⟨R.CHAIN_FWD_RX, 31, 0⟩
abbrev R.CHAIN_FWD_DROP : Nat := 0x100D0074
abbrev F.CHAIN_FWD_DROP.V : Fld := ⟨R.CHAIN_FWD_DROP, 31, 0⟩
abbrev R.CHAIN_NOT_OWNED : Nat := 0x100D0078
abbrev F.CHAIN_NOT_OWNED.V : Fld := ⟨R.CHAIN_NOT_OWNED, 31, 0⟩
abbrev R.CHAIN_SHARED : Nat := 0x100D007C
abbrev F.CHAIN_SHARED.V : Fld := ⟨R.CHAIN_SHARED, 31, 0⟩
abbrev R.PAIR_FWDk_CFG (k : Nat) : Nat := 0x100D0100 + k * 0x10
abbrev F.PAIR_FWDk_CFG.EN (k : Nat) : Fld := ⟨R.PAIR_FWDk_CFG k, 31, 31⟩
abbrev F.PAIR_FWDk_CFG.ROW (k : Nat) : Fld := ⟨R.PAIR_FWDk_CFG k, 30, 30⟩
abbrev F.PAIR_FWDk_CFG.DUAL (k : Nat) : Fld := ⟨R.PAIR_FWDk_CFG k, 29, 29⟩
abbrev F.PAIR_FWDk_CFG.DEST0 (k : Nat) : Fld := ⟨R.PAIR_FWDk_CFG k, 27, 24⟩
abbrev F.PAIR_FWDk_CFG.DEST1 (k : Nat) : Fld := ⟨R.PAIR_FWDk_CFG k, 23, 20⟩
abbrev R.PAIR_FWDk_XLO (k : Nat) : Nat := 0x100D0104 + k * 0x10
abbrev F.PAIR_FWDk_XLO.X_LO (k : Nat) : Fld := ⟨R.PAIR_FWDk_XLO k, 18, 0⟩
abbrev R.PAIR_FWDk_XHI (k : Nat) : Nat := 0x100D0108 + k * 0x10
abbrev F.PAIR_FWDk_XHI.X_HI (k : Nat) : Fld := ⟨R.PAIR_FWDk_XHI k, 18, 0⟩
abbrev R.PAIR_FWDk_LEAD (k : Nat) : Nat := 0x100D010C + k * 0x10
abbrev F.PAIR_FWDk_LEAD.LEAD_MAX (k : Nat) : Fld := ⟨R.PAIR_FWDk_LEAD k, 23, 0⟩
abbrev R.PAIR_ROUTEd (d : Nat) : Nat := 0x100D0200 + d * 0x4
abbrev F.PAIR_ROUTEd.EN (d : Nat) : Fld := ⟨R.PAIR_ROUTEd d, 31, 31⟩
abbrev F.PAIR_ROUTEd.ALT_EN (d : Nat) : Fld := ⟨R.PAIR_ROUTEd d, 30, 30⟩
abbrev F.PAIR_ROUTEd.PORT (d : Nat) : Fld := ⟨R.PAIR_ROUTEd d, 29, 28⟩
abbrev F.PAIR_ROUTEd.ALT_PORT (d : Nat) : Fld := ⟨R.PAIR_ROUTEd d, 27, 26⟩
abbrev F.PAIR_ROUTEd.HOPS (d : Nat) : Fld := ⟨R.PAIR_ROUTEd d, 15, 12⟩
abbrev F.PAIR_ROUTEd.ALT_HOPS (d : Nat) : Fld := ⟨R.PAIR_ROUTEd d, 11, 8⟩
abbrev R.PEERn_CFG (n : Nat) : Nat := 0x100E0000 + n * 0x4000
abbrev F.PEERn_CFG.EN (n : Nat) : Fld := ⟨R.PEERn_CFG n, 31, 31⟩
abbrev F.PEERn_CFG.ACCESS_EN (n : Nat) : Fld := ⟨R.PEERn_CFG n, 30, 30⟩
abbrev R.PEERn_STATUS (n : Nat) : Nat := 0x100E0004 + n * 0x4000
abbrev F.PEERn_STATUS.REMOTE_ID (n : Nat) : Fld := ⟨R.PEERn_STATUS n, 31, 28⟩
abbrev F.PEERn_STATUS.STATE (n : Nat) : Fld := ⟨R.PEERn_STATUS n, 3, 0⟩
abbrev R.PEERn_FLAGS (n : Nat) : Nat := 0x100E0008 + n * 0x4000
abbrev F.PEERn_FLAGS.HOPS_DROP (n : Nat) : Fld := ⟨R.PEERn_FLAGS n, 6, 6⟩
abbrev F.PEERn_FLAGS.CFG_MISMATCH (n : Nat) : Fld := ⟨R.PEERn_FLAGS n, 5, 5⟩
abbrev F.PEERn_FLAGS.RETX_FAIL (n : Nat) : Fld := ⟨R.PEERn_FLAGS n, 4, 4⟩
abbrev F.PEERn_FLAGS.SEQ_GAP (n : Nat) : Fld := ⟨R.PEERn_FLAGS n, 3, 3⟩
abbrev F.PEERn_FLAGS.CRC_ERR (n : Nat) : Fld := ⟨R.PEERn_FLAGS n, 2, 2⟩
abbrev F.PEERn_FLAGS.LINK_LOST (n : Nat) : Fld := ⟨R.PEERn_FLAGS n, 1, 1⟩
abbrev F.PEERn_FLAGS.LINK_UP (n : Nat) : Fld := ⟨R.PEERn_FLAGS n, 0, 0⟩
abbrev R.PEERn_IRQ_EN (n : Nat) : Nat := 0x100E000C + n * 0x4000
abbrev F.PEERn_IRQ_EN.EN (n : Nat) : Fld := ⟨R.PEERn_IRQ_EN n, 6, 0⟩
abbrev R.PEERn_FRAMES_TX (n : Nat) : Nat := 0x100E0010 + n * 0x4000
abbrev F.PEERn_FRAMES_TX.COUNT (n : Nat) : Fld := ⟨R.PEERn_FRAMES_TX n, 31, 0⟩
abbrev R.PEERn_FRAMES_RX (n : Nat) : Nat := 0x100E0014 + n * 0x4000
abbrev F.PEERn_FRAMES_RX.COUNT (n : Nat) : Fld := ⟨R.PEERn_FRAMES_RX n, 31, 0⟩
abbrev R.PEERn_CRC_ERR (n : Nat) : Nat := 0x100E0018 + n * 0x4000
abbrev F.PEERn_CRC_ERR.COUNT (n : Nat) : Fld := ⟨R.PEERn_CRC_ERR n, 31, 0⟩
abbrev R.PEERn_SEQ_GAP (n : Nat) : Nat := 0x100E001C + n * 0x4000
abbrev F.PEERn_SEQ_GAP.COUNT (n : Nat) : Fld := ⟨R.PEERn_SEQ_GAP n, 31, 0⟩
abbrev R.PEERn_RETX (n : Nat) : Nat := 0x100E0020 + n * 0x4000
abbrev F.PEERn_RETX.COUNT (n : Nat) : Fld := ⟨R.PEERn_RETX n, 31, 0⟩
abbrev R.PEERn_LINK_LOSS (n : Nat) : Nat := 0x100E0024 + n * 0x4000
abbrev F.PEERn_LINK_LOSS.COUNT (n : Nat) : Fld := ⟨R.PEERn_LINK_LOSS n, 31, 0⟩
abbrev R.PEERn_HOPS_DROP (n : Nat) : Nat := 0x100E0028 + n * 0x4000
abbrev F.PEERn_HOPS_DROP.COUNT (n : Nat) : Fld := ⟨R.PEERn_HOPS_DROP n, 31, 0⟩
abbrev R.PEERn_DELAY (n : Nat) : Nat := 0x100E002C + n * 0x4000
abbrev F.PEERn_DELAY.DELAY (n : Nat) : Fld := ⟨R.PEERn_DELAY n, 15, 0⟩

/-! ## 22_faults_safe_state.md -/

abbrev R.FLT_CFG : Nat := 0x10030000
abbrev F.FLT_CFG.HIST_LEVEL : Fld := ⟨R.FLT_CFG, 18, 16⟩
abbrev F.FLT_CFG.PIN_LEVEL : Fld := ⟨R.FLT_CFG, 10, 8⟩
abbrev F.FLT_CFG.ESC_MAX : Fld := ⟨R.FLT_CFG, 3, 0⟩
abbrev R.FLT_STATUS : Nat := 0x10030004
abbrev F.FLT_STATUS.SAFE : Fld := ⟨R.FLT_STATUS, 31, 31⟩
abbrev F.FLT_STATUS.RESETTING : Fld := ⟨R.FLT_STATUS, 21, 16⟩
abbrev F.FLT_STATUS.SAFE_CODE : Fld := ⟨R.FLT_STATUS, 15, 0⟩
abbrev R.FLT_CTRL : Nat := 0x10030008
abbrev F.FLT_CTRL.SAFE : Fld := ⟨R.FLT_CTRL, 31, 31⟩
abbrev F.FLT_CTRL.EXIT : Fld := ⟨R.FLT_CTRL, 30, 30⟩
abbrev F.FLT_CTRL.HIST_CLEAR : Fld := ⟨R.FLT_CTRL, 29, 29⟩
abbrev F.FLT_CTRL.RESET_REGION : Fld := ⟨R.FLT_CTRL, 4, 0⟩
abbrev R.FLT_FLAGS : Nat := 0x1003000C
abbrev F.FLT_FLAGS.SUPPLY_WARN : Fld := ⟨R.FLT_FLAGS, 7, 7⟩
abbrev F.FLT_FLAGS.EXIT_REJ : Fld := ⟨R.FLT_FLAGS, 6, 6⟩
abbrev F.FLT_FLAGS.HIST_ERR : Fld := ⟨R.FLT_FLAGS, 5, 5⟩
abbrev F.FLT_FLAGS.SAFE_ENTERED : Fld := ⟨R.FLT_FLAGS, 4, 4⟩
abbrev F.FLT_FLAGS.PIN_FAULT : Fld := ⟨R.FLT_FLAGS, 3, 3⟩
abbrev F.FLT_FLAGS.ESCALATED : Fld := ⟨R.FLT_FLAGS, 2, 2⟩
abbrev F.FLT_FLAGS.REGION_RESET : Fld := ⟨R.FLT_FLAGS, 1, 1⟩
abbrev F.FLT_FLAGS.FAULT : Fld := ⟨R.FLT_FLAGS, 0, 0⟩
abbrev R.FLT_IRQ_EN : Nat := 0x10030010
abbrev F.FLT_IRQ_EN.EN : Fld := ⟨R.FLT_IRQ_EN, 7, 0⟩
abbrev R.FLT_LAST : Nat := 0x10030014
abbrev F.FLT_LAST.INDEX : Fld := ⟨R.FLT_LAST, 31, 16⟩
abbrev F.FLT_LAST.CODE : Fld := ⟨R.FLT_LAST, 15, 0⟩
abbrev R.FLT_LAST_LINE : Nat := 0x10030018
abbrev F.FLT_LAST_LINE.V : Fld := ⟨R.FLT_LAST_LINE, 31, 0⟩
abbrev R.FLT_HIST_SEQ : Nat := 0x1003001C
abbrev F.FLT_HIST_SEQ.SEQ : Fld := ⟨R.FLT_HIST_SEQ, 31, 0⟩
abbrev R.FLT_L1_COUNT : Nat := 0x10030020
abbrev F.FLT_L1_COUNT.V : Fld := ⟨R.FLT_L1_COUNT, 31, 0⟩
abbrev R.FLT_L2_COUNT : Nat := 0x10030024
abbrev F.FLT_L2_COUNT.V : Fld := ⟨R.FLT_L2_COUNT, 31, 0⟩
abbrev R.FLT_L3_COUNT : Nat := 0x10030028
abbrev F.FLT_L3_COUNT.V : Fld := ⟨R.FLT_L3_COUNT, 31, 0⟩
abbrev R.FLT_SAFE_COUNT : Nat := 0x1003002C
abbrev F.FLT_SAFE_COUNT.V : Fld := ⟨R.FLT_SAFE_COUNT, 31, 0⟩
abbrev R.FLT_Rr_RESETS (r : Nat) : Nat := 0x10030030 + r * 0x4
abbrev F.FLT_Rr_RESETS.V (r : Nat) : Fld := ⟨R.FLT_Rr_RESETS r, 31, 0⟩
abbrev R.FLT_SUPPLY : Nat := 0x10030048
abbrev F.FLT_SUPPLY.RAILS : Fld := ⟨R.FLT_SUPPLY, 25, 16⟩
abbrev F.FLT_SUPPLY.WARN : Fld := ⟨R.FLT_SUPPLY, 9, 0⟩

end Sys2Proof.Machine
end

