-- ==== Sys2Proof/Machine/RegMap.lean ====
section
/-! DEFINITION. The register map: for every register of the spec its address pattern, its reset value and, per access code of R10 (Table 0.4),
the bits that have it. A bit under no mask is reserved (R12). Written from the register tables of the spec. -/

namespace Sys2Proof.Machine

/-- Register rows of the CHIP block. -/
def mapCHIP : List RegDesc := [
  { base := 0x10000000, dims := [], reset := 0x0, ro := 0xFFFFFFFF } /- CHIP_ID -/,
  { base := 0x10000004, dims := [], reset := 0x0, ro := 0xFF } /- CHIP_LEVEL -/,
  { base := 0x10000008, dims := [], reset := 0x0, ro := 0x303 } /- CHIP_STRAP -/,
  { base := 0x1000000C, dims := [], reset := 0x0, ro := 0xC000FFFF } /- CHIP_BOOT -/,
  { base := 0x10000010, dims := [], reset := 0x0, ro := 0xFFFFFFFF } /- CHIP_BUILD_ID -/,
  { base := 0x10000014, dims := [], reset := 0x0, ro := 0xFFFFFFFF } /- CHIP_HDR_CRC -/,
  { base := 0x10000018, dims := [], reset := 0x0, ro := 0xFFFFFFFF } /- CHIP_BOOT_US -/,
  { base := 0x1000001C, dims := [], reset := 0x4, ro := 0x7 } /- CHIP_PINS -/,
  { base := 0x10000040, dims := [(0x4, 8)], reset := 0x0, ro := 0xFFFFFFFF } /- CHIP_KEYHASHw -/]

/-- Register rows of the SLU block. -/
def mapSLU : List RegDesc := [
  { base := 0x10010000, dims := [], reset := 0x0, ro := 0xFFFF030F } /- SLU_STATE -/,
  { base := 0x10010004, dims := [], reset := 0x0, rw := 0xFFFFFFFF } /- SLU_APPLY_LINE -/,
  { base := 0x10010008, dims := [], reset := 0x0, w1s := 0x7 } /- SLU_CMD -/,
  { base := 0x1001000C, dims := [], reset := 0x1, rwl := 0x1 } /- SLU_CFG -/,
  { base := 0x10010010, dims := [], reset := 0x0, ro := 0xFFFFFFFF } /- SLU_RESULT -/,
  { base := 0x10010014, dims := [], reset := 0x0, wo := 0xFFFFFFFF } /- SLU_FW_VERDICT -/,
  { base := 0x10010018, dims := [], reset := 0x0, w1c := 0x3F } /- SLU_FLAGS -/,
  { base := 0x1001001C, dims := [], reset := 0x0, rw := 0x3F } /- SLU_IRQ_EN -/,
  { base := 0x10010020, dims := [], reset := 0x0, ro := 0xFFFFFFFF } /- SLU_LIVE_LINE -/,
  { base := 0x10010024, dims := [], reset := 0x0, ro := 0xFFFFFFFF } /- SLU_ARMED_LINE -/,
  { base := 0x10010028, dims := [], reset := 0x0, ro := 0xFFFFFFFF } /- SLU_CHECK_US -/,
  { base := 0x1001002C, dims := [], reset := 0x0, ro := 0xFFFFFFFF } /- SLU_INDEX -/,
  { base := 0x10010030, dims := [], reset := 0x0, rc := 0xFFFFFFFF } /- SLU_COMMITS -/,
  { base := 0x10010034, dims := [], reset := 0x0, rc := 0xFFFFFFFF } /- SLU_APPLIES -/,
  { base := 0x10010038, dims := [], reset := 0x0, rc := 0xFFFFFFFF } /- SLU_REFUSALS -/,
  { base := 0x1001003C, dims := [], reset := 0x0, rc := 0xFFFFFFFF } /- SLU_STAGE_REJ -/,
  { base := 0x10010040, dims := [], reset := 0x0, rc := 0xFFFFFFFF } /- SLU_CANCELS -/]

/-- Register rows of the RSV block. -/
def mapRSV : List RegDesc := [
  { base := 0x10020000, dims := [], reset := 0xAFC8, rws := 0xFFFF } /- RSV_LIMIT -/,
  { base := 0x10020004, dims := [], reset := 0x55, rws := 0xFF } /- RSV_TCASE -/,
  { base := 0x10020008, dims := [], reset := 0x0, ro := 0xFFFFFFFF } /- RSV_DECL -/,
  { base := 0x1002000C, dims := [], reset := 0x80, rws := 0x1FF } /- RSV_WEIR -/,
  { base := 0x10020014, dims := [], reset := 0x30100, rw := 0x301FF, w1s := 0x80000000 } /- RSV_PLAN -/,
  { base := 0x1002001C, dims := [], reset := 0x0, ro := 0xF3F } /- RSV_STATUS -/,
  { base := 0x10020020, dims := [], reset := 0x0, w1c := 0xFF } /- RSV_FLAGS -/,
  { base := 0x10020024, dims := [], reset := 0x0, rw := 0xFF } /- RSV_IRQ_EN -/,
  { base := 0x10020038, dims := [], reset := 0x0, ro := 0x3F00, rws := 0x3 } /- RSV_POWER -/,
  { base := 0x10020010, dims := [], reset := 0x0, rw := 0xFFFFFFFF } /- RSV_PLAN_CYCLE -/,
  { base := 0x10020018, dims := [], reset := 0x0, rw := 0xFFFFFF } /- RSV_PLAN_Q -/,
  { base := 0x10020028, dims := [], reset := 0x0, ro := 0xFFFFFFFF } /- RSV_AVG16 -/,
  { base := 0x1002002C, dims := [], reset := 0x0, ro := 0xFFFFFFFF } /- RSV_CYC_ENERGY -/,
  { base := 0x10020030, dims := [], reset := 0x0, ro := 0xFFFF } /- RSV_TJ -/,
  { base := 0x10020034, dims := [], reset := 0x30100, ro := 0x301FF } /- RSV_LIVE -/,
  { base := 0x10020040, dims := [(0x4, 3)], reset := 0x0, rc := 0xFFFFFFFF } /- RSV_SHEDk_CYCLES -/,
  { base := 0x1002004C, dims := [], reset := 0x0, rc := 0xFFFFFFFF } /- RSV_PLAN_MISS -/,
  { base := 0x10020100, dims := [(0x10, 6)], reset := 0x0, ro := 0xFFFFFFFF } /- RSV_Rr_ENERGY_LO -/,
  { base := 0x10020104, dims := [(0x10, 6)], reset := 0x0, ro := 0xFFFFFFFF } /- RSV_Rr_ENERGY_HI -/,
  { base := 0x10020108, dims := [(0x10, 6)], reset := 0x0, ro := 0xFFFFFFFF } /- RSV_Rr_CYC -/]

/-- Register rows of the FLT block. -/
def mapFLT : List RegDesc := [
  { base := 0x10030000, dims := [], reset := 0x20303, rwl := 0x7070F } /- FLT_CFG -/,
  { base := 0x10030004, dims := [], reset := 0x0, ro := 0x803FFFFF } /- FLT_STATUS -/,
  { base := 0x10030008, dims := [], reset := 0x0, w1s := 0xE000001F } /- FLT_CTRL -/,
  { base := 0x1003000C, dims := [], reset := 0x0, w1c := 0xFF } /- FLT_FLAGS -/,
  { base := 0x10030010, dims := [], reset := 0x0, rw := 0xFF } /- FLT_IRQ_EN -/,
  { base := 0x10030014, dims := [], reset := 0x0, ro := 0xFFFFFFFF } /- FLT_LAST -/,
  { base := 0x10030018, dims := [], reset := 0x0, ro := 0xFFFFFFFF } /- FLT_LAST_LINE -/,
  { base := 0x1003001C, dims := [], reset := 0x0, ro := 0xFFFFFFFF } /- FLT_HIST_SEQ -/,
  { base := 0x10030020, dims := [], reset := 0x0, rc := 0xFFFFFFFF } /- FLT_L1_COUNT -/,
  { base := 0x10030024, dims := [], reset := 0x0, rc := 0xFFFFFFFF } /- FLT_L2_COUNT -/,
  { base := 0x10030028, dims := [], reset := 0x0, rc := 0xFFFFFFFF } /- FLT_L3_COUNT -/,
  { base := 0x1003002C, dims := [], reset := 0x0, rc := 0xFFFFFFFF } /- FLT_SAFE_COUNT -/,
  { base := 0x10030030, dims := [(0x4, 6)], reset := 0x0, rc := 0xFFFFFFFF } /- FLT_Rr_RESETS -/,
  { base := 0x10030048, dims := [], reset := 0x0, ro := 0x3FF03FF } /- FLT_SUPPLY -/]

/-- Register rows of the CORE block. -/
def mapCORE : List RegDesc := [
  { base := 0x10040000, dims := [], reset := 0x0, ro := 0xFFFFFFFF } /- CORE_MTIME_LO -/,
  { base := 0x10040004, dims := [], reset := 0x0, ro := 0xFFFFFFFF } /- CORE_MTIME_HI -/,
  { base := 0x10040008, dims := [], reset := 0x0, ro := 0xFFFFFFFF } /- CORE_BUSERR_ADDR_LO -/,
  { base := 0x1004000C, dims := [], reset := 0x0, ro := 0xFFFFFFFF } /- CORE_BUSERR_ADDR_HI -/,
  { base := 0x10040010, dims := [], reset := 0x0, ro := 0xF1F0000, w1c := 0x80000000 } /- CORE_BUSERR_INFO -/,
  { base := 0x10040014, dims := [], reset := 0x1, rwl := 0x3 } /- CORE_DBG -/,
  { base := 0x10040018, dims := [], reset := 0x0, ro := 0x1 } /- CORE_LOCK -/,
  { base := 0x10040100, dims := [(0x40, 4)], reset := 0x0, w1s := 0xC0000000 } /- CORE_Cn_CTRL -/,
  { base := 0x10040104, dims := [(0x40, 4)], reset := 0x0, ro := 0xC0000000, w1c := 0x1 } /- CORE_Cn_STATUS -/,
  { base := 0x10040108, dims := [(0x40, 4)], reset := 0x1000, rw := 0xFFFFFFFF } /- CORE_Cn_BOOT_LO -/,
  { base := 0x1004010C, dims := [(0x40, 4)], reset := 0x0, rw := 0xFFFFFFFF } /- CORE_Cn_BOOT_HI -/,
  { base := 0x10040110, dims := [(0x40, 4)], reset := 0xFFFFFFFF, rw := 0xFFFFFFFF } /- CORE_Cn_MTIMECMP_LO -/,
  { base := 0x10040114, dims := [(0x40, 4)], reset := 0xFFFFFFFF, rw := 0xFFFFFFFF } /- CORE_Cn_MTIMECMP_HI -/,
  { base := 0x10040118, dims := [(0x40, 4)], reset := 0x0, rw := 0x1 } /- CORE_Cn_MSIP -/,
  { base := 0x1004011C, dims := [(0x40, 4)], reset := 0x0, rwl := 0x80FFFFFF } /- CORE_Cn_WDOG -/,
  { base := 0x10040120, dims := [(0x40, 4)], reset := 0x0, wo := 0xFF } /- CORE_Cn_KICK -/,
  { base := 0x10040124, dims := [(0x40, 4)], reset := 0x0, rw := 0xFFFFFFC0 } /- CORE_Cn_CMO_ADDR_LO -/,
  { base := 0x10040128, dims := [(0x40, 4)], reset := 0x0, rw := 0xFFFFFFFF } /- CORE_Cn_CMO_ADDR_HI -/,
  { base := 0x1004012C, dims := [(0x40, 4)], reset := 0x0, rw := 0x30FFFFF, ro := 0x80000000, w1s := 0x40000000 } /- CORE_Cn_CMO -/]

/-- Register rows of the MBX block. -/
def mapMBX : List RegDesc := [
  { base := 0x10050000, dims := [], reset := 0x0, ro := 0x1 } /- MBX_LOCK -/,
  { base := 0x10050004, dims := [], reset := 0x0, ro := 0xFFFFFFFF } /- MBX_FULL -/,
  { base := 0x10050008, dims := [], reset := 0x0, rw := 0xFFFFFFFF } /- MBX_IRQ_EN -/,
  { base := 0x10050100, dims := [(0x10, 32)], reset := 0x0, rwl := 0x80000F0F } /- MBXk_BIND -/,
  { base := 0x10050104, dims := [(0x10, 32)], reset := 0x0, rw := 0xFFFFFFFF } /- MBXk_DATA -/,
  { base := 0x10050108, dims := [(0x10, 32)], reset := 0x0, ro := 0x80000000, w1c := 0x1F } /- MBXk_STATUS -/,
  { base := 0x1005010C, dims := [(0x10, 32)], reset := 0x0, rc := 0xFFFFFFFF } /- MBXk_COLLISIONS -/]

/-- Register rows of the LCK block. -/
def mapLCK : List RegDesc := [
  { base := 0x10060000, dims := [(0x4, 64)], reset := 0x0, rw := 0xFFFFFFFF } /- LCKk -/,
  { base := 0x10060100, dims := [], reset := 0x0, ro := 0xFFFFFFFF } /- LCK_OWNED_LO -/,
  { base := 0x10060104, dims := [], reset := 0x0, ro := 0xFFFFFFFF } /- LCK_OWNED_HI -/,
  { base := 0x10060108, dims := [], reset := 0x0, w1s := 0xFFFFFFFF } /- LCK_FORCE_LO -/,
  { base := 0x1006010C, dims := [], reset := 0x0, w1s := 0xFFFFFFFF } /- LCK_FORCE_HI -/,
  { base := 0x10060114, dims := [], reset := 0x0, rc := 0xFFFFFFFF } /- LCK_REL_ERR -/,
  { base := 0x10060200, dims := [(0x4, 64)], reset := 0x0, ro := 0xFFFFFFFF } /- LCK_PEEKk -/,
  { base := 0x10060110, dims := [], reset := 0x0, w1c := 0x7 } /- LCK_FLAGS -/]

/-- Register rows of the DMA block. -/
def mapDMA : List RegDesc := [
  { base := 0x10070000, dims := [], reset := 0x0, ro := 0xFFFF } /- DMA_PENDING -/,
  { base := 0x10070100, dims := [(0x80, 16)], reset := 0x0, rw := 0x4, w1s := 0x3 } /- DMAc_CTRL -/,
  { base := 0x10070104, dims := [(0x80, 16)], reset := 0x0, ro := 0x8000000F } /- DMAc_STATUS -/,
  { base := 0x10070108, dims := [(0x80, 16)], reset := 0x0, w1c := 0x1FF } /- DMAc_FLAGS -/,
  { base := 0x1007010C, dims := [(0x80, 16)], reset := 0x0, rw := 0x1FF } /- DMAc_IRQ_EN -/,
  { base := 0x10070124, dims := [(0x80, 16)], reset := 0x0, rw := 0xFF0381FF } /- DMAc_CFG -/,
  { base := 0x10070110, dims := [(0x80, 16)], reset := 0x0, rw := 0xFFFFFFFF } /- DMAc_SRC_LO -/,
  { base := 0x10070114, dims := [(0x80, 16)], reset := 0x0, rw := 0xFFFFFFFF } /- DMAc_SRC_HI -/,
  { base := 0x10070118, dims := [(0x80, 16)], reset := 0x0, rw := 0xFFFFFFFF } /- DMAc_DST_LO -/,
  { base := 0x1007011C, dims := [(0x80, 16)], reset := 0x0, rw := 0xFFFFFFFF } /- DMAc_DST_HI -/,
  { base := 0x10070120, dims := [(0x80, 16)], reset := 0x0, rw := 0xFFFFFFFF } /- DMAc_LEN -/,
  { base := 0x10070128, dims := [(0x80, 16)], reset := 0x0, rw := 0xFFFFFFFF } /- DMAc_CSUM -/,
  { base := 0x1007012C, dims := [(0x80, 16)], reset := 0x0, rc := 0xFFFFFFFF } /- DMAc_XFERS -/,
  { base := 0x10070130, dims := [(0x80, 16)], reset := 0x0, ro := 0xFFFFFFFF } /- DMAc_ERR_ADDR_LO -/,
  { base := 0x10070134, dims := [(0x80, 16)], reset := 0x0, ro := 0xFFFFFFFF } /- DMAc_ERR_ADDR_HI -/,
  { base := 0x10070140, dims := [(0x80, 16)], reset := 0x0, rw := 0xFFFFFFFF } /- DMAc_SH_SRC_LO -/,
  { base := 0x10070144, dims := [(0x80, 16)], reset := 0x0, rw := 0xFFFFFFFF } /- DMAc_SH_SRC_HI -/,
  { base := 0x10070148, dims := [(0x80, 16)], reset := 0x0, rw := 0xFFFFFFFF } /- DMAc_SH_DST_LO -/,
  { base := 0x1007014C, dims := [(0x80, 16)], reset := 0x0, rw := 0xFFFFFFFF } /- DMAc_SH_DST_HI -/,
  { base := 0x10070150, dims := [(0x80, 16)], reset := 0x0, rw := 0xFFFFFFFF } /- DMAc_SH_LEN -/,
  { base := 0x10070158, dims := [(0x80, 16)], reset := 0x0, w1s := 0x1 } /- DMAc_SH_CTRL -/,
  { base := 0x10070138, dims := [(0x80, 16)], reset := 0x0, ro := 0x43000000, w1c := 0x80000000 } /- DMAc_ERR_INFO -/,
  { base := 0x10070154, dims := [(0x80, 16)], reset := 0x0, rw := 0xFF0381FF } /- DMAc_SH_CFG -/]

/-- Register rows of the CRC block. -/
def mapCRC : List RegDesc := [
  { base := 0x10080000, dims := [], reset := 0x0, w1c := 0x800FFFFF } /- CRC_FLAGS -/,
  { base := 0x10080004, dims := [], reset := 0x0, rw := 0x800FFFFF } /- CRC_IRQ_EN -/,
  { base := 0x10080100, dims := [(0x80, 8)], reset := 0xC000001F, rw := 0xFC00003F } /- CRCu_CFG -/,
  { base := 0x10080104, dims := [(0x80, 8)], reset := 0x1EDC6F41, rw := 0xFFFFFFFF } /- CRCu_POLY_LO -/,
  { base := 0x10080108, dims := [(0x80, 8)], reset := 0x0, rw := 0xFFFFFFFF } /- CRCu_POLY_HI -/,
  { base := 0x1008010C, dims := [(0x80, 8)], reset := 0xFFFFFFFF, rw := 0xFFFFFFFF } /- CRCu_INIT_LO -/,
  { base := 0x10080110, dims := [(0x80, 8)], reset := 0x0, rw := 0xFFFFFFFF } /- CRCu_INIT_HI -/,
  { base := 0x10080114, dims := [(0x80, 8)], reset := 0xFFFFFFFF, rw := 0xFFFFFFFF } /- CRCu_XOR_LO -/,
  { base := 0x10080118, dims := [(0x80, 8)], reset := 0x0, rw := 0xFFFFFFFF } /- CRCu_XOR_HI -/,
  { base := 0x1008011C, dims := [(0x80, 8)], reset := 0x0, rw := 0xFFFFFFFF } /- CRCu_STATE_LO -/,
  { base := 0x10080120, dims := [(0x80, 8)], reset := 0x0, rw := 0xFFFFFFFF } /- CRCu_STATE_HI -/,
  { base := 0x10080124, dims := [(0x80, 8)], reset := 0xFFFFFFFF, ro := 0xFFFFFFFF } /- CRCu_RESULT_LO -/,
  { base := 0x10080128, dims := [(0x80, 8)], reset := 0x0, ro := 0xFFFFFFFF } /- CRCu_RESULT_HI -/,
  { base := 0x1008012C, dims := [(0x80, 8)], reset := 0x0, rw := 0xFFFFFFFF } /- CRCu_PREFIX_LO -/,
  { base := 0x10080130, dims := [(0x80, 8)], reset := 0x0, rw := 0xFFFFFFFF } /- CRCu_PREFIX_HI -/,
  { base := 0x10080134, dims := [(0x80, 8)], reset := 0x0, w1s := 0x1 } /- CRCu_CTRL -/,
  { base := 0x10080138, dims := [(0x80, 8)], reset := 0x0, wo := 0xFF } /- CRCu_DATA8 -/,
  { base := 0x1008013C, dims := [(0x80, 8)], reset := 0x0, wo := 0xFFFF } /- CRCu_DATA16 -/,
  { base := 0x10080140, dims := [(0x80, 8)], reset := 0x0, wo := 0xFFFFFFFF } /- CRCu_DATA32 -/,
  { base := 0x10080800, dims := [(0x4, 20)], reset := 0x0, rc := 0xFFFFFFFF } /- CRC_SNOOP_ERRk -/]

/-- Register rows of the EVT block. -/
def mapEVT : List RegDesc := [
  { base := 0x10090000, dims := [], reset := 0x0, wo := 0x1FF } /- EVT_FIRE -/,
  { base := 0x10090004, dims := [], reset := 0x0, w1c := 0x7 } /- EVT_FLAGS -/,
  { base := 0x10090008, dims := [], reset := 0x0, rw := 0x7 } /- EVT_IRQ_EN -/,
  { base := 0x1009000C, dims := [], reset := 0x0, rc := 0xFFFFFFFF } /- EVT_COAL -/,
  { base := 0x10090010, dims := [], reset := 0x0, ro := 0xFFFFFFFF } /- EVT_TRIPPED_LO -/,
  { base := 0x10090014, dims := [], reset := 0x0, ro := 0xFFFFFFFF } /- EVT_TRIPPED_HI -/,
  { base := 0x10090018, dims := [], reset := 0x0, w1s := 0xFFFFFFFF } /- EVT_REARM_LO -/,
  { base := 0x1009001C, dims := [], reset := 0x0, w1s := 0xFFFFFFFF } /- EVT_REARM_HI -/,
  { base := 0x10090020, dims := [], reset := 0x0, w1c := 0xFFFFFF } /- EVT_RI_PEND -/,
  { base := 0x10090100, dims := [(0x4, 24)], reset := 0x0, rws := 0xFFFF } /- EVT_RIj_EN -/,
  { base := 0x10090200, dims := [(0x10, 64)], reset := 0x0, ro := 0x20000000, rws := 0xC0FFFFFF } /- EVT_Ck_CFG -/,
  { base := 0x10090204, dims := [(0x10, 64)], reset := 0x1FF01FF, rws := 0x3FF03FF } /- EVT_Ck_IN01 -/,
  { base := 0x10090208, dims := [(0x10, 64)], reset := 0x1FF01FF, rws := 0x3FF03FF } /- EVT_Ck_IN23 -/,
  { base := 0x1009020C, dims := [(0x10, 64)], reset := 0x0, rws := 0xFF } /- EVT_Ck_RATE -/]

/-- Register rows of the ETH block, part 0. -/
def mapETH0 : List RegDesc := [
  { base := 0x100A0000, dims := [], reset := 0x4, rw := 0x8000030E } /- ETH_CFG -/,
  { base := 0x100A0018, dims := [], reset := 0x0, ro := 0xF800000F } /- ETH_STATUS -/,
  { base := 0x100A001C, dims := [], reset := 0x0, w1c := 0x7F } /- ETH_FLAGS -/,
  { base := 0x100A0020, dims := [], reset := 0x0, rw := 0x7F } /- ETH_IRQ_EN -/,
  { base := 0x100A0004, dims := [], reset := 0x0, rw := 0xEFFF } /- ETH_VLAN -/,
  { base := 0x100A0008, dims := [], reset := 0x0, rw := 0xFFFFFFFF } /- ETH_MAC_LO -/,
  { base := 0x100A000C, dims := [], reset := 0x0, rw := 0xFFFF } /- ETH_MAC_HI -/,
  { base := 0x100A0010, dims := [], reset := 0x5DC, rw := 0x3FFF } /- ETH_MTU -/,
  { base := 0x100A0014, dims := [], reset := 0xFFFF0000, rw := 0xFFFF0000 } /- ETH_PAUSE -/,
  { base := 0x100A0100, dims := [(0x20, 3)], reset := 0x0, rw := 0xFFFFF000 } /- ETH_RXQq_BASE_LO -/,
  { base := 0x100A0104, dims := [(0x20, 3)], reset := 0x0, rw := 0xFF } /- ETH_RXQq_BASE_HI -/,
  { base := 0x100A0108, dims := [(0x20, 3)], reset := 0x0, rw := 0x8000000F } /- ETH_RXQq_SIZE -/,
  { base := 0x100A010C, dims := [(0x20, 3)], reset := 0x0, ro := 0xFFF } /- ETH_RXQq_HEAD -/,
  { base := 0x100A0110, dims := [(0x20, 3)], reset := 0x0, rw := 0xFFF } /- ETH_RXQq_TAIL -/,
  { base := 0x100A0114, dims := [(0x20, 3)], reset := 0x0, rc := 0xFFFFFFFF } /- ETH_RXQq_DROP -/,
  { base := 0x100A0200, dims := [], reset := 0x0, rc := 0xFFFFFFFF } /- ETH_RX_FRAMES -/,
  { base := 0x100A0204, dims := [], reset := 0x0, rc := 0xFFFFFFFF } /- ETH_RX_FCS_ERR -/,
  { base := 0x100A0208, dims := [], reset := 0x0, rc := 0xFFFFFFFF } /- ETH_RX_LEN_ERR -/,
  { base := 0x100A020C, dims := [], reset := 0x0, rc := 0xFFFFFFFF } /- ETH_RX_CSUM_ERR -/,
  { base := 0x100A0210, dims := [], reset := 0x0, rc := 0xFFFFFFFF } /- ETH_RX_FILTERED -/,
  { base := 0x100A0214, dims := [], reset := 0x0, rc := 0xFFFFFFFF } /- ETH_TX_FRAMES -/,
  { base := 0x100A0218, dims := [], reset := 0x0, rc := 0xFFFFFFFF } /- ETH_PAUSE_RX -/,
  { base := 0x100A021C, dims := [], reset := 0x0, rc := 0xFFFFFFFF } /- ETH_PAUSE_TX -/,
  { base := 0x100A0220, dims := [], reset := 0x0, rc := 0xFFFFFFFF } /- ETH_FEC_CORR -/,
  { base := 0x100A0224, dims := [], reset := 0x0, rc := 0xFFFFFFFF } /- ETH_FEC_UNCORR -/,
  { base := 0x100AC000, dims := [], reset := 0xB5C0, rw := 0x8000FFFF } /- KCP_CFG -/,
  { base := 0x100AC010, dims := [], reset := 0x8003E8, rw := 0x80FFFFFF } /- KCP_OBJ_CTRL -/,
  { base := 0x100AC014, dims := [], reset := 0x0, rw := 0x1FFFC0 } /- KCP_OBJ_TMPL -/,
  { base := 0x100AC018, dims := [], reset := 0x0, rw := 0xFFFFFFFF } /- KCP_OBJ_SEQ -/,
  { base := 0x100AC020, dims := [], reset := 0x0, rw := 0x80000000, ro := 0x40000000 } /- KCP_CAP_CTRL -/,
  { base := 0x100AC024, dims := [], reset := 0x0, rw := 0x1FFFC0 } /- KCP_CAP_TMPL -/,
  { base := 0x100AC028, dims := [], reset := 0x5F, rw := 0x7F } /- KCP_CAP_RATE -/,
  { base := 0x100AC040, dims := [], reset := 0x0, rc := 0xFFFFFFFF } /- KCP_OBJ_DGRAMS -/,
  { base := 0x100AC044, dims := [], reset := 0x0, rc := 0xFFFFFFFF } /- KCP_OBJ_RECS -/,
  { base := 0x100AC048, dims := [], reset := 0x0, rc := 0xFFFFFFFF } /- KCP_CAP_DGRAMS -/,
  { base := 0x100AC04C, dims := [], reset := 0x0, rc := 0xFFFFFFFF } /- KCP_OBJ_DROP -/,
  { base := 0x100A0180, dims := [], reset := 0x0, rw := 0xFFFFF000 } /- ETH_TXQ_BASE_LO -/,
  { base := 0x100A0184, dims := [], reset := 0x0, rw := 0xFF } /- ETH_TXQ_BASE_HI -/,
  { base := 0x100A0188, dims := [], reset := 0x0, rw := 0x8000000F } /- ETH_TXQ_SIZE -/,
  { base := 0x100A018C, dims := [], reset := 0x0, ro := 0xFFF } /- ETH_TXQ_HEAD -/]

/-- Register rows of the ETH block, part 1. -/
def mapETH1 : List RegDesc := [
  { base := 0x100A0190, dims := [], reset := 0x0, rw := 0xFFF } /- ETH_TXQ_TAIL -/,
  { base := 0x100A8000, dims := [(0x100, 4)], reset := 0x400, rw := 0xF23, w1s := 0x8000 } /- LN_CTRL ethRx -/,
  { base := 0x100A8004, dims := [(0x100, 4)], reset := 0x400, ro := 0x1F0F } /- LN_STATUS ethRx -/,
  { base := 0x100A8008, dims := [(0x100, 4)], reset := 0x0, w1c := 0x1BF } /- LN_FLAGS ethRx -/,
  { base := 0x100A800C, dims := [(0x100, 4)], reset := 0x0, rw := 0x1FF } /- LN_IRQ_EN ethRx -/,
  { base := 0x100A8010, dims := [(0x100, 4)], reset := 0x0 } /- LN_CODE_ERR ethRx -/,
  { base := 0x100A8014, dims := [(0x100, 4)], reset := 0x0 } /- LN_DISP_ERR ethRx -/,
  { base := 0x100A8018, dims := [(0x100, 4)], reset := 0x0 } /- LN_ALIGN_LOSS ethRx -/,
  { base := 0x100A801C, dims := [(0x100, 4)], reset := 0x0, rc := 0xFFFFFFFF } /- LN_LOCK_LOSS ethRx -/,
  { base := 0x100A8020, dims := [(0x100, 4)], reset := 0x0, ro := 0xFFFF03FF } /- LN_EYE ethRx -/,
  { base := 0x100A8024, dims := [(0x100, 4)], reset := 0x3C1800, rw := 0x3FF7FFF } /- LN_EYE_CTRL ethRx -/,
  { base := 0x100A802C, dims := [(0x100, 4)], reset := 0x0 } /- LN_TRAIN_CTRL ethRx -/,
  { base := 0x100A8030, dims := [(0x100, 4)], reset := 0x0 } /- LN_FAR_TAPS ethRx -/,
  { base := 0x100A8034, dims := [(0x100, 4)], reset := 0x0, rc := 0xFFFFFFFF } /- LN_PRBS_ERR ethRx -/,
  { base := 0x100A8040, dims := [(0x100, 4)], reset := 0x0 } /- LN_TX_TAPS ethRx -/,
  { base := 0x100A8400, dims := [(0x100, 4)], reset := 0x0, rw := 0x323 } /- LN_CTRL ethTx -/,
  { base := 0x100A8404, dims := [(0x100, 4)], reset := 0x400, ro := 0x1F0F } /- LN_STATUS ethTx -/,
  { base := 0x100A8408, dims := [(0x100, 4)], reset := 0x0, w1c := 0x40 } /- LN_FLAGS ethTx -/,
  { base := 0x100A840C, dims := [(0x100, 4)], reset := 0x0, rw := 0x1FF } /- LN_IRQ_EN ethTx -/,
  { base := 0x100A8410, dims := [(0x100, 4)], reset := 0x0 } /- LN_CODE_ERR ethTx -/,
  { base := 0x100A8414, dims := [(0x100, 4)], reset := 0x0 } /- LN_DISP_ERR ethTx -/,
  { base := 0x100A8418, dims := [(0x100, 4)], reset := 0x0 } /- LN_ALIGN_LOSS ethTx -/,
  { base := 0x100A841C, dims := [(0x100, 4)], reset := 0x0 } /- LN_LOCK_LOSS ethTx -/,
  { base := 0x100A8420, dims := [(0x100, 4)], reset := 0x0 } /- LN_EYE ethTx -/,
  { base := 0x100A8424, dims := [(0x100, 4)], reset := 0x0 } /- LN_EYE_CTRL ethTx -/,
  { base := 0x100A842C, dims := [(0x100, 4)], reset := 0x0 } /- LN_TRAIN_CTRL ethTx -/,
  { base := 0x100A8430, dims := [(0x100, 4)], reset := 0x0 } /- LN_FAR_TAPS ethTx -/,
  { base := 0x100A8434, dims := [(0x100, 4)], reset := 0x0 } /- LN_PRBS_ERR ethTx -/,
  { base := 0x100A8440, dims := [(0x100, 4)], reset := 0x0 } /- LN_TX_TAPS ethTx -/]

/-- Register rows of the ETH block. -/
def mapETH : List RegDesc := mapETH0 ++ mapETH1

/-- Register rows of the PAIR block. -/
def mapPAIR : List RegDesc := [
  { base := 0x100D0000, dims := [], reset := 0x40, rws := 0xEC00FFFF } /- PAIR_CFG -/,
  { base := 0x100D0004, dims := [], reset := 0x7D00064, rws := 0xFFFFFFFF } /- PAIR_TIMING -/,
  { base := 0x100D0008, dims := [], reset := 0x0, ro := 0xFFFF003F } /- PAIR_STATUS -/,
  { base := 0x100D000C, dims := [], reset := 0x0, w1s := 0x3 } /- PAIR_CTRL -/,
  { base := 0x100D0010, dims := [], reset := 0x0, w1c := 0x3FF } /- PAIR_FLAGS -/,
  { base := 0x100D0014, dims := [], reset := 0x0, rw := 0x3FF } /- PAIR_IRQ_EN -/,
  { base := 0x100D0030, dims := [], reset := 0x0, rws := 0xEF000000 } /- PAIR_CHAIN -/,
  { base := 0x100D0018, dims := [], reset := 0x0, ro := 0xFFFFFFFF } /- PAIR_DIGEST_LO -/,
  { base := 0x100D001C, dims := [], reset := 0x0, ro := 0xFFFFFFFF } /- PAIR_DIGEST_HI -/,
  { base := 0x100D0020, dims := [], reset := 0x0, ro := 0xFFFFFFFF } /- PAIR_PDIGEST_LO -/,
  { base := 0x100D0024, dims := [], reset := 0x0, ro := 0xFFFFFFFF } /- PAIR_PDIGEST_HI -/,
  { base := 0x100D0028, dims := [], reset := 0x0, ro := 0xFFFFFFFF } /- PAIR_DIG_CYCLE -/,
  { base := 0x100D002C, dims := [], reset := 0x0, ro := 0xFFFFFFFF } /- PAIR_LOSS -/,
  { base := 0x100D0034, dims := [], reset := 0x0, rws := 0x7FFFF } /- PAIR_GRID_BASE -/,
  { base := 0x100D0038, dims := [], reset := 0x0, rws := 0x7FFFF } /- PAIR_OWN_LO -/,
  { base := 0x100D003C, dims := [], reset := 0x0, rws := 0x7FFFF } /- PAIR_OWN_HI -/,
  { base := 0x100D0040, dims := [], reset := 0x0, rws := 0xFFFF } /- PAIR_SLACK -/,
  { base := 0x100D0050, dims := [], reset := 0x0, rc := 0xFFFFFFFF } /- PAIR_CYCLES_OK -/,
  { base := 0x100D0054, dims := [], reset := 0x0, rc := 0xFFFFFFFF } /- PAIR_MISMATCH -/,
  { base := 0x100D0058, dims := [], reset := 0x0, rc := 0xFFFFFFFF } /- PAIR_TAKEOVERS -/,
  { base := 0x100D005C, dims := [], reset := 0x0, rc := 0xFFFFFFFF } /- PAIR_LATE_COMMIT -/,
  { base := 0x100D0060, dims := [], reset := 0x0, rc := 0xFFFFFFFF } /- PAIR_ITEMS_TX -/,
  { base := 0x100D0064, dims := [], reset := 0x0, rc := 0xFFFFFFFF } /- PAIR_ITEMS_RX -/,
  { base := 0x100D0068, dims := [], reset := 0x0, rc := 0xFFFFFFFF } /- PAIR_ITEM_LATE -/,
  { base := 0x100D006C, dims := [], reset := 0x0, rc := 0xFFFFFFFF } /- CHAIN_FWD_TX -/,
  { base := 0x100D0070, dims := [], reset := 0x0, rc := 0xFFFFFFFF } /- CHAIN_FWD_RX -/,
  { base := 0x100D0074, dims := [], reset := 0x0, rc := 0xFFFFFFFF } /- CHAIN_FWD_DROP -/,
  { base := 0x100D0078, dims := [], reset := 0x0, rc := 0xFFFFFFFF } /- CHAIN_NOT_OWNED -/,
  { base := 0x100D007C, dims := [], reset := 0x0, rc := 0xFFFFFFFF } /- CHAIN_SHARED -/,
  { base := 0x100D0100, dims := [(0x10, 16)], reset := 0x0, rws := 0xEFF00000 } /- PAIR_FWDk_CFG -/,
  { base := 0x100D0104, dims := [(0x10, 16)], reset := 0x0, rws := 0x7FFFF } /- PAIR_FWDk_XLO -/,
  { base := 0x100D0108, dims := [(0x10, 16)], reset := 0x0, rws := 0x7FFFF } /- PAIR_FWDk_XHI -/,
  { base := 0x100D010C, dims := [(0x10, 16)], reset := 0x0, rws := 0xFFFFFF } /- PAIR_FWDk_LEAD -/,
  { base := 0x100D0200, dims := [(0x4, 16)], reset := 0x0, rws := 0xFC00FF00 } /- PAIR_ROUTEd -/]

/-- Register rows of the PEER block. -/
def mapPEER : List RegDesc := [
  { base := 0x100E0000, dims := [(0x4000, 3)], reset := 0x0, rws := 0xC0000000 } /- PEERn_CFG -/,
  { base := 0x100E0004, dims := [(0x4000, 3)], reset := 0x0, ro := 0xF000000F } /- PEERn_STATUS -/,
  { base := 0x100E0008, dims := [(0x4000, 3)], reset := 0x0, w1c := 0x7F } /- PEERn_FLAGS -/,
  { base := 0x100E000C, dims := [(0x4000, 3)], reset := 0x0, rw := 0x7F } /- PEERn_IRQ_EN -/,
  { base := 0x100E0010, dims := [(0x4000, 3)], reset := 0x0, rc := 0xFFFFFFFF } /- PEERn_FRAMES_TX -/,
  { base := 0x100E0014, dims := [(0x4000, 3)], reset := 0x0, rc := 0xFFFFFFFF } /- PEERn_FRAMES_RX -/,
  { base := 0x100E0018, dims := [(0x4000, 3)], reset := 0x0, rc := 0xFFFFFFFF } /- PEERn_CRC_ERR -/,
  { base := 0x100E001C, dims := [(0x4000, 3)], reset := 0x0, rc := 0xFFFFFFFF } /- PEERn_SEQ_GAP -/,
  { base := 0x100E0020, dims := [(0x4000, 3)], reset := 0x0, rc := 0xFFFFFFFF } /- PEERn_RETX -/,
  { base := 0x100E0024, dims := [(0x4000, 3)], reset := 0x0, rc := 0xFFFFFFFF } /- PEERn_LINK_LOSS -/,
  { base := 0x100E0028, dims := [(0x4000, 3)], reset := 0x0, rc := 0xFFFFFFFF } /- PEERn_HOPS_DROP -/,
  { base := 0x100E002C, dims := [(0x4000, 3)], reset := 0x0, ro := 0xFFFF } /- PEERn_DELAY -/,
  { base := 0x100E2000, dims := [(0x4000, 3), (0x100, 2)], reset := 0x400, rw := 0xF23, w1s := 0x8000 } /- LN_CTRL peerRx -/,
  { base := 0x100E2004, dims := [(0x4000, 3), (0x100, 2)], reset := 0x300, ro := 0x1F0F } /- LN_STATUS peerRx -/,
  { base := 0x100E2008, dims := [(0x4000, 3), (0x100, 2)], reset := 0x0, w1c := 0x1BF } /- LN_FLAGS peerRx -/,
  { base := 0x100E200C, dims := [(0x4000, 3), (0x100, 2)], reset := 0x0, rw := 0x1FF } /- LN_IRQ_EN peerRx -/,
  { base := 0x100E2010, dims := [(0x4000, 3), (0x100, 2)], reset := 0x0, rc := 0xFFFFFFFF } /- LN_CODE_ERR peerRx -/,
  { base := 0x100E2014, dims := [(0x4000, 3), (0x100, 2)], reset := 0x0, rc := 0xFFFFFFFF } /- LN_DISP_ERR peerRx -/,
  { base := 0x100E2018, dims := [(0x4000, 3), (0x100, 2)], reset := 0x0, rc := 0xFFFFFFFF } /- LN_ALIGN_LOSS peerRx -/,
  { base := 0x100E201C, dims := [(0x4000, 3), (0x100, 2)], reset := 0x0, rc := 0xFFFFFFFF } /- LN_LOCK_LOSS peerRx -/,
  { base := 0x100E2020, dims := [(0x4000, 3), (0x100, 2)], reset := 0x0, ro := 0xFFFF03FF } /- LN_EYE peerRx -/,
  { base := 0x100E2024, dims := [(0x4000, 3), (0x100, 2)], reset := 0x3C1800, rw := 0x3FF7FFF } /- LN_EYE_CTRL peerRx -/,
  { base := 0x100E202C, dims := [(0x4000, 3), (0x100, 2)], reset := 0x4022, rw := 0xFFF3 } /- LN_TRAIN_CTRL peerRx -/,
  { base := 0x100E2030, dims := [(0x4000, 3), (0x100, 2)], reset := 0x0, ro := 0x807FFF00 } /- LN_FAR_TAPS peerRx -/,
  { base := 0x100E2034, dims := [(0x4000, 3), (0x100, 2)], reset := 0x0, rc := 0xFFFFFFFF } /- LN_PRBS_ERR peerRx -/,
  { base := 0x100E2040, dims := [(0x4000, 3), (0x100, 2)], reset := 0x0 } /- LN_TX_TAPS peerRx -/,
  { base := 0x100E2400, dims := [(0x4000, 3), (0x100, 2)], reset := 0x0, rw := 0x323 } /- LN_CTRL peerTx -/,
  { base := 0x100E2404, dims := [(0x4000, 3), (0x100, 2)], reset := 0x300, ro := 0x1F0F } /- LN_STATUS peerTx -/,
  { base := 0x100E2408, dims := [(0x4000, 3), (0x100, 2)], reset := 0x0, w1c := 0x40 } /- LN_FLAGS peerTx -/,
  { base := 0x100E240C, dims := [(0x4000, 3), (0x100, 2)], reset := 0x0, rw := 0x1FF } /- LN_IRQ_EN peerTx -/,
  { base := 0x100E2410, dims := [(0x4000, 3), (0x100, 2)], reset := 0x0 } /- LN_CODE_ERR peerTx -/,
  { base := 0x100E2414, dims := [(0x4000, 3), (0x100, 2)], reset := 0x0 } /- LN_DISP_ERR peerTx -/,
  { base := 0x100E2418, dims := [(0x4000, 3), (0x100, 2)], reset := 0x0 } /- LN_ALIGN_LOSS peerTx -/,
  { base := 0x100E241C, dims := [(0x4000, 3), (0x100, 2)], reset := 0x0 } /- LN_LOCK_LOSS peerTx -/,
  { base := 0x100E2420, dims := [(0x4000, 3), (0x100, 2)], reset := 0x0 } /- LN_EYE peerTx -/,
  { base := 0x100E2424, dims := [(0x4000, 3), (0x100, 2)], reset := 0x0 } /- LN_EYE_CTRL peerTx -/,
  { base := 0x100E242C, dims := [(0x4000, 3), (0x100, 2)], reset := 0x0 } /- LN_TRAIN_CTRL peerTx -/,
  { base := 0x100E2430, dims := [(0x4000, 3), (0x100, 2)], reset := 0x0 } /- LN_FAR_TAPS peerTx -/,
  { base := 0x100E2434, dims := [(0x4000, 3), (0x100, 2)], reset := 0x0 } /- LN_PRBS_ERR peerTx -/,
  { base := 0x100E2440, dims := [(0x4000, 3), (0x100, 2)], reset := 0x7E0000, rw := 0x7FFF00 } /- LN_TX_TAPS peerTx -/]

/-- Register rows of the CP block, part 0. -/
def mapCP0 : List RegDesc := [
  { base := 0x20000000, dims := [(0x10000, 12)], reset := 0x4, rws := 0x1F1F } /- CPn_CFG -/,
  { base := 0x20000004, dims := [(0x10000, 12)], reset := 0x0, rws := 0x3F3F3F3F } /- CPn_HEAD_MAP -/,
  { base := 0x20000008, dims := [(0x10000, 12)], reset := 0x3E80019, rws := 0xFFFF03FF } /- CPn_TRIG_CTRL -/,
  { base := 0x2000000C, dims := [(0x10000, 12)], reset := 0x0, rws := 0xFFFFFF } /- CPn_BC_DELAY -/,
  { base := 0x20000010, dims := [(0x10000, 12)], reset := 0x0, w1s := 0x1 } /- CPn_LINK_CTRL -/,
  { base := 0x20000014, dims := [(0x10000, 12)], reset := 0x0, ro := 0xF30F } /- CPn_STATUS -/,
  { base := 0x20000018, dims := [(0x10000, 12)], reset := 0x0, w1c := 0xFFFF } /- CPn_FLAGS -/,
  { base := 0x2000001C, dims := [(0x10000, 12)], reset := 0x0, rw := 0xFFFF } /- CPn_IRQ_EN -/,
  { base := 0x20000020, dims := [(0x10000, 12)], reset := 0x0, rc := 0xFFFFFFFF } /- CPn_LINES_OK -/,
  { base := 0x20000024, dims := [(0x10000, 12)], reset := 0x0, rc := 0xFFFFFFFF } /- CPn_LINES_LOST -/,
  { base := 0x20000028, dims := [(0x10000, 12)], reset := 0x0, rc := 0xFFFFFFFF } /- CPn_CRC_ERR -/,
  { base := 0x2000002C, dims := [(0x10000, 12)], reset := 0x0, rc := 0xFFFFFFFF } /- CPn_HDR_ERR -/,
  { base := 0x20000030, dims := [(0x10000, 12)], reset := 0x0, rc := 0xFFFFFFFF } /- CPn_FRAME_ERR -/,
  { base := 0x20000034, dims := [(0x10000, 12)], reset := 0x0, rc := 0xFFFFFFFF } /- CPn_DUP -/,
  { base := 0x20000038, dims := [(0x10000, 12)], reset := 0x0, rc := 0xFFFFFFFF } /- CPn_OVF -/,
  { base := 0x2000003C, dims := [(0x10000, 12)], reset := 0x0, rc := 0xFFFFFFFF } /- CPn_ABORTS -/,
  { base := 0x20000040, dims := [(0x10000, 12)], reset := 0x0, rc := 0xFFFFFFFF } /- CPn_SET_MISMATCH -/,
  { base := 0x20000044, dims := [(0x10000, 12)], reset := 0x0, rc := 0xFFFFFFFF } /- CPn_DESKEW_ERR -/,
  { base := 0x20000048, dims := [(0x10000, 12)], reset := 0x0, rc := 0x1FFFF } /- CPn_BUF_HWM -/,
  { base := 0x2000004C, dims := [(0x10000, 12)], reset := 0x0, ro := 0xFFFFFF00 } /- CPn_SKEW -/,
  { base := 0x20000050, dims := [(0x10000, 12)], reset := 0x80008000, ro := 0xFFFFFFFF } /- CPn_TEMP01 -/,
  { base := 0x20000054, dims := [(0x10000, 12)], reset := 0x80008000, ro := 0xFFFFFFFF } /- CPn_TEMP23 -/,
  { base := 0x20000058, dims := [(0x10000, 12)], reset := 0x0, ro := 0xFFFFFFFF } /- CPn_CAM_EVENT -/,
  { base := 0x20000060, dims := [(0x10000, 12)], reset := 0x0, rw := 0xFFFFFFFF } /- CPn_EXP_LINE -/,
  { base := 0x20000064, dims := [(0x10000, 12)], reset := 0x0, rw := 0xFFFFFFFF } /- CPn_EXP_TIME -/,
  { base := 0x20000068, dims := [(0x10000, 12)], reset := 0x0, rw := 0xFFFFFFFF } /- CPn_EXP_SET -/,
  { base := 0x2000006C, dims := [(0x10000, 12)], reset := 0x0, rw := 0x3, ro := 0x80000000, w1s := 0x100 } /- CPn_EXP_CMD -/,
  { base := 0x20000070, dims := [(0x10000, 12)], reset := 0x0, ro := 0xFFFFFFFF } /- CPn_SETTINGS01 -/,
  { base := 0x20000074, dims := [(0x10000, 12)], reset := 0x0, ro := 0xFFFFFFFF } /- CPn_SETTINGS23 -/,
  { base := 0x20000080, dims := [(0x10000, 12)], reset := 0x100, rw := 0x1F10, ro := 0xF0FF0000, w1s := 0x1 } /- CPn_CTL_CMD -/,
  { base := 0x20000084, dims := [(0x10000, 12)], reset := 0x0, rw := 0xFFFFFFFF } /- CPn_CTL_ADDR -/,
  { base := 0x200000C0, dims := [(0x10000, 12), (0x4, 16)], reset := 0x0, rw := 0xFFFFFFFF } /- CPn_CTL_DATAk -/,
  { base := 0x20008000, dims := [(0x10000, 12), (0x100, 4)], reset := 0x400, rw := 0xF23, w1s := 0x8000 } /- LN_CTRL cpRx -/,
  { base := 0x20008004, dims := [(0x10000, 12), (0x100, 4)], reset := 0x100, ro := 0x1F0F } /- LN_STATUS cpRx -/,
  { base := 0x20008008, dims := [(0x10000, 12), (0x100, 4)], reset := 0x0, w1c := 0x1BF } /- LN_FLAGS cpRx -/,
  { base := 0x2000800C, dims := [(0x10000, 12), (0x100, 4)], reset := 0x0, rw := 0x1FF } /- LN_IRQ_EN cpRx -/,
  { base := 0x20008010, dims := [(0x10000, 12), (0x100, 4)], reset := 0x0, rc := 0xFFFFFFFF } /- LN_CODE_ERR cpRx -/,
  { base := 0x20008014, dims := [(0x10000, 12), (0x100, 4)], reset := 0x0, rc := 0xFFFFFFFF } /- LN_DISP_ERR cpRx -/,
  { base := 0x20008018, dims := [(0x10000, 12), (0x100, 4)], reset := 0x0, rc := 0xFFFFFFFF } /- LN_ALIGN_LOSS cpRx -/,
  { base := 0x2000801C, dims := [(0x10000, 12), (0x100, 4)], reset := 0x0, rc := 0xFFFFFFFF } /- LN_LOCK_LOSS cpRx -/]

/-- Register rows of the CP block, part 1. -/
def mapCP1 : List RegDesc := [
  { base := 0x20008020, dims := [(0x10000, 12), (0x100, 4)], reset := 0x0, ro := 0xFFFF03FF } /- LN_EYE cpRx -/,
  { base := 0x20008024, dims := [(0x10000, 12), (0x100, 4)], reset := 0x3C1800, rw := 0x3FF7FFF } /- LN_EYE_CTRL cpRx -/,
  { base := 0x2000802C, dims := [(0x10000, 12), (0x100, 4)], reset := 0x4022, rw := 0xFFF3 } /- LN_TRAIN_CTRL cpRx -/,
  { base := 0x20008030, dims := [(0x10000, 12), (0x100, 4)], reset := 0x0, ro := 0x807FFF00 } /- LN_FAR_TAPS cpRx -/,
  { base := 0x20008034, dims := [(0x10000, 12), (0x100, 4)], reset := 0x0, rc := 0xFFFFFFFF } /- LN_PRBS_ERR cpRx -/,
  { base := 0x20008040, dims := [(0x10000, 12), (0x100, 4)], reset := 0x0 } /- LN_TX_TAPS cpRx -/,
  { base := 0x20008400, dims := [(0x10000, 12)], reset := 0x0, rw := 0x323 } /- LN_CTRL cpBc -/,
  { base := 0x20008404, dims := [(0x10000, 12)], reset := 0x0, ro := 0x1F0F } /- LN_STATUS cpBc -/,
  { base := 0x20008408, dims := [(0x10000, 12)], reset := 0x0, w1c := 0x40 } /- LN_FLAGS cpBc -/,
  { base := 0x2000840C, dims := [(0x10000, 12)], reset := 0x0, rw := 0x1FF } /- LN_IRQ_EN cpBc -/,
  { base := 0x20008410, dims := [(0x10000, 12)], reset := 0x0 } /- LN_CODE_ERR cpBc -/,
  { base := 0x20008414, dims := [(0x10000, 12)], reset := 0x0 } /- LN_DISP_ERR cpBc -/,
  { base := 0x20008418, dims := [(0x10000, 12)], reset := 0x0 } /- LN_ALIGN_LOSS cpBc -/,
  { base := 0x2000841C, dims := [(0x10000, 12)], reset := 0x0 } /- LN_LOCK_LOSS cpBc -/,
  { base := 0x20008420, dims := [(0x10000, 12)], reset := 0x0 } /- LN_EYE cpBc -/,
  { base := 0x20008424, dims := [(0x10000, 12)], reset := 0x0 } /- LN_EYE_CTRL cpBc -/,
  { base := 0x2000842C, dims := [(0x10000, 12)], reset := 0x0 } /- LN_TRAIN_CTRL cpBc -/,
  { base := 0x20008430, dims := [(0x10000, 12)], reset := 0x0 } /- LN_FAR_TAPS cpBc -/,
  { base := 0x20008434, dims := [(0x10000, 12)], reset := 0x0 } /- LN_PRBS_ERR cpBc -/,
  { base := 0x20008440, dims := [(0x10000, 12)], reset := 0x7E0000, rw := 0x7FFF00 } /- LN_TX_TAPS cpBc -/]

/-- Register rows of the CP block. -/
def mapCP : List RegDesc := mapCP0 ++ mapCP1

/-- Register rows of the CX block. -/
def mapCX : List RegDesc := [
  { base := 0x20100000, dims := [(0x1000, 48)], reset := 0x0, rws := 0xFFFFFFFF } /- CXn_FMT -/,
  { base := 0x20100004, dims := [(0x1000, 48)], reset := 0x94000000, rws := 0xFF0F101E } /- CXn_CFG -/,
  { base := 0x20100008, dims := [(0x1000, 48)], reset := 0x3C, rws := 0x3FF } /- CXn_LAT -/,
  { base := 0x2010000C, dims := [(0x1000, 48)], reset := 0x0, rws := 0xFFFF } /- CXn_PED -/,
  { base := 0x20100010, dims := [(0x1000, 48)], reset := 0x0, rws := 0xFFFFF } /- CXn_TBL -/,
  { base := 0x20100014, dims := [(0x1000, 48)], reset := 0x80000000, rws := 0xFFFFFFFF } /- CXn_GI -/,
  { base := 0x20100018, dims := [(0x1000, 48)], reset := 0x1F1F1F1F, rws := 0x1F1F1F1F } /- CXn_LIN0 -/,
  { base := 0x2010001C, dims := [(0x1000, 48)], reset := 0x1F1F1F1F, rws := 0x1F1F1F1F } /- CXn_LIN1 -/,
  { base := 0x20100020, dims := [(0x1000, 48), (0x4, 8)], reset := 0x0, rws := 0xFFFFFFFF } /- CXn_XTALKs -/,
  { base := 0x20100040, dims := [(0x1000, 48), (0x10, 8), (0x4, 4)], reset := 0x0, rws := 0xFFFFFFFF } /- CXn_MATo_k -/,
  { base := 0x201000C0, dims := [(0x1000, 48)], reset := 0x0, rws := 0xFFFF0000, w1s := 0x1 } /- CXn_STAT_CTRL -/,
  { base := 0x201000C4, dims := [(0x1000, 48)], reset := 0x0, ro := 0x80FFFFFF, w1c := 0x40000000 } /- CXn_STAT_STATUS -/,
  { base := 0x201000C8, dims := [(0x1000, 48)], reset := 0x0, ro := 0xFFFFFFFF } /- CXn_STAT_LINES -/,
  { base := 0x201000D0, dims := [(0x1000, 48)], reset := 0x0, rc := 0xFFFFFFFF } /- CXn_LINES_DONE -/,
  { base := 0x201000D4, dims := [(0x1000, 48)], reset := 0x0, rc := 0xFFFFFFFF } /- CXn_LINES_LATE -/,
  { base := 0x201000D8, dims := [(0x1000, 48)], reset := 0x0, rc := 0xFFFFFFFF } /- CXn_DEFECT_UNRES -/,
  { base := 0x201000DC, dims := [(0x1000, 48)], reset := 0x0, rc := 0xFFFFFFFF } /- CXn_CLIP -/,
  { base := 0x20100100, dims := [(0x1000, 48), (0x10, 8)], reset := 0x0, ro := 0xFFFFFFFF } /- CXn_STAT_SUMLO_b -/,
  { base := 0x20100104, dims := [(0x1000, 48), (0x10, 8)], reset := 0x0, ro := 0xFFFF } /- CXn_STAT_SUMHI_b -/,
  { base := 0x20100108, dims := [(0x1000, 48), (0x10, 8)], reset := 0x0, ro := 0xFFFFFFFF } /- CXn_STAT_MINMAX_b -/]

/-- Register rows of the PIPE block. -/
def mapPIPE : List RegDesc := [
  { base := 0x20200000, dims := [], reset := 0x0, ro := 0xFF } /- PIPE_STATUS -/,
  { base := 0x20200004, dims := [], reset := 0x0, ro := 0xFF } /- PIPE_WAIT -/,
  { base := 0x20200008, dims := [], reset := 0x0, rc := 0xFF } /- PIPE_WAIT_HWM -/,
  { base := 0x2020000C, dims := [], reset := 0x0, rc := 0xFFFFFFFF } /- PIPE_LATE_START -/,
  { base := 0x20200010, dims := [], reset := 0x0, rw := 0x3F } /- PIPE_STAT_SEL -/]

/-- Register rows of the CAL block. -/
def mapCAL : List RegDesc := [
  { base := 0x20300000, dims := [], reset := 0x10128400, rws := 0xFFF7FF01 } /- CAL_CTRL -/,
  { base := 0x20300004, dims := [], reset := 0x3C02580C, rws := 0xFFFFFFFF } /- CAL_TRIG -/,
  { base := 0x20300008, dims := [], reset := 0x0, rws := 0xFF800000 } /- CAL_DRAM_BASE -/,
  { base := 0x2030000C, dims := [], reset := 0x0, rws := 0xFF } /- CAL_DRAM_BASE_HI -/,
  { base := 0x20300010, dims := [], reset := 0x0, rw := 0x3F, w1s := 0xC0000000 } /- CAL_RUN -/,
  { base := 0x20300014, dims := [], reset := 0x0, rw := 0xFFFFFFFF } /- CAL_RUN_LINE -/,
  { base := 0x20300018, dims := [], reset := 0x0, ro := 0xE03F000F } /- CAL_STATUS -/,
  { base := 0x2030001C, dims := [], reset := 0x0, w1c := 0xFF } /- CAL_FLAGS -/,
  { base := 0x20300020, dims := [], reset := 0x0, rw := 0xFF } /- CAL_IRQ_EN -/,
  { base := 0x20300024, dims := [], reset := 0x0, ro := 0xFFFFFFFF } /- CAL_DUE_LO -/,
  { base := 0x20300028, dims := [], reset := 0x0, ro := 0xFFFF } /- CAL_DUE_HI -/,
  { base := 0x2030002C, dims := [], reset := 0x0, ro := 0x1FFFF } /- CAL_PENDING -/,
  { base := 0x20300040, dims := [], reset := 0x0, rc := 0xFFFFFFFF } /- CAL_RUNS_OK -/,
  { base := 0x20300044, dims := [], reset := 0x0, rc := 0xFFFFFFFF } /- CAL_TIMEOUTS -/,
  { base := 0x20300048, dims := [], reset := 0x0, rc := 0xFFFFFFFF } /- CAL_ABANDONED -/,
  { base := 0x2030004C, dims := [], reset := 0x0, rc := 0xFFFFFFFF } /- CAL_SKIPPED -/,
  { base := 0x20300050, dims := [], reset := 0x0, rc := 0xFFFFFFFF } /- CAL_REJECT_BP -/,
  { base := 0x20300054, dims := [], reset := 0x0, rc := 0xFFFFFFFF } /- CAL_DELTA_SAT -/,
  { base := 0x20301000, dims := [(0x40, 48)], reset := 0xFFFF0000, rws := 0xFFFF0003 } /- CAL_Cn_CFG -/,
  { base := 0x20301004, dims := [(0x40, 48)], reset := 0x0, rws := 0x1FFF1FFF } /- CAL_Cn_RANGE -/,
  { base := 0x20301008, dims := [(0x40, 48)], reset := 0x0, rws := 0x1FFF1FFF } /- CAL_Cn_DARK -/,
  { base := 0x2030100C, dims := [(0x40, 48), (0x4, 4)], reset := 0x0, rws := 0xFFFFFFFF } /- CAL_Cn_TGTk -/,
  { base := 0x2030101C, dims := [(0x40, 48)], reset := 0x0, ro := 0xFFFFFFFF } /- CAL_Cn_SETT01 -/,
  { base := 0x20301020, dims := [(0x40, 48)], reset := 0x0, ro := 0xFFFFFFFF } /- CAL_Cn_SETT23 -/,
  { base := 0x20301024, dims := [(0x40, 48)], reset := 0x80000000, ro := 0xFFFF001F } /- CAL_Cn_SETS -/,
  { base := 0x20301028, dims := [(0x40, 48)], reset := 0x0, ro := 0xFFFFFFFF } /- CAL_Cn_RESID -/,
  { base := 0x2030102C, dims := [(0x40, 48)], reset := 0x0, ro := 0xF3000003 } /- CAL_Cn_RESULT -/,
  { base := 0x20301030, dims := [(0x40, 48)], reset := 0x0, ro := 0xFFFFFFFF } /- CAL_Cn_LAST -/,
  { base := 0x20301034, dims := [(0x40, 48)], reset := 0x8000, ro := 0xFFFF } /- CAL_Cn_TR -/]

/-- Register rows of the GEO block. -/
def mapGEO : List RegDesc := [
  { base := 0x30000000, dims := [], reset := 0x0, w1c := 0xFF } /- GEO_FLAGS -/,
  { base := 0x30000004, dims := [], reset := 0x0, rw := 0xFF } /- GEO_IRQ_EN -/,
  { base := 0x30000100, dims := [(0x40, 4)], reset := 0x0, rws := 0x770FFFF } /- GEO_Vv_CFG -/,
  { base := 0x30000104, dims := [(0x40, 4)], reset := 0x50, rws := 0x3FF } /- GEO_Vv_LAT -/,
  { base := 0x30000108, dims := [(0x40, 4), (0x4, 7)], reset := 0x0, rws := 0xFFFF7FFF } /- GEO_Vv_BNDk -/,
  { base := 0x30000124, dims := [(0x40, 4)], reset := 0xA003210, rws := 0x9F007777 } /- GEO_Vv_HIST -/,
  { base := 0x30000128, dims := [(0x40, 4)], reset := 0x0, rws := 0xFFFFF000 } /- GEO_Vv_HIST_BASE -/,
  { base := 0x3000012C, dims := [(0x40, 4)], reset := 0x0, rws := 0xFF } /- GEO_Vv_HIST_BASE_HI -/,
  { base := 0x30000130, dims := [(0x40, 4)], reset := 0x0, rc := 0xFFFFFFFF } /- GEO_Vv_LINES -/,
  { base := 0x30000134, dims := [(0x40, 4)], reset := 0x0, rc := 0xFFFFFFFF } /- GEO_Vv_LOST -/,
  { base := 0x30000138, dims := [(0x40, 4)], reset := 0x0, rc := 0xFFFFFFFF } /- GEO_Vv_HIST_DROP -/,
  { base := 0x30001000, dims := [(0x20, 48)], reset := 0x0, rws := 0x77B } /- GEO_Cn_CFG -/,
  { base := 0x30001004, dims := [(0x20, 48)], reset := 0xFFFFFFFF, rws := 0xFFFFFFFF } /- GEO_Cn_BAND -/,
  { base := 0x30001008, dims := [(0x20, 48)], reset := 0x0, rws := 0xFFFFFFFF } /- GEO_Cn_DELAY -/,
  { base := 0x3000100C, dims := [(0x20, 48)], reset := 0x0, rws := 0xFFFFFFFF } /- GEO_Cn_C0 -/,
  { base := 0x30001010, dims := [(0x20, 48)], reset := 0x10000000, rws := 0xFFFFFFFF } /- GEO_Cn_C1 -/,
  { base := 0x30001014, dims := [(0x20, 48)], reset := 0x0, rws := 0xFFFFFFFF } /- GEO_Cn_C2 -/,
  { base := 0x30001018, dims := [(0x20, 48)], reset := 0x0, rws := 0xFFFFFFFF } /- GEO_Cn_C3 -/,
  { base := 0x3000101C, dims := [(0x20, 48)], reset := 0xFFFFFFFF, ro := 0xFFFFFFFF } /- GEO_Cn_COVER -/]

/-- Register rows of the SEG block. -/
def mapSEG : List RegDesc := [
  { base := 0x30100000, dims := [(0x10000, 4)], reset := 0x10AAA, rws := 0x70FFF } /- SEGv_CFG -/,
  { base := 0x30100004, dims := [(0x10000, 4)], reset := 0x0, rws := 0xFFFFFFFF } /- SEGv_OFF01 -/,
  { base := 0x30100008, dims := [(0x10000, 4)], reset := 0x0, rws := 0xFFFF } /- SEGv_OFF2 -/,
  { base := 0x30100010, dims := [(0x10000, 4), (0x10, 3), (0x4, 4)], reset := 0x0, rws := 0xFFFFFFFF } /- SEGv_MATk_m -/,
  { base := 0x30100040, dims := [(0x10000, 4)], reset := 0x0, w1c := 0x1F } /- SEGv_FLAGS -/,
  { base := 0x30100044, dims := [(0x10000, 4)], reset := 0x0, rw := 0x1F } /- SEGv_IRQ_EN -/,
  { base := 0x30100048, dims := [(0x10000, 4)], reset := 0x0, ro := 0x1FFF, rc := 0x1FFF0000 } /- SEGv_OPEN -/,
  { base := 0x3010004C, dims := [(0x10000, 4)], reset := 0x0, ro := 0xFFFFFFFF } /- SEGv_NEXT_ID -/,
  { base := 0x30100050, dims := [(0x10000, 4)], reset := 0x0, rc := 0xFFFFFFFF } /- SEGv_LINES -/,
  { base := 0x30100054, dims := [(0x10000, 4)], reset := 0x0, rc := 0xFFFFFFFF } /- SEGv_RUNLIM_LINES -/,
  { base := 0x30100058, dims := [(0x10000, 4)], reset := 0x0, rc := 0xFFFFFFFF } /- SEGv_CELLS_EXCL -/,
  { base := 0x3010005C, dims := [(0x10000, 4)], reset := 0x0, rc := 0xFFFFFFFF } /- SEGv_OBJ_OPENED -/,
  { base := 0x30100060, dims := [(0x10000, 4)], reset := 0x0, rc := 0xFFFFFFFF } /- SEGv_OBJ_CLOSED -/,
  { base := 0x30100064, dims := [(0x10000, 4)], reset := 0x0, rc := 0xFFFFFFFF } /- SEGv_OBJ_REFUSED -/,
  { base := 0x30100068, dims := [(0x10000, 4)], reset := 0x0, rc := 0xFFFFFFFF } /- SEGv_OBJ_MERGES -/,
  { base := 0x3010006C, dims := [(0x10000, 4)], reset := 0x0, rc := 0xFFFFFFFF } /- SEGv_OVERSIZE -/,
  { base := 0x30100070, dims := [(0x10000, 4)], reset := 0x0, rc := 0xFFFFFFFF } /- SEGv_GAP_CLOSES -/]

/-- Register rows of the BSN block. -/
def mapBSN : List RegDesc := [
  { base := 0x30200000, dims := [], reset := 0x4001000, rws := 0x7FF1FFF } /- BSN_CFG -/,
  { base := 0x30200004, dims := [], reset := 0x40080, rws := 0x3F00FF } /- BSN_SIGHT -/,
  { base := 0x30200008, dims := [], reset := 0x0, w1c := 0x3 } /- BSN_FLAGS -/,
  { base := 0x3020000C, dims := [], reset := 0x0, rw := 0x3 } /- BSN_IRQ_EN -/,
  { base := 0x30200010, dims := [(0x4, 2)], reset := 0x0, ro := 0xFFFFFFFF } /- BSN_NEXT_h -/,
  { base := 0x30200018, dims := [], reset := 0x0, rc := 0xFFFFFFFF } /- BSN_PAUSE -/,
  { base := 0x30200020, dims := [(0x4, 4)], reset := 0x0, ro := 0x1FFF, rc := 0x1FFF0000 } /- BSN_WAITv -/,
  { base := 0x30200040, dims := [(0x4, 2)], reset := 0x0, rc := 0xFFFFFFFF } /- BSN_PAIRED_h -/,
  { base := 0x30200048, dims := [(0x4, 2)], reset := 0x0, rc := 0xFFFFFFFF } /- BSN_SINGLE_h -/,
  { base := 0x30200050, dims := [(0x4, 2)], reset := 0x0, rc := 0xFFFFFFFF } /- BSN_SHARED_h -/,
  { base := 0x30200058, dims := [(0x4, 2)], reset := 0x0, rc := 0xFFFFFFFF } /- BSN_FORCED_h -/]

/-- Register rows of the FLY block. -/
def mapFLY : List RegDesc := [
  { base := 0x30300000, dims := [], reset := 0x2, rws := 0x3 } /- FLY_CFG -/,
  { base := 0x30300004, dims := [], reset := 0x0, rws := 0xFFFFFFFF } /- FLY_DUL -/,
  { base := 0x30300008, dims := [(0x4, 2)], reset := 0x0, rws := 0xFFFFFFFF } /- FLY_DLEr -/,
  { base := 0x30300010, dims := [], reset := 0x26520000, rws := 0xFFFFFFFF } /- FLY_GEFF -/,
  { base := 0x30300014, dims := [], reset := 0x3E80000, rws := 0xFFFFFFFF } /- FLY_VMIN -/,
  { base := 0x30300018, dims := [], reset := 0x1F400000, rws := 0xFFFFFFFF } /- FLY_VMAX -/,
  { base := 0x3030001C, dims := [], reset := 0x28000C0, rws := 0xFFFF00FF } /- FLY_MATCH -/,
  { base := 0x30300020, dims := [], reset := 0x1010400, rws := 0xFFFFFF00 } /- FLY_WEIGHT -/,
  { base := 0x30300024, dims := [], reset := 0x40, rws := 0xFFFF } /- FLY_SMARGIN -/,
  { base := 0x30300028, dims := [], reset := 0x40200, rws := 0xFFFFF } /- FLY_LANE -/,
  { base := 0x3030002C, dims := [], reset := 0xE100000, rws := 0xFFFFFFFF } /- FLY_VINIT -/,
  { base := 0x30300030, dims := [], reset := 0x0, ro := 0xFFFFFFFF } /- FLY_DT_MIN -/,
  { base := 0x30300034, dims := [], reset := 0x0, ro := 0xFFFFFFFF } /- FLY_DT_MAX -/,
  { base := 0x30300038, dims := [], reset := 0x0, ro := 0xFFFF } /- FLY_EXP -/,
  { base := 0x3030003C, dims := [], reset := 0x0, w1c := 0x3 } /- FLY_FLAGS -/,
  { base := 0x30300040, dims := [], reset := 0x0, rw := 0x3 } /- FLY_IRQ_EN -/,
  { base := 0x30300044, dims := [], reset := 0x0, ro := 0xFFFF, rc := 0xFFFF0000 } /- FLY_UPPER -/,
  { base := 0x30300050, dims := [], reset := 0x0, rc := 0xFFFFFFFF } /- FLY_MATCHED -/,
  { base := 0x30300054, dims := [], reset := 0x0, rc := 0xFFFFFFFF } /- FLY_AMBIGUOUS -/,
  { base := 0x30300058, dims := [], reset := 0x0, rc := 0xFFFFFFFF } /- FLY_UNMATCHED -/,
  { base := 0x3030005C, dims := [], reset := 0x0, rc := 0xFFFFFFFF } /- FLY_UPPER_ONLY -/,
  { base := 0x30300060, dims := [], reset := 0x0, rc := 0xFFFFFFFF } /- FLY_UPPER_DROP -/,
  { base := 0x30300064, dims := [], reset := 0x0, rc := 0xFFFFFFFF } /- FLY_UPPER_EVICT -/,
  { base := 0x30300100, dims := [(0x4, 64)], reset := 0xE100000, ro := 0xFFFFFFFF } /- FLY_LANEk_V -/]

/-- Register rows of the FOR block. -/
def mapFOR : List RegDesc := [
  { base := 0x40000000, dims := [], reset := 0x1000, rws := 0x71FF } /- FOR_CFG -/,
  { base := 0x40000004, dims := [], reset := 0x0, w1c := 0x3 } /- FOR_FLAGS -/,
  { base := 0x40000008, dims := [], reset := 0x0, rw := 0x3 } /- FOR_IRQ_EN -/,
  { base := 0x40000100, dims := [(0x4, 128)], reset := 0xC0000000, rws := 0xFFFFFFFF } /- FOR_FMAPi -/,
  { base := 0x40001000, dims := [(0x4, 256)], reset := 0x0, rws := 0x8001FFFF } /- FOR_TREEt -/,
  { base := 0x40000010, dims := [], reset := 0x0, rc := 0xFFFFFFFF } /- FOR_EVALS -/,
  { base := 0x40000014, dims := [], reset := 0x0, rc := 0xFFFFFFFF } /- FOR_ECC_CORR -/]

/-- Register rows of the CLA block. -/
def mapCLA : List RegDesc := [
  { base := 0x40100000, dims := [], reset := 0x0, rws := 0x3F3FFFFF } /- CLA_CFG -/,
  { base := 0x40100004, dims := [], reset := 0x80, rws := 0xFF } /- CLA_PAD -/,
  { base := 0x40100008, dims := [(0x4, 4)], reset := 0x0, rws := 0x8F8F8F8F } /- CLA_INm -/,
  { base := 0x40100018, dims := [], reset := 0x0, rw := 0x1, ro := 0x700 } /- CLA_POWER -/,
  { base := 0x4010001C, dims := [], reset := 0x0, ro := 0xFFFFFFFF } /- CLA_MACS -/,
  { base := 0x40100020, dims := [], reset := 0x0, w1c := 0x7 } /- CLA_FLAGS -/,
  { base := 0x40100024, dims := [], reset := 0x0, rw := 0x7 } /- CLA_IRQ_EN -/,
  { base := 0x40100040, dims := [], reset := 0x0, rc := 0xFFFFFFFF } /- CLA_PATCHES -/,
  { base := 0x40100044, dims := [], reset := 0x0, rc := 0xFFFFFFFF } /- CLA_ROWS_LOST -/,
  { base := 0x40100048, dims := [], reset := 0x0, rc := 0xFFFFFFFF } /- CLA_ROWS_STALE -/,
  { base := 0x4010004C, dims := [], reset := 0x0, rc := 0xFFFFFFFF } /- CLA_ECC_CORR -/]

/-- Register rows of the CASC block. -/
def mapCASC : List RegDesc := [
  { base := 0x40200000, dims := [], reset := 0x0, rws := 0x8000F313 } /- CASC_CFG -/,
  { base := 0x40200004, dims := [], reset := 0x0, rws := 0xB0000FFF } /- CASC_FLAG_RULE -/,
  { base := 0x40200008, dims := [], reset := 0x0, w1c := 0xF } /- CASC_FLAGS -/,
  { base := 0x4020000C, dims := [], reset := 0x0, rw := 0xF } /- CASC_IRQ_EN -/,
  { base := 0x40200010, dims := [(0x4, 4)], reset := 0x0, rws := 0xFFFFFFFF } /- CASC_THRm -/,
  { base := 0x40200020, dims := [], reset := 0x100, ro := 0x1FF } /- CASC_GRANT -/,
  { base := 0x40200024, dims := [], reset := 0x0, ro := 0xFFFFFF } /- CASC_QUOTA -/,
  { base := 0x40200028, dims := [], reset := 0x0, ro := 0xFFFFFF } /- CASC_CAP -/,
  { base := 0x4020002C, dims := [], reset := 0x0, ro := 0xFFFFFF } /- CASC_USED -/,
  { base := 0x40200040, dims := [(0x10, 8)], reset := 0x0, rws := 0x33 } /- CASC_ACTk -/,
  { base := 0x40200044, dims := [(0x10, 8)], reset := 0x0, rws := 0xFFFFFFFF } /- CASC_AMINk -/,
  { base := 0x40200048, dims := [(0x10, 8)], reset := 0xFFFFFFFF, rws := 0xFFFFFFFF } /- CASC_AMAXk -/,
  { base := 0x40200100, dims := [], reset := 0x0, rc := 0xFFFFFFFF } /- CASC_OBJECTS -/,
  { base := 0x40200104, dims := [], reset := 0x0, rc := 0xFFFFFFFF } /- CASC_CANDIDATES -/,
  { base := 0x40200108, dims := [], reset := 0x0, rc := 0xFFFFFFFF } /- CASC_CLASSIFIED -/,
  { base := 0x4020010C, dims := [], reset := 0x0, rc := 0xFFFFFFFF } /- CASC_DENIED -/,
  { base := 0x40200110, dims := [], reset := 0x0, rc := 0xFFFFFFFF } /- CASC_LATE -/,
  { base := 0x40200114, dims := [], reset := 0x0, rc := 0xFFFFFFFF } /- CASC_FLAG_HITS -/,
  { base := 0x40200118, dims := [], reset := 0x0, rc := 0xFFFFFFFF } /- CASC_SIZE_ALT -/,
  { base := 0x4020011C, dims := [], reset := 0x0, rc := 0xFFFFFFFF } /- CASC_REC_DROP -/,
  { base := 0x40200120, dims := [(0x4, 8)], reset := 0x0, rc := 0xFFFFFFFF } /- CASC_CLASS_k -/,
  { base := 0x40200140, dims := [(0x4, 4)], reset := 0x0, rc := 0xFFFFFFFF } /- CASC_ACTION_a -/]

/-- Register rows of the EJ block. -/
def mapEJ : List RegDesc := [
  { base := 0x50000000, dims := [], reset := 0x0, rws := 0xFFFF } /- EJ_MARGIN -/,
  { base := 0x50000004, dims := [(0x4, 2)], reset := 0x0, rws := 0xFFFFFFFF } /- EJ_TIMEr -/,
  { base := 0x5000000C, dims := [], reset := 0x0, w1c := 0x1F } /- EJ_FLAGS -/,
  { base := 0x50000010, dims := [], reset := 0x0, rw := 0x1F } /- EJ_IRQ_EN -/,
  { base := 0x50000014, dims := [], reset := 0x0, ro := 0x3FFF, rc := 0x3FFF0000 } /- EJ_POOL -/,
  { base := 0x50000020, dims := [], reset := 0x0, rc := 0xFFFFFFFF } /- EJ_WINDOWS -/,
  { base := 0x50000024, dims := [], reset := 0x0, rc := 0xFFFFFFFF } /- EJ_MERGED -/,
  { base := 0x50000028, dims := [], reset := 0x0, rc := 0xFFFFFFFF } /- EJ_WIN_LATE -/,
  { base := 0x5000002C, dims := [], reset := 0x0, rc := 0xFFFFFFFF } /- EJ_WIN_MISSED -/,
  { base := 0x50000030, dims := [], reset := 0x0, rc := 0xFFFFFFFF } /- EJ_POOL_FULL -/,
  { base := 0x50000034, dims := [], reset := 0x0, rc := 0xFFFFFFFF } /- EJ_VALVE_FULL -/,
  { base := 0x50000038, dims := [], reset := 0x0, rc := 0xFFFFFFFF } /- EJ_NO_VALVE -/,
  { base := 0x50001000, dims := [(0x10, 512)], reset := 0x0, rws := 0xFFFF7FFF } /- EJ_Vc_MAP -/,
  { base := 0x50001004, dims := [(0x10, 512)], reset := 0x0, rws := 0xFFFFFF } /- EJ_Vc_OPEN -/,
  { base := 0x50001008, dims := [(0x10, 512)], reset := 0x0, rws := 0xFFFFFF } /- EJ_Vc_CLOSE -/]

/-- Register rows of the SP block, part 0. -/
def mapSP0 : List RegDesc := [
  { base := 0x50100000, dims := [(0x10000, 4)], reset := 0x2000, rws := 0x8107FF00 } /- SPn_CFG -/,
  { base := 0x50100004, dims := [(0x10000, 4)], reset := 0x5DC, rws := 0xFFFF } /- SPn_LEAD -/,
  { base := 0x50100008, dims := [(0x10000, 4)], reset := 0x0, ro := 0x1FFFF } /- SPn_CLAIM -/,
  { base := 0x5010000C, dims := [(0x10000, 4)], reset := 0x0, ro := 0x10F } /- SPn_STATUS -/,
  { base := 0x50100010, dims := [(0x10000, 4)], reset := 0x0, w1c := 0xFF } /- SPn_FLAGS -/,
  { base := 0x50100014, dims := [(0x10000, 4)], reset := 0x0, rw := 0xFF } /- SPn_IRQ_EN -/,
  { base := 0x50100018, dims := [(0x10000, 4)], reset := 0x0, ro := 0xFFFFFFFF } /- SPn_RETURN -/,
  { base := 0x5010001C, dims := [(0x10000, 4)], reset := 0x0, ro := 0xFFFF } /- SPn_DELAY -/,
  { base := 0x50100020, dims := [(0x10000, 4)], reset := 0x0, rc := 0xFFFFFFFF } /- SPn_FRAMES_TX -/,
  { base := 0x50100024, dims := [(0x10000, 4)], reset := 0x0, rc := 0xFFFFFFFF } /- SPn_RET_OK -/,
  { base := 0x50100028, dims := [(0x10000, 4)], reset := 0x0, rc := 0xFFFFFFFF } /- SPn_RET_CRC_ERR -/,
  { base := 0x5010002C, dims := [(0x10000, 4)], reset := 0x0, rc := 0xFFFFFFFF } /- SPn_SEQ_ERR -/,
  { base := 0x50100030, dims := [(0x10000, 4)], reset := 0x0, rc := 0xFFFFFFFF } /- SPn_MAXON_TRIPS -/,
  { base := 0x50100034, dims := [(0x10000, 4)], reset := 0x0, rc := 0xFFFFFFFF } /- SPn_MINOFF_HOLDS -/,
  { base := 0x50100038, dims := [(0x10000, 4)], reset := 0x0, rc := 0xFFFFFFFF } /- SPn_DUTY_CUTS -/,
  { base := 0x5010003C, dims := [(0x10000, 4)], reset := 0x0, rc := 0xFFFFFFFF } /- SPn_MAXOPEN_CUTS -/,
  { base := 0x50100040, dims := [(0x10000, 4)], reset := 0x61A8, rwl := 0x1FFFF } /- SPn_LIMIT_MAXON -/,
  { base := 0x50100044, dims := [(0x10000, 4)], reset := 0xC8, rwl := 0x3FFF } /- SPn_LIMIT_MINOFF -/,
  { base := 0x50100048, dims := [(0x10000, 4)], reset := 0x80, rwl := 0x1FF } /- SPn_LIMIT_DUTY -/,
  { base := 0x5010004C, dims := [(0x10000, 4)], reset := 0x40, rwl := 0xFF } /- SPn_LIMIT_MAXOPEN -/,
  { base := 0x50100050, dims := [(0x10000, 4)], reset := 0x0, ro := 0x1 } /- SPn_LOCK -/,
  { base := 0x50100060, dims := [(0x10000, 4), (0x4, 4)], reset := 0x0, ro := 0xFFFFFFFF } /- SPn_COIL_FAULTk -/,
  { base := 0x50100070, dims := [(0x10000, 4)], reset := 0x0, rws := 0xF } /- SPn_COIL_SEL -/,
  { base := 0x50108000, dims := [(0x10000, 4)], reset := 0x400, rw := 0xF23 } /- LN_CTRL spRx -/,
  { base := 0x50108004, dims := [(0x10000, 4)], reset := 0x100, ro := 0x1F0F } /- LN_STATUS spRx -/,
  { base := 0x50108008, dims := [(0x10000, 4)], reset := 0x0, w1c := 0x1BF } /- LN_FLAGS spRx -/,
  { base := 0x5010800C, dims := [(0x10000, 4)], reset := 0x0, rw := 0x1FF } /- LN_IRQ_EN spRx -/,
  { base := 0x50108010, dims := [(0x10000, 4)], reset := 0x0, rc := 0xFFFFFFFF } /- LN_CODE_ERR spRx -/,
  { base := 0x50108014, dims := [(0x10000, 4)], reset := 0x0, rc := 0xFFFFFFFF } /- LN_DISP_ERR spRx -/,
  { base := 0x50108018, dims := [(0x10000, 4)], reset := 0x0, rc := 0xFFFFFFFF } /- LN_ALIGN_LOSS spRx -/,
  { base := 0x5010801C, dims := [(0x10000, 4)], reset := 0x0, rc := 0xFFFFFFFF } /- LN_LOCK_LOSS spRx -/,
  { base := 0x50108020, dims := [(0x10000, 4)], reset := 0x0, ro := 0xFFFF03FF } /- LN_EYE spRx -/,
  { base := 0x50108024, dims := [(0x10000, 4)], reset := 0x3C1800, rw := 0x3FF7FFF } /- LN_EYE_CTRL spRx -/,
  { base := 0x5010802C, dims := [(0x10000, 4)], reset := 0x0 } /- LN_TRAIN_CTRL spRx -/,
  { base := 0x50108030, dims := [(0x10000, 4)], reset := 0x0 } /- LN_FAR_TAPS spRx -/,
  { base := 0x50108034, dims := [(0x10000, 4)], reset := 0x0, rc := 0xFFFFFFFF } /- LN_PRBS_ERR spRx -/,
  { base := 0x50108040, dims := [(0x10000, 4)], reset := 0x0 } /- LN_TX_TAPS spRx -/,
  { base := 0x50108400, dims := [(0x10000, 4)], reset := 0x0, rw := 0x323 } /- LN_CTRL spTx -/,
  { base := 0x50108404, dims := [(0x10000, 4)], reset := 0x100, ro := 0x1F0F } /- LN_STATUS spTx -/,
  { base := 0x50108408, dims := [(0x10000, 4)], reset := 0x0, w1c := 0x40 } /- LN_FLAGS spTx -/]

/-- Register rows of the SP block, part 1. -/
def mapSP1 : List RegDesc := [
  { base := 0x5010840C, dims := [(0x10000, 4)], reset := 0x0, rw := 0x1FF } /- LN_IRQ_EN spTx -/,
  { base := 0x50108410, dims := [(0x10000, 4)], reset := 0x0 } /- LN_CODE_ERR spTx -/,
  { base := 0x50108414, dims := [(0x10000, 4)], reset := 0x0 } /- LN_DISP_ERR spTx -/,
  { base := 0x50108418, dims := [(0x10000, 4)], reset := 0x0 } /- LN_ALIGN_LOSS spTx -/,
  { base := 0x5010841C, dims := [(0x10000, 4)], reset := 0x0 } /- LN_LOCK_LOSS spTx -/,
  { base := 0x50108420, dims := [(0x10000, 4)], reset := 0x0 } /- LN_EYE spTx -/,
  { base := 0x50108424, dims := [(0x10000, 4)], reset := 0x0 } /- LN_EYE_CTRL spTx -/,
  { base := 0x5010842C, dims := [(0x10000, 4)], reset := 0x0 } /- LN_TRAIN_CTRL spTx -/,
  { base := 0x50108430, dims := [(0x10000, 4)], reset := 0x0 } /- LN_FAR_TAPS spTx -/,
  { base := 0x50108434, dims := [(0x10000, 4)], reset := 0x0 } /- LN_PRBS_ERR spTx -/,
  { base := 0x50108440, dims := [(0x10000, 4)], reset := 0x7E0000, rw := 0x7FFF00 } /- LN_TX_TAPS spTx -/]

/-- Register rows of the SP block. -/
def mapSP : List RegDesc := mapSP0 ++ mapSP1

/-- Register rows of the TRA block. -/
def mapTRA : List RegDesc := [
  { base := 0x50200000, dims := [(0x10000, 4)], reset := 0xA300000, rws := 0xCFF10000 } /- TRAn_CFG -/,
  { base := 0x50200004, dims := [(0x10000, 4)], reset := 0x18320032, rws := 0xBFFFFFFF } /- TRAn_SSI -/,
  { base := 0x50200008, dims := [(0x10000, 4)], reset := 0x0, rws := 0xFFFFFFFF } /- TRAn_SSI_LAT -/,
  { base := 0x50200010, dims := [(0x10000, 4)], reset := 0x10002710, rws := 0xFFFFFFFF } /- TRAn_LIMITS -/,
  { base := 0x50200014, dims := [(0x10000, 4)], reset := 0x0, rws := 0x81FF0003 } /- TRAn_REF -/,
  { base := 0x50200018, dims := [(0x10000, 4)], reset := 0x0, rws := 0xFFFFFFFF } /- TRAn_REF_VAL -/,
  { base := 0x5020001C, dims := [(0x10000, 4)], reset := 0x0, rws := 0xFFFF } /- TRAn_REF_VAL_HI -/,
  { base := 0x50200020, dims := [(0x10000, 4)], reset := 0x0, w1s := 0xF } /- TRAn_CTRL -/,
  { base := 0x50200024, dims := [(0x10000, 4)], reset := 0x0, ro := 0xF8000FFF } /- TRAn_STATUS -/,
  { base := 0x50200028, dims := [(0x10000, 4)], reset := 0x0, w1c := 0x7F } /- TRAn_FLAGS -/,
  { base := 0x5020002C, dims := [(0x10000, 4)], reset := 0x0, rw := 0x7F } /- TRAn_IRQ_EN -/,
  { base := 0x50200030, dims := [(0x10000, 4)], reset := 0x0, rc := 0xFFFFFFFF } /- TRAn_EDGES -/,
  { base := 0x50200034, dims := [(0x10000, 4)], reset := 0x0, rc := 0xFFFFFFFF } /- TRAn_QERR -/,
  { base := 0x50200038, dims := [(0x10000, 4)], reset := 0x0, rc := 0xFFFFFFFF } /- TRAn_REVERSALS -/,
  { base := 0x5020003C, dims := [(0x10000, 4)], reset := 0x0, rc := 0xFFFFFFFF } /- TRAn_SSI_ERR -/,
  { base := 0x50200040, dims := [(0x10000, 4)], reset := 0x0, rc := 0xFFFFFFFF } /- TRAn_SSI_JUMP -/,
  { base := 0x50200044, dims := [(0x10000, 4)], reset := 0x0, rc := 0xFFFFFFFF } /- TRAn_LIST_FIRES -/,
  { base := 0x50200050, dims := [(0x10000, 4)], reset := 0x0, ro := 0xFFFFFFFF } /- TRAn_COUNT_LO -/,
  { base := 0x50200054, dims := [(0x10000, 4)], reset := 0x0, ro := 0xFFFF } /- TRAn_COUNT_HI -/,
  { base := 0x50200058, dims := [(0x10000, 4)], reset := 0x0, ro := 0xFFFFFFFF } /- TRAn_POS_LO -/,
  { base := 0x5020005C, dims := [(0x10000, 4)], reset := 0x0, ro := 0xFFFFFFFF } /- TRAn_POS_HI -/,
  { base := 0x50200060, dims := [(0x10000, 4)], reset := 0x0, ro := 0xFFFFFFFF } /- TRAn_SPEED_LO -/,
  { base := 0x50200064, dims := [(0x10000, 4)], reset := 0x0, ro := 0xFFFFFFFF } /- TRAn_SPEED_HI -/,
  { base := 0x50200068, dims := [(0x10000, 4)], reset := 0x0, ro := 0xFFFFFFFF } /- TRAn_ACC_LO -/,
  { base := 0x5020006C, dims := [(0x10000, 4)], reset := 0x0, ro := 0xFFFFFFFF } /- TRAn_ACC_HI -/,
  { base := 0x50200070, dims := [(0x10000, 4)], reset := 0x0, ro := 0xFFFFFFFF } /- TRAn_TUPD_LO -/,
  { base := 0x50200074, dims := [(0x10000, 4)], reset := 0x0, ro := 0xFFFFFFFF } /- TRAn_TUPD_HI -/,
  { base := 0x50200080, dims := [(0x10000, 4)], reset := 0x0, ro := 0xFFFFFFFF } /- TRAn_REF_CNT_LO -/,
  { base := 0x50200084, dims := [(0x10000, 4)], reset := 0x0, ro := 0xFFFF } /- TRAn_REF_CNT_HI -/,
  { base := 0x50200088, dims := [(0x10000, 4)], reset := 0x0, ro := 0xFFFFFFFF } /- TRAn_REF_TIME_LO -/,
  { base := 0x5020008C, dims := [(0x10000, 4)], reset := 0x0, ro := 0xFFFFFFFF } /- TRAn_REF_TIME_HI -/,
  { base := 0x50200090, dims := [(0x10000, 4)], reset := 0x0, ro := 0xFFFFFFFF } /- TRAn_LIST_TIME_LO -/,
  { base := 0x50200094, dims := [(0x10000, 4)], reset := 0x0, ro := 0xFFFFFFFF } /- TRAn_LIST_TIME_HI -/,
  { base := 0x50200098, dims := [(0x10000, 4)], reset := 0xFFF0000, rw := 0xCFFF0FFF } /- TRAn_LIST_CFG -/]

/-- Register rows of the MON block. -/
def mapMON : List RegDesc := [
  { base := 0x50300000, dims := [], reset := 0x0, rws := 0x1 } /- MON_CTRL -/,
  { base := 0x50300004, dims := [], reset := 0x0, w1c := 0x1F } /- MON_FLAGS -/,
  { base := 0x50300008, dims := [], reset := 0x0, rw := 0x1F } /- MON_IRQ_EN -/,
  { base := 0x5030000C, dims := [], reset := 0x0, ro := 0xFFFF } /- MON_CLK_KHZ -/,
  { base := 0x50300010, dims := [], reset := 0x0, w1c := 0xFFFFFFFF } /- MON_SIG_DONE -/,
  { base := 0x50300100, dims := [(0x80, 32)], reset := 0x0, rws := 0xF701037F } /- MON_Cc_CFG -/,
  { base := 0x50300104, dims := [(0x80, 32)], reset := 0x40, rws := 0x1FFF } /- MON_Cc_DEC -/,
  { base := 0x50300108, dims := [(0x80, 32)], reset := 0x0, rws := 0xFBFFFBFF } /- MON_Cc_STG01 -/,
  { base := 0x5030010C, dims := [(0x80, 32)], reset := 0x0, rws := 0xFBFFFBFF } /- MON_Cc_STG23 -/,
  { base := 0x50300110, dims := [(0x80, 32)], reset := 0xBB8, rws := 0xC000FFFF } /- MON_Cc_SIG -/,
  { base := 0x50300114, dims := [(0x80, 32)], reset := 0x0, ro := 0xE0000000 } /- MON_Cc_STATUS -/,
  { base := 0x50300118, dims := [(0x80, 32)], reset := 0x0, w1c := 0x1F } /- MON_Cc_FLAGS -/,
  { base := 0x5030011C, dims := [(0x80, 32)], reset := 0x80000000, rws := 0xFFFFFFFF } /- MON_Cc_LIMIT_LO -/,
  { base := 0x50300120, dims := [(0x80, 32)], reset := 0x7FFFFFFF, rws := 0xFFFFFFFF } /- MON_Cc_LIMIT_HI -/,
  { base := 0x50300124, dims := [(0x80, 32)], reset := 0x0, rws := 0xFFFFFFFF } /- MON_Cc_THR_HI -/,
  { base := 0x50300128, dims := [(0x80, 32)], reset := 0x0, rws := 0xFFFFFFFF } /- MON_Cc_THR_LO -/,
  { base := 0x5030012C, dims := [(0x80, 32)], reset := 0x0, rws := 0xFFFFFFFF } /- MON_Cc_HYST -/,
  { base := 0x50300130, dims := [(0x80, 32)], reset := 0x0, ro := 0xFFFFFFFF } /- MON_Cc_OUT -/,
  { base := 0x50300134, dims := [(0x80, 32)], reset := 0x0, ro := 0xFFFFFFFF } /- MON_Cc_TIME_LO -/,
  { base := 0x50300138, dims := [(0x80, 32)], reset := 0x0, ro := 0xFFFFFFFF } /- MON_Cc_TIME_HI -/,
  { base := 0x5030013C, dims := [(0x80, 32)], reset := 0x0, ro := 0xFFFFFFFF } /- MON_Cc_OPEN_LEAD -/,
  { base := 0x50300140, dims := [(0x80, 32)], reset := 0x0, ro := 0xFFFFFFFF } /- MON_Cc_CLOSE_LEAD -/,
  { base := 0x50300144, dims := [(0x80, 32)], reset := 0x0, rc := 0xFFFFFFFF } /- MON_Cc_SIG_OK -/,
  { base := 0x50300148, dims := [(0x80, 32)], reset := 0x0, rc := 0xFFFFFFFF } /- MON_Cc_SIG_FAILS -/]

/-- Register rows of the TB block. -/
def mapTB : List RegDesc := [
  { base := 0x50400000, dims := [], reset := 0x640000, rw := 0x3FF0000, w1s := 0x1 } /- TB_CTRL -/,
  { base := 0x50400004, dims := [], reset := 0x0, rw := 0xFFFFFFFF } /- TB_ADJ -/,
  { base := 0x50400008, dims := [], reset := 0x0, rw := 0xFFFFFFFF } /- TB_SLEW -/,
  { base := 0x5040000C, dims := [], reset := 0x0, rw := 0x3FFFFFFF } /- TB_STEP_NS -/,
  { base := 0x50400010, dims := [], reset := 0x0, rw := 0xFFFFFFFF } /- TB_STEP_SEC_LO -/,
  { base := 0x50400014, dims := [], reset := 0x0, rw := 0xFFFF } /- TB_STEP_SEC_HI -/,
  { base := 0x50400018, dims := [], reset := 0x0, ro := 0xFFFFFFFF } /- TB_TOD_FRAC -/,
  { base := 0x5040001C, dims := [], reset := 0x0, ro := 0x3FFFFFFF } /- TB_TOD_NS -/,
  { base := 0x50400020, dims := [], reset := 0x0, ro := 0xFFFFFFFF } /- TB_TOD_SEC_LO -/,
  { base := 0x50400024, dims := [], reset := 0x0, ro := 0xFFFF } /- TB_TOD_SEC_HI -/,
  { base := 0x50400028, dims := [], reset := 0x0, ro := 0xC00000FF } /- TB_STATUS -/,
  { base := 0x5040002C, dims := [], reset := 0x0, ro := 0xFFFFFFFF } /- TB_LINE -/,
  { base := 0x50400030, dims := [], reset := 0x0, w1c := 0x1F } /- TB_FLAGS -/,
  { base := 0x50400034, dims := [], reset := 0x0, rw := 0x1F } /- TB_IRQ_EN -/,
  { base := 0x50400040, dims := [], reset := 0x80000, rws := 0xC30F0000 } /- TB_LINE_CFG -/,
  { base := 0x50400044, dims := [], reset := 0x61A8, rws := 0xFFFFFFFF } /- TB_PERIOD_NS -/,
  { base := 0x50400048, dims := [], reset := 0x0, rws := 0xFFFFFFFF } /- TB_PERIOD_FRAC -/,
  { base := 0x5040004C, dims := [], reset := 0x0, rws := 0xFFFFFFFF } /- TB_ANCHOR_LINE -/,
  { base := 0x50400050, dims := [], reset := 0x0, rws := 0xFFFFFFFF } /- TB_ANCHOR_T_LO -/,
  { base := 0x50400054, dims := [], reset := 0x0, rws := 0xFFFFFFFF } /- TB_ANCHOR_T_HI -/,
  { base := 0x50400060, dims := [], reset := 0x186A0, rw := 0xE00FFFFF } /- TB_PPS -/,
  { base := 0x50400064, dims := [], reset := 0x0, ro := 0xFFFFFFFF } /- TB_PPS_IN_LO -/,
  { base := 0x50400068, dims := [], reset := 0x0, ro := 0xFFFFFFFF } /- TB_PPS_IN_HI -/,
  { base := 0x50400070, dims := [], reset := 0x17700, rw := 0xFFFFFFFF } /- TB_ETH_TXLAT -/,
  { base := 0x50400074, dims := [], reset := 0x3A1B0, rw := 0xFFFFFFFF } /- TB_ETH_RXLAT -/,
  { base := 0x50400078, dims := [], reset := 0x0, rw := 0xFFFFFFFF } /- TB_ETH_ASYM -/,
  { base := 0x50400080, dims := [(0x10, 3)], reset := 0x9C40, rw := 0xFFFFFFFF } /- TB_PEERn_TXLAT -/,
  { base := 0x50400084, dims := [(0x10, 3)], reset := 0xEA60, rw := 0xFFFFFFFF } /- TB_PEERn_RXLAT -/,
  { base := 0x50400088, dims := [(0x10, 3)], reset := 0x0, rw := 0xFFFFFFFF } /- TB_PEERn_ASYM -/,
  { base := 0x504000B0, dims := [], reset := 0x7, rw := 0x7 } /- TB_PTP_CFG -/,
  { base := 0x504000C0, dims := [], reset := 0x0, ro := 0xCFFFFFFF } /- TB_TSQ_INFO -/,
  { base := 0x504000C4, dims := [], reset := 0x0, ro := 0xFF } /- TB_TSQ_FRAC -/,
  { base := 0x504000C8, dims := [], reset := 0x0, ro := 0xFFFFFFFF } /- TB_TSQ_NS_LO -/,
  { base := 0x504000CC, dims := [], reset := 0x0, ro := 0xFFFFFFFF } /- TB_TSQ_NS_HI -/,
  { base := 0x504000D0, dims := [], reset := 0x0, rc := 0xFFFFFFFF } /- TB_TSQ_OVF -/]

/-- Register rows of the TIO block. -/
def mapTIO : List RegDesc := [
  { base := 0x50410000, dims := [], reset := 0x0, ro := 0x1 } /- TIO_LOCK -/,
  { base := 0x50410004, dims := [], reset := 0x0, ro := 0xFFFF } /- TIO_PENDING -/,
  { base := 0x50410100, dims := [(0x40, 16)], reset := 0x80000000, rw := 0x2F7B01FF, rwl := 0xC0000000 } /- TIO_Pn_CFG -/,
  { base := 0x50410104, dims := [(0x40, 16)], reset := 0x0, rw := 0xFFFFFFFF } /- TIO_Pn_START_LO -/,
  { base := 0x50410108, dims := [(0x40, 16)], reset := 0x0, rw := 0xFFFFFFFF } /- TIO_Pn_START_HI -/,
  { base := 0x5041010C, dims := [(0x40, 16)], reset := 0x0, rw := 0xFFFFFFFF } /- TIO_Pn_WIDTH -/,
  { base := 0x50410110, dims := [(0x40, 16)], reset := 0x0, rw := 0xFFFFFFFF } /- TIO_Pn_PERIOD -/,
  { base := 0x50410114, dims := [(0x40, 16)], reset := 0x0, rw := 0xFFFFFFFF } /- TIO_Pn_COUNT -/,
  { base := 0x50410118, dims := [(0x40, 16)], reset := 0x0, rw := 0xFFFFFFFF } /- TIO_Pn_OFFSET -/,
  { base := 0x5041011C, dims := [(0x40, 16)], reset := 0x0, rw := 0xFFF0FFF } /- TIO_Pn_LINE -/,
  { base := 0x50410120, dims := [(0x40, 16)], reset := 0x0, w1s := 0x3 } /- TIO_Pn_CTRL -/,
  { base := 0x50410124, dims := [(0x40, 16)], reset := 0x0, ro := 0xC000001F } /- TIO_Pn_STATUS -/,
  { base := 0x50410128, dims := [(0x40, 16)], reset := 0x0, w1c := 0xF } /- TIO_Pn_FLAGS -/,
  { base := 0x5041012C, dims := [(0x40, 16)], reset := 0x0, rw := 0xF } /- TIO_Pn_IRQ_EN -/,
  { base := 0x50410130, dims := [(0x40, 16)], reset := 0x0, ro := 0xFFFFFFFF } /- TIO_Pn_CAP_LO -/,
  { base := 0x50410134, dims := [(0x40, 16)], reset := 0x0, ro := 0xFFFFFFFF } /- TIO_Pn_CAP_HI -/,
  { base := 0x5041013C, dims := [(0x40, 16)], reset := 0x0, rc := 0xFFFFFFFF } /- TIO_Pn_LATE -/]

/-- Register rows of the MEM block. -/
def mapMEM : List RegDesc := [
  { base := 0x60000000, dims := [], reset := 0x500, ro := 0x80000000, w1s := 0x1, rwl := 0xF32 } /- MEM_CFG -/,
  { base := 0x60000010, dims := [], reset := 0x1111001, rwl := 0xFFFFFFFF } /- MEM_HASH0_LO -/,
  { base := 0x60000018, dims := [], reset := 0x2222002, rwl := 0xFFFFFFFF } /- MEM_HASH1_LO -/,
  { base := 0x60000020, dims := [], reset := 0x11020, rwl := 0xFFFFFFFF } /- MEM_HASH2_LO -/,
  { base := 0x60000028, dims := [], reset := 0x22040, rwl := 0xFFFFFFFF } /- MEM_HASH3_LO -/,
  { base := 0x60000030, dims := [], reset := 0x44080, rwl := 0xFFFFFFFF } /- MEM_HASH4_LO -/,
  { base := 0x60000038, dims := [], reset := 0x88100, rwl := 0xFFFFFFFF } /- MEM_HASH5_LO -/,
  { base := 0x60000014, dims := [(0x8, 6)], reset := 0x0, rwl := 0x3 } /- MEM_HASHi_HI -/,
  { base := 0x60000040, dims := [(0x4, 9)], reset := 0x0, ro := 0x80000000, rws := 0xFFFF } /- MEM_LATm -/,
  { base := 0x60000064, dims := [], reset := 0x400014, rw := 0xFFFF00FF } /- MEM_TRAIN -/,
  { base := 0x60000100, dims := [(0x10000, 4)], reset := 0x0, ro := 0x1F031F } /- MEMn_STATUS -/,
  { base := 0x60000104, dims := [(0x10000, 4)], reset := 0x0, w1c := 0xFF } /- MEMn_FLAGS -/,
  { base := 0x60000108, dims := [(0x10000, 4)], reset := 0x0, rw := 0xFF } /- MEMn_IRQ_EN -/,
  { base := 0x60000110, dims := [(0x10000, 4)], reset := 0x0, rc := 0xFFFFFFFF } /- MEMn_ECC_CORR -/,
  { base := 0x60000114, dims := [(0x10000, 4)], reset := 0x0, rc := 0xFFFFFFFF } /- MEMn_ECC_UNCORR -/,
  { base := 0x60000118, dims := [(0x10000, 4)], reset := 0x0, rc := 0xFFFFFFFF } /- MEMn_REF_FORCED -/,
  { base := 0x6000011C, dims := [(0x10000, 4)], reset := 0x0, rc := 0xFFFFFFFF } /- MEMn_RETRAINS -/,
  { base := 0x60000120, dims := [(0x10000, 4)], reset := 0x0, rc := 0xFFFFFFFF } /- MEMn_URG3 -/,
  { base := 0x60000124, dims := [(0x10000, 4)], reset := 0x0, rc := 0xFFFFFFFF } /- MEMn_ROW_HITS -/,
  { base := 0x60000128, dims := [(0x10000, 4)], reset := 0x0, rc := 0xFFFFFFFF } /- MEMn_ROW_MISSES -/,
  { base := 0x6000012C, dims := [(0x10000, 4)], reset := 0x0, rc := 0xFFFFFFFF } /- MEMn_RD_BURSTS -/,
  { base := 0x60000130, dims := [(0x10000, 4)], reset := 0x0, rc := 0xFFFFFFFF } /- MEMn_WR_BURSTS -/,
  { base := 0x60000180, dims := [(0x10000, 4), (0x4, 9)], reset := 0x0, rc := 0xFFFFFFFF } /- MEMn_PORT_BURSTSm -/,
  { base := 0x60000140, dims := [(0x10000, 4)], reset := 0x0, ro := 0xFFFFFFFF } /- MEMn_ERR_ADDR_LO -/,
  { base := 0x60000144, dims := [(0x10000, 4)], reset := 0x0, ro := 0xFF } /- MEMn_ERR_ADDR_HI -/,
  { base := 0x60000148, dims := [(0x10000, 4)], reset := 0x0, ro := 0x4F0007FF, w1c := 0x80000000 } /- MEMn_ERR_INFO -/]

/-- Register rows of the CAP block. -/
def mapCAP : List RegDesc := [
  { base := 0x60100000, dims := [], reset := 0x101C00, rws := 0xC01F1F00 } /- CAP_CTRL -/,
  { base := 0x6010000C, dims := [], reset := 0x0, w1c := 0x7 } /- CAP_FLAGS -/,
  { base := 0x60100010, dims := [], reset := 0x0, rw := 0x7 } /- CAP_IRQ_EN -/,
  { base := 0x60100008, dims := [], reset := 0x0, ro := 0xC01FFFFF } /- CAP_STATUS -/,
  { base := 0x60100020, dims := [], reset := 0x0, rws := 0xFF000000 } /- CAP_DATA_BASE_LO -/,
  { base := 0x60100024, dims := [], reset := 0x0, rws := 0xFF } /- CAP_DATA_BASE_HI -/,
  { base := 0x60100028, dims := [], reset := 0x0, rws := 0xFFFF0000 } /- CAP_IDX_BASE_LO -/,
  { base := 0x6010002C, dims := [], reset := 0x0, rws := 0xFF } /- CAP_IDX_BASE_HI -/,
  { base := 0x60100030, dims := [], reset := 0x0, ro := 0xFFFFFFFF } /- CAP_WPOS_LO -/,
  { base := 0x60100034, dims := [], reset := 0x0, ro := 0xFFFFFFFF } /- CAP_WPOS_HI -/,
  { base := 0x60100038, dims := [], reset := 0x0, ro := 0xFFFFFFFF } /- CAP_IPOS_LO -/,
  { base := 0x6010003C, dims := [], reset := 0x0, ro := 0xFFFFFFFF } /- CAP_IPOS_HI -/,
  { base := 0x60100040, dims := [], reset := 0x0, rw := 0xFFFFFFFF } /- CAP_KEEP_LO -/,
  { base := 0x60100044, dims := [], reset := 0x0, rw := 0xFFFFFFFF } /- CAP_KEEP_HI -/,
  { base := 0x60100048, dims := [], reset := 0x0, rw := 0xFFFFFFFF } /- CAP_KEEP_IDX_LO -/,
  { base := 0x6010004C, dims := [], reset := 0x0, rw := 0xFFFFFFFF } /- CAP_KEEP_IDX_HI -/,
  { base := 0x60100050, dims := [], reset := 0x0, rc := 0xFFFFFFFF } /- CAP_BLOCKS -/,
  { base := 0x60100054, dims := [], reset := 0x0, rc := 0xFFFFFFFF } /- CAP_RAW_BLOCKS -/,
  { base := 0x60100058, dims := [], reset := 0x0, rc := 0xFFFFFFFF } /- CAP_BLK_DROP -/,
  { base := 0x6010005C, dims := [], reset := 0x0, rc := 0xFFFFFFFF } /- CAP_BLK_FULL -/,
  { base := 0x60100060, dims := [], reset := 0x0, rc := 0xFFFFFFFF } /- CAP_BLK_SHED -/,
  { base := 0x60100064, dims := [], reset := 0x0, rc := 0xFFFFFFFF } /- CAP_GROUPS -/,
  { base := 0x60100068, dims := [], reset := 0x0, rc := 0xFFFFFFFF } /- CAP_TRIGGERS -/,
  { base := 0x60100100, dims := [(0x20, 8)], reset := 0x0, rws := 0xFCFF01FF } /- CAP_Wk_CFG -/,
  { base := 0x60100104, dims := [(0x20, 8)], reset := 0x0, rws := 0x7FFF7FFF } /- CAP_Wk_X -/,
  { base := 0x60100108, dims := [(0x20, 8)], reset := 0x0, rws := 0xFFFFFFFF } /- CAP_Wk_START -/,
  { base := 0x6010010C, dims := [(0x20, 8)], reset := 0x1, rws := 0xFFFF } /- CAP_Wk_NBLK -/,
  { base := 0x60100110, dims := [(0x20, 8)], reset := 0x0, ro := 0x8000FFFF } /- CAP_Wk_STATE -/]

/-- The blocks with registers, by address range (Table 1.9). -/
def regFamilies : List (Nat × Nat × List RegDesc) := [
  (0x10000000, 0x10010000, mapCHIP),
  (0x10010000, 0x10020000, mapSLU),
  (0x10020000, 0x10030000, mapRSV),
  (0x10030000, 0x10040000, mapFLT),
  (0x10040000, 0x10050000, mapCORE),
  (0x10050000, 0x10060000, mapMBX),
  (0x10060000, 0x10070000, mapLCK),
  (0x10070000, 0x10080000, mapDMA),
  (0x10080000, 0x10090000, mapCRC),
  (0x10090000, 0x100A0000, mapEVT),
  (0x100A0000, 0x100B0000, mapETH),
  (0x100D0000, 0x100E0000, mapPAIR),
  (0x100E0000, 0x100EC000, mapPEER),
  (0x20000000, 0x200C0000, mapCP),
  (0x20100000, 0x20130000, mapCX),
  (0x20200000, 0x20210000, mapPIPE),
  (0x20300000, 0x20310000, mapCAL),
  (0x30000000, 0x30010000, mapGEO),
  (0x30100000, 0x30140000, mapSEG),
  (0x30200000, 0x30210000, mapBSN),
  (0x30300000, 0x30310000, mapFLY),
  (0x40000000, 0x40010000, mapFOR),
  (0x40100000, 0x40110000, mapCLA),
  (0x40200000, 0x40210000, mapCASC),
  (0x50000000, 0x50010000, mapEJ),
  (0x50100000, 0x50140000, mapSP),
  (0x50200000, 0x50240000, mapTRA),
  (0x50300000, 0x50310000, mapMON),
  (0x50400000, 0x50410000, mapTB),
  (0x50410000, 0x50420000, mapTIO),
  (0x60000000, 0x60040000, mapMEM),
  (0x60100000, 0x60110000, mapCAP)]

end Sys2Proof.Machine
end

