-- ==== Sys2Proof/Machine/State.lean ====
section
/-! DEFINITION. The state of the block: plain data holding every register (one register file), every buffer, queue, counter and
mode that the spec gives it beside its registers, and the queue of waiting commands. The default of each field is its reset value. -/

namespace Sys2Proof.Machine

/-! ## Serial lanes (02_serial_lanes.md) -/

/-- Which reply or scan the training procedure of R47 waits for. -/
inductive TrainWait where
  /-- no request yet -/
  | idle
  /-- the reply to PRESET, or to a trial, or to the request that undoes a trial -/
  | presetReply | trialReply | undoReply
  /-- the first scan after the reply to PRESET or to a trial -/
  | presetScan | trialScan
deriving DecidableEq, Repr, Inhabited

/-- The training of one receive lane (R47 to R49). -/
structure Training where
  /-- full training; otherwise preset only (LN_TRAIN_CTRL.MODE) -/
  full : Bool := false
  wait : TrainWait := .idle
  qBest : Nat := 0
  /-- tap being tried: POST first, then PRE -/
  onPre : Bool := false
  /-- direction being tried: increment first, then decrement -/
  decr : Bool := false
  stepped : Bool := false
  moved : Bool := false
  steps : Nat := 0
  /-- request word in flight, and how often it has been sent again (R48) -/
  request : Nat := 0
  resends : Nat := 0
  /-- its request waits until the link has no other training request pending (R71) -/
  queued : Bool := false
  /-- last reply word (Table 2.4) -/
  reply : Option Nat := none
  /-- started by the port's link-training step, not by RETRAIN -/
  byPort : Bool := false
deriving DecidableEq, Repr, Inhabited

/-- What a receiver delivers to its port for one group (R35): a data byte, a control symbol of Table 2.2, or an invalid symbol. -/
inductive RxSym where
  | data (b : Byte)
  | ctl (k : Nat)
  | invalid
deriving DecidableEq, Repr, Inhabited

/-- What one lane holds beside its registers: LN_STATUS holds its state, running disparity, rate and ENABLE_PENDING. -/
structure LaneX where
  /-- last report of R39: signal present -/
  signal : Bool := false
  /-- bit phase taken on the comma (R41) -/
  phase : Nat := 0
  /-- commas counted in ACQ -/
  acq : Nat := 0
  score : Nat := 0
  /-- consecutive valid groups in SYNC not yet answered by a decay of the score -/
  validRun : Nat := 0
  /-- state that SHUTDOWN completes to: true STANDBY, false OFF -/
  toStandby : Bool := false
  /-- last received bits of the PRBS checker, newest first (R52) -/
  prbs : List Bool := []
  /-- symbols passed to the port and not yet in a column, oldest first, each with its symbol period on the link (R41, R56) -/
  rx : List (Int × RxSym) := []
  /-- symbol period of the last group on the link -/
  rxAt : Int := 0
  /-- last bits of the PRBS that a transmit lane sends, newest first (R52) -/
  txPrbs : List Bool := []
  /-- groups last sent by a transmit lane, oldest first (R33, R36, R52) -/
  tx : List (BitVec 10) := []
  train : Option Training := none
  /-- EW and EH of the last scan that ended (R43, R48) -/
  eye : Option (Nat × Nat) := none
deriving DecidableEq, Repr, Inhabited

/-! ## Camera ports (03_camera_ports.md) -/

/-- What became of a line that the port has triggered for one head (R65 to R67). -/
inductive TrigState where
  | outstanding | received | lost
deriving DecidableEq, Repr, Inhabited

/-- One of the last 64 triggers of a head: line count and what became of it. -/
structure Trigger where
  count : Int := 0
  /-- its trigger instant T in ns -/
  t : Nat := 0
  st : TrigState := .outstanding
deriving DecidableEq, Repr, Inhabited

/-- One head of a port. -/
structure Head where
  /-- the last 64 triggers, oldest first -/
  trigs : List Trigger := []
  /-- consecutive triggers without an accepted packet (R69) -/
  silent : Nat := 0
  /-- settings ID expected before the first entry of `expect` (R77) -/
  settings : Nat := 0
  /-- settings IDs expected from a line on -/
  expect : List (Int × Nat) := []
deriving DecidableEq, Repr, Inhabited

/-- What a register request to the camera is for. -/
inductive RegPurpose where
  | firmware | discover | config
deriving DecidableEq, Repr, Inhabited

/-- A register request to the camera (R71). -/
structure RegRequest where
  purpose : RegPurpose := .firmware
  tag : Nat := 0
  write : Bool := false
  addr : Nat := 0
  count : Nat := 0
  data : List Nat := []
  resends : Nat := 0
deriving DecidableEq, Repr, Inhabited

/-- An accepted exposure command (R76). -/
structure Exposure where
  head : Nat := 0
  settings : Nat := 0
  line : Nat := 0
  count : Int := 0
  expNs : Nat := 0
  gain : Nat := 0
deriving DecidableEq, Repr, Inhabited

/-- A training request to the camera (R48, R71). -/
structure TrainReq where
  lane : Nat := 0
  tag : Nat := 0
  word : Nat := 0
deriving DecidableEq, Repr, Inhabited

/-- A trigger message (R73). -/
structure TrigMsg where
  line : Nat := 0
  t : Nat := 0
  heads : Nat := 0
deriving DecidableEq, Repr, Inhabited

/-- A packet between its start column and its end column (R59). -/
structure LinkPacket where
  /-- a control packet, begun by K28.2; otherwise a line packet or frame, begun by K27.7 -/
  ctl : Bool := false
  bytes : List Byte := []
  /-- its last data column has been partly filled (R56) -/
  filled : Bool := false
  /-- its framing is broken (R59) -/
  bad : Bool := false
deriving DecidableEq, Repr, Inhabited

/-- What the columns of a link have brought and no command has taken yet. -/
inductive LinkEvent where
  /-- the end column of a line packet: framing kept, bytes -/
  | line (framed : Bool) (bytes : List Byte)
  /-- the end column of a control packet -/
  | ctl (framed : Bool) (bytes : List Byte)
  /-- a K30.7 column in a packet (R60) -/
  | abort
  /-- a byte that found the ingress buffer full (R68) -/
  | overflow
  /-- a marker column: aligned on all lanes and on schedule, or a deskew error; the skew of lanes 1 and on (R58) -/
  | marker (aligned : Bool) (skew : List Int)
deriving DecidableEq, Repr, Inhabited

/-- The receiving side of a link of 1, 2 or 4 lanes: deskew, columns and packets (R56 to R60). -/
structure LinkRx where
  /-- symbol period of the last scheduled marker on each lane, once the lanes are deskewed -/
  marks : Option (List Int) := none
  /-- lane 0's symbol period of the next column -/
  col : Int := 0
  /-- the packet in progress -/
  pkt : Option LinkPacket := none
  /-- oldest first -/
  events : List LinkEvent := []
deriving DecidableEq, Repr, Inhabited

/-- One camera port. CPn_STATUS holds its state and RETRIES. -/
structure Port where
  heads : Vector Head 4 := Vector.replicate 4 {}
  /-- count of the next line whose trigger message becomes due (Table 3.6, START) -/
  nextTrig : Option Int := none
  /-- count of the last line whose trigger message became due -/
  lastTrig : Option Int := none
  rx : LinkRx := {}
  /-- bytes of accepted lines in the ingress buffer, which no pipe has read yet (R68) -/
  ingress : Nat := 0
  /-- consecutive aligned marker columns, and consecutive deskew errors (R58) -/
  deskewOk : Nat := 0
  deskewBad : Nat := 0
  /-- RESYNC was entered by EYE_LOW with EYE_POLICY = 1 -/
  eyeResync : Bool := false
  /-- lane in link training -/
  trainLane : Nat := 0
  /-- trigger messages due (R74) -/
  trigQ : List TrigMsg := []
  /-- exposure command accepted and not yet sent -/
  exposure : Option Exposure := none
  /-- training and register requests waiting to be sent, in order: true for the training request -/
  reqQ : List Bool := []
  trainReq : Option TrainReq := none
  regReq : Option RegRequest := none
  timeDue : Bool := false
  /-- symbols of the item or word last sent on the back-channel: value, and whether it is a control symbol -/
  sent : List (Nat × Bool) := []
deriving DecidableEq, Repr, Inhabited
/-! ## Correction pipes (04_correction_pipes.md) -/

/-- A line accepted by a port: waiting, or in a pipe (R66, R89). -/
structure CamLine where
  port : Nat := 0
  head : Nat := 0
  ctx : Nat := 0
  /-- line count -/
  count : Int := 0
  /-- deadline of R14 in ns -/
  deadline : Nat := 0
  settings : Nat := 0
  /-- TEMP of its header, s16 -/
  temp : Nat := 0x8000
  /-- bytes it holds in the ingress buffer -/
  held : Nat := 0
  payload : List Byte := []
deriving DecidableEq, Repr, Inhabited

/-- Statistics of one band (R103): histogram bins away from 0, sum, minimum and maximum. -/
structure StatBand where
  hist : List (Nat × Nat) := []
  sum : Nat := 0
  min : Nat := 0xFFFF
  max : Nat := 0
deriving DecidableEq, Repr, Inhabited

/-- A statistics block (R103). -/
structure StatBlock where
  settings : Nat := 0
  lines : Nat := 0
  /-- CXn_FMT, NB_OUT and STAT_TAP that it was gathered under (R104) -/
  under : Nat × Nat × Nat := (0, 0, 0)
  bands : List StatBand := []
deriving DecidableEq, Repr, Inhabited

/-- The pipes, the waiting lines and the statistics blocks of the 48 contexts. -/
structure Pipes where
  waiting : List CamLine := []
  pipe : Vector (Option CamLine) 8 := Vector.replicate 8 none
  openBlock : Vector (Option StatBlock) 48 := Vector.replicate 48 none
  ready : Vector (Option StatBlock) 48 := Vector.replicate 48 none
deriving DecidableEq, Repr, Inhabited

/-! ## Gap calibration (05_gap_calibration.md) -/

/-- A write set of R98 that is not yet live: entries of the correction table from `base` on, live from line count `a` on. -/
structure WriteSet where
  ctx : Nat := 0
  a : Int := 0
  base : Nat := 0
  values : List Nat := []
  /-- made by a run's COMPUTE -/
  byRun : Bool := false
deriving DecidableEq, Repr, Inhabited

/-- The values a write set replaced, for lines of its context before `a` that are not corrected yet. -/
structure OldEntries where
  ctx : Nat := 0
  a : Int := 0
  base : Nat := 0
  values : List Nat := []
deriving DecidableEq, Repr, Inhabited

/-- The classes of one view line (R149): bit c set where cell c is not class 0; none for a lost-line marker. -/
structure MaskLine where
  count : Int := 0
  foreground : Option Nat := none
deriving DecidableEq, Repr, Inhabited

/-- The active run (Table 5.2); CAL_STATUS holds its context and state. -/
structure CalRun where
  startLine : Int := 0
  /-- trigger stamp of the start line, ns -/
  startT : Nat := 0
  /-- T_r of the run, s16; none without a temperature -/
  tr : Option Nat := none
  /-- next sampled line to accumulate or skip -/
  next : Int := 0
  /-- completing line L_c, and apply line A -/
  lc : Int := 0
  a : Int := 0
  /-- hold-ring slot that the next sampled line takes -/
  slot : Nat := 0
  /-- the context's sets as they stood before COMPUTE (Table 5.2) -/
  undo : Option CalContent := none
deriving DecidableEq, Repr, Inhabited

/-- What the block keeps of a context beside its registers and the working copy. -/
structure CalCtx where
  /-- T_cur, s16 -/
  tCur : Option Nat := none
  /-- trigger stamp of the start line of its last run, ns -/
  lastStart : Option Nat := none
deriving DecidableEq, Repr, Inhabited

/-- A commit to MRAM (R123): footprint and record, with the addresses they go to. -/
structure MramCommit where
  ctx : Nat := 0
  footAddr : Nat := 0
  foot : List Byte := []
  recAddr : Nat := 0
  record : List Byte := []
deriving DecidableEq, Repr, Inhabited

/-- The calibration block. -/
structure Cal where
  run : Option CalRun := none
  /-- sampled lines whose values stand in the hold ring, newest first, each with its slot -/
  captured : List (Int × Nat) := []
  /-- TEMP of accepted lines of the run context, newest first -/
  temps : List (Int × Nat) := []
  masks : Vector (List MaskLine) 4 := Vector.replicate 4 []
  ctx : Vector CalCtx 48 := Vector.replicate 48 {}
  sets : List WriteSet := []
  olds : List OldEntries := []
  /-- BASE_ID of the image in use -/
  baseId : Nat := 0
  commit : Option MramCommit := none
  /-- contexts whose commit waits -/
  waiting : List Nat := []
  /-- time of the first sluice apply, ns (R112) -/
  firstApply : Option Nat := none
deriving DecidableEq, Repr, Inhabited

/-! ## Geometry (06_geometry_stitching.md) -/

/-- A corrected context line in the delay store (R135). -/
structure StoredLine where
  ctx : Nat := 0
  count : Int := 0
  pixels : Nat := 0
  nbOut : Nat := 0
  bands : List (List Nat) := []
deriving DecidableEq, Repr, Inhabited

/-- A view line on its way to the segmenter (R138): its bands, or none for a lost-line marker. -/
structure ViewLine where
  count : Int := 0
  bands : Option (List (List Nat)) := none
deriving DecidableEq, Repr, Inhabited

/-- A row of the history ring that is not yet written (R143). -/
structure HistRow where
  /-- first and last line of the row -/
  first : Int := 0
  last : Int := 0
  /-- address of the tag, and of the row -/
  tagAddr : Nat := 0
  rowAddr : Nat := 0
  lost : Bool := false
  data : List Byte := []
deriving DecidableEq, Repr, Inhabited

/-- Geometry's side of one view. -/
structure View where
  /-- triggered lines that the view has not emitted, oldest first: count, trigger instant T in ns, and whether the line was held by a
  region reset (Table 22.3) -/
  due : List (Int × Nat × Bool) := []
  /-- emitted lines that the segmenter has not taken (R167) -/
  store : List ViewLine := []
  /-- first line of a row of two lines (R141) -/
  half : Option ViewLine := none
  /-- rows not yet written, oldest first -/
  rows : List HistRow := []
  /-- apply lines from which the ring starts empty, whose first row is not yet written (R143) -/
  starts : List Int := []
deriving DecidableEq, Repr, Inhabited

/-- Geometry. -/
structure Geo where
  stored : List StoredLine := []
  /-- context lines whose view line has been marked lost for want of them: context and count (R15) -/
  condemned : List (Nat × Int) := []
  views : Vector View 4 := Vector.replicate 4 {}
deriving DecidableEq, Repr, Inhabited

/-! ## Segmentation and the basin (07_segmentation_basin.md) -/

/-- A run of the last processed line (R150, R157): its cells, the object it belongs to, and the cells of it whose left, right and
upper neighbours lie in the object, so that only the cell below decides whether they count in PERIM (R159). -/
structure SegRun where
  first : Nat := 0
  last : Nat := 0
  owner : Option Nat := none
  inner : List Nat := []
deriving DecidableEq, Repr, Inhabited

/-- An open object, or one that step 9 closed and whose closing line has not come: exact sums over its cells (R159), with line counts
as y. -/
structure Obj where
  id : Nat := 0
  first : Int := 0
  /-- line at which its chain of SPLIT and CONT began (R440) -/
  chain : Int := 0
  last : Int := 0
  xMin : Nat := 0
  xMax : Nat := 0
  area : Nat := 0
  perClass : List Nat := []
  sums : List Nat := []
  sx : Nat := 0
  sxx : Nat := 0
  sy : Int := 0
  syy : Int := 0
  sxy : Int := 0
  perim : Nat := 0
  /-- VIEW_FLAGS [6:0] of Table 7.2 -/
  flags : Nat := 0
deriving DecidableEq, Repr, Inhabited

/-- An object descriptor (Table 7.2), each field saturated to its width. -/
structure Desc where
  view : Nat := 0
  id : Nat := 0
  /-- LINE_FIRST as a line count -/
  first : Int := 0
  lines : Nat := 0
  flags : Nat := 0
  xMin : Nat := 0
  xMax : Nat := 0
  area : Nat := 0
  cx : Nat := 0
  cy : Nat := 0
  perim : Nat := 0
  perClass : List Nat := []
  sums : List Nat := []
  mu20 : Nat := 0
  mu02 : Nat := 0
  mu11 : Int := 0
deriving DecidableEq, Repr, Inhabited

/-- A closed object and its closing line. -/
structure Closed where
  closing : Int := 0
  desc : Desc := {}
  /-- it had a qualifying candidate at some line while it waited (R163) -/
  shared : Bool := false
deriving DecidableEq, Repr, Inhabited

/-- One segmenter. SEGv_NEXT_ID holds its object counter. -/
structure Seg where
  objs : List Obj := []
  /-- last processed line and its runs -/
  prev : Option Int := none
  runs : List SegRun := []
  /-- OBJ_IDs of the seeds among the owners of `runs` -/
  seeds : List Nat := []
  /-- line at which the chain of each seed began -/
  chains : List (Nat × Int) := []
  /-- consecutive lost lines up to now -/
  lostRun : Nat := 0
  /-- objects that step 9 closed in the last line; their closing line is the next one -/
  split : List Obj := []
  /-- last line processed, lost lines included -/
  last : Option Int := none
  /-- WIDTH of the last line processed -/
  width : Nat := 0
  /-- closed objects not yet in the waiting set, in the order of R155 -/
  queue : List Closed := []
  waiting : List Closed := []
deriving DecidableEq, Repr, Inhabited

/-- A sighting (Table 7.3). -/
structure Sighting where
  id : Nat := 0
  height : Nat := 0
  /-- FORM_LINE as a line count -/
  form : Int := 0
  front : Option Desc := none
  rear : Option Desc := none
  xMin : Nat := 0
  xMax : Nat := 0
  first : Int := 0
  lines : Nat := 0
  area : Nat := 0
  cx : Nat := 0
  centre : Int := 0
  centreFrac : Nat := 0
  flags : Nat := 0
deriving DecidableEq, Repr, Inhabited

/-- The segmenters and the basin. -/
structure Basin where
  seg : Vector Seg 4 := Vector.replicate 4 {}
  /-- triggered lines whose sighting formation has not run, oldest first, per height -/
  formQ : Vector (List Int) 2 := Vector.replicate 2 []
  /-- sighting formation of lines from this one on is held until the counters and observers of a join arrive (R440) -/
  holdFrom : Option Int := none
deriving DecidableEq, Repr, Inhabited


/-! ## Transport axes (10_transport_axes.md) -/

/-- An SSI frame in progress (R231): its latch instant, and the level of the data line at it. -/
structure SsiFrame where
  t : Nat := 0
  dataHigh : Bool := false
deriving DecidableEq, Repr, Inhabited

/-- The writes of TRAn_CTRL in one cycle, which take effect after a hardware event of that cycle (R240). -/
structure AxisCtl where
  /-- device time and ECLK cycle of the writes -/
  t : Nat := 0
  cycle : Nat := 0
  /-- status before them -/
  refArmed : Bool := false
  listArmed : Bool := false
  ptr : Nat := 0
  uncertain : Bool := false
  /-- what they ask: REF_ARM, LIST_ARM (true) or LIST_STOP (false), CLR_UNCERT -/
  refArm : Bool := false
  list : Option Bool := none
  clr : Bool := false
deriving DecidableEq, Repr, Inhabited

/-- A list entry as it was before a write, with the device time and ECLK cycle of the write (R239). -/
structure ListOld where
  entry : Nat := 0
  value : Nat := 0
  t : Nat := 0
  cycle : Nat := 0
deriving DecidableEq, Repr, Inhabited

/-- One axis. -/
structure Axis where
  /-- count N, u48 -/
  n : Nat := 0
  /-- last accepted levels of tracks A and B, and of TRAn_Z where one is known -/
  a : Bool := false
  b : Bool := false
  z : Option Bool := none
  /-- sign of the last non-zero step: true negative -/
  lastNeg : Option Bool := none
  obs : Observer := {}
  /-- earlier states of the observer that an instant of the last 2 µs may still name (R236), newest first -/
  past : List Observer := []
  /-- last SSI value -/
  uPrev : Option Nat := none
  frame : Option SsiFrame := none
  /-- QERR events of the current window of one second, its seconds count, and whether it has reported (R228) -/
  qerrs : Nat := 0
  qerrWin : Option Nat := none
  qerrHit : Bool := false
  /-- level of TRAn_CLK: low for an incremental axis, idle high and low from the latch instant of a frame for SSI (Table 10.1, R231) -/
  clk : Bool := false
  /-- time of the newest observer state where it is an inserted standstill measurement (R235) -/
  stillAt : Option Nat := none
  /-- the last writes of TRAn_CTRL (R240), and the list entries that the last writes of the list have replaced (R239) -/
  ctl : Option AxisCtl := none
  listOld : List ListOld := []
  /-- trigger instant of the apply that last restarted the observer, and of an apply that an early sample has met (R241) -/
  initAt : Option Nat := none
  caught : Option Nat := none
deriving DecidableEq, Repr, Inhabited


/-! ## Flight, judgement and ejection (08_judgement.md, 09_flight_ejection.md) -/

/-- A sighting with its crossing time t_s and the stamps of the first and last line of its span (R194). -/
structure FlySight where
  s : Sighting := {}
  t : Nat := 0
  tF : Nat := 0
  tB : Nat := 0
deriving DecidableEq, Repr, Inhabited

/-- An upper sighting in the store, with its expiry line E (R195). -/
structure UpperEntry where
  f : FlySight := {}
  exp : Int := 0
deriving DecidableEq, Repr, Inhabited

/-- The flight matcher. -/
structure Fly where
  upper : List UpperEntry := []
  /-- lower sightings that no matcher step has processed -/
  lower : List FlySight := []
  /-- lines whose lower formation has finished and whose matcher step has not run -/
  stepQ : List Int := []
  /-- lane observers; each starts from V_INIT -/
  obs : Vector Observer 64 := Vector.replicate 64 { x0 := 0x0E100000 }
  /-- apply lines whose lane restart has not been made (R203) -/
  restarts : List Int := []
deriving DecidableEq, Repr, Inhabited

/-- The flight of an object to one row in use (R200 to R202, R209). -/
structure RowFlight where
  row : Nat := 0
  /-- Δ_LE, or Δ of an upper-only object -/
  delta : Nat := 0
  tE : Nat := 0
  xE : Nat := 0
  /-- d[r] -/
  shift : Int := 0
  tF : Nat := 0
  tB : Nat := 0
  /-- decision deadline -/
  deadline : Nat := 0
deriving DecidableEq, Repr, Inhabited

/-- What the forest found for an object (R176). -/
structure Forest where
  cls : Nat := 0
  margin : Int := 0
  /-- transport stamp at which the scores were ready -/
  at_ : Nat := 0
  /-- the evaluation was stopped (R177) -/
  stopped : Bool := false
deriving DecidableEq, Repr, Inhabited

/-- Where the cascade has sent an object (R178). -/
inductive Selection where
  | waiting
  /-- decided by the forest alone: no candidate -/
  | forest
  | denied
  /-- granted, patch not classified yet -/
  | granted
  /-- classified, with its class -/
  | classified (cls : Nat)
  /-- its classification was stopped (R185) -/
  | stopped
deriving DecidableEq, Repr, Inhabited

/-- An object in judgement. -/
structure JObj where
  /-- feature code of Table 9.1 -/
  mode : Nat := 0
  /-- JUDGE_FLAGS set so far -/
  flags : Nat := 0
  /-- judgement line -/
  j : Int := 0
  dec : FlySight := {}
  upper : Option FlySight := none
  /-- Δt_UL of a matched flight -/
  dt : Option Nat := none
  /-- v_L, Q16.16 mm/s; none in belt mode -/
  vL : Option Nat := none
  rows : List RowFlight := []
  /-- cycle of J, and the grant and capacity live for it (R178, R179) -/
  cycle : Nat := 0
  g : Nat := 0
  q : Nat := 0
  cap : Nat := 0
  forest : Option Forest := none
  sel : Selection := .waiting
deriving DecidableEq, Repr, Inhabited

/-- Judgement. -/
structure Judge where
  /-- objects delivered and not released, in judgement order -/
  objs : List JObj := []
  /-- cycle, G and Q of the last grants, newest first -/
  grants : List (Nat × Nat × Nat) := []
  /-- objects classified per cycle -/
  used : List (Nat × Nat) := []
  /-- CAP of the live configuration with the array on, and of the one before the last apply (R179) -/
  capLive : Nat := 0
  capOld : Nat := 0
  /-- bytes of the digest of each cycle so far (R441) -/
  digests : List (Nat × List Byte) := []
  /-- records in the buffer of the object-stream engine, oldest first, and those dropped since its last datagram (R322) -/
  stream : List (List Byte) := []
  dropped : Nat := 0
deriving DecidableEq, Repr, Inhabited

/-- A pending window of a valve channel (R210 to R213). -/
structure Window where
  chan : Nat := 0
  opn : Nat := 0
  cls : Nat := 0
deriving DecidableEq, Repr, Inhabited

/-- Limit state of one channel of a spout port (Table 9.6); times are target instants in ns. -/
structure SpoutChan where
  out : Bool := false
  onAt : Nat := 0
  offAt : Option Nat := none
  /-- forced to 0 by MAXON until its requested bit has been 0 for one frame -/
  held : Bool := false
  /-- millisecond for whose rest DUTY forces it to 0 -/
  cutMs : Option Nat := none
  /-- output-1 frames per millisecond of the last 1,001 -/
  duty : List (Nat × Nat) := []
deriving DecidableEq, Repr, Inhabited

/-- One spout port. SPn_STATUS holds its state. -/
structure Spout where
  /-- SEQ of the next frame -/
  seq : Nat := 0
  chans : Vector SpoutChan 128 := Vector.replicate 128 {}
  /-- symbols 1 to 26 of the frame last sent; empty where K28.5 went out -/
  sent : List Byte := []
  /-- channels whose bit is 1 in the last frame sent (R254) -/
  lastBits : List Nat := []
  /-- SEQ and end instant in ns of the last 256 frames, newest first -/
  sentAt : List (Nat × Nat) := []
  /-- in SAFE after a reset of the Actuation region or the exit from the safe state: first cycle index that may bring RUN (Table 22.3) -/
  awaiting : Bool := false
  fromCycle : Option Nat := none
  /-- the return to RUN, or the entry to HOLD, is made at the next frame (R434) -/
  next : Option Nat := none
deriving DecidableEq, Repr, Inhabited

/-- The ejector scheduler and the spout ports. -/
structure Eject where
  /-- pending windows, in the order of their insertion -/
  windows : List Window := []
  spouts : Vector Spout 4 := Vector.replicate 4 {}
deriving DecidableEq, Repr, Inhabited


/-! ## The monitoring chain (11_monitor_chain.md) -/

/-- An output of a channel that has not been taken in (R249 to R252). -/
structure MonOut where
  y : Int := 0
  /-- time of the centre of its support, ns -/
  t : Nat := 0
  settled : Bool := false
  gap : Bool := false
  /-- time of the sample that produced it, which decides the configuration it is judged under (R256) -/
  made : Nat := 0
deriving DecidableEq, Repr, Inhabited

/-- How far a signature has come (R254). -/
inductive SigPhase where
  /-- open: waiting for THR_HI; close: no output examined yet -/
  | wait
  /-- first extreme, and second extreme, with its value and time -/
  | first (y : Int) (t : Nat)
  | second (y : Int) (t : Nat)
deriving DecidableEq, Repr, Inhabited

/-- A pending signature. -/
structure Signature where
  opening : Bool := true
  tCmd : Nat := 0
  phase : SigPhase := .wait
deriving DecidableEq, Repr, Inhabited

/-- One channel. MON_Cc_STATUS shows whether it is in service. -/
structure MonChan where
  /-- start index n_0 -/
  start : Nat := 0
  /-- CFG, DEC and stage registers it runs under (R256) -/
  under : List Nat := []
  /-- inputs of each stage, newest first -/
  stages : List (List Nat) := []
  /-- decimated samples, newest first -/
  u : List Nat := []
  /-- samples of the block in progress, newest first (R252) -/
  block : List Nat := []
  /-- index of the last filler sample -/
  lastGap : Option Nat := none
  outs : List MonOut := []
  /-- time of the output in MON_Cc_OUT -/
  outTime : Nat := 0
  sig : Option Signature := none
deriving DecidableEq, Repr, Inhabited

/-- The chain. -/
structure Mon where
  chans : Vector MonChan 32 := Vector.replicate 32 {}
  /-- MON_CLK edges, and slots of each port, since the chain's enable -/
  clk : Nat := 0
  slots : Vector Nat 4 := Vector.replicate 4 0
  /-- times of the MON_CLK edges since the enable, and of bit 0 of each slot's word of each port, newest first, as far back as the centre of
  a support can lie (R251, R252) -/
  clkTimes : List Nat := []
  slotTimes : Vector (List Nat) 4 := Vector.replicate 4 []
  /-- time of the last MON_CLK edge, and of the last slot of each port -/
  lastClk : Nat := 0
  lastSlot : Vector Nat 4 := Vector.replicate 4 0
  /-- consecutive slots of each port without a valid frame -/
  silent : Vector Nat 4 := Vector.replicate 4 0
deriving DecidableEq, Repr, Inhabited


/-! ## Time base and timed I/O (12_time_base.md) -/

/-- The time-of-day counter of R258. -/
structure Tod where
  /-- u48 -/
  sec : Nat := 0
  /-- u30, below 10^9 -/
  ns : Nat := 0
  /-- u32, units of 2^-32 ns -/
  frac : Nat := 0
deriving DecidableEq, Repr, Inhabited

/-- One entry of the timestamp queue (R271, R272). -/
structure TsqEntry where
  tx : Bool := false
  msgType : Nat := 0
  domain : Nat := 0
  seqId : Nat := 0
  /-- units of 1/256 ns -/
  frac : Nat := 0
  ns : Nat := 0
deriving DecidableEq, Repr, Inhabited

/-- The transport stamp and speed recorded for one line (R267). -/
structure LineStamp where
  /-- line count of R264 -/
  count : Int := 0
  /-- trigger instant t_L in ns -/
  t : Nat := 0
  ts : Nat := 0
  speed : Int := 0
deriving DecidableEq, Repr, Inhabited

/-- What a TIO unit holds beside its registers. -/
structure TioUnit where
  /-- pulses scheduled and not yet started: start and end instants in ns (R276) -/
  pulses : List (Nat × Nat) := []
  /-- end instant of the pulse that is active -/
  endAt : Option Nat := none
  /-- number of the next PERIODIC pulse -/
  k : Nat := 0
  /-- next line whose LINE pulse has not started -/
  line : Option Int := none
  /-- capture FIFO: stamp, and whether the edge rose (R279) -/
  fifo : List (Nat × Bool) := []
  /-- device time of the ARM in ns (R276) -/
  armedAt : Nat := 0
  /-- output held at its SAFE level until armed or written in STATIC mode (R280) -/
  atSafe : Bool := false
deriving DecidableEq, Repr, Inhabited

/-- The time base. -/
structure TimeBase where
  tod : Tod := {}
  /-- TCLK edges since PORST_N (2 ns each): the true time of every interval the spec gives in µs -/
  edges : Nat := 0
  /-- slew remainder of R260, units of 2^-32 ns -/
  slew : Int := 0
  /-- line count C of the current line (R264) -/
  count : Int := 0
  /-- count of the next line the running generator triggers -/
  next : Int := 0
  /-- count of the first line the running generator triggers (R265) -/
  first : Int := 0
  /-- count of the line that was current when the generator started -/
  prior : Int := 0
  /-- live anchor while the generator runs: count and T_A of R264 -/
  anchor : Int × Nat := (0, 0)
  /-- grids the running generator has left at period changes (R266), newest first: anchor count, T_A and the period in 2^-32 ns -/
  grids : List (Int × Nat × Nat) := []
  /-- stamps of the last 16,384 lines (R194), newest first -/
  stamps : List LineStamp := []
  /-- lines triggered in belt mode whose stamp is not recorded yet (R267): count and trigger instant in ns -/
  unstamped : List (Int × Nat) := []
  tsq : List TsqEntry := []
  /-- TB_PPS as it stood at the last whole second (R274) -/
  ppsLive : Word := 0x000186A0#32
  /-- level of PPS_OUT -/
  ppsOut : Bool := false
  tio : Vector TioUnit 16 := Vector.replicate 16 {}
deriving DecidableEq, Repr, Inhabited

/-! ## External DRAM (13_external_dram.md) -/

/-- A request to a DRAM controller (R290, R293). -/
structure MemReq where
  port : Nat := 0
  /-- request ID on the port: port and ID are the source of R294 -/
  source : Nat := 0
  /-- system address, and bytes to read or to write within one 64-byte burst -/
  addr : Nat := 0
  len : Nat := 0
  write : Bool := false
  data : List Byte := []
  /-- place in the order of issue over all controllers -/
  issue : Nat := 0
  /-- DCLK cycle in which it reached the controller, and in which it was accepted (R293) -/
  arrived : Nat := 0
  accepted : Nat := 0
  /-- urgency reached so far (R291), and the latency target it was accepted under, ns (R292) -/
  urgency : Nat := 0
  target : Nat := 0
deriving DecidableEq, Repr, Inhabited

/-- An entry of the code cache: the code burst at a system address of its own in the top eighth of the rows, and its 64 bytes (R287,
R288). -/
structure CodeEntry where
  addr : Nat := 0
  codes : List Byte := []
deriving DecidableEq, Repr, Inhabited

/-- What the last read of a source delivered (R290). -/
structure MemReply where
  port : Nat := 0
  source : Nat := 0
  data : List Byte := []
deriving DecidableEq, Repr, Inhabited

/-- One controller. MEMn_STATUS holds its state, refresh debt and multiplier. -/
structure MemCtl where
  /-- accepted requests, in the order of acceptance -/
  queue : List MemReq := []
  /-- requests that wait at their port for a free entry -/
  waiting : List MemReq := []
  /-- open row of each bank (R296) -/
  rows : Vector (Option Nat) 16 := Vector.replicate 16 none
  /-- bank of the next refresh (R297) -/
  refBank : Nat := 0
  /-- latest DCLK cycle seen -/
  cycle : Nat := 0
  /-- the 64 cached code bursts (R288) -/
  cache : List CodeEntry := []
  /-- a drift retraining waits for its slot (R299) -/
  slotDue : Bool := false
deriving DecidableEq, Repr, Inhabited

/-- A served request that waits at its port for an earlier one of its source: what its read found, and whether it failed (R294). -/
structure MemDone where
  req : MemReq := {}
  data : List Byte := []
  bad : Bool := false
deriving DecidableEq, Repr, Inhabited

/-- The controllers. -/
structure Dram where
  ctl : Vector MemCtl 4 := Vector.replicate 4 {}
  /-- number of requests issued so far -/
  issued : Nat := 0
  /-- port and address of the reads of MP1, MP6 and MP7 that failed, until their client has acted on them (Table 13.5) -/
  badReads : List (Nat × Nat) := []
  /-- served requests that wait at their ports, in the order of issue -/
  done : List MemDone := []
  /-- what reads delivered, one entry a source, the newest first (R290) -/
  replies : List MemReply := []
deriving DecidableEq, Repr, Inhabited
/-! ## Ethernet and KCP (14_ethernet_kcp.md) -/

/-- A reply of the KCP server (R313): the request's code, session and SEQ, STATUS, the reply body behind it, and the tag. -/
structure KcpReply where
  code : Nat := 0
  session : Nat := 0
  seq : Nat := 0
  status : Nat := 0
  body : List Byte := []
  tag : List Byte := []
deriving DecidableEq, Repr, Inhabited

/-- A KCP session (R315 to R318). -/
structure Session where
  id : Nat := 0
  role : Nat := 0
  /-- session key K_s, where the session is authenticated -/
  key : Option (List Byte) := none
  client : KcpAddr := {}
  port : Nat := 0
  maxBody : Nat := 0
  /-- SEQ of the last accepted request, and whether it still runs -/
  last : Nat := 0
  pending : Bool := false
  /-- final replies to the last requests, newest first -/
  replies : List KcpReply := []
deriving DecidableEq, Repr, Inhabited

/-- An entry of the image's role table (R316): prefix, maximum role, AUTH_REQ and key index. -/
structure RoleEntry where
  v6 : Bool := false
  bits : Nat := 0
  len : Nat := 0
  maxRole : Nat := 1
  auth : Bool := false
  key : Nat := 0
deriving DecidableEq, Repr, Inhabited

/-- An erase or program of the flash in progress (R321): session, SEQ, erase or program, offset, and the data. -/
structure NvOp where
  session : Nat := 0
  seq : Nat := 0
  erase : Bool := false
  offset : Nat := 0
  len : Nat := 0
  data : List Byte := []
deriving DecidableEq, Repr, Inhabited

/-- The object stream: its session and destination port (R322). -/
structure ObjStream where
  session : Nat := 0
  port : Nat := 0
deriving DecidableEq, Repr, Inhabited

/-- A capture fetch in progress (R323): session, SEQ of the request, destination port, next offset and end. -/
structure CapFetch where
  session : Nat := 0
  seq : Nat := 0
  port : Nat := 0
  next : Nat := 0
  stop : Nat := 0
deriving DecidableEq, Repr, Inhabited

/-- A stream datagram: the template it was built behind, destination port, TYPE, session, SEQ and body (R322, R323). -/
structure Datagram where
  head : List Byte := []
  port : Nat := 0
  type : Nat := 0
  session : Nat := 0
  seq : Nat := 0
  body : List Byte := []
deriving DecidableEq, Repr, Inhabited

/-- What the device advertises in auto-negotiation (R301). -/
structure Advert where
  kr4 : Bool := true
  cr4 : Bool := true
  rsFec : Bool := true
  pauseRx : Bool := false
  pauseTx : Bool := false
deriving DecidableEq, Repr, Inhabited

/-- A frame of the runtime or of the boot ROM in the firmware transmit ring: a KCP reply with its client and port, or the bytes of a frame
without tag and FCS (R308, Table 14.3). -/
inductive FirmFrame where
  | kcp (r : KcpReply) (client : KcpAddr) (port : Nat)
  | bytes (frame : List Byte)
deriving DecidableEq, Repr, Inhabited

/-- The DHCPv4 client (Table 14.3): its transaction and, once it has one, the offer it asked for or the address it holds. -/
inductive Dhcp where
  | off
  | selecting (xid : Nat)
  | requesting (xid ip server : Nat)
  | bound (ip : Nat)
deriving DecidableEq, Repr, Inhabited

/-- What the transmitter sent last. -/
inductive SentEth where
  | none
  | pause (quanta : Nat)
  /-- a frame of the firmware ring, and whether the hardware filled in its checksums -/
  | ring (bytes : List Byte) (csum : Bool)
  /-- a frame of the runtime, and a datagram of a stream engine with its frame -/
  | firm (bytes : List Byte)
  | stream (d : Datagram) (bytes : List Byte)
deriving DecidableEq, Repr, Inhabited

/-- The Ethernet port and the KCP server. -/
structure Eth where
  /-- PAUSE frames that wait for a frame boundary, and whether the last one asked the far end to stop (R304) -/
  pauseOut : List Nat := []
  stopped : Bool := false
  /-- datagrams of the object-stream and of the capture-fetch engine that are ready -/
  objOut : List Datagram := []
  capOut : List Datagram := []
  sent : SentEth := .none
  sessions : List Session := []
  /-- role table and keys of the image; none without a role table -/
  roles : Option (List RoleEntry) := none
  keys : List (List Byte) := []
  objStream : Option ObjStream := none
  fetch : Option CapFetch := none
  nv : List NvOp := []
  /-- datagrams discarded under R312 -/
  discarded : Nat := 0
  /-- the reply made last -/
  reply : Option KcpReply := none
  /-- frames of the runtime that wait for a slot of the firmware ring, or of the boot ROM, oldest first -/
  firm : List FirmFrame := []
  /-- clients whose MAC address has been asked for -/
  asked : List KcpAddr := []
  /-- what auto-negotiation advertises; none outside MODE 0 -/
  advert : Option Advert := none
  /-- MAC addresses of neighbours, newest first -/
  neighbours : List (KcpAddr × Nat) := []
  dhcp : Dhcp := .off
  /-- where section 0x07 lies in core memory, and in the flash, as address and length (R317) -/
  keysAt : Option (Nat × Nat) := none
  keysFrom : Option (Nat × Nat) := none
  /-- CASC_REC_DROP as the runtime has accumulated it from reads (Table 14.7) -/
  recDrop : Nat := 0
deriving DecidableEq, Repr, Inhabited


/-! ## Capture (15_capture_coder.md) -/

/-- A capture window of a group, as the group started with it (R339). -/
structure CapWindow where
  k : Nat := 0
  view : Nat := 0
  x0 : Nat := 0
  x1 : Nat := 0
  bands : Nat := 0
  /-- BITS code -/
  bits : Nat := 0
deriving DecidableEq, Repr, Inhabited

/-- The rings that a group or block is stored in: bases, DATA_LOG2, IDX_LOG2, stop mode, and how many applies had reset the positions. -/
structure CapRings where
  data : Nat := 0
  idx : Nat := 0
  dataLog : Nat := 28
  idxLog : Nat := 16
  stop : Bool := false
  gen : Nat := 0
deriving DecidableEq, Repr, Inhabited

/-- A group being coded: its first line count, its windows, and the lines of its views that geometry has emitted. -/
structure CapGroup where
  first : Int := 0
  wins : List CapWindow := []
  rings : CapRings := {}
  lines : List (Nat × ViewLine) := []
deriving DecidableEq, Repr, Inhabited

/-- A block in the output buffer (R337). -/
structure CapBlock where
  bytes : List Byte := []
  line : Nat := 0
  window : Nat := 0
  band : Nat := 0
  view : Nat := 0
  col : Nat := 0
  raw : Bool := false
  rings : CapRings := {}
deriving DecidableEq, Repr, Inhabited

/-- The capture block. CAP_Wk_STATE holds the groups remaining. -/
structure Cap where
  groups : List CapGroup := []
  buffer : List CapBlock := []
  wpos : Nat := 0
  ipos : Nat := 0
  /-- how many applies have reset the positions (R333), and the positions of earlier rings whose blocks are still to be stored -/
  gen : Nat := 0
  olds : List (Nat × Nat × Nat) := []
  /-- EN and the registers of each window, as of the last group start (R339) -/
  enabled : Bool := false
  keys : Vector (List Nat) 8 := Vector.replicate 8 []
  /-- TRIG 2 of a window has fired since its apply; an apply of a window that no group has started under yet (Table 15.1) -/
  fired : Vector Bool 8 := Vector.replicate 8 false
  rearm : Vector Bool 8 := Vector.replicate 8 false
  /-- last line of each view that geometry has emitted -/
  last : Vector (Option Int) 4 := Vector.replicate 4 none
deriving DecidableEq, Repr, Inhabited

/-! ## Energy (20_reservoir_weir.md) -/

/-- The reservoir and the weir. RSV_STATUS holds demands, stage and NCLK. -/
structure Rsv where
  /-- accumulators of regions 1 to 6, µJ with 16 fraction bits -/
  acc : Vector Nat 6 := Vector.replicate 6 0
  /-- energy of the cycle in progress per region, the same unit -/
  cyc : Vector Nat 6 := Vector.replicate 6 0
  /-- energy, µJ, and length, ns, of the last 16 completed cycles, newest first -/
  hist : List (Nat × Nat) := []
  /-- trigger instant of the first line of the cycle in progress -/
  cycStart : Option Nat := none
  /-- highest junction temperature of the cycle in progress, 0.125 °C -/
  tj : Option Int := none
  plans : List PlanBody := []
  /-- plan in force -/
  plan : PlanBody := {}
  /-- consecutive decisions with P16 above 1.15 × LIMIT, and at or below LIMIT -/
  overCount : Nat := 0
  under : Nat := 0
  /-- consecutive cycles above 130 °C, and at or below 125 °C -/
  hotCycles : Nat := 0
  coolCycles : Nat := 0
  /-- stages decided for the cycles to come: cycle index and own demand -/
  stages : List (Nat × Nat) := []
  /-- demands of the partner: cycle decided at, and demand -/
  partner : List (Nat × Nat) := []
  /-- decisions at stage 3 with P16 > 1.15 × LIMIT (R427) -/
  overRt : Nat := 0
  /-- count of the first line of the last cycles, newest first, and whether gap calibration is suspended in the cycle (R422, R426) -/
  calOff : List (Int × Bool) := []
  /-- RSV registers of an applied commit that wait for the first line of a cycle (R428) -/
  later : List (Nat × Word) := []
deriving DecidableEq, Repr, Inhabited

/-! ## Cores, mailboxes, locks and check-value units (16_control_cores.md, 17_dma_crc.md)
LCKk holds the owner of lock k as identity + 1, 0 when free. -/

/-- A line of 64 bytes in a cache of a core (R341, R344): its address divided by 64. -/
structure CacheLine where
  line : Nat := 0
  bytes : List Byte := []
  dirty : Bool := false
deriving DecidableEq, Repr, Inhabited

/-- The registers of a hart (R341): program counter, machine or user mode, integer and floating-point registers, and the control and
status registers that differ from the reset values of `csrTable`, the 16 PMP regions and the counters among them. -/
structure Hart where
  pc : DWord := 0x1000#64
  machine : Bool := true
  x : Vector DWord 32 := Vector.replicate 32 0#64
  f : Vector DWord 32 := Vector.replicate 32 0#64
  csrs : List (Nat × DWord) := []
deriving DecidableEq, Repr, Inhabited

/-- What the block holds of one core beside its registers in the CORE page. -/
structure CoreX where
  /-- TCLK edges at the last restart of its watchdog count (R347) -/
  kickAt : Nat := 0
  hart : Hart := {}
  /-- its data cache and its instruction cache (R341, R344) -/
  dcache : List CacheLine := []
  icache : List CacheLine := []
  /-- cache operation in progress: OP, first line address, lines (R344) -/
  cmo : Option (Nat × Nat × Nat) := none
  /-- machine timer interrupt pending (R348) -/
  timer : Bool := false
  /-- halt-on-reset set by debug (R350) -/
  haltOnReset : Bool := false
  /-- edges count at which debug halted it -/
  haltAt : Option Nat := none
  /-- its eight triggers: tdata1 and tdata2 (R350) -/
  triggers : Vector (Nat × Nat) 8 := Vector.replicate 8 (0, 0)
  /-- what dmstatus shows of it: reset since the last ackhavereset, and resumed since the last resume request (R350) -/
  haveReset : Bool := true
  resumeAck : Bool := false
deriving DecidableEq, Repr, Inhabited

/-- The debug module (R350). -/
structure DebugX where
  active : Bool := false
  sberror : Bool := false
  /-- cmderr of abstractcs: 0 none, 3 exception, 4 hart not halted -/
  cmderr : Nat := 0
  progbuf : Vector Word 8 := Vector.replicate 8 0#32
  /-- what was asked for last: of an abstract register access, a system bus read or a scan -/
  data : Nat := 0
  /-- hartsel, data0 and data1, sbaddress, sbdata, and of sbcs readonaddr, access, autoincrement and readondata -/
  hart : Nat := 0
  arg : Nat := 0
  sbAddr : Nat := 0
  sbData : Nat := 0
  sbOnAddr : Bool := false
  sbAccess : Nat := 2
  sbIncr : Bool := false
  sbOnData : Bool := false
deriving DecidableEq, Repr, Inhabited

/-- The test access port (R485): the instruction in force, and the boundary-scan register, one cell a ball. -/
structure Jtag where
  ir : JtagIr := .idcode
  /-- what the next scan of dmi captures: address, data and status of the last request -/
  dmi : Nat := 0
  boundary : Vector Bool 73 := Vector.replicate 73 false
deriving DecidableEq, Repr, Inhabited

/-- The cores and the control interconnect. -/
structure Cores where
  core : Vector CoreX 4 := Vector.replicate 4 {}
  /-- claimed interrupt sources: source and context (R349) -/
  claimed : List (Nat × Nat) := []
  /-- pending bits that the gateways have latched (R349) -/
  latched : List Nat := []
  dbgm : DebugX := {}
  jtag : Jtag := {}
  /-- answer to the last access of the control view: its data, and whether it ended with a bus error (R353) -/
  reply : Nat := 0
  busError : Bool := false
deriving DecidableEq, Repr, Inhabited

/-- What a DMA channel holds beside its registers. -/
structure DmaChan where
  /-- bytes of the checksum stream so far, modulo 4 (R368) -/
  pos : Nat := 0
  /-- bytes read and not yet written, oldest first (R364) -/
  data : List Byte := []
  /-- issue slots the channel has waited since its last grant (R376) -/
  waited : Nat := 0
  /-- the write of the check value has been issued (R369) -/
  summed : Bool := false
  /-- domain that waits for the channel to reach PAUSED: 0 the Judgement region, 1 the capture block (R375) -/
  leaving : Option Nat := none
  /-- device times of the last start, of the last start in WAIT, and of the last halt on a bus error (Table 17.1) -/
  began : Option Nat := none
  trigAt : Option Nat := none
  failAt : Option Nat := none
  /-- a read has failed at this address, with this CAUSE: the channel halts once the data that it holds have been written (R374) -/
  halting : Option (Nat × Nat) := none
  /-- address of the last write of a transfer that completed with its issue (R367) -/
  tail : Option Nat := none
deriving DecidableEq, Repr, Inhabited

/-- What a user CRC unit holds beside its registers: the held _HI halves and the captured _HI halves of its pairs POLY, INIT, XOR,
STATE, RESULT and PREFIX (R381). -/
structure CrcUnit where
  held : Vector Word 6 := Vector.replicate 6 0#32
  captured : Vector (Option Word) 6 := Vector.replicate 6 none
deriving DecidableEq, Repr, Inhabited

/-! ## The event fabric (18_event_rills.md) -/

/-- An event on its way: the rill and the stamp it carries (R383), in ns. -/
structure RillEvent where
  rill : Nat := 0
  stamp : Nat := 0
  /-- fired by software, so that the next ECLK cycle takes it (R385) -/
  soft : Bool := false
deriving DecidableEq, Repr, Inhabited

/-- What one logic cell holds beside its registers (R388 to R392); its output is EVT_Ck_CFG.OUT. -/
structure Cell where
  /-- values of the inputs in TOGGLE mode, input 0 first -/
  tog : List Bool := [false, false, false, false]
  /-- value passed on by the filter -/
  passed : Bool := false
  /-- value of f seen in the last cycle, and for how many cycles it has held -/
  cand : Bool := false
  held : Nat := 0
  /-- flip-flop -/
  ff : Bool := false
  /-- stamp of the most recent event that reached any input -/
  lastStamp : Nat := 0
  /-- events fired in the current window of 300 ECLK -/
  fired : Nat := 0
  /-- TCLK edges and ECLK cycles that have passed at the last trip (R392) -/
  tripAt : Option (Nat × Nat) := none
deriving DecidableEq, Repr, Inhabited

/-- The event fabric. -/
structure Evt where
  /-- events fired by producers and by software that no ECLK cycle has taken in yet, oldest first -/
  inflight : List RillEvent := []
  cells : Vector Cell 64 := Vector.replicate 64 {}
  /-- ECLK cycles that have passed -/
  cycle : Nat := 0
  /-- EVT registers of an applied commit that wait for the line event of the apply line, and its stamp (R393) -/
  later : Option (Nat × List (Nat × Word)) := none
deriving DecidableEq, Repr, Inhabited

/-! ## The sluice and start-up (19_startup_sluice.md) -/

/-- The bank of configuration that was live before the last apply, held until every block has switched (R409). -/
structure OldBank where
  /-- first line count under the new bank, and its stamp TS(A) -/
  count : Int := 0
  ts : Nat := 0
  /-- trigger instant of that line, ns -/
  t : Nat := 0
  /-- applied at once, so that every stamp counts from the instant `t` (R406) -/
  now : Bool := false
  /-- every block has switched (R409): the bank governs lines before `count` alone -/
  done : Bool := false
  regs : List (Nat × Word) := []
  tabs : List Host.Cell := []
deriving DecidableEq, Repr, Inhabited

/-- Which part of the check a commit waits for in CHECKING (Table 19.7, R411). -/
inductive CheckPart where
  | hardware | firmware | confirmation
deriving DecidableEq, Repr, Inhabited

/-- Who owns the staging copy in detail (R319); SLU_STATE.OWNER shows the kind. -/
inductive StagingOwner where
  | none
  /-- the Virend runtime: every master but the KCP host proxy -/
  | runtime
  /-- a KCP session -/
  | session (id : Nat)
deriving DecidableEq, Repr, Inhabited

/-- Who has sent a device the commit that it checks (R411). -/
inductive CommitRoot where
  | none
  | partner
  /-- the partner, by the snapshot of a join (R440) -/
  | snapshot
  | device (id : Nat)
deriving DecidableEq, Repr, Inhabited

/-- The sluice. SLU_STATE holds its state. -/
structure Sluice where
  /-- staging copy of the RWS fields: entries for registers staged away from their live value -/
  staged : List (Nat × Word) := []
  /-- staging copy of the RWS tables, the same way -/
  stagedTabs : List Host.Cell := []
  /-- registers written in the staging copy since it was last empty, whatever their values -/
  touched : List Nat := []
  owner : StagingOwner := .none
  part : CheckPart := .hardware
  checkOnly : Bool := false
  /-- line count named by A of the commit in CHECKING or ARMED -/
  count : Int := 0
  old : Option OldBank := none
  /-- forest words and weight bytes written since the check began, by control-view address (code LIVE) -/
  written : List Nat := []
  /-- who wrote the COMMIT in progress: a session by its KCP COMMIT, the runtime, or none of them (R319) -/
  committer : StagingOwner := .none
  /-- TCLK edges at the start of the part of the check that runs -/
  since : Nat := 0
  /-- who sent the commit, where it came from a root or from the active unit of the pair -/
  root : CommitRoot := .none
  /-- members of the chain, by device ID, and the partner of the pair, whose pass is still awaited (R411, R439); and all of them -/
  awaited : List Nat := []
  awaitPartner : Bool := false
  members : List Nat := []
  withPartner : Bool := false
  /-- the root confirms the commit in every frame it sends -/
  confirming : Bool := false
  /-- the first apply has been made -/
  applied : Bool := false
deriving DecidableEq, Repr, Inhabited

/-- How far the boot sequence of Table 19.2 has come. -/
inductive BootPhase where
  /-- held by PORST_N or the power-on detector -/
  | reset
  /-- reset released, PLLs not locked -/
  | released
  /-- steps 2 to 6 done, controllers training -/
  | dram
  /-- step 10 reached -/
  | done
  /-- boot failed; the ROM serves the recovery functions (R402) -/
  | failed
  /-- Ethernet recovery or test mode (Table 19.1) -/
  | recovery | test
deriving DecidableEq, Repr, Inhabited

/-- Start-up. CHIP_BOOT and CHIP_STRAP hold what software sees of it. -/
structure Boot where
  phase : BootPhase := .reset
  /-- edges count at reset release -/
  releasedAt : Nat := 0
  /-- levels latched at reset release -/
  mode : Nat := 0
  /-- clock in MHz of octal DTR, where the flash is read in it (R399, step 4) -/
  octal : Option Nat := none
  /-- the image has passed the signature check (R404) and runs -/
  authentic : Bool := false
  /-- entry address of the image and its sections to load after step 7: type, offset, length, destination -/
  entry : Nat := 0
  sections : List (Nat × Nat × Nat × Nat) := []
deriving DecidableEq, Repr, Inhabited
/-! ## Peer ports and pairing (21_pairing_chains.md) -/

/-- A peer frame (Tables 21.4, 21.5) that waits to be sent; SEQ, and the SRC of a frame of this device, are given when it is sent. -/
structure PeerFrame where
  body : PeerBody := .ack 0
  src : Nat := 0
  dst : Nat := 0xFF
  hops : Nat := 0
  /-- LINE of the header -/
  line : Nat := 0
  /-- reliable sequence number, once it has been sent (R445) -/
  rel : Option Nat := none
deriving DecidableEq, Repr, Inhabited

/-- A reliable frame sent and not acknowledged, with its reliable sequence number and how often it was sent again (R445). -/
structure Unacked where
  rel : Nat := 0
  frame : PeerFrame := {}
  repeats : Nat := 0
deriving DecidableEq, Repr, Inhabited

/-- The frame that a port sent last. -/
structure SentFrame where
  seq : Nat := 0
  frame : PeerFrame := {}
  /-- apply line of the chain commit that the root confirms in every frame (R411) -/
  confirm : Option Nat := none
  /-- header, payload and CRC; a payload that the spec does not lay out is the part's own -/
  bytes : List Byte := []
deriving DecidableEq, Repr, Inhabited

/-- One peer port. PEERn_STATUS holds its state and the far device's ID. -/
structure Peer where
  /-- frames ready to be sent, oldest first -/
  ready : List PeerFrame := []
  /-- SEQ of the next frame, and of the last one received -/
  seqTx : Nat := 0
  seqRx : Option Nat := none
  /-- next reliable sequence numbers to send and to accept -/
  relTx : Nat := 0
  relRx : Nat := 0
  unacked : List Unacked := []
  /-- a HELLO has been received since HELLO was entered -/
  greeted : Bool := false
  /-- lanes OFF for 2 ms after a state timeout (Table 21.6) -/
  resting : Bool := false
  rx : LinkRx := {}
  /-- columns that the port has sent since its last marker column, which is counted (R57) -/
  txCol : Nat := 0
  /-- consecutive aligned and misaligned marker columns (R58) -/
  deskewOk : Nat := 0
  deskewBad : Nat := 0
  /-- lane in link training, and the lane whose request has no reply yet -/
  trainLane : Nat := 0
  trainReq : Option Nat := none
  /-- SEQ and send stamp of the TIME frames sent, newest first; stamp and SEQ of the last two received, newest first (R449) -/
  timeTx : List (Nat × Int) := []
  timeRx : List (Nat × Int) := []
  /-- stamps and SEQ that the last TIME frame carried -/
  far : TimeBody := {}
  /-- what the far end said in its last HELLO -/
  hello : Option HelloBody := none
  sent : Option SentFrame := none
deriving DecidableEq, Repr, Inhabited

/-- A sort cycle that has not committed (R434): its index, the count of the last of its lines once the next cycle has begun, the
trigger instant of the next cycle's first line, and whether its limit has passed. -/
structure OpenCycle where
  cycle : Nat := 0
  last : Option Int := none
  nextT : Nat := 0
  late : Bool := false
deriving DecidableEq, Repr, Inhabited

/-- A digest with its cycle and LOSS (R441). -/
structure CycleDigest where
  cycle : Nat := 0
  digest : Nat := 0
  loss : Nat := 0
deriving DecidableEq, Repr, Inhabited

/-- A join that the active unit serves (R440): sync line and warm line, as counts. -/
structure JoinServe where
  sync : Int := 0
  warm : Int := 0
  /-- counters of views and heights, lane observers and axes, each taken as it stood after line W − 1 -/
  views : List (Nat × Nat) := []
  heights : List (Nat × Nat) := []
  lanes : Option (List Observer) := none
  axes : Option (List (Nat × Nat × Observer)) := none
  sent : Bool := false
deriving DecidableEq, Repr, Inhabited

/-- The self-test of R443. -/
inductive SelfTest where
  | none
  /-- asked for; it runs in the first whole cycle after -/
  | wanted
  | running
  | done (pass : Bool)
deriving DecidableEq, Repr, Inhabited

/-- The pair. PAIR_STATUS holds the unit's state and epoch. -/
structure Pair where
  /-- last STATUS of the partner on the private link, and its arrival in ns of true time -/
  status : Option PairStatus := none
  statusAt : Nat := 0
  /-- the private link has been lost since the unit's state last changed -/
  lost : Bool := false
  /-- count of the revert line named by this unit, or by the partner (R436) -/
  revert : Option Int := none
  /-- consecutive cycles with matching digests, and with mismatches of equal LOSS -/
  okRun : Nat := 0
  badRun : Nat := 0
  /-- own and partner digests of the last cycles, newest first, and self-test results received -/
  own : List CycleDigest := []
  far : List CycleDigest := []
  /-- digests are compared from this cycle on, once set (R440) -/
  compareFrom : Option Nat := none
  /-- lost-line markers emitted per cycle (R441), newest first -/
  loss : List (Nat × Nat) := []
  /-- cycles that have not committed, oldest first -/
  cycles : List OpenCycle := []
  /-- the unit has yielded and waits for the partner's ACTIVE claim, and goes to JOIN instead of PASSIVE then (R442) -/
  yielding : Bool := false
  thenJoin : Bool := false
  /-- join of this unit: sync line, warm line, and counters received for it -/
  sync : Option Int := none
  warm : Option Int := none
  counters : Option (Int × JoinCounters) := none
  /-- join that this unit serves as the active unit -/
  serve : Option JoinServe := none
  /-- items received, with the counts of their apply lines -/
  items : List (Int × ItemBody) := []
  /-- items to be sent at the next first line of a cycle, with their apply lines -/
  outbox : List (Int × ItemBody) := []
  /-- records of the FIRMWARE kind received -/
  firmware : List (List Byte) := []
  self : SelfTest := .none
  /-- own result that the next DIGEST frame carries, and the partner's last one: 0 none, 1 passed, 2 failed -/
  selfOut : Nat := 0
  farSelf : Nat := 0
  /-- cycles whose digests have been compared, newest first -/
  judged : List Nat := []
deriving DecidableEq, Repr, Inhabited


/-! ## The fault collector (22_faults_safe_state.md) -/

/-- How far a regional reset of Table 22.2 has come. -/
inductive RegionPhase where
  | running
  /-- steps 1 to 3: outstanding requests complete -/
  | draining
  /-- step 4: held in reset -/
  | held
deriving DecidableEq, Repr, Inhabited

/-- The fault collector. FLT_STATUS holds SAFE, RESETTING and SAFE_CODE. -/
structure Flt where
  /-- phase of the resets of regions 1 to 6 -/
  phase : Vector RegionPhase 6 := Vector.replicate 6 .running
  /-- transport times of the starts of the last resets, per region, newest first (R461) -/
  starts : Vector (List Nat) 6 := Vector.replicate 6 []
  /-- set points of VDD_CORE and VDD_TIO in mV, taken at reset release (R475) -/
  coreSet : Nat := 0
  tioSet : Nat := 0
  /-- rails outside ±10 % at the last sample (R465) -/
  badRails : List Nat := []
  /-- rails outside ±10 % at the last two samples: their chip cause has been taken -/
  railCauses : List Nat := []
  /-- sensors at 140 °C or more at the last sample (R467) -/
  hot : List Nat := []
  /-- sensors at 140 °C or more at the last two samples -/
  hotCauses : List Nat := []
  /-- true time in ns of the last sample with a sensor above 125 °C -/
  lastWarm : Option Nat := none
  /-- SYS_REFCLK within limits and every PLL locked (R466) -/
  refOk : Bool := true
  /-- the Control region was in reset when the safe state was entered, and stays held (R461) -/
  controlHeld : Bool := false
deriving DecidableEq, Repr, Inhabited

/-! ## The device -/

/-- Everything the spec gives the block. -/
structure Device where
  /-- the register file: registers away from their reset value, by control-view address -/
  regs : List (Nat × Word) := []
  /-- the live RWS tables: LUT pool, defect maps, colour sort, residual and history LUTs -/
  tabs : List Host.Cell := []
  /-- byte memories: SRAM, TCM, MRAM, DRAM, correction table, forest nodes, weights -/
  mem : List Host.Cell := []
  /-- reservations of LR: core and granule, an address divided by 64 (R343) -/
  resv : List (Nat × Nat) := []
  /-- counter of free values: the model's own field (notes/assumptions/2.md) -/
  fresh : Nat := 0
  slu : Sluice := {}
  boot : Boot := {}
  lanes : Vector LaneX 88 := Vector.replicate 88 {}
  ports : Vector Port 12 := Vector.replicate 12 {}
  pipes : Pipes := {}
  cal : Cal := {}
  geo : Geo := {}
  basin : Basin := {}
  peers : Vector Peer 3 := Vector.replicate 3 {}
  pr : Pair := {}
  fly : Fly := {}
  jud : Judge := {}
  ej : Eject := {}
  mon : Mon := {}
  axes : Vector Axis 4 := Vector.replicate 4 {}
  tb : TimeBase := {}
  evt : Evt := {}
  flt : Flt := {}
  dram : Dram := {}
  cap : Cap := {}
  rsv : Rsv := {}
  cores : Cores := {}
  dma : Vector DmaChan 16 := Vector.replicate 16 {}
  /-- issued DMA writes whose responses have not returned, oldest first: channel and address (R367, R376) -/
  dmaOut : List (Nat × Nat) := []
  crc : Vector CrcUnit 8 := Vector.replicate 8 {}
  eth : Eth := {}
  /-- the xSPI flash: bytes away from the erased value 0xFF, by offset (R321, R399) -/
  flash : List Host.Cell := []
deriving DecidableEq, Repr, Inhabited

/-- The state: the waiting commands, first in, first out, and the device. -/
structure State where
  pending : List Instr := []
  dev : Device := {}
deriving DecidableEq, Repr, Inhabited

/-- Reasons the block stops. -/
inductive Fault where
deriving DecidableEq, Repr

/-- Reasons a command has no meaning. -/
inductive Refusal where
  /-- Raised by the dispatch for a command that has no meaning yet; safe. -/
  | notModelled (mnemonic : String)
deriving DecidableEq, Repr

/-- The block right after reset: no command waits, every register at the reset value of its description, every buffer empty. -/
def State.reset : State := {}

/-- The outcome of every meaning. -/
abbrev Outcome := Host.Outcome State Fault Refusal

/-- A meaning that completes: the queue as it is, the device as computed. -/
def State.done (s : State) (d : Device) : Outcome := .next { s with dev := d }

end Sys2Proof.Machine
end

