-- ==== Sys2Proof/Machine/Store.lean ====
section
/-! DEFINITION. Sparse stores: a list of (key, value) pairs in one canonical form (keys strictly rising, no entry equal to what
an unlisted key reads as). `df k` is what an unlisted key k reads as. -/

namespace Sys2Proof.Machine.Sparse

variable {β : Type} [DecidableEq β]

/-- The value at key `a`. -/
def get (df : Nat → β) (a : Nat) : List (Nat × β) → β
  | [] => df a
  | (k, v) :: t => if k = a then v else get df a t

/-- The store with no entry at `a`. -/
def drop (a : Nat) (l : List (Nat × β)) : List (Nat × β) := l.filter (fun e => e.1 ≠ a)

/-- The entry (a, v) put at its place in the key order. -/
def place (a : Nat) (v : β) : List (Nat × β) → List (Nat × β)
  | [] => [(a, v)]
  | (k, w) :: t => if a < k then (a, v) :: (k, w) :: t else if a = k then (a, v) :: t else (k, w) :: place a v t

/-- The store with value `v` at key `a`; a value equal to the unlisted one removes the entry. -/
def put (df : Nat → β) (a : Nat) (v : β) (l : List (Nat × β)) : List (Nat × β) :=
  if v = df a then drop a l else place a v l

/-- Keys strictly rise from `lo` on, and no entry holds the value an unlisted key reads as. -/
def wfFrom (df : Nat → β) : Option Nat → List (Nat × β) → Bool
  | _, [] => true
  | lo, (k, v) :: t => (match lo with | none => true | some l => decide (l < k)) && decide (v ≠ df k) && wfFrom df (some k) t

/-- The canonical form. -/
def wf (df : Nat → β) (l : List (Nat × β)) : Bool := wfFrom df none l

/-- The keys a store lists. -/
def keys (l : List (Nat × β)) : List Nat := l.map Prod.fst

end Sys2Proof.Machine.Sparse
end

