-- ==== Sys2Proof/Machine/Ops.lean ====
section
/-! DEFINITION. The named operations over the register file, the memories, the banks of configuration, the clock and the event
fabric. Every register read or write of a meaning goes through them. -/

namespace Sys2Proof.Machine

/-! ## The register map -/

/-- `a` is an address of the pattern `dims` from `base` on. -/
def hitDims (base : Nat) : List (Nat × Nat) → Nat → Bool
  | [], a => a == base
  | (st, n) :: t, a => decide (base ≤ a) && decide ((a - base) / st < n) && hitDims base t (base + (a - base) % st)

/-- The first row of the block that covers `a`, as an index list is walked. -/
def findRow (a : Nat) : List RegDesc → Option RegDesc
  | [] => none
  | r :: t => if hitDims r.base r.dims a then some r else findRow a t

/-- The rows of the block whose page holds `a`. -/
def findFamily (a : Nat) : List (Nat × Nat × List RegDesc) → List RegDesc
  | [] => []
  | (lo, hi, rows) :: t => if lo ≤ a ∧ a < hi then rows else findFamily a t

/-- The register at control-view address `a`, if the spec assigns one (R29). -/
def regAt (a : Nat) : Option RegDesc := findRow a (findFamily a regFamilies)

/-- Latency targets at reset of the memory ports MP0 to MP8 (Table 13.5). -/
def memLatReset : List Nat :=
  [0x800007D0, 0x800005DC, 0x00002710, 0x00004E20, 0x000003E8, 0x00001388, 0x00000FA0, 0x800007D0, 0x00000BB8]

/-- Registers whose reset value a fuse, a strap, the part or an index decides. -/
def resetSpecial (a : Nat) : Option Word :=
  if a = R.CHIP_ID then some (0x12480000#32 ||| (Config.levelMax.setWidth 32 <<< 8) ||| Config.stepping.setWidth 32)
  else if a = R.CHIP_STRAP then
    some ((if Config.keySet then 0x200#32 else 0#32) ||| (if Config.gradeEP then 0x100#32 else 0#32))
  else if a = R.CORE_DBG then some (if Config.gradeEP then 0#32 else 1#32)
  else if a = R.CORE_Cn_STATUS 0 then some 0x80000000#32
  else if R.MEM_LATm 0 ≤ a ∧ a ≤ R.MEM_LATm 8 ∧ a % 4 = 0 then
    some (BitVec.ofNat 32 (memLatReset.getD ((a - R.MEM_LATm 0) / 4) 0))
  else if R.CHIP_KEYHASHw 0 ≤ a ∧ a ≤ R.CHIP_KEYHASHw 7 ∧ a % 4 = 0 then some (Config.keyHash ((a - R.CHIP_KEYHASHw 0) / 4))
  else none

/-- The reset value of the register at `a`. -/
def resetOf (a : Nat) : Word :=
  match resetSpecial a with
  | some w => w
  | none => match regAt a with
    | some r => BitVec.ofNat 32 r.reset
    | none => 0#32

/-- The staged bits (RWS) of the register at `a`. -/
def rwsMask (a : Nat) : Word :=
  match regAt a with
  | some r => BitVec.ofNat 32 r.rws
  | none => 0#32

/-! ## Registers and fields -/

/-- The register at address `a` as the hardware holds it. -/
def Device.rd (d : Device) (a : Nat) : Word := Sparse.get resetOf a d.regs

/-- The device with `v` in the register at `a`. -/
def Device.wr (d : Device) (a : Nat) (v : Word) : Device := { d with regs := Sparse.put resetOf a v d.regs }

/-- The value of a field. -/
def Device.get (d : Device) (f : Fld) : Nat := f.of (d.rd f.addr)

/-- The device with `v`, reduced to the field's width, in the field. -/
def Device.set (d : Device) (f : Fld) (v : Nat) : Device := d.wr f.addr (f.into v (d.rd f.addr))

/-- A one-bit field. -/
def Device.bit (d : Device) (f : Fld) : Bool := d.get f ≠ 0

/-- A one-bit field set to a truth value. -/
def Device.setBit (d : Device) (f : Fld) (b : Bool) : Device := d.set f (if b then 1 else 0)

/-- A field read as two's complement. -/
def Device.getI (d : Device) (f : Fld) : Int := sx (f.hi + 1 - f.lo) (d.get f)

/-- A field written with the two's-complement form of `v`. -/
def Device.setI (d : Device) (f : Fld) (v : Int) : Device := d.set f (wrapN (f.hi + 1 - f.lo) v)

/-- A counter advanced by `n`; counters saturate at all ones (R9). -/
def Device.count (d : Device) (f : Fld) (n : Nat := 1) : Device := d.set f (capN (2 ^ (f.hi + 1 - f.lo) - 1) (d.get f + n))

/-- The 64-bit value of a LO/HI pair of registers. -/
def Device.pair (d : Device) (lo hi : Nat) : Nat := (d.rd lo).toNat + 2 ^ 32 * (d.rd hi).toNat

/-- A LO/HI pair of registers written with `v` modulo 2^64. -/
def Device.setPair (d : Device) (lo hi : Nat) (v : Nat) : Device :=
  (d.wr lo (BitVec.ofNat 32 v)).wr hi (BitVec.ofNat 32 (v / 2 ^ 32))

/-! ## Vectors of like units -/

/-- Unit `i`, or the reset unit where there is none. -/
def unit {α : Type} [Inhabited α] {n : Nat} (v : Vector α n) (i : Nat) : α := v[i]?.getD default

/-- The vector with unit `i` replaced. -/
def withUnit {α : Type} {n : Nat} (v : Vector α n) (i : Nat) (x : α) : Vector α n := v.setIfInBounds i x

/-! ## Time -/

/-- The transport time in ns: SEC × 10^9 + NS modulo 2^64, the fraction truncated (Table 1.6). -/
def Device.nowNs (d : Device) : Nat := (d.tb.tod.sec * 1000000000 + d.tb.tod.ns) % 2 ^ 64

/-- True time since PORST_N in ns: TCLK edges of 2 ns (Table 1.5). -/
def Device.trueNs (d : Device) : Nat := 2 * d.tb.edges

/-- The time-of-day as one number in units of 2^-32 ns. -/
def Tod.units (t : Tod) : Nat := (t.sec * 1000000000 + t.ns) * 2 ^ 32 + t.frac

/-- The time-of-day from one number in units of 2^-32 ns; SEC is a u48. -/
def Tod.ofUnits (u : Nat) : Tod :=
  { sec := u / 2 ^ 32 / 1000000000 % 2 ^ 48, ns := u / 2 ^ 32 % 1000000000, frac := u % 2 ^ 32 }

/-! ## Free values -/

/-- A free value of `n` bits, and the device with the counter of free values advanced (notes/assumptions/2.md). -/
def Device.free (d : Device) (n : Nat) : Nat × Device := (Config.free d.fresh 0 % 2 ^ n, { d with fresh := d.fresh + 1 })

/-! ## Events and flags -/

/-- An event of a producer enters the fabric: rill and stamp (R383). -/
def Device.emit (d : Device) (rill stamp : Nat) : Device :=
  { d with evt := { d.evt with inflight := d.evt.inflight ++ [{ rill := rill, stamp := stamp }] } }

/-- The rill of the flags of the block whose page holds `a` (Table 18.1, producers marked "Flags"). -/
def flagsRill (a : Nat) : Option Nat :=
  if 0x20000000 ≤ a ∧ a < 0x200C0000 then some ((a - 0x20000000) / 0x10000)
  else if 0x20300000 ≤ a ∧ a < 0x20310000 then some 60
  else if 0x30000000 ≤ a ∧ a < 0x30010000 then some 61
  else if 0x30100000 ≤ a ∧ a < 0x30140000 then some (62 + (a - 0x30100000) / 0x10000)
  else if 0x30200000 ≤ a ∧ a < 0x30210000 then some 66
  else if 0x30300000 ≤ a ∧ a < 0x30310000 then some 67
  else if 0x40000000 ≤ a ∧ a < 0x40010000 then some 68
  else if 0x40100000 ≤ a ∧ a < 0x40110000 then some 69
  else if 0x40200000 ≤ a ∧ a < 0x40210000 then some 70
  else if 0x50000000 ≤ a ∧ a < 0x50010000 then some 71
  else if 0x50100000 ≤ a ∧ a < 0x50140000 then some (72 + (a - 0x50100000) / 0x10000)
  else if 0x50200000 ≤ a ∧ a < 0x50240000 then some (76 + (a - 0x50200000) / 0x10000)
  else if 0x50300000 ≤ a ∧ a < 0x50310000 then some 84
  else if 0x50400000 ≤ a ∧ a < 0x50410000 then some 117
  else if 0x50410100 ≤ a ∧ a < 0x50410500 then some (121 + (a - 0x50410100) / 0x40)
  else if 0x60000000 ≤ a ∧ a < 0x60040000 then some (137 + (a - 0x60000000) / 0x10000)
  else if 0x60100000 ≤ a ∧ a < 0x60110000 then some 141
  else if 0x10070100 ≤ a ∧ a < 0x10070900 then some (142 + (a - 0x10070100) / 0x80)
  else if 0x10080000 ≤ a ∧ a < 0x10090000 then some 190
  else if 0x100A0000 ≤ a ∧ a < 0x100B0000 then some 191
  else if 0x10010000 ≤ a ∧ a < 0x10020000 then some 192
  else if 0x10020000 ≤ a ∧ a < 0x10030000 then some 193
  else if 0x10030000 ≤ a ∧ a < 0x10040000 then some 194
  else if 0x100D0000 ≤ a ∧ a < 0x100E0000 then some 195
  else if 0x100E0000 ≤ a ∧ a < 0x100EC000 then some (196 + (a - 0x100E0000) / 0x4000)
  else if 0x10040000 ≤ a ∧ a < 0x10050000 then some 199
  else if 0x10060000 ≤ a ∧ a < 0x10070000 then some 200
  else if 0x10090000 ≤ a ∧ a < 0x100A0000 then some 201
  else none

/-- A flags producer fires its rill at the present time; flags set by one command are set in one cycle and make one event
(R384, notes/assumptions/6.md). -/
def Device.fireFlags (d : Device) (a : Nat) : Device :=
  match flagsRill a with
  | none => d
  | some r =>
    let e : RillEvent := { rill := r, stamp := d.nowNs }
    if d.evt.inflight.contains e then d else d.emit r d.nowNs

/-- A flag bit set by the hardware: where the block's IRQ_EN (the register after FLAGS) enables it and it was 0, the block's
rill fires (R384). -/
def Device.raise (d : Device) (f : Fld) : Device :=
  let d1 := d.set f 1
  if d.bit f then d1 else if bitAt (d.rd (f.addr + 4)).toNat f.lo then d1.fireFlags f.addr else d1

/-- `raise` under a condition. -/
def Device.raiseIf (d : Device) (c : Bool) (f : Fld) : Device := if c then d.raise f else d

/-- Bit `i` of a flag field that numbers its bits. -/
def Fld.bitN (f : Fld) (i : Nat) : Fld := ⟨f.addr, f.lo + i, f.lo + i⟩

/-! ## Banks of configuration -/

/-- Registers with an overlay of staged values: each overlaid register takes its RWS bits from the overlay. -/
def overlayRegs (ov regs : List (Nat × Word)) : List (Nat × Word) :=
  ov.foldl (fun r e => Sparse.put resetOf e.1 ((Sparse.get resetOf e.1 r &&& ~~~ rwsMask e.1) ||| (e.2 &&& rwsMask e.1)) r) regs

/-- Content of the RWS tables after reset (Table 19.13): LUT pool Q[j] = 64j, history LUT entry m = m >> 4, all else zero. -/
def tabDefault (a : Nat) : Byte :=
  if 0x20204000 ≤ a ∧ a < 0x20210000 then
    let o := a - 0x20204000
    let q := 64 * (o % 0x800 / 2)
    BitVec.ofNat 8 (if o % 2 = 0 then q else q / 256)
  else if 0x31100000 ≤ a ∧ a < 0x31110000 then BitVec.ofNat 8 ((a - 0x31100000) % 0x1000 / 16)
  else 0#8

/-- Tables with an overlay of staged bytes. -/
def overlayTabs (ov tabs : List Host.Cell) : List Host.Cell := ov.foldl (fun r e => Sparse.put tabDefault e.1 e.2 r) tabs

/-- States of SLU_STATE.STATE. -/
def sluOpen : Nat := 0
def sluChecking : Nat := 1
def sluArmed : Nat := 2
def sluApplied : Nat := 3

/-- State of the sluice. -/
def Device.sluState (d : Device) : Nat := d.get F.SLU_STATE.STATE

/-- The device with the staged configuration in place of the live one. -/
def Device.withStaged (d : Device) : Device :=
  { d with regs := overlayRegs d.slu.staged d.regs, tabs := overlayTabs d.slu.stagedTabs d.tabs }

/-- The device with the configuration that governs the line of count `c` (R409): the pending bank from its apply line on, the
old bank before the line of the last apply. -/
def Device.asOf (d : Device) (c : Int) : Device :=
  if d.sluState = sluArmed ∧ d.slu.count ≤ c then d.withStaged
  else match d.slu.old with
    | some o => if c < o.count then { d with regs := o.regs, tabs := o.tabs } else d
    | none => d

/-- Stamp `a` is before stamp `b` under the half-range rule (R24). -/
def stampBefore (a b : Nat) : Bool := let x := (b + 2 ^ 64 - a % 2 ^ 64) % 2 ^ 64; 0 < x && x < 2 ^ 63

/-- The line count nearest the current one whose low 32 bits are `l` (R264, R24). -/
def Device.countOf (d : Device) (l : Nat) : Int := d.tb.count + sx 32 (wrapN 32 ((l : Int) - d.tb.count))

/-- The 32-bit web line index of a line count. -/
def lineOf (c : Int) : Nat := wrapN 32 c

/-! ## Byte memories -/

/-- A byte of SRAM, TCM, MRAM, DRAM or of a table without a staging copy. Unlisted bytes of the correction table hold the identity
entry 0x4000_0000 (Table 19.13), all others zero (notes/assumptions/3.md). -/
def memDefault (a : Nat) : Byte := if 0x21000000 ≤ a ∧ a < 0x21200000 ∧ a % 4 = 3 then 0x40#8 else 0#8

def Device.byte (d : Device) (a : Nat) : Byte := Sparse.get memDefault a d.mem

/-- A byte of memory takes a value that a cache already held. -/
def Device.putByte (d : Device) (a : Nat) (b : Byte) : Device := { d with mem := Sparse.put memDefault a b d.mem }

/-- A write of a byte of memory: reservations of its granule are lost, whichever master it comes from (R343). -/
def Device.setByte (d : Device) (a : Nat) (b : Byte) : Device :=
  { d.putByte a b with resv := d.resv.filter (fun r => r.2 ≠ a / 64) }

/-- Bytes put from `a` on. -/
def Device.putBytes (d : Device) (a : Nat) : List Byte → Device
  | [] => d
  | b :: t => (d.putByte a b).putBytes (a + 1) t

/-- `n` bytes of memory from `a` on. -/
def Device.bytes (d : Device) (a : Nat) : Nat → List Byte
  | 0 => []
  | n + 1 => d.byte a :: d.bytes (a + 1) n

/-- Bytes written from `a` on. -/
def Device.setBytes (d : Device) (a : Nat) : List Byte → Device
  | [] => d
  | b :: t => (d.setByte a b).setBytes (a + 1) t

/-- Little-endian number of `n` bytes at `a`. -/
def Device.num (d : Device) (a n : Nat) : Nat := leNat (d.bytes a n)

/-- `n` bytes at `a` written with a little-endian number. -/
def Device.setNum (d : Device) (a n v : Nat) : Device := d.setBytes a (leBytes n v)

/-- A byte of a live RWS table. -/
def Device.tab (d : Device) (a : Nat) : Byte := Sparse.get tabDefault a d.tabs

/-- Little-endian number of `n` bytes of a live RWS table. -/
def Device.tabNum (d : Device) (a : Nat) : Nat → Nat
  | 0 => 0
  | n + 1 => (d.tab a).toNat + 256 * d.tabNum (a + 1) n

end Sys2Proof.Machine
end

