-- ==== Sys2Proof/Machine/FaultOps.lean ====
section
/-! DEFINITION. Recording a fault (R454 to R456, R469, R470). Faults of level 3 and 4 also act: Machine/Faults.lean. -/

namespace Sys2Proof.Machine

/-- Causes of Table 22.7. -/
def faultTjMax : Nat := 0x0401
def faultSupply : Nat := 0x0402
def faultRefclk : Nat := 0x0403
def faultEscalation : Nat := 0x0404
def faultMemory : Nat := 0x0405
def faultFwRequest : Nat := 0x0406
def faultWdog : Nat := 0x1201
def faultCellTrip : Nat := 0x1202
def faultOverRt : Nat := 0x1203
def faultChainSplit : Nat := 0x1204
def faultKatFail : Nat := 0x1205
def faultDivergence : Nat := 0x1206
def faultSnoopPeer : Nat := 0x1207
def faultMemUncorr : Nat := 0x1208
def faultMramErr : Nat := 0x1209
def faultPort : Nat := 0x2201
def faultSnoopCp : Nat := 0x2202
def faultTableUncorr : Nat := 0x2301
def faultHistDrop : Nat := 0x3201
def faultBacklog : Nat := 0x3202
def faultRowsStale : Nat := 0x3203
def faultForUncorr : Nat := 0x4201
def faultClaUncorr : Nat := 0x4202
def faultQerrRate : Nat := 0x5201
def faultSnoopSp : Nat := 0x5202
def faultWindowUncorr : Nat := 0x5301
def faultEccUncorr : Nat := 0x6201
def faultTempHigh : Nat := 0x6202
def faultRetrainFail : Nat := 0x6203
def faultSnoopCap : Nat := 0x6204
def faultTrainFail : Nat := 0x6301

/-- ECC_CORR of region r: 0xr110. -/
def faultEccCorr (r : Nat) : Nat := r * 0x1000 + 0x110

/-- REQUESTED reset of region r: 0xr3FF. -/
def faultRequested (r : Nat) : Nat := r * 0x1000 + 0x3FF

/-- Level of a code: bits [11:8]. -/
def faultLevel (code : Nat) : Nat := bitsOf code 11 8

/-- Region of a code: bits [15:12]. -/
def faultRegion (code : Nat) : Nat := bitsOf code 15 12

/-- Control-view address of the MRAM window (Table 1.8). -/
def mramBase : Nat := 0x90000000

/-- Address of the fault history entry of sequence number `seq` (R469). -/
def histAddr (seq : Nat) : Nat := mramBase + 0xF00000 + 32 * (seq % 2048)

/-- The history entry at `a` has a valid CRC. -/
def histValid (d : Device) (a : Nat) : Bool := crcOk (d.bytes a 32)

/-- Bytes of a history entry (Table 22.6). -/
def histEntry (d : Device) (seq code cnt index : Nat) : List Byte :=
  withCrc (leBytes 4 seq ++ leBytes 2 code ++ leBytes 2 cnt ++ leBytes 6 d.tb.tod.sec ++ leBytes 4 (d.tb.tod.ns % 2 ^ 30)
    ++ leBytes 4 (d.get F.TB_LINE.L) ++ leBytes 2 index ++ leBytes 4 0)

/-- Time of the history entry at `a` in ns. -/
def histTime (d : Device) (a : Nat) : Nat := d.num (a + 8) 6 * 1000000000 + d.num (a + 14) 4 % 2 ^ 30

/-- A write to MRAM fails: VDD_MRAM, rail 9, is outside its fault limits (DESIGN CHOICE, log entry "a failed history write"). -/
def mramFails (d : Device) : Bool := d.flt.badRails.contains 9

/-- Writes a fault to the history: into the newest entry when it has the same code and is at most 1 s old, else as a new entry; a failed write
sets HIST_ERR (R470). -/
def histWrite (d : Device) (code index : Nat) : Device :=
  let next := d.get F.FLT_HIST_SEQ.SEQ
  let a := histAddr (next + 2047)
  let now := d.tb.tod.sec * 1000000000 + d.tb.tod.ns
  if mramFails d then d.raise F.FLT_FLAGS.HIST_ERR
  else if histValid d a && d.num (a + 4) 2 = code && decide (histTime d a ≤ now + 1000000000) && decide (now ≤ histTime d a + 1000000000) then
    d.setBytes a (withCrc (d.bytes a 6 ++ leBytes 2 (capN 0xFFFF (d.num (a + 6) 2 + 1)) ++ d.bytes (a + 8) 20))
  else (d.setBytes (histAddr next) (histEntry d next code 1 index)).set F.FLT_HIST_SEQ.SEQ (next + 1)

/-- Records a fault with its code, INDEX and the current web line (R455, Table 22.1). -/
def Device.fault (d : Device) (code index : Nat) : Device :=
  let lv := faultLevel code
  let d1 := if lv = 1 then d.count F.FLT_L1_COUNT.V
    else ((d.set F.FLT_LAST.INDEX index).set F.FLT_LAST.CODE code).set F.FLT_LAST_LINE.V (d.get F.TB_LINE.L)
  let d2 := if lv = 2 then d1.count F.FLT_L2_COUNT.V else if lv = 3 then d1.count F.FLT_L3_COUNT.V else d1
  let d3 := (d2.raiseIf (2 ≤ lv) F.FLT_FLAGS.FAULT).raiseIf (decide (d.get F.FLT_CFG.PIN_LEVEL ≤ lv)) F.FLT_FLAGS.PIN_FAULT
  if d.get F.FLT_CFG.HIST_LEVEL ≤ lv ∨ code = faultDivergence then histWrite d3 code index else d3

/-- Records a fault after another one of the same cycle: FLT_LAST goes on showing the first (R455). -/
def Device.faultAfter (d : Device) (code index : Nat) : Device :=
  let d1 := d.fault code index
  (d1.wr R.FLT_LAST (d.rd R.FLT_LAST)).wr R.FLT_LAST_LINE (d.rd R.FLT_LAST_LINE)

/-- Snoop unit `k` finds a mismatch (R382): counted, flagged, and a block-level fault of its region. -/
def snoopMismatch (d : Device) (k code index : Nat) : Device :=
  ((d.count (F.CRC_SNOOP_ERRk.COUNT k)).raise (F.CRC_FLAGS.SNOOP_ERR.bitN k)).fault code index

/-- The chip is in the safe state (R462). -/
def Device.safe (d : Device) : Bool := d.bit F.FLT_STATUS.SAFE

/-- The region whose block or memory lies at a control-view address (Tables 1.4, 1.8): the core memories, SRAM and MRAM belong to the
Control region. -/
def regionOf (a : Nat) : Option Nat :=
  if 0x10000000 ≤ a ∧ a < 0x70000000 then some (a / 0x10000000)
  else if (0x80000000 ≤ a ∧ a < 0x80200000) ∨ (0x81000000 ≤ a ∧ a < 0x81100000) ∨ (0x90000000 ≤ a ∧ a < 0x91000000) then some 1
  else none

/-- Region r (1 to 6) is in reset (Table 22.2) -/
def Device.resetting (d : Device) (r : Nat) : Bool := bitAt (d.get F.FLT_STATUS.RESETTING) (r - 1)

end Sys2Proof.Machine
end

