-- ==== Sys2Proof/Machine/TbOps.lean ====
section
/-! DEFINITION. The clock and the line schedule (R258 to R267): how the time-of-day advances, when a line is triggered. -/

namespace Sys2Proof.Machine

/-! ## The time-of-day counter -/

/-- Slew step per TCLK edge in units of 2^-32 ns: SLEW_PPM × 8,590, with 0 acting as 1 and values above 1,000 as 1,000 (R260). -/
def slewStep (d : Device) : Nat :=
  let p := d.get F.TB_CTRL.SLEW_PPM
  8590 * (if p = 0 then 1 else capN 1000 p)

/-- Increment of one TCLK edge without the slew term: 2 × 2^32 + ADJ (R258). -/
def tclkInc (d : Device) : Int := 2 * 2 ^ 32 + d.getI F.TB_ADJ.ADJ

/-- What `n` TCLK edges take of the slew remainder (R260): at each edge sign(r) × min(|r|, step). -/
def slewTaken (d : Device) (n : Nat) : Int :=
  let m : Int := if d.tb.slew.natAbs ≤ n * slewStep d then d.tb.slew.natAbs else (n * slewStep d : Nat)
  if d.tb.slew < 0 then -m else m

/-- The device after `n` TCLK edges: the counter advances (R258), the slew remainder declines (R260), and at a whole second
TB_PPS takes effect (R274). -/
def Device.elapse (d : Device) (n : Nat) : Device :=
  let s := slewTaken d n
  let t := Tod.ofUnits ((d.tb.tod.units : Int) + n * tclkInc d + s).toNat
  { d with tb := { d.tb with
      tod := t, edges := d.tb.edges + n, slew := d.tb.slew - s,
      ppsLive := if t.sec = d.tb.tod.sec then d.tb.ppsLive else d.rd R.TB_PPS } }

/-- One TCLK edge on which nothing is commanded; none passes while reset holds the device (R397). -/
def idleTick (d : Device) : Device := if d.boot.phase = .reset then d else d.elapse 1

/-- The least number of TCLK edges after which the device time is at or after the instant `t` (R24: an instant that the half-range rule
puts before now has passed). -/
def edgesUntil (d : Device) (t : Nat) : Nat :=
  let need : Int := sx 64 (wrapN 64 ((t : Int) - d.nowNs)) * 2 ^ 32 - d.tb.tod.frac
  if need ≤ 0 then 0
  else
    let step : Int := if d.tb.slew < 0 then -(slewStep d : Int) else if d.tb.slew = 0 then 0 else slewStep d
    let n1 := ((need + (tclkInc d + step) - 1) / (tclkInc d + step)).toNat
    if n1 * slewStep d ≤ d.tb.slew.natAbs then n1
    else ((need - d.tb.slew + tclkInc d - 1) / tclkInc d).toNat

/-- The device at the first TCLK edge at which the device time is at or after the instant `t`; at once where it is. -/
def Device.elapseTo (d : Device) (t : Nat) : Device := d.elapse (edgesUntil d t)

/-- mtime: units of 8 ns since PORST_N (R348). -/
def Device.mtime (d : Device) : Nat := d.tb.edges / 4 % 2 ^ 64

/-! ## The line schedule -/

/-- The line generator runs. -/
def Device.lining (d : Device) : Bool := d.bit F.TB_STATUS.RUNNING

/-- The period of the configuration of `d` in units of 2^-32 ns (R264). -/
def periodQ (d : Device) : Nat := d.get F.TB_PERIOD_NS.V * 2 ^ 32 + d.get F.TB_PERIOD_FRAC.V

/-- T_A of the anchor registers. -/
def anchorT (d : Device) : Nat := d.pair R.TB_ANCHOR_T_LO R.TB_ANCHOR_T_HI

/-- t of the line of count `c` from an anchor and a period: T_A + round(k × P / 2^32), k = c − C(L_A) exact (R264). -/
def tOnGrid (ca : Int) (ta p : Nat) (c : Int) : Int := (ta : Int) + rneDiv ((c - ca) * p) (2 ^ 32)

/-- The anchor in force: the live anchor while the generator runs, else the one the anchor registers name. -/
def anchorNow (d : Device) : Int × Nat :=
  if d.lining then d.tb.anchor else (d.countOf (d.get F.TB_ANCHOR_LINE.V), anchorT d)

/-- The first of the grids (anchor count, T_A, period; newest first) whose anchor is at or before the line of count `c`, else the oldest. -/
def gridAt (c : Int) : (Int × Nat × Nat) → List (Int × Nat × Nat) → Int × Nat × Nat
  | g, [] => g
  | g, h :: t => if g.1 ≤ c then g else gridAt c h t

/-- The grid of the line of count `c`: of the live anchor, or of one the running generator has left (R266). -/
def gridOf (d : Device) (c : Int) : Int × Nat × Nat :=
  let a := anchorNow d
  gridAt c (a.1, a.2, periodQ d) (if d.lining then d.tb.grids else [])

/-- t_L of the line of count `c` in ns of device time (R264). Where a commit with another period is ARMED, lines from its apply
line A on count from the new anchor (A, t_A) with the armed period (R266). -/
def tLine (d : Device) (c : Int) : Nat :=
  let (ca, ta, p) := gridOf d c
  let a := d.slu.count
  let p' := periodQ d.withStaged
  let t := if d.lining ∧ d.sluState = sluArmed ∧ a ≤ c ∧ p' ≠ periodQ d
    then tOnGrid a (wrapN 64 (tOnGrid ca ta p a)) p' c
    else tOnGrid ca ta p c
  wrapN 64 t

/-- An ARMED commit stops the generator before the line of count `c` (R266, RUN = 0). -/
def stopsBefore (d : Device) (c : Int) : Bool :=
  d.lining && d.sluState = sluArmed && decide (d.slu.count ≤ c) && !d.withStaged.bit F.TB_LINE_CFG.RUN

/-- The least count k from the anchor on the whole grid whose t lies at least `e` ns after T_A (R265). -/
def firstOnGrid (p : Nat) (e : Int) : Int :=
  let k := -((-(e * 2 ^ 32)) / (p : Int))
  if e ≤ tOnGrid 0 0 p (k - 1) then k - 1 else if e ≤ tOnGrid 0 0 p k then k else k + 1

/-- How far instant `b` lies after instant `a`, in ns, under the half-range rule (R24). -/
def nsFrom (a b : Int) : Int := sx 64 (wrapN 64 (b - a))

/-- The line generator starts: the first line is the least on the anchor's grid whose t is at least 1 ms from now (R265). Stamps of an
earlier run whose line counts come again are dropped. -/
def startLines (d : Device) : Device :=
  let ca := d.countOf (d.get F.TB_ANCHOR_LINE.V)
  let ta := anchorT d
  let d1 := d.setBit F.TB_STATUS.RUNNING true
  let c := ca + firstOnGrid (periodQ d) (nsFrom ta (d.nowNs + 1000000))
  { d1 with tb := { d1.tb with
    anchor := (ca, ta), grids := [], next := c, first := c, prior := d1.tb.count,
    stamps := d1.tb.stamps.filter (fun s => decide (s.count < c ∨ d1.tb.count < s.count)),
    unstamped := d1.tb.unstamped.filter (fun u => decide (u.1 < c)) } }

/-- Sort-cycle length of the configuration of `d`, as log2. -/
def cycleLog2 (d : Device) : Nat := d.get F.TB_LINE_CFG.CYCLE_LOG2

/-- Cycle index of the line of count `c` (Table 1.6). -/
def cycleOf (d : Device) (c : Int) : Nat := lineOf c / 2 ^ cycleLog2 (d.asOf c)

/-- The recorded stamp of the line of count `c` (R267, R194). -/
def stampOf (d : Device) (c : Int) : Option LineStamp := d.tb.stamps.find? (fun s => s.count = c)

/-- TS(L), 0 where it is not recorded. -/
def tsOf (d : Device) (c : Int) : Nat := match stampOf d c with | some s => s.ts | none => 0

/-- Trigger instant of a line that has been triggered, in ns. -/
def trigT (d : Device) (c : Int) : Nat :=
  match stampOf d c with
  | some s => s.t
  | none => match d.tb.unstamped.find? (fun u => u.1 = c) with
    | some u => u.2
    | none => tLine d c

/-- Records TS(L) and the speed of a line; the last 16,384 lines are kept (R194). -/
def recordStamp (d : Device) (s : LineStamp) : Device :=
  { d with tb := { d.tb with stamps := (s :: d.tb.stamps.filter (fun x => x.count ≠ s.count)).take 16384 } }

/-- The configuration in force at the transport stamp `s` of device time `t` (R223, R409): the pending bank from TS(A) on, which in belt
mode is the position predicted for the instant t_A, and the old bank before the stamp of the last apply, or before the instant of one made
at once (R406), until every block has switched. -/
def Device.asOfStamp (d : Device) (s t : Nat) : Device :=
  if d.sluState = sluArmed ∧ ¬ stampBefore t (tLine d d.slu.count) then d.withStaged
  else match d.slu.old with
    | some o => if ¬ o.done ∧ (if o.now then stampBefore t o.t else stampBefore s o.ts) then { d with regs := o.regs, tabs := o.tabs } else d
    | none => d

/-- The configuration in force at time `t` in ns, for blocks that switch at the trigger instant of the apply line (R241). -/
def Device.asOfTime (d : Device) (t : Nat) : Device :=
  if d.sluState = sluArmed ∧ ¬ stampBefore t (tLine d d.slu.count) then d.withStaged
  else match d.slu.old with
    | some o => if stampBefore t o.t then { d with regs := o.regs, tabs := o.tabs } else d
    | none => d

end Sys2Proof.Machine
end

