-- ==== Sys2Proof/Machine/Harts.lean ====
section
/-! DEFINITION. The harts of the four cores (R341, R343 to R346, R348, R350): their registers, what a trap does to them, and their caches. The
commands of the block execute no instruction: what a core's program has done to its registers, once they can be seen, is a free value
(notes/assumptions/2.md). Layout, numbers and reset values of the control and status registers are those of the RISC-V specifications that
R341 and R350 name (PRESUMED, log entry "harts"). -/

namespace Sys2Proof.Machine

def Device.core (d : Device) (n : Nat) : CoreX := unit d.cores.core n
def Device.setCore (d : Device) (n : Nat) (x : CoreX) : Device := { d with cores := { d.cores with core := withUnit d.cores.core n x } }

/-- Core n runs. -/
def coreRuns (d : Device) (n : Nat) : Bool := d.bit (F.CORE_Cn_STATUS.RUNNING n)

/-- Core n runs and is not halted. -/
def coreActive (d : Device) (n : Nat) : Bool := coreRuns d n && !d.bit (F.CORE_Cn_STATUS.DEBUG_HALTED n)

/-! ## Control and status registers (R341) -/

/-- A control and status register: number, name, reset value and the bits that a write takes. -/
structure CsrDesc where
  num : Nat
  name : String
  reset : DWord := 0#64
  mask : DWord := 0xFFFFFFFFFFFFFFFF#64
deriving DecidableEq, Repr

def csrMstatus : Nat := 0x300
def csrMie : Nat := 0x304
def csrMtvec : Nat := 0x305
def csrMepc : Nat := 0x341
def csrMcause : Nat := 0x342
def csrMtval : Nat := 0x343
def csrTselect : Nat := 0x7A0
def csrDcsr : Nat := 0x7B0
def csrDpc : Nat := 0x7B1

/-- The registers that hold a value of their own. Interrupts are disabled and every PMP entry is off at reset (R345). -/
def csrTable : List CsrDesc :=
  [⟨0x003, "fcsr", 0#64, 0xFF#64⟩, ⟨0x300, "mstatus", 0x200000000#64, 0x227888#64⟩, ⟨0x301, "misa", 0x800000000010112D#64, 0#64⟩,
   ⟨0x304, "mie", 0#64, 0x888#64⟩, ⟨0x305, "mtvec", 0#64, 0xFFFFFFFFFFFFFFFD#64⟩, ⟨0x306, "mcounteren", 0#64, 0x7F#64⟩,
   ⟨0x320, "mcountinhibit", 0#64, 0x7D#64⟩, ⟨0x323, "mhpmevent3", 0#64, 0xFFFFFFFFFFFFFFFF#64⟩,
   ⟨0x324, "mhpmevent4", 0#64, 0xFFFFFFFFFFFFFFFF#64⟩, ⟨0x325, "mhpmevent5", 0#64, 0xFFFFFFFFFFFFFFFF#64⟩,
   ⟨0x326, "mhpmevent6", 0#64, 0xFFFFFFFFFFFFFFFF#64⟩, ⟨0x340, "mscratch", 0#64, 0xFFFFFFFFFFFFFFFF#64⟩,
   ⟨0x341, "mepc", 0#64, 0xFFFFFFFFFFFFFFFE#64⟩, ⟨0x342, "mcause", 0#64, 0xFFFFFFFFFFFFFFFF#64⟩,
   ⟨0x343, "mtval", 0#64, 0xFFFFFFFFFFFFFFFF#64⟩, ⟨0x7A0, "tselect", 0#64, 7#64⟩, ⟨0x7B0, "dcsr", 0x40000003#64, 0x9E07#64⟩,
   ⟨0x7B1, "dpc", 0#64, 0xFFFFFFFFFFFFFFFE#64⟩, ⟨0x7B2, "dscratch0", 0#64, 0xFFFFFFFFFFFFFFFF#64⟩,
   ⟨0x7B3, "dscratch1", 0#64, 0xFFFFFFFFFFFFFFFF#64⟩, ⟨0xB00, "mcycle", 0#64, 0xFFFFFFFFFFFFFFFF#64⟩,
   ⟨0xB02, "minstret", 0#64, 0xFFFFFFFFFFFFFFFF#64⟩]
  ++ [⟨0xB03, "mhpmcounter3", 0#64, 0xFFFFFFFFFFFFFFFF#64⟩, ⟨0xB04, "mhpmcounter4", 0#64, 0xFFFFFFFFFFFFFFFF#64⟩,
   ⟨0xB05, "mhpmcounter5", 0#64, 0xFFFFFFFFFFFFFFFF#64⟩, ⟨0xB06, "mhpmcounter6", 0#64, 0xFFFFFFFFFFFFFFFF#64⟩,
   ⟨0x3A0, "pmpcfg0", 0#64, 0x9F9F9F9F9F9F9F9F#64⟩, ⟨0x3A2, "pmpcfg2", 0#64, 0x9F9F9F9F9F9F9F9F#64⟩]
  ++ (List.range 16).map (fun i => ⟨0x3B0 + i, "pmpaddr", 0#64, 0x3FFFFFFFFFFFFF#64⟩)

def csrDesc (k : Nat) : Option CsrDesc := csrTable.find? (fun c => c.num == k)
def csrReset (k : Nat) : DWord := match csrDesc k with | some c => c.reset | none => 0#64

/-- The value that a register holds. -/
def Hart.csr (h : Hart) (k : Nat) : DWord := Sparse.get csrReset k h.csrs

/-- The hardware sets a register. -/
def Hart.setCsr (h : Hart) (k : Nat) (v : DWord) : Hart := { h with csrs := Sparse.put csrReset k v h.csrs }

/-- A PMP configuration byte as the hart holds it: NA4 does not exist with a granularity of 64 bytes, and a region that may be written may be
read. -/
def pmpLegal (b : Nat) : Nat :=
  let b1 := if b / 8 % 4 = 2 then b - 16 else b
  if b1 % 4 = 2 then b1 - 2 else b1

/-- The configuration byte of PMP region i. -/
def Hart.pmpCfg (h : Hart) (i : Nat) : Nat := ((h.csr (0x3A0 + i / 8 * 2)).toNat >>> (8 * (i % 8))) % 256

/-- PMP region i is locked, by itself or, for its address, by the locked top-of-range region behind it. -/
def Hart.pmpLocked (h : Hart) (i : Nat) : Bool := bitAt (h.pmpCfg i) 7
def Hart.pmpAddrLocked (h : Hart) (i : Nat) : Bool :=
  h.pmpLocked i || (decide (i < 15) && h.pmpLocked (i + 1) && h.pmpCfg (i + 1) / 8 % 4 == 1)

/-- What a write makes of a register: masked bits only, an MPP that is a mode of the hart, legal and unlocked PMP fields. -/
def Hart.csrTakes (h : Hart) (k : Nat) (v : DWord) : DWord :=
  let old := h.csr k
  let m := match csrDesc k with | some c => c.mask | none => 0#64
  let new := (old &&& ~~~ m) ||| (v &&& m)
  if k = csrMstatus then (if new.extractLsb' 11 2 = 3#2 ∨ new.extractLsb' 11 2 = 0#2 then new else new ||| 0x1800#64)
  else if k = 0x3A0 ∨ k = 0x3A2 then
    BitVec.ofNat 64 (leNat ((List.range 8).map (fun j =>
      let i := (k - 0x3A0) * 4 + j
      BitVec.ofNat 8 (if h.pmpLocked i then h.pmpCfg i else pmpLegal ((new.toNat >>> (8 * j)) % 256)))))
  else if 0x3B0 ≤ k ∧ k < 0x3C0 ∧ h.pmpAddrLocked (k - 0x3B0) then old
  else new

/-- What a PMP address register reads: with a granularity of 64 bytes its low bits read as ones in NAPOT regions and as zeros in others. -/
def Hart.pmpAddr (h : Hart) (i : Nat) : DWord :=
  if h.pmpCfg i / 8 % 4 = 3 then h.csr (0x3B0 + i) ||| 7#64 else h.csr (0x3B0 + i) &&& 0xFFFFFFFFFFFFFFF0#64

/-! ## PMP (R341) -/

/-- What an access of a core does, for PMP and the triggers: it executes, or it reads, writes or both. -/
structure HartUse where
  user : Bool := false
  exec : Bool := false
  read : Bool := false
  write : Bool := false
deriving DecidableEq, Repr

/-- The addresses of PMP region i, from and to; none where it is off. -/
def Hart.pmpRange (h : Hart) (i : Nat) : Option (Nat × Nat) :=
  let top := 4 * (h.pmpAddr i).toNat
  match h.pmpCfg i / 8 % 4 with
  | 1 => some (if i = 0 then 0 else 4 * ((h.csr (0x3B0 + (i - 1))).toNat / 16 * 16), top)
  | 3 =>
    let v := (h.pmpAddr i).toNat
    let k := ((List.range 55).find? (fun j => !bitAt v j)).getD 55
    some ((v - (2 ^ k - 1)) * 4, (v - (2 ^ k - 1)) * 4 + 2 ^ (k + 3))
  | _ => none

/-- PMP allows the access at `a`: the first region that holds it decides, in machine mode only where it is locked; with none, machine mode may
and user mode may not. -/
def Hart.pmpAllows (h : Hart) (u : HartUse) (a : Nat) : Bool :=
  match (List.range 16).find? (fun i => (h.pmpRange i).any (fun r => decide (r.1 ≤ a ∧ a < r.2))) with
  | none => !u.user
  | some i =>
    let c := h.pmpCfg i
    (!u.user && !h.pmpLocked i) || ((!u.read || bitAt c 0) && (!u.write || bitAt c 1) && (!u.exec || bitAt c 2))

/-! ## Triggers (R350)

Address triggers of type 6 of the Sdtrig specification that R350 names (PRESUMED, log entry "triggers"). -/

/-- Trigger `t` matches an access of `w` bytes at `a`. -/
def trigMatches (t : Nat × Nat) (u : HartUse) (a w : Nat) : Bool :=
  let size := match bitsOf t.1 18 16 with | 0 => true | 1 => w == 1 | 2 => w == 2 | 3 => w == 4 | 5 => w == 8 | _ => false
  let ones := ((List.range 65).find? (fun j => !bitAt t.2 j)).getD 64
  let addr := match bitsOf t.1 10 7 with
    | 0 => a == t.2 % 2 ^ 64
    | 1 => a / 2 ^ (ones + 1) == t.2 % 2 ^ 64 / 2 ^ (ones + 1)
    | 2 => decide (t.2 % 2 ^ 64 ≤ a)
    | 3 => decide (a < t.2 % 2 ^ 64)
    | _ => false
  bitsOf t.1 63 60 == 6 && !bitAt t.1 21 && size && addr && bitAt t.1 (if u.user then 3 else 6)
    && ((u.exec && bitAt t.1 2) || (u.write && bitAt t.1 1) || (u.read && bitAt t.1 0))

/-- The first chain of triggers, the first with number `i`, all of which match: its action, and the numbers of its triggers. -/
def trigFires (u : HartUse) (a w : Nat) : List (Nat × Nat) → Nat → Option (List Nat) → Option (Nat × List Nat)
  | [], _, _ => none
  | t :: rest, i, so =>
    let here := if trigMatches t u a w then so.map (· ++ [i]) else none
    if bitAt t.1 11 then trigFires u a w rest (i + 1) here
    else match here with
      | some l => some (bitsOf t.1 15 12, l)
      | none => trigFires u a w rest (i + 1) (some [])

/-! ## Programs and traps -/

/-- The registers after a program that the model does not follow: free values, of the form that each register can hold. The PMP registers
stay, since a program's accesses to them come in as accesses (DESIGN CHOICE, log entry "PMP"). -/
def ranHart (d : Device) (h : Hart) : Hart :=
  let v (k : Nat) : DWord := BitVec.ofNat 64 (Config.free d.fresh k)
  { pc := v 0 &&& 0xFFFFFFFFFFFFFFFE#64,
    machine := (v 1).getLsbD 0,
    x := Vector.ofFn (fun i => if i.val = 0 then 0#64 else v (2 + i.val)),
    f := Vector.ofFn (fun i => v (34 + i.val)),
    csrs := (csrTable.filter (fun c => decide ((c.num < csrTselect ∨ csrDpc + 2 < c.num) ∧ ¬ (0x3A0 ≤ c.num ∧ c.num < 0x3C0)))).foldl
      (fun l c => Sparse.put csrReset c.num ({ h with csrs := l }.csrTakes c.num (v (66 + c.num))) l) h.csrs }

/-- A trap into machine mode: mepc takes the pc, mcause and mtval what happened, mstatus.MPIE and MPP the interrupt enable and the mode as they
were; interrupts are disabled and the pc goes to mtvec, for an interrupt in vectored mode to its entry. -/
def trapHart (h : Hart) (interrupt : Bool) (cause : Nat) (tval : DWord) : Hart :=
  let s := h.csr csrMstatus
  let s1 := (s &&& 0xFFFFFFFFFFFFE777#64) ||| (if s.getLsbD 3 then 0x80#64 else 0#64) ||| (if h.machine then 0x1800#64 else 0#64)
  let tv := h.csr csrMtvec
  let base := tv &&& 0xFFFFFFFFFFFFFFFC#64
  let h1 := (((h.setCsr csrMepc h.pc).setCsr csrMcause (BitVec.ofNat 64 ((if interrupt then 2 ^ 63 else 0) + cause))).setCsr csrMtval tval).setCsr csrMstatus s1
  { h1 with machine := true, pc := if interrupt ∧ tv.getLsbD 0 then base + BitVec.ofNat 64 (4 * cause) else base }

/-- Exception codes of a core's access (R342, R343, R353). -/
def excFetch : Nat := 1
def excIllegal : Nat := 2
def excBreakpoint : Nat := 3
def excLoadMisaligned : Nat := 4
def excLoad : Nat := 5
def excStoreMisaligned : Nat := 6
def excStore : Nat := 7

/-- A core takes an exception at address `a`, wherever its program is; one that is held or halted by debug takes none. -/
def coreTrap (d : Device) (n cause a : Nat) : Device :=
  let x := d.core n
  let h := if coreActive d n then trapHart (ranHart d x.hart) false cause (BitVec.ofNat 64 a) else x.hart
  { d.setCore n { x with hart := h } with fresh := d.fresh + 1 }

/-- A halt with dcsr.cause `cause`: the core behaves as one that has stopped running. Its registers are what its program has made of them; dpc
takes the pc and dcsr the mode and the cause. -/
def haltHart (n cause : Nat) (d : Device) : Device :=
  if ¬ coreActive d n then d
  else
    let h := ranHart d (d.core n).hart
    let dcsr := (h.csr csrDcsr &&& 0xFFFFFFFFFFFFFE3C#64) ||| BitVec.ofNat 64 (64 * cause) ||| (if h.machine then 3#64 else 0#64)
    { (d.setBit (F.CORE_Cn_STATUS.DEBUG_HALTED n) true).setCore n
        { d.core n with haltAt := some d.tb.edges, hart := (h.setCsr csrDpc h.pc).setCsr csrDcsr dcsr } with fresh := d.fresh + 1 }

/-- The hart of core n as a reset leaves it: it starts at CORE_Cn_BOOT in machine mode, with every PMP entry off and all interrupts disabled
(R345). Integer and floating-point registers are zero (DESIGN CHOICE, log entry "harts"). -/
def bootHart (d : Device) (n : Nat) : Hart := { pc := BitVec.ofNat 64 (d.pair (R.CORE_Cn_BOOT_LO n) (R.CORE_Cn_BOOT_HI n)) &&& 0xFFFFFFFFFFFFFFFE#64 }

/-! ## Caches (R341, R344)

A cache holds 512 lines of 64 bytes. Loads and stores of cached areas allocate; a full cache evicts a line that the manual does not name,
a dirty one to memory (DESIGN CHOICE, log entry "caches"). -/

def cacheLines : Nat := 512

def lineIn (c : List CacheLine) (k : Nat) : Option CacheLine := c.find? (fun l => l.line == k)

/-- A line as the coherent data caches and the memory behind them have it: a dirty copy first. -/
def coherentLine (d : Device) (k : Nat) : List Byte :=
  match (List.range 4).findSome? (fun n => (lineIn (d.core n).dcache k).filter CacheLine.dirty) with
  | some l => l.bytes
  | none => match (List.range 4).findSome? (fun n => lineIn (d.core n).dcache k) with
    | some l => l.bytes
    | none => d.bytes (64 * k) 64

/-- Bytes go from a cache to memory. -/
def writeBack (d : Device) (l : CacheLine) : Device := d.putBytes (64 * l.line) l.bytes

/-- Line k is in the data cache of core n. -/
def dcacheFill (d : Device) (n k : Nat) : Device :=
  let x := d.core n
  if (lineIn x.dcache k).isSome then d
  else
    let new : CacheLine := { line := k, bytes := coherentLine d k }
    if x.dcache.length < cacheLines then d.setCore n { x with dcache := new :: x.dcache }
    else
      match x.dcache[Config.free d.fresh 0 % cacheLines]? with
      | none => d
      | some v =>
        let d1 := if v.dirty then writeBack d v else d
        { d1.setCore n { x with dcache := new :: x.dcache.filter (fun l => l.line != v.line) } with fresh := d.fresh + 1 }

/-- Line k is in the instruction cache of core n; it is filled from the coherent data caches, and never written. -/
def icacheFill (d : Device) (n k : Nat) : Device :=
  let x := d.core n
  if (lineIn x.icache k).isSome then d
  else
    let new : CacheLine := { line := k, bytes := coherentLine d k }
    if x.icache.length < cacheLines then d.setCore n { x with icache := new :: x.icache }
    else { d.setCore n { x with icache := new :: x.icache.eraseIdx (Config.free d.fresh 0 % cacheLines) } with fresh := d.fresh + 1 }

/-- `n` bytes at `a` of a line in a cache. -/
def cachedBytes (c : List CacheLine) (a n : Nat) : List Byte := (((lineIn c (a / 64)).map CacheLine.bytes).getD []).drop (a % 64) |>.take n

/-- A core's store to a cached area: its own line takes the bytes and is dirty, the other data caches keep no copy, and reservations of the
granule are lost (R343, R344). -/
def cacheStore (d : Device) (n a : Nat) (bs : List Byte) : Device :=
  let k := a / 64
  let d1 := dcacheFill d n k
  let put (l : CacheLine) : CacheLine :=
    if l.line = k then { l with bytes := l.bytes.take (a % 64) ++ bs ++ l.bytes.drop (a % 64 + bs.length), dirty := true } else l
  let d2 := (List.range 4).foldl (fun d m =>
    let x := d.core m
    d.setCore m { x with dcache := if m = n then x.dcache.map put else x.dcache.filter (fun l => l.line != k) }) d1
  { d2 with resv := d2.resv.filter (fun r => r.2 ≠ k) }

/-- A cache operation on line k of core n's data cache: OP 1 clean, 2 invalidate, 3 both. -/
def cacheOp (op n : Nat) (d : Device) (k : Nat) : Device :=
  let x := d.core n
  match lineIn x.dcache k with
  | none => d
  | some l =>
    let d1 := if l.dirty ∧ (op = 1 ∨ op = 3) then writeBack d l else d
    let clean (y : CacheLine) : CacheLine := if y.line = k then { y with dirty := false } else y
    if op = 0 then d
    else d1.setCore n { x with dcache := if op = 1 then x.dcache.map clean else x.dcache.filter (fun y => y.line != k) }

end Sys2Proof.Machine
end

