-- ==== Sys2Proof/Machine/Cores.lean ====
section
/-! DEFINITION. Masters, bus errors, mailboxes, locks, cores, timer and interrupt controller (R341 to R362, R394). -/

namespace Sys2Proof.Machine

/-- Identity of a master (Table 16.2). -/
def masterId : Master → Nat
  | .core n => n.val
  | .kcp => 4
  | .dma => 5
  | .peer n => 6 + n.val
  | .debug => 9

/-- The answer to an access. -/
def Device.reply (d : Device) (v : Nat) : Device := { d with cores := { d.cores with reply := v, busError := false } }

/-- Causes of CORE_BUSERR_INFO. -/
def causeUnassigned : Nat := 0
def causePower : Nat := 1
def causeWidth : Nat := 2
def causeRefused : Nat := 3
def causeMailbox : Nat := 4

/-- The interconnect latches the address, master, direction and cause of an access that ends with a bus error, unless VALID is set
(R353). -/
def latchBusError (d : Device) (m addr : Nat) (write : Bool) (cause : Nat) : Device :=
  if d.bit F.CORE_BUSERR_INFO.VALID then d
  else
    ((((d.setPair R.CORE_BUSERR_ADDR_LO R.CORE_BUSERR_ADDR_HI addr).set F.CORE_BUSERR_INFO.MASTER m).setBit
      F.CORE_BUSERR_INFO.WRITE write).set F.CORE_BUSERR_INFO.CAUSE cause).set F.CORE_BUSERR_INFO.VALID 1

/-- An access of master `m` ends with a bus error: answered to its master, a core taking exception `exc`, and latched (R353). -/
def busErrorAs (exc : Nat) (d : Device) (m addr : Nat) (write : Bool) (cause : Nat) : Device :=
  let d0 := if m < 4 then coreTrap d m exc addr else d
  latchBusError { d0 with cores := { d0.cores with
    reply := 0, busError := true, dbgm := if m = 9 then { d.cores.dbgm with sberror := true } else d.cores.dbgm } } m addr write cause

/-- A load or a store ends with a bus error: a core takes a load or store access fault. -/
def busError (d : Device) (m addr : Nat) (write : Bool) (cause : Nat) : Device :=
  busErrorAs (if write then excStore else excLoad) d m addr write cause

/-! ## Accesses that commands make by themselves -/

/-- The Judgement region or the capture block is powered down at the address (R30, R429). -/
def poweredDown (d : Device) (a : Nat) : Bool :=
  let off (f : Fld) : Bool := d.get f == 1 || d.get f == 2
  (decide (0x40000000 ≤ a ∧ a < 0x50000000) && off F.RSV_POWER.JDG_STATE)
    || (decide (0x60100000 ≤ a ∧ a < 0x60110000) && off F.RSV_POWER.CAPT_STATE)

/-- Why no access reaches the block at an address: its region is in reset (Table 22.2), or it is powered down (R30). -/
def shutCause (d : Device) (a : Nat) : Option Nat :=
  if (match regionOf a with | some r => d.resetting r | none => false) then some causeRefused
  else if poweredDown d a then some causePower else none

/-- Accesses reach the block at an address: reset is not held (R396), and nothing shuts the block. -/
def gateOpen (d : Device) (a : Nat) : Bool := decide (d.boot.phase ≠ .reset) && (shutCause d a).isNone

/-- A command that is an access of master `m` to the register at `a`: what it does where it reaches it, else a bus error. -/
def regAccessBy (m a : Nat) (write : Bool) (act : Device → Device) (d : Device) : Device :=
  if d.boot.phase = .reset then d
  else match shutCause d a with
    | some c => busError d m a write c
    | none => act d

/-- The same of a master that the command does not name: a free one (DESIGN CHOICE, log entry "the master of a command"). -/
def regAccess (a : Nat) (write : Bool) (act : Device → Device) (d : Device) : Device :=
  if gateOpen d a then act d else regAccessBy (Config.free d.fresh 0 % 10) a write act { d with fresh := d.fresh + 1 }

/-! ## Mailboxes (R355 to R359) -/

/-- FULL of a channel is set; with its enable bit its rill fires (R359, Table 18.1). -/
def mbxFill (d : Device) (k : Nat) : Device :=
  let d1 := d.set (F.MBXk_STATUS.FULL k) 1
  if bitAt (d.rd R.MBX_IRQ_EN).toNat k ∧ ¬ d.bit (F.MBXk_STATUS.FULL k) then d1.emit (158 + k) d.nowNs else d1

/-- A data access that the binding does not allow (R356). -/
def mbxRefuse (d : Device) (m k : Nat) (write : Bool) : Device :=
  busError (d.set (F.MBXk_STATUS.BIND_ERR k) 1) m (R.MBXk_DATA k) write causeMailbox

/-- The sender's write (R356). -/
def mbxWriteDev (m k : Nat) (w : Word) (d : Device) : Device :=
  if ¬ d.bit (F.MBXk_BIND.EN k) ∨ d.get (F.MBXk_BIND.SENDER k) ≠ m then mbxRefuse d m k true
  else
    let d1 := mbxFill (d.wr (R.MBXk_DATA k) w) k
    let d2 := if d.bit (F.MBXk_STATUS.FULL k) then (d1.set (F.MBXk_STATUS.COLLISION k) 1).count (F.MBXk_COLLISIONS.COUNT k) else d1
    d2.reply 0

/-- The receiver's read (R356). -/
def mbxReadDev (m k : Nat) (d : Device) : Device :=
  if ¬ d.bit (F.MBXk_BIND.EN k) ∨ d.get (F.MBXk_BIND.RECEIVER k) ≠ m then mbxRefuse d m k false
  else if d.bit (F.MBXk_STATUS.FULL k) then (d.set (F.MBXk_STATUS.FULL k) 0).reply (d.rd (R.MBXk_DATA k)).toNat
  else (d.set (F.MBXk_STATUS.EMPTY_RD k) 1).reply 0

/-- What MBX_FULL reads. -/
def mbxFullWord (d : Device) : Nat := ((List.range 32).map (fun k => if d.bit (F.MBXk_STATUS.FULL k) then 2 ^ k else 0)).sum

/-- The mailbox flags after a reset of master `m` (R358). -/
def mbxMasterReset (d : Device) (m : Nat) : Device :=
  (List.range 32).foldl (fun d k =>
    let d1 := if d.get (F.MBXk_BIND.RECEIVER k) = m ∧ d.bit (F.MBXk_STATUS.FULL k) then d.set (F.MBXk_STATUS.STALE k) 1 else d
    if d.get (F.MBXk_BIND.SENDER k) = m then d1.set (F.MBXk_STATUS.SENDER_RESET k) 1 else d1) d

/-- A reset of the Control region clears word and flags of every channel (R358). -/
def mbxClear (d : Device) : Device :=
  (List.range 32).foldl (fun d k => (d.wr (R.MBXk_DATA k) 0#32).wr (R.MBXk_STATUS k) 0#32) d

/-! ## Locks (R360 to R362) -/

/-- A flag of LCK_FLAGS is set. The page has no IRQ_EN: its rill fires for each flag that was 0 (Table 18.1). -/
def lockFlag (d : Device) (f : Fld) : Device :=
  let d1 := d.set f 1
  if d.bit f then d1 else d1.emit 200 d.nowNs

/-- A read acquires a free lock, or returns the owner's identity + 1. -/
def lockReadDev (m k : Nat) (d : Device) : Device :=
  let v := (d.rd (R.LCKk k)).toNat
  let d1 := if v = 0 then d.wr (R.LCKk k) (BitVec.ofNat 32 (m + 1)) else d
  d1.reply v

/-- The owner's write releases the lock; any other is counted. -/
def lockWriteDev (m k : Nat) (d : Device) : Device :=
  if (d.rd (R.LCKk k)).toNat = m + 1 then (d.wr (R.LCKk k) 0#32).reply 0
  else (lockFlag (d.count F.LCK_REL_ERR.V) F.LCK_FLAGS.REL_ERR).reply 0

/-- A write of LCK_FORCE_LO or _HI releases the locks of its bits, whoever owns them, and a bit of 1 sets FORCED (R362). -/
def lockForceDev (hi : Bool) (w : Word) (d : Device) : Device :=
  let d1 := (List.range 32).foldl (fun d i => if bitAt w.toNat i then d.wr (R.LCKk (if hi then 32 + i else i)) 0#32 else d) d
  if w = 0#32 then d else lockFlag d1 F.LCK_FLAGS.FORCED

/-- A reset of master `m` releases its locks and sets RESET_REL (R362). -/
def lockMasterReset (d : Device) (m : Nat) : Device :=
  lockFlag ((List.range 64).foldl (fun d k => if (d.rd (R.LCKk k)).toNat = m + 1 then d.wr (R.LCKk k) 0#32 else d) d) F.LCK_FLAGS.RESET_REL

/-- What LCK_OWNED_LO and _HI read, from lock `b` on. -/
def lockOwned (d : Device) (b : Nat) : Nat := ((List.range 32).map (fun i => if d.rd (R.LCKk (b + i)) ≠ 0#32 then 2 ^ i else 0)).sum

/-- What a reset of master `m` does to locks and mailboxes (Table 16.2). -/
def masterReset (d : Device) (m : Nat) : Device := mbxMasterReset (lockMasterReset d m) m

/-! ## Cores (R344 to R348) -/

/-- The hart of core n as it starts; with halt-on-reset it halts at once, before its first instruction (R350). -/
def startHart (d : Device) (n : Nat) : Hart :=
  let h := bootHart d n
  if (d.core n).haltOnReset then (h.setCsr csrDpc h.pc).setCsr csrDcsr 0x40000143#64 else h

/-- Core n alone is reset and restarts at CORE_Cn_BOOT (R346): its registers, reservation and caches with their dirty lines are gone. -/
def resetCore (d : Device) (n : Nat) : Device :=
  let x := d.core n
  let d1 := d.setCore n
    { kickAt := d.tb.edges, hart := startHart d n, haltOnReset := x.haltOnReset, haltAt := if x.haltOnReset then some d.tb.edges else none,
      timer := x.timer }
  let d2 := { d1 with resv := d1.resv.filter (fun r => r.1 ≠ n),
                      cores := { d1.cores with claimed := d1.cores.claimed.filter (fun e => e.2 ≠ n) } }
  let d3 := (d2.set (F.CORE_Cn_CMO.BUSY n) 0).setBit (F.CORE_Cn_STATUS.DEBUG_HALTED n) x.haltOnReset
  masterReset d3 n

/-- A write of RESET (R346): ignored on a held core. -/
def coreResetDev (n : Nat) (d : Device) : Device := if coreRuns d n then resetCore d n else d

/-- A write of RELEASE (R345): ignored on a running core. -/
def coreReleaseDev (n : Nat) (d : Device) : Device :=
  if coreRuns d n then d
  else
    let x := d.core n
    ((d.set (F.CORE_Cn_STATUS.RUNNING n) 1).setBit (F.CORE_Cn_STATUS.DEBUG_HALTED n) x.haltOnReset).setCore n
      { x with kickAt := d.tb.edges, hart := startHart d n, haltAt := if x.haltOnReset then some d.tb.edges else none }

/-- A write of CORE_Cn_KICK: 0xA5 restarts the count (R347). -/
def watchdogKickDev (n : Nat) (w : Word) (d : Device) : Device :=
  if (F.CORE_Cn_KICK.V n).of w % 256 = 0xA5 then d.setCore n { d.core n with kickAt := d.tb.edges } else d

/-- WDOG_EXPIRED is set; its rill fires where it was clear (Table 18.1). -/
def setExpired (d : Device) (n : Nat) : Device :=
  let d1 := d.set (F.CORE_Cn_STATUS.WDOG_EXPIRED n) 1
  if d.bit (F.CORE_Cn_STATUS.WDOG_EXPIRED n) then d1 else d1.emit 199 d.nowNs

/-- The clock at the edge at which the watchdog of core n has counted TIMEOUT µs, or now where that has passed. -/
def untilExpiry (d : Device) (n : Nat) : Device :=
  let t := (d.core n).kickAt + 500 * d.get (F.CORE_Cn_WDOG.TIMEOUT n)
  if d.tb.edges < t then d.elapse (t - d.tb.edges) else d

/-- The watchdog of a running core reaches zero (R347), unless it is off or paused by a halt (R350). -/
def watchdogExpireDev (n : Nat) (d : Device) : Device :=
  if ¬ coreRuns d n ∨ ¬ d.bit (F.CORE_Cn_WDOG.EN n) ∨ (d.bit F.CORE_DBG.WDOG_HALT ∧ d.bit (F.CORE_Cn_STATUS.DEBUG_HALTED n)) then d
  else (setExpired (resetCore (untilExpiry d n) n) n).fault faultWdog n

/-- A write of CORE_Cn_CMO: OP and LINES, and GO unless BUSY (R344). -/
def cmoGoDev (n : Nat) (w : Word) (d : Device) : Device :=
  let d1 := (d.set (F.CORE_Cn_CMO.OP n) ((F.CORE_Cn_CMO.OP n).of w)).set (F.CORE_Cn_CMO.LINES n) ((F.CORE_Cn_CMO.LINES n).of w)
  if (F.CORE_Cn_CMO.GO n).of w = 0 ∨ d.bit (F.CORE_Cn_CMO.BUSY n) then d1
  else
    let a := d.pair (R.CORE_Cn_CMO_ADDR_LO n) (R.CORE_Cn_CMO_ADDR_HI n) / 64 * 64
    (d1.set (F.CORE_Cn_CMO.BUSY n) 1).setCore n
      { d1.core n with cmo := some ((F.CORE_Cn_CMO.OP n).of w, a, (F.CORE_Cn_CMO.LINES n).of w) }

/-- A cache operation completes (R344): clean writes the dirty lines of the range to memory, invalidate drops its lines. -/
def cmoDoneDev (n : Nat) (d : Device) : Device :=
  let x := d.core n
  match x.cmo with
  | none => d
  | some (op, a, lines) =>
    let ks := (x.dcache.map CacheLine.line).filter (fun k => decide (a / 64 ≤ k ∧ k < a / 64 + lines))
    let d1 := ks.foldl (cacheOp op n) d
    (d1.setCore n { d1.core n with cmo := none }).set (F.CORE_Cn_CMO.BUSY n) 0

/-- A read of CORE_MTIME_LO captures both halves (R348). -/
def mtimeReadDev (d : Device) : Device := (d.setPair R.CORE_MTIME_LO R.CORE_MTIME_HI d.mtime).reply (d.mtime % 2 ^ 32)

/-- mtimecmp of core n. -/
def mtimecmp (d : Device) (n : Nat) : Nat := d.pair (R.CORE_Cn_MTIMECMP_LO n) (R.CORE_Cn_MTIMECMP_HI n)

/-- The timer interrupt of core n is pending while mtime ≥ mtimecmp (R348). -/
def showTimer (d : Device) (n : Nat) : Device := d.setCore n { d.core n with timer := decide (mtimecmp d n ≤ d.mtime) }

/-! ## Interrupt controller (R349, R394) -/

/-- Addresses of FLAGS and IRQ_EN behind a rill of Table 18.1 whose source is the level "any enabled flag set". -/
def flagsOf (r : Nat) : Option (Nat × Nat) :=
  if r < 12 then some (R.CPn_FLAGS r, R.CPn_IRQ_EN r)
  else if r = 60 then some (R.CAL_FLAGS, R.CAL_IRQ_EN)
  else if r = 61 then some (R.GEO_FLAGS, R.GEO_IRQ_EN)
  else if r < 62 then none
  else if r < 66 then some (R.SEGv_FLAGS (r - 62), R.SEGv_IRQ_EN (r - 62))
  else if r = 66 then some (R.BSN_FLAGS, R.BSN_IRQ_EN)
  else if r = 67 then some (R.FLY_FLAGS, R.FLY_IRQ_EN)
  else if r = 68 then some (R.FOR_FLAGS, R.FOR_IRQ_EN)
  else if r = 69 then some (R.CLA_FLAGS, R.CLA_IRQ_EN)
  else if r = 70 then some (R.CASC_FLAGS, R.CASC_IRQ_EN)
  else if r = 71 then some (R.EJ_FLAGS, R.EJ_IRQ_EN)
  else if r < 76 then some (R.SPn_FLAGS (r - 72), R.SPn_IRQ_EN (r - 72))
  else if r < 80 then some (R.TRAn_FLAGS (r - 76), R.TRAn_IRQ_EN (r - 76))
  else if r = 84 then some (R.MON_FLAGS, R.MON_IRQ_EN)
  else if r = 117 then some (R.TB_FLAGS, R.TB_IRQ_EN)
  else if r < 121 then none
  else if r < 137 then some (R.TIO_Pn_FLAGS (r - 121), R.TIO_Pn_IRQ_EN (r - 121))
  else if r < 141 then some (R.MEMn_FLAGS (r - 137), R.MEMn_IRQ_EN (r - 137))
  else if r = 141 then some (R.CAP_FLAGS, R.CAP_IRQ_EN)
  else if r < 158 then some (R.DMAc_FLAGS (r - 142), R.DMAc_IRQ_EN (r - 142))
  else if r < 190 then none
  else if r = 190 then some (R.CRC_FLAGS, R.CRC_IRQ_EN)
  else if r = 191 then some (R.ETH_FLAGS, R.ETH_IRQ_EN)
  else if r = 192 then some (R.SLU_FLAGS, R.SLU_IRQ_EN)
  else if r = 193 then some (R.RSV_FLAGS, R.RSV_IRQ_EN)
  else if r = 194 then some (R.FLT_FLAGS, R.FLT_IRQ_EN)
  else if r = 195 then some (R.PAIR_FLAGS, R.PAIR_IRQ_EN)
  else if r < 199 then some (R.PEERn_FLAGS (r - 196), R.PEERn_IRQ_EN (r - 196))
  else if r = 201 then some (R.EVT_FLAGS, R.EVT_IRQ_EN)
  else none

/-- Lane layouts of the port whose events are rill `r`: camera, spout, Ethernet and peer ports (R28, Table 2.1, Table 18.1). -/
def rillLanes (r : Nat) : List Nat :=
  if r < 12 then [0x8000, 0x8100, 0x8200, 0x8300, 0x8400].map (fun o => 0x20000000 + 0x10000 * r + o)
  else if 72 ≤ r ∧ r < 76 then [0x8000, 0x8400].map (fun o => 0x50100000 + 0x10000 * (r - 72) + o)
  else if r = 191 then (List.range 8).map (fun k => 0x100A8000 + 0x100 * k)
  else if 196 ≤ r ∧ r < 199 then [0x2000, 0x2100, 0x2400, 0x2500].map (fun o => 0x100E0000 + 0x4000 * (r - 196) + o)
  else []

/-- An enabled lane flag of the port of rill `r` is set (R53). -/
def laneLevel (d : Device) (r : Nat) : Bool := (rillLanes r).any (fun b => (d.rd (R.LN_FLAGS b) &&& d.rd (R.LN_IRQ_EN b)) ≠ 0#32)

/-- The level of interrupt source `i` (R394). -/
def sourceLevel (d : Device) (i : Nat) : Bool :=
  if i = 0 then false
  else if 257 ≤ i ∧ i < 281 then bitAt (d.rd R.EVT_RI_PEND).toNat (i - 257)
  else
    let r := i - 1
    if 12 ≤ r ∧ r < 60 then d.bit (F.CXn_STAT_STATUS.READY (r - 12))
    else if 158 ≤ r ∧ r < 190 then d.bit (F.MBXk_STATUS.FULL (r - 158)) && bitAt (d.rd R.MBX_IRQ_EN).toNat (r - 158)
    else if r = 199 then (List.range 4).any (fun n => d.bit (F.CORE_Cn_STATUS.WDOG_EXPIRED n))
    else if r = 200 then d.rd R.LCK_FLAGS ≠ 0#32
    else match flagsOf r with
      | some (f, e) => (d.rd f &&& d.rd e) ≠ 0#32 || laneLevel d r
      | none => false

/-- Registers of the Platform-Level Interrupt Controller specification: priority of a source, enables and threshold of a context. -/
def plicBase : Nat := 0x11000000
def plicPriority (d : Device) (i : Nat) : Nat := (d.rd (plicBase + 4 * i)).toNat % 8
def plicEnabled (d : Device) (ctx i : Nat) : Bool := bitAt (d.rd (plicBase + 0x2000 + 0x80 * ctx + i / 32 * 4)).toNat (i % 32)
def plicThreshold (d : Device) (ctx : Nat) : Nat := (d.rd (plicBase + 0x200000 + 0x1000 * ctx)).toNat % 8

/-- Source `i` is pending: its level is high, or its gateway has forwarded a request that no context has claimed; and no context holds it
claimed. -/
def plicPending (d : Device) (i : Nat) : Bool := (sourceLevel d i || d.cores.latched.contains i) && !d.cores.claimed.any (fun e => e.1 == i)

/-- The gateways have forwarded the sources that are pending: a request stays pending when its level drops (R349). It is made before levels
drop: before a write of the control view and before a mailbox read or clear. -/
def latchPlic (d : Device) : Device := { d with cores := { d.cores with latched := (List.range 512).filter (plicPending d) } }

/-- Of the sources `i`, the one a context claims: the highest priority, the lowest number among equals; 0 for none. -/
def plicBest (d : Device) (ctx : Nat) : List Nat → Nat
  | [] => 0
  | i :: t =>
    let b := plicBest d ctx t
    if plicPending d i ∧ plicEnabled d ctx i ∧ 0 < plicPriority d i ∧ (b = 0 ∨ plicPriority d b ≤ plicPriority d i) then i else b

/-- A context claims (R349). -/
def plicClaimDev (ctx : Nat) (d : Device) : Device :=
  let i := plicBest d ctx (List.range 512)
  let d1 := if i = 0 then d else { d with cores := { d.cores with
    claimed := (i, ctx) :: d.cores.claimed, latched := d.cores.latched.filter (fun j => j ≠ i) } }
  d1.reply i

/-- A context completes source `i`; ignored where the source is not enabled for it. -/
def plicComplete (d : Device) (ctx i : Nat) : Device :=
  if plicEnabled d ctx i then { d with cores := { d.cores with claimed := d.cores.claimed.filter (fun e => e.1 ≠ i) } } else d

/-- The external interrupt of a context: a pending enabled source above its threshold. -/
def plicInterrupt (d : Device) (ctx : Nat) : Bool :=
  (List.range 512).any (fun i => plicPending d i && plicEnabled d ctx i && decide (plicThreshold d ctx < plicPriority d i))

/-! ## Interrupts of the cores (R348, R349) -/

/-- What mip of core n reads: software, timer and external interrupt. -/
def mipWord (d : Device) (n : Nat) : DWord :=
  (if d.bit (F.CORE_Cn_MSIP.MSIP n) then 8#64 else 0#64) ||| (if mtimecmp d n ≤ d.mtime then 0x80#64 else 0#64)
    ||| (if plicInterrupt d n then 0x800#64 else 0#64)

/-- A running core takes a pending interrupt that mie and mstatus enable, as its program has left them: external, then software, then
timer. -/
def coreInterrupt (n : Nat) (d : Device) : Device :=
  let x := d.core n
  let r := ranHart d x.hart
  let on := mipWord d n &&& r.csr csrMie
  let h := if ¬ coreActive d n then x.hart
    else if on = 0#64 ∨ (r.machine ∧ ¬ (r.csr csrMstatus).getLsbD 3) then r
    else trapHart r true (if on.getLsbD 11 then 11 else if on.getLsbD 3 then 3 else 7) 0#64
  { d.setCore n { x with hart := h } with fresh := d.fresh + 1 }

/-- mtime reaches mtimecmp (R348): the clock runs on to that edge where it has not passed it. -/
def mtimerDev (n : Nat) (d : Device) : Device :=
  let t := 4 * mtimecmp d n
  coreInterrupt n (showTimer (if d.tb.edges < t then d.elapse (t - d.tb.edges) else d) n)

/-! ## Registers of a hart by number (R341, R350) -/

/-- A register of hart n by its abstract number: control and status registers, then x0 to x31 and f0 to f31; none where there is none. time
reads mtime (R348). -/
def regRead (d : Device) (n r : Nat) : Option DWord :=
  let x := d.core n
  let h := x.hart
  let t := unit x.triggers (h.csr csrTselect).toNat
  if r = 0x001 then some (h.csr 3 &&& 0x1F#64)
  else if r = 0x002 then some (h.csr 3 >>> 5 &&& 7#64)
  else if r = 0x344 then some (mipWord d n)
  else if 0x3B0 ≤ r ∧ r < 0x3C0 then some (h.pmpAddr (r - 0x3B0))
  else if r = 0x7A1 then some (BitVec.ofNat 64 t.1)
  else if r = 0x7A2 then some (BitVec.ofNat 64 t.2)
  else if r = 0xC01 then some (BitVec.ofNat 64 d.mtime)
  else if r = 0xC00 ∨ r = 0xC02 ∨ (0xC03 ≤ r ∧ r < 0xC07) then some (h.csr (r - 0x100))
  else if r = 0xF11 then some (Config.coreIds.1.setWidth 64)
  else if r = 0xF12 then some Config.coreIds.2.1
  else if r = 0xF13 then some Config.coreIds.2.2
  else if r = 0xF14 then some (BitVec.ofNat 64 n)
  else if (csrDesc r).isSome then some (h.csr r)
  else if 0x1000 ≤ r ∧ r < 0x1020 then some (h.x[r - 0x1000]?.getD 0#64)
  else if 0x1020 ≤ r ∧ r < 0x1040 then some (h.f[r - 0x1020]?.getD 0#64)
  else none

/-- A register of hart n is written: read-only ones keep their value, and x0 stays 0. -/
def regWrite (n r : Nat) (v : DWord) (d : Device) : Device :=
  let x := d.core n
  let h := x.hart
  let k := (h.csr csrTselect).toNat
  let t := unit x.triggers k
  let x1 : CoreX :=
    if r = 0x001 then { x with hart := h.setCsr 3 ((h.csr 3 &&& 0xE0#64) ||| (v &&& 0x1F#64)) }
    else if r = 0x002 then { x with hart := h.setCsr 3 ((h.csr 3 &&& 0x1F#64) ||| ((v &&& 7#64) <<< 5)) }
    else if r = 0x7A1 then { x with triggers := withUnit x.triggers k (v.toNat, t.2) }
    else if r = 0x7A2 then { x with triggers := withUnit x.triggers k (t.1, v.toNat) }
    else if (csrDesc r).isSome then { x with hart := h.setCsr r (h.csrTakes r v) }
    else if 0x1000 < r ∧ r < 0x1020 then { x with hart := { h with x := withUnit h.x (r - 0x1000) v } }
    else if 0x1020 ≤ r ∧ r < 0x1040 then { x with hart := { h with f := withUnit h.f (r - 0x1020) v } }
    else x
  d.setCore n x1

/-- Core n accesses one of its own control and status registers, `v` for a write: one that does not exist, that its mode may not access or
that is read-only is an illegal instruction (DESIGN CHOICE, log entry "PMP"). -/
def csrAccess (n r : Nat) (user : Bool) (v : Option Nat) (d : Device) : Device :=
  let h := (d.core n).hart
  let counter : Bool := decide (0xC00 ≤ r ∧ r < 0xC07) && !bitAt (h.csr 0x306).toNat (r - 0xC00)
  match if r < 0x1000 then regRead d n r else none with
  | none => coreTrap d n excIllegal 0
  | some x =>
    if (user ∧ (bitsOf r 9 8 ≠ 0 ∨ counter)) ∨ (0x7B0 ≤ r ∧ r < 0x7C0) ∨ (v.isSome ∧ bitsOf r 11 10 = 3) then coreTrap d n excIllegal 0
    else match v with
      | some w => (regWrite n r (BitVec.ofNat 64 w) d).reply 0
      | none => d.reply x.toNat

def execMbxWrite (m : Master) (k : Fin 32) (value : Word) (s : State) : Outcome :=
  s.done (regAccessBy (masterId m) (R.MBXk_DATA k) true (mbxWriteDev (masterId m) k value) s.dev)
def execMbxRead (m : Master) (k : Fin 32) (s : State) : Outcome :=
  s.done (regAccessBy (masterId m) (R.MBXk_DATA k) false (fun d => mbxReadDev (masterId m) k (latchPlic d)) s.dev)
def execLockRead (m : Master) (k : Fin 64) (s : State) : Outcome :=
  s.done (regAccessBy (masterId m) (R.LCKk k) false (lockReadDev (masterId m) k) s.dev)
def execLockWrite (m : Master) (k : Fin 64) (s : State) : Outcome :=
  s.done (regAccessBy (masterId m) (R.LCKk k) true (lockWriteDev (masterId m) k) s.dev)
def execLockForce (hi : Bool) (value : Word) (s : State) : Outcome := s.done (regAccess R.LCK_FORCE_LO true (lockForceDev hi value) s.dev)
def execCoreReset (n : Fin 4) (s : State) : Outcome := s.done (regAccess (R.CORE_Cn_CTRL n) true (coreResetDev n) s.dev)
def execCoreRelease (n : Fin 4) (s : State) : Outcome := s.done (regAccess (R.CORE_Cn_CTRL n) true (coreReleaseDev n) s.dev)
def execWatchdogKick (n : Fin 4) (value : Word) (s : State) : Outcome := s.done (regAccess (R.CORE_Cn_KICK n) true (watchdogKickDev n value) s.dev)
def execWatchdogExpire (n : Fin 4) (s : State) : Outcome := s.done (watchdogExpireDev n s.dev)
def execCmoGo (n : Fin 4) (value : Word) (s : State) : Outcome := s.done (regAccess (R.CORE_Cn_CMO n) true (cmoGoDev n value) s.dev)
def execCmoDone (n : Fin 4) (s : State) : Outcome := s.done (cmoDoneDev n s.dev)
def execMtimeRead (s : State) : Outcome := s.done (regAccess R.CORE_MTIME_LO false mtimeReadDev s.dev)
def execMtimerInterrupt (n : Fin 4) (s : State) : Outcome := s.done (mtimerDev n s.dev)
def execPlicClaim (ctx : Fin 4) (s : State) : Outcome := s.done (regAccess (plicBase + 0x200004 + 0x1000 * ctx) false (plicClaimDev ctx) s.dev)

end Sys2Proof.Machine
end

