-- ==== Sys2Proof/Machine/Axes.lean ====
section
/-! DEFINITION. Transport axes (10_transport_axes.md): decoding, the tracking observer, the reference latch and list compare. -/

namespace Sys2Proof.Machine

def Device.axis (d : Device) (n : Nat) : Axis := unit d.axes n
def Device.setAxis (d : Device) (n : Nat) (x : Axis) : Device := { d with axes := withUnit d.axes n x }

/-! ## The tracking observer (R233 to R237) -/

/-- Step limit H_c of bandwidth code `c` in ns (Table 10.3). -/
def stepLimit (c : Nat) : Nat := 2000000000 / (3 * 2 ^ c)

/-- round(x1 × Δ / 10^9 + x2 × Δ² / (2 × 10^18)), exact before it is rounded (R8). -/
def advance (o : Observer) (dt : Int) : Int := rneDiv (o.x1 * dt * 2000000000 + o.x2 * dt * dt) 2000000000000000000

/-- x1 + round(x2 × Δ / 10^9). -/
def speedAt (o : Observer) (dt : Int) : Int := o.x1 + rneDiv (o.x2 * dt) 1000000000

/-- The limits of s64. -/
def satS64 (x : Int) : Int := clampI (-(2 ^ 63)) (2 ^ 63 - 1) x

/-- The corrections of R233: predicted state, error and step h. -/
def correct (c : Nat) (x0p x1p x2p e : Int) (h t : Nat) : Observer :=
  { x0 := x0p + rneDiv (3 * 2 ^ c * h * e) 4000000000,
    x1 := satS64 (x1p + rneDiv (3 * 4 ^ c * h * e) 16000000000),
    x2 := satS64 (x2p + rneDiv (8 ^ c * h * e) 64000000000),
    tu := t, started := true }

/-- A measurement `y` at time `t` of an axis observer (R233); the first one sets the states (R235). -/
def axisMeasure (c : Nat) (o : Observer) (y t : Nat) : Observer :=
  if ¬ o.started then { x0 := y, tu := t, started := true }
  else
    let dt := (sx 64 (wrapN 64 ((t : Int) - o.tu))).toNat
    let x0p := o.x0 + advance o dt
    let e := sx 64 (wrapN 64 ((y : Int) - x0p))
    let r := correct c x0p (speedAt o dt) o.x2 e (Nat.min dt (stepLimit c)) t
    { r with x0 := (wrapN 64 r.x0 : Nat) }

/-- P(t) of an axis observer, modulo 2^64 (R236). -/
def posAt (o : Observer) (t : Nat) : Nat := wrapN 64 (o.x0 + advance o (sx 64 (wrapN 64 ((t : Int) - o.tu))))

/-- V(t) of an axis observer (R236). -/
def velAt (o : Observer) (t : Nat) : Int := speedAt o (sx 64 (wrapN 64 ((t : Int) - o.tu)))

/-- The states of axis `n` after every measurement whose time is at or before `t` (R236). -/
def obsAt (d : Device) (n t : Nat) : Observer :=
  let x := d.axis n
  ((x.obs :: x.past).find? (fun o => !stampBefore t o.tu)).getD x.obs

/-- The newest state of the axis's observer before a measurement at `t`, and those before it: an inserted standstill measurement that is not
earlier than `t` is taken back, since it never precedes an edge whose time is earlier (R235, R240). -/
def statesBefore (x : Axis) (t : Nat) : Observer × List Observer :=
  match x.stillAt, x.past with
  | some s, o :: rest => if stampBefore s t then (x.obs, x.past) else (o, rest)
  | _, _ => (x.obs, x.past)

/-- The earliest instant that the observer may still be asked for: that of the oldest line without a stamp, else the device time (R236). -/
def obsHorizon (d : Device) : Nat :=
  match d.tb.unstamped with
  | (_, t) :: _ => if stampBefore t d.nowNs then t else d.nowNs
  | [] => d.nowNs

/-- The axis measures `y` at `t`, `still` where the measurement is a standstill one: the new state in force, the states it replaces kept
while an instant of the last 2 µs may name them.  A measurement from before the restart of R241 is lost with the states it would change. -/
def measure (d cfg : Device) (n y t : Nat) (still : Bool := false) : Device :=
  let x := d.axis n
  if (match x.initAt with | some a => stampBefore t a | none => false) then d
  else
    let (o, past) := statesBefore x t
    let horizon := obsHorizon d
    let recent := past.takeWhile (fun o => stampBefore horizon (o.tu + 2000))
    let rest := (past.drop recent.length).take 1
    d.setAxis n { x with
      obs := axisMeasure (cfg.get (F.TRAn_CFG.BW n)) o y t, past := if o.started then o :: (recent ++ rest) else [],
      stillAt := if still then some t else none }

/-- A sample at `t` without a measurement that is not later than the standstill measurement in force: that one is made again with the count
after the sample (R235, R240). -/
def remeasureStill (d cfg : Device) (n t : Nat) : Device :=
  match (d.axis n).stillAt with
  | some s => if stampBefore s t then d else measure d cfg n (65536 * (d.axis n).n + 32768) s true
  | none => d

/-- A measurement of a lane observer at bandwidth code `c` (R237): an observer not started takes the time of the measurement and
applies it with the least h. -/
def laneMeasure (c : Nat) (o : Observer) (y : Int) (t : Nat) : Observer :=
  let o1 := if o.started then o else { o with tu := t, started := true }
  let dt := sx 64 (wrapN 64 ((t : Int) - o1.tu))
  let h := (clampI (stepLimit c / 64 : Nat) (stepLimit c : Nat) dt).toNat
  let p := if dt < 0 then 0 else dt
  let x0p := o1.x0 + advance o1 p
  correct c x0p (speedAt o1 p) o1.x2 (y - x0p) h (if dt < 0 then o1.tu else t)

/-- The estimate of a lane observer at time `t`: signed Δ, no wrap, limited to u32 (R237). Before its first measurement an
observer gives x0. -/
def laneEstimate (o : Observer) (t : Nat) : Nat :=
  if ¬ o.started then o.x0.toNat
  else (clampI 0 (2 ^ 32 - 1) (o.x0 + advance o (sx 64 (wrapN 64 ((t : Int) - o.tu))))).toNat

/-! ## The list (R239) -/

/-- Address of list entry `k` of axis `n`. -/
def listAddr (n k : Nat) : Nat := 0x50208000 + n * 0x10000 + 8 * (k % 4096)

/-- `a` is below `b` modulo 2^48 under the half-range rule. -/
def countBelow (a b : Nat) : Bool := let x := (b + 2 ^ 48 - a % 2 ^ 48) % 2 ^ 48; 0 < x && x < 2 ^ 47

/-- The entry at `e` is passed when N moves from `o` to `w`. -/
def listPassed (down : Bool) (e o w : Nat) : Bool :=
  if down then countBelow e o && !countBelow e w else countBelow o e && !countBelow w e

/-- One firing: event on the compare rill stamped `t`, counter and latched time (R239); the firings of one sample coalesce at the rill. -/
def listFire (d : Device) (n t : Nat) : Device :=
  ((d.emit (80 + n) t).count (F.TRAn_LIST_FIRES.COUNT n)).setPair (R.TRAn_LIST_TIME_LO n) (R.TRAn_LIST_TIME_HI n) t

/-- The list disarms and sets LIST_DONE. -/
def listEnd (d : Device) (n : Nat) : Device := (d.setBit (F.TRAn_STATUS.LIST_ARMED n) false).raise (F.TRAn_FLAGS.LIST_DONE n)

/-- A write at device time `t` in ECLK cycle `cycle` is in the cycle of a hardware event, or later: `te` is the time of the cycle in which a
sample acts, none an event of the ECLK cycle that comes next. -/
def notBefore (d : Device) (t cycle : Nat) (te : Option Nat) : Bool :=
  match te with
  | some te => !stampBefore t te
  | none => t == d.nowNs && cycle == d.evt.cycle

/-- Entry `k` of the list as a test in the cycle `te` sees it: a write in that cycle takes effect from the next test (R239). -/
def listEntry (d : Device) (n k : Nat) (te : Option Nat) : Nat :=
  match (d.axis n).listOld.find? (fun e => e.entry == k && notBefore d e.t e.cycle te) with
  | some e => e.value
  | none => d.num (listAddr n k) 8

/-- List compare for a change of N from `o` to `w` at time `t`; each passed entry fires in list order, `k` bounds how many. -/
def listScan (n o w t : Nat) (te : Option Nat) : Nat → Device → Device
  | 0, d => d
  | k + 1, d =>
    if ¬ d.bit (F.TRAn_STATUS.LIST_ARMED n) then d
    else
      let p := d.get (F.TRAn_STATUS.LIST_PTR n)
      let e := listEntry d n p te
      if ¬ listPassed (d.bit (F.TRAn_LIST_CFG.DIR n)) (e % 2 ^ 48) o w then d
      else
        let d1 := listFire d n t
        if bitAt e 63 then listEnd d1 n
        else if p = (d.get (F.TRAn_LIST_CFG.START n) + d.get (F.TRAn_LIST_CFG.LEN_M1 n)) % 4096 then
          if d.bit (F.TRAn_LIST_CFG.WRAP n) then listScan n o w t te k (d1.set (F.TRAn_STATUS.LIST_PTR n) (d.get (F.TRAn_LIST_CFG.START n)))
          else listEnd d1 n
        else listScan n o w t te k (d1.set (F.TRAn_STATUS.LIST_PTR n) (p + 1))

/-- List compare over one change of N, made in the cycle `te`: no entry fires twice. -/
def listCompare (d : Device) (n o w t : Nat) (te : Option Nat) : Device :=
  if o = w then d else listScan n o w t te (d.get (F.TRAn_LIST_CFG.LEN_M1 n) + 1) d

/-! ## Writes of TRAn_CTRL (R240) -/

/-- The status that writes of CTRL change, as it is. -/
def ctlBefore (d : Device) (n : Nat) (c : AxisCtl) : AxisCtl :=
  { c with refArmed := d.bit (F.TRAn_STATUS.REF_ARMED n), listArmed := d.bit (F.TRAn_STATUS.LIST_ARMED n),
           ptr := d.get (F.TRAn_STATUS.LIST_PTR n), uncertain := d.bit (F.TRAn_STATUS.UNCERTAIN n) }

/-- The status before the writes `c`. -/
def ctlUndo (d : Device) (n : Nat) (c : AxisCtl) : Device :=
  (((d.setBit (F.TRAn_STATUS.REF_ARMED n) c.refArmed).setBit (F.TRAn_STATUS.LIST_ARMED n) c.listArmed).set
    (F.TRAn_STATUS.LIST_PTR n) c.ptr).setBit (F.TRAn_STATUS.UNCERTAIN n) c.uncertain

/-- What a write of CTRL does: arm the latch, arm the list from START or stop it, clear UNCERTAIN (R227, R238, R239). -/
def ctlApply (d : Device) (n : Nat) (refArm : Bool) (list : Option Bool) (clr : Bool) : Device :=
  let d1 := if refArm then d.setBit (F.TRAn_STATUS.REF_ARMED n) true else d
  let d2 := match list with
    | some true => (d1.set (F.TRAn_STATUS.LIST_PTR n) (d1.get (F.TRAn_LIST_CFG.START n))).setBit (F.TRAn_STATUS.LIST_ARMED n) true
    | some false => d1.setBit (F.TRAn_STATUS.LIST_ARMED n) false
    | none => d1
  if clr then d2.setBit (F.TRAn_STATUS.UNCERTAIN n) false else d2

/-- A hardware event `act` of axis `n` in the cycle `te`: writes of CTRL in the same cycle take effect after it (R240). -/
def beforeCtl (d : Device) (n : Nat) (te : Option Nat) (act : Device → Device) : Device :=
  match (d.axis n).ctl with
  | none => act d
  | some c =>
    if ¬ notBefore d c.t c.cycle te then act d
    else
      let d1 := act (ctlUndo d n c)
      ctlApply (d1.setAxis n { d1.axis n with ctl := some (ctlBefore d1 n c) }) n c.refArm c.list c.clr

/-- A write of CTRL: it takes effect, and is kept for a hardware event of its cycle that has still to come (R240). -/
def writeCtl (n : Nat) (refArm : Bool) (list : Option Bool) (clr : Bool) (d : Device) : Device :=
  let fresh := ctlBefore d n { t := d.nowNs, cycle := d.evt.cycle }
  let c := match (d.axis n).ctl with | some c => if c.t = d.nowNs ∧ c.cycle = d.evt.cycle then c else fresh | none => fresh
  let c1 := { c with refArm := c.refArm || refArm, list := if list.isSome then list else c.list, clr := c.clr || clr }
  ctlApply (d.setAxis n { d.axis n with ctl := some c1 }) n refArm list clr

/-! ## The reference latch (R238) -/

/-- The axis is the live transport source. -/
def sourceAxis (d : Device) (n : Nat) : Bool := d.bit F.TB_LINE_CFG.BELT && d.get F.TB_LINE_CFG.AXIS == n

/-- REF_VAL of an axis. -/
def refVal (d : Device) (n : Nat) : Nat := d.get (F.TRAn_REF_VAL.VAL_LO n) + 2 ^ 32 * d.get (F.TRAn_REF_VAL_HI.VAL_HI n)

/-- The observer state moved by `shift` units of 2^−16 counts (R238). -/
def shiftObs (shift : Int) (o : Observer) : Observer := { o with x0 := (wrapN 64 (o.x0 + shift) : Nat) }

/-- A reference edge at time `t`: latch and homing, which moves the states that an earlier instant may name with the newest one (R238). -/
def refLatch (d cfg : Device) (n t : Nat) : Device :=
  if ¬ d.bit (F.TRAn_STATUS.REF_ARMED n) then d
  else
    let x := d.axis n
    let d1 := (d.setPair (R.TRAn_REF_CNT_LO n) (R.TRAn_REF_CNT_HI n) x.n).setPair (R.TRAn_REF_TIME_LO n) (R.TRAn_REF_TIME_HI n) t
    let d2 := (d1.setBit (F.TRAn_STATUS.REF_ARMED n) false).raise (F.TRAn_FLAGS.REF_LATCH n)
    if ¬ cfg.bit (F.TRAn_REF.HOME n) then d2
    else if sourceAxis cfg n then d2.raise (F.TRAn_FLAGS.HOME_REJ n)
    else
      let v := refVal cfg n
      let shift := ((v : Int) - x.n) * 65536
      let d3 := d2.setAxis n { x with n := v, obs := shiftObs shift x.obs, past := x.past.map (shiftObs shift) }
      d3.setBit (F.TRAn_STATUS.UNCERTAIN n) false

/-- A reference edge in a sample of its own; homing is a change of N, which list compare then tests. -/
def refEdge (d cfg : Device) (n t : Nat) (te : Option Nat) : Device :=
  let d1 := refLatch d cfg n t
  listCompare d1 n (d.axis n).n (d1.axis n).n t te

/-- Steps 3 and 4 of one sample (R240), after steps 1 and 2 have taken N from `o` to what it is: the reference edge of the sample, if it has
one, then list compare of each change of N. -/
def sampleEnd (d cfg : Device) (n o t : Nat) (ref : Option Nat) (te : Option Nat) : Device :=
  let w := (d.axis n).n
  let d1 := match ref with | some tr => refLatch d cfg n tr | none => d
  let d2 := listCompare d1 n o w t te
  listCompare d2 n w (d1.axis n).n (ref.getD t) te

/-! ## Samples (R225, R241) -/

/-- The cycle in which an edge with the time `t` of its first sample is accepted: FILT samples later (R225). -/
def acceptedAt (cfg : Device) (n t : Nat) : Nat := (t + 2 * cfg.get (F.TRAn_CFG.FILT n)) % 2 ^ 64

/-- The polarity of an index edge is the one the axis selects as its reference. -/
def zSelected (cfg : Device) (n : Nat) (rising : Bool) : Bool :=
  cfg.bit (F.TRAn_CFG.EN n) && cfg.get (F.TRAn_REF.SRC n) == (if rising then 1 else 2)

/-- An axis at the trigger instant `tA` of an apply line: enabling or a change of TYPE starts the observer anew, with a change of NBITS or
GRAY too the next SSI frame sets N and a frame in progress is dropped, and TRAn_CLK takes its idle level (R232, R235, R241). -/
def axisRestart (old new : Device) (n tA : Nat) (x : Axis) : Axis :=
  let changed (f : Fld) : Bool := old.get f != new.get f
  let fresh := (new.bit (F.TRAn_CFG.EN n) && !old.bit (F.TRAn_CFG.EN n)) || changed (F.TRAn_CFG.TYPE n)
  let x1 := if fresh then { x with obs := { x.obs with started := false }, past := [], stillAt := none, uPrev := none, frame := none, initAt := some tA } else x
  let x2 := if changed (F.TRAn_SSI.NBITS n) || changed (F.TRAn_SSI.GRAY n) then { x1 with uPrev := none, frame := none } else x1
  { x2 with clk := if x2.frame.isSome then x2.clk else new.bit (F.TRAn_CFG.TYPE n) }

/-- A sample at or after the trigger instant of an armed apply line that comes before the line: the axis meets the apply at it (R241). -/
def axisCatch (d : Device) (n t : Nat) : Device :=
  let x := d.axis n
  let tA := tLine d d.slu.count
  if d.sluState ≠ sluArmed ∨ stampBefore t tA ∨ x.caught = some tA then d
  else d.setAxis n { axisRestart d d.withStaged n tA x with caught := some tA }

/-! ## Incremental decoding (R226 to R230) -/

/-- The step of Table 10.2 from (A, B) to (A′, B′). -/
def quadStep (a b a' b' : Bool) : Int :=
  if a = a' ∧ b = b' then 0
  else if a ≠ a' ∧ b ≠ b' then 0
  else if (a != a') == (a == b) then 1 else -1

/-- QERR_RATE: the window's count has exceeded QERR_MAX (R228). -/
def qerrRate (d : Device) (n : Nat) : Device := (d.raise (F.TRAn_FLAGS.QERR_RATE n)).fault faultQerrRate n

/-- Both tracks have changed in the sample at `t` (R227); the count of the second of `t` goes on or starts, and reports once (R228). -/
def qerrEvent (d cfg : Device) (n t : Nat) : Device :=
  let x := d.axis n
  let same := x.qerrWin == some (t / 1000000000)
  let k := (if same then x.qerrs else 0) + 1
  let hit := same && x.qerrHit
  let beyond := !hit && decide (cfg.get (F.TRAn_LIMITS.QERR_MAX n) < k)
  let d1 := d.setAxis n { x with qerrs := k, qerrWin := some (t / 1000000000), qerrHit := hit || beyond }
  let d2 := ((d1.count (F.TRAn_QERR.COUNT n)).setBit (F.TRAn_STATUS.UNCERTAIN n) true).raise (F.TRAn_FLAGS.QERR n)
  if beyond then qerrRate d2 n else d2

/-- Steps 1 and 2 of a sample with the accepted levels `a` and `b` (R226 to R230). -/
def quadSample (d0 cfg : Device) (n : Nat) (a b : Bool) (t : Nat) : Device :=
  let x := d0.axis n
  let d := d0.setAxis n { x with a := a, b := b }
  if ¬ cfg.bit (F.TRAn_CFG.EN n) ∨ cfg.bit (F.TRAn_CFG.TYPE n) then d
  else if x.a ≠ a ∧ x.b ≠ b then remeasureStill (qerrEvent d cfg n t) cfg n t
  else
    let s := (if cfg.bit (F.TRAn_CFG.REVERSE n) then -1 else 1) * quadStep x.a x.b a b
    if s = 0 then d
    else
      let neg := decide (s < 0)
      let w := wrapN 48 ((x.n : Int) + s)
      let d1 := ((d.setAxis n { d.axis n with n := w, lastNeg := some neg }).count (F.TRAn_EDGES.COUNT n)).setBit (F.TRAn_STATUS.DIR n) neg
      let d2 := d1.setBit (F.TRAn_STATUS.STILL n) false
      if x.lastNeg = some (!neg) then remeasureStill (d2.count (F.TRAn_REVERSALS.COUNT n)) cfg n t
      else measure d2 cfg n (65536 * (if neg then x.n else w)) t

/-- The accepted level of TRAn_Z after the edges of a sample. -/
def withZ (d : Device) (n : Nat) (z : Option Bool) : Device :=
  if z.isSome then d.setAxis n { d.axis n with z := z } else d

/-- An edge on TRAn_Z to the level `z` is one: the level is not the accepted one already. -/
def zNew (d : Device) (n : Nat) (z : Option Bool) : Option Bool := z.filter (fun l => (d.axis n).z != some l)

/-- ENCODER_EDGE: tracks A and B take new levels at `t` and hold them for `held` samples; a pulse shorter than FILT + 1 samples is ignored.
`z` is the edge on TRAn_Z that the same sample accepts, if there is one: rising or falling (R225, R240). While the Actuation region is in
reset the axis follows the levels alone (Table 22.2). -/
def encoderEdgeDev (n : Nat) (a b : Bool) (t held : Nat) (z : Option Bool) (d0 : Device) : Device :=
  let d := axisCatch d0 n t
  let cfg := d.asOfTime t
  let edge := zNew d n z
  if held ≤ cfg.get (F.TRAn_CFG.FILT n) then d0
  else if d0.resetting 5 then withZ (d0.setAxis n { d0.axis n with a := a, b := b }) n edge
  else
    let d1 := withZ d n edge
    beforeCtl d1 n (some (acceptedAt cfg n t)) (fun d1 =>
      sampleEnd (quadSample d1 cfg n a b t) cfg n (d1.axis n).n t (if edge.any (zSelected cfg n) then some t else none) (some (acceptedAt cfg n t)))

/-- Z_EDGE: an edge on TRAn_Z at time `t` that holds for `held` samples, in a sample without an edge on A or B (R225, R238).  A level that
does not hold long enough is not accepted, so that the edge back to the accepted one is none. -/
def zEdgeDev (n : Nat) (rising : Bool) (t held : Nat) (d0 : Device) : Device :=
  let d := axisCatch d0 n t
  let cfg := d.asOfTime t
  if held ≤ cfg.get (F.TRAn_CFG.FILT n) then withZ d0 n (if (d0.axis n).z.isNone then some (!rising) else none)
  else
    let edge := zNew d n (some rising)
    let d1 := withZ d n edge
    if edge.isNone ∨ ¬ zSelected cfg n rising ∨ d0.resetting 5 then withZ d0 n edge
    else beforeCtl d1 n (some (acceptedAt cfg n t)) (fun d1 => refEdge d1 cfg n t (some (acceptedAt cfg n t)))

/-- QERR_WINDOW_END: the second whose window counts ends; a count above QERR_MAX that has not been reported is (R228). -/
def qerrWindowDev (n : Nat) (d : Device) : Device :=
  let x := d.axis n
  match x.qerrWin with
  | none => d
  | some w =>
    let d1 := (d.elapseTo ((w + 1) * 1000000000)).setAxis n { x with qerrs := 0, qerrWin := none, qerrHit := false }
    if ¬ x.qerrHit ∧ (d.asOfTime ((w + 1) * 1000000000)).get (F.TRAn_LIMITS.QERR_MAX n) < x.qerrs then qerrRate d1 n else d1

/-! ## SSI decoding (R231, R232) -/

/-- Binary value of a Gray code of `n` bits. -/
def grayToBin : Nat → Nat → Nat
  | 0, _ => 0
  | n + 1, g => (if (List.range (n + 1)).foldl (fun p k => p != bitAt g (n - k)) false then 1 else 0) + 2 * grayToBin n (g / 2)

/-- SSI_FRAME_START: the first falling clock edge. -/
def ssiStartDev (n : Nat) (dataHigh : Bool) (t : Nat) (d0 : Device) : Device :=
  let d := axisCatch d0 n t
  let cfg := d.asOfTime t
  if cfg.bit (F.TRAn_CFG.EN n) ∧ cfg.bit (F.TRAn_CFG.TYPE n) ∧ ¬ d0.resetting 5 then
    d.setAxis n { d.axis n with frame := some { t := t, dataHigh := dataHigh }, clk := false }
  else d0

/-- Steps 1 and 2 of the sample in which the frame `f` ends with the NBITS bits `bits` (R231, R232); the clock idles high again. -/
def ssiSample (d cfg : Device) (n bits : Nat) (f : SsiFrame) : Device :=
  let x := d.axis n
  let d0 := d.setAxis n { x with frame := none, clk := cfg.bit (F.TRAn_CFG.TYPE n) }
  if ¬ f.dataHigh then (d0.count (F.TRAn_SSI_ERR.COUNT n)).raise (F.TRAn_FLAGS.SSI_ERR n)
  else
    let nb := cfg.get (F.TRAn_SSI.NBITS n)
    let raw := bits % 2 ^ nb
    let u := if cfg.bit (F.TRAn_SSI.GRAY n) then grayToBin nb raw else raw
    let jump := cfg.get (F.TRAn_SSI_LAT.JUMP_MAX n)
    let step : Int := match x.uPrev with | none => 0 | some p => sx nb (wrapN nb ((u : Int) - p))
    if x.uPrev.isSome ∧ jump ≠ 0 ∧ jump < step.natAbs then
      ((d0.setAxis n { d0.axis n with uPrev := some u }).count (F.TRAn_SSI_JUMP.COUNT n)).raise (F.TRAn_FLAGS.SSI_JUMP n)
    else
      let w := if x.uPrev.isNone then u else wrapN 48 ((x.n : Int) + step)
      let t := (f.t + cfg.get (F.TRAn_SSI_LAT.LATCH_NS n)) % 2 ^ 64
      let d1 := (d0.setAxis n { d0.axis n with n := w, uPrev := some u, lastNeg := if step = 0 then x.lastNeg else some (decide (step < 0)) }).count
        (F.TRAn_EDGES.COUNT n)
      let d2 := (if step = 0 then d1 else d1.setBit (F.TRAn_STATUS.DIR n) (decide (step < 0))).setBit (F.TRAn_STATUS.STILL n) false
      measure d2 cfg n (65536 * w + 32768) t

/-- SSI_FRAME_DONE: the NBITS data bits have been read, the last at the NBITS-th rising edge; `z` is the edge on TRAn_Z that the same sample
accepts, if there is one: its polarity and its time (R240). -/
def ssiDoneDev (n bits : Nat) (z : Option (Bool × Nat)) (d : Device) : Device :=
  match (d.axis n).frame with
  | none => d
  | some f =>
    let cfg := d.asOfTime f.t
    let te := (f.t + 4 * cfg.get (F.TRAn_SSI.DIV n) * cfg.get (F.TRAn_SSI.NBITS n)) % 2 ^ 64
    let edge := z.filter (fun e => (d.axis n).z != some e.1)
    beforeCtl (withZ d n (edge.map Prod.fst)) n (some te) (fun d =>
      sampleEnd (ssiSample d cfg n bits f) cfg n (d.axis n).n f.t ((edge.filter (fun e => zSelected cfg n e.1)).map Prod.snd) (some te))

/-- STANDSTILL_MEAS: STILL µs after the last update without a measurement (R235). -/
def standstillDev (n : Nat) (d0 : Device) : Device :=
  let due (cfg : Device) : Nat := ((d0.axis n).obs.tu + 1000 * cfg.get (F.TRAn_LIMITS.STILL n)) % 2 ^ 64
  let cfg := d0.asOfTime (due (d0.asOfTime d0.nowNs))
  let t := due cfg
  let d := axisCatch d0 n t
  let x := d.axis n
  if ¬ cfg.bit (F.TRAn_CFG.EN n) ∨ cfg.get (F.TRAn_LIMITS.STILL n) = 0 ∨ ¬ x.obs.started ∨ d0.resetting 5 then d0
  else (measure (d.elapseTo t) cfg n (65536 * x.n + 32768) t true).setBit (F.TRAn_STATUS.STILL n) true

/-! ## Control (R238, R239, R227) -/

def refArmDev (n : Nat) (d : Device) : Device := writeCtl n true none false d
def listArmDev (n : Nat) (d : Device) : Device := writeCtl n false (some true) false d
def listStopDev (n : Nat) (d : Device) : Device := writeCtl n false (some false) false d
def clrUncertDev (n : Nat) (d : Device) : Device := writeCtl n false none true d

/-- AXIS_SNAPSHOT_READ: a read of TRAn_COUNT_LO captures N, a read of TRAn_POS_LO the observer states (Table 10.7). -/
def axisSnapshotDev (n : Nat) (pos : Bool) (d : Device) : Device :=
  let x := d.axis n
  if pos then
    (((d.setPair (R.TRAn_POS_LO n) (R.TRAn_POS_HI n) (wrapN 64 x.obs.x0)).setPair (R.TRAn_SPEED_LO n) (R.TRAn_SPEED_HI n)
      (wrapN 64 x.obs.x1)).setPair (R.TRAn_ACC_LO n) (R.TRAn_ACC_HI n) (wrapN 64 x.obs.x2)).setPair (R.TRAn_TUPD_LO n) (R.TRAn_TUPD_HI n) x.obs.tu
  else d.setPair (R.TRAn_COUNT_LO n) (R.TRAn_COUNT_HI n) x.n

/-! ## Apply (R241) -/

/-- Axis `n` after a reset of its region: the observer starts anew, a frame in progress is dropped, the clock idles (R235, Table 22.3). -/
def axisReset (d : Device) (n : Nat) : Device :=
  let x := d.axis n
  d.setAxis n { x with obs := { x.obs with started := false }, past := [], stillAt := none, uPrev := none, frame := none,
                       clk := d.bit (F.TRAn_CFG.TYPE n) }

/-- Axes at an apply, which an early sample may already have met. -/
def axesApply (old new : Device) : Device :=
  let tA := match new.slu.old with | some o => o.t | none => new.nowNs
  (List.range 4).foldl (fun d n =>
    let x := d.axis n
    d.setAxis n (if x.caught = some tA then { x with caught := none } else axisRestart old d n tA x)) new

/-! ## Meanings -/

def execEncoderEdge (n : Fin 4) (a b : Bool) (t held : Nat) (z : Option Bool) (s : State) : Outcome :=
  s.done (encoderEdgeDev n a b t held z s.dev)
def execZEdge (n : Fin 4) (rising : Bool) (t held : Nat) (s : State) : Outcome := s.done (zEdgeDev n rising t held s.dev)
def execQerrWindowEnd (n : Fin 4) (s : State) : Outcome := s.done (qerrWindowDev n s.dev)
def execSsiFrameStart (n : Fin 4) (dataHigh : Bool) (t : Nat) (s : State) : Outcome := s.done (ssiStartDev n dataHigh t s.dev)
def execSsiFrameDone (n : Fin 4) (bits : Nat) (z : Option (Bool × Nat)) (s : State) : Outcome := s.done (ssiDoneDev n bits z s.dev)
def execStandstillMeas (n : Fin 4) (s : State) : Outcome := s.done (standstillDev n s.dev)
def execRefArm (n : Fin 4) (s : State) : Outcome := s.done (regAccess (R.TRAn_CTRL n) true (refArmDev n) s.dev)
def execListArm (n : Fin 4) (s : State) : Outcome := s.done (regAccess (R.TRAn_CTRL n) true (listArmDev n) s.dev)
def execListStop (n : Fin 4) (s : State) : Outcome := s.done (regAccess (R.TRAn_CTRL n) true (listStopDev n) s.dev)
def execClrUncert (n : Fin 4) (s : State) : Outcome := s.done (regAccess (R.TRAn_CTRL n) true (clrUncertDev n) s.dev)
def execAxisSnapshotRead (n : Fin 4) (pos : Bool) (s : State) : Outcome := s.done (regAccess (R.TRAn_COUNT_LO n) false (axisSnapshotDev n pos) s.dev)

end Sys2Proof.Machine
end

