-- ==== Sys2Proof/Machine/Accept.lean ====
section
/-! DEFINITION. Pixel formats and the waiting lines (R62, R14, R66, R86): what a camera port and the correction pipes share. -/

namespace Sys2Proof.Machine

/-! ## Pixel formats (Table 3.3) -/

/-- DEPTH in bits of a PIXFMT code, if it is assigned. -/
def depthOf (pixfmt : Nat) : Option Nat :=
  match bitsOf pixfmt 2 0 with
  | 0 => some 8 | 1 => some 10 | 2 => some 12 | 3 => some 14 | 4 => some 16 | _ => none

/-- CONTAINER of a PIXFMT code. -/
def containerOf (pixfmt : Nat) : Bool := bitAt pixfmt 4

/-- SAMPLES of a LAYOUT code. -/
def samplesOf (layout : Nat) : Nat := bitsOf layout 3 0

/-- ARRANGE of a LAYOUT code. -/
def arrangeOf (layout : Nat) : Nat := bitsOf layout 7 4

/-- PIXFMT and LAYOUT use only assigned codes and the combinations Table 3.3 allows. -/
def formatOk (pixfmt layout : Nat) : Bool :=
  (depthOf pixfmt).isSome && bitsOf pixfmt 7 5 == 0 && !bitAt pixfmt 3 && !(containerOf pixfmt && depthOf pixfmt == some 16)
    && decide (arrangeOf layout ≤ 2) && decide (1 ≤ samplesOf layout ∧ samplesOf layout ≤ 8)
    && (arrangeOf layout != 2 || samplesOf layout == 2)

/-- PAYLOAD_LEN of a line of `pixels` positions (R62). -/
def payloadLen (pixels pixfmt layout : Nat) : Nat :=
  let n := pixels * samplesOf layout
  if containerOf pixfmt then ceilDiv n 2 * 4 else ceilDiv (n * (depthOf pixfmt).getD 0) 32 * 4

/-! ## Contexts (R85, R86) -/

/-- The fields of CXn_FMT. -/
def ctxPixels (d : Device) (c : Nat) : Nat := d.get (F.CXn_FMT.PIXELS c)
def ctxPixfmt (d : Device) (c : Nat) : Nat := d.get (F.CXn_FMT.PIXFMT c)
def ctxLayout (d : Device) (c : Nat) : Nat := d.get (F.CXn_FMT.LAYOUT c)

/-- The context is a two-row mosaic. -/
def ctxMosaic (d : Device) (c : Nat) : Bool := arrangeOf (ctxLayout d c) == 2

/-- NB_IN (R86). -/
def nbIn (d : Device) (c : Nat) : Nat := if ctxMosaic d c then 3 else samplesOf (ctxLayout d c)

/-- NB_OUT (R86). -/
def nbOut (d : Device) (c : Nat) : Nat := let n := d.get (F.CXn_CFG.NB_OUT c); if n = 0 then nbIn d c else n

/-- Context of head `h` of port `p` under CPn_HEAD_MAP. -/
def headCtx (d : Device) (p h : Nat) : Nat := bitsOf (d.rd (R.CPn_HEAD_MAP p)).toNat (8 * h + 5) (8 * h)

/-- Head `h` of port `p` is enabled. -/
def headEn (d : Device) (p h : Nat) : Bool := bitAt (d.get (F.CPn_CFG.HEAD_EN p)) h

/-- Every head of the device: port and head. -/
def allHeads : List (Nat × Nat) := (List.range 48).map (fun k => (k / 4, k % 4))

/-- The enabled heads. -/
def enabledHeads (d : Device) : List (Nat × Nat) := allHeads.filter (fun x => headEn d x.1 x.2)

/-- A context is live when an enabled head maps it (R85). -/
def ctxLive (d : Device) (c : Nat) : Bool := decide (c < 48) && (enabledHeads d).any (fun x => headCtx d x.1 x.2 == c)

/-! ## Waiting lines (R68, R89) -/

/-- PIPE_WAIT follows the waiting lines; PIPE_WAIT_HWM keeps their largest number.  R91 does not say what the 8-bit fields hold when
more than 255 lines wait: they saturate (DESIGN CHOICE, log entry "PIPE_WAIT above 255"). -/
def showWaiting (d : Device) : Device :=
  let n := Nat.min 255 d.pipes.waiting.length
  (d.set F.PIPE_WAIT.LINES n).set F.PIPE_WAIT_HWM.LINES (if d.get F.PIPE_WAIT_HWM.LINES < n then n else d.get F.PIPE_WAIT_HWM.LINES)

/-- A line accepted whole becomes waiting. -/
def offerLine (d : Device) (l : CamLine) : Device := showWaiting { d with pipes := { d.pipes with waiting := d.pipes.waiting ++ [l] } }

/-- Bytes of packets enter a port's ingress buffer: the occupancy and its high-water mark. -/
def ingressHigh (d : Device) (p n : Nat) : Device :=
  d.set (F.CPn_BUF_HWM.BYTES p) (if d.get (F.CPn_BUF_HWM.BYTES p) < n then n else d.get (F.CPn_BUF_HWM.BYTES p))

end Sys2Proof.Machine
end

