-- ==== Sys2Proof/Machine/GeoMap.lean ====
section
/-! DEFINITION. The pixel map of a context (R127 to R132) and its line delays (R135, R136). `d` holds the configuration in force. -/

namespace Sys2Proof.Machine

/-- A map coefficient, s32. -/
def mapCoef (d : Device) (r : Nat) : Int := sx 32 (d.rd r).toNat

/-- Residual of map index `j`, 0 when RESID_EN = 0 (R128). -/
def residual (d : Device) (n j : Nat) : Int :=
  if d.bit (F.GEO_Cn_CFG.RESID_EN n) then sx 8 (d.tab (0x31080000 + n * 0x2000 + j)).toNat else 0

/-- Grid coordinate of map index `j` in units of 2^-16 cell (R128). -/
def mapX (d : Device) (n j : Nat) : Int :=
  let t : Int := 64 * j + residual d n j
  let acc := mapCoef d (R.GEO_Cn_C0 n) * 2 ^ 54 + mapCoef d (R.GEO_Cn_C1 n) * t * 2 ^ 36
    + mapCoef d (R.GEO_Cn_C2 n) * t ^ 2 * 2 ^ 18 + mapCoef d (R.GEO_Cn_C3 n) * t ^ 3
  clampI (-(2 ^ 31)) (2 ^ 31 - 1) (rneShift acc 54)

/-- Map index of pixel position `i` (R129); the same function takes a map index back to its position. -/
def mapIndex (d : Device) (n i : Nat) : Nat := if d.bit (F.GEO_Cn_CFG.FLIP n) then ctxPixels d n - 1 - i else i

/-- Cell of pixel position `i` (R130). -/
def cellOf (d : Device) (n i : Nat) : Int := rneShift (mapX d n (mapIndex d n i)) 16

/-- Cell `c` is covered by context `n` (R131). -/
def covered (d : Device) (n c : Nat) : Bool :=
  let p := ctxPixels d n
  p != 0 && decide (mapX d n 0 ≤ (c * 65536 : Nat)) && decide ((c * 65536 : Nat) ≤ mapX d n (p - 1))

/-- The largest index from `lo` to `hi` whose coordinate is at most `t`, given that `lo`'s is. -/
def searchMap (d : Device) (n : Nat) (t : Int) : Nat → Nat → Nat → Nat
  | 0, lo, _ => lo
  | f + 1, lo, hi =>
    if hi ≤ lo then lo
    else
      let m := (lo + hi + 1) / 2
      if mapX d n m ≤ t then searchMap d n t f m hi else searchMap d n t f lo (m - 1)

/-- Source position (j, F) of a covered cell (R132). -/
def sourcePos (d : Device) (n c : Nat) : Nat × Nat :=
  let p := ctxPixels d n
  let t : Int := (c * 65536 : Nat)
  let j := searchMap d n t 14 0 (p - 1)
  if j = p - 1 then (j, 0)
  else
    let f := (rneDiv (256 * (t - mapX d n j)) (mapX d n (j + 1) - mapX d n j).toNat).toNat
    if f = 256 then (j + 1, 0) else (j, f)

/-- View band of output band `b` (0xF: none). -/
def viewBand (d : Device) (n b : Nat) : Nat := bitsOf (d.rd (R.GEO_Cn_BAND n)).toNat (4 * b + 3) (4 * b)

/-- Line delay LD[b]. -/
def lineDelay (d : Device) (n b : Nat) : Nat := bitsOf (d.rd (R.GEO_Cn_DELAY n)).toNat (4 * b + 3) (4 * b)

/-- Line delay of sample stream `s` for the background mask (R136). -/
def streamDelay (d : Device) (n s : Nat) : Nat :=
  if ctxMosaic d n then lineDelay d n 1 else if s < nbOut d n then lineDelay d n s else lineDelay d n 0

/-- View of an assigned context. -/
def ctxView (d : Device) (n : Nat) : Option Nat :=
  if d.bit (F.GEO_Cn_CFG.VIEW_EN n) then some (d.get (F.GEO_Cn_CFG.VIEW n)) else none

def viewWidth (d : Device) (v : Nat) : Nat := d.get (F.GEO_Vv_CFG.WIDTH v)
def viewBands (d : Device) (v : Nat) : Nat := d.get (F.GEO_Vv_CFG.NB_M1 v) + 1
def viewSegs (d : Device) (v : Nat) : Nat := d.get (F.GEO_Vv_CFG.NSEG_M1 v) + 1

/-- GEO_Cn_COVER under the live map: least and greatest covered cell from 0 to 32,767. -/
def coverOf (d : Device) (n : Nat) : Nat × Nat :=
  let p := ctxPixels d n
  if p = 0 then (0xFFFF, 0xFFFF)
  else
    let lo : Int := -((-(mapX d n 0)) / 65536)
    let hi : Int := mapX d n (p - 1) / 65536
    let a := clampI 0 65535 lo
    let b := clampI (-1) 32767 hi
    if a ≤ b then (a.toNat, b.toNat) else (0xFFFF, 0xFFFF)

end Sys2Proof.Machine
end

