-- ==== Sys2Proof/Machine/PairOps.lean ====
section
/-! DEFINITION. The pair state (Table 21.1), and what the active unit of a pair hands to the state copy (R437, R438). -/

namespace Sys2Proof.Machine

/-- States of PAIR_STATUS.STATE. -/
def pairOff : Nat := 0
def pairJoin : Nat := 1
def pairPassive : Nat := 2
def pairActive : Nat := 3
def pairFailed : Nat := 4

def Device.pairState (d : Device) : Nat := d.get F.PAIR_STATUS.STATE

def Device.withPair (d : Device) (p : Pair) : Device := { d with pr := p }

/-- An item that the active unit of a pair produces waits for the state copy at the next first line of a cycle; `a` is its apply line. -/
def pushItem (d : Device) (a : Int) (b : ItemBody) : Device :=
  if d.bit F.PAIR_CFG.EN ∧ d.pairState = pairActive then d.withPair { d.pr with outbox := d.pr.outbox ++ [(a, b)] } else d

/-- A joining unit leaves line `l` out: it processes lines from the sync line S on (R440). -/
def joinSkips (d : Device) (l : Int) : Bool :=
  d.pairState == pairJoin && match d.pr.sync with | some s => decide (l < s) | none => true

/-- Count of the first line of the sort cycle with index `c` nearest to the current line. -/
def firstOfCycle (d : Device) (c : Nat) : Int := d.countOf (c * 2 ^ cycleLog2 d)

/-- Count of the first line of the sort cycle that holds the line of count `l`, and of the cycle `k` cycles after it. -/
def cycleStart (d : Device) (l : Int) (k : Nat := 0) : Int := let n : Int := 2 ^ cycleLog2 d; (l / n + k) * n

end Sys2Proof.Machine
end

