-- ==== Sys2Proof/Machine/Stages.lean ====
section
/-! DEFINITION. The stages of a correction pipe (R92 to R102): what one line of one context becomes. `d` holds the configuration that
governs the line. -/

namespace Sys2Proof.Machine

/-! ## Unpack (R62, R93) -/

/-- Sample `k` of a payload in the order it is sent (R62). -/
def rawSample (payload : Array Byte) (pixfmt k : Nat) : Nat :=
  let n := (depthOf pixfmt).getD 0
  let at' (i : Nat) : Nat := (payload.getD i 0).toNat
  if containerOf pixfmt then (at' (2 * k) + 256 * at' (2 * k + 1)) % 2 ^ n
  else
    let o := k * n
    ((at' (o / 8) + 256 * at' (o / 8 + 1) + 65536 * at' (o / 8 + 2)) >>> (o % 8)) % 2 ^ n

/-- Place in the payload of raw sample s of position i (Table 3.3). -/
def sampleIndex (arrange samples pixels s i : Nat) : Nat := if arrange = 0 then i * samples + s else s * pixels + i

/-- The raw streams of a line, pedestal removed and left-aligned (R93). -/
def unpackLine (d : Device) (c : Nat) (payload : List Byte) : List (List Nat) :=
  let p := payload.toArray
  let n := (depthOf (ctxPixfmt d c)).getD 0
  let lay := ctxLayout d c
  let ped := d.get (F.CXn_PED.PED c)
  (List.range (samplesOf lay)).map (fun s => (List.range (ctxPixels d c)).map (fun i =>
    (rawSample p (ctxPixfmt d c) (sampleIndex (arrangeOf lay) (samplesOf lay) (ctxPixels d c) s i) - ped) * 2 ^ (16 - n)))

/-! ## Defect substitution (R94) -/

/-- Position `i` is marked in the context's defect map. -/
def defectAt (d : Device) (c i : Nat) : Bool := bitAt (d.tab (0x20100C00 + c * 0x1000 + i / 8)).toNat (i % 8)

/-- The replacement of a marked sample, none where no neighbour is usable. -/
def substitute (a b : Option Nat) : Option Nat :=
  match a, b with
  | some a, some b =>
    let t := a + b
    let m := t / 2
    some (if t % 2 = 1 ∧ m % 2 = 1 then m + 1 else m)
  | some a, none => some a
  | none, some b => some b
  | none, none => none

/-- One stream after substitution, and how many marked samples had no usable neighbour. -/
def defectStream (d : Device) (c : Nat) (xs : List Nat) : List Nat × Nat :=
  let arr := xs.toArray
  let n := xs.length
  let step := if ctxMosaic d c then 2 else 1
  let usable (i : Nat) : Option Nat := if i < n ∧ ¬ defectAt d c i then some (arr.getD i 0) else none
  let out := (List.range n).map (fun i =>
    let x := arr.getD i 0
    if ¬ defectAt d c i then (x, 0)
    else match substitute (if step ≤ i then usable (i - step) else none) (usable (i + step)) with
      | some m => (m, 0)
      | none => (x, 1))
  (out.map Prod.fst, (out.map Prod.snd).sum)

/-! ## Clamps (R8, R102) -/

/-- A result limited to u16, and 1 where it was clamped. -/
def clampU16 (x : Int) : Nat × Nat := if x < 0 then (0, 1) else if 65535 < x then (65535, 1) else (x.toNat, 0)

/-- The values of a stage, and how many of them were clamped. -/
def clampAll (xs : List Int) : List Nat × Nat := let r := xs.map clampU16; (r.map Prod.fst, (r.map Prod.snd).sum)

/-- Streams of a stage, and how many of their values were clamped. -/
def clampStreams (xs : List (List Int)) : List (List Nat) × Nat :=
  let r := xs.map clampAll
  (r.map Prod.fst, (r.map Prod.snd).sum)

/-! ## Crosstalk (R95) -/

/-- Exact results of the crosstalk stage of one stream. -/
def crosstalk (a b : Int) (xs : List Nat) : List Int :=
  let left := (xs.take 1 ++ xs).take xs.length
  let right := xs.drop 1 ++ xs.drop (xs.length - 1)
  (xs.zip (left.zip right)).map (fun (x, l, r) => rneShift ((x : Int) * 2 ^ 15 - a * l - b * r) 15)

/-! ## Green imbalance and the mosaic (R96, R99) -/

/-- Colour at a phase: 0 red, 1 green, 2 blue (R96). -/
def mosaicAt (d : Device) (c row i : Nat) : Nat :=
  if row = 0 then (if i % 2 = 0 then d.get (F.CXn_CFG.MOSAIC_R0E c) else d.get (F.CXn_CFG.MOSAIC_R0O c))
  else if i % 2 = 0 then d.get (F.CXn_CFG.MOSAIC_R1E c) else d.get (F.CXn_CFG.MOSAIC_R1O c)

/-- Exact result of the green imbalance stage for one Gb sample. -/
def greenBalance (d : Device) (c y : Nat) : Int :=
  rneShift ((y : Int) * d.get (F.CXn_GI.GI_SCALE c)) 15 + d.getI (F.CXn_GI.GI_OFFSET c)

/-- Row 1 after the green imbalance stage. -/
def balanceRow (d : Device) (c : Nat) (row1 : List Nat) : List Nat × Nat :=
  let r := (row1.zip (List.range row1.length)).map (fun (y, i) =>
    if mosaicAt d c 1 i = 1 then clampU16 (greenBalance d c y) else (y, 0))
  (r.map Prod.fst, (r.map Prod.snd).sum)

/-- Every column holds one green sample, as R99 takes it. R96 alone also admits patterns whose two greens share a column. -/
def staggered (d : Device) (c : Nat) : Bool := (mosaicAt d c 0 0 == 1) != (mosaicAt d c 1 0 == 1)

/-- Exact values of colour `col` (0 or 2) and of green over the line: the samples that hold them, and R99 between. -/
def demosaic (d : Device) (c : Nat) (row0 row1 : List Nat) (col : Nat) : List Int :=
  let a0 := row0.toArray
  let a1 := row1.toArray
  let n := row0.length
  let green (i : Nat) : Int := if mosaicAt d c 0 i = 1 then a0.getD i 0 else a1.getD i 0
  let other (i : Nat) : Int := if mosaicAt d c 0 i = 1 then a1.getD i 0 else a0.getD i 0
  let has (i : Nat) : Bool := (if mosaicAt d c 0 i = 1 then mosaicAt d c 1 i else mosaicAt d c 0 i) == col
  (List.range n).map (fun i =>
    if col = 1 then green i
    else if has i then other i
    else
      let l := if i = 0 then 1 else i - 1
      let r := if i + 1 = n then n - 2 else i + 1
      green i + rneDiv ((other l - green l) + (other r - green r)) 2)

/-! ## Linearisation and matrix (R100, R101) -/

/-- LUT slot of band `b`. -/
def lutSlot (d : Device) (c b : Nat) : Nat := bitsOf (d.rd (if b < 4 then R.CXn_LIN0 c else R.CXn_LIN1 c)).toNat (8 * (b % 4) + 4) (8 * (b % 4))

/-- Entry `k` of LUT slot `t`; Q[1024] is 65,536. -/
def lutAt (d : Device) (t k : Nat) : Nat := if k = 1024 then 65536 else d.tabNum (0x20204000 + t * 0x800 + 2 * k) 2

/-- Exact linearised value of `z`. -/
def linearise (d : Device) (t z : Nat) : Int :=
  let k := z / 64
  let q : Int := lutAt d t k
  q + rneDiv (((lutAt d t (k + 1) : Int) - q) * (z % 64 : Nat)) 64

/-- Coefficient M[o][b], s3.12. -/
def matCoef (d : Device) (c o b : Nat) : Int :=
  if b % 2 = 0 then d.getI (F.CXn_MATo_k.M_EVEN c o (b / 2)) else d.getI (F.CXn_MATo_k.M_ODD c o (b / 2))

/-- Exact values of output band `o` at every position. -/
def matrixBand (d : Device) (c o : Nat) (bands : List (List Nat)) (n : Nat) : List Int :=
  let zero : List Int := List.replicate n 0
  let acc := (bands.zip (List.range bands.length)).foldl (fun (acc : List Int) (w, b) =>
    acc.zipWith (fun (a : Int) (x : Nat) => a + matCoef d c o b * x) w) zero
  acc.map (fun a => rneShift a 12)

/-! ## A whole line -/

/-- What a pipe makes of one line: the streams after defect substitution, the input of the dark-and-gain stage, the output bands, the
clamped results and the marked samples without a usable neighbour. -/
structure Corrected where
  afterDefect : List (List Nat)
  gainIn : List (List Nat)
  out : List (List Nat)
  clips : Nat
  unresolved : Nat
deriving DecidableEq, Repr

/-- Stages 1 to 4. -/
def frontStages (d : Device) (c : Nat) (payload : List Byte) : Corrected :=
  let x := unpackLine d c payload
  let ds := if d.bit (F.CXn_CFG.DEFECT_EN c) then x.map (defectStream d c) else x.map (fun s => (s, 0))
  let x1 := ds.map Prod.fst
  let (x2, k2) := if d.bit (F.CXn_CFG.XT_EN c) then
      clampStreams ((x1.zip (List.range x1.length)).map (fun (s, i) =>
        crosstalk (d.getI (F.CXn_XTALKs.XT_A c i)) (d.getI (F.CXn_XTALKs.XT_B c i)) s))
    else (x1, 0)
  let (x3, k3) := if d.bit (F.CXn_CFG.GI_EN c) ∧ ctxMosaic d c then
      let (r, k) := balanceRow d c (x2.getD 1 [])
      ([x2.getD 0 [], r], k)
    else (x2, 0)
  { afterDefect := x1, gainIn := x3, out := [], clips := k2 + k3, unresolved := (ds.map Prod.snd).sum }

/-- Stage 5 (R97): `entry e` is the correction table entry that governs the line. -/
def darkGain (d : Device) (c : Nat) (entry : Nat → Nat) (v : List (List Nat)) : List (List Nat) × Nat :=
  let base := d.get (F.CXn_TBL.TBL_BASE c)
  let nb := nbIn d c
  clampStreams ((v.zip (List.range v.length)).map (fun (s, k) => (s.zip (List.range s.length)).map (fun (x, i) =>
    let e := entry (base + i * nb + k)
    rneShift (((x : Int) - sx 16 e) * (e / 65536 : Nat)) 14)))

/-- Stage 6: the NB_IN bands. In a mosaic whose two greens share a column, which R99 does not cover, the bands are free values. -/
def bandsOf (d : Device) (c : Nat) (z : List (List Nat)) : List (List Nat) × Nat :=
  if ctxMosaic d c then
    if staggered d c then
      clampStreams ((List.range 3).map (fun col => demosaic d c (z.getD 0 []) (z.getD 1 []) col))
    else ((List.range 3).map (fun b => (List.range (ctxPixels d c)).map (fun i => Config.free d.fresh (8 * i + b + 1) % 65536)), 0)
  else (z, 0)

/-- Stages 7 to 9. -/
def backStages (d : Device) (c : Nat) (w : List (List Nat)) : List (List Nat) × Nat :=
  let (l, k1) := clampStreams ((w.zip (List.range w.length)).map (fun (s, b) =>
    let t := lutSlot d c b
    if t = 0x1F then s.map Int.ofNat else s.map (linearise d t)))
  if d.bit (F.CXn_CFG.MATRIX_EN c) then
    let (o, k2) := clampStreams ((List.range (nbOut d c)).map (fun o => matrixBand d c o l (ctxPixels d c)))
    (o, k1 + k2)
  else (l, k1)

/-- A line through all stages (R92). -/
def correctLine (d : Device) (c : Nat) (entry : Nat → Nat) (payload : List Byte) : Corrected :=
  let f := frontStages d c payload
  let (z, k5) := darkGain d c entry f.gainIn
  let (w, k6) := bandsOf d c z
  let (o, k7) := backStages d c w
  { f with out := o, clips := f.clips + k5 + k6 + k7 }

/-! ## Statistics (R103) -/

/-- One value into a band's statistics; counts and sums saturate (R9). -/
def statValue (b : StatBand) (v : Nat) : StatBand :=
  let df : Nat → Nat := fun _ => 0
  { hist := Sparse.put df (v / 256) (capN 0xFFFFFFFF (Sparse.get df (v / 256) b.hist + 1)) b.hist,
    sum := capN (2 ^ 48 - 1) (b.sum + v), min := if v < b.min then v else b.min, max := if b.max < v then v else b.max }

/-- One line into a block. -/
def statLine (b : StatBlock) (streams : List (List Nat)) : StatBlock :=
  let bands := if b.bands.isEmpty then streams.map (fun _ => ({} : StatBand)) else b.bands
  { b with lines := capN 0xFFFFFFFF (b.lines + 1), bands := bands.zipWith (fun sb s => s.foldl statValue sb) streams }

end Sys2Proof.Machine
end

