-- ==== Sys2Proof/Machine/Calib.lean ====
section
/-! DEFINITION. Gap calibration (05_gap_calibration.md): the DRAM area, the temperature sets and their interpolation, runs, and the
commit to MRAM. -/

namespace Sys2Proof.Machine

def Device.calCtx (d : Device) (c : Nat) : CalCtx := unit d.cal.ctx c
def Device.setCalCtx (d : Device) (c : Nat) (x : CalCtx) : Device := { d with cal := { d.cal with ctx := withUnit d.cal.ctx c x } }
def Device.setRun (d : Device) (r : Option CalRun) : Device := { d with cal := { d.cal with run := r } }

/-- States of CAL_STATUS.STATE. -/
def csIdle : Nat := 0
def csWaitStart : Nat := 1
def csAccum : Nat := 2
def csCompute : Nat := 3
def csApplyWait : Nat := 4

def Device.calState (d : Device) : Nat := d.get F.CAL_STATUS.STATE
def Device.calCtxNo (d : Device) : Nat := d.get F.CAL_STATUS.CTX

/-! ## The DRAM calibration area (Table 5.1) and the live table (R97, R98) -/

/-- Base of the area: CAL_DRAM_BASE as it is live, and until the first sluice apply as the image has staged it, so that what start-up
writes there (R111, R124) is what the first apply finds. -/
def calBase (d : Device) : Nat :=
  let e := if d.cal.firstApply.isNone then d.withStaged else d
  e.get F.CAL_DRAM_BASE_HI.ADDR * 2 ^ 32 + e.get F.CAL_DRAM_BASE.ADDR * 2 ^ 23
def baseAddr (d : Device) (e : Nat) : Nat := calBase d + 4 * e
def setAddr (d : Device) (e : Nat) : Nat := calBase d + 0x200000 + 8 * e
def accAddr (d : Device) (k : Nat) : Nat := calBase d + 0x600000 + 16 * k
def holdAddr (d : Device) (slot k : Nat) : Nat := calBase d + 0x700000 + slot * 0x20000 + 2 * k
def liveAddr (e : Nat) : Nat := 0x21000000 + 4 * e

/-- The live entry. -/
def liveEntry (d : Device) (e : Nat) : Nat := d.num (liveAddr e) 4

/-- First entry and number of entries of a context's footprint (R86). -/
def footBase (d : Device) (c : Nat) : Nat := d.get (F.CXn_TBL.TBL_BASE c)
def footSize (d : Device) (c : Nat) : Nat := ctxPixels d c * nbIn d c

/-- Entry `e` as the line of count `l` of context `c` uses it (R98): what stood before the earliest set with a later apply line. -/
def entryFor (d : Device) (c : Nat) (l : Int) (e : Nat) : Nat :=
  let later := d.cal.olds.filter (fun o => o.ctx = c && decide (l < o.a) && decide (o.base ≤ e ∧ e < o.base + o.values.length))
  match later.foldl (fun (m : Option OldEntries) o =>
      match m with | none => some o | some p => if o.a < p.a then some o else some p) none with
  | some o => o.values.getD (e - o.base) 0
  | none => liveEntry d e

/-! ## Temperature sets (R118 to R120) -/

/-- T_j of slot `j`, s16, as the register shows it. -/
def slotTempFld (c j : Nat) : Fld := ⟨R.CAL_Cn_SETT01 c + 4 * (j / 2), 16 * (j % 2) + 15, 16 * (j % 2)⟩
def slotTemp (d : Device) (c j : Nat) : Int := d.getI (slotTempFld c j)
def slotValid (d : Device) (c j : Nat) : Bool := bitAt (d.get (F.CAL_Cn_SETS.VALID c)) j
def validSlots (d : Device) (c : Nat) : List Nat := (List.range 4).filter (slotValid d c)

/-- Gain and offset delta of entry `e` in slot `j`. -/
def deltaG (d : Device) (e j : Nat) : Int := sx 8 (d.num (setAddr d e + 2 * j) 1)
def deltaO (d : Device) (e j : Nat) : Int := sx 8 (d.num (setAddr d e + 2 * j + 1) 1)

/-- A value interpolated between deltas at two temperatures (R120), or at one slot. -/
def blendDelta (base da db : Int) (ta tb t : Int) (lo hi : Int) : Int :=
  clampI lo hi (base + rneDiv (4 * (da * (tb - t) + db * (t - ta))) (tb - ta).toNat)

/-- Of the valid slots, the one with the greatest temperature at most `t`; ties go to the lower slot. -/
def slotBelow (d : Device) (c : Nat) (t : Int) : Option Nat :=
  (validSlots d c).foldl (fun m j => if t < slotTemp d c j then m else
    match m with | none => some j | some k => if slotTemp d c k < slotTemp d c j then some j else some k) none

/-- Of the valid slots, the one with the least temperature at least `t`. -/
def slotAbove (d : Device) (c : Nat) (t : Int) : Option Nat :=
  (validSlots d c).foldl (fun m j => if slotTemp d c j < t then m else
    match m with | none => some j | some k => if slotTemp d c j < slotTemp d c k then some j else some k) none

/-- Gain and offset of entry `e` of context `c` at temperature `t` (R120); without a temperature slot 0 or the base. -/
def entryAt (d : Device) (c e : Nat) (t : Option Int) : Int × Int :=
  let b := d.num (baseAddr d e) 4
  let gb : Int := (b / 65536 : Nat)
  let ob := sx 16 b
  let own (j : Nat) : Int × Int := (clampI 0 65535 (gb + 4 * deltaG d e j), clampI (-32768) 32767 (ob + 4 * deltaO d e j))
  match t with
  | none => if slotValid d c 0 then own 0 else (gb, ob)
  | some t =>
    match slotBelow d c t, slotAbove d c t with
    | none, none => (gb, ob)
    | some a, none => own a
    | none, some b => own b
    | some a, some b' =>
      if slotTemp d c a = t ∨ slotTemp d c b' ≤ slotTemp d c a then own a
      else (blendDelta gb (deltaG d e a) (deltaG d e b') (slotTemp d c a) (slotTemp d c b') t 0 65535,
            blendDelta ob (deltaO d e a) (deltaO d e b') (slotTemp d c a) (slotTemp d c b') t (-32768) 32767)

/-- An entry as 32 bits (R97). -/
def packEntry (go : Int × Int) : Nat := wrapN 16 go.1 * 65536 + wrapN 16 go.2

/-- The whole footprint of a context at a temperature. -/
def footAt (d : Device) (c : Nat) (t : Option Int) : List Nat :=
  (List.range (footSize d c)).map (fun k => packEntry (entryAt d c (footBase d c + k) t))

/-- Entries written to the live table from entry `e` on. -/
def writeLive (d : Device) (e : Nat) (vs : List Nat) : Device := d.setBytes (liveAddr e) (vs.flatMap (leBytes 4))

/-- A temperature from its 16-bit code: 0x8000 is none. -/
def tempOf (v : Nat) : Option Int := if v = 0x8000 then none else some (sx 16 v)

/-- The temperature used by the live table goes to CAL_Cn_SETS. -/
def showApplied (d : Device) (c : Nat) (t : Option Nat) : Device :=
  (d.set (F.CAL_Cn_SETS.T_APPLIED c) (t.getD 0x8000)).setBit (F.CAL_Cn_SETS.NO_TEMP c) t.isNone

def copyBase (copy : Nat) : Nat := mramBase + copy * 0x400000
def recordAddr (c copy : Nat) : Nat := mramBase + 0x800000 + c * 0x80 + copy * 0x40

/-- A per-context record is valid: its CRC covers its bytes 0 to 59 and the footprint it names in that copy (Table 5.3). -/
def recordValid (d : Device) (c copy : Nat) : Bool :=
  let r := d.bytes (recordAddr c copy) 64
  let n := leAt r 24 2 * leAt r 26 1
  n ≤ 65536 && leAt r 60 4 == crc32c (r.take 60 ++ d.bytes (copyBase copy + 8 * leAt r 20 4) (8 * n))

/-- The copy of context `c` in MRAM that R124 would load: of the valid records, the one with the higher SEQ. -/
def mramCopy (d : Device) (c : Nat) : Option Nat :=
  let seq (k : Nat) : Nat := d.num (recordAddr c k) 4
  match recordValid d c 0, recordValid d c 1 with
  | true, true => some (if seq 0 < seq 1 then 1 else 0)
  | true, false => some 0
  | false, true => some 1
  | false, false => none

/-- `d` with the set entries of context `c` whose read failed on MP7 as the MRAM copy has them (Table 13.5). -/
def reread (d : Device) (c : Nat) : Device :=
  match mramCopy d c with
  | none => d
  | some k => (List.range (footSize d c)).foldl (fun e i =>
      let x := footBase d c + i
      if d.dram.badReads.any (fun r => r.1 == 7 && r.2 / 64 == setAddr d x / 64) then e.setBytes (setAddr d x) (d.bytes (copyBase k + 8 * x) 8)
      else e) d

/-- A write set is made (R121): the whole footprint at `t`, with apply line `a`. A recompute reads the entries whose read failed on MP7
again from the MRAM copy of R124 (Table 13.5). -/
def makeSet (d : Device) (c : Nat) (t : Option Nat) (a : Int) (byRun : Bool) : Device :=
  let e := if byRun ∨ ¬ d.dram.badReads.any (fun r => r.1 == 7) then d else reread d c
  let s : WriteSet := { ctx := c, a := a, base := footBase d c, values := footAt e c (t.bind tempOf), byRun := byRun }
  let mine (a : Nat) : Bool := decide (setAddr d (footBase d c) / 64 ≤ a / 64 ∧ a < setAddr d (footBase d c + footSize d c))
  let d1 := { d with dram := { d.dram with badReads := d.dram.badReads.filter (fun r => byRun || !(r.1 == 7 && mine r.2)) } }
  showApplied { d1 with cal := { d1.cal with sets := d1.cal.sets ++ [s] } } c t

/-- A write set of the context is pending. -/
def setPending (d : Device) (c : Nat) : Bool := d.cal.sets.any (fun s => s.ctx == c)

/-- |a − b| of two temperatures. -/
def tempDist (a b : Int) : Nat := (a - b).natAbs

/-- T_cur differs from T_applied by 0.25 °C or more, or none has been applied: a temperature recompute with apply line
`l` + APPLY_LAG (R121). -/
def tempRecompute (d : Device) (c : Nat) (l : Int) : Device :=
  match (d.calCtx c).tCur with
  | none => d
  | some t =>
    let far : Bool := match tempOf (d.get (F.CAL_Cn_SETS.T_APPLIED c)) with
      | none => true
      | some u => decide (2 ≤ tempDist (sx 16 t) u)
    if d.bit F.CAL_CTRL.ENABLE ∧ ctxLive d c ∧ far ∧ ¬ setPending d c then makeSet d c (some t) (l + d.get F.CAL_CTRL.APPLY_LAG) false else d

/-! ## Due contexts (R112) -/

/-- A due bit of a context is set; DUE where the context was not due. -/
def setDue (d : Device) (c : Nat) (f : Fld) : Device :=
  let was := d.bit (F.CAL_Cn_RESULT.TEMP_DUE c) || d.bit (F.CAL_Cn_RESULT.INTERVAL_DUE c)
  let d1 := d.setBit f true
  let d2 := if c < 32 then d1.setBit (F.CAL_DUE_LO.DUE.bitN c) true else d1.setBit (F.CAL_DUE_HI.DUE.bitN (c - 32)) true
  d2.raiseIf (!was) F.CAL_FLAGS.DUE

/-- The due bits of a context clear. -/
def clearDue (d : Device) (c : Nat) : Device :=
  let d1 := (d.setBit (F.CAL_Cn_RESULT.TEMP_DUE c) false).setBit (F.CAL_Cn_RESULT.INTERVAL_DUE c) false
  if c < 32 then d1.setBit (F.CAL_DUE_LO.DUE.bitN c) false else d1.setBit (F.CAL_DUE_HI.DUE.bitN (c - 32)) false

/-- Runs are allowed for a context: the block is on, the context live and its CAL_EN set. -/
def calAllowed (d : Device) (c : Nat) : Bool := d.bit F.CAL_CTRL.ENABLE && d.bit (F.CAL_Cn_CFG.CAL_EN c) && ctxLive d c

/-- T_cur of the context is more than DT_TRIG from T_r of its last completed run, or there has been none. -/
def tempDue (d : Device) (c : Nat) (t : Nat) : Bool :=
  match tempOf (d.get (F.CAL_Cn_TR.T_R c)) with
  | none => true
  | some r => decide (d.get F.CAL_TRIG.DT_TRIG < tempDist (sx 16 t) r)

/-- A run of the context has started and not ended. -/
def runOf (d : Device) (c : Nat) : Bool := d.cal.run.isSome && d.calCtxNo == c && d.calState != csWaitStart

/-- TEMP_DUE of a context as its condition has it (R112). The start of a run cleared it, and until the run ends T_r is still that of the
run before, so a context whose run goes on does not become due again; the condition is tested again where the run ends (DEDUCED, log entry
"a due context and its run"). -/
def tempCheck (d : Device) (c : Nat) : Device :=
  match (d.calCtx c).tCur with
  | none => d
  | some t => if calAllowed d c ∧ tempDue d c t ∧ ¬ runOf d c then setDue d c (F.CAL_Cn_RESULT.TEMP_DUE c) else d

/-- A line with a TEMP is accepted for a context: T_cur, TEMP_DUE and the temperature recompute (R112, R121). -/
def calAccept (d : Device) (l : CamLine) : Device :=
  if l.temp = 0x8000 then d
  else
    let d1 := d.setCalCtx l.ctx { d.calCtx l.ctx with tCur := some l.temp }
    let d2 := if d.cal.run.isSome ∧ d.calCtxNo = l.ctx then
      { d1 with cal := { d1.cal with temps := (l.count, l.temp) :: d1.cal.temps } } else d1
    tempRecompute (tempCheck d2 l.ctx) l.ctx l.count

/-- INTERVAL_DUE: INTERVAL seconds have passed since the start line of the last run, or since the first apply (R112). -/
def intervalDueDev (c : Nat) (d : Device) : Device :=
  let n := d.get F.CAL_TRIG.INTERVAL
  match (match (d.calCtx c).lastStart with | some t => some t | none => d.cal.firstApply) with
  | none => d
  | some t =>
    if n = 0 ∨ ¬ calAllowed d c then d
    else
      let d1 := d.elapseTo (t + n * 1000000000)
      setDue d1 c (F.CAL_Cn_RESULT.INTERVAL_DUE c)

/-! ## Runs (R113, R114) -/

/-- Line L is a sampled line (R106). -/
def sampled (d : Device) (l : Nat) : Bool := l % 2 ^ d.get F.CAL_CTRL.DECIM == 0

/-- The run ends: BUSY and the state clear, what it gathered is dropped. -/
def endRun (d : Device) (code : Nat) : Device :=
  let c := d.calCtxNo
  let d1 := ((d.set F.CAL_STATUS.STATE csIdle).set F.CAL_STATUS.BUSY 0).set (F.CAL_Cn_RESULT.CODE c) code
  { d1.set F.CAL_PENDING.ENTRIES 0 with cal := { d1.cal with run := none, captured := [], temps := [], masks := Vector.replicate 4 [] } }

/-- A context's working copy of the sets, their temperatures and T_applied become those of `x`. -/
def takeSets (d : Device) (x : CalContent) : Device :=
  let d1 := d.setBytes (setAddr d (footBase d x.ctx)) x.deltas
  x.regs.foldl (fun d e => if [R.CAL_Cn_SETS x.ctx, R.CAL_Cn_SETT01 x.ctx, R.CAL_Cn_SETT01 x.ctx + 4, R.CAL_Cn_RESID x.ctx].contains e.1 then d.wr e.1 e.2 else d) d1

/-- The run is discarded in any state; a result that has not become live leaves the sets as they were before it (Table 5.2). The context
may be due again (R112). -/
def discardRun (d : Device) : Device :=
  match d.cal.run with
  | none => d
  | some r =>
    let c := d.calCtxNo
    let d1 := match r.undo with
      | some x => { takeSets d x with cal := { d.cal with sets := d.cal.sets.filter (fun s => !(s.ctx == c && s.byRun)) } }
      | none => d
    tempCheck (((endRun d1 3).count F.CAL_ABANDONED.COUNT).raise F.CAL_FLAGS.RUN_ABANDONED) c

/-- The run is abandoned in WAIT_START or ACCUM (Table 5.2). -/
def abandonRun (d : Device) : Device := if d.calState = csWaitStart ∨ d.calState = csAccum then discardRun d else d

/-- A write of CAL_RUN with GO (R113). -/
def calGoDev (v : Word) (d0 : Device) : Device :=
  let d := d0.set F.CAL_RUN.CTX (F.CAL_RUN.CTX.of v)
  let c := F.CAL_RUN.CTX.of v
  let l := d.get F.CAL_RUN_LINE.START_LINE
  if F.CAL_RUN.GO.of v = 0 then d
  else if d.bit F.CAL_STATUS.BUSY ∨ ¬ calAllowed d c ∨ ¬ sampled d l ∨ ¬ lineBefore (lineAdd (d.get F.TB_LINE.L) 63) l then
    d.raise F.CAL_FLAGS.RUN_REJ
  else
    let s := d.countOf l
    ((d.set F.CAL_STATUS.BUSY 1).set F.CAL_STATUS.STATE csWaitStart |>.set F.CAL_STATUS.CTX c).setRun
      (some { startLine := s, next := s })

/-- A write of CAL_RUN with ABORT (Table 5.2). -/
def calAbortDev (d : Device) : Device :=
  if d.calState = csWaitStart ∨ d.calState = csAccum then tempCheck (endRun d 4) d.calCtxNo else d

/-- The streams that have a correction entry: both rows of a mosaic, or every sample. -/
def streamCount (d : Device) (c : Nat) : Nat := samplesOf (ctxLayout d c)

/-- Position `i` is in the calibrated range, or in the dark range in use. -/
def inRange (d : Device) (c i : Nat) : Bool :=
  decide (d.get (F.CAL_Cn_RANGE.PIX_FIRST c) ≤ i) && decide (i ≤ d.get (F.CAL_Cn_RANGE.PIX_LAST c))
def inDark (d : Device) (c i : Nat) : Bool :=
  d.bit (F.CAL_Cn_CFG.DARK_EN c) && decide (d.get (F.CAL_Cn_DARK.DARK_FIRST c) ≤ i) && decide (i ≤ d.get (F.CAL_Cn_DARK.DARK_LAST c))

/-- Every cell of the guard around position `i` lies inside the view (R107). -/
def guardInside (d : Device) (c i : Nat) : Bool :=
  match ctxView d c with
  | none => false
  | some v =>
    let g : Int := d.get F.CAL_CTRL.GUARD_X
    decide (0 ≤ cellOf d c i - g) && decide (cellOf d c i + g < viewWidth d v)

/-- A calibrated position whose entries a run must complete. -/
def calRequired (d : Device) (c i : Nat) : Bool :=
  inRange d c i && !(d.bit (F.CXn_CFG.DEFECT_EN c) && defectAt d c i) && guardInside d c i

/-- Classes of the view line of count `l`, where they have arrived. -/
def maskAt (d : Device) (v : Nat) (l : Int) : Option MaskLine := (unit d.cal.masks v).find? (fun m => m.count = l)

/-- Lines of guard around a line. -/
def guardLines (d : Device) (l : Int) : List Int :=
  let g := d.get F.CAL_CTRL.GUARD_L
  (List.range (2 * g + 1)).map (fun (k : Nat) => l - (g : Int) + (k : Int))

/-- Cells `lo` to `hi` hold no foreground cell. -/
def cellsClear (fg : Nat) (lo hi : Nat) : Bool := (fg >>> lo) % 2 ^ (hi + 1 - lo) == 0

/-- Position `i` of the run context is background in line `l` for stream `s` (R107). -/
def isBackground (d : Device) (c v : Nat) (l : Int) (s i : Nat) : Bool :=
  let g := d.get F.CAL_CTRL.GUARD_X
  let ci := (cellOf d c i).toNat
  calRequired d c i && (guardLines d (l + streamDelay d c s)).all (fun m =>
    match maskAt d v m with
    | some { foreground := some fg, .. } => cellsClear fg (ci - g) (ci + g)
    | _ => false)

/-- N of accumulator `k`. -/
def accN (d : Device) (k : Nat) : Nat := d.num (accAddr d k + 10) 2

/-- N_min = 2^N_MIN_LOG2. -/
def nMin (d : Device) : Nat := 2 ^ d.get F.CAL_CTRL.N_MIN_LOG2

/-- One sample into the accumulator of footprint entry `k` (R110), up to `n` of them. -/
def accumulate (n : Nat) (d : Device) (k v : Nat) : Device :=
  let a := accAddr d k
  if n ≤ accN d k then d
  else ((d.setNum a 4 (d.num a 4 + v)).setNum (a + 4) 6 (d.num (a + 4) 6 + v * v)).setNum (a + 10) 2 (accN d k + 1)

/-- Hold-ring slot of a captured line: the captured lines of a run take the 8 slots in turn. Table 5.1 names the slots and no order (DESIGN
CHOICE, log entry "hold-ring slots"). -/
def holdSlot (d : Device) (l : Int) : Nat := (d.cal.captured.find? (fun e => e.1 = l)).elim 0 Prod.snd

/-- Entries a run counts: footprint entry and position, for positions that `q` picks. -/
def runEntries (d : Device) (c : Nat) (q : Nat → Nat → Bool) : List (Nat × Nat) :=
  (List.range (ctxPixels d c)).flatMap (fun i =>
    ((List.range (streamCount d c)).filter (fun s => q s i)).map (fun s => (i * nbIn d c + s, i)))

/-- Sampled line `l` is accumulated: background positions and dark positions. -/
def accumLine (d cfg : Device) (c v : Nat) (l : Int) : Device :=
  (runEntries cfg c (fun s i => isBackground cfg c v l s i || inDark cfg c i)).foldl
    (fun d e => accumulate (nMin cfg) d e.1 (d.num (holdAddr d (holdSlot d l) e.1) 2)) d

/-- Required entries below N_min. -/
def calMissing (d : Device) (c : Nat) : Nat :=
  ((runEntries d c (fun _ i => calRequired d c i || inDark d c i)).filter (fun e => accN d e.1 < nMin d)).length

/-- Accumulation is suspended in the cycle of line `l` (R422). -/
def suspended (d : Device) (l : Int) : Bool := (d.rsv.calOff.find? (fun e => decide (e.1 ≤ l))).elim false Prod.snd

/-- Sampled line `l` is skipped: its context line was lost, a view line of its guard is lost, or accumulation is suspended for its cycle
(R108, R422). -/
def skipsLine (d : Device) (c v : Nat) (l : Int) : Bool :=
  suspended d l || !d.cal.captured.any (fun e => e.1 == l)
    || (List.range (streamCount d c)).any (fun s => (guardLines d (l + streamDelay d c s)).any (fun m =>
      match maskAt d v m with | some { foreground := some _, .. } => false | _ => true))

/-- T_cur as of line `l`: the TEMP of the latest accepted line at or before it. -/
def tempAsOf (r : CalRun) (ts : List (Int × Nat)) (l : Int) : Option Nat :=
  match ts.find? (fun e => e.1 ≤ l) with | some e => some e.2 | none => r.tr

/-- The tests Table 5.2 makes at a sampled line, whose configuration is `cfg`: timeout, and T_cur away from T_r. -/
def runTests (d cfg : Device) (c : Nat) (r : CalRun) (l : Int) : Device :=
  if r.startT + 1000000000 * cfg.get F.CAL_TRIG.TIMEOUT ≤ trigT d l then
    tempCheck (((endRun d 2).count F.CAL_TIMEOUTS.COUNT).raise F.CAL_FLAGS.RUN_TIMEOUT) c
  else match tempAsOf r d.cal.temps l, r.tr with
    | some t, some u =>
      if cfg.get F.CAL_TRIG.DT_TRIG < tempDist (sx 16 t) (sx 16 u) then
        setDue (abandonRun d) c (F.CAL_Cn_RESULT.TEMP_DUE c)
      else d
    | _, _ => d

/-- Sampled line `l` of the run, all of whose classes have arrived. -/
def runLine (d : Device) (c v : Nat) (r : CalRun) (l : Int) : Device :=
  let cfg := d.asOf l
  let r1 : CalRun := { r with next := l + 1 }
  let tidy (d : Device) : Device := { d with cal := { d.cal with
    captured := d.cal.captured.filter (fun e => l < e.1),
    temps := d.cal.temps.filter (fun e => l < e.1) ++ (d.cal.temps.filter (fun e => e.1 ≤ l)).take 1,
    masks := withUnit d.cal.masks v ((unit d.cal.masks v).filter (fun m => decide (l - 3 ≤ m.count))) } }
  if skipsLine cfg c v l then runTests (tidy ((d.count F.CAL_SKIPPED.COUNT).setRun (some r1))) cfg c r1 l
  else
    let d1 := accumLine d cfg c v l
    let n := calMissing { cfg with mem := d1.mem } c
    let d2 := d1.set F.CAL_PENDING.ENTRIES n
    if n = 0 then (d2.set F.CAL_STATUS.STATE csCompute).setRun (some { r1 with lc := l })
    else runTests (tidy (d2.setRun (some r1))) cfg c r1 l

/-- Greatest line delay of the run context's streams. -/
def maxDelay (d : Device) (c : Nat) : Nat := ((List.range (streamCount d c)).map (streamDelay d c)).foldl Nat.max 0

/-- Context line `l` of the run context can still arrive: it is outstanding at its port, waits, or is in a pipe. -/
def lineOpen (d : Device) (c : Nat) (l : Int) : Bool :=
  (d.pipes.waiting.any (fun x => x.ctx == c && x.count == l))
    || (List.range 8).any (fun p => match d.pipes.pipe[p]?.getD none with | some x => x.ctx == c && x.count == l | none => false)
    || (enabledHeads (d.asOf l)).any (fun x => headCtx (d.asOf l) x.1 x.2 == c &&
      (unit (unit d.ports x.1).heads x.2).trigs.any (fun t => t.count == l && decide (t.st = .outstanding)))

/-- The run takes the lines of its context in turn, each with the configuration of that line: a sampled line once its classes up to the
last guard line have arrived and the line itself can no longer arrive, or has; in a context without a view, where no classes come, a
sampled line that has been triggered only makes the tests of Table 5.2. Lines that a start of the generator left out are passed over. `fuel` bounds how many lines. -/
def runSteps (d : Device) : Nat → Device
  | 0 => d
  | n + 1 =>
    match d.cal.run with
    | none => d
    | some r =>
      let c := d.calCtxNo
      let cfg := d.asOf r.next
      let skip (d : Device) : Device := d.setRun (some { r with next := r.next + 1 })
      if d.calState ≠ csAccum then d
      else if d.tb.prior < r.next ∧ r.next < d.tb.first ∧ d.tb.first ≤ d.tb.count then runSteps (d.setRun (some { r with next := d.tb.first })) n
      else match ctxView cfg c with
        | none =>
          if d.tb.count < r.next then d
          else if sampled cfg (lineOf r.next) then runSteps (runTests (skip d) cfg c r r.next) n else runSteps (skip d) n
        | some v =>
          let need := r.next + cfg.get F.CAL_CTRL.GUARD_L + maxDelay cfg c
          if ¬ (unit d.cal.masks v).any (fun m => decide (need ≤ m.count)) then d
          else if ¬ sampled cfg (lineOf r.next) then runSteps (skip d) n
          else if lineOpen d c r.next then d
          else runSteps (runLine d c v r r.next) n

/-- The classes of a view line reach the block (R149). -/
def calMask (d : Device) (v : Nat) (l : Int) (fg : Option Nat) : Device :=
  if d.cal.run.isNone then d
  else
    let m := unit d.cal.masks v
    runSteps { d with cal := { d.cal with masks := withUnit d.cal.masks v (m ++ [{ count := l, foreground := fg }]) } } 64

/-- The values at the input of the dark-and-gain stage of a sampled line of the run context go to the hold ring (R106). -/
def calCapture (d cfg : Device) (c : Nat) (l : Int) (v : List (List Nat)) : Device :=
  match d.cal.run with
  | none => d
  | some r =>
    if d.calCtxNo ≠ c ∨ (d.calState ≠ csWaitStart ∧ d.calState ≠ csAccum) ∨ l < r.next ∨ ¬ sampled cfg (lineOf l) then d
    else
      let nb := nbIn cfg c
      let d1 := (v.zip (List.range v.length)).foldl (fun d (s, k) =>
        (s.zip (List.range s.length)).foldl (fun d (x, i) => d.setNum (holdAddr d r.slot (i * nb + k)) 2 x) d) d
      let r1 : CalRun := { r with slot := (r.slot + 1) % 8 }
      runSteps { d1 with cal := { d1.cal with captured := (l, r.slot) :: d1.cal.captured, run := some r1 } } 64

/-! ## The update (R115 to R119) -/

/-- S, Q and N of accumulator `k`. -/
def accS (d : Device) (k : Nat) : Int := d.num (accAddr d k) 4
def accQ (d : Device) (k : Nat) : Int := d.num (accAddr d k + 4) 6

/-- Target of a stream at a position: the slot of the stream, or of its colour in a mosaic. -/
def targetOf (d : Device) (c s i : Nat) : Nat :=
  let slot := if ctxMosaic d c then mosaicAt d c s i else s
  d.get (if slot % 2 = 0 then F.CAL_Cn_TGTk.TGT_EVEN c (slot / 2) else F.CAL_Cn_TGTk.TGT_ODD c (slot / 2))

/-- The offset step of a stream (R115). -/
def offsetStep (d : Device) (c s : Nat) (t : Option Int) : Int :=
  let k := d.get F.CAL_CTRL.N_MIN_LOG2
  let dark := (List.range (ctxPixels d c)).filter (inDark d c)
  if dark.isEmpty then 0
  else
    let sum := (dark.map (fun i =>
      accS d (i * nbIn d c + s) - (entryAt d c (footBase d c + i * nbIn d c + s) t).2 * 2 ^ k)).foldl (· + ·) 0
    clampI (-64) 64 (rneDiv sum (dark.length * 2 ^ k))

/-- What the update makes of one entry: gain, offset, whether R116 rejects it, and its residual where it is not rejected. -/
def updateEntry (d : Device) (c s i : Nat) (t : Option Int) (step : Int) : Int × Int × Bool × Option Int :=
  let k := d.get F.CAL_CTRL.N_MIN_LOG2
  let n : Int := 2 ^ k
  let e := footBase d c + i * nbIn d c + s
  let a := i * nbIn d c + s
  let (g, o) := entryAt d c e t
  let o' := if inRange d c i ∨ inDark d c i then clampI (-32768) 32767 (o + step) else o
  if ¬ calRequired d c i then (g, o', false, none)
  else
    let den := accS d a - o' * n
    let sd : Int := d.get (F.CAL_Cn_CFG.SD_MAX c)
    let te : Int := targetOf d c s i
    if den ≤ 0 ∨ (sd * n) ^ 2 < n * accQ d a - accS d a ^ 2 then (g, o', true, none)
    else
      let ideal := clampI 0 65535 (rneDiv (te * 2 ^ (14 + k)) den.toNat)
      let dd := (accS d a - o * n) * g - te * 2 ^ (14 + k)
      (g + clampI (-64) 64 (ideal - g), o', false, some (if te = 0 then (Config.free d.fresh a : Int) else rneDiv (10000 * dd) (te * 2 ^ (14 + k)).toNat))

/-- The valid slot nearest to `t`; ties go to the lower slot. -/
def nearestSlot (d : Device) (c : Nat) (t : Int) : Option Nat :=
  (validSlots d c).foldl (fun m j =>
    match m with | none => some j | some k => if tempDist t (slotTemp d c j) < tempDist t (slotTemp d c k) then some j else some k) none

/-- The slot that takes the result of a run (R119). -/
def chooseSlot (d : Device) (c : Nat) (t : Option Int) : Nat :=
  match t with
  | none => 0
  | some t =>
    let empty := (List.range 4).find? (fun j => !slotValid d c j)
    match nearestSlot d c t, empty with
    | none, _ => empty.getD 0
    | some j, none => j
    | some j, some e => if tempDist t (slotTemp d c j) ≤ d.get F.CAL_TRIG.DT_TRIG then j else e

/-- A delta of R119, and 1 where it saturated. -/
def deltaOf (new base : Int) : Int × Nat :=
  let x := rneDiv (new - base) 4
  (clampI (-128) 127 x, if x < -128 ∨ 127 < x then 1 else 0)

/-- The deltas of one entry written to slot `j` of the working copy; and how many saturated. -/
def storeDelta (j : Nat) (acc : Device × Nat) (x : Nat × Int × Int) : Device × Nat :=
  let (d, n) := acc
  let (e, g, o) := x
  let b := d.num (baseAddr d e) 4
  let (dg, k1) := deltaOf g (b / 65536 : Nat)
  let (d0, k2) := deltaOf o (sx 16 b)
  ((d.setNum (setAddr d e + 2 * j) 1 (wrapN 8 dg)).setNum (setAddr d e + 2 * j + 1) 1 (wrapN 8 d0), n + k1 + k2)

/-- Apply line of a run's write set: L_c + GUARD_L + APPLY_LAG, and in a pair not before the cycle two after the one of L_c (R439). -/
def runApplyLine (d : Device) (lc : Int) : Int :=
  let a := lc + d.get F.CAL_CTRL.GUARD_L + d.get F.CAL_CTRL.APPLY_LAG
  if d.bit F.PAIR_CFG.EN then
    let n : Int := 2 ^ d.get F.TB_LINE_CFG.CYCLE_LOG2
    let b := (lc / n + 2) * n
    if a < b then b else a
  else a

/-- Registers of CAL_Cn that a calibration set brings along (Table 21.3). -/
def calItemRegs (c : Nat) : List Nat := [R.CAL_Cn_SETS c, R.CAL_Cn_SETT01 c, R.CAL_Cn_SETT01 c + 4, R.CAL_Cn_RESULT c, R.CAL_Cn_RESID c]

/-- The calibration sets of context `c` as an item carries them. -/
def calContent (d : Device) (c slot tr lc : Nat) : CalContent :=
  { ctx := c, slot := slot, tr := tr, lc := lc, tApplied := d.get (F.CAL_Cn_SETS.T_APPLIED c), regs := (calItemRegs c).map (fun a => (a, d.rd a)),
    deltas := d.bytes (setAddr d (footBase d c)) (8 * footSize d c) }

/-- A run that completed at line `lc` makes the only write set of its context from that line on: temperature recomputes that line `lc` or
a later one has begun are dropped (R121). -/
def dropRecomputes (d : Device) (c : Nat) (lc : Int) : Device :=
  { d with cal := { d.cal with sets := d.cal.sets.filter (fun s => !(s.ctx == c && !s.byRun && decide (lc + d.get F.CAL_CTRL.APPLY_LAG ≤ s.a))) } }

/-! ## Commit to MRAM (R123) -/

/-- The copy that a commit of context `c` writes, and the SEQ it takes: the copy with the lower SEQ; an invalid record counts as lower.
R123 says "SEQ + 1" and not whose: it is the higher or only valid one's, so that R124 finds the new record the higher (DESIGN CHOICE, log
entry "the SEQ of a commit"). -/
def commitTarget (d : Device) (c : Nat) : Nat × Nat :=
  let seq (k : Nat) : Nat := d.num (recordAddr c k) 4
  match recordValid d c 0, recordValid d c 1 with
  | false, false => (0, 1)
  | false, true => (0, (seq 1 + 1) % 2 ^ 32)
  | true, false => (1, (seq 0 + 1) % 2 ^ 32)
  | true, true => if seq 1 < seq 0 then (1, (seq 0 + 1) % 2 ^ 32) else (0, (seq 1 + 1) % 2 ^ 32)

/-- The commit of context `c` as it starts: footprint and record of the sets as they stand. -/
def commitOf (d : Device) (c : Nat) : MramCommit :=
  let (copy, seq) := commitTarget d c
  let foot := d.bytes (setAddr d (footBase d c)) (8 * footSize d c)
  let temps := (List.range 4).flatMap (fun j => leBytes 2 (d.get (slotTempFld c j)))
  let r := leBytes 4 seq ++ leBytes 4 d.cal.baseId ++ temps
    ++ leBytes 1 (d.get (F.CAL_Cn_SETS.VALID c) + 16 * d.get (F.CAL_Cn_SETS.NO_TEMP c)) ++ leBytes 1 0
    ++ leBytes 2 (d.get (F.CAL_Cn_SETS.T_APPLIED c)) ++ leBytes 4 (footBase d c) ++ leBytes 2 (ctxPixels d c) ++ leBytes 1 (nbIn d c)
    ++ leBytes 33 0
  { ctx := c, footAddr := copyBase copy + 8 * footBase d c, foot := foot, recAddr := recordAddr c copy,
    record := r ++ leBytes 4 (crc32c (r ++ foot)) }

/-- The next waiting commit starts where none is in progress. -/
def commitStart (d : Device) : Device :=
  match d.cal.commit, d.cal.waiting with
  | none, c :: t => { d.set F.CAL_STATUS.MRAM_BUSY 1 with cal := { d.cal with commit := some (commitOf d c), waiting := t } }
  | _, _ => d

/-- The commit of context `c` is queued; only the newest waiting commit of a context is kept. -/
def commitQueue (d : Device) (c : Nat) : Device :=
  commitStart { d with cal := { d.cal with waiting := d.cal.waiting.filter (fun x => x ≠ c) ++ [c] } }

/-- A commit in progress is cut short: an unknown part of the footprint is written, and the record's CRC fails (R124). -/
def cutCommit (d : Device) : Device :=
  match d.cal.commit with
  | none => d
  | some m =>
    let d1 := d.setBytes m.footAddr (m.foot.take (Config.free d.fresh 0 % (m.foot.length + 1)))
    let r := d1.bytes m.recAddr 60
    let foot := d1.bytes (copyBase (m.recAddr / 0x40 % 2) + 8 * leAt r 20 4) (8 * (leAt r 24 2 * leAt r 26 1))
    let d2 := d1.setNum (m.recAddr + 60) 4 ((crc32c (r ++ foot) + 1 + Config.free d.fresh 1 % (2 ^ 32 - 1)) % 2 ^ 32)
    { d2 with fresh := d2.fresh + 1 }

/-! ## Write sets become live (R98, R121) -/

/-- One write set becomes live; what it replaces is kept for earlier lines of its context. -/
def setLive (d : Device) (s : WriteSet) : Device :=
  let old : OldEntries := { ctx := s.ctx, a := s.a, base := s.base, values := (List.range s.values.length).map (fun k => liveEntry d (s.base + k)) }
  let d1 := writeLive d s.base s.values
  { d1 with cal := { d1.cal with olds := d1.cal.olds ++ [old], sets := d1.cal.sets.filter (fun x => x ≠ s) } }

/-- Line `l` is reached: every write set with its apply line at or before it becomes live, T_cur is compared again for its context, and a
run that waits for the line ends (Table 5.2, APPLY_WAIT). R121 gives the new comparison no line of its own: the recompute takes line `l` +
APPLY_LAG (DESIGN CHOICE, log entry "recompute after a write set"). -/
def applySets (d : Device) (l : Int) : Device :=
  let due := d.cal.sets.filter (fun s => decide (s.a ≤ l))
  let d1 := due.foldl setLive d
  let d2 := due.foldl (fun d s => tempRecompute d s.ctx l) d1
  match d2.cal.run with
  | none => d2
  | some r =>
    let c := d2.calCtxNo
    if d2.calState = csApplyWait ∧ r.a ≤ l then
      let d3 := ((endRun d2 1).count F.CAL_RUNS_OK.COUNT).raise F.CAL_FLAGS.RUN_DONE
      let d4 := (d3.set (F.CAL_Cn_LAST.APPLY_LINE c) (lineOf r.a)).set (F.CAL_Cn_TR.T_R c) (r.tr.getD 0x8000)
      tempCheck (commitQueue d4 c) c
    else d2

/-- CAL_COMPUTE_DONE: the update, the sets, and the write set with its apply line (Table 5.2, COMPUTE). RMS and MAX over no entry, where
R116 has rejected all, are free values: R117 states none. -/
def calComputeDev (d : Device) : Device :=
  match d.cal.run with
  | none => d
  | some r =>
    if d.calState ≠ csCompute then d
    else
      let c := d.calCtxNo
      let t := r.tr.bind tempOf
      let ns := streamCount d c
      let steps := (List.range ns).map (fun s => offsetStep d c s t)
      let ups := (List.range (ctxPixels d c)).flatMap (fun i => (List.range (nbIn d c)).map (fun s =>
        let e := footBase d c + i * nbIn d c + s
        if s < ns then (e, updateEntry d c s i t (steps.getD s 0)) else (e, (entryAt d c e t).1, (entryAt d c e t).2, false, none)))
      let j := chooseSlot d c t
      let (d1, sat) := (ups.map (fun u => (u.1, u.2.1, u.2.2.1))).foldl (storeDelta j) (d, 0)
      let rej := (ups.filter (fun u => u.2.2.2.1)).length
      let res := ups.filterMap (fun u => u.2.2.2.2)
      let sq := (res.map (fun x => x.natAbs * x.natAbs)).sum
      let rms := if res.isEmpty then Config.free d.fresh 0x10000 else
        let m := sq / res.length
        let q := isqrt m
        let f := 4 * (sq % res.length)
        if q * q + q < m ∨ (q * q + q = m ∧ (res.length < f ∨ (res.length = f ∧ q % 2 = 1))) then q + 1 else q
      let big := if res.isEmpty then Config.free d.fresh 0x10001 else (res.map Int.natAbs).foldl Nat.max 0
      let a := runApplyLine d r.lc
      let d2 := (({ d1 with fresh := d1.fresh + 1 }.count F.CAL_REJECT_BP.COUNT rej).count F.CAL_DELTA_SAT.COUNT sat).raiseIf (0 < sat) F.CAL_FLAGS.DELTA_SAT
      let d3 := (d2.set (F.CAL_Cn_RESID.RMS c) (capN 65535 rms)).set (F.CAL_Cn_RESID.MAX c) (capN 65535 big)
      let d4 := ((d3.setBit ((F.CAL_Cn_SETS.VALID c).bitN j) true).set (slotTempFld c j) (r.tr.getD 0x8000)).set (F.CAL_Cn_RESULT.SLOT c) j
      let d5 := (makeSet (dropRecomputes d4 c r.lc) c (tempAsOf r d.cal.temps r.lc) a true |>.set F.CAL_STATUS.STATE csApplyWait).setRun
        (some { r with a := a, undo := some (calContent d c 0 0 0) })
      applySets (pushItem d5 a (.calSet (calContent d5 c j (r.tr.getD 0x8000) (lineOf r.lc)))) d5.tb.count

/-- CAL_MRAM_COMMIT_DONE: footprint, then record; a failed write sets MRAM_ERR (R123, R124). -/
def calCommitDoneDev (ok : Bool) (d : Device) : Device :=
  match d.cal.commit with
  | none => d
  | some m =>
    let d1 := { d.set F.CAL_STATUS.MRAM_BUSY 0 with cal := { d.cal with commit := none } }
    let d2 := if ok then (d1.setBytes m.footAddr m.foot).setBytes m.recAddr m.record
      else (d1.raise F.CAL_FLAGS.MRAM_ERR).fault faultMramErr m.ctx
    commitStart d2

/-! ## Web lines and applies -/

/-- Where the generator has started anew at line `l` and an earlier line count, the run goes on from there: a line index triggered again is a
new line. -/
def runAgain (d : Device) (l : Int) : Device :=
  match d.cal.run with
  | none => d
  | some r =>
    if d.calState = csAccum ∧ l = d.tb.first ∧ l ≤ d.tb.prior then
      { d with cal := { d.cal with run := some { r with next := l }, captured := [], masks := Vector.replicate 4 [] } }
    else d

/-- Web line of count `l` is triggered: write sets apply (R98, R121), the run starts, goes on or completes (Table 5.2). -/
def calLine (d : Device) (l : Int) : Device :=
  let d2 := applySets d l
  match d2.cal.run with
  | none => d2
  | some r =>
    let c := d2.calCtxNo
    if d2.calState = csWaitStart ∧ r.startLine ≤ l then
      let k := footSize d2 c
      let d3 := clearDue ((d2.setBytes (accAddr d2 0) (List.replicate (16 * k) 0#8)).set F.CAL_STATUS.STATE csAccum) c
      let t := trigT d2 l
      (d3.setCalCtx c { d3.calCtx c with lastStart := some t }).setRun (some { r with tr := (d2.calCtx c).tCur, startT := t, next := l })
    else runSteps (runAgain d2 l) 64

/-- Registers and tables whose change at an apply abandons a run of context `c` (Table 5.2). Of "the GEO parameters of its view" they are
the registers and tables of the view and those of context `c` itself, not those of the view's other contexts (DESIGN CHOICE, log entry
"GEO parameters of a view"). -/
def runSensitive (old new : Device) (c : Nat) : Bool :=
  let own : List Nat :=
    [R.CXn_FMT c, R.CXn_CFG c, R.CXn_TBL c] ++ (List.range 16).map (fun k => R.CAL_Cn_CFG c + 4 * k)
      ++ (List.range 8).map (fun k => R.GEO_Cn_CFG c + 4 * k)
  let ofView : List Nat := match ctxView old c with
    | some v => (List.range 12).map (fun k => R.GEO_Vv_CFG v + 4 * k) ++ (List.range 16).map (fun k => R.SEGv_CFG v + 4 * k)
    | none => []
  let tabOf (a : Nat) : Bool :=
    (0x20100C00 + c * 0x1000 ≤ a && a < 0x20101000 + c * 0x1000) || (0x31080000 + c * 0x2000 ≤ a && a < 0x31082000 + c * 0x2000)
      || match ctxView old c with
        | some v => (0x31000000 + v * 0x20000 ≤ a && a < 0x31020000 + v * 0x20000) || (0x31100000 + v * 0x4000 ≤ a && a < 0x31104000 + v * 0x4000)
        | none => false
  (own ++ ofView).any (fun a => old.rd a != new.rd a) || (old.tabs.filter (fun e => tabOf e.1)) != (new.tabs.filter (fun e => tabOf e.1))

/-- The footprint of a context is that of the MRAM record which R124 would load. -/
def setsMatch (d : Device) (c : Nat) : Bool :=
  match mramCopy d c with
  | none => false
  | some k =>
    let r := d.bytes (recordAddr c k) 64
    leAt r 20 4 == footBase d c && leAt r 24 2 == ctxPixels d c && leAt r 26 1 == nbIn d c

/-- A sluice apply: a run that the change touches is abandoned, and contexts with a new PIXELS, NB_IN or TBL_BASE empty their slots
(R114, R122); at the first apply, those with another footprint than their sets were loaded for (R124). Either may make a context due
(R112). -/
def calApply (old new : Device) : Device :=
  let d1 := if new.cal.run.isSome ∧ runSensitive old new new.calCtxNo then abandonRun new else new
  (List.range 48).foldl (fun d c =>
    if (if old.slu.applied then ctxPixels old c = ctxPixels d c ∧ nbIn old c = nbIn d c ∧ footBase old c = footBase d c else setsMatch d c) then
      tempCheck d c
    else tempCheck ((d.set (F.CAL_Cn_SETS.VALID c) 0).set (F.CAL_Cn_TR.T_R c) 0x8000) c) d1

/-- The live table of a context rewritten from the base copy and the working sets at its T_applied (R124, Table 22.3). -/
def rewriteLive (d : Device) (c : Nat) : Device :=
  if ctxLive d c then writeLive d (footBase d c) (footAt d c (tempOf (d.get (F.CAL_Cn_SETS.T_APPLIED c)))) else d

end Sys2Proof.Machine
end

