-- ==== Sys2Proof/Machine/CapLines.lean ====
section
/-! DEFINITION. What capture takes in of a view line as geometry emits it (R324, R325). -/

namespace Sys2Proof.Machine

/-- The group takes the line: it lies in the group, and a window names its view. -/
def groupTakes (g : CapGroup) (v : Nat) (x : ViewLine) : Bool :=
  decide (g.first ≤ x.count ∧ x.count < g.first + 16) && g.wins.any (fun w => w.view == v)

/-- A view line or lost-line marker reaches capture. -/
def capTake (d : Device) (v : Nat) (x : ViewLine) : Device :=
  { d with cap := { d.cap with
      last := withUnit d.cap.last v (some x.count),
      groups := d.cap.groups.map (fun g => if groupTakes g v x then { g with lines := g.lines ++ [(v, x)] } else g) } }

/-- The generator starts again: a group whose lines it had not all triggered never gets the rest, unless the count goes on without a gap. Its
blocks are never stored (R334: DEDUCED, log entry "groups cut short"). -/
def capRestart (d : Device) : Device :=
  { d with cap := { d.cap with
      last := d.cap.last.map (fun _ => none),
      groups := d.cap.groups.filter (fun g => decide (g.first + 15 ≤ d.tb.prior ∨ d.tb.first = d.tb.prior + 1)) } }

end Sys2Proof.Machine
end

