-- ==== Sys2Proof/Machine/Geometry.lean ====
section
/-! DEFINITION. Geometry (06_geometry_stitching.md): the delay store, resampling, stitching, the emission of view lines, and the
history writer. -/

namespace Sys2Proof.Machine

def Device.view (d : Device) (v : Nat) : View := unit d.geo.views v
def Device.setView (d : Device) (v : Nat) (x : View) : Device := { d with geo := { d.geo with views := withUnit d.geo.views v x } }

/-- View v is enabled in the configuration of `d` (R126). -/
def viewOn (d : Device) (v : Nat) : Bool := viewWidth d v != 0

/-! ## Sources (R127) and the delay store (R135) -/

/-- A source of a view: context, segment, output band, view band and line delay. -/
structure Source where
  ctx : Nat
  seg : Nat
  band : Nat
  viewBand : Nat
  delay : Nat
deriving DecidableEq, Repr

/-- Every source of view `v`: the mapped output bands of its live contexts. -/
def sources (d : Device) (v : Nat) : List Source :=
  ((List.range 48).filter (fun n => ctxLive d n && ctxView d n == some v)).flatMap (fun n =>
    ((List.range 8).filter (fun b => decide (b < nbOut d n) && decide (viewBand d n b < viewBands d v))).map (fun b =>
      { ctx := n, seg := d.get (F.GEO_Cn_CFG.SEG n), band := b, viewBand := viewBand d n b, delay := lineDelay d n b }))

/-- The context line a source takes for view line `l`, where it is stored in the format that is live for that line. -/
def sourceLine (d cfg : Device) (l : Int) (s : Source) : Option StoredLine :=
  d.geo.stored.find? (fun x => x.ctx = s.ctx && decide (x.count = l - s.delay) && x.pixels == ctxPixels cfg s.ctx && x.nbOut == nbOut cfg s.ctx)

/-- Every context line that view line `l` needs is stored. -/
def viewReady (d : Device) (v : Nat) (l : Int) : Bool :=
  let cfg := d.asOf l
  (sources cfg v).all (fun s => (sourceLine d cfg l s).isSome)

/-- The count of the oldest line that some view has still to emit. -/
def oldestDue (d : Device) : Option Int :=
  (List.range 4).foldl (fun m v =>
    match (d.view v).due with
    | [] => m
    | e :: _ => match m with | none => some e.1 | some k => if e.1 < k then some e.1 else some k) none

/-- The delay store keeps the last 16 lines of a context and every line that a view line may still use (R135). -/
def pruneStore (d : Device) (c : Nat) : Device :=
  let mine := d.geo.stored.filter (fun x => x.ctx = c)
  let needed (x : StoredLine) : Bool := match oldestDue d with | none => false | some k => decide (k - 15 ≤ x.count)
  let kept := mine.filter (fun x => decide ((mine.filter (fun y => decide (x.count < y.count))).length < 16) || needed x)
  { d with geo := { d.geo with stored := d.geo.stored.filter (fun x => x.ctx ≠ c) ++ kept } }

/-- Deadline of view line `l` of view `v`, triggered at `t`: its view latency target later (R15). -/
def viewDue (d : Device) (v : Nat) (l : Int) (t : Nat) : Nat := (t + 1000 * (d.asOf l).get (F.GEO_Vv_LAT.LAT_TARGET v)) % 2 ^ 64

/-- The context lines that view line `l` still wants. -/
def wanting (d : Device) (v : Nat) (l : Int) : List (Nat × Int) :=
  ((sources (d.asOf l) v).filter (fun s => !d.geo.stored.any (fun x => x.ctx = s.ctx && decide (x.count = l - s.delay)))).map
    (fun s => (s.ctx, l - (s.delay : Int)))

/-- The fate of every view line whose deadline lies before now, or at now where `upTo`, is settled: one that still wants a context line is
marked lost, whatever lines before it wait for, and the context lines it wants are discarded when they come (R15). -/
def settleView (upTo : Bool) (d : Device) (v : Nat) : Device :=
  let closes (e : Int × Nat × Bool) : Bool :=
    let t := viewDue d v e.1 e.2.1
    (if upTo then !stampBefore d.nowNs t else stampBefore t d.nowNs) && !e.2.2 && !viewReady d v e.1
  let lost := (d.view v).due.filter closes
  let d1 := d.setView v { d.view v with due := (d.view v).due.map (fun e => if closes e then (e.1, e.2.1, true) else e) }
  match lost.getLast? with
  | none => d
  | some k => { d1 with geo := { d1.geo with
      condemned := (lost.flatMap (fun e => wanting d v e.1) ++ d1.geo.condemned).filter (fun e => decide (k.1 - 1024 ≤ e.2)) } }

/-- A corrected line reaches geometry: kept, or discarded as late because its view line has been marked lost (R15, R90). -/
def storeLine (d0 : Device) (x : StoredLine) : Device :=
  let d := (List.range 4).foldl (settleView false) d0
  if d.safe ∨ d.resetting 3 then d
  else if d.geo.condemned.contains (x.ctx, x.count) then d.count (F.CXn_LINES_LATE.COUNT x.ctx)
  else pruneStore { d with geo := { d.geo with stored := d.geo.stored ++ [x] } } x.ctx

/-! ## Resampling (R132 to R134) -/

/-- Weights of the cubic convolution for source samples j − 1 to j + 2 at phase `f` (R133). -/
def cubicWeights (f : Int) : List Int :=
  [-(f ^ 3) + 512 * f ^ 2 - 65536 * f, 3 * f ^ 3 - 1280 * f ^ 2 + 33554432, -3 * f ^ 3 + 1024 * f ^ 2 + 65536 * f, f ^ 3 - 256 * f ^ 2]

/-- The band value at map index `m`, read at the ends of the line as its end values. -/
def sampleAt (d : Device) (n : Nat) (band : Array Nat) (m : Int) : Int :=
  let p := ctxPixels d n
  band.getD (mapIndex d n (clampI 0 (p - 1 : Nat) m).toNat) 0

/-- Value of a source band in cell `c` of the context's map. -/
def resample (d : Device) (n : Nat) (band : Array Nat) (c : Nat) : Nat :=
  let (j, f) := sourcePos d n c
  if d.bit (F.GEO_Cn_CFG.LINEAR n) then
    (rneDiv ((256 - f : Nat) * sampleAt d n band j + (f : Nat) * sampleAt d n band (j + 1)) 256).toNat
  else
    let w := cubicWeights f
    let acc := (w.zip (List.range 4)).foldl (fun (a : Int) (x, k) => a + x * sampleAt d n band ((j : Int) - 1 + (k : Int))) 0
    (clampI 0 65535 (rneShift acc 25)).toNat

/-! ## Stitching (R137) -/

/-- Where cell `c` takes its value: one segment, or the blend at boundary `k`. -/
inductive CellSource where
  | seg (k : Nat)
  | blend (k : Nat)
deriving DecidableEq, Repr

/-- Source of cell `c`, looking at boundaries from `k` on; `n` bounds how many. -/
def cellSource (d : Device) (v c : Nat) : Nat → Nat → CellSource
  | 0, k => .seg k
  | n + 1, k =>
    if viewSegs d v ≤ k + 1 then .seg k
    else
      let a := d.get (F.GEO_Vv_BNDk.A v k)
      let b := d.get (F.GEO_Vv_BNDk.B v k)
      if d.bit (F.GEO_Vv_BNDk.BLEND v k) then
        if c ≤ a then .seg k else if c < b then .blend k else cellSource d v c n (k + 1)
      else if c < a then .seg k else cellSource d v c n (k + 1)

/-- Value of view band `vb` of segment `k` in cell `c`; `srcs` pairs the sources with their bands. -/
def segValue (cfg : Device) (srcs : List (Source × Array Nat)) (k vb c : Nat) : Nat :=
  match srcs.find? (fun s => s.1.seg = k && s.1.viewBand == vb) with
  | some (s, band) => resample cfg s.ctx band c
  | none => 0

/-- One cell of a view band. -/
def cellValue (cfg : Device) (v : Nat) (srcs : List (Source × Array Nat)) (vb c : Nat) : Nat :=
  match cellSource cfg v c 8 0 with
  | .seg k => segValue cfg srcs k vb c
  | .blend k =>
    let a := cfg.get (F.GEO_Vv_BNDk.A v k)
    let b := cfg.get (F.GEO_Vv_BNDk.B v k)
    (rneDiv ((b - c : Nat) * (segValue cfg srcs k vb c : Int) + (c - a : Nat) * (segValue cfg srcs (k + 1) vb c : Int)) (b - a)).toNat

/-- The bands of view line `l` of view `v`. -/
def viewLineBands (d : Device) (v : Nat) (l : Int) : List (List Nat) :=
  let cfg := d.asOf l
  let srcs := (sources cfg v).map (fun s => (s, (((sourceLine d cfg l s).getD {}).bands.getD s.band []).toArray))
  (List.range (viewBands cfg v)).map (fun vb => (List.range (viewWidth cfg v)).map (cellValue cfg v srcs vb))

/-! ## The history writer (R140 to R143) -/

def histBase (d : Device) (v : Nat) : Nat := d.get (F.GEO_Vv_HIST_BASE_HI.ADDR v) * 2 ^ 32 + d.get (F.GEO_Vv_HIST_BASE.ADDR v) * 2 ^ 12
def ringLines (d : Device) (v : Nat) : Nat := 2 ^ d.get (F.GEO_Vv_HIST.RING_LOG2 v)
def histScale (d : Device) (v : Nat) : Nat := if d.bit (F.GEO_Vv_HIST.SCALE v) then 2 else 1
/-- Cells of a row, W′ (R141), and the pitch in bytes (Table 6.2). -/
def rowCells (d : Device) (v : Nat) : Nat := ceilDiv (viewWidth d v) (histScale d v)
def rowPitch (d : Device) (v : Nat) : Nat := ceilDiv (4 * rowCells d v) 64 * 64
/-- Slot of a line in the ring (R142). -/
def rowSlot (d : Device) (v : Nat) (l : Int) : Nat := lineOf l / histScale d v % ringLines d v
def tagAddr (d : Device) (v slot : Nat) : Nat := histBase d v + 8 * slot
def rowAddr (d : Device) (v slot : Nat) : Nat := histBase d v + 8 * ringLines d v + slot * rowPitch d v

/-- View band of byte `k` of a row cell. -/
def histBand (d : Device) (v k : Nat) : Nat := bitsOf (d.rd (R.GEO_Vv_HIST v)).toNat (4 * k + 2) (4 * k)

/-- A value through the 16→8 LUT of band select `k` (R140). -/
def histByte (d : Device) (v k x : Nat) : Byte := d.tab (0x31100000 + v * 0x4000 + k * 0x1000 + x / 16)

/-- Value of a row cell: the cell itself, or the average of four at SCALE = 1 (R141). -/
def histValue (w : Nat) (two : Bool) (a b : Array Nat) (q : Nat) : Nat :=
  if two then
    let x := 2 * q
    let y := if 2 * q + 1 < w then 2 * q + 1 else w - 1
    (rneDiv (a.getD x 0 + a.getD y 0 + b.getD x 0 + b.getD y 0 : Nat) 4).toNat
  else a.getD q 0

/-- The data of a row from one view line, or from the two lines of a pair; the bands of the first line are those that `cfg0`, the
configuration of that line, selects (R139). -/
def rowData (cfg0 d : Device) (v : Nat) (first second : List (List Nat)) : List Byte :=
  let two := d.bit (F.GEO_Vv_HIST.SCALE v)
  let sel := (List.range 4).map (fun k =>
    ((first.getD (histBand cfg0 v k) []).toArray, (second.getD (histBand d v k) []).toArray, k))
  let body := (List.range (rowCells d v)).flatMap (fun q =>
    sel.map (fun (a, b, k) => histByte d v k (histValue (viewWidth d v) two a b q)))
  body ++ List.replicate (rowPitch d v - body.length) 0#8

/-- A row of lines `f` to `l`; with a lost-line marker in it the data are zero and LOST is 1. -/
def makeRow (cfg0 d : Device) (v : Nat) (f l : Int) (bands : Option (List (List Nat) × List (List Nat))) : HistRow :=
  let slot := rowSlot d v f
  { first := f, last := l, tagAddr := tagAddr d v slot, rowAddr := rowAddr d v slot, lost := bands.isNone,
    data := match bands with
      | some (a, b) => rowData cfg0 d v a b
      | none => List.replicate (rowPitch d v) 0#8 }

/-- The writer takes an emitted view line. -/
def histTake (d : Device) (v : Nat) (x : ViewLine) : Device :=
  let cfg := d.asOf x.count
  let vw := d.view v
  if ¬ cfg.bit (F.GEO_Vv_HIST.HIST_EN v) then d.setView v { vw with half := none }
  else if ¬ cfg.bit (F.GEO_Vv_HIST.SCALE v) then
    d.setView v { vw with half := none, rows := vw.rows ++ [makeRow cfg cfg v x.count x.count (x.bands.map (fun b => (b, b)))] }
  else if lineOf x.count % 2 = 0 then d.setView v { vw with half := some x }
  else match vw.half with
    | none => d
    | some h =>
      if h.count + 1 ≠ x.count ∨ vw.starts.any (fun a => decide (h.count < a ∧ a ≤ x.count)) then d.setView v { vw with half := none }
      else
        let pair := match h.bands, x.bands with | some a, some b => some (a, b) | _, _ => none
        d.setView v { vw with half := none, rows := vw.rows ++ [makeRow (d.asOf h.count) cfg v h.count x.count pair] }

/-- The 8-byte tag of a row (Table 6.2). -/
def rowTag (r : HistRow) (lost : Bool) : List Byte := leBytes 8 (lineOf r.first + (if lost then 2 ^ 32 else 0))

/-- Every tag of the ring is set to all ones (R143); `cfg` is the configuration that the ring belongs to. -/
def ringEmpty (d cfg : Device) (v : Nat) : Device := d.setBytes (histBase cfg v) (List.replicate (8 * ringLines cfg v) 0xFF#8)

/-- Before the first row of a line from an apply line of R143 on is written, the ring is emptied. -/
def ringStart (d : Device) (v : Nat) (l : Int) : Device :=
  let x := d.view v
  if x.starts.any (fun a => decide (a ≤ l)) then
    (ringEmpty d (d.asOf l) v).setView v { x with starts := x.starts.filter (fun a => decide (l < a)) }
  else d

/-- HIST_ROW_COMPLETE: the oldest row is written, data first and tag second (R143). -/
def histCompleteDev (v : Nat) (d : Device) : Device :=
  match (d.view v).rows with
  | [] => d
  | r :: t =>
    let d1 := ringStart d v r.first
    ((d1.setView v { d1.view v with rows := t }).setBytes r.rowAddr r.data).setBytes r.tagAddr (rowTag r r.lost)

/-- HIST_ROW_DROP: the oldest row could not be written within 64 lines: its tag is left with LOST = 1 (R143). -/
def histDropDev (v : Nat) (d : Device) : Device :=
  match (d.view v).rows with
  | [] => d
  | r :: t =>
    let d1 := ringStart d v r.first
    (((((d1.setView v { d1.view v with rows := t }).setBytes r.tagAddr (rowTag r true)).count (F.GEO_Vv_HIST_DROP.COUNT v)).raise
      (F.GEO_FLAGS.HIST_DROP_V.bitN v)).fault faultHistDrop v)

/-- At an apply at line `a` that enables the writer of a view or changes WIDTH, SCALE, RING_LOG2 or HIST_BASE, its ring starts empty
from that line on. -/
def histApply (old : Device) (a : Int) (new : Device) : Device :=
  (List.range 4).foldl (fun d v =>
    let key (x : Device) : List Nat :=
      [x.get (F.GEO_Vv_HIST.HIST_EN v), viewWidth x v, x.get (F.GEO_Vv_HIST.SCALE v), x.get (F.GEO_Vv_HIST.RING_LOG2 v), histBase x v]
    if d.bit (F.GEO_Vv_HIST.HIST_EN v) ∧ viewOn d v ∧ key old ≠ key d then d.setView v { d.view v with starts := (d.view v).starts ++ [a] } else d) new

/-! ## View lines (R15, R138) -/

/-- A lost-line marker for line `l` counts in LOSS of its cycle (R441). -/
def lossCount (d : Device) (l : Int) (lost : Bool) : Device :=
  if ¬ lost then d
  else
    let c := cycleOf d l
    let n := ((d.pr.loss.find? (fun e => e.1 = c)).elim 0 Prod.snd) + 1
    { d with pr := { d.pr with loss := ((c, n) :: d.pr.loss.filter (fun e => e.1 ≠ c)).take 16 } }

/-- A view line or lost-line marker leaves geometry for the segmenter and the history writer. A view line that finds the store full
sets BACKLOG and is a block-level fault; it is kept all the same (R167). -/
def emitLine (d : Device) (v : Nat) (l : Int) (bands : Option (List (List Nat))) : Device :=
  let x : ViewLine := { count := l, bands := bands }
  let full := 16 ≤ (d.view v).store.length
  let d1 := d.setView v { d.view v with due := (d.view v).due.drop 1, store := (d.view v).store ++ [x] }
  let d2 := d1.count (F.GEO_Vv_LINES.COUNT v)
  let d3 := if bands.isNone then (d2.count (F.GEO_Vv_LOST.COUNT v)).raise (F.GEO_FLAGS.LOST_V.bitN v) else d2
  let d4 := lossCount (if full then (d3.raise (F.SEGv_FLAGS.BACKLOG v)).fault faultBacklog v else d3) l bands.isNone
  histTake (capTake d4 v x) v x

/-- VIEW_LINE_ASSEMBLE: the view's next line, once every contributing context line is corrected (R15). -/
def viewAssembleDev (v : Nat) (d0 : Device) : Device :=
  let d := settleView false d0 v
  match (d.view v).due with
  | [] => d
  | (l, _, held) :: _ => if held ∨ ¬ viewReady d v l then d else emitLine d v l (some (viewLineBands d v l))

/-- The view's next line leaves as a lost-line marker where it has been marked lost and its deadline has come. -/
def emitLost (d : Device) (v : Nat) : Device :=
  match (d.view v).due with
  | [] => d
  | (l, t, held) :: _ => if held ∧ ¬ stampBefore d.nowNs (viewDue d v l t) then emitLine d v l none else d

/-- VIEW_DEADLINE: where the view's next line is already past its deadline and lost, its marker leaves; else the earliest deadline still to
come of the view's lines comes, which need not be the next line's, since LAT_TARGET may fall at an apply line.  A line still wanting at its
own deadline is marked lost; its marker leaves in line order (R15, R138). -/
def viewDeadlineDev (v : Nat) (d : Device) : Device :=
  let d0 := settleView false d v
  match (d0.view v).due with
  | [] => d
  | (l, t, held) :: rest =>
    if held ∧ stampBefore (viewDue d0 v l t) d0.nowNs then emitLost d0 v
    else
      let at' := (((l, t, held) :: rest).map (fun e => viewDue d0 v e.1 e.2.1)).filter (fun x => !stampBefore x d0.nowNs)
      match at' with
      | [] => d0
      | x :: xs => emitLost (settleView true (d0.elapseTo (xs.foldl (fun m y => if stampBefore y m then y else m) x)) v) v

/-- Web line of count `l` is triggered at `t`: it becomes due in every enabled view (R15). In the safe state geometry is held in reset;
lines triggered during a reset of the Vision region are held and become lost-line markers (Table 22.3). -/
def geoLine (d : Device) (l : Int) (t : Nat) : Device :=
  if d.safe then d
  else (List.range 4).foldl (fun d v =>
    if viewOn (d.asOf l) v then d.setView v { d.view v with due := (d.view v).due ++ [(l, t, d.resetting 3)] } else d) d

/-! ## The pipe scheduler (R88 to R90) -/

def Device.pipeAt (d : Device) (p : Nat) : Option CamLine := (d.pipes.pipe[p]?.getD none)
def Device.setPipe (d : Device) (p : Nat) (x : Option CamLine) : Device :=
  { d with pipes := { d.pipes with pipe := withUnit d.pipes.pipe p x } }

/-- Line `a` comes before `b` in the order of R89. -/
def lineFirst (a b : CamLine) : Bool :=
  if a.deadline = b.deadline then decide (a.port < b.port) || (a.port == b.port && decide (a.head < b.head))
  else stampBefore a.deadline b.deadline

/-- A write set that line `l` uses is incomplete: it is not live yet, or the run that makes it still computes (R98). -/
def setIncomplete (d : Device) (l : CamLine) : Bool :=
  d.cal.sets.any (fun s => s.ctx == l.ctx && decide (s.a ≤ l.count))
    || (d.calState == csCompute && d.calCtxNo == l.ctx && match d.cal.run with | some r => decide (runApplyLine d r.lc ≤ l.count) | none => false)

/-- The waiting line that the scheduler gives a free pipe: of the oldest lines of contexts that have no line in a pipe and no incomplete
write set for it, the first. -/
def nextLine (d : Device) : Option CamLine :=
  let cand := d.pipes.waiting.filter (fun l =>
    !(List.range 8).any (fun p => match d.pipeAt p with | some x => x.ctx == l.ctx | none => false)
      && !d.pipes.waiting.any (fun x => x.ctx == l.ctx && decide (x.count < l.count)) && !setIncomplete d l)
  cand.foldl (fun m l => match m with | none => some l | some k => if lineFirst l k then some l else some k) none

/-- PIPE_START: the lowest free pipe takes the first waiting line (R88, R89). Its ingress space goes as the pipe reads it (`pipeRead`). -/
def pipeStartDev (d : Device) : Device :=
  match (List.range 8).find? (fun p => (d.pipeAt p).isNone), nextLine d with
  | some p, some l =>
    let d1 := showWaiting { d with pipes := { d.pipes with waiting := d.pipes.waiting.filter (fun x => x ≠ l) } }
    let d3 := (d1.setPipe p (some l)).setBit (F.PIPE_STATUS.BUSY.bitN p) true
    if stampBefore l.deadline d.nowNs then d3.count F.PIPE_LATE_START.COUNT else d3
  | _, _ => d

/-! ## Statistics blocks (R103, R104) -/

/-- The results of a ready block in its registers; all zero where there is none. -/
def showBlock (d : Device) (c : Nat) (b : StatBlock) : Device :=
  let d1 := (d.set (F.CXn_STAT_LINES.LINES c) b.lines).set (F.CXn_STAT_STATUS.SETTINGS_ID c) b.settings
  (List.range 8).foldl (fun d k =>
    match b.bands[k]? with
    | some s => ((d.wr (R.CXn_STAT_SUMLO_b c k) (BitVec.ofNat 32 s.sum)).wr (R.CXn_STAT_SUMHI_b c k) (BitVec.ofNat 32 (s.sum / 2 ^ 32))).wr
        (R.CXn_STAT_MINMAX_b c k) (BitVec.ofNat 32 (s.max * 65536 + s.min))
    | none => ((d.wr (R.CXn_STAT_SUMLO_b c k) 0#32).wr (R.CXn_STAT_SUMHI_b c k) 0#32).wr (R.CXn_STAT_MINMAX_b c k) 0#32) d1

/-- The open block of a context. -/
def Device.openBlock (d : Device) (c : Nat) : Option StatBlock := d.pipes.openBlock[c]?.getD none
def Device.setOpen (d : Device) (c : Nat) (b : Option StatBlock) : Device :=
  { d with pipes := { d.pipes with openBlock := withUnit d.pipes.openBlock c b } }
def Device.setReady (d : Device) (c : Nat) (b : Option StatBlock) : Device :=
  { d with pipes := { d.pipes with ready := withUnit d.pipes.ready c b } }

/-- The open block closes and becomes the ready block, which fires the context's rill (Table 18.1); an unreleased one sets OVERRUN. -/
def closeBlock (d : Device) (c : Nat) : Device :=
  match d.openBlock c with
  | none => d
  | some b =>
    let d1 := if d.bit (F.CXn_STAT_STATUS.READY c) then d.set (F.CXn_STAT_STATUS.OVERRUN c) 1 else d
    let d2 := (d1.set (F.CXn_STAT_STATUS.READY c) 1).set (F.CXn_STAT_STATUS.BLOCK_SEQ c) (d.get (F.CXn_STAT_STATUS.BLOCK_SEQ c) + 1)
    showBlock (((d2.setReady c (some b)).setOpen c none).emit (12 + c) d.nowNs) c b

/-- STAT_RELEASE: the ready block is discarded and READY clears (R104). -/
def statReleaseDev (c : Nat) (d : Device) : Device :=
  showBlock ((d.set (F.CXn_STAT_STATUS.READY c) 0).setReady c none) c {}

/-- A corrected line enters the statistics of its context (R103, R104). -/
def statTake (d cfg : Device) (l : CamLine) (r : Corrected) : Device :=
  let c := l.ctx
  let under := ((cfg.rd (R.CXn_FMT c)).toNat, cfg.get (F.CXn_CFG.NB_OUT c), cfg.get (F.CXn_CFG.STAT_TAP c))
  let d1 := match d.openBlock c with
    | some b => if b.settings ≠ l.settings ∨ b.under ≠ under then closeBlock d c else d
    | none => d
  let b0 := (d1.openBlock c).getD { settings := l.settings, under := under }
  let b1 := statLine b0 (if cfg.bit (F.CXn_CFG.STAT_TAP c) then r.out else r.afterDefect)
  let d2 := d1.setOpen c (some b1)
  let n := cfg.get (F.CXn_STAT_CTRL.STAT_LINES c)
  if n ≠ 0 ∧ n ≤ b1.lines then closeBlock d2 c else d2

/-- PIPE_COMPLETE: the line is corrected with the values of R87 and R98, enters the statistics and goes to geometry; after a snoop
mismatch it is not released (R382). -/
def pipeCompleteDev (p : Nat) (snoopOk : Bool) (d : Device) : Device :=
  match d.pipeAt p with
  | none => d
  | some l =>
    let cfg := d.asOf l.count
    let r := correctLine cfg l.ctx (entryFor d l.ctx l.count) l.payload
    let x := unit d.ports l.port
    let d0 := { d with ports := withUnit d.ports l.port { x with ingress := x.ingress - l.held } }
    let d1 := (d0.setPipe p none).setBit (F.PIPE_STATUS.BUSY.bitN p) false
    let d2 := { d1 with
      fresh := if ctxMosaic cfg l.ctx ∧ ¬ staggered cfg l.ctx then d1.fresh + 1 else d1.fresh,
      cal := { d1.cal with olds := d1.cal.olds.filter (fun o => !(o.ctx == l.ctx && decide (o.a ≤ l.count))) } }
    let d3 := ((d2.count (F.CXn_LINES_DONE.COUNT l.ctx)).count (F.CXn_CLIP.COUNT l.ctx) r.clips).count (F.CXn_DEFECT_UNRES.COUNT l.ctx) r.unresolved
    let d4 := statTake d3 cfg l r
    if snoopOk then
      storeLine (calCapture d4 cfg l.ctx l.count r.gainIn)
        { ctx := l.ctx, count := l.count, pixels := ctxPixels cfg l.ctx, nbOut := nbOut cfg l.ctx, bands := r.out }
    else snoopMismatch d4 l.port faultSnoopCp l.port

end Sys2Proof.Machine
end

