-- ==== Sys2Proof/Machine/Segment.lean ====
section
/-! DEFINITION. The segmenters (07_segmentation_basin.md, R147 to R160): classes, runs, the line step of Table 7.1, lost lines and
object descriptors. -/

namespace Sys2Proof.Machine

def Device.seg (d : Device) (v : Nat) : Seg := unit d.basin.seg v
def Device.setSeg (d : Device) (v : Nat) (s : Seg) : Device := { d with basin := { d.basin with seg := withUnit d.basin.seg v s } }

/-! ## Ordering helpers -/

/-- `a` inserted before the first element that it comes before. -/
def insertBy {α : Type} (before : α → α → Bool) (a : α) : List α → List α
  | [] => [a]
  | b :: t => if before a b then a :: b :: t else b :: insertBy before a t

/-- A list sorted by an order; equal elements keep their order. -/
def sortBy {α : Type} (before : α → α → Bool) (l : List α) : List α := l.foldl (fun acc a => insertBy before a acc) []

/-! ## Classes (R147, R148) -/

/-- Sort coordinate k of a cell whose bands are `y`. -/
def sortCoord (d : Device) (v k : Nat) (y : List Nat) : Nat :=
  let coef (b : Nat) : Int :=
    if b % 2 = 0 then d.getI (F.SEGv_MATk_m.M_EVEN v k (b / 2)) else d.getI (F.SEGv_MATk_m.M_ODD v k (b / 2))
  let acc := (y.zip (List.range y.length)).foldl (fun (a : Int) (x, b) => a + coef b * x) 0
  let sh := d.get (if k = 0 then F.SEGv_CFG.SH0 v else if k = 1 then F.SEGv_CFG.SH1 v else F.SEGv_CFG.SH2 v)
  let off := d.getI (if k = 0 then F.SEGv_OFF01.OFF0 v else if k = 1 then F.SEGv_OFF01.OFF1 v else F.SEGv_OFF2.OFF2 v)
  (clampI 0 63 (rneShift acc (12 + sh) + off)).toNat

/-- Pixel class of a cell. -/
def pixelClass (d : Device) (v : Nat) (y : List Nat) : Nat :=
  let e := sortCoord d v 0 y * 4096 + sortCoord d v 1 y * 64 + sortCoord d v 2 y
  let b := (d.tab (0x31000000 + v * 0x20000 + e / 2)).toNat
  if e % 2 = 0 then b % 16 else b / 16

/-- Cells of a line as lists of band values, cell by cell. -/
def transposeBands (bands : List (List Nat)) (w : Nat) : List (List Nat) :=
  let a := bands.map List.toArray
  (List.range w).map (fun c => a.map (fun b => b.getD c 0))

/-! ## Runs (R150) -/

/-- The maximal runs of foreground cells of the classes from cell `c` on, as (first, last). -/
def runsFrom : List Nat → Nat → Option Nat → List (Nat × Nat)
  | [], c, some f => [(f, c - 1)]
  | [], _, none => []
  | k :: t, c, cur =>
    if k = 0 then match cur with
      | some f => (f, c - 1) :: runsFrom t (c + 1) none
      | none => runsFrom t (c + 1) none
    else runsFrom t (c + 1) (some (cur.getD c))

/-- 8-connected (R151). -/
def connected (a b : Nat × Nat) : Bool := decide (a.1 ≤ b.2 + 1) && decide (b.1 ≤ a.2 + 1)

/-- A component of the line step: its runs and the objects and seeds they link to. -/
structure Component where
  runs : List (Nat × Nat) := []
  owners : List Nat := []
deriving DecidableEq, Repr

/-- One more run with the owners it links to, joined with every component that shares one. -/
def joinRun (comps : List Component) (r : Nat × Nat) (owners : List Nat) : List Component :=
  let hit := comps.filter (fun c => c.owners.any owners.contains)
  let rest := comps.filter (fun c => !c.owners.any owners.contains)
  rest ++ [{ runs := hit.flatMap Component.runs ++ [r], owners := (hit.flatMap Component.owners ++ owners).eraseDups }]

/-- Object ids of the runs of the previous processed line that run `r` links to. -/
def linksOf (prev : List SegRun) (r : Nat × Nat) : List Nat :=
  ((prev.filter (fun p => connected r (p.first, p.last))).filterMap SegRun.owner).eraseDups

/-- First cell of a component's leftmost run. -/
def compLeft (c : Component) : Nat := c.runs.foldl (fun m r => if r.1 < m then r.1 else m) 0xFFFF

/-! ## Objects -/

/-- Flags of Table 7.2. -/
def vfOversize : Nat := 1
def vfGap : Nat := 2
def vfEdge : Nat := 4
def vfMerged : Nat := 8
def vfRunlim : Nat := 16
def vfCont : Nat := 32
def vfSplit : Nat := 64

def Obj.flag (o : Obj) (f : Nat) : Obj := { o with flags := o.flags ||| f }
def Obj.flagIf (o : Obj) (c : Bool) (f : Nat) : Obj := if c then o.flag f else o

/-- The survivor with the quantities and flags of an absorbed object (Table 7.1, step 4; R159). -/
def absorb (a b : Obj) : Obj :=
  { a with
    first := if b.first < a.first then b.first else a.first, chain := if b.chain < a.chain then b.chain else a.chain, last := if a.last < b.last then b.last else a.last,
    xMin := Nat.min a.xMin b.xMin, xMax := Nat.max a.xMax b.xMax, area := a.area + b.area,
    perClass := a.perClass.zipWith (· + ·) b.perClass, sums := a.sums.zipWith (· + ·) b.sums,
    sx := a.sx + b.sx, sxx := a.sxx + b.sxx, sy := a.sy + b.sy, syy := a.syy + b.syy, sxy := a.sxy + b.sxy,
    perim := a.perim + b.perim, flags := a.flags ||| b.flags }

/-- A new object (R153). -/
def freshObj (id : Nat) (l : Int) : Obj :=
  { id := id, first := l, chain := l, last := l, xMin := 0xFFFF, xMax := 0, perClass := List.replicate 16 0, sums := List.replicate 8 0 }

/-- One cell into an object: class, band values, and whether it counts in PERIM already. -/
def addCell (o : Obj) (l : Int) (x k : Nat) (y : List Nat) (edge : Bool) : Obj :=
  { o with
    last := l, xMin := Nat.min o.xMin x, xMax := Nat.max o.xMax x, area := o.area + 1,
    perClass := o.perClass.set k (o.perClass.getD k 0 + 1),
    sums := (List.range 8).map (fun b => o.sums.getD b 0 + y.getD b 0),
    sx := o.sx + x, sxx := o.sxx + x * x, sy := o.sy + l, syy := o.syy + l * l, sxy := o.sxy + x * l,
    perim := if edge then o.perim + 1 else o.perim }

/-- Order of R24 on object ids. -/
def idBefore (a b : Nat) : Bool := lineBefore a b

/-- Order of R155. -/
def closeBefore (a b : Obj) : Bool := decide (a.xMin < b.xMin) || (a.xMin == b.xMin && idBefore a.id b.id)

/-- The descriptor of an object (R159, R160). -/
def descOf (v : Nat) (o : Obj) : Desc :=
  let a : Int := o.area
  let sy := o.sy - a * o.first
  let syy := o.syy - 2 * o.first * o.sy + a * o.first * o.first
  let sxy := o.sxy - o.first * o.sx
  let sat (n : Nat) (x : Int) : Nat := (clampI 0 (2 ^ n - 1) x).toNat
  let aa := o.area * o.area
  { view := v, id := o.id, first := o.first, lines := capN 0xFFFF (o.last - o.first + 1).toNat, flags := o.flags,
    xMin := o.xMin, xMax := o.xMax, area := capN 0xFFFFFFFF o.area,
    cx := sat 20 (rneDiv (16 * (o.sx : Int)) o.area), cy := sat 16 (rneDiv (16 * sy) o.area), perim := capN 0xFFFF o.perim,
    perClass := o.perClass.map (capN 0xFFFFFF), sums := o.sums.map (capN (2 ^ 40 - 1)),
    mu20 := sat 32 (rneDiv (16 * (a * o.sxx - (o.sx : Int) ^ 2)) aa),
    mu02 := sat 32 (rneDiv (16 * (a * syy - sy ^ 2)) aa),
    mu11 := clampI (-(2 ^ 31)) (2 ^ 31 - 1) (rneDiv (16 * (a * sxy - o.sx * sy)) aa) }

/-- The 128 bytes of a descriptor (Table 7.2). -/
def descBytes (x : Desc) : List Byte :=
  leBytes 4 x.id ++ leBytes 4 (lineOf x.first) ++ leBytes 2 x.lines ++ leBytes 2 (x.flags + 2 ^ 14 * x.view) ++ leBytes 2 x.xMin
    ++ leBytes 2 x.xMax ++ leBytes 4 x.area ++ leBytes 4 x.cx ++ leBytes 2 x.cy ++ leBytes 2 x.perim
    ++ x.perClass.flatMap (leBytes 3) ++ x.sums.flatMap (leBytes 5) ++ leBytes 4 x.mu20 ++ leBytes 4 x.mu02 ++ leBytes 4 (wrapN 32 x.mu11)

/-! ## The line step (Table 7.1) -/

/-- The object's last cells count in PERIM where nothing below can hold them. -/
def settleAll (runs : List SegRun) (o : Obj) : Obj :=
  { o with perim := o.perim + ((runs.filter (fun r => r.owner = some o.id)).map (fun r => r.inner.length)).sum }

/-- Closed objects go to the closed-object queue with closing line `c`, in the order of R155. -/
def handOver (d : Device) (v : Nat) (c : Int) (os : List Obj) : Device :=
  let s := d.seg v
  let sorted := sortBy closeBefore os
  (d.setSeg v { s with queue := s.queue ++ sorted.map (fun o => { closing := c, desc := descOf v o }) }).count (F.SEGv_OBJ_CLOSED.COUNT v) os.length

/-- OPEN and its high-water mark. -/
def showOpen (d : Device) (v : Nat) : Device :=
  let n := (d.seg v).objs.length
  (d.set (F.SEGv_OPEN.OPEN v) n).set (F.SEGv_OPEN.HWM v) (Nat.max n (d.get (F.SEGv_OPEN.HWM v)))

/-- A change of WIDTH, or of the view's being enabled, at line `a`: every open object closes there with GAP (R157). -/
def segFlush (d : Device) (v : Nat) (a : Int) : Device :=
  let s := d.seg v
  let closed := s.objs.map (fun o => (settleAll s.runs o).flag vfGap) ++ s.split
  showOpen (handOver (d.setSeg v { s with objs := [], split := [], runs := [], seeds := [], chains := [], prev := none }) v a closed) v

/-- The merge of one component (step 4): what is left of its open objects, and how many were absorbed. -/
def mergeComp (objs : List Obj) (c : Component) : List Obj × Nat :=
  let mine := objs.filter (fun o => c.owners.contains o.id)
  match mine with
  | [] => (objs, 0)
  | o :: rest =>
    if rest.isEmpty then (objs, 0)
    else
      let low := rest.foldl (fun m x => if idBefore x.id m.id then x else m) o
      let others := mine.filter (fun x => x.id ≠ low.id)
      let surv := (others.foldl absorb low).flag vfMerged
      ((objs.filter (fun x => !(c.owners.contains x.id && x.id != low.id))).map (fun x => if x.id = low.id then surv else x), others.length)

/-- The open object of a component after the merges. -/
def compObj (objs : List Obj) (c : Component) : Option Nat := (objs.find? (fun o => c.owners.contains o.id)).map Obj.id

/-- Steps 4 and 5 over all components: objects left, absorbed count, and ids of previous owners with the id they passed to. -/
def mergeAll (objs : List Obj) (comps : List Component) : List Obj × Nat :=
  comps.foldl (fun acc c => let r := mergeComp acc.1 c; (r.1, acc.2 + r.2)) (objs, 0)

/-- What step 6 works through: device (its object counter), objects, components with their object, and refused components. -/
structure OpenAcc where
  dev : Device
  objs : List Obj
  owned : List (Component × Nat)
  refused : Nat

/-- An object takes over the chains of the seeds that its component links to. -/
def withChains (chains : List (Nat × Int)) (owners : List Nat) (o : Obj) : Obj :=
  chains.foldl (fun o e => if owners.contains e.1 ∧ e.2 < o.chain then { o with chain := e.2 } else o) o

/-- Step 6 for one component without an open object: it opens an object while fewer than 4,096 are open (R153, R154). -/
def openComp (v : Nat) (l : Int) (seeds : List Nat) (chains : List (Nat × Int)) (acc : OpenAcc) (c : Component) : OpenAcc :=
  if acc.objs.length < 4096 then
    let id := acc.dev.get (F.SEGv_NEXT_ID.OBJ_ID v)
    let o := withChains chains c.owners ((freshObj id l).flagIf (c.owners.any seeds.contains) (vfOversize + vfCont))
    { acc with
      dev := (acc.dev.set (F.SEGv_NEXT_ID.OBJ_ID v) (id + 1)).count (F.SEGv_OBJ_OPENED.COUNT v),
      objs := acc.objs ++ [o], owned := acc.owned ++ [(c, id)] }
  else { acc with refused := acc.refused + 1 }

/-- Step 7 for one run: its cells into the object, and the run as the next line will see it. `above x` says that the cell above x
belongs to the object. -/
def addRun (cells : Array (Nat × List Nat)) (above : Nat → Bool) (l : Int) (r : Nat × Nat) (o : Obj) : Obj × SegRun :=
  let xs := (List.range (r.2 + 1 - r.1)).map (· + r.1)
  let inside (x : Nat) : Bool := decide (r.1 < x) && decide (x < r.2) && above x
  (xs.foldl (fun o x => let c := cells.getD x (0, []); addCell o l x c.1 c.2 (!inside x)) o,
   { first := r.1, last := r.2, owner := some o.id, inner := xs.filter inside })

/-- The cell below x is covered by a run of object `id` in the line just processed. -/
def coveredBy (runs : List SegRun) (id x : Nat) : Bool := runs.any (fun r => r.owner == some id && decide (r.first ≤ x) && decide (x ≤ r.last))

/-- The view line `l` with cells `cells` (class and band values) is processed (R152). -/
def segProcess (d0 : Device) (v : Nat) (l : Int) (bands : List (List Nat)) : Device :=
  let cfg := d0.asOf l
  let w := viewWidth cfg v
  let d := if (d0.seg v).width ≠ w ∧ (d0.seg v).width ≠ 0 then segFlush d0 v l else d0
  let s := d.seg v
  -- step 1
  let ys := transposeBands bands w
  let classes := ys.map (pixelClass cfg v)
  let cells := (classes.zip ys).toArray
  let all := runsFrom classes 0 none
  let runs := all.take 8192
  let excl := ((all.drop 8192).map (fun r => r.2 + 1 - r.1)).sum
  -- steps 2 and 3: the previous processed line, links and components; a lost line beyond its own GAP_BRIDGE has left no previous line (R169)
  let prevRuns := if s.prev.isSome then s.runs else []
  let comps := runs.foldl (fun cs r => joinRun cs r (linksOf prevRuns r)) []
  -- step 4
  let (objs1, absorbed) := mergeAll s.objs comps
  let heir (id : Nat) : Nat := match comps.find? (fun c => c.owners.contains id) with | some c => (compObj objs1 c).getD id | none => id
  let prev1 := prevRuns.map (fun r => { r with owner := r.owner.map (fun id => if s.seeds.contains id then id else heir id) })
  -- step 5
  let stays (o : Obj) : Bool := comps.any (fun c => c.owners.contains o.id)
  let closed := (objs1.filter (fun o => !stays o)).map (settleAll s.runs)
  let objs2 := objs1.filter stays
  -- step 6
  let have_ := comps.filterMap (fun c => (compObj objs2 c).map (fun id => (c, id)))
  let want := sortBy (fun a b => decide (compLeft a < compLeft b)) (comps.filter (fun c => (compObj objs2 c).isNone))
  let acc := want.foldl (openComp v l s.seeds s.chains) { dev := d, objs := objs2, owned := have_, refused := 0 }
  -- step 7
  let step7 := acc.owned.foldl (fun (a : List Obj × List SegRun) (c, id) =>
    match a.1.find? (fun o => o.id = id) with
    | none => a
    | some o0 =>
      let above (x : Nat) : Bool := prev1.any (fun r => r.owner == some id && !s.seeds.contains id && decide (r.first ≤ x) && decide (x ≤ r.last))
      let (o1, rs) := c.runs.foldl (fun (p : Obj × List SegRun) r => let (o, sr) := addRun cells above l r p.1; (o, p.2 ++ [sr])) (o0, [])
      let o2 := ((o1.flagIf (c.runs.any (fun r => r.1 == 0 || r.2 == w - 1)) vfEdge).flagIf (decide (0 < s.lostRun)) vfGap).flagIf
        (c.owners.any s.seeds.contains) vfCont |> withChains s.chains c.owners
      (a.1.map (fun o => if o.id = id then o2 else o), a.2 ++ rs)) (acc.objs, [])
  let newRuns := step7.2
  let objs3 := step7.1.map (fun o => { o with
    perim := o.perim + (((prev1.filter (fun r => r.owner == some o.id && !s.seeds.contains o.id)).flatMap SegRun.inner).filter
      (fun x => !coveredBy newRuns o.id x)).length })
  -- step 9
  let big (o : Obj) : Bool := decide ((cfg.get F.BSN_CFG.LEN_MAX : Int) ≤ l - o.first + 1) || decide (cfg.get F.BSN_CFG.WID_MAX < o.xMax - o.xMin + 1)
  let split := (objs3.filter big).map (fun o => (settleAll newRuns o).flag (vfOversize + vfSplit))
  let seeds := split.map Obj.id
  -- step 10
  let objs4 := (objs3.filter (fun o => !big o)).map (fun o => o.flagIf (decide (8192 < all.length)) vfRunlim)
  let runs4 := newRuns.map (fun r => if r.owner.any seeds.contains then { r with inner := [] } else r)
  let s1 := { acc.dev.seg v with
    objs := objs4, prev := some l, runs := runs4, seeds := seeds, chains := split.map (fun o => (o.id, o.chain)), lostRun := 0, split := split, last := some l, width := w }
  let d1 := handOver (acc.dev.setSeg v s1) v l (closed ++ s.split)
  let d2 := (d1.count (F.SEGv_LINES.COUNT v)).count (F.SEGv_OBJ_MERGES.COUNT v) absorbed
  let d3 := if all.length ≤ 8192 then d2 else
    ((d2.count (F.SEGv_RUNLIM_LINES.COUNT v)).count (F.SEGv_CELLS_EXCL.COUNT v) excl).raise (F.SEGv_FLAGS.RUNLIM v)
  let d4 := (d3.count (F.SEGv_OBJ_REFUSED.COUNT v) acc.refused).raiseIf (0 < acc.refused) (F.SEGv_FLAGS.OPENLIM v)
  let d5 := (d4.count (F.SEGv_OVERSIZE.COUNT v) split.length).raiseIf (0 < split.length) (F.SEGv_FLAGS.OVERSIZE v)
  let fg := (classes.zip (List.range classes.length)).foldl (fun m (k, c) => if k = 0 then m else m + 2 ^ c) 0
  calMask (showOpen d5 v) v l (some fg)

/-- The lost-line marker of view line `l` is processed (R156). -/
def segLost (d0 : Device) (v : Nat) (l : Int) : Device :=
  let cfg := d0.asOf l
  let w := viewWidth cfg v
  let d := if (d0.seg v).width ≠ w ∧ (d0.seg v).width ≠ 0 then segFlush d0 v l else d0
  let s := d.seg v
  let n := s.lostRun + 1
  let objs := s.objs.map (fun o => o.flag vfGap)
  let pastGap := cfg.get (F.SEGv_CFG.GAP_BRIDGE v) < n
  let closed := if pastGap then objs.map (settleAll s.runs) else []
  let s1 : Seg := if pastGap then { s with objs := [], runs := [], seeds := [], chains := [], prev := none } else { s with objs := objs }
  let d1 := handOver (d.setSeg v { s1 with lostRun := n, split := [], last := some l, width := w }) v l (closed ++ s.split)
  let d2 := ((d1.count (F.SEGv_LINES.COUNT v)).count (F.SEGv_GAP_CLOSES.COUNT v) closed.length).raiseIf (0 < closed.length) (F.SEGv_FLAGS.GAP_CLOSE v)
  calMask (showOpen d2 v) v l none

/-- Line `l` is held for the counters of a join (R440): geometry keeps it in the view's store. -/
def heldLine (d : Device) (l : Int) : Bool := match d.basin.holdFrom with | some w => decide (w ≤ l) | none => false

/-- The join that this unit serves has reached its warm line at line `l` (R440). -/
def serveAt (d : Device) (l : Int) : Option JoinServe := d.pr.serve.filter (fun j => decide (j.warm ≤ l))

def Device.setServe (d : Device) (j : JoinServe) : Device := { d with pr := { d.pr with serve := some j } }

/-- Before view `v` takes line `l`: the object counter as it stands after line W − 1 is kept for the joining unit. -/
def serveView (d : Device) (v : Nat) (l : Int) : Device :=
  match serveAt d l with
  | some j => if j.views.any (fun e => e.1 = v) then d else d.setServe { j with views := j.views ++ [(v, d.get (F.SEGv_NEXT_ID.OBJ_ID v))] }
  | none => d

/-- SEG_LINE_PROCESS: the segmenter takes the next view line of geometry's store, where it is not a lost-line marker. -/
def segLineDev (v : Nat) (d0 : Device) : Device :=
  match (d0.view v).store with
  | { count := l, bands := some b } :: t =>
    if heldLine d0 l then d0 else let d := serveView d0 v l; segProcess (d.setView v { d.view v with store := t }) v l b
  | _ => d0

/-- SEG_LOST_LINE: the segmenter takes the next lost-line marker. -/
def segLostDev (v : Nat) (d0 : Device) : Device :=
  match (d0.view v).store with
  | { count := l, bands := none } :: t =>
    if heldLine d0 l then d0 else let d := serveView d0 v l; segLost (d.setView v { d.view v with store := t }) v l
  | _ => d0

end Sys2Proof.Machine
end

