-- ==== Sys2Proof/Machine/Basin.lean ====
section
/-! DEFINITION. Sighting formation (R161 to R166) and the entry of sightings into the flight matcher (R194, R195). -/

namespace Sys2Proof.Machine

/-! ## Pairs (R162) -/

/-- Last line of an object. -/
def Desc.last (x : Desc) : Int := x.first + x.lines - 1

/-- x-overlap of two objects in cells; at most 0 where they do not overlap. -/
def xOverlap (f r : Desc) : Int := (Nat.min f.xMax r.xMax : Int) - (Nat.max f.xMin r.xMin : Nat) + 1

/-- Lines in the intersection of two objects' spans. -/
def lineOverlap (f r : Desc) : Int :=
  let lo := if f.first < r.first then r.first else f.first
  let hi := if f.last < r.last then f.last else r.last
  hi - lo + 1

/-- WIDTH of an object's box. -/
def Desc.width (x : Desc) : Nat := x.xMax + 1 - x.xMin

/-- Two objects of one height qualify as a pair. -/
def qualifies (ovl : Nat) (f r : Desc) : Bool :=
  decide (0 < lineOverlap f r) && decide (0 < xOverlap f r) && decide ((ovl * Nat.min f.width r.width : Nat) ≤ 256 * xOverlap f r)

def pairScore (f r : Desc) : Int := xOverlap f r * lineOverlap f r

/-- Candidate `a` is better than `b` for the object `x`. -/
def betterFor (x a b : Desc) : Bool :=
  let sa := pairScore x a
  let sb := pairScore x b
  decide (sb < sa) || (sa == sb && (decide (a.xMin < b.xMin) || (a.xMin == b.xMin && idBefore a.id b.id)))

/-- The best candidate of `x` among the objects of the other view. -/
def bestFor (ovl : Nat) (x : Desc) (others : List Closed) : Option Desc :=
  others.foldl (fun m o => if ¬ qualifies ovl x o.desc then m else match m with
    | none => some o.desc
    | some b => if betterFor x o.desc b then some o.desc else some b) none

/-! ## Sightings (R165, Table 7.3) -/

/-- The sighting of one object of a height. -/
def singleSighting (h : Nat) (form : Int) (o : Closed) (forced : Bool) : Sighting :=
  let x := o.desc
  let front := x.view % 2 = 0
  { height := h, form := form, front := if front then some x else none, rear := if front then none else some x,
    xMin := x.xMin, xMax := x.xMax, first := x.first, lines := x.lines, area := x.area, cx := x.cx,
    centre := x.first + (x.cy / 16 : Nat), centreFrac := x.cy % 16,
    flags := x.flags + (if front then 0x100 else 0x200) + (if o.shared then 0x400 else 0) + (if forced then 0x800 else 0) }

/-- The sighting of a front and a rear object. -/
def pairSighting (h : Nat) (form : Int) (f r : Desc) : Sighting :=
  let first := if r.first < f.first then r.first else f.first
  let last := if f.last < r.last then r.last else f.last
  let y (x : Desc) : Int := 16 * (x.first - first) + x.cy
  let ys := rneDiv (f.area * y f + r.area * y r) (f.area + r.area)
  { height := h, form := form, front := some f, rear := some r,
    xMin := Nat.min f.xMin r.xMin, xMax := Nat.max f.xMax r.xMax, first := first, lines := capN 0xFFFF (last - first + 1).toNat,
    area := capN 0xFFFFFFFF (rneDiv (f.area + r.area : Nat) 2).toNat,
    cx := capN 0xFFFFF (rneDiv (f.area * f.cx + r.area * r.cx : Nat) (f.area + r.area)).toNat,
    centre := first + ys / 16, centreFrac := (ys % 16).toNat, flags := (f.flags ||| r.flags) + 0x300 }

/-- The member a sighting is ordered by: the one of the lower view number. -/
def Sighting.lead (s : Sighting) : Desc := match s.front, s.rear with | some f, _ => f | none, some r => r | none, none => {}

/-- Order of R166. -/
def sightBefore (a b : Sighting) : Bool :=
  if a.xMin ≠ b.xMin then decide (a.xMin < b.xMin)
  else if a.xMax ≠ b.xMax then decide (a.xMax < b.xMax)
  else if a.lead.view ≠ b.lead.view then decide (a.lead.view < b.lead.view)
  else idBefore a.lead.id b.lead.id

/-! ## Crossing times (R194) -/

/-- TS of a line that was never triggered: its t_L in free fall, the stamp of the first line triggered after it in belt mode. -/
def missingTs (d : Device) (c : Int) : Nat :=
  if d.bit F.TB_LINE_CFG.BELT then
    match d.tb.stamps.foldl (fun (m : Option LineStamp) s => if s.count ≤ c then m else match m with
        | none => some s
        | some x => if s.count < x.count then some s else some x) none with
    | some s => s.ts
    | none => tLine d c
  else tLine d c

/-- TS of line `c`. -/
def tsLine (d : Device) (c : Int) : Nat := match stampOf d c with | some s => s.ts | none => missingTs d c

/-- A sighting with its crossing time and edge times. -/
def timed (d : Device) (s : Sighting) : FlySight :=
  let t0 := tsLine d s.centre
  let step := sx 64 (wrapN 64 ((tsLine d (s.centre + 1) : Int) - t0))
  { s := s, t := wrapN 64 (t0 + rneDiv (s.centreFrac * step) 16), tF := tsLine d s.first, tB := tsLine d (s.first + s.lines - 1) }

/-! ## Flight arithmetic (R199) -/

/-- The integer nearest to √x. -/
def sqrtNearest (x : Nat) : Nat := let r := isqrt x; if r < x - r * r then r + 1 else r

/-- v² + round(2 × G × D × 2^16 / 1000). -/
def speedSq (g v dist : Nat) : Nat := v * v + (rneDiv (2 * g * dist * 65536 : Nat) 1000).toNat

/-- T(v, D) in ns: v in Q16.16 mm/s, D in µm (R199). -/
def fallTime (g v dist : Nat) : Nat :=
  let s := sqrtNearest (speedSq g v dist)
  if v + s = 0 then 0 else capN 0xFFFFFFFF (rneDiv (2 * dist * 1000000 * 65536 : Nat) (v + s)).toNat

/-- v_L from an upper speed (R204). -/
def lowerSpeed (g v dul : Nat) : Nat := capN 0xFFFFFFFF (sqrtNearest (speedSq g v dul))

/-- v_mean, or v_U of R203, from the time between the two crossings. -/
def meanSpeed (dul dt : Nat) : Nat := capN 0xFFFFFFFF (rneDiv (dul * 1000000 * 65536 : Nat) dt).toNat

/-- One ns in the unit of periods, 2^-32 ns. -/
def q32 : Nat := 2 ^ 32

/-- DT_MIN and DT_MAX in ns (R196). -/
def dtMin (cfg : Device) : Nat := fallTime (cfg.get F.FLY_GEFF.G) (cfg.get F.FLY_VMAX.VMAX) (cfg.get F.FLY_DUL.D_UL)
def dtMax (cfg : Device) : Nat := fallTime (cfg.get F.FLY_GEFF.G) (cfg.get F.FLY_VMIN.VMIN) (cfg.get F.FLY_DUL.D_UL)

/-- EXP_LINES (R195), exact: FLY_EXP shows it in 16 bits. -/
def expLines (cfg : Device) : Nat :=
  ceilDiv (dtMax cfg * q32) (Nat.max 1 (periodQ cfg)) + cfg.get F.BSN_CFG.LEN_MAX + cfg.get F.BSN_SIGHT.HOLD + 2

/-- FLY_UPPER follows the upper store. -/
def showUpper (d : Device) : Device :=
  let n := d.fly.upper.length
  (d.set F.FLY_UPPER.COUNT n).set F.FLY_UPPER.HWM (Nat.max n (d.get F.FLY_UPPER.HWM))

/-- An upper sighting enters the store; a full store evicts its oldest (R195). -/
def enterUpper (d : Device) (s : Sighting) : Device :=
  let e : UpperEntry := { f := timed d s, exp := s.centre + expLines (d.asOf s.form) }
  if d.fly.upper.length < 32768 then showUpper { d with fly := { d.fly with upper := d.fly.upper ++ [e] } }
  else
    let d1 := { d with fly := { d.fly with upper := d.fly.upper.drop 1 ++ [e] } }
    (showUpper (d1.count F.FLY_UPPER_EVICT.COUNT)).raise F.FLY_FLAGS.UPPER_EVICT

/-! ## Formation (R161 to R166) -/

/-- BSN_WAITv follows the waiting set. -/
def showWait (d : Device) (v peak : Nat) : Device :=
  (d.set (F.BSN_WAITv.WAIT v) (d.seg v).waiting.length).set (F.BSN_WAITv.HWM v) (Nat.max peak (d.get (F.BSN_WAITv.HWM v)))

/-- Order in which a full waiting set is forced (R164). -/
def forceBefore (a b : Closed) : Bool :=
  if a.closing ≠ b.closing then decide (a.closing < b.closing)
  else if a.desc.xMin ≠ b.desc.xMin then decide (a.desc.xMin < b.desc.xMin)
  else idBefore a.desc.id b.desc.id

/-- The objects closed up to line `c` join the waiting set of view `v`; what the set of 4,096 cannot hold is forced out (R164). -/
def joinWaiting (d : Device) (v : Nat) (c : Int) : Device × List Closed :=
  let s := d.seg v
  let new := s.queue.filter (fun o => decide (o.closing ≤ c))
  let forced := (sortBy forceBefore s.waiting).take (s.waiting.length + new.length - 4096)
  let d1 := d.setSeg v { s with
    queue := s.queue.filter (fun o => !decide (o.closing ≤ c)),
    waiting := s.waiting.filter (fun o => !forced.contains o) ++ new }
  (d1, forced)

/-- An object marked SHARED where it has a qualifying candidate (R163). -/
def markShared (ovl : Nat) (others : List Closed) (o : Closed) : Closed :=
  { o with shared := o.shared || others.any (fun x => qualifies ovl o.desc x.desc) }

/-- An object still waiting at line `c` forms a single-side sighting (R163). -/
def singleDue (cfg : Device) (otherOff : Bool) (c : Int) (o : Closed) : Bool :=
  let a := o.closing + cfg.get F.BSN_SIGHT.HOLD
  let b := o.desc.first + cfg.get F.BSN_CFG.LEN_MAX
  otherOff || decide ((if a < b then a else b) ≤ c)

/-- Sightings take SIGHT_IDs in emission order, are counted, and go to the flight matcher. -/
def emitSighting (d : Device) (s : Sighting) : Device :=
  let h := s.height
  let id := d.get (F.BSN_NEXT_h.SIGHT_ID h)
  let x := { s with id := id }
  let d1 := d.set (F.BSN_NEXT_h.SIGHT_ID h) (id + 1)
  let d2 := if s.front.isSome ∧ s.rear.isSome then d1.count (F.BSN_PAIRED_h.COUNT h) else d1.count (F.BSN_SINGLE_h.COUNT h)
  let d3 := if bitAt s.flags 10 then d2.count (F.BSN_SHARED_h.COUNT h) else d2
  if h = 0 then enterUpper d3 x else { d3 with fly := { d3.fly with lower := d3.fly.lower ++ [timed d3 x] } }

/-- View `v` has processed line `c`, with its history rows; every line of a disabled view counts as processed (R161). -/
def viewPassed (d : Device) (v : Nat) (c : Int) : Bool :=
  let x := d.view v
  let half : Bool := match x.half with | some l => decide (l.count ≤ c) && viewOn (d.asOf (l.count + 1)) v | none => false
  !x.due.any (fun e => decide (e.1 ≤ c)) && !x.store.any (fun l => decide (l.count ≤ c)) && !x.rows.any (fun r => decide (r.first ≤ c)) && !half

/-- A view that line `c` finds disabled closes its open objects (R157). -/
def flushDisabled (d : Device) (v : Nat) (c : Int) : Device :=
  if (d.seg v).width ≠ 0 ∧ ¬ viewOn (d.asOf c) v then
    let d1 := segFlush d v c
    d1.setSeg v { d1.seg v with width := 0, lostRun := 0 }
  else d

/-- The sightings of line `c` at height `h`. -/
def formLine (d0 : Device) (h : Nat) (c : Int) : Device :=
  let fv := 2 * h
  let rv := 2 * h + 1
  let cfg := d0.asOf c
  let ovl := cfg.get F.BSN_SIGHT.OVL_MIN
  let d1 := flushDisabled (flushDisabled d0 fv c) rv c
  let (d2, forcedF) := joinWaiting d1 fv c
  let (d3, forcedR) := joinWaiting d2 rv c
  let wf0 := (d3.seg fv).waiting
  let wr0 := (d3.seg rv).waiting
  let wf := wf0.map (markShared ovl wr0)
  let wr := wr0.map (markShared ovl wf0)
  let pairs := wf.filterMap (fun f => match bestFor ovl f.desc wr with
    | none => none
    | some r => if bestFor ovl r wf = some f.desc then some (f.desc, r) else none)
  let leftF := wf.filter (fun o => !pairs.any (fun p => p.1 == o.desc))
  let leftR := wr.filter (fun o => !pairs.any (fun p => p.2 == o.desc))
  let dueF := leftF.filter (singleDue cfg (!viewOn cfg rv) c)
  let dueR := leftR.filter (singleDue cfg (!viewOn cfg fv) c)
  let d4 := d3.setSeg fv { d3.seg fv with waiting := leftF.filter (fun o => !dueF.contains o) }
  let d5 := d4.setSeg rv { d4.seg rv with waiting := leftR.filter (fun o => !dueR.contains o) }
  let d6 := showWait (showWait d5 fv wf0.length) rv wr0.length
  let nForced := forcedF.length + forcedR.length
  let d7 := (d6.count (F.BSN_FORCED_h.COUNT h) nForced).raiseIf (0 < nForced) (F.BSN_FLAGS.FORCED_h.bitN h)
  let all := pairs.map (fun p => pairSighting h c p.1 p.2) ++ (dueF ++ dueR).map (fun o => singleSighting h c o false)
    ++ (forcedF ++ forcedR).map (fun o => singleSighting h c o true)
  (sortBy sightBefore all).foldl emitSighting d7

/-- Lines of height `h` that wait for sighting formation, oldest first. -/
def Device.formQ (d : Device) (h : Nat) : List Int := d.basin.formQ[h]?.getD []

/-- Before height `h` forms line `c`: its sighting counter as it stands after line W − 1 is kept for the joining unit (R440). -/
def serveHeight (d : Device) (h : Nat) (c : Int) : Device :=
  match serveAt d c with
  | some j => if j.heights.any (fun e => e.1 = h) then d else d.setServe { j with heights := j.heights ++ [(h, d.get (F.BSN_NEXT_h.SIGHT_ID h))] }
  | none => d

/-- SIGHTING_FORMATION: formation of the next line of height `h`, once both views have processed it, its history rows are complete and
its stamp is recorded; upper before lower (R161, R166). The matcher steps once the lower height has finished the line, and no later upper
sighting enters the store before that, so that the outcome depends on the sightings alone (R198). -/
def formationDev (h : Nat) (d : Device) : Device :=
  match d.formQ h with
  | [] => d
  | c :: rest =>
    let ready := viewPassed d (2 * h) c && viewPassed d (2 * h + 1) c && !d.tb.unstamped.any (fun u => decide (u.1 ≤ c))
      && (if h = 0 then !(d.formQ 1).any (fun x => decide (x < c)) && !d.fly.stepQ.any (fun x => decide (x < c))
          else !(d.formQ 0).any (fun x => decide (x ≤ c)))
    if heldLine d c ∨ ¬ ready then d
    else
      let d1 := formLine (serveHeight d h c) h c
      let d2 := { d1 with basin := { d1.basin with formQ := withUnit d1.basin.formQ h rest } }
      if h = 0 then d2 else { d2 with fly := { d2.fly with stepQ := d2.fly.stepQ ++ [c] } }

/-- Sighting formation has work at line `c`: a view enabled for it or for the line before, or sightings on their way. -/
def formWanted (d : Device) (c : Int) : Bool :=
  (List.range 4).any (fun v => viewOn (d.asOf c) v || viewOn (d.asOf (c - 1)) v || (d.seg v).width != 0)
    || !d.fly.upper.isEmpty || !d.fly.restarts.isEmpty || (List.range 4).any (fun v => !(d.seg v).waiting.isEmpty)

/-- Line `c` is triggered: it awaits sighting formation at both heights. In the safe state nothing forms
(Table 22.3). -/
def formTrigger (d : Device) (c : Int) : Device :=
  if d.safe ∨ ¬ formWanted d c then d
  else { d with basin := { d.basin with formQ := d.basin.formQ.map (· ++ [c]) } }

/-- Open objects, seeds, waiting objects, sightings and the upper store are discarded without being judged (Table 22.3, Vision; R440). -/
def clearObjects (d : Device) : Device :=
  let d1 := (List.range 4).foldl (fun d v =>
    let s := d.seg v
    showWait (showOpen (d.setSeg v { s with objs := [], prev := none, runs := [], seeds := [], chains := [], split := [], queue := [], waiting := [] }) v) v 0) d
  showUpper { d1 with fly := { d1.fly with upper := [], lower := [] } }

def execSightingFormation (h : Fin 2) (s : State) : Outcome := s.done (formationDev h s.dev)
def execSegLineProcess (v : Fin 4) (s : State) : Outcome := s.done (segLineDev v s.dev)
def execSegLostLine (v : Fin 4) (s : State) : Outcome := s.done (segLostDev v s.dev)

end Sys2Proof.Machine
end

