-- ==== Sys2Proof/Machine/CrcUnit.lean ====
section
/-! DEFINITION. The user CRC units (R378 to R381). A pair of registers holds its 64 bits as written; bits above W are read as 0 and
take no part, so that a context can be restored in any order (notes/assumptions 60). -/

namespace Sys2Proof.Machine

/-- The pairs of a unit: POLY, INIT, XOR, STATE, RESULT, PREFIX, as the address of their _LO register. -/
def crcPairLo (u pair : Nat) : Nat :=
  match pair with
  | 0 => R.CRCu_POLY_LO u | 1 => R.CRCu_INIT_LO u | 2 => R.CRCu_XOR_LO u
  | 3 => R.CRCu_STATE_LO u | 4 => R.CRCu_RESULT_LO u | _ => R.CRCu_PREFIX_LO u

/-- W of the unit. -/
def crcW (d : Device) (u : Nat) : Nat := d.get (F.CRCu_CFG.WIDTH_M1 u) + 1

/-- A pair as it takes part: the low W bits, and all 64 of PREFIX. -/
def crcPair (d : Device) (u pair : Nat) : Nat :=
  let v := d.pair (crcPairLo u pair) (crcPairLo u pair + 4)
  if pair = 5 then v else v % 2 ^ crcW d u

/-- The `n` bits of `x` in reverse order. -/
def revBits : Nat → Nat → Nat
  | 0, _ => 0
  | n + 1, x => (x % 2) * 2 ^ n + revBits n (x / 2)

/-- One bit of a byte into r (R378), for bits 7 to 0. -/
def crcStep (w poly : Nat) (b : Nat) (r i : Nat) : Nat :=
  let f := xor (bitAt b i) (bitAt r (w - 1))
  let r1 := (2 * r) % 2 ^ w
  if f then r1 ^^^ poly else r1

/-- One byte into r (R378). -/
def crcTake (w poly : Nat) (refin : Bool) (r b : Nat) : Nat :=
  let c := if refin then revBits 8 b else b
  [7, 6, 5, 4, 3, 2, 1, 0].foldl (crcStep w poly c) r

/-- RESULT from r (R378). -/
def crcResult (d : Device) (u : Nat) : Nat :=
  let r := crcPair d u 3
  (if d.bit (F.CRCu_CFG.REFOUT u) then revBits (crcW d u) r else r) ^^^ crcPair d u 2

/-- RESULT follows r, CFG and XOROUT. -/
def crcShow (d : Device) (u : Nat) : Device := d.setPair (R.CRCu_RESULT_LO u) (R.CRCu_RESULT_HI u) (crcResult d u)

/-- r takes in bytes. -/
def crcBytes (d : Device) (u : Nat) (bs : List Nat) : Device :=
  let r := bs.foldl (crcTake (crcW d u) (crcPair d u 0) (d.bit (F.CRCu_CFG.REFIN u))) (crcPair d u 3)
  crcShow (d.setPair (R.CRCu_STATE_LO u) (R.CRCu_STATE_HI u) r) u

/-- The low `n` bytes of a word, least significant first. -/
def lowBytes (n v : Nat) : List Nat := (leBytes n v).map BitVec.toNat

/-- A write of CRCu_DATA8, DATA16 or DATA32: size 0, 1 or 2 (R379). -/
def crcDataDev (u size : Nat) (w : Word) (d : Device) : Device := crcBytes d u (lowBytes (2 ^ size) w.toNat)

/-- Bytes of the prefix that PFX_LEN selects (R380). -/
def prefixLen (c : Nat) : Nat := match c with | 1 => 1 | 2 => 2 | 3 => 4 | 4 => 8 | _ => 0

/-- A write of START begins a block (R380). -/
def crcStartDev (u : Nat) (d : Device) : Device :=
  let p := crcPair d u 5
  let d1 := crcBytes (d.setPair (R.CRCu_STATE_LO u) (R.CRCu_STATE_HI u) (crcPair d u 1)) u
    (lowBytes (prefixLen (d.get (F.CRCu_CFG.PFX_LEN u))) p)
  if d.bit (F.CRCu_CFG.AUTO_INC u) then d1.setPair (R.CRCu_PREFIX_LO u) (R.CRCu_PREFIX_HI u) (p + 1) else d1

/-- A write of one half of a pair (R381): _HI is held, _LO writes both halves at once. RESULT cannot be written. -/
def crcPairDev (u pair : Nat) (hi : Bool) (w : Word) (d : Device) : Device :=
  let x := unit d.crc u
  if pair = 4 then d
  else if hi then { d with crc := withUnit d.crc u { x with held := withUnit x.held pair w } }
  else
    let h : Word := x.held[pair]?.getD 0#32
    crcShow ((d.wr (crcPairLo u pair) w).wr (crcPairLo u pair + 4) h) u

/-- A read of the _LO register of a pair captures both halves (R381); the _HI register then reads the captured half. -/
def crcReadDev (u pair : Nat) (hi : Bool) (d : Device) : Device :=
  let x := unit d.crc u
  let v := crcPair d u pair
  if hi then d.reply (match (x.captured[pair]?.getD none : Option Word) with | some w => w.toNat | none => v / 2 ^ 32)
  else
    let y : CrcUnit := { x with captured := withUnit x.captured pair (some (BitVec.ofNat 32 (v / 2 ^ 32))) }
    { d with crc := withUnit d.crc u y }.reply (v % 2 ^ 32)

/-- A write of CRCu_CFG: it takes effect and r is reduced modulo 2^W, or CFG_REJ for a width below 8 (R378, R381). -/
def crcCfgDev (u : Nat) (w : Word) (d : Device) : Device :=
  if (F.CRCu_CFG.WIDTH_M1 u).of w < 7 then d.raise F.CRC_FLAGS.CFG_REJ
  else
    let d1 := d.wr (R.CRCu_CFG u) (w &&& 0xFC00003F#32)
    crcShow (d1.setPair (R.CRCu_STATE_LO u) (R.CRCu_STATE_HI u) (crcPair d1 u 3)) u

def execCrcDataWrite (u : Fin 8) (size : Fin 3) (value : Word) (s : State) : Outcome :=
  s.done (regAccess (R.CRCu_DATA8 u) true (crcDataDev u size value) s.dev)
def execCrcStart (u : Fin 8) (s : State) : Outcome := s.done (regAccess (R.CRCu_CTRL u) true (crcStartDev u) s.dev)
def execCrcStateWrite (u : Fin 8) (pair : Fin 6) (hi : Bool) (value : Word) (s : State) : Outcome :=
  s.done (regAccess (R.CRCu_CTRL u) true (crcPairDev u pair hi value) s.dev)
def execCrcCfgWrite (u : Fin 8) (value : Word) (s : State) : Outcome := s.done (regAccess (R.CRCu_CFG u) true (crcCfgDev u value) s.dev)

end Sys2Proof.Machine
end

