-- ==== Sys2Proof/Machine/DmaOps.lean ====
section
/-! DEFINITION. DMA channels: checks, starts, the shadow, pause and abort (R363 to R375), without the movement of data. -/

namespace Sys2Proof.Machine

/-- States of DMAc_STATUS.STATE. -/
def dmIdle : Nat := 0
def dmWait : Nat := 1
def dmRun : Nat := 2
def dmDrain : Nat := 3
def dmPaused : Nat := 4
def dmHalted : Nat := 5

def Device.dmaState (d : Device) (c : Nat) : Nat := d.get (F.DMAc_STATUS.STATE c)
/-- What a channel holds beside its registers, changed by `f`. -/
def Device.withChan (d : Device) (c : Nat) (f : DmaChan → DmaChan) : Device := { d with dma := withUnit d.dma c (f (unit d.dma c)) }

/-- Identity of the DMA master (Table 16.2). -/
def dmaMaster : Nat := 5

/-- The channel enters a state; a domain no longer waits for it in IDLE, PAUSED and HALTED (R375). -/
def setDma (d : Device) (c st : Nat) : Device :=
  let d1 := d.set (F.DMAc_STATUS.STATE c) st
  if st = dmWait ∨ st = dmRun ∨ st = dmDrain then d1 else d1.withChan c (fun x => { x with leaving := none })

/-- Live fields of a channel. -/
def dmaSrc (d : Device) (c : Nat) : Nat := d.pair (R.DMAc_SRC_LO c) (R.DMAc_SRC_HI c)
def dmaDst (d : Device) (c : Nat) : Nat := d.pair (R.DMAc_DST_LO c) (R.DMAc_DST_HI c)
def dmaLen (d : Device) (c : Nat) : Nat := (d.rd (R.DMAc_LEN c)).toNat
def dmaSize (d : Device) (c : Nat) : Nat := 2 ^ d.get (F.DMAc_CFG.ESIZE c)

/-- R363 and the alignment rule of R369 on the fields with CFG at `cfg` and SRC, DST, LEN as given. -/
def dmaOk (d : Device) (cfg src dst len : Nat) : Bool :=
  let w := (d.rd cfg).toNat
  let e := 2 ^ bitsOf w 25 24
  len != 0 && src % e == 0 && dst % e == 0 && len % e == 0 && bitsOf w 30 29 != 3
    && (!bitAt w 28 || (dst + len) % 4 == 0)

/-- The live fields pass the checks. -/
def dmaLiveOk (d : Device) (c : Nat) : Bool := dmaOk d (R.DMAc_CFG c) (dmaSrc d c) (dmaDst d c) (dmaLen d c)

/-- A flag of the channel is set. -/
def dmaFlag (d : Device) (f : Fld) : Device := d.raise f

/-- The transfer begins: the check value starts anew or chains, and PAUSE holds it before its first read (R368, R372). -/
def dmaBegin (d : Device) (c : Nat) : Device :=
  let chain := d.bit (F.DMAc_CFG.CSUM_CHAIN c)
  let d1 := (if chain then d else d.wr (R.DMAc_CSUM c) 0#32).withChan c (fun x =>
    { x with pos := if chain then x.pos else 0, data := [], waited := 0, summed := false, began := some d.tb.edges, halting := none })
  setDma d1 c (if d.bit (F.DMAc_CTRL.PAUSE c) then dmPaused else dmRun)

/-- The transfer of the live fields starts, or waits for its rill (R365). -/
def dmaEnter (d : Device) (c : Nat) : Device := if d.bit (F.DMAc_CFG.TRIG_EN c) then setDma d c dmWait else dmaBegin d c

/-- The transfer of a channel in WAIT starts. -/
def dmaTrigger (d : Device) (c : Nat) : Device := (dmaBegin d c).withChan c (fun x => { x with trigAt := some d.tb.edges })

/-- The channel left WAIT in this very cycle: START and an event of the rill are one start (Table 17.1). -/
def dmaOneStart (d : Device) (c : Nat) : Bool :=
  (unit d.dma c).trigAt == some d.tb.edges && (d.dmaState c == dmRun || d.dmaState c == dmPaused)

/-- A write of START (R365). -/
def dmaStartDev (c : Nat) (d : Device) : Device :=
  let st := d.dmaState c
  if st = dmIdle ∨ st = dmHalted then
    if dmaLiveOk d c then dmaEnter d c else dmaFlag d (F.DMAc_FLAGS.CFG_REJ c)
  else if st = dmWait then dmaTrigger d c
  else if dmaOneStart d c then d
  else dmaFlag d (F.DMAc_FLAGS.CFG_REJ c)

/-- An event on rill `r` reaches the channels that select it (R365). -/
def dmaOnRill (d : Device) (r : Nat) : Device :=
  (List.range 16).foldl (fun d c =>
    if d.bit (F.DMAc_CFG.TRIG_EN c) ∧ d.get (F.DMAc_CFG.TRIG_RILL c) = r then
      if d.dmaState c = dmWait then dmaTrigger d c else if dmaOneStart d c then d else dmaFlag d (F.DMAc_FLAGS.TRIG_MISS c)
    else d) d

/-- Bits of a CFG register that exist. -/
def dmaCfgMask : Word := 0xFF0381FF#32

/-- A write of a live field (R366): SRC_LO, SRC_HI, DST_LO, DST_HI, LEN or CFG. -/
def dmaFieldDev (c k : Nat) (w : Word) (d : Device) : Device :=
  let st := d.dmaState c
  if st = dmIdle ∨ st = dmHalted ∨ st = dmPaused then
    d.wr (if k = 5 then R.DMAc_CFG c else R.DMAc_SRC_LO c + 4 * k) (if k = 5 then w &&& dmaCfgMask else w)
  else dmaFlag d (F.DMAc_FLAGS.CFG_REJ c)

/-- A write of a shadow field (R370). -/
def dmaShadowDev (c k : Nat) (w : Word) (d : Device) : Device :=
  if d.bit (F.DMAc_STATUS.SHADOW_VALID c) then dmaFlag d (F.DMAc_FLAGS.SHADOW_REJ c)
  else d.wr (if k = 5 then R.DMAc_SH_CFG c else R.DMAc_SH_SRC_LO c + 4 * k) (if k = 5 then w &&& dmaCfgMask else w)

/-- A write of ARM (R370). -/
def dmaArmDev (c : Nat) (d : Device) : Device :=
  if d.bit (F.DMAc_STATUS.SHADOW_VALID c) then dmaFlag d (F.DMAc_FLAGS.SHADOW_REJ c)
  else if dmaOk d (R.DMAc_SH_CFG c) (d.pair (R.DMAc_SH_SRC_LO c) (R.DMAc_SH_SRC_HI c))
      (d.pair (R.DMAc_SH_DST_LO c) (R.DMAc_SH_DST_HI c)) (d.rd (R.DMAc_SH_LEN c)).toNat then d.set (F.DMAc_STATUS.SHADOW_VALID c) 1
  else dmaFlag d (F.DMAc_FLAGS.CFG_REJ c)

/-- PAUSE := 1 (R372). A transfer that starts in the same cycle enters PAUSED before its first read (Table 17.1). -/
def dmaPauseDev (c : Nat) (d : Device) : Device :=
  let d1 := d.set (F.DMAc_CTRL.PAUSE c) 1
  if d.dmaState c = dmRun then setDma d1 c (if (unit d.dma c).began = some d.tb.edges then dmPaused else dmDrain) else d1

/-- PAUSE := 0 (R372). -/
def dmaResumeDev (c : Nat) (d : Device) : Device :=
  let d1 := d.set (F.DMAc_CTRL.PAUSE c) 0
  if (d.dmaState c = dmDrain ∧ (unit d.dma c).halting = none) ∨ d.dmaState c = dmPaused then setDma d1 c dmRun else d1

/-- Read data that no write has taken are discarded, and with them a halt that waited for their writes. -/
def dmaDiscard (d : Device) (c : Nat) : Device := d.withChan c (fun x => { x with data := [], halting := none })

/-- The responses of the channel's issued writes have returned. -/
def dmaReturned (d : Device) (c : Nat) : Device := { d with dmaOut := d.dmaOut.filter (fun w => w.1 ≠ c) }

/-- The channel has taken the abort and its issued writes have returned (R373). In the cycle of a bus error it is ignored (Table 17.1). -/
def dmaAborted (d : Device) (c : Nat) : Device :=
  let d1 := d.set (F.DMAc_STATUS.SHADOW_VALID c) 0
  let st := d.dmaState c
  if st = dmHalted ∧ (unit d.dma c).failAt = some d.tb.edges then d
  else if st = dmIdle ∨ st = dmHalted then d1
  else dmaFlag (setDma (dmaReturned (dmaDiscard d1 c) c) c dmIdle) (F.DMAc_FLAGS.ABORTED c)

/-- The shadow becomes live at a completion, or the channel goes idle (R371). -/
def dmaHandOver (d : Device) (c : Nat) : Device :=
  if d.bit (F.DMAc_STATUS.SHADOW_VALID c) then
    let d1 := (List.range 5).foldl (fun d k => d.wr (R.DMAc_SRC_LO c + 4 * k) (d.rd (R.DMAc_SH_SRC_LO c + 4 * k))) d
    let d2 := (d1.wr (R.DMAc_CFG c) (d1.rd (R.DMAc_SH_CFG c))).set (F.DMAc_STATUS.SHADOW_VALID c) 0
    dmaEnter (dmaFlag d2 (F.DMAc_FLAGS.HANDOVER c)) c
  else setDma d c dmIdle

/-- A completed transfer: DONE, DMAc_XFERS, source and rill, then the hand-over (R367). -/
def dmaCompleted (d : Device) (c : Nat) : Device :=
  dmaHandOver (dmaFlag ((d.count (F.DMAc_XFERS.V c)).emit (142 + c) d.nowNs) (F.DMAc_FLAGS.DONE c)) c

/-- The channel halts with a flag and latches an address, direction and cause unless VALID is set (R374, R375). -/
def dmaHalt (d : Device) (c : Nat) (flag : Fld) (addr : Nat) (write : Bool) (cause : Nat) : Device :=
  let d0 := (dmaReturned (dmaDiscard d c) c).withChan c (fun x => { x with failAt := some d.tb.edges })
  let d1 := dmaFlag (setDma d0 c dmHalted) flag
  if d.bit (F.DMAc_ERR_INFO.VALID c) then d1
  else (((d1.setPair (R.DMAc_ERR_ADDR_LO c) (R.DMAc_ERR_ADDR_HI c) addr).setBit (F.DMAc_ERR_INFO.WRITE c) write).set
    (F.DMAc_ERR_INFO.CAUSE c) cause).set (F.DMAc_ERR_INFO.VALID c) 1

/-- An access of a running channel ends with a bus error outside the control view's own answer: it is latched (R353), and the channel halts,
after a read once the data that it holds have been written (R374). -/
def dmaStops (d : Device) (c addr : Nat) (write : Bool) (cause : Nat) : Device :=
  if d.dmaState c ≠ dmRun ∧ d.dmaState c ≠ dmDrain then d
  else
    let d1 := latchBusError d dmaMaster addr write causeRefused
    if write ∨ (unit d.dma c).data = [] then dmaHalt d1 c (F.DMAc_FLAGS.BUS_ERR c) addr write cause
    else (setDma d1 c dmDrain).withChan c (fun x => { x with halting := some (addr, cause) })

/-- A DRAM read of channel `c` at `addr` is uncorrectable: the channel halts under R374, with CAUSE 1 (Table 13.5, MP5). -/
def dmaFail (d : Device) (c addr : Nat) : Device := dmaStops d c addr false 1

/-- Channels whose source or destination lies in [lo, hi), the area of domain `k`, pause before that domain goes down (R375). -/
def dmaDomainPause (d : Device) (k lo hi : Nat) : Device :=
  (List.range 16).foldl (fun d c =>
    let st := d.dmaState c
    let inside (a : Nat) : Bool := decide (lo ≤ a ∧ a < hi)
    if (st = dmWait ∨ st = dmRun ∨ st = dmDrain) ∧ (inside (dmaSrc d c) ∨ inside (dmaDst d c)) then
      let d1 := (if st = dmRun then setDma d c dmDrain else d).set (F.DMAc_CTRL.PAUSE c) 1
      dmaFlag (d1.withChan c (fun x => { x with leaving := some k })) (F.DMAc_FLAGS.DOMAIN_PAUSE c)
    else d) d

/-- What DMA_PENDING reads. -/
def dmaPending (d : Device) : Nat := ((List.range 16).map (fun c => if d.rd (R.DMAc_FLAGS c) ≠ 0#32 then 2 ^ c else 0)).sum

def execDmaStart (c : Fin 16) (s : State) : Outcome := s.done (regAccess (R.DMAc_CTRL c) true (dmaStartDev c) s.dev)
def execDmaFieldWrite (c : Fin 16) (field : Fin 6) (value : Word) (s : State) : Outcome :=
  s.done (regAccess (R.DMAc_CFG c) true (dmaFieldDev c field value) s.dev)
def execDmaShadowWrite (c : Fin 16) (field : Fin 6) (value : Word) (s : State) : Outcome :=
  s.done (regAccess (R.DMAc_SH_CFG c) true (dmaShadowDev c field value) s.dev)
def execDmaArm (c : Fin 16) (s : State) : Outcome := s.done (regAccess (R.DMAc_SH_CTRL c) true (dmaArmDev c) s.dev)
def execDmaPause (c : Fin 16) (s : State) : Outcome := s.done (regAccess (R.DMAc_CTRL c) true (dmaPauseDev c) s.dev)
def execDmaResume (c : Fin 16) (s : State) : Outcome := s.done (regAccess (R.DMAc_CTRL c) true (dmaResumeDev c) s.dev)

end Sys2Proof.Machine
end

