-- ==== Sys2Proof/Machine/KcpOps.lean ====
section
/-! DEFINITION. Sessions and replies of the KCP server (R311 to R318). -/

namespace Sys2Proof.Machine

def Device.withEth (d : Device) (e : Eth) : Device := { d with eth := e }

def Device.session (d : Device) (id : Nat) : Option Session := d.eth.sessions.find? (fun s => s.id == id)

/-- The session with the same id is replaced. -/
def setSession (d : Device) (x : Session) : Device :=
  d.withEth { d.eth with sessions := d.eth.sessions.map (fun s => if s.id == x.id then x else s) }

/-! ## STATUS codes (Table 14.6) -/

def kcOk : Nat := 0
def kcPending : Nat := 1
def kcUnknownType : Nat := 2
def kcBadLength : Nat := 3
def kcDenied : Nat := 4
def kcBadSession : Nat := 5
def kcBadSeq : Nat := 6
def kcBusy : Nat := 7
def kcStageBusy : Nat := 8
def kcNotActive : Nat := 9
def kcRefused : Nat := 10
def kcNoSessions : Nat := 11
def kcBadArg : Nat := 12
def kcBusError : Nat := 13

/-! ## Messages -/

/-- The header of Table 14.4 with TYPE `type`. -/
def kcpHeader (type session seq len : Nat) : List Byte :=
  leBytes 2 0x4B43 ++ leBytes 1 1 ++ leBytes 1 type ++ leBytes 4 session ++ leBytes 4 seq ++ leBytes 4 len

/-- The reply to a request: its tag under `key` where the session is authenticated (R317). -/
def kcpReply (key : Option (List Byte)) (code session seq status : Nat) (body : List Byte) : KcpReply :=
  let full := leBytes 4 status ++ body
  let tag := match key with
    | some k => hmac k (kcpHeader (0x80 + 0x40 + code) session seq full.length ++ full)
    | none => []
  { code := code, session := session, seq := seq, status := status, body := body, tag := tag }

/-- The bytes of a reply as it goes out. -/
def replyBytes (r : KcpReply) : List Byte :=
  let full := leBytes 4 r.status ++ r.body
  kcpHeader (0x80 + (if r.tag.isEmpty then 0 else 0x40) + r.code) r.session r.seq full.length ++ full ++ r.tag

/-- A final reply of a session is stored for the last 16 requests (R318). -/
def storeReply (d : Device) (x : Session) (r : KcpReply) : Device :=
  setSession d { x with pending := false, replies := (r :: x.replies.filter (fun q => q.seq ≠ r.seq)).take 16 }

/-- The pending request of a session ends: its final reply waits for a repeat of the same SEQ. -/
def pendingEnds (d : Device) (sid code status : Nat) (body : List Byte) : Device :=
  match d.session sid with
  | some x => if x.pending then storeReply d x (kcpReply x.key code sid x.last status body) else d
  | none => d

end Sys2Proof.Machine
end

