-- ==== Sys2Proof/Machine/EthOps.lean ====
section
/-! DEFINITION. The Ethernet link and its configuration registers (R300 to R303, Tables 14.1, 14.9, 14.10). -/

namespace Sys2Proof.Machine

/-- PHY_STATE while the link is down: DOWN with the port disabled, AN in MODE 0, TRAINING in MODE 1, ALIGNING in MODE 2. -/
def phyDown (d : Device) : Nat := if d.bit F.ETH_CFG.EN then d.get F.ETH_CFG.MODE + 1 else 0

/-- Auto-negotiation in MODE 0 advertises 100GBASE-KR4 and 100GBASE-CR4, the RS-FEC request and the pause abilities (R301). -/
def advertise (d : Device) : Device :=
  let a : Advert := { pauseRx := d.bit F.ETH_CFG.PAUSE_RX, pauseTx := d.bit F.ETH_CFG.PAUSE_TX }
  d.withEth { d.eth with advert := if d.bit F.ETH_CFG.EN ∧ d.get F.ETH_CFG.MODE = 0 then some a else none }

/-- The link is not up: no PCS, FEC or negotiation result holds, no PAUSE holds, and what the stream engines had ready is discarded
(R302). -/
def linkClear (d : Device) : Device :=
  let d1 := ((((d.setBit F.ETH_STATUS.LINK false).setBit F.ETH_STATUS.FEC_LOCK false).setBit F.ETH_STATUS.ALIGNED false).setBit
    F.ETH_STATUS.AN_DONE false).setBit F.ETH_STATUS.PAUSED false
  (d1.set F.ETH_STATUS.PHY_STATE (phyDown d)).withEth { d.eth with objOut := [], capOut := [], pauseOut := [], stopped := false }

/-- LINK_UP: the PCS is aligned and the RS-FEC locked. -/
def linkUpDev (d : Device) : Device :=
  if ¬ d.bit F.ETH_CFG.EN ∨ d.bit F.ETH_STATUS.LINK then d
  else
    let d1 := (((d.setBit F.ETH_STATUS.LINK true).setBit F.ETH_STATUS.FEC_LOCK true).setBit F.ETH_STATUS.ALIGNED true).setBit
      F.ETH_STATUS.AN_DONE (d.get F.ETH_CFG.MODE = 0)
    (d1.set F.ETH_STATUS.PHY_STATE 4).raise F.ETH_FLAGS.LINK_UP

/-- LINK_DOWN. -/
def linkDownDev (d : Device) : Device := if d.bit F.ETH_STATUS.LINK then (linkClear d).raise F.ETH_FLAGS.LINK_DOWN else d

/-- AN_FAIL: the partner does not resolve to a 100G PHY with RS-FEC in MODE 0; auto-negotiation restarts (R301). -/
def anFailDev (d : Device) : Device :=
  if d.bit F.ETH_CFG.EN ∧ d.get F.ETH_CFG.MODE = 0 ∧ ¬ d.bit F.ETH_STATUS.LINK then
    (advertise ((d.setBit F.ETH_STATUS.AN_DONE false).set F.ETH_STATUS.PHY_STATE 1)).raise F.ETH_FLAGS.AN_FAIL
  else d

/-- A write of ETH_CFG: one with MODE = 3 is ignored with CFG_REJ; disabling the port takes the link down (Table 14.1). -/
def ethCfgDev (w : Word) (d : Device) : Device :=
  if F.ETH_CFG.MODE.of w = 3 then d.raise F.ETH_FLAGS.CFG_REJ
  else
    let d1 := advertise (d.wr R.ETH_CFG (w &&& 0x8000030E#32))
    if d.bit F.ETH_STATUS.LINK then if d1.bit F.ETH_CFG.EN then d1 else linkDownDev d1
    else d1.set F.ETH_STATUS.PHY_STATE (phyDown d1)

/-- A write of ETH_MTU: 1,280 to 9,194, or CFG_REJ. -/
def ethMtuDev (w : Word) (d : Device) : Device :=
  let v := F.ETH_MTU.MTU.of w
  if 1280 ≤ v ∧ v ≤ 9194 then d.set F.ETH_MTU.MTU v else d.raise F.ETH_FLAGS.CFG_REJ

/-- The register at `a` is a BASE or SIZE register of a ring; the SIZE register of that ring. -/
def ringSize (a : Nat) : Option Nat :=
  if 0x100A0100 ≤ a ∧ a < 0x100A0160 ∧ (a - 0x100A0100) % 0x20 < 12 then some ((a - 0x100A0100) / 0x20 * 0x20 + 0x100A0108)
  else if 0x100A0180 ≤ a ∧ a < 0x100A018C then some 0x100A0188
  else none

/-- The ring whose SIZE register is at `s` is enabled. -/
def ringOn (d : Device) (s : Nat) : Bool := bitAt (d.rd s).toNat 31

/-! ## Receive rings (R307) and the PAUSE that they ask for (R304) -/

/-- Slots of receive ring `q`. -/
def rxSlots (d : Device) (q : Nat) : Nat := 2 ^ d.get (F.ETH_RXQq_SIZE.SLOTS_LOG2 q)

/-- Filled slots of receive ring `q`. -/
def rxLevel (d : Device) (q : Nat) : Nat :=
  (d.get (F.ETH_RXQq_HEAD.HEAD q) + rxSlots d q - d.get (F.ETH_RXQq_TAIL.TAIL q) % rxSlots d q) % rxSlots d q

/-- An enabled receive ring is filled to at least `num`/`den` of its slots. -/
def rxReaches (d : Device) (num den : Nat) : Bool :=
  (List.range 3).any (fun q => d.bit (F.ETH_RXQq_SIZE.EN q) && decide (num * rxSlots d q ≤ den * rxLevel d q))

/-- PAUSE frames that the levels of the receive rings ask for: QUANTA from 75 % of a ring on, 0 once all are below 50 %. -/
def pauseCheck (d : Device) : Device :=
  let e := d.eth
  if ¬ d.bit F.ETH_CFG.PAUSE_TX ∨ ¬ d.bit F.ETH_STATUS.LINK then d
  else if ¬ e.stopped ∧ rxReaches d 3 4 then
    d.withEth { e with stopped := true, pauseOut := e.pauseOut ++ [d.get F.ETH_PAUSE.QUANTA] }
  else if e.stopped ∧ ¬ rxReaches d 1 2 then d.withEth { e with stopped := false, pauseOut := e.pauseOut ++ [0] }
  else d

/-- A write of TAIL of receive ring `q` frees slots. -/
def rxTailDev (q : Nat) (w : Word) (d : Device) : Device :=
  pauseCheck (d.set (F.ETH_RXQq_TAIL.TAIL q) ((F.ETH_RXQq_TAIL.TAIL q).of w))

def execLinkDown (s : State) : Outcome := s.done (linkDownDev s.dev)
def execAnFail (s : State) : Outcome := s.done (anFailDev s.dev)

end Sys2Proof.Machine
end

