-- ==== Sys2Proof/Machine/Dram.lean ====
section
/-! DEFINITION. External DRAM (R282 to R299): addresses, queues, arbitration, errors, refresh and training. -/

namespace Sys2Proof.Machine

def Device.ctl (d : Device) (n : Nat) : MemCtl := unit d.dram.ctl n
def Device.setCtl (d : Device) (n : Nat) (x : MemCtl) : Device := { d with dram := { d.dram with ctl := withUnit d.dram.ctl n x } }

/-- States of MEMn_STATUS.STATE. -/
def msOff : Nat := 0
def msTrain : Nat := 2
def msRun : Nat := 3
def msFail : Nat := 4

def Device.memState (d : Device) (n : Nat) : Nat := d.get (F.MEMn_STATUS.STATE n)

/-! ## Addresses (R283 to R288) -/

/-- Base of the DRAM window. -/
def dramBase : Nat := 0x100000000

/-- Row bits of the capacity in use (Table 13.2). -/
def rowBits (d : Device) : Nat := 15 + capN 2 (d.get F.MEM_CFG.CAP)

/-- Total capacity in bytes (Table 13.2). -/
def dramTotal (d : Device) : Nat := 2 ^ (33 + capN 2 (d.get F.MEM_CFG.CAP))

/-- Usable capacity: 7/8 of the total with inline ECC (R287). -/
def dramUsable (d : Device) : Nat := if d.bit F.MEM_CFG.ECC_EN then dramTotal d / 8 * 7 else dramTotal d

/-- `a` lies in the DRAM window, within the usable capacity. -/
def inDram (d : Device) (a : Nat) : Bool := decide (dramBase ≤ a ∧ a < dramBase + dramUsable d)

/-- Mask i of MEM_HASHi (R286). -/
def hashMask (d : Device) (i : Nat) : Nat := (d.rd (R.MEM_HASH0_LO + 8 * i)).toNat + 2 ^ 32 * ((d.rd (R.MEM_HASHi_HI i)).toNat % 4)

/-- Base bit of each hashed field, as an index into p[39:6] (Table 13.3). -/
def hashBase : List Nat := [0, 1, 5, 6, 7, 8]

/-- The masks are valid (R286). -/
def masksOk (d : Device) : Bool :=
  (List.range 6).all (fun i => (List.range 6).all (fun j => bitAt (hashMask d i) (hashBase.getD j 0) == (i == j)))

/-- Parity of the low 34 bits of `x`. -/
def parity (x : Nat) : Bool := ((List.range 34).filter (bitAt x)).length % 2 == 1

/-- Hashed field i of the physical address p. -/
def hashed (d : Device) (i p : Nat) : Nat := if parity (p / 64 &&& hashMask d i) then 1 else 0

/-- Controller, bank, row and column burst of a system address (R285, R286). -/
def channelOf (d : Device) (a : Nat) : Nat := let p := a - dramBase; hashed d 0 p + 2 * hashed d 1 p
def bankOf (d : Device) (a : Nat) : Nat := let p := a - dramBase; hashed d 2 p + 2 * hashed d 3 p + 4 * hashed d 4 p + 8 * hashed d 5 p
def rowOf (d : Device) (a : Nat) : Nat := bitsOf (a - dramBase) (17 + rowBits d) 18
def burstOf (a : Nat) : Nat := bitsOf (a - dramBase) 10 8 + 8 * bitsOf (a - dramBase) 17 15

/-- Row and byte of the row that hold the codes of burst `c` of data row `r` (R287). -/
def codeRow (d : Device) (r : Nat) : Nat := 7 * 2 ^ rowBits d / 8 + r / 8
def codeByte (r c : Nat) : Nat := r % 8 * 512 + 8 * c

/-- System address of the 8 codes of the burst at `a`: that byte of that row, on the same controller and in the same bank (R287). Each
mask selects its own field's base bit and no other field's (R286), so the base bits follow from the rest. -/
def codeAddr (d : Device) (a : Nat) : Nat :=
  let r := rowOf d a
  let o := codeByte r (burstOf a)
  let c := o / 64
  let q := o % 64 + 2 ^ 8 * (c % 8) + 2 ^ 15 * (c / 8) + 2 ^ 18 * codeRow d r
  dramBase + q + ((List.range 6).map (fun i => (hashed d i (a - dramBase) + hashed d i q) % 2 * 2 ^ (hashBase.getD i 0 + 6))).sum

/-! ## Requests (R290 to R294) -/

/-- A real-time port. -/
def portRT (d : Device) (m : Nat) : Bool := d.bit (F.MEM_LATm.RT m)

/-- Queue entries of port `m`. -/
def entriesOf (q : List MemReq) (m : Nat) : Nat := (q.filter (fun r => r.port == m)).length

/-- A free entry for port `m`: one of its 2 reserved ones, or one of the 46 shared ones (R293). -/
def hasEntry (q : List MemReq) (m : Nat) : Bool :=
  decide (entriesOf q m < 2) || decide (((List.range 9).map (fun k => entriesOf q k - 2)).sum < 46)

/-- Requests that wait at their ports enter as long as entries are free, in the order in which they came; each is accepted in DCLK cycle
`now` under the latency target of its port live then (R292). -/
def takeIn (d : Device) (now : Nat) (q : List MemReq) : List MemReq → List MemReq × List MemReq
  | [] => (q, [])
  | r :: t =>
    if hasEntry q r.port then takeIn d now (q ++ [{ r with target := d.get (F.MEM_LATm.TARGET r.port), accepted := now }]) t
    else let (q1, w) := takeIn d now q t; (q1, r :: w)

/-- `r` behind the requests of its port and of lower ports. -/
def byPort (r : MemReq) : List MemReq → List MemReq
  | [] => [r]
  | x :: t => if x.port ≤ r.port then x :: byPort r t else r :: x :: t

/-- A request reaches the controller in DCLK cycle `now`: those that reach it in one cycle enter in ascending port number, behind those
that waited already (R293). -/
def arrive (d : Device) (x : MemCtl) (now : Nat) (r : MemReq) : MemCtl :=
  let same (y : MemReq) : Bool := y.arrived == now
  let (q, w) := takeIn d now (x.queue.filter (fun y => !same y))
    (x.waiting.filter (fun y => !same y) ++ byPort r (x.queue.filter same ++ x.waiting.filter same))
  { x with queue := q, waiting := w, cycle := now }

/-- The controllers are in service: MEM0 runs (R284), and the safe state does not hold them in reset (Table 22.4). -/
def dramServes (d : Device) : Bool := d.memState 0 == msRun && !(d.safe && d.get F.FLT_STATUS.SAFE_CODE == faultMemory)

/-- The master behind a port: a core, Ethernet on behalf of the host proxy, a peer (Table 13.5). -/
def portMaster (port source : Nat) : Option Nat :=
  match port with | 4 => some (source % 4) | 6 => some 4 | 8 => some (6 + source % 3) | _ => none

/-- A request of a port ends with a bus error: its master gets the answer, a DMA channel halts, and a load that no master of the control view
has made ends with it (Table 13.5; DEDUCED, log entry "ports without a master"). -/
def portError (d : Device) (port source addr : Nat) (write : Bool) (cause : Nat) : Device :=
  match portMaster port source with
  | some m => busError d m addr write cause
  | none => if port = 5 then dmaStops d (source % 16) addr write 0 else { d with cores := { d.cores with reply := 0, busError := true } }

/-- A port request: unassigned above the usable capacity, refused before MEM0 runs (R284), else queued or waiting at its port. It
covers bytes of one 64-byte burst. -/
def memRequestDev (port source a len : Nat) (write : Bool) (data : List Byte) (cycle : Nat) (d : Device) : Device :=
  if ¬ inDram d a then portError d port source a write causeUnassigned
  else if ¬ dramServes d then portError d port source a write causeRefused
  else
    let n := channelOf d a
    let x := d.ctl n
    let l := capN (64 - a % 64) (if write then data.length else len)
    let r : MemReq := { port := port, source := source, addr := a, len := l, write := write, data := data.take l,
                        issue := d.dram.issued, arrived := Nat.max x.cycle cycle }
    let d1 := d.setCtl n (arrive d x r.arrived r)
    { d1 with dram := { d1.dram with issued := d1.dram.issued + 1 } }

/-- Requests of all controllers. -/
def allReqs (d : Device) : List MemReq := (List.range 4).flatMap (fun n => (d.ctl n).queue ++ (d.ctl n).waiting)

/-- `r` may be served now as far as order goes: no request to its burst was accepted before it (R293). -/
def inOrder (d : Device) (n : Nat) (r : MemReq) : Bool :=
  ((d.ctl n).queue.takeWhile (fun x => x.issue != r.issue)).all (fun x => x.addr / 64 != r.addr / 64)

/-- A row hit. -/
def rowHit (d : Device) (n : Nat) (r : MemReq) : Bool := (((d.ctl n).rows[bankOf d r.addr]?).getD none) == some (rowOf d r.addr)

/-- `a` is served before `b` (R293). -/
def servedFirst (d : Device) (n : Nat) (a b : MemReq) : Bool :=
  if a.urgency ≠ b.urgency then decide (b.urgency < a.urgency)
  else if rowHit d n a ≠ rowHit d n b then rowHit d n a
  else if a.accepted ≠ b.accepted then decide (a.accepted < b.accepted)
  else if a.port ≠ b.port then decide (a.port < b.port) else decide (a.source < b.source)

/-- The first of the requests in the order of R293. -/
def firstServed (d : Device) (n : Nat) : List MemReq → Option MemReq
  | [] => none
  | r :: t => match firstServed d n t with
    | none => some r
    | some b => if servedFirst d n b r then some b else some r

/-- Latches a read error unless VALID is set (R289). -/
def latchErr (d : Device) (n : Nat) (r : MemReq) (uncorr : Bool) (word syndrome : Nat) : Device :=
  if d.bit (F.MEMn_ERR_INFO.VALID n) then d
  else
    let p := r.addr - dramBase
    (((((d.setPair (R.MEMn_ERR_ADDR_LO n) (R.MEMn_ERR_ADDR_HI n) (p % 2 ^ 40)).setBit (F.MEMn_ERR_INFO.UNCORR n) uncorr).set
      (F.MEMn_ERR_INFO.PORT n) r.port).set (F.MEMn_ERR_INFO.WORD n) word).set (F.MEMn_ERR_INFO.SYNDROME n) syndrome).set
      (F.MEMn_ERR_INFO.VALID n) 1

/-! ## Refresh (R297) -/

/-- Refresh debt of a controller. -/
def debt (d : Device) (n : Nat) : Int := d.getI (F.MEMn_STATUS.DEBT n)

/-- A tREFIpb / M interval passes. -/
def refreshDebtDev (n : Nat) (d : Device) : Device :=
  if d.memState n ≠ msRun ∨ 8 ≤ debt d n then d else d.setI (F.MEMn_STATUS.DEBT n) (debt d n + 1)

/-- A real-time request of the controller is at urgency 2 or above. -/
def rtUrgent (d : Device) (n : Nat) : Bool := (d.ctl n).queue.any (fun r => portRT d r.port && decide (2 ≤ r.urgency))

/-- A refresh of the next bank: forced at d = 8, under rule 2 at d > 0, pulled in at d ≤ 0 with an empty queue. -/
def refreshIssueDev (n : Nat) (d : Device) : Device :=
  let x := d.ctl n
  let dt := debt d n
  let forced : Bool := dt == 8
  if d.memState n ≠ msRun ∨ d.bit (F.MEMn_STATUS.SLOT n) ∨ (¬ forced ∧ 0 < dt ∧ rtUrgent d n) ∨ (dt ≤ 0 ∧ (dt ≤ -8 ∨ ¬ x.queue.isEmpty)) then d
  else
    let d1 := (d.setI (F.MEMn_STATUS.DEBT n) (dt - 1)).setCtl n
      { x with rows := withUnit x.rows x.refBank none, refBank := (x.refBank + 1) % 16 }
    if forced then (d1.count (F.MEMn_REF_FORCED.COUNT n)).raise (F.MEMn_FLAGS.REF_FORCED n) else d1

/-! ## Inline ECC (R287 to R289) -/

/-- The code burst at `key` is in the cache of controller `n`: where it is not, it is read, and a full cache first writes back and evicts
an entry that the manual does not name (R288). -/
def cacheFetch (d : Device) (n key : Nat) : Device :=
  let x := d.ctl n
  if x.cache.any (fun e => e.addr == key) then d
  else if x.cache.length < 64 then d.setCtl n { x with cache := x.cache ++ [{ addr := key, codes := d.bytes key 64 }] }
  else
    match x.cache[Config.free d.fresh 0 % x.cache.length]? with
    | none => d
    | some v =>
      let d1 := d.setBytes v.addr v.codes
      { d1.setCtl n { x with cache := x.cache.filter (fun e => e.addr != v.addr) ++ [{ addr := key, codes := d1.bytes key 64 }] } with
        fresh := d.fresh + 1 }

/-- The codes of the 8 words of a burst (R287). -/
def codesOf (burst : List Byte) : List Byte := (List.range 8).map (fun w => Config.secDed (leNat ((burst.drop (8 * w)).take 8)))

/-- A whole burst is written: its bytes, and with inline ECC its codes in the cache (R288). -/
def writeBurst (d : Device) (n a : Nat) (burst : List Byte) : Device :=
  let d1 := d.setBytes a burst
  if ¬ d.bit F.MEM_CFG.ECC_EN then d1
  else
    let c := codeAddr d a
    let d2 := cacheFetch d1 n (c / 64 * 64)
    let x := d2.ctl n
    d2.setCtl n { x with cache := x.cache.map (fun e =>
      if e.addr = c / 64 * 64 then { e with codes := e.codes.take (c % 64) ++ codesOf burst ++ e.codes.drop (c % 64 + 8) } else e) }

/-- The burst that holds `a`, with `data` over its bytes from `a` on. -/
def mergedBurst (d : Device) (a : Nat) (data : List Byte) : List Byte :=
  let burst := d.bytes (a / 64 * 64) 64
  burst.take (a % 64) ++ data ++ burst.drop (a % 64 + data.length)

/-- What the client of a port does about an uncorrectable read (Table 13.5). On MP7 it is a run in progress, in whatever state, that is
abandoned, and a recompute reads the entry again (DEDUCED, log entry "a failed read of the calibration port"). The request ID of a DMA read is its channel (DESIGN CHOICE, log
entry "the source of a DMA request"). -/
def clientError (d : Device) (r : MemReq) : Device :=
  let bad := { d with dram := { d.dram with badReads := (r.port, r.addr) :: d.dram.badReads } }
  match r.port with
  | 1 => bad
  | 5 => dmaFail d (r.source % 16) r.addr
  | 6 => bad
  | 7 => discardRun bad
  | _ => portError d r.port r.source r.addr false causeRefused

/-- One word that a read found wrong: counted, flagged, recorded as a fault and latched (R289). -/
def wordError (n : Nat) (r : MemReq) (d : Device) (e : WordError) : Device :=
  let s := (Config.syndrome (e.bit.val :: (e.second.map Fin.val).toList)).toNat
  match e.second with
  | none => latchErr (((d.count (F.MEMn_ECC_CORR.COUNT n)).raise (F.MEMn_FLAGS.ECC_CORR n)).fault (faultEccCorr 6) n) n r false e.word s
  | some _ =>
    latchErr (((d.count (F.MEMn_ECC_UNCORR.COUNT n)).raise (F.MEMn_FLAGS.ECC_UNCORR n)).fault faultEccUncorr n) n r true e.word s

/-- A read completes: its bytes are delivered to its source. -/
def deliverRead (d : Device) (r : MemReq) (data : List Byte) : Device :=
  let rest := d.dram.replies.filter (fun x => !(x.port == r.port && x.source == r.source))
  { d with dram := { d.dram with replies := { port := r.port, source := r.source, data := data } :: rest } }

/-- A request of the same source as `r`: the same port and request ID (R294). -/
def sameSource (r x : MemReq) : Bool := x.port == r.port && x.source == r.source

/-- A request completes at its port: a read delivers its bytes, or its client acts on the error. -/
def finishReq (d : Device) (m : MemDone) : Device :=
  if m.req.write then d else if m.bad then clientError d m.req else deliverRead d m.req m.data

/-- A served request waits at its port until no request of its source that was issued before it is open; then it completes, and those behind
it that have been served (R294). -/
def completeReq (d : Device) (m : MemDone) : Device :=
  let (before, after) := d.dram.done.partition (fun x => decide (x.req.issue < m.req.issue))
  ((before ++ m :: after).filter (fun x => sameSource m.req x.req)).foldl (fun d x =>
    if (allReqs d).any (fun y => sameSource m.req y && decide (y.issue < x.req.issue)) then d
    else finishReq { d with dram := { d.dram with done := d.dram.done.filter (fun y => y.req.issue != x.req.issue) } } x)
    { d with dram := { d.dram with done := before ++ m :: after } }

/-- A burst is read back with inline ECC (R289): its codes are fetched, its wrong words counted, and a burst that correction made whole is
written back unless a write to it is queued. -/
def readBurst (d : Device) (n : Nat) (r : MemReq) (wrong : List WordError) : Device :=
  let d1 := wrong.foldl (wordError n r) (cacheFetch d n (codeAddr d r.addr / 64 * 64))
  let queued := (d.ctl n).queue.any (fun y => y.write && y.addr / 64 == r.addr / 64)
  if wrong.isEmpty ∨ wrong.any (fun e => e.second.isSome) ∨ queued then d1
  else (writeBurst d1 n (r.addr / 64 * 64) (d1.bytes (r.addr / 64 * 64) 64)).count (F.MEMn_WR_BURSTS.COUNT n)

/-- The bytes of a served request move: a write of less than a burst reads and merges it with inline ECC and uses the data mask without
(R288); an uncorrectable read makes its client act as Table 13.5 says, any other delivers, each when it completes at its port. -/
def moveBytes (d : Device) (n : Nat) (r : MemReq) (wrong : List WordError) : Device :=
  let ecc := d.bit F.MEM_CFG.ECC_EN
  if r.write then
    completeReq
      (if ¬ ecc then d.setBytes r.addr r.data
       else if r.data.length = 64 then writeBurst d n r.addr r.data
       else
         let d1 := (wrong.foldl (wordError n r) d).count (F.MEMn_RD_BURSTS.COUNT n)
         writeBurst d1 n (r.addr / 64 * 64) (mergedBurst d1 r.addr r.data)) { req := r }
  else if ¬ ecc then completeReq d { req := r, data := d.bytes r.addr r.len }
  else completeReq (readBurst d n r wrong) { req := r, data := d.bytes r.addr r.len, bad := wrong.any (fun e => e.second.isSome) }

/-! ## Service (R290, R293 to R297) -/

/-- The request that controller `n` serves next of those whose bank timing lets it, given by their places in its queue. -/
def nextServed (d : Device) (n : Nat) (ready : List Nat) : Option MemReq :=
  let q := (d.ctl n).queue
  firstServed d n ((((List.range q.length).filter (fun i => ready.contains i)).filterMap (fun i => q[i]?)).filter (inOrder d n))

/-- The refresh that goes before the next burst: a forced one at d = 8, or at d > 0 one of the same bank, unless rule 2 holds it back
(R297). -/
def refreshFirst (d : Device) (n : Nat) (ready : List Nat) : Device :=
  match nextServed d n ready with
  | none => d
  | some r => if debt d n = 8 ∨ (0 < debt d n ∧ bankOf d r.addr = (d.ctl n).refBank) then refreshIssueDev n d else d

/-- A waiting drift retraining takes its slot as rule 2 of R297 allows (R299). -/
def startSlot (n : Nat) (d : Device) : Device :=
  let x := d.ctl n
  if x.slotDue ∧ ¬ rtUrgent d n then
    (((d.setCtl n { x with slotDue := false }).set (F.MEMn_STATUS.SLOT n) 1).count (F.MEMn_RETRAINS.COUNT n)).raise (F.MEMn_FLAGS.DRIFT_RETRAIN n)
  else d

/-- A controller serves the first of the requests whose bank timing lets it (`ready`, places in its queue), and the request completes at
its port, with the words that its read finds wrong (only with ECC_EN). -/
def memCompleteDev (n : Nat) (ready : List Nat) (wrong : List WordError) (cycle : Nat) (d : Device) : Device :=
  if d.memState n ≠ msRun ∨ d.bit (F.MEMn_STATUS.SLOT n) then d
  else
    let d0 := refreshFirst d n ready
    match nextServed d0 n ready with
    | none => d0
    | some r =>
      let x := d0.ctl n
      let hit := rowHit d0 n r
      let now := Nat.max x.cycle cycle
      let (q, w) := takeIn d0 now (x.queue.filter (fun y => y.issue ≠ r.issue)) x.waiting
      let d1 := d0.setCtl n { x with queue := q, waiting := w, cycle := now,
                                     rows := withUnit x.rows (bankOf d r.addr) (some (rowOf d r.addr)) }
      let d2 := (d1.count (if hit then F.MEMn_ROW_HITS.COUNT n else F.MEMn_ROW_MISSES.COUNT n)).count
        (if r.write then F.MEMn_WR_BURSTS.COUNT n else F.MEMn_RD_BURSTS.COUNT n)
      startSlot n (moveBytes (d2.count (F.MEMn_PORT_BURSTSm.COUNT n r.port)) n r wrong)

/-- The age of the k-th queued request crosses T/2, 3T/4 or T (R291). -/
def urgencyDev (n k : Nat) (d : Device) : Device :=
  let x := d.ctl n
  match x.queue[k]? with
  | none => d
  | some r =>
    if 3 ≤ r.urgency then d
    else
      let q := x.queue.map (fun y => if y.issue = r.issue then { y with urgency := r.urgency + 1 } else y)
      let d1 := d.setCtl n { x with queue := q }
      if r.urgency + 1 = 3 then (d1.count (F.MEMn_URG3.COUNT n)).raiseIf (portRT d r.port) (F.MEMn_FLAGS.LAT_MISS n) else d1

/-! ## Temperature (R297) -/

/-- MR4 of every device is read: multiplier code 0, 1 or 2, and a temperature above the limit. -/
def mr4Dev (n mult : Nat) (hot : Bool) (d : Device) : Device :=
  if d.memState n ≠ msRun then d
  else
    let d1 := d.set (F.MEMn_STATUS.MULT n) mult
    if hot then (d1.raise (F.MEMn_FLAGS.TEMP_HIGH n)).fault faultTempHigh n else d1

/-! ## Training (R298, R299) -/

/-- A write of MEM_CFG: the RWL fields unless locked, then INIT: with valid masks LOCK is set and all controllers start training. -/
def memInitDev (w : Word) (d : Device) : Device :=
  let d1 := if d.bit F.MEM_CFG.LOCK then d else d.wr R.MEM_CFG (w &&& 0x00000F32#32)
  if F.MEM_CFG.INIT.of w = 0 then d1
  else if ¬ masksOk d1 then d1.raise (F.MEMn_FLAGS.MAP_REJ 0)
  else (List.range 4).foldl (fun d n => (d.set (F.MEMn_STATUS.STATE n) msTrain).setCtl n {}) ({ d1 with dram := { d1.dram with done := [] } }.set F.MEM_CFG.LOCK 1)

/-- A controller in training enters RUN, or FAIL with TRAIN_FAIL; the region-level fault of a failure is taken by its caller. -/
def memTrained (n : Nat) (ok : Bool) (d : Device) : Device :=
  if ok then ((d.set (F.MEMn_STATUS.STATE n) msRun).setI (F.MEMn_STATUS.DEBT n) 0).set (F.MEMn_STATUS.MULT n) 0
  else (d.set (F.MEMn_STATUS.STATE n) msFail).raise (F.MEMn_FLAGS.TRAIN_FAIL n)

/-- A drift check: retraining is due where the drift in ps exceeds DRIFT_THR, and starts with its slot. -/
def driftCheckDev (n ps : Nat) (d : Device) : Device :=
  if d.memState n ≠ msRun ∨ ps ≤ d.get F.MEM_TRAIN.DRIFT_THR ∨ d.bit (F.MEMn_STATUS.SLOT n) then d
  else startSlot n (d.setCtl n { d.ctl n with slotDue := true })

/-- A retraining ends. One slot stands for those that it takes (DESIGN CHOICE, log entry "training slots"). -/
def driftDoneDev (n : Nat) (ok : Bool) (d : Device) : Device :=
  if ¬ d.bit (F.MEMn_STATUS.SLOT n) then d
  else
    let d1 := d.set (F.MEMn_STATUS.SLOT n) 0
    if ok then d1 else (d1.raise (F.MEMn_FLAGS.TRAIN_FAIL n)).fault faultRetrainFail n

def execMemInit (value : Word) (s : State) : Outcome := s.done (regAccess R.MEM_CFG true (memInitDev value) s.dev)
def execMemRequest (port : Fin 9) (source addr len : Nat) (write : Bool) (data : List Byte) (cycle : Nat) (s : State) : Outcome :=
  s.done (memRequestDev port source addr len write data cycle s.dev)
def execMemRequestComplete (n : Fin 4) (ready : List Nat) (wrong : List WordError) (cycle : Nat) (s : State) : Outcome :=
  s.done (memCompleteDev n ready wrong cycle s.dev)
def execUrgencyStep (n : Fin 4) (k : Nat) (s : State) : Outcome := s.done (urgencyDev n k s.dev)
def execRefreshDebtStep (n : Fin 4) (s : State) : Outcome := s.done (refreshDebtDev n s.dev)
def execRefreshIssue (n : Fin 4) (s : State) : Outcome := s.done (refreshIssueDev n s.dev)
def execMr4Poll (n : Fin 4) (mult : Fin 3) (hot : Bool) (s : State) : Outcome := s.done (mr4Dev n mult hot s.dev)
def execDriftCheck (n : Fin 4) (ps : Nat) (s : State) : Outcome := s.done (driftCheckDev n ps s.dev)
def execDriftRetrainDone (n : Fin 4) (ok : Bool) (s : State) : Outcome := s.done (driftDoneDev n ok s.dev)

end Sys2Proof.Machine
end

