-- ==== Sys2Proof/Machine/Capture.lean ====
section
/-! DEFINITION. Image capture and the line-block coder (R324 to R339). -/

namespace Sys2Proof.Machine

/-! ## The coder (R327 to R331) -/

/-- BITS of a depth code. -/
def capDepth (code : Nat) : Nat := match code with | 0 => 8 | 1 => 10 | 2 => 12 | _ => 16

/-- The prediction of R327 from the row above and the sample to the left. -/
def predict (bits : Nat) (above : Option (Nat × Nat)) (left : Option Nat) : Nat :=
  match above, left with
  | none, none => 2 ^ (bits - 1)
  | none, some a => a
  | some (b, _), none => b
  | some (b, c), some a =>
    if Nat.max a b ≤ c then Nat.min a b else if c ≤ Nat.min a b then Nat.max a b else a + b - c

/-- The mapped residual m of R328. -/
def mapResidual (bits s p : Nat) : Nat :=
  let e : Int := sx bits (wrapN bits ((s : Int) - p))
  if 0 ≤ e then (2 * e).toNat else (-2 * e - 1).toNat

/-- Mapped residuals of one row, given the row above (or none) and the samples to the left. -/
def rowResiduals (bits : Nat) (top : Option (List Nat)) : List Nat → Nat → Option Nat → List Nat
  | [], _, _ => []
  | s :: t, x, left =>
    let above := top.map (fun r => (r.getD x 0, r.getD (x - 1) 0))
    mapResidual bits s (predict bits above left) :: rowResiduals bits top t (x + 1) (some s)

/-- Mapped residuals of a block, row by row. -/
def blockResiduals (bits : Nat) : Option (List Nat) → List (List Nat) → List Nat
  | _, [] => []
  | top, r :: t => rowResiduals bits top r 0 none ++ blockResiduals bits (some r) t

/-- The n bits of `x`, most significant first. -/
def msbBits (n x : Nat) : List Bool := (List.range n).map (fun i => bitAt x (n - 1 - i))

/-- The least k from `k0` on below BITS with N × 2^k ≥ A, or BITS − 1 (R329). -/
def riceK (bits n a : Nat) : Nat → Nat → Nat
  | 0, _ => bits - 1
  | f + 1, k => if a ≤ n * 2 ^ k then k else riceK bits n a f (k + 1)

/-- The code of one sample (R329). -/
def codeSample (bits k m : Nat) : List Bool :=
  let q := m >>> k
  if q < 24 then List.replicate q false ++ (true :: msbBits k m) else List.replicate 24 false ++ msbBits bits m

/-- The code of the mapped residuals with accumulator A and count N (R329). -/
def codeAll (bits : Nat) : List Nat → Nat → Nat → List Bool
  | [], _, _ => []
  | m :: t, a, n =>
    let a1 := a + m
    let n1 := n + 1
    codeSample bits (riceK bits n a bits 0) m ++ (if n1 = 64 then codeAll bits t (a1 / 2) 32 else codeAll bits t a1 n1)

/-- Bits packed into bytes from bit 7 down, padded with zero bits. -/
def packMsb : Nat → List Bool → List Byte
  | 0, _ => []
  | n + 1, bs => BitVec.ofNat 8 (((List.range 8).map (fun i => if bs.getD i false then 2 ^ (7 - i) else 0)).sum) :: packMsb n (bs.drop 8)

/-- The raw payload: samples as a bit stream, least significant bit first (R330). -/
def rawPayload (bits : Nat) (rows : List (List Nat)) : List Byte :=
  let all := rows.flatten
  let v := all.foldr (fun s acc => s + 2 ^ bits * acc) 0
  leBytes (all.length * bits / 8) v

/-- The coded payload, padded to a multiple of 4 bytes (R330). -/
def codedPayload (bits : Nat) (rows : List (List Nat)) : List Byte :=
  let bs := codeAll bits (blockResiduals bits none rows) (2 ^ (bits - 5)) 1
  packMsb (ceilDiv bs.length 32 * 4) bs

/-- A stored block (R331): samples of one column of one band over 16 rows, and which rows came from lost-line markers. -/
def codeBlock (line x0 window band code : Nat) (rows : List (List Nat)) (lost : Nat) : List Byte × Bool :=
  let bits := capDepth code
  let w := (rows.headD []).length
  let raw := rawPayload bits rows
  let cod := codedPayload bits rows
  let useRaw : Bool := decide (raw.length ≤ cod.length)
  let pay := if useRaw then raw else cod
  let head := leBytes 4 line ++ leBytes 2 (x0 + if useRaw then 2 ^ 15 else 0) ++ leBytes 2 (w - 1 + band * 1024 + window * 8192)
    ++ leBytes 2 lost ++ leBytes 2 (pay.length / 4 + code * 16384)
  (head ++ leBytes 4 (crc32c (head ++ pay)) ++ pay, useRaw)

/-! ## Groups (R325, R338, R339) -/

/-- The rings of a configuration. -/
def capRings (d : Device) : CapRings :=
  { data := d.pair R.CAP_DATA_BASE_LO R.CAP_DATA_BASE_HI, idx := d.pair R.CAP_IDX_BASE_LO R.CAP_IDX_BASE_HI,
    dataLog := d.get F.CAP_CTRL.DATA_LOG2, idxLog := d.get F.CAP_CTRL.IDX_LOG2, stop := d.bit F.CAP_CTRL.STOP, gen := d.cap.gen }

/-- The registers of a window. -/
def capKey (d : Device) (k : Nat) : List Nat :=
  [(d.rd (R.CAP_Wk_CFG k)).toNat, (d.rd (R.CAP_Wk_X k)).toNat, (d.rd (R.CAP_Wk_START k)).toNat, (d.rd (R.CAP_Wk_NBLK k)).toNat]

/-- Groups remaining of a window. -/
def capLeft (d : Device) (k : Nat) : Nat := d.get (F.CAP_Wk_STATE.V k)
def setLeft (d : Device) (k n : Nat) : Device := (d.set (F.CAP_Wk_STATE.V k) n).setBit (F.CAP_Wk_STATE.ACTIVE k) (n != 0)

def capWindow (d : Device) (k : Nat) : CapWindow :=
  { k := k, view := d.get (F.CAP_Wk_CFG.VIEW k), x0 := d.get (F.CAP_Wk_X.X0 k), x1 := d.get (F.CAP_Wk_X.X1 k),
    bands := d.get (F.CAP_Wk_CFG.BANDS k), bits := d.get (F.CAP_Wk_CFG.BITS k) }

/-- Columns of a window, and its selected bands. -/
def winCols (w : CapWindow) : Nat := ceilDiv (w.x1 + 1 - w.x0) 1024
def winBands (w : CapWindow) : List Nat := (List.range 8).filter (bitAt w.bands)

/-- A field of a window under the registers that the last group start found. -/
def keyField (d : Device) (k : Nat) (f : Fld) : Nat :=
  let key := d.cap.keys[k]?.getD []
  f.of (BitVec.ofNat 32 (key.getD (if f.addr = R.CAP_Wk_CFG k then 0 else 3) 0))

/-- An apply of capture registers: one that enables the block or changes a base or a size sets WPOS and IPOS to 0, and blocks of groups that
began before it keep the rings and the positions that they began with (R333, R339); a window that it writes is armed again (Table 15.1). -/
def captureApply (old new : Device) : Device :=
  let moved := (!old.bit F.CAP_CTRL.EN && new.bit F.CAP_CTRL.EN) || { capRings old with stop := false, gen := 0 } != { capRings new with stop := false, gen := 0 }
  let c := new.cap
  let writes (k : Nat) : Bool :=
    [R.CAP_Wk_CFG k, R.CAP_Wk_X k, R.CAP_Wk_START k, R.CAP_Wk_NBLK k].any (fun a => old.slu.touched.contains a)
  let c1 := { c with rearm := (List.range 8).foldl (fun v k => if writes k then withUnit v k true else v) c.rearm }
  { new with cap := if moved then { c1 with olds := (c.gen, c.wpos, c.ipos) :: c.olds, gen := c.gen + 1, wpos := 0, ipos := 0 } else c1 }

/-- Window k at the start of the group whose first line is `c`: whether it takes the group, with its trigger state (Table 15.1). An apply of
the window arms TRIG 2 again; under TRIG 3 (`rill`: under the registers until now) what is left of an event stays. -/
def capSelect (c : Int) (rill : Nat → Bool) (k : Nat) (acc : Device × List CapWindow) : Device × List CapWindow :=
  let (d, ws) := acc
  let armed : Device := { d with cap := { d.cap with rearm := withUnit d.cap.rearm k false, fired := withUnit d.cap.fired k false } }
  let d1 := if ¬ (d.cap.rearm[k]?.getD false) then d
    else if rill k ∧ d.get (F.CAP_Wk_CFG.TRIG k) = 3 then armed else setLeft armed k 0
  let trig := d1.get (F.CAP_Wk_CFG.TRIG k)
  let d2 := if trig = 2 ∧ ¬ (d1.cap.fired[k]?.getD false) ∧ lineLe (d1.get (F.CAP_Wk_START.START_LINE k)) (lineOf c) then
      setLeft { d1 with cap := { d1.cap with fired := withUnit d1.cap.fired k true } } k (d1.get (F.CAP_Wk_NBLK.NBLK k))
    else d1
  if trig = 1 then (d2.set (F.CAP_Wk_STATE.ACTIVE k) 1, ws ++ [capWindow d2 k])
  else if 2 ≤ trig ∧ 0 < capLeft d2 k then (setLeft d2 k (capLeft d2 k - 1), ws ++ [capWindow d2 k])
  else (d2, ws)

/-- The capture block is powered down, or goes down once the group in progress has ended (R429). -/
def captDown (d : Device) : Bool := d.bit F.RSV_POWER.CAPT_OFF || d.get F.RSV_POWER.CAPT_STATE != 0

/-- The live registers take effect (R339). -/
def takeKeys (d : Device) : Device :=
  { d with cap := { d.cap with
      enabled := d.bit F.CAP_CTRL.EN, keys := (List.range 8).foldl (fun v k => withUnit v k (capKey d k)) d.cap.keys } }

/-- CAPTURE_GROUP_START at the trigger of line `c`: where it is the first line of a group, the live registers take effect (R339), and the
windows that select it are coded, or shed where the reservoir does not allow it (`allowed`); with the block powered down no group is coded
and its registers are kept (R338). -/
def capGroupStart (d : Device) (c : Int) (allowed : Bool) : Device :=
  if lineOf c % 16 ≠ 0 ∨ captDown d then d
  else
    let rill (k : Nat) : Bool := keyField d k (F.CAP_Wk_CFG.TRIG k) == 3
    let d1 := takeKeys d
    if ¬ d.bit F.CAP_CTRL.EN then d1
    else
      let d2 := d1.setBit F.CAP_STATUS.PAUSED (!allowed)
      let (d3, ws) := (List.range 8).foldl (fun a k => capSelect c rill k a) (d2, [])
      if ws.isEmpty then d3
      else if ¬ allowed then
        (d3.count F.CAP_BLK_SHED.COUNT ((ws.map (fun w => winCols w * (winBands w).length)).sum)).raise F.CAP_FLAGS.SHED
      else
        let d4 : Device := { d3 with cap := { d3.cap with groups := d3.cap.groups ++ [{ first := c, wins := ws, rings := capRings d }] } }
        (d4.count F.CAP_GROUPS.COUNT).set F.CAP_STATUS.CODING 1

/-- An event on rill `r`: windows with TRIG 3 on it take NBLK groups from the next group on (Table 15.1), under the registers of the last
group start (R339). -/
def capOnRill (d : Device) (r : Nat) : Device :=
  (List.range 8).foldl (fun d k =>
    if d.cap.enabled ∧ ¬ captDown d ∧ keyField d k (F.CAP_Wk_CFG.TRIG k) = 3 ∧ keyField d k (F.CAP_Wk_CFG.RILL k) = r then
      (setLeft d k (keyField d k (F.CAP_Wk_NBLK.NBLK k))).count F.CAP_TRIGGERS.COUNT
    else d) d

/-- The line of view `v` and count `c` in a group. -/
def groupLine (g : CapGroup) (v : Nat) (c : Int) : Option ViewLine := (g.lines.find? (fun e => e.1 == v && e.2.count = c)).map Prod.snd

/-- The group is complete: every line of each of its views is there, or will never be emitted because the view is disabled for it. -/
def groupDone (d : Device) (g : CapGroup) : Bool :=
  g.wins.all (fun w => (List.range 16).all (fun (y : Nat) => (groupLine g w.view (g.first + y)).isSome || !viewOn (d.asOf (g.first + y)) w.view))

/-- The group can no longer be complete: geometry has emitted a later line of one of its views, as after the generator has stopped within it
and begun again elsewhere. Its blocks are never stored (R334: DEDUCED, log entry "groups cut short"). -/
def groupCut (d : Device) (g : CapGroup) : Bool :=
  g.wins.any (fun w => (List.range 16).any (fun (y : Nat) =>
    (groupLine g w.view (g.first + y)).isNone && viewOn (d.asOf (g.first + y)) w.view
      && ((d.cap.last[w.view]?).getD none).any (fun c => decide (g.first + (y : Int) < c))))

/-- Samples of one row of a block (R324). -/
def blockRow (g : CapGroup) (w : CapWindow) (band x0 n y : Nat) : List Nat × Bool :=
  match (groupLine g w.view (g.first + (y : Int))).bind ViewLine.bands with
  | some bands =>
    let b := bands.getD band []
    (((b.drop x0).take n).map (fun v => v >>> (16 - capDepth w.bits)), false)
  | none => (List.replicate n 0, true)

/-- The blocks of a window: columns ascending, then bands ascending (R334). -/
def windowBlocks (g : CapGroup) (w : CapWindow) : List CapBlock :=
  (List.range (winCols w)).flatMap (fun col =>
    (winBands w).map (fun band =>
      let x0 := w.x0 + 1024 * col
      let n := capN 1024 (w.x1 + 1 - x0)
      let rows := (List.range 16).map (blockRow g w band x0 n)
      let lost := ((List.range 16).map (fun y => if (rows.getD y ([], false)).2 then 2 ^ y else 0)).sum
      let (bytes, raw) := codeBlock (lineOf g.first) x0 w.k band w.bits (rows.map Prod.fst) lost
      { bytes := bytes, line := lineOf g.first, window := w.k, band := band, view := w.view, col := col, raw := raw, rings := g.rings }))

/-- Bytes in the output buffer. -/
def capHeld (d : Device) : Nat := (d.cap.buffer.map (fun b => b.bytes.length)).sum

def showCapture (d : Device) : Device := (d.set F.CAP_STATUS.V (capHeld d)).setBit F.CAP_STATUS.CODING (!d.cap.groups.isEmpty)

/-- A block is placed in the output buffer of 1 MiB, or dropped (R337). -/
def placeBlock (d : Device) (b : CapBlock) : Device :=
  if 1048576 < capHeld d + b.bytes.length then (d.count F.CAP_BLK_DROP.COUNT).raise F.CAP_FLAGS.DROP
  else { d with cap := { d.cap with buffer := d.cap.buffer ++ [b] } }

/-- CAPTURE_GROUP_COMPLETE: the oldest group that can be complete is coded. A block whose snoop CRC mismatches (its place among the group's blocks) is
discarded whole (R382). -/
def groupCompleteDev (bad : List Nat) (d : Device) : Device :=
  let d0 : Device := { d with cap := { d.cap with groups := d.cap.groups.filter (fun g => !groupCut d g) } }
  match d0.cap.groups with
  | [] => showCapture d0
  | g :: rest =>
    if ¬ groupDone d0 g then showCapture d0
    else
      let blocks := g.wins.flatMap (windowBlocks g)
      let d1 := { d0 with cap := { d0.cap with groups := rest } }
      showCapture ((blocks.zip (List.range blocks.length)).foldl (fun d e =>
        if bad.contains e.2 then snoopMismatch d 19 faultSnoopCap 0 else placeBlock d e.1) d1)

/-- Bytes written from position `p` of a ring of 2^n bytes at `base`, wrapping. -/
def ringWrite (d : Device) (base n p : Nat) (bs : List Byte) : Device :=
  let o := p % 2 ^ n
  (d.setBytes (base + o) (bs.take (2 ^ n - o))).setBytes base (bs.drop (2 ^ n - o))

/-- Bytes of an index entry (Table 15.3). -/
def indexEntry (b : CapBlock) (pos : Nat) : List Byte :=
  leBytes 8 pos ++ leBytes 4 b.line ++ leBytes 1 (b.window + 8 * b.band + 64 * b.view) ++ leBytes 1 b.col ++ leBytes 2 (b.bytes.length / 4)

/-- WPOS and IPOS of the rings that a block is stored in. -/
def capPos (d : Device) (r : CapRings) : Nat × Nat :=
  if r.gen = d.cap.gen then (d.cap.wpos, d.cap.ipos) else (((d.cap.olds.find? (fun e => e.1 == r.gen)).map Prod.snd).getD (0, 0))

/-- They advance. -/
def setCapPos (d : Device) (r : CapRings) (w i : Nat) : Device :=
  { d with cap := if r.gen = d.cap.gen then { d.cap with wpos := w, ipos := i }
    else { d.cap with olds := (r.gen, w, i) :: d.cap.olds.filter (fun e => e.1 != r.gen) } }

/-- CAPTURE_BLOCK_STORED: the first block of the buffer and its index entry have been written, or the block does not fit in stop mode
and is discarded (R334, R335). -/
def blockStoredDev (d : Device) : Device :=
  match d.cap.buffer with
  | [] => d
  | b :: rest =>
    let d0 := { d with cap := { d.cap with buffer := rest } }
    let (w, i) := capPos d b.rings
    let keep := d.pair R.CAP_KEEP_LO R.CAP_KEEP_HI
    let keepI := d.pair R.CAP_KEEP_IDX_LO R.CAP_KEEP_IDX_HI
    if b.rings.stop ∧ (keep + 2 ^ b.rings.dataLog < w + b.bytes.length ∨ keepI + 2 ^ b.rings.idxLog ≤ i) then
      showCapture ((d0.count F.CAP_BLK_FULL.COUNT).raise F.CAP_FLAGS.FULL)
    else
      let d1 := ringWrite d0 b.rings.data b.rings.dataLog w b.bytes
      let d2 := d1.setBytes (b.rings.idx + 16 * (i % 2 ^ b.rings.idxLog)) (indexEntry b w)
      let d3 := (d2.count F.CAP_BLOCKS.COUNT).count F.CAP_RAW_BLOCKS.COUNT (if b.raw then 1 else 0)
      showCapture (setCapPos d3 b.rings (w + b.bytes.length) (i + 1))

/-- A read of CAP_WPOS_LO, or of CAP_IPOS_LO, captures both halves. -/
def capPosDev (idx : Bool) (d : Device) : Device :=
  if idx then d.setPair R.CAP_IPOS_LO R.CAP_IPOS_HI d.cap.ipos else d.setPair R.CAP_WPOS_LO R.CAP_WPOS_HI d.cap.wpos

def execCaptureGroupComplete (bad : List Nat) (s : State) : Outcome := s.done (groupCompleteDev bad s.dev)
def execCaptureBlockStored (s : State) : Outcome := s.done (blockStoredDev s.dev)
def execCapPosRead (idx : Bool) (s : State) : Outcome := s.done (regAccess R.CAP_WPOS_LO false (capPosDev idx) s.dev)

end Sys2Proof.Machine
end

