-- ==== Sys2Proof/Machine/Eject.lean ====
section
/-! DEFINITION. The ejector scheduler (R208 to R214): valves in service, decision deadlines, placing and merging of windows; and the
forwarding of windows along a chain (R451). -/

namespace Sys2Proof.Machine

/-! ## Stamps -/

/-- a − b of two transport stamps, in the half range (R24). -/
def stampDiff (a b : Nat) : Int := sx 64 (wrapN 64 ((a : Int) - b))

/-- The transport stamp of the device time `t` in ns (R267). -/
def transportAt (d : Device) (t : Nat) : Nat :=
  if d.bit F.TB_LINE_CFG.BELT then
    let o := obsAt d (d.get F.TB_LINE_CFG.AXIS) t
    if o.started then posAt o t else 0
  else t

/-- The current transport stamp. -/
def transportNow (d : Device) : Nat := transportAt d d.nowNs

/-- A time in ns as a difference of transport stamps: in belt mode converted with the axis speed recorded for line `j` (R205). -/
def asStamps (d cfg : Device) (j : Int) (ns : Nat) : Int :=
  if cfg.bit F.FLY_CFG.MODE then rneDiv (ns * (match stampOf d j with | some s => s.speed | none => 0)) 1000000000 else ns

/-! ## Valves and rows (R208, R209) -/

/-- Spout port `p` is enabled. -/
def spoutOn (d : Device) (p : Nat) : Bool := d.bit (F.SPn_CFG.EN p)

/-- Row of spout port `p`. -/
def spoutRow (d : Device) (p : Nat) : Nat := d.get (F.SPn_CFG.ROW p)

/-- A row is in use when an enabled spout port serves it or an enabled forward entry names it. -/
def rowInUse (d : Device) (r : Nat) : Bool :=
  (List.range 4).any (fun p => spoutOn d p && spoutRow d p == r)
    || (List.range 16).any (fun k => d.bit (F.PAIR_FWDk_CFG.EN k) && d.get (F.PAIR_FWDk_CFG.ROW k) == r)

/-- Valve channel `c` is in service in row `r`. -/
def valveIn (d : Device) (r c : Nat) : Bool := spoutOn d (c / 128) && spoutRow d (c / 128) == r && d.bit (F.EJ_Vc_MAP.EN c)

/-- Two intervals overlap by a positive length. -/
def overlaps (a b x y : Int) : Bool := decide (a < y) && decide (x < b) && decide (a < b) && decide (x < y)

/-- The valves in service of row `r` whose span overlaps [lo, hi], in ascending channel order. -/
def covering (d : Device) (r : Nat) (lo hi : Int) : List Nat :=
  (List.range 512).filter (fun c => valveIn d r c &&
    overlaps (16 * (d.get (F.EJ_Vc_MAP.X_LO c) : Int) - 8) (16 * (d.get (F.EJ_Vc_MAP.X_HI c) : Int) + 8) lo hi)

/-- The enabled forward entries of row `r` whose span overlaps [lo, hi], in chain units. -/
def forwards (d : Device) (r : Nat) (lo hi : Int) : List Nat :=
  (List.range 16).filter (fun k => d.bit (F.PAIR_FWDk_CFG.EN k) && d.get (F.PAIR_FWDk_CFG.ROW k) == r &&
    overlaps (16 * (d.get (F.PAIR_FWDk_XLO.X_LO k) : Int) - 8) (16 * (d.get (F.PAIR_FWDk_XHI.X_HI k) : Int) + 8) lo hi)

/-- 16 × GRID_BASE. -/
def gridUnits (d : Device) : Int := 16 * (d.get F.PAIR_GRID_BASE.V : Int)

/-- The interval of an object's box in row units with its shift, MARGIN included (R209). -/
def ejectSpan (cfg : Device) (s : Sighting) (shift : Int) : Int × Int :=
  let m : Int := cfg.get F.EJ_MARGIN.MARGIN
  (16 * (s.xMin : Int) - 8 + shift - m, 16 * (s.xMax : Int) + 8 + shift + m)

/-- The decision deadline of row `r` for an object of judgement line `j` whose front edge arrives at `tF` and whose interval is
[lo, hi]; `fwd` are the leads of the forward entries that count as covering valves (R209, R16, R451). -/
def rowDeadline (d cfg : Device) (j : Int) (r tF : Nat) (lo hi : Int) (fwd : List Nat) : Nat :=
  let leads := (covering cfg r lo hi).map (fun c => cfg.get (F.EJ_Vc_OPEN.OPEN_LEAD c)) ++ fwd
  let lead := leads.foldl Nat.max 0
  wrapN 64 ((tF : Int) - asStamps d cfg j lead - asStamps d cfg j (1000 * cfg.get (F.EJ_TIMEr.PRE r)) - asStamps d cfg j 50000)

/-! ## The pool (R211 to R213) -/

/-- EJ_POOL follows the pending windows. -/
def showPool (d : Device) : Device :=
  let n := d.ej.windows.length
  (d.set F.EJ_POOL.PENDING n).set F.EJ_POOL.HWM (Nat.max n (d.get F.EJ_POOL.HWM))

def Device.setWindows (d : Device) (ws : List Window) : Device := showPool { d with ej := { d.ej with windows := ws } }

/-- Windows of one valve that overlap or lie closer than `minoff` merge. -/
def mergeable (minoff : Int) (a b : Window) : Bool :=
  decide (stampDiff a.opn b.cls < minoff) && decide (stampDiff b.opn a.cls < minoff)

/-- The window with the earliest open and the latest close stamp of two. -/
def joinWindows (a b : Window) : Window :=
  { chan := a.chan, opn := if stampDiff b.opn a.opn < 0 then b.opn else a.opn, cls := if 0 < stampDiff b.cls a.cls then b.cls else a.cls }

/-- R211: `w` merged with pending windows until none qualifies: the merged window, what is left of the pool, and what was merged. -/
def mergeInto (minoff : Int) : Nat → Window → List Window → List Window → Window × List Window × List Window
  | 0, w, pool, gone => (w, pool, gone)
  | n + 1, w, pool, gone =>
    match pool.find? (fun p => p.chan == w.chan && mergeable minoff w p) with
    | none => (w, pool, gone)
    | some p => mergeInto minoff n (joinWindows w p) (pool.erase p) (p :: gone)

/-- JUDGE_FLAGS bits. -/
def jfMatched : Nat := 1
def jfAmbiguous : Nat := 2
def jfObserver : Nat := 4
def jfClassified : Nat := 8
def jfDenied : Nat := 16
def jfLate : Nat := 32
def jfWinLate : Nat := 64
def jfWinMissed : Nat := 128
def jfPoolFull : Nat := 256
def jfForwarded : Nat := 512

/-- What became of a window: the device, the JUDGE_FLAGS bits it sets, and the window as kept. -/
abbrev Placed := Device × Nat × Option Window

/-- R213: window `w` inserted at stamp `now` for an object with decision deadline `dl`. While the Actuation region is in reset it takes none
(Table 22.2). -/
def placeWindow (d : Device) (w : Window) (now dl : Nat) (minoff : Int) : Placed :=
  if d.resetting 5 then (d, 0, none)
  else if stampDiff w.cls now ≤ 0 then ((d.count F.EJ_WIN_MISSED.COUNT).raise F.EJ_FLAGS.WIN_MISSED, jfWinMissed, none)
  else
    let (m, pool, gone) := mergeInto minoff d.ej.windows.length w d.ej.windows []
    let counts (p : Window) : Bool := decide (0 < stampDiff p.cls dl)
    if gone.isEmpty ∧ 16 ≤ (d.ej.windows.filter (fun p => p.chan == w.chan && counts p)).length then
      ((d.count F.EJ_VALVE_FULL.COUNT).raise F.EJ_FLAGS.VALVE_FULL, jfPoolFull, none)
    else if gone.isEmpty ∧ 8192 ≤ (d.ej.windows.filter counts).length then
      ((d.count F.EJ_POOL_FULL.COUNT).raise F.EJ_FLAGS.POOL_FULL, jfPoolFull, none)
    else
      let late := decide (stampDiff m.opn now < 0)
      let kept := if late then { m with opn := now } else m
      let d1 := ((d.setWindows (pool ++ [kept])).count F.EJ_WINDOWS.COUNT).count F.EJ_MERGED.COUNT gone.length
      if late ∧ ¬ gone.any (fun p => decide (stampDiff p.opn now ≤ 0)) then
        ((d1.count F.EJ_WIN_LATE.COUNT).raise F.EJ_FLAGS.WIN_LATE, jfWinLate, some kept)
      else (d1, 0, some kept)

/-- The windows of an eject in row `r` (R210): what is kept of them in ascending channel order, and the JUDGE_FLAGS bits. -/
def placeAll (d0 cfg : Device) (j : Int) (r tF tB dl : Nat) (lo hi : Int) : Device × Nat × List Window :=
  let now := transportNow d0
  let conv := asStamps d0 cfg j
  (covering cfg r lo hi).foldl (fun (acc : Device × Nat × List Window) c =>
    let opn := wrapN 64 ((tF : Int) - conv (cfg.get (F.EJ_Vc_OPEN.OPEN_LEAD c)) - conv (1000 * cfg.get (F.EJ_TIMEr.PRE r)))
    let cls := wrapN 64 ((tB : Int) - conv (cfg.get (F.EJ_Vc_CLOSE.CLOSE_LEAD c)) + conv (1000 * cfg.get (F.EJ_TIMEr.POST r)))
    let (d1, fl, w) := placeWindow acc.1 { chan := c, opn := opn, cls := cls } now dl
      (conv (1000 * acc.1.get (F.SPn_LIMIT_MINOFF.MINOFF (c / 128))))
    (d1, acc.2.1 ||| fl, acc.2.2 ++ w.toList)) (d0, 0, [])

/-- An eject without a covering valve (R210). -/
def noValve (d : Device) : Device := (d.count F.EJ_NO_VALVE.COUNT).raise F.EJ_FLAGS.NO_VALVE

/-- The pending windows of a disabled port's channels are discarded (R214). -/
def dropPort (d : Device) (p : Nat) : Device := d.setWindows (d.ej.windows.filter (fun w => w.chan / 128 ≠ p))

end Sys2Proof.Machine
end

