-- ==== Sys2Proof/Machine/Flight.lean ====
section
/-! DEFINITION. The flight matcher (R195 to R206): candidates, costs, flight arithmetic, lane observers and delivery of objects. -/

namespace Sys2Proof.Machine

/-! ## The flight to a row (R200 to R202) -/

/-- The WIDTH of the lower views. -/
def lowerWidth (d : Device) : Nat := if viewWidth d 2 ≠ 0 then viewWidth d 2 else viewWidth d 3

/-- The rows in use. -/
def rowsInUse (d : Device) : List Nat := (List.range 2).filter (rowInUse d)

/-- The flight to row `r` of an object of judgement line `j` with decision sighting `f`: Δ and the shifted x (R200 to R202, R209). -/
def rowFlight (d cfg : Device) (j : Int) (f : FlySight) (r delta xE : Nat) : RowFlight :=
  let shift : Int := (xE : Int) - f.s.cx
  let tF := (f.tF + delta) % 2 ^ 64
  let (lo, hi) := ejectSpan cfg f.s shift
  let fwd := (forwards cfg r (lo + gridUnits cfg) (hi + gridUnits cfg)).map (fun k => cfg.get (F.PAIR_FWDk_LEAD.LEAD_MAX k))
  { row := r, delta := delta, tE := (f.t + delta) % 2 ^ 64, xE := xE, shift := shift, tF := tF, tB := (f.tB + delta) % 2 ^ 64,
    deadline := rowDeadline d cfg j r tF lo hi fwd }

/-! ## Delivery (R198, R450) -/

/-- Cell range of a chain member in 1/16 chain cell: x + 16 × GRID_BASE lies within `s` cells of [lo, hi). -/
def inChain (cfg : Device) (x : Nat) (lo hi : Int) : Bool :=
  let c := (x : Int) + gridUnits cfg
  decide (16 * lo ≤ c) && decide (c < 16 * hi)

/-- What a stopped evaluation leaves: the manual gives it no class and no margin, so they are free values (notes/assumptions/2.md). -/
def stoppedForest (d : Device) : Forest × Device :=
  let (x, d1) := d.free 19
  ({ cls := x % 8, margin := sx 16 (x / 8), stopped := true }, d1)

/-- An object leaves the matcher with judgement line `j`: outside the owned range it is discarded (R450); else it joins judgement with the
grant of its cycle and the capacity live at J (R178, R179). -/
def deliver (d cfg : Device) (j : Int) (o : JObj) : Device :=
  let chain := cfg.bit F.PAIR_CHAIN.EN
  let lo : Int := cfg.get F.PAIR_OWN_LO.OWN_LO
  let hi : Int := cfg.get F.PAIR_OWN_HI.OWN_HI
  let sl : Int := cfg.get F.PAIR_SLACK.SLACK
  let x := o.dec.s.cx
  if chain ∧ ¬ inChain cfg x (lo - sl) (hi + sl) then d.count F.CHAIN_NOT_OWNED.V
  else
    let shared := chain && (inChain cfg x (lo - sl) (lo + sl) || inChain cfg x (hi - sl) (hi + sl))
    let d1 := if shared then d.count F.CHAIN_SHARED.V else d
    let cyc := cycleOf d j
    let (g, q) := match d.jud.grants.find? (fun e => e.1 = cyc) with
      | some e => e.2
      | none => (d.get F.CASC_GRANT.G, d.get F.CASC_QUOTA.Q)
    let cap := match d.slu.old with
      | some b => if j < b.count then d.jud.capOld else d.jud.capLive
      | none => d.jud.capLive
    let x : JObj := { o with j := j, cycle := cyc, g := g, q := q, cap := cap }
    let (f, d2) := stoppedForest d1
    if d.safe ∨ d.resetting 4 then { d2 with jud := { d2.jud with objs := d2.jud.objs ++ [{ x with forest := some f, sel := .stopped }] } }
    else { d1 with jud := { d1.jud with objs := d1.jud.objs ++ [x] } }

/-! ## Lanes (R203) -/

/-- Lane of a sighting by its CX. -/
def laneOf (cfg : Device) (cx : Nat) : Nat := Nat.min 63 ((cx + 8) / 16 / cfg.get F.FLY_LANE.LANE_W)

def Device.laneObs (d : Device) (k : Nat) : Observer := unit d.fly.obs k

/-- Every lane restarts from V_INIT. -/
def restartLanes (d cfg : Device) : Device :=
  let v := cfg.get F.FLY_VINIT.V_INIT
  let d1 := { d with fly := { d.fly with obs := Vector.replicate 64 { x0 := v } } }
  (List.range 64).foldl (fun d k => d.set (F.FLY_LANEk_V.V k) v) d1

/-- The lane restarts due at the step of line `c` (R203, R206). -/
def dueRestarts (d cfg : Device) (c : Int) : Device :=
  if d.fly.restarts.any (fun a => decide (a ≤ c)) then
    restartLanes { d with fly := { d.fly with restarts := d.fly.restarts.filter (fun a => !decide (a ≤ c)) } } cfg
  else d

/-- R197 or R204 reads the estimate of a lane: OBS_INIT where it has had no measurement. -/
def readLane (d : Device) (k : Nat) : Device := d.raiseIf (!(d.laneObs k).started) F.FLY_FLAGS.OBS_INIT

/-- A measurement of lane `k` (R203, R237). -/
def feedLane (d cfg : Device) (k v t : Nat) : Device :=
  let o := laneMeasure (cfg.get F.FLY_LANE.LANE_BW) (d.laneObs k) v t
  ({ d with fly := { d.fly with obs := withUnit d.fly.obs k o } }).set (F.FLY_LANEk_V.V k) (clampI 0 0xFFFFFFFF o.x0).toNat

/-! ## Matching (R196, R197) -/

/-- FLAGS bits GAP, and SPLIT or CONT. -/
def hasGap (s : Sighting) : Bool := bitAt s.flags 1
def splitOrCont (s : Sighting) : Bool := bitAt s.flags 5 || bitAt s.flags 6

/-- |CX_U − CX_W|. -/
def cxApart (u w : Sighting) : Nat := ((u.cx : Int) - w.cx).natAbs

/-- `u` is a candidate for the lower sighting `w` (R196). -/
def candidate (cfg : Device) (u w : FlySight) : Bool :=
  let dt := stampDiff w.t u.t
  let a := Nat.min u.s.area w.s.area
  let b := Nat.max u.s.area w.s.area
  !splitOrCont u.s && !splitOrCont w.s && decide ((cfg.get F.FLY_DT_MIN.DT : Int) ≤ dt) && decide (dt ≤ (cfg.get F.FLY_DT_MAX.DT : Int))
    && decide (0 < dt) && decide (cxApart u.s w.s ≤ cfg.get F.FLY_MATCH.X_TOL)
    && (hasGap u.s || hasGap w.s || decide (cfg.get F.FLY_MATCH.AR_MIN * b ≤ 256 * a))

/-- Cost of a candidate (R197), with Δt_exp. -/
def flightCost (cfg : Device) (u w : FlySight) (dtExp : Nat) : Nat :=
  let a := Nat.min u.s.area w.s.area
  let b := Nat.max u.s.area w.s.area
  let areaTerm := if hasGap u.s || hasGap w.s then 0 else cfg.get F.FLY_WEIGHT.W_A * (256 - 256 * a / b)
  capN 0xFFFFFFFF (cfg.get F.FLY_WEIGHT.W_X * cxApart u.s w.s
    + cfg.get F.FLY_WEIGHT.W_T * ((stampDiff w.t u.t - dtExp).natAbs / 1024) + areaTerm)

/-- The partner of `w` among its candidates with their costs, if it is matched (R197). -/
def partner (cfg : Device) (cs : List (UpperEntry × Nat)) : Option UpperEntry :=
  let sorted := sortBy (fun a b => decide (a.2 < b.2) || (a.2 == b.2 && idBefore a.1.f.s.id b.1.f.s.id)) cs
  match sorted with
  | [] => none
  | [a] => some a.1
  | a :: b :: _ => if a.2 < b.2 ∧ a.2 + cfg.get F.FLY_SMARGIN.SCORE_MARGIN ≤ b.2 then some a.1 else none

/-- A matched flight (R200, R201); the upper sighting leaves the store, and its speed updates the lane of the lower one. -/
def matched (d cfg : Device) (j : Int) (u : UpperEntry) (w : FlySight) : Device :=
  let g := cfg.get F.FLY_GEFF.G
  let dul := cfg.get F.FLY_DUL.D_UL
  let dt := (stampDiff w.t u.f.t).toNat
  let vm := meanSpeed dul dt
  let vL := capN 0xFFFFFFFF (vm + (rneDiv (g * dt : Nat) 2000000000).toNat)
  let rows := (rowsInUse cfg).map (fun r =>
    let delta := fallTime g vL (cfg.get (F.FLY_DLEr.DLE r))
    let x := (w.s.cx : Int) + rneDiv (((w.s.cx : Int) - u.f.s.cx) * delta) dt
    rowFlight d cfg j w r delta (clampI 0 (16 * (lowerWidth cfg : Int) - 1) x).toNat)
  let d1 := showUpper { d with fly := { d.fly with upper := d.fly.upper.erase u } }
  let d2 := feedLane (d1.count F.FLY_MATCHED.COUNT) cfg (laneOf cfg w.s.cx) vm u.f.t
  deliver d2 cfg j { mode := 0, flags := jfMatched, dec := w, upper := some u.f, dt := some dt, vL := some vL, rows := rows }

/-- An ambiguous or unmatched lower sighting takes the observer path (R204). -/
def observed (d cfg : Device) (j : Int) (w : FlySight) (ambiguous : Bool) : Device :=
  let g := cfg.get F.FLY_GEFF.G
  let k := laneOf cfg w.s.cx
  let vL := lowerSpeed g (laneEstimate (d.laneObs k) w.t) (cfg.get F.FLY_DUL.D_UL)
  let rows := (rowsInUse cfg).map (fun r => rowFlight d cfg j w r (fallTime g vL (cfg.get (F.FLY_DLEr.DLE r))) w.s.cx)
  let d1 := readLane d k
  let d2 := if ambiguous then d1.count F.FLY_AMBIGUOUS.COUNT else d1.count F.FLY_UNMATCHED.COUNT
  let fl := if ambiguous then jfAmbiguous + jfObserver else jfObserver
  deliver d2 cfg j { mode := if ambiguous then 1 else 2, flags := fl, dec := w, vL := some vL, rows := rows }

/-- A lower sighting in free fall (R196, R197). -/
def lowerStep (cfg : Device) (j : Int) (d : Device) (w : FlySight) : Device :=
  let us := d.fly.upper.filter (fun u => candidate cfg u.f w)
  if us.isEmpty then observed d cfg j w false
  else
    let k := laneOf cfg w.s.cx
    let dtExp := fallTime (cfg.get F.FLY_GEFF.G) (laneEstimate (d.laneObs k) w.t) (cfg.get F.FLY_DUL.D_UL)
    let d1 := readLane d k
    match partner cfg (us.map (fun u => (u, flightCost cfg u.f w dtExp))) with
    | some u => matched d1 cfg j u w
    | none => observed d1 cfg j w true

/-- A lower sighting in belt mode (R205). -/
def beltStep (cfg : Device) (j : Int) (d : Device) (w : FlySight) : Device :=
  let rows := (rowsInUse cfg).map (fun r => rowFlight d cfg j w r (cfg.get (F.FLY_DLEr.DLE r) * 65536) w.s.cx)
  deliver d cfg j { mode := 3, dec := w, rows := rows }

/-- An upper sighting whose expiry line has come (R198, R204). -/
def expireStep (cfg : Device) (j : Int) (d : Device) (u : UpperEntry) : Device :=
  let d0 := showUpper { d with fly := { d.fly with upper := d.fly.upper.erase u } }
  if splitOrCont u.f.s ∨ ¬ cfg.bit F.FLY_CFG.UPPER_ONLY_EN then d0.count F.FLY_UPPER_DROP.COUNT
  else
    let g := cfg.get F.FLY_GEFF.G
    let dul := cfg.get F.FLY_DUL.D_UL
    let k := laneOf cfg u.f.s.cx
    let v := laneEstimate (d.laneObs k) u.f.t
    let rows := (rowsInUse cfg).map (fun r => rowFlight d cfg j u.f r (fallTime g v (dul + cfg.get (F.FLY_DLEr.DLE r))) u.f.s.cx)
    deliver ((readLane d0 k).count F.FLY_UPPER_ONLY.COUNT) cfg j
      { mode := 2, flags := jfObserver, dec := u.f, vL := some (lowerSpeed g v dul), rows := rows }

/-- Before the matcher steps line `c`: the lane observers as they stand after line W − 1 are kept for the joining unit (R440). -/
def serveLanes (d : Device) (c : Int) : Device :=
  match serveAt d c with
  | some j => if j.lanes.isSome then d else d.setServe { j with lanes := some d.fly.obs.toList }
  | none => d

/-- FLIGHT_MATCHER_STEP: the step of the matcher's next line (R198). -/
def matcherDev (d0 : Device) : Device :=
  match d0.fly.stepQ with
  | [] => d0
  | c :: rest =>
    let d := serveLanes d0 c
    let cfg := d.asOf c
    let d1 := dueRestarts { d with fly := { d.fly with stepQ := rest } } cfg c
    let mine := d1.fly.lower.filter (fun w => decide (w.s.form ≤ c))
    let d2 := { d1 with fly := { d1.fly with lower := d1.fly.lower.filter (fun w => !decide (w.s.form ≤ c)) } }
    let d3 := mine.foldl (if cfg.bit F.FLY_CFG.MODE then beltStep cfg c else lowerStep cfg c) d2
    let dead := sortBy (fun a b => idBefore a.f.s.id b.f.s.id) (d3.fly.upper.filter (fun u => decide (u.exp ≤ c)))
    dead.foldl (expireStep cfg c) d3

/-- Flight at an apply whose line is `a`: a change of MODE, D_UL, G, LANE_W, LANE_BW or V_INIT restarts the lanes at the step of `a`
(R203). -/
def flyApply (old new : Device) (a : Int) : Device :=
  let key (d : Device) : List Nat :=
    [d.get F.FLY_CFG.MODE, d.get F.FLY_DUL.D_UL, d.get F.FLY_GEFF.G, d.get F.FLY_LANE.LANE_W, d.get F.FLY_LANE.LANE_BW, d.get F.FLY_VINIT.V_INIT]
  if key old = key new then new else { new with fly := { new.fly with restarts := new.fly.restarts ++ [a] } }

def execFlightMatcherStep (s : State) : Outcome := s.done (matcherDev s.dev)

end Sys2Proof.Machine
end

