-- ==== Sys2Proof/Machine/Forest.lean ====
section
/-! DEFINITION. The feature vector and the forest engine (R172 to R177), and the patch classifier array (R180 to R185). -/

namespace Sys2Proof.Machine

/-! ## Feature quantities (Table 8.2) -/

/-- The members of a sighting. -/
def Sighting.members (s : Sighting) : List Desc := s.front.toList ++ s.rear.toList

/-- The combined rule "mean" over the members present (R173). -/
def meanOf (q : Desc → Int) : List Desc → Int
  | [] => 0
  | [x] => q x
  | x :: y :: _ => rneDiv (q x + q y) 2

/-- Quantity `qty` of a sighting source, with its sign; none where the source or member does not exist (R173, R174). -/
def sightQty (s : Option Sighting) (member qty idx : Nat) : Option (Int × Bool) :=
  let mem : List Desc := match s with
    | none => []
    | some x => if member = 1 then x.front.toList else if member = 2 then x.rear.toList else x.members
  if qty = 13 then some ((if s.isSome then 1 else 0), false)
  else match s, mem with
  | some x, m :: _ =>
    let whole := member = 0
    let areas := (mem.map Desc.area).sum
    match qty with
    | 0 => some ((if whole then x.area else m.area : Nat), false)
    | 1 => some ((if whole then x.lines else m.lines : Nat), false)
    | 2 => some ((if whole then x.xMax + 1 - x.xMin else m.width : Nat), false)
    | 3 => some (meanOf (fun o => o.perim) mem, false)
    | 4 => some (meanOf (fun o => o.perClass.getD idx 0) mem, false)
    | 5 => some (meanOf (fun o => o.sums.getD idx 0) mem, false)
    | 6 => some (rneDiv (mem.map (fun o => o.sums.getD idx 0)).sum areas, false)
    | 7 => some (rneDiv (65535 * (mem.map (fun o => o.perClass.getD idx 0)).sum : Nat) areas, false)
    | 8 => some (meanOf (fun o => o.mu20) mem, false)
    | 9 => some (meanOf (fun o => o.mu02) mem, false)
    | 10 => some (meanOf (fun o => o.mu11) mem, true)
    | 11 => some ((if whole then x.flags % 4096 else m.flags % 128 : Nat), false)
    | 12 => some ((if whole then x.cx else m.cx : Nat), false)
    | _ => none
  | _, _ => none

/-- SPEED: v_L rounded to mm/s (R202); 0 in belt mode. -/
def JObj.speed (o : JObj) : Nat := (rneDiv (o.vL.getD 0) 65536).toNat

/-- Flight quantity `qty`, taken at the lowest-numbered row in use (R202). -/
def flightQty (o : JObj) (qty : Nat) : Option (Int × Bool) :=
  match qty with
  | 0 => o.vL.map (fun _ => ((o.speed : Int), false))
  | 1 => o.dt.map (fun t => (rneDiv t 1000, false))
  | 2 => if o.mode = 0 then o.rows.head?.map (fun r => (r.shift, true)) else none
  | 3 => o.rows.head?.map (fun r => (rneDiv r.delta 1000, false))
  | 4 => some (o.mode, false)
  | 5 => o.rows.head?.map (fun r => ((r.xE : Int), false))
  | _ => none

/-- Feature `i` (R172, R174). -/
def feature (cfg : Device) (o : JObj) (i : Nat) : Nat :=
  let src := cfg.get (F.FOR_FMAPi.SRC i)
  if src = 3 then cfg.get (F.FOR_FMAPi.CONST i)
  else
    let qty := cfg.get (F.FOR_FMAPi.QTY i)
    let v := if src = 2 then flightQty o qty
      else sightQty (if src = 0 then some o.dec.s else o.upper.map FlySight.s) (cfg.get (F.FOR_FMAPi.MEMBER i)) qty (cfg.get (F.FOR_FMAPi.IDX i))
    match v with
    | none => 0xFFFF
    | some (x, signed) =>
      let r := rneShift x (cfg.get (F.FOR_FMAPi.SHIFT i))
      (clampI 0 65535 (if signed then r + 32768 else r)).toNat

/-! ## The forest (R175, R176) -/

/-- Base of the node memory. -/
def nodeBase : Nat := 0x41000000

/-- Word `w` of the node memory. -/
def nodeWord (d : Device) (w : Nat) : Nat := d.num (nodeBase + 8 * w) 8

/-- Scores of the leaf record at `w`. -/
def leafScores (d : Device) (w : Nat) : List Int := (List.range 8).map (fun k => sx 16 (bitsOf (nodeWord d (w + k / 4)) (16 * (k % 4) + 15) (16 * (k % 4))))

/-- The leaf that a walk from word `w` reaches; `n` bounds its depth. -/
def walk (d : Device) (f : Nat → Nat) : Nat → Nat → Bool → Option Nat
  | _, w, true => some w
  | 0, _, false => none
  | n + 1, w, false =>
    let x := nodeWord d w
    if f (bitsOf x 63 57) ≤ bitsOf x 15 0 then walk d f n (bitsOf x 54 38) (bitAt x 56) else walk d f n (bitsOf x 37 21) (bitAt x 55)

/-- NCLASS. -/
def nClass (d : Device) : Nat := d.get F.FOR_CFG.NCLASS_M1 + 1

/-- Index of the largest of a list of scores; a tie goes to the lower index. -/
def argMax (l : List Int) : Nat :=
  ((l.zip (List.range l.length)).foldl (fun (m : Option (Int × Nat)) x => match m with
    | none => some x
    | some y => if y.1 < x.1 then some x else some y) none).elim 0 Prod.snd

/-- The largest score less the largest other one. -/
def marginOf (l : List Int) : Int :=
  let k := argMax l
  let others := (l.take k ++ l.drop (k + 1))
  match others with
  | [] => 0
  | x :: t => l.getD k 0 - t.foldl (fun m y => if m < y then y else m) x

/-- The class scores S_k of an object; none where a walk leaves the depth the check allows. -/
def forestScores (d cfg : Device) (o : JObj) : Option (List Int) :=
  let fs := ((List.range 128).map (feature cfg o)).toArray
  (List.range (cfg.get F.FOR_CFG.NTREES)).foldl (fun (acc : Option (List Int)) t =>
    match acc, walk d (fun i => fs.getD i 0) 12 (cfg.get (F.FOR_TREEt.ROOT t)) (cfg.bit (F.FOR_TREEt.ROOT_LEAF t)) with
    | some s, some w => some (s.zipWith (· + ·) (leafScores d w))
    | _, _ => none) (some (List.replicate (nClass cfg) 0))

/-- The words of the node memory that a tree reaches, a leaf as two words. -/
def treeWords (d : Device) : Nat → Nat → Bool → List Nat
  | _, w, true => [w, w + 1]
  | 0, _, false => []
  | n + 1, w, false =>
    let x := nodeWord d w
    w :: (treeWords d n (bitsOf x 54 38) (bitAt x 56) ++ treeWords d n (bitsOf x 37 21) (bitAt x 55))

/-- The words that the tree table of the configuration `cfg` reaches in the memory of `d`. -/
def forestWords (d cfg : Device) : List Nat :=
  (List.range (cfg.get F.FOR_CFG.NTREES)).flatMap (fun t => treeWords d 12 (cfg.get (F.FOR_TREEt.ROOT t)) (cfg.bit (F.FOR_TREEt.ROOT_LEAF t)))

/-- Objects with J before line `a` are still to be released, or may still come from lines that the matcher has not stepped (R177). -/
def earlierObjects (d : Device) (a : Int) : Bool :=
  (d.formQ 1).any (fun c => decide (c < a)) || d.fly.stepQ.any (fun c => decide (c < a)) || d.jud.objs.any (fun o => decide (o.j < a))

/-- The configuration before the last apply, while objects with J before its line remain (R177, R185). -/
def previousConfig (d : Device) : Option Device :=
  match d.slu.old with
  | some o => if earlierObjects d o.count then some { d with regs := o.regs, tabs := o.tabs } else none
  | none => none

/-- Word `w` is live: the live or the previous tree table reaches it; none is marked before the first apply (R177). -/
def nodeLive (d : Device) (w : Nat) : Bool :=
  (d.slu.applied && (forestWords d d).contains w) || (match previousConfig d with | some p => (forestWords d p).contains w | none => false)

/-! ## Patches (R180, R181) -/

/-- Cell of a sighting's patch centre, and line, for a ring of scale 1 or 2. -/
def patchCell (s : Sighting) (two : Bool) : Int := if two then (s.cx + 16) / 32 else (s.cx + 8) / 16
def patchLine (s : Sighting) : Int := s.centre + (s.centreFrac / 8 : Nat)

/-- What the tag of a ring row says of it. -/
inductive RowState where
  | usable | lost | stale
deriving DecidableEq, Repr

/-- A read of the row or its tag for the patch in progress has failed (Table 13.5, MP1). -/
def rowUnread (d cfg : Device) (v slot : Nat) : Bool :=
  d.dram.badReads.any (fun (m, a) => m == 1 && (a / 64 == tagAddr cfg v slot / 64
    || decide (rowAddr cfg v slot ≤ a ∧ a < rowAddr cfg v slot + rowPitch cfg v)))

/-- The state of the ring row of view `v` whose first line is `l` (R181, Table 6.2). -/
def rowState (d cfg : Device) (v : Nat) (l : Int) : RowState :=
  let slot := rowSlot cfg v l
  let tag := d.num (tagAddr cfg v slot) 8
  if tag = 2 ^ 64 - 1 ∨ tag % 2 ^ 32 ≠ lineOf l then .stale else if bitAt tag 32 ∨ rowUnread d cfg v slot then .lost else .usable

/-- First line of patch row `y` of a sighting in view `v`. -/
def patchRow (cfg : Device) (v : Nat) (s : Sighting) (y : Nat) : Int :=
  if cfg.bit (F.GEO_Vv_HIST.SCALE v) then 2 * (patchLine s / 2 - 16 + y) else patchLine s - 16 + y

/-- Channel `k` of the patch: its view and byte, where it is enabled. -/
def patchChannel (cfg : Device) (k : Nat) : Option (Nat × Nat) :=
  let w := (cfg.rd (R.CLA_INm (k / 4))).toNat
  let b := 8 * (k % 4)
  if bitAt w (b + 7) then some (bitsOf w (b + 3) (b + 2), bitsOf w (b + 1) b) else none

/-- The sighting that supplies a channel of view `v`. -/
def patchSighting (o : JObj) (v : Nat) : Option Sighting :=
  if o.mode = 3 then some o.dec.s
  else if v < 2 then (if o.dec.s.height = 0 then some o.dec.s else o.upper.map FlySight.s)
  else if o.dec.s.height = 1 then some o.dec.s else none

/-- PAD as an s8. -/
def padOf (cfg : Device) : Int := sx 8 (cfg.get F.CLA_PAD.PAD)

/-- Sample (y, x) of channel `k`. -/
def patchSample (d cfg : Device) (o : JObj) (k y x : Nat) : Int :=
  match patchChannel cfg k with
  | none => padOf cfg
  | some (v, b) => match patchSighting o v with
    | none => padOf cfg
    | some s =>
      let c := patchCell s (cfg.bit (F.GEO_Vv_HIST.SCALE v)) - 16 + x
      let l := patchRow cfg v s y
      if c < 0 ∨ (rowCells cfg v : Int) ≤ c then padOf cfg
      else match rowState d cfg v l with
        | .usable => ((d.byte (rowAddr cfg v (rowSlot cfg v l) + 4 * c.toNat + b)).toNat : Int) - 128
        | _ => padOf cfg

/-- The rows that the patch of an object uses: view and first line. -/
def patchRows (cfg : Device) (o : JObj) (inC : Nat) : List (Nat × Int) :=
  (((List.range inC).filterMap (patchChannel cfg)).map Prod.fst).eraseDups.flatMap (fun v => match patchSighting o v with
    | none => []
    | some s => (List.range 32).map (fun y => (v, patchRow cfg v s y)))

/-- Rows of the patch in a state, as the reader counts them. -/
def rowsIn (d cfg : Device) (o : JObj) (inC : Nat) (st : RowState) : Nat :=
  ((patchRows cfg o inC).filter (fun e => rowState d cfg e.1 e.2 = st)).length

/-! ## The network (R182 to R184) -/

/-- Base of the weights memory. -/
def weightBase : Nat := 0x42000000

/-- A layer descriptor (Table 8.4). -/
structure Layer where
  op : Nat
  relu : Bool
  stride2 : Bool
  inC : Nat
  outC : Nat
  inH : Nat
  inW : Nat
  wOff : Nat
  qOff : Nat
deriving DecidableEq, Repr

/-- Layer `i` of the list of a configuration. -/
def layerAt (d cfg : Device) (i : Nat) : Layer :=
  let a := weightBase + cfg.get F.CLA_CFG.LIST_BASE + 16 * i
  let fl := d.num (a + 1) 1
  { op := d.num a 1, relu := bitAt fl 0, stride2 := bitAt fl 1, inC := d.num (a + 2) 2, outC := d.num (a + 4) 2,
    inH := d.num (a + 6) 1, inW := d.num (a + 7) 1, wOff := d.num (a + 8) 4, qOff := d.num (a + 12) 4 }

/-- NLAYERS, and the layers of a configuration. -/
def nLayers (d : Device) : Nat := d.get F.CLA_CFG.NLAYERS_M1 + 1
def layers (d cfg : Device) : List Layer := (List.range (nLayers cfg)).map (layerAt d cfg)

/-- Output height, width and channels (Table 8.5). -/
def Layer.outH (l : Layer) : Nat :=
  match l.op with | 1 | 3 => ceilDiv l.inH (if l.stride2 then 2 else 1) | 4 => l.inH / 2 | 5 | 6 => 1 | _ => l.inH
def Layer.outW (l : Layer) : Nat :=
  match l.op with | 1 | 3 => ceilDiv l.inW (if l.stride2 then 2 else 1) | 4 => l.inW / 2 | 5 | 6 => 1 | _ => l.inW
def Layer.outCh (l : Layer) : Nat := match l.op with | 3 | 4 | 5 => l.inC | _ => l.outC

/-- Weights of a MAC layer, its output channels with a quantisation record, and the MAC operations of one pass. -/
def Layer.weights (l : Layer) : Nat :=
  match l.op with | 1 => l.outC * 9 * l.inC | 2 => l.outC * l.inC | 3 => 9 * l.inC | 6 => l.outC * (l.inH * l.inW * l.inC) | _ => 0
def Layer.records (l : Layer) : Nat := match l.op with | 1 | 2 | 6 => l.outC | 3 => l.inC | _ => 0
def Layer.macs (l : Layer) : Nat :=
  let p := l.outH * l.outW
  match l.op with | 1 => p * l.outC * 9 * l.inC | 2 => p * l.outC * l.inC | 3 => p * 9 * l.inC | 6 => l.weights | _ => 0

/-- s8 weight `n` of a layer. -/
def weight (d : Device) (l : Layer) (n : Nat) : Int := sx 8 (d.num (weightBase + l.wOff + n) 1)

/-- The quantised output of an accumulator of channel `o` (R183). -/
def quantise (d : Device) (l : Layer) (o : Nat) (acc : Int) : Int :=
  let a := weightBase + l.qOff + 8 * o
  let r := rneShift ((acc + sx 32 (d.num a 4)) * d.num (a + 4) 2) (d.num (a + 6) 1)
  clampI (-128) 127 (if l.relu ∧ r < 0 then 0 else r)

/-- Input value at (y, x, c); positions outside the tensor read 0. -/
def tensorAt (l : Layer) (a : Array Int) (y x : Int) (c : Nat) : Int :=
  if y < 0 ∨ x < 0 ∨ (l.inH : Int) ≤ y ∨ (l.inW : Int) ≤ x then 0 else a.getD ((y.toNat * l.inW + x.toNat) * l.inC + c) 0

/-- Sum of a function over 0 to n − 1. -/
def sumTo (n : Nat) (f : Nat → Int) : Int := (List.range n).foldl (fun s k => s + f k) 0

/-- Value (y, x, o) of a layer's output (Table 8.5). -/
def layerOut (d : Device) (l : Layer) (a : Array Int) (y x o : Nat) : Int :=
  let s := if l.stride2 then 2 else 1
  let tap (k : Nat) (c : Nat) : Int := tensorAt l a ((s * y : Nat) + (k / 3 : Nat) - 1) ((s * x : Nat) + (k % 3 : Nat) - 1) c
  let pool (r : Int) : Int := if l.relu ∧ r < 0 then 0 else r
  match l.op with
  | 1 => quantise d l o (sumTo 9 (fun k => sumTo l.inC (fun i => weight d l ((o * 9 + k) * l.inC + i) * tap k i)))
  | 2 => quantise d l o (sumTo l.inC (fun i => weight d l (o * l.inC + i) * tensorAt l a y x i))
  | 3 => quantise d l o (sumTo 9 (fun k => weight d l (o * 9 + k) * tap k o))
  | 4 =>
    let v (k : Nat) : Int := tensorAt l a ((2 * y + k / 2 : Nat)) ((2 * x + k % 2 : Nat)) o
    pool ((List.range 4).foldl (fun m k => if m < v k then v k else m) (v 0))
  | 5 => pool (rneDiv (sumTo (l.inH * l.inW) (fun p => a.getD (p * l.inC + o) 0)) (l.inH * l.inW))
  | 6 => quantise d l o (sumTo (l.inH * l.inW * l.inC) (fun n => weight d l (o * (l.inH * l.inW * l.inC) + n) * a.getD n 0))
  | _ => 0

/-- A layer applied to a tensor. -/
def runLayer (d : Device) (l : Layer) (a : Array Int) : Array Int :=
  let w := l.outW
  let c := l.outCh
  ((List.range (l.outH * w * c)).map (fun n => layerOut d l a (n / c / w) (n / c % w) (n % c))).toArray

/-- The input patch of an object. -/
def patchOf (d cfg : Device) (o : JObj) (inC : Nat) : Array Int :=
  ((List.range (1024 * inC)).map (fun n => patchSample d cfg o (n % inC) (n / inC / 32) (n / inC % 32))).toArray

/-- IN_C of the first layer. -/
def inChannels (d cfg : Device) : Nat := (layerAt d cfg 0).inC

/-- The classifier scores of an object. -/
def classifierScores (d cfg : Device) (o : JObj) : List Int :=
  ((layers d cfg).foldl (fun a l => runLayer d l a) (patchOf d cfg o (inChannels d cfg))).toList

/-- MAC operations of the network of a configuration. -/
def networkMacs (d cfg : Device) : Nat := ((layers d cfg).map Layer.macs).sum

/-- Byte `x` of the weights memory is used by the layer list of the configuration `cfg`. -/
def weightUsed (d cfg : Device) (x : Nat) : Bool :=
  let base := cfg.get F.CLA_CFG.LIST_BASE
  (decide (base ≤ x) && decide (x < base + 16 * nLayers cfg)) ||
    (layers d cfg).any (fun l => (decide (l.wOff ≤ x) && decide (x < l.wOff + l.weights))
      || (decide (l.qOff ≤ x) && decide (x < l.qOff + 8 * l.records)))

/-- Byte `x` of the weights memory is live: the live or the previous layer list uses it; none is marked before the first apply (R185). -/
def weightLive (d : Device) (x : Nat) : Bool :=
  (d.slu.applied && weightUsed d d x) || (match previousConfig d with | some p => weightUsed d p x | none => false)

end Sys2Proof.Machine
end

