-- ==== Sys2Proof/Machine/Judge.lean ====
section
/-! DEFINITION. The cascade (R178 to R192): selection under the grant, decisions, the late rule, release in judgement order, records,
the digest sequence of R441, and the power states of the array (R186). -/

namespace Sys2Proof.Machine

def Device.setObjs (d : Device) (os : List JObj) : Device := { d with jud := { d.jud with objs := os } }

/-! ## Selection (R178) -/

/-- Objects of cycle `c` classified so far. -/
def usedIn (d : Device) (c : Nat) : Nat := (d.jud.used.find? (fun e => e.1 = c)).elim 0 Prod.snd

/-- One more object of cycle `c` is classified; CASC_USED shows the count of the current cycle. -/
def useOne (d : Device) (c : Nat) : Device :=
  let n := usedIn d c + 1
  let d1 := { d with jud := { d.jud with used := ((c, n) :: d.jud.used.filter (fun e => e.1 ≠ c)).take 64 } }
  d1.set F.CASC_USED.COUNT (usedIn d1 (cycleOf d1 d1.tb.count))

/-- THR of forest class `k`. -/
def threshold (cfg : Device) (k : Nat) : Int := if k % 2 = 0 then cfg.getI (F.CASC_THRm.THR_EVEN (k / 2)) else cfg.getI (F.CASC_THRm.THR_ODD (k / 2))

/-- CAP for an object: that of the configuration live at its J, 0 while the array is not ON (R179, R186). -/
def capFor (d : Device) (o : JObj) : Nat := if d.get F.CLA_POWER.STATE = 0 ∧ d.get F.RSV_POWER.JDG_STATE = 0 then o.cap else 0

/-- The cascade selects an object whose forest result is `f`. -/
def selectOne (d : Device) (o : JObj) (f : Forest) : Device × JObj :=
  let cfg := d.asOf o.j
  let thr := threshold cfg f.cls
  if f.stopped ∨ ¬ cfg.bit F.CASC_CFG.CLA_EN ∨ thr ≤ f.margin then (d, { o with sel := .forest })
  else
    let d1 := d.count F.CASC_CANDIDATES.COUNT
    if f.margin < rneDiv (thr * o.g) 256 ∧ usedIn d o.cycle < Nat.min o.q (capFor d o) then
      ((useOne d1 o.cycle).count F.CASC_CLASSIFIED.COUNT, { o with sel := .granted, flags := o.flags ||| jfClassified })
    else ((d1.count F.CASC_DENIED.COUNT).raise F.CASC_FLAGS.DENIED, { o with sel := .denied, flags := o.flags ||| jfDenied })

/-- Selection in judgement order, up to the first object whose forest evaluation has not ended. -/
def selectFrom (d : Device) (before : List JObj) : List JObj → Device
  | [] => d.setObjs before
  | o :: t =>
    match o.forest with
    | none => d.setObjs (before ++ o :: t)
    | some f =>
      if o.sel = .waiting then let (d1, o1) := selectOne d o f; selectFrom d1 (before ++ [o1]) t
      else selectFrom d (before ++ [o]) t

/-- The forest evaluation of one object of judgement ends. -/
def forestResult (d : Device) (o : JObj) : Option Forest :=
  let cfg := d.asOf o.j
  match forestScores d cfg o with
  | none => none
  | some s => some { cls := argMax s, margin := marginOf s, at_ := transportNow d }

/-- FOREST_DONE: the evaluation of the k-th object in judgement order ends; an uncorrectable node error stops it (R177). -/
def forestDoneDev (k : Nat) (ecc : Ecc) (d : Device) : Device :=
  match d.jud.objs[k]? with
  | none => d
  | some o =>
    if o.forest.isSome then d
    else
      let d1 := d.count F.FOR_EVALS.COUNT
      let d2 := match ecc with
        | .clean => d1
        | .corrected => ((d1.count F.FOR_ECC_CORR.COUNT).raise F.FOR_FLAGS.ECC_CORR).fault (faultEccCorr 4) 0
        | .uncorrected => (d1.raise F.FOR_FLAGS.ECC_UNCORR).fault faultForUncorr 0
      let (st, d3) := stoppedForest d2
      let good := if ecc = .uncorrected then none else forestResult d o
      match good with
      | some f => selectFrom d2 [] (d2.jud.objs.set k { o with forest := some f })
      | none => selectFrom d3 [] (d3.jud.objs.set k { o with forest := some st })

/-- CLASSIFIER_DONE: the array ends its patch, the first granted one in judgement order; an uncorrectable weight error stops it (R185). -/
def classifierDoneDev (ecc : Ecc) (d : Device) : Device :=
  match (d.jud.objs.zip (List.range d.jud.objs.length)).find? (fun e => e.1.sel = .granted) with
  | none => d
  | some (o, k) =>
    let cfg := d.asOf o.j
    let n := inChannels d cfg
    let lost := rowsIn d cfg o n .lost
    let stale := rowsIn d cfg o n .stale
    let d1 := (d.count F.CLA_ROWS_LOST.COUNT lost).count F.CLA_ROWS_STALE.COUNT stale
    let d2 := if stale = 0 then d1 else (d1.raise F.CLA_FLAGS.ROWS_STALE).fault faultRowsStale 0
    let d3 := match ecc with
      | .clean => d2
      | .corrected => ((d2.count F.CLA_ECC_CORR.COUNT).raise F.CLA_FLAGS.ECC_CORR).fault (faultEccCorr 4) 0
      | .uncorrected => (d2.raise F.CLA_FLAGS.ECC_UNCORR).fault faultClaUncorr 0
    let d4 := { d3 with dram := { d3.dram with badReads := d3.dram.badReads.filter (fun r => r.1 != 1) } }
    if ecc = .uncorrected then d4.setObjs (d4.jud.objs.set k { o with sel := .stopped })
    else
      let c := argMax (classifierScores d cfg o)
      (d4.setObjs (d4.jud.objs.set k { o with sel := .classified c })).count F.CLA_PATCHES.COUNT

/-! ## The decision (R187, R189) -/

/-- Which rule of R187 gave an action. -/
inductive DecidedBy where
  | flagRule | size | alternative
deriving DecidableEq, Repr

/-- The action of R187 for class `k`, and the rule that gave it. -/
def decide187 (cfg : Device) (o : JObj) (k : Nat) : Nat × DecidedBy :=
  let fl := (o.dec.s.flags ||| (match o.upper with | some u => u.s.flags | none => 0)) % 4096
  if cfg.bit F.CASC_FLAG_RULE.EN ∧ fl &&& cfg.get F.CASC_FLAG_RULE.MASK ≠ 0 then (cfg.get F.CASC_FLAG_RULE.ACTION, .flagRule)
  else if cfg.get (F.CASC_AMINk.AREA_MIN k) ≤ o.dec.s.area ∧ o.dec.s.area ≤ cfg.get (F.CASC_AMAXk.AREA_MAX k) then
    (cfg.get (F.CASC_ACTk.ACTION k), .size)
  else (cfg.get (F.CASC_ACTk.ALT_ACTION k), .alternative)

/-- The counter of the rule that decided. -/
def countRule (d : Device) : DecidedBy → Device
  | .flagRule => d.count F.CASC_FLAG_HITS.COUNT
  | .size => d
  | .alternative => d.count F.CASC_SIZE_ALT.COUNT

/-- The flight to the row of an eject action, or to the lowest-numbered row in use for any other (R202). -/
def JObj.rowOf (o : JObj) (action : Nat) : Option RowFlight :=
  if action = 1 ∨ action = 2 then o.rows.find? (fun r => r.row + 1 = action) else o.rows.head?

/-- The deadline that a release is compared with (R189). -/
def JObj.deadline (o : JObj) (action : Nat) : Option Nat :=
  if action = 1 ∨ action = 2 then (o.rows.find? (fun r => r.row + 1 = action)).map RowFlight.deadline
  else o.rows.foldl (fun m r => match m with
    | none => some r.deadline
    | some x => if stampBefore r.deadline x then some r.deadline else some x) none

/-- The object waits for nothing more (R188). -/
def JObj.ready (o : JObj) : Bool := o.sel ≠ .waiting && o.sel ≠ .granted

/-- The final class (R184). -/
def JObj.finalClass (o : JObj) (f : Forest) : Nat := match o.sel with | .classified k => k | _ => f.cls

/-- What a release decides: action, whether the object is late, and the rule that counts. -/
structure Decision where
  action : Nat
  late : Bool
  rule : Option DecidedBy
deriving DecidableEq, Repr

/-- R187 and R189 at transport stamp `now`. -/
def decision (cfg : Device) (o : JObj) (f : Forest) (now : Nat) : Decision :=
  let stopped := f.stopped || o.sel = .stopped
  let byForest := decide187 cfg o f.cls
  let mode1 := cfg.bit F.CASC_CFG.LATE_MODE
  let lateAction := cfg.get F.CASC_CFG.LATE_ACTION
  if stopped then
    let intime : Bool := match o.deadline byForest.1 with | some dl => stampBefore f.at_ dl | none => true
    if mode1 ∧ ¬ f.stopped ∧ intime then { action := byForest.1, late := true, rule := some byForest.2 }
    else { action := lateAction, late := true, rule := none }
  else
    let a := decide187 cfg o (o.finalClass f)
    match o.deadline a.1 with
    | some dl =>
      if stampBefore dl now then
        { action := if mode1 ∧ stampBefore f.at_ dl then byForest.1 else lateAction, late := true, rule := some a.2 }
      else { action := a.1, late := false, rule := some a.2 }
    | none => { action := a.1, late := false, rule := some a.2 }

/-! ## Records (R170, R190) -/

/-- The first 60 bytes of the host object record (Table 7.4). -/
def recordBody (o : JObj) (f : Forest) (action windows flags : Nat) : List Byte :=
  let s := o.dec.s
  let mem := s.members
  let row := o.rowOf action
  let areas := (mem.map Desc.area).sum
  let defect := ((mem.map (fun m => ((m.perClass.drop 2).take 14).sum)).sum : Nat)
  let mean (b : Nat) : Nat := capN 255 (rneDiv (mem.map (fun m => m.sums.getD b 0)).sum (areas * 256)).toNat
  leBytes 4 s.id ++ leBytes 4 (lineOf s.centre) ++ leBytes 8 (row.elim 0 RowFlight.tE)
    ++ leBytes 4 (s.cx + 2 ^ 20 * s.centreFrac + 2 ^ 24 * s.height) ++ leBytes 4 ((row.elim s.cx RowFlight.xE) % 2 ^ 20) ++ leBytes 4 s.area
    ++ leBytes 2 s.lines ++ leBytes 2 (s.xMax + 1 - s.xMin) ++ leBytes 4 (capN 0xFFFFFFFF (rneDiv defect mem.length).toNat)
    ++ leBytes 2 (capN 0xFFFF o.speed) ++ leBytes 2 s.flags ++ leBytes 2 flags ++ leBytes 1 (o.finalClass f) ++ leBytes 1 action
    ++ leBytes 2 (wrapN 16 (clampI (-32768) 32767 f.margin)) ++ leBytes 2 windows ++ (List.range 8).flatMap (fun b => leBytes 1 (mean b))
    ++ leBytes 4 (match o.upper with | some u => u.s.id | none => 0xFFFFFFFF)

/-- A record is made for the object under REC_MODE (R190). -/
def recordWanted (cfg : Device) (o : JObj) (action : Nat) : Bool :=
  let ej := action == 1 || action == 2
  match cfg.get F.CASC_CFG.REC_MODE with
  | 0 => false
  | 1 => ej
  | 2 => true
  | _ => ej || o.dec.s.id % 2 ^ cfg.get F.CASC_CFG.REC_LOG2 == 0

/-- A made record enters the buffer of the object-stream engine of 65,536 records; a full buffer or a link that is down drops it
(R190, R322). -/
def streamRecord (d : Device) (r : List Byte) : Device :=
  if d.jud.stream.length < 65536 ∧ d.bit F.ETH_STATUS.LINK then { d with jud := { d.jud with stream := d.jud.stream ++ [r] } }
  else
    let d1 := { d with jud := { d.jud with dropped := d.jud.dropped + 1 } }
    ((d1.count F.CASC_REC_DROP.COUNT).count F.KCP_OBJ_DROP.V).raise F.CASC_FLAGS.REC_DROP

/-! ## Chain windows (R451, R452) -/

/-- Device ID of this device. -/
def deviceId (d : Device) : Nat := d.get F.PAIR_CHAIN.ID

def Device.peer (d : Device) (n : Nat) : Peer := unit d.peers n
def Device.setPeer (d : Device) (n : Nat) (p : Peer) : Device := { d with peers := withUnit d.peers n p }

/-- A peer port is UP. -/
def peerUp (d : Device) (n : Nat) : Bool := decide (n < 3) && d.get (F.PEERn_STATUS.STATE n) == 5

/-- Port through which frames for device `t` leave (R452); none without a route whose link is up. -/
def routeTo (d : Device) (t : Nat) : Option Nat :=
  if ¬ d.bit (F.PAIR_ROUTEd.EN t) then none
  else
    let p := d.get (F.PAIR_ROUTEd.PORT t)
    let a := d.get (F.PAIR_ROUTEd.ALT_PORT t)
    if peerUp d p then some p else if d.bit (F.PAIR_ROUTEd.ALT_EN t) ∧ peerUp d a then some a else none

/-- A frame becomes ready on peer port `n`. -/
def queueFrame (d : Device) (n : Nat) (f : PeerFrame) : Device := d.setPeer n { d.peer n with ready := (d.peer n).ready ++ [f] }

/-- Only an ACTIVE or OFF unit sends windows (R451). -/
def sendsWindows (d : Device) : Bool := d.get F.PAIR_STATUS.STATE == 0 || d.get F.PAIR_STATUS.STATE == 3

/-- The WINDOW payload (Table 21.7). -/
def windowPayload (w : WindowReq) : List Byte :=
  leBytes 4 w.sightId ++ leBytes 1 (w.row % 2) ++ leBytes 3 0 ++ leBytes 4 (wrapN 32 w.lo) ++ leBytes 4 (wrapN 32 w.hi) ++ leBytes 8 w.tF
    ++ leBytes 8 w.tB

/-- One WINDOW frame to device `t`. -/
def sendWindow (d : Device) (line t : Nat) (w : WindowReq) : Device :=
  match routeTo d t with
  | some p => (queueFrame d p { body := .window w, src := deviceId d, dst := t, line := line }).count F.CHAIN_FWD_TX.V
  | none => d.count F.CHAIN_FWD_DROP.V

/-- The forwards of an eject (R451): the device, and the payloads as the digest takes them. -/
def forwardAll (d cfg : Device) (o : JObj) (r : RowFlight) (lo hi : Int) : Device × List (List Byte) :=
  let ks := forwards cfg r.row lo hi
  let w : WindowReq := { sightId := o.dec.s.id, row := r.row, lo := lo, hi := hi, tF := r.tF, tB := r.tB }
  let d1 := if ¬ sendsWindows d then d else ks.foldl (fun d k =>
    let d1 := sendWindow d (lineOf o.j) (cfg.get (F.PAIR_FWDk_CFG.DEST0 k)) w
    if cfg.bit (F.PAIR_FWDk_CFG.DUAL k) then sendWindow d1 (lineOf o.j) (cfg.get (F.PAIR_FWDk_CFG.DEST1 k)) w else d1) d
  (d1, ks.map (fun _ => windowPayload w))

/-! ## Release (R188) -/

/-- Bytes join the digest sequence of a cycle (R441). -/
def digestAdd (d : Device) (c : Nat) (bs : List Byte) : Device :=
  let old := (d.jud.digests.find? (fun e => e.1 = c)).elim [] Prod.snd
  { d with jud := { d.jud with digests := (c, old ++ bs) :: d.jud.digests.filter (fun e => e.1 ≠ c) } }

/-- A window as the digest takes it: channel, open and close. -/
def windowBytes (w : Window) : List Byte := leBytes 2 w.chan ++ leBytes 8 w.opn ++ leBytes 8 w.cls

/-- The windows and forwards of an action (R210, R451): the device, JUDGE_FLAGS bits, windows kept and payloads forwarded. -/
def ejectAll (d cfg : Device) (o : JObj) (action : Nat) : Device × Nat × List Window × List (List Byte) :=
  if action ≠ 1 ∧ action ≠ 2 then (d, 0, [], [])
  else match o.rows.find? (fun r => r.row + 1 = action) with
    | none => (noValve d, 0, [], [])
    | some r =>
      let (lo, hi) := ejectSpan cfg o.dec.s r.shift
      let d0 := if (covering cfg r.row lo hi).isEmpty then noValve d else d
      let (d1, fl, ws) := placeAll d0 cfg o.j r.row r.tF r.tB r.deadline lo hi
      let (d2, ps) := forwardAll d1 cfg o r (lo + gridUnits cfg) (hi + gridUnits cfg)
      (d2, if ps.isEmpty then fl else fl ||| jfForwarded, ws, ps)

/-- The object `o` with forest result `f` is released. -/
def releaseObj (d : Device) (o : JObj) (f : Forest) : Device :=
  let cfg := d.asOf o.j
  let x := decision cfg o f (transportNow d)
  let d1 := match x.rule with | some r => countRule d r | none => d
  let d2 := if x.late then (d1.count F.CASC_LATE.COUNT).raise F.CASC_FLAGS.LATE else d1
  let k := o.finalClass f
  let d3 := ((d2.count F.CASC_OBJECTS.COUNT).count (F.CASC_CLASS_k.COUNT k)).count (F.CASC_ACTION_a.COUNT x.action)
  let (d4, wf, ws, ps) := ejectAll (d3.emit (202 + k) d.nowNs) cfg o x.action
  let body := recordBody o f x.action ws.length (o.flags ||| wf ||| (if x.late then jfLate else 0))
  let d5 := digestAdd d4 o.cycle (body ++ ws.flatMap windowBytes ++ ps.flatMap (fun p => p.drop 4))
  if recordWanted cfg o x.action then streamRecord d5 (withCrc body) else d5

/-- DECISION_RELEASE: the first object in judgement order is released once it is ready. -/
def releaseDev (d : Device) : Device :=
  match d.jud.objs with
  | [] => d
  | o :: rest =>
    match o.forest with
    | none => d
    | some f => if o.ready then releaseObj (d.setObjs rest) o f else d

/-! ## The array's power (R186) -/

/-- CAP as CASC_CAP shows it: 0 while the array is not ON; a quota above it sets QUOTA_CAP (R179). -/
def showCap (d : Device) : Device :=
  let cap := if d.get F.CLA_POWER.STATE = 0 ∧ d.get F.RSV_POWER.JDG_STATE = 0 then d.jud.capLive else 0
  let d1 := d.set F.CASC_CAP.CAP cap
  if cap < d.get F.CASC_QUOTA.Q then d1.raise F.CASC_FLAGS.QUOTA_CAP else d1

/-- CLA_POWER_REQ: REQ = 1 powers the array down, REQ = 0 requests it on; a request for ON during SHUTDOWN is held (R186). -/
def claPowerDev (value : Word) (d : Device) : Device :=
  let off := value.toNat % 2 = 1
  let st := d.get F.CLA_POWER.STATE
  let d1 := d.set F.CLA_POWER.REQ value.toNat
  if off then
    if st = 0 ∨ st = 1 then showCap (d1.set F.CLA_POWER.STATE 3) else d1.setBit F.CLA_POWER.ENABLE_PENDING false
  else if st = 2 then d1.set F.CLA_POWER.STATE 1
  else if st = 3 then d1.setBit F.CLA_POWER.ENABLE_PENDING true
  else d1

/-- CLA_SHUTDOWN_DONE: the granted patches are finished and the array reaches OFF; a held request starts it again. -/
def claOffDev (d : Device) : Device :=
  if d.get F.CLA_POWER.STATE ≠ 3 ∨ d.jud.objs.any (fun o => o.sel = .granted) then d
  else if d.bit F.CLA_POWER.ENABLE_PENDING then (d.setBit F.CLA_POWER.ENABLE_PENDING false).set F.CLA_POWER.STATE 1
  else d.set F.CLA_POWER.STATE 2

/-- CLA_WAKE_DONE: the array reaches ON. -/
def claWakeDev (d : Device) : Device := if d.get F.CLA_POWER.STATE ≠ 1 then d else showCap (d.set F.CLA_POWER.STATE 0)

/-- The grant of a cycle becomes live at its first line (R178, R421). -/
def setGrant (d : Device) (c g q : Nat) : Device :=
  let d1 := (d.set F.CASC_GRANT.G g).set F.CASC_QUOTA.Q q
  let d2 := { d1 with jud := { d1.jud with grants := ((c, g, q) :: d1.jud.grants.filter (fun e => e.1 ≠ c)).take 64 } }
  showCap (d2.set F.CASC_USED.COUNT (usedIn d2 c))

/-- Every object still in judgement takes the late path (Table 22.3, Judgement). -/
def stopJudgement (d0 : Device) : Device :=
  let r := d0.jud.objs.foldl (fun (acc : Device × List JObj) o =>
    match o.forest with
    | some _ => (acc.1, acc.2 ++ [{ o with sel := .stopped }])
    | none => let (f, d1) := stoppedForest acc.1; (d1, acc.2 ++ [{ o with forest := some f, sel := .stopped }])) (d0, [])
  r.1.setObjs r.2

/-! ## Meanings -/

def execForestDone (k : Nat) (ecc : Ecc) (s : State) : Outcome := s.done (forestDoneDev k ecc s.dev)
def execClassifierDone (ecc : Ecc) (s : State) : Outcome := s.done (classifierDoneDev ecc s.dev)
def execDecisionRelease (s : State) : Outcome := s.done (releaseDev s.dev)
def execClaPowerReq (value : Word) (s : State) : Outcome := s.done (regAccess R.CLA_POWER true (claPowerDev value) s.dev)
def execClaShutdownDone (s : State) : Outcome := s.done (claOffDev s.dev)
def execClaWakeDone (s : State) : Outcome := s.done (claWakeDev s.dev)

end Sys2Proof.Machine
end

