-- ==== Sys2Proof/Machine/Reservoir.lean ====
section
/-! DEFINITION. The reservoir, plans, the weir, NCLK and the power domains (R414 to R429). -/

namespace Sys2Proof.Machine

/-! ## Meters (R414, R419) -/

/-- One sample: energies of regions 1 to 6 in 2^-16 µJ, and the sixteen junction temperatures in 0.125 °C. -/
def meterSample (energy : List Nat) (temps : List Int) (d : Device) : Device :=
  let r := d.rsv
  let add (v : Vector Nat 6) : Vector Nat 6 := Vector.ofFn (fun i => v.get i + energy.getD i.val 0)
  let tj := temps.foldl (fun (m : Option Int) t => match m with | none => some t | some u => some (if u < t then t else u)) r.tj
  let d1 := { d with rsv := { r with acc := add r.acc, cyc := add r.cyc, tj := tj } }
  d1.raiseIf (temps.any (fun t => decide (8 * ((d.get F.RSV_TCASE.T_CASE : Int) + 5) < t))) F.RSV_FLAGS.CASE_OVER

/-- What RSV_Rr_ENERGY reads: the accumulator in µJ, for region index r from 0. -/
def regionEnergy (d : Device) (r : Nat) : Nat := unit d.rsv.acc r / 2 ^ 16 % 2 ^ 64

/-! ## The weir (R423 to R427) -/

/-- P16 in mW from the last 16 completed cycles. -/
def p16 (d : Device) : Nat :=
  let e := ((d.rsv.hist.take 16).map Prod.fst).sum
  let t := ((d.rsv.hist.take 16).map Prod.snd).sum
  if t = 0 then 0 else (rneDiv ((e : Int) * 1000000) t).toNat

/-- The completed cycle enters the meters' registers; the next one starts at `t` ns. -/
def closeCycle (d : Device) (t : Nat) : Device :=
  let r := d.rsv
  match r.cycStart with
  | none => { d with rsv := { r with cycStart := some t, cyc := Vector.replicate 6 0, tj := none } }
  | some t0 =>
    let e := (r.cyc.toList.sum) / 2 ^ 16
    let d1 := (List.range 6).foldl (fun d k => d.wr (R.RSV_Rr_CYC k) (BitVec.ofNat 32 (unit r.cyc k / 2 ^ 16))) d
    let d2 := d1.wr R.RSV_CYC_ENERGY (BitVec.ofNat 32 e)
    let d3 := match r.tj with | some t => d2.wr R.RSV_TJ (BitVec.ofNat 32 (wrapN 16 t)) | none => d2
    { d3 with rsv := { r with cycStart := some t, cyc := Vector.replicate 6 0, tj := none, hist := ((e, t - t0) :: r.hist).take 16 } }

/-- The power demand D_P at a decision (R423), with the over-budget fault of R427. -/
def powerDemand (d : Device) : Device :=
  let p := p16 d
  let lim := d.get F.RSV_LIMIT.LIMIT
  let dp := d.get F.RSV_STATUS.D_P
  let hard : Bool := decide (115 * lim < 100 * p)
  let overCount := if hard then d.rsv.overCount + 1 else 0
  let up := if 64 ≤ overCount then 3 else if 110 * lim < 100 * p then 2 else if 105 * lim < 100 * p then 1 else 0
  let under := if p ≤ lim then d.rsv.under + 1 else 0
  let fall : Bool := under == 16
  let dp1 := Nat.max (if fall then dp - 1 else dp) up
  let late := if hard ∧ d.get F.RSV_STATUS.STAGE = 3 then d.rsv.overRt + 1 else 0
  let d1 := (d.wr R.RSV_AVG16 (BitVec.ofNat 32 p)).set F.RSV_STATUS.D_P dp1
  let d2 := { d1 with rsv := { d1.rsv with overCount := overCount, under := if fall then 0 else under, overRt := late } }
  if late = 64 then (d2.raise F.RSV_FLAGS.OVER_RT).fault faultOverRt 0 else d2

/-- The thermal demand D_T from the highest temperature of the completed cycle (R424). -/
def thermalDemand (d : Device) (tj : Option Int) : Device :=
  match tj with
  | none => d
  | some t =>
    let dt := d.get F.RSV_STATUS.D_T
    let hot := if 1040 < t then d.rsv.hotCycles + 1 else 0
    let cool := if t ≤ 1000 then d.rsv.coolCycles + 1 else 0
    let up := if 64 ≤ hot then 3 else if 16 ≤ hot then 2 else if 1 ≤ hot then 1 else 0
    let dt1 := Nat.max (if cool ≠ 0 ∧ cool % 16 = 0 then dt - 1 else dt) up
    let d1 := { d with rsv := { d.rsv with hotCycles := hot, coolCycles := cool } }
    (d1.set F.RSV_STATUS.D_T dt1).raiseIf (decide (1040 < t)) F.RSV_FLAGS.TJ_HIGH

/-- NCLK of a step code in MHz (R425). -/
def nclkMHz (code : Nat) : Nat := match code with | 0 => 1200 | 1 => 900 | 2 => 600 | _ => 300

/-- NCLK steps at the first line of every 16th cycle while D_T ≥ 2, and up after each 16 consecutive cool cycles (R425). -/
def nclkStep (d : Device) (c : Nat) (tj : Option Int) : Device :=
  let n := d.get F.RSV_STATUS.NCLK
  let cool := d.rsv.coolCycles
  if 2 ≤ d.get F.RSV_STATUS.D_T ∧ c % 16 = 0 ∧ n < d.get F.RSV_STATUS.FLOOR then d.set F.RSV_STATUS.NCLK (n + 1)
  else if tj.isSome ∧ cool ≠ 0 ∧ cool % 16 = 0 ∧ 0 < n then d.set F.RSV_STATUS.NCLK (n - 1)
  else d

/-- The demand that this unit has decided. -/
def ownDemand (d : Device) : Nat := Nat.max (d.get F.RSV_STATUS.D_P) (d.get F.RSV_STATUS.D_T)

/-- The weir's decision at the first line of cycle `c`: kept for the stage of cycle c + 2 (R426). -/
def weirDecide (d : Device) (c : Nat) (tj : Option Int) : Device :=
  let d1 := nclkStep (thermalDemand (powerDemand d) tj) c tj
  { d1 with rsv := { d1.rsv with stages := ((c, ownDemand d1) :: d1.rsv.stages).take 4 } }

/-- The demand decided at cycle `c` in a list. -/
def demandAt (l : List (Nat × Nat)) (c : Nat) : Nat := match l.find? (fun e => e.1 = c) with | some e => e.2 | none => 0

/-- The stage of cycle `c` takes effect: flags on entry, counters for the cycle (R426). -/
def weirStage (d : Device) (c : Nat) : Device :=
  let n := 2 ^ (32 - cycleLog2 d)
  let b := (c + n - 2) % n
  let s := Nat.max (demandAt d.rsv.stages b) (demandAt d.rsv.partner b)
  let old := d.get F.RSV_STATUS.STAGE
  let fl (k : Nat) : Fld := match k with | 1 => F.RSV_FLAGS.STAGE1 | 2 => F.RSV_FLAGS.STAGE2 | _ => F.RSV_FLAGS.STAGE3
  let d1 := { d with rsv := { d.rsv with partner := d.rsv.partner.filter (fun e => e.1 ≠ b) } }
  let d2 := (d1.set F.RSV_STATUS.STAGE s).raiseIf (decide (1 ≤ s ∧ s ≠ old)) (fl s)
  [1, 2, 3].foldl (fun d k => if k ≤ s then d.count (F.RSV_SHEDk_CYCLES.V (k - 1)) else d) d2

/-! ## Plans and grants (R420 to R422) -/

/-- A write of RSV_PLAN: the fields, and with GO the plan of the cycle in RSV_PLAN_CYCLE (R420), in a pair at least 3 cycles ahead
(R439). Where the next line is triggered in the same clock cycle, the distance is taken from it (R420, R428). -/
def planWriteDev (w : Word) (crossing : Bool) (d : Device) : Device :=
  let d1 := ((d.set F.RSV_PLAN.G (F.RSV_PLAN.G.of w)).set F.RSV_PLAN.CAPT (F.RSV_PLAN.CAPT.of w)).set F.RSV_PLAN.CAL (F.RSV_PLAN.CAL.of w)
  if F.RSV_PLAN.GO.of w = 0 then d1
  else
    let bits := 32 - cycleLog2 d
    let c := d.get F.RSV_PLAN_CYCLE.V % 2 ^ bits
    let ahead : Int := sx bits (wrapN bits ((c : Int) - cycleOf d (if crossing ∧ d.lining then d.tb.next else d.tb.count)))
    if 256 < F.RSV_PLAN.G.of w ∨ ahead < (if d.bit F.PAIR_CFG.EN then 3 else 2) ∨ 63 < ahead then d1.raise F.RSV_FLAGS.PLAN_REJ
    else
      let capt : Bool := F.RSV_PLAN.CAPT.of w = 1
      let cal : Bool := F.RSV_PLAN.CAL.of w = 1
      let p : PlanBody := { cycle := c, g := F.RSV_PLAN.G.of w, q := d.get F.RSV_PLAN_Q.V, capt := capt, cal := cal }
      pushItem ({ d1 with rsv := { d1.rsv with plans := p :: d1.rsv.plans.filter (fun x => x.cycle % 64 ≠ c % 64) } }) (firstOfCycle d c) (.plan p)

/-- The plan of cycle `c` comes into force, or the one before stays (R421). -/
def takePlan (d : Device) (c : Nat) : Device :=
  let rest := d.rsv.plans.filter (fun x => x.cycle % 64 ≠ c % 64)
  match d.rsv.plans.find? (fun x => x.cycle = c) with
  | some p => { d with rsv := { d.rsv with plans := rest, plan := p } }
  | none => ({ d with rsv := { d.rsv with plans := rest } }.count F.RSV_PLAN_MISS.V).raise F.RSV_FLAGS.PLAN_MISS

/-- The grants of cycle `c` under its stage (R421, R422). -/
def grantCycle (d : Device) (c : Nat) : Device :=
  let s := d.get F.RSV_STATUS.STAGE
  let p := d.rsv.plan
  let g := if s < 2 then p.g else Nat.min p.g (d.get F.RSV_WEIR.WEIR_G)
  let q := Nat.min p.q (d.get F.CASC_CAP.CAP * nclkMHz (d.get F.RSV_STATUS.NCLK) / 1200)
  let capt : Bool := p.capt && s == 0
  let cal : Bool := p.cal && decide (s < 3)
  let d1 := ((d.set F.RSV_LIVE.G_EFF g).setBit F.RSV_LIVE.CAPT capt).setBit F.RSV_LIVE.CAL cal
  let d2 := d1.setBit F.CAL_STATUS.SUSPENDED (!cal)
  let d3 := { d2 with rsv := { d2.rsv with calOff := ((d2.tb.count, !cal) :: d2.rsv.calOff.filter (fun e => decide (e.1 < d2.tb.count))).take 64 } }
  setGrant d3 c g q

/-! ## Power domains (R429) -/

/-- Address range, OFF field, state and pending fields of a domain: 0 the Judgement region, 1 the capture block. -/
def domRange (k : Nat) : Nat × Nat := if k = 0 then (0x40000000, 0x50000000) else (0x60100000, 0x60110000)
def domOff (k : Nat) : Fld := if k = 0 then F.RSV_POWER.JDG_OFF else F.RSV_POWER.CAPT_OFF
def domState (k : Nat) : Fld := if k = 0 then F.RSV_POWER.JDG_STATE else F.RSV_POWER.CAPT_STATE
def domPending (k : Nat) : Fld := if k = 0 then F.RSV_POWER.JDG_PENDING else F.RSV_POWER.CAPT_PENDING

/-- The OFF fields have become live. In the safe state both domains stay down (Table 22.4). -/
def domainsApply (d : Device) : Device :=
  [0, 1].foldl (fun d k =>
    let st := d.get (domState k)
    if d.bit (domOff k) then
      let d1 := d.setBit (domPending k) false
      if st = 0 ∨ st = 1 then dmaDomainPause (d1.set (domState k) 3) k (domRange k).1 (domRange k).2 else d1
    else if st = 2 then (if d.safe then d else d.set (domState k) 1)
    else if st = 3 then d.setBit (domPending k) true
    else d) d

/-- The domain's work has ended. Every view is disabled from the line on at which the Judgement region's OFF becomes live (R429), so that its
objects have been released once no line is left anywhere before judgement. -/
def domIdle (d : Device) (k : Nat) : Bool :=
  if k = 0 then
    d.jud.objs.isEmpty && d.fly.lower.isEmpty && d.fly.stepQ.isEmpty && (d.formQ 0).isEmpty && (d.formQ 1).isEmpty
      && (List.range 4).all (fun v => (d.view v).due.isEmpty && (d.view v).store.isEmpty)
  else d.cap.groups.isEmpty

/-- Channels of the domain that R375 still waits for. -/
def domWaits (d : Device) (k : Nat) : Bool :=
  d.dma.toList.any (fun x => x.leaving == some k)

/-- DOMAIN_POWER_DOWN: the domain loses power once its work has ended; a held request wakes it again (R412). -/
def domainDownDev (k : Nat) (d : Device) : Device :=
  if d.get (domState k) ≠ 3 ∨ ¬ domIdle d k ∨ domWaits d k then d
  else if d.bit (domPending k) then (d.setBit (domPending k) false).set (domState k) 1
  else showCap (d.set (domState k) 2)

/-- DOMAIN_POWER_UP: the domain restarts from its live configuration. -/
def domainUpDev (k : Nat) (d : Device) : Device := if d.get (domState k) ≠ 1 then d else
  showCap (if k = 1 then takeKeys (d.set (domState k) 0) else d.set (domState k) 0)

/-- RSV registers of an applied commit that become live at the first line of a cycle (R428). -/
def rsvLater (d : Device) : Device :=
  match d.rsv.later with
  | [] => d
  | l => domainsApply { d with regs := overlayRegs l d.regs, rsv := { d.rsv with later := [] } }

/-- The first line of cycle `c`, triggered at `t` ns: meters, staged registers, weir, plan and grants. -/
def rsvCycle (d : Device) (c t : Nat) : Device :=
  let tj := d.rsv.tj
  grantCycle (takePlan (weirStage (weirDecide (rsvLater (closeCycle d t)) c tj) c) c) c

def execPlanWrite (value : Word) (crossing : Bool) (s : State) : Outcome := s.done (regAccess R.RSV_PLAN true (planWriteDev value crossing) s.dev)
def execDomainPowerDown (k : Fin 2) (s : State) : Outcome := s.done (domainDownDev k s.dev)
def execDomainPowerUp (k : Fin 2) (s : State) : Outcome := s.done (domainUpDev k s.dev)

end Sys2Proof.Machine
end

