-- ==== Sys2Proof/Machine/LineCode.lean ====
section
/-! DEFINITION. The 8b/10b code (R33 to R37; code of IEEE 802.3 Clause 36). A group is abcdei fghj with bit a most significant. -/

namespace Sys2Proof.Machine

/-- 5b/6b code of EDCBA at RD−, abcdei with a most significant. -/
def code6 : List Nat :=
  [0b100111, 0b011101, 0b101101, 0b110001, 0b110101, 0b101001, 0b011001, 0b111000,
   0b111001, 0b100101, 0b010101, 0b110100, 0b001101, 0b101100, 0b011100, 0b010111,
   0b011011, 0b100011, 0b010011, 0b110010, 0b001011, 0b101010, 0b011010, 0b111010,
   0b110011, 0b100110, 0b010110, 0b110110, 0b001110, 0b101110, 0b011110, 0b101011]

/-- 3b/4b code of HGF at RD−, fghj with f most significant; the last entry is the alternate code of .7. -/
def code4 : List Nat := [0b1011, 0b1001, 0b0101, 0b1100, 0b1101, 0b1010, 0b0110, 0b1110, 0b0111]

/-- Number of ones among the low `n` bits. -/
def ones (n x : Nat) : Nat := (List.range n).foldl (fun k i => if bitAt x i then k + 1 else k) 0

/-- Running disparity (true positive) after a 6-bit sub-block. -/
def rdAfter6 (rd : Bool) (x : Nat) : Bool :=
  if 3 < ones 6 x ∨ x = 0b000111 then true else if ones 6 x < 3 ∨ x = 0b111000 then false else rd

/-- Running disparity after a 4-bit sub-block. -/
def rdAfter4 (rd : Bool) (x : Nat) : Bool :=
  if 2 < ones 4 x ∨ x = 0b0011 then true else if ones 4 x < 2 ∨ x = 0b1100 then false else rd

/-- Running disparity after a group. -/
def rdAfter (rd : Bool) (g : Nat) : Bool := rdAfter4 (rdAfter6 rd (g / 16)) (g % 16)

/-- The 6-bit sub-block of x at running disparity `rd`: the RD− form, complemented at RD+ where it is unbalanced or D.7. -/
def enc6 (rd : Bool) (x : Nat) : Nat :=
  let c := code6.getD x 0
  if rd ∧ (ones 6 c ≠ 3 ∨ c = 0b111000) then 63 - c else c

/-- The 4-bit sub-block of y after the 6-bit sub-block of x, at the running disparity `rd` before it. -/
def enc4 (rd : Bool) (x y : Nat) : Nat :=
  let alt := y = 7 ∧ ((¬ rd ∧ (x = 17 ∨ x = 18 ∨ x = 20)) ∨ (rd ∧ (x = 11 ∨ x = 13 ∨ x = 14)))
  let c := if alt then 0b0111 else code4.getD y 0
  if rd ∧ (ones 4 c ≠ 2 ∨ c = 0b1100) then 15 - c else c

/-- The group of data byte `b` at running disparity `rd`. -/
def encData (rd : Bool) (b : Nat) : Nat :=
  let g6 := enc6 rd (b % 32)
  g6 * 16 + enc4 (rdAfter6 rd g6) (b % 32) (b / 32)

/-- The control groups at RD−: byte value and group. -/
def ctlGroups : List (Nat × Nat) :=
  [(0x1C, 0b0011110100), (0x3C, 0b0011111001), (0x5C, 0b0011110101), (0x7C, 0b0011110011), (0x9C, 0b0011110010),
   (0xBC, 0b0011111010), (0xDC, 0b0011110110), (0xFC, 0b0011111000), (0xF7, 0b1110101000), (0xFB, 0b1101101000),
   (0xFD, 0b1011101000), (0xFE, 0b0111101000)]

/-- The control symbols of Table 2.2. -/
def table22 : List Nat := [0xBC, 0xFB, 0x5C, 0xFD, 0x7C, 0xDC, 0xFE]

/-- The control symbol of a group at RD− or, complemented, at RD+. -/
def ctlOf (rd : Bool) (g : Nat) : Option Nat :=
  (ctlGroups.find? (fun e => e.2 = if rd then 1023 - g else g)).map Prod.fst

/-- The data byte of a group at a running disparity. -/
def dataOf (rd : Bool) (g : Nat) : Option Nat := (List.range 256).find? (fun b => encData rd b = g)

/-- What a receiver makes of a group (R35). -/
inductive Symbol where
  | data (b : Nat)
  | ctl (k : Nat)
  /-- control group outside Table 2.2 -/
  | unknownK
  /-- not a code group -/
  | codeErr
  /-- a group of the other running disparity -/
  | dispErr
deriving DecidableEq, Repr

/-- The symbol of a group in one disparity column. -/
def symbolAt (rd : Bool) (g : Nat) : Option Symbol :=
  match ctlOf rd g with
  | some k => some (if k ∈ table22 then .ctl k else .unknownK)
  | none => (dataOf rd g).map .data

/-- Reception of a group at running disparity `rd` (R35, R37). A control group outside Table 2.2 is one in either disparity. -/
def decodeGroup (rd : Bool) (g : Nat) : Symbol :=
  match symbolAt rd g with
  | some s => s
  | none => match symbolAt (!rd) g with
    | some .unknownK => .unknownK
    | some _ => .dispErr
    | none => .codeErr

/-- A valid group: not an invalid symbol (R35, R41). -/
def Symbol.valid : Symbol → Bool
  | .data _ | .ctl _ => true
  | _ => false

/-- The group of a symbol, a byte value that may be a control symbol, at running disparity `rd` (R33, R34). -/
def encSymbol (rd : Bool) (s : Nat × Bool) : Nat :=
  if s.2 then
    let g := ((ctlGroups.find? (fun e => e.1 = s.1)).map Prod.snd).getD 0
    if rd then 1023 - g else g
  else encData rd s.1

/-- The groups of a sequence of symbols, and the running disparity after them (R36). -/
def encSymbols (rd : Bool) : List (Nat × Bool) → List Nat × Bool
  | [] => ([], rd)
  | s :: t =>
    let g := encSymbol rd s
    let r := encSymbols (rdAfter rd g) t
    (g :: r.1, r.2)

end Sys2Proof.Machine
end

