-- ==== Sys2Proof/Machine/LaneOps.lean ====
section
/-! DEFINITION. One serial lane (02_serial_lanes.md): power states, lock, alignment, eye scans and the training procedure. What the
port of a lane does when the lane changes state stands with the ports (Machine/LaneCmds.lean). -/

namespace Sys2Proof.Machine

/-- States of LN_STATUS.STATE. -/
def lnOff : Nat := 0
def lnStandby : Nat := 1
def lnWaking : Nat := 2
def lnLos : Nat := 3
def lnLocking : Nat := 4
def lnHunt : Nat := 5
def lnAcq : Nat := 6
def lnSync : Nat := 7
def lnTxActive : Nat := 8
def lnShutdown : Nat := 9

/-- Base address of a lane's slot (R28, R53). -/
def laneBase : Lane → Nat
  | .cpRx p l => 0x20008000 + 0x10000 * p.val + 0x100 * l.val
  | .cpBc p => 0x20008400 + 0x10000 * p.val
  | .peerRx n l => 0x100E2000 + 0x4000 * n.val + 0x100 * l.val
  | .peerTx n l => 0x100E2400 + 0x4000 * n.val + 0x100 * l.val
  | .spRx n => 0x50108000 + 0x10000 * n.val
  | .spTx n => 0x50108400 + 0x10000 * n.val
  | .ethRx l => 0x100A8000 + 0x100 * l.val
  | .ethTx l => 0x100A8400 + 0x100 * l.val

/-- Place of a lane's further state. -/
def laneIdx : Lane → Nat
  | .cpRx p l => 4 * p.val + l.val
  | .cpBc p => 48 + p.val
  | .peerRx n l => 60 + 2 * n.val + l.val
  | .peerTx n l => 66 + 2 * n.val + l.val
  | .spRx n => 72 + n.val
  | .spTx n => 76 + n.val
  | .ethRx l => 80 + l.val
  | .ethTx l => 84 + l.val

/-- A receive lane. -/
def laneIsRx : Lane → Bool
  | .cpRx _ _ | .peerRx _ _ | .spRx _ | .ethRx _ => true
  | _ => false

/-- An Ethernet lane (R32). -/
def laneIsEth : Lane → Bool
  | .ethRx _ | .ethTx _ => true
  | _ => false

/-- A lane whose far end the device trains: camera and peer receive lanes. -/
def laneTrains : Lane → Bool
  | .cpRx _ _ | .peerRx _ _ => true
  | _ => false

def Device.laneX (d : Device) (l : Lane) : LaneX := unit d.lanes (laneIdx l)

def Device.setLaneX (d : Device) (l : Lane) (x : LaneX) : Device := { d with lanes := withUnit d.lanes (laneIdx l) x }

def Device.lnState (d : Device) (l : Lane) : Nat := d.get (F.LN_STATUS.STATE (laneBase l))

/-- Enters a lane state. Leaving SYNC clears LN_EYE.VALID (R43) and what the lane had passed to its port; SYNC_LANES of a camera port
follows its lanes. -/
def Device.lnEnter (d : Device) (l : Lane) (st : Nat) : Device :=
  let b := laneBase l
  let d1 := d.set (F.LN_STATUS.STATE b) st
  let d2 := if d.lnState l = lnSync ∧ st ≠ lnSync then (d1.set (F.LN_EYE.VALID b) 0).setLaneX l { d.laneX l with rx := [] } else d1
  match l with
  | .cpRx p k => d2.setBit ((F.CPn_STATUS.SYNC_LANES p.val).bitN k.val) (st = lnSync)
  | _ => d2

/-! ## The end of training (R48) -/

/-- The scan gives less than the minima of LN_EYE_CTRL (R44). -/
def eyeLow (d : Device) (l : Lane) (ew eh : Nat) : Bool :=
  decide (ew < d.get (F.LN_EYE_CTRL.EW_MIN (laneBase l))) || decide (eh < d.get (F.LN_EYE_CTRL.EH_MIN (laneBase l)))

/-- Training ends (R48): LN_FAR_TAPS takes the taps of the last reply, TRAIN_FAIL is set on failure or when the last scan is below
the minima, RETRAIN reads 0 again. -/
def trainFinish (d : Device) (l : Lane) (t : Training) (fail : Bool) : Device :=
  let b := laneBase l
  let low := match (d.laneX l).eye with | some (ew, eh) => eyeLow d l ew eh | none => false
  let d1 := (d.setLaneX l { d.laneX l with train := none }).setBit (F.LN_CTRL.RETRAIN b) false
  let d2 := match t.reply with
    | some w => (d1.wr (R.LN_FAR_TAPS b) (BitVec.ofNat 32 w &&& 0x007FFF00#32)).set (F.LN_FAR_TAPS.VALID b) 1
    | none => d1.set (F.LN_FAR_TAPS.VALID b) 1
  d2.raiseIf (fail || low) (F.LN_FLAGS.TRAIN_FAIL b)

/-- A power-down ends a training that runs, on which R48 says no more than what the end of any training writes (DEDUCED). -/
def trainCut (d : Device) (l : Lane) : Device :=
  match (d.laneX l).train with
  | some t => trainFinish d l t false
  | none => d

/-! ## Power (R50, R51) -/

/-- A lane starts at step 1 of Table 2.6. -/
def lnStart (d : Device) (l : Lane) : Device := d.lnEnter l lnWaking

/-- POWER := ACTIVE: from OFF or STANDBY the lane wakes; during SHUTDOWN the request is held (R51). Until the first apply every lane stays OFF
(R397), but for those of the Ethernet port, which the ROM brings up for the recovery functions (R398, R402; DEDUCED, log entry "lanes before
the first apply"). -/
def lnPowerUp (d : Device) (l : Lane) : Device :=
  let b := laneBase l
  let d1 := d.set (F.LN_CTRL.POWER b) 2
  let st := d.lnState l
  if ¬ d.slu.applied ∧ ¬ laneIsEth l then d
  else if st = lnOff ∨ st = lnStandby then lnStart d1 l
  else if st = lnShutdown then d1.set (F.LN_STATUS.ENABLE_PENDING b) 1
  else d1

/-- POWER := OFF or STANDBY: from OFF, STANDBY and WAKING at once, else through SHUTDOWN (R50, R51). Training of the lane ends (R48). In
SHUTDOWN the write drops a held enable and gives SHUTDOWN its new end, on which R51 and R412 say nothing (DESIGN CHOICE, log entry
"a power-down during SHUTDOWN"). -/
def lnPowerDown (d : Device) (l : Lane) (standby : Bool) : Device :=
  let b := laneBase l
  let d1 := trainCut ((d.set (F.LN_CTRL.POWER b) (if standby then 1 else 0)).setBit (F.LN_STATUS.ENABLE_PENDING b) false) l
  let d2 := d1.setLaneX l { d1.laneX l with toStandby := standby }
  let st := d.lnState l
  if st = lnOff ∨ st = lnStandby ∨ st = lnWaking then d2.lnEnter l (if standby then lnStandby else lnOff)
  else d2.lnEnter l lnShutdown

/-- Step 2 of Table 2.6: a transmit lane is active with RD− (R36), a receive lane waits for signal or lock. -/
def lnWakeDone (d : Device) (l : Lane) : Device :=
  if d.lnState l ≠ lnWaking then d
  else if laneIsRx l then d.lnEnter l (if (d.laneX l).signal then lnLocking else lnLos)
  else (d.lnEnter l lnTxActive).set (F.LN_STATUS.RD (laneBase l)) 0

/-- SHUTDOWN completes; a held enable then starts the lane again (R51, R412). -/
def lnShutdownDone (d : Device) (l : Lane) : Device :=
  if d.lnState l ≠ lnShutdown then d
  else
    let b := laneBase l
    let d1 := d.lnEnter l (if (d.laneX l).toStandby then lnStandby else lnOff)
    if d.bit (F.LN_STATUS.ENABLE_PENDING b) then lnStart (d1.set (F.LN_STATUS.ENABLE_PENDING b) 0) l else d1

/-- A receive lane is locked: HUNT, ACQ or SYNC. -/
def lnLocked (d : Device) (l : Lane) : Bool := lnHunt ≤ d.lnState l && d.lnState l ≤ lnSync

/-- Lock is lost: the lane counts it, sets LOCK_LOST, discards phase and score, and goes to LOS or LOCKING (R40, Table 2.3). -/
def lnLockLoss (d : Device) (l : Lane) : Device :=
  let b := laneBase l
  let x := d.laneX l
  ((((d.count (F.LN_LOCK_LOSS.COUNT b)).raise (F.LN_FLAGS.LOCK_LOST b)).setLaneX l
    { x with phase := 0, acq := 0, score := 0, validRun := 0 })).lnEnter l (if x.signal then lnLocking else lnLos)

/-- Two consecutive windows are off by more than 1,000 ppm: a locked receive lane loses lock (R40). -/
def lnClockLost (d : Device) (l : Lane) : Device := if laneIsRx l ∧ lnLocked d l then lnLockLoss d l else d

/-- Loss of signal is reported (R39); a locked lane loses lock, a locking one waits for signal. -/
def lnSignalLost (d : Device) (l : Lane) : Device :=
  if ¬ laneIsRx l then d
  else
    let d1 := d.setLaneX l { d.laneX l with signal := false }
    if lnLocked d l then lnLockLoss d1 l
    else if d.lnState l = lnLocking then d1.lnEnter l lnLos else d1

/-- Signal present is reported (R39); a lane in LOS starts to lock. -/
def lnSignalPresent (d : Device) (l : Lane) : Device :=
  if ¬ laneIsRx l then d
  else
    let d1 := d.setLaneX l { d.laneX l with signal := true }
    if d.lnState l = lnLos then d1.lnEnter l lnLocking else d1

/-- Clock recovery is locked: HUNT; on an Ethernet lane SYNC is reported (R32). -/
def lnCdrLocked (d : Device) (l : Lane) : Device :=
  if laneIsRx l ∧ d.lnState l = lnLocking then d.lnEnter l (if laneIsEth l then lnSync else lnHunt) else d

/-! ## Reception (R35 to R37, R41, R52) -/

/-- Counts an invalid symbol (R35). -/
def lnCountInvalid (d : Device) (l : Lane) (s : Symbol) : Device :=
  let b := laneBase l
  match s with
  | .codeErr => (d.count (F.LN_CODE_ERR.COUNT b)).raise (F.LN_FLAGS.CODE_ERR b)
  | .unknownK => ((d.count (F.LN_CODE_ERR.COUNT b)).raise (F.LN_FLAGS.CODE_ERR b)).raise (F.LN_FLAGS.UNKNOWN_K b)
  | .dispErr => (d.count (F.LN_DISP_ERR.COUNT b)).raise (F.LN_FLAGS.DISP_ERR b)
  | _ => d

/-- A group whose form does not match the running disparity is a disparity error whatever it codes, a control group outside Table 2.2 too
(R37). -/
def lnCountForm (d : Device) (l : Lane) (rd : Bool) (g : Nat) (s : Symbol) : Device :=
  if s = .unknownK ∧ (ctlOf rd g).isNone then lnCountInvalid d l .dispErr else d

/-- A PRBS is selected; the reserved code 0b11 acts as off. -/
def prbsOn (d : Device) (l : Lane) : Bool := let sel := d.get (F.LN_CTRL.PRBS (laneBase l)); sel == 1 || sel == 2

/-- Taps of the selected PRBS: the two earlier bits whose sum a bit must be (R52). -/
def prbsTaps (sel : Nat) : Nat × Nat := if sel = 1 then (7, 6) else (31, 28)

/-- One bit into the self-synchronising checker: history and errors so far. -/
def prbsBit (sel : Nat) (acc : List Bool × Nat) (b : Bool) : List Bool × Nat :=
  let (h, e) := acc
  let (i, j) := prbsTaps sel
  let bad := i ≤ h.length && (b != xor (h.getD (i - 1) false) (h.getD (j - 1) false))
  ((b :: h).take 31, if bad then e + 1 else e)

/-- A receive lane passes its symbols to its port: it is in SYNC, and PRBS is off (R41, R52). -/
def lnReceives (d : Device) (l : Lane) : Bool := d.lnState l == lnSync && !prbsOn d l

/-- The bits of a group, a first. -/
def groupBits (g : Nat) : List Bool := (List.range 10).map (fun i => bitAt g (9 - i))

/-- A group on a lane whose PRBS is on: its bits are checked, nothing is passed on (R52). -/
def lnPrbs (d : Device) (l : Lane) (g : Nat) : Device :=
  let b := laneBase l
  let x := d.laneX l
  let (h, e) := (groupBits g).foldl (prbsBit (d.get (F.LN_CTRL.PRBS b))) (x.prbs, 0)
  ((d.setLaneX l { x with prbs := h, rx := [] }).count (F.LN_PRBS_ERR.COUNT b) e).raiseIf (0 < e) (F.LN_FLAGS.PRBS_ERR b)

/-- The running disparity a group implies before it, from a K28.5: RD− for its RD− form (R37). -/
def commaRd (g : Nat) : Option Bool := if g = 0b0011111010 then some false else if g = 0b1100000101 then some true else none

/-- A lane in SYNC passes a symbol of period `t` to its port (R35, R41). -/
def lnPass (x : LaneX) (t : Nat) (s : RxSym) : LaneX := { x with rx := x.rx ++ [((t : Int), s)], rxAt := t }

/-- An invalid symbol in SYNC: the fourth on the score leads to HUNT (Table 2.3). -/
def lnBadSymbol (d : Device) (l : Lane) (t : Nat) : Device :=
  let b := laneBase l
  let x := d.laneX l
  if x.score + 1 = 4 then
    ((d.setLaneX l { x with score := 0, validRun := 0 }).count (F.LN_ALIGN_LOSS.COUNT b)).raise (F.LN_FLAGS.ALIGN_LOST b) |>.lnEnter l lnHunt
  else d.setLaneX l { lnPass x t .invalid with score := x.score + 1, validRun := 0 }

/-- A group received in symbol period `t` (R35, R37, Table 2.3). While PRBS is on its bits are checked instead, on every kind of lane
(R32, R52); state, phase, count and score then stay as they are and go on from there once PRBS is off, on which R52 says nothing
(DESIGN CHOICE, log entry "PRBS during alignment"). A group cut at another phase than the one taken is an invalid symbol; in HUNT only
the comma counts. -/
def lnGroup (d : Device) (l : Lane) (g0 : Nat) (ph t : Nat) : Device :=
  let b := laneBase l
  let x := d.laneX l
  let st := d.lnState l
  let g := if d.bit (F.LN_CTRL.POLINV b) then 1023 - g0 else g0
  if ¬ laneIsRx l then d
  else if prbsOn d l then (if lnLocked d l then lnPrbs d l g else d)
  else if laneIsEth l then d
  else if st = lnHunt then
    match commaRd g with
    | some rd => ((d.setLaneX l { x with phase := ph, acq := 1 }).setBit (F.LN_STATUS.RD b) (rdAfter rd g)).lnEnter l lnAcq
    | none => d
  else if st = lnAcq ∨ st = lnSync then
    let rd := d.bit (F.LN_STATUS.RD b)
    let s := if ph = x.phase then decodeGroup rd g else .codeErr
    let d1 := (lnCountForm (lnCountInvalid d l s) l rd g s).setBit (F.LN_STATUS.RD b) (if ph = x.phase then rdAfter rd g else rd)
    if st = lnAcq then
      if ¬ s.valid then (d1.setLaneX l { x with acq := 0 }).lnEnter l lnHunt
      else if s = .ctl 0xBC then
        if x.acq + 1 = 3 then (d1.setLaneX l { x with acq := 0, score := 0, validRun := 0 }).lnEnter l lnSync
        else d1.setLaneX l { x with acq := x.acq + 1 }
      else d1
    else match s with
      | .data v => d1.setLaneX l { lnPass x t (.data (BitVec.ofNat 8 v)) with validRun := x.validRun + 1 }
      | .ctl k => d1.setLaneX l { lnPass x t (.ctl k) with validRun := x.validRun + 1 }
      | _ => lnBadSymbol d1 l t
  else d

/-- 16 consecutive valid groups in SYNC take one from the score (Table 2.3). -/
def lnScoreDecay (d : Device) (l : Lane) : Device :=
  let x := d.laneX l
  if d.lnState l = lnSync ∧ ¬ laneIsEth l ∧ 16 ≤ x.validRun then
    d.setLaneX l { x with score := x.score - 1, validRun := x.validRun - 16 }
  else d

/-! ## Transmission (R33, R36, R50, R52) -/

/-- The next `n` bits of the selected PRBS after `h`, newest first: each bit is the sum of the two that its polynomial names; a sequence
that has none yet starts from ones. -/
def prbsSend (sel : Nat) : Nat → List Bool → List Bool → List Bool × List Bool
  | 0, h, out => (h, out.reverse)
  | n + 1, h, out =>
    let (i, j) := prbsTaps sel
    let bit := xor (h.getD (i - 1) true) (h.getD (j - 1) true)
    prbsSend sel n ((bit :: h).take 31) (bit :: out)

/-- The groups of a sequence of bits, bit a first. -/
def bitGroups : Nat → List Bool → List Nat
  | 0, _ => []
  | n + 1, bs => (bs.take 10).foldl (fun a b => 2 * a + b.toNat) 0 :: bitGroups n (bs.drop 10)

/-- A transmit lane sends coded data: it is active, and PRBS is off. -/
def lnSends (d : Device) (l : Lane) : Bool := d.lnState l == lnTxActive && !prbsOn d l

/-- The lane's groups leave, inverted under POLINV. -/
def lnOut (d : Device) (l : Lane) (gs : List Nat) : Device :=
  let inv := d.bit (F.LN_CTRL.POLINV (laneBase l))
  d.setLaneX l { d.laneX l with tx := gs.map (fun g => BitVec.ofNat 10 (if inv then 1023 - g else g)) }

/-- An active transmit lane sends symbols, filled with K28.5 to a whole word of four, and its running disparity follows (R36). While PRBS
is on as many groups of the PRBS leave in their place (R52). -/
def lnSend (d : Device) (l : Lane) (syms : List (Nat × Bool)) : Device :=
  let b := laneBase l
  let x := d.laneX l
  let sel := d.get (F.LN_CTRL.PRBS b)
  let full := syms ++ List.replicate ((4 - syms.length % 4) % 4) (0xBC, true)
  if d.lnState l ≠ lnTxActive then d
  else if prbsOn d l then
    let r := prbsSend sel (10 * full.length) x.txPrbs []
    lnOut (d.setLaneX l { x with txPrbs := r.1 }) l (bitGroups full.length r.2)
  else
    let r := encSymbols (d.bit (F.LN_STATUS.RD b)) full
    lnOut (d.setBit (F.LN_STATUS.RD b) r.2) l r.1

/-! ## Transmit taps (R42) -/

/-- A tap setting is valid: C_PRE + C_MAIN + C_POST ≤ 63 and C_MAIN − C_PRE − C_POST ≥ 16. -/
def tapsValid (pre main post : Nat) : Bool := decide (pre + main + post ≤ 63) && decide (pre + post + 16 ≤ main)

/-- A write of LN_TX_TAPS: all taps at once, or ignored with TAP_REJ. -/
def lnWriteTaps (d : Device) (l : Lane) (v : Word) : Device :=
  let b := laneBase l
  let r := R.LN_TX_TAPS b
  if laneIsRx l ∨ laneIsEth l then d
  else if tapsValid ((F.LN_TX_TAPS.C_PRE b).of v) ((F.LN_TX_TAPS.C_MAIN b).of v) ((F.LN_TX_TAPS.C_POST b).of v)
    then d.wr r (v &&& 0x007FFF00#32)
    else d.raise (F.LN_FLAGS.TAP_REJ b)

/-! ## Eye scans (R43, R44) -/

/-- UI of one dwell: 2^(20 + DWELL), DWELL above 10 acting as 10. -/
def dwellUi (d : Device) (l : Lane) : Nat := 2 ^ (20 + min 10 (d.get (F.LN_EYE_CTRL.DWELL (laneBase l))))

/-- A point is open: no more than ERR_MAX mismatches within the dwell, which has one at most per UI. -/
def pointOpen (d : Device) (l : Lane) (n : Nat) : Bool := decide (min n (dwellUi d l) ≤ d.get (F.LN_EYE_CTRL.ERR_MAX (laneBase l)))

/-- Open points of one direction, up to the first that is not, of at most `n` steps. -/
def openSteps (d : Device) (l : Lane) (n : Nat) (errs : List Nat) : Nat := ((errs.take n).takeWhile (pointOpen d l)).length

/-- EW in UI/64 of a scan: the contiguous open phases from −32 to +31, the centre included. -/
def scanEw (d : Device) (l : Lane) (s : EyeScan) : Nat :=
  if pointOpen d l s.centre then 1 + openSteps d l 32 s.before + openSteps d l 31 s.after else 0

/-- EH in mV of a scan: 4 mV for each open threshold offset on both sides up to ±508 mV. -/
def scanEh (d : Device) (l : Lane) (s : EyeScan) : Nat :=
  if pointOpen d l s.centre then 4 * (openSteps d l 127 s.above + openSteps d l 127 s.below) else 0

/-- A scan ends: EW, EH and VALID are written together, SCAN_SEQ advances modulo 256, EYE_LOW may be set. -/
def lnEyeScan (d : Device) (l : Lane) (ew eh : Nat) : Device :=
  let b := laneBase l
  if ¬ laneIsRx l ∨ d.lnState l ≠ lnSync then d
  else
    (((d.setLaneX l { d.laneX l with eye := some (ew, eh) } |>.set (F.LN_EYE.EW b) ew).set (F.LN_EYE.EH b) eh).set (F.LN_EYE.VALID b) 1 |>.set (F.LN_EYE.SCAN_SEQ b)
      (d.get (F.LN_EYE.SCAN_SEQ b) + 1)).raiseIf (eyeLow d l ew eh) (F.LN_FLAGS.EYE_LOW b)

/-! ## Training (R45 to R49) -/

/-- Lane number a request word carries. -/
def laneNum : Lane → Nat
  | .cpRx _ l => l.val
  | .peerRx _ l => l.val
  | _ => 0

/-- The PRESET request word (Table 2.4). -/
def presetWord (l : Lane) : Nat := laneNum l * 256 + 0x80

/-- The request word of a step of one tap: 0b01 increment, 0b10 decrement. -/
def stepWord (l : Lane) (onPre decr : Bool) : Nat :=
  let c := if decr then 2 else 1
  laneNum l * 256 + (if onPre then c else c * 4)

/-- What the training procedure does next: send a request, wait, or end. -/
inductive TrainNext where
  | send (t : Training)
  | wait (t : Training)
  | finish (t : Training) (fail : Bool)
deriving DecidableEq, Repr

/-- Sends a request unless the step limit is reached (R47: training stops early when the step count reaches MAX_STEPS). -/
def trainSend (d : Device) (l : Lane) (t : Training) (w : TrainWait) (word : Nat) : TrainNext :=
  if d.get (F.LN_TRAIN_CTRL.MAX_STEPS (laneBase l)) ≤ t.steps then .finish t false
  else .send { t with wait := w, request := word, resends := 0, steps := t.steps + 1 }

/-- Starts a trial of the tap and direction of `t`. -/
def trainTrial (d : Device) (l : Lane) (t : Training) : TrainNext :=
  trainSend d l t .trialReply (stepWord l t.onPre t.decr)

/-- The inner loop of one tap and direction has been left (R47): the other direction unless the tap stepped, then the other tap,
then another pass while something moved. -/
def trainLeaveLoop (d : Device) (l : Lane) (t : Training) : TrainNext :=
  if ¬ t.decr ∧ ¬ t.stepped then trainTrial d l { t with decr := true, stepped := false }
  else if ¬ t.onPre then trainTrial d l { t with onPre := true, decr := false, stepped := false }
  else if t.moved then trainTrial d l { t with onPre := false, decr := false, stepped := false, moved := false }
  else .finish t false

/-- A reply has arrived. -/
def trainOnReply (d : Device) (l : Lane) (t0 : Training) (word : Nat) : TrainNext :=
  let t := { t0 with reply := some word }
  let st := if t.onPre then bitsOf word 1 0 else bitsOf word 3 2
  match t.wait with
  | .presetReply => .wait { t with wait := .presetScan }
  | .trialReply => if st = 2 ∨ st = 3 then trainLeaveLoop d l t else .wait { t with wait := .trialScan }
  | .undoReply => trainLeaveLoop d l t
  | _ => .wait t

/-- q improves on q_best when q × 100 ≥ q_best × (100 + g) (R47). -/
def improves (q best g : Nat) : Bool := decide (best * (100 + g) ≤ q * 100)

/-- The first scan after a reply has completed with Q = EW × EH. -/
def trainOnScan (d : Device) (l : Lane) (t : Training) (q : Nat) : TrainNext :=
  match t.wait with
  | .presetScan =>
    if t.full then trainTrial d l { t with qBest := q, onPre := false, decr := false, stepped := false, moved := false }
    else .finish { t with qBest := q } false
  | .trialScan =>
    if improves q t.qBest (d.get (F.LN_TRAIN_CTRL.GAIN (laneBase l))) then
      trainTrial d l { t with qBest := q, stepped := true, moved := true }
    else trainSend d l t .undoReply (stepWord l t.onPre (!t.decr))
  | _ => .wait t

/-- MODE of LN_TRAIN_CTRL with 0b11 acting as 0b00 (R49). -/
def trainMode (d : Device) (l : Lane) : Nat :=
  let m := d.get (F.LN_TRAIN_CTRL.MODE (laneBase l))
  if m = 3 then 0 else m

end Sys2Proof.Machine
end

