-- ==== Sys2Proof/Machine/LinkRx.lean ====
section
/-! DEFINITION. The receiving side of a camera or peer link (R56 to R60, R68): deskew on K28.3 markers, columns, and the packets and
events that columns make. The functions on `LinkRx` take the waiting symbols of the active lanes; the last ones read and write them. -/

namespace Sys2Proof.Machine

/-- The waiting symbols of one lane, oldest first, and the symbol period of its last group. -/
abbrev LaneSyms := List (Int × RxSym) × Int

/-- Symbols of skew that the deskew tolerates (R58). -/
def skewMax : Int := 64

/-- Columns from one marker column to the next (R57). -/
def markerStep : Int := 1024

def LinkRx.push (x : LinkRx) (e : LinkEvent) : LinkRx := { x with events := x.events ++ [e] }

/-! ## Packets (R56, R59, R60) -/

/-- The symbol that every lane of a column carries, if it is one. -/
def sameSym : List RxSym → Option RxSym
  | [] => none
  | s :: t => if t.all (fun u => decide (u = s)) then some s else none

/-- The bytes of a data column: data on the first lanes, K28.5 on the rest (R56). None for any other column, and none without data. -/
def columnBytes : List RxSym → Option (List Byte)
  | .data b :: t =>
    match columnBytes t with
    | some bs => some (b :: bs)
    | none => if t.all (fun u => decide (u = .ctl 0xBC)) then some [b] else none
  | _ => none

/-- The end of the packet in progress: the event of its kind. -/
def endEvent (k : LinkPacket) : LinkEvent := if k.ctl then .ctl (!k.bad) k.bytes else .line (!k.bad) k.bytes

/-- Bytes of line packets that the ingress buffer holds beside accepted lines: those of the packet in progress and of ended packets
whose command is still to come (R68). -/
def LinkRx.heldBytes (x : LinkRx) : Nat :=
  (match x.pkt with | some k => if k.ctl then 0 else k.bytes.length | none => 0)
    + (x.events.map (fun e => match e with | .line _ bs => bs.length | _ => 0)).sum

/-- A column, of data, inside the packet `k`, with `room` bytes free in the ingress buffer. A byte that finds it full drops the packet. -/
def dataColumn (x : LinkRx) (k : LinkPacket) (lanes room : Nat) (bs : List Byte) : LinkRx :=
  if ¬ k.ctl ∧ room < bs.length then { x with pkt := none }.push .overflow
  else { x with pkt := some { k with bytes := k.bytes ++ bs, filled := decide (bs.length < lanes), bad := k.bad || k.filled } }

/-- A column without a marker on all its lanes: between packets only a start column counts; inside one, data, the end, an abort, or a
break of its framing. A start column inside a packet ends that packet broken and starts its own. -/
def packetColumn (room : Nat) (c : List RxSym) (x : LinkRx) : LinkRx :=
  match x.pkt, sameSym c with
  | none, some (.ctl 0xFB) => { x with pkt := some {} }
  | none, some (.ctl 0x5C) => { x with pkt := some { ctl := true } }
  | none, _ => x
  | some k, some (.ctl 0xFD) => { x with pkt := none }.push (endEvent k)
  | some _, some (.ctl 0xFE) => { x with pkt := none }.push .abort
  | some k, some (.ctl 0xFB) => { x with pkt := some {} }.push (endEvent { k with bad := true })
  | some k, some (.ctl 0x5C) => { x with pkt := some { ctl := true } }.push (endEvent { k with bad := true })
  | some k, _ =>
    match columnBytes c with
    | some bs => dataColumn x k c.length room bs
    | none => { x with pkt := some { k with bad := true } }

/-! ## Deskew (R57, R58) -/

/-- A symbol is a marker. -/
def isMark (s : RxSym) : Bool := decide (s = .ctl 0x7C)

/-- Symbol period of the marker that a lane's waiting symbols begin with. -/
def headMark (l : LaneSyms) : Option Int := match l.1 with | (t, s) :: _ => if isMark s then some t else none | [] => none

/-- A lane's symbols from its first marker on. -/
def fromMark (l : LaneSyms) : LaneSyms := (l.1.dropWhile (fun e => !isMark e.2), l.2)

/-- Skew of lanes 1 and on relative to lane 0. -/
def skewsOf (m : List Int) : List Int := (m.drop 1).map (fun t => t - m.headD 0)

/-- No lane is further from lane 0 than the deskew tolerates. -/
def skewOk (m : List Int) : Bool := (skewsOf m).all (fun s => decide (-skewMax ≤ s ∧ s ≤ skewMax))

/-- Lanes whose first marker meets `p` pass it over, a deskew error. -/
def dropMarks (p : Int → Bool) (lanes : List LaneSyms) (x : LinkRx) : Bool × List LaneSyms × LinkRx :=
  (true, lanes.map (fun l => if (headMark l).any p then (l.1.drop 1, l.2) else l), x.push (.marker false []))

/-- The lanes are not deskewed: they wait for a marker on each, within the skew that is tolerated relative to lane 0. A marker that comes
before this window, one that a lane has not brought by the window's end, and markers without one on lane 0 are a deskew error, and the
markers of that column are passed over. True when something was done. -/
def seekMarks (lanes0 : List LaneSyms) (x : LinkRx) : Bool × List LaneSyms × LinkRx :=
  let lanes := lanes0.map fromMark
  let ms := lanes.filterMap headMark
  let first := ms.foldl min (ms.headD 0)
  let passed (t : Int) : Bool := lanes.all (fun l => (headMark l).isSome || decide (t < l.2))
  if ms.isEmpty then (false, lanes, x)
  else match lanes.head?.bind headMark with
    | some t0 =>
      if first + skewMax < t0 then dropMarks (fun t => decide (t + skewMax < t0)) lanes x
      else if ms.length = lanes.length ∧ skewOk ms then
        (true, lanes.map (fun l => (l.1.drop 1, l.2)), { x with marks := some ms, col := ms.headD 0 + 1 }.push (.marker true (skewsOf ms)))
      else if passed (t0 + skewMax) then dropMarks (fun t => decide (t ≤ t0 + skewMax)) lanes x
      else (false, lanes, x)
    | none =>
      if passed (first + 2 * skewMax) then dropMarks (fun t => decide (t ≤ first + 2 * skewMax)) lanes x
      else (false, lanes, x)

/-- The symbol of a lane in period `t`, once it has come; a period without a symbol counts as an invalid one. -/
def symAt (t : Int) (l : LaneSyms) : Option RxSym :=
  match (l.1.dropWhile (fun e => decide (e.1 < t))).head? with
  | none => none
  | some (u, s) => if u = t then some s else some .invalid

/-- A lane's symbols after period `t`. -/
def afterPeriod (t : Int) (l : LaneSyms) : LaneSyms := (l.1.dropWhile (fun e => decide (e.1 ≤ t)), l.2)

/-- What a column says about the markers: one on every lane when it is due, or an error; and whether it is a marker column. -/
def markColumn (due : Bool) (skew : List Int) (c : List RxSym) (x : LinkRx) : LinkRx :=
  if c.all isMark then x.push (if due then .marker true skew else .marker false [])
  else if c.any isMark || due then x.push (.marker false [])
  else x

/-- The next column of deskewed lanes, once all its symbols have come. `held` is what the ingress buffer holds of accepted lines. -/
def nextColumn (held : Nat) (lanes : List LaneSyms) (x : LinkRx) : Bool × List LaneSyms × LinkRx :=
  let ms := x.marks.getD [x.col]
  let ts := ms.map (fun m => m - ms.headD 0 + x.col)
  let syms := (ts.zip lanes).map (fun e => symAt e.1 e.2)
  if syms.any Option.isNone then (false, lanes, x)
  else
    let c := syms.filterMap id
    let due := match x.marks with | some m => decide (x.col = m.headD 0 + markerStep) | none => false
    let found := x.marks.isNone && c.all isMark
    let x1 := if found then x.push (.marker true []) else markColumn due (skewsOf ms) c x
    let x2 := { x1 with
      col := x.col + 1,
      marks := if found then some [x.col] else if due then x.marks.map (fun m => m.map (fun t => t + markerStep)) else x.marks }
    (true, (ts.zip lanes).map (fun e => afterPeriod e.1 e.2),
      if c.all isMark then x2 else packetColumn (65536 - (held + x.heldBytes)) c x2)

/-- The symbols that wait are taken as far as they go, in at most `fuel` steps. One lane needs no deskew before its first marker. -/
def takeColumns (held : Nat) : Nat → List LaneSyms → LinkRx → List LaneSyms × LinkRx
  | 0, lanes, x => (lanes, x)
  | n + 1, lanes, x =>
    let first := match lanes.head? with | some ((t, _) :: _, _) => t | _ => x.col
    let y := if x.marks.isNone && lanes.length == 1 then { x with col := first } else x
    let r := if x.marks.isNone && lanes.length != 1 then seekMarks lanes x else nextColumn held lanes y
    if r.1 then takeColumns held n r.2.1 r.2.2 else (r.2.1, r.2.2)

/-- The link has lost its deskew: the packet in progress is discarded and the lanes are deskewed anew (R80). -/
def LinkRx.lose (x : LinkRx) : LinkRx := { x with marks := none, pkt := none }

/-- The receiving side after a group on one of its active lanes `ls`: without deskew as long as a lane passes no symbols. -/
def linkReceive (d : Device) (ls : List Lane) (held : Nat) (x : LinkRx) : Device × LinkRx :=
  let y := if ls.all (lnReceives d) && (match x.marks with | some m => m.length == ls.length | none => true) then x else x.lose
  if ¬ ls.all (lnReceives d) then (d, y)
  else
    let r := takeColumns held 256 (ls.map (fun l => ((d.laneX l).rx, (d.laneX l).rxAt))) y
    ((ls.zip r.1).foldl (fun d e => d.setLaneX e.1 { d.laneX e.1 with rx := e.2.1 }) d, r.2)

end Sys2Proof.Machine
end

