-- ==== Sys2Proof/Machine/CamPort.lean ====
section
/-! DEFINITION. The camera ports (03_camera_ports.md): the port state machine of Table 3.6, outstanding triggers, the back-channel,
control packets and exposure commands. -/

namespace Sys2Proof.Machine

/-- States of CPn_STATUS.STATE. -/
def psDisabled : Nat := 0
def psLaneWake : Nat := 1
def psDiscover : Nat := 2
def psConfig : Nat := 3
def psRelock : Nat := 4
def psTrain : Nat := 5
def psDeskew : Nat := 6
def psStart : Nat := 7
def psRun : Nat := 8
def psResync : Nat := 9
def psRetry : Nat := 10
def psFault : Nat := 11

def Device.port (d : Device) (p : Nat) : Port := unit d.ports p
def Device.setPort (d : Device) (p : Nat) (x : Port) : Device := { d with ports := withUnit d.ports p x }
def Device.portState (d : Device) (p : Nat) : Nat := d.get (F.CPn_STATUS.STATE p)

/-- Receive lanes in use, from CPn_CFG.LANES. -/
def portLanes (d : Device) (p : Nat) : Nat := let c := d.get (F.CPn_CFG.LANES p); if c = 0 then 1 else if c = 1 then 2 else 4

/-- Receive lane `k` and the back-channel of a port. -/
def rxLane (p k : Nat) : Lane := .cpRx (Fin.ofNat 12 p) (Fin.ofNat 4 k)
def bcLane (p : Nat) : Lane := .cpBc (Fin.ofNat 12 p)

/-- Lanes that the camera drives: lane 0 alone until the port moves it to its width (R83, Table 3.6). -/
def activeLanes (d : Device) (p : Nat) : List Lane :=
  (List.range (if d.portState p < psRelock then 1 else portLanes d p)).map (rxLane p)

/-- What the ingress buffer of a port holds (R68). -/
def Port.occupied (x : Port) : Nat := x.ingress + x.rx.heldBytes

/-- Every lane of the first `n` is in SYNC. -/
def lanesSync (d : Device) (p n : Nat) : Bool := (List.range n).all (fun k => d.lnState (rxLane p k) == lnSync)

/-! ## Lost lines (R66, R67, R80) -/

/-- Triggers of a list that `q` picks and that are still outstanding become lost; and how many. -/
def loseTrigs (q : Trigger → Bool) (ts : List Trigger) : List Trigger × Nat :=
  (ts.map (fun t => if t.st = .outstanding ∧ q t then { t with st := .lost } else t),
    (ts.filter (fun t => t.st = .outstanding && q t)).length)

/-- Lines counted as lost. -/
def countLost (d : Device) (p n : Nat) : Device :=
  if n = 0 then d else (d.count (F.CPn_LINES_LOST.COUNT p) n).raise (F.CPn_FLAGS.LOST p)

/-- Outstanding lines of one head that `q` picks become lost. -/
def loseHead (d : Device) (p h : Nat) (q : Trigger → Bool) : Device :=
  let x := d.port p
  let hd := unit x.heads h
  let (ts, n) := loseTrigs q hd.trigs
  countLost (d.setPort p { x with heads := withUnit x.heads h { hd with trigs := ts } }) p n

/-- Every outstanding line of every head becomes lost. -/
def loseAll (d : Device) (p : Nat) : Device := (List.range 4).foldl (fun d h => loseHead d p h (fun _ => true)) d

/-! ## Entering states (Table 3.6) -/

/-- The pending register request ends with a result: BUSY clears where it is the firmware's (R72). -/
def ctlEnd (d : Device) (p result : Nat) : Device :=
  let x := d.port p
  let d1 := d.setPort p { x with regReq := none, reqQ := x.reqQ.filter id }
  match x.regReq with
  | some { purpose := .firmware, .. } => (d1.set (F.CPn_CTL_CMD.BUSY p) 0).set (F.CPn_CTL_CMD.RESULT p) result
  | _ => d1

/-- The port leaves RUN: a pending firmware request ends with RESULT 3 (R72), an exposure command not yet sent is dropped (R76). -/
def leaveRun (d : Device) (p : Nat) : Device :=
  let d1 := match (d.port p).regReq with
    | some { purpose := .firmware, .. } => (ctlEnd d p 3).raise (F.CPn_FLAGS.CTL_REJ p)
    | _ => d
  if (d.port p).exposure.isSome then
    ((d1.setPort p { d1.port p with exposure := none }).set (F.CPn_EXP_CMD.BUSY p) 0).raise (F.CPn_FLAGS.EXP_REJ p)
  else d1

/-- The port stops using its back-channel: what waits to be sent, and its register request, are dropped. A training request stays pending,
so that R48 sends it again and ends it, except in DISABLED, where its lane has gone OFF. -/
def dropBackchannel (d : Device) (p st : Nat) : Device :=
  let d1 := ctlEnd d p 3
  let x := d1.port p
  let y := { x with trigQ := [], reqQ := x.reqQ.filter id, timeDue := false, nextTrig := none }
  d1.setPort p (if st = psDisabled then { y with reqQ := [], trainReq := none } else y)

/-- Enters a port state: what Table 3.6 and the rules after it tie to leaving RUN and to entering each state. RESYNC discards the packet in
progress. -/
def portEnter (d : Device) (p st : Nat) : Device :=
  let d0 := if d.portState p = psRun ∧ st ≠ psRun then leaveRun d p else d
  let d1 := d0.set (F.CPn_STATUS.STATE p) st
  let y := { d1.port p with deskewOk := 0, deskewBad := 0 }
  let d2 := d1.setPort p (if st = psResync then { y with rx := y.rx.lose } else y)
  let d3 := if st = psDisabled ∨ st = psRetry then dropBackchannel (loseAll d2 p) p st else d2
  let d4 := d3.raiseIf (st = psFault) (F.CPn_FLAGS.FAULT p)
  let d5 := d4.raiseIf (st = psResync) (F.CPn_FLAGS.RESYNC p)
  if st = psRun then (d5.set (F.CPn_STATUS.RETRIES p) 0).setPort p { d5.port p with eyeResync := false } else d5

/-! ## Requests to the camera (R48, R71) -/

/-- A register request is queued for the back-channel. Its tag is a free value (notes/assumptions/9.md). -/
def regSend (d : Device) (p : Nat) (r : RegRequest) : Device :=
  let (tag, d1) := d.free 8
  let x := d1.port p
  d1.setPort p { x with regReq := some { r with tag := tag }, reqQ := x.reqQ ++ [false] }

/-- The next training request that waits for the link is queued, where none is pending (R71). -/
def trainIssue (d : Device) (p : Nat) : Device :=
  let x := d.port p
  if x.trainReq.isSome then d
  else
    match (List.range 4).find? (fun k => match (d.laneX (rxLane p k)).train with | some t => t.queued | none => false) with
    | none => d
    | some k =>
      let lx := d.laneX (rxLane p k)
      match lx.train with
      | none => d
      | some t =>
        let (tag, d1) := d.free 8
        let d2 := d1.setLaneX (rxLane p k) { lx with train := some { t with queued := false } }
        let y := d2.port p
        d2.setPort p { y with trainReq := some { lane := k, tag := tag, word := t.request }, reqQ := y.reqQ ++ [true] }

/-- The back-channel's TIME packet becomes due, where the back-channel is in use. -/
def timeDue (d : Device) (p : Nat) : Device :=
  let st := d.portState p
  if st = psDisabled ∨ st = psRetry then d else d.setPort p { d.port p with timeDue := true }

/-! ## Triggers (R73, Table 3.6 START) -/

/-- Trigger lead of the configuration for the line of count `c`, in ns. -/
def trigLead (d : Device) (p : Nat) (c : Int) : Nat := 1000 * (d.asOf c).get (F.CPn_TRIG_CTRL.TRIG_LEAD p)

/-- Instant at which the trigger message of the line of count `c` becomes due. -/
def trigDue (d : Device) (p : Nat) (c : Int) : Nat := wrapN 64 ((tLine d c : Int) - trigLead d p c)

/-- The first line from count `c` on whose trigger message is not yet due, of at most `fuel` lines looked at. -/
def firstTrig (d : Device) (p : Nat) : Nat → Int → Int
  | 0, c => c
  | n + 1, c => if stampBefore (trigDue d p c) d.nowNs then firstTrig d p n (c + 1) else c

/-- START ends once the line generator runs: triggers start from the first line whose trigger message is not yet due. -/
def portStart (d : Device) (p : Nat) : Device :=
  if d.portState p = psStart ∧ d.lining then
    let d1 := portEnter d p psRun
    d1.setPort p { d1.port p with nextTrig := some (firstTrig d p 1024 d.tb.next) }
  else d

/-- The line generator has started: ports in START go to RUN, and ports in RUN or RESYNC trigger from the new schedule. -/
def portsOnLines (d : Device) : Device :=
  (List.range 12).foldl (fun d p =>
    if d.portState p = psRun ∨ d.portState p = psResync then
      d.setPort p { d.port p with nextTrig := some (firstTrig d p 1024 d.tb.next) }
    else portStart d p) d

/-- A head's list of its last 64 triggers with one more; the 65th oldest leaves it, and is lost if it was outstanding (R67). -/
def pushTrig (d : Device) (p h : Nat) (c : Int) (t : Nat) : Device :=
  let x := d.port p
  let hd := unit x.heads h
  let out := if hd.trigs.length < 64 then [] else hd.trigs.take 1
  let n := (out.filter (fun t => t.st = .outstanding)).length
  let kept := if hd.trigs.length < 64 then hd.trigs else hd.trigs.drop 1
  let hd1 := { hd with trigs := kept ++ [{ count := c, t := t }], silent := hd.silent + 1 }
  countLost (d.setPort p { x with heads := withUnit x.heads h hd1 }) p n

/-- The port triggers its lines. -/
def triggering (d : Device) (p : Nat) : Bool := d.portState p = psRun || d.portState p = psResync

/-- TRIGGER_DUE: the trigger message of the port's next line becomes due and the line outstanding for every enabled head. -/
def triggerDueDev (p : Nat) (d : Device) : Device :=
  match (d.port p).nextTrig with
  | none => d
  | some c =>
    if ¬ triggering d p ∨ ¬ d.lining ∨ stopsBefore d c then d
    else
      let t := tLine d c
      let en := (d.asOf c).get (F.CPn_CFG.HEAD_EN p)
      let d1 := d.elapseTo (trigDue d p c)
      let d2 := (List.range 4).foldl (fun d h => if bitAt en h then pushTrig d p h c t else d) d1
      let x := d2.port p
      d2.setPort p { x with
        nextTrig := some (c + 1), lastTrig := some c, trigQ := x.trigQ ++ [{ line := lineOf c, t := t, heads := en }] }

/-! ## Bring-up and recovery (R80) -/

/-- The receive rate of a port is one for all its lanes (R31); a locked lane locks again at the new one. -/
def setRate (d : Device) (p rate : Nat) : Device :=
  (List.range 4).foldl (fun d k =>
    let l := rxLane p k
    let b := laneBase l
    if d.get (F.LN_STATUS.RATE b) = rate then d
    else
      let d1 := d.set (F.LN_STATUS.RATE b) rate
      if lnLocked d l ∨ d.lnState l = lnLocking then
        let x := d.laneX l
        (d1.setLaneX l { x with phase := 0, acq := 0, score := 0, validRun := 0 }).lnEnter l
          (if x.signal then lnLocking else lnLos)
      else d1) d

/-- The port switches on: receive lanes 0 to N − 1 at RATE 0b001 and the back-channel ACTIVE. Not in the safe state, and not while
the Intake region is in reset (R459, R463). -/
def portOn (d : Device) (p : Nat) : Device :=
  if d.portState p ≠ psDisabled ∨ d.get (F.CPn_CFG.HEAD_EN p) = 0 ∨ d.safe ∨ d.resetting 2 then d
  else
    let n := portLanes d p
    let d1 := (List.range n).foldl (fun d k => lnPowerUp d (rxLane p k)) (setRate d p 1)
    portEnter (lnPowerUp d1 (bcLane p)) p psLaneWake

/-- Every lane of the port goes OFF. -/
def portLanesOff (d : Device) (p : Nat) : Device :=
  (List.range 4).foldl (fun d k => lnPowerDown d (rxLane p k) false) (lnPowerDown d (bcLane p) false)

/-- RESTART, or an apply that changes LANES, RATE or HEAD_EN: DISABLED, and on at once where HEAD_EN ≠ 0. -/
def portRestartDev (p : Nat) (d : Device) : Device :=
  let d1 := portEnter (portLanesOff d p) p psDisabled
  portOn (d1.set (F.CPn_STATUS.RETRIES p) 0) p

/-- Lane `k` trains in the port's link-training step, or is passed over under MODE 0 (R49). -/
def trainStart (d : Device) (l : Lane) (byPort : Bool) : Device :=
  let t : Training := { full := trainMode d l = 2, byPort := byPort }
  match trainSend d l t .presetReply (presetWord l) with
  | .send t' => (d.setLaneX l { d.laneX l with train := some { t' with queued := true } }).setBit (F.LN_CTRL.RETRAIN (laneBase l)) true
  | _ => trainFinish d l t false

/-- The link-training step at lane `k`: the first lane from `k` on whose MODE is not 0 trains; after the last lane, DESKEW. -/
def portTrain (d : Device) (p : Nat) : Nat → Nat → Device
  | 0, _ => portEnter d p psDeskew
  | n + 1, k =>
    if portLanes d p ≤ k then portEnter d p psDeskew
    else if trainMode d (rxLane p k) = 0 then portTrain d p n (k + 1)
    else
      let d1 := trainStart (d.setPort p { d.port p with trainLane := k }) (rxLane p k) true
      if (d1.laneX (rxLane p k)).train.isSome then trainIssue d1 p else portTrain d1 p n (k + 1)

/-- The port's state as its lanes' states let it be (Table 3.6): the events that are levels. -/
def portCheck (p : Nat) (d : Device) : Device :=
  let st := d.portState p
  let n := portLanes d p
  if st = psLaneWake ∧ lanesSync d p 1 then
    regSend (portEnter d p psDiscover) p { purpose := .discover, addr := 0, count := 12 }
  else if st = psRelock ∧ lanesSync d p n then portTrain (portEnter d p psTrain) p 5 0
  else if st = psTrain ∧ (d.laneX (rxLane p (d.port p).trainLane)).train.isNone then portTrain d p 5 ((d.port p).trainLane + 1)
  else if st = psRun ∧ ¬ lanesSync d p n then portEnter d p psResync
  else d

/-- What the training procedure of a camera lane does next. -/
def camTrainNext (d : Device) (p k : Nat) (nx : TrainNext) : Device :=
  let l := rxLane p k
  match nx with
  | .send t => trainIssue (d.setLaneX l { d.laneX l with train := some { t with queued := true } }) p
  | .wait t => d.setLaneX l { d.laneX l with train := some t }
  | .finish t fail =>
    let d1 := trainIssue (trainFinish d l t fail) p
    if t.byPort ∧ d1.portState p = psTrain then portTrain d1 p 5 (k + 1) else d1

/-- A framing or control-packet error (R59, R70, R71). -/
def frameErr (d : Device) (p : Nat) : Device := (d.count (F.CPn_FRAME_ERR.COUNT p)).raise (F.CPn_FLAGS.CRC_ERR p)

/-- A training reply on a camera port: that of the pending request (R71: its tag). -/
def camTrainReply (p tag word : Nat) (d : Device) : Device :=
  let x := d.port p
  match x.trainReq with
  | none => frameErr d p
  | some r =>
    if r.tag ≠ tag then frameErr d p
    else
      let d1 := d.setPort p { x with trainReq := none, reqQ := x.reqQ.filter (fun b => !b) }
      match (d1.laneX (rxLane p r.lane)).train with
      | none => trainIssue d1 p
      | some t => trainIssue (camTrainNext d1 p r.lane (trainOnReply d1 (rxLane p r.lane) t word)) p

/-- TRAIN_REQ_TIMEOUT on a camera port: sent again at most three times, then training ends with TRAIN_FAIL (R48). -/
def camTrainTimeout (p : Nat) (d : Device) : Device :=
  let x := d.port p
  match x.trainReq with
  | none => d
  | some r =>
    if x.reqQ.contains true then d
    else
      match (d.laneX (rxLane p r.lane)).train with
      | none => trainIssue (d.setPort p { x with trainReq := none }) p
      | some t =>
        if t.resends < 3 then
          (d.setLaneX (rxLane p r.lane) { d.laneX (rxLane p r.lane) with train := some { t with resends := t.resends + 1 } }).setPort p
            { x with reqQ := x.reqQ ++ [true] }
        else camTrainNext (d.setPort p { x with trainReq := none }) p r.lane (.finish t true)

/-- A write of RETRAIN on a camera lane: ignored while the port delivers data, or while training runs, or under MODE 0 (R49). -/
def camRetrain (p k : Nat) (d : Device) : Device :=
  let l := rxLane p k
  if d.portState p = psRun ∨ (d.laneX l).train.isSome ∨ trainMode d l = 0 then d
  else trainIssue (trainStart d l false) p

/-- A scan of a camera lane has ended: its training goes on, and EYE_LOW under EYE_POLICY 1 puts the port in RESYNC. -/
def camEyeScan (p k ew eh : Nat) (d : Device) : Device :=
  let l := rxLane p k
  let low := eyeLow d l ew eh
  let d1 := match (d.laneX l).train with
    | none => d
    | some t => camTrainNext d p k (trainOnScan d l t (ew * eh))
  if low ∧ d1.portState p = psRun ∧ k < portLanes d1 p ∧ d1.bit (F.CPn_CFG.EYE_POLICY p) then
    let d2 := portEnter d1 p psResync
    d2.setPort p { d2.port p with eyeResync := true }
  else d1

/-- Deskew is achieved (R58): DESKEW sends TIME and goes to START; RESYNC returns to RUN, through TRAIN after EYE_LOW. -/
def portDeskewed (d : Device) (p : Nat) : Device :=
  let st := d.portState p
  if st = psDeskew then portStart (portEnter (timeDue d p) p psStart) p
  else if st = psResync then
    if (d.port p).eyeResync then portTrain (portEnter d p psTrain) p 5 0 else portEnter d p psRun
  else d

/-- The measured skew goes to CPn_SKEW. -/
def showSkew (d : Device) (p : Nat) (skew : List Int) : Device :=
  ((d.setI (F.CPn_SKEW.LANE1 p) (skew.getD 0 0)).setI (F.CPn_SKEW.LANE2 p) (skew.getD 1 0)).setI (F.CPn_SKEW.LANE3 p) (skew.getD 2 0)

/-- A marker column that is aligned on all lanes and on schedule: the skew is recorded; the second in a row achieves deskew (R58). -/
def deskewGood (p : Nat) (skew : List Int) (d : Device) : Device :=
  let x := d.port p
  let d1 := (showSkew d p skew).setPort p { x with deskewOk := x.deskewOk + 1, deskewBad := 0 }
  if x.deskewOk + 1 = 2 ∧ lanesSync d p (portLanes d p) then portDeskewed d1 p else d1

/-- A deskew error, counted in every state: the second in a row puts a port in RUN in RESYNC, and in any state the lanes are deskewed
anew (R58; the last is the model's reading, log entry "deskew anew"). -/
def deskewBad (p : Nat) (d : Device) : Device :=
  let x := d.port p
  let d1 := ((d.count (F.CPn_DESKEW_ERR.COUNT p)).raise (F.CPn_FLAGS.DESKEW_ERR p)).setPort p
    { x with deskewOk := 0, deskewBad := x.deskewBad + 1, rx := if x.deskewBad + 1 = 2 then x.rx.lose else x.rx }
  if x.deskewBad + 1 = 2 ∧ d.portState p = psRun then portEnter d1 p psResync else d1

/-- The port's oldest event is taken. -/
def popEvent (d : Device) (p : Nat) : Device :=
  let x := d.port p
  d.setPort p { x with rx := { x.rx with events := x.rx.events.drop 1 } }

/-- DESKEW_COLUMN of a camera port: the marker column that its lanes have brought. -/
def deskewColumnDev (p : Nat) (d : Device) : Device :=
  match (d.port p).rx.events with
  | .marker true skew :: _ => deskewGood p skew (popEvent d p)
  | .marker false _ :: _ => deskewBad p (popEvent d p)
  | _ => d

/-- PORT_STATE_TIMEOUT: the back-channel goes OFF for 2 ms; the third consecutive RETRY is a block-level fault (Table 3.6). -/
def portTimeoutDev (p : Nat) (d : Device) : Device :=
  let st := d.portState p
  if (psLaneWake ≤ st ∧ st ≤ psRelock) ∨ st = psDeskew ∨ st = psResync then
    let r := d.get (F.CPn_STATUS.RETRIES p) + 1
    let d1 := (lnPowerDown d (bcLane p) false).set (F.CPn_STATUS.RETRIES p) r
    let d2 := portEnter d1 p psRetry
    if r < 3 then d2 else portEnter (d2.fault faultPort p) p psFault
  else d

/-- RETRY_END: the back-channel is active again and the camera starts on lane 0 at RATE 0b001. -/
def retryEndDev (p : Nat) (d : Device) : Device :=
  if d.portState p = psRetry then
    portCheck p (portEnter (lnPowerUp (setRate d p 1) (bcLane p)) p psLaneWake)
  else d

/-! ## Receiving a line (R59 to R69) -/

/-- The CRC of a packet with line number `l` folded in (R64). -/
def lineCrcOk (l : Nat) (bytes : List Byte) : Bool :=
  leNat (bytes.drop (bytes.length - 4)) == crc32c (leBytes 4 l ++ bytes.take (bytes.length - 4))

/-- The oldest trigger in state `st` whose line number matches the packet's CRC. -/
def matchTrig (ts : List Trigger) (st : TrigState) (bytes : List Byte) : Option Trigger :=
  ts.find? (fun t => t.st = st && lineCrcOk (lineOf t.count) bytes)

/-- The header of a packet that answers line `l` agrees with it, with R62 and with the format declared for the context (R65). -/
def headerOk (d : Device) (ctx l : Nat) (bytes : List Byte) : Bool :=
  let pixfmt := leAt bytes 1 1
  let layout := leAt bytes 20 1
  let pixels := leAt bytes 2 2
  leAt bytes 4 4 == l && formatOk pixfmt layout && decide (1 ≤ pixels ∧ pixels ≤ 8192)
    && leAt bytes 24 4 == payloadLen pixels pixfmt layout
    && pixels == ctxPixels d ctx && pixfmt == ctxPixfmt d ctx && layout == ctxLayout d ctx

/-- Settings ID expected for the line of count `c` (R77): that of the command with the latest APPLY_LINE at or before it. -/
def expectedSettings (hd : Head) (c : Int) : Nat :=
  (hd.expect.foldl (fun (a : Option Int × Nat) e =>
    if e.1 ≤ c ∧ ((match a.1 with | none => true | some f => decide (f ≤ e.1)) = true) then (some e.1, e.2) else a) (none, hd.settings)).2

/-- The half of a two-head register that belongs to head `h`. -/
def headHalf (r01 h : Nat) : Fld := ⟨r01 + 4 * (h / 2), 16 * (h % 2) + 15, 16 * (h % 2)⟩

/-- The packet for the line of trigger `t` is accepted (R66, R77, R79). -/
def acceptLine (d : Device) (p h : Nat) (t : Trigger) (bytes : List Byte) : Device × CamLine :=
  let cfg := d.asOf t.count
  let ctx := headCtx cfg p h
  let d1 := loseHead d p h (fun u => u.count < t.count)
  let x := d1.port p
  let hd := unit x.heads h
  let id := leAt bytes 16 2
  let want := expectedSettings hd t.count
  let hd1 := { hd with
    trigs := hd.trigs.map (fun u => if u.count = t.count then { u with st := .received } else u), silent := 0,
    settings := want, expect := hd.expect.filter (fun e => t.count < e.1) }
  let held := bytes.length
  let d2 := (d1.setPort p { x with heads := withUnit x.heads h hd1, ingress := x.ingress + held }).count (F.CPn_LINES_OK.COUNT p)
  let d3 := if id = want then d2 else (d2.count (F.CPn_SET_MISMATCH.COUNT p)).raise (F.CPn_FLAGS.SETTINGS_MISMATCH p)
  let d4 := (d3.set (headHalf (R.CPn_SETTINGS01 p) h) id).set (headHalf (R.CPn_TEMP01 p) h) (leAt bytes 18 2)
  (d4, { port := p, head := h, ctx := ctx, count := t.count,
         deadline := (t.t + 1000 * cfg.get (F.CXn_LAT.LAT_TARGET ctx)) % 2 ^ 64, settings := id,
         temp := leAt bytes 18 2, held := held, payload := (bytes.drop 32).take (bytes.length - 36) })

/-- The end column of a line packet of `bytes`, up to acceptance: the device, and the line where one was accepted (R65). The bytes have
left the packets' share of the ingress buffer, and only those of an accepted line come back to it. -/
def linePacket (p : Nat) (framed : Bool) (bytes : List Byte) (d : Device) : Device × Option CamLine :=
  if d.portState p ≠ psRun then (d, none)
  else if ¬ framed ∨ bytes.length < 36 ∨ leAt bytes 24 4 + 36 ≠ bytes.length then (frameErr d p, none)
  else
    let h := leAt bytes 0 1 % 4
    let ts := (unit (d.port p).heads h).trigs
    match matchTrig ts .outstanding bytes with
    | some t =>
      let cfg := d.asOf t.count
      if headerOk cfg (headCtx cfg p h) (lineOf t.count) bytes then
        let r := acceptLine d p h t bytes
        (r.1, some r.2)
      else ((d.count (F.CPn_HDR_ERR.COUNT p)).raise (F.CPn_FLAGS.HDR_ERR p), none)
    | none =>
      match matchTrig ts .received bytes with
      | some _ => ((d.count (F.CPn_DUP.COUNT p)).raise (F.CPn_FLAGS.DUP p), none)
      | none => ((d.count (F.CPn_CRC_ERR.COUNT p)).raise (F.CPn_FLAGS.CRC_ERR p), none)

/-- PACKET_ABORT, of a line or a control packet in any state (R60). -/
def packetAbortDev (p : Nat) (d : Device) : Device :=
  match (d.port p).rx.events with
  | .abort :: _ => ((popEvent d p).count (F.CPn_ABORTS.COUNT p)).raise (F.CPn_FLAGS.ABORT p)
  | _ => d

/-- INGRESS_OVERFLOW: the packet has been dropped as its byte found the buffer full (R68). -/
def ingressOverflowDev (p : Nat) (d : Device) : Device :=
  match (d.port p).rx.events with
  | .overflow :: _ => ((popEvent d p).count (F.CPn_OVF.COUNT p)).raise (F.CPn_FLAGS.OVF p)
  | _ => d

/-! ## The ingress buffer and the lanes (R68) -/

/-- Pipe `q` has read some more of its line from the ingress buffer, how much a free value says: R88 gives the rate, and no command its
clock. -/
def pipeRead (q : Nat) (d : Device) : Device :=
  match d.pipes.pipe[q]?.getD none with
  | none => d
  | some l =>
    if l.held = 0 then d
    else
      let n := Config.free d.fresh 24 % (l.held + 1)
      let x := d.port l.port
      let d1 := { d with fresh := d.fresh + 1, pipes := { d.pipes with pipe := withUnit d.pipes.pipe q (some { l with held := l.held - n }) } }
      d1.setPort l.port { x with ingress := x.ingress - n }

/-- A group has arrived on a camera lane: the columns it completes are taken, and the buffer's high-water mark follows. -/
def camReceive (p : Nat) (d0 : Device) : Device :=
  let d := if (d0.port p).rx.pkt.isSome then (List.range 8).foldl (fun d q => pipeRead q d) d0 else d0
  let x := d.port p
  let r := linkReceive d (activeLanes d p) x.ingress x.rx
  let y := { r.1.port p with rx := r.2, deskewOk := if (activeLanes d p).all (lnReceives d) then (r.1.port p).deskewOk else 0 }
  let full : Bool := (r.2.events.drop x.rx.events.length).any (fun e => decide (e = .overflow))
  ingressHigh (r.1.setPort p y) p (if full then 65536 else y.occupied)

/-- NO_LINES: an enabled head has had no packet accepted for 64 consecutive triggers in RUN (R69). -/
def noLinesDev (p h : Nat) (d : Device) : Device :=
  let x := d.port p
  let hd := unit x.heads h
  if d.portState p = psRun ∧ headEn d p h ∧ 64 ≤ hd.silent then
    (d.setPort p { x with heads := withUnit x.heads h { hd with silent := hd.silent - 64 } }).raise (F.CPn_FLAGS.NO_LINES p)
  else d

/-! ## Control packets (R70 to R72) -/

/-- Words needed at least: lanes and rate of CAPS, and the formats of the enabled heads, agree with the configuration. -/
def discoverOk (d : Device) (p : Nat) (data : List Nat) : Bool :=
  data.getD 0 0 == 1
    && decide (portLanes d p ≤ bitsOf (data.getD 2 0) 2 0)
    && bitAt (data.getD 2 0) (7 + d.get (F.CPn_CFG.RATE p))
    && (List.range 4).all (fun h => !headEn d p h || data.getD (8 + h) 0 == (d.rd (R.CXn_FMT (headCtx d p h))).toNat)

/-- LINK_CFG for the port's configuration (Table 3.5). -/
def linkCfg (d : Device) (p : Nat) : Nat := d.get (F.CPn_CFG.LANES p) + 16 * d.get (F.CPn_CFG.RATE p)

/-- The port's own request is answered (Table 3.6, DISCOVER and CONFIG). -/
def bringUpReply (d : Device) (p : Nat) (purpose : RegPurpose) (status : Nat) (data : List Nat) : Device :=
  match purpose with
  | .firmware => d
  | .discover =>
    if d.portState p ≠ psDiscover then d
    else if status = 0 ∧ discoverOk d p data then
      regSend (portEnter d p psConfig) p { purpose := .config, write := true, addr := 0xC, count := 1, data := [linkCfg d p] }
    else portEnter d p psFault
  | .config =>
    if d.portState p ≠ psConfig then d
    else if status = 0 then
      portCheck p (portEnter (setRate d p (d.get (F.CPn_CFG.RATE p))) p psRelock)
    else portEnter d p psFault

/-- The firmware's request is answered (R72). -/
def firmwareReply (d : Device) (p : Nat) (r : RegRequest) (status : Nat) (data : List Nat) : Device :=
  let d1 := (d.set (F.CPn_CTL_CMD.BUSY p) 0).set (F.CPn_CTL_CMD.RESULT p) (if status = 0 then 0 else 1)
  if status ≠ 0 then d1.set (F.CPn_CTL_CMD.CAM_STATUS p) status
  else if r.write then d1
  else (List.range (min r.count data.length)).foldl (fun d k => d.wr (R.CPn_CTL_DATAk p k) (BitVec.ofNat 32 (data.getD k 0))) d1

/-- A control packet as received (R70): TYPE, TAG and body, where its framing, CRC, LEN and the length of a listed body hold. -/
def ctlParse (framed : Bool) (bytes : List Byte) : Option (Nat × Nat × List Byte) :=
  let len := leAt bytes 2 2
  let type := leAt bytes 0 1
  if framed ∧ len % 4 = 0 ∧ len ≤ 68 ∧ bytes.length = len + 8 ∧ crcOk bytes ∧ (type = 3 → 4 ≤ len) ∧ (type = 5 → len = 4) ∧ (type = 8 → len = 8)
    then some (type, leAt bytes 1 1, (bytes.drop 4).take len) else none

/-- The control packet that is the port's oldest event, if it is one that can be read. -/
def ctlEvent (d : Device) (p : Nat) : Option (Nat × Nat × List Byte) :=
  match (d.port p).rx.events with
  | .ctl framed bytes :: _ => ctlParse framed bytes
  | _ => none

/-- A register reply (R71, R72): that of the pending request, or a packet that matches none. -/
def regReply (p tag status : Nat) (data : List Nat) (d : Device) : Device :=
  let x := d.port p
  match x.regReq with
  | none => frameErr d p
  | some r =>
    if r.tag ≠ tag then frameErr d p
    else
      let d1 := d.setPort p { x with regReq := none, reqQ := x.reqQ.filter id }
      match r.purpose with
      | .firmware => firmwareReply d1 p r status data
      | .discover => bringUpReply d1 p .discover status data
      | .config => bringUpReply d1 p .config status data

/-- REG_REPLY: the control packet of type 0x03. -/
def regReplyDev (p : Nat) (d : Device) : Device :=
  match ctlEvent d p with
  | some (3, tag, body) =>
    regReply p tag (leAt body 0 4) ((List.range (body.length / 4 - 1)).map (fun k => leAt body (4 + 4 * k) 4)) (popEvent d p)
  | _ => d

/-- TRAIN_REPLY of a camera port: the control packet of type 0x05. -/
def trainReplyCam (p : Nat) (d : Device) : Device :=
  match ctlEvent d p with
  | some (5, tag, body) => camTrainReply p tag (leAt body 0 4) (popEvent d p)
  | _ => d

/-- CTL_TIMEOUT: the request is sent again at most three times, then ends with CTL_TIMEOUT and RESULT 2 (R71, R72). -/
def ctlTimeoutDev (p : Nat) (d : Device) : Device :=
  let x := d.port p
  match x.regReq with
  | none => d
  | some r =>
    if x.reqQ.contains false then d
    else if r.resends < 3 then
      d.setPort p { x with regReq := some { r with resends := r.resends + 1 }, reqQ := x.reqQ ++ [false] }
    else (ctlEnd d p 2).raise (F.CPn_FLAGS.CTL_TIMEOUT p)

/-- CAM_EVENT: the control packet of type 0x08 (R71). -/
def camEventDev (p : Nat) (d : Device) : Device :=
  match ctlEvent d p with
  | some (8, _, body) => ((popEvent d p).set (F.CPn_CAM_EVENT.CODE p) (leAt body 0 4)).raise (F.CPn_FLAGS.CAM_EVENT p)
  | _ => d

/-- A reply of `type` and `tag` answers the port's pending request (R71). -/
def tagPending (d : Device) (p type tag : Nat) : Bool :=
  if type = 3 then (match (d.port p).regReq with | some r => r.tag == tag | none => false)
  else match (d.port p).trainReq with | some r => r.tag == tag | none => false

/-- UNKNOWN_CTL: a control packet that is discarded for its framing, LEN or CRC, as a reply to no request, or for its TYPE (R59, R70,
R71). -/
def unknownCtlDev (p : Nat) (d : Device) : Device :=
  match (d.port p).rx.events with
  | .ctl framed bytes :: _ =>
    match ctlParse framed bytes with
    | none => frameErr (popEvent d p) p
    | some (type, tag, _) =>
      if type = 8 ∨ ((type = 3 ∨ type = 5) ∧ tagPending d p type tag) then d
      else if type = 3 ∨ type = 5 then frameErr (popEvent d p) p
      else (frameErr (popEvent d p) p).raise (F.CPn_FLAGS.UNKNOWN_CTL p)
  | _ => d

/-- A write of CPn_CTL_CMD with GO (R72): its RW fields take the written value, and the request is issued or rejected. -/
def ctlGoDev (p : Nat) (v : Word) (d0 : Device) : Device :=
  let d := (d0.set (F.CPn_CTL_CMD.COUNT p) ((F.CPn_CTL_CMD.COUNT p).of v)).set (F.CPn_CTL_CMD.WRITE p) ((F.CPn_CTL_CMD.WRITE p).of v)
  let n := (F.CPn_CTL_CMD.COUNT p).of v
  let wr := (F.CPn_CTL_CMD.WRITE p).of v ≠ 0
  if (F.CPn_CTL_CMD.GO p).of v = 0 then d
  else if d.bit (F.CPn_CTL_CMD.BUSY p) ∨ d.portState p ≠ psRun ∨ n = 0 ∨ 16 < n then
    (d.set (F.CPn_CTL_CMD.RESULT p) 3).raise (F.CPn_FLAGS.CTL_REJ p)
  else
    let data := if wr then (List.range n).map (fun k => (d.rd (R.CPn_CTL_DATAk p k)).toNat) else []
    regSend (d.set (F.CPn_CTL_CMD.BUSY p) 1) p
      { purpose := .firmware, write := wr, addr := d.get (F.CPn_CTL_ADDR.ADDR p), count := n, data := data }

/-! ## Exposure commands (R76, R77) -/

/-- The trigger message of the line of count `c` has been sent or is due within 10 µs. -/
def expTooLate (d : Device) (p : Nat) (c : Int) : Bool :=
  (match (d.port p).lastTrig with | some l => decide (c ≤ l) | none => false) || decide (c ≤ d.tb.count)
    || (d.lining && !stampBefore (d.nowNs + 10000) (trigDue d p c))

/-- A write of CPn_EXP_CMD with GO: the command is accepted, or refused with EXP_REJ (R76). -/
def expGoDev (p : Nat) (v : Word) (d0 : Device) : Device :=
  let d := d0.set (F.CPn_EXP_CMD.HEAD p) ((F.CPn_EXP_CMD.HEAD p).of v)
  let l := d.get (F.CPn_EXP_LINE.APPLY_LINE p)
  let c := d.countOf l
  if (F.CPn_EXP_CMD.GO p).of v = 0 then d
  else if d.bit (F.CPn_EXP_CMD.BUSY p) ∨ d.portState p ≠ psRun ∨ expTooLate d p c then d.raise (F.CPn_FLAGS.EXP_REJ p)
  else
    let e : Exposure :=
      { head := (F.CPn_EXP_CMD.HEAD p).of v, settings := d.get (F.CPn_EXP_SET.SETTINGS_ID p), line := l, count := c,
        expNs := d.get (F.CPn_EXP_TIME.EXPOSURE_NS p), gain := d.get (F.CPn_EXP_SET.GAIN p) }
    (d.set (F.CPn_EXP_CMD.BUSY p) 1).setPort p { d.port p with exposure := some e }

/-! ## The back-channel (R70, R73 to R75) -/

/-- Data bytes as symbols. -/
def dataSyms (bs : List Byte) : List (Nat × Bool) := bs.map (fun b => (b.toNat, false))

/-- A control packet (R70). -/
def ctlPacket (type tag : Nat) (body : List Byte) : List (Nat × Bool) :=
  (0x5C, true) :: dataSyms (withCrc (leBytes 1 type ++ leBytes 1 tag ++ leBytes 2 body.length ++ body)) ++ [(0xFD, true)]

/-- A trigger message (R73). -/
def trigMessage (m : TrigMsg) : List (Nat × Bool) :=
  (0xDC, true) :: dataSyms (withCrc (leBytes 4 m.line ++ leBytes 8 m.t ++ leBytes 1 m.heads ++ leBytes 3 0)) ++ [(0xFD, true)]

/-- Body of a register request. -/
def regBody (r : RegRequest) : List Byte :=
  leBytes 4 r.addr ++ (if r.write then r.data.flatMap (leBytes 4) else leBytes 4 r.count)

/-- TIME_NS: the device time plus CPn_BC_DELAY, rounded to ns (R75, R8). -/
def timeNs (d : Device) (p : Nat) : Nat :=
  (rneDiv ((d.tb.tod.units * 1000 + d.get (F.CPn_BC_DELAY.DELAY p) * 2 ^ 32 : Nat) : Int) (1000 * 2 ^ 32)).toNat % 2 ^ 64

/-- The port sends `syms` on its back-channel. -/
def bcSend (d : Device) (p : Nat) (x : Port) (syms : List (Nat × Bool)) : Device :=
  lnSend (d.setPort p { x with sent := syms }) (bcLane p) syms

/-- BACKCHANNEL_SEND: the first item in the order of R74 is sent; a word of K28.5 otherwise. While the lane sends PRBS the items wait
(R52). -/
def backchannelDev (p : Nat) (d : Device) : Device :=
  let x := d.port p
  if ¬ lnSends d (bcLane p) then lnSend d (bcLane p) (List.replicate 4 (0xBC, true))
  else
    match x.trigQ, x.exposure, x.reqQ with
    | m :: t, _, _ => bcSend d p { x with trigQ := t } (trigMessage m)
    | [], some e, _ =>
      let hd := unit x.heads e.head
      let (tag, d1) := d.free 8
      let body := leBytes 1 e.head ++ leBytes 1 0 ++ leBytes 2 e.settings ++ leBytes 4 e.line ++ leBytes 4 e.expNs
        ++ leBytes 2 e.gain ++ leBytes 2 0
      let hd1 := { hd with expect := hd.expect ++ [(e.count, e.settings)] }
      (bcSend d1 p { x with exposure := none, heads := withUnit x.heads e.head hd1 } (ctlPacket 0x06 tag body)).set (F.CPn_EXP_CMD.BUSY p) 0
    | [], none, true :: q =>
      bcSend d p { x with reqQ := q } (match x.trainReq with
        | some r => ctlPacket 0x04 r.tag (leBytes 4 r.word)
        | none => [])
    | [], none, false :: q =>
      bcSend d p { x with reqQ := q } (match x.regReq with
        | some r => ctlPacket (if r.write then 0x02 else 0x01) r.tag (regBody r)
        | none => [])
    | [], none, [] =>
      if x.timeDue then
        let (tag, d1) := d.free 8
        bcSend d1 p { x with timeDue := false } (ctlPacket 0x07 tag (leBytes 8 (timeNs d p)))
      else bcSend d p x (List.replicate 4 (0xBC, true))

end Sys2Proof.Machine
end

