-- ==== Sys2Proof/Machine/Timebase.lean ====
section
/-! DEFINITION. The counter's commands: rate, slew, step, capture, timestamp queue and PPS (R258 to R274). -/

namespace Sys2Proof.Machine

/-- A write of TB_ADJ: the rate, or ignored with ADJ_REJ above 1,000 ppm (R259). -/
def tbAdjDev (w : Word) (d : Device) : Device :=
  if 8589935 < (sx 32 w.toNat).natAbs then d.raise F.TB_FLAGS.ADJ_REJ else d.wr R.TB_ADJ w

/-- A write of TB_SLEW replaces the remainder (R260). -/
def tbSlewDev (w : Word) (d : Device) : Device := { d with tb := { d.tb with slew := sx 32 w.toNat * 2 ^ 32 } }

/-- What TB_SLEW reads: the remainder in ns, rounded towards 0. -/
def slewRead (d : Device) : Word := BitVec.ofInt 32 (Int.tdiv d.tb.slew (2 ^ 32))

/-- The edges that take the rest of the slew remainder pass (R260). -/
def slewEndDev (d : Device) : Device := if d.tb.slew = 0 then d else d.elapse (ceilDiv d.tb.slew.natAbs (slewStep d))

/-- A write of TB_CTRL.STEP: the next TCLK edge loads SEC and NS, clears FRAC and ends any slew, or STEP_REJ is set (R261).  A step into
another second counts as reaching a whole second, and TB_PPS takes effect with it (R274; DESIGN CHOICE, log entry "a step and TB_PPS"). -/
def tbStepDev (d : Device) : Device :=
  if 1000000000 ≤ d.get F.TB_STEP_NS.NS ∨ d.lining then d.raise F.TB_FLAGS.STEP_REJ
  else
    let t : Tod := { sec := d.get F.TB_STEP_SEC_LO.V + 2 ^ 32 * d.get F.TB_STEP_SEC_HI.V, ns := d.get F.TB_STEP_NS.NS, frac := 0 }
    { d with tb := { d.tb with
        tod := t, edges := d.tb.edges + 1, slew := 0, ppsLive := if t.sec = d.tb.tod.sec then d.tb.ppsLive else d.rd R.TB_PPS } }

/-- A write of TB_CTRL: SLEW_PPM, and the step where STEP is written 1. -/
def tbCtrlDev (w : Word) (d : Device) : Device :=
  let d1 := d.set F.TB_CTRL.SLEW_PPM (F.TB_CTRL.SLEW_PPM.of w)
  if F.TB_CTRL.STEP.of w = 1 then tbStepDev d1 else d1

/-- A read of TB_TOD_FRAC captures the whole counter into the four registers (R262). -/
def todReadDev (d : Device) : Device :=
  (((d.wr R.TB_TOD_FRAC (BitVec.ofNat 32 d.tb.tod.frac)).wr R.TB_TOD_NS (BitVec.ofNat 32 d.tb.tod.ns)).wr R.TB_TOD_SEC_LO
    (BitVec.ofNat 32 d.tb.tod.sec)).wr R.TB_TOD_SEC_HI (BitVec.ofNat 32 (d.tb.tod.sec / 2 ^ 32))

/-! ## Timestamps (R271, R272) -/

/-- A stamp `t` in units of 1/256 ns reached the queue: appended, or discarded where the queue is full. -/
def tsqPush (d : Device) (tx : Bool) (msgType domain seqId : Nat) (t : Int) : Device :=
  if 128 ≤ d.tb.tsq.length then (d.count F.TB_TSQ_OVF.V).raise F.TB_FLAGS.TSQ_OVF
  else
    let e : TsqEntry := { tx := tx, msgType := msgType % 16, domain := domain % 256, seqId := seqId % 65536,
                          frac := (t % 256).toNat, ns := wrapN 64 (t / 256) }
    { d with tb := { d.tb with tsq := d.tb.tsq ++ [e] } }

/-- A stamp point at `t` in 1/256 ns corrected by a latency in ps: minus on receive, plus on transmit (R271). The quotient is
rounded half to even (R8). -/
def stampFix (t : Nat) (tx : Bool) (ps : Nat) : Int := let k := rneDiv ((ps : Int) * 256) 1000; if tx then t + k else (t : Int) - k

/-- A read of TB_TSQ_INFO removes the head entry into the queue registers; VALID 0 where the queue is empty (R272). -/
def tsqReadDev (d : Device) : Device :=
  match d.tb.tsq with
  | [] => d.set F.TB_TSQ_INFO.VALID 0
  | e :: t =>
    let d1 := { d with tb := { d.tb with tsq := t } }
    let d2 := ((((d1.set F.TB_TSQ_INFO.VALID 1).setBit F.TB_TSQ_INFO.DIR e.tx).set F.TB_TSQ_INFO.MSG_TYPE e.msgType).set
      F.TB_TSQ_INFO.DOMAIN e.domain).set F.TB_TSQ_INFO.SEQ_ID e.seqId
    (d2.wr R.TB_TSQ_FRAC (BitVec.ofNat 32 e.frac)).setPair R.TB_TSQ_NS_LO R.TB_TSQ_NS_HI e.ns

/-! ## PPS (R274) -/

/-- A field of TB_PPS as it took effect at the last whole second. -/
def ppsGet (d : Device) (f : Fld) : Nat := f.of d.tb.ppsLive

/-- The device time reaches the next whole second, and PPS_OUT rises with rill 120 (Table 18.1) where OUT_EN is 1; or it reaches WIDTH µs after the second,
and PPS_OUT falls. -/
def ppsOutDev (fall : Bool) (d : Device) : Device :=
  if fall then
    if d.tb.ppsOut then
      let d1 := d.elapseTo (d.tb.tod.sec * 1000000000 + 1000 * ppsGet d F.TB_PPS.WIDTH)
      { d1 with tb := { d1.tb with ppsOut := false } }
    else d
  else
    let d1 := d.elapseTo ((d.tb.tod.sec + 1) * 1000000000)
    if ppsGet d1 F.TB_PPS.OUT_EN = 1 then ({ d1 with tb := { d1.tb with ppsOut := true } }).emit 120 d1.nowNs else d1

/-- A PPS_IN edge whose new level is first sampled at `t` and holds for `held` samples: it is filtered with 4 samples (R225), and latched and
flagged where enabled and of the selected polarity. -/
def ppsInDev (rising : Bool) (t held : Nat) (d : Device) : Device :=
  if 4 ≤ held ∧ ppsGet d F.TB_PPS.IN_EN = 1 ∧ rising = (ppsGet d F.TB_PPS.IN_FALL == 0) then
    (d.setPair R.TB_PPS_IN_LO R.TB_PPS_IN_HI t).raise F.TB_FLAGS.PPS_IN
  else d

def execTbAdjWrite (value : Word) (s : State) : Outcome := s.done (regAccess R.TB_ADJ true (tbAdjDev value) s.dev)
def execTbSlewWrite (value : Word) (s : State) : Outcome := s.done (regAccess R.TB_SLEW true (tbSlewDev value) s.dev)
def execSlewEnd (s : State) : Outcome := s.done (slewEndDev s.dev)
def execTbStep (value : Word) (s : State) : Outcome := s.done (regAccess R.TB_CTRL true (tbCtrlDev value) s.dev)
def execTodRead (s : State) : Outcome := s.done (regAccess R.TB_TOD_FRAC false todReadDev s.dev)
def execTsqRead (s : State) : Outcome := s.done (regAccess R.TB_TSQ_INFO false tsqReadDev s.dev)
def execPpsOutPulse (fall : Bool) (s : State) : Outcome := s.done (ppsOutDev fall s.dev)
def execPpsInEdge (rising : Bool) (t held : Nat) (s : State) : Outcome := s.done (ppsInDev rising t held s.dev)

end Sys2Proof.Machine
end

