-- ==== Sys2Proof/Machine/Tio.lean ====
section
/-! DEFINITION. Timed I/O (R275 to R280). -/

namespace Sys2Proof.Machine

def Device.tio (d : Device) (p : Nat) : TioUnit := unit d.tb.tio p
def Device.setTio (d : Device) (p : Nat) (x : TioUnit) : Device := { d with tb := { d.tb with tio := withUnit d.tb.tio p x } }

/-- MODE codes (Table 12.2). -/
def tioCapture : Nat := 1
def tioSingle : Nat := 2
def tioPeriodic : Nat := 3
def tioLine : Nat := 4
def tioRill : Nat := 5
def tioStatic : Nat := 6

def tioMode (d : Device) (p : Nat) : Nat := d.get (F.TIO_Pn_CFG.MODE p)
def tioArmed (d : Device) (p : Nat) : Bool := d.bit (F.TIO_Pn_STATUS.ARMED p)
def tioWidth (d : Device) (p : Nat) : Nat := d.get (F.TIO_Pn_WIDTH.WIDTH p)
def tioPeriod (d : Device) (p : Nat) : Nat := d.get (F.TIO_Pn_PERIOD.PERIOD p)
def tioCount (d : Device) (p : Nat) : Nat := d.get (F.TIO_Pn_COUNT.COUNT p)
def tioStartAt (d : Device) (p : Nat) : Nat := d.pair (R.TIO_Pn_START_LO p) (R.TIO_Pn_START_HI p)
def tioOffset (d : Device) (p : Nat) : Int := sx 32 (d.rd (R.TIO_Pn_OFFSET p)).toNat

/-- Outputs are forced to their SAFE levels now: the chip safe state or a reset of the Actuation region (R280). -/
def tioForced (d : Device) : Bool := d.safe || d.resetting 5

/-- Outputs of a unit: ACTIVE, and the end of the pulse that is active. -/
def tioShow (d : Device) (p : Nat) (active : Bool) (endAt : Option Nat) : Device :=
  (d.setTio p { d.tio p with endAt := endAt }).setBit (F.TIO_Pn_STATUS.ACTIVE p) active

/-- The level the unit drives onto its pin: none for high impedance. STATIC drives LEVEL, other output modes the pulse; SAFE levels
while forced and after it until armed or written again (R275, R280); before the first apply every pin is high impedance (R397). -/
def tioDrive (d : Device) (p : Nat) : Option Bool :=
  let m := tioMode d p
  if m < tioSingle ∨ tioStatic < m ∨ ¬ d.slu.applied then none
  else if tioForced d ∨ (d.tio p).atSafe then (let s := d.get (F.TIO_Pn_CFG.SAFE p); if s = 2 then none else some (s = 1))
  else some (xor (d.bit (F.TIO_Pn_STATUS.ACTIVE p)) (d.bit (F.TIO_Pn_CFG.INV p)))

/-- A pulse (start, end) is scheduled: late where its start has passed, dropped where its end has (R276, R277). -/
def tioSchedule (d : Device) (p a b : Nat) : Device :=
  let now := d.nowNs
  let late := stampBefore a now
  let d1 := if late then (d.count (F.TIO_Pn_LATE.V p)).raise (F.TIO_Pn_FLAGS.LATE p) else d
  if late ∧ ¬ stampBefore now b then d1
  else let x := d1.tio p; d1.setTio p { x with pulses := x.pulses ++ [(a % 2 ^ 64, b % 2 ^ 64)] }

/-- The unit disarms. -/
def tioDisarm (d : Device) (p : Nat) : Device :=
  let x := d.tio p
  (tioShow (d.setTio p { x with pulses := [], k := 0, line := none }) p false none).setBit (F.TIO_Pn_STATUS.ARMED p) false

/-- SINGLE, and PERIODIC with COUNT ≠ 0, disarm themselves after their last pulse has ended (R278). -/
def tioFinished (d : Device) (p : Nat) : Device :=
  let x := d.tio p
  let m := tioMode d p
  if x.pulses.isEmpty ∧ x.endAt.isNone ∧ (m = tioSingle ∨ (m = tioPeriodic ∧ tioCount d p ≠ 0 ∧ tioCount d p ≤ x.k)) then tioDisarm d p
  else d

/-- PERIODIC from its pulse `k` on: pulse k is scheduled. -/
def tioNextPeriodic (d : Device) (p : Nat) : Device :=
  let x := d.tio p
  if tioCount d p ≠ 0 ∧ tioCount d p ≤ x.k then d
  else
    let a := tioStartAt d p + x.k * tioPeriod d p
    tioSchedule (d.setTio p { x with k := x.k + 1 }) p a (a + tioWidth d p)

/-- PERIODIC goes on with its next pulse: of the pulses from it on whose starts have passed, all but the last have ended too, since
WIDTH < PERIOD, and count as late; the last of them is scheduled, or the one after it where that one has ended as well. -/
def tioPeriodicOn (d : Device) (p : Nat) : Device :=
  let k := (d.tio p).k
  if tioCount d p ≠ 0 ∧ tioCount d p ≤ k then d
  else
    let a := (tioStartAt d p + k * tioPeriod d p) % 2 ^ 64
    let past := if stampBefore a d.nowNs then (d.nowNs + 2 ^ 64 - 1 - a) % 2 ^ 64 / tioPeriod d p else 0
    let gone := if tioCount d p = 0 then past else capN (tioCount d p - 1 - k) past
    let d1 := if gone = 0 then d else (d.count (F.TIO_Pn_LATE.V p) gone).raise (F.TIO_Pn_FLAGS.LATE p)
    let d2 := tioNextPeriodic (d1.setTio p { d1.tio p with k := k + gone }) p
    if (d2.tio p).pulses.isEmpty then tioNextPeriodic d2 p else d2

/-- The least line count from `c` on whose line index is PHASE modulo LINE_DIV, if there is one. -/
def tioQualify (d : Device) (p : Nat) (c : Int) : Option Int :=
  let n := d.get (F.TIO_Pn_LINE.LINE_DIV p) + 1
  let ph := d.get (F.TIO_Pn_LINE.PHASE p)
  if n ≤ ph then none
  else
    let l := lineOf c
    let s := (ph + n - l % n) % n
    some (if l + s < 2 ^ 32 then c + s else c + (2 ^ 32 - l : Nat) + ph)

/-- The first qualifying line, of at most `fuel` looked at from `c` on, whose pulse starts at or after the instant `thr`. -/
def tioFirstLine (d : Device) (p thr : Nat) : Nat → Int → Option Int
  | 0, _ => none
  | n + 1, c =>
    match tioQualify d p c with
    | none => none
    | some q => if stampBefore (wrapN 64 ((tLine d q : Int) + tioOffset d p)) thr then tioFirstLine d p thr n (q + 1) else some q

/-- A line count at or below the first line whose t_L is at or after the instant `t`, on the grids given (newest first). -/
def lineOnGrids (t : Int) : (Int × Nat × Nat) → List (Int × Nat × Nat) → Int
  | g, [] => g.1 + firstOnGrid g.2.2 (nsFrom g.2.1 t) - 1
  | g, h :: r =>
    let c := g.1 + firstOnGrid g.2.2 (nsFrom g.2.1 t) - 1
    if g.1 ≤ c then c else let o := lineOnGrids t h r; if g.1 < o then g.1 else o

/-- A line count at or below the first line whose t_L is at or after the instant `t`, on the schedule that an ARMED commit may change and
that period changes have changed (R264, R266). -/
def lineAtOrAfter (d : Device) (t : Int) : Int :=
  let (ca, ta) := d.tb.anchor
  let c := lineOnGrids t (ca, ta, periodQ d) d.tb.grids
  let a := d.slu.count
  if d.sluState = sluArmed ∧ a ≤ c then
    let c' := a + firstOnGrid (periodQ d.withStaged) (nsFrom (tOnGrid ca ta (periodQ d) a) t) - 1
    if c' < a then a else c'
  else c

/-- The first line of LINE mode whose pulse starts at or after the instant `thr`, while the line generator runs (R276). -/
def tioLineFrom (d : Device) (p thr : Nat) : Option Int :=
  if ¬ d.lining then none
  else
    let c := lineAtOrAfter d ((thr : Int) - tioOffset d p)
    tioFirstLine d p thr 8192 (if c < d.tb.first then d.tb.first else c)

/-- ARM (R276, R278). In modes 0, 1 and 6 there is nothing to arm, and while outputs are forced none arms. -/
def tioArmDev (p : Nat) (d : Device) : Device :=
  let m := tioMode d p
  let rej := d.raise (F.TIO_Pn_FLAGS.CFG_REJ p)
  if tioArmed d p then d
  else if tioWidth d p = 0 ∨ (m = tioPeriodic ∧ tioPeriod d p ≤ tioWidth d p) ∨ (m = tioRill ∧ tioOffset d p < 0) then rej
  else if m < tioSingle ∨ tioRill < m ∨ tioForced d then d
  else
    let d1 := (d.setTio p { d.tio p with pulses := [], endAt := none, k := 0, line := none, armedAt := d.nowNs, atSafe := false }).setBit
      (F.TIO_Pn_STATUS.ARMED p) true
    if m = tioSingle then tioFinished (tioSchedule d1 p (tioStartAt d p) (tioStartAt d p + tioWidth d p)) p
    else if m = tioPeriodic then tioFinished (tioPeriodicOn d1 p) p
    else if m = tioLine then d1.setTio p { d1.tio p with line := tioLineFrom d1 p (d.nowNs + 2000) }
    else d1

/-- STOP (R278). -/
def tioStopDev (p : Nat) (d : Device) : Device := if tioArmed d p then tioDisarm d p else d

/-- A write of TIO_Pn_CTRL: STOP wins over ARM (R278). -/
def tioCtrlDev (p : Nat) (w : Word) (d : Device) : Device :=
  if (F.TIO_Pn_CTRL.STOP p).of w = 1 then tioStopDev p d
  else if (F.TIO_Pn_CTRL.ARM p).of w = 1 then tioArmDev p d else d

/-- The scheduled pulse with the earliest start, the others after it. -/
def earliest : List (Nat × Nat) → Option ((Nat × Nat) × List (Nat × Nat))
  | [] => none
  | x :: t =>
    match earliest t with
    | none => some (x, [])
    | some (y, r) => if stampBefore y.1 x.1 then some (y, x :: r) else some (x, t)

/-- The LINE pulse of line `c` joins the schedule, and the next qualifying line is looked for. -/
def tioLinePulse (d : Device) (p : Nat) (c : Int) : Device :=
  let a := wrapN 64 ((trigT d c : Int) + tioOffset d p)
  let d1 := tioSchedule d p a (a + tioWidth d p)
  d1.setTio p { d1.tio p with line := tioQualify d p (c + 1) }

/-- The earliest pulse of the schedule takes in the next LINE pulse where that one starts first. -/
def tioFill (d : Device) (p : Nat) : Device :=
  let x := d.tio p
  match x.line with
  | none => d
  | some c =>
    let a := wrapN 64 ((tLine d c : Int) + tioOffset d p)
    if stopsBefore d c ∨ ¬ d.lining then d
    else match earliest x.pulses with
      | none => tioLinePulse d p c
      | some (y, _) => if stampBefore a y.1 then tioLinePulse d p c else d

/-- A scheduled start is reached: the output is active until the later end (R276). -/
def tioPulseStartDev (p : Nat) (d0 : Device) : Device :=
  let d := tioFill d0 p
  let x := d.tio p
  if ¬ tioArmed d p then d0
  else match earliest x.pulses with
    | none => d0
    | some ((a, b), rest) =>
      let d1 := d.elapseTo a
      let e := match x.endAt with | some e => if stampBefore b e then e else b | none => b
      let d2 := tioShow (d1.setTio p { d1.tio p with pulses := rest }) p true (some e)
      if tioMode d p = tioPeriodic then tioPeriodicOn d2 p else d2

/-- The end of the active pulse is reached, unless a scheduled pulse or the next LINE pulse starts by then: the two merge (R276). -/
def tioPulseEndDev (p : Nat) (d : Device) : Device :=
  let x := d.tio p
  let next := earliest ((tioFill d p).tio p).pulses
  match x.endAt with
  | none => d
  | some e =>
    let early := match next with | some ((a, _), _) => ! stampBefore e a | none => false
    if early then d else tioFinished (tioShow (d.elapseTo e) p false none) p

/-- A line event: units in LINE mode schedule the pulse of the line where they have not yet. -/
def tioLines (d : Device) (c : Int) : Device :=
  (List.range 16).foldl (fun d p =>
    if tioArmed d p ∧ tioMode d p = tioLine ∧ (d.tio p).line = some c then tioLinePulse d p c else d) d

/-- The line generator has started: armed units in LINE mode find their first line, 2 µs or more after their ARM (R276); a start that has
passed by then is late (R277). -/
def tioOnLines (d : Device) : Device :=
  (List.range 16).foldl (fun d p =>
    if tioArmed d p ∧ tioMode d p = tioLine then d.setTio p { d.tio p with line := tioLineFrom d p ((d.tio p).armedAt + 2000) } else d) d

/-- An event with stamp `t` on rill `r`: armed units in RILL mode on it schedule a pulse (Table 12.2). -/
def tioOnRill (d : Device) (r t : Nat) : Device :=
  (List.range 16).foldl (fun d p =>
    if tioArmed d p ∧ tioMode d p = tioRill ∧ d.get (F.TIO_Pn_CFG.RILL p) = r then
      let a := t + (tioOffset d p).toNat
      tioSchedule d p a (a + tioWidth d p)
    else d) d

/-- Every output goes to its SAFE level and every output unit disarms (R280). -/
def tioSafe (d : Device) : Device :=
  (List.range 16).foldl (fun d p =>
    if tioMode d p < tioSingle then d
    else let d1 := tioDisarm d p; d1.setTio p { d1.tio p with atSafe := true }) d

/-- An edge at the ball whose new level is first sampled at `t` and holds for `held` samples, FILT + 1 of which accept it (R225, R279); INV
inverts the pin in both directions. While the Actuation region is in reset no edge is taken (Table 22.2). -/
def tioCaptureDev (p : Nat) (rising : Bool) (t held : Nat) (d : Device) : Device :=
  let rise := xor rising (d.bit (F.TIO_Pn_CFG.INV p))
  let x := d.tio p
  if held ≤ d.get (F.TIO_Pn_CFG.FILT p) ∨ d.resetting 5 ∨ tioMode d p ≠ tioCapture ∨ ¬ bitAt (d.get (F.TIO_Pn_CFG.EDGE p)) (if rise then 0 else 1) then d
  else if 16 ≤ x.fifo.length then d.raise (F.TIO_Pn_FLAGS.CAP_OVF p)
  else
    let d1 := (d.setTio p { x with fifo := x.fifo ++ [(t % 2 ^ 64, rise)] }).set (F.TIO_Pn_STATUS.CAP_LEVEL p) (x.fifo.length + 1)
    (d1.set (F.TIO_Pn_FLAGS.CAP p) 1).emit (121 + p) (t % 2 ^ 64)

/-- A read of TIO_Pn_CAP_LO removes the head entry into CAP_LO and CAP_HI (R279); an empty FIFO leaves them. -/
def tioCapReadDev (p : Nat) (d : Device) : Device :=
  let x := d.tio p
  match x.fifo with
  | [] => d
  | (t, rise) :: rest =>
    let d1 := (d.setTio p { x with fifo := rest }).set (F.TIO_Pn_STATUS.CAP_LEVEL p) rest.length
    (d1.wr (R.TIO_Pn_CAP_LO p) (BitVec.ofNat 32 t)).wr (R.TIO_Pn_CAP_HI p)
      (BitVec.ofNat 32 (bitsOf t 62 32 + if rise then 2 ^ 31 else 0))

/-- A write of TIO_Pn_CFG while the unit is not armed: MODE 7 is written as OFF, SAFE is kept once locked and where written 3; a write
in STATIC mode drives LEVEL at once and ends a hold at the SAFE level. -/
def tioCfg (d : Device) (p : Nat) (w : Word) : Device :=
  let m := (F.TIO_Pn_CFG.MODE p).of w
  let safe := (F.TIO_Pn_CFG.SAFE p).of w
  let keep := d.get (F.TIO_Pn_CFG.SAFE p)
  let d1 := d.wr (R.TIO_Pn_CFG p) (w &&& 0x2F7B01FF#32)
  let d2 := (d1.set (F.TIO_Pn_CFG.MODE p) (if m = 7 then 0 else m)).set (F.TIO_Pn_CFG.SAFE p)
    (if d.bit F.TIO_LOCK.LOCK ∨ safe = 3 then keep else safe)
  if m = tioStatic then
    let d3 := d2.setBit (F.TIO_Pn_STATUS.ACTIVE p) (d2.bit (F.TIO_Pn_CFG.LEVEL p))
    if tioForced d then d3 else d3.setTio p { d3.tio p with atSafe := false }
  else d2.setBit (F.TIO_Pn_STATUS.ACTIVE p) false

/-- A write of one of the eight registers CFG, START_LO, START_HI, WIDTH, PERIOD, COUNT, OFFSET and LINE (R278). -/
def tioCfgWriteDev (p k : Nat) (w : Word) (d : Device) : Device :=
  if tioArmed d p then d.raise (F.TIO_Pn_FLAGS.CFG_REJ p)
  else if k = 0 then tioCfg d p w
  else d.wr (R.TIO_Pn_CFG p + 4 * k) (if k = 7 then w &&& 0x0FFF0FFF#32 else w)

def execTioArm (p : Fin 16) (value : Word) (s : State) : Outcome := s.done (regAccess (R.TIO_Pn_CTRL p) true (tioCtrlDev p value) s.dev)
def execTioStop (p : Fin 16) (s : State) : Outcome := s.done (regAccess (R.TIO_Pn_CTRL p) true (tioStopDev p) s.dev)
def execTioPulseStart (p : Fin 16) (s : State) : Outcome := s.done (tioPulseStartDev p s.dev)
def execTioPulseEnd (p : Fin 16) (s : State) : Outcome := s.done (tioPulseEndDev p s.dev)
def execTioCaptureEdge (p : Fin 16) (rising : Bool) (t held : Nat) (s : State) : Outcome := s.done (tioCaptureDev p rising t held s.dev)
def execTioCapRead (p : Fin 16) (s : State) : Outcome := s.done (regAccess (R.TIO_Pn_CAP_LO p) false (tioCapReadDev p) s.dev)
def execTioCfgWrite (p : Fin 16) (reg : Fin 8) (value : Word) (s : State) : Outcome :=
  s.done (regAccess (R.TIO_Pn_CFG p + 4 * reg) true (tioCfgWriteDev p reg value) s.dev)

end Sys2Proof.Machine
end

