-- ==== Sys2Proof/Machine/Events.lean ====
section
/-! DEFINITION. Event rills and logic cells (R383 to R393). One ECLK cycle is `eclk`; events of one cycle reach every consumer in it. -/

namespace Sys2Proof.Machine

def Device.cell (d : Device) (k : Nat) : Cell := unit d.evt.cells k
def Device.setCell (d : Device) (k : Nat) (x : Cell) : Device := { d with evt := { d.evt with cells := withUnit d.evt.cells k x } }

/-- The events of one cycle: rill and stamp, one per rill. -/
abbrev Cycle := List (Nat × Nat)

/-- The stamp of rill `r` in the cycle. -/
def onRill (m : Cycle) (r : Nat) : Option Nat := (m.find? (fun e => e.1 = r)).map Prod.snd

/-- The earlier of two stamps. -/
def earlier (a b : Nat) : Nat := if stampBefore b a then b else a

/-- `n` events absorbed by coalescing (R383). -/
def absorbed (d : Device) (n : Nat) : Device := if n = 0 then d else (d.count F.EVT_COAL.V n).raise F.EVT_FLAGS.COALESCE

/-- The oldest `n` in-flight events of rill `r` cross together, and with them the ones that follow with the same stamp, which come from one
cycle of the producer: they coalesce into one with the earliest stamp, and so do they with an event that the cycle already has on `r`. -/
def takeEvents (d : Device) (r n : Nat) (m : Cycle) : Device × Cycle :=
  let all := d.evt.inflight.filter (fun e => e.rill = r)
  let mine := all.take n ++ (all.drop n).takeWhile (fun e => (all.take n).getLast?.any (fun l => l.stamp = e.stamp))
  match mine with
  | [] => (d, m)
  | e :: t =>
    let st := t.foldl (fun s x => earlier s x.stamp) e.stamp
    let rest := d.evt.inflight.foldl (fun (acc : List RillEvent × Nat) x =>
      if x.rill = r ∧ acc.2 < mine.length then (acc.1, acc.2 + 1) else (acc.1 ++ [x], acc.2)) ([], 0)
    let d1 := absorbed { d with evt := { d.evt with inflight := rest.1 } } (if (onRill m r).isSome then t.length + 1 else t.length)
    (d1, match onRill m r with | some s => m.map (fun e => if e.1 = r then (r, earlier s st) else e) | none => m ++ [(r, st)])

/-- The cell is enabled and not tripped. -/
def cellOn (d : Device) (k : Nat) : Bool :=
  d.bit (F.EVT_Ck_CFG.EN k) && !bitAt (d.rd (if k < 32 then R.EVT_TRIPPED_LO else R.EVT_TRIPPED_HI)).toNat (k % 32)

/-- Selected rill and TOGGLE mode of input `i`. -/
def cellInput (d : Device) (k i : Nat) : Nat × Bool :=
  let w := (d.rd (if i < 2 then R.EVT_Ck_IN01 k else R.EVT_Ck_IN23 k)).toNat
  if i % 2 = 0 then (bitsOf w 8 0, bitAt w 9) else (bitsOf w 24 16, bitAt w 25)

/-- The most recent of the stamps of a cycle, the one before where there is none (R391). -/
def latestStamp (last : Nat) : List Nat → Nat
  | [] => last
  | a :: t => t.foldl (fun s y => if stampBefore s y then y else s) a

/-- A cell that is disabled or has tripped goes on taking the stamps of the events that reach its inputs (R391). -/
def stampCell (m : Cycle) (d : Device) (k : Nat) : Device :=
  let hits := (List.range 4).filterMap (fun i => onRill m (cellInput d k i).1)
  if hits = [] then d else d.setCell k { d.cell k with lastStamp := latestStamp (d.cell k).lastStamp hits }

/-- What a cell does in a cycle: its next state, its output, and its event if it fires one, or a trip. -/
structure CellNext where
  cell : Cell := {}
  out : Bool := false
  fires : Option Nat := none
  trips : Bool := false
deriving DecidableEq, Repr

/-- One cycle of an enabled cell (R389, R391, R392) with the events `m`. -/
def cellCycle (d : Device) (k : Nat) (m : Cycle) : CellNext :=
  let x := d.cell k
  let ins := (List.range 4).map (cellInput d k)
  let hit := ins.map (fun s => onRill m s.1)
  let tog := (List.range 4).map (fun i => xor (x.tog.getD i false) ((ins.getD i (0, false)).2 && (hit.getD i none).isSome))
  let val := (List.range 4).map (fun i =>
    let s := ins.getD i (0x1FF, false)
    if s.1 = 0x1FF then false else if s.2 then tog.getD i false else (hit.getD i none).isSome)
  let idx := ((List.range 4).map (fun i => if val.getD i false then 2 ^ i else 0)).sum
  let f := bitAt (d.get (F.EVT_Ck_CFG.LUT k)) idx
  let filt := d.get (F.EVT_Ck_CFG.FILT k)
  let held := if f = x.passed then 0 else if f = x.cand then x.held + 1 else 1
  let pass : Bool := if filt ≤ held then f else x.passed
  let out := if d.bit (F.EVT_Ck_CFG.FF k) then x.ff else pass
  let last := latestStamp x.lastStamp (hit.filterMap id)
  let rise := out && !d.bit (F.EVT_Ck_CFG.OUT k)
  let rate := d.get (F.EVT_Ck_RATE.RATE_MAX k)
  let trip := rise && rate != 0 && decide (rate < x.fired + 1)
  let y : Cell := { tog := tog, passed := pass, cand := f, held := if pass = f then 0 else held, ff := pass, lastStamp := last,
                    fired := if rise && rate != 0 && !trip then x.fired + 1 else x.fired }
  { cell := y, out := out && !trip, fires := if rise && !trip then some last else none, trips := trip }

/-- Adds a cell's event to the cycle: on a rill that already carries one the two coalesce. -/
def addEvent (m : Cycle) (r st : Nat) : Cycle :=
  match onRill m r with
  | none => m ++ [(r, st)]
  | some s => m.map (fun e => if e.1 = r then (r, earlier s st) else e)

/-- The events of the cycle with those of its cells, cells without a flip-flop in the order of their dependencies (R390): passes over all
cells until nothing changes, so that a stamp too has passed every cell behind it (R391). -/
def settleCells (d : Device) (on : List Nat) (ext : Cycle) : Nat → Cycle → Cycle
  | 0, m => m
  | n + 1, m =>
    let next := on.foldl (fun acc k => match (cellCycle d k m).fires with | some st => addEvent acc (256 + k) st | none => acc) ext
    if next = m then m else settleCells d on ext n next

/-- A cell trips (R392). -/
def tripCell (d : Device) (k : Nat) : Device :=
  let r := if k < 32 then R.EVT_TRIPPED_LO else R.EVT_TRIPPED_HI
  let d1 := d.setCell k { d.cell k with tripAt := some (d.tb.edges, d.evt.cycle) }
  (((d1.wr r (d1.rd r ||| BitVec.ofNat 32 (2 ^ (k % 32)))).setBit (F.EVT_Ck_CFG.OUT k) false).raise F.EVT_FLAGS.TRIP).fault faultCellTrip k

/-- A cell's next state and output are taken over. -/
def commitCell (m : Cycle) (d : Device) (k : Nat) : Device :=
  let n := cellCycle d k m
  let d1 := (d.setCell k n.cell).setBit (F.EVT_Ck_CFG.OUT k) n.out
  if n.trips then tripCell d1 k else d1

/-- The rill interrupts take the events of the cycle (R386, R394); events on more than one of their rills coalesce (R387). -/
def rillInterrupts (d : Device) (m : Cycle) : Device :=
  (List.range 24).foldl (fun d j =>
    let n := (m.filter (fun e => e.1 / 16 == j && bitAt (d.rd (R.EVT_RIj_EN j)).toNat (e.1 % 16))).length
    if n = 0 then d else absorbed (d.wr R.EVT_RI_PEND (d.rd R.EVT_RI_PEND ||| BitVec.ofNat 32 (2 ^ j))) (n - 1)) d

/-- A reference edge from a rill, in the ECLK cycle that comes next (R238, R240); none while the Actuation region is in reset (Table 22.2). -/
def rillEdge (d cfg : Device) (n st : Nat) : Device :=
  if d.resetting 5 then d else beforeCtl (axisCatch d n st) n none (fun d => refEdge d cfg n st none)

/-- An event reaches the consumers that route its rill (Table 18.2). -/
def consume (d : Device) (r st : Nat) : Device :=
  let d1 := tioOnRill d r st
  let cfg := d1.asOfTime st
  let d2 := (List.range 4).foldl (fun d n =>
    if cfg.get (F.TRAn_REF.SRC n) = 3 ∧ cfg.get (F.TRAn_REF.RILL n) = r then rillEdge d cfg n st else d) d1
  dmaOnRill (capOnRill d2 r) r

/-- Software firings join the cycle that follows them; on a rill that the cycle already carries they coalesce (R383, R385). -/
def takeSoft (d : Device) : Device × Cycle :=
  (d.evt.inflight.filter RillEvent.soft).foldl (fun (acc : Device × Cycle) e =>
    match onRill acc.2 e.rill with
    | none => (acc.1, acc.2 ++ [(e.rill, e.stamp)])
    | some s => (absorbed acc.1 1, acc.2.map (fun x => if x.1 = e.rill then (e.rill, earlier s e.stamp) else x)))
    ({ d with evt := { d.evt with inflight := d.evt.inflight.filter (fun e => !e.soft) } }, [])

/-- Cells whose configuration differs from that of `old` start anew without an output event (R393). -/
def evtApply (old new : Device) : Device :=
  (List.range 64).foldl (fun d k =>
    let mask : Word := 0xDFFFFFFF#32
    if old.rd (R.EVT_Ck_CFG k) &&& mask = d.rd (R.EVT_Ck_CFG k) &&& mask ∧ old.rd (R.EVT_Ck_IN01 k) = d.rd (R.EVT_Ck_IN01 k)
      ∧ old.rd (R.EVT_Ck_IN23 k) = d.rd (R.EVT_Ck_IN23 k) then d
    else (d.setCell k { fired := (d.cell k).fired, lastStamp := (d.cell k).lastStamp }).setBit (F.EVT_Ck_CFG.OUT k) false) new

/-- The EVT registers of an applied commit become live in the cycle that takes the line event of the apply line (R393). -/
def fabricSwitch (d : Device) : Device :=
  match d.evt.later with
  | none => d
  | some (t, l) =>
    if d.evt.inflight.any (fun e => e.rill == 118 && e.stamp == t) then d
    else evtApply d { d with regs := overlayRegs l d.regs, evt := { d.evt with later := none } }

/-- One ECLK cycle in which software firings and the given numbers of in-flight events of some rills cross (R383, R385, R389). While the
Control region is in reset the fabric does nothing, and its restart discards what is in flight (Table 22.2). -/
def eclk (d : Device) (events : List (Nat × Nat)) : Device :=
  if d.resetting 1 then d
  else
    let (d0, ext) := events.foldl (fun acc e => takeEvents acc.1 e.1 e.2 acc.2) (takeSoft d)
    let d1 := fabricSwitch d0
    let on := (List.range 64).filter (cellOn d1)
    let off := (List.range 64).filter (fun k => !cellOn d1 k)
    let m := settleCells d1 on ext 66 ext
    let fired := on.filterMap (fun k => if (cellCycle d1 k m).fires.isSome ∧ (onRill ext (256 + k)).isSome then some k else none)
    let d2 := absorbed (on.foldl (commitCell m) (off.foldl (stampCell m) d1)) fired.length
    let d3 := m.foldl (fun d e => consume d e.1 e.2) (rillInterrupts d2 m)
    { d3 with evt := { d3.evt with cycle := d3.evt.cycle + 1 } }

/-- `n` ECLK cycles without an event. -/
def quiet : Nat → Device → Device
  | 0, d => d
  | n + 1, d => quiet n (eclk d [])

/-- RILL_EVENT: `idle` quiet cycles, then a cycle with events. -/
def rillEventDev (idle : Nat) (events : List (Nat × Nat)) (d : Device) : Device := eclk (quiet idle d) events

/-- CELL_FILTER_EXPIRE: the quiet cycles pass after which the LUT value of cell `k` has held for FILT cycles. -/
def cellFilterDev (k : Nat) (d : Device) : Device :=
  let x := d.cell k
  let filt := d.get (F.EVT_Ck_CFG.FILT k)
  if ¬ cellOn d k ∨ x.held = 0 ∨ filt ≤ x.held then d else quiet (filt - x.held) d

/-- CELL_RATE_WINDOW: the count of the window restarts (R392). -/
def cellWindowDev (k : Nat) (d : Device) : Device := d.setCell k { d.cell k with fired := 0 }

/-- A rill is fired by software: the next ECLK cycle takes the event, stamped with the transport time of the write (R385). -/
def softFire (r : Nat) (d : Device) : Device :=
  { d with evt := { d.evt with inflight := d.evt.inflight ++ [{ rill := r, stamp := d.nowNs, soft := true }] } }

/-- A write of EVT_FIRE (R385). -/
def evtFireDev (w : Word) (d : Device) : Device :=
  let r := F.EVT_FIRE.RILL.of w
  if 383 < r then d.raise F.EVT_FLAGS.FIRE_REJ
  else softFire r d

/-- A write of EVT_REARM_LO or _HI (R392): tripped cells of its bits start again with cleared state; one that tripped in the last ECLK cycle
stays tripped while neither that clock nor TCLK has gone on. -/
def evtRearmDev (hi : Bool) (w : Word) (d : Device) : Device :=
  let r := if hi then R.EVT_TRIPPED_HI else R.EVT_TRIPPED_LO
  (List.range 32).foldl (fun d i =>
    let k := if hi then 32 + i else i
    if bitAt w.toNat i ∧ d.bit ⟨r, i, i⟩ ∧ (d.cell k).tripAt ≠ some (d.tb.edges, d.evt.cycle) then (d.setCell k { lastStamp := (d.cell k).lastStamp }).set ⟨r, i, i⟩ 0 else d) d

def execRillEvent (idle : Nat) (events : List (Fin 384 × Nat)) (s : State) : Outcome :=
  s.done (rillEventDev idle (events.map (fun e => (e.1.val, e.2))) s.dev)
def execCellFilterExpire (k : Fin 64) (s : State) : Outcome := s.done (cellFilterDev k s.dev)
def execCellRateWindow (k : Fin 64) (s : State) : Outcome := s.done (cellWindowDev k s.dev)
def execEvtFire (value : Word) (s : State) : Outcome := s.done (regAccess R.EVT_FIRE true (evtFireDev value) s.dev)
def execEvtRearm (hi : Bool) (value : Word) (s : State) : Outcome := s.done (regAccess R.EVT_REARM_LO true (evtRearmDev hi value) s.dev)

end Sys2Proof.Machine
end

