-- ==== Sys2Proof/Machine/Monitor.lean ====
section
/-! DEFINITION. The valve and lamp monitoring chain (11_monitor_chain.md): sources, filters, limits and signatures. -/

namespace Sys2Proof.Machine

def Device.monChan (d : Device) (c : Nat) : MonChan := unit d.mon.chans c
def Device.setMonChan (d : Device) (c : Nat) (x : MonChan) : Device := { d with mon := { d.mon with chans := withUnit d.mon.chans c x } }

/-! ## Configuration of a channel -/

/-- NS, L_k and S_k. -/
def monStages (d : Device) (c : Nat) : Nat := d.get (F.MON_Cc_CFG.NSTAGE_M1 c) + 1
def monLen (d : Device) (c k : Nat) : Nat :=
  1 + d.get (match k with | 0 => F.MON_Cc_STG01.L0_M1 c | 1 => F.MON_Cc_STG01.L1_M1 c | 2 => F.MON_Cc_STG23.L2_M1 c | _ => F.MON_Cc_STG23.L3_M1 c)
def monShift (d : Device) (c k : Nat) : Nat :=
  d.get (match k with | 0 => F.MON_Cc_STG01.S0 c | 1 => F.MON_Cc_STG01.S1 c | 2 => F.MON_Cc_STG23.S2 c | _ => F.MON_Cc_STG23.S3 c)

/-- Σ(L_k − 1) and Π L_k. -/
def monSpan (d : Device) (c : Nat) : Nat := ((List.range (monStages d c)).map (fun k => monLen d c k - 1)).sum
def monBlock (d : Device) (c : Nat) : Nat := (List.range (monStages d c)).foldl (fun p k => p * monLen d c k) 1

/-- How many samples before its newest one an output's time lies: Δ of R251, or the middle of the block (R252). -/
def monDelay (d : Device) (c : Nat) : Nat :=
  if d.bit (F.MON_Cc_CFG.SCS c) then (monBlock d c - 1) / 2 else (monSpan d c + 6 * d.get (F.MON_Cc_DEC.D c)) / 2

/-- The registers whose change restarts a channel (R256). -/
def monKey (d : Device) (c : Nat) : List Nat :=
  [(d.rd (R.MON_Cc_CFG c)).toNat, (d.rd (R.MON_Cc_DEC c)).toNat, (d.rd (R.MON_Cc_STG01 c)).toNat, (d.rd (R.MON_Cc_STG23 c)).toNat]

/-- C[0] to C[3] of response FIR (Table 11.1). -/
def firCoef (fir : Nat) : List Int :=
  match fir with
  | 0 => [32768, 0, 0, 0]
  | 1 => [36864, -2048, 0, 0]
  | 2 => [40960, -4608, 512, 0]
  | 3 => [45056, -7168, 1024, 0]
  | 4 => [49152, -9728, 1536, 0]
  | 5 => [16384, 9728, 0, -1536]
  | 6 => [8192, 6144, 4096, 2048]
  | _ => [53248, -12800, 3072, -512]

/-! ## Service and signatures (R246, R254, R255) -/

/-- A pending signature ends without success. -/
def sigFail (d : Device) (c : Nat) : Device :=
  let x := d.monChan c
  match x.sig with
  | none => d
  | some s =>
    let d1 := (d.setMonChan c { x with sig := none }).setBit (F.MON_Cc_STATUS.ARMED c) false
    let d2 := if s.opening then d1.set (F.MON_Cc_FLAGS.NO_DIP c) 1 else d1.set (F.MON_Cc_FLAGS.NO_BUMP c) 1
    (d2.raise F.MON_FLAGS.SIG_FAIL).count (F.MON_Cc_SIG_FAILS.V c)

/-- A signature ends at the event time `t` with its lead (R255). -/
def sigDone (d : Device) (c : Nat) (s : Signature) (t : Nat) : Device :=
  let d1 := (d.setMonChan c { d.monChan c with sig := none }).setBit (F.MON_Cc_STATUS.ARMED c) false
  let lead := BitVec.ofInt 32 (stampDiff t s.tCmd)
  let d2 := d1.wr (if s.opening then R.MON_Cc_OPEN_LEAD c else R.MON_Cc_CLOSE_LEAD c) lead
  ((d2.set (F.MON_SIG_DONE.DONE.bitN c) 1).raise F.MON_FLAGS.SIG_DONE).count (F.MON_Cc_SIG_OK.V c)

/-- The channel leaves service. -/
def monLeave (d : Device) (c : Nat) : Device := sigFail (d.setBit (F.MON_Cc_STATUS.IN_SERVICE c) false) c

/-- A channel arms a signature with command time `t`; a pending one fails. -/
def sigArm (d : Device) (c : Nat) (opening : Bool) (t : Nat) : Device :=
  let d1 := sigFail d c
  (d1.setMonChan c { d1.monChan c with sig := some { opening := opening, tCmd := t } }).setBit (F.MON_Cc_STATUS.ARMED c) true

/-- Channel `c` is enabled and bound to port `p` in the configuration `d`. -/
def monOnPort (d : Device) (c p : Nat) : Bool :=
  d.bit F.MON_CTRL.EN && d.bit (F.MON_Cc_CFG.EN c) && d.bit (F.MON_Cc_CFG.TYPE c) && d.get (F.MON_Cc_CFG.PORT c) == p

/-- The frame of port `p` with target instant `t` changes the sent bits from `old` to `new` (R254). -/
def monArm (d : Device) (p t : Nat) (old new : Nat → Bool) : Device :=
  let cfg := d.asOfTime t
  (List.range 32).foldl (fun d c =>
    let j := cfg.get (F.MON_Cc_CFG.SRC c)
    if ¬ monOnPort cfg c p then d
    else if ¬ old j ∧ new j ∧ cfg.bit (F.MON_Cc_SIG.OPEN_EN c) then sigArm d c true t
    else if old j ∧ ¬ new j ∧ cfg.bit (F.MON_Cc_SIG.CLOSE_EN c) then sigArm d c false t
    else d) d

/-- One examined output in a signature: the next phase, or the time of the event. -/
def sigStep (s : Signature) (hi hyst y : Int) (t : Nat) : SigPhase ⊕ Nat :=
  match s.opening, s.phase with
  | true, .wait => .inl (if hi ≤ y then .first y t else .wait)
  | true, .first m tm => .inl (if m < y then .first y t else if y ≤ m - hyst then .second y t else .first m tm)
  | true, .second m tm => if y < m then .inl (.second y t) else if m + hyst ≤ y then .inr tm else .inl (.second m tm)
  | false, .wait => .inl (.first y t)
  | false, .first m tm => .inl (if y < m then .first y t else if m + hyst ≤ y then .second y t else .first m tm)
  | false, .second m tm => if m < y then .inl (.second y t) else if y ≤ m - hyst then .inr tm else .inl (.second m tm)

/-- An output enters the pending signature of its channel, under the configuration `cfg` of the sample that produced it (R256). -/
def sigTake (d cfg : Device) (c : Nat) (o : MonOut) : Device :=
  let x := d.monChan c
  match x.sig with
  | none => d
  | some s =>
    if stampDiff o.t s.tCmd < 0 then d
    else if 1000 * (cfg.get (F.MON_Cc_SIG.WIN c) : Int) < stampDiff o.t s.tCmd then sigFail d c
    else if o.gap ∨ ¬ o.settled then sigFail d c
    else if ¬ s.opening ∧ o.y < cfg.getI (F.MON_Cc_THR_LO.V c) then sigFail d c
    else match sigStep s (cfg.getI (F.MON_Cc_THR_HI.V c)) (cfg.getI (F.MON_Cc_HYST.V c)) o.y o.t with
      | .inl ph => d.setMonChan c { x with sig := some { s with phase := ph } }
      | .inr t => sigDone d c s t

/-! ## Filters (R248 to R252) -/

/-- One sample through the moving-average stages from stage `k` on; `h` are the inputs each stage holds. -/
def monAverage (d : Device) (c : Nat) : Nat → List (List Nat) → Nat → Nat × List (List Nat)
  | _, [], a => (a, [])
  | k, h :: t, a =>
    let w := (a :: h).take (monLen d c k)
    let out := capN (2 ^ 32 - 1) (rneShift (w.sum : Nat) (monShift d c k)).toNat
    let (r, rest) := monAverage d c (k + 1) t out
    (r, w :: rest)

/-- Sums of consecutive groups of `n` values, shifted; the list is oldest first (R252). -/
def monDump (n sh : Nat) : Nat → List Nat → List Nat
  | 0, _ => []
  | k + 1, l => if l.length < n then [] else capN (2 ^ 32 - 1) (rneShift ((l.take n).sum : Nat) sh).toNat :: monDump n sh k (l.drop n)

/-- The block of samples, oldest first, through the integrate-and-dump stages. -/
def monBlockOut (d : Device) (c : Nat) (l : List Nat) : Nat :=
  ((List.range (monStages d c)).foldl (fun l k => monDump (monLen d c k) (monShift d c k) l.length l) l).headD 0

/-- y from the decimated samples (R249). -/
def monFir (fir : Nat) (u : List Nat) : Int :=
  let co := firCoef fir
  let acc := (List.range 7).foldl (fun (a : Int) j => a + co.getD (if j < 3 then 3 - j else j - 3) 0 * (u.getD j 0 : Nat)) 0
  clampI (-(2 ^ 31)) (2 ^ 31 - 1) (rneShift acc 15)

/-- The filter of a channel with cleared state, starting at index `n`. -/
def monStart (cfg : Device) (c n : Nat) (x : MonChan) : MonChan :=
  { x with start := n, under := monKey cfg c, stages := List.replicate (monStages cfg c) [], u := [], block := [], lastGap := none }

/-- Time of the sample `k` before sample `n`, the newest one: that of a MON_CLK edge, or of a bit of a slot's word (R245, R246).  The manual
gives none for an index before the chain's enable: a free value. -/
def monTime (d cfg : Device) (c n k : Nat) : Nat × Device :=
  let at' : Option Nat :=
    if n < k then none
    else if cfg.bit (F.MON_Cc_CFG.TYPE c) then
      ((d.mon.slotTimes[cfg.get (F.MON_Cc_CFG.PORT c)]?.getD [])[n / 16 - (n - k) / 16]?).map (fun t => (t + 8 * ((n - k) % 16)) % 2 ^ 64)
    else d.mon.clkTimes[k]?
  match at' with
  | some t => (t, d)
  | none => d.free 64

/-- Sample `n` of channel `c`: its bit, its time, and whether it is a filler. While the Actuation region is in reset none is taken
(Table 22.2). -/
def monSample (d0 : Device) (c n : Nat) (b : Bool) (t : Nat) (filler : Bool) : Device :=
  let cfg := d0.asOfTime t
  if d0.resetting 5 then d0
  else if ¬ cfg.bit F.MON_CTRL.EN ∨ ¬ cfg.bit (F.MON_Cc_CFG.EN c) then
    if d0.bit (F.MON_Cc_STATUS.IN_SERVICE c) then monLeave d0 c else d0
  else if filler ∧ ¬ d0.bit (F.MON_Cc_STATUS.IN_SERVICE c) then d0
  else
    let fresh := !d0.bit (F.MON_Cc_STATUS.IN_SERVICE c) || (d0.monChan c).under != monKey cfg c
    let d := d0.setBit (F.MON_Cc_STATUS.IN_SERVICE c) true
    let x0 := if fresh then monStart cfg c n (d.monChan c) else d.monChan c
    let x := { x0 with lastGap := if filler then some n else x0.lastGap }
    let a := if b then 1 else 0
    if cfg.bit (F.MON_Cc_CFG.SCS c) then
      let bl := monBlock cfg c
      let first := n % bl = c * bl / 32 % bl
      let last := (n + 1) % bl = c * bl / 32 % bl
      let x1 := { x with block := if first then [a] else if x.block = [] then [] else a :: x.block }
      if last ∧ x1.block.length = bl then
        let (tm, d1) := monTime d cfg c n (monDelay cfg c)
        let gap : Bool := match x1.lastGap with | some g => decide (n < g + bl) | none => false
        let y := clampI (-(2 ^ 31)) (2 ^ 31 - 1) (monBlockOut cfg c x1.block.reverse : Nat)
        d1.setMonChan c { x1 with block := [], outs := x1.outs ++ [{ y := y, t := tm, settled := true, gap := gap, made := t }] }
      else d.setMonChan c x1
    else
      let (v, st) := monAverage cfg c 0 x.stages a
      let dec := cfg.get (F.MON_Cc_DEC.D c)
      if n % dec ≠ c * dec / 32 then d.setMonChan c { x with stages := st }
      else
        let x1 := { x with stages := st, u := (v :: x.u).take 7 }
        let span := monSpan cfg c
        let (tm, d1) := monTime d cfg c n (monDelay cfg c)
        let gap : Bool := match x1.lastGap with | some g => decide (n ≤ g + span + 6 * dec) | none => false
        let o : MonOut := { y := monFir (cfg.get (F.MON_Cc_CFG.FIR c)) x1.u, t := tm, settled := decide (x1.start + span + 6 * dec ≤ n), gap := gap, made := t }
        d1.setMonChan c { x1 with outs := x1.outs ++ [o] }

/-! ## Outputs (R253, R256) -/

/-- LO or HI of a settled output under the limits of `cfg` (R253). -/
def monLimit (d cfg : Device) (c : Nat) (o : MonOut) : Device :=
  let lo := decide (o.y < cfg.getI (F.MON_Cc_LIMIT_LO.V c))
  let hi := decide (cfg.getI (F.MON_Cc_LIMIT_HI.V c) < o.y)
  if ¬ o.settled ∨ (¬ lo ∧ ¬ hi) then d
  else
    let d1 := (if lo then d.set (F.MON_Cc_FLAGS.LO c) 1 else d).raise F.MON_FLAGS.LIMIT
    let d2 := if hi then d1.set (F.MON_Cc_FLAGS.HI c) 1 else d1
    let newly := (lo && !d.bit (F.MON_Cc_FLAGS.LO c)) || (hi && !d.bit (F.MON_Cc_FLAGS.HI c))
    if newly then d2.emit (85 + c) d.nowNs else d2

/-- MON_OUTPUT: the channel's next output. -/
def monOutputDev (c : Nat) (d : Device) : Device :=
  let x := d.monChan c
  match x.outs with
  | [] => d
  | o :: rest =>
    let d1 := (d.setMonChan c { x with outs := rest, outTime := o.t }).wr (R.MON_Cc_OUT c) (BitVec.ofInt 32 o.y)
    let d2 := d1.setBit (F.MON_Cc_STATUS.SETTLED c) o.settled
    let d3 := if o.gap then d2.set (F.MON_Cc_FLAGS.GAP c) 1 else d2
    let cfg := d3.asOfTime o.made
    sigTake (monLimit d3 cfg c o) cfg c o

/-- MON_OUT_READ: a read of MON_Cc_OUT captures its time (R256). -/
def monOutReadDev (c : Nat) (d : Device) : Device := d.setPair (R.MON_Cc_TIME_LO c) (R.MON_Cc_TIME_HI c) (d.monChan c).outTime

/-! ## Sources (R245, R246) -/

/-- The spout port whose stream channel `c` has taken since its start, none for a pin channel. -/
def monPortOf (d : Device) (c : Nat) : Option Nat :=
  let w := BitVec.ofNat 32 ((d.monChan c).under.headD 0)
  if (F.MON_Cc_CFG.TYPE c).of w = 1 then some ((F.MON_Cc_CFG.PORT c).of w) else none

/-- MON_CLK_EDGE: a rising edge at time `t` samples the 16 pins. -/
def monClkDev (pins : Half) (t : Nat) (d : Device) : Device :=
  let cfg := d.asOfTime t
  if ¬ cfg.bit F.MON_CTRL.EN then
    (List.range 32).foldl (fun d c =>
      if d.bit (F.MON_Cc_STATUS.IN_SERVICE c) ∧ (monPortOf d c).isNone then monLeave d c else d) d
  else
    let n := d.mon.clk
    let gap := (stampDiff t d.mon.lastClk).toNat
    let d1 := { d with mon := { d.mon with clk := n + 1, lastClk := t, clkTimes := (t :: d.mon.clkTimes).take 524288 } }
    let d2 := if n = 0 ∨ gap = 0 then d1 else d1.set F.MON_CLK_KHZ.FREQ (capN 0xFFFF (rneDiv 1000000 gap).toNat)
    (List.range 32).foldl (fun d c =>
      if cfg.bit (F.MON_Cc_CFG.TYPE c) ∧ cfg.bit (F.MON_Cc_CFG.EN c) then d
      else if ¬ cfg.bit (F.MON_Cc_CFG.EN c) ∧ (monPortOf d c).isSome then d
      else monSample d c n (bitAt pins.toNat (cfg.get (F.MON_Cc_CFG.SRC c))) t false) d2

/-- MON_CLK_LOST: 10 µs without an edge. -/
def monClkLostDev (d : Device) : Device :=
  if ¬ (d.asOfTime d.nowNs).bit F.MON_CTRL.EN then d
  else (List.range 32).foldl (fun d c =>
    if (monPortOf d c).isNone ∧ d.bit (F.MON_Cc_STATUS.IN_SERVICE c) then monLeave d c else d)
    (d.raise F.MON_FLAGS.CLK_LOST)

/-- Sample `b` of slot `s` of port `p` into channel `c`, under the configuration of the sample's time: a bit of the frame's word, a filler
without a frame; a frame of another group takes the channel out of service (R246, R256). -/
def monBit (frame : Option (Nat × List Nat)) (p c s base : Nat) (d : Device) (b : Nat) : Device :=
  let t := (base + 8 * b) % 2 ^ 64
  let cfg := d.asOfTime t
  let j := cfg.get (F.MON_Cc_CFG.SRC c)
  let inS := d.bit (F.MON_Cc_STATUS.IN_SERVICE c)
  if monOnPort cfg c p then
    match frame with
    | none => monSample d c (16 * s + b) (bitAt 0x5555 b) t true
    | some (g, ws) =>
      if g = j / 8 then monSample d c (16 * s + b) (bitAt (ws.getD (j % 8) 0) b) t false
      else if inS ∧ monPortOf d c = some p then monLeave d c else d
  else if inS ∧ monPortOf d c = some p ∧ ¬ (cfg.bit F.MON_CTRL.EN ∧ cfg.bit (F.MON_Cc_CFG.EN c)) then monLeave d c else d

/-- A slot of port `p` at time `t`: a valid frame with its coil group and words, or none (R246). -/
def monSlot (d : Device) (p t : Nat) (frame : Option (Nat × List Nat)) : Device :=
  let base := wrapN 64 ((t : Int) - d.get (F.SPn_DELAY.DELAY p) - 128)
  let on := (d.asOfTime ((base + 120) % 2 ^ 64)).bit F.MON_CTRL.EN
  let s := d.mon.slots[p]?.getD 0
  let silent := if frame.isSome then 0 else d.mon.silent[p]?.getD 0 + 1
  let m := { d.mon with
    slots := withUnit d.mon.slots p (s + 1), silent := withUnit d.mon.silent p silent,
    slotTimes := withUnit d.mon.slotTimes p ((base :: d.mon.slotTimes[p]?.getD []).take 32769) }
  let d0 := if on then { d with mon := m } else d
  let d1 := { d0 with mon := { d0.mon with lastSlot := withUnit d0.mon.lastSlot p t } }
  let taken (d : Device) (c : Nat) : Bool := d.bit (F.MON_Cc_STATUS.IN_SERVICE c) && monPortOf d c == some p
  let d2 := if on ∧ frame.isNone ∧ (List.range 32).any (taken d) then d1.raise F.MON_FLAGS.GAP else d1
  (List.range 32).foldl (fun d c =>
    let d1 := (List.range 16).foldl (monBit frame p c s base) d
    if on ∧ 1024 ≤ silent ∧ frame.isNone ∧ taken d1 c then monLeave d1 c else d1) d2

/-- MON_SLOT_GAP: 128 ns after the last slot of the port without a return frame. -/
def monSlotGapDev (p : Nat) (d : Device) : Device := monSlot d p ((d.mon.lastSlot[p]?.getD 0 + 128) % 2 ^ 64) none

/-- The chain at an apply: indices start at 0 where it is enabled. A channel that is disabled, or that the apply restarts, meets it at the
first sample at or after TS of the apply line (R256). -/
def monApply (old new : Device) : Device :=
  if new.bit F.MON_CTRL.EN ∧ ¬ old.bit F.MON_CTRL.EN then
    { new with mon := { new.mon with clk := 0, slots := Vector.replicate 4 0, silent := Vector.replicate 4 0, clkTimes := [],
                                     slotTimes := Vector.replicate 4 [] } }
  else new

/-- Every channel restarts (Table 22.3, Actuation). -/
def monRestart (d : Device) : Device :=
  (List.range 32).foldl (fun d c => if d.bit (F.MON_Cc_STATUS.IN_SERVICE c) then monLeave d c else d) d

def execMonOutput (c : Fin 32) (s : State) : Outcome := s.done (monOutputDev c s.dev)
def execMonSlotGap (p : Fin 4) (s : State) : Outcome := s.done (monSlotGapDev p s.dev)
def execMonClkLost (s : State) : Outcome := s.done (monClkLostDev s.dev)
def execMonOutRead (c : Fin 32) (s : State) : Outcome := s.done (regAccess (R.MON_Cc_OUT c) false (monOutReadDev c) s.dev)
def execMonClkEdge (pins : Half) (t : Nat) (s : State) : Outcome := s.done (monClkDev pins t s.dev)

end Sys2Proof.Machine
end

