-- ==== Sys2Proof/Machine/Spout.lean ====
section
/-! DEFINITION. The spout ports (R215 to R223): states, frames, valve safety limits and return frames. -/

namespace Sys2Proof.Machine

def Device.spout (d : Device) (p : Nat) : Spout := unit d.ej.spouts p
def Device.setSpout (d : Device) (p : Nat) (x : Spout) : Device := { d with ej := { d.ej with spouts := withUnit d.ej.spouts p x } }

/-- States of SPn_STATUS.STATE (Table 9.4). -/
def spOff : Nat := 0
def spRun : Nat := 1
def spHold : Nat := 2
def spSafe : Nat := 3

def Device.spState (d : Device) (p : Nat) : Nat := d.get (F.SPn_STATUS.STATE p)

/-! ## Claims (R217, R432) -/

/-- Role priority of the pair state (Table 21.1). -/
def rolePri (d : Device) : Nat :=
  match d.get F.PAIR_STATUS.STATE with
  | 0 => 0xA
  | 2 => 2
  | 3 => if d.bit F.PAIR_CFG.HOME then 0xA else 6
  | _ => 0

/-- CLAIM of the unit's frames: 0 in JOIN and FAILED. -/
def claimOf (d : Device) : Nat := let p := rolePri d; if p = 0 then 0 else p * 4096 + d.get F.PAIR_STATUS.EPOCH

/-- CLAIM of a frame for the instant `tf`: a named revert line V that is triggered by then has already changed it (R433, R436). -/
def claimAt (d : Device) (tf : Nat) : Nat :=
  let st := d.get F.PAIR_STATUS.STATE
  let next := (d.get F.PAIR_STATUS.EPOCH + 1) % 4096
  match d.pr.revert with
  | none => claimOf d
  | some v =>
    if ¬ d.lining ∨ stampBefore tf (tLine d v) then claimOf d
    else if d.bit F.PAIR_CFG.HOME ∧ st = 2 then 0xA000 + next
    else if ¬ d.bit F.PAIR_CFG.HOME ∧ st = 3 then 0x2000 + next
    else claimOf d

/-- SPn_CLAIM follows the port's state and the pair state. -/
def showClaim (d : Device) (p : Nat) : Device :=
  let run := d.spState p = spRun
  (d.set (F.SPn_CLAIM.CLAIM p) (if run then claimOf d else 0)).setBit (F.SPn_CLAIM.RENEW p) run

/-- The port enters a state. -/
def setSpState (d : Device) (p st : Nat) : Device := showClaim (d.set (F.SPn_STATUS.STATE p) st) p

/-! ## Limits (R222, Table 9.6) -/

/-- What one frame counts. -/
structure LimitCounts where
  minoff : Nat := 0
  maxon : Nat := 0
  duty : Nat := 0
  maxopen : Nat := 0
deriving DecidableEq, Repr

/-- Millisecond `m` is `ms` or one of the 1,000 before it; milliseconds count on across the wrap of the 64-bit stamp (R24). -/
def inWindow (ms m : Nat) : Bool := let q := (2 ^ 64 - 1) / 1000000 + 1; decide ((ms + q - m % q) % q ≤ 1000)

/-- Output-1 frames of a channel in millisecond `ms` and the 1,000 before it. -/
def dutySum (x : SpoutChan) (ms : Nat) : Nat := ((x.duty.filter (fun e => inWindow ms e.1)).map Prod.snd).sum

/-- MINOFF, MAXON and DUTY for one channel with requested bit `req` at target instant `tf`: its state, its bit, and what counts. -/
def limitChan (minoff maxon duty tf : Nat) (req : Bool) (x : SpoutChan) (n : LimitCounts) : SpoutChan × Bool × LimitCounts :=
  let ms := tf / 1000000
  let hold : Bool := req && !x.out && (match x.offAt with | some t => stampBefore tf (t + 1000 * minoff) | none => false)
  let n1 := if hold then { n with minoff := n.minoff + 1 } else n
  let b1 := req && !hold
  let held := x.held && req
  let trip := b1 && !x.held && x.out && !stampBefore tf (x.onAt + 1000 * maxon)
  let n2 := if trip then { n1 with maxon := n1.maxon + 1 } else n1
  let b2 := b1 && !held && !trip
  let cut := b2 && (decide (duty * 7812500 / 256 ≤ dutySum x ms) || x.cutMs == some ms)
  let n3 := if cut ∧ x.cutMs ≠ some ms then { n2 with duty := n2.duty + 1 } else n2
  ({ x with held := held || trip, cutMs := if cut then some ms else x.cutMs }, b2 && !cut, n3)

/-- MAXOPEN: the channels that stay open, those open in the previous frame first, each in ascending order. -/
def keepOpen (limit : Nat) (prev : Nat → Bool) (bits : List Nat) : List Nat :=
  (bits.filter prev ++ bits.filter (fun c => !prev c)).take limit

/-- A channel's output after the frame with target instant `tf`. -/
def settleChan (tf : Nat) (b : Bool) (x : SpoutChan) : SpoutChan :=
  let ms := tf / 1000000
  let kept := x.duty.filter (fun e => inWindow ms e.1)
  let add := match kept with
    | (m, k) :: t => if m = ms then (m, k + 1) :: t else (ms, 1) :: kept
    | [] => [(ms, 1)]
  { x with
    out := b, onAt := if b ∧ ¬ x.out then tf else x.onAt, offAt := if x.out ∧ ¬ b then some tf else x.offAt,
    duty := if b then add else kept }

/-- A channel of the port `p` has a pending window that holds the stamp `s` (R215). -/
def requested (d : Device) (p s j : Nat) : Bool :=
  d.ej.windows.any (fun w => w.chan == 128 * p + j && decide (stampDiff w.opn s ≤ 0) && decide (stampDiff s w.cls < 0))

/-- The bits of a port's frame at target instant `tf` (device time) and stamp `s`, the channels' states, and what counts. -/
def formBitmap (d : Device) (p tf s : Nat) : List Nat × List SpoutChan × LimitCounts :=
  let x := d.spout p
  let each := (List.range 128).foldl (fun (acc : List Nat × List SpoutChan × LimitCounts) j =>
    let (c, b, n) := limitChan (d.get (F.SPn_LIMIT_MINOFF.MINOFF p)) (d.get (F.SPn_LIMIT_MAXON.MAXON p)) (d.get (F.SPn_LIMIT_DUTY.DUTY p)) tf
      (requested d p s j) (unit x.chans j) acc.2.2
    (if b then acc.1 ++ [j] else acc.1, acc.2.1 ++ [c], n)) ([], [], {})
  let open_ := keepOpen (d.get (F.SPn_LIMIT_MAXOPEN.MAXOPEN p)) (fun j => (unit x.chans j).out) each.1
  (open_, each.2.1, { each.2.2 with maxopen := each.1.length - open_.length })

/-- The counters and flags of Table 9.6. -/
def countLimits (d : Device) (p : Nat) (n : LimitCounts) : Device :=
  let d1 := (d.count (F.SPn_MINOFF_HOLDS.COUNT p) n.minoff).raiseIf (0 < n.minoff) (F.SPn_FLAGS.MINOFF p)
  let d2 := (d1.count (F.SPn_MAXON_TRIPS.COUNT p) n.maxon).raiseIf (0 < n.maxon) (F.SPn_FLAGS.MAXON p)
  let d3 := (d2.count (F.SPn_DUTY_CUTS.COUNT p) n.duty).raiseIf (0 < n.duty) (F.SPn_FLAGS.DUTY p)
  (d3.count (F.SPn_MAXOPEN_CUTS.COUNT p) n.maxopen).raiseIf (0 < n.maxopen) (F.SPn_FLAGS.MAXOPEN p)

/-- Channel states of a port as a vector. -/
def chansOf (l : List SpoutChan) (old : Vector SpoutChan 128) : Vector SpoutChan 128 :=
  (l.zip (List.range 128)).foldl (fun v (x, j) => withUnit v j x) old

/-! ## Frames (R215, R216, Table 9.3) -/

/-- The 16 bytes of a bitmap. -/
def bitmapBytes (bits : List Nat) : List Byte :=
  leBytes 16 (bits.foldl (fun a j => a + 2 ^ j) 0)

/-- Symbols 1 to 22 of a frame, then its CRC, which covers SEQ and symbols 1 to 22. -/
def frameBytes (cfg : Device) (p claim seq : Nat) (bits : List Nat) : List Byte :=
  let route := 128 * cfg.get (F.SPn_CFG.ROW p) + 8 * cfg.get (F.SPn_COIL_SEL.GROUP p) + cfg.get (F.SPn_CFG.SEGMENT p)
  let body := leBytes 2 claim ++ leBytes 1 (cfg.get (F.SPn_CFG.LEASE p)) ++ leBytes 2 seq ++ leBytes 1 route ++ bitmapBytes bits
  body ++ leBytes 4 (crc32c (leBytes 2 seq ++ body))

/-- The windows of port `p` that stamp `s` has passed are freed. -/
def freeWindows (d : Device) (p s : Nat) : Device :=
  let left := d.ej.windows.filter (fun w => !(w.chan / 128 == p && decide (0 ≤ stampDiff s w.cls)))
  if left.length = d.ej.windows.length then d else d.setWindows left

/-- Transmit lane of a spout port. -/
def spTxLane (p : Nat) : Lane := .spTx (Fin.ofNat 4 p)

/-- The 40 symbols of a frame slot: K27.7 and the bytes of a frame, filled with K28.5; K28.5 alone where there is no frame (Table 9.3). -/
def slotSyms (bs : List Byte) : List (Nat × Bool) :=
  let f := if bs.isEmpty then [] else (0xFB, true) :: bs.map (fun b => (b.toNat, false))
  f ++ List.replicate (40 - f.length) (0xBC, true)

/-- A frame with target instant `tf` goes out: SEQ, counter and the symbols; its bits against those of the frame sent before it arm the
signatures (R254). -/
def frameOut (d cfg : Device) (p claim tf : Nat) (bits : List Nat) : Device :=
  let d0 := monArm d p tf (fun j => (d.spout p).lastBits.contains j) (fun j => bits.contains j)
  let x := d0.spout p
  let bs := frameBytes cfg p claim x.seq bits
  let fr : Nat × Nat := (x.seq, (d.nowNs + 128) % 2 ^ 64)
  let d1 := (d0.setSpout p { x with seq := (x.seq + 1) % 2 ^ 16, sent := bs, lastBits := bits, sentAt := (fr :: x.sentAt).take 256 }).count (F.SPn_FRAMES_TX.COUNT p)
  lnSend d1 (spTxLane p) (slotSyms bs)

/-- A change of state that waits for the next frame takes effect (R434, Table 22.3). -/
def frameEntry (d : Device) (p : Nat) : Device :=
  match (d.spout p).next with
  | none => d
  | some st =>
    let d1 := d.setSpout p { d.spout p with next := none }
    if d.spState p = spOff then d1 else setSpState d1 p st

/-- The configuration and target instant of a frame that leaves now: the new values count from the frame whose t_f is at or after TS(A)
(R223). -/
def frameConfig (d : Device) (p : Nat) : Device × Nat :=
  let t := (d.nowNs + d.get (F.SPn_LEAD.LINK_LEAD p)) % 2 ^ 64
  let cfg := d.asOfStamp (transportAt d t) t
  (cfg, (d.nowNs + cfg.get (F.SPn_LEAD.LINK_LEAD p)) % 2 ^ 64)

/-- SPOUT_FRAME_SEND: the frame slot of port `p`. In RUN the bitmap is formed, limited and sent; in SAFE an empty frame without a claim goes
out; a snoop mismatch puts K28.5 in the place of either (R382); in HOLD only K28.5. A transmit lane that is not active, or sends PRBS,
carries no frame (R50, R52). -/
def spoutFrameDev (p : Nat) (snoopOk : Bool) (d0 : Device) : Device :=
  let d := showClaim (frameEntry d0 p) p
  let st := d.spState p
  if st = spOff then d
  else
    let (cfg, tf) := frameConfig d p
    let s := transportAt d tf
    let d1 := freeWindows d p s
    let x := d1.spout p
    let silent (d : Device) : Device := lnSend d (spTxLane p) (slotSyms [])
    let sends := lnSends d1 (spTxLane p)
    let bad (d : Device) : Device := silent (snoopMismatch d (12 + p) faultSnoopSp p)
    if st ≠ spRun ∨ ¬ sends then
      let quiet := x.chans.map (fun c => settleChan tf false c)
      let d2 := d1.setSpout p { x with chans := quiet, sent := [] }
      if st ≠ spSafe ∨ ¬ sends then silent d2 else if snoopOk then frameOut d2 cfg p 0 tf [] else bad d2
    else
      let claim := claimAt d1 tf
      let (bits, cs, n) := formBitmap d1 p tf s
      let sent := if claim = 0 then [] else bits
      let cs1 := (cs.zip (List.range 128)).map (fun (c, j) => settleChan tf (sent.contains j) c)
      let d2 := countLimits (d1.setSpout p { x with chans := chansOf cs1 x.chans, sent := [] }) p n
      if snoopOk then frameOut d2 cfg p claim tf sent else bad d2

/-! ## Return frames (R218, R219, Table 9.5) -/

/-- The fault bits of page `g` from byte `f`. -/
def setCoilFault (d : Device) (p g f : Nat) : Device :=
  let a := R.SPn_COIL_FAULTk p (g / 4)
  let w := (d.rd a).toNat
  let lo := 8 * (g % 4)
  let old := bitsOf w (lo + 7) lo
  (d.wr a (BitVec.ofNat 32 (w - old * 2 ^ lo + f * 2 ^ lo))).raiseIf (f &&& (255 - old) ≠ 0) (F.SPn_FLAGS.COIL_FAULT p)

/-- The one-way delay that a return frame of ACK_SEQ and TURN shows at its first symbol's arrival `t`. -/
def returnDelay (x : Spout) (ack turn t : Nat) : Option Nat :=
  (x.sentAt.find? (fun e => e.1 = ack)).map (fun e => (clampI 0 0xFFFF (rneDiv (stampDiff t e.2 - 4 * turn) 2)).toNat)

/-- A valid return frame: symbols 1 to 24 and the arrival of its first symbol. -/
def returnValid (d : Device) (p t : Nat) (b : List Byte) : Device :=
  let d1 := (d.count (F.SPn_RET_OK.COUNT p)).setBit (F.SPn_STATUS.RET_OK p) true
  let apply := leAt b 4 1
  let turn := leAt b 3 1
  let d2 := d1.wr (R.SPn_RETURN p) (BitVec.ofNat 32 (leAt b 5 1 * 2 ^ 24 + apply * 2 ^ 16 + turn * 2 ^ 8 + leAt b 0 1))
  let d3 := setCoilFault d2 p (leAt b 6 1 / 16) (leAt b 7 1)
  let d4 := match returnDelay (d.spout p) (leAt b 1 2) turn t with
    | none => d3.count (F.SPn_SEQ_ERR.COUNT p)
    | some dl => (d3.set (F.SPn_DELAY.DELAY p) dl).raiseIf (decide (d.get (F.SPn_LEAD.LINK_LEAD p) < dl + 4 * apply)) (F.SPn_FLAGS.LEAD_SHORT p)
  monSlot d4 p t (some (leAt b 6 1 % 16, (List.range 8).map (fun k => leAt b (8 + 2 * k) 2)))

/-- Receive lane of a spout port. -/
def spRxLane (p : Nat) : Lane := .spRx (Fin.ofNat 4 p)

/-- RETURN_FRAME_RECEIVE: symbols 1 to 28 of a return frame whose first symbol arrived at `t`, where the receive lane passes symbols (R41,
R52). -/
def returnFrameDev (p : Nat) (framed : Bool) (bytes : List Byte) (t : Nat) (d : Device) : Device :=
  if d.spState p = spOff ∨ ¬ lnReceives d (spRxLane p) then d
  else if framed ∧ bytes.length = 28 ∧ crcOk bytes then returnValid d p t bytes
  else monSlot (d.count (F.SPn_RET_CRC_ERR.COUNT p)) p t none

/-- RET_LOST: 1,024 frame times without a valid return. -/
def retLostDev (p : Nat) (d : Device) : Device :=
  if d.spState p = spOff then d else (d.setBit (F.SPn_STATUS.RET_OK p) false).raise (F.SPn_FLAGS.RET_LOST p)

/-! ## Limit registers (R221) -/

/-- The field of limit register `which`: MAXON, MINOFF, DUTY, MAXOPEN; and its range. -/
def limitField (p which : Nat) : Fld × Nat × Nat :=
  match which with
  | 0 => (F.SPn_LIMIT_MAXON.MAXON p, 1, 100000)
  | 1 => (F.SPn_LIMIT_MINOFF.MINOFF p, 200, 10000)
  | 2 => (F.SPn_LIMIT_DUTY.DUTY p, 1, 256)
  | _ => (F.SPn_LIMIT_MAXOPEN.MAXOPEN p, 1, 128)

/-- LIMIT_WRITE: a value out of range is ignored and sets LIMIT_REJ; a locked limit is read-only, and a write to it is ignored (R221,
R10). -/
def limitWriteDev (p which : Nat) (value : Word) (d : Device) : Device :=
  let (f, lo, hi) := limitField p which
  let v := f.of value
  if v < lo ∨ hi < v then d.raise (F.SPn_FLAGS.LIMIT_REJ p) else if d.bit (F.SPn_LOCK.LOCK p) then d else d.set f v

/-! ## Apply (Table 9.4, R221) -/

/-- The lanes of a spout port. -/
def spoutLanes (p : Nat) : List Lane := [.spRx (Fin.ofNat 4 p), .spTx (Fin.ofNat 4 p)]

/-- The port is enabled: its lanes go ACTIVE and it is in RUN, or in SAFE while the Actuation region or the chip is held (Table 22.3). -/
def spoutStart (d0 : Device) (p : Nat) : Device :=
  let d := (spoutLanes p).foldl lnPowerUp d0
  if d.safe ∨ d.resetting 5 then setSpState (d.setSpout p { d.spout p with awaiting := true, fromCycle := none, next := none }) p spSafe
  else setSpState d p spRun

/-- The port is disabled: its lanes go OFF and the windows of its channels are discarded. -/
def spoutStop (d : Device) (p : Nat) : Device :=
  let x := d.spout p
  let shut (c : SpoutChan) : SpoutChan := settleChan ((d.nowNs + d.get (F.SPn_LEAD.LINK_LEAD p)) % 2 ^ 64) false { c with held := false }
  let d1 := d.setSpout p { x with chans := x.chans.map shut, sent := [], next := none, awaiting := false }
  setSpState (dropPort ((spoutLanes p).foldl (fun d l => lnPowerDown d l false) d1) p) p spOff

/-- The spout ports at an apply: enables, disables, and the lock of the limits at the first one (R221). -/
def spoutApply (new : Device) : Device :=
  (List.range 4).foldl (fun d p =>
    let d1 := d.setBit (F.SPn_LOCK.LOCK p) true
    if spoutOn d1 p ∧ d1.spState p = spOff then spoutStart d1 p
    else if ¬ spoutOn d1 p ∧ d1.spState p ≠ spOff then spoutStop d1 p
    else d1) new

/-- Every port in RUN or HOLD enters SAFE, and the window pool is emptied (Tables 9.4, 22.4). -/
def spoutsSafe (d : Device) : Device :=
  (List.range 4).foldl (fun d p =>
    if d.spState p = spOff then d
    else setSpState (d.setSpout p { d.spout p with next := none, awaiting := false, fromCycle := none }) p spSafe) (d.setWindows [])

/-- Ports that left a reset or the safe state wait in SAFE for a cycle that begins from now on and commits (Table 22.3). -/
def spoutsAwait (d : Device) : Device :=
  (List.range 4).foldl (fun d p =>
    if d.spState p = spSafe then d.setSpout p { d.spout p with awaiting := true, fromCycle := none } else d) d

/-- The logic state of the limits is cleared by a reset of the region (Table 22.3). -/
def spoutsClear (d : Device) : Device :=
  (List.range 4).foldl (fun d p => d.setSpout p { d.spout p with chans := Vector.replicate 128 {} }) d

/-- A sort cycle of index `c` starts: ports that wait learn the first cycle that may bring them back. -/
def spoutCycle (d : Device) (c : Nat) : Device :=
  (List.range 4).foldl (fun d p =>
    let x := d.spout p
    if x.awaiting ∧ x.fromCycle.isNone then d.setSpout p { x with fromCycle := some c } else d) d

/-- Cycle `c` has committed; `inTime` says it met its limit: HOLD ends, and so does the wait in SAFE (R434, Table 22.3). -/
def spoutCommit (d : Device) (c : Nat) (inTime : Bool) : Device :=
  (List.range 4).foldl (fun d p =>
    let x := d.spout p
    let began : Bool := match x.fromCycle with | some k => x.awaiting && !lineBefore c k | none => false
    if d.spState p = spHold ∧ inTime then d.setSpout p { x with next := some spRun }
    else if d.spState p = spSafe ∧ began ∧ ¬ d.safe ∧ ¬ d.resetting 5 then
      d.setSpout p { x with next := some spRun, awaiting := false, fromCycle := none }
    else d) d

/-- A cycle missed its commit limit: every enabled port enters HOLD at its next frame (R434). -/
def spoutHold (d : Device) : Device :=
  (List.range 4).foldl (fun d p => if d.spState p = spRun then d.setSpout p { d.spout p with next := some spHold } else d) d

def execSpoutFrameSend (p : Fin 4) (snoopOk : Bool) (s : State) : Outcome := s.done (spoutFrameDev p snoopOk s.dev)
def execReturnFrameReceive (p : Fin 4) (framed : Bool) (bytes : List Byte) (t : Nat) (s : State) : Outcome := s.done (returnFrameDev p framed bytes t s.dev)
def execRetLost (p : Fin 4) (s : State) : Outcome := s.done (retLostDev p s.dev)
def execLimitWrite (p : Fin 4) (which : Fin 4) (value : Word) (s : State) : Outcome :=
  s.done (regAccess (0x50100040 + 0x10000 * p + 4 * which) true (limitWriteDev p which value) s.dev)

end Sys2Proof.Machine
end

