-- ==== Sys2Proof/Machine/Peer.lean ====
section
/-! DEFINITION. The peer ports (R444 to R449, Table 21.6): bring-up, training of the far transmitter, reliable delivery, the order of
sending, HELLO and TIME. -/

namespace Sys2Proof.Machine

/-- States of PEERn_STATUS.STATE. -/
def plDisabled : Nat := 0
def plLaneWake : Nat := 1
def plTrain : Nat := 2
def plDeskew : Nat := 3
def plHello : Nat := 4
def plUp : Nat := 5

def Device.peerState (d : Device) (n : Nat) : Nat := d.get (F.PEERn_STATUS.STATE n)

/-- Peer port `n` is the private link of the pair (R430). -/
def isPrivate (d : Device) (n : Nat) : Bool := d.bit F.PAIR_CFG.EN && d.get F.PAIR_CFG.PORT == n

/-- Receive and transmit lane `k` of a port. -/
def peerRxLane (n k : Nat) : Lane := .peerRx (Fin.ofNat 3 n) (Fin.ofNat 2 k)
def peerTxLane (n k : Nat) : Lane := .peerTx (Fin.ofNat 3 n) (Fin.ofNat 2 k)

/-- The four lanes of a port. -/
def peerLanes (n : Nat) : List Lane := [peerRxLane n 0, peerRxLane n 1, peerTxLane n 0, peerTxLane n 1]

/-- Both receive lanes are in SYNC. -/
def peerSync (d : Device) (n : Nat) : Bool := d.lnState (peerRxLane n 0) == lnSync && d.lnState (peerRxLane n 1) == lnSync

/-- Both receive lanes pass symbols to the port (R41, R52). -/
def peerHears (d : Device) (n : Nat) : Bool := lnReceives d (peerRxLane n 0) && lnReceives d (peerRxLane n 1)

/-- The port enters a state; the private link's UP shows in PAIR_STATUS. -/
def peerEnter (d : Device) (n st : Nat) : Device :=
  let d1 := d.set (F.PEERn_STATUS.STATE n) st
  let d2 := d1.setPeer n { d1.peer n with deskewOk := 0, deskewBad := 0, greeted := false }
  if isPrivate d n then d2.setBit F.PAIR_STATUS.PEER_UP (st = plUp) else d2

/-! ## HELLO (R448) -/

/-- What this device says in HELLO. -/
def helloBody (d : Device) : HelloBody :=
  { chipId := (d.rd R.CHIP_ID).toNat, level := d.get F.CHIP_LEVEL.LEVEL, buildId := d.get F.CHIP_BUILD_ID.BUILD_ID,
    pairCfg := d.rd R.PAIR_CFG, pairChain := d.rd R.PAIR_CHAIN, gridBase := d.get F.PAIR_GRID_BASE.V,
    ownLo := d.get F.PAIR_OWN_LO.OWN_LO, ownHi := d.get F.PAIR_OWN_HI.OWN_HI }

/-- The HELLO is accepted: on the private link equal level and BUILD_ID, both paired, opposite INPUT and exactly one HOME; on other
links chain settings that agree: both or neither in a chain, and then different IDs, owned ranges that do not overlap, at most one
ROOT and one MASTER. -/
def helloOk (d : Device) (n : Nat) (h : HelloBody) : Bool :=
  if isPrivate d n then
    h.level == d.get F.CHIP_LEVEL.LEVEL && h.buildId == d.get F.CHIP_BUILD_ID.BUILD_ID && F.PAIR_CFG.EN.of h.pairCfg == 1
      && F.PAIR_CFG.INPUT.of h.pairCfg != d.get F.PAIR_CFG.INPUT && F.PAIR_CFG.HOME.of h.pairCfg != d.get F.PAIR_CFG.HOME
  else
    let both (f : Fld) : Bool := f.of h.pairChain == 1 && d.bit f
    F.PAIR_CHAIN.EN.of h.pairChain == d.get F.PAIR_CHAIN.EN
      && (!d.bit F.PAIR_CHAIN.EN ||
        (F.PAIR_CHAIN.ID.of h.pairChain != d.get F.PAIR_CHAIN.ID && !both F.PAIR_CHAIN.ROOT && !both F.PAIR_CHAIN.MASTER
          && (decide (h.ownHi ≤ d.get F.PAIR_OWN_LO.OWN_LO) || decide (d.get F.PAIR_OWN_HI.OWN_HI ≤ h.ownLo))))

/-- A HELLO becomes ready. -/
def sendHello (d : Device) (n : Nat) : Device := queueFrame d n { body := .hello (helloBody d), src := deviceId d }

/-! ## Link loss (R445, R447) -/

/-- WINDOW frames that a link takes down with it count as dropped (R451). -/
def dropReady (d : Device) (n : Nat) : Device :=
  let w := ((d.peer n).ready.filter (fun f => match f.body with | .window _ => true | _ => false)).length
  d.count F.CHAIN_FWD_DROP.V w

/-- What a port keeps when its link goes: the SEQ of its frames and the count of its columns. -/
def freshPeer (x : Peer) : Peer := { seqTx := x.seqTx, txCol := x.txCol }

/-- Training of the port's lanes ends, with what the end of a training writes (R48). -/
def peerTrainStop (d : Device) (n : Nat) : Device :=
  [peerRxLane n 0, peerRxLane n 1].foldl (fun d l => (trainCut d l).setBit (F.LN_CTRL.RETRAIN (laneBase l)) false) d

/-- The next training request that waits for the link is sent, where none is pending (R71). -/
def peerTrainIssue (d : Device) (n : Nat) : Device :=
  if (d.peer n).trainReq.isSome then d
  else
    match [0, 1].find? (fun k => match (d.laneX (peerRxLane n k)).train with | some t => t.queued | none => false) with
    | none => d
    | some k =>
      let lx := d.laneX (peerRxLane n k)
      match lx.train with
      | none => d
      | some t =>
        let d1 := d.setLaneX (peerRxLane n k) { lx with train := some { t with queued := false } }
        queueFrame (d1.setPeer n { d1.peer n with trainReq := some k }) n { body := .train t.request, src := deviceId d }

/-- The lane that trains next is lane `k` or a later one whose MODE is not 0; after the last, DESKEW. -/
def peerTrainFrom (d : Device) (n : Nat) : Nat → Nat → Device
  | 0, _ => peerEnter d n plDeskew
  | m + 1, k =>
    if 2 ≤ k then peerEnter d n plDeskew
    else if trainMode d (peerRxLane n k) = 0 then peerTrainFrom d n m (k + 1)
    else
      let l := peerRxLane n k
      let t : Training := { full := trainMode d l = 2, byPort := true }
      match trainSend d l t .presetReply (presetWord l) with
      | .send t' =>
        let d1 := (d.setLaneX l { d.laneX l with train := some { t' with queued := true } }).setBit (F.LN_CTRL.RETRAIN (laneBase l)) true
        peerTrainIssue (d1.setPeer n { d1.peer n with trainLane := k }) n
      | _ => peerTrainFrom (trainFinish d l t false) n m (k + 1)

/-- A link that was UP is lost: LINK_LOST, the count, a reset of the peer's master identity, LANE_WAKE; with both lanes still in SYNC
bring-up goes on at once. -/
def peerLoss (n : Nat) (d : Device) : Device :=
  let d1 := ((dropReady d n).count (F.PEERn_LINK_LOSS.COUNT n)).raise (F.PEERn_FLAGS.LINK_LOST n)
  let d2 := masterReset (peerTrainStop d1 n) (6 + n)
  let d3 := peerEnter (d2.setPeer n (freshPeer (d2.peer n))) n plLaneWake
  let d4 := if isPrivate d n then (d3.raise F.PAIR_FLAGS.PEER_LOST).withPair { d3.pr with lost := true } else d3
  if peerSync d4 n then peerTrainFrom (peerEnter d4 n plTrain) n 3 0 else d4

/-- The port's state as its lanes' states let it be. -/
def peerCheck (n : Nat) (d : Device) : Device :=
  let st := d.peerState n
  if st = plLaneWake ∧ peerSync d n ∧ ¬ (d.peer n).resting then peerTrainFrom (peerEnter d n plTrain) n 3 0
  else if st = plUp ∧ ¬ peerSync d n then peerLoss n d
  else d

/-- The sluice applies EN (Table 21.6). -/
def peerApply (d0 : Device) : Device :=
  (List.range 3).foldl (fun d n =>
    if d.bit (F.PEERn_CFG.EN n) ∧ d.peerState n = plDisabled then
      peerCheck n (peerEnter ((peerLanes n).foldl lnPowerUp d) n plLaneWake)
    else if ¬ d.bit (F.PEERn_CFG.EN n) ∧ d.peerState n ≠ plDisabled then
      let d1 := peerTrainStop (dropReady d n) n
      peerEnter ((peerLanes n).foldl (fun d l => lnPowerDown d l false) (d1.setPeer n (freshPeer (d1.peer n)))) n plDisabled
    else d) d0

/-- PEER_STATE_TIMEOUT: 10 ms in LANE_WAKE to HELLO, in HELLO only without a HELLO since entry; the lanes go OFF for 2 ms, and the next
such command of the port ends these. -/
def peerTimeoutDev (n : Nat) (d : Device) : Device :=
  let x := d.peer n
  let st := d.peerState n
  if x.resting then
    peerCheck n ((peerLanes n).foldl lnPowerUp (d.setPeer n { x with resting := false }))
  else if plLaneWake ≤ st ∧ st ≤ plHello ∧ ¬ (st = plHello ∧ x.greeted) then
    let d1 := (peerLanes n).foldl (fun d l => lnPowerDown d l false) (peerTrainStop (dropReady d n) n)
    peerEnter (d1.setPeer n { freshPeer x with resting := true }) n plLaneWake
  else d

/-- PEER_RX_TIMEOUT: no valid frame for 10 µs in UP. -/
def peerRxTimeoutDev (n : Nat) (d : Device) : Device := if d.peerState n = plUp then peerLoss n d else d

/-! ## Marker columns (R58) -/

/-- DESKEW_COLUMN of a peer link: two aligned columns achieve deskew and DESKEW sends HELLO. -/
def peerDeskewDev (n : Nat) (d : Device) : Device :=
  let x := d.peer n
  match x.rx.events with
  | .marker true _ :: rest =>
    let d1 := d.setPeer n { x with rx := { x.rx with events := rest }, deskewOk := x.deskewOk + 1, deskewBad := 0 }
    if d.peerState n = plDeskew ∧ x.deskewOk + 1 = 2 ∧ peerSync d n then sendHello (peerEnter d1 n plHello) n else d1
  | .marker false _ :: rest =>
    let rx := { x.rx with events := rest }
    d.setPeer n { x with rx := if x.deskewBad + 1 = 2 then rx.lose else rx, deskewOk := 0, deskewBad := x.deskewBad + 1 }
  | _ => d

/-- A group has arrived on a peer lane: the marker columns it completes are kept for their commands. A frame comes as the command of its
type, with its fields (notes/assumptions, "peer frames as fields"), so the link's packets end here. -/
def peerReceive (n : Nat) (d : Device) : Device :=
  let r := linkReceive d [peerRxLane n 0, peerRxLane n 1] 0 (d.peer n).rx
  let marks := r.2.events.filter (fun e => match e with | .marker _ _ => true | _ => false)
  let ok := if [peerRxLane n 0, peerRxLane n 1].all (lnReceives d) then (r.1.peer n).deskewOk else 0
  r.1.setPeer n { r.1.peer n with rx := { r.2 with pkt := none, events := marks }, deskewOk := ok }

/-! ## Training (R45 to R49 with TRAIN frames) -/

/-- What the training procedure of a peer lane does next. -/
def peerTrainNext (d : Device) (n k : Nat) (nx : TrainNext) : Device :=
  let l := peerRxLane n k
  match nx with
  | .send t => peerTrainIssue (d.setLaneX l { d.laneX l with train := some { t with queued := true } }) n
  | .wait t => d.setLaneX l { d.laneX l with train := some t }
  | .finish t fail =>
    let d1 := peerTrainIssue (trainFinish d l t fail) n
    if t.byPort ∧ d1.peerState n = plTrain then peerTrainFrom d1 n 3 (k + 1) else d1

/-- A training reply arrives on a peer link: that of the pending request, which its LANE names (Table 2.4). -/
def peerTrainReply (n word : Nat) (d : Device) : Device :=
  match (d.peer n).trainReq with
  | none => d
  | some k =>
    if bitsOf word 25 24 ≠ k then d
    else
      let d1 := d.setPeer n { d.peer n with trainReq := none }
      match (d1.laneX (peerRxLane n k)).train with
      | none => peerTrainIssue d1 n
      | some t => peerTrainIssue (peerTrainNext d1 n k (trainOnReply d1 (peerRxLane n k) t word)) n

/-- TRAIN_REQ_TIMEOUT on a peer link: sent again at most three times, then training ends with TRAIN_FAIL (R48). -/
def peerTrainTimeout (n : Nat) (d : Device) : Device :=
  match (d.peer n).trainReq with
  | none => d
  | some k =>
    let l := peerRxLane n k
    match (d.laneX l).train with
    | none => peerTrainIssue (d.setPeer n { d.peer n with trainReq := none }) n
    | some t =>
      if t.resends < 3 then
        queueFrame (d.setLaneX l { d.laneX l with train := some { t with resends := t.resends + 1 } }) n
          { body := .train t.request, src := deviceId d }
      else peerTrainNext (d.setPeer n { d.peer n with trainReq := none }) n k (.finish t true)

/-- A write of RETRAIN on a peer lane: ignored while the link is UP, while training runs, or under MODE 0 (R49). -/
def peerRetrain (n k : Nat) (d : Device) : Device :=
  let l := peerRxLane n k
  if d.peerState n = plUp ∨ (d.laneX l).train.isSome ∨ trainMode d l = 0 then d
  else
    let t : Training := { full := trainMode d l = 2 }
    match trainSend d l t .presetReply (presetWord l) with
    | .send t' => peerTrainNext (d.setBit (F.LN_CTRL.RETRAIN (laneBase l)) true) n k (.send t')
    | _ => trainFinish d l t false

/-- A scan of a peer lane has ended. -/
def peerEyeScan (n k ew eh : Nat) (d : Device) : Device :=
  match (d.laneX (peerRxLane n k)).train with
  | none => d
  | some t => peerTrainNext d n k (trainOnScan d (peerRxLane n k) t (ew * eh))

/-- One tap request (R45, R46): the tap's value after it, and its status. -/
def stepTap (req v top : Nat) : Nat × Nat :=
  if req = 1 then (if v < top then (v + 1, 1) else (v, 3))
  else if req = 2 then (if 0 < v then (v - 1, 1) else (v, 2))
  else (v, 0)

/-- A training request of the far end moves the taps of this device's transmit lane, with MAIN = 63 − PRE − POST, and the reply
becomes ready (R46, R447). The reply to a PRESET carries 0b00 in PRE_ST and POST_ST, which R46 leaves open (DESIGN CHOICE, log entry "the
reply to a preset"). A tap's top value keeps the setting valid under R42. -/
def peerTrainRequest (n word : Nat) (d : Device) : Device :=
  let k := bitsOf word 9 8
  if 2 ≤ k then d
  else
    let b := laneBase (peerTxLane n k)
    let pre := d.get (F.LN_TX_TAPS.C_PRE b)
    let post := d.get (F.LN_TX_TAPS.C_POST b)
    let (pre1, post1, st) :=
      if bitAt word 7 then (0, 0, 0)
      else
        let (post1, s1) := stepTap (bitsOf word 3 2) post (Nat.min 31 (23 - pre))
        let (pre1, s2) := stepTap (bitsOf word 1 0) pre (Nat.min 15 (23 - post1))
        (pre1, post1, s1 * 4 + s2)
    let main := 63 - pre1 - post1
    let d1 := ((d.set (F.LN_TX_TAPS.C_PRE b) pre1).set (F.LN_TX_TAPS.C_POST b) post1).set (F.LN_TX_TAPS.C_MAIN b) main
    queueFrame d1 n { body := .trainReply (k * 2 ^ 24 + main * 2 ^ 17 + post1 * 2 ^ 12 + pre1 * 2 ^ 8 + st), src := deviceId d }

/-! ## Sending (R444 to R446) -/

/-- Place of a frame in the order of R446. -/
def sendOrder : PeerBody → Nat
  | .status _ => 0
  | .time _ => 1
  | .line _ _ => 2
  | .window _ => 3
  | .ack _ => 4
  | .commit _ _ => 5
  | .digest _ => 6
  | .item _ _ _ => 7
  | .access _ _ _ => 8
  | .accessReply _ _ => 8
  | .hello _ => 9
  | .train _ => 10
  | .trainReply _ => 10

/-- TYPE of a frame (Table 21.5). -/
def frameType : PeerBody → Nat
  | .hello _ => 1
  | .status _ => 2
  | .time _ => 3
  | .line _ _ => 4
  | .window _ => 5
  | .digest _ => 6
  | .item _ _ _ => 7
  | .commit _ _ => 8
  | .access _ _ _ => 9
  | .accessReply _ _ => 9
  | .ack _ => 10
  | .train _ => 11
  | .trainReply _ => 11

/-- The frame types delivered reliably (Table 21.5). -/
def isReliable (b : PeerBody) : Bool := [1, 6, 7, 8, 9].contains (frameType b)

/-- Kind of an item (Table 21.3). -/
def itemKind : ItemBody → Nat
  | .commit _ _ => 1
  | .calSet _ => 2
  | .plan _ => 3
  | .firmware _ => 4
  | .snapConfig _ _ | .snapCal _ | .snapPlan _ | .snapWarm | .snapCounters _ => 5

/-- Code of a message of R411 in a COMMIT frame. -/
def commitCode : CommitMsg → Nat
  | .commit => 0
  | .passed => 1
  | .refused => 2
  | .split => 3
  | .confirm => 4
  | .cancel => 5

/-- Bytes of an item that one ITEM frame carries: 512, less the reliable sequence number, the kind and the apply line. -/
def itemChunk : Nat := 503

/-- Frames of an item: as many chunks as its bytes take, and one of an item without bytes. -/
def itemChunks (b : ItemBody) : Nat := Nat.max 1 (ceilDiv (Config.itemBytes b).length itemChunk)

/-- The fields of a payload, behind the reliable sequence number, in the order of Table 21.5 and little-endian (R7). The widths that the
table does not give, and the codes of OP, of a reply's status and of a commit message, are the model's (DESIGN CHOICE, log entry "peer
payloads"). -/
def payloadFields : PeerBody → List Byte
  | .line ts v => leBytes 8 ts ++ leBytes 8 (wrapN 64 v)
  | .window w => windowPayload w
  | .digest b => leBytes 4 b.cycle ++ leBytes 8 b.digest ++ leBytes 4 b.loss ++ leBytes 1 b.selfTest
  | .ack r => leBytes 4 r
  | .train w => leBytes 4 w
  | .trainReply w => leBytes 4 w
  | .hello b =>
    leBytes 4 b.chipId ++ leBytes 1 b.level ++ leBytes 4 b.buildId ++ leBytes 4 b.pairCfg.toNat ++ leBytes 4 b.pairChain.toNat
      ++ leBytes 4 b.gridBase ++ leBytes 4 b.ownLo ++ leBytes 4 b.ownHi
  | .status b =>
    leBytes 1 b.state ++ leBytes 2 b.claim ++ b.spouts.flatMap (leBytes 1) ++ leBytes 1 b.demand ++ leBytes 4 b.demandCycle
      ++ leBytes 1 b.revert.isSome.toNat ++ leBytes 4 (b.revert.getD 0)
  | .time b => leBytes 8 (wrapN 64 b.tx) ++ leBytes 8 (wrapN 64 b.rx) ++ leBytes 4 b.rxSeq
  | .item l b k => leBytes 1 (itemKind b) ++ leBytes 4 l ++ ((Config.itemBytes b).drop (itemChunk * k)).take itemChunk
  | .commit a m => leBytes 1 (commitCode m) ++ leBytes 4 a
  | .access w a v => leBytes 1 w.toNat ++ leBytes 8 a ++ leBytes 4 v.toNat
  | .accessReply ok v => leBytes 1 ok.toNat ++ leBytes 4 v.toNat

/-- The payload of a frame: the reliable sequence number where it is reliable, its fields, and zeros up to a multiple of 4; at most 512
bytes (R444, R445). -/
def payloadBytes (rel : Option Nat) (b : PeerBody) : List Byte :=
  let p := (match rel with | some r => leBytes 4 r | none => []) ++ payloadFields b
  (p ++ List.replicate ((4 - p.length % 4) % 4) 0#8).take 512

/-- Header, payload and CRC-32C of a frame (R444, Table 21.4). -/
def peerBytes (f : PeerFrame) (seq : Nat) : List Byte :=
  let p := payloadBytes f.rel f.body
  withCrc (leBytes 1 (frameType f.body) ++ leBytes 1 f.rel.isSome.toNat ++ leBytes 2 p.length ++ leBytes 4 seq ++ leBytes 1 f.src
    ++ leBytes 1 f.dst ++ leBytes 1 f.hops ++ leBytes 1 0 ++ leBytes 4 f.line ++ p)

/-! ## Columns of a peer link (R56, R57, R444) -/

/-- Columns of two lanes for a frame: K27.7, the bytes striped with K28.5 as fill, K29.7. -/
def peerColumns (bs : List Byte) : List ((Nat × Bool) × (Nat × Bool)) :=
  ((0xFB, true), (0xFB, true)) ::
    (List.range (ceilDiv bs.length 2)).map (fun k =>
      (((bs.getD (2 * k) 0).toNat, false), match bs[2 * k + 1]? with | some b => (b.toNat, false) | none => (0xBC, true)))
    ++ [((0xFD, true), (0xFD, true))]

/-- The columns with a marker column as every 1,024th, of which `k` have gone since the last, and the number since the last after them. -/
def withMarkers {α : Type} (m : α) : Nat → List α → List α × Nat
  | k, [] => ([], k)
  | k, c :: t =>
    if k + 1 = 1024 then let r := withMarkers m 1 t; (m :: c :: r.1, r.2)
    else let r := withMarkers m (k + 1) t; (c :: r.1, r.2)

/-- Columns leave on both lanes of a port, with the port's marker columns between them. -/
def columnsOut (d : Device) (n : Nat) (cols : List ((Nat × Bool) × (Nat × Bool))) : Device :=
  let x := d.peer n
  let r := withMarkers ((0x7C, true), (0x7C, true)) x.txCol cols
  lnSend (lnSend (d.setPeer n { x with txCol := r.2 }) (peerTxLane n 0) (r.1.map Prod.fst)) (peerTxLane n 1) (r.1.map Prod.snd)

/-- The first ready frame in the order of R446. -/
def firstReady (l : List PeerFrame) : Option PeerFrame :=
  l.foldl (fun m f => match m with
    | none => some f
    | some g => if sendOrder f.body < sendOrder g.body then some f else some g) none

/-- A stamp of a peer frame: the device time in 1/256 ns corrected with the port's latency (R273, R449). -/
def peerStamp (d : Device) (n : Nat) (tx : Bool) (t : Nat) : Int :=
  stampFix (256 * t) tx (d.rd (if tx then R.TB_PEERn_TXLAT n else R.TB_PEERn_RXLAT n)).toNat

/-- A TIME frame takes its stamps as it leaves. -/
def fillTime (d : Device) (n : Nat) (b : PeerBody) : PeerBody :=
  match b with
  | .time _ =>
    let x := d.peer n
    let rx := x.timeRx.head?.getD (0, 0)
    .time { tx := (x.timeTx.head?.getD (0, 0)).2, rx := rx.2, rxSeq := rx.1 }
  | b => b

/-- The line named in the confirmation that the root repeats in every frame until the trigger of A − 16 (R411). -/
def confirmLine (d : Device) : Option Nat :=
  if d.slu.confirming ∧ d.sluState = sluArmed ∧ d.tb.count < d.slu.count - 16 then some (lineOf d.slu.count) else none

/-- The frame `f` goes out on port `n`. -/
def frameLeaves (d : Device) (n : Nat) (f0 : PeerFrame) : Device :=
  let x := d.peer n
  let rel := if isReliable f0.body then some (f0.rel.getD x.relTx) else none
  let new := isReliable f0.body && f0.rel.isNone
  let f : PeerFrame := { f0 with body := fillTime d n f0.body, rel := rel }
  let s : SentFrame := { seq := x.seqTx, frame := f, confirm := confirmLine d, bytes := peerBytes f x.seqTx }
  let isTime := frameType f.body == 3
  let x1 : Peer := { x with
    seqTx := (x.seqTx + 1) % 2 ^ 32, sent := some s, relTx := if new then (x.relTx + 1) % 2 ^ 32 else x.relTx,
    unacked := if new then x.unacked ++ [{ rel := x.relTx, frame := f }] else x.unacked,
    timeTx := if isTime then ((x.seqTx, peerStamp d n true d.nowNs) :: x.timeTx).take 8 else x.timeTx }
  columnsOut ((d.setPeer n x1).count (F.PEERn_FRAMES_TX.COUNT n)) n (peerColumns s.bytes)

/-- PEER_FRAME_SEND: at a frame boundary the port sends the first ready frame; with none, and below TRAIN, a word of K28.5 columns. A lane
that is not active sends nothing and one that sends PRBS no coded data, and the frames then wait (R50, R52). -/
def peerSendDev (n : Nat) (d : Device) : Device :=
  let x := d.peer n
  let idle := columnsOut d n (List.replicate 4 ((0xBC, true), (0xBC, true)))
  if d.peerState n < plTrain ∨ x.resting ∨ ¬ (lnSends d (peerTxLane n 0) ∧ lnSends d (peerTxLane n 1)) then idle
  else match firstReady x.ready with
    | none => idle
    | some f => frameLeaves (d.setPeer n { x with ready := x.ready.erase f }) n f

/-- PEER_RETRANSMIT: the frame of reliable sequence number `rel` has had no ACK for 10 µs and is sent again; where its eighth repeat has had
none either, the link is lost (R445). -/
def peerRetransmitDev (n rel : Nat) (d : Device) : Device :=
  let x := d.peer n
  match x.unacked.find? (fun u => u.rel = rel) with
  | none => d
  | some u =>
    if 8 ≤ u.repeats then
      let d1 := d.raise (F.PEERn_FLAGS.RETX_FAIL n)
      if d.peerState n = plUp then peerLoss n d1 else d1.setPeer n { x with unacked := x.unacked.filter (fun v => v.rel ≠ rel) }
    else
      let d1 := (d.count (F.PEERn_RETX.COUNT n)).setPeer n
        { x with unacked := x.unacked.map (fun v => if v.rel = rel then { v with repeats := v.repeats + 1 } else v) }
      queueFrame d1 n u.frame

/-- An ACK releases every frame up to the one it names (R445). -/
def peerAck (n rel : Nat) (d : Device) : Device :=
  let x := d.peer n
  d.setPeer n { x with unacked := x.unacked.filter (fun u => u.rel ≠ rel ∧ ¬ lineBefore u.rel rel) }

/-! ## Reception (R444, R445, R446, R452) -/

/-- A frame for another device is forwarded (R446, R452). -/
def peerForward (d : Device) (n : Nat) (h : PeerHdr) (b : PeerBody) : Device :=
  if 15 < h.hops + 1 then (d.count (F.PEERn_HOPS_DROP.COUNT n)).raise (F.PEERn_FLAGS.HOPS_DROP n)
  else match routeTo d h.dst with
    | some p => queueFrame d p { body := b, src := h.src, dst := h.dst, hops := h.hops + 1, line := h.line }
    | none => match b with | .window _ => d.count F.CHAIN_FWD_DROP.V | _ => d

/-- A valid frame arrives on port `n`: it is counted, its SEQ checked, a reliable frame accepted in order only and acknowledged; and
whether it is for this device. Lanes that pass no symbols bring none (R41, R52). -/
def peerArrive (n : Nat) (h : PeerHdr) (b : PeerBody) (d : Device) : Device × Bool :=
  let x := d.peer n
  if d.peerState n < plTrain ∨ x.resting ∨ ¬ peerHears d n then (d, false)
  else
    let gap : Bool := match x.seqRx with | some s => h.seq != (s + 1) % 2 ^ 32 | none => false
    let d1 := (d.count (F.PEERn_FRAMES_RX.COUNT n)).setPeer n { x with seqRx := some h.seq }
    let d2 := if gap then (d1.count (F.PEERn_SEQ_GAP.COUNT n)).raise (F.PEERn_FLAGS.SEQ_GAP n) else d1
    let mine : Bool := h.dst == 0xFF || h.dst == deviceId d
    match h.rel with
    | none => if mine then (d2, true) else (peerForward d2 n h b, false)
    | some r =>
      if r ≠ x.relRx then (d2, false)
      else
        let d3 := d2.setPeer n { d2.peer n with relRx := (r + 1) % 2 ^ 32 }
        let d4 := queueFrame d3 n { body := .ack r, src := deviceId d }
        if mine then (d4, true) else (peerForward d4 n h b, false)

/-- PEER_CRC_ERR: a frame with a bad CRC is discarded and counted; where the port's snoop unit finds it, also a block-level fault
(R382). -/
def peerCrcDev (n : Nat) (snoop : Bool) (d : Device) : Device :=
  let d1 := (d.count (F.PEERn_CRC_ERR.COUNT n)).raise (F.PEERn_FLAGS.CRC_ERR n)
  if snoop then snoopMismatch d1 (16 + n) faultSnoopPeer n else d1

/-- HELLO (R448): the far device's ID, and UP or CFG_MISMATCH. -/
def helloRx (n : Nat) (h : HelloBody) (d : Device) : Device :=
  let d1 := (d.set (F.PEERn_STATUS.REMOTE_ID n) (F.PAIR_CHAIN.ID.of h.pairChain)).setPeer n { d.peer n with greeted := true, hello := some h }
  if d.peerState n ≠ plHello then d1
  else if helloOk d n h then (peerEnter d1 n plUp).raise (F.PEERn_FLAGS.LINK_UP n)
  else d1.raise (F.PEERn_FLAGS.CFG_MISMATCH n)

/-- HELLO_REPEAT: every 1 ms in HELLO. -/
def helloRepeatDev (n : Nat) (d : Device) : Device := if d.peerState n = plHello then sendHello d n else d

/-- PEER_TIME_DUE: every 64 µs. -/
def peerTimeDueDev (n : Nat) (d : Device) : Device :=
  if d.peerState n = plUp then queueFrame d n { body := .time {}, src := deviceId d } else d

/-- The one-way delay that four matching stamps give, in ns, with ASYM (R449). -/
def linkDelay (t1 t2 t3 t4 asym : Int) : Nat := (clampI 0 0xFFFF (rneDiv ((t4 - t1) - (t3 - t2) - rneDiv (asym * 256) 1000) 512)).toNat

/-- A TIME frame arrives: its stamps, its own receive stamp, and the delay where the stamps match (R449). -/
def timeRx (n : Nat) (h : PeerHdr) (b : TimeBody) (d : Device) : Device :=
  let x := d.peer n
  let d1 := d.setPeer n { x with far := b, timeRx := ((h.seq, peerStamp d n false d.nowNs) :: x.timeRx).take 2 }
  match x.timeRx.head?, x.timeTx.find? (fun e => e.1 = b.rxSeq) with
  | some r, some s => d1.set (F.PEERn_DELAY.DELAY n) (linkDelay s.2 b.rx b.tx r.2 (sx 32 (d.rd (R.TB_PEERn_ASYM n)).toNat))
  | _, _ => d1

def execPeerCrcErr (n : Fin 3) (snoop : Bool) (s : State) : Outcome := s.done (peerCrcDev n snoop s.dev)
def execPeerFrameSend (n : Fin 3) (s : State) : Outcome := s.done (peerSendDev n s.dev)
def execPeerTimeDue (n : Fin 3) (s : State) : Outcome := s.done (peerTimeDueDev n s.dev)
def execHelloRepeat (n : Fin 3) (s : State) : Outcome := s.done (helloRepeatDev n s.dev)
def execPeerRetransmit (n : Fin 3) (rel : Nat) (s : State) : Outcome := s.done (peerRetransmitDev n rel s.dev)
def execPeerRxTimeout (n : Fin 3) (s : State) : Outcome := s.done (peerRxTimeoutDev n s.dev)
def execPeerStateTimeout (n : Fin 3) (s : State) : Outcome := s.done (peerTimeoutDev n s.dev)

end Sys2Proof.Machine
end

