-- ==== Sys2Proof/Machine/Checks.lean ====
section
/-! DEFINITION. The hardware part of the sluice check (R410, Table 19.9) and the values derived with it (R195, R196, R417, R425). -/

namespace Sys2Proof.Machine

/-- A breach: CODE, ITEM, INDEX. -/
abbrev Breach := Nat × Nat × Nat

/-- The breach, where the condition holds. -/
def breachIf (c : Bool) (code item index : Nat) : List Breach := if c then [(code, item, index)] else []

/-- `a` is reported before `b`: ascending CODE, then ITEM, then INDEX (R410). -/
def breachBefore (a b : Breach) : Bool :=
  decide (a.1 < b.1) || (a.1 == b.1 && (decide (a.2.1 < b.2.1) || (a.2.1 == b.2.1 && decide (a.2.2 < b.2.2))))

/-- The first breach of a list. -/
def firstBreach (l : List Breach) : Option Breach :=
  l.foldl (fun m b => match m with | none => some b | some a => if breachBefore b a then some b else some a) none

/-! ## Quantities several rules share -/

/-- The enabled views. -/
def enabledViews (cfg : Device) : List Nat := (List.range 4).filter (viewOn cfg)

/-- V_max: the largest view latency target, µs, of an enabled view, as R17 says; R109 says only "the largest view latency target", and the
model reads it as the same V_max (DESIGN CHOICE, log entry "V_max of R109"). -/
def vMax (cfg : Device) : Nat := ((enabledViews cfg).map (fun v => cfg.get (F.GEO_Vv_LAT.LAT_TARGET v))).foldl Nat.max 0

/-- P_max in ns (R13): with the classifier stage only where it is enabled (R17). -/
def pMax (cfg : Device) : Nat := if cfg.bit F.CASC_CFG.CLA_EN then 229000 else 29000

/-- t_LE_min in ns (R17): the nearest row in use at the upper speed bound; in belt mode the configured distance at VMAX taken as the
maximum belt speed, counts per second in Q16.16.  R17 gives the belt quotient no rounding: it rounds down here, to whole nanoseconds
(DESIGN CHOICE, log entry "t_LE_min in belt mode"). -/
def tLeMin (cfg : Device) : Nat :=
  let dist := ((rowsInUse cfg).map (fun r => cfg.get (F.FLY_DLEr.DLE r))).foldl
    (fun (m : Option Nat) x => match m with | none => some x | some y => some (Nat.min x y)) none
  match dist with
  | none => 0
  | some x =>
    let v := cfg.get F.FLY_VMAX.VMAX
    if cfg.bit F.FLY_CFG.MODE then x * 65536 * 1000000000 / v
    else fallTime (cfg.get F.FLY_GEFF.G) (lowerSpeed (cfg.get F.FLY_GEFF.G) v (cfg.get F.FLY_DUL.D_UL)) x

/-- The enabled forward entries. -/
def fwdEntries (cfg : Device) : List Nat := (List.range 16).filter (fun k => cfg.bit (F.PAIR_FWDk_CFG.EN k))

/-- The destinations of a forward entry. -/
def fwdDests (cfg : Device) (k : Nat) : List Nat :=
  cfg.get (F.PAIR_FWDk_CFG.DEST0 k) :: if cfg.bit (F.PAIR_FWDk_CFG.DUAL k) then [cfg.get (F.PAIR_FWDk_CFG.DEST1 k)] else []

/-- Channels of the valves in service. -/
def inService (cfg : Device) : List Nat := (List.range 512).filter (fun c => spoutOn cfg (c / 128) && cfg.bit (F.EJ_Vc_MAP.EN c))

/-- lead_open_max and t_pre_max in ns (R17). -/
def leadMax (cfg : Device) : Nat :=
  ((inService cfg).map (fun c => cfg.get (F.EJ_Vc_OPEN.OPEN_LEAD c)) ++ (fwdEntries cfg).map (fun k => cfg.get (F.PAIR_FWDk_LEAD.LEAD_MAX k))).foldl Nat.max 0
def preMax (cfg : Device) : Nat := 1000 * ((rowsInUse cfg).map (fun r => cfg.get (F.EJ_TIMEr.PRE r))).foldl Nat.max 0

/-- Hops of R17 (R452). -/
def fwdHops (cfg : Device) : Nat :=
  ((fwdEntries cfg).flatMap (fun k => (fwdDests cfg k).map (fun t =>
    Nat.max (cfg.get (F.PAIR_ROUTEd.HOPS t)) (if cfg.bit (F.PAIR_ROUTEd.ALT_EN t) then cfg.get (F.PAIR_ROUTEd.ALT_HOPS t) else 0)))).foldl Nat.max 0

/-- Λ in 2^-32 ns (R17). -/
def leadSlack (cfg : Device) : Int :=
  ((tLeMin cfg : Int) - 1000 * vMax cfg - pMax cfg - leadMax cfg - preMax cfg) * q32 - cfg.get F.BSN_CFG.LEN_MAX * periodQ cfg

/-- The context of an enabled head. -/
def liveCtxs (cfg : Device) : List Nat := (List.range 48).filter (ctxLive cfg)

/-- The format of a context has a payload size. -/
def sized (cfg : Device) (n : Nat) : Bool :=
  (depthOf (ctxPixfmt cfg n)).isSome && decide (arrangeOf (ctxLayout cfg n) ≤ 2) && decide (1 ≤ samplesOf (ctxLayout cfg n) ∧ samplesOf (ctxLayout cfg n) ≤ 8)

/-- Payload bytes of a context's line. -/
def ctxPayload (cfg : Device) (n : Nat) : Nat := payloadLen (ctxPixels cfg n) (ctxPixfmt cfg n) (ctxLayout cfg n)

/-- The sums of Table 1.7 per line: correction, geometry output, segmentation. -/
def sumCorrection (cfg : Device) : Nat := (((liveCtxs cfg).filter (sized cfg)).map (footSize cfg)).sum
def sumGeometry (cfg : Device) : Nat := ((enabledViews cfg).map (fun v => viewWidth cfg v * viewBands cfg v)).sum
def sumSegments (cfg : Device) : Nat := ((enabledViews cfg).map (viewWidth cfg)).sum

/-- Symbol rate of a camera receive rate code in Mbaud (Table 2.1), if it is one. -/
def camRate (code : Nat) : Option Nat := match code with | 1 => some 3125 | 2 => some 6250 | 3 => some 12500 | _ => none

/-! ## 3 CAPACITY (R26, Table 1.7) -/

/-- Link load of a port in bytes per line. -/
def portLoad (cfg : Device) (p : Nat) : Nat :=
  ((enabledHeads cfg).filter (fun x => x.1 == p && decide (headCtx cfg x.1 x.2 < 48) && sized cfg (headCtx cfg x.1 x.2))).map
    (fun x => 38 + ctxPayload cfg (headCtx cfg x.1 x.2)) |>.sum

def checkCapacity (cfg : Device) : List Breach :=
  let q := periodQ cfg
  let loads := (List.range 12).map (portLoad cfg)
  (List.range 12).flatMap (fun p => match camRate (cfg.get (F.CPn_CFG.RATE p)) with
      | some mb => breachIf (cfg.get (F.CPn_CFG.LANES p) != 3 && decide (portLanes cfg p * mb * 76 * q < loads.getD p 0 * 8 * 100000 * q32)) 3 1 p
      | none => [])
    ++ breachIf (decide (480 * q < loads.sum * 8 * q32)) 3 2 0
    ++ breachIf (decide (333 * q < sumCorrection cfg * 10 * q32)) 3 3 0
    ++ breachIf (decide (524288 < sumCorrection cfg)) 3 4 0
    ++ breachIf (decide (384 * q < sumGeometry cfg * 10 * q32)) 3 5 0
    ++ breachIf (decide (96 * q < sumSegments cfg * 10 * q32)) 3 6 0

/-! ## 4 LEAD (R17, Table 9.2) -/

def checkLead (cfg : Device) : List Breach :=
  if (rowsInUse cfg).isEmpty then []
  else
    let lam := leadSlack cfg
    let up : Int := ((dtMin cfg : Int) + tLeMin cfg - pMax cfg - leadMax cfg - preMax cfg) * q32 - expLines cfg * periodQ cfg
    breachIf (decide (lam < 50000 * q32) || decide (lam ≤ (fwdHops cfg * 1000 + 2000) * q32)) 4 0 0
      ++ breachIf (cfg.bit F.FLY_CFG.UPPER_ONLY_EN && decide (up < 50000 * q32)) 4 5 0

/-! ## 5 CONTEXT (R82, Table 4.2) -/

/-- MOSAIC meets R96. -/
def mosaicOk (cfg : Device) (n : Nat) : Bool :=
  let a := cfg.get (F.CXn_CFG.MOSAIC_R0E n)
  let b := cfg.get (F.CXn_CFG.MOSAIC_R0O n)
  let c := cfg.get (F.CXn_CFG.MOSAIC_R1E n)
  let e := cfg.get (F.CXn_CFG.MOSAIC_R1O n)
  let row (x y : Nat) : Bool := (x == 1 && (y == 0 || y == 2)) || (y == 1 && (x == 0 || x == 2))
  row a b && row c e && [a, b, c, e].count 0 == 1 && [a, b, c, e].count 2 == 1

/-- LIN slot of band `b`. -/
def linSlot (cfg : Device) (n b : Nat) : Nat := bitsOf (cfg.rd ((if b < 4 then R.CXn_LIN0 n else R.CXn_LIN1 n))).toNat (8 * (b % 4) + 4) (8 * (b % 4))

def checkPort (cfg : Device) (p : Nat) : List Breach :=
  let lead := cfg.get (F.CPn_TRIG_CTRL.TRIG_LEAD p)
  let per := cfg.get (F.CPn_TRIG_CTRL.TIME_PERIOD p)
  let on := cfg.get (F.CPn_CFG.HEAD_EN p) != 0
  breachIf (cfg.get (F.CPn_CFG.LANES p) == 3 || (camRate (cfg.get (F.CPn_CFG.RATE p))).isNone
      || decide (lead < 21 ∨ 500 < lead) || decide (per < 100 ∨ 10000 < per)
      || (on && decide (64 * periodQ cfg < (lead + 500) * 1000 * q32))) 5 0 p
    ++ (List.range 4).flatMap (fun h => breachIf (headEn cfg p h && decide (47 < headCtx cfg p h)) 5 0 p)

/-- The rows of Table 4.2 for a live context.  Of two contexts whose footprints overlap, both "the context concerned" of R410, the
higher-numbered one is reported (DESIGN CHOICE, log entry "INDEX of an overlap"). -/
def checkContext (cfg : Device) (n : Nat) : List Breach :=
  let px := ctxPixels cfg n
  let fmt := ctxPixfmt cfg n
  let lay := ctxLayout cfg n
  let nb := cfg.get (F.CXn_CFG.NB_OUT n)
  let depth := (depthOf fmt).getD 0
  let lo := footBase cfg n
  let hi := lo + footSize cfg n
  breachIf (decide (px = 0 ∨ 8192 < px) || (depthOf fmt).isNone || bitsOf fmt 7 5 != 0 || bitAt fmt 3 || decide (2 < arrangeOf lay)
      || decide (samplesOf lay < 1 ∨ 8 < samplesOf lay) || (containerOf fmt && depthOf fmt == some 16) || decide (57344 < ctxPayload cfg n)) 5 1 n
    ++ breachIf ((ctxMosaic cfg n && (samplesOf lay != 2 || px % 2 != 0 || decide (px < 4))) || !mosaicOk cfg n) 5 2 n
    ++ breachIf (decide (8 < nb ∨ nbIn cfg n < nb) || (!cfg.bit (F.CXn_CFG.MATRIX_EN n) && nbOut cfg n != nbIn cfg n)) 5 3 n
    ++ breachIf (decide (2 ^ depth ≤ cfg.get (F.CXn_PED.PED n))) 5 4 n
    ++ breachIf (decide (524288 < hi) || (liveCtxs cfg).any (fun m => decide (m < n) && decide (lo < footBase cfg m + footSize cfg m) && decide (footBase cfg m < hi))) 5 5 n
    ++ breachIf ((List.range (nbIn cfg n)).any (fun b => decide (24 ≤ linSlot cfg n b ∧ linSlot cfg n b ≤ 30))) 5 6 n
    ++ breachIf (cfg.bit (F.CXn_CFG.GI_EN n) && !ctxMosaic cfg n) 5 7 n
    ++ breachIf (decide (cfg.get (F.CXn_LAT.LAT_TARGET n) < 1 ∨ 1000 < cfg.get (F.CXn_LAT.LAT_TARGET n))) 5 8 n

def checkContexts (cfg : Device) : List Breach :=
  (List.range 12).flatMap (checkPort cfg)
    ++ (List.range 48).flatMap (fun n => breachIf (decide (1 < ((enabledHeads cfg).filter (fun x => headCtx cfg x.1 x.2 == n)).length)) 5 0 n)
    ++ (liveCtxs cfg).flatMap (checkContext cfg)

/-! ## 6 CALIBRATION (R109, Table 5.7) -/

/-- `n` bytes from `a` lie wholly inside DRAM. -/
def insideDram (d : Device) (a n : Nat) : Bool := decide (dramBase ≤ a ∧ a + n ≤ dramBase + dramUsable d)

/-- Target slots that a context uses. -/
def usedTargets (cfg : Device) (n : Nat) : List Nat := if ctxMosaic cfg n then [0, 1, 2] else List.range (streamCount cfg n)

/-- Value of target slot `k`. -/
def targetSlot (cfg : Device) (n k : Nat) : Nat :=
  cfg.get (if k % 2 = 0 then F.CAL_Cn_TGTk.TGT_EVEN n (k / 2) else F.CAL_Cn_TGTk.TGT_ODD n (k / 2))

def checkCalContext (cfg : Device) (n : Nat) : List Breach :=
  let a := cfg.get (F.CAL_Cn_RANGE.PIX_FIRST n)
  let b := cfg.get (F.CAL_Cn_RANGE.PIX_LAST n)
  let x := cfg.get (F.CAL_Cn_DARK.DARK_FIRST n)
  let y := cfg.get (F.CAL_Cn_DARK.DARK_LAST n)
  breachIf (decide (b < a) || decide (ctxPixels cfg n ≤ b)
    || (cfg.bit (F.CAL_Cn_CFG.DARK_EN n) && (decide (y < x) || decide (ctxPixels cfg n ≤ y) || decide (x ≤ b ∧ a ≤ y)))
    || (usedTargets cfg n).any (fun k => targetSlot cfg n k == 0)) 6 3 n

def checkCalibration (d cfg : Device) : List Breach :=
  let q := periodQ cfg
  let dec := cfg.get F.CAL_CTRL.DECIM
  let nm := cfg.get F.CAL_CTRL.N_MIN_LOG2
  let lag := cfg.get F.CAL_CTRL.APPLY_LAG
  breachIf (decide (7 * 2 ^ dec * q < cfg.get F.CAL_CTRL.GUARD_L * q + (1000 * vMax cfg + 10000) * q32)) 6 0 0
    ++ breachIf (decide (8 < dec ∨ nm < 6 ∨ 12 < nm ∨ lag < 16) || decide (lag * q < 1000000 * q32) || cfg.get F.CAL_TRIG.TIMEOUT == 0
        || decide (cfg.get F.CAL_TRIG.DT_TRIG < 2)) 6 1 0
    ++ breachIf (!insideDram d (calBase cfg) 0x800000 || (d.bit F.CAL_CTRL.ENABLE && cfg.bit F.CAL_CTRL.ENABLE && calBase d != calBase cfg)) 6 2 0
    ++ ((liveCtxs cfg).filter (fun n => cfg.bit (F.CAL_Cn_CFG.CAL_EN n))).flatMap (checkCalContext cfg)

/-! ## 7 GEOMETRY (R144, Table 6.4) -/

def bndA (cfg : Device) (v k : Nat) : Nat := cfg.get (F.GEO_Vv_BNDk.A v k)
def bndB (cfg : Device) (v k : Nat) : Nat := cfg.get (F.GEO_Vv_BNDk.B v k)
def bndBlend (cfg : Device) (v k : Nat) : Bool := cfg.bit (F.GEO_Vv_BNDk.BLEND v k)

/-- The boundaries of a view break the row "Boundaries". -/
def badBounds (cfg : Device) (v : Nat) : Bool :=
  let n := viewSegs cfg v - 1
  (List.range n).any (fun k =>
    (bndBlend cfg v k && decide (bndB cfg v k < bndA cfg v k + 2))
      || (if k = 0 then decide (bndA cfg v k < 1)
          else decide (bndA cfg v k ≤ bndA cfg v (k - 1)) || (bndBlend cfg v (k - 1) && decide (bndA cfg v k ≤ bndB cfg v (k - 1)))))
    || (decide (0 < n) && decide (viewWidth cfg v ≤ if bndBlend cfg v (n - 1) then bndB cfg v (n - 1) else bndA cfg v (n - 1)))

/-- S_k and E_k of a segment (R137). -/
def segSpan (cfg : Device) (v k : Nat) : Nat × Nat :=
  (if k = 0 then 0 else bndA cfg v (k - 1) + (if bndBlend cfg v (k - 1) then 1 else 0),
   if k + 1 = viewSegs cfg v then viewWidth cfg v - 1 else (if bndBlend cfg v k then bndB cfg v k else bndA cfg v k) - 1)

/-- The map of a context has a step outside 2^14 to 2^18 (R131). -/
def badSteps (cfg : Device) (n : Nat) : Bool :=
  (List.range (ctxPixels cfg n - 1)).any (fun j => let s := mapX cfg n (j + 1) - mapX cfg n j; decide (s < 2 ^ 14 ∨ 2 ^ 18 < s))

/-- View bands that an assigned context supplies. -/
def usedBands (cfg : Device) (n : Nat) : List Nat := ((List.range (nbOut cfg n)).map (viewBand cfg n)).filter (fun b => b != 15)

def checkAssign (cfg : Device) (n : Nat) : List Breach :=
  let reserved := (List.range 8).any (fun b => decide (8 ≤ viewBand cfg n b ∧ viewBand cfg n b ≤ 14))
  match ctxView cfg n with
  | none => breachIf reserved 7 3 n ++ breachIf (badSteps cfg n) 7 5 n
  | some v =>
    let k := cfg.get (F.GEO_Cn_CFG.SEG n)
    let bad := reserved || !viewOn cfg v || decide (viewSegs cfg v ≤ k) || (usedBands cfg n).any (fun b => decide (viewBands cfg v ≤ b))
    let (s, e) := segSpan cfg v k
    breachIf bad 7 3 n
      ++ breachIf (badSteps cfg n || (!bad && !badBounds cfg v && !(usedBands cfg n).isEmpty && !(covered cfg n s && covered cfg n e))) 7 5 n

/-- Times that a view band of a segment has a source. -/
def sourceCount (cfg : Device) (v k b : Nat) : Nat :=
  ((liveCtxs cfg).filter (fun n => ctxView cfg n == some v && cfg.get (F.GEO_Cn_CFG.SEG n) == k)).map (fun n => (usedBands cfg n).count b) |>.sum

/-- The history ring of a view: address and bytes (Table 6.2). -/
def ringSpan (cfg : Device) (v : Nat) : Nat × Nat := (histBase cfg v, ringLines cfg v * (8 + rowPitch cfg v))

def histOn (cfg : Device) (v : Nat) : Bool := viewOn cfg v && cfg.bit (F.GEO_Vv_HIST.HIST_EN v)

def spansMeet (a b : Nat × Nat) : Bool := decide (a.1 < b.1 + b.2) && decide (b.1 < a.1 + a.2)

def checkHistory (d cfg : Device) (v : Nat) : List Breach :=
  let l := cfg.get (F.GEO_Vv_HIST.RING_LOG2 v)
  let dt := if cfg.bit F.FLY_CFG.MODE then 0 else dtMax cfg
  breachIf (histOn cfg v && (decide (l < 10 ∨ 14 < l) || (List.range 4).any (fun k => decide (viewBands cfg v ≤ histBand cfg v k))
    || !insideDram d (ringSpan cfg v).1 (ringSpan cfg v).2
    || (List.range v).any (fun u => histOn cfg u && spansMeet (ringSpan cfg u) (ringSpan cfg v))
    || decide (ringLines cfg v * histScale cfg v < cfg.get F.BSN_CFG.LEN_MAX + ceilDiv ((dt + 1000000) * q32) (Nat.max 1 (periodQ cfg))))) 7 6 v

def checkGeometry (d cfg : Device) : List Breach :=
  (List.range 4).flatMap (fun v =>
    breachIf (decide (32768 < viewWidth cfg v) || decide (cfg.get (F.GEO_Vv_LAT.LAT_TARGET v) < 1 ∨ 1000 < cfg.get (F.GEO_Vv_LAT.LAT_TARGET v))) 7 1 v
      ++ breachIf (viewOn cfg v && badBounds cfg v) 7 2 v
      ++ breachIf (viewOn cfg v && (List.range (viewSegs cfg v)).any (fun k => (List.range (viewBands cfg v)).any (fun b => sourceCount cfg v k b != 1))) 7 4 v
      ++ checkHistory d cfg v)
    ++ (liveCtxs cfg).flatMap (checkAssign cfg)

/-! ## 8 SEGMENTATION (Table 7.5) -/

def checkSegmentation (cfg : Device) : List Breach :=
  let l := cfg.get F.BSN_CFG.LEN_MAX
  let w := cfg.get F.BSN_CFG.WID_MAX
  breachIf (decide (l < 16 ∨ 4096 < l ∨ w < 16 ∨ 1024 < w)) 8 1 0
    ++ breachIf (cfg.get F.BSN_SIGHT.OVL_MIN == 0) 8 2 0
    ++ [0, 2].flatMap (fun v => breachIf (viewOn cfg v && viewOn cfg (v + 1) && viewWidth cfg v != viewWidth cfg (v + 1)) 8 2 v)

/-! ## 9 JUDGEMENT (R186, Table 8.6) -/

/-- Depth of a tree and the leaves at odd indices it reaches; none where it is deeper than `fuel`. -/
def treeShape (d : Device) : Nat → Nat → Bool → Option (Nat × List Nat)
  | _, w, true => some (0, if w % 2 = 1 then [w] else [])
  | 0, _, false => none
  | n + 1, w, false =>
    let x := nodeWord d w
    match treeShape d n (bitsOf x 54 38) (bitAt x 56), treeShape d n (bitsOf x 37 21) (bitAt x 55) with
    | some (a, l), some (b, r) => some (Nat.max a b + 1, l ++ r)
    | _, _ => none

/-- The shape of tree `t`, to depth 12. -/
def treeOf (d cfg : Device) (t : Nat) : Option (Nat × List Nat) := treeShape d 12 (cfg.get (F.FOR_TREEt.ROOT t)) (cfg.bit (F.FOR_TREEt.ROOT_LEAF t))

/-- D: the greatest tree depth. -/
def forestDepth (d cfg : Device) : Nat := ((List.range (cfg.get F.FOR_CFG.NTREES)).map (fun t => ((treeOf d cfg t).getD (12, [])).1)).foldl Nat.max 0

def checkFeature (cfg : Device) (i : Nat) : List Breach :=
  let src := cfg.get (F.FOR_FMAPi.SRC i)
  let qty := cfg.get (F.FOR_FMAPi.QTY i)
  let belt := cfg.bit F.FLY_CFG.MODE
  breachIf (cfg.get (F.FOR_FMAPi.MEMBER i) == 3 || (decide (src < 2) && (decide (13 < qty) || ((qty == 5 || qty == 6) && decide (7 < cfg.get (F.FOR_FMAPi.IDX i)))))
    || (src == 2 && decide (5 < qty)) || (belt && (src == 1 || (src == 2 && (qty == 1 || qty == 2))))) 9 1 i

def checkForest (d cfg : Device) : List Breach :=
  let nt := cfg.get F.FOR_CFG.NTREES
  breachIf (decide (256 < nt) || decide (nClass cfg < 2)) 9 2 0
    ++ (List.range (Nat.min 256 nt)).flatMap (fun t => match treeOf d cfg t with
        | none => [(9, 2, t)]
        | some (_, odd) => odd.map (fun w => (9, 2, w)))

/-- Length of the reduction of one output (Table 8.5). -/
def Layer.reduction (l : Layer) : Nat :=
  match l.op with | 1 => 9 * l.inC | 2 => l.inC | 3 => 9 | 5 => l.inH * l.inW | 6 => l.inH * l.inW * l.inC | _ => 4

/-- Layer `i` of the list breaks the row "Network". -/
def badLayer (d cfg : Device) (i : Nat) : Bool :=
  let l := layerAt d cfg i
  let n := nLayers cfg
  let flags := d.num (weightBase + cfg.get F.CLA_CFG.LIST_BASE + 16 * i + 1) 1
  let p := layerAt d cfg (i - 1)
  let chained := if i = 0 then l.inH == 32 && l.inW == 32 && decide (1 ≤ l.inC ∧ l.inC ≤ 16)
    else l.inH == p.outH && l.inW == p.outW && l.inC == p.outCh
  let chans := i != 0 || (List.range l.inC).all (fun k => (patchChannel cfg k).isSome)
  !(decide (1 ≤ l.op ∧ l.op ≤ 6) && decide (flags < 4) && (!l.stride2 || l.op == 1 || l.op == 3) && chained && chans
    && decide (1 ≤ l.inH ∧ l.inH ≤ 32 ∧ 1 ≤ l.inW ∧ l.inW ≤ 32)
    && !(l.op == 4 && (l.inH % 2 == 1 || l.inW % 2 == 1))
    && !((l.op == 3 || l.op == 4 || l.op == 5) && l.outC != l.inC)
    && decide (l.inH * l.inW * l.inC ≤ 131072) && decide (l.outH * l.outW * l.outCh ≤ 131072) && decide (l.reduction ≤ 65536)
    && (i + 1 != n || (l.op == 6 && l.outC == nClass cfg))
    && (l.weights == 0 || decide (l.wOff + l.weights ≤ 0x400000)) && (l.records == 0 || decide (l.qOff + 8 * l.records ≤ 0x400000)) && l.qOff % 4 == 0)

def checkNetwork (d cfg : Device) : List Breach :=
  let base := cfg.get F.CLA_CFG.LIST_BASE
  if ¬ cfg.bit F.CASC_CFG.CLA_EN then []
  else breachIf (base % 16 != 0 || decide (0x400000 < base + 16 * nLayers cfg)) 9 3 0
    ++ (List.range (nLayers cfg)).flatMap (fun i => breachIf (badLayer d cfg i) 9 3 i)

def checkJudgement (d cfg : Device) : List Breach :=
  breachIf (cfg.bit F.RSV_POWER.JDG_OFF && !(enabledViews cfg).isEmpty) 9 0 0
    ++ (List.range 128).flatMap (checkFeature cfg) ++ checkForest d cfg ++ checkNetwork d cfg
    ++ (List.range (nClass cfg)).flatMap (fun k => breachIf (decide (cfg.get (F.CASC_AMAXk.AREA_MAX k) < cfg.get (F.CASC_AMINk.AREA_MIN k))) 9 4 k)

/-! ## 10 FLIGHT (Table 9.2) -/

/-- Rows that an eject action names. -/
def namedRows (cfg : Device) : List Nat :=
  let acts := (List.range (nClass cfg)).flatMap (fun k => [cfg.get (F.CASC_ACTk.ACTION k), cfg.get (F.CASC_ACTk.ALT_ACTION k)])
    ++ (if cfg.bit F.CASC_FLAG_RULE.EN then [cfg.get F.CASC_FLAG_RULE.ACTION] else []) ++ [cfg.get F.CASC_CFG.LATE_ACTION]
  (List.range 2).filter (fun r => acts.contains (r + 1))

/-- Cell `c` of the lower view is covered in row `r`. -/
def cellCovered (cfg : Device) (r c : Nat) : Bool :=
  (inService cfg).any (fun k => spoutRow cfg (k / 128) == r && decide (cfg.get (F.EJ_Vc_MAP.X_LO k) ≤ c ∧ c ≤ cfg.get (F.EJ_Vc_MAP.X_HI k)))
    || (fwdEntries cfg).any (fun k => cfg.get (F.PAIR_FWDk_CFG.ROW k) == r &&
      decide (cfg.get (F.PAIR_FWDk_XLO.X_LO k) ≤ c + cfg.get F.PAIR_GRID_BASE.V ∧ c + cfg.get F.PAIR_GRID_BASE.V ≤ cfg.get (F.PAIR_FWDk_XHI.X_HI k)))

def checkFlight (cfg : Device) : List Breach :=
  let belt := cfg.bit F.FLY_CFG.MODE
  let upper := viewOn cfg 0 || viewOn cfg 1
  let lower := viewOn cfg 2 || viewOn cfg 3
  let dul := cfg.get F.FLY_DUL.D_UL
  let vmin := cfg.get F.FLY_VMIN.VMIN
  let vmax := cfg.get F.FLY_VMAX.VMAX
  let vi := cfg.get F.FLY_VINIT.V_INIT
  let g := cfg.get F.FLY_GEFF.G
  let rows := rowsInUse cfg
  let on := (List.range 4).filter (spoutOn cfg)
  breachIf (if belt then upper else upper && lower && decide (dul = 0 ∨ 500000 < dul)) 10 1 0
    ++ (List.range 2).flatMap (fun r =>
      let dle := cfg.get (F.FLY_DLEr.DLE r)
      breachIf ((rows.contains r && (dle == 0 || (!belt && decide (2000000 < dle)))) || ((namedRows cfg).contains r && !rows.contains r)) 10 2 r)
    ++ breachIf (vmin == 0 || decide (vmax ≤ vmin) || decide (16000 * 65536 < vmax) || decide (vi < vmin ∨ vmax < vi)
        || decide (g < 1000 * 65536 ∨ 20000 * 65536 < g)) 10 3 0
    ++ breachIf (cfg.get F.FLY_SMARGIN.SCORE_MARGIN == 0 || cfg.get F.FLY_LANE.LANE_W == 0) 10 4 0
    ++ (inService cfg).flatMap (fun c => breachIf (decide (cfg.get (F.EJ_Vc_MAP.X_HI c) < cfg.get (F.EJ_Vc_MAP.X_LO c))
        || decide (10000000 < cfg.get (F.EJ_Vc_OPEN.OPEN_LEAD c)) || decide (10000000 < cfg.get (F.EJ_Vc_CLOSE.CLOSE_LEAD c))) 10 6 c)
    ++ (namedRows cfg).flatMap (fun r => match (List.range (Nat.max (viewWidth cfg 2) (viewWidth cfg 3))).find? (fun c => !cellCovered cfg r c) with
        | some c => [(10, 6, c)]
        | none => [])
    ++ (List.range 4).flatMap (fun p => breachIf (cfg.get (F.SPn_CFG.LEASE p) == 0 || decide (10000 < cfg.get (F.SPn_LEAD.LINK_LEAD p))
        || (on.contains p && on.any (fun o => decide (o < p) && spoutRow cfg o == spoutRow cfg p && cfg.get (F.SPn_CFG.SEGMENT o) == cfg.get (F.SPn_CFG.SEGMENT p)))) 10 7 p)

/-! ## 11 AXIS (Table 10.5), 12 MONITOR (Table 11.2), 13 TIME (R25, Table 12.1), 14 DRAM (R292) -/

def checkAxis (d cfg : Device) (n : Nat) : List Breach :=
  let nb := cfg.get (F.TRAn_SSI.NBITS n)
  let dv := cfg.get (F.TRAn_SSI.DIV n)
  let source := d.bit F.TB_LINE_CFG.BELT && d.get F.TB_LINE_CFG.AXIS == n
  breachIf (decide (nb < 8 ∨ 48 < nb ∨ dv < 25 ∨ 250 < dv) || decide (cfg.get (F.TRAn_SSI.PERIOD n) * 1000 < (nb + 1) * 4 * dv + 20000)) 11 1 n
    ++ breachIf (cfg.get (F.TRAn_REF.SRC n) == 3 && decide (383 < cfg.get (F.TRAn_REF.RILL n))) 11 2 n
    ++ breachIf (source && (!cfg.bit (F.TRAn_CFG.EN n) || cfg.get (F.TRAn_CFG.TYPE n) != d.get (F.TRAn_CFG.TYPE n) || nb != d.get (F.TRAn_SSI.NBITS n)
        || cfg.get (F.TRAn_SSI.GRAY n) != d.get (F.TRAn_SSI.GRAY n) || cfg.get (F.TRAn_CFG.REVERSE n) != d.get (F.TRAn_CFG.REVERSE n))) 11 3 n

def checkMonitor (cfg : Device) (c : Nat) : List Breach :=
  let pin := cfg.get (F.MON_Cc_CFG.TYPE c) == 0
  let dec := cfg.get (F.MON_Cc_DEC.D c)
  let sig := cfg.bit (F.MON_Cc_SIG.OPEN_EN c) || cfg.bit (F.MON_Cc_SIG.CLOSE_EN c)
  breachIf (if pin then decide (15 < cfg.get (F.MON_Cc_CFG.SRC c)) else !spoutOn cfg (cfg.get (F.MON_Cc_CFG.PORT c))) 12 1 c
    ++ breachIf (if cfg.bit (F.MON_Cc_CFG.SCS c) then decide (monBlock cfg c < 4 ∨ 2 ^ 20 < monBlock cfg c) else decide (dec < 4 ∨ 4096 < dec)) 12 2 c
    ++ breachIf (sig && (pin || decide (sx 32 (cfg.rd (R.MON_Cc_HYST c)).toNat ≤ 0) || cfg.get (F.MON_Cc_SIG.WIN c) == 0)) 12 3 c

def checkTime (d cfg : Device) : List Breach :=
  let q := periodQ cfg
  let cy := cfg.get F.TB_LINE_CFG.CYCLE_LOG2
  let run := d.lining
  breachIf (run && cy != d.get F.TB_LINE_CFG.CYCLE_LOG2 && d.slu.count % 4096 != 0) 13 0 0
    ++ breachIf (decide (q < 15625 * q32 ∨ 10000000 * q32 < q)) 13 1 0
    ++ breachIf (run && cfg.bit F.TB_LINE_CFG.RUN && [R.TB_ANCHOR_LINE, R.TB_ANCHOR_T_LO, R.TB_ANCHOR_T_HI].any (fun a => cfg.rd a != d.rd a)) 13 2 0
    ++ breachIf (decide (cy < 6 ∨ 12 < cy)) 13 3 0
    ++ breachIf (cfg.bit F.TB_LINE_CFG.BELT && (viewOn cfg 0 || viewOn cfg 1)) 13 4 0

def checkDram (cfg : Device) : List Breach :=
  (List.range 9).flatMap (fun m =>
    let t := cfg.get (F.MEM_LATm.TARGET m)
    breachIf (decide (t < 250) || (cfg.bit (F.MEM_LATm.RT m) && decide (t < 1000))) 14 0 m)

/-! ## 15 CAPTURE (R326, Table 15.4), 16 EVENT (R390, Table 18.3), 17 LIVE (R177, R185) -/

def capOn (cfg : Device) (k : Nat) : Bool := cfg.get (F.CAP_Wk_CFG.TRIG k) != 0

/-- Table 15.4; the index ring is 2^IDX_LOG2 entries of 16 bytes (R333). -/
def checkCapture (d cfg : Device) : List Breach :=
  let on := (List.range 8).filter (capOn cfg)
  let load := (on.map (fun k => let w := capWindow cfg k; (w.x1 + 1 - w.x0) * (winBands w).length)).sum
  let r := capRings cfg
  let data := (r.data, 2 ^ r.dataLog)
  let idx := (r.idx, 16 * 2 ^ r.idxLog)
  let others := ((List.range 4).filter (histOn cfg)).map (ringSpan cfg) ++ [(calBase cfg, 0x800000)]
  on.flatMap (fun k =>
    let w := capWindow cfg k
    let t := cfg.get (F.CAP_Wk_CFG.TRIG k)
    breachIf (decide (w.x1 < w.x0) || decide (viewWidth cfg w.view ≤ w.x1) || !viewOn cfg w.view || w.bands == 0
      || (winBands w).any (fun b => decide (viewBands cfg w.view ≤ b)) || (decide (2 ≤ t) && cfg.get (F.CAP_Wk_NBLK.NBLK k) == 0)
      || decide (383 < cfg.get (F.CAP_Wk_CFG.RILL k)) || decide (16 * periodQ cfg < load * q32)) 15 1 k)
    ++ breachIf (cfg.bit F.CAP_CTRL.EN && (decide (r.dataLog < 24 ∨ 33 < r.dataLog ∨ r.idxLog < 12 ∨ 24 < r.idxLog)
      || r.data % 2 ^ r.dataLog != 0 || r.idx % idx.2 != 0 || !insideDram d data.1 data.2 || !insideDram d idx.1 idx.2
      || spansMeet data idx || others.any (fun o => spansMeet data o || spansMeet idx o))) 15 2 0

/-- Enabled cells without a flip-flop, and the longest chain of them that ends in each, followed for `n` links. -/
def chainLen (cfg : Device) (plain : List Nat) : Nat → Nat → Nat
  | 0, _ => 1
  | n + 1, k => 1 + ((plain.filter (fun j => (List.range 4).any (fun i => (cellInput cfg k i).1 == 256 + j))).map (chainLen cfg plain n)).foldl Nat.max 0

def checkEvents (d cfg : Device) : List Breach :=
  let on := (List.range 64).filter (fun k => cfg.bit (F.EVT_Ck_CFG.EN k))
  let plain := on.filter (fun k => !cfg.bit (F.EVT_Ck_CFG.FF k))
  let rill (f : Fld) (k : Nat) : List Breach := breachIf (decide (383 < cfg.get f)) 16 3 k
  on.flatMap (fun k => breachIf ((List.range 4).any (fun i => decide (384 ≤ (cellInput cfg k i).1 ∧ (cellInput cfg k i).1 ≤ 510))) 16 1 k)
    ++ plain.flatMap (fun k => breachIf (decide (8 < chainLen cfg plain 8 k)) 16 2 k)
    ++ (List.range 16).flatMap (fun p => breachIf (decide (383 < d.get (F.TIO_Pn_CFG.RILL p))) 16 3 p)
    ++ (List.range 4).flatMap (fun n => rill (F.TRAn_REF.RILL n) n) ++ (List.range 8).flatMap (fun k => rill (F.CAP_Wk_CFG.RILL k) k)
    ++ (List.range 16).flatMap (fun c => breachIf (decide (383 < d.get (F.DMAc_CFG.TRIG_RILL c))) 16 3 c)

/-- A staged forest or network reaches a word or byte written since the check began. -/
def checkLive (d cfg : Device) : List Breach :=
  let ws := forestWords d cfg
  d.slu.written.flatMap (fun a =>
    if nodeBase ≤ a ∧ a < nodeBase + 0x100000 then breachIf (ws.contains ((a - nodeBase) / 8)) 17 0 ((a - nodeBase) / 8)
    else if weightBase ≤ a ∧ a < weightBase + 0x400000 then breachIf (weightUsed d cfg (a - weightBase)) 17 0 (a - weightBase)
    else [])

/-! ## 18 POWER (R416 to R418, R425) -/

/-- V_F in node visits per second (Table 20.1). -/
def visits (d cfg : Device) : Nat := Nat.min 2560000000 (2000000 * cfg.get F.FOR_CFG.NTREES * forestDepth d cfg)

/-- P_LEAK of a case temperature in mW (Table 20.2, worst corner). -/
def leakMw (t : Nat) : Nat :=
  let rows := [(25, 3500), (45, 5000), (65, 7100), (85, 10000), (105, 14100), (125, 19800)]
  let step (a b : Nat × Nat) : Nat := (rneDiv ((a.2 * (b.1 - t) + b.2 * (t - a.1) : Nat) : Int) 20).toNat
  ((rows.zip (rows.drop 1)).find? (fun e => decide (e.1.1 ≤ t ∧ t ≤ e.2.1))).elim 0 (fun e => step e.1 e.2)

/-- Milliwatts of a camera receive lane. -/
def laneMw (rate : Nat) : Nat := match rate with | 1 => 35 | 2 => 45 | 3 => 62 | _ => 0

/-- P_dyn in mW as a fraction (R417, Table 20.1): numerator and denominator. -/
def powerDyn (d cfg : Device) : Nat × Nat :=
  let q := Nat.max 1 (periodQ cfg)
  let ports := (List.range 12).filter (fun p => cfg.get (F.CPn_CFG.HEAD_EN p) != 0)
  let fixed := (ports.map (fun p => 100 + portLanes cfg p * laneMw (cfg.get (F.CPn_CFG.RATE p)))).sum + 200 + 1000
    + (if cfg.bit F.ETH_CFG.EN then 1600 else 0) + 279 * ((List.range 3).filter (fun n => cfg.bit (F.PEERn_CFG.EN n))).length
    + 90 * ((List.range 4).filter (spoutOn cfg)).length + 1800 + 500
  let e := if d.bit F.MEM_CFG.ECC_EN then 9 else 8
  -- history bytes of two lines, so that both scales count whole
  let hist2 := (((List.range 4).filter (histOn cfg)).map (fun v => rowPitch cfg v * (if histScale cfg v = 2 then 1 else 2))).sum
  let den := q * 16 * 10000000000
  (fixed * den + (108 * sumCorrection cfg + 40 * sumGeometry cfg + 150 * sumSegments cfg) * q32 * 16 * 10000000000
    + visits d cfg * 3125 * q * 16 + (hist2 * q32 + 4 * q) * e * 70 * 10000000000, den)

/-- P_RT in mW. -/
def powerRt (d cfg : Device) : Nat :=
  let (n, den) := powerDyn d cfg
  (rneDiv ((115 * n : Nat) : Int) (100 * den)).toNat + leakMw (cfg.get F.RSV_TCASE.T_CASE)

/-- The floor step of NCLK as its code: the lowest step with 2.56 × 10^9 × f / 1,200 ≥ 1.25 × V_F (R425). -/
def floorStep (d cfg : Device) : Nat :=
  let ok (mhz : Nat) : Bool := decide (5 * visits d cfg * 1200 ≤ 4 * 2560000000 * mhz)
  if ok 300 then 3 else if ok 600 then 2 else if ok 900 then 1 else 0

def checkPower (d cfg : Device) : List Breach :=
  let lim := cfg.get F.RSV_LIMIT.LIMIT
  let t := cfg.get F.RSV_TCASE.T_CASE
  breachIf (decide (lim < 20000 ∨ 52000 < lim)) 18 1 0
    ++ breachIf (decide (25 ≤ t ∧ t ≤ 125) && decide (lim < powerRt d cfg + 3000)) 18 2 0
    ++ breachIf (decide (t < 25 ∨ 125 < t)) 18 3 0

/-! ## 19 CHAIN and 20 PAIR (R453, Table 21.8) -/

/-- What the far ends of the links that are up said in HELLO, the private link's apart. -/
def neighbours (d : Device) : List HelloBody :=
  (List.range 3).filterMap (fun n => if peerUp d n ∧ ¬ isPrivate d n then (d.peer n).hello else none) |>.filter (fun h => F.PAIR_CHAIN.EN.of h.pairChain == 1)

/-- Every device with a route has said HELLO on a link of this device, so that the whole chain is seen. -/
def chainSeen (d cfg : Device) : Bool :=
  (List.range 16).all (fun i => !cfg.bit (F.PAIR_ROUTEd.EN i) || i == cfg.get F.PAIR_CHAIN.ID
    || (neighbours d).any (fun h => F.PAIR_CHAIN.ID.of h.pairChain == i))

/-- Checks 19 CHAIN. Of the chain this device knows its own configuration and the HELLOs of its neighbours: that there is a ROOT and a MASTER
at all it tests where it sees the whole chain (DEDUCED, log entry "what a device knows of its chain"). -/
def checkChain (d cfg : Device) : List Breach :=
  let lo := cfg.get F.PAIR_OWN_LO.OWN_LO
  let hi := cfg.get F.PAIR_OWN_HI.OWN_HI
  let m := cfg.get F.PAIR_SLACK.SLACK + cfg.get F.BSN_CFG.WID_MAX
  let base := cfg.get F.PAIR_GRID_BASE.V
  let ns := neighbours d
  let count (f : Fld) : Nat := (ns.filter (fun h => f.of h.pairChain == 1)).length + cfg.get f
  let below := ns.any (fun h => h.ownHi == lo)
  let above := ns.any (fun h => h.ownLo == hi)
  let lower := [2, 3].filter (viewOn cfg)
  breachIf (cfg.bit F.PAIR_CHAIN.EN && (decide (hi ≤ lo) || ns.any (fun h => decide (h.ownLo < hi ∧ lo < h.ownHi))
      || (!below && ns.any (fun h => decide (h.ownHi < lo))) || (!above && ns.any (fun h => decide (hi < h.ownLo)))
      || lower.any (fun v => (below && decide (lo < base + m)) || (above && decide (base + viewWidth cfg v < hi + m)))
      || decide (1 < count F.PAIR_CHAIN.ROOT) || decide (1 < count F.PAIR_CHAIN.MASTER)
      || (chainSeen d cfg && (count F.PAIR_CHAIN.ROOT == 0 || count F.PAIR_CHAIN.MASTER == 0)))) 19 3 0
    ++ (fwdEntries cfg).flatMap (fun k =>
      breachIf ((inService cfg).any (fun c => decide (cfg.get (F.PAIR_FWDk_XLO.X_LO k) ≤ base + cfg.get (F.EJ_Vc_MAP.X_HI c) ∧ base + cfg.get (F.EJ_Vc_MAP.X_LO c) ≤ cfg.get (F.PAIR_FWDk_XHI.X_HI k)))
        || (fwdDests cfg k).any (fun t => !cfg.bit (F.PAIR_ROUTEd.EN t))) 19 4 k)

def checkPair (cfg : Device) : List Breach :=
  let toUs := cfg.get F.PAIR_TIMING.PEER_TO_US
  let c := cfg.get F.PAIR_TIMING.COMMIT_US
  breachIf (cfg.bit F.PAIR_CFG.EN && ((liveCtxs cfg).length == 48 || decide (toUs < 10 ∨ 10000 < toUs))) 20 1 0
    ++ breachIf (decide (c * 1000 < 1000 * vMax cfg + pMax cfg + 100000) || decide (2 ^ cfg.get F.TB_LINE_CFG.CYCLE_LOG2 * periodQ cfg ≤ c * 1000 * q32)) 20 2 0

/-! ## The whole check -/

/-- Every breach of the staged configuration. -/
def breaches (d : Device) : List Breach :=
  let cfg := d.withStaged
  checkCapacity cfg ++ checkLead cfg ++ checkContexts cfg ++ checkCalibration d cfg ++ checkGeometry d cfg ++ checkSegmentation cfg
    ++ checkJudgement d cfg ++ checkFlight cfg ++ (List.range 4).flatMap (checkAxis d cfg) ++ (List.range 32).flatMap (checkMonitor cfg)
    ++ checkTime d cfg ++ checkDram cfg ++ checkCapture d cfg ++ checkEvents d cfg ++ checkLive d cfg ++ checkPower d cfg
    ++ checkChain d cfg ++ checkPair cfg

/-- The breach that the hardware part reports (R410). -/
def hwBreach (d : Device) : Option Breach := firstBreach (breaches d)

end Sys2Proof.Machine
end

