-- ==== Sys2Proof/Machine/PairState.lean ====
section
/-! DEFINITION. The transitions of the pair state (R433, Table 21.2, R436, R460). -/

namespace Sys2Proof.Machine

/-- The unit is one of a pair. -/
def paired (d : Device) : Bool := d.bit F.PAIR_CFG.EN

/-- The private link is UP. -/
def privateUp (d : Device) : Bool := paired d && peerUp d (d.get F.PAIR_CFG.PORT)

/-- Role priority and claims follow the state and the epoch (R432). -/
def showPair (d : Device) : Device := (List.range 4).foldl showClaim (d.set F.PAIR_STATUS.PRI (rolePri d))

/-- The unit enters a pair state; from JOIN on the joining starts anew (R440). -/
def enterPair (d : Device) (st : Nat) : Device :=
  let p : Pair := { d.pr with lost := !privateUp d, revert := none, okRun := 0, badRun := 0, yielding := false, thenJoin := false }
  let q : Pair := if st = pairJoin then { p with compareFrom := none, sync := none, warm := none, counters := none, items := [] } else p
  let r : Pair := if st = pairActive then q else { q with outbox := [], serve := none }
  let d1 := (d.set F.PAIR_STATUS.STATE st).withPair r
  showPair { d1 with basin := { d1.basin with holdFrom := none } }

/-- Epoch + 1 modulo 4,096. -/
def nextEpoch (d : Device) : Device := d.set F.PAIR_STATUS.EPOCH (d.get F.PAIR_STATUS.EPOCH + 1)

/-- Epoch `a` is later than `b` in the half range of 12 bits. -/
def epochLater (a b : Nat) : Bool := let x := (a + 4096 - b % 4096) % 4096; 0 < x && x < 2048

/-- The partner's STATUS shows it ACTIVE. -/
def partnerActive (d : Device) : Bool := match d.pr.status with | some s => s.state == pairActive | none => false

/-- A STATUS of the partner may still come: the private link is enabled, and none has come. -/
def statusAwaited (d : Device) : Bool :=
  let p := d.get F.PAIR_CFG.PORT
  decide (p < 3) && d.bit (F.PEERn_CFG.EN p) && d.pr.status.isNone

/-- The home unit that is OFF and awaits its partner's STATUS becomes ACTIVE: the partner is not ACTIVE (Table 21.2). -/
def homeActive (d : Device) : Device :=
  if paired d ∧ d.slu.applied ∧ d.pairState = pairOff ∧ d.bit F.PAIR_CFG.HOME then enterPair d pairActive else d

/-- An apply: EN = 0 ends the pair; with EN = 1 an OFF unit joins an ACTIVE partner, and the home unit becomes ACTIVE where its partner is not
ACTIVE. Until the first STATUS of an enabled private link shows the partner, the home unit waits in OFF (DEDUCED, log entry "the home
unit's first apply"). -/
def pairApply (d : Device) : Device :=
  let d1 := d.setBit F.PAIR_STATUS.PEER_UP (privateUp d)
  if ¬ paired d1 then if d1.pairState = pairOff then showPair d1 else enterPair d1 pairOff
  else if d1.pairState ≠ pairOff then showPair d1
  else if partnerActive d1 then enterPair d1 pairJoin
  else if d1.bit F.PAIR_CFG.HOME ∧ ¬ statusAwaited d1 then enterPair d1 pairActive
  else showPair d1

/-- The unit yields (Table 21.2): its STATUS no longer shows ACTIVE until the partner's does. -/
def pairYielded (thenJoin : Bool) (d : Device) : Device :=
  if d.pairState ≠ pairActive then d
  else (d.withPair { d.pr with yielding := true, thenJoin := d.pr.thenJoin || thenJoin }).raise F.PAIR_FLAGS.YIELDED

/-- YIELD: the unit hands the active role over (Table 21.2). -/
def yieldDev (d : Device) : Device := pairYielded false d

/-- REJOIN: any state but OFF goes to JOIN. -/
def rejoinDev (d : Device) : Device := if d.pairState = pairOff then d else enterPair d pairJoin

/-- A loss mismatch (R442): an ACTIVE unit yields first, a PASSIVE one joins. -/
def pairOutOfStep (d : Device) : Device :=
  if d.pairState = pairActive then pairYielded true d
  else if d.pairState = pairPassive then enterPair d pairJoin
  else d

/-- A read of PAIR_DIGEST_LO captures the newest own digest, the partner's of that cycle (0 before it has come), the cycle and the own
LOSS (Table 21.10). -/
def digestCapture (d : Device) : Device :=
  match d.pr.own with
  | [] => d
  | o :: _ =>
    let p := match d.pr.far.find? (fun e => e.cycle = o.cycle) with | some e => e.digest | none => 0
    (((d.setPair R.PAIR_DIGEST_LO R.PAIR_DIGEST_HI o.digest).setPair R.PAIR_PDIGEST_LO R.PAIR_PDIGEST_HI p).wr R.PAIR_DIG_CYCLE
      (BitVec.ofNat 32 o.cycle)).wr R.PAIR_LOSS (BitVec.ofNat 32 o.loss)

/-- The self-test has failed (R443). -/
def pairFail (d : Device) : Device := enterPair ((d.raise F.PAIR_FLAGS.KAT_FAIL).fault faultKatFail 0) pairFailed

/-- A reset of a datapath region starts (R460). -/
def pairRegionReset (r : Nat) (d : Device) : Device := if 2 ≤ r ∧ r ≤ 5 ∧ paired d then pairYielded true d else d

/-- The reset of a datapath region has ended, or the safe state (R460, R463): the unit enters JOIN. -/
def pairRegionDone (d : Device) : Device :=
  if paired d ∧ (d.pairState = pairActive ∨ d.pairState = pairPassive ∨ d.pairState = pairJoin) then enterPair d pairJoin else d

/-- The unit becomes ACTIVE with a new epoch. -/
def takeRole (d : Device) : Device := enterPair (nextEpoch d) pairActive

/-- A PASSIVE unit takes over (R435). -/
def takeOver (d : Device) : Device :=
  if d.pairState = pairPassive then ((takeRole d).count F.PAIR_TAKEOVERS.V).raise F.PAIR_FLAGS.TAKEOVER else d

/-- A control message of a chain commit, to a device or to the partner (R411). -/
def commitTo (d : Device) (to_ : CommitRoot) (a : Nat) (m : CommitMsg) : Device :=
  match to_ with
  | .none | .snapshot => d
  | .partner =>
    let p := d.get F.PAIR_CFG.PORT
    if privateUp d then queueFrame d p { body := .commit a m, src := deviceId d, line := a } else d
  | .device id =>
    match routeTo d id with
    | some p => queueFrame d p { body := .commit a m, src := deviceId d, dst := id, line := a }
    | none => d

/-- An item leaves on the private link at once, in its chunks (R437, R438, Table 21.5). -/
def sendItem (d : Device) (a : Int) (b : ItemBody) : Device :=
  if privateUp d then
    ((List.range (itemChunks b)).foldl (fun d k =>
      queueFrame d (d.get F.PAIR_CFG.PORT) { body := .item (lineOf a) b k, src := deviceId d, line := lineOf a }) d).count F.PAIR_ITEMS_TX.V
  else d

end Sys2Proof.Machine
end

