-- ==== Sys2Proof/Machine/Sluice.lean ====
section
/-! DEFINITION. The sluice (R405 to R411, Table 19.7): staging, checking, arming, applying; and a failed boot (R402). -/

namespace Sys2Proof.Machine

def Device.withSlu (d : Device) (s : Sluice) : Device := { d with slu := s }

/-- The sluice stays in OPEN and ignores every command: boot has failed (R402), reset is held (R396), or the device is in Ethernet recovery or
test mode, in which the datapath does not start (R398). -/
def bootFailed (d : Device) : Bool :=
  match d.boot.phase with
  | .failed | .reset | .recovery | .test => true
  | .released | .dram | .done => false

/-! ## Staging (R319, R407) -/

/-- OWNER as SLU_STATE shows it. -/
def ownerCode : StagingOwner → Nat
  | .none => 0
  | .runtime => 1
  | .session _ => 2

def setOwner (d : Device) (o : StagingOwner) : Device := (d.withSlu { d.slu with owner := o }).set F.SLU_STATE.OWNER (ownerCode o)

/-- The staged content is set back to the live values. -/
def discardStaged (d : Device) : Device := d.withSlu { d.slu with staged := [], stagedTabs := [], touched := [] }

/-- A staging write of `o` is not taken: in CHECKING or ARMED, or while another owner holds the copy. -/
def stagingRefused (d : Device) (o : StagingOwner) : Bool :=
  d.sluState == sluChecking || d.sluState == sluArmed || (d.slu.owner != .none && d.slu.owner != o)

def stageReject (d : Device) : Device := (d.count F.SLU_STAGE_REJ.V).raise F.SLU_FLAGS.STAGE_REJ

/-- The RWS fields of the register at `a` as the last apply left them: of some blocks they wait to become live (R393, R428). -/
def appliedReg (d : Device) (a : Nat) : Word :=
  match (d.rsv.later ++ (d.evt.later.elim [] Prod.snd)).find? (fun e => e.1 = a) with
  | some e => e.2
  | none => d.rd a

/-- The staged value of the register at `a`, its other fields live. -/
def stagedReg (d : Device) (a : Nat) : Word :=
  let m := rwsMask a
  (d.rd a &&& ~~~ m) ||| (Sparse.get (fun _ => appliedReg d a) a d.slu.staged &&& m)

/-- The RWS fields of the register at `a` are staged with those of `w`. -/
def stageReg (d : Device) (a : Nat) (w : Word) : Device :=
  let m := rwsMask a
  d.withSlu { d.slu with staged := Sparse.put (fun k => appliedReg d k &&& m) a (w &&& m) d.slu.staged,
                         touched := if d.slu.touched.contains a then d.slu.touched else a :: d.slu.touched }

/-- The staged byte of a table. -/
def stagedTab (d : Device) (a : Nat) : Byte := Sparse.get d.tab a d.slu.stagedTabs

def stageTab (d : Device) (a : Nat) (b : Byte) : Device := d.withSlu { d.slu with stagedTabs := Sparse.put d.tab a b d.slu.stagedTabs }

/-- An owner's hold ends, other than by a commit: the staged content is discarded (R319), that of a commit in CHECKING too, which then has
nothing left to apply. -/
def ownerLeaves (d : Device) (o : StagingOwner) : Device := if d.slu.owner = o then setOwner (discardStaged d) .none else d

/-! ## A failed boot (R402) -/

/-- The lanes of the Ethernet port. -/
def ethLanes : List Lane := (List.finRange 4).map Lane.ethRx ++ (List.finRange 4).map Lane.ethTx

/-- The ROM brings up the Ethernet port in MODE 0 with the MAC address from OTP, and has KCP datagrams steered to it (Table 19.1). -/
def recoveryNet (d0 : Device) : Device :=
  let d := ethLanes.foldl lnPowerUp d0
  advertise ((((d.setBit F.ETH_CFG.EN true).set F.ETH_CFG.MODE 0).setPair R.ETH_MAC_LO R.ETH_MAC_HI (Config.otpMac % 2 ^ 48)).setBit F.KCP_CFG.EN true)

/-- Boot fails at step `stage` with a code of Table 19.6. -/
def bootFail (d : Device) (stage code : Nat) : Device :=
  let d1 := recoveryNet (((d.setBit F.CHIP_BOOT.FAIL true).set F.CHIP_BOOT.STAGE stage).set F.CHIP_BOOT.CODE code)
  { d1 with boot := { d1.boot with phase := .failed, authentic := false } }

/-- FIRST_APPLY: the cores are reset first, so that the ROM serves; DONE stays set. -/
def firstApplyFails (d : Device) : Device :=
  bootFail ((List.range 4).foldl (fun d n => if n = 0 then resetCore d 0 else if coreRuns d n then resetCore d n else d) d) 10 12

/-! ## Ends of a commit -/

/-- The final reply to a KCP COMMIT, with which the session's ownership ends unless it was check only (R319). A commit has one. -/
def commitReplied (d : Device) (code : Nat) : Device :=
  match d.slu.committer with
  | .session s =>
    let d1 := pendingEnds d s 6 (if code = 0 then kcOk else kcRefused) (leBytes 4 code)
    let d2 := d1.withSlu { d1.slu with committer := .none }
    if d2.slu.owner = .session s ∧ ¬ d2.slu.checkOnly then setOwner d2 .none else d2
  | _ => d

/-- The runtime's ownership ends with a commit that it wrote (R319). -/
def commitEnded (d : Device) : Device :=
  if d.slu.committer = .runtime ∧ d.slu.owner = .runtime then setOwner d .none else d

/-- The devices that this one has sent the commit to learn of it. -/
def tellDown (d : Device) (m : CommitMsg) : Device :=
  let a := lineOf d.slu.count
  let d1 := d.slu.members.foldl (fun d i => commitTo d (.device i) a m) d
  if d.slu.withPartner then commitTo d1 .partner a m else d1

/-- Back to OPEN with no commit in hand. -/
def toOpen (d : Device) : Device :=
  (d.set F.SLU_STATE.STATE sluOpen).withSlu
    { d.slu with part := .hardware, checkOnly := false, committer := .none, written := [], root := .none, awaited := [],
                 awaitPartner := false, members := [], withPartner := false, confirming := false }

def setResult (d : Device) (code item index : Nat) : Device :=
  ((d.set F.SLU_RESULT.CODE code).set F.SLU_RESULT.ITEM item).set F.SLU_RESULT.INDEX index

/-- A refusal is recorded: RESULT, SLU_INDEX, REFUSED and the count. -/
def recordRefusal (d : Device) (b : Breach) : Device :=
  (((setResult d b.1 b.2.1 b.2.2).set F.SLU_INDEX.INDEX b.2.2).raise F.SLU_FLAGS.REFUSED).count F.SLU_REFUSALS.V

/-- A commit in CHECKING ends with a refusal; before the first apply, boot fails unless it was check only (R406). -/
def sluRefuse (b : Breach) (d : Device) : Device :=
  let up := d.slu.root
  let d1 := commitTo (tellDown d .cancel) up (lineOf d.slu.count) .refused
  let d2 := commitEnded (commitReplied (recordRefusal (discardStaged d1) b) b.1)
  let d3 := toOpen d2
  if ¬ d.slu.applied ∧ ¬ d.slu.checkOnly then firstApplyFails d3 else d3

/-- A commit ends with CANCELLED. -/
def sluCancelled (d : Device) : Device :=
  let d1 := commitTo (tellDown d .cancel) d.slu.root (lineOf d.slu.count) .refused
  let d2 := (setResult (discardStaged d1) 23 0 0).count F.SLU_CANCELS.V
  toOpen (commitEnded (commitReplied d2 23))

/-! ## Applying (R406, R409) -/

/-- A register of the RSV page, whose staged fields wait for the first line of a cycle (R428). -/
def isRsv (a : Nat) : Bool := decide (0x10020000 ≤ a ∧ a < 0x10030000)

/-- A register of the EVT page, whose staged fields wait for the line event of the apply line (R393). -/
def isEvt (a : Nat) : Bool := decide (0x10090000 ≤ a ∧ a < 0x100A0000)

/-- Declared power and values derived from the live configuration (R195, R196, R418). -/
def showDerived (d : Device) : Device :=
  let d1 := (((d.set F.CLA_MACS.M (networkMacs d d)).set F.FLY_DT_MIN.DT (dtMin d)).set F.FLY_DT_MAX.DT (dtMax d)).set F.FLY_EXP.EXP_LINES (capN 0xFFFF (expLines d))
  (d1.set F.RSV_DECL.P_RT (powerRt d d)).set F.RSV_DECL.LEAK (leakMw (d.get F.RSV_TCASE.T_CASE))

/-- The floor step, and NCLK raised to it (R425); a higher code is a lower clock. -/
def showFloor (d : Device) : Device :=
  let f := floorStep d d
  let d1 := d.set F.RSV_STATUS.FLOOR f
  if f < d.get F.RSV_STATUS.NCLK then d1.set F.RSV_STATUS.NCLK f else d1

/-- Camera ports whose LANES, RATE or HEAD_EN an apply changes start again (R80). -/
def portsApply (old new : Device) : Device :=
  (List.range 12).foldl (fun d p =>
    let key (x : Device) : List Nat := [x.get (F.CPn_CFG.LANES p), x.get (F.CPn_CFG.RATE p), x.get (F.CPn_CFG.HEAD_EN p)]
    if key old = key d then d else portRestartDev p d) new

/-- CAP of the cascade from the live network (R179); a network without MACs has no CAP that the spec states. -/
def capApply (d0 : Device) : Device :=
  let m := networkMacs d0 d0
  let (c, d) := if m = 0 then d0.free 24 else (capN 16777215 (9600 * 2 ^ cycleLog2 d0 * periodQ d0 / (q32 * m)), d0)
  showCap { d with jud := { d.jud with capOld := d.jud.capLive, capLive := c } }

/-- What the first apply does (R406); in the safe state READY and SAFE_N stay low (Table 22.4). -/
def firstApply (d : Device) : Device :=
  if d.slu.applied then d
  else
    let d1 := ((d.setBit F.TIO_LOCK.LOCK true).setBit F.CORE_LOCK.LOCK true).setBit F.MBX_LOCK.LOCK true
    let d2 := if d.safe then d1 else (d1.setBit F.CHIP_PINS.READY true).setBit F.CHIP_PINS.SAFE_N true
    let d3 := d2.set F.CHIP_BOOT_US.V ((d.tb.edges - d.boot.releasedAt) * 2 / 1000)
    { d3 with slu := { d3.slu with applied := true }, cal := { d3.cal with firstApply := some d3.nowNs } }

/-- The blocks take the new configuration: `old` is the device before the apply, `a` the apply line. -/
def blocksApply (old : Device) (a : Int) (new : Device) : Device :=
  let d1 := monApply old (flyApply old (axesApply old (histApply old a (calApply old new))) a)
  let d2 := captureApply old (capApply (spoutApply (evtApply old d1)))
  let d3 := pairApply (peerApply (portsApply old d2))
  showFloor (showDerived d3)

/-- The staged configuration becomes live at line `a`, whose stamp is `ts` and trigger instant `t`; RSV and EVT registers where
`all`. -/
def makeLive (d : Device) (a : Int) (ts t : Nat) (all : Bool) : Device :=
  let o : OldBank := { count := a, ts := ts, t := t, now := all, regs := d.regs, tabs := d.tabs }
  let now := if all then d.slu.staged else d.slu.staged.filter (fun e => !isRsv e.1 && !isEvt e.1)
  let evt := d.slu.staged.filter (fun e => isEvt e.1)
  let d1 := { d with regs := overlayRegs now d.regs, tabs := overlayTabs d.slu.stagedTabs d.tabs,
                     rsv := { d.rsv with later := if all then [] else d.slu.staged.filter (fun e => isRsv e.1) },
                     evt := { d.evt with later := if all ∨ evt.isEmpty then none else some (t, evt) } }
  d1.withSlu { d1.slu with old := some o, staged := [], stagedTabs := [], touched := [] }

/-- Counters and status of an apply. -/
def applied (d : Device) (live : Nat) : Device :=
  let d1 := (d.set F.SLU_LIVE_LINE.V live).count F.SLU_APPLIES.V
  (d1.set F.SLU_STATE.SEQ (d1.get F.SLU_STATE.SEQ + 1)).set F.SLU_STATE.STATE sluApplied

/-- The first line count that an apply while the generator is stopped governs: the next one, or the first line of the generator that it starts
where an anchor sets it back, so that a line index triggered again is a new line (R265, R406). -/
def firstNew (d : Device) : Int :=
  let c := d.tb.count + 1
  let n := (startLines d.withStaged).tb.next
  if d.withStaged.bit F.TB_LINE_CFG.RUN ∧ n < c then n else c

/-- The instant of an apply while the generator is stopped (R406): old values for lines triggered before it. -/
def applyNow (d : Device) : Device :=
  let t := d.nowNs
  let d1 := commitEnded (commitReplied (setResult d 0 0 0) 0)
  let a := firstNew d1
  let d2 := firstApply (domainsApply (makeLive d1 a t t true))
  let d3 := blocksApply d a d2
  let d4 := applied d3 (d.get F.TB_LINE.L)
  if d4.bit F.TB_LINE_CFG.RUN then tioOnLines (portsOnLines (capRestart (startLines d4))) else d4

/-- The period or the anchor of the time base at line A, triggered at `t` (R266): a period change re-anchors there, RUN = 0 stops the
generator. -/
def linesApply (old : Device) (a : Int) (t : Nat) (d : Device) : Device :=
  let d1 :=
    if periodQ old = periodQ d then d
    else
      let d1 := (d.wr R.TB_ANCHOR_LINE (BitVec.ofNat 32 (lineOf a))).setPair R.TB_ANCHOR_T_LO R.TB_ANCHOR_T_HI t
      { d1 with tb := { d1.tb with anchor := (a, t), grids := (d1.tb.anchor.1, d1.tb.anchor.2, periodQ old) :: d1.tb.grids } }
  if d1.bit F.TB_LINE_CFG.RUN then d1 else d1.setBit F.TB_STATUS.RUNNING false

/-- SLU_APPLY: at the trigger of line A, at `t` ns with stamp `ts`, the armed configuration becomes live (R409). -/
def applyArmed (d : Device) (ts t : Nat) : Device :=
  let a := d.slu.count
  let d1 := makeLive d a ts t false
  let d2 := linesApply d a t (blocksApply d a d1)
  applied (commitEnded d2) (lineOf a)

/-! ## The check -/

/-- The apply line lies from 64 to 2^24 lines ahead, or the generator is stopped. -/
def inReach (d : Device) (a : Nat) : Bool :=
  !d.lining || (let k := lineSub a (d.get F.TB_LINE.L); decide (64 ≤ k ∧ k ≤ 2 ^ 24))

/-- The members of the chain to which the device that takes a commit sends it: those with a route (R411, R452). -/
def chainMembers (d : Device) : List Nat :=
  if d.bit F.PAIR_CHAIN.EN then
    (List.range 16).filter (fun i => d.bit (F.PAIR_ROUTEd.EN i) && i != deviceId d)
  else []

/-- The partner can take part in the commits of an ACTIVE unit: the private link is UP and it is in step or joining (R439). -/
def partnerPresent (d : Device) : Bool :=
  d.pairState == pairActive && privateUp d &&
    (match d.pr.status with | some s => s.state == pairPassive || s.state == pairJoin | none => false)

/-- The partner must pass the commit too (R439): a unit of a pair that stays one takes it, and neither its partner nor a snapshot has brought
it. -/
def needsPartner (d : Device) : Bool :=
  paired d && d.withStaged.bit F.PAIR_CFG.EN && d.slu.root != .partner && d.slu.root != .snapshot

/-- The commit comes from a root, whose confirmation it needs (R411). -/
def fromRoot (d : Device) : Bool := match d.slu.root with | .partner | .device _ => true | .none | .snapshot => false

/-- Everyone concerned has passed: armed, or applied at once where the generator is stopped. -/
def armOrApply (d : Device) : Device :=
  if d.lining then
    let d1 := commitReplied (setResult (d.set F.SLU_STATE.STATE sluArmed) 0 0 0) 0
    d1.withSlu { d1.slu with confirming := !d1.slu.members.isEmpty || d1.slu.withPartner }
  else applyNow d

/-- Everyone below has passed: a member says so to its root and waits for the confirmation, the root confirms and arms (R411). -/
def allPassed (d : Device) : Device :=
  if fromRoot d then
    (commitTo d d.slu.root (lineOf d.slu.count) .passed).withSlu { d.slu with part := .confirmation }
  else armOrApply (tellDown d .confirm)

/-- A check-only commit has passed: RESULT 0, the staged content kept (Table 19.7). -/
def checkOnlyPassed (d : Device) : Device := toOpen (commitEnded (commitReplied (setResult d 0 0 0) 0))

/-- Both parts of the check have passed. -/
def checksPassed (d : Device) : Device :=
  if d.slu.checkOnly then checkOnlyPassed d
  else if ¬ inReach d (lineOf d.slu.count) then sluRefuse (1, 0, 0) d
  else
    let ms := if fromRoot d then [] else chainMembers d
    let pp := needsPartner d
    if pp ∧ ¬ partnerPresent d then sluRefuse (20, 1, 0) d
    else if ms.isEmpty ∧ ¬ pp then allPassed d
    else
      let d1 := d.withSlu { d.slu with part := .confirmation, awaited := ms, awaitPartner := pp, members := ms, withPartner := pp }
      let d2 := ms.foldl (fun d i => commitTo d (.device i) (lineOf d.slu.count) .commit) d1
      if pp then sendItem d2 d2.slu.count (.commit d2.slu.staged d2.slu.stagedTabs) else d2

/-- Microseconds since the part of the check began. -/
def partUs (d : Device) : Nat := (d.tb.edges - d.slu.since) * 2 / 1000

/-- SLU_HW_CHECK_DONE. -/
def hwDoneDev (d : Device) : Device :=
  if d.sluState ≠ sluChecking ∨ d.slu.part ≠ .hardware then d
  else
    let d1 := (d.set F.SLU_CHECK_US.HW (capN 0xFFFF (partUs d))).set F.SLU_CHECK_US.FW 0
    match hwBreach d with
    | some b => sluRefuse b d1
    | none =>
      if d.bit F.SLU_CFG.FW_EN then
        (d1.withSlu { d1.slu with part := .firmware, since := d1.tb.edges }).raise F.SLU_FLAGS.FW_REQ
      else checksPassed d1

/-- SLU_FW_VERDICT: ignored while no firmware part is requested. -/
def fwVerdictDev (w : Word) (d : Device) : Device :=
  if d.sluState ≠ sluChecking ∨ d.slu.part ≠ .firmware then d
  else
    let d1 := d.set F.SLU_CHECK_US.FW (capN 0xFFFF (partUs d))
    if F.SLU_FW_VERDICT.VERDICT.of w = 0 then checksPassed d1
    else sluRefuse (21, F.SLU_FW_VERDICT.ITEM.of w, F.SLU_FW_VERDICT.INDEX.of w) d1

/-- SLU_FW_TIMEOUT: 20 ms after the request. -/
def fwTimeoutDev (d : Device) : Device :=
  if d.sluState ≠ sluChecking ∨ d.slu.part ≠ .firmware then d
  else sluRefuse (22, 0, 0) (d.set F.SLU_CHECK_US.FW (capN 0xFFFF (partUs d)))

/-! ## SLU_CMD -/

/-- A COMMIT in OPEN enters CHECKING, or is refused with TOO_LATE; elsewhere, and in the safe state, it is refused with BUSY and changes
nothing (R405, R407, R462). -/
def sluCommit (who : StagingOwner) (checkOnly : Bool) (from_ : CommitRoot) (d : Device) : Device :=
  if bootFailed d ∨ d.sluState ≠ sluOpen ∨ d.safe then d
  else
    let a := d.get F.SLU_APPLY_LINE.A
    if ¬ inReach d a then recordRefusal d (1, 0, 0)
    else
      let d1 := ((d.set F.SLU_STATE.STATE sluChecking).set F.SLU_ARMED_LINE.V a).count F.SLU_COMMITS.COMMIT
      d1.withSlu { d1.slu with
        part := .hardware, checkOnly := checkOnly, count := d.countOf a, written := [], committer := who, since := d.tb.edges,
        root := from_, awaited := [], awaitPartner := false, members := [], withPartner := false, confirming := false }

/-- A CANCEL: accepted in CHECKING, and in ARMED before the trigger of A − 32 on a device in no pair or chain. -/
def sluCancel (d : Device) : Device :=
  if bootFailed d then d
  else if d.sluState = sluChecking then sluCancelled d
  else if d.sluState = sluArmed ∧ d.tb.count < d.slu.count - 32 ∧ ¬ paired d ∧ ¬ d.bit F.PAIR_CHAIN.EN then sluCancelled d
  else d.raise F.SLU_FLAGS.CANCEL_REJ

/-- CHECK_ONLY in CHECKING makes the commit check only; one that has passed and waits for others ends. -/
def sluCheckOnly (d : Device) : Device :=
  if bootFailed d ∨ d.sluState ≠ sluChecking then d
  else
    let d1 := d.withSlu { d.slu with checkOnly := true }
    if d.slu.part = .confirmation then checkOnlyPassed (commitTo (tellDown d1 .cancel) d.slu.root (lineOf d.slu.count) .refused) else d1

/-- A write of SLU_CMD by `who`: COMMIT first, with CHECK_ONLY, then CANCEL (R405). -/
def sluCmdDev (who : StagingOwner) (w : Word) (d : Device) : Device :=
  let com := F.SLU_CMD.COMMIT.of w = 1
  let only := F.SLU_CMD.CHECK_ONLY.of w = 1
  let accepted := com && d.sluState == sluOpen
  let d1 := if com then sluCommit who only .none d else d
  let d2 := if only ∧ ¬ accepted then sluCheckOnly d1 else d1
  if F.SLU_CMD.CANCEL.of w = 1 then sluCancel d2 else d2

/-- Lines, flights and objects before the last apply line that some block still processes (R409). -/
def unswitched (d : Device) (o : OldBank) : Bool :=
  let lt (c : Int) : Bool := decide (c < o.count)
  d.pipes.waiting.any (fun l => lt l.count) || (List.range 8).any (fun p => match d.pipeAt p with | some l => lt l.count | none => false)
    || (List.range 4).any (fun v => (d.view v).due.any (fun e => lt e.1) || (d.view v).store.any (fun x => lt x.count))
    || [0, 1].any (fun h => (d.formQ h).any lt) || d.fly.stepQ.any lt || d.jud.objs.any (fun x => lt x.j)
    || d.fly.restarts.any (fun a => decide (a ≤ o.count)) || !d.rsv.later.isEmpty || d.evt.later.isSome
    || (List.range 32).any (fun c => (d.monChan c).outs.any (fun y => stampBefore y.made o.t))

/-- SLU_SWITCH_DONE: every block has switched. The old bank goes on governing lines before the apply line that have not come yet (R87, R409). -/
def switchDoneDev (d : Device) : Device :=
  match d.slu.old with
  | none => d
  | some o =>
    if d.sluState ≠ sluApplied ∨ unswitched d o then d
    else toOpen ((d.withSlu { d.slu with old := some { o with done := true } }).raise F.SLU_FLAGS.APPLIED)

/-- FIRST_APPLY_TIMEOUT: 2 s after step 10 with no commit in CHECKING and no first apply (R406). -/
def firstApplyTimeoutDev (d : Device) : Device :=
  if d.boot.phase ≠ .done ∨ d.slu.applied ∨ d.sluState = sluChecking then d else firstApplyFails d

end Sys2Proof.Machine
end

