-- ==== Sys2Proof/Machine/Faults.lean ====
section
/-! DEFINITION. Region resets, the safe state, supervision and the fault history (R455 to R470). -/

namespace Sys2Proof.Machine

def Device.withFlt (d : Device) (f : Flt) : Device := { d with flt := f }

/-! ## Closing a KCP session (R315) -/

/-- A session closes: its streams stop and its hold on the staging copy ends. What an ARMED commit has taken stays, so that the commit applies
at its line (Table 22.3; DEDUCED, log entry "a hold that ends in ARMED"). -/
def closeSession (id : Nat) (d : Device) : Device :=
  let e := d.eth
  let mine (s : Nat) : Bool := s == id
  let e1 : Eth := { e with
    sessions := e.sessions.filter (fun s => s.id ≠ id),
    objStream := e.objStream.filter (fun s => !mine s.session), fetch := e.fetch.filter (fun f => !mine f.session),
    capOut := e.capOut.filter (fun g => !mine g.session), objOut := e.objOut.filter (fun g => !mine g.session) }
  let d0 := d.withEth e1
  let d0' := if e.objStream.any (fun s => mine s.session) then d0.setBit F.KCP_OBJ_CTRL.EN false else d0
  let d1 := if d0'.sluState = sluArmed ∧ d0'.slu.owner = .session id then setOwner d0' .none else ownerLeaves d0' (.session id)
  let d2 := d1.setBit F.KCP_CAP_CTRL.BUSY (e1.fetch.isSome)
  if d2.slu.committer = .session id then d2.withSlu { d2.slu with committer := .none } else d2

/-! ## What a reset clears (R458, R459, Table 22.3) -/

/-- Control: cores restart, mailboxes and locks clear, DMA channels and CRC units go idle, logic cells clear, KCP sessions close, peer
links are lost, events in the fabric are gone, a commit in CHECKING is cancelled. -/
def clearControl (d : Device) : Device :=
  let d0 := if d.sluState = sluChecking then sluCancelled d else d
  let d0' := (List.range 3).foldl (fun d n => if d.peerState n = plUp then peerLoss n d else d) d0
  let d1 := mbxClear (latchPlic ((List.range 10).foldl lockMasterReset ((List.range 4).foldl (fun d n => coreResetDev n d) d0')))
  let d2 := (List.range 16).foldl (fun d c => (setDma d c dmIdle).set (F.DMAc_STATUS.SHADOW_VALID c) 0) { d1 with dma := Vector.replicate 16 {}, dmaOut := [] }
  let d3 := (List.range 8).foldl (fun d u => crcShow (d.setPair (R.CRCu_STATE_LO u) (R.CRCu_STATE_HI u) 0) u) { d2 with crc := Vector.replicate 8 {} }
  let d4 := (List.range 64).foldl (fun d k => (d.setCell k {}).setBit (F.EVT_Ck_CFG.OUT k) false) d3
  let d5 := { d4 with evt := { d4.evt with inflight := [] } }
  (d5.eth.sessions.map Session.id).foldl (fun d i => closeSession i d) d5

/-- Intake: enabled ports return to DISABLED, a calibration run is abandoned, the pipes and the open statistics blocks are discarded. -/
def clearIntake (d : Device) : Device :=
  let d0 := (List.range 12).foldl (fun d p => d.setPort p { d.port p with ingress := 0, rx := {} }) d
  let d1 := (List.range 12).foldl (fun d p => if d.portState p = psDisabled then d else portRestartDev p d) d0
  let d3 := discardRun d1
  let p : Pipes := { d3.pipes with waiting := [], pipe := Vector.replicate 8 none, openBlock := Vector.replicate 48 none }
  showWaiting { d3.set F.PIPE_STATUS.BUSY 0 with pipes := p, cal := { d3.cal with sets := [], olds := [] } }

/-- Vision: open objects, seeds, waiting objects, sightings and the upper store are discarded; lines in hand become lost-line markers. -/
def clearVision (d : Device) : Device :=
  let d1 := (List.range 4).foldl (fun d v =>
    let x := d.view v
    d.setView v { x with due := x.due.map (fun e => (e.1, e.2.1, true)), store := x.store.map (fun l => { l with bands := none }), half := none, rows := [] }) d
  clearObjects { d1 with geo := { d1.geo with stored := [] } }

/-- Actuation: the window pool is emptied, the axes and the monitoring channels start again. -/
def clearActuation (d : Device) : Device :=
  (List.range 4).foldl axisReset (monRestart (spoutsClear (d.setWindows [])))

/-- Capture: groups and blocks in hand are discarded. -/
def clearCapture (d : Device) : Device := showCapture { d with cap := { d.cap with groups := [], buffer := [] } }

def clearRegion (r : Nat) (d : Device) : Device :=
  match r with
  | 1 => clearControl d
  | 2 => clearIntake d
  | 3 => clearVision d
  | 4 => stopJudgement d
  | 5 => clearActuation d
  | _ => d

/-! ## The safe state (R462, Table 22.4) -/

/-- A level-4 cause: recorded, and outside the safe state it is entered. -/
def enterSafe (code index : Nat) (d : Device) : Device :=
  let d0 := d.fault code index
  if d.safe then d0
  else
    let d1 := ((d0.setBit F.FLT_STATUS.SAFE true).set F.FLT_STATUS.SAFE_CODE code).raise F.FLT_FLAGS.SAFE_ENTERED
    let d2 := (d1.count F.FLT_SAFE_COUNT.V).set (⟨R.FLT_SUPPLY, 25, 16⟩) ((d1.flt.badRails.map (fun k => 2 ^ k)).sum)
    let d3 := (d2.setBit F.CHIP_PINS.SAFE_N false).setBit F.CHIP_PINS.READY false
    let d4 := tioSafe (spoutsSafe (d3.withFlt { d3.flt with controlHeld := d.resetting 1 }))
    let d5 := clearCapture (stopJudgement (clearVision (clearIntake d4)))
    let d6 := showCap ((d5.set F.RSV_POWER.JDG_STATE 2).set F.RSV_POWER.CAPT_STATE 2)
    if code = faultMemory then (List.range 4).foldl (fun d n => (d.set (F.MEMn_STATUS.STATE n) msTrain).setCtl n {})
      { d6 with dram := { d6.dram with done := [] } } else d6

/-- Chip causes of one code that arrive in one cycle, one per INDEX in ascending order: FLT_LAST shows the first (R455). In the safe state
they are only recorded (R464). -/
def chipCauses (code : Nat) (indices : List Nat) (d : Device) : Device :=
  match indices with
  | [] => d
  | k :: t => t.foldl (fun d j => d.faultAfter code j) (enterSafe code k d)

/-! ## Region resets (R457, R461) -/

/-- DMA channels that touch region `r` halt under R374: at their write there, or at the read behind the data that they hold, which goes out
first. -/
def dmaRegion (r : Nat) (d : Device) : Device :=
  (List.range 16).foldl (fun d c =>
    let inside (a : Nat) : Bool := regionOf a == some r
    let held := (unit d.dma c).data.length
    if inside (dmaDst d c) ∧ (held ≠ 0 ∨ ¬ inside (dmaSrc d c)) then dmaStops d c (dmaDst d c) true 0
    else if inside (dmaSrc d c) then dmaStops d c (dmaSrc d c + if d.bit (F.DMAc_CFG.SRC_FIX c) then 0 else held) false 0
    else d) d

/-- Steps 1 and 2 of Table 22.2. -/
def beginReset (r : Nat) (d : Device) : Device :=
  let d1 := d.setBit (F.FLT_STATUS.RESETTING.bitN (r - 1)) true
  let d2 := (dmaRegion r d1).count ⟨R.FLT_Rr_RESETS (r - 1), 31, 0⟩
  let d3 := d2.withFlt { d2.flt with phase := withUnit d2.flt.phase (r - 1) .draining }
  let d4 := if r = 5 then tioSafe (spoutsSafe d3) else d3
  pairRegionReset r (if r = 4 then stopJudgement d4 else d4)

/-- The region can start no reset: it is resetting, or the safe state holds it. -/
def cannotReset (r : Nat) (d : Device) : Bool := d.resetting r || (d.safe && r != 1)

/-- The starts of region `r` within the last 60 s of transport time, one now among them (R461). -/
def resetStarts (r : Nat) (d : Device) : List Nat :=
  d.nowNs :: (unit d.flt.starts (r - 1)).filter (fun t => decide ((d.nowNs + 2 ^ 64 - t) % 2 ^ 64 < 60000000000))

/-- A reset of region `r` now would be the last of ESC_MAX within 60 s, so that it enters the safe state instead. -/
def escalates (r : Nat) (d : Device) : Bool :=
  !cannotReset r d && decide (Nat.max 1 (d.get F.FLT_CFG.ESC_MAX) ≤ (resetStarts r d).length)

/-- A reset of region `r` (1 to 5) starts, or enters the safe state with cause ESCALATION. -/
def startReset (r : Nat) (d : Device) : Device :=
  if cannotReset r d then d
  else
    let d1 := d.withFlt { d.flt with starts := withUnit d.flt.starts (r - 1) (resetStarts r d) }
    if escalates r d then enterSafe faultEscalation r (d1.raise F.FLT_FLAGS.ESCALATED) else beginReset r d1

/-- A level-3 fault (R457): recorded; of the Memory region it enters the safe state with cause MEMORY. A chip cause that it gives is
recorded before it (R455). -/
def regionFault (code index : Nat) (d : Device) : Device :=
  let r := faultRegion code
  if r = 6 then (enterSafe faultMemory index d).faultAfter code index
  else if escalates r d then (startReset r d).faultAfter code index
  else startReset r (d.fault code index)

/-- The requests of regions `rs` are recorded, in ascending order, and where `after` behind a fault of the same cycle (R455). -/
def recordRequests (after : Bool) (rs : List Nat) (d : Device) : Device :=
  match rs with
  | [] => d
  | r :: t => t.foldl (fun d r => d.faultAfter (faultRequested r) 0) (if after then d.faultAfter (faultRequested r) 0 else d.fault (faultRequested r) 0)

/-- The regions whose bit is set and that can start a reset. -/
def requestedRegions (bits : Nat) (d : Device) : List Nat := ((List.range 5).filter (bitAt bits)).map (· + 1) |>.filter (fun r => !cannotReset r d)

/-- A write of RESET_REGION with its five bits: a region that cannot start a reset ignores it. Where one of the resets enters the safe state,
the chip cause is recorded first (R455, R461). `after`: another fault of the cycle has been recorded. -/
def requestResets (after : Bool) (bits : Nat) (d : Device) : Device :=
  let rs := requestedRegions bits d
  match rs.find? (fun r => escalates r d) with
  | none => rs.foldl (fun d r => startReset r d) (recordRequests after rs d)
  | some r =>
    let d1 := rs.foldl (fun d k => d.faultAfter (faultRequested k) 0) (startReset r d)
    (rs.filter (fun k => k ≠ r)).foldl (fun d k => startReset k d) d1

/-- RESET_REGION: a write with its bits, a level-3 fault with its code and INDEX, a cell or block fault that is only recorded, or an
uncorrectable read of SRAM or TCM, which ends with a bus error for its reader (Table 22.7). -/
def resetRegionDev (c : ResetCause) (d : Device) : Device :=
  match c with
  | .write bits => requestResets false bits d
  | .fault code index =>
    if faultRegion code < 1 ∨ 6 < faultRegion code then d
    else if faultLevel code = 3 then regionFault code index d
    else if faultLevel code = 1 ∨ faultLevel code = 2 then d.fault code index
    else d
  | .memUncorr m addr => busError (d.fault faultMemUncorr 0) (masterId m) addr false causeRefused

def regionPhase (d : Device) (r : Nat) : RegionPhase := unit d.flt.phase (r - 1)

/-- REGION_DRAINED: steps 3 and 4 of Table 22.2. -/
def regionDrainedDev (r : Nat) (d : Device) : Device :=
  if regionPhase d r ≠ .draining then d
  else
    let d1 := clearRegion r d
    d1.withFlt { d1.flt with phase := withUnit d1.flt.phase (r - 1) .held }

/-- The region starts from its live configuration (Table 22.3). -/
def restartRegion (r : Nat) (d : Device) : Device :=
  match r with
  | 2 => (List.range 12).foldl (fun d p => portOn d p) ((List.range 48).foldl rewriteLive d)
  | 3 => restartLanes ((List.range 4).foldl (fun d v => if d.bit (F.GEO_Vv_HIST.HIST_EN v) ∧ viewOn d v then (ringEmpty d d v).setView v { d.view v with starts := [] } else d) d) d
  | 5 => spoutsAwait (d.setWindows [])
  | 1 => { d with evt := { d.evt with inflight := [] } }
  | _ => d

/-- REGION_RESTART: step 5 of Table 22.2; a region that the safe state holds stays held, the Control region too where it was in reset as the
safe state began (R461). -/
def regionRestartDev (r : Nat) (d : Device) : Device :=
  if regionPhase d r ≠ .held ∨ (d.safe ∧ (r ≠ 1 ∨ d.flt.controlHeld)) then d
  else
    let d1 := d.withFlt { d.flt with phase := withUnit d.flt.phase (r - 1) .running }
    let d2 := restartRegion r ((d1.setBit (F.FLT_STATUS.RESETTING.bitN (r - 1)) false).raise F.FLT_FLAGS.REGION_RESET)
    if 2 ≤ r then pairRegionDone d2 else d2

/-! ## Leaving the safe state (R463) -/

/-- Every condition of R463 holds. -/
def exitAllowed (d : Device) : Bool :=
  d.safe && d.flt.badRails.isEmpty && d.flt.refOk
    && (match d.flt.lastWarm with | some t => decide (t + 1000000000 ≤ d.trueNs) | none => true)
    && (d.get F.FLT_STATUS.SAFE_CODE != faultMemory || (List.range 4).all (fun n => d.memState n == msRun))

/-- An accepted exit: the regions are reset under Table 22.2 and restart. Before the first apply SAFE_N and READY stay low (R397). -/
def leaveSafe (d : Device) : Device :=
  let d0 := (d.withFlt { d.flt with controlHeld := false }).setBit F.FLT_STATUS.SAFE false
  let d1 := if d.slu.applied then (d0.setBit F.CHIP_PINS.SAFE_N true).setBit F.CHIP_PINS.READY true else d0
  let on (off st : Fld) (d : Device) : Device := if d.bit off then d else d.set st 1
  let d2 := on F.RSV_POWER.CAPT_OFF F.RSV_POWER.CAPT_STATE (on F.RSV_POWER.JDG_OFF F.RSV_POWER.JDG_STATE (clearCapture d1))
  pairRegionDone ([2, 3, 4, 5].foldl (fun d r => if d.resetting r then d else beginReset r d) d2)

/-- EXIT: ignored with EXIT_REJ unless every condition holds and no chip cause falls in the same cycle (R463, R464). -/
def exitDev (withCause : Bool) (d : Device) : Device :=
  if exitAllowed d ∧ ¬ withCause then leaveSafe d else d.raise F.FLT_FLAGS.EXIT_REJ

/-! ## The fault history (R469, R470) -/

/-- HIST_CLEAR: every entry becomes zeros, SEQ continues. -/
def histClearDev (d : Device) : Device :=
  let lo := histAddr 0
  if mramFails d then d.raise F.FLT_FLAGS.HIST_ERR
  else { d with mem := d.mem.filter (fun c => !decide (lo ≤ c.1 ∧ c.1 < lo + 65536)) }

/-- SEQ of the next entry at start-up: one above the newest entry with a valid CRC. -/
def histNext (d : Device) : Nat :=
  let seqs := (List.range 2048).filterMap (fun k => let a := histAddr k; if histValid d a ∧ d.num a 4 % 2048 = k then some (d.num a 4) else none)
  match seqs with
  | [] => 0
  | s :: t => (t.foldl (fun m x => if lineBefore m x then x else m) s + 1) % 2 ^ 32

/-- A write of FLT_CTRL: SAFE, EXIT, HIST_CLEAR, RESET_REGION. A chip cause that SAFE or an escalating reset gives falls in the same cycle as
EXIT (R464). -/
def fltCtrlDev (w : Word) (d : Device) : Device :=
  let safe : Bool := F.FLT_CTRL.SAFE.of w = 1
  let bits := F.FLT_CTRL.RESET_REGION.of w
  let d1 := if safe then enterSafe faultFwRequest 0 d else d
  let cause := safe || (requestedRegions bits d).any (fun r => escalates r d)
  let d2 := if F.FLT_CTRL.EXIT.of w = 1 then exitDev cause d1 else d1
  let d3 := if F.FLT_CTRL.HIST_CLEAR.of w = 1 then histClearDev d2 else d2
  requestResets safe bits d3

/-- Code of a chip cause. -/
def chipCode : ChipCause → Nat
  | .tjMax => faultTjMax
  | .supply => faultSupply
  | .refclk => faultRefclk
  | .escalation => faultEscalation
  | .memory => faultMemory
  | .fwRequest => faultFwRequest

/-- A write of EXIT: a chip cause of the same cycle is recorded and the exit is refused (R464). -/
def fltExitDev (cause : Option (ChipCause × Nat)) (d : Device) : Device :=
  match cause with
  | none => exitDev false d
  | some (c, k) => exitDev true (enterSafe (chipCode c) k d)

/-! ## Supervision (R465 to R467) -/

/-- Nominal value in mV of rail `k` (Table 23.3); VDD_CORE and VDD_TIO have the set points of R475. -/
def railNominal (d : Device) (k : Nat) : Nat :=
  if k = 0 then d.flt.coreSet else if k = 8 then d.flt.tioSet else [0, 800, 850, 1200, 500, 1050, 850, 1800, 0, 1800].getD k 0

/-- The level in mV lies outside ± `pct` % of the rail's nominal value. -/
def railOutside (d : Device) (k pct level : Nat) : Bool :=
  decide (pct * railNominal d k < 100 * ((level : Int) - railNominal d k).natAbs)

/-- The set point of VDD_CORE lies below V_AVS − 3 % or above 0.845 V, so WARN bit 0 reads 1 until reset (R475). -/
def coreSetBad (d : Device) : Bool := decide (100 * d.flt.coreSet < 97 * Config.vAvs ∨ 845 < d.flt.coreSet)

/-- A sample of the ten rails, above −15 % each. -/
def supplyJudge (levels : List Nat) (d : Device) : Device :=
  let ks := (levels.zip (List.range 10))
  let warn := (ks.filter (fun e => railOutside d e.2 5 e.1 || (e.2 == 0 && coreSetBad d))).map Prod.snd
  let bad := (ks.filter (fun e => railOutside d e.2 10 e.1)).map Prod.snd
  let now := ks.any (fun e => railOutside d e.2 5 e.1)
  let twice := bad.filter (fun k => d.flt.badRails.contains k)
  let d1 := (d.set (⟨R.FLT_SUPPLY, 9, 0⟩) ((warn.map (fun k => 2 ^ k)).sum)).raiseIf now F.FLT_FLAGS.SUPPLY_WARN
  chipCauses faultSupply (twice.filter (fun k => !d.flt.railCauses.contains k))
    (d1.withFlt { d1.flt with badRails := bad, railCauses := twice })

/-- REFCLK: SYS_REFCLK is lost or off frequency, or a PLL has lost lock. -/
def refclkDev (d : Device) : Device :=
  if d.flt.refOk then enterSafe faultRefclk 0 (d.withFlt { d.flt with refOk := false }) else d

/-- SYS_REFCLK_RETURN. -/
def refclkReturnDev (d : Device) : Device := d.withFlt { d.flt with refOk := true }

/-- ENERGY_METER_SAMPLE: energies of the regions in 2^-16 µJ, and the junction sensors in 0.125 °C; two samples at 140 °C or more of one
sensor enter the safe state. -/
def energySampleDev (energy : List Nat) (temps : List Int) (d : Device) : Device :=
  let d1 := meterSample energy temps d
  let hot := ((temps.zip (List.range 16)).filter (fun e => decide (1120 ≤ e.1))).map Prod.snd
  let warm := temps.any (fun t => decide (1000 < t))
  let twice := hot.filter (fun k => d.flt.hot.contains k)
  chipCauses faultTjMax (twice.filter (fun k => !d.flt.hotCauses.contains k))
    (d1.withFlt { d1.flt with hot := hot, hotCauses := twice, lastWarm := if warm then some d1.trueNs else d1.flt.lastWarm })

def execResetRegion (cause : ResetCause) (s : State) : Outcome :=
  s.done (match cause with
    | .write bits => regAccess R.FLT_CTRL true (resetRegionDev (.write bits)) s.dev
    | c => resetRegionDev c s.dev)
def execRegionDrained (r : Fin 5) (s : State) : Outcome := s.done (regionDrainedDev (r + 1) s.dev)
def execRegionRestart (r : Fin 5) (s : State) : Outcome := s.done (regionRestartDev (r + 1) s.dev)
def execFltSafe (s : State) : Outcome := s.done (regAccess R.FLT_CTRL true (enterSafe faultFwRequest 0) s.dev)
def execFltExit (cause : Option (ChipCause × Nat)) (s : State) : Outcome := s.done (regAccess R.FLT_CTRL true (fltExitDev cause) s.dev)
def execHistClear (s : State) : Outcome := s.done (regAccess R.FLT_CTRL true histClearDev s.dev)
def execRefclk (_cause : RefclkCause) (s : State) : Outcome := s.done (refclkDev s.dev)
def execSysRefclkReturn (s : State) : Outcome := s.done (refclkReturnDev s.dev)
def execEnergyMeterSample (energy : List Nat) (temps : List Int) (s : State) : Outcome := s.done (energySampleDev energy temps s.dev)

end Sys2Proof.Machine
end

