-- ==== Sys2Proof/Machine/LaneCmds.lean ====
section
/-! DEFINITION. The commands of the serial lanes, the camera ports, the pipes, geometry, calibration and the DRAM controllers: each brings
the lane, port or unit to its next state and lets the port behind it follow. -/

namespace Sys2Proof.Machine

/-- The port behind a lane follows the lane's state (R80, R447). -/
def laneCheck (l : Lane) (d : Device) : Device :=
  match l with
  | .cpRx p _ => portCheck p d
  | .cpBc p => portCheck p d
  | .peerRx n _ => peerCheck n d
  | _ => d

/-- A write of RETRAIN (R49). -/
def retrainDev (l : Lane) (d : Device) : Device :=
  match l with
  | .cpRx p k => camRetrain p k d
  | .peerRx n k => peerRetrain n k d
  | _ => d

/-- The port behind a lane takes the columns that the lane's symbols complete (R56). -/
def portReceive (l : Lane) (d : Device) : Device :=
  match l with
  | .cpRx p _ => camReceive p d
  | .peerRx n _ => peerReceive n d
  | _ => d

/-- A group arrives: the lane takes it, its port follows the lane's state and takes its symbols (R41, R56). -/
def codeGroupDev (l : Lane) (group phase t : Nat) (d : Device) : Device := portReceive l (laneCheck l (lnGroup d l group phase t))

/-- A scan ends: the lane's measurement, and training or the eye policy of the port (R43, R47, R54). -/
def eyeScanDev (l : Lane) (scan : EyeScan) (d : Device) : Device :=
  let ew := scanEw d l scan
  let eh := scanEh d l scan
  let d1 := lnEyeScan d l ew eh
  match l with
  | .cpRx p k => camEyeScan p k ew eh d1
  | .peerRx n k => peerEyeScan n k ew eh d1
  | _ => d1

/-- All lanes. -/
def allLanes : List Lane :=
  (List.finRange 12).flatMap (fun p => (List.finRange 4).map (Lane.cpRx p)) ++ (List.finRange 12).map Lane.cpBc
    ++ (List.finRange 3).flatMap (fun n => (List.finRange 2).flatMap (fun k => [Lane.peerRx n k, Lane.peerTx n k]))
    ++ (List.finRange 4).flatMap (fun n => [Lane.spRx n, Lane.spTx n, Lane.ethRx n, Lane.ethTx n])

/-- The lane whose layout holds address `a`. -/
def laneAt (a : Nat) : Option Lane := allLanes.find? (fun l => laneBase l == a / 256 * 256)

/-- A write of LN_CTRL (R53): its plain fields, of which CDR_BW is a receive lane's only; POWER (3 is ignored, R51); and RETRAIN. POWER
moves any lane, a camera lane that its port does not use too, which R55 leaves OFF unless firmware writes it (DESIGN CHOICE, log entry
"firmware and unused lanes"). -/
def lnCtrlDev (l : Lane) (w : Word) (d : Device) : Device :=
  let b := laneBase l
  let plain : Word := (if laneIsRx l then (F.LN_CTRL.CDR_BW b).mask else 0#32) ||| (F.LN_CTRL.PRBS b).mask ||| (F.LN_CTRL.POLINV b).mask
  let d1 := d.wr (R.LN_CTRL b) ((d.rd (R.LN_CTRL b) &&& ~~~ plain) ||| (w &&& plain))
  let p := (F.LN_CTRL.POWER b).of w
  let d2 :=
    if p = d.get (F.LN_CTRL.POWER b) ∨ p = 3 then d1
    else laneCheck l (if p = 2 then lnPowerUp d1 l else lnPowerDown d1 l (p = 1))
  if laneTrains l ∧ (F.LN_CTRL.RETRAIN b).of w = 1 then retrainDev l d2 else d2

/-- LINE_PACKET_RECEIVE: the line packet that has ended in the port; an accepted line goes to the calibration block's temperatures and to
the pipes (R65, R89, R108). -/
def linePacketDev (p : Nat) (d : Device) : Device :=
  match (d.port p).rx.events with
  | .line framed bytes :: _ =>
    match linePacket p framed bytes (popEvent d p) with
    | (d1, none) => d1
    | (d1, some l) => offerLine (calAccept d1 l) l
  | _ => d

/-- DESKEW_COLUMN of a camera or a peer link. -/
def deskewDev (l : TrainLink) (d : Device) : Device :=
  match l with
  | .camera p => deskewColumnDev p d
  | .peer n => peerDeskewDev n d

/-- TRAIN_REPLY on a camera or a peer link. -/
def trainReplyDev (l : TrainLink) (word : Word) (d : Device) : Device :=
  match l with
  | .camera p => trainReplyCam p d
  | .peer n => peerTrainReply n word.toNat d

/-- TRAIN_REQ_TIMEOUT on a camera or a peer link. -/
def trainTimeoutDev (l : TrainLink) (d : Device) : Device :=
  match l with
  | .camera p => camTrainTimeout p d
  | .peer n => peerTrainTimeout n d

/-- MEM_TRAIN_DONE: RUN, or FAIL with its fault and, during start-up, a failed boot (R298, R402). In the safe state with cause MEMORY the
controllers train again without a write of INIT, one that failed too (R463). -/
def memTrainDoneDev (n : Nat) (ok : Bool) (d : Device) : Device :=
  let d1 := memTrained n ok d
  if d.memState n ≠ msTrain ∧ ¬ (d.memState n = msFail ∧ d.safe ∧ d.get F.FLT_STATUS.SAFE_CODE = faultMemory) then d
  else if ok then d1
  else
    let d2 := (regionFault faultTrainFail n d1).set (F.MEMn_STATUS.STATE n) msFail
    if d.boot.phase = .dram then bootFail d2 7 11 else d2

def execLanePowerUp (l : Lane) (s : State) : Outcome := s.done (laneCheck l (lnPowerUp s.dev l))
def execLanePowerDown (l : Lane) (standby : Bool) (s : State) : Outcome := s.done (laneCheck l (lnPowerDown s.dev l standby))
def execLaneWakeDone (l : Lane) (s : State) : Outcome := s.done (laneCheck l (lnWakeDone s.dev l))
def execLaneShutdownDone (l : Lane) (s : State) : Outcome := s.done (laneCheck l (lnShutdownDone s.dev l))
def execLossOfSignal (l : Lane) (s : State) : Outcome := s.done (laneCheck l (lnSignalLost s.dev l))
def execSignalPresent (l : Lane) (s : State) : Outcome := s.done (laneCheck l (lnSignalPresent s.dev l))
def execCdrLocked (l : Lane) (s : State) : Outcome := s.done (laneCheck l (lnCdrLocked s.dev l))
def execLockLost (l : Lane) (s : State) : Outcome := s.done (laneCheck l (lnClockLost s.dev l))
def execCodeGroupReceive (l : Lane) (group : BitVec 10) (phase : Fin 10) (t : Nat) (s : State) : Outcome :=
  s.done (codeGroupDev l group.toNat phase t s.dev)
def execScoreDecay (l : Lane) (s : State) : Outcome := s.done (lnScoreDecay s.dev l)
def execTxTapsWrite (l : Lane) (value : Word) (s : State) : Outcome :=
  s.done (regAccess (R.LN_TX_TAPS (laneBase l)) true (fun d => lnWriteTaps d l value) s.dev)
def execEyeScanComplete (l : Lane) (scan : EyeScan) (s : State) : Outcome := s.done (eyeScanDev l scan s.dev)
def execRetrain (l : Lane) (s : State) : Outcome := s.done (regAccess (R.LN_CTRL (laneBase l)) true (retrainDev l) s.dev)
def execTrainReply (l : TrainLink) (word : Word) (s : State) : Outcome := s.done (trainReplyDev l word s.dev)
def execTrainReqTimeout (l : TrainLink) (s : State) : Outcome := s.done (trainTimeoutDev l s.dev)
def execLinePacketReceive (p : Fin 12) (s : State) : Outcome := s.done (linePacketDev p s.dev)
def execPacketAbort (p : Fin 12) (s : State) : Outcome := s.done (packetAbortDev p s.dev)
def execDeskewColumn (l : TrainLink) (s : State) : Outcome := s.done (deskewDev l s.dev)
def execIngressOverflow (p : Fin 12) (s : State) : Outcome := s.done (ingressOverflowDev p s.dev)
def execTriggerDue (p : Fin 12) (s : State) : Outcome := s.done (triggerDueDev p s.dev)
def execBackchannelSend (p : Fin 12) (s : State) : Outcome := s.done (backchannelDev p s.dev)
def execTimePacketDue (p : Fin 12) (s : State) : Outcome := s.done (timeDue s.dev p)
def execNoLines (p : Fin 12) (h : Fin 4) (s : State) : Outcome := s.done (noLinesDev p h s.dev)
def execRegReply (p : Fin 12) (s : State) : Outcome := s.done (regReplyDev p s.dev)
def execCamEvent (p : Fin 12) (s : State) : Outcome := s.done (camEventDev p s.dev)
def execUnknownCtl (p : Fin 12) (s : State) : Outcome := s.done (unknownCtlDev p s.dev)
def execCtlGo (p : Fin 12) (value : Word) (s : State) : Outcome := s.done (regAccess (R.CPn_CTL_CMD p) true (ctlGoDev p value) s.dev)
def execCtlTimeout (p : Fin 12) (s : State) : Outcome := s.done (ctlTimeoutDev p s.dev)
def execExpGo (p : Fin 12) (value : Word) (s : State) : Outcome := s.done (regAccess (R.CPn_EXP_CMD p) true (expGoDev p value) s.dev)
def execPortRestart (p : Fin 12) (s : State) : Outcome := s.done (regAccess (R.CPn_LINK_CTRL p) true (portRestartDev p) s.dev)
def execPortStateTimeout (p : Fin 12) (s : State) : Outcome := s.done (portTimeoutDev p s.dev)
def execRetryEnd (p : Fin 12) (s : State) : Outcome := s.done (retryEndDev p s.dev)
def execPipeStart (s : State) : Outcome := s.done (pipeStartDev s.dev)
def execPipeComplete (p : Fin 8) (snoopOk : Bool) (s : State) : Outcome := s.done (pipeCompleteDev p snoopOk s.dev)
def execStatRelease (c : Fin 48) (s : State) : Outcome := s.done (regAccess (R.CXn_STAT_CTRL c) true (fun d => statReleaseDev c (latchPlic d)) s.dev)
def execViewLineAssemble (v : Fin 4) (s : State) : Outcome := s.done (viewAssembleDev v s.dev)
def execViewDeadline (v : Fin 4) (s : State) : Outcome := s.done (viewDeadlineDev v s.dev)
def execHistRowComplete (v : Fin 4) (s : State) : Outcome := s.done (histCompleteDev v s.dev)
def execHistRowDrop (v : Fin 4) (s : State) : Outcome := s.done (histDropDev v s.dev)
def execMemTrainDone (n : Fin 4) (ok : Bool) (s : State) : Outcome := s.done (memTrainDoneDev n ok s.dev)
def execCalRunGo (value : Word) (s : State) : Outcome := s.done (regAccess R.CAL_RUN true (calGoDev value) s.dev)
def execCalAbort (s : State) : Outcome := s.done (regAccess R.CAL_RUN true calAbortDev s.dev)
def execCalComputeDone (s : State) : Outcome := s.done (calComputeDev s.dev)
def execCalMramCommitDone (ok : Bool) (s : State) : Outcome := s.done (calCommitDoneDev ok s.dev)
def execIntervalDue (c : Fin 48) (s : State) : Outcome := s.done (intervalDueDev c s.dev)

end Sys2Proof.Machine
end

