-- ==== Sys2Proof/Machine/Bus.lean ====
section
/-! DEFINITION. Accesses to the control view (R10 to R12, R27 to R30, R342, R343, R353): which area an address lies in, who may access it and
how wide, and what a read or a write does there. -/

namespace Sys2Proof.Machine

/-! ## Areas (Tables 1.8, 1.9, 16.1) -/

/-- What lies at an address. -/
inductive Area where
  | rom
  /-- the TCM of a core -/
  | tcm (core : Nat)
  | sram | mram | dram
  /-- the interrupt controller -/
  | plic
  | reg (r : RegDesc)
  /-- the statistics window -/
  | stat
  /-- a defect map: staged, in a register page -/
  | defect
  /-- a staged table window: LUT pool, colour sort, residual and history LUTs -/
  | table
  | correction | nodes | weights
  /-- the compare list of an axis -/
  | list
deriving DecidableEq, Repr

/-- Offsets of the standard PLIC layout that exist: priorities, pending bits, enable bits, threshold and claim of four contexts. -/
def plicOffset (o : Nat) : Bool :=
  decide (o < 0x800) || decide (0x1000 ≤ o ∧ o < 0x1040)
    || decide (0x2000 ≤ o ∧ o < 0x2200 ∧ (o - 0x2000) % 0x80 < 0x40)
    || decide (0x200000 ≤ o ∧ o < 0x204000 ∧ (o - 0x200000) % 0x1000 < 8)

/-- The area of an address; none where it is unassigned (R29). -/
def areaAt (d : Device) (a : Nat) : Option Area :=
  if 0x1000 ≤ a ∧ a < 0x11000 then some .rom
  else if 0x80000000 ≤ a ∧ a < 0x80200000 then some .sram
  else if 0x81000000 ≤ a ∧ a < 0x81100000 then some (.tcm ((a - 0x81000000) / 0x40000))
  else if 0x90000000 ≤ a ∧ a < 0x91000000 then some .mram
  else if dramBase ≤ a then if inDram d a then some .dram else none
  else if 0x11000000 ≤ a ∧ a < 0x15000000 then if plicOffset (a - 0x11000000) then some .plic else none
  else if 0x20202000 ≤ a ∧ a < 0x20204000 then some .stat
  else if 0x20204000 ≤ a ∧ a < 0x20210000 then some .table
  else if 0x20100000 ≤ a ∧ a < 0x20130000 ∧ 0xC00 ≤ a % 0x1000 then some .defect
  else if 0x21000000 ≤ a ∧ a < 0x21200000 then some .correction
  else if 0x31000000 ≤ a ∧ a < 0x310E0000 then some .table
  else if 0x31100000 ≤ a ∧ a < 0x31110000 then some .table
  else if 0x41000000 ≤ a ∧ a < 0x41100000 then some .nodes
  else if 0x42000000 ≤ a ∧ a < 0x42400000 then some .weights
  else if 0x50200000 ≤ a ∧ a < 0x50240000 ∧ 0x8000 ≤ a % 0x10000 then some .list
  else (regAt a).map .reg

/-- Access widths in bytes that an area allows (Table 16.1). -/
def areaWidths : Area → List Nat
  | .rom | .tcm _ | .sram | .mram | .dram => [1, 2, 4, 8]
  | .table | .correction | .nodes | .weights => [1, 2, 4]
  | .plic | .reg _ | .stat | .defect | .list => [4]

/-- Areas with atomics. -/
def areaAtomic : Area → Bool
  | .tcm _ | .sram | .dram => true
  | _ => false

/-- Areas from which core n may fetch: boot ROM, its own TCM, shared SRAM, DRAM. -/
def areaExecutable (n : Nat) : Area → Bool
  | .rom | .sram | .dram => true
  | .tcm c => c == n
  | _ => false

/-- Areas that the cores cache (Table 16.1). -/
def areaCached : Area → Bool
  | .rom | .sram | .dram => true
  | _ => false

/-- Why an access ends with a bus error before it reaches its target: its cause; none where it reaches it. -/
def accessCause (d : Device) (a width : Nat) (atomic : Bool) : Option Nat :=
  match shutCause d a, areaAt d a with
    | some c, _ => some c
    | none, none => some causeUnassigned
    | none, some x =>
      if ¬ (areaWidths x).contains width ∨ a % width ≠ 0 ∨ (atomic ∧ ¬ areaAtomic x) then some causeWidth
      else if x = .dram ∧ ¬ dramServes d then some causeRefused
      else none

/-! ## Reading -/

/-- The word at `o` of the statistics window (R104): the ready histogram of the selected context. -/
def statWord (d : Device) (o : Nat) : Nat :=
  let c := d.get F.PIPE_STAT_SEL.CTX
  match d.pipes.ready[c]?.getD none with
  | none => 0
  | some b => match b.bands[o / 0x400]? with
    | none => 0
    | some s => match s.hist.find? (fun e => e.1 = o % 0x400 / 4) with | some e => e.2 | none => 0

/-- FAULT_N is low: PIN_FAULT, the safe state or a failed boot (R402, R468). -/
def faultPinLow (d : Device) : Bool := d.bit F.FLT_FLAGS.PIN_FAULT || d.safe || d.bit F.CHIP_BOOT.FAIL

/-- What a register reads that the hardware computes at the read. -/
def computedReg (d : Device) (a : Nat) : Option Nat :=
  if a = R.CHIP_PINS then some (F.CHIP_PINS.FAULT_N.into (if faultPinLow d then 0 else 1) (d.rd a)).toNat
  else if a = R.TB_STATUS then
    some (F.TB_STATUS.TSQ_LEVEL.into d.tb.tsq.length (F.TB_STATUS.SLEWING.into (if d.tb.slew = 0 then 0 else 1) (d.rd a))).toNat
  else if a = R.TB_SLEW then some (slewRead d).toNat
  else if a = R.TIO_PENDING then
    some ((List.range 16).map (fun p => if d.rd (R.TIO_Pn_FLAGS p) ≠ 0#32 then 2 ^ p else 0)).sum
  else if a = R.DMA_PENDING then some (dmaPending d)
  else if a = R.MBX_FULL then some (mbxFullWord d)
  else if a = R.LCK_OWNED_LO then some (lockOwned d 0)
  else if a = R.LCK_OWNED_HI then some (lockOwned d 32)
  else if 0x10060200 ≤ a ∧ a < 0x10060300 then some (d.rd (R.LCKk ((a - 0x10060200) / 4))).toNat
  else if 0x30001000 ≤ a ∧ a < 0x30001600 ∧ a % 0x20 = 0x1C then
    some ((coverOf d ((a - 0x30001000) / 0x20)).2 * 65536 + (coverOf d ((a - 0x30001000) / 0x20)).1)
  else none

/-- What an RC field holds after a read: the events counted in the same cycle (R11), or, for a peak, the present number. -/
def reloaded (d : Device) (a : Nat) (hwInc : Nat) : Nat :=
  if 0x20000000 ≤ a ∧ a < 0x200C0000 ∧ a % 0x10000 = 0x48 then (d.port ((a - 0x20000000) / 0x10000)).occupied
  else if a = R.PIPE_WAIT_HWM then d.get F.PIPE_WAIT.LINES
  else if (0x30100000 ≤ a ∧ a < 0x30140000 ∧ a % 0x10000 = 0x48) ∨ (R.BSN_WAITv 0 ≤ a ∧ a ≤ R.BSN_WAITv 3) ∨ a = R.FLY_UPPER
      ∨ a = R.EJ_POOL then (d.rd a).toNat % 65536 * 65536
  else hwInc

/-- A read that captures further registers, or pops a queue, before the register is read. -/
def readCapture (d : Device) (a : Nat) : Device :=
  if a = R.TB_TOD_FRAC then todReadDev d
  else if a = R.TB_TSQ_INFO then tsqReadDev d
  else if a = R.PAIR_DIGEST_LO then digestCapture d
  else if a = R.CAP_WPOS_LO then capPosDev false d
  else if a = R.CAP_IPOS_LO then capPosDev true d
  else if 0x50410100 ≤ a ∧ a < 0x50410500 ∧ a % 0x40 = 0x30 then tioCapReadDev ((a - 0x50410100) / 0x40) d
  else if 0x50300100 ≤ a ∧ a < 0x50301100 ∧ a % 0x80 = 0x30 then monOutReadDev ((a - 0x50300100) / 0x80) d
  else if 0x50200000 ≤ a ∧ a < 0x50240000 ∧ a % 0x10000 = 0x50 then axisSnapshotDev ((a - 0x50200000) / 0x10000) false d
  else if 0x50200000 ≤ a ∧ a < 0x50240000 ∧ a % 0x10000 = 0x58 then axisSnapshotDev ((a - 0x50200000) / 0x10000) true d
  else if 0x10020100 ≤ a ∧ a < 0x10020160 ∧ a % 0x10 = 0 then
    let r := (a - 0x10020100) / 0x10
    d.setPair (R.RSV_Rr_ENERGY_LO r) (R.RSV_Rr_ENERGY_HI r) (regionEnergy d r)
  else d

/-- A read of a register by master `m`; `hwInc` events are counted in it in the same cycle (R11). -/
def readReg (m a : Nat) (r : RegDesc) (hwInc : Nat) (d : Device) : Device :=
  if 0x10050100 ≤ a ∧ a < 0x10050300 ∧ a % 0x10 = 4 then mbxReadDev m ((a - 0x10050100) / 0x10) (latchPlic d)
  else if 0x10060000 ≤ a ∧ a < 0x10060100 then lockReadDev m ((a - 0x10060000) / 4) d
  else if a = R.CORE_MTIME_LO then mtimeReadDev d
  else if 0x10080100 ≤ a ∧ a < 0x10080500 ∧ a % 0x80 < 0x34 ∧ a % 0x80 ≠ 0 then
    let u := (a - 0x10080100) / 0x80
    match (List.range 6).find? (fun k => crcPairLo u k == a || crcPairLo u k + 4 == a) with
    | some k => crcReadDev u k (crcPairLo u k ≠ a) d
    | none => d.reply (d.rd a).toNat
  else
    let d1 := readCapture d a
    match computedReg d1 a with
    | some v => d1.reply v
    | none =>
      let v := d1.rd a
      if r.rc = 0 then d1.reply v.toNat
      else
        let mask := BitVec.ofNat 32 r.rc
        let d2 := d1.wr a ((v &&& ~~~ mask) ||| (BitVec.ofNat 32 (reloaded d1 a hwInc) &&& mask))
        let d3 := if a = R.CASC_REC_DROP ∧ m < 4 then d2.withEth { d2.eth with recDrop := capN 0xFFFFFFFF (d2.eth.recDrop + v.toNat) } else d2
        d3.reply v.toNat

/-- Bytes of the device information block (R475). -/
def infoBlock : List Byte := withCrc (leBytes 2 Config.vAvs ++ List.replicate 26 0#8)

/-- A byte of MRAM as the window shows it. -/
def mramByte (d : Device) (a : Nat) : Byte :=
  if 0x90FFF000 ≤ a ∧ a < 0x90FFF020 then infoBlock.getD (a - 0x90FFF000) 0#8 else d.byte a

/-- A word of the interrupt controller. A read of a claim register claims. -/
def readPlic (d : Device) (o : Nat) : Device :=
  let word (f : Nat → Bool) (k : Nat) : Nat := ((List.range 32).map (fun i => if f (32 * k + i) then 2 ^ i else 0)).sum
  if o < 0x1000 then d.reply (plicPriority d (o / 4))
  else if o < 0x2000 then d.reply (word (plicPending d) ((o - 0x1000) / 4))
  else if o < 0x200000 then d.reply (word (plicEnabled d ((o - 0x2000) / 0x80)) ((o - 0x2000) % 0x80 / 4))
  else if o % 0x1000 = 4 then plicClaimDev ((o - 0x200000) / 0x1000) d
  else d.reply (plicThreshold d ((o - 0x200000) / 0x1000))

/-- Data read from an area that holds bytes. -/
def readBytes (a n : Nat) (x : Area) (d : Device) : Nat :=
  leNat ((List.range n).map (fun i => match x with
    | .mram => mramByte d (a + i)
    | .table | .defect => d.tab (a + i)
    | _ => d.byte (a + i)))

/-- A read that reaches its target; a core reads cached areas through its data cache (R344). The content of the boot ROM is not given: a free value (notes/assumptions/2.md). -/
def readArea (m a n : Nat) (x : Area) (hwInc : Nat) (d : Device) : Device :=
  match x with
  | .reg r => readReg m a r hwInc d
  | .plic => readPlic d (a - plicBase)
  | .stat => d.reply (statWord d (a - 0x20202000))
  | .rom => let (v, d1) := d.free (8 * n); d1.reply v
  | _ =>
    if m < 4 ∧ areaCached x then
      let d1 := dcacheFill d m (a / 64)
      d1.reply (leNat (cachedBytes (d1.core m).dcache a n))
    else d.reply (readBytes a n x d)

/-- A misaligned access of a core raises a misaligned exception in the core and reaches no target (R343). -/
def misaligned (m a n : Nat) : Bool := decide (m < 4) && a % n != 0

/-- A read of the control view by master `m`; while reset is held no master runs (R396). -/
def busRead (m a n : Nat) (atomic : Bool) (hwInc : Nat) (d : Device) : Device :=
  if d.boot.phase = .reset then d
  else if misaligned m a n then coreTrap d m excLoadMisaligned a
  else match accessCause d a n atomic, areaAt d a with
    | some c, _ => busError d m a false c
    | none, some x => readArea m a n x hwInc d
    | none, none => d

/-! ## Writing -/

/-- The RWL fields of the register at `a` are locked. -/
def regLocked (d : Device) (a : Nat) : Bool :=
  if 0x10040000 ≤ a ∧ a < 0x10050000 then d.bit F.CORE_LOCK.LOCK
  else if 0x10050000 ≤ a ∧ a < 0x10060000 then d.bit F.MBX_LOCK.LOCK
  else if 0x60000000 ≤ a ∧ a < 0x60010000 then d.bit F.MEM_CFG.LOCK
  else d.slu.applied

/-- FLAGS registers that the register behind them enables onto a rill; LN_IRQ_EN has a bit for flags that a lane lacks too (R53). -/
def hasIrq (a : Nat) : Bool :=
  match regAt a, regAt (a + 4) with
  | some f, some e => f.w1c != 0 && (f.w1c == e.rw || (laneAt a).any (fun l => R.LN_FLAGS (laneBase l) == a))
  | _, _ => false

/-- A W1C bit that the hardware sets in the cycle of the write; of TIO flags CAP fires no rill of its own (Table 18.1). -/
def hwSetBit (a : Nat) (d : Device) (i : Nat) : Device :=
  let cap := (List.range 16).any (fun p => decide ((F.TIO_Pn_FLAGS.CAP p).addr = a ∧ (F.TIO_Pn_FLAGS.CAP p).lo = i))
  if hasIrq a && !cap then d.raise ⟨a, i, i⟩ else d.set ⟨a, i, i⟩ 1

/-- A staging write by `who`: refused, or it takes or refreshes ownership and lands in the staging copy (R319, R407). -/
def staging (who : StagingOwner) (land : Device → Device) (d : Device) : Device :=
  if stagingRefused d who then stageReject d else land (if d.slu.owner = .none then setOwner d who else d)

/-- The staging owner behind a master: a KCP session, or the runtime. -/
def ownerOf (m session : Nat) : StagingOwner := if m = 4 then .session session else .runtime

/-- A write of a register without a meaning of its own (Table 0.4): RW and unlocked RWL fields take the value, W1C bits clear unless the
hardware sets them in the same cycle, RWS fields are staged; reserved bits and RO, RC fields take nothing (R12). -/
def writePlain (who : StagingOwner) (a : Nat) (r : RegDesc) (w hwSet : Word) (d : Device) : Device :=
  let takes := BitVec.ofNat 32 r.rw ||| (if regLocked d a then 0#32 else BitVec.ofNat 32 r.rwl)
  let clears := w &&& BitVec.ofNat 32 r.w1c
  let d1 := d.wr a (((d.rd a &&& ~~~ takes) ||| (w &&& takes)) &&& ~~~ (clears &&& ~~~ hwSet))
  let d2 := ((List.range 32).filter (bitAt (hwSet.toNat &&& r.w1c))).foldl (hwSetBit a) d1
  if r.rws = 0 then d2 else staging who (fun d => stageReg d a w) d2

/-- A write of the interrupt controller. -/
def writePlic (o : Nat) (w : Word) (d : Device) : Device :=
  let a := plicBase + o
  if o < 4 then d
  else if o < 0x1000 then d.wr a (w &&& 7#32)
  else if o < 0x2000 then d
  else if o < 0x200000 then d.wr a (if (o - 0x2000) % 0x80 = 0 then w &&& 0xFFFFFFFE#32 else w)
  else if o % 0x1000 = 4 then plicComplete d ((o - 0x200000) / 0x1000) w.toNat
  else d.wr a (w &&& 7#32)

/-- A write of the DMA page that acts: fields, shadow, ARM, and CTRL, where the start takes effect before the abort (Table 17.2). -/
def writeDma (a : Nat) (w : Word) (d : Device) : Option Device :=
  if a < 0x10070100 ∨ 0x10070900 ≤ a then none
  else
    let c := (a - 0x10070100) / 0x80
    if a = R.DMAc_CTRL c then
      let d1 := if (F.DMAc_CTRL.PAUSE c).of w = 1 then dmaPauseDev c d else dmaResumeDev c d
      let d2 := if (F.DMAc_CTRL.START c).of w = 1 then dmaStartDev c d1 else d1
      some (if (F.DMAc_CTRL.ABORT c).of w = 1 then dmaAborted d2 c else d2)
    else if a = R.DMAc_SH_CTRL c then some (if (F.DMAc_SH_CTRL.ARM c).of w = 1 then dmaArmDev c d else d)
    else if a = R.DMAc_CFG c then some (dmaFieldDev c 5 w d)
    else if a = R.DMAc_SH_CFG c then some (dmaShadowDev c 5 w d)
    else if R.DMAc_SRC_LO c ≤ a ∧ a < R.DMAc_SRC_LO c + 20 then some (dmaFieldDev c ((a - R.DMAc_SRC_LO c) / 4) w d)
    else if R.DMAc_SH_SRC_LO c ≤ a ∧ a < R.DMAc_SH_SRC_LO c + 20 then some (dmaShadowDev c ((a - R.DMAc_SH_SRC_LO c) / 4) w d)
    else none

/-- A write of the CRC page that acts. -/
def writeCrc (a : Nat) (w : Word) (d : Device) : Option Device :=
  if a < 0x10080100 ∨ 0x10080500 ≤ a then none
  else
    let u := (a - 0x10080100) / 0x80
    if a = R.CRCu_CFG u then some (crcCfgDev u w d)
    else if a = R.CRCu_CTRL u then some (if (F.CRCu_CTRL.START u).of w = 1 then crcStartDev u d else d)
    else if a = R.CRCu_DATA8 u then some (crcDataDev u 0 w d)
    else if a = R.CRCu_DATA16 u then some (crcDataDev u 1 w d)
    else if a = R.CRCu_DATA32 u then some (crcDataDev u 2 w d)
    else ((List.range 6).find? (fun k => crcPairLo u k == a || crcPairLo u k + 4 == a)).map
      (fun k => crcPairDev u k (crcPairLo u k ≠ a) w d)

/-- A write of the CORE page that acts. -/
def writeCore (a : Nat) (r : RegDesc) (w hwSet : Word) (d : Device) : Option Device :=
  if a < 0x10040100 ∨ 0x10040200 ≤ a then none
  else
    let n := (a - 0x10040100) / 0x40
    if a = R.CORE_Cn_CTRL n then
      let d1 := if (F.CORE_Cn_CTRL.RESET n).of w = 1 then coreResetDev n d else d
      some (if (F.CORE_Cn_CTRL.RELEASE n).of w = 1 then coreReleaseDev n d1 else d1)
    else if a = R.CORE_Cn_KICK n then some (watchdogKickDev n w d)
    else if a = R.CORE_Cn_CMO n then some (cmoGoDev n w d)
    else if a = R.CORE_Cn_MTIMECMP_LO n ∨ a = R.CORE_Cn_MTIMECMP_HI n then some (coreInterrupt n (showTimer (d.wr a w) n))
    else if a = R.CORE_Cn_MSIP n then some (coreInterrupt n (writePlain .runtime a r w hwSet d))
    else if a = R.CORE_Cn_WDOG n ∧ ¬ d.bit F.CORE_LOCK.LOCK then
      let d1 := writePlain .runtime a r w hwSet d
      some (d1.setCore n { d1.core n with kickAt := d1.tb.edges })
    else none

/-- A write of the Ethernet page that acts. -/
def writeEth (a : Nat) (w : Word) (d : Device) : Option Device :=
  if a = R.ETH_CFG then some (ethCfgDev w d)
  else if a = R.ETH_MTU then some (ethMtuDev w d)
  else if 0x100A0100 ≤ a ∧ a < 0x100A0160 ∧ (a - 0x100A0100) % 0x20 = 0x10 then some (rxTailDev ((a - 0x100A0100) / 0x20) w d)
  else match ringSize a with
    | some s => if ringOn d s then some (d.raise F.ETH_FLAGS.CFG_REJ) else none
    | none => none

/-- A write of CORE_DBG: on the GV-1248-EP only an authenticated image, its triples or its firmware on a core, can set DBG_EN (R1, R350). -/
def writeDbg (m : Nat) (r : RegDesc) (w hwSet : Word) (d : Device) : Device :=
  let may := !Config.gradeEP || (d.boot.authentic && decide (m < 4))
  writePlain .runtime R.CORE_DBG r (if may then w else F.CORE_DBG.DBG_EN.into (d.get F.CORE_DBG.DBG_EN) w) hwSet d

/-- A write of a control-region register that acts. -/
def writeControl (m a : Nat) (r : RegDesc) (w hwSet : Word) (d : Device) : Option Device :=
  if a = R.SLU_CMD then some (sluCmdDev (if m = 4 then .none else .runtime) w d)
  else if a = R.SLU_FW_VERDICT then some (fwVerdictDev w d)
  else if a = R.SLU_APPLY_LINE then some (if d.sluState = sluOpen then d.wr a w else d)
  else if a = R.RSV_PLAN then some (planWriteDev w false d)
  else if a = R.FLT_CTRL then some (fltCtrlDev w d)
  else if a = R.EVT_FIRE then some (evtFireDev w d)
  else if a = R.EVT_REARM_LO then some (evtRearmDev false w d)
  else if a = R.EVT_REARM_HI then some (evtRearmDev true w d)
  else if a = R.LCK_FORCE_LO then some (lockForceDev false w d)
  else if a = R.LCK_FORCE_HI then some (lockForceDev true w d)
  else if a = R.PAIR_CTRL then
    let d1 := if F.PAIR_CTRL.YIELD.of w = 1 then yieldDev d else d
    some (if F.PAIR_CTRL.REJOIN.of w = 1 then rejoinDev d1 else d1)
  else if 0x10050100 ≤ a ∧ a < 0x10050300 ∧ a % 0x10 = 4 then some (mbxWriteDev m ((a - 0x10050100) / 0x10) w d)
  else if 0x10060000 ≤ a ∧ a < 0x10060100 then some (lockWriteDev m ((a - 0x10060000) / 4) d)
  else if a = R.CORE_DBG then some (writeDbg m r w hwSet d)
  else (writeCore a r w hwSet d <|> writeDma a w d <|> writeCrc a w d <|> writeEth a w d)

/-- A write of an Intake register that acts. -/
def writeIntake (who : StagingOwner) (a : Nat) (r : RegDesc) (w hwSet : Word) (d : Device) : Option Device :=
  let p := (a - 0x20000000) / 0x10000
  if a = R.CPn_LINK_CTRL p then some (if (F.CPn_LINK_CTRL.RESTART p).of w = 1 then portRestartDev p d else d)
  else if a = R.CPn_CTL_CMD p then some (ctlGoDev p w d)
  else if a = R.CPn_EXP_CMD p then some (expGoDev p w d)
  else if a = R.CAL_RUN then
    let d1 := if F.CAL_RUN.ABORT.of w = 1 then calAbortDev d else d
    some (calGoDev w d1)
  else if 0x20100000 ≤ a ∧ a < 0x20130000 ∧ a = R.CXn_STAT_CTRL ((a - 0x20100000) / 0x1000) then
    let c := (a - 0x20100000) / 0x1000
    let d1 := if (F.CXn_STAT_CTRL.RELEASE c).of w = 1 then statReleaseDev c d else d
    some (writePlain who a r w hwSet d1)
  else none

/-- A write of TRAn_CTRL: an arming comes before a stop. -/
def writeTra (n : Nat) (w : Word) (d : Device) : Device :=
  let on (f : Fld) : Bool := f.of w == 1
  let d1 := if on (F.TRAn_CTRL.REF_ARM n) then refArmDev n d else d
  let d2 := if on (F.TRAn_CTRL.LIST_ARM n) then listArmDev n d1 else d1
  let d3 := if on (F.TRAn_CTRL.LIST_STOP n) then listStopDev n d2 else d2
  if on (F.TRAn_CTRL.CLR_UNCERT n) then clrUncertDev n d3 else d3

/-- A write of an Actuation register that acts. -/
def writeActuation (a : Nat) (w : Word) (d : Device) : Option Device :=
  let n := a / 0x10000 % 16
  if a = R.TB_ADJ then some (tbAdjDev w d)
  else if a = R.TB_SLEW then some (tbSlewDev w d)
  else if a = R.TB_CTRL then some (tbCtrlDev w d)
  else if 0x50100000 ≤ a ∧ a < 0x50140000 ∧ 0x40 ≤ a % 0x10000 ∧ a % 0x10000 < 0x50 then
    some (limitWriteDev n ((a % 0x10000 - 0x40) / 4) w d)
  else if 0x50200000 ≤ a ∧ a < 0x50240000 ∧ a = R.TRAn_CTRL n then some (writeTra n w d)
  else if 0x50410100 ≤ a ∧ a < 0x50410500 ∧ a % 0x40 ≤ 0x20 then
    let p := (a - 0x50410100) / 0x40
    some (if a % 0x40 = 0x20 then tioCtrlDev p w d else tioCfgWriteDev p (a % 0x40 / 4) w d)
  else none

/-- A write of LN_CTRL or LN_TX_TAPS. -/
def writeLane (a : Nat) (w : Word) (d : Device) : Option Device :=
  match laneAt a with
  | none => none
  | some l =>
    if a = R.LN_CTRL (laneBase l) then some (lnCtrlDev l w d)
    else if a = R.LN_TX_TAPS (laneBase l) then some (lnWriteTaps d l w)
    else none

/-- A write that has a meaning beyond Table 0.4. -/
def writeActs (m : Nat) (who : StagingOwner) (a : Nat) (r : RegDesc) (w hwSet : Word) (d : Device) : Option Device :=
  writeLane a w d <|>
    (if a < 0x20000000 then writeControl m a r w hwSet d
     else if a < 0x30000000 then writeIntake who a r w hwSet d
     else if a = R.CLA_POWER then some (claPowerDev w d)
     else if 0x50000000 ≤ a ∧ a < 0x60000000 then writeActuation a w d
     else if a = R.MEM_CFG then some (memInitDev w d)
     else none)

/-- A write of a register. -/
def writeReg (m : Nat) (who : StagingOwner) (a : Nat) (r : RegDesc) (w hwSet : Word) (d : Device) : Device :=
  match writeActs m who a r w hwSet ((latchPlic d).reply 0) with
  | some d1 => d1
  | none => writePlain who a r w hwSet ((latchPlic d).reply 0)

/-- Entry `e` of the correction table lies in the footprint of a live context (R98). -/
def footLive (d : Device) (e : Nat) : Bool :=
  (List.range 48).any (fun c => ctxLive d c && decide (footBase d c ≤ e ∧ e < footBase d c + footSize d c))

/-- Bytes stored from `a` on by master `m`: a core's store to a cached area goes to its data cache (R344). -/
def storeBytes (m : Nat) (x : Area) (d : Device) (a : Nat) (bs : List Byte) : Device :=
  if m < 4 ∧ areaCached x then cacheStore d m a bs else d.setBytes a bs

/-- A write through the correction table window outside every live footprint (R98, R111): the live table and the base copy take it, and
the entry's deltas clear in all four sets. -/
def writeCorrection (a : Nat) (bs : List Byte) (d : Device) : Device :=
  let e := (a - 0x21000000) / 4
  let d1 := d.setBytes a bs
  (d1.setNum (baseAddr d e) 4 (liveEntry d1 e)).setBytes (setAddr d e) (List.replicate 8 0#8)

/-- The entry of the list at address `a` is kept as it was, for a test in the cycle of the write (R239). -/
def keepEntry (a : Nat) (d : Device) : Device :=
  let n := (a - 0x50208000) / 0x10000
  let k := (a - listAddr n 0) / 8
  let x := d.axis n
  let same := x.listOld.filter (fun e => e.t == d.nowNs && e.cycle == d.evt.cycle)
  let e : ListOld := { entry := k, value := d.num (listAddr n k) 8, t := d.nowNs, cycle := d.evt.cycle }
  d.setAxis n { x with listOld := if same.any (fun o => o.entry == k) then same else same ++ [e] }

/-- A write to the compare list (R239): its words take it at once; an entry holds zeros in bits [62:48] (R12). -/
def writeList (a v : Nat) (d0 : Device) : Device :=
  let d := keepEntry a d0
  d.setNum a 4 (if a % 8 = 4 then (BitVec.ofNat 32 v &&& 0x8000FFFF#32).toNat else v)

/-- A write of `n` bytes that reaches its target; a target may refuse it (CAUSE 3). -/
def writeArea (m : Nat) (who : StagingOwner) (a n : Nat) (x : Area) (v : Nat) (hwSet : Word) (d : Device) : Device :=
  let bs := leBytes n v
  let refuse := busError d m a true causeRefused
  let w := BitVec.ofNat 32 v
  match x with
  | .rom => refuse
  | .stat => d.reply 0
  | .reg r => writeReg m who a r w hwSet d
  | .plic => (writePlic (a - plicBase) w d).reply 0
  | .mram => if (0x90F00000 ≤ a ∧ a < 0x90F10000) ∨ (0x90FFF000 ≤ a ∧ a < 0x90FFF020) then refuse else (storeBytes m x d a bs).reply 0
  | .tcm _ | .sram | .dram => (storeBytes m x d a bs).reply 0
  | .table | .defect =>
    staging who (fun d => (bs.zip (List.range n)).foldl (fun d e => stageTab d (a + e.2) e.1) d) (d.reply 0)
  | .correction => if footLive d ((a - 0x21000000) / 4) then refuse else (writeCorrection a bs d).reply 0
  | .nodes =>
    if nodeLive d ((a - nodeBase) / 8) then refuse
    else ((d.setBytes a bs).withSlu { d.slu with written := if d.sluState = sluOpen then d.slu.written else a :: d.slu.written }).reply 0
  | .weights =>
    if (List.range n).any (fun i => weightLive d (a + i - weightBase)) then refuse
    else ((d.setBytes a bs).withSlu { d.slu with
      written := if d.sluState = sluOpen then d.slu.written else (List.range n).map (a + ·) ++ d.slu.written }).reply 0
  | .list => (writeList a v d).reply 0

/-- A write of the control view by master `m`; while reset is held no master runs (R396). -/
def busWrite (m session a n : Nat) (atomic : Bool) (v : Nat) (hwSet : Word) (d : Device) : Device :=
  if d.boot.phase = .reset then d
  else if misaligned m a n then coreTrap d m excStoreMisaligned a
  else match accessCause d a n atomic, areaAt d a with
    | some c, _ => busError d m a true c
    | none, some x => writeArea m (ownerOf m session) a n x v hwSet d
    | none, none => d

/-! ## Commands -/

/-- A fetch of core n: from an executable area, through the instruction cache where the area is cached; elsewhere an instruction access fault
(R342). -/
def coreFetch (n a w : Nat) (d : Device) : Device :=
  match accessCause d a w false, areaAt d a with
  | some c, _ => busErrorAs excFetch d n a false c
  | none, none => d
  | none, some x =>
    if ¬ areaExecutable n x then
      let d1 := coreTrap d n excFetch a
      { d1 with cores := { d1.cores with reply := 0, busError := true } }
    else if areaCached x then
      let d1 := icacheFill d n (a / 64)
      d1.reply (leNat (cachedBytes (d1.core n).icache a w))
    else readArea n a w x 0 d

/-- FENCE.I of core n: its later fetches see its own stores (R344). -/
def fenceI (n : Nat) (d : Device) : Device := d.setCore n { d.core n with icache := [] }

/-- LR of core n: a read that reserves its granule (R343). -/
def loadReserved (n a w : Nat) (d : Device) : Device :=
  let d1 := busRead n a w true 0 d
  if misaligned n a w ∨ d1.cores.busError then d1 else { d1 with resv := (n, a / 64) :: d1.resv.filter (fun r => r.1 ≠ n) }

/-- SC of core n: it writes and answers 0 where the reservation holds, and answers 1 and writes nothing where it does not; the reservation
is gone either way. An SC that Table 16.1 does not allow ends with a bus error, reservation or not (R343). -/
def storeConditional (n a w v : Nat) (d : Device) : Device :=
  let holds := d.resv.contains (n, a / 64)
  let d1 := if holds ∨ misaligned n a w ∨ (accessCause d a w true).isSome then busWrite n 0 a w true v 0#32 d else d.reply 1
  { d1 with resv := d1.resv.filter (fun r => r.1 ≠ n) }

/-- What an access of a core does. -/
def hartUse (x : Access) (write : Bool) : HartUse :=
  { user := x.user, exec := x.kind == .fetch,
    read := x.kind != .fetch && (!write || x.kind == .atomic), write := x.kind != .fetch && (write || x.kind == .atomic) }

/-- A trigger of core n fires before an access at `a`: its action is a breakpoint exception, or the entry to debug mode for one that debug has
set; the triggers show the hit (R350: PRESUMED, log entry "triggers"). -/
def coreTriggered (d : Device) (n a action : Nat) (hits : List Nat) : Device :=
  let x := d.core n
  let d1 := d.setCore n { x with triggers := hits.foldl (fun v i => let t := unit v i; withUnit v i (t.1 ||| 2 ^ 22, t.2)) x.triggers }
  if action = 1 then haltHart n 2 d1 else coreTrap d1 n excBreakpoint a

/-- An access of a core that does not reach the interconnect, and what happens in its place: a trigger fires before it, or PMP refuses it, which
is an access fault of the core (R341, R350). -/
def coreStops (x : Access) (write : Bool) (d : Device) : Option Device :=
  match x.master, x.kind with
  | .core _, .fenceI => none
  | .core _, .csr => none
  | .core n, _ =>
    let u := hartUse x write
    let answer (d : Device) : Device := { d with cores := { d.cores with reply := 0, busError := true } }
    let fires := (trigFires u x.addr x.width (d.core n).triggers.toList 0 (some [])).filter (fun e => e.1 == 0 || (e.1 == 1 && d.bit F.CORE_DBG.DBG_EN))
    if ¬ coreActive d n then none
    else match fires with
      | some (act, hits) => some (answer (coreTriggered d n x.addr act hits))
      | none =>
        if misaligned n x.addr x.width ∨ (d.core n).hart.pmpAllows u x.addr then none
        else some (answer (coreTrap d n (if u.exec then excFetch else if u.write then excStore else excLoad) x.addr))
  | _, _ => none

/-- A write that reaches the interconnect. -/
def accessWriteThrough (x : Access) (v : Nat) (hwSet : Word) (d : Device) : Device :=
  match x.master, x.kind with
  | .core n, .csr => csrAccess n x.addr x.user (some v) d
  | .core n, .conditional => storeConditional n x.addr x.width v d
  | .core n, .fenceI => fenceI n d
  | m, k => busWrite (masterId m) x.session x.addr x.width (k == .atomic) v hwSet d

/-- A write as an access names it. -/
def accessWrite (x : Access) (v : Nat) (hwSet : Word) (d : Device) : Device :=
  match coreStops x true d with | some e => e | none => accessWriteThrough x v hwSet d

/-- A read that reaches the interconnect. -/
def accessReadThrough (x : Access) (hwInc : Nat) (d : Device) : Device :=
  match x.master, x.kind with
  | .core n, .csr => csrAccess n x.addr x.user none d
  | .core n, .fetch => coreFetch n x.addr x.width d
  | .core n, .reserve => loadReserved n x.addr x.width d
  | .core n, .fenceI => fenceI n d
  | m, k => busRead (masterId m) x.addr x.width (k == .atomic) hwInc d

/-- A read as an access names it. -/
def accessRead (x : Access) (hwInc : Nat) (d : Device) : Device :=
  match coreStops x false d with | some e => e | none => accessReadThrough x hwInc d

/-- The write window commands act on their own window only. -/
def windowWrite (lo hi : Nat) (x : Access) (v : Nat) (d : Device) : Device :=
  if lo ≤ x.addr ∧ x.addr < hi then accessWrite x v 0#32 d else d

def execRegisterWrite (a : Access) (value : DWord) (hwSet : Word) (s : State) : Outcome := s.done (accessWrite a value.toNat hwSet s.dev)
def execRcCounterRead (a : Access) (hwInc : Nat) (s : State) : Outcome :=
  s.done (accessRead a hwInc s.dev)
def execTableWindowWrite (a : Access) (value : Word) (s : State) : Outcome :=
  s.done (windowWrite 0x21000000 0x21200000 a value.toNat s.dev)
def execNodeWindowWrite (a : Access) (value : Word) (s : State) : Outcome :=
  s.done (windowWrite 0x41000000 0x41100000 a value.toNat s.dev)
def execWeightsWindowWrite (a : Access) (value : Word) (s : State) : Outcome :=
  s.done (windowWrite 0x42000000 0x42400000 a value.toNat s.dev)

end Sys2Proof.Machine
end

