-- ==== Sys2Proof/Machine/Boot.lean ====
section
/-! DEFINITION. Power-on, reset and the boot sequence (R396 to R404, R492, R465, R475, R124). -/

namespace Sys2Proof.Machine

/-! ## Reset -/

/-- PORST_N or the power-on detector: every register, buffer and volatile memory is as at reset; MRAM and the flash keep their content
(R397, Table 22.5). -/
def porst (d : Device) : Device :=
  let e := cutCommit d
  { mem := e.mem.filter (fun c => decide (mramBase ≤ c.1 ∧ c.1 < mramBase + 0x1000000)), flash := e.flash, fresh := e.fresh }

/-- PORST_N low for `held` ns, or the power-on detector: pulses of PORST_N below 100 ns are ignored (R478, Table 23.7). -/
def porstDev (held : Nat) (d : Device) : Device := if held < 100 then d else porst d

/-- The set points that the supervisor takes from the measured levels in mV of VDD_CORE and VDD_TIO (R475). -/
def setPoints (coreMv tioMv : Nat) (d : Device) : Device :=
  d.withFlt { d.flt with
    coreSet := (5 * rneDiv (coreMv : Int) 5).toNat, tioSet := if 2 * tioMv < 1800 + 3300 then 1800 else 3300 }

/-- Every rail of Table 23.3 lies within its range of ±3 %, so that the power-on detector releases (R396, R474, Table 23.4). -/
def railsGood (levels : List Nat) (d : Device) : Bool :=
  let e := setPoints (levels.getD 0 0) (levels.getD 8 0) d
  decide (levels.length = 10 ∧ 0 < levels.getD 0 0) && (levels.zip (List.range 10)).all (fun x => !railOutside e x.2 3 x.1)

/-- Reset is released with BOOT_MODE at `mode` and the measured levels of the ten rails in mV, once every rail is good (R396, R398, R475). -/
def resetReleaseDev (mode : Nat) (levels : List Nat) (d : Device) : Device :=
  if d.boot.phase ≠ .reset ∨ ¬ railsGood levels d then d
  else
    let d1 := ((d.set F.CHIP_STRAP.BOOT_MODE mode).set F.CHIP_BOOT.STAGE 1).set F.FLT_HIST_SEQ.SEQ (histNext d)
    let d2 := setPoints (levels.getD 0 0) (levels.getD 8 0) d1
    let d2' := if coreSetBad d2 then d2.set (⟨R.FLT_SUPPLY, 0, 0⟩) 1 else d2
    let phase : BootPhase := match mode with | 0 => .released | 1 => .recovery | 2 => .test | _ => .released
    let d3 : Device := { d2' with boot := { d2.boot with phase := phase, releasedAt := d2'.tb.edges, mode := mode } }
    if mode = 1 then recoveryNet d3 else if mode = 3 then bootFail d3 1 1 else d3

/-- A sample of the ten rails in mV: a level below −15 % resets the device as PORST_N does (R465). -/
def supplyDev (levels : List Nat) (d : Device) : Device :=
  if d.boot.phase = .reset then d
  else if (levels.zip (List.range 10)).any (fun e => decide (100 * e.1 < 85 * railNominal d e.2)) then porst d
  else supplyJudge levels d

/-! ## The image (R403, Tables 19.3 to 19.5) -/

/-- What an erased byte of the flash holds. -/
def flashDefault (_ : Nat) : Byte := 0xFF#8

/-- `n` bytes of the flash from offset `o` on. -/
def flashBytes (d : Device) (o n : Nat) : List Byte := (List.range n).map (fun i => Sparse.get flashDefault (o + i) d.flash)

/-- A section table entry. -/
structure Section where
  type : Nat
  offset : Nat
  len : Nat
  dest : Nat
  crc : Nat
deriving DecidableEq, Repr

/-- Entry of 32 bytes (Table 19.4). -/
def sectionOf (b : List Byte) : Section :=
  { type := leAt b 0 2, offset := leAt b 4 4, len := leAt b 8 4, dest := leAt b 12 8, crc := leAt b 20 4 }

/-- The sections of an image with header `h`. -/
def sectionsOf (d : Device) (h : List Byte) : List Section :=
  (List.range (leAt h 16 4)).map (fun k => sectionOf (flashBytes d (leAt h 20 4 + 32 * k) 32))

/-- Its bytes. -/
def sectionBytes (d : Device) (s : Section) : List Byte := flashBytes d s.offset s.len

/-- The areas that a section of a type may lie in, as base and end. DRAM counts with its largest size: its capacity is not set yet, nor is
the place of the calibration area, whose base copy a table section may name (Table 19.5). -/
def destAreas (type : Nat) : List (Nat × Nat) :=
  let dram := (dramBase, dramBase + 2 ^ 35)
  let sram := (0x80000000, 0x80200000)
  match type with
  | 1 => [(0x81000000, 0x81100000), sram, dram]
  | 4 => [(0x21000000, 0x21200000), (0x20204000, 0x20210000), (0x31000000, 0x310E0000), (0x31100000, 0x31110000), dram]
      ++ (List.range 48).map (fun c => (0x20100C00 + c * 0x1000, 0x20101000 + c * 0x1000))
  | 5 => [(0x41000000, 0x41100000), (0x42000000, 0x42400000)]
  | 6 => [dram, sram]
  | 7 => [(0x81000000, 0x81040000)]
  | _ => []

/-- The section is loaded to its DEST. -/
def Section.placed (s : Section) : Bool := !(destAreas s.type).isEmpty

/-- The section table is sound: types, bounds, destinations and overlaps; the signature is the image's last 128 bytes (R403). -/
def sectionsOk (imageLen : Nat) (ss : List Section) : Bool :=
  let one (s : Section) : Bool :=
    decide (1 ≤ s.type ∧ s.type ≤ 8) && decide (s.offset + s.len ≤ imageLen)
      && (!s.placed || (destAreas s.type).any (fun r => decide (r.1 ≤ s.dest ∧ s.dest + s.len ≤ r.2)))
      && (s.type != 8 || (s.len == 128 && s.offset + 128 == imageLen))
  ss.all one && decide ((ss.filter Section.placed).Pairwise (fun a b => a.len = 0 ∨ b.len = 0 ∨ a.dest + a.len ≤ b.dest ∨ b.dest + b.len ≤ a.dest))

/-- The section table with its CRC lies in the image and checks; NSECT is from 1 to 256. -/
def tableOk (d : Device) (h : List Byte) : Bool :=
  let n := leAt h 16 4
  let o := leAt h 20 4
  decide (1 ≤ n ∧ n ≤ 256) && decide (o + 32 * n + 4 ≤ leAt h 12 4) && crcOk (flashBytes d o (32 * n + 4))
    && sectionsOk (leAt h 12 4) (sectionsOf d h)

/-- The key hash of OTP. -/
def keyHashBytes : List Byte := (List.range 8).flatMap (fun w => leBytes 4 (Config.keyHash w).toNat)

/-- The signature over the image up to its last 128 bytes verifies and its key is the one in OTP (R404). -/
def signatureOk (d : Device) (imageLen : Nat) : Bool :=
  let sig := flashBytes d (imageLen - 128) 128
  let z := beNat (sha256 (flashBytes d 0 (imageLen - 128)))
  decide (sha256 ((sig.drop 64).take 64) = keyHashBytes) && ecdsaOk z (leAt sig 0 32) (leAt sig 32 32) (leAt sig 64 32) (leAt sig 96 32)

/-- The result code of the signature step; none where it passes. -/
def signatureFault (d : Device) (h : List Byte) : Option Nat :=
  let signed := bitAt (leAt h 9 1) 0
  if ¬ signed then if Config.gradeEP then some 6 else none
  else if ¬ Config.keySet then some 8
  else if ¬ (sectionsOf d h).any (fun s => s.type == 8) then some 6
  else if signatureOk d (leAt h 12 4) then none else some 7

/-- The result code of the header check (Table 19.6); none where it passes. -/
def headerFault (h : List Byte) : Option Nat :=
  if leAt h 0 4 ≠ 0x52445053 ∨ leAt h 4 2 ≠ 1 ∨ ¬ crcOk h ∨ leAt h 10 2 = 0 ∨ 200 < leAt h 10 2 ∨ 2 ^ 28 < leAt h 12 4 then some 3
  else if leAt h 6 2 ≠ 0x1248 then some 4
  else if leAt h 8 1 = 0 ∨ Config.levelMax.toNat < leAt h 8 1 then some 5
  else none

/-! ## Triples (R401) -/

/-- The word that a triple starts from: the staging copy of staged fields and tables, the live value of other fields that can be read
back and written as it reads, and the bytes of a memory. The claim and complete registers, whose read acts, start from 0 (DESIGN CHOICE, log
entry "triples"). -/
def tripleOld (d : Device) (a : Nat) : Word :=
  match areaAt d a with
  | some (.reg r) => (match computedReg d a with | some v => BitVec.ofNat 32 v | none => stagedReg d a) &&& BitVec.ofNat 32 (r.rw ||| r.rwl ||| r.rws)
  | some .plic => if 0x200000 ≤ a - plicBase ∧ a % 0x1000 = 4 then 0#32 else BitVec.ofNat 32 (readPlic d (a - plicBase)).cores.reply
  | some .table => BitVec.ofNat 32 (leNat ((List.range 4).map (fun i => stagedTab d (a + i))))
  | some .defect => BitVec.ofNat 32 (leNat ((List.range 4).map (fun i => stagedTab d (a + i))))
  | _ => BitVec.ofNat 32 (d.num a 4)

/-- One triple by master `m` (for the KCP host proxy, on behalf of a session): the device, and whether it ended without a bus error. -/
def applyTriple (m session a : Nat) (v mask : Word) (d : Device) : Device × Bool :=
  if 0x80000000 ≤ a ∨ a % 4 ≠ 0 then (d, false)
  else
    let d1 := busWrite m session a 4 false ((tripleOld d a &&& ~~~ mask) ||| (v &&& mask)).toNat 0#32 d
    (d1, !d1.cores.busError)

/-- Triples in order, up to the first that fails. -/
def applyTriples (m : Nat) : List Byte → Nat → Device → Device × Bool
  | _, 0, d => (d, true)
  | b, n + 1, d =>
    match applyTriple m 0 (leAt b 0 4) (BitVec.ofNat 32 (leAt b 4 4)) (BitVec.ofNat 32 (leAt b 8 4)) d with
    | (d1, true) => applyTriples m (b.drop 12) n d1
    | (d1, false) => (d1, false)

/-! ## Loading -/

/-- A byte of a section at its destination: staged in a staged table, else in memory. -/
def loadByte (d : Device) (a : Nat) (b : Byte) : Device :=
  match areaAt d a with
  | some .table => staging .runtime (fun d => stageTab d a b) d
  | some .defect => staging .runtime (fun d => stageTab d a b) d
  | _ => d.setByte a b

/-- Bytes of a section from `a` on. -/
def loadBytes (d : Device) (a : Nat) : List Byte → Device
  | [] => d
  | b :: t => loadBytes (loadByte d a b) (a + 1) t

/-- The role table and the keys of section 0x07 (R316, R317). -/
def loadRoles (b : List Byte) (d : Device) : Device :=
  let rs := ((Config.rolesOf b).take 16).map (fun e =>
    match e with
    | (v6, bits, len, role, auth, key) => ({ v6 := v6, bits := bits, len := len, maxRole := role, auth := auth, key := key % 4 } : RoleEntry))
  d.withEth { d.eth with roles := some rs, keys := (List.range 4).map (Config.keyOf b) }

/-- Once DRAM is up, a section in DRAM lies outside its destination area: past the capacity, or, of tables, outside the base copy of the
calibration area (R111, R403, Table 19.5). -/
def misplaced (d : Device) (s : Section) : Bool :=
  s.placed && decide (dramBase ≤ s.dest) && (decide (dramBase + dramUsable d < s.dest + s.len)
    || (s.type == 4 && !decide (calBase d ≤ s.dest ∧ s.dest + s.len ≤ calBase d + 0x200000)))

/-- One section after step 7, its CRC-32C checked. -/
def loadSection (d : Device) (s : Section) : Device :=
  let b := sectionBytes d s
  if s.type = 2 ∨ s.type = 8 then d
  else if crc32c b ≠ s.crc ∨ misplaced d s then bootFail d 8 9
  else if s.type = 3 then
    match applyTriples 0 b (s.len / 12) d with
    | (d1, true) => d1
    | (d1, false) => bootFail d1 8 10
  else if s.type = 7 then
    let d1 := loadRoles b (loadBytes d s.dest b)
    d1.withEth { d1.eth with keysAt := some (s.dest, s.len), keysFrom := some (s.offset, s.len) }
  else loadBytes d s.dest b

/-- Sections in table order, up to the first that fails. -/
def loadSections : List Section → Device → Device
  | [], d => d
  | s :: t, d => if (loadSection d s).boot.phase = .failed then loadSection d s else loadSections t (loadSection d s)

/-- The triples of the EARLY sections (step 6). -/
def loadEarly : List Section → Device → Device
  | [], d => d
  | s :: t, d =>
    if s.type ≠ 2 then loadEarly t d
    else if crc32c (sectionBytes d s) ≠ s.crc then bootFail d 6 9
    else match applyTriples 0 (sectionBytes d s) (s.len / 12) d with
      | (d1, true) => loadEarly t d1
      | (d1, false) => bootFail d1 6 10

/-! ## Calibration sets (R111, R124) -/

/-- The live correction table is written to the base copy of the configured area. -/
def baseCopy (d : Device) : Device :=
  d.setBytes (calBase d) ((List.range 524288).flatMap (fun e => leBytes 4 (liveEntry d e)))

/-- A record is there: its 64 bytes are not all those of an unwritten one. -/
def recordThere (d : Device) (c copy : Nat) : Bool := (d.bytes (recordAddr c copy) 64).any (fun b => b ≠ 0#8)

/-- A record is valid and matches the image (R124). -/
def recordMatches (d cfg : Device) (c copy : Nat) : Bool :=
  let r := d.bytes (recordAddr c copy) 64
  recordValid d c copy && leAt r 4 4 == d.cal.baseId && leAt r 20 4 == footBase cfg c && leAt r 24 2 == ctxPixels cfg c
    && leAt r 26 1 == nbIn cfg c

/-- The sets of one context are loaded from the matching record with the higher SEQ, and the live table is interpolated. -/
def loadSets (d : Device) (c : Nat) : Device :=
  let cfg := d.withStaged
  let good := [0, 1].filter (recordMatches d cfg c)
  let bad := [0, 1].any (fun k => recordThere d c k && !recordMatches d cfg c k)
  let d0 := if bad then d.raise F.CAL_FLAGS.SETS_DISCARDED else d
  let seq (k : Nat) : Nat := d.num (recordAddr c k) 4
  match good with
  | [] => d0
  | k :: t =>
    let j := t.foldl (fun m x => if seq m < seq x then x else m) k
    let r := d.bytes (recordAddr c j) 64
    let base := footBase cfg c
    let d1 := d0.setBytes (setAddr d base) (d.bytes (copyBase j + 8 * base) (8 * footSize cfg c))
    let d2 := (List.range 4).foldl (fun d i => d.set (slotTempFld c i) (leAt r (8 + 2 * i) 2)) d1
    let noTemp := bitAt (leAt r 16 1) 4
    let d3 := showApplied (d2.set (F.CAL_Cn_SETS.VALID c) (leAt r 16 1)) c (if noTemp then none else some (leAt r 18 2))
    if ctxLive cfg c then writeLive d3 base (footAt d3.withStaged c (tempOf (d3.get (F.CAL_Cn_SETS.T_APPLIED c)))) else d3

/-! ## The sequence (Table 19.2) -/

/-- The Virend runtime starts its network services: KCP datagrams are steered to it, and the templates of the two stream engines lie in
the first two places of SRAM (DESIGN CHOICE, log entry "network services"). -/
def runtimeNet (d : Device) : Device := (d.setBit F.KCP_CFG.EN true).set F.KCP_CAP_TMPL.SRAM 1

/-- Steps 1 to 6: `sfdp` says whether the flash answered with valid SFDP tables, `octal` whether these advertise 8D-8D-8D. -/
def pllLockDev (sfdp octal : Bool) (d : Device) : Device :=
  if d.boot.phase ≠ .released then d
  else if ¬ sfdp then bootFail d 2 2
  else
    let h := flashBytes d 0 256
    match headerFault h with
    | some c => bootFail d 3 c
    | none =>
      let d1 := ((d.set F.CHIP_LEVEL.LEVEL (leAt h 8 1)).set F.CHIP_BUILD_ID.BUILD_ID (leAt h 32 4)).set F.CHIP_HDR_CRC.HDR_CRC (leAt h 252 4)
      if ¬ tableOk d h then bootFail d1 5 9
      else match signatureFault d h with
        | some c => bootFail d1 5 c
        | none =>
          let ss := sectionsOf d h
          let d2 := loadEarly ss { d1 with boot := { d1.boot with authentic := true, octal := if octal ∧ bitAt (leAt h 9 1) 1 then some (leAt h 10 2) else none } }
          if d2.boot.phase = .failed then d2
          else
            let d3 := memInitDev (d2.rd R.MEM_CFG ||| 1#32) (d2.set F.CHIP_BOOT.STAGE 7)
            { d3 with boot := { d3.boot with
              phase := .dram, entry := leAt h 24 8, sections := ss.map (fun s => (s.type, s.offset, s.len, s.dest)) } }

/-- Step 10: core 0 jumps to ENTRY in machine mode; its other registers are as the ROM's program left them (R399). -/
def jumpToEntry (d : Device) : Device :=
  let x := d.core 0
  let h := ranHart d x.hart
  { d.setCore 0 { x with hart := { h with pc := BitVec.ofNat 64 d.boot.entry, machine := true } } with fresh := d.fresh + 1 }

/-- Steps 8 to 10, once every controller reads RUN. -/
def dramReadyDev (d : Device) : Device :=
  if d.boot.phase ≠ .dram ∨ (List.range 4).any (fun n => d.memState n != msRun) then d
  else
    let h := flashBytes d 0 256
    let ss := sectionsOf d h
    let d1 := loadSections ss (d.set F.CHIP_BOOT.STAGE 8)
    if d1.boot.phase = .failed then d1
    else
      let id := match ss.find? (fun s => s.type == 4 && decide (0x21000000 ≤ s.dest ∧ s.dest < 0x21200000)) with
        | some s => s.crc
        | none => 0
      let d2 := baseCopy { d1 with cal := { d1.cal with baseId := id } }
      let d3 := (List.range 48).foldl loadSets d2
      let d4 := ((d3.setBit F.CHIP_BOOT.DONE true).set F.CHIP_BOOT.STAGE 10).set F.CHIP_BOOT.CODE 0
      runtimeNet (jumpToEntry { d4 with boot := { d4.boot with phase := .done } })

def execPorst (held : Nat) (s : State) : Outcome := s.done (porstDev held s.dev)
def execResetRelease (mode : Fin 4) (levels : List Nat) (s : State) : Outcome := s.done (resetReleaseDev mode levels s.dev)
def execPllLock (sfdp octal : Bool) (s : State) : Outcome := s.done (pllLockDev sfdp octal s.dev)
def execBootDramReady (s : State) : Outcome := s.done (dramReadyDev s.dev)
def execFirstApplyTimeout (s : State) : Outcome := s.done (firstApplyTimeoutDev s.dev)
def execSupplySample (levels : List Nat) (s : State) : Outcome := s.done (supplyDev levels s.dev)
def execStagingWrite (a : Access) (value : Word) (s : State) : Outcome :=
  s.done (match areaAt s.dev a.addr with
    | some (.reg r) => if r.rws = 0 then s.dev else accessWrite a value.toNat 0#32 s.dev
    | some .table => accessWrite a value.toNat 0#32 s.dev
    | some .defect => accessWrite a value.toNat 0#32 s.dev
    | _ => s.dev)
def execSluCommit (m : Master) (value : Word) (s : State) : Outcome :=
  s.done (regAccessBy (masterId m) R.SLU_CMD true (fun d => if F.SLU_CMD.COMMIT.of value = 1 then sluCmdDev (if masterId m = 4 then .none else .runtime) value d else d) s.dev)
def execSluCancel (s : State) : Outcome := s.done (regAccess R.SLU_CMD true sluCancel s.dev)
def execSluCheckOnly (s : State) : Outcome := s.done (regAccess R.SLU_CMD true sluCheckOnly s.dev)
def execSluHwCheckDone (s : State) : Outcome := s.done (hwDoneDev s.dev)
def execSluFwVerdict (value : Word) (s : State) : Outcome := s.done (regAccess R.SLU_FW_VERDICT true (fwVerdictDev value) s.dev)
def execSluFwTimeout (s : State) : Outcome := s.done (fwTimeoutDev s.dev)
def execSluSwitchDone (s : State) : Outcome := s.done (switchDoneDev s.dev)

end Sys2Proof.Machine
end

