-- ==== Sys2Proof/Machine/Debug.lean ====
section
/-! DEFINITION. The debug module (R350), its accesses as master 9 (Table 16.2), and the JTAG port through which it is reached (R350, R485). -/

namespace Sys2Proof.Machine

def setDebug (d : Device) (x : DebugX) : Device := { d with cores := { d.cores with dbgm := x } }

/-- The debug module answers with `v`. -/
def debugData (d : Device) (v : Nat) : Device := setDebug d { d.cores.dbgm with data := v }

/-- dmstatus with hart `n` selected: version 3, authenticated, halt-on-reset, whether the hart is unavailable, halted or running, whether it
has been reset since the last ackhavereset, and whether it has resumed since the last resume request. -/
def dmstatus (d : Device) (n : Nat) : Nat :=
  let x := d.core n
  let hart := if ¬ d.bit F.CORE_DBG.DBG_EN ∨ ¬ coreRuns d n then 0x3000
    else if d.bit (F.CORE_Cn_STATUS.DEBUG_HALTED n) then 0x300 else 0xC00
  let acks := if ¬ d.bit F.CORE_DBG.DBG_EN then 0 else (if x.haveReset then 0xC0000 else 0) + (if x.resumeAck then 0x30000 else 0)
  0xA3 + hart + acks

/-- Hart `n` is halted. -/
def hartHalted (d : Device) (n : Nat) : Bool := coreRuns d n && d.bit (F.CORE_Cn_STATUS.DEBUG_HALTED n)

/-- A halt that the debugger asks for. -/
def debugHalt (n : Nat) (d : Device) : Device := haltHart n 3 d

/-- A resume at dpc in the mode of dcsr; with WDOG_HALT = 1 the watchdog did not count since the halt, or since a later kick. -/
def debugResume (n : Nat) (d : Device) : Device :=
  if ¬ hartHalted d n then d
  else
    let x := d.core n
    let paused := match x.haltAt with | some t => if d.bit F.CORE_DBG.WDOG_HALT then d.tb.edges - Nat.max t x.kickAt else 0 | none => 0
    let h := { x.hart with pc := x.hart.csr csrDpc, machine := (x.hart.csr csrDcsr).getLsbD 0 }
    (d.setBit (F.CORE_Cn_STATUS.DEBUG_HALTED n) false).setCore n
      { x with haltAt := none, kickAt := x.kickAt + paused, hart := h, resumeAck := true }

/-- A resume request: it clears the acknowledgement, and a hart that is not halted acknowledges at once. -/
def resumeAsk (n : Nat) (d : Device) : Device :=
  let d1 := d.setCore n { d.core n with resumeAck := coreActive d n }
  debugResume n d1

/-- dmactive: 0 resets the debug module and, as a master, its locks and mailboxes. -/
def debugActive (on : Bool) (d : Device) : Device :=
  if on then setDebug d { d.cores.dbgm with active := true }
  else
    let d1 := (List.range 4).foldl (fun d n => d.setCore n { d.core n with haltOnReset := false }) (masterReset d 9)
    setDebug d1 {}

/-! ## Abstract commands (R350) -/

/-- An abstract command on hart n: none while cmderr holds an error, an error where the hart is not halted, or where what it asks for is not
there. -/
def abstractDev (n : Nat) (there : Bool) (f : Device → Device) (d : Device) : Device :=
  let x := d.cores.dbgm
  if x.cmderr ≠ 0 then d
  else if ¬ hartHalted d n then setDebug d { x with cmderr := 4 }
  else if ¬ there then setDebug d { x with cmderr := 3 }
  else f d

/-- The program buffer runs: what its program makes of the registers is free, and so is whether it ends in an exception. -/
def progbufRun (n : Nat) (d : Device) : Device :=
  let h := (d.core n).hart
  let r := ranHart d h
  let d1 := d.setCore n { d.core n with hart := { r with pc := h.pc, machine := h.machine } }
  let d2 := if Config.free d.fresh 5000 % 2 = 1 then setDebug d1 { d1.cores.dbgm with cmderr := 3 } else d1
  { d2 with fresh := d.fresh + 1 }

/-! ## The JTAG port (R485) -/

/-- IDCODE: 0x1248 in [27:12]. -/
def idcode : Nat := (Config.jtagVersion ++ 0x1248#16 ++ Config.jtagMaker ++ 1#1).toNat

/-- dtmcs: version 1 of the debug transport, 7 address bits, no error. -/
def dtmcs : Nat := 0x71

/-- Levels at the 73 single-ended balls, in the order of Table 23.19 from TIO0 on: what the device drives, and free values for what it does
not hold (DESIGN CHOICE, log entry "boundary scan"). -/
def ballLevels (d : Device) : Vector Bool 73 :=
  Vector.ofFn (fun i =>
    let k := i.val
    if k < 16 then (tioDrive d k).getD (Config.free d.fresh k % 2 == 1)
    else if 16 ≤ k ∧ k < 32 ∧ k % 4 = 0 then (d.axes[(k - 16) / 4]?.getD {}).a
    else if 16 ≤ k ∧ k < 32 ∧ k % 4 = 1 then (d.axes[(k - 16) / 4]?.getD {}).b
    else if 16 ≤ k ∧ k < 32 ∧ k % 4 = 3 then (d.axes[(k - 16) / 4]?.getD {}).clk
    else if k = 61 then d.tb.ppsOut
    else if k = 63 then d.bit F.CHIP_PINS.SAFE_N
    else if k = 64 then !faultPinLow d
    else if k = 65 then d.bit F.CHIP_PINS.READY
    else Config.free d.fresh k % 2 == 1)

/-- System bus access: none while an error is held. -/
def debugBus (f : Device → Device) (d : Device) : Device :=
  if d.cores.dbgm.sberror then d else let d1 := f d; debugData d1 d1.cores.reply

/-- A request with DBG_EN = 1. Without dmactive only dmactive itself and dmstatus are served. -/
def debugServe (q : DebugReq) (d : Device) : Device :=
  let x := d.cores.dbgm
  match q with
  | .status n => debugData d (dmstatus d n)
  | .active on => debugActive on d
  | q =>
    if ¬ x.active then d
    else match q with
      | .halt n => debugHalt n d
      | .resume n => resumeAsk n d
      | .haltOnReset n on => d.setCore n { d.core n with haltOnReset := on }
      | .readReg n r => abstractDev n (regRead d n r).isSome (fun d => debugData d ((regRead d n r).getD 0#64).toNat) d
      | .writeReg n r v => abstractDev n (regRead d n r).isSome (regWrite n r (BitVec.ofNat 64 v)) d
      | .readProgbuf i => debugData d x.progbuf[i].toNat
      | .writeProgbuf i w => setDebug d { x with progbuf := withUnit x.progbuf i w }
      | .runProgbuf n => abstractDev n true (progbufRun n) d
      | .setTrigger n i a b => if hartHalted d n then d.setCore n { d.core n with triggers := withUnit (d.core n).triggers i (a, b) } else d
      | .readTrigger n i second =>
        if hartHalted d n then let t := unit (d.core n).triggers i; debugData d (if second then t.2 else t.1) else d
      | .sbRead a w => debugBus (busRead 9 a w false 0) d
      | .sbWrite a w v => debugBus (busWrite 9 0 a w false v 0#32) d
      | .ackReset n => d.setCore n { d.core n with haveReset := false }
      | .clearError => setDebug d { x with sberror := false }
      | .clearCmderr => setDebug d { x with cmderr := 0 }
      | .status _ | .active _ | .trst | .irScan _ | .drScan _ => d

/-- A request to the debug module: while DBG_EN = 0 it answers only reads of dmstatus, and system bus access is refused. -/
def dmServe (q : DebugReq) (d : Device) : Device :=
  if d.bit F.CORE_DBG.DBG_EN then debugServe q d
  else match q with
    | .status n => debugData d (dmstatus d n)
    | .sbRead a _ => busError d 9 a false causeRefused
    | .sbWrite a _ _ => busError d 9 a true causeRefused
    | _ => d

/-! ## The debug module interface (R350)

Addresses, fields and the scan format of dmi are those of the debug specification that R350 names (PRESUMED, log entry "the debug module
interface"). -/

/-- The hart that hartsel selects: two of its bits exist. -/
def dmHart (d : Device) : Fin 4 := ⟨d.cores.dbgm.hart % 4, Nat.mod_lt _ (by decide)⟩

/-- The debug module works: it is enabled and dmactive is 1. -/
def dmOn (d : Device) : Bool := d.bit F.CORE_DBG.DBG_EN && d.cores.dbgm.active

/-- What a register of the debug module reads; 0 where it has none, and while the module is off, but for dmstatus. -/
def dmiValue (d : Device) (a : Nat) : Nat :=
  let x := d.cores.dbgm
  if a = 0x11 then dmstatus d (dmHart d)
  else if a = 0x10 ∧ d.bit F.CORE_DBG.DBG_EN then (if x.active then 1 else 0) + x.hart % 4 * 2 ^ 16
  else if ¬ dmOn d then 0
  else if a = 0x04 then x.arg % 2 ^ 32
  else if a = 0x05 then x.arg / 2 ^ 32 % 2 ^ 32
  else if a = 0x16 then 2 + x.cmderr % 8 * 2 ^ 8 + 8 * 2 ^ 24
  else if 0x20 ≤ a ∧ a < 0x28 then (x.progbuf[a - 0x20]?.getD 0#32).toNat
  else if a = 0x38 then
    0xF + 40 * 2 ^ 5 + (if x.sberror then 2 * 2 ^ 12 else 0) + (if x.sbOnData then 2 ^ 15 else 0) + (if x.sbIncr then 2 ^ 16 else 0)
      + x.sbAccess % 8 * 2 ^ 17 + (if x.sbOnAddr then 2 ^ 20 else 0) + 2 ^ 29
  else if a = 0x39 then x.sbAddr % 2 ^ 32
  else if a = 0x3A then x.sbAddr / 2 ^ 32 % 2 ^ 32
  else if a = 0x3C then x.sbData % 2 ^ 32
  else if a = 0x3D then x.sbData / 2 ^ 32 % 2 ^ 32
  else 0

/-- A system bus access at sbaddress, which advances with autoincrement; a read goes to sbdata. -/
def dmiBus (write : Bool) (d : Device) : Device :=
  let x := d.cores.dbgm
  let w := 2 ^ (x.sbAccess % 4)
  if x.sberror then d
  else
    let d1 := if write then busWrite 9 0 x.sbAddr w false (x.sbData % 2 ^ (8 * w)) 0#32 d else busRead 9 x.sbAddr w false 0 d
    let y := d1.cores.dbgm
    if y.sberror then d1
    else setDebug d1 { y with sbData := if write then y.sbData else d1.cores.reply,
                              sbAddr := if y.sbIncr then (y.sbAddr + w) % 2 ^ 64 else y.sbAddr }

/-- A write of dmcontrol: dmactive, the hart, then what it asks of that hart. -/
def dmControl (v : Nat) (d : Device) : Device :=
  if ¬ bitAt v 0 then dmServe (.active false) d
  else
    let d1 := dmServe (.active true) d
    if ¬ dmOn d1 then d1
    else
      let d2 := setDebug d1 { d1.cores.dbgm with hart := bitsOf v 25 16 % 4 }
      let n := dmHart d2
      let d3 := if bitAt v 28 then dmServe (.ackReset n) d2 else d2
      let d4 := if bitAt v 2 then dmServe (.haltOnReset n false) d3 else if bitAt v 3 then dmServe (.haltOnReset n true) d3 else d3
      if bitAt v 31 then dmServe (.halt n) d4 else if bitAt v 30 then resumeAsk n d4 else d4

/-- A write of command: an abstract register access, with the transfer and the program buffer as it asks. -/
def dmCommand (v : Nat) (d : Device) : Device :=
  let n := dmHart d
  let r := bitsOf v 15 0
  let d1 := if ¬ bitAt v 17 then d
    else if bitAt v 16 then dmServe (.writeReg n r d.cores.dbgm.arg) d
    else
      let e := dmServe (.readReg n r) d
      if e.cores.dbgm.cmderr ≠ 0 then e else setDebug e { e.cores.dbgm with arg := e.cores.dbgm.data }
  if d.cores.dbgm.cmderr ≠ 0 then d
  else if bitsOf v 31 24 ≠ 0 then setDebug d { d.cores.dbgm with cmderr := 2 }
  else if bitAt v 18 ∧ d1.cores.dbgm.cmderr = 0 then dmServe (.runProgbuf n) d1 else d1

/-- A register of the debug module is written. -/
def dmiWrite (a v : Nat) (d : Device) : Device :=
  let x := d.cores.dbgm
  if a = 0x10 then dmControl v d
  else if ¬ dmOn d then d
  else if a = 0x04 then setDebug d { x with arg := x.arg / 2 ^ 32 * 2 ^ 32 + v }
  else if a = 0x05 then setDebug d { x with arg := x.arg % 2 ^ 32 + 2 ^ 32 * v }
  else if a = 0x16 then if bitsOf v 10 8 ≠ 0 then dmServe .clearCmderr d else d
  else if a = 0x17 then dmCommand v d
  else if 0x20 ≤ a ∧ a < 0x28 then setDebug d { x with progbuf := withUnit x.progbuf (a - 0x20) (BitVec.ofNat 32 v) }
  else if a = 0x38 then
    setDebug d { x with sberror := x.sberror && bitsOf v 14 12 == 0, sbOnData := bitAt v 15, sbIncr := bitAt v 16, sbAccess := bitsOf v 19 17,
                        sbOnAddr := bitAt v 20 }
  else if a = 0x39 then
    let d1 := setDebug d { x with sbAddr := x.sbAddr / 2 ^ 32 * 2 ^ 32 + v }
    if x.sbOnAddr then dmiBus false d1 else d1
  else if a = 0x3A then setDebug d { x with sbAddr := x.sbAddr % 2 ^ 32 + 2 ^ 32 * v }
  else if a = 0x3C then dmiBus true (setDebug d { x with sbData := x.sbData / 2 ^ 32 * 2 ^ 32 + v })
  else if a = 0x3D then setDebug d { x with sbData := x.sbData % 2 ^ 32 + 2 ^ 32 * v }
  else d

/-- A scan of dmi: out goes the result of the request before, in comes the next: op in [1:0], data in [33:2], address in [40:34]. A read of
sbdata0 starts the next bus read where sbcs asks for it. -/
def dmiScan (v : Nat) (d : Device) : Device :=
  let d0 := debugData d d.cores.jtag.dmi
  let a := bitsOf v 40 34
  let w := bitsOf v 33 2
  let keep (x : Nat) (d : Device) : Device := { d with cores := { d.cores with jtag := { d.cores.jtag with dmi := 4 * x + 2 ^ 34 * a } } }
  match v % 4 with
  | 1 =>
    let d1 := keep (dmiValue d0 a) d0
    if a = 0x3C ∧ dmOn d ∧ d.cores.dbgm.sbOnData then dmiBus false d1 else d1
  | 2 => keep w (dmiWrite a w d0)
  | _ => d0

/-- A scan of the data register in force: what it captured is shifted out, and what is shifted in takes effect. -/
def drScan (v : Nat) (d : Device) : Device :=
  let j := d.cores.jtag
  let answer (x : Nat) : Device := debugData d x
  match j.ir with
  | .bypass => answer 0
  | .idcode => answer idcode
  | .dtmcs => answer dtmcs
  | .dmi => dmiScan v d
  | .sample | .extest =>
    let out := ((List.range 73).map (fun i => if (ballLevels d)[i]?.getD false then 2 ^ i else 0)).sum
    let d1 := debugData d out
    { d1 with fresh := d.fresh + 1, cores := { d1.cores with jtag := { j with boundary := Vector.ofFn (fun i => bitAt v i.val) } } }

/-- The instruction of the test access port. -/
def setIr (ir : JtagIr) (d : Device) : Device := { d with cores := { d.cores with jtag := { d.cores.jtag with ir := ir } } }

/-- DEBUG_REQUEST. The test access port works at all times. -/
def debugDev (q : DebugReq) (d : Device) : Device :=
  match q with
  | .trst => setIr .idcode d
  | .irScan ir => setIr ir d
  | .drScan v => drScan v d
  | q => dmServe q d

def execDebugRequest (q : DebugReq) (s : State) : Outcome := s.done (debugDev q s.dev)

end Sys2Proof.Machine
end

