-- ==== Sys2Proof/Machine/Dma.lean ====
section
/-! DEFINITION. DMA data movement, arbitration, check values, completion and errors (R363 to R369, R372 to R377). -/

namespace Sys2Proof.Machine

/-- One byte into the check value of a channel: CRC-32C in final form, or the sum of little-endian words (R368). -/
def csumByte (mode pos v : Nat) (b : Byte) : Nat :=
  match mode with
  | 1 => crcByte (v ^^^ 0xFFFFFFFF) b ^^^ 0xFFFFFFFF
  | 2 => (v + b.toNat * 256 ^ (pos % 4)) % 2 ^ 32
  | _ => v

/-- Bytes that have been written enter the check value. -/
def csumTake (d : Device) (c : Nat) (bs : List Byte) : Device :=
  let m := d.get (F.DMAc_CFG.CSUM c)
  if m = 0 then d
  else
    let (v, p) := bs.foldl (fun (a : Nat × Nat) b => (csumByte m a.2 a.1 b, (a.2 + 1) % 4)) ((d.rd (R.DMAc_CSUM c)).toNat, (unit d.dma c).pos)
    { d.wr (R.DMAc_CSUM c) (BitVec.ofNat 32 v) with dma := withUnit d.dma c { unit d.dma c with pos := p } }

/-- The live fields after an element of `e` bytes. -/
def dmaAdvance (d : Device) (c e : Nat) : Device :=
  let d1 := if d.bit (F.DMAc_CFG.SRC_FIX c) then d else d.setPair (R.DMAc_SRC_LO c) (R.DMAc_SRC_HI c) ((dmaSrc d c + e) % 2 ^ 64)
  let d2 := if d.bit (F.DMAc_CFG.DST_FIX c) then d1 else d1.setPair (R.DMAc_DST_LO c) (R.DMAc_DST_HI c) ((dmaDst d c + e) % 2 ^ 64)
  d2.wr (R.DMAc_LEN c) (BitVec.ofNat 32 (dmaLen d c - e))

/-- The area at the address takes any width, so that accesses there go in pieces of up to 64 bytes (R363). -/
def dmaWide (d : Device) (a : Nat) : Bool := match areaAt d a with | some x => (areaWidths x).contains 8 | none => false

/-- Bytes of the next access at `a`, with `left` bytes to go: one element at a fixed address and in a narrow area, else up to the next
64-byte boundary (R363). -/
def dmaPiece (d : Device) (fixed : Bool) (a e left : Nat) : Nat := if fixed || !dmaWide d a then e else capN left (64 - a % 64)

/-- `n` elements of `e` bytes are read from `a` on; the address of one that ends with a bus error. -/
def dmaReads (e : Nat) : Nat → Nat → Device → List Byte × Option Nat × Device
  | 0, _, d => ([], none, d)
  | n + 1, a, d =>
    let d1 := busRead dmaMaster a e false 0 d
    if d1.cores.busError then ([], some a, d1)
    else
      let v := d1.cores.reply
      let (bs, err, d2) := dmaReads e n (a + e) d1
      (leBytes e v ++ bs, err, d2)

/-- The bytes are written in `n` elements of `e` bytes from `a` on; the address of one that ends with a bus error. -/
def dmaWrites (e : Nat) : Nat → Nat → List Byte → Device → Option Nat × Device
  | 0, _, _, d => (none, d)
  | n + 1, a, bs, d =>
    let d1 := busWrite dmaMaster 0 a e false (leNat (bs.take e)) 0#32 d
    if d1.cores.busError then (some a, d1) else dmaWrites e n (a + e) (bs.drop e) d1

/-- One read of channel `c`, with `left` bytes to go. Whether the channel goes on. -/
def dmaReadAccess (c left : Nat) (d : Device) : Device × Bool :=
  let e := dmaSize d c
  let (bs, err, d1) := dmaReads e (dmaPiece d (d.bit (F.DMAc_CFG.SRC_FIX c)) (dmaSrc d c) e left / e) (dmaSrc d c) d
  match err with
  | some a => (dmaHalt d1 c (F.DMAc_FLAGS.BUS_ERR c) a false 0, false)
  | none => (d1.withChan c (fun x => { x with data := bs }), true)

/-- A write of channel `c` to `a` has been issued; with BARRIER = 0 the transfer completes with its last one (R367). -/
def dmaIssued (c a : Nat) (last : Bool) (d : Device) : Device × Bool :=
  let d1 := { d with dmaOut := d.dmaOut ++ [(c, a)] }
  if last ∧ ¬ d.bit (F.DMAc_CFG.BARRIER c) then (dmaCompleted (d1.withChan c (fun x => { x with tail := some a })) c, false) else (d1, true)

/-- A write of channel `c` to `a` ends with a bus error: the channel halts, behind its completion where the last write of a transfer without
BARRIER had completed it at its issue (R367, R374). -/
def dmaWriteFails (c a : Nat) (last : Bool) (d : Device) : Device × Bool :=
  (dmaHalt (if last ∧ ¬ d.bit (F.DMAc_CFG.BARRIER c) then dmaCompleted d c else d) c (F.DMAc_FLAGS.BUS_ERR c) a true 0, false)

/-- One write of data of channel `c`; what it writes enters the check value. -/
def dmaWriteAccess (c : Nat) (d : Device) : Device × Bool :=
  let e := dmaSize d c
  let x := unit d.dma c
  let a := dmaDst d c
  let n := dmaPiece d (d.bit (F.DMAc_CFG.DST_FIX c)) a e x.data.length
  let last := decide (dmaLen d c ≤ n) && !d.bit (F.DMAc_CFG.CSUM_WR c)
  let (err, d1) := dmaWrites e (n / e) a x.data d
  match err with
  | some f => dmaWriteFails c f last d1
  | none => dmaIssued c a last ((dmaAdvance (csumTake d1 c (x.data.take n)) c n).withChan c (fun y => { y with data := x.data.drop n }))

/-- The write of the check value behind the data (R369). -/
def dmaSumAccess (c : Nat) (d : Device) : Device × Bool :=
  let a := dmaDst d c
  let d1 := busWrite dmaMaster 0 a 4 false (d.rd (R.DMAc_CSUM c)).toNat 0#32 d
  if d1.cores.busError then dmaWriteFails c a true d1 else dmaIssued c a true (d1.withChan c (fun x => { x with summed := true }))

/-- The access granted to channel `c`: a write of the data it holds, else a read, else the write of the check value. -/
def dmaAccess (c left : Nat) (d : Device) : Device × Bool :=
  if (unit d.dma c).data ≠ [] then dmaWriteAccess c d
  else if dmaLen d c ≠ 0 then dmaReadAccess c left d
  else dmaSumAccess c d

/-- Channel `j` has an access to make, while channel `c` moves until `target` bytes are left: in RUN, and in DRAIN where its reads had been
issued. -/
def dmaWants (c target : Nat) (d : Device) (j : Nat) : Bool :=
  let st := d.dmaState j
  let own := j == c
  let more := decide (dmaLen d j > (if own then target else 0))
    || (dmaLen d j == 0 && d.bit (F.DMAc_CFG.CSUM_WR j) && !(unit d.dma j).summed)
  if st = dmRun then more else if st = dmDrain then (own && more) || (unit d.dma j).data != [] else false

/-- Channel `j` is served before channel `k` (R376). -/
def dmaBefore (d : Device) (j k : Nat) : Bool :=
  let long (i : Nat) : Bool := decide ((unit d.dma i).waited ≥ 256)
  let prio (i : Nat) : Bool := d.bit (F.DMAc_CFG.PRIO i)
  if long j ≠ long k then long j else if prio j ≠ prio k then prio j else decide (j < k)

/-- The channel that an issue slot serves. -/
def dmaPick (c target : Nat) (d : Device) : Option Nat :=
  ((List.range 16).filter (dmaWants c target d)).foldl (fun o j => match o with | none => some j | some k => if dmaBefore d j k then some j else o) none

/-- The slots that the channels wait, and the grant of channel `g`. -/
def dmaWaited (c target : Nat) (g : Option Nat) (d : Device) : Device :=
  { d with dma := Vector.ofFn (fun (j : Fin 16) =>
      { d.dma[j] with waited := if g = some j.val then 0 else if dmaWants c target d j then d.dma[j].waited + 1 else d.dma[j].waited }) }

/-- One issue slot: with 32 accesses outstanding the oldest returns, else one access of the channel that comes first is issued (R376).
Whether channel `c` goes on. -/
def dmaSlot (c target : Nat) (d : Device) : Device × Bool :=
  if 32 ≤ d.dmaOut.length then (dmaWaited c target none { d with dmaOut := d.dmaOut.drop 1 }, true)
  else match dmaPick c target d with
    | none => (d, true)
    | some g =>
      let r := dmaAccess g (dmaLen d g - (if g = c then target else 0)) (dmaWaited c target (some g) d)
      (r.1, r.2 || g != c)

/-- Issue slots pass until channel `c` has no access left to make, or its transfer has ended; whether it goes on. -/
def dmaSlots (c target : Nat) : Nat → Device → Device × Bool
  | 0, d => (d, true)
  | n + 1, d =>
    if ¬ dmaWants c target d c then (d, true)
    else let r := dmaSlot c target d; if r.2 then dmaSlots c target n r.1 else r

/-- Issue slots in which channel `c` gets `n` more accesses at the latest. -/
def dmaFuel (n : Nat) : Nat := 600 * n

/-- Channel `c` moves until `bytes` more bytes have been written (R363, R364). -/
def dmaBytes (d : Device) (c bytes : Nat) : Device × Bool :=
  let n := capN (dmaLen d c) bytes
  dmaSlots c (dmaLen d c - n) (dmaFuel (2 * n + 2)) d

/-- Bytes of the channel that have been read and not written. -/
def dmaHeld (d : Device) (c : Nat) : Nat := (unit d.dma c).data.length

/-- The responses of all the channel's writes have returned, and the transfer completes (R367). -/
def dmaFinish (d : Device) (c : Nat) : Device := dmaCompleted (dmaReturned d c) c

/-- DMA_COMPLETE: everything left moves, and the transfer completes: with its last write, or with BARRIER = 1 when its writes have returned
(R367). -/
def dmaCompleteDev (c : Nat) (d : Device) : Device :=
  if d.dmaState c ≠ dmRun then d
  else let r := dmaBytes d c (dmaLen d c); if r.2 then dmaFinish r.1 c else r.1

/-- DMA_DRAIN_DONE: the accesses under way have ended; the channel pauses, or has finished (R372), or halts where a read had failed (R374). -/
def dmaDrainDev (c bytes : Nat) (d : Device) : Device :=
  if d.dmaState c ≠ dmDrain then d
  else
    let halting := (unit d.dma c).halting
    let r := dmaBytes d c (if halting.isSome then dmaHeld d c else max bytes (dmaHeld d c))
    if ¬ r.2 then r.1
    else if let some (a, cause) := halting then dmaHalt r.1 c (F.DMAc_FLAGS.BUS_ERR c) a false cause
    else if dmaLen r.1 c = 0 then dmaFinish r.1 c else setDma (dmaReturned r.1 c) c dmPaused

/-- DMA_ABORT: the writes that had been issued are done, the rest is discarded (R373); a transfer that starts in the same cycle has made no
access (Table 17.1). -/
def dmaAbortDev (c bytes : Nat) (d : Device) : Device :=
  if d.dmaState c = dmRun ∨ d.dmaState c = dmDrain then
    dmaAborted (dmaBytes d c (if (unit d.dma c).began = some d.tb.edges then 0 else bytes)).1 c
  else dmaAborted d c

/-- The last write of a transfer that completed with its issue, where its response is still outstanding. -/
def dmaTail (d : Device) (c : Nat) : Option Nat := (unit d.dma c).tail.filter (fun a => d.dmaOut.contains (c, a))

/-- DMA_BUS_ERROR: after `bytes` bytes a read or a write fails, which is latched as any bus error is (R353, R374); an uncorrectable DRAM read
has CAUSE 1. In IDLE, or where it is `late`, it is the response of the last write of a transfer that completed with its issue: the channel
halts in whatever state the hand-over has put it (DESIGN CHOICE, log entry "late DMA errors"). -/
def dmaErrorDev (c bytes : Nat) (write dram late : Bool) (d : Device) : Device :=
  let st := d.dmaState c
  let halt (d : Device) (a : Nat) (w : Bool) (cause : Nat) : Device :=
    dmaHalt (latchBusError d dmaMaster a w causeRefused) c (F.DMAc_FLAGS.BUS_ERR c) a w cause
  if late ∨ (st = dmIdle ∧ write) then
    match dmaTail d c with
    | some a => (halt d a true 0).withChan c (fun x => { x with tail := none })
    | none => d
  else if st = dmRun ∨ st = dmDrain then
    let r := dmaBytes d c (if write then bytes else max bytes (dmaHeld d c))
    if r.2 then halt r.1 (if write then dmaDst r.1 c else dmaSrc r.1 c) write (if dram ∧ ¬ write then 1 else 0) else r.1
  else d

/-- Bytes of an area that holds bytes. -/
def isBytes (d : Device) (a : Nat) : Bool :=
  match areaAt d a with
  | some .sram | some (.tcm _) | some .mram | some .dram | some .nodes | some .weights | some .list => true
  | _ => false

/-- DMA_DOMAIN_TIMEOUT: a channel that has not reached PAUSED in 10 µs halts; what its outstanding writes leave is undefined
(R375, notes/assumptions/2.md), with DST_FIX the one element there. A channel in WAIT has no access outstanding and so no address to latch. -/
def dmaDomainDev (c bytes outstanding : Nat) (write : Bool) (d : Device) : Device :=
  if (unit d.dma c).leaving = none then d
  else if d.dmaState c = dmWait then dmaFlag (setDma d c dmHalted) (F.DMAc_FLAGS.DOMAIN_DOWN c)
  else
    let (d1, ok) := dmaBytes d c bytes
    if ¬ ok then d1
    else
      let a := dmaDst d1 c
      let n := capN (if d.bit (F.DMAc_CFG.DST_FIX c) then dmaSize d c else dmaLen d1 c) outstanding
      let (v, d2) := d1.free (8 * n)
      let d3 := ((leBytes n v).zip (List.range n)).foldl (fun d e => if isBytes d (a + e.2) then d.setByte (a + e.2) e.1 else d) d2
      dmaHalt d3 c (F.DMAc_FLAGS.DOMAIN_DOWN c) (if write then a else dmaSrc d1 c) write 2

def execDmaDrainDone (c : Fin 16) (bytes : Nat) (s : State) : Outcome := s.done (dmaDrainDev c bytes s.dev)
def execDmaAbort (c : Fin 16) (bytes : Nat) (s : State) : Outcome := s.done (regAccess (R.DMAc_CTRL c) true (dmaAbortDev c bytes) s.dev)
def execDmaComplete (c : Fin 16) (s : State) : Outcome := s.done (dmaCompleteDev c s.dev)
def execDmaBusError (c : Fin 16) (bytes : Nat) (write dram late : Bool) (s : State) : Outcome :=
  s.done (dmaErrorDev c bytes write dram late s.dev)
def execDmaDomainTimeout (c : Fin 16) (bytes outstanding : Nat) (write : Bool) (s : State) : Outcome :=
  s.done (dmaDomainDev c bytes outstanding write s.dev)

end Sys2Proof.Machine
end

