-- ==== Sys2Proof/Machine/Frames.lean ====
section
/-! DEFINITION. Ethernet frames and IP packets: their parts, check values, and the frames that the device makes (R303, R306, R310). -/

namespace Sys2Proof.Machine

/-! ## Check values of IEEE 802.3 and of the Internet protocols -/

/-- One bit of the reflected CRC-32 of IEEE 802.3. -/
def fcsBit (r : Nat) : Nat := if r % 2 = 1 then (r / 2) ^^^ 0xEDB88320 else r / 2

/-- One byte of it. -/
def fcsByte (r : Nat) (b : Byte) : Nat :=
  fcsBit (fcsBit (fcsBit (fcsBit (fcsBit (fcsBit (fcsBit (fcsBit (r ^^^ b.toNat))))))))

/-- The FCS of a frame. -/
def fcs (bs : List Byte) : Nat := bs.foldl fcsByte 0xFFFFFFFF ^^^ 0xFFFFFFFF

/-- Sum of the 16-bit words, most significant byte first, an odd last byte padded with zero. -/
def sum16 : List Byte → Nat
  | [] => 0
  | [a] => 256 * a.toNat
  | a :: b :: t => 256 * a.toNat + b.toNat + sum16 t

/-- A sum below 2^32 reduced to 16 bits in one's complement. -/
def fold16 (n : Nat) : Nat := let f (m : Nat) : Nat := m % 65536 + m / 65536; f (f (f n))

/-- Field of `n` bytes at offset `o`, most significant byte first. -/
def beAt (bs : List Byte) (o n : Nat) : Nat := beNat ((bs.drop o).take n)

/-! ## Frames -/

/-- A frame without its FCS: destination and source (byte 0 lowest), its tag's TCI, whether tags are stacked, Ethertype, and what follows it. -/
structure Frame where
  dst : Nat
  src : Nat
  tag : Option Nat
  stacked : Bool
  type : Nat
  pay : List Byte
deriving DecidableEq, Repr

/-- Ethertypes of tags. -/
def isTag (t : Nat) : Bool := t == 0x8100 || t == 0x88A8

/-- The frame that bytes form. -/
def frameOf (bs : List Byte) : Frame :=
  let t0 := beAt bs 12 2
  let t1 := beAt bs 16 2
  if isTag t0 then
    { dst := leAt bs 0 6, src := leAt bs 6 6, tag := some (beAt bs 14 2), stacked := t0 ≠ 0x8100 || isTag t1, type := t1, pay := bs.drop 18 }
  else { dst := leAt bs 0 6, src := leAt bs 6 6, tag := none, stacked := false, type := t0, pay := bs.drop 14 }

/-- An IP packet: version, header checksum, whether it is a fragment and the first one, source, destination, protocol, what follows the headers,
and the pseudo header's sum without protocol and length. -/
structure Packet where
  v6 : Bool
  headOk : Bool
  fragment : Bool
  first : Bool
  src : Nat
  dst : Nat
  proto : Nat
  l4 : List Byte
  pseudo : Nat
deriving DecidableEq, Repr

/-- The packet in a frame, if it is IPv4 or IPv6. An IPv6 fragment header is followed; other extension headers are not. -/
def packetOf (f : Frame) : Option Packet :=
  let p := f.pay
  if f.type = 0x0800 ∧ beAt p 0 1 / 16 = 4 then
    let h := 4 * (beAt p 0 1 % 16)
    let n := beAt p 2 2
    let off := beAt p 6 2 % 8192
    let ok := decide (20 ≤ h ∧ h ≤ n ∧ n ≤ p.length) && fold16 (sum16 (p.take h)) == 0xFFFF
    some { v6 := false, headOk := ok, fragment := off != 0 || bitAt (beAt p 6 2) 13, first := off == 0, src := beAt p 12 4,
           dst := beAt p 16 4, proto := beAt p 9 1, l4 := (p.take n).drop h, pseudo := sum16 ((p.drop 12).take 8) }
  else if f.type = 0x86DD ∧ beAt p 0 1 / 16 = 6 then
    let n := 40 + beAt p 4 2
    let frag := beAt p 6 1 == 44
    let body := (p.take n).drop 40
    let off := beAt body 2 2 / 8
    some { v6 := true, headOk := decide (n ≤ p.length), fragment := frag, first := !frag || off == 0, src := beAt p 8 16,
           dst := beAt p 24 16, proto := if frag then beAt body 0 1 else beAt p 6 1, l4 := if frag then body.drop 8 else body, pseudo := sum16 ((p.drop 8).take 32) }
  else none

/-- UDP destination port, where the packet shows one. -/
def udpPort (p : Packet) : Option Nat := if p.proto = 17 ∧ p.first ∧ 8 ≤ p.l4.length then some (beAt p.l4 2 2) else none

/-- The UDP checksum holds; zero means none in IPv4. A fragment's is not checked. -/
def udpOk (p : Packet) : Bool :=
  if p.proto ≠ 17 ∨ p.fragment then true
  else
    let n := beAt p.l4 4 2
    decide (8 ≤ n ∧ n ≤ p.l4.length) && (if beAt p.l4 6 2 = 0 then !p.v6 else fold16 (p.pseudo + 17 + n + sum16 (p.l4.take n)) == 0xFFFF)

/-- The checks of R306 pass, or there is nothing to check. -/
def checksumOk (p : Option Packet) : Bool := match p with | some x => x.headOk && udpOk x | none => true

/-! ## Addresses -/

def ownMac (d : Device) : Nat := d.get F.ETH_MAC_LO.V + 2 ^ 32 * d.get F.ETH_MAC_HI.V

/-- MAC address of a multicast IP address: 01-00-5E and 23 bits, or 33-33 and 32 bits. -/
def groupMac (v6 : Bool) (ip : Nat) : Nat :=
  leNat (if v6 then [0x33#8, 0x33#8] ++ beBytes 4 (ip % 2 ^ 32) else [0x01#8, 0x00#8, 0x5E#8] ++ beBytes 3 (ip % 2 ^ 23))

/-! ## Frames that go out (R303, R306) -/

/-- A frame with the device's tag: ETH_VLAN's PCP and VID. -/
def withTag (d : Device) (bs : List Byte) : List Byte :=
  bs.take 12 ++ beBytes 2 0x8100 ++ beBytes 2 (d.get F.ETH_VLAN.PCP * 8192 + d.get F.ETH_VLAN.VID) ++ bs.drop 12

/-- Two bytes at offset `o` replaced by a check value. -/
def put16 (bs : List Byte) (o v : Nat) : List Byte := bs.take o ++ beBytes 2 v ++ bs.drop (o + 2)

/-- The check value of a sum. -/
def check16 (n : Nat) : Nat := 65535 - fold16 n

/-- The IPv4 header checksum and the UDP checksum filled in (R306); a UDP checksum of 0 goes out as 0xFFFF. -/
def fillChecks (bs : List Byte) : List Byte :=
  let f := frameOf bs
  let o := bs.length - f.pay.length
  let h := 4 * (beAt f.pay 0 1 % 16)
  let b1 := if f.type = 0x0800 then
      let z := put16 bs (o + 10) 0
      put16 z (o + 10) (check16 (sum16 ((z.drop o).take h)))
    else bs
  match packetOf (frameOf b1) with
  | some p =>
    if p.proto = 17 ∧ ¬ p.fragment ∧ 8 ≤ p.l4.length then
      let u := o + (if p.v6 then 40 else h)
      let n := beAt p.l4 4 2
      let z := put16 b1 (u + 6) 0
      let c := check16 (p.pseudo + 17 + n + sum16 ((z.drop u).take n))
      put16 z (u + 6) (if c = 0 then 65535 else c)
    else b1
  | none => b1

/-- A frame of at least 60 bytes, zeros at its end. -/
def padded (bs : List Byte) : List Byte := bs ++ List.replicate (60 - bs.length) 0#8

/-- A frame as the MAC sends it, without its FCS: tagged with VLAN_EN, unless it carries a tag already (R303). -/
def macFrame (d : Device) (tagged : Bool) (bs : List Byte) : List Byte := if d.bit F.ETH_CFG.VLAN_EN ∧ ¬ tagged then withTag d bs else bs

/-- The Ethernet header to `dst`. -/
def etherHead (d : Device) (dst type : Nat) : List Byte := leBytes 6 dst ++ leBytes 6 (ownMac d) ++ beBytes 2 type

/-- An IP header without options in front of `n` bytes; the header checksum is filled in later. The identification is 0 and DF is set
(PRESUMED, log entry "headers of sent packets"). -/
def ipHead (v6 : Bool) (src dst proto n : Nat) : List Byte :=
  if v6 then [0x60#8, 0#8, 0#8, 0#8] ++ beBytes 2 n ++ beBytes 1 proto ++ [Config.ipTtl] ++ beBytes 16 src ++ beBytes 16 dst
  else [0x45#8, 0#8] ++ beBytes 2 (20 + n) ++ [0#8, 0#8, 0x40#8, 0#8, Config.ipTtl] ++ beBytes 1 proto ++ [0#8, 0#8] ++ beBytes 4 src ++ beBytes 4 dst

/-- A UDP header in front of `n` bytes; the checksum is filled in later. -/
def udpHead (sport dport n : Nat) : List Byte := beBytes 2 sport ++ beBytes 2 dport ++ beBytes 2 (8 + n) ++ [0#8, 0#8]

/-- Bytes of the IP packet that carries `n` bytes over UDP. -/
def udpPacket (v6 : Bool) (n : Nat) : Nat := (if v6 then 48 else 28) + n

/-- A UDP datagram in its frame. -/
def udpFrame (d : Device) (mac : Nat) (v6 : Bool) (src dst sport dport : Nat) (data : List Byte) : List Byte :=
  fillChecks (padded (etherHead d mac (if v6 then 0x86DD else 0x0800) ++ ipHead v6 src dst 17 (8 + data.length)
    ++ udpHead sport dport data.length ++ data))

end Sys2Proof.Machine
end

