-- ==== Sys2Proof/Machine/NetOps.lean ====
section
/-! DEFINITION. The network services of the Virend runtime (Table 14.3): ARP (RFC 826), ICMPv4 echo (RFC 792), IPv6 neighbour discovery
(RFC 4861), the DHCPv4 client (RFC 2131), and the header templates of the stream engines. The manual names them and gives no formats; these
are the RFCs' (PRESUMED, log entry "network services"). -/

namespace Sys2Proof.Machine

/-- The boot ROM serves the recovery functions (Table 19.1, R402). -/
def recovering (d : Device) : Bool := d.boot.phase == .failed || d.boot.phase == .recovery

/-- The network services run: the Virend runtime, or the boot ROM. -/
def netServes (d : Device) : Bool := d.boot.phase == .done || recovering d

/-- The device's IPv4 address: 169.254.18.72 in recovery (Table 19.1), the image's, or the one that DHCP has bound. -/
def ownIp4 (d : Device) : Option Nat :=
  if recovering d then some 0xA9FE1248
  else match Config.staticIp4, d.eth.dhcp with
    | some a, _ => some a.toNat
    | none, .bound a => some a
    | none, _ => none

/-- Its IPv6 address, if the image gives one. -/
def ownIp6 (d : Device) : Option Nat := if recovering d then none else Config.staticIp6.map BitVec.toNat

/-- The device's address of a family, 0 where it has none. -/
def ownIp (d : Device) (v6 : Bool) : Nat := ((if v6 then ownIp6 d else ownIp4 d)).getD 0

/-- A neighbour's MAC address, where it is known. -/
def macKnown (d : Device) (a : KcpAddr) : Option Nat := (d.eth.neighbours.find? (fun e => e.1 == a)).map Prod.snd

/-- A neighbour's MAC address; a free value where it is not known (log entry "network services"). -/
def macOf (d : Device) (a : KcpAddr) : Nat := (macKnown d a).getD (Config.free d.fresh 0 % 2 ^ 48)

/-! ## The rings in DRAM (R307, R308) -/

def slotBytes : Nat := 10240

/-- Address of slot `k` of the ring whose BASE registers are `lo` and `hi`. -/
def slotAddr (d : Device) (lo hi k : Nat) : Nat := d.pair lo hi + slotBytes * k

/-- Bytes written where they lie in the DRAM window, while the controllers serve. -/
def dramStore (d : Device) (a : Nat) : List Byte → Device
  | [] => d
  | b :: t => dramStore (if inDram d a ∧ dramServes d then d.setByte a b else d) (a + 1) t

/-- The transmit ring has a slot free. -/
def txRoom (d : Device) : Bool :=
  d.bit F.ETH_TXQ_SIZE.EN && (d.get F.ETH_TXQ_TAIL.TAIL + 1) % 2 ^ d.get F.ETH_TXQ_SIZE.SLOTS_LOG2 != d.get F.ETH_TXQ_HEAD.HEAD

/-- Firmware fills slot TAIL of the transmit ring with a frame and advances TAIL (R307). -/
def txFill (d : Device) (frame : List Byte) : Device :=
  let tail := d.get F.ETH_TXQ_TAIL.TAIL
  let d1 := dramStore d (slotAddr d R.ETH_TXQ_BASE_LO R.ETH_TXQ_BASE_HI tail) (leBytes 2 frame.length ++ List.replicate 14 0#8 ++ frame)
  d1.set F.ETH_TXQ_TAIL.TAIL ((tail + 1) % 2 ^ d.get F.ETH_TXQ_SIZE.SLOTS_LOG2)

/-- The frame of a message to a client with the MAC address `mac`, without tag and FCS; none where the IP packet would exceed ETH_MTU, so
that it is not sent (R310). -/
def firmBytes (d : Device) (mac : Nat) : FirmFrame → Option (List Byte)
  | .bytes b => some b
  | .kcp r client port =>
    let data := replyBytes r
    if d.get F.ETH_MTU.MTU < udpPacket client.v6 data.length then none
    else some (udpFrame d mac client.v6 (ownIp d client.v6) client.ip (d.get F.KCP_CFG.PORT) port data)

/-- The request for a client's MAC address: an ARP request, or a neighbour solicitation (Table 14.3). -/
def askFrame (d : Device) (a : KcpAddr) : List Byte :=
  if a.v6 then
    let own := ownIp d true
    let dst := 0xFF020000000000000000000100000000 + (0xFF000000 + a.ip % 2 ^ 24)
    let m := [135#8, 0#8, 0#8, 0#8, 0#8, 0#8, 0#8, 0#8] ++ beBytes 16 a.ip ++ [1#8, 1#8] ++ leBytes 6 (ownMac d)
    let m1 := put16 m 2 (check16 (sum16 (beBytes 16 own ++ beBytes 16 dst) + 58 + m.length + sum16 m))
    let head := (ipHead true own dst 58 m1.length).take 7 ++ [255#8] ++ (ipHead true own dst 58 m1.length).drop 8
    padded (etherHead d (groupMac true dst) 0x86DD ++ head ++ m1)
  else
    padded (etherHead d (2 ^ 48 - 1) 0x0806 ++ beBytes 6 0x000108000604 ++ beBytes 2 1 ++ leBytes 6 (ownMac d) ++ beBytes 4 (ownIp d false)
      ++ beBytes 6 0 ++ beBytes 4 a.ip)

/-- The MAC address of a client that is not known is asked for, once. -/
def askMac (d : Device) (a : KcpAddr) : Device :=
  if (macKnown d a).isSome ∨ d.eth.asked.contains a then d
  else d.withEth { d.eth with asked := a :: d.eth.asked, firm := .bytes (askFrame d a) :: d.eth.firm }

/-- The client that a frame goes to and whose MAC address is not known. -/
def unknownClient (d : Device) : FirmFrame → Option KcpAddr
  | .kcp _ client _ => if (macKnown d client).isSome then none else some client
  | .bytes _ => none

/-- The runtime's frames that wait enter the ring as long as it has room, in at most `fuel` steps (R308). A reply to a client whose MAC address
is not known waits for it, and lets the others pass. -/
def pump : Nat → Device → Device
  | 0, d => d
  | n + 1, d =>
    if recovering d ∨ ¬ txRoom d then d
    else match d.eth.firm.find? (fun f => (unknownClient d f).isNone) with
      | none => d
      | some f =>
        let d1 := d.withEth { d.eth with firm := d.eth.firm.erase f }
        let mac := match f with | .kcp _ c _ => macOf d c | .bytes _ => 0
        pump n (match firmBytes d mac f with | some b => txFill d1 b | none => d1)

/-- A frame of the runtime enters the firmware ring, after a request for its client's MAC address where that is not known; one of the boot
ROM, which has no DRAM, waits for the transmitter itself (DESIGN CHOICE, log entry "network services"). -/
def sendFirm (d : Device) (f : FirmFrame) : Device :=
  let d1 := d.withEth { d.eth with firm := d.eth.firm ++ [f] }
  pump 64 (match unknownClient d f with | some a => askMac d1 a | none => d1)

/-- A neighbour's MAC address is learnt. -/
def learn (d : Device) (a : KcpAddr) (mac : Nat) : Device :=
  pump 64 (d.withEth { d.eth with
    neighbours := ((a, mac) :: d.eth.neighbours.filter (fun e => e.1 != a)).take 64, asked := d.eth.asked.filter (fun x => x != a) })

/-! ## ARP and ICMP -/

/-- An ARP packet: the sender is learnt where it asks for the device or answers it, and a request for the device's address is answered. -/
def arpServe (p : List Byte) (d : Device) : Device :=
  let sha := leAt p 8 6
  let spa := beAt p 14 4
  if p.length < 28 ∨ beAt p 0 6 ≠ 0x000108000604 ∨ some (beAt p 24 4) ≠ ownIp4 d then d
  else
    let d1 := learn d { v6 := false, ip := spa } sha
    if beAt p 6 2 ≠ 1 then d1
    else sendFirm d1 (.bytes (padded (etherHead d sha 0x0806 ++ beBytes 6 0x000108000604 ++ beBytes 2 2 ++ leBytes 6 (ownMac d)
      ++ beBytes 4 (beAt p 24 4) ++ leBytes 6 sha ++ beBytes 4 spa)))

/-- An ICMPv4 echo request to the device is answered with its own identifier, sequence number and data. -/
def echoServe (f : Frame) (p : Packet) (d : Device) : Device :=
  let m := p.l4
  if m.length < 8 ∨ beAt m 0 2 ≠ 0x0800 ∨ fold16 (sum16 m) ≠ 0xFFFF ∨ some p.dst ≠ ownIp4 d then d
  else
    let r := put16 ([0#8, 0#8, 0#8, 0#8] ++ m.drop 4) 2 0
    let r1 := put16 r 2 (check16 (sum16 r))
    if d.get F.ETH_MTU.MTU < 20 + r1.length then d
    else sendFirm d (.bytes (fillChecks (padded (etherHead d f.src 0x0800 ++ ipHead false p.dst p.src 1 r1.length ++ r1))))

/-- An option of a neighbour discovery message that carries a link-layer address. -/
def linkOption (kind : Nat) : Nat → List Byte → Option Nat
  | 0, _ => none
  | n + 1, b =>
    if b.length < 8 ∨ beAt b 1 1 = 0 then none
    else if beAt b 0 1 = kind then some (leAt b 2 6)
    else linkOption kind n (b.drop (8 * beAt b 1 1))

/-- Neighbour discovery: a solicitation for the device's address is answered with an advertisement, and both teach a MAC address. -/
def ndServe (p : Packet) (d : Device) : Device :=
  let m := p.l4
  if m.length < 24 ∨ fold16 (p.pseudo + 58 + m.length + sum16 m) ≠ 0xFFFF then d
  else
    let target := beAt m 8 16
    if beAt m 0 1 = 136 then
      match linkOption 2 8 (m.drop 24) with
      | some mac => learn d { v6 := true, ip := target } mac
      | none => d
    else if beAt m 0 1 ≠ 135 ∨ some target ≠ ownIp6 d ∨ p.src = 0 then d
    else match linkOption 1 8 (m.drop 24) with
      | none => d
      | some mac =>
        let a := [136#8, 0#8, 0#8, 0#8, 0x60#8, 0#8, 0#8, 0#8] ++ beBytes 16 target ++ [2#8, 1#8] ++ leBytes 6 (ownMac d)
        let a1 := put16 a 2 (check16 (sum16 (beBytes 16 target ++ beBytes 16 p.src) + 58 + a.length + sum16 a))
        let head := (ipHead true target p.src 58 a1.length).take 7 ++ [255#8] ++ (ipHead true target p.src 58 a1.length).drop 8
        sendFirm (learn d { v6 := true, ip := p.src } mac) (.bytes (padded (etherHead d mac 0x86DD ++ head ++ a1)))

/-! ## DHCPv4 -/

/-- A DHCP message to the servers, with `options` behind the magic cookie. -/
def dhcpFrame (d : Device) (xid : Nat) (options : List Byte) : List Byte :=
  let m := [1#8, 1#8, 6#8, 0#8] ++ beBytes 4 xid ++ List.replicate 20 0#8 ++ leBytes 6 (ownMac d) ++ List.replicate 202 0#8
    ++ [99#8, 130#8, 83#8, 99#8] ++ options ++ [255#8]
  udpFrame d (2 ^ 48 - 1) false 0 (2 ^ 32 - 1) 68 67 m

/-- The client asks for an address, where the image gives none: a DISCOVER. -/
def dhcpStart (d : Device) : Device :=
  if d.boot.phase ≠ .done ∨ Config.staticIp4.isSome then d
  else
    let (xid, d1) := d.free 32
    sendFirm (d1.withEth { d1.eth with dhcp := .selecting xid }) (.bytes (dhcpFrame d1 xid [53#8, 1#8, 1#8]))

/-- An option of a DHCP message. -/
def dhcpOption (code : Nat) : Nat → List Byte → Option (List Byte)
  | 0, _ => none
  | n + 1, b =>
    if b.isEmpty ∨ beAt b 0 1 = 255 then none
    else if beAt b 0 1 = 0 then dhcpOption code n (b.drop 1)
    else if beAt b 0 1 = code then some ((b.drop 2).take (beAt b 1 1))
    else dhcpOption code n (b.drop (2 + beAt b 1 1))

/-- A DHCP message from a server: an OFFER is asked for, an ACK binds the address, a NAK starts again. -/
def dhcpServe (m : List Byte) (d : Device) : Device :=
  let xid := beAt m 4 4
  let opts := m.drop 240
  let kind := ((dhcpOption 53 312 opts).map beNat).getD 0
  let server := (dhcpOption 54 312 opts).getD []
  if m.length < 241 ∨ beAt m 0 1 ≠ 2 ∨ leAt m 28 6 ≠ ownMac d ∨ beAt m 236 4 ≠ 0x63825363 then d
  else match d.eth.dhcp with
    | .selecting x =>
      if xid = x ∧ kind = 2 then
        sendFirm (d.withEth { d.eth with dhcp := .requesting x (beAt m 16 4) (beNat server) })
          (.bytes (dhcpFrame d x ([53#8, 1#8, 3#8, 50#8, 4#8] ++ beBytes 4 (beAt m 16 4) ++ [54#8, 4#8] ++ server.take 4)))
      else d
    | .requesting x _ s =>
      if xid ≠ x ∨ beNat server ≠ s then d
      else if kind = 5 then d.withEth { d.eth with dhcp := .bound (beAt m 16 4) }
      else if kind = 6 then dhcpStart (d.withEth { d.eth with dhcp := .off })
      else d
    | _ => d

/-! ## Frames of RXQ2 -/

/-- The runtime takes a frame that RXQ2 has received: fragments and packets that failed a check are discarded (R305). -/
def netServe (f : Frame) (p : Option Packet) (ok : Bool) (d : Device) : Device :=
  if ¬ netServes d ∨ ¬ ok then d
  else match p with
    | none => if f.type = 0x0806 then arpServe f.pay d else d
    | some x =>
      if x.fragment then d
      else if ¬ x.v6 ∧ x.proto = 1 then echoServe f x d
      else if x.v6 ∧ x.proto = 58 then ndServe x d
      else if ¬ x.v6 ∧ udpPort x = some 68 then dhcpServe (x.l4.drop 8) d
      else d

/-- LINK_UP: the link, and where it comes up the DHCP client. -/
def linkUpRunDev (d : Device) : Device := if d.bit F.ETH_CFG.EN ∧ ¬ d.bit F.ETH_STATUS.LINK then dhcpStart (linkUpDev d) else linkUpDev d

/-! ## Header templates of the stream engines -/

/-- SRAM address of a template. -/
def templateAddr (d : Device) (f : Fld) : Nat := 0x80000000 + 64 * d.get f

/-- The runtime builds the 64-byte template of a stream to a client: Ethernet, IP and UDP header without tag, zeros behind. -/
def buildTemplate (f : Fld) (client : KcpAddr) (port : Nat) (d : Device) : Device :=
  let h := etherHead d (macOf d client) (if client.v6 then 0x86DD else 0x0800) ++ ipHead client.v6 (ownIp d client.v6) client.ip 17 8
    ++ udpHead (d.get F.KCP_CFG.PORT) port 0
  { d.setBytes (templateAddr d f) (h ++ List.replicate (64 - h.length) 0#8) with fresh := d.fresh + 1 }

/-- The template bytes that a datagram is built behind. -/
def templateBytes (d : Device) (f : Fld) : List Byte := d.bytes (templateAddr d f) 64

/-- A template is one of IPv6. -/
def templateV6 (t : List Byte) : Bool := beAt t 12 2 == 0x86DD

/-- The frame of a stream datagram: the template's headers with lengths and checksums filled in, and the datagram. -/
def streamFrame (t data : List Byte) : List Byte :=
  let v6 := templateV6 t
  let h := if v6 then put16 (put16 (t.take 62) 18 (8 + data.length)) 58 (8 + data.length)
    else put16 (put16 (t.take 42) 16 (28 + data.length)) 38 (8 + data.length)
  fillChecks (h ++ data)

def execLinkUp (s : State) : Outcome := s.done (linkUpRunDev s.dev)

end Sys2Proof.Machine
end

