-- ==== Sys2Proof/Machine/Eth.lean ====
section
/-! DEFINITION. The MAC, receive steering, the rings, PAUSE and the stream engines (R302 to R308, R322, R323, R336). -/

namespace Sys2Proof.Machine

/-! ## Steering (Table 14.2) -/

/-- A PTP multicast address: 224.0.1.129, 224.0.0.107, FF0x::181, FF02::6B. -/
def ptpGroup (v6 : Bool) (ip : Nat) : Bool :=
  if v6 then ip == 0xFF020000000000000000000000000000 + 0x6B || (ip / 2 ^ 116 == 0xFF0 && ip % 2 ^ 112 == 0x181)
  else ip == 0xE0000181 || ip == 0xE000006B

/-- An IPv6 all-nodes or solicited-node group: FF02::1, FF02::1:FF00:0/104. -/
def nodeGroup (ip : Nat) : Bool := ip == 0xFF020000000000000000000000000001 || ip / 2 ^ 24 == 0xFF0200000000000000000001FF

/-- Row of Table 14.2 that a frame of no fragment matches. -/
def steerRow (d : Device) (f : Frame) (p : Option Packet) : Nat :=
  let own := f.dst == ownMac d
  let port := p.bind udpPort
  let ptpIp := p.any (fun x => ptpGroup x.v6 x.dst && f.dst == groupMac x.v6 x.dst)
  let nodeIp := p.any (fun x => x.v6 && nodeGroup x.dst && f.dst == groupMac true x.dst)
  if f.type = 0x88F7 ∧ (own ∨ f.dst = leNat [0x01#8, 0x1B#8, 0x19#8, 0x00#8, 0x00#8, 0x00#8] ∨ f.dst = leNat [0x01#8, 0x80#8, 0xC2#8, 0x00#8, 0x00#8, 0x0E#8]) then 1
  else if (port = some 319 ∨ port = some 320) ∧ (own ∨ ptpIp) then 2
  else if d.bit F.KCP_CFG.EN ∧ port = some (d.get F.KCP_CFG.PORT) ∧ own then 3
  else if (f.type = 0x0806 ∨ p.isSome) ∧ (own ∨ f.dst = 2 ^ 48 - 1 ∨ nodeIp) then 4
  else 5

/-- The receive queue of a frame; none where it is filtered. Fragments never go to RXQ0 or RXQ1. -/
def steer (d : Device) (f : Frame) (p : Option Packet) : Option Nat :=
  match steerRow d f p with
  | 5 => none
  | 4 => some 2
  | 3 => some (if p.any Packet.fragment then 2 else 0)
  | 2 => some (if p.any Packet.fragment then 2 else 1)
  | _ => some 1

/-- The VLAN rule of R303: a frame with stacked tags, or whose tag does not fit VLAN_EN and VID, is filtered. -/
def vlanPasses (d : Device) (f : Frame) : Bool :=
  !f.stacked && (match f.tag with
    | some t => d.bit F.ETH_CFG.VLAN_EN && t % 4096 == d.get F.ETH_VLAN.VID
    | none => !d.bit F.ETH_CFG.VLAN_EN)

/-! ## The lanes (R32, R50, R52) -/

/-- Receive and transmit lanes of the port. -/
def ethRxLanes : List Lane := (List.finRange 4).map Lane.ethRx
def ethTxLanes : List Lane := (List.finRange 4).map Lane.ethTx

/-- All four receive lanes pass symbols, and all four transmit lanes send coded data. -/
def ethHears (d : Device) : Bool := ethRxLanes.all (lnReceives d)
def ethSends (d : Device) : Bool := ethTxLanes.all (lnSends d)

/-- A frame boundary passes on lanes of which one or more send no coded data: active lanes with PRBS on send it (R52). -/
def ethPrbs (d : Device) : Device := ethTxLanes.foldl (fun d l => if prbsOn d l then lnSend d l (List.replicate 4 (0xBC, true)) else d) d

/-! ## PTP stamps (R271) -/

/-- The PTP message of a frame and the enable bit of its transport. -/
def ptpMessage (d : Device) (f : Frame) (p : Option Packet) : Option (List Byte) :=
  if f.type = 0x88F7 then if d.bit F.TB_PTP_CFG.L2_EN then some f.pay else none
  else match p with
    | none => none
    | some x =>
      if (udpPort x = some 319 ∨ udpPort x = some 320) ∧ d.bit (if x.v6 then F.TB_PTP_CFG.V6_EN else F.TB_PTP_CFG.V4_EN) then some (x.l4.drop 8)
      else none

/-- The stamp of a PTP message enters the queue. -/
def ptpStamp (d : Device) (tx : Bool) (m : List Byte) (t : Nat) : Device :=
  tsqPush d tx (beAt m 0 1 % 16) (beAt m 4 1) (beAt m 30 2) (stampFix t tx (d.get (if tx then F.TB_ETH_TXLAT.V else F.TB_ETH_RXLAT.V)))

/-- A received event message is stamped. -/
def rxStamp (d : Device) (f : Frame) (p : Option Packet) (t : Nat) : Device :=
  match ptpMessage d f p with
  | some m => if beAt m 0 1 % 16 ≤ 3 then ptpStamp d false m t else d
  | none => d

/-! ## PAUSE (R304) -/

/-- PAUSE_RECEIVE. -/
def pauseRxDev (quanta : Nat) (d : Device) : Device :=
  if ¬ d.bit F.ETH_STATUS.LINK then d
  else
    let d1 := d.count F.ETH_PAUSE_RX.COUNT
    if d.bit F.ETH_CFG.PAUSE_RX then d1.setBit F.ETH_STATUS.PAUSED (quanta % 65536 != 0) else d1

/-- PAUSE_EXPIRE. -/
def pauseExpireDev (d : Device) : Device := d.setBit F.ETH_STATUS.PAUSED false

/-! ## Receiving (R303, R305 to R307) -/

/-- A frame is queued on receive ring `q` with its FLAGS, or dropped where the ring is full or off. -/
def rxQueue (d : Device) (q : Nat) (frame : List Byte) (flags : Nat) : Device :=
  let head := d.get (F.ETH_RXQq_HEAD.HEAD q)
  let next := (head + 1) % rxSlots d q
  if ¬ d.bit (F.ETH_RXQq_SIZE.EN q) ∨ next = d.get (F.ETH_RXQq_TAIL.TAIL q) then
    (d.count (F.ETH_RXQq_DROP.V q)).raise F.ETH_FLAGS.RXQ_FULL
  else
    let bytes := leBytes 2 frame.length ++ leBytes 2 flags ++ List.replicate 12 0#8 ++ frame
    let d1 := dramStore d (slotAddr d (R.ETH_RXQq_BASE_LO q) (R.ETH_RXQq_BASE_HI q) head) bytes
    pauseCheck ((d1.set (F.ETH_RXQq_HEAD.HEAD q) next).count F.ETH_RX_FRAMES.COUNT)

/-- A good frame: PAUSE, filtered, dropped for its checksum, or queued; the runtime then takes what RXQ0 and RXQ2 have received. -/
def rxFrame (frame : List Byte) (t : Nat) (d : Device) : Device :=
  let f := frameOf frame
  let p := packetOf f
  let filtered := d.count F.ETH_RX_FILTERED.COUNT
  if f.type = 0x8808 then if beAt f.pay 0 2 = 1 then pauseRxDev (beAt f.pay 2 2) d else filtered
  else if ¬ vlanPasses d f then filtered
  else match steer d f p with
    | none => filtered
    | some q =>
      let ok := checksumOk p
      if ¬ ok ∧ q ≠ 2 then (d.count F.ETH_RX_CSUM_ERR.COUNT).raise F.ETH_FLAGS.CSUM_ERR
      else
        let d1 := rxQueue (if q = 1 then rxStamp d f p t else d) q frame ((if f.tag.isSome then 1 else 0) + (if ok then 2 else 0))
        if d1.get (F.ETH_RXQq_HEAD.HEAD q) = d.get (F.ETH_RXQq_HEAD.HEAD q) then d1
        else match q, p with
          | 0, some x => learn d1 { v6 := x.v6, ip := x.src } f.src
          | 2, _ => netServe f p ok d1
          | _, _ => d1

/-- ETH_FRAME_RECEIVE: a frame with its FCS, the FEC codewords that were corrected and those that could not be while it came in, and its
timestamp point in 1/256 ns. Receive lanes that are not in SYNC, or on which PRBS is on, bring none (R32, R52). -/
def ethRxDev (bytes : List Byte) (corrected uncorrectable : Nat) (t : Nat) (d : Device) : Device :=
  if ¬ d.bit F.ETH_STATUS.LINK ∨ ¬ ethHears d then d
  else
    let d1 := (d.count F.ETH_FEC_CORR.COUNT corrected).count F.ETH_FEC_UNCORR.COUNT uncorrectable
    let d2 := d1.raiseIf (uncorrectable != 0) F.ETH_FLAGS.FEC_UNCORR
    let n := bytes.length
    if n < 64 ∨ 9216 < n then d2.count F.ETH_RX_LEN_ERR.COUNT
    else if uncorrectable ≠ 0 ∨ leNat (bytes.drop (n - 4)) ≠ fcs (bytes.take (n - 4)) then d2.count F.ETH_RX_FCS_ERR.COUNT
    else rxFrame (bytes.take (n - 4)) t d2

/-! ## Failed reads of MP6 (Table 13.5) -/

/-- A read of [a, a + n) by MP6 has failed (Table 13.5). -/
def unread (d : Device) (a n : Nat) : Bool := d.dram.badReads.any (fun r => r.1 == 6 && decide (a / 64 ≤ r.2 / 64 ∧ r.2 < a + n))

/-- The failed reads of [a, a + n) have been acted on. -/
def clearUnread (d : Device) (a n : Nat) : Device :=
  { d with dram := { d.dram with badReads := d.dram.badReads.filter (fun r => !(r.1 == 6 && decide (a / 64 ≤ r.2 / 64 ∧ r.2 < a + n))) } }

/-! ## The stream engines (R322, R323, R336) -/

/-- Records that a datagram may hold: RECS, bounded by what fits ETH_MTU. RECS outside 1 to 128 is a free number in that range
(notes/assumptions/2.md). -/
def recsCap (d : Device) : Nat × Device :=
  let v6 := d.eth.objStream.any (fun s => (d.session s.session).any (fun x => x.client.v6))
  let fit := (d.get F.ETH_MTU.MTU - (if v6 then 64 else 44) - 8) / 64
  let r := d.get F.KCP_OBJ_CTRL.RECS
  let (n, d1) := if 1 ≤ r ∧ r ≤ 128 then (r, d) else let (v, d1) := d.free 7; (v + 1, d1)
  (capN fit n, d1)

/-- The object-stream engine runs: it is enabled and the link is up. -/
def objRuns (d : Device) : Bool := d.bit F.KCP_OBJ_CTRL.EN && d.bit F.ETH_STATUS.LINK

/-- A datagram of the first `n` records of the buffer. -/
def objBuild (d : Device) (n : Nat) : Device :=
  let rs := d.jud.stream.take n
  let seq := d.get F.KCP_OBJ_SEQ.V
  let g : Datagram := {
    head := templateBytes d F.KCP_OBJ_TMPL.SRAM,
    port := match d.eth.objStream with | some s => s.port | none => 0,
    type := 0x88,
    session := match d.eth.objStream with | some s => s.session | none => 0,
    seq := seq,
    body := leBytes 2 rs.length ++ leBytes 2 (capN 65535 d.jud.dropped) ++ List.replicate 4 0#8 ++ rs.flatten }
  let d1 := (d.set F.KCP_OBJ_SEQ.V (seq + 1)).withEth { d.eth with objOut := d.eth.objOut ++ [g] }
  { d1 with jud := { d1.jud with stream := d1.jud.stream.drop n, dropped := 0 } }

/-- A datagram where the buffer holds enough records for a full one. -/
def objFull (d : Device) : Device :=
  if objRuns d then
    let (n, d1) := recsCap d
    if n ≤ d1.jud.stream.length ∧ 0 < n then objBuild d1 n else d1
  else d

/-- OBJECT_STREAM_FLUSH: FLUSH_US after its first record a partly filled datagram leaves; records that fill one are taken first. -/
def objFlushDev (d : Device) : Device :=
  if objRuns d ∧ ¬ d.jud.stream.isEmpty then
    let (n, d1) := recsCap d
    objBuild d1 (Nat.min (Nat.max 1 n) d1.jud.stream.length)
  else d

/-- Bytes of a capture fetch that fit a datagram. -/
def fetchFit (d : Device) (f : CapFetch) : Nat :=
  let v6 := (d.session f.session).any (fun x => x.client.v6)
  (d.get F.ETH_MTU.MTU - (if v6 then 80 else 60)) / 64 * 64

/-- The ring that an OFFSET names: its base, its size as log2, and the end of what has been written (R336). -/
def fetchRing (d : Device) (offset : Nat) : Nat × Nat × Nat :=
  let r := capRings d
  if bitAt offset 63 then (r.idx, r.idxLog + 4, 16 * d.cap.ipos) else (r.data, r.dataLog, d.cap.wpos)

/-- `n` bytes of a ring from position `p` on. -/
def ringRead (d : Device) (base log p n : Nat) : List Byte := (List.range n).map (fun i => d.byte (base + (p + i) % 2 ^ log))

/-- CAPTURE_FETCH_DATAGRAM: the next datagram of the range; OVERWRITTEN where a byte of it lies more than the ring size behind what the
coder has written. A fetch whose read has failed is dropped (Table 13.5, MP6). -/
def fetchDatagramDev (d : Device) : Device :=
  match d.eth.fetch with
  | none => d
  | some f =>
    if ¬ d.bit F.KCP_CAP_CTRL.EN ∨ ¬ d.bit F.ETH_STATUS.LINK then d
    else
      let n := Nat.min (fetchFit d f) (f.stop - f.next)
      let last := decide (f.stop ≤ f.next + n)
      let (base, log, w) := fetchRing d f.next
      let p := f.next % 2 ^ 63
      if (List.range n).any (fun i => unread d (base + (p + i) % 2 ^ log) 1) then
        (clearUnread (d.withEth { d.eth with fetch := none }) base (2 ^ log)).setBit F.KCP_CAP_CTRL.BUSY false
      else
      let overwritten := decide (p + 2 ^ log < w)
      let g : Datagram := {
        head := templateBytes d F.KCP_CAP_TMPL.SRAM, port := f.port, type := 0x89, session := f.session, seq := f.seq,
        body := leBytes 8 f.next ++ leBytes 4 ((if last then 1 else 0) + (if overwritten then 2 else 0)) ++ List.replicate 4 0#8 ++ ringRead d base log p n }
      let d1 := d.withEth { d.eth with
        capOut := d.eth.capOut ++ [g], fetch := if last then none else some { f with next := f.next + n } }
      if last then d1.setBit F.KCP_CAP_CTRL.BUSY false else d1

/-! ## Transmitting (R303, R304, R306 to R308) -/

/-- The transmit ring holds a frame. -/
def txReady (d : Device) : Bool := d.bit F.ETH_TXQ_SIZE.EN && d.get F.ETH_TXQ_HEAD.HEAD != d.get F.ETH_TXQ_TAIL.TAIL

/-- HEAD of the transmit ring advances. -/
def txAdvance (d : Device) : Device :=
  d.set F.ETH_TXQ_HEAD.HEAD ((d.get F.ETH_TXQ_HEAD.HEAD + 1) % 2 ^ d.get F.ETH_TXQ_SIZE.SLOTS_LOG2)

/-- The frame of slot HEAD goes out; its stamp is taken where it is requested. A frame that is no PTP message has no type, domain or
sequence for the queue: they are free values (notes/assumptions/2.md). A frame whose read has failed is dropped (Table 13.5, MP6), and so is a
KCP datagram that exceeds ETH_MTU by now (R310). -/
def txRing (t : Nat) (d : Device) : Device :=
  let a := slotAddr d R.ETH_TXQ_BASE_LO R.ETH_TXQ_BASE_HI (d.get F.ETH_TXQ_HEAD.HEAD)
  let flags := d.num (a + 2) 2
  let raw := d.bytes (a + 16) (capN (slotBytes - 16) (d.num a 2))
  let tagged := macFrame d (bitAt flags 0) raw
  let bytes := if bitAt flags 3 then fillChecks tagged else tagged
  let f := frameOf bytes
  let d1 := (txAdvance d).count F.ETH_TX_FRAMES.COUNT
  let d2 := d1.withEth { d1.eth with sent := .ring bytes (bitAt flags 3) }
  if unread d a slotBytes then clearUnread (txAdvance d) a slotBytes
  else if (packetOf f).any (fun p => p.proto == 17 && beAt p.l4 0 2 == d.get F.KCP_CFG.PORT && decide (d.get F.ETH_MTU.MTU < udpPacket p.v6 (p.l4.length - 8)))
    then txAdvance d
  else if ¬ bitAt flags 2 then d2
  else
    let msg := if f.type = 0x88F7 then some f.pay
      else (packetOf f).bind (fun p => if udpPort p = some 319 ∨ udpPort p = some 320 then some (p.l4.drop 8) else none)
    match msg with
    | some m => ptpStamp d2 true m t
    | none =>
      let (v, d3) := d2.free 28
      tsqPush d3 true v (v / 16) (v / 4096) (stampFix t true (d3.get F.TB_ETH_TXLAT.V))

/-- A stream datagram goes out, behind the headers of its template, unless its IP packet exceeds ETH_MTU by now (R310); and whether it did. -/
def txStream (g : Datagram) (d : Device) : Device × Bool :=
  let data := kcpHeader g.type g.session g.seq g.body.length ++ g.body
  if d.get F.ETH_MTU.MTU < udpPacket (templateV6 g.head) data.length then (d, false)
  else ((d.withEth { d.eth with sent := .stream g (macFrame d false (streamFrame g.head data)) }).count F.ETH_TX_FRAMES.COUNT, true)

/-- The boot ROM's frame goes out. A reply whose IP packet exceeds ETH_MTU is not sent (R310). -/
def txFirm (x : FirmFrame) (rest : List FirmFrame) (d : Device) : Device :=
  let d1 := d.withEth { d.eth with firm := rest }
  match x, firmBytes d (match x with | .kcp _ c _ => macOf d c | .bytes _ => 0) x with
  | _, none => d1
  | .bytes _, some b => (d1.withEth { d1.eth with sent := .firm (macFrame d false b) }).count F.ETH_TX_FRAMES.COUNT
  | .kcp _ _ _, some b =>
    ({ d1.withEth { d1.eth with sent := .firm (macFrame d false b) } with fresh := d.fresh + 1 }).count F.ETH_TX_FRAMES.COUNT

/-- A datagram of the object stream, then one of a capture fetch, goes out. -/
def txStreams (d : Device) : Device :=
  let d1 := objFull d
  match d1.eth.objOut, d1.eth.capOut with
  | g :: rest, _ =>
    let (d2, out) := txStream g (d1.withEth { d1.eth with objOut := rest })
    if out then (d2.count F.KCP_OBJ_DGRAMS.V).count F.KCP_OBJ_RECS.V (leAt g.body 0 2) else d2
  | [], g :: rest =>
    let (d2, out) := txStream g (d1.withEth { d1.eth with capOut := rest })
    if out then d2.count F.KCP_CAP_DGRAMS.V else d2
  | [], [] => d1

/-- The transmit ring, or in recovery the boot ROM, holds a frame. -/
def firmReady (d : Device) : Bool := txReady d || (recovering d && !d.eth.firm.isEmpty)

/-- That frame goes out, and frames that wait take the slot it leaves. -/
def txFirmware (t : Nat) (d : Device) : Device :=
  if txReady d then pump 64 (txRing t d)
  else match d.eth.firm with
    | x :: rest => txFirm x rest d
    | [] => d

/-- ETH_FRAME_TRANSMIT at a frame boundary, with timestamp point `t`: a PAUSE frame that waits, then the first ready source of R308. With
the link down a frame of the ring is discarded (R302); while PAUSED nothing but PAUSE goes out. Transmit lanes that are not active, or send
PRBS, carry no frame (R32, R50, R52). -/
def ethTxDev (t : Nat) (d0 : Device) : Device :=
  let d := pump 64 d0
  if ¬ d.bit F.ETH_STATUS.LINK then
    if txReady d then pump 64 (txAdvance d) else if recovering d then d.withEth { d.eth with firm := d.eth.firm.drop 1 } else d
  else if ¬ ethSends d then ethPrbs d
  else match d.eth.pauseOut with
    | q :: rest => (d.withEth { d.eth with pauseOut := rest, sent := .pause q }).count F.ETH_PAUSE_TX.COUNT
    | [] =>
      if d.bit F.ETH_STATUS.PAUSED then d
      else if firmReady d then txFirmware t d
      else txStreams d

def execEthFrameReceive (bytes : List Byte) (corrected uncorrectable t : Nat) (s : State) : Outcome :=
  s.done (ethRxDev bytes corrected uncorrectable t s.dev)
def execPauseReceive (quanta : Nat) (s : State) : Outcome := s.done (pauseRxDev quanta s.dev)
def execPauseExpire (s : State) : Outcome := s.done (pauseExpireDev s.dev)
def execEthFrameTransmit (t : Nat) (s : State) : Outcome := s.done (ethTxDev t s.dev)
def execObjectStreamFlush (s : State) : Outcome := s.done (objFlushDev s.dev)
def execCaptureFetchDatagram (s : State) : Outcome := s.done (fetchDatagramDev s.dev)

end Sys2Proof.Machine
end

