-- ==== Sys2Proof/Machine/Kcp.lean ====
section
/-! DEFINITION. The KCP server: sessions, roles, authentication, SEQ, and the requests (R310 to R323, Table 19.1). -/

namespace Sys2Proof.Machine

/-! ## The server -/

/-- A KCP server, the Virend runtime's or the boot ROM's, gets the datagrams that come to KCP_CFG.PORT (R310). -/
def kcpServes (d : Device) (q : KcpMsg) : Bool := netServes d && d.bit F.KCP_CFG.EN && q.dport == d.get F.KCP_CFG.PORT

/-- The reply to `q` enters the firmware ring (R308). -/
def sendReply (d : Device) (q : KcpMsg) (r : KcpReply) : Device := sendFirm (d.withEth { d.eth with reply := some r }) (.kcp r q.client q.port)

/-- MAGIC or VERSION is wrong, REPLY is 1, or LEN does not match the datagram (R312). -/
def malformed (q : KcpMsg) : Bool :=
  q.magic != 0x4B43 || q.version != 1 || q.reply || q.rest.length != q.len + (if q.auth then 32 else 0)

/-- A code of Table 14.5. -/
def codeListed (code : Nat) : Bool := decide (1 ≤ code ∧ code ≤ 13)

/-- The body of a message. -/
def kcpBody (q : KcpMsg) : List Byte := q.rest.take q.len

/-- The tag of a message holds under `key`. -/
def tagOk (key : List Byte) (code : Nat) (q : KcpMsg) : Bool :=
  q.auth && q.rest.drop q.len == hmac key (kcpHeader (0x40 + code) q.session q.seq q.len ++ kcpBody q)

def discardMsg (d : Device) : Device := d.withEth { d.eth with discarded := d.eth.discarded + 1 }

/-- What a request comes to: a final STATUS with its reply body, or PENDING. -/
structure KcpDone where
  dev : Device
  status : Nat
  body : List Byte := []

/-- A refusal of a request that has not been executed. -/
def kcpNo (d : Device) (status : Nat) : KcpDone := { dev := d, status := status }

/-- The reply of an executed request goes out; a final one is stored (R318). -/
def kcpAnswer (code : Nat) (q : KcpMsg) (key : Option (List Byte)) (r : KcpDone) : Device :=
  let rep := kcpReply key code q.session q.seq r.status r.body
  match r.dev.session q.session with
  | none => sendReply r.dev q rep
  | some x =>
    if r.status = kcPending then sendReply (setSession r.dev { x with pending := true }) q rep
    else sendReply (storeReply r.dev x rep) q rep

/-- A request that reached an open session: SEQ decides whether it is executed (R318); its least role and what the boot ROM serves decide
whether it is allowed. -/
def kcpSeq (code least : Nat) (rom : Bool) (run : Session → List Byte → Device → KcpDone) (q : KcpMsg) (x : Session) (d : Device) : Device :=
  let ahead := (q.seq + 2 ^ 32 - x.last % 2 ^ 32) % 2 ^ 32
  let say (status : Nat) : Device := sendReply d q (kcpReply x.key code q.session q.seq status [])
  if ahead = 1 then
    if x.pending then say kcBusy
    else
      let d1 := setSession d { x with last := q.seq % 2 ^ 32 }
      let r :=
        if recovering d ∧ ¬ rom then kcpNo d1 kcDenied
        else if x.role < least then kcpNo d1 kcDenied
        else run { x with last := q.seq % 2 ^ 32 } (kcpBody q) d1
      kcpAnswer code q x.key r
  else if ahead = 0 ∧ x.pending then say kcPending
  else if ahead = 0 ∨ 2 ^ 32 - 15 ≤ ahead then
    match x.replies.find? (fun r => r.seq == q.seq) with
    | some r => sendReply d q r
    | none => say kcBadSeq
  else say kcBadSeq

/-- A datagram other than an OPEN arrives. -/
def kcpServe (code least : Nat) (rom : Bool) (run : Session → List Byte → Device → KcpDone) (q : KcpMsg) (d : Device) : Device :=
  if ¬ kcpServes d q then d
  else if malformed q then discardMsg d
  else match d.session q.session with
    | none => sendReply d q (kcpReply none code q.session q.seq kcBadSession [])
    | some x =>
      match x.key with
      | some k => if tagOk k code q then kcpSeq code least rom run q x d else discardMsg d
      | none => kcpSeq code least rom run q x d

/-! ## Sessions (R315 to R317) -/

/-- The address lies in the entry's prefix. -/
def roleCovers (a : KcpAddr) (e : RoleEntry) : Bool :=
  let w := if e.v6 then 128 else 32
  a.v6 == e.v6 && a.ip / 2 ^ (w - e.len) == e.bits / 2 ^ (w - e.len)

/-- The entry that applies to a client: without a role table, observer without authentication; in recovery, engineer without. -/
def roleFor (d : Device) (a : KcpAddr) : Option RoleEntry :=
  if recovering d then some { v6 := a.v6, maxRole := 3 }
  else match d.eth.roles with
    | none => some { v6 := a.v6, maxRole := 1 }
    | some t => t.find? (roleCovers a)

/-- The granted role. The boot ROM knows observers and engineers only. -/
def grantRole (d : Device) (e : RoleEntry) (role : Nat) : Nat :=
  let g := Nat.min role e.maxRole
  if recovering d ∧ g = 2 then 1 else g

/-- MAX_BODY: the largest multiple of 64 no greater than min(8,192, ETH_MTU − 124). -/
def kcpMaxBody (d : Device) : Nat := Nat.min 8192 (d.get F.ETH_MTU.MTU - 124) / 64 * 64

/-- A SESSION that is not zero and not in use, as the free value `v` has it (notes/assumptions/2.md). -/
def newSession (used : List Nat) (v : Nat) : Nat :=
  let at_ (k : Nat) : Nat := (v + k) % (2 ^ 32 - 1) + 1
  at_ (((List.range 17).find? (fun k => !used.contains (at_ k))).getD 0)

/-- IDLE_S. -/
def kcpIdleS : Nat := 10

/-- A session is made: its SESSION and SERVER_NONCE are free values. -/
def openSession (role : Nat) (key : Option (List Byte)) (q : KcpMsg) (d : Device) : Device :=
  let (v, d1) := d.free 32
  let (n, d2) := d1.free 128
  let id := newSession (d.eth.sessions.map Session.id) v
  let nonce := leBytes 16 n
  let ks := key.map (fun k => hmac k ([0x4B#8, 0x43#8, 0x50#8, 0x31#8] ++ ((kcpBody q).drop 4).take 16 ++ nonce ++ leBytes 4 id))
  let body := leBytes 4 id ++ leBytes 1 role ++ List.replicate 3 0#8 ++ nonce ++ leBytes 2 (kcpMaxBody d) ++ leBytes 2 kcpIdleS
  let rep := kcpReply ks 1 q.session q.seq kcOk body
  let x : Session := {
    id := id, role := role, key := ks, client := q.client, port := q.port, maxBody := kcpMaxBody d, last := q.seq % 2 ^ 32, replies := [rep] }
  sendReply (d2.withEth { d2.eth with sessions := d2.eth.sessions ++ [x] }) q rep

/-- OPEN. -/
def kcpOpenDev (q : KcpMsg) (d : Device) : Device :=
  let b := kcpBody q
  let say (status : Nat) : Device := sendReply d q (kcpReply none 1 q.session q.seq status [])
  if ¬ kcpServes d q then d
  else if malformed q then discardMsg d
  else if q.len ≠ 20 then say kcBadLength
  else if q.session ≠ 0 ∨ leAt b 0 1 = 0 ∨ 3 < leAt b 0 1 then say kcBadArg
  else match roleFor d q.client with
    | none => say kcDenied
    | some e =>
      let wants := bitAt (leAt b 1 1) 0
      let key := if wants ∧ ¬ recovering d ∧ d.eth.roles.isSome then some (d.eth.keys.getD e.key []) else none
      if e.auth ∧ ¬ wants then say kcDenied
      else if (match key with | some k => !tagOk k 1 q | none => false) then discardMsg d
      else if 16 ≤ d.eth.sessions.length then say kcNoSessions
      else openSession (grantRole d e (leAt b 0 1)) key q d

/-- CLOSE. -/
def runClose (x : Session) (b : List Byte) (d : Device) : KcpDone :=
  if b.length ≠ 0 then kcpNo d kcBadLength else { dev := closeSession x.id d, status := kcOk }

/-- KCP_SESSION_IDLE. -/
def sessionIdleDev (id : Nat) (d : Device) : Device := if (d.session id).isSome then closeSession id d else d

/-! ## READ and WRITE (R320) -/

/-- COUNT is in range. -/
def countOk (x : Session) (n : Nat) : Bool := decide (1 ≤ n ∧ n ≤ x.maxBody / 4 - 2)

/-- `n` words from `a` on, read one at a time by the host proxy: the bytes, and the index of the word that ended with a bus error. -/
def readWords : Nat → Nat → Nat → Device → List Byte × Option Nat × Device
  | 0, _, _, d => ([], none, d)
  | n + 1, a, i, d =>
    let d1 := busRead 4 a 4 false 0 d
    if d1.cores.busError then ([], some i, d1)
    else
      let (bs, e, d2) := readWords n (a + 4) (i + 1) d1
      (leBytes 4 d1.cores.reply ++ bs, e, d2)

/-- Address of the CHIP page. -/
def inChipPage (a n : Nat) : Bool := decide (0x10000000 ≤ a ∧ a + 4 * n ≤ 0x10010000)

/-- [a, a + n) has a byte of an area. -/
def touches (area : Option (Nat × Nat)) (a n : Nat) : Bool := area.any (fun r => decide (a < r.1 + r.2 ∧ r.1 < a + n))

/-- READ. No KCP message reads the keys (R317): a READ of them is denied (DESIGN CHOICE, log entry "the keys"). -/
def runRead (x : Session) (b : List Byte) (d : Device) : KcpDone :=
  let n := leAt b 8 2
  if b.length ≠ 12 ∨ ¬ countOk x n then kcpNo d kcBadLength
  else if recovering d ∧ ¬ inChipPage (leAt b 0 8) n ∨ touches d.eth.keysAt (leAt b 0 8) (4 * n) then kcpNo d kcDenied
  else match readWords n (leAt b 0 8) 0 d with
    | (bs, none, d1) => { dev := d1, status := kcOk, body := bs }
    | (_, some i, d1) => { dev := d1, status := kcBusError, body := leBytes 2 i }

/-- A write to `a` reaches an RWS field (R319). -/
def reachesRws (d : Device) (a : Nat) : Bool :=
  match areaAt d a with
  | some (.reg r) => r.rws != 0
  | some .table | some .defect => true
  | _ => false

/-- A unit of a pair that is not active (R319). -/
def notActive (d : Device) : Bool := paired d && d.pairState != pairActive

/-- The words in `b` written from `a` on for session `id`, up to one that is refused or ends with a bus error. -/
def writeWords (id : Nat) : Nat → Nat → Nat → List Byte → Device → KcpDone
  | 0, _, _, _, d => { dev := d, status := kcOk }
  | n + 1, a, i, b, d =>
    let busy := reachesRws d a && stagingRefused d (.session id)
    let d1 := busWrite 4 id a 4 false (leAt b 0 4) 0#32 d
    if d1.cores.busError then { dev := d1, status := kcBusError, body := leBytes 2 i }
    else if busy then kcpNo d1 kcStageBusy
    else writeWords id n (a + 4) (i + 1) (b.drop 4) d1

/-- WRITE. -/
def runWrite (x : Session) (b : List Byte) (d : Device) : KcpDone :=
  let n := leAt b 8 2
  let a := leAt b 0 8
  if ¬ countOk x n ∨ b.length ≠ 12 + 4 * n then kcpNo d kcBadLength
  else if notActive d ∧ (List.range n).any (fun i => reachesRws d (a + 4 * i)) then kcpNo d kcNotActive
  else writeWords x.id n a 0 (b.drop 12) d

/-! ## STAGE and COMMIT (R319) -/

/-- Triples of a STAGE for session `id`, up to one that fails: another owner, a target that is not staged, a bus error. -/
def stageTriples (id : Nat) : Nat → Nat → List Byte → Device → KcpDone
  | 0, _, _, d => { dev := d, status := kcOk }
  | n + 1, i, b, d =>
    let a := leAt b 0 4
    let fail (d : Device) (status : Nat) : KcpDone := { dev := d, status := status, body := leBytes 2 i }
    if (areaAt d a).isSome ∧ a < 0x80000000 ∧ a % 4 = 0 ∧ ¬ reachesRws d a then fail d kcBadArg
    else
      let busy := reachesRws d a && stagingRefused d (.session id)
      let (d1, ok) := applyTriple 4 id a (BitVec.ofNat 32 (leAt b 4 4)) (BitVec.ofNat 32 (leAt b 8 4)) d
      if ¬ ok then fail d1 kcBusError
      else if busy then fail d1 kcStageBusy
      else stageTriples id n (i + 1) (b.drop 12) d1

/-- The body of a STAGE with operation `op`: its length and OP. -/
def stageBad (op : Nat) (b : List Byte) : Option Nat :=
  if b.length < 4 ∨ (b.length - 4) % 12 ≠ 0 then some kcBadLength
  else if leAt b 0 1 ≠ op then some kcBadArg
  else none

/-- STAGE add. -/
def runStageAdd (x : Session) (b : List Byte) (d : Device) : KcpDone :=
  match stageBad 0 b with
  | some e => kcpNo d e
  | none => if notActive d then kcpNo d kcNotActive else stageTriples x.id ((b.length - 4) / 12) 0 (b.drop 4) d

/-- STAGE cancel. -/
def runStageCancel (x : Session) (b : List Byte) (d : Device) : KcpDone :=
  match stageBad 1 b with
  | some e => kcpNo d e
  | none => if notActive d then kcpNo d kcNotActive else { dev := ownerLeaves d (.session x.id), status := kcOk }

/-- COMMIT: APPLY_LINE goes to SLU_APPLY_LINE, then the command to the sluice; a refusal at once is told at once. -/
def runCommit (x : Session) (b : List Byte) (d : Device) : KcpDone :=
  if b.length ≠ 8 then kcpNo d kcBadLength
  else if notActive d then kcpNo d kcNotActive
  else
    let d1 := busWrite 4 x.id R.SLU_APPLY_LINE 4 false (leAt b 0 4) 0#32 d
    if d1.cores.busError then kcpNo d1 kcBusError
    else if d1.sluState ≠ sluOpen ∨ d1.safe then { dev := d1, status := kcRefused, body := leBytes 4 2 }
    else
      let late := !inReach d1 (d1.get F.SLU_APPLY_LINE.A)
      let d2 := sluCommit (.session x.id) (bitAt (leAt b 4 4) 0) .none d1
      if late then { dev := d2, status := kcRefused, body := leBytes 4 1 } else kcpNo d2 kcPending

/-! ## STATUS (Table 14.7) -/

/-- Pair role. -/
def statusRole (d : Device) : Nat :=
  if ¬ paired d then 0
  else if d.pairState = pairActive then if d.bit F.PAIR_CFG.HOME then 1 else 2
  else 3

/-- Every enabled peer port is UP. -/
def peersComplete (d : Device) : Bool := (List.range 3).all (fun n => !d.bit (F.PEERn_CFG.EN n) || peerUp d n)

/-- The status block. -/
def statusBlock (d : Device) : List Byte :=
  leBytes 4 (d.rd R.CHIP_ID).toNat ++ leBytes 1 (d.get F.CHIP_LEVEL.LEVEL) ++ leBytes 1 d.sluState ++ leBytes 1 (statusRole d)
    ++ leBytes 1 ((if d.safe then 1 else 0) + (if peersComplete d then 2 else 0)) ++ leBytes 4 (d.get F.TB_LINE.L)
    ++ leBytes 6 d.tb.tod.sec ++ leBytes 4 d.tb.tod.ns ++ leBytes 2 (d.get F.FLT_LAST.CODE) ++ leBytes 2 d.eth.sessions.length
    ++ List.replicate 2 0#8 ++ leBytes 4 d.eth.recDrop

/-- STATUS. -/
def runStatus (_ : Session) (b : List Byte) (d : Device) : KcpDone :=
  if b.length ≠ 0 then kcpNo d kcBadLength else { dev := d, status := kcOk, body := statusBlock d }

/-! ## Streams (R322, R323, R336) -/

/-- OBJECT_STREAM start. -/
def runStreamStart (x : Session) (b : List Byte) (d : Device) : KcpDone :=
  if b.length ≠ 4 then kcpNo d kcBadLength
  else if leAt b 0 1 ≠ 1 then kcpNo d kcBadArg
  else if d.eth.objStream.isSome then kcpNo d kcBusy
  else
    { dev := (buildTemplate F.KCP_OBJ_TMPL.SRAM x.client (leAt b 2 2)
        (d.withEth { d.eth with objStream := some { session := x.id, port := leAt b 2 2 } })).setBit F.KCP_OBJ_CTRL.EN true,
      status := kcOk, body := leBytes 4 (d.get F.KCP_OBJ_SEQ.V) }

/-- OBJECT_STREAM stop: of the session that holds the stream. -/
def runStreamStop (x : Session) (b : List Byte) (d : Device) : KcpDone :=
  if b.length ≠ 4 then kcpNo d kcBadLength
  else if leAt b 0 1 ≠ 0 then kcpNo d kcBadArg
  else
    let d1 := if d.eth.objStream.any (fun s => s.session == x.id) then
        (d.withEth { d.eth with objStream := none, objOut := [] }).setBit F.KCP_OBJ_CTRL.EN false
      else d
    { dev := d1, status := kcOk, body := leBytes 4 (d1.get F.KCP_OBJ_SEQ.V) }

/-- CAPTURE_FETCH: a new fetch of the session replaces one in progress. -/
def runFetch (x : Session) (b : List Byte) (d : Device) : KcpDone :=
  let o := leAt b 0 8
  let n := leAt b 8 4
  if b.length ≠ 16 then kcpNo d kcBadLength
  else if n = 0 ∨ (fetchRing d o).2.2 < o % 2 ^ 63 + n then kcpNo d kcBadArg
  else if d.eth.fetch.any (fun f => f.session != x.id) then kcpNo d kcBusy
  else
    let f : CapFetch := { session := x.id, seq := x.last, port := leAt b 12 2, next := o, stop := o + n }
    let d1 := buildTemplate F.KCP_CAP_TMPL.SRAM x.client f.port d
    { dev := ((d1.withEth { d1.eth with fetch := some f, capOut := d.eth.capOut.filter (fun g => g.session != x.id) }).setBit F.KCP_CAP_CTRL.EN true).setBit F.KCP_CAP_CTRL.BUSY true,
      status := kcOk }

/-! ## MAILBOX and EVENT_FIRE (R320) -/

/-- The body of a MAILBOX with operation `op`. -/
def mailboxBad (op : Nat) (b : List Byte) : Option Nat :=
  if b.length ≠ 8 then some kcBadLength else if leAt b 0 1 ≠ op ∨ 31 < leAt b 1 1 then some kcBadArg else none

/-- The channel's binding is locked, in use, and has the host proxy in the field. -/
def mailboxBound (d : Device) (k : Nat) (f : Fld) : Bool := d.bit F.MBX_LOCK.LOCK && d.bit (F.MBXk_BIND.EN k) && d.get f == 4

/-- WORD and the flags of a channel. -/
def mailboxBody (d : Device) (k word : Nat) : List Byte := leBytes 4 word ++ leBytes 4 (d.rd (R.MBXk_STATUS k)).toNat

/-- MAILBOX post. -/
def runPost (_ : Session) (b : List Byte) (d : Device) : KcpDone :=
  let k := leAt b 1 1
  match mailboxBad 0 b with
  | some e => kcpNo d e
  | none =>
    if ¬ mailboxBound d k (F.MBXk_BIND.SENDER k) then kcpNo d kcDenied
    else
      let d1 := mbxWriteDev 4 k (BitVec.ofNat 32 (leAt b 4 4)) d
      { dev := d1, status := kcOk, body := mailboxBody d1 k (leAt b 4 4) }

/-- MAILBOX read. -/
def runMailRead (_ : Session) (b : List Byte) (d : Device) : KcpDone :=
  let k := leAt b 1 1
  match mailboxBad 1 b with
  | some e => kcpNo d e
  | none =>
    if ¬ mailboxBound d k (F.MBXk_BIND.RECEIVER k) then kcpNo d kcDenied
    else
      let d1 := mbxReadDev 4 k (latchPlic d)
      { dev := d1, status := kcOk, body := mailboxBody d1 k d1.cores.reply }

/-- EVENT_FIRE writes EVT_FIRE, which ignores a number above 383 with FIRE_REJ (R385). -/
def runFire (_ : Session) (b : List Byte) (d : Device) : KcpDone :=
  if b.length ≠ 4 then kcpNo d kcBadLength
  else if 383 < leAt b 0 2 then { dev := evtFireDev (BitVec.ofNat 32 (leAt b 0 2)) d, status := kcBadArg }
  else { dev := evtFireDev (BitVec.ofNat 32 (leAt b 0 2)) d, status := kcOk }

/-! ## NV_PROGRAM (R321) -/

/-- Bytes of the flash: 256 MiB, the largest image (R403). -/
def flashSize : Nat := 2 ^ 28

/-- The body of an NV_PROGRAM with operation `op`; OP 1 carries LENGTH bytes of data. -/
def nvBad (x : Session) (op : Nat) (b : List Byte) : Option Nat :=
  let o := leAt b 4 4
  let n := leAt b 8 4
  if b.length < 12 ∨ b.length ≠ 12 + (if op = 1 then n else 0) then some kcBadLength
  else if leAt b 0 1 ≠ op ∨ o % 256 ≠ 0 ∨ n % 256 ≠ 0 ∨ x.maxBody - 16 < n ∨ flashSize < o + n ∨ flashSize ≤ o then some kcBadArg
  else none

/-- An erase or a program starts and replies PENDING until it is done. -/
def runNvStart (op : Nat) (x : Session) (b : List Byte) (d : Device) : KcpDone :=
  match nvBad x op b with
  | some e => kcpNo d e
  | none =>
    let v : NvOp := { session := x.id, seq := x.last, erase := op == 0, offset := leAt b 4 4, len := leAt b 8 4, data := b.drop 12 }
    kcpNo (d.withEth { d.eth with nv := d.eth.nv ++ [v] }) kcPending

/-- Where keys lie in the flash: the section 0x07 of the image that was loaded, and of the image that the flash holds now, so that the boot ROM
knows them too (R317). -/
def keyAreas (d : Device) : List (Nat × Nat) :=
  let h := flashBytes d 0 256
  let now := if leAt h 0 4 = 0x52445053 ∧ leAt h 16 4 ≤ 256 then ((sectionsOf d h).filter (fun s => s.type == 7)).map (fun s => (s.offset, s.len)) else []
  d.eth.keysFrom.toList ++ now

/-- NV_PROGRAM read; the section of the keys is not read out (R317). -/
def runNvRead (x : Session) (b : List Byte) (d : Device) : KcpDone :=
  match nvBad x 2 b with
  | some e => kcpNo d e
  | none => if (keyAreas d).any (fun r => touches (some r) (leAt b 4 4) (leAt b 8 4)) then kcpNo d kcDenied else { dev := d, status := kcOk, body := flashBytes d (leAt b 4 4) (leAt b 8 4) }

/-- NV_PROGRAM CRC. -/
def runNvCrc (x : Session) (b : List Byte) (d : Device) : KcpDone :=
  match nvBad x 3 b with
  | some e => kcpNo d e
  | none => { dev := d, status := kcOk, body := leBytes 4 (crc32c (flashBytes d (leAt b 4 4) (leAt b 8 4))) }

/-- Bytes programmed from `o` on: an erased byte takes its value; what a byte that is not erased takes is not given, a free value
(notes/assumptions/2.md). -/
def nvWrite (d : Device) (o : Nat) : List Byte → Device
  | [] => d
  | b :: t =>
    let (v, d1) := if Sparse.get flashDefault o d.flash = 0xFF#8 then (b, d) else let (f, d1) := d.free 8; (BitVec.ofNat 8 f, d1)
    nvWrite { d1 with flash := Sparse.put flashDefault o v d1.flash } (o + 1) t

/-- NV_OP_DONE: the oldest erase or program completes; its final reply waits for a repeat of its SEQ. -/
def nvDoneDev (d : Device) : Device :=
  match d.eth.nv with
  | [] => d
  | v :: rest =>
    let d1 := d.withEth { d.eth with nv := rest }
    let lo := v.offset / 65536 * 65536
    let d2 := if v.erase then { d1 with flash := d1.flash.filter (fun c => !decide (lo ≤ c.1 ∧ c.1 < lo + 65536)) }
      else nvWrite d1 v.offset v.data
    if (d2.session v.session).any (fun x => x.last == v.seq) then pendingEnds d2 v.session 12 kcOk [] else d2

/-! ## LOG and unlisted codes -/

/-- LOG: the runtime's log is not given, so NEXT and the entries are free values (notes/assumptions/2.md); they fit MAX_BODY. -/
def runLog (x : Session) (b : List Byte) (d : Device) : KcpDone :=
  if b.length ≠ 8 then kcpNo d kcBadLength
  else
    let (next, d1) := d.free 32
    let (n, d2) := d1.free 16
    let entries := (List.range (n % (x.maxBody - 7))).map (fun i => BitVec.ofNat 8 (Config.free d2.fresh i))
    { dev := { d2 with fresh := d2.fresh + 1 }, status := kcOk, body := leBytes 4 next ++ entries }

/-- A code outside Table 14.5. -/
def runUnknown (_ : Session) (_ : List Byte) (d : Device) : KcpDone := kcpNo d kcUnknownType

def execKcpOpen (q : KcpMsg) (s : State) : Outcome := s.done (kcpOpenDev q s.dev)
def execKcpClose (q : KcpMsg) (s : State) : Outcome := s.done (kcpServe 2 1 true runClose q s.dev)
def execKcpRead (q : KcpMsg) (s : State) : Outcome := s.done (kcpServe 3 1 true runRead q s.dev)
def execKcpWrite (q : KcpMsg) (s : State) : Outcome := s.done (kcpServe 4 3 false runWrite q s.dev)
def execStageAdd (q : KcpMsg) (s : State) : Outcome := s.done (kcpServe 5 2 false runStageAdd q s.dev)
def execStageCancel (q : KcpMsg) (s : State) : Outcome := s.done (kcpServe 5 2 false runStageCancel q s.dev)
def execKcpCommit (q : KcpMsg) (s : State) : Outcome := s.done (kcpServe 6 2 false runCommit q s.dev)
def execKcpStatus (q : KcpMsg) (s : State) : Outcome := s.done (kcpServe 7 1 true runStatus q s.dev)
def execObjectStreamStart (q : KcpMsg) (s : State) : Outcome := s.done (kcpServe 8 1 false runStreamStart q s.dev)
def execObjectStreamStop (q : KcpMsg) (s : State) : Outcome := s.done (kcpServe 8 1 false runStreamStop q s.dev)
def execCaptureFetch (q : KcpMsg) (s : State) : Outcome := s.done (kcpServe 9 1 false runFetch q s.dev)
def execMailboxPost (q : KcpMsg) (s : State) : Outcome := s.done (kcpServe 10 2 false runPost q s.dev)
def execMailboxRead (q : KcpMsg) (s : State) : Outcome := s.done (kcpServe 10 2 false runMailRead q s.dev)
def execEventFire (q : KcpMsg) (s : State) : Outcome := s.done (kcpServe 11 2 false runFire q s.dev)
def execNvErase (q : KcpMsg) (s : State) : Outcome := s.done (kcpServe 12 3 true (runNvStart 0) q s.dev)
def execNvProgram (q : KcpMsg) (s : State) : Outcome := s.done (kcpServe 12 3 true (runNvStart 1) q s.dev)
def execNvRead (q : KcpMsg) (s : State) : Outcome := s.done (kcpServe 12 3 true runNvRead q s.dev)
def execNvCrc (q : KcpMsg) (s : State) : Outcome := s.done (kcpServe 12 3 true runNvCrc q s.dev)
def execNvOpDone (s : State) : Outcome := s.done (nvDoneDev s.dev)
def execKcpLog (q : KcpMsg) (s : State) : Outcome := s.done (kcpServe 13 1 false runLog q s.dev)
def execUnknownType (code : Fin 64) (q : KcpMsg) (s : State) : Outcome :=
  s.done (if codeListed code then s.dev else kcpServe code 1 true runUnknown q s.dev)
def execKcpSessionIdle (session : Nat) (s : State) : Outcome := s.done (sessionIdleDev session s.dev)

end Sys2Proof.Machine
end

