-- ==== Sys2Proof/Machine/Join.lean ====
section
/-! DEFINITION. The state copy and the join of a pair (R437 to R440): what the active unit sends, and what its partner does with it. -/

namespace Sys2Proof.Machine

/-! ## Content of the snapshot and of commits -/

/-- Every RWS value of the live configuration that is away from its reset value. -/
def liveRws (d : Device) : List (Nat × Word) :=
  d.regs.filterMap (fun e => let m := rwsMask e.1; if m = 0#32 then none else some (e.1, e.2 &&& m))

/-- What tells the two units of a pair apart stays as it is: HOME, INPUT, PORT and the device ID (R430, R450). -/
def keepOwn (d : Device) (a : Nat) (w : Word) : Word :=
  let keep (w : Word) (f : Fld) : Word := f.into (d.get f) w
  if a = R.PAIR_CFG then [F.PAIR_CFG.HOME, F.PAIR_CFG.INPUT, F.PAIR_CFG.PORT].foldl keep w
  else if a = R.PAIR_CHAIN then keep w F.PAIR_CHAIN.ID
  else w

/-- The staging copy takes the partner's staged content. -/
def takeStaged (d : Device) (regs : List (Nat × Word)) (tabs : List (Nat × Byte)) : Device :=
  let d1 := setOwner (discardStaged d) .runtime
  let d2 := regs.foldl (fun d e => stageReg d e.1 (keepOwn d e.1 e.2)) d1
  tabs.foldl (fun d e => stageTab d e.1 e.2) d2

/-- The staging copy takes a whole configuration: what it does not list is at its reset value. -/
def takeSnapshot (d : Device) (regs : List (Nat × Word)) (tabs : List (Nat × Byte)) : Device :=
  let miss := (liveRws d).filter (fun e => !regs.any (fun r => r.1 == e.1))
  let missT := d.tabs.filter (fun e => !tabs.any (fun r => r.1 == e.1))
  takeStaged d (regs ++ miss.map (fun e => (e.1, resetOf e.1))) (tabs ++ missT.map (fun e => (e.1, tabDefault e.1)))

/-- The content `land` is staged and a commit with apply line `a` enters CHECKING for `root`; otherwise the copy is as it was before. -/
def remoteCommit (d : Device) (root : CommitRoot) (a : Nat) (land : Device → Device) : Device × Bool :=
  if d.sluState ≠ sluOpen ∨ d.safe ∨ bootFailed d then (d, false)
  else
    let d1 := sluCommit .runtime false root ((land d).wr R.SLU_APPLY_LINE (BitVec.ofNat 32 a))
    if d1.sluState = sluChecking then (d1, true) else (setOwner (discardStaged d1) .none, false)

/-! ## Items at their apply lines (Table 21.3) -/

/-- A CAL_SET item has come: its write set waits for line A, and recomputes of the context that L_c or a later line has begun are dropped, as
on the unit that made it (R121, R437). -/
def awaitCalSet (d : Device) (a : Int) (c : CalContent) : Device :=
  let d1 := dropRecomputes d c.ctx (d.countOf c.lc)
  let t := takeSets d1 c
  let s : WriteSet := { ctx := c.ctx, a := a, base := footBase d c.ctx, values := footAt t c.ctx (tempOf c.tApplied), byRun := true }
  { d1 with cal := { d1.cal with sets := d1.cal.sets ++ [s] } }

/-- CAL_SET at line `a`, whose write set goes live there: working copy, registers, and the commit to MRAM. -/
def applyCalSet (d : Device) (a : Int) (c : CalContent) : Device :=
  let d1 := (clearDue (takeSets d c) c.ctx).set (F.CAL_Cn_TR.T_R c.ctx) c.tr
  let d2 := ((d1.set (F.CAL_Cn_RESULT.SLOT c.ctx) c.slot).set (F.CAL_Cn_RESULT.CODE c.ctx) 1).set (F.CAL_Cn_LAST.APPLY_LINE c.ctx) (lineOf a)
  commitQueue (tempCheck d2 c.ctx) c.ctx

/-- The calibration sets of a snapshot, with the MRAM records. -/
def applySnapCal (d : Device) (c : CalContent) : Device :=
  let d1 := rewriteLive ((takeSets d c).set (F.CAL_Cn_TR.T_R c.ctx) c.tr) c.ctx
  c.mram.foldl (fun d e => d.setBytes e.1 e.2) d1

/-- A plan takes its slot. -/
def storePlan (d : Device) (p : PlanBody) : Device :=
  { d with rsv := { d.rsv with plans := p :: d.rsv.plans.filter (fun x => x.cycle % 64 ≠ p.cycle % 64) } }

/-- An item at its apply line. -/
def applyItem (d : Device) (a : Int) (b : ItemBody) : Device :=
  let d1 := d.count F.PAIR_ITEMS_RX.V
  match b with
  | .calSet c => applyCalSet d1 a c
  | .plan p => storePlan d1 p
  | .firmware bs => d1.withPair { d1.pr with firmware := d1.pr.firmware ++ [bs] }
  | .snapCal c => applySnapCal d1 c
  | .snapPlan p => storePlan d1 p
  | .commit _ _ | .snapConfig _ _ | .snapWarm | .snapCounters _ => d

/-- Items whose apply line is line `c` or an earlier one. -/
def dueItems (d : Device) (c : Int) : Device :=
  let due := d.pr.items.filter (fun e => decide (e.1 ≤ c))
  due.foldl (fun d e => applyItem d e.1 e.2) (d.withPair { d.pr with items := d.pr.items.filter (fun e => !decide (e.1 ≤ c)) })

/-! ## The active unit's side of a join (R440) -/

/-- WARM in cycles. -/
def warmCycles (d : Device) : Nat :=
  ceilDiv (d.get F.BSN_CFG.LEN_MAX + d.get F.FLY_EXP.EXP_LINES + d.get F.BSN_SIGHT.HOLD + 2) (2 ^ cycleLog2 d) + 1

/-- The calibration sets and MRAM records of a context. -/
def snapCalOf (d : Device) (c : Nat) : CalContent :=
  let foot (copy : Nat) : Nat × List Byte := (copyBase copy + 8 * footBase d c, d.bytes (copyBase copy + 8 * footBase d c) (8 * footSize d c))
  let rec_ (copy : Nat) : Nat × List Byte := (recordAddr c copy, d.bytes (recordAddr c copy) 64)
  { calContent d c 0 (d.get (F.CAL_Cn_TR.T_R c)) 0 with mram := [foot 0, rec_ 0, foot 1, rec_ 1] }

/-- A join is asked for: S lies two cycles ahead, and the snapshot leaves with the next state copy (R438). -/
def startServe (d : Device) : Device :=
  let s := cycleStart d d.tb.count 2
  let w := s + (warmCycles d * 2 ^ cycleLog2 d : Nat)
  let d1 := pushItem (d.setServe { sync := s, warm := w }) s (.snapConfig (liveRws d) d.tabs)
  let d2 := (List.range 48).foldl (fun d c => pushItem d s (.snapCal (snapCalOf d c))) d1
  let first := lineOf s / 2 ^ cycleLog2 d
  let d3 := (d.rsv.plans.filter (fun p => decide (sx (32 - cycleLog2 d) (wrapN (32 - cycleLog2 d) ((p.cycle : Int) - first)) ≥ 0))).foldl
    (fun d p => pushItem d s (.snapPlan p)) d2
  pushItem d3 w .snapWarm

/-- Some view holds an open object or seed whose chain began before line `s`. -/
def oldChain (d : Device) (s : Int) : Bool :=
  (List.range 4).any (fun v =>
    (d.seg v).objs.any (fun o => decide (o.chain < s)) || (d.seg v).chains.any (fun e => (d.seg v).seeds.contains e.1 && decide (e.2 < s)))

/-- Line `c` is triggered while this unit serves a join: W is postponed by a cycle, of which the partner hears at once, or the axes are kept as
they stand. -/
def serveLine (d : Device) (c : Int) : Device :=
  match d.pr.serve with
  | none => d
  | some j =>
    if j.warm ≠ c ∨ j.sent then d
    else if oldChain d j.sync then
      let w := j.warm + (2 ^ cycleLog2 d : Nat)
      sendItem (d.setServe { j with warm := w }) w .snapWarm
    else
      let ax := ((List.range 4).filter (fun n => d.bit (F.TRAn_CFG.EN n))).map (fun n => (n, (d.axis n).n, (d.axis n).obs))
      d.setServe { j with axes := some ax }

/-- Every line before `w` has passed the segmenters, sighting formation and the flight matcher. -/
def linesDone (d : Device) (w : Int) : Bool :=
  (List.range 4).all (fun v => !(d.view v).due.any (fun e => decide (e.1 < w)) && !(d.view v).store.any (fun x => decide (x.count < w)))
    && [0, 1].all (fun h => !(d.formQ h).any (fun x => decide (x < w))) && !d.fly.stepQ.any (fun x => decide (x < w))

/-- The counters and observers leave once they stand after line W − 1; digests are compared from the cycle of W on. -/
def serveSend (d : Device) : Device :=
  match d.pr.serve with
  | none => d
  | some j =>
    match j.axes with
    | none => d
    | some ax =>
      if j.sent ∨ ¬ linesDone d j.warm then d
      else
        let pick (l : List (Nat × Nat)) (k now : Nat) : Nat := match l.find? (fun e => e.1 = k) with | some e => e.2 | none => now
        let c : JoinCounters :=
          { views := (List.range 4).map (fun v => pick j.views v (d.get (F.SEGv_NEXT_ID.OBJ_ID v))),
            heights := (List.range 2).map (fun h => pick j.heights h (d.get (F.BSN_NEXT_h.SIGHT_ID h))),
            lanes := j.lanes.getD d.fly.obs.toList, axes := ax }
        let d1 := sendItem d j.warm (.snapCounters c)
        d1.withPair { d1.pr with serve := some { j with sent := true }, compareFrom := some (cycleOf d j.warm) }

/-- The partner's STATUS shows `st`: a join starts, ends, or starts again where a whole cycle after W the partner still asks. -/
def serveStatus (d : Device) (st : Nat) : Device :=
  if d.pairState ≠ pairActive then d
  else match d.pr.serve with
  | none => if st = pairJoin then startServe d else d
  | some j =>
    if st ≠ pairJoin then d.withPair { d.pr with serve := none }
    else if j.sent ∧ j.warm + (2 ^ cycleLog2 d : Nat) ≤ d.tb.count then startServe d
    else d

/-! ## The joining unit's side (R440) -/

/-- Identifiers shifted by a difference modulo 2^32. -/
def shiftId (k x : Nat) : Nat := (x + k) % 2 ^ 32

def Desc.shift (k : Nat → Nat) (x : Desc) : Desc := { x with id := shiftId (k x.view) x.id }

def Closed.shift (k : Nat → Nat) (x : Closed) : Closed := { x with desc := x.desc.shift k }

def Obj.shift (k : Nat) (x : Obj) : Obj := { x with id := shiftId k x.id }

/-- A sighting with its own identifier shifted by `h` of its height and its members' by `v` of their views. -/
def Sighting.shift (v h : Nat → Nat) (s : Sighting) : Sighting :=
  { s with id := shiftId (h s.height) s.id, front := s.front.map (Desc.shift v), rear := s.rear.map (Desc.shift v) }

def FlySight.shift (v h : Nat → Nat) (f : FlySight) : FlySight := { f with s := f.s.shift v h }

/-- Every identifier that a segmenter holds. -/
def Seg.shift (v : Nat → Nat) (k : Nat) (s : Seg) : Seg :=
  { s with
    objs := s.objs.map (Obj.shift (v k)), split := s.split.map (Obj.shift (v k)),
    runs := s.runs.map (fun r => { r with owner := r.owner.map (shiftId (v k)) }), seeds := s.seeds.map (shiftId (v k)),
    chains := s.chains.map (fun e => (shiftId (v k) e.1, e.2)), queue := s.queue.map (Closed.shift v), waiting := s.waiting.map (Closed.shift v) }

/-- Every identifier of the datapath shifted: by `v` of its view, or by `h` of its height. -/
def shiftAll (d : Device) (v h : Nat → Nat) : Device :=
  let segs := (List.range 4).foldl (fun d k => d.setSeg k ((d.seg k).shift v k)) d
  { segs with
    fly := { segs.fly with
      upper := segs.fly.upper.map (fun u => { u with f := u.f.shift v h }), lower := segs.fly.lower.map (FlySight.shift v h) },
    jud := { segs.jud with objs := segs.jud.objs.map (fun o => { o with dec := o.dec.shift v h, upper := o.upper.map (FlySight.shift v h) }) } }

/-- The lane observers and the axes take the active unit's states. -/
def takeObservers (d : Device) (c : JoinCounters) : Device :=
  let obs : Vector Observer 64 := Vector.ofFn (fun i => c.lanes.getD i.val (d.fly.obs.get i))
  let d1 := { d with fly := { d.fly with obs := obs } }
  let d2 := (List.range 64).foldl (fun d k => d.set (F.FLY_LANEk_V.V k) (clampI 0 0xFFFFFFFF (unit obs k).x0).toNat) d1
  c.axes.foldl (fun d e => d.setAxis e.1 { d.axis e.1 with n := e.2.1, obs := e.2.2, past := [] }) d2

/-- The epoch of a CLAIM. -/
def claimEpoch (claim : Nat) : Nat := claim % 4096

/-- The unit takes the partner's epoch, as the two units in step have one epoch (Table 21.9). -/
def adoptEpoch (d : Device) : Device :=
  match d.pr.status with
  | some s => if s.claim = 0 then d else d.set F.PAIR_STATUS.EPOCH (claimEpoch s.claim)
  | none => d

/-- The counters have come and line W − 1 is done: identifiers and observers follow, the hold ends, and the unit is PASSIVE. -/
def joinFinish (d : Device) : Device :=
  match d.pr.counters with
  | none => d
  | some (w, c) =>
    if d.pairState ≠ pairJoin ∨ d.pr.warm ≠ some w ∨ d.tb.count < w - 1 ∨ ¬ linesDone d w then d
    else
      let dv (v : Nat) : Nat := let own := d.get (F.SEGv_NEXT_ID.OBJ_ID v); wrapN 32 ((c.views.getD v own : Int) - own)
      let dh (h : Nat) : Nat := let own := d.get (F.BSN_NEXT_h.SIGHT_ID h); wrapN 32 ((c.heights.getD h own : Int) - own)
      let d1 := (List.range 4).foldl (fun d v => d.set (F.SEGv_NEXT_ID.OBJ_ID v) (shiftId (dv v) (d.get (F.SEGv_NEXT_ID.OBJ_ID v)))) (shiftAll d dv dh)
      let d2 := (List.range 2).foldl (fun d h => d.set (F.BSN_NEXT_h.SIGHT_ID h) (shiftId (dh h) (d.get (F.BSN_NEXT_h.SIGHT_ID h)))) d1
      let d3 := takeObservers d2 c
      let d4 := d3.withPair { d3.pr with compareFrom := some (cycleOf d w), counters := none, warm := none }
      (enterPair (adoptEpoch d4) pairPassive).raise F.PAIR_FLAGS.JOINED

/-- An item that came at or after its apply line sends the unit to JOIN (R438). -/
def itemLate (d : Device) : Device := enterPair (d.count F.PAIR_ITEM_LATE.V) pairJoin

/-- An ITEM frame with apply line `a` from the active unit (R437, R438, R440). -/
def itemRx (a : Nat) (b : ItemBody) (d : Device) : Device :=
  let c := d.countOf a
  let late := d.lining && decide (c ≤ d.tb.count)
  let joining := d.pairState = pairJoin
  if ¬ joining ∧ d.pairState ≠ pairPassive then d
  else match b with
  | .snapCounters k =>
    if joining ∧ d.pr.warm = some c then joinFinish ((d.count F.PAIR_ITEMS_RX.V).withPair { d.pr with counters := some (c, k) }) else d
  | .commit regs tabs =>
    if late then itemLate d
    else
      let (d1, ok) := remoteCommit d .partner a (fun d => takeStaged d regs tabs)
      if ok then d1.count F.PAIR_ITEMS_RX.V else commitTo d1 .partner a .refused
  | .snapConfig regs tabs =>
    if ¬ joining then d
    else if late then itemLate d
    else
      let (d1, ok) := remoteCommit d .snapshot a (fun d => takeSnapshot d regs tabs)
      if ok then (d1.count F.PAIR_ITEMS_RX.V).withPair { d1.pr with sync := some c } else d1
  | .snapWarm =>
    if ¬ joining then d
    else if late then itemLate d
    else
      let d1 := (d.count F.PAIR_ITEMS_RX.V).withPair { d.pr with warm := some c }
      { d1 with basin := { d1.basin with holdFrom := some c } }
  | .calSet k => if late then itemLate d else awaitCalSet (d.withPair { d.pr with items := d.pr.items ++ [(c, b)] }) c k
  | b => if late then itemLate d else d.withPair { d.pr with items := d.pr.items ++ [(c, b)] }

end Sys2Proof.Machine
end

