-- ==== Sys2Proof/Machine/Pair.lean ====
section
/-! DEFINITION. Cycles, digests, the self-test and the partner's STATUS (R433 to R436, R441 to R443), and the frames a peer port receives
(R444 to R452). -/

namespace Sys2Proof.Machine

/-! ## Cycles (R434) -/

/-- Line `c`, triggered at `t` ns, begins a cycle or is the first line: the cycle before ends, and its own is open. -/
def openCycle (d : Device) (c : Int) (t : Nat) : Device :=
  let k := cycleOf d c
  let open_ (x : OpenCycle) : Bool := x.last.isNone
  if d.pr.cycles.any (fun x => open_ x && x.cycle == k) then d
  else
    let l := d.pr.cycles.map (fun x => if open_ x then { x with last := some (c - 1), nextT := t } else x)
    d.withPair { d.pr with cycles := l ++ [{ cycle := k }] }

/-- Every object of the cycle has been released with its windows. -/
def cycleDone (d : Device) (x : OpenCycle) : Bool :=
  match x.last with
  | none => false
  | some l =>
    !(d.formQ 0).any (fun c => decide (c ≤ l)) && !(d.formQ 1).any (fun c => decide (c ≤ l)) && !d.fly.stepQ.any (fun c => decide (c ≤ l))
      && !d.jud.objs.any (fun o => o.cycle == x.cycle)

/-- CRC-64 of Table 17.4 (ECMA-182). -/
def crc64 (bs : List Byte) : Nat := bs.foldl (fun r b => crcTake 64 0x42F0E1EBA9EA3693 false r b.toNat) 0

/-- The digest of a cycle (R441). -/
def digestOf (d : Device) (c : Nat) : Nat := crc64 (leBytes 4 c ++ (d.jud.digests.find? (fun e => e.1 = c)).elim [] Prod.snd)

def lossOf (d : Device) (c : Nat) : Nat := (d.pr.loss.find? (fun e => e.1 = c)).elim 0 Prod.snd

/-! ## Comparison (R442, R443, R436) -/

/-- Both units are in step: the private link is UP and each is PASSIVE or ACTIVE. -/
def inStep (d : Device) : Bool :=
  let ok (s : Nat) : Bool := s == pairPassive || s == pairActive
  privateUp d && ok d.pairState && (match d.pr.status with | some s => ok s.state | none => false)

/-- Digests of cycle `c` are to be compared: from the first cycle at or after W on (R440), once each. -/
def compares (d : Device) (c : Nat) : Bool :=
  inStep d && !d.pr.judged.contains c
    && (match d.pr.compareFrom with
      | some k => let b := 32 - cycleLog2 d; decide (0 ≤ sx b (wrapN b ((c : Int) - k)))
      | none => false)

def judge1 (d : Device) (c : Nat) : Device := d.withPair { d.pr with judged := (c :: d.pr.judged).take 8 }

/-- A mismatch with equal LOSS, or a digest that has not come: the second in a row asks for the self-test. -/
def mismatch (d : Device) : Device :=
  let n := d.pr.badRun + 1
  let d1 := (d.count F.PAIR_MISMATCH.V).raise F.PAIR_FLAGS.MISMATCH
  d1.withPair { d1.pr with okRun := 0, badRun := if n = 2 then 0 else n, self := if n = 2 ∧ d1.pr.self = .none then .wanted else d1.pr.self }

/-- Matching digests; a home unit in PASSIVE names its revert line when REVERT cycles in a row have matched. -/
def matching (d : Device) : Device :=
  let d1 := d.count F.PAIR_CYCLES_OK.V
  let n := d1.pr.okRun + 1
  let rev : Option Int :=
    if d1.bit F.PAIR_CFG.HOME ∧ d1.pairState = pairPassive ∧ d1.pr.revert.isNone ∧ d1.get F.PAIR_CFG.REVERT = n then some (cycleStart d1 d1.tb.count 2)
    else d1.pr.revert
  d1.withPair { d1.pr with okRun := n, badRun := 0, revert := rev }

/-- The digests of cycle `c` are compared where both are there. -/
def compareCycle (d : Device) (c : Nat) : Device :=
  match d.pr.own.find? (fun e => e.cycle = c), d.pr.far.find? (fun e => e.cycle = c) with
  | some o, some p =>
    if ¬ compares d c then d
    else
      let d1 := judge1 d c
      if o.digest = p.digest then matching d1
      else if o.loss ≠ p.loss then
        let d2 := d1.withPair { d1.pr with okRun := 0, badRun := 0 }
        if p.loss < o.loss then pairOutOfStep d2 else d2
      else mismatch d1
  | _, _ => d

/-- First line of cycle `k`: the partner's digest of cycle k − 2 counts as a mismatch where it has not come. -/
def digestMissing (d : Device) (k : Nat) : Device :=
  let n := 2 ^ (32 - cycleLog2 d)
  let c := (k + n - 2) % n
  if compares d c ∧ ¬ d.pr.far.any (fun e => e.cycle == c) then mismatch (judge1 d c) else d

/-- Both results of the self-test are known: where both passed, the home unit is or becomes ACTIVE and the other one joins. -/
def selfConclude (d : Device) : Device :=
  match d.pr.self with
  | .done ok =>
    if d.pr.farSelf = 0 then d
    else
      let d1 := d.withPair { d.pr with self := .none, farSelf := 0 }
      if ok ∧ d.pr.farSelf = 1 then
        let d2 := (d1.raise F.PAIR_FLAGS.DIVERGENCE).fault faultDivergence 0
        if d2.bit F.PAIR_CFG.HOME then (if d2.pairState = pairActive then d2 else enterPair d2 pairActive) else enterPair d2 pairJoin
      else d1
  | _ => d

/-- A whole cycle begins: the self-test that has been asked for starts. -/
def selfStart (d : Device) : Device :=
  if d.pr.self = .wanted then (d.withPair { d.pr with self := .running }).setBit F.PAIR_STATUS.SELFTEST true else d

/-- SELFTEST_DONE. -/
def selfDoneDev (pass : Bool) (d : Device) : Device :=
  if d.pr.self ≠ .running then d
  else
    let d1 := (d.withPair { d.pr with self := .done pass, selfOut := if pass then 1 else 2 }).setBit F.PAIR_STATUS.SELFTEST false
    if pass then selfConclude d1 else pairFail (d1.withPair { d1.pr with self := .none, farSelf := 0 })

/-! ## Commit of a cycle (R434, R441, R442) -/

/-- CYCLE_COMMIT: the oldest open cycle commits: digest, spout ports, DIGEST frame. -/
def cycleCommitDev (d : Device) : Device :=
  match d.pr.cycles with
  | [] => d
  | x :: rest =>
    if ¬ cycleDone d x then d
    else
      let g : CycleDigest := { cycle := x.cycle, digest := digestOf d x.cycle, loss := lossOf d x.cycle }
      let d1 := d.withPair { d.pr with cycles := rest, own := (g :: d.pr.own).take 16 }
      let d2 := { d1 with jud := { d1.jud with digests := d1.jud.digests.filter (fun e => e.1 ≠ x.cycle) } }
      let d3 := spoutCommit d2 x.cycle (!x.late)
      if privateUp d3 then
        let b : DigestBody := { cycle := g.cycle, digest := g.digest, loss := g.loss, selfTest := d3.pr.selfOut }
        let d4 := queueFrame (d3.withPair { d3.pr with selfOut := 0 }) (d3.get F.PAIR_CFG.PORT) { body := .digest b, src := deviceId d }
        compareCycle d4 x.cycle
      else d3

/-- COMMIT_DEADLINE: COMMIT_US after the next cycle began, the oldest cycle that still may is not committed. -/
def commitDeadlineDev (d : Device) : Device :=
  match d.pr.cycles.find? (fun x => x.last.isSome && !x.late) with
  | none => d
  | some x =>
    let d1 := d.elapseTo (x.nextT + 1000 * d.get F.PAIR_TIMING.COMMIT_US)
    let l := d1.pr.cycles.map (fun y => if y = x then { y with late := true } else y)
    spoutHold (((d1.withPair { d1.pr with cycles := l }).count F.PAIR_LATE_COMMIT.V).raise F.PAIR_FLAGS.LEASE_HOLD)

/-- DIGEST frame. -/
def digestRx (b : DigestBody) (d : Device) : Device :=
  let d1 := d.withPair { d.pr with
    far := ({ cycle := b.cycle, digest := b.digest, loss := b.loss } :: d.pr.far.filter (fun e => e.cycle ≠ b.cycle)).take 16,
    farSelf := if b.selfTest = 0 then d.pr.farSelf else b.selfTest }
  selfConclude (compareCycle d1 b.cycle)

/-! ## STATUS (R433, R435, R436, R445) -/

/-- What this unit says in STATUS; one that yields shows itself PASSIVE. -/
def statusBody (d : Device) : PairStatus :=
  let (c, dem) := d.rsv.stages.headD (0, 0)
  { state := if d.pr.yielding then pairPassive else d.pairState, claim := claimOf d, spouts := (List.range 4).map (fun p => d.spState p),
    demand := dem, demandCycle := c, revert := if d.bit F.PAIR_CFG.HOME then d.pr.revert.map lineOf else none }

/-- PEER_STATUS_DUE: every 2 µs on each link that is UP. A join of this unit or of its partner goes on where it can. -/
def statusDueDev (d : Device) : Device :=
  let d1 := joinFinish (serveSend d)
  (List.range 3).foldl (fun d n => if d.peerState n = plUp then queueFrame d n { body := .status (statusBody d1), src := deviceId d } else d) d1

/-- What the partner's STATUS does to the pair state (Table 21.2). -/
def onStatus (b : PairStatus) (d : Device) : Device :=
  let st := d.pairState
  let pe := claimEpoch b.claim
  let own := d.get F.PAIR_STATUS.EPOCH
  let pAct := b.state = pairActive
  if st = pairPassive ∧ (¬ pAct ∨ b.spouts.any (fun s => s == spHold || s == spSafe)) then takeOver d
  else if st = pairActive ∧ d.pr.yielding then
    (if pAct then enterPair (adoptEpoch d) (if d.pr.thenJoin ∧ ¬ [2, 3, 4, 5].any d.resetting then pairJoin else pairPassive) else d)
  else if st = pairActive ∧ pAct then
    (if epochLater pe own ∧ ¬ d.pr.lost then enterPair (adoptEpoch d) pairPassive
     else if (epochLater pe own ∧ d.pr.lost) ∨ (pe = own ∧ ¬ d.bit F.PAIR_CFG.HOME) then enterPair (d.raise F.PAIR_FLAGS.SPLIT) pairJoin
     else d)
  else if st = pairOff ∧ paired d ∧ d.slu.applied ∧ pAct then enterPair d pairJoin
  else if ¬ pAct then homeActive d
  else d

/-- PEER_STATUS from the partner. A demand that has been taken as 3 stays so (R444). A STATUS over a link that is UP again settles its loss. -/
def statusRx (b : PairStatus) (d : Device) : Device :=
  let rev := match b.revert with
    | some v => if d.bit F.PAIR_CFG.HOME then d.pr.revert else some (d.countOf v)
    | none => if d.bit F.PAIR_CFG.HOME then d.pr.revert else none
  let d1 := d.withPair { d.pr with status := some b, statusAt := d.trueNs, revert := rev }
  let d2 := if d1.rsv.partner.any (fun e => e.1 == b.demandCycle) then d1
    else { d1 with rsv := { d1.rsv with partner := ((b.demandCycle, b.demand) :: d1.rsv.partner).take 8 } }
  let d3 := onStatus b d2
  joinFinish (serveSend (serveStatus (d3.withPair { d3.pr with lost := d3.pr.lost && !privateUp d3 }) b.state))

/-- TAKEOVER: no valid STATUS for PEER_TO_US. -/
def takeoverDev (d : Device) : Device :=
  if d.pairState ≠ pairPassive then d
  else takeOver (d.elapse (ceilDiv (d.pr.statusAt + 1000 * d.get F.PAIR_TIMING.PEER_TO_US - d.trueNs) 2))

/-- PAIR_ACTIVATE_TIMEOUT: 2 s after its first apply the other unit has not seen its partner ACTIVE; a home unit that still awaits its
partner's STATUS waits no longer. -/
def activateTimeoutDev (d : Device) : Device :=
  if d.bit F.PAIR_CFG.HOME then (if d.pr.status.isNone then homeActive d else d)
  else if paired d ∧ d.slu.applied ∧ d.pairState = pairOff ∧ ¬ d.bit F.PAIR_CFG.HOME ∧ ¬ partnerActive d then takeRole d else d

/-- PAIR_HELLO_TIMEOUT: 100 ms of HELLO on the private link for a mismatch; a unit that is not home enters FAILED (R448). -/
def helloTimeoutDev (d : Device) : Device :=
  let p := d.get F.PAIR_CFG.PORT
  if paired d ∧ p < 3 ∧ d.peerState p = plHello ∧ (d.peer p).greeted ∧ ¬ d.bit F.PAIR_CFG.HOME then enterPair d pairFailed else d

/-! ## Lines (R440, R436) -/

/-- A LINE frame gives a unit of the pair that is not ACTIVE the stamp and speed of a line in belt mode. -/
def lineRx (l ts : Nat) (speed : Int) (d : Device) : Device :=
  let c := d.countOf l
  if ¬ (d.asOf c).bit F.TB_LINE_CFG.BELT ∨ ¬ paired d ∨ d.pairState = pairActive ∨ d.pairState = pairOff then d
  else
    let d1 := recordStamp d { count := c, t := trigT d c, ts := ts, speed := speed }
    let d2 := { d1 with tb := { d1.tb with unstamped := d1.tb.unstamped.filter (fun u => u.1 ≠ c) } }
    match d2.slu.old with
    | some o => if o.count = c then d2.withSlu { d2.slu with old := some { o with ts := ts } } else d2
    | none => d2

/-- The revert line: the home unit is ACTIVE with epoch + 1, the other one PASSIVE with the same epoch (R436). -/
def revertLine (d : Device) (c : Int) : Device :=
  match d.pr.revert with
  | none => d
  | some v =>
    if c < v then d
    else if d.bit F.PAIR_CFG.HOME then
      (if d.pairState = pairPassive then (takeRole d).raise F.PAIR_FLAGS.REVERTED else d.withPair { d.pr with revert := none })
    else if d.pairState = pairActive then enterPair (nextEpoch d) pairPassive
    else d.withPair { d.pr with revert := none }

/-! ## Chain commits (R411) -/

/-- The confirmation for the commit of apply line `a` has come from its root. -/
def confirmRx (from_ : CommitRoot) (a : Nat) (d : Device) : Device :=
  if d.sluState = sluChecking ∧ d.slu.part = .confirmation ∧ d.slu.root = from_ ∧ fromRoot d ∧ lineOf d.slu.count = a ∧ d.slu.awaited.isEmpty
      ∧ ¬ d.slu.awaitPartner then
    armOrApply (tellDown d .confirm)
  else d

/-- A member or the partner has passed. -/
def passedRx (from_ : CommitRoot) (a : Nat) (d : Device) : Device :=
  if d.sluState ≠ sluChecking ∨ d.slu.part ≠ .confirmation ∨ lineOf d.slu.count ≠ a ∨ (d.slu.awaited.isEmpty ∧ ¬ d.slu.awaitPartner) then d
  else
    let d1 := match from_ with
      | .partner => d.withSlu { d.slu with awaitPartner := false }
      | .device i => d.withSlu { d.slu with awaited := d.slu.awaited.filter (fun x => x ≠ i) }
      | .none | .snapshot => d
    if d1.slu.awaited.isEmpty ∧ ¬ d1.slu.awaitPartner then allPassed d1 else d1

/-- A member or the partner has refused: the partner's refusal is PAIR, a member's cancels the commit. -/
def refusedRx (from_ : CommitRoot) (a : Nat) (d : Device) : Device :=
  if d.sluState ≠ sluChecking ∨ d.slu.part ≠ .confirmation ∨ lineOf d.slu.count ≠ a then d
  else match from_ with
  | .partner => if d.slu.withPartner then sluRefuse (20, 1, 0) d else d
  | .device i => if d.slu.members.contains i then sluCancelled d else d
  | .none | .snapshot => d

/-- A commit message. A unit that is not the ACTIVE one of its pair is no member: its pass holds the root up for nothing, and the commit reaches
it by state copy (R452; DESIGN CHOICE, log entry "commits of a chain"). -/
def commitRx (from_ : CommitRoot) (a : Nat) (m : CommitMsg) (d : Device) : Device :=
  match m with
  | .commit =>
    if paired d ∧ d.pairState ≠ pairActive then commitTo d from_ a .passed
    else
      let (d1, ok) := remoteCommit d from_ a id
      if ok then d1 else commitTo d1 from_ a .refused
  | .passed => passedRx from_ a d
  | .refused => refusedRx from_ a d
  | .split => d
  | .confirm => confirmRx from_ a d
  | .cancel => if d.sluState = sluChecking ∧ d.slu.root = from_ ∧ fromRoot d ∧ lineOf d.slu.count = a then sluCancelled d else d

/-- A member without confirmation at the trigger of A − 16 (R411). -/
def chainSplit (d : Device) : Device :=
  let d1 := ((recordRefusal d (24, 0, 0)).raise F.SLU_FLAGS.CHAIN_SPLIT).fault faultChainSplit 0
  toOpen (commitEnded (discardStaged (tellDown (commitTo d1 d.slu.root (lineOf d.slu.count) .split) .cancel)))

/-- Line `c` is triggered while a commit is checked: one that waits for others is cancelled at A − 48, and one of a root that has no
confirmation by A − 16 splits from it, wherever its check stands (R411). -/
def commitLine (d : Device) (c : Int) : Device :=
  if d.sluState ≠ sluChecking then d
  else
    let waits := d.slu.part = .confirmation ∧ (¬ d.slu.awaited.isEmpty ∨ d.slu.awaitPartner)
    if waits ∧ d.slu.count - 48 ≤ c then (if d.slu.awaitPartner then sluRefuse (20, 1, 0) d else sluCancelled d)
    else if fromRoot d ∧ d.slu.count - 16 ≤ c then chainSplit d
    else d

/-! ## WINDOW and ACCESS (R451, R445) -/

/-- A WINDOW for this device: R209 to R213 with its own valves and without its own MARGIN. -/
def windowRx (line : Nat) (w : WindowReq) (d : Device) : Device :=
  let j := d.countOf line
  let cfg := d.asOf j
  let lo := w.lo - gridUnits cfg
  let hi := w.hi - gridUnits cfg
  let d1 := d.count F.CHAIN_FWD_RX.V
  let d2 := if (covering cfg w.row lo hi).isEmpty then noValve d1 else d1
  (placeAll d2 cfg j w.row w.tF w.tB (rowDeadline d cfg j w.row w.tF lo hi []) lo hi).1

/-- An ACCESS frame of device `src` on port `n`: done as master 6 + n, or answered with a bus error. The reply leaves on the route to `src`
(R452), and on port `n` where there is none. -/
def accessRx (n src : Nat) (write : Bool) (addr : Nat) (data : Word) (d : Device) : Device :=
  let answer (ok : Bool) (v : Nat) (d : Device) : Device :=
    queueFrame d ((routeTo d src).getD n) { body := .accessReply ok (BitVec.ofNat 32 v), src := deviceId d, dst := src }
  if ¬ d.bit (F.PEERn_CFG.ACCESS_EN n) then answer false 0 d
  else
    let d1 := if write then busWrite (6 + n) 0 addr 4 false data.toNat 0#32 d else busRead (6 + n) addr 4 false 0 d
    answer (!d1.cores.busError) (if d1.cores.busError ∨ write then 0 else d1.cores.reply) d1

/-! ## Reception -/

/-- Where a commit message on port `n` comes from. -/
def rootOf (d : Device) (n : Nat) (h : PeerHdr) : CommitRoot := if isPrivate d n then .partner else .device h.src

/-- A frame arrives on port `n`; where it is for this device, `act` follows. Every frame of a root may carry its confirmation (R411). -/
def peerFrame (n : Nat) (h : PeerHdr) (b : PeerBody) (act : Device → Device) (d : Device) : Device :=
  let (d1, mine) := peerArrive n h b d
  let d2 := match h.confirm with
    | some a => if d.peerState n = plUp then confirmRx (rootOf d n h) a d1 else d1
    | none => d1
  if mine then act d2 else d2

/-- Frames of the pair count on the private link only. -/
def onPrivate (n : Nat) (act : Device → Device) (d : Device) : Device := if isPrivate d n then act d else d

def peerTrainRx (n : Nat) (reply : Bool) (word : Nat) (d : Device) : Device :=
  if reply then peerTrainReply n word d else peerTrainRequest n word d

def execCycleCommit (s : State) : Outcome := s.done (cycleCommitDev s.dev)
def execCommitDeadline (s : State) : Outcome := s.done (commitDeadlineDev s.dev)
def execHello (n : Fin 3) (h : PeerHdr) (b : HelloBody) (s : State) : Outcome := s.done (peerFrame n h (.hello b) (helloRx n b) s.dev)
def execPeerStatus (n : Fin 3) (h : PeerHdr) (b : PairStatus) (s : State) : Outcome :=
  s.done (peerFrame n h (.status b) (onPrivate n (statusRx b)) s.dev)
def execPeerTime (n : Fin 3) (h : PeerHdr) (b : TimeBody) (s : State) : Outcome := s.done (peerFrame n h (.time b) (timeRx n h b) s.dev)
def execPeerLine (n : Fin 3) (h : PeerHdr) (ts : Nat) (speed : Int) (s : State) : Outcome :=
  s.done (peerFrame n h (.line ts speed) (onPrivate n (lineRx h.line ts speed)) s.dev)
def execPeerWindow (n : Fin 3) (h : PeerHdr) (b : WindowReq) (s : State) : Outcome :=
  s.done (peerFrame n h (.window b) (windowRx h.line b) s.dev)
def execDigest (n : Fin 3) (h : PeerHdr) (b : DigestBody) (s : State) : Outcome :=
  s.done (peerFrame n h (.digest b) (onPrivate n (digestRx b)) s.dev)
/-- An ITEM frame: the item acts when its last chunk has come. -/
def execPairItem (n : Fin 3) (h : PeerHdr) (line : Nat) (b : ItemBody) (part : Nat) (more : Bool) (s : State) : Outcome :=
  s.done (peerFrame n h (.item line b part) (if more then id else onPrivate n (itemRx line b)) s.dev)
def execPeerCommit (n : Fin 3) (h : PeerHdr) (a : Nat) (m : CommitMsg) (s : State) : Outcome :=
  s.done (peerFrame n h (.commit a m) (commitRx (rootOf s.dev n h) a m) s.dev)
/-- An ACCESS frame: a request is done, and a reply for this device acts on nothing, since no command sends a request. -/
def execPeerAccess (n : Fin 3) (h : PeerHdr) (b : AccessBody) (s : State) : Outcome :=
  match b with
  | .request write addr data => s.done (peerFrame n h (.access write addr data) (accessRx n h.src write addr data) s.dev)
  | .reply ok data => s.done (peerFrame n h (.accessReply ok data) id s.dev)
def execPeerAck (n : Fin 3) (h : PeerHdr) (rel : Nat) (s : State) : Outcome := s.done (peerFrame n h (.ack rel) (peerAck n rel) s.dev)
def execPeerTrain (n : Fin 3) (h : PeerHdr) (reply : Bool) (word : Nat) (s : State) : Outcome :=
  s.done (peerFrame n h (if reply then .trainReply word else .train word) (peerTrainRx n reply word) s.dev)
def execPeerStatusDue (s : State) : Outcome := s.done (statusDueDev s.dev)
def execTakeover (s : State) : Outcome := s.done (takeoverDev s.dev)
def execPairActivateTimeout (s : State) : Outcome := s.done (activateTimeoutDev s.dev)
def execPairYield (s : State) : Outcome := s.done (regAccess R.PAIR_CTRL true yieldDev s.dev)
def execPairRejoin (s : State) : Outcome := s.done (regAccess R.PAIR_CTRL true rejoinDev s.dev)
def execPairHelloTimeout (s : State) : Outcome := s.done (helloTimeoutDev s.dev)
def execSelftestDone (pass : Bool) (s : State) : Outcome := s.done (selfDoneDev pass s.dev)

end Sys2Proof.Machine
end

