-- ==== Sys2Proof/Machine/Lines.lean ====
section
/-! DEFINITION. The trigger of a web line (R264 to R268) and what every block does with it, the first line of a sort cycle included. -/

namespace Sys2Proof.Machine

/-- The axis state that holds at `t`: none where the axis has had no measurement by then. -/
def obsKnown (d : Device) (n t : Nat) : Option Observer :=
  let x := d.axis n
  (x.obs :: x.past).find? (fun o => o.started && !stampBefore t o.tu)

/-- Stamp and speed of a line triggered at `t` under configuration `cfg` in belt mode; none without a measurement (R267). -/
def beltStamp (d cfg : Device) (t : Nat) : Option (Nat × Int) :=
  (obsKnown d (cfg.get F.TB_LINE_CFG.AXIS) t).map (fun o => (posAt o t, velAt o t))

/-- This unit stamps its lines in belt mode from its own axis: it is ACTIVE, or in no pair (R440). -/
def ownStamps (d : Device) : Bool := !paired d || d.pairState == pairActive || d.pairState == pairOff

/-- The stamp of the apply line of the last apply is known. -/
def oldStamp (d : Device) (c : Int) (ts : Nat) : Device :=
  match d.slu.old with
  | some o => if o.count = c then d.withSlu { d.slu with old := some { o with ts := ts } } else d
  | none => d

/-- BELT_STAMP: 1 µs after its trigger the oldest line without a stamp gets TS and speed of the source axis; the active unit of a pair
sends them to its partner. -/
def beltStampDev (d : Device) : Device :=
  match d.tb.unstamped with
  | [] => d
  | (c, t) :: rest =>
    if ¬ ownStamps d then d
    else
      let d1 := d.elapseTo (t + 1000)
      let r := beltStamp d1 (d1.asOf c) t
      let (ts, v) := r.getD (0, 0)
      let d2 := recordStamp { d1 with tb := { d1.tb with unstamped := rest } } { count := c, t := t, ts := ts, speed := v }
      let d3 := oldStamp (d2.raiseIf r.isNone F.TB_FLAGS.NO_POS) c ts
      if privateUp d3 ∧ d3.pairState = pairActive then
        queueFrame d3 (d3.get F.PAIR_CFG.PORT) { body := .line ts v, src := deviceId d3, line := lineOf c }
      else d3

/-- The line of count `c` becomes current at `t` ns, and its stamp is recorded or awaited. -/
def lineCurrent (d0 : Device) (c : Int) (t : Nat) : Device :=
  let d := ({ d0 with tb := { d0.tb with count := c, next := c + 1 } }).wr R.TB_LINE (BitVec.ofNat 32 (lineOf c))
  if ¬ (d.asOf c).bit F.TB_LINE_CFG.BELT then recordStamp d { count := c, t := t, ts := t, speed := 0 }
  else match stampOf d c with
    | some s => recordStamp d { s with t := t }
    | none => { d with tb := { d.tb with unstamped := d.tb.unstamped ++ [(c, t)] } }

/-- The armed commit applies at line `c`, triggered or not, at `t` ns (R409, R266). -/
def applyAt (d : Device) (c : Int) (t : Nat) : Device :=
  if d.sluState ≠ sluArmed ∨ c < d.slu.count then d
  else
    let cfg := d.asOf c
    let ts := if cfg.bit F.TB_LINE_CFG.BELT then ((beltStamp d cfg t).getD (0, 0)).1 else t
    applyArmed d ts t

/-- In a pair, a partner's demand for the cycle before `k` that has not come counts as 3 (R445). -/
def partnerDemand (d : Device) (k : Nat) : Device :=
  let n := 2 ^ (32 - cycleLog2 d)
  let c := (k + n - 1) % n
  if ¬ paired d ∨ d.rsv.partner.any (fun e => e.1 = c) then d else { d with rsv := { d.rsv with partner := ((c, 3) :: d.rsv.partner).take 8 } }

/-- The state copy leaves (R438). -/
def flushItems (d : Device) : Device :=
  d.pr.outbox.foldl (fun d e => sendItem d e.1 e.2) (d.withPair { d.pr with outbox := [] })

/-- First line of cycle `k`, triggered at `t` ns; RSV registers that become live here change the declared values (R418, R428). -/
def cycleFirst (d : Device) (k t : Nat) : Device :=
  let d1 := spoutCycle (d.emit 119 t) k
  let d1' := rsvCycle (partnerDemand d1 k) k t
  let d2 := if d1.rsv.later.isEmpty then d1' else showDerived d1'
  selfStart (digestMissing (flushItems d2) k)

/-- The line becomes due in the views and in sighting formation. A joining unit leaves out lines before S, and begins at S without an object
(R440). -/
def lineIntoViews (d : Device) (c : Int) (t : Nat) : Device :=
  if joinSkips d c then d
  else
    let d1 := if d.pairState = pairJoin ∧ d.pr.sync = some c then clearObjects d else d
    formTrigger (geoLine d1 c t) c

/-- Line `c`, triggered at `t` ns, reaches every block. -/
def lineReaches (d : Device) (c : Int) (t : Nat) : Device :=
  let first := lineOf c % 2 ^ cycleLog2 d = 0
  let d1 := openCycle (dueItems (revertLine (d.emit 118 t) c) c) c t
  let d2 := if first then cycleFirst d1 (cycleOf d1 c) t else d1
  let d3 := lineIntoViews (calLine d2 c) c t
  let d4 := capGroupStart (tioLines d3 c) c (d3.bit F.RSV_LIVE.CAPT)
  serveLine d4 c

/-- LINE_TRIGGER: the line generator's next line is triggered at t_L; an armed RUN = 0 stops the generator before it. -/
def lineTriggerDev (d : Device) : Device :=
  if ¬ d.lining then d
  else
    let c := d.tb.next
    let t := tLine d c
    let d1 := d.elapseTo t
    if stopsBefore d c then applyAt d1 c t
    else lineReaches (applyAt (commitLine (lineCurrent d1 c t) c) c t) c t

def execLineTrigger (s : State) : Outcome := s.done (lineTriggerDev s.dev)
def execBeltStamp (s : State) : Outcome := s.done (beltStampDev s.dev)

end Sys2Proof.Machine
end

