-- ==== Sys2Proof/Machine/Dispatch.lean ====
section
/-! DEFINITION. One arm per command: its meaning, or its rejection by name. -/

namespace Sys2Proof.Machine

def exec (i : Instr) (s : State) : Host.Outcome State Fault Refusal :=
  match i with
  | .registerWrite a value hwSet => Sys2Proof.Machine.execRegisterWrite a value hwSet s
  | .rcCounterRead a hwInc => Sys2Proof.Machine.execRcCounterRead a hwInc s
  | .lanePowerUp l => Sys2Proof.Machine.execLanePowerUp l s
  | .lanePowerDown l standby => Sys2Proof.Machine.execLanePowerDown l standby s
  | .laneWakeDone l => Sys2Proof.Machine.execLaneWakeDone l s
  | .laneShutdownDone l => Sys2Proof.Machine.execLaneShutdownDone l s
  | .lossOfSignal l => Sys2Proof.Machine.execLossOfSignal l s
  | .signalPresent l => Sys2Proof.Machine.execSignalPresent l s
  | .cdrLocked l => Sys2Proof.Machine.execCdrLocked l s
  | .lockLost l => Sys2Proof.Machine.execLockLost l s
  | .codeGroupReceive l group phase t => Sys2Proof.Machine.execCodeGroupReceive l group phase t s
  | .scoreDecay l => Sys2Proof.Machine.execScoreDecay l s
  | .txTapsWrite l value => Sys2Proof.Machine.execTxTapsWrite l value s
  | .eyeScanComplete l scan => Sys2Proof.Machine.execEyeScanComplete l scan s
  | .retrain l => Sys2Proof.Machine.execRetrain l s
  | .trainReply l word => Sys2Proof.Machine.execTrainReply l word s
  | .trainReqTimeout l => Sys2Proof.Machine.execTrainReqTimeout l s
  | .linePacketReceive p => Sys2Proof.Machine.execLinePacketReceive p s
  | .packetAbort p => Sys2Proof.Machine.execPacketAbort p s
  | .deskewColumn l => Sys2Proof.Machine.execDeskewColumn l s
  | .ingressOverflow p => Sys2Proof.Machine.execIngressOverflow p s
  | .triggerDue p => Sys2Proof.Machine.execTriggerDue p s
  | .backchannelSend p => Sys2Proof.Machine.execBackchannelSend p s
  | .timePacketDue p => Sys2Proof.Machine.execTimePacketDue p s
  | .noLines p h => Sys2Proof.Machine.execNoLines p h s
  | .regReply p => Sys2Proof.Machine.execRegReply p s
  | .camEvent p => Sys2Proof.Machine.execCamEvent p s
  | .unknownCtl p => Sys2Proof.Machine.execUnknownCtl p s
  | .ctlGo p value => Sys2Proof.Machine.execCtlGo p value s
  | .ctlTimeout p => Sys2Proof.Machine.execCtlTimeout p s
  | .expGo p value => Sys2Proof.Machine.execExpGo p value s
  | .portRestart p => Sys2Proof.Machine.execPortRestart p s
  | .portStateTimeout p => Sys2Proof.Machine.execPortStateTimeout p s
  | .retryEnd p => Sys2Proof.Machine.execRetryEnd p s
  | .pipeStart => Sys2Proof.Machine.execPipeStart s
  | .pipeComplete p snoopOk => Sys2Proof.Machine.execPipeComplete p snoopOk s
  | .statRelease c => Sys2Proof.Machine.execStatRelease c s
  | .viewLineAssemble v => Sys2Proof.Machine.execViewLineAssemble v s
  | .viewDeadline v => Sys2Proof.Machine.execViewDeadline v s
  | .histRowComplete v => Sys2Proof.Machine.execHistRowComplete v s
  | .histRowDrop v => Sys2Proof.Machine.execHistRowDrop v s
  | .segLineProcess v => Sys2Proof.Machine.execSegLineProcess v s
  | .segLostLine v => Sys2Proof.Machine.execSegLostLine v s
  | .sightingFormation h => Sys2Proof.Machine.execSightingFormation h s
  | .flightMatcherStep => Sys2Proof.Machine.execFlightMatcherStep s
  | .forestDone k ecc => Sys2Proof.Machine.execForestDone k ecc s
  | .classifierDone ecc => Sys2Proof.Machine.execClassifierDone ecc s
  | .decisionRelease => Sys2Proof.Machine.execDecisionRelease s
  | .claPowerReq value => Sys2Proof.Machine.execClaPowerReq value s
  | .claShutdownDone => Sys2Proof.Machine.execClaShutdownDone s
  | .claWakeDone => Sys2Proof.Machine.execClaWakeDone s
  | .spoutFrameSend p snoopOk => Sys2Proof.Machine.execSpoutFrameSend p snoopOk s
  | .returnFrameReceive p framed bytes t => Sys2Proof.Machine.execReturnFrameReceive p framed bytes t s
  | .retLost p => Sys2Proof.Machine.execRetLost p s
  | .limitWrite p which value => Sys2Proof.Machine.execLimitWrite p which value s
  | .encoderEdge n a b t held z => Sys2Proof.Machine.execEncoderEdge n a b t held z s
  | .zEdge n rising t held => Sys2Proof.Machine.execZEdge n rising t held s
  | .qerrWindowEnd n => Sys2Proof.Machine.execQerrWindowEnd n s
  | .ssiFrameStart n dataHigh t => Sys2Proof.Machine.execSsiFrameStart n dataHigh t s
  | .ssiFrameDone n bits z => Sys2Proof.Machine.execSsiFrameDone n bits z s
  | .standstillMeas n => Sys2Proof.Machine.execStandstillMeas n s
  | .refArm n => Sys2Proof.Machine.execRefArm n s
  | .listArm n => Sys2Proof.Machine.execListArm n s
  | .listStop n => Sys2Proof.Machine.execListStop n s
  | .clrUncert n => Sys2Proof.Machine.execClrUncert n s
  | .axisSnapshotRead n pos => Sys2Proof.Machine.execAxisSnapshotRead n pos s
  | .monOutput c => Sys2Proof.Machine.execMonOutput c s
  | .monSlotGap p => Sys2Proof.Machine.execMonSlotGap p s
  | .monClkLost => Sys2Proof.Machine.execMonClkLost s
  | .monOutRead c => Sys2Proof.Machine.execMonOutRead c s
  | .monClkEdge pins t => Sys2Proof.Machine.execMonClkEdge pins t s
  | .tbAdjWrite value => Sys2Proof.Machine.execTbAdjWrite value s
  | .tbSlewWrite value => Sys2Proof.Machine.execTbSlewWrite value s
  | .slewEnd => Sys2Proof.Machine.execSlewEnd s
  | .tbStep value => Sys2Proof.Machine.execTbStep value s
  | .todRead => Sys2Proof.Machine.execTodRead s
  | .tsqRead => Sys2Proof.Machine.execTsqRead s
  | .ppsOutPulse fall => Sys2Proof.Machine.execPpsOutPulse fall s
  | .ppsInEdge rising t held => Sys2Proof.Machine.execPpsInEdge rising t held s
  | .tioArm p value => Sys2Proof.Machine.execTioArm p value s
  | .tioStop p => Sys2Proof.Machine.execTioStop p s
  | .tioPulseStart p => Sys2Proof.Machine.execTioPulseStart p s
  | .tioPulseEnd p => Sys2Proof.Machine.execTioPulseEnd p s
  | .tioCaptureEdge p rising t held => Sys2Proof.Machine.execTioCaptureEdge p rising t held s
  | .tioCapRead p => Sys2Proof.Machine.execTioCapRead p s
  | .tioCfgWrite p reg value => Sys2Proof.Machine.execTioCfgWrite p reg value s
  | .mbxWrite m k value => Sys2Proof.Machine.execMbxWrite m k value s
  | .mbxRead m k => Sys2Proof.Machine.execMbxRead m k s
  | .lockRead m k => Sys2Proof.Machine.execLockRead m k s
  | .lockWrite m k => Sys2Proof.Machine.execLockWrite m k s
  | .lockForce hi value => Sys2Proof.Machine.execLockForce hi value s
  | .coreReset n => Sys2Proof.Machine.execCoreReset n s
  | .coreRelease n => Sys2Proof.Machine.execCoreRelease n s
  | .watchdogKick n value => Sys2Proof.Machine.execWatchdogKick n value s
  | .watchdogExpire n => Sys2Proof.Machine.execWatchdogExpire n s
  | .cmoGo n value => Sys2Proof.Machine.execCmoGo n value s
  | .cmoDone n => Sys2Proof.Machine.execCmoDone n s
  | .mtimeRead => Sys2Proof.Machine.execMtimeRead s
  | .mtimerInterrupt n => Sys2Proof.Machine.execMtimerInterrupt n s
  | .plicClaim ctx => Sys2Proof.Machine.execPlicClaim ctx s
  | .crcDataWrite u size value => Sys2Proof.Machine.execCrcDataWrite u size value s
  | .crcStart u => Sys2Proof.Machine.execCrcStart u s
  | .crcStateWrite u pair hi value => Sys2Proof.Machine.execCrcStateWrite u pair hi value s
  | .crcCfgWrite u value => Sys2Proof.Machine.execCrcCfgWrite u value s
  | .memInit value => Sys2Proof.Machine.execMemInit value s
  | .memTrainDone n ok => Sys2Proof.Machine.execMemTrainDone n ok s
  | .memRequest port source addr len write data cycle => Sys2Proof.Machine.execMemRequest port source addr len write data cycle s
  | .memRequestComplete n ready wrong cycle => Sys2Proof.Machine.execMemRequestComplete n ready wrong cycle s
  | .urgencyStep n k => Sys2Proof.Machine.execUrgencyStep n k s
  | .refreshDebtStep n => Sys2Proof.Machine.execRefreshDebtStep n s
  | .refreshIssue n => Sys2Proof.Machine.execRefreshIssue n s
  | .mr4Poll n mult hot => Sys2Proof.Machine.execMr4Poll n mult hot s
  | .driftCheck n ps => Sys2Proof.Machine.execDriftCheck n ps s
  | .driftRetrainDone n ok => Sys2Proof.Machine.execDriftRetrainDone n ok s
  | .captureGroupComplete bad => Sys2Proof.Machine.execCaptureGroupComplete bad s
  | .captureBlockStored => Sys2Proof.Machine.execCaptureBlockStored s
  | .capPosRead idx => Sys2Proof.Machine.execCapPosRead idx s
  | .dmaStart c => Sys2Proof.Machine.execDmaStart c s
  | .dmaFieldWrite c field value => Sys2Proof.Machine.execDmaFieldWrite c field value s
  | .dmaShadowWrite c field value => Sys2Proof.Machine.execDmaShadowWrite c field value s
  | .dmaArm c => Sys2Proof.Machine.execDmaArm c s
  | .dmaPause c => Sys2Proof.Machine.execDmaPause c s
  | .dmaResume c => Sys2Proof.Machine.execDmaResume c s
  | .dmaDrainDone c bytes => Sys2Proof.Machine.execDmaDrainDone c bytes s
  | .dmaAbort c bytes => Sys2Proof.Machine.execDmaAbort c bytes s
  | .dmaComplete c => Sys2Proof.Machine.execDmaComplete c s
  | .dmaBusError c bytes write dram late => Sys2Proof.Machine.execDmaBusError c bytes write dram late s
  | .dmaDomainTimeout c bytes outstanding write => Sys2Proof.Machine.execDmaDomainTimeout c bytes outstanding write s
  | .planWrite value crossing => Sys2Proof.Machine.execPlanWrite value crossing s
  | .domainPowerDown k => Sys2Proof.Machine.execDomainPowerDown k s
  | .domainPowerUp k => Sys2Proof.Machine.execDomainPowerUp k s
  | .energyMeterSample energy temps => Sys2Proof.Machine.execEnergyMeterSample energy temps s
  | .rillEvent idle events => Sys2Proof.Machine.execRillEvent idle events s
  | .cellFilterExpire k => Sys2Proof.Machine.execCellFilterExpire k s
  | .cellRateWindow k => Sys2Proof.Machine.execCellRateWindow k s
  | .evtFire value => Sys2Proof.Machine.execEvtFire value s
  | .evtRearm hi value => Sys2Proof.Machine.execEvtRearm hi value s
  | .peerCrcErr n snoop => Sys2Proof.Machine.execPeerCrcErr n snoop s
  | .peerFrameSend n => Sys2Proof.Machine.execPeerFrameSend n s
  | .peerTimeDue n => Sys2Proof.Machine.execPeerTimeDue n s
  | .helloRepeat n => Sys2Proof.Machine.execHelloRepeat n s
  | .peerRetransmit n rel => Sys2Proof.Machine.execPeerRetransmit n rel s
  | .peerRxTimeout n => Sys2Proof.Machine.execPeerRxTimeout n s
  | .peerStateTimeout n => Sys2Proof.Machine.execPeerStateTimeout n s
  | .resetRegion cause => Sys2Proof.Machine.execResetRegion cause s
  | .regionDrained r => Sys2Proof.Machine.execRegionDrained r s
  | .regionRestart r => Sys2Proof.Machine.execRegionRestart r s
  | .fltSafe => Sys2Proof.Machine.execFltSafe s
  | .fltExit cause => Sys2Proof.Machine.execFltExit cause s
  | .histClear => Sys2Proof.Machine.execHistClear s
  | .refclk cause => Sys2Proof.Machine.execRefclk cause s
  | .sysRefclkReturn => Sys2Proof.Machine.execSysRefclkReturn s
  | .calRunGo value => Sys2Proof.Machine.execCalRunGo value s
  | .calAbort => Sys2Proof.Machine.execCalAbort s
  | .calComputeDone => Sys2Proof.Machine.execCalComputeDone s
  | .calMramCommitDone ok => Sys2Proof.Machine.execCalMramCommitDone ok s
  | .intervalDue c => Sys2Proof.Machine.execIntervalDue c s
  | .tableWindowWrite a value => Sys2Proof.Machine.execTableWindowWrite a value s
  | .nodeWindowWrite a value => Sys2Proof.Machine.execNodeWindowWrite a value s
  | .weightsWindowWrite a value => Sys2Proof.Machine.execWeightsWindowWrite a value s
  | .linkUp => Sys2Proof.Machine.execLinkUp s
  | .linkDown => Sys2Proof.Machine.execLinkDown s
  | .anFail => Sys2Proof.Machine.execAnFail s
  | .porst held => Sys2Proof.Machine.execPorst held s
  | .resetRelease mode levels => Sys2Proof.Machine.execResetRelease mode levels s
  | .pllLock sfdp octal => Sys2Proof.Machine.execPllLock sfdp octal s
  | .bootDramReady => Sys2Proof.Machine.execBootDramReady s
  | .stagingWrite a value => Sys2Proof.Machine.execStagingWrite a value s
  | .sluCommit m value => Sys2Proof.Machine.execSluCommit m value s
  | .sluCancel => Sys2Proof.Machine.execSluCancel s
  | .sluCheckOnly => Sys2Proof.Machine.execSluCheckOnly s
  | .sluHwCheckDone => Sys2Proof.Machine.execSluHwCheckDone s
  | .sluFwVerdict value => Sys2Proof.Machine.execSluFwVerdict value s
  | .sluFwTimeout => Sys2Proof.Machine.execSluFwTimeout s
  | .sluSwitchDone => Sys2Proof.Machine.execSluSwitchDone s
  | .firstApplyTimeout => Sys2Proof.Machine.execFirstApplyTimeout s
  | .supplySample levels => Sys2Proof.Machine.execSupplySample levels s
  | .cycleCommit => Sys2Proof.Machine.execCycleCommit s
  | .commitDeadline => Sys2Proof.Machine.execCommitDeadline s
  | .hello n h b => Sys2Proof.Machine.execHello n h b s
  | .peerStatus n h b => Sys2Proof.Machine.execPeerStatus n h b s
  | .peerTime n h b => Sys2Proof.Machine.execPeerTime n h b s
  | .peerLine n h ts speed => Sys2Proof.Machine.execPeerLine n h ts speed s
  | .peerWindow n h b => Sys2Proof.Machine.execPeerWindow n h b s
  | .digest n h b => Sys2Proof.Machine.execDigest n h b s
  | .pairItem n h line b part more => Sys2Proof.Machine.execPairItem n h line b part more s
  | .peerCommit n h a m => Sys2Proof.Machine.execPeerCommit n h a m s
  | .peerAccess n h b => Sys2Proof.Machine.execPeerAccess n h b s
  | .peerAck n h rel => Sys2Proof.Machine.execPeerAck n h rel s
  | .peerTrain n h reply word => Sys2Proof.Machine.execPeerTrain n h reply word s
  | .peerStatusDue => Sys2Proof.Machine.execPeerStatusDue s
  | .takeover => Sys2Proof.Machine.execTakeover s
  | .pairActivateTimeout => Sys2Proof.Machine.execPairActivateTimeout s
  | .pairYield => Sys2Proof.Machine.execPairYield s
  | .pairRejoin => Sys2Proof.Machine.execPairRejoin s
  | .pairHelloTimeout => Sys2Proof.Machine.execPairHelloTimeout s
  | .selftestDone pass => Sys2Proof.Machine.execSelftestDone pass s
  | .lineTrigger => Sys2Proof.Machine.execLineTrigger s
  | .beltStamp => Sys2Proof.Machine.execBeltStamp s
  | .ethFrameReceive bytes corrected uncorrectable t => Sys2Proof.Machine.execEthFrameReceive bytes corrected uncorrectable t s
  | .pauseReceive quanta => Sys2Proof.Machine.execPauseReceive quanta s
  | .pauseExpire => Sys2Proof.Machine.execPauseExpire s
  | .ethFrameTransmit t => Sys2Proof.Machine.execEthFrameTransmit t s
  | .objectStreamFlush => Sys2Proof.Machine.execObjectStreamFlush s
  | .captureFetchDatagram => Sys2Proof.Machine.execCaptureFetchDatagram s
  | .kcpOpen q => Sys2Proof.Machine.execKcpOpen q s
  | .kcpClose q => Sys2Proof.Machine.execKcpClose q s
  | .kcpRead q => Sys2Proof.Machine.execKcpRead q s
  | .kcpWrite q => Sys2Proof.Machine.execKcpWrite q s
  | .stageAdd q => Sys2Proof.Machine.execStageAdd q s
  | .stageCancel q => Sys2Proof.Machine.execStageCancel q s
  | .kcpCommit q => Sys2Proof.Machine.execKcpCommit q s
  | .kcpStatus q => Sys2Proof.Machine.execKcpStatus q s
  | .objectStreamStart q => Sys2Proof.Machine.execObjectStreamStart q s
  | .objectStreamStop q => Sys2Proof.Machine.execObjectStreamStop q s
  | .captureFetch q => Sys2Proof.Machine.execCaptureFetch q s
  | .mailboxPost q => Sys2Proof.Machine.execMailboxPost q s
  | .mailboxRead q => Sys2Proof.Machine.execMailboxRead q s
  | .eventFire q => Sys2Proof.Machine.execEventFire q s
  | .nvErase q => Sys2Proof.Machine.execNvErase q s
  | .nvProgram q => Sys2Proof.Machine.execNvProgram q s
  | .nvRead q => Sys2Proof.Machine.execNvRead q s
  | .nvCrc q => Sys2Proof.Machine.execNvCrc q s
  | .nvOpDone => Sys2Proof.Machine.execNvOpDone s
  | .kcpLog q => Sys2Proof.Machine.execKcpLog q s
  | .unknownType code q => Sys2Proof.Machine.execUnknownType code q s
  | .kcpSessionIdle session => Sys2Proof.Machine.execKcpSessionIdle session s
  | .debugRequest q => Sys2Proof.Machine.execDebugRequest q s

end Sys2Proof.Machine
end

