-- ==== Sys2Proof/Safety.lean ====
section
/-! DEFINITION. The words that statements are made of: the canonical form of every store, what a command leaves unchanged, and
the registers that groups of commands share. -/

namespace Sys2Proof.Machine

/-- Each store is in its one canonical form: keys strictly rising, no entry equal to what an unlisted key reads as. -/
structure Device.Canonical (d : Device) : Prop where
  regs : Sparse.wf resetOf d.regs = true
  tabs : Sparse.wf tabDefault d.tabs = true
  mem : Sparse.wf memDefault d.mem = true
  flash : Sparse.wf flashDefault d.flash = true

/-- The canonical form of the byte memories, as a check. -/
def Memory.wf (l : List Host.Cell) : Bool := Sparse.wf memDefault l

/-- The parts of the device beside its registers, tables and memories: each field of `Device` that is no store. -/
inductive Part where
  | resv
  | fresh
  | slu
  | boot
  | lanes
  | ports
  | pipes
  | cal
  | geo
  | basin
  | peers
  | pr
  | fly
  | jud
  | ej
  | mon
  | axes
  | tb
  | evt
  | flt
  | dram
  | cap
  | rsv
  | cores
  | dma
  | dmaOut
  | crc
  | eth
deriving DecidableEq, Repr

/-- A part is the same in two devices. -/
def Part.same : Part → Device → Device → Prop
  | .resv, d, e => e.resv = d.resv
  | .fresh, d, e => e.fresh = d.fresh
  | .slu, d, e => e.slu = d.slu
  | .boot, d, e => e.boot = d.boot
  | .lanes, d, e => e.lanes = d.lanes
  | .ports, d, e => e.ports = d.ports
  | .pipes, d, e => e.pipes = d.pipes
  | .cal, d, e => e.cal = d.cal
  | .geo, d, e => e.geo = d.geo
  | .basin, d, e => e.basin = d.basin
  | .peers, d, e => e.peers = d.peers
  | .pr, d, e => e.pr = d.pr
  | .fly, d, e => e.fly = d.fly
  | .jud, d, e => e.jud = d.jud
  | .ej, d, e => e.ej = d.ej
  | .mon, d, e => e.mon = d.mon
  | .axes, d, e => e.axes = d.axes
  | .tb, d, e => e.tb = d.tb
  | .evt, d, e => e.evt = d.evt
  | .flt, d, e => e.flt = d.flt
  | .dram, d, e => e.dram = d.dram
  | .cap, d, e => e.cap = d.cap
  | .rsv, d, e => e.rsv = d.rsv
  | .cores, d, e => e.cores = d.cores
  | .dma, d, e => e.dma = d.dma
  | .dmaOut, d, e => e.dmaOut = d.dmaOut
  | .crc, d, e => e.crc = d.crc
  | .eth, d, e => e.eth = d.eth

/-- What lies between device `d` and device `e`: no register but those at `as` has changed, no part but `ps`, and no byte of memory, of a
staged table or of the flash. -/
structure SameBut (as : List Nat) (ps : List Part) (d e : Device) : Prop where
  regs : ∀ a, a ∉ as → e.rd a = d.rd a
  parts : ∀ p, p ∉ ps → p.same d e
  bytes : ∀ a, e.byte a = d.byte a
  tabs : ∀ a, e.tab a = d.tab a
  flash : e.flash = d.flash

/-- As `SameBut`, but bytes of memory may have changed in the ranges `rs`, each an address and a length. -/
structure SameButMem (as : List Nat) (ps : List Part) (rs : List (Nat × Nat)) (d e : Device) : Prop where
  regs : ∀ a, a ∉ as → e.rd a = d.rd a
  parts : ∀ p, p ∉ ps → p.same d e
  bytes : ∀ a, (∀ r ∈ rs, a < r.1 ∨ r.1 + r.2 ≤ a) → e.byte a = d.byte a
  tabs : ∀ a, e.tab a = d.tab a
  flash : e.flash = d.flash

/-- The registers that show the power and the lock of a lane: its LN_CTRL, LN_STATUS and LN_EYE, and the SYNC_LANES of a camera port. -/
def laneRegs (l : Lane) : List Nat :=
  [R.LN_CTRL (laneBase l), R.LN_STATUS (laneBase l), R.LN_EYE (laneBase l)] ++
    match l with
    | .cpRx p _ => [R.CPn_STATUS p.val]
    | _ => []

/-- The registers that recording a fault may change beside its flags and counters: those of the fault collector. -/
def faultRegs : List Nat :=
  [R.FLT_L1_COUNT, R.FLT_L2_COUNT, R.FLT_L3_COUNT, R.FLT_LAST, R.FLT_LAST_LINE, R.FLT_FLAGS, R.FLT_HIST_SEQ]

/-- The bytes of the fault history in MRAM: address and length (R469). -/
def faultBytes : Nat × Nat := (mramBase + 0xF00000, 65536)

/-- The registers of the monitoring chain that samples, frames and signatures may change. -/
def monRegs : List Nat :=
  [R.MON_FLAGS, R.MON_SIG_DONE] ++ (List.range 32).flatMap (fun c =>
    [R.MON_Cc_STATUS c, R.MON_Cc_FLAGS c, R.MON_Cc_SIG_FAILS c, R.MON_Cc_SIG_OK c, R.MON_Cc_OPEN_LEAD c, R.MON_Cc_CLOSE_LEAD c])

/-- The registers of spout port `p` that a frame may change. -/
def spoutRegs (p : Nat) : List Nat :=
  [R.SPn_STATUS p, R.SPn_CLAIM p, R.SPn_FRAMES_TX p, R.SPn_FLAGS p, R.SPn_MINOFF_HOLDS p, R.SPn_MAXON_TRIPS p, R.SPn_DUTY_CUTS p,
   R.SPn_MAXOPEN_CUTS p, R.EJ_POOL]

/-- The latch of the first bus error (R353). -/
def busErrorRegs : List Nat := [R.CORE_BUSERR_ADDR_LO, R.CORE_BUSERR_ADDR_HI, R.CORE_BUSERR_INFO]

/-- The registers of DMA channel `c` that a halt on an error may change (R374). -/
def dmaErrorRegs (c : Nat) : List Nat :=
  [R.DMAc_STATUS c, R.DMAc_FLAGS c, R.DMAc_ERR_ADDR_LO c, R.DMAc_ERR_ADDR_HI c, R.DMAc_ERR_INFO c]

/-- Peer port `n` is in bring-up or UP, its lanes pass symbols, and it takes the frame of header `h`, which is for this device and carries no
confirmation. -/
def takesFrame (d : Device) (n : Nat) (h : PeerHdr) : Bool :=
  decide (plTrain ≤ d.peerState n) && peerHears d n && !(d.peer n).resting && h.confirm.isNone && (h.dst == 0xFF || h.dst == deviceId d)

/-- The registers of peer port `n` that every frame it takes may change. -/
def peerRegs (n : Nat) : List Nat := [R.PEERn_FRAMES_RX n, R.PEERn_SEQ_GAP n, R.PEERn_FLAGS n]

/-- The registers that show the pair state and the claims that follow it. -/
def pairRegs : List Nat := [R.PAIR_STATUS, R.SPn_CLAIM 0, R.SPn_CLAIM 1, R.SPn_CLAIM 2, R.SPn_CLAIM 3]

/-- The runtime's KCP server gets the datagram `q`, and it is well formed (R310, R312). -/
def kcpReaches (d : Device) (q : KcpMsg) : Bool := d.boot.phase == .done && kcpServes d q && !malformed q

/-- The runtime's KCP server executes the datagram `q` for its session `x`, which is not authenticated and has at least role `least`: it comes to
KCP_CFG.PORT while EN is 1, is well formed, bears the next SEQ, and no request is pending (R310, R312, R316, R318). -/
def kcpAccepts (d : Device) (q : KcpMsg) (x : Session) (least : Nat) : Bool :=
  kcpReaches d q && d.session q.session == some x && x.key.isNone && !x.pending
    && (q.seq + 2 ^ 32 - x.last % 2 ^ 32) % 2 ^ 32 == 1 && decide (least ≤ x.role)

/-- The end of an ECLK cycle of the event fabric. -/
def cyclePassed (d : Device) : Device := { d with evt := { d.evt with cycle := d.evt.cycle + 1 } }

/-- A logic cell takes the stamp `t` of an event on one of the rills `rs` that its inputs select (R391). -/
def stampedBy (d : Device) (k : Nat) (rs : List Nat) (t : Nat) : Cell :=
  { d.cell k with lastStamp := if (List.range 4).any (fun i => rs.contains (cellInput d k i).1) then t else (d.cell k).lastStamp }

/-- The slots of the transmit ring, where it has room for a frame of the runtime. -/
def txSpan (d : Device) : List (Nat × Nat) :=
  if txRoom d then [(slotAddr d R.ETH_TXQ_BASE_LO R.ETH_TXQ_BASE_HI 0, slotBytes * 2 ^ d.get F.ETH_TXQ_SIZE.SLOTS_LOG2)] else []

/-- The server has made this reply to `q`; where the transmit ring of `d` has no room, it waits behind the runtime's other frames (R308). -/
def kcpSent (d e : Device) (q : KcpMsg) (r : KcpReply) : Prop :=
  e.eth.reply = some r ∧ (txRoom d = false → e.eth.firm.getLast? = some (.kcp r q.client q.port))

/-- The reply that went out last has this code, STATUS and body, for `q`, whose SEQ its session has taken. -/
def kcpReplied (d e : Device) (q : KcpMsg) (code status : Nat) (body : List Byte) : Prop :=
  kcpSent d e q (kcpReply none code q.session q.seq status body) ∧ (e.session q.session).map Session.last = some (q.seq % 2 ^ 32)

end Sys2Proof.Machine
end

