-- ==== Sys2Proof/Certificates/Slice0/Obligations.lean ====
section
/-! DEFINITION. The statements about the model. -/

open Sys2Proof Sys2Proof.Machine

/-- For every command c, queue rest and state s, a step of s with c in front of the queue rest answers what exec answers for c on s with the
queue rest. -/
def Obligations.StepRunsFrontCommand : Prop :=
  ∀ (c : Instr) (rest : List Instr) (s : State),
    step { s with pending := c :: rest } = exec c { s with pending := rest }

/-- A step on an empty queue outside reset lets one TCLK edge pass: the edge counter advances by one and no register, memory, table or flash
byte changes and no part but the time base. In reset the state stays as it is. That an empty queue is a clock edge is the model's choice
(notes/assumptions/7.md). -/
def Obligations.IdleStepIsOneClockEdge : Prop :=
  ∀ s : State, s.pending = [] →
    (s.dev.boot.phase = .reset → step s = .next s) ∧
    (s.dev.boot.phase ≠ .reset → ∃ t, step s = .next t ∧ t.pending = [] ∧ t.dev.tb.edges = s.dev.tb.edges + 1 ∧
      SameBut [] [.tb] s.dev t.dev)

/-- For every command and every state, exec answers a next state with the same queue. The machine is total: no fault, no refusal. -/
def Obligations.EveryCommandAnswers : Prop :=
  ∀ (c : Instr) (s : State), ∃ d : Device, exec c s = .next { s with dev := d }

/-- If the register file, the staged tables, the memories and the flash of a state are in canonical form (keys strictly rising, no entry equal
to what an unlisted key reads as), then so are those of the state after any step, whatever command is in front. Equal contents are thus
equal data in every run. -/
def Obligations.StoresStayCanonical : Prop :=
  ∀ s t : State, s.dev.Canonical → step s = .next t → t.dev.Canonical

/-- The reset state is canonical; every register, table byte, memory byte and flash byte reads as its reset content, the command queue is
empty and the boot phase is reset. -/
def Obligations.ResetIsCanonical : Prop :=
  State.reset.dev.Canonical ∧ State.reset.pending = [] ∧ State.reset.dev.boot.phase = .reset ∧
    (∀ a, State.reset.dev.rd a = resetOf a) ∧ (∀ a, State.reset.dev.byte a = memDefault a) ∧
    (∀ a, State.reset.dev.tab a = tabDefault a) ∧ State.reset.dev.flash = []

/-- For every lane and state. LANE_POWER_UP, from the first apply on or on an Ethernet lane, in OFF or STANDBY sets POWER to 2 and the lane is
WAKING; in SHUTDOWN it sets ENABLE_PENDING and the state stays; before the first apply it does nothing on other lanes (the model's choice,
log entry 272). LANE_POWER_DOWN sets POWER to 0 or 1, clears ENABLE_PENDING and ends training, with what the end of training writes:
LN_FAR_TAPS of the last reply with VALID, RETRAIN 0, TRAIN_FAIL where the last scan lay below the minima (that a power-down ends training
so, and its effect in SHUTDOWN, are the model's choice, log entries 224, 232); the lane is OFF or STANDBY at once from OFF, STANDBY and
WAKING, else in SHUTDOWN. LANE_WAKE_DONE brings a waking transmit lane to TX_ACTIVE with RD−, a waking receive lane to LOCKING with signal
and LOS without. LANE_SHUTDOWN_DONE brings a lane in SHUTDOWN to OFF or STANDBY, or, where an enable is held, to WAKING with
ENABLE_PENDING cleared. Each then lets the lane's port follow (laneCheck), and before that changes nothing but the lane's LN_CTRL,
LN_STATUS, LN_EYE, the SYNC_LANES of its port and the lane's own further state; no other lane's state changes. Each clause concludes that
exec i s = .next t; so shown to complete: lanePowerUp, lanePowerDown, laneWakeDone, laneShutdownDone. -/
def Obligations.LanePowerTransitions : Prop :=
  (∀ (l : Lane) (s : State), (s.dev.lnState l = lnOff ∨ s.dev.lnState l = lnStandby) ∧ (s.dev.slu.applied = true ∨ laneIsEth l = true) → 
      ∃ e, exec (.lanePowerUp l) s = .next { s with dev := laneCheck l e } ∧
        e.get (F.LN_CTRL.POWER (laneBase l)) = 2 ∧
        e.lnState l = lnWaking ∧
        SameBut (laneRegs l) [] s.dev e) ∧
  (∀ (l : Lane) (s : State), (s.dev.slu.applied = false ∧ laneIsEth l = false) → 
      ∃ e, exec (.lanePowerUp l) s = .next { s with dev := laneCheck l e } ∧
        e = s.dev) ∧
  (∀ (l : Lane) (s : State), (s.dev.lnState l = lnShutdown ∧ (s.dev.slu.applied = true ∨ laneIsEth l = true)) → 
      ∃ e, exec (.lanePowerUp l) s = .next { s with dev := laneCheck l e } ∧
        e.get (F.LN_CTRL.POWER (laneBase l)) = 2 ∧
        e.lnState l = lnShutdown ∧
        e.get (F.LN_STATUS.ENABLE_PENDING (laneBase l)) = 1 ∧
        SameBut (laneRegs l) [] s.dev e) ∧
  (∀ (l : Lane) (standby : Bool) (s : State),
      ∃ e, exec (.lanePowerDown l standby) s = .next { s with dev := laneCheck l e } ∧
        e.get (F.LN_CTRL.POWER (laneBase l)) = (if standby then 1 else 0) ∧
        e.get (F.LN_STATUS.ENABLE_PENDING (laneBase l)) = 0 ∧
        (e.lnState l = (if s.dev.lnState l = lnOff ∨ s.dev.lnState l = lnStandby ∨ s.dev.lnState l = lnWaking then (if standby then lnStandby else lnOff) else lnShutdown)) ∧
        (e.laneX l).train = none ∧
        (e.laneX l).toStandby = standby ∧
        e.get (F.LN_CTRL.RETRAIN (laneBase l)) = (if (s.dev.laneX l).train.isSome then 0 else s.dev.get (F.LN_CTRL.RETRAIN (laneBase l))) ∧
        ((s.dev.laneX l).train = none → e.rd (R.LN_FLAGS (laneBase l)) = s.dev.rd (R.LN_FLAGS (laneBase l)) ∧ e.rd (R.LN_FAR_TAPS (laneBase l)) = s.dev.rd (R.LN_FAR_TAPS (laneBase l)) ∧ e.evt = s.dev.evt) ∧
        (∀ t ∈ (s.dev.laneX l).train, e.get (F.LN_FAR_TAPS.VALID (laneBase l)) = 1 ∧ (∀ w ∈ t.reply, bitsOf (e.rd (R.LN_FAR_TAPS (laneBase l))).toNat 22 8 = bitsOf w 22 8)) ∧
        e.get (F.LN_FLAGS.TRAIN_FAIL (laneBase l)) = (if (s.dev.laneX l).train.isSome ∧ (s.dev.laneX l).eye.any (fun y => eyeLow s.dev l y.1 y.2) then 1 else s.dev.get (F.LN_FLAGS.TRAIN_FAIL (laneBase l))) ∧
        (∀ k : Lane, k ≠ l → e.laneX k = s.dev.laneX k) ∧
        SameBut (laneRegs l ++ [R.LN_FLAGS (laneBase l), R.LN_FAR_TAPS (laneBase l)]) [.lanes, .evt] s.dev e) ∧
  (∀ (l : Lane) (s : State), s.dev.lnState l = lnWaking → 
      ∃ e, exec (.laneWakeDone l) s = .next { s with dev := laneCheck l e } ∧
        e.lnState l = (if laneIsRx l then (if (s.dev.laneX l).signal then lnLocking else lnLos) else lnTxActive) ∧
        (laneIsRx l = false → e.get (F.LN_STATUS.RD (laneBase l)) = 0) ∧
        SameBut (laneRegs l) [] s.dev e) ∧
  (∀ (l : Lane) (s : State), s.dev.lnState l = lnShutdown → 
      ∃ e, exec (.laneShutdownDone l) s = .next { s with dev := laneCheck l e } ∧
        (e.lnState l = (if s.dev.get (F.LN_STATUS.ENABLE_PENDING (laneBase l)) = 1 then lnWaking else if (s.dev.laneX l).toStandby then lnStandby else lnOff)) ∧
        e.get (F.LN_STATUS.ENABLE_PENDING (laneBase l)) = 0 ∧
        SameBut (laneRegs l) [] s.dev e)

/-- For every receive lane. LOSS_OF_SIGNAL on a locked lane (HUNT, ACQ or SYNC), and LOCK_LOST on one, count LN_LOCK_LOSS, set LOCK_LOST,
discard phase and score and bring the lane to LOS (without signal) or LOCKING (with signal); LOSS_OF_SIGNAL on a lane in LOCKING brings it
to LOS; SIGNAL_PRESENT in LOS brings it to LOCKING; CDR_LOCKED in LOCKING brings it to HUNT, an Ethernet lane to SYNC. Nothing else
changes but the lane's flags, its own further state and its event: no other lane's state does. Each clause concludes that exec i s = .next
t; so shown to complete: lossOfSignal, signalPresent, cdrLocked, lockLost. -/
def Obligations.LaneSignalAndLock : Prop :=
  (∀ (l : Lane) (s : State), laneIsRx l = true → (lnHunt ≤ s.dev.lnState l ∧ s.dev.lnState l ≤ lnSync) → 
      ∃ e, exec (.lossOfSignal l) s = .next { s with dev := laneCheck l e } ∧
        e.lnState l = lnLos ∧
        (e.laneX l).signal = false ∧ (e.laneX l).score = 0 ∧ (e.laneX l).phase = 0 ∧
        e.get (F.LN_LOCK_LOSS.COUNT (laneBase l)) = min (s.dev.get (F.LN_LOCK_LOSS.COUNT (laneBase l)) + 1) 0xFFFFFFFF ∧
        e.get (F.LN_FLAGS.LOCK_LOST (laneBase l)) = 1 ∧
        (∀ k : Lane, k ≠ l → e.laneX k = s.dev.laneX k) ∧
        SameBut (laneRegs l ++ [R.LN_FLAGS (laneBase l), R.LN_LOCK_LOSS (laneBase l)]) [.lanes, .evt] s.dev e) ∧
  (∀ (l : Lane) (s : State), laneIsRx l = true → s.dev.lnState l = lnLocking → 
      ∃ e, exec (.lossOfSignal l) s = .next { s with dev := laneCheck l e } ∧
        e.lnState l = lnLos ∧
        (e.laneX l).signal = false ∧
        (∀ k : Lane, k ≠ l → e.laneX k = s.dev.laneX k) ∧
        SameBut (laneRegs l) [.lanes] s.dev e) ∧
  (∀ (l : Lane) (s : State), laneIsRx l = true → s.dev.lnState l = lnLos → 
      ∃ e, exec (.signalPresent l) s = .next { s with dev := laneCheck l e } ∧
        e.lnState l = lnLocking ∧
        (e.laneX l).signal = true ∧
        (∀ k : Lane, k ≠ l → e.laneX k = s.dev.laneX k) ∧
        SameBut (laneRegs l) [.lanes] s.dev e) ∧
  (∀ (l : Lane) (s : State), laneIsRx l = true → s.dev.lnState l = lnLocking → 
      ∃ e, exec (.cdrLocked l) s = .next { s with dev := laneCheck l e } ∧
        e.lnState l = (if laneIsEth l then lnSync else lnHunt) ∧
        SameBut (laneRegs l) [] s.dev e) ∧
  (∀ (l : Lane) (s : State), laneIsRx l = true → (lnHunt ≤ s.dev.lnState l ∧ s.dev.lnState l ≤ lnSync) → 
      ∃ e, exec (.lockLost l) s = .next { s with dev := laneCheck l e } ∧
        e.lnState l = (if (s.dev.laneX l).signal then lnLocking else lnLos) ∧
        (e.laneX l).score = 0 ∧ (e.laneX l).phase = 0 ∧
        e.get (F.LN_LOCK_LOSS.COUNT (laneBase l)) = min (s.dev.get (F.LN_LOCK_LOSS.COUNT (laneBase l)) + 1) 0xFFFFFFFF ∧
        e.get (F.LN_FLAGS.LOCK_LOST (laneBase l)) = 1 ∧
        (∀ k : Lane, k ≠ l → e.laneX k = s.dev.laneX k) ∧
        SameBut (laneRegs l ++ [R.LN_FLAGS (laneBase l), R.LN_LOCK_LOSS (laneBase l)]) [.lanes, .evt] s.dev e)

/-- For every 8b/10b receive lane with PRBS 0 and POLINV 0. A comma in HUNT takes its phase, starts the count at 1 and leads to ACQ with the
disparity it implies; the comma that makes three at the taken phase leads from ACQ to SYNC with score 0; an invalid symbol in ACQ leads to
HUNT; a data group in SYNC is passed to the port with its symbol period and lengthens the run of valid groups; an invalid symbol in SYNC
is passed on as such and adds one to the score, the fourth counts LN_ALIGN_LOSS, sets ALIGN_LOST and leads to HUNT, without symbols for
the port. The port then follows the lane (laneCheck) and takes the columns complete (portReceive). SCORE_DECAY takes one from the score
(never below 0) after 16 valid groups. Invalid symbols count in LN_CODE_ERR or LN_DISP_ERR. Each clause concludes that exec i s = .next t;
so shown to complete: codeGroupReceive, scoreDecay. -/
def Obligations.LaneAlignment : Prop :=
  (∀ (l : Lane) (group : BitVec 10) (phase : Fin 10) (t : Nat) (rd : Bool) (s : State), (laneIsRx l = true ∧ laneIsEth l = false) → (s.dev.get (F.LN_CTRL.PRBS (laneBase l)) = 0 ∧ s.dev.bit (F.LN_CTRL.POLINV (laneBase l)) = false) → (s.dev.lnState l = lnHunt ∧ commaRd group.toNat = some rd) → 
      ∃ e, exec (.codeGroupReceive l group phase t) s = .next { s with dev := portReceive l (laneCheck l e) } ∧
        e.lnState l = lnAcq ∧
        (e.laneX l).phase = phase ∧ (e.laneX l).acq = 1 ∧ (e.laneX l).rx = (s.dev.laneX l).rx ∧
        e.bit (F.LN_STATUS.RD (laneBase l)) = rdAfter rd group.toNat ∧
        (∀ k : Lane, k ≠ l → e.laneX k = s.dev.laneX k) ∧
        SameBut (laneRegs l) [.lanes] s.dev e) ∧
  (∀ (l : Lane) (group : BitVec 10) (phase : Fin 10) (t : Nat) (s : State), (laneIsRx l = true ∧ laneIsEth l = false) → (s.dev.get (F.LN_CTRL.PRBS (laneBase l)) = 0 ∧ s.dev.bit (F.LN_CTRL.POLINV (laneBase l)) = false) → (s.dev.lnState l = lnAcq ∧ (s.dev.laneX l).phase = phase ∧ (s.dev.laneX l).acq = 2) → decodeGroup (s.dev.bit (F.LN_STATUS.RD (laneBase l))) group.toNat = .ctl 0xBC → 
      ∃ e, exec (.codeGroupReceive l group phase t) s = .next { s with dev := portReceive l (laneCheck l e) } ∧
        e.lnState l = lnSync ∧
        (e.laneX l).score = 0 ∧ (e.laneX l).rx = (s.dev.laneX l).rx ∧
        (∀ k : Lane, k ≠ l → e.laneX k = s.dev.laneX k) ∧
        SameBut (laneRegs l) [.lanes] s.dev e) ∧
  (∀ (l : Lane) (group : BitVec 10) (phase : Fin 10) (t : Nat) (s : State), (laneIsRx l = true ∧ laneIsEth l = false) → (s.dev.get (F.LN_CTRL.PRBS (laneBase l)) = 0 ∧ s.dev.bit (F.LN_CTRL.POLINV (laneBase l)) = false) → (s.dev.lnState l = lnAcq ∧ (s.dev.laneX l).phase = phase) → decodeGroup (s.dev.bit (F.LN_STATUS.RD (laneBase l))) group.toNat = .codeErr → 
      ∃ e, exec (.codeGroupReceive l group phase t) s = .next { s with dev := portReceive l (laneCheck l e) } ∧
        e.lnState l = lnHunt ∧
        e.get (F.LN_FLAGS.CODE_ERR (laneBase l)) = 1 ∧
        e.get (F.LN_CODE_ERR.COUNT (laneBase l)) = min (s.dev.get (F.LN_CODE_ERR.COUNT (laneBase l)) + 1) 0xFFFFFFFF ∧
        (∀ k : Lane, k ≠ l → e.laneX k = s.dev.laneX k) ∧
        SameBut (laneRegs l ++ [R.LN_FLAGS (laneBase l), R.LN_CODE_ERR (laneBase l)]) [.lanes, .evt] s.dev e) ∧
  (∀ (l : Lane) (group : BitVec 10) (phase : Fin 10) (t : Nat) (v : Nat) (s : State), (laneIsRx l = true ∧ laneIsEth l = false) → (s.dev.get (F.LN_CTRL.PRBS (laneBase l)) = 0 ∧ s.dev.bit (F.LN_CTRL.POLINV (laneBase l)) = false) → (s.dev.lnState l = lnSync ∧ (s.dev.laneX l).phase = phase) → decodeGroup (s.dev.bit (F.LN_STATUS.RD (laneBase l))) group.toNat = .data v → 
      ∃ e, exec (.codeGroupReceive l group phase t) s = .next { s with dev := portReceive l (laneCheck l e) } ∧
        e.lnState l = lnSync ∧
        (e.laneX l).rx = (s.dev.laneX l).rx ++ [((t : Int), .data (BitVec.ofNat 8 v))] ∧ (e.laneX l).rxAt = t ∧ (e.laneX l).validRun = (s.dev.laneX l).validRun + 1 ∧ (e.laneX l).score = (s.dev.laneX l).score ∧
        e.bit (F.LN_STATUS.RD (laneBase l)) = rdAfter (s.dev.bit (F.LN_STATUS.RD (laneBase l))) group.toNat ∧
        (∀ k : Lane, k ≠ l → e.laneX k = s.dev.laneX k) ∧
        SameBut (laneRegs l) [.lanes] s.dev e) ∧
  (∀ (l : Lane) (group : BitVec 10) (phase : Fin 10) (t : Nat) (s : State), (laneIsRx l = true ∧ laneIsEth l = false) → (s.dev.get (F.LN_CTRL.PRBS (laneBase l)) = 0 ∧ s.dev.bit (F.LN_CTRL.POLINV (laneBase l)) = false) → (s.dev.lnState l = lnSync ∧ (s.dev.laneX l).phase = phase ∧ (s.dev.laneX l).score ≤ 3) → decodeGroup (s.dev.bit (F.LN_STATUS.RD (laneBase l))) group.toNat = .dispErr → 
      ∃ e, exec (.codeGroupReceive l group phase t) s = .next { s with dev := portReceive l (laneCheck l e) } ∧
        e.lnState l = (if (s.dev.laneX l).score = 3 then lnHunt else lnSync) ∧
        (e.laneX l).score = (if (s.dev.laneX l).score = 3 then 0 else (s.dev.laneX l).score + 1) ∧
        (e.laneX l).rx = (if (s.dev.laneX l).score = 3 then [] else (s.dev.laneX l).rx ++ [((t : Int), .invalid)]) ∧
        e.get (F.LN_DISP_ERR.COUNT (laneBase l)) = min (s.dev.get (F.LN_DISP_ERR.COUNT (laneBase l)) + 1) 0xFFFFFFFF ∧
        ((s.dev.laneX l).score = 3 → e.get (F.LN_FLAGS.ALIGN_LOST (laneBase l)) = 1 ∧ e.get (F.LN_ALIGN_LOSS.COUNT (laneBase l)) = min (s.dev.get (F.LN_ALIGN_LOSS.COUNT (laneBase l)) + 1) 0xFFFFFFFF) ∧
        (∀ k : Lane, k ≠ l → e.laneX k = s.dev.laneX k) ∧
        SameBut (laneRegs l ++ [R.LN_FLAGS (laneBase l), R.LN_DISP_ERR (laneBase l), R.LN_ALIGN_LOSS (laneBase l)]) [.lanes, .evt] s.dev e) ∧
  (∀ (l : Lane) (s : State), (s.dev.lnState l = lnSync ∧ laneIsEth l = false ∧ 16 ≤ (s.dev.laneX l).validRun) → 
      ∃ e, exec (.scoreDecay l) s = .next { s with dev := e } ∧
        (e.laneX l).score = (s.dev.laneX l).score - 1 ∧
        (e.laneX l).validRun = (s.dev.laneX l).validRun - 16 ∧
        (∀ k : Lane, k ≠ l → e.laneX k = s.dev.laneX k) ∧
        SameBut [] [.lanes] s.dev e)

/-- A write of LN_TX_TAPS on an 8b/10b transmit lane with a valid setting takes all three taps, with an invalid one is ignored and sets
TAP_REJ. A scan that ends on a receive lane in SYNC that is not training writes EW, EH (the contiguous open points about the centre by
ERR_MAX and DWELL, 0 with a closed centre; that EH counts contiguous offsets is the model's choice, log entry 230), VALID and SCAN_SEQ + 1
modulo 256 and sets EYE_LOW where it is below a minimum, which on a camera port in RUN with EYE_POLICY leads to RESYNC. RETRAIN on a
camera lane whose port is not in RUN starts training with the PRESET request and reads 1; on a port in RUN it changes nothing. The reply
to a PRESET request waits for a scan; a request without a reply is sent again up to three times, then training ends with TRAIN_FAIL. Each
clause concludes that exec i s = .next t; so shown to complete: txTapsWrite, eyeScanComplete, retrain, trainReply, trainReqTimeout. -/
def Obligations.LaneTapsEyeAndTraining : Prop :=
  (∀ (l : Lane) (value : Word) (s : State), (laneIsRx l = false ∧ laneIsEth l = false) → tapsValid ((F.LN_TX_TAPS.C_PRE 0).of value) ((F.LN_TX_TAPS.C_MAIN 0).of value) ((F.LN_TX_TAPS.C_POST 0).of value) = true → gateOpen s.dev (R.LN_TX_TAPS (laneBase l)) = true → 
      ∃ e, exec (.txTapsWrite l value) s = .next { s with dev := e } ∧
        e.get (F.LN_TX_TAPS.C_PRE (laneBase l)) = (F.LN_TX_TAPS.C_PRE 0).of value ∧
        e.get (F.LN_TX_TAPS.C_MAIN (laneBase l)) = (F.LN_TX_TAPS.C_MAIN 0).of value ∧
        e.get (F.LN_TX_TAPS.C_POST (laneBase l)) = (F.LN_TX_TAPS.C_POST 0).of value ∧
        SameBut [R.LN_TX_TAPS (laneBase l)] [] s.dev e) ∧
  (∀ (l : Lane) (value : Word) (s : State), (laneIsRx l = false ∧ laneIsEth l = false) → tapsValid ((F.LN_TX_TAPS.C_PRE 0).of value) ((F.LN_TX_TAPS.C_MAIN 0).of value) ((F.LN_TX_TAPS.C_POST 0).of value) = false → gateOpen s.dev (R.LN_TX_TAPS (laneBase l)) = true → 
      ∃ e, exec (.txTapsWrite l value) s = .next { s with dev := e } ∧
        e.get (F.LN_FLAGS.TAP_REJ (laneBase l)) = 1 ∧
        SameBut [R.LN_FLAGS (laneBase l)] [.evt] s.dev e) ∧
  (∀ (l : Lane) (scan : EyeScan) (s : State), (laneIsRx l = true ∧ s.dev.lnState l = lnSync ∧ (s.dev.laneX l).train = none) → eyeLow s.dev l (scanEw s.dev l scan) (scanEh s.dev l scan) = false → 
      ∃ e, exec (.eyeScanComplete l scan) s = .next { s with dev := e } ∧
        e.get (F.LN_EYE.EW (laneBase l)) = (if pointOpen s.dev l scan.centre then 1 + openSteps s.dev l 32 scan.before + openSteps s.dev l 31 scan.after else 0) ∧
        e.get (F.LN_EYE.EH (laneBase l)) = (if pointOpen s.dev l scan.centre then 4 * (openSteps s.dev l 127 scan.above + openSteps s.dev l 127 scan.below) else 0) ∧
        e.get (F.LN_EYE.VALID (laneBase l)) = 1 ∧
        e.get (F.LN_EYE.SCAN_SEQ (laneBase l)) = (s.dev.get (F.LN_EYE.SCAN_SEQ (laneBase l)) + 1) % 256 ∧
        ((e.laneX l).eye = some (scanEw s.dev l scan, scanEh s.dev l scan) ∧ (∀ k : Lane, k ≠ l → e.laneX k = s.dev.laneX k)) ∧
        SameBut [R.LN_EYE (laneBase l)] [.lanes] s.dev e) ∧
  (∀ (l : Lane) (scan : EyeScan) (s : State), (laneIsRx l = true ∧ s.dev.lnState l = lnSync) → eyeLow s.dev l (scanEw s.dev l scan) (scanEh s.dev l scan) = true → 
      ∃ e, exec (.eyeScanComplete l scan) s = .next { s with dev := e } ∧
        e.get (F.LN_FLAGS.EYE_LOW (laneBase l)) = 1) ∧
  (∀ (p : Fin 12) (k : Fin 4) (scan : EyeScan) (s : State), (s.dev.lnState (.cpRx p k) = lnSync ∧ (s.dev.laneX (.cpRx p k)).train = none) → eyeLow s.dev (.cpRx p k) (scanEw s.dev (.cpRx p k) scan) (scanEh s.dev (.cpRx p k) scan) = true → (s.dev.portState p = psRun ∧ k.val < portLanes s.dev p ∧ s.dev.bit (F.CPn_CFG.EYE_POLICY p) = true) → 
      ∃ e, exec (.eyeScanComplete (.cpRx p k) scan) s = .next { s with dev := e } ∧
        e.get (F.LN_FLAGS.EYE_LOW (laneBase (.cpRx p k))) = 1 ∧
        e.portState p = psResync ∧
        (e.port p).eyeResync = true ∧
        e.get (F.CPn_FLAGS.RESYNC p) = 1) ∧
  (∀ (p : Fin 12) (k : Fin 4) (s : State), (s.dev.portState p ≠ psRun ∧ (s.dev.laneX (.cpRx p k)).train = none ∧ (s.dev.port p).trainReq = none) → (trainMode s.dev (.cpRx p k) ≠ 0 ∧ 1 ≤ s.dev.get (F.LN_TRAIN_CTRL.MAX_STEPS (laneBase (.cpRx p k)))) → (∀ j : Fin 4, (s.dev.laneX (.cpRx p j)).train = none) → gateOpen s.dev (R.LN_CTRL (laneBase (.cpRx p k))) = true → 
      ∃ e, exec (.retrain (.cpRx p k)) s = .next { s with dev := e } ∧
        e.get (F.LN_CTRL.RETRAIN (laneBase (.cpRx p k))) = 1 ∧
        (e.laneX (.cpRx p k)).train = some { full := decide (trainMode s.dev (.cpRx p k) = 2), wait := .presetReply, request := k.val * 256 + 0x80, steps := 1 } ∧
        (e.port p).reqQ = (s.dev.port p).reqQ ++ [true] ∧
        SameBut [R.LN_CTRL (laneBase (.cpRx p k))] [.fresh, .lanes, .ports] s.dev e) ∧
  (∀ (p : Fin 12) (k : Fin 4) (s : State), s.dev.portState p = psRun → gateOpen s.dev (R.LN_CTRL (laneBase (.cpRx p k))) = true → 
      ∃ e, exec (.retrain (.cpRx p k)) s = .next { s with dev := e } ∧
        e = s.dev) ∧
  (∀ (p : Fin 12) (k : Fin 4) (tag : Nat) (body : List Byte) (word : Word) (t : Training) (s : State), (ctlEvent s.dev p = some (5, tag, body) ∧ (s.dev.port p).trainReq = some { lane := k.val, tag := tag, word := t.request }) → ((s.dev.laneX (.cpRx p k)).train = some t ∧ t.wait = .presetReply) → (∀ j : Fin 4, (s.dev.laneX (.cpRx p j)).train.all (fun u => !u.queued) = true) → 
      ∃ e, exec (.trainReply (.camera p) word) s = .next { s with dev := e } ∧
        (e.laneX (.cpRx p k)).train = some { t with reply := some (leAt body 0 4), wait := .presetScan } ∧
        (e.port p).trainReq = none ∧
        SameBut [] [.lanes, .ports] s.dev e) ∧
  (∀ (p : Fin 12) (k : Fin 4) (t : Training) (tag : Nat) (s : State), ((s.dev.port p).trainReq = some { lane := k.val, tag := tag, word := t.request } ∧ (s.dev.port p).reqQ.contains true = false) → ((s.dev.laneX (.cpRx p k)).train = some t ∧ t.resends < 3) → 
      ∃ e, exec (.trainReqTimeout (.camera p)) s = .next { s with dev := e } ∧
        (e.laneX (.cpRx p k)).train = some { t with resends := t.resends + 1 } ∧
        (e.port p).reqQ = (s.dev.port p).reqQ ++ [true] ∧
        SameBut [] [.lanes, .ports] s.dev e) ∧
  (∀ (p : Fin 12) (k : Fin 4) (t : Training) (tag : Nat) (s : State), ((s.dev.port p).trainReq = some { lane := k.val, tag := tag, word := t.request } ∧ (s.dev.port p).reqQ.contains true = false) → ((s.dev.laneX (.cpRx p k)).train = some t ∧ 3 ≤ t.resends ∧ t.byPort = false) → 
      ∃ e, exec (.trainReqTimeout (.camera p)) s = .next { s with dev := e } ∧
        (e.laneX (.cpRx p k)).train = none ∧
        e.get (F.LN_FLAGS.TRAIN_FAIL (laneBase (.cpRx p k))) = 1 ∧
        e.get (F.LN_CTRL.RETRAIN (laneBase (.cpRx p k))) = 0 ∧
        e.get (F.LN_FAR_TAPS.VALID (laneBase (.cpRx p k))) = 1 ∧
        SameBut [R.LN_CTRL (laneBase (.cpRx p k)), R.LN_FLAGS (laneBase (.cpRx p k)), R.LN_FAR_TAPS (laneBase (.cpRx p k))] [.fresh, .lanes, .ports, .evt] s.dev e)

/-- In RUN, a packet that has ended in the port, framed, whose length agrees with its header, whose CRC matches the outstanding trigger t of
its head (the oldest that does) and whose header agrees with that line and with the context is accepted: the trigger of t's line becomes
received and every older outstanding one lost, the line becomes the last waiting line with its port, head, count, settings, temperature
and payload, CPn_LINES_OK counts it, the buffer holds its bytes, and the head's settings and temperature registers take its header's
values. With TEMP not available (0x8000) nothing else changes. It rests also on the model's choices of log entry 27. Each clause concludes
that exec i s = .next t; so shown to complete: linePacketReceive. -/
def Obligations.CameraLineAccepted : Prop :=
  ∀ (p : Fin 12) (bytes : List Byte) (rest : List LinkEvent) (h : Fin 4) (t : Trigger) (s : State), (s.dev.portState p = psRun ∧ (s.dev.port p).rx.events = .line true bytes :: rest) → (leAt bytes 24 4 + 36 = bytes.length ∧ h.val = leAt bytes 0 1 % 4) → matchTrig (unit (s.dev.port p).heads h).trigs .outstanding bytes = some t → headerOk (s.dev.asOf t.count) (headCtx (s.dev.asOf t.count) p h) (lineOf t.count) bytes = true → 
      ∃ e, exec (.linePacketReceive p) s = .next { s with dev := e } ∧
        ((unit (e.port p).heads h).trigs = (unit (s.dev.port p).heads h).trigs.map (fun u => if u.count = t.count then { u with st := .received } else if u.st = .outstanding ∧ u.count < t.count then { u with st := .lost } else u)) ∧
        e.pipes.waiting = s.dev.pipes.waiting ++ [{ port := p, head := h, ctx := headCtx (s.dev.asOf t.count) p h, count := t.count, deadline := (t.t + 1000 * (s.dev.asOf t.count).get (F.CXn_LAT.LAT_TARGET (headCtx (s.dev.asOf t.count) p h))) % 2 ^ 64, settings := leAt bytes 16 2, temp := leAt bytes 18 2, held := bytes.length, payload := (bytes.drop 32).take (bytes.length - 36) }] ∧
        e.get (F.CPn_LINES_OK.COUNT p) = min (s.dev.get (F.CPn_LINES_OK.COUNT p) + 1) 0xFFFFFFFF ∧
        (e.port p).ingress = (s.dev.port p).ingress + bytes.length ∧ (e.port p).rx = { (s.dev.port p).rx with events := rest } ∧
        e.get (headHalf (R.CPn_SETTINGS01 p) h) = leAt bytes 16 2 ∧ e.get (headHalf (R.CPn_TEMP01 p) h) = leAt bytes 18 2 ∧
        (leAt bytes 18 2 = 0x8000 → SameBut [R.CPn_LINES_OK p, R.CPn_LINES_LOST p, R.CPn_FLAGS p, R.CPn_SET_MISMATCH p, R.CPn_SETTINGS01 p, R.CPn_SETTINGS23 p, R.CPn_TEMP01 p, R.CPn_TEMP23 p, R.PIPE_WAIT, R.PIPE_WAIT_HWM] [.ports, .pipes, .evt] s.dev e)

/-- A line packet that ends outside RUN leaves the port and nothing else changes. In RUN, one with bad framing or a length that is not its
header's counts in CPn_FRAME_ERR and sets CRC_ERR; one that matches no outstanding line but a received one counts in CPn_DUP and sets DUP;
one that matches neither counts in CPn_CRC_ERR and sets CRC_ERR; one that matches but whose header disagrees counts in CPn_HDR_ERR and
sets HDR_ERR. In any state, PACKET_ABORT for a packet ended by K30.7 counts in CPn_ABORTS and sets ABORT, and INGRESS_OVERFLOW for one
that found the buffer full counts in CPn_OVF and sets OVF. No line becomes waiting, no trigger changes, and the port's buffer holds none
of it. It rests also on the model's choices of log entry 27. Each clause concludes that exec i s = .next t; so shown to complete:
linePacketReceive, packetAbort, ingressOverflow. -/
def Obligations.CameraLineRejected : Prop :=
  (∀ (p : Fin 12) (framed : Bool) (bytes : List Byte) (rest : List LinkEvent) (s : State), (s.dev.portState p ≠ psRun ∧ (s.dev.port p).rx.events = .line framed bytes :: rest) → 
      ∃ e, exec (.linePacketReceive p) s = .next { s with dev := e } ∧
        e.port p = { s.dev.port p with rx := { (s.dev.port p).rx with events := rest } } ∧
        SameBut [] [.ports] s.dev e) ∧
  (∀ (p : Fin 12) (framed : Bool) (bytes : List Byte) (rest : List LinkEvent) (s : State), (s.dev.portState p = psRun ∧ (s.dev.port p).rx.events = .line framed bytes :: rest) → (framed = false ∨ leAt bytes 24 4 + 36 ≠ bytes.length) → 
      ∃ e, exec (.linePacketReceive p) s = .next { s with dev := e } ∧
        e.get (F.CPn_FRAME_ERR.COUNT p) = min (s.dev.get (F.CPn_FRAME_ERR.COUNT p) + 1) 0xFFFFFFFF ∧
        e.get (F.CPn_FLAGS.CRC_ERR p) = 1 ∧
        e.port p = { s.dev.port p with rx := { (s.dev.port p).rx with events := rest } } ∧
        SameBut [R.CPn_FRAME_ERR p, R.CPn_FLAGS p] [.ports, .evt] s.dev e) ∧
  (∀ (p : Fin 12) (bytes : List Byte) (rest : List LinkEvent) (t : Trigger) (s : State), (s.dev.portState p = psRun ∧ (s.dev.port p).rx.events = .line true bytes :: rest) → leAt bytes 24 4 + 36 = bytes.length → matchTrig (unit (s.dev.port p).heads (leAt bytes 0 1 % 4)).trigs .outstanding bytes = none → matchTrig (unit (s.dev.port p).heads (leAt bytes 0 1 % 4)).trigs .received bytes = some t → 
      ∃ e, exec (.linePacketReceive p) s = .next { s with dev := e } ∧
        e.get (F.CPn_DUP.COUNT p) = min (s.dev.get (F.CPn_DUP.COUNT p) + 1) 0xFFFFFFFF ∧
        e.get (F.CPn_FLAGS.DUP p) = 1 ∧
        e.port p = { s.dev.port p with rx := { (s.dev.port p).rx with events := rest } } ∧
        SameBut [R.CPn_DUP p, R.CPn_FLAGS p] [.ports, .evt] s.dev e) ∧
  (∀ (p : Fin 12) (bytes : List Byte) (rest : List LinkEvent) (s : State), (s.dev.portState p = psRun ∧ (s.dev.port p).rx.events = .line true bytes :: rest) → leAt bytes 24 4 + 36 = bytes.length → matchTrig (unit (s.dev.port p).heads (leAt bytes 0 1 % 4)).trigs .outstanding bytes = none → matchTrig (unit (s.dev.port p).heads (leAt bytes 0 1 % 4)).trigs .received bytes = none → 
      ∃ e, exec (.linePacketReceive p) s = .next { s with dev := e } ∧
        e.get (F.CPn_CRC_ERR.COUNT p) = min (s.dev.get (F.CPn_CRC_ERR.COUNT p) + 1) 0xFFFFFFFF ∧
        e.get (F.CPn_FLAGS.CRC_ERR p) = 1 ∧
        e.port p = { s.dev.port p with rx := { (s.dev.port p).rx with events := rest } } ∧
        SameBut [R.CPn_CRC_ERR p, R.CPn_FLAGS p] [.ports, .evt] s.dev e) ∧
  (∀ (p : Fin 12) (bytes : List Byte) (rest : List LinkEvent) (t : Trigger) (s : State), (s.dev.portState p = psRun ∧ (s.dev.port p).rx.events = .line true bytes :: rest) → leAt bytes 24 4 + 36 = bytes.length → matchTrig (unit (s.dev.port p).heads (leAt bytes 0 1 % 4)).trigs .outstanding bytes = some t → headerOk (s.dev.asOf t.count) (headCtx (s.dev.asOf t.count) p (leAt bytes 0 1 % 4)) (lineOf t.count) bytes = false → 
      ∃ e, exec (.linePacketReceive p) s = .next { s with dev := e } ∧
        e.get (F.CPn_HDR_ERR.COUNT p) = min (s.dev.get (F.CPn_HDR_ERR.COUNT p) + 1) 0xFFFFFFFF ∧
        e.get (F.CPn_FLAGS.HDR_ERR p) = 1 ∧
        e.port p = { s.dev.port p with rx := { (s.dev.port p).rx with events := rest } } ∧
        SameBut [R.CPn_HDR_ERR p, R.CPn_FLAGS p] [.ports, .evt] s.dev e) ∧
  (∀ (p : Fin 12) (rest : List LinkEvent) (s : State), (s.dev.port p).rx.events = .abort :: rest → 
      ∃ e, exec (.packetAbort p) s = .next { s with dev := e } ∧
        e.get (F.CPn_ABORTS.COUNT p) = min (s.dev.get (F.CPn_ABORTS.COUNT p) + 1) 0xFFFFFFFF ∧
        e.get (F.CPn_FLAGS.ABORT p) = 1 ∧
        e.port p = { s.dev.port p with rx := { (s.dev.port p).rx with events := rest } } ∧
        SameBut [R.CPn_ABORTS p, R.CPn_FLAGS p] [.ports, .evt] s.dev e) ∧
  (∀ (p : Fin 12) (rest : List LinkEvent) (s : State), (s.dev.port p).rx.events = .overflow :: rest → 
      ∃ e, exec (.ingressOverflow p) s = .next { s with dev := e } ∧
        e.get (F.CPn_OVF.COUNT p) = min (s.dev.get (F.CPn_OVF.COUNT p) + 1) 0xFFFFFFFF ∧
        e.get (F.CPn_FLAGS.OVF p) = 1 ∧
        e.port p = { s.dev.port p with rx := { (s.dev.port p).rx with events := rest } } ∧
        SameBut [R.CPn_OVF p, R.CPn_FLAGS p] [.ports, .evt] s.dev e)

/-- TRIGGER_DUE of a port that triggers, while the generator runs and no armed commit stops it before the line c due, makes c outstanding for
every enabled head with its trigger instant, queues the trigger message with c and the enabled heads, and moves on to c + 1. NO_LINES sets
its flag after 64 silent triggers of an enabled head in RUN. TIME_PACKET_DUE makes a TIME packet due. BACKCHANNEL_SEND on an active back-
channel without PRBS sends the oldest trigger message first, then an exposure packet, then a training or register request, then a due TIME
packet, else K28.5. It rests also on the model's choices of log entry 33. Each clause concludes that exec i s = .next t; so shown to
complete: triggerDue, noLines, timePacketDue, backchannelSend. -/
def Obligations.CameraTriggersAndBackchannel : Prop :=
  (∀ (p : Fin 12) (n : Int) (s : State), ((s.dev.port p).nextTrig = some n ∧ triggering s.dev p = true) → (s.dev.lining = true ∧ stopsBefore s.dev n = false) → 
      ∃ e, exec (.triggerDue p) s = .next { s with dev := e } ∧
        (e.port p).nextTrig = some (n + 1) ∧ (e.port p).lastTrig = some n ∧
        (e.port p).trigQ = (s.dev.port p).trigQ ++ [{ line := lineOf n, t := tLine s.dev n, heads := (s.dev.asOf n).get (F.CPn_CFG.HEAD_EN p) }] ∧
        (∀ h : Fin 4, headEn (s.dev.asOf n) p h = true → (unit (e.port p).heads h).trigs.getLast? = some { count := n, t := tLine s.dev n } ∧ (unit (e.port p).heads h).silent = (unit (s.dev.port p).heads h).silent + 1) ∧
        (∀ h : Fin 4, headEn (s.dev.asOf n) p h = false → unit (e.port p).heads h = unit (s.dev.port p).heads h) ∧
        SameBut [R.CPn_LINES_LOST p, R.CPn_FLAGS p] [.ports, .tb, .evt] s.dev e) ∧
  (∀ (p : Fin 12) (h : Fin 4) (s : State), (s.dev.portState p = psRun ∧ headEn s.dev p h = true ∧ 64 ≤ (unit (s.dev.port p).heads h).silent) → 
      ∃ e, exec (.noLines p h) s = .next { s with dev := e } ∧
        e.get (F.CPn_FLAGS.NO_LINES p) = 1 ∧
        e.portState p = psRun ∧
        SameBut [R.CPn_FLAGS p] [.ports, .evt] s.dev e) ∧
  (∀ (p : Fin 12) (s : State), (s.dev.portState p ≠ psDisabled ∧ s.dev.portState p ≠ psRetry) → 
      ∃ e, exec (.timePacketDue p) s = .next { s with dev := e } ∧
        (e.port p).timeDue = true ∧
        SameBut [] [.ports] s.dev e) ∧
  (∀ (p : Fin 12) (m : TrigMsg) (rest : List TrigMsg) (s : State), (lnSends s.dev (.cpBc p) = true ∧ (s.dev.port p).trigQ = m :: rest) → 
      ∃ e, exec (.backchannelSend p) s = .next { s with dev := e } ∧
        (e.port p).trigQ = rest ∧ (e.port p).sent = trigMessage m ∧
        e.port p = { s.dev.port p with trigQ := rest, sent := trigMessage m } ∧
        SameBut [R.LN_STATUS (laneBase (.cpBc p))] [.ports, .lanes] s.dev e) ∧
  (∀ (p : Fin 12) (x : Exposure) (s : State), (lnSends s.dev (.cpBc p) = true ∧ (s.dev.port p).trigQ = [] ∧ (s.dev.port p).exposure = some x ∧ x.head < 4) → 
      ∃ e, exec (.backchannelSend p) s = .next { s with dev := e } ∧
        (e.port p).exposure = none ∧ e.get (F.CPn_EXP_CMD.BUSY p) = 0 ∧
        (unit (e.port p).heads x.head).expect = (unit (s.dev.port p).heads x.head).expect ++ [(x.count, x.settings)] ∧
        SameBut [R.CPn_EXP_CMD p, R.LN_STATUS (laneBase (.cpBc p))] [.ports, .lanes, .fresh] s.dev e) ∧
  (∀ (p : Fin 12) (r : RegRequest) (q : List Bool) (s : State), (lnSends s.dev (.cpBc p) = true ∧ (s.dev.port p).trigQ = [] ∧ (s.dev.port p).exposure = none) → ((s.dev.port p).reqQ = false :: q ∧ (s.dev.port p).regReq = some r) → 
      ∃ e, exec (.backchannelSend p) s = .next { s with dev := e } ∧
        (e.port p).reqQ = q ∧ (e.port p).sent = ctlPacket (if r.write then 0x02 else 0x01) r.tag (regBody r) ∧
        SameBut [R.LN_STATUS (laneBase (.cpBc p))] [.ports, .lanes] s.dev e) ∧
  (∀ (p : Fin 12) (s : State), (lnSends s.dev (.cpBc p) = true ∧ (s.dev.port p).trigQ = [] ∧ (s.dev.port p).exposure = none ∧ (s.dev.port p).reqQ = []) → 
      ∃ e, exec (.backchannelSend p) s = .next { s with dev := e } ∧
        (e.port p).timeDue = false ∧
        ((s.dev.port p).timeDue = false → (e.port p).sent = List.replicate 4 (0xBC, true)) ∧
        ((s.dev.port p).timeDue = true → (e.port p).sent = ctlPacket 0x07 (s.dev.free 8).1 (leBytes 8 (timeNs s.dev p))) ∧
        SameBut [R.LN_STATUS (laneBase (.cpBc p))] [.ports, .lanes, .fresh] s.dev e)

/-- CTL_GO on an idle port in RUN with a count of 1 to 16 sets BUSY and queues the request; a GO while BUSY, outside RUN or with another count
sets CTL_REJ and RESULT 3 and sends nothing. A reply to a firmware request with its tag ends it: STATUS 0 gives RESULT 0, another STATUS
gives RESULT 1 and CAM_STATUS; a reply that matches no request counts in CPn_FRAME_ERR. CTL_TIMEOUT sends the request again up to three
times, then ends with RESULT 2. An EVENT stores its code and sets CAM_EVENT; a discarded control packet counts in CPn_FRAME_ERR, one of an
unknown type also sets UNKNOWN_CTL. EXP_GO is accepted with BUSY or refused with EXP_REJ. It rests also on the model's choices of log
entries 9, 30, 262. Each clause concludes that exec i s = .next t; so shown to complete: ctlGo, regReply, ctlTimeout, camEvent,
unknownCtl, expGo. -/
def Obligations.CameraControlRequests : Prop :=
  (∀ (p : Fin 12) (value : Word) (s : State), ((F.CPn_CTL_CMD.GO p).of value = 1 ∧ 1 ≤ (F.CPn_CTL_CMD.COUNT p).of value ∧ (F.CPn_CTL_CMD.COUNT p).of value ≤ 16) → (s.dev.portState p = psRun ∧ s.dev.get (F.CPn_CTL_CMD.BUSY p) = 0) → gateOpen s.dev (R.CPn_CTL_CMD p) = true → 
      ∃ e, exec (.ctlGo p value) s = .next { s with dev := e } ∧
        e.get (F.CPn_CTL_CMD.BUSY p) = 1 ∧
        (e.port p).reqQ = (s.dev.port p).reqQ ++ [false] ∧
        (e.port p).regReq.map (fun r => (r.purpose, r.write, r.addr, r.count, r.resends)) = some (.firmware, decide ((F.CPn_CTL_CMD.WRITE p).of value = 1), s.dev.get (F.CPn_CTL_ADDR.ADDR p), (F.CPn_CTL_CMD.COUNT p).of value, 0) ∧
        SameBut [R.CPn_CTL_CMD p] [.ports, .fresh] s.dev e) ∧
  (∀ (p : Fin 12) (value : Word) (s : State), (F.CPn_CTL_CMD.GO p).of value = 1 → (s.dev.get (F.CPn_CTL_CMD.BUSY p) = 1 ∨ s.dev.portState p ≠ psRun ∨ (F.CPn_CTL_CMD.COUNT p).of value = 0 ∨ 16 < (F.CPn_CTL_CMD.COUNT p).of value) → gateOpen s.dev (R.CPn_CTL_CMD p) = true → 
      ∃ e, exec (.ctlGo p value) s = .next { s with dev := e } ∧
        e.get (F.CPn_CTL_CMD.RESULT p) = 3 ∧
        e.get (F.CPn_FLAGS.CTL_REJ p) = 1 ∧
        e.get (F.CPn_CTL_CMD.BUSY p) = s.dev.get (F.CPn_CTL_CMD.BUSY p) ∧
        SameBut [R.CPn_CTL_CMD p, R.CPn_FLAGS p] [.evt] s.dev e) ∧
  (∀ (p : Fin 12) (tag : Nat) (body : List Byte) (r : RegRequest) (s : State), ctlEvent s.dev p = some (3, tag, body) → ((s.dev.port p).regReq = some r ∧ r.purpose = .firmware ∧ r.tag = tag) → 
      ∃ e, exec (.regReply p) s = .next { s with dev := e } ∧
        e.get (F.CPn_CTL_CMD.BUSY p) = 0 ∧
        e.get (F.CPn_CTL_CMD.RESULT p) = (if leAt body 0 4 = 0 then 0 else 1) ∧
        (leAt body 0 4 ≠ 0 → e.get (F.CPn_CTL_CMD.CAM_STATUS p) = leAt body 0 4 % 256) ∧
        (leAt body 0 4 = 0 ∧ r.write = false → ∀ k, k < min r.count (body.length / 4 - 1) → e.rd (R.CPn_CTL_DATAk p k) = BitVec.ofNat 32 (leAt body (4 + 4 * k) 4)) ∧
        (e.port p).regReq = none ∧
        SameBut ([R.CPn_CTL_CMD p] ++ (List.range 16).map (R.CPn_CTL_DATAk p)) [.ports] s.dev e) ∧
  (∀ (p : Fin 12) (tag : Nat) (body : List Byte) (s : State), (ctlEvent s.dev p = some (3, tag, body) ∧ (s.dev.port p).regReq = none) → 
      ∃ e, exec (.regReply p) s = .next { s with dev := e } ∧
        e.get (F.CPn_FRAME_ERR.COUNT p) = min (s.dev.get (F.CPn_FRAME_ERR.COUNT p) + 1) 0xFFFFFFFF ∧
        SameBut [R.CPn_FRAME_ERR p, R.CPn_FLAGS p] [.ports, .evt] s.dev e) ∧
  (∀ (p : Fin 12) (r : RegRequest) (s : State), ((s.dev.port p).regReq = some r ∧ (s.dev.port p).reqQ.contains false = false ∧ r.resends < 3) → 
      ∃ e, exec (.ctlTimeout p) s = .next { s with dev := e } ∧
        (e.port p).regReq = some { r with resends := r.resends + 1 } ∧ (e.port p).reqQ = (s.dev.port p).reqQ ++ [false] ∧
        SameBut [] [.ports] s.dev e) ∧
  (∀ (p : Fin 12) (r : RegRequest) (s : State), ((s.dev.port p).regReq = some r ∧ (s.dev.port p).reqQ.contains false = false ∧ 3 ≤ r.resends ∧ r.purpose = .firmware) → 
      ∃ e, exec (.ctlTimeout p) s = .next { s with dev := e } ∧
        (e.port p).regReq = none ∧ e.get (F.CPn_CTL_CMD.BUSY p) = 0 ∧ e.get (F.CPn_CTL_CMD.RESULT p) = 2 ∧
        e.get (F.CPn_FLAGS.CTL_TIMEOUT p) = 1 ∧
        SameBut [R.CPn_CTL_CMD p, R.CPn_FLAGS p] [.ports, .evt] s.dev e) ∧
  (∀ (p : Fin 12) (tag : Nat) (body : List Byte) (s : State), ctlEvent s.dev p = some (8, tag, body) → 
      ∃ e, exec (.camEvent p) s = .next { s with dev := e } ∧
        e.get (F.CPn_CAM_EVENT.CODE p) = leAt body 0 4 ∧
        e.get (F.CPn_FLAGS.CAM_EVENT p) = 1 ∧
        SameBut [R.CPn_CAM_EVENT p, R.CPn_FLAGS p] [.ports, .evt] s.dev e) ∧
  (∀ (p : Fin 12) (framed : Bool) (bytes : List Byte) (rest : List LinkEvent) (s : State), ((s.dev.port p).rx.events = .ctl framed bytes :: rest ∧ ctlParse framed bytes = none) → 
      ∃ e, exec (.unknownCtl p) s = .next { s with dev := e } ∧
        e.get (F.CPn_FRAME_ERR.COUNT p) = min (s.dev.get (F.CPn_FRAME_ERR.COUNT p) + 1) 0xFFFFFFFF ∧
        e.get (F.CPn_FLAGS.CRC_ERR p) = 1 ∧
        SameBut [R.CPn_FRAME_ERR p, R.CPn_FLAGS p] [.ports, .evt] s.dev e) ∧
  (∀ (p : Fin 12) (type tag : Nat) (body : List Byte) (s : State), (ctlEvent s.dev p = some (type, tag, body) ∧ type ≠ 3 ∧ type ≠ 5 ∧ type ≠ 8) → 
      ∃ e, exec (.unknownCtl p) s = .next { s with dev := e } ∧
        e.get (F.CPn_FRAME_ERR.COUNT p) = min (s.dev.get (F.CPn_FRAME_ERR.COUNT p) + 1) 0xFFFFFFFF ∧
        e.get (F.CPn_FLAGS.UNKNOWN_CTL p) = 1 ∧
        SameBut [R.CPn_FRAME_ERR p, R.CPn_FLAGS p] [.ports, .evt] s.dev e) ∧
  (∀ (p : Fin 12) (value : Word) (s : State), ((F.CPn_EXP_CMD.GO p).of value = 1 ∧ s.dev.get (F.CPn_EXP_CMD.BUSY p) = 0 ∧ s.dev.portState p = psRun) → expTooLate s.dev p (s.dev.countOf (s.dev.get (F.CPn_EXP_LINE.APPLY_LINE p))) = false → gateOpen s.dev (R.CPn_EXP_CMD p) = true → 
      ∃ e, exec (.expGo p value) s = .next { s with dev := e } ∧
        e.get (F.CPn_EXP_CMD.BUSY p) = 1 ∧
        (e.port p).exposure = some { head := (F.CPn_EXP_CMD.HEAD p).of value, settings := s.dev.get (F.CPn_EXP_SET.SETTINGS_ID p), line := s.dev.get (F.CPn_EXP_LINE.APPLY_LINE p), count := s.dev.countOf (s.dev.get (F.CPn_EXP_LINE.APPLY_LINE p)), expNs := s.dev.get (F.CPn_EXP_TIME.EXPOSURE_NS p), gain := s.dev.get (F.CPn_EXP_SET.GAIN p) } ∧
        SameBut [R.CPn_EXP_CMD p] [.ports] s.dev e) ∧
  (∀ (p : Fin 12) (value : Word) (s : State), (F.CPn_EXP_CMD.GO p).of value = 1 → (s.dev.get (F.CPn_EXP_CMD.BUSY p) = 1 ∨ s.dev.portState p ≠ psRun ∨ expTooLate s.dev p (s.dev.countOf (s.dev.get (F.CPn_EXP_LINE.APPLY_LINE p))) = true) → gateOpen s.dev (R.CPn_EXP_CMD p) = true → 
      ∃ e, exec (.expGo p value) s = .next { s with dev := e } ∧
        e.get (F.CPn_FLAGS.EXP_REJ p) = 1 ∧
        (e.port p).exposure = (s.dev.port p).exposure ∧
        SameBut [R.CPn_EXP_CMD p, R.CPn_FLAGS p] [.evt] s.dev e)

/-- An aligned marker column records the skew. In DESKEW the second in a row, with the lanes in SYNC, makes a TIME packet due and leads to
START, and on to RUN with RETRIES 0 where the generator runs. A deskew error counts CPn_DESKEW_ERR and sets DESKEW_ERR in every state; in
RUN the second in a row also sets RESYNC and leads to RESYNC. PORT_STATE_TIMEOUT in LANE_WAKE to RELOCK, DESKEW or RESYNC leads to RETRY
with RETRIES one higher, and as the third in a row to FAULT with the FAULT flag. RETRY_END starts the lanes again at RATE 1 in LANE_WAKE,
and on to DISCOVER with the request for the camera's registers where lane 0 is in SYNC. RESTART of a port with no head enabled leaves it
DISABLED with RETRIES 0 and no line outstanding. It rests also on the model's choices of log entries 25, 31. Each clause concludes that
exec i s = .next t; so shown to complete: deskewColumn, portStateTimeout, retryEnd, portRestart. -/
def Obligations.CameraPortStates : Prop :=
  (∀ (p : Fin 12) (skew : List Int) (rest : List LinkEvent) (s : State), (s.dev.portState p = psDeskew ∧ (s.dev.port p).deskewOk = 1 ∧ (s.dev.port p).rx.events = .marker true skew :: rest) → lanesSync s.dev p (portLanes s.dev p) = true → 
      ∃ e, exec (.deskewColumn (.camera p)) s = .next { s with dev := e } ∧
        e.portState p = (if s.dev.lining then psRun else psStart) ∧
        ((e.port p).timeDue = true ∧ (s.dev.lining = true → e.get (F.CPn_STATUS.RETRIES p) = 0 ∧ (e.port p).nextTrig.isSome = true)) ∧
        e.get (F.CPn_SKEW.LANE1 p) = wrapN 8 (skew.getD 0 0) ∧ e.get (F.CPn_SKEW.LANE2 p) = wrapN 8 (skew.getD 1 0) ∧ e.get (F.CPn_SKEW.LANE3 p) = wrapN 8 (skew.getD 2 0) ∧
        (∀ n : Fin 12, n ≠ p → e.port n = s.dev.port n) ∧
        SameBut [R.CPn_STATUS p, R.CPn_SKEW p] [.ports] s.dev e) ∧
  (∀ (p : Fin 12) (skew : List Int) (rest : List LinkEvent) (s : State), ((s.dev.port p).deskewOk = 0 ∧ (s.dev.port p).rx.events = .marker true skew :: rest) → 
      ∃ e, exec (.deskewColumn (.camera p)) s = .next { s with dev := e } ∧
        e.portState p = s.dev.portState p ∧ (e.port p).deskewOk = 1 ∧ (e.port p).deskewBad = 0 ∧
        e.get (F.CPn_SKEW.LANE1 p) = wrapN 8 (skew.getD 0 0) ∧ e.get (F.CPn_SKEW.LANE2 p) = wrapN 8 (skew.getD 1 0) ∧ e.get (F.CPn_SKEW.LANE3 p) = wrapN 8 (skew.getD 2 0) ∧
        SameBut [R.CPn_SKEW p] [.ports] s.dev e) ∧
  (∀ (p : Fin 12) (skew : List Int) (rest : List LinkEvent) (s : State), ((s.dev.port p).rx.events = .marker false skew :: rest ∧ s.dev.portState p ≠ psRun) → 
      ∃ e, exec (.deskewColumn (.camera p)) s = .next { s with dev := e } ∧
        e.portState p = s.dev.portState p ∧ (e.port p).deskewOk = 0 ∧
        e.get (F.CPn_FLAGS.DESKEW_ERR p) = 1 ∧
        e.get (F.CPn_DESKEW_ERR.COUNT p) = min (s.dev.get (F.CPn_DESKEW_ERR.COUNT p) + 1) 0xFFFFFFFF ∧
        SameBut [R.CPn_FLAGS p, R.CPn_DESKEW_ERR p] [.ports, .evt] s.dev e) ∧
  (∀ (p : Fin 12) (skew : List Int) (rest : List LinkEvent) (s : State), (s.dev.port p).rx.events = .marker false skew :: rest → (s.dev.portState p = psRun ∧ (s.dev.port p).deskewBad = 1 ∧ (s.dev.port p).regReq = none ∧ (s.dev.port p).exposure = none) → 
      ∃ e, exec (.deskewColumn (.camera p)) s = .next { s with dev := e } ∧
        e.portState p = psResync ∧
        e.get (F.CPn_FLAGS.RESYNC p) = 1 ∧ e.get (F.CPn_FLAGS.DESKEW_ERR p) = 1 ∧
        e.get (F.CPn_DESKEW_ERR.COUNT p) = min (s.dev.get (F.CPn_DESKEW_ERR.COUNT p) + 1) 0xFFFFFFFF ∧
        SameBut [R.CPn_STATUS p, R.CPn_FLAGS p, R.CPn_DESKEW_ERR p] [.ports, .evt] s.dev e) ∧
  (∀ (p : Fin 12) (s : State), ((psLaneWake ≤ s.dev.portState p ∧ s.dev.portState p ≤ psRelock) ∨ s.dev.portState p = psDeskew ∨ s.dev.portState p = psResync) → s.dev.get (F.CPn_STATUS.RETRIES p) < 2 → 
      ∃ e, exec (.portStateTimeout p) s = .next { s with dev := e } ∧
        e.portState p = psRetry ∧
        e.get (F.CPn_STATUS.RETRIES p) = s.dev.get (F.CPn_STATUS.RETRIES p) + 1 ∧
        (∀ h : Fin 4, (unit (e.port p).heads h).trigs.all (fun t => t.st ≠ .outstanding) = true) ∧
        (e.port p).regReq = none ∧ (e.port p).trigQ = [] ∧
        SameBut (laneRegs (.cpBc p) ++ [R.LN_FLAGS (laneBase (.cpBc p)), R.LN_FAR_TAPS (laneBase (.cpBc p)), R.CPn_STATUS p, R.CPn_FLAGS p, R.CPn_LINES_LOST p, R.CPn_CTL_CMD p]) [.ports, .lanes, .evt] s.dev e) ∧
  (∀ (p : Fin 12) (s : State), ((psLaneWake ≤ s.dev.portState p ∧ s.dev.portState p ≤ psRelock) ∨ s.dev.portState p = psDeskew ∨ s.dev.portState p = psResync) → s.dev.get (F.CPn_STATUS.RETRIES p) = 2 → 
      ∃ e, exec (.portStateTimeout p) s = .next { s with dev := e } ∧
        e.portState p = psFault ∧
        e.get (F.CPn_FLAGS.FAULT p) = 1) ∧
  (∀ (p : Fin 12) (s : State), (s.dev.portState p = psRetry ∧ lanesSync s.dev p 1 = false) → 
      ∃ e, exec (.retryEnd p) s = .next { s with dev := e } ∧
        e.portState p = psLaneWake ∧
        (s.dev.slu.applied = true → e.get (F.LN_CTRL.POWER (laneBase (.cpBc p))) = 2) ∧
        (∀ k : Fin 4, e.get (F.LN_STATUS.RATE (laneBase (.cpRx p k))) = 1)) ∧
  (∀ (p : Fin 12) (s : State), (s.dev.portState p = psRetry ∧ lanesSync s.dev p 1 = true ∧ (s.dev.port p).regReq = none) → (∀ k : Fin 4, s.dev.get (F.LN_STATUS.RATE (laneBase (.cpRx p k))) = 1) → 
      ∃ e, exec (.retryEnd p) s = .next { s with dev := e } ∧
        e.portState p = psDiscover ∧
        (e.port p).regReq.map (fun r => (r.purpose, r.write, r.addr, r.count)) = some (.discover, false, 0, 12) ∧
        (e.port p).reqQ = (s.dev.port p).reqQ ++ [false]) ∧
  (∀ (p : Fin 12) (s : State), s.dev.get (F.CPn_CFG.HEAD_EN p) = 0 → gateOpen s.dev (R.CPn_LINK_CTRL p) = true → 
      ∃ e, exec (.portRestart p) s = .next { s with dev := e } ∧
        e.portState p = psDisabled ∧
        e.get (F.CPn_STATUS.RETRIES p) = 0 ∧
        (∀ h : Fin 4, (unit (e.port p).heads h).trigs.all (fun t => t.st ≠ .outstanding) = true) ∧
        (∀ k : Fin 4, e.get (F.LN_CTRL.POWER (laneBase (.cpRx p k))) = 0))

/-- PIPE_START gives the lowest free pipe the line that nextLine picks (the order of R89), marks the pipe busy and counts a start past the
deadline; with every pipe busy, or no line that may start, nothing changes. PIPE_COMPLETE frees the pipe, counts CXn_LINES_DONE, adds
clamps and unresolved defects to their counters, and stores the corrected line, its bands those of the stages of Table 4.1, for geometry;
after a snoop mismatch the pipe is free and the line counts all the same, the port's snoop error counts, and geometry keeps nothing.
STAT_RELEASE clears READY, LINES, SETTINGS_ID and every band's sum and minimum and maximum. Each clause concludes that exec i s = .next t;
so shown to complete: pipeStart, pipeComplete, statRelease. -/
def Obligations.PipesAndStatistics : Prop :=
  (∀ (p : Fin 8) (l : CamLine) (s : State), ((List.range 8).find? (fun k => (s.dev.pipeAt k).isNone) = some p.val ∧ nextLine s.dev = some l) → 
      ∃ e, exec (.pipeStart) s = .next { s with dev := e } ∧
        e.pipeAt p = some l ∧
        e.pipes.waiting = s.dev.pipes.waiting.filter (fun x => x ≠ l) ∧
        e.get F.PIPE_LATE_START.COUNT = (if stampBefore l.deadline s.dev.nowNs then min (s.dev.get F.PIPE_LATE_START.COUNT + 1) 0xFFFFFFFF else s.dev.get F.PIPE_LATE_START.COUNT) ∧
        e.get (F.PIPE_STATUS.BUSY.bitN p) = 1 ∧
        SameBut [R.PIPE_WAIT, R.PIPE_WAIT_HWM, R.PIPE_STATUS, R.PIPE_LATE_START] [.pipes] s.dev e) ∧
  (∀ (s : State), ((∀ p : Fin 8, (s.dev.pipeAt p).isSome = true) ∨ nextLine s.dev = none) → 
      ∃ e, exec (.pipeStart) s = .next { s with dev := e } ∧
        e = s.dev) ∧
  (∀ (p : Fin 8) (l : CamLine) (s : State), (s.dev.pipeAt p = some l ∧ l.ctx < 48 ∧ s.dev.cal.run = none) → (s.dev.safe = false ∧ s.dev.resetting 3 = false ∧ s.dev.geo.condemned.contains (l.ctx, l.count) = false) → (s.dev.geo.stored.filter (fun x => x.ctx = l.ctx)).length < 16 → 
      ∃ e, exec (.pipeComplete p true) s = .next { s with dev := e } ∧
        e.pipeAt p = none ∧ e.get (F.PIPE_STATUS.BUSY.bitN p) = 0 ∧
        e.get (F.CXn_LINES_DONE.COUNT l.ctx) = min (s.dev.get (F.CXn_LINES_DONE.COUNT l.ctx) + 1) 0xFFFFFFFF ∧
        e.get (F.CXn_CLIP.COUNT l.ctx) = min (s.dev.get (F.CXn_CLIP.COUNT l.ctx) + (correctLine (s.dev.asOf l.count) l.ctx (entryFor s.dev l.ctx l.count) l.payload).clips) 0xFFFFFFFF ∧
        e.get (F.CXn_DEFECT_UNRES.COUNT l.ctx) = min (s.dev.get (F.CXn_DEFECT_UNRES.COUNT l.ctx) + (correctLine (s.dev.asOf l.count) l.ctx (entryFor s.dev l.ctx l.count) l.payload).unresolved) 0xFFFFFFFF ∧
        ({ ctx := l.ctx, count := l.count, pixels := ctxPixels (s.dev.asOf l.count) l.ctx, nbOut := nbOut (s.dev.asOf l.count) l.ctx, bands := (correctLine (s.dev.asOf l.count) l.ctx (entryFor s.dev l.ctx l.count) l.payload).out } : StoredLine) ∈ e.geo.stored ∧
        SameBut ([R.PIPE_STATUS, R.CXn_LINES_DONE l.ctx, R.CXn_CLIP l.ctx, R.CXn_DEFECT_UNRES l.ctx, R.CXn_STAT_STATUS l.ctx, R.CXn_STAT_LINES l.ctx] ++ (List.range 8).flatMap (fun b => [R.CXn_STAT_SUMLO_b l.ctx b, R.CXn_STAT_SUMHI_b l.ctx b, R.CXn_STAT_MINMAX_b l.ctx b])) [.fresh, .pipes, .cal, .geo, .evt] s.dev e) ∧
  (∀ (p : Fin 8) (l : CamLine) (s : State), (s.dev.pipeAt p = some l ∧ l.ctx < 48 ∧ l.port < 12) → 
      ∃ e, exec (.pipeComplete p false) s = .next { s with dev := e } ∧
        e.pipeAt p = none ∧ e.geo = s.dev.geo ∧
        e.get (F.CXn_LINES_DONE.COUNT l.ctx) = min (s.dev.get (F.CXn_LINES_DONE.COUNT l.ctx) + 1) 0xFFFFFFFF ∧
        e.get (F.CRC_SNOOP_ERRk.COUNT l.port) = min (s.dev.get (F.CRC_SNOOP_ERRk.COUNT l.port) + 1) 0xFFFFFFFF) ∧
  (∀ (k : Fin 48) (s : State), gateOpen s.dev (R.CXn_STAT_CTRL k) = true → 
      ∃ e, exec (.statRelease k) s = .next { s with dev := e } ∧
        e.get (F.CXn_STAT_STATUS.READY k) = 0 ∧
        (e.pipes.ready[k] = none ∧ (∀ j : Fin 48, j ≠ k → e.pipes.ready[j] = s.dev.pipes.ready[j])) ∧
        e.get (F.CXn_STAT_LINES.LINES k) = 0 ∧ e.get (F.CXn_STAT_STATUS.SETTINGS_ID k) = 0 ∧
        (∀ b : Fin 8, e.rd (R.CXn_STAT_SUMLO_b k b) = 0 ∧ e.rd (R.CXn_STAT_SUMHI_b k b) = 0 ∧ e.rd (R.CXn_STAT_MINMAX_b k b) = 0) ∧
        e.cores = { s.dev.cores with latched := e.cores.latched } ∧
        SameBut ([R.CXn_STAT_STATUS k, R.CXn_STAT_LINES k] ++ (List.range 8).flatMap (fun b => [R.CXn_STAT_SUMLO_b k b, R.CXn_STAT_SUMHI_b k b, R.CXn_STAT_MINMAX_b k b])) [.pipes, .cores] s.dev e)

/-- CAL_RUN with GO on a free block, an allowed context and a sampled start line more than 63 lines ahead starts a run in WAIT_START;
otherwise RUN_REJ is set and no run starts. ABORT in WAIT_START or ACCUM ends the run with CODE 4. When COMPUTE is done the chosen slot is
valid with the run's temperature and, before its apply line, a write set with the apply line of Table 5.2 waits. The end of an MRAM write
stores footprint and record where they go; a failed one sets MRAM_ERR and leaves every byte outside the fault history (that it leaves the
copy is the model's choice, log entry 46). When the interval has passed INTERVAL_DUE and the context's bit of CAL_DUE are set. Each clause
concludes that exec i s = .next t; so shown to complete: calRunGo, calAbort, calComputeDone, calMramCommitDone, intervalDue. -/
def Obligations.CalibrationRuns : Prop :=
  (∀ (value : Word) (s : State), (F.CAL_RUN.GO.of value = 1 ∧ s.dev.get F.CAL_STATUS.BUSY = 0 ∧ calAllowed s.dev (F.CAL_RUN.CTX.of value) = true) → (sampled s.dev (s.dev.get F.CAL_RUN_LINE.START_LINE) = true ∧ lineBefore (lineAdd (s.dev.get F.TB_LINE.L) 63) (s.dev.get F.CAL_RUN_LINE.START_LINE) = true) → gateOpen s.dev (R.CAL_RUN) = true → 
      ∃ e, exec (.calRunGo value) s = .next { s with dev := e } ∧
        e.get F.CAL_STATUS.BUSY = 1 ∧ e.calState = csWaitStart ∧ e.calCtxNo = F.CAL_RUN.CTX.of value ∧
        e.cal.run.map CalRun.startLine = some (s.dev.countOf (s.dev.get F.CAL_RUN_LINE.START_LINE)) ∧
        SameBut [R.CAL_RUN, R.CAL_STATUS] [.cal] s.dev e) ∧
  (∀ (value : Word) (s : State), F.CAL_RUN.GO.of value = 1 → (s.dev.get F.CAL_STATUS.BUSY = 1 ∨ calAllowed s.dev (F.CAL_RUN.CTX.of value) = false ∨ sampled s.dev (s.dev.get F.CAL_RUN_LINE.START_LINE) = false ∨ lineBefore (lineAdd (s.dev.get F.TB_LINE.L) 63) (s.dev.get F.CAL_RUN_LINE.START_LINE) = false) → gateOpen s.dev (R.CAL_RUN) = true → 
      ∃ e, exec (.calRunGo value) s = .next { s with dev := e } ∧
        e.get F.CAL_FLAGS.RUN_REJ = 1 ∧
        SameBut [R.CAL_RUN, R.CAL_FLAGS] [.evt] s.dev e) ∧
  (∀ (s : State), ((s.dev.calState = csWaitStart ∨ s.dev.calState = csAccum) ∧ s.dev.calCtxNo < 48) → gateOpen s.dev (R.CAL_RUN) = true → 
      ∃ e, exec (.calAbort) s = .next { s with dev := e } ∧
        e.calState = csIdle ∧ e.get F.CAL_STATUS.BUSY = 0 ∧ e.cal.run = none ∧
        e.get (F.CAL_Cn_RESULT.CODE s.dev.calCtxNo) = 4 ∧
        SameBut [R.CAL_STATUS, R.CAL_PENDING, R.CAL_Cn_RESULT s.dev.calCtxNo] [.cal] s.dev e) ∧
  (∀ (r : CalRun) (s : State), (s.dev.cal.run = some r ∧ s.dev.calState = csCompute ∧ s.dev.calCtxNo < 48) → (s.dev.tb.count < runApplyLine s.dev r.lc ∧ (∀ x ∈ s.dev.cal.sets, s.dev.tb.count < x.a)) → 
      ∃ e, exec (.calComputeDone) s = .next { s with dev := e } ∧
        e.calState = csApplyWait ∧
        e.cal.run = some { r with a := runApplyLine s.dev r.lc, undo := some (calContent s.dev s.dev.calCtxNo 0 0 0) } ∧
        e.get (slotTempFld s.dev.calCtxNo (chooseSlot s.dev s.dev.calCtxNo (r.tr.bind tempOf))) = r.tr.getD 0x8000 % 65536 ∧
        slotValid e s.dev.calCtxNo (chooseSlot s.dev s.dev.calCtxNo (r.tr.bind tempOf)) = true ∧
        e.get (F.CAL_Cn_RESULT.SLOT s.dev.calCtxNo) = chooseSlot s.dev s.dev.calCtxNo (r.tr.bind tempOf) ∧
        e.cal.sets.length = (dropRecomputes s.dev s.dev.calCtxNo r.lc).cal.sets.length + 1 ∧
        e.cal.sets.getLast?.map (fun x => (x.ctx, x.a, x.byRun)) = some (s.dev.calCtxNo, runApplyLine s.dev r.lc, true)) ∧
  (∀ (m : MramCommit) (s : State), (s.dev.cal.commit = some m ∧ s.dev.cal.waiting = []) → 
      ∃ e, exec (.calMramCommitDone true) s = .next { s with dev := e } ∧
        e.cal.commit = none ∧ e.get F.CAL_STATUS.MRAM_BUSY = 0 ∧
        e.mem = ((s.dev.setBytes m.footAddr m.foot).setBytes m.recAddr m.record).mem ∧
        SameButMem [R.CAL_STATUS] [.resv, .cal] ([(m.footAddr, m.foot.length), (m.recAddr, m.record.length)]) s.dev e) ∧
  (∀ (m : MramCommit) (s : State), (s.dev.cal.commit = some m ∧ s.dev.cal.waiting = []) → 
      ∃ e, exec (.calMramCommitDone false) s = .next { s with dev := e } ∧
        e.cal.commit = none ∧ e.get F.CAL_STATUS.MRAM_BUSY = 0 ∧
        e.get F.CAL_FLAGS.MRAM_ERR = 1 ∧
        SameButMem ([R.CAL_STATUS, R.CAL_FLAGS] ++ faultRegs) [.resv, .cal, .evt, .flt] ([faultBytes]) s.dev e) ∧
  (∀ (k : Fin 48) (t : Nat) (s : State), ((s.dev.calCtx k).lastStart = some t ∧ s.dev.get F.CAL_TRIG.INTERVAL ≠ 0 ∧ calAllowed s.dev k = true) → 
      ∃ e, exec (.intervalDue k) s = .next { s with dev := e } ∧
        e.get (F.CAL_Cn_RESULT.INTERVAL_DUE k) = 1 ∧
        e.get (if k.val < 32 then F.CAL_DUE_LO.DUE.bitN k else F.CAL_DUE_HI.DUE.bitN (k - 32)) = 1 ∧
        SameBut [R.CAL_Cn_RESULT k, R.CAL_DUE_LO, R.CAL_DUE_HI, R.CAL_FLAGS] [.tb, .evt] s.dev e)

/-- VIEW_LINE_ASSEMBLE with every context line of the view's next line stored emits that line with the stitched and resampled bands and counts
it. VIEW_DEADLINE with the next line already past its deadline and lost, or still wanting when the earliest deadline, its own, comes,
emits a lost-line marker, counts GEO_Vv_LOST and sets LOST_V. In both the line leaves the list of lines due and joins the store for the
segmenter. HIST_ROW_COMPLETE writes the oldest row's data and then its tag, after emptying the ring where an apply asked for that from
this row on; HIST_ROW_DROP writes only the tag with LOST = 1, counts GEO_Vv_HIST_DROP and sets HIST_DROP. Each clause concludes that exec
i s = .next t; so shown to complete: viewLineAssemble, viewDeadline, histRowComplete, histRowDrop. -/
def Obligations.ViewLinesAndHistory : Prop :=
  (∀ (v : Fin 4) (l : Int) (t : Nat) (rest : List (Int × Nat × Bool)) (s : State), ((s.dev.view v).due = (l, t, false) :: rest ∧ viewReady s.dev v l = true) → 
      ∃ e, exec (.viewLineAssemble v) s = .next { s with dev := e } ∧
        (e.view v).due.map (fun x => (x.1, x.2.1)) = rest.map (fun x => (x.1, x.2.1)) ∧
        (e.view v).store = (s.dev.view v).store ++ [{ count := l, bands := some (viewLineBands s.dev v l) }] ∧
        e.get (F.GEO_Vv_LINES.COUNT v) = min (s.dev.get (F.GEO_Vv_LINES.COUNT v) + 1) 0xFFFFFFFF ∧
        ((s.dev.view v).store.length < 16 → SameBut [R.GEO_Vv_LINES v] [.geo, .cap] s.dev e)) ∧
  (∀ (v : Fin 4) (l : Int) (t : Nat) (rest : List (Int × Nat × Bool)) (s : State), ((s.dev.view v).due = (l, t, true) :: rest ∧ stampBefore (viewDue s.dev v l t) s.dev.nowNs = true) → 
      ∃ e, exec (.viewDeadline v) s = .next { s with dev := e } ∧
        (e.view v).due.map (fun x => (x.1, x.2.1)) = rest.map (fun x => (x.1, x.2.1)) ∧
        (e.view v).store = (s.dev.view v).store ++ [{ count := l, bands := none }] ∧
        e.get (F.GEO_Vv_LOST.COUNT v) = min (s.dev.get (F.GEO_Vv_LOST.COUNT v) + 1) 0xFFFFFFFF ∧
        e.get (F.GEO_FLAGS.LOST_V.bitN v) = 1 ∧
        ((s.dev.view v).store.length < 16 → SameBut [R.GEO_Vv_LINES v, R.GEO_Vv_LOST v, R.GEO_FLAGS] [.geo, .cap, .pr, .evt] s.dev e)) ∧
  (∀ (v : Fin 4) (l : Int) (t : Nat) (rest : List (Int × Nat × Bool)) (s : State), ((s.dev.view v).due = (l, t, false) :: rest ∧ viewReady s.dev v l = false) → (∀ x ∈ (s.dev.view v).due, stampBefore (viewDue s.dev v x.1 x.2.1) s.dev.nowNs = false ∧ stampBefore (viewDue s.dev v x.1 x.2.1) (viewDue s.dev v l t) = false) → stampBefore (s.dev.elapseTo (viewDue s.dev v l t)).nowNs (viewDue s.dev v l t) = false → 
      ∃ e, exec (.viewDeadline v) s = .next { s with dev := e } ∧
        (e.view v).due.map (fun x => (x.1, x.2.1)) = rest.map (fun x => (x.1, x.2.1)) ∧
        (e.view v).store = (s.dev.view v).store ++ [{ count := l, bands := none }] ∧
        e.get (F.GEO_Vv_LOST.COUNT v) = min (s.dev.get (F.GEO_Vv_LOST.COUNT v) + 1) 0xFFFFFFFF ∧
        e.get (F.GEO_FLAGS.LOST_V.bitN v) = 1 ∧
        e.tb = (s.dev.elapseTo (viewDue s.dev v l t)).tb ∧
        ((s.dev.view v).store.length < 16 → SameBut [R.GEO_Vv_LINES v, R.GEO_Vv_LOST v, R.GEO_FLAGS] [.geo, .cap, .pr, .tb, .evt] s.dev e)) ∧
  (∀ (v : Fin 4) (r : HistRow) (rest : List HistRow) (s : State), ((s.dev.view v).rows = r :: rest ∧ (s.dev.view v).starts.any (fun a => decide (a ≤ r.first)) = false) → 
      ∃ e, exec (.histRowComplete v) s = .next { s with dev := e } ∧
        (e.view v).rows = rest ∧
        e.mem = ((s.dev.setBytes r.rowAddr r.data).setBytes r.tagAddr (rowTag r r.lost)).mem ∧
        e.bytes r.tagAddr 8 = rowTag r r.lost ∧
        SameButMem [] [.resv, .geo] ([(r.rowAddr, r.data.length), (r.tagAddr, 8)]) s.dev e) ∧
  (∀ (v : Fin 4) (r : HistRow) (rest : List HistRow) (s : State), ((s.dev.view v).rows = r :: rest ∧ (s.dev.view v).starts.any (fun a => decide (a ≤ r.first)) = true) → 
      ∃ e, exec (.histRowComplete v) s = .next { s with dev := e } ∧
        (e.view v).rows = rest ∧
        (e.view v).starts = (s.dev.view v).starts.filter (fun a => decide (r.first < a)) ∧
        e.mem = (((s.dev.setBytes (histBase (s.dev.asOf r.first) v) (List.replicate (8 * ringLines (s.dev.asOf r.first) v) 0xFF#8)).setBytes r.rowAddr r.data).setBytes r.tagAddr (rowTag r r.lost)).mem ∧
        SameButMem [] [.resv, .geo] ([(histBase (s.dev.asOf r.first) v, 8 * ringLines (s.dev.asOf r.first) v), (r.rowAddr, r.data.length), (r.tagAddr, 8)]) s.dev e) ∧
  (∀ (v : Fin 4) (r : HistRow) (rest : List HistRow) (s : State), ((s.dev.view v).rows = r :: rest ∧ dramBase ≤ r.tagAddr) → 
      ∃ e, exec (.histRowDrop v) s = .next { s with dev := e } ∧
        (e.view v).rows = rest ∧
        e.bytes r.tagAddr 8 = rowTag r true ∧
        e.get (F.GEO_Vv_HIST_DROP.COUNT v) = min (s.dev.get (F.GEO_Vv_HIST_DROP.COUNT v) + 1) 0xFFFFFFFF ∧
        e.get (F.GEO_FLAGS.HIST_DROP_V.bitN v) = 1 ∧
        SameButMem ([R.GEO_Vv_HIST_DROP v, R.GEO_FLAGS] ++ faultRegs) [.resv, .geo, .evt, .flt] ([(r.tagAddr, 8), faultBytes]) s.dev e)

/-- SEG_LINE_PROCESS takes the first view line of the store: it becomes the last processed line, SEGv_LINES counts it, and never more than
4,096 objects are open after it. A line without foreground closes every open object there, in the order of R155. A line of one run with
nothing open opens one object with the counter's value as its OBJ_ID, spanning that run, its cells all in PERIM, with EDGE where it
touches cell 0 or WIDTH - 1; the counter steps by one. SEG_LOST_LINE within GAP_BRIDGE flags every open object GAP and keeps it; past it,
it closes them all at that line, counts them and sets GAP_CLOSE. Each clause concludes that exec i s = .next t; so shown to complete:
segLineProcess, segLostLine. -/
def Obligations.SegmenterLineStep : Prop :=
  (∀ (v : Fin 4) (l : Int) (b : List (List Nat)) (rest : List ViewLine) (s : State), ((s.dev.view v).store = { count := l, bands := some b } :: rest ∧ heldLine s.dev l = false ∧ s.dev.cal.run = none) → (s.dev.seg v).objs.length ≤ 4096 → 
      ∃ e, exec (.segLineProcess v) s = .next { s with dev := e } ∧
        (e.view v).store = rest ∧
        (e.seg v).last = some l ∧ (e.seg v).prev = some l ∧ (e.seg v).lostRun = 0 ∧ (e.seg v).width = viewWidth (s.dev.asOf l) v ∧
        e.get (F.SEGv_LINES.COUNT v) = min (s.dev.get (F.SEGv_LINES.COUNT v) + 1) 0xFFFFFFFF ∧
        (e.seg v).objs.length ≤ 4096 ∧ e.get (F.SEGv_OPEN.OPEN v) = (e.seg v).objs.length ∧
        SameBut [R.SEGv_LINES v, R.SEGv_OPEN v, R.SEGv_NEXT_ID v, R.SEGv_FLAGS v, R.SEGv_RUNLIM_LINES v, R.SEGv_CELLS_EXCL v, R.SEGv_OBJ_OPENED v, R.SEGv_OBJ_CLOSED v, R.SEGv_OBJ_REFUSED v, R.SEGv_OBJ_MERGES v, R.SEGv_OVERSIZE v] [.geo, .basin, .pr, .evt] s.dev e) ∧
  (∀ (v : Fin 4) (l : Int) (b : List (List Nat)) (rest : List ViewLine) (s : State), ((s.dev.view v).store = { count := l, bands := some b } :: rest ∧ heldLine s.dev l = false ∧ s.dev.cal.run = none) → (s.dev.seg v).width = viewWidth (s.dev.asOf l) v → runsFrom ((transposeBands b (viewWidth (s.dev.asOf l) v)).map (pixelClass (s.dev.asOf l) v)) 0 none = [] → 
      ∃ e, exec (.segLineProcess v) s = .next { s with dev := e } ∧
        (e.seg v).objs = [] ∧ (e.seg v).runs = [] ∧
        (e.seg v).queue = (s.dev.seg v).queue ++ (sortBy closeBefore ((s.dev.seg v).objs.map (settleAll (s.dev.seg v).runs) ++ (s.dev.seg v).split)).map (fun o => { closing := l, desc := descOf v o }) ∧
        e.get (F.SEGv_OBJ_CLOSED.COUNT v) = min (s.dev.get (F.SEGv_OBJ_CLOSED.COUNT v) + ((s.dev.seg v).objs.length + (s.dev.seg v).split.length)) 0xFFFFFFFF ∧
        e.get (F.SEGv_NEXT_ID.OBJ_ID v) = s.dev.get (F.SEGv_NEXT_ID.OBJ_ID v)) ∧
  (∀ (v : Fin 4) (l : Int) (b : List (List Nat)) (rest : List ViewLine) (x : Nat) (y : Nat) (s : State), ((s.dev.view v).store = { count := l, bands := some b } :: rest ∧ heldLine s.dev l = false ∧ s.dev.cal.run = none) → ((s.dev.seg v).objs = [] ∧ (s.dev.seg v).prev = none ∧ (s.dev.seg v).lostRun = 0 ∧ (s.dev.seg v).chains = []) → runsFrom ((transposeBands b (viewWidth (s.dev.asOf l) v)).map (pixelClass (s.dev.asOf l) v)) 0 none = [(x, y)] → (1 < (s.dev.asOf l).get F.BSN_CFG.LEN_MAX ∧ y - x + 1 ≤ (s.dev.asOf l).get F.BSN_CFG.WID_MAX) → 
      ∃ e, exec (.segLineProcess v) s = .next { s with dev := e } ∧
        (e.seg v).objs.map (fun o => (o.id, o.first, o.last)) = [(s.dev.get (F.SEGv_NEXT_ID.OBJ_ID v), l, l)] ∧
        (e.seg v).objs.map (fun o => (o.xMin, o.xMax, o.area)) = [(x, y, y + 1 - x)] ∧
        ((e.seg v).objs.map (fun o => (o.perim, o.flags)) = [(y + 1 - x, if x = 0 ∨ y = viewWidth (s.dev.asOf l) v - 1 then vfEdge else 0)]) ∧
        e.get (F.SEGv_NEXT_ID.OBJ_ID v) = (s.dev.get (F.SEGv_NEXT_ID.OBJ_ID v) + 1) % 2 ^ 32 ∧
        e.get (F.SEGv_OBJ_OPENED.COUNT v) = min (s.dev.get (F.SEGv_OBJ_OPENED.COUNT v) + 1) 0xFFFFFFFF) ∧
  (∀ (v : Fin 4) (l : Int) (rest : List ViewLine) (s : State), ((s.dev.view v).store = { count := l, bands := none } :: rest ∧ heldLine s.dev l = false ∧ s.dev.cal.run = none) → ((s.dev.seg v).width = viewWidth (s.dev.asOf l) v ∧ (s.dev.seg v).split = []) → (s.dev.seg v).lostRun + 1 ≤ (s.dev.asOf l).get (F.SEGv_CFG.GAP_BRIDGE v) → 
      ∃ e, exec (.segLostLine v) s = .next { s with dev := e } ∧
        (e.view v).store = rest ∧
        (e.seg v).lostRun = (s.dev.seg v).lostRun + 1 ∧ (e.seg v).objs = (s.dev.seg v).objs.map (fun o => { o with flags := o.flags ||| vfGap }) ∧
        (e.seg v).queue = (s.dev.seg v).queue ∧ (e.seg v).runs = (s.dev.seg v).runs ∧
        e.get (F.SEGv_LINES.COUNT v) = min (s.dev.get (F.SEGv_LINES.COUNT v) + 1) 0xFFFFFFFF ∧
        SameBut [R.SEGv_LINES v, R.SEGv_OPEN v] [.geo, .basin, .pr] s.dev e) ∧
  (∀ (v : Fin 4) (l : Int) (rest : List ViewLine) (s : State), ((s.dev.view v).store = { count := l, bands := none } :: rest ∧ heldLine s.dev l = false ∧ s.dev.cal.run = none) → ((s.dev.seg v).width = viewWidth (s.dev.asOf l) v ∧ (s.dev.seg v).split = []) → (s.dev.asOf l).get (F.SEGv_CFG.GAP_BRIDGE v) < (s.dev.seg v).lostRun + 1 → 
      ∃ e, exec (.segLostLine v) s = .next { s with dev := e } ∧
        (e.seg v).objs = [] ∧ (e.seg v).prev = none ∧ (e.seg v).lostRun = (s.dev.seg v).lostRun + 1 ∧
        (e.seg v).queue.map Closed.closing = (s.dev.seg v).queue.map Closed.closing ++ (s.dev.seg v).objs.map (fun _ => l) ∧
        (∀ o ∈ (e.seg v).queue.drop (s.dev.seg v).queue.length, o.desc.flags &&& vfGap = vfGap) ∧
        e.get (F.SEGv_GAP_CLOSES.COUNT v) = min (s.dev.get (F.SEGv_GAP_CLOSES.COUNT v) + (s.dev.seg v).objs.length) 0xFFFFFFFF ∧
        (0 < (s.dev.seg v).objs.length → e.get (F.SEGv_FLAGS.GAP_CLOSE v) = 1) ∧
        SameBut [R.SEGv_LINES v, R.SEGv_OPEN v, R.SEGv_OBJ_CLOSED v, R.SEGv_GAP_CLOSES v, R.SEGv_FLAGS v] [.geo, .basin, .pr, .evt] s.dev e)

/-- SIGHTING_FORMATION runs for the height's next line only when both views have passed it, its stamp is recorded, no join holds it and no
line of the other height that comes before it waits (upper before lower, and an upper line not before the matcher has taken every earlier
one: the model's choice, log entry 56); otherwise it changes nothing. When a front and a rear object alone wait and qualify (R162), they
leave as one paired sighting with the fields of R165 and the next SIGHT_ID. A lone object whose HOLD or LEN_MAX line has come leaves as a
single-side sighting. An upper sighting enters the matcher's upper store with its expiry line, a lower one waits for the matcher, and the
finished lower line becomes due for the matcher. Each clause concludes that exec i s = .next t; so shown to complete: sightingFormation. -/
def Obligations.SightingFormation : Prop :=
  (∀ (h : Fin 2) (k : Int) (rest : List Int) (s : State), (s.dev.formQ h = k :: rest ∧ (viewPassed s.dev (2 * h) k = false ∨ viewPassed s.dev (2 * h + 1) k = false)) → 
      ∃ e, exec (.sightingFormation h) s = .next { s with dev := e } ∧
        e = s.dev) ∧
  (∀ (h : Fin 2) (k : Int) (rest : List Int) (s : State), (s.dev.formQ h = k :: rest ∧ (s.dev.tb.unstamped.any (fun u => decide (u.1 ≤ k)) = true ∨ heldLine s.dev k = true)) → 
      ∃ e, exec (.sightingFormation h) s = .next { s with dev := e } ∧
        e = s.dev) ∧
  (∀ (k : Int) (rest : List Int) (s : State), (s.dev.formQ 0 = k :: rest ∧ ((s.dev.formQ 1).any (fun x => decide (x < k)) = true ∨ s.dev.fly.stepQ.any (fun x => decide (x < k)) = true)) → 
      ∃ e, exec (.sightingFormation 0) s = .next { s with dev := e } ∧
        e = s.dev) ∧
  (∀ (k : Int) (rest : List Int) (s : State), (s.dev.formQ 1 = k :: rest ∧ (s.dev.formQ 0).any (fun x => decide (x ≤ k)) = true) → 
      ∃ e, exec (.sightingFormation 1) s = .next { s with dev := e } ∧
        e = s.dev) ∧
  (∀ (h : Fin 2) (s : State), s.dev.formQ h = [] → 
      ∃ e, exec (.sightingFormation h) s = .next { s with dev := e } ∧
        e = s.dev) ∧
  (∀ (k : Int) (rest : List Int) (f : Closed) (r : Closed) (s : State), (s.dev.formQ 1 = k :: rest ∧ heldLine s.dev k = false ∧ viewPassed s.dev 2 k = true ∧ viewPassed s.dev 3 k = true) → (s.dev.tb.unstamped.any (fun u => decide (u.1 ≤ k)) = false ∧ (s.dev.formQ 0).any (fun x => decide (x ≤ k)) = false) → (viewOn (s.dev.asOf k) 2 = true ∧ viewOn (s.dev.asOf k) 3 = true) → ((s.dev.seg 2).queue = [] ∧ (s.dev.seg 3).queue = [] ∧ (s.dev.seg 2).waiting = [f] ∧ (s.dev.seg 3).waiting = [r]) → (qualifies ((s.dev.asOf k).get F.BSN_SIGHT.OVL_MIN) f.desc r.desc = true ∧ qualifies ((s.dev.asOf k).get F.BSN_SIGHT.OVL_MIN) r.desc f.desc = true) → 
      ∃ e, exec (.sightingFormation 1) s = .next { s with dev := e } ∧
        (e.seg 2).waiting = [] ∧ (e.seg 3).waiting = [] ∧ e.formQ 1 = rest ∧ e.fly.stepQ = s.dev.fly.stepQ ++ [k] ∧
        e.fly.lower.map FlySight.s = s.dev.fly.lower.map FlySight.s ++ [{ pairSighting 1 k f.desc r.desc with id := s.dev.get (F.BSN_NEXT_h.SIGHT_ID 1) }] ∧
        e.get (F.BSN_NEXT_h.SIGHT_ID 1) = (s.dev.get (F.BSN_NEXT_h.SIGHT_ID 1) + 1) % 2 ^ 32 ∧
        e.get (F.BSN_PAIRED_h.COUNT 1) = min (s.dev.get (F.BSN_PAIRED_h.COUNT 1) + 1) 0xFFFFFFFF ∧
        ((f.desc.flags ||| r.desc.flags) / 1024 % 2 = 0 → SameBut [R.BSN_NEXT_h 1, R.BSN_PAIRED_h 1, R.BSN_WAITv 2, R.BSN_WAITv 3, R.BSN_FORCED_h 1] [.basin, .fly, .pr] s.dev e)) ∧
  (∀ (k : Int) (rest : List Int) (f : Closed) (s : State), (s.dev.formQ 0 = k :: rest ∧ heldLine s.dev k = false ∧ viewPassed s.dev 0 k = true ∧ viewPassed s.dev 1 k = true) → (s.dev.tb.unstamped.any (fun u => decide (u.1 ≤ k)) = false ∧ (s.dev.formQ 1).any (fun x => decide (x < k)) = false ∧ s.dev.fly.stepQ.any (fun x => decide (x < k)) = false) → (viewOn (s.dev.asOf k) 0 = true ∧ viewOn (s.dev.asOf k) 1 = true) → ((s.dev.seg 0).queue = [f] ∧ (s.dev.seg 1).queue = [] ∧ (s.dev.seg 0).waiting = [] ∧ (s.dev.seg 1).waiting = []) → (f.closing + (s.dev.asOf k).get F.BSN_SIGHT.HOLD ≤ k ∧ s.dev.fly.upper.length < 32768 ∧ f.shared = false ∧ f.desc.flags < 128) → 
      ∃ e, exec (.sightingFormation 0) s = .next { s with dev := e } ∧
        (e.seg 0).queue = [] ∧ (e.seg 0).waiting = [] ∧ e.formQ 0 = rest ∧ e.fly.stepQ = s.dev.fly.stepQ ∧
        e.fly.upper.map (fun u => u.f.s) = s.dev.fly.upper.map (fun u => u.f.s) ++ [{ singleSighting 0 k f false with id := s.dev.get (F.BSN_NEXT_h.SIGHT_ID 0) }] ∧
        e.fly.upper.getLast?.map UpperEntry.exp = some ((singleSighting 0 k f false).centre + expLines (s.dev.asOf k)) ∧
        e.get (F.BSN_SINGLE_h.COUNT 0) = min (s.dev.get (F.BSN_SINGLE_h.COUNT 0) + 1) 0xFFFFFFFF ∧
        e.get F.FLY_UPPER.COUNT = s.dev.fly.upper.length + 1 ∧
        SameBut [R.BSN_NEXT_h 0, R.BSN_SINGLE_h 0, R.BSN_WAITv 0, R.BSN_WAITv 1, R.BSN_FORCED_h 0, R.FLY_UPPER] [.basin, .fly, .pr] s.dev e)

/-- FLIGHT_MATCHER_STEP on an empty queue, or on a line with no lower sighting, no expired upper one and no lane restart due, leaves
everything but that queue. A lower sighting with exactly one candidate is matched: the upper sighting leaves the store, FLY_MATCHED
counts, and the object joins judgement with feature code 0, MATCHED, its time between the crossings and its speed at the lower line by
R200. One without a candidate joins with code 2, OBSERVER and the speed of its lane by R204, counted in FLY_UNMATCHED. An upper sighting
whose expiry line has come (at or before the matcher's line: the model's choice, log entry 69) is dropped and counted where UPPER_ONLY_EN
is 0, and joins judgement as an upper-only object with code 2 where it is 1. In belt mode a lower sighting joins with code 3, no speed
(the model's choice, log entry 73), and the belt distance of each row in use as its flight (R205). Each clause concludes that exec i s =
.next t; so shown to complete: flightMatcherStep. -/
def Obligations.FlightMatcher : Prop :=
  (∀ (s : State), s.dev.fly.stepQ = [] → 
      ∃ e, exec (.flightMatcherStep) s = .next { s with dev := e } ∧
        e = s.dev) ∧
  (∀ (k : Int) (rest : List Int) (s : State), (s.dev.fly.stepQ = k :: rest ∧ s.dev.pr.serve = none) → (∀ w ∈ s.dev.fly.lower, k < w.s.form) ∧ (∀ u ∈ s.dev.fly.upper, k < u.exp) ∧ (∀ a ∈ s.dev.fly.restarts, k < a) → 
      ∃ e, exec (.flightMatcherStep) s = .next { s with dev := e } ∧
        e.fly = { s.dev.fly with stepQ := rest } ∧
        SameBut [] [.fly] s.dev e) ∧
  (∀ (k : Int) (rest : List Int) (u : UpperEntry) (w : FlySight) (s : State), (s.dev.fly.stepQ = k :: rest ∧ s.dev.pr.serve = none ∧ s.dev.fly.restarts = [] ∧ s.dev.safe = false ∧ s.dev.resetting 4 = false) → (s.dev.fly.lower = [w] ∧ w.s.form ≤ k ∧ s.dev.fly.upper = [u] ∧ k < u.exp ∧ candidate (s.dev.asOf k) u.f w = true) → ((s.dev.asOf k).bit F.FLY_CFG.MODE = false ∧ (s.dev.asOf k).bit F.PAIR_CHAIN.EN = false) → 
      ∃ e, exec (.flightMatcherStep) s = .next { s with dev := e } ∧
        e.fly.upper = [] ∧ e.fly.lower = [] ∧ e.fly.stepQ = rest ∧ e.get F.FLY_UPPER.COUNT = 0 ∧
        e.get F.FLY_MATCHED.COUNT = min (s.dev.get F.FLY_MATCHED.COUNT + 1) 0xFFFFFFFF ∧
        e.jud.objs.map (fun o => (o.mode, o.flags, o.j, o.dt)) = s.dev.jud.objs.map (fun o => (o.mode, o.flags, o.j, o.dt)) ++ [(0, jfMatched, k, some (stampDiff w.t u.f.t).toNat)] ∧
        e.jud.objs.getLast?.map (fun o => (o.dec, o.upper)) = some (w, some u.f) ∧
        e.jud.objs.getLast?.map JObj.vL = some (some (min 0xFFFFFFFF (meanSpeed ((s.dev.asOf k).get F.FLY_DUL.D_UL) (stampDiff w.t u.f.t).toNat + (rneDiv ((s.dev.asOf k).get F.FLY_GEFF.G * (stampDiff w.t u.f.t).toNat : Nat) 2000000000).toNat))) ∧
        SameBut ([R.FLY_UPPER, R.FLY_MATCHED, R.FLY_FLAGS] ++ (List.range 64).map R.FLY_LANEk_V) [.fly, .jud, .evt] s.dev e) ∧
  (∀ (k : Int) (rest : List Int) (w : FlySight) (s : State), (s.dev.fly.stepQ = k :: rest ∧ s.dev.pr.serve = none ∧ s.dev.fly.restarts = [] ∧ s.dev.safe = false ∧ s.dev.resetting 4 = false) → (s.dev.fly.lower = [w] ∧ w.s.form ≤ k ∧ (∀ u ∈ s.dev.fly.upper, k < u.exp ∧ candidate (s.dev.asOf k) u.f w = false)) → ((s.dev.asOf k).bit F.FLY_CFG.MODE = false ∧ (s.dev.asOf k).bit F.PAIR_CHAIN.EN = false) → 
      ∃ e, exec (.flightMatcherStep) s = .next { s with dev := e } ∧
        e.fly = { s.dev.fly with stepQ := rest, lower := [] } ∧
        e.get F.FLY_UNMATCHED.COUNT = min (s.dev.get F.FLY_UNMATCHED.COUNT + 1) 0xFFFFFFFF ∧
        e.jud.objs.map (fun o => (o.mode, o.flags, o.j)) = s.dev.jud.objs.map (fun o => (o.mode, o.flags, o.j)) ++ [(2, jfObserver, k)] ∧
        e.jud.objs.getLast?.map (fun o => (o.dec, o.upper)) = some (w, none) ∧
        e.jud.objs.getLast?.map JObj.vL = some (some (lowerSpeed ((s.dev.asOf k).get F.FLY_GEFF.G) (laneEstimate (s.dev.laneObs (laneOf (s.dev.asOf k) w.s.cx)) w.t) ((s.dev.asOf k).get F.FLY_DUL.D_UL))) ∧
        SameBut [R.FLY_UNMATCHED, R.FLY_FLAGS] [.fly, .jud, .evt] s.dev e) ∧
  (∀ (k : Int) (rest : List Int) (u : UpperEntry) (s : State), (s.dev.fly.stepQ = k :: rest ∧ s.dev.pr.serve = none ∧ s.dev.fly.restarts = []) → (s.dev.fly.lower = [] ∧ s.dev.fly.upper = [u] ∧ u.exp ≤ k ∧ (s.dev.asOf k).bit F.FLY_CFG.UPPER_ONLY_EN = false) → 
      ∃ e, exec (.flightMatcherStep) s = .next { s with dev := e } ∧
        e.fly = { s.dev.fly with stepQ := rest, upper := [] } ∧
        e.get F.FLY_UPPER_DROP.COUNT = min (s.dev.get F.FLY_UPPER_DROP.COUNT + 1) 0xFFFFFFFF ∧ e.get F.FLY_UPPER.COUNT = 0 ∧
        SameBut [R.FLY_UPPER, R.FLY_UPPER_DROP] [.fly] s.dev e) ∧
  (∀ (k : Int) (rest : List Int) (u : UpperEntry) (s : State), (s.dev.fly.stepQ = k :: rest ∧ s.dev.pr.serve = none ∧ s.dev.fly.restarts = [] ∧ s.dev.safe = false ∧ s.dev.resetting 4 = false) → (s.dev.fly.lower = [] ∧ s.dev.fly.upper = [u] ∧ u.exp ≤ k ∧ splitOrCont u.f.s = false) → ((s.dev.asOf k).bit F.FLY_CFG.UPPER_ONLY_EN = true ∧ (s.dev.asOf k).bit F.PAIR_CHAIN.EN = false) → 
      ∃ e, exec (.flightMatcherStep) s = .next { s with dev := e } ∧
        e.fly = { s.dev.fly with stepQ := rest, upper := [] } ∧
        e.get F.FLY_UPPER_ONLY.COUNT = min (s.dev.get F.FLY_UPPER_ONLY.COUNT + 1) 0xFFFFFFFF ∧ e.get F.FLY_UPPER.COUNT = 0 ∧
        e.jud.objs.map (fun o => (o.mode, o.flags, o.j)) = s.dev.jud.objs.map (fun o => (o.mode, o.flags, o.j)) ++ [(2, jfObserver, k)] ∧
        e.jud.objs.getLast?.map (fun o => (o.dec, o.upper)) = some (u.f, none) ∧
        SameBut [R.FLY_UPPER, R.FLY_UPPER_ONLY, R.FLY_FLAGS] [.fly, .jud, .evt] s.dev e) ∧
  (∀ (k : Int) (rest : List Int) (w : FlySight) (s : State), (s.dev.fly.stepQ = k :: rest ∧ s.dev.pr.serve = none ∧ s.dev.fly.restarts = [] ∧ s.dev.safe = false ∧ s.dev.resetting 4 = false) → (s.dev.fly.lower = [w] ∧ w.s.form ≤ k ∧ s.dev.fly.upper = []) → ((s.dev.asOf k).bit F.FLY_CFG.MODE = true ∧ (s.dev.asOf k).bit F.PAIR_CHAIN.EN = false) → 
      ∃ e, exec (.flightMatcherStep) s = .next { s with dev := e } ∧
        e.fly = { s.dev.fly with stepQ := rest, lower := [] } ∧
        e.jud.objs.map (fun o => (o.mode, o.flags, o.j)) = s.dev.jud.objs.map (fun o => (o.mode, o.flags, o.j)) ++ [(3, 0, k)] ∧
        e.jud.objs.getLast?.map (fun o => (o.dec, o.vL)) = some (w, none) ∧
        (e.jud.objs.getLast?.map JObj.rows).map (fun r => r.map (fun x => (x.row, x.delta, x.xE))) = some ((rowsInUse (s.dev.asOf k)).map (fun r => (r, (s.dev.asOf k).get (F.FLY_DLEr.DLE r) * 65536, w.s.cx))) ∧
        SameBut [] [.fly, .jud] s.dev e)

/-- FOREST_DONE on an object not evaluated yet counts FOR_EVALS and gives it the class and margin of R176, the scores being those of the node
memory; an uncorrectable node error sets ECC_UNCORR and gives a stopped result instead. Once every object before it in judgement order is
decided, an object is decided by the forest alone where the array is disabled or its margin reaches the threshold of its class; else it is
a candidate, granted while its margin is below the scaled threshold and fewer objects of its cycle than both quota and capacity are
classified, denied otherwise; CASC_CLASSIFIED, CASC_USED and the flag CLASSIFIED count it at the grant (the model's choice, log entry 61).
Each clause concludes that exec i s = .next t; so shown to complete: forestDone. -/
def Obligations.CascadeSelection : Prop :=
  (∀ (k : Nat) (o : JObj) (f : Forest) (s : State), (s.dev.jud.objs[k]? = some o ∧ o.forest = none ∧ forestResult s.dev o = some f) → 
      ∃ e, exec (.forestDone k .clean) s = .next { s with dev := e } ∧
        e.get F.FOR_EVALS.COUNT = min (s.dev.get F.FOR_EVALS.COUNT + 1) 0xFFFFFFFF ∧
        e.jud.objs.map JObj.forest = (s.dev.jud.objs.map JObj.forest).set k (some f) ∧
        e.jud.objs.length = s.dev.jud.objs.length ∧
        SameBut [R.FOR_EVALS, R.CASC_CANDIDATES, R.CASC_CLASSIFIED, R.CASC_DENIED, R.CASC_FLAGS, R.CASC_USED] [.jud, .evt] s.dev e) ∧
  (∀ (k : Nat) (o : JObj) (s : State), (s.dev.jud.objs[k]? = some o ∧ o.forest = none) → 
      ∃ e, exec (.forestDone k .uncorrected) s = .next { s with dev := e } ∧
        e.get F.FOR_FLAGS.ECC_UNCORR = 1 ∧ e.get F.FOR_EVALS.COUNT = min (s.dev.get F.FOR_EVALS.COUNT + 1) 0xFFFFFFFF ∧
        (e.jud.objs[k]?.bind JObj.forest).map Forest.stopped = some true ∧
        SameButMem (faultRegs ++ [R.FOR_EVALS, R.FOR_FLAGS, R.CASC_CANDIDATES, R.CASC_CLASSIFIED, R.CASC_DENIED, R.CASC_FLAGS, R.CASC_USED]) [.resv, .jud, .evt, .fresh] ([faultBytes]) s.dev e) ∧
  (∀ (pre : List JObj) (o : JObj) (rest : List JObj) (f : Forest) (s : State), (s.dev.jud.objs = pre ++ o :: rest ∧ (∀ x ∈ pre, x.forest.isSome = true ∧ x.sel ≠ .waiting) ∧ (∀ x ∈ rest.head?, x.forest = none) ∧ o.forest = none ∧ o.sel = .waiting ∧ forestResult s.dev o = some f) → ((s.dev.asOf o.j).bit F.CASC_CFG.CLA_EN = false ∨ threshold (s.dev.asOf o.j) f.cls ≤ f.margin) → 
      ∃ e, exec (.forestDone pre.length .clean) s = .next { s with dev := e } ∧
        e.jud.objs = pre ++ { o with forest := some f, sel := .forest } :: rest ∧
        e.get F.CASC_CANDIDATES.COUNT = s.dev.get F.CASC_CANDIDATES.COUNT) ∧
  (∀ (pre : List JObj) (o : JObj) (rest : List JObj) (f : Forest) (s : State), (s.dev.jud.objs = pre ++ o :: rest ∧ (∀ x ∈ pre, x.forest.isSome = true ∧ x.sel ≠ .waiting) ∧ (∀ x ∈ rest.head?, x.forest = none) ∧ o.forest = none ∧ o.sel = .waiting ∧ forestResult s.dev o = some f) → ((s.dev.asOf o.j).bit F.CASC_CFG.CLA_EN = true ∧ f.margin < threshold (s.dev.asOf o.j) f.cls) → (f.margin < rneDiv (threshold (s.dev.asOf o.j) f.cls * o.g) 256 ∧ usedIn s.dev o.cycle < min o.q (capFor s.dev o)) → 
      ∃ e, exec (.forestDone pre.length .clean) s = .next { s with dev := e } ∧
        e.jud.objs = pre ++ { o with forest := some f, sel := .granted, flags := o.flags ||| jfClassified } :: rest ∧
        usedIn e o.cycle = usedIn s.dev o.cycle + 1 ∧
        e.get F.CASC_CANDIDATES.COUNT = min (s.dev.get F.CASC_CANDIDATES.COUNT + 1) 0xFFFFFFFF ∧ e.get F.CASC_CLASSIFIED.COUNT = min (s.dev.get F.CASC_CLASSIFIED.COUNT + 1) 0xFFFFFFFF) ∧
  (∀ (pre : List JObj) (o : JObj) (rest : List JObj) (f : Forest) (s : State), (s.dev.jud.objs = pre ++ o :: rest ∧ (∀ x ∈ pre, x.forest.isSome = true ∧ x.sel ≠ .waiting) ∧ (∀ x ∈ rest.head?, x.forest = none) ∧ o.forest = none ∧ o.sel = .waiting ∧ forestResult s.dev o = some f) → ((s.dev.asOf o.j).bit F.CASC_CFG.CLA_EN = true ∧ f.margin < threshold (s.dev.asOf o.j) f.cls) → (rneDiv (threshold (s.dev.asOf o.j) f.cls * o.g) 256 ≤ f.margin ∨ min o.q (capFor s.dev o) ≤ usedIn s.dev o.cycle) → 
      ∃ e, exec (.forestDone pre.length .clean) s = .next { s with dev := e } ∧
        e.jud.objs = pre ++ { o with forest := some f, sel := .denied, flags := o.flags ||| jfDenied } :: rest ∧
        e.get F.CASC_DENIED.COUNT = min (s.dev.get F.CASC_DENIED.COUNT + 1) 0xFFFFFFFF ∧ e.get F.CASC_FLAGS.DENIED = 1 ∧
        e.get F.CASC_CLASSIFIED.COUNT = s.dev.get F.CASC_CLASSIFIED.COUNT)

/-- CLASSIFIER_DONE with clean weights gives the granted object the class of the largest network score and counts CLA_PATCHES and its lost and
stale patch rows, a stale row setting ROWS_STALE; an uncorrectable weight error stops its classification and sets ECC_UNCORR; with nothing
granted nothing changes. CLA_POWER: REQ = 1 in ON or WAKING starts SHUTDOWN (in WAKING the model's choice, log entry 67), REQ = 0 in OFF
starts WAKING, and in SHUTDOWN it is held in ENABLE_PENDING. SHUTDOWN ends in OFF once no patch is granted, or goes on to WAKING where a
request is held; WAKING ends in ON, and CASC_CAP shows the live capacity again. Each clause concludes that exec i s = .next t; so shown to
complete: classifierDone, claPowerReq, claShutdownDone, claWakeDone. -/
def Obligations.ClassifierAndPower : Prop :=
  (∀ (o : JObj) (rest : List JObj) (s : State), (s.dev.jud.objs = o :: rest ∧ o.sel = .granted) → 
      ∃ e, exec (.classifierDone .clean) s = .next { s with dev := e } ∧
        e.jud.objs = { o with sel := .classified (argMax (classifierScores s.dev (s.dev.asOf o.j) o)) } :: rest ∧
        e.get F.CLA_PATCHES.COUNT = min (s.dev.get F.CLA_PATCHES.COUNT + 1) 0xFFFFFFFF ∧
        e.get F.CLA_ROWS_LOST.COUNT = min (s.dev.get F.CLA_ROWS_LOST.COUNT + rowsIn s.dev (s.dev.asOf o.j) o (inChannels s.dev (s.dev.asOf o.j)) .lost) 0xFFFFFFFF ∧
        e.get F.CLA_ROWS_STALE.COUNT = min (s.dev.get F.CLA_ROWS_STALE.COUNT + rowsIn s.dev (s.dev.asOf o.j) o (inChannels s.dev (s.dev.asOf o.j)) .stale) 0xFFFFFFFF ∧
        (rowsIn s.dev (s.dev.asOf o.j) o (inChannels s.dev (s.dev.asOf o.j)) .stale ≠ 0 → e.get F.CLA_FLAGS.ROWS_STALE = 1) ∧
        SameButMem (faultRegs ++ [R.CLA_PATCHES, R.CLA_ROWS_LOST, R.CLA_ROWS_STALE, R.CLA_FLAGS]) [.resv, .jud, .dram, .evt] ([faultBytes]) s.dev e) ∧
  (∀ (o : JObj) (rest : List JObj) (s : State), (s.dev.jud.objs = o :: rest ∧ o.sel = .granted) → 
      ∃ e, exec (.classifierDone .uncorrected) s = .next { s with dev := e } ∧
        e.jud.objs = { o with sel := .stopped } :: rest ∧
        e.get F.CLA_FLAGS.ECC_UNCORR = 1 ∧ e.get F.CLA_PATCHES.COUNT = s.dev.get F.CLA_PATCHES.COUNT ∧
        SameButMem (faultRegs ++ [R.CLA_FLAGS, R.CLA_ROWS_LOST, R.CLA_ROWS_STALE]) [.resv, .jud, .dram, .evt] ([faultBytes]) s.dev e) ∧
  (∀ (ecc : Ecc) (s : State), (∀ o ∈ s.dev.jud.objs, o.sel ≠ .granted) → 
      ∃ e, exec (.classifierDone ecc) s = .next { s with dev := e } ∧
        e = s.dev) ∧
  (∀ (value : Word) (s : State), (value.toNat % 2 = 1 ∧ s.dev.get F.CLA_POWER.STATE < 2) → gateOpen s.dev (R.CLA_POWER) = true → 
      ∃ e, exec (.claPowerReq value) s = .next { s with dev := e } ∧
        e.get F.CLA_POWER.STATE = 3 ∧ e.get F.CLA_POWER.REQ = 1 ∧ e.get F.CASC_CAP.CAP = 0 ∧
        SameBut [R.CLA_POWER, R.CASC_CAP, R.CASC_FLAGS] [.evt] s.dev e) ∧
  (∀ (value : Word) (s : State), (value.toNat % 2 = 1 ∧ 2 ≤ s.dev.get F.CLA_POWER.STATE) → gateOpen s.dev (R.CLA_POWER) = true → 
      ∃ e, exec (.claPowerReq value) s = .next { s with dev := e } ∧
        e.get F.CLA_POWER.STATE = s.dev.get F.CLA_POWER.STATE ∧ e.get F.CLA_POWER.REQ = 1 ∧ e.get F.CLA_POWER.ENABLE_PENDING = 0 ∧
        SameBut [R.CLA_POWER] [] s.dev e) ∧
  (∀ (value : Word) (s : State), value.toNat % 2 = 0 → gateOpen s.dev (R.CLA_POWER) = true → 
      ∃ e, exec (.claPowerReq value) s = .next { s with dev := e } ∧
        e.get F.CLA_POWER.REQ = 0 ∧
        (e.get F.CLA_POWER.STATE = if s.dev.get F.CLA_POWER.STATE = 2 then 1 else s.dev.get F.CLA_POWER.STATE) ∧
        (s.dev.get F.CLA_POWER.STATE = 3 → e.get F.CLA_POWER.ENABLE_PENDING = 1) ∧
        SameBut [R.CLA_POWER] [] s.dev e) ∧
  (∀ (s : State), (s.dev.get F.CLA_POWER.STATE = 3 ∧ (∀ o ∈ s.dev.jud.objs, o.sel ≠ .granted)) → 
      ∃ e, exec (.claShutdownDone) s = .next { s with dev := e } ∧
        e.get F.CLA_POWER.STATE = (if s.dev.bit F.CLA_POWER.ENABLE_PENDING then 1 else 2) ∧
        e.get F.CLA_POWER.ENABLE_PENDING = 0 ∧
        SameBut [R.CLA_POWER] [] s.dev e) ∧
  (∀ (s : State), s.dev.get F.CLA_POWER.STATE = 1 → 
      ∃ e, exec (.claWakeDone) s = .next { s with dev := e } ∧
        e.get F.CLA_POWER.STATE = 0 ∧
        (s.dev.get F.RSV_POWER.JDG_STATE = 0 → s.dev.jud.capLive < 65536 → e.get F.CASC_CAP.CAP = s.dev.jud.capLive) ∧
        SameBut [R.CLA_POWER, R.CASC_CAP, R.CASC_FLAGS] [.evt] s.dev e)

/-- DECISION_RELEASE on a first object that waits for nothing more takes it out, counts CASC_OBJECTS, its class and its action, and fires the
rill 202 + class. In time the action is that of R187; past its deadline in LATE_MODE 0 it is LATE_ACTION, counted in CASC_LATE with LATE
set. A first object still waiting stays. An eject in free fall that one valve covers, the pool empty and no forward enabled, places one
window: it opens OPEN_LEAD and PRE before the front edge arrives and closes CLOSE_LEAD before, POST after the back edge (R210). Each
clause concludes that exec i s = .next t; so shown to complete: decisionRelease. -/
def Obligations.DecisionRelease : Prop :=
  (∀ (o : JObj) (rest : List JObj) (s : State), (s.dev.jud.objs = o :: rest ∧ (o.forest = none ∨ o.ready = false)) → 
      ∃ e, exec (.decisionRelease) s = .next { s with dev := e } ∧
        e = s.dev) ∧
  (∀ (o : JObj) (rest : List JObj) (f : Forest) (a : Nat) (s : State), (s.dev.jud.objs = o :: rest ∧ o.forest = some f ∧ o.ready = true ∧ o.finalClass f < 8) → ((decision (s.dev.asOf o.j) o f (transportNow s.dev)).late = false ∧ (decision (s.dev.asOf o.j) o f (transportNow s.dev)).action = a) → ((a = 0 ∨ a = 3) ∧ (s.dev.asOf o.j).get F.CASC_CFG.REC_MODE = 0) → 
      ∃ e, exec (.decisionRelease) s = .next { s with dev := e } ∧
        e.jud.objs = rest ∧ a = (decide187 (s.dev.asOf o.j) o (o.finalClass f)).1 ∧
        e.get F.CASC_OBJECTS.COUNT = min (s.dev.get F.CASC_OBJECTS.COUNT + 1) 0xFFFFFFFF ∧
        e.get (F.CASC_CLASS_k.COUNT (o.finalClass f)) = min (s.dev.get (F.CASC_CLASS_k.COUNT (o.finalClass f)) + 1) 0xFFFFFFFF ∧
        e.get (F.CASC_ACTION_a.COUNT a) = min (s.dev.get (F.CASC_ACTION_a.COUNT a) + 1) 0xFFFFFFFF ∧
        e.evt.inflight = s.dev.evt.inflight ++ [{ rill := 202 + o.finalClass f, stamp := s.dev.nowNs }] ∧
        SameBut [R.CASC_OBJECTS, R.CASC_CLASS_k (o.finalClass f), R.CASC_ACTION_a a, R.CASC_FLAG_HITS, R.CASC_SIZE_ALT] [.jud, .evt] s.dev e) ∧
  (∀ (o : JObj) (rest : List JObj) (f : Forest) (t : Nat) (s : State), (s.dev.jud.objs = o :: rest ∧ o.forest = some f ∧ o.ready = true ∧ o.finalClass f < 8 ∧ f.stopped = false ∧ o.sel ≠ .stopped) → (o.deadline (decide187 (s.dev.asOf o.j) o (o.finalClass f)).1 = some t ∧ stampBefore t (transportNow s.dev) = true) → ((s.dev.asOf o.j).bit F.CASC_CFG.LATE_MODE = false ∧ (s.dev.asOf o.j).get F.CASC_CFG.LATE_ACTION = 0 ∧ (s.dev.asOf o.j).get F.CASC_CFG.REC_MODE = 0) → 
      ∃ e, exec (.decisionRelease) s = .next { s with dev := e } ∧
        e.jud.objs = rest ∧ e.get F.CASC_FLAGS.LATE = 1 ∧
        e.get F.CASC_LATE.COUNT = min (s.dev.get F.CASC_LATE.COUNT + 1) 0xFFFFFFFF ∧
        e.get (F.CASC_ACTION_a.COUNT 0) = min (s.dev.get (F.CASC_ACTION_a.COUNT 0) + 1) 0xFFFFFFFF ∧
        e.ej = s.dev.ej) ∧
  (∀ (o : JObj) (rest : List JObj) (f : Forest) (r : RowFlight) (k : Nat) (s : State), (s.dev.jud.objs = o :: rest ∧ o.forest = some f ∧ o.ready = true ∧ o.rows = [r] ∧ r.row < 2) → (decision (s.dev.asOf o.j) o f (transportNow s.dev)).action = r.row + 1 → ((s.dev.asOf o.j).bit F.FLY_CFG.MODE = false ∧ s.dev.ej.windows = [] ∧ s.dev.resetting 5 = false) → covering (s.dev.asOf o.j) r.row (ejectSpan (s.dev.asOf o.j) o.dec.s r.shift).1 (ejectSpan (s.dev.asOf o.j) o.dec.s r.shift).2 = [k] → ((∀ i : Fin 16, (s.dev.asOf o.j).bit (F.PAIR_FWDk_CFG.EN i) = false) ∧ (s.dev.asOf o.j).get F.CASC_CFG.REC_MODE = 0) → 0 ≤ stampDiff (wrapN 64 ((r.tF : Int) - (s.dev.asOf o.j).get (F.EJ_Vc_OPEN.OPEN_LEAD k) - (1000 * (s.dev.asOf o.j).get (F.EJ_TIMEr.PRE r.row) : Nat))) (transportNow s.dev) → 0 < stampDiff (wrapN 64 ((r.tB : Int) - (s.dev.asOf o.j).get (F.EJ_Vc_CLOSE.CLOSE_LEAD k) + (1000 * (s.dev.asOf o.j).get (F.EJ_TIMEr.POST r.row) : Nat))) (transportNow s.dev) → 
      ∃ e, exec (.decisionRelease) s = .next { s with dev := e } ∧
        e.ej.windows = [{ chan := k, opn := wrapN 64 ((r.tF : Int) - (s.dev.asOf o.j).get (F.EJ_Vc_OPEN.OPEN_LEAD k) - (1000 * (s.dev.asOf o.j).get (F.EJ_TIMEr.PRE r.row) : Nat)), cls := wrapN 64 ((r.tB : Int) - (s.dev.asOf o.j).get (F.EJ_Vc_CLOSE.CLOSE_LEAD k) + (1000 * (s.dev.asOf o.j).get (F.EJ_TIMEr.POST r.row) : Nat)) }] ∧
        e.get F.EJ_POOL.PENDING = 1 ∧ e.get F.EJ_WINDOWS.COUNT = min (s.dev.get F.EJ_WINDOWS.COUNT + 1) 0xFFFFFFFF ∧
        e.jud.objs = rest)

/-- SPOUT_FRAME_SEND of a port in RUN with a claim sends the frame of Table 9.3 with the next SEQ, counts it, and every channel it drives had
a pending window that holds the target instant; no more than MAXOPEN channels are driven. A frame that the snoop unit rejects is not sent,
in RUN or SAFE, keeps SEQ and is counted for its snoop unit. In SAFE an empty bitmap without a claim goes out, in HOLD nothing but K28.5,
and in both every channel is off. A transmit lane that is not active or sends PRBS carries no frame. A port that is OFF sends nothing.
Outputs off with windows freed in HOLD and SAFE, CLAIM 0 there and without a claim, and the SEQ that a rejected frame keeps are the
model's choice (log entries 75, 76, 77). Each clause concludes that exec i s = .next t; so shown to complete: spoutFrameSend. -/
def Obligations.SpoutFrames : Prop :=
  (∀ (p : Fin 4) (s : State), (s.dev.spState p = spRun ∧ (s.dev.spout p).next = none ∧ lnSends s.dev (.spTx p) = true) → 
      ∃ e, exec (.spoutFrameSend p true) s = .next { s with dev := e } ∧
        (e.spout p).seq = ((s.dev.spout p).seq + 1) % 65536 ∧
        e.get (F.SPn_FRAMES_TX.COUNT p) = min (s.dev.get (F.SPn_FRAMES_TX.COUNT p) + 1) 0xFFFFFFFF ∧
        (e.spout p).sentAt.head? = some ((s.dev.spout p).seq, (s.dev.nowNs + 128) % 2 ^ 64) ∧
        (e.spout p).sent = frameBytes (frameConfig s.dev p).1 p (claimOf s.dev) (s.dev.spout p).seq ((if claimOf s.dev = 0 then [] else (formBitmap (freeWindows s.dev p (transportAt s.dev (frameConfig s.dev p).2)) p (frameConfig s.dev p).2 (transportAt s.dev (frameConfig s.dev p).2)).1)) ∧
        (∀ j : Fin 128, ((e.spout p).chans[j]).out = true → requested s.dev p (transportAt s.dev (frameConfig s.dev p).2) j = true ∧ claimOf s.dev ≠ 0) ∧
        ((List.finRange 128).filter (fun j => ((e.spout p).chans[j]).out)).length ≤ s.dev.get (F.SPn_LIMIT_MAXOPEN.MAXOPEN p) ∧
        e.spState p = spRun ∧ e.get (F.SPn_CLAIM.CLAIM p) = claimOf s.dev ∧ e.get (F.SPn_CLAIM.RENEW p) = 1 ∧
        SameBut (spoutRegs p ++ monRegs ++ [R.LN_STATUS (laneBase (.spTx p))]) [.lanes, .ej, .mon, .evt] s.dev e) ∧
  (∀ (p : Fin 4) (s : State), (s.dev.spState p = spRun ∧ (s.dev.spout p).next = none ∧ lnSends s.dev (.spTx p) = true) → 
      ∃ e, exec (.spoutFrameSend p false) s = .next { s with dev := e } ∧
        (e.spout p).seq = (s.dev.spout p).seq ∧ (e.spout p).sent = [] ∧
        e.get (F.SPn_FRAMES_TX.COUNT p) = s.dev.get (F.SPn_FRAMES_TX.COUNT p) ∧
        e.get (F.CRC_SNOOP_ERRk.COUNT (12 + p)) = min (s.dev.get (F.CRC_SNOOP_ERRk.COUNT (12 + p)) + 1) 0xFFFFFFFF ∧
        e.get (F.CRC_FLAGS.SNOOP_ERR.bitN (12 + p)) = 1 ∧
        SameButMem (spoutRegs p ++ monRegs ++ faultRegs ++ [R.CRC_SNOOP_ERRk (12 + p), R.CRC_FLAGS, R.LN_STATUS (laneBase (.spTx p))]) [.resv, .lanes, .ej, .mon, .evt] ([faultBytes]) s.dev e) ∧
  (∀ (p : Fin 4) (ok : Bool) (s : State), (s.dev.spState p ≠ spOff ∧ (s.dev.spout p).next = none ∧ lnSends s.dev (.spTx p) = false) → 
      ∃ e, exec (.spoutFrameSend p ok) s = .next { s with dev := e } ∧
        (e.spout p).sent = [] ∧ (e.spout p).seq = (s.dev.spout p).seq ∧ e.get (F.SPn_FRAMES_TX.COUNT p) = s.dev.get (F.SPn_FRAMES_TX.COUNT p) ∧
        (∀ j : Fin 128, ((e.spout p).chans[j]).out = false) ∧
        SameBut (spoutRegs p ++ monRegs ++ [R.LN_STATUS (laneBase (.spTx p))]) [.lanes, .ej, .mon, .evt] s.dev e) ∧
  (∀ (p : Fin 4) (s : State), (s.dev.spState p = spSafe ∧ (s.dev.spout p).next = none ∧ lnSends s.dev (.spTx p) = true) → 
      ∃ e, exec (.spoutFrameSend p false) s = .next { s with dev := e } ∧
        (e.spout p).seq = (s.dev.spout p).seq ∧ (e.spout p).sent = [] ∧
        e.get (F.CRC_SNOOP_ERRk.COUNT (12 + p)) = min (s.dev.get (F.CRC_SNOOP_ERRk.COUNT (12 + p)) + 1) 0xFFFFFFFF) ∧
  (∀ (p : Fin 4) (s : State), (s.dev.spState p = spSafe ∧ (s.dev.spout p).next = none ∧ lnSends s.dev (.spTx p) = true) → 
      ∃ e, exec (.spoutFrameSend p true) s = .next { s with dev := e } ∧
        (e.spout p).sent = frameBytes (frameConfig s.dev p).1 p 0 (s.dev.spout p).seq [] ∧
        (e.spout p).seq = ((s.dev.spout p).seq + 1) % 65536 ∧
        (∀ j : Fin 128, ((e.spout p).chans[j]).out = false) ∧ e.get (F.SPn_CLAIM.CLAIM p) = 0 ∧
        SameBut (spoutRegs p ++ monRegs ++ [R.LN_STATUS (laneBase (.spTx p))]) [.lanes, .ej, .mon, .evt] s.dev e) ∧
  (∀ (p : Fin 4) (ok : Bool) (s : State), (s.dev.spState p = spHold ∧ (s.dev.spout p).next = none) → 
      ∃ e, exec (.spoutFrameSend p ok) s = .next { s with dev := e } ∧
        (e.spout p).sent = [] ∧ (e.spout p).seq = (s.dev.spout p).seq ∧
        (∀ j : Fin 128, ((e.spout p).chans[j]).out = false) ∧ e.get (F.SPn_CLAIM.CLAIM p) = 0 ∧
        SameBut (spoutRegs p ++ monRegs ++ [R.LN_STATUS (laneBase (.spTx p))]) [.lanes, .ej, .mon, .evt] s.dev e) ∧
  (∀ (p : Fin 4) (ok : Bool) (s : State), (s.dev.spState p = spOff ∧ (s.dev.spout p).next = none) → 
      ∃ e, exec (.spoutFrameSend p ok) s = .next { s with dev := e } ∧
        SameBut [R.SPn_CLAIM p] [] s.dev e)

/-- RETURN_FRAME_RECEIVE of a valid frame on an enabled port counts SPn_RET_OK, sets RET_OK and stores STATUS, TURN, APPLY_DELAY and TEMP;
where its ACK_SEQ names one of the last frames the port learns the one-way delay, else SEQ_ERR counts. A bad frame counts in
SPn_RET_CRC_ERR alone. RET_LOST clears RET_OK and sets the flag. On a port that is OFF both change nothing, nor does a frame whose lane
passes no symbols. LIMIT_WRITE stores a value in range while LOCK is 0; a value out of range is ignored and sets LIMIT_REJ; a locked limit
takes no value. It rests also on the model's choices of log entry 79. Each clause concludes that exec i s = .next t; so shown to complete:
returnFrameReceive, retLost, limitWrite. -/
def Obligations.SpoutReturnsAndLimits : Prop :=
  (∀ (p : Fin 4) (bytes : List Byte) (t : Nat) (s : State), (s.dev.spState p ≠ spOff ∧ lnReceives s.dev (.spRx p) = true ∧ bytes.length = 28 ∧ crcOk bytes = true) → 
      ∃ e, exec (.returnFrameReceive p true bytes t) s = .next { s with dev := e } ∧
        e.get (F.SPn_RET_OK.COUNT p) = min (s.dev.get (F.SPn_RET_OK.COUNT p) + 1) 0xFFFFFFFF ∧ e.get (F.SPn_STATUS.RET_OK p) = 1 ∧
        e.get (F.SPn_RETURN.STATUS p) = leAt bytes 0 1 ∧ e.get (F.SPn_RETURN.TURN p) = leAt bytes 3 1 ∧
        e.get (F.SPn_RETURN.APPLY_DELAY p) = leAt bytes 4 1 ∧ e.get (F.SPn_RETURN.TEMP p) = leAt bytes 5 1 ∧
        e.get (F.SPn_DELAY.DELAY p) = (returnDelay (s.dev.spout p) (leAt bytes 1 2) (leAt bytes 3 1) t).getD (s.dev.get (F.SPn_DELAY.DELAY p)) ∧
        e.get (F.SPn_SEQ_ERR.COUNT p) = (if (returnDelay (s.dev.spout p) (leAt bytes 1 2) (leAt bytes 3 1) t).isSome then s.dev.get (F.SPn_SEQ_ERR.COUNT p) else min (s.dev.get (F.SPn_SEQ_ERR.COUNT p) + 1) 0xFFFFFFFF) ∧
        (s.dev.get F.MON_CTRL.EN = 0 → SameBut ([R.SPn_RET_OK p, R.SPn_STATUS p, R.SPn_RETURN p, R.SPn_DELAY p, R.SPn_SEQ_ERR p, R.SPn_FLAGS p] ++ (List.range 4).map (R.SPn_COIL_FAULTk p)) [.evt, .mon] s.dev e ∧ e.mon = { s.dev.mon with lastSlot := e.mon.lastSlot })) ∧
  (∀ (p : Fin 4) (bytes : List Byte) (framed : Bool) (t : Nat) (s : State), (s.dev.spState p ≠ spOff ∧ lnReceives s.dev (.spRx p) = true ∧ (framed = false ∨ bytes.length ≠ 28 ∨ crcOk bytes = false)) → 
      ∃ e, exec (.returnFrameReceive p framed bytes t) s = .next { s with dev := e } ∧
        e.get (F.SPn_RET_CRC_ERR.COUNT p) = min (s.dev.get (F.SPn_RET_CRC_ERR.COUNT p) + 1) 0xFFFFFFFF ∧
        (s.dev.get F.MON_CTRL.EN = 0 → SameBut [R.SPn_RET_CRC_ERR p] [.mon] s.dev e ∧ e.mon = { s.dev.mon with lastSlot := e.mon.lastSlot })) ∧
  (∀ (p : Fin 4) (bytes : List Byte) (framed : Bool) (t : Nat) (s : State), (s.dev.spState p = spOff ∨ lnReceives s.dev (.spRx p) = false) → 
      ∃ e, exec (.returnFrameReceive p framed bytes t) s = .next { s with dev := e } ∧
        e = s.dev) ∧
  (∀ (p : Fin 4) (s : State), s.dev.spState p ≠ spOff → 
      ∃ e, exec (.retLost p) s = .next { s with dev := e } ∧
        e.get (F.SPn_STATUS.RET_OK p) = 0 ∧ e.get (F.SPn_FLAGS.RET_LOST p) = 1 ∧ e.spState p = s.dev.spState p ∧
        SameBut [R.SPn_STATUS p, R.SPn_FLAGS p] [.evt] s.dev e) ∧
  (∀ (p : Fin 4) (s : State), s.dev.spState p = spOff → 
      ∃ e, exec (.retLost p) s = .next { s with dev := e } ∧
        e = s.dev) ∧
  (∀ (p : Fin 4) (k : Fin 4) (value : Word) (s : State), (s.dev.get (F.SPn_LOCK.LOCK p) = 0 ∧ (limitField p k).2.1 ≤ (limitField p k).1.of value ∧ (limitField p k).1.of value ≤ (limitField p k).2.2) → gateOpen s.dev (0x50100040 + 0x10000 * p + 4 * k) = true → 
      ∃ e, exec (.limitWrite p k value) s = .next { s with dev := e } ∧
        e.get (limitField p k).1 = (limitField p k).1.of value ∧
        SameBut [(limitField p k).1.addr] [] s.dev e) ∧
  (∀ (p : Fin 4) (k : Fin 4) (value : Word) (s : State), (s.dev.get (F.SPn_LOCK.LOCK p) = 1 ∧ (limitField p k).2.1 ≤ (limitField p k).1.of value ∧ (limitField p k).1.of value ≤ (limitField p k).2.2) → gateOpen s.dev (0x50100040 + 0x10000 * p + 4 * k) = true → 
      ∃ e, exec (.limitWrite p k value) s = .next { s with dev := e } ∧
        e = s.dev) ∧
  (∀ (p : Fin 4) (k : Fin 4) (value : Word) (s : State), ((limitField p k).1.of value < (limitField p k).2.1 ∨ (limitField p k).2.2 < (limitField p k).1.of value) → gateOpen s.dev (0x50100040 + 0x10000 * p + 4 * k) = true → 
      ∃ e, exec (.limitWrite p k value) s = .next { s with dev := e } ∧
        e.get (F.SPn_FLAGS.LIMIT_REJ p) = 1 ∧
        SameBut [R.SPn_FLAGS p] [.evt] s.dev e)

/-- ENCODER_EDGE: levels held for no more than FILT samples change nothing. On an enabled incremental axis (which meets an armed apply at its
first sample after TS): an edge on both tracks leaves N, counts TRAn_QERR and the second's window, sets QERR and UNCERTAIN, and the one
that takes the window above QERR_MAX sets QERR_RATE and records the fault; an edge on one track steps N by one modulo 2^48 in the
direction of Table 10.2 and REVERSE, counts TRAn_EDGES and shows DIR; a step against the last one counts TRAn_REVERSALS and makes no
measurement. On a disabled or SSI axis only the levels are taken. SSI_FRAME_START latches instant and level of an enabled SSI axis.
SSI_FRAME_DONE with the line low counts SSI_ERR; the first good frame sets N to its value; a later one moves N by the signed difference
modulo 2^NBITS, or counts SSI_JUMP where that exceeds JUMP_MAX. Each clause concludes that exec i s = .next t; so shown to complete:
encoderEdge, ssiFrameStart, ssiFrameDone. -/
def Obligations.AxisCounting : Prop :=
  (∀ (n : Fin 4) (a : Bool) (b : Bool) (t held : Nat) (z : Option Bool) (s : State), held ≤ (s.dev.asOfTime t).get (F.TRAn_CFG.FILT n) → 
      ∃ e, exec (.encoderEdge n a b t held z) s = .next { s with dev := e } ∧
        e = s.dev) ∧
  (∀ (n : Fin 4) (a : Bool) (b : Bool) (t held : Nat) (z : Option Bool) (y : Axis) (s : State), ((s.dev.asOfTime t).bit (F.TRAn_CFG.EN n) = false ∨ (s.dev.asOfTime t).bit (F.TRAn_CFG.TYPE n) = true) → ((s.dev.asOfTime t).get (F.TRAn_CFG.FILT n) < held ∧ y = (axisCatch s.dev n t).axis n ∧ y.ctl.all (fun k => !notBefore s.dev k.t k.cycle (some (acceptedAt (s.dev.asOfTime t) n t))) = true ∧ s.dev.resetting 5 = false) → (z.any (zSelected (s.dev.asOfTime t) n) = false ∨ s.dev.bit (F.TRAn_STATUS.REF_ARMED n) = false) → 
      ∃ e, exec (.encoderEdge n a b t held z) s = .next { s with dev := e } ∧
        e.axis n = { y with a := a, b := b, z := z.or y.z } ∧
        SameBut [] [.axes] s.dev e) ∧
  (∀ (n : Fin 4) (a : Bool) (b : Bool) (t held : Nat) (z : Option Bool) (y : Axis) (s : State), ((s.dev.asOfTime t).bit (F.TRAn_CFG.EN n) = true ∧ (s.dev.asOfTime t).bit (F.TRAn_CFG.TYPE n) = false ∧ (s.dev.asOfTime t).get (F.TRAn_CFG.FILT n) < held) → (y = (axisCatch s.dev n t).axis n ∧ y.a ≠ a ∧ y.b ≠ b ∧ y.ctl.all (fun k => !notBefore s.dev k.t k.cycle (some (acceptedAt (s.dev.asOfTime t) n t))) = true ∧ s.dev.resetting 5 = false) → (z.any (zSelected (s.dev.asOfTime t) n) = false ∨ s.dev.bit (F.TRAn_STATUS.REF_ARMED n) = false) → 
      ∃ e, exec (.encoderEdge n a b t held z) s = .next { s with dev := e } ∧
        (e.axis n).n = y.n ∧ (e.axis n).a = a ∧ (e.axis n).b = b ∧ (e.axis n).qerrs = (if y.qerrWin = some (t / 1000000000) then y.qerrs else 0) + 1 ∧ (e.axis n).qerrWin = some (t / 1000000000) ∧
        e.get (F.TRAn_QERR.COUNT n) = min (s.dev.get (F.TRAn_QERR.COUNT n) + 1) 0xFFFFFFFF ∧
        e.get (F.TRAn_STATUS.UNCERTAIN n) = 1 ∧ e.get (F.TRAn_FLAGS.QERR n) = 1 ∧
        ((y.qerrWin = some (t / 1000000000) ∧ y.qerrHit = true) ∨ (e.axis n).qerrs ≤ (s.dev.asOfTime t).get (F.TRAn_LIMITS.QERR_MAX n) → SameBut [R.TRAn_QERR n, R.TRAn_STATUS n, R.TRAn_FLAGS n] [.axes, .evt] s.dev e) ∧
        (¬ (y.qerrWin = some (t / 1000000000) ∧ y.qerrHit = true) ∧ (s.dev.asOfTime t).get (F.TRAn_LIMITS.QERR_MAX n) < (e.axis n).qerrs → e.get (F.TRAn_FLAGS.QERR_RATE n) = 1 ∧ e.get F.FLT_LAST.CODE = faultQerrRate) ∧
        SameButMem ([R.TRAn_QERR n, R.TRAn_STATUS n, R.TRAn_FLAGS n] ++ faultRegs) [.resv, .axes, .evt] ([faultBytes]) s.dev e) ∧
  (∀ (n : Fin 4) (a : Bool) (b : Bool) (t held : Nat) (z : Option Bool) (y : Axis) (k : Int) (s : State), ((s.dev.asOfTime t).bit (F.TRAn_CFG.EN n) = true ∧ (s.dev.asOfTime t).bit (F.TRAn_CFG.TYPE n) = false ∧ (s.dev.asOfTime t).get (F.TRAn_CFG.FILT n) < held) → (y = (axisCatch s.dev n t).axis n ∧ y.ctl.all (fun k => !notBefore s.dev k.t k.cycle (some (acceptedAt (s.dev.asOfTime t) n t))) = true ∧ s.dev.resetting 5 = false) → (k = (if (s.dev.asOfTime t).bit (F.TRAn_CFG.REVERSE n) then -1 else 1) * quadStep y.a y.b a b ∧ k ≠ 0) → (y.lastNeg ≠ some (decide (0 < k)) ∧ s.dev.bit (F.TRAn_STATUS.LIST_ARMED n) = false) → (z.any (zSelected (s.dev.asOfTime t) n) = false ∨ s.dev.bit (F.TRAn_STATUS.REF_ARMED n) = false) → 
      ∃ e, exec (.encoderEdge n a b t held z) s = .next { s with dev := e } ∧
        (e.axis n).n = wrapN 48 (y.n + k) ∧ (e.axis n).a = a ∧ (e.axis n).b = b ∧ (e.axis n).lastNeg = some (decide (k < 0)) ∧
        (y.initAt.all (fun a => !stampBefore t a) = true → (e.axis n).obs = axisMeasure ((s.dev.asOfTime t).get (F.TRAn_CFG.BW n)) (statesBefore y t).1 (65536 * (if k < 0 then y.n else wrapN 48 (y.n + k))) t) ∧
        e.get (F.TRAn_EDGES.COUNT n) = min (s.dev.get (F.TRAn_EDGES.COUNT n) + 1) 0xFFFFFFFF ∧
        e.get (F.TRAn_STATUS.DIR n) = (if k < 0 then 1 else 0) ∧ e.get (F.TRAn_STATUS.STILL n) = 0 ∧
        SameBut [R.TRAn_EDGES n, R.TRAn_STATUS n] [.axes] s.dev e) ∧
  (∀ (n : Fin 4) (a : Bool) (b : Bool) (t held : Nat) (z : Option Bool) (y : Axis) (k : Int) (s : State), ((s.dev.asOfTime t).bit (F.TRAn_CFG.EN n) = true ∧ (s.dev.asOfTime t).bit (F.TRAn_CFG.TYPE n) = false ∧ (s.dev.asOfTime t).get (F.TRAn_CFG.FILT n) < held) → (y = (axisCatch s.dev n t).axis n ∧ y.ctl.all (fun k => !notBefore s.dev k.t k.cycle (some (acceptedAt (s.dev.asOfTime t) n t))) = true ∧ s.dev.resetting 5 = false) → (k = (if (s.dev.asOfTime t).bit (F.TRAn_CFG.REVERSE n) then -1 else 1) * quadStep y.a y.b a b ∧ k ≠ 0) → (y.lastNeg = some (decide (0 < k)) ∧ s.dev.bit (F.TRAn_STATUS.LIST_ARMED n) = false) → (z.any (zSelected (s.dev.asOfTime t) n) = false ∨ s.dev.bit (F.TRAn_STATUS.REF_ARMED n) = false) → 
      ∃ e, exec (.encoderEdge n a b t held z) s = .next { s with dev := e } ∧
        ((e.axis n).n = wrapN 48 (y.n + k) ∧ (y.stillAt.all (fun u => stampBefore u t) = true → (e.axis n).obs = y.obs)) ∧
        e.get (F.TRAn_REVERSALS.COUNT n) = min (s.dev.get (F.TRAn_REVERSALS.COUNT n) + 1) 0xFFFFFFFF ∧
        SameBut [R.TRAn_EDGES n, R.TRAn_STATUS n, R.TRAn_REVERSALS n] [.axes] s.dev e) ∧
  (∀ (n : Fin 4) (g : Bool) (t : Nat) (s : State), s.dev.resetting 5 = false → 
      ∃ e, exec (.ssiFrameStart n g t) s = .next { s with dev := e } ∧
        (e.axis n = if (s.dev.asOfTime t).bit (F.TRAn_CFG.EN n) ∧ (s.dev.asOfTime t).bit (F.TRAn_CFG.TYPE n) then { (axisCatch s.dev n t).axis n with frame := some { t := t, dataHigh := g }, clk := false } else s.dev.axis n) ∧
        SameBut [] [.axes] s.dev e) ∧
  (∀ (n : Fin 4) (a : Bool) (b : Bool) (t held : Nat) (z : Option Bool) (s : State), ((s.dev.asOfTime t).get (F.TRAn_CFG.FILT n) < held ∧ s.dev.resetting 5 = true ∧ (axisCatch s.dev n t).axis n = s.dev.axis n) → 
      ∃ e, exec (.encoderEdge n a b t held z) s = .next { s with dev := e } ∧
        e.axis n = { s.dev.axis n with a := a, b := b, z := z.or (s.dev.axis n).z } ∧
        SameBut [] [.axes] s.dev e) ∧
  (∀ (n : Fin 4) (bits : Nat) (z : Option (Bool × Nat)) (fr : SsiFrame) (s : State), ((s.dev.axis n).frame = some fr ∧ fr.dataHigh = false) → (z.all (fun e => !zSelected (s.dev.asOfTime fr.t) n e.1) = true ∨ s.dev.bit (F.TRAn_STATUS.REF_ARMED n) = false) → (s.dev.axis n).ctl.all (fun k => !notBefore s.dev k.t k.cycle (some ((fr.t + 4 * (s.dev.asOfTime fr.t).get (F.TRAn_SSI.DIV n) * (s.dev.asOfTime fr.t).get (F.TRAn_SSI.NBITS n)) % 2 ^ 64))) = true → 
      ∃ e, exec (.ssiFrameDone n bits z) s = .next { s with dev := e } ∧
        e.axis n = { s.dev.axis n with frame := none, clk := (s.dev.asOfTime fr.t).bit (F.TRAn_CFG.TYPE n), z := (z.map Prod.fst).or (s.dev.axis n).z } ∧
        e.get (F.TRAn_SSI_ERR.COUNT n) = min (s.dev.get (F.TRAn_SSI_ERR.COUNT n) + 1) 0xFFFFFFFF ∧ e.get (F.TRAn_FLAGS.SSI_ERR n) = 1 ∧
        SameBut [R.TRAn_SSI_ERR n, R.TRAn_FLAGS n] [.axes, .evt] s.dev e) ∧
  (∀ (n : Fin 4) (bits : Nat) (z : Option (Bool × Nat)) (fr : SsiFrame) (s : State), ((s.dev.axis n).frame = some fr ∧ fr.dataHigh = true ∧ (s.dev.axis n).uPrev = none ∧ s.dev.bit (F.TRAn_STATUS.LIST_ARMED n) = false) → (s.dev.asOfTime fr.t).bit (F.TRAn_SSI.GRAY n) = false → (z.all (fun e => !zSelected (s.dev.asOfTime fr.t) n e.1) = true ∨ s.dev.bit (F.TRAn_STATUS.REF_ARMED n) = false) → (s.dev.axis n).ctl.all (fun k => !notBefore s.dev k.t k.cycle (some ((fr.t + 4 * (s.dev.asOfTime fr.t).get (F.TRAn_SSI.DIV n) * (s.dev.asOfTime fr.t).get (F.TRAn_SSI.NBITS n)) % 2 ^ 64))) = true → 
      ∃ e, exec (.ssiFrameDone n bits z) s = .next { s with dev := e } ∧
        (e.axis n).n = bits % 2 ^ (s.dev.asOfTime fr.t).get (F.TRAn_SSI.NBITS n) ∧ (e.axis n).uPrev = some (e.axis n).n ∧ (e.axis n).frame = none ∧
        e.get (F.TRAn_EDGES.COUNT n) = min (s.dev.get (F.TRAn_EDGES.COUNT n) + 1) 0xFFFFFFFF ∧
        SameBut [R.TRAn_EDGES n, R.TRAn_STATUS n] [.axes] s.dev e) ∧
  (∀ (n : Fin 4) (bits : Nat) (z : Option (Bool × Nat)) (fr : SsiFrame) (u : Nat) (s : State), ((s.dev.axis n).frame = some fr ∧ fr.dataHigh = true ∧ (s.dev.axis n).uPrev = some u) → ((s.dev.asOfTime fr.t).bit (F.TRAn_SSI.GRAY n) = false ∧ (s.dev.asOfTime fr.t).get (F.TRAn_SSI_LAT.JUMP_MAX n) ≠ 0) → (s.dev.asOfTime fr.t).get (F.TRAn_SSI_LAT.JUMP_MAX n) < (sx ((s.dev.asOfTime fr.t).get (F.TRAn_SSI.NBITS n)) (wrapN ((s.dev.asOfTime fr.t).get (F.TRAn_SSI.NBITS n)) ((bits % 2 ^ (s.dev.asOfTime fr.t).get (F.TRAn_SSI.NBITS n) : Nat) - (u : Int)))).natAbs → (z.all (fun e => !zSelected (s.dev.asOfTime fr.t) n e.1) = true ∨ s.dev.bit (F.TRAn_STATUS.REF_ARMED n) = false) → (s.dev.axis n).ctl.all (fun k => !notBefore s.dev k.t k.cycle (some ((fr.t + 4 * (s.dev.asOfTime fr.t).get (F.TRAn_SSI.DIV n) * (s.dev.asOfTime fr.t).get (F.TRAn_SSI.NBITS n)) % 2 ^ 64))) = true → 
      ∃ e, exec (.ssiFrameDone n bits z) s = .next { s with dev := e } ∧
        e.axis n = { s.dev.axis n with frame := none, clk := (s.dev.asOfTime fr.t).bit (F.TRAn_CFG.TYPE n), uPrev := some (bits % 2 ^ (s.dev.asOfTime fr.t).get (F.TRAn_SSI.NBITS n)), z := (z.map Prod.fst).or (s.dev.axis n).z } ∧
        e.get (F.TRAn_SSI_JUMP.COUNT n) = min (s.dev.get (F.TRAn_SSI_JUMP.COUNT n) + 1) 0xFFFFFFFF ∧ e.get (F.TRAn_FLAGS.SSI_JUMP n) = 1 ∧
        SameBut [R.TRAn_SSI_JUMP n, R.TRAn_FLAGS n] [.axes, .evt] s.dev e) ∧
  (∀ (n : Fin 4) (bits : Nat) (z : Option (Bool × Nat)) (fr : SsiFrame) (u t : Nat) (k : Int) (s : State), ((s.dev.axis n).frame = some fr ∧ fr.dataHigh = true ∧ (s.dev.axis n).uPrev = some u ∧ s.dev.bit (F.TRAn_STATUS.LIST_ARMED n) = false) → ((s.dev.asOfTime fr.t).bit (F.TRAn_SSI.GRAY n) = false ∧ (s.dev.asOfTime fr.t).get (F.TRAn_SSI_LAT.JUMP_MAX n) = 0) → k = sx ((s.dev.asOfTime fr.t).get (F.TRAn_SSI.NBITS n)) (wrapN ((s.dev.asOfTime fr.t).get (F.TRAn_SSI.NBITS n)) ((bits % 2 ^ (s.dev.asOfTime fr.t).get (F.TRAn_SSI.NBITS n) : Nat) - (u : Int))) → t = (fr.t + (s.dev.asOfTime fr.t).get (F.TRAn_SSI_LAT.LATCH_NS n)) % 2 ^ 64 → (z.all (fun e => !zSelected (s.dev.asOfTime fr.t) n e.1) = true ∨ s.dev.bit (F.TRAn_STATUS.REF_ARMED n) = false) → (s.dev.axis n).ctl.all (fun k => !notBefore s.dev k.t k.cycle (some ((fr.t + 4 * (s.dev.asOfTime fr.t).get (F.TRAn_SSI.DIV n) * (s.dev.asOfTime fr.t).get (F.TRAn_SSI.NBITS n)) % 2 ^ 64))) = true → 
      ∃ e, exec (.ssiFrameDone n bits z) s = .next { s with dev := e } ∧
        (e.axis n).n = wrapN 48 ((s.dev.axis n).n + k) ∧ (e.axis n).uPrev = some (bits % 2 ^ (s.dev.asOfTime fr.t).get (F.TRAn_SSI.NBITS n)) ∧
        ((s.dev.axis n).initAt.all (fun a => !stampBefore t a) = true → (e.axis n).obs = axisMeasure ((s.dev.asOfTime fr.t).get (F.TRAn_CFG.BW n)) (statesBefore (s.dev.axis n) t).1 (65536 * (e.axis n).n + 32768) t) ∧
        e.get (F.TRAn_EDGES.COUNT n) = min (s.dev.get (F.TRAn_EDGES.COUNT n) + 1) 0xFFFFFFFF ∧
        SameBut [R.TRAn_EDGES n, R.TRAn_STATUS n] [.axes] s.dev e)

/-- Z_EDGE of the polarity SRC names, held for more than FILT samples, with REF_ARMED set by an arm before it, latches N and the time, disarms
and sets REF_LATCH; with HOME on an axis that is not the transport source it sets N to REF_VAL and clears UNCERTAIN; an edge not selected,
or to the accepted level, moves no more than that level, and one not held does not; an arm in the cycle of an edge takes effect after it
(R240); an index edge in the sample of an encoder edge latches N after the step. A step of N onto the armed list's last entry fires the
axis's compare rill with the edge's time, counts, ends the list and sets LIST_DONE. QERR_WINDOW_END ends the window and clears its count;
a count above QERR_MAX not yet reported sets QERR_RATE and records the fault. STANDSTILL_MEAS measures the middle of the step at STILL us
after the last update and sets STILL. REF_ARM, LIST_ARM, LIST_STOP and CLR_UNCERT set or clear their status bits alone; AXIS_SNAPSHOT_READ
captures N, or the observer's states. It rests also on the model's choices of log entries 82, 87, 252, 253. Each clause concludes that
exec i s = .next t; so shown to complete: zEdge, encoderEdge, qerrWindowEnd, standstillMeas, refArm, listArm, listStop, clrUncert,
axisSnapshotRead. -/
def Obligations.AxisLatchesAndControl : Prop :=
  (∀ (n : Fin 4) (rising : Bool) (t held : Nat) (y : Axis) (s : State), (zSelected (s.dev.asOfTime t) n rising = true ∧ (s.dev.asOfTime t).get (F.TRAn_CFG.FILT n) < held) → (y = (axisCatch s.dev n t).axis n ∧ y.z ≠ some rising ∧ y.ctl.all (fun k => !notBefore s.dev k.t k.cycle (some (acceptedAt (s.dev.asOfTime t) n t))) = true ∧ s.dev.resetting 5 = false) → (s.dev.bit (F.TRAn_STATUS.REF_ARMED n) = true ∧ (s.dev.asOfTime t).bit (F.TRAn_REF.HOME n) = false) → 
      ∃ e, exec (.zEdge n rising t held) s = .next { s with dev := e } ∧
        e.pair (R.TRAn_REF_CNT_LO n) (R.TRAn_REF_CNT_HI n) = y.n % 2 ^ 64 ∧ e.axis n = { y with z := some rising } ∧ e.pair (R.TRAn_REF_TIME_LO n) (R.TRAn_REF_TIME_HI n) = t % 2 ^ 64 ∧
        e.get (F.TRAn_STATUS.REF_ARMED n) = 0 ∧ e.get (F.TRAn_FLAGS.REF_LATCH n) = 1 ∧
        SameBut [R.TRAn_REF_CNT_LO n, R.TRAn_REF_CNT_HI n, R.TRAn_REF_TIME_LO n, R.TRAn_REF_TIME_HI n, R.TRAn_STATUS n, R.TRAn_FLAGS n] [.axes, .evt] s.dev e) ∧
  (∀ (n : Fin 4) (rising : Bool) (t held : Nat) (y : Axis) (s : State), (zSelected (s.dev.asOfTime t) n rising = true ∧ (s.dev.asOfTime t).get (F.TRAn_CFG.FILT n) < held) → (y = (axisCatch s.dev n t).axis n ∧ y.z ≠ some rising ∧ y.ctl.all (fun k => !notBefore s.dev k.t k.cycle (some (acceptedAt (s.dev.asOfTime t) n t))) = true ∧ s.dev.resetting 5 = false) → (s.dev.bit (F.TRAn_STATUS.REF_ARMED n) = true ∧ (s.dev.asOfTime t).bit (F.TRAn_REF.HOME n) = true) → (sourceAxis (s.dev.asOfTime t) n = false ∧ s.dev.bit (F.TRAn_STATUS.LIST_ARMED n) = false) → 
      ∃ e, exec (.zEdge n rising t held) s = .next { s with dev := e } ∧
        (e.axis n).n = refVal (s.dev.asOfTime t) n ∧ (e.axis n).obs.x1 = y.obs.x1 ∧ (e.axis n).obs.x0 = (wrapN 64 (y.obs.x0 + ((refVal (s.dev.asOfTime t) n : Int) - y.n) * 65536) : Nat) ∧
        e.get (F.TRAn_STATUS.UNCERTAIN n) = 0 ∧ e.get (F.TRAn_STATUS.REF_ARMED n) = 0 ∧
        e.pair (R.TRAn_REF_CNT_LO n) (R.TRAn_REF_CNT_HI n) = y.n % 2 ^ 64 ∧
        SameBut [R.TRAn_REF_CNT_LO n, R.TRAn_REF_CNT_HI n, R.TRAn_REF_TIME_LO n, R.TRAn_REF_TIME_HI n, R.TRAn_STATUS n, R.TRAn_FLAGS n] [.evt, .axes] s.dev e) ∧
  (∀ (n : Fin 4) (rising : Bool) (t held : Nat) (s : State), ((zSelected (s.dev.asOfTime t) n rising = false ∨ ((axisCatch s.dev n t).axis n).z = some rising) ∧ (s.dev.asOfTime t).get (F.TRAn_CFG.FILT n) < held) → 
      ∃ e, exec (.zEdge n rising t held) s = .next { s with dev := e } ∧
        (e.axis n = { s.dev.axis n with z := (e.axis n).z } ∧ (((axisCatch s.dev n t).axis n).z ≠ some rising → (e.axis n).z = some rising)) ∧
        SameBut [] [.axes] s.dev e) ∧
  (∀ (n : Fin 4) (rising : Bool) (t held : Nat) (s : State), held ≤ (s.dev.asOfTime t).get (F.TRAn_CFG.FILT n) → 
      ∃ e, exec (.zEdge n rising t held) s = .next { s with dev := e } ∧
        e.axis n = { s.dev.axis n with z := (s.dev.axis n).z.or (some (!rising)) } ∧
        SameBut [] [.axes] s.dev e) ∧
  (∀ (n : Fin 4) (a : Bool) (b : Bool) (t held : Nat) (z : Option Bool) (y : Axis) (s : State), ((s.dev.asOfTime t).bit (F.TRAn_CFG.EN n) = true ∧ (s.dev.asOfTime t).bit (F.TRAn_CFG.TYPE n) = false ∧ (s.dev.asOfTime t).get (F.TRAn_CFG.FILT n) < held) → (y = (axisCatch s.dev n t).axis n ∧ y.ctl.all (fun k => !notBefore s.dev k.t k.cycle (some (acceptedAt (s.dev.asOfTime t) n t))) = true ∧ s.dev.resetting 5 = false) → ((s.dev.asOfTime t).bit (F.TRAn_CFG.REVERSE n) = false ∧ quadStep y.a y.b a b = 1 ∧ s.dev.bit (F.TRAn_STATUS.LIST_ARMED n) = false) → (z.any (fun l => zSelected (s.dev.asOfTime t) n l && y.z != some l) = true ∧ s.dev.bit (F.TRAn_STATUS.REF_ARMED n) = true ∧ (s.dev.asOfTime t).bit (F.TRAn_REF.HOME n) = false) → 
      ∃ e, exec (.encoderEdge n a b t held z) s = .next { s with dev := e } ∧
        (e.axis n).n = wrapN 48 (y.n + 1 : Nat) ∧
        e.pair (R.TRAn_REF_CNT_LO n) (R.TRAn_REF_CNT_HI n) = (e.axis n).n % 2 ^ 64 ∧ e.pair (R.TRAn_REF_TIME_LO n) (R.TRAn_REF_TIME_HI n) = t % 2 ^ 64 ∧
        e.get (F.TRAn_STATUS.REF_ARMED n) = 0 ∧ e.get (F.TRAn_FLAGS.REF_LATCH n) = 1 ∧
        SameBut [R.TRAn_EDGES n, R.TRAn_REVERSALS n, R.TRAn_REF_CNT_LO n, R.TRAn_REF_CNT_HI n, R.TRAn_REF_TIME_LO n, R.TRAn_REF_TIME_HI n, R.TRAn_STATUS n, R.TRAn_FLAGS n] [.axes, .evt] s.dev e) ∧
  (∀ (n : Fin 4) (a : Bool) (b : Bool) (t held : Nat) (z : Option Bool) (y : Axis) (s : State), ((s.dev.asOfTime t).bit (F.TRAn_CFG.EN n) = true ∧ (s.dev.asOfTime t).bit (F.TRAn_CFG.TYPE n) = false ∧ (s.dev.asOfTime t).get (F.TRAn_CFG.FILT n) < held) → (y = (axisCatch s.dev n t).axis n ∧ y.listOld = [] ∧ y.ctl.all (fun k => !notBefore s.dev k.t k.cycle (some (acceptedAt (s.dev.asOfTime t) n t))) = true ∧ s.dev.resetting 5 = false) → (z.any (zSelected (s.dev.asOfTime t) n) = false ∨ s.dev.bit (F.TRAn_STATUS.REF_ARMED n) = false) → ((s.dev.asOfTime t).bit (F.TRAn_CFG.REVERSE n) = false ∧ quadStep y.a y.b a b = 1) → (s.dev.bit (F.TRAn_STATUS.LIST_ARMED n) = true ∧ s.dev.get (F.TRAn_LIST_CFG.LEN_M1 n) = 0 ∧ s.dev.bit (F.TRAn_LIST_CFG.WRAP n) = false ∧ s.dev.bit (F.TRAn_LIST_CFG.DIR n) = false) → s.dev.get (F.TRAn_STATUS.LIST_PTR n) = s.dev.get (F.TRAn_LIST_CFG.START n) → (s.dev.num (listAddr n (s.dev.get (F.TRAn_LIST_CFG.START n))) 6 = wrapN 48 (y.n + 1 : Nat) ∧ s.dev.evt.inflight = [] ∧ y.n < 2 ^ 48) → 
      ∃ e, exec (.encoderEdge n a b t held z) s = .next { s with dev := e } ∧
        (e.axis n).n = wrapN 48 (y.n + 1 : Nat) ∧ e.evt.inflight.head? = some { rill := 80 + n, stamp := t } ∧
        e.get (F.TRAn_LIST_FIRES.COUNT n) = min (s.dev.get (F.TRAn_LIST_FIRES.COUNT n) + 1) 0xFFFFFFFF ∧
        e.pair (R.TRAn_LIST_TIME_LO n) (R.TRAn_LIST_TIME_HI n) = t % 2 ^ 64 ∧
        e.get (F.TRAn_STATUS.LIST_ARMED n) = 0 ∧ e.get (F.TRAn_FLAGS.LIST_DONE n) = 1 ∧
        SameBut [R.TRAn_EDGES n, R.TRAn_REVERSALS n, R.TRAn_STATUS n, R.TRAn_FLAGS n, R.TRAn_LIST_FIRES n, R.TRAn_LIST_TIME_LO n, R.TRAn_LIST_TIME_HI n] [.axes, .evt] s.dev e) ∧
  (∀ (n : Fin 4) (s : State), (s.dev.axis n).qerrWin = none → 
      ∃ e, exec (.qerrWindowEnd n) s = .next { s with dev := e } ∧
        e = s.dev) ∧
  (∀ (n : Fin 4) (k m : Nat) (s : State), (s.dev.axis n).qerrWin = some k ∧ m = (s.dev.asOfTime ((k + 1) * 1000000000)).get (F.TRAn_LIMITS.QERR_MAX n) → 
      ∃ e, exec (.qerrWindowEnd n) s = .next { s with dev := e } ∧
        e.axis n = { s.dev.axis n with qerrs := 0, qerrWin := none, qerrHit := false } ∧ e.tb = (s.dev.elapseTo ((k + 1) * 1000000000)).tb ∧
        (m < (s.dev.axis n).qerrs ∧ (s.dev.axis n).qerrHit = false → e.get (F.TRAn_FLAGS.QERR_RATE n) = 1 ∧ e.get F.FLT_LAST.CODE = faultQerrRate) ∧
        (¬ (m < (s.dev.axis n).qerrs ∧ (s.dev.axis n).qerrHit = false) → SameBut [] [.axes, .tb] s.dev e) ∧
        SameButMem ([R.TRAn_FLAGS n] ++ faultRegs) [.resv, .axes, .evt, .tb] ([faultBytes]) s.dev e) ∧
  (∀ (n : Fin 4) (u t : Nat) (y : Axis) (s : State), u = ((s.dev.axis n).obs.tu + 1000 * (s.dev.asOfTime s.dev.nowNs).get (F.TRAn_LIMITS.STILL n)) % 2 ^ 64 → (t = ((s.dev.axis n).obs.tu + 1000 * (s.dev.asOfTime u).get (F.TRAn_LIMITS.STILL n)) % 2 ^ 64 ∧ y = (axisCatch s.dev n t).axis n) → ((s.dev.asOfTime u).bit (F.TRAn_CFG.EN n) = true ∧ (s.dev.asOfTime u).get (F.TRAn_LIMITS.STILL n) ≠ 0 ∧ y.obs.started = true ∧ y.initAt.all (fun a => !stampBefore t a) = true ∧ s.dev.resetting 5 = false) → 
      ∃ e, exec (.standstillMeas n) s = .next { s with dev := e } ∧
        (e.axis n).obs = axisMeasure ((s.dev.asOfTime u).get (F.TRAn_CFG.BW n)) (statesBefore y t).1 (65536 * y.n + 32768) t ∧ (e.axis n).n = y.n ∧ (e.axis n).stillAt = some t ∧
        e.get (F.TRAn_STATUS.STILL n) = 1 ∧
        SameBut [R.TRAn_STATUS n] [.axes, .tb] s.dev e) ∧
  (∀ (n : Fin 4) (s : State), gateOpen s.dev (R.TRAn_CTRL n) = true → 
      ∃ e, exec (.refArm n) s = .next { s with dev := e } ∧
        e.get (F.TRAn_STATUS.REF_ARMED n) = 1 ∧ e.get (F.TRAn_STATUS.LIST_ARMED n) = s.dev.get (F.TRAn_STATUS.LIST_ARMED n) ∧
        e.axis n = { s.dev.axis n with ctl := (e.axis n).ctl } ∧ (e.axis n).ctl.map AxisCtl.refArm = some true ∧
        SameBut [R.TRAn_STATUS n] [.axes] s.dev e) ∧
  (∀ (n : Fin 4) (s : State), gateOpen s.dev (R.TRAn_CTRL n) = true → 
      ∃ e, exec (.listArm n) s = .next { s with dev := e } ∧
        e.get (F.TRAn_STATUS.LIST_ARMED n) = 1 ∧ e.get (F.TRAn_STATUS.LIST_PTR n) = s.dev.get (F.TRAn_LIST_CFG.START n) ∧
        e.get (F.TRAn_STATUS.REF_ARMED n) = s.dev.get (F.TRAn_STATUS.REF_ARMED n) ∧
        e.axis n = { s.dev.axis n with ctl := (e.axis n).ctl } ∧ (e.axis n).ctl.map AxisCtl.list = some (some true) ∧
        SameBut [R.TRAn_STATUS n] [.axes] s.dev e) ∧
  (∀ (n : Fin 4) (s : State), gateOpen s.dev (R.TRAn_CTRL n) = true → 
      ∃ e, exec (.listStop n) s = .next { s with dev := e } ∧
        e.get (F.TRAn_STATUS.LIST_ARMED n) = 0 ∧ e.get (F.TRAn_STATUS.LIST_PTR n) = s.dev.get (F.TRAn_STATUS.LIST_PTR n) ∧
        e.axis n = { s.dev.axis n with ctl := (e.axis n).ctl } ∧
        SameBut [R.TRAn_STATUS n] [.axes] s.dev e) ∧
  (∀ (n : Fin 4) (s : State), gateOpen s.dev (R.TRAn_CTRL n) = true → 
      ∃ e, exec (.clrUncert n) s = .next { s with dev := e } ∧
        e.get (F.TRAn_STATUS.UNCERTAIN n) = 0 ∧ e.get (F.TRAn_STATUS.REF_ARMED n) = s.dev.get (F.TRAn_STATUS.REF_ARMED n) ∧
        e.axis n = { s.dev.axis n with ctl := (e.axis n).ctl } ∧
        SameBut [R.TRAn_STATUS n] [.axes] s.dev e) ∧
  (∀ (n : Fin 4) (rising : Bool) (t held : Nat) (y : Axis) (k : AxisCtl) (s : State), (zSelected (s.dev.asOfTime t) n rising = true ∧ (s.dev.asOfTime t).get (F.TRAn_CFG.FILT n) < held) → (y = (axisCatch s.dev n t).axis n ∧ y.z ≠ some rising ∧ s.dev.resetting 5 = false) → (y.ctl = some k ∧ notBefore s.dev k.t k.cycle (some (acceptedAt (s.dev.asOfTime t) n t)) = true) → (k.refArmed = false ∧ k.refArm = true ∧ k.list = none ∧ k.clr = false) → 
      ∃ e, exec (.zEdge n rising t held) s = .next { s with dev := e } ∧
        e.get (F.TRAn_STATUS.REF_ARMED n) = 1 ∧ e.get (F.TRAn_FLAGS.REF_LATCH n) = s.dev.get (F.TRAn_FLAGS.REF_LATCH n) ∧
        SameBut [R.TRAn_STATUS n] [.axes] s.dev e) ∧
  (∀ (n : Fin 4) (s : State), gateOpen s.dev (R.TRAn_CTRL n) = true → 
      ∃ e, exec (.clrUncert n) s = .next { s with dev := e } ∧
        e.get (F.TRAn_STATUS.UNCERTAIN n) = 0 ∧
        SameBut [R.TRAn_STATUS n] [.axes] s.dev e) ∧
  (∀ (n : Fin 4) (s : State), gateOpen s.dev (R.TRAn_COUNT_LO n) = true → 
      ∃ e, exec (.axisSnapshotRead n false) s = .next { s with dev := e } ∧
        e.pair (R.TRAn_COUNT_LO n) (R.TRAn_COUNT_HI n) = (s.dev.axis n).n % 2 ^ 64 ∧
        SameBut [R.TRAn_COUNT_LO n, R.TRAn_COUNT_HI n] [] s.dev e) ∧
  (∀ (n : Fin 4) (s : State), gateOpen s.dev (R.TRAn_COUNT_LO n) = true → 
      ∃ e, exec (.axisSnapshotRead n true) s = .next { s with dev := e } ∧
        e.pair (R.TRAn_POS_LO n) (R.TRAn_POS_HI n) = wrapN 64 (s.dev.axis n).obs.x0 ∧ e.pair (R.TRAn_SPEED_LO n) (R.TRAn_SPEED_HI n) = wrapN 64 (s.dev.axis n).obs.x1 ∧
        e.pair (R.TRAn_ACC_LO n) (R.TRAn_ACC_HI n) = wrapN 64 (s.dev.axis n).obs.x2 ∧ e.pair (R.TRAn_TUPD_LO n) (R.TRAn_TUPD_HI n) = (s.dev.axis n).obs.tu % 2 ^ 64 ∧
        SameBut [R.TRAn_POS_LO n, R.TRAn_POS_HI n, R.TRAn_SPEED_LO n, R.TRAn_SPEED_HI n, R.TRAn_ACC_LO n, R.TRAn_ACC_HI n, R.TRAn_TUPD_LO n, R.TRAn_TUPD_HI n] [] s.dev e)

/-- MON_CLK_EDGE with the chain enabled numbers the edge, stores its time and puts every enabled pin channel in service and, where it already
was under the same registers with FIR outputs, takes its pin's bit through its averages; a disabled pin channel leaves service, and with
the chain disabled nothing else changes. MON_OUTPUT moves the oldest output into MON_Cc_OUT with SETTLED; a settled one outside its limits
sets LO or HI and LIMIT. A pending signature fails on an output later than WIN us after its command: ARMED clears and SIG_FAILS counts.
MON_SLOT_GAP counts a silent slot 128 ns after the last. MON_CLK_LOST takes every pin channel out of service and sets CLK_LOST.
MON_OUT_READ captures the time of the output shown. It rests also on the model's choices of log entries 89, 93, 255. Each clause concludes
that exec i s = .next t; so shown to complete: monClkEdge, monOutput, monSlotGap, monClkLost, monOutRead. -/
def Obligations.MonitorChain : Prop :=
  (∀ (pins : Half) (t : Nat) (s : State), (s.dev.asOfTime t).bit F.MON_CTRL.EN = false → 
      ∃ e, exec (.monClkEdge pins t) s = .next { s with dev := e } ∧
        (∀ k : Fin 32, monPortOf s.dev k = none → e.get (F.MON_Cc_STATUS.IN_SERVICE k) = 0) ∧
        e.mon.clk = s.dev.mon.clk ∧
        ((∀ k : Fin 32, s.dev.bit (F.MON_Cc_STATUS.IN_SERVICE k) = false) → e = s.dev) ∧
        SameBut (monRegs) [.mon, .evt] s.dev e) ∧
  (∀ (pins : Half) (t : Nat) (s : State), (s.dev.asOfTime t).bit F.MON_CTRL.EN = true → 
      ∃ e, exec (.monClkEdge pins t) s = .next { s with dev := e } ∧
        e.mon.clk = s.dev.mon.clk + 1 ∧ e.mon.lastClk = t ∧ e.mon.clkTimes.head? = some t ∧ e.mon.slots = s.dev.mon.slots ∧
        (∀ k : Fin 32, (s.dev.asOfTime t).bit (F.MON_Cc_CFG.EN k) = true ∧ (s.dev.asOfTime t).bit (F.MON_Cc_CFG.TYPE k) = false → s.dev.resetting 5 = false → e.get (F.MON_Cc_STATUS.IN_SERVICE k) = 1) ∧
        (∀ k : Fin 32, ((s.dev.asOfTime t).bit (F.MON_Cc_CFG.EN k) && !(s.dev.asOfTime t).bit (F.MON_Cc_CFG.TYPE k) && !(s.dev.asOfTime t).bit (F.MON_Cc_CFG.SCS k) && !s.dev.resetting 5 && s.dev.bit (F.MON_Cc_STATUS.IN_SERVICE k) && (s.dev.monChan k).under == monKey (s.dev.asOfTime t) k) = true → (e.monChan k).stages = (monAverage (s.dev.asOfTime t) k 0 (s.dev.monChan k).stages (if bitAt pins.toNat ((s.dev.asOfTime t).get (F.MON_Cc_CFG.SRC k)) then 1 else 0)).2) ∧
        (∀ k : Fin 32, (s.dev.asOfTime t).bit (F.MON_Cc_CFG.EN k) = true ∧ (s.dev.asOfTime t).bit (F.MON_Cc_CFG.TYPE k) = true → e.monChan k = s.dev.monChan k ∧ e.get (F.MON_Cc_STATUS.IN_SERVICE k) = s.dev.get (F.MON_Cc_STATUS.IN_SERVICE k)) ∧
        (∀ k : Fin 32, (s.dev.asOfTime t).bit (F.MON_Cc_CFG.EN k) = false ∧ monPortOf s.dev k = none → e.get (F.MON_Cc_STATUS.IN_SERVICE k) = 0) ∧
        SameBut (monRegs ++ [R.MON_CLK_KHZ]) [.mon, .evt, .fresh] s.dev e) ∧
  (∀ (k : Fin 32) (o : MonOut) (rest : List MonOut) (s : State), ((s.dev.monChan k).outs = o :: rest ∧ (s.dev.monChan k).sig = none) → 
      ∃ e, exec (.monOutput k) s = .next { s with dev := e } ∧
        e.rd (R.MON_Cc_OUT k) = BitVec.ofInt 32 o.y ∧ e.bit (F.MON_Cc_STATUS.SETTLED k) = o.settled ∧
        e.monChan k = { s.dev.monChan k with outs := rest, outTime := o.t } ∧
        (o.settled = true → o.y < (s.dev.asOfTime o.made).getI (F.MON_Cc_LIMIT_LO.V k) → e.get (F.MON_Cc_FLAGS.LO k) = 1 ∧ e.get F.MON_FLAGS.LIMIT = 1) ∧
        (o.settled = true → (s.dev.asOfTime o.made).getI (F.MON_Cc_LIMIT_HI.V k) < o.y → e.get (F.MON_Cc_FLAGS.HI k) = 1 ∧ e.get F.MON_FLAGS.LIMIT = 1) ∧
        (o.gap = true → e.get (F.MON_Cc_FLAGS.GAP k) = 1) ∧
        SameBut [R.MON_Cc_OUT k, R.MON_Cc_STATUS k, R.MON_Cc_FLAGS k, R.MON_FLAGS] [.mon, .evt] s.dev e) ∧
  (∀ (k : Fin 32) (o : MonOut) (rest : List MonOut) (g : Signature) (s : State), ((s.dev.monChan k).outs = o :: rest ∧ (s.dev.monChan k).sig = some g) → (0 ≤ stampDiff o.t g.tCmd ∧ 1000 * ((s.dev.asOfTime o.made).get (F.MON_Cc_SIG.WIN k) : Int) < stampDiff o.t g.tCmd) → 
      ∃ e, exec (.monOutput k) s = .next { s with dev := e } ∧
        (e.monChan k).sig = none ∧ e.get (F.MON_Cc_STATUS.ARMED k) = 0 ∧
        e.get (F.MON_Cc_SIG_FAILS.V k) = min (s.dev.get (F.MON_Cc_SIG_FAILS.V k) + 1) 0xFFFFFFFF ∧
        (if g.opening then e.get (F.MON_Cc_FLAGS.NO_DIP k) else e.get (F.MON_Cc_FLAGS.NO_BUMP k)) = 1) ∧
  (∀ (p : Fin 4) (base : Nat) (s : State), base = wrapN 64 ((((s.dev.mon.lastSlot[p] + 128) % 2 ^ 64 : Nat) : Int) - s.dev.get (F.SPn_DELAY.DELAY p) - 128) → (s.dev.asOfTime ((base + 120) % 2 ^ 64)).bit F.MON_CTRL.EN = true → (∀ k : Fin 32, monPortOf s.dev k ≠ some p.val ∧ ∀ b : Fin 16, monOnPort (s.dev.asOfTime ((base + 8 * b) % 2 ^ 64)) k p = false) → 
      ∃ e, exec (.monSlotGap p) s = .next { s with dev := e } ∧
        e.mon.slots[p] = s.dev.mon.slots[p] + 1 ∧ e.mon.silent[p] = s.dev.mon.silent[p] + 1 ∧ e.mon.slotTimes[p].head? = some base ∧
        e.mon.lastSlot[p] = (s.dev.mon.lastSlot[p] + 128) % 2 ^ 64 ∧ e.mon.chans = s.dev.mon.chans ∧
        SameBut [] [.mon] s.dev e) ∧
  (∀ (s : State), (s.dev.asOfTime s.dev.nowNs).bit F.MON_CTRL.EN = true → 
      ∃ e, exec (.monClkLost) s = .next { s with dev := e } ∧
        e.get F.MON_FLAGS.CLK_LOST = 1 ∧
        (∀ k : Fin 32, monPortOf s.dev k = none → e.get (F.MON_Cc_STATUS.IN_SERVICE k) = 0) ∧
        (∀ k : Fin 32, monPortOf s.dev k ≠ none → e.rd (R.MON_Cc_STATUS k) = s.dev.rd (R.MON_Cc_STATUS k)) ∧
        SameBut (monRegs) [.mon, .evt] s.dev e) ∧
  (∀ (k : Fin 32) (s : State), gateOpen s.dev (R.MON_Cc_OUT k) = true → 
      ∃ e, exec (.monOutRead k) s = .next { s with dev := e } ∧
        e.pair (R.MON_Cc_TIME_LO k) (R.MON_Cc_TIME_HI k) = (s.dev.monChan k).outTime % 2 ^ 64 ∧
        SameBut [R.MON_Cc_TIME_LO k, R.MON_Cc_TIME_HI k] [] s.dev e)

/-- TB_ADJ takes a value within 8,589,935 of zero, else ADJ_REJ is set and it is kept; TB_SLEW replaces the remainder, and SLEW_END passes the
edges that add the whole of it and leaves none. STEP with the line generator stopped and NS below 10^9 loads SEC and NS, clears FRAC and
the slew and passes one TCLK edge; otherwise STEP_REJ is set and the time is kept. A read of TB_TOD_FRAC captures the counter; a read of
TB_TSQ_INFO removes the oldest stamp, or shows VALID 0. PPS_OUT rises at the next whole second with rill 120 where enabled and falls WIDTH
us after it; a PPS_IN edge of the selected polarity held for 4 samples is latched. It rests also on the model's choices of log entries 96,
240. Each clause concludes that exec i s = .next t; so shown to complete: tbAdjWrite, tbSlewWrite, slewEnd, tbStep, todRead, tsqRead,
ppsOutPulse, ppsInEdge. -/
def Obligations.TimeOfDayCommands : Prop :=
  (∀ (value : Word) (s : State), (sx 32 value.toNat).natAbs ≤ 8589935 → gateOpen s.dev (R.TB_ADJ) = true → 
      ∃ e, exec (.tbAdjWrite value) s = .next { s with dev := e } ∧
        e.rd R.TB_ADJ = value ∧ e.tb = s.dev.tb ∧
        SameBut [R.TB_ADJ] [] s.dev e) ∧
  (∀ (value : Word) (s : State), 8589935 < (sx 32 value.toNat).natAbs → gateOpen s.dev (R.TB_ADJ) = true → 
      ∃ e, exec (.tbAdjWrite value) s = .next { s with dev := e } ∧
        e.get F.TB_FLAGS.ADJ_REJ = 1 ∧
        SameBut [R.TB_FLAGS] [.evt] s.dev e) ∧
  (∀ (value : Word) (s : State), gateOpen s.dev (R.TB_SLEW) = true → 
      ∃ e, exec (.tbSlewWrite value) s = .next { s with dev := e } ∧
        e.tb = { s.dev.tb with slew := sx 32 value.toNat * 2 ^ 32 } ∧
        SameBut [] [.tb] s.dev e) ∧
  (∀ (s : State),
      ∃ e, exec (.slewEnd) s = .next { s with dev := e } ∧
        e.tb.slew = 0 ∧
        (s.dev.tb.slew = 0 → e = s.dev) ∧
        (s.dev.tb.slew ≠ 0 → e.tb.edges = s.dev.tb.edges + ceilDiv s.dev.tb.slew.natAbs (slewStep s.dev) ∧ e.tb.tod = Tod.ofUnits ((s.dev.tb.tod.units : Int) + ceilDiv s.dev.tb.slew.natAbs (slewStep s.dev) * tclkInc s.dev + s.dev.tb.slew).toNat) ∧
        SameBut [] [.tb] s.dev e) ∧
  (∀ (value : Word) (s : State), (F.TB_CTRL.STEP.of value = 1 ∧ s.dev.get F.TB_STEP_NS.NS < 1000000000 ∧ s.dev.lining = false) → gateOpen s.dev (R.TB_CTRL) = true → 
      ∃ e, exec (.tbStep value) s = .next { s with dev := e } ∧
        e.tb.tod = { sec := s.dev.get F.TB_STEP_SEC_LO.V + 2 ^ 32 * s.dev.get F.TB_STEP_SEC_HI.V, ns := s.dev.get F.TB_STEP_NS.NS, frac := 0 } ∧
        e.tb.slew = 0 ∧ e.tb.edges = s.dev.tb.edges + 1 ∧ e.get F.TB_CTRL.SLEW_PPM = F.TB_CTRL.SLEW_PPM.of value ∧
        e.tb.ppsLive = (if e.tb.tod.sec = s.dev.tb.tod.sec then s.dev.tb.ppsLive else s.dev.rd R.TB_PPS) ∧
        SameBut [R.TB_CTRL] [.tb] s.dev e) ∧
  (∀ (value : Word) (s : State), (F.TB_CTRL.STEP.of value = 1 ∧ (1000000000 ≤ s.dev.get F.TB_STEP_NS.NS ∨ s.dev.lining = true)) → gateOpen s.dev (R.TB_CTRL) = true → 
      ∃ e, exec (.tbStep value) s = .next { s with dev := e } ∧
        e.get F.TB_FLAGS.STEP_REJ = 1 ∧ e.get F.TB_CTRL.SLEW_PPM = F.TB_CTRL.SLEW_PPM.of value ∧
        SameBut [R.TB_CTRL, R.TB_FLAGS] [.evt] s.dev e) ∧
  (∀ (value : Word) (s : State), F.TB_CTRL.STEP.of value = 0 → gateOpen s.dev (R.TB_CTRL) = true → 
      ∃ e, exec (.tbStep value) s = .next { s with dev := e } ∧
        e.get F.TB_CTRL.SLEW_PPM = F.TB_CTRL.SLEW_PPM.of value ∧
        SameBut [R.TB_CTRL] [] s.dev e) ∧
  (∀ (s : State), gateOpen s.dev (R.TB_TOD_FRAC) = true → 
      ∃ e, exec (.todRead) s = .next { s with dev := e } ∧
        (e.rd R.TB_TOD_FRAC).toNat = s.dev.tb.tod.frac % 2 ^ 32 ∧ (e.rd R.TB_TOD_NS).toNat = s.dev.tb.tod.ns % 2 ^ 32 ∧
        e.pair R.TB_TOD_SEC_LO R.TB_TOD_SEC_HI = s.dev.tb.tod.sec % 2 ^ 64 ∧
        SameBut [R.TB_TOD_FRAC, R.TB_TOD_NS, R.TB_TOD_SEC_LO, R.TB_TOD_SEC_HI] [] s.dev e) ∧
  (∀ (k : TsqEntry) (rest : List TsqEntry) (s : State), (s.dev.tb.tsq = k :: rest ∧ k.msgType < 16 ∧ k.domain < 256 ∧ k.seqId < 65536) → gateOpen s.dev (R.TB_TSQ_INFO) = true → 
      ∃ e, exec (.tsqRead) s = .next { s with dev := e } ∧
        e.tb = { s.dev.tb with tsq := rest } ∧
        e.get F.TB_TSQ_INFO.VALID = 1 ∧ e.bit F.TB_TSQ_INFO.DIR = k.tx ∧ e.get F.TB_TSQ_INFO.MSG_TYPE = k.msgType ∧
        e.get F.TB_TSQ_INFO.DOMAIN = k.domain ∧ e.get F.TB_TSQ_INFO.SEQ_ID = k.seqId ∧
        (e.rd R.TB_TSQ_FRAC).toNat = k.frac % 2 ^ 32 ∧ e.pair R.TB_TSQ_NS_LO R.TB_TSQ_NS_HI = k.ns % 2 ^ 64 ∧
        SameBut [R.TB_TSQ_INFO, R.TB_TSQ_FRAC, R.TB_TSQ_NS_LO, R.TB_TSQ_NS_HI] [.tb] s.dev e) ∧
  (∀ (s : State), s.dev.tb.tsq = [] → gateOpen s.dev (R.TB_TSQ_INFO) = true → 
      ∃ e, exec (.tsqRead) s = .next { s with dev := e } ∧
        e.get F.TB_TSQ_INFO.VALID = 0 ∧
        SameBut [R.TB_TSQ_INFO] [] s.dev e) ∧
  (∀ (s : State), (s.dev.tb.slew = 0 ∧ s.dev.rd R.TB_ADJ = 0 ∧ s.dev.tb.tod = { sec := 3, ns := 999999999, frac := 0 } ∧ s.dev.get F.TB_PPS.OUT_EN = 1) → 
      ∃ e, exec (.ppsOutPulse false) s = .next { s with dev := e } ∧
        e.tb.ppsOut = true ∧ e.tb.tod = { sec := 4, ns := 1, frac := 0 } ∧ e.tb.ppsLive = s.dev.rd R.TB_PPS ∧
        e.evt.inflight = s.dev.evt.inflight ++ [{ rill := 120, stamp := 4000000001 }] ∧
        SameBut [] [.tb, .evt] s.dev e) ∧
  (∀ (s : State),
      ∃ e, exec (.ppsOutPulse true) s = .next { s with dev := e } ∧
        e.tb.ppsOut = false ∧
        (s.dev.tb.ppsOut = false → e = s.dev) ∧
        (s.dev.tb.ppsOut = true → e.tb.tod = (s.dev.elapseTo (s.dev.tb.tod.sec * 1000000000 + 1000 * F.TB_PPS.WIDTH.of s.dev.tb.ppsLive)).tb.tod) ∧
        SameBut [] [.tb] s.dev e) ∧
  (∀ (rising : Bool) (t held : Nat) (s : State), (4 ≤ held ∧ F.TB_PPS.IN_EN.of s.dev.tb.ppsLive = 1 ∧ (rising = true ↔ F.TB_PPS.IN_FALL.of s.dev.tb.ppsLive = 0)) → 
      ∃ e, exec (.ppsInEdge rising t held) s = .next { s with dev := e } ∧
        e.pair R.TB_PPS_IN_LO R.TB_PPS_IN_HI = t % 2 ^ 64 ∧ e.get F.TB_FLAGS.PPS_IN = 1 ∧
        SameBut [R.TB_PPS_IN_LO, R.TB_PPS_IN_HI, R.TB_FLAGS] [.evt] s.dev e) ∧
  (∀ (rising : Bool) (t held : Nat) (s : State), (held < 4 ∨ F.TB_PPS.IN_EN.of s.dev.tb.ppsLive = 0 ∨ ¬ (rising = true ↔ F.TB_PPS.IN_FALL.of s.dev.tb.ppsLive = 0)) → 
      ∃ e, exec (.ppsInEdge rising t held) s = .next { s with dev := e } ∧
        e = s.dev)

/-- LINE_TRIGGER with the generator running and no armed stop before the line first moves the time to the line's instant, makes the line
current - TB_LINE shows its index and the next line follows it - and, in free fall, records its trigger instant as its stamp with speed 0;
then an armed commit applies at its line and every block takes the line. In belt mode the line waits for BELT_STAMP, which takes 1 us more
and records the position and speed of the source axis at the trigger instant, or 0 with NO_POS where the axis has none. Stopped,
LINE_TRIGGER changes nothing. Each clause concludes that exec i s = .next t; so shown to complete: lineTrigger, beltStamp. -/
def Obligations.LineTriggerAndStamps : Prop :=
  (∀ (s : State), s.dev.lining = false → 
      ∃ e, exec (.lineTrigger) s = .next { s with dev := e } ∧
        e = s.dev) ∧
  (∀ (s : State), (s.dev.lining = true ∧ stopsBefore s.dev s.dev.tb.next = false) → (s.dev.asOf s.dev.tb.next).bit F.TB_LINE_CFG.BELT = false → 
      ∃ e, exec (.lineTrigger) s = .next { s with dev := lineReaches (applyAt (commitLine e s.dev.tb.next) s.dev.tb.next (tLine s.dev s.dev.tb.next)) s.dev.tb.next (tLine s.dev s.dev.tb.next) } ∧
        e.tb.count = s.dev.tb.next ∧ e.tb.next = s.dev.tb.next + 1 ∧ e.get F.TB_LINE.L = lineOf s.dev.tb.next ∧
        e.tb.stamps.head? = some { count := s.dev.tb.next, t := tLine s.dev s.dev.tb.next, ts := tLine s.dev s.dev.tb.next, speed := 0 } ∧
        e.tb.tod = (s.dev.elapseTo (tLine s.dev s.dev.tb.next)).tb.tod ∧ e.tb.edges = (s.dev.elapseTo (tLine s.dev s.dev.tb.next)).tb.edges ∧
        SameBut [R.TB_LINE] [.tb] s.dev e) ∧
  (∀ (s : State), (s.dev.lining = true ∧ stopsBefore s.dev s.dev.tb.next = false) → ((s.dev.asOf s.dev.tb.next).bit F.TB_LINE_CFG.BELT = true ∧ stampOf s.dev s.dev.tb.next = none) → 
      ∃ e, exec (.lineTrigger) s = .next { s with dev := lineReaches (applyAt (commitLine e s.dev.tb.next) s.dev.tb.next (tLine s.dev s.dev.tb.next)) s.dev.tb.next (tLine s.dev s.dev.tb.next) } ∧
        e.tb.count = s.dev.tb.next ∧ e.tb.next = s.dev.tb.next + 1 ∧ e.get F.TB_LINE.L = lineOf s.dev.tb.next ∧
        e.tb.unstamped = s.dev.tb.unstamped ++ [(s.dev.tb.next, tLine s.dev s.dev.tb.next)] ∧ e.tb.stamps = s.dev.tb.stamps ∧
        SameBut [R.TB_LINE] [.tb] s.dev e) ∧
  (∀ (k : Int) (t : Nat) (rest : List (Int × Nat)) (o : Observer) (s : State), (s.dev.tb.unstamped = (k, t) :: rest ∧ ownStamps s.dev = true ∧ privateUp s.dev = false ∧ s.dev.slu.old = none ∧ s.dev.sluState ≠ sluArmed) → obsKnown s.dev (s.dev.get F.TB_LINE_CFG.AXIS) t = some o → 
      ∃ e, exec (.beltStamp) s = .next { s with dev := e } ∧
        e.tb.unstamped = rest ∧ e.tb.stamps.head? = some { count := k, t := t, ts := posAt o t, speed := velAt o t } ∧
        e.tb.tod = (s.dev.elapseTo (t + 1000)).tb.tod ∧
        SameBut [] [.tb] s.dev e) ∧
  (∀ (k : Int) (t : Nat) (rest : List (Int × Nat)) (s : State), (s.dev.tb.unstamped = (k, t) :: rest ∧ ownStamps s.dev = true ∧ privateUp s.dev = false ∧ s.dev.slu.old = none ∧ s.dev.sluState ≠ sluArmed) → obsKnown s.dev (s.dev.get F.TB_LINE_CFG.AXIS) t = none → 
      ∃ e, exec (.beltStamp) s = .next { s with dev := e } ∧
        e.tb.unstamped = rest ∧ e.tb.stamps.head? = some { count := k, t := t, ts := 0, speed := 0 } ∧ e.get F.TB_FLAGS.NO_POS = 1 ∧
        SameBut [R.TB_FLAGS] [.tb, .evt] s.dev e)

/-- ARM with STOP 0 on an unarmed SINGLE pin of non-zero WIDTH whose start lies ahead arms it with that one pulse; WIDTH 0 sets CFG_REJ; an
armed pin ignores it. TIO_PULSE_START moves the time to the earliest start, and the pin is active until the later end; TIO_PULSE_END moves
the time to the end, and a SINGLE pin with no pulse left disarms. STOP disarms and drops every pulse. A captured edge that EDGE selects
joins the FIFO of 16, fires the pin's rill and sets CAP, or CAP_OVF when full; a read of CAP_LO removes the oldest. A configuration write
of an armed pin sets CFG_REJ and changes nothing else; unarmed it stores the register. It rests also on the model's choices of log entry
101. Each clause concludes that exec i s = .next t; so shown to complete: tioArm, tioStop, tioPulseStart, tioPulseEnd, tioCaptureEdge,
tioCapRead, tioCfgWrite. -/
def Obligations.TimedInputOutput : Prop :=
  (∀ (p : Fin 16) (value : Word) (s : State), ((F.TIO_Pn_CTRL.STOP p).of value = 0 ∧ (F.TIO_Pn_CTRL.ARM p).of value = 1 ∧ tioArmed s.dev p = false ∧ tioForced s.dev = false) → (tioMode s.dev p = tioSingle ∧ tioWidth s.dev p ≠ 0 ∧ stampBefore (tioStartAt s.dev p) s.dev.nowNs = false) → gateOpen s.dev (R.TIO_Pn_CTRL p) = true → 
      ∃ e, exec (.tioArm p value) s = .next { s with dev := e } ∧
        e.get (F.TIO_Pn_STATUS.ARMED p) = 1 ∧
        (e.tio p).pulses = [(tioStartAt s.dev p, (tioStartAt s.dev p + tioWidth s.dev p) % 2 ^ 64)] ∧ (e.tio p).atSafe = false ∧ (e.tio p).fifo = (s.dev.tio p).fifo ∧
        SameBut [R.TIO_Pn_STATUS p] [.tb] s.dev e) ∧
  (∀ (p : Fin 16) (value : Word) (s : State), ((F.TIO_Pn_CTRL.STOP p).of value = 0 ∧ (F.TIO_Pn_CTRL.ARM p).of value = 1 ∧ tioArmed s.dev p = false ∧ tioWidth s.dev p = 0) → gateOpen s.dev (R.TIO_Pn_CTRL p) = true → 
      ∃ e, exec (.tioArm p value) s = .next { s with dev := e } ∧
        e.get (F.TIO_Pn_FLAGS.CFG_REJ p) = 1 ∧
        SameBut [R.TIO_Pn_FLAGS p] [.evt] s.dev e) ∧
  (∀ (p : Fin 16) (value : Word) (s : State), (F.TIO_Pn_CTRL.STOP p).of value = 0 ∧ ((F.TIO_Pn_CTRL.ARM p).of value = 0 ∨ tioArmed s.dev p = true) → gateOpen s.dev (R.TIO_Pn_CTRL p) = true → 
      ∃ e, exec (.tioArm p value) s = .next { s with dev := e } ∧
        e = s.dev) ∧
  (∀ (p : Fin 16) (value : Word) (s : State), ((F.TIO_Pn_CTRL.STOP p).of value = 1 ∧ tioArmed s.dev p = true) → gateOpen s.dev (R.TIO_Pn_CTRL p) = true → 
      ∃ e, exec (.tioArm p value) s = .next { s with dev := e } ∧
        e.get (F.TIO_Pn_STATUS.ARMED p) = 0 ∧ (e.tio p).pulses = [] ∧
        SameBut [R.TIO_Pn_STATUS p] [.tb] s.dev e) ∧
  (∀ (p : Fin 16) (s : State), tioArmed s.dev p = true → gateOpen s.dev (R.TIO_Pn_CTRL p) = true → 
      ∃ e, exec (.tioStop p) s = .next { s with dev := e } ∧
        e.get (F.TIO_Pn_STATUS.ARMED p) = 0 ∧ e.get (F.TIO_Pn_STATUS.ACTIVE p) = 0 ∧ (e.tio p).pulses = [] ∧ (e.tio p).endAt = none ∧ (e.tio p).line = none ∧
        (e.tio p).fifo = (s.dev.tio p).fifo ∧
        SameBut [R.TIO_Pn_STATUS p] [.tb] s.dev e) ∧
  (∀ (p : Fin 16) (a : Nat) (b : Nat) (s : State), (tioArmed s.dev p = true ∧ tioMode s.dev p ≠ tioPeriodic ∧ (s.dev.tio p).line = none ∧ (s.dev.tio p).pulses = [(a, b)]) → 
      ∃ e, exec (.tioPulseStart p) s = .next { s with dev := e } ∧
        e.get (F.TIO_Pn_STATUS.ACTIVE p) = 1 ∧ (e.tio p).pulses = [] ∧
        ((e.tio p).endAt = some (match (s.dev.tio p).endAt with | some k => if stampBefore b k then k else b | none => b)) ∧
        e.tb.tod = (s.dev.elapseTo a).tb.tod ∧
        SameBut [R.TIO_Pn_STATUS p] [.tb] s.dev e) ∧
  (∀ (p : Fin 16) (b : Nat) (s : State), (tioMode s.dev p = tioSingle ∧ (s.dev.tio p).pulses = [] ∧ (s.dev.tio p).endAt = some b) → 
      ∃ e, exec (.tioPulseEnd p) s = .next { s with dev := e } ∧
        e.get (F.TIO_Pn_STATUS.ACTIVE p) = 0 ∧ e.get (F.TIO_Pn_STATUS.ARMED p) = 0 ∧ (e.tio p).endAt = none ∧
        e.tb.tod = (s.dev.elapseTo b).tb.tod ∧
        SameBut [R.TIO_Pn_STATUS p] [.tb] s.dev e) ∧
  (∀ (p : Fin 16) (rising : Bool) (t held : Nat) (s : State), (s.dev.get (F.TIO_Pn_CFG.FILT p) < held ∧ s.dev.resetting 5 = false) → (tioMode s.dev p = tioCapture ∧ bitAt (s.dev.get (F.TIO_Pn_CFG.EDGE p)) (if xor rising (s.dev.bit (F.TIO_Pn_CFG.INV p)) then 0 else 1) = true) → (s.dev.tio p).fifo.length < 16 → 
      ∃ e, exec (.tioCaptureEdge p rising t held) s = .next { s with dev := e } ∧
        (e.tio p).fifo = (s.dev.tio p).fifo ++ [(t % 2 ^ 64, xor rising (s.dev.bit (F.TIO_Pn_CFG.INV p)))] ∧
        e.get (F.TIO_Pn_STATUS.CAP_LEVEL p) = (s.dev.tio p).fifo.length + 1 ∧ e.get (F.TIO_Pn_FLAGS.CAP p) = 1 ∧
        e.evt.inflight = s.dev.evt.inflight ++ [{ rill := 121 + p, stamp := t % 2 ^ 64 }] ∧
        SameBut [R.TIO_Pn_STATUS p, R.TIO_Pn_FLAGS p] [.tb, .evt] s.dev e) ∧
  (∀ (p : Fin 16) (rising : Bool) (t held : Nat) (s : State), (s.dev.get (F.TIO_Pn_CFG.FILT p) < held ∧ s.dev.resetting 5 = false) → (tioMode s.dev p = tioCapture ∧ bitAt (s.dev.get (F.TIO_Pn_CFG.EDGE p)) (if xor rising (s.dev.bit (F.TIO_Pn_CFG.INV p)) then 0 else 1) = true) → 16 ≤ (s.dev.tio p).fifo.length → 
      ∃ e, exec (.tioCaptureEdge p rising t held) s = .next { s with dev := e } ∧
        e.get (F.TIO_Pn_FLAGS.CAP_OVF p) = 1 ∧
        SameBut [R.TIO_Pn_FLAGS p] [.evt] s.dev e) ∧
  (∀ (p : Fin 16) (rising : Bool) (t held : Nat) (s : State), (held ≤ s.dev.get (F.TIO_Pn_CFG.FILT p) ∨ tioMode s.dev p ≠ tioCapture ∨ s.dev.resetting 5 = true) → 
      ∃ e, exec (.tioCaptureEdge p rising t held) s = .next { s with dev := e } ∧
        e = s.dev) ∧
  (∀ (p : Fin 16) (t : Nat) (rise : Bool) (rest : List (Nat × Bool)) (s : State), ((s.dev.tio p).fifo = (t, rise) :: rest ∧ rest.length < 32) → gateOpen s.dev (R.TIO_Pn_CAP_LO p) = true → 
      ∃ e, exec (.tioCapRead p) s = .next { s with dev := e } ∧
        (e.tio p).fifo = rest ∧ e.get (F.TIO_Pn_STATUS.CAP_LEVEL p) = rest.length ∧
        (e.rd (R.TIO_Pn_CAP_LO p)).toNat = t % 2 ^ 32 ∧ e.get (F.TIO_Pn_CAP_HI.V p) = t / 2 ^ 32 % 2 ^ 31 ∧ e.bit (F.TIO_Pn_CAP_HI.RISE p) = rise ∧
        SameBut [R.TIO_Pn_STATUS p, R.TIO_Pn_CAP_LO p, R.TIO_Pn_CAP_HI p] [.tb] s.dev e) ∧
  (∀ (p : Fin 16) (k : Fin 8) (value : Word) (s : State), tioArmed s.dev p = true → gateOpen s.dev (R.TIO_Pn_CFG p + 4 * k) = true → 
      ∃ e, exec (.tioCfgWrite p k value) s = .next { s with dev := e } ∧
        e.get (F.TIO_Pn_FLAGS.CFG_REJ p) = 1 ∧
        SameBut [R.TIO_Pn_FLAGS p] [.evt] s.dev e) ∧
  (∀ (p : Fin 16) (k : Fin 8) (value : Word) (s : State), (tioArmed s.dev p = false ∧ 0 < k.val) → gateOpen s.dev (R.TIO_Pn_CFG p + 4 * k) = true → 
      ∃ e, exec (.tioCfgWrite p k value) s = .next { s with dev := e } ∧
        e.rd (R.TIO_Pn_CFG p + 4 * k) = (if k.val = 7 then value &&& 0x0FFF0FFF else value) ∧
        SameBut [R.TIO_Pn_CFG p + 4 * k] [] s.dev e) ∧
  (∀ (p : Fin 16) (value : Word) (s : State), tioArmed s.dev p = false → gateOpen s.dev (R.TIO_Pn_CFG p + 4 * 0) = true → 
      ∃ e, exec (.tioCfgWrite p 0 value) s = .next { s with dev := e } ∧
        e.get (F.TIO_Pn_CFG.MODE p) = (if (F.TIO_Pn_CFG.MODE p).of value = 7 then 0 else (F.TIO_Pn_CFG.MODE p).of value) ∧
        (s.dev.bit F.TIO_LOCK.LOCK = true → e.get (F.TIO_Pn_CFG.SAFE p) = s.dev.get (F.TIO_Pn_CFG.SAFE p)) ∧
        SameBut [R.TIO_Pn_CFG p, R.TIO_Pn_STATUS p] [.tb] s.dev e)

/-- For every access whose address lies in no area and no register of the control view (and which the core itself does not stop as
misaligned), REGISTER_WRITE (also a store-conditional that still holds its reservation) and RC_COUNTER_READ both complete with a bus error
answered and no data; nothing changes but the answer, the latch of CORE_BUSERR, a core's own trap registers and reservation and, for the
debug module, its error bit: no other core, no cache and no claim changes. Each clause concludes that exec i s = .next t; so shown to
complete: registerWrite, rcCounterRead. -/
def Obligations.UnassignedAddressIsABusError : Prop :=
  (∀ (a : Access) (value : DWord) (hwSet : Word) (s : State), (a.kind ≠ .conditional ∧ a.kind ≠ .fenceI ∧ a.kind ≠ .csr) → (areaAt s.dev a.addr = none ∧ misaligned (masterId a.master) a.addr a.width = false ∧ s.dev.boot.phase ≠ .reset) → coreStops a true s.dev = none → 
      ∃ e, exec (.registerWrite a value hwSet) s = .next { s with dev := e } ∧
        e.cores.busError = true ∧
        (e.cores = { s.dev.cores with core := e.cores.core, busError := true, reply := 0, dbgm := if a.master = .debug then { s.dev.cores.dbgm with sberror := true } else s.dev.cores.dbgm, latched := e.cores.latched }) ∧
        (∀ k : Fin 4, (a.master ≠ .core k → e.core k = s.dev.core k) ∧ (e.core k).dcache = (s.dev.core k).dcache ∧ (e.core k).icache = (s.dev.core k).icache) ∧
        SameBut (busErrorRegs) [.cores, .fresh] s.dev e) ∧
  (∀ (a : Access) (n : Fin 4) (value : DWord) (s : State), (a.master = .core n ∧ a.kind = .conditional ∧ s.dev.resv.contains (n.val, a.addr / 64) = true) → (areaAt s.dev a.addr = none ∧ misaligned n a.addr a.width = false ∧ s.dev.boot.phase ≠ .reset) → coreStops a true s.dev = none → 
      ∃ e, exec (.registerWrite a value 0) s = .next { s with dev := e } ∧
        e.cores.busError = true ∧ e.resv = s.dev.resv.filter (fun r => r.1 ≠ n.val) ∧
        (e.cores = { s.dev.cores with core := e.cores.core, busError := true, reply := 0, dbgm := if a.master = .debug then { s.dev.cores.dbgm with sberror := true } else s.dev.cores.dbgm, latched := e.cores.latched }) ∧
        (∀ k : Fin 4, (a.master ≠ .core k → e.core k = s.dev.core k) ∧ (e.core k).dcache = (s.dev.core k).dcache ∧ (e.core k).icache = (s.dev.core k).icache) ∧
        SameBut (busErrorRegs) [.cores, .fresh, .resv] s.dev e) ∧
  (∀ (a : Access) (k : Nat) (s : State), (a.kind ≠ .fenceI ∧ a.kind ≠ .csr) → (areaAt s.dev a.addr = none ∧ misaligned (masterId a.master) a.addr a.width = false ∧ s.dev.boot.phase ≠ .reset) → coreStops a false s.dev = none → 
      ∃ e, exec (.rcCounterRead a k) s = .next { s with dev := e } ∧
        e.cores.busError = true ∧ e.cores.reply = 0 ∧
        (e.cores = { s.dev.cores with core := e.cores.core, busError := true, reply := 0, dbgm := if a.master = .debug then { s.dev.cores.dbgm with sberror := true } else s.dev.cores.dbgm, latched := e.cores.latched }) ∧
        (∀ k : Fin 4, (a.master ≠ .core k → e.core k = s.dev.core k) ∧ (e.core k).dcache = (s.dev.core k).dcache ∧ (e.core k).icache = (s.dev.core k).icache) ∧
        SameBut (busErrorRegs) [.cores, .fresh] s.dev e)

/-- While RSV_POWER shows the Judgement region or the capture block as down, every read and write of an address in it completes with a bus
error, and neither its power state nor anything else changes but the answer, the latch of CORE_BUSERR and a core's own trap registers.
Each clause concludes that exec i s = .next t; so shown to complete: registerWrite, rcCounterRead. -/
def Obligations.PoweredDownBlockIsABusError : Prop :=
  (∀ (a : Access) (value : DWord) (hwSet : Word) (s : State), (a.kind ≠ .conditional ∧ a.kind ≠ .fenceI ∧ a.kind ≠ .csr) → (poweredDown s.dev a.addr = true ∧ misaligned (masterId a.master) a.addr a.width = false ∧ s.dev.boot.phase ≠ .reset) → coreStops a true s.dev = none → 
      ∃ e, exec (.registerWrite a value hwSet) s = .next { s with dev := e } ∧
        e.cores.busError = true ∧ e.rd R.RSV_POWER = s.dev.rd R.RSV_POWER ∧
        (e.cores = { s.dev.cores with core := e.cores.core, busError := true, reply := 0, dbgm := if a.master = .debug then { s.dev.cores.dbgm with sberror := true } else s.dev.cores.dbgm, latched := e.cores.latched }) ∧
        (∀ k : Fin 4, (a.master ≠ .core k → e.core k = s.dev.core k) ∧ (e.core k).dcache = (s.dev.core k).dcache ∧ (e.core k).icache = (s.dev.core k).icache) ∧
        SameBut (busErrorRegs) [.cores, .fresh] s.dev e) ∧
  (∀ (a : Access) (k : Nat) (s : State), (a.kind ≠ .fenceI ∧ a.kind ≠ .csr) → (poweredDown s.dev a.addr = true ∧ misaligned (masterId a.master) a.addr a.width = false ∧ s.dev.boot.phase ≠ .reset) → coreStops a false s.dev = none → 
      ∃ e, exec (.rcCounterRead a k) s = .next { s with dev := e } ∧
        e.cores.busError = true ∧ e.cores.reply = 0 ∧ e.rd R.RSV_POWER = s.dev.rd R.RSV_POWER ∧
        (e.cores = { s.dev.cores with core := e.cores.core, busError := true, reply := 0, dbgm := if a.master = .debug then { s.dev.cores.dbgm with sberror := true } else s.dev.cores.dbgm, latched := e.cores.latched }) ∧
        (∀ k : Fin 4, (a.master ≠ .core k → e.core k = s.dev.core k) ∧ (e.core k).dcache = (s.dev.core k).dcache ∧ (e.core k).icache = (s.dev.core k).icache) ∧
        SameBut (busErrorRegs) [.cores, .fresh] s.dev e)

/-- A register write that reaches a W1C register without an action of its own leaves every W1C bit set that the hardware sets in the same
cycle, whatever the value written, and clears the other W1C bits written 1. A read of a read-to-clear counter in the same cycle as one
hardware increment returns the value before the increment, and the counter then holds 1. Each clause concludes that exec i s = .next t; so
shown to complete: registerWrite, rcCounterRead. -/
def Obligations.SameCycleSetAndIncrement : Prop :=
  (∀ (a : Access) (value : DWord) (hwSet : Word) (r : RegDesc) (i : Fin 32) (s : State), (areaAt s.dev a.addr = some (.reg r) ∧ misaligned (masterId a.master) a.addr a.width = false ∧ s.dev.boot.phase ≠ .reset ∧ accessCause s.dev a.addr a.width (a.kind == .atomic) = none ∧ (a.kind = .plain ∨ a.kind = .atomic)) → writeActs (masterId a.master) (ownerOf (masterId a.master) a.session) a.addr r (BitVec.ofNat 32 value.toNat) hwSet ((latchPlic s.dev).reply 0) = none → (bitAt r.w1c i = true ∧ r.rws = 0) → coreStops a true s.dev = none → 
      ∃ e, exec (.registerWrite a value hwSet) s = .next { s with dev := e } ∧
        (bitAt hwSet.toNat i = true → bitAt (e.rd a.addr).toNat i = true) ∧
        (bitAt hwSet.toNat i = false → bitAt value.toNat i = true → bitAt (e.rd a.addr).toNat i = false) ∧
        (bitAt hwSet.toNat i = false → bitAt value.toNat i = false → bitAt (e.rd a.addr).toNat i = bitAt (s.dev.rd a.addr).toNat i) ∧
        e.cores.busError = false ∧
        SameBut [a.addr] [.cores, .evt] s.dev e) ∧
  (∀ (a : Access) (r : RegDesc) (s : State), (areaAt s.dev a.addr = some (.reg r) ∧ misaligned (masterId a.master) a.addr a.width = false ∧ s.dev.boot.phase ≠ .reset ∧ accessCause s.dev a.addr a.width (a.kind == .atomic) = none ∧ (a.kind = .plain ∨ a.kind = .atomic)) → r.rc = 0xFFFFFFFF → coreStops a false s.dev = none → 
      ∃ e, exec (.rcCounterRead a 1) s = .next { s with dev := e } ∧
        e.cores.reply = (s.dev.rd a.addr).toNat ∧ (e.rd a.addr).toNat = 1 ∧ e.cores.busError = false ∧
        SameBut [a.addr] [.cores, .eth] s.dev e)

/-- REGISTER_WRITE of a register without an action or staged field of its own gives it the written value in its RW bits and in its RWL bits
while they are unlocked, clears the W1C bits written 1 and keeps every other bit. TABLE_WINDOW_WRITE outside every live footprint,
NODE_WINDOW_WRITE of a word no live tree reaches and WEIGHTS_WINDOW_WRITE of bytes no live layer uses store the word's bytes; into live
content they end with a bus error of cause 3 and store nothing; an address outside the command's window changes nothing. A 32-bit store of
a core to SRAM goes to the line in its own data cache, which the coherent caches then answer with; no other core keeps the line, every
reservation of it is lost, and memory is unchanged. Each clause concludes that exec i s = .next t; so shown to complete: registerWrite,
tableWindowWrite, nodeWindowWrite, weightsWindowWrite. -/
def Obligations.RegisterAndWindowWrites : Prop :=
  (∀ (a : Access) (value : DWord) (r : RegDesc) (t : Word) (s : State), (areaAt s.dev a.addr = some (.reg r) ∧ misaligned (masterId a.master) a.addr a.width = false ∧ s.dev.boot.phase ≠ .reset ∧ accessCause s.dev a.addr a.width (a.kind == .atomic) = none ∧ (a.kind = .plain ∨ a.kind = .atomic)) → (writeActs (masterId a.master) (ownerOf (masterId a.master) a.session) a.addr r (BitVec.ofNat 32 value.toNat) 0 ((latchPlic s.dev).reply 0) = none ∧ r.rws = 0) → t = BitVec.ofNat 32 r.rw ||| (if regLocked s.dev a.addr then 0 else BitVec.ofNat 32 r.rwl) → coreStops a true s.dev = none → 
      ∃ e, exec (.registerWrite a value 0) s = .next { s with dev := e } ∧
        e.rd a.addr = ((s.dev.rd a.addr &&& ~~~ t) ||| (BitVec.ofNat 32 value.toNat &&& t)) &&& ~~~ (BitVec.ofNat 32 value.toNat &&& BitVec.ofNat 32 r.w1c) ∧
        e.cores.busError = false ∧
        SameBut [a.addr] [.cores] s.dev e) ∧
  (∀ (a : Access) (value : Word) (s : State), (0x21000000 ≤ a.addr ∧ a.addr < 0x21200000 ∧ a.width = 4 ∧ a.addr % 4 = 0 ∧ a.kind = .plain ∧ s.dev.boot.phase ≠ .reset ∧ s.dev.resetting 2 = false) → footLive s.dev ((a.addr - 0x21000000) / 4) = false → coreStops a true s.dev = none → 
      ∃ e, exec (.tableWindowWrite a value) s = .next { s with dev := e } ∧
        e.num a.addr 4 = value.toNat ∧ e.cores.busError = false ∧
        SameButMem [] [.resv, .cores] ([(a.addr, 4), (baseAddr s.dev ((a.addr - 0x21000000) / 4), 4), (setAddr s.dev ((a.addr - 0x21000000) / 4), 8)]) s.dev e) ∧
  (∀ (a : Access) (value : Word) (s : State), (0x21000000 ≤ a.addr ∧ a.addr < 0x21200000 ∧ a.width = 4 ∧ a.addr % 4 = 0 ∧ a.kind = .plain ∧ s.dev.boot.phase ≠ .reset ∧ s.dev.resetting 2 = false) → footLive s.dev ((a.addr - 0x21000000) / 4) = true → coreStops a true s.dev = none → 
      ∃ e, exec (.tableWindowWrite a value) s = .next { s with dev := e } ∧
        (e.cores.busError = true ∧ (s.dev.bit F.CORE_BUSERR_INFO.VALID = false → e.get F.CORE_BUSERR_INFO.CAUSE = causeRefused)) ∧
        SameBut (busErrorRegs) [.cores, .fresh] s.dev e) ∧
  (∀ (a : Access) (value : Word) (s : State), (a.addr < 0x21000000 ∨ 0x21200000 ≤ a.addr) → 
      ∃ e, exec (.tableWindowWrite a value) s = .next { s with dev := e } ∧
        e = s.dev) ∧
  (∀ (a : Access) (value : Word) (s : State), (0x41000000 ≤ a.addr ∧ a.addr < 0x41100000 ∧ a.width = 4 ∧ a.addr % 4 = 0 ∧ a.kind = .plain ∧ s.dev.boot.phase ≠ .reset ∧ s.dev.resetting 4 = false) → (poweredDown s.dev a.addr = false ∧ nodeLive s.dev ((a.addr - nodeBase) / 8) = false) → coreStops a true s.dev = none → 
      ∃ e, exec (.nodeWindowWrite a value) s = .next { s with dev := e } ∧
        e.num a.addr 4 = value.toNat ∧ e.cores.busError = false ∧
        (s.dev.sluState ≠ sluOpen → a.addr ∈ e.slu.written) ∧
        SameButMem [] [.resv, .cores, .slu] ([(a.addr, 4)]) s.dev e) ∧
  (∀ (a : Access) (value : Word) (s : State), (0x41000000 ≤ a.addr ∧ a.addr < 0x41100000 ∧ a.width = 4 ∧ a.addr % 4 = 0 ∧ a.kind = .plain ∧ s.dev.boot.phase ≠ .reset ∧ s.dev.resetting 4 = false) → (poweredDown s.dev a.addr = false ∧ nodeLive s.dev ((a.addr - nodeBase) / 8) = true) → coreStops a true s.dev = none → 
      ∃ e, exec (.nodeWindowWrite a value) s = .next { s with dev := e } ∧
        (e.cores.busError = true ∧ (s.dev.bit F.CORE_BUSERR_INFO.VALID = false → e.get F.CORE_BUSERR_INFO.CAUSE = causeRefused)) ∧
        SameBut (busErrorRegs) [.cores, .fresh] s.dev e) ∧
  (∀ (a : Access) (value : Word) (s : State), (0x42000000 ≤ a.addr ∧ a.addr < 0x42400000 ∧ a.width = 4 ∧ a.addr % 4 = 0 ∧ a.kind = .plain ∧ s.dev.boot.phase ≠ .reset ∧ s.dev.resetting 4 = false) → (poweredDown s.dev a.addr = false ∧ (∀ i : Fin 4, weightLive s.dev (a.addr + i - weightBase) = false)) → coreStops a true s.dev = none → 
      ∃ e, exec (.weightsWindowWrite a value) s = .next { s with dev := e } ∧
        e.num a.addr 4 = value.toNat ∧ e.cores.busError = false ∧
        (s.dev.sluState ≠ sluOpen → a.addr ∈ e.slu.written ∧ a.addr + 3 ∈ e.slu.written) ∧
        SameButMem [] [.resv, .cores, .slu] ([(a.addr, 4)]) s.dev e) ∧
  (∀ (a : Access) (value : Word) (s : State), (0x42000000 ≤ a.addr ∧ a.addr < 0x42400000 ∧ a.width = 4 ∧ a.addr % 4 = 0 ∧ a.kind = .plain ∧ s.dev.boot.phase ≠ .reset ∧ s.dev.resetting 4 = false) → (poweredDown s.dev a.addr = false ∧ (∃ i : Fin 4, weightLive s.dev (a.addr + i - weightBase) = true)) → coreStops a true s.dev = none → 
      ∃ e, exec (.weightsWindowWrite a value) s = .next { s with dev := e } ∧
        (e.cores.busError = true ∧ (s.dev.bit F.CORE_BUSERR_INFO.VALID = false → e.get F.CORE_BUSERR_INFO.CAUSE = causeRefused)) ∧
        SameBut (busErrorRegs) [.cores, .fresh] s.dev e) ∧
  (∀ (a : Access) (value : Word) (s : State), (a.addr < 0x41000000 ∨ 0x41100000 ≤ a.addr) → 
      ∃ e, exec (.nodeWindowWrite a value) s = .next { s with dev := e } ∧
        e = s.dev) ∧
  (∀ (a : Access) (value : Word) (s : State), (a.addr < 0x42000000 ∨ 0x42400000 ≤ a.addr) → 
      ∃ e, exec (.weightsWindowWrite a value) s = .next { s with dev := e } ∧
        e = s.dev) ∧
  (∀ (a : Access) (value : DWord) (n : Fin 4) (s : State), (a.master = .core n ∧ a.kind = .plain ∧ 0x80000000 ≤ a.addr ∧ a.addr + 4 ≤ 0x80200000 ∧ a.width = 4 ∧ a.addr % 4 = 0 ∧ s.dev.boot.phase ≠ .reset ∧ s.dev.resetting 1 = false) → ((∀ m : Fin 4, (s.dev.core m).dcache.all (fun l => l.bytes.length == 64) = true) ∧ (s.dev.core n).dcache.length < cacheLines) → coreStops a true s.dev = none → 
      ∃ e, exec (.registerWrite a value 0) s = .next { s with dev := e } ∧
        cachedBytes (e.core n).dcache a.addr 4 = leBytes 4 value.toNat ∧ e.cores.busError = false ∧
        ((coherentLine e (a.addr / 64)).drop (a.addr % 64)).take 4 = leBytes 4 value.toNat ∧
        ((∀ m : Fin 4, m ≠ n → lineIn (e.core m).dcache (a.addr / 64) = none) ∧ e.resv = s.dev.resv.filter (fun r => r.2 ≠ a.addr / 64)) ∧
        SameBut [] [.cores, .resv] s.dev e)

/-- MBX_WRITE by the sender stores the word and sets FULL, and over a full channel also COLLISION, counted. MBX_READ by the receiver of a full
channel returns the word and clears FULL; of an empty one it returns 0 and sets EMPTY_RD. By any other master, or with EN = 0, both end
with a bus error, change no word and set BIND_ERR. LOCK_FORCE releases each lock of a written 1 bit, whoever owns it, sets FORCED with any
written 1, and leaves the other locks. It rests also on the model's choices of log entry 147. Each clause concludes that exec i s = .next
t; so shown to complete: mbxWrite, mbxRead, lockForce. -/
def Obligations.MailboxesAndForcedLocks : Prop :=
  (∀ (m : Master) (k : Fin 32) (value : Word) (s : State), (s.dev.bit (F.MBXk_BIND.EN k) = true ∧ s.dev.get (F.MBXk_BIND.SENDER k) = masterId m) → gateOpen s.dev (R.MBXk_DATA k) = true → 
      ∃ e, exec (.mbxWrite m k value) s = .next { s with dev := e } ∧
        e.rd (R.MBXk_DATA k) = value ∧ e.get (F.MBXk_STATUS.FULL k) = 1 ∧ e.cores.busError = false ∧
        (s.dev.get (F.MBXk_STATUS.FULL k) = 1 → e.get (F.MBXk_STATUS.COLLISION k) = 1 ∧ e.get (F.MBXk_COLLISIONS.COUNT k) = min (s.dev.get (F.MBXk_COLLISIONS.COUNT k) + 1) (2 ^ ((F.MBXk_COLLISIONS.COUNT k).hi + 1 - (F.MBXk_COLLISIONS.COUNT k).lo) - 1)) ∧
        (s.dev.get (F.MBXk_STATUS.FULL k) = 0 → e.get (F.MBXk_STATUS.COLLISION k) = s.dev.get (F.MBXk_STATUS.COLLISION k)) ∧
        SameBut [R.MBXk_DATA k, R.MBXk_STATUS k, R.MBXk_COLLISIONS k] [.cores, .evt] s.dev e) ∧
  (∀ (m : Master) (k : Fin 32) (s : State), (s.dev.bit (F.MBXk_BIND.EN k) = true ∧ s.dev.get (F.MBXk_BIND.RECEIVER k) = masterId m) → gateOpen s.dev (R.MBXk_DATA k) = true → 
      ∃ e, exec (.mbxRead m k) s = .next { s with dev := e } ∧
        e.cores.reply = (if s.dev.bit (F.MBXk_STATUS.FULL k) then (s.dev.rd (R.MBXk_DATA k)).toNat else 0) ∧ e.cores.busError = false ∧
        e.get (F.MBXk_STATUS.FULL k) = 0 ∧
        (s.dev.get (F.MBXk_STATUS.FULL k) = 0 → e.get (F.MBXk_STATUS.EMPTY_RD k) = 1) ∧
        SameBut [R.MBXk_STATUS k] [.cores] s.dev e) ∧
  (∀ (m : Master) (k : Fin 32) (value : Word) (s : State), (s.dev.bit (F.MBXk_BIND.EN k) = false ∨ s.dev.get (F.MBXk_BIND.SENDER k) ≠ masterId m) → gateOpen s.dev (R.MBXk_DATA k) = true → 
      ∃ e, exec (.mbxWrite m k value) s = .next { s with dev := e } ∧
        e.get (F.MBXk_STATUS.BIND_ERR k) = 1 ∧ e.cores.busError = true ∧
        SameBut (busErrorRegs ++ [R.MBXk_STATUS k]) [.cores, .fresh] s.dev e) ∧
  (∀ (m : Master) (k : Fin 32) (s : State), (s.dev.bit (F.MBXk_BIND.EN k) = false ∨ s.dev.get (F.MBXk_BIND.RECEIVER k) ≠ masterId m) → gateOpen s.dev (R.MBXk_DATA k) = true → 
      ∃ e, exec (.mbxRead m k) s = .next { s with dev := e } ∧
        e.get (F.MBXk_STATUS.BIND_ERR k) = 1 ∧ e.cores.busError = true ∧ e.cores.reply = 0 ∧
        SameBut (busErrorRegs ++ [R.MBXk_STATUS k]) [.cores, .fresh] s.dev e) ∧
  (∀ (hi : Bool) (value : Word) (s : State), gateOpen s.dev (R.LCK_FORCE_LO) = true → 
      ∃ e, exec (.lockForce hi value) s = .next { s with dev := e } ∧
        (∀ i : Fin 32, bitAt value.toNat i = true → e.rd (R.LCKk (if hi then 32 + i else i)) = 0) ∧
        (∀ i : Fin 32, bitAt value.toNat i = true → e.get F.LCK_FLAGS.FORCED = 1) ∧
        (∀ i : Fin 32, bitAt value.toNat i = false → e.rd (R.LCKk (if hi then 32 + i else i)) = s.dev.rd (R.LCKk (if hi then 32 + i else i))) ∧
        SameBut (R.LCK_FLAGS :: (List.range 32).map (fun i => R.LCKk (if hi then 32 + i else i))) [.evt] s.dev e)

/-- LOCK_READ of a free lock returns 0 and makes the reader the owner; of an owned lock, also by its owner, it returns the owner's identity +
1 and leaves it. LOCK_WRITE by the owner frees the lock; by any other master it changes no lock, counts in LCK_REL_ERR and sets REL_ERR. A
read of LCK_PEEKk returns what a read of LCKk would and changes nothing but the answer. Each clause concludes that exec i s = .next t; so
shown to complete: lockRead, lockWrite, rcCounterRead. -/
def Obligations.HardwareLocks : Prop :=
  (∀ (m : Master) (k : Fin 64) (s : State), s.dev.rd (R.LCKk k) = 0 → gateOpen s.dev (R.LCKk k) = true → 
      ∃ e, exec (.lockRead m k) s = .next { s with dev := e } ∧
        e.cores.reply = 0 ∧ e.rd (R.LCKk k) = BitVec.ofNat 32 (masterId m + 1) ∧
        SameBut [R.LCKk k] [.cores] s.dev e) ∧
  (∀ (m : Master) (k : Fin 64) (s : State), s.dev.rd (R.LCKk k) ≠ 0 → gateOpen s.dev (R.LCKk k) = true → 
      ∃ e, exec (.lockRead m k) s = .next { s with dev := e } ∧
        e.cores.reply = (s.dev.rd (R.LCKk k)).toNat ∧
        SameBut [] [.cores] s.dev e) ∧
  (∀ (m : Master) (k : Fin 64) (s : State), (s.dev.rd (R.LCKk k)).toNat = masterId m + 1 → gateOpen s.dev (R.LCKk k) = true → 
      ∃ e, exec (.lockWrite m k) s = .next { s with dev := e } ∧
        e.rd (R.LCKk k) = 0 ∧
        SameBut [R.LCKk k] [.cores] s.dev e) ∧
  (∀ (m : Master) (k : Fin 64) (s : State), (s.dev.rd (R.LCKk k)).toNat ≠ masterId m + 1 → gateOpen s.dev (R.LCKk k) = true → 
      ∃ e, exec (.lockWrite m k) s = .next { s with dev := e } ∧
        e.get F.LCK_REL_ERR.V = min (s.dev.get F.LCK_REL_ERR.V + 1) (2 ^ (F.LCK_REL_ERR.V.hi + 1 - F.LCK_REL_ERR.V.lo) - 1) ∧ e.get F.LCK_FLAGS.REL_ERR = 1 ∧
        SameBut [R.LCK_REL_ERR, R.LCK_FLAGS] [.cores, .evt] s.dev e) ∧
  (∀ (m : Master) (k : Fin 64) (s : State), (s.dev.resetting 1 = false ∧ s.dev.boot.phase ≠ .reset ∧ coreStops { master := m, addr := R.LCK_PEEKk k } false s.dev = none) → 
      ∃ e, exec (.rcCounterRead { master := m, addr := R.LCK_PEEKk k } 0) s = .next { s with dev := e } ∧
        e.cores.reply = (s.dev.rd (R.LCKk k)).toNat ∧ e.cores.busError = false ∧
        SameBut [] [.cores] s.dev e)

/-- CORE_RESET of a running core puts its hart at the boot address as after reset, discards its cache lines and its reservation, frees its
locks and restarts its watchdog; a held core ignores it. CORE_RELEASE starts a held core and changes nothing of a running one. A kick of
0xA5 restarts the count, any other value nothing. The expiry of an enabled, unpaused watchdog resets the core, sets WDOG_EXPIRED and
records fault 0x1201. CMO with GO latches the line-aligned range and sets BUSY; its end writes the range's dirty lines back for a clean,
drops its lines for an invalidate, and clears BUSY. MTIME_READ captures mtime; at mtimecmp the timer interrupt is pending, and a held or
halted core's hart stands still. A claim returns the best pending enabled source and holds it. A store that PMP denies is an access fault
of its core; MSCRATCH is written and read (PMP and register access: the model's choice, log entry 277). It rests also on the model's
choices of log entries 14, 149, 150, 151, 247. Each clause concludes that exec i s = .next t; so shown to complete: coreReset,
coreRelease, watchdogKick, watchdogExpire, cmoGo, cmoDone, mtimeRead, mtimerInterrupt, plicClaim, registerWrite, rcCounterRead. -/
def Obligations.CoresAndTimer : Prop :=
  (∀ (n : Fin 4) (s : State), (coreRuns s.dev n = true ∧ (s.dev.core n).haltOnReset = false) → gateOpen s.dev (R.CORE_Cn_CTRL n) = true → 
      ∃ e, exec (.coreReset n) s = .next { s with dev := e } ∧
        (e.core n).hart = bootHart s.dev n ∧ (e.core n).dcache = [] ∧ (e.core n).icache = [] ∧ (e.core n).cmo = none ∧
        e.resv = s.dev.resv.filter (fun r => r.1 ≠ n.val) ∧ (e.core n).kickAt = s.dev.tb.edges ∧ coreRuns e n = true ∧ e.get F.LCK_FLAGS.RESET_REL = 1 ∧
        (∀ k : Fin 64, (s.dev.rd (R.LCKk k)).toNat = n + 1 → e.rd (R.LCKk k) = 0) ∧
        (∀ k : Fin 64, (s.dev.rd (R.LCKk k)).toNat ≠ n + 1 → e.rd (R.LCKk k) = s.dev.rd (R.LCKk k)) ∧
        (∀ k : Fin 32, e.rd (R.MBXk_DATA k) = s.dev.rd (R.MBXk_DATA k)) ∧
        SameBut ([R.CORE_Cn_CMO n, R.CORE_Cn_STATUS n, R.LCK_FLAGS] ++ (List.range 64).map R.LCKk ++ (List.range 32).map R.MBXk_STATUS) [.resv, .cores, .evt] s.dev e) ∧
  (∀ (n : Fin 4) (s : State), coreRuns s.dev n = false → gateOpen s.dev (R.CORE_Cn_CTRL n) = true → 
      ∃ e, exec (.coreReset n) s = .next { s with dev := e } ∧
        e = s.dev) ∧
  (∀ (n : Fin 4) (s : State), coreRuns s.dev n = false → gateOpen s.dev (R.CORE_Cn_CTRL n) = true → 
      ∃ e, exec (.coreRelease n) s = .next { s with dev := e } ∧
        coreRuns e n = true ∧ (e.core n).kickAt = s.dev.tb.edges ∧ (e.core n).hart.pc = (bootHart s.dev n).pc ∧ (e.core n).hart.machine = true ∧
        (e.core n).dcache = (s.dev.core n).dcache ∧ e.bit (F.CORE_Cn_STATUS.DEBUG_HALTED n) = (s.dev.core n).haltOnReset ∧
        SameBut [R.CORE_Cn_STATUS n] [.cores] s.dev e) ∧
  (∀ (n : Fin 4) (s : State), coreRuns s.dev n = true → gateOpen s.dev (R.CORE_Cn_CTRL n) = true → 
      ∃ e, exec (.coreRelease n) s = .next { s with dev := e } ∧
        e = s.dev) ∧
  (∀ (n : Fin 4) (value : Word) (s : State), gateOpen s.dev (R.CORE_Cn_KICK n) = true → 
      ∃ e, exec (.watchdogKick n value) s = .next { s with dev := e } ∧
        (e.core n = { s.dev.core n with kickAt := if value.toNat % 256 = 0xA5 then s.dev.tb.edges else (s.dev.core n).kickAt }) ∧
        SameBut [] [.cores] s.dev e) ∧
  (∀ (n : Fin 4) (s : State), (coreRuns s.dev n = true ∧ s.dev.bit (F.CORE_Cn_WDOG.EN n) = true ∧ s.dev.bit (F.CORE_Cn_STATUS.DEBUG_HALTED n) = false) → 
      ∃ e, exec (.watchdogExpire n) s = .next { s with dev := e } ∧
        e.get (F.CORE_Cn_STATUS.WDOG_EXPIRED n) = 1 ∧ e.get F.FLT_LAST.CODE = faultWdog ∧ e.get F.FLT_LAST.INDEX = n ∧
        e.tb.edges = max s.dev.tb.edges ((s.dev.core n).kickAt + 500 * s.dev.get (F.CORE_Cn_WDOG.TIMEOUT n)) ∧ (e.core n).kickAt = e.tb.edges ∧
        (e.core n).dcache = [] ∧ (e.core n).hart.pc = (bootHart s.dev n).pc ∧ coreRuns e n = true ∧
        SameButMem ([R.CORE_Cn_CMO n, R.CORE_Cn_STATUS n, R.LCK_FLAGS] ++ (List.range 64).map R.LCKk ++ (List.range 32).map R.MBXk_STATUS ++ faultRegs) [.resv, .cores, .tb, .evt] ([faultBytes]) s.dev e) ∧
  (∀ (n : Fin 4) (s : State), (coreRuns s.dev n = false ∨ s.dev.bit (F.CORE_Cn_WDOG.EN n) = false ∨ (s.dev.bit F.CORE_DBG.WDOG_HALT = true ∧ s.dev.bit (F.CORE_Cn_STATUS.DEBUG_HALTED n) = true)) → 
      ∃ e, exec (.watchdogExpire n) s = .next { s with dev := e } ∧
        e = s.dev) ∧
  (∀ (n : Fin 4) (value : Word) (s : State), ((F.CORE_Cn_CMO.GO n).of value = 1 ∧ s.dev.bit (F.CORE_Cn_CMO.BUSY n) = false) → gateOpen s.dev (R.CORE_Cn_CMO n) = true → 
      ∃ e, exec (.cmoGo n value) s = .next { s with dev := e } ∧
        e.get (F.CORE_Cn_CMO.BUSY n) = 1 ∧
        (e.core n).cmo = some ((F.CORE_Cn_CMO.OP n).of value, s.dev.pair (R.CORE_Cn_CMO_ADDR_LO n) (R.CORE_Cn_CMO_ADDR_HI n) / 64 * 64, (F.CORE_Cn_CMO.LINES n).of value) ∧
        (e.core n).dcache = (s.dev.core n).dcache ∧
        SameBut [R.CORE_Cn_CMO n] [.cores] s.dev e) ∧
  (∀ (n : Fin 4) (a : Nat) (k : Nat) (s : State), ((s.dev.core n).cmo = some (1, a, k) ∧ a % 64 = 0 ∧ (s.dev.core n).dcache.all (fun l => l.bytes.length == 64) = true) → 
      ∃ e, exec (.cmoDone n) s = .next { s with dev := e } ∧
        e.get (F.CORE_Cn_CMO.BUSY n) = 0 ∧ (e.core n).cmo = none ∧
        ((e.core n).dcache = (s.dev.core n).dcache.map (fun l => if a / 64 ≤ l.line ∧ l.line < a / 64 + k then { l with dirty := false } else l)) ∧
        (∀ l ∈ (s.dev.core n).dcache, lineIn (s.dev.core n).dcache l.line = some l → l.dirty = true → a / 64 ≤ l.line ∧ l.line < a / 64 + k → e.bytes (64 * l.line) 64 = l.bytes) ∧
        SameButMem [R.CORE_Cn_CMO n] [.cores] ([(a, 64 * k)]) s.dev e) ∧
  (∀ (n : Fin 4) (a : Nat) (k : Nat) (s : State), (s.dev.core n).cmo = some (2, a, k) → 
      ∃ e, exec (.cmoDone n) s = .next { s with dev := e } ∧
        e.get (F.CORE_Cn_CMO.BUSY n) = 0 ∧ (e.core n).cmo = none ∧
        (e.core n).dcache = (s.dev.core n).dcache.filter (fun l => !decide (a / 64 ≤ l.line ∧ l.line < a / 64 + k)) ∧
        SameBut [R.CORE_Cn_CMO n] [.cores] s.dev e) ∧
  (∀ (s : State), gateOpen s.dev (R.CORE_MTIME_LO) = true → 
      ∃ e, exec (.mtimeRead) s = .next { s with dev := e } ∧
        e.pair R.CORE_MTIME_LO R.CORE_MTIME_HI = s.dev.mtime ∧ e.cores.reply = s.dev.mtime % 2 ^ 32 ∧
        SameBut [R.CORE_MTIME_LO, R.CORE_MTIME_HI] [.cores] s.dev e) ∧
  (∀ (n : Fin 4) (s : State), s.dev.tb.edges < 2 ^ 66 → 
      ∃ e, exec (.mtimerInterrupt n) s = .next { s with dev := e } ∧
        ((e.core n).timer = true ∧ e.tb.edges = max s.dev.tb.edges (4 * mtimecmp s.dev n) ∧ (coreActive s.dev n = false → (e.core n).hart = (s.dev.core n).hart)) ∧
        SameBut [] [.fresh, .cores, .tb] s.dev e) ∧
  (∀ (k : Fin 4) (s : State), plicBest s.dev k (List.range 512) ≠ 0 → gateOpen s.dev (plicBase + 0x200004 + 0x1000 * k) = true → 
      ∃ e, exec (.plicClaim k) s = .next { s with dev := e } ∧
        e.cores.reply = plicBest s.dev k (List.range 512) ∧ plicPending s.dev e.cores.reply = true ∧ plicEnabled s.dev k e.cores.reply = true ∧
        e.cores.claimed = (e.cores.reply, k.val) :: s.dev.cores.claimed ∧ plicPending e e.cores.reply = false ∧
        (∀ i : Fin 512, plicPending s.dev i = true → plicEnabled s.dev k i = true → plicPriority s.dev i ≤ plicPriority s.dev e.cores.reply) ∧
        SameBut [] [.cores] s.dev e) ∧
  (∀ (k : Fin 4) (s : State), plicBest s.dev k (List.range 512) = 0 → gateOpen s.dev (plicBase + 0x200004 + 0x1000 * k) = true → 
      ∃ e, exec (.plicClaim k) s = .next { s with dev := e } ∧
        e.cores.reply = 0 ∧ e.cores.claimed = s.dev.cores.claimed ∧
        SameBut [] [.cores] s.dev e) ∧
  (∀ (n : Fin 4) (a : Nat) (u : Bool) (value : DWord) (s : State), (coreActive s.dev n = true ∧ misaligned n a 4 = false ∧ (s.dev.core n).hart.pmpAllows { user := u, write := true } a = false) → trigFires { user := u, write := true } a 4 (s.dev.core n).triggers.toList 0 (some []) = none → 
      ∃ e, exec (.registerWrite { master := .core n, addr := a, user := u } value 0) s = .next { s with dev := e } ∧
        (e.cores.busError = true ∧ e.cores.reply = 0 ∧ (e.core n).hart.csr csrMcause = 7 ∧ (e.core n).hart.machine = true ∧ (∀ k : Fin 4, k ≠ n → e.core k = s.dev.core k)) ∧
        (e.core n).dcache = (s.dev.core n).dcache ∧ (e.core n).icache = (s.dev.core n).icache ∧ (e.core n).triggers = (s.dev.core n).triggers ∧
        SameBut [] [.cores, .fresh] s.dev e) ∧
  (∀ (n : Fin 4) (value : DWord) (s : State),
      ∃ e, exec (.registerWrite { master := .core n, addr := 0x340, kind := .csr } value 0) s = .next { s with dev := e } ∧
        ((e.core n).hart.csr 0x340 = value ∧ (e.core n).hart.pc = (s.dev.core n).hart.pc ∧ (e.core n).hart.x = (s.dev.core n).hart.x ∧ (∀ k : Fin 4, k ≠ n → e.core k = s.dev.core k)) ∧
        SameBut [] [.cores] s.dev e) ∧
  (∀ (n : Fin 4) (s : State),
      ∃ e, exec (.rcCounterRead { master := .core n, addr := 0x340, kind := .csr } 0) s = .next { s with dev := e } ∧
        e.cores.reply = ((s.dev.core n).hart.csr 0x340).toNat ∧ e.core n = s.dev.core n ∧
        SameBut [] [.cores] s.dev e)

/-- CRC_DATA_WRITE takes the low 1, 2 or 4 bytes of the word, least significant first, into r by R378, and RESULT follows. START sets r to
INIT and takes the PFX_LEN prefix bytes; with AUTO_INC the prefix then counts up by one. CRC_STATE_WRITE of a _HI half only holds it; of a
_LO half it writes both halves at once; a write of RESULT changes nothing. CRC_CFG_WRITE takes effect and reduces r modulo 2^W, or with
WIDTH_M1 below 7 sets CFG_REJ and changes nothing else. It rests also on the model's choices of log entry 60. Each clause concludes that
exec i s = .next t; so shown to complete: crcDataWrite, crcStart, crcStateWrite, crcCfgWrite. -/
def Obligations.CheckValueUnits : Prop :=
  (∀ (u : Fin 8) (k : Fin 3) (value : Word) (s : State), gateOpen s.dev (R.CRCu_DATA8 u) = true → 
      ∃ e, exec (.crcDataWrite u k value) s = .next { s with dev := e } ∧
        e.pair (R.CRCu_STATE_LO u) (R.CRCu_STATE_HI u) = ((lowBytes (2 ^ k.val) value.toNat).foldl (crcTake (crcW s.dev u) (crcPair s.dev u 0) (s.dev.bit (F.CRCu_CFG.REFIN u))) (crcPair s.dev u 3)) % 2 ^ 64 ∧
        e.pair (R.CRCu_RESULT_LO u) (R.CRCu_RESULT_HI u) = crcResult e u ∧
        SameBut [R.CRCu_STATE_LO u, R.CRCu_STATE_HI u, R.CRCu_RESULT_LO u, R.CRCu_RESULT_HI u] [] s.dev e) ∧
  (∀ (u : Fin 8) (s : State), (s.dev.get (F.CRCu_CFG.PFX_LEN u) = 0 ∧ s.dev.bit (F.CRCu_CFG.AUTO_INC u) = false) → gateOpen s.dev (R.CRCu_CTRL u) = true → 
      ∃ e, exec (.crcStart u) s = .next { s with dev := e } ∧
        e.pair (R.CRCu_STATE_LO u) (R.CRCu_STATE_HI u) = crcPair s.dev u 1 ∧ e.pair (R.CRCu_RESULT_LO u) (R.CRCu_RESULT_HI u) = crcResult e u ∧
        SameBut [R.CRCu_STATE_LO u, R.CRCu_STATE_HI u, R.CRCu_RESULT_LO u, R.CRCu_RESULT_HI u] [] s.dev e) ∧
  (∀ (u : Fin 8) (s : State), s.dev.bit (F.CRCu_CFG.AUTO_INC u) = true → gateOpen s.dev (R.CRCu_CTRL u) = true → 
      ∃ e, exec (.crcStart u) s = .next { s with dev := e } ∧
        e.pair (R.CRCu_PREFIX_LO u) (R.CRCu_PREFIX_HI u) = (s.dev.pair (R.CRCu_PREFIX_LO u) (R.CRCu_PREFIX_HI u) + 1) % 2 ^ 64 ∧
        e.pair (R.CRCu_STATE_LO u) (R.CRCu_STATE_HI u) = ((lowBytes (prefixLen (s.dev.get (F.CRCu_CFG.PFX_LEN u))) (s.dev.pair (R.CRCu_PREFIX_LO u) (R.CRCu_PREFIX_HI u))).foldl (crcTake (crcW s.dev u) (crcPair s.dev u 0) (s.dev.bit (F.CRCu_CFG.REFIN u))) (crcPair s.dev u 1)) % 2 ^ 64 ∧
        SameBut [R.CRCu_STATE_LO u, R.CRCu_STATE_HI u, R.CRCu_RESULT_LO u, R.CRCu_RESULT_HI u, R.CRCu_PREFIX_LO u, R.CRCu_PREFIX_HI u] [] s.dev e) ∧
  (∀ (u : Fin 8) (k : Fin 6) (value : Word) (s : State), k.val ≠ 4 → gateOpen s.dev (R.CRCu_CTRL u) = true → 
      ∃ e, exec (.crcStateWrite u k true value) s = .next { s with dev := e } ∧
        ((e.crc[u]).held[k] = value ∧ (∀ j : Fin 6, j ≠ k → (e.crc[u]).held[j] = (s.dev.crc[u]).held[j]) ∧ (e.crc[u]).captured = (s.dev.crc[u]).captured ∧ (∀ v : Fin 8, v ≠ u → e.crc[v] = s.dev.crc[v])) ∧
        SameBut [] [.crc] s.dev e) ∧
  (∀ (u : Fin 8) (k : Fin 6) (value : Word) (s : State), k.val ≠ 4 → gateOpen s.dev (R.CRCu_CTRL u) = true → 
      ∃ e, exec (.crcStateWrite u k false value) s = .next { s with dev := e } ∧
        e.rd (crcPairLo u k) = value ∧ e.rd (crcPairLo u k + 4) = (s.dev.crc[u]).held[k] ∧
        e.pair (R.CRCu_RESULT_LO u) (R.CRCu_RESULT_HI u) = crcResult e u ∧
        SameBut [crcPairLo u k, crcPairLo u k + 4, R.CRCu_RESULT_LO u, R.CRCu_RESULT_HI u] [] s.dev e) ∧
  (∀ (u : Fin 8) (hi : Bool) (value : Word) (s : State), gateOpen s.dev (R.CRCu_CTRL u) = true → 
      ∃ e, exec (.crcStateWrite u 4 hi value) s = .next { s with dev := e } ∧
        e = s.dev) ∧
  (∀ (u : Fin 8) (value : Word) (s : State), 7 ≤ (F.CRCu_CFG.WIDTH_M1 u).of value → gateOpen s.dev (R.CRCu_CFG u) = true → 
      ∃ e, exec (.crcCfgWrite u value) s = .next { s with dev := e } ∧
        e.get (F.CRCu_CFG.WIDTH_M1 u) = (F.CRCu_CFG.WIDTH_M1 u).of value ∧ e.get (F.CRCu_CFG.REFIN u) = (F.CRCu_CFG.REFIN u).of value ∧
        e.pair (R.CRCu_STATE_LO u) (R.CRCu_STATE_HI u) = s.dev.pair (R.CRCu_STATE_LO u) (R.CRCu_STATE_HI u) % 2 ^ ((F.CRCu_CFG.WIDTH_M1 u).of value + 1) ∧
        SameBut [R.CRCu_CFG u, R.CRCu_STATE_LO u, R.CRCu_STATE_HI u, R.CRCu_RESULT_LO u, R.CRCu_RESULT_HI u] [] s.dev e) ∧
  (∀ (u : Fin 8) (value : Word) (s : State), (F.CRCu_CFG.WIDTH_M1 u).of value < 7 → gateOpen s.dev (R.CRCu_CFG u) = true → 
      ∃ e, exec (.crcCfgWrite u value) s = .next { s with dev := e } ∧
        e.get F.CRC_FLAGS.CFG_REJ = 1 ∧
        SameBut [R.CRC_FLAGS] [.evt] s.dev e)

/-- START in IDLE or HALTED with live fields that pass R363 enters WAIT with TRIG_EN, else begins the transfer: RUN, or PAUSED while PAUSE =
1; in WAIT it begins at once; failing the check, or in another state, it sets CFG_REJ, but in the cycle in which the transfer left WAIT it
is the same start. A live field takes a write in IDLE, HALTED and PAUSED only, a shadow field only while SHADOW_VALID = 0; ARM sets
SHADOW_VALID or a reject flag. PAUSE := 1 drains RUN, or pauses a transfer that starts in that cycle; := 0 resumes DRAIN and PAUSED. ABORT
with no more bytes to write clears SHADOW_VALID, and in an active state sets ABORTED, enters IDLE and awaits the channel's writes; in the
cycle of a bus error it is ignored. A drain without bytes enters PAUSED. The domain time-out halts a draining channel with DOMAIN_DOWN and
cause 2, and a waiting one with DOMAIN_DOWN and nothing latched. It rests also on the model's choices of log entries 159, 160, 162, 163.
Each clause concludes that exec i s = .next t; so shown to complete: dmaStart, dmaFieldWrite, dmaShadowWrite, dmaArm, dmaPause, dmaResume,
dmaAbort, dmaDrainDone, dmaDomainTimeout. -/
def Obligations.DmaControl : Prop :=
  (∀ (k : Fin 16) (s : State), ((s.dev.dmaState k = dmIdle ∨ s.dev.dmaState k = dmHalted) ∧ dmaLiveOk s.dev k = true) → gateOpen s.dev (R.DMAc_CTRL k) = true → 
      ∃ e, exec (.dmaStart k) s = .next { s with dev := e } ∧
        (e.dmaState k = (if s.dev.bit (F.DMAc_CFG.TRIG_EN k) then dmWait else if s.dev.bit (F.DMAc_CTRL.PAUSE k) then dmPaused else dmRun)) ∧
        (s.dev.bit (F.DMAc_CFG.TRIG_EN k) = false → s.dev.bit (F.DMAc_CFG.CSUM_CHAIN k) = false → e.rd (R.DMAc_CSUM k) = 0 ∧ (e.dma[k]).pos = 0) ∧
        dmaSrc e k = dmaSrc s.dev k ∧ dmaDst e k = dmaDst s.dev k ∧ dmaLen e k = dmaLen s.dev k ∧
        (∀ j : Fin 16, j ≠ k → e.dma[j] = s.dev.dma[j]) ∧
        SameBut [R.DMAc_STATUS k, R.DMAc_CSUM k] [.dma] s.dev e) ∧
  (∀ (k : Fin 16) (s : State), ((s.dev.dmaState k = dmIdle ∨ s.dev.dmaState k = dmHalted) ∧ dmaLiveOk s.dev k = false) → gateOpen s.dev (R.DMAc_CTRL k) = true → 
      ∃ e, exec (.dmaStart k) s = .next { s with dev := e } ∧
        e.get (F.DMAc_FLAGS.CFG_REJ k) = 1 ∧
        SameBut [R.DMAc_FLAGS k] [.evt] s.dev e) ∧
  (∀ (k : Fin 16) (s : State), s.dev.dmaState k = dmWait → gateOpen s.dev (R.DMAc_CTRL k) = true → 
      ∃ e, exec (.dmaStart k) s = .next { s with dev := e } ∧
        e.dmaState k = (if s.dev.bit (F.DMAc_CTRL.PAUSE k) then dmPaused else dmRun) ∧
        (∀ j : Fin 16, j ≠ k → e.dma[j] = s.dev.dma[j]) ∧
        SameBut [R.DMAc_STATUS k, R.DMAc_CSUM k] [.dma] s.dev e) ∧
  (∀ (k : Fin 16) (s : State), ((s.dev.dmaState k = dmRun ∨ s.dev.dmaState k = dmDrain ∨ s.dev.dmaState k = dmPaused) ∧ dmaOneStart s.dev k = false) → gateOpen s.dev (R.DMAc_CTRL k) = true → 
      ∃ e, exec (.dmaStart k) s = .next { s with dev := e } ∧
        e.get (F.DMAc_FLAGS.CFG_REJ k) = 1 ∧
        SameBut [R.DMAc_FLAGS k] [.evt] s.dev e) ∧
  (∀ (k : Fin 16) (s : State), ((s.dev.dmaState k = dmRun ∨ s.dev.dmaState k = dmPaused) ∧ (s.dev.dma[k]).trigAt = some s.dev.tb.edges) → gateOpen s.dev (R.DMAc_CTRL k) = true → 
      ∃ e, exec (.dmaStart k) s = .next { s with dev := e } ∧
        e = s.dev) ∧
  (∀ (k : Fin 16) (i : Fin 6) (value : Word) (s : State), (s.dev.dmaState k = dmIdle ∨ s.dev.dmaState k = dmHalted ∨ s.dev.dmaState k = dmPaused) → gateOpen s.dev (R.DMAc_CFG k) = true → 
      ∃ e, exec (.dmaFieldWrite k i value) s = .next { s with dev := e } ∧
        e.rd (if i.val = 5 then R.DMAc_CFG k else R.DMAc_SRC_LO k + 4 * i) = (if i.val = 5 then value &&& dmaCfgMask else value) ∧
        SameBut [if i.val = 5 then R.DMAc_CFG k else R.DMAc_SRC_LO k + 4 * i] [] s.dev e) ∧
  (∀ (k : Fin 16) (i : Fin 6) (value : Word) (s : State), (s.dev.dmaState k = dmWait ∨ s.dev.dmaState k = dmRun ∨ s.dev.dmaState k = dmDrain) → gateOpen s.dev (R.DMAc_CFG k) = true → 
      ∃ e, exec (.dmaFieldWrite k i value) s = .next { s with dev := e } ∧
        e.get (F.DMAc_FLAGS.CFG_REJ k) = 1 ∧
        SameBut [R.DMAc_FLAGS k] [.evt] s.dev e) ∧
  (∀ (k : Fin 16) (i : Fin 6) (value : Word) (s : State), s.dev.bit (F.DMAc_STATUS.SHADOW_VALID k) = false → gateOpen s.dev (R.DMAc_SH_CFG k) = true → 
      ∃ e, exec (.dmaShadowWrite k i value) s = .next { s with dev := e } ∧
        e.rd (if i.val = 5 then R.DMAc_SH_CFG k else R.DMAc_SH_SRC_LO k + 4 * i) = (if i.val = 5 then value &&& dmaCfgMask else value) ∧
        SameBut [if i.val = 5 then R.DMAc_SH_CFG k else R.DMAc_SH_SRC_LO k + 4 * i] [] s.dev e) ∧
  (∀ (k : Fin 16) (i : Fin 6) (value : Word) (s : State), s.dev.bit (F.DMAc_STATUS.SHADOW_VALID k) = true → gateOpen s.dev (R.DMAc_SH_CFG k) = true → 
      ∃ e, exec (.dmaShadowWrite k i value) s = .next { s with dev := e } ∧
        e.get (F.DMAc_FLAGS.SHADOW_REJ k) = 1 ∧
        SameBut [R.DMAc_FLAGS k] [.evt] s.dev e) ∧
  (∀ (k : Fin 16) (s : State), s.dev.bit (F.DMAc_STATUS.SHADOW_VALID k) = false → dmaOk s.dev (R.DMAc_SH_CFG k) (s.dev.pair (R.DMAc_SH_SRC_LO k) (R.DMAc_SH_SRC_HI k)) (s.dev.pair (R.DMAc_SH_DST_LO k) (R.DMAc_SH_DST_HI k)) (s.dev.rd (R.DMAc_SH_LEN k)).toNat = true → gateOpen s.dev (R.DMAc_SH_CTRL k) = true → 
      ∃ e, exec (.dmaArm k) s = .next { s with dev := e } ∧
        e.get (F.DMAc_STATUS.SHADOW_VALID k) = 1 ∧ e.dmaState k = s.dev.dmaState k ∧
        SameBut [R.DMAc_STATUS k] [] s.dev e) ∧
  (∀ (k : Fin 16) (s : State), s.dev.bit (F.DMAc_STATUS.SHADOW_VALID k) = true → gateOpen s.dev (R.DMAc_SH_CTRL k) = true → 
      ∃ e, exec (.dmaArm k) s = .next { s with dev := e } ∧
        e.get (F.DMAc_FLAGS.SHADOW_REJ k) = 1 ∧
        SameBut [R.DMAc_FLAGS k] [.evt] s.dev e) ∧
  (∀ (k : Fin 16) (s : State), s.dev.bit (F.DMAc_STATUS.SHADOW_VALID k) = false → dmaOk s.dev (R.DMAc_SH_CFG k) (s.dev.pair (R.DMAc_SH_SRC_LO k) (R.DMAc_SH_SRC_HI k)) (s.dev.pair (R.DMAc_SH_DST_LO k) (R.DMAc_SH_DST_HI k)) (s.dev.rd (R.DMAc_SH_LEN k)).toNat = false → gateOpen s.dev (R.DMAc_SH_CTRL k) = true → 
      ∃ e, exec (.dmaArm k) s = .next { s with dev := e } ∧
        e.get (F.DMAc_FLAGS.CFG_REJ k) = 1 ∧
        SameBut [R.DMAc_FLAGS k] [.evt] s.dev e) ∧
  (∀ (k : Fin 16) (s : State), gateOpen s.dev (R.DMAc_CTRL k) = true → 
      ∃ e, exec (.dmaPause k) s = .next { s with dev := e } ∧
        e.get (F.DMAc_CTRL.PAUSE k) = 1 ∧ e.dmaState k = (if s.dev.dmaState k = dmRun then (if (s.dev.dma[k]).began = some s.dev.tb.edges then dmPaused else dmDrain) else s.dev.dmaState k) ∧
        (∀ j : Fin 16, j ≠ k → e.dma[j] = s.dev.dma[j]) ∧
        SameBut [R.DMAc_CTRL k, R.DMAc_STATUS k] [.dma] s.dev e) ∧
  (∀ (k : Fin 16) (s : State), gateOpen s.dev (R.DMAc_CTRL k) = true → 
      ∃ e, exec (.dmaResume k) s = .next { s with dev := e } ∧
        (e.get (F.DMAc_CTRL.PAUSE k) = 0 ∧ e.dmaState k = (if s.dev.dmaState k = dmDrain ∨ s.dev.dmaState k = dmPaused then dmRun else s.dev.dmaState k)) ∧
        SameBut [R.DMAc_CTRL k, R.DMAc_STATUS k] [] s.dev e) ∧
  (∀ (k : Fin 16) (s : State), (s.dev.dmaState k = dmWait ∨ s.dev.dmaState k = dmPaused ∨ ((s.dev.dmaState k = dmRun ∨ s.dev.dmaState k = dmDrain) ∧ (s.dev.dma[k]).data = [] ∧ dmaLen s.dev k ≠ 0)) → gateOpen s.dev (R.DMAc_CTRL k) = true → 
      ∃ e, exec (.dmaAbort k 0) s = .next { s with dev := e } ∧
        e.dmaState k = dmIdle ∧ e.get (F.DMAc_STATUS.SHADOW_VALID k) = 0 ∧ e.get (F.DMAc_FLAGS.ABORTED k) = 1 ∧ (e.dma[k]).data = [] ∧
        e.dmaOut = s.dev.dmaOut.filter (fun w => w.1 ≠ k.val) ∧
        (∀ j : Fin 16, j ≠ k → e.dma[j] = s.dev.dma[j]) ∧
        SameBut [R.DMAc_STATUS k, R.DMAc_FLAGS k] [.dma, .dmaOut, .evt] s.dev e) ∧
  (∀ (k : Fin 16) (n : Nat) (s : State), (s.dev.dmaState k = dmIdle ∨ (s.dev.dmaState k = dmHalted ∧ (s.dev.dma[k]).failAt ≠ some s.dev.tb.edges)) → gateOpen s.dev (R.DMAc_CTRL k) = true → 
      ∃ e, exec (.dmaAbort k n) s = .next { s with dev := e } ∧
        e.dmaState k = s.dev.dmaState k ∧ e.get (F.DMAc_STATUS.SHADOW_VALID k) = 0 ∧
        SameBut [R.DMAc_STATUS k] [] s.dev e) ∧
  (∀ (k : Fin 16) (n : Nat) (s : State), (s.dev.dmaState k = dmHalted ∧ (s.dev.dma[k]).failAt = some s.dev.tb.edges) → gateOpen s.dev (R.DMAc_CTRL k) = true → 
      ∃ e, exec (.dmaAbort k n) s = .next { s with dev := e } ∧
        e = s.dev) ∧
  (∀ (k : Fin 16) (s : State), (s.dev.dmaState k = dmDrain ∧ (s.dev.dma[k]).data = [] ∧ dmaLen s.dev k ≠ 0) → 
      ∃ e, exec (.dmaDrainDone k 0) s = .next { s with dev := e } ∧
        e.dmaState k = dmPaused ∧
        e.dmaOut = s.dev.dmaOut.filter (fun w => w.1 ≠ k.val) ∧
        (∀ j : Fin 16, j ≠ k → e.dma[j] = s.dev.dma[j]) ∧
        SameBut [R.DMAc_STATUS k] [.dma, .dmaOut] s.dev e) ∧
  (∀ (k : Fin 16) (n : Nat) (wr : Bool) (s : State), (s.dev.dmaState k = dmDrain ∧ (s.dev.dma[k]).leaving ≠ none ∧ (s.dev.dma[k]).data = [] ∧ dmaLen s.dev k ≠ 0 ∧ s.dev.bit (F.DMAc_ERR_INFO.VALID k) = false) → 
      ∃ e, exec (.dmaDomainTimeout k 0 n wr) s = .next { s with dev := e } ∧
        e.dmaState k = dmHalted ∧ e.get (F.DMAc_FLAGS.DOMAIN_DOWN k) = 1 ∧
        e.get (F.DMAc_ERR_INFO.VALID k) = 1 ∧ e.get (F.DMAc_ERR_INFO.CAUSE k) = 2 ∧ e.bit (F.DMAc_ERR_INFO.WRITE k) = wr ∧
        e.pair (R.DMAc_ERR_ADDR_LO k) (R.DMAc_ERR_ADDR_HI k) = (if wr then dmaDst s.dev k else dmaSrc s.dev k) ∧
        e.dmaOut = s.dev.dmaOut.filter (fun w => w.1 ≠ k.val) ∧
        (∀ j : Fin 16, j ≠ k → e.dma[j] = s.dev.dma[j]) ∧
        SameButMem (dmaErrorRegs k) [.resv, .evt, .fresh, .dma, .dmaOut] ([(dmaDst s.dev k, if s.dev.bit (F.DMAc_CFG.DST_FIX k) then dmaSize s.dev k else dmaLen s.dev k)]) s.dev e) ∧
  (∀ (k : Fin 16) (b n : Nat) (wr : Bool) (s : State), (s.dev.dmaState k = dmWait ∧ (s.dev.dma[k]).leaving ≠ none) → 
      ∃ e, exec (.dmaDomainTimeout k b n wr) s = .next { s with dev := e } ∧
        e.dmaState k = dmHalted ∧ e.get (F.DMAc_FLAGS.DOMAIN_DOWN k) = 1 ∧
        (∀ j : Fin 16, j ≠ k → e.dma[j] = s.dev.dma[j]) ∧
        SameBut [R.DMAc_STATUS k, R.DMAc_FLAGS k] [.evt, .dma] s.dev e)

/-- DMA_COMPLETE of a running channel whose one element of 8 bytes lies in SRAM at source and destination, without a check value and with no
other channel moving, copies the bytes, leaves LEN 0, sets DONE, counts DMAc_XFERS and fires the channel's rill; without a shadow it
enters IDLE; with BARRIER = 1 none of its writes is outstanding then, with 0 the last one is. With LEN at 0 and SHADOW_VALID set, every
shadow field becomes live, HANDOVER is set and the new transfer starts or waits for its rill. DMA_BUS_ERROR before any byte halts the
channel with BUS_ERR and latches the address, direction and cause, and the access as a bus error of master 5, each unless its VALID is
set; that of the last write of a transfer that completed with its issue does the same in any state the hand-over has left (the model's
choice, log entry 223). Otherwise, outside RUN and DRAIN, it changes nothing. It rests also on the model's choices of log entry 157. Each
clause concludes that exec i s = .next t; so shown to complete: dmaComplete, dmaBusError. -/
def Obligations.DmaTransfer : Prop :=
  (∀ (k : Fin 16) (s : State), (s.dev.dmaState k = dmRun ∧ s.dev.get (F.DMAc_CFG.ESIZE k) = 3 ∧ dmaLen s.dev k = 8 ∧ s.dev.get (F.DMAc_CFG.CSUM k) = 0) → (s.dev.bit (F.DMAc_CFG.CSUM_WR k) = false ∧ s.dev.bit (F.DMAc_STATUS.SHADOW_VALID k) = false) → (0x80000000 ≤ dmaSrc s.dev k ∧ dmaSrc s.dev k + 8 ≤ 0x80200000 ∧ dmaSrc s.dev k % 8 = 0 ∧ s.dev.resetting 1 = false ∧ s.dev.boot.phase ≠ .reset) → (0x80000000 ≤ dmaDst s.dev k ∧ dmaDst s.dev k + 8 ≤ 0x80200000 ∧ dmaDst s.dev k % 8 = 0 ∧ (s.dev.dma[k]).data = [] ∧ s.dev.dmaOut.length ≤ 32) → (∀ j : Fin 16, j ≠ k → s.dev.dmaState j ≠ dmRun ∧ s.dev.dmaState j ≠ dmDrain) → 
      ∃ e, exec (.dmaComplete k) s = .next { s with dev := e } ∧
        e.bytes (dmaDst s.dev k) 8 = s.dev.bytes (dmaSrc s.dev k) 8 ∧
        dmaLen e k = 0 ∧ e.dmaState k = dmIdle ∧ e.get (F.DMAc_FLAGS.DONE k) = 1 ∧
        dmaDst e k = dmaDst s.dev k + (if s.dev.bit (F.DMAc_CFG.DST_FIX k) then 0 else 8) ∧ dmaSrc e k = dmaSrc s.dev k + (if s.dev.bit (F.DMAc_CFG.SRC_FIX k) then 0 else 8) ∧
        e.get (F.DMAc_XFERS.V k) = min (s.dev.get (F.DMAc_XFERS.V k) + 1) (2 ^ ((F.DMAc_XFERS.V k).hi + 1 - (F.DMAc_XFERS.V k).lo) - 1) ∧
        (if s.dev.bit (F.DMAc_CFG.BARRIER k) then ∀ w ∈ e.dmaOut, w.1 ≠ k.val else (k.val, dmaDst s.dev k) ∈ e.dmaOut) ∧
        (∀ j : Fin 16, j ≠ k → e.dma[j] = s.dev.dma[j]) ∧
        ({ rill := 142 + k, stamp := s.dev.nowNs } : RillEvent) ∈ e.evt.inflight ∧
        SameButMem [R.DMAc_SRC_LO k, R.DMAc_SRC_HI k, R.DMAc_DST_LO k, R.DMAc_DST_HI k, R.DMAc_LEN k, R.DMAc_STATUS k, R.DMAc_FLAGS k, R.DMAc_XFERS k] [.resv, .cores, .evt, .dma, .dmaOut] ([(dmaDst s.dev k, 8)]) s.dev e) ∧
  (∀ (k : Fin 16) (s : State), (s.dev.dmaState k = dmRun ∧ dmaLen s.dev k = 0 ∧ s.dev.bit (F.DMAc_CFG.CSUM_WR k) = false ∧ s.dev.bit (F.DMAc_STATUS.SHADOW_VALID k) = true) → 
      ∃ e, exec (.dmaComplete k) s = .next { s with dev := e } ∧
        dmaSrc e k = s.dev.pair (R.DMAc_SH_SRC_LO k) (R.DMAc_SH_SRC_HI k) ∧ dmaDst e k = s.dev.pair (R.DMAc_SH_DST_LO k) (R.DMAc_SH_DST_HI k) ∧
        dmaLen e k = (s.dev.rd (R.DMAc_SH_LEN k)).toNat ∧ e.rd (R.DMAc_CFG k) = s.dev.rd (R.DMAc_SH_CFG k) ∧
        e.get (F.DMAc_STATUS.SHADOW_VALID k) = 0 ∧ e.get (F.DMAc_FLAGS.HANDOVER k) = 1 ∧ e.get (F.DMAc_FLAGS.DONE k) = 1 ∧
        (e.dmaState k = (if s.dev.bit (F.DMAc_SH_CFG.TRIG_EN k) then dmWait else if s.dev.bit (F.DMAc_CTRL.PAUSE k) then dmPaused else dmRun)) ∧
        e.dmaOut = s.dev.dmaOut.filter (fun w => w.1 ≠ k.val) ∧
        (∀ j : Fin 16, j ≠ k → e.dma[j] = s.dev.dma[j]) ∧
        SameBut [R.DMAc_SRC_LO k, R.DMAc_SRC_HI k, R.DMAc_DST_LO k, R.DMAc_DST_HI k, R.DMAc_LEN k, R.DMAc_CFG k, R.DMAc_STATUS k, R.DMAc_FLAGS k, R.DMAc_XFERS k, R.DMAc_CSUM k] [.dma, .dmaOut, .evt] s.dev e) ∧
  (∀ (k : Fin 16) (s : State), s.dev.dmaState k ≠ dmRun → 
      ∃ e, exec (.dmaComplete k) s = .next { s with dev := e } ∧
        e = s.dev) ∧
  (∀ (k : Fin 16) (wr : Bool) (dram : Bool) (s : State), ((s.dev.dmaState k = dmRun ∨ s.dev.dmaState k = dmDrain) ∧ (s.dev.dma[k]).data = [] ∧ dmaLen s.dev k ≠ 0) → 
      ∃ e, exec (.dmaBusError k 0 wr dram false) s = .next { s with dev := e } ∧
        e.dmaState k = dmHalted ∧ e.get (F.DMAc_FLAGS.BUS_ERR k) = 1 ∧ e.get (F.DMAc_ERR_INFO.VALID k) = 1 ∧
        (s.dev.bit (F.DMAc_ERR_INFO.VALID k) = false → e.get (F.DMAc_ERR_INFO.CAUSE k) = (if dram ∧ ¬ wr then 1 else 0) ∧ e.bit (F.DMAc_ERR_INFO.WRITE k) = wr) ∧
        (s.dev.bit (F.DMAc_ERR_INFO.VALID k) = false → e.pair (R.DMAc_ERR_ADDR_LO k) (R.DMAc_ERR_ADDR_HI k) = (if wr then dmaDst s.dev k else dmaSrc s.dev k)) ∧
        (s.dev.bit F.CORE_BUSERR_INFO.VALID = false → e.pair R.CORE_BUSERR_ADDR_LO R.CORE_BUSERR_ADDR_HI = (if wr then dmaDst s.dev k else dmaSrc s.dev k) ∧ e.get F.CORE_BUSERR_INFO.MASTER = 5 ∧ e.bit F.CORE_BUSERR_INFO.WRITE = wr ∧ e.bit F.CORE_BUSERR_INFO.VALID = true) ∧
        (s.dev.bit F.CORE_BUSERR_INFO.VALID = true → ∀ a ∈ busErrorRegs, e.rd a = s.dev.rd a) ∧
        e.dmaOut = s.dev.dmaOut.filter (fun w => w.1 ≠ k.val) ∧
        (∀ j : Fin 16, j ≠ k → e.dma[j] = s.dev.dma[j]) ∧
        SameBut (dmaErrorRegs k ++ busErrorRegs) [.evt, .dma, .dmaOut] s.dev e) ∧
  (∀ (k : Fin 16) (n : Nat) (wr dram late : Bool) (a : Nat) (s : State), ((late = true ∨ (s.dev.dmaState k = dmIdle ∧ wr = true)) ∧ dmaTail s.dev k = some a) → 
      ∃ e, exec (.dmaBusError k n wr dram late) s = .next { s with dev := e } ∧
        e.dmaState k = dmHalted ∧ e.get (F.DMAc_FLAGS.BUS_ERR k) = 1 ∧ e.get (F.DMAc_ERR_INFO.VALID k) = 1 ∧
        (s.dev.bit (F.DMAc_ERR_INFO.VALID k) = false → e.get (F.DMAc_ERR_INFO.CAUSE k) = 0 ∧ e.bit (F.DMAc_ERR_INFO.WRITE k) = true ∧ e.pair (R.DMAc_ERR_ADDR_LO k) (R.DMAc_ERR_ADDR_HI k) = a % 2 ^ 64) ∧
        (s.dev.bit F.CORE_BUSERR_INFO.VALID = false → e.pair R.CORE_BUSERR_ADDR_LO R.CORE_BUSERR_ADDR_HI = a % 2 ^ 64 ∧ e.get F.CORE_BUSERR_INFO.MASTER = 5) ∧
        e.dmaOut = s.dev.dmaOut.filter (fun w => w.1 ≠ k.val) ∧
        (∀ j : Fin 16, j ≠ k → e.dma[j] = s.dev.dma[j]) ∧
        SameBut (dmaErrorRegs k ++ busErrorRegs) [.evt, .dma, .dmaOut] s.dev e) ∧
  (∀ (k : Fin 16) (n : Nat) (wr dram late : Bool) (s : State), ((late = true ∨ (s.dev.dmaState k ≠ dmRun ∧ s.dev.dmaState k ≠ dmDrain)) ∧ dmaTail s.dev k = none) → 
      ∃ e, exec (.dmaBusError k n wr dram late) s = .next { s with dev := e } ∧
        e = s.dev)

/-- When every line of the oldest group has come, its blocks (windows, then columns, then bands, each coded or raw as R327 to R331 say) join
the output buffer in order where they fit 1 MiB; an incomplete group stays, and one that geometry has passed by without a line of it
leaves without blocks (DEDUCED, log entry 246). The first block of the buffer is written to the data ring at the data position, wrapping,
and its index entry to the index ring; both positions (those of its own rings, where the rings have changed since its group began) advance
and CAP_BLOCKS counts, CAP_RAW_BLOCKS for a raw block. In stop mode a block that would pass a keep position is dropped, counted in
CAP_BLK_FULL and sets FULL. A read of a position captures both halves. It rests also on the model's choices of log entry 145. Each clause
concludes that exec i s = .next t; so shown to complete: captureGroupComplete, captureBlockStored, capPosRead. -/
def Obligations.CaptureBlocksAndRings : Prop :=
  (∀ (g : CapGroup) (rest : List CapGroup) (s : State), (s.dev.cap.groups.filter (fun x => !groupCut s.dev x) = g :: rest ∧ groupDone s.dev g = true) → capHeld s.dev + ((g.wins.flatMap (windowBlocks g)).map (fun b => b.bytes.length)).sum ≤ 1048576 → 
      ∃ e, exec (.captureGroupComplete []) s = .next { s with dev := e } ∧
        e.cap.groups = rest ∧
        e.cap.buffer = s.dev.cap.buffer ++ g.wins.flatMap (windowBlocks g) ∧
        e.get F.CAP_STATUS.CODING = (if rest.isEmpty then 0 else 1) ∧
        SameBut [R.CAP_STATUS] [.cap] s.dev e) ∧
  (∀ (g : CapGroup) (rest : List CapGroup) (bad : List Nat) (s : State), (s.dev.cap.groups.filter (fun x => !groupCut s.dev x) = g :: rest ∧ groupDone s.dev g = false) → 
      ∃ e, exec (.captureGroupComplete bad) s = .next { s with dev := e } ∧
        e.cap = { s.dev.cap with groups := g :: rest } ∧ e.get F.CAP_STATUS.CODING = 1 ∧
        SameBut [R.CAP_STATUS] [.cap] s.dev e) ∧
  (∀ (b : CapBlock) (rest : List CapBlock) (s : State), (s.dev.cap.buffer = b :: rest ∧ b.rings.stop = false ∧ b.rings.gen = s.dev.cap.gen) → 
      ∃ e, exec (.captureBlockStored) s = .next { s with dev := e } ∧
        e.cap.buffer = rest ∧ e.cap.wpos = s.dev.cap.wpos + b.bytes.length ∧ e.cap.ipos = s.dev.cap.ipos + 1 ∧
        e.mem = ((ringWrite s.dev b.rings.data b.rings.dataLog s.dev.cap.wpos b.bytes).setBytes (b.rings.idx + 16 * (s.dev.cap.ipos % 2 ^ b.rings.idxLog)) (indexEntry b s.dev.cap.wpos)).mem ∧
        e.get F.CAP_BLOCKS.COUNT = min (s.dev.get F.CAP_BLOCKS.COUNT + 1) 0xFFFFFFFF ∧
        e.get F.CAP_RAW_BLOCKS.COUNT = min (s.dev.get F.CAP_RAW_BLOCKS.COUNT + (if b.raw then 1 else 0)) 0xFFFFFFFF ∧
        SameButMem [R.CAP_STATUS, R.CAP_BLOCKS, R.CAP_RAW_BLOCKS] [.resv, .cap] ([(b.rings.data + s.dev.cap.wpos % 2 ^ b.rings.dataLog, min b.bytes.length (2 ^ b.rings.dataLog - s.dev.cap.wpos % 2 ^ b.rings.dataLog)), (b.rings.data, b.bytes.length - (2 ^ b.rings.dataLog - s.dev.cap.wpos % 2 ^ b.rings.dataLog)), (b.rings.idx + 16 * (s.dev.cap.ipos % 2 ^ b.rings.idxLog), 16)]) s.dev e) ∧
  (∀ (b : CapBlock) (rest : List CapBlock) (s : State), (s.dev.cap.buffer = b :: rest ∧ b.rings.stop = true ∧ b.rings.gen = s.dev.cap.gen) → s.dev.pair R.CAP_KEEP_LO R.CAP_KEEP_HI + 2 ^ b.rings.dataLog < s.dev.cap.wpos + b.bytes.length → 
      ∃ e, exec (.captureBlockStored) s = .next { s with dev := e } ∧
        e.cap.buffer = rest ∧ e.cap.wpos = s.dev.cap.wpos ∧ e.cap.ipos = s.dev.cap.ipos ∧
        e.get F.CAP_FLAGS.FULL = 1 ∧
        e.get F.CAP_BLK_FULL.COUNT = min (s.dev.get F.CAP_BLK_FULL.COUNT + 1) 0xFFFFFFFF ∧
        SameBut [R.CAP_STATUS, R.CAP_FLAGS, R.CAP_BLK_FULL] [.cap, .evt] s.dev e) ∧
  (∀ (b : CapBlock) (rest : List CapBlock) (s : State), (s.dev.cap.buffer = b :: rest ∧ b.rings.stop = false ∧ b.rings.gen ≠ s.dev.cap.gen) → 
      ∃ e, exec (.captureBlockStored) s = .next { s with dev := e } ∧
        e.cap.buffer = rest ∧ e.cap.wpos = s.dev.cap.wpos ∧ e.cap.ipos = s.dev.cap.ipos ∧ capPos e b.rings = ((capPos s.dev b.rings).1 + b.bytes.length, (capPos s.dev b.rings).2 + 1) ∧
        e.mem = ((ringWrite s.dev b.rings.data b.rings.dataLog (capPos s.dev b.rings).1 b.bytes).setBytes (b.rings.idx + 16 * ((capPos s.dev b.rings).2 % 2 ^ b.rings.idxLog)) (indexEntry b (capPos s.dev b.rings).1)).mem ∧
        SameButMem [R.CAP_STATUS, R.CAP_BLOCKS, R.CAP_RAW_BLOCKS] [.resv, .cap] ([(b.rings.data, 2 ^ b.rings.dataLog), (b.rings.data, b.bytes.length), (b.rings.idx + 16 * ((capPos s.dev b.rings).2 % 2 ^ b.rings.idxLog), 16)]) s.dev e) ∧
  (∀ (idx : Bool) (s : State), gateOpen s.dev (R.CAP_WPOS_LO) = true → 
      ∃ e, exec (.capPosRead idx) s = .next { s with dev := e } ∧
        e.pair (if idx then R.CAP_IPOS_LO else R.CAP_WPOS_LO) (if idx then R.CAP_IPOS_HI else R.CAP_WPOS_HI) = (if idx then s.dev.cap.ipos else s.dev.cap.wpos) % 2 ^ 64 ∧
        SameBut [if idx then R.CAP_IPOS_LO else R.CAP_WPOS_LO, if idx then R.CAP_IPOS_HI else R.CAP_WPOS_HI] [] s.dev e)

/-- MEM_REQUEST outside the usable capacity or before controller 0 reads RUN ends with a bus error; else it enters the queue of the controller
that the masks select when its port has a free entry and no other waits, or waits at its port. Served alone, a write puts its bytes in
memory and counts, and a whole burst with ECC_EN its codes in the code cache; a clean read delivers and counts; at debt 8 a refresh goes
first; an uncorrectable read with ECC delivers nothing, counts, latches address, port, word and syndrome, records fault 0x6201 and gives a
core a bus error and halts a DMA channel. Nothing is served outside RUN or in a training slot. An urgency step raises the urgency of that
request alone; at 3 MEMn_URG3 counts and a real-time port sets LAT_MISS. It rests also on the model's choices of log entries 106, 108,
113, 114, 241, 280. Each clause concludes that exec i s = .next t; so shown to complete: memRequest, memRequestComplete, urgencyStep. -/
def Obligations.DramRequests : Prop :=
  (∀ (port : Fin 9) (source a len cycle : Nat) (wr : Bool) (data : List Byte) (s : State), inDram s.dev a = false → 
      ∃ e, exec (.memRequest port source a len wr data cycle) s = .next { s with dev := e } ∧
        e.cores.busError = true ∧
        SameBut (busErrorRegs) [.cores, .fresh] s.dev e) ∧
  (∀ (port : Fin 9) (source a len cycle : Nat) (wr : Bool) (data : List Byte) (s : State), (inDram s.dev a = true ∧ dramServes s.dev = false) → 
      ∃ e, exec (.memRequest port source a len wr data cycle) s = .next { s with dev := e } ∧
        e.cores.busError = true ∧
        SameBut (busErrorRegs) [.cores, .fresh] s.dev e) ∧
  (∀ (port : Fin 9) (source a len n cycle now : Nat) (wr : Bool) (data : List Byte) (l : Nat) (r : MemReq) (s : State), (inDram s.dev a = true ∧ dramServes s.dev = true ∧ n = channelOf s.dev a ∧ (s.dev.ctl n).waiting = []) → (now = max (s.dev.ctl n).cycle cycle ∧ (s.dev.ctl n).queue.all (fun y => y.arrived != now) = true ∧ l = min (64 - a % 64) (if wr then data.length else len)) → r = { port := port, source := source, addr := a, len := l, write := wr, data := data.take l, issue := s.dev.dram.issued, arrived := now } → 
      ∃ e, exec (.memRequest port source a len wr data cycle) s = .next { s with dev := e } ∧
        (hasEntry (s.dev.ctl n).queue port = true → (e.ctl n).queue = (s.dev.ctl n).queue ++ [{ r with target := s.dev.get (F.MEM_LATm.TARGET port), accepted := now }] ∧ (e.ctl n).waiting = []) ∧
        (hasEntry (s.dev.ctl n).queue port = false → (e.ctl n).queue = (s.dev.ctl n).queue ∧ (e.ctl n).waiting = [r]) ∧
        (e.dram.issued = s.dev.dram.issued + 1 ∧ (e.ctl n).rows = (s.dev.ctl n).rows ∧ (∀ k : Fin 4, k.val ≠ n → e.ctl k = s.dev.ctl k)) ∧
        SameBut [] [.dram] s.dev e) ∧
  (∀ (n : Fin 4) (ready : List Nat) (wrong : List WordError) (cycle : Nat) (r : MemReq) (s : State), (s.dev.memState n = msRun ∧ s.dev.bit (F.MEMn_STATUS.SLOT n) = false ∧ s.dev.ctl n = { s.dev.ctl n with queue := [r], waiting := [], slotDue := false } ∧ ready.contains 0 = true ∧ inOrder s.dev n r = true) → (r.write = true ∧ s.dev.bit F.MEM_CFG.ECC_EN = false ∧ (debt s.dev n ≤ 0 ∨ (debt s.dev n < 8 ∧ bankOf s.dev r.addr ≠ (s.dev.ctl n).refBank))) → 
      ∃ e, exec (.memRequestComplete n ready wrong cycle) s = .next { s with dev := e } ∧
        e.bytes r.addr r.data.length = r.data ∧
        ((e.ctl n).queue = [] ∧ rowHit e n r = true ∧ (∀ k : Fin 4, k ≠ n → e.ctl k = s.dev.ctl k)) ∧
        e.get (F.MEMn_WR_BURSTS.COUNT n) = min (s.dev.get (F.MEMn_WR_BURSTS.COUNT n) + 1) 0xFFFFFFFF ∧
        (rowHit s.dev n r = true → e.get (F.MEMn_ROW_HITS.COUNT n) = min (s.dev.get (F.MEMn_ROW_HITS.COUNT n) + 1) 0xFFFFFFFF) ∧
        (rowHit s.dev n r = false → e.get (F.MEMn_ROW_MISSES.COUNT n) = min (s.dev.get (F.MEMn_ROW_MISSES.COUNT n) + 1) 0xFFFFFFFF) ∧
        SameButMem [(if rowHit s.dev n r then R.MEMn_ROW_HITS n else R.MEMn_ROW_MISSES n), R.MEMn_WR_BURSTS n, R.MEMn_PORT_BURSTSm n r.port] [.resv, .dram] ([(r.addr, r.data.length)]) s.dev e) ∧
  (∀ (n : Fin 4) (ready : List Nat) (wrong : List WordError) (cycle : Nat) (r : MemReq) (s : State), (s.dev.memState n = msRun ∧ s.dev.bit (F.MEMn_STATUS.SLOT n) = false ∧ s.dev.ctl n = { s.dev.ctl n with queue := [r], waiting := [], slotDue := false } ∧ ready.contains 0 = true ∧ inOrder s.dev n r = true) → (r.write = true ∧ s.dev.bit F.MEM_CFG.ECC_EN = true ∧ r.data.length = 64 ∧ (s.dev.ctl n).cache.length < 64 ∧ (s.dev.ctl n).cache.all (fun y => y.codes.length == 64) = true ∧ (debt s.dev n ≤ 0 ∨ (debt s.dev n < 8 ∧ bankOf s.dev r.addr ≠ (s.dev.ctl n).refBank))) → 
      ∃ e, exec (.memRequestComplete n ready wrong cycle) s = .next { s with dev := e } ∧
        e.bytes r.addr 64 = r.data ∧ (e.ctl n).queue = [] ∧ rowHit e n r = true ∧
        (e.ctl n).cache.any (fun y => y.addr == codeAddr s.dev r.addr / 64 * 64 && (y.codes.drop (codeAddr s.dev r.addr % 64)).take 8 == codesOf r.data) = true ∧
        e.get (F.MEMn_WR_BURSTS.COUNT n) = min (s.dev.get (F.MEMn_WR_BURSTS.COUNT n) + 1) 0xFFFFFFFF ∧
        SameButMem [(if rowHit s.dev n r then R.MEMn_ROW_HITS n else R.MEMn_ROW_MISSES n), R.MEMn_WR_BURSTS n, R.MEMn_PORT_BURSTSm n r.port] [.resv, .dram] ([(r.addr, 64)]) s.dev e) ∧
  (∀ (n : Fin 4) (ready : List Nat) (cycle : Nat) (r : MemReq) (s : State), (s.dev.memState n = msRun ∧ s.dev.bit (F.MEMn_STATUS.SLOT n) = false ∧ s.dev.ctl n = { s.dev.ctl n with queue := [r], waiting := [], slotDue := false } ∧ ready.contains 0 = true ∧ inOrder s.dev n r = true) → (r.write = false ∧ (s.dev.bit F.MEM_CFG.ECC_EN = true → (s.dev.ctl n).cache.length < 64) ∧ (debt s.dev n ≤ 0 ∨ (debt s.dev n < 8 ∧ bankOf s.dev r.addr ≠ (s.dev.ctl n).refBank))) → 
      ∃ e, exec (.memRequestComplete n ready [] cycle) s = .next { s with dev := e } ∧
        (e.ctl n).queue = [] ∧ rowHit e n r = true ∧ ({ port := r.port, source := r.source, data := s.dev.bytes r.addr r.len } : MemReply) ∈ e.dram.replies ∧
        e.get (F.MEMn_RD_BURSTS.COUNT n) = min (s.dev.get (F.MEMn_RD_BURSTS.COUNT n) + 1) 0xFFFFFFFF ∧
        SameBut [(if rowHit s.dev n r then R.MEMn_ROW_HITS n else R.MEMn_ROW_MISSES n), R.MEMn_RD_BURSTS n, R.MEMn_PORT_BURSTSm n r.port] [.dram] s.dev e) ∧
  (∀ (n : Fin 4) (ready : List Nat) (cycle : Nat) (r : MemReq) (s : State), (s.dev.memState n = msRun ∧ s.dev.bit (F.MEMn_STATUS.SLOT n) = false ∧ s.dev.ctl n = { s.dev.ctl n with queue := [r], waiting := [], slotDue := false } ∧ ready.contains 0 = true ∧ inOrder s.dev n r = true) → (r.write = false ∧ s.dev.bit F.MEM_CFG.ECC_EN = false ∧ debt s.dev n = 8 ∧ (s.dev.ctl n).refBank < 16 ∧ bankOf s.dev r.addr = (s.dev.ctl n).refBank) → 
      ∃ e, exec (.memRequestComplete n ready [] cycle) s = .next { s with dev := e } ∧
        debt e n = 7 ∧ e.get (F.MEMn_REF_FORCED.COUNT n) = min (s.dev.get (F.MEMn_REF_FORCED.COUNT n) + 1) 0xFFFFFFFF ∧ e.get (F.MEMn_FLAGS.REF_FORCED n) = 1 ∧
        (e.ctl n).queue = [] ∧ (e.ctl n).refBank = ((s.dev.ctl n).refBank + 1) % 16 ∧ rowHit e n r = true ∧
        e.get (F.MEMn_ROW_MISSES.COUNT n) = min (s.dev.get (F.MEMn_ROW_MISSES.COUNT n) + 1) 0xFFFFFFFF ∧
        SameBut [R.MEMn_STATUS n, R.MEMn_REF_FORCED n, R.MEMn_FLAGS n, R.MEMn_ROW_MISSES n, R.MEMn_RD_BURSTS n, R.MEMn_PORT_BURSTSm n r.port] [.dram, .evt] s.dev e) ∧
  (∀ (n : Fin 4) (ready : List Nat) (x : WordError) (b : Fin 72) (cycle : Nat) (r : MemReq) (s : State), (s.dev.memState n = msRun ∧ s.dev.bit (F.MEMn_STATUS.SLOT n) = false ∧ s.dev.ctl n = { s.dev.ctl n with queue := [r], waiting := [], slotDue := false } ∧ ready.contains 0 = true ∧ inOrder s.dev n r = true) → (x.second = some b ∧ r.write = false ∧ s.dev.bit F.MEM_CFG.ECC_EN = true ∧ s.dev.bit (F.MEMn_ERR_INFO.VALID n) = false ∧ (s.dev.ctl n).cache.length < 64 ∧ (debt s.dev n ≤ 0 ∨ (debt s.dev n < 8 ∧ bankOf s.dev r.addr ≠ (s.dev.ctl n).refBank))) → ((r.port = 4 ∨ (r.port = 5 ∧ s.dev.dmaState (r.source % 16) = dmRun)) ∧ dramBase ≤ r.addr ∧ r.addr < dramBase + 2 ^ 40) → 
      ∃ e, exec (.memRequestComplete n ready [x] cycle) s = .next { s with dev := e } ∧
        (e.ctl n).queue = [] ∧ e.get (F.MEMn_ECC_UNCORR.COUNT n) = min (s.dev.get (F.MEMn_ECC_UNCORR.COUNT n) + 1) 0xFFFFFFFF ∧ e.get (F.MEMn_FLAGS.ECC_UNCORR n) = 1 ∧
        e.pair (R.MEMn_ERR_ADDR_LO n) (R.MEMn_ERR_ADDR_HI n) = r.addr - dramBase ∧ e.get (F.MEMn_ERR_INFO.VALID n) = 1 ∧ e.get (F.MEMn_ERR_INFO.UNCORR n) = 1 ∧ e.get (F.MEMn_ERR_INFO.PORT n) = r.port ∧
        e.get (F.MEMn_ERR_INFO.WORD n) = x.word ∧ e.get (F.MEMn_ERR_INFO.SYNDROME n) = (Config.syndrome [x.bit.val, b.val]).toNat ∧
        (r.port = 4 → e.cores.busError = true) ∧
        (r.port = 5 → e.dmaState (r.source % 16) = dmHalted ∧ e.get (F.DMAc_FLAGS.BUS_ERR (r.source % 16)) = 1) ∧
        e.get F.FLT_LAST.CODE = faultEccUncorr ∧ e.get F.FLT_LAST.INDEX = n ∧ e.dram.replies = s.dev.dram.replies ∧
        SameButMem ([R.MEMn_ROW_HITS n, R.MEMn_ROW_MISSES n, R.MEMn_RD_BURSTS n, R.MEMn_PORT_BURSTSm n r.port, R.MEMn_ECC_UNCORR n, R.MEMn_FLAGS n, R.MEMn_ERR_ADDR_LO n, R.MEMn_ERR_ADDR_HI n, R.MEMn_ERR_INFO n] ++ faultRegs ++ busErrorRegs ++ dmaErrorRegs (r.source % 16)) [.resv, .dram, .evt, .cores, .fresh, .dma, .dmaOut] ([faultBytes]) s.dev e) ∧
  (∀ (n : Fin 4) (ready : List Nat) (wrong : List WordError) (cycle : Nat) (s : State), (s.dev.memState n ≠ msRun ∨ s.dev.bit (F.MEMn_STATUS.SLOT n) = true ∨ (s.dev.ctl n).queue = []) → 
      ∃ e, exec (.memRequestComplete n ready wrong cycle) s = .next { s with dev := e } ∧
        e = s.dev) ∧
  (∀ (n : Fin 4) (k : Nat) (r : MemReq) (s : State), ((s.dev.ctl n).queue[k]? = some r ∧ r.urgency < 3 ∧ ((s.dev.ctl n).queue.filter (fun y => y.issue = r.issue)).length = 1) → 
      ∃ e, exec (.urgencyStep n k) s = .next { s with dev := e } ∧
        (e.ctl n).queue = (s.dev.ctl n).queue.set k { r with urgency := r.urgency + 1 } ∧ (e.ctl n).waiting = (s.dev.ctl n).waiting ∧
        (r.urgency = 2 → e.get (F.MEMn_URG3.COUNT n) = min (s.dev.get (F.MEMn_URG3.COUNT n) + 1) 0xFFFFFFFF) ∧
        (r.urgency = 2 → portRT s.dev r.port = true → e.get (F.MEMn_FLAGS.LAT_MISS n) = 1) ∧
        (r.urgency ≠ 2 → e.evt = s.dev.evt ∧ e.regs = s.dev.regs) ∧
        SameBut [R.MEMn_URG3 n, R.MEMn_FLAGS n] [.dram, .evt] s.dev e) ∧
  (∀ (n : Fin 4) (k : Nat) (s : State), (s.dev.ctl n).queue.length ≤ k → 
      ∃ e, exec (.urgencyStep n k) s = .next { s with dev := e } ∧
        e = s.dev)

/-- MEM_INIT with INIT and valid masks sets LOCK and puts all controllers in TRAIN; with invalid masks it only sets MAP_REJ; a locked RATE,
CAP or ECC_EN keeps its value. Training that passes enters RUN with debt 0. In RUN a refresh step adds 1 to the debt up to 8; a refresh at
debt 8 always issues, counts and flags, at a positive debt unless a real-time request is urgent, at 0 or below only above -8 with an empty
queue, and subtracts 1 and closes the bank. MR4 sets the multiplier, and above the limit TEMP_HIGH and a fault. A drift above DRIFT_THR
starts a counted retraining, which waits while a real-time request is urgent; one that fails sets TRAIN_FAIL and a fault. It rests also on
the model's choices of log entries 109, 110, 111, 112, 242. Each clause concludes that exec i s = .next t; so shown to complete: memInit,
memTrainDone, refreshDebtStep, refreshIssue, mr4Poll, driftCheck, driftRetrainDone. -/
def Obligations.DramRefreshAndTraining : Prop :=
  (∀ (value : Word) (s : State), (F.MEM_CFG.INIT.of value = 1 ∧ masksOk s.dev = true) → gateOpen s.dev (R.MEM_CFG) = true → 
      ∃ e, exec (.memInit value) s = .next { s with dev := e } ∧
        e.get F.MEM_CFG.LOCK = 1 ∧ (∀ n : Fin 4, e.memState n = msTrain ∧ e.ctl n = {}) ∧
        (s.dev.bit F.MEM_CFG.LOCK = true → e.rd R.MEM_CFG = s.dev.rd R.MEM_CFG) ∧
        (s.dev.bit F.MEM_CFG.LOCK = false → e.get F.MEM_CFG.RATE = F.MEM_CFG.RATE.of value ∧ e.get F.MEM_CFG.CAP = F.MEM_CFG.CAP.of value ∧ e.get F.MEM_CFG.ECC_EN = F.MEM_CFG.ECC_EN.of value) ∧
        SameBut [R.MEM_CFG, R.MEMn_STATUS 0, R.MEMn_STATUS 1, R.MEMn_STATUS 2, R.MEMn_STATUS 3] [.dram] s.dev e) ∧
  (∀ (value : Word) (s : State), (F.MEM_CFG.INIT.of value = 1 ∧ masksOk s.dev = false) → gateOpen s.dev (R.MEM_CFG) = true → 
      ∃ e, exec (.memInit value) s = .next { s with dev := e } ∧
        e.get (F.MEMn_FLAGS.MAP_REJ 0) = 1 ∧
        SameBut [R.MEM_CFG, R.MEMn_FLAGS 0] [.evt] s.dev e) ∧
  (∀ (n : Fin 4) (s : State), s.dev.memState n = msTrain → 
      ∃ e, exec (.memTrainDone n true) s = .next { s with dev := e } ∧
        e.memState n = msRun ∧ debt e n = 0 ∧ e.get (F.MEMn_STATUS.MULT n) = 0 ∧ e.get (F.MEMn_STATUS.SLOT n) = s.dev.get (F.MEMn_STATUS.SLOT n) ∧
        SameBut [R.MEMn_STATUS n] [] s.dev e) ∧
  (∀ (n : Fin 4) (ok : Bool) (s : State), s.dev.memState n ≠ msTrain → 
      ∃ e, exec (.memTrainDone n ok) s = .next { s with dev := e } ∧
        e = s.dev) ∧
  (∀ (n : Fin 4) (s : State), (s.dev.memState n = msRun ∧ -8 ≤ debt s.dev n ∧ debt s.dev n < 8) → 
      ∃ e, exec (.refreshDebtStep n) s = .next { s with dev := e } ∧
        debt e n = debt s.dev n + 1 ∧ e.memState n = msRun ∧
        SameBut [R.MEMn_STATUS n] [] s.dev e) ∧
  (∀ (n : Fin 4) (s : State), (s.dev.memState n ≠ msRun ∨ debt s.dev n = 8) → 
      ∃ e, exec (.refreshDebtStep n) s = .next { s with dev := e } ∧
        e = s.dev) ∧
  (∀ (n : Fin 4) (s : State), (s.dev.memState n = msRun ∧ s.dev.bit (F.MEMn_STATUS.SLOT n) = false ∧ debt s.dev n = 8 ∧ (s.dev.ctl n).refBank < 16) → 
      ∃ e, exec (.refreshIssue n) s = .next { s with dev := e } ∧
        debt e n = 7 ∧ e.get (F.MEMn_REF_FORCED.COUNT n) = min (s.dev.get (F.MEMn_REF_FORCED.COUNT n) + 1) 0xFFFFFFFF ∧ e.get (F.MEMn_FLAGS.REF_FORCED n) = 1 ∧
        (e.ctl n).rows[(s.dev.ctl n).refBank]? = some none ∧ (e.ctl n).refBank = ((s.dev.ctl n).refBank + 1) % 16 ∧ (e.ctl n).queue = (s.dev.ctl n).queue ∧
        SameBut [R.MEMn_STATUS n, R.MEMn_REF_FORCED n, R.MEMn_FLAGS n] [.dram, .evt] s.dev e) ∧
  (∀ (n : Fin 4) (s : State), (s.dev.memState n = msRun ∧ s.dev.bit (F.MEMn_STATUS.SLOT n) = false ∧ -8 < debt s.dev n ∧ debt s.dev n < 8 ∧ (if 0 < debt s.dev n then rtUrgent s.dev n = false else (s.dev.ctl n).queue = [])) → 
      ∃ e, exec (.refreshIssue n) s = .next { s with dev := e } ∧
        debt e n = debt s.dev n - 1 ∧ (e.ctl n).rows = withUnit (s.dev.ctl n).rows (s.dev.ctl n).refBank none ∧
        SameBut [R.MEMn_STATUS n] [.dram] s.dev e) ∧
  (∀ (n : Fin 4) (s : State), (s.dev.memState n ≠ msRun ∨ s.dev.bit (F.MEMn_STATUS.SLOT n) = true ∨ (0 < debt s.dev n ∧ debt s.dev n < 8 ∧ rtUrgent s.dev n = true) ∨ (debt s.dev n ≤ 0 ∧ (s.dev.ctl n).queue ≠ [])) → 
      ∃ e, exec (.refreshIssue n) s = .next { s with dev := e } ∧
        e = s.dev) ∧
  (∀ (n : Fin 4) (mult : Fin 3) (hot : Bool) (s : State), s.dev.memState n = msRun → 
      ∃ e, exec (.mr4Poll n mult hot) s = .next { s with dev := e } ∧
        e.get (F.MEMn_STATUS.MULT n) = mult ∧ debt e n = debt s.dev n ∧
        (hot = true → e.get (F.MEMn_FLAGS.TEMP_HIGH n) = 1 ∧ e.get F.FLT_LAST.CODE = faultTempHigh ∧ e.get F.FLT_LAST.INDEX = n) ∧
        (hot = false → e.evt = s.dev.evt ∧ e.mem = s.dev.mem ∧ e.rd R.FLT_LAST = s.dev.rd R.FLT_LAST) ∧
        SameButMem ([R.MEMn_STATUS n, R.MEMn_FLAGS n] ++ faultRegs) [.resv, .evt] ([faultBytes]) s.dev e) ∧
  (∀ (n : Fin 4) (ps : Nat) (s : State), (s.dev.memState n = msRun ∧ s.dev.get F.MEM_TRAIN.DRIFT_THR < ps ∧ s.dev.bit (F.MEMn_STATUS.SLOT n) = false ∧ rtUrgent s.dev n = false) → 
      ∃ e, exec (.driftCheck n ps) s = .next { s with dev := e } ∧
        e.get (F.MEMn_STATUS.SLOT n) = 1 ∧ e.get (F.MEMn_RETRAINS.COUNT n) = min (s.dev.get (F.MEMn_RETRAINS.COUNT n) + 1) 0xFFFFFFFF ∧ e.get (F.MEMn_FLAGS.DRIFT_RETRAIN n) = 1 ∧
        e.ctl n = { s.dev.ctl n with slotDue := false } ∧
        SameBut [R.MEMn_STATUS n, R.MEMn_RETRAINS n, R.MEMn_FLAGS n] [.evt, .dram] s.dev e) ∧
  (∀ (n : Fin 4) (ps : Nat) (s : State), (s.dev.memState n = msRun ∧ s.dev.get F.MEM_TRAIN.DRIFT_THR < ps ∧ s.dev.bit (F.MEMn_STATUS.SLOT n) = false ∧ rtUrgent s.dev n = true) → 
      ∃ e, exec (.driftCheck n ps) s = .next { s with dev := e } ∧
        (e.ctl n = { s.dev.ctl n with slotDue := true } ∧ (∀ k : Fin 4, k ≠ n → e.ctl k = s.dev.ctl k)) ∧
        SameBut [] [.dram] s.dev e) ∧
  (∀ (n : Fin 4) (ps : Nat) (s : State), (s.dev.memState n ≠ msRun ∨ ps ≤ s.dev.get F.MEM_TRAIN.DRIFT_THR ∨ s.dev.bit (F.MEMn_STATUS.SLOT n) = true) → 
      ∃ e, exec (.driftCheck n ps) s = .next { s with dev := e } ∧
        e = s.dev) ∧
  (∀ (n : Fin 4) (ok : Bool) (s : State), s.dev.bit (F.MEMn_STATUS.SLOT n) = true → 
      ∃ e, exec (.driftRetrainDone n ok) s = .next { s with dev := e } ∧
        e.get (F.MEMn_STATUS.SLOT n) = 0 ∧ e.memState n = s.dev.memState n ∧
        (ok = false → e.get (F.MEMn_FLAGS.TRAIN_FAIL n) = 1 ∧ e.get F.FLT_LAST.CODE = faultRetrainFail ∧ e.get F.FLT_LAST.INDEX = n) ∧
        (ok = true → e.evt = s.dev.evt ∧ e.mem = s.dev.mem) ∧
        SameButMem ([R.MEMn_STATUS n, R.MEMn_FLAGS n] ++ faultRegs) [.resv, .evt] ([faultBytes]) s.dev e)

/-- PLAN_WRITE without GO only stores its fields; with GO, G at most 256 and a cycle at least 2 (3 in a pair) and at most 63 ahead, counted
from the next line where that is triggered in the same clock cycle, it stores the plan with RSV_PLAN_Q in the place of any plan of that
cycle index modulo 64, and an active unit of a pair sends it on, else it sets PLAN_REJ. An energy sample below 140 degrees adds to every
region's accumulator and to the cycle's, keeps the highest temperature and sets CASE_OVER above T_CASE + 5. A domain in SHUTDOWN whose
work has ended goes OFF, or wakes where a request is held; a waking domain goes ON; in other states these change nothing. It rests also on
the model's choices of log entry 190. Each clause concludes that exec i s = .next t; so shown to complete: planWrite, energyMeterSample,
domainPowerDown, domainPowerUp. -/
def Obligations.ReservoirPlansAndDomains : Prop :=
  (∀ (value : Word) (crossing : Bool) (s : State), F.RSV_PLAN.GO.of value = 0 → gateOpen s.dev (R.RSV_PLAN) = true → 
      ∃ e, exec (.planWrite value crossing) s = .next { s with dev := e } ∧
        e.get F.RSV_PLAN.G = F.RSV_PLAN.G.of value ∧ e.get F.RSV_PLAN.CAPT = F.RSV_PLAN.CAPT.of value ∧ e.get F.RSV_PLAN.CAL = F.RSV_PLAN.CAL.of value ∧
        SameBut [R.RSV_PLAN] [] s.dev e) ∧
  (∀ (value : Word) (crossing : Bool) (c : Nat) (n : Nat) (k : Int) (s : State), (F.RSV_PLAN.GO.of value = 1 ∧ F.RSV_PLAN.G.of value ≤ 256 ∧ n = 32 - cycleLog2 s.dev ∧ c = s.dev.get F.RSV_PLAN_CYCLE.V % 2 ^ n) → (k = sx n (wrapN n ((c : Int) - cycleOf s.dev (if crossing ∧ s.dev.lining then s.dev.tb.next else s.dev.tb.count))) ∧ (if s.dev.bit F.PAIR_CFG.EN then 3 else 2) ≤ k ∧ k ≤ 63) → gateOpen s.dev (R.RSV_PLAN) = true → 
      ∃ e, exec (.planWrite value crossing) s = .next { s with dev := e } ∧
        e.rsv.plans = { cycle := c, g := F.RSV_PLAN.G.of value, q := s.dev.get F.RSV_PLAN_Q.V, capt := F.RSV_PLAN.CAPT.of value = 1, cal := F.RSV_PLAN.CAL.of value = 1 } :: s.dev.rsv.plans.filter (fun x => x.cycle % 64 ≠ c % 64) ∧
        e.rsv.plan = s.dev.rsv.plan ∧ e.get F.RSV_FLAGS.PLAN_REJ = s.dev.get F.RSV_FLAGS.PLAN_REJ ∧
        (s.dev.bit F.PAIR_CFG.EN = false → e.pr = s.dev.pr) ∧
        (s.dev.bit F.PAIR_CFG.EN = true → s.dev.pairState = pairActive → (e.pr.outbox.map Prod.fst) = s.dev.pr.outbox.map Prod.fst ++ [firstOfCycle s.dev c]) ∧
        SameBut [R.RSV_PLAN] [.rsv, .pr] s.dev e) ∧
  (∀ (value : Word) (crossing : Bool) (n : Nat) (k : Int) (s : State), (F.RSV_PLAN.GO.of value = 1 ∧ n = 32 - cycleLog2 s.dev) → (k = sx n (wrapN n (((s.dev.get F.RSV_PLAN_CYCLE.V % 2 ^ n : Nat) : Int) - cycleOf s.dev (if crossing ∧ s.dev.lining then s.dev.tb.next else s.dev.tb.count)))) → (256 < F.RSV_PLAN.G.of value ∨ k < (if s.dev.bit F.PAIR_CFG.EN then 3 else 2) ∨ 63 < k) → gateOpen s.dev (R.RSV_PLAN) = true → 
      ∃ e, exec (.planWrite value crossing) s = .next { s with dev := e } ∧
        e.get F.RSV_FLAGS.PLAN_REJ = 1 ∧
        SameBut [R.RSV_PLAN, R.RSV_FLAGS] [.evt] s.dev e) ∧
  (∀ (energy : List Nat) (temps : List Int) (s : State), (∀ t ∈ temps, t < 1120) → 
      ∃ e, exec (.energyMeterSample energy temps) s = .next { s with dev := e } ∧
        (∀ r : Fin 6, e.rsv.acc[r] = s.dev.rsv.acc[r] + energy.getD r 0 ∧ e.rsv.cyc[r] = s.dev.rsv.cyc[r] + energy.getD r 0) ∧
        (∀ t ∈ temps, t ≤ e.rsv.tj.getD t) ∧
        ((temps.any (fun t => decide (8 * ((s.dev.get F.RSV_TCASE.T_CASE : Int) + 5) < t))) = true → e.get F.RSV_FLAGS.CASE_OVER = 1) ∧
        ((temps.any (fun t => decide (8 * ((s.dev.get F.RSV_TCASE.T_CASE : Int) + 5) < t))) = false → e.rd R.RSV_FLAGS = s.dev.rd R.RSV_FLAGS) ∧
        e.rsv.plan = s.dev.rsv.plan ∧ e.rsv.hist = s.dev.rsv.hist ∧ e.safe = s.dev.safe ∧
        SameBut [R.RSV_FLAGS] [.rsv, .evt, .flt] s.dev e) ∧
  (∀ (k : Fin 2) (s : State), (s.dev.get (domState k) = 3 ∧ domIdle s.dev k = true ∧ domWaits s.dev k = false) → 
      ∃ e, exec (.domainPowerDown k) s = .next { s with dev := e } ∧
        e.get (domState k) = (if s.dev.bit (domPending k) then 1 else 2) ∧ e.bit (domPending k) = false ∧
        SameBut [R.RSV_POWER, R.CASC_CAP, R.CASC_FLAGS] [.evt] s.dev e) ∧
  (∀ (k : Fin 2) (s : State), (s.dev.get (domState k) ≠ 3 ∨ domIdle s.dev k = false ∨ domWaits s.dev k = true) → 
      ∃ e, exec (.domainPowerDown k) s = .next { s with dev := e } ∧
        e = s.dev) ∧
  (∀ (k : Fin 2) (s : State), s.dev.get (domState k) = 1 → 
      ∃ e, exec (.domainPowerUp k) s = .next { s with dev := e } ∧
        e.get (domState k) = 0 ∧ e.bit (domPending k) = s.dev.bit (domPending k) ∧
        SameBut [R.RSV_POWER, R.CASC_CAP, R.CASC_FLAGS] [.evt] s.dev e) ∧
  (∀ (k : Fin 2) (s : State), s.dev.get (domState k) ≠ 1 → 
      ∃ e, exec (.domainPowerUp k) s = .next { s with dev := e } ∧
        e = s.dev)

/-- An ECLK cycle (with no software firing in flight, no EVT apply due and one event of a stamp on a rill, unless said) in which the oldest
event of a rill crosses takes it out of flight, pends the rill interrupts that enable it and hands it to the consumers; a software firing
crosses in the next cycle; two events of one rill become one with the earlier stamp, counted with COALESCE; every cell off takes the stamp
of an event on its inputs. While the Control region is in reset nothing crosses. A cell whose LUT rises with its input sets OUT and fires
its own rill with that stamp, or trips with fault 0x1202 once its window holds RATE_MAX events. CELL_FILTER_EXPIRE lets the held value
pass. The window's end zeroes its count. EVT_FIRE of a rill up to 383 puts an event in flight, above it sets FIRE_REJ. EVT_REARM clears
the tripped bits written and restarts their cells, which keep the stamp of their last event, but not those that tripped in that cycle.
That cells off take stamps, the passes over chained cells and the order of several software firings are the model's choice (log entries
165, 166, 168). Each clause concludes that exec i s = .next t; so shown to complete: rillEvent, cellFilterExpire, cellRateWindow, evtFire,
evtRearm. -/
def Obligations.RillEventsAndCells : Prop :=
  (∀ (r : Fin 384) (a : RillEvent) (rest : List RillEvent) (s : State), (a.soft = false ∧ rest.all (fun x => !x.soft && (x.rill != r.val || x.stamp != a.stamp)) = true ∧ s.dev.evt.later = none ∧ s.dev.resetting 1 = false) → (s.dev.evt.inflight = a :: rest ∧ a.rill = r ∧ (∀ k : Fin 64, cellOn s.dev k = false)) → 
      ∃ e, exec (.rillEvent 0 [(r, 1)]) s = .next { s with dev := cyclePassed (consume e r a.stamp) } ∧
        e.evt.inflight = rest ∧ (∀ k : Fin 64, e.cell k = stampedBy s.dev k [r] a.stamp) ∧
        (∀ j : Fin 32, bitAt (e.rd R.EVT_RI_PEND).toNat j = (bitAt (s.dev.rd R.EVT_RI_PEND).toNat j || (decide (r.val / 16 = j) && bitAt (s.dev.rd (R.EVT_RIj_EN j)).toNat (r.val % 16)))) ∧
        SameBut [R.EVT_RI_PEND] [.evt] s.dev e) ∧
  (∀ (r : Fin 384) (a : RillEvent) (b : RillEvent) (rest : List RillEvent) (s : State), (a.soft = false ∧ b.soft = false ∧ rest.all (fun x => !x.soft && (x.rill != r.val || x.stamp != b.stamp)) = true ∧ s.dev.evt.later = none ∧ s.dev.resetting 1 = false) → (s.dev.evt.inflight = a :: b :: rest ∧ a.rill = r ∧ b.rill = r ∧ (∀ k : Fin 64, cellOn s.dev k = false)) → 
      ∃ e, exec (.rillEvent 0 [(r, 2)]) s = .next { s with dev := cyclePassed (consume e r (earlier a.stamp b.stamp)) } ∧
        e.get F.EVT_COAL.V = min (s.dev.get F.EVT_COAL.V + 1) 0xFFFFFFFF ∧ e.get F.EVT_FLAGS.COALESCE = 1 ∧ e.evt.inflight.take rest.length = rest ∧ (∀ k : Fin 64, e.cell k = stampedBy s.dev k [r] (earlier a.stamp b.stamp)) ∧
        SameBut [R.EVT_RI_PEND, R.EVT_COAL, R.EVT_FLAGS] [.evt] s.dev e) ∧
  (∀ (a : RillEvent) (s : State), (s.dev.evt.inflight = [a] ∧ a.soft = true ∧ a.rill < 384 ∧ s.dev.evt.later = none ∧ s.dev.resetting 1 = false ∧ (∀ k : Fin 64, cellOn s.dev k = false)) → 
      ∃ e, exec (.rillEvent 0 []) s = .next { s with dev := cyclePassed (consume e a.rill a.stamp) } ∧
        e.evt.inflight = [] ∧ (∀ k : Fin 64, e.cell k = stampedBy s.dev k [a.rill] a.stamp) ∧
        (∀ j : Fin 32, bitAt (e.rd R.EVT_RI_PEND).toNat j = (bitAt (s.dev.rd R.EVT_RI_PEND).toNat j || (decide (a.rill / 16 = j) && bitAt (s.dev.rd (R.EVT_RIj_EN j)).toNat (a.rill % 16)))) ∧
        SameBut [R.EVT_RI_PEND] [.evt] s.dev e) ∧
  (∀ (n : Nat) (s : State), ((∀ k : Fin 64, cellOn s.dev k = false) ∧ s.dev.evt.later = none ∧ s.dev.resetting 1 = false ∧ s.dev.evt.inflight.all (fun x => !x.soft) = true) → 
      ∃ e, exec (.rillEvent n []) s = .next { s with dev := e } ∧
        e = { s.dev with evt := { s.dev.evt with cycle := s.dev.evt.cycle + n + 1 } }) ∧
  (∀ (n : Nat) (l : List (Fin 384 × Nat)) (s : State), s.dev.resetting 1 = true → 
      ∃ e, exec (.rillEvent n l) s = .next { s with dev := e } ∧
        e = s.dev) ∧
  (∀ (r : Fin 384) (a : RillEvent) (rest : List RillEvent) (k : Fin 64) (s : State), (a.soft = false ∧ rest.all (fun x => !x.soft && (x.rill != r.val || x.stamp != a.stamp)) = true ∧ s.dev.evt.later = none ∧ s.dev.resetting 1 = false) → (s.dev.evt.inflight = a :: rest ∧ a.rill = r ∧ r.val ≠ 256 + k ∧ cellOn s.dev k = true ∧ (∀ j : Fin 64, j ≠ k → cellOn s.dev j = false)) → (cellInput s.dev k 0 = (r.val, false) ∧ cellInput s.dev k 1 = (0x1FF, false) ∧ cellInput s.dev k 2 = (0x1FF, false) ∧ cellInput s.dev k 3 = (0x1FF, false)) → (bitAt (s.dev.get (F.EVT_Ck_CFG.LUT k)) 1 = true ∧ s.dev.get (F.EVT_Ck_CFG.FILT k) = 0 ∧ s.dev.bit (F.EVT_Ck_CFG.FF k) = false ∧ s.dev.bit (F.EVT_Ck_CFG.OUT k) = false) → (s.dev.get (F.EVT_Ck_RATE.RATE_MAX k) = 0 ∨ (s.dev.cell k).fired < s.dev.get (F.EVT_Ck_RATE.RATE_MAX k)) → 
      ∃ e, exec (.rillEvent 0 [(r, 1)]) s = .next { s with dev := cyclePassed (consume (consume e r a.stamp) (256 + k) a.stamp) } ∧
        e.get (F.EVT_Ck_CFG.OUT k) = 1 ∧ (e.cell k).passed = true ∧ (e.cell k).lastStamp = a.stamp ∧ (e.cell k).fired = (s.dev.cell k).fired + (if s.dev.get (F.EVT_Ck_RATE.RATE_MAX k) = 0 then 0 else 1) ∧
        (e.evt.inflight = rest ∧ (∀ j : Fin 64, j ≠ k → e.cell j = stampedBy s.dev j [r, 256 + k] a.stamp)) ∧
        SameBut [R.EVT_Ck_CFG k, R.EVT_RI_PEND, R.EVT_COAL, R.EVT_FLAGS] [.evt] s.dev e) ∧
  (∀ (r : Fin 384) (a : RillEvent) (rest : List RillEvent) (k : Fin 64) (s : State), (a.soft = false ∧ rest.all (fun x => !x.soft && (x.rill != r.val || x.stamp != a.stamp)) = true ∧ s.dev.evt.later = none ∧ s.dev.resetting 1 = false) → (s.dev.evt.inflight = a :: rest ∧ a.rill = r ∧ r.val ≠ 256 + k ∧ cellOn s.dev k = true ∧ (∀ j : Fin 64, j ≠ k → cellOn s.dev j = false)) → (cellInput s.dev k 0 = (r.val, false) ∧ cellInput s.dev k 1 = (0x1FF, false) ∧ cellInput s.dev k 2 = (0x1FF, false) ∧ cellInput s.dev k 3 = (0x1FF, false)) → (bitAt (s.dev.get (F.EVT_Ck_CFG.LUT k)) 1 = true ∧ s.dev.get (F.EVT_Ck_CFG.FILT k) = 0 ∧ s.dev.bit (F.EVT_Ck_CFG.FF k) = false ∧ s.dev.bit (F.EVT_Ck_CFG.OUT k) = false) → (s.dev.get (F.EVT_Ck_RATE.RATE_MAX k) ≠ 0 ∧ s.dev.get (F.EVT_Ck_RATE.RATE_MAX k) ≤ (s.dev.cell k).fired) → 
      ∃ e, exec (.rillEvent 0 [(r, 1)]) s = .next { s with dev := cyclePassed (consume e r a.stamp) } ∧
        e.get (F.EVT_Ck_CFG.OUT k) = 0 ∧ cellOn e k = false ∧ e.get F.EVT_FLAGS.TRIP = 1 ∧
        e.get F.FLT_LAST.CODE = faultCellTrip ∧ e.get F.FLT_LAST.INDEX = k ∧ (e.cell k).tripAt = some (s.dev.tb.edges, s.dev.evt.cycle) ∧
        (∀ j : Fin 64, j ≠ k → e.cell j = stampedBy s.dev j [r] a.stamp) ∧
        SameButMem ([R.EVT_Ck_CFG k, R.EVT_RI_PEND, R.EVT_TRIPPED_LO, R.EVT_TRIPPED_HI, R.EVT_FLAGS] ++ faultRegs) [.resv, .evt] ([faultBytes]) s.dev e) ∧
  (∀ (k : Fin 64) (f : Bool) (s : State), (cellOn s.dev k = true ∧ (∀ j : Fin 64, j ≠ k → cellOn s.dev j = false) ∧ f = bitAt (s.dev.get (F.EVT_Ck_CFG.LUT k)) 0) → (cellInput s.dev k 0 = (0x1FF, false) ∧ cellInput s.dev k 1 = (0x1FF, false) ∧ cellInput s.dev k 2 = (0x1FF, false) ∧ cellInput s.dev k 3 = (0x1FF, false)) → ((s.dev.cell k).cand = f ∧ (s.dev.cell k).passed = (!f) ∧ 0 < (s.dev.cell k).held ∧ (s.dev.cell k).held < s.dev.get (F.EVT_Ck_CFG.FILT k) ∧ s.dev.evt.later = none ∧ s.dev.resetting 1 = false ∧ s.dev.evt.inflight.all (fun x => !x.soft) = true) → (s.dev.bit (F.EVT_Ck_CFG.FF k) = false ∧ s.dev.bit (F.EVT_Ck_CFG.OUT k) = (!f) ∧ s.dev.get (F.EVT_Ck_RATE.RATE_MAX k) = 0) → 
      ∃ e, exec (.cellFilterExpire k) s = .next { s with dev := cyclePassed (if f then consume e (256 + k) (s.dev.cell k).lastStamp else e) } ∧
        e.bit (F.EVT_Ck_CFG.OUT k) = f ∧ (e.cell k).passed = f ∧ (e.cell k).held = 0 ∧ (e.cell k).lastStamp = (s.dev.cell k).lastStamp ∧
        SameBut [R.EVT_Ck_CFG k, R.EVT_RI_PEND] [.evt] s.dev e) ∧
  (∀ (k : Fin 64) (s : State), (cellOn s.dev k = false ∨ (s.dev.cell k).held = 0 ∨ s.dev.get (F.EVT_Ck_CFG.FILT k) ≤ (s.dev.cell k).held) → 
      ∃ e, exec (.cellFilterExpire k) s = .next { s with dev := e } ∧
        e = s.dev) ∧
  (∀ (k : Fin 64) (s : State),
      ∃ e, exec (.cellRateWindow k) s = .next { s with dev := e } ∧
        (e.cell k = { s.dev.cell k with fired := 0 } ∧ (∀ j : Fin 64, j ≠ k → e.cell j = s.dev.cell j) ∧ e.evt.inflight = s.dev.evt.inflight) ∧
        SameBut [] [.evt] s.dev e) ∧
  (∀ (value : Word) (s : State), F.EVT_FIRE.RILL.of value ≤ 383 → gateOpen s.dev (R.EVT_FIRE) = true → 
      ∃ e, exec (.evtFire value) s = .next { s with dev := e } ∧
        e.evt.inflight = s.dev.evt.inflight ++ [{ rill := F.EVT_FIRE.RILL.of value, stamp := s.dev.nowNs, soft := true }] ∧ e.evt.cells = s.dev.evt.cells ∧
        SameBut [] [.evt] s.dev e) ∧
  (∀ (value : Word) (s : State), 383 < F.EVT_FIRE.RILL.of value → gateOpen s.dev (R.EVT_FIRE) = true → 
      ∃ e, exec (.evtFire value) s = .next { s with dev := e } ∧
        e.get F.EVT_FLAGS.FIRE_REJ = 1 ∧ e.evt.cells = s.dev.evt.cells ∧
        SameBut [R.EVT_FLAGS] [.evt] s.dev e) ∧
  (∀ (hi : Bool) (i : Fin 32) (value : Word) (k : Nat) (s : State), (k = (if hi then 32 + i.val else i.val) ∧ (s.dev.cell k).tripAt = some (s.dev.tb.edges, s.dev.evt.cycle)) → gateOpen s.dev (R.EVT_REARM_LO) = true → 
      ∃ e, exec (.evtRearm hi value) s = .next { s with dev := e } ∧
        e.cell k = s.dev.cell k ∧ bitAt (e.rd (if hi then R.EVT_TRIPPED_HI else R.EVT_TRIPPED_LO)).toNat i = bitAt (s.dev.rd (if hi then R.EVT_TRIPPED_HI else R.EVT_TRIPPED_LO)).toNat i ∧
        SameBut [R.EVT_TRIPPED_LO, R.EVT_TRIPPED_HI] [.evt] s.dev e) ∧
  (∀ (hi : Bool) (value : Word) (s : State), (∀ k : Fin 64, (s.dev.cell k).tripAt ≠ some (s.dev.tb.edges, s.dev.evt.cycle)) → gateOpen s.dev (R.EVT_REARM_LO) = true → 
      ∃ e, exec (.evtRearm hi value) s = .next { s with dev := e } ∧
        e.rd R.EVT_TRIPPED_LO = (if hi then s.dev.rd R.EVT_TRIPPED_LO else s.dev.rd R.EVT_TRIPPED_LO &&& ~~~ value) ∧ e.rd R.EVT_TRIPPED_HI = (if hi then s.dev.rd R.EVT_TRIPPED_HI &&& ~~~ value else s.dev.rd R.EVT_TRIPPED_HI) ∧
        (∀ i : Fin 32, e.cell (if hi then 32 + i.val else i.val) = (if bitAt ((s.dev.rd (if hi then R.EVT_TRIPPED_HI else R.EVT_TRIPPED_LO)) &&& value).toNat i then { lastStamp := (s.dev.cell (if hi then 32 + i.val else i.val)).lastStamp } else s.dev.cell (if hi then 32 + i.val else i.val))) ∧
        (∀ i : Fin 32, e.cell (if hi then i.val else 32 + i.val) = s.dev.cell (if hi then i.val else 32 + i.val)) ∧
        SameBut [R.EVT_TRIPPED_LO, R.EVT_TRIPPED_HI] [.evt] s.dev e)

/-- A port below TRAIN, or whose lanes pass no symbols, takes nothing. A taken frame is counted; a reliable one with the expected number
advances it and readies an ACK, any other reliable one has no effect; one for another device is forwarded with HOPS + 1 or dropped at 15.
HELLO sets REMOTE_ID and brings UP or CFG_MISMATCH; TIME keeps the stamps; LINE records stamp and speed in JOIN or PASSIVE in belt mode;
WINDOW counts, and places the window of a covering valve with this device's leads, or counts NO_VALVE; DIGEST stores; ITEM of a plan waits
for its line; COMMIT enters CHECKING; ACCESS reads, writes, or is refused with ACCESS_EN = 0; ACK releases frames; TRAIN moves the taps by
its requests within their bounds, or presets them, and replies. It rests also on the model's choices of log entries 192, 193, 194, 196,
201, 206, 207. Each clause concludes that exec i s = .next t; so shown to complete: peerAck, hello, peerWindow, peerTime, peerLine,
digest, peerStatus, pairItem, peerCommit, peerAccess, peerTrain. -/
def Obligations.PeerReception : Prop :=
  (∀ (n : Fin 3) (h : PeerHdr) (r : Nat) (s : State), ((s.dev.peerState n < plTrain ∨ peerHears s.dev n = false) ∧ h.confirm = none) → 
      ∃ e, exec (.peerAck n h r) s = .next { s with dev := e } ∧
        e = s.dev) ∧
  (∀ (n : Fin 3) (h : PeerHdr) (r : Nat) (s : State), (takesFrame s.dev n h = true ∧ h.rel = none) → 
      ∃ e, exec (.peerAck n h r) s = .next { s with dev := e } ∧
        (e.peer n).unacked = (s.dev.peer n).unacked.filter (fun u => u.rel ≠ r ∧ ¬ lineBefore u.rel r) ∧
        e.get (F.PEERn_FRAMES_RX.COUNT n) = min (s.dev.get (F.PEERn_FRAMES_RX.COUNT n) + 1) 0xFFFFFFFF ∧ (e.peer n).seqRx = some h.seq ∧ (e.peer n).ready = (s.dev.peer n).ready ∧
        (∀ q, (s.dev.peer n).seqRx = some q → h.seq ≠ (q + 1) % 2 ^ 32 → e.get (F.PEERn_FLAGS.SEQ_GAP n) = 1) ∧
        SameBut (peerRegs n) [.peers, .evt] s.dev e) ∧
  (∀ (n : Fin 3) (h : PeerHdr) (b : HelloBody) (k : Nat) (s : State), (takesFrame s.dev n h = true ∧ h.rel = some k ∧ k ≠ (s.dev.peer n).relRx) → 
      ∃ e, exec (.hello n h b) s = .next { s with dev := e } ∧
        e.get (F.PEERn_FRAMES_RX.COUNT n) = min (s.dev.get (F.PEERn_FRAMES_RX.COUNT n) + 1) 0xFFFFFFFF ∧ e.peerState n = s.dev.peerState n ∧
        e.peer n = { s.dev.peer n with seqRx := some h.seq } ∧
        SameBut (peerRegs n) [.peers, .evt] s.dev e) ∧
  (∀ (n : Fin 3) (h : PeerHdr) (b : HelloBody) (s : State), (takesFrame s.dev n h = true ∧ h.rel = some (s.dev.peer n).relRx ∧ s.dev.peerState n = plHello ∧ helloOk s.dev n b = true) → 
      ∃ e, exec (.hello n h b) s = .next { s with dev := e } ∧
        e.peerState n = plUp ∧ e.get (F.PEERn_FLAGS.LINK_UP n) = 1 ∧ e.get (F.PEERn_STATUS.REMOTE_ID n) = F.PAIR_CHAIN.ID.of b.pairChain ∧
        (e.peer n).relRx = ((s.dev.peer n).relRx + 1) % 2 ^ 32 ∧ (e.peer n).hello = some b ∧
        (e.peer n).ready = (s.dev.peer n).ready ++ [{ body := .ack (s.dev.peer n).relRx, src := deviceId s.dev }] ∧
        SameBut (peerRegs n ++ [R.PEERn_STATUS n, R.PAIR_STATUS]) [.peers, .evt] s.dev e) ∧
  (∀ (n : Fin 3) (h : PeerHdr) (b : HelloBody) (s : State), (takesFrame s.dev n h = true ∧ h.rel = some (s.dev.peer n).relRx ∧ s.dev.peerState n = plHello ∧ helloOk s.dev n b = false) → 
      ∃ e, exec (.hello n h b) s = .next { s with dev := e } ∧
        e.peerState n = plHello ∧ e.get (F.PEERn_FLAGS.CFG_MISMATCH n) = 1 ∧ (e.peer n).greeted = true ∧
        SameBut (peerRegs n ++ [R.PEERn_STATUS n]) [.peers, .evt] s.dev e) ∧
  (∀ (n : Fin 3) (h : PeerHdr) (b : PeerBody) (w : WindowReq) (q : Nat) (s : State), (plTrain ≤ s.dev.peerState n ∧ peerHears s.dev n = true ∧ (s.dev.peer n).resting = false ∧ h.confirm = none ∧ h.rel = none ∧ h.dst ≠ 0xFF ∧ h.dst ≠ deviceId s.dev ∧ b = .window w) → (h.hops ≤ 14 ∧ routeTo s.dev h.dst = some q ∧ q < 3 ∧ q ≠ n) → 
      ∃ e, exec (.peerWindow n h w) s = .next { s with dev := e } ∧
        (e.peer q).ready = (s.dev.peer q).ready ++ [{ body := b, src := h.src, dst := h.dst, hops := h.hops + 1, line := h.line }] ∧
        e.ej.windows = s.dev.ej.windows ∧
        SameBut (peerRegs n) [.peers, .evt] s.dev e) ∧
  (∀ (n : Fin 3) (h : PeerHdr) (w : WindowReq) (s : State), (plTrain ≤ s.dev.peerState n ∧ peerHears s.dev n = true ∧ (s.dev.peer n).resting = false ∧ h.confirm = none ∧ h.rel = none ∧ h.dst ≠ 0xFF ∧ h.dst ≠ deviceId s.dev ∧ 15 ≤ h.hops) → 
      ∃ e, exec (.peerWindow n h w) s = .next { s with dev := e } ∧
        e.get (F.PEERn_HOPS_DROP.COUNT n) = min (s.dev.get (F.PEERn_HOPS_DROP.COUNT n) + 1) 0xFFFFFFFF ∧ e.get (F.PEERn_FLAGS.HOPS_DROP n) = 1 ∧
        SameBut (peerRegs n ++ [R.PEERn_HOPS_DROP n]) [.peers, .evt] s.dev e) ∧
  (∀ (n : Fin 3) (h : PeerHdr) (w : WindowReq) (j lo hi : Int) (s : State), (takesFrame s.dev n h = true ∧ h.rel = none ∧ j = s.dev.countOf h.line ∧ lo = w.lo - gridUnits (s.dev.asOf j) ∧ hi = w.hi - gridUnits (s.dev.asOf j)) → covering (s.dev.asOf j) w.row lo hi = [] → 
      ∃ e, exec (.peerWindow n h w) s = .next { s with dev := e } ∧
        e.get F.CHAIN_FWD_RX.V = min (s.dev.get F.CHAIN_FWD_RX.V + 1) 0xFFFFFFFF ∧ e.get F.EJ_FLAGS.NO_VALVE = 1 ∧ e.ej.windows = s.dev.ej.windows ∧
        SameBut (peerRegs n ++ [R.CHAIN_FWD_RX, R.EJ_NO_VALVE, R.EJ_FLAGS]) [.peers, .evt] s.dev e) ∧
  (∀ (n : Fin 3) (h : PeerHdr) (w : WindowReq) (j lo hi : Int) (c opn cls : Nat) (s : State), (takesFrame s.dev n h = true ∧ h.rel = none ∧ j = s.dev.countOf h.line ∧ lo = w.lo - gridUnits (s.dev.asOf j) ∧ hi = w.hi - gridUnits (s.dev.asOf j)) → (covering (s.dev.asOf j) w.row lo hi = [c] ∧ s.dev.ej.windows = [] ∧ s.dev.resetting 5 = false) → opn = wrapN 64 ((w.tF : Int) - asStamps s.dev (s.dev.asOf j) j ((s.dev.asOf j).get (F.EJ_Vc_OPEN.OPEN_LEAD c)) - asStamps s.dev (s.dev.asOf j) j (1000 * (s.dev.asOf j).get (F.EJ_TIMEr.PRE w.row))) → cls = wrapN 64 ((w.tB : Int) - asStamps s.dev (s.dev.asOf j) j ((s.dev.asOf j).get (F.EJ_Vc_CLOSE.CLOSE_LEAD c)) + asStamps s.dev (s.dev.asOf j) j (1000 * (s.dev.asOf j).get (F.EJ_TIMEr.POST w.row))) → (0 < stampDiff cls (transportNow s.dev) ∧ 0 ≤ stampDiff opn (transportNow s.dev)) → 
      ∃ e, exec (.peerWindow n h w) s = .next { s with dev := e } ∧
        e.ej.windows = [{ chan := c, opn := opn, cls := cls }] ∧ e.get F.EJ_WINDOWS.COUNT = min (s.dev.get F.EJ_WINDOWS.COUNT + 1) 0xFFFFFFFF ∧ e.get F.EJ_POOL.PENDING = 1 ∧
        e.get F.CHAIN_FWD_RX.V = min (s.dev.get F.CHAIN_FWD_RX.V + 1) 0xFFFFFFFF ∧
        SameBut (peerRegs n ++ [R.CHAIN_FWD_RX, R.EJ_WINDOWS, R.EJ_POOL]) [.peers, .evt, .ej] s.dev e) ∧
  (∀ (n : Fin 3) (h : PeerHdr) (b : TimeBody) (s : State), (takesFrame s.dev n h = true ∧ h.rel = none) → 
      ∃ e, exec (.peerTime n h b) s = .next { s with dev := e } ∧
        (e.peer n).far = b ∧ (e.peer n).timeRx.head? = some (h.seq, peerStamp s.dev n false s.dev.nowNs) ∧
        (∀ (r t : Nat × Int), (s.dev.peer n).timeRx.head? = some r → (s.dev.peer n).timeTx.find? (fun x => x.1 = b.rxSeq) = some t → e.get (F.PEERn_DELAY.DELAY n) = linkDelay t.2 b.rx b.tx r.2 (sx 32 (s.dev.rd (R.TB_PEERn_ASYM n)).toNat)) ∧
        SameBut (peerRegs n ++ [R.PEERn_DELAY n]) [.peers, .evt] s.dev e) ∧
  (∀ (n : Fin 3) (h : PeerHdr) (ts : Nat) (v : Int) (l : Int) (s : State), (takesFrame s.dev n h = true ∧ h.rel = none ∧ isPrivate s.dev n = true ∧ l = s.dev.countOf h.line ∧ (s.dev.asOf l).bit F.TB_LINE_CFG.BELT = true) → ((s.dev.pairState = pairPassive ∨ s.dev.pairState = pairJoin) ∧ s.dev.slu.old = none) → 
      ∃ e, exec (.peerLine n h ts v) s = .next { s with dev := e } ∧
        stampOf e l = some { count := l, t := trigT s.dev l, ts := ts, speed := v } ∧ (∀ u ∈ e.tb.unstamped, u.1 ≠ l) ∧
        (∀ k ∈ s.dev.tb.stamps.take 3, k.count ≠ l → k ∈ e.tb.stamps) ∧
        SameBut (peerRegs n) [.peers, .evt, .tb] s.dev e) ∧
  (∀ (n : Fin 3) (h : PeerHdr) (b : DigestBody) (s : State), (takesFrame s.dev n h = true ∧ h.rel = some (s.dev.peer n).relRx ∧ isPrivate s.dev n = true) → 
      ∃ e, exec (.digest n h b) s = .next { s with dev := selfConclude (compareCycle e b.cycle) } ∧
        e.pr.far.head? = some { cycle := b.cycle, digest := b.digest, loss := b.loss } ∧ e.pr.farSelf = (if b.selfTest = 0 then s.dev.pr.farSelf else b.selfTest) ∧
        SameBut (peerRegs n) [.peers, .pr, .evt] s.dev e) ∧
  (∀ (n : Fin 3) (h : PeerHdr) (b : PairStatus) (s : State), (takesFrame s.dev n h = true ∧ h.rel = none ∧ isPrivate s.dev n = true) → 
      ∃ e, exec (.peerStatus n h b) s = .next { s with dev := joinFinish (serveSend (serveStatus ((onStatus b e).withPair { (onStatus b e).pr with lost := (onStatus b e).pr.lost && !privateUp (onStatus b e) }) b.state)) } ∧
        e.pr.status = some b ∧ e.pr.statusAt = s.dev.trueNs ∧ e.pairState = s.dev.pairState ∧
        e.rsv.partner = (if s.dev.rsv.partner.any (fun x => x.1 == b.demandCycle) then s.dev.rsv.partner else ((b.demandCycle, b.demand) :: s.dev.rsv.partner).take 8) ∧
        SameBut (peerRegs n) [.peers, .pr, .rsv, .evt] s.dev e) ∧
  (∀ (n : Fin 3) (h : PeerHdr) (line : Nat) (b : PlanBody) (part : Nat) (s : State), (takesFrame s.dev n h = true ∧ h.rel = some (s.dev.peer n).relRx ∧ isPrivate s.dev n = true ∧ s.dev.pairState = pairPassive) → (s.dev.lining = false ∨ s.dev.tb.count < s.dev.countOf line) → 
      ∃ e, exec (.pairItem n h line (.plan b) part false) s = .next { s with dev := e } ∧
        e.pr.items = s.dev.pr.items ++ [(s.dev.countOf line, .plan b)] ∧ e.pairState = pairPassive ∧
        SameBut (peerRegs n) [.peers, .pr, .evt] s.dev e) ∧
  (∀ (n : Fin 3) (h : PeerHdr) (line : Nat) (b : PlanBody) (part : Nat) (s : State), (takesFrame s.dev n h = true ∧ h.rel = some (s.dev.peer n).relRx ∧ isPrivate s.dev n = true ∧ s.dev.pairState = pairPassive) → (s.dev.lining = true ∧ s.dev.countOf line ≤ s.dev.tb.count) → 
      ∃ e, exec (.pairItem n h line (.plan b) part false) s = .next { s with dev := e } ∧
        e.pairState = pairJoin ∧ e.get F.PAIR_ITEM_LATE.V = min (s.dev.get F.PAIR_ITEM_LATE.V + 1) 0xFFFFFFFF ∧ e.pr.items = [] ∧
        SameBut (peerRegs n ++ pairRegs ++ [R.PAIR_ITEM_LATE]) [.peers, .pr, .evt, .basin] s.dev e) ∧
  (∀ (n : Fin 3) (h : PeerHdr) (a : Nat) (s : State), (takesFrame s.dev n h = true ∧ h.rel = some (s.dev.peer n).relRx ∧ isPrivate s.dev n = false ∧ paired s.dev = false) → (s.dev.sluState = sluOpen ∧ s.dev.safe = false ∧ bootFailed s.dev = false ∧ s.dev.lining = false ∧ a < 2 ^ 32) → 
      ∃ e, exec (.peerCommit n h a .commit) s = .next { s with dev := e } ∧
        e.sluState = sluChecking ∧ e.slu.root = .device h.src ∧ e.get F.SLU_ARMED_LINE.V = a ∧ e.slu.part = .hardware ∧ e.slu.staged = s.dev.slu.staged ∧
        e.get F.SLU_COMMITS.COMMIT = min (s.dev.get F.SLU_COMMITS.COMMIT + 1) 0xFFFFFFFF ∧
        SameBut (peerRegs n ++ [R.SLU_STATE, R.SLU_APPLY_LINE, R.SLU_ARMED_LINE, R.SLU_COMMITS]) [.peers, .slu, .evt] s.dev e) ∧
  (∀ (n : Fin 3) (h : PeerHdr) (wr : Bool) (addr : Nat) (data : Word) (s : State), (takesFrame s.dev n h = true ∧ h.rel = some (s.dev.peer n).relRx ∧ s.dev.bit (F.PEERn_CFG.ACCESS_EN n) = false ∧ (routeTo s.dev h.src).getD n = n) → 
      ∃ e, exec (.peerAccess n h (.request wr addr data)) s = .next { s with dev := e } ∧
        (e.peer n).ready = (s.dev.peer n).ready ++ [{ body := .ack (s.dev.peer n).relRx, src := deviceId s.dev }, { body := .accessReply false 0, src := deviceId s.dev, dst := h.src }] ∧
        SameBut (peerRegs n) [.peers, .evt] s.dev e) ∧
  (∀ (n : Fin 3) (h : PeerHdr) (data : Word) (s : State), (takesFrame s.dev n h = true ∧ h.rel = some (s.dev.peer n).relRx ∧ s.dev.bit (F.PEERn_CFG.ACCESS_EN n) = true ∧ s.dev.resetting 1 = false ∧ s.dev.boot.phase ≠ .reset ∧ (routeTo s.dev h.src).getD n = n) → 
      ∃ e, exec (.peerAccess n h (.request false R.CHIP_ID data)) s = .next { s with dev := e } ∧
        (e.peer n).ready = (s.dev.peer n).ready ++ [{ body := .ack (s.dev.peer n).relRx, src := deviceId s.dev }, { body := .accessReply true (s.dev.rd R.CHIP_ID), src := deviceId s.dev, dst := h.src }] ∧
        SameBut (peerRegs n) [.peers, .cores, .evt] s.dev e) ∧
  (∀ (n : Fin 3) (h : PeerHdr) (data : Word) (s : State), (takesFrame s.dev n h = true ∧ h.rel = some (s.dev.peer n).relRx ∧ s.dev.bit (F.PEERn_CFG.ACCESS_EN n) = true ∧ s.dev.resetting 1 = false ∧ s.dev.boot.phase ≠ .reset ∧ (routeTo s.dev h.src).getD n = n) → 
      ∃ e, exec (.peerAccess n h (.request true R.RSV_PLAN_CYCLE data)) s = .next { s with dev := e } ∧
        e.rd R.RSV_PLAN_CYCLE = data ∧
        (e.peer n).ready = (s.dev.peer n).ready ++ [{ body := .ack (s.dev.peer n).relRx, src := deviceId s.dev }, { body := .accessReply true 0, src := deviceId s.dev, dst := h.src }] ∧
        SameBut (peerRegs n ++ [R.RSV_PLAN_CYCLE]) [.peers, .cores, .evt] s.dev e) ∧
  (∀ (n : Fin 3) (h : PeerHdr) (word : Nat) (k b post pre : Nat) (s : State), (takesFrame s.dev n h = true ∧ h.rel = none ∧ k = bitsOf word 9 8 ∧ 2 ≤ k) → 
      ∃ e, exec (.peerTrain n h false word) s = .next { s with dev := e } ∧
        (e.peer n).ready = (s.dev.peer n).ready ∧
        SameBut (peerRegs n) [.peers, .evt] s.dev e) ∧
  (∀ (n : Fin 3) (h : PeerHdr) (word : Nat) (k b : Nat) (s : State), (takesFrame s.dev n h = true ∧ h.rel = none ∧ k = bitsOf word 9 8 ∧ k < 2 ∧ b = laneBase (peerTxLane n k) ∧ bitAt word 7 = true) → 
      ∃ e, exec (.peerTrain n h false word) s = .next { s with dev := e } ∧
        e.get (F.LN_TX_TAPS.C_POST b) = 0 ∧ e.get (F.LN_TX_TAPS.C_PRE b) = 0 ∧ e.get (F.LN_TX_TAPS.C_MAIN b) = 63 ∧
        (e.peer n).ready = (s.dev.peer n).ready ++ [{ body := .trainReply (k * 2 ^ 24 + 63 * 2 ^ 17), src := deviceId s.dev }] ∧
        SameBut (peerRegs n ++ [R.LN_TX_TAPS b]) [.peers, .evt] s.dev e) ∧
  (∀ (n : Fin 3) (h : PeerHdr) (word : Nat) (k b : Nat) (post pre : Nat × Nat) (s : State), (takesFrame s.dev n h = true ∧ h.rel = none ∧ k = bitsOf word 9 8 ∧ k < 2 ∧ b = laneBase (peerTxLane n k) ∧ bitAt word 7 = false) → (post = stepTap (bitsOf word 3 2) (s.dev.get (F.LN_TX_TAPS.C_POST b)) (min 31 (23 - s.dev.get (F.LN_TX_TAPS.C_PRE b))) ∧ pre = stepTap (bitsOf word 1 0) (s.dev.get (F.LN_TX_TAPS.C_PRE b)) (min 15 (23 - post.1))) → 
      ∃ e, exec (.peerTrain n h false word) s = .next { s with dev := e } ∧
        e.get (F.LN_TX_TAPS.C_POST b) = post.1 ∧ e.get (F.LN_TX_TAPS.C_PRE b) = pre.1 ∧ e.get (F.LN_TX_TAPS.C_MAIN b) = 63 - pre.1 - post.1 ∧
        (e.peer n).ready = (s.dev.peer n).ready ++ [{ body := .trainReply (k * 2 ^ 24 + (63 - pre.1 - post.1) * 2 ^ 17 + post.1 * 2 ^ 12 + pre.1 * 2 ^ 8 + (post.2 * 4 + pre.2)), src := deviceId s.dev }] ∧
        SameBut (peerRegs n ++ [R.LN_TX_TAPS b]) [.peers, .evt] s.dev e)

/-- At a frame boundary a port from TRAIN on whose two transmit lanes send coded data sends its first ready frame in the order of R446: its
bytes, SEQ and FRAMES_TX advance; a new reliable frame takes the next number and waits for its ACK; else no frame leaves. TIME and STATUS
become ready only in UP, HELLO only in HELLO. A repeat counts and is ready again; the eighth, or 10 us of silence in UP, loses the link:
LINK_LOST, the count, LANE_WAKE, empty queues. A bad CRC counts, and under the snoop unit is a fault. A time-out in bring-up turns the
lanes off and the next one on again. Two aligned columns in DESKEW bring HELLO, two misaligned ones in a row end the deskew; RETRAIN in UP
is ignored; a reply moves training on; a request is repeated three times. It rests also on the model's choices of log entries 195, 197.
Each clause concludes that exec i s = .next t; so shown to complete: peerFrameSend, peerTimeDue, helloRepeat, peerStatusDue,
peerRetransmit, peerRxTimeout, peerStateTimeout, peerCrcErr, deskewColumn, retrain, trainReply, trainReqTimeout. -/
def Obligations.PeerSendingAndRecovery : Prop :=
  (∀ (n : Fin 3) (f : PeerFrame) (s : State), (plTrain ≤ s.dev.peerState n ∧ (s.dev.peer n).resting = false ∧ lnSends s.dev (peerTxLane n 0) = true ∧ lnSends s.dev (peerTxLane n 1) = true) → (firstReady (s.dev.peer n).ready = some f ∧ isReliable f.body = true ∧ f.rel = none) → 
      ∃ e, exec (.peerFrameSend n) s = .next { s with dev := e } ∧
        (e.peer n).ready = (s.dev.peer n).ready.erase f ∧ (e.peer n).seqTx = ((s.dev.peer n).seqTx + 1) % 2 ^ 32 ∧
        (e.peer n).relTx = ((s.dev.peer n).relTx + 1) % 2 ^ 32 ∧ (e.peer n).unacked.getLast?.map Unacked.rel = some (s.dev.peer n).relTx ∧
        (e.peer n).sent = some { seq := (s.dev.peer n).seqTx, frame := { f with rel := some (s.dev.peer n).relTx }, confirm := confirmLine s.dev, bytes := peerBytes { f with rel := some (s.dev.peer n).relTx } (s.dev.peer n).seqTx } ∧
        e.get (F.PEERn_FRAMES_TX.COUNT n) = min (s.dev.get (F.PEERn_FRAMES_TX.COUNT n) + 1) 0xFFFFFFFF ∧
        SameBut [R.PEERn_FRAMES_TX n, R.LN_STATUS (laneBase (peerTxLane n 0)), R.LN_STATUS (laneBase (peerTxLane n 1))] [.lanes, .peers] s.dev e) ∧
  (∀ (n : Fin 3) (f : PeerFrame) (s : State), (plTrain ≤ s.dev.peerState n ∧ (s.dev.peer n).resting = false ∧ lnSends s.dev (peerTxLane n 0) = true ∧ lnSends s.dev (peerTxLane n 1) = true) → (firstReady (s.dev.peer n).ready = some f ∧ (isReliable f.body = false ∨ f.rel.isSome = true)) → 
      ∃ e, exec (.peerFrameSend n) s = .next { s with dev := e } ∧
        (e.peer n).ready = (s.dev.peer n).ready.erase f ∧ (e.peer n).seqTx = ((s.dev.peer n).seqTx + 1) % 2 ^ 32 ∧
        (e.peer n).relTx = (s.dev.peer n).relTx ∧ (e.peer n).unacked = (s.dev.peer n).unacked ∧
        ((e.peer n).sent = some { seq := (s.dev.peer n).seqTx, frame := { f with body := fillTime s.dev n f.body, rel := if isReliable f.body then f.rel else none }, confirm := confirmLine s.dev, bytes := peerBytes { f with body := fillTime s.dev n f.body, rel := if isReliable f.body then f.rel else none } (s.dev.peer n).seqTx }) ∧
        e.get (F.PEERn_FRAMES_TX.COUNT n) = min (s.dev.get (F.PEERn_FRAMES_TX.COUNT n) + 1) 0xFFFFFFFF ∧
        SameBut [R.PEERn_FRAMES_TX n, R.LN_STATUS (laneBase (peerTxLane n 0)), R.LN_STATUS (laneBase (peerTxLane n 1))] [.lanes, .peers] s.dev e) ∧
  (∀ (n : Fin 3) (s : State), (s.dev.peerState n < plTrain ∨ (s.dev.peer n).resting = true ∨ (s.dev.peer n).ready = [] ∨ ¬ (lnSends s.dev (peerTxLane n 0) = true ∧ lnSends s.dev (peerTxLane n 1) = true)) → 
      ∃ e, exec (.peerFrameSend n) s = .next { s with dev := e } ∧
        (e.peer n = { s.dev.peer n with txCol := (e.peer n).txCol } ∧ (∀ k : Fin 3, k ≠ n → e.peer k = s.dev.peer k)) ∧
        SameBut [R.LN_STATUS (laneBase (peerTxLane n 0)), R.LN_STATUS (laneBase (peerTxLane n 1))] [.lanes, .peers] s.dev e) ∧
  (∀ (n : Fin 3) (s : State),
      ∃ e, exec (.peerTimeDue n) s = .next { s with dev := e } ∧
        (e.peer n).ready = (s.dev.peer n).ready ++ (if s.dev.peerState n = plUp then [{ body := .time {}, src := deviceId s.dev }] else []) ∧
        SameBut [] [.peers] s.dev e) ∧
  (∀ (n : Fin 3) (s : State),
      ∃ e, exec (.helloRepeat n) s = .next { s with dev := e } ∧
        (e.peer n).ready = (s.dev.peer n).ready ++ (if s.dev.peerState n = plHello then [{ body := .hello (helloBody s.dev), src := deviceId s.dev }] else []) ∧
        SameBut [] [.peers] s.dev e) ∧
  (∀ (s : State), (s.dev.pr.counters = none ∧ s.dev.pr.serve = none) → 
      ∃ e, exec (.peerStatusDue) s = .next { s with dev := e } ∧
        (∀ n : Fin 3, (e.peer n).ready = (s.dev.peer n).ready ++ (if s.dev.peerState n = plUp then [{ body := .status (statusBody s.dev), src := deviceId s.dev }] else [])) ∧
        SameBut [] [.peers] s.dev e) ∧
  (∀ (n : Fin 3) (r : Nat) (u : Unacked) (s : State), ((s.dev.peer n).unacked.find? (fun x => x.rel = r) = some u ∧ u.repeats < 8) → 
      ∃ e, exec (.peerRetransmit n r) s = .next { s with dev := e } ∧
        (e.peer n).ready = (s.dev.peer n).ready ++ [u.frame] ∧ e.get (F.PEERn_RETX.COUNT n) = min (s.dev.get (F.PEERn_RETX.COUNT n) + 1) 0xFFFFFFFF ∧
        ((e.peer n).unacked.find? (fun x => x.rel = r)).map Unacked.repeats = some (u.repeats + 1) ∧ (e.peer n).unacked.length = (s.dev.peer n).unacked.length ∧
        SameBut [R.PEERn_RETX n] [.peers] s.dev e) ∧
  (∀ (n : Fin 3) (r : Nat) (u : Unacked) (s : State), ((s.dev.peer n).unacked.find? (fun x => x.rel = r) = some u ∧ 8 ≤ u.repeats ∧ s.dev.peerState n = plUp ∧ peerSync s.dev n = false) → 
      ∃ e, exec (.peerRetransmit n r) s = .next { s with dev := e } ∧
        e.peerState n = plLaneWake ∧ e.get (F.PEERn_FLAGS.RETX_FAIL n) = 1 ∧ e.get (F.PEERn_FLAGS.LINK_LOST n) = 1 ∧ (e.peer n).unacked = [] ∧ (e.peer n).ready = []) ∧
  (∀ (n : Fin 3) (s : State), (s.dev.peerState n = plUp ∧ peerSync s.dev n = false) → 
      ∃ e, exec (.peerRxTimeout n) s = .next { s with dev := e } ∧
        e.peerState n = plLaneWake ∧ e.get (F.PEERn_FLAGS.LINK_LOST n) = 1 ∧ e.get (F.PEERn_LINK_LOSS.COUNT n) = min (s.dev.get (F.PEERn_LINK_LOSS.COUNT n) + 1) 0xFFFFFFFF ∧
        (e.peer n).ready = [] ∧ (e.peer n).unacked = [] ∧ (e.peer n).relTx = 0 ∧ (e.peer n).relRx = 0 ∧
        (∀ k : Fin 64, (s.dev.rd (R.LCKk k)).toNat = 7 + n.val → e.rd (R.LCKk k) = 0) ∧
        (isPrivate s.dev n = true → e.get F.PAIR_FLAGS.PEER_LOST = 1 ∧ e.pr.lost = true)) ∧
  (∀ (n : Fin 3) (s : State), s.dev.peerState n ≠ plUp → 
      ∃ e, exec (.peerRxTimeout n) s = .next { s with dev := e } ∧
        e = s.dev) ∧
  (∀ (n : Fin 3) (s : State), (s.dev.peer n).resting = false ∧ plLaneWake ≤ s.dev.peerState n ∧ s.dev.peerState n ≤ plHello ∧ ¬ (s.dev.peerState n = plHello ∧ (s.dev.peer n).greeted = true) → 
      ∃ e, exec (.peerStateTimeout n) s = .next { s with dev := e } ∧
        e.peerState n = plLaneWake ∧ (e.peer n).resting = true ∧ (e.peer n).ready = [] ∧
        (∀ k : Fin 2, e.get (F.LN_CTRL.POWER (laneBase (peerRxLane n k))) = 0 ∧ e.get (F.LN_CTRL.POWER (laneBase (peerTxLane n k))) = 0) ∧
        (∀ k : Fin 2, e.lnState (peerTxLane n k) = (if s.dev.lnState (peerTxLane n k) = lnOff ∨ s.dev.lnState (peerTxLane n k) = lnStandby ∨ s.dev.lnState (peerTxLane n k) = lnWaking then lnOff else lnShutdown))) ∧
  (∀ (n : Fin 3) (s : State), ((s.dev.peer n).resting = true ∧ peerSync (s.dev.setPeer n { s.dev.peer n with resting := false }) n = false ∧ s.dev.peerState n = plLaneWake) → 
      ∃ e, exec (.peerStateTimeout n) s = .next { s with dev := e } ∧
        (e.peer n).resting = false ∧ e.peerState n = plLaneWake ∧
        (s.dev.slu.applied = true → ∀ k : Fin 2, e.get (F.LN_CTRL.POWER (laneBase (peerRxLane n k))) = 2 ∧ e.get (F.LN_CTRL.POWER (laneBase (peerTxLane n k))) = 2) ∧
        (s.dev.slu.applied = true → ∀ k : Fin 2, s.dev.lnState (peerTxLane n k) = lnOff → e.lnState (peerTxLane n k) = lnWaking)) ∧
  (∀ (n : Fin 3) (snoop : Bool) (s : State),
      ∃ e, exec (.peerCrcErr n snoop) s = .next { s with dev := e } ∧
        e.get (F.PEERn_CRC_ERR.COUNT n) = min (s.dev.get (F.PEERn_CRC_ERR.COUNT n) + 1) 0xFFFFFFFF ∧ e.get (F.PEERn_FLAGS.CRC_ERR n) = 1 ∧
        (snoop = true → e.get (F.CRC_SNOOP_ERRk.COUNT (16 + n)) = min (s.dev.get (F.CRC_SNOOP_ERRk.COUNT (16 + n)) + 1) (2 ^ ((F.CRC_SNOOP_ERRk.COUNT (16 + n)).hi + 1) - 1) ∧ e.get F.FLT_LAST.CODE = faultSnoopPeer ∧ e.get F.FLT_LAST.INDEX = n) ∧
        (snoop = false → e.rd R.FLT_LAST = s.dev.rd R.FLT_LAST ∧ e.mem = s.dev.mem) ∧
        SameButMem ([R.PEERn_CRC_ERR n, R.PEERn_FLAGS n, R.CRC_SNOOP_ERRk (16 + n), R.CRC_FLAGS] ++ faultRegs) [.resv, .evt] ([faultBytes]) s.dev e) ∧
  (∀ (n : Fin 3) (skew : List Int) (rest : List LinkEvent) (s : State), (s.dev.peerState n = plDeskew ∧ (s.dev.peer n).deskewOk = 1 ∧ peerSync s.dev n = true ∧ (s.dev.peer n).rx.events = .marker true skew :: rest) → 
      ∃ e, exec (.deskewColumn (.peer n)) s = .next { s with dev := e } ∧
        e.peerState n = plHello ∧ (e.peer n).ready = (s.dev.peer n).ready ++ [{ body := .hello (helloBody s.dev), src := deviceId s.dev }] ∧ (e.peer n).rx.events = rest ∧
        SameBut [R.PEERn_STATUS n, R.PAIR_STATUS] [.peers] s.dev e) ∧
  (∀ (n : Fin 3) (skew : List Int) (rest : List LinkEvent) (s : State), (s.dev.peer n).rx.events = .marker false skew :: rest → 
      ∃ e, exec (.deskewColumn (.peer n)) s = .next { s with dev := e } ∧
        (e.peer n).rx.events = rest ∧ (e.peer n).deskewOk = 0 ∧ (e.peer n).deskewBad = (s.dev.peer n).deskewBad + 1 ∧ (e.peer n).rx.marks = (if (s.dev.peer n).deskewBad = 1 then none else (s.dev.peer n).rx.marks) ∧
        (∀ k : Fin 3, k ≠ n → e.peer k = s.dev.peer k) ∧
        SameBut [] [.peers] s.dev e) ∧
  (∀ (n : Fin 3) (k : Fin 2) (s : State), s.dev.peerState n = plUp → gateOpen s.dev (R.LN_CTRL (laneBase (.peerRx n k))) = true → 
      ∃ e, exec (.retrain (.peerRx n k)) s = .next { s with dev := e } ∧
        e = s.dev) ∧
  (∀ (n : Fin 3) (word : Word) (s : State), (s.dev.peer n).trainReq = none ∨ (s.dev.peer n).trainReq ≠ some (bitsOf word.toNat 25 24) → 
      ∃ e, exec (.trainReply (.peer n) word) s = .next { s with dev := e } ∧
        e = s.dev) ∧
  (∀ (n : Fin 3) (word : Word) (k : Nat) (t : Training) (s : State), (k = bitsOf word.toNat 25 24 ∧ (s.dev.peer n).trainReq = some k ∧ (s.dev.laneX (peerRxLane n k)).train = some t) → 
      ∃ e, exec (.trainReply (.peer n) word) s = .next { s with dev := peerTrainIssue (peerTrainNext e n k (trainOnReply e (peerRxLane n k) t word.toNat)) n } ∧
        (e.peer n = { s.dev.peer n with trainReq := none } ∧ (∀ k : Fin 3, k ≠ n → e.peer k = s.dev.peer k)) ∧
        SameBut [] [.peers] s.dev e) ∧
  (∀ (n : Fin 3) (k : Nat) (t : Training) (s : State), (k < 2 ∧ (s.dev.peer n).trainReq = some k ∧ (s.dev.laneX (peerRxLane n k)).train = some t ∧ t.resends < 3) → 
      ∃ e, exec (.trainReqTimeout (.peer n)) s = .next { s with dev := e } ∧
        (e.peer n).ready = (s.dev.peer n).ready ++ [{ body := .train t.request, src := deviceId s.dev }] ∧
        (e.laneX (peerRxLane n k)).train = some { t with resends := t.resends + 1 } ∧ (e.peer n).trainReq = some k ∧
        SameBut [] [.peers, .lanes] s.dev e)

/-- TAKEOVER in PASSIVE makes the unit ACTIVE with epoch + 1, counted and flagged; elsewhere it does nothing. At the 2 s limit while OFF the
other unit becomes ACTIVE with epoch + 1 where its partner is not, the home unit without a STATUS so far with its epoch (log entry 198,
the model's choice). YIELD in ACTIVE sets YIELDED and waits; REJOIN enters JOIN from any state but OFF. HELLO mismatch for 100 ms sends a
unit that is not home to FAILED. A failed self-test records 0x1205 and enters FAILED. A done cycle commits: its digest is the CRC-64 of
its index and records, and is kept and sent on the private link. A missed commit limit counts, sets LEASE_HOLD and holds every running
spout port. CLAIM is 0 in JOIN and FAILED. It rests also on the model's choices of log entries 199, 200, 202. Each clause concludes that
exec i s = .next t; so shown to complete: takeover, pairActivateTimeout, pairYield, pairRejoin, pairHelloTimeout, selftestDone,
cycleCommit, commitDeadline. -/
def Obligations.PairTransitions : Prop :=
  (∀ (s : State), s.dev.pairState = pairPassive → 
      ∃ e, exec (.takeover) s = .next { s with dev := e } ∧
        e.pairState = pairActive ∧ e.get F.PAIR_STATUS.EPOCH = (s.dev.get F.PAIR_STATUS.EPOCH + 1) % 4096 ∧
        e.get F.PAIR_TAKEOVERS.V = min (s.dev.get F.PAIR_TAKEOVERS.V + 1) 0xFFFFFFFF ∧ e.get F.PAIR_FLAGS.TAKEOVER = 1 ∧
        (∀ p : Fin 4, e.get (F.SPn_CLAIM.CLAIM p) = (if e.spState p = spRun then claimOf e else 0)) ∧
        SameBut (pairRegs ++ [R.PAIR_TAKEOVERS, R.PAIR_FLAGS]) [.pr, .basin, .tb, .evt] s.dev e) ∧
  (∀ (s : State), s.dev.pairState ≠ pairPassive → 
      ∃ e, exec (.takeover) s = .next { s with dev := e } ∧
        e = s.dev) ∧
  (∀ (s : State), (paired s.dev = true ∧ s.dev.slu.applied = true ∧ s.dev.pairState = pairOff ∧ s.dev.bit F.PAIR_CFG.HOME = false ∧ partnerActive s.dev = false) → 
      ∃ e, exec (.pairActivateTimeout) s = .next { s with dev := e } ∧
        e.pairState = pairActive ∧ e.get F.PAIR_STATUS.EPOCH = (s.dev.get F.PAIR_STATUS.EPOCH + 1) % 4096 ∧ e.get F.PAIR_STATUS.PRI = 6 ∧
        SameBut (pairRegs) [.pr, .basin] s.dev e) ∧
  (∀ (s : State), (paired s.dev = true ∧ s.dev.slu.applied = true ∧ s.dev.pairState = pairOff ∧ s.dev.bit F.PAIR_CFG.HOME = true ∧ s.dev.pr.status = none) → 
      ∃ e, exec (.pairActivateTimeout) s = .next { s with dev := e } ∧
        e.pairState = pairActive ∧ e.get F.PAIR_STATUS.EPOCH = s.dev.get F.PAIR_STATUS.EPOCH ∧ e.get F.PAIR_STATUS.PRI = 10 ∧
        SameBut (pairRegs) [.pr, .basin] s.dev e) ∧
  (∀ (s : State), (paired s.dev = false ∨ s.dev.slu.applied = false ∨ s.dev.pairState ≠ pairOff ∨ (s.dev.bit F.PAIR_CFG.HOME = true ∧ s.dev.pr.status ≠ none) ∨ (s.dev.bit F.PAIR_CFG.HOME = false ∧ partnerActive s.dev = true)) → 
      ∃ e, exec (.pairActivateTimeout) s = .next { s with dev := e } ∧
        e = s.dev) ∧
  (∀ (s : State), s.dev.pairState = pairActive → gateOpen s.dev (R.PAIR_CTRL) = true → 
      ∃ e, exec (.pairYield) s = .next { s with dev := e } ∧
        e.pairState = pairActive ∧ e.pr.yielding = true ∧ (statusBody e).state = pairPassive ∧ e.get F.PAIR_FLAGS.YIELDED = 1 ∧
        SameBut [R.PAIR_FLAGS] [.pr, .evt] s.dev e) ∧
  (∀ (s : State), s.dev.pairState ≠ pairActive → gateOpen s.dev (R.PAIR_CTRL) = true → 
      ∃ e, exec (.pairYield) s = .next { s with dev := e } ∧
        e = s.dev) ∧
  (∀ (s : State), s.dev.pairState ≠ pairOff → gateOpen s.dev (R.PAIR_CTRL) = true → 
      ∃ e, exec (.pairRejoin) s = .next { s with dev := e } ∧
        e.pairState = pairJoin ∧ claimOf e = 0 ∧ e.get F.PAIR_STATUS.PRI = 0 ∧ e.get F.PAIR_STATUS.EPOCH = s.dev.get F.PAIR_STATUS.EPOCH ∧
        e.pr.items = [] ∧ e.pr.warm = none ∧ e.pr.counters = none ∧ (∀ p : Fin 4, e.get (F.SPn_CLAIM.CLAIM p) = 0) ∧
        SameBut (pairRegs) [.pr, .basin] s.dev e) ∧
  (∀ (s : State), s.dev.pairState = pairOff → gateOpen s.dev (R.PAIR_CTRL) = true → 
      ∃ e, exec (.pairRejoin) s = .next { s with dev := e } ∧
        e = s.dev) ∧
  (∀ (p : Nat) (s : State), (p = s.dev.get F.PAIR_CFG.PORT ∧ p < 3 ∧ paired s.dev = true ∧ s.dev.peerState p = plHello ∧ (s.dev.peer p).greeted = true ∧ s.dev.bit F.PAIR_CFG.HOME = false) → 
      ∃ e, exec (.pairHelloTimeout) s = .next { s with dev := e } ∧
        e.pairState = pairFailed ∧ claimOf e = 0 ∧
        SameBut (pairRegs) [.pr, .basin] s.dev e) ∧
  (∀ (s : State), s.dev.bit F.PAIR_CFG.HOME = true → 
      ∃ e, exec (.pairHelloTimeout) s = .next { s with dev := e } ∧
        e = s.dev) ∧
  (∀ (s : State), s.dev.pr.self = .running → 
      ∃ e, exec (.selftestDone false) s = .next { s with dev := e } ∧
        e.pairState = pairFailed ∧ e.get F.PAIR_FLAGS.KAT_FAIL = 1 ∧ e.get F.PAIR_STATUS.SELFTEST = 0 ∧ e.get F.FLT_LAST.CODE = faultKatFail ∧ e.pr.selfOut = 2 ∧
        SameButMem (pairRegs ++ [R.PAIR_FLAGS] ++ faultRegs) [.resv, .pr, .basin, .evt] ([faultBytes]) s.dev e) ∧
  (∀ (s : State), (s.dev.pr.self = .running ∧ s.dev.pr.farSelf = 0) → 
      ∃ e, exec (.selftestDone true) s = .next { s with dev := e } ∧
        e.pairState = s.dev.pairState ∧ e.get F.PAIR_STATUS.SELFTEST = 0 ∧ e.pr.selfOut = 1 ∧ e.pr.self = .done true ∧
        SameBut [R.PAIR_STATUS] [.pr] s.dev e) ∧
  (∀ (s : State), (s.dev.pr.self = .running ∧ s.dev.pr.farSelf = 1 ∧ s.dev.bit F.PAIR_CFG.HOME = true ∧ s.dev.pairState = pairPassive) → 
      ∃ e, exec (.selftestDone true) s = .next { s with dev := e } ∧
        e.pairState = pairActive ∧ e.get F.PAIR_FLAGS.DIVERGENCE = 1 ∧ e.get F.FLT_LAST.CODE = faultDivergence ∧ e.get F.PAIR_STATUS.EPOCH = s.dev.get F.PAIR_STATUS.EPOCH ∧
        SameButMem (pairRegs ++ [R.PAIR_FLAGS] ++ faultRegs) [.resv, .pr, .basin, .evt] ([faultBytes]) s.dev e) ∧
  (∀ (x : OpenCycle) (rest : List OpenCycle) (s : State), (s.dev.pr.cycles = x :: rest ∧ cycleDone s.dev x = true ∧ privateUp s.dev = false) → 
      ∃ e, exec (.cycleCommit) s = .next { s with dev := e } ∧
        e.pr.cycles = rest ∧ e.pr.own.head? = some { cycle := x.cycle, digest := digestOf s.dev x.cycle, loss := lossOf s.dev x.cycle } ∧
        (∀ p : Fin 4, s.dev.spState p = spHold → x.late = false → (e.spout p).next = some spRun) ∧
        e.ej.windows = s.dev.ej.windows ∧ e.jud.objs = s.dev.jud.objs ∧ (∀ g ∈ e.jud.digests, g.1 ≠ x.cycle) ∧
        SameBut [] [.pr, .jud, .ej] s.dev e) ∧
  (∀ (x : OpenCycle) (rest : List OpenCycle) (p : Nat) (s : State), (s.dev.pr.cycles = x :: rest ∧ cycleDone s.dev x = true ∧ privateUp s.dev = true ∧ p = s.dev.get F.PAIR_CFG.PORT ∧ s.dev.pr.far.find? (fun y => y.cycle = x.cycle) = none) → 
      ∃ e, exec (.cycleCommit) s = .next { s with dev := e } ∧
        (e.peer p).ready = (s.dev.peer p).ready ++ [{ body := .digest { cycle := x.cycle, digest := digestOf s.dev x.cycle, loss := lossOf s.dev x.cycle, selfTest := s.dev.pr.selfOut }, src := deviceId s.dev }] ∧
        e.pr.cycles = rest ∧ e.pr.selfOut = 0 ∧
        SameBut [] [.pr, .jud, .ej, .peers] s.dev e) ∧
  (∀ (s : State), (s.dev.pr.cycles = [] ∨ (s.dev.pr.cycles.take 1).all (fun x => cycleDone s.dev x) = false) → 
      ∃ e, exec (.cycleCommit) s = .next { s with dev := e } ∧
        e = s.dev) ∧
  (∀ (x : OpenCycle) (s : State), s.dev.pr.cycles.find? (fun y => y.last.isSome && !y.late) = some x → 
      ∃ e, exec (.commitDeadline) s = .next { s with dev := e } ∧
        e.get F.PAIR_LATE_COMMIT.V = min (s.dev.get F.PAIR_LATE_COMMIT.V + 1) 0xFFFFFFFF ∧ e.get F.PAIR_FLAGS.LEASE_HOLD = 1 ∧
        ((∀ p : Fin 4, s.dev.spState p = spRun → (e.spout p).next = some spHold) ∧ { x with late := true } ∈ e.pr.cycles ∧ e.pr.cycles.length = s.dev.pr.cycles.length) ∧
        SameBut [R.PAIR_LATE_COMMIT, R.PAIR_FLAGS] [.pr, .ej, .tb, .evt] s.dev e) ∧
  (∀ (s : State), s.dev.pr.cycles.find? (fun y => y.last.isSome && !y.late) = none → 
      ∃ e, exec (.commitDeadline) s = .next { s with dev := e } ∧
        e = s.dev)

/-- SAFE outside the safe state sets SAFE with cause FW_REQUEST, SAFE_ENTERED and the count, drives SAFE_N and READY to 0, puts every enabled
spout port in SAFE, empties windows, objects, sightings and capture, and powers both domains off. EXIT is refused with EXIT_REJ unless
every condition of R463 holds; accepted, it resets regions 2 to 5 and, after the first apply, releases the pins (before it R397 keeps
them); a chip cause of the same cycle refuses it. A lost reference enters the safe state with cause REFCLK once. A rail below 85 percent
resets the device; outside 10 percent twice in a row enters with SUPPLY; outside 5 percent warns. A sensor at 140 degrees twice enters
with TJ_MAX. HIST_CLEAR zeroes the history and keeps SEQ. It rests also on the model's choices of log entries 210, 212, 213, 218. Each
clause concludes that exec i s = .next t; so shown to complete: fltSafe, fltExit, refclk, sysRefclkReturn, supplySample,
energyMeterSample, histClear. -/
def Obligations.SafeStateAndSupervision : Prop :=
  (∀ (s : State), s.dev.safe = false → gateOpen s.dev (R.FLT_CTRL) = true → 
      ∃ e, exec (.fltSafe) s = .next { s with dev := e } ∧
        e.safe = true ∧ e.get F.FLT_STATUS.SAFE_CODE = faultFwRequest ∧ e.get F.FLT_FLAGS.SAFE_ENTERED = 1 ∧ e.get F.CHIP_PINS.SAFE_N = 0 ∧ e.get F.CHIP_PINS.READY = 0 ∧
        e.get F.FLT_SAFE_COUNT.V = min (s.dev.get F.FLT_SAFE_COUNT.V + 1) 0xFFFFFFFF ∧ e.get F.FLT_LAST.CODE = faultFwRequest ∧
        (∀ p : Fin 4, e.spState p = (if s.dev.spState p = spOff then spOff else spSafe)) ∧ e.ej.windows = [] ∧
        (∀ v : Fin 4, (e.seg v).objs = []) ∧ e.fly.upper = [] ∧ e.fly.lower = [] ∧ e.pipes.waiting = [] ∧ e.cap.groups = [] ∧ (∀ v : Fin 4, (e.seg v).queue = [] ∧ (e.seg v).waiting = []) ∧
        e.get F.RSV_POWER.JDG_STATE = 2 ∧ e.get F.RSV_POWER.CAPT_STATE = 2 ∧
        (∀ n : Fin 4, e.memState n = s.dev.memState n ∧ e.core n = s.dev.core n)) ∧
  (∀ (s : State), exitAllowed s.dev = false → gateOpen s.dev (R.FLT_CTRL) = true → 
      ∃ e, exec (.fltExit none) s = .next { s with dev := e } ∧
        e.get F.FLT_FLAGS.EXIT_REJ = 1 ∧ e.safe = s.dev.safe ∧
        SameBut [R.FLT_FLAGS] [.evt] s.dev e) ∧
  (∀ (c : ChipCause) (k : Nat) (s : State), s.dev.safe = true → gateOpen s.dev (R.FLT_CTRL) = true → 
      ∃ e, exec (.fltExit (some (c, k))) s = .next { s with dev := e } ∧
        e.get F.FLT_FLAGS.EXIT_REJ = 1 ∧ e.safe = true ∧ e.get F.FLT_STATUS.SAFE_CODE = s.dev.get F.FLT_STATUS.SAFE_CODE ∧
        (∀ a ∈ [R.CHIP_PINS, R.FLT_SAFE_COUNT], e.rd a = s.dev.rd a)) ∧
  (∀ (s : State), exitAllowed s.dev = true → gateOpen s.dev (R.FLT_CTRL) = true → 
      ∃ e, exec (.fltExit none) s = .next { s with dev := e } ∧
        e.safe = false ∧
        (s.dev.slu.applied = true → e.get F.CHIP_PINS.SAFE_N = 1 ∧ e.get F.CHIP_PINS.READY = 1) ∧
        (s.dev.slu.applied = false → e.get F.CHIP_PINS.SAFE_N = s.dev.get F.CHIP_PINS.SAFE_N ∧ e.get F.CHIP_PINS.READY = s.dev.get F.CHIP_PINS.READY) ∧
        (∀ r : Fin 4, e.resetting (r + 2) = true ∧ regionPhase e (r + 2) = (if s.dev.resetting (r + 2) then regionPhase s.dev (r + 2) else .draining))) ∧
  (∀ (cause : RefclkCause) (s : State), (s.dev.flt.refOk = true ∧ s.dev.safe = false) → 
      ∃ e, exec (.refclk cause) s = .next { s with dev := e } ∧
        e.safe = true ∧ e.get F.FLT_STATUS.SAFE_CODE = faultRefclk ∧ e.flt.refOk = false ∧ e.get F.CHIP_PINS.SAFE_N = 0) ∧
  (∀ (cause : RefclkCause) (s : State), s.dev.flt.refOk = false → 
      ∃ e, exec (.refclk cause) s = .next { s with dev := e } ∧
        e = s.dev) ∧
  (∀ (s : State),
      ∃ e, exec (.sysRefclkReturn) s = .next { s with dev := e } ∧
        e.flt = { s.dev.flt with refOk := true } ∧
        SameBut [] [.flt] s.dev e) ∧
  (∀ (levels : List Nat) (s : State), (s.dev.boot.phase ≠ .reset ∧ (levels.zip (List.range 10)).any (fun l => decide (100 * l.1 < 85 * railNominal s.dev l.2)) = true) → 
      ∃ e, exec (.supplySample levels) s = .next { s with dev := e } ∧
        e.boot.phase = .reset ∧ e.regs = [] ∧ e.flash = s.dev.flash ∧ (∀ a : Fin 64, e.byte (mramBase + a) = s.dev.byte (mramBase + a))) ∧
  (∀ (levels : List Nat) (s : State), (s.dev.boot.phase ≠ .reset ∧ coreSetBad s.dev = false ∧ levels.length = 10 ∧ (levels.zip (List.range 10)).all (fun l => !railOutside s.dev l.2 5 l.1) = true) → (levels.zip (List.range 10)).all (fun l => decide (85 * railNominal s.dev l.2 ≤ 100 * l.1)) = true → 
      ∃ e, exec (.supplySample levels) s = .next { s with dev := e } ∧
        e.get F.FLT_SUPPLY.WARN = 0 ∧ e.get F.FLT_SUPPLY.RAILS = s.dev.get F.FLT_SUPPLY.RAILS ∧ e.flt = { s.dev.flt with badRails := [], railCauses := [] } ∧
        SameBut [R.FLT_SUPPLY] [.flt] s.dev e) ∧
  (∀ (levels : List Nat) (k : Nat) (s : State), (s.dev.boot.phase ≠ .reset ∧ s.dev.safe = false ∧ (levels.zip (List.range 10)).all (fun l => decide (85 * railNominal s.dev l.2 ≤ 100 * l.1)) = true) → (((levels.zip (List.range 10)).filter (fun l => railOutside s.dev l.2 10 l.1)).map Prod.snd = [k] ∧ s.dev.flt.badRails = [k] ∧ s.dev.flt.railCauses = []) → 
      ∃ e, exec (.supplySample levels) s = .next { s with dev := e } ∧
        e.safe = true ∧ e.get F.FLT_STATUS.SAFE_CODE = faultSupply ∧ e.get F.FLT_LAST.INDEX = k ∧ e.get F.FLT_SUPPLY.RAILS = 2 ^ k ∧ e.get F.FLT_FLAGS.SUPPLY_WARN = 1) ∧
  (∀ (levels : List Nat) (k : Nat) (s : State), (s.dev.boot.phase ≠ .reset ∧ coreSetBad s.dev = false ∧ (levels.zip (List.range 10)).all (fun l => decide (85 * railNominal s.dev l.2 ≤ 100 * l.1)) = true) → (((levels.zip (List.range 10)).filter (fun l => railOutside s.dev l.2 5 l.1)).map Prod.snd = [k] ∧ (levels.zip (List.range 10)).all (fun l => !railOutside s.dev l.2 10 l.1) = true) → 
      ∃ e, exec (.supplySample levels) s = .next { s with dev := e } ∧
        e.get F.FLT_SUPPLY.WARN = 2 ^ k ∧ e.get F.FLT_SUPPLY.RAILS = s.dev.get F.FLT_SUPPLY.RAILS ∧ e.get F.FLT_FLAGS.SUPPLY_WARN = 1 ∧ e.safe = s.dev.safe ∧
        e.flt = { s.dev.flt with badRails := [], railCauses := [] } ∧
        SameBut [R.FLT_SUPPLY, R.FLT_FLAGS] [.flt, .evt] s.dev e) ∧
  (∀ (levels : List Nat) (s : State), s.dev.boot.phase = .reset → 
      ∃ e, exec (.supplySample levels) s = .next { s with dev := e } ∧
        e = s.dev) ∧
  (∀ (energy : List Nat) (temps : List Int) (k : Nat) (s : State), (((temps.zip (List.range 16)).filter (fun x => decide (1120 ≤ x.1))).map Prod.snd = [k] ∧ s.dev.flt.hot.contains k = true ∧ s.dev.flt.hotCauses = [] ∧ s.dev.safe = false) → 
      ∃ e, exec (.energyMeterSample energy temps) s = .next { s with dev := e } ∧
        e.safe = true ∧ e.get F.FLT_STATUS.SAFE_CODE = faultTjMax ∧ e.get F.FLT_LAST.INDEX = k ∧ e.flt.hot = [k]) ∧
  (∀ (s : State), gateOpen s.dev (R.FLT_CTRL) = true → 
      ∃ e, exec (.histClear) s = .next { s with dev := e } ∧
        e.get F.FLT_HIST_SEQ.SEQ = s.dev.get F.FLT_HIST_SEQ.SEQ ∧
        (∀ k : Fin 8, e.num (faultBytes.1 + 8 * k) 8 = 0 ∧ e.num (faultBytes.1 + 65528) 8 = 0) ∧
        (∀ a, faultBytes.1 ≤ a → a < faultBytes.1 + 65536 → e.byte a = 0) ∧
        SameButMem [] [.resv] ([faultBytes]) s.dev e)

/-- A core's write of FLT_CTRL with SAFE and EXIT together records FW_REQUEST, sets EXIT_REJ and leaves the device in the safe state, whether
it was in it or not. In the safe state, each chip cause (SAFE, a lost reference, a rail outside 10 percent twice, a sensor at 140 degrees
twice, a level-3 fault of the Memory region's code 0x6301) records its fault and leaves SAFE_CODE, the pins, the spout ports, the power
domains and the memory controllers as they are. It rests also on the model's choices of log entries 210, 211, 257. Each clause concludes
that exec i s = .next t; so shown to complete: registerWrite, fltSafe, refclk, resetRegion, supplySample, energyMeterSample. -/
def Obligations.ChipCauseAgainstExit : Prop :=
  (∀ (n : Fin 4) (s : State), (gateOpen s.dev R.FLT_CTRL = true ∧ coreStops { master := .core n, addr := R.FLT_CTRL } true s.dev = none) → 
      ∃ e, exec (.registerWrite { master := .core n, addr := R.FLT_CTRL } 0xC0000000 0) s = .next { s with dev := e } ∧
        e.safe = true ∧ e.get F.FLT_FLAGS.EXIT_REJ = 1 ∧ e.get F.FLT_LAST.CODE = faultFwRequest) ∧
  (∀ (s : State), s.dev.safe = true → gateOpen s.dev (R.FLT_CTRL) = true → 
      ∃ e, exec (.fltSafe) s = .next { s with dev := e } ∧
        e.get F.FLT_LAST.CODE = faultFwRequest ∧
        SameButMem (faultRegs) [.resv, .evt] ([faultBytes]) s.dev e) ∧
  (∀ (cause : RefclkCause) (s : State), (s.dev.safe = true ∧ s.dev.flt.refOk = true) → 
      ∃ e, exec (.refclk cause) s = .next { s with dev := e } ∧
        e.get F.FLT_LAST.CODE = faultRefclk ∧
        SameButMem (faultRegs) [.resv, .evt, .flt] ([faultBytes]) s.dev e) ∧
  (∀ (index : Nat) (s : State), s.dev.safe = true → 
      ∃ e, exec (.resetRegion (.fault faultTrainFail index)) s = .next { s with dev := e } ∧
        e.get F.FLT_LAST.CODE = faultMemory ∧ e.get F.FLT_LAST.INDEX = index % 65536 ∧
        SameButMem (faultRegs) [.resv, .evt] ([faultBytes]) s.dev e) ∧
  (∀ (levels : List Nat) (k : Nat) (s : State), (s.dev.boot.phase ≠ .reset ∧ s.dev.safe = true ∧ (levels.zip (List.range 10)).all (fun l => decide (85 * railNominal s.dev l.2 ≤ 100 * l.1)) = true) → (((levels.zip (List.range 10)).filter (fun l => railOutside s.dev l.2 10 l.1)).map Prod.snd = [k] ∧ s.dev.flt.badRails = [k] ∧ s.dev.flt.railCauses = []) → 
      ∃ e, exec (.supplySample levels) s = .next { s with dev := e } ∧
        e.get F.FLT_LAST.CODE = faultSupply ∧
        SameButMem (faultRegs ++ [R.FLT_SUPPLY]) [.resv, .evt, .flt] ([faultBytes]) s.dev e) ∧
  (∀ (energy : List Nat) (temps : List Int) (k : Nat) (s : State), (((temps.zip (List.range 16)).filter (fun x => decide (1120 ≤ x.1))).map Prod.snd = [k] ∧ s.dev.flt.hot.contains k = true ∧ s.dev.flt.hotCauses = [] ∧ s.dev.safe = true) → 
      ∃ e, exec (.energyMeterSample energy temps) s = .next { s with dev := e } ∧
        e.get F.FLT_LAST.CODE = faultTjMax ∧
        SameButMem (faultRegs ++ [R.RSV_FLAGS]) [.resv, .evt, .flt, .rsv] ([faultBytes]) s.dev e)

/-- A RESET_REGION write for one region that may reset and has started fewer than ESC_MAX resets in 60 s sets its RESETTING bit, counts,
records REQUESTED and drains it; at the limit it enters the safe state with ESCALATION instead. A region already resetting, or held by the
safe state, starts none. A fault of level 1 or 2 is recorded and resets nothing; an uncorrectable read of SRAM or TCM records 0x1208 and
ends with a bus error. When its requests have drained the region is held: Vision has no open objects or upper sightings, Intake no waiting
lines and every port DISABLED, Actuation no pending windows. A held region restarts: RESETTING clears and REGION_RESET is set. Region 1
resets in the safe state too. It rests also on the model's choices of log entries 212, 214, 257. Each clause concludes that exec i s =
.next t; so shown to complete: resetRegion, regionDrained, regionRestart. -/
def Obligations.RegionResets : Prop :=
  (∀ (r : Fin 5) (s : State), (gateOpen s.dev R.FLT_CTRL = true ∧ cannotReset (r + 1) s.dev = false ∧ ((s.dev.flt.starts[r]).filter (fun t => decide ((s.dev.nowNs + 2 ^ 64 - t) % 2 ^ 64 < 60000000000))).length + 1 < max 1 (s.dev.get F.FLT_CFG.ESC_MAX)) → 
      ∃ e, exec (.resetRegion (.write (2 ^ r.val))) s = .next { s with dev := e } ∧
        e.resetting (r + 1) = true ∧ regionPhase e (r + 1) = .draining ∧ e.safe = s.dev.safe ∧
        e.get (F.FLT_Rr_RESETS.V r) = min (s.dev.get (F.FLT_Rr_RESETS.V r) + 1) 0xFFFFFFFF ∧ e.get F.FLT_LAST.CODE = faultRequested (r + 1) ∧
        (∀ k : Fin 5, k ≠ r → e.resetting (k + 1) = s.dev.resetting (k + 1))) ∧
  (∀ (r : Fin 5) (s : State), (gateOpen s.dev R.FLT_CTRL = true ∧ cannotReset (r + 1) s.dev = false ∧ s.dev.safe = false ∧ max 1 (s.dev.get F.FLT_CFG.ESC_MAX) ≤ ((s.dev.flt.starts[r]).filter (fun t => decide ((s.dev.nowNs + 2 ^ 64 - t) % 2 ^ 64 < 60000000000))).length + 1) → 
      ∃ e, exec (.resetRegion (.write (2 ^ r.val))) s = .next { s with dev := e } ∧
        e.safe = true ∧ e.get F.FLT_STATUS.SAFE_CODE = faultEscalation ∧ e.get F.FLT_FLAGS.ESCALATED = 1 ∧ e.get F.FLT_LAST.INDEX = r + 1) ∧
  (∀ (bits : Nat) (s : State), (gateOpen s.dev R.FLT_CTRL = true ∧ (∀ r : Fin 5, bitAt bits r = true → cannotReset (r + 1) s.dev = true)) → 
      ∃ e, exec (.resetRegion (.write bits)) s = .next { s with dev := e } ∧
        e = s.dev) ∧
  (∀ (code index : Nat) (s : State), (faultLevel code = 0 ∨ 3 < faultLevel code ∨ faultRegion code = 0 ∨ 6 < faultRegion code) → 
      ∃ e, exec (.resetRegion (.fault code index)) s = .next { s with dev := e } ∧
        e = s.dev) ∧
  (∀ (code index : Nat) (s : State), (faultLevel code = 2 ∧ 1 ≤ faultRegion code ∧ faultRegion code ≤ 6) → 
      ∃ e, exec (.resetRegion (.fault code index)) s = .next { s with dev := e } ∧
        e.get F.FLT_LAST.CODE = code % 65536 ∧ e.get F.FLT_LAST.INDEX = index % 65536 ∧ e.get F.FLT_L2_COUNT.V = min (s.dev.get F.FLT_L2_COUNT.V + 1) 0xFFFFFFFF ∧ e.get F.FLT_FLAGS.FAULT = 1 ∧
        (∀ k : Fin 5, e.resetting (k + 1) = s.dev.resetting (k + 1)) ∧
        SameButMem (faultRegs) [.resv, .evt] ([faultBytes]) s.dev e) ∧
  (∀ (code index : Nat) (s : State), (faultLevel code = 1 ∧ 1 ≤ faultRegion code ∧ faultRegion code ≤ 6) → 
      ∃ e, exec (.resetRegion (.fault code index)) s = .next { s with dev := e } ∧
        e.get F.FLT_L1_COUNT.V = min (s.dev.get F.FLT_L1_COUNT.V + 1) 0xFFFFFFFF ∧ e.rd R.FLT_LAST = s.dev.rd R.FLT_LAST ∧
        SameButMem (faultRegs) [.resv, .evt] ([faultBytes]) s.dev e) ∧
  (∀ (m : Master) (addr : Nat) (s : State),
      ∃ e, exec (.resetRegion (.memUncorr m addr)) s = .next { s with dev := e } ∧
        e.get F.FLT_LAST.CODE = faultMemUncorr ∧ e.cores.busError = true ∧
        (s.dev.bit F.CORE_BUSERR_INFO.VALID = false → e.get F.CORE_BUSERR_INFO.VALID = 1 ∧ e.get F.CORE_BUSERR_INFO.MASTER = masterId m ∧ e.get F.CORE_BUSERR_INFO.CAUSE = causeRefused) ∧
        SameButMem (faultRegs ++ busErrorRegs) [.resv, .evt, .cores, .fresh] ([faultBytes]) s.dev e) ∧
  (∀ (r : Fin 5) (s : State), regionPhase s.dev (r + 1) = .draining → 
      ∃ e, exec (.regionDrained r) s = .next { s with dev := e } ∧
        regionPhase e (r + 1) = .held ∧ e.resetting (r + 1) = s.dev.resetting (r + 1) ∧
        (r = 1 → e.pipes.waiting = [] ∧ e.cal.sets = [] ∧ (s.dev.resetting 2 = true → ∀ p : Fin 12, e.portState p = psDisabled)) ∧
        (r = 2 → (∀ v : Fin 4, (e.seg v).objs = []) ∧ e.fly.upper = []) ∧
        (r = 4 → e.ej.windows = [])) ∧
  (∀ (r : Fin 5) (s : State), regionPhase s.dev (r + 1) ≠ .draining → 
      ∃ e, exec (.regionDrained r) s = .next { s with dev := e } ∧
        e = s.dev) ∧
  (∀ (r : Fin 5) (s : State), (regionPhase s.dev (r + 1) = .held ∧ (s.dev.safe = false ∨ (r = 0 ∧ s.dev.flt.controlHeld = false))) → 
      ∃ e, exec (.regionRestart r) s = .next { s with dev := e } ∧
        regionPhase e (r + 1) = .running ∧ e.resetting (r + 1) = false ∧ e.get F.FLT_FLAGS.REGION_RESET = 1 ∧
        (∀ k : Fin 5, k ≠ r → e.resetting (k + 1) = s.dev.resetting (k + 1) ∧ regionPhase e (k + 1) = regionPhase s.dev (k + 1))) ∧
  (∀ (r : Fin 5) (s : State), (regionPhase s.dev (r + 1) ≠ .held ∨ (s.dev.safe = true ∧ (r ≠ 0 ∨ s.dev.flt.controlHeld = true))) → 
      ∃ e, exec (.regionRestart r) s = .next { s with dev := e } ∧
        e = s.dev)

/-- PORST_N low for at least 100 ns returns every register, table and volatile memory to reset and keeps MRAM and the flash; a shorter pulse
does nothing. Reset release, once every rail lies within its ±3 %, latches BOOT_MODE: 0 waits for the PLLs, 1 is Ethernet recovery, 2
test, 3 a failed boot with BAD_STRAP. PLL_LOCK without SFDP fails at step 2; a header that fails its check fails at step 3 with its code,
the section table at step 5 with BAD_SECTION, the signature at step 5 with its code; an image that passes and has no EARLY section sets
LEVEL, BUILD_ID and HDR_CRC and starts DRAM training at step 7. BOOT_DRAM_READY outside the training step or before every controller reads
RUN does nothing (its success is a statement of its own). Two seconds without a first apply fail with code 12. A controller that fails
training reads FAIL and fails the boot at step 7. It rests also on the model's choices of log entries 171, 180, 181, 182, 218, 272. Each
clause concludes that exec i s = .next t; so shown to complete: porst, resetRelease, pllLock, bootDramReady, firstApplyTimeout,
memTrainDone. -/
def Obligations.BootSequence : Prop :=
  (∀ (held : Nat) (s : State), 100 ≤ held → 
      ∃ e, exec (.porst held) s = .next { s with dev := e } ∧
        e.regs = [] ∧ e.tabs = [] ∧ e.flash = s.dev.flash ∧ e.boot.phase = .reset ∧ e.slu = {} ∧ e.evt = {} ∧ e.tb = {} ∧
        (∀ a : Fin 64, e.byte (mramBase + a) = s.dev.byte (mramBase + a) ∧ e.byte (mramBase + 0xFFFFC0 + a) = s.dev.byte (mramBase + 0xFFFFC0 + a) ∧ e.byte (0x80000000 + a) = memDefault (0x80000000 + a)) ∧
        (∀ a, mramBase ≤ a → a < mramBase + 0x1000000 → e.byte a = s.dev.byte a) ∧
        (∀ a, a < mramBase ∨ mramBase + 0x1000000 ≤ a → e.byte a = memDefault a)) ∧
  (∀ (held : Nat) (s : State), held < 100 → 
      ∃ e, exec (.porst held) s = .next { s with dev := e } ∧
        e = s.dev) ∧
  (∀ (mode : Fin 4) (levels : List Nat) (s : State), (s.dev.boot.phase = .reset ∧ railsGood levels s.dev = true) → 
      ∃ e, exec (.resetRelease mode levels) s = .next { s with dev := e } ∧
        e.get F.CHIP_STRAP.BOOT_MODE = mode ∧ e.boot.releasedAt = s.dev.tb.edges ∧ e.boot.mode = mode ∧ e.get F.FLT_HIST_SEQ.SEQ = histNext s.dev ∧
        (e.boot.phase = (if mode = 0 then .released else if mode = 1 then .recovery else if mode = 2 then .test else .failed)) ∧
        (mode = 0 ∨ mode = 2 → e.get F.CHIP_BOOT.STAGE = 1 ∧ e.get F.CHIP_BOOT.FAIL = s.dev.get F.CHIP_BOOT.FAIL) ∧
        (mode = 1 → e.get F.ETH_CFG.EN = 1 ∧ e.get F.ETH_CFG.MODE = 0) ∧
        (mode = 3 → e.get F.CHIP_BOOT.FAIL = 1 ∧ e.get F.CHIP_BOOT.STAGE = 1 ∧ e.get F.CHIP_BOOT.CODE = 1 ∧ e.get F.ETH_CFG.EN = 1) ∧
        (mode = 1 ∨ mode = 3 → e.get F.KCP_CFG.EN = 1) ∧
        SameBut ([R.CHIP_STRAP, R.CHIP_BOOT, R.FLT_HIST_SEQ, R.FLT_SUPPLY, R.ETH_CFG, R.ETH_MAC_LO, R.ETH_MAC_HI, R.KCP_CFG] ++ ethLanes.flatMap (fun l => [R.LN_CTRL (laneBase l), R.LN_STATUS (laneBase l)])) [.boot, .flt, .eth] s.dev e) ∧
  (∀ (mode : Fin 4) (levels : List Nat) (s : State), (s.dev.boot.phase ≠ .reset ∨ railsGood levels s.dev = false) → 
      ∃ e, exec (.resetRelease mode levels) s = .next { s with dev := e } ∧
        e = s.dev) ∧
  (∀ (octal : Bool) (s : State), s.dev.boot.phase = .released → 
      ∃ e, exec (.pllLock false octal) s = .next { s with dev := e } ∧
        e.boot.phase = .failed ∧ e.get F.CHIP_BOOT.FAIL = 1 ∧ e.get F.CHIP_BOOT.STAGE = 2 ∧ e.get F.CHIP_BOOT.CODE = 2 ∧ e.get F.ETH_CFG.EN = 1 ∧ e.get F.ETH_CFG.MODE = 0 ∧
        SameBut ([R.CHIP_BOOT, R.ETH_CFG, R.ETH_MAC_LO, R.ETH_MAC_HI, R.KCP_CFG] ++ ethLanes.flatMap (fun l => [R.LN_CTRL (laneBase l), R.LN_STATUS (laneBase l)])) [.boot, .eth] s.dev e) ∧
  (∀ (h : List Byte) (octal : Bool) (s : State), (s.dev.boot.phase = .released ∧ h = flashBytes s.dev 0 256) → 
      ∃ e, exec (.pllLock true octal) s = .next { s with dev := e } ∧
        (∀ k : Fin 16, headerFault h = some k.val → e.boot.phase = .failed ∧ e.get F.CHIP_BOOT.STAGE = 3 ∧ e.get F.CHIP_BOOT.CODE = k ∧ e.mem = s.dev.mem) ∧
        (headerFault h = none → tableOk s.dev h = false → e.boot.phase = .failed ∧ e.get F.CHIP_BOOT.STAGE = 5 ∧ e.get F.CHIP_BOOT.CODE = 9) ∧
        (∀ k : Fin 16, headerFault h = none → tableOk s.dev h = true → signatureFault s.dev h = some k.val → e.boot.phase = .failed ∧ e.get F.CHIP_BOOT.STAGE = 5 ∧ e.get F.CHIP_BOOT.CODE = k) ∧
        (headerFault h = none → tableOk s.dev h = true → signatureFault s.dev h = none → (sectionsOf s.dev h).all (fun x => x.type != 2) = true → e.boot.phase = .dram ∧ e.boot.octal = (if octal ∧ bitAt (leAt h 9 1) 1 then some (leAt h 10 2) else none) ∧ e.get F.CHIP_BOOT.STAGE = 7 ∧ e.get F.CHIP_LEVEL.LEVEL = leAt h 8 1 ∧ e.get F.CHIP_BUILD_ID.BUILD_ID = leAt h 32 4 ∧ e.get F.CHIP_HDR_CRC.HDR_CRC = leAt h 252 4 ∧ (masksOk s.dev = true → ∀ n : Fin 4, e.memState n = msTrain))) ∧
  (∀ (sfdp octal : Bool) (s : State), s.dev.boot.phase ≠ .released → 
      ∃ e, exec (.pllLock sfdp octal) s = .next { s with dev := e } ∧
        e = s.dev) ∧
  (∀ (s : State), (s.dev.boot.phase ≠ .dram ∨ (∃ n : Fin 4, s.dev.memState n ≠ msRun)) → 
      ∃ e, exec (.bootDramReady) s = .next { s with dev := e } ∧
        e = s.dev) ∧
  (∀ (s : State), (s.dev.boot.phase = .done ∧ s.dev.slu.applied = false ∧ s.dev.sluState ≠ sluChecking) → 
      ∃ e, exec (.firstApplyTimeout) s = .next { s with dev := e } ∧
        e.boot.phase = .failed ∧ e.get F.CHIP_BOOT.FAIL = 1 ∧ e.get F.CHIP_BOOT.STAGE = 10 ∧ e.get F.CHIP_BOOT.CODE = 12 ∧ e.get F.CHIP_BOOT.DONE = s.dev.get F.CHIP_BOOT.DONE) ∧
  (∀ (s : State), (s.dev.boot.phase ≠ .done ∨ s.dev.slu.applied = true ∨ s.dev.sluState = sluChecking) → 
      ∃ e, exec (.firstApplyTimeout) s = .next { s with dev := e } ∧
        e = s.dev) ∧
  (∀ (n : Fin 4) (s : State), (s.dev.memState n = msTrain ∧ s.dev.boot.phase = .dram ∧ s.dev.safe = false) → 
      ∃ e, exec (.memTrainDone n false) s = .next { s with dev := e } ∧
        e.boot.phase = .failed ∧ e.get F.CHIP_BOOT.STAGE = 7 ∧ e.get F.CHIP_BOOT.CODE = 11 ∧ e.get (F.MEMn_FLAGS.TRAIN_FAIL n) = 1 ∧
        e.safe = true ∧ e.get F.FLT_STATUS.SAFE_CODE = faultMemory ∧ e.memState n = msFail)

/-- BOOT_DRAM_READY in the training step, with every controller in RUN, when the sections of the image load without a failure, sets
CHIP_BOOT.DONE, STAGE 10 and CODE 0, has core 0 jump to ENTRY in machine mode and ends the start-up with the KCP server running (the
model's choice, log entry 244); where a section fails, the boot has failed. Each clause concludes that exec i s = .next t; so shown to
complete: bootDramReady. -/
def Obligations.BootCompletion : Prop :=
  ∀ (d1 : Device) (s : State), (s.dev.boot.phase = .dram ∧ (∀ n : Fin 4, s.dev.memState n = msRun) ∧ d1 = loadSections (sectionsOf s.dev (flashBytes s.dev 0 256)) (s.dev.set F.CHIP_BOOT.STAGE 8)) → 
      ∃ e, exec (.bootDramReady) s = .next { s with dev := e } ∧
        (d1.boot.phase ≠ .failed → e.boot.phase = .done ∧ e.get F.CHIP_BOOT.DONE = 1 ∧ e.get F.CHIP_BOOT.STAGE = 10 ∧ e.get F.CHIP_BOOT.CODE = 0 ∧ e.get F.KCP_CFG.EN = 1 ∧ (e.core 0).hart.pc = BitVec.ofNat 64 d1.boot.entry ∧ (e.core 0).hart.machine = true ∧ (∀ n : Fin 4, n ≠ 0 → e.core n = d1.core n)) ∧
        (d1.boot.phase = .failed → e = d1)

/-- A staging write in OPEN by no other owner enters the staging copy of an RWS register and leaves the live value; in CHECKING it is refused,
counted and flagged. COMMIT in OPEN with A in reach enters CHECKING, out of reach it is refused with TOO_LATE, in another state it changes
nothing. CANCEL in CHECKING returns to OPEN with result 23; at another time it sets CANCEL_REJ. A hardware check that finds a breach
refuses with its code and discards the staging copy; one that passes asks the firmware where FW_EN = 1, else arms while lines run. A
verdict of 0 arms, another refuses with 21, its time-out with 22. When every block has switched, APPLIED is set and the sluice is OPEN. It
rests also on the model's choices of log entries 172, 173, 178, 179. Each clause concludes that exec i s = .next t; so shown to complete:
stagingWrite, sluCommit, sluCancel, sluCheckOnly, sluHwCheckDone, sluFwVerdict, sluFwTimeout, sluSwitchDone. -/
def Obligations.SluiceCommit : Prop :=
  (∀ (n : Fin 4) (a : Nat) (value : Word) (r : RegDesc) (s : State), (s.dev.boot.phase ≠ .reset ∧ areaAt s.dev a = some (.reg r) ∧ a % 4 = 0 ∧ r.rws ≠ 0 ∧ accessCause s.dev a 4 false = none ∧ rwsMask a = BitVec.ofNat 32 r.rws) → (writeActs n .runtime a r value 0 ((latchPlic s.dev).reply 0) = none ∧ stagingRefused s.dev .runtime = false ∧ coreStops { master := .core n, addr := a } true s.dev = none) → 
      ∃ e, exec (.stagingWrite { master := .core n, addr := a } value) s = .next { s with dev := e } ∧
        stagedReg e a = ((e.rd a) &&& ~~~ (rwsMask a)) ||| (value &&& rwsMask a) ∧ (e.rd a &&& rwsMask a) = (s.dev.rd a &&& rwsMask a) ∧
        e.slu.owner = .runtime ∧ e.sluState = s.dev.sluState ∧ e.cores.busError = false ∧ e.slu.stagedTabs = s.dev.slu.stagedTabs ∧
        SameBut [a, R.SLU_STATE] [.slu, .cores] s.dev e) ∧
  (∀ (n : Fin 4) (a : Nat) (value : Word) (r : RegDesc) (s : State), (s.dev.boot.phase ≠ .reset ∧ areaAt s.dev a = some (.reg r) ∧ a % 4 = 0 ∧ r.rws ≠ 0 ∧ r.rw = 0 ∧ r.rwl = 0 ∧ r.w1c = 0 ∧ accessCause s.dev a 4 false = none) → (writeActs n .runtime a r value 0 ((latchPlic s.dev).reply 0) = none ∧ stagingRefused s.dev .runtime = true ∧ coreStops { master := .core n, addr := a } true s.dev = none) → 
      ∃ e, exec (.stagingWrite { master := .core n, addr := a } value) s = .next { s with dev := e } ∧
        e.get F.SLU_STAGE_REJ.V = min (s.dev.get F.SLU_STAGE_REJ.V + 1) 0xFFFFFFFF ∧ e.get F.SLU_FLAGS.STAGE_REJ = 1 ∧
        SameBut [R.SLU_STAGE_REJ, R.SLU_FLAGS] [.evt, .cores] s.dev e) ∧
  (∀ (m : Master) (value : Word) (a : Nat) (s : State), (F.SLU_CMD.COMMIT.of value = 1 ∧ F.SLU_CMD.CANCEL.of value = 0 ∧ bootFailed s.dev = false ∧ s.dev.sluState = sluOpen ∧ s.dev.safe = false ∧ a = s.dev.get F.SLU_APPLY_LINE.A ∧ inReach s.dev a = true) → gateOpen s.dev (R.SLU_CMD) = true → 
      ∃ e, exec (.sluCommit m value) s = .next { s with dev := e } ∧
        e.sluState = sluChecking ∧ e.get F.SLU_ARMED_LINE.V = a ∧ e.slu.part = .hardware ∧ e.slu.checkOnly = decide (F.SLU_CMD.CHECK_ONLY.of value = 1) ∧
        e.get F.SLU_COMMITS.COMMIT = min (s.dev.get F.SLU_COMMITS.COMMIT + 1) 0xFFFFFFFF ∧ e.slu.staged = s.dev.slu.staged ∧ e.slu.count = s.dev.countOf a ∧
        SameBut [R.SLU_STATE, R.SLU_ARMED_LINE, R.SLU_COMMITS] [.slu] s.dev e) ∧
  (∀ (m : Master) (value : Word) (s : State), (F.SLU_CMD.COMMIT.of value = 1 ∧ F.SLU_CMD.CANCEL.of value = 0 ∧ F.SLU_CMD.CHECK_ONLY.of value = 0 ∧ bootFailed s.dev = false ∧ s.dev.sluState = sluOpen ∧ s.dev.safe = false ∧ inReach s.dev (s.dev.get F.SLU_APPLY_LINE.A) = false) → gateOpen s.dev (R.SLU_CMD) = true → 
      ∃ e, exec (.sluCommit m value) s = .next { s with dev := e } ∧
        e.sluState = sluOpen ∧ e.get F.SLU_RESULT.CODE = 1 ∧ e.get F.SLU_FLAGS.REFUSED = 1 ∧ e.get F.SLU_REFUSALS.V = min (s.dev.get F.SLU_REFUSALS.V + 1) 0xFFFFFFFF ∧
        SameBut [R.SLU_RESULT, R.SLU_INDEX, R.SLU_FLAGS, R.SLU_REFUSALS] [.evt] s.dev e) ∧
  (∀ (m : Master) (value : Word) (s : State), (F.SLU_CMD.CANCEL.of value = 0 ∧ F.SLU_CMD.CHECK_ONLY.of value = 0 ∧ (s.dev.sluState ≠ sluOpen ∨ s.dev.safe = true ∨ bootFailed s.dev = true)) → gateOpen s.dev (R.SLU_CMD) = true → 
      ∃ e, exec (.sluCommit m value) s = .next { s with dev := e } ∧
        e = s.dev) ∧
  (∀ (s : State), (bootFailed s.dev = false ∧ s.dev.sluState = sluChecking ∧ s.dev.slu.root = .none ∧ s.dev.slu.members = [] ∧ s.dev.slu.withPartner = false ∧ s.dev.slu.committer = .none) → gateOpen s.dev (R.SLU_CMD) = true → 
      ∃ e, exec (.sluCancel) s = .next { s with dev := e } ∧
        e.sluState = sluOpen ∧ e.get F.SLU_RESULT.CODE = 23 ∧ e.get F.SLU_CANCELS.V = min (s.dev.get F.SLU_CANCELS.V + 1) 0xFFFFFFFF ∧ e.slu.staged = [] ∧ e.slu.stagedTabs = [] ∧
        SameBut [R.SLU_STATE, R.SLU_RESULT, R.SLU_CANCELS] [.slu] s.dev e) ∧
  (∀ (s : State), (bootFailed s.dev = false ∧ (s.dev.sluState = sluOpen ∨ s.dev.sluState = sluApplied ∨ (s.dev.sluState = sluArmed ∧ s.dev.slu.count - 32 ≤ s.dev.tb.count))) → gateOpen s.dev (R.SLU_CMD) = true → 
      ∃ e, exec (.sluCancel) s = .next { s with dev := e } ∧
        e.get F.SLU_FLAGS.CANCEL_REJ = 1 ∧ e.sluState = s.dev.sluState ∧
        SameBut [R.SLU_FLAGS] [.evt] s.dev e) ∧
  (∀ (s : State), (bootFailed s.dev = false ∧ s.dev.sluState = sluChecking ∧ s.dev.slu.part ≠ .confirmation) → gateOpen s.dev (R.SLU_CMD) = true → 
      ∃ e, exec (.sluCheckOnly) s = .next { s with dev := e } ∧
        e.slu = { s.dev.slu with checkOnly := true } ∧
        SameBut [] [.slu] s.dev e) ∧
  (∀ (s : State), s.dev.sluState ≠ sluChecking → gateOpen s.dev (R.SLU_CMD) = true → 
      ∃ e, exec (.sluCheckOnly) s = .next { s with dev := e } ∧
        e = s.dev) ∧
  (∀ (s : State), (s.dev.sluState = sluChecking ∧ s.dev.slu.part = .hardware ∧ hwBreach s.dev = none ∧ s.dev.bit F.SLU_CFG.FW_EN = true) → 
      ∃ e, exec (.sluHwCheckDone) s = .next { s with dev := e } ∧
        e.sluState = sluChecking ∧ e.slu.part = .firmware ∧ e.slu.since = s.dev.tb.edges ∧ e.get F.SLU_FLAGS.FW_REQ = 1 ∧ e.slu.staged = s.dev.slu.staged ∧
        SameBut [R.SLU_CHECK_US, R.SLU_FLAGS] [.slu, .evt] s.dev e) ∧
  (∀ (s : State), (s.dev.sluState = sluChecking ∧ s.dev.slu.part = .hardware ∧ hwBreach s.dev = none ∧ s.dev.bit F.SLU_CFG.FW_EN = false ∧ s.dev.slu.checkOnly = false ∧ s.dev.lining = true ∧ inReach s.dev (lineOf s.dev.slu.count) = true) → (s.dev.slu.root = .none ∧ s.dev.slu.members = [] ∧ s.dev.slu.withPartner = false ∧ s.dev.slu.committer = .none ∧ chainMembers s.dev = [] ∧ needsPartner s.dev = false) → 
      ∃ e, exec (.sluHwCheckDone) s = .next { s with dev := e } ∧
        e.sluState = sluArmed ∧ e.get F.SLU_RESULT.CODE = 0 ∧ e.slu.staged = s.dev.slu.staged ∧ e.slu.stagedTabs = s.dev.slu.stagedTabs ∧
        SameBut [R.SLU_STATE, R.SLU_CHECK_US, R.SLU_RESULT] [.slu] s.dev e) ∧
  (∀ (b : Breach) (s : State), (s.dev.sluState = sluChecking ∧ s.dev.slu.part = .hardware ∧ hwBreach s.dev = some b ∧ s.dev.slu.root = .none ∧ s.dev.slu.members = [] ∧ s.dev.slu.withPartner = false ∧ s.dev.slu.committer = .none ∧ s.dev.slu.checkOnly = true) → 
      ∃ e, exec (.sluHwCheckDone) s = .next { s with dev := e } ∧
        e.sluState = sluOpen ∧ e.get F.SLU_RESULT.CODE = b.1 % 256 ∧ e.get F.SLU_RESULT.ITEM = b.2.1 % 256 ∧ e.get F.SLU_INDEX.INDEX = b.2.2 % 2 ^ 32 ∧ e.get F.SLU_FLAGS.REFUSED = 1 ∧ e.slu.staged = [] ∧
        SameBut [R.SLU_STATE, R.SLU_CHECK_US, R.SLU_RESULT, R.SLU_INDEX, R.SLU_FLAGS, R.SLU_REFUSALS] [.slu, .evt] s.dev e) ∧
  (∀ (value : Word) (s : State), (s.dev.sluState = sluChecking ∧ s.dev.slu.part = .firmware ∧ F.SLU_FW_VERDICT.VERDICT.of value = 0 ∧ s.dev.slu.checkOnly = false ∧ s.dev.lining = true ∧ inReach s.dev (lineOf s.dev.slu.count) = true) → (s.dev.slu.root = .none ∧ s.dev.slu.members = [] ∧ s.dev.slu.withPartner = false ∧ s.dev.slu.committer = .none ∧ chainMembers s.dev = [] ∧ needsPartner s.dev = false) → gateOpen s.dev (R.SLU_FW_VERDICT) = true → 
      ∃ e, exec (.sluFwVerdict value) s = .next { s with dev := e } ∧
        e.sluState = sluArmed ∧ e.get F.SLU_RESULT.CODE = 0 ∧ e.slu.staged = s.dev.slu.staged ∧
        SameBut [R.SLU_STATE, R.SLU_CHECK_US, R.SLU_RESULT] [.slu] s.dev e) ∧
  (∀ (value : Word) (s : State), (s.dev.sluState = sluChecking ∧ s.dev.slu.part = .firmware ∧ F.SLU_FW_VERDICT.VERDICT.of value ≠ 0 ∧ s.dev.slu.checkOnly = true) → (s.dev.slu.root = .none ∧ s.dev.slu.members = [] ∧ s.dev.slu.withPartner = false ∧ s.dev.slu.committer = .none) → gateOpen s.dev (R.SLU_FW_VERDICT) = true → 
      ∃ e, exec (.sluFwVerdict value) s = .next { s with dev := e } ∧
        e.sluState = sluOpen ∧ e.get F.SLU_RESULT.CODE = 21 ∧ e.get F.SLU_RESULT.ITEM = F.SLU_FW_VERDICT.ITEM.of value ∧ e.get F.SLU_RESULT.INDEX = F.SLU_FW_VERDICT.INDEX.of value ∧ e.slu.staged = [] ∧
        SameBut [R.SLU_STATE, R.SLU_CHECK_US, R.SLU_RESULT, R.SLU_INDEX, R.SLU_FLAGS, R.SLU_REFUSALS] [.slu, .evt] s.dev e) ∧
  (∀ (value : Word) (s : State), (s.dev.sluState ≠ sluChecking ∨ s.dev.slu.part ≠ .firmware) → gateOpen s.dev (R.SLU_FW_VERDICT) = true → 
      ∃ e, exec (.sluFwVerdict value) s = .next { s with dev := e } ∧
        e = s.dev) ∧
  (∀ (s : State), (s.dev.sluState = sluChecking ∧ s.dev.slu.part = .firmware ∧ s.dev.slu.checkOnly = true) → (s.dev.slu.root = .none ∧ s.dev.slu.members = [] ∧ s.dev.slu.withPartner = false ∧ s.dev.slu.committer = .none) → 
      ∃ e, exec (.sluFwTimeout) s = .next { s with dev := e } ∧
        e.sluState = sluOpen ∧ e.get F.SLU_RESULT.CODE = 22 ∧ e.slu.staged = [] ∧
        SameBut [R.SLU_STATE, R.SLU_CHECK_US, R.SLU_RESULT, R.SLU_INDEX, R.SLU_FLAGS, R.SLU_REFUSALS] [.slu, .evt] s.dev e) ∧
  (∀ (o : OldBank) (s : State), (s.dev.slu.old = some o ∧ s.dev.sluState = sluApplied ∧ unswitched s.dev o = false) → 
      ∃ e, exec (.sluSwitchDone) s = .next { s with dev := e } ∧
        e.sluState = sluOpen ∧ e.slu.old = some { o with done := true } ∧ e.get F.SLU_FLAGS.APPLIED = 1 ∧
        SameBut [R.SLU_STATE, R.SLU_FLAGS] [.slu, .evt] s.dev e) ∧
  (∀ (s : State), (s.dev.slu.old = none ∨ s.dev.sluState ≠ sluApplied) → 
      ∃ e, exec (.sluSwitchDone) s = .next { s with dev := e } ∧
        e = s.dev)

/-- With DBG_EN = 0 a read of dmstatus shows the hart unavailable, a system bus access ends with a bus error of master 9 and cause 3, and
every other request changes nothing. With DBG_EN = 1 and dmactive, a running hart halts and DEBUG_HALTED reads 1, a halted one resumes at
dpc and it reads 0, an abstract command reads and writes x registers of a halted hart and sets cmderr 4 where it runs, a program buffer
word reads back as written, and halt-on-reset is kept per hart. dmactive = 0 resets the module and frees the locks that master 9 owns. The
JTAG identification code has 0x1248 in [27:12]. It rests also on the model's choices of log entries 152, 153, 249, 279. Each clause
concludes that exec i s = .next t; so shown to complete: debugRequest. -/
def Obligations.DebugModule : Prop :=
  (∀ (n : Fin 4) (s : State), s.dev.bit F.CORE_DBG.DBG_EN = false → 
      ∃ e, exec (.debugRequest (.status n)) s = .next { s with dev := e } ∧
        e.cores.dbgm.data = 0x30A3 ∧
        SameBut [] [.cores] s.dev e) ∧
  (∀ (a width : Nat) (s : State), (s.dev.bit F.CORE_DBG.DBG_EN = false ∧ s.dev.bit F.CORE_BUSERR_INFO.VALID = false) → 
      ∃ e, exec (.debugRequest (.sbRead a width)) s = .next { s with dev := e } ∧
        e.cores.busError = true ∧ e.get F.CORE_BUSERR_INFO.MASTER = 9 ∧ e.get F.CORE_BUSERR_INFO.CAUSE = 3 ∧ e.get F.CORE_BUSERR_INFO.WRITE = 0 ∧ e.cores.dbgm.sberror = true ∧
        SameBut (busErrorRegs) [.cores] s.dev e) ∧
  (∀ (n : Fin 4) (s : State), s.dev.bit F.CORE_DBG.DBG_EN = false → 
      ∃ e, exec (.debugRequest (.halt n)) s = .next { s with dev := e } ∧
        e = s.dev) ∧
  (∀ (n : Fin 4) (s : State), (s.dev.bit F.CORE_DBG.DBG_EN = true ∧ s.dev.cores.dbgm.active = true ∧ coreRuns s.dev n = true) → 
      ∃ e, exec (.debugRequest (.halt n)) s = .next { s with dev := e } ∧
        (e.get (F.CORE_Cn_STATUS.DEBUG_HALTED n) = 1 ∧ coreRuns e n = true ∧ (∀ k : Fin 4, k ≠ n → e.core k = s.dev.core k)) ∧
        (coreActive s.dev n = false → e.core n = s.dev.core n) ∧
        SameBut [R.CORE_Cn_STATUS n] [.fresh, .cores] s.dev e) ∧
  (∀ (n : Fin 4) (s : State), (s.dev.bit F.CORE_DBG.DBG_EN = true ∧ s.dev.cores.dbgm.active = true ∧ hartHalted s.dev n = true) → 
      ∃ e, exec (.debugRequest (.resume n)) s = .next { s with dev := e } ∧
        e.get (F.CORE_Cn_STATUS.DEBUG_HALTED n) = 0 ∧ coreRuns e n = true ∧ (e.core n).haltAt = none ∧ (e.core n).hart.pc = (s.dev.core n).hart.csr csrDpc ∧
        SameBut [R.CORE_Cn_STATUS n] [.cores] s.dev e) ∧
  (∀ (n : Fin 4) (k : Fin 32) (v : Nat) (s : State), (s.dev.bit F.CORE_DBG.DBG_EN = true ∧ s.dev.cores.dbgm.active = true ∧ s.dev.cores.dbgm.cmderr = 0 ∧ hartHalted s.dev n = true ∧ k.val ≠ 0) → 
      ∃ e, exec (.debugRequest (.writeReg n (0x1000 + k) v)) s = .next { s with dev := e } ∧
        (e.core n).hart = { (s.dev.core n).hart with x := (e.core n).hart.x } ∧ (∀ j : Fin 32, (e.core n).hart.x[j] = (if j = k then BitVec.ofNat 64 v else (s.dev.core n).hart.x[j])) ∧
        SameBut [] [.cores] s.dev e) ∧
  (∀ (n : Fin 4) (k : Fin 32) (s : State), (s.dev.bit F.CORE_DBG.DBG_EN = true ∧ s.dev.cores.dbgm.active = true ∧ s.dev.cores.dbgm.cmderr = 0 ∧ hartHalted s.dev n = true) → 
      ∃ e, exec (.debugRequest (.readReg n (0x1000 + k))) s = .next { s with dev := e } ∧
        e.cores.dbgm.data = ((s.dev.core n).hart.x[k]).toNat ∧ e.core n = s.dev.core n ∧
        SameBut [] [.cores] s.dev e) ∧
  (∀ (n : Fin 4) (k : Nat) (s : State), (s.dev.bit F.CORE_DBG.DBG_EN = true ∧ s.dev.cores.dbgm.active = true ∧ s.dev.cores.dbgm.cmderr = 0 ∧ hartHalted s.dev n = false) → 
      ∃ e, exec (.debugRequest (.readReg n k)) s = .next { s with dev := e } ∧
        e.cores.dbgm.cmderr = 4 ∧ e.core n = s.dev.core n ∧
        SameBut [] [.cores] s.dev e) ∧
  (∀ (v : Nat) (s : State), s.dev.cores.jtag.ir = .idcode → 
      ∃ e, exec (.debugRequest (.drScan v)) s = .next { s with dev := e } ∧
        bitsOf e.cores.dbgm.data 27 12 = 0x1248 ∧ e.cores.dbgm.data % 2 = 1 ∧ e.cores.jtag = s.dev.cores.jtag ∧
        SameBut [] [.cores] s.dev e) ∧
  (∀ (i : Fin 8) (v : Word) (s : State), (s.dev.bit F.CORE_DBG.DBG_EN = true ∧ s.dev.cores.dbgm.active = true) → 
      ∃ e, exec (.debugRequest (.writeProgbuf i v)) s = .next { s with dev := e } ∧
        (e.cores.dbgm.progbuf[i] = v ∧ (∀ j : Fin 8, j ≠ i → e.cores.dbgm.progbuf[j] = s.dev.cores.dbgm.progbuf[j])) ∧
        SameBut [] [.cores] s.dev e) ∧
  (∀ (n : Fin 4) (on : Bool) (s : State), (s.dev.bit F.CORE_DBG.DBG_EN = true ∧ s.dev.cores.dbgm.active = true) → 
      ∃ e, exec (.debugRequest (.haltOnReset n on)) s = .next { s with dev := e } ∧
        ((e.core n).haltOnReset = on ∧ (∀ k : Fin 4, k ≠ n → e.core k = s.dev.core k)) ∧
        SameBut [] [.cores] s.dev e) ∧
  (∀ (s : State), s.dev.bit F.CORE_DBG.DBG_EN = true → 
      ∃ e, exec (.debugRequest (.active false)) s = .next { s with dev := e } ∧
        (e.cores.dbgm = {} ∧ (∀ n : Fin 4, (e.core n).haltOnReset = false) ∧ (∀ k : Fin 64, (s.dev.rd (R.LCKk k)).toNat = 10 → e.rd (R.LCKk k) = 0)) ∧
        SameBut ([R.LCK_FLAGS] ++ (List.range 64).map R.LCKk ++ (List.range 32).map R.MBXk_STATUS) [.cores, .evt] s.dev e)

/-- LINK_UP of an enabled port sets LINK and PHY_STATE 4; LINK_DOWN clears the link, what the streams had ready and PAUSE; AN_FAIL restarts
negotiation with its advertisement. With the link down a received frame has no effect; a frame outside 64 to 9,216 bytes, with a bad FCS,
or with no destination here counts only; a good one for an enabled ring with a free slot is stored with HEAD advanced, and a full ring
counts and sets RXQ_FULL. PAUSE is counted and honoured with PAUSE_RX. At a frame boundary a waiting PAUSE goes first, then the ring, then
the runtime's frames (a reply above ETH_MTU is dropped), then the object stream, then the capture fetch, each with the port's tag; PAUSED
sends nothing else, and with the link down the ring's frames are discarded. A flush builds a datagram of the records in hand; a fetch
datagram carries its range. It rests also on the model's choices of log entries 115, 117, 118, 123, 124, 125, 128, 244. Each clause
concludes that exec i s = .next t; so shown to complete: linkUp, linkDown, anFail, ethFrameReceive, pauseReceive, pauseExpire,
ethFrameTransmit, objectStreamFlush, captureFetchDatagram. -/
def Obligations.EthernetPort : Prop :=
  (∀ (s : State), (s.dev.bit F.ETH_CFG.EN = true ∧ s.dev.bit F.ETH_STATUS.LINK = false) → 
      ∃ e, exec (.linkUp) s = .next { s with dev := e } ∧
        e.get F.ETH_STATUS.LINK = 1 ∧ e.get F.ETH_STATUS.FEC_LOCK = 1 ∧ e.get F.ETH_STATUS.ALIGNED = 1 ∧ e.get F.ETH_STATUS.PHY_STATE = 4 ∧ e.get F.ETH_FLAGS.LINK_UP = 1 ∧
        e.bit F.ETH_STATUS.AN_DONE = decide (s.dev.get F.ETH_CFG.MODE = 0) ∧
        e.eth.sessions = s.dev.eth.sessions ∧ e.eth.sent = s.dev.eth.sent ∧
        (s.dev.boot.phase ≠ .done ∨ Config.staticIp4.isSome = true → e.eth = s.dev.eth ∧ e.fresh = s.dev.fresh) ∧
        SameBut [R.ETH_STATUS, R.ETH_FLAGS] [.evt, .eth, .fresh] s.dev e) ∧
  (∀ (s : State), (s.dev.bit F.ETH_CFG.EN = false ∨ s.dev.bit F.ETH_STATUS.LINK = true) → 
      ∃ e, exec (.linkUp) s = .next { s with dev := e } ∧
        e = s.dev) ∧
  (∀ (s : State), s.dev.bit F.ETH_STATUS.LINK = true → 
      ∃ e, exec (.linkDown) s = .next { s with dev := e } ∧
        e.get F.ETH_STATUS.LINK = 0 ∧ e.get F.ETH_STATUS.PAUSED = 0 ∧ e.get F.ETH_FLAGS.LINK_DOWN = 1 ∧ e.eth.objOut = [] ∧ e.eth.capOut = [] ∧ e.eth.sessions = s.dev.eth.sessions ∧
        SameBut [R.ETH_STATUS, R.ETH_FLAGS] [.eth, .evt] s.dev e) ∧
  (∀ (s : State), s.dev.bit F.ETH_STATUS.LINK = false → 
      ∃ e, exec (.linkDown) s = .next { s with dev := e } ∧
        e = s.dev) ∧
  (∀ (s : State), (s.dev.bit F.ETH_CFG.EN = true ∧ s.dev.get F.ETH_CFG.MODE = 0 ∧ s.dev.bit F.ETH_STATUS.LINK = false) → 
      ∃ e, exec (.anFail) s = .next { s with dev := e } ∧
        e.get F.ETH_STATUS.AN_DONE = 0 ∧ e.get F.ETH_STATUS.PHY_STATE = 1 ∧ e.get F.ETH_FLAGS.AN_FAIL = 1 ∧
        e.eth = { s.dev.eth with advert := some { pauseRx := s.dev.bit F.ETH_CFG.PAUSE_RX, pauseTx := s.dev.bit F.ETH_CFG.PAUSE_TX } } ∧
        SameBut [R.ETH_STATUS, R.ETH_FLAGS] [.eth, .evt] s.dev e) ∧
  (∀ (bytes : List Byte) (a b t : Nat) (s : State), (s.dev.bit F.ETH_STATUS.LINK = false ∨ ethHears s.dev = false) → 
      ∃ e, exec (.ethFrameReceive bytes a b t) s = .next { s with dev := e } ∧
        e = s.dev) ∧
  (∀ (bytes : List Byte) (t : Nat) (s : State), (s.dev.bit F.ETH_STATUS.LINK = true ∧ ethHears s.dev = true ∧ (bytes.length < 64 ∨ 9216 < bytes.length)) → 
      ∃ e, exec (.ethFrameReceive bytes 0 0 t) s = .next { s with dev := e } ∧
        e.get F.ETH_RX_LEN_ERR.COUNT = min (s.dev.get F.ETH_RX_LEN_ERR.COUNT + 1) 0xFFFFFFFF ∧
        SameBut [R.ETH_RX_LEN_ERR] [] s.dev e) ∧
  (∀ (bytes : List Byte) (t : Nat) (s : State), (s.dev.bit F.ETH_STATUS.LINK = true ∧ ethHears s.dev = true ∧ 64 ≤ bytes.length ∧ bytes.length ≤ 9216 ∧ leNat (bytes.drop (bytes.length - 4)) ≠ fcs (bytes.take (bytes.length - 4))) → 
      ∃ e, exec (.ethFrameReceive bytes 0 0 t) s = .next { s with dev := e } ∧
        e.get F.ETH_RX_FCS_ERR.COUNT = min (s.dev.get F.ETH_RX_FCS_ERR.COUNT + 1) 0xFFFFFFFF ∧
        SameBut [R.ETH_RX_FCS_ERR] [] s.dev e) ∧
  (∀ (fr : List Byte) (t : Nat) (s : State), (s.dev.bit F.ETH_STATUS.LINK = true ∧ ethHears s.dev = true ∧ 60 ≤ fr.length ∧ fr.length ≤ 9212 ∧ (frameOf fr).type ≠ 0x8808 ∧ (vlanPasses s.dev (frameOf fr) = false ∨ steer s.dev (frameOf fr) (packetOf (frameOf fr)) = none)) → 
      ∃ e, exec (.ethFrameReceive (fr ++ leBytes 4 (fcs fr)) 0 0 t) s = .next { s with dev := e } ∧
        e.get F.ETH_RX_FILTERED.COUNT = min (s.dev.get F.ETH_RX_FILTERED.COUNT + 1) 0xFFFFFFFF ∧
        SameBut [R.ETH_RX_FILTERED] [] s.dev e) ∧
  (∀ (fr : List Byte) (t : Nat) (q : Nat) (a : Nat) (s : State), (s.dev.bit F.ETH_STATUS.LINK = true ∧ ethHears s.dev = true ∧ 60 ≤ fr.length ∧ fr.length ≤ 9212 ∧ (frameOf fr).type ≠ 0x8808 ∧ vlanPasses s.dev (frameOf fr) = true ∧ steer s.dev (frameOf fr) (packetOf (frameOf fr)) = some q ∧ q ≠ 1) → (checksumOk (packetOf (frameOf fr)) = true ∧ s.dev.bit (F.ETH_RXQq_SIZE.EN q) = true ∧ (s.dev.get (F.ETH_RXQq_HEAD.HEAD q) + 1) % rxSlots s.dev q ≠ s.dev.get (F.ETH_RXQq_TAIL.TAIL q) ∧ s.dev.bit F.ETH_CFG.PAUSE_TX = false) → (a = slotAddr s.dev (R.ETH_RXQq_BASE_LO q) (R.ETH_RXQq_BASE_HI q) (s.dev.get (F.ETH_RXQq_HEAD.HEAD q)) ∧ dramBase ≤ a ∧ a + 10240 ≤ dramBase + dramUsable s.dev ∧ dramServes s.dev = true ∧ s.dev.get (F.ETH_RXQq_SIZE.SLOTS_LOG2 q) ≤ 12) → 
      ∃ e, exec (.ethFrameReceive (fr ++ leBytes 4 (fcs fr)) 0 0 t) s = .next { s with dev := e } ∧
        e.bytes (a + 16) fr.length = fr ∧ e.num a 2 = fr.length ∧ e.num (a + 2) 2 = (if (frameOf fr).tag.isSome then 3 else 2) ∧
        e.get (F.ETH_RXQq_HEAD.HEAD q) = (s.dev.get (F.ETH_RXQq_HEAD.HEAD q) + 1) % rxSlots s.dev q ∧ e.get F.ETH_RX_FRAMES.COUNT = min (s.dev.get F.ETH_RX_FRAMES.COUNT + 1) 0xFFFFFFFF ∧
        (e.eth.sessions = s.dev.eth.sessions ∧ (q = 2 → netServes s.dev = false → e.eth = s.dev.eth)) ∧
        SameButMem [R.ETH_RXQq_HEAD q, R.ETH_RX_FRAMES] [.resv, .eth, .fresh] ([(a, 16 + fr.length)]) s.dev e) ∧
  (∀ (fr : List Byte) (t : Nat) (q : Nat) (s : State), (s.dev.bit F.ETH_STATUS.LINK = true ∧ ethHears s.dev = true ∧ 60 ≤ fr.length ∧ fr.length ≤ 9212 ∧ (frameOf fr).type ≠ 0x8808 ∧ vlanPasses s.dev (frameOf fr) = true ∧ steer s.dev (frameOf fr) (packetOf (frameOf fr)) = some q ∧ q ≠ 1) → (checksumOk (packetOf (frameOf fr)) = true ∧ (s.dev.get (F.ETH_RXQq_HEAD.HEAD q) + 1) % rxSlots s.dev q = s.dev.get (F.ETH_RXQq_TAIL.TAIL q)) → 
      ∃ e, exec (.ethFrameReceive (fr ++ leBytes 4 (fcs fr)) 0 0 t) s = .next { s with dev := e } ∧
        e.get (F.ETH_RXQq_DROP.V q) = min (s.dev.get (F.ETH_RXQq_DROP.V q) + 1) 0xFFFFFFFF ∧ e.get F.ETH_FLAGS.RXQ_FULL = 1 ∧
        SameBut [R.ETH_RXQq_DROP q, R.ETH_FLAGS] [.evt] s.dev e) ∧
  (∀ (quanta : Nat) (s : State), s.dev.bit F.ETH_STATUS.LINK = true → 
      ∃ e, exec (.pauseReceive quanta) s = .next { s with dev := e } ∧
        e.get F.ETH_PAUSE_RX.COUNT = min (s.dev.get F.ETH_PAUSE_RX.COUNT + 1) 0xFFFFFFFF ∧
        e.bit F.ETH_STATUS.PAUSED = (if s.dev.bit F.ETH_CFG.PAUSE_RX then decide (quanta % 65536 ≠ 0) else s.dev.bit F.ETH_STATUS.PAUSED) ∧
        SameBut [R.ETH_PAUSE_RX, R.ETH_STATUS] [] s.dev e) ∧
  (∀ (s : State),
      ∃ e, exec (.pauseExpire) s = .next { s with dev := e } ∧
        e.get F.ETH_STATUS.PAUSED = 0 ∧ e.get F.ETH_STATUS.LINK = s.dev.get F.ETH_STATUS.LINK ∧
        SameBut [R.ETH_STATUS] [] s.dev e) ∧
  (∀ (t q : Nat) (rest : List Nat) (s : State), (s.dev.bit F.ETH_STATUS.LINK = true ∧ ethSends s.dev = true ∧ pump 64 s.dev = s.dev ∧ s.dev.eth.pauseOut = q :: rest) → 
      ∃ e, exec (.ethFrameTransmit t) s = .next { s with dev := e } ∧
        e.eth = { s.dev.eth with pauseOut := rest, sent := .pause q } ∧ e.get F.ETH_PAUSE_TX.COUNT = min (s.dev.get F.ETH_PAUSE_TX.COUNT + 1) 0xFFFFFFFF ∧
        SameBut [R.ETH_PAUSE_TX] [.eth] s.dev e) ∧
  (∀ (t : Nat) (s : State), (s.dev.bit F.ETH_STATUS.LINK = true ∧ ethSends s.dev = true ∧ pump 64 s.dev = s.dev ∧ s.dev.eth.pauseOut = [] ∧ s.dev.bit F.ETH_STATUS.PAUSED = true) → 
      ∃ e, exec (.ethFrameTransmit t) s = .next { s with dev := e } ∧
        e = s.dev) ∧
  (∀ (t : Nat) (s : State), (s.dev.bit F.ETH_STATUS.LINK = false ∧ s.dev.eth.firm = [] ∧ txReady s.dev = true) → 
      ∃ e, exec (.ethFrameTransmit t) s = .next { s with dev := e } ∧
        e.get F.ETH_TXQ_HEAD.HEAD = (s.dev.get F.ETH_TXQ_HEAD.HEAD + 1) % 2 ^ s.dev.get F.ETH_TXQ_SIZE.SLOTS_LOG2 % 4096 ∧
        SameBut [R.ETH_TXQ_HEAD] [] s.dev e) ∧
  (∀ (t : Nat) (s : State), (s.dev.bit F.ETH_STATUS.LINK = false ∧ recovering s.dev = true ∧ txReady s.dev = false) → 
      ∃ e, exec (.ethFrameTransmit t) s = .next { s with dev := e } ∧
        e.eth = { s.dev.eth with firm := s.dev.eth.firm.drop 1 } ∧
        SameBut [] [.eth] s.dev e) ∧
  (∀ (t : Nat) (s : State), (s.dev.bit F.ETH_STATUS.LINK = true ∧ ethSends s.dev = false ∧ pump 64 s.dev = s.dev ∧ (∀ l ∈ ethTxLanes, prbsOn s.dev l = false)) → 
      ∃ e, exec (.ethFrameTransmit t) s = .next { s with dev := e } ∧
        e = s.dev) ∧
  (∀ (t a k : Nat) (b : List Byte) (s : State), (s.dev.eth.firm = [] ∧ ethSends s.dev = true ∧ s.dev.bit F.ETH_STATUS.LINK = true ∧ s.dev.eth.pauseOut = [] ∧ s.dev.bit F.ETH_STATUS.PAUSED = false ∧ txReady s.dev = true) → (a = slotAddr s.dev R.ETH_TXQ_BASE_LO R.ETH_TXQ_BASE_HI (s.dev.get F.ETH_TXQ_HEAD.HEAD) ∧ (packetOf (frameOf (if bitAt k 3 then fillChecks b else b))) = none ∧ k = s.dev.num (a + 2) 2 ∧ bitAt k 2 = false ∧ unread s.dev a slotBytes = false) → b = macFrame s.dev (bitAt k 0) (s.dev.bytes (a + 16) (min (s.dev.num a 2) 10224)) → 
      ∃ e, exec (.ethFrameTransmit t) s = .next { s with dev := e } ∧
        e.eth = { s.dev.eth with sent := .ring (if bitAt k 3 then fillChecks b else b) (bitAt k 3) } ∧
        e.get F.ETH_TXQ_HEAD.HEAD = (s.dev.get F.ETH_TXQ_HEAD.HEAD + 1) % 2 ^ s.dev.get F.ETH_TXQ_SIZE.SLOTS_LOG2 % 4096 ∧ e.get F.ETH_TX_FRAMES.COUNT = min (s.dev.get F.ETH_TX_FRAMES.COUNT + 1) 0xFFFFFFFF ∧
        SameBut [R.ETH_TXQ_HEAD, R.ETH_TX_FRAMES] [.eth] s.dev e) ∧
  (∀ (t : Nat) (b : List Byte) (rest : List FirmFrame) (s : State), (ethSends s.dev = true ∧ recovering s.dev = true ∧ s.dev.bit F.ETH_STATUS.LINK = true ∧ s.dev.eth.pauseOut = [] ∧ s.dev.bit F.ETH_STATUS.PAUSED = false ∧ txReady s.dev = false ∧ s.dev.eth.firm = .bytes b :: rest) → 
      ∃ e, exec (.ethFrameTransmit t) s = .next { s with dev := e } ∧
        e.eth = { s.dev.eth with firm := rest, sent := .firm (macFrame s.dev false b) } ∧ e.get F.ETH_TX_FRAMES.COUNT = min (s.dev.get F.ETH_TX_FRAMES.COUNT + 1) 0xFFFFFFFF ∧
        SameBut [R.ETH_TX_FRAMES] [.eth] s.dev e) ∧
  (∀ (t : Nat) (y : KcpReply) (client : KcpAddr) (port : Nat) (rest : List FirmFrame) (s : State), (ethSends s.dev = true ∧ recovering s.dev = true ∧ s.dev.bit F.ETH_STATUS.LINK = true ∧ s.dev.eth.pauseOut = [] ∧ s.dev.bit F.ETH_STATUS.PAUSED = false ∧ txReady s.dev = false ∧ s.dev.eth.firm = .kcp y client port :: rest) → 
      ∃ e, exec (.ethFrameTransmit t) s = .next { s with dev := e } ∧
        (udpPacket client.v6 (replyBytes y).length ≤ s.dev.get F.ETH_MTU.MTU → e.eth = { s.dev.eth with firm := rest, sent := e.eth.sent } ∧ e.get F.ETH_TX_FRAMES.COUNT = min (s.dev.get F.ETH_TX_FRAMES.COUNT + 1) 0xFFFFFFFF) ∧
        (s.dev.get F.ETH_MTU.MTU < udpPacket client.v6 (replyBytes y).length → e.eth = { s.dev.eth with firm := rest } ∧ e.rd R.ETH_TX_FRAMES = s.dev.rd R.ETH_TX_FRAMES) ∧
        SameBut [R.ETH_TX_FRAMES] [.eth, .fresh] s.dev e) ∧
  (∀ (t : Nat) (g : Datagram) (rest : List Datagram) (s : State), (ethSends s.dev = true ∧ s.dev.bit F.ETH_STATUS.LINK = true ∧ s.dev.eth.pauseOut = [] ∧ s.dev.bit F.ETH_STATUS.PAUSED = false ∧ txReady s.dev = false) → (s.dev.eth.firm = [] ∧ s.dev.bit F.KCP_OBJ_CTRL.EN = false ∧ s.dev.eth.objOut = g :: rest ∧ udpPacket (templateV6 g.head) (16 + g.body.length) ≤ s.dev.get F.ETH_MTU.MTU) → 
      ∃ e, exec (.ethFrameTransmit t) s = .next { s with dev := e } ∧
        e.eth = { s.dev.eth with objOut := rest, sent := .stream g (macFrame s.dev false (streamFrame g.head (kcpHeader g.type g.session g.seq g.body.length ++ g.body))) } ∧
        e.get F.KCP_OBJ_DGRAMS.V = min (s.dev.get F.KCP_OBJ_DGRAMS.V + 1) 0xFFFFFFFF ∧ e.get F.ETH_TX_FRAMES.COUNT = min (s.dev.get F.ETH_TX_FRAMES.COUNT + 1) 0xFFFFFFFF ∧
        SameBut [R.KCP_OBJ_DGRAMS, R.KCP_OBJ_RECS, R.ETH_TX_FRAMES] [.eth] s.dev e) ∧
  (∀ (t : Nat) (g : Datagram) (rest : List Datagram) (s : State), (ethSends s.dev = true ∧ s.dev.bit F.ETH_STATUS.LINK = true ∧ s.dev.eth.pauseOut = [] ∧ s.dev.bit F.ETH_STATUS.PAUSED = false ∧ txReady s.dev = false) → (s.dev.eth.firm = [] ∧ s.dev.bit F.KCP_OBJ_CTRL.EN = false ∧ s.dev.eth.objOut = [] ∧ s.dev.eth.capOut = g :: rest ∧ udpPacket (templateV6 g.head) (16 + g.body.length) ≤ s.dev.get F.ETH_MTU.MTU) → 
      ∃ e, exec (.ethFrameTransmit t) s = .next { s with dev := e } ∧
        e.eth = { s.dev.eth with capOut := rest, sent := .stream g (macFrame s.dev false (streamFrame g.head (kcpHeader g.type g.session g.seq g.body.length ++ g.body))) } ∧ e.get F.KCP_CAP_DGRAMS.V = min (s.dev.get F.KCP_CAP_DGRAMS.V + 1) 0xFFFFFFFF ∧ e.get F.ETH_TX_FRAMES.COUNT = min (s.dev.get F.ETH_TX_FRAMES.COUNT + 1) 0xFFFFFFFF ∧
        SameBut [R.KCP_CAP_DGRAMS, R.ETH_TX_FRAMES] [.eth] s.dev e) ∧
  (∀ (n : Nat) (s : State), (objRuns s.dev = true ∧ s.dev.jud.stream ≠ [] ∧ 1 ≤ s.dev.get F.KCP_OBJ_CTRL.RECS ∧ s.dev.get F.KCP_OBJ_CTRL.RECS ≤ 128 ∧ n = min (max 1 (recsCap s.dev).1) s.dev.jud.stream.length) → 
      ∃ e, exec (.objectStreamFlush) s = .next { s with dev := e } ∧
        e.jud.stream = s.dev.jud.stream.drop n ∧ e.jud.dropped = 0 ∧ e.eth.objOut.length = s.dev.eth.objOut.length + 1 ∧
        (e.eth.objOut.getLast?.map Datagram.body) = some (leBytes 2 n ++ leBytes 2 (min s.dev.jud.dropped 65535) ++ List.replicate 4 0 ++ (s.dev.jud.stream.take n).flatten) ∧
        (e.eth.objOut.getLast?.map Datagram.seq) = some (s.dev.get F.KCP_OBJ_SEQ.V) ∧ e.get F.KCP_OBJ_SEQ.V = (s.dev.get F.KCP_OBJ_SEQ.V + 1) % 2 ^ 32 ∧
        SameBut [R.KCP_OBJ_SEQ] [.eth, .jud] s.dev e) ∧
  (∀ (s : State), (objRuns s.dev = false ∨ s.dev.jud.stream = []) → 
      ∃ e, exec (.objectStreamFlush) s = .next { s with dev := e } ∧
        e = s.dev) ∧
  (∀ (f : CapFetch) (n : Nat) (s : State), (s.dev.eth.fetch = some f ∧ s.dev.bit F.KCP_CAP_CTRL.EN = true ∧ s.dev.bit F.ETH_STATUS.LINK = true ∧ s.dev.dram.badReads = [] ∧ n = min (fetchFit s.dev f) (f.stop - f.next)) → 
      ∃ e, exec (.captureFetchDatagram) s = .next { s with dev := e } ∧
        e.eth.capOut.length = s.dev.eth.capOut.length + 1 ∧ e.eth.fetch = (if f.stop ≤ f.next + n then none else some { f with next := f.next + n }) ∧
        (e.eth.capOut.getLast?.map (fun g => g.body.drop 16)) = some (ringRead s.dev (fetchRing s.dev f.next).1 (fetchRing s.dev f.next).2.1 (f.next % 2 ^ 63) n) ∧
        (f.stop ≤ f.next + n → e.get F.KCP_CAP_CTRL.BUSY = 0) ∧
        SameBut [R.KCP_CAP_CTRL] [.eth] s.dev e) ∧
  (∀ (s : State), (s.dev.eth.fetch = none ∨ s.dev.bit F.KCP_CAP_CTRL.EN = false ∨ s.dev.bit F.ETH_STATUS.LINK = false) → 
      ∃ e, exec (.captureFetchDatagram) s = .next { s with dev := e } ∧
        e = s.dev)

/-- A malformed datagram is discarded and counted; one for no session is answered BAD_SESSION; a repeat of the last SEQ gets the stored reply;
a role below the request's is DENIED. OPEN without a role table makes an observer session with a new id and free nonce; without a matching
role it is DENIED. CLOSE and the idle limit end the session. READ returns words, or BUS_ERROR with the index of the word that failed, and
of the loaded keys nothing; WRITE writes them; STAGE stages a masked value for the session and STAGE cancel drops it; COMMIT enters
CHECKING and is PENDING, or is REFUSED with BUSY when the sluice is not OPEN. STATUS returns the status block; with a free slot of the
transmit ring and the client's MAC address known its frame takes slot TAIL. An unlisted code is answered UNKNOWN_TYPE, LOG with entries
that fit. It rests also on the model's choices of log entries 130, 131, 132, 133, 134, 136, 139, 140, 245. Each clause concludes that exec
i s = .next t; so shown to complete: kcpStatus, kcpWrite, kcpRead, stageAdd, stageCancel, kcpCommit, kcpClose, kcpSessionIdle, kcpOpen,
unknownType, kcpLog. -/
def Obligations.KcpSessionsAndAccess : Prop :=
  (∀ (q : KcpMsg) (s : State), (s.dev.boot.phase = .done ∧ kcpServes s.dev q = true ∧ malformed q = true) → 
      ∃ e, exec (.kcpStatus q) s = .next { s with dev := e } ∧
        e.eth = { s.dev.eth with discarded := s.dev.eth.discarded + 1 } ∧
        SameBut [] [.eth] s.dev e) ∧
  (∀ (q : KcpMsg) (s : State), (kcpReaches s.dev q = true ∧ s.dev.session q.session = none) → 
      ∃ e, exec (.kcpStatus q) s = .next { s with dev := e } ∧
        kcpSent s.dev e q (kcpReply none 7 q.session q.seq kcBadSession []) ∧ e.eth.sessions = s.dev.eth.sessions ∧
        SameButMem [R.ETH_TXQ_TAIL] [.eth, .resv] (txSpan s.dev) s.dev e) ∧
  (∀ (q : KcpMsg) (x : Session) (r : KcpReply) (s : State), (kcpReaches s.dev q = true ∧ s.dev.session q.session = some x ∧ x.key = none ∧ x.pending = false ∧ q.seq = x.last ∧ x.last < 2 ^ 32 ∧ x.replies.find? (fun y => y.seq == q.seq) = some r) → 
      ∃ e, exec (.kcpWrite q) s = .next { s with dev := e } ∧
        kcpSent s.dev e q r ∧ e.eth = { s.dev.eth with reply := some r, firm := e.eth.firm, asked := e.eth.asked } ∧
        SameButMem [R.ETH_TXQ_TAIL] [.eth, .resv] (txSpan s.dev) s.dev e) ∧
  (∀ (q : KcpMsg) (x : Session) (s : State), (kcpAccepts s.dev q x 1 = true ∧ x.role < 3) → 
      ∃ e, exec (.kcpWrite q) s = .next { s with dev := e } ∧
        kcpReplied s.dev e q 4 kcDenied [] ∧
        SameButMem [R.ETH_TXQ_TAIL] [.eth, .resv] (txSpan s.dev) s.dev e) ∧
  (∀ (q : KcpMsg) (x : Session) (s : State), (kcpAccepts s.dev q x 1 = true ∧ q.len = 12 ∧ kcpBody q = leBytes 8 R.CHIP_ID ++ leBytes 4 1 ∧ 12 ≤ x.maxBody ∧ touches s.dev.eth.keysAt R.CHIP_ID 4 = false ∧ accessCause s.dev R.CHIP_ID 4 false = none) → 
      ∃ e, exec (.kcpRead q) s = .next { s with dev := e } ∧
        kcpReplied s.dev e q 3 kcOk (leBytes 4 (s.dev.rd R.CHIP_ID).toNat) ∧ e.cores.busError = false ∧
        SameButMem [R.ETH_TXQ_TAIL] [.eth, .cores, .resv] (txSpan s.dev) s.dev e) ∧
  (∀ (q : KcpMsg) (x : Session) (s : State), (kcpAccepts s.dev q x 1 = true ∧ q.len = 12 ∧ kcpBody q = leBytes 8 0x70000000 ++ leBytes 4 1 ∧ 12 ≤ x.maxBody ∧ touches s.dev.eth.keysAt 0x70000000 4 = false) → 
      ∃ e, exec (.kcpRead q) s = .next { s with dev := e } ∧
        kcpReplied s.dev e q 3 kcBusError (leBytes 2 0) ∧ e.cores.busError = true ∧
        SameButMem ((busErrorRegs) ++ [R.ETH_TXQ_TAIL]) [.eth, .cores, .resv] (txSpan s.dev) s.dev e) ∧
  (∀ (q : KcpMsg) (x : Session) (s : State), (kcpAccepts s.dev q x 1 = true ∧ touches s.dev.eth.keysAt (leAt (kcpBody q) 0 8) (4 * leAt (kcpBody q) 8 2) = true) → 
      ∃ e, exec (.kcpRead q) s = .next { s with dev := e } ∧
        (e.eth.reply.map KcpReply.body) = some [] ∧ e.cores.reply = s.dev.cores.reply ∧ (e.session q.session).map Session.last = some (q.seq % 2 ^ 32) ∧
        SameButMem [R.ETH_TXQ_TAIL] [.eth, .resv] (txSpan s.dev) s.dev e) ∧
  (∀ (q : KcpMsg) (x : Session) (v : Word) (s : State), (kcpAccepts s.dev q x 3 = true ∧ q.len = 16 ∧ kcpBody q = leBytes 8 R.RSV_PLAN_CYCLE ++ leBytes 4 1 ++ leBytes 4 v.toNat ∧ 12 ≤ x.maxBody ∧ accessCause s.dev R.RSV_PLAN_CYCLE 4 false = none) → 
      ∃ e, exec (.kcpWrite q) s = .next { s with dev := e } ∧
        kcpReplied s.dev e q 4 kcOk [] ∧ e.rd R.RSV_PLAN_CYCLE = v ∧
        SameButMem [R.RSV_PLAN_CYCLE, R.ETH_TXQ_TAIL] [.eth, .cores, .resv] (txSpan s.dev) s.dev e) ∧
  (∀ (q : KcpMsg) (x : Session) (v m : Word) (s : State), (kcpAccepts s.dev q x 2 = true ∧ q.len = 16 ∧ kcpBody q = leBytes 4 0 ++ leBytes 4 R.PAIR_TIMING ++ leBytes 4 v.toNat ++ leBytes 4 m.toNat ∧ notActive s.dev = false ∧ stagingRefused s.dev (.session x.id) = false ∧ accessCause s.dev R.PAIR_TIMING 4 false = none) → 
      ∃ e, exec (.stageAdd q) s = .next { s with dev := e } ∧
        kcpReplied s.dev e q 5 kcOk [] ∧ e.slu.owner = .session x.id ∧ e.rd R.PAIR_TIMING = s.dev.rd R.PAIR_TIMING ∧
        stagedReg e R.PAIR_TIMING = (stagedReg s.dev R.PAIR_TIMING &&& ~~~ m) ||| (v &&& m) ∧
        SameButMem [R.SLU_STATE, R.ETH_TXQ_TAIL] [.eth, .cores, .slu, .resv] (txSpan s.dev) s.dev e) ∧
  (∀ (q : KcpMsg) (x : Session) (s : State), (kcpAccepts s.dev q x 2 = true ∧ q.len = 4 ∧ kcpBody q = [1, 0, 0, 0] ∧ notActive s.dev = false ∧ s.dev.slu.owner = .session x.id ∧ s.dev.sluState = sluOpen) → 
      ∃ e, exec (.stageCancel q) s = .next { s with dev := e } ∧
        kcpReplied s.dev e q 5 kcOk [] ∧ e.slu.owner = .none ∧ e.slu.staged = [] ∧ e.slu.stagedTabs = [] ∧
        SameButMem [R.SLU_STATE, R.ETH_TXQ_TAIL] [.eth, .slu, .resv] (txSpan s.dev) s.dev e) ∧
  (∀ (q : KcpMsg) (x : Session) (s : State), (kcpAccepts s.dev q x 2 = true ∧ q.len = 8 ∧ notActive s.dev = false ∧ s.dev.sluState = sluOpen ∧ s.dev.safe = false ∧ inReach s.dev (leAt (kcpBody q) 0 4) = true ∧ s.dev.lining = false ∧ accessCause s.dev R.SLU_APPLY_LINE 4 false = none) → 
      ∃ e, exec (.kcpCommit q) s = .next { s with dev := e } ∧
        kcpReplied s.dev e q 6 kcPending [] ∧ e.sluState = sluChecking ∧ e.slu.committer = .session x.id ∧ e.get F.SLU_ARMED_LINE.V = leAt (kcpBody q) 0 4 ∧ e.slu.checkOnly = bitAt (leAt (kcpBody q) 4 4) 0 ∧
        (e.session q.session).map Session.pending = some true ∧
        SameButMem [R.SLU_STATE, R.SLU_APPLY_LINE, R.SLU_ARMED_LINE, R.SLU_COMMITS, R.ETH_TXQ_TAIL] [.eth, .cores, .slu, .resv] (txSpan s.dev) s.dev e) ∧
  (∀ (q : KcpMsg) (x : Session) (s : State), (kcpAccepts s.dev q x 2 = true ∧ q.len = 8 ∧ notActive s.dev = false ∧ (s.dev.sluState ≠ sluOpen ∨ s.dev.safe = true) ∧ accessCause s.dev R.SLU_APPLY_LINE 4 false = none) → 
      ∃ e, exec (.kcpCommit q) s = .next { s with dev := e } ∧
        kcpReplied s.dev e q 6 kcRefused (leBytes 4 2) ∧ e.sluState = s.dev.sluState ∧
        SameButMem [R.SLU_APPLY_LINE, R.ETH_TXQ_TAIL] [.eth, .cores, .resv] (txSpan s.dev) s.dev e) ∧
  (∀ (q : KcpMsg) (x : Session) (s : State), (kcpAccepts s.dev q x 1 = true ∧ q.len = 0) → 
      ∃ e, exec (.kcpStatus q) s = .next { s with dev := e } ∧
        kcpReplied s.dev e q 7 kcOk (statusBlock s.dev) ∧
        SameButMem [R.ETH_TXQ_TAIL] [.eth, .resv] (txSpan s.dev) s.dev e) ∧
  (∀ (q : KcpMsg) (x : Session) (m : Nat) (b : List Byte) (a : Nat) (s : State), (kcpAccepts s.dev q x 1 = true ∧ q.len = 0 ∧ txRoom s.dev = true ∧ s.dev.eth.firm = [] ∧ macKnown s.dev q.client = some m ∧ a = slotAddr s.dev R.ETH_TXQ_BASE_LO R.ETH_TXQ_BASE_HI (s.dev.get F.ETH_TXQ_TAIL.TAIL)) → (dramServes s.dev = true ∧ dramBase ≤ a ∧ a + slotBytes ≤ dramBase + dramUsable s.dev ∧ firmBytes s.dev m (.kcp (kcpReply none 7 q.session q.seq kcOk (statusBlock s.dev)) q.client q.port) = some b ∧ b.length + 16 ≤ slotBytes) → 
      ∃ e, exec (.kcpStatus q) s = .next { s with dev := e } ∧
        e.bytes (a + 16) b.length = b ∧ e.num a 2 = b.length ∧ e.num (a + 2) 2 = 0 ∧ e.eth.firm = [] ∧
        e.get F.ETH_TXQ_TAIL.TAIL = (s.dev.get F.ETH_TXQ_TAIL.TAIL + 1) % 2 ^ s.dev.get F.ETH_TXQ_SIZE.SLOTS_LOG2 ∧
        SameButMem [R.ETH_TXQ_TAIL] [.eth, .resv] (txSpan s.dev) s.dev e) ∧
  (∀ (q : KcpMsg) (x : Session) (s : State), (kcpAccepts s.dev q x 1 = true ∧ q.len = 0) → 
      ∃ e, exec (.kcpClose q) s = .next { s with dev := e } ∧
        e.session q.session = none ∧ kcpSent s.dev e q (kcpReply none 2 q.session q.seq kcOk []) ∧
        e.eth.objStream.all (fun y => y.session != q.session) = true ∧ e.eth.fetch.all (fun y => y.session != q.session) = true ∧ e.slu.owner ≠ .session q.session ∧
        SameButMem [R.KCP_OBJ_CTRL, R.KCP_CAP_CTRL, R.SLU_STATE, R.ETH_TXQ_TAIL] [.eth, .slu, .resv] (txSpan s.dev) s.dev e) ∧
  (∀ (id : Nat) (x : Session) (s : State), s.dev.session id = some x → 
      ∃ e, exec (.kcpSessionIdle id) s = .next { s with dev := e } ∧
        e.session id = none ∧ e.eth.reply = s.dev.eth.reply ∧ e.slu.owner ≠ .session id ∧
        SameBut [R.KCP_OBJ_CTRL, R.KCP_CAP_CTRL, R.SLU_STATE] [.eth, .slu] s.dev e) ∧
  (∀ (q : KcpMsg) (s : State), (kcpReaches s.dev q = true ∧ q.len = 20 ∧ q.session = 0 ∧ s.dev.eth.roles = none ∧ s.dev.eth.sessions.length < 16 ∧ 1 ≤ leAt (kcpBody q) 0 1 ∧ leAt (kcpBody q) 0 1 ≤ 3) → 
      ∃ e, exec (.kcpOpen q) s = .next { s with dev := e } ∧
        e.eth.sessions.length = s.dev.eth.sessions.length + 1 ∧ (e.eth.sessions.getLast?.map Session.role) = some 1 ∧ (e.eth.sessions.getLast?.map Session.last) = some (q.seq % 2 ^ 32) ∧
        (e.eth.sessions.getLast?.map (fun y => y.id != 0 && !(s.dev.eth.sessions.map Session.id).contains y.id)) = some true ∧ (e.eth.reply.map KcpReply.status) = some kcOk ∧
        SameButMem [R.ETH_TXQ_TAIL] [.eth, .fresh, .resv] (txSpan s.dev) s.dev e) ∧
  (∀ (q : KcpMsg) (s : State), (kcpReaches s.dev q = true ∧ q.len = 20 ∧ q.session = 0 ∧ s.dev.eth.roles = some [] ∧ 1 ≤ leAt (kcpBody q) 0 1 ∧ leAt (kcpBody q) 0 1 ≤ 3) → 
      ∃ e, exec (.kcpOpen q) s = .next { s with dev := e } ∧
        kcpSent s.dev e q (kcpReply none 1 0 q.seq kcDenied []) ∧ e.eth.sessions = s.dev.eth.sessions ∧
        SameButMem [R.ETH_TXQ_TAIL] [.eth, .resv] (txSpan s.dev) s.dev e) ∧
  (∀ (q : KcpMsg) (x : Session) (k : Fin 64) (s : State), (kcpAccepts s.dev q x 1 = true ∧ codeListed k = false) → 
      ∃ e, exec (.unknownType k q) s = .next { s with dev := e } ∧
        kcpReplied s.dev e q k kcUnknownType [] ∧
        SameButMem [R.ETH_TXQ_TAIL] [.eth, .resv] (txSpan s.dev) s.dev e) ∧
  (∀ (q : KcpMsg) (x : Session) (s : State), (kcpAccepts s.dev q x 1 = true ∧ q.len = 8 ∧ 8 ≤ x.maxBody) → 
      ∃ e, exec (.kcpLog q) s = .next { s with dev := e } ∧
        (e.eth.reply.map KcpReply.status) = some kcOk ∧ (e.eth.reply.map (fun r => decide (4 ≤ r.body.length ∧ r.body.length + 4 ≤ x.maxBody))) = some true ∧ (e.session q.session).map Session.last = some (q.seq % 2 ^ 32) ∧
        SameButMem [R.ETH_TXQ_TAIL] [.eth, .fresh, .resv] (txSpan s.dev) s.dev e)

/-- OBJECT_STREAM start gives the stream to the session with its next SEQ, or is BUSY; stop ends it. CAPTURE_FETCH of a range that the ring
holds starts a fetch and sets BUSY; beyond WPOS it is BAD_ARG. MAILBOX post fills a channel bound to the host proxy and read empties it;
other channels are DENIED. EVENT_FIRE puts an event in flight. Erase and program queue and are PENDING; NV_READ returns bytes, of the
section of the keys none, and CRC their CRC-32C. The oldest operation completes: an erase makes its 64 KiB block 0xFF, a program of erased
bytes stores the data, all other bytes keep their value, and the final reply is kept for the repeat. It rests also on the model's choices
of log entries 129, 137, 138, 245. Each clause concludes that exec i s = .next t; so shown to complete: objectStreamStart,
objectStreamStop, captureFetch, mailboxPost, mailboxRead, eventFire, nvErase, nvProgram, nvRead, nvCrc, nvOpDone. -/
def Obligations.KcpStreamsAndFlash : Prop :=
  (∀ (q : KcpMsg) (x : Session) (p : Nat) (s : State), (kcpAccepts s.dev q x 1 = true ∧ q.len = 4 ∧ kcpBody q = [1, 0] ++ leBytes 2 p ∧ p < 65536 ∧ s.dev.eth.objStream = none) → 
      ∃ e, exec (.objectStreamStart q) s = .next { s with dev := e } ∧
        kcpReplied s.dev e q 8 kcOk (leBytes 4 (s.dev.get F.KCP_OBJ_SEQ.V)) ∧ e.eth.objStream = some { session := x.id, port := p } ∧ e.get F.KCP_OBJ_CTRL.EN = 1 ∧
        SameButMem [R.KCP_OBJ_CTRL, R.ETH_TXQ_TAIL] [.eth, .fresh, .resv] (txSpan s.dev ++ [(templateAddr s.dev F.KCP_OBJ_TMPL.SRAM, 64)]) s.dev e) ∧
  (∀ (q : KcpMsg) (x : Session) (s : State), (kcpAccepts s.dev q x 1 = true ∧ q.len = 4 ∧ leAt (kcpBody q) 0 1 = 1 ∧ s.dev.eth.objStream.isSome = true) → 
      ∃ e, exec (.objectStreamStart q) s = .next { s with dev := e } ∧
        kcpReplied s.dev e q 8 kcBusy [] ∧ e.eth.objStream = s.dev.eth.objStream ∧
        SameButMem [R.ETH_TXQ_TAIL] [.eth, .resv] (txSpan s.dev) s.dev e) ∧
  (∀ (q : KcpMsg) (x : Session) (o : ObjStream) (s : State), (kcpAccepts s.dev q x 1 = true ∧ q.len = 4 ∧ leAt (kcpBody q) 0 1 = 0 ∧ s.dev.eth.objStream = some o ∧ o.session = x.id) → 
      ∃ e, exec (.objectStreamStop q) s = .next { s with dev := e } ∧
        kcpReplied s.dev e q 8 kcOk (leBytes 4 (s.dev.get F.KCP_OBJ_SEQ.V)) ∧ e.eth.objStream = none ∧ e.eth.objOut = [] ∧ e.get F.KCP_OBJ_CTRL.EN = 0 ∧
        SameButMem [R.KCP_OBJ_CTRL, R.ETH_TXQ_TAIL] [.eth, .resv] (txSpan s.dev) s.dev e) ∧
  (∀ (q : KcpMsg) (x : Session) (o n p : Nat) (s : State), (kcpAccepts s.dev q x 1 = true ∧ q.len = 16 ∧ kcpBody q = leBytes 8 o ++ leBytes 4 n ++ leBytes 2 p ++ leBytes 2 0 ∧ o < 2 ^ 64 ∧ 0 < n ∧ n < 2 ^ 32 ∧ p < 65536) → (o % 2 ^ 63 + n ≤ (fetchRing s.dev o).2.2 ∧ s.dev.eth.fetch = none) → 
      ∃ e, exec (.captureFetch q) s = .next { s with dev := e } ∧
        kcpReplied s.dev e q 9 kcOk [] ∧ e.eth.fetch = some { session := x.id, seq := q.seq % 2 ^ 32, port := p, next := o, stop := o + n } ∧ e.get F.KCP_CAP_CTRL.BUSY = 1 ∧ e.eth.capOut = s.dev.eth.capOut.filter (fun g => g.session != x.id) ∧
        SameButMem [R.KCP_CAP_CTRL, R.ETH_TXQ_TAIL] [.eth, .fresh, .resv] (txSpan s.dev ++ [(templateAddr s.dev F.KCP_CAP_TMPL.SRAM, 64)]) s.dev e) ∧
  (∀ (q : KcpMsg) (x : Session) (s : State), (kcpAccepts s.dev q x 1 = true ∧ q.len = 16 ∧ (fetchRing s.dev (leAt (kcpBody q) 0 8)).2.2 < leAt (kcpBody q) 0 8 % 2 ^ 63 + leAt (kcpBody q) 8 4) → 
      ∃ e, exec (.captureFetch q) s = .next { s with dev := e } ∧
        kcpReplied s.dev e q 9 kcBadArg [] ∧ e.eth.fetch = s.dev.eth.fetch ∧
        SameButMem [R.ETH_TXQ_TAIL] [.eth, .resv] (txSpan s.dev) s.dev e) ∧
  (∀ (q : KcpMsg) (x : Session) (k : Fin 32) (v : Word) (s : State), (kcpAccepts s.dev q x 2 = true ∧ q.len = 8 ∧ kcpBody q = [0, BitVec.ofNat 8 k, 0, 0] ++ leBytes 4 v.toNat ∧ mailboxBound s.dev k (F.MBXk_BIND.SENDER k) = true ∧ s.dev.bit (F.MBXk_STATUS.FULL k) = false) → 
      ∃ e, exec (.mailboxPost q) s = .next { s with dev := e } ∧
        kcpReplied s.dev e q 10 kcOk (leBytes 4 v.toNat ++ leBytes 4 (e.rd (R.MBXk_STATUS k)).toNat) ∧ e.rd (R.MBXk_DATA k) = v ∧ e.get (F.MBXk_STATUS.FULL k) = 1 ∧
        SameButMem [R.MBXk_DATA k, R.MBXk_STATUS k, R.ETH_TXQ_TAIL] [.eth, .cores, .evt, .resv] (txSpan s.dev) s.dev e) ∧
  (∀ (q : KcpMsg) (x : Session) (k : Fin 32) (s : State), (kcpAccepts s.dev q x 2 = true ∧ q.len = 8 ∧ leAt (kcpBody q) 0 1 = 0 ∧ leAt (kcpBody q) 1 1 = k ∧ mailboxBound s.dev k (F.MBXk_BIND.SENDER k) = false) → 
      ∃ e, exec (.mailboxPost q) s = .next { s with dev := e } ∧
        kcpReplied s.dev e q 10 kcDenied [] ∧
        SameButMem [R.ETH_TXQ_TAIL] [.eth, .resv] (txSpan s.dev) s.dev e) ∧
  (∀ (q : KcpMsg) (x : Session) (k : Fin 32) (s : State), (kcpAccepts s.dev q x 2 = true ∧ q.len = 8 ∧ leAt (kcpBody q) 0 1 = 1 ∧ leAt (kcpBody q) 1 1 = k ∧ mailboxBound s.dev k (F.MBXk_BIND.RECEIVER k) = true ∧ s.dev.bit (F.MBXk_STATUS.FULL k) = true) → 
      ∃ e, exec (.mailboxRead q) s = .next { s with dev := e } ∧
        kcpReplied s.dev e q 10 kcOk (leBytes 4 (s.dev.rd (R.MBXk_DATA k)).toNat ++ leBytes 4 (e.rd (R.MBXk_STATUS k)).toNat) ∧ e.get (F.MBXk_STATUS.FULL k) = 0 ∧
        SameButMem [R.MBXk_STATUS k, R.ETH_TXQ_TAIL] [.eth, .cores, .resv] (txSpan s.dev) s.dev e) ∧
  (∀ (q : KcpMsg) (x : Session) (s : State), (kcpAccepts s.dev q x 2 = true ∧ q.len = 4 ∧ leAt (kcpBody q) 0 2 ≤ 383) → 
      ∃ e, exec (.eventFire q) s = .next { s with dev := e } ∧
        kcpReplied s.dev e q 11 kcOk [] ∧ e.evt.inflight = s.dev.evt.inflight ++ [{ rill := leAt (kcpBody q) 0 2, stamp := s.dev.nowNs, soft := true }] ∧
        SameButMem [R.ETH_TXQ_TAIL] [.eth, .evt, .resv] (txSpan s.dev) s.dev e) ∧
  (∀ (q : KcpMsg) (x : Session) (s : State), (kcpAccepts s.dev q x 3 = true ∧ nvBad x 0 (kcpBody q) = none) → 
      ∃ e, exec (.nvErase q) s = .next { s with dev := e } ∧
        kcpReplied s.dev e q 12 kcPending [] ∧ e.eth.nv = s.dev.eth.nv ++ [{ session := x.id, seq := q.seq % 2 ^ 32, erase := true, offset := leAt (kcpBody q) 4 4, len := leAt (kcpBody q) 8 4, data := (kcpBody q).drop 12 }] ∧
        SameButMem [R.ETH_TXQ_TAIL] [.eth, .resv] (txSpan s.dev) s.dev e) ∧
  (∀ (q : KcpMsg) (x : Session) (s : State), (kcpAccepts s.dev q x 3 = true ∧ nvBad x 1 (kcpBody q) = none) → 
      ∃ e, exec (.nvProgram q) s = .next { s with dev := e } ∧
        kcpReplied s.dev e q 12 kcPending [] ∧ e.eth.nv = s.dev.eth.nv ++ [{ session := x.id, seq := q.seq % 2 ^ 32, erase := false, offset := leAt (kcpBody q) 4 4, len := leAt (kcpBody q) 8 4, data := (kcpBody q).drop 12 }] ∧
        SameButMem [R.ETH_TXQ_TAIL] [.eth, .resv] (txSpan s.dev) s.dev e) ∧
  (∀ (q : KcpMsg) (x : Session) (s : State), (kcpAccepts s.dev q x 3 = true ∧ nvBad x 2 (kcpBody q) = none ∧ touches s.dev.eth.keysFrom (leAt (kcpBody q) 4 4) (leAt (kcpBody q) 8 4) = false) → 
      ∃ e, exec (.nvRead q) s = .next { s with dev := e } ∧
        kcpReplied s.dev e q 12 kcOk (flashBytes s.dev (leAt (kcpBody q) 4 4) (leAt (kcpBody q) 8 4)) ∧
        SameButMem [R.ETH_TXQ_TAIL] [.eth, .resv] (txSpan s.dev) s.dev e) ∧
  (∀ (q : KcpMsg) (x : Session) (s : State), (kcpAccepts s.dev q x 3 = true ∧ nvBad x 2 (kcpBody q) = none ∧ touches s.dev.eth.keysFrom (leAt (kcpBody q) 4 4) (leAt (kcpBody q) 8 4) = true) → 
      ∃ e, exec (.nvRead q) s = .next { s with dev := e } ∧
        (e.eth.reply.map KcpReply.body) = some [] ∧
        SameButMem [R.ETH_TXQ_TAIL] [.eth, .resv] (txSpan s.dev) s.dev e) ∧
  (∀ (q : KcpMsg) (x : Session) (s : State), (kcpAccepts s.dev q x 3 = true ∧ nvBad x 3 (kcpBody q) = none) → 
      ∃ e, exec (.nvCrc q) s = .next { s with dev := e } ∧
        kcpReplied s.dev e q 12 kcOk (leBytes 4 (crc32c (flashBytes s.dev (leAt (kcpBody q) 4 4) (leAt (kcpBody q) 8 4)))) ∧
        SameButMem [R.ETH_TXQ_TAIL] [.eth, .resv] (txSpan s.dev) s.dev e) ∧
  (∀ (q : KcpMsg) (x : Session) (b : Nat) (s : State), (kcpAccepts s.dev q x 3 = true ∧ nvBad x 1 (kcpBody q) = some b) → 
      ∃ e, exec (.nvProgram q) s = .next { s with dev := e } ∧
        kcpReplied s.dev e q 12 b [] ∧ e.eth.nv = s.dev.eth.nv ∧
        SameButMem [R.ETH_TXQ_TAIL] [.eth, .resv] (txSpan s.dev) s.dev e) ∧
  (∀ (v : NvOp) (rest : List NvOp) (s : State), (s.dev.eth.nv = v :: rest ∧ v.erase = true) → 
      ∃ e, exec (.nvOpDone) s = .next { s with dev := e } ∧
        e.eth.nv = rest ∧ (∀ a : Fin 8, flashBytes e (v.offset / 65536 * 65536 + a) 1 = [0xFF]) ∧
        (∀ x : Session, s.dev.session v.session = some x → x.last = v.seq → x.pending = true → ((e.session v.session).map (fun y => y.replies.head?.map KcpReply.status)) = some (some kcOk)) ∧
        (∀ a, flashBytes e a 1 = (if a / 65536 = v.offset / 65536 then [0xFF] else flashBytes s.dev a 1)) ∧
        SameBut [] [.eth] s.dev { e with flash := s.dev.flash }) ∧
  (∀ (v : NvOp) (rest : List NvOp) (s : State), (s.dev.eth.nv = v :: rest ∧ v.erase = false ∧ flashBytes s.dev v.offset v.data.length = List.replicate v.data.length 0xFF) → 
      ∃ e, exec (.nvOpDone) s = .next { s with dev := e } ∧
        e.eth.nv = rest ∧ flashBytes e v.offset v.data.length = v.data ∧
        (∀ a, a < v.offset ∨ v.offset + v.data.length ≤ a → flashBytes e a 1 = flashBytes s.dev a 1) ∧
        SameBut [] [.eth] s.dev { e with flash := s.dev.flash }) ∧
  (∀ (s : State), s.dev.eth.nv = [] → 
      ∃ e, exec (.nvOpDone) s = .next { s with dev := e } ∧
        e = s.dev)
end

