-- ==== Sys2Proof/Laws/Store.lean ====
section
/-! SUPPORT. Sparse stores: a write keeps the canonical form, a read after a write gives the value written, other keys keep theirs. -/

namespace Sys2Proof.Machine.Sparse

set_option Elab.async false

variable {β : Type} [DecidableEq β]

/-- The lower bound of a canonical store admits the key. -/
def admits (lo : Option Nat) (k : Nat) : Prop := ∀ x, lo = some x → x < k

theorem wfFrom_cons (df : Nat → β) (lo : Option Nat) (k : Nat) (v : β) (t : List (Nat × β)) :
    wfFrom df lo ((k, v) :: t) = true ↔ admits lo k ∧ v ≠ df k ∧ wfFrom df (some k) t = true := by
  cases lo <;> simp [wfFrom, admits, and_assoc]

theorem wfFrom_lower (df : Nat → β) (lo : Option Nat) (k : Nat) (hk : admits lo k) (l : List (Nat × β))
    (h : wfFrom df (some k) l = true) : wfFrom df lo l = true := by
  cases l with
  | nil => rfl
  | cons e t =>
    obtain ⟨j, v⟩ := e
    rw [wfFrom_cons] at h ⊢
    exact ⟨fun x hx => Nat.lt_trans (hk x hx) (h.1 k rfl), h.2⟩

/-- Dropping entries keeps the canonical form. -/
theorem wfFrom_filter (df : Nat → β) (p : Nat × β → Bool) :
    ∀ (l : List (Nat × β)) (lo : Option Nat), wfFrom df lo l = true → wfFrom df lo (l.filter p) = true
  | [], _, h => h
  | (k, v) :: t, lo, h => by
    rw [wfFrom_cons] at h
    have ih := wfFrom_filter df p t (some k) h.2.2
    rw [List.filter_cons]
    split
    · rw [wfFrom_cons]; exact ⟨h.1, h.2.1, ih⟩
    · exact wfFrom_lower df lo k h.1 _ ih

theorem wf_filter (df : Nat → β) (p : Nat × β → Bool) (l : List (Nat × β)) (h : wf df l = true) : wf df (l.filter p) = true :=
  wfFrom_filter df p l none h

theorem wfFrom_place (df : Nat → β) (a : Nat) (v : β) (hv : v ≠ df a) :
    ∀ (l : List (Nat × β)) (lo : Option Nat), admits lo a → wfFrom df lo l = true → wfFrom df lo (place a v l) = true
  | [], lo, ha, _ => by rw [place, wfFrom_cons]; exact ⟨ha, hv, rfl⟩
  | (k, w) :: t, lo, ha, h => by
    rw [wfFrom_cons] at h
    rw [place]
    split
    · rename_i hk
      rw [wfFrom_cons, wfFrom_cons]
      exact ⟨ha, hv, fun x hx => by cases hx; exact hk, h.2⟩
    · split
      · rename_i _ hk; subst hk
        rw [wfFrom_cons]; exact ⟨ha, hv, h.2.2⟩
      · rw [wfFrom_cons]
        exact ⟨h.1, h.2.1, wfFrom_place df a v hv t _ (fun x hx => by cases hx; omega) h.2.2⟩

/-- A write keeps the canonical form. -/
theorem wf_put (df : Nat → β) (a : Nat) (v : β) (l : List (Nat × β)) (h : wf df l = true) : wf df (put df a v l) = true := by
  unfold put
  split
  · exact wfFrom_filter df _ l none h
  · exact wfFrom_place df a v ‹_› l none (fun _ hx => by cases hx) h

omit [DecidableEq β] in
theorem get_drop_self (df : Nat → β) (a : Nat) : ∀ l : List (Nat × β), get df a (drop a l) = df a
  | [] => rfl
  | (k, v) :: t => by
    have ih := get_drop_self df a t
    simp only [drop, ne_eq, decide_not] at ih ⊢
    by_cases hk : k = a <;> simp [hk, get, ih]

omit [DecidableEq β] in
theorem get_drop_ne (df : Nat → β) (a b : Nat) (h : b ≠ a) : ∀ l : List (Nat × β), get df b (drop a l) = get df b l
  | [] => rfl
  | (k, v) :: t => by
    have ih := get_drop_ne df a b h t
    simp only [drop, ne_eq, decide_not] at ih ⊢
    by_cases hk : k = a
    · simp [hk, get, ih, Ne.symm h]
    · by_cases hb : k = b <;> simp [hk, hb, h, get, ih]

omit [DecidableEq β] in
theorem get_place_self (df : Nat → β) (a : Nat) (v : β) : ∀ l : List (Nat × β), get df a (place a v l) = v
  | [] => by simp [place, get]
  | (k, w) :: t => by
    have ih := get_place_self df a v t
    unfold place
    split
    · simp [get]
    · split
      · simp [get]
      · rename_i h1 h2
        simp [get, ih, Ne.symm h2]

omit [DecidableEq β] in
theorem get_place_ne (df : Nat → β) (a b : Nat) (v : β) (h : b ≠ a) : ∀ l : List (Nat × β), get df b (place a v l) = get df b l
  | [] => by simp [place, get, Ne.symm h]
  | (k, w) :: t => by
    have ih := get_place_ne df a b v h t
    unfold place
    split
    · simp [get, Ne.symm h]
    · split
      · rename_i _ hk; subst hk; simp [get, Ne.symm h]
      · simp [get, ih]

/-- A read after a write to the same key gives the value written. -/
@[simp] theorem get_put_self (df : Nat → β) (a : Nat) (v : β) (l : List (Nat × β)) : get df a (put df a v l) = v := by
  unfold put
  split
  · rename_i h; rw [get_drop_self, h]
  · exact get_place_self df a v l

/-- A write leaves every other key alone. -/
theorem get_put_ne (df : Nat → β) (a b : Nat) (v : β) (l : List (Nat × β)) (h : b ≠ a) : get df b (put df a v l) = get df b l := by
  unfold put
  split
  · exact get_drop_ne df a b h l
  · exact get_place_ne df a b v h l

end Sys2Proof.Machine.Sparse
end

