-- ==== Sys2Proof/Laws/CanonicalOps.lean ====
section
/-! SUPPORT. Operations of Ops, FaultOps, TbOps, Harts, Cores, Axes keep every store in its canonical form. -/

namespace Sys2Proof.Machine

set_option Elab.async false
set_option linter.unusedTactic false
set_option linter.unreachableTactic false

/-- A store after a put, with the other three. -/
theorem canonical_Device_wr (a v) {d : Device} (h : d.Canonical) : (d.wr a v).Canonical :=
  ⟨Sparse.wf_put _ _ _ _ h.regs, h.tabs, h.mem, h.flash⟩

theorem canonical_Device_putByte (a b) {d : Device} (h : d.Canonical) : (d.putByte a b).Canonical :=
  ⟨h.regs, h.tabs, Sparse.wf_put _ _ _ _ h.mem, h.flash⟩

theorem canonical_ite {p : Prop} [Decidable p] {a b : Device} (h1 : p → a.Canonical) (h2 : ¬ p → b.Canonical) :
    (if p then a else b).Canonical := by
  split
  · exact h1 ‹_›
  · exact h2 ‹_›

theorem canonical_foldl {α : Type} {g : Device → α → Device} {l : List α} {d : Device} (h : d.Canonical)
    (hg : ∀ d a, d.Canonical → (g d a).Canonical) : (l.foldl g d).Canonical := by
  induction l generalizing d with
  | nil => exact h
  | cons a t ih => exact ih (hg d a h)

theorem canonical_foldl_fst {α β : Type} {g : Device × β → α → Device × β} {l : List α} {d : Device × β} (h : d.1.Canonical)
    (hg : ∀ d a, d.1.Canonical → (g d a).1.Canonical) : (l.foldl g d).1.Canonical := by
  induction l generalizing d with
  | nil => exact h
  | cons a t ih => exact ih (hg d a h)

theorem canonical_fst {β : Type} {a : Device} {b : β} {p : Device × β} (e : p = (a, b)) (h : p.1.Canonical) : a.Canonical := by
  rw [e] at h; exact h

theorem canonical_snd {β : Type} {a : Device} {b : β} {p : β × Device} (e : p = (b, a)) (h : p.2.Canonical) : a.Canonical := by
  rw [e] at h; exact h

theorem canonical_trd {β γ : Type} {a : Device} {b : β} {c : γ} {p : β × γ × Device} (e : p = (b, c, a)) (h : p.2.2.Canonical) :
    a.Canonical := by
  rw [e] at h; exact h

/-- The device an optional result holds is canonical. -/
def OptCanonical (o : Option Device) : Prop := ∀ x, o = some x → x.Canonical

theorem optCanonical_none : OptCanonical none := fun _ h => by cases h
theorem optCanonical_some {d : Device} (h : d.Canonical) : OptCanonical (some d) := fun _ e => by cases e; exact h
theorem optCanonical_ite {p : Prop} [Decidable p] {a b : Option Device} (h1 : p → OptCanonical a) (h2 : ¬ p → OptCanonical b) :
    OptCanonical (if p then a else b) := by
  split
  · exact h1 ‹_›
  · exact h2 ‹_›
theorem optCanonical_orElse {a : Option Device} {b : Unit → Option Device} (h1 : OptCanonical a) (h2 : OptCanonical (b ())) :
    OptCanonical (HOrElse.hOrElse a b) := by
  cases a with
  | none => simpa using h2
  | some x => intro y e; exact h1 y (by simpa using e)
theorem optCanonical_map {α : Type} {o : Option α} {g : α → Device} (h : ∀ x, (g x).Canonical) : OptCanonical (o.map g) := by
  cases o with
  | none => exact optCanonical_none
  | some x => exact optCanonical_some (h x)
theorem optCanonical_elim {o : Option Device} {x : Device} (e : o = some x) (h : OptCanonical o) : x.Canonical := h x e

theorem canonical_overlayRegs (ov regs : List (Nat × Word)) (h : Sparse.wf resetOf regs = true) :
    Sparse.wf resetOf (overlayRegs ov regs) = true := by
  unfold overlayRegs
  induction ov generalizing regs with
  | nil => exact h
  | cons e t ih => exact ih _ (Sparse.wf_put _ _ _ _ h)

theorem canonical_overlayTabs (ov tabs : List Host.Cell) (h : Sparse.wf tabDefault tabs = true) :
    Sparse.wf tabDefault (overlayTabs ov tabs) = true := by
  unfold overlayTabs
  induction ov generalizing tabs with
  | nil => exact h
  | cons e t ih => exact ih _ (Sparse.wf_put _ _ _ _ h)

theorem canonical_flashPut {d : Device} (h : d.Canonical) (o v) :
    Device.Canonical { d with flash := Sparse.put flashDefault o v d.flash } :=
  ⟨h.regs, h.tabs, h.mem, Sparse.wf_put _ _ _ _ h.flash⟩

theorem canonical_flashFilter {d : Device} (h : d.Canonical) (p) : Device.Canonical { d with flash := d.flash.filter p } :=
  ⟨h.regs, h.tabs, h.mem, Sparse.wf_filter _ _ _ h.flash⟩

theorem canonical_mk {d : Device} (h : d.Canonical) (f_resv f_fresh f_slu f_boot f_lanes f_ports f_pipes f_cal f_geo f_basin f_peers f_pr f_fly f_jud f_ej f_mon f_axes f_tb f_evt f_flt f_dram f_cap f_rsv f_cores f_dma f_dmaOut f_crc f_eth) :
    (Device.mk d.regs d.tabs d.mem f_resv f_fresh f_slu f_boot f_lanes f_ports f_pipes f_cal f_geo f_basin f_peers f_pr f_fly f_jud f_ej f_mon f_axes f_tb f_evt f_flt f_dram f_cap f_rsv f_cores f_dma f_dmaOut f_crc f_eth d.flash).Canonical := ⟨h.regs, h.tabs, h.mem, h.flash⟩

theorem canonical_Device_set {d : Device} (f) (v) (hd : d.Canonical) :
    (Device.set d f v).Canonical := by
  unfold Device.set
  with_reducible repeat' first | assumption | apply canonical_Device_wr | intro _ | dsimp only

theorem canonical_Device_setBit {d : Device} (f) (b) (hd : d.Canonical) :
    (Device.setBit d f b).Canonical := by
  unfold Device.setBit
  with_reducible repeat' first | assumption | apply canonical_ite | apply canonical_Device_set | split | intro _ | dsimp only

theorem canonical_Device_setI {d : Device} (f) (v) (hd : d.Canonical) :
    (Device.setI d f v).Canonical := by
  unfold Device.setI
  with_reducible repeat' first | assumption | apply canonical_Device_set | intro _ | dsimp only

theorem canonical_Device_count {d : Device} (f) (n) (hd : d.Canonical) :
    (Device.count d f n).Canonical := by
  unfold Device.count
  with_reducible repeat' first | assumption | apply canonical_Device_set | intro _ | dsimp only

theorem canonical_Device_setPair {d : Device} (lo) (hi) (v) (hd : d.Canonical) :
    (Device.setPair d lo hi v).Canonical := by
  unfold Device.setPair
  with_reducible repeat' first | assumption | apply canonical_Device_wr | intro _ | dsimp only

theorem canonical_Device_free {d : Device} (n) (hd : d.Canonical) :
    (Device.free d n).2.Canonical := by
  unfold Device.free
  with_reducible repeat' first | assumption | fail_if_no_progress apply canonical_mk | intro _ | dsimp only

theorem canonical_Device_emit {d : Device} (rill) (stamp) (hd : d.Canonical) :
    (Device.emit d rill stamp).Canonical := by
  unfold Device.emit
  with_reducible repeat' first | assumption | fail_if_no_progress apply canonical_mk | intro _ | dsimp only

theorem canonical_Device_fireFlags {d : Device} (a) (hd : d.Canonical) :
    (Device.fireFlags d a).Canonical := by
  unfold Device.fireFlags
  with_reducible repeat' first | assumption | apply canonical_ite | apply canonical_Device_emit | split | intro _ | dsimp only

theorem canonical_Device_raise {d : Device} (f) (hd : d.Canonical) :
    (Device.raise d f).Canonical := by
  unfold Device.raise
  with_reducible repeat' first | assumption | apply canonical_ite | apply canonical_Device_set | apply canonical_Device_fireFlags | split | intro _ | dsimp only

theorem canonical_Device_raiseIf {d : Device} (c) (f) (hd : d.Canonical) :
    (Device.raiseIf d c f).Canonical := by
  unfold Device.raiseIf
  with_reducible repeat' first | assumption | apply canonical_ite | apply canonical_Device_raise | split | intro _ | dsimp only

theorem canonical_Device_withStaged {d : Device} (hd : d.Canonical) :
    (Device.withStaged d).Canonical := by
  exact ⟨canonical_overlayRegs _ _ hd.regs, canonical_overlayTabs _ _ hd.tabs, hd.mem, hd.flash⟩

theorem canonical_Device_setByte {d : Device} (a) (b) (hd : d.Canonical) :
    (Device.setByte d a b).Canonical := by
  unfold Device.setByte
  with_reducible repeat' first | assumption | fail_if_no_progress apply canonical_mk | apply canonical_Device_putByte | intro _ | dsimp only

theorem canonical_Device_putBytes {d : Device} (a) (x2) (hd : d.Canonical) :
    (Device.putBytes d a x2).Canonical := by
  fun_induction Device.putBytes
  all_goals with_reducible repeat' first | assumption | fail_if_no_progress apply canonical_mk | apply canonical_Device_putByte | split | intro _ | dsimp only | apply_assumption

theorem canonical_Device_setBytes {d : Device} (a) (x2) (hd : d.Canonical) :
    (Device.setBytes d a x2).Canonical := by
  fun_induction Device.setBytes
  all_goals with_reducible repeat' first | assumption | fail_if_no_progress apply canonical_mk | apply canonical_Device_setByte | split | intro _ | dsimp only | apply_assumption

theorem canonical_Device_setNum {d : Device} (a) (n) (v) (hd : d.Canonical) :
    (Device.setNum d a n v).Canonical := by
  unfold Device.setNum
  with_reducible repeat' first | assumption | apply canonical_Device_setBytes | intro _ | dsimp only

theorem canonical_histWrite {d : Device} (code) (index) (hd : d.Canonical) :
    (histWrite d code index).Canonical := by
  unfold histWrite
  with_reducible repeat' first | assumption | apply canonical_ite | apply canonical_Device_raise | apply canonical_Device_setBytes | apply canonical_Device_set | split | intro _ | dsimp only

theorem canonical_Device_fault {d : Device} (code) (index) (hd : d.Canonical) :
    (Device.fault d code index).Canonical := by
  unfold Device.fault
  with_reducible repeat' first | assumption | apply canonical_ite | apply canonical_Device_count | apply canonical_Device_set | apply canonical_Device_raiseIf | apply canonical_histWrite | split | intro _ | dsimp only

theorem canonical_Device_faultAfter {d : Device} (code) (index) (hd : d.Canonical) :
    (Device.faultAfter d code index).Canonical := by
  unfold Device.faultAfter
  with_reducible repeat' first | assumption | apply canonical_Device_fault | apply canonical_Device_wr | intro _ | dsimp only

theorem canonical_snoopMismatch {d : Device} (k) (code) (index) (hd : d.Canonical) :
    (snoopMismatch d k code index).Canonical := by
  unfold snoopMismatch
  with_reducible repeat' first | assumption | apply canonical_Device_fault | apply canonical_Device_raise | apply canonical_Device_count | split | intro _ | dsimp only

theorem canonical_Device_elapse {d : Device} (n) (hd : d.Canonical) :
    (Device.elapse d n).Canonical := by
  unfold Device.elapse
  with_reducible repeat' first | assumption | apply canonical_ite | fail_if_no_progress apply canonical_mk | split | intro _ | dsimp only

theorem canonical_idleTick {d : Device} (hd : d.Canonical) :
    (idleTick d).Canonical := by
  unfold idleTick
  with_reducible repeat' first | assumption | apply canonical_ite | apply canonical_Device_elapse | split | intro _ | dsimp only

theorem canonical_Device_elapseTo {d : Device} (t) (hd : d.Canonical) :
    (Device.elapseTo d t).Canonical := by
  unfold Device.elapseTo
  with_reducible repeat' first | assumption | apply canonical_Device_elapse | intro _ | dsimp only

theorem canonical_startLines {d : Device} (hd : d.Canonical) :
    (startLines d).Canonical := by
  unfold startLines
  with_reducible repeat' first | assumption | fail_if_no_progress apply canonical_mk | apply canonical_Device_setBit | intro _ | dsimp only

theorem canonical_recordStamp {d : Device} (s) (hd : d.Canonical) :
    (recordStamp d s).Canonical := by
  unfold recordStamp
  with_reducible repeat' first | assumption | fail_if_no_progress apply canonical_mk | intro _ | dsimp only

theorem canonical_Device_setCore {d : Device} (n) (x) (hd : d.Canonical) :
    (Device.setCore d n x).Canonical := by
  unfold Device.setCore
  with_reducible repeat' first | assumption | fail_if_no_progress apply canonical_mk | intro _ | dsimp only

theorem canonical_coreTrap {d : Device} (n) (cause) (a) (hd : d.Canonical) :
    (coreTrap d n cause a).Canonical := by
  unfold coreTrap
  with_reducible repeat' first | assumption | apply canonical_ite | fail_if_no_progress apply canonical_mk | apply canonical_Device_setCore | split | intro _ | dsimp only

theorem canonical_haltHart (n) (cause) {d : Device} (hd : d.Canonical) :
    (haltHart n cause d).Canonical := by
  unfold haltHart
  with_reducible repeat' first | assumption | apply canonical_ite | fail_if_no_progress apply canonical_mk | apply canonical_Device_setCore | apply canonical_Device_setBit | split | intro _ | dsimp only

theorem canonical_writeBack {d : Device} (l) (hd : d.Canonical) :
    (writeBack d l).Canonical := by
  unfold writeBack
  with_reducible repeat' first | assumption | apply canonical_Device_putBytes | intro _ | dsimp only

theorem canonical_dcacheFill {d : Device} (n) (k) (hd : d.Canonical) :
    (dcacheFill d n k).Canonical := by
  unfold dcacheFill
  with_reducible repeat' first | assumption | apply canonical_ite | fail_if_no_progress apply canonical_mk | apply canonical_Device_setCore | apply canonical_writeBack | split | intro _ | dsimp only

theorem canonical_icacheFill {d : Device} (n) (k) (hd : d.Canonical) :
    (icacheFill d n k).Canonical := by
  unfold icacheFill
  with_reducible repeat' first | assumption | apply canonical_ite | fail_if_no_progress apply canonical_mk | apply canonical_Device_setCore | split | intro _ | dsimp only

theorem canonical_cacheStore {d : Device} (n) (a) (bs) (hd : d.Canonical) :
    (cacheStore d n a bs).Canonical := by
  unfold cacheStore
  with_reducible repeat' first | assumption | apply canonical_ite | apply canonical_foldl | apply canonical_foldl_fst | fail_if_no_progress apply canonical_mk | apply canonical_dcacheFill | apply canonical_Device_setCore | apply canonical_fst (by assumption) | split | intro _ | dsimp only

theorem canonical_cacheOp (op) (n) {d : Device} (k) (hd : d.Canonical) :
    (cacheOp op n d k).Canonical := by
  unfold cacheOp
  with_reducible repeat' first | assumption | apply canonical_ite | apply canonical_writeBack | apply canonical_Device_setCore | split | intro _ | dsimp only

theorem canonical_Device_reply {d : Device} (v) (hd : d.Canonical) :
    (Device.reply d v).Canonical := by
  unfold Device.reply
  with_reducible repeat' first | assumption | fail_if_no_progress apply canonical_mk | intro _ | dsimp only

theorem canonical_latchBusError {d : Device} (m) (addr) (write) (cause) (hd : d.Canonical) :
    (latchBusError d m addr write cause).Canonical := by
  unfold latchBusError
  with_reducible repeat' first | assumption | apply canonical_ite | apply canonical_Device_set | apply canonical_Device_setBit | apply canonical_Device_setPair | split | intro _ | dsimp only

theorem canonical_busErrorAs (exc) {d : Device} (m) (addr) (write) (cause) (hd : d.Canonical) :
    (busErrorAs exc d m addr write cause).Canonical := by
  unfold busErrorAs
  with_reducible repeat' first | assumption | apply canonical_ite | fail_if_no_progress apply canonical_mk | apply canonical_coreTrap | apply canonical_latchBusError | split | intro _ | dsimp only

theorem canonical_busError {d : Device} (m) (addr) (write) (cause) (hd : d.Canonical) :
    (busError d m addr write cause).Canonical := by
  unfold busError
  with_reducible repeat' first | assumption | apply canonical_ite | apply canonical_busErrorAs | split | intro _ | dsimp only

theorem canonical_regAccessBy (m) (a) (write) {act : Device → Device} {d : Device} (hact : ∀ (y0 : Device), y0.Canonical → (act y0).Canonical) (hd : d.Canonical) :
    (regAccessBy m a write act d).Canonical := by
  unfold regAccessBy
  with_reducible repeat' first | assumption | apply canonical_ite | apply hact | apply canonical_busError | split | intro _ | dsimp only

theorem canonical_regAccess (a) (write) {act : Device → Device} {d : Device} (hact : ∀ (y0 : Device), y0.Canonical → (act y0).Canonical) (hd : d.Canonical) :
    (regAccess a write act d).Canonical := by
  unfold regAccess
  with_reducible repeat' first | assumption | apply canonical_ite | fail_if_no_progress apply canonical_mk | apply hact | apply canonical_regAccessBy | split | intro _ | dsimp only

theorem canonical_mbxFill {d : Device} (k) (hd : d.Canonical) :
    (mbxFill d k).Canonical := by
  unfold mbxFill
  with_reducible repeat' first | assumption | apply canonical_ite | apply canonical_Device_set | apply canonical_Device_emit | split | intro _ | dsimp only

theorem canonical_mbxRefuse {d : Device} (m) (k) (write) (hd : d.Canonical) :
    (mbxRefuse d m k write).Canonical := by
  unfold mbxRefuse
  with_reducible repeat' first | assumption | apply canonical_busError | apply canonical_Device_set | intro _ | dsimp only

theorem canonical_mbxWriteDev (m) (k) (w) {d : Device} (hd : d.Canonical) :
    (mbxWriteDev m k w d).Canonical := by
  unfold mbxWriteDev
  with_reducible repeat' first | assumption | apply canonical_ite | apply canonical_mbxRefuse | apply canonical_mbxFill | apply canonical_Device_wr | apply canonical_Device_count | apply canonical_Device_set | apply canonical_Device_reply | split | intro _ | dsimp only

theorem canonical_mbxReadDev (m) (k) {d : Device} (hd : d.Canonical) :
    (mbxReadDev m k d).Canonical := by
  unfold mbxReadDev
  with_reducible repeat' first | assumption | apply canonical_ite | apply canonical_mbxRefuse | apply canonical_Device_reply | apply canonical_Device_set | split | intro _ | dsimp only

theorem canonical_mbxMasterReset {d : Device} (m) (hd : d.Canonical) :
    (mbxMasterReset d m).Canonical := by
  unfold mbxMasterReset
  with_reducible repeat' first | assumption | apply canonical_ite | apply canonical_foldl | apply canonical_foldl_fst | apply canonical_Device_set | apply canonical_fst (by assumption) | split | intro _ | dsimp only

theorem canonical_mbxClear {d : Device} (hd : d.Canonical) :
    (mbxClear d).Canonical := by
  unfold mbxClear
  with_reducible repeat' first | assumption | apply canonical_foldl | apply canonical_foldl_fst | apply canonical_Device_wr | apply canonical_fst (by assumption) | intro _ | dsimp only

theorem canonical_lockFlag {d : Device} (f) (hd : d.Canonical) :
    (lockFlag d f).Canonical := by
  unfold lockFlag
  with_reducible repeat' first | assumption | apply canonical_ite | apply canonical_Device_set | apply canonical_Device_emit | split | intro _ | dsimp only

theorem canonical_lockReadDev (m) (k) {d : Device} (hd : d.Canonical) :
    (lockReadDev m k d).Canonical := by
  unfold lockReadDev
  with_reducible repeat' first | assumption | apply canonical_ite | apply canonical_Device_wr | apply canonical_Device_reply | split | intro _ | dsimp only

theorem canonical_lockWriteDev (m) (k) {d : Device} (hd : d.Canonical) :
    (lockWriteDev m k d).Canonical := by
  unfold lockWriteDev
  with_reducible repeat' first | assumption | apply canonical_ite | apply canonical_Device_reply | apply canonical_Device_wr | apply canonical_lockFlag | apply canonical_Device_count | split | intro _ | dsimp only

theorem canonical_lockForceDev (hi) (w) {d : Device} (hd : d.Canonical) :
    (lockForceDev hi w d).Canonical := by
  unfold lockForceDev
  with_reducible repeat' first | assumption | apply canonical_ite | apply canonical_foldl | apply canonical_foldl_fst | apply canonical_Device_wr | apply canonical_lockFlag | apply canonical_fst (by assumption) | split | intro _ | dsimp only

theorem canonical_lockMasterReset {d : Device} (m) (hd : d.Canonical) :
    (lockMasterReset d m).Canonical := by
  unfold lockMasterReset
  with_reducible repeat' first | assumption | apply canonical_ite | apply canonical_foldl | apply canonical_foldl_fst | apply canonical_lockFlag | apply canonical_Device_wr | apply canonical_fst (by assumption) | split | intro _ | dsimp only

theorem canonical_masterReset {d : Device} (m) (hd : d.Canonical) :
    (masterReset d m).Canonical := by
  unfold masterReset
  with_reducible repeat' first | assumption | apply canonical_mbxMasterReset | apply canonical_lockMasterReset | intro _ | dsimp only

theorem canonical_resetCore {d : Device} (n) (hd : d.Canonical) :
    (resetCore d n).Canonical := by
  unfold resetCore
  with_reducible repeat' first | assumption | apply canonical_ite | fail_if_no_progress apply canonical_mk | apply canonical_Device_setCore | apply canonical_Device_setBit | apply canonical_Device_set | apply canonical_masterReset | split | intro _ | dsimp only

theorem canonical_coreResetDev (n) {d : Device} (hd : d.Canonical) :
    (coreResetDev n d).Canonical := by
  unfold coreResetDev
  with_reducible repeat' first | assumption | apply canonical_ite | apply canonical_resetCore | split | intro _ | dsimp only

theorem canonical_coreReleaseDev (n) {d : Device} (hd : d.Canonical) :
    (coreReleaseDev n d).Canonical := by
  unfold coreReleaseDev
  with_reducible repeat' first | assumption | apply canonical_ite | apply canonical_Device_setCore | apply canonical_Device_setBit | apply canonical_Device_set | split | intro _ | dsimp only

theorem canonical_watchdogKickDev (n) (w) {d : Device} (hd : d.Canonical) :
    (watchdogKickDev n w d).Canonical := by
  unfold watchdogKickDev
  with_reducible repeat' first | assumption | apply canonical_ite | apply canonical_Device_setCore | split | intro _ | dsimp only

theorem canonical_setExpired {d : Device} (n) (hd : d.Canonical) :
    (setExpired d n).Canonical := by
  unfold setExpired
  with_reducible repeat' first | assumption | apply canonical_ite | apply canonical_Device_set | apply canonical_Device_emit | split | intro _ | dsimp only

theorem canonical_untilExpiry {d : Device} (n) (hd : d.Canonical) :
    (untilExpiry d n).Canonical := by
  unfold untilExpiry
  with_reducible repeat' first | assumption | apply canonical_ite | apply canonical_Device_elapse | split | intro _ | dsimp only

theorem canonical_watchdogExpireDev (n) {d : Device} (hd : d.Canonical) :
    (watchdogExpireDev n d).Canonical := by
  unfold watchdogExpireDev
  with_reducible repeat' first | assumption | apply canonical_ite | apply canonical_Device_fault | apply canonical_setExpired | apply canonical_resetCore | apply canonical_untilExpiry | split | intro _ | dsimp only

theorem canonical_cmoGoDev (n) (w) {d : Device} (hd : d.Canonical) :
    (cmoGoDev n w d).Canonical := by
  unfold cmoGoDev
  with_reducible repeat' first | assumption | apply canonical_ite | apply canonical_Device_set | apply canonical_Device_setCore | split | intro _ | dsimp only

theorem canonical_cmoDoneDev (n) {d : Device} (hd : d.Canonical) :
    (cmoDoneDev n d).Canonical := by
  unfold cmoDoneDev
  with_reducible repeat' first | assumption | apply canonical_foldl | apply canonical_foldl_fst | apply canonical_cacheOp | apply canonical_Device_set | apply canonical_Device_setCore | apply canonical_fst (by assumption) | split | intro _ | dsimp only

theorem canonical_mtimeReadDev {d : Device} (hd : d.Canonical) :
    (mtimeReadDev d).Canonical := by
  unfold mtimeReadDev
  with_reducible repeat' first | assumption | apply canonical_Device_reply | apply canonical_Device_setPair | intro _ | dsimp only

theorem canonical_showTimer {d : Device} (n) (hd : d.Canonical) :
    (showTimer d n).Canonical := by
  unfold showTimer
  with_reducible repeat' first | assumption | apply canonical_Device_setCore | intro _ | dsimp only

theorem canonical_latchPlic {d : Device} (hd : d.Canonical) :
    (latchPlic d).Canonical := by
  unfold latchPlic
  with_reducible repeat' first | assumption | fail_if_no_progress apply canonical_mk | intro _ | dsimp only

theorem canonical_plicClaimDev (ctx) {d : Device} (hd : d.Canonical) :
    (plicClaimDev ctx d).Canonical := by
  unfold plicClaimDev
  with_reducible repeat' first | assumption | apply canonical_ite | fail_if_no_progress apply canonical_mk | apply canonical_Device_reply | split | intro _ | dsimp only

theorem canonical_plicComplete {d : Device} (ctx) (i) (hd : d.Canonical) :
    (plicComplete d ctx i).Canonical := by
  unfold plicComplete
  with_reducible repeat' first | assumption | apply canonical_ite | fail_if_no_progress apply canonical_mk | split | intro _ | dsimp only

theorem canonical_coreInterrupt (n) {d : Device} (hd : d.Canonical) :
    (coreInterrupt n d).Canonical := by
  unfold coreInterrupt
  with_reducible repeat' first | assumption | apply canonical_ite | fail_if_no_progress apply canonical_mk | apply canonical_Device_setCore | split | intro _ | dsimp only

theorem canonical_mtimerDev (n) {d : Device} (hd : d.Canonical) :
    (mtimerDev n d).Canonical := by
  unfold mtimerDev
  with_reducible repeat' first | assumption | apply canonical_ite | apply canonical_coreInterrupt | apply canonical_showTimer | apply canonical_Device_elapse | split | intro _ | dsimp only

theorem canonical_regWrite (n) (r) (v) {d : Device} (hd : d.Canonical) :
    (regWrite n r v d).Canonical := by
  unfold regWrite
  with_reducible repeat' first | assumption | apply canonical_ite | apply canonical_Device_setCore | split | intro _ | dsimp only

theorem canonical_csrAccess (n) (r) (user) (v) {d : Device} (hd : d.Canonical) :
    (csrAccess n r user v d).Canonical := by
  unfold csrAccess
  with_reducible repeat' first | assumption | apply canonical_ite | apply canonical_coreTrap | apply canonical_Device_reply | apply canonical_regWrite | split | intro _ | dsimp only

theorem canonical_Device_setAxis {d : Device} (n) (x) (hd : d.Canonical) :
    (Device.setAxis d n x).Canonical := by
  unfold Device.setAxis
  with_reducible repeat' first | assumption | fail_if_no_progress apply canonical_mk | intro _ | dsimp only

theorem canonical_measure {d : Device} (cfg) (n) (y) (t) (still) (hd : d.Canonical) :
    (measure d cfg n y t still).Canonical := by
  unfold measure
  with_reducible repeat' first | assumption | apply canonical_ite | apply canonical_Device_setAxis | split | intro _ | dsimp only

theorem canonical_remeasureStill {d : Device} (cfg) (n) (t) (hd : d.Canonical) :
    (remeasureStill d cfg n t).Canonical := by
  unfold remeasureStill
  with_reducible repeat' first | assumption | apply canonical_ite | apply canonical_measure | split | intro _ | dsimp only

theorem canonical_listFire {d : Device} (n) (t) (hd : d.Canonical) :
    (listFire d n t).Canonical := by
  unfold listFire
  with_reducible repeat' first | assumption | apply canonical_Device_setPair | apply canonical_Device_count | apply canonical_Device_emit | intro _ | dsimp only

theorem canonical_listEnd {d : Device} (n) (hd : d.Canonical) :
    (listEnd d n).Canonical := by
  unfold listEnd
  with_reducible repeat' first | assumption | apply canonical_Device_raise | apply canonical_Device_setBit | intro _ | dsimp only

theorem canonical_listScan (n) (o) (w) (t) (te) (x5) {x6 : Device} (hx6 : x6.Canonical) :
    (listScan n o w t te x5 x6).Canonical := by
  fun_induction listScan
  all_goals with_reducible repeat' first | assumption | apply canonical_ite | fail_if_no_progress apply canonical_mk | apply canonical_Device_set | apply canonical_listFire | apply canonical_listEnd | split | intro _ | dsimp only | apply_assumption

theorem canonical_listCompare {d : Device} (n) (o) (w) (t) (te) (hd : d.Canonical) :
    (listCompare d n o w t te).Canonical := by
  unfold listCompare
  with_reducible repeat' first | assumption | apply canonical_ite | apply canonical_listScan | split | intro _ | dsimp only

theorem canonical_ctlUndo {d : Device} (n) (c) (hd : d.Canonical) :
    (ctlUndo d n c).Canonical := by
  unfold ctlUndo
  with_reducible repeat' first | assumption | apply canonical_Device_setBit | apply canonical_Device_set | intro _ | dsimp only

theorem canonical_ctlApply {d : Device} (n) (refArm) (list) (clr) (hd : d.Canonical) :
    (ctlApply d n refArm list clr).Canonical := by
  unfold ctlApply
  with_reducible repeat' first | assumption | apply canonical_ite | apply canonical_Device_setBit | apply canonical_Device_set | split | intro _ | dsimp only

theorem canonical_beforeCtl {d : Device} (n) (te) {act : Device → Device} (hd : d.Canonical) (hact : ∀ (y0 : Device), y0.Canonical → (act y0).Canonical) :
    (beforeCtl d n te act).Canonical := by
  unfold beforeCtl
  with_reducible repeat' first | assumption | apply canonical_ite | apply hact | apply canonical_ctlUndo | apply canonical_ctlApply | apply canonical_Device_setAxis | split | intro _ | dsimp only

theorem canonical_writeCtl (n) (refArm) (list) (clr) {d : Device} (hd : d.Canonical) :
    (writeCtl n refArm list clr d).Canonical := by
  unfold writeCtl
  with_reducible repeat' first | assumption | apply canonical_ite | apply canonical_ctlApply | apply canonical_Device_setAxis | split | intro _ | dsimp only

theorem canonical_refLatch {d : Device} (cfg) (n) (t) (hd : d.Canonical) :
    (refLatch d cfg n t).Canonical := by
  unfold refLatch
  with_reducible repeat' first | assumption | apply canonical_ite | apply canonical_Device_setPair | apply canonical_Device_raise | apply canonical_Device_setBit | apply canonical_Device_setAxis | split | intro _ | dsimp only

theorem canonical_refEdge {d : Device} (cfg) (n) (t) (te) (hd : d.Canonical) :
    (refEdge d cfg n t te).Canonical := by
  unfold refEdge
  with_reducible repeat' first | assumption | apply canonical_refLatch | apply canonical_listCompare | intro _ | dsimp only

theorem canonical_sampleEnd {d : Device} (cfg) (n) (o) (t) (ref) (te) (hd : d.Canonical) :
    (sampleEnd d cfg n o t ref te).Canonical := by
  unfold sampleEnd
  with_reducible repeat' first | assumption | apply canonical_refLatch | apply canonical_listCompare | split | intro _ | dsimp only

theorem canonical_axisCatch {d : Device} (n) (t) (hd : d.Canonical) :
    (axisCatch d n t).Canonical := by
  unfold axisCatch
  with_reducible repeat' first | assumption | apply canonical_ite | apply canonical_Device_setAxis | apply canonical_Device_withStaged | split | intro _ | dsimp only

theorem canonical_qerrRate {d : Device} (n) (hd : d.Canonical) :
    (qerrRate d n).Canonical := by
  unfold qerrRate
  with_reducible repeat' first | assumption | apply canonical_Device_fault | apply canonical_Device_raise | intro _ | dsimp only

theorem canonical_qerrEvent {d : Device} (cfg) (n) (t) (hd : d.Canonical) :
    (qerrEvent d cfg n t).Canonical := by
  unfold qerrEvent
  with_reducible repeat' first | assumption | apply canonical_ite | apply canonical_Device_setAxis | apply canonical_Device_raise | apply canonical_Device_setBit | apply canonical_Device_count | apply canonical_qerrRate | split | intro _ | dsimp only

theorem canonical_quadSample {d0 : Device} (cfg) (n) (a) (b) (t) (hd0 : d0.Canonical) :
    (quadSample d0 cfg n a b t).Canonical := by
  unfold quadSample
  with_reducible repeat' first | assumption | apply canonical_ite | apply canonical_Device_setAxis | apply canonical_remeasureStill | apply canonical_qerrEvent | apply canonical_Device_setBit | apply canonical_Device_count | apply canonical_measure | split | intro _ | dsimp only

theorem canonical_withZ {d : Device} (n) (z) (hd : d.Canonical) :
    (withZ d n z).Canonical := by
  unfold withZ
  with_reducible repeat' first | assumption | apply canonical_ite | apply canonical_Device_setAxis | split | intro _ | dsimp only

theorem canonical_encoderEdgeDev (n) (a) (b) (t) (held) (z) {d0 : Device} (hd0 : d0.Canonical) :
    (encoderEdgeDev n a b t held z d0).Canonical := by
  unfold encoderEdgeDev
  with_reducible repeat' first | assumption | apply canonical_ite | apply canonical_axisCatch | apply canonical_Device_asOfTime | apply canonical_withZ | apply canonical_Device_setAxis | apply canonical_beforeCtl | apply canonical_sampleEnd | apply canonical_quadSample | split | intro _ | dsimp only

theorem canonical_zEdgeDev (n) (rising) (t) (held) {d0 : Device} (hd0 : d0.Canonical) :
    (zEdgeDev n rising t held d0).Canonical := by
  unfold zEdgeDev
  with_reducible repeat' first | assumption | apply canonical_ite | apply canonical_axisCatch | apply canonical_Device_asOfTime | apply canonical_withZ | apply canonical_beforeCtl | apply canonical_refEdge | split | intro _ | dsimp only

theorem canonical_qerrWindowDev (n) {d : Device} (hd : d.Canonical) :
    (qerrWindowDev n d).Canonical := by
  unfold qerrWindowDev
  with_reducible repeat' first | assumption | apply canonical_ite | apply canonical_Device_setAxis | apply canonical_Device_elapseTo | apply canonical_Device_asOfTime | apply canonical_qerrRate | split | intro _ | dsimp only

theorem canonical_ssiStartDev (n) (dataHigh) (t) {d0 : Device} (hd0 : d0.Canonical) :
    (ssiStartDev n dataHigh t d0).Canonical := by
  unfold ssiStartDev
  with_reducible repeat' first | assumption | apply canonical_ite | apply canonical_axisCatch | apply canonical_Device_asOfTime | apply canonical_Device_setAxis | split | intro _ | dsimp only

theorem canonical_ssiSample {d : Device} (cfg) (n) (bits) (f) (hd : d.Canonical) :
    (ssiSample d cfg n bits f).Canonical := by
  unfold ssiSample
  with_reducible repeat' first | assumption | apply canonical_ite | apply canonical_Device_setAxis | apply canonical_Device_raise | apply canonical_Device_count | apply canonical_Device_setBit | apply canonical_measure | split | intro _ | dsimp only

theorem canonical_ssiDoneDev (n) (bits) (z) {d : Device} (hd : d.Canonical) :
    (ssiDoneDev n bits z d).Canonical := by
  unfold ssiDoneDev
  with_reducible repeat' first | assumption | apply canonical_Device_asOfTime | apply canonical_beforeCtl | apply canonical_withZ | apply canonical_sampleEnd | apply canonical_ssiSample | split | intro _ | dsimp only

theorem canonical_standstillDev (n) {d0 : Device} (hd0 : d0.Canonical) :
    (standstillDev n d0).Canonical := by
  unfold standstillDev
  with_reducible repeat' first | assumption | apply canonical_ite | apply canonical_Device_asOfTime | apply canonical_axisCatch | apply canonical_Device_setBit | apply canonical_measure | apply canonical_Device_elapseTo | split | intro _ | dsimp only

theorem canonical_refArmDev (n) {d : Device} (hd : d.Canonical) :
    (refArmDev n d).Canonical := by
  unfold refArmDev
  with_reducible repeat' first | assumption | apply canonical_writeCtl | intro _ | dsimp only

theorem canonical_listArmDev (n) {d : Device} (hd : d.Canonical) :
    (listArmDev n d).Canonical := by
  unfold listArmDev
  with_reducible repeat' first | assumption | apply canonical_writeCtl | intro _ | dsimp only

theorem canonical_listStopDev (n) {d : Device} (hd : d.Canonical) :
    (listStopDev n d).Canonical := by
  unfold listStopDev
  with_reducible repeat' first | assumption | apply canonical_writeCtl | intro _ | dsimp only

theorem canonical_clrUncertDev (n) {d : Device} (hd : d.Canonical) :
    (clrUncertDev n d).Canonical := by
  unfold clrUncertDev
  with_reducible repeat' first | assumption | apply canonical_writeCtl | intro _ | dsimp only

theorem canonical_axisSnapshotDev (n) (pos) {d : Device} (hd : d.Canonical) :
    (axisSnapshotDev n pos d).Canonical := by
  unfold axisSnapshotDev
  with_reducible repeat' first | assumption | apply canonical_ite | apply canonical_Device_setPair | split | intro _ | dsimp only

theorem canonical_axisReset {d : Device} (n) (hd : d.Canonical) :
    (axisReset d n).Canonical := by
  unfold axisReset
  with_reducible repeat' first | assumption | apply canonical_Device_setAxis | intro _ | dsimp only

theorem canonical_axesApply (old) {new : Device} (hnew : new.Canonical) :
    (axesApply old new).Canonical := by
  unfold axesApply
  with_reducible repeat' first | assumption | apply canonical_ite | apply canonical_foldl | apply canonical_foldl_fst | apply canonical_Device_setAxis | apply canonical_fst (by assumption) | split | intro _ | dsimp only

end Sys2Proof.Machine
end

