-- ==== Sys2Proof/Laws/CanonicalVision.lean ====
section
/-! SUPPORT. Operations of CapLines, Accept, PairOps, Calib, Geometry, Segment, Basin, Eject, Flight, Forest keep every store in its canonical form. -/

namespace Sys2Proof.Machine

set_option Elab.async false
set_option linter.unusedTactic false
set_option linter.unreachableTactic false

theorem canonical_capTake {d : Device} (v) (x) (hd : d.Canonical) :
    (capTake d v x).Canonical := by
  unfold capTake
  with_reducible repeat' first | assumption | apply canonical_ite | fail_if_no_progress apply canonical_mk | split | intro _ | dsimp only

theorem canonical_capRestart {d : Device} (hd : d.Canonical) :
    (capRestart d).Canonical := by
  unfold capRestart
  with_reducible repeat' first | assumption | fail_if_no_progress apply canonical_mk | intro _ | dsimp only

theorem canonical_showWaiting {d : Device} (hd : d.Canonical) :
    (showWaiting d).Canonical := by
  unfold showWaiting
  with_reducible repeat' first | assumption | apply canonical_ite | apply canonical_Device_set | split | intro _ | dsimp only

theorem canonical_offerLine {d : Device} (l) (hd : d.Canonical) :
    (offerLine d l).Canonical := by
  unfold offerLine
  with_reducible repeat' first | assumption | fail_if_no_progress apply canonical_mk | apply canonical_showWaiting | intro _ | dsimp only

theorem canonical_ingressHigh {d : Device} (p) (n) (hd : d.Canonical) :
    (ingressHigh d p n).Canonical := by
  unfold ingressHigh
  with_reducible repeat' first | assumption | apply canonical_ite | apply canonical_Device_set | split | intro _ | dsimp only

theorem canonical_Device_withPair {d : Device} (p) (hd : d.Canonical) :
    (Device.withPair d p).Canonical := by
  unfold Device.withPair
  with_reducible repeat' first | assumption | fail_if_no_progress apply canonical_mk | intro _ | dsimp only

theorem canonical_pushItem {d : Device} (a) (b) (hd : d.Canonical) :
    (pushItem d a b).Canonical := by
  unfold pushItem
  with_reducible repeat' first | assumption | apply canonical_ite | apply canonical_Device_withPair | split | intro _ | dsimp only

theorem canonical_Device_setCalCtx {d : Device} (c) (x) (hd : d.Canonical) :
    (Device.setCalCtx d c x).Canonical := by
  unfold Device.setCalCtx
  with_reducible repeat' first | assumption | fail_if_no_progress apply canonical_mk | intro _ | dsimp only

theorem canonical_Device_setRun {d : Device} (r) (hd : d.Canonical) :
    (Device.setRun d r).Canonical := by
  unfold Device.setRun
  with_reducible repeat' first | assumption | fail_if_no_progress apply canonical_mk | intro _ | dsimp only

theorem canonical_writeLive {d : Device} (e) (vs) (hd : d.Canonical) :
    (writeLive d e vs).Canonical := by
  unfold writeLive
  with_reducible repeat' first | assumption | apply canonical_Device_setBytes | intro _ | dsimp only

theorem canonical_showApplied {d : Device} (c) (t) (hd : d.Canonical) :
    (showApplied d c t).Canonical := by
  unfold showApplied
  with_reducible repeat' first | assumption | apply canonical_Device_setBit | apply canonical_Device_set | intro _ | dsimp only

theorem canonical_reread {d : Device} (c) (hd : d.Canonical) :
    (reread d c).Canonical := by
  unfold reread
  with_reducible repeat' first | assumption | apply canonical_ite | apply canonical_foldl | apply canonical_foldl_fst | apply canonical_Device_setBytes | apply canonical_fst (by assumption) | split | intro _ | dsimp only

theorem canonical_makeSet {d : Device} (c) (t) (a) (byRun) (hd : d.Canonical) :
    (makeSet d c t a byRun).Canonical := by
  unfold makeSet
  with_reducible repeat' first | assumption | apply canonical_ite | fail_if_no_progress apply canonical_mk | apply canonical_reread | apply canonical_showApplied | split | intro _ | dsimp only

theorem canonical_tempRecompute {d : Device} (c) (l) (hd : d.Canonical) :
    (tempRecompute d c l).Canonical := by
  unfold tempRecompute
  with_reducible repeat' first | assumption | apply canonical_ite | apply canonical_makeSet | split | intro _ | dsimp only

theorem canonical_setDue {d : Device} (c) (f) (hd : d.Canonical) :
    (setDue d c f).Canonical := by
  unfold setDue
  with_reducible repeat' first | assumption | apply canonical_ite | apply canonical_Device_setBit | apply canonical_Device_raiseIf | split | intro _ | dsimp only

theorem canonical_clearDue {d : Device} (c) (hd : d.Canonical) :
    (clearDue d c).Canonical := by
  unfold clearDue
  with_reducible repeat' first | assumption | apply canonical_ite | apply canonical_Device_setBit | split | intro _ | dsimp only

theorem canonical_tempCheck {d : Device} (c) (hd : d.Canonical) :
    (tempCheck d c).Canonical := by
  unfold tempCheck
  with_reducible repeat' first | assumption | apply canonical_ite | apply canonical_setDue | split | intro _ | dsimp only

theorem canonical_calAccept {d : Device} (l) (hd : d.Canonical) :
    (calAccept d l).Canonical := by
  unfold calAccept
  with_reducible repeat' first | assumption | apply canonical_ite | fail_if_no_progress apply canonical_mk | apply canonical_Device_setCalCtx | apply canonical_tempRecompute | apply canonical_tempCheck | split | intro _ | dsimp only

theorem canonical_intervalDueDev (c) {d : Device} (hd : d.Canonical) :
    (intervalDueDev c d).Canonical := by
  unfold intervalDueDev
  with_reducible repeat' first | assumption | apply canonical_ite | apply canonical_Device_elapseTo | apply canonical_setDue | split | intro _ | dsimp only

theorem canonical_endRun {d : Device} (code) (hd : d.Canonical) :
    (endRun d code).Canonical := by
  unfold endRun
  with_reducible repeat' first | assumption | fail_if_no_progress apply canonical_mk | apply canonical_Device_set | intro _ | dsimp only

theorem canonical_takeSets {d : Device} (x) (hd : d.Canonical) :
    (takeSets d x).Canonical := by
  unfold takeSets
  with_reducible repeat' first | assumption | apply canonical_ite | apply canonical_foldl | apply canonical_foldl_fst | apply canonical_Device_setBytes | apply canonical_Device_wr | apply canonical_fst (by assumption) | split | intro _ | dsimp only

theorem canonical_discardRun {d : Device} (hd : d.Canonical) :
    (discardRun d).Canonical := by
  unfold discardRun
  with_reducible repeat' first | assumption | fail_if_no_progress apply canonical_mk | apply canonical_takeSets | apply canonical_tempCheck | apply canonical_Device_raise | apply canonical_Device_count | apply canonical_endRun | split | intro _ | dsimp only

theorem canonical_abandonRun {d : Device} (hd : d.Canonical) :
    (abandonRun d).Canonical := by
  unfold abandonRun
  with_reducible repeat' first | assumption | apply canonical_ite | apply canonical_discardRun | split | intro _ | dsimp only

theorem canonical_calGoDev (v) {d0 : Device} (hd0 : d0.Canonical) :
    (calGoDev v d0).Canonical := by
  unfold calGoDev
  with_reducible repeat' first | assumption | apply canonical_ite | apply canonical_Device_set | apply canonical_Device_raise | apply canonical_Device_setRun | split | intro _ | dsimp only

theorem canonical_calAbortDev {d : Device} (hd : d.Canonical) :
    (calAbortDev d).Canonical := by
  unfold calAbortDev
  with_reducible repeat' first | assumption | apply canonical_ite | apply canonical_tempCheck | apply canonical_endRun | split | intro _ | dsimp only

theorem canonical_accumulate (n) {d : Device} (k) (v) (hd : d.Canonical) :
    (accumulate n d k v).Canonical := by
  unfold accumulate
  with_reducible repeat' first | assumption | apply canonical_ite | apply canonical_Device_setNum | split | intro _ | dsimp only

theorem canonical_accumLine {d : Device} (cfg) (c) (v) (l) (hd : d.Canonical) :
    (accumLine d cfg c v l).Canonical := by
  unfold accumLine
  with_reducible repeat' first | assumption | apply canonical_foldl | apply canonical_foldl_fst | apply canonical_accumulate | apply canonical_fst (by assumption) | intro _ | dsimp only

theorem canonical_runTests {d : Device} (cfg) (c) (r) (l) (hd : d.Canonical) :
    (runTests d cfg c r l).Canonical := by
  unfold runTests
  with_reducible repeat' first | assumption | apply canonical_ite | apply canonical_tempCheck | apply canonical_Device_raise | apply canonical_Device_count | apply canonical_endRun | apply canonical_setDue | apply canonical_abandonRun | split | intro _ | dsimp only

theorem canonical_runLine {d : Device} (c) (v) (r) (l) (hd : d.Canonical) :
    (runLine d c v r l).Canonical := by
  unfold runLine
  with_reducible repeat' first | assumption | apply canonical_ite | fail_if_no_progress apply canonical_mk | apply canonical_Device_asOf | apply canonical_runTests | apply canonical_Device_setRun | apply canonical_Device_count | apply canonical_accumLine | apply canonical_Device_set | split | intro _ | dsimp only

theorem canonical_runSteps {d : Device} (x1) (hd : d.Canonical) :
    (runSteps d x1).Canonical := by
  fun_induction runSteps
  all_goals with_reducible repeat' first | assumption | apply canonical_ite | fail_if_no_progress apply canonical_mk | apply canonical_Device_count | apply canonical_Device_asOf | apply canonical_Device_setRun | apply canonical_runTests | apply canonical_runLine | split | intro _ | dsimp only | apply_assumption

theorem canonical_calMask {d : Device} (v) (l) (fg) (hd : d.Canonical) :
    (calMask d v l fg).Canonical := by
  unfold calMask
  with_reducible repeat' first | assumption | apply canonical_ite | fail_if_no_progress apply canonical_mk | apply canonical_runSteps | split | intro _ | dsimp only

theorem canonical_calCapture {d : Device} (cfg) (c) (l) (v) (hd : d.Canonical) :
    (calCapture d cfg c l v).Canonical := by
  unfold calCapture
  with_reducible repeat' first | assumption | apply canonical_ite | apply canonical_foldl | apply canonical_foldl_fst | fail_if_no_progress apply canonical_mk | apply canonical_Device_setNum | apply canonical_runSteps | apply canonical_fst (by assumption) | split | intro _ | dsimp only

theorem canonical_storeDelta (j) {acc : Device × ℕ} (x) (hacc : acc.1.Canonical) :
    (storeDelta j acc x).1.Canonical := by
  unfold storeDelta
  with_reducible repeat' first | assumption | apply canonical_Device_setNum | apply canonical_fst (by assumption) | split | intro _ | dsimp only

theorem canonical_dropRecomputes {d : Device} (c) (lc) (hd : d.Canonical) :
    (dropRecomputes d c lc).Canonical := by
  unfold dropRecomputes
  with_reducible repeat' first | assumption | fail_if_no_progress apply canonical_mk | intro _ | dsimp only

theorem canonical_commitStart {d : Device} (hd : d.Canonical) :
    (commitStart d).Canonical := by
  unfold commitStart
  with_reducible repeat' first | assumption | fail_if_no_progress apply canonical_mk | apply canonical_Device_set | split | intro _ | dsimp only

theorem canonical_commitQueue {d : Device} (c) (hd : d.Canonical) :
    (commitQueue d c).Canonical := by
  unfold commitQueue
  with_reducible repeat' first | assumption | fail_if_no_progress apply canonical_mk | apply canonical_commitStart | intro _ | dsimp only

theorem canonical_cutCommit {d : Device} (hd : d.Canonical) :
    (cutCommit d).Canonical := by
  unfold cutCommit
  with_reducible repeat' first | assumption | fail_if_no_progress apply canonical_mk | apply canonical_Device_setBytes | apply canonical_Device_setNum | split | intro _ | dsimp only

theorem canonical_setLive {d : Device} (s) (hd : d.Canonical) :
    (setLive d s).Canonical := by
  unfold setLive
  with_reducible repeat' first | assumption | fail_if_no_progress apply canonical_mk | apply canonical_writeLive | intro _ | dsimp only

theorem canonical_applySets {d : Device} (l) (hd : d.Canonical) :
    (applySets d l).Canonical := by
  unfold applySets
  with_reducible repeat' first | assumption | apply canonical_ite | apply canonical_foldl | apply canonical_foldl_fst | apply canonical_setLive | apply canonical_tempRecompute | apply canonical_Device_raise | apply canonical_Device_count | apply canonical_endRun | apply canonical_Device_set | apply canonical_tempCheck | apply canonical_commitQueue | apply canonical_fst (by assumption) | split | intro _ | dsimp only

theorem canonical_calComputeDev {d : Device} (hd : d.Canonical) :
    (calComputeDev d).Canonical := by
  unfold calComputeDev
  with_reducible repeat' first | assumption | apply canonical_ite | apply canonical_foldl | apply canonical_foldl_fst | fail_if_no_progress apply canonical_mk | apply canonical_storeDelta | apply canonical_fst (by assumption) | apply canonical_Device_raiseIf | apply canonical_Device_count | apply canonical_Device_set | apply canonical_Device_setBit | apply canonical_Device_setRun | apply canonical_makeSet | apply canonical_dropRecomputes | apply canonical_applySets | apply canonical_pushItem | split | intro _ | dsimp only

theorem canonical_calCommitDoneDev (ok) {d : Device} (hd : d.Canonical) :
    (calCommitDoneDev ok d).Canonical := by
  unfold calCommitDoneDev
  with_reducible repeat' first | assumption | apply canonical_ite | fail_if_no_progress apply canonical_mk | apply canonical_Device_set | apply canonical_Device_setBytes | apply canonical_Device_fault | apply canonical_Device_raise | apply canonical_commitStart | split | intro _ | dsimp only

theorem canonical_runAgain {d : Device} (l) (hd : d.Canonical) :
    (runAgain d l).Canonical := by
  unfold runAgain
  with_reducible repeat' first | assumption | apply canonical_ite | fail_if_no_progress apply canonical_mk | split | intro _ | dsimp only

theorem canonical_calLine {d : Device} (l) (hd : d.Canonical) :
    (calLine d l).Canonical := by
  unfold calLine
  with_reducible repeat' first | assumption | apply canonical_ite | apply canonical_applySets | apply canonical_clearDue | apply canonical_Device_set | apply canonical_Device_setBytes | apply canonical_Device_setRun | apply canonical_Device_setCalCtx | apply canonical_runSteps | apply canonical_runAgain | split | intro _ | dsimp only

theorem canonical_calApply (old) {new : Device} (hnew : new.Canonical) :
    (calApply old new).Canonical := by
  unfold calApply
  with_reducible repeat' first | assumption | apply canonical_ite | apply canonical_foldl | apply canonical_foldl_fst | apply canonical_abandonRun | apply canonical_tempCheck | apply canonical_Device_set | apply canonical_fst (by assumption) | split | intro _ | dsimp only

theorem canonical_rewriteLive {d : Device} (c) (hd : d.Canonical) :
    (rewriteLive d c).Canonical := by
  unfold rewriteLive
  with_reducible repeat' first | assumption | apply canonical_ite | apply canonical_writeLive | split | intro _ | dsimp only

theorem canonical_Device_setView {d : Device} (v) (x) (hd : d.Canonical) :
    (Device.setView d v x).Canonical := by
  unfold Device.setView
  with_reducible repeat' first | assumption | fail_if_no_progress apply canonical_mk | intro _ | dsimp only

theorem canonical_pruneStore {d : Device} (c) (hd : d.Canonical) :
    (pruneStore d c).Canonical := by
  unfold pruneStore
  with_reducible repeat' first | assumption | fail_if_no_progress apply canonical_mk | split | intro _ | dsimp only

theorem canonical_settleView (upTo) {d : Device} (v) (hd : d.Canonical) :
    (settleView upTo d v).Canonical := by
  unfold settleView
  with_reducible repeat' first | assumption | apply canonical_ite | fail_if_no_progress apply canonical_mk | apply canonical_Device_setView | split | intro _ | dsimp only

theorem canonical_storeLine {d0 : Device} (x) (hd0 : d0.Canonical) :
    (storeLine d0 x).Canonical := by
  unfold storeLine
  with_reducible repeat' first | assumption | apply canonical_ite | apply canonical_foldl | apply canonical_foldl_fst | fail_if_no_progress apply canonical_mk | apply canonical_settleView | apply canonical_Device_count | apply canonical_pruneStore | apply canonical_fst (by assumption) | split | intro _ | dsimp only

theorem canonical_histTake {d : Device} (v) (x) (hd : d.Canonical) :
    (histTake d v x).Canonical := by
  unfold histTake
  with_reducible repeat' first | assumption | apply canonical_ite | apply canonical_Device_asOf | apply canonical_Device_setView | split | intro _ | dsimp only

theorem canonical_ringEmpty {d : Device} (cfg) (v) (hd : d.Canonical) :
    (ringEmpty d cfg v).Canonical := by
  unfold ringEmpty
  with_reducible repeat' first | assumption | apply canonical_Device_setBytes | intro _ | dsimp only

theorem canonical_ringStart {d : Device} (v) (l) (hd : d.Canonical) :
    (ringStart d v l).Canonical := by
  unfold ringStart
  with_reducible repeat' first | assumption | apply canonical_ite | apply canonical_Device_setView | apply canonical_ringEmpty | apply canonical_Device_asOf | split | intro _ | dsimp only

theorem canonical_histCompleteDev (v) {d : Device} (hd : d.Canonical) :
    (histCompleteDev v d).Canonical := by
  unfold histCompleteDev
  with_reducible repeat' first | assumption | apply canonical_ringStart | apply canonical_Device_setBytes | apply canonical_Device_setView | split | intro _ | dsimp only

theorem canonical_histDropDev (v) {d : Device} (hd : d.Canonical) :
    (histDropDev v d).Canonical := by
  unfold histDropDev
  with_reducible repeat' first | assumption | apply canonical_ringStart | apply canonical_Device_fault | apply canonical_Device_raise | apply canonical_Device_count | apply canonical_Device_setBytes | apply canonical_Device_setView | split | intro _ | dsimp only

theorem canonical_histApply (old) (a) {new : Device} (hnew : new.Canonical) :
    (histApply old a new).Canonical := by
  unfold histApply
  with_reducible repeat' first | assumption | apply canonical_ite | apply canonical_foldl | apply canonical_foldl_fst | apply canonical_Device_setView | apply canonical_fst (by assumption) | split | intro _ | dsimp only

theorem canonical_lossCount {d : Device} (l) (lost) (hd : d.Canonical) :
    (lossCount d l lost).Canonical := by
  unfold lossCount
  with_reducible repeat' first | assumption | apply canonical_ite | fail_if_no_progress apply canonical_mk | split | intro _ | dsimp only

theorem canonical_emitLine {d : Device} (v) (l) (bands) (hd : d.Canonical) :
    (emitLine d v l bands).Canonical := by
  unfold emitLine
  with_reducible repeat' first | assumption | apply canonical_ite | apply canonical_Device_setView | apply canonical_Device_count | apply canonical_Device_raise | apply canonical_lossCount | apply canonical_Device_fault | apply canonical_histTake | apply canonical_capTake | split | intro _ | dsimp only

theorem canonical_viewAssembleDev (v) {d0 : Device} (hd0 : d0.Canonical) :
    (viewAssembleDev v d0).Canonical := by
  unfold viewAssembleDev
  with_reducible repeat' first | assumption | apply canonical_ite | apply canonical_settleView | apply canonical_emitLine | split | intro _ | dsimp only

theorem canonical_emitLost {d : Device} (v) (hd : d.Canonical) :
    (emitLost d v).Canonical := by
  unfold emitLost
  with_reducible repeat' first | assumption | apply canonical_ite | apply canonical_emitLine | split | intro _ | dsimp only

theorem canonical_viewDeadlineDev (v) {d : Device} (hd : d.Canonical) :
    (viewDeadlineDev v d).Canonical := by
  unfold viewDeadlineDev
  with_reducible repeat' first | assumption | apply canonical_ite | apply canonical_foldl | apply canonical_foldl_fst | apply canonical_settleView | apply canonical_emitLost | apply canonical_Device_elapseTo | apply canonical_fst (by assumption) | split | intro _ | dsimp only

theorem canonical_geoLine {d : Device} (l) (t) (hd : d.Canonical) :
    (geoLine d l t).Canonical := by
  unfold geoLine
  with_reducible repeat' first | assumption | apply canonical_ite | apply canonical_foldl | apply canonical_foldl_fst | apply canonical_Device_asOf | apply canonical_Device_setView | apply canonical_fst (by assumption) | split | intro _ | dsimp only

theorem canonical_Device_setPipe {d : Device} (p) (x) (hd : d.Canonical) :
    (Device.setPipe d p x).Canonical := by
  unfold Device.setPipe
  with_reducible repeat' first | assumption | fail_if_no_progress apply canonical_mk | intro _ | dsimp only

theorem canonical_pipeStartDev {d : Device} (hd : d.Canonical) :
    (pipeStartDev d).Canonical := by
  unfold pipeStartDev
  with_reducible repeat' first | assumption | apply canonical_ite | fail_if_no_progress apply canonical_mk | apply canonical_showWaiting | apply canonical_Device_setBit | apply canonical_Device_setPipe | apply canonical_Device_count | split | intro _ | dsimp only

theorem canonical_showBlock {d : Device} (c) (b) (hd : d.Canonical) :
    (showBlock d c b).Canonical := by
  unfold showBlock
  with_reducible repeat' first | assumption | apply canonical_foldl | apply canonical_foldl_fst | apply canonical_Device_set | apply canonical_Device_wr | apply canonical_fst (by assumption) | split | intro _ | dsimp only

theorem canonical_Device_setOpen {d : Device} (c) (b) (hd : d.Canonical) :
    (Device.setOpen d c b).Canonical := by
  unfold Device.setOpen
  with_reducible repeat' first | assumption | fail_if_no_progress apply canonical_mk | intro _ | dsimp only

theorem canonical_Device_setReady {d : Device} (c) (b) (hd : d.Canonical) :
    (Device.setReady d c b).Canonical := by
  unfold Device.setReady
  with_reducible repeat' first | assumption | fail_if_no_progress apply canonical_mk | intro _ | dsimp only

theorem canonical_closeBlock {d : Device} (c) (hd : d.Canonical) :
    (closeBlock d c).Canonical := by
  unfold closeBlock
  with_reducible repeat' first | assumption | apply canonical_ite | apply canonical_Device_set | apply canonical_showBlock | apply canonical_Device_emit | apply canonical_Device_setOpen | apply canonical_Device_setReady | split | intro _ | dsimp only

theorem canonical_statReleaseDev (c) {d : Device} (hd : d.Canonical) :
    (statReleaseDev c d).Canonical := by
  unfold statReleaseDev
  with_reducible repeat' first | assumption | apply canonical_showBlock | apply canonical_Device_setReady | apply canonical_Device_set | intro _ | dsimp only

theorem canonical_statTake {d : Device} (cfg) (l) (r) (hd : d.Canonical) :
    (statTake d cfg l r).Canonical := by
  unfold statTake
  with_reducible repeat' first | assumption | apply canonical_ite | apply canonical_closeBlock | apply canonical_Device_setOpen | split | intro _ | dsimp only

theorem canonical_pipeCompleteDev (p) (snoopOk) {d : Device} (hd : d.Canonical) :
    (pipeCompleteDev p snoopOk d).Canonical := by
  unfold pipeCompleteDev
  with_reducible repeat' first | assumption | apply canonical_ite | fail_if_no_progress apply canonical_mk | apply canonical_Device_asOf | apply canonical_Device_setBit | apply canonical_Device_setPipe | apply canonical_Device_count | apply canonical_statTake | apply canonical_storeLine | apply canonical_calCapture | apply canonical_snoopMismatch | split | intro _ | dsimp only

theorem canonical_Device_setSeg {d : Device} (v) (s) (hd : d.Canonical) :
    (Device.setSeg d v s).Canonical := by
  unfold Device.setSeg
  with_reducible repeat' first | assumption | fail_if_no_progress apply canonical_mk | intro _ | dsimp only

theorem canonical_handOver {d : Device} (v) (c) (os) (hd : d.Canonical) :
    (handOver d v c os).Canonical := by
  unfold handOver
  with_reducible repeat' first | assumption | apply canonical_Device_count | apply canonical_Device_setSeg | intro _ | dsimp only

theorem canonical_showOpen {d : Device} (v) (hd : d.Canonical) :
    (showOpen d v).Canonical := by
  unfold showOpen
  with_reducible repeat' first | assumption | apply canonical_Device_set | intro _ | dsimp only

theorem canonical_segFlush {d : Device} (v) (a) (hd : d.Canonical) :
    (segFlush d v a).Canonical := by
  unfold segFlush
  with_reducible repeat' first | assumption | apply canonical_showOpen | apply canonical_handOver | apply canonical_Device_setSeg | intro _ | dsimp only

theorem canonical_openComp (v l seeds chains c) {acc : OpenAcc} (h : acc.dev.Canonical) :
    (openComp v l seeds chains acc c).dev.Canonical := by
  unfold openComp
  split
  · exact canonical_Device_count _ _ (canonical_Device_set _ _ h)
  · exact h

theorem canonical_openComps (v l seeds chains) (cs : List Component) {acc : OpenAcc} (h : acc.dev.Canonical) :
    (cs.foldl (openComp v l seeds chains) acc).dev.Canonical := by
  induction cs generalizing acc with
  | nil => exact h
  | cons c t ih => exact ih (canonical_openComp _ _ _ _ _ h)

theorem canonical_segProcess {d0 : Device} (v) (l) (bands) (hd0 : d0.Canonical) :
    (segProcess d0 v l bands).Canonical := by
  unfold segProcess
  with_reducible repeat' first | assumption | apply canonical_ite | apply canonical_foldl | apply canonical_foldl_fst | apply canonical_openComps | apply canonical_Device_asOf | apply canonical_segFlush | apply canonical_OpenAcc_dev | apply canonical_handOver | apply canonical_Device_setSeg | apply canonical_Device_count | apply canonical_Device_raise | apply canonical_Device_raiseIf | apply canonical_calMask | apply canonical_showOpen | apply canonical_fst (by assumption) | split | intro _ | dsimp only

theorem canonical_segLost {d0 : Device} (v) (l) (hd0 : d0.Canonical) :
    (segLost d0 v l).Canonical := by
  unfold segLost
  with_reducible repeat' first | assumption | apply canonical_ite | apply canonical_Device_asOf | apply canonical_segFlush | apply canonical_handOver | apply canonical_Device_setSeg | apply canonical_Device_raiseIf | apply canonical_Device_count | apply canonical_calMask | apply canonical_showOpen | split | intro _ | dsimp only

theorem canonical_Device_setServe {d : Device} (j) (hd : d.Canonical) :
    (Device.setServe d j).Canonical := by
  unfold Device.setServe
  with_reducible repeat' first | assumption | fail_if_no_progress apply canonical_mk | intro _ | dsimp only

theorem canonical_serveView {d : Device} (v) (l) (hd : d.Canonical) :
    (serveView d v l).Canonical := by
  unfold serveView
  with_reducible repeat' first | assumption | apply canonical_ite | apply canonical_Device_setServe | split | intro _ | dsimp only

theorem canonical_segLineDev (v) {d0 : Device} (hd0 : d0.Canonical) :
    (segLineDev v d0).Canonical := by
  unfold segLineDev
  with_reducible repeat' first | assumption | apply canonical_ite | apply canonical_serveView | apply canonical_segProcess | apply canonical_Device_setView | split | intro _ | dsimp only

theorem canonical_segLostDev (v) {d0 : Device} (hd0 : d0.Canonical) :
    (segLostDev v d0).Canonical := by
  unfold segLostDev
  with_reducible repeat' first | assumption | apply canonical_ite | apply canonical_serveView | apply canonical_segLost | apply canonical_Device_setView | split | intro _ | dsimp only

theorem canonical_showUpper {d : Device} (hd : d.Canonical) :
    (showUpper d).Canonical := by
  unfold showUpper
  with_reducible repeat' first | assumption | apply canonical_Device_set | intro _ | dsimp only

theorem canonical_enterUpper {d : Device} (s) (hd : d.Canonical) :
    (enterUpper d s).Canonical := by
  unfold enterUpper
  with_reducible repeat' first | assumption | apply canonical_ite | fail_if_no_progress apply canonical_mk | apply canonical_Device_asOf | apply canonical_showUpper | apply canonical_Device_raise | apply canonical_Device_count | split | intro _ | dsimp only

theorem canonical_showWait {d : Device} (v) (peak) (hd : d.Canonical) :
    (showWait d v peak).Canonical := by
  unfold showWait
  with_reducible repeat' first | assumption | apply canonical_Device_set | intro _ | dsimp only

theorem canonical_joinWaiting {d : Device} (v) (c) (hd : d.Canonical) :
    (joinWaiting d v c).1.Canonical := by
  unfold joinWaiting
  with_reducible repeat' first | assumption | apply canonical_Device_setSeg | intro _ | dsimp only

theorem canonical_emitSighting {d : Device} (s) (hd : d.Canonical) :
    (emitSighting d s).Canonical := by
  unfold emitSighting
  with_reducible repeat' first | assumption | apply canonical_ite | fail_if_no_progress apply canonical_mk | apply canonical_Device_set | apply canonical_Device_count | apply canonical_enterUpper | split | intro _ | dsimp only

theorem canonical_flushDisabled {d : Device} (v) (c) (hd : d.Canonical) :
    (flushDisabled d v c).Canonical := by
  unfold flushDisabled
  with_reducible repeat' first | assumption | apply canonical_ite | apply canonical_Device_asOf | apply canonical_segFlush | apply canonical_Device_setSeg | split | intro _ | dsimp only

theorem canonical_formLine {d0 : Device} (h) (c) (hd0 : d0.Canonical) :
    (formLine d0 h c).Canonical := by
  unfold formLine
  with_reducible repeat' first | assumption | apply canonical_ite | apply canonical_foldl | apply canonical_foldl_fst | apply canonical_Device_asOf | apply canonical_flushDisabled | apply canonical_joinWaiting | apply canonical_fst (by assumption) | apply canonical_Device_setSeg | apply canonical_showWait | apply canonical_Device_raiseIf | apply canonical_Device_count | apply canonical_emitSighting | split | intro _ | dsimp only

theorem canonical_serveHeight {d : Device} (h) (c) (hd : d.Canonical) :
    (serveHeight d h c).Canonical := by
  unfold serveHeight
  with_reducible repeat' first | assumption | apply canonical_ite | apply canonical_Device_setServe | split | intro _ | dsimp only

theorem canonical_formationDev (h) {d : Device} (hd : d.Canonical) :
    (formationDev h d).Canonical := by
  unfold formationDev
  with_reducible repeat' first | assumption | apply canonical_ite | fail_if_no_progress apply canonical_mk | apply canonical_formLine | apply canonical_serveHeight | split | intro _ | dsimp only

theorem canonical_formTrigger {d : Device} (c) (hd : d.Canonical) :
    (formTrigger d c).Canonical := by
  unfold formTrigger
  with_reducible repeat' first | assumption | apply canonical_ite | fail_if_no_progress apply canonical_mk | split | intro _ | dsimp only

theorem canonical_clearObjects {d : Device} (hd : d.Canonical) :
    (clearObjects d).Canonical := by
  unfold clearObjects
  with_reducible repeat' first | assumption | apply canonical_foldl | apply canonical_foldl_fst | fail_if_no_progress apply canonical_mk | apply canonical_showWait | apply canonical_showOpen | apply canonical_Device_setSeg | apply canonical_showUpper | apply canonical_fst (by assumption) | intro _ | dsimp only

theorem canonical_showPool {d : Device} (hd : d.Canonical) :
    (showPool d).Canonical := by
  unfold showPool
  with_reducible repeat' first | assumption | apply canonical_Device_set | intro _ | dsimp only

theorem canonical_Device_setWindows {d : Device} (ws) (hd : d.Canonical) :
    (Device.setWindows d ws).Canonical := by
  unfold Device.setWindows
  with_reducible repeat' first | assumption | fail_if_no_progress apply canonical_mk | apply canonical_showPool | intro _ | dsimp only

theorem canonical_placeWindow {d : Device} (w) (now) (dl) (minoff) (hd : d.Canonical) :
    (placeWindow d w now dl minoff).1.Canonical := by
  unfold placeWindow
  with_reducible repeat' first | assumption | apply canonical_ite | apply canonical_Device_raise | apply canonical_Device_count | apply canonical_Device_setWindows | split | intro _ | dsimp only

theorem canonical_placeAll {d0 : Device} (cfg) (j) (r) (tF) (tB) (dl) (lo) (hi) (hd0 : d0.Canonical) :
    (placeAll d0 cfg j r tF tB dl lo hi).1.Canonical := by
  unfold placeAll
  with_reducible repeat' first | assumption | apply canonical_foldl | apply canonical_foldl_fst | apply canonical_placeWindow | apply canonical_fst (by assumption) | split | intro _ | dsimp only

theorem canonical_noValve {d : Device} (hd : d.Canonical) :
    (noValve d).Canonical := by
  unfold noValve
  with_reducible repeat' first | assumption | apply canonical_Device_raise | apply canonical_Device_count | intro _ | dsimp only

theorem canonical_dropPort {d : Device} (p) (hd : d.Canonical) :
    (dropPort d p).Canonical := by
  unfold dropPort
  with_reducible repeat' first | assumption | apply canonical_Device_setWindows | intro _ | dsimp only

theorem canonical_stoppedForest {d : Device} (hd : d.Canonical) :
    (stoppedForest d).2.Canonical := by
  unfold stoppedForest
  with_reducible repeat' first | assumption | apply canonical_Device_free | apply canonical_snd (by assumption) | split | intro _ | dsimp only

theorem canonical_deliver {d : Device} (cfg) (j) (o) (hd : d.Canonical) :
    (deliver d cfg j o).Canonical := by
  unfold deliver
  extract_lets _ _ _ _ _ _ d1
  have h1 : d1.Canonical := by
    repeat' first | with_reducible assumption | with_reducible apply canonical_ite | with_reducible apply canonical_Device_count | intro _
  clear_value d1
  have h2 : (stoppedForest d1).2.Canonical := canonical_stoppedForest h1
  refine canonical_ite (fun _ => canonical_Device_count _ _ hd) (fun _ => ?_)
  split
  split
  · rename_i e
    have h3 := canonical_snd e h2
    extract_lets
    exact canonical_ite (fun _ => canonical_mk h3 ..) (fun _ => canonical_mk h1 ..)

theorem canonical_restartLanes {d : Device} (cfg) (hd : d.Canonical) :
    (restartLanes d cfg).Canonical := by
  unfold restartLanes
  with_reducible repeat' first | assumption | apply canonical_foldl | apply canonical_foldl_fst | fail_if_no_progress apply canonical_mk | apply canonical_Device_set | apply canonical_fst (by assumption) | intro _ | dsimp only

theorem canonical_dueRestarts {d : Device} (cfg) (c) (hd : d.Canonical) :
    (dueRestarts d cfg c).Canonical := by
  unfold dueRestarts
  with_reducible repeat' first | assumption | apply canonical_ite | fail_if_no_progress apply canonical_mk | apply canonical_restartLanes | split | intro _ | dsimp only

theorem canonical_readLane {d : Device} (k) (hd : d.Canonical) :
    (readLane d k).Canonical := by
  unfold readLane
  with_reducible repeat' first | assumption | apply canonical_Device_raiseIf | intro _ | dsimp only

theorem canonical_feedLane {d : Device} (cfg) (k) (v) (t) (hd : d.Canonical) :
    (feedLane d cfg k v t).Canonical := by
  unfold feedLane
  with_reducible repeat' first | assumption | fail_if_no_progress apply canonical_mk | apply canonical_Device_set | intro _ | dsimp only

theorem canonical_matched {d : Device} (cfg) (j) (u) (w) (hd : d.Canonical) :
    (matched d cfg j u w).Canonical := by
  unfold matched
  with_reducible repeat' first | assumption | fail_if_no_progress apply canonical_mk | apply canonical_showUpper | apply canonical_feedLane | apply canonical_Device_count | apply canonical_deliver | split | intro _ | dsimp only

theorem canonical_observed {d : Device} (cfg) (j) (w) (ambiguous) (hd : d.Canonical) :
    (observed d cfg j w ambiguous).Canonical := by
  unfold observed
  with_reducible repeat' first | assumption | apply canonical_ite | apply canonical_readLane | apply canonical_Device_count | apply canonical_deliver | split | intro _ | dsimp only

theorem canonical_lowerStep (cfg) (j) {d : Device} (w) (hd : d.Canonical) :
    (lowerStep cfg j d w).Canonical := by
  unfold lowerStep
  with_reducible repeat' first | assumption | apply canonical_ite | apply canonical_observed | apply canonical_readLane | apply canonical_matched | split | intro _ | dsimp only

theorem canonical_beltStep (cfg) (j) {d : Device} (w) (hd : d.Canonical) :
    (beltStep cfg j d w).Canonical := by
  unfold beltStep
  with_reducible repeat' first | assumption | apply canonical_deliver | intro _ | dsimp only

theorem canonical_expireStep (cfg) (j) {d : Device} (u) (hd : d.Canonical) :
    (expireStep cfg j d u).Canonical := by
  unfold expireStep
  with_reducible repeat' first | assumption | apply canonical_ite | fail_if_no_progress apply canonical_mk | apply canonical_showUpper | apply canonical_Device_count | apply canonical_deliver | apply canonical_readLane | split | intro _ | dsimp only

theorem canonical_serveLanes {d : Device} (c) (hd : d.Canonical) :
    (serveLanes d c).Canonical := by
  unfold serveLanes
  with_reducible repeat' first | assumption | apply canonical_ite | apply canonical_Device_setServe | split | intro _ | dsimp only

theorem canonical_matcherDev {d0 : Device} (hd0 : d0.Canonical) :
    (matcherDev d0).Canonical := by
  unfold matcherDev
  with_reducible repeat' first | assumption | apply canonical_ite | apply canonical_foldl | apply canonical_foldl_fst | fail_if_no_progress apply canonical_mk | apply canonical_serveLanes | apply canonical_Device_asOf | apply canonical_dueRestarts | apply canonical_beltStep | apply canonical_lowerStep | apply canonical_expireStep | apply canonical_fst (by assumption) | split | intro _ | dsimp only

theorem canonical_flyApply (old) {new : Device} (a) (hnew : new.Canonical) :
    (flyApply old new a).Canonical := by
  unfold flyApply
  with_reducible repeat' first | assumption | apply canonical_ite | fail_if_no_progress apply canonical_mk | split | intro _ | dsimp only

end Sys2Proof.Machine
end

