-- ==== Sys2Proof/Laws/CanonicalJudgement.lean ====
section
/-! SUPPORT. Operations of Judge, Monitor, LaneOps, Spout, Timebase keep every store in its canonical form. -/

namespace Sys2Proof.Machine

set_option Elab.async false
set_option linter.unusedTactic false
set_option linter.unreachableTactic false

theorem canonical_Device_setObjs {d : Device} (os) (hd : d.Canonical) :
    (Device.setObjs d os).Canonical := by
  unfold Device.setObjs
  with_reducible repeat' first | assumption | fail_if_no_progress apply canonical_mk | intro _ | dsimp only

theorem canonical_useOne {d : Device} (c) (hd : d.Canonical) :
    (useOne d c).Canonical := by
  unfold useOne
  with_reducible repeat' first | assumption | fail_if_no_progress apply canonical_mk | apply canonical_Device_set | intro _ | dsimp only

theorem canonical_selectOne {d : Device} (o) (f) (hd : d.Canonical) :
    (selectOne d o f).1.Canonical := by
  unfold selectOne
  with_reducible repeat' first | assumption | apply canonical_ite | apply canonical_Device_asOf | apply canonical_Device_count | apply canonical_useOne | apply canonical_Device_raise | split | intro _ | dsimp only

theorem canonical_selectFrom {d : Device} (before) (x2) (hd : d.Canonical) :
    (selectFrom d before x2).Canonical := by
  fun_induction selectFrom
  all_goals with_reducible repeat' first | assumption | apply canonical_ite | fail_if_no_progress apply canonical_mk | apply canonical_Device_setObjs | apply canonical_selectOne | apply canonical_fst (by assumption) | split | intro _ | dsimp only | apply_assumption

theorem canonical_forestDoneDev (k) (ecc) {d : Device} (hd : d.Canonical) :
    (forestDoneDev k ecc d).Canonical := by
  unfold forestDoneDev
  with_reducible repeat' first | assumption | apply canonical_ite | apply canonical_Device_count | apply canonical_Device_fault | apply canonical_Device_raise | apply canonical_stoppedForest | apply canonical_snd (by assumption) | apply canonical_selectFrom | split | intro _ | dsimp only

theorem canonical_classifierDoneDev (ecc) {d : Device} (hd : d.Canonical) :
    (classifierDoneDev ecc d).Canonical := by
  unfold classifierDoneDev
  with_reducible repeat' first | assumption | apply canonical_ite | fail_if_no_progress apply canonical_mk | apply canonical_Device_asOf | apply canonical_Device_count | apply canonical_Device_fault | apply canonical_Device_raise | apply canonical_Device_setObjs | split | intro _ | dsimp only

theorem canonical_countRule {d : Device} (x1) (hd : d.Canonical) :
    (countRule d x1).Canonical := by
  unfold countRule
  with_reducible repeat' first | assumption | apply canonical_ite | apply canonical_Device_count | apply canonical_Device_raise | split | intro _ | dsimp only

theorem canonical_streamRecord {d : Device} (r) (hd : d.Canonical) :
    (streamRecord d r).Canonical := by
  unfold streamRecord
  with_reducible repeat' first | assumption | apply canonical_ite | fail_if_no_progress apply canonical_mk | apply canonical_Device_raise | apply canonical_Device_count | split | intro _ | dsimp only

theorem canonical_Device_setPeer {d : Device} (n) (p) (hd : d.Canonical) :
    (Device.setPeer d n p).Canonical := by
  unfold Device.setPeer
  with_reducible repeat' first | assumption | fail_if_no_progress apply canonical_mk | intro _ | dsimp only

theorem canonical_queueFrame {d : Device} (n) (f) (hd : d.Canonical) :
    (queueFrame d n f).Canonical := by
  unfold queueFrame
  with_reducible repeat' first | assumption | apply canonical_Device_setPeer | intro _ | dsimp only

theorem canonical_sendWindow {d : Device} (line) (t) (w) (hd : d.Canonical) :
    (sendWindow d line t w).Canonical := by
  unfold sendWindow
  with_reducible repeat' first | assumption | apply canonical_Device_count | apply canonical_queueFrame | split | intro _ | dsimp only

theorem canonical_forwardAll {d : Device} (cfg) (o) (r) (lo) (hi) (hd : d.Canonical) :
    (forwardAll d cfg o r lo hi).1.Canonical := by
  unfold forwardAll
  with_reducible repeat' first | assumption | apply canonical_ite | apply canonical_foldl | apply canonical_foldl_fst | apply canonical_sendWindow | apply canonical_fst (by assumption) | split | intro _ | dsimp only

theorem canonical_digestAdd {d : Device} (c) (bs) (hd : d.Canonical) :
    (digestAdd d c bs).Canonical := by
  unfold digestAdd
  with_reducible repeat' first | assumption | fail_if_no_progress apply canonical_mk | intro _ | dsimp only

theorem canonical_ejectAll {d : Device} (cfg) (o) (action) (hd : d.Canonical) :
    (ejectAll d cfg o action).1.Canonical := by
  unfold ejectAll
  with_reducible repeat' first | assumption | apply canonical_ite | apply canonical_noValve | apply canonical_placeAll | apply canonical_fst (by assumption) | apply canonical_forwardAll | split | intro _ | dsimp only

theorem canonical_releaseObj {d : Device} (o) (f) (hd : d.Canonical) :
    (releaseObj d o f).Canonical := by
  unfold releaseObj
  with_reducible repeat' first | assumption | apply canonical_ite | apply canonical_Device_asOf | apply canonical_countRule | apply canonical_Device_raise | apply canonical_Device_count | apply canonical_ejectAll | apply canonical_fst (by assumption) | apply canonical_Device_emit | apply canonical_digestAdd | apply canonical_streamRecord | split | intro _ | dsimp only

theorem canonical_releaseDev {d : Device} (hd : d.Canonical) :
    (releaseDev d).Canonical := by
  unfold releaseDev
  with_reducible repeat' first | assumption | apply canonical_ite | apply canonical_releaseObj | apply canonical_Device_setObjs | split | intro _ | dsimp only

theorem canonical_showCap {d : Device} (hd : d.Canonical) :
    (showCap d).Canonical := by
  unfold showCap
  with_reducible repeat' first | assumption | apply canonical_ite | apply canonical_Device_set | apply canonical_Device_raise | split | intro _ | dsimp only

theorem canonical_claPowerDev (value) {d : Device} (hd : d.Canonical) :
    (claPowerDev value d).Canonical := by
  unfold claPowerDev
  with_reducible repeat' first | assumption | apply canonical_ite | apply canonical_Device_set | apply canonical_showCap | apply canonical_Device_setBit | split | intro _ | dsimp only

theorem canonical_claOffDev {d : Device} (hd : d.Canonical) :
    (claOffDev d).Canonical := by
  unfold claOffDev
  with_reducible repeat' first | assumption | apply canonical_ite | apply canonical_Device_set | apply canonical_Device_setBit | split | intro _ | dsimp only

theorem canonical_claWakeDev {d : Device} (hd : d.Canonical) :
    (claWakeDev d).Canonical := by
  unfold claWakeDev
  with_reducible repeat' first | assumption | apply canonical_ite | apply canonical_showCap | apply canonical_Device_set | split | intro _ | dsimp only

theorem canonical_setGrant {d : Device} (c) (g) (q) (hd : d.Canonical) :
    (setGrant d c g q).Canonical := by
  unfold setGrant
  with_reducible repeat' first | assumption | fail_if_no_progress apply canonical_mk | apply canonical_Device_set | apply canonical_showCap | intro _ | dsimp only

theorem canonical_stopJudgement {d0 : Device} (hd0 : d0.Canonical) :
    (stopJudgement d0).Canonical := by
  unfold stopJudgement
  with_reducible repeat' first | assumption | apply canonical_foldl | apply canonical_foldl_fst | apply canonical_stoppedForest | apply canonical_snd (by assumption) | apply canonical_Device_setObjs | apply canonical_fst (by assumption) | split | intro _ | dsimp only

theorem canonical_Device_setMonChan {d : Device} (c) (x) (hd : d.Canonical) :
    (Device.setMonChan d c x).Canonical := by
  unfold Device.setMonChan
  with_reducible repeat' first | assumption | fail_if_no_progress apply canonical_mk | intro _ | dsimp only

theorem canonical_sigFail {d : Device} (c) (hd : d.Canonical) :
    (sigFail d c).Canonical := by
  unfold sigFail
  with_reducible repeat' first | assumption | apply canonical_ite | apply canonical_Device_setBit | apply canonical_Device_setMonChan | apply canonical_Device_set | apply canonical_Device_count | apply canonical_Device_raise | split | intro _ | dsimp only

theorem canonical_sigDone {d : Device} (c) (s) (t) (hd : d.Canonical) :
    (sigDone d c s t).Canonical := by
  unfold sigDone
  with_reducible repeat' first | assumption | apply canonical_ite | apply canonical_Device_setBit | apply canonical_Device_setMonChan | apply canonical_Device_wr | apply canonical_Device_count | apply canonical_Device_raise | apply canonical_Device_set | split | intro _ | dsimp only

theorem canonical_monLeave {d : Device} (c) (hd : d.Canonical) :
    (monLeave d c).Canonical := by
  unfold monLeave
  with_reducible repeat' first | assumption | apply canonical_sigFail | apply canonical_Device_setBit | intro _ | dsimp only

theorem canonical_sigArm {d : Device} (c) (opening) (t) (hd : d.Canonical) :
    (sigArm d c opening t).Canonical := by
  unfold sigArm
  with_reducible repeat' first | assumption | apply canonical_sigFail | apply canonical_Device_setBit | apply canonical_Device_setMonChan | intro _ | dsimp only

theorem canonical_monArm {d : Device} (p) (t) (old) (new) (hd : d.Canonical) :
    (monArm d p t old new).Canonical := by
  unfold monArm
  with_reducible repeat' first | assumption | apply canonical_ite | apply canonical_foldl | apply canonical_foldl_fst | apply canonical_Device_asOfTime | apply canonical_sigArm | apply canonical_fst (by assumption) | split | intro _ | dsimp only

theorem canonical_sigTake {d : Device} (cfg) (c) (o) (hd : d.Canonical) :
    (sigTake d cfg c o).Canonical := by
  unfold sigTake
  with_reducible repeat' first | assumption | apply canonical_ite | apply canonical_sigFail | apply canonical_Device_setMonChan | apply canonical_sigDone | split | intro _ | dsimp only

theorem canonical_monTime {d : Device} (cfg) (c) (n) (k) (hd : d.Canonical) :
    (monTime d cfg c n k).2.Canonical := by
  unfold monTime
  with_reducible repeat' first | assumption | apply canonical_ite | apply canonical_Device_free | apply canonical_snd (by assumption) | split | intro _ | dsimp only

theorem canonical_monSample {d0 : Device} (c) (n) (b) (t) (filler) (hd0 : d0.Canonical) :
    (monSample d0 c n b t filler).Canonical := by
  unfold monSample
  with_reducible repeat' first | assumption | apply canonical_ite | apply canonical_Device_asOfTime | apply canonical_monLeave | apply canonical_Device_setBit | apply canonical_monTime | apply canonical_snd (by assumption) | apply canonical_Device_setMonChan | split | intro _ | dsimp only

theorem canonical_monLimit {d : Device} (cfg) (c) (o) (hd : d.Canonical) :
    (monLimit d cfg c o).Canonical := by
  unfold monLimit
  with_reducible repeat' first | assumption | apply canonical_ite | apply canonical_Device_raise | apply canonical_Device_set | apply canonical_Device_emit | split | intro _ | dsimp only

theorem canonical_monOutputDev (c) {d : Device} (hd : d.Canonical) :
    (monOutputDev c d).Canonical := by
  unfold monOutputDev
  with_reducible repeat' first | assumption | apply canonical_ite | apply canonical_Device_wr | apply canonical_Device_setMonChan | apply canonical_Device_setBit | apply canonical_Device_set | apply canonical_Device_asOfTime | apply canonical_sigTake | apply canonical_monLimit | split | intro _ | dsimp only

theorem canonical_monOutReadDev (c) {d : Device} (hd : d.Canonical) :
    (monOutReadDev c d).Canonical := by
  unfold monOutReadDev
  with_reducible repeat' first | assumption | apply canonical_Device_setPair | intro _ | dsimp only

theorem canonical_monClkDev (pins) (t) {d : Device} (hd : d.Canonical) :
    (monClkDev pins t d).Canonical := by
  unfold monClkDev
  with_reducible repeat' first | assumption | apply canonical_ite | apply canonical_foldl | apply canonical_foldl_fst | fail_if_no_progress apply canonical_mk | apply canonical_Device_asOfTime | apply canonical_monLeave | apply canonical_Device_set | apply canonical_monSample | apply canonical_fst (by assumption) | split | intro _ | dsimp only

theorem canonical_monClkLostDev {d : Device} (hd : d.Canonical) :
    (monClkLostDev d).Canonical := by
  unfold monClkLostDev
  with_reducible repeat' first | assumption | apply canonical_ite | apply canonical_foldl | apply canonical_foldl_fst | apply canonical_Device_asOfTime | apply canonical_monLeave | apply canonical_Device_raise | apply canonical_fst (by assumption) | split | intro _ | dsimp only

theorem canonical_monBit (frame) (p) (c) (s) (base) {d : Device} (b) (hd : d.Canonical) :
    (monBit frame p c s base d b).Canonical := by
  unfold monBit
  with_reducible repeat' first | assumption | apply canonical_ite | apply canonical_Device_asOfTime | apply canonical_monSample | apply canonical_monLeave | split | intro _ | dsimp only

theorem canonical_monSlot {d : Device} (p) (t) (frame) (hd : d.Canonical) :
    (monSlot d p t frame).Canonical := by
  unfold monSlot
  with_reducible repeat' first | assumption | apply canonical_ite | apply canonical_foldl | apply canonical_foldl_fst | fail_if_no_progress apply canonical_mk | apply canonical_Device_asOfTime | apply canonical_Device_raise | apply canonical_monBit | apply canonical_monLeave | apply canonical_fst (by assumption) | split | intro _ | dsimp only

theorem canonical_monSlotGapDev (p) {d : Device} (hd : d.Canonical) :
    (monSlotGapDev p d).Canonical := by
  unfold monSlotGapDev
  with_reducible repeat' first | assumption | apply canonical_monSlot | intro _ | dsimp only

theorem canonical_monApply (old) {new : Device} (hnew : new.Canonical) :
    (monApply old new).Canonical := by
  unfold monApply
  with_reducible repeat' first | assumption | apply canonical_ite | fail_if_no_progress apply canonical_mk | split | intro _ | dsimp only

theorem canonical_monRestart {d : Device} (hd : d.Canonical) :
    (monRestart d).Canonical := by
  unfold monRestart
  with_reducible repeat' first | assumption | apply canonical_ite | apply canonical_foldl | apply canonical_foldl_fst | apply canonical_monLeave | apply canonical_fst (by assumption) | split | intro _ | dsimp only

theorem canonical_Device_setLaneX {d : Device} (l) (x) (hd : d.Canonical) :
    (Device.setLaneX d l x).Canonical := by
  unfold Device.setLaneX
  with_reducible repeat' first | assumption | fail_if_no_progress apply canonical_mk | intro _ | dsimp only

theorem canonical_Device_lnEnter {d : Device} (l) (st) (hd : d.Canonical) :
    (Device.lnEnter d l st).Canonical := by
  unfold Device.lnEnter
  with_reducible repeat' first | assumption | apply canonical_ite | apply canonical_Device_set | apply canonical_Device_setLaneX | apply canonical_Device_setBit | split | intro _ | dsimp only

theorem canonical_trainFinish {d : Device} (l) (t) (fail) (hd : d.Canonical) :
    (trainFinish d l t fail).Canonical := by
  unfold trainFinish
  with_reducible repeat' first | assumption | apply canonical_Device_setBit | apply canonical_Device_setLaneX | apply canonical_Device_set | apply canonical_Device_wr | apply canonical_Device_raiseIf | split | intro _ | dsimp only

theorem canonical_trainCut {d : Device} (l) (hd : d.Canonical) :
    (trainCut d l).Canonical := by
  unfold trainCut
  with_reducible repeat' first | assumption | apply canonical_trainFinish | split | intro _ | dsimp only

theorem canonical_lnStart {d : Device} (l) (hd : d.Canonical) :
    (lnStart d l).Canonical := by
  unfold lnStart
  with_reducible repeat' first | assumption | apply canonical_Device_lnEnter | intro _ | dsimp only

theorem canonical_lnPowerUp {d : Device} (l) (hd : d.Canonical) :
    (lnPowerUp d l).Canonical := by
  unfold lnPowerUp
  with_reducible repeat' first | assumption | apply canonical_ite | apply canonical_Device_set | apply canonical_lnStart | split | intro _ | dsimp only

theorem canonical_lnPowerDown {d : Device} (l) (standby) (hd : d.Canonical) :
    (lnPowerDown d l standby).Canonical := by
  unfold lnPowerDown
  with_reducible repeat' first | assumption | apply canonical_ite | apply canonical_trainCut | apply canonical_Device_setBit | apply canonical_Device_set | apply canonical_Device_setLaneX | apply canonical_Device_lnEnter | split | intro _ | dsimp only

theorem canonical_lnWakeDone {d : Device} (l) (hd : d.Canonical) :
    (lnWakeDone d l).Canonical := by
  unfold lnWakeDone
  with_reducible repeat' first | assumption | apply canonical_ite | apply canonical_Device_lnEnter | apply canonical_Device_set | split | intro _ | dsimp only

theorem canonical_lnShutdownDone {d : Device} (l) (hd : d.Canonical) :
    (lnShutdownDone d l).Canonical := by
  unfold lnShutdownDone
  with_reducible repeat' first | assumption | apply canonical_ite | apply canonical_Device_lnEnter | apply canonical_lnStart | apply canonical_Device_set | split | intro _ | dsimp only

theorem canonical_lnLockLoss {d : Device} (l) (hd : d.Canonical) :
    (lnLockLoss d l).Canonical := by
  unfold lnLockLoss
  with_reducible repeat' first | assumption | apply canonical_ite | apply canonical_Device_lnEnter | apply canonical_Device_setLaneX | apply canonical_Device_raise | apply canonical_Device_count | split | intro _ | dsimp only

theorem canonical_lnClockLost {d : Device} (l) (hd : d.Canonical) :
    (lnClockLost d l).Canonical := by
  unfold lnClockLost
  with_reducible repeat' first | assumption | apply canonical_ite | apply canonical_lnLockLoss | split | intro _ | dsimp only

theorem canonical_lnSignalLost {d : Device} (l) (hd : d.Canonical) :
    (lnSignalLost d l).Canonical := by
  unfold lnSignalLost
  with_reducible repeat' first | assumption | apply canonical_ite | apply canonical_Device_setLaneX | apply canonical_lnLockLoss | apply canonical_Device_lnEnter | split | intro _ | dsimp only

theorem canonical_lnSignalPresent {d : Device} (l) (hd : d.Canonical) :
    (lnSignalPresent d l).Canonical := by
  unfold lnSignalPresent
  with_reducible repeat' first | assumption | apply canonical_ite | apply canonical_Device_setLaneX | apply canonical_Device_lnEnter | split | intro _ | dsimp only

theorem canonical_lnCdrLocked {d : Device} (l) (hd : d.Canonical) :
    (lnCdrLocked d l).Canonical := by
  unfold lnCdrLocked
  with_reducible repeat' first | assumption | apply canonical_ite | apply canonical_Device_lnEnter | split | intro _ | dsimp only

theorem canonical_lnCountInvalid {d : Device} (l) (s) (hd : d.Canonical) :
    (lnCountInvalid d l s).Canonical := by
  unfold lnCountInvalid
  with_reducible repeat' first | assumption | apply canonical_Device_raise | apply canonical_Device_count | split | intro _ | dsimp only

theorem canonical_lnCountForm {d : Device} (l) (rd) (g) (s) (hd : d.Canonical) :
    (lnCountForm d l rd g s).Canonical := by
  unfold lnCountForm
  with_reducible repeat' first | assumption | apply canonical_ite | apply canonical_lnCountInvalid | split | intro _ | dsimp only

theorem canonical_lnPrbs {d : Device} (l) (g) (hd : d.Canonical) :
    (lnPrbs d l g).Canonical := by
  unfold lnPrbs
  with_reducible repeat' first | assumption | apply canonical_foldl | apply canonical_foldl_fst | apply canonical_Device_raiseIf | apply canonical_Device_count | apply canonical_Device_setLaneX | apply canonical_fst (by assumption) | split | intro _ | dsimp only

theorem canonical_lnBadSymbol {d : Device} (l) (t) (hd : d.Canonical) :
    (lnBadSymbol d l t).Canonical := by
  unfold lnBadSymbol
  with_reducible repeat' first | assumption | apply canonical_ite | apply canonical_Device_lnEnter | apply canonical_Device_raise | apply canonical_Device_count | apply canonical_Device_setLaneX | split | intro _ | dsimp only

theorem canonical_lnGroup {d : Device} (l) (g0) (ph) (t) (hd : d.Canonical) :
    (lnGroup d l g0 ph t).Canonical := by
  unfold lnGroup
  with_reducible repeat' first | assumption | apply canonical_ite | apply canonical_lnPrbs | apply canonical_Device_lnEnter | apply canonical_Device_setBit | apply canonical_Device_setLaneX | apply canonical_lnCountForm | apply canonical_lnCountInvalid | apply canonical_lnBadSymbol | split | intro _ | dsimp only

theorem canonical_lnScoreDecay {d : Device} (l) (hd : d.Canonical) :
    (lnScoreDecay d l).Canonical := by
  unfold lnScoreDecay
  with_reducible repeat' first | assumption | apply canonical_ite | apply canonical_Device_setLaneX | split | intro _ | dsimp only

theorem canonical_lnOut {d : Device} (l) (gs) (hd : d.Canonical) :
    (lnOut d l gs).Canonical := by
  unfold lnOut
  with_reducible repeat' first | assumption | apply canonical_ite | apply canonical_Device_setLaneX | split | intro _ | dsimp only

theorem canonical_lnSend {d : Device} (l) (syms) (hd : d.Canonical) :
    (lnSend d l syms).Canonical := by
  unfold lnSend
  with_reducible repeat' first | assumption | apply canonical_ite | apply canonical_lnOut | apply canonical_Device_setLaneX | apply canonical_Device_setBit | split | intro _ | dsimp only

theorem canonical_lnWriteTaps {d : Device} (l) (v) (hd : d.Canonical) :
    (lnWriteTaps d l v).Canonical := by
  unfold lnWriteTaps
  with_reducible repeat' first | assumption | apply canonical_ite | apply canonical_Device_wr | apply canonical_Device_raise | split | intro _ | dsimp only

theorem canonical_lnEyeScan {d : Device} (l) (ew) (eh) (hd : d.Canonical) :
    (lnEyeScan d l ew eh).Canonical := by
  unfold lnEyeScan
  with_reducible repeat' first | assumption | apply canonical_ite | apply canonical_Device_raiseIf | apply canonical_Device_set | apply canonical_Device_setLaneX | split | intro _ | dsimp only

theorem canonical_Device_setSpout {d : Device} (p) (x) (hd : d.Canonical) :
    (Device.setSpout d p x).Canonical := by
  unfold Device.setSpout
  with_reducible repeat' first | assumption | fail_if_no_progress apply canonical_mk | intro _ | dsimp only

theorem canonical_showClaim {d : Device} (p) (hd : d.Canonical) :
    (showClaim d p).Canonical := by
  unfold showClaim
  with_reducible repeat' first | assumption | apply canonical_ite | apply canonical_Device_setBit | apply canonical_Device_set | split | intro _ | dsimp only

theorem canonical_setSpState {d : Device} (p) (st) (hd : d.Canonical) :
    (setSpState d p st).Canonical := by
  unfold setSpState
  with_reducible repeat' first | assumption | apply canonical_showClaim | apply canonical_Device_set | intro _ | dsimp only

theorem canonical_countLimits {d : Device} (p) (n) (hd : d.Canonical) :
    (countLimits d p n).Canonical := by
  unfold countLimits
  with_reducible repeat' first | assumption | apply canonical_Device_raiseIf | apply canonical_Device_count | intro _ | dsimp only

theorem canonical_freeWindows {d : Device} (p) (s) (hd : d.Canonical) :
    (freeWindows d p s).Canonical := by
  unfold freeWindows
  with_reducible repeat' first | assumption | apply canonical_ite | apply canonical_Device_setWindows | split | intro _ | dsimp only

theorem canonical_frameOut {d : Device} (cfg) (p) (claim) (tf) (bits) (hd : d.Canonical) :
    (frameOut d cfg p claim tf bits).Canonical := by
  unfold frameOut
  with_reducible repeat' first | assumption | apply canonical_monArm | apply canonical_Device_count | apply canonical_Device_setSpout | apply canonical_lnSend | intro _ | dsimp only

theorem canonical_frameEntry {d : Device} (p) (hd : d.Canonical) :
    (frameEntry d p).Canonical := by
  unfold frameEntry
  with_reducible repeat' first | assumption | apply canonical_ite | apply canonical_Device_setSpout | apply canonical_setSpState | split | intro _ | dsimp only

theorem canonical_spoutFrameDev (p) (snoopOk) {d0 : Device} (hd0 : d0.Canonical) :
    (spoutFrameDev p snoopOk d0).Canonical := by
  unfold spoutFrameDev
  with_reducible repeat' first | assumption | apply canonical_ite | apply canonical_showClaim | apply canonical_frameEntry | apply canonical_frameConfig | apply canonical_fst (by assumption) | apply canonical_freeWindows | apply canonical_lnSend | apply canonical_snoopMismatch | apply canonical_Device_setSpout | apply canonical_frameOut | apply canonical_countLimits | split | intro _ | dsimp only

theorem canonical_setCoilFault {d : Device} (p) (g) (f) (hd : d.Canonical) :
    (setCoilFault d p g f).Canonical := by
  unfold setCoilFault
  with_reducible repeat' first | assumption | apply canonical_Device_raiseIf | apply canonical_Device_wr | intro _ | dsimp only

theorem canonical_returnValid {d : Device} (p) (t) (b) (hd : d.Canonical) :
    (returnValid d p t b).Canonical := by
  unfold returnValid
  with_reducible repeat' first | assumption | apply canonical_Device_setBit | apply canonical_Device_count | apply canonical_Device_wr | apply canonical_setCoilFault | apply canonical_Device_raiseIf | apply canonical_Device_set | apply canonical_monSlot | split | intro _ | dsimp only

theorem canonical_returnFrameDev (p) (framed) (bytes) (t) {d : Device} (hd : d.Canonical) :
    (returnFrameDev p framed bytes t d).Canonical := by
  unfold returnFrameDev
  with_reducible repeat' first | assumption | apply canonical_ite | apply canonical_returnValid | apply canonical_monSlot | apply canonical_Device_count | split | intro _ | dsimp only

theorem canonical_retLostDev (p) {d : Device} (hd : d.Canonical) :
    (retLostDev p d).Canonical := by
  unfold retLostDev
  with_reducible repeat' first | assumption | apply canonical_ite | apply canonical_Device_raise | apply canonical_Device_setBit | split | intro _ | dsimp only

theorem canonical_limitWriteDev (p) (which) (value) {d : Device} (hd : d.Canonical) :
    (limitWriteDev p which value d).Canonical := by
  unfold limitWriteDev
  with_reducible repeat' first | assumption | apply canonical_ite | apply canonical_Device_raise | apply canonical_Device_set | split | intro _ | dsimp only

theorem canonical_spoutStart {d0 : Device} (p) (hd0 : d0.Canonical) :
    (spoutStart d0 p).Canonical := by
  unfold spoutStart
  with_reducible repeat' first | assumption | apply canonical_ite | apply canonical_foldl | apply canonical_foldl_fst | apply canonical_lnPowerUp | apply canonical_setSpState | apply canonical_Device_setSpout | apply canonical_fst (by assumption) | split | intro _ | dsimp only

theorem canonical_spoutStop {d : Device} (p) (hd : d.Canonical) :
    (spoutStop d p).Canonical := by
  unfold spoutStop
  with_reducible repeat' first | assumption | apply canonical_foldl | apply canonical_foldl_fst | apply canonical_Device_setSpout | apply canonical_setSpState | apply canonical_dropPort | apply canonical_lnPowerDown | apply canonical_fst (by assumption) | intro _ | dsimp only

theorem canonical_spoutApply {new : Device} (hnew : new.Canonical) :
    (spoutApply new).Canonical := by
  unfold spoutApply
  with_reducible repeat' first | assumption | apply canonical_ite | apply canonical_foldl | apply canonical_foldl_fst | apply canonical_Device_setBit | apply canonical_spoutStart | apply canonical_spoutStop | apply canonical_fst (by assumption) | split | intro _ | dsimp only

theorem canonical_spoutsSafe {d : Device} (hd : d.Canonical) :
    (spoutsSafe d).Canonical := by
  unfold spoutsSafe
  with_reducible repeat' first | assumption | apply canonical_ite | apply canonical_foldl | apply canonical_foldl_fst | apply canonical_setSpState | apply canonical_Device_setSpout | apply canonical_Device_setWindows | apply canonical_fst (by assumption) | split | intro _ | dsimp only

theorem canonical_spoutsAwait {d : Device} (hd : d.Canonical) :
    (spoutsAwait d).Canonical := by
  unfold spoutsAwait
  with_reducible repeat' first | assumption | apply canonical_ite | apply canonical_foldl | apply canonical_foldl_fst | apply canonical_Device_setSpout | apply canonical_fst (by assumption) | split | intro _ | dsimp only

theorem canonical_spoutsClear {d : Device} (hd : d.Canonical) :
    (spoutsClear d).Canonical := by
  unfold spoutsClear
  with_reducible repeat' first | assumption | apply canonical_foldl | apply canonical_foldl_fst | apply canonical_Device_setSpout | apply canonical_fst (by assumption) | intro _ | dsimp only

theorem canonical_spoutCycle {d : Device} (c) (hd : d.Canonical) :
    (spoutCycle d c).Canonical := by
  unfold spoutCycle
  with_reducible repeat' first | assumption | apply canonical_ite | apply canonical_foldl | apply canonical_foldl_fst | apply canonical_Device_setSpout | apply canonical_fst (by assumption) | split | intro _ | dsimp only

theorem canonical_spoutCommit {d : Device} (c) (inTime) (hd : d.Canonical) :
    (spoutCommit d c inTime).Canonical := by
  unfold spoutCommit
  with_reducible repeat' first | assumption | apply canonical_ite | apply canonical_foldl | apply canonical_foldl_fst | apply canonical_Device_setSpout | apply canonical_fst (by assumption) | split | intro _ | dsimp only

theorem canonical_spoutHold {d : Device} (hd : d.Canonical) :
    (spoutHold d).Canonical := by
  unfold spoutHold
  with_reducible repeat' first | assumption | apply canonical_ite | apply canonical_foldl | apply canonical_foldl_fst | apply canonical_Device_setSpout | apply canonical_fst (by assumption) | split | intro _ | dsimp only

theorem canonical_tbAdjDev (w) {d : Device} (hd : d.Canonical) :
    (tbAdjDev w d).Canonical := by
  unfold tbAdjDev
  with_reducible repeat' first | assumption | apply canonical_ite | apply canonical_Device_raise | apply canonical_Device_wr | split | intro _ | dsimp only

theorem canonical_tbSlewDev (w) {d : Device} (hd : d.Canonical) :
    (tbSlewDev w d).Canonical := by
  unfold tbSlewDev
  with_reducible repeat' first | assumption | fail_if_no_progress apply canonical_mk | intro _ | dsimp only

theorem canonical_slewEndDev {d : Device} (hd : d.Canonical) :
    (slewEndDev d).Canonical := by
  unfold slewEndDev
  with_reducible repeat' first | assumption | apply canonical_ite | apply canonical_Device_elapse | split | intro _ | dsimp only

theorem canonical_tbStepDev {d : Device} (hd : d.Canonical) :
    (tbStepDev d).Canonical := by
  unfold tbStepDev
  with_reducible repeat' first | assumption | apply canonical_ite | fail_if_no_progress apply canonical_mk | apply canonical_Device_raise | split | intro _ | dsimp only

theorem canonical_tbCtrlDev (w) {d : Device} (hd : d.Canonical) :
    (tbCtrlDev w d).Canonical := by
  unfold tbCtrlDev
  with_reducible repeat' first | assumption | apply canonical_ite | apply canonical_Device_set | apply canonical_tbStepDev | split | intro _ | dsimp only

theorem canonical_todReadDev {d : Device} (hd : d.Canonical) :
    (todReadDev d).Canonical := by
  unfold todReadDev
  with_reducible repeat' first | assumption | apply canonical_Device_wr | intro _ | dsimp only

theorem canonical_tsqPush {d : Device} (tx) (msgType) (domain) (seqId) (t) (hd : d.Canonical) :
    (tsqPush d tx msgType domain seqId t).Canonical := by
  unfold tsqPush
  with_reducible repeat' first | assumption | apply canonical_ite | fail_if_no_progress apply canonical_mk | apply canonical_Device_raise | apply canonical_Device_count | split | intro _ | dsimp only

theorem canonical_tsqReadDev {d : Device} (hd : d.Canonical) :
    (tsqReadDev d).Canonical := by
  unfold tsqReadDev
  with_reducible repeat' first | assumption | fail_if_no_progress apply canonical_mk | apply canonical_Device_set | apply canonical_Device_setBit | apply canonical_Device_setPair | apply canonical_Device_wr | split | intro _ | dsimp only

theorem canonical_ppsOutDev (fall) {d : Device} (hd : d.Canonical) :
    (ppsOutDev fall d).Canonical := by
  unfold ppsOutDev
  with_reducible repeat' first | assumption | apply canonical_ite | fail_if_no_progress apply canonical_mk | apply canonical_Device_elapseTo | apply canonical_Device_emit | split | intro _ | dsimp only

theorem canonical_ppsInDev (rising) (t) (held) {d : Device} (hd : d.Canonical) :
    (ppsInDev rising t held d).Canonical := by
  unfold ppsInDev
  with_reducible repeat' first | assumption | apply canonical_ite | apply canonical_Device_raise | apply canonical_Device_setPair | split | intro _ | dsimp only

end Sys2Proof.Machine
end

