-- ==== Sys2Proof/Laws/CanonicalIntake.lean ====
section
/-! SUPPORT. Operations of LinkRx, Peer, DmaOps, Dram, Capture, Reservoir, CamPort keep every store in its canonical form. -/

namespace Sys2Proof.Machine

set_option Elab.async false
set_option linter.unusedTactic false
set_option linter.unreachableTactic false

theorem canonical_linkReceive {d : Device} (ls) (held) (x) (hd : d.Canonical) :
    (linkReceive d ls held x).1.Canonical := by
  unfold linkReceive
  with_reducible repeat' first | assumption | apply canonical_ite | apply canonical_foldl | apply canonical_foldl_fst | apply canonical_Device_setLaneX | apply canonical_fst (by assumption) | split | intro _ | dsimp only

theorem canonical_peerEnter {d : Device} (n) (st) (hd : d.Canonical) :
    (peerEnter d n st).Canonical := by
  unfold peerEnter
  with_reducible repeat' first | assumption | apply canonical_ite | apply canonical_Device_set | apply canonical_Device_setPeer | apply canonical_Device_setBit | split | intro _ | dsimp only

theorem canonical_sendHello {d : Device} (n) (hd : d.Canonical) :
    (sendHello d n).Canonical := by
  unfold sendHello
  with_reducible repeat' first | assumption | apply canonical_queueFrame | intro _ | dsimp only

theorem canonical_dropReady {d : Device} (n) (hd : d.Canonical) :
    (dropReady d n).Canonical := by
  unfold dropReady
  with_reducible repeat' first | assumption | apply canonical_Device_count | split | intro _ | dsimp only

theorem canonical_peerTrainStop {d : Device} (n) (hd : d.Canonical) :
    (peerTrainStop d n).Canonical := by
  unfold peerTrainStop
  with_reducible repeat' first | assumption | apply canonical_foldl | apply canonical_foldl_fst | apply canonical_Device_setBit | apply canonical_trainCut | apply canonical_fst (by assumption) | intro _ | dsimp only

theorem canonical_peerTrainIssue {d : Device} (n) (hd : d.Canonical) :
    (peerTrainIssue d n).Canonical := by
  unfold peerTrainIssue
  with_reducible repeat' first | assumption | apply canonical_ite | apply canonical_Device_setLaneX | apply canonical_queueFrame | apply canonical_Device_setPeer | split | intro _ | dsimp only

theorem canonical_peerTrainFrom {d : Device} (n) (x2) (x3) (hd : d.Canonical) :
    (peerTrainFrom d n x2 x3).Canonical := by
  fun_induction peerTrainFrom
  all_goals with_reducible repeat' first | assumption | apply canonical_ite | fail_if_no_progress apply canonical_mk | apply canonical_Device_setBit | apply canonical_Device_setPeer | apply canonical_Device_setLaneX | apply canonical_trainFinish | apply canonical_peerEnter | apply canonical_peerTrainIssue | split | intro _ | dsimp only | apply_assumption

theorem canonical_peerLoss (n) {d : Device} (hd : d.Canonical) :
    (peerLoss n d).Canonical := by
  unfold peerLoss
  with_reducible repeat' first | assumption | apply canonical_ite | apply canonical_Device_raise | apply canonical_Device_count | apply canonical_dropReady | apply canonical_masterReset | apply canonical_peerTrainStop | apply canonical_peerEnter | apply canonical_Device_setPeer | apply canonical_Device_withPair | apply canonical_peerTrainFrom | split | intro _ | dsimp only

theorem canonical_peerCheck (n) {d : Device} (hd : d.Canonical) :
    (peerCheck n d).Canonical := by
  unfold peerCheck
  with_reducible repeat' first | assumption | apply canonical_ite | apply canonical_peerTrainFrom | apply canonical_peerEnter | apply canonical_peerLoss | split | intro _ | dsimp only

theorem canonical_peerApply {d0 : Device} (hd0 : d0.Canonical) :
    (peerApply d0).Canonical := by
  unfold peerApply
  with_reducible repeat' first | assumption | apply canonical_ite | apply canonical_foldl | apply canonical_foldl_fst | apply canonical_peerCheck | apply canonical_peerEnter | apply canonical_lnPowerUp | apply canonical_peerTrainStop | apply canonical_dropReady | apply canonical_lnPowerDown | apply canonical_Device_setPeer | apply canonical_fst (by assumption) | split | intro _ | dsimp only

theorem canonical_peerTimeoutDev (n) {d : Device} (hd : d.Canonical) :
    (peerTimeoutDev n d).Canonical := by
  unfold peerTimeoutDev
  with_reducible repeat' first | assumption | apply canonical_ite | apply canonical_foldl | apply canonical_foldl_fst | apply canonical_peerCheck | apply canonical_lnPowerUp | apply canonical_Device_setPeer | apply canonical_lnPowerDown | apply canonical_peerTrainStop | apply canonical_dropReady | apply canonical_peerEnter | apply canonical_fst (by assumption) | split | intro _ | dsimp only

theorem canonical_peerRxTimeoutDev (n) {d : Device} (hd : d.Canonical) :
    (peerRxTimeoutDev n d).Canonical := by
  unfold peerRxTimeoutDev
  with_reducible repeat' first | assumption | apply canonical_ite | apply canonical_peerLoss | split | intro _ | dsimp only

theorem canonical_peerDeskewDev (n) {d : Device} (hd : d.Canonical) :
    (peerDeskewDev n d).Canonical := by
  unfold peerDeskewDev
  with_reducible repeat' first | assumption | apply canonical_ite | apply canonical_Device_setPeer | apply canonical_sendHello | apply canonical_peerEnter | split | intro _ | dsimp only

theorem canonical_peerReceive (n) {d : Device} (hd : d.Canonical) :
    (peerReceive n d).Canonical := by
  unfold peerReceive
  with_reducible repeat' first | assumption | apply canonical_ite | apply canonical_linkReceive | apply canonical_fst (by assumption) | apply canonical_Device_setPeer | split | intro _ | dsimp only

theorem canonical_peerTrainNext {d : Device} (n) (k) (nx) (hd : d.Canonical) :
    (peerTrainNext d n k nx).Canonical := by
  unfold peerTrainNext
  with_reducible repeat' first | assumption | apply canonical_ite | apply canonical_peerTrainIssue | apply canonical_Device_setLaneX | apply canonical_trainFinish | apply canonical_peerTrainFrom | split | intro _ | dsimp only

theorem canonical_peerTrainReply (n) (word) {d : Device} (hd : d.Canonical) :
    (peerTrainReply n word d).Canonical := by
  unfold peerTrainReply
  with_reducible repeat' first | assumption | apply canonical_ite | apply canonical_Device_setPeer | apply canonical_peerTrainIssue | apply canonical_peerTrainNext | split | intro _ | dsimp only

theorem canonical_peerTrainTimeout (n) {d : Device} (hd : d.Canonical) :
    (peerTrainTimeout n d).Canonical := by
  unfold peerTrainTimeout
  with_reducible repeat' first | assumption | apply canonical_ite | apply canonical_peerTrainIssue | apply canonical_Device_setPeer | apply canonical_queueFrame | apply canonical_Device_setLaneX | apply canonical_peerTrainNext | split | intro _ | dsimp only

theorem canonical_peerRetrain (n) (k) {d : Device} (hd : d.Canonical) :
    (peerRetrain n k d).Canonical := by
  unfold peerRetrain
  with_reducible repeat' first | assumption | apply canonical_ite | apply canonical_peerTrainNext | apply canonical_Device_setBit | apply canonical_trainFinish | split | intro _ | dsimp only

theorem canonical_peerEyeScan (n) (k) (ew) (eh) {d : Device} (hd : d.Canonical) :
    (peerEyeScan n k ew eh d).Canonical := by
  unfold peerEyeScan
  with_reducible repeat' first | assumption | apply canonical_peerTrainNext | split | intro _ | dsimp only

theorem canonical_peerTrainRequest (n) (word) {d : Device} (hd : d.Canonical) :
    (peerTrainRequest n word d).Canonical := by
  unfold peerTrainRequest
  with_reducible repeat' first | assumption | apply canonical_ite | apply canonical_Device_set | apply canonical_queueFrame | split | intro _ | dsimp only

theorem canonical_columnsOut {d : Device} (n) (cols) (hd : d.Canonical) :
    (columnsOut d n cols).Canonical := by
  unfold columnsOut
  with_reducible repeat' first | assumption | apply canonical_lnSend | apply canonical_Device_setPeer | split | intro _ | dsimp only

theorem canonical_frameLeaves {d : Device} (n) (f0) (hd : d.Canonical) :
    (frameLeaves d n f0).Canonical := by
  unfold frameLeaves
  with_reducible repeat' first | assumption | apply canonical_ite | apply canonical_columnsOut | apply canonical_Device_count | apply canonical_Device_setPeer | split | intro _ | dsimp only

theorem canonical_peerSendDev (n) {d : Device} (hd : d.Canonical) :
    (peerSendDev n d).Canonical := by
  unfold peerSendDev
  with_reducible repeat' first | assumption | apply canonical_ite | apply canonical_columnsOut | apply canonical_frameLeaves | apply canonical_Device_setPeer | split | intro _ | dsimp only

theorem canonical_peerRetransmitDev (n) (rel) {d : Device} (hd : d.Canonical) :
    (peerRetransmitDev n rel d).Canonical := by
  unfold peerRetransmitDev
  with_reducible repeat' first | assumption | apply canonical_ite | apply canonical_Device_raise | apply canonical_peerLoss | apply canonical_Device_setPeer | apply canonical_Device_count | apply canonical_queueFrame | split | intro _ | dsimp only

theorem canonical_peerAck (n) (rel) {d : Device} (hd : d.Canonical) :
    (peerAck n rel d).Canonical := by
  unfold peerAck
  with_reducible repeat' first | assumption | apply canonical_Device_setPeer | intro _ | dsimp only

theorem canonical_peerForward {d : Device} (n) (h) (b) (hd : d.Canonical) :
    (peerForward d n h b).Canonical := by
  unfold peerForward
  with_reducible repeat' first | assumption | apply canonical_ite | apply canonical_Device_raise | apply canonical_Device_count | apply canonical_queueFrame | split | intro _ | dsimp only

theorem canonical_peerArrive (n) (h) (b) {d : Device} (hd : d.Canonical) :
    (peerArrive n h b d).1.Canonical := by
  unfold peerArrive
  with_reducible repeat' first | assumption | apply canonical_ite | apply canonical_Device_setPeer | apply canonical_Device_count | apply canonical_Device_raise | apply canonical_peerForward | apply canonical_queueFrame | split | intro _ | dsimp only

theorem canonical_peerCrcDev (n) (snoop) {d : Device} (hd : d.Canonical) :
    (peerCrcDev n snoop d).Canonical := by
  unfold peerCrcDev
  with_reducible repeat' first | assumption | apply canonical_ite | apply canonical_Device_raise | apply canonical_Device_count | apply canonical_snoopMismatch | split | intro _ | dsimp only

theorem canonical_helloRx (n) (h) {d : Device} (hd : d.Canonical) :
    (helloRx n h d).Canonical := by
  unfold helloRx
  with_reducible repeat' first | assumption | apply canonical_ite | apply canonical_Device_setPeer | apply canonical_Device_set | apply canonical_Device_raise | apply canonical_peerEnter | split | intro _ | dsimp only

theorem canonical_helloRepeatDev (n) {d : Device} (hd : d.Canonical) :
    (helloRepeatDev n d).Canonical := by
  unfold helloRepeatDev
  with_reducible repeat' first | assumption | apply canonical_ite | apply canonical_sendHello | split | intro _ | dsimp only

theorem canonical_peerTimeDueDev (n) {d : Device} (hd : d.Canonical) :
    (peerTimeDueDev n d).Canonical := by
  unfold peerTimeDueDev
  with_reducible repeat' first | assumption | apply canonical_ite | apply canonical_queueFrame | split | intro _ | dsimp only

theorem canonical_timeRx (n) (h) (b) {d : Device} (hd : d.Canonical) :
    (timeRx n h b d).Canonical := by
  unfold timeRx
  with_reducible repeat' first | assumption | apply canonical_Device_setPeer | apply canonical_Device_set | split | intro _ | dsimp only

theorem canonical_Device_withChan {d : Device} (c) (f) (hd : d.Canonical) :
    (Device.withChan d c f).Canonical := by
  unfold Device.withChan
  with_reducible repeat' first | assumption | fail_if_no_progress apply canonical_mk | intro _ | dsimp only

theorem canonical_setDma {d : Device} (c) (st) (hd : d.Canonical) :
    (setDma d c st).Canonical := by
  unfold setDma
  with_reducible repeat' first | assumption | apply canonical_ite | apply canonical_Device_set | apply canonical_Device_withChan | split | intro _ | dsimp only

theorem canonical_dmaFlag {d : Device} (f) (hd : d.Canonical) :
    (dmaFlag d f).Canonical := by
  unfold dmaFlag
  with_reducible repeat' first | assumption | apply canonical_Device_raise | intro _ | dsimp only

theorem canonical_dmaBegin {d : Device} (c) (hd : d.Canonical) :
    (dmaBegin d c).Canonical := by
  unfold dmaBegin
  with_reducible repeat' first | assumption | apply canonical_ite | apply canonical_Device_withChan | apply canonical_Device_wr | apply canonical_setDma | split | intro _ | dsimp only

theorem canonical_dmaEnter {d : Device} (c) (hd : d.Canonical) :
    (dmaEnter d c).Canonical := by
  unfold dmaEnter
  with_reducible repeat' first | assumption | apply canonical_ite | apply canonical_setDma | apply canonical_dmaBegin | split | intro _ | dsimp only

theorem canonical_dmaTrigger {d : Device} (c) (hd : d.Canonical) :
    (dmaTrigger d c).Canonical := by
  unfold dmaTrigger
  with_reducible repeat' first | assumption | apply canonical_Device_withChan | apply canonical_dmaBegin | intro _ | dsimp only

theorem canonical_dmaStartDev (c) {d : Device} (hd : d.Canonical) :
    (dmaStartDev c d).Canonical := by
  unfold dmaStartDev
  with_reducible repeat' first | assumption | apply canonical_ite | apply canonical_dmaEnter | apply canonical_dmaFlag | apply canonical_dmaTrigger | split | intro _ | dsimp only

theorem canonical_dmaOnRill {d : Device} (r) (hd : d.Canonical) :
    (dmaOnRill d r).Canonical := by
  unfold dmaOnRill
  with_reducible repeat' first | assumption | apply canonical_ite | apply canonical_foldl | apply canonical_foldl_fst | apply canonical_dmaTrigger | apply canonical_dmaFlag | apply canonical_fst (by assumption) | split | intro _ | dsimp only

theorem canonical_dmaFieldDev (c) (k) (w) {d : Device} (hd : d.Canonical) :
    (dmaFieldDev c k w d).Canonical := by
  unfold dmaFieldDev
  with_reducible repeat' first | assumption | apply canonical_ite | apply canonical_Device_wr | apply canonical_dmaFlag | split | intro _ | dsimp only

theorem canonical_dmaShadowDev (c) (k) (w) {d : Device} (hd : d.Canonical) :
    (dmaShadowDev c k w d).Canonical := by
  unfold dmaShadowDev
  with_reducible repeat' first | assumption | apply canonical_ite | apply canonical_dmaFlag | apply canonical_Device_wr | split | intro _ | dsimp only

theorem canonical_dmaArmDev (c) {d : Device} (hd : d.Canonical) :
    (dmaArmDev c d).Canonical := by
  unfold dmaArmDev
  with_reducible repeat' first | assumption | apply canonical_ite | apply canonical_dmaFlag | apply canonical_Device_set | split | intro _ | dsimp only

theorem canonical_dmaPauseDev (c) {d : Device} (hd : d.Canonical) :
    (dmaPauseDev c d).Canonical := by
  unfold dmaPauseDev
  with_reducible repeat' first | assumption | apply canonical_ite | apply canonical_Device_set | apply canonical_setDma | split | intro _ | dsimp only

theorem canonical_dmaResumeDev (c) {d : Device} (hd : d.Canonical) :
    (dmaResumeDev c d).Canonical := by
  unfold dmaResumeDev
  with_reducible repeat' first | assumption | apply canonical_ite | apply canonical_Device_set | apply canonical_setDma | split | intro _ | dsimp only

theorem canonical_dmaDiscard {d : Device} (c) (hd : d.Canonical) :
    (dmaDiscard d c).Canonical := by
  unfold dmaDiscard
  with_reducible repeat' first | assumption | apply canonical_Device_withChan | intro _ | dsimp only

theorem canonical_dmaReturned {d : Device} (c) (hd : d.Canonical) :
    (dmaReturned d c).Canonical := by
  unfold dmaReturned
  with_reducible repeat' first | assumption | fail_if_no_progress apply canonical_mk | intro _ | dsimp only

theorem canonical_dmaAborted {d : Device} (c) (hd : d.Canonical) :
    (dmaAborted d c).Canonical := by
  unfold dmaAborted
  with_reducible repeat' first | assumption | apply canonical_ite | apply canonical_Device_set | apply canonical_dmaFlag | apply canonical_setDma | apply canonical_dmaReturned | apply canonical_dmaDiscard | split | intro _ | dsimp only

theorem canonical_dmaHandOver {d : Device} (c) (hd : d.Canonical) :
    (dmaHandOver d c).Canonical := by
  unfold dmaHandOver
  with_reducible repeat' first | assumption | apply canonical_ite | apply canonical_foldl | apply canonical_foldl_fst | apply canonical_Device_wr | apply canonical_Device_set | apply canonical_dmaEnter | apply canonical_dmaFlag | apply canonical_setDma | apply canonical_fst (by assumption) | split | intro _ | dsimp only

theorem canonical_dmaCompleted {d : Device} (c) (hd : d.Canonical) :
    (dmaCompleted d c).Canonical := by
  unfold dmaCompleted
  with_reducible repeat' first | assumption | apply canonical_dmaHandOver | apply canonical_dmaFlag | apply canonical_Device_emit | apply canonical_Device_count | intro _ | dsimp only

theorem canonical_dmaHalt {d : Device} (c) (flag) (addr) (write) (cause) (hd : d.Canonical) :
    (dmaHalt d c flag addr write cause).Canonical := by
  unfold dmaHalt
  with_reducible repeat' first | assumption | apply canonical_ite | apply canonical_Device_withChan | apply canonical_dmaReturned | apply canonical_dmaDiscard | apply canonical_dmaFlag | apply canonical_setDma | apply canonical_Device_set | apply canonical_Device_setBit | apply canonical_Device_setPair | split | intro _ | dsimp only

theorem canonical_dmaStops {d : Device} (c) (addr) (write) (cause) (hd : d.Canonical) :
    (dmaStops d c addr write cause).Canonical := by
  unfold dmaStops
  with_reducible repeat' first | assumption | apply canonical_ite | apply canonical_latchBusError | apply canonical_dmaHalt | apply canonical_Device_withChan | apply canonical_setDma | split | intro _ | dsimp only

theorem canonical_dmaFail {d : Device} (c) (addr) (hd : d.Canonical) :
    (dmaFail d c addr).Canonical := by
  unfold dmaFail
  with_reducible repeat' first | assumption | apply canonical_dmaStops | intro _ | dsimp only

theorem canonical_dmaDomainPause {d : Device} (k) (lo) (hi) (hd : d.Canonical) :
    (dmaDomainPause d k lo hi).Canonical := by
  unfold dmaDomainPause
  with_reducible repeat' first | assumption | apply canonical_ite | apply canonical_foldl | apply canonical_foldl_fst | apply canonical_Device_set | apply canonical_setDma | apply canonical_dmaFlag | apply canonical_Device_withChan | apply canonical_fst (by assumption) | split | intro _ | dsimp only

theorem canonical_Device_setCtl {d : Device} (n) (x) (hd : d.Canonical) :
    (Device.setCtl d n x).Canonical := by
  unfold Device.setCtl
  with_reducible repeat' first | assumption | fail_if_no_progress apply canonical_mk | intro _ | dsimp only

theorem canonical_portError {d : Device} (port) (source) (addr) (write) (cause) (hd : d.Canonical) :
    (portError d port source addr write cause).Canonical := by
  unfold portError
  with_reducible repeat' first | assumption | apply canonical_ite | fail_if_no_progress apply canonical_mk | apply canonical_busError | apply canonical_dmaStops | split | intro _ | dsimp only

theorem canonical_memRequestDev (port) (source) (a) (len) (write) (data) (cycle) {d : Device} (hd : d.Canonical) :
    (memRequestDev port source a len write data cycle d).Canonical := by
  unfold memRequestDev
  refine canonical_ite (fun _ => canonical_portError _ _ _ _ _ hd) (fun _ => canonical_ite (fun _ => canonical_portError _ _ _ _ _ hd) (fun _ => ?_))
  extract_lets
  exact canonical_mk (canonical_Device_setCtl _ _ hd) ..

theorem canonical_latchErr {d : Device} (n) (r) (uncorr) (word) (syndrome) (hd : d.Canonical) :
    (latchErr d n r uncorr word syndrome).Canonical := by
  unfold latchErr
  with_reducible repeat' first | assumption | apply canonical_ite | apply canonical_Device_set | apply canonical_Device_setBit | apply canonical_Device_setPair | split | intro _ | dsimp only

theorem canonical_refreshDebtDev (n) {d : Device} (hd : d.Canonical) :
    (refreshDebtDev n d).Canonical := by
  unfold refreshDebtDev
  with_reducible repeat' first | assumption | apply canonical_ite | apply canonical_Device_setI | split | intro _ | dsimp only

theorem canonical_refreshIssueDev (n) {d : Device} (hd : d.Canonical) :
    (refreshIssueDev n d).Canonical := by
  unfold refreshIssueDev
  with_reducible repeat' first | assumption | apply canonical_ite | apply canonical_Device_setCtl | apply canonical_Device_setI | apply canonical_Device_raise | apply canonical_Device_count | split | intro _ | dsimp only

theorem canonical_cacheFetch {d : Device} (n) (key) (hd : d.Canonical) :
    (cacheFetch d n key).Canonical := by
  unfold cacheFetch
  with_reducible repeat' first | assumption | apply canonical_ite | fail_if_no_progress apply canonical_mk | apply canonical_Device_setCtl | apply canonical_Device_setBytes | split | intro _ | dsimp only

theorem canonical_writeBurst {d : Device} (n) (a) (burst) (hd : d.Canonical) :
    (writeBurst d n a burst).Canonical := by
  unfold writeBurst
  with_reducible repeat' first | assumption | apply canonical_ite | apply canonical_Device_setBytes | apply canonical_cacheFetch | apply canonical_Device_setCtl | split | intro _ | dsimp only

theorem canonical_clientError {d : Device} (r) (hd : d.Canonical) :
    (clientError d r).Canonical := by
  unfold clientError
  with_reducible repeat' first | assumption | fail_if_no_progress apply canonical_mk | apply canonical_dmaFail | apply canonical_discardRun | apply canonical_portError | split | intro _ | dsimp only

theorem canonical_wordError (n) (r) {d : Device} (e) (hd : d.Canonical) :
    (wordError n r d e).Canonical := by
  unfold wordError
  with_reducible repeat' first | assumption | apply canonical_latchErr | apply canonical_Device_fault | apply canonical_Device_raise | apply canonical_Device_count | split | intro _ | dsimp only

theorem canonical_deliverRead {d : Device} (r) (data) (hd : d.Canonical) :
    (deliverRead d r data).Canonical := by
  unfold deliverRead
  with_reducible repeat' first | assumption | fail_if_no_progress apply canonical_mk | intro _ | dsimp only

theorem canonical_finishReq {d : Device} (m) (hd : d.Canonical) :
    (finishReq d m).Canonical := by
  unfold finishReq
  with_reducible repeat' first | assumption | apply canonical_ite | apply canonical_clientError | apply canonical_deliverRead | split | intro _ | dsimp only

theorem canonical_completeReq {d : Device} (m) (hd : d.Canonical) :
    (completeReq d m).Canonical := by
  unfold completeReq
  with_reducible repeat' first | assumption | apply canonical_ite | apply canonical_foldl | apply canonical_foldl_fst | fail_if_no_progress apply canonical_mk | apply canonical_finishReq | apply canonical_fst (by assumption) | split | intro _ | dsimp only

theorem canonical_readBurst {d : Device} (n) (r) (wrong) (hd : d.Canonical) :
    (readBurst d n r wrong).Canonical := by
  unfold readBurst
  with_reducible repeat' first | assumption | apply canonical_ite | apply canonical_foldl | apply canonical_foldl_fst | apply canonical_wordError | apply canonical_cacheFetch | apply canonical_Device_count | apply canonical_writeBurst | apply canonical_fst (by assumption) | split | intro _ | dsimp only

theorem canonical_moveBytes {d : Device} (n) (r) (wrong) (hd : d.Canonical) :
    (moveBytes d n r wrong).Canonical := by
  unfold moveBytes
  with_reducible repeat' first | assumption | apply canonical_ite | apply canonical_foldl | apply canonical_foldl_fst | apply canonical_completeReq | apply canonical_Device_setBytes | apply canonical_writeBurst | apply canonical_Device_count | apply canonical_wordError | apply canonical_readBurst | apply canonical_fst (by assumption) | split | intro _ | dsimp only

theorem canonical_refreshFirst {d : Device} (n) (ready) (hd : d.Canonical) :
    (refreshFirst d n ready).Canonical := by
  unfold refreshFirst
  with_reducible repeat' first | assumption | apply canonical_ite | apply canonical_refreshIssueDev | split | intro _ | dsimp only

theorem canonical_startSlot (n) {d : Device} (hd : d.Canonical) :
    (startSlot n d).Canonical := by
  unfold startSlot
  with_reducible repeat' first | assumption | apply canonical_ite | apply canonical_Device_raise | apply canonical_Device_count | apply canonical_Device_set | apply canonical_Device_setCtl | split | intro _ | dsimp only

theorem canonical_memCompleteDev (n) (ready) (wrong) (cycle) {d : Device} (hd : d.Canonical) :
    (memCompleteDev n ready wrong cycle d).Canonical := by
  unfold memCompleteDev
  with_reducible repeat' first | assumption | apply canonical_ite | apply canonical_refreshFirst | apply canonical_Device_setCtl | apply canonical_Device_count | apply canonical_startSlot | apply canonical_moveBytes | split | intro _ | dsimp only

theorem canonical_urgencyDev (n) (k) {d : Device} (hd : d.Canonical) :
    (urgencyDev n k d).Canonical := by
  unfold urgencyDev
  with_reducible repeat' first | assumption | apply canonical_ite | apply canonical_Device_setCtl | apply canonical_Device_raiseIf | apply canonical_Device_count | split | intro _ | dsimp only

theorem canonical_mr4Dev (n) (mult) (hot) {d : Device} (hd : d.Canonical) :
    (mr4Dev n mult hot d).Canonical := by
  unfold mr4Dev
  with_reducible repeat' first | assumption | apply canonical_ite | apply canonical_Device_set | apply canonical_Device_fault | apply canonical_Device_raise | split | intro _ | dsimp only

theorem canonical_memInitDev (w) {d : Device} (hd : d.Canonical) :
    (memInitDev w d).Canonical := by
  unfold memInitDev
  with_reducible repeat' first | assumption | apply canonical_ite | apply canonical_foldl | apply canonical_foldl_fst | fail_if_no_progress apply canonical_mk | apply canonical_Device_wr | apply canonical_Device_raise | apply canonical_Device_setCtl | apply canonical_Device_set | apply canonical_fst (by assumption) | split | intro _ | dsimp only

theorem canonical_memTrained (n) (ok) {d : Device} (hd : d.Canonical) :
    (memTrained n ok d).Canonical := by
  unfold memTrained
  with_reducible repeat' first | assumption | apply canonical_ite | apply canonical_Device_set | apply canonical_Device_setI | apply canonical_Device_raise | split | intro _ | dsimp only

theorem canonical_driftCheckDev (n) (ps) {d : Device} (hd : d.Canonical) :
    (driftCheckDev n ps d).Canonical := by
  unfold driftCheckDev
  with_reducible repeat' first | assumption | apply canonical_ite | apply canonical_startSlot | apply canonical_Device_setCtl | split | intro _ | dsimp only

theorem canonical_driftDoneDev (n) (ok) {d : Device} (hd : d.Canonical) :
    (driftDoneDev n ok d).Canonical := by
  unfold driftDoneDev
  with_reducible repeat' first | assumption | apply canonical_ite | apply canonical_Device_set | apply canonical_Device_fault | apply canonical_Device_raise | split | intro _ | dsimp only

theorem canonical_setLeft {d : Device} (k) (n) (hd : d.Canonical) :
    (setLeft d k n).Canonical := by
  unfold setLeft
  with_reducible repeat' first | assumption | apply canonical_Device_setBit | apply canonical_Device_set | intro _ | dsimp only

theorem canonical_captureApply (old) {new : Device} (hnew : new.Canonical) :
    (captureApply old new).Canonical := by
  unfold captureApply
  with_reducible repeat' first | assumption | apply canonical_ite | apply canonical_foldl | apply canonical_foldl_fst | fail_if_no_progress apply canonical_mk | apply canonical_fst (by assumption) | split | intro _ | dsimp only

theorem canonical_capSelect (c) (rill) (k) {acc : Device × List CapWindow} (hacc : acc.1.Canonical) :
    (capSelect c rill k acc).1.Canonical := by
  unfold capSelect
  with_reducible repeat' first | assumption | apply canonical_ite | fail_if_no_progress apply canonical_mk | apply canonical_setLeft | apply canonical_Device_set | apply canonical_fst (by assumption) | split | intro _ | dsimp only

theorem canonical_takeKeys {d : Device} (hd : d.Canonical) :
    (takeKeys d).Canonical := by
  unfold takeKeys
  with_reducible repeat' first | assumption | apply canonical_foldl | apply canonical_foldl_fst | fail_if_no_progress apply canonical_mk | apply canonical_fst (by assumption) | intro _ | dsimp only

theorem canonical_capGroupStart {d : Device} (c) (allowed) (hd : d.Canonical) :
    (capGroupStart d c allowed).Canonical := by
  unfold capGroupStart
  with_reducible repeat' first | assumption | apply canonical_ite | apply canonical_foldl | apply canonical_foldl_fst | fail_if_no_progress apply canonical_mk | apply canonical_takeKeys | apply canonical_Device_setBit | apply canonical_capSelect | apply canonical_fst (by assumption) | apply canonical_Device_raise | apply canonical_Device_count | apply canonical_Device_set | split | intro _ | dsimp only

theorem canonical_capOnRill {d : Device} (r) (hd : d.Canonical) :
    (capOnRill d r).Canonical := by
  unfold capOnRill
  with_reducible repeat' first | assumption | apply canonical_ite | apply canonical_foldl | apply canonical_foldl_fst | apply canonical_Device_count | apply canonical_setLeft | apply canonical_fst (by assumption) | split | intro _ | dsimp only

theorem canonical_showCapture {d : Device} (hd : d.Canonical) :
    (showCapture d).Canonical := by
  unfold showCapture
  with_reducible repeat' first | assumption | apply canonical_Device_setBit | apply canonical_Device_set | intro _ | dsimp only

theorem canonical_placeBlock {d : Device} (b) (hd : d.Canonical) :
    (placeBlock d b).Canonical := by
  unfold placeBlock
  with_reducible repeat' first | assumption | apply canonical_ite | fail_if_no_progress apply canonical_mk | apply canonical_Device_raise | apply canonical_Device_count | split | intro _ | dsimp only

theorem canonical_groupCompleteDev (bad) {d : Device} (hd : d.Canonical) :
    (groupCompleteDev bad d).Canonical := by
  unfold groupCompleteDev
  with_reducible repeat' first | assumption | apply canonical_ite | apply canonical_foldl | apply canonical_foldl_fst | fail_if_no_progress apply canonical_mk | apply canonical_showCapture | apply canonical_snoopMismatch | apply canonical_placeBlock | apply canonical_fst (by assumption) | split | intro _ | dsimp only

theorem canonical_ringWrite {d : Device} (base) (n) (p) (bs) (hd : d.Canonical) :
    (ringWrite d base n p bs).Canonical := by
  unfold ringWrite
  with_reducible repeat' first | assumption | apply canonical_Device_setBytes | intro _ | dsimp only

theorem canonical_setCapPos {d : Device} (r) (w) (i) (hd : d.Canonical) :
    (setCapPos d r w i).Canonical := by
  unfold setCapPos
  with_reducible repeat' first | assumption | apply canonical_ite | fail_if_no_progress apply canonical_mk | split | intro _ | dsimp only

theorem canonical_blockStoredDev {d : Device} (hd : d.Canonical) :
    (blockStoredDev d).Canonical := by
  unfold blockStoredDev
  with_reducible repeat' first | assumption | apply canonical_ite | fail_if_no_progress apply canonical_mk | apply canonical_showCapture | apply canonical_Device_raise | apply canonical_Device_count | apply canonical_ringWrite | apply canonical_Device_setBytes | apply canonical_setCapPos | split | intro _ | dsimp only

theorem canonical_capPosDev (idx) {d : Device} (hd : d.Canonical) :
    (capPosDev idx d).Canonical := by
  unfold capPosDev
  with_reducible repeat' first | assumption | apply canonical_ite | apply canonical_Device_setPair | split | intro _ | dsimp only

theorem canonical_meterSample (energy) (temps) {d : Device} (hd : d.Canonical) :
    (meterSample energy temps d).Canonical := by
  unfold meterSample
  with_reducible repeat' first | assumption | apply canonical_ite | apply canonical_foldl | apply canonical_foldl_fst | fail_if_no_progress apply canonical_mk | apply canonical_Device_raiseIf | apply canonical_fst (by assumption) | split | intro _ | dsimp only

theorem canonical_closeCycle {d : Device} (t) (hd : d.Canonical) :
    (closeCycle d t).Canonical := by
  unfold closeCycle
  with_reducible repeat' first | assumption | apply canonical_foldl | apply canonical_foldl_fst | fail_if_no_progress apply canonical_mk | apply canonical_Device_wr | apply canonical_fst (by assumption) | split | intro _ | dsimp only

theorem canonical_powerDemand {d : Device} (hd : d.Canonical) :
    (powerDemand d).Canonical := by
  unfold powerDemand
  with_reducible repeat' first | assumption | apply canonical_ite | fail_if_no_progress apply canonical_mk | apply canonical_Device_set | apply canonical_Device_wr | apply canonical_Device_fault | apply canonical_Device_raise | split | intro _ | dsimp only

theorem canonical_thermalDemand {d : Device} (tj) (hd : d.Canonical) :
    (thermalDemand d tj).Canonical := by
  unfold thermalDemand
  with_reducible repeat' first | assumption | apply canonical_ite | fail_if_no_progress apply canonical_mk | apply canonical_Device_raiseIf | apply canonical_Device_set | split | intro _ | dsimp only

theorem canonical_nclkStep {d : Device} (c) (tj) (hd : d.Canonical) :
    (nclkStep d c tj).Canonical := by
  unfold nclkStep
  with_reducible repeat' first | assumption | apply canonical_ite | apply canonical_Device_set | split | intro _ | dsimp only

theorem canonical_weirDecide {d : Device} (c) (tj) (hd : d.Canonical) :
    (weirDecide d c tj).Canonical := by
  unfold weirDecide
  with_reducible repeat' first | assumption | fail_if_no_progress apply canonical_mk | apply canonical_nclkStep | apply canonical_thermalDemand | apply canonical_powerDemand | intro _ | dsimp only

theorem canonical_weirStage {d : Device} (c) (hd : d.Canonical) :
    (weirStage d c).Canonical := by
  unfold weirStage
  with_reducible repeat' first | assumption | apply canonical_ite | apply canonical_foldl | apply canonical_foldl_fst | fail_if_no_progress apply canonical_mk | apply canonical_Device_raiseIf | apply canonical_Device_set | apply canonical_Device_count | apply canonical_fst (by assumption) | split | intro _ | dsimp only

theorem canonical_planWriteDev (w) (crossing) {d : Device} (hd : d.Canonical) :
    (planWriteDev w crossing d).Canonical := by
  unfold planWriteDev
  with_reducible repeat' first | assumption | apply canonical_ite | fail_if_no_progress apply canonical_mk | apply canonical_Device_set | apply canonical_Device_raise | apply canonical_pushItem | split | intro _ | dsimp only

theorem canonical_takePlan {d : Device} (c) (hd : d.Canonical) :
    (takePlan d c).Canonical := by
  unfold takePlan
  with_reducible repeat' first | assumption | fail_if_no_progress apply canonical_mk | apply canonical_Device_raise | apply canonical_Device_count | split | intro _ | dsimp only

theorem canonical_grantCycle {d : Device} (c) (hd : d.Canonical) :
    (grantCycle d c).Canonical := by
  unfold grantCycle
  with_reducible repeat' first | assumption | apply canonical_ite | fail_if_no_progress apply canonical_mk | apply canonical_Device_setBit | apply canonical_Device_set | apply canonical_setGrant | split | intro _ | dsimp only

theorem canonical_domainsApply {d : Device} (hd : d.Canonical) :
    (domainsApply d).Canonical := by
  unfold domainsApply
  with_reducible repeat' first | assumption | apply canonical_ite | apply canonical_foldl | apply canonical_foldl_fst | apply canonical_Device_setBit | apply canonical_dmaDomainPause | apply canonical_Device_set | apply canonical_fst (by assumption) | split | intro _ | dsimp only

theorem canonical_domainDownDev (k) {d : Device} (hd : d.Canonical) :
    (domainDownDev k d).Canonical := by
  unfold domainDownDev
  with_reducible repeat' first | assumption | apply canonical_ite | apply canonical_Device_set | apply canonical_Device_setBit | apply canonical_showCap | split | intro _ | dsimp only

theorem canonical_domainUpDev (k) {d : Device} (hd : d.Canonical) :
    (domainUpDev k d).Canonical := by
  unfold domainUpDev
  with_reducible repeat' first | assumption | apply canonical_ite | apply canonical_showCap | apply canonical_takeKeys | apply canonical_Device_set | split | intro _ | dsimp only

theorem canonical_rsvLater {d : Device} (hd : d.Canonical) :
    (rsvLater d).Canonical := by
  unfold rsvLater
  split
  · exact hd
  · exact canonical_domainsApply ⟨canonical_overlayRegs _ _ hd.regs, hd.tabs, hd.mem, hd.flash⟩

theorem canonical_rsvCycle {d : Device} (c) (t) (hd : d.Canonical) :
    (rsvCycle d c t).Canonical := by
  unfold rsvCycle
  with_reducible repeat' first | assumption | apply canonical_grantCycle | apply canonical_takePlan | apply canonical_weirStage | apply canonical_weirDecide | apply canonical_rsvLater | apply canonical_closeCycle | intro _ | dsimp only

theorem canonical_Device_setPort {d : Device} (p) (x) (hd : d.Canonical) :
    (Device.setPort d p x).Canonical := by
  unfold Device.setPort
  with_reducible repeat' first | assumption | fail_if_no_progress apply canonical_mk | intro _ | dsimp only

theorem canonical_countLost {d : Device} (p) (n) (hd : d.Canonical) :
    (countLost d p n).Canonical := by
  unfold countLost
  with_reducible repeat' first | assumption | apply canonical_ite | apply canonical_Device_raise | apply canonical_Device_count | split | intro _ | dsimp only

theorem canonical_loseHead {d : Device} (p) (h) (q) (hd : d.Canonical) :
    (loseHead d p h q).Canonical := by
  unfold loseHead
  with_reducible repeat' first | assumption | apply canonical_countLost | apply canonical_Device_setPort | split | intro _ | dsimp only

theorem canonical_loseAll {d : Device} (p) (hd : d.Canonical) :
    (loseAll d p).Canonical := by
  unfold loseAll
  with_reducible repeat' first | assumption | apply canonical_foldl | apply canonical_foldl_fst | apply canonical_loseHead | apply canonical_fst (by assumption) | intro _ | dsimp only

theorem canonical_ctlEnd {d : Device} (p) (result) (hd : d.Canonical) :
    (ctlEnd d p result).Canonical := by
  unfold ctlEnd
  with_reducible repeat' first | assumption | apply canonical_Device_setPort | apply canonical_Device_set | split | intro _ | dsimp only

theorem canonical_leaveRun {d : Device} (p) (hd : d.Canonical) :
    (leaveRun d p).Canonical := by
  unfold leaveRun
  with_reducible repeat' first | assumption | apply canonical_ite | apply canonical_Device_raise | apply canonical_ctlEnd | apply canonical_Device_set | apply canonical_Device_setPort | split | intro _ | dsimp only

theorem canonical_dropBackchannel {d : Device} (p) (st) (hd : d.Canonical) :
    (dropBackchannel d p st).Canonical := by
  unfold dropBackchannel
  with_reducible repeat' first | assumption | apply canonical_ite | apply canonical_ctlEnd | apply canonical_Device_setPort | split | intro _ | dsimp only

theorem canonical_portEnter {d : Device} (p) (st) (hd : d.Canonical) :
    (portEnter d p st).Canonical := by
  unfold portEnter
  with_reducible repeat' first | assumption | apply canonical_ite | apply canonical_leaveRun | apply canonical_Device_set | apply canonical_Device_setPort | apply canonical_dropBackchannel | apply canonical_loseAll | apply canonical_Device_raiseIf | split | intro _ | dsimp only

theorem canonical_regSend {d : Device} (p) (r) (hd : d.Canonical) :
    (regSend d p r).Canonical := by
  unfold regSend
  with_reducible repeat' first | assumption | apply canonical_Device_free | apply canonical_snd (by assumption) | apply canonical_Device_setPort | split | intro _ | dsimp only

theorem canonical_trainIssue {d : Device} (p) (hd : d.Canonical) :
    (trainIssue d p).Canonical := by
  unfold trainIssue
  with_reducible repeat' first | assumption | apply canonical_ite | apply canonical_Device_free | apply canonical_snd (by assumption) | apply canonical_Device_setLaneX | apply canonical_Device_setPort | split | intro _ | dsimp only

theorem canonical_timeDue {d : Device} (p) (hd : d.Canonical) :
    (timeDue d p).Canonical := by
  unfold timeDue
  with_reducible repeat' first | assumption | apply canonical_ite | apply canonical_Device_setPort | split | intro _ | dsimp only

theorem canonical_portStart {d : Device} (p) (hd : d.Canonical) :
    (portStart d p).Canonical := by
  unfold portStart
  with_reducible repeat' first | assumption | apply canonical_ite | apply canonical_portEnter | apply canonical_Device_setPort | split | intro _ | dsimp only

theorem canonical_portsOnLines {d : Device} (hd : d.Canonical) :
    (portsOnLines d).Canonical := by
  unfold portsOnLines
  with_reducible repeat' first | assumption | apply canonical_ite | apply canonical_foldl | apply canonical_foldl_fst | apply canonical_Device_setPort | apply canonical_portStart | apply canonical_fst (by assumption) | split | intro _ | dsimp only

theorem canonical_pushTrig {d : Device} (p) (h) (c) (t) (hd : d.Canonical) :
    (pushTrig d p h c t).Canonical := by
  unfold pushTrig
  with_reducible repeat' first | assumption | apply canonical_ite | apply canonical_countLost | apply canonical_Device_setPort | split | intro _ | dsimp only

theorem canonical_triggerDueDev (p) {d : Device} (hd : d.Canonical) :
    (triggerDueDev p d).Canonical := by
  unfold triggerDueDev
  with_reducible repeat' first | assumption | apply canonical_ite | apply canonical_foldl | apply canonical_foldl_fst | apply canonical_Device_asOf | apply canonical_Device_elapseTo | apply canonical_pushTrig | apply canonical_Device_setPort | apply canonical_fst (by assumption) | split | intro _ | dsimp only

theorem canonical_setRate {d : Device} (p) (rate) (hd : d.Canonical) :
    (setRate d p rate).Canonical := by
  unfold setRate
  with_reducible repeat' first | assumption | apply canonical_ite | apply canonical_foldl | apply canonical_foldl_fst | apply canonical_Device_set | apply canonical_Device_lnEnter | apply canonical_Device_setLaneX | apply canonical_fst (by assumption) | split | intro _ | dsimp only

theorem canonical_portOn {d : Device} (p) (hd : d.Canonical) :
    (portOn d p).Canonical := by
  unfold portOn
  with_reducible repeat' first | assumption | apply canonical_ite | apply canonical_foldl | apply canonical_foldl_fst | apply canonical_lnPowerUp | apply canonical_setRate | apply canonical_portEnter | apply canonical_fst (by assumption) | split | intro _ | dsimp only

theorem canonical_portLanesOff {d : Device} (p) (hd : d.Canonical) :
    (portLanesOff d p).Canonical := by
  unfold portLanesOff
  with_reducible repeat' first | assumption | apply canonical_foldl | apply canonical_foldl_fst | apply canonical_lnPowerDown | apply canonical_fst (by assumption) | intro _ | dsimp only

theorem canonical_portRestartDev (p) {d : Device} (hd : d.Canonical) :
    (portRestartDev p d).Canonical := by
  unfold portRestartDev
  with_reducible repeat' first | assumption | apply canonical_portEnter | apply canonical_portLanesOff | apply canonical_portOn | apply canonical_Device_set | intro _ | dsimp only

theorem canonical_trainStart {d : Device} (l) (byPort) (hd : d.Canonical) :
    (trainStart d l byPort).Canonical := by
  unfold trainStart
  with_reducible repeat' first | assumption | apply canonical_Device_setBit | apply canonical_Device_setLaneX | apply canonical_trainFinish | split | intro _ | dsimp only

theorem canonical_portTrain {d : Device} (p) (x2) (x3) (hd : d.Canonical) :
    (portTrain d p x2 x3).Canonical := by
  fun_induction portTrain
  all_goals with_reducible repeat' first | assumption | apply canonical_ite | fail_if_no_progress apply canonical_mk | apply canonical_Device_setPort | apply canonical_portEnter | apply canonical_trainIssue | apply canonical_trainStart | split | intro _ | dsimp only | apply_assumption

theorem canonical_portCheck (p) {d : Device} (hd : d.Canonical) :
    (portCheck p d).Canonical := by
  unfold portCheck
  with_reducible repeat' first | assumption | apply canonical_ite | apply canonical_regSend | apply canonical_portEnter | apply canonical_portTrain | split | intro _ | dsimp only

theorem canonical_camTrainNext {d : Device} (p) (k) (nx) (hd : d.Canonical) :
    (camTrainNext d p k nx).Canonical := by
  unfold camTrainNext
  with_reducible repeat' first | assumption | apply canonical_ite | apply canonical_trainIssue | apply canonical_Device_setLaneX | apply canonical_trainFinish | apply canonical_portTrain | split | intro _ | dsimp only

theorem canonical_frameErr {d : Device} (p) (hd : d.Canonical) :
    (frameErr d p).Canonical := by
  unfold frameErr
  with_reducible repeat' first | assumption | apply canonical_Device_raise | apply canonical_Device_count | intro _ | dsimp only

theorem canonical_camTrainReply (p) (tag) (word) {d : Device} (hd : d.Canonical) :
    (camTrainReply p tag word d).Canonical := by
  unfold camTrainReply
  with_reducible repeat' first | assumption | apply canonical_ite | apply canonical_frameErr | apply canonical_Device_setPort | apply canonical_trainIssue | apply canonical_camTrainNext | split | intro _ | dsimp only

theorem canonical_camTrainTimeout (p) {d : Device} (hd : d.Canonical) :
    (camTrainTimeout p d).Canonical := by
  unfold camTrainTimeout
  with_reducible repeat' first | assumption | apply canonical_ite | apply canonical_trainIssue | apply canonical_Device_setPort | apply canonical_Device_setLaneX | apply canonical_camTrainNext | split | intro _ | dsimp only

theorem canonical_camRetrain (p) (k) {d : Device} (hd : d.Canonical) :
    (camRetrain p k d).Canonical := by
  unfold camRetrain
  with_reducible repeat' first | assumption | apply canonical_ite | apply canonical_trainIssue | apply canonical_trainStart | split | intro _ | dsimp only

theorem canonical_camEyeScan (p) (k) (ew) (eh) {d : Device} (hd : d.Canonical) :
    (camEyeScan p k ew eh d).Canonical := by
  unfold camEyeScan
  with_reducible repeat' first | assumption | apply canonical_ite | apply canonical_camTrainNext | apply canonical_portEnter | apply canonical_Device_setPort | split | intro _ | dsimp only

theorem canonical_portDeskewed {d : Device} (p) (hd : d.Canonical) :
    (portDeskewed d p).Canonical := by
  unfold portDeskewed
  with_reducible repeat' first | assumption | apply canonical_ite | apply canonical_portStart | apply canonical_portEnter | apply canonical_timeDue | apply canonical_portTrain | split | intro _ | dsimp only

theorem canonical_showSkew {d : Device} (p) (skew) (hd : d.Canonical) :
    (showSkew d p skew).Canonical := by
  unfold showSkew
  with_reducible repeat' first | assumption | apply canonical_Device_setI | intro _ | dsimp only

theorem canonical_deskewGood (p) (skew) {d : Device} (hd : d.Canonical) :
    (deskewGood p skew d).Canonical := by
  unfold deskewGood
  with_reducible repeat' first | assumption | apply canonical_ite | apply canonical_Device_setPort | apply canonical_showSkew | apply canonical_portDeskewed | split | intro _ | dsimp only

theorem canonical_deskewBad (p) {d : Device} (hd : d.Canonical) :
    (deskewBad p d).Canonical := by
  unfold deskewBad
  with_reducible repeat' first | assumption | apply canonical_ite | apply canonical_Device_setPort | apply canonical_Device_raise | apply canonical_Device_count | apply canonical_portEnter | split | intro _ | dsimp only

theorem canonical_popEvent {d : Device} (p) (hd : d.Canonical) :
    (popEvent d p).Canonical := by
  unfold popEvent
  with_reducible repeat' first | assumption | apply canonical_Device_setPort | intro _ | dsimp only

theorem canonical_deskewColumnDev (p) {d : Device} (hd : d.Canonical) :
    (deskewColumnDev p d).Canonical := by
  unfold deskewColumnDev
  with_reducible repeat' first | assumption | apply canonical_deskewGood | apply canonical_popEvent | apply canonical_deskewBad | split | intro _ | dsimp only

theorem canonical_portTimeoutDev (p) {d : Device} (hd : d.Canonical) :
    (portTimeoutDev p d).Canonical := by
  unfold portTimeoutDev
  with_reducible repeat' first | assumption | apply canonical_ite | apply canonical_Device_set | apply canonical_lnPowerDown | apply canonical_portEnter | apply canonical_Device_fault | split | intro _ | dsimp only

theorem canonical_retryEndDev (p) {d : Device} (hd : d.Canonical) :
    (retryEndDev p d).Canonical := by
  unfold retryEndDev
  with_reducible repeat' first | assumption | apply canonical_ite | apply canonical_portCheck | apply canonical_portEnter | apply canonical_lnPowerUp | apply canonical_setRate | split | intro _ | dsimp only

theorem canonical_acceptLine {d : Device} (p) (h) (t) (bytes) (hd : d.Canonical) :
    (acceptLine d p h t bytes).1.Canonical := by
  unfold acceptLine
  with_reducible repeat' first | assumption | apply canonical_ite | apply canonical_Device_asOf | apply canonical_loseHead | apply canonical_Device_count | apply canonical_Device_setPort | apply canonical_Device_raise | apply canonical_Device_set | split | intro _ | dsimp only

theorem canonical_linePacket (p) (framed) (bytes) {d : Device} (hd : d.Canonical) :
    (linePacket p framed bytes d).1.Canonical := by
  unfold linePacket
  with_reducible repeat' first | assumption | apply canonical_ite | apply canonical_frameErr | apply canonical_Device_asOf | apply canonical_acceptLine | apply canonical_fst (by assumption) | apply canonical_Device_raise | apply canonical_Device_count | split | intro _ | dsimp only

theorem canonical_packetAbortDev (p) {d : Device} (hd : d.Canonical) :
    (packetAbortDev p d).Canonical := by
  unfold packetAbortDev
  with_reducible repeat' first | assumption | apply canonical_Device_raise | apply canonical_Device_count | apply canonical_popEvent | split | intro _ | dsimp only

theorem canonical_ingressOverflowDev (p) {d : Device} (hd : d.Canonical) :
    (ingressOverflowDev p d).Canonical := by
  unfold ingressOverflowDev
  with_reducible repeat' first | assumption | apply canonical_Device_raise | apply canonical_Device_count | apply canonical_popEvent | split | intro _ | dsimp only

theorem canonical_pipeRead (q) {d : Device} (hd : d.Canonical) :
    (pipeRead q d).Canonical := by
  unfold pipeRead
  with_reducible repeat' first | assumption | apply canonical_ite | fail_if_no_progress apply canonical_mk | apply canonical_Device_setPort | split | intro _ | dsimp only

theorem canonical_camReceive (p) {d0 : Device} (hd0 : d0.Canonical) :
    (camReceive p d0).Canonical := by
  unfold camReceive
  with_reducible repeat' first | assumption | apply canonical_ite | apply canonical_foldl | apply canonical_foldl_fst | apply canonical_pipeRead | apply canonical_linkReceive | apply canonical_fst (by assumption) | apply canonical_ingressHigh | apply canonical_Device_setPort | split | intro _ | dsimp only

theorem canonical_noLinesDev (p) (h) {d : Device} (hd : d.Canonical) :
    (noLinesDev p h d).Canonical := by
  unfold noLinesDev
  with_reducible repeat' first | assumption | apply canonical_ite | apply canonical_Device_raise | apply canonical_Device_setPort | split | intro _ | dsimp only

theorem canonical_bringUpReply {d : Device} (p) (purpose) (status) (data) (hd : d.Canonical) :
    (bringUpReply d p purpose status data).Canonical := by
  unfold bringUpReply
  with_reducible repeat' first | assumption | apply canonical_ite | apply canonical_regSend | apply canonical_portEnter | apply canonical_portCheck | apply canonical_setRate | split | intro _ | dsimp only

theorem canonical_firmwareReply {d : Device} (p) (r) (status) (data) (hd : d.Canonical) :
    (firmwareReply d p r status data).Canonical := by
  unfold firmwareReply
  with_reducible repeat' first | assumption | apply canonical_ite | apply canonical_foldl | apply canonical_foldl_fst | apply canonical_Device_set | apply canonical_Device_wr | apply canonical_fst (by assumption) | split | intro _ | dsimp only

theorem canonical_regReply (p) (tag) (status) (data) {d : Device} (hd : d.Canonical) :
    (regReply p tag status data d).Canonical := by
  unfold regReply
  with_reducible repeat' first | assumption | apply canonical_ite | apply canonical_frameErr | apply canonical_Device_setPort | apply canonical_firmwareReply | apply canonical_bringUpReply | split | intro _ | dsimp only

theorem canonical_regReplyDev (p) {d : Device} (hd : d.Canonical) :
    (regReplyDev p d).Canonical := by
  unfold regReplyDev
  with_reducible repeat' first | assumption | apply canonical_regReply | apply canonical_popEvent | split | intro _ | dsimp only

theorem canonical_trainReplyCam (p) {d : Device} (hd : d.Canonical) :
    (trainReplyCam p d).Canonical := by
  unfold trainReplyCam
  with_reducible repeat' first | assumption | apply canonical_camTrainReply | apply canonical_popEvent | split | intro _ | dsimp only

theorem canonical_ctlTimeoutDev (p) {d : Device} (hd : d.Canonical) :
    (ctlTimeoutDev p d).Canonical := by
  unfold ctlTimeoutDev
  with_reducible repeat' first | assumption | apply canonical_ite | apply canonical_Device_setPort | apply canonical_Device_raise | apply canonical_ctlEnd | split | intro _ | dsimp only

theorem canonical_camEventDev (p) {d : Device} (hd : d.Canonical) :
    (camEventDev p d).Canonical := by
  unfold camEventDev
  with_reducible repeat' first | assumption | apply canonical_Device_raise | apply canonical_Device_set | apply canonical_popEvent | split | intro _ | dsimp only

theorem canonical_unknownCtlDev (p) {d : Device} (hd : d.Canonical) :
    (unknownCtlDev p d).Canonical := by
  unfold unknownCtlDev
  with_reducible repeat' first | assumption | apply canonical_ite | apply canonical_frameErr | apply canonical_popEvent | apply canonical_Device_raise | split | intro _ | dsimp only

theorem canonical_ctlGoDev (p) (v) {d0 : Device} (hd0 : d0.Canonical) :
    (ctlGoDev p v d0).Canonical := by
  unfold ctlGoDev
  with_reducible repeat' first | assumption | apply canonical_ite | apply canonical_Device_set | apply canonical_Device_raise | apply canonical_regSend | split | intro _ | dsimp only

theorem canonical_expGoDev (p) (v) {d0 : Device} (hd0 : d0.Canonical) :
    (expGoDev p v d0).Canonical := by
  unfold expGoDev
  with_reducible repeat' first | assumption | apply canonical_ite | apply canonical_Device_set | apply canonical_Device_raise | apply canonical_Device_setPort | split | intro _ | dsimp only

theorem canonical_bcSend {d : Device} (p) (x) (syms) (hd : d.Canonical) :
    (bcSend d p x syms).Canonical := by
  unfold bcSend
  with_reducible repeat' first | assumption | apply canonical_lnSend | apply canonical_Device_setPort | split | intro _ | dsimp only

theorem canonical_backchannelDev (p) {d : Device} (hd : d.Canonical) :
    (backchannelDev p d).Canonical := by
  unfold backchannelDev
  with_reducible repeat' first | assumption | apply canonical_ite | apply canonical_lnSend | apply canonical_bcSend | apply canonical_Device_free | apply canonical_snd (by assumption) | apply canonical_Device_set | split | intro _ | dsimp only

end Sys2Proof.Machine
end

