-- ==== Sys2Proof/Laws/CanonicalControl.lean ====
section
/-! SUPPORT. Operations of Tio, Events, PairState, KcpOps, EthOps, Sluice, CrcUnit, Faults, LaneCmds, Bus, Boot keep every store in its canonical form. -/

namespace Sys2Proof.Machine

set_option Elab.async false
set_option linter.unusedTactic false
set_option linter.unreachableTactic false

theorem canonical_Device_setTio {d : Device} (p) (x) (hd : d.Canonical) :
    (Device.setTio d p x).Canonical := by
  unfold Device.setTio
  with_reducible repeat' first | assumption | fail_if_no_progress apply canonical_mk | intro _ | dsimp only

theorem canonical_tioShow {d : Device} (p) (active) (endAt) (hd : d.Canonical) :
    (tioShow d p active endAt).Canonical := by
  unfold tioShow
  with_reducible repeat' first | assumption | apply canonical_Device_setBit | apply canonical_Device_setTio | intro _ | dsimp only

theorem canonical_tioSchedule {d : Device} (p) (a) (b) (hd : d.Canonical) :
    (tioSchedule d p a b).Canonical := by
  unfold tioSchedule
  with_reducible repeat' first | assumption | apply canonical_ite | apply canonical_Device_raise | apply canonical_Device_count | apply canonical_Device_setTio | split | intro _ | dsimp only

theorem canonical_tioDisarm {d : Device} (p) (hd : d.Canonical) :
    (tioDisarm d p).Canonical := by
  unfold tioDisarm
  with_reducible repeat' first | assumption | apply canonical_Device_setBit | apply canonical_tioShow | apply canonical_Device_setTio | intro _ | dsimp only

theorem canonical_tioFinished {d : Device} (p) (hd : d.Canonical) :
    (tioFinished d p).Canonical := by
  unfold tioFinished
  with_reducible repeat' first | assumption | apply canonical_ite | apply canonical_tioDisarm | split | intro _ | dsimp only

theorem canonical_tioNextPeriodic {d : Device} (p) (hd : d.Canonical) :
    (tioNextPeriodic d p).Canonical := by
  unfold tioNextPeriodic
  with_reducible repeat' first | assumption | apply canonical_ite | apply canonical_tioSchedule | apply canonical_Device_setTio | split | intro _ | dsimp only

theorem canonical_tioPeriodicOn {d : Device} (p) (hd : d.Canonical) :
    (tioPeriodicOn d p).Canonical := by
  unfold tioPeriodicOn
  with_reducible repeat' first | assumption | apply canonical_ite | apply canonical_Device_raise | apply canonical_Device_count | apply canonical_tioNextPeriodic | apply canonical_Device_setTio | split | intro _ | dsimp only

theorem canonical_tioArmDev (p) {d : Device} (hd : d.Canonical) :
    (tioArmDev p d).Canonical := by
  unfold tioArmDev
  with_reducible repeat' first | assumption | apply canonical_ite | apply canonical_Device_raise | apply canonical_Device_setBit | apply canonical_Device_setTio | apply canonical_tioFinished | apply canonical_tioSchedule | apply canonical_tioPeriodicOn | split | intro _ | dsimp only

theorem canonical_tioStopDev (p) {d : Device} (hd : d.Canonical) :
    (tioStopDev p d).Canonical := by
  unfold tioStopDev
  with_reducible repeat' first | assumption | apply canonical_ite | apply canonical_tioDisarm | split | intro _ | dsimp only

theorem canonical_tioCtrlDev (p) (w) {d : Device} (hd : d.Canonical) :
    (tioCtrlDev p w d).Canonical := by
  unfold tioCtrlDev
  with_reducible repeat' first | assumption | apply canonical_ite | apply canonical_tioStopDev | apply canonical_tioArmDev | split | intro _ | dsimp only

theorem canonical_tioLinePulse {d : Device} (p) (c) (hd : d.Canonical) :
    (tioLinePulse d p c).Canonical := by
  unfold tioLinePulse
  with_reducible repeat' first | assumption | apply canonical_tioSchedule | apply canonical_Device_setTio | split | intro _ | dsimp only

theorem canonical_tioFill {d : Device} (p) (hd : d.Canonical) :
    (tioFill d p).Canonical := by
  unfold tioFill
  with_reducible repeat' first | assumption | apply canonical_ite | apply canonical_tioLinePulse | split | intro _ | dsimp only

theorem canonical_tioPulseStartDev (p) {d0 : Device} (hd0 : d0.Canonical) :
    (tioPulseStartDev p d0).Canonical := by
  unfold tioPulseStartDev
  with_reducible repeat' first | assumption | apply canonical_ite | apply canonical_tioFill | apply canonical_Device_elapseTo | apply canonical_tioShow | apply canonical_Device_setTio | apply canonical_tioPeriodicOn | split | intro _ | dsimp only

theorem canonical_tioPulseEndDev (p) {d : Device} (hd : d.Canonical) :
    (tioPulseEndDev p d).Canonical := by
  unfold tioPulseEndDev
  with_reducible repeat' first | assumption | apply canonical_ite | apply canonical_tioFill | apply canonical_tioFinished | apply canonical_tioShow | apply canonical_Device_elapseTo | split | intro _ | dsimp only

theorem canonical_tioLines {d : Device} (c) (hd : d.Canonical) :
    (tioLines d c).Canonical := by
  unfold tioLines
  with_reducible repeat' first | assumption | apply canonical_ite | apply canonical_foldl | apply canonical_foldl_fst | apply canonical_tioLinePulse | apply canonical_fst (by assumption) | split | intro _ | dsimp only

theorem canonical_tioOnLines {d : Device} (hd : d.Canonical) :
    (tioOnLines d).Canonical := by
  unfold tioOnLines
  with_reducible repeat' first | assumption | apply canonical_ite | apply canonical_foldl | apply canonical_foldl_fst | apply canonical_Device_setTio | apply canonical_fst (by assumption) | split | intro _ | dsimp only

theorem canonical_tioOnRill {d : Device} (r) (t) (hd : d.Canonical) :
    (tioOnRill d r t).Canonical := by
  unfold tioOnRill
  with_reducible repeat' first | assumption | apply canonical_ite | apply canonical_foldl | apply canonical_foldl_fst | apply canonical_tioSchedule | apply canonical_fst (by assumption) | split | intro _ | dsimp only

theorem canonical_tioSafe {d : Device} (hd : d.Canonical) :
    (tioSafe d).Canonical := by
  unfold tioSafe
  with_reducible repeat' first | assumption | apply canonical_ite | apply canonical_foldl | apply canonical_foldl_fst | apply canonical_tioDisarm | apply canonical_Device_setTio | apply canonical_fst (by assumption) | split | intro _ | dsimp only

theorem canonical_tioCaptureDev (p) (rising) (t) (held) {d : Device} (hd : d.Canonical) :
    (tioCaptureDev p rising t held d).Canonical := by
  unfold tioCaptureDev
  with_reducible repeat' first | assumption | apply canonical_ite | apply canonical_Device_raise | apply canonical_Device_set | apply canonical_Device_setTio | apply canonical_Device_emit | split | intro _ | dsimp only

theorem canonical_tioCapReadDev (p) {d : Device} (hd : d.Canonical) :
    (tioCapReadDev p d).Canonical := by
  unfold tioCapReadDev
  with_reducible repeat' first | assumption | apply canonical_ite | apply canonical_Device_set | apply canonical_Device_setTio | apply canonical_Device_wr | split | intro _ | dsimp only

theorem canonical_tioCfg {d : Device} (p) (w) (hd : d.Canonical) :
    (tioCfg d p w).Canonical := by
  unfold tioCfg
  with_reducible repeat' first | assumption | apply canonical_ite | apply canonical_Device_wr | apply canonical_Device_set | apply canonical_Device_setBit | apply canonical_Device_setTio | split | intro _ | dsimp only

theorem canonical_tioCfgWriteDev (p) (k) (w) {d : Device} (hd : d.Canonical) :
    (tioCfgWriteDev p k w d).Canonical := by
  unfold tioCfgWriteDev
  with_reducible repeat' first | assumption | apply canonical_ite | apply canonical_Device_raise | apply canonical_tioCfg | apply canonical_Device_wr | split | intro _ | dsimp only

theorem canonical_Device_setCell {d : Device} (k) (x) (hd : d.Canonical) :
    (Device.setCell d k x).Canonical := by
  unfold Device.setCell
  with_reducible repeat' first | assumption | fail_if_no_progress apply canonical_mk | intro _ | dsimp only

theorem canonical_absorbed {d : Device} (n) (hd : d.Canonical) :
    (absorbed d n).Canonical := by
  unfold absorbed
  with_reducible repeat' first | assumption | apply canonical_ite | apply canonical_Device_raise | apply canonical_Device_count | split | intro _ | dsimp only

theorem canonical_takeEvents {d : Device} (r) (n) (m) (hd : d.Canonical) :
    (takeEvents d r n m).1.Canonical := by
  unfold takeEvents
  with_reducible repeat' first | assumption | apply canonical_ite | apply canonical_foldl | apply canonical_foldl_fst | fail_if_no_progress apply canonical_mk | apply canonical_absorbed | apply canonical_fst (by assumption) | split | intro _ | dsimp only

theorem canonical_stampCell (m) {d : Device} (k) (hd : d.Canonical) :
    (stampCell m d k).Canonical := by
  unfold stampCell
  with_reducible repeat' first | assumption | apply canonical_ite | apply canonical_Device_setCell | split | intro _ | dsimp only

theorem canonical_tripCell {d : Device} (k) (hd : d.Canonical) :
    (tripCell d k).Canonical := by
  unfold tripCell
  with_reducible repeat' first | assumption | apply canonical_ite | apply canonical_Device_setCell | apply canonical_Device_fault | apply canonical_Device_raise | apply canonical_Device_setBit | apply canonical_Device_wr | split | intro _ | dsimp only

theorem canonical_commitCell (m) {d : Device} (k) (hd : d.Canonical) :
    (commitCell m d k).Canonical := by
  unfold commitCell
  with_reducible repeat' first | assumption | apply canonical_ite | apply canonical_Device_setBit | apply canonical_Device_setCell | apply canonical_tripCell | split | intro _ | dsimp only

theorem canonical_rillInterrupts {d : Device} (m) (hd : d.Canonical) :
    (rillInterrupts d m).Canonical := by
  unfold rillInterrupts
  with_reducible repeat' first | assumption | apply canonical_ite | apply canonical_foldl | apply canonical_foldl_fst | apply canonical_absorbed | apply canonical_Device_wr | apply canonical_fst (by assumption) | split | intro _ | dsimp only

theorem canonical_rillEdge {d : Device} (cfg) (n) (st) (hd : d.Canonical) :
    (rillEdge d cfg n st).Canonical := by
  unfold rillEdge
  with_reducible repeat' first | assumption | apply canonical_ite | apply canonical_beforeCtl | apply canonical_axisCatch | apply canonical_refEdge | split | intro _ | dsimp only

theorem canonical_consume {d : Device} (r) (st) (hd : d.Canonical) :
    (consume d r st).Canonical := by
  unfold consume
  with_reducible repeat' first | assumption | apply canonical_ite | apply canonical_foldl | apply canonical_foldl_fst | apply canonical_tioOnRill | apply canonical_Device_asOfTime | apply canonical_rillEdge | apply canonical_dmaOnRill | apply canonical_capOnRill | apply canonical_fst (by assumption) | split | intro _ | dsimp only

theorem canonical_takeSoft {d : Device} (hd : d.Canonical) :
    (takeSoft d).1.Canonical := by
  unfold takeSoft
  with_reducible repeat' first | assumption | apply canonical_ite | apply canonical_foldl | apply canonical_foldl_fst | fail_if_no_progress apply canonical_mk | apply canonical_absorbed | apply canonical_fst (by assumption) | split | intro _ | dsimp only

theorem canonical_evtApply (old) {new : Device} (hnew : new.Canonical) :
    (evtApply old new).Canonical := by
  unfold evtApply
  with_reducible repeat' first | assumption | apply canonical_ite | apply canonical_foldl | apply canonical_foldl_fst | apply canonical_Device_setBit | apply canonical_Device_setCell | apply canonical_fst (by assumption) | split | intro _ | dsimp only

theorem canonical_fabricSwitch {d : Device} (hd : d.Canonical) :
    (fabricSwitch d).Canonical := by
  unfold fabricSwitch
  split
  · exact hd
  · exact canonical_ite (fun _ => hd) (fun _ => canonical_evtApply _ ⟨canonical_overlayRegs _ _ hd.regs, hd.tabs, hd.mem, hd.flash⟩)

theorem canonical_eclk {d : Device} (events) (hd : d.Canonical) :
    (eclk d events).Canonical := by
  unfold eclk
  with_reducible repeat' first | assumption | apply canonical_ite | apply canonical_foldl | apply canonical_foldl_fst | fail_if_no_progress apply canonical_mk | apply canonical_takeEvents | apply canonical_fst (by assumption) | apply canonical_takeSoft | apply canonical_fabricSwitch | apply canonical_absorbed | apply canonical_commitCell | apply canonical_stampCell | apply canonical_consume | apply canonical_rillInterrupts | split | intro _ | dsimp only

theorem canonical_quiet (x0) {x1 : Device} (hx1 : x1.Canonical) :
    (quiet x0 x1).Canonical := by
  fun_induction quiet
  all_goals with_reducible repeat' first | assumption | fail_if_no_progress apply canonical_mk | apply canonical_eclk | split | intro _ | dsimp only | apply_assumption

theorem canonical_rillEventDev (idle) (events) {d : Device} (hd : d.Canonical) :
    (rillEventDev idle events d).Canonical := by
  unfold rillEventDev
  with_reducible repeat' first | assumption | apply canonical_eclk | apply canonical_quiet | split | intro _ | dsimp only

theorem canonical_cellFilterDev (k) {d : Device} (hd : d.Canonical) :
    (cellFilterDev k d).Canonical := by
  unfold cellFilterDev
  with_reducible repeat' first | assumption | apply canonical_ite | apply canonical_quiet | split | intro _ | dsimp only

theorem canonical_cellWindowDev (k) {d : Device} (hd : d.Canonical) :
    (cellWindowDev k d).Canonical := by
  unfold cellWindowDev
  with_reducible repeat' first | assumption | apply canonical_Device_setCell | intro _ | dsimp only

theorem canonical_softFire (r) {d : Device} (hd : d.Canonical) :
    (softFire r d).Canonical := by
  unfold softFire
  with_reducible repeat' first | assumption | fail_if_no_progress apply canonical_mk | intro _ | dsimp only

theorem canonical_evtFireDev (w) {d : Device} (hd : d.Canonical) :
    (evtFireDev w d).Canonical := by
  unfold evtFireDev
  with_reducible repeat' first | assumption | apply canonical_ite | apply canonical_Device_raise | apply canonical_softFire | split | intro _ | dsimp only

theorem canonical_evtRearmDev (hi) (w) {d : Device} (hd : d.Canonical) :
    (evtRearmDev hi w d).Canonical := by
  unfold evtRearmDev
  with_reducible repeat' first | assumption | apply canonical_ite | apply canonical_foldl | apply canonical_foldl_fst | apply canonical_Device_set | apply canonical_Device_setCell | apply canonical_fst (by assumption) | split | intro _ | dsimp only

theorem canonical_showPair {d : Device} (hd : d.Canonical) :
    (showPair d).Canonical := by
  unfold showPair
  with_reducible repeat' first | assumption | apply canonical_foldl | apply canonical_foldl_fst | apply canonical_showClaim | apply canonical_Device_set | apply canonical_fst (by assumption) | intro _ | dsimp only

theorem canonical_enterPair {d : Device} (st) (hd : d.Canonical) :
    (enterPair d st).Canonical := by
  unfold enterPair
  with_reducible repeat' first | assumption | apply canonical_ite | fail_if_no_progress apply canonical_mk | apply canonical_Device_withPair | apply canonical_Device_set | apply canonical_showPair | split | intro _ | dsimp only

theorem canonical_nextEpoch {d : Device} (hd : d.Canonical) :
    (nextEpoch d).Canonical := by
  unfold nextEpoch
  with_reducible repeat' first | assumption | apply canonical_Device_set | intro _ | dsimp only

theorem canonical_homeActive {d : Device} (hd : d.Canonical) :
    (homeActive d).Canonical := by
  unfold homeActive
  with_reducible repeat' first | assumption | apply canonical_ite | apply canonical_enterPair | split | intro _ | dsimp only

theorem canonical_pairApply {d : Device} (hd : d.Canonical) :
    (pairApply d).Canonical := by
  unfold pairApply
  with_reducible repeat' first | assumption | apply canonical_ite | apply canonical_Device_setBit | apply canonical_showPair | apply canonical_enterPair | split | intro _ | dsimp only

theorem canonical_pairYielded (thenJoin) {d : Device} (hd : d.Canonical) :
    (pairYielded thenJoin d).Canonical := by
  unfold pairYielded
  with_reducible repeat' first | assumption | apply canonical_ite | apply canonical_Device_raise | apply canonical_Device_withPair | split | intro _ | dsimp only

theorem canonical_yieldDev {d : Device} (hd : d.Canonical) :
    (yieldDev d).Canonical := by
  unfold yieldDev
  with_reducible repeat' first | assumption | apply canonical_pairYielded | intro _ | dsimp only

theorem canonical_rejoinDev {d : Device} (hd : d.Canonical) :
    (rejoinDev d).Canonical := by
  unfold rejoinDev
  with_reducible repeat' first | assumption | apply canonical_ite | apply canonical_enterPair | split | intro _ | dsimp only

theorem canonical_pairOutOfStep {d : Device} (hd : d.Canonical) :
    (pairOutOfStep d).Canonical := by
  unfold pairOutOfStep
  with_reducible repeat' first | assumption | apply canonical_ite | apply canonical_pairYielded | apply canonical_enterPair | split | intro _ | dsimp only

theorem canonical_digestCapture {d : Device} (hd : d.Canonical) :
    (digestCapture d).Canonical := by
  unfold digestCapture
  with_reducible repeat' first | assumption | apply canonical_Device_wr | apply canonical_Device_setPair | split | intro _ | dsimp only

theorem canonical_pairFail {d : Device} (hd : d.Canonical) :
    (pairFail d).Canonical := by
  unfold pairFail
  with_reducible repeat' first | assumption | apply canonical_enterPair | apply canonical_Device_fault | apply canonical_Device_raise | intro _ | dsimp only

theorem canonical_pairRegionReset (r) {d : Device} (hd : d.Canonical) :
    (pairRegionReset r d).Canonical := by
  unfold pairRegionReset
  with_reducible repeat' first | assumption | apply canonical_ite | apply canonical_pairYielded | split | intro _ | dsimp only

theorem canonical_pairRegionDone {d : Device} (hd : d.Canonical) :
    (pairRegionDone d).Canonical := by
  unfold pairRegionDone
  with_reducible repeat' first | assumption | apply canonical_ite | apply canonical_enterPair | split | intro _ | dsimp only

theorem canonical_takeRole {d : Device} (hd : d.Canonical) :
    (takeRole d).Canonical := by
  unfold takeRole
  with_reducible repeat' first | assumption | apply canonical_enterPair | apply canonical_nextEpoch | intro _ | dsimp only

theorem canonical_takeOver {d : Device} (hd : d.Canonical) :
    (takeOver d).Canonical := by
  unfold takeOver
  with_reducible repeat' first | assumption | apply canonical_ite | apply canonical_Device_raise | apply canonical_Device_count | apply canonical_takeRole | split | intro _ | dsimp only

theorem canonical_commitTo {d : Device} (to_) (a) (m) (hd : d.Canonical) :
    (commitTo d to_ a m).Canonical := by
  unfold commitTo
  with_reducible repeat' first | assumption | apply canonical_ite | apply canonical_queueFrame | split | intro _ | dsimp only

theorem canonical_sendItem {d : Device} (a) (b) (hd : d.Canonical) :
    (sendItem d a b).Canonical := by
  unfold sendItem
  with_reducible repeat' first | assumption | apply canonical_ite | apply canonical_foldl | apply canonical_foldl_fst | apply canonical_Device_count | apply canonical_queueFrame | apply canonical_fst (by assumption) | split | intro _ | dsimp only

theorem canonical_Device_withEth {d : Device} (e) (hd : d.Canonical) :
    (Device.withEth d e).Canonical := by
  unfold Device.withEth
  with_reducible repeat' first | assumption | fail_if_no_progress apply canonical_mk | intro _ | dsimp only

theorem canonical_setSession {d : Device} (x) (hd : d.Canonical) :
    (setSession d x).Canonical := by
  unfold setSession
  with_reducible repeat' first | assumption | apply canonical_ite | apply canonical_Device_withEth | split | intro _ | dsimp only

theorem canonical_storeReply {d : Device} (x) (r) (hd : d.Canonical) :
    (storeReply d x r).Canonical := by
  unfold storeReply
  with_reducible repeat' first | assumption | apply canonical_setSession | intro _ | dsimp only

theorem canonical_pendingEnds {d : Device} (sid) (code) (status) (body) (hd : d.Canonical) :
    (pendingEnds d sid code status body).Canonical := by
  unfold pendingEnds
  with_reducible repeat' first | assumption | apply canonical_ite | apply canonical_storeReply | split | intro _ | dsimp only

theorem canonical_advertise {d : Device} (hd : d.Canonical) :
    (advertise d).Canonical := by
  unfold advertise
  with_reducible repeat' first | assumption | apply canonical_ite | apply canonical_Device_withEth | split | intro _ | dsimp only

theorem canonical_linkClear {d : Device} (hd : d.Canonical) :
    (linkClear d).Canonical := by
  unfold linkClear
  with_reducible repeat' first | assumption | apply canonical_Device_setBit | apply canonical_Device_withEth | apply canonical_Device_set | intro _ | dsimp only

theorem canonical_linkUpDev {d : Device} (hd : d.Canonical) :
    (linkUpDev d).Canonical := by
  unfold linkUpDev
  with_reducible repeat' first | assumption | apply canonical_ite | apply canonical_Device_setBit | apply canonical_Device_raise | apply canonical_Device_set | split | intro _ | dsimp only

theorem canonical_linkDownDev {d : Device} (hd : d.Canonical) :
    (linkDownDev d).Canonical := by
  unfold linkDownDev
  with_reducible repeat' first | assumption | apply canonical_ite | apply canonical_Device_raise | apply canonical_linkClear | split | intro _ | dsimp only

theorem canonical_anFailDev {d : Device} (hd : d.Canonical) :
    (anFailDev d).Canonical := by
  unfold anFailDev
  with_reducible repeat' first | assumption | apply canonical_ite | apply canonical_Device_raise | apply canonical_advertise | apply canonical_Device_set | apply canonical_Device_setBit | split | intro _ | dsimp only

theorem canonical_ethCfgDev (w) {d : Device} (hd : d.Canonical) :
    (ethCfgDev w d).Canonical := by
  unfold ethCfgDev
  with_reducible repeat' first | assumption | apply canonical_ite | apply canonical_Device_raise | apply canonical_advertise | apply canonical_Device_wr | apply canonical_linkDownDev | apply canonical_Device_set | split | intro _ | dsimp only

theorem canonical_ethMtuDev (w) {d : Device} (hd : d.Canonical) :
    (ethMtuDev w d).Canonical := by
  unfold ethMtuDev
  with_reducible repeat' first | assumption | apply canonical_ite | apply canonical_Device_set | apply canonical_Device_raise | split | intro _ | dsimp only

theorem canonical_pauseCheck {d : Device} (hd : d.Canonical) :
    (pauseCheck d).Canonical := by
  unfold pauseCheck
  with_reducible repeat' first | assumption | apply canonical_ite | apply canonical_Device_withEth | split | intro _ | dsimp only

theorem canonical_rxTailDev (q) (w) {d : Device} (hd : d.Canonical) :
    (rxTailDev q w d).Canonical := by
  unfold rxTailDev
  with_reducible repeat' first | assumption | apply canonical_pauseCheck | apply canonical_Device_set | intro _ | dsimp only

theorem canonical_Device_withSlu {d : Device} (s) (hd : d.Canonical) :
    (Device.withSlu d s).Canonical := by
  unfold Device.withSlu
  with_reducible repeat' first | assumption | fail_if_no_progress apply canonical_mk | intro _ | dsimp only

theorem canonical_setOwner {d : Device} (o) (hd : d.Canonical) :
    (setOwner d o).Canonical := by
  unfold setOwner
  with_reducible repeat' first | assumption | apply canonical_Device_set | apply canonical_Device_withSlu | intro _ | dsimp only

theorem canonical_discardStaged {d : Device} (hd : d.Canonical) :
    (discardStaged d).Canonical := by
  unfold discardStaged
  with_reducible repeat' first | assumption | apply canonical_Device_withSlu | intro _ | dsimp only

theorem canonical_stageReject {d : Device} (hd : d.Canonical) :
    (stageReject d).Canonical := by
  unfold stageReject
  with_reducible repeat' first | assumption | apply canonical_Device_raise | apply canonical_Device_count | intro _ | dsimp only

theorem canonical_stageReg {d : Device} (a) (w) (hd : d.Canonical) :
    (stageReg d a w).Canonical := by
  unfold stageReg
  with_reducible repeat' first | assumption | apply canonical_ite | apply canonical_Device_withSlu | split | intro _ | dsimp only

theorem canonical_stageTab {d : Device} (a) (b) (hd : d.Canonical) :
    (stageTab d a b).Canonical := by
  unfold stageTab
  with_reducible repeat' first | assumption | apply canonical_Device_withSlu | intro _ | dsimp only

theorem canonical_ownerLeaves {d : Device} (o) (hd : d.Canonical) :
    (ownerLeaves d o).Canonical := by
  unfold ownerLeaves
  with_reducible repeat' first | assumption | apply canonical_ite | apply canonical_setOwner | apply canonical_discardStaged | split | intro _ | dsimp only

theorem canonical_recoveryNet {d0 : Device} (hd0 : d0.Canonical) :
    (recoveryNet d0).Canonical := by
  unfold recoveryNet
  with_reducible repeat' first | assumption | apply canonical_foldl | apply canonical_foldl_fst | apply canonical_lnPowerUp | apply canonical_advertise | apply canonical_Device_setBit | apply canonical_Device_setPair | apply canonical_Device_set | apply canonical_fst (by assumption) | intro _ | dsimp only

theorem canonical_bootFail {d : Device} (stage) (code) (hd : d.Canonical) :
    (bootFail d stage code).Canonical := by
  unfold bootFail
  with_reducible repeat' first | assumption | fail_if_no_progress apply canonical_mk | apply canonical_recoveryNet | apply canonical_Device_set | apply canonical_Device_setBit | intro _ | dsimp only

theorem canonical_firstApplyFails {d : Device} (hd : d.Canonical) :
    (firstApplyFails d).Canonical := by
  unfold firstApplyFails
  with_reducible repeat' first | assumption | apply canonical_ite | apply canonical_foldl | apply canonical_foldl_fst | apply canonical_bootFail | apply canonical_resetCore | apply canonical_fst (by assumption) | split | intro _ | dsimp only

theorem canonical_commitReplied {d : Device} (code) (hd : d.Canonical) :
    (commitReplied d code).Canonical := by
  unfold commitReplied
  with_reducible repeat' first | assumption | apply canonical_ite | apply canonical_pendingEnds | apply canonical_Device_withSlu | apply canonical_setOwner | split | intro _ | dsimp only

theorem canonical_commitEnded {d : Device} (hd : d.Canonical) :
    (commitEnded d).Canonical := by
  unfold commitEnded
  with_reducible repeat' first | assumption | apply canonical_ite | apply canonical_setOwner | split | intro _ | dsimp only

theorem canonical_tellDown {d : Device} (m) (hd : d.Canonical) :
    (tellDown d m).Canonical := by
  unfold tellDown
  with_reducible repeat' first | assumption | apply canonical_ite | apply canonical_foldl | apply canonical_foldl_fst | apply canonical_commitTo | apply canonical_fst (by assumption) | split | intro _ | dsimp only

theorem canonical_toOpen {d : Device} (hd : d.Canonical) :
    (toOpen d).Canonical := by
  unfold toOpen
  with_reducible repeat' first | assumption | apply canonical_Device_withSlu | apply canonical_Device_set | intro _ | dsimp only

theorem canonical_setResult {d : Device} (code) (item) (index) (hd : d.Canonical) :
    (setResult d code item index).Canonical := by
  unfold setResult
  with_reducible repeat' first | assumption | apply canonical_Device_set | intro _ | dsimp only

theorem canonical_recordRefusal {d : Device} (b) (hd : d.Canonical) :
    (recordRefusal d b).Canonical := by
  unfold recordRefusal
  with_reducible repeat' first | assumption | apply canonical_Device_count | apply canonical_Device_raise | apply canonical_Device_set | apply canonical_setResult | intro _ | dsimp only

theorem canonical_sluRefuse (b) {d : Device} (hd : d.Canonical) :
    (sluRefuse b d).Canonical := by
  unfold sluRefuse
  with_reducible repeat' first | assumption | apply canonical_ite | apply canonical_commitTo | apply canonical_tellDown | apply canonical_commitEnded | apply canonical_commitReplied | apply canonical_recordRefusal | apply canonical_discardStaged | apply canonical_toOpen | apply canonical_firstApplyFails | split | intro _ | dsimp only

theorem canonical_sluCancelled {d : Device} (hd : d.Canonical) :
    (sluCancelled d).Canonical := by
  unfold sluCancelled
  with_reducible repeat' first | assumption | apply canonical_commitTo | apply canonical_tellDown | apply canonical_Device_count | apply canonical_setResult | apply canonical_discardStaged | apply canonical_toOpen | apply canonical_commitEnded | apply canonical_commitReplied | intro _ | dsimp only

theorem canonical_showDerived {d : Device} (hd : d.Canonical) :
    (showDerived d).Canonical := by
  unfold showDerived
  with_reducible repeat' first | assumption | apply canonical_Device_set | intro _ | dsimp only

theorem canonical_showFloor {d : Device} (hd : d.Canonical) :
    (showFloor d).Canonical := by
  unfold showFloor
  with_reducible repeat' first | assumption | apply canonical_ite | apply canonical_Device_set | split | intro _ | dsimp only

theorem canonical_portsApply (old) {new : Device} (hnew : new.Canonical) :
    (portsApply old new).Canonical := by
  unfold portsApply
  with_reducible repeat' first | assumption | apply canonical_ite | apply canonical_foldl | apply canonical_foldl_fst | apply canonical_portRestartDev | apply canonical_fst (by assumption) | split | intro _ | dsimp only

theorem canonical_capApply {d0 : Device} (hd0 : d0.Canonical) :
    (capApply d0).Canonical := by
  unfold capApply
  with_reducible repeat' first | assumption | apply canonical_ite | fail_if_no_progress apply canonical_mk | apply canonical_Device_free | apply canonical_snd (by assumption) | apply canonical_showCap | split | intro _ | dsimp only

theorem canonical_firstApply {d : Device} (hd : d.Canonical) :
    (firstApply d).Canonical := by
  unfold firstApply
  with_reducible repeat' first | assumption | apply canonical_ite | fail_if_no_progress apply canonical_mk | apply canonical_Device_setBit | apply canonical_Device_set | split | intro _ | dsimp only

theorem canonical_blocksApply (old) (a) {new : Device} (hnew : new.Canonical) :
    (blocksApply old a new).Canonical := by
  unfold blocksApply
  with_reducible repeat' first | assumption | apply canonical_monApply | apply canonical_flyApply | apply canonical_axesApply | apply canonical_histApply | apply canonical_calApply | apply canonical_captureApply | apply canonical_capApply | apply canonical_spoutApply | apply canonical_evtApply | apply canonical_pairApply | apply canonical_peerApply | apply canonical_portsApply | apply canonical_showFloor | apply canonical_showDerived | intro _ | dsimp only

theorem canonical_makeLive {d : Device} (a) (ts) (t) (all) (hd : d.Canonical) :
    (makeLive d a ts t all).Canonical := by
  unfold makeLive
  exact canonical_Device_withSlu _ ⟨canonical_overlayRegs _ _ hd.regs, canonical_overlayTabs _ _ hd.tabs, hd.mem, hd.flash⟩

theorem canonical_applied {d : Device} (live) (hd : d.Canonical) :
    (applied d live).Canonical := by
  unfold applied
  with_reducible repeat' first | assumption | apply canonical_Device_count | apply canonical_Device_set | intro _ | dsimp only

theorem canonical_applyNow {d : Device} (hd : d.Canonical) :
    (applyNow d).Canonical := by
  unfold applyNow
  with_reducible repeat' first | assumption | apply canonical_ite | apply canonical_commitEnded | apply canonical_commitReplied | apply canonical_setResult | apply canonical_firstApply | apply canonical_domainsApply | apply canonical_makeLive | apply canonical_blocksApply | apply canonical_applied | apply canonical_tioOnLines | apply canonical_portsOnLines | apply canonical_capRestart | apply canonical_startLines | split | intro _ | dsimp only

theorem canonical_linesApply (old) (a) (t) {d : Device} (hd : d.Canonical) :
    (linesApply old a t d).Canonical := by
  unfold linesApply
  with_reducible repeat' first | assumption | apply canonical_ite | fail_if_no_progress apply canonical_mk | apply canonical_Device_setPair | apply canonical_Device_wr | apply canonical_Device_setBit | split | intro _ | dsimp only

theorem canonical_applyArmed {d : Device} (ts) (t) (hd : d.Canonical) :
    (applyArmed d ts t).Canonical := by
  unfold applyArmed
  with_reducible repeat' first | assumption | apply canonical_makeLive | apply canonical_linesApply | apply canonical_blocksApply | apply canonical_applied | apply canonical_commitEnded | intro _ | dsimp only

theorem canonical_armOrApply {d : Device} (hd : d.Canonical) :
    (armOrApply d).Canonical := by
  unfold armOrApply
  with_reducible repeat' first | assumption | apply canonical_ite | apply canonical_commitReplied | apply canonical_setResult | apply canonical_Device_set | apply canonical_Device_withSlu | apply canonical_applyNow | split | intro _ | dsimp only

theorem canonical_allPassed {d : Device} (hd : d.Canonical) :
    (allPassed d).Canonical := by
  unfold allPassed
  with_reducible repeat' first | assumption | apply canonical_ite | apply canonical_Device_withSlu | apply canonical_commitTo | apply canonical_armOrApply | apply canonical_tellDown | split | intro _ | dsimp only

theorem canonical_checkOnlyPassed {d : Device} (hd : d.Canonical) :
    (checkOnlyPassed d).Canonical := by
  unfold checkOnlyPassed
  with_reducible repeat' first | assumption | apply canonical_toOpen | apply canonical_commitEnded | apply canonical_commitReplied | apply canonical_setResult | intro _ | dsimp only

theorem canonical_checksPassed {d : Device} (hd : d.Canonical) :
    (checksPassed d).Canonical := by
  unfold checksPassed
  with_reducible repeat' first | assumption | apply canonical_ite | apply canonical_foldl | apply canonical_foldl_fst | apply canonical_checkOnlyPassed | apply canonical_sluRefuse | apply canonical_allPassed | apply canonical_Device_withSlu | apply canonical_commitTo | apply canonical_sendItem | apply canonical_fst (by assumption) | split | intro _ | dsimp only

theorem canonical_hwDoneDev {d : Device} (hd : d.Canonical) :
    (hwDoneDev d).Canonical := by
  unfold hwDoneDev
  with_reducible repeat' first | assumption | apply canonical_ite | apply canonical_Device_set | apply canonical_sluRefuse | apply canonical_Device_raise | apply canonical_Device_withSlu | apply canonical_checksPassed | split | intro _ | dsimp only

theorem canonical_fwVerdictDev (w) {d : Device} (hd : d.Canonical) :
    (fwVerdictDev w d).Canonical := by
  unfold fwVerdictDev
  with_reducible repeat' first | assumption | apply canonical_ite | apply canonical_Device_set | apply canonical_checksPassed | apply canonical_sluRefuse | split | intro _ | dsimp only

theorem canonical_fwTimeoutDev {d : Device} (hd : d.Canonical) :
    (fwTimeoutDev d).Canonical := by
  unfold fwTimeoutDev
  with_reducible repeat' first | assumption | apply canonical_ite | apply canonical_sluRefuse | apply canonical_Device_set | split | intro _ | dsimp only

theorem canonical_sluCommit (who) (checkOnly) (from_) {d : Device} (hd : d.Canonical) :
    (sluCommit who checkOnly from_ d).Canonical := by
  unfold sluCommit
  with_reducible repeat' first | assumption | apply canonical_ite | apply canonical_recordRefusal | apply canonical_Device_count | apply canonical_Device_set | apply canonical_Device_withSlu | split | intro _ | dsimp only

theorem canonical_sluCancel {d : Device} (hd : d.Canonical) :
    (sluCancel d).Canonical := by
  unfold sluCancel
  with_reducible repeat' first | assumption | apply canonical_ite | apply canonical_sluCancelled | apply canonical_Device_raise | split | intro _ | dsimp only

theorem canonical_sluCheckOnly {d : Device} (hd : d.Canonical) :
    (sluCheckOnly d).Canonical := by
  unfold sluCheckOnly
  with_reducible repeat' first | assumption | apply canonical_ite | apply canonical_Device_withSlu | apply canonical_checkOnlyPassed | apply canonical_commitTo | apply canonical_tellDown | split | intro _ | dsimp only

theorem canonical_sluCmdDev (who) (w) {d : Device} (hd : d.Canonical) :
    (sluCmdDev who w d).Canonical := by
  unfold sluCmdDev
  with_reducible repeat' first | assumption | apply canonical_ite | apply canonical_sluCommit | apply canonical_sluCheckOnly | apply canonical_sluCancel | split | intro _ | dsimp only

theorem canonical_switchDoneDev {d : Device} (hd : d.Canonical) :
    (switchDoneDev d).Canonical := by
  unfold switchDoneDev
  with_reducible repeat' first | assumption | apply canonical_ite | apply canonical_toOpen | apply canonical_Device_raise | apply canonical_Device_withSlu | split | intro _ | dsimp only

theorem canonical_firstApplyTimeoutDev {d : Device} (hd : d.Canonical) :
    (firstApplyTimeoutDev d).Canonical := by
  unfold firstApplyTimeoutDev
  with_reducible repeat' first | assumption | apply canonical_ite | apply canonical_firstApplyFails | split | intro _ | dsimp only

theorem canonical_crcShow {d : Device} (u) (hd : d.Canonical) :
    (crcShow d u).Canonical := by
  unfold crcShow
  with_reducible repeat' first | assumption | apply canonical_Device_setPair | intro _ | dsimp only

theorem canonical_crcBytes {d : Device} (u) (bs) (hd : d.Canonical) :
    (crcBytes d u bs).Canonical := by
  unfold crcBytes
  with_reducible repeat' first | assumption | apply canonical_foldl | apply canonical_foldl_fst | apply canonical_crcShow | apply canonical_Device_setPair | apply canonical_fst (by assumption) | intro _ | dsimp only

theorem canonical_crcDataDev (u) (size) (w) {d : Device} (hd : d.Canonical) :
    (crcDataDev u size w d).Canonical := by
  unfold crcDataDev
  with_reducible repeat' first | assumption | apply canonical_crcBytes | intro _ | dsimp only

theorem canonical_crcStartDev (u) {d : Device} (hd : d.Canonical) :
    (crcStartDev u d).Canonical := by
  unfold crcStartDev
  with_reducible repeat' first | assumption | apply canonical_ite | apply canonical_crcBytes | apply canonical_Device_setPair | split | intro _ | dsimp only

theorem canonical_crcPairDev (u) (pair) (hi) (w) {d : Device} (hd : d.Canonical) :
    (crcPairDev u pair hi w d).Canonical := by
  unfold crcPairDev
  with_reducible repeat' first | assumption | apply canonical_ite | fail_if_no_progress apply canonical_mk | apply canonical_crcShow | apply canonical_Device_wr | split | intro _ | dsimp only

theorem canonical_crcReadDev (u) (pair) (hi) {d : Device} (hd : d.Canonical) :
    (crcReadDev u pair hi d).Canonical := by
  unfold crcReadDev
  with_reducible repeat' first | assumption | apply canonical_ite | fail_if_no_progress apply canonical_mk | apply canonical_Device_reply | split | intro _ | dsimp only

theorem canonical_crcCfgDev (u) (w) {d : Device} (hd : d.Canonical) :
    (crcCfgDev u w d).Canonical := by
  unfold crcCfgDev
  with_reducible repeat' first | assumption | apply canonical_ite | apply canonical_Device_raise | apply canonical_Device_wr | apply canonical_crcShow | apply canonical_Device_setPair | split | intro _ | dsimp only

theorem canonical_Device_withFlt {d : Device} (f) (hd : d.Canonical) :
    (Device.withFlt d f).Canonical := by
  unfold Device.withFlt
  with_reducible repeat' first | assumption | fail_if_no_progress apply canonical_mk | intro _ | dsimp only

theorem canonical_closeSession (id) {d : Device} (hd : d.Canonical) :
    (closeSession id d).Canonical := by
  unfold closeSession
  with_reducible repeat' first | assumption | apply canonical_ite | apply canonical_Device_withEth | apply canonical_Device_setBit | apply canonical_setOwner | apply canonical_ownerLeaves | apply canonical_Device_withSlu | split | intro _ | dsimp only

theorem canonical_clearControl {d : Device} (hd : d.Canonical) :
    (clearControl d).Canonical := by
  unfold clearControl
  with_reducible repeat' first | assumption | apply canonical_ite | apply canonical_foldl | apply canonical_foldl_fst | fail_if_no_progress apply canonical_mk | apply canonical_sluCancelled | apply canonical_peerLoss | apply canonical_mbxClear | apply canonical_latchPlic | apply canonical_lockMasterReset | apply canonical_coreResetDev | apply canonical_Device_set | apply canonical_setDma | apply canonical_crcShow | apply canonical_Device_setPair | apply canonical_Device_setBit | apply canonical_Device_setCell | apply canonical_closeSession | apply canonical_fst (by assumption) | split | intro _ | dsimp only

theorem canonical_clearIntake {d : Device} (hd : d.Canonical) :
    (clearIntake d).Canonical := by
  unfold clearIntake
  with_reducible repeat' first | assumption | apply canonical_ite | apply canonical_foldl | apply canonical_foldl_fst | fail_if_no_progress apply canonical_mk | apply canonical_Device_setPort | apply canonical_portRestartDev | apply canonical_discardRun | apply canonical_showWaiting | apply canonical_Device_set | apply canonical_fst (by assumption) | split | intro _ | dsimp only

theorem canonical_clearVision {d : Device} (hd : d.Canonical) :
    (clearVision d).Canonical := by
  unfold clearVision
  with_reducible repeat' first | assumption | apply canonical_foldl | apply canonical_foldl_fst | fail_if_no_progress apply canonical_mk | apply canonical_Device_setView | apply canonical_clearObjects | apply canonical_fst (by assumption) | intro _ | dsimp only

theorem canonical_clearActuation {d : Device} (hd : d.Canonical) :
    (clearActuation d).Canonical := by
  unfold clearActuation
  with_reducible repeat' first | assumption | apply canonical_foldl | apply canonical_foldl_fst | apply canonical_axisReset | apply canonical_monRestart | apply canonical_spoutsClear | apply canonical_Device_setWindows | apply canonical_fst (by assumption) | intro _ | dsimp only

theorem canonical_clearCapture {d : Device} (hd : d.Canonical) :
    (clearCapture d).Canonical := by
  unfold clearCapture
  with_reducible repeat' first | assumption | fail_if_no_progress apply canonical_mk | apply canonical_showCapture | intro _ | dsimp only

theorem canonical_clearRegion (r) {d : Device} (hd : d.Canonical) :
    (clearRegion r d).Canonical := by
  unfold clearRegion
  with_reducible repeat' first | assumption | apply canonical_clearControl | apply canonical_clearIntake | apply canonical_clearVision | apply canonical_stopJudgement | apply canonical_clearActuation | split | intro _ | dsimp only

theorem canonical_enterSafe (code) (index) {d : Device} (hd : d.Canonical) :
    (enterSafe code index d).Canonical := by
  unfold enterSafe
  with_reducible repeat' first | assumption | apply canonical_ite | apply canonical_foldl | apply canonical_foldl_fst | fail_if_no_progress apply canonical_mk | apply canonical_Device_fault | apply canonical_Device_raise | apply canonical_Device_set | apply canonical_Device_setBit | apply canonical_Device_count | apply canonical_tioSafe | apply canonical_spoutsSafe | apply canonical_Device_withFlt | apply canonical_clearCapture | apply canonical_stopJudgement | apply canonical_clearVision | apply canonical_clearIntake | apply canonical_showCap | apply canonical_Device_setCtl | apply canonical_fst (by assumption) | split | intro _ | dsimp only

theorem canonical_chipCauses (code) (indices) {d : Device} (hd : d.Canonical) :
    (chipCauses code indices d).Canonical := by
  unfold chipCauses
  with_reducible repeat' first | assumption | apply canonical_foldl | apply canonical_foldl_fst | apply canonical_Device_faultAfter | apply canonical_enterSafe | apply canonical_fst (by assumption) | split | intro _ | dsimp only

theorem canonical_dmaRegion (r) {d : Device} (hd : d.Canonical) :
    (dmaRegion r d).Canonical := by
  unfold dmaRegion
  with_reducible repeat' first | assumption | apply canonical_ite | apply canonical_foldl | apply canonical_foldl_fst | apply canonical_dmaStops | apply canonical_fst (by assumption) | split | intro _ | dsimp only

theorem canonical_beginReset (r) {d : Device} (hd : d.Canonical) :
    (beginReset r d).Canonical := by
  unfold beginReset
  with_reducible repeat' first | assumption | apply canonical_ite | apply canonical_Device_setBit | apply canonical_Device_count | apply canonical_dmaRegion | apply canonical_Device_withFlt | apply canonical_tioSafe | apply canonical_spoutsSafe | apply canonical_pairRegionReset | apply canonical_stopJudgement | split | intro _ | dsimp only

theorem canonical_startReset (r) {d : Device} (hd : d.Canonical) :
    (startReset r d).Canonical := by
  unfold startReset
  with_reducible repeat' first | assumption | apply canonical_ite | apply canonical_Device_withFlt | apply canonical_enterSafe | apply canonical_Device_raise | apply canonical_beginReset | split | intro _ | dsimp only

theorem canonical_regionFault (code) (index) {d : Device} (hd : d.Canonical) :
    (regionFault code index d).Canonical := by
  unfold regionFault
  with_reducible repeat' first | assumption | apply canonical_ite | apply canonical_Device_faultAfter | apply canonical_enterSafe | apply canonical_startReset | apply canonical_Device_fault | split | intro _ | dsimp only

theorem canonical_recordRequests (after) (rs) {d : Device} (hd : d.Canonical) :
    (recordRequests after rs d).Canonical := by
  unfold recordRequests
  with_reducible repeat' first | assumption | apply canonical_ite | apply canonical_foldl | apply canonical_foldl_fst | apply canonical_Device_faultAfter | apply canonical_Device_fault | apply canonical_fst (by assumption) | split | intro _ | dsimp only

theorem canonical_requestResets (after) (bits) {d : Device} (hd : d.Canonical) :
    (requestResets after bits d).Canonical := by
  unfold requestResets
  with_reducible repeat' first | assumption | apply canonical_foldl | apply canonical_foldl_fst | apply canonical_startReset | apply canonical_recordRequests | apply canonical_Device_faultAfter | apply canonical_fst (by assumption) | split | intro _ | dsimp only

theorem canonical_resetRegionDev (c) {d : Device} (hd : d.Canonical) :
    (resetRegionDev c d).Canonical := by
  unfold resetRegionDev
  with_reducible repeat' first | assumption | apply canonical_ite | apply canonical_requestResets | apply canonical_regionFault | apply canonical_Device_fault | apply canonical_busError | split | intro _ | dsimp only

theorem canonical_regionDrainedDev (r) {d : Device} (hd : d.Canonical) :
    (regionDrainedDev r d).Canonical := by
  unfold regionDrainedDev
  with_reducible repeat' first | assumption | apply canonical_ite | apply canonical_clearRegion | apply canonical_Device_withFlt | split | intro _ | dsimp only

theorem canonical_restartRegion (r) {d : Device} (hd : d.Canonical) :
    (restartRegion r d).Canonical := by
  unfold restartRegion
  with_reducible repeat' first | assumption | apply canonical_ite | apply canonical_foldl | apply canonical_foldl_fst | fail_if_no_progress apply canonical_mk | apply canonical_portOn | apply canonical_rewriteLive | apply canonical_restartLanes | apply canonical_Device_setView | apply canonical_ringEmpty | apply canonical_spoutsAwait | apply canonical_Device_setWindows | apply canonical_fst (by assumption) | split | intro _ | dsimp only

theorem canonical_regionRestartDev (r) {d : Device} (hd : d.Canonical) :
    (regionRestartDev r d).Canonical := by
  unfold regionRestartDev
  with_reducible repeat' first | assumption | apply canonical_ite | apply canonical_Device_withFlt | apply canonical_restartRegion | apply canonical_Device_raise | apply canonical_Device_setBit | apply canonical_pairRegionDone | split | intro _ | dsimp only

theorem canonical_leaveSafe {d : Device} (hd : d.Canonical) :
    (leaveSafe d).Canonical := by
  unfold leaveSafe
  with_reducible repeat' first | assumption | apply canonical_ite | apply canonical_foldl | apply canonical_foldl_fst | apply canonical_Device_setBit | apply canonical_Device_withFlt | apply canonical_Device_set | apply canonical_clearCapture | apply canonical_pairRegionDone | apply canonical_beginReset | apply canonical_fst (by assumption) | split | intro _ | dsimp only

theorem canonical_exitDev (withCause) {d : Device} (hd : d.Canonical) :
    (exitDev withCause d).Canonical := by
  unfold exitDev
  with_reducible repeat' first | assumption | apply canonical_ite | apply canonical_leaveSafe | apply canonical_Device_raise | split | intro _ | dsimp only

theorem canonical_histClearDev {d : Device} (hd : d.Canonical) :
    (histClearDev d).Canonical := by
  unfold histClearDev
  exact canonical_ite (fun _ => canonical_Device_raise _ hd) (fun _ => ⟨hd.regs, hd.tabs, Sparse.wf_filter _ _ _ hd.mem, hd.flash⟩)

theorem canonical_fltCtrlDev (w) {d : Device} (hd : d.Canonical) :
    (fltCtrlDev w d).Canonical := by
  unfold fltCtrlDev
  with_reducible repeat' first | assumption | apply canonical_ite | apply canonical_enterSafe | apply canonical_exitDev | apply canonical_histClearDev | apply canonical_requestResets | split | intro _ | dsimp only

theorem canonical_fltExitDev (cause) {d : Device} (hd : d.Canonical) :
    (fltExitDev cause d).Canonical := by
  unfold fltExitDev
  with_reducible repeat' first | assumption | apply canonical_exitDev | apply canonical_enterSafe | split | intro _ | dsimp only

theorem canonical_supplyJudge (levels) {d : Device} (hd : d.Canonical) :
    (supplyJudge levels d).Canonical := by
  unfold supplyJudge
  with_reducible repeat' first | assumption | apply canonical_Device_raiseIf | apply canonical_Device_set | apply canonical_chipCauses | apply canonical_Device_withFlt | split | intro _ | dsimp only

theorem canonical_refclkDev {d : Device} (hd : d.Canonical) :
    (refclkDev d).Canonical := by
  unfold refclkDev
  with_reducible repeat' first | assumption | apply canonical_ite | apply canonical_enterSafe | apply canonical_Device_withFlt | split | intro _ | dsimp only

theorem canonical_refclkReturnDev {d : Device} (hd : d.Canonical) :
    (refclkReturnDev d).Canonical := by
  unfold refclkReturnDev
  with_reducible repeat' first | assumption | apply canonical_Device_withFlt | intro _ | dsimp only

theorem canonical_energySampleDev (energy) (temps) {d : Device} (hd : d.Canonical) :
    (energySampleDev energy temps d).Canonical := by
  unfold energySampleDev
  with_reducible repeat' first | assumption | apply canonical_ite | apply canonical_meterSample | apply canonical_chipCauses | apply canonical_Device_withFlt | split | intro _ | dsimp only

theorem canonical_laneCheck (l) {d : Device} (hd : d.Canonical) :
    (laneCheck l d).Canonical := by
  unfold laneCheck
  with_reducible repeat' first | assumption | apply canonical_portCheck | apply canonical_peerCheck | split | intro _ | dsimp only

theorem canonical_retrainDev (l) {d : Device} (hd : d.Canonical) :
    (retrainDev l d).Canonical := by
  unfold retrainDev
  with_reducible repeat' first | assumption | apply canonical_camRetrain | apply canonical_peerRetrain | split | intro _ | dsimp only

theorem canonical_portReceive (l) {d : Device} (hd : d.Canonical) :
    (portReceive l d).Canonical := by
  unfold portReceive
  with_reducible repeat' first | assumption | apply canonical_camReceive | apply canonical_peerReceive | split | intro _ | dsimp only

theorem canonical_codeGroupDev (l) (group) (phase) (t) {d : Device} (hd : d.Canonical) :
    (codeGroupDev l group phase t d).Canonical := by
  unfold codeGroupDev
  with_reducible repeat' first | assumption | apply canonical_portReceive | apply canonical_laneCheck | apply canonical_lnGroup | intro _ | dsimp only

theorem canonical_eyeScanDev (l) (scan) {d : Device} (hd : d.Canonical) :
    (eyeScanDev l scan d).Canonical := by
  unfold eyeScanDev
  with_reducible repeat' first | assumption | apply canonical_lnEyeScan | apply canonical_camEyeScan | apply canonical_peerEyeScan | split | intro _ | dsimp only

theorem canonical_lnCtrlDev (l) (w) {d : Device} (hd : d.Canonical) :
    (lnCtrlDev l w d).Canonical := by
  unfold lnCtrlDev
  with_reducible repeat' first | assumption | apply canonical_ite | apply canonical_Device_wr | apply canonical_laneCheck | apply canonical_lnPowerUp | apply canonical_lnPowerDown | apply canonical_retrainDev | split | intro _ | dsimp only

theorem canonical_linePacketDev (p) {d : Device} (hd : d.Canonical) :
    (linePacketDev p d).Canonical := by
  unfold linePacketDev
  with_reducible repeat' first | assumption | apply canonical_linePacket | apply canonical_fst (by assumption) | apply canonical_popEvent | apply canonical_offerLine | apply canonical_calAccept | split | intro _ | dsimp only

theorem canonical_deskewDev (l) {d : Device} (hd : d.Canonical) :
    (deskewDev l d).Canonical := by
  unfold deskewDev
  with_reducible repeat' first | assumption | apply canonical_deskewColumnDev | apply canonical_peerDeskewDev | split | intro _ | dsimp only

theorem canonical_trainReplyDev (l) (word) {d : Device} (hd : d.Canonical) :
    (trainReplyDev l word d).Canonical := by
  unfold trainReplyDev
  with_reducible repeat' first | assumption | apply canonical_trainReplyCam | apply canonical_peerTrainReply | split | intro _ | dsimp only

theorem canonical_trainTimeoutDev (l) {d : Device} (hd : d.Canonical) :
    (trainTimeoutDev l d).Canonical := by
  unfold trainTimeoutDev
  with_reducible repeat' first | assumption | apply canonical_camTrainTimeout | apply canonical_peerTrainTimeout | split | intro _ | dsimp only

theorem canonical_memTrainDoneDev (n) (ok) {d : Device} (hd : d.Canonical) :
    (memTrainDoneDev n ok d).Canonical := by
  unfold memTrainDoneDev
  with_reducible repeat' first | assumption | apply canonical_ite | apply canonical_memTrained | apply canonical_Device_set | apply canonical_regionFault | apply canonical_bootFail | split | intro _ | dsimp only

theorem canonical_readCapture {d : Device} (a) (hd : d.Canonical) :
    (readCapture d a).Canonical := by
  unfold readCapture
  with_reducible repeat' first | assumption | apply canonical_ite | apply canonical_todReadDev | apply canonical_tsqReadDev | apply canonical_digestCapture | apply canonical_capPosDev | apply canonical_tioCapReadDev | apply canonical_monOutReadDev | apply canonical_axisSnapshotDev | apply canonical_Device_setPair | split | intro _ | dsimp only

theorem canonical_readReg (m) (a) (r) (hwInc) {d : Device} (hd : d.Canonical) :
    (readReg m a r hwInc d).Canonical := by
  unfold readReg
  with_reducible repeat' first | assumption | apply canonical_ite | apply canonical_mbxReadDev | apply canonical_latchPlic | apply canonical_lockReadDev | apply canonical_mtimeReadDev | apply canonical_crcReadDev | apply canonical_Device_reply | apply canonical_readCapture | apply canonical_Device_wr | apply canonical_Device_withEth | split | intro _ | dsimp only

theorem canonical_readPlic {d : Device} (o) (hd : d.Canonical) :
    (readPlic d o).Canonical := by
  unfold readPlic
  with_reducible repeat' first | assumption | apply canonical_ite | apply canonical_Device_reply | apply canonical_plicClaimDev | split | intro _ | dsimp only

theorem canonical_readArea (m) (a) (n) (x) (hwInc) {d : Device} (hd : d.Canonical) :
    (readArea m a n x hwInc d).Canonical := by
  unfold readArea
  with_reducible repeat' first | assumption | apply canonical_ite | apply canonical_readReg | apply canonical_readPlic | apply canonical_Device_reply | apply canonical_Device_free | apply canonical_snd (by assumption) | apply canonical_dcacheFill | split | intro _ | dsimp only

theorem canonical_busRead (m) (a) (n) (atomic) (hwInc) {d : Device} (hd : d.Canonical) :
    (busRead m a n atomic hwInc d).Canonical := by
  unfold busRead
  with_reducible repeat' first | assumption | apply canonical_ite | apply canonical_coreTrap | apply canonical_busError | apply canonical_readArea | split | intro _ | dsimp only

theorem canonical_hwSetBit (a) {d : Device} (i) (hd : d.Canonical) :
    (hwSetBit a d i).Canonical := by
  unfold hwSetBit
  with_reducible repeat' first | assumption | apply canonical_ite | apply canonical_Device_raise | apply canonical_Device_set | split | intro _ | dsimp only

theorem canonical_staging (who) {land : Device → Device} {d : Device} (hland : ∀ (y0 : Device), y0.Canonical → (land y0).Canonical) (hd : d.Canonical) :
    (staging who land d).Canonical := by
  unfold staging
  with_reducible repeat' first | assumption | apply canonical_ite | apply hland | apply canonical_stageReject | apply canonical_setOwner | split | intro _ | dsimp only

theorem canonical_writePlain (who) (a) (r) (w) (hwSet) {d : Device} (hd : d.Canonical) :
    (writePlain who a r w hwSet d).Canonical := by
  unfold writePlain
  with_reducible repeat' first | assumption | apply canonical_ite | apply canonical_foldl | apply canonical_foldl_fst | apply canonical_Device_wr | apply canonical_hwSetBit | apply canonical_staging | apply canonical_stageReg | apply canonical_fst (by assumption) | split | intro _ | dsimp only

theorem canonical_writePlic (o) (w) {d : Device} (hd : d.Canonical) :
    (writePlic o w d).Canonical := by
  unfold writePlic
  with_reducible repeat' first | assumption | apply canonical_ite | apply canonical_Device_wr | apply canonical_plicComplete | split | intro _ | dsimp only

theorem canonical_writeDma (a) (w) {d : Device} (hd : d.Canonical) :
    OptCanonical (writeDma a w d) := by
  unfold writeDma
  with_reducible repeat' first | assumption | apply canonical_ite | apply optCanonical_none | apply optCanonical_some | apply optCanonical_ite | apply optCanonical_orElse | apply optCanonical_map | apply canonical_dmaPauseDev | apply canonical_dmaResumeDev | apply canonical_dmaStartDev | apply canonical_dmaAborted | apply canonical_dmaArmDev | apply canonical_dmaFieldDev | apply canonical_dmaShadowDev | split | intro _ | dsimp only

theorem canonical_writeCrc (a) (w) {d : Device} (hd : d.Canonical) :
    OptCanonical (writeCrc a w d) := by
  unfold writeCrc
  with_reducible repeat' first | assumption | apply canonical_ite | apply optCanonical_none | apply optCanonical_some | apply optCanonical_ite | apply optCanonical_orElse | apply optCanonical_map | apply canonical_crcCfgDev | apply canonical_crcStartDev | apply canonical_crcDataDev | apply canonical_crcPairDev | split | intro _ | dsimp only

theorem canonical_writeCore (a) (r) (w) (hwSet) {d : Device} (hd : d.Canonical) :
    OptCanonical (writeCore a r w hwSet d) := by
  unfold writeCore
  with_reducible repeat' first | assumption | apply canonical_ite | apply optCanonical_none | apply optCanonical_some | apply optCanonical_ite | apply optCanonical_orElse | apply optCanonical_map | apply canonical_coreResetDev | apply canonical_coreReleaseDev | apply canonical_watchdogKickDev | apply canonical_cmoGoDev | apply canonical_coreInterrupt | apply canonical_showTimer | apply canonical_Device_wr | apply canonical_writePlain | apply canonical_Device_setCore | split | intro _ | dsimp only

theorem canonical_writeEth (a) (w) {d : Device} (hd : d.Canonical) :
    OptCanonical (writeEth a w d) := by
  unfold writeEth
  with_reducible repeat' first | assumption | apply canonical_ite | apply optCanonical_none | apply optCanonical_some | apply optCanonical_ite | apply optCanonical_orElse | apply optCanonical_map | apply canonical_ethCfgDev | apply canonical_ethMtuDev | apply canonical_rxTailDev | apply canonical_Device_raise | split | intro _ | dsimp only

theorem canonical_writeDbg (m) (r) (w) (hwSet) {d : Device} (hd : d.Canonical) :
    (writeDbg m r w hwSet d).Canonical := by
  unfold writeDbg
  with_reducible repeat' first | assumption | apply canonical_ite | apply canonical_writePlain | split | intro _ | dsimp only

theorem canonical_writeControl (m) (a) (r) (w) (hwSet) {d : Device} (hd : d.Canonical) :
    OptCanonical (writeControl m a r w hwSet d) := by
  have hi {p : Prop} [Decidable p] {x : Device} {o : Option Device} (h1 : x.Canonical) (h2 : OptCanonical o) :
      OptCanonical (if p then some x else o) := optCanonical_ite (fun _ => optCanonical_some h1) (fun _ => h2)
  unfold writeControl
  refine hi (canonical_sluCmdDev _ _ hd) (hi (canonical_fwVerdictDev _ hd) (hi ?_ (hi (canonical_planWriteDev _ _ hd) (hi (canonical_fltCtrlDev _ hd)
    (hi (canonical_evtFireDev _ hd) (hi (canonical_evtRearmDev _ _ hd) (hi (canonical_evtRearmDev _ _ hd) (hi (canonical_lockForceDev _ _ hd)
    (hi (canonical_lockForceDev _ _ hd) ?_)))))))))
  · exact canonical_ite (fun _ => canonical_Device_wr _ _ hd) (fun _ => hd)
  · refine optCanonical_ite (fun _ => optCanonical_some ?_) (fun _ => hi (canonical_mbxWriteDev _ _ _ hd) (hi (canonical_lockWriteDev _ _ hd) (hi (canonical_writeDbg _ _ _ _ hd) ?_)))
    · exact canonical_ite (fun _ => canonical_rejoinDev (canonical_ite (fun _ => canonical_yieldDev hd) (fun _ => hd)))
        (fun _ => canonical_ite (fun _ => canonical_yieldDev hd) (fun _ => hd))
    · exact optCanonical_orElse (canonical_writeCore _ _ _ _ hd) (optCanonical_orElse (canonical_writeDma _ _ hd)
        (optCanonical_orElse (canonical_writeCrc _ _ hd) (canonical_writeEth _ _ hd)))

theorem canonical_writeIntake (who) (a) (r) (w) (hwSet) {d : Device} (hd : d.Canonical) :
    OptCanonical (writeIntake who a r w hwSet d) := by
  unfold writeIntake
  with_reducible repeat' first | assumption | apply canonical_ite | apply optCanonical_none | apply optCanonical_some | apply optCanonical_ite | apply optCanonical_orElse | apply optCanonical_map | apply canonical_portRestartDev | apply canonical_ctlGoDev | apply canonical_expGoDev | apply canonical_calAbortDev | apply canonical_calGoDev | apply canonical_statReleaseDev | apply canonical_writePlain | split | intro _ | dsimp only

theorem canonical_writeTra (n) (w) {d : Device} (hd : d.Canonical) :
    (writeTra n w d).Canonical := by
  unfold writeTra
  with_reducible repeat' first | assumption | apply canonical_ite | apply canonical_refArmDev | apply canonical_listArmDev | apply canonical_listStopDev | apply canonical_clrUncertDev | split | intro _ | dsimp only

theorem canonical_writeActuation (a) (w) {d : Device} (hd : d.Canonical) :
    OptCanonical (writeActuation a w d) := by
  unfold writeActuation
  with_reducible repeat' first | assumption | apply canonical_ite | apply optCanonical_none | apply optCanonical_some | apply optCanonical_ite | apply optCanonical_orElse | apply optCanonical_map | apply canonical_tbAdjDev | apply canonical_tbSlewDev | apply canonical_tbCtrlDev | apply canonical_limitWriteDev | apply canonical_writeTra | apply canonical_tioCtrlDev | apply canonical_tioCfgWriteDev | split | intro _ | dsimp only

theorem canonical_writeLane (a) (w) {d : Device} (hd : d.Canonical) :
    OptCanonical (writeLane a w d) := by
  unfold writeLane
  with_reducible repeat' first | assumption | apply canonical_ite | apply optCanonical_none | apply optCanonical_some | apply optCanonical_ite | apply optCanonical_orElse | apply optCanonical_map | apply canonical_lnCtrlDev | apply canonical_lnWriteTaps | split | intro _ | dsimp only

theorem canonical_writeActs (m) (who) (a) (r) (w) (hwSet) {d : Device} (hd : d.Canonical) :
    OptCanonical (writeActs m who a r w hwSet d) := by
  unfold writeActs
  with_reducible repeat' first | assumption | apply canonical_ite | apply optCanonical_none | apply optCanonical_some | apply optCanonical_ite | apply optCanonical_orElse | apply optCanonical_map | apply canonical_writeLane | (refine optCanonical_elim (by assumption) (canonical_writeLane ..)) | apply canonical_writeControl | (refine optCanonical_elim (by assumption) (canonical_writeControl ..)) | apply canonical_writeIntake | (refine optCanonical_elim (by assumption) (canonical_writeIntake ..)) | apply canonical_claPowerDev | apply canonical_writeActuation | (refine optCanonical_elim (by assumption) (canonical_writeActuation ..)) | apply canonical_memInitDev | split | intro _ | dsimp only

theorem canonical_writeReg (m) (who) (a) (r) (w) (hwSet) {d : Device} (hd : d.Canonical) :
    (writeReg m who a r w hwSet d).Canonical := by
  unfold writeReg
  have h0 := canonical_Device_reply 0 (canonical_latchPlic hd)
  have h1 := canonical_writeActs m who a r w hwSet h0
  split
  · exact h1 _ ‹_›
  · exact canonical_writePlain _ _ _ _ _ h0

theorem canonical_storeBytes (m) (x) {d : Device} (a) (bs) (hd : d.Canonical) :
    (storeBytes m x d a bs).Canonical := by
  unfold storeBytes
  with_reducible repeat' first | assumption | apply canonical_ite | apply canonical_cacheStore | apply canonical_Device_setBytes | split | intro _ | dsimp only

theorem canonical_writeCorrection (a) (bs) {d : Device} (hd : d.Canonical) :
    (writeCorrection a bs d).Canonical := by
  unfold writeCorrection
  extract_lets e d1
  have h1 : d1.Canonical := canonical_Device_setBytes _ _ hd
  clear_value e d1
  exact canonical_Device_setBytes _ _ (canonical_Device_setNum _ _ _ h1)

theorem canonical_keepEntry (a) {d : Device} (hd : d.Canonical) :
    (keepEntry a d).Canonical := by
  unfold keepEntry
  with_reducible repeat' first | assumption | apply canonical_ite | apply canonical_Device_setAxis | split | intro _ | dsimp only

theorem canonical_writeList (a) (v) {d0 : Device} (hd0 : d0.Canonical) :
    (writeList a v d0).Canonical := by
  unfold writeList
  with_reducible repeat' first | assumption | apply canonical_ite | apply canonical_keepEntry | apply canonical_Device_setNum | split | intro _ | dsimp only

theorem canonical_writeArea (m) (who) (a) (n) (x) (v) (hwSet) {d : Device} (hd : d.Canonical) :
    (writeArea m who a n x v hwSet d).Canonical := by
  unfold writeArea
  with_reducible repeat' first | assumption | apply canonical_ite | apply canonical_foldl | apply canonical_foldl_fst | apply canonical_busError | apply canonical_Device_reply | apply canonical_writeReg | apply canonical_writePlic | apply canonical_storeBytes | apply canonical_staging | apply canonical_stageTab | apply canonical_writeCorrection | apply canonical_Device_withSlu | apply canonical_Device_setBytes | apply canonical_writeList | apply canonical_fst (by assumption) | split | intro _ | dsimp only

theorem canonical_busWrite (m) (session) (a) (n) (atomic) (v) (hwSet) {d : Device} (hd : d.Canonical) :
    (busWrite m session a n atomic v hwSet d).Canonical := by
  unfold busWrite
  with_reducible repeat' first | assumption | apply canonical_ite | apply canonical_coreTrap | apply canonical_busError | apply canonical_writeArea | split | intro _ | dsimp only

theorem canonical_coreFetch (n) (a) (w) {d : Device} (hd : d.Canonical) :
    (coreFetch n a w d).Canonical := by
  unfold coreFetch
  with_reducible repeat' first | assumption | apply canonical_ite | fail_if_no_progress apply canonical_mk | apply canonical_busErrorAs | apply canonical_coreTrap | apply canonical_icacheFill | apply canonical_Device_reply | apply canonical_readArea | split | intro _ | dsimp only

theorem canonical_fenceI (n) {d : Device} (hd : d.Canonical) :
    (fenceI n d).Canonical := by
  unfold fenceI
  with_reducible repeat' first | assumption | apply canonical_Device_setCore | intro _ | dsimp only

theorem canonical_loadReserved (n) (a) (w) {d : Device} (hd : d.Canonical) :
    (loadReserved n a w d).Canonical := by
  unfold loadReserved
  with_reducible repeat' first | assumption | apply canonical_ite | fail_if_no_progress apply canonical_mk | apply canonical_busRead | split | intro _ | dsimp only

theorem canonical_storeConditional (n) (a) (w) (v) {d : Device} (hd : d.Canonical) :
    (storeConditional n a w v d).Canonical := by
  unfold storeConditional
  with_reducible repeat' first | assumption | apply canonical_ite | fail_if_no_progress apply canonical_mk | apply canonical_busWrite | apply canonical_Device_reply | split | intro _ | dsimp only

theorem canonical_coreTriggered {d : Device} (n) (a) (action) (hits) (hd : d.Canonical) :
    (coreTriggered d n a action hits).Canonical := by
  unfold coreTriggered
  with_reducible repeat' first | assumption | apply canonical_ite | apply canonical_foldl | apply canonical_foldl_fst | apply canonical_Device_setCore | apply canonical_haltHart | apply canonical_coreTrap | apply canonical_fst (by assumption) | split | intro _ | dsimp only

theorem canonical_coreStops (x) (write) {d : Device} (hd : d.Canonical) :
    OptCanonical (coreStops x write d) := by
  unfold coreStops
  with_reducible repeat' first | assumption | apply canonical_ite | fail_if_no_progress apply canonical_mk | apply optCanonical_none | apply optCanonical_some | apply optCanonical_ite | apply optCanonical_orElse | apply optCanonical_map | apply canonical_coreTriggered | apply canonical_coreTrap | split | intro _ | dsimp only

theorem canonical_accessWriteThrough (x) (v) (hwSet) {d : Device} (hd : d.Canonical) :
    (accessWriteThrough x v hwSet d).Canonical := by
  unfold accessWriteThrough
  with_reducible repeat' first | assumption | apply canonical_csrAccess | apply canonical_storeConditional | apply canonical_fenceI | apply canonical_busWrite | split | intro _ | dsimp only

theorem canonical_accessWrite (x) (v) (hwSet) {d : Device} (hd : d.Canonical) :
    (accessWrite x v hwSet d).Canonical := by
  unfold accessWrite
  have h := canonical_coreStops x true hd
  split
  · exact h _ ‹_›
  · exact canonical_accessWriteThrough _ _ _ hd

theorem canonical_accessReadThrough (x) (hwInc) {d : Device} (hd : d.Canonical) :
    (accessReadThrough x hwInc d).Canonical := by
  unfold accessReadThrough
  with_reducible repeat' first | assumption | apply canonical_csrAccess | apply canonical_coreFetch | apply canonical_loadReserved | apply canonical_fenceI | apply canonical_busRead | split | intro _ | dsimp only

theorem canonical_accessRead (x) (hwInc) {d : Device} (hd : d.Canonical) :
    (accessRead x hwInc d).Canonical := by
  unfold accessRead
  have h := canonical_coreStops x false hd
  split
  · exact h _ ‹_›
  · exact canonical_accessReadThrough _ _ hd

theorem canonical_windowWrite (lo) (hi) (x) (v) {d : Device} (hd : d.Canonical) :
    (windowWrite lo hi x v d).Canonical := by
  unfold windowWrite
  with_reducible repeat' first | assumption | apply canonical_ite | apply canonical_accessWrite | split | intro _ | dsimp only

theorem canonical_porst {d : Device} (hd : d.Canonical) :
    (porst d).Canonical := by
  have h := canonical_cutCommit hd
  exact ⟨rfl, rfl, Sparse.wf_filter _ _ _ h.mem, h.flash⟩

theorem canonical_porstDev (held) {d : Device} (hd : d.Canonical) :
    (porstDev held d).Canonical := by
  unfold porstDev
  with_reducible repeat' first | assumption | apply canonical_ite | apply canonical_porst | split | intro _ | dsimp only

theorem canonical_setPoints (coreMv) (tioMv) {d : Device} (hd : d.Canonical) :
    (setPoints coreMv tioMv d).Canonical := by
  unfold setPoints
  with_reducible repeat' first | assumption | apply canonical_ite | apply canonical_Device_withFlt | split | intro _ | dsimp only

theorem canonical_resetReleaseDev (mode) (levels) {d : Device} (hd : d.Canonical) :
    (resetReleaseDev mode levels d).Canonical := by
  unfold resetReleaseDev
  with_reducible repeat' first | assumption | apply canonical_ite | fail_if_no_progress apply canonical_mk | apply canonical_Device_set | apply canonical_setPoints | apply canonical_recoveryNet | apply canonical_bootFail | split | intro _ | dsimp only

theorem canonical_supplyDev (levels) {d : Device} (hd : d.Canonical) :
    (supplyDev levels d).Canonical := by
  unfold supplyDev
  with_reducible repeat' first | assumption | apply canonical_ite | apply canonical_porst | apply canonical_supplyJudge | split | intro _ | dsimp only

theorem canonical_applyTriple (m) (session) (a) (v) (mask) {d : Device} (hd : d.Canonical) :
    (applyTriple m session a v mask d).1.Canonical := by
  unfold applyTriple
  with_reducible repeat' first | assumption | apply canonical_ite | apply canonical_busWrite | split | intro _ | dsimp only

theorem canonical_applyTriples (m) (x1) (x2) {x3 : Device} (hx3 : x3.Canonical) :
    (applyTriples m x1 x2 x3).1.Canonical := by
  fun_induction applyTriples
  all_goals with_reducible repeat' first | assumption | fail_if_no_progress apply canonical_mk | apply canonical_applyTriple | apply canonical_fst (by assumption) | split | intro _ | dsimp only | apply_assumption

theorem canonical_loadByte {d : Device} (a) (b) (hd : d.Canonical) :
    (loadByte d a b).Canonical := by
  unfold loadByte
  with_reducible repeat' first | assumption | apply canonical_staging | apply canonical_stageTab | apply canonical_Device_setByte | split | intro _ | dsimp only

theorem canonical_loadBytes {d : Device} (a) (x2) (hd : d.Canonical) :
    (loadBytes d a x2).Canonical := by
  fun_induction loadBytes
  all_goals with_reducible repeat' first | assumption | fail_if_no_progress apply canonical_mk | apply canonical_loadByte | split | intro _ | dsimp only | apply_assumption

theorem canonical_loadRoles (b) {d : Device} (hd : d.Canonical) :
    (loadRoles b d).Canonical := by
  unfold loadRoles
  with_reducible repeat' first | assumption | apply canonical_Device_withEth | split | intro _ | dsimp only

theorem canonical_loadSection {d : Device} (s) (hd : d.Canonical) :
    (loadSection d s).Canonical := by
  unfold loadSection
  with_reducible repeat' first | assumption | apply canonical_ite | apply canonical_bootFail | apply canonical_applyTriples | apply canonical_fst (by assumption) | apply canonical_loadRoles | apply canonical_loadBytes | apply canonical_Device_withEth | split | intro _ | dsimp only

theorem canonical_loadSections (x0) {x1 : Device} (hx1 : x1.Canonical) :
    (loadSections x0 x1).Canonical := by
  fun_induction loadSections
  all_goals with_reducible repeat' first | assumption | apply canonical_ite | fail_if_no_progress apply canonical_mk | apply canonical_loadSection | split | intro _ | dsimp only | apply_assumption

theorem canonical_loadEarly (x0) {x1 : Device} (hx1 : x1.Canonical) :
    (loadEarly x0 x1).Canonical := by
  fun_induction loadEarly
  all_goals with_reducible repeat' first | assumption | apply canonical_ite | fail_if_no_progress apply canonical_mk | apply canonical_bootFail | apply canonical_applyTriples | apply canonical_fst (by assumption) | split | intro _ | dsimp only | apply_assumption

theorem canonical_baseCopy {d : Device} (hd : d.Canonical) :
    (baseCopy d).Canonical := by
  unfold baseCopy
  with_reducible repeat' first | assumption | apply canonical_Device_setBytes | intro _ | dsimp only

theorem canonical_loadSets {d : Device} (c) (hd : d.Canonical) :
    (loadSets d c).Canonical := by
  unfold loadSets
  with_reducible repeat' first | assumption | apply canonical_ite | apply canonical_foldl | apply canonical_foldl_fst | apply canonical_Device_withStaged | apply canonical_Device_raise | apply canonical_Device_setBytes | apply canonical_Device_set | apply canonical_showApplied | apply canonical_writeLive | apply canonical_fst (by assumption) | split | intro _ | dsimp only

theorem canonical_runtimeNet {d : Device} (hd : d.Canonical) :
    (runtimeNet d).Canonical := by
  unfold runtimeNet
  with_reducible repeat' first | assumption | apply canonical_Device_set | apply canonical_Device_setBit | intro _ | dsimp only

theorem canonical_pllLockDev (sfdp) (octal) {d : Device} (hd : d.Canonical) :
    (pllLockDev sfdp octal d).Canonical := by
  unfold pllLockDev
  with_reducible repeat' first | assumption | apply canonical_ite | fail_if_no_progress apply canonical_mk | apply canonical_bootFail | apply canonical_Device_set | apply canonical_loadEarly | apply canonical_memInitDev | split | intro _ | dsimp only

theorem canonical_jumpToEntry {d : Device} (hd : d.Canonical) :
    (jumpToEntry d).Canonical := by
  unfold jumpToEntry
  with_reducible repeat' first | assumption | fail_if_no_progress apply canonical_mk | apply canonical_Device_setCore | intro _ | dsimp only

theorem canonical_dramReadyDev {d : Device} (hd : d.Canonical) :
    (dramReadyDev d).Canonical := by
  unfold dramReadyDev
  with_reducible repeat' first | assumption | apply canonical_ite | apply canonical_foldl | apply canonical_foldl_fst | fail_if_no_progress apply canonical_mk | apply canonical_loadSections | apply canonical_Device_set | apply canonical_baseCopy | apply canonical_loadSets | apply canonical_Device_setBit | apply canonical_runtimeNet | apply canonical_jumpToEntry | apply canonical_fst (by assumption) | split | intro _ | dsimp only

end Sys2Proof.Machine
end

