-- ==== Sys2Proof/Laws/CanonicalNetwork.lean ====
section
/-! SUPPORT. Operations of Debug, Dma, NetOps, Eth, Kcp, Join, Pair, Lines keep every store in its canonical form. -/

namespace Sys2Proof.Machine

set_option Elab.async false
set_option linter.unusedTactic false
set_option linter.unreachableTactic false

theorem canonical_setDebug {d : Device} (x) (hd : d.Canonical) :
    (setDebug d x).Canonical := by
  unfold setDebug
  with_reducible repeat' first | assumption | fail_if_no_progress apply canonical_mk | intro _ | dsimp only

theorem canonical_debugData {d : Device} (v) (hd : d.Canonical) :
    (debugData d v).Canonical := by
  unfold debugData
  with_reducible repeat' first | assumption | apply canonical_setDebug | intro _ | dsimp only

theorem canonical_debugHalt (n) {d : Device} (hd : d.Canonical) :
    (debugHalt n d).Canonical := by
  unfold debugHalt
  with_reducible repeat' first | assumption | apply canonical_haltHart | intro _ | dsimp only

theorem canonical_debugResume (n) {d : Device} (hd : d.Canonical) :
    (debugResume n d).Canonical := by
  unfold debugResume
  with_reducible repeat' first | assumption | apply canonical_ite | apply canonical_Device_setCore | apply canonical_Device_setBit | split | intro _ | dsimp only

theorem canonical_resumeAsk (n) {d : Device} (hd : d.Canonical) :
    (resumeAsk n d).Canonical := by
  unfold resumeAsk
  with_reducible repeat' first | assumption | apply canonical_Device_setCore | apply canonical_debugResume | intro _ | dsimp only

theorem canonical_debugActive (on) {d : Device} (hd : d.Canonical) :
    (debugActive on d).Canonical := by
  unfold debugActive
  with_reducible repeat' first | assumption | apply canonical_ite | apply canonical_foldl | apply canonical_foldl_fst | apply canonical_setDebug | apply canonical_Device_setCore | apply canonical_masterReset | apply canonical_fst (by assumption) | split | intro _ | dsimp only

theorem canonical_abstractDev (n) (there) {f : Device → Device} {d : Device} (hf : ∀ (y0 : Device), y0.Canonical → (f y0).Canonical) (hd : d.Canonical) :
    (abstractDev n there f d).Canonical := by
  unfold abstractDev
  with_reducible repeat' first | assumption | apply canonical_ite | apply hf | apply canonical_setDebug | split | intro _ | dsimp only

theorem canonical_progbufRun (n) {d : Device} (hd : d.Canonical) :
    (progbufRun n d).Canonical := by
  unfold progbufRun
  with_reducible repeat' first | assumption | apply canonical_ite | fail_if_no_progress apply canonical_mk | apply canonical_Device_setCore | apply canonical_setDebug | split | intro _ | dsimp only

theorem canonical_debugBus {f : Device → Device} {d : Device} (hf : ∀ (y0 : Device), y0.Canonical → (f y0).Canonical) (hd : d.Canonical) :
    (debugBus f d).Canonical := by
  unfold debugBus
  with_reducible repeat' first | assumption | apply canonical_ite | apply hf | apply canonical_debugData | split | intro _ | dsimp only

theorem canonical_debugServe (q) {d : Device} (hd : d.Canonical) :
    (debugServe q d).Canonical := by
  unfold debugServe
  with_reducible repeat' first | assumption | apply canonical_ite | apply canonical_debugData | apply canonical_debugActive | apply canonical_debugHalt | apply canonical_resumeAsk | apply canonical_Device_setCore | apply canonical_abstractDev | apply canonical_regWrite | apply canonical_setDebug | apply canonical_progbufRun | apply canonical_debugBus | apply canonical_busRead | apply canonical_busWrite | split | intro _ | dsimp only

theorem canonical_dmServe (q) {d : Device} (hd : d.Canonical) :
    (dmServe q d).Canonical := by
  unfold dmServe
  with_reducible repeat' first | assumption | apply canonical_ite | apply canonical_debugServe | apply canonical_debugData | apply canonical_busError | split | intro _ | dsimp only

theorem canonical_dmiBus (write) {d : Device} (hd : d.Canonical) :
    (dmiBus write d).Canonical := by
  unfold dmiBus
  with_reducible repeat' first | assumption | apply canonical_ite | apply canonical_busWrite | apply canonical_busRead | apply canonical_setDebug | split | intro _ | dsimp only

theorem canonical_dmControl (v) {d : Device} (hd : d.Canonical) :
    (dmControl v d).Canonical := by
  unfold dmControl
  with_reducible repeat' first | assumption | apply canonical_ite | apply canonical_dmServe | apply canonical_setDebug | apply canonical_resumeAsk | split | intro _ | dsimp only

theorem canonical_dmCommand (v) {d : Device} (hd : d.Canonical) :
    (dmCommand v d).Canonical := by
  unfold dmCommand
  with_reducible repeat' first | assumption | apply canonical_ite | apply canonical_dmServe | apply canonical_setDebug | split | intro _ | dsimp only

theorem canonical_dmiWrite (a) (v) {d : Device} (hd : d.Canonical) :
    (dmiWrite a v d).Canonical := by
  unfold dmiWrite
  with_reducible repeat' first | assumption | apply canonical_ite | apply canonical_dmControl | apply canonical_setDebug | apply canonical_dmServe | apply canonical_dmCommand | apply canonical_dmiBus | split | intro _ | dsimp only

theorem canonical_dmiScan (v) {d : Device} (hd : d.Canonical) :
    (dmiScan v d).Canonical := by
  unfold dmiScan
  with_reducible repeat' first | assumption | apply canonical_ite | fail_if_no_progress apply canonical_mk | apply canonical_debugData | apply canonical_dmiBus | apply canonical_dmiWrite | split | intro _ | dsimp only

theorem canonical_drScan (v) {d : Device} (hd : d.Canonical) :
    (drScan v d).Canonical := by
  unfold drScan
  with_reducible repeat' first | assumption | apply canonical_ite | fail_if_no_progress apply canonical_mk | apply canonical_debugData | apply canonical_dmiScan | split | intro _ | dsimp only

theorem canonical_setIr (ir) {d : Device} (hd : d.Canonical) :
    (setIr ir d).Canonical := by
  unfold setIr
  with_reducible repeat' first | assumption | fail_if_no_progress apply canonical_mk | intro _ | dsimp only

theorem canonical_debugDev (q) {d : Device} (hd : d.Canonical) :
    (debugDev q d).Canonical := by
  unfold debugDev
  with_reducible repeat' first | assumption | apply canonical_setIr | apply canonical_drScan | apply canonical_dmServe | split | intro _ | dsimp only

theorem canonical_csumTake {d : Device} (c) (bs) (hd : d.Canonical) :
    (csumTake d c bs).Canonical := by
  unfold csumTake
  with_reducible repeat' first | assumption | apply canonical_ite | apply canonical_foldl | apply canonical_foldl_fst | fail_if_no_progress apply canonical_mk | apply canonical_Device_wr | apply canonical_fst (by assumption) | split | intro _ | dsimp only

theorem canonical_dmaAdvance {d : Device} (c) (e) (hd : d.Canonical) :
    (dmaAdvance d c e).Canonical := by
  unfold dmaAdvance
  with_reducible repeat' first | assumption | apply canonical_ite | apply canonical_Device_setPair | apply canonical_Device_wr | split | intro _ | dsimp only

theorem canonical_dmaReads (e) (x1) (x2) {x3 : Device} (hx3 : x3.Canonical) :
    (dmaReads e x1 x2 x3).2.2.Canonical := by
  induction x1 generalizing x2 x3 with
  | zero => exact hx3
  | succ n ih =>
    unfold dmaReads
    have h1 := canonical_busRead dmaMaster x2 e false 0 hx3
    extract_lets d1
    split
    · exact h1
    · exact ih _ h1

theorem canonical_dmaWrites (e) (x1) (x2) (x3) {x4 : Device} (hx4 : x4.Canonical) :
    (dmaWrites e x1 x2 x3 x4).2.Canonical := by
  induction x1 generalizing x2 x3 x4 with
  | zero => exact hx4
  | succ n ih =>
    unfold dmaWrites
    have h1 := canonical_busWrite dmaMaster 0 x2 e false (leNat (x3.take e)) 0#32 hx4
    extract_lets d1
    split
    · exact h1
    · exact ih _ _ h1

theorem canonical_dmaReadAccess (c) (left) {d : Device} (hd : d.Canonical) :
    (dmaReadAccess c left d).1.Canonical := by
  unfold dmaReadAccess
  have h := canonical_dmaReads (dmaSize d c) (dmaPiece d (d.bit (F.DMAc_CFG.SRC_FIX c)) (dmaSrc d c) (dmaSize d c) left / dmaSize d c) (dmaSrc d c) hd
  extract_lets
  split
  rename_i e
  have h1 := canonical_trd e h
  split
  · exact canonical_dmaHalt _ _ _ _ _ h1
  · dsimp only; exact canonical_Device_withChan _ _ h1

theorem canonical_dmaIssued (c) (a) (last) {d : Device} (hd : d.Canonical) :
    (dmaIssued c a last d).1.Canonical := by
  unfold dmaIssued
  with_reducible repeat' first | assumption | apply canonical_ite | fail_if_no_progress apply canonical_mk | apply canonical_dmaCompleted | apply canonical_Device_withChan | split | intro _ | dsimp only

theorem canonical_dmaWriteFails (c) (a) (last) {d : Device} (hd : d.Canonical) :
    (dmaWriteFails c a last d).1.Canonical := by
  unfold dmaWriteFails
  with_reducible repeat' first | assumption | apply canonical_ite | apply canonical_dmaHalt | apply canonical_dmaCompleted | split | intro _ | dsimp only

theorem canonical_dmaWriteAccess (c) {d : Device} (hd : d.Canonical) :
    (dmaWriteAccess c d).1.Canonical := by
  unfold dmaWriteAccess
  with_reducible repeat' first | assumption | apply canonical_dmaWrites | apply canonical_snd (by assumption) | apply canonical_dmaWriteFails | apply canonical_fst (by assumption) | apply canonical_dmaIssued | apply canonical_Device_withChan | apply canonical_dmaAdvance | apply canonical_csumTake | split | intro _ | dsimp only

theorem canonical_dmaSumAccess (c) {d : Device} (hd : d.Canonical) :
    (dmaSumAccess c d).1.Canonical := by
  unfold dmaSumAccess
  with_reducible repeat' first | assumption | apply canonical_ite | apply canonical_busWrite | apply canonical_dmaWriteFails | apply canonical_fst (by assumption) | apply canonical_dmaIssued | apply canonical_Device_withChan | split | intro _ | dsimp only

theorem canonical_dmaAccess (c) (left) {d : Device} (hd : d.Canonical) :
    (dmaAccess c left d).1.Canonical := by
  unfold dmaAccess
  with_reducible repeat' first | assumption | apply canonical_ite | apply canonical_dmaWriteAccess | apply canonical_fst (by assumption) | apply canonical_dmaReadAccess | apply canonical_dmaSumAccess | split | intro _ | dsimp only

theorem canonical_dmaWaited (c) (target) (g) {d : Device} (hd : d.Canonical) :
    (dmaWaited c target g d).Canonical := by
  unfold dmaWaited
  with_reducible repeat' first | assumption | apply canonical_ite | fail_if_no_progress apply canonical_mk | split | intro _ | dsimp only

theorem canonical_dmaSlot (c) (target) {d : Device} (hd : d.Canonical) :
    (dmaSlot c target d).1.Canonical := by
  unfold dmaSlot
  with_reducible repeat' first | assumption | apply canonical_ite | fail_if_no_progress apply canonical_mk | apply canonical_dmaWaited | apply canonical_dmaAccess | apply canonical_fst (by assumption) | split | intro _ | dsimp only

theorem canonical_dmaSlots (c) (target) (x2) {x3 : Device} (hx3 : x3.Canonical) :
    (dmaSlots c target x2 x3).1.Canonical := by
  fun_induction dmaSlots
  all_goals with_reducible repeat' first | assumption | apply canonical_ite | fail_if_no_progress apply canonical_mk | apply canonical_dmaSlot | apply canonical_fst (by assumption) | split | intro _ | dsimp only | apply_assumption

theorem canonical_dmaBytes {d : Device} (c) (bytes) (hd : d.Canonical) :
    (dmaBytes d c bytes).1.Canonical := by
  unfold dmaBytes
  with_reducible repeat' first | assumption | apply canonical_dmaSlots | apply canonical_fst (by assumption) | intro _ | dsimp only

theorem canonical_dmaFinish {d : Device} (c) (hd : d.Canonical) :
    (dmaFinish d c).Canonical := by
  unfold dmaFinish
  with_reducible repeat' first | assumption | apply canonical_dmaCompleted | apply canonical_dmaReturned | intro _ | dsimp only

theorem canonical_dmaCompleteDev (c) {d : Device} (hd : d.Canonical) :
    (dmaCompleteDev c d).Canonical := by
  unfold dmaCompleteDev
  with_reducible repeat' first | assumption | apply canonical_ite | apply canonical_dmaBytes | apply canonical_fst (by assumption) | apply canonical_dmaFinish | split | intro _ | dsimp only

theorem canonical_dmaDrainDev (c) (bytes) {d : Device} (hd : d.Canonical) :
    (dmaDrainDev c bytes d).Canonical := by
  unfold dmaDrainDev
  with_reducible repeat' first | assumption | apply canonical_ite | apply canonical_dmaBytes | apply canonical_fst (by assumption) | apply canonical_dmaHalt | apply canonical_dmaFinish | apply canonical_setDma | apply canonical_dmaReturned | split | intro _ | dsimp only

theorem canonical_dmaAbortDev (c) (bytes) {d : Device} (hd : d.Canonical) :
    (dmaAbortDev c bytes d).Canonical := by
  unfold dmaAbortDev
  with_reducible repeat' first | assumption | apply canonical_ite | apply canonical_dmaAborted | apply canonical_dmaBytes | apply canonical_fst (by assumption) | split | intro _ | dsimp only

theorem canonical_dmaErrorDev (c) (bytes) (write) (dram) (late) {d : Device} (hd : d.Canonical) :
    (dmaErrorDev c bytes write dram late d).Canonical := by
  unfold dmaErrorDev
  with_reducible repeat' first | assumption | apply canonical_ite | apply canonical_dmaHalt | apply canonical_latchBusError | apply canonical_Device_withChan | apply canonical_dmaBytes | apply canonical_fst (by assumption) | split | intro _ | dsimp only

theorem canonical_dmaDomainDev (c) (bytes) (outstanding) (write) {d : Device} (hd : d.Canonical) :
    (dmaDomainDev c bytes outstanding write d).Canonical := by
  unfold dmaDomainDev
  with_reducible repeat' first | assumption | apply canonical_ite | apply canonical_foldl | apply canonical_foldl_fst | apply canonical_dmaFlag | apply canonical_setDma | apply canonical_dmaBytes | apply canonical_fst (by assumption) | apply canonical_Device_free | apply canonical_snd (by assumption) | apply canonical_Device_setByte | apply canonical_dmaHalt | split | intro _ | dsimp only

theorem canonical_dramStore {d : Device} (a) (x2) (hd : d.Canonical) :
    (dramStore d a x2).Canonical := by
  induction x2 generalizing d a with
  | nil => exact hd
  | cons b t ih =>
    unfold dramStore
    exact ih _ (canonical_ite (fun _ => canonical_Device_setByte _ _ hd) (fun _ => hd))

theorem canonical_txFill {d : Device} (frame) (hd : d.Canonical) :
    (txFill d frame).Canonical := by
  unfold txFill
  with_reducible repeat' first | assumption | apply canonical_dramStore | apply canonical_Device_set | intro _ | dsimp only

theorem canonical_askMac {d : Device} (a) (hd : d.Canonical) :
    (askMac d a).Canonical := by
  unfold askMac
  with_reducible repeat' first | assumption | apply canonical_ite | apply canonical_Device_withEth | split | intro _ | dsimp only

theorem canonical_pump (x0) {x1 : Device} (hx1 : x1.Canonical) :
    (pump x0 x1).Canonical := by
  induction x0 generalizing x1 with
  | zero => exact hx1
  | succ n ih =>
    unfold pump
    refine canonical_ite (fun _ => hx1) (fun _ => ?_)
    split
    · exact hx1
    · refine ih ?_
      split
      · exact canonical_txFill _ (canonical_Device_withEth _ hx1)
      · exact canonical_Device_withEth _ hx1

theorem canonical_sendFirm {d : Device} (f) (hd : d.Canonical) :
    (sendFirm d f).Canonical := by
  unfold sendFirm
  with_reducible repeat' first | assumption | apply canonical_Device_withEth | apply canonical_pump | apply canonical_askMac | split | intro _ | dsimp only

theorem canonical_learn {d : Device} (a) (mac) (hd : d.Canonical) :
    (learn d a mac).Canonical := by
  unfold learn
  with_reducible repeat' first | assumption | apply canonical_pump | apply canonical_Device_withEth | intro _ | dsimp only

theorem canonical_arpServe (p) {d : Device} (hd : d.Canonical) :
    (arpServe p d).Canonical := by
  unfold arpServe
  with_reducible repeat' first | assumption | apply canonical_ite | apply canonical_learn | apply canonical_sendFirm | split | intro _ | dsimp only

theorem canonical_echoServe (f) (p) {d : Device} (hd : d.Canonical) :
    (echoServe f p d).Canonical := by
  unfold echoServe
  with_reducible repeat' first | assumption | apply canonical_ite | apply canonical_sendFirm | split | intro _ | dsimp only

theorem canonical_ndServe (p) {d : Device} (hd : d.Canonical) :
    (ndServe p d).Canonical := by
  unfold ndServe
  with_reducible repeat' first | assumption | apply canonical_ite | apply canonical_learn | apply canonical_sendFirm | split | intro _ | dsimp only

theorem canonical_dhcpStart {d : Device} (hd : d.Canonical) :
    (dhcpStart d).Canonical := by
  unfold dhcpStart
  with_reducible repeat' first | assumption | apply canonical_ite | apply canonical_Device_free | apply canonical_snd (by assumption) | apply canonical_sendFirm | apply canonical_Device_withEth | split | intro _ | dsimp only

theorem canonical_dhcpServe (m) {d : Device} (hd : d.Canonical) :
    (dhcpServe m d).Canonical := by
  unfold dhcpServe
  with_reducible repeat' first | assumption | apply canonical_ite | apply canonical_sendFirm | apply canonical_Device_withEth | apply canonical_dhcpStart | split | intro _ | dsimp only

theorem canonical_netServe (f) (p) (ok) {d : Device} (hd : d.Canonical) :
    (netServe f p ok d).Canonical := by
  unfold netServe
  with_reducible repeat' first | assumption | apply canonical_ite | apply canonical_arpServe | apply canonical_echoServe | apply canonical_ndServe | apply canonical_dhcpServe | split | intro _ | dsimp only

theorem canonical_linkUpRunDev {d : Device} (hd : d.Canonical) :
    (linkUpRunDev d).Canonical := by
  unfold linkUpRunDev
  with_reducible repeat' first | assumption | apply canonical_ite | apply canonical_dhcpStart | apply canonical_linkUpDev | split | intro _ | dsimp only

theorem canonical_buildTemplate (f) (client) (port) {d : Device} (hd : d.Canonical) :
    (buildTemplate f client port d).Canonical := by
  unfold buildTemplate
  with_reducible repeat' first | assumption | apply canonical_ite | fail_if_no_progress apply canonical_mk | apply canonical_Device_setBytes | split | intro _ | dsimp only

theorem canonical_ethPrbs {d : Device} (hd : d.Canonical) :
    (ethPrbs d).Canonical := by
  unfold ethPrbs
  with_reducible repeat' first | assumption | apply canonical_ite | apply canonical_foldl | apply canonical_foldl_fst | apply canonical_lnSend | apply canonical_fst (by assumption) | split | intro _ | dsimp only

theorem canonical_ptpStamp {d : Device} (tx) (m) (t) (hd : d.Canonical) :
    (ptpStamp d tx m t).Canonical := by
  unfold ptpStamp
  with_reducible repeat' first | assumption | apply canonical_ite | apply canonical_tsqPush | split | intro _ | dsimp only

theorem canonical_rxStamp {d : Device} (f) (p) (t) (hd : d.Canonical) :
    (rxStamp d f p t).Canonical := by
  unfold rxStamp
  with_reducible repeat' first | assumption | apply canonical_ite | apply canonical_ptpStamp | split | intro _ | dsimp only

theorem canonical_pauseRxDev (quanta) {d : Device} (hd : d.Canonical) :
    (pauseRxDev quanta d).Canonical := by
  unfold pauseRxDev
  with_reducible repeat' first | assumption | apply canonical_ite | apply canonical_Device_count | apply canonical_Device_setBit | split | intro _ | dsimp only

theorem canonical_pauseExpireDev {d : Device} (hd : d.Canonical) :
    (pauseExpireDev d).Canonical := by
  unfold pauseExpireDev
  with_reducible repeat' first | assumption | apply canonical_Device_setBit | intro _ | dsimp only

theorem canonical_rxQueue {d : Device} (q) (frame) (flags) (hd : d.Canonical) :
    (rxQueue d q frame flags).Canonical := by
  unfold rxQueue
  extract_lets head next
  clear_value head next
  refine canonical_ite (fun _ => canonical_Device_raise _ (canonical_Device_count _ _ hd)) (fun _ => ?_)
  exact canonical_pauseCheck (canonical_Device_count _ _ (canonical_Device_set _ _ (canonical_dramStore _ _ hd)))

theorem canonical_rxFrame (frame) (t) {d : Device} (hd : d.Canonical) :
    (rxFrame frame t d).Canonical := by
  unfold rxFrame
  with_reducible repeat' first | assumption | apply canonical_ite | apply canonical_Device_count | apply canonical_pauseRxDev | apply canonical_Device_raise | apply canonical_rxQueue | apply canonical_rxStamp | apply canonical_learn | apply canonical_netServe | split | intro _ | dsimp only

theorem canonical_ethRxDev (bytes) (corrected) (uncorrectable) (t) {d : Device} (hd : d.Canonical) :
    (ethRxDev bytes corrected uncorrectable t d).Canonical := by
  unfold ethRxDev
  with_reducible repeat' first | assumption | apply canonical_ite | apply canonical_Device_count | apply canonical_Device_raiseIf | apply canonical_rxFrame | split | intro _ | dsimp only

theorem canonical_clearUnread {d : Device} (a) (n) (hd : d.Canonical) :
    (clearUnread d a n).Canonical := by
  unfold clearUnread
  with_reducible repeat' first | assumption | fail_if_no_progress apply canonical_mk | intro _ | dsimp only

theorem canonical_recsCap {d : Device} (hd : d.Canonical) :
    (recsCap d).2.Canonical := by
  unfold recsCap
  with_reducible repeat' first | assumption | apply canonical_ite | apply canonical_Device_free | apply canonical_snd (by assumption) | split | intro _ | dsimp only

theorem canonical_objBuild {d : Device} (n) (hd : d.Canonical) :
    (objBuild d n).Canonical := by
  unfold objBuild
  with_reducible repeat' first | assumption | fail_if_no_progress apply canonical_mk | apply canonical_Device_withEth | apply canonical_Device_set | split | intro _ | dsimp only

theorem canonical_objFull {d : Device} (hd : d.Canonical) :
    (objFull d).Canonical := by
  unfold objFull
  with_reducible repeat' first | assumption | apply canonical_ite | apply canonical_recsCap | apply canonical_snd (by assumption) | apply canonical_objBuild | split | intro _ | dsimp only

theorem canonical_objFlushDev {d : Device} (hd : d.Canonical) :
    (objFlushDev d).Canonical := by
  unfold objFlushDev
  with_reducible repeat' first | assumption | apply canonical_ite | apply canonical_recsCap | apply canonical_snd (by assumption) | apply canonical_objBuild | split | intro _ | dsimp only

theorem canonical_fetchDatagramDev {d : Device} (hd : d.Canonical) :
    (fetchDatagramDev d).Canonical := by
  unfold fetchDatagramDev
  with_reducible repeat' first | assumption | apply canonical_ite | apply canonical_Device_setBit | apply canonical_clearUnread | apply canonical_Device_withEth | split | intro _ | dsimp only

theorem canonical_txAdvance {d : Device} (hd : d.Canonical) :
    (txAdvance d).Canonical := by
  unfold txAdvance
  with_reducible repeat' first | assumption | apply canonical_Device_set | intro _ | dsimp only

theorem canonical_txRing (t) {d : Device} (hd : d.Canonical) :
    (txRing t d).Canonical := by
  unfold txRing
  with_reducible repeat' first | assumption | apply canonical_ite | apply canonical_Device_count | apply canonical_txAdvance | apply canonical_Device_withEth | apply canonical_clearUnread | apply canonical_ptpStamp | apply canonical_Device_free | apply canonical_snd (by assumption) | apply canonical_tsqPush | split | intro _ | dsimp only

theorem canonical_txStream (g) {d : Device} (hd : d.Canonical) :
    (txStream g d).1.Canonical := by
  unfold txStream
  with_reducible repeat' first | assumption | apply canonical_ite | apply canonical_Device_count | apply canonical_Device_withEth | split | intro _ | dsimp only

theorem canonical_txFirm (x) (rest) {d : Device} (hd : d.Canonical) :
    (txFirm x rest d).Canonical := by
  unfold txFirm
  with_reducible repeat' first | assumption | fail_if_no_progress apply canonical_mk | apply canonical_Device_withEth | apply canonical_Device_count | split | intro _ | dsimp only

theorem canonical_txStreams {d : Device} (hd : d.Canonical) :
    (txStreams d).Canonical := by
  unfold txStreams
  with_reducible repeat' first | assumption | apply canonical_ite | apply canonical_objFull | apply canonical_txStream | apply canonical_fst (by assumption) | apply canonical_Device_withEth | apply canonical_Device_count | split | intro _ | dsimp only

theorem canonical_txFirmware (t) {d : Device} (hd : d.Canonical) :
    (txFirmware t d).Canonical := by
  unfold txFirmware
  with_reducible repeat' first | assumption | apply canonical_ite | apply canonical_pump | apply canonical_txRing | apply canonical_txFirm | split | intro _ | dsimp only

theorem canonical_ethTxDev (t) {d0 : Device} (hd0 : d0.Canonical) :
    (ethTxDev t d0).Canonical := by
  unfold ethTxDev
  with_reducible repeat' first | assumption | apply canonical_ite | apply canonical_pump | apply canonical_txAdvance | apply canonical_Device_withEth | apply canonical_ethPrbs | apply canonical_Device_count | apply canonical_txFirmware | apply canonical_txStreams | split | intro _ | dsimp only

theorem canonical_sendReply {d : Device} (q) (r) (hd : d.Canonical) :
    (sendReply d q r).Canonical := by
  unfold sendReply
  with_reducible repeat' first | assumption | apply canonical_sendFirm | apply canonical_Device_withEth | intro _ | dsimp only

theorem canonical_discardMsg {d : Device} (hd : d.Canonical) :
    (discardMsg d).Canonical := by
  unfold discardMsg
  with_reducible repeat' first | assumption | apply canonical_Device_withEth | intro _ | dsimp only

theorem canonical_kcpNo {d : Device} (status) (hd : d.Canonical) :
    (kcpNo d status).dev.Canonical := by
  unfold kcpNo
  with_reducible repeat' first | assumption | intro _ | dsimp only

theorem canonical_kcpAnswer (code) (q) (key) {r : KcpDone} (hr : r.dev.Canonical) :
    (kcpAnswer code q key r).Canonical := by
  unfold kcpAnswer
  with_reducible repeat' first | assumption | apply canonical_ite | apply canonical_KcpDone_dev | apply canonical_sendReply | apply canonical_setSession | apply canonical_storeReply | split | intro _ | dsimp only

theorem canonical_kcpSeq (code) (least) (rom) {run : Session → List Sys2Proof.Byte → Device → KcpDone} (q) (x) {d : Device} (hrun : ∀ (y0 : Session) (y1 : List Sys2Proof.Byte) (y2 : Device), y2.Canonical → (run y0 y1 y2).dev.Canonical) (hd : d.Canonical) :
    (kcpSeq code least rom run q x d).Canonical := by
  unfold kcpSeq
  with_reducible repeat' first | assumption | apply canonical_ite | apply hrun | apply canonical_sendReply | apply canonical_setSession | apply canonical_kcpNo | apply canonical_kcp (by assumption) | apply canonical_kcpAnswer | split | intro _ | dsimp only

theorem canonical_kcpServe (code) (least) (rom) {run : Session → List Sys2Proof.Byte → Device → KcpDone} (q) {d : Device} (hrun : ∀ (y0 : Session) (y1 : List Sys2Proof.Byte) (y2 : Device), y2.Canonical → (run y0 y1 y2).dev.Canonical) (hd : d.Canonical) :
    (kcpServe code least rom run q d).Canonical := by
  unfold kcpServe
  with_reducible repeat' first | assumption | apply canonical_ite | apply hrun | apply canonical_discardMsg | apply canonical_sendReply | apply canonical_kcpSeq | split | intro _ | dsimp only

theorem canonical_openSession (role) (key) (q) {d : Device} (hd : d.Canonical) :
    (openSession role key q d).Canonical := by
  unfold openSession
  with_reducible repeat' first | assumption | apply canonical_Device_free | apply canonical_snd (by assumption) | apply canonical_sendReply | apply canonical_Device_withEth | split | intro _ | dsimp only

theorem canonical_kcpOpenDev (q) {d : Device} (hd : d.Canonical) :
    (kcpOpenDev q d).Canonical := by
  unfold kcpOpenDev
  with_reducible repeat' first | assumption | apply canonical_ite | apply canonical_sendReply | apply canonical_discardMsg | apply canonical_openSession | split | intro _ | dsimp only

theorem canonical_runClose (x) (b) {d : Device} (hd : d.Canonical) :
    (runClose x b d).dev.Canonical := by
  unfold runClose
  with_reducible repeat' first | assumption | apply canonical_ite | apply canonical_kcpNo | apply canonical_kcp (by assumption) | apply canonical_closeSession | split | intro _ | dsimp only

theorem canonical_sessionIdleDev (id) {d : Device} (hd : d.Canonical) :
    (sessionIdleDev id d).Canonical := by
  unfold sessionIdleDev
  with_reducible repeat' first | assumption | apply canonical_ite | apply canonical_closeSession | split | intro _ | dsimp only

theorem canonical_readWords (x0) (x1) (x2) {x3 : Device} (hx3 : x3.Canonical) :
    (readWords x0 x1 x2 x3).2.2.Canonical := by
  induction x0 generalizing x1 x2 x3 with
  | zero => exact hx3
  | succ n ih =>
    unfold readWords
    have h1 := canonical_busRead 4 x1 4 false 0 hx3
    extract_lets d1
    split
    · exact h1
    · exact ih _ _ h1

theorem canonical_runRead (x) (b) {d : Device} (hd : d.Canonical) :
    (runRead x b d).dev.Canonical := by
  unfold runRead
  with_reducible repeat' first | assumption | apply canonical_ite | apply canonical_kcpNo | apply canonical_kcp (by assumption) | apply canonical_readWords | apply canonical_trd (by assumption) | split | intro _ | dsimp only

theorem canonical_writeWords (id) (x1) (x2) (x3) (x4) {x5 : Device} (hx5 : x5.Canonical) :
    (writeWords id x1 x2 x3 x4 x5).dev.Canonical := by
  fun_induction writeWords
  all_goals with_reducible repeat' first | assumption | apply canonical_ite | fail_if_no_progress apply canonical_mk | apply canonical_State_dev | apply canonical_busError | apply canonical_OpenAcc_dev | apply canonical_busWrite | apply canonical_KcpDone_dev | apply canonical_kcpNo | apply canonical_kcp (by assumption) | split | intro _ | dsimp only | apply_assumption

theorem canonical_runWrite (x) (b) {d : Device} (hd : d.Canonical) :
    (runWrite x b d).dev.Canonical := by
  unfold runWrite
  with_reducible repeat' first | assumption | apply canonical_ite | apply canonical_kcpNo | apply canonical_kcp (by assumption) | apply canonical_writeWords | split | intro _ | dsimp only

theorem canonical_stageTriples (id) (x1) (x2) (x3) {x4 : Device} (hx4 : x4.Canonical) :
    (stageTriples id x1 x2 x3 x4).dev.Canonical := by
  fun_induction stageTriples
  all_goals with_reducible repeat' first | assumption | apply canonical_ite | fail_if_no_progress apply canonical_mk | apply canonical_State_dev | apply canonical_OpenAcc_dev | apply canonical_applyTriple | apply canonical_fst (by assumption) | apply canonical_KcpDone_dev | split | intro _ | dsimp only | apply_assumption

theorem canonical_runStageAdd (x) (b) {d : Device} (hd : d.Canonical) :
    (runStageAdd x b d).dev.Canonical := by
  unfold runStageAdd
  with_reducible repeat' first | assumption | apply canonical_ite | apply canonical_kcpNo | apply canonical_kcp (by assumption) | apply canonical_stageTriples | split | intro _ | dsimp only

theorem canonical_runStageCancel (x) (b) {d : Device} (hd : d.Canonical) :
    (runStageCancel x b d).dev.Canonical := by
  unfold runStageCancel
  with_reducible repeat' first | assumption | apply canonical_ite | apply canonical_kcpNo | apply canonical_kcp (by assumption) | apply canonical_ownerLeaves | split | intro _ | dsimp only

theorem canonical_runCommit (x) (b) {d : Device} (hd : d.Canonical) :
    (runCommit x b d).dev.Canonical := by
  unfold runCommit
  with_reducible repeat' first | assumption | apply canonical_ite | apply canonical_kcpNo | apply canonical_kcp (by assumption) | apply canonical_busWrite | apply canonical_sluCommit | split | intro _ | dsimp only

theorem canonical_runStatus (x0) (b) {d : Device} (hd : d.Canonical) :
    (runStatus x0 b d).dev.Canonical := by
  unfold runStatus
  with_reducible repeat' first | assumption | apply canonical_ite | apply canonical_kcpNo | apply canonical_kcp (by assumption) | split | intro _ | dsimp only

theorem canonical_runStreamStart (x) (b) {d : Device} (hd : d.Canonical) :
    (runStreamStart x b d).dev.Canonical := by
  unfold runStreamStart
  with_reducible repeat' first | assumption | apply canonical_ite | apply canonical_kcpNo | apply canonical_kcp (by assumption) | apply canonical_Device_setBit | apply canonical_buildTemplate | apply canonical_Device_withEth | split | intro _ | dsimp only

theorem canonical_runStreamStop (x) (b) {d : Device} (hd : d.Canonical) :
    (runStreamStop x b d).dev.Canonical := by
  unfold runStreamStop
  with_reducible repeat' first | assumption | apply canonical_ite | apply canonical_kcpNo | apply canonical_kcp (by assumption) | apply canonical_Device_setBit | apply canonical_Device_withEth | split | intro _ | dsimp only

theorem canonical_runFetch (x) (b) {d : Device} (hd : d.Canonical) :
    (runFetch x b d).dev.Canonical := by
  unfold runFetch
  with_reducible repeat' first | assumption | apply canonical_ite | apply canonical_kcpNo | apply canonical_kcp (by assumption) | apply canonical_buildTemplate | apply canonical_Device_setBit | apply canonical_Device_withEth | split | intro _ | dsimp only

theorem canonical_runPost (x0) (b) {d : Device} (hd : d.Canonical) :
    (runPost x0 b d).dev.Canonical := by
  unfold runPost
  with_reducible repeat' first | assumption | apply canonical_ite | apply canonical_kcpNo | apply canonical_kcp (by assumption) | apply canonical_mbxWriteDev | split | intro _ | dsimp only

theorem canonical_runMailRead (x0) (b) {d : Device} (hd : d.Canonical) :
    (runMailRead x0 b d).dev.Canonical := by
  unfold runMailRead
  with_reducible repeat' first | assumption | apply canonical_ite | apply canonical_kcpNo | apply canonical_kcp (by assumption) | apply canonical_mbxReadDev | apply canonical_latchPlic | split | intro _ | dsimp only

theorem canonical_runFire (x0) (b) {d : Device} (hd : d.Canonical) :
    (runFire x0 b d).dev.Canonical := by
  unfold runFire
  with_reducible repeat' first | assumption | apply canonical_ite | apply canonical_kcpNo | apply canonical_kcp (by assumption) | apply canonical_evtFireDev | split | intro _ | dsimp only

theorem canonical_runNvStart (op) (x) (b) {d : Device} (hd : d.Canonical) :
    (runNvStart op x b d).dev.Canonical := by
  unfold runNvStart
  with_reducible repeat' first | assumption | apply canonical_kcpNo | apply canonical_kcp (by assumption) | apply canonical_Device_withEth | split | intro _ | dsimp only

theorem canonical_runNvRead (x) (b) {d : Device} (hd : d.Canonical) :
    (runNvRead x b d).dev.Canonical := by
  unfold runNvRead
  with_reducible repeat' first | assumption | apply canonical_ite | apply canonical_kcpNo | apply canonical_kcp (by assumption) | split | intro _ | dsimp only

theorem canonical_runNvCrc (x) (b) {d : Device} (hd : d.Canonical) :
    (runNvCrc x b d).dev.Canonical := by
  unfold runNvCrc
  with_reducible repeat' first | assumption | apply canonical_kcpNo | apply canonical_kcp (by assumption) | split | intro _ | dsimp only

theorem canonical_nvWrite {d : Device} (o) (x2) (hd : d.Canonical) :
    (nvWrite d o x2).Canonical := by
  induction x2 generalizing d o with
  | nil => exact hd
  | cons b t ih =>
    unfold nvWrite
    split
    rename_i v d1 e
    refine ih _ (canonical_flashPut ?_ o v)
    split at e
    · cases e; exact hd
    · cases e; exact canonical_Device_free 8 hd

theorem canonical_nvDoneDev {d : Device} (hd : d.Canonical) :
    (nvDoneDev d).Canonical := by
  unfold nvDoneDev
  repeat' first | with_reducible assumption | with_reducible apply canonical_ite | with_reducible apply canonical_pendingEnds | with_reducible apply canonical_nvWrite | with_reducible apply canonical_flashFilter | with_reducible apply canonical_Device_withEth | split | intro _

theorem canonical_runLog (x) (b) {d : Device} (hd : d.Canonical) :
    (runLog x b d).dev.Canonical := by
  unfold runLog
  with_reducible repeat' first | assumption | apply canonical_ite | fail_if_no_progress apply canonical_mk | apply canonical_kcpNo | apply canonical_kcp (by assumption) | apply canonical_Device_free | apply canonical_snd (by assumption) | split | intro _ | dsimp only

theorem canonical_runUnknown (x0) (x1) {d : Device} (hd : d.Canonical) :
    (runUnknown x0 x1 d).dev.Canonical := by
  unfold runUnknown
  with_reducible repeat' first | assumption | apply canonical_kcpNo | apply canonical_kcp (by assumption) | intro _ | dsimp only

theorem canonical_takeStaged {d : Device} (regs) (tabs) (hd : d.Canonical) :
    (takeStaged d regs tabs).Canonical := by
  unfold takeStaged
  with_reducible repeat' first | assumption | apply canonical_foldl | apply canonical_foldl_fst | apply canonical_setOwner | apply canonical_discardStaged | apply canonical_stageReg | apply canonical_stageTab | apply canonical_fst (by assumption) | split | intro _ | dsimp only

theorem canonical_takeSnapshot {d : Device} (regs) (tabs) (hd : d.Canonical) :
    (takeSnapshot d regs tabs).Canonical := by
  unfold takeSnapshot
  with_reducible repeat' first | assumption | apply canonical_takeStaged | split | intro _ | dsimp only

theorem canonical_remoteCommit {d : Device} (root) (a) {land : Device → Device} (hd : d.Canonical) (hland : ∀ (y0 : Device), y0.Canonical → (land y0).Canonical) :
    (remoteCommit d root a land).1.Canonical := by
  unfold remoteCommit
  with_reducible repeat' first | assumption | apply canonical_ite | apply hland | apply canonical_sluCommit | apply canonical_Device_wr | apply canonical_setOwner | apply canonical_discardStaged | split | intro _ | dsimp only

theorem canonical_awaitCalSet {d : Device} (a) (c) (hd : d.Canonical) :
    (awaitCalSet d a c).Canonical := by
  unfold awaitCalSet
  with_reducible repeat' first | assumption | fail_if_no_progress apply canonical_mk | apply canonical_dropRecomputes | apply canonical_takeSets | intro _ | dsimp only

theorem canonical_applyCalSet {d : Device} (a) (c) (hd : d.Canonical) :
    (applyCalSet d a c).Canonical := by
  unfold applyCalSet
  with_reducible repeat' first | assumption | apply canonical_Device_set | apply canonical_clearDue | apply canonical_takeSets | apply canonical_commitQueue | apply canonical_tempCheck | intro _ | dsimp only

theorem canonical_applySnapCal {d : Device} (c) (hd : d.Canonical) :
    (applySnapCal d c).Canonical := by
  unfold applySnapCal
  with_reducible repeat' first | assumption | apply canonical_foldl | apply canonical_foldl_fst | apply canonical_rewriteLive | apply canonical_Device_set | apply canonical_takeSets | apply canonical_Device_setBytes | apply canonical_fst (by assumption) | intro _ | dsimp only

theorem canonical_storePlan {d : Device} (p) (hd : d.Canonical) :
    (storePlan d p).Canonical := by
  unfold storePlan
  with_reducible repeat' first | assumption | fail_if_no_progress apply canonical_mk | intro _ | dsimp only

theorem canonical_applyItem {d : Device} (a) (b) (hd : d.Canonical) :
    (applyItem d a b).Canonical := by
  unfold applyItem
  with_reducible repeat' first | assumption | apply canonical_Device_count | apply canonical_applyCalSet | apply canonical_storePlan | apply canonical_Device_withPair | apply canonical_applySnapCal | split | intro _ | dsimp only

theorem canonical_dueItems {d : Device} (c) (hd : d.Canonical) :
    (dueItems d c).Canonical := by
  unfold dueItems
  with_reducible repeat' first | assumption | apply canonical_foldl | apply canonical_foldl_fst | apply canonical_applyItem | apply canonical_Device_withPair | apply canonical_fst (by assumption) | intro _ | dsimp only

theorem canonical_startServe {d : Device} (hd : d.Canonical) :
    (startServe d).Canonical := by
  unfold startServe
  with_reducible repeat' first | assumption | apply canonical_foldl | apply canonical_foldl_fst | apply canonical_pushItem | apply canonical_Device_setServe | apply canonical_fst (by assumption) | intro _ | dsimp only

theorem canonical_serveLine {d : Device} (c) (hd : d.Canonical) :
    (serveLine d c).Canonical := by
  unfold serveLine
  with_reducible repeat' first | assumption | apply canonical_ite | apply canonical_sendItem | apply canonical_Device_setServe | split | intro _ | dsimp only

theorem canonical_serveSend {d : Device} (hd : d.Canonical) :
    (serveSend d).Canonical := by
  unfold serveSend
  with_reducible repeat' first | assumption | apply canonical_ite | apply canonical_sendItem | apply canonical_Device_withPair | split | intro _ | dsimp only

theorem canonical_serveStatus {d : Device} (st) (hd : d.Canonical) :
    (serveStatus d st).Canonical := by
  unfold serveStatus
  with_reducible repeat' first | assumption | apply canonical_ite | apply canonical_startServe | apply canonical_Device_withPair | split | intro _ | dsimp only

theorem canonical_shiftAll {d : Device} (v) (h) (hd : d.Canonical) :
    (shiftAll d v h).Canonical := by
  unfold shiftAll
  with_reducible repeat' first | assumption | apply canonical_foldl | apply canonical_foldl_fst | fail_if_no_progress apply canonical_mk | apply canonical_Device_setSeg | apply canonical_fst (by assumption) | split | intro _ | dsimp only

theorem canonical_takeObservers {d : Device} (c) (hd : d.Canonical) :
    (takeObservers d c).Canonical := by
  unfold takeObservers
  with_reducible repeat' first | assumption | apply canonical_foldl | apply canonical_foldl_fst | fail_if_no_progress apply canonical_mk | apply canonical_Device_set | apply canonical_Device_setAxis | apply canonical_fst (by assumption) | intro _ | dsimp only

theorem canonical_adoptEpoch {d : Device} (hd : d.Canonical) :
    (adoptEpoch d).Canonical := by
  unfold adoptEpoch
  with_reducible repeat' first | assumption | apply canonical_ite | apply canonical_Device_set | split | intro _ | dsimp only

theorem canonical_joinFinish {d : Device} (hd : d.Canonical) :
    (joinFinish d).Canonical := by
  unfold joinFinish
  with_reducible repeat' first | assumption | apply canonical_ite | apply canonical_foldl | apply canonical_foldl_fst | apply canonical_Device_set | apply canonical_shiftAll | apply canonical_takeObservers | apply canonical_Device_withPair | apply canonical_Device_raise | apply canonical_enterPair | apply canonical_adoptEpoch | apply canonical_fst (by assumption) | split | intro _ | dsimp only

theorem canonical_itemLate {d : Device} (hd : d.Canonical) :
    (itemLate d).Canonical := by
  unfold itemLate
  with_reducible repeat' first | assumption | apply canonical_enterPair | apply canonical_Device_count | intro _ | dsimp only

theorem canonical_itemRx (a) (b) {d : Device} (hd : d.Canonical) :
    (itemRx a b d).Canonical := by
  unfold itemRx
  with_reducible repeat' first | assumption | apply canonical_ite | fail_if_no_progress apply canonical_mk | apply canonical_joinFinish | apply canonical_Device_withPair | apply canonical_Device_count | apply canonical_itemLate | apply canonical_remoteCommit | apply canonical_fst (by assumption) | apply canonical_takeStaged | apply canonical_commitTo | apply canonical_takeSnapshot | apply canonical_awaitCalSet | split | intro _ | dsimp only

theorem canonical_openCycle {d : Device} (c) (t) (hd : d.Canonical) :
    (openCycle d c t).Canonical := by
  unfold openCycle
  with_reducible repeat' first | assumption | apply canonical_ite | apply canonical_Device_withPair | split | intro _ | dsimp only

theorem canonical_judge1 {d : Device} (c) (hd : d.Canonical) :
    (judge1 d c).Canonical := by
  unfold judge1
  with_reducible repeat' first | assumption | apply canonical_Device_withPair | intro _ | dsimp only

theorem canonical_mismatch {d : Device} (hd : d.Canonical) :
    (mismatch d).Canonical := by
  unfold mismatch
  with_reducible repeat' first | assumption | apply canonical_ite | apply canonical_Device_raise | apply canonical_Device_count | apply canonical_Device_withPair | split | intro _ | dsimp only

theorem canonical_matching {d : Device} (hd : d.Canonical) :
    (matching d).Canonical := by
  unfold matching
  with_reducible repeat' first | assumption | apply canonical_ite | apply canonical_Device_count | apply canonical_Device_withPair | split | intro _ | dsimp only

theorem canonical_compareCycle {d : Device} (c) (hd : d.Canonical) :
    (compareCycle d c).Canonical := by
  unfold compareCycle
  with_reducible repeat' first | assumption | apply canonical_ite | apply canonical_judge1 | apply canonical_matching | apply canonical_Device_withPair | apply canonical_pairOutOfStep | apply canonical_mismatch | split | intro _ | dsimp only

theorem canonical_digestMissing {d : Device} (k) (hd : d.Canonical) :
    (digestMissing d k).Canonical := by
  unfold digestMissing
  with_reducible repeat' first | assumption | apply canonical_ite | apply canonical_mismatch | apply canonical_judge1 | split | intro _ | dsimp only

theorem canonical_selfConclude {d : Device} (hd : d.Canonical) :
    (selfConclude d).Canonical := by
  unfold selfConclude
  with_reducible repeat' first | assumption | apply canonical_ite | apply canonical_Device_withPair | apply canonical_Device_fault | apply canonical_Device_raise | apply canonical_enterPair | split | intro _ | dsimp only

theorem canonical_selfStart {d : Device} (hd : d.Canonical) :
    (selfStart d).Canonical := by
  unfold selfStart
  with_reducible repeat' first | assumption | apply canonical_ite | apply canonical_Device_setBit | apply canonical_Device_withPair | split | intro _ | dsimp only

theorem canonical_selfDoneDev (pass) {d : Device} (hd : d.Canonical) :
    (selfDoneDev pass d).Canonical := by
  unfold selfDoneDev
  with_reducible repeat' first | assumption | apply canonical_ite | apply canonical_Device_setBit | apply canonical_Device_withPair | apply canonical_selfConclude | apply canonical_pairFail | split | intro _ | dsimp only

theorem canonical_cycleCommitDev {d : Device} (hd : d.Canonical) :
    (cycleCommitDev d).Canonical := by
  unfold cycleCommitDev
  with_reducible repeat' first | assumption | apply canonical_ite | fail_if_no_progress apply canonical_mk | apply canonical_Device_withPair | apply canonical_spoutCommit | apply canonical_queueFrame | apply canonical_compareCycle | split | intro _ | dsimp only

theorem canonical_commitDeadlineDev {d : Device} (hd : d.Canonical) :
    (commitDeadlineDev d).Canonical := by
  unfold commitDeadlineDev
  with_reducible repeat' first | assumption | apply canonical_ite | apply canonical_Device_elapseTo | apply canonical_spoutHold | apply canonical_Device_raise | apply canonical_Device_count | apply canonical_Device_withPair | split | intro _ | dsimp only

theorem canonical_digestRx (b) {d : Device} (hd : d.Canonical) :
    (digestRx b d).Canonical := by
  unfold digestRx
  with_reducible repeat' first | assumption | apply canonical_ite | apply canonical_Device_withPair | apply canonical_selfConclude | apply canonical_compareCycle | split | intro _ | dsimp only

theorem canonical_statusDueDev {d : Device} (hd : d.Canonical) :
    (statusDueDev d).Canonical := by
  unfold statusDueDev
  with_reducible repeat' first | assumption | apply canonical_ite | apply canonical_foldl | apply canonical_foldl_fst | apply canonical_joinFinish | apply canonical_serveSend | apply canonical_queueFrame | apply canonical_fst (by assumption) | split | intro _ | dsimp only

theorem canonical_onStatus (b) {d : Device} (hd : d.Canonical) :
    (onStatus b d).Canonical := by
  unfold onStatus
  with_reducible repeat' first | assumption | apply canonical_ite | apply canonical_takeOver | apply canonical_enterPair | apply canonical_adoptEpoch | apply canonical_Device_raise | apply canonical_homeActive | split | intro _ | dsimp only

theorem canonical_statusRx (b) {d : Device} (hd : d.Canonical) :
    (statusRx b d).Canonical := by
  unfold statusRx
  with_reducible repeat' first | assumption | apply canonical_ite | fail_if_no_progress apply canonical_mk | apply canonical_Device_withPair | apply canonical_onStatus | apply canonical_joinFinish | apply canonical_serveSend | apply canonical_serveStatus | split | intro _ | dsimp only

theorem canonical_takeoverDev {d : Device} (hd : d.Canonical) :
    (takeoverDev d).Canonical := by
  unfold takeoverDev
  with_reducible repeat' first | assumption | apply canonical_ite | apply canonical_takeOver | apply canonical_Device_elapse | split | intro _ | dsimp only

theorem canonical_activateTimeoutDev {d : Device} (hd : d.Canonical) :
    (activateTimeoutDev d).Canonical := by
  unfold activateTimeoutDev
  with_reducible repeat' first | assumption | apply canonical_ite | apply canonical_homeActive | apply canonical_takeRole | split | intro _ | dsimp only

theorem canonical_helloTimeoutDev {d : Device} (hd : d.Canonical) :
    (helloTimeoutDev d).Canonical := by
  unfold helloTimeoutDev
  with_reducible repeat' first | assumption | apply canonical_ite | apply canonical_enterPair | split | intro _ | dsimp only

theorem canonical_lineRx (l) (ts) (speed) {d : Device} (hd : d.Canonical) :
    (lineRx l ts speed d).Canonical := by
  unfold lineRx
  with_reducible repeat' first | assumption | apply canonical_ite | fail_if_no_progress apply canonical_mk | apply canonical_Device_asOf | apply canonical_recordStamp | apply canonical_Device_withSlu | split | intro _ | dsimp only

theorem canonical_revertLine {d : Device} (c) (hd : d.Canonical) :
    (revertLine d c).Canonical := by
  unfold revertLine
  with_reducible repeat' first | assumption | apply canonical_ite | apply canonical_Device_raise | apply canonical_takeRole | apply canonical_Device_withPair | apply canonical_enterPair | apply canonical_nextEpoch | split | intro _ | dsimp only

theorem canonical_confirmRx (from_) (a) {d : Device} (hd : d.Canonical) :
    (confirmRx from_ a d).Canonical := by
  unfold confirmRx
  with_reducible repeat' first | assumption | apply canonical_ite | apply canonical_armOrApply | apply canonical_tellDown | split | intro _ | dsimp only

theorem canonical_passedRx (from_) (a) {d : Device} (hd : d.Canonical) :
    (passedRx from_ a d).Canonical := by
  unfold passedRx
  refine canonical_ite (fun _ => hd) (fun _ => ?_)
  extract_lets _ d1
  have h1 : d1.Canonical := by
    cases from_ <;> first | exact hd | exact canonical_Device_withSlu _ hd
  exact canonical_ite (fun _ => canonical_allPassed h1) (fun _ => h1)

theorem canonical_refusedRx (from_) (a) {d : Device} (hd : d.Canonical) :
    (refusedRx from_ a d).Canonical := by
  unfold refusedRx
  with_reducible repeat' first | assumption | apply canonical_ite | apply canonical_sluRefuse | apply canonical_sluCancelled | split | intro _ | dsimp only

theorem canonical_commitRx (from_) (a) (m) {d : Device} (hd : d.Canonical) :
    (commitRx from_ a m d).Canonical := by
  unfold commitRx
  repeat' first | with_reducible assumption | with_reducible apply canonical_ite | with_reducible apply canonical_remoteCommit | with_reducible apply canonical_fst (by assumption) | with_reducible apply canonical_commitTo | with_reducible apply canonical_passedRx | with_reducible apply canonical_refusedRx | with_reducible apply canonical_confirmRx | with_reducible apply canonical_sluCancelled | split | intro _ | dsimp only [id]

theorem canonical_chainSplit {d : Device} (hd : d.Canonical) :
    (chainSplit d).Canonical := by
  unfold chainSplit
  with_reducible repeat' first | assumption | apply canonical_Device_fault | apply canonical_Device_raise | apply canonical_recordRefusal | apply canonical_toOpen | apply canonical_commitEnded | apply canonical_discardStaged | apply canonical_tellDown | apply canonical_commitTo | intro _ | dsimp only

theorem canonical_commitLine {d : Device} (c) (hd : d.Canonical) :
    (commitLine d c).Canonical := by
  unfold commitLine
  with_reducible repeat' first | assumption | apply canonical_ite | apply canonical_sluRefuse | apply canonical_sluCancelled | apply canonical_chainSplit | split | intro _ | dsimp only

theorem canonical_windowRx (line) (w) {d : Device} (hd : d.Canonical) :
    (windowRx line w d).Canonical := by
  unfold windowRx
  with_reducible repeat' first | assumption | apply canonical_ite | apply canonical_Device_asOf | apply canonical_Device_count | apply canonical_noValve | apply canonical_placeAll | apply canonical_fst (by assumption) | split | intro _ | dsimp only

theorem canonical_accessRx (n) (src) (write) (addr) (data) {d : Device} (hd : d.Canonical) :
    (accessRx n src write addr data d).Canonical := by
  unfold accessRx
  with_reducible repeat' first | assumption | apply canonical_ite | apply canonical_queueFrame | apply canonical_busWrite | apply canonical_busRead | split | intro _ | dsimp only

theorem canonical_peerFrame (n) (h) (b) {act : Device → Device} {d : Device} (hact : ∀ (y0 : Device), y0.Canonical → (act y0).Canonical) (hd : d.Canonical) :
    (peerFrame n h b act d).Canonical := by
  unfold peerFrame
  with_reducible repeat' first | assumption | apply canonical_ite | apply hact | apply canonical_peerArrive | apply canonical_fst (by assumption) | apply canonical_confirmRx | split | intro _ | dsimp only

theorem canonical_onPrivate (n) {act : Device → Device} {d : Device} (hact : ∀ (y0 : Device), y0.Canonical → (act y0).Canonical) (hd : d.Canonical) :
    (onPrivate n act d).Canonical := by
  unfold onPrivate
  with_reducible repeat' first | assumption | apply canonical_ite | apply hact | split | intro _ | dsimp only

theorem canonical_peerTrainRx (n) (reply) (word) {d : Device} (hd : d.Canonical) :
    (peerTrainRx n reply word d).Canonical := by
  unfold peerTrainRx
  with_reducible repeat' first | assumption | apply canonical_ite | apply canonical_peerTrainReply | apply canonical_peerTrainRequest | split | intro _ | dsimp only

theorem canonical_oldStamp {d : Device} (c) (ts) (hd : d.Canonical) :
    (oldStamp d c ts).Canonical := by
  unfold oldStamp
  with_reducible repeat' first | assumption | apply canonical_ite | apply canonical_Device_withSlu | split | intro _ | dsimp only

theorem canonical_beltStampDev {d : Device} (hd : d.Canonical) :
    (beltStampDev d).Canonical := by
  unfold beltStampDev
  with_reducible repeat' first | assumption | apply canonical_ite | fail_if_no_progress apply canonical_mk | apply canonical_Device_elapseTo | apply canonical_Device_asOf | apply canonical_recordStamp | apply canonical_oldStamp | apply canonical_Device_raiseIf | apply canonical_queueFrame | split | intro _ | dsimp only

theorem canonical_lineCurrent {d0 : Device} (c) (t) (hd0 : d0.Canonical) :
    (lineCurrent d0 c t).Canonical := by
  unfold lineCurrent
  with_reducible repeat' first | assumption | apply canonical_ite | fail_if_no_progress apply canonical_mk | apply canonical_Device_wr | apply canonical_Device_asOf | apply canonical_recordStamp | split | intro _ | dsimp only

theorem canonical_applyAt {d : Device} (c) (t) (hd : d.Canonical) :
    (applyAt d c t).Canonical := by
  unfold applyAt
  with_reducible repeat' first | assumption | apply canonical_ite | apply canonical_Device_asOf | apply canonical_applyArmed | split | intro _ | dsimp only

theorem canonical_partnerDemand {d : Device} (k) (hd : d.Canonical) :
    (partnerDemand d k).Canonical := by
  unfold partnerDemand
  with_reducible repeat' first | assumption | apply canonical_ite | fail_if_no_progress apply canonical_mk | split | intro _ | dsimp only

theorem canonical_flushItems {d : Device} (hd : d.Canonical) :
    (flushItems d).Canonical := by
  unfold flushItems
  with_reducible repeat' first | assumption | apply canonical_foldl | apply canonical_foldl_fst | apply canonical_sendItem | apply canonical_Device_withPair | apply canonical_fst (by assumption) | intro _ | dsimp only

theorem canonical_cycleFirst {d : Device} (k) (t) (hd : d.Canonical) :
    (cycleFirst d k t).Canonical := by
  unfold cycleFirst
  with_reducible repeat' first | assumption | apply canonical_ite | apply canonical_spoutCycle | apply canonical_Device_emit | apply canonical_rsvCycle | apply canonical_partnerDemand | apply canonical_showDerived | apply canonical_selfStart | apply canonical_digestMissing | apply canonical_flushItems | split | intro _ | dsimp only

theorem canonical_lineIntoViews {d : Device} (c) (t) (hd : d.Canonical) :
    (lineIntoViews d c t).Canonical := by
  unfold lineIntoViews
  with_reducible repeat' first | assumption | apply canonical_ite | apply canonical_clearObjects | apply canonical_formTrigger | apply canonical_geoLine | split | intro _ | dsimp only

theorem canonical_lineReaches {d : Device} (c) (t) (hd : d.Canonical) :
    (lineReaches d c t).Canonical := by
  unfold lineReaches
  with_reducible repeat' first | assumption | apply canonical_ite | apply canonical_openCycle | apply canonical_dueItems | apply canonical_revertLine | apply canonical_Device_emit | apply canonical_cycleFirst | apply canonical_lineIntoViews | apply canonical_calLine | apply canonical_capGroupStart | apply canonical_tioLines | apply canonical_serveLine | split | intro _ | dsimp only

theorem canonical_lineTriggerDev {d : Device} (hd : d.Canonical) :
    (lineTriggerDev d).Canonical := by
  unfold lineTriggerDev
  with_reducible repeat' first | assumption | apply canonical_ite | apply canonical_Device_elapseTo | apply canonical_applyAt | apply canonical_lineReaches | apply canonical_commitLine | apply canonical_lineCurrent | split | intro _ | dsimp only

end Sys2Proof.Machine
end

