-- ==== Sys2Proof/Laws/Field.lean ====
section
/-! SUPPORT. Bit fields of a register: what a field reads after a write of it or of another field. -/

namespace Sys2Proof.Machine

set_option Elab.async false

theorem Fld.mask_bit (f : Fld) (j : Nat) : f.mask.getLsbD j = (decide (j < 32) && decide (f.lo ≤ j) && decide (j < f.hi + 1)) := by
  unfold Fld.mask
  simp only [BitVec.getLsbD_shiftLeft, BitVec.getLsbD_ofNat, Nat.testBit_two_pow_sub_one]
  by_cases h1 : j < 32 <;> by_cases h2 : f.lo ≤ j <;> by_cases h3 : j < f.hi + 1 <;> simp [h1, h2, h3] <;> omega

theorem Fld.of_testBit (f : Fld) (w : Word) (i : Nat) :
    (f.of w).testBit i = (decide (f.lo + i < f.hi + 1) && w.getLsbD (f.lo + i)) := by
  unfold Fld.of
  rw [BitVec.testBit_toNat, BitVec.getLsbD_ushiftRight, BitVec.getLsbD_and, Fld.mask_bit]
  by_cases h : f.lo + i < 32
  · simp [h, Bool.and_comm]
  · simp [BitVec.getLsbD_of_ge w (f.lo + i) (by omega)]

theorem Fld.into_bit (f : Fld) (v : Nat) (w : Word) (j : Nat) (hj : j < 32) :
    (f.into v w).getLsbD j = if f.lo ≤ j ∧ j ≤ f.hi then v.testBit (j - f.lo) else w.getLsbD j := by
  unfold Fld.into
  simp only [BitVec.getLsbD_or, BitVec.getLsbD_and, BitVec.getLsbD_not, Fld.mask_bit, BitVec.getLsbD_shiftLeft, BitVec.getLsbD_ofNat]
  by_cases h2 : f.lo ≤ j <;> by_cases h3 : j < f.hi + 1
  · have h4 : j ≤ f.hi := Nat.le_of_lt_succ h3
    have h5 : j - f.lo < 32 := by omega
    simp [hj, h2, h3, h4, h5]
  · have : ¬ j ≤ f.hi := by omega
    simp [hj, h2, h3, this]
  · simp [hj, h2]
  · simp [hj, h2]

/-- A field reads as what was written, reduced to its width. -/
theorem Fld.of_into (f : Fld) (v : Nat) (w : Word) (hf : f.hi < 32) : f.of (f.into v w) = v % 2 ^ (f.hi + 1 - f.lo) := by
  apply Nat.eq_of_testBit_eq
  intro i
  rw [Fld.of_testBit, Nat.testBit_mod_two_pow]
  by_cases h : f.lo + i < f.hi + 1
  · rw [Fld.into_bit f v w _ (by omega), if_pos (by omega)]
    have : i < f.hi + 1 - f.lo := by omega
    simp [h, this]
  · have : ¬ i < f.hi + 1 - f.lo := by omega
    simp [h, this]

/-- A write of a field leaves the register's other fields alone. -/
theorem Fld.of_into_ne (f g : Fld) (v : Nat) (w : Word) (h : f.hi < g.lo ∨ g.hi < f.lo) : g.of (f.into v w) = g.of w := by
  apply Nat.eq_of_testBit_eq
  intro i
  rw [Fld.of_testBit, Fld.of_testBit]
  by_cases h1 : g.lo + i < g.hi + 1
  · by_cases h2 : g.lo + i < 32
    · rw [Fld.into_bit f v w _ h2, if_neg (by omega)]
    · rw [BitVec.getLsbD_of_ge _ _ (by omega), BitVec.getLsbD_of_ge _ _ (by omega)]
  · simp [h1]
end Sys2Proof.Machine
end

