-- ==== Sys2Proof/Laws/State.lean ====
section
/-! SUPPORT. One lemma per part of the device per update: what registers, fields and the other parts hold after a register operation. -/

namespace Sys2Proof.Machine

set_option Elab.async false

/-! ## Registers -/

@[simp] theorem Device.rd_wr_self (d : Device) (a : Nat) (v : Word) : (d.wr a v).rd a = v := Sparse.get_put_self _ _ _ _

theorem Device.rd_wr_ne (d : Device) (a b : Nat) (v : Word) (h : b ≠ a) : (d.wr a v).rd b = d.rd b := Sparse.get_put_ne _ _ _ _ _ h

theorem Device.rd_set_ne (d : Device) (f : Fld) (v b : Nat) (h : b ≠ f.addr) : (d.set f v).rd b = d.rd b := Device.rd_wr_ne _ _ _ _ h

theorem Device.rd_set_self (d : Device) (f : Fld) (v : Nat) : (d.set f v).rd f.addr = f.into v (d.rd f.addr) := Device.rd_wr_self _ _ _

/-- A field reads as what was written, reduced to its width. -/
theorem Device.get_set_self (d : Device) (f : Fld) (v : Nat) (hf : f.hi < 32) : (d.set f v).get f = v % 2 ^ (f.hi + 1 - f.lo) := by
  unfold Device.get
  rw [Device.rd_set_self, Fld.of_into _ _ _ hf]

/-- A write of one field leaves every other field alone. -/
theorem Device.get_set_ne (d : Device) (f g : Fld) (v : Nat) (h : g.addr ≠ f.addr ∨ f.hi < g.lo ∨ g.hi < f.lo) :
    (d.set f v).get g = d.get g := by
  unfold Device.get
  by_cases ha : g.addr = f.addr
  · rw [ha, Device.rd_set_self, Fld.of_into_ne]
    exact h.resolve_left (fun hn => hn ha)
  · rw [Device.rd_set_ne _ _ _ _ ha]

@[simp] theorem Device.get_setBit (d : Device) (f g : Fld) (b : Bool) : (d.setBit f b).get g = (d.set f (if b then 1 else 0)).get g := rfl
@[simp] theorem Device.rd_setBit (d : Device) (f : Fld) (b : Bool) (a : Nat) : (d.setBit f b).rd a = (d.set f (if b then 1 else 0)).rd a := rfl
@[simp] theorem Device.rd_count (d : Device) (f : Fld) (n a : Nat) :
    (d.count f n).rd a = (d.set f (capN (2 ^ (f.hi + 1 - f.lo) - 1) (d.get f + n))).rd a := rfl
@[simp] theorem Device.get_count (d : Device) (f g : Fld) (n : Nat) :
    (d.count f n).get g = (d.set f (capN (2 ^ (f.hi + 1 - f.lo) - 1) (d.get f + n))).get g := rfl

@[simp] theorem Device.rd_emit (d : Device) (r t a : Nat) : (d.emit r t).rd a = d.rd a := rfl

@[simp] theorem Device.rd_fireFlags (d : Device) (b a : Nat) : (d.fireFlags b).rd a = d.rd a := by
  unfold Device.fireFlags
  split
  · rfl
  · dsimp only; split <;> rfl

@[simp] theorem Device.rd_raise (d : Device) (f : Fld) (a : Nat) : (d.raise f).rd a = (d.set f 1).rd a := by
  unfold Device.raise
  dsimp only
  split
  · rfl
  · split <;> simp

@[simp] theorem Device.get_raise (d : Device) (f g : Fld) : (d.raise f).get g = (d.set f 1).get g := by simp [Device.get]

theorem Device.raiseIf_true (d : Device) (f : Fld) : d.raiseIf true f = d.raise f := rfl
theorem Device.raiseIf_false (d : Device) (f : Fld) : d.raiseIf false f = d := rfl

/-- A counter that has not reached its limit counts. -/
theorem Device.get_count_self (d : Device) (f : Fld) (n : Nat) (hf : f.hi < 32) (h : d.get f + n < 2 ^ (f.hi + 1 - f.lo)) :
    (d.count f n).get f = d.get f + n := by
  rw [Device.get_count, Device.get_set_self _ _ _ hf]
  unfold capN
  rw [if_neg (by omega), Nat.mod_eq_of_lt h]

/-- A raised flag reads 1. -/
theorem Device.get_raise_self (d : Device) (f : Fld) (hf : f.hi = f.lo) (h : f.hi < 32) : (d.raise f).get f = 1 := by
  rw [Device.get_raise, Device.get_set_self _ _ _ h, hf]
  simp

/-! ## The other parts of the device -/

@[simp] theorem Device.wr_tabs (d : Device) (a : Nat) (v : Word) : (d.wr a v).tabs = d.tabs := rfl
@[simp] theorem Device.wr_mem (d : Device) (a : Nat) (v : Word) : (d.wr a v).mem = d.mem := rfl
@[simp] theorem Device.wr_resv (d : Device) (a : Nat) (v : Word) : (d.wr a v).resv = d.resv := rfl
@[simp] theorem Device.wr_fresh (d : Device) (a : Nat) (v : Word) : (d.wr a v).fresh = d.fresh := rfl
@[simp] theorem Device.wr_slu (d : Device) (a : Nat) (v : Word) : (d.wr a v).slu = d.slu := rfl
@[simp] theorem Device.wr_boot (d : Device) (a : Nat) (v : Word) : (d.wr a v).boot = d.boot := rfl
@[simp] theorem Device.wr_lanes (d : Device) (a : Nat) (v : Word) : (d.wr a v).lanes = d.lanes := rfl
@[simp] theorem Device.wr_ports (d : Device) (a : Nat) (v : Word) : (d.wr a v).ports = d.ports := rfl
@[simp] theorem Device.wr_pipes (d : Device) (a : Nat) (v : Word) : (d.wr a v).pipes = d.pipes := rfl
@[simp] theorem Device.wr_cal (d : Device) (a : Nat) (v : Word) : (d.wr a v).cal = d.cal := rfl
@[simp] theorem Device.wr_geo (d : Device) (a : Nat) (v : Word) : (d.wr a v).geo = d.geo := rfl
@[simp] theorem Device.wr_basin (d : Device) (a : Nat) (v : Word) : (d.wr a v).basin = d.basin := rfl
@[simp] theorem Device.wr_peers (d : Device) (a : Nat) (v : Word) : (d.wr a v).peers = d.peers := rfl
@[simp] theorem Device.wr_pr (d : Device) (a : Nat) (v : Word) : (d.wr a v).pr = d.pr := rfl
@[simp] theorem Device.wr_fly (d : Device) (a : Nat) (v : Word) : (d.wr a v).fly = d.fly := rfl
@[simp] theorem Device.wr_jud (d : Device) (a : Nat) (v : Word) : (d.wr a v).jud = d.jud := rfl
@[simp] theorem Device.wr_ej (d : Device) (a : Nat) (v : Word) : (d.wr a v).ej = d.ej := rfl
@[simp] theorem Device.wr_mon (d : Device) (a : Nat) (v : Word) : (d.wr a v).mon = d.mon := rfl
@[simp] theorem Device.wr_axes (d : Device) (a : Nat) (v : Word) : (d.wr a v).axes = d.axes := rfl
@[simp] theorem Device.wr_tb (d : Device) (a : Nat) (v : Word) : (d.wr a v).tb = d.tb := rfl
@[simp] theorem Device.wr_evt (d : Device) (a : Nat) (v : Word) : (d.wr a v).evt = d.evt := rfl
@[simp] theorem Device.wr_flt (d : Device) (a : Nat) (v : Word) : (d.wr a v).flt = d.flt := rfl
@[simp] theorem Device.wr_dram (d : Device) (a : Nat) (v : Word) : (d.wr a v).dram = d.dram := rfl
@[simp] theorem Device.wr_cap (d : Device) (a : Nat) (v : Word) : (d.wr a v).cap = d.cap := rfl
@[simp] theorem Device.wr_rsv (d : Device) (a : Nat) (v : Word) : (d.wr a v).rsv = d.rsv := rfl
@[simp] theorem Device.wr_cores (d : Device) (a : Nat) (v : Word) : (d.wr a v).cores = d.cores := rfl
@[simp] theorem Device.wr_dma (d : Device) (a : Nat) (v : Word) : (d.wr a v).dma = d.dma := rfl
@[simp] theorem Device.wr_dmaOut (d : Device) (a : Nat) (v : Word) : (d.wr a v).dmaOut = d.dmaOut := rfl
@[simp] theorem Device.wr_crc (d : Device) (a : Nat) (v : Word) : (d.wr a v).crc = d.crc := rfl
@[simp] theorem Device.wr_eth (d : Device) (a : Nat) (v : Word) : (d.wr a v).eth = d.eth := rfl
@[simp] theorem Device.wr_flash (d : Device) (a : Nat) (v : Word) : (d.wr a v).flash = d.flash := rfl

@[simp] theorem Device.set_tabs (d : Device) (f : Fld) (v : Nat) : (d.set f v).tabs = d.tabs := rfl
@[simp] theorem Device.set_mem (d : Device) (f : Fld) (v : Nat) : (d.set f v).mem = d.mem := rfl
@[simp] theorem Device.set_resv (d : Device) (f : Fld) (v : Nat) : (d.set f v).resv = d.resv := rfl
@[simp] theorem Device.set_fresh (d : Device) (f : Fld) (v : Nat) : (d.set f v).fresh = d.fresh := rfl
@[simp] theorem Device.set_slu (d : Device) (f : Fld) (v : Nat) : (d.set f v).slu = d.slu := rfl
@[simp] theorem Device.set_boot (d : Device) (f : Fld) (v : Nat) : (d.set f v).boot = d.boot := rfl
@[simp] theorem Device.set_lanes (d : Device) (f : Fld) (v : Nat) : (d.set f v).lanes = d.lanes := rfl
@[simp] theorem Device.set_ports (d : Device) (f : Fld) (v : Nat) : (d.set f v).ports = d.ports := rfl
@[simp] theorem Device.set_pipes (d : Device) (f : Fld) (v : Nat) : (d.set f v).pipes = d.pipes := rfl
@[simp] theorem Device.set_cal (d : Device) (f : Fld) (v : Nat) : (d.set f v).cal = d.cal := rfl
@[simp] theorem Device.set_geo (d : Device) (f : Fld) (v : Nat) : (d.set f v).geo = d.geo := rfl
@[simp] theorem Device.set_basin (d : Device) (f : Fld) (v : Nat) : (d.set f v).basin = d.basin := rfl
@[simp] theorem Device.set_peers (d : Device) (f : Fld) (v : Nat) : (d.set f v).peers = d.peers := rfl
@[simp] theorem Device.set_pr (d : Device) (f : Fld) (v : Nat) : (d.set f v).pr = d.pr := rfl
@[simp] theorem Device.set_fly (d : Device) (f : Fld) (v : Nat) : (d.set f v).fly = d.fly := rfl
@[simp] theorem Device.set_jud (d : Device) (f : Fld) (v : Nat) : (d.set f v).jud = d.jud := rfl
@[simp] theorem Device.set_ej (d : Device) (f : Fld) (v : Nat) : (d.set f v).ej = d.ej := rfl
@[simp] theorem Device.set_mon (d : Device) (f : Fld) (v : Nat) : (d.set f v).mon = d.mon := rfl
@[simp] theorem Device.set_axes (d : Device) (f : Fld) (v : Nat) : (d.set f v).axes = d.axes := rfl
@[simp] theorem Device.set_tb (d : Device) (f : Fld) (v : Nat) : (d.set f v).tb = d.tb := rfl
@[simp] theorem Device.set_evt (d : Device) (f : Fld) (v : Nat) : (d.set f v).evt = d.evt := rfl
@[simp] theorem Device.set_flt (d : Device) (f : Fld) (v : Nat) : (d.set f v).flt = d.flt := rfl
@[simp] theorem Device.set_dram (d : Device) (f : Fld) (v : Nat) : (d.set f v).dram = d.dram := rfl
@[simp] theorem Device.set_cap (d : Device) (f : Fld) (v : Nat) : (d.set f v).cap = d.cap := rfl
@[simp] theorem Device.set_rsv (d : Device) (f : Fld) (v : Nat) : (d.set f v).rsv = d.rsv := rfl
@[simp] theorem Device.set_cores (d : Device) (f : Fld) (v : Nat) : (d.set f v).cores = d.cores := rfl
@[simp] theorem Device.set_dma (d : Device) (f : Fld) (v : Nat) : (d.set f v).dma = d.dma := rfl
@[simp] theorem Device.set_dmaOut (d : Device) (f : Fld) (v : Nat) : (d.set f v).dmaOut = d.dmaOut := rfl
@[simp] theorem Device.set_crc (d : Device) (f : Fld) (v : Nat) : (d.set f v).crc = d.crc := rfl
@[simp] theorem Device.set_eth (d : Device) (f : Fld) (v : Nat) : (d.set f v).eth = d.eth := rfl
@[simp] theorem Device.set_flash (d : Device) (f : Fld) (v : Nat) : (d.set f v).flash = d.flash := rfl

@[simp] theorem Device.setBit_tabs (d : Device) (f : Fld) (b : Bool) : (d.setBit f b).tabs = d.tabs := rfl
@[simp] theorem Device.setBit_mem (d : Device) (f : Fld) (b : Bool) : (d.setBit f b).mem = d.mem := rfl
@[simp] theorem Device.setBit_resv (d : Device) (f : Fld) (b : Bool) : (d.setBit f b).resv = d.resv := rfl
@[simp] theorem Device.setBit_fresh (d : Device) (f : Fld) (b : Bool) : (d.setBit f b).fresh = d.fresh := rfl
@[simp] theorem Device.setBit_slu (d : Device) (f : Fld) (b : Bool) : (d.setBit f b).slu = d.slu := rfl
@[simp] theorem Device.setBit_boot (d : Device) (f : Fld) (b : Bool) : (d.setBit f b).boot = d.boot := rfl
@[simp] theorem Device.setBit_lanes (d : Device) (f : Fld) (b : Bool) : (d.setBit f b).lanes = d.lanes := rfl
@[simp] theorem Device.setBit_ports (d : Device) (f : Fld) (b : Bool) : (d.setBit f b).ports = d.ports := rfl
@[simp] theorem Device.setBit_pipes (d : Device) (f : Fld) (b : Bool) : (d.setBit f b).pipes = d.pipes := rfl
@[simp] theorem Device.setBit_cal (d : Device) (f : Fld) (b : Bool) : (d.setBit f b).cal = d.cal := rfl
@[simp] theorem Device.setBit_geo (d : Device) (f : Fld) (b : Bool) : (d.setBit f b).geo = d.geo := rfl
@[simp] theorem Device.setBit_basin (d : Device) (f : Fld) (b : Bool) : (d.setBit f b).basin = d.basin := rfl
@[simp] theorem Device.setBit_peers (d : Device) (f : Fld) (b : Bool) : (d.setBit f b).peers = d.peers := rfl
@[simp] theorem Device.setBit_pr (d : Device) (f : Fld) (b : Bool) : (d.setBit f b).pr = d.pr := rfl
@[simp] theorem Device.setBit_fly (d : Device) (f : Fld) (b : Bool) : (d.setBit f b).fly = d.fly := rfl
@[simp] theorem Device.setBit_jud (d : Device) (f : Fld) (b : Bool) : (d.setBit f b).jud = d.jud := rfl
@[simp] theorem Device.setBit_ej (d : Device) (f : Fld) (b : Bool) : (d.setBit f b).ej = d.ej := rfl
@[simp] theorem Device.setBit_mon (d : Device) (f : Fld) (b : Bool) : (d.setBit f b).mon = d.mon := rfl
@[simp] theorem Device.setBit_axes (d : Device) (f : Fld) (b : Bool) : (d.setBit f b).axes = d.axes := rfl
@[simp] theorem Device.setBit_tb (d : Device) (f : Fld) (b : Bool) : (d.setBit f b).tb = d.tb := rfl
@[simp] theorem Device.setBit_evt (d : Device) (f : Fld) (b : Bool) : (d.setBit f b).evt = d.evt := rfl
@[simp] theorem Device.setBit_flt (d : Device) (f : Fld) (b : Bool) : (d.setBit f b).flt = d.flt := rfl
@[simp] theorem Device.setBit_dram (d : Device) (f : Fld) (b : Bool) : (d.setBit f b).dram = d.dram := rfl
@[simp] theorem Device.setBit_cap (d : Device) (f : Fld) (b : Bool) : (d.setBit f b).cap = d.cap := rfl
@[simp] theorem Device.setBit_rsv (d : Device) (f : Fld) (b : Bool) : (d.setBit f b).rsv = d.rsv := rfl
@[simp] theorem Device.setBit_cores (d : Device) (f : Fld) (b : Bool) : (d.setBit f b).cores = d.cores := rfl
@[simp] theorem Device.setBit_dma (d : Device) (f : Fld) (b : Bool) : (d.setBit f b).dma = d.dma := rfl
@[simp] theorem Device.setBit_dmaOut (d : Device) (f : Fld) (b : Bool) : (d.setBit f b).dmaOut = d.dmaOut := rfl
@[simp] theorem Device.setBit_crc (d : Device) (f : Fld) (b : Bool) : (d.setBit f b).crc = d.crc := rfl
@[simp] theorem Device.setBit_eth (d : Device) (f : Fld) (b : Bool) : (d.setBit f b).eth = d.eth := rfl
@[simp] theorem Device.setBit_flash (d : Device) (f : Fld) (b : Bool) : (d.setBit f b).flash = d.flash := rfl

@[simp] theorem Device.count_tabs (d : Device) (f : Fld) (n : Nat) : (d.count f n).tabs = d.tabs := rfl
@[simp] theorem Device.count_mem (d : Device) (f : Fld) (n : Nat) : (d.count f n).mem = d.mem := rfl
@[simp] theorem Device.count_resv (d : Device) (f : Fld) (n : Nat) : (d.count f n).resv = d.resv := rfl
@[simp] theorem Device.count_fresh (d : Device) (f : Fld) (n : Nat) : (d.count f n).fresh = d.fresh := rfl
@[simp] theorem Device.count_slu (d : Device) (f : Fld) (n : Nat) : (d.count f n).slu = d.slu := rfl
@[simp] theorem Device.count_boot (d : Device) (f : Fld) (n : Nat) : (d.count f n).boot = d.boot := rfl
@[simp] theorem Device.count_lanes (d : Device) (f : Fld) (n : Nat) : (d.count f n).lanes = d.lanes := rfl
@[simp] theorem Device.count_ports (d : Device) (f : Fld) (n : Nat) : (d.count f n).ports = d.ports := rfl
@[simp] theorem Device.count_pipes (d : Device) (f : Fld) (n : Nat) : (d.count f n).pipes = d.pipes := rfl
@[simp] theorem Device.count_cal (d : Device) (f : Fld) (n : Nat) : (d.count f n).cal = d.cal := rfl
@[simp] theorem Device.count_geo (d : Device) (f : Fld) (n : Nat) : (d.count f n).geo = d.geo := rfl
@[simp] theorem Device.count_basin (d : Device) (f : Fld) (n : Nat) : (d.count f n).basin = d.basin := rfl
@[simp] theorem Device.count_peers (d : Device) (f : Fld) (n : Nat) : (d.count f n).peers = d.peers := rfl
@[simp] theorem Device.count_pr (d : Device) (f : Fld) (n : Nat) : (d.count f n).pr = d.pr := rfl
@[simp] theorem Device.count_fly (d : Device) (f : Fld) (n : Nat) : (d.count f n).fly = d.fly := rfl
@[simp] theorem Device.count_jud (d : Device) (f : Fld) (n : Nat) : (d.count f n).jud = d.jud := rfl
@[simp] theorem Device.count_ej (d : Device) (f : Fld) (n : Nat) : (d.count f n).ej = d.ej := rfl
@[simp] theorem Device.count_mon (d : Device) (f : Fld) (n : Nat) : (d.count f n).mon = d.mon := rfl
@[simp] theorem Device.count_axes (d : Device) (f : Fld) (n : Nat) : (d.count f n).axes = d.axes := rfl
@[simp] theorem Device.count_tb (d : Device) (f : Fld) (n : Nat) : (d.count f n).tb = d.tb := rfl
@[simp] theorem Device.count_evt (d : Device) (f : Fld) (n : Nat) : (d.count f n).evt = d.evt := rfl
@[simp] theorem Device.count_flt (d : Device) (f : Fld) (n : Nat) : (d.count f n).flt = d.flt := rfl
@[simp] theorem Device.count_dram (d : Device) (f : Fld) (n : Nat) : (d.count f n).dram = d.dram := rfl
@[simp] theorem Device.count_cap (d : Device) (f : Fld) (n : Nat) : (d.count f n).cap = d.cap := rfl
@[simp] theorem Device.count_rsv (d : Device) (f : Fld) (n : Nat) : (d.count f n).rsv = d.rsv := rfl
@[simp] theorem Device.count_cores (d : Device) (f : Fld) (n : Nat) : (d.count f n).cores = d.cores := rfl
@[simp] theorem Device.count_dma (d : Device) (f : Fld) (n : Nat) : (d.count f n).dma = d.dma := rfl
@[simp] theorem Device.count_dmaOut (d : Device) (f : Fld) (n : Nat) : (d.count f n).dmaOut = d.dmaOut := rfl
@[simp] theorem Device.count_crc (d : Device) (f : Fld) (n : Nat) : (d.count f n).crc = d.crc := rfl
@[simp] theorem Device.count_eth (d : Device) (f : Fld) (n : Nat) : (d.count f n).eth = d.eth := rfl
@[simp] theorem Device.count_flash (d : Device) (f : Fld) (n : Nat) : (d.count f n).flash = d.flash := rfl

@[simp] theorem Device.setPair_tabs (d : Device) (lo hi v : Nat) : (d.setPair lo hi v).tabs = d.tabs := rfl
@[simp] theorem Device.setPair_mem (d : Device) (lo hi v : Nat) : (d.setPair lo hi v).mem = d.mem := rfl
@[simp] theorem Device.setPair_resv (d : Device) (lo hi v : Nat) : (d.setPair lo hi v).resv = d.resv := rfl
@[simp] theorem Device.setPair_fresh (d : Device) (lo hi v : Nat) : (d.setPair lo hi v).fresh = d.fresh := rfl
@[simp] theorem Device.setPair_slu (d : Device) (lo hi v : Nat) : (d.setPair lo hi v).slu = d.slu := rfl
@[simp] theorem Device.setPair_boot (d : Device) (lo hi v : Nat) : (d.setPair lo hi v).boot = d.boot := rfl
@[simp] theorem Device.setPair_lanes (d : Device) (lo hi v : Nat) : (d.setPair lo hi v).lanes = d.lanes := rfl
@[simp] theorem Device.setPair_ports (d : Device) (lo hi v : Nat) : (d.setPair lo hi v).ports = d.ports := rfl
@[simp] theorem Device.setPair_pipes (d : Device) (lo hi v : Nat) : (d.setPair lo hi v).pipes = d.pipes := rfl
@[simp] theorem Device.setPair_cal (d : Device) (lo hi v : Nat) : (d.setPair lo hi v).cal = d.cal := rfl
@[simp] theorem Device.setPair_geo (d : Device) (lo hi v : Nat) : (d.setPair lo hi v).geo = d.geo := rfl
@[simp] theorem Device.setPair_basin (d : Device) (lo hi v : Nat) : (d.setPair lo hi v).basin = d.basin := rfl
@[simp] theorem Device.setPair_peers (d : Device) (lo hi v : Nat) : (d.setPair lo hi v).peers = d.peers := rfl
@[simp] theorem Device.setPair_pr (d : Device) (lo hi v : Nat) : (d.setPair lo hi v).pr = d.pr := rfl
@[simp] theorem Device.setPair_fly (d : Device) (lo hi v : Nat) : (d.setPair lo hi v).fly = d.fly := rfl
@[simp] theorem Device.setPair_jud (d : Device) (lo hi v : Nat) : (d.setPair lo hi v).jud = d.jud := rfl
@[simp] theorem Device.setPair_ej (d : Device) (lo hi v : Nat) : (d.setPair lo hi v).ej = d.ej := rfl
@[simp] theorem Device.setPair_mon (d : Device) (lo hi v : Nat) : (d.setPair lo hi v).mon = d.mon := rfl
@[simp] theorem Device.setPair_axes (d : Device) (lo hi v : Nat) : (d.setPair lo hi v).axes = d.axes := rfl
@[simp] theorem Device.setPair_tb (d : Device) (lo hi v : Nat) : (d.setPair lo hi v).tb = d.tb := rfl
@[simp] theorem Device.setPair_evt (d : Device) (lo hi v : Nat) : (d.setPair lo hi v).evt = d.evt := rfl
@[simp] theorem Device.setPair_flt (d : Device) (lo hi v : Nat) : (d.setPair lo hi v).flt = d.flt := rfl
@[simp] theorem Device.setPair_dram (d : Device) (lo hi v : Nat) : (d.setPair lo hi v).dram = d.dram := rfl
@[simp] theorem Device.setPair_cap (d : Device) (lo hi v : Nat) : (d.setPair lo hi v).cap = d.cap := rfl
@[simp] theorem Device.setPair_rsv (d : Device) (lo hi v : Nat) : (d.setPair lo hi v).rsv = d.rsv := rfl
@[simp] theorem Device.setPair_cores (d : Device) (lo hi v : Nat) : (d.setPair lo hi v).cores = d.cores := rfl
@[simp] theorem Device.setPair_dma (d : Device) (lo hi v : Nat) : (d.setPair lo hi v).dma = d.dma := rfl
@[simp] theorem Device.setPair_dmaOut (d : Device) (lo hi v : Nat) : (d.setPair lo hi v).dmaOut = d.dmaOut := rfl
@[simp] theorem Device.setPair_crc (d : Device) (lo hi v : Nat) : (d.setPair lo hi v).crc = d.crc := rfl
@[simp] theorem Device.setPair_eth (d : Device) (lo hi v : Nat) : (d.setPair lo hi v).eth = d.eth := rfl
@[simp] theorem Device.setPair_flash (d : Device) (lo hi v : Nat) : (d.setPair lo hi v).flash = d.flash := rfl

@[simp] theorem Device.emit_regs (d : Device) (r t : Nat) : (d.emit r t).regs = d.regs := rfl
@[simp] theorem Device.emit_tabs (d : Device) (r t : Nat) : (d.emit r t).tabs = d.tabs := rfl
@[simp] theorem Device.emit_mem (d : Device) (r t : Nat) : (d.emit r t).mem = d.mem := rfl
@[simp] theorem Device.emit_resv (d : Device) (r t : Nat) : (d.emit r t).resv = d.resv := rfl
@[simp] theorem Device.emit_fresh (d : Device) (r t : Nat) : (d.emit r t).fresh = d.fresh := rfl
@[simp] theorem Device.emit_slu (d : Device) (r t : Nat) : (d.emit r t).slu = d.slu := rfl
@[simp] theorem Device.emit_boot (d : Device) (r t : Nat) : (d.emit r t).boot = d.boot := rfl
@[simp] theorem Device.emit_lanes (d : Device) (r t : Nat) : (d.emit r t).lanes = d.lanes := rfl
@[simp] theorem Device.emit_ports (d : Device) (r t : Nat) : (d.emit r t).ports = d.ports := rfl
@[simp] theorem Device.emit_pipes (d : Device) (r t : Nat) : (d.emit r t).pipes = d.pipes := rfl
@[simp] theorem Device.emit_cal (d : Device) (r t : Nat) : (d.emit r t).cal = d.cal := rfl
@[simp] theorem Device.emit_geo (d : Device) (r t : Nat) : (d.emit r t).geo = d.geo := rfl
@[simp] theorem Device.emit_basin (d : Device) (r t : Nat) : (d.emit r t).basin = d.basin := rfl
@[simp] theorem Device.emit_peers (d : Device) (r t : Nat) : (d.emit r t).peers = d.peers := rfl
@[simp] theorem Device.emit_pr (d : Device) (r t : Nat) : (d.emit r t).pr = d.pr := rfl
@[simp] theorem Device.emit_fly (d : Device) (r t : Nat) : (d.emit r t).fly = d.fly := rfl
@[simp] theorem Device.emit_jud (d : Device) (r t : Nat) : (d.emit r t).jud = d.jud := rfl
@[simp] theorem Device.emit_ej (d : Device) (r t : Nat) : (d.emit r t).ej = d.ej := rfl
@[simp] theorem Device.emit_mon (d : Device) (r t : Nat) : (d.emit r t).mon = d.mon := rfl
@[simp] theorem Device.emit_axes (d : Device) (r t : Nat) : (d.emit r t).axes = d.axes := rfl
@[simp] theorem Device.emit_tb (d : Device) (r t : Nat) : (d.emit r t).tb = d.tb := rfl
@[simp] theorem Device.emit_flt (d : Device) (r t : Nat) : (d.emit r t).flt = d.flt := rfl
@[simp] theorem Device.emit_dram (d : Device) (r t : Nat) : (d.emit r t).dram = d.dram := rfl
@[simp] theorem Device.emit_cap (d : Device) (r t : Nat) : (d.emit r t).cap = d.cap := rfl
@[simp] theorem Device.emit_rsv (d : Device) (r t : Nat) : (d.emit r t).rsv = d.rsv := rfl
@[simp] theorem Device.emit_cores (d : Device) (r t : Nat) : (d.emit r t).cores = d.cores := rfl
@[simp] theorem Device.emit_dma (d : Device) (r t : Nat) : (d.emit r t).dma = d.dma := rfl
@[simp] theorem Device.emit_dmaOut (d : Device) (r t : Nat) : (d.emit r t).dmaOut = d.dmaOut := rfl
@[simp] theorem Device.emit_crc (d : Device) (r t : Nat) : (d.emit r t).crc = d.crc := rfl
@[simp] theorem Device.emit_eth (d : Device) (r t : Nat) : (d.emit r t).eth = d.eth := rfl
@[simp] theorem Device.emit_flash (d : Device) (r t : Nat) : (d.emit r t).flash = d.flash := rfl

@[simp] theorem Device.putByte_regs (d : Device) (a : Nat) (b : Byte) : (d.putByte a b).regs = d.regs := rfl
@[simp] theorem Device.putByte_tabs (d : Device) (a : Nat) (b : Byte) : (d.putByte a b).tabs = d.tabs := rfl
@[simp] theorem Device.putByte_resv (d : Device) (a : Nat) (b : Byte) : (d.putByte a b).resv = d.resv := rfl
@[simp] theorem Device.putByte_fresh (d : Device) (a : Nat) (b : Byte) : (d.putByte a b).fresh = d.fresh := rfl
@[simp] theorem Device.putByte_slu (d : Device) (a : Nat) (b : Byte) : (d.putByte a b).slu = d.slu := rfl
@[simp] theorem Device.putByte_boot (d : Device) (a : Nat) (b : Byte) : (d.putByte a b).boot = d.boot := rfl
@[simp] theorem Device.putByte_lanes (d : Device) (a : Nat) (b : Byte) : (d.putByte a b).lanes = d.lanes := rfl
@[simp] theorem Device.putByte_ports (d : Device) (a : Nat) (b : Byte) : (d.putByte a b).ports = d.ports := rfl
@[simp] theorem Device.putByte_pipes (d : Device) (a : Nat) (b : Byte) : (d.putByte a b).pipes = d.pipes := rfl
@[simp] theorem Device.putByte_cal (d : Device) (a : Nat) (b : Byte) : (d.putByte a b).cal = d.cal := rfl
@[simp] theorem Device.putByte_geo (d : Device) (a : Nat) (b : Byte) : (d.putByte a b).geo = d.geo := rfl
@[simp] theorem Device.putByte_basin (d : Device) (a : Nat) (b : Byte) : (d.putByte a b).basin = d.basin := rfl
@[simp] theorem Device.putByte_peers (d : Device) (a : Nat) (b : Byte) : (d.putByte a b).peers = d.peers := rfl
@[simp] theorem Device.putByte_pr (d : Device) (a : Nat) (b : Byte) : (d.putByte a b).pr = d.pr := rfl
@[simp] theorem Device.putByte_fly (d : Device) (a : Nat) (b : Byte) : (d.putByte a b).fly = d.fly := rfl
@[simp] theorem Device.putByte_jud (d : Device) (a : Nat) (b : Byte) : (d.putByte a b).jud = d.jud := rfl
@[simp] theorem Device.putByte_ej (d : Device) (a : Nat) (b : Byte) : (d.putByte a b).ej = d.ej := rfl
@[simp] theorem Device.putByte_mon (d : Device) (a : Nat) (b : Byte) : (d.putByte a b).mon = d.mon := rfl
@[simp] theorem Device.putByte_axes (d : Device) (a : Nat) (b : Byte) : (d.putByte a b).axes = d.axes := rfl
@[simp] theorem Device.putByte_tb (d : Device) (a : Nat) (b : Byte) : (d.putByte a b).tb = d.tb := rfl
@[simp] theorem Device.putByte_evt (d : Device) (a : Nat) (b : Byte) : (d.putByte a b).evt = d.evt := rfl
@[simp] theorem Device.putByte_flt (d : Device) (a : Nat) (b : Byte) : (d.putByte a b).flt = d.flt := rfl
@[simp] theorem Device.putByte_dram (d : Device) (a : Nat) (b : Byte) : (d.putByte a b).dram = d.dram := rfl
@[simp] theorem Device.putByte_cap (d : Device) (a : Nat) (b : Byte) : (d.putByte a b).cap = d.cap := rfl
@[simp] theorem Device.putByte_rsv (d : Device) (a : Nat) (b : Byte) : (d.putByte a b).rsv = d.rsv := rfl
@[simp] theorem Device.putByte_cores (d : Device) (a : Nat) (b : Byte) : (d.putByte a b).cores = d.cores := rfl
@[simp] theorem Device.putByte_dma (d : Device) (a : Nat) (b : Byte) : (d.putByte a b).dma = d.dma := rfl
@[simp] theorem Device.putByte_dmaOut (d : Device) (a : Nat) (b : Byte) : (d.putByte a b).dmaOut = d.dmaOut := rfl
@[simp] theorem Device.putByte_crc (d : Device) (a : Nat) (b : Byte) : (d.putByte a b).crc = d.crc := rfl
@[simp] theorem Device.putByte_eth (d : Device) (a : Nat) (b : Byte) : (d.putByte a b).eth = d.eth := rfl
@[simp] theorem Device.putByte_flash (d : Device) (a : Nat) (b : Byte) : (d.putByte a b).flash = d.flash := rfl

@[simp] theorem Device.setByte_regs (d : Device) (a : Nat) (b : Byte) : (d.setByte a b).regs = d.regs := rfl
@[simp] theorem Device.setByte_tabs (d : Device) (a : Nat) (b : Byte) : (d.setByte a b).tabs = d.tabs := rfl
@[simp] theorem Device.setByte_fresh (d : Device) (a : Nat) (b : Byte) : (d.setByte a b).fresh = d.fresh := rfl
@[simp] theorem Device.setByte_slu (d : Device) (a : Nat) (b : Byte) : (d.setByte a b).slu = d.slu := rfl
@[simp] theorem Device.setByte_boot (d : Device) (a : Nat) (b : Byte) : (d.setByte a b).boot = d.boot := rfl
@[simp] theorem Device.setByte_lanes (d : Device) (a : Nat) (b : Byte) : (d.setByte a b).lanes = d.lanes := rfl
@[simp] theorem Device.setByte_ports (d : Device) (a : Nat) (b : Byte) : (d.setByte a b).ports = d.ports := rfl
@[simp] theorem Device.setByte_pipes (d : Device) (a : Nat) (b : Byte) : (d.setByte a b).pipes = d.pipes := rfl
@[simp] theorem Device.setByte_cal (d : Device) (a : Nat) (b : Byte) : (d.setByte a b).cal = d.cal := rfl
@[simp] theorem Device.setByte_geo (d : Device) (a : Nat) (b : Byte) : (d.setByte a b).geo = d.geo := rfl
@[simp] theorem Device.setByte_basin (d : Device) (a : Nat) (b : Byte) : (d.setByte a b).basin = d.basin := rfl
@[simp] theorem Device.setByte_peers (d : Device) (a : Nat) (b : Byte) : (d.setByte a b).peers = d.peers := rfl
@[simp] theorem Device.setByte_pr (d : Device) (a : Nat) (b : Byte) : (d.setByte a b).pr = d.pr := rfl
@[simp] theorem Device.setByte_fly (d : Device) (a : Nat) (b : Byte) : (d.setByte a b).fly = d.fly := rfl
@[simp] theorem Device.setByte_jud (d : Device) (a : Nat) (b : Byte) : (d.setByte a b).jud = d.jud := rfl
@[simp] theorem Device.setByte_ej (d : Device) (a : Nat) (b : Byte) : (d.setByte a b).ej = d.ej := rfl
@[simp] theorem Device.setByte_mon (d : Device) (a : Nat) (b : Byte) : (d.setByte a b).mon = d.mon := rfl
@[simp] theorem Device.setByte_axes (d : Device) (a : Nat) (b : Byte) : (d.setByte a b).axes = d.axes := rfl
@[simp] theorem Device.setByte_tb (d : Device) (a : Nat) (b : Byte) : (d.setByte a b).tb = d.tb := rfl
@[simp] theorem Device.setByte_evt (d : Device) (a : Nat) (b : Byte) : (d.setByte a b).evt = d.evt := rfl
@[simp] theorem Device.setByte_flt (d : Device) (a : Nat) (b : Byte) : (d.setByte a b).flt = d.flt := rfl
@[simp] theorem Device.setByte_dram (d : Device) (a : Nat) (b : Byte) : (d.setByte a b).dram = d.dram := rfl
@[simp] theorem Device.setByte_cap (d : Device) (a : Nat) (b : Byte) : (d.setByte a b).cap = d.cap := rfl
@[simp] theorem Device.setByte_rsv (d : Device) (a : Nat) (b : Byte) : (d.setByte a b).rsv = d.rsv := rfl
@[simp] theorem Device.setByte_cores (d : Device) (a : Nat) (b : Byte) : (d.setByte a b).cores = d.cores := rfl
@[simp] theorem Device.setByte_dma (d : Device) (a : Nat) (b : Byte) : (d.setByte a b).dma = d.dma := rfl
@[simp] theorem Device.setByte_dmaOut (d : Device) (a : Nat) (b : Byte) : (d.setByte a b).dmaOut = d.dmaOut := rfl
@[simp] theorem Device.setByte_crc (d : Device) (a : Nat) (b : Byte) : (d.setByte a b).crc = d.crc := rfl
@[simp] theorem Device.setByte_eth (d : Device) (a : Nat) (b : Byte) : (d.setByte a b).eth = d.eth := rfl
@[simp] theorem Device.setByte_flash (d : Device) (a : Nat) (b : Byte) : (d.setByte a b).flash = d.flash := rfl

@[simp] theorem Device.fireFlags_regs (d : Device) (a : Nat) : (d.fireFlags a).regs = d.regs := by
  unfold Device.fireFlags; split <;> (try rfl); dsimp only; split <;> rfl
@[simp] theorem Device.fireFlags_tabs (d : Device) (a : Nat) : (d.fireFlags a).tabs = d.tabs := by
  unfold Device.fireFlags; split <;> (try rfl); dsimp only; split <;> rfl
@[simp] theorem Device.fireFlags_mem (d : Device) (a : Nat) : (d.fireFlags a).mem = d.mem := by
  unfold Device.fireFlags; split <;> (try rfl); dsimp only; split <;> rfl
@[simp] theorem Device.fireFlags_resv (d : Device) (a : Nat) : (d.fireFlags a).resv = d.resv := by
  unfold Device.fireFlags; split <;> (try rfl); dsimp only; split <;> rfl
@[simp] theorem Device.fireFlags_fresh (d : Device) (a : Nat) : (d.fireFlags a).fresh = d.fresh := by
  unfold Device.fireFlags; split <;> (try rfl); dsimp only; split <;> rfl
@[simp] theorem Device.fireFlags_slu (d : Device) (a : Nat) : (d.fireFlags a).slu = d.slu := by
  unfold Device.fireFlags; split <;> (try rfl); dsimp only; split <;> rfl
@[simp] theorem Device.fireFlags_boot (d : Device) (a : Nat) : (d.fireFlags a).boot = d.boot := by
  unfold Device.fireFlags; split <;> (try rfl); dsimp only; split <;> rfl
@[simp] theorem Device.fireFlags_lanes (d : Device) (a : Nat) : (d.fireFlags a).lanes = d.lanes := by
  unfold Device.fireFlags; split <;> (try rfl); dsimp only; split <;> rfl
@[simp] theorem Device.fireFlags_ports (d : Device) (a : Nat) : (d.fireFlags a).ports = d.ports := by
  unfold Device.fireFlags; split <;> (try rfl); dsimp only; split <;> rfl
@[simp] theorem Device.fireFlags_pipes (d : Device) (a : Nat) : (d.fireFlags a).pipes = d.pipes := by
  unfold Device.fireFlags; split <;> (try rfl); dsimp only; split <;> rfl
@[simp] theorem Device.fireFlags_cal (d : Device) (a : Nat) : (d.fireFlags a).cal = d.cal := by
  unfold Device.fireFlags; split <;> (try rfl); dsimp only; split <;> rfl
@[simp] theorem Device.fireFlags_geo (d : Device) (a : Nat) : (d.fireFlags a).geo = d.geo := by
  unfold Device.fireFlags; split <;> (try rfl); dsimp only; split <;> rfl
@[simp] theorem Device.fireFlags_basin (d : Device) (a : Nat) : (d.fireFlags a).basin = d.basin := by
  unfold Device.fireFlags; split <;> (try rfl); dsimp only; split <;> rfl
@[simp] theorem Device.fireFlags_peers (d : Device) (a : Nat) : (d.fireFlags a).peers = d.peers := by
  unfold Device.fireFlags; split <;> (try rfl); dsimp only; split <;> rfl
@[simp] theorem Device.fireFlags_pr (d : Device) (a : Nat) : (d.fireFlags a).pr = d.pr := by
  unfold Device.fireFlags; split <;> (try rfl); dsimp only; split <;> rfl
@[simp] theorem Device.fireFlags_fly (d : Device) (a : Nat) : (d.fireFlags a).fly = d.fly := by
  unfold Device.fireFlags; split <;> (try rfl); dsimp only; split <;> rfl
@[simp] theorem Device.fireFlags_jud (d : Device) (a : Nat) : (d.fireFlags a).jud = d.jud := by
  unfold Device.fireFlags; split <;> (try rfl); dsimp only; split <;> rfl
@[simp] theorem Device.fireFlags_ej (d : Device) (a : Nat) : (d.fireFlags a).ej = d.ej := by
  unfold Device.fireFlags; split <;> (try rfl); dsimp only; split <;> rfl
@[simp] theorem Device.fireFlags_mon (d : Device) (a : Nat) : (d.fireFlags a).mon = d.mon := by
  unfold Device.fireFlags; split <;> (try rfl); dsimp only; split <;> rfl
@[simp] theorem Device.fireFlags_axes (d : Device) (a : Nat) : (d.fireFlags a).axes = d.axes := by
  unfold Device.fireFlags; split <;> (try rfl); dsimp only; split <;> rfl
@[simp] theorem Device.fireFlags_tb (d : Device) (a : Nat) : (d.fireFlags a).tb = d.tb := by
  unfold Device.fireFlags; split <;> (try rfl); dsimp only; split <;> rfl
@[simp] theorem Device.fireFlags_flt (d : Device) (a : Nat) : (d.fireFlags a).flt = d.flt := by
  unfold Device.fireFlags; split <;> (try rfl); dsimp only; split <;> rfl
@[simp] theorem Device.fireFlags_dram (d : Device) (a : Nat) : (d.fireFlags a).dram = d.dram := by
  unfold Device.fireFlags; split <;> (try rfl); dsimp only; split <;> rfl
@[simp] theorem Device.fireFlags_cap (d : Device) (a : Nat) : (d.fireFlags a).cap = d.cap := by
  unfold Device.fireFlags; split <;> (try rfl); dsimp only; split <;> rfl
@[simp] theorem Device.fireFlags_rsv (d : Device) (a : Nat) : (d.fireFlags a).rsv = d.rsv := by
  unfold Device.fireFlags; split <;> (try rfl); dsimp only; split <;> rfl
@[simp] theorem Device.fireFlags_cores (d : Device) (a : Nat) : (d.fireFlags a).cores = d.cores := by
  unfold Device.fireFlags; split <;> (try rfl); dsimp only; split <;> rfl
@[simp] theorem Device.fireFlags_dma (d : Device) (a : Nat) : (d.fireFlags a).dma = d.dma := by
  unfold Device.fireFlags; split <;> (try rfl); dsimp only; split <;> rfl
@[simp] theorem Device.fireFlags_dmaOut (d : Device) (a : Nat) : (d.fireFlags a).dmaOut = d.dmaOut := by
  unfold Device.fireFlags; split <;> (try rfl); dsimp only; split <;> rfl
@[simp] theorem Device.fireFlags_crc (d : Device) (a : Nat) : (d.fireFlags a).crc = d.crc := by
  unfold Device.fireFlags; split <;> (try rfl); dsimp only; split <;> rfl
@[simp] theorem Device.fireFlags_eth (d : Device) (a : Nat) : (d.fireFlags a).eth = d.eth := by
  unfold Device.fireFlags; split <;> (try rfl); dsimp only; split <;> rfl
@[simp] theorem Device.fireFlags_flash (d : Device) (a : Nat) : (d.fireFlags a).flash = d.flash := by
  unfold Device.fireFlags; split <;> (try rfl); dsimp only; split <;> rfl

@[simp] theorem Device.raise_tabs (d : Device) (f : Fld) : (d.raise f).tabs = d.tabs := by
  unfold Device.raise; dsimp only; split <;> (try split) <;> simp
@[simp] theorem Device.raiseIf_tabs (d : Device) (c : Bool) (f : Fld) : (d.raiseIf c f).tabs = d.tabs := by
  unfold Device.raiseIf; split <;> simp
@[simp] theorem Device.raise_mem (d : Device) (f : Fld) : (d.raise f).mem = d.mem := by
  unfold Device.raise; dsimp only; split <;> (try split) <;> simp
@[simp] theorem Device.raiseIf_mem (d : Device) (c : Bool) (f : Fld) : (d.raiseIf c f).mem = d.mem := by
  unfold Device.raiseIf; split <;> simp
@[simp] theorem Device.raise_resv (d : Device) (f : Fld) : (d.raise f).resv = d.resv := by
  unfold Device.raise; dsimp only; split <;> (try split) <;> simp
@[simp] theorem Device.raiseIf_resv (d : Device) (c : Bool) (f : Fld) : (d.raiseIf c f).resv = d.resv := by
  unfold Device.raiseIf; split <;> simp
@[simp] theorem Device.raise_fresh (d : Device) (f : Fld) : (d.raise f).fresh = d.fresh := by
  unfold Device.raise; dsimp only; split <;> (try split) <;> simp
@[simp] theorem Device.raiseIf_fresh (d : Device) (c : Bool) (f : Fld) : (d.raiseIf c f).fresh = d.fresh := by
  unfold Device.raiseIf; split <;> simp
@[simp] theorem Device.raise_slu (d : Device) (f : Fld) : (d.raise f).slu = d.slu := by
  unfold Device.raise; dsimp only; split <;> (try split) <;> simp
@[simp] theorem Device.raiseIf_slu (d : Device) (c : Bool) (f : Fld) : (d.raiseIf c f).slu = d.slu := by
  unfold Device.raiseIf; split <;> simp
@[simp] theorem Device.raise_boot (d : Device) (f : Fld) : (d.raise f).boot = d.boot := by
  unfold Device.raise; dsimp only; split <;> (try split) <;> simp
@[simp] theorem Device.raiseIf_boot (d : Device) (c : Bool) (f : Fld) : (d.raiseIf c f).boot = d.boot := by
  unfold Device.raiseIf; split <;> simp
@[simp] theorem Device.raise_lanes (d : Device) (f : Fld) : (d.raise f).lanes = d.lanes := by
  unfold Device.raise; dsimp only; split <;> (try split) <;> simp
@[simp] theorem Device.raiseIf_lanes (d : Device) (c : Bool) (f : Fld) : (d.raiseIf c f).lanes = d.lanes := by
  unfold Device.raiseIf; split <;> simp
@[simp] theorem Device.raise_ports (d : Device) (f : Fld) : (d.raise f).ports = d.ports := by
  unfold Device.raise; dsimp only; split <;> (try split) <;> simp
@[simp] theorem Device.raiseIf_ports (d : Device) (c : Bool) (f : Fld) : (d.raiseIf c f).ports = d.ports := by
  unfold Device.raiseIf; split <;> simp
@[simp] theorem Device.raise_pipes (d : Device) (f : Fld) : (d.raise f).pipes = d.pipes := by
  unfold Device.raise; dsimp only; split <;> (try split) <;> simp
@[simp] theorem Device.raiseIf_pipes (d : Device) (c : Bool) (f : Fld) : (d.raiseIf c f).pipes = d.pipes := by
  unfold Device.raiseIf; split <;> simp
@[simp] theorem Device.raise_cal (d : Device) (f : Fld) : (d.raise f).cal = d.cal := by
  unfold Device.raise; dsimp only; split <;> (try split) <;> simp
@[simp] theorem Device.raiseIf_cal (d : Device) (c : Bool) (f : Fld) : (d.raiseIf c f).cal = d.cal := by
  unfold Device.raiseIf; split <;> simp
@[simp] theorem Device.raise_geo (d : Device) (f : Fld) : (d.raise f).geo = d.geo := by
  unfold Device.raise; dsimp only; split <;> (try split) <;> simp
@[simp] theorem Device.raiseIf_geo (d : Device) (c : Bool) (f : Fld) : (d.raiseIf c f).geo = d.geo := by
  unfold Device.raiseIf; split <;> simp
@[simp] theorem Device.raise_basin (d : Device) (f : Fld) : (d.raise f).basin = d.basin := by
  unfold Device.raise; dsimp only; split <;> (try split) <;> simp
@[simp] theorem Device.raiseIf_basin (d : Device) (c : Bool) (f : Fld) : (d.raiseIf c f).basin = d.basin := by
  unfold Device.raiseIf; split <;> simp
@[simp] theorem Device.raise_peers (d : Device) (f : Fld) : (d.raise f).peers = d.peers := by
  unfold Device.raise; dsimp only; split <;> (try split) <;> simp
@[simp] theorem Device.raiseIf_peers (d : Device) (c : Bool) (f : Fld) : (d.raiseIf c f).peers = d.peers := by
  unfold Device.raiseIf; split <;> simp
@[simp] theorem Device.raise_pr (d : Device) (f : Fld) : (d.raise f).pr = d.pr := by
  unfold Device.raise; dsimp only; split <;> (try split) <;> simp
@[simp] theorem Device.raiseIf_pr (d : Device) (c : Bool) (f : Fld) : (d.raiseIf c f).pr = d.pr := by
  unfold Device.raiseIf; split <;> simp
@[simp] theorem Device.raise_fly (d : Device) (f : Fld) : (d.raise f).fly = d.fly := by
  unfold Device.raise; dsimp only; split <;> (try split) <;> simp
@[simp] theorem Device.raiseIf_fly (d : Device) (c : Bool) (f : Fld) : (d.raiseIf c f).fly = d.fly := by
  unfold Device.raiseIf; split <;> simp
@[simp] theorem Device.raise_jud (d : Device) (f : Fld) : (d.raise f).jud = d.jud := by
  unfold Device.raise; dsimp only; split <;> (try split) <;> simp
@[simp] theorem Device.raiseIf_jud (d : Device) (c : Bool) (f : Fld) : (d.raiseIf c f).jud = d.jud := by
  unfold Device.raiseIf; split <;> simp
@[simp] theorem Device.raise_ej (d : Device) (f : Fld) : (d.raise f).ej = d.ej := by
  unfold Device.raise; dsimp only; split <;> (try split) <;> simp
@[simp] theorem Device.raiseIf_ej (d : Device) (c : Bool) (f : Fld) : (d.raiseIf c f).ej = d.ej := by
  unfold Device.raiseIf; split <;> simp
@[simp] theorem Device.raise_mon (d : Device) (f : Fld) : (d.raise f).mon = d.mon := by
  unfold Device.raise; dsimp only; split <;> (try split) <;> simp
@[simp] theorem Device.raiseIf_mon (d : Device) (c : Bool) (f : Fld) : (d.raiseIf c f).mon = d.mon := by
  unfold Device.raiseIf; split <;> simp
@[simp] theorem Device.raise_axes (d : Device) (f : Fld) : (d.raise f).axes = d.axes := by
  unfold Device.raise; dsimp only; split <;> (try split) <;> simp
@[simp] theorem Device.raiseIf_axes (d : Device) (c : Bool) (f : Fld) : (d.raiseIf c f).axes = d.axes := by
  unfold Device.raiseIf; split <;> simp
@[simp] theorem Device.raise_tb (d : Device) (f : Fld) : (d.raise f).tb = d.tb := by
  unfold Device.raise; dsimp only; split <;> (try split) <;> simp
@[simp] theorem Device.raiseIf_tb (d : Device) (c : Bool) (f : Fld) : (d.raiseIf c f).tb = d.tb := by
  unfold Device.raiseIf; split <;> simp
@[simp] theorem Device.raise_flt (d : Device) (f : Fld) : (d.raise f).flt = d.flt := by
  unfold Device.raise; dsimp only; split <;> (try split) <;> simp
@[simp] theorem Device.raiseIf_flt (d : Device) (c : Bool) (f : Fld) : (d.raiseIf c f).flt = d.flt := by
  unfold Device.raiseIf; split <;> simp
@[simp] theorem Device.raise_dram (d : Device) (f : Fld) : (d.raise f).dram = d.dram := by
  unfold Device.raise; dsimp only; split <;> (try split) <;> simp
@[simp] theorem Device.raiseIf_dram (d : Device) (c : Bool) (f : Fld) : (d.raiseIf c f).dram = d.dram := by
  unfold Device.raiseIf; split <;> simp
@[simp] theorem Device.raise_cap (d : Device) (f : Fld) : (d.raise f).cap = d.cap := by
  unfold Device.raise; dsimp only; split <;> (try split) <;> simp
@[simp] theorem Device.raiseIf_cap (d : Device) (c : Bool) (f : Fld) : (d.raiseIf c f).cap = d.cap := by
  unfold Device.raiseIf; split <;> simp
@[simp] theorem Device.raise_rsv (d : Device) (f : Fld) : (d.raise f).rsv = d.rsv := by
  unfold Device.raise; dsimp only; split <;> (try split) <;> simp
@[simp] theorem Device.raiseIf_rsv (d : Device) (c : Bool) (f : Fld) : (d.raiseIf c f).rsv = d.rsv := by
  unfold Device.raiseIf; split <;> simp
@[simp] theorem Device.raise_cores (d : Device) (f : Fld) : (d.raise f).cores = d.cores := by
  unfold Device.raise; dsimp only; split <;> (try split) <;> simp
@[simp] theorem Device.raiseIf_cores (d : Device) (c : Bool) (f : Fld) : (d.raiseIf c f).cores = d.cores := by
  unfold Device.raiseIf; split <;> simp
@[simp] theorem Device.raise_dma (d : Device) (f : Fld) : (d.raise f).dma = d.dma := by
  unfold Device.raise; dsimp only; split <;> (try split) <;> simp
@[simp] theorem Device.raiseIf_dma (d : Device) (c : Bool) (f : Fld) : (d.raiseIf c f).dma = d.dma := by
  unfold Device.raiseIf; split <;> simp
@[simp] theorem Device.raise_dmaOut (d : Device) (f : Fld) : (d.raise f).dmaOut = d.dmaOut := by
  unfold Device.raise; dsimp only; split <;> (try split) <;> simp
@[simp] theorem Device.raiseIf_dmaOut (d : Device) (c : Bool) (f : Fld) : (d.raiseIf c f).dmaOut = d.dmaOut := by
  unfold Device.raiseIf; split <;> simp
@[simp] theorem Device.raise_crc (d : Device) (f : Fld) : (d.raise f).crc = d.crc := by
  unfold Device.raise; dsimp only; split <;> (try split) <;> simp
@[simp] theorem Device.raiseIf_crc (d : Device) (c : Bool) (f : Fld) : (d.raiseIf c f).crc = d.crc := by
  unfold Device.raiseIf; split <;> simp
@[simp] theorem Device.raise_eth (d : Device) (f : Fld) : (d.raise f).eth = d.eth := by
  unfold Device.raise; dsimp only; split <;> (try split) <;> simp
@[simp] theorem Device.raiseIf_eth (d : Device) (c : Bool) (f : Fld) : (d.raiseIf c f).eth = d.eth := by
  unfold Device.raiseIf; split <;> simp
@[simp] theorem Device.raise_flash (d : Device) (f : Fld) : (d.raise f).flash = d.flash := by
  unfold Device.raise; dsimp only; split <;> (try split) <;> simp
@[simp] theorem Device.raiseIf_flash (d : Device) (c : Bool) (f : Fld) : (d.raiseIf c f).flash = d.flash := by
  unfold Device.raiseIf; split <;> simp

end Sys2Proof.Machine
end

