-- ==== Sys2Proof/Laws/Frame.lean ====
section
/-! SUPPORT. Frames compose along the operations of Machine/Ops.lean. -/

namespace Sys2Proof.Machine

set_option Elab.async false

theorem SameBut.refl (as : List Nat) (ps : List Part) (d : Device) : SameBut as ps d d :=
  ⟨fun _ _ => rfl, fun p _ => by cases p <;> rfl, fun _ => rfl, fun _ => rfl, rfl⟩

/-- An update of parts only. -/
theorem SameBut.parts_only {as : List Nat} {ps : List Part} {d e e' : Device} (h : SameBut as ps d e) (hr : e'.regs = e.regs) (ht : e'.tabs = e.tabs)
    (hm : e'.mem = e.mem) (hf : e'.flash = e.flash) (hp : ∀ p, p ∉ ps → p.same e e') : SameBut as ps d e' :=
  ⟨fun a ha => by rw [← h.regs a ha]; unfold Device.rd; rw [hr],
   fun p hp' => by
     have h1 := h.parts p hp'
     have h2 := hp p hp'
     cases p <;> exact h2.trans h1,
   fun a => by rw [← h.bytes a]; unfold Device.byte; rw [hm],
   fun a => by rw [← h.tabs a]; unfold Device.tab; rw [ht],
   hf.trans h.flash⟩

theorem SameBut.wr {as : List Nat} {ps : List Part} {d e : Device} (h : SameBut as ps d e) {a : Nat} (v : Word) (ha : a ∈ as) :
    SameBut as ps d (e.wr a v) :=
  ⟨fun b hb => (Device.rd_wr_ne e a b v (fun hh => hb (by rw [hh]; exact ha))).trans (h.regs b hb),
   fun p hp => by have h1 := h.parts p hp; cases p <;> exact h1, h.bytes, h.tabs, h.flash⟩

theorem SameBut.set {as : List Nat} {ps : List Part} {d e : Device} (h : SameBut as ps d e) {f : Fld} (v : Nat) (ha : f.addr ∈ as) :
    SameBut as ps d (e.set f v) := h.wr _ ha

theorem SameBut.setBit {as : List Nat} {ps : List Part} {d e : Device} (h : SameBut as ps d e) {f : Fld} (b : Bool) (ha : f.addr ∈ as) :
    SameBut as ps d (e.setBit f b) := h.wr _ ha

theorem SameBut.count {as : List Nat} {ps : List Part} {d e : Device} (h : SameBut as ps d e) {f : Fld} (n : Nat) (ha : f.addr ∈ as) :
    SameBut as ps d (e.count f n) := h.wr _ ha

theorem SameBut.setPair {as : List Nat} {ps : List Part} {d e : Device} (h : SameBut as ps d e) {lo hi : Nat} (v : Nat) (hl : lo ∈ as) (hh : hi ∈ as) :
    SameBut as ps d (e.setPair lo hi v) := (h.wr _ hl).wr _ hh

theorem SameBut.emit {as : List Nat} {ps : List Part} {d e : Device} (h : SameBut as ps d e) (r t : Nat) (hp : Part.evt ∈ ps) :
    SameBut as ps d (e.emit r t) :=
  h.parts_only rfl rfl rfl rfl (fun p hp' => by cases p <;> first | rfl | exact absurd hp hp')

theorem SameBut.fireFlags {as : List Nat} {ps : List Part} {d e : Device} (h : SameBut as ps d e) (a : Nat) (hp : Part.evt ∈ ps) :
    SameBut as ps d (e.fireFlags a) := by
  unfold Device.fireFlags
  split
  · exact h
  · dsimp only
    split
    · exact h
    · exact h.emit _ _ hp

theorem SameBut.raise {as : List Nat} {ps : List Part} {d e : Device} (h : SameBut as ps d e) {f : Fld} (ha : f.addr ∈ as) (hp : Part.evt ∈ ps) :
    SameBut as ps d (e.raise f) := by
  unfold Device.raise
  dsimp only
  split
  · exact h.set _ ha
  · split
    · exact (h.set _ ha).fireFlags _ hp
    · exact h.set _ ha

theorem SameBut.raiseIf {as : List Nat} {ps : List Part} {d e : Device} (h : SameBut as ps d e) (c : Bool) {f : Fld} (ha : f.addr ∈ as)
    (hp : Part.evt ∈ ps) : SameBut as ps d (e.raiseIf c f) := by
  unfold Device.raiseIf
  split
  · exact h.raise ha hp
  · exact h

/-- A meaning completes with the device that it computes. -/
theorem completes_done {c : Instr} {s : State} {d : Device} {P : Device → Prop} (h : exec c s = s.done d) (hp : P d) :
    ∃ e, exec c s = .next { s with dev := e } ∧ P e :=
  ⟨d, h, hp⟩

end Sys2Proof.Machine
end

