-- ==== Sys2Proof/WellFormed.lean ====
section
/-! DEFINITION. The operands that a command of this device can carry: widths, counts and ranges of the tables and rules that name them. -/

namespace Sys2Proof

/-- Access widths of R343, in bytes. -/
def Access.wellFormed (a : Access) : Bool :=
  let core : Bool := match a.master with | .core _ => true | _ => false
  [1, 2, 4, 8].contains a.width && decide (a.addr < 2 ^ 40) && (core || ((a.kind == .plain || a.kind == .atomic) && !a.user))
    && (a.kind != .csr || (a.width == 8 && decide (a.addr < 4096)))

/-- A value that an access of its width can carry. -/
def Access.carries (a : Access) (v : Nat) : Bool := a.wellFormed && decide (v < 2 ^ (8 * a.width))

/-- A device ID of a chain, or the broadcast number (Table 21.4). -/
def chainId (n : Nat) : Bool := decide (n < 16) || n == 0xFF

/-- Fields of a peer frame header. -/
def PeerHdr.wellFormed (h : PeerHdr) : Bool :=
  decide (h.seq < 2 ^ 32) && decide (h.src < 16) && chainId h.dst && decide (h.hops < 16) && decide (h.line < 2 ^ 32)

/-- Fields of a KCP header (Table 14.4). -/
def KcpMsg.wellFormed (q : KcpMsg) : Bool :=
  decide (q.magic < 65536) && decide (q.version < 256) && decide (q.session < 2 ^ 32) && decide (q.seq < 2 ^ 32) && decide (q.len < 2 ^ 32)
    && decide (q.port < 65536) && decide (q.dport < 65536) && decide (q.client.ip < 2 ^ (if q.client.v6 then 128 else 32))

/-- Width of a debug access, and its address. -/
def DebugReq.wellFormed : DebugReq → Bool
  | .sbRead a w => [1, 2, 4, 8].contains w && decide (a < 2 ^ 64)
  | .sbWrite a w v => [1, 2, 4, 8].contains w && decide (a < 2 ^ 64) && decide (v < 2 ^ (8 * w))
  | .drScan v => decide (v < 2 ^ 73)
  | .readReg _ r => decide (r < 2 ^ 16)
  | .writeReg _ r v => decide (r < 2 ^ 16) && decide (v < 2 ^ 64)
  | .setTrigger _ _ a b => decide (a < 2 ^ 64) && decide (b < 2 ^ 64)
  | _ => true

/-- A word of each rail, sensor or lane that a sample names. -/
def sampleOf {α : Type} (n : Nat) (l : List α) : Bool := l.length == n

/-- The operands of a command are those that the spec gives its kind. Commands not named take any value of their operands' types. -/
def Instr.wellFormed : Instr → Bool
  | .registerWrite a v _ => a.carries v.toNat
  | .rcCounterRead a _ => a.wellFormed
  | .eyeScanComplete _ x =>
    decide (x.before.length ≤ 32) && decide (x.after.length ≤ 31) && decide (x.above.length ≤ 127) && decide (x.below.length ≤ 127)
  | .encoderEdge _ _ _ t _ _ => decide (t < 2 ^ 64)
  | .zEdge _ _ t _ => decide (t < 2 ^ 64)
  | .ssiFrameStart _ _ t => decide (t < 2 ^ 64)
  | .ssiFrameDone _ bits z => decide (bits < 2 ^ 48) && z.all (fun e => decide (e.2 < 2 ^ 64))
  | .monClkEdge _ t => decide (t < 2 ^ 64)
  | .ppsInEdge _ t _ => decide (t < 2 ^ 64)
  | .tioCaptureEdge _ _ t _ => decide (t < 2 ^ 64)
  | .memRequest _ _ addr len write data _ => decide (0 < len) && decide (addr < 2 ^ 40) && (!write || data.length == len)
  | .memRequestComplete _ ready wrong _ => decide (ready.length ≤ 64)
    && ((wrong.zip wrong.tail).all (fun (a, b) => decide (a.word < b.word))) && wrong.all (fun e => e.second != some e.bit)
  | .mr4Poll _ _ _ => true
  | .energyMeterSample energy temps => sampleOf 6 energy && sampleOf 16 temps
  | .supplySample levels => sampleOf 10 levels
  | .rillEvent _ events => events.all (fun e => decide (e.2 < 2 ^ 64))
  | .resetRegion cause => match cause with
    | .write bits => decide (bits < 32)
    | .fault code index => decide (code < 65536) && decide (index < 65536)
    | .memUncorr _ addr => decide (addr < 2 ^ 64)
  | .tableWindowWrite a v => a.carries v.toNat
  | .nodeWindowWrite a v => a.carries v.toNat
  | .weightsWindowWrite a v => a.carries v.toNat
  | .stagingWrite a v => a.carries v.toNat
  | .hello _ h b => h.wellFormed && decide (b.ownLo < 2 ^ 32) && decide (b.ownHi < 2 ^ 32)
  | .peerStatus _ h b => h.wellFormed && sampleOf 4 b.spouts && decide (b.state < 5)
  | .peerTime _ h _ => h.wellFormed
  | .peerLine _ h ts _ => h.wellFormed && decide (ts < 2 ^ 64)
  | .peerWindow _ h b => h.wellFormed && decide (b.row < 2)
  | .digest _ h b => h.wellFormed && decide (b.digest < 2 ^ 64) && decide (b.selfTest < 3)
  | .pairItem _ h line _ _ _ => h.wellFormed && decide (line < 2 ^ 32)
  | .peerCommit _ h a _ => h.wellFormed && decide (a < 2 ^ 32)
  | .peerAccess _ h b => h.wellFormed && match b with
    | .request _ addr _ => decide (addr < 2 ^ 40)
    | .reply _ _ => true
  | .peerAck _ h rel => h.wellFormed && decide (rel < 2 ^ 32)
  | .peerTrain _ h _ word => h.wellFormed && decide (word < 2 ^ 32)
  | .pauseReceive quanta => decide (quanta < 65536)
  | .kcpOpen q => q.wellFormed
  | .kcpClose q => q.wellFormed
  | .kcpRead q => q.wellFormed
  | .kcpWrite q => q.wellFormed
  | .stageAdd q => q.wellFormed
  | .stageCancel q => q.wellFormed
  | .kcpCommit q => q.wellFormed
  | .kcpStatus q => q.wellFormed
  | .objectStreamStart q => q.wellFormed
  | .objectStreamStop q => q.wellFormed
  | .captureFetch q => q.wellFormed
  | .mailboxPost q => q.wellFormed
  | .mailboxRead q => q.wellFormed
  | .eventFire q => q.wellFormed
  | .nvErase q => q.wellFormed
  | .nvProgram q => q.wellFormed
  | .nvRead q => q.wellFormed
  | .nvCrc q => q.wellFormed
  | .kcpLog q => q.wellFormed
  | .unknownType code q => q.wellFormed && !decide (1 ≤ code.val ∧ code.val ≤ 13)
  | .kcpSessionIdle session => decide (session < 2 ^ 32)
  | .debugRequest q => q.wellFormed
  | _ => true

end Sys2Proof
end

