-- ==== Sys2Proof/Tests/Slice0.lean ====
section
/-! SUPPORT. Tests of the model: ill-formed commands, the worked examples and tables of the spec, and a state that meets the hypotheses of
every clause of every statement. -/

open Sys2Proof Sys2Proof.Machine

namespace Sys2Proof.Tests

set_option Elab.async false
set_option linter.unusedVariables false

/-! ## Ill-formed commands: one for each check of `Instr.wellFormed` -/

/-- An access of a width that R343 does not give. -/
theorem test_wf_width : (Instr.registerWrite { master := .core 0, addr := 0, width := 3 } 0 0).wellFormed = false := by decide
/-- A value wider than its access. -/
theorem test_wf_value : (Instr.tableWindowWrite { master := .core 0, addr := 0, width := 1 } 256).wellFormed = false := by decide
theorem test_wf_access_address : (Instr.rcCounterRead { master := .kcp, addr := 2 ^ 40 } 0).wellFormed = false := by decide
theorem test_wf_eye : (Instr.eyeScanComplete (.cpRx 0 0) { before := List.replicate 33 0 }).wellFormed = false := by decide
theorem test_wf_edge_stamp : (Instr.encoderEdge 0 true true (2 ^ 64) 1 none).wellFormed = false := by decide
theorem test_wf_z_stamp : (Instr.zEdge 0 true (2 ^ 64) 1).wellFormed = false ∧ (Instr.ssiFrameStart 2 true (2 ^ 64)).wellFormed = false ∧
    (Instr.ssiFrameDone 2 0 (some (true, 2 ^ 64))).wellFormed = false := by decide
theorem test_wf_pin_stamp : (Instr.ppsInEdge true (2 ^ 64) 1).wellFormed = false ∧ (Instr.tioCaptureEdge 3 true (2 ^ 64) 1).wellFormed = false := by
  decide
theorem test_wf_ssi_bits : (Instr.ssiFrameDone 2 (2 ^ 48) none).wellFormed = false ∧ (Instr.ssiFrameDone 2 (2 ^ 48 - 1) none).wellFormed = true := by
  decide
theorem test_wf_dram_length : (Instr.memRequest 4 0 0x100000000 2 true [1#8] 0).wellFormed = false := by decide
theorem test_wf_ready_list : (Instr.memRequestComplete 0 (List.replicate 65 0) [] 0).wellFormed = false := by decide
theorem test_wf_word_errors : (Instr.memRequestComplete 0 [] [{ word := 3 }, { word := 3, bit := 5 }] 0).wellFormed = false ∧
    (Instr.memRequestComplete 0 [] [{ bit := 5, second := some 5 }] 0).wellFormed = false := by decide
theorem test_wf_event_stamp : (Instr.rillEvent 0 [(7, 2 ^ 64)]).wellFormed = false := by decide
theorem test_wf_energy : (Instr.energyMeterSample [1, 2, 3, 4, 5] (List.replicate 16 25)).wellFormed = false := by decide
theorem test_wf_rails : (Instr.supplySample [800]).wellFormed = false := by decide
theorem test_wf_region_bits : (Instr.resetRegion (.write 32)).wellFormed = false := by decide
theorem test_wf_peer_src : (Instr.peerAck 0 { src := 16 } 3).wellFormed = false := by decide
theorem test_wf_peer_dst : (Instr.peerCommit 0 { dst := 0x20 } 0 .commit).wellFormed = false := by decide
theorem test_wf_spouts : (Instr.peerStatus 0 {} { spouts := [1] }).wellFormed = false := by decide
theorem test_wf_window_row : (Instr.peerWindow 0 {} { row := 2 }).wellFormed = false := by decide
theorem test_wf_digest : (Instr.digest 0 {} { selfTest := 3 }).wellFormed = false := by decide
theorem test_wf_kcp_version : (Instr.kcpRead { version := 256 }).wellFormed = false := by decide
theorem test_wf_kcp_address : (Instr.kcpOpen { client := { ip := 2 ^ 32 } }).wellFormed = false := by decide
theorem test_wf_peer_numbers : (Instr.peerTrain 0 {} false (2 ^ 32)).wellFormed = false ∧ (Instr.peerAccess 0 {} (.request true (2 ^ 40) 0)).wellFormed = false ∧
    (Instr.peerLine 0 {} (2 ^ 64) 0).wellFormed = false ∧ (Instr.hello 0 {} { ownLo := 2 ^ 32 }).wellFormed = false := by decide
theorem test_wf_pause : (Instr.pauseReceive 65536).wellFormed = false := by decide
theorem test_wf_kcp_port : (Instr.kcpStatus { dport := 65536 }).wellFormed = false ∧ (Instr.kcpSessionIdle (2 ^ 32)).wellFormed = false := by decide
/-- A listed code is not an unknown TYPE. -/
theorem test_wf_unknown_type : (Instr.unknownType 7 {}).wellFormed = false := by decide
theorem test_wf_debug_scan : (Instr.debugRequest (.drScan (2 ^ 73))).wellFormed = false := by decide
theorem test_wf_debug_width : (Instr.debugRequest (.sbRead 0 16)).wellFormed = false := by decide
theorem test_wf_debug_value : (Instr.debugRequest (.sbWrite 0 1 256)).wellFormed = false := by decide

/-! ## Helpers -/

/-- A state with an empty queue after start-up, whose registers hold the given values and all else is as at reset. -/
def onRegs (rs : List (Nat × Word)) : State := { dev := rs.foldl (fun d r => d.wr r.1 r.2) { boot := { phase := .done } } }

/-- Every receive lane of the peer, spout return and Ethernet ports is in SYNC, and every transmit lane of theirs is active. -/
def lanesUp : List (Nat × Word) :=
  (List.range 2).flatMap (fun k => (List.range 3).flatMap (fun n =>
    [(R.LN_STATUS (laneBase (peerRxLane n k)), 7), (R.LN_STATUS (laneBase (peerTxLane n k)), 8)])) ++
  (ethRxLanes.map (fun l => (R.LN_STATUS (laneBase l), 7))) ++ (ethTxLanes.map (fun l => (R.LN_STATUS (laneBase l), 8))) ++
  (List.finRange 4).map (fun p => (R.LN_STATUS (laneBase (.spRx p)), 7))

/-- A state after start-up with those lanes up. -/
def linked (rs : List (Nat × Word)) : State := onRegs (lanesUp ++ rs)

end Sys2Proof.Tests

/-- A state with its device changed. -/
def Sys2Proof.Machine.State.but (s : State) (f : Device → Device) : State := { s with dev := f s.dev }

namespace Sys2Proof.Tests

set_option Elab.async false
set_option linter.unusedVariables false

/-- The bytes of a control packet (R70). -/
def ctlBytes (type tag : Nat) (body : List Byte) : List Byte := withCrc (leBytes 1 type ++ leBytes 1 tag ++ leBytes 2 body.length ++ body)

/-- Camera port `p` has received `e`. -/
def camEvent (p : Nat) (e : LinkEvent) (s : State) : State := s.but (fun d => d.setPort p { d.port p with rx := { (d.port p).rx with events := [e] } })

/-- A line packet of head 1 for line `l`: one 8-bit pixel of one sample, settings 0, no temperature. -/
def linePacketOf (l : Nat) : List Byte :=
  let body := leBytes 1 1 ++ leBytes 1 0 ++ leBytes 2 1 ++ leBytes 4 l ++ leBytes 8 0 ++ leBytes 2 0 ++ leBytes 2 0x8000 ++
    leBytes 1 1 ++ leBytes 3 0 ++ leBytes 4 4 ++ leBytes 4 0 ++ leBytes 4 0x2A
  body ++ leBytes 4 (crc32c (leBytes 4 l ++ body))

/-- Port 2 in RUN with context 0 of that format; its head 1 has received line 5 and waits for lines 6 and 7. -/
def cameraState : State :=
  (onRegs [(R.CPn_STATUS 2, 8), (R.CPn_CFG 2, 0x200), (R.CXn_FMT 0, 0x01000001)]).but (fun d =>
    d.setPort 2 { heads := #v[{}, { trigs := [{ count := 5, t := 3, st := .received }, { count := 6, t := 4 }, { count := 7, t := 5 }] }, {}, {}] })

/-- The one open object of `segState`. -/
def segObj : Obj :=
  { id := 3, first := 8, chain := 8, last := 8, xMin := 1, xMax := 1, area := 1, perClass := List.replicate 16 0, sums := List.replicate 8 0 }

/-- View 2 of five cells and one band, class 1 from band value 63 on; one object open from line 8 and line `l` in the store. -/
def segState (l : Int) (bands : Option (List (List Nat))) : State :=
  (onRegs [(R.GEO_Vv_CFG 2, 5), (R.SEGv_CFG 2, 0x00020000), (R.SEGv_MATk_m 2 0 0, 0x1000), (R.BSN_CFG, 0x04000800)]).but (fun d =>
    let x := d.setView 2 { store := [{ count := l, bands := bands }] }
    let y := { x with tabs := [(0x31040000 + 2048 * 63, 0x11#8)] }
    y.setSeg 2 { width := 5, prev := some 8, objs := [segObj], runs := [{ first := 1, last := 1, owner := some 3 }] })

/-- Four views of eight cells; sighting formation of line `k` at height `h` comes next. -/
def basinState (h : Nat) (k : Int) : State :=
  (onRegs [(R.GEO_Vv_CFG 0, 8), (R.GEO_Vv_CFG 1, 8), (R.GEO_Vv_CFG 2, 8), (R.GEO_Vv_CFG 3, 8)]).but (fun d =>
    { d with basin := { d.basin with formQ := withUnit d.basin.formQ h [k] } })

/-- A matcher whose next line is 7, with upper and lower sightings. -/
def matcherState (us : List UpperEntry) (ws : List FlySight) : State :=
  (onRegs [(R.FLY_DUL, 200000), (R.FLY_GEFF, 9800), (R.FLY_LANE, 16), (R.FLY_MATCH, 0x00100040), (R.FLY_DT_MAX, 100000000)]).but (fun d =>
    { d with fly := { d.fly with stepQ := [7], upper := us, lower := ws } })

/-- Port 1 in RUN with one pending window of its channel 3, open now. -/
def spoutState : State :=
  (onRegs [(R.SPn_STATUS 1, 1), (R.LN_STATUS (laneBase (.spTx 1)), 8), (R.SPn_LIMIT_DUTY 1, 256), (R.SPn_LIMIT_MAXOPEN 1, 8)]).but (fun d =>
    { d with ej := { d.ej with windows := [{ chan := 131, opn := 0, cls := 1000000000 }] } })

/-- A valid return frame: STATUS 1, ACK_SEQ 7, TURN 4, APPLY_DELAY 2, TEMP 25. -/
def returnBytes : List Byte := withCrc (leBytes 1 1 ++ leBytes 2 7 ++ leBytes 1 4 ++ leBytes 1 2 ++ leBytes 1 25 ++ leBytes 18 0)

/-- Context 0 is live: head 0 of port 0 maps to it, and its footprint starts at entry 0. -/
def liveContextState : State :=
  onRegs [(R.CPn_CFG 0, 0x100), (R.CPn_HEAD_MAP 0, 0), (R.CXn_FMT 0, 0x01000010)]

/-- The description of the register at `a`. -/
def regOf (a : Nat) : RegDesc := match regAt a with | some r => r | none => { base := 0 }

/-- Start-up with every controller in RUN and an image without sections. -/
def bootState : State :=
  (onRegs [(R.MEMn_STATUS 0, 3), (R.MEMn_STATUS 1, 3), (R.MEMn_STATUS 2, 3), (R.MEMn_STATUS 3, 3)]).but (fun d =>
    { d with flash := [(16, 0#8), (17, 0#8), (18, 0#8), (19, 0#8)], boot := { d.boot with phase := .dram } })

/-- A check-only commit in the hardware part of its check, with a staged value that the check refuses: MEM_LAT0.TARGET below 250 ns. -/
def breachState : State :=
  (onRegs [(R.SLU_STATE, 1)]).but (fun d => d.withSlu { d.slu with checkOnly := true, staged := [(R.MEM_LATm 0, 0x80000001)] })

/-- The breach that the check names for it. -/
def breachOf : Breach := (hwBreach breachState.dev).getD (0, 0, 0)

/-- An ARP frame to the device's own address at reset, without its FCS. -/
def arpFrame : List Byte := List.replicate 12 0#8 ++ [0x08#8, 0x06#8] ++ List.replicate 46 0x55#8

/-- A session of an engineer whose last request had SEQ 5. -/
def kcpSession : Session := { id := 7, role := 3, maxBody := 1024, last := 5 }

/-- A running device with that session. -/
def kcpState (rs : List (Nat × Word)) : State :=
  (onRegs ((R.KCP_CFG, 0x8000B5C0#32) :: rs)).but (fun d => { d with boot := { d.boot with phase := .done }, eth := { d.eth with sessions := [kcpSession] } })

/-- That device with a transmit ring of 16 slots in DRAM and a known client. -/
def kcpRing : State :=
  (kcpState [(R.ETH_TXQ_SIZE, 0x80000004), (R.ETH_TXQ_BASE_HI, 1), (R.MEMn_STATUS 0, 3), (R.MEMn_STATUS 1, 3), (R.MEMn_STATUS 2, 3),
    (R.MEMn_STATUS 3, 3)]).but (fun d => d.withEth { d.eth with neighbours := [({}, 7)] })

/-- The next request of that session, with a body. -/
def kcpAsk (body : List Byte) : KcpMsg := { session := 7, seq := 6, len := body.length, rest := body }

/-- A VDD_CORE set point of 800 mV gives no warning in any part (R475: V_AVS is at most 820 mV). -/
theorem coreSet_800 {d : Device} (h : d.flt.coreSet = 800 := by rfl) : coreSetBad d = false := by
  have hv := Config.vAvsOver.isLt
  simp only [coreSetBad, h, Config.vAvs]
  exact decide_eq_false (by omega)

/-- Bytes that there are. -/
theorem some_getD {o : Option (List Byte)} (h : o.isSome = true) : o = some (o.getD []) := by
  cases o with
  | none => cases h
  | some b => rfl

/-- Start-up is complete and nothing waits. -/
def runningState : State := { dev := { boot := { phase := .done } } }

/-- A device whose fields hold the given values and all else is as at reset. -/
def onFields (fs : List (Fld × Nat)) : Device := fs.foldl (fun d f => d.set f.1 f.2) {}

/-! ## The example sorter: values of the worked examples -/

/-- Table 2.5, steps 3 and 4: Q 7,680 is no improvement on 7,708 at 2 %; Q 8,256 is. -/
theorem test_table_2_5 : improves 7680 7708 2 = false ∧ improves 8256 7708 2 = true := by decide

/-- K28.5 of both disparities, D21.5 and an invalid group (Clause 36 of IEEE 802.3). -/
theorem test_8b10b : encData false 0xB5 = 0b1010101010 ∧ decodeGroup false 0b0011111010 = .ctl 0xBC ∧
    decodeGroup true 0b1100000101 = .ctl 0xBC ∧ decodeGroup false 0b1100000101 = .dispErr ∧ decodeGroup false 0b1111111111 = .codeErr := by
  decide +kernel

/-- R56, R59: a column of data and fill gives its bytes, a fill before data breaks the packet, and all lanes agree on the end. -/
theorem test_columns : columnBytes [.data 1, .data 2, .ctl 0xBC, .ctl 0xBC] = some [1, 2] ∧
    columnBytes [.data 1, .ctl 0xBC, .data 3, .ctl 0xBC] = none ∧
    (packetColumn 4096 [.ctl 0xFD, .ctl 0xFD] { pkt := some { ctl := true, bytes := [7] } }).events = [.ctl true [7]] ∧
    ((packetColumn 4096 [.ctl 0xFD, .data 1] { pkt := some { ctl := true } }).pkt.map LinkPacket.bad) = some true := by decide

/-- The link load and the sums of Table 1.7 for the port of the example of chapter 3. -/
theorem test_table_1_7 :
    let d := onFields [(F.CPn_CFG.HEAD_EN 0, 3), (⟨R.CPn_HEAD_MAP 0, 31, 0⟩, 0x100), (F.CXn_FMT.PIXELS 0, 4096), (F.CXn_FMT.PIXFMT 0, 0x12),
      (F.CXn_FMT.LAYOUT 0, 0x22), (F.CXn_FMT.PIXELS 1, 4096), (F.CXn_FMT.PIXFMT 1, 0x12), (F.CXn_FMT.LAYOUT 1, 1)]
    ctxPayload d 0 = 16384 ∧ ctxPayload d 1 = 8192 ∧ portLoad d 0 * 8 * 40000 = 7888640000 ∧ sumCorrection d = 16384 := by decide +kernel

/-- Table 4.4: crosstalk of R, green imbalance, demosaic of B, matrix. -/
theorem test_table_4_4 :
    let d := onFields [(F.CXn_GI.GI_SCALE 0, 33096), (F.CXn_GI.GI_OFFSET 0, 65496), (F.CXn_MATo_k.M_EVEN 0 0 0, 4506),
      (F.CXn_MATo_k.M_ODD 0 0 0, 65188), (F.CXn_MATo_k.M_EVEN 0 0 1, 65474)]
    (crosstalk 655 655 [26336, 30176, 26016])[1]? = some 29130 ∧ greenBalance d 0 26110 = 26331 ∧
      (demosaic d 0 [0, 27480, 30154, 27110, 0] [0, 18220, 26829, 17930, 0] 2)[2]? = some 17609 ∧
      matrixBand d 0 0 [[30090], [26829], [17609]] 1 = [30556] := by decide +kernel

/-- Table 4.4: dark and gain of R and G. -/
theorem test_table_4_4_gain :
    darkGain {} 0 (fun e => if e % 2 = 0 then 17203 * 65536 + 412 else 16950 * 65536 + 398) [[29130], [26331]] = ([[30154], [26829]], 0) := by
  decide +kernel

/-- Table 4.4: linearisation of R, k = 471 and f = 10. -/
theorem test_table_4_4_lut :
    linearise { tabs := [(0x202043AE, 0x80#8), (0x202043AF, 0x75#8), (0x202043B0, 0xC2#8), (0x202043B1, 0x75#8)] } 0 30154 = 30090 := by
  decide +kernel

/-- Table 5.6: o′, g′ and the residual of the entry, from the step limit on. -/
theorem test_table_5_6 :
    let d := ((((((onFields [(F.CAL_CTRL.N_MIN_LOG2, 8), (F.CAL_DRAM_BASE_HI.ADDR, 1), (F.CAL_Cn_TGTk.TGT_EVEN 0 0, 30000), (F.CAL_Cn_CFG.SD_MAX 0, 8),
      (F.GEO_Vv_CFG.WIDTH 0, 100), (F.GEO_Cn_CFG.VIEW_EN 0, 1), (F.CAL_CTRL.GUARD_X, 0), (F.CAL_Cn_RANGE.PIX_LAST 0, 15)]).wr
      (R.CXn_FMT 0) 0x01000010)).setNum 0x100000000 4 (17203 * 65536 + 412)).setNum 0x100600000 4 7540480).setNum 0x100600004 6
      222101000000).setNum 0x10060000A 2 256
    updateEntry d 0 0 0 none 3 = (17139, 415, false, some 165) := by decide +kernel

/-- Chapter 5: the live entry between slots at 33.625 °C and 38.000 °C, at 35.750 °C; and alone at 33.625 °C. -/
theorem test_chapter_5_slots :
    let d := ((((onFields [(F.CAL_DRAM_BASE_HI.ADDR, 1), (F.CAL_Cn_SETS.VALID 0, 5), (slotTempFld 0 0, 269), (slotTempFld 0 2, 304)]).setNum
      0x10000001C 4 (17100 * 65536 + 400)).setNum 0x100200038 2 (10 + 256 * 4)).setNum 0x10020003C 2 22)
    (entryAt d 0 7 (some 286)).1 = 17163 ∧ entryAt d 0 7 (some 269) = (17140, 416) := by decide +kernel

/-- The map of CX0 in Table 6.5. -/
def mapState : Device :=
  (((({} : Device).wr (R.GEO_Cn_C0 0) 0xFFFE8000#32).wr (R.GEO_Cn_C1 0) 0x10666666#32).wr (R.GEO_Cn_C2 0) 0x00040000#32).wr (R.CXn_FMT 0) 4096#32

/-- Table 6.6: coordinates and source position of cell 4,000 in CX0; the covered cells of Table 6.5; the cell of pixel 3,900. -/
theorem test_table_6_6_map : mapX mapState 0 3900 = 262119512 ∧ mapX mapState 0 3901 = 262186808 ∧ sourcePos mapState 0 4000 = (3900, 93) ∧
    coverOf mapState 0 = (0, 4199) ∧ cellOf mapState 0 3900 = 4000 := by decide +kernel

/-- Table 6.6: the weights at F = 93 and F = 19. -/
theorem test_table_6_6_weights : cubicWeights 93 = [-2470917, 24896783, 12538353, -1409787] ∧
    cubicWeights 19 = [-1067211, 33112929, 1594271, -85557] := by decide

/-- Table 7.6: the sort coordinates of a kernel's cell and its class, in bits [7:4] of byte 0x3101_6C93. -/
theorem test_table_7_6 :
    let d := onFields [(F.SEGv_MATk_m.M_EVEN 0 0 0, 1365), (F.SEGv_MATk_m.M_ODD 0 0 0, 1365), (F.SEGv_MATk_m.M_EVEN 0 0 1, 1365),
      (F.SEGv_MATk_m.M_EVEN 0 1 0, 4096), (F.SEGv_MATk_m.M_EVEN 0 1 1, 61440), (F.SEGv_MATk_m.M_ODD 0 2 1, 4096), (F.SEGv_CFG.SH0 0, 10),
      (F.SEGv_CFG.SH1 0, 10), (F.SEGv_CFG.SH2 0, 10), (F.SEGv_OFF01.OFF1 0, 32)]
    (List.range 3).map (fun k => sortCoord d 0 k [48120, 47530, 44010, 40250]) = [45, 36, 39] ∧
      pixelClass { d with tabs := [(0x31016C93, 0x10#8)] } 0 [48120, 47530, 44010, 40250] = 1 := by decide +kernel

/-- Table 7.7: CX, CY, MU20 and LINES of the front object. -/
theorem test_table_7_7 :
    let o : Obj := { id := 0x317A04, first := 970, chain := 970, last := 1029, xMin := 4509, xMax := 4531, area := 1040, sx := 4700832 }
    let x := descOf 0 { o with sxx := 21247936741, sy := 31200 + 970 * 1040 }
    x.cx = 72320 ∧ x.cy = 480 ∧ x.mu20 = 484 ∧ x.lines = 60 := by decide +kernel

/-- The front and the rear object of Table 7.8. -/
def frontObject : Desc := { view := 0, id := 1, first := 970, lines := 60, xMin := 4509, xMax := 4531, area := 1040, cx := 72320, cy := 480 }
def rearObject : Desc := { view := 1, id := 2, first := 970, lines := 60, xMin := 4510, xMax := 4531, area := 1028, cx := 72326, cy := 480 }

/-- Table 7.8, steps 4 and 5: overlap, score, AREA, CX and the centre line of the pair. -/
theorem test_table_7_8 : xOverlap frontObject rearObject = 22 ∧ qualifies 192 frontObject rearObject = true ∧
    pairScore frontObject rearObject = 1320 ∧ (pairSighting 0 1030 frontObject rearObject).area = 1034 ∧
    (pairSighting 0 1030 frontObject rearObject).cx = 72323 ∧ (pairSighting 0 1030 frontObject rearObject).centre = 1000 := by decide +kernel

/-- Table 8.7: the MAC counts of layers 0, 1, 2, 4 and 6. -/
theorem test_table_8_7 :
    let l : Layer := { op := 1, relu := true, stride2 := true, inC := 16, outC := 24, inH := 32, inW := 32, wOff := 0, qOff := 0 }
    l.macs = 884736 ∧ { l with op := 3, stride2 := false, inC := 24, inH := 16, inW := 16 }.macs = 55296 ∧
      { l with op := 2, stride2 := false, inC := 24, outC := 64, inH := 16, inW := 16 }.macs = 393216 ∧
      { l with stride2 := false, inC := 64, outC := 64, inH := 8, inW := 8 }.macs = 2359296 ∧
      { l with op := 6, inC := 64, outC := 5, inH := 1, inW := 1 }.macs = 320 := by decide

/-- Table 8.8: the class and margin of the scores, and the quantised output of layer 6. -/
theorem test_table_8_8 :
    argMax [2214, 1903, -412, -1650, 388] = 0 ∧ marginOf [2214, 1903, -412, -1650, 388] = 311 ∧
      argMax [23, 61, -40, -77, 8] = 1 ∧ marginOf [23, 61, -40, -77, 8] = 38 ∧
      quantise (((({} : Device).setNum 0x42000008 4 2100).setNum 0x4200000C 2 17000).setNum 0x4200000E 1 22)
        { op := 6, relu := false, stride2 := false, inC := 64, outC := 5, inH := 1, inW := 1, wOff := 0, qOff := 0 } 1 13000 = 61 := by decide +kernel

/-- Table 9.8: v_mean, s, Δ_LE; Table 9.7: DT_MIN and DT_MAX. -/
theorem test_table_9_8 : meanSpeed 40000 10950000 = 239400913 ∧ sqrtNearest (speedSq 0x26520000 242920835 150000) = 267676336 ∧
    fallTime 0x26520000 242920835 150000 = 38505501 ∧ fallTime 0x26520000 (4200 * 65536) 40000 = 9420174 ∧
    fallTime 0x26520000 (3000 * 65536) 40000 = 13054689 := by decide +kernel

/-- The ejection settings of Table 9.7 for valves 62 to 65. -/
def ejectState : Device :=
  onFields ([(F.SPn_CFG.EN 0, 1), (F.EJ_MARGIN.MARGIN, 160), (F.EJ_TIMEr.PRE 0, 200), (F.EJ_TIMEr.POST 0, 200), (F.GEO_Vv_CFG.WIDTH 2, 12000)] ++
    [62, 63, 64, 65].flatMap (fun k => [(F.EJ_Vc_MAP.EN k, 1), (F.EJ_Vc_MAP.X_LO k, 70 * k), (F.EJ_Vc_MAP.X_HI k, 70 * k + 69),
      (F.EJ_Vc_OPEN.OPEN_LEAD k, if k = 64 then 1212000 else 1200000), (F.EJ_Vc_CLOSE.CLOSE_LEAD k, if k = 64 then 804000 else 800000)]))

/-- Table 9.8: the object interval, the covering valves and the decision deadline. -/
theorem test_table_9_8_valves :
    ejectSpan ejectState { xMin := 4501, xMax := 4523, cx := 72190, area := 1026 } (-468) = (71380, 72068) ∧
      covering ejectState 0 71380 72068 = [63, 64] ∧ rowDeadline ejectState ejectState 0 0 48730501 71380 72068 [] = 47268501 := by decide +kernel

/-- Table 9.8: the windows of valves 63 and 64. -/
theorem test_table_9_8_windows :
    (placeAll ejectState ejectState 0 0 48730501 50155501 47268501 71380 72068).2.2.map (fun w => (w.chan, w.opn, w.cls)) =
      [(63, 47330501, 49555501), (64, 47318501, 49551501)] := by decide +kernel

/-- Table 10.4: one lane update, and the estimate 1,500,000 ns later. -/
theorem test_table_10_4 :
    let o := laneMeasure 4 { x0 := 235929600, x1 := 131072, started := true } 239400913 2000000
    o.x0 = 236013167 ∧ o.x1 = 464293 ∧ o.x2 = 444295 ∧ laneEstimate o 3500000 = 236013864 := by decide +kernel

/-- Chapter 11: Σ(L − 1) = 189 and a gain of 4,096 for three stages of length 64 with a shift of 6. -/
theorem test_chapter_11 :
    let d := onFields [(F.MON_Cc_CFG.NSTAGE_M1 5, 2), (F.MON_Cc_STG01.L0_M1 5, 63), (F.MON_Cc_STG01.L1_M1 5, 63), (F.MON_Cc_STG23.L2_M1 5, 63)]
    monSpan d 5 = 189 ∧ monBlock d 5 / 2 ^ 6 = 4096 := by decide +kernel

/-- Table 12.4: a slew of −180 ns at 100 ppm takes 899,994 edges of 859,000 units. -/
theorem test_table_12_4 : slewStep {} = 859000 ∧ ceilDiv (180 * 2 ^ 32) (slewStep {}) = 899994 := by decide +kernel

/-- Table 13.4: the location of address 0x2_2345_6780. -/
theorem test_table_13_4 : channelOf {} 0x223456780 = 2 ∧ bankOf {} 0x223456780 = 0 ∧ rowOf {} 0x223456780 = 18641 ∧ burstOf 0x223456780 = 23 := by
  decide +kernel

/-- A device with session 0x1A2B, whose last request had SEQ 6, and 40,000 lines counted at CP0. -/
def readState : Device :=
  { ((({} : Device).wr (R.CPn_LINES_OK 0) 40000#32).setBit F.KCP_CFG.EN true) with boot := { phase := .done }, eth := { sessions := [{ id := 0x1A2B, role := 1, maxBody := 1024, last := 6 }] } }

/-- The request of Table 14.8 behind its header. -/
def readRequest : KcpMsg :=
  { session := 0x1A2B, seq := 7, len := 12, rest := [0x20#8, 0#8, 0#8, 0x20#8, 0#8, 0#8, 0#8, 0#8, 1#8, 0#8, 0#8, 0#8] }

/-- Table 14.8: the bytes of the reply; the counter is cleared by the read. -/
theorem test_table_14_8 :
    let d := kcpServe 3 1 true runRead readRequest readState
    (d.eth.reply.map replyBytes) = some ([0x43, 0x4B, 0x01, 0x83, 0x2B, 0x1A, 0, 0, 7, 0, 0, 0, 8, 0, 0, 0, 0, 0, 0, 0, 0x40, 0x9C, 0, 0].map (BitVec.ofNat 8)) ∧
      d.rd (R.CPn_LINES_OK 0) = 0 := by decide +kernel

/-- Chapter 14: the same SEQ again answers the stored reply and counts nothing. -/
theorem test_chapter_14_repeat :
    let d := (kcpServe 3 1 true runRead readRequest readState).wr (R.CPn_LINES_OK 0) 5#32
    let e := kcpServe 3 1 true runRead readRequest d
    e.eth.reply = d.eth.reply ∧ e.rd (R.CPn_LINES_OK 0) = 5 := by decide +kernel

/-- Table 15.5: the first three bytes of the payload. -/
theorem test_table_15_5 : (codedPayload 8 [[118, 121, 120], [119, 123]]).take 3 = [0x2E#8, 0xD1#8, 0x96#8] := by decide +kernel

/-- "123456789". -/
def checkBytes : List Byte := (List.range 9).map (fun i => BitVec.ofNat 8 (0x31 + i))

/-- Table 17.4: the check values of the CRC-32C of R64, of a CRC unit at its reset values, and of the CRC-64 of the pair digest. -/
theorem test_table_17_4 : crc32c checkBytes = 0xE3069283 ∧ crc64 checkBytes = 0x6C40DF5F0B497347 := by decide +kernel
theorem test_table_17_4_unit :
    (crcBytes (crcStartDev 3 {}) 3 (checkBytes.map BitVec.toNat)).pair (R.CRCu_RESULT_LO 3) (R.CRCu_RESULT_HI 3) = 0xE3069283 := by decide +kernel

/-- Chapter 16: the first read of a lock owns it, another master's read answers the owner's number plus 1. -/
theorem test_table_16_5 :
    let d := lockReadDev 2 0 {}
    d.cores.reply = 0 ∧ (lockReadDev 3 0 d).cores.reply = 3 := by decide +kernel

/-- Cell 0 of Table 18.4: rill 205 in PULSE mode, rill 320 in TOGGLE mode, LUT 0x8888, RATE_MAX 2. -/
def beaconState : Device :=
  onFields [(F.EVT_Ck_CFG.EN 0, 1), (F.EVT_Ck_CFG.LUT 0, 0x8888), (⟨R.EVT_Ck_IN01 0, 31, 0⟩, 205 + 0x10000 * (0x200 + 320)),
    (⟨R.EVT_Ck_IN23 0, 31, 0⟩, 0x01FF01FF), (F.EVT_Ck_RATE.RATE_MAX 0, 2)]

/-- Table 18.4, steps 1 to 4: two coalesced events of rill 205 after the switch of rill 320 raise the output once. -/
theorem test_table_18_4 :
    let a := eclk { beaconState with evt := { inflight := [{ rill := 320, stamp := 10 }, { rill := 205, stamp := 20 }, { rill := 205, stamp := 22 }] } } [(320, 1)]
    let b := eclk a [(205, 2)]
    a.bit (F.EVT_Ck_CFG.OUT 0) = false ∧ b.bit (F.EVT_Ck_CFG.OUT 0) = true ∧ b.get F.EVT_COAL.V = 1 ∧ (b.cell 0).lastStamp = 20 ∧
      (eclk b []).bit (F.EVT_Ck_CFG.OUT 0) = false := by decide +kernel

/-- Chapter 20: P_LEAK at 85 °C, and P_RT of P_dyn 10,282 mW. -/
theorem test_chapter_20 : leakMw 85 = 10000 ∧ rneDiv (115 * 10282) 100 + leakMw 85 = 21824 := by decide

/-! ## Witnesses of the statements -/

theorem witness_idle_step : State.reset.pending = [] ∧ State.reset.dev.boot.phase = .reset ∧ runningState.pending = [] ∧
    runningState.dev.boot.phase ≠ .reset := by decide

theorem witness_canonical : runningState.dev.Canonical ∧ ∃ t, step runningState = .next t :=
  ⟨⟨by decide, by decide, by decide, by decide⟩, _, rfl⟩

theorem witness_LanePowerTransitions :
    (∃ (l : Lane) (s : State), ((s.dev.lnState l = lnOff ∨ s.dev.lnState l = lnStandby) ∧ (s.dev.slu.applied = true ∨ laneIsEth l = true))) ∧
    (∃ (l : Lane) (s : State), (s.dev.slu.applied = false ∧ laneIsEth l = false)) ∧
    (∃ (l : Lane) (s : State), (s.dev.lnState l = lnShutdown ∧ (s.dev.slu.applied = true ∨ laneIsEth l = true))) ∧
    (∃ (l : Lane) (s : State), (s.dev.lnState l = lnWaking)) ∧
    (∃ (l : Lane) (s : State), (s.dev.lnState l = lnShutdown)) :=
  ⟨⟨.cpRx 3 1, (onRegs []).but (fun d => d.withSlu { d.slu with applied := true }), by decide⟩,
   ⟨.cpRx 3 1, onRegs [], by decide⟩,
   ⟨.spTx 2, (onRegs [(R.LN_STATUS (laneBase (.spTx 2)), 9)]).but (fun d => d.withSlu { d.slu with applied := true }), by decide⟩,
   ⟨.peerTx 2 1, onRegs [(R.LN_STATUS (laneBase (.peerTx 2 1)), 2)], by decide⟩,
   ⟨.ethRx 0, onRegs [(R.LN_STATUS (laneBase (.ethRx 0)), 0x809)], by decide⟩⟩

theorem witness_LaneSignalAndLock :
    (∃ (l : Lane) (s : State), (laneIsRx l = true) ∧ (lnHunt ≤ s.dev.lnState l ∧ s.dev.lnState l ≤ lnSync)) ∧
    (∃ (l : Lane) (s : State), (laneIsRx l = true) ∧ (s.dev.lnState l = lnLocking)) ∧
    (∃ (l : Lane) (s : State), (laneIsRx l = true) ∧ (s.dev.lnState l = lnLos)) ∧
    (∃ (l : Lane) (s : State), (laneIsRx l = true) ∧ (s.dev.lnState l = lnLocking)) ∧
    (∃ (l : Lane) (s : State), (laneIsRx l = true) ∧ (lnHunt ≤ s.dev.lnState l ∧ s.dev.lnState l ≤ lnSync)) :=
  ⟨⟨.cpRx 0 0, onRegs [(R.LN_STATUS (laneBase (.cpRx 0 0)), 7)], by decide⟩,
   ⟨.spRx 0, onRegs [(R.LN_STATUS (laneBase (.spRx 0)), 4)], by decide⟩,
   ⟨.cpRx 11 3, onRegs [(R.LN_STATUS (laneBase (.cpRx 11 3)), 3)], by decide⟩,
   ⟨.ethRx 3, onRegs [(R.LN_STATUS (laneBase (.ethRx 3)), 4)], by decide⟩,
   ⟨.peerRx 1 1, onRegs [(R.LN_STATUS (laneBase (.peerRx 1 1)), 5)], by decide⟩⟩

theorem witness_LaneAlignment :
    (∃ (l : Lane) (group : BitVec 10) (phase : Fin 10) (t : Nat) (rd : Bool) (s : State), (laneIsRx l = true ∧ laneIsEth l = false) ∧ (s.dev.get (F.LN_CTRL.PRBS (laneBase l)) = 0 ∧ s.dev.bit (F.LN_CTRL.POLINV (laneBase l)) = false) ∧ (s.dev.lnState l = lnHunt ∧ commaRd group.toNat = some rd)) ∧
    (∃ (l : Lane) (group : BitVec 10) (phase : Fin 10) (t : Nat) (s : State), (laneIsRx l = true ∧ laneIsEth l = false) ∧ (s.dev.get (F.LN_CTRL.PRBS (laneBase l)) = 0 ∧ s.dev.bit (F.LN_CTRL.POLINV (laneBase l)) = false) ∧ (s.dev.lnState l = lnAcq ∧ (s.dev.laneX l).phase = phase ∧ (s.dev.laneX l).acq = 2) ∧ (decodeGroup (s.dev.bit (F.LN_STATUS.RD (laneBase l))) group.toNat = .ctl 0xBC)) ∧
    (∃ (l : Lane) (group : BitVec 10) (phase : Fin 10) (t : Nat) (s : State), (laneIsRx l = true ∧ laneIsEth l = false) ∧ (s.dev.get (F.LN_CTRL.PRBS (laneBase l)) = 0 ∧ s.dev.bit (F.LN_CTRL.POLINV (laneBase l)) = false) ∧ (s.dev.lnState l = lnAcq ∧ (s.dev.laneX l).phase = phase) ∧ (decodeGroup (s.dev.bit (F.LN_STATUS.RD (laneBase l))) group.toNat = .codeErr)) ∧
    (∃ (l : Lane) (group : BitVec 10) (phase : Fin 10) (t : Nat) (v : Nat) (s : State), (laneIsRx l = true ∧ laneIsEth l = false) ∧ (s.dev.get (F.LN_CTRL.PRBS (laneBase l)) = 0 ∧ s.dev.bit (F.LN_CTRL.POLINV (laneBase l)) = false) ∧ (s.dev.lnState l = lnSync ∧ (s.dev.laneX l).phase = phase) ∧ (decodeGroup (s.dev.bit (F.LN_STATUS.RD (laneBase l))) group.toNat = .data v)) ∧
    (∃ (l : Lane) (group : BitVec 10) (phase : Fin 10) (t : Nat) (s : State), (laneIsRx l = true ∧ laneIsEth l = false) ∧ (s.dev.get (F.LN_CTRL.PRBS (laneBase l)) = 0 ∧ s.dev.bit (F.LN_CTRL.POLINV (laneBase l)) = false) ∧ (s.dev.lnState l = lnSync ∧ (s.dev.laneX l).phase = phase ∧ (s.dev.laneX l).score ≤ 3) ∧ (decodeGroup (s.dev.bit (F.LN_STATUS.RD (laneBase l))) group.toNat = .dispErr)) ∧
    (∃ (l : Lane) (s : State), (s.dev.lnState l = lnSync ∧ laneIsEth l = false ∧ 16 ≤ (s.dev.laneX l).validRun)) :=
  ⟨⟨.cpRx 0 0, 0b0011111010, 7, 40, false, onRegs [(R.LN_STATUS (laneBase (.cpRx 0 0)), 5)], by decide⟩,
   ⟨.spRx 3, 0b0011111010, 0, 40, (onRegs [(R.LN_STATUS (laneBase (.spRx 3)), 6)]).but (fun d => d.setLaneX (.spRx 3) { acq := 2 }), by decide⟩,
   ⟨.cpRx 1 2, 0b1111111111, 0, 40, onRegs [(R.LN_STATUS (laneBase (.cpRx 1 2)), 6)], by decide⟩,
   ⟨.peerRx 2 0, 0b1001110100, 0, 40, 0, onRegs [(R.LN_STATUS (laneBase (.peerRx 2 0)), 7)], by decide⟩,
   ⟨.spRx 1, 0b0110001011, 0, 40, (onRegs [(R.LN_STATUS (laneBase (.spRx 1)), 7)]).but (fun d => d.setLaneX (.spRx 1) { score := 3 }), by decide⟩,
   ⟨.spRx 0, (onRegs [(R.LN_STATUS (laneBase (.spRx 0)), 7)]).but (fun d => d.setLaneX (.spRx 0) { score := 2, validRun := 17 }), by decide⟩⟩

theorem witness_LaneTapsEyeAndTraining :
    (∃ (l : Lane) (value : Word) (s : State), (laneIsRx l = false ∧ laneIsEth l = false) ∧ (tapsValid ((F.LN_TX_TAPS.C_PRE 0).of value) ((F.LN_TX_TAPS.C_MAIN 0).of value) ((F.LN_TX_TAPS.C_POST 0).of value) = true) ∧ (gateOpen s.dev (R.LN_TX_TAPS (laneBase l)) = true)) ∧
    (∃ (l : Lane) (value : Word) (s : State), (laneIsRx l = false ∧ laneIsEth l = false) ∧ (tapsValid ((F.LN_TX_TAPS.C_PRE 0).of value) ((F.LN_TX_TAPS.C_MAIN 0).of value) ((F.LN_TX_TAPS.C_POST 0).of value) = false) ∧ (gateOpen s.dev (R.LN_TX_TAPS (laneBase l)) = true)) ∧
    (∃ (l : Lane) (scan : EyeScan) (s : State), (laneIsRx l = true ∧ s.dev.lnState l = lnSync ∧ (s.dev.laneX l).train = none) ∧ (eyeLow s.dev l (scanEw s.dev l scan) (scanEh s.dev l scan) = false)) ∧
    (∃ (l : Lane) (scan : EyeScan) (s : State), (laneIsRx l = true ∧ s.dev.lnState l = lnSync) ∧ (eyeLow s.dev l (scanEw s.dev l scan) (scanEh s.dev l scan) = true)) ∧
    (∃ (p : Fin 12) (k : Fin 4) (scan : EyeScan) (s : State), (s.dev.lnState (.cpRx p k) = lnSync ∧ (s.dev.laneX (.cpRx p k)).train = none) ∧ (eyeLow s.dev (.cpRx p k) (scanEw s.dev (.cpRx p k) scan) (scanEh s.dev (.cpRx p k) scan) = true) ∧ (s.dev.portState p = psRun ∧ k.val < portLanes s.dev p ∧ s.dev.bit (F.CPn_CFG.EYE_POLICY p) = true)) ∧
    (∃ (p : Fin 12) (k : Fin 4) (s : State), (s.dev.portState p ≠ psRun ∧ (s.dev.laneX (.cpRx p k)).train = none ∧ (s.dev.port p).trainReq = none) ∧ (trainMode s.dev (.cpRx p k) ≠ 0 ∧ 1 ≤ s.dev.get (F.LN_TRAIN_CTRL.MAX_STEPS (laneBase (.cpRx p k)))) ∧ (∀ j : Fin 4, (s.dev.laneX (.cpRx p j)).train = none) ∧ (gateOpen s.dev (R.LN_CTRL (laneBase (.cpRx p k))) = true)) ∧
    (∃ (p : Fin 12) (k : Fin 4) (s : State), (s.dev.portState p = psRun) ∧ (gateOpen s.dev (R.LN_CTRL (laneBase (.cpRx p k))) = true)) ∧
    (∃ (p : Fin 12) (k : Fin 4) (tag : Nat) (body : List Byte) (word : Word) (t : Training) (s : State), (ctlEvent s.dev p = some (5, tag, body) ∧ (s.dev.port p).trainReq = some { lane := k.val, tag := tag, word := t.request }) ∧ ((s.dev.laneX (.cpRx p k)).train = some t ∧ t.wait = .presetReply) ∧ (∀ j : Fin 4, (s.dev.laneX (.cpRx p j)).train.all (fun u => !u.queued) = true)) ∧
    (∃ (p : Fin 12) (k : Fin 4) (t : Training) (tag : Nat) (s : State), ((s.dev.port p).trainReq = some { lane := k.val, tag := tag, word := t.request } ∧ (s.dev.port p).reqQ.contains true = false) ∧ ((s.dev.laneX (.cpRx p k)).train = some t ∧ t.resends < 3)) ∧
    (∃ (p : Fin 12) (k : Fin 4) (t : Training) (tag : Nat) (s : State), ((s.dev.port p).trainReq = some { lane := k.val, tag := tag, word := t.request } ∧ (s.dev.port p).reqQ.contains true = false) ∧ ((s.dev.laneX (.cpRx p k)).train = some t ∧ 3 ≤ t.resends ∧ t.byPort = false)) :=
  ⟨⟨.cpBc 4, 0x007E0000, onRegs [], by decide⟩,
   ⟨.spTx 0, 0x001E0000, onRegs [], by decide⟩,
   ⟨.cpRx 0 0, { centre := 5, before := [0, 3, 0x100000], after := [9], above := [1], below := [2, 2, 0x100000, 0] }, onRegs [(R.LN_STATUS (laneBase (.cpRx 0 0)), 7), (R.LN_EYE (laneBase (.cpRx 0 0)), 0x80FF0000), (R.LN_EYE_CTRL (laneBase (.cpRx 0 0)), 0x00000050)], by decide⟩,
   ⟨.ethRx 2, {}, onRegs [(R.LN_STATUS (laneBase (.ethRx 2)), 7), (R.LN_EYE_CTRL (laneBase (.ethRx 2)), 0x00641800)], by decide⟩,
   ⟨2, 1, {}, onRegs [(R.LN_STATUS (laneBase (.cpRx 2 1)), 7), (R.CPn_STATUS 2, 8), (R.CPn_CFG 2, 0xFFFFFFFF), (R.LN_EYE_CTRL (laneBase (.cpRx 2 1)), 0x00641800)], by decide⟩,
   ⟨5, 2, onRegs [(R.LN_TRAIN_CTRL (laneBase (.cpRx 5 2)), 0x4022), (R.CPn_STATUS 5, 7)], by decide⟩,
   ⟨0, 0, onRegs [(R.CPn_STATUS 0, 8)], by decide +kernel⟩,
   ⟨1, 3, 0x5A, leBytes 4 0x037E0000, 0, { wait := .presetReply, request := 0x380 }, (onRegs []).but (fun d => (d.setLaneX (.cpRx 1 3) { train := some { wait := .presetReply, request := 0x380 } }).setPort 1 { trainReq := some { lane := 3, tag := 0x5A, word := 0x380 }, rx := { events := [.ctl true (ctlBytes 5 0x5A (leBytes 4 0x037E0000))] } }), by decide +kernel⟩,
   ⟨1, 3, { wait := .presetReply, request := 0x380, resends := 2 }, 9, (onRegs []).but (fun d => (d.setLaneX (.cpRx 1 3) { train := some { wait := .presetReply, request := 0x380, resends := 2 } }).setPort 1 { trainReq := some { lane := 3, tag := 9, word := 0x380 } }), by decide⟩,
   ⟨1, 3, { wait := .presetReply, request := 0x380, resends := 3 }, 9, (onRegs []).but (fun d => (d.setLaneX (.cpRx 1 3) { train := some { wait := .presetReply, request := 0x380, resends := 3 } }).setPort 1 { trainReq := some { lane := 3, tag := 9, word := 0x380 } }), by decide⟩⟩

theorem witness_CameraLineAccepted :
    (∃ (p : Fin 12) (bytes : List Byte) (rest : List LinkEvent) (h : Fin 4) (t : Trigger) (s : State), (s.dev.portState p = psRun ∧ (s.dev.port p).rx.events = .line true bytes :: rest) ∧ (leAt bytes 24 4 + 36 = bytes.length ∧ h.val = leAt bytes 0 1 % 4) ∧ (matchTrig (unit (s.dev.port p).heads h).trigs .outstanding bytes = some t) ∧ (headerOk (s.dev.asOf t.count) (headCtx (s.dev.asOf t.count) p h) (lineOf t.count) bytes = true)) :=
  ⟨2, linePacketOf 7, [], 1, { count := 7, t := 5 }, camEvent 2 (.line true (linePacketOf 7)) cameraState, by decide +kernel⟩

theorem witness_CameraLineRejected :
    (∃ (p : Fin 12) (framed : Bool) (bytes : List Byte) (rest : List LinkEvent) (s : State), (s.dev.portState p ≠ psRun ∧ (s.dev.port p).rx.events = .line framed bytes :: rest)) ∧
    (∃ (p : Fin 12) (framed : Bool) (bytes : List Byte) (rest : List LinkEvent) (s : State), (s.dev.portState p = psRun ∧ (s.dev.port p).rx.events = .line framed bytes :: rest) ∧ (framed = false ∨ leAt bytes 24 4 + 36 ≠ bytes.length)) ∧
    (∃ (p : Fin 12) (bytes : List Byte) (rest : List LinkEvent) (t : Trigger) (s : State), (s.dev.portState p = psRun ∧ (s.dev.port p).rx.events = .line true bytes :: rest) ∧ (leAt bytes 24 4 + 36 = bytes.length) ∧ (matchTrig (unit (s.dev.port p).heads (leAt bytes 0 1 % 4)).trigs .outstanding bytes = none) ∧ (matchTrig (unit (s.dev.port p).heads (leAt bytes 0 1 % 4)).trigs .received bytes = some t)) ∧
    (∃ (p : Fin 12) (bytes : List Byte) (rest : List LinkEvent) (s : State), (s.dev.portState p = psRun ∧ (s.dev.port p).rx.events = .line true bytes :: rest) ∧ (leAt bytes 24 4 + 36 = bytes.length) ∧ (matchTrig (unit (s.dev.port p).heads (leAt bytes 0 1 % 4)).trigs .outstanding bytes = none) ∧ (matchTrig (unit (s.dev.port p).heads (leAt bytes 0 1 % 4)).trigs .received bytes = none)) ∧
    (∃ (p : Fin 12) (bytes : List Byte) (rest : List LinkEvent) (t : Trigger) (s : State), (s.dev.portState p = psRun ∧ (s.dev.port p).rx.events = .line true bytes :: rest) ∧ (leAt bytes 24 4 + 36 = bytes.length) ∧ (matchTrig (unit (s.dev.port p).heads (leAt bytes 0 1 % 4)).trigs .outstanding bytes = some t) ∧ (headerOk (s.dev.asOf t.count) (headCtx (s.dev.asOf t.count) p (leAt bytes 0 1 % 4)) (lineOf t.count) bytes = false)) ∧
    (∃ (p : Fin 12) (rest : List LinkEvent) (s : State), ((s.dev.port p).rx.events = .abort :: rest)) ∧
    (∃ (p : Fin 12) (rest : List LinkEvent) (s : State), ((s.dev.port p).rx.events = .overflow :: rest)) :=
  ⟨⟨0, true, [1], [], camEvent 0 (.line true [1]) (onRegs []), by decide⟩,
   ⟨3, true, [1, 2, 3], [.abort], (onRegs [(R.CPn_STATUS 3, 8)]).but (fun d => d.setPort 3 { rx := { events := [.line true [1, 2, 3], .abort] } }), by decide⟩,
   ⟨2, linePacketOf 5, [], { count := 5, t := 3, st := .received }, camEvent 2 (.line true (linePacketOf 5)) cameraState, by decide +kernel⟩,
   ⟨2, linePacketOf 9, [], camEvent 2 (.line true (linePacketOf 9)) cameraState, by decide +kernel⟩,
   ⟨2, linePacketOf 7, [], { count := 7, t := 5 }, camEvent 2 (.line true (linePacketOf 7)) (cameraState.but (fun d => d.wr (R.CXn_FMT 0) 0)), by decide +kernel⟩,
   ⟨11, [], camEvent 11 .abort (onRegs [(R.CPn_STATUS 11, 4)]), by decide⟩,
   ⟨0, [.abort], (onRegs []).but (fun d => d.setPort 0 { rx := { events := [.overflow, .abort] } }), by decide⟩⟩

theorem witness_CameraTriggersAndBackchannel :
    (∃ (p : Fin 12) (n : Int) (s : State), ((s.dev.port p).nextTrig = some n ∧ triggering s.dev p = true) ∧ (s.dev.lining = true ∧ stopsBefore s.dev n = false)) ∧
    (∃ (p : Fin 12) (h : Fin 4) (s : State), (s.dev.portState p = psRun ∧ headEn s.dev p h = true ∧ 64 ≤ (unit (s.dev.port p).heads h).silent)) ∧
    (∃ (p : Fin 12) (s : State), (s.dev.portState p ≠ psDisabled ∧ s.dev.portState p ≠ psRetry)) ∧
    (∃ (p : Fin 12) (m : TrigMsg) (rest : List TrigMsg) (s : State), (lnSends s.dev (.cpBc p) = true ∧ (s.dev.port p).trigQ = m :: rest)) ∧
    (∃ (p : Fin 12) (x : Exposure) (s : State), (lnSends s.dev (.cpBc p) = true ∧ (s.dev.port p).trigQ = [] ∧ (s.dev.port p).exposure = some x ∧ x.head < 4)) ∧
    (∃ (p : Fin 12) (r : RegRequest) (q : List Bool) (s : State), (lnSends s.dev (.cpBc p) = true ∧ (s.dev.port p).trigQ = [] ∧ (s.dev.port p).exposure = none) ∧ ((s.dev.port p).reqQ = false :: q ∧ (s.dev.port p).regReq = some r)) ∧
    (∃ (p : Fin 12) (s : State), (lnSends s.dev (.cpBc p) = true ∧ (s.dev.port p).trigQ = [] ∧ (s.dev.port p).exposure = none ∧ (s.dev.port p).reqQ = [])) :=
  ⟨⟨4, 100, (onRegs [(R.CPn_STATUS 4, 8), (R.CPn_CFG 4, 0x500), (R.TB_STATUS, 0xFFFFFFFF), (R.TB_PERIOD_NS, 10000)]).but (fun d => d.setPort 4 { nextTrig := some 100 }), by decide⟩,
   ⟨4, 2, (onRegs [(R.CPn_STATUS 4, 8), (R.CPn_CFG 4, 0x400)]).but (fun d => d.setPort 4 { heads := Vector.replicate 4 { silent := 64 } }), by decide⟩,
   ⟨6, onRegs [(R.CPn_STATUS 6, 7)], by decide⟩,
   ⟨1, { line := 3, t := 9, heads := 1 }, [], (onRegs [(R.LN_STATUS (laneBase (.cpBc 1)), 8)]).but (fun d => d.setPort 1 { trigQ := [{ line := 3, t := 9, heads := 1 }], timeDue := true }), by decide⟩,
   ⟨1, { head := 3, settings := 5, count := 12 }, (onRegs [(R.LN_STATUS (laneBase (.cpBc 1)), 8), (R.CPn_EXP_CMD 1, 0x80000000)]).but (fun d => d.setPort 1 { exposure := some { head := 3, settings := 5, count := 12 }, timeDue := true }), by decide⟩,
   ⟨1, { addr := 16, count := 1 }, [], (onRegs [(R.LN_STATUS (laneBase (.cpBc 1)), 8)]).but (fun d => d.setPort 1 { reqQ := [false], regReq := some { addr := 16, count := 1 }, timeDue := true }), by decide⟩,
   ⟨1, onRegs [(R.LN_STATUS (laneBase (.cpBc 1)), 8)], by decide⟩⟩

theorem witness_CameraControlRequests :
    (∃ (p : Fin 12) (value : Word) (s : State), ((F.CPn_CTL_CMD.GO p).of value = 1 ∧ 1 ≤ (F.CPn_CTL_CMD.COUNT p).of value ∧ (F.CPn_CTL_CMD.COUNT p).of value ≤ 16) ∧ (s.dev.portState p = psRun ∧ s.dev.get (F.CPn_CTL_CMD.BUSY p) = 0) ∧ (gateOpen s.dev (R.CPn_CTL_CMD p) = true)) ∧
    (∃ (p : Fin 12) (value : Word) (s : State), ((F.CPn_CTL_CMD.GO p).of value = 1) ∧ (s.dev.get (F.CPn_CTL_CMD.BUSY p) = 1 ∨ s.dev.portState p ≠ psRun ∨ (F.CPn_CTL_CMD.COUNT p).of value = 0 ∨ 16 < (F.CPn_CTL_CMD.COUNT p).of value) ∧ (gateOpen s.dev (R.CPn_CTL_CMD p) = true)) ∧
    (∃ (p : Fin 12) (tag : Nat) (body : List Byte) (r : RegRequest) (s : State), (ctlEvent s.dev p = some (3, tag, body)) ∧ ((s.dev.port p).regReq = some r ∧ r.purpose = .firmware ∧ r.tag = tag)) ∧
    (∃ (p : Fin 12) (tag : Nat) (body : List Byte) (s : State), (ctlEvent s.dev p = some (3, tag, body) ∧ (s.dev.port p).regReq = none)) ∧
    (∃ (p : Fin 12) (r : RegRequest) (s : State), ((s.dev.port p).regReq = some r ∧ (s.dev.port p).reqQ.contains false = false ∧ r.resends < 3)) ∧
    (∃ (p : Fin 12) (r : RegRequest) (s : State), ((s.dev.port p).regReq = some r ∧ (s.dev.port p).reqQ.contains false = false ∧ 3 ≤ r.resends ∧ r.purpose = .firmware)) ∧
    (∃ (p : Fin 12) (tag : Nat) (body : List Byte) (s : State), (ctlEvent s.dev p = some (8, tag, body))) ∧
    (∃ (p : Fin 12) (framed : Bool) (bytes : List Byte) (rest : List LinkEvent) (s : State), ((s.dev.port p).rx.events = .ctl framed bytes :: rest ∧ ctlParse framed bytes = none)) ∧
    (∃ (p : Fin 12) (type : Nat) (tag : Nat) (body : List Byte) (s : State), (ctlEvent s.dev p = some (type, tag, body) ∧ type ≠ 3 ∧ type ≠ 5 ∧ type ≠ 8)) ∧
    (∃ (p : Fin 12) (value : Word) (s : State), ((F.CPn_EXP_CMD.GO p).of value = 1 ∧ s.dev.get (F.CPn_EXP_CMD.BUSY p) = 0 ∧ s.dev.portState p = psRun) ∧ (expTooLate s.dev p (s.dev.countOf (s.dev.get (F.CPn_EXP_LINE.APPLY_LINE p))) = false) ∧ (gateOpen s.dev (R.CPn_EXP_CMD p) = true)) ∧
    (∃ (p : Fin 12) (value : Word) (s : State), ((F.CPn_EXP_CMD.GO p).of value = 1) ∧ (s.dev.get (F.CPn_EXP_CMD.BUSY p) = 1 ∨ s.dev.portState p ≠ psRun ∨ expTooLate s.dev p (s.dev.countOf (s.dev.get (F.CPn_EXP_LINE.APPLY_LINE p))) = true) ∧ (gateOpen s.dev (R.CPn_EXP_CMD p) = true)) :=
  ⟨⟨3, 0x1001, onRegs [(R.CPn_STATUS 3, 8)], by decide⟩,
   ⟨3, 0x1101, onRegs [(R.CPn_STATUS 3, 8)], by decide⟩,
   ⟨0, 7, leBytes 4 0 ++ leBytes 4 0x1234 ++ leBytes 4 0x5678, { tag := 7, count := 2 }, camEvent 0 (.ctl true (ctlBytes 3 7 (leBytes 4 0 ++ leBytes 4 0x1234 ++ leBytes 4 0x5678))) ((onRegs [(R.CPn_STATUS 0, 8)]).but (fun d => d.setPort 0 { regReq := some { tag := 7, count := 2 } })), by decide +kernel⟩,
   ⟨0, 7, leBytes 4 2, camEvent 0 (.ctl true (ctlBytes 3 7 (leBytes 4 2))) (onRegs []), by decide +kernel⟩,
   ⟨0, { tag := 7, resends := 2 }, (onRegs []).but (fun d => d.setPort 0 { regReq := some { tag := 7, resends := 2 } }), by decide⟩,
   ⟨0, { tag := 7, resends := 3 }, (onRegs []).but (fun d => d.setPort 0 { regReq := some { tag := 7, resends := 3 } }), by decide⟩,
   ⟨9, 0, leBytes 4 0x12345678 ++ leBytes 4 1, camEvent 9 (.ctl true (ctlBytes 8 0 (leBytes 4 0x12345678 ++ leBytes 4 1))) (onRegs []), by decide +kernel⟩,
   ⟨9, true, [1, 2], [], camEvent 9 (.ctl true [1, 2]) (onRegs []), by decide⟩,
   ⟨9, 0x77, 1, [], camEvent 9 (.ctl true (ctlBytes 0x77 1 [])) (onRegs []), by decide⟩,
   ⟨8, 0x102, onRegs [(R.CPn_STATUS 8, 8), (R.CPn_EXP_LINE 8, 5)], by decide⟩,
   ⟨8, 0x102, onRegs [(R.CPn_STATUS 8, 8), (R.CPn_EXP_LINE 8, 0)], by decide⟩⟩

theorem witness_CameraPortStates :
    (∃ (p : Fin 12) (skew : List Int) (rest : List LinkEvent) (s : State), (s.dev.portState p = psDeskew ∧ (s.dev.port p).deskewOk = 1 ∧ (s.dev.port p).rx.events = .marker true skew :: rest) ∧ (lanesSync s.dev p (portLanes s.dev p) = true)) ∧
    (∃ (p : Fin 12) (skew : List Int) (rest : List LinkEvent) (s : State), ((s.dev.port p).deskewOk = 0 ∧ (s.dev.port p).rx.events = .marker true skew :: rest)) ∧
    (∃ (p : Fin 12) (skew : List Int) (rest : List LinkEvent) (s : State), ((s.dev.port p).rx.events = .marker false skew :: rest ∧ s.dev.portState p ≠ psRun)) ∧
    (∃ (p : Fin 12) (skew : List Int) (rest : List LinkEvent) (s : State), ((s.dev.port p).rx.events = .marker false skew :: rest) ∧ (s.dev.portState p = psRun ∧ (s.dev.port p).deskewBad = 1 ∧ (s.dev.port p).regReq = none ∧ (s.dev.port p).exposure = none)) ∧
    (∃ (p : Fin 12) (s : State), ((psLaneWake ≤ s.dev.portState p ∧ s.dev.portState p ≤ psRelock) ∨ s.dev.portState p = psDeskew ∨ s.dev.portState p = psResync) ∧ (s.dev.get (F.CPn_STATUS.RETRIES p) < 2)) ∧
    (∃ (p : Fin 12) (s : State), ((psLaneWake ≤ s.dev.portState p ∧ s.dev.portState p ≤ psRelock) ∨ s.dev.portState p = psDeskew ∨ s.dev.portState p = psResync) ∧ (s.dev.get (F.CPn_STATUS.RETRIES p) = 2)) ∧
    (∃ (p : Fin 12) (s : State), (s.dev.portState p = psRetry ∧ lanesSync s.dev p 1 = false)) ∧
    (∃ (p : Fin 12) (s : State), (s.dev.portState p = psRetry ∧ lanesSync s.dev p 1 = true ∧ (s.dev.port p).regReq = none) ∧ (∀ k : Fin 4, s.dev.get (F.LN_STATUS.RATE (laneBase (.cpRx p k))) = 1)) ∧
    (∃ (p : Fin 12) (s : State), (s.dev.get (F.CPn_CFG.HEAD_EN p) = 0) ∧ (gateOpen s.dev (R.CPn_LINK_CTRL p) = true)) :=
  ⟨⟨2, [3], [], camEvent 2 (.marker true [3]) ((onRegs [(R.CPn_STATUS 2, 6), (R.LN_STATUS (laneBase (.cpRx 2 0)), 7)]).but (fun d => d.setPort 2 { deskewOk := 1 })), by decide⟩,
   ⟨2, [-3, 7, 64], [], camEvent 2 (.marker true [-3, 7, 64]) (onRegs [(R.CPn_STATUS 2, 8)]), by decide⟩,
   ⟨2, [], [], camEvent 2 (.marker false []) (onRegs [(R.CPn_STATUS 2, 5)]), by decide⟩,
   ⟨2, [], [], camEvent 2 (.marker false []) ((onRegs [(R.CPn_STATUS 2, 8)]).but (fun d => d.setPort 2 { deskewBad := 1 })), by decide⟩,
   ⟨7, onRegs [(R.CPn_STATUS 7, 0x102)], by decide⟩,
   ⟨7, onRegs [(R.CPn_STATUS 7, 0x202)], by decide⟩,
   ⟨7, (onRegs [(R.CPn_STATUS 7, 0x10A)]).but (fun d => d.withSlu { d.slu with applied := true }), by decide⟩,
   ⟨7, onRegs [(R.CPn_STATUS 7, 0x10A), (R.LN_STATUS (laneBase (.cpRx 7 0)), 0x107), (R.LN_STATUS (laneBase (.cpRx 7 1)), 0x100), (R.LN_STATUS (laneBase (.cpRx 7 2)), 0x100), (R.LN_STATUS (laneBase (.cpRx 7 3)), 0x100)], by decide⟩,
   ⟨7, cameraState.but (fun d => d.wr (R.CPn_CFG 7) 0), by decide⟩⟩

theorem witness_PipesAndStatistics :
    (∃ (p : Fin 8) (l : CamLine) (s : State), ((List.range 8).find? (fun k => (s.dev.pipeAt k).isNone) = some p.val ∧ nextLine s.dev = some l)) ∧
    (∃  (s : State), ((∀ p : Fin 8, (s.dev.pipeAt p).isSome = true) ∨ nextLine s.dev = none)) ∧
    (∃ (p : Fin 8) (l : CamLine) (s : State), (s.dev.pipeAt p = some l ∧ l.ctx < 48 ∧ s.dev.cal.run = none) ∧ (s.dev.safe = false ∧ s.dev.resetting 3 = false ∧ s.dev.geo.condemned.contains (l.ctx, l.count) = false) ∧ ((s.dev.geo.stored.filter (fun x => x.ctx = l.ctx)).length < 16)) ∧
    (∃ (p : Fin 8) (l : CamLine) (s : State), (s.dev.pipeAt p = some l ∧ l.ctx < 48 ∧ l.port < 12)) ∧
    (∃ (k : Fin 48) (s : State), (gateOpen s.dev (R.CXn_STAT_CTRL k) = true)) :=
  ⟨⟨0, { port := 3, ctx := 2, count := 5, held := 40 }, (onRegs []).but (fun d => { d with pipes := { waiting := [{ port := 3, ctx := 2, count := 5, held := 40 }, { ctx := 2, count := 6 }] } }), by decide⟩,
   ⟨(onRegs []).but (fun d => { d with pipes := { waiting := [{ count := 5 }], pipe := Vector.replicate 8 (some {}) } }), by decide⟩,
   ⟨7, { port := 3, ctx := 2, count := 5, payload := [1, 2, 3, 4] }, (onRegs [(R.CXn_FMT 2, 0x01000002)]).but (fun d => d.setPipe 7 (some { port := 3, ctx := 2, count := 5, payload := [1, 2, 3, 4] })), by decide⟩,
   ⟨7, { port := 3, ctx := 2, count := 5, payload := [1, 2, 3, 4] }, (onRegs [(R.CXn_FMT 2, 0x01000002)]).but (fun d => d.setPipe 7 (some { port := 3, ctx := 2, count := 5, payload := [1, 2, 3, 4] })), by decide⟩,
   ⟨47, onRegs [(R.CXn_STAT_STATUS 47, 0xFFFFFFFF)], by decide⟩⟩

theorem witness_CalibrationRuns :
    (∃ (value : Word) (s : State), (F.CAL_RUN.GO.of value = 1 ∧ s.dev.get F.CAL_STATUS.BUSY = 0 ∧ calAllowed s.dev (F.CAL_RUN.CTX.of value) = true) ∧ (sampled s.dev (s.dev.get F.CAL_RUN_LINE.START_LINE) = true ∧ lineBefore (lineAdd (s.dev.get F.TB_LINE.L) 63) (s.dev.get F.CAL_RUN_LINE.START_LINE) = true) ∧ (gateOpen s.dev (R.CAL_RUN) = true)) ∧
    (∃ (value : Word) (s : State), (F.CAL_RUN.GO.of value = 1) ∧ (s.dev.get F.CAL_STATUS.BUSY = 1 ∨ calAllowed s.dev (F.CAL_RUN.CTX.of value) = false ∨ sampled s.dev (s.dev.get F.CAL_RUN_LINE.START_LINE) = false ∨ lineBefore (lineAdd (s.dev.get F.TB_LINE.L) 63) (s.dev.get F.CAL_RUN_LINE.START_LINE) = false) ∧ (gateOpen s.dev (R.CAL_RUN) = true)) ∧
    (∃  (s : State), ((s.dev.calState = csWaitStart ∨ s.dev.calState = csAccum) ∧ s.dev.calCtxNo < 48) ∧ (gateOpen s.dev (R.CAL_RUN) = true)) ∧
    (∃ (r : CalRun) (s : State), (s.dev.cal.run = some r ∧ s.dev.calState = csCompute ∧ s.dev.calCtxNo < 48) ∧ (s.dev.tb.count < runApplyLine s.dev r.lc ∧ (∀ x ∈ s.dev.cal.sets, s.dev.tb.count < x.a))) ∧
    (∃ (m : MramCommit) (s : State), (s.dev.cal.commit = some m ∧ s.dev.cal.waiting = [])) ∧
    (∃ (m : MramCommit) (s : State), (s.dev.cal.commit = some m ∧ s.dev.cal.waiting = [])) ∧
    (∃ (k : Fin 48) (t : Nat) (s : State), ((s.dev.calCtx k).lastStart = some t ∧ s.dev.get F.CAL_TRIG.INTERVAL ≠ 0 ∧ calAllowed s.dev k = true)) :=
  ⟨⟨0x80000005, onRegs [(R.CAL_CTRL, 1), (R.CAL_Cn_CFG 5, 1), (R.CPn_CFG 0, 0x100), (R.CPn_HEAD_MAP 0, 5), (R.CAL_RUN_LINE, 0x100)], by decide⟩,
   ⟨0x80000005, onRegs [], by decide⟩,
   ⟨onRegs [(R.CAL_STATUS, 0x82)], by decide⟩,
   ⟨{ startLine := 64, lc := 100, tr := some 50 }, (onRegs [(R.CAL_STATUS, 0x3), (R.CXn_FMT 0, 0x01000002), (R.CAL_Cn_RANGE 0, 0x00010000)]).but (fun d => d.setRun (some { startLine := 64, lc := 100, tr := some 50 })), by decide⟩,
   ⟨{ ctx := 3, footAddr := 0x90000100, foot := [1, 2], recAddr := 0x90800000, record := [7] }, (onRegs []).but (fun d => { d with cal := { commit := some { ctx := 3, footAddr := 0x90000100, foot := [1, 2], recAddr := 0x90800000, record := [7] } } }), by decide⟩,
   ⟨{ ctx := 3, recAddr := 0x90800000, record := [7] }, (onRegs []).but (fun d => { d with cal := { commit := some { ctx := 3, recAddr := 0x90800000, record := [7] } } }), by decide⟩,
   ⟨33, 0, (onRegs [(R.CAL_CTRL, 1), (R.CAL_Cn_CFG 33, 1), (R.CPn_CFG 0, 0x100), (R.CPn_HEAD_MAP 0, 33), (R.CAL_TRIG, 0xFFFFFFFF)]).but (fun d => d.setCalCtx 33 { lastStart := some 0 }), by decide⟩⟩

theorem witness_ViewLinesAndHistory :
    (∃ (v : Fin 4) (l : Int) (t : Nat) (rest : List (Int × Nat × Bool)) (s : State), ((s.dev.view v).due = (l, t, false) :: rest ∧ viewReady s.dev v l = true)) ∧
    (∃ (v : Fin 4) (l : Int) (t : Nat) (rest : List (Int × Nat × Bool)) (s : State), ((s.dev.view v).due = (l, t, true) :: rest ∧ stampBefore (viewDue s.dev v l t) s.dev.nowNs = true)) ∧
    (∃ (v : Fin 4) (l : Int) (t : Nat) (rest : List (Int × Nat × Bool)) (s : State), ((s.dev.view v).due = (l, t, false) :: rest ∧ viewReady s.dev v l = false) ∧ (∀ x ∈ (s.dev.view v).due, stampBefore (viewDue s.dev v x.1 x.2.1) s.dev.nowNs = false ∧ stampBefore (viewDue s.dev v x.1 x.2.1) (viewDue s.dev v l t) = false) ∧ (stampBefore (s.dev.elapseTo (viewDue s.dev v l t)).nowNs (viewDue s.dev v l t) = false)) ∧
    (∃ (v : Fin 4) (r : HistRow) (rest : List HistRow) (s : State), ((s.dev.view v).rows = r :: rest ∧ (s.dev.view v).starts.any (fun a => decide (a ≤ r.first)) = false)) ∧
    (∃ (v : Fin 4) (r : HistRow) (rest : List HistRow) (s : State), ((s.dev.view v).rows = r :: rest ∧ (s.dev.view v).starts.any (fun a => decide (a ≤ r.first)) = true)) ∧
    (∃ (v : Fin 4) (r : HistRow) (rest : List HistRow) (s : State), ((s.dev.view v).rows = r :: rest ∧ dramBase ≤ r.tagAddr)) :=
  ⟨⟨1, 9, 5, [(10, 6, false)], (onRegs [(R.GEO_Vv_CFG 1, 4)]).but (fun d => d.setView 1 { due := [(9, 5, false), (10, 6, false)] }), by decide⟩,
   ⟨3, 9, 5, [], (onRegs [(R.GEO_Vv_CFG 3, 4)]).but (fun d => { (d.setView 3 { due := [(9, 5, true)] }) with tb := { tod := { sec := 1 } } }), by decide⟩,
   ⟨3, 9, 5, [(10, 9, false)], (onRegs [(R.CPn_CFG 0, 0x100), (R.CPn_HEAD_MAP 0, 0), (R.CXn_FMT 0, 0x01000010), (R.GEO_Vv_CFG 3, 4), (R.GEO_Cn_CFG 0, 0xB), (R.GEO_Cn_BAND 0, 0)]).but (fun d => d.setView 3 { due := [(9, 5, false), (10, 9, false)] }), by decide⟩,
   ⟨0, { first := 3, last := 3, tagAddr := 0x100000000, rowAddr := 0x100000040, data := [9, 8] }, [], (onRegs []).but (fun d => d.setView 0 { rows := [{ first := 3, last := 3, tagAddr := 0x100000000, rowAddr := 0x100000040, data := [9, 8] }] }), by decide⟩,
   ⟨0, { first := 3, last := 3, tagAddr := 0x100000000, rowAddr := 0x100000040, data := [9, 8] }, [], (onRegs []).but (fun d => d.setView 0 { starts := [3], rows := [{ first := 3, last := 3, tagAddr := 0x100000000, rowAddr := 0x100000040, data := [9, 8] }] }), by decide⟩,
   ⟨0, { first := 3, last := 3, tagAddr := 0x100000000, rowAddr := 0x100000040, data := [9, 8] }, [], (onRegs []).but (fun d => d.setView 0 { rows := [{ first := 3, last := 3, tagAddr := 0x100000000, rowAddr := 0x100000040, data := [9, 8] }] }), by decide⟩⟩

theorem witness_SegmenterLineStep :
    (∃ (v : Fin 4) (l : Int) (b : List (List Nat)) (rest : List ViewLine) (s : State), ((s.dev.view v).store = { count := l, bands := some b } :: rest ∧ heldLine s.dev l = false ∧ s.dev.cal.run = none) ∧ ((s.dev.seg v).objs.length ≤ 4096)) ∧
    (∃ (v : Fin 4) (l : Int) (b : List (List Nat)) (rest : List ViewLine) (s : State), ((s.dev.view v).store = { count := l, bands := some b } :: rest ∧ heldLine s.dev l = false ∧ s.dev.cal.run = none) ∧ ((s.dev.seg v).width = viewWidth (s.dev.asOf l) v) ∧ (runsFrom ((transposeBands b (viewWidth (s.dev.asOf l) v)).map (pixelClass (s.dev.asOf l) v)) 0 none = [])) ∧
    (∃ (v : Fin 4) (l : Int) (b : List (List Nat)) (rest : List ViewLine) (x : Nat) (y : Nat) (s : State), ((s.dev.view v).store = { count := l, bands := some b } :: rest ∧ heldLine s.dev l = false ∧ s.dev.cal.run = none) ∧ ((s.dev.seg v).objs = [] ∧ (s.dev.seg v).prev = none ∧ (s.dev.seg v).lostRun = 0 ∧ (s.dev.seg v).chains = []) ∧ (runsFrom ((transposeBands b (viewWidth (s.dev.asOf l) v)).map (pixelClass (s.dev.asOf l) v)) 0 none = [(x, y)]) ∧ (1 < (s.dev.asOf l).get F.BSN_CFG.LEN_MAX ∧ y - x + 1 ≤ (s.dev.asOf l).get F.BSN_CFG.WID_MAX)) ∧
    (∃ (v : Fin 4) (l : Int) (rest : List ViewLine) (s : State), ((s.dev.view v).store = { count := l, bands := none } :: rest ∧ heldLine s.dev l = false ∧ s.dev.cal.run = none) ∧ ((s.dev.seg v).width = viewWidth (s.dev.asOf l) v ∧ (s.dev.seg v).split = []) ∧ ((s.dev.seg v).lostRun + 1 ≤ (s.dev.asOf l).get (F.SEGv_CFG.GAP_BRIDGE v))) ∧
    (∃ (v : Fin 4) (l : Int) (rest : List ViewLine) (s : State), ((s.dev.view v).store = { count := l, bands := none } :: rest ∧ heldLine s.dev l = false ∧ s.dev.cal.run = none) ∧ ((s.dev.seg v).width = viewWidth (s.dev.asOf l) v ∧ (s.dev.seg v).split = []) ∧ ((s.dev.asOf l).get (F.SEGv_CFG.GAP_BRIDGE v) < (s.dev.seg v).lostRun + 1)) :=
  ⟨⟨2, 9, [[0, 900, 900, 0, 900]], [], segState 9 (some [[0, 900, 900, 0, 900]]), by decide⟩,
   ⟨2, 9, [[0, 0, 0, 0, 0]], [], segState 9 (some [[0, 0, 0, 0, 0]]), by decide⟩,
   ⟨2, 9, [[0, 900, 900, 0, 0]], [], 1, 2, (segState 9 (some [[0, 900, 900, 0, 0]])).but (fun d => d.setSeg 2 { width := 5 }), by decide⟩,
   ⟨2, 9, [], segState 9 none, by decide⟩,
   ⟨2, 9, [], (segState 9 none).but (fun d => d.wr (R.SEGv_CFG 2) 0), by decide⟩⟩

theorem witness_SightingFormation :
    (∃ (h : Fin 2) (k : Int) (rest : List Int) (s : State), (s.dev.formQ h = k :: rest ∧ (viewPassed s.dev (2 * h) k = false ∨ viewPassed s.dev (2 * h + 1) k = false))) ∧
    (∃ (h : Fin 2) (k : Int) (rest : List Int) (s : State), (s.dev.formQ h = k :: rest ∧ (s.dev.tb.unstamped.any (fun u => decide (u.1 ≤ k)) = true ∨ heldLine s.dev k = true))) ∧
    (∃ (k : Int) (rest : List Int) (s : State), (s.dev.formQ 0 = k :: rest ∧ ((s.dev.formQ 1).any (fun x => decide (x < k)) = true ∨ s.dev.fly.stepQ.any (fun x => decide (x < k)) = true))) ∧
    (∃ (k : Int) (rest : List Int) (s : State), (s.dev.formQ 1 = k :: rest ∧ (s.dev.formQ 0).any (fun x => decide (x ≤ k)) = true)) ∧
    (∃ (h : Fin 2) (s : State), (s.dev.formQ h = [])) ∧
    (∃ (k : Int) (rest : List Int) (f : Closed) (r : Closed) (s : State), (s.dev.formQ 1 = k :: rest ∧ heldLine s.dev k = false ∧ viewPassed s.dev 2 k = true ∧ viewPassed s.dev 3 k = true) ∧ (s.dev.tb.unstamped.any (fun u => decide (u.1 ≤ k)) = false ∧ (s.dev.formQ 0).any (fun x => decide (x ≤ k)) = false) ∧ (viewOn (s.dev.asOf k) 2 = true ∧ viewOn (s.dev.asOf k) 3 = true) ∧ ((s.dev.seg 2).queue = [] ∧ (s.dev.seg 3).queue = [] ∧ (s.dev.seg 2).waiting = [f] ∧ (s.dev.seg 3).waiting = [r]) ∧ (qualifies ((s.dev.asOf k).get F.BSN_SIGHT.OVL_MIN) f.desc r.desc = true ∧ qualifies ((s.dev.asOf k).get F.BSN_SIGHT.OVL_MIN) r.desc f.desc = true)) ∧
    (∃ (k : Int) (rest : List Int) (f : Closed) (s : State), (s.dev.formQ 0 = k :: rest ∧ heldLine s.dev k = false ∧ viewPassed s.dev 0 k = true ∧ viewPassed s.dev 1 k = true) ∧ (s.dev.tb.unstamped.any (fun u => decide (u.1 ≤ k)) = false ∧ (s.dev.formQ 1).any (fun x => decide (x < k)) = false ∧ s.dev.fly.stepQ.any (fun x => decide (x < k)) = false) ∧ (viewOn (s.dev.asOf k) 0 = true ∧ viewOn (s.dev.asOf k) 1 = true) ∧ ((s.dev.seg 0).queue = [f] ∧ (s.dev.seg 1).queue = [] ∧ (s.dev.seg 0).waiting = [] ∧ (s.dev.seg 1).waiting = []) ∧ (f.closing + (s.dev.asOf k).get F.BSN_SIGHT.HOLD ≤ k ∧ s.dev.fly.upper.length < 32768 ∧ f.shared = false ∧ f.desc.flags < 128)) :=
  ⟨⟨0, 20, [], (basinState 0 20).but (fun d => d.setView 1 { due := [(20, 5, false)] }), by decide⟩,
   ⟨1, 20, [], (basinState 1 20).but (fun d => { d with tb := { d.tb with unstamped := [(20, 5)] } }), by decide⟩,
   ⟨20, [], (basinState 0 20).but (fun d => { d with fly := { d.fly with stepQ := [19] } }), by decide⟩,
   ⟨20, [], (basinState 1 20).but (fun d => { d with basin := { d.basin with formQ := withUnit d.basin.formQ 0 [20] } }), by decide⟩,
   ⟨1, onRegs [], by decide⟩,
   ⟨20, [], { closing := 18, desc := { view := 2, id := 4, first := 10, lines := 5, xMin := 3, xMax := 8, area := 30 } }, { closing := 19, desc := { view := 3, id := 7, first := 11, lines := 6, xMin := 4, xMax := 9, area := 30 } }, (basinState 1 20).but (fun d => (d.setSeg 2 { width := 8, waiting := [{ closing := 18, desc := { view := 2, id := 4, first := 10, lines := 5, xMin := 3, xMax := 8, area := 30 } }] }).setSeg 3 { width := 8, waiting := [{ closing := 19, desc := { view := 3, id := 7, first := 11, lines := 6, xMin := 4, xMax := 9, area := 30 } }] }), by decide⟩,
   ⟨30, [], { closing := 18, desc := { view := 0, id := 4, first := 10, lines := 5, xMin := 3, xMax := 8, area := 30 } }, (basinState 0 30).but (fun d => d.setSeg 0 { width := 8, queue := [{ closing := 18, desc := { view := 0, id := 4, first := 10, lines := 5, xMin := 3, xMax := 8, area := 30 } }] }), by decide⟩⟩

theorem witness_FlightMatcher :
    (∃  (s : State), (s.dev.fly.stepQ = [])) ∧
    (∃ (k : Int) (rest : List Int) (s : State), (s.dev.fly.stepQ = k :: rest ∧ s.dev.pr.serve = none) ∧ ((∀ w ∈ s.dev.fly.lower, k < w.s.form) ∧ (∀ u ∈ s.dev.fly.upper, k < u.exp) ∧ (∀ a ∈ s.dev.fly.restarts, k < a))) ∧
    (∃ (k : Int) (rest : List Int) (u : UpperEntry) (w : FlySight) (s : State), (s.dev.fly.stepQ = k :: rest ∧ s.dev.pr.serve = none ∧ s.dev.fly.restarts = [] ∧ s.dev.safe = false ∧ s.dev.resetting 4 = false) ∧ (s.dev.fly.lower = [w] ∧ w.s.form ≤ k ∧ s.dev.fly.upper = [u] ∧ k < u.exp ∧ candidate (s.dev.asOf k) u.f w = true) ∧ ((s.dev.asOf k).bit F.FLY_CFG.MODE = false ∧ (s.dev.asOf k).bit F.PAIR_CHAIN.EN = false)) ∧
    (∃ (k : Int) (rest : List Int) (w : FlySight) (s : State), (s.dev.fly.stepQ = k :: rest ∧ s.dev.pr.serve = none ∧ s.dev.fly.restarts = [] ∧ s.dev.safe = false ∧ s.dev.resetting 4 = false) ∧ (s.dev.fly.lower = [w] ∧ w.s.form ≤ k ∧ (∀ u ∈ s.dev.fly.upper, k < u.exp ∧ candidate (s.dev.asOf k) u.f w = false)) ∧ ((s.dev.asOf k).bit F.FLY_CFG.MODE = false ∧ (s.dev.asOf k).bit F.PAIR_CHAIN.EN = false)) ∧
    (∃ (k : Int) (rest : List Int) (u : UpperEntry) (s : State), (s.dev.fly.stepQ = k :: rest ∧ s.dev.pr.serve = none ∧ s.dev.fly.restarts = []) ∧ (s.dev.fly.lower = [] ∧ s.dev.fly.upper = [u] ∧ u.exp ≤ k ∧ (s.dev.asOf k).bit F.FLY_CFG.UPPER_ONLY_EN = false)) ∧
    (∃ (k : Int) (rest : List Int) (u : UpperEntry) (s : State), (s.dev.fly.stepQ = k :: rest ∧ s.dev.pr.serve = none ∧ s.dev.fly.restarts = [] ∧ s.dev.safe = false ∧ s.dev.resetting 4 = false) ∧ (s.dev.fly.lower = [] ∧ s.dev.fly.upper = [u] ∧ u.exp ≤ k ∧ splitOrCont u.f.s = false) ∧ ((s.dev.asOf k).bit F.FLY_CFG.UPPER_ONLY_EN = true ∧ (s.dev.asOf k).bit F.PAIR_CHAIN.EN = false)) ∧
    (∃ (k : Int) (rest : List Int) (w : FlySight) (s : State), (s.dev.fly.stepQ = k :: rest ∧ s.dev.pr.serve = none ∧ s.dev.fly.restarts = [] ∧ s.dev.safe = false ∧ s.dev.resetting 4 = false) ∧ (s.dev.fly.lower = [w] ∧ w.s.form ≤ k ∧ s.dev.fly.upper = []) ∧ ((s.dev.asOf k).bit F.FLY_CFG.MODE = true ∧ (s.dev.asOf k).bit F.PAIR_CHAIN.EN = false)) :=
  ⟨⟨onRegs [], by decide⟩,
   ⟨7, [8], (onRegs []).but (fun d => { d with fly := { d.fly with stepQ := [7, 8], upper := [{ exp := 9 }], lower := [{ s := { form := 8 } }] } }), by decide⟩,
   ⟨7, [], { f := { s := { id := 3, height := 0, area := 100, cx := 80 }, t := 1000000 }, exp := 90 }, { s := { id := 4, height := 1, form := 7, area := 100, cx := 80 }, t := 51000000 }, matcherState [{ f := { s := { id := 3, height := 0, area := 100, cx := 80 }, t := 1000000 }, exp := 90 }] [{ s := { id := 4, height := 1, form := 7, area := 100, cx := 80 }, t := 51000000 }], by decide⟩,
   ⟨7, [], { s := { id := 4, height := 1, form := 7, area := 100, cx := 80 }, t := 51000000 }, matcherState [{ f := { s := { id := 3, height := 0, area := 100, cx := 80 }, t := 1000000000 }, exp := 90 }] [{ s := { id := 4, height := 1, form := 7, area := 100, cx := 80 }, t := 51000000 }], by decide⟩,
   ⟨7, [], { f := { s := { id := 3 } }, exp := 6 }, (matcherState [{ f := { s := { id := 3 } }, exp := 6 }] []).but (fun d => d.wr R.FLY_CFG 0), by decide⟩,
   ⟨7, [], { f := { s := { id := 3 } }, exp := 6 }, (matcherState [{ f := { s := { id := 3 } }, exp := 6 }] []).but (fun d => d.set F.FLY_CFG.UPPER_ONLY_EN 1), by decide⟩,
   ⟨7, [], { s := { id := 4, height := 1, form := 7, area := 100, cx := 80 }, t := 51000000 }, (matcherState [] [{ s := { id := 4, height := 1, form := 7, area := 100, cx := 80 }, t := 51000000 }]).but (fun d => d.set F.FLY_CFG.MODE 1), by decide⟩⟩

theorem witness_CascadeSelection :
    (∃ (k : Nat) (o : JObj) (f : Forest) (s : State), (s.dev.jud.objs[k]? = some o ∧ o.forest = none ∧ forestResult s.dev o = some f)) ∧
    (∃ (k : Nat) (o : JObj) (s : State), (s.dev.jud.objs[k]? = some o ∧ o.forest = none)) ∧
    (∃ (pre : List JObj) (o : JObj) (rest : List JObj) (f : Forest) (s : State), (s.dev.jud.objs = pre ++ o :: rest ∧ (∀ x ∈ pre, x.forest.isSome = true ∧ x.sel ≠ .waiting) ∧ (∀ x ∈ rest.head?, x.forest = none) ∧ o.forest = none ∧ o.sel = .waiting ∧ forestResult s.dev o = some f) ∧ ((s.dev.asOf o.j).bit F.CASC_CFG.CLA_EN = false ∨ threshold (s.dev.asOf o.j) f.cls ≤ f.margin)) ∧
    (∃ (pre : List JObj) (o : JObj) (rest : List JObj) (f : Forest) (s : State), (s.dev.jud.objs = pre ++ o :: rest ∧ (∀ x ∈ pre, x.forest.isSome = true ∧ x.sel ≠ .waiting) ∧ (∀ x ∈ rest.head?, x.forest = none) ∧ o.forest = none ∧ o.sel = .waiting ∧ forestResult s.dev o = some f) ∧ ((s.dev.asOf o.j).bit F.CASC_CFG.CLA_EN = true ∧ f.margin < threshold (s.dev.asOf o.j) f.cls) ∧ (f.margin < rneDiv (threshold (s.dev.asOf o.j) f.cls * o.g) 256 ∧ usedIn s.dev o.cycle < min o.q (capFor s.dev o))) ∧
    (∃ (pre : List JObj) (o : JObj) (rest : List JObj) (f : Forest) (s : State), (s.dev.jud.objs = pre ++ o :: rest ∧ (∀ x ∈ pre, x.forest.isSome = true ∧ x.sel ≠ .waiting) ∧ (∀ x ∈ rest.head?, x.forest = none) ∧ o.forest = none ∧ o.sel = .waiting ∧ forestResult s.dev o = some f) ∧ ((s.dev.asOf o.j).bit F.CASC_CFG.CLA_EN = true ∧ f.margin < threshold (s.dev.asOf o.j) f.cls) ∧ (rneDiv (threshold (s.dev.asOf o.j) f.cls * o.g) 256 ≤ f.margin ∨ min o.q (capFor s.dev o) ≤ usedIn s.dev o.cycle)) :=
  ⟨⟨1, {}, { cls := 0, margin := 0 }, (onRegs []).but (fun d => d.setObjs [{ forest := some {} }, {}]), by decide⟩,
   ⟨0, {}, (onRegs []).but (fun d => d.setObjs [{}]), by decide⟩,
   ⟨[{ forest := some {}, sel := .forest }], {}, [{}], { cls := 0, margin := 0 }, (onRegs [(R.CASC_CFG, 0x80000000)]).but (fun d => d.setObjs [{ forest := some {}, sel := .forest }, {}, {}]), by decide⟩,
   ⟨[{ forest := some {}, sel := .forest }], { g := 256, q := 4, cap := 4 }, [{}], { cls := 0, margin := 0 }, (onRegs [(R.CASC_CFG, 0x80000000), (R.CASC_THRm 0, 5)]).but (fun d => d.setObjs [{ forest := some {}, sel := .forest }, { g := 256, q := 4, cap := 4 }, {}]), by decide⟩,
   ⟨[{ forest := some {}, sel := .forest }], { g := 256, q := 0, cap := 4 }, [{}], { cls := 0, margin := 0 }, (onRegs [(R.CASC_CFG, 0x80000000), (R.CASC_THRm 0, 5)]).but (fun d => d.setObjs [{ forest := some {}, sel := .forest }, { g := 256, q := 0, cap := 4 }, {}]), by decide⟩⟩

theorem witness_ClassifierAndPower :
    (∃ (o : JObj) (rest : List JObj) (s : State), (s.dev.jud.objs = o :: rest ∧ o.sel = .granted)) ∧
    (∃ (o : JObj) (rest : List JObj) (s : State), (s.dev.jud.objs = o :: rest ∧ o.sel = .granted)) ∧
    (∃ (ecc : Ecc) (s : State), (∀ o ∈ s.dev.jud.objs, o.sel ≠ .granted)) ∧
    (∃ (value : Word) (s : State), (value.toNat % 2 = 1 ∧ s.dev.get F.CLA_POWER.STATE < 2) ∧ (gateOpen s.dev (R.CLA_POWER) = true)) ∧
    (∃ (value : Word) (s : State), (value.toNat % 2 = 1 ∧ 2 ≤ s.dev.get F.CLA_POWER.STATE) ∧ (gateOpen s.dev (R.CLA_POWER) = true)) ∧
    (∃ (value : Word) (s : State), (value.toNat % 2 = 0) ∧ (gateOpen s.dev (R.CLA_POWER) = true)) ∧
    (∃  (s : State), (s.dev.get F.CLA_POWER.STATE = 3 ∧ (∀ o ∈ s.dev.jud.objs, o.sel ≠ .granted))) ∧
    (∃  (s : State), (s.dev.get F.CLA_POWER.STATE = 1)) :=
  ⟨⟨{ sel := .granted }, [{}], (onRegs []).but (fun d => d.setObjs [{ sel := .granted }, {}]), by decide⟩,
   ⟨{ sel := .granted }, [{}], (onRegs []).but (fun d => d.setObjs [{ sel := .granted }, {}]), by decide⟩,
   ⟨.corrected, (onRegs []).but (fun d => d.setObjs [{}]), by decide⟩,
   ⟨1, onRegs [], by decide⟩,
   ⟨0xFFFFFFFF, onRegs [(R.CLA_POWER, 0x200)], by decide⟩,
   ⟨0, onRegs [(R.CLA_POWER, 0x300)], by decide⟩,
   ⟨onRegs [(R.CLA_POWER, 0x300)], by decide⟩,
   ⟨onRegs [(R.CLA_POWER, 0x100)], by decide⟩⟩

theorem witness_DecisionRelease :
    (∃ (o : JObj) (rest : List JObj) (s : State), (s.dev.jud.objs = o :: rest ∧ (o.forest = none ∨ o.ready = false))) ∧
    (∃ (o : JObj) (rest : List JObj) (f : Forest) (a : Nat) (s : State), (s.dev.jud.objs = o :: rest ∧ o.forest = some f ∧ o.ready = true ∧ o.finalClass f < 8) ∧ ((decision (s.dev.asOf o.j) o f (transportNow s.dev)).late = false ∧ (decision (s.dev.asOf o.j) o f (transportNow s.dev)).action = a) ∧ ((a = 0 ∨ a = 3) ∧ (s.dev.asOf o.j).get F.CASC_CFG.REC_MODE = 0)) ∧
    (∃ (o : JObj) (rest : List JObj) (f : Forest) (t : Nat) (s : State), (s.dev.jud.objs = o :: rest ∧ o.forest = some f ∧ o.ready = true ∧ o.finalClass f < 8 ∧ f.stopped = false ∧ o.sel ≠ .stopped) ∧ (o.deadline (decide187 (s.dev.asOf o.j) o (o.finalClass f)).1 = some t ∧ stampBefore t (transportNow s.dev) = true) ∧ ((s.dev.asOf o.j).bit F.CASC_CFG.LATE_MODE = false ∧ (s.dev.asOf o.j).get F.CASC_CFG.LATE_ACTION = 0 ∧ (s.dev.asOf o.j).get F.CASC_CFG.REC_MODE = 0)) ∧
    (∃ (o : JObj) (rest : List JObj) (f : Forest) (r : RowFlight) (k : Nat) (s : State), (s.dev.jud.objs = o :: rest ∧ o.forest = some f ∧ o.ready = true ∧ o.rows = [r] ∧ r.row < 2) ∧ ((decision (s.dev.asOf o.j) o f (transportNow s.dev)).action = r.row + 1) ∧ ((s.dev.asOf o.j).bit F.FLY_CFG.MODE = false ∧ s.dev.ej.windows = [] ∧ s.dev.resetting 5 = false) ∧ (covering (s.dev.asOf o.j) r.row (ejectSpan (s.dev.asOf o.j) o.dec.s r.shift).1 (ejectSpan (s.dev.asOf o.j) o.dec.s r.shift).2 = [k]) ∧ ((∀ i : Fin 16, (s.dev.asOf o.j).bit (F.PAIR_FWDk_CFG.EN i) = false) ∧ (s.dev.asOf o.j).get F.CASC_CFG.REC_MODE = 0) ∧ (0 ≤ stampDiff (wrapN 64 ((r.tF : Int) - (s.dev.asOf o.j).get (F.EJ_Vc_OPEN.OPEN_LEAD k) - (1000 * (s.dev.asOf o.j).get (F.EJ_TIMEr.PRE r.row) : Nat))) (transportNow s.dev)) ∧ (0 < stampDiff (wrapN 64 ((r.tB : Int) - (s.dev.asOf o.j).get (F.EJ_Vc_CLOSE.CLOSE_LEAD k) + (1000 * (s.dev.asOf o.j).get (F.EJ_TIMEr.POST r.row) : Nat))) (transportNow s.dev))) :=
  ⟨⟨{}, [], (onRegs []).but (fun d => d.setObjs [{}]), by decide⟩,
   ⟨{ forest := some { cls := 3 }, sel := .forest }, [{}], { cls := 3 }, 0, (onRegs []).but (fun d => d.setObjs [{ forest := some { cls := 3 }, sel := .forest }, {}]), by decide⟩,
   ⟨{ forest := some { cls := 3 }, sel := .forest, rows := [{ deadline := 5 }] }, [], { cls := 3 }, 5, (onRegs []).but (fun d => { (d.setObjs [{ forest := some { cls := 3 }, sel := .forest, rows := [{ deadline := 5 }] }]) with tb := { tod := { ns := 100 } } }), by decide⟩,
   ⟨{ forest := some { cls := 3 }, sel := .forest, dec := { s := { xMin := 2, xMax := 6 } }, rows := [{ row := 0, tF := 5000000, tB := 6000000, deadline := 4000000 }] }, [], { cls := 3 }, { row := 0, tF := 5000000, tB := 6000000, deadline := 4000000 }, 0, (onRegs [(R.CASC_ACTk 3, 1), (R.CASC_AMAXk 3, 0xFFFFFFFF), (R.SPn_CFG 0, 0x80000000), (R.EJ_Vc_MAP 0, 0x800A0000), (R.EJ_Vc_OPEN 0, 1000)]).but (fun d => d.setObjs [{ forest := some { cls := 3 }, sel := .forest, dec := { s := { xMin := 2, xMax := 6 } }, rows := [{ row := 0, tF := 5000000, tB := 6000000, deadline := 4000000 }] }]), by decide +kernel⟩⟩

theorem witness_SpoutFrames :
    (∃ (p : Fin 4) (s : State), (s.dev.spState p = spRun ∧ (s.dev.spout p).next = none ∧ lnSends s.dev (.spTx p) = true)) ∧
    (∃ (p : Fin 4) (s : State), (s.dev.spState p = spRun ∧ (s.dev.spout p).next = none ∧ lnSends s.dev (.spTx p) = true)) ∧
    (∃ (p : Fin 4) (ok : Bool) (s : State), (s.dev.spState p ≠ spOff ∧ (s.dev.spout p).next = none ∧ lnSends s.dev (.spTx p) = false)) ∧
    (∃ (p : Fin 4) (s : State), (s.dev.spState p = spSafe ∧ (s.dev.spout p).next = none ∧ lnSends s.dev (.spTx p) = true)) ∧
    (∃ (p : Fin 4) (s : State), (s.dev.spState p = spSafe ∧ (s.dev.spout p).next = none ∧ lnSends s.dev (.spTx p) = true)) ∧
    (∃ (p : Fin 4) (ok : Bool) (s : State), (s.dev.spState p = spHold ∧ (s.dev.spout p).next = none)) ∧
    (∃ (p : Fin 4) (ok : Bool) (s : State), (s.dev.spState p = spOff ∧ (s.dev.spout p).next = none)) :=
  ⟨⟨1, spoutState, by decide⟩,
   ⟨1, spoutState, by decide⟩,
   ⟨1, true, onRegs [(R.SPn_STATUS 1, 1)], by decide⟩,
   ⟨3, onRegs [(R.SPn_STATUS 3, 3), (R.LN_STATUS (laneBase (.spTx 3)), 8)], by decide⟩,
   ⟨3, onRegs [(R.SPn_STATUS 3, 3), (R.LN_STATUS (laneBase (.spTx 3)), 8)], by decide⟩,
   ⟨3, true, onRegs [(R.SPn_STATUS 3, 2)], by decide⟩,
   ⟨3, true, onRegs [], by decide⟩⟩

theorem witness_SpoutReturnsAndLimits :
    (∃ (p : Fin 4) (bytes : List Byte) (t : Nat) (s : State), (s.dev.spState p ≠ spOff ∧ lnReceives s.dev (.spRx p) = true ∧ bytes.length = 28 ∧ crcOk bytes = true)) ∧
    (∃ (p : Fin 4) (bytes : List Byte) (framed : Bool) (t : Nat) (s : State), (s.dev.spState p ≠ spOff ∧ lnReceives s.dev (.spRx p) = true ∧ (framed = false ∨ bytes.length ≠ 28 ∨ crcOk bytes = false))) ∧
    (∃ (p : Fin 4) (bytes : List Byte) (framed : Bool) (t : Nat) (s : State), (s.dev.spState p = spOff ∨ lnReceives s.dev (.spRx p) = false)) ∧
    (∃ (p : Fin 4) (s : State), (s.dev.spState p ≠ spOff)) ∧
    (∃ (p : Fin 4) (s : State), (s.dev.spState p = spOff)) ∧
    (∃ (p : Fin 4) (k : Fin 4) (value : Word) (s : State), (s.dev.get (F.SPn_LOCK.LOCK p) = 0 ∧ (limitField p k).2.1 ≤ (limitField p k).1.of value ∧ (limitField p k).1.of value ≤ (limitField p k).2.2) ∧ (gateOpen s.dev (0x50100040 + 0x10000 * p + 4 * k) = true)) ∧
    (∃ (p : Fin 4) (k : Fin 4) (value : Word) (s : State), (s.dev.get (F.SPn_LOCK.LOCK p) = 1 ∧ (limitField p k).2.1 ≤ (limitField p k).1.of value ∧ (limitField p k).1.of value ≤ (limitField p k).2.2) ∧ (gateOpen s.dev (0x50100040 + 0x10000 * p + 4 * k) = true)) ∧
    (∃ (p : Fin 4) (k : Fin 4) (value : Word) (s : State), ((limitField p k).1.of value < (limitField p k).2.1 ∨ (limitField p k).2.2 < (limitField p k).1.of value) ∧ (gateOpen s.dev (0x50100040 + 0x10000 * p + 4 * k) = true)) :=
  ⟨⟨2, returnBytes, 900, (linked [(R.SPn_STATUS 2, 1)]).but (fun d => d.setSpout 2 { sentAt := [(7, 300)] }), by decide +kernel⟩,
   ⟨2, [1, 2], true, 900, linked [(R.SPn_STATUS 2, 1)], by decide⟩,
   ⟨2, [1, 2], true, 900, onRegs [], by decide⟩,
   ⟨2, onRegs [(R.SPn_STATUS 2, 0x101)], by decide⟩,
   ⟨2, onRegs [], by decide⟩,
   ⟨3, 3, 128, onRegs [], by decide⟩,
   ⟨3, 3, 128, onRegs [(R.SPn_LOCK 3, 1)], by decide⟩,
   ⟨3, 3, 129, onRegs [], by decide⟩⟩

theorem witness_AxisCounting :
    (∃ (n : Fin 4) (a : Bool) (b : Bool) (t : Nat) (held : Nat) (z : Option Bool) (s : State), (held ≤ (s.dev.asOfTime t).get (F.TRAn_CFG.FILT n))) ∧
    (∃ (n : Fin 4) (a : Bool) (b : Bool) (t : Nat) (held : Nat) (z : Option Bool) (y : Axis) (s : State), ((s.dev.asOfTime t).bit (F.TRAn_CFG.EN n) = false ∨ (s.dev.asOfTime t).bit (F.TRAn_CFG.TYPE n) = true) ∧ ((s.dev.asOfTime t).get (F.TRAn_CFG.FILT n) < held ∧ y = (axisCatch s.dev n t).axis n ∧ y.ctl.all (fun k => !notBefore s.dev k.t k.cycle (some (acceptedAt (s.dev.asOfTime t) n t))) = true ∧ s.dev.resetting 5 = false) ∧ (z.any (zSelected (s.dev.asOfTime t) n) = false ∨ s.dev.bit (F.TRAn_STATUS.REF_ARMED n) = false)) ∧
    (∃ (n : Fin 4) (a : Bool) (b : Bool) (t : Nat) (held : Nat) (z : Option Bool) (y : Axis) (s : State), ((s.dev.asOfTime t).bit (F.TRAn_CFG.EN n) = true ∧ (s.dev.asOfTime t).bit (F.TRAn_CFG.TYPE n) = false ∧ (s.dev.asOfTime t).get (F.TRAn_CFG.FILT n) < held) ∧ (y = (axisCatch s.dev n t).axis n ∧ y.a ≠ a ∧ y.b ≠ b ∧ y.ctl.all (fun k => !notBefore s.dev k.t k.cycle (some (acceptedAt (s.dev.asOfTime t) n t))) = true ∧ s.dev.resetting 5 = false) ∧ (z.any (zSelected (s.dev.asOfTime t) n) = false ∨ s.dev.bit (F.TRAn_STATUS.REF_ARMED n) = false)) ∧
    (∃ (n : Fin 4) (a : Bool) (b : Bool) (t : Nat) (held : Nat) (z : Option Bool) (y : Axis) (k : Int) (s : State), ((s.dev.asOfTime t).bit (F.TRAn_CFG.EN n) = true ∧ (s.dev.asOfTime t).bit (F.TRAn_CFG.TYPE n) = false ∧ (s.dev.asOfTime t).get (F.TRAn_CFG.FILT n) < held) ∧ (y = (axisCatch s.dev n t).axis n ∧ y.ctl.all (fun k => !notBefore s.dev k.t k.cycle (some (acceptedAt (s.dev.asOfTime t) n t))) = true ∧ s.dev.resetting 5 = false) ∧ (k = (if (s.dev.asOfTime t).bit (F.TRAn_CFG.REVERSE n) then -1 else 1) * quadStep y.a y.b a b ∧ k ≠ 0) ∧ (y.lastNeg ≠ some (decide (0 < k)) ∧ s.dev.bit (F.TRAn_STATUS.LIST_ARMED n) = false) ∧ (z.any (zSelected (s.dev.asOfTime t) n) = false ∨ s.dev.bit (F.TRAn_STATUS.REF_ARMED n) = false)) ∧
    (∃ (n : Fin 4) (a : Bool) (b : Bool) (t : Nat) (held : Nat) (z : Option Bool) (y : Axis) (k : Int) (s : State), ((s.dev.asOfTime t).bit (F.TRAn_CFG.EN n) = true ∧ (s.dev.asOfTime t).bit (F.TRAn_CFG.TYPE n) = false ∧ (s.dev.asOfTime t).get (F.TRAn_CFG.FILT n) < held) ∧ (y = (axisCatch s.dev n t).axis n ∧ y.ctl.all (fun k => !notBefore s.dev k.t k.cycle (some (acceptedAt (s.dev.asOfTime t) n t))) = true ∧ s.dev.resetting 5 = false) ∧ (k = (if (s.dev.asOfTime t).bit (F.TRAn_CFG.REVERSE n) then -1 else 1) * quadStep y.a y.b a b ∧ k ≠ 0) ∧ (y.lastNeg = some (decide (0 < k)) ∧ s.dev.bit (F.TRAn_STATUS.LIST_ARMED n) = false) ∧ (z.any (zSelected (s.dev.asOfTime t) n) = false ∨ s.dev.bit (F.TRAn_STATUS.REF_ARMED n) = false)) ∧
    (∃ (n : Fin 4) (g : Bool) (t : Nat) (s : State), (s.dev.resetting 5 = false)) ∧
    (∃ (n : Fin 4) (a : Bool) (b : Bool) (t : Nat) (held : Nat) (z : Option Bool) (s : State), ((s.dev.asOfTime t).get (F.TRAn_CFG.FILT n) < held ∧ s.dev.resetting 5 = true ∧ (axisCatch s.dev n t).axis n = s.dev.axis n)) ∧
    (∃ (n : Fin 4) (bits : Nat) (z : Option (Bool × Nat)) (fr : SsiFrame) (s : State), ((s.dev.axis n).frame = some fr ∧ fr.dataHigh = false) ∧ (z.all (fun e => !zSelected (s.dev.asOfTime fr.t) n e.1) = true ∨ s.dev.bit (F.TRAn_STATUS.REF_ARMED n) = false) ∧ ((s.dev.axis n).ctl.all (fun k => !notBefore s.dev k.t k.cycle (some ((fr.t + 4 * (s.dev.asOfTime fr.t).get (F.TRAn_SSI.DIV n) * (s.dev.asOfTime fr.t).get (F.TRAn_SSI.NBITS n)) % 2 ^ 64))) = true)) ∧
    (∃ (n : Fin 4) (bits : Nat) (z : Option (Bool × Nat)) (fr : SsiFrame) (s : State), ((s.dev.axis n).frame = some fr ∧ fr.dataHigh = true ∧ (s.dev.axis n).uPrev = none ∧ s.dev.bit (F.TRAn_STATUS.LIST_ARMED n) = false) ∧ ((s.dev.asOfTime fr.t).bit (F.TRAn_SSI.GRAY n) = false) ∧ (z.all (fun e => !zSelected (s.dev.asOfTime fr.t) n e.1) = true ∨ s.dev.bit (F.TRAn_STATUS.REF_ARMED n) = false) ∧ ((s.dev.axis n).ctl.all (fun k => !notBefore s.dev k.t k.cycle (some ((fr.t + 4 * (s.dev.asOfTime fr.t).get (F.TRAn_SSI.DIV n) * (s.dev.asOfTime fr.t).get (F.TRAn_SSI.NBITS n)) % 2 ^ 64))) = true)) ∧
    (∃ (n : Fin 4) (bits : Nat) (z : Option (Bool × Nat)) (fr : SsiFrame) (u : Nat) (s : State), ((s.dev.axis n).frame = some fr ∧ fr.dataHigh = true ∧ (s.dev.axis n).uPrev = some u) ∧ ((s.dev.asOfTime fr.t).bit (F.TRAn_SSI.GRAY n) = false ∧ (s.dev.asOfTime fr.t).get (F.TRAn_SSI_LAT.JUMP_MAX n) ≠ 0) ∧ ((s.dev.asOfTime fr.t).get (F.TRAn_SSI_LAT.JUMP_MAX n) < (sx ((s.dev.asOfTime fr.t).get (F.TRAn_SSI.NBITS n)) (wrapN ((s.dev.asOfTime fr.t).get (F.TRAn_SSI.NBITS n)) ((bits % 2 ^ (s.dev.asOfTime fr.t).get (F.TRAn_SSI.NBITS n) : Nat) - (u : Int)))).natAbs) ∧ (z.all (fun e => !zSelected (s.dev.asOfTime fr.t) n e.1) = true ∨ s.dev.bit (F.TRAn_STATUS.REF_ARMED n) = false) ∧ ((s.dev.axis n).ctl.all (fun k => !notBefore s.dev k.t k.cycle (some ((fr.t + 4 * (s.dev.asOfTime fr.t).get (F.TRAn_SSI.DIV n) * (s.dev.asOfTime fr.t).get (F.TRAn_SSI.NBITS n)) % 2 ^ 64))) = true)) ∧
    (∃ (n : Fin 4) (bits : Nat) (z : Option (Bool × Nat)) (fr : SsiFrame) (u : Nat) (t : Nat) (k : Int) (s : State), ((s.dev.axis n).frame = some fr ∧ fr.dataHigh = true ∧ (s.dev.axis n).uPrev = some u ∧ s.dev.bit (F.TRAn_STATUS.LIST_ARMED n) = false) ∧ ((s.dev.asOfTime fr.t).bit (F.TRAn_SSI.GRAY n) = false ∧ (s.dev.asOfTime fr.t).get (F.TRAn_SSI_LAT.JUMP_MAX n) = 0) ∧ (k = sx ((s.dev.asOfTime fr.t).get (F.TRAn_SSI.NBITS n)) (wrapN ((s.dev.asOfTime fr.t).get (F.TRAn_SSI.NBITS n)) ((bits % 2 ^ (s.dev.asOfTime fr.t).get (F.TRAn_SSI.NBITS n) : Nat) - (u : Int)))) ∧ (t = (fr.t + (s.dev.asOfTime fr.t).get (F.TRAn_SSI_LAT.LATCH_NS n)) % 2 ^ 64) ∧ (z.all (fun e => !zSelected (s.dev.asOfTime fr.t) n e.1) = true ∨ s.dev.bit (F.TRAn_STATUS.REF_ARMED n) = false) ∧ ((s.dev.axis n).ctl.all (fun k => !notBefore s.dev k.t k.cycle (some ((fr.t + 4 * (s.dev.asOfTime fr.t).get (F.TRAn_SSI.DIV n) * (s.dev.asOfTime fr.t).get (F.TRAn_SSI.NBITS n)) % 2 ^ 64))) = true)) :=
  ⟨⟨1, true, false, 5, 3, none, onRegs [(R.TRAn_CFG 1, 0xFFFFFFFF)], by decide⟩,
   ⟨1, true, false, 5, 300, none, {}, onRegs [], by decide⟩,
   ⟨1, true, true, 5, 300, none, {}, onRegs [(R.TRAn_CFG 1, 0x80000000)], by decide⟩,
   ⟨1, true, false, 5, 300, none, { n := 281474976710655 }, 1, (onRegs [(R.TRAn_CFG 1, 0x80000000)]).but (fun d => d.setAxis 1 { n := 281474976710655 }), by decide⟩,
   ⟨1, true, false, 5, 300, none, { n := 40, lastNeg := some true }, 1, (onRegs [(R.TRAn_CFG 1, 0x80000000)]).but (fun d => d.setAxis 1 { n := 40, lastNeg := some true }), by decide⟩,
   ⟨0, true, 40, onRegs [(R.TRAn_CFG 0, 0xC0000000)], by decide⟩,
   ⟨1, true, false, 5, 300, some true, onRegs [(R.FLT_STATUS, 0x001F0000)], by decide⟩,
   ⟨2, 77, none, { t := 9 }, (onRegs []).but (fun d => d.setAxis 2 { frame := some { t := 9 } }), by decide⟩,
   ⟨2, 77, none, { t := 9, dataHigh := true }, (onRegs [(R.TRAn_SSI 2, 0x18000000)]).but (fun d => d.setAxis 2 { frame := some { t := 9, dataHigh := true } }), by decide⟩,
   ⟨2, 77, none, { t := 9, dataHigh := true }, 10, (onRegs [(R.TRAn_SSI 2, 0x18000000), (R.TRAn_SSI_LAT 2, 0x00200020)]).but (fun d => d.setAxis 2 { frame := some { t := 9, dataHigh := true }, uPrev := some 10 }), by decide⟩,
   ⟨2, 5, none, { t := 9, dataHigh := true }, 10, 41, -5, (onRegs [(R.TRAn_SSI 2, 0x18000000), (R.TRAn_SSI_LAT 2, 0x20)]).but (fun d => d.setAxis 2 { n := 3, frame := some { t := 9, dataHigh := true }, uPrev := some 10 }), by decide⟩⟩

theorem witness_AxisLatchesAndControl :
    (∃ (n : Fin 4) (rising : Bool) (t : Nat) (held : Nat) (y : Axis) (s : State), (zSelected (s.dev.asOfTime t) n rising = true ∧ (s.dev.asOfTime t).get (F.TRAn_CFG.FILT n) < held) ∧ (y = (axisCatch s.dev n t).axis n ∧ y.z ≠ some rising ∧ y.ctl.all (fun k => !notBefore s.dev k.t k.cycle (some (acceptedAt (s.dev.asOfTime t) n t))) = true ∧ s.dev.resetting 5 = false) ∧ (s.dev.bit (F.TRAn_STATUS.REF_ARMED n) = true ∧ (s.dev.asOfTime t).bit (F.TRAn_REF.HOME n) = false)) ∧
    (∃ (n : Fin 4) (rising : Bool) (t : Nat) (held : Nat) (y : Axis) (s : State), (zSelected (s.dev.asOfTime t) n rising = true ∧ (s.dev.asOfTime t).get (F.TRAn_CFG.FILT n) < held) ∧ (y = (axisCatch s.dev n t).axis n ∧ y.z ≠ some rising ∧ y.ctl.all (fun k => !notBefore s.dev k.t k.cycle (some (acceptedAt (s.dev.asOfTime t) n t))) = true ∧ s.dev.resetting 5 = false) ∧ (s.dev.bit (F.TRAn_STATUS.REF_ARMED n) = true ∧ (s.dev.asOfTime t).bit (F.TRAn_REF.HOME n) = true) ∧ (sourceAxis (s.dev.asOfTime t) n = false ∧ s.dev.bit (F.TRAn_STATUS.LIST_ARMED n) = false)) ∧
    (∃ (n : Fin 4) (rising : Bool) (t : Nat) (held : Nat) (s : State), ((zSelected (s.dev.asOfTime t) n rising = false ∨ ((axisCatch s.dev n t).axis n).z = some rising) ∧ (s.dev.asOfTime t).get (F.TRAn_CFG.FILT n) < held)) ∧
    (∃ (n : Fin 4) (rising : Bool) (t : Nat) (held : Nat) (s : State), (held ≤ (s.dev.asOfTime t).get (F.TRAn_CFG.FILT n))) ∧
    (∃ (n : Fin 4) (a : Bool) (b : Bool) (t : Nat) (held : Nat) (z : Option Bool) (y : Axis) (s : State), ((s.dev.asOfTime t).bit (F.TRAn_CFG.EN n) = true ∧ (s.dev.asOfTime t).bit (F.TRAn_CFG.TYPE n) = false ∧ (s.dev.asOfTime t).get (F.TRAn_CFG.FILT n) < held) ∧ (y = (axisCatch s.dev n t).axis n ∧ y.ctl.all (fun k => !notBefore s.dev k.t k.cycle (some (acceptedAt (s.dev.asOfTime t) n t))) = true ∧ s.dev.resetting 5 = false) ∧ ((s.dev.asOfTime t).bit (F.TRAn_CFG.REVERSE n) = false ∧ quadStep y.a y.b a b = 1 ∧ s.dev.bit (F.TRAn_STATUS.LIST_ARMED n) = false) ∧ (z.any (fun l => zSelected (s.dev.asOfTime t) n l && y.z != some l) = true ∧ s.dev.bit (F.TRAn_STATUS.REF_ARMED n) = true ∧ (s.dev.asOfTime t).bit (F.TRAn_REF.HOME n) = false)) ∧
    (∃ (n : Fin 4) (a : Bool) (b : Bool) (t : Nat) (held : Nat) (z : Option Bool) (y : Axis) (s : State), ((s.dev.asOfTime t).bit (F.TRAn_CFG.EN n) = true ∧ (s.dev.asOfTime t).bit (F.TRAn_CFG.TYPE n) = false ∧ (s.dev.asOfTime t).get (F.TRAn_CFG.FILT n) < held) ∧ (y = (axisCatch s.dev n t).axis n ∧ y.listOld = [] ∧ y.ctl.all (fun k => !notBefore s.dev k.t k.cycle (some (acceptedAt (s.dev.asOfTime t) n t))) = true ∧ s.dev.resetting 5 = false) ∧ (z.any (zSelected (s.dev.asOfTime t) n) = false ∨ s.dev.bit (F.TRAn_STATUS.REF_ARMED n) = false) ∧ ((s.dev.asOfTime t).bit (F.TRAn_CFG.REVERSE n) = false ∧ quadStep y.a y.b a b = 1) ∧ (s.dev.bit (F.TRAn_STATUS.LIST_ARMED n) = true ∧ s.dev.get (F.TRAn_LIST_CFG.LEN_M1 n) = 0 ∧ s.dev.bit (F.TRAn_LIST_CFG.WRAP n) = false ∧ s.dev.bit (F.TRAn_LIST_CFG.DIR n) = false) ∧ (s.dev.get (F.TRAn_STATUS.LIST_PTR n) = s.dev.get (F.TRAn_LIST_CFG.START n)) ∧ (s.dev.num (listAddr n (s.dev.get (F.TRAn_LIST_CFG.START n))) 6 = wrapN 48 (y.n + 1 : Nat) ∧ s.dev.evt.inflight = [] ∧ y.n < 2 ^ 48)) ∧
    (∃ (n : Fin 4) (s : State), ((s.dev.axis n).qerrWin = none)) ∧
    (∃ (n : Fin 4) (k : Nat) (m : Nat) (s : State), ((s.dev.axis n).qerrWin = some k ∧ m = (s.dev.asOfTime ((k + 1) * 1000000000)).get (F.TRAn_LIMITS.QERR_MAX n))) ∧
    (∃ (n : Fin 4) (u : Nat) (t : Nat) (y : Axis) (s : State), (u = ((s.dev.axis n).obs.tu + 1000 * (s.dev.asOfTime s.dev.nowNs).get (F.TRAn_LIMITS.STILL n)) % 2 ^ 64) ∧ (t = ((s.dev.axis n).obs.tu + 1000 * (s.dev.asOfTime u).get (F.TRAn_LIMITS.STILL n)) % 2 ^ 64 ∧ y = (axisCatch s.dev n t).axis n) ∧ ((s.dev.asOfTime u).bit (F.TRAn_CFG.EN n) = true ∧ (s.dev.asOfTime u).get (F.TRAn_LIMITS.STILL n) ≠ 0 ∧ y.obs.started = true ∧ y.initAt.all (fun a => !stampBefore t a) = true ∧ s.dev.resetting 5 = false)) ∧
    (∃ (n : Fin 4) (s : State), (gateOpen s.dev (R.TRAn_CTRL n) = true)) ∧
    (∃ (n : Fin 4) (s : State), (gateOpen s.dev (R.TRAn_CTRL n) = true)) ∧
    (∃ (n : Fin 4) (s : State), (gateOpen s.dev (R.TRAn_CTRL n) = true)) ∧
    (∃ (n : Fin 4) (s : State), (gateOpen s.dev (R.TRAn_CTRL n) = true)) ∧
    (∃ (n : Fin 4) (rising : Bool) (t : Nat) (held : Nat) (y : Axis) (k : AxisCtl) (s : State), (zSelected (s.dev.asOfTime t) n rising = true ∧ (s.dev.asOfTime t).get (F.TRAn_CFG.FILT n) < held) ∧ (y = (axisCatch s.dev n t).axis n ∧ y.z ≠ some rising ∧ s.dev.resetting 5 = false) ∧ (y.ctl = some k ∧ notBefore s.dev k.t k.cycle (some (acceptedAt (s.dev.asOfTime t) n t)) = true) ∧ (k.refArmed = false ∧ k.refArm = true ∧ k.list = none ∧ k.clr = false)) ∧
    (∃ (n : Fin 4) (s : State), (gateOpen s.dev (R.TRAn_CTRL n) = true)) ∧
    (∃ (n : Fin 4) (s : State), (gateOpen s.dev (R.TRAn_COUNT_LO n) = true)) ∧
    (∃ (n : Fin 4) (s : State), (gateOpen s.dev (R.TRAn_COUNT_LO n) = true)) :=
  ⟨⟨3, false, 4294967301, 1, { n := 4294967299 }, (onRegs [(R.TRAn_CFG 3, 0x80000000), (R.TRAn_STATUS 3, 0x40000000), (R.TRAn_REF 3, 2)]).but (fun d => d.setAxis 3 { n := 4294967299 }), by decide⟩,
   ⟨3, true, 5, 1, { n := 17 }, (onRegs [(R.TRAn_CFG 3, 0x80000000), (R.TRAn_STATUS 3, 0xC0000000), (R.TRAn_REF 3, 0x80000001), (R.TRAn_REF_VAL 3, 900)]).but (fun d => d.setAxis 3 { n := 17 }), by decide⟩,
   ⟨3, true, 5, 40, onRegs [], by decide⟩,
   ⟨3, true, 5, 3, onRegs [(R.TRAn_CFG 3, 0xFFFFFFFF)], by decide⟩,
   ⟨3, true, false, 5, 1, some true, { n := 17 }, (onRegs [(R.TRAn_CFG 3, 0x80000000), (R.TRAn_STATUS 3, 0x40000000), (R.TRAn_REF 3, 1)]).but (fun d => d.setAxis 3 { n := 17 }), by decide⟩,
   ⟨1, true, false, 5, 1, none, { n := 40 }, (onRegs [(R.TRAn_CFG 1, 0x80000000), (R.TRAn_STATUS 1, 0x20000003), (R.TRAn_LIST_CFG 1, 3)]).but (fun d => (d.setAxis 1 { n := 40 }).setByte (listAddr 1 3) 41), by decide⟩,
   ⟨0, (onRegs []).but (fun d => d.setAxis 0 { n := 3 }), by decide⟩,
   ⟨0, 2, 255, (onRegs [(R.TRAn_LIMITS 0, 0xFFFFFFFF)]).but (fun d => d.setAxis 0 { qerrs := 300, qerrWin := some 2 }), by decide⟩,
   ⟨1, 5000, 5000, { n := 20, obs := { started := true } }, (onRegs [(R.TRAn_CFG 1, 0x80000000), (R.TRAn_LIMITS 1, 5)]).but (fun d => d.setAxis 1 { n := 20, obs := { started := true } }), by decide⟩,
   ⟨2, onRegs [], by decide⟩,
   ⟨2, onRegs [(R.TRAn_LIST_CFG 2, 0x00030FFF)], by decide⟩,
   ⟨2, onRegs [(R.TRAn_STATUS 2, 0xFFFFFFFF)], by decide⟩,
   ⟨2, onRegs [(R.TRAn_STATUS 2, 0xFFFFFFFF)], by decide⟩,
   ⟨3, true, 0, 1, { n := 17, ctl := some { refArm := true } }, { refArm := true }, (onRegs [(R.TRAn_CFG 3, 0x80000000), (R.TRAn_STATUS 3, 0x40000000), (R.TRAn_REF 3, 1)]).but (fun d => d.setAxis 3 { n := 17, ctl := some { refArm := true } }), by decide⟩,
   ⟨2, onRegs [(R.TRAn_STATUS 2, 0xFFFFFFFF)], by decide⟩,
   ⟨2, (onRegs []).but (fun d => d.setAxis 2 { n := 4294967299 }), by decide⟩,
   ⟨2, (onRegs []).but (fun d => d.setAxis 2 { obs := { x0 := -4, x1 := -1, x2 := 5, tu := 77 } }), by decide⟩⟩

theorem witness_MonitorChain :
    (∃ (pins : Half) (t : Nat) (s : State), ((s.dev.asOfTime t).bit F.MON_CTRL.EN = false)) ∧
    (∃ (pins : Half) (t : Nat) (s : State), ((s.dev.asOfTime t).bit F.MON_CTRL.EN = true)) ∧
    (∃ (k : Fin 32) (o : MonOut) (rest : List MonOut) (s : State), ((s.dev.monChan k).outs = o :: rest ∧ (s.dev.monChan k).sig = none)) ∧
    (∃ (k : Fin 32) (o : MonOut) (rest : List MonOut) (g : Signature) (s : State), ((s.dev.monChan k).outs = o :: rest ∧ (s.dev.monChan k).sig = some g) ∧ (0 ≤ stampDiff o.t g.tCmd ∧ 1000 * ((s.dev.asOfTime o.made).get (F.MON_Cc_SIG.WIN k) : Int) < stampDiff o.t g.tCmd)) ∧
    (∃ (p : Fin 4) (base : Nat) (s : State), (base = wrapN 64 ((((s.dev.mon.lastSlot[p] + 128) % 2 ^ 64 : Nat) : Int) - s.dev.get (F.SPn_DELAY.DELAY p) - 128)) ∧ ((s.dev.asOfTime ((base + 120) % 2 ^ 64)).bit F.MON_CTRL.EN = true) ∧ (∀ k : Fin 32, monPortOf s.dev k ≠ some p.val ∧ ∀ b : Fin 16, monOnPort (s.dev.asOfTime ((base + 8 * b) % 2 ^ 64)) k p = false)) ∧
    (∃  (s : State), ((s.dev.asOfTime s.dev.nowNs).bit F.MON_CTRL.EN = true)) ∧
    (∃ (k : Fin 32) (s : State), (gateOpen s.dev (R.MON_Cc_OUT k) = true)) :=
  ⟨⟨0xFFFF, 5, onRegs [(R.MON_Cc_STATUS 3, 0x80000000)], by decide⟩,
   ⟨0xFFFF, 500, (onRegs [(R.MON_CTRL, 1), (R.MON_Cc_CFG 3, 0x80000003), (R.MON_Cc_DEC 3, 1)]).but (fun d => { d with mon := { d.mon with clk := 7, lastClk := 400 } }), by decide⟩,
   ⟨31, { y := -5, t := 9, settled := true, gap := true }, [], (onRegs [(R.MON_Cc_LIMIT_LO 31, 0xFFFFFFFE)]).but (fun d => d.setMonChan 31 { outs := [{ y := -5, t := 9, settled := true, gap := true }] }), by decide⟩,
   ⟨31, { y := 5, t := 9000, settled := true }, [], { tCmd := 10 }, (onRegs [(R.MON_Cc_SIG 31, 5)]).but (fun d => d.setMonChan 31 { outs := [{ y := 5, t := 9000, settled := true }], sig := some { tCmd := 10 } }), by decide⟩,
   ⟨2, 0, onRegs [(R.MON_CTRL, 1)], by decide⟩,
   ⟨onRegs [(R.MON_CTRL, 1), (R.MON_Cc_CFG 3, 0x80000003), (R.MON_Cc_STATUS 3, 0x80000000)], by decide⟩,
   ⟨0, (onRegs []).but (fun d => d.setMonChan 0 { outTime := 4294967301 }), by decide⟩⟩

theorem witness_TimeOfDayCommands :
    (∃ (value : Word) (s : State), ((sx 32 value.toNat).natAbs ≤ 8589935) ∧ (gateOpen s.dev (R.TB_ADJ) = true)) ∧
    (∃ (value : Word) (s : State), (8589935 < (sx 32 value.toNat).natAbs) ∧ (gateOpen s.dev (R.TB_ADJ) = true)) ∧
    (∃ (value : Word) (s : State), (gateOpen s.dev (R.TB_SLEW) = true)) ∧
    (∃ (value : Word) (s : State), (F.TB_CTRL.STEP.of value = 1 ∧ s.dev.get F.TB_STEP_NS.NS < 1000000000 ∧ s.dev.lining = false) ∧ (gateOpen s.dev (R.TB_CTRL) = true)) ∧
    (∃ (value : Word) (s : State), (F.TB_CTRL.STEP.of value = 1 ∧ (1000000000 ≤ s.dev.get F.TB_STEP_NS.NS ∨ s.dev.lining = true)) ∧ (gateOpen s.dev (R.TB_CTRL) = true)) ∧
    (∃ (value : Word) (s : State), (F.TB_CTRL.STEP.of value = 0) ∧ (gateOpen s.dev (R.TB_CTRL) = true)) ∧
    (∃  (s : State), (gateOpen s.dev (R.TB_TOD_FRAC) = true)) ∧
    (∃ (k : TsqEntry) (rest : List TsqEntry) (s : State), (s.dev.tb.tsq = k :: rest ∧ k.msgType < 16 ∧ k.domain < 256 ∧ k.seqId < 65536) ∧ (gateOpen s.dev (R.TB_TSQ_INFO) = true)) ∧
    (∃  (s : State), (s.dev.tb.tsq = []) ∧ (gateOpen s.dev (R.TB_TSQ_INFO) = true)) ∧
    (∃  (s : State), (s.dev.tb.slew = 0 ∧ s.dev.rd R.TB_ADJ = 0 ∧ s.dev.tb.tod = { sec := 3, ns := 999999999, frac := 0 } ∧ s.dev.get F.TB_PPS.OUT_EN = 1)) ∧
    (∃ (rising : Bool) (t : Nat) (held : Nat) (s : State), (4 ≤ held ∧ F.TB_PPS.IN_EN.of s.dev.tb.ppsLive = 1 ∧ (rising = true ↔ F.TB_PPS.IN_FALL.of s.dev.tb.ppsLive = 0))) ∧
    (∃ (rising : Bool) (t : Nat) (held : Nat) (s : State), (held < 4 ∨ F.TB_PPS.IN_EN.of s.dev.tb.ppsLive = 0 ∨ ¬ (rising = true ↔ F.TB_PPS.IN_FALL.of s.dev.tb.ppsLive = 0))) :=
  ⟨⟨0xFFFFFFF6, onRegs [], by decide⟩,
   ⟨0x80000000, onRegs [], by decide⟩,
   ⟨0xFFFFFFF6, onRegs [], by decide⟩,
   ⟨0x00640001, onRegs [(R.TB_STEP_NS, 999999999), (R.TB_STEP_SEC_HI, 3)], by decide⟩,
   ⟨0x00640001, onRegs [(R.TB_STEP_NS, 1000000000)], by decide⟩,
   ⟨0x00640000, onRegs [], by decide⟩,
   ⟨(onRegs []).but (fun d => { d with tb := { d.tb with tod := { sec := 4294967296, ns := 7, frac := 9 } } }), by decide⟩,
   ⟨{ tx := true, msgType := 3, domain := 4, seqId := 900, frac := 17, ns := 5000000000 }, [], (onRegs []).but (fun d => { d with tb := { d.tb with tsq := [{ tx := true, msgType := 3, domain := 4, seqId := 900, frac := 17, ns := 5000000000 }] } }), by decide⟩,
   ⟨onRegs [(R.TB_TSQ_INFO, 0xFFFFFFFF)], by decide⟩,
   ⟨(onRegs [(R.TB_PPS, 0x80000005)]).but (fun d => { d with tb := { d.tb with tod := { sec := 3, ns := 999999999, frac := 0 } } }), by decide⟩,
   ⟨false, 5000000000, 4, (onRegs []).but (fun d => { d with tb := { d.tb with ppsLive := 0x60000000 } }), by decide⟩,
   ⟨false, 5, 3, onRegs [], by decide⟩⟩

theorem witness_LineTriggerAndStamps :
    (∃  (s : State), (s.dev.lining = false)) ∧
    (∃  (s : State), (s.dev.lining = true ∧ stopsBefore s.dev s.dev.tb.next = false) ∧ ((s.dev.asOf s.dev.tb.next).bit F.TB_LINE_CFG.BELT = false)) ∧
    (∃  (s : State), (s.dev.lining = true ∧ stopsBefore s.dev s.dev.tb.next = false) ∧ ((s.dev.asOf s.dev.tb.next).bit F.TB_LINE_CFG.BELT = true ∧ stampOf s.dev s.dev.tb.next = none)) ∧
    (∃ (k : Int) (t : Nat) (rest : List (Int × Nat)) (o : Observer) (s : State), (s.dev.tb.unstamped = (k, t) :: rest ∧ ownStamps s.dev = true ∧ privateUp s.dev = false ∧ s.dev.slu.old = none ∧ s.dev.sluState ≠ sluArmed) ∧ (obsKnown s.dev (s.dev.get F.TB_LINE_CFG.AXIS) t = some o)) ∧
    (∃ (k : Int) (t : Nat) (rest : List (Int × Nat)) (s : State), (s.dev.tb.unstamped = (k, t) :: rest ∧ ownStamps s.dev = true ∧ privateUp s.dev = false ∧ s.dev.slu.old = none ∧ s.dev.sluState ≠ sluArmed) ∧ (obsKnown s.dev (s.dev.get F.TB_LINE_CFG.AXIS) t = none)) :=
  ⟨⟨onRegs [], by decide⟩,
   ⟨(onRegs [(R.TB_STATUS, 0x80000000), (R.TB_PERIOD_NS, 10000), (R.TB_LINE_CFG, 0x80080000)]).but (fun d => { d with tb := { d.tb with next := 4294967296, anchor := (4294967290, 1000) } }), by decide⟩,
   ⟨(onRegs [(R.TB_STATUS, 0x80000000), (R.TB_PERIOD_NS, 10000), (R.TB_LINE_CFG, 0xC0080000)]).but (fun d => { d with tb := { d.tb with next := 12, anchor := (10, 1000) } }), by decide⟩,
   ⟨12, 5000, [], { x0 := 65536, x1 := 1000000000, tu := 4000, started := true }, (onRegs [(R.TB_LINE_CFG, 0xC1080000)]).but (fun d => ({ d with tb := { d.tb with unstamped := [(12, 5000)] } }).setAxis 1 { obs := { x0 := 65536, x1 := 1000000000, tu := 4000, started := true } }), by decide⟩,
   ⟨12, 5000, [], (onRegs [(R.TB_LINE_CFG, 0xC1080000)]).but (fun d => { d with tb := { d.tb with unstamped := [(12, 5000)] } }), by decide⟩⟩

theorem witness_TimedInputOutput :
    (∃ (p : Fin 16) (value : Word) (s : State), ((F.TIO_Pn_CTRL.STOP p).of value = 0 ∧ (F.TIO_Pn_CTRL.ARM p).of value = 1 ∧ tioArmed s.dev p = false ∧ tioForced s.dev = false) ∧ (tioMode s.dev p = tioSingle ∧ tioWidth s.dev p ≠ 0 ∧ stampBefore (tioStartAt s.dev p) s.dev.nowNs = false) ∧ (gateOpen s.dev (R.TIO_Pn_CTRL p) = true)) ∧
    (∃ (p : Fin 16) (value : Word) (s : State), ((F.TIO_Pn_CTRL.STOP p).of value = 0 ∧ (F.TIO_Pn_CTRL.ARM p).of value = 1 ∧ tioArmed s.dev p = false ∧ tioWidth s.dev p = 0) ∧ (gateOpen s.dev (R.TIO_Pn_CTRL p) = true)) ∧
    (∃ (p : Fin 16) (value : Word) (s : State), ((F.TIO_Pn_CTRL.STOP p).of value = 0 ∧ ((F.TIO_Pn_CTRL.ARM p).of value = 0 ∨ tioArmed s.dev p = true)) ∧ (gateOpen s.dev (R.TIO_Pn_CTRL p) = true)) ∧
    (∃ (p : Fin 16) (value : Word) (s : State), ((F.TIO_Pn_CTRL.STOP p).of value = 1 ∧ tioArmed s.dev p = true) ∧ (gateOpen s.dev (R.TIO_Pn_CTRL p) = true)) ∧
    (∃ (p : Fin 16) (s : State), (tioArmed s.dev p = true) ∧ (gateOpen s.dev (R.TIO_Pn_CTRL p) = true)) ∧
    (∃ (p : Fin 16) (a : Nat) (b : Nat) (s : State), (tioArmed s.dev p = true ∧ tioMode s.dev p ≠ tioPeriodic ∧ (s.dev.tio p).line = none ∧ (s.dev.tio p).pulses = [(a, b)])) ∧
    (∃ (p : Fin 16) (b : Nat) (s : State), (tioMode s.dev p = tioSingle ∧ (s.dev.tio p).pulses = [] ∧ (s.dev.tio p).endAt = some b)) ∧
    (∃ (p : Fin 16) (rising : Bool) (t : Nat) (held : Nat) (s : State), (s.dev.get (F.TIO_Pn_CFG.FILT p) < held ∧ s.dev.resetting 5 = false) ∧ (tioMode s.dev p = tioCapture ∧ bitAt (s.dev.get (F.TIO_Pn_CFG.EDGE p)) (if xor rising (s.dev.bit (F.TIO_Pn_CFG.INV p)) then 0 else 1) = true) ∧ ((s.dev.tio p).fifo.length < 16)) ∧
    (∃ (p : Fin 16) (rising : Bool) (t : Nat) (held : Nat) (s : State), (s.dev.get (F.TIO_Pn_CFG.FILT p) < held ∧ s.dev.resetting 5 = false) ∧ (tioMode s.dev p = tioCapture ∧ bitAt (s.dev.get (F.TIO_Pn_CFG.EDGE p)) (if xor rising (s.dev.bit (F.TIO_Pn_CFG.INV p)) then 0 else 1) = true) ∧ (16 ≤ (s.dev.tio p).fifo.length)) ∧
    (∃ (p : Fin 16) (rising : Bool) (t : Nat) (held : Nat) (s : State), (held ≤ s.dev.get (F.TIO_Pn_CFG.FILT p) ∨ tioMode s.dev p ≠ tioCapture ∨ s.dev.resetting 5 = true)) ∧
    (∃ (p : Fin 16) (t : Nat) (rise : Bool) (rest : List (Nat × Bool)) (s : State), ((s.dev.tio p).fifo = (t, rise) :: rest ∧ rest.length < 32) ∧ (gateOpen s.dev (R.TIO_Pn_CAP_LO p) = true)) ∧
    (∃ (p : Fin 16) (k : Fin 8) (value : Word) (s : State), (tioArmed s.dev p = true) ∧ (gateOpen s.dev (R.TIO_Pn_CFG p + 4 * k) = true)) ∧
    (∃ (p : Fin 16) (k : Fin 8) (value : Word) (s : State), (tioArmed s.dev p = false ∧ 0 < k.val) ∧ (gateOpen s.dev (R.TIO_Pn_CFG p + 4 * k) = true)) ∧
    (∃ (p : Fin 16) (value : Word) (s : State), (tioArmed s.dev p = false) ∧ (gateOpen s.dev (R.TIO_Pn_CFG p + 4 * 0) = true)) :=
  ⟨⟨15, 1, onRegs [(R.TIO_Pn_CFG 15, 0x00200000), (R.TIO_Pn_WIDTH 15, 100), (R.TIO_Pn_START_LO 15, 5000)], by decide⟩,
   ⟨15, 1, onRegs [(R.TIO_Pn_WIDTH 15, 0)], by decide⟩,
   ⟨15, 1, onRegs [(R.TIO_Pn_STATUS 15, 0x80000000)], by decide⟩,
   ⟨15, 3, onRegs [(R.TIO_Pn_STATUS 15, 0x80000000)], by decide⟩,
   ⟨15, (onRegs [(R.TIO_Pn_STATUS 15, 0xC0000000)]).but (fun d => d.setTio 15 { pulses := [(5, 9)], endAt := some 7 }), by decide⟩,
   ⟨15, 5000, 9000, (onRegs [(R.TIO_Pn_STATUS 15, 0x80000000)]).but (fun d => d.setTio 15 { pulses := [(5000, 9000)], endAt := some 7000 }), by decide⟩,
   ⟨15, 9000, (onRegs [(R.TIO_Pn_STATUS 15, 0xC0000000), (R.TIO_Pn_CFG 15, 0x00200000)]).but (fun d => d.setTio 15 { endAt := some 9000 }), by decide⟩,
   ⟨4, true, 77, 400, onRegs [(R.TIO_Pn_CFG 4, 0x00130000)], by decide⟩,
   ⟨4, true, 77, 400, (onRegs [(R.TIO_Pn_CFG 4, 0x00130000)]).but (fun d => d.setTio 4 { fifo := List.replicate 16 (3, true) }), by decide⟩,
   ⟨4, true, 77, 400, onRegs [], by decide⟩,
   ⟨4, 5000000000, true, [], (onRegs []).but (fun d => d.setTio 4 { fifo := [(5000000000, true)] }), by decide⟩,
   ⟨4, 3, 77, onRegs [(R.TIO_Pn_STATUS 4, 0x80000000)], by decide⟩,
   ⟨4, 3, 77, onRegs [], by decide⟩,
   ⟨4, 0x40700000, onRegs [(R.TIO_LOCK, 1)], by decide⟩⟩

theorem witness_UnassignedAddressIsABusError :
    (∃ (a : Access) (value : DWord) (hwSet : Word) (s : State), (a.kind ≠ .conditional ∧ a.kind ≠ .fenceI ∧ a.kind ≠ .csr) ∧ (areaAt s.dev a.addr = none ∧ misaligned (masterId a.master) a.addr a.width = false ∧ s.dev.boot.phase ≠ .reset) ∧ (coreStops a true s.dev = none)) ∧
    (∃ (a : Access) (n : Fin 4) (value : DWord) (s : State), (a.master = .core n ∧ a.kind = .conditional ∧ s.dev.resv.contains (n.val, a.addr / 64) = true) ∧ (areaAt s.dev a.addr = none ∧ misaligned n a.addr a.width = false ∧ s.dev.boot.phase ≠ .reset) ∧ (coreStops a true s.dev = none)) ∧
    (∃ (a : Access) (k : Nat) (s : State), (a.kind ≠ .fenceI ∧ a.kind ≠ .csr) ∧ (areaAt s.dev a.addr = none ∧ misaligned (masterId a.master) a.addr a.width = false ∧ s.dev.boot.phase ≠ .reset) ∧ (coreStops a false s.dev = none)) :=
  ⟨⟨{ master := .dma, addr := 0x70000004 }, 5, 0, onRegs [], by decide⟩,
   ⟨{ master := .core 1, addr := 0x70000000, kind := .conditional }, 1, 5, (onRegs []).but (fun d => { d with resv := [(1, 0x70000000 / 64)] }), by decide⟩,
   ⟨{ master := .core 2, addr := 0x10000FFC }, 0, onRegs [], by decide⟩⟩

theorem witness_PoweredDownBlockIsABusError :
    (∃ (a : Access) (value : DWord) (hwSet : Word) (s : State), (a.kind ≠ .conditional ∧ a.kind ≠ .fenceI ∧ a.kind ≠ .csr) ∧ (poweredDown s.dev a.addr = true ∧ misaligned (masterId a.master) a.addr a.width = false ∧ s.dev.boot.phase ≠ .reset) ∧ (coreStops a true s.dev = none)) ∧
    (∃ (a : Access) (k : Nat) (s : State), (a.kind ≠ .fenceI ∧ a.kind ≠ .csr) ∧ (poweredDown s.dev a.addr = true ∧ misaligned (masterId a.master) a.addr a.width = false ∧ s.dev.boot.phase ≠ .reset) ∧ (coreStops a false s.dev = none)) :=
  ⟨⟨{ master := .kcp, addr := 0x40200000 }, 5, 0, (onRegs []).but (fun d => d.set F.RSV_POWER.JDG_STATE 2), by decide⟩,
   ⟨{ master := .kcp, addr := 0x60100000 }, 5, (onRegs []).but (fun d => d.set F.RSV_POWER.CAPT_STATE 1), by decide⟩⟩

theorem witness_SameCycleSetAndIncrement :
    (∃ (a : Access) (value : DWord) (hwSet : Word) (r : RegDesc) (i : Fin 32) (s : State), (areaAt s.dev a.addr = some (.reg r) ∧ misaligned (masterId a.master) a.addr a.width = false ∧ s.dev.boot.phase ≠ .reset ∧ accessCause s.dev a.addr a.width (a.kind == .atomic) = none ∧ (a.kind = .plain ∨ a.kind = .atomic)) ∧ (writeActs (masterId a.master) (ownerOf (masterId a.master) a.session) a.addr r (BitVec.ofNat 32 value.toNat) hwSet ((latchPlic s.dev).reply 0) = none) ∧ (bitAt r.w1c i = true ∧ r.rws = 0) ∧ (coreStops a true s.dev = none)) ∧
    (∃ (a : Access) (r : RegDesc) (s : State), (areaAt s.dev a.addr = some (.reg r) ∧ misaligned (masterId a.master) a.addr a.width = false ∧ s.dev.boot.phase ≠ .reset ∧ accessCause s.dev a.addr a.width (a.kind == .atomic) = none ∧ (a.kind = .plain ∨ a.kind = .atomic)) ∧ (r.rc = 0xFFFFFFFF) ∧ (coreStops a false s.dev = none)) :=
  ⟨⟨{ master := .core 0, addr := R.TB_FLAGS }, 3, 1, regOf R.TB_FLAGS, 0, onRegs [(R.TB_FLAGS, 7)], by decide⟩,
   ⟨{ master := .core 0, addr := R.SLU_STAGE_REJ }, regOf R.SLU_STAGE_REJ, onRegs [(R.SLU_STAGE_REJ, 77)], by decide⟩⟩

theorem witness_RegisterAndWindowWrites :
    (∃ (a : Access) (value : DWord) (r : RegDesc) (t : Word) (s : State), (areaAt s.dev a.addr = some (.reg r) ∧ misaligned (masterId a.master) a.addr a.width = false ∧ s.dev.boot.phase ≠ .reset ∧ accessCause s.dev a.addr a.width (a.kind == .atomic) = none ∧ (a.kind = .plain ∨ a.kind = .atomic)) ∧ (writeActs (masterId a.master) (ownerOf (masterId a.master) a.session) a.addr r (BitVec.ofNat 32 value.toNat) 0 ((latchPlic s.dev).reply 0) = none ∧ r.rws = 0) ∧ (t = BitVec.ofNat 32 r.rw ||| (if regLocked s.dev a.addr then 0 else BitVec.ofNat 32 r.rwl)) ∧ (coreStops a true s.dev = none)) ∧
    (∃ (a : Access) (value : Word) (s : State), (0x21000000 ≤ a.addr ∧ a.addr < 0x21200000 ∧ a.width = 4 ∧ a.addr % 4 = 0 ∧ a.kind = .plain ∧ s.dev.boot.phase ≠ .reset ∧ s.dev.resetting 2 = false) ∧ (footLive s.dev ((a.addr - 0x21000000) / 4) = false) ∧ (coreStops a true s.dev = none)) ∧
    (∃ (a : Access) (value : Word) (s : State), (0x21000000 ≤ a.addr ∧ a.addr < 0x21200000 ∧ a.width = 4 ∧ a.addr % 4 = 0 ∧ a.kind = .plain ∧ s.dev.boot.phase ≠ .reset ∧ s.dev.resetting 2 = false) ∧ (footLive s.dev ((a.addr - 0x21000000) / 4) = true) ∧ (coreStops a true s.dev = none)) ∧
    (∃ (a : Access) (value : Word) (s : State), (a.addr < 0x21000000 ∨ 0x21200000 ≤ a.addr)) ∧
    (∃ (a : Access) (value : Word) (s : State), (0x41000000 ≤ a.addr ∧ a.addr < 0x41100000 ∧ a.width = 4 ∧ a.addr % 4 = 0 ∧ a.kind = .plain ∧ s.dev.boot.phase ≠ .reset ∧ s.dev.resetting 4 = false) ∧ (poweredDown s.dev a.addr = false ∧ nodeLive s.dev ((a.addr - nodeBase) / 8) = false) ∧ (coreStops a true s.dev = none)) ∧
    (∃ (a : Access) (value : Word) (s : State), (0x41000000 ≤ a.addr ∧ a.addr < 0x41100000 ∧ a.width = 4 ∧ a.addr % 4 = 0 ∧ a.kind = .plain ∧ s.dev.boot.phase ≠ .reset ∧ s.dev.resetting 4 = false) ∧ (poweredDown s.dev a.addr = false ∧ nodeLive s.dev ((a.addr - nodeBase) / 8) = true) ∧ (coreStops a true s.dev = none)) ∧
    (∃ (a : Access) (value : Word) (s : State), (0x42000000 ≤ a.addr ∧ a.addr < 0x42400000 ∧ a.width = 4 ∧ a.addr % 4 = 0 ∧ a.kind = .plain ∧ s.dev.boot.phase ≠ .reset ∧ s.dev.resetting 4 = false) ∧ (poweredDown s.dev a.addr = false ∧ (∀ i : Fin 4, weightLive s.dev (a.addr + i - weightBase) = false)) ∧ (coreStops a true s.dev = none)) ∧
    (∃ (a : Access) (value : Word) (s : State), (0x42000000 ≤ a.addr ∧ a.addr < 0x42400000 ∧ a.width = 4 ∧ a.addr % 4 = 0 ∧ a.kind = .plain ∧ s.dev.boot.phase ≠ .reset ∧ s.dev.resetting 4 = false) ∧ (poweredDown s.dev a.addr = false ∧ (∃ i : Fin 4, weightLive s.dev (a.addr + i - weightBase) = true)) ∧ (coreStops a true s.dev = none)) ∧
    (∃ (a : Access) (value : Word) (s : State), (a.addr < 0x41000000 ∨ 0x41100000 ≤ a.addr)) ∧
    (∃ (a : Access) (value : Word) (s : State), (a.addr < 0x42000000 ∨ 0x42400000 ≤ a.addr)) ∧
    (∃ (a : Access) (value : DWord) (n : Fin 4) (s : State), (a.master = .core n ∧ a.kind = .plain ∧ 0x80000000 ≤ a.addr ∧ a.addr + 4 ≤ 0x80200000 ∧ a.width = 4 ∧ a.addr % 4 = 0 ∧ s.dev.boot.phase ≠ .reset ∧ s.dev.resetting 1 = false) ∧ ((∀ m : Fin 4, (s.dev.core m).dcache.all (fun l => l.bytes.length == 64) = true) ∧ (s.dev.core n).dcache.length < cacheLines) ∧ (coreStops a true s.dev = none)) :=
  ⟨⟨{ master := .core 0, addr := R.CORE_Cn_BOOT_LO 3 }, 0xFFFFFFFF, regOf (R.CORE_Cn_BOOT_LO 3), BitVec.ofNat 32 (regOf (R.CORE_Cn_BOOT_LO 3)).rw, onRegs [], by decide⟩,
   ⟨{ master := .core 1, addr := 0x21000008 }, 0x40000123, onRegs [(R.CAL_DRAM_BASE, 0x1)], by decide⟩,
   ⟨{ master := .core 1, addr := 0x21000008 }, 0x40000123, liveContextState, by decide⟩,
   ⟨{ master := .core 1, addr := 0x21200000 }, 5, onRegs [], by decide⟩,
   ⟨{ master := .core 1, addr := 0x41000008 }, 0x40000123, (onRegs []).but (fun d => d.set F.FOR_CFG.NTREES 0), by decide⟩,
   ⟨{ master := .core 1, addr := 0x41000008 }, 0x40000123, (onRegs [(R.FOR_CFG, 0x00000001), (R.FOR_TREEt 0, 0x80000001)]).but (fun d => d.withSlu { d.slu with applied := true }), by decide⟩,
   ⟨{ master := .core 1, addr := 0x42000008 }, 0x40000123, (onRegs []).but (fun d => d.set F.CASC_CFG.CLA_EN 0), by decide⟩,
   ⟨{ master := .core 1, addr := 0x42000008 }, 0x40000123, (onRegs []).but (fun d => d.withSlu { d.slu with applied := true }), by decide⟩,
   ⟨{ master := .core 1, addr := 0x41100000 }, 5, onRegs [], by decide⟩,
   ⟨{ master := .core 1, addr := 0x42400000 }, 5, onRegs [], by decide⟩,
   ⟨{ master := .core 1, addr := 0x80000008 }, 0x40000123, 1, onRegs [], by decide⟩⟩

theorem witness_MailboxesAndForcedLocks :
    (∃ (m : Master) (k : Fin 32) (value : Word) (s : State), (s.dev.bit (F.MBXk_BIND.EN k) = true ∧ s.dev.get (F.MBXk_BIND.SENDER k) = masterId m) ∧ (gateOpen s.dev (R.MBXk_DATA k) = true)) ∧
    (∃ (m : Master) (k : Fin 32) (s : State), (s.dev.bit (F.MBXk_BIND.EN k) = true ∧ s.dev.get (F.MBXk_BIND.RECEIVER k) = masterId m) ∧ (gateOpen s.dev (R.MBXk_DATA k) = true)) ∧
    (∃ (m : Master) (k : Fin 32) (value : Word) (s : State), (s.dev.bit (F.MBXk_BIND.EN k) = false ∨ s.dev.get (F.MBXk_BIND.SENDER k) ≠ masterId m) ∧ (gateOpen s.dev (R.MBXk_DATA k) = true)) ∧
    (∃ (m : Master) (k : Fin 32) (s : State), (s.dev.bit (F.MBXk_BIND.EN k) = false ∨ s.dev.get (F.MBXk_BIND.RECEIVER k) ≠ masterId m) ∧ (gateOpen s.dev (R.MBXk_DATA k) = true)) ∧
    (∃ (hi : Bool) (value : Word) (s : State), (gateOpen s.dev (R.LCK_FORCE_LO) = true)) :=
  ⟨⟨.core 2, 31, 0xFFFFFFFF, (onRegs []).but (fun d => (d.set (F.MBXk_BIND.EN 31) 1).set (F.MBXk_BIND.SENDER 31) 2), by decide⟩,
   ⟨.debug, 0, (onRegs []).but (fun d => (d.set (F.MBXk_BIND.EN 0) 1).set (F.MBXk_BIND.RECEIVER 0) 9), by decide⟩,
   ⟨.core 2, 31, 7, onRegs [], by decide⟩,
   ⟨.core 2, 31, onRegs [], by decide⟩,
   ⟨true, 0x80000001, onRegs [(R.LCKk 63, 3), (R.LCKk 40, 4)], by decide⟩⟩

theorem witness_HardwareLocks :
    (∃ (m : Master) (k : Fin 64) (s : State), (s.dev.rd (R.LCKk k) = 0) ∧ (gateOpen s.dev (R.LCKk k) = true)) ∧
    (∃ (m : Master) (k : Fin 64) (s : State), (s.dev.rd (R.LCKk k) ≠ 0) ∧ (gateOpen s.dev (R.LCKk k) = true)) ∧
    (∃ (m : Master) (k : Fin 64) (s : State), ((s.dev.rd (R.LCKk k)).toNat = masterId m + 1) ∧ (gateOpen s.dev (R.LCKk k) = true)) ∧
    (∃ (m : Master) (k : Fin 64) (s : State), ((s.dev.rd (R.LCKk k)).toNat ≠ masterId m + 1) ∧ (gateOpen s.dev (R.LCKk k) = true)) ∧
    (∃ (m : Master) (k : Fin 64) (s : State), (s.dev.resetting 1 = false ∧ s.dev.boot.phase ≠ .reset ∧ coreStops { master := m, addr := R.LCK_PEEKk k } false s.dev = none)) :=
  ⟨⟨.core 0, 63, onRegs [], by decide⟩,
   ⟨.core 2, 5, onRegs [(R.LCKk 5, 3)], by decide⟩,
   ⟨.core 2, 5, onRegs [(R.LCKk 5, 3)], by decide⟩,
   ⟨.peer 1, 5, onRegs [(R.LCKk 5, 3)], by decide⟩,
   ⟨.core 2, 5, onRegs [(R.LCKk 5, 3)], by decide⟩⟩

theorem witness_CoresAndTimer :
    (∃ (n : Fin 4) (s : State), (coreRuns s.dev n = true ∧ (s.dev.core n).haltOnReset = false) ∧ (gateOpen s.dev (R.CORE_Cn_CTRL n) = true)) ∧
    (∃ (n : Fin 4) (s : State), (coreRuns s.dev n = false) ∧ (gateOpen s.dev (R.CORE_Cn_CTRL n) = true)) ∧
    (∃ (n : Fin 4) (s : State), (coreRuns s.dev n = false) ∧ (gateOpen s.dev (R.CORE_Cn_CTRL n) = true)) ∧
    (∃ (n : Fin 4) (s : State), (coreRuns s.dev n = true) ∧ (gateOpen s.dev (R.CORE_Cn_CTRL n) = true)) ∧
    (∃ (n : Fin 4) (value : Word) (s : State), (gateOpen s.dev (R.CORE_Cn_KICK n) = true)) ∧
    (∃ (n : Fin 4) (s : State), (coreRuns s.dev n = true ∧ s.dev.bit (F.CORE_Cn_WDOG.EN n) = true ∧ s.dev.bit (F.CORE_Cn_STATUS.DEBUG_HALTED n) = false)) ∧
    (∃ (n : Fin 4) (s : State), (coreRuns s.dev n = false ∨ s.dev.bit (F.CORE_Cn_WDOG.EN n) = false ∨ (s.dev.bit F.CORE_DBG.WDOG_HALT = true ∧ s.dev.bit (F.CORE_Cn_STATUS.DEBUG_HALTED n) = true))) ∧
    (∃ (n : Fin 4) (value : Word) (s : State), ((F.CORE_Cn_CMO.GO n).of value = 1 ∧ s.dev.bit (F.CORE_Cn_CMO.BUSY n) = false) ∧ (gateOpen s.dev (R.CORE_Cn_CMO n) = true)) ∧
    (∃ (n : Fin 4) (a : Nat) (k : Nat) (s : State), ((s.dev.core n).cmo = some (1, a, k) ∧ a % 64 = 0 ∧ (s.dev.core n).dcache.all (fun l => l.bytes.length == 64) = true)) ∧
    (∃ (n : Fin 4) (a : Nat) (k : Nat) (s : State), ((s.dev.core n).cmo = some (2, a, k))) ∧
    (∃  (s : State), (gateOpen s.dev (R.CORE_MTIME_LO) = true)) ∧
    (∃ (n : Fin 4) (s : State), (s.dev.tb.edges < 2 ^ 66)) ∧
    (∃ (k : Fin 4) (s : State), (plicBest s.dev k (List.range 512) ≠ 0) ∧ (gateOpen s.dev (plicBase + 0x200004 + 0x1000 * k) = true)) ∧
    (∃ (k : Fin 4) (s : State), (plicBest s.dev k (List.range 512) = 0) ∧ (gateOpen s.dev (plicBase + 0x200004 + 0x1000 * k) = true)) ∧
    (∃ (n : Fin 4) (a : Nat) (u : Bool) (value : DWord) (s : State), (coreActive s.dev n = true ∧ misaligned n a 4 = false ∧ (s.dev.core n).hart.pmpAllows { user := u, write := true } a = false) ∧ (trigFires { user := u, write := true } a 4 (s.dev.core n).triggers.toList 0 (some []) = none)) :=
  ⟨⟨2, (onRegs [(R.CORE_Cn_STATUS 2, 0x80000000), (R.LCKk 9, 3)]).but (fun d => d.setCore 2 { dcache := [{ line := 0x2000000, bytes := List.replicate 64 7, dirty := true }] }), by decide⟩,
   ⟨2, onRegs [], by decide⟩,
   ⟨3, onRegs [], by decide⟩,
   ⟨2, onRegs [(R.CORE_Cn_STATUS 2, 0x80000000)], by decide⟩,
   ⟨1, 0xA5, (onRegs []).but (fun d => { d with tb := { d.tb with edges := 77 } }), by decide⟩,
   ⟨3, onRegs [(R.CORE_Cn_STATUS 3, 0x80000000), (R.CORE_Cn_WDOG 3, 0x80000010)], by decide⟩,
   ⟨3, onRegs [], by decide⟩,
   ⟨0, 0x41000001, onRegs [(R.CORE_Cn_CMO_ADDR_LO 0, 0x80000047)], by decide⟩,
   ⟨0, 0x80000040, 1, (onRegs []).but (fun d => d.setCore 0 { cmo := some (1, 0x80000040, 1), dcache := [{ line := 0x2000001, bytes := List.replicate 64 7, dirty := true }, { line := 0x2000002, bytes := List.replicate 64 9, dirty := true }] }), by decide⟩,
   ⟨0, 0x80000040, 1, (onRegs []).but (fun d => d.setCore 0 { cmo := some (2, 0x80000040, 1), dcache := [{ line := 0x2000001, bytes := List.replicate 64 7, dirty := true }, { line := 0x2000002, bytes := List.replicate 64 9, dirty := true }] }), by decide⟩,
   ⟨(onRegs []).but (fun d => { d with tb := { d.tb with edges := 17179869200 } }), by decide +kernel⟩,
   ⟨1, onRegs [(R.CORE_Cn_MTIMECMP_LO 1, 25)], by decide +kernel⟩,
   ⟨1, onRegs [(R.TB_FLAGS, 1), (R.TB_IRQ_EN, 1), (plicBase + 4 * 118, 3), (plicBase + 0x2080 + 12, 0x00400000)], by decide +kernel⟩,
   ⟨1, onRegs [], by decide +kernel⟩,
   ⟨2, 0x80000000, true, 5, onRegs [(R.CORE_Cn_STATUS 2, 0x80000000)], by decide⟩⟩

theorem witness_CheckValueUnits :
    (∃ (u : Fin 8) (k : Fin 3) (value : Word) (s : State), (gateOpen s.dev (R.CRCu_DATA8 u) = true)) ∧
    (∃ (u : Fin 8) (s : State), (s.dev.get (F.CRCu_CFG.PFX_LEN u) = 0 ∧ s.dev.bit (F.CRCu_CFG.AUTO_INC u) = false) ∧ (gateOpen s.dev (R.CRCu_CTRL u) = true)) ∧
    (∃ (u : Fin 8) (s : State), (s.dev.bit (F.CRCu_CFG.AUTO_INC u) = true) ∧ (gateOpen s.dev (R.CRCu_CTRL u) = true)) ∧
    (∃ (u : Fin 8) (k : Fin 6) (value : Word) (s : State), (k.val ≠ 4) ∧ (gateOpen s.dev (R.CRCu_CTRL u) = true)) ∧
    (∃ (u : Fin 8) (k : Fin 6) (value : Word) (s : State), (k.val ≠ 4) ∧ (gateOpen s.dev (R.CRCu_CTRL u) = true)) ∧
    (∃ (u : Fin 8) (hi : Bool) (value : Word) (s : State), (gateOpen s.dev (R.CRCu_CTRL u) = true)) ∧
    (∃ (u : Fin 8) (value : Word) (s : State), (7 ≤ (F.CRCu_CFG.WIDTH_M1 u).of value) ∧ (gateOpen s.dev (R.CRCu_CFG u) = true)) ∧
    (∃ (u : Fin 8) (value : Word) (s : State), ((F.CRCu_CFG.WIDTH_M1 u).of value < 7) ∧ (gateOpen s.dev (R.CRCu_CFG u) = true)) :=
  ⟨⟨7, 2, 0x34333231, onRegs [(R.CRCu_CFG 7, 0x0000001F), (R.CRCu_POLY_LO 7, 0x1EDC6F41)], by decide⟩,
   ⟨7, onRegs [(R.CRCu_CFG 7, 0x0000001F), (R.CRCu_INIT_LO 7, 0xFFFFFFFF)], by decide⟩,
   ⟨6, (onRegs [(R.CRCu_CFG 6, 0x0000001F), (R.CRCu_PREFIX_LO 6, 0xFFFFFFFF)]).but (fun d => d.set (F.CRCu_CFG.AUTO_INC 6) 1), by decide⟩,
   ⟨3, 5, 9, onRegs [], by decide⟩,
   ⟨3, 5, 9, onRegs [], by decide⟩,
   ⟨3, true, 9, onRegs [], by decide⟩,
   ⟨0, 7, onRegs [(R.CRCu_STATE_LO 0, 0xFFFFFFFF)], by decide⟩,
   ⟨0, 6, onRegs [], by decide⟩⟩

theorem witness_DmaControl :
    (∃ (k : Fin 16) (s : State), ((s.dev.dmaState k = dmIdle ∨ s.dev.dmaState k = dmHalted) ∧ dmaLiveOk s.dev k = true) ∧ (gateOpen s.dev (R.DMAc_CTRL k) = true)) ∧
    (∃ (k : Fin 16) (s : State), ((s.dev.dmaState k = dmIdle ∨ s.dev.dmaState k = dmHalted) ∧ dmaLiveOk s.dev k = false) ∧ (gateOpen s.dev (R.DMAc_CTRL k) = true)) ∧
    (∃ (k : Fin 16) (s : State), (s.dev.dmaState k = dmWait) ∧ (gateOpen s.dev (R.DMAc_CTRL k) = true)) ∧
    (∃ (k : Fin 16) (s : State), ((s.dev.dmaState k = dmRun ∨ s.dev.dmaState k = dmDrain ∨ s.dev.dmaState k = dmPaused) ∧ dmaOneStart s.dev k = false) ∧ (gateOpen s.dev (R.DMAc_CTRL k) = true)) ∧
    (∃ (k : Fin 16) (s : State), ((s.dev.dmaState k = dmRun ∨ s.dev.dmaState k = dmPaused) ∧ (s.dev.dma[k]).trigAt = some s.dev.tb.edges) ∧ (gateOpen s.dev (R.DMAc_CTRL k) = true)) ∧
    (∃ (k : Fin 16) (i : Fin 6) (value : Word) (s : State), (s.dev.dmaState k = dmIdle ∨ s.dev.dmaState k = dmHalted ∨ s.dev.dmaState k = dmPaused) ∧ (gateOpen s.dev (R.DMAc_CFG k) = true)) ∧
    (∃ (k : Fin 16) (i : Fin 6) (value : Word) (s : State), (s.dev.dmaState k = dmWait ∨ s.dev.dmaState k = dmRun ∨ s.dev.dmaState k = dmDrain) ∧ (gateOpen s.dev (R.DMAc_CFG k) = true)) ∧
    (∃ (k : Fin 16) (i : Fin 6) (value : Word) (s : State), (s.dev.bit (F.DMAc_STATUS.SHADOW_VALID k) = false) ∧ (gateOpen s.dev (R.DMAc_SH_CFG k) = true)) ∧
    (∃ (k : Fin 16) (i : Fin 6) (value : Word) (s : State), (s.dev.bit (F.DMAc_STATUS.SHADOW_VALID k) = true) ∧ (gateOpen s.dev (R.DMAc_SH_CFG k) = true)) ∧
    (∃ (k : Fin 16) (s : State), (s.dev.bit (F.DMAc_STATUS.SHADOW_VALID k) = false) ∧ (dmaOk s.dev (R.DMAc_SH_CFG k) (s.dev.pair (R.DMAc_SH_SRC_LO k) (R.DMAc_SH_SRC_HI k)) (s.dev.pair (R.DMAc_SH_DST_LO k) (R.DMAc_SH_DST_HI k)) (s.dev.rd (R.DMAc_SH_LEN k)).toNat = true) ∧ (gateOpen s.dev (R.DMAc_SH_CTRL k) = true)) ∧
    (∃ (k : Fin 16) (s : State), (s.dev.bit (F.DMAc_STATUS.SHADOW_VALID k) = true) ∧ (gateOpen s.dev (R.DMAc_SH_CTRL k) = true)) ∧
    (∃ (k : Fin 16) (s : State), (s.dev.bit (F.DMAc_STATUS.SHADOW_VALID k) = false) ∧ (dmaOk s.dev (R.DMAc_SH_CFG k) (s.dev.pair (R.DMAc_SH_SRC_LO k) (R.DMAc_SH_SRC_HI k)) (s.dev.pair (R.DMAc_SH_DST_LO k) (R.DMAc_SH_DST_HI k)) (s.dev.rd (R.DMAc_SH_LEN k)).toNat = false) ∧ (gateOpen s.dev (R.DMAc_SH_CTRL k) = true)) ∧
    (∃ (k : Fin 16) (s : State), (gateOpen s.dev (R.DMAc_CTRL k) = true)) ∧
    (∃ (k : Fin 16) (s : State), (gateOpen s.dev (R.DMAc_CTRL k) = true)) ∧
    (∃ (k : Fin 16) (s : State), (s.dev.dmaState k = dmWait ∨ s.dev.dmaState k = dmPaused ∨ ((s.dev.dmaState k = dmRun ∨ s.dev.dmaState k = dmDrain) ∧ (s.dev.dma[k]).data = [] ∧ dmaLen s.dev k ≠ 0)) ∧ (gateOpen s.dev (R.DMAc_CTRL k) = true)) ∧
    (∃ (k : Fin 16) (n : Nat) (s : State), (s.dev.dmaState k = dmIdle ∨ (s.dev.dmaState k = dmHalted ∧ (s.dev.dma[k]).failAt ≠ some s.dev.tb.edges)) ∧ (gateOpen s.dev (R.DMAc_CTRL k) = true)) ∧
    (∃ (k : Fin 16) (n : Nat) (s : State), (s.dev.dmaState k = dmHalted ∧ (s.dev.dma[k]).failAt = some s.dev.tb.edges) ∧ (gateOpen s.dev (R.DMAc_CTRL k) = true)) ∧
    (∃ (k : Fin 16) (s : State), (s.dev.dmaState k = dmDrain ∧ (s.dev.dma[k]).data = [] ∧ dmaLen s.dev k ≠ 0)) ∧
    (∃ (k : Fin 16) (n : Nat) (wr : Bool) (s : State), (s.dev.dmaState k = dmDrain ∧ (s.dev.dma[k]).leaving ≠ none ∧ (s.dev.dma[k]).data = [] ∧ dmaLen s.dev k ≠ 0 ∧ s.dev.bit (F.DMAc_ERR_INFO.VALID k) = false)) ∧
    (∃ (k : Fin 16) (b : Nat) (n : Nat) (wr : Bool) (s : State), (s.dev.dmaState k = dmWait ∧ (s.dev.dma[k]).leaving ≠ none)) :=
  ⟨⟨15, onRegs [(R.DMAc_LEN 15, 8), (R.DMAc_CSUM 15, 9)], by decide⟩,
   ⟨15, onRegs [], by decide⟩,
   ⟨15, onRegs [(R.DMAc_STATUS 15, 1)], by decide⟩,
   ⟨15, onRegs [(R.DMAc_STATUS 15, 2)], by decide⟩,
   ⟨15, (onRegs [(R.DMAc_STATUS 15, 2)]).but (fun d => d.withChan 15 (fun x => { x with trigAt := some 0 })), by decide⟩,
   ⟨15, 5, 0xFFFFFFFF, onRegs [], by decide⟩,
   ⟨15, 4, 7, onRegs [(R.DMAc_STATUS 15, 2)], by decide⟩,
   ⟨15, 0, 0xFFFFFFFF, onRegs [], by decide⟩,
   ⟨15, 0, 0xFFFFFFFF, (onRegs []).but (fun d => d.set (F.DMAc_STATUS.SHADOW_VALID 15) 1), by decide⟩,
   ⟨15, onRegs [(R.DMAc_SH_LEN 15, 8)], by decide⟩,
   ⟨15, (onRegs []).but (fun d => d.set (F.DMAc_STATUS.SHADOW_VALID 15) 1), by decide⟩,
   ⟨15, onRegs [], by decide⟩,
   ⟨15, onRegs [(R.DMAc_STATUS 15, 2)], by decide⟩,
   ⟨15, onRegs [(R.DMAc_STATUS 15, 4)], by decide⟩,
   ⟨3, onRegs [(R.DMAc_STATUS 3, 2), (R.DMAc_LEN 3, 64)], by decide⟩,
   ⟨3, 9, onRegs [], by decide⟩,
   ⟨3, 9, (onRegs [(R.DMAc_STATUS 3, 5)]).but (fun d => d.withChan 3 (fun x => { x with failAt := some 0 })), by decide⟩,
   ⟨3, onRegs [(R.DMAc_STATUS 3, 3), (R.DMAc_LEN 3, 64)], by decide⟩,
   ⟨3, 9, true, (onRegs [(R.DMAc_STATUS 3, 3), (R.DMAc_LEN 3, 64), (R.DMAc_DST_LO 3, 0x80000000)]).but (fun d => d.withChan 3 (fun x => { x with leaving := some 2 })), by decide⟩,
   ⟨3, 8, 9, true, (onRegs [(R.DMAc_STATUS 3, 1)]).but (fun d => d.withChan 3 (fun x => { x with leaving := some 2 })), by decide⟩⟩

theorem witness_DmaTransfer :
    (∃ (k : Fin 16) (s : State), (s.dev.dmaState k = dmRun ∧ s.dev.get (F.DMAc_CFG.ESIZE k) = 3 ∧ dmaLen s.dev k = 8 ∧ s.dev.get (F.DMAc_CFG.CSUM k) = 0) ∧ (s.dev.bit (F.DMAc_CFG.CSUM_WR k) = false ∧ s.dev.bit (F.DMAc_STATUS.SHADOW_VALID k) = false) ∧ (0x80000000 ≤ dmaSrc s.dev k ∧ dmaSrc s.dev k + 8 ≤ 0x80200000 ∧ dmaSrc s.dev k % 8 = 0 ∧ s.dev.resetting 1 = false ∧ s.dev.boot.phase ≠ .reset) ∧ (0x80000000 ≤ dmaDst s.dev k ∧ dmaDst s.dev k + 8 ≤ 0x80200000 ∧ dmaDst s.dev k % 8 = 0 ∧ (s.dev.dma[k]).data = [] ∧ s.dev.dmaOut.length ≤ 32) ∧ (∀ j : Fin 16, j ≠ k → s.dev.dmaState j ≠ dmRun ∧ s.dev.dmaState j ≠ dmDrain)) ∧
    (∃ (k : Fin 16) (s : State), (s.dev.dmaState k = dmRun ∧ dmaLen s.dev k = 0 ∧ s.dev.bit (F.DMAc_CFG.CSUM_WR k) = false ∧ s.dev.bit (F.DMAc_STATUS.SHADOW_VALID k) = true)) ∧
    (∃ (k : Fin 16) (s : State), (s.dev.dmaState k ≠ dmRun)) ∧
    (∃ (k : Fin 16) (wr : Bool) (dram : Bool) (s : State), ((s.dev.dmaState k = dmRun ∨ s.dev.dmaState k = dmDrain) ∧ (s.dev.dma[k]).data = [] ∧ dmaLen s.dev k ≠ 0)) ∧
    (∃ (k : Fin 16) (n : Nat) (wr : Bool) (dram : Bool) (late : Bool) (a : Nat) (s : State), ((late = true ∨ (s.dev.dmaState k = dmIdle ∧ wr = true)) ∧ dmaTail s.dev k = some a)) ∧
    (∃ (k : Fin 16) (n : Nat) (wr : Bool) (dram : Bool) (late : Bool) (s : State), ((late = true ∨ (s.dev.dmaState k ≠ dmRun ∧ s.dev.dmaState k ≠ dmDrain)) ∧ dmaTail s.dev k = none)) :=
  ⟨⟨5, (onRegs [(R.DMAc_STATUS 5, 2), (R.DMAc_LEN 5, 8), (R.DMAc_SRC_LO 5, 0x80000008), (R.DMAc_DST_LO 5, 0x801FFFF8), (R.DMAc_CFG 5, 0x03000000)]).but (fun d => d.setNum 0x80000008 8 0x0102030405060708), by decide⟩,
   ⟨5, (onRegs [(R.DMAc_STATUS 5, 2), (R.DMAc_SH_LEN 5, 8), (R.DMAc_SH_SRC_HI 5, 1)]).but (fun d => d.set (F.DMAc_STATUS.SHADOW_VALID 5) 1), by decide⟩,
   ⟨5, onRegs [], by decide⟩,
   ⟨5, false, true, onRegs [(R.DMAc_STATUS 5, 2), (R.DMAc_SRC_HI 5, 1), (R.DMAc_LEN 5, 8)], by decide⟩,
   ⟨5, 8, true, false, false, 0x80000040, (onRegs []).but (fun d => { d with dmaOut := [(5, 0x80000000), (4, 0x80000000), (5, 0x80000040)] }.withChan 5 (fun x => { x with tail := some 0x80000040 })), by decide⟩,
   ⟨5, 8, false, true, false, onRegs [], by decide⟩⟩

theorem witness_CaptureBlocksAndRings :
    (∃ (g : CapGroup) (rest : List CapGroup) (s : State), (s.dev.cap.groups.filter (fun x => !groupCut s.dev x) = g :: rest ∧ groupDone s.dev g = true) ∧ (capHeld s.dev + ((g.wins.flatMap (windowBlocks g)).map (fun b => b.bytes.length)).sum ≤ 1048576)) ∧
    (∃ (g : CapGroup) (rest : List CapGroup) (bad : List Nat) (s : State), (s.dev.cap.groups.filter (fun x => !groupCut s.dev x) = g :: rest ∧ groupDone s.dev g = false)) ∧
    (∃ (b : CapBlock) (rest : List CapBlock) (s : State), (s.dev.cap.buffer = b :: rest ∧ b.rings.stop = false ∧ b.rings.gen = s.dev.cap.gen)) ∧
    (∃ (b : CapBlock) (rest : List CapBlock) (s : State), (s.dev.cap.buffer = b :: rest ∧ b.rings.stop = true ∧ b.rings.gen = s.dev.cap.gen) ∧ (s.dev.pair R.CAP_KEEP_LO R.CAP_KEEP_HI + 2 ^ b.rings.dataLog < s.dev.cap.wpos + b.bytes.length)) ∧
    (∃ (b : CapBlock) (rest : List CapBlock) (s : State), (s.dev.cap.buffer = b :: rest ∧ b.rings.stop = false ∧ b.rings.gen ≠ s.dev.cap.gen)) ∧
    (∃ (idx : Bool) (s : State), (gateOpen s.dev (R.CAP_WPOS_LO) = true)) :=
  ⟨⟨{ first := 16, wins := [{ view := 1, x0 := 0, x1 := 1, bands := 1 }] }, [], (onRegs []).but (fun d => { d with cap := { groups := [{ first := 16, wins := [{ view := 1, x0 := 0, x1 := 1, bands := 1 }] }] } }), by decide +kernel⟩,
   ⟨{ first := 16, wins := [{ view := 1, x1 := 1, bands := 1 }] }, [], [], (onRegs [(R.GEO_Vv_CFG 1, 4)]).but (fun d => { d with cap := { groups := [{ first := 16, wins := [{ view := 1, x1 := 1, bands := 1 }] }] } }), by decide⟩,
   ⟨{ bytes := [1, 2, 3], rings := { data := 0x100000000, idx := 0x110000000, dataLog := 24, idxLog := 16 } }, [], (onRegs []).but (fun d => { d with cap := { buffer := [{ bytes := [1, 2, 3], rings := { data := 0x100000000, idx := 0x110000000, dataLog := 24, idxLog := 16 } }], wpos := 0xFFFFFE, ipos := 65535 } }), by decide⟩,
   ⟨{ bytes := [1, 2, 3], rings := { stop := true, dataLog := 24, idxLog := 16 } }, [], (onRegs []).but (fun d => { d with cap := { buffer := [{ bytes := [1, 2, 3], rings := { stop := true, dataLog := 24, idxLog := 16 } }], wpos := 0x1000000 } }), by decide⟩,
   ⟨{ bytes := [1, 2, 3], rings := { gen := 3, data := 0x100000000, idx := 0x110000000, dataLog := 24, idxLog := 16 } }, [], (onRegs []).but (fun d => { d with cap := { gen := 4, olds := [(3, 0xFFFFFE, 65535)], buffer := [{ bytes := [1, 2, 3], rings := { gen := 3, data := 0x100000000, idx := 0x110000000, dataLog := 24, idxLog := 16 } }], wpos := 8 } }), by decide⟩,
   ⟨true, (onRegs []).but (fun d => { d with cap := { ipos := 0x123456789 } }), by decide⟩⟩

theorem witness_DramRequests :
    (∃ (port : Fin 9) (source : Nat) (a : Nat) (len : Nat) (cycle : Nat) (wr : Bool) (data : List Byte) (s : State), (inDram s.dev a = false)) ∧
    (∃ (port : Fin 9) (source : Nat) (a : Nat) (len : Nat) (cycle : Nat) (wr : Bool) (data : List Byte) (s : State), (inDram s.dev a = true ∧ dramServes s.dev = false)) ∧
    (∃ (port : Fin 9) (source : Nat) (a : Nat) (len : Nat) (n : Nat) (cycle : Nat) (now : Nat) (wr : Bool) (data : List Byte) (l : Nat) (r : MemReq) (s : State), (inDram s.dev a = true ∧ dramServes s.dev = true ∧ n = channelOf s.dev a ∧ (s.dev.ctl n).waiting = []) ∧ (now = max (s.dev.ctl n).cycle cycle ∧ (s.dev.ctl n).queue.all (fun y => y.arrived != now) = true ∧ l = min (64 - a % 64) (if wr then data.length else len)) ∧ (r = { port := port, source := source, addr := a, len := l, write := wr, data := data.take l, issue := s.dev.dram.issued, arrived := now })) ∧
    (∃ (n : Fin 4) (ready : List Nat) (wrong : List WordError) (cycle : Nat) (r : MemReq) (s : State), (s.dev.memState n = msRun ∧ s.dev.bit (F.MEMn_STATUS.SLOT n) = false ∧ s.dev.ctl n = { s.dev.ctl n with queue := [r], waiting := [], slotDue := false } ∧ ready.contains 0 = true ∧ inOrder s.dev n r = true) ∧ (r.write = true ∧ s.dev.bit F.MEM_CFG.ECC_EN = false ∧ (debt s.dev n ≤ 0 ∨ (debt s.dev n < 8 ∧ bankOf s.dev r.addr ≠ (s.dev.ctl n).refBank)))) ∧
    (∃ (n : Fin 4) (ready : List Nat) (wrong : List WordError) (cycle : Nat) (r : MemReq) (s : State), (s.dev.memState n = msRun ∧ s.dev.bit (F.MEMn_STATUS.SLOT n) = false ∧ s.dev.ctl n = { s.dev.ctl n with queue := [r], waiting := [], slotDue := false } ∧ ready.contains 0 = true ∧ inOrder s.dev n r = true) ∧ (r.write = true ∧ s.dev.bit F.MEM_CFG.ECC_EN = true ∧ r.data.length = 64 ∧ (s.dev.ctl n).cache.length < 64 ∧ (s.dev.ctl n).cache.all (fun y => y.codes.length == 64) = true ∧ (debt s.dev n ≤ 0 ∨ (debt s.dev n < 8 ∧ bankOf s.dev r.addr ≠ (s.dev.ctl n).refBank)))) ∧
    (∃ (n : Fin 4) (ready : List Nat) (cycle : Nat) (r : MemReq) (s : State), (s.dev.memState n = msRun ∧ s.dev.bit (F.MEMn_STATUS.SLOT n) = false ∧ s.dev.ctl n = { s.dev.ctl n with queue := [r], waiting := [], slotDue := false } ∧ ready.contains 0 = true ∧ inOrder s.dev n r = true) ∧ (r.write = false ∧ (s.dev.bit F.MEM_CFG.ECC_EN = true → (s.dev.ctl n).cache.length < 64) ∧ (debt s.dev n ≤ 0 ∨ (debt s.dev n < 8 ∧ bankOf s.dev r.addr ≠ (s.dev.ctl n).refBank)))) ∧
    (∃ (n : Fin 4) (ready : List Nat) (cycle : Nat) (r : MemReq) (s : State), (s.dev.memState n = msRun ∧ s.dev.bit (F.MEMn_STATUS.SLOT n) = false ∧ s.dev.ctl n = { s.dev.ctl n with queue := [r], waiting := [], slotDue := false } ∧ ready.contains 0 = true ∧ inOrder s.dev n r = true) ∧ (r.write = false ∧ s.dev.bit F.MEM_CFG.ECC_EN = false ∧ debt s.dev n = 8 ∧ (s.dev.ctl n).refBank < 16 ∧ bankOf s.dev r.addr = (s.dev.ctl n).refBank)) ∧
    (∃ (n : Fin 4) (ready : List Nat) (x : WordError) (b : Fin 72) (cycle : Nat) (r : MemReq) (s : State), (s.dev.memState n = msRun ∧ s.dev.bit (F.MEMn_STATUS.SLOT n) = false ∧ s.dev.ctl n = { s.dev.ctl n with queue := [r], waiting := [], slotDue := false } ∧ ready.contains 0 = true ∧ inOrder s.dev n r = true) ∧ (x.second = some b ∧ r.write = false ∧ s.dev.bit F.MEM_CFG.ECC_EN = true ∧ s.dev.bit (F.MEMn_ERR_INFO.VALID n) = false ∧ (s.dev.ctl n).cache.length < 64 ∧ (debt s.dev n ≤ 0 ∨ (debt s.dev n < 8 ∧ bankOf s.dev r.addr ≠ (s.dev.ctl n).refBank))) ∧ ((r.port = 4 ∨ (r.port = 5 ∧ s.dev.dmaState (r.source % 16) = dmRun)) ∧ dramBase ≤ r.addr ∧ r.addr < dramBase + 2 ^ 40)) ∧
    (∃ (n : Fin 4) (ready : List Nat) (wrong : List WordError) (cycle : Nat) (s : State), (s.dev.memState n ≠ msRun ∨ s.dev.bit (F.MEMn_STATUS.SLOT n) = true ∨ (s.dev.ctl n).queue = [])) ∧
    (∃ (n : Fin 4) (k : Nat) (r : MemReq) (s : State), ((s.dev.ctl n).queue[k]? = some r ∧ r.urgency < 3 ∧ ((s.dev.ctl n).queue.filter (fun y => y.issue = r.issue)).length = 1)) ∧
    (∃ (n : Fin 4) (k : Nat) (s : State), ((s.dev.ctl n).queue.length ≤ k)) :=
  ⟨⟨4, 1, 0x1000000000, 64, 7, false, [], onRegs [(R.MEMn_STATUS 0, 3), (R.MEM_CFG, 0x100)], by decide⟩,
   ⟨4, 1, 0x100000000, 64, 7, false, [], onRegs [], by decide⟩,
   ⟨5, 1, 0x10000003C, 64, 0, 9, 9, false, [], 4, { port := 5, source := 1, addr := 0x10000003C, len := 4, arrived := 9 }, onRegs [(R.MEMn_STATUS 0, 3)], by decide⟩,
   ⟨0, [0], [], 7, { port := 4, addr := 0x100000010, len := 2, write := true, data := [7, 8] }, (onRegs [(R.MEMn_STATUS 0, 3)]).but (fun d => d.setCtl 0 { queue := [{ port := 4, addr := 0x100000010, len := 2, write := true, data := [7, 8] }] }), by decide⟩,
   ⟨0, [0], [], 7, { port := 4, addr := 0x100000040, len := 64, write := true, data := List.replicate 64 7 }, (onRegs [(R.MEMn_STATUS 0, 3), (R.MEM_CFG, 2)]).but (fun d => d.setCtl 0 { queue := [{ port := 4, addr := 0x100000040, len := 64, write := true, data := List.replicate 64 7 }] }), by decide⟩,
   ⟨0, [0], 7, { port := 4, addr := 0x100000010, len := 2 }, (onRegs [(R.MEMn_STATUS 0, 3)]).but (fun d => d.setCtl 0 { queue := [{ port := 4, addr := 0x100000010, len := 2 }] }), by decide⟩,
   ⟨0, [0], 7, { port := 4, addr := 0x100000010, len := 2 }, (onRegs [(R.MEMn_STATUS 0, 3)]).but (fun d => (d.setI (F.MEMn_STATUS.DEBT 0) 8).setCtl 0 { queue := [{ port := 4, addr := 0x100000010, len := 2 }] }), by decide⟩,
   ⟨0, [0], { word := 3, bit := 9, second := some 10 }, 10, 7, { port := 4, addr := 0x100000010, len := 2 }, (onRegs [(R.MEMn_STATUS 0, 3), (R.MEM_CFG, 2)]).but (fun d => d.setCtl 0 { queue := [{ port := 4, addr := 0x100000010, len := 2 }] }), by decide⟩,
   ⟨3, [0], [], 7, onRegs [], by decide⟩,
   ⟨2, 0, { port := 0, urgency := 2 }, (onRegs []).but (fun d => d.setCtl 2 { queue := [{ port := 0, urgency := 2 }] }), by decide⟩,
   ⟨2, 0, onRegs [], by decide⟩⟩

theorem witness_DramRefreshAndTraining :
    (∃ (value : Word) (s : State), (F.MEM_CFG.INIT.of value = 1 ∧ masksOk s.dev = true) ∧ (gateOpen s.dev (R.MEM_CFG) = true)) ∧
    (∃ (value : Word) (s : State), (F.MEM_CFG.INIT.of value = 1 ∧ masksOk s.dev = false) ∧ (gateOpen s.dev (R.MEM_CFG) = true)) ∧
    (∃ (n : Fin 4) (s : State), (s.dev.memState n = msTrain)) ∧
    (∃ (n : Fin 4) (ok : Bool) (s : State), (s.dev.memState n ≠ msTrain)) ∧
    (∃ (n : Fin 4) (s : State), (s.dev.memState n = msRun ∧ -8 ≤ debt s.dev n ∧ debt s.dev n < 8)) ∧
    (∃ (n : Fin 4) (s : State), (s.dev.memState n ≠ msRun ∨ debt s.dev n = 8)) ∧
    (∃ (n : Fin 4) (s : State), (s.dev.memState n = msRun ∧ s.dev.bit (F.MEMn_STATUS.SLOT n) = false ∧ debt s.dev n = 8 ∧ (s.dev.ctl n).refBank < 16)) ∧
    (∃ (n : Fin 4) (s : State), (s.dev.memState n = msRun ∧ s.dev.bit (F.MEMn_STATUS.SLOT n) = false ∧ -8 < debt s.dev n ∧ debt s.dev n < 8 ∧ (if 0 < debt s.dev n then rtUrgent s.dev n = false else (s.dev.ctl n).queue = []))) ∧
    (∃ (n : Fin 4) (s : State), (s.dev.memState n ≠ msRun ∨ s.dev.bit (F.MEMn_STATUS.SLOT n) = true ∨ (0 < debt s.dev n ∧ debt s.dev n < 8 ∧ rtUrgent s.dev n = true) ∨ (debt s.dev n ≤ 0 ∧ (s.dev.ctl n).queue ≠ []))) ∧
    (∃ (n : Fin 4) (mult : Fin 3) (hot : Bool) (s : State), (s.dev.memState n = msRun)) ∧
    (∃ (n : Fin 4) (ps : Nat) (s : State), (s.dev.memState n = msRun ∧ s.dev.get F.MEM_TRAIN.DRIFT_THR < ps ∧ s.dev.bit (F.MEMn_STATUS.SLOT n) = false ∧ rtUrgent s.dev n = false)) ∧
    (∃ (n : Fin 4) (ps : Nat) (s : State), (s.dev.memState n = msRun ∧ s.dev.get F.MEM_TRAIN.DRIFT_THR < ps ∧ s.dev.bit (F.MEMn_STATUS.SLOT n) = false ∧ rtUrgent s.dev n = true)) ∧
    (∃ (n : Fin 4) (ps : Nat) (s : State), (s.dev.memState n ≠ msRun ∨ ps ≤ s.dev.get F.MEM_TRAIN.DRIFT_THR ∨ s.dev.bit (F.MEMn_STATUS.SLOT n) = true)) ∧
    (∃ (n : Fin 4) (ok : Bool) (s : State), (s.dev.bit (F.MEMn_STATUS.SLOT n) = true)) :=
  ⟨⟨0x121, onRegs [], by decide⟩,
   ⟨1, onRegs [(R.MEM_HASH0_LO, 0)], by decide⟩,
   ⟨3, onRegs [(R.MEMn_STATUS 3, 2)], by decide⟩,
   ⟨3, false, onRegs [(R.MEMn_STATUS 3, 3)], by decide⟩,
   ⟨1, onRegs [(R.MEMn_STATUS 1, 3)], by decide⟩,
   ⟨1, onRegs [], by decide⟩,
   ⟨1, (onRegs [(R.MEMn_STATUS 1, 3)]).but (fun d => d.setI (F.MEMn_STATUS.DEBT 1) 8), by decide⟩,
   ⟨1, onRegs [(R.MEMn_STATUS 1, 3)], by decide⟩,
   ⟨1, onRegs [], by decide⟩,
   ⟨1, 2, true, onRegs [(R.MEMn_STATUS 1, 3)], by decide⟩,
   ⟨1, 21, onRegs [(R.MEMn_STATUS 1, 3), (R.MEM_TRAIN, 20)], by decide⟩,
   ⟨1, 21, (onRegs [(R.MEMn_STATUS 1, 3), (R.MEM_TRAIN, 20), (R.MEM_LATm 0, 0x80000000)]).but (fun d => d.setCtl 1 { queue := [{ urgency := 2 }] }), by decide⟩,
   ⟨1, 20, onRegs [(R.MEMn_STATUS 1, 3), (R.MEM_TRAIN, 20)], by decide⟩,
   ⟨1, false, (onRegs [(R.MEMn_STATUS 1, 3)]).but (fun d => d.set (F.MEMn_STATUS.SLOT 1) 1), by decide⟩⟩

theorem witness_ReservoirPlansAndDomains :
    (∃ (value : Word) (crossing : Bool) (s : State), (F.RSV_PLAN.GO.of value = 0) ∧ (gateOpen s.dev (R.RSV_PLAN) = true)) ∧
    (∃ (value : Word) (crossing : Bool) (c : Nat) (n : Nat) (k : Int) (s : State), (F.RSV_PLAN.GO.of value = 1 ∧ F.RSV_PLAN.G.of value ≤ 256 ∧ n = 32 - cycleLog2 s.dev ∧ c = s.dev.get F.RSV_PLAN_CYCLE.V % 2 ^ n) ∧ (k = sx n (wrapN n ((c : Int) - cycleOf s.dev (if crossing ∧ s.dev.lining then s.dev.tb.next else s.dev.tb.count))) ∧ (if s.dev.bit F.PAIR_CFG.EN then 3 else 2) ≤ k ∧ k ≤ 63) ∧ (gateOpen s.dev (R.RSV_PLAN) = true)) ∧
    (∃ (value : Word) (crossing : Bool) (n : Nat) (k : Int) (s : State), (F.RSV_PLAN.GO.of value = 1 ∧ n = 32 - cycleLog2 s.dev) ∧ (k = sx n (wrapN n (((s.dev.get F.RSV_PLAN_CYCLE.V % 2 ^ n : Nat) : Int) - cycleOf s.dev (if crossing ∧ s.dev.lining then s.dev.tb.next else s.dev.tb.count)))) ∧ (256 < F.RSV_PLAN.G.of value ∨ k < (if s.dev.bit F.PAIR_CFG.EN then 3 else 2) ∨ 63 < k) ∧ (gateOpen s.dev (R.RSV_PLAN) = true)) ∧
    (∃ (energy : List Nat) (temps : List Int) (s : State), (∀ t ∈ temps, t < 1120)) ∧
    (∃ (k : Fin 2) (s : State), (s.dev.get (domState k) = 3 ∧ domIdle s.dev k = true ∧ domWaits s.dev k = false)) ∧
    (∃ (k : Fin 2) (s : State), (s.dev.get (domState k) ≠ 3 ∨ domIdle s.dev k = false ∨ domWaits s.dev k = true)) ∧
    (∃ (k : Fin 2) (s : State), (s.dev.get (domState k) = 1)) ∧
    (∃ (k : Fin 2) (s : State), (s.dev.get (domState k) ≠ 1)) :=
  ⟨⟨0x30080, true, onRegs [], by decide⟩,
   ⟨0x80010080, false, 2, 22, 2, onRegs [(R.RSV_PLAN_CYCLE, 2), (R.TB_LINE_CFG, 0x000A0000)], by decide⟩,
   ⟨0x80010080, true, 22, 1, (onRegs [(R.RSV_PLAN_CYCLE, 2), (R.TB_LINE_CFG, 0x000A0000), (R.TB_STATUS, 0x80000000)]).but (fun d => { d with tb := { d.tb with count := 1023, next := 1024 } }), by decide⟩,
   ⟨[65536, 7], [400, 1119], onRegs [], by decide⟩,
   ⟨1, (onRegs []).but (fun d => d.set F.RSV_POWER.CAPT_STATE 3), by decide⟩,
   ⟨0, onRegs [], by decide⟩,
   ⟨0, (onRegs []).but (fun d => d.set F.RSV_POWER.JDG_STATE 1), by decide⟩,
   ⟨1, onRegs [], by decide⟩⟩

theorem witness_RillEventsAndCells :
    (∃ (r : Fin 384) (a : RillEvent) (rest : List RillEvent) (s : State), (a.soft = false ∧ rest.all (fun x => !x.soft && (x.rill != r.val || x.stamp != a.stamp)) = true ∧ s.dev.evt.later = none ∧ s.dev.resetting 1 = false) ∧ (s.dev.evt.inflight = a :: rest ∧ a.rill = r ∧ (∀ k : Fin 64, cellOn s.dev k = false))) ∧
    (∃ (r : Fin 384) (a : RillEvent) (b : RillEvent) (rest : List RillEvent) (s : State), (a.soft = false ∧ b.soft = false ∧ rest.all (fun x => !x.soft && (x.rill != r.val || x.stamp != b.stamp)) = true ∧ s.dev.evt.later = none ∧ s.dev.resetting 1 = false) ∧ (s.dev.evt.inflight = a :: b :: rest ∧ a.rill = r ∧ b.rill = r ∧ (∀ k : Fin 64, cellOn s.dev k = false))) ∧
    (∃ (a : RillEvent) (s : State), (s.dev.evt.inflight = [a] ∧ a.soft = true ∧ a.rill < 384 ∧ s.dev.evt.later = none ∧ s.dev.resetting 1 = false ∧ (∀ k : Fin 64, cellOn s.dev k = false))) ∧
    (∃ (n : Nat) (s : State), ((∀ k : Fin 64, cellOn s.dev k = false) ∧ s.dev.evt.later = none ∧ s.dev.resetting 1 = false ∧ s.dev.evt.inflight.all (fun x => !x.soft) = true)) ∧
    (∃ (n : Nat) (l : List (Fin 384 × Nat)) (s : State), (s.dev.resetting 1 = true)) ∧
    (∃ (r : Fin 384) (a : RillEvent) (rest : List RillEvent) (k : Fin 64) (s : State), (a.soft = false ∧ rest.all (fun x => !x.soft && (x.rill != r.val || x.stamp != a.stamp)) = true ∧ s.dev.evt.later = none ∧ s.dev.resetting 1 = false) ∧ (s.dev.evt.inflight = a :: rest ∧ a.rill = r ∧ r.val ≠ 256 + k ∧ cellOn s.dev k = true ∧ (∀ j : Fin 64, j ≠ k → cellOn s.dev j = false)) ∧ (cellInput s.dev k 0 = (r.val, false) ∧ cellInput s.dev k 1 = (0x1FF, false) ∧ cellInput s.dev k 2 = (0x1FF, false) ∧ cellInput s.dev k 3 = (0x1FF, false)) ∧ (bitAt (s.dev.get (F.EVT_Ck_CFG.LUT k)) 1 = true ∧ s.dev.get (F.EVT_Ck_CFG.FILT k) = 0 ∧ s.dev.bit (F.EVT_Ck_CFG.FF k) = false ∧ s.dev.bit (F.EVT_Ck_CFG.OUT k) = false) ∧ (s.dev.get (F.EVT_Ck_RATE.RATE_MAX k) = 0 ∨ (s.dev.cell k).fired < s.dev.get (F.EVT_Ck_RATE.RATE_MAX k))) ∧
    (∃ (r : Fin 384) (a : RillEvent) (rest : List RillEvent) (k : Fin 64) (s : State), (a.soft = false ∧ rest.all (fun x => !x.soft && (x.rill != r.val || x.stamp != a.stamp)) = true ∧ s.dev.evt.later = none ∧ s.dev.resetting 1 = false) ∧ (s.dev.evt.inflight = a :: rest ∧ a.rill = r ∧ r.val ≠ 256 + k ∧ cellOn s.dev k = true ∧ (∀ j : Fin 64, j ≠ k → cellOn s.dev j = false)) ∧ (cellInput s.dev k 0 = (r.val, false) ∧ cellInput s.dev k 1 = (0x1FF, false) ∧ cellInput s.dev k 2 = (0x1FF, false) ∧ cellInput s.dev k 3 = (0x1FF, false)) ∧ (bitAt (s.dev.get (F.EVT_Ck_CFG.LUT k)) 1 = true ∧ s.dev.get (F.EVT_Ck_CFG.FILT k) = 0 ∧ s.dev.bit (F.EVT_Ck_CFG.FF k) = false ∧ s.dev.bit (F.EVT_Ck_CFG.OUT k) = false) ∧ (s.dev.get (F.EVT_Ck_RATE.RATE_MAX k) ≠ 0 ∧ s.dev.get (F.EVT_Ck_RATE.RATE_MAX k) ≤ (s.dev.cell k).fired)) ∧
    (∃ (k : Fin 64) (f : Bool) (s : State), (cellOn s.dev k = true ∧ (∀ j : Fin 64, j ≠ k → cellOn s.dev j = false) ∧ f = bitAt (s.dev.get (F.EVT_Ck_CFG.LUT k)) 0) ∧ (cellInput s.dev k 0 = (0x1FF, false) ∧ cellInput s.dev k 1 = (0x1FF, false) ∧ cellInput s.dev k 2 = (0x1FF, false) ∧ cellInput s.dev k 3 = (0x1FF, false)) ∧ ((s.dev.cell k).cand = f ∧ (s.dev.cell k).passed = (!f) ∧ 0 < (s.dev.cell k).held ∧ (s.dev.cell k).held < s.dev.get (F.EVT_Ck_CFG.FILT k) ∧ s.dev.evt.later = none ∧ s.dev.resetting 1 = false ∧ s.dev.evt.inflight.all (fun x => !x.soft) = true) ∧ (s.dev.bit (F.EVT_Ck_CFG.FF k) = false ∧ s.dev.bit (F.EVT_Ck_CFG.OUT k) = (!f) ∧ s.dev.get (F.EVT_Ck_RATE.RATE_MAX k) = 0)) ∧
    (∃ (k : Fin 64) (s : State), (cellOn s.dev k = false ∨ (s.dev.cell k).held = 0 ∨ s.dev.get (F.EVT_Ck_CFG.FILT k) ≤ (s.dev.cell k).held)) ∧
    (∃ (value : Word) (s : State), (F.EVT_FIRE.RILL.of value ≤ 383) ∧ (gateOpen s.dev (R.EVT_FIRE) = true)) ∧
    (∃ (value : Word) (s : State), (383 < F.EVT_FIRE.RILL.of value) ∧ (gateOpen s.dev (R.EVT_FIRE) = true)) ∧
    (∃ (hi : Bool) (i : Fin 32) (value : Word) (k : Nat) (s : State), (k = (if hi then 32 + i.val else i.val) ∧ (s.dev.cell k).tripAt = some (s.dev.tb.edges, s.dev.evt.cycle)) ∧ (gateOpen s.dev (R.EVT_REARM_LO) = true)) ∧
    (∃ (hi : Bool) (value : Word) (s : State), (∀ k : Fin 64, (s.dev.cell k).tripAt ≠ some (s.dev.tb.edges, s.dev.evt.cycle)) ∧ (gateOpen s.dev (R.EVT_REARM_LO) = true)) :=
  ⟨⟨383, { rill := 383, stamp := 5 }, [{ rill := 383, stamp := 6 }], (onRegs [(R.EVT_RIj_EN 23, 0xFFFF)]).but (fun d => { d with evt := { d.evt with inflight := [{ rill := 383, stamp := 5 }, { rill := 383, stamp := 6 }] } }), by decide⟩,
   ⟨0, { rill := 0, stamp := 6 }, { rill := 0, stamp := 5 }, [], (onRegs []).but (fun d => { d with evt := { d.evt with inflight := [{ rill := 0, stamp := 6 }, { rill := 0, stamp := 5 }] } }), by decide⟩,
   ⟨{ rill := 383, stamp := 5, soft := true }, (onRegs [(R.EVT_RIj_EN 23, 0xFFFF)]).but (fun d => { d with evt := { d.evt with inflight := [{ rill := 383, stamp := 5, soft := true }] } }), by decide⟩,
   ⟨3, onRegs [], by decide⟩,
   ⟨3, [(118, 1)], (onRegs [(R.FLT_STATUS, 0x10000)]).but (fun d => { d with evt := { d.evt with inflight := [{ rill := 118 }] } }), by decide⟩,
   ⟨7, { rill := 7, stamp := 5 }, [], 63, (onRegs [(R.EVT_Ck_CFG 63, 0x80000002), (R.EVT_Ck_IN01 63, 0x01FF0007), (R.EVT_Ck_IN23 63, 0x01FF01FF)]).but (fun d => { d with evt := { d.evt with inflight := [{ rill := 7, stamp := 5 }] } }), by decide⟩,
   ⟨7, { rill := 7, stamp := 5 }, [], 63, (onRegs [(R.EVT_Ck_CFG 63, 0x80000002), (R.EVT_Ck_IN01 63, 0x01FF0007), (R.EVT_Ck_IN23 63, 0x01FF01FF), (R.EVT_Ck_RATE 63, 1)]).but (fun d => { d with evt := { d.evt with inflight := [{ rill := 7, stamp := 5 }] } }.setCell 63 { fired := 1 }), by decide⟩,
   ⟨5, true, (onRegs [(R.EVT_Ck_CFG 5, 0x80040001), (R.EVT_Ck_IN01 5, 0x01FF01FF), (R.EVT_Ck_IN23 5, 0x01FF01FF)]).but (fun d => d.setCell 5 { cand := true, held := 2, lastStamp := 9 }), by decide⟩,
   ⟨5, onRegs [], by decide⟩,
   ⟨383, onRegs [], by decide⟩,
   ⟨384, onRegs [], by decide⟩,
   ⟨true, 31, 0x80000000, 63, (onRegs [(R.EVT_TRIPPED_HI, 0x80000001)]).but (fun d => d.setCell 63 { tripAt := some (0, 0) }), by decide⟩,
   ⟨true, 0x80000000, (onRegs [(R.EVT_TRIPPED_HI, 0x80000001)]).but (fun d => d.setCell 63 { fired := 1 }), by decide⟩⟩

theorem witness_PeerReception :
    (∃ (n : Fin 3) (h : PeerHdr) (r : Nat) (s : State), ((s.dev.peerState n < plTrain ∨ peerHears s.dev n = false) ∧ h.confirm = none)) ∧
    (∃ (n : Fin 3) (h : PeerHdr) (r : Nat) (s : State), (takesFrame s.dev n h = true ∧ h.rel = none)) ∧
    (∃ (n : Fin 3) (h : PeerHdr) (b : HelloBody) (k : Nat) (s : State), (takesFrame s.dev n h = true ∧ h.rel = some k ∧ k ≠ (s.dev.peer n).relRx)) ∧
    (∃ (n : Fin 3) (h : PeerHdr) (b : HelloBody) (s : State), (takesFrame s.dev n h = true ∧ h.rel = some (s.dev.peer n).relRx ∧ s.dev.peerState n = plHello ∧ helloOk s.dev n b = true)) ∧
    (∃ (n : Fin 3) (h : PeerHdr) (b : HelloBody) (s : State), (takesFrame s.dev n h = true ∧ h.rel = some (s.dev.peer n).relRx ∧ s.dev.peerState n = plHello ∧ helloOk s.dev n b = false)) ∧
    (∃ (n : Fin 3) (h : PeerHdr) (b : PeerBody) (w : WindowReq) (q : Nat) (s : State), (plTrain ≤ s.dev.peerState n ∧ peerHears s.dev n = true ∧ (s.dev.peer n).resting = false ∧ h.confirm = none ∧ h.rel = none ∧ h.dst ≠ 0xFF ∧ h.dst ≠ deviceId s.dev ∧ b = .window w) ∧ (h.hops ≤ 14 ∧ routeTo s.dev h.dst = some q ∧ q < 3 ∧ q ≠ n)) ∧
    (∃ (n : Fin 3) (h : PeerHdr) (w : WindowReq) (s : State), (plTrain ≤ s.dev.peerState n ∧ peerHears s.dev n = true ∧ (s.dev.peer n).resting = false ∧ h.confirm = none ∧ h.rel = none ∧ h.dst ≠ 0xFF ∧ h.dst ≠ deviceId s.dev ∧ 15 ≤ h.hops)) ∧
    (∃ (n : Fin 3) (h : PeerHdr) (w : WindowReq) (j : Int) (lo : Int) (hi : Int) (s : State), (takesFrame s.dev n h = true ∧ h.rel = none ∧ j = s.dev.countOf h.line ∧ lo = w.lo - gridUnits (s.dev.asOf j) ∧ hi = w.hi - gridUnits (s.dev.asOf j)) ∧ (covering (s.dev.asOf j) w.row lo hi = [])) ∧
    (∃ (n : Fin 3) (h : PeerHdr) (w : WindowReq) (j : Int) (lo : Int) (hi : Int) (c : Nat) (opn : Nat) (cls : Nat) (s : State), (takesFrame s.dev n h = true ∧ h.rel = none ∧ j = s.dev.countOf h.line ∧ lo = w.lo - gridUnits (s.dev.asOf j) ∧ hi = w.hi - gridUnits (s.dev.asOf j)) ∧ (covering (s.dev.asOf j) w.row lo hi = [c] ∧ s.dev.ej.windows = [] ∧ s.dev.resetting 5 = false) ∧ (opn = wrapN 64 ((w.tF : Int) - asStamps s.dev (s.dev.asOf j) j ((s.dev.asOf j).get (F.EJ_Vc_OPEN.OPEN_LEAD c)) - asStamps s.dev (s.dev.asOf j) j (1000 * (s.dev.asOf j).get (F.EJ_TIMEr.PRE w.row)))) ∧ (cls = wrapN 64 ((w.tB : Int) - asStamps s.dev (s.dev.asOf j) j ((s.dev.asOf j).get (F.EJ_Vc_CLOSE.CLOSE_LEAD c)) + asStamps s.dev (s.dev.asOf j) j (1000 * (s.dev.asOf j).get (F.EJ_TIMEr.POST w.row)))) ∧ (0 < stampDiff cls (transportNow s.dev) ∧ 0 ≤ stampDiff opn (transportNow s.dev))) ∧
    (∃ (n : Fin 3) (h : PeerHdr) (b : TimeBody) (s : State), (takesFrame s.dev n h = true ∧ h.rel = none)) ∧
    (∃ (n : Fin 3) (h : PeerHdr) (ts : Nat) (v : Int) (l : Int) (s : State), (takesFrame s.dev n h = true ∧ h.rel = none ∧ isPrivate s.dev n = true ∧ l = s.dev.countOf h.line ∧ (s.dev.asOf l).bit F.TB_LINE_CFG.BELT = true) ∧ ((s.dev.pairState = pairPassive ∨ s.dev.pairState = pairJoin) ∧ s.dev.slu.old = none)) ∧
    (∃ (n : Fin 3) (h : PeerHdr) (b : DigestBody) (s : State), (takesFrame s.dev n h = true ∧ h.rel = some (s.dev.peer n).relRx ∧ isPrivate s.dev n = true)) ∧
    (∃ (n : Fin 3) (h : PeerHdr) (b : PairStatus) (s : State), (takesFrame s.dev n h = true ∧ h.rel = none ∧ isPrivate s.dev n = true)) ∧
    (∃ (n : Fin 3) (h : PeerHdr) (line : Nat) (b : PlanBody) (part : Nat) (s : State), (takesFrame s.dev n h = true ∧ h.rel = some (s.dev.peer n).relRx ∧ isPrivate s.dev n = true ∧ s.dev.pairState = pairPassive) ∧ (s.dev.lining = false ∨ s.dev.tb.count < s.dev.countOf line)) ∧
    (∃ (n : Fin 3) (h : PeerHdr) (line : Nat) (b : PlanBody) (part : Nat) (s : State), (takesFrame s.dev n h = true ∧ h.rel = some (s.dev.peer n).relRx ∧ isPrivate s.dev n = true ∧ s.dev.pairState = pairPassive) ∧ (s.dev.lining = true ∧ s.dev.countOf line ≤ s.dev.tb.count)) ∧
    (∃ (n : Fin 3) (h : PeerHdr) (a : Nat) (s : State), (takesFrame s.dev n h = true ∧ h.rel = some (s.dev.peer n).relRx ∧ isPrivate s.dev n = false ∧ paired s.dev = false) ∧ (s.dev.sluState = sluOpen ∧ s.dev.safe = false ∧ bootFailed s.dev = false ∧ s.dev.lining = false ∧ a < 2 ^ 32)) ∧
    (∃ (n : Fin 3) (h : PeerHdr) (wr : Bool) (addr : Nat) (data : Word) (s : State), (takesFrame s.dev n h = true ∧ h.rel = some (s.dev.peer n).relRx ∧ s.dev.bit (F.PEERn_CFG.ACCESS_EN n) = false ∧ (routeTo s.dev h.src).getD n = n)) ∧
    (∃ (n : Fin 3) (h : PeerHdr) (data : Word) (s : State), (takesFrame s.dev n h = true ∧ h.rel = some (s.dev.peer n).relRx ∧ s.dev.bit (F.PEERn_CFG.ACCESS_EN n) = true ∧ s.dev.resetting 1 = false ∧ s.dev.boot.phase ≠ .reset ∧ (routeTo s.dev h.src).getD n = n)) ∧
    (∃ (n : Fin 3) (h : PeerHdr) (data : Word) (s : State), (takesFrame s.dev n h = true ∧ h.rel = some (s.dev.peer n).relRx ∧ s.dev.bit (F.PEERn_CFG.ACCESS_EN n) = true ∧ s.dev.resetting 1 = false ∧ s.dev.boot.phase ≠ .reset ∧ (routeTo s.dev h.src).getD n = n)) ∧
    (∃ (n : Fin 3) (h : PeerHdr) (word : Nat) (k : Nat) (b : Nat) (post : Nat) (pre : Nat) (s : State), (takesFrame s.dev n h = true ∧ h.rel = none ∧ k = bitsOf word 9 8 ∧ 2 ≤ k)) ∧
    (∃ (n : Fin 3) (h : PeerHdr) (word : Nat) (k : Nat) (b : Nat) (s : State), (takesFrame s.dev n h = true ∧ h.rel = none ∧ k = bitsOf word 9 8 ∧ k < 2 ∧ b = laneBase (peerTxLane n k) ∧ bitAt word 7 = true)) ∧
    (∃ (n : Fin 3) (h : PeerHdr) (word : Nat) (k : Nat) (b : Nat) (post : Nat × Nat) (pre : Nat × Nat) (s : State), (takesFrame s.dev n h = true ∧ h.rel = none ∧ k = bitsOf word 9 8 ∧ k < 2 ∧ b = laneBase (peerTxLane n k) ∧ bitAt word 7 = false) ∧ (post = stepTap (bitsOf word 3 2) (s.dev.get (F.LN_TX_TAPS.C_POST b)) (min 31 (23 - s.dev.get (F.LN_TX_TAPS.C_PRE b))) ∧ pre = stepTap (bitsOf word 1 0) (s.dev.get (F.LN_TX_TAPS.C_PRE b)) (min 15 (23 - post.1)))) :=
  ⟨⟨2, {}, 0, linked [], by decide⟩,
   ⟨2, { seq := 5 }, 1, (linked [(R.PEERn_STATUS 2, 5)]).but (fun d => d.setPeer 2 { seqRx := some 3, unacked := [{ rel := 1 }, { rel := 2 }] }), by decide⟩,
   ⟨2, { rel := some 4 }, {}, 4, linked [(R.PEERn_STATUS 2, 4)], by decide⟩,
   ⟨2, { rel := some 0 }, {}, linked [(R.PEERn_STATUS 2, 4)], by decide⟩,
   ⟨2, { rel := some 0 }, { pairChain := 0x80000000 }, linked [(R.PEERn_STATUS 2, 4)], by decide⟩,
   ⟨2, { dst := 7, hops := 14 }, .window {}, {}, 1, linked [(R.PEERn_STATUS 2, 5), (R.PEERn_STATUS 1, 5), (R.PAIR_ROUTEd 7, 0x90000000)], by decide⟩,
   ⟨2, { dst := 7, hops := 15 }, {}, linked [(R.PEERn_STATUS 2, 5)], by decide⟩,
   ⟨2, {}, {}, 0, 0, 0, linked [(R.PEERn_STATUS 2, 5)], by decide +kernel⟩,
   ⟨2, {}, { row := 1, lo := 0, hi := 32, tF := 5000000, tB := 6000000 }, 0, 0, 32, 5, 5000000, 6000000, linked [(R.PEERn_STATUS 2, 5), (R.SPn_CFG 0, 0x81001000), (R.EJ_Vc_MAP 5, 0x80010000)], by decide +kernel⟩,
   ⟨2, {}, { tx := 700 }, linked [(R.PEERn_STATUS 2, 5)], by decide⟩,
   ⟨2, { line := 9 }, 77, -5, 9, linked [(R.PEERn_STATUS 2, 5), (R.PAIR_CFG, 0x88000000), (R.PAIR_STATUS, 2), (R.TB_LINE_CFG, 0x400A0000)], by decide⟩,
   ⟨2, { rel := some 0 }, { cycle := 4, digest := 5 }, linked [(R.PEERn_STATUS 2, 5), (R.PAIR_CFG, 0x88000000), (R.PAIR_STATUS, 2)], by decide⟩,
   ⟨2, {}, { state := 3 }, linked [(R.PEERn_STATUS 2, 5), (R.PAIR_CFG, 0x88000000), (R.PAIR_STATUS, 2)], by decide⟩,
   ⟨2, { rel := some 0 }, 64, {}, 0, linked [(R.PEERn_STATUS 2, 5), (R.PAIR_CFG, 0x88000000), (R.PAIR_STATUS, 2)], by decide⟩,
   ⟨2, { rel := some 0 }, 0, {}, 0, linked [(R.PEERn_STATUS 2, 5), (R.PAIR_CFG, 0x88000000), (R.PAIR_STATUS, 2), (R.TB_STATUS, 0x80000000), (R.TB_LINE_CFG, 0x800A0000)], by decide⟩,
   ⟨2, { rel := some 0, src := 3 }, 100, linked [(R.PEERn_STATUS 2, 5)], by decide⟩,
   ⟨2, { rel := some 0, src := 3 }, true, 0x10020010, 7, linked [(R.PEERn_STATUS 2, 5)], by decide⟩,
   ⟨2, { rel := some 0, src := 3 }, 0, linked [(R.PEERn_STATUS 2, 5), (R.PEERn_CFG 2, 0xC0000000)], by decide⟩,
   ⟨2, { rel := some 0, src := 3 }, 12, linked [(R.PEERn_STATUS 2, 5), (R.PEERn_CFG 2, 0xC0000000)], by decide⟩,
   ⟨2, {}, 0x204, 2, 0, 0, 0, linked [(R.PEERn_STATUS 2, 2)], by decide⟩,
   ⟨2, {}, 0x180, 1, laneBase (peerTxLane 2 1), linked [(R.PEERn_STATUS 2, 2), (R.LN_TX_TAPS (laneBase (peerTxLane 2 1)), 0)], by decide⟩,
   ⟨2, {}, 0x104, 1, laneBase (peerTxLane 2 1), (1, 1), (0, 0), linked [(R.PEERn_STATUS 2, 2), (R.LN_TX_TAPS (laneBase (peerTxLane 2 1)), 0)], by decide⟩⟩

theorem witness_PeerSendingAndRecovery :
    (∃ (n : Fin 3) (f : PeerFrame) (s : State), (plTrain ≤ s.dev.peerState n ∧ (s.dev.peer n).resting = false ∧ lnSends s.dev (peerTxLane n 0) = true ∧ lnSends s.dev (peerTxLane n 1) = true) ∧ (firstReady (s.dev.peer n).ready = some f ∧ isReliable f.body = true ∧ f.rel = none)) ∧
    (∃ (n : Fin 3) (f : PeerFrame) (s : State), (plTrain ≤ s.dev.peerState n ∧ (s.dev.peer n).resting = false ∧ lnSends s.dev (peerTxLane n 0) = true ∧ lnSends s.dev (peerTxLane n 1) = true) ∧ (firstReady (s.dev.peer n).ready = some f ∧ (isReliable f.body = false ∨ f.rel.isSome = true))) ∧
    (∃ (n : Fin 3) (s : State), (s.dev.peerState n < plTrain ∨ (s.dev.peer n).resting = true ∨ (s.dev.peer n).ready = [] ∨ ¬ (lnSends s.dev (peerTxLane n 0) = true ∧ lnSends s.dev (peerTxLane n 1) = true))) ∧
    (∃  (s : State), (s.dev.pr.counters = none ∧ s.dev.pr.serve = none)) ∧
    (∃ (n : Fin 3) (r : Nat) (u : Unacked) (s : State), ((s.dev.peer n).unacked.find? (fun x => x.rel = r) = some u ∧ u.repeats < 8)) ∧
    (∃ (n : Fin 3) (r : Nat) (u : Unacked) (s : State), ((s.dev.peer n).unacked.find? (fun x => x.rel = r) = some u ∧ 8 ≤ u.repeats ∧ s.dev.peerState n = plUp ∧ peerSync s.dev n = false)) ∧
    (∃ (n : Fin 3) (s : State), (s.dev.peerState n = plUp ∧ peerSync s.dev n = false)) ∧
    (∃ (n : Fin 3) (s : State), (s.dev.peerState n ≠ plUp)) ∧
    (∃ (n : Fin 3) (s : State), ((s.dev.peer n).resting = false ∧ plLaneWake ≤ s.dev.peerState n ∧ s.dev.peerState n ≤ plHello ∧ ¬ (s.dev.peerState n = plHello ∧ (s.dev.peer n).greeted = true))) ∧
    (∃ (n : Fin 3) (s : State), ((s.dev.peer n).resting = true ∧ peerSync (s.dev.setPeer n { s.dev.peer n with resting := false }) n = false ∧ s.dev.peerState n = plLaneWake)) ∧
    (∃ (n : Fin 3) (skew : List Int) (rest : List LinkEvent) (s : State), (s.dev.peerState n = plDeskew ∧ (s.dev.peer n).deskewOk = 1 ∧ peerSync s.dev n = true ∧ (s.dev.peer n).rx.events = .marker true skew :: rest)) ∧
    (∃ (n : Fin 3) (skew : List Int) (rest : List LinkEvent) (s : State), ((s.dev.peer n).rx.events = .marker false skew :: rest)) ∧
    (∃ (n : Fin 3) (k : Fin 2) (s : State), (s.dev.peerState n = plUp) ∧ (gateOpen s.dev (R.LN_CTRL (laneBase (.peerRx n k))) = true)) ∧
    (∃ (n : Fin 3) (word : Word) (s : State), ((s.dev.peer n).trainReq = none ∨ (s.dev.peer n).trainReq ≠ some (bitsOf word.toNat 25 24))) ∧
    (∃ (n : Fin 3) (word : Word) (k : Nat) (t : Training) (s : State), (k = bitsOf word.toNat 25 24 ∧ (s.dev.peer n).trainReq = some k ∧ (s.dev.laneX (peerRxLane n k)).train = some t)) ∧
    (∃ (n : Fin 3) (k : Nat) (t : Training) (s : State), (k < 2 ∧ (s.dev.peer n).trainReq = some k ∧ (s.dev.laneX (peerRxLane n k)).train = some t ∧ t.resends < 3)) :=
  ⟨⟨1, { body := .digest {} }, (onRegs [(R.PEERn_STATUS 1, 5), (R.LN_STATUS (laneBase (peerTxLane 1 0)), 8), (R.LN_STATUS (laneBase (peerTxLane 1 1)), 8)]).but (fun d => d.setPeer 1 { ready := [{ body := .hello {} }, { body := .digest {} }] }), by decide⟩,
   ⟨1, { body := .line 5 6 }, (onRegs [(R.PEERn_STATUS 1, 5), (R.LN_STATUS (laneBase (peerTxLane 1 0)), 8), (R.LN_STATUS (laneBase (peerTxLane 1 1)), 8)]).but (fun d => d.setPeer 1 { ready := [{ body := .window {} }, { body := .line 5 6 }] }), by decide⟩,
   ⟨1, onRegs [], by decide⟩,
   ⟨onRegs [(R.PEERn_STATUS 2, 5)], by decide⟩,
   ⟨0, 3, { rel := 3, repeats := 7 }, (onRegs []).but (fun d => d.setPeer 0 { unacked := [{ rel := 3, repeats := 7 }] }), by decide⟩,
   ⟨0, 3, { rel := 3, repeats := 8 }, (onRegs [(R.PEERn_STATUS 0, 5)]).but (fun d => d.setPeer 0 { unacked := [{ rel := 3, repeats := 8 }] }), by decide⟩,
   ⟨2, onRegs [(R.PEERn_STATUS 2, 5), (R.LCKk 8, 9)], by decide⟩,
   ⟨2, onRegs [], by decide⟩,
   ⟨2, onRegs [(R.PEERn_STATUS 2, 3)], by decide⟩,
   ⟨2, (onRegs [(R.PEERn_STATUS 2, 1)]).but (fun d => d.setPeer 2 { resting := true }), by decide⟩,
   ⟨2, [64], [], (onRegs [(R.PEERn_STATUS 2, 3)]).but (fun d => ((d.setPeer 2 { deskewOk := 1, rx := { events := [.marker true [64]] } }).set (F.LN_STATUS.STATE (laneBase (peerRxLane 2 0))) lnSync).set (F.LN_STATUS.STATE (laneBase (peerRxLane 2 1))) lnSync), by decide⟩,
   ⟨2, [65], [], (onRegs []).but (fun d => d.setPeer 2 { deskewBad := 1, rx := { marks := some [1, 1], events := [.marker false [65]] } }), by decide⟩,
   ⟨2, 1, onRegs [(R.PEERn_STATUS 2, 5)], by decide⟩,
   ⟨2, 0, onRegs [], by decide⟩,
   ⟨2, 0x01000000, 1, {}, (onRegs []).but (fun d => (d.setPeer 2 { trainReq := some 1 }).setLaneX (peerRxLane 2 1) { train := some {} }), by decide⟩,
   ⟨2, 1, { resends := 2 }, (onRegs []).but (fun d => (d.setPeer 2 { trainReq := some 1 }).setLaneX (peerRxLane 2 1) { train := some { resends := 2 } }), by decide⟩⟩

theorem witness_PairTransitions :
    (∃  (s : State), (s.dev.pairState = pairPassive)) ∧
    (∃  (s : State), (s.dev.pairState ≠ pairPassive)) ∧
    (∃  (s : State), (paired s.dev = true ∧ s.dev.slu.applied = true ∧ s.dev.pairState = pairOff ∧ s.dev.bit F.PAIR_CFG.HOME = false ∧ partnerActive s.dev = false)) ∧
    (∃  (s : State), (paired s.dev = true ∧ s.dev.slu.applied = true ∧ s.dev.pairState = pairOff ∧ s.dev.bit F.PAIR_CFG.HOME = true ∧ s.dev.pr.status = none)) ∧
    (∃  (s : State), (paired s.dev = false ∨ s.dev.slu.applied = false ∨ s.dev.pairState ≠ pairOff ∨ (s.dev.bit F.PAIR_CFG.HOME = true ∧ s.dev.pr.status ≠ none) ∨ (s.dev.bit F.PAIR_CFG.HOME = false ∧ partnerActive s.dev = true))) ∧
    (∃  (s : State), (s.dev.pairState = pairActive) ∧ (gateOpen s.dev (R.PAIR_CTRL) = true)) ∧
    (∃  (s : State), (s.dev.pairState ≠ pairActive) ∧ (gateOpen s.dev (R.PAIR_CTRL) = true)) ∧
    (∃  (s : State), (s.dev.pairState ≠ pairOff) ∧ (gateOpen s.dev (R.PAIR_CTRL) = true)) ∧
    (∃  (s : State), (s.dev.pairState = pairOff) ∧ (gateOpen s.dev (R.PAIR_CTRL) = true)) ∧
    (∃ (p : Nat) (s : State), (p = s.dev.get F.PAIR_CFG.PORT ∧ p < 3 ∧ paired s.dev = true ∧ s.dev.peerState p = plHello ∧ (s.dev.peer p).greeted = true ∧ s.dev.bit F.PAIR_CFG.HOME = false)) ∧
    (∃  (s : State), (s.dev.bit F.PAIR_CFG.HOME = true)) ∧
    (∃  (s : State), (s.dev.pr.self = .running)) ∧
    (∃  (s : State), (s.dev.pr.self = .running ∧ s.dev.pr.farSelf = 0)) ∧
    (∃  (s : State), (s.dev.pr.self = .running ∧ s.dev.pr.farSelf = 1 ∧ s.dev.bit F.PAIR_CFG.HOME = true ∧ s.dev.pairState = pairPassive)) ∧
    (∃ (x : OpenCycle) (rest : List OpenCycle) (s : State), (s.dev.pr.cycles = x :: rest ∧ cycleDone s.dev x = true ∧ privateUp s.dev = false)) ∧
    (∃ (x : OpenCycle) (rest : List OpenCycle) (p : Nat) (s : State), (s.dev.pr.cycles = x :: rest ∧ cycleDone s.dev x = true ∧ privateUp s.dev = true ∧ p = s.dev.get F.PAIR_CFG.PORT ∧ s.dev.pr.far.find? (fun y => y.cycle = x.cycle) = none)) ∧
    (∃  (s : State), (s.dev.pr.cycles = [] ∨ (s.dev.pr.cycles.take 1).all (fun x => cycleDone s.dev x) = false)) ∧
    (∃ (x : OpenCycle) (s : State), (s.dev.pr.cycles.find? (fun y => y.last.isSome && !y.late) = some x)) ∧
    (∃  (s : State), (s.dev.pr.cycles.find? (fun y => y.last.isSome && !y.late) = none)) :=
  ⟨⟨onRegs [(R.PAIR_STATUS, 0x0FFF0002), (R.PAIR_CFG, 0x80000000)], by decide⟩,
   ⟨onRegs [], by decide⟩,
   ⟨(onRegs [(R.PAIR_CFG, 0x80000000)]).but (fun d => { d with slu := { d.slu with applied := true } }), by decide⟩,
   ⟨(onRegs [(R.PAIR_CFG, 0xC0000000)]).but (fun d => { d with slu := { d.slu with applied := true } }), by decide⟩,
   ⟨onRegs [], by decide⟩,
   ⟨onRegs [(R.PAIR_STATUS, 3)], by decide⟩,
   ⟨onRegs [], by decide⟩,
   ⟨onRegs [(R.PAIR_STATUS, 4)], by decide⟩,
   ⟨onRegs [], by decide⟩,
   ⟨2, (onRegs [(R.PAIR_CFG, 0x88000000), (R.PEERn_STATUS 2, 4)]).but (fun d => d.setPeer 2 { greeted := true }), by decide⟩,
   ⟨onRegs [(R.PAIR_CFG, 0x40000000)], by decide⟩,
   ⟨(onRegs [(R.PAIR_STATUS, 0x23)]).but (fun d => d.withPair { d.pr with self := .running }), by decide⟩,
   ⟨(onRegs [(R.PAIR_STATUS, 0x23)]).but (fun d => d.withPair { d.pr with self := .running }), by decide⟩,
   ⟨(onRegs [(R.PAIR_CFG, 0xC0000000), (R.PAIR_STATUS, 0x22)]).but (fun d => d.withPair { d.pr with self := .running, farSelf := 1 }), by decide⟩,
   ⟨{ cycle := 4, last := some 9 }, [{ cycle := 5 }], (onRegs [(R.SPn_STATUS 1, 2)]).but (fun d => d.withPair { d.pr with cycles := [{ cycle := 4, last := some 9 }, { cycle := 5 }] }), by decide⟩,
   ⟨{ cycle := 4, last := some 9 }, [{ cycle := 5 }], 2, (onRegs [(R.PAIR_CFG, 0x88000000), (R.PEERn_STATUS 2, 5)]).but (fun d => d.withPair { d.pr with cycles := [{ cycle := 4, last := some 9 }, { cycle := 5 }], selfOut := 1 }), by decide⟩,
   ⟨(onRegs []).but (fun d => d.withPair { d.pr with cycles := [{}] }), by decide⟩,
   ⟨{ cycle := 4, last := some 9, nextT := 100 }, (onRegs [(R.SPn_STATUS 1, 1)]).but (fun d => d.withPair { d.pr with cycles := [{ cycle := 4, last := some 9, nextT := 100 }] }), by decide⟩,
   ⟨onRegs [], by decide⟩⟩

theorem witness_SafeStateAndSupervision :
    (∃  (s : State), (s.dev.safe = false) ∧ (gateOpen s.dev (R.FLT_CTRL) = true)) ∧
    (∃  (s : State), (exitAllowed s.dev = false) ∧ (gateOpen s.dev (R.FLT_CTRL) = true)) ∧
    (∃ (c : ChipCause) (k : Nat) (s : State), (s.dev.safe = true) ∧ (gateOpen s.dev (R.FLT_CTRL) = true)) ∧
    (∃  (s : State), (exitAllowed s.dev = true) ∧ (gateOpen s.dev (R.FLT_CTRL) = true)) ∧
    (∃ (cause : RefclkCause) (s : State), (s.dev.flt.refOk = true ∧ s.dev.safe = false)) ∧
    (∃ (cause : RefclkCause) (s : State), (s.dev.flt.refOk = false)) ∧
    (∃ (levels : List Nat) (s : State), (s.dev.boot.phase ≠ .reset ∧ (levels.zip (List.range 10)).any (fun l => decide (100 * l.1 < 85 * railNominal s.dev l.2)) = true)) ∧
    (∃ (levels : List Nat) (s : State), (s.dev.boot.phase ≠ .reset ∧ coreSetBad s.dev = false ∧ levels.length = 10 ∧ (levels.zip (List.range 10)).all (fun l => !railOutside s.dev l.2 5 l.1) = true) ∧ ((levels.zip (List.range 10)).all (fun l => decide (85 * railNominal s.dev l.2 ≤ 100 * l.1)) = true)) ∧
    (∃ (levels : List Nat) (k : Nat) (s : State), (s.dev.boot.phase ≠ .reset ∧ s.dev.safe = false ∧ (levels.zip (List.range 10)).all (fun l => decide (85 * railNominal s.dev l.2 ≤ 100 * l.1)) = true) ∧ (((levels.zip (List.range 10)).filter (fun l => railOutside s.dev l.2 10 l.1)).map Prod.snd = [k] ∧ s.dev.flt.badRails = [k] ∧ s.dev.flt.railCauses = [])) ∧
    (∃ (levels : List Nat) (k : Nat) (s : State), (s.dev.boot.phase ≠ .reset ∧ coreSetBad s.dev = false ∧ (levels.zip (List.range 10)).all (fun l => decide (85 * railNominal s.dev l.2 ≤ 100 * l.1)) = true) ∧ (((levels.zip (List.range 10)).filter (fun l => railOutside s.dev l.2 5 l.1)).map Prod.snd = [k] ∧ (levels.zip (List.range 10)).all (fun l => !railOutside s.dev l.2 10 l.1) = true)) ∧
    (∃ (levels : List Nat) (s : State), (s.dev.boot.phase = .reset)) ∧
    (∃ (energy : List Nat) (temps : List Int) (k : Nat) (s : State), (((temps.zip (List.range 16)).filter (fun x => decide (1120 ≤ x.1))).map Prod.snd = [k] ∧ s.dev.flt.hot.contains k = true ∧ s.dev.flt.hotCauses = [] ∧ s.dev.safe = false)) ∧
    (∃  (s : State), (gateOpen s.dev (R.FLT_CTRL) = true)) :=
  ⟨⟨onRegs [(R.SPn_STATUS 1, 1), (R.CHIP_PINS, 7)], by decide⟩,
   ⟨onRegs [], by decide⟩,
   ⟨.memory, 2, onRegs [(R.FLT_STATUS, 0x80000406)], by decide⟩,
   ⟨onRegs [(R.FLT_STATUS, 0x80000406)], by decide⟩,
   ⟨.unlocked, onRegs [], by decide⟩,
   ⟨.noEdge, (onRegs []).but (fun d => d.withFlt { d.flt with refOk := false }), by decide⟩,
   ⟨[800, 679], (onRegs []).but (fun d => { d with boot := { d.boot with phase := .done }, flt := { d.flt with coreSet := 800 } }), by decide⟩,
   ⟨[800, 800, 850, 1200, 500, 1050, 850, 1800, 1800, 1800], (onRegs []).but (fun d => { d with boot := { d.boot with phase := .done }, flt := { d.flt with coreSet := 800, tioSet := 1800 } }), ⟨⟨by decide, coreSet_800, by decide⟩, by decide⟩⟩,
   ⟨[1000, 800], 0, (onRegs []).but (fun d => { d with boot := { d.boot with phase := .done }, flt := { d.flt with coreSet := 800, badRails := [0] } }), by decide⟩,
   ⟨[860, 800], 0, (onRegs []).but (fun d => { d with boot := { d.boot with phase := .done }, flt := { d.flt with coreSet := 800, badRails := [0] } }), ⟨⟨by decide, coreSet_800, by decide⟩, by decide⟩⟩,
   ⟨[1], { dev := {} }, by decide⟩,
   ⟨[], [0, 1120], 1, (onRegs []).but (fun d => d.withFlt { d.flt with hot := [1] }), by decide⟩,
   ⟨onRegs [], by decide⟩⟩

theorem witness_ChipCauseAgainstExit :
    (∃ (n : Fin 4) (s : State), (gateOpen s.dev R.FLT_CTRL = true ∧ coreStops { master := .core n, addr := R.FLT_CTRL } true s.dev = none)) ∧
    (∃  (s : State), (s.dev.safe = true) ∧ (gateOpen s.dev (R.FLT_CTRL) = true)) ∧
    (∃ (cause : RefclkCause) (s : State), (s.dev.safe = true ∧ s.dev.flt.refOk = true)) ∧
    (∃ (index : Nat) (s : State), (s.dev.safe = true)) ∧
    (∃ (levels : List Nat) (k : Nat) (s : State), (s.dev.boot.phase ≠ .reset ∧ s.dev.safe = true ∧ (levels.zip (List.range 10)).all (fun l => decide (85 * railNominal s.dev l.2 ≤ 100 * l.1)) = true) ∧ (((levels.zip (List.range 10)).filter (fun l => railOutside s.dev l.2 10 l.1)).map Prod.snd = [k] ∧ s.dev.flt.badRails = [k] ∧ s.dev.flt.railCauses = [])) ∧
    (∃ (energy : List Nat) (temps : List Int) (k : Nat) (s : State), (((temps.zip (List.range 16)).filter (fun x => decide (1120 ≤ x.1))).map Prod.snd = [k] ∧ s.dev.flt.hot.contains k = true ∧ s.dev.flt.hotCauses = [] ∧ s.dev.safe = true)) :=
  ⟨⟨2, onRegs [], by decide⟩,
   ⟨onRegs [(R.FLT_STATUS, 0x80000406)], by decide⟩,
   ⟨.frequency, onRegs [(R.FLT_STATUS, 0x80000406)], by decide⟩,
   ⟨2, onRegs [(R.FLT_STATUS, 0x80000406)], by decide⟩,
   ⟨[1000, 800], 0, (onRegs [(R.FLT_STATUS, 0x80000406)]).but (fun d => { d with boot := { d.boot with phase := .done }, flt := { d.flt with coreSet := 800, badRails := [0] } }), by decide⟩,
   ⟨[], [0, 1120], 1, (onRegs [(R.FLT_STATUS, 0x80000406)]).but (fun d => d.withFlt { d.flt with hot := [1] }), by decide⟩⟩

theorem witness_RegionResets :
    (∃ (r : Fin 5) (s : State), (gateOpen s.dev R.FLT_CTRL = true ∧ cannotReset (r + 1) s.dev = false ∧ ((s.dev.flt.starts[r]).filter (fun t => decide ((s.dev.nowNs + 2 ^ 64 - t) % 2 ^ 64 < 60000000000))).length + 1 < max 1 (s.dev.get F.FLT_CFG.ESC_MAX))) ∧
    (∃ (r : Fin 5) (s : State), (gateOpen s.dev R.FLT_CTRL = true ∧ cannotReset (r + 1) s.dev = false ∧ s.dev.safe = false ∧ max 1 (s.dev.get F.FLT_CFG.ESC_MAX) ≤ ((s.dev.flt.starts[r]).filter (fun t => decide ((s.dev.nowNs + 2 ^ 64 - t) % 2 ^ 64 < 60000000000))).length + 1)) ∧
    (∃ (bits : Nat) (s : State), (gateOpen s.dev R.FLT_CTRL = true ∧ (∀ r : Fin 5, bitAt bits r = true → cannotReset (r + 1) s.dev = true))) ∧
    (∃ (code : Nat) (index : Nat) (s : State), (faultLevel code = 0 ∨ 3 < faultLevel code ∨ faultRegion code = 0 ∨ 6 < faultRegion code)) ∧
    (∃ (code : Nat) (index : Nat) (s : State), (faultLevel code = 2 ∧ 1 ≤ faultRegion code ∧ faultRegion code ≤ 6)) ∧
    (∃ (code : Nat) (index : Nat) (s : State), (faultLevel code = 1 ∧ 1 ≤ faultRegion code ∧ faultRegion code ≤ 6)) ∧
    (∃ (r : Fin 5) (s : State), (regionPhase s.dev (r + 1) = .draining)) ∧
    (∃ (r : Fin 5) (s : State), (regionPhase s.dev (r + 1) ≠ .draining)) ∧
    (∃ (r : Fin 5) (s : State), (regionPhase s.dev (r + 1) = .held ∧ (s.dev.safe = false ∨ (r = 0 ∧ s.dev.flt.controlHeld = false)))) ∧
    (∃ (r : Fin 5) (s : State), (regionPhase s.dev (r + 1) ≠ .held ∨ (s.dev.safe = true ∧ (r ≠ 0 ∨ s.dev.flt.controlHeld = true)))) :=
  ⟨⟨4, onRegs [(R.FLT_CFG, 0x00020204)], by decide⟩,
   ⟨4, onRegs [(R.FLT_CFG, 0x00020200)], by decide⟩,
   ⟨30, onRegs [(R.FLT_STATUS, 0x80000406)], by decide⟩,
   ⟨0x2001, 0, onRegs [], by decide⟩,
   ⟨0x2201, 0, onRegs [], by decide⟩,
   ⟨0x2101, 0, onRegs [], by decide⟩,
   ⟨2, (onRegs []).but (fun d => d.withFlt { d.flt with phase := withUnit d.flt.phase 2 .draining }), by decide⟩,
   ⟨2, onRegs [], by decide⟩,
   ⟨2, (onRegs []).but (fun d => d.withFlt { d.flt with phase := withUnit d.flt.phase 2 .held }), by decide⟩,
   ⟨2, onRegs [], by decide⟩⟩

theorem witness_BootSequence :
    (∃ (held : Nat) (s : State), (100 ≤ held)) ∧
    (∃ (held : Nat) (s : State), (held < 100)) ∧
    (∃ (mode : Fin 4) (levels : List Nat) (s : State), (s.dev.boot.phase = .reset ∧ railsGood levels s.dev = true)) ∧
    (∃ (mode : Fin 4) (levels : List Nat) (s : State), (s.dev.boot.phase ≠ .reset ∨ railsGood levels s.dev = false)) ∧
    (∃ (octal : Bool) (s : State), (s.dev.boot.phase = .released)) ∧
    (∃ (h : List Byte) (octal : Bool) (s : State), (s.dev.boot.phase = .released ∧ h = flashBytes s.dev 0 256)) ∧
    (∃ (sfdp : Bool) (octal : Bool) (s : State), (s.dev.boot.phase ≠ .released)) ∧
    (∃  (s : State), (s.dev.boot.phase ≠ .dram ∨ (∃ n : Fin 4, s.dev.memState n ≠ msRun))) ∧
    (∃  (s : State), (s.dev.boot.phase = .done ∧ s.dev.slu.applied = false ∧ s.dev.sluState ≠ sluChecking)) ∧
    (∃  (s : State), (s.dev.boot.phase ≠ .done ∨ s.dev.slu.applied = true ∨ s.dev.sluState = sluChecking)) ∧
    (∃ (n : Fin 4) (s : State), (s.dev.memState n = msTrain ∧ s.dev.boot.phase = .dram ∧ s.dev.safe = false)) :=
  ⟨⟨100, onRegs [(R.TB_LINE_CFG, 5)], by decide⟩,
   ⟨99, onRegs [], by decide⟩,
   ⟨1, [800, 800, 850, 1200, 500, 1050, 850, 1800, 1800, 1800], { dev := {} }, by decide⟩,
   ⟨0, [750, 1800], (onRegs []).but (fun d => { d with boot := { d.boot with phase := .done } }), by decide +kernel⟩,
   ⟨true, (onRegs []).but (fun d => { d with boot := { d.boot with phase := .released } }), by decide⟩,
   ⟨flashBytes {} 0 256, false, (onRegs []).but (fun d => { d with boot := { d.boot with phase := .released } }), by decide +kernel⟩,
   ⟨true, false, onRegs [], by decide⟩,
   ⟨onRegs [], by decide⟩,
   ⟨(onRegs [(R.CHIP_BOOT, 0x80000A00)]).but (fun d => { d with boot := { d.boot with phase := .done } }), by decide⟩,
   ⟨{ dev := {} }, by decide⟩,
   ⟨3, (onRegs [(R.MEMn_STATUS 3, 2)]).but (fun d => { d with boot := { d.boot with phase := .dram } }), by decide⟩⟩

theorem witness_BootCompletion :
    (∃ (d1 : Device) (s : State), (s.dev.boot.phase = .dram ∧ (∀ n : Fin 4, s.dev.memState n = msRun) ∧ d1 = loadSections (sectionsOf s.dev (flashBytes s.dev 0 256)) (s.dev.set F.CHIP_BOOT.STAGE 8))) :=
  ⟨(bootState.dev.set F.CHIP_BOOT.STAGE 8), bootState, by decide +kernel⟩

theorem witness_SluiceCommit :
    (∃ (n : Fin 4) (a : Nat) (value : Word) (r : RegDesc) (s : State), (s.dev.boot.phase ≠ .reset ∧ areaAt s.dev a = some (.reg r) ∧ a % 4 = 0 ∧ r.rws ≠ 0 ∧ accessCause s.dev a 4 false = none ∧ rwsMask a = BitVec.ofNat 32 r.rws) ∧ (writeActs n .runtime a r value 0 ((latchPlic s.dev).reply 0) = none ∧ stagingRefused s.dev .runtime = false ∧ coreStops { master := .core n, addr := a } true s.dev = none)) ∧
    (∃ (n : Fin 4) (a : Nat) (value : Word) (r : RegDesc) (s : State), (s.dev.boot.phase ≠ .reset ∧ areaAt s.dev a = some (.reg r) ∧ a % 4 = 0 ∧ r.rws ≠ 0 ∧ r.rw = 0 ∧ r.rwl = 0 ∧ r.w1c = 0 ∧ accessCause s.dev a 4 false = none) ∧ (writeActs n .runtime a r value 0 ((latchPlic s.dev).reply 0) = none ∧ stagingRefused s.dev .runtime = true ∧ coreStops { master := .core n, addr := a } true s.dev = none)) ∧
    (∃ (m : Master) (value : Word) (a : Nat) (s : State), (F.SLU_CMD.COMMIT.of value = 1 ∧ F.SLU_CMD.CANCEL.of value = 0 ∧ bootFailed s.dev = false ∧ s.dev.sluState = sluOpen ∧ s.dev.safe = false ∧ a = s.dev.get F.SLU_APPLY_LINE.A ∧ inReach s.dev a = true) ∧ (gateOpen s.dev (R.SLU_CMD) = true)) ∧
    (∃ (m : Master) (value : Word) (s : State), (F.SLU_CMD.COMMIT.of value = 1 ∧ F.SLU_CMD.CANCEL.of value = 0 ∧ F.SLU_CMD.CHECK_ONLY.of value = 0 ∧ bootFailed s.dev = false ∧ s.dev.sluState = sluOpen ∧ s.dev.safe = false ∧ inReach s.dev (s.dev.get F.SLU_APPLY_LINE.A) = false) ∧ (gateOpen s.dev (R.SLU_CMD) = true)) ∧
    (∃ (m : Master) (value : Word) (s : State), (F.SLU_CMD.CANCEL.of value = 0 ∧ F.SLU_CMD.CHECK_ONLY.of value = 0 ∧ (s.dev.sluState ≠ sluOpen ∨ s.dev.safe = true ∨ bootFailed s.dev = true)) ∧ (gateOpen s.dev (R.SLU_CMD) = true)) ∧
    (∃  (s : State), (bootFailed s.dev = false ∧ s.dev.sluState = sluChecking ∧ s.dev.slu.root = .none ∧ s.dev.slu.members = [] ∧ s.dev.slu.withPartner = false ∧ s.dev.slu.committer = .none) ∧ (gateOpen s.dev (R.SLU_CMD) = true)) ∧
    (∃  (s : State), (bootFailed s.dev = false ∧ (s.dev.sluState = sluOpen ∨ s.dev.sluState = sluApplied ∨ (s.dev.sluState = sluArmed ∧ s.dev.slu.count - 32 ≤ s.dev.tb.count))) ∧ (gateOpen s.dev (R.SLU_CMD) = true)) ∧
    (∃  (s : State), (bootFailed s.dev = false ∧ s.dev.sluState = sluChecking ∧ s.dev.slu.part ≠ .confirmation) ∧ (gateOpen s.dev (R.SLU_CMD) = true)) ∧
    (∃  (s : State), (s.dev.sluState ≠ sluChecking) ∧ (gateOpen s.dev (R.SLU_CMD) = true)) ∧
    (∃  (s : State), (s.dev.sluState = sluChecking ∧ s.dev.slu.part = .hardware ∧ hwBreach s.dev = none ∧ s.dev.bit F.SLU_CFG.FW_EN = true)) ∧
    (∃  (s : State), (s.dev.sluState = sluChecking ∧ s.dev.slu.part = .hardware ∧ hwBreach s.dev = none ∧ s.dev.bit F.SLU_CFG.FW_EN = false ∧ s.dev.slu.checkOnly = false ∧ s.dev.lining = true ∧ inReach s.dev (lineOf s.dev.slu.count) = true) ∧ (s.dev.slu.root = .none ∧ s.dev.slu.members = [] ∧ s.dev.slu.withPartner = false ∧ s.dev.slu.committer = .none ∧ chainMembers s.dev = [] ∧ needsPartner s.dev = false)) ∧
    (∃ (b : Breach) (s : State), (s.dev.sluState = sluChecking ∧ s.dev.slu.part = .hardware ∧ hwBreach s.dev = some b ∧ s.dev.slu.root = .none ∧ s.dev.slu.members = [] ∧ s.dev.slu.withPartner = false ∧ s.dev.slu.committer = .none ∧ s.dev.slu.checkOnly = true)) ∧
    (∃ (value : Word) (s : State), (s.dev.sluState = sluChecking ∧ s.dev.slu.part = .firmware ∧ F.SLU_FW_VERDICT.VERDICT.of value = 0 ∧ s.dev.slu.checkOnly = false ∧ s.dev.lining = true ∧ inReach s.dev (lineOf s.dev.slu.count) = true) ∧ (s.dev.slu.root = .none ∧ s.dev.slu.members = [] ∧ s.dev.slu.withPartner = false ∧ s.dev.slu.committer = .none ∧ chainMembers s.dev = [] ∧ needsPartner s.dev = false) ∧ (gateOpen s.dev (R.SLU_FW_VERDICT) = true)) ∧
    (∃ (value : Word) (s : State), (s.dev.sluState = sluChecking ∧ s.dev.slu.part = .firmware ∧ F.SLU_FW_VERDICT.VERDICT.of value ≠ 0 ∧ s.dev.slu.checkOnly = true) ∧ (s.dev.slu.root = .none ∧ s.dev.slu.members = [] ∧ s.dev.slu.withPartner = false ∧ s.dev.slu.committer = .none) ∧ (gateOpen s.dev (R.SLU_FW_VERDICT) = true)) ∧
    (∃ (value : Word) (s : State), (s.dev.sluState ≠ sluChecking ∨ s.dev.slu.part ≠ .firmware) ∧ (gateOpen s.dev (R.SLU_FW_VERDICT) = true)) ∧
    (∃  (s : State), (s.dev.sluState = sluChecking ∧ s.dev.slu.part = .firmware ∧ s.dev.slu.checkOnly = true) ∧ (s.dev.slu.root = .none ∧ s.dev.slu.members = [] ∧ s.dev.slu.withPartner = false ∧ s.dev.slu.committer = .none)) ∧
    (∃ (o : OldBank) (s : State), (s.dev.slu.old = some o ∧ s.dev.sluState = sluApplied ∧ unswitched s.dev o = false)) ∧
    (∃  (s : State), (s.dev.slu.old = none ∨ s.dev.sluState ≠ sluApplied)) :=
  ⟨⟨2, R.TB_LINE_CFG, 0x800B0000, regOf R.TB_LINE_CFG, onRegs [], by decide⟩,
   ⟨2, R.TB_LINE_CFG, 0x800B0000, regOf R.TB_LINE_CFG, onRegs [(R.SLU_STATE, 1)], by decide⟩,
   ⟨.core 1, 5, 0, onRegs [], by decide⟩,
   ⟨.kcp, 1, onRegs [(R.TB_LINE_CFG, 0x800A0000), (R.TB_STATUS, 0x80000000)], by decide⟩,
   ⟨.kcp, 1, onRegs [(R.SLU_STATE, 2)], by decide⟩,
   ⟨(onRegs [(R.SLU_STATE, 1)]).but (fun d => d.withSlu { d.slu with staged := [(R.TB_LINE_CFG, 0x800B0000)] }), by decide⟩,
   ⟨onRegs [(R.SLU_STATE, 2)], by decide⟩,
   ⟨onRegs [(R.SLU_STATE, 1)], by decide⟩,
   ⟨onRegs [], by decide⟩,
   ⟨onRegs [(R.SLU_STATE, 1), (R.SLU_CFG, 1), (R.CAL_DRAM_BASE_HI, 1)], by decide +kernel⟩,
   ⟨(onRegs [(R.SLU_STATE, 1), (R.SLU_CFG, 0), (R.TB_STATUS, 0x80000000), (R.CAL_DRAM_BASE_HI, 1)]).but (fun d => d.withSlu { d.slu with count := 100 }), by decide +kernel⟩,
   ⟨breachOf, breachState, by decide +kernel⟩,
   ⟨0, (onRegs [(R.SLU_STATE, 1), (R.TB_LINE_CFG, 0x800A0000), (R.TB_STATUS, 0x80000000)]).but (fun d => d.withSlu { d.slu with part := .firmware, count := 100 }), by decide⟩,
   ⟨0xFFFF1201, (onRegs [(R.SLU_STATE, 1)]).but (fun d => d.withSlu { d.slu with part := .firmware, checkOnly := true }), by decide⟩,
   ⟨0, onRegs [], by decide⟩,
   ⟨(onRegs [(R.SLU_STATE, 1)]).but (fun d => d.withSlu { d.slu with part := .firmware, checkOnly := true }), by decide⟩,
   ⟨{ count := 5 }, (onRegs [(R.SLU_STATE, 3)]).but (fun d => d.withSlu { d.slu with old := some { count := 5 } }), by decide⟩,
   ⟨onRegs [], by decide⟩⟩

theorem witness_DebugModule :
    (∃ (n : Fin 4) (s : State), (s.dev.bit F.CORE_DBG.DBG_EN = false)) ∧
    (∃ (a : Nat) (width : Nat) (s : State), (s.dev.bit F.CORE_DBG.DBG_EN = false ∧ s.dev.bit F.CORE_BUSERR_INFO.VALID = false)) ∧
    (∃ (n : Fin 4) (s : State), (s.dev.bit F.CORE_DBG.DBG_EN = false)) ∧
    (∃ (n : Fin 4) (s : State), (s.dev.bit F.CORE_DBG.DBG_EN = true ∧ s.dev.cores.dbgm.active = true ∧ coreRuns s.dev n = true)) ∧
    (∃ (n : Fin 4) (s : State), (s.dev.bit F.CORE_DBG.DBG_EN = true ∧ s.dev.cores.dbgm.active = true ∧ hartHalted s.dev n = true)) ∧
    (∃ (n : Fin 4) (k : Fin 32) (v : Nat) (s : State), (s.dev.bit F.CORE_DBG.DBG_EN = true ∧ s.dev.cores.dbgm.active = true ∧ s.dev.cores.dbgm.cmderr = 0 ∧ hartHalted s.dev n = true ∧ k.val ≠ 0)) ∧
    (∃ (n : Fin 4) (k : Fin 32) (s : State), (s.dev.bit F.CORE_DBG.DBG_EN = true ∧ s.dev.cores.dbgm.active = true ∧ s.dev.cores.dbgm.cmderr = 0 ∧ hartHalted s.dev n = true)) ∧
    (∃ (n : Fin 4) (k : Nat) (s : State), (s.dev.bit F.CORE_DBG.DBG_EN = true ∧ s.dev.cores.dbgm.active = true ∧ s.dev.cores.dbgm.cmderr = 0 ∧ hartHalted s.dev n = false)) ∧
    (∃ (v : Nat) (s : State), (s.dev.cores.jtag.ir = .idcode)) ∧
    (∃ (i : Fin 8) (v : Word) (s : State), (s.dev.bit F.CORE_DBG.DBG_EN = true ∧ s.dev.cores.dbgm.active = true)) ∧
    (∃ (n : Fin 4) (on : Bool) (s : State), (s.dev.bit F.CORE_DBG.DBG_EN = true ∧ s.dev.cores.dbgm.active = true)) ∧
    (∃  (s : State), (s.dev.bit F.CORE_DBG.DBG_EN = true)) :=
  ⟨⟨1, { dev := { regs := [(R.CORE_DBG, 0)] } }, by decide⟩,
   ⟨0x80000000, 4, { dev := { regs := [(R.CORE_DBG, 0)] } }, by decide⟩,
   ⟨1, { dev := { regs := [(R.CORE_DBG, 0)] } }, by decide⟩,
   ⟨1, { dev := { regs := [(R.CORE_Cn_STATUS 1, 0x80000000), (R.CORE_DBG, 1)], cores := { dbgm := { active := true } } } }, by decide⟩,
   ⟨1, { dev := { regs := [(R.CORE_Cn_STATUS 1, 0xC0000000), (R.CORE_DBG, 1)], cores := { dbgm := { active := true } } } }, by decide⟩,
   ⟨1, 31, 7, { dev := { regs := [(R.CORE_Cn_STATUS 1, 0xC0000000), (R.CORE_DBG, 1)], cores := { dbgm := { active := true } } } }, by decide⟩,
   ⟨1, 31, { dev := { regs := [(R.CORE_Cn_STATUS 1, 0xC0000000), (R.CORE_DBG, 1)], cores := { dbgm := { active := true } } } }, by decide⟩,
   ⟨2, 0x300, { dev := { regs := [(R.CORE_Cn_STATUS 1, 0xC0000000), (R.CORE_DBG, 1)], cores := { dbgm := { active := true } } } }, by decide⟩,
   ⟨0, onRegs [], by decide⟩,
   ⟨7, 5, { dev := { regs := [(R.CORE_DBG, 1)], cores := { dbgm := { active := true } } } }, by decide⟩,
   ⟨2, true, { dev := { regs := [(R.CORE_DBG, 1)], cores := { dbgm := { active := true } } } }, by decide⟩,
   ⟨{ dev := { regs := [(R.CORE_DBG, 1), (R.LCKk 3, 10)] } }, by decide⟩⟩

theorem witness_EthernetPort :
    (∃  (s : State), (s.dev.bit F.ETH_CFG.EN = true ∧ s.dev.bit F.ETH_STATUS.LINK = false)) ∧
    (∃  (s : State), (s.dev.bit F.ETH_CFG.EN = false ∨ s.dev.bit F.ETH_STATUS.LINK = true)) ∧
    (∃  (s : State), (s.dev.bit F.ETH_STATUS.LINK = true)) ∧
    (∃  (s : State), (s.dev.bit F.ETH_STATUS.LINK = false)) ∧
    (∃  (s : State), (s.dev.bit F.ETH_CFG.EN = true ∧ s.dev.get F.ETH_CFG.MODE = 0 ∧ s.dev.bit F.ETH_STATUS.LINK = false)) ∧
    (∃ (bytes : List Byte) (a : Nat) (b : Nat) (t : Nat) (s : State), (s.dev.bit F.ETH_STATUS.LINK = false ∨ ethHears s.dev = false)) ∧
    (∃ (bytes : List Byte) (t : Nat) (s : State), (s.dev.bit F.ETH_STATUS.LINK = true ∧ ethHears s.dev = true ∧ (bytes.length < 64 ∨ 9216 < bytes.length))) ∧
    (∃ (bytes : List Byte) (t : Nat) (s : State), (s.dev.bit F.ETH_STATUS.LINK = true ∧ ethHears s.dev = true ∧ 64 ≤ bytes.length ∧ bytes.length ≤ 9216 ∧ leNat (bytes.drop (bytes.length - 4)) ≠ fcs (bytes.take (bytes.length - 4)))) ∧
    (∃ (fr : List Byte) (t : Nat) (s : State), (s.dev.bit F.ETH_STATUS.LINK = true ∧ ethHears s.dev = true ∧ 60 ≤ fr.length ∧ fr.length ≤ 9212 ∧ (frameOf fr).type ≠ 0x8808 ∧ (vlanPasses s.dev (frameOf fr) = false ∨ steer s.dev (frameOf fr) (packetOf (frameOf fr)) = none))) ∧
    (∃ (fr : List Byte) (t : Nat) (q : Nat) (a : Nat) (s : State), (s.dev.bit F.ETH_STATUS.LINK = true ∧ ethHears s.dev = true ∧ 60 ≤ fr.length ∧ fr.length ≤ 9212 ∧ (frameOf fr).type ≠ 0x8808 ∧ vlanPasses s.dev (frameOf fr) = true ∧ steer s.dev (frameOf fr) (packetOf (frameOf fr)) = some q ∧ q ≠ 1) ∧ (checksumOk (packetOf (frameOf fr)) = true ∧ s.dev.bit (F.ETH_RXQq_SIZE.EN q) = true ∧ (s.dev.get (F.ETH_RXQq_HEAD.HEAD q) + 1) % rxSlots s.dev q ≠ s.dev.get (F.ETH_RXQq_TAIL.TAIL q) ∧ s.dev.bit F.ETH_CFG.PAUSE_TX = false) ∧ (a = slotAddr s.dev (R.ETH_RXQq_BASE_LO q) (R.ETH_RXQq_BASE_HI q) (s.dev.get (F.ETH_RXQq_HEAD.HEAD q)) ∧ dramBase ≤ a ∧ a + 10240 ≤ dramBase + dramUsable s.dev ∧ dramServes s.dev = true ∧ s.dev.get (F.ETH_RXQq_SIZE.SLOTS_LOG2 q) ≤ 12)) ∧
    (∃ (fr : List Byte) (t : Nat) (q : Nat) (s : State), (s.dev.bit F.ETH_STATUS.LINK = true ∧ ethHears s.dev = true ∧ 60 ≤ fr.length ∧ fr.length ≤ 9212 ∧ (frameOf fr).type ≠ 0x8808 ∧ vlanPasses s.dev (frameOf fr) = true ∧ steer s.dev (frameOf fr) (packetOf (frameOf fr)) = some q ∧ q ≠ 1) ∧ (checksumOk (packetOf (frameOf fr)) = true ∧ (s.dev.get (F.ETH_RXQq_HEAD.HEAD q) + 1) % rxSlots s.dev q = s.dev.get (F.ETH_RXQq_TAIL.TAIL q))) ∧
    (∃ (quanta : Nat) (s : State), (s.dev.bit F.ETH_STATUS.LINK = true)) ∧
    (∃ (t : Nat) (q : Nat) (rest : List Nat) (s : State), (s.dev.bit F.ETH_STATUS.LINK = true ∧ ethSends s.dev = true ∧ pump 64 s.dev = s.dev ∧ s.dev.eth.pauseOut = q :: rest)) ∧
    (∃ (t : Nat) (s : State), (s.dev.bit F.ETH_STATUS.LINK = true ∧ ethSends s.dev = true ∧ pump 64 s.dev = s.dev ∧ s.dev.eth.pauseOut = [] ∧ s.dev.bit F.ETH_STATUS.PAUSED = true)) ∧
    (∃ (t : Nat) (s : State), (s.dev.bit F.ETH_STATUS.LINK = false ∧ s.dev.eth.firm = [] ∧ txReady s.dev = true)) ∧
    (∃ (t : Nat) (s : State), (s.dev.bit F.ETH_STATUS.LINK = false ∧ recovering s.dev = true ∧ txReady s.dev = false)) ∧
    (∃ (t : Nat) (s : State), (s.dev.bit F.ETH_STATUS.LINK = true ∧ ethSends s.dev = false ∧ pump 64 s.dev = s.dev ∧ (∀ l ∈ ethTxLanes, prbsOn s.dev l = false))) ∧
    (∃ (t : Nat) (a : Nat) (k : Nat) (b : List Byte) (s : State), (s.dev.eth.firm = [] ∧ ethSends s.dev = true ∧ s.dev.bit F.ETH_STATUS.LINK = true ∧ s.dev.eth.pauseOut = [] ∧ s.dev.bit F.ETH_STATUS.PAUSED = false ∧ txReady s.dev = true) ∧ (a = slotAddr s.dev R.ETH_TXQ_BASE_LO R.ETH_TXQ_BASE_HI (s.dev.get F.ETH_TXQ_HEAD.HEAD) ∧ (packetOf (frameOf (if bitAt k 3 then fillChecks b else b))) = none ∧ k = s.dev.num (a + 2) 2 ∧ bitAt k 2 = false ∧ unread s.dev a slotBytes = false) ∧ (b = macFrame s.dev (bitAt k 0) (s.dev.bytes (a + 16) (min (s.dev.num a 2) 10224)))) ∧
    (∃ (t : Nat) (b : List Byte) (rest : List FirmFrame) (s : State), (ethSends s.dev = true ∧ recovering s.dev = true ∧ s.dev.bit F.ETH_STATUS.LINK = true ∧ s.dev.eth.pauseOut = [] ∧ s.dev.bit F.ETH_STATUS.PAUSED = false ∧ txReady s.dev = false ∧ s.dev.eth.firm = .bytes b :: rest)) ∧
    (∃ (t : Nat) (y : KcpReply) (client : KcpAddr) (port : Nat) (rest : List FirmFrame) (s : State), (ethSends s.dev = true ∧ recovering s.dev = true ∧ s.dev.bit F.ETH_STATUS.LINK = true ∧ s.dev.eth.pauseOut = [] ∧ s.dev.bit F.ETH_STATUS.PAUSED = false ∧ txReady s.dev = false ∧ s.dev.eth.firm = .kcp y client port :: rest)) ∧
    (∃ (t : Nat) (g : Datagram) (rest : List Datagram) (s : State), (ethSends s.dev = true ∧ s.dev.bit F.ETH_STATUS.LINK = true ∧ s.dev.eth.pauseOut = [] ∧ s.dev.bit F.ETH_STATUS.PAUSED = false ∧ txReady s.dev = false) ∧ (s.dev.eth.firm = [] ∧ s.dev.bit F.KCP_OBJ_CTRL.EN = false ∧ s.dev.eth.objOut = g :: rest ∧ udpPacket (templateV6 g.head) (16 + g.body.length) ≤ s.dev.get F.ETH_MTU.MTU)) ∧
    (∃ (t : Nat) (g : Datagram) (rest : List Datagram) (s : State), (ethSends s.dev = true ∧ s.dev.bit F.ETH_STATUS.LINK = true ∧ s.dev.eth.pauseOut = [] ∧ s.dev.bit F.ETH_STATUS.PAUSED = false ∧ txReady s.dev = false) ∧ (s.dev.eth.firm = [] ∧ s.dev.bit F.KCP_OBJ_CTRL.EN = false ∧ s.dev.eth.objOut = [] ∧ s.dev.eth.capOut = g :: rest ∧ udpPacket (templateV6 g.head) (16 + g.body.length) ≤ s.dev.get F.ETH_MTU.MTU)) ∧
    (∃ (n : Nat) (s : State), (objRuns s.dev = true ∧ s.dev.jud.stream ≠ [] ∧ 1 ≤ s.dev.get F.KCP_OBJ_CTRL.RECS ∧ s.dev.get F.KCP_OBJ_CTRL.RECS ≤ 128 ∧ n = min (max 1 (recsCap s.dev).1) s.dev.jud.stream.length)) ∧
    (∃  (s : State), (objRuns s.dev = false ∨ s.dev.jud.stream = [])) ∧
    (∃ (f : CapFetch) (n : Nat) (s : State), (s.dev.eth.fetch = some f ∧ s.dev.bit F.KCP_CAP_CTRL.EN = true ∧ s.dev.bit F.ETH_STATUS.LINK = true ∧ s.dev.dram.badReads = [] ∧ n = min (fetchFit s.dev f) (f.stop - f.next))) ∧
    (∃  (s : State), (s.dev.eth.fetch = none ∨ s.dev.bit F.KCP_CAP_CTRL.EN = false ∨ s.dev.bit F.ETH_STATUS.LINK = false)) :=
  ⟨⟨linked [(R.ETH_CFG, 0x80000000)], by decide⟩,
   ⟨linked [], by decide⟩,
   ⟨linked [(R.ETH_STATUS, 0x80000000)], by decide⟩,
   ⟨linked [], by decide⟩,
   ⟨linked [(R.ETH_CFG, 0x80000000)], by decide⟩,
   ⟨[], 0, 0, 0, linked [], by decide⟩,
   ⟨[1, 2], 0, linked [(R.ETH_STATUS, 0x80000000)], by decide⟩,
   ⟨List.replicate 64 0, 0, linked [(R.ETH_STATUS, 0x80000000)], by decide +kernel⟩,
   ⟨List.replicate 60 7, 0, linked [(R.ETH_STATUS, 0x80000000)], by decide⟩,
   ⟨arpFrame, 0, 2, 0x100000000, linked [(R.ETH_STATUS, 0x80000000), (R.ETH_RXQq_SIZE 2, 0x80000004), (R.ETH_RXQq_BASE_HI 2, 1), (R.MEMn_STATUS 0, 3)], by decide⟩,
   ⟨arpFrame, 0, 2, linked [(R.ETH_STATUS, 0x80000000), (R.ETH_RXQq_SIZE 2, 0x80000004), (R.ETH_RXQq_TAIL 2, 1)], by decide⟩,
   ⟨65535, linked [(R.ETH_STATUS, 0x80000000), (R.ETH_CFG, 0x80000004)], by decide⟩,
   ⟨0, 65535, [], (linked [(R.ETH_STATUS, 0x88000000), (R.ETH_CFG, 0x80000000)]).but (fun d => d.withEth { d.eth with pauseOut := [65535] }), by decide +kernel⟩,
   ⟨0, linked [(R.ETH_STATUS, 0x88000000)], by decide +kernel⟩,
   ⟨0, linked [(R.ETH_TXQ_SIZE, 0x80000004), (R.ETH_TXQ_TAIL, 1)], by decide⟩,
   ⟨0, (linked []).but (fun d => { d with boot := { d.boot with phase := .failed } }), by decide⟩,
   ⟨0, onRegs [(R.ETH_STATUS, 0x80000000)], by decide +kernel⟩,
   ⟨0, 0x100000000, 1, [0, 0, 0], (linked [(R.ETH_STATUS, 0x80000000), (R.ETH_CFG, 0x80000000), (R.ETH_TXQ_SIZE, 0x80000004), (R.ETH_TXQ_TAIL, 1), (R.ETH_TXQ_BASE_HI, 1)]).but (fun d => d.setBytes 0x100000000 [3, 0, 1, 0]), by decide⟩,
   ⟨0, [1, 2], [], ((linked [(R.ETH_STATUS, 0x80000000), (R.ETH_CFG, 0x80000000)]).but (fun d => d.withEth { d.eth with firm := [.bytes [1, 2]] })).but (fun d => { d with boot := { d.boot with phase := .failed } }), by decide⟩,
   ⟨0, {}, {}, 5000, [], ((linked [(R.ETH_STATUS, 0x80000000), (R.ETH_CFG, 0x80000000)]).but (fun d => d.withEth { d.eth with firm := [.kcp {} {} 5000] })).but (fun d => { d with boot := { d.boot with phase := .failed } }), by decide⟩,
   ⟨0, { seq := 4 }, [], (linked [(R.ETH_STATUS, 0x80000000), (R.ETH_CFG, 0x80000000)]).but (fun d => d.withEth { d.eth with objOut := [{ seq := 4 }], capOut := [{ seq := 5 }] }), by decide⟩,
   ⟨0, { seq := 4 }, [], (linked [(R.ETH_STATUS, 0x80000000), (R.ETH_CFG, 0x80000000)]).but (fun d => d.withEth { d.eth with capOut := [{ seq := 4 }] }), by decide⟩,
   ⟨1, (linked [(R.ETH_STATUS, 0x80000000), (R.KCP_OBJ_CTRL, 0x80800064)]).but (fun d => { d with jud := { d.jud with stream := [[1, 2]] } }), by decide⟩,
   ⟨linked [], by decide⟩,
   ⟨{ session := 1, next := 64, stop := 192 }, 128, (linked [(R.ETH_STATUS, 0x80000000), (R.KCP_CAP_CTRL, 0xC0000000)]).but (fun d => d.withEth { d.eth with fetch := some { session := 1, next := 64, stop := 192 } }), by decide⟩,
   ⟨linked [], by decide⟩⟩

theorem witness_KcpSessionsAndAccess :
    (∃ (q : KcpMsg) (s : State), (s.dev.boot.phase = .done ∧ kcpServes s.dev q = true ∧ malformed q = true)) ∧
    (∃ (q : KcpMsg) (s : State), (kcpReaches s.dev q = true ∧ s.dev.session q.session = none)) ∧
    (∃ (q : KcpMsg) (x : Session) (r : KcpReply) (s : State), (kcpReaches s.dev q = true ∧ s.dev.session q.session = some x ∧ x.key = none ∧ x.pending = false ∧ q.seq = x.last ∧ x.last < 2 ^ 32 ∧ x.replies.find? (fun y => y.seq == q.seq) = some r)) ∧
    (∃ (q : KcpMsg) (x : Session) (s : State), (kcpAccepts s.dev q x 1 = true ∧ x.role < 3)) ∧
    (∃ (q : KcpMsg) (x : Session) (s : State), (kcpAccepts s.dev q x 1 = true ∧ q.len = 12 ∧ kcpBody q = leBytes 8 R.CHIP_ID ++ leBytes 4 1 ∧ 12 ≤ x.maxBody ∧ touches s.dev.eth.keysAt R.CHIP_ID 4 = false ∧ accessCause s.dev R.CHIP_ID 4 false = none)) ∧
    (∃ (q : KcpMsg) (x : Session) (s : State), (kcpAccepts s.dev q x 1 = true ∧ q.len = 12 ∧ kcpBody q = leBytes 8 0x70000000 ++ leBytes 4 1 ∧ 12 ≤ x.maxBody ∧ touches s.dev.eth.keysAt 0x70000000 4 = false)) ∧
    (∃ (q : KcpMsg) (x : Session) (s : State), (kcpAccepts s.dev q x 1 = true ∧ touches s.dev.eth.keysAt (leAt (kcpBody q) 0 8) (4 * leAt (kcpBody q) 8 2) = true)) ∧
    (∃ (q : KcpMsg) (x : Session) (v : Word) (s : State), (kcpAccepts s.dev q x 3 = true ∧ q.len = 16 ∧ kcpBody q = leBytes 8 R.RSV_PLAN_CYCLE ++ leBytes 4 1 ++ leBytes 4 v.toNat ∧ 12 ≤ x.maxBody ∧ accessCause s.dev R.RSV_PLAN_CYCLE 4 false = none)) ∧
    (∃ (q : KcpMsg) (x : Session) (v : Word) (m : Word) (s : State), (kcpAccepts s.dev q x 2 = true ∧ q.len = 16 ∧ kcpBody q = leBytes 4 0 ++ leBytes 4 R.PAIR_TIMING ++ leBytes 4 v.toNat ++ leBytes 4 m.toNat ∧ notActive s.dev = false ∧ stagingRefused s.dev (.session x.id) = false ∧ accessCause s.dev R.PAIR_TIMING 4 false = none)) ∧
    (∃ (q : KcpMsg) (x : Session) (s : State), (kcpAccepts s.dev q x 2 = true ∧ q.len = 4 ∧ kcpBody q = [1, 0, 0, 0] ∧ notActive s.dev = false ∧ s.dev.slu.owner = .session x.id ∧ s.dev.sluState = sluOpen)) ∧
    (∃ (q : KcpMsg) (x : Session) (s : State), (kcpAccepts s.dev q x 2 = true ∧ q.len = 8 ∧ notActive s.dev = false ∧ s.dev.sluState = sluOpen ∧ s.dev.safe = false ∧ inReach s.dev (leAt (kcpBody q) 0 4) = true ∧ s.dev.lining = false ∧ accessCause s.dev R.SLU_APPLY_LINE 4 false = none)) ∧
    (∃ (q : KcpMsg) (x : Session) (s : State), (kcpAccepts s.dev q x 2 = true ∧ q.len = 8 ∧ notActive s.dev = false ∧ (s.dev.sluState ≠ sluOpen ∨ s.dev.safe = true) ∧ accessCause s.dev R.SLU_APPLY_LINE 4 false = none)) ∧
    (∃ (q : KcpMsg) (x : Session) (s : State), (kcpAccepts s.dev q x 1 = true ∧ q.len = 0)) ∧
    (∃ (q : KcpMsg) (x : Session) (m : Nat) (b : List Byte) (a : Nat) (s : State), (kcpAccepts s.dev q x 1 = true ∧ q.len = 0 ∧ txRoom s.dev = true ∧ s.dev.eth.firm = [] ∧ macKnown s.dev q.client = some m ∧ a = slotAddr s.dev R.ETH_TXQ_BASE_LO R.ETH_TXQ_BASE_HI (s.dev.get F.ETH_TXQ_TAIL.TAIL)) ∧ (dramServes s.dev = true ∧ dramBase ≤ a ∧ a + slotBytes ≤ dramBase + dramUsable s.dev ∧ firmBytes s.dev m (.kcp (kcpReply none 7 q.session q.seq kcOk (statusBlock s.dev)) q.client q.port) = some b ∧ b.length + 16 ≤ slotBytes)) ∧
    (∃ (q : KcpMsg) (x : Session) (s : State), (kcpAccepts s.dev q x 1 = true ∧ q.len = 0)) ∧
    (∃ (id : Nat) (x : Session) (s : State), (s.dev.session id = some x)) ∧
    (∃ (q : KcpMsg) (s : State), (kcpReaches s.dev q = true ∧ q.len = 20 ∧ q.session = 0 ∧ s.dev.eth.roles = none ∧ s.dev.eth.sessions.length < 16 ∧ 1 ≤ leAt (kcpBody q) 0 1 ∧ leAt (kcpBody q) 0 1 ≤ 3)) ∧
    (∃ (q : KcpMsg) (s : State), (kcpReaches s.dev q = true ∧ q.len = 20 ∧ q.session = 0 ∧ s.dev.eth.roles = some [] ∧ 1 ≤ leAt (kcpBody q) 0 1 ∧ leAt (kcpBody q) 0 1 ≤ 3)) ∧
    (∃ (q : KcpMsg) (x : Session) (k : Fin 64) (s : State), (kcpAccepts s.dev q x 1 = true ∧ codeListed k = false)) ∧
    (∃ (q : KcpMsg) (x : Session) (s : State), (kcpAccepts s.dev q x 1 = true ∧ q.len = 8 ∧ 8 ≤ x.maxBody)) :=
  ⟨⟨{ magic := 0 }, kcpState [], by decide⟩,
   ⟨{ session := 9 }, kcpState [], by decide⟩,
   ⟨{ session := 7, seq := 5 }, { id := 7, last := 5, replies := [{ seq := 5, status := 3 }] }, { seq := 5, status := 3 }, (kcpState []).but (fun d => d.withEth { d.eth with sessions := [{ id := 7, last := 5, replies := [{ seq := 5, status := 3 }] }] }), by decide⟩,
   ⟨{ session := 7, seq := 6 }, { id := 7, role := 2, last := 5 }, (kcpState []).but (fun d => d.withEth { d.eth with sessions := [{ id := 7, role := 2, last := 5 }] }), by decide⟩,
   ⟨kcpAsk (leBytes 8 R.CHIP_ID ++ leBytes 4 1), kcpSession, kcpState [], by decide⟩,
   ⟨kcpAsk (leBytes 8 0x70000000 ++ leBytes 4 1), kcpSession, kcpState [], by decide⟩,
   ⟨kcpAsk (leBytes 8 0x90000000 ++ leBytes 4 1), kcpSession, (kcpState []).but (fun d => d.withEth { d.eth with keysAt := some (0x90000000, 64) }), by decide⟩,
   ⟨kcpAsk (leBytes 8 R.RSV_PLAN_CYCLE ++ leBytes 4 1 ++ leBytes 4 77), kcpSession, 77, kcpState [], by decide⟩,
   ⟨kcpAsk (leBytes 4 0 ++ leBytes 4 R.PAIR_TIMING ++ leBytes 4 7 ++ leBytes 4 0xF), kcpSession, 7, 0xF, kcpState [], by decide⟩,
   ⟨kcpAsk [1, 0, 0, 0], kcpSession, (kcpState []).but (fun d => d.withSlu { d.slu with owner := .session 7, staged := [(R.PAIR_TIMING, 5)] }), by decide⟩,
   ⟨kcpAsk (leBytes 4 100 ++ leBytes 4 0), kcpSession, kcpState [], by decide⟩,
   ⟨kcpAsk (leBytes 4 100 ++ leBytes 4 0), kcpSession, kcpState [(R.SLU_STATE, 2)], by decide⟩,
   ⟨kcpAsk [], kcpSession, kcpState [], by decide⟩,
   ⟨kcpAsk [], kcpSession, 7, (firmBytes kcpRing.dev 7 (.kcp (kcpReply none 7 7 6 kcOk (statusBlock kcpRing.dev)) {} 0)).getD [], 0x100000000, kcpRing, ⟨⟨by decide +kernel, rfl, by decide +kernel, rfl, by decide +kernel, by decide +kernel⟩, by decide +kernel, by decide +kernel, by decide +kernel, some_getD (by decide +kernel), by decide +kernel⟩⟩,
   ⟨kcpAsk [], kcpSession, kcpState [], by decide⟩,
   ⟨7, kcpSession, kcpState [], by decide⟩,
   ⟨{ len := 20, seq := 3, rest := 3 :: List.replicate 19 0 }, kcpState [], by decide⟩,
   ⟨{ len := 20, seq := 3, rest := 3 :: List.replicate 19 0 }, (kcpState []).but (fun d => d.withEth { d.eth with roles := some [] }), by decide⟩,
   ⟨kcpAsk [5], kcpSession, 20, kcpState [], by decide⟩,
   ⟨kcpAsk [0, 0, 0, 0, 0, 0, 0, 0], kcpSession, kcpState [], by decide⟩⟩

theorem witness_KcpStreamsAndFlash :
    (∃ (q : KcpMsg) (x : Session) (p : Nat) (s : State), (kcpAccepts s.dev q x 1 = true ∧ q.len = 4 ∧ kcpBody q = [1, 0] ++ leBytes 2 p ∧ p < 65536 ∧ s.dev.eth.objStream = none)) ∧
    (∃ (q : KcpMsg) (x : Session) (s : State), (kcpAccepts s.dev q x 1 = true ∧ q.len = 4 ∧ leAt (kcpBody q) 0 1 = 1 ∧ s.dev.eth.objStream.isSome = true)) ∧
    (∃ (q : KcpMsg) (x : Session) (o : ObjStream) (s : State), (kcpAccepts s.dev q x 1 = true ∧ q.len = 4 ∧ leAt (kcpBody q) 0 1 = 0 ∧ s.dev.eth.objStream = some o ∧ o.session = x.id)) ∧
    (∃ (q : KcpMsg) (x : Session) (o : Nat) (n : Nat) (p : Nat) (s : State), (kcpAccepts s.dev q x 1 = true ∧ q.len = 16 ∧ kcpBody q = leBytes 8 o ++ leBytes 4 n ++ leBytes 2 p ++ leBytes 2 0 ∧ o < 2 ^ 64 ∧ 0 < n ∧ n < 2 ^ 32 ∧ p < 65536) ∧ (o % 2 ^ 63 + n ≤ (fetchRing s.dev o).2.2 ∧ s.dev.eth.fetch = none)) ∧
    (∃ (q : KcpMsg) (x : Session) (s : State), (kcpAccepts s.dev q x 1 = true ∧ q.len = 16 ∧ (fetchRing s.dev (leAt (kcpBody q) 0 8)).2.2 < leAt (kcpBody q) 0 8 % 2 ^ 63 + leAt (kcpBody q) 8 4)) ∧
    (∃ (q : KcpMsg) (x : Session) (k : Fin 32) (v : Word) (s : State), (kcpAccepts s.dev q x 2 = true ∧ q.len = 8 ∧ kcpBody q = [0, BitVec.ofNat 8 k, 0, 0] ++ leBytes 4 v.toNat ∧ mailboxBound s.dev k (F.MBXk_BIND.SENDER k) = true ∧ s.dev.bit (F.MBXk_STATUS.FULL k) = false)) ∧
    (∃ (q : KcpMsg) (x : Session) (k : Fin 32) (s : State), (kcpAccepts s.dev q x 2 = true ∧ q.len = 8 ∧ leAt (kcpBody q) 0 1 = 0 ∧ leAt (kcpBody q) 1 1 = k ∧ mailboxBound s.dev k (F.MBXk_BIND.SENDER k) = false)) ∧
    (∃ (q : KcpMsg) (x : Session) (k : Fin 32) (s : State), (kcpAccepts s.dev q x 2 = true ∧ q.len = 8 ∧ leAt (kcpBody q) 0 1 = 1 ∧ leAt (kcpBody q) 1 1 = k ∧ mailboxBound s.dev k (F.MBXk_BIND.RECEIVER k) = true ∧ s.dev.bit (F.MBXk_STATUS.FULL k) = true)) ∧
    (∃ (q : KcpMsg) (x : Session) (s : State), (kcpAccepts s.dev q x 2 = true ∧ q.len = 4 ∧ leAt (kcpBody q) 0 2 ≤ 383)) ∧
    (∃ (q : KcpMsg) (x : Session) (s : State), (kcpAccepts s.dev q x 3 = true ∧ nvBad x 0 (kcpBody q) = none)) ∧
    (∃ (q : KcpMsg) (x : Session) (s : State), (kcpAccepts s.dev q x 3 = true ∧ nvBad x 1 (kcpBody q) = none)) ∧
    (∃ (q : KcpMsg) (x : Session) (s : State), (kcpAccepts s.dev q x 3 = true ∧ nvBad x 2 (kcpBody q) = none ∧ touches s.dev.eth.keysFrom (leAt (kcpBody q) 4 4) (leAt (kcpBody q) 8 4) = false)) ∧
    (∃ (q : KcpMsg) (x : Session) (s : State), (kcpAccepts s.dev q x 3 = true ∧ nvBad x 2 (kcpBody q) = none ∧ touches s.dev.eth.keysFrom (leAt (kcpBody q) 4 4) (leAt (kcpBody q) 8 4) = true)) ∧
    (∃ (q : KcpMsg) (x : Session) (s : State), (kcpAccepts s.dev q x 3 = true ∧ nvBad x 3 (kcpBody q) = none)) ∧
    (∃ (q : KcpMsg) (x : Session) (b : Nat) (s : State), (kcpAccepts s.dev q x 3 = true ∧ nvBad x 1 (kcpBody q) = some b)) ∧
    (∃ (v : NvOp) (rest : List NvOp) (s : State), (s.dev.eth.nv = v :: rest ∧ v.erase = true)) ∧
    (∃ (v : NvOp) (rest : List NvOp) (s : State), (s.dev.eth.nv = v :: rest ∧ v.erase = false ∧ flashBytes s.dev v.offset v.data.length = List.replicate v.data.length 0xFF)) ∧
    (∃  (s : State), (s.dev.eth.nv = [])) :=
  ⟨⟨kcpAsk [1, 0, 0x34, 0x12], kcpSession, 0x1234, kcpState [], by decide⟩,
   ⟨kcpAsk [1, 0, 0x34, 0x12], kcpSession, (kcpState []).but (fun d => d.withEth { d.eth with objStream := some { session := 9 } }), by decide⟩,
   ⟨kcpAsk [0, 0, 0, 0], kcpSession, { session := 7 }, (kcpState []).but (fun d => d.withEth { d.eth with objStream := some { session := 7 } }), by decide⟩,
   ⟨kcpAsk (leBytes 8 64 ++ leBytes 4 64 ++ leBytes 2 9 ++ leBytes 2 0), kcpSession, 64, 64, 9, (kcpState []).but (fun d => { d with cap := { d.cap with wpos := 128 } }), by decide⟩,
   ⟨kcpAsk (leBytes 8 64 ++ leBytes 4 64 ++ leBytes 2 9 ++ leBytes 2 0), kcpSession, kcpState [], by decide⟩,
   ⟨kcpAsk ([0, 31, 0, 0] ++ leBytes 4 9), kcpSession, 31, 9, (kcpState [(R.MBX_LOCK, 1)]).but (fun d => (d.set (F.MBXk_BIND.EN 31) 1).set (F.MBXk_BIND.SENDER 31) 4), by decide⟩,
   ⟨kcpAsk ([0, 31, 0, 0] ++ leBytes 4 9), kcpSession, 31, kcpState [], by decide⟩,
   ⟨kcpAsk ([1, 31, 0, 0] ++ leBytes 4 0), kcpSession, 31, (kcpState [(R.MBX_LOCK, 1)]).but (fun d => ((d.set (F.MBXk_BIND.EN 31) 1).set (F.MBXk_BIND.RECEIVER 31) 4).set (F.MBXk_STATUS.FULL 31) 1), by decide⟩,
   ⟨kcpAsk [0x7F, 1, 0, 0], kcpSession, kcpState [], by decide⟩,
   ⟨kcpAsk ([0, 0, 0, 0] ++ leBytes 4 65536 ++ leBytes 4 0), kcpSession, kcpState [], by decide⟩,
   ⟨kcpAsk ([1, 0, 0, 0] ++ leBytes 4 256 ++ leBytes 4 256 ++ List.replicate 256 3), kcpSession, kcpState [], by decide +kernel⟩,
   ⟨kcpAsk ([2, 0, 0, 0] ++ leBytes 4 256 ++ leBytes 4 256), kcpSession, kcpState [], by decide⟩,
   ⟨kcpAsk ([2, 0, 0, 0] ++ leBytes 4 256 ++ leBytes 4 256), kcpSession, (kcpState []).but (fun d => d.withEth { d.eth with keysFrom := some (256, 64) }), by decide⟩,
   ⟨kcpAsk ([3, 0, 0, 0] ++ leBytes 4 256 ++ leBytes 4 256), kcpSession, kcpState [], by decide⟩,
   ⟨kcpAsk [], kcpSession, 3, kcpState [], by decide⟩,
   ⟨{ session := 7, seq := 6, erase := true, offset := 65536 }, [], (kcpState []).but (fun d => { d with flash := [(3, 1), (65540, 2)], eth := { d.eth with nv := [{ session := 7, seq := 6, erase := true, offset := 65536 }], sessions := [{ kcpSession with last := 6, pending := true }] } }), by decide⟩,
   ⟨{ session := 7, seq := 6, offset := 256, data := [1, 2, 3] }, [], (kcpState []).but (fun d => { d with flash := [(3, 1)], eth := { d.eth with nv := [{ session := 7, seq := 6, offset := 256, data := [1, 2, 3] }] } }), by decide⟩,
   ⟨onRegs [], by decide⟩⟩

end Sys2Proof.Tests
end

/-! # Register accesses that reach their register

What an access of the control view does once it reaches a register, and what the register map says of the row it reaches. -/

namespace Sys2Proof.Machine

/-! ## The rows of the register map -/

/-- The rows of every block. -/
def mapRows : List RegDesc := regFamilies.flatMap (fun f => f.2.2)

/-- The addresses of the pattern `dims` from `base` on. -/
def addrsOf (base : Nat) : List (Nat × Nat) → List Nat
  | [] => [base]
  | (st, n) :: t => (List.range n).flatMap (fun q => (addrsOf base t).map (· + st * q))

theorem mem_addrsOf_of_hitDims (base : Nat) :
    ∀ (dims : List (Nat × Nat)) (a : Nat), hitDims base dims a = true → a ∈ addrsOf base dims
  | [], a, h => by simpa [hitDims, addrsOf] using h
  | (st, n) :: t, a, h => by
    simp only [hitDims, Bool.and_eq_true, decide_eq_true_eq] at h
    obtain ⟨⟨hle, hq⟩, hrest⟩ := h
    have ih := mem_addrsOf_of_hitDims base t _ hrest
    have hsplit : base + (a - base) % st + st * ((a - base) / st) = a := by
      have := Nat.mod_add_div (a - base) st
      omega
    simp only [addrsOf, List.mem_flatMap, List.mem_range, List.mem_map]
    exact ⟨_, hq, _, ih, hsplit⟩

theorem findRow_eq_some {a : Nat} {r : RegDesc} :
    ∀ {rows : List RegDesc}, findRow a rows = some r → r ∈ rows ∧ hitDims r.base r.dims a = true
  | x :: t, h => by
    rw [findRow] at h
    split at h
    · cases h; exact ⟨List.mem_cons_self, ‹_›⟩
    · exact (findRow_eq_some h).imp_left (List.mem_cons_of_mem _)

theorem mem_of_mem_findFamily {a : Nat} {r : RegDesc} :
    ∀ {fs : List (Nat × Nat × List RegDesc)}, r ∈ findFamily a fs → r ∈ fs.flatMap (fun f => f.2.2)
  | (lo, hi, rows) :: t, h => by
    rw [findFamily] at h
    rw [List.flatMap_cons, List.mem_append]
    split at h
    · exact .inl h
    · exact .inr (mem_of_mem_findFamily h)

/-- A row that covers an address is one of the map's, and the address is one of the row's. -/
theorem regAt_eq_some {a : Nat} {r : RegDesc} (h : regAt a = some r) : r ∈ mapRows ∧ a ∈ addrsOf r.base r.dims :=
  have hrow := findRow_eq_some h
  ⟨mem_of_mem_findFamily hrow.1, mem_addrsOf_of_hitDims _ _ _ hrow.2⟩

theorem eq_of_ite_eq {α : Type} {p : Prop} [Decidable p] {x y z : α} (hx : x ≠ z) (h : (if p then x else y) = z) : y = z := by
  split at h
  · exact absurd h hx
  · exact h

/-- Only the register map makes an area a register. -/
theorem regAt_of_areaAt {d : Device} {a : Nat} {r : RegDesc} (h : areaAt d a = some (.reg r)) : regAt a = some r := by
  unfold areaAt at h
  iterate 15 replace h := eq_of_ite_eq (by simp) h
  simpa using h

/-- No row has a W1C bit that a write could also load with its value. -/
theorem mapRows_w1c_disjoint : ∀ r ∈ mapRows, r.w1c &&& (r.rw ||| r.rwl) = 0 := by decide +kernel

theorem bitAt_rw_eq_false_of_w1c {a : Nat} {r : RegDesc} (hr : regAt a = some r) {i : Nat} (hi : bitAt r.w1c i = true) :
    bitAt r.rw i = false ∧ bitAt r.rwl i = false := by
  have h := congrArg (·.testBit i) (mapRows_w1c_disjoint r (regAt_eq_some hr).1)
  simpa [bitAt, Nat.testBit_and, Nat.testBit_or, show r.w1c.testBit i = true from hi] using h

/-! ## The way of an access to a register -/

/-- The access reaches the register of row `r`: its area is that register, no exception, reset or bus error keeps it away, and it is no
reservation, conditional, fetch, fence or CSR access. -/
def reachesReg (a : Access) (r : RegDesc) (d : Device) : Prop :=
  areaAt d a.addr = some (.reg r) ∧ misaligned (masterId a.master) a.addr a.width = false ∧ d.boot.phase ≠ .reset ∧
    accessCause d a.addr a.width (a.kind == .atomic) = none ∧ (a.kind = .plain ∨ a.kind = .atomic)

theorem accessWriteThrough_of_plain {a : Access} (hk : a.kind = .plain ∨ a.kind = .atomic) (v : Nat) (hwSet : Word) (d : Device) :
    accessWriteThrough a v hwSet d = busWrite (masterId a.master) a.session a.addr a.width (a.kind == .atomic) v hwSet d := by
  unfold accessWriteThrough
  obtain hk | hk := hk <;> rw [hk] <;> cases a.master <;> rfl

theorem accessReadThrough_of_plain {a : Access} (hk : a.kind = .plain ∨ a.kind = .atomic) (hwInc : Nat) (d : Device) :
    accessReadThrough a hwInc d = busRead (masterId a.master) a.addr a.width (a.kind == .atomic) hwInc d := by
  unfold accessReadThrough
  obtain hk | hk := hk <;> rw [hk] <;> cases a.master <;> rfl

/-- A write that reaches a register is that register's write. -/
theorem accessWrite_of_reachesReg {a : Access} {r : RegDesc} {d : Device} (h : reachesReg a r d) (hstop : coreStops a true d = none)
    (v : Nat) (hwSet : Word) :
    accessWrite a v hwSet d =
      writeReg (masterId a.master) (ownerOf (masterId a.master) a.session) a.addr r (BitVec.ofNat 32 v) hwSet d := by
  obtain ⟨harea, hal, hphase, hcause, hkind⟩ := h
  rw [accessWrite, hstop]
  dsimp only
  rw [accessWriteThrough_of_plain hkind, busWrite, if_neg hphase, hal, if_neg Bool.false_ne_true, hcause, harea]
  rfl

/-- A read that reaches a register is that register's read. -/
theorem accessRead_of_reachesReg {a : Access} {r : RegDesc} {d : Device} (h : reachesReg a r d) (hstop : coreStops a false d = none)
    (hwInc : Nat) : accessRead a hwInc d = readReg (masterId a.master) a.addr r hwInc d := by
  obtain ⟨harea, hal, hphase, hcause, hkind⟩ := h
  rw [accessRead, hstop]
  dsimp only
  rw [accessReadThrough_of_plain hkind, busRead, if_neg hphase, hal, if_neg Bool.false_ne_true, hcause, harea]
  rfl

/-- A register write without an action is the write of Table 0.4. -/
theorem writeReg_of_writeActs_none {m a : Nat} {who : StagingOwner} {r : RegDesc} {w hwSet : Word} {d : Device}
    (h : writeActs m who a r w hwSet ((latchPlic d).reply 0) = none) :
    writeReg m who a r w hwSet d = writePlain who a r w hwSet ((latchPlic d).reply 0) := by
  simp only [writeReg, h]

/-! ## The answer to an access -/

@[simp] theorem Device.reply_rd (d : Device) (v a : Nat) : (d.reply v).rd a = d.rd a := rfl
@[simp] theorem Device.reply_reply (d : Device) (v : Nat) : (d.reply v).cores.reply = v := rfl
@[simp] theorem Device.reply_busError (d : Device) (v : Nat) : (d.reply v).cores.busError = false := rfl
/-- The latched interrupt lines are no register; `generalize` keeps their list from being computed. -/
@[simp] theorem latchPlic_rd (d : Device) (a : Nat) : (latchPlic d).rd a = d.rd a := by
  unfold latchPlic
  generalize (List.range 512).filter _ = lines
  rfl

/-- An update of the cores only. -/
theorem SameBut.putCores {as : List Nat} {ps : List Part} {d e : Device} (h : SameBut as ps d e) (x : Cores) (hp : Part.cores ∈ ps) :
    SameBut as ps d { e with cores := x } :=
  h.parts_only rfl rfl rfl rfl (fun p hp' => by
    cases p with
    | cores => exact absurd hp hp'
    | _ => rfl)

theorem SameBut.reply {as : List Nat} {ps : List Part} {d e : Device} (h : SameBut as ps d e) (v : Nat) (hp : Part.cores ∈ ps) :
    SameBut as ps d (e.reply v) :=
  h.putCores _ hp

theorem SameBut.latchPlic {as : List Nat} {ps : List Part} {d e : Device} (h : SameBut as ps d e) (hp : Part.cores ∈ ps) :
    SameBut as ps d (Machine.latchPlic e) :=
  h.putCores _ hp

theorem SameBut.withEth {as : List Nat} {ps : List Part} {d e : Device} (h : SameBut as ps d e) (x : Eth) (hp : Part.eth ∈ ps) :
    SameBut as ps d (e.withEth x) :=
  h.parts_only rfl rfl rfl rfl (fun p hp' => by
    cases p with
    | eth => exact absurd hp hp'
    | _ => rfl)

/-! ## W1C bits that the hardware sets in the cycle of a write (R11) -/

/-- Beside the event of a raised flag, a hardware set is a set of the bit. -/
theorem hwSetBit_rd (a : Nat) (d : Device) (i b : Nat) : (hwSetBit a d i).rd b = (d.set ⟨a, i, i⟩ 1).rd b := by
  simp only [hwSetBit]
  split
  · exact Device.rd_raise d _ b
  · rfl

theorem hwSetBit_cores (a : Nat) (d : Device) (i : Nat) : (hwSetBit a d i).cores = d.cores := by
  simp only [hwSetBit]
  split
  · exact Device.raise_cores d _
  · rfl

theorem SameBut.hwSetBit {as : List Nat} {ps : List Part} {d e : Device} (h : SameBut as ps d e) {a : Nat} (i : Nat) (ha : a ∈ as)
    (hp : Part.evt ∈ ps) : SameBut as ps d (hwSetBit a e i) := by
  simp only [Machine.hwSetBit]
  split
  · exact h.raise ha hp
  · exact h.set _ ha

theorem hwSetBit_rd_bit (a : Nat) (d : Device) (i : Nat) {j : Nat} (hj : j < 32) :
    ((hwSetBit a d i).rd a).getLsbD j = ((d.rd a).getLsbD j || decide (j = i)) := by
  rw [hwSetBit_rd, Device.rd_set_self d ⟨a, i, i⟩ 1, Fld.into_bit _ _ _ _ hj]
  by_cases h : j = i
  · simp [h]
  · rw [if_neg (by dsimp only; omega)]
    simp [h]

/-- The bits `l` that the hardware sets read 1, the others as before. -/
theorem foldl_hwSetBit_rd_bit (a : Nat) {j : Nat} (hj : j < 32) : ∀ (l : List Nat) (d : Device),
    ((l.foldl (hwSetBit a) d).rd a).getLsbD j = ((d.rd a).getLsbD j || decide (j ∈ l))
  | [], d => by simp
  | i :: t, d => by
    rw [List.foldl_cons, foldl_hwSetBit_rd_bit a hj t, hwSetBit_rd_bit a d i hj]
    simp [Bool.or_assoc]

theorem foldl_hwSetBit_cores (a : Nat) : ∀ (l : List Nat) (d : Device), (l.foldl (hwSetBit a) d).cores = d.cores
  | [], _ => rfl
  | i :: t, d => (foldl_hwSetBit_cores a t _).trans (hwSetBit_cores a d i)

theorem SameBut.foldl_hwSetBit {as : List Nat} {ps : List Part} {d : Device} {a : Nat} (ha : a ∈ as) (hp : Part.evt ∈ ps) :
    ∀ (l : List Nat) {e : Device}, SameBut as ps d e → SameBut as ps d (l.foldl (Machine.hwSetBit a) e)
  | [], _, h => h
  | i :: t, _, h => SameBut.foldl_hwSetBit ha hp t (h.hwSetBit i ha hp)

section
variable {who : StagingOwner} {a : Nat} {r : RegDesc} {w hwSet : Word} {d : Device}

/-- A W1C bit after a write: set where the hardware sets it, else clear where 1 is written, else as it was. -/
theorem writePlain_rd_w1c_bit (hr : regAt a = some r) (hrws : r.rws = 0) {i : Nat} (hi : i < 32) (hw1c : bitAt r.w1c i = true) :
    ((writePlain who a r w hwSet d).rd a).getLsbD i =
      (hwSet.getLsbD i || ((d.rd a).getLsbD i && !w.getLsbD i)) := by
  obtain ⟨hrw, hrwl⟩ := bitAt_rw_eq_false_of_w1c hr hw1c
  simp only [bitAt] at hw1c hrw hrwl
  have htakes : (BitVec.ofNat 32 r.rw ||| (if regLocked d a then 0#32 else BitVec.ofNat 32 r.rwl)).getLsbD i = false := by
    split <;> simp [BitVec.getLsbD_ofNat, -BitVec.getLsbD_eq_getElem, hrw, hrwl]
  have hset : decide (i ∈ (List.range 32).filter (bitAt (hwSet.toNat &&& r.w1c))) = hwSet.getLsbD i := by
    simp [bitAt, hi, hw1c, BitVec.testBit_toNat, -BitVec.getLsbD_eq_getElem]
  simp only [writePlain, hrws, if_true]
  rw [foldl_hwSetBit_rd_bit a hi, hset, Device.rd_wr_self]
  simp only [BitVec.getLsbD_and, BitVec.getLsbD_or, BitVec.getLsbD_not, BitVec.getLsbD_ofNat, htakes, hw1c, hi, decide_true]
  cases hwSet.getLsbD i <;> simp

theorem writePlain_cores (hrws : r.rws = 0) : (writePlain who a r w hwSet d).cores = d.cores := by
  simp only [writePlain, hrws, if_true]
  exact foldl_hwSetBit_cores a _ _

/-- A write of Table 0.4 without a staged part changes its register and the events in flight. -/
theorem SameBut.writePlain {as : List Nat} {ps : List Part} {c : Device} (h : SameBut as ps c d) (hrws : r.rws = 0) (ha : a ∈ as)
    (hp : Part.evt ∈ ps) : SameBut as ps c (writePlain who a r w hwSet d) := by
  simp only [Machine.writePlain, hrws, if_true]
  exact SameBut.foldl_hwSetBit ha hp _ (h.wr _ ha)

end

/-! ## Reads of a read-to-clear counter (R11) -/

/-- The read has a rule of its own: mailbox data, a lock, the machine timer, a CRC unit's pairs. -/
def readsByOwnRule (a : Nat) : Prop :=
  (0x10050100 ≤ a ∧ a < 0x10050300 ∧ a % 0x10 = 4) ∨ (0x10060000 ≤ a ∧ a < 0x10060100) ∨ a = R.CORE_MTIME_LO ∨
    (0x10080100 ≤ a ∧ a < 0x10080500 ∧ a % 0x80 < 0x34 ∧ a % 0x80 ≠ 0)

/-- The read captures further registers or pops a queue. -/
def readCaptures (a : Nat) : Prop :=
  a = R.TB_TOD_FRAC ∨ a = R.TB_TSQ_INFO ∨ a = R.PAIR_DIGEST_LO ∨ a = R.CAP_WPOS_LO ∨ a = R.CAP_IPOS_LO ∨
    (0x50410100 ≤ a ∧ a < 0x50410500 ∧ a % 0x40 = 0x30) ∨ (0x50300100 ≤ a ∧ a < 0x50301100 ∧ a % 0x80 = 0x30) ∨
    (0x50200000 ≤ a ∧ a < 0x50240000 ∧ a % 0x10000 = 0x50) ∨ (0x50200000 ≤ a ∧ a < 0x50240000 ∧ a % 0x10000 = 0x58) ∨
    (0x10020100 ≤ a ∧ a < 0x10020160 ∧ a % 0x10 = 0)

/-- The hardware computes what the register reads. -/
def readComputed (a : Nat) : Prop :=
  a = R.CHIP_PINS ∨ a = R.TB_STATUS ∨ a = R.TB_SLEW ∨ a = R.TIO_PENDING ∨ a = R.DMA_PENDING ∨ a = R.MBX_FULL ∨ a = R.LCK_OWNED_LO ∨
    a = R.LCK_OWNED_HI ∨ (0x10060200 ≤ a ∧ a < 0x10060300) ∨ (0x30001000 ≤ a ∧ a < 0x30001600 ∧ a % 0x20 = 0x1C)

/-- The register holds a peak, which a read reloads with the present number. -/
def reloadsPeak (a : Nat) : Prop :=
  (0x20000000 ≤ a ∧ a < 0x200C0000 ∧ a % 0x10000 = 0x48) ∨ a = R.PIPE_WAIT_HWM ∨
    ((0x30100000 ≤ a ∧ a < 0x30140000 ∧ a % 0x10000 = 0x48) ∨ (R.BSN_WAITv 0 ≤ a ∧ a ≤ R.BSN_WAITv 3) ∨ a = R.FLY_UPPER ∨ a = R.EJ_POOL)

theorem readCapture_of_not_readCaptures {a : Nat} (h : ¬ readCaptures a) (d : Device) : readCapture d a = d := by
  simp only [readCaptures, not_or] at h
  simp only [readCapture, h, if_false]

theorem computedReg_of_not_readComputed {a : Nat} (h : ¬ readComputed a) (d : Device) : computedReg d a = none := by
  simp only [readComputed, not_or] at h
  simp only [computedReg, h, if_false]

theorem reloaded_of_not_reloadsPeak {a : Nat} (h : ¬ reloadsPeak a) (d : Device) (hwInc : Nat) : reloaded d a hwInc = hwInc := by
  simp only [reloadsPeak, not_or] at h
  simp only [reloaded, h, if_false, or_false]

/-- The addresses of the read-to-clear counters of 32 bits. -/
def counterAddrs : List Nat :=
  (mapRows.filter (fun r => r.rc == 0xFFFFFFFF)).flatMap (fun r => addrsOf r.base r.dims)

theorem mem_counterAddrs {a : Nat} {r : RegDesc} (hr : regAt a = some r) (hrc : r.rc = 0xFFFFFFFF) : a ∈ counterAddrs := by
  obtain ⟨hrow, ha⟩ := regAt_eq_some hr
  exact List.mem_flatMap.2 ⟨r, List.mem_filter.2 ⟨hrow, by simp [hrc]⟩, ha⟩

theorem counterAddrs_not_readsByOwnRule : ∀ a ∈ counterAddrs, ¬ readsByOwnRule a := by unfold readsByOwnRule; decide +kernel
theorem counterAddrs_not_readCaptures : ∀ a ∈ counterAddrs, ¬ readCaptures a := by unfold readCaptures; decide +kernel
theorem counterAddrs_not_readComputed : ∀ a ∈ counterAddrs, ¬ readComputed a := by unfold readComputed; decide +kernel
theorem counterAddrs_not_reloadsPeak : ∀ a ∈ counterAddrs, ¬ reloadsPeak a := by unfold reloadsPeak; decide +kernel

/-- Only the cascade's drop count tells another part of the device of its read. -/
def countRead (m a v : Nat) (d : Device) : Device :=
  if a = R.CASC_REC_DROP ∧ m < 4 then d.withEth { d.eth with recDrop := capN 0xFFFFFFFF (d.eth.recDrop + v) } else d

theorem countRead_rd (m a v b : Nat) (d : Device) : (countRead m a v d).rd b = d.rd b := by
  unfold countRead
  split <;> rfl

theorem SameBut.countRead {as : List Nat} {ps : List Part} {d e : Device} (h : SameBut as ps d e) (m a v : Nat) (hp : Part.eth ∈ ps) :
    SameBut as ps d (countRead m a v e) := by
  unfold Machine.countRead
  split
  · exact h.withEth _ hp
  · exact h

/-- A read of a read-to-clear counter answers the count and leaves the events of the same cycle in it. -/
theorem readReg_counter {a : Nat} {r : RegDesc} (hr : regAt a = some r) (hrc : r.rc = 0xFFFFFFFF) (m hwInc : Nat) (d : Device) :
    readReg m a r hwInc d = (countRead m a (d.rd a).toNat (d.wr a (BitVec.ofNat 32 hwInc))).reply (d.rd a).toNat := by
  have ha := mem_counterAddrs hr hrc
  have hown := counterAddrs_not_readsByOwnRule a ha
  simp only [readsByOwnRule, not_or] at hown
  obtain ⟨hmbx, hlock, htime, hcrc⟩ := hown
  have hmask : (d.rd a &&& ~~~ BitVec.ofNat 32 0xFFFFFFFF) ||| (BitVec.ofNat 32 hwInc &&& BitVec.ofNat 32 0xFFFFFFFF)
      = BitVec.ofNat 32 hwInc := by
    rw [show BitVec.ofNat 32 0xFFFFFFFF = BitVec.allOnes 32 from rfl, BitVec.not_allOnes, BitVec.and_zero, BitVec.zero_or,
      BitVec.and_allOnes]
  simp only [readReg, hmbx, hlock, htime, hcrc, if_false, readCapture_of_not_readCaptures (counterAddrs_not_readCaptures a ha),
    computedReg_of_not_readComputed (counterAddrs_not_readComputed a ha), reloaded_of_not_reloadsPeak (counterAddrs_not_reloadsPeak a ha),
    hrc, hmask, countRead]
  rfl

/-! ## What R11 says of the two commands -/

theorem bitAt_word (w : Word) (i : Nat) : bitAt w.toNat i = w.getLsbD i := BitVec.testBit_toNat w

theorem bitAt_dword {i : Nat} (v : DWord) (hi : i < 32) : bitAt v.toNat i = (BitVec.ofNat 32 v.toNat).getLsbD i := by
  rw [BitVec.getLsbD_ofNat, decide_eq_true hi, Bool.true_and, bitAt]

theorem exec_registerWrite_of_reachesReg {a : Access} {value : DWord} {hwSet : Word} {r : RegDesc} {s : State}
    (hreach : reachesReg a r s.dev)
    (hacts : writeActs (masterId a.master) (ownerOf (masterId a.master) a.session) a.addr r (BitVec.ofNat 32 value.toNat) hwSet
      ((latchPlic s.dev).reply 0) = none)
    (hstop : coreStops a true s.dev = none) :
    exec (.registerWrite a value hwSet) s = s.done (writePlain (ownerOf (masterId a.master) a.session) a.addr r
      (BitVec.ofNat 32 value.toNat) hwSet ((latchPlic s.dev).reply 0)) := by
  rw [← writeReg_of_writeActs_none hacts, ← accessWrite_of_reachesReg hreach hstop]
  rfl

theorem exec_rcCounterRead_of_reachesReg {a : Access} {r : RegDesc} {s : State} (hreach : reachesReg a r s.dev)
    (hrc : r.rc = 0xFFFFFFFF) (hstop : coreStops a false s.dev = none) (hwInc : Nat) :
    exec (.rcCounterRead a hwInc) s = s.done ((countRead (masterId a.master) a.addr (s.dev.rd a.addr).toNat
      (s.dev.wr a.addr (BitVec.ofNat 32 hwInc))).reply (s.dev.rd a.addr).toNat) := by
  rw [← readReg_counter (regAt_of_areaAt hreach.1) hrc, ← accessRead_of_reachesReg hreach hstop]
  rfl

/-- Settles O34: the W1C bit after a write is the hardware's set, or else the old bit less the bits written 1; a counter's read answers
the count held and leaves the one event of its cycle. -/
theorem sameCycleSetAndIncrement : Obligations.SameCycleSetAndIncrement := by
  unfold Obligations.SameCycleSetAndIncrement
  constructor
  · intro a value hwSet r i s hreach hacts ⟨hw1c, hrws⟩ hstop
    refine completes_done (exec_registerWrite_of_reachesReg hreach hacts hstop) ?_
    have hbit := writePlain_rd_w1c_bit (who := ownerOf (masterId a.master) a.session) (w := BitVec.ofNat 32 value.toNat) (hwSet := hwSet)
      (d := (latchPlic s.dev).reply 0) (regAt_of_areaAt hreach.1) hrws i.isLt hw1c
    rw [Device.reply_rd, latchPlic_rd] at hbit
    simp only [bitAt_word, bitAt_dword value i.isLt, hbit]
    refine ⟨fun hset => ?_, fun hset hone => ?_, fun hset hzero => ?_, ?_, ?_⟩
    · rw [hset, Bool.true_or]
    · rw [hset, hone, Bool.not_true, Bool.and_false, Bool.or_false]
    · rw [hset, hzero, Bool.not_false, Bool.and_true, Bool.false_or]
    · rw [writePlain_cores hrws, Device.reply_busError]
    · exact (((SameBut.refl _ _ _).latchPlic (by simp)).reply 0 (by simp)).writePlain hrws (by simp) (by simp)
  · intro a r s hreach hrc hstop
    refine completes_done (exec_rcCounterRead_of_reachesReg hreach hrc hstop 1) ⟨rfl, ?_, rfl, ?_⟩
    · rw [Device.reply_rd, countRead_rd, Device.rd_wr_self]
      rfl
    · exact (((SameBut.refl _ _ _).wr _ (by simp)).countRead _ _ _ (by simp)).reply _ (by simp)

end Sys2Proof.Machine

/-! # Accesses that end with a bus error

What a refused access answers, what it leaves unchanged, and which accesses the interconnect refuses before they reach a target (R29, R30,
R353). -/

namespace Sys2Proof.Machine

/-! ## One core of the four -/

theorem unit_withUnit_self {α : Type} [Inhabited α] {n : Nat} (v : Vector α n) {i : Nat} (hi : i < n) (x : α) :
    unit (withUnit v i x) i = x := by
  simp [unit, withUnit, hi]

theorem unit_withUnit_ne {α : Type} [Inhabited α] {n : Nat} (v : Vector α n) {i j : Nat} (h : j ≠ i) (x : α) :
    unit (withUnit v i x) j = unit v j := by
  simp [unit, withUnit, h.symm]

theorem Device.core_setCore_self (d : Device) {n : Nat} (hn : n < 4) (x : CoreX) : (d.setCore n x).core n = x :=
  unit_withUnit_self _ hn x

theorem Device.core_setCore_ne (d : Device) {n k : Nat} (h : k ≠ n) (x : CoreX) : (d.setCore n x).core k = d.core k :=
  unit_withUnit_ne _ h x

/-! ## Traps -/

section
variable (d : Device) (n cause a : Nat)

theorem coreTrap_core_ne {k : Nat} (h : k ≠ n) : (coreTrap d n cause a).core k = d.core k :=
  Device.core_setCore_ne d h _

/-- Of its own core a trap changes the hart alone. -/
theorem coreTrap_core_self (hn : n < 4) : ∃ h, (coreTrap d n cause a).core n = { d.core n with hart := h } :=
  ⟨_, Device.core_setCore_self d hn _⟩

theorem coreTrap_caches {k : Nat} (hk : k < 4) :
    ((coreTrap d n cause a).core k).dcache = (d.core k).dcache ∧ ((coreTrap d n cause a).core k).icache = (d.core k).icache := by
  by_cases h : k = n
  · subst h
    obtain ⟨h', hcore⟩ := coreTrap_core_self d k cause a hk
    rw [hcore]
    exact ⟨rfl, rfl⟩
  · rw [coreTrap_core_ne d n cause a h]
    exact ⟨rfl, rfl⟩

theorem coreTrap_cores : (coreTrap d n cause a).cores = { d.cores with core := (coreTrap d n cause a).cores.core } := rfl

end

theorem SameBut.coreTrap {as : List Nat} {ps : List Part} {d e : Device} (h : SameBut as ps d e) (n cause a : Nat) (hc : Part.cores ∈ ps)
    (hf : Part.fresh ∈ ps) : SameBut as ps d (coreTrap e n cause a) :=
  h.parts_only rfl rfl rfl rfl (fun p hp => by
    cases p with
    | cores => exact absurd hc hp
    | fresh => exact absurd hf hp
    | _ => rfl)

/-- A frame that lets more parts change. -/
theorem SameBut.mono_parts {as : List Nat} {ps qs : List Part} {d e : Device} (h : SameBut as ps d e) (hsub : ps ⊆ qs) : SameBut as qs d e :=
  { h with parts := fun p hp => h.parts p (fun hmem => hp (hsub hmem)) }

theorem SameBut.putResv {as : List Nat} {ps : List Part} {d e : Device} (h : SameBut as ps d e) (l : List (Nat × Nat)) (hr : Part.resv ∈ ps) :
    SameBut as ps d { e with resv := l } :=
  h.parts_only rfl rfl rfl rfl (fun p hp => by
    cases p with
    | resv => exact absurd hr hp
    | _ => rfl)

/-! ## The answer to a refused access (R353) -/

theorem latchBusError_cores (d : Device) (m addr : Nat) (write : Bool) (cause : Nat) :
    (latchBusError d m addr write cause).cores = d.cores := by
  unfold latchBusError
  split <;> rfl

theorem SameBut.latchBusError {ps : List Part} {d e : Device} (h : SameBut busErrorRegs ps d e) (m addr : Nat) (write : Bool) (cause : Nat) :
    SameBut busErrorRegs ps d (latchBusError e m addr write cause) := by
  unfold Machine.latchBusError
  split
  · exact h
  · have hinfo : R.CORE_BUSERR_INFO ∈ busErrorRegs := by simp [busErrorRegs]
    exact ((((h.setPair addr (by simp [busErrorRegs]) (by simp [busErrorRegs])).set m hinfo).setBit write hinfo).set cause hinfo).set 1 hinfo

theorem masterId_eq_debug_iff (m : Master) : masterId m = 9 ↔ m = .debug := by
  cases m with
  | core n => simp only [masterId, reduceCtorEq, iff_false]; omega
  | peer n => simp only [masterId, reduceCtorEq, iff_false]; omega
  | _ => simp [masterId]

/-- Only core `k` has the identity `k`. -/
theorem masterId_eq_core_iff (m : Master) (k : Fin 4) : masterId m = k.val ↔ m = .core k := by
  cases m with
  | core n => simp [masterId, Fin.ext_iff]
  | _ => simp only [masterId, reduceCtorEq, iff_false]; omega

/-- The access has ended with a bus error: answered without data, in the debug module as its sberror, and latched. Of the cores only the
one that made the access may be another, and no cache. -/
structure EndsInBusError (a : Access) (d e : Device) : Prop where
  cores : e.cores = { d.cores with
    core := e.cores.core, busError := true, reply := 0,
    dbgm := if a.master = .debug then { d.cores.dbgm with sberror := true } else d.cores.dbgm,
    latched := e.cores.latched }
  core : ∀ k : Fin 4, (a.master ≠ .core k → e.core k = d.core k) ∧
    (e.core k).dcache = (d.core k).dcache ∧ (e.core k).icache = (d.core k).icache
  frame : SameBut busErrorRegs [.cores, .fresh] d e

theorem EndsInBusError.busError {a : Access} {d e : Device} (h : EndsInBusError a d e) : e.cores.busError = true := by
  rw [h.cores]

theorem EndsInBusError.reply {a : Access} {d e : Device} (h : EndsInBusError a d e) : e.cores.reply = 0 := by
  rw [h.cores]

/-- The master's side of a bus error, before the latch: the exception of a core. -/
def trapMaster (exc : Nat) (d : Device) (m addr : Nat) : Device := if m < 4 then coreTrap d m exc addr else d

theorem busErrorAs_eq (exc : Nat) (d : Device) (m addr : Nat) (write : Bool) (cause : Nat) :
    busErrorAs exc d m addr write cause =
      let d0 := trapMaster exc d m addr
      latchBusError { d0 with cores := { d0.cores with
        reply := 0, busError := true, dbgm := if m = 9 then { d.cores.dbgm with sberror := true } else d.cores.dbgm } } m addr write cause :=
  rfl

theorem trapMaster_cores (exc : Nat) (d : Device) (m addr : Nat) :
    (trapMaster exc d m addr).cores = { d.cores with core := (trapMaster exc d m addr).cores.core } := by
  unfold trapMaster
  split <;> rfl

theorem trapMaster_core_ne (exc : Nat) (d : Device) (m addr : Nat) {k : Nat} (h : k ≠ m) : (trapMaster exc d m addr).core k = d.core k := by
  unfold trapMaster
  split
  · exact coreTrap_core_ne d m exc addr h
  · rfl

theorem trapMaster_caches (exc : Nat) (d : Device) (m addr : Nat) {k : Nat} (hk : k < 4) :
    ((trapMaster exc d m addr).core k).dcache = (d.core k).dcache ∧ ((trapMaster exc d m addr).core k).icache = (d.core k).icache := by
  unfold trapMaster
  split
  · exact coreTrap_caches d m exc addr hk
  · exact ⟨rfl, rfl⟩

theorem SameBut.trapMaster {as : List Nat} {ps : List Part} {d e : Device} (h : SameBut as ps d e) (exc m addr : Nat) (hc : Part.cores ∈ ps)
    (hf : Part.fresh ∈ ps) : SameBut as ps d (trapMaster exc e m addr) := by
  unfold Machine.trapMaster
  split
  · exact h.coreTrap m exc addr hc hf
  · exact h

/-- The cores after a bus error are those after the exception. -/
theorem busErrorAs_core (exc : Nat) (d : Device) (m addr : Nat) (write : Bool) (cause k : Nat) :
    (busErrorAs exc d m addr write cause).core k = (trapMaster exc d m addr).core k := by
  rw [busErrorAs_eq, Device.core, latchBusError_cores]
  rfl

theorem busErrorAs_endsInBusError (a : Access) (exc : Nat) (d : Device) (write : Bool) (cause : Nat) :
    EndsInBusError a d (busErrorAs exc d (masterId a.master) a.addr write cause) where
  cores := by
    simp only [busErrorAs_eq, latchBusError_cores, masterId_eq_debug_iff]
    rw [trapMaster_cores]
  core k := by
    simp only [busErrorAs_core]
    refine ⟨fun hne => trapMaster_core_ne exc d _ _ ?_, trapMaster_caches exc d _ _ k.isLt⟩
    exact fun hk => hne ((masterId_eq_core_iff a.master k).1 hk.symm)
  frame := by
    rw [busErrorAs_eq]
    exact ((((SameBut.refl _ _ d).trapMaster exc _ _ (by simp) (by simp)).putCores _ (by simp)).latchBusError _ _ _ _)

/-! ## Accesses that the interconnect refuses -/

/-- The interconnect keeps the access from its target, whether or not it is an atomic. -/
def RefusesAccess (a : Access) (d : Device) : Prop :=
  ∀ atomic : Bool, ∃ c, accessCause d a.addr a.width atomic = some c

/-- No target lies at an unassigned address (R29). -/
theorem refusesAccess_of_areaAt_none {a : Access} {d : Device} (h : areaAt d a.addr = none) : RefusesAccess a d := by
  intro atomic
  unfold accessCause
  rw [h]
  cases shutCause d a.addr with
  | none => exact ⟨causeUnassigned, rfl⟩
  | some c => exact ⟨c, rfl⟩

/-- A powered-down block is shut (R30), unless the reset of its region has shut it before. -/
theorem shutCause_of_poweredDown {d : Device} {a : Nat} (h : poweredDown d a = true) : ∃ c, shutCause d a = some c := by
  unfold shutCause
  rw [if_pos h]
  exact ⟨_, (apply_ite some _ _ _).symm⟩

theorem refusesAccess_of_poweredDown {a : Access} {d : Device} (h : poweredDown d a.addr = true) : RefusesAccess a d := by
  obtain ⟨c, hc⟩ := shutCause_of_poweredDown h
  intro atomic
  unfold accessCause
  rw [hc]
  exact ⟨c, rfl⟩

/-- The access comes out of its master onto the interconnect: it is aligned, no reset is held, and the core itself does not stop it. -/
structure LeavesMaster (a : Access) (write : Bool) (d : Device) : Prop where
  aligned : misaligned (masterId a.master) a.addr a.width = false
  phase : d.boot.phase ≠ .reset
  notStopped : coreStops a write d = none

section
variable {a : Access} {d : Device}

theorem busWrite_of_refusesAccess {write : Bool} (hr : RefusesAccess a d) (hl : LeavesMaster a write d) (session : Nat) (atomic : Bool)
    (v : Nat) (hwSet : Word) :
    ∃ c, busWrite (masterId a.master) session a.addr a.width atomic v hwSet d = busError d (masterId a.master) a.addr true c := by
  obtain ⟨c, hc⟩ := hr atomic
  refine ⟨c, ?_⟩
  rw [busWrite, if_neg hl.phase, hl.aligned, if_neg Bool.false_ne_true, hc]

theorem busRead_of_refusesAccess {write : Bool} (hr : RefusesAccess a d) (hl : LeavesMaster a write d) (atomic : Bool) (hwInc : Nat) :
    ∃ c, busRead (masterId a.master) a.addr a.width atomic hwInc d = busError d (masterId a.master) a.addr false c := by
  obtain ⟨c, hc⟩ := hr atomic
  refine ⟨c, ?_⟩
  rw [busRead, if_neg hl.phase, hl.aligned, if_neg Bool.false_ne_true, hc]

theorem accessWriteThrough_eq_busWrite (hk : a.kind ≠ .conditional ∧ a.kind ≠ .fenceI ∧ a.kind ≠ .csr) (v : Nat) (hwSet : Word) :
    accessWriteThrough a v hwSet d = busWrite (masterId a.master) a.session a.addr a.width (a.kind == .atomic) v hwSet d := by
  obtain ⟨hcond, hfence, hcsr⟩ := hk
  unfold accessWriteThrough
  split
  · exact absurd ‹_› hcsr
  · exact absurd ‹_› hcond
  · exact absurd ‹_› hfence
  · rfl

theorem accessWriteThrough_conditional {n : Fin 4} (hm : a.master = .core n) (hk : a.kind = .conditional) (v : Nat) (hwSet : Word) :
    accessWriteThrough a v hwSet d = storeConditional n a.addr a.width v d := by
  unfold accessWriteThrough
  rw [hm, hk]

/-- A refused write ends with a bus error. -/
theorem accessWrite_endsInBusError (hr : RefusesAccess a d) (hl : LeavesMaster a true d)
    (hk : a.kind ≠ .conditional ∧ a.kind ≠ .fenceI ∧ a.kind ≠ .csr) (v : Nat) (hwSet : Word) :
    EndsInBusError a d (accessWrite a v hwSet d) := by
  obtain ⟨c, hc⟩ := busWrite_of_refusesAccess hr hl a.session (a.kind == .atomic) v hwSet
  rw [accessWrite, hl.notStopped]
  dsimp only
  rw [accessWriteThrough_eq_busWrite hk, hc]
  exact busErrorAs_endsInBusError a _ d true c

/-- A refused store-conditional ends with a bus error and, beside it, loses the reservation of its core (R343). -/
theorem accessWrite_conditional_of_refusesAccess (hr : RefusesAccess a d) (hl : LeavesMaster a true d) {n : Fin 4} (hm : a.master = .core n)
    (hk : a.kind = .conditional) (v : Nat) (hwSet : Word) :
    ∃ e, EndsInBusError a d e ∧ accessWrite a v hwSet d = { e with resv := d.resv.filter (fun r => r.1 ≠ n.val) } := by
  obtain ⟨c, hc⟩ := busWrite_of_refusesAccess hr hl 0 true v 0#32
  obtain ⟨c', hc'⟩ := hr true
  have hend := busErrorAs_endsInBusError a excStore d true c
  refine ⟨_, hend, ?_⟩
  have hresv : (busError d (masterId a.master) a.addr true c).resv = d.resv := hend.frame.parts .resv (by simp)
  rw [accessWrite, hl.notStopped]
  dsimp only
  rw [accessWriteThrough_conditional hm hk, storeConditional, hc', if_pos (.inr (.inr rfl)), ← (masterId_eq_core_iff a.master n).2 hm, hc, hresv]
  rfl

/-- A refused read, of data, of instructions or with a reservation, ends with a bus error. -/
theorem accessRead_endsInBusError (hr : RefusesAccess a d) (hl : LeavesMaster a false d) (hk : a.kind ≠ .fenceI ∧ a.kind ≠ .csr)
    (hwInc : Nat) : EndsInBusError a d (accessRead a hwInc d) := by
  obtain ⟨hfence, hcsr⟩ := hk
  rw [accessRead, hl.notStopped]
  dsimp only
  unfold accessReadThrough
  split
  · exact absurd ‹_› hcsr
  next n hm _ =>
    obtain ⟨c, hc⟩ := hr false
    rw [coreFetch, hc, ← (masterId_eq_core_iff a.master n).2 hm]
    exact busErrorAs_endsInBusError a excFetch d false c
  next n hm _ =>
    obtain ⟨c, hc⟩ := busRead_of_refusesAccess hr hl true 0
    have hend := busErrorAs_endsInBusError a excLoad d false c
    rw [← (masterId_eq_core_iff a.master n).2 hm, loadReserved, hc, if_pos (.inr hend.busError)]
    exact hend
  · exact absurd ‹_› hfence
  · obtain ⟨c, hc⟩ := busRead_of_refusesAccess hr hl (a.kind == .atomic) hwInc
    rw [hc]
    exact busErrorAs_endsInBusError a excLoad d false c

end

/-! ## What R29 and R30 say of the two commands -/

theorem exec_registerWrite (a : Access) (value : DWord) (hwSet : Word) (s : State) :
    exec (.registerWrite a value hwSet) s = s.done (accessWrite a value.toNat hwSet s.dev) := rfl

theorem exec_rcCounterRead (a : Access) (hwInc : Nat) (s : State) :
    exec (.rcCounterRead a hwInc) s = s.done (accessRead a hwInc s.dev) := rfl

/-- The power state of RSV_POWER is no part of the latch of a bus error. -/
theorem EndsInBusError.rd_RSV_POWER {a : Access} {d e : Device} (h : EndsInBusError a d e) : e.rd R.RSV_POWER = d.rd R.RSV_POWER :=
  h.frame.regs _ (by simp [busErrorRegs])

/-- Settles O32: no area lies at an unassigned address, so that the interconnect refuses every access to it; a store-conditional that is
refused loses its reservation too. -/
theorem unassignedAddressIsABusError : Obligations.UnassignedAddressIsABusError := by
  unfold Obligations.UnassignedAddressIsABusError
  refine ⟨?_, ?_, ?_⟩
  · intro a value hwSet s hk ⟨harea, hal, hphase⟩ hstop
    have hend := accessWrite_endsInBusError (refusesAccess_of_areaAt_none harea) ⟨hal, hphase, hstop⟩ hk value.toNat hwSet
    exact completes_done (exec_registerWrite a value hwSet s) ⟨hend.busError, hend.cores, hend.core, hend.frame⟩
  · intro a n value s ⟨hm, hk, _⟩ ⟨harea, hal, hphase⟩ hstop
    have hal' : misaligned (masterId a.master) a.addr a.width = false := by rw [hm]; exact hal
    obtain ⟨e, hend, heq⟩ := accessWrite_conditional_of_refusesAccess (refusesAccess_of_areaAt_none harea) ⟨hal', hphase, hstop⟩ hm hk
      value.toNat 0
    refine completes_done (exec_registerWrite a value 0 s) ?_
    rw [heq]
    exact ⟨hend.busError, rfl, hend.cores, hend.core, (hend.frame.mono_parts (by simp)).putResv _ (by simp)⟩
  · intro a k s hk ⟨harea, hal, hphase⟩ hstop
    have hend := accessRead_endsInBusError (refusesAccess_of_areaAt_none harea) ⟨hal, hphase, hstop⟩ hk k
    exact completes_done (exec_rcCounterRead a k s) ⟨hend.busError, hend.reply, hend.cores, hend.core, hend.frame⟩

/-- Settles O33: a powered-down block is shut, so that the interconnect refuses every access to it; the bus error leaves RSV_POWER as it
is. -/
theorem poweredDownBlockIsABusError : Obligations.PoweredDownBlockIsABusError := by
  unfold Obligations.PoweredDownBlockIsABusError
  constructor
  · intro a value hwSet s hk ⟨hdown, hal, hphase⟩ hstop
    have hend := accessWrite_endsInBusError (refusesAccess_of_poweredDown hdown) ⟨hal, hphase, hstop⟩ hk value.toNat hwSet
    exact completes_done (exec_registerWrite a value hwSet s) ⟨hend.busError, hend.rd_RSV_POWER, hend.cores, hend.core, hend.frame⟩
  · intro a k s hk ⟨hdown, hal, hphase⟩ hstop
    have hend := accessRead_endsInBusError (refusesAccess_of_poweredDown hdown) ⟨hal, hphase, hstop⟩ hk k
    exact completes_done (exec_rcCounterRead a k s)
      ⟨hend.busError, hend.reply, hend.rd_RSV_POWER, hend.cores, hend.core, hend.frame⟩

end Sys2Proof.Machine

/-! # The DRAM ports and the training of the controllers

Two forms of the DRAM statements that the model answers in another way: a refused request of the DMA port (Table 13.5), and a controller
that has failed and trains again in the safe state (R463). -/

namespace Sys2Proof.Machine

/-- The device of a completed meaning is the computed one. -/
theorem dev_of_done_eq_next {s : State} {d e : Device} (h : s.done d = .next { s with dev := e }) : e = d := by
  unfold State.done at h
  injection h with hstate
  injection hstate with _ hdev
  exact hdev.symm

/-! ## A refused request of the DMA port (Table 13.5, R374) -/

theorem withChan_cores (d : Device) (c : Nat) (f : DmaChan → DmaChan) : (d.withChan c f).cores = d.cores := rfl

theorem setDma_cores (d : Device) (c st : Nat) : (setDma d c st).cores = d.cores := by
  unfold setDma
  split <;> rfl

theorem dmaHalt_cores (d : Device) (c : Nat) (flag : Fld) (addr : Nat) (write : Bool) (cause : Nat) :
    (dmaHalt d c flag addr write cause).cores = d.cores := by
  have hhalted : ∀ d0 : Device, (dmaFlag (setDma d0 c dmHalted) flag).cores = d0.cores := fun d0 =>
    (Device.raise_cores _ flag).trans (setDma_cores d0 c dmHalted)
  unfold dmaHalt
  split
  · exact hhalted _
  · exact hhalted _

/-- A bus error on an access of a DMA channel goes to the channel, and no master of the control view gets an answer. -/
theorem dmaStops_cores (d : Device) (c addr : Nat) (write : Bool) (cause : Nat) : (dmaStops d c addr write cause).cores = d.cores := by
  unfold dmaStops
  split
  · rfl
  · dsimp only
    split
    · rw [dmaHalt_cores, latchBusError_cores]
    · rw [withChan_cores, setDma_cores, latchBusError_cores]

/-- Outside the usable capacity a request of the DMA port stops its channel. -/
theorem memRequestDev_dmaPort_of_not_inDram {d : Device} {a : Nat} (h : inDram d a = false) (source len : Nat) (write : Bool)
    (data : List Byte) (cycle : Nat) :
    memRequestDev 5 source a len write data cycle d = dmaStops d (source % 16) a write 0 := by
  have hout : ¬ inDram d a = true := by rw [h]; exact Bool.false_ne_true
  rw [memRequestDev, if_pos hout]
  rfl

theorem exec_memRequest (port : Fin 9) (source a len : Nat) (write : Bool) (data : List Byte) (cycle : Nat) (s : State) :
    exec (.memRequest port source a len write data cycle) s = s.done (memRequestDev port source a len write data cycle s.dev) := rfl

/-- After start-up, with all else as at reset, DMA channel 0 runs. -/
def dmaRunning : State := { dev := ({ boot := { phase := .done } } : Device).set (F.DMAc_STATUS.STATE 0) dmRun }

/-- Refutes O43: on port 5 a request outside the usable capacity halts its DMA channel (Table 13.5, MP5) and answers no master of the
control view, so that `busError` of the cores stays false, where the first clause has every port set it. -/
theorem not_dramRequests : ¬ Obligations.DramRequests := by
  unfold Obligations.DramRequests
  rintro ⟨hOutside, -⟩
  have hdram : inDram dmaRunning.dev 0 = false := by decide
  obtain ⟨e, hexec, hbus, -⟩ := hOutside 5 0 0 8 0 false [] dmaRunning hdram
  rw [exec_memRequest] at hexec
  have he : e = dmaStops dmaRunning.dev (0 % 16) 0 false 0 :=
    (dev_of_done_eq_next hexec).trans (memRequestDev_dmaPort_of_not_inDram hdram 0 8 false [] 0)
  rw [he, dmaStops_cores] at hbus
  exact absurd hbus (by decide)

/-! ## A controller that has failed and trains again (R298, R463) -/

/-- A controller that training leaves without an error runs. -/
theorem memTrained_memState (n : Nat) (d : Device) : (memTrained n true d).memState n = msRun := by
  unfold memTrained Device.memState
  have hmult : (F.MEMn_STATUS.STATE n).hi < (F.MEMn_STATUS.MULT n).lo := by simp
  have hdebt : (F.MEMn_STATUS.STATE n).hi < (F.MEMn_STATUS.DEBT n).lo := by simp
  rw [if_pos rfl, Device.get_set_ne _ _ _ _ (.inr (.inr hmult)), Device.setI, Device.get_set_ne _ _ _ _ (.inr (.inr hdebt)),
    Device.get_set_self _ _ _ (by simp)]
  rfl

/-- In the safe state with cause MEMORY a controller that has failed takes the end of its training and runs. -/
theorem memTrainDoneDev_memState_of_failed {n : Nat} {d : Device} (hfail : d.memState n = msFail) (hsafe : d.safe = true)
    (hcode : d.get F.FLT_STATUS.SAFE_CODE = faultMemory) : (memTrainDoneDev n true d).memState n = msRun := by
  have htakes : ¬ (d.memState n ≠ msTrain ∧ ¬ (d.memState n = msFail ∧ d.safe = true ∧ d.get F.FLT_STATUS.SAFE_CODE = faultMemory)) :=
    fun h => h.2 ⟨hfail, hsafe, hcode⟩
  rw [memTrainDoneDev, if_neg htakes, if_pos rfl]
  exact memTrained_memState n d

theorem exec_memTrainDone (n : Fin 4) (ok : Bool) (s : State) : exec (.memTrainDone n ok) s = s.done (memTrainDoneDev n ok s.dev) := rfl

/-- After start-up, with all else as at reset, controller 0 has failed in the safe state with cause MEMORY. -/
def failedInSafeState : State :=
  { dev := ((({ boot := { phase := .done } } : Device).set (F.MEMn_STATUS.STATE 0) msFail).set F.FLT_STATUS.SAFE 1).set
      F.FLT_STATUS.SAFE_CODE faultMemory }

/-- Refutes O44: in the safe state with cause MEMORY the controllers train again without a write of INIT, one that failed too (R463), so
that MEM_TRAIN_DONE takes it from FAIL to RUN, where the fourth clause has nothing change outside TRAIN. -/
theorem not_dramRefreshAndTraining : ¬ Obligations.DramRefreshAndTraining := by
  unfold Obligations.DramRefreshAndTraining
  rintro ⟨-, -, -, hNotTrain, -⟩
  have hfail : failedInSafeState.dev.memState 0 = msFail := by decide
  obtain ⟨e, hexec, he⟩ := hNotTrain 0 true failedInSafeState (by decide)
  rw [exec_memTrainDone] at hexec
  have hrun : e.memState 0 = msRun := by
    rw [dev_of_done_eq_next hexec]
    exact memTrainDoneDev_memState_of_failed hfail (by decide) (by decide)
  rw [he, hfail] at hrun
  exact absurd hrun (by decide)

end Sys2Proof.Machine

/-! # The Ethernet port and the KCP server

What a waiting frame of the runtime does to the transmit ring, what the server answers, and three forms of the Ethernet and KCP statements
that the model answers in another way: a reply that waits for its client's MAC address (Table 14.3), a TAIL outside its ring (R307), and keys
in an image that the flash holds (R317). -/

namespace Sys2Proof.Machine

/-! ## The transmit ring -/

theorem dramStore_eth (bs : List Byte) : ∀ (d : Device) (a : Nat), (dramStore d a bs).eth = d.eth := by
  induction bs with
  | nil => intro d a; rfl
  | cons b t ih =>
    intro d a
    rw [dramStore, ih]
    split <;> rfl

theorem Device.byte_setByte_self (d : Device) (a : Nat) (b : Byte) : (d.setByte a b).byte a = b := Sparse.get_put_self _ _ _ _

theorem Device.byte_setByte_ne (d : Device) {a k : Nat} (b : Byte) (h : k ≠ a) : (d.setByte a b).byte k = d.byte k :=
  Sparse.get_put_ne _ _ _ _ _ h

theorem dramStore_byte_of_lt {k : Nat} (bs : List Byte) : ∀ (d : Device) (a : Nat), k < a → (dramStore d a bs).byte k = d.byte k := by
  induction bs with
  | nil => intro d a _; rfl
  | cons b t ih =>
    intro d a h
    rw [dramStore, ih _ _ (by omega)]
    split
    · exact Device.byte_setByte_ne d b (by omega)
    · rfl

theorem dramStore_byte_head {d : Device} {a : Nat} (hin : inDram d a = true) (hserves : dramServes d = true) (b : Byte) (t : List Byte) :
    (dramStore d a (b :: t)).byte a = b := by
  rw [dramStore, dramStore_byte_of_lt t _ _ (Nat.lt_succ_self a), if_pos ⟨hin, hserves⟩, Device.byte_setByte_self]

theorem txFill_eth (d : Device) (frame : List Byte) : (txFill d frame).eth = d.eth := dramStore_eth _ _ _

/-- Address of slot TAIL of the transmit ring. -/
def txTailSlot (d : Device) : Nat := slotAddr d R.ETH_TXQ_BASE_LO R.ETH_TXQ_BASE_HI (d.get F.ETH_TXQ_TAIL.TAIL)

theorem txFill_byte_txTailSlot {d : Device} (hin : inDram d (txTailSlot d) = true) (hserves : dramServes d = true) (frame : List Byte) :
    (txFill d frame).byte (txTailSlot d) = BitVec.ofNat 8 frame.length :=
  dramStore_byte_head hin hserves _ _

theorem txFill_tail (d : Device) (frame : List Byte) :
    (txFill d frame).get F.ETH_TXQ_TAIL.TAIL = (d.get F.ETH_TXQ_TAIL.TAIL + 1) % 2 ^ d.get F.ETH_TXQ_SIZE.SLOTS_LOG2 % 4096 :=
  Device.get_set_self _ _ _ (by simp)

/-! ## Frames that wait for a slot (R308) -/

theorem pump_of_firm_nil {d : Device} (h : d.eth.firm = []) (n : Nat) : pump n d = d := by
  cases n with
  | zero => rfl
  | succ n => simp [pump, h]

/-- The MAC address that a waiting frame is sent to. -/
def firmMac (d : Device) : FirmFrame → Nat
  | .kcp _ client _ => macOf d client
  | .bytes _ => 0

/-- A frame that waits alone takes slot TAIL. -/
theorem pump_of_firm_singleton {d : Device} {f : FirmFrame} {b : List Byte} (hrec : recovering d = false) (hroom : txRoom d = true)
    (hfirm : d.eth.firm = [f]) (hmac : unknownClient d f = none) (hb : firmBytes d (firmMac d f) f = some b) (n : Nat) :
    pump (n + 1) d = txFill (d.withEth { d.eth with firm := [] }) b := by
  have hfind : d.eth.firm.find? (fun f => (unknownClient d f).isNone) = some f := by simp [hfirm, hmac]
  have hwaits : ¬ (recovering d = true ∨ ¬ txRoom d = true) := by simp [hrec, hroom]
  have herase : d.eth.firm.erase f = [] := by rw [hfirm, List.erase_cons_head]
  rw [pump, if_neg hwaits, hfind]
  change pump n (match firmBytes d (firmMac d f) f with
    | some b => txFill (d.withEth { d.eth with firm := d.eth.firm.erase f }) b
    | none => d.withEth { d.eth with firm := d.eth.firm.erase f }) = _
  rw [hb, herase]
  exact pump_of_firm_nil (congrArg Eth.firm (txFill_eth _ b)) n

/-- The device with `f` as its one frame that waits. -/
def Device.withWaiting (d : Device) (f : FirmFrame) : Device := d.withEth { d.eth with firm := [f] }

/-- A frame of the runtime to a known address, with no other that waits and room in the ring, takes slot TAIL. -/
theorem sendFirm_of_room {d : Device} {f : FirmFrame} {b : List Byte} (hrec : recovering d = false) (hroom : txRoom d = true)
    (hempty : d.eth.firm = []) (hmac : unknownClient d f = none) (hb : firmBytes d (firmMac d f) f = some b) :
    sendFirm d f = txFill d b := by
  have hmac1 : unknownClient (d.withWaiting f) f = none := by cases f <;> exact hmac
  have hb1 : firmBytes (d.withWaiting f) (firmMac (d.withWaiting f) f) f = some b := by cases f <;> exact hb
  have hsame : d.withEth { d.eth with firm := [] } = d := by
    rw [← hempty]
    rfl
  have hwaits : sendFirm d f = pump 64 (d.withWaiting f) := by
    rw [sendFirm]
    simp only [hmac, hempty, List.nil_append, Device.withWaiting]
  rw [hwaits, pump_of_firm_singleton (d := d.withWaiting f) hrec hroom rfl hmac1 hb1]
  exact congrArg (txFill · b) hsame

theorem firmBytes_kcp_of_fits {d : Device} {r : KcpReply} {client : KcpAddr}
    (h : udpPacket client.v6 (replyBytes r).length ≤ d.get F.ETH_MTU.MTU) (mac port : Nat) :
    firmBytes d mac (.kcp r client port)
      = some (udpFrame d mac client.v6 (ownIp d client.v6) client.ip (d.get F.KCP_CFG.PORT) port (replyBytes r)) :=
  if_neg (Nat.not_lt.mpr h)

/-- The device with the MAC address of a neighbour, before the frames that waited for it go on. -/
def Device.withNeighbour (d : Device) (a : KcpAddr) (mac : Nat) : Device :=
  d.withEth { d.eth with
    neighbours := ((a, mac) :: d.eth.neighbours.filter (fun e => e.1 != a)).take 64, asked := d.eth.asked.filter (fun x => x != a) }

theorem learn_eq (d : Device) (a : KcpAddr) (mac : Nat) : learn d a mac = pump 64 (d.withNeighbour a mac) := rfl

theorem macKnown_withNeighbour (d : Device) (a : KcpAddr) (mac : Nat) : macKnown (d.withNeighbour a mac) a = some mac := by
  simp [macKnown, Device.withNeighbour, Device.withEth]

/-- A reply that waits alone for its client's MAC address takes slot TAIL when the address is learnt. -/
theorem learn_tail_of_waiting {d : Device} {a : KcpAddr} {r : KcpReply} {port : Nat} (hrec : recovering d = false)
    (hroom : txRoom d = true) (hfirm : d.eth.firm = [.kcp r a port]) (hfits : udpPacket a.v6 (replyBytes r).length ≤ d.get F.ETH_MTU.MTU)
    (mac : Nat) :
    (learn d a mac).get F.ETH_TXQ_TAIL.TAIL = (d.get F.ETH_TXQ_TAIL.TAIL + 1) % 2 ^ d.get F.ETH_TXQ_SIZE.SLOTS_LOG2 % 4096 := by
  have hknown : unknownClient (d.withNeighbour a mac) (.kcp r a port) = none := by
    simp [unknownClient, macKnown_withNeighbour]
  rw [learn_eq, pump_of_firm_singleton (d := d.withNeighbour a mac) hrec hroom hfirm hknown (firmBytes_kcp_of_fits hfits _ _), txFill_tail]
  rfl

/-! ## Replies -/

theorem pump_reply (n : Nat) : ∀ d : Device, (pump n d).eth.reply = d.eth.reply := by
  induction n with
  | zero => intro d; rfl
  | succ n ih =>
    intro d
    rw [pump]
    split
    · rfl
    · split
      · rfl
      · dsimp only
        rw [ih]
        split
        · rw [txFill_eth]; rfl
        · rfl

theorem askMac_reply (d : Device) (a : KcpAddr) : (askMac d a).eth.reply = d.eth.reply := by
  unfold askMac
  split <;> rfl

theorem sendFirm_reply (d : Device) (f : FirmFrame) : (sendFirm d f).eth.reply = d.eth.reply := by
  rw [sendFirm, pump_reply]
  dsimp only
  split
  · rw [askMac_reply]; rfl
  · rfl

/-! ## The KCP server -/

theorem sendReply_reply (d : Device) (q : KcpMsg) (r : KcpReply) : (sendReply d q r).eth.reply = some r := sendFirm_reply _ _

theorem kcpAnswer_reply (code : Nat) (q : KcpMsg) (key : Option (List Byte)) (r : KcpDone) :
    (kcpAnswer code q key r).eth.reply = some (kcpReply key code q.session q.seq r.status r.body) := by
  unfold kcpAnswer
  dsimp only
  split
  · exact sendReply_reply _ _ _
  · split <;> exact sendReply_reply _ _ _

/-- A well-formed datagram for no session is answered BAD_SESSION. -/
theorem kcpServe_of_no_session {d : Device} {q : KcpMsg} (hreach : kcpReaches d q = true) (hnone : d.session q.session = none)
    (code least : Nat) (rom : Bool) (run : Session → List Byte → Device → KcpDone) :
    kcpServe code least rom run q d = sendReply d q (kcpReply none code q.session q.seq kcBadSession []) := by
  simp only [kcpReaches, Bool.and_eq_true, Bool.not_eq_true'] at hreach
  obtain ⟨⟨_, hserves⟩, hformed⟩ := hreach
  rw [kcpServe, if_neg (by simp [hserves]), if_neg (by simp [hformed]), hnone]

theorem recovering_of_done {d : Device} (h : d.boot.phase = .done) : recovering d = false := by
  rw [recovering, h]
  rfl

/-- The next request of a session without a key is executed and answered. -/
theorem kcpServe_of_kcpAccepts {d : Device} {q : KcpMsg} {x : Session} {least : Nat} (h : kcpAccepts d q x least = true)
    (code : Nat) (rom : Bool) (run : Session → List Byte → Device → KcpDone) :
    kcpServe code least rom run q d = kcpAnswer code q none
      (run { x with last := q.seq % 2 ^ 32 } (kcpBody q) (setSession d { x with last := q.seq % 2 ^ 32 })) := by
  simp only [kcpAccepts, kcpReaches, Bool.and_eq_true, Bool.not_eq_true', beq_iff_eq, Option.isNone_iff_eq_none, decide_eq_true_eq] at h
  obtain ⟨⟨⟨⟨⟨⟨⟨hdone, hserves⟩, hformed⟩, hx⟩, hkey⟩, hpending⟩, hseq⟩, hrole⟩ := h
  have hrec : recovering d = false := recovering_of_done hdone
  rw [kcpServe, if_neg (by simp [hserves]), if_neg (by simp [hformed]), hx]
  simp only [hkey]
  rw [kcpSeq, if_pos hseq, if_neg (by simp [hpending]), hkey]
  simp only [hrec, Bool.false_eq_true, false_and, if_false, if_neg (Nat.not_lt.mpr hrole)]

/-! ## Frames that come in -/

theorem leBytes_length (n x : Nat) : (leBytes n x).length = n := by
  induction n generalizing x with
  | zero => rfl
  | succ n ih => rw [leBytes, List.length_cons, ih]

theorem leNat_leBytes (n x : Nat) : leNat (leBytes n x) = x % 256 ^ n := by
  induction n generalizing x with
  | zero => rw [Nat.pow_zero, Nat.mod_one]; rfl
  | succ n ih =>
    have hbyte : (BitVec.ofNat 8 x).toNat = x % 256 := BitVec.toNat_ofNat x 8
    rw [leBytes, leNat, ih, hbyte, Nat.pow_succ', Nat.mod_mul]

theorem fcsBit_lt {r : Nat} (h : r < 2 ^ 32) : fcsBit r < 2 ^ 32 := by
  unfold fcsBit
  split
  · exact Nat.xor_lt_two_pow (by omega) (by decide)
  · omega

theorem fcsByte_lt {r : Nat} (h : r < 2 ^ 32) (b : Byte) : fcsByte r b < 2 ^ 32 := by
  have hb : b.toNat < 2 ^ 32 := Nat.lt_trans b.isLt (by decide)
  unfold fcsByte
  iterate 8 apply fcsBit_lt
  exact Nat.xor_lt_two_pow h hb

theorem foldl_fcsByte_lt (bs : List Byte) : ∀ {r : Nat}, r < 2 ^ 32 → bs.foldl fcsByte r < 2 ^ 32 := by
  induction bs with
  | nil => exact fun h => h
  | cons b t ih => exact fun h => ih (fcsByte_lt h b)

theorem fcs_lt (bs : List Byte) : fcs bs < 2 ^ 32 := Nat.xor_lt_two_pow (foldl_fcsByte_lt bs (by decide)) (by decide)

/-- A frame with its FCS, of a length that R303 allows and without an error in its FEC, goes on to the further rules of R303. -/
theorem ethRxDev_of_good {frame : List Byte} {d : Device} (hlink : d.bit F.ETH_STATUS.LINK = true) (hhears : ethHears d = true)
    (hmin : 60 ≤ frame.length) (hmax : frame.length ≤ 9212) (t : Nat) :
    ethRxDev (frame ++ leBytes 4 (fcs frame)) 0 0 t d
      = rxFrame frame t ((d.count F.ETH_FEC_CORR.COUNT 0).count F.ETH_FEC_UNCORR.COUNT 0) := by
  have hfcs : leNat (leBytes 4 (fcs frame)) = fcs frame := (leNat_leBytes 4 _).trans (Nat.mod_eq_of_lt (fcs_lt frame))
  have hheard : ¬ (¬ d.bit F.ETH_STATUS.LINK = true ∨ ¬ ethHears d = true) := by simp [hlink, hhears]
  have hlen : ¬ (frame.length + 4 < 64 ∨ 9216 < frame.length + 4) := by omega
  rw [ethRxDev, if_neg hheard]
  simp only [List.length_append, leBytes_length, if_neg hlen, Nat.add_sub_cancel, List.drop_left, List.take_left, hfcs]
  exact if_neg (by simp)

/-- A datagram that RXQ0 stores teaches the MAC address of its sender. -/
theorem rxFrame_of_ring0 {frame : List Byte} {d : Device} {p : Packet} (htype : (frameOf frame).type ≠ 0x8808)
    (hvlan : vlanPasses d (frameOf frame) = true) (hp : packetOf (frameOf frame) = some p)
    (hsteer : steer d (frameOf frame) (some p) = some 0) (hok : checksumOk (some p) = true)
    (hstored : (rxQueue d 0 frame ((if (frameOf frame).tag.isSome then 1 else 0) + 2)).get (F.ETH_RXQq_HEAD.HEAD 0)
      ≠ d.get (F.ETH_RXQq_HEAD.HEAD 0)) (t : Nat) :
    rxFrame frame t d = learn (rxQueue d 0 frame ((if (frameOf frame).tag.isSome then 1 else 0) + 2)) { v6 := p.v6, ip := p.src }
      (frameOf frame).src := by
  rw [rxFrame]
  simp only [hp, if_neg htype, hvlan, hsteer, hok]
  simp [hstored]

/-! ## A reply that waits for its client's MAC address (Table 14.3) -/

theorem exec_ethFrameReceive (bytes : List Byte) (corrected uncorrectable t : Nat) (s : State) :
    exec (.ethFrameReceive bytes corrected uncorrectable t) s = s.done (ethRxDev bytes corrected uncorrectable t s.dev) := rfl

/-- The client at 10.0.0.9, whose MAC address is 9. -/
def waitingClient : KcpAddr := { ip := 0x0A000009 }

/-- An empty datagram of the client to the KCP port, in its frame without FCS. -/
def clientFrame : List Byte :=
  fillChecks (padded (leBytes 6 0 ++ leBytes 6 9 ++ beBytes 2 0x0800
    ++ [0x45#8, 0#8, 0#8, 28#8, 0#8, 0#8, 0x40#8, 0#8, 64#8, 17#8, 0#8, 0#8] ++ beBytes 4 waitingClient.ip ++ beBytes 4 0x0A000001
    ++ udpHead 5000 46528 0))

/-- After start-up, with all else as at reset: the link up, KCP served, RXQ0 and the transmit ring of 16 empty slots each in DRAM, and a reply
to the client that waits for its MAC address. -/
def replyWaits : State :=
  { dev := ethRxLanes.foldl (fun d l => d.set (F.LN_STATUS.STATE (laneBase l)) lnSync)
      ([(R.ETH_STATUS, 0x80000000#32), (R.KCP_CFG, 0x8000B5C0#32), (R.MEMn_STATUS 0, 3#32), (R.ETH_RXQq_SIZE 0, 0x80000004#32),
        (R.ETH_RXQq_BASE_HI 0, 1#32), (R.ETH_TXQ_SIZE, 0x80000004#32), (R.ETH_TXQ_BASE_HI, 2#32)].foldl (fun d r => d.wr r.1 r.2)
        { boot := { phase := .done }, eth := { firm := [.kcp {} waitingClient 5000], asked := [waitingClient] } }) }

/-- The IP packet in that frame. -/
def clientPacket : Packet :=
  { v6 := false, headOk := true, fragment := false, first := true, src := waitingClient.ip, dst := 0x0A000001, proto := 17,
    l4 := (clientFrame.drop 34).take 8, pseudo := 0x140A }

theorem packetOf_clientFrame : packetOf (frameOf clientFrame) = some clientPacket := by decide +kernel

/-- The device once RXQ0 has stored the datagram, before its sender's MAC address is learnt. -/
def replyWaitsStored : Device :=
  rxQueue ((replyWaits.dev.count F.ETH_FEC_CORR.COUNT 0).count F.ETH_FEC_UNCORR.COUNT 0) 0 clientFrame 2

theorem clientFrame_received :
    ethRxDev (clientFrame ++ leBytes 4 (fcs clientFrame)) 0 0 0 replyWaits.dev = learn replyWaitsStored waitingClient 9 := by
  rw [ethRxDev_of_good (by decide +kernel) (by decide +kernel) (by decide) (by decide)]
  exact rxFrame_of_ring0 (htype := by decide) (hvlan := by decide +kernel) (hp := packetOf_clientFrame) (hsteer := by decide +kernel)
    (hok := by decide +kernel) (hstored := by decide +kernel) 0

/-- The reply still waits alone, and the transmit ring has room for it. -/
theorem replyWaitsStored_waits : recovering replyWaitsStored = false ∧ txRoom replyWaitsStored = true ∧
    replyWaitsStored.eth.firm = [.kcp {} waitingClient 5000] ∧
    udpPacket waitingClient.v6 (replyBytes {}).length ≤ replyWaitsStored.get F.ETH_MTU.MTU := by decide +kernel

/-- When the client's MAC address is learnt, the reply takes slot 0. -/
theorem clientFrame_moves_tail : (learn replyWaitsStored waitingClient 9).get F.ETH_TXQ_TAIL.TAIL = 1 := by
  obtain ⟨hrec, hroom, hfirm, hfits⟩ := replyWaitsStored_waits
  rw [learn_tail_of_waiting hrec hroom hfirm hfits]
  decide +kernel

/-- Refutes O57: what a frame that RXQ0 stores teaches lets a reply that waits for its sender's MAC address go on, so that TAIL of the transmit
ring advances, where the clause of a good frame has only HEAD and the frame count of the receiving side change. -/
theorem not_ethernetPort : ¬ Obligations.EthernetPort := by
  unfold Obligations.EthernetPort
  rintro ⟨-, -, -, -, -, -, -, -, -, hStored, -⟩
  obtain ⟨e, hexec, -, -, -, -, -, -, hframe⟩ :=
    hStored clientFrame 0 0 0x100000000 replyWaits (by decide +kernel) (by decide +kernel) (by decide +kernel)
  have htail : e.get F.ETH_TXQ_TAIL.TAIL = 1 := by
    rw [exec_ethFrameReceive, clientFrame_received] at hexec
    rw [dev_of_done_eq_next hexec, clientFrame_moves_tail]
  have hsame : e.get F.ETH_TXQ_TAIL.TAIL = 0 :=
    (congrArg F.ETH_TXQ_TAIL.TAIL.of (hframe.regs R.ETH_TXQ_TAIL (by decide))).trans (by decide +kernel)
  rw [hsame] at htail
  exact absurd htail (by decide)

/-! ## A TAIL outside its ring (R307) -/

theorem exec_kcpStatus (q : KcpMsg) (s : State) : exec (.kcpStatus q) s = s.done (kcpServe 7 1 true runStatus q s.dev) := rfl

/-- After start-up, with all else as at reset: a KCP server, a client whose MAC address is known, and a transmit ring of 16 slots in DRAM whose
TAIL has been written with 16. -/
def tailBeyondRing : State :=
  { dev := ((((({ boot := { phase := .done }, eth := { neighbours := [({}, 7)] } } : Device).setBit F.KCP_CFG.EN true).set
      (F.MEMn_STATUS.STATE 0) msRun).wr R.ETH_TXQ_SIZE 0x80000004#32).wr R.ETH_TXQ_BASE_HI 1#32).set F.ETH_TXQ_TAIL.TAIL 16 }

/-- A STATUS request that names a session that there is not. -/
def strayStatus : KcpMsg := { session := 9 }

/-- The reply to it. -/
def strayReply : KcpReply := kcpReply none 7 9 0 kcBadSession []

/-- The reply's frame. -/
def strayFrame : List Byte :=
  udpFrame tailBeyondRing.dev 7 false (ownIp tailBeyondRing.dev false) 0 (tailBeyondRing.dev.get F.KCP_CFG.PORT) 0 (replyBytes strayReply)

/-- Ethernet, IPv4 and UDP headers of 14, 20 and 8 bytes, the KCP header of 16, and STATUS. -/
theorem strayFrame_length : strayFrame.length = 62 := by decide +kernel

theorem strayStatus_answered : kcpServe 7 1 true runStatus strayStatus tailBeyondRing.dev
    = txFill (tailBeyondRing.dev.withEth { tailBeyondRing.dev.eth with reply := some strayReply }) strayFrame := by
  rw [kcpServe_of_no_session (by decide) rfl]
  exact sendFirm_of_room (by decide) (by decide) rfl (by decide) (firmBytes_kcp_of_fits (by decide) _ _)

/-- Refutes O58: TAIL is a field of 12 bits that software writes, so that a ring of 16 slots may stand at TAIL 16; the reply BAD_SESSION then
takes the slot behind the ring, where the second clause has no byte change outside it. -/
theorem not_kcpSessionsAndAccess : ¬ Obligations.KcpSessionsAndAccess := by
  unfold Obligations.KcpSessionsAndAccess
  rintro ⟨-, hNoSession, -⟩
  obtain ⟨e, hexec, -, -, hframe⟩ := hNoSession strayStatus tailBeyondRing ⟨by decide, rfl⟩
  rw [exec_kcpStatus, strayStatus_answered] at hexec
  have hslot : e.byte (txTailSlot tailBeyondRing.dev) = 62#8 := by
    rw [dev_of_done_eq_next hexec]
    exact (txFill_byte_txTailSlot (by decide) (by decide) strayFrame).trans (congrArg (BitVec.ofNat 8) strayFrame_length)
  rw [hframe.bytes _ (by decide)] at hslot
  exact absurd hslot (by decide)

/-! ## Keys in an image that the flash holds (R317) -/

theorem runNvRead_of_keys {x : Session} {b : List Byte} {d : Device} (hgood : nvBad x 2 b = none)
    (hkeys : (keyAreas d).any (fun r => touches (some r) (leAt b 4 4) (leAt b 8 4)) = true) : runNvRead x b d = kcpNo d kcDenied := by
  unfold runNvRead
  rw [hgood]
  exact if_pos hkeys

theorem exec_nvRead (q : KcpMsg) (s : State) : exec (.nvRead q) s = s.done (kcpServe 12 3 true runNvRead q s.dev) := rfl

/-- The session of an engineer without authentication. -/
def engineer : Session := { id := 7, role := 3, maxBody := 1024, last := 5 }

/-- The bytes of an image with one section that the flash holds at 0: "SPDR", NSECT 1 and the table at 64, whose entry has type 7, OFFSET 256
and LENGTH 256 (Tables 19.3, 19.4). -/
def imageWithKeys : List Host.Cell :=
  [(0, 0x53#8), (1, 0x50#8), (2, 0x44#8), (3, 0x52#8), (16, 1#8), (17, 0#8), (18, 0#8), (19, 0#8), (20, 64#8), (21, 0#8), (22, 0#8),
   (23, 0#8), (64, 7#8), (65, 0#8), (68, 0#8), (69, 1#8), (70, 0#8), (71, 0#8), (72, 0#8), (73, 1#8), (74, 0#8), (75, 0#8)]

/-- After start-up from an image without keys, with all else as at reset: the engineer's session, and an image with keys programmed since. -/
def keysProgrammed : State :=
  { dev := ({ boot := { phase := .done }, eth := { sessions := [engineer] }, flash := imageWithKeys } : Device).setBit F.KCP_CFG.EN true }

/-- The engineer reads the 256 bytes of the flash from 256 on. -/
def readKeys : KcpMsg := { session := 7, seq := 6, len := 12, rest := [2#8, 0#8, 0#8, 0#8] ++ leBytes 4 256 ++ leBytes 4 256 }

theorem readKeys_denied :
    (kcpServe 12 3 true runNvRead readKeys keysProgrammed.dev).eth.reply = some (kcpReply none 12 7 6 kcDenied []) := by
  rw [kcpServe_of_kcpAccepts (x := engineer) (by decide), runNvRead_of_keys (by decide) (by decide +kernel), kcpAnswer_reply]
  rfl

/-- Refutes O59: a read of the keys of an image that the flash has come to hold since the boot is denied (R317), where the clause of a read
away from the keys of the loaded image has it answered with the bytes. -/
theorem not_kcpStreamsAndFlash : ¬ Obligations.KcpStreamsAndFlash := by
  unfold Obligations.KcpStreamsAndFlash
  rintro ⟨-, -, -, -, -, -, -, -, -, -, -, hRead, -⟩
  obtain ⟨e, hexec, ⟨⟨hreply, -⟩, -⟩, -⟩ := hRead readKeys engineer keysProgrammed (by decide)
  rw [exec_nvRead] at hexec
  rw [dev_of_done_eq_next hexec, readKeys_denied] at hreply
  have hstatus : some kcDenied = some kcOk := congrArg (Option.map KcpReply.status) hreply
  exact absurd hstatus (by decide)

end Sys2Proof.Machine

/-! # Hardware locks

What a read, a write and a peek of a lock do once they reach it (R360). -/

namespace Sys2Proof.Machine

/-! ## Commands that are register accesses -/

/-- An open gate lets the access through to what it does. -/
theorem regAccessBy_of_gateOpen {d : Device} {a : Nat} (h : gateOpen d a = true) (m : Nat) (write : Bool) (act : Device → Device) :
    regAccessBy m a write act d = act d := by
  simp only [gateOpen, Bool.and_eq_true, decide_eq_true_eq, Option.isNone_iff_eq_none] at h
  obtain ⟨hphase, hshut⟩ := h
  rw [regAccessBy, if_neg hphase, hshut]

theorem exec_lockRead_of_gateOpen {m : Master} {k : Fin 64} {s : State} (h : gateOpen s.dev (R.LCKk k) = true) :
    exec (.lockRead m k) s = s.done (lockReadDev (masterId m) k s.dev) :=
  congrArg s.done (regAccessBy_of_gateOpen h (masterId m) false _)

theorem exec_lockWrite_of_gateOpen {m : Master} {k : Fin 64} {s : State} (h : gateOpen s.dev (R.LCKk k) = true) :
    exec (.lockWrite m k) s = s.done (lockWriteDev (masterId m) k s.dev) :=
  congrArg s.done (regAccessBy_of_gateOpen h (masterId m) true _)

/-! ## The register of a lock -/

theorem lockReadDev_of_free {d : Device} {k : Nat} (h : d.rd (R.LCKk k) = 0) (m : Nat) :
    lockReadDev m k d = (d.wr (R.LCKk k) (BitVec.ofNat 32 (m + 1))).reply 0 := by
  rw [lockReadDev, h]
  rfl

theorem lockReadDev_of_owned {d : Device} {k : Nat} (h : d.rd (R.LCKk k) ≠ 0) (m : Nat) :
    lockReadDev m k d = d.reply (d.rd (R.LCKk k)).toNat := by
  have howner : (d.rd (R.LCKk k)).toNat ≠ 0 := fun hzero => h (BitVec.eq_of_toNat_eq hzero)
  simp only [lockReadDev, if_neg howner]

theorem lockWriteDev_of_owner {d : Device} {m k : Nat} (h : (d.rd (R.LCKk k)).toNat = m + 1) :
    lockWriteDev m k d = (d.wr (R.LCKk k) 0#32).reply 0 :=
  if_pos h

theorem lockWriteDev_of_other {d : Device} {m k : Nat} (h : (d.rd (R.LCKk k)).toNat ≠ m + 1) :
    lockWriteDev m k d = (lockFlag (d.count F.LCK_REL_ERR.V) F.LCK_FLAGS.REL_ERR).reply 0 :=
  if_neg h

/-! ## Flags and counters -/

/-- A counter stops at the largest value of its field. -/
theorem Device.get_count_saturating (d : Device) (f : Fld) (n : Nat) (hf : f.hi < 32) :
    (d.count f n).get f = min (d.get f + n) (2 ^ (f.hi + 1 - f.lo) - 1) := by
  have hpos : 0 < 2 ^ (f.hi + 1 - f.lo) := Nat.two_pow_pos _
  have hcap : capN (2 ^ (f.hi + 1 - f.lo) - 1) (d.get f + n) = min (d.get f + n) (2 ^ (f.hi + 1 - f.lo) - 1) := by
    unfold capN
    split <;> omega
  rw [Device.get_count, Device.get_set_self _ _ _ hf, hcap, Nat.mod_eq_of_lt (by omega)]

/-- Beside the event of a flag that was 0, a lock flag is set. -/
theorem lockFlag_rd (d : Device) (f : Fld) (a : Nat) : (lockFlag d f).rd a = (d.set f 1).rd a := by
  unfold lockFlag
  dsimp only
  split <;> rfl

theorem lockFlag_get (d : Device) (f g : Fld) : (lockFlag d f).get g = (d.set f 1).get g :=
  congrArg g.of (lockFlag_rd d f g.addr)

theorem SameBut.lockFlag {as : List Nat} {ps : List Part} {d e : Device} (h : SameBut as ps d e) {f : Fld} (ha : f.addr ∈ as)
    (hp : Part.evt ∈ ps) : SameBut as ps d (Machine.lockFlag e f) := by
  unfold Machine.lockFlag
  dsimp only
  split
  · exact h.set 1 ha
  · exact (h.set 1 ha).emit _ _ hp

/-! ## The peek registers -/

/-- A register that the hardware computes answers what it computes. -/
theorem readReg_of_computed {m a v : Nat} {r : RegDesc} {hwInc : Nat} {d : Device} (hown : ¬ readsByOwnRule a) (hcap : ¬ readCaptures a)
    (hv : computedReg d a = some v) : readReg m a r hwInc d = d.reply v := by
  simp only [readsByOwnRule, not_or] at hown
  obtain ⟨hmbx, hlock, htime, hcrc⟩ := hown
  simp only [readReg, hmbx, hlock, htime, hcrc, if_false, readCapture_of_not_readCaptures hcap, hv]

theorem LCK_PEEKk_mem_page (k : Fin 64) :
    0x10060200 ≤ R.LCK_PEEKk k ∧ R.LCK_PEEKk k < 0x10060300 ∧ R.LCK_PEEKk k % 4 = 0 := by
  simp only [R.LCK_PEEKk]
  omega

theorem regAt_LCK_PEEKk (k : Fin 64) : (regAt (R.LCK_PEEKk k)).isSome = true := by decide +revert

theorem not_readsByOwnRule_LCK_PEEKk (k : Fin 64) : ¬ readsByOwnRule (R.LCK_PEEKk k) := by
  simp only [readsByOwnRule, R.LCK_PEEKk, R.CORE_MTIME_LO]
  omega

theorem not_readCaptures_LCK_PEEKk (k : Fin 64) : ¬ readCaptures (R.LCK_PEEKk k) := by
  simp only [readCaptures, R.LCK_PEEKk, R.TB_TOD_FRAC, R.TB_TSQ_INFO, R.PAIR_DIGEST_LO, R.CAP_WPOS_LO, R.CAP_IPOS_LO]
  omega

theorem computedReg_LCK_PEEKk (k : Fin 64) (d : Device) : computedReg d (R.LCK_PEEKk k) = some (d.rd (R.LCKk k)).toNat := by
  have hindex : (R.LCK_PEEKk k - 0x10060200) / 4 = k := by simp only [R.LCK_PEEKk]; omega
  obtain ⟨hlo, hhi, -⟩ := LCK_PEEKk_mem_page k
  unfold computedReg
  iterate 8 rw [if_neg (by decide +revert)]
  rw [if_pos ⟨hlo, hhi⟩, hindex]

theorem areaAt_LCK_PEEKk (k : Fin 64) (d : Device) : ∃ r, areaAt d (R.LCK_PEEKk k) = some (.reg r) := by
  obtain ⟨r, hr⟩ := Option.isSome_iff_exists.1 (regAt_LCK_PEEKk k)
  refine ⟨r, ?_⟩
  obtain ⟨hlo, hhi, -⟩ := LCK_PEEKk_mem_page k
  unfold areaAt dramBase
  iterate 15 rw [if_neg (by omega)]
  rw [hr]
  rfl

/-- The peek registers lie in the Control region, which holds none of the blocks that can be powered down (R30). -/
theorem shutCause_LCK_PEEKk (k : Fin 64) {d : Device} (h : d.resetting 1 = false) : shutCause d (R.LCK_PEEKk k) = none := by
  obtain ⟨hlo, hhi, -⟩ := LCK_PEEKk_mem_page k
  have hregion : regionOf (R.LCK_PEEKk k) = some 1 := by
    rw [regionOf, if_pos (by omega)]
    exact congrArg some (by omega)
  have hpower : poweredDown d (R.LCK_PEEKk k) = false := by
    have hjdg : ¬ (0x40000000 ≤ R.LCK_PEEKk k ∧ R.LCK_PEEKk k < 0x50000000) := by omega
    have hcapt : ¬ (0x60100000 ≤ R.LCK_PEEKk k ∧ R.LCK_PEEKk k < 0x60110000) := by omega
    simp only [poweredDown, decide_eq_false hjdg, decide_eq_false hcapt, Bool.false_and, Bool.or_false]
  simp only [shutCause, hregion, h, hpower, Bool.false_eq_true, if_false]

/-- A plain read of a peek register by any master reaches it. -/
theorem reachesReg_LCK_PEEKk (m : Master) (k : Fin 64) {d : Device} (hreset : d.resetting 1 = false) (hphase : d.boot.phase ≠ .reset) :
    ∃ r, reachesReg { master := m, addr := R.LCK_PEEKk k } r d := by
  obtain ⟨r, harea⟩ := areaAt_LCK_PEEKk k d
  obtain ⟨-, -, halign⟩ := LCK_PEEKk_mem_page k
  refine ⟨r, harea, ?_, hphase, ?_, .inl rfl⟩
  · simp only [misaligned, halign, bne_self_eq_false, Bool.and_false]
  · simp [accessCause, shutCause_LCK_PEEKk k hreset, harea, areaWidths, halign]

/-- A peek answers the lock's register. -/
theorem exec_rcCounterRead_LCK_PEEKk {m : Master} {k : Fin 64} {s : State} (hreset : s.dev.resetting 1 = false) (hphase : s.dev.boot.phase ≠ .reset)
    (hstop : coreStops { master := m, addr := R.LCK_PEEKk k } false s.dev = none) :
    exec (.rcCounterRead { master := m, addr := R.LCK_PEEKk k } 0) s = s.done (s.dev.reply (s.dev.rd (R.LCKk k)).toNat) := by
  obtain ⟨r, hreach⟩ := reachesReg_LCK_PEEKk m k hreset hphase
  rw [exec_rcCounterRead, accessRead_of_reachesReg hreach hstop,
    readReg_of_computed (not_readsByOwnRule_LCK_PEEKk k) (not_readCaptures_LCK_PEEKk k) (computedReg_LCK_PEEKk k s.dev)]

/-! ## What R360 says of the three commands -/

/-- Settles O37: a lock's register holds its owner's identity + 1, or 0 while it is free, so that each clause is the case of the command that
the register selects; a peek is the read that the hardware computes from that register. -/
theorem hardwareLocks : Obligations.HardwareLocks := by
  unfold Obligations.HardwareLocks
  refine ⟨?_, ?_, ?_, ?_, ?_⟩
  · intro m k s hfree hgate
    refine completes_done (exec_lockRead_of_gateOpen hgate) ?_
    rw [lockReadDev_of_free hfree]
    exact ⟨rfl, Device.rd_wr_self _ _ _, ((SameBut.refl _ _ _).wr _ (by simp)).reply _ (by simp)⟩
  · intro m k s howned hgate
    refine completes_done (exec_lockRead_of_gateOpen hgate) ?_
    rw [lockReadDev_of_owned howned]
    exact ⟨rfl, (SameBut.refl _ _ _).reply _ (by simp)⟩
  · intro m k s howner hgate
    refine completes_done (exec_lockWrite_of_gateOpen hgate) ?_
    rw [lockWriteDev_of_owner howner]
    exact ⟨Device.rd_wr_self _ _ _, ((SameBut.refl _ _ _).wr _ (by simp)).reply _ (by simp)⟩
  · intro m k s hother hgate
    refine completes_done (exec_lockWrite_of_gateOpen hgate) ?_
    rw [lockWriteDev_of_other hother]
    have hcount : (lockFlag (s.dev.count F.LCK_REL_ERR.V) F.LCK_FLAGS.REL_ERR).get F.LCK_REL_ERR.V =
        min (s.dev.get F.LCK_REL_ERR.V + 1) (2 ^ (F.LCK_REL_ERR.V.hi + 1 - F.LCK_REL_ERR.V.lo) - 1) := by
      rw [lockFlag_get, Device.get_set_ne _ _ _ _ (.inl (by decide)), Device.get_count_saturating _ _ _ (by decide)]
    have hflag : (lockFlag (s.dev.count F.LCK_REL_ERR.V) F.LCK_FLAGS.REL_ERR).get F.LCK_FLAGS.REL_ERR = 1 := by
      rw [lockFlag_get, Device.get_set_self _ _ _ (by decide)]
      rfl
    exact ⟨hcount, hflag, (((SameBut.refl _ _ _).count 1 (by simp)).lockFlag (by simp) (by simp)).reply _ (by simp)⟩
  · intro m k s ⟨hreset, hphase, hstop⟩
    exact completes_done (exec_rcCounterRead_LCK_PEEKk hreset hphase hstop) ⟨rfl, rfl, (SameBut.refl _ _ _).reply _ (by simp)⟩

end Sys2Proof.Machine

/-! # Pairs of registers, fields and units

What a LO/HI pair, a field and a unit of a vector read after an update, and what a frame says of them. -/

namespace Sys2Proof.Machine

/-! ## Fields -/

theorem Fld.of_lt (f : Fld) (w : Word) : f.of w < 2 ^ (f.hi + 1 - f.lo) :=
  Nat.lt_pow_two_of_testBit _ fun i hi => by
    rw [Fld.of_testBit, decide_eq_false (by omega), Bool.false_and]

theorem Device.get_lt (d : Device) (f : Fld) : d.get f < 2 ^ (f.hi + 1 - f.lo) := f.of_lt _

/-- A field within a mask reads the same under the mask. -/
theorem Fld.of_and {f : Fld} {m : Word} (h : m &&& f.mask = f.mask) (w : Word) : f.of (w &&& m) = f.of w := by
  unfold Fld.of
  rw [BitVec.and_assoc, h]

/-- A flag of one bit that is not 0 reads 1. -/
theorem Device.get_of_bit {d : Device} {f : Fld} (hf : f.hi = f.lo) (h : d.bit f = true) : d.get f = 1 := by
  have hlt := d.get_lt f
  have hne : d.get f ≠ 0 := by simpa [Device.bit] using h
  rw [hf, Nat.add_sub_cancel_left] at hlt
  omega

theorem Device.bit_setBit_self (d : Device) {f : Fld} (b : Bool) (hf : f.hi = f.lo) (h : f.hi < 32) : (d.setBit f b).bit f = b := by
  unfold Device.bit Device.setBit
  rw [Device.get_set_self _ _ _ h, hf, Nat.add_sub_cancel_left]
  cases b <;> rfl

/-! ## Pairs -/

theorem Device.pair_lt (d : Device) (lo hi : Nat) : d.pair lo hi < 2 ^ 64 := by
  have hlo := (d.rd lo).isLt
  have hhi := (d.rd hi).isLt
  unfold Device.pair
  omega

theorem Device.pair_setPair_self (d : Device) {lo hi : Nat} (h : lo ≠ hi) (v : Nat) : (d.setPair lo hi v).pair lo hi = v % 2 ^ 64 := by
  unfold Device.pair Device.setPair
  rw [Device.rd_wr_self, Device.rd_wr_ne _ _ _ _ h, Device.rd_wr_self, BitVec.toNat_ofNat, BitVec.toNat_ofNat]
  omega

/-! ## Frames -/

section
variable {as : List Nat} {ps : List Part} {d e : Device}

theorem SameBut.get (h : SameBut as ps d e) {f : Fld} (ha : f.addr ∉ as) : e.get f = d.get f := congrArg f.of (h.regs _ ha)

theorem SameBut.bit (h : SameBut as ps d e) {f : Fld} (ha : f.addr ∉ as) : e.bit f = d.bit f := by
  unfold Device.bit
  rw [h.get ha]

theorem SameBut.pair (h : SameBut as ps d e) {lo hi : Nat} (hlo : lo ∉ as) (hhi : hi ∉ as) : e.pair lo hi = d.pair lo hi := by
  unfold Device.pair
  rw [h.regs lo hlo, h.regs hi hhi]

theorem Part.same_trans {p : Part} {c d e : Device} (h : p.same c d) (h' : p.same d e) : p.same c e := by
  cases p <;> exact h'.trans h

theorem SameBut.trans {c : Device} (h : SameBut as ps c d) (h' : SameBut as ps d e) : SameBut as ps c e where
  regs a ha := (h'.regs a ha).trans (h.regs a ha)
  parts p hp := Part.same_trans (h.parts p hp) (h'.parts p hp)
  bytes a := (h'.bytes a).trans (h.bytes a)
  tabs a := (h'.tabs a).trans (h.tabs a)
  flash := h'.flash.trans h.flash

/-- A frame that lets more registers change. -/
theorem SameBut.mono_regs {bs : List Nat} (h : SameBut as ps d e) (hsub : as ⊆ bs) : SameBut bs ps d e :=
  { h with regs := fun a ha => h.regs a (fun hmem => ha (hsub hmem)) }

end

/-! ## Units -/

theorem unit_fin {α : Type} [Inhabited α] {n : Nat} (v : Vector α n) (i : Fin n) : unit v i = v[i] := by simp [unit]

theorem withUnit_fin_self {α : Type} {n : Nat} (v : Vector α n) (i : Fin n) (x : α) : (withUnit v i x)[i] = x := by simp [withUnit]

theorem withUnit_fin_ne {α : Type} {n : Nat} (v : Vector α n) {i j : Fin n} (h : j ≠ i) (x : α) : (withUnit v i x)[j] = v[j] := by
  have hne : i.val ≠ j.val := fun heq => h (Fin.ext heq.symm)
  simp [withUnit, hne]

/-! ## Commands that are register accesses of a master they do not name -/

theorem regAccess_of_gateOpen {d : Device} {a : Nat} (h : gateOpen d a = true) (write : Bool) (act : Device → Device) :
    regAccess a write act d = act d :=
  if_pos h

end Sys2Proof.Machine

/-! # The user CRC units

What a unit's registers hold once bytes, a start or a configuration have come (R378 to R381). -/

namespace Sys2Proof.Machine

/-! ## The width of a unit -/

section
variable (d : Device) (u : Nat)

theorem crcW_le : crcW d u ≤ 64 := d.get_lt (F.CRCu_CFG.WIDTH_M1 u)

theorem two_pow_crcW_le : 2 ^ crcW d u ≤ 2 ^ 64 := Nat.pow_le_pow_right (by decide) (crcW_le d u)

/-- A pair other than PREFIX takes part with its low W bits. -/
theorem crcPair_lt {pair : Nat} (h : pair ≠ 5) : crcPair d u pair < 2 ^ crcW d u := by
  unfold crcPair
  rw [if_neg h]
  exact Nat.mod_lt _ (Nat.two_pow_pos _)

theorem revBits_lt (n x : Nat) : revBits n x < 2 ^ n := by
  induction n generalizing x with
  | zero => exact Nat.one_pos
  | succ n ih =>
    have hrest := ih (x / 2)
    have hbit : x % 2 * 2 ^ n ≤ 1 * 2 ^ n := Nat.mul_le_mul_right _ (by omega)
    rw [revBits, Nat.pow_succ]
    omega

theorem crcResult_lt : crcResult d u < 2 ^ 64 := by
  refine Nat.lt_of_lt_of_le (Nat.xor_lt_two_pow ?_ (crcPair_lt d u (by decide))) (two_pow_crcW_le d u)
  split
  · exact revBits_lt _ _
  · exact crcPair_lt d u (by decide)

end

/-! ## The registers of a pair -/

/-- Address of the _HI register of a pair. -/
def crcPairHi (u pair : Nat) : Nat :=
  match pair with
  | 0 => R.CRCu_POLY_HI u | 1 => R.CRCu_INIT_HI u | 2 => R.CRCu_XOR_HI u
  | 3 => R.CRCu_STATE_HI u | 4 => R.CRCu_RESULT_HI u | _ => R.CRCu_PREFIX_HI u

theorem crcPairLo_add_four (u : Nat) : ∀ pair : Nat, crcPairLo u pair + 4 = crcPairHi u pair
  | 0 | 1 | 2 | 3 | 4 | _ + 5 => Nat.add_right_comm _ _ _

theorem crcPair_eq_mod (d : Device) (u : Nat) {pair : Nat} (h : pair ≠ 5) :
    crcPair d u pair = d.pair (crcPairLo u pair) (crcPairHi u pair) % 2 ^ crcW d u := by
  rw [crcPair, if_neg h, crcPairLo_add_four]

theorem crcPair_prefix (d : Device) (u : Nat) : crcPair d u 5 = d.pair (R.CRCu_PREFIX_LO u) (R.CRCu_PREFIX_HI u) := by
  rw [crcPair, if_pos rfl, crcPairLo_add_four]
  rfl

/-! ## What a pair and the result depend on -/

section
variable {as : List Nat} {ps : List Part} {d e : Device} {u : Nat}

theorem SameBut.crcW (h : SameBut as ps d e) (hcfg : R.CRCu_CFG u ∉ as) : crcW e u = crcW d u := congrArg (· + 1) (h.get hcfg)

theorem SameBut.crcPair (h : SameBut as ps d e) (hcfg : R.CRCu_CFG u ∉ as) {pair : Nat} (hlo : crcPairLo u pair ∉ as)
    (hhi : crcPairHi u pair ∉ as) : crcPair e u pair = crcPair d u pair := by
  unfold Machine.crcPair
  rw [crcPairLo_add_four, h.pair hlo hhi, h.crcW hcfg]

/-- The registers of RESULT. -/
def crcResultRegs (u : Nat) : List Nat := [R.CRCu_RESULT_LO u, R.CRCu_RESULT_HI u]

/-- RESULT takes no part in what it shows. -/
theorem SameBut.crcResult (h : SameBut (crcResultRegs u) ps d e) : crcResult e u = crcResult d u := by
  have hcfg : R.CRCu_CFG u ∉ crcResultRegs u := by simp [crcResultRegs]
  unfold Machine.crcResult
  rw [h.crcPair hcfg (by simp [crcResultRegs, crcPairLo]) (by simp [crcResultRegs, crcPairHi]),
    h.crcPair hcfg (by simp [crcResultRegs, crcPairLo]) (by simp [crcResultRegs, crcPairHi]), h.crcW hcfg, h.bit hcfg]

end

/-! ## RESULT and STATE -/

section
variable (d : Device) (u : Nat)

theorem SameBut.crcShow {as : List Nat} {ps : List Part} {c d : Device} {u : Nat} (h : SameBut as ps c d) (hsub : crcResultRegs u ⊆ as) :
    SameBut as ps c (crcShow d u) :=
  h.setPair _ (hsub (by simp [crcResultRegs])) (hsub (by simp [crcResultRegs]))

theorem crcShow_frame : SameBut (crcResultRegs u) [] d (crcShow d u) := (SameBut.refl _ _ _).crcShow (List.Subset.refl _)

theorem crcShow_result : (crcShow d u).pair (R.CRCu_RESULT_LO u) (R.CRCu_RESULT_HI u) = crcResult (crcShow d u) u := by
  rw [(crcShow_frame d u).crcResult, crcShow, Device.pair_setPair_self _ (by simp), Nat.mod_eq_of_lt (crcResult_lt d u)]

/-- r takes the value `r`, and RESULT follows. -/
def crcSetState (r : Nat) : Device := crcShow (d.setPair (R.CRCu_STATE_LO u) (R.CRCu_STATE_HI u) r) u

theorem crcSetState_result (r : Nat) : (crcSetState d u r).pair (R.CRCu_RESULT_LO u) (R.CRCu_RESULT_HI u) = crcResult (crcSetState d u r) u :=
  crcShow_result _ u

theorem crcSetState_state (r : Nat) : (crcSetState d u r).pair (R.CRCu_STATE_LO u) (R.CRCu_STATE_HI u) = r % 2 ^ 64 := by
  rw [crcSetState, (crcShow_frame _ u).pair (by simp [crcResultRegs]) (by simp [crcResultRegs]), Device.pair_setPair_self _ (by simp)]

/-- The registers of STATE and RESULT. -/
def crcStateRegs (u : Nat) : List Nat := [R.CRCu_STATE_LO u, R.CRCu_STATE_HI u, R.CRCu_RESULT_LO u, R.CRCu_RESULT_HI u]

theorem SameBut.crcSetState {as : List Nat} {ps : List Part} {c d : Device} {u : Nat} (h : SameBut as ps c d) (hsub : crcStateRegs u ⊆ as)
    (r : Nat) : SameBut as ps c (crcSetState d u r) :=
  (h.setPair r (hsub (by simp [crcStateRegs])) (hsub (by simp [crcStateRegs]))).crcShow fun _ ha =>
    hsub (by simp only [crcResultRegs, crcStateRegs, List.mem_cons] at ha ⊢; exact .inr (.inr ha))

/-- r after the bytes `bs`, taken from the value `r` on (R378). -/
def crcFold (r : Nat) (bs : List Nat) : Nat := bs.foldl (crcTake (crcW d u) (crcPair d u 0) (d.bit (F.CRCu_CFG.REFIN u))) r

theorem crcBytes_eq (bs : List Nat) : crcBytes d u bs = crcSetState d u (crcFold d u (crcPair d u 3) bs) := rfl

end

/-! ## START -/

section
variable (d : Device) (u : Nat)

/-- r set to INIT, as START does before it takes the bytes of PREFIX. -/
def crcInit : Device := d.setPair (R.CRCu_STATE_LO u) (R.CRCu_STATE_HI u) (crcPair d u 1)

theorem crcInit_frame : SameBut [R.CRCu_STATE_LO u, R.CRCu_STATE_HI u] [] d (crcInit d u) :=
  (SameBut.refl _ _ _).setPair _ (by simp) (by simp)

theorem crcW_crcInit : crcW (crcInit d u) u = crcW d u := (crcInit_frame d u).crcW (by simp)

theorem crcPair_state_crcInit : crcPair (crcInit d u) u 3 = crcPair d u 1 := by
  have hlt := crcPair_lt d u (pair := 1) (by decide)
  have hle := two_pow_crcW_le d u
  have hpair : (crcInit d u).pair (R.CRCu_STATE_LO u) (R.CRCu_STATE_HI u) = crcPair d u 1 := by
    rw [crcInit, Device.pair_setPair_self _ (by simp), Nat.mod_eq_of_lt (by omega)]
  rw [crcPair_eq_mod _ _ (by decide), crcPairLo, crcPairHi, hpair, crcW_crcInit, Nat.mod_eq_of_lt hlt]

theorem crcFold_crcInit (r : Nat) (bs : List Nat) : crcFold (crcInit d u) u r bs = crcFold d u r bs := by
  unfold crcFold
  rw [crcW_crcInit, (crcInit_frame d u).crcPair (by simp) (by simp [crcPairLo]) (by simp [crcPairHi]), (crcInit_frame d u).bit (by simp)]

/-- r after START: INIT, and the bytes of PREFIX taken. -/
def crcStarted : Nat := crcFold d u (crcPair d u 1) (lowBytes (prefixLen (d.get (F.CRCu_CFG.PFX_LEN u))) (crcPair d u 5))

theorem crcStartDev_eq : crcStartDev u d =
    let d1 := crcSetState (crcInit d u) u (crcStarted d u)
    if d.bit (F.CRCu_CFG.AUTO_INC u) then d1.setPair (R.CRCu_PREFIX_LO u) (R.CRCu_PREFIX_HI u) (crcPair d u 5 + 1) else d1 := by
  have hbytes := crcBytes_eq (crcInit d u) u (lowBytes (prefixLen (d.get (F.CRCu_CFG.PFX_LEN u))) (crcPair d u 5))
  rw [crcPair_state_crcInit, crcFold_crcInit] at hbytes
  rw [crcStarted, ← hbytes]
  rfl

/-- With PFX_LEN 0 a block begins with INIT. -/
theorem crcStarted_of_pfxLen_zero (h : d.get (F.CRCu_CFG.PFX_LEN u) = 0) : crcStarted d u = crcPair d u 1 := by
  rw [crcStarted, h]
  rfl

theorem SameBut.crcInit {as : List Nat} {ps : List Part} {c d : Device} {u : Nat} (h : SameBut as ps c d) (hsub : crcStateRegs u ⊆ as) :
    SameBut as ps c (crcInit d u) :=
  h.setPair _ (hsub (by simp [crcStateRegs])) (hsub (by simp [crcStateRegs]))

end

/-! ## Writes of a pair (R381) -/

/-- RESULT shares no register with another pair. -/
theorem crcPairLo_not_mem_resultRegs {u : Nat} :
    ∀ {pair : Nat}, pair ≠ 4 → crcPairLo u pair ∉ crcResultRegs u ∧ crcPairLo u pair + 4 ∉ crcResultRegs u
  | 4, h => absurd rfl h
  | 0, _ | 1, _ | 2, _ | 3, _ | _ + 5, _ => by
    rw [crcPairLo_add_four]
    simp [crcPairLo, crcPairHi, crcResultRegs]

section
variable {u pair : Nat}

theorem crcPairDev_hi (h : pair ≠ 4) (w : Word) (d : Device) :
    crcPairDev u pair true w d = { d with crc := withUnit d.crc u { unit d.crc u with held := withUnit (unit d.crc u).held pair w } } :=
  if_neg h

theorem crcPairDev_lo (h : pair ≠ 4) (w : Word) (d : Device) :
    crcPairDev u pair false w d = crcShow ((d.wr (crcPairLo u pair) w).wr (crcPairLo u pair + 4) ((unit d.crc u).held[pair]?.getD 0#32)) u :=
  if_neg h

theorem crcPairDev_result (hi : Bool) (w : Word) (d : Device) : crcPairDev u 4 hi w d = d := by
  rw [crcPairDev, if_pos rfl]

theorem SameBut.putCrc {as : List Nat} {ps : List Part} {d e : Device} (h : SameBut as ps d e) (x : Vector CrcUnit 8) (hp : Part.crc ∈ ps) :
    SameBut as ps d { e with crc := x } :=
  h.parts_only rfl rfl rfl rfl (fun p hp' => by
    cases p with
    | crc => exact absurd hp hp'
    | _ => rfl)

end

/-! ## Writes of CFG -/

section
variable {u : Nat} {w : Word}

/-- CFG as a write of `w` leaves it. -/
def crcConfigured (u : Nat) (w : Word) (d : Device) : Device := d.wr (R.CRCu_CFG u) (w &&& 0xFC00003F#32)

theorem crcConfigured_get {f : Fld} (ha : f.addr = R.CRCu_CFG u) (hm : 0xFC00003F#32 &&& f.mask = f.mask) (d : Device) :
    (crcConfigured u w d).get f = f.of w := by
  rw [Device.get, crcConfigured, ha, Device.rd_wr_self, Fld.of_and hm]

theorem crcCfgDev_of_valid (h : 7 ≤ (F.CRCu_CFG.WIDTH_M1 u).of w) (d : Device) :
    crcCfgDev u w d = crcSetState (crcConfigured u w d) u (crcPair (crcConfigured u w d) u 3) :=
  if_neg (Nat.not_lt.2 h)

theorem crcCfgDev_of_narrow (h : (F.CRCu_CFG.WIDTH_M1 u).of w < 7) (d : Device) : crcCfgDev u w d = d.raise F.CRC_FLAGS.CFG_REJ := if_pos h

theorem crcConfigured_width (d : Device) : (crcConfigured u w d).get (F.CRCu_CFG.WIDTH_M1 u) = (F.CRCu_CFG.WIDTH_M1 u).of w :=
  crcConfigured_get rfl (by simp [Fld.mask]) d

theorem crcConfigured_refin (d : Device) : (crcConfigured u w d).get (F.CRCu_CFG.REFIN u) = (F.CRCu_CFG.REFIN u).of w :=
  crcConfigured_get rfl (by simp [Fld.mask]) d

/-- r reduced to the new width (R378). -/
theorem crcPair_state_crcConfigured (d : Device) : crcPair (crcConfigured u w d) u 3 =
    d.pair (R.CRCu_STATE_LO u) (R.CRCu_STATE_HI u) % 2 ^ ((F.CRCu_CFG.WIDTH_M1 u).of w + 1) := by
  have hframe : SameBut [R.CRCu_CFG u] [] d (crcConfigured u w d) := (SameBut.refl _ _ _).wr _ (by simp)
  have hwidth : crcW (crcConfigured u w d) u = (F.CRCu_CFG.WIDTH_M1 u).of w + 1 := congrArg (· + 1) (crcConfigured_width d)
  have hpair := hframe.pair (lo := R.CRCu_STATE_LO u) (hi := R.CRCu_STATE_HI u) (by simp) (by simp)
  rw [crcPair_eq_mod _ _ (by decide), crcPairLo, crcPairHi, hwidth, hpair]

end

/-! ## What R378 to R381 say of the four commands -/

section
variable {u : Fin 8} {s : State}

theorem exec_crcDataWrite {k : Fin 3} {value : Word} (h : gateOpen s.dev (R.CRCu_DATA8 u) = true) :
    exec (.crcDataWrite u k value) s = s.done (crcBytes s.dev u (lowBytes (2 ^ k.val) value.toNat)) :=
  congrArg s.done (regAccess_of_gateOpen h true _)

theorem exec_crcStart (h : gateOpen s.dev (R.CRCu_CTRL u) = true) : exec (.crcStart u) s = s.done (crcStartDev u s.dev) :=
  congrArg s.done (regAccess_of_gateOpen h true _)

theorem exec_crcStateWrite {k : Fin 6} {hi : Bool} {value : Word} (h : gateOpen s.dev (R.CRCu_CTRL u) = true) :
    exec (.crcStateWrite u k hi value) s = s.done (crcPairDev u k hi value s.dev) :=
  congrArg s.done (regAccess_of_gateOpen h true _)

theorem exec_crcCfgWrite {value : Word} (h : gateOpen s.dev (R.CRCu_CFG u) = true) :
    exec (.crcCfgWrite u value) s = s.done (crcCfgDev u value s.dev) :=
  congrArg s.done (regAccess_of_gateOpen h true _)

end

/-- Settles O39: every command but a held half sets r, or a pair, and shows RESULT anew; RESULT depends on r, XOR and CFG alone. -/
theorem checkValueUnits : Obligations.CheckValueUnits := by
  unfold Obligations.CheckValueUnits
  refine ⟨?data, ?start, ?startAutoInc, ?hold, ?pair, ?result, ?cfg, ?narrow⟩
  case data =>
    intro u k value s hgate
    refine completes_done (exec_crcDataWrite hgate) ?_
    rw [crcBytes_eq]
    exact ⟨crcSetState_state _ _ _, crcSetState_result _ _ _, (SameBut.refl _ _ _).crcSetState (List.Subset.refl _) _⟩
  case start =>
    intro u s ⟨hprefix, hinc⟩ hgate
    refine completes_done (exec_crcStart hgate) ?_
    have hlt := Nat.lt_of_lt_of_le (crcPair_lt s.dev u (pair := 1) (by decide)) (two_pow_crcW_le s.dev u)
    simp only [crcStartDev_eq, hinc, Bool.false_eq_true, if_false, crcStarted_of_pfxLen_zero _ _ hprefix]
    refine ⟨?_, crcSetState_result _ _ _, ((SameBut.refl _ _ _).crcInit (List.Subset.refl _)).crcSetState (List.Subset.refl _) _⟩
    rw [crcSetState_state, Nat.mod_eq_of_lt hlt]
  case startAutoInc =>
    intro u s hinc hgate
    refine completes_done (exec_crcStart hgate) ?_
    simp only [crcStartDev_eq, hinc, if_true]
    have hframe : SameBut (crcStateRegs u) [] s.dev (crcSetState (crcInit s.dev u) u (crcStarted s.dev u)) :=
      ((SameBut.refl _ _ _).crcInit (List.Subset.refl _)).crcSetState (List.Subset.refl _) _
    have hprefix : SameBut [R.CRCu_PREFIX_LO u, R.CRCu_PREFIX_HI u] [] (crcSetState (crcInit s.dev u) u (crcStarted s.dev u))
        ((crcSetState (crcInit s.dev u) u (crcStarted s.dev u)).setPair (R.CRCu_PREFIX_LO u) (R.CRCu_PREFIX_HI u) (crcPair s.dev u 5 + 1)) :=
      (SameBut.refl _ _ _).setPair _ (by simp) (by simp)
    refine ⟨?_, ?_, ?_⟩
    · rw [Device.pair_setPair_self _ (by simp), crcPair_prefix]
    · rw [← crcPair_prefix]
      exact (hprefix.pair (lo := R.CRCu_STATE_LO u) (hi := R.CRCu_STATE_HI u) (by simp) (by simp)).trans (crcSetState_state _ _ _)
    · exact (hframe.mono_regs (by simp [crcStateRegs])).setPair _ (by simp) (by simp)
  case hold =>
    intro u k value s hk hgate
    refine completes_done (exec_crcStateWrite hgate) ?_
    rw [crcPairDev_hi hk]
    refine ⟨⟨?_, fun j hj => ?_, ?_, fun v hv => withUnit_fin_ne _ hv _⟩, (SameBut.refl _ _ _).putCrc _ (by simp)⟩
    all_goals simp only [withUnit_fin_self, unit_fin]
    exact withUnit_fin_ne _ hj _
  case pair =>
    intro u k value s hk hgate
    refine completes_done (exec_crcStateWrite hgate) ?_
    obtain ⟨hlo, hhi⟩ := crcPairLo_not_mem_resultRegs (u := u) hk
    rw [crcPairDev_lo hk]
    refine ⟨?_, ?_, crcShow_result _ _, (((SameBut.refl _ _ _).wr _ (by simp)).wr _ (by simp)).crcShow (by simp [crcResultRegs])⟩
    · rw [(crcShow_frame _ _).regs _ hlo, Device.rd_wr_ne _ _ _ _ (by omega), Device.rd_wr_self]
    · rw [(crcShow_frame _ _).regs _ hhi, Device.rd_wr_self, unit_fin]
      simp
  case result =>
    intro u hi value s hgate
    exact completes_done (exec_crcStateWrite hgate) (crcPairDev_result hi value s.dev)
  case cfg =>
    intro u value s hwidth hgate
    refine completes_done (exec_crcCfgWrite hgate) ?_
    rw [crcCfgDev_of_valid hwidth]
    have hframe : SameBut (crcStateRegs u) [] (crcConfigured u value s.dev)
        (crcSetState (crcConfigured u value s.dev) u (crcPair (crcConfigured u value s.dev) u 3)) :=
      (SameBut.refl _ _ _).crcSetState (List.Subset.refl _) _
    refine ⟨?_, ?_, ?_, ?_⟩
    · exact (hframe.get (by simp [crcStateRegs])).trans (crcConfigured_width _)
    · exact (hframe.get (by simp [crcStateRegs])).trans (crcConfigured_refin _)
    · have hlt := Nat.lt_of_lt_of_le (crcPair_lt (crcConfigured u value s.dev) u (pair := 3) (by decide)) (two_pow_crcW_le _ _)
      rw [crcSetState_state, Nat.mod_eq_of_lt hlt, crcPair_state_crcConfigured]
    · exact ((SameBut.refl _ _ _).wr _ (by simp)).crcSetState (by simp [crcStateRegs]) _
  case narrow =>
    intro u value s hwidth hgate
    refine completes_done (exec_crcCfgWrite hgate) ?_
    rw [crcCfgDev_of_narrow hwidth]
    exact ⟨Device.get_raise_self _ _ rfl (by decide), (SameBut.refl _ _ _).raise (by simp) (by simp)⟩

end Sys2Proof.Machine

/-! # DMA channels

What a channel's state, its registers and what it holds read after the operations of a channel, and a RESUME that the model answers in
another way than its statement: that of a channel in DRAIN which halts once its data are written (R374). -/

namespace Sys2Proof.Machine

/-! ## What a channel holds -/

section
variable {as : List Nat} {ps : List Part} {d e : Device}

theorem SameBut.putDma (h : SameBut as ps d e) (x : Vector DmaChan 16) (hp : Part.dma ∈ ps) : SameBut as ps d { e with dma := x } :=
  h.parts_only rfl rfl rfl rfl (fun p hp' => by
    cases p with
    | dma => exact absurd hp hp'
    | _ => rfl)

theorem SameBut.putDmaOut (h : SameBut as ps d e) (l : List (Nat × Nat)) (hp : Part.dmaOut ∈ ps) : SameBut as ps d { e with dmaOut := l } :=
  h.parts_only rfl rfl rfl rfl (fun p hp' => by
    cases p with
    | dmaOut => exact absurd hp hp'
    | _ => rfl)

theorem SameBut.withChan (h : SameBut as ps d e) (c : Nat) (f : DmaChan → DmaChan) (hp : Part.dma ∈ ps) : SameBut as ps d (e.withChan c f) :=
  h.putDma _ hp

end

theorem Device.withChan_self (d : Device) (k : Fin 16) (f : DmaChan → DmaChan) : unit (d.withChan k f).dma k = f (unit d.dma k) :=
  unit_withUnit_self _ k.isLt _

/-- Of the channels, only `c` holds something else. -/
def OnlyChan (c : Nat) (d e : Device) : Prop := ∀ j, j ≠ c → unit e.dma j = unit d.dma j

section
variable {c : Nat} {d e : Device}

theorem OnlyChan.of_dma_eq (h : e.dma = d.dma) : OnlyChan c d e := fun j _ => by rw [h]

theorem OnlyChan.trans {d0 : Device} (h : OnlyChan c d0 d) (h' : OnlyChan c d e) : OnlyChan c d0 e := fun j hj => (h' j hj).trans (h j hj)

theorem OnlyChan.getElem {k : Fin 16} (h : OnlyChan k d e) : ∀ j : Fin 16, j ≠ k → e.dma[j] = d.dma[j] := fun j hj => by
  have := h j (fun hval => hj (Fin.ext hval))
  rwa [unit_fin, unit_fin] at this

theorem onlyChan_withChan (d : Device) (c : Nat) (f : DmaChan → DmaChan) : OnlyChan c d (d.withChan c f) := fun _ hj => unit_withUnit_ne _ hj _

end

/-! ## States of a channel -/

section
variable (d : Device) (c st : Nat)

@[simp] theorem setDma_rd (a : Nat) : (setDma d c st).rd a = (d.set (F.DMAc_STATUS.STATE c) st).rd a := by
  unfold setDma
  dsimp only
  split <;> rfl

@[simp] theorem setDma_get (f : Fld) : (setDma d c st).get f = (d.set (F.DMAc_STATUS.STATE c) st).get f := congrArg f.of (setDma_rd d c st _)

@[simp] theorem setDma_dmaOut : (setDma d c st).dmaOut = d.dmaOut := by
  unfold setDma
  dsimp only
  split <;> rfl

theorem setDma_dmaState (hst : st < 16) : (setDma d c st).dmaState c = st := by
  rw [Device.dmaState, setDma_get, Device.get_set_self _ _ _ (by simp), Nat.mod_eq_of_lt (by simpa using hst)]

theorem onlyChan_setDma : OnlyChan c d (setDma d c st) := by
  unfold setDma
  dsimp only
  split
  · exact .of_dma_eq rfl
  · exact (OnlyChan.of_dma_eq rfl).trans (onlyChan_withChan _ _ _)

theorem SameBut.setDma {as : List Nat} {ps : List Part} {d0 d : Device} (h : SameBut as ps d0 d) (c st : Nat) (ha : R.DMAc_STATUS c ∈ as)
    (hp : Part.dma ∈ ps) : SameBut as ps d0 (setDma d c st) := by
  unfold Machine.setDma
  dsimp only
  split
  · exact h.set _ ha
  · exact (h.set _ ha).withChan _ _ hp

end

/-! ## A RESUME while a halt waits (R372, R374) -/

theorem exec_dmaResume {k : Fin 16} {s : State} (h : gateOpen s.dev (R.DMAc_CTRL k) = true) :
    exec (.dmaResume k) s = s.done (dmaResumeDev k s.dev) :=
  congrArg s.done (regAccess_of_gateOpen h true _)

/-- A channel in DRAIN that halts once its data are written stays there when PAUSE is cleared. -/
theorem dmaResumeDev_dmaState_of_halting {d : Device} {c : Nat} (hdrain : d.dmaState c = dmDrain) (hhalting : (unit d.dma c).halting ≠ none) :
    (dmaResumeDev c d).dmaState c = dmDrain := by
  have hstays : ¬ ((d.dmaState c = dmDrain ∧ (unit d.dma c).halting = none) ∨ d.dmaState c = dmPaused) := by
    rw [hdrain]
    simp [hhalting, dmDrain, dmPaused]
  rw [dmaResumeDev, if_neg hstays, ← hdrain]
  exact Device.get_set_ne _ _ _ _ (.inl (by simp))

/-- DMA channel 0 runs and holds 8 bytes that it has read; then a read at 0x1_0000_0000 ends with a bus error, so that the channel drains
before it halts. -/
def readFailedInDrain : State :=
  { dev := dmaStops (dmaRunning.dev.withChan 0 (fun x => { x with data := List.replicate 8 7 })) 0 0x100000000 false 0 }

theorem readFailedInDrain_halts : gateOpen readFailedInDrain.dev (R.DMAc_CTRL (0 : Fin 16)) = true ∧
    readFailedInDrain.dev.dmaState (0 : Fin 16) = dmDrain ∧ (unit readFailedInDrain.dev.dma (0 : Fin 16)).halting ≠ none := by decide

/-- Refutes O40: after a failed read a channel in DRAIN writes the data that it holds and then halts (R374), and PAUSE := 0 does not return it
to RUN, where the clause of RESUME has every channel in DRAIN run again. -/
theorem not_dmaControl : ¬ Obligations.DmaControl := by
  unfold Obligations.DmaControl
  rintro ⟨-, -, -, -, -, -, -, -, -, -, -, -, -, hResume, -⟩
  obtain ⟨hgate, hdrain, hhalting⟩ := readFailedInDrain_halts
  generalize readFailedInDrain = s at hgate hdrain hhalting
  obtain ⟨e, hexec, ⟨-, hstate⟩, -⟩ := hResume 0 s hgate
  rw [exec_dmaResume hgate] at hexec
  have hstays : e.dmaState (0 : Fin 16) = dmDrain := by
    rw [dev_of_done_eq_next hexec]
    exact dmaResumeDev_dmaState_of_halting hdrain hhalting
  have hruns : e.dmaState (0 : Fin 16) = dmRun := hstate.trans (if_pos (.inl hdrain))
  rw [hruns] at hstays
  exact absurd hstays (by decide)

end Sys2Proof.Machine

/-! # The end of a DMA transfer

What a completion with and without an armed shadow, and a halt on a bus error, do (R367, R371, R374), and a channel that has nothing left
to move. -/

namespace Sys2Proof.Machine

/-! ## Flags and events -/

/-- A raised flag keeps the events in flight. -/
theorem mem_inflight_raise {d : Device} {x : RillEvent} (h : x ∈ d.evt.inflight) (f : Fld) : x ∈ (d.raise f).evt.inflight := by
  unfold Device.raise Device.fireFlags
  dsimp only
  split
  · exact h
  · split
    · split
      · exact h
      · split
        · exact h
        · exact List.mem_append_left _ h
    · exact h

/-! ## The start of a transfer -/

section
variable (d : Device) (c : Nat)

theorem dmaBegin_frame : SameBut [R.DMAc_STATUS c, R.DMAc_CSUM c] [.dma] d (dmaBegin d c) := by
  unfold dmaBegin
  refine SameBut.setDma (SameBut.withChan ?_ _ _ (by simp)) _ _ (by simp) (by simp)
  split
  · exact SameBut.refl _ _ _
  · exact (SameBut.refl _ _ _).wr _ (by simp)

theorem onlyChan_dmaBegin : OnlyChan c d (dmaBegin d c) := by
  unfold dmaBegin
  refine OnlyChan.trans (OnlyChan.trans (.of_dma_eq ?_) (onlyChan_withChan _ c _)) (onlyChan_setDma _ c _)
  split <;> rfl

theorem dmaBegin_dmaState : (dmaBegin d c).dmaState c = if d.bit (F.DMAc_CTRL.PAUSE c) then dmPaused else dmRun := by
  rw [dmaBegin, setDma_dmaState]
  split <;> decide

theorem dmaEnter_frame : SameBut [R.DMAc_STATUS c, R.DMAc_CSUM c] [.dma] d (dmaEnter d c) := by
  unfold dmaEnter
  split
  · exact (SameBut.refl _ _ _).setDma _ _ (by simp) (by simp)
  · exact dmaBegin_frame d c

theorem onlyChan_dmaEnter : OnlyChan c d (dmaEnter d c) := by
  unfold dmaEnter
  split
  · exact onlyChan_setDma _ _ _
  · exact onlyChan_dmaBegin d c

theorem dmaEnter_dmaState : (dmaEnter d c).dmaState c =
    if d.bit (F.DMAc_CFG.TRIG_EN c) then dmWait else if d.bit (F.DMAc_CTRL.PAUSE c) then dmPaused else dmRun := by
  unfold dmaEnter
  split
  · exact setDma_dmaState _ _ _ (by decide)
  · exact dmaBegin_dmaState d c

/-- A start leaves SHADOW_VALID, which stands beside STATE. -/
theorem dmaEnter_shadowValid : (dmaEnter d c).get (F.DMAc_STATUS.SHADOW_VALID c) = d.get (F.DMAc_STATUS.SHADOW_VALID c) := by
  have hset : ∀ (d0 : Device) (st : Nat), (setDma d0 c st).get (F.DMAc_STATUS.SHADOW_VALID c) = d0.get (F.DMAc_STATUS.SHADOW_VALID c) :=
    fun d0 st => (setDma_get d0 c st _).trans (Device.get_set_ne _ _ _ _ (.inr (.inl (by simp))))
  unfold dmaEnter dmaBegin
  split
  · exact hset _ _
  · rw [hset]
    split
    · rfl
    · exact congrArg (F.DMAc_STATUS.SHADOW_VALID c).of (Device.rd_wr_ne _ _ _ _ (by simp))

/-! ## The hand-over (R371) -/

/-- The registers of the live fields beside CFG. -/
def dmaLiveRegs (c : Nat) : List Nat := [R.DMAc_SRC_LO c, R.DMAc_SRC_HI c, R.DMAc_DST_LO c, R.DMAc_DST_HI c, R.DMAc_LEN c]

/-- SRC, DST and LEN of the shadow made live. -/
def dmaFieldsLive : Device := (List.range 5).foldl (fun d k => d.wr (R.DMAc_SRC_LO c + 4 * k) (d.rd (R.DMAc_SH_SRC_LO c + 4 * k))) d

theorem dmaFieldsLive_eq : dmaFieldsLive d c =
    ((((d.wr (R.DMAc_SRC_LO c) (d.rd (R.DMAc_SH_SRC_LO c))).wr (R.DMAc_SRC_HI c) (d.rd (R.DMAc_SH_SRC_HI c))).wr (R.DMAc_DST_LO c)
      (d.rd (R.DMAc_SH_DST_LO c))).wr (R.DMAc_DST_HI c) (d.rd (R.DMAc_SH_DST_HI c))).wr (R.DMAc_LEN c) (d.rd (R.DMAc_SH_LEN c)) := by
  have hlive : ∀ k, R.DMAc_SRC_LO c + 4 * k = 0x10070110 + 4 * k + c * 0x80 := fun k => Nat.add_right_comm _ _ _
  have hshadow : ∀ k, R.DMAc_SH_SRC_LO c + 4 * k = 0x10070140 + 4 * k + c * 0x80 := fun k => Nat.add_right_comm _ _ _
  simp only [dmaFieldsLive, hlive, hshadow, List.range, List.range.loop, List.foldl_cons, List.foldl_nil]
  simp [Device.rd_wr_ne]

/-- Every field of the shadow made live, and the shadow emptied. -/
def dmaShadowLive : Device :=
  ((dmaFieldsLive d c).wr (R.DMAc_CFG c) ((dmaFieldsLive d c).rd (R.DMAc_SH_CFG c))).set (F.DMAc_STATUS.SHADOW_VALID c) 0

end

section
variable {d : Device} {c : Nat}

theorem dmaHandOver_of_shadow (h : d.bit (F.DMAc_STATUS.SHADOW_VALID c) = true) :
    dmaHandOver d c = dmaEnter ((dmaShadowLive d c).raise (F.DMAc_FLAGS.HANDOVER c)) c :=
  if_pos h

theorem dmaHandOver_of_no_shadow (h : d.bit (F.DMAc_STATUS.SHADOW_VALID c) = false) : dmaHandOver d c = setDma d c dmIdle :=
  if_neg (by rw [h]; exact Bool.false_ne_true)

theorem dmaFieldsLive_frame (d : Device) (c : Nat) : SameBut (dmaLiveRegs c) [] d (dmaFieldsLive d c) := by
  rw [dmaFieldsLive_eq]
  exact (((((SameBut.refl _ _ _).wr _ (by simp [dmaLiveRegs])).wr _ (by simp [dmaLiveRegs])).wr _ (by simp [dmaLiveRegs])).wr _
    (by simp [dmaLiveRegs])).wr _ (by simp [dmaLiveRegs])

/-- Of what becomes live, CFG and SHADOW_VALID come last. -/
theorem dmaShadowLive_tail (d : Device) (c : Nat) : SameBut [R.DMAc_CFG c, R.DMAc_STATUS c] [] (dmaFieldsLive d c) (dmaShadowLive d c) :=
  ((SameBut.refl _ _ _).wr _ (by simp)).set _ (by simp)

theorem dmaShadowLive_frame (d : Device) (c : Nat) : SameBut (dmaLiveRegs c ++ [R.DMAc_CFG c, R.DMAc_STATUS c]) [] d (dmaShadowLive d c) :=
  ((dmaFieldsLive_frame d c).mono_regs (by simp)).trans ((dmaShadowLive_tail d c).mono_regs (by simp))

theorem dmaShadowLive_src (d : Device) (c : Nat) : dmaSrc (dmaShadowLive d c) c = d.pair (R.DMAc_SH_SRC_LO c) (R.DMAc_SH_SRC_HI c) := by
  rw [dmaSrc, (dmaShadowLive_tail d c).pair (by simp) (by simp), dmaFieldsLive_eq]
  simp [Device.pair, Device.rd_wr_ne]

theorem dmaShadowLive_dst (d : Device) (c : Nat) : dmaDst (dmaShadowLive d c) c = d.pair (R.DMAc_SH_DST_LO c) (R.DMAc_SH_DST_HI c) := by
  rw [dmaDst, (dmaShadowLive_tail d c).pair (by simp) (by simp), dmaFieldsLive_eq]
  simp [Device.pair, Device.rd_wr_ne]

theorem dmaShadowLive_len (d : Device) (c : Nat) : dmaLen (dmaShadowLive d c) c = (d.rd (R.DMAc_SH_LEN c)).toNat := by
  rw [dmaLen, (dmaShadowLive_tail d c).regs _ (by simp), dmaFieldsLive_eq, Device.rd_wr_self]

theorem dmaShadowLive_cfg (d : Device) (c : Nat) : (dmaShadowLive d c).rd (R.DMAc_CFG c) = d.rd (R.DMAc_SH_CFG c) := by
  rw [dmaShadowLive, Device.rd_set_ne _ _ _ _ (by simp), Device.rd_wr_self, (dmaFieldsLive_frame d c).regs _ (by simp [dmaLiveRegs])]

theorem dmaShadowLive_shadowValid (d : Device) (c : Nat) : (dmaShadowLive d c).get (F.DMAc_STATUS.SHADOW_VALID c) = 0 := by
  rw [dmaShadowLive, Device.get_set_self _ _ _ (by simp), Nat.zero_mod]

end

/-! ## The completion (R367) -/

section
variable (d : Device) (c : Nat)

/-- DONE, DMAc_XFERS and the rill of a completion, before the hand-over. -/
def dmaDone : Device := ((d.count (F.DMAc_XFERS.V c)).emit (142 + c) d.nowNs).raise (F.DMAc_FLAGS.DONE c)

theorem dmaCompleted_eq : dmaCompleted d c = dmaHandOver (dmaDone d c) c := rfl

theorem dmaDone_frame : SameBut [R.DMAc_XFERS c, R.DMAc_FLAGS c] [.evt] d (dmaDone d c) :=
  (((SameBut.refl _ _ _).count 1 (by simp)).emit _ _ (by simp)).raise (by simp) (by simp)

theorem dmaDone_done : (dmaDone d c).get (F.DMAc_FLAGS.DONE c) = 1 := Device.get_raise_self _ _ rfl (by simp)

theorem dmaDone_xfers : (dmaDone d c).get (F.DMAc_XFERS.V c) =
    min (d.get (F.DMAc_XFERS.V c) + 1) (2 ^ ((F.DMAc_XFERS.V c).hi + 1 - (F.DMAc_XFERS.V c).lo) - 1) := by
  rw [dmaDone, Device.get_raise, Device.get_set_ne _ _ _ _ (.inl (by simp))]
  exact Device.get_count_saturating _ _ _ (by simp)

theorem mem_inflight_dmaDone : ({ rill := 142 + c, stamp := d.nowNs } : RillEvent) ∈ (dmaDone d c).evt.inflight :=
  mem_inflight_raise (List.mem_append_right _ (List.mem_singleton.2 rfl)) _

end

/-! ## A halt on a bus error (R353, R374) -/

section
variable {d : Device} {m addr : Nat} {write : Bool} {cause : Nat}

theorem latchBusError_frame (d : Device) (m addr : Nat) (write : Bool) (cause : Nat) :
    SameBut busErrorRegs [] d (latchBusError d m addr write cause) :=
  (SameBut.refl _ _ _).latchBusError m addr write cause

theorem latchBusError_of_valid (h : d.bit F.CORE_BUSERR_INFO.VALID = true) : latchBusError d m addr write cause = d := if_pos h

theorem latchBusError_of_free (h : d.bit F.CORE_BUSERR_INFO.VALID = false) : latchBusError d m addr write cause =
    ((((d.setPair R.CORE_BUSERR_ADDR_LO R.CORE_BUSERR_ADDR_HI addr).set F.CORE_BUSERR_INFO.MASTER m).setBit
      F.CORE_BUSERR_INFO.WRITE write).set F.CORE_BUSERR_INFO.CAUSE cause).set F.CORE_BUSERR_INFO.VALID 1 :=
  if_neg (by rw [h]; exact Bool.false_ne_true)

/-- What the interconnect has latched of the access. -/
theorem latchBusError_latched (h : d.bit F.CORE_BUSERR_INFO.VALID = false) :
    (latchBusError d m addr write cause).pair R.CORE_BUSERR_ADDR_LO R.CORE_BUSERR_ADDR_HI = addr % 2 ^ 64 ∧
      (latchBusError d m addr write cause).get F.CORE_BUSERR_INFO.MASTER = m % 16 ∧
      (latchBusError d m addr write cause).bit F.CORE_BUSERR_INFO.WRITE = write ∧
      (latchBusError d m addr write cause).bit F.CORE_BUSERR_INFO.VALID = true := by
  rw [latchBusError_of_free h]
  refine ⟨?_, ?_, ?_, ?_⟩
  · have hframe : ∀ d0 : Device, SameBut [R.CORE_BUSERR_INFO] [] d0 ((((d0.set F.CORE_BUSERR_INFO.MASTER m).setBit
        F.CORE_BUSERR_INFO.WRITE write).set F.CORE_BUSERR_INFO.CAUSE cause).set F.CORE_BUSERR_INFO.VALID 1) := fun d0 =>
      ((((SameBut.refl _ _ _).set _ (by simp)).setBit _ (by simp)).set _ (by simp)).set _ (by simp)
    rw [(hframe _).pair (by simp) (by simp), Device.pair_setPair_self _ (by simp)]
  · rw [Device.get_set_ne _ _ _ _ (by simp), Device.get_set_ne _ _ _ _ (by simp), Device.get_setBit, Device.get_set_ne _ _ _ _ (by simp),
      Device.get_set_self _ _ _ (by simp)]
    rfl
  · rw [Device.bit, Device.get_set_ne _ _ _ _ (by simp), Device.get_set_ne _ _ _ _ (by simp)]
    exact Device.bit_setBit_self _ _ rfl (by simp)
  · rw [Device.bit, Device.get_set_self _ _ _ (by simp)]
    rfl

end

section
variable (d : Device) (c : Nat)

/-- The channel halted with the flag, its accesses ended, and nothing latched yet. -/
def dmaHaltFlagged (flag : Fld) : Device :=
  (setDma ((dmaReturned (dmaDiscard d c) c).withChan c (fun x => { x with failAt := some d.tb.edges })) c dmHalted).raise flag

/-- The latch of the failing access in the channel. -/
def dmaLatch (addr : Nat) (write : Bool) (cause : Nat) : Device :=
  (((d.setPair (R.DMAc_ERR_ADDR_LO c) (R.DMAc_ERR_ADDR_HI c) addr).setBit (F.DMAc_ERR_INFO.WRITE c) write).set
    (F.DMAc_ERR_INFO.CAUSE c) cause).set (F.DMAc_ERR_INFO.VALID c) 1

theorem dmaHalt_of_valid {d : Device} {c : Nat} (h : d.bit (F.DMAc_ERR_INFO.VALID c) = true) (flag : Fld) (addr : Nat) (write : Bool)
    (cause : Nat) : dmaHalt d c flag addr write cause = dmaHaltFlagged d c flag :=
  if_pos h

theorem dmaHalt_of_free {d : Device} {c : Nat} (h : d.bit (F.DMAc_ERR_INFO.VALID c) = false) (flag : Fld) (addr : Nat) (write : Bool)
    (cause : Nat) : dmaHalt d c flag addr write cause = dmaLatch (dmaHaltFlagged d c flag) c addr write cause :=
  if_neg (by rw [h]; exact Bool.false_ne_true)

theorem dmaLatch_frame (addr : Nat) (write : Bool) (cause : Nat) :
    SameBut [R.DMAc_ERR_ADDR_LO c, R.DMAc_ERR_ADDR_HI c, R.DMAc_ERR_INFO c] [] d (dmaLatch d c addr write cause) :=
  ((((SameBut.refl _ _ _).setPair _ (by simp) (by simp)).setBit _ (by simp)).set _ (by simp)).set _ (by simp)

theorem dmaLatch_info (addr : Nat) (write : Bool) (cause : Nat) :
    (dmaLatch d c addr write cause).get (F.DMAc_ERR_INFO.VALID c) = 1 ∧
      (dmaLatch d c addr write cause).get (F.DMAc_ERR_INFO.CAUSE c) = cause % 4 ∧
      (dmaLatch d c addr write cause).bit (F.DMAc_ERR_INFO.WRITE c) = write ∧
      (dmaLatch d c addr write cause).pair (R.DMAc_ERR_ADDR_LO c) (R.DMAc_ERR_ADDR_HI c) = addr % 2 ^ 64 := by
  unfold dmaLatch
  refine ⟨?_, ?_, ?_, ?_⟩
  · exact Device.get_set_self _ _ _ (by simp)
  · rw [Device.get_set_ne _ _ _ _ (by simp), Device.get_set_self _ _ _ (by simp)]
    rfl
  · rw [Device.bit, Device.get_set_ne _ _ _ _ (by simp), Device.get_set_ne _ _ _ _ (by simp)]
    exact Device.bit_setBit_self _ _ rfl (by simp)
  · have hframe : ∀ d0 : Device, SameBut [R.DMAc_ERR_INFO c] [] d0 (((d0.setBit (F.DMAc_ERR_INFO.WRITE c) write).set
        (F.DMAc_ERR_INFO.CAUSE c) cause).set (F.DMAc_ERR_INFO.VALID c) 1) := fun d0 =>
      (((SameBut.refl _ _ _).setBit _ (by simp)).set _ (by simp)).set _ (by simp)
    rw [(hframe _).pair (by simp) (by simp), Device.pair_setPair_self _ (by simp)]

variable {flag : Fld}

theorem dmaHaltFlagged_frame (ha : flag.addr = R.DMAc_FLAGS c) :
    SameBut [R.DMAc_STATUS c, R.DMAc_FLAGS c] [.evt, .dma, .dmaOut] d (dmaHaltFlagged d c flag) := by
  refine SameBut.raise (SameBut.setDma (SameBut.withChan (SameBut.putDmaOut (SameBut.withChan (SameBut.refl _ _ _) _ _ (by simp)) _ (by simp))
    _ _ (by simp)) _ _ (by simp) (by simp)) ?_ (by simp)
  simp [ha]

theorem dmaHaltFlagged_dmaState (ha : flag.addr = R.DMAc_FLAGS c) : (dmaHaltFlagged d c flag).dmaState c = dmHalted := by
  rw [dmaHaltFlagged, Device.dmaState, Device.get_raise, Device.get_set_ne _ _ _ _ (.inl (by simp [ha]))]
  exact setDma_dmaState _ _ _ (by decide)

theorem dmaHaltFlagged_dmaOut : (dmaHaltFlagged d c flag).dmaOut = d.dmaOut.filter (fun w => w.1 ≠ c) := by
  rw [dmaHaltFlagged, Device.raise_dmaOut, setDma_dmaOut]
  rfl

theorem onlyChan_dmaHaltFlagged : OnlyChan c d (dmaHaltFlagged d c flag) := by
  have hdiscard : OnlyChan c d (dmaReturned (dmaDiscard d c) c) :=
    onlyChan_withChan d c (fun x => { x with data := [], halting := none })
  exact ((hdiscard.trans (onlyChan_withChan _ c _)).trans (onlyChan_setDma _ c _)).trans (.of_dma_eq (Device.raise_dma _ _))

end

/-- The channel has halted on a bus error of an access at `a`: BUS_ERR is set, the access is latched in the channel and at the interconnect
where neither latch was full, its writes have returned, and no other channel has changed. -/
structure HaltsOnBusError (k a : Nat) (write : Bool) (cause : Nat) (d e : Device) : Prop where
  state : e.dmaState k = dmHalted
  busErr : e.get (F.DMAc_FLAGS.BUS_ERR k) = 1
  valid : e.get (F.DMAc_ERR_INFO.VALID k) = 1
  info : d.bit (F.DMAc_ERR_INFO.VALID k) = false → e.get (F.DMAc_ERR_INFO.CAUSE k) = cause % 4 ∧ e.bit (F.DMAc_ERR_INFO.WRITE k) = write ∧
    e.pair (R.DMAc_ERR_ADDR_LO k) (R.DMAc_ERR_ADDR_HI k) = a % 2 ^ 64
  latch : d.bit F.CORE_BUSERR_INFO.VALID = false → e.pair R.CORE_BUSERR_ADDR_LO R.CORE_BUSERR_ADDR_HI = a % 2 ^ 64 ∧
    e.get F.CORE_BUSERR_INFO.MASTER = 5 ∧ e.bit F.CORE_BUSERR_INFO.WRITE = write ∧ e.bit F.CORE_BUSERR_INFO.VALID = true
  kept : d.bit F.CORE_BUSERR_INFO.VALID = true → ∀ r ∈ busErrorRegs, e.rd r = d.rd r
  out : e.dmaOut = d.dmaOut.filter (fun w => w.1 ≠ k)
  others : OnlyChan k d e
  frame : SameBut (dmaErrorRegs k ++ busErrorRegs) [.evt, .dma, .dmaOut] d e

section
variable {d : Device} {k a : Nat} {write : Bool} {cause : Nat}

theorem dmaHalt_frame (d : Device) (k a : Nat) (write : Bool) (cause : Nat) :
    SameBut (dmaErrorRegs k) [.evt, .dma, .dmaOut] d (dmaHalt d k (F.DMAc_FLAGS.BUS_ERR k) a write cause) := by
  have hflagged : SameBut (dmaErrorRegs k) [.evt, .dma, .dmaOut] d (dmaHaltFlagged d k (F.DMAc_FLAGS.BUS_ERR k)) :=
    (dmaHaltFlagged_frame d k rfl).mono_regs (by simp [dmaErrorRegs])
  cases hvalid : d.bit (F.DMAc_ERR_INFO.VALID k) with
  | true => rwa [dmaHalt_of_valid hvalid]
  | false =>
    rw [dmaHalt_of_free hvalid]
    exact hflagged.trans (((dmaLatch_frame _ k a write cause).mono_regs (by simp [dmaErrorRegs])).mono_parts (by simp))

/-- Beside the latch a halt is the flagged halt. -/
theorem dmaHalt_flagged (d : Device) (k a : Nat) (write : Bool) (cause : Nat) :
    SameBut [R.DMAc_ERR_ADDR_LO k, R.DMAc_ERR_ADDR_HI k, R.DMAc_ERR_INFO k] [] (dmaHaltFlagged d k (F.DMAc_FLAGS.BUS_ERR k))
      (dmaHalt d k (F.DMAc_FLAGS.BUS_ERR k) a write cause) := by
  cases hvalid : d.bit (F.DMAc_ERR_INFO.VALID k) with
  | true =>
    rw [dmaHalt_of_valid hvalid]
    exact SameBut.refl _ _ _
  | false =>
    rw [dmaHalt_of_free hvalid]
    exact dmaLatch_frame _ _ _ _ _

/-- The channel's latch is full after a halt. -/
theorem dmaHalt_valid (d : Device) (k a : Nat) (write : Bool) (cause : Nat) :
    (dmaHalt d k (F.DMAc_FLAGS.BUS_ERR k) a write cause).get (F.DMAc_ERR_INFO.VALID k) = 1 := by
  cases hvalid : d.bit (F.DMAc_ERR_INFO.VALID k) with
  | true =>
    rw [dmaHalt_of_valid hvalid, (dmaHaltFlagged_frame d k rfl).get (by simp)]
    exact Device.get_of_bit rfl hvalid
  | false =>
    rw [dmaHalt_of_free hvalid]
    exact (dmaLatch_info _ _ _ _ _).1

/-- The latch at the interconnect lies below the pages of the DMA channels. -/
theorem lt_of_mem_busErrorRegs : ∀ r ∈ busErrorRegs, r < 0x10070100 := by decide

theorem le_of_mem_dmaErrorRegs {r : Nat} (h : r ∈ dmaErrorRegs k) : 0x10070100 ≤ r := by
  simp only [dmaErrorRegs, List.mem_cons, List.not_mem_nil, or_false] at h
  obtain rfl | rfl | rfl | rfl | rfl := h <;> exact Nat.le_add_right_of_le (by decide)

/-- A halt with the latch at the interconnect, as a failing access makes it. -/
theorem dmaHalt_haltsOnBusError (d : Device) (k a : Nat) (write : Bool) (cause : Nat) :
    HaltsOnBusError k a write cause d
      (dmaHalt (latchBusError d dmaMaster a write causeRefused) k (F.DMAc_FLAGS.BUS_ERR k) a write cause) := by
  have hbus := latchBusError_frame d dmaMaster a write causeRefused
  have hhalt := dmaHalt_frame (latchBusError d dmaMaster a write causeRefused) k a write cause
  have hflagged := dmaHalt_flagged (latchBusError d dmaMaster a write causeRefused) k a write cause
  have hown : ∀ r ∈ busErrorRegs, r ∉ dmaErrorRegs k := fun r hbus hdma =>
    absurd (le_of_mem_dmaErrorRegs hdma) (Nat.not_le.2 (lt_of_mem_busErrorRegs r hbus))
  refine ⟨?_, ?_, dmaHalt_valid _ _ _ _ _, fun hfree => ?_, fun hfree => ?_, fun hfull => ?_, ?_, ?_, ?_⟩
  · exact (hflagged.get (by simp)).trans (dmaHaltFlagged_dmaState _ _ rfl)
  · exact (hflagged.get (by simp)).trans (Device.get_raise_self _ _ rfl (by simp))
  · rw [dmaHalt_of_free ((hbus.bit (fun hmem => hown _ hmem (by simp [dmaErrorRegs]))).trans hfree)]
    exact (dmaLatch_info _ _ _ _ _).2
  · obtain ⟨haddr, hmaster, hwrite, hvalid⟩ := latchBusError_latched (m := dmaMaster) (addr := a) (write := write) (cause := causeRefused) hfree
    have hinfo := hown R.CORE_BUSERR_INFO (by simp [busErrorRegs])
    exact ⟨(hhalt.pair (hown _ (by simp [busErrorRegs])) (hown _ (by simp [busErrorRegs]))).trans haddr, (hhalt.get hinfo).trans hmaster,
      (hhalt.bit hinfo).trans hwrite, (hhalt.bit hinfo).trans hvalid⟩
  · intro r hr
    rw [latchBusError_of_valid hfull]
    exact (dmaHalt_frame d k a write cause).regs r (hown r hr)
  · rw [hflagged.parts .dmaOut (by simp), dmaHaltFlagged_dmaOut, hbus.parts .dmaOut (by simp)]
  · exact ((OnlyChan.of_dma_eq (hbus.parts .dma (by simp))).trans (onlyChan_dmaHaltFlagged _ _)).trans
      (.of_dma_eq (hflagged.parts .dma (by simp)))
  · exact ((hbus.mono_regs (by simp)).mono_parts (by simp)).trans (hhalt.mono_regs (by simp))

/-- The channel forgets the write whose response has come. -/
theorem HaltsOnBusError.withChan {e : Device} (h : HaltsOnBusError k a write cause d e) (f : DmaChan → DmaChan) :
    HaltsOnBusError k a write cause d (e.withChan k f) :=
  { h with others := h.others.trans (onlyChan_withChan _ _ _), frame := h.frame.withChan _ _ (by simp) }

end

/-! ## Nothing left to move -/

section
variable {d : Device} {c : Nat}

/-- A channel with no data in hand, or in RUN, makes no access once LEN has come down to the target and no check value is to be written. -/
theorem dmaWants_of_nothing_left {target : Nat} (hlen : dmaLen d c ≤ target) (hsum : dmaLen d c ≠ 0 ∨ d.bit (F.DMAc_CFG.CSUM_WR c) = false)
    (hheld : d.dmaState c = dmRun ∨ (unit d.dma c).data = []) : dmaWants c target d c = false := by
  have hmore : (decide (dmaLen d c > target) || (dmaLen d c == 0 && d.bit (F.DMAc_CFG.CSUM_WR c) && !(unit d.dma c).summed)) = false := by
    rw [decide_eq_false (Nat.not_lt.2 hlen), Bool.false_or]
    obtain hne | hno := hsum
    · rw [beq_false_of_ne hne, Bool.false_and, Bool.false_and]
    · rw [hno, Bool.and_false, Bool.false_and]
  unfold dmaWants
  simp only [beq_self_eq_true, if_true, hmore, Bool.and_false, Bool.false_or]
  obtain hrun | hdata := hheld
  · rw [if_pos hrun]
  · rw [hdata]
    split
    · rfl
    · split <;> rfl

theorem dmaSlots_of_not_wants {target : Nat} (h : dmaWants c target d c = false) : ∀ n, dmaSlots c target n d = (d, true)
  | 0 => rfl
  | n + 1 => by rw [dmaSlots, h, if_pos Bool.false_ne_true]

theorem dmaBytes_zero (hsum : dmaLen d c ≠ 0 ∨ d.bit (F.DMAc_CFG.CSUM_WR c) = false)
    (hheld : d.dmaState c = dmRun ∨ (unit d.dma c).data = []) : dmaBytes d c 0 = (d, true) := by
  have hcap : capN (dmaLen d c) 0 = 0 := if_neg (Nat.not_lt_zero _)
  unfold dmaBytes
  rw [hcap]
  exact dmaSlots_of_not_wants (dmaWants_of_nothing_left (Nat.le_refl _) hsum hheld) _

end

end Sys2Proof.Machine

/-! # Bytes in memory

Bytes written and read back, and what a read and a write of SRAM by a master other than a core do (R343, Table 16.1). -/

namespace Sys2Proof.Machine

/-! ## Bytes and numbers -/

theorem leBytes_leNat : ∀ bs : List Byte, leBytes bs.length (leNat bs) = bs
  | [] => rfl
  | b :: t => by
    have hbyte : BitVec.ofNat 8 (b.toNat + 256 * leNat t) = b :=
      BitVec.eq_of_toNat_eq (by rw [BitVec.toNat_ofNat]; have := b.isLt; omega)
    have hrest : (b.toNat + 256 * leNat t) / 256 = leNat t := by have := b.isLt; omega
    rw [List.length_cons, leNat, leBytes, hbyte, hrest, leBytes_leNat t]

theorem Device.bytes_length (d : Device) (n : Nat) : ∀ a, (d.bytes a n).length = n := by
  induction n with
  | zero => exact fun _ => rfl
  | succ n ih => exact fun a => congrArg (· + 1) (ih (a + 1))

theorem Device.bytes_congr {d e : Device} (h : ∀ a, e.byte a = d.byte a) (n : Nat) : ∀ a, e.bytes a n = d.bytes a n := by
  induction n with
  | zero => exact fun _ => rfl
  | succ n ih => exact fun a => by rw [Device.bytes, Device.bytes, h, ih]

theorem Device.map_byte_range (d : Device) (n : Nat) : ∀ a, (List.range n).map (fun i => d.byte (a + i)) = d.bytes a n := by
  induction n with
  | zero => exact fun _ => rfl
  | succ n ih =>
    intro a
    rw [List.range_succ_eq_map, List.map_cons, List.map_map, Device.bytes, ← ih (a + 1)]
    refine congrArg (d.byte a :: ·) (List.map_congr_left fun i _ => ?_)
    exact congrArg d.byte (by omega : a + (i + 1) = a + 1 + i)

/-! ## Bytes written -/

/-- A write of bytes changes the memory and the reservations alone. -/
theorem Device.setBytes_eq (bs : List Byte) : ∀ (d : Device) (a : Nat),
    d.setBytes a bs = { d with mem := (d.setBytes a bs).mem, resv := (d.setBytes a bs).resv } := by
  induction bs with
  | nil => exact fun _ _ => rfl
  | cons b t ih =>
    intro d a
    rw [Device.setBytes, ih]
    rfl

theorem Device.setBytes_byte_of_outside {x : Nat} (bs : List Byte) : ∀ (d : Device) (a : Nat), x < a ∨ a + bs.length ≤ x →
    (d.setBytes a bs).byte x = d.byte x := by
  induction bs with
  | nil => exact fun _ _ _ => rfl
  | cons b t ih =>
    intro d a h
    rw [List.length_cons] at h
    rw [Device.setBytes, ih _ _ (by omega), Device.byte_setByte_ne d b (by omega)]

theorem Device.setBytes_bytes (bs : List Byte) : ∀ (d : Device) (a : Nat), (d.setBytes a bs).bytes a bs.length = bs := by
  induction bs with
  | nil => exact fun _ _ => rfl
  | cons b t ih =>
    intro d a
    rw [List.length_cons, Device.setBytes, Device.bytes, ih, Device.setBytes_byte_of_outside t _ _ (by omega), Device.byte_setByte_self]

theorem Device.setBytes_rd (d : Device) (a : Nat) (bs : List Byte) (r : Nat) : (d.setBytes a bs).rd r = d.rd r := by
  rw [Device.setBytes_eq]
  rfl

/-! ## Frames with bytes -/

section
variable {as : List Nat} {ps : List Part} {rs : List (Nat × Nat)} {c d e : Device}

/-- A write of bytes, from the device `d` on. -/
theorem SameBut.setBytes (h : SameBut as ps c d) (hp : Part.resv ∈ ps) (a : Nat) (bs : List Byte) :
    SameButMem as ps [(a, bs.length)] c (d.setBytes a bs) where
  regs r hr := (d.setBytes_rd a bs r).trans (h.regs r hr)
  parts p hp' := by
    have hpart := h.parts p hp'
    cases p with
    | resv => exact absurd hp hp'
    | _ => rw [Device.setBytes_eq]; exact hpart
  bytes x hx := (Device.setBytes_byte_of_outside bs d a (hx _ (List.mem_singleton.2 rfl))).trans (h.bytes x)
  tabs x := by rw [Device.setBytes_eq]; exact h.tabs x
  flash := by rw [Device.setBytes_eq]; exact h.flash

theorem SameButMem.trans_sameBut (h : SameButMem as ps rs c d) (h' : SameBut as ps d e) : SameButMem as ps rs c e where
  regs a ha := (h'.regs a ha).trans (h.regs a ha)
  parts p hp := Part.same_trans (h.parts p hp) (h'.parts p hp)
  bytes a ha := (h'.bytes a).trans (h.bytes a ha)
  tabs a := (h'.tabs a).trans (h.tabs a)
  flash := h'.flash.trans h.flash

theorem SameBut.trans_sameButMem (h : SameBut as ps c d) (h' : SameButMem as ps rs d e) : SameButMem as ps rs c e where
  regs a ha := (h'.regs a ha).trans (h.regs a ha)
  parts p hp := Part.same_trans (h.parts p hp) (h'.parts p hp)
  bytes a ha := (h'.bytes a ha).trans (h.bytes a)
  tabs a := (h'.tabs a).trans (h.tabs a)
  flash := h'.flash.trans h.flash

/-- A frame that lets more registers and parts change. -/
theorem SameButMem.mono {bs : List Nat} {qs : List Part} (h : SameButMem as ps rs d e) (hregs : as ⊆ bs) (hparts : ps ⊆ qs) :
    SameButMem bs qs rs d e :=
  { h with regs := fun a ha => h.regs a (fun hmem => ha (hregs hmem)), parts := fun p hp => h.parts p (fun hmem => hp (hparts hmem)) }

theorem SameButMem.get (h : SameButMem as ps rs d e) {f : Fld} (ha : f.addr ∉ as) : e.get f = d.get f := congrArg f.of (h.regs _ ha)

theorem SameButMem.bit (h : SameButMem as ps rs d e) {f : Fld} (ha : f.addr ∉ as) : e.bit f = d.bit f := by
  unfold Device.bit
  rw [h.get ha]

theorem SameButMem.pair (h : SameButMem as ps rs d e) {lo hi : Nat} (hlo : lo ∉ as) (hhi : hi ∉ as) : e.pair lo hi = d.pair lo hi := by
  unfold Device.pair
  rw [h.regs lo hlo, h.regs hi hhi]

theorem SameButMem.nowNs (h : SameButMem as ps rs d e) (hp : Part.tb ∉ ps) : e.nowNs = d.nowNs := by
  unfold Device.nowNs
  rw [h.parts .tb hp]

end

/-! ## SRAM -/

/-- The address lies in SRAM, and accesses reach the Control region. -/
structure ReachesSram (a : Nat) (d : Device) : Prop where
  lo : 0x80000000 ≤ a
  hi : a < 0x80200000
  notResetting : d.resetting 1 = false
  phase : d.boot.phase ≠ .reset

section
variable {a : Nat} {d : Device}

theorem ReachesSram.areaAt (h : ReachesSram a d) : areaAt d a = some .sram := by
  have hlo := h.lo
  have hhi := h.hi
  rw [Machine.areaAt, if_neg (by omega), if_pos ⟨hlo, hhi⟩]

theorem ReachesSram.shutCause (h : ReachesSram a d) : shutCause d a = none := by
  have hlo := h.lo
  have hhi := h.hi
  have hregion : regionOf a = some 1 := by
    rw [regionOf, if_neg (by omega), if_pos (.inl ⟨hlo, hhi⟩)]
  have hpower : poweredDown d a = false := by
    have hjdg : ¬ (0x40000000 ≤ a ∧ a < 0x50000000) := by omega
    have hcapt : ¬ (0x60100000 ≤ a ∧ a < 0x60110000) := by omega
    simp only [poweredDown, decide_eq_false hjdg, decide_eq_false hcapt, Bool.false_and, Bool.or_false]
  simp only [Machine.shutCause, hregion, h.notResetting, hpower, Bool.false_eq_true, if_false]

variable {n m : Nat}

/-- An aligned access of a width that SRAM allows reaches it. -/
theorem ReachesSram.accessCause (h : ReachesSram a d) (hn : n ∈ areaWidths .sram) (hal : a % n = 0) : accessCause d a n false = none := by
  simp only [Machine.accessCause, h.shutCause, h.areaAt]
  rw [if_neg (by simp [hal, hn]), if_neg (by simp)]

theorem misaligned_of_not_core (hm : 4 ≤ m) (a n : Nat) : misaligned m a n = false := by
  rw [misaligned, decide_eq_false (Nat.not_lt.2 hm), Bool.false_and]

theorem ReachesSram.busRead (h : ReachesSram a d) (hn : n ∈ areaWidths .sram) (hal : a % n = 0) (hm : 4 ≤ m) (hwInc : Nat) :
    busRead m a n false hwInc d = d.reply (leNat (d.bytes a n)) := by
  have hcore : ¬ (m < 4 ∧ areaCached .sram = true) := fun hc => Nat.not_lt.2 hm hc.1
  rw [Machine.busRead, if_neg h.phase, misaligned_of_not_core hm, if_neg Bool.false_ne_true, h.accessCause hn hal, h.areaAt,
    ← d.map_byte_range]
  exact if_neg hcore

theorem ReachesSram.busWrite (h : ReachesSram a d) (hn : n ∈ areaWidths .sram) (hal : a % n = 0) (hm : 4 ≤ m) (session v : Nat) (hwSet : Word) :
    busWrite m session a n false v hwSet d = (d.setBytes a (leBytes n v)).reply 0 := by
  have hcore : ¬ (m < 4 ∧ areaCached .sram = true) := fun hc => Nat.not_lt.2 hm hc.1
  rw [Machine.busWrite, if_neg h.phase, misaligned_of_not_core hm, if_neg Bool.false_ne_true, h.accessCause hn hal, h.areaAt]
  exact congrArg (Device.reply · 0) (if_neg hcore)

end

end Sys2Proof.Machine

/-! # A DMA transfer

One element that a channel moves alone within SRAM, and what the commands of a completion and of a bus error do (R363, R367, R371, R374). -/

namespace Sys2Proof.Machine

/-! ## A channel that moves alone -/

/-- Channel `k` runs, and no other channel has an access to make. -/
structure MovesAlone (k : Fin 16) (d : Device) : Prop where
  runs : d.dmaState k = dmRun
  alone : ∀ j : Fin 16, j ≠ k → d.dmaState j ≠ dmRun ∧ d.dmaState j ≠ dmDrain

section
variable {k : Fin 16} {d : Device}

theorem MovesAlone.not_wants (h : MovesAlone k d) (target : Nat) {j : Fin 16} (hj : j ≠ k) : dmaWants k target d j = false := by
  obtain ⟨hrun, hdrain⟩ := h.alone j hj
  simp only [dmaWants, if_neg hrun, if_neg hdrain]

theorem MovesAlone.wants (h : MovesAlone k d) {target : Nat} (hlen : target < dmaLen d k) : dmaWants k target d k = true := by
  simp [dmaWants, if_pos h.runs, hlen]

theorem filter_range_eq (k : Fin 16) : (List.range 16).filter (fun j => decide (j = k.val)) = [k.val] := by decide +revert

/-- Every issue slot goes to the channel. -/
theorem MovesAlone.dmaPick (h : MovesAlone k d) {target : Nat} (hlen : target < dmaLen d k) : dmaPick k target d = some k.val := by
  have hone : (List.range 16).filter (dmaWants k target d) = [k.val] := by
    rw [← filter_range_eq k]
    refine List.filter_congr fun j hj => ?_
    by_cases hjk : j = k.val
    · rw [hjk, h.wants hlen, decide_eq_true rfl]
    · have hlt := List.mem_range.1 hj
      rw [decide_eq_false hjk]
      exact h.not_wants target (j := ⟨j, hlt⟩) (fun heq => hjk (congrArg Fin.val heq))
  rw [Machine.dmaPick, hone]
  rfl

theorem unit_dmaWaited (c target : Nat) (g : Option Nat) (d : Device) (j : Fin 16) : unit (dmaWaited c target g d).dma j =
    { unit d.dma j with waited := if g = some j.val then 0 else if dmaWants c target d j then (unit d.dma j).waited + 1
        else (unit d.dma j).waited } := by
  rw [unit_fin, unit_fin]
  simp [dmaWaited]

theorem dmaWaited_data (c target : Nat) (g : Option Nat) (d : Device) (j : Fin 16) :
    (unit (dmaWaited c target g d).dma j).data = (unit d.dma j).data := by rw [unit_dmaWaited]

theorem dmaWaited_frame (c target : Nat) (g : Option Nat) (d : Device) : SameBut [] [.dma] d (dmaWaited c target g d) :=
  (SameBut.refl _ _ _).putDma _ (by simp)

theorem unit_of_le {α : Type} [Inhabited α] {n : Nat} (v : Vector α n) {j : Nat} (h : n ≤ j) : unit v j = default := by
  simp [unit, h]

/-- No other channel waits. -/
theorem MovesAlone.onlyChan_dmaWaited (h : MovesAlone k d) (target : Nat) {g : Option Nat} (hg : g = none ∨ g = some k.val) :
    OnlyChan k d (dmaWaited k target g d) := by
  intro j hj
  obtain hlt | hge := Nat.lt_or_ge j 16
  · have hnot := h.not_wants target (j := ⟨j, hlt⟩) (fun heq => hj (congrArg Fin.val heq))
    have hg' : ¬ g = some j := by
      obtain rfl | rfl := hg
      · simp
      · simpa using Ne.symm hj
    have hunit := unit_dmaWaited k target g d ⟨j, hlt⟩
    rw [if_neg hg', hnot, if_neg Bool.false_ne_true] at hunit
    exact hunit
  · rw [unit_of_le _ hge, unit_of_le _ hge]

/-- With room for an access, the slot is one access of the channel. -/
theorem MovesAlone.dmaSlot (h : MovesAlone k d) (hlen : 0 < dmaLen d k) (hroom : d.dmaOut.length < 32) :
    dmaSlot k 0 d = dmaAccess k (dmaLen d k) (dmaWaited k 0 (some k.val) d) := by
  rw [Machine.dmaSlot, if_neg (Nat.not_le.2 hroom), h.dmaPick hlen]
  simp

theorem MovesAlone.dmaSlots (h : MovesAlone k d) (hlen : 0 < dmaLen d k) (n : Nat) :
    dmaSlots k 0 (n + 1) d = if (Machine.dmaSlot k 0 d).2 then dmaSlots k 0 n (Machine.dmaSlot k 0 d).1 else Machine.dmaSlot k 0 d := by
  rw [Machine.dmaSlots, if_neg (by simp [h.wants hlen])]

end

/-! ## One element of 8 bytes in SRAM -/

/-- The transfer of channel `k`, which moves alone, is one element of 8 bytes from SRAM to SRAM, without a check value. -/
structure OneElement (k : Fin 16) (d : Device) : Prop where
  alone : MovesAlone k d
  esize : d.get (F.DMAc_CFG.ESIZE k) = 3
  len : dmaLen d k = 8
  csum : d.get (F.DMAc_CFG.CSUM k) = 0
  csumWr : d.bit (F.DMAc_CFG.CSUM_WR k) = false
  src : ReachesSram (dmaSrc d k) d
  srcAligned : dmaSrc d k % 8 = 0
  dst : ReachesSram (dmaDst d k) d
  dstAligned : dmaDst d k % 8 = 0

section
variable {k : Fin 16} {d e : Device} {ps : List Part}

theorem MovesAlone.of_frame (h : MovesAlone k d) (hf : SameBut [] ps d e) : MovesAlone k e where
  runs := (hf.get (by simp)).trans h.runs
  alone j hj := by
    rw [show e.dmaState j = d.dmaState j from hf.get (by simp)]
    exact h.alone j hj

theorem ReachesSram.of_frame {a : Nat} (h : ReachesSram a d) (hf : SameBut [] ps d e) (hboot : Part.boot ∉ ps) : ReachesSram a e where
  lo := h.lo
  hi := h.hi
  notResetting := (congrArg (bitAt · 0) (hf.get (f := F.FLT_STATUS.RESETTING) (by simp))).trans h.notResetting
  phase := by rw [hf.parts .boot hboot]; exact h.phase

/-- What makes a transfer one element stands in registers, and in the boot phase. -/
theorem OneElement.of_frame (h : OneElement k d) (hf : SameBut [] ps d e) (hboot : Part.boot ∉ ps) : OneElement k e := by
  have hsrc : dmaSrc e k = dmaSrc d k := hf.pair (by simp) (by simp)
  have hdst : dmaDst e k = dmaDst d k := hf.pair (by simp) (by simp)
  refine ⟨h.alone.of_frame hf, (hf.get (by simp)).trans h.esize, ?_, (hf.get (by simp)).trans h.csum, (hf.bit (by simp)).trans h.csumWr,
    ?_, ?_, ?_, ?_⟩
  · rw [dmaLen, hf.regs _ (by simp)]
    exact h.len
  · rw [hsrc]
    exact h.src.of_frame hf hboot
  · rw [hsrc]
    exact h.srcAligned
  · rw [hdst]
    exact h.dst.of_frame hf hboot
  · rw [hdst]
    exact h.dstAligned

theorem OneElement.len_pos (h : OneElement k d) : 0 < dmaLen d k := by
  rw [h.len]
  decide

theorem OneElement.size (h : OneElement k d) : dmaSize d k = 8 := by
  rw [dmaSize, h.esize]
  rfl

end

/-- An aligned piece of 8 bytes stays within its 64-byte boundary. -/
theorem dmaPiece_of_sram {d : Device} {a : Nat} (h : ReachesSram a d) (hal : a % 8 = 0) (fixed : Bool) : dmaPiece d fixed a 8 8 = 8 := by
  have hwide : dmaWide d a = true := by simp [dmaWide, h.areaAt, areaWidths]
  have hcap : capN 8 (64 - a % 64) = 8 := by
    unfold capN
    split <;> omega
  unfold dmaPiece
  rw [hwide, hcap, ite_self]

/-! ## Its read -/

/-- The channel holds the element that it has read. -/
def dmaElementRead (k : Nat) (d : Device) : Device :=
  (d.reply (leNat (d.bytes (dmaSrc d k) 8))).withChan k (fun x => { x with data := d.bytes (dmaSrc d k) 8 })

section
variable {k : Fin 16} {d : Device}

theorem OneElement.dmaReads (h : OneElement k d) :
    dmaReads 8 1 (dmaSrc d k) d = (d.bytes (dmaSrc d k) 8, none, d.reply (leNat (d.bytes (dmaSrc d k) 8))) := by
  have hbytes : leBytes 8 (leNat (d.bytes (dmaSrc d k) 8)) = d.bytes (dmaSrc d k) 8 := by
    have := leBytes_leNat (d.bytes (dmaSrc d k) 8)
    rwa [Device.bytes_length] at this
  rw [Machine.dmaReads, h.src.busRead (by decide) h.srcAligned (by decide)]
  simp [Machine.dmaReads, hbytes]

theorem OneElement.dmaAccess_read (h : OneElement k d) (hdata : (unit d.dma k).data = []) :
    dmaAccess k 8 d = (dmaElementRead k d, true) := by
  rw [dmaAccess, if_neg (not_not_intro hdata), if_pos (Nat.ne_of_gt h.len_pos)]
  unfold dmaReadAccess
  rw [h.size]
  dsimp only
  rw [dmaPiece_of_sram h.src h.srcAligned, Nat.div_self (by decide), h.dmaReads]
  rfl

theorem dmaElementRead_frame (k : Nat) (d : Device) : SameBut [] [.cores, .dma] d (dmaElementRead k d) :=
  ((SameBut.refl _ _ _).reply _ (by simp)).withChan _ _ (by simp)

theorem onlyChan_reply (c : Nat) (d : Device) (v : Nat) : OnlyChan c d (d.reply v) := .of_dma_eq rfl

theorem onlyChan_dmaElementRead (k : Nat) (d : Device) : OnlyChan k d (dmaElementRead k d) :=
  (onlyChan_reply k d _).trans (onlyChan_withChan _ k _)

theorem dmaElementRead_data (k : Fin 16) (d : Device) : (unit (dmaElementRead k d).dma k).data = d.bytes (dmaSrc d k) 8 := by
  rw [dmaElementRead, Device.withChan_self]

end

/-! ## Its write -/

section
variable {d : Device} {lo hi : Nat}

/-- An address of a transfer, at a fixed place or advanced. -/
theorem pair_ite_setPair (h : lo ≠ hi) (fixed : Bool) (v : Nat) :
    (if fixed then d else d.setPair lo hi v).pair lo hi = if fixed then d.pair lo hi else v % 2 ^ 64 := by
  cases fixed with
  | true => rfl
  | false => exact Device.pair_setPair_self d h v

theorem ite_setPair_frame (fixed : Bool) (v : Nat) : SameBut [lo, hi] [] d (if fixed then d else d.setPair lo hi v) := by
  cases fixed with
  | true => exact SameBut.refl _ _ _
  | false => exact (SameBut.refl _ _ _).setPair v (by simp) (by simp)

end

section
variable (d : Device) (c n : Nat)

/-- SRC after an element, before DST and LEN. -/
def dmaSrcAdvanced : Device :=
  if d.bit (F.DMAc_CFG.SRC_FIX c) then d else d.setPair (R.DMAc_SRC_LO c) (R.DMAc_SRC_HI c) ((dmaSrc d c + n) % 2 ^ 64)

/-- SRC and DST after an element, before LEN. -/
def dmaDstAdvanced : Device :=
  if d.bit (F.DMAc_CFG.DST_FIX c) then dmaSrcAdvanced d c n
  else (dmaSrcAdvanced d c n).setPair (R.DMAc_DST_LO c) (R.DMAc_DST_HI c) ((dmaDst d c + n) % 2 ^ 64)

theorem dmaAdvance_eq : dmaAdvance d c n = (dmaDstAdvanced d c n).wr (R.DMAc_LEN c) (BitVec.ofNat 32 (dmaLen d c - n)) := rfl

theorem dmaSrcAdvanced_frame : SameBut [R.DMAc_SRC_LO c, R.DMAc_SRC_HI c] [] d (dmaSrcAdvanced d c n) := ite_setPair_frame _ _

theorem dmaDstAdvanced_frame : SameBut [R.DMAc_DST_LO c, R.DMAc_DST_HI c] [] (dmaSrcAdvanced d c n) (dmaDstAdvanced d c n) :=
  ite_setPair_frame _ _

theorem dmaAdvance_lenFrame : SameBut [R.DMAc_LEN c] [] (dmaDstAdvanced d c n) (dmaAdvance d c n) := (SameBut.refl _ _ _).wr _ (by simp)

theorem dmaAdvance_frame : SameBut (dmaLiveRegs c) [] d (dmaAdvance d c n) :=
  (((dmaSrcAdvanced_frame d c n).mono_regs (by simp [dmaLiveRegs])).trans
    ((dmaDstAdvanced_frame d c n).mono_regs (by simp [dmaLiveRegs]))).trans ((dmaAdvance_lenFrame d c n).mono_regs (by simp [dmaLiveRegs]))

theorem dmaAdvance_src : dmaSrc (dmaAdvance d c n) c = if d.bit (F.DMAc_CFG.SRC_FIX c) then dmaSrc d c else (dmaSrc d c + n) % 2 ^ 64 := by
  rw [dmaSrc, (dmaAdvance_lenFrame d c n).pair (by simp) (by simp), (dmaDstAdvanced_frame d c n).pair (by simp) (by simp), dmaSrcAdvanced,
    pair_ite_setPair (by simp), Nat.mod_mod]
  rfl

theorem dmaAdvance_dst : dmaDst (dmaAdvance d c n) c = if d.bit (F.DMAc_CFG.DST_FIX c) then dmaDst d c else (dmaDst d c + n) % 2 ^ 64 := by
  rw [dmaDst, (dmaAdvance_lenFrame d c n).pair (by simp) (by simp), dmaDstAdvanced, pair_ite_setPair (by simp),
    (dmaSrcAdvanced_frame d c n).pair (by simp) (by simp), Nat.mod_mod]
  rfl

theorem dmaAdvance_len : dmaLen (dmaAdvance d c n) c = dmaLen d c - n := by
  have hlt : dmaLen d c < 2 ^ 32 := (d.rd (R.DMAc_LEN c)).isLt
  rw [dmaAdvance_eq, dmaLen, Device.rd_wr_self, BitVec.toNat_ofNat, Nat.mod_eq_of_lt (by omega)]

end

/-- The element's bytes in memory, before its live fields advance. -/
def dmaElementStored (k : Nat) (bs : List Byte) (d : Device) : Device := (d.setBytes (dmaDst d k) bs).reply 0

theorem dmaElementStored_frame (k : Nat) (bs : List Byte) (d : Device) :
    SameButMem [] [.resv, .cores] [(dmaDst d k, bs.length)] d (dmaElementStored k bs d) :=
  ((SameBut.refl _ _ _).setBytes (by simp) _ _).trans_sameBut ((SameBut.refl _ _ _).reply 0 (by simp))

/-- The element `bs` written, its bytes counted, and none in hand. -/
def dmaElementWritten (k : Nat) (bs : List Byte) (d : Device) : Device :=
  (dmaAdvance (dmaElementStored k bs d) k 8).withChan k (fun x => { x with data := [] })

section
variable {k : Fin 16} {d : Device} {bs : List Byte}

theorem OneElement.dmaWrites (h : OneElement k d) (hlength : bs.length = 8) :
    dmaWrites 8 1 (dmaDst d k) bs d = (none, dmaElementStored k bs d) := by
  have hbytes : leBytes 8 (leNat (bs.take 8)) = bs := by
    rw [List.take_of_length_le (Nat.le_of_eq hlength), ← hlength, leBytes_leNat]
  rw [Machine.dmaWrites, h.dst.busWrite (by decide) h.dstAligned (by decide), hbytes]
  simp [Machine.dmaWrites, dmaElementStored]

theorem csumTake_of_none {c : Nat} (h : d.get (F.DMAc_CFG.CSUM c) = 0) (bs : List Byte) : csumTake d c bs = d := if_pos h

theorem OneElement.dmaAccess_write (h : OneElement k d) (hdata : (unit d.dma k).data = bs) (hlength : bs.length = 8) :
    dmaAccess k 8 d = dmaIssued k (dmaDst d k) true (dmaElementWritten k bs d) := by
  have hheld : (unit d.dma k).data ≠ [] := by
    rw [hdata]
    exact List.ne_nil_of_length_eq_add_one hlength
  have hlast : (decide (dmaLen d k ≤ 8) && !d.bit (F.DMAc_CFG.CSUM_WR k)) = true := by simp [h.len, h.csumWr]
  have hcsum : (dmaElementStored k bs d).get (F.DMAc_CFG.CSUM k) = 0 := ((dmaElementStored_frame k bs d).get (by simp)).trans h.csum
  rw [dmaAccess, if_pos hheld]
  unfold dmaWriteAccess
  rw [h.size]
  dsimp only
  rw [hdata, hlength, dmaPiece_of_sram h.dst h.dstAligned, Nat.div_self (by decide), h.dmaWrites hlength, hlast]
  dsimp only
  rw [csumTake_of_none hcsum, List.drop_of_length_le (Nat.le_of_eq hlength)]
  rfl

/-- The element lies at DST. -/
theorem dmaElementWritten_bytes (k : Nat) (d : Device) (hlength : bs.length = 8) :
    (dmaElementWritten k bs d).bytes (dmaDst d k) 8 = bs := by
  have hafter : ∀ a, (dmaElementWritten k bs d).byte a = (d.setBytes (dmaDst d k) bs).byte a := (dmaAdvance_frame _ k 8).bytes
  rw [Device.bytes_congr hafter, ← hlength, Device.setBytes_bytes]

theorem dmaElementWritten_frame (k : Nat) (d : Device) (hlength : bs.length = 8) :
    SameButMem (dmaLiveRegs k) [.resv, .cores, .dma] [(dmaDst d k, 8)] d (dmaElementWritten k bs d) := by
  rw [← hlength]
  exact ((dmaElementStored_frame k bs d).mono (List.nil_subset _) (by simp)).trans_sameBut
    (((dmaAdvance_frame _ k 8).mono_parts (by simp)).withChan _ _ (by simp))

end

/-! ## Its issue slots -/

/-- Channel `k` has copied its one element and issued the write: the device `w` after the element's slots, from `d` on. -/
structure ElementIssued (k : Fin 16) (d w : Device) : Prop where
  bytes : w.bytes (dmaDst d k) 8 = d.bytes (dmaSrc d k) 8
  src : dmaSrc w k = if d.bit (F.DMAc_CFG.SRC_FIX k) then dmaSrc d k else (dmaSrc d k + 8) % 2 ^ 64
  dst : dmaDst w k = if d.bit (F.DMAc_CFG.DST_FIX k) then dmaDst d k else (dmaDst d k + 8) % 2 ^ 64
  len : dmaLen w k = 0
  out : (k.val, dmaDst d k) ∈ w.dmaOut
  others : OnlyChan k d w
  frame : SameButMem (dmaLiveRegs k) [.resv, .cores, .dma, .dmaOut] [(dmaDst d k, 8)] d w

section
variable {k : Fin 16} {d e w : Device}

/-- What has passed before in channels, outstanding writes and answers takes no part. -/
theorem ElementIssued.of_frame (h : ElementIssued k e w) (hf : SameBut [] [.cores, .dma, .dmaOut] d e) (ho : OnlyChan k d e) :
    ElementIssued k d w := by
  have hsrc : dmaSrc e k = dmaSrc d k := hf.pair (by simp) (by simp)
  have hdst : dmaDst e k = dmaDst d k := hf.pair (by simp) (by simp)
  obtain ⟨hbytes, hsrcw, hdstw, hlen, hout, hothers, hframe⟩ := h
  rw [hsrc, hdst, Device.bytes_congr hf.bytes] at hbytes
  rw [hsrc, hf.bit (by simp)] at hsrcw
  rw [hdst, hf.bit (by simp)] at hdstw
  rw [hdst] at hout hframe
  exact ⟨hbytes, hsrcw, hdstw, hlen, hout, ho.trans hothers,
    ((hf.mono_regs (List.nil_subset _)).mono_parts (by simp)).trans_sameButMem hframe⟩

/-- The write of the element among the outstanding ones. -/
def dmaElementIssued (k : Nat) (bs : List Byte) (d : Device) : Device :=
  { dmaElementWritten k bs d with dmaOut := (dmaElementWritten k bs d).dmaOut ++ [(k, dmaDst d k)] }

/-- Beside the live fields an issue changes what the channel holds and the outstanding writes. -/
theorem dmaElementIssued_advanced (k : Nat) (bs : List Byte) (d : Device) :
    SameBut [] [.dma, .dmaOut] (dmaAdvance (dmaElementStored k bs d) k 8) (dmaElementIssued k bs d) :=
  ((SameBut.refl _ _ _).withChan _ _ (by simp)).putDmaOut _ (by simp)

theorem onlyChan_dmaElementIssued (k : Nat) (bs : List Byte) (d : Device) : OnlyChan k d (dmaElementIssued k bs d) := by
  have hadvance : OnlyChan k d (dmaAdvance (dmaElementStored k bs d) k 8) :=
    .of_dma_eq (((dmaAdvance_frame _ k 8).parts .dma (by simp)).trans ((dmaElementStored_frame k bs d).parts .dma (by simp)))
  exact hadvance.trans (onlyChan_withChan _ k (fun x => { x with data := [] }))

theorem dmaElementIssued_elementIssued (h : OneElement k d) :
    ElementIssued k d (dmaElementIssued k (d.bytes (dmaSrc d k) 8) d) := by
  have hlength := d.bytes_length 8 (dmaSrc d k)
  have hstored := dmaElementStored_frame k (d.bytes (dmaSrc d k) 8) d
  have hissued := dmaElementIssued_advanced k (d.bytes (dmaSrc d k) 8) d
  have hsrc : dmaSrc (dmaElementStored k (d.bytes (dmaSrc d k) 8) d) k = dmaSrc d k := hstored.pair (by simp) (by simp)
  have hdst : dmaDst (dmaElementStored k (d.bytes (dmaSrc d k) 8) d) k = dmaDst d k := hstored.pair (by simp) (by simp)
  have hlen : dmaLen (dmaElementStored k (d.bytes (dmaSrc d k) 8) d) k = 8 := by
    rw [dmaLen, hstored.regs _ (by simp)]
    exact h.len
  refine ⟨dmaElementWritten_bytes k d hlength, ?_, ?_, ?_, List.mem_append_right _ (List.mem_singleton.2 rfl),
    onlyChan_dmaElementIssued k _ d, ?_⟩
  · rw [dmaSrc, hissued.pair (by simp) (by simp), ← dmaSrc, dmaAdvance_src, hstored.bit (by simp), hsrc]
  · rw [dmaDst, hissued.pair (by simp) (by simp), ← dmaDst, dmaAdvance_dst, hstored.bit (by simp), hdst]
  · rw [dmaLen, hissued.regs _ (by simp), ← dmaLen, dmaAdvance_len, hlen]
  · exact ((dmaElementWritten_frame k d hlength).mono (List.Subset.refl _) (by simp)).trans_sameBut ((SameBut.refl _ _ _).putDmaOut _ (by simp))

/-- The device at the completion, from the device `w` after the element's slots on: with BARRIER the channel's writes have returned, without it
the last one is still outstanding (R367). -/
def dmaElementEnd (barrier : Bool) (k a : Nat) (w : Device) : Device :=
  if barrier then dmaReturned w k else w.withChan k (fun x => { x with tail := some a })

theorem dmaElementEnd_frame (barrier : Bool) (k a : Nat) (w : Device) : SameBut [] [.dma, .dmaOut] w (dmaElementEnd barrier k a w) := by
  unfold dmaElementEnd
  split
  · exact (SameBut.refl _ _ _).putDmaOut _ (by simp)
  · exact (SameBut.refl _ _ _).withChan _ _ (by simp)

theorem onlyChan_dmaElementEnd (barrier : Bool) (k a : Nat) (w : Device) : OnlyChan k w (dmaElementEnd barrier k a w) := by
  unfold dmaElementEnd
  split
  · exact .of_dma_eq rfl
  · exact onlyChan_withChan _ _ _

theorem dmaElementEnd_dmaOut (barrier : Bool) (k a : Nat) (w : Device) :
    (dmaElementEnd barrier k a w).dmaOut = if barrier then w.dmaOut.filter (fun x => x.1 ≠ k) else w.dmaOut := by
  unfold dmaElementEnd
  split <;> rfl

/-- The last write of a transfer completes it, or with BARRIER waits for its response. -/
theorem dmaIssued_last (c a : Nat) (d : Device) : dmaIssued c a true d =
    if d.bit (F.DMAc_CFG.BARRIER c) then ({ d with dmaOut := d.dmaOut ++ [(c, a)] }, true)
    else (dmaCompleted (dmaElementEnd false c a { d with dmaOut := d.dmaOut ++ [(c, a)] }) c, false) := by
  cases hb : d.bit (F.DMAc_CFG.BARRIER c) with
  | true => rw [dmaIssued, if_pos rfl, if_neg (by simp [hb])]
  | false => rw [dmaIssued, if_neg Bool.false_ne_true, if_pos (by simp [hb])]; rfl

/-- The slot of a channel that holds nothing: its read. -/
def dmaReadSlot (k : Nat) (d : Device) : Device := dmaElementRead k (dmaWaited k 0 (some k) d)

theorem dmaReadSlot_frame (k : Nat) (d : Device) : SameBut [] [.cores, .dma] d (dmaReadSlot k d) :=
  ((dmaWaited_frame _ _ _ d).mono_parts (by simp)).trans (dmaElementRead_frame k _)

theorem dmaReadSlot_data (k : Fin 16) (d : Device) : (unit (dmaReadSlot k d).dma k).data = d.bytes (dmaSrc d k) 8 := by
  have hframe := dmaWaited_frame k 0 (some k.val) d
  have hsrc : dmaSrc (dmaWaited k 0 (some k.val) d) k = dmaSrc d k := hframe.pair (by simp) (by simp)
  rw [dmaReadSlot, dmaElementRead_data, hsrc, Device.bytes_congr hframe.bytes]

theorem MovesAlone.onlyChan_dmaReadSlot (h : MovesAlone k d) : OnlyChan k d (dmaReadSlot k d) :=
  (h.onlyChan_dmaWaited 0 (.inr rfl)).trans (onlyChan_dmaElementRead k _)

theorem OneElement.dmaSlot_read (h : OneElement k d) (hdata : (unit d.dma k).data = []) (hroom : d.dmaOut.length < 32) :
    Machine.dmaSlot k 0 d = (dmaReadSlot k d, true) := by
  have hwaited : (unit (dmaWaited k 0 (some k.val) d).dma k).data = [] := (dmaWaited_data k 0 (some k.val) d k).trans hdata
  rw [h.alone.dmaSlot h.len_pos hroom, h.len, (h.of_frame (dmaWaited_frame k 0 (some k.val) d) (by simp)).dmaAccess_read hwaited, dmaReadSlot]

/-- The access of a channel that holds its one element: the write that completes the transfer, or with BARRIER leaves it to its response. -/
theorem OneElement.dmaAccess_last (h : OneElement k d) (hdata : (unit d.dma k).data = d.bytes (dmaSrc d k) 8) :
    ∃ w, ElementIssued k d w ∧ dmaAccess k 8 d =
      if d.bit (F.DMAc_CFG.BARRIER k) then (w, true) else (dmaCompleted (dmaElementEnd false k (dmaDst d k) w) k, false) := by
  have hissued := dmaElementIssued_elementIssued h
  refine ⟨_, hissued, ?_⟩
  have hbarrier : (dmaElementWritten k (d.bytes (dmaSrc d k) 8) d).bit (F.DMAc_CFG.BARRIER k) = d.bit (F.DMAc_CFG.BARRIER k) :=
    (dmaElementWritten_frame k d (d.bytes_length 8 _)).bit (by simp [dmaLiveRegs])
  rw [h.dmaAccess_write hdata (d.bytes_length 8 _), dmaIssued_last, hbarrier]
  rfl

theorem OneElement.dmaSlot_write (h : OneElement k d) (hdata : (unit d.dma k).data = d.bytes (dmaSrc d k) 8) (hroom : d.dmaOut.length < 32) :
    ∃ w, ElementIssued k d w ∧ Machine.dmaSlot k 0 d =
      if d.bit (F.DMAc_CFG.BARRIER k) then (w, true) else (dmaCompleted (dmaElementEnd false k (dmaDst d k) w) k, false) := by
  have hslot := h.alone.dmaSlot h.len_pos hroom
  have hframe := dmaWaited_frame k 0 (some k.val) d
  have hheld := dmaWaited_data k 0 (some k.val) d k
  have hothers := h.alone.onlyChan_dmaWaited 0 (g := some k.val) (.inr rfl)
  generalize dmaWaited k 0 (some k.val) d = x at hslot hframe hheld hothers
  have hsrc : dmaSrc x k = dmaSrc d k := hframe.pair (by simp) (by simp)
  have hdst : dmaDst x k = dmaDst d k := hframe.pair (by simp) (by simp)
  have hdatax : (unit x.dma k).data = x.bytes (dmaSrc x k) 8 := by rw [hheld, hdata, hsrc, Device.bytes_congr hframe.bytes]
  obtain ⟨w, hw, haccess⟩ := (h.of_frame hframe (by simp)).dmaAccess_last hdatax
  refine ⟨w, hw.of_frame (hframe.mono_parts (by simp)) hothers, ?_⟩
  rw [hslot, h.len, haccess, hframe.bit (by simp), hdst]

theorem ElementIssued.not_wants (h : OneElement k d) (hw : ElementIssued k d w) : dmaWants k 0 w k = false := by
  refine dmaWants_of_nothing_left (Nat.le_of_eq hw.len) (.inr ?_) (.inl ?_)
  · exact (hw.frame.bit (by simp [dmaLiveRegs])).trans h.csumWr
  · exact (hw.frame.get (by simp [dmaLiveRegs])).trans h.alone.runs

/-- An element takes two slots: its read, and its write. -/
theorem OneElement.dmaSlots_of_room (h : OneElement k d) (hdata : (unit d.dma k).data = []) (hroom : d.dmaOut.length < 32) :
    ∃ w, ElementIssued k d w ∧ ∀ n, Machine.dmaSlots k 0 (n + 2) d =
      if d.bit (F.DMAc_CFG.BARRIER k) then (w, true) else (dmaCompleted (dmaElementEnd false k (dmaDst d k) w) k, false) := by
  have hframe := dmaReadSlot_frame k d
  have hread := h.of_frame hframe (by simp)
  have hsrc : dmaSrc (dmaReadSlot k d) k = dmaSrc d k := hframe.pair (by simp) (by simp)
  have hdst : dmaDst (dmaReadSlot k d) k = dmaDst d k := hframe.pair (by simp) (by simp)
  have hheld : (unit (dmaReadSlot k d).dma k).data = (dmaReadSlot k d).bytes (dmaSrc (dmaReadSlot k d) k) 8 := by
    rw [dmaReadSlot_data, hsrc, Device.bytes_congr hframe.bytes]
  have hout : (dmaReadSlot k d).dmaOut = d.dmaOut := hframe.parts .dmaOut (by simp)
  obtain ⟨w, hw, hslot⟩ := hread.dmaSlot_write hheld (by rwa [hout])
  refine ⟨w, hw.of_frame (hframe.mono_parts (by simp)) h.alone.onlyChan_dmaReadSlot, fun n => ?_⟩
  rw [h.alone.dmaSlots h.len_pos, h.dmaSlot_read hdata hroom, if_pos rfl, hread.alone.dmaSlots hread.len_pos, hslot, hframe.bit (by simp),
    hdst]
  cases d.bit (F.DMAc_CFG.BARRIER k) with
  | true => exact dmaSlots_of_not_wants (hw.not_wants hread) n
  | false => rfl

/-- The oldest of 32 outstanding writes returns first, where there are so many (R376). -/
theorem OneElement.dmaSlots_of_le (h : OneElement k d) (hdata : (unit d.dma k).data = []) (hroom : d.dmaOut.length ≤ 32) :
    ∃ w, ElementIssued k d w ∧ ∀ n, Machine.dmaSlots k 0 (n + 3) d =
      if d.bit (F.DMAc_CFG.BARRIER k) then (w, true) else (dmaCompleted (dmaElementEnd false k (dmaDst d k) w) k, false) := by
  obtain hlt | hfull := Nat.lt_or_eq_of_le hroom
  · obtain ⟨w, hw, hslots⟩ := h.dmaSlots_of_room hdata hlt
    exact ⟨w, hw, fun n => hslots (n + 1)⟩
  · have hlen : 0 < dmaLen d k := by rw [h.len]; decide
    have hdrop : SameBut [] [.dma, .dmaOut] d { d with dmaOut := d.dmaOut.drop 1 } := (SameBut.refl _ _ _).putDmaOut _ (by simp)
    have hframe := hdrop.trans ((dmaWaited_frame k 0 none _).mono_parts (by simp))
    have hslot : Machine.dmaSlot k 0 d = (dmaWaited k 0 none { d with dmaOut := d.dmaOut.drop 1 }, true) := by
      rw [Machine.dmaSlot, if_pos (Nat.le_of_eq hfull.symm)]
    have hothers : OnlyChan k d (dmaWaited k 0 none { d with dmaOut := d.dmaOut.drop 1 }) :=
      (h.alone.of_frame hdrop).onlyChan_dmaWaited 0 (.inl rfl)
    obtain ⟨w, hw, hslots⟩ := (h.of_frame hframe (by simp)).dmaSlots_of_room ((dmaWaited_data _ _ _ _ k).trans hdata)
      (by change (d.dmaOut.drop 1).length < 32; rw [List.length_drop]; omega)
    refine ⟨w, hw.of_frame (hframe.mono_parts (by simp)) hothers, fun n => ?_⟩
    have hdst : dmaDst (dmaWaited k 0 none { d with dmaOut := d.dmaOut.drop 1 }) k = dmaDst d k := hframe.pair (by simp) (by simp)
    rw [h.alone.dmaSlots h.len_pos, hslot, if_pos rfl, hslots n, hframe.bit (by simp), hdst]

/-- DMA_COMPLETE of one element copies it and completes the transfer. -/
theorem OneElement.dmaCompleteDev (h : OneElement k d) (hdata : (unit d.dma k).data = []) (hroom : d.dmaOut.length ≤ 32) :
    ∃ w, ElementIssued k d w ∧
      Machine.dmaCompleteDev k d = dmaCompleted (dmaElementEnd (d.bit (F.DMAc_CFG.BARRIER k)) k (dmaDst d k) w) k := by
  obtain ⟨w, hw, hslots⟩ := h.dmaSlots_of_le hdata hroom
  refine ⟨w, hw, ?_⟩
  have hbytes : dmaBytes d k (dmaLen d k) = Machine.dmaSlots k 0 (10797 + 3) d := by
    rw [dmaBytes, h.len]
    rfl
  rw [Machine.dmaCompleteDev, if_neg (not_not_intro h.alone.runs), hbytes, hslots]
  cases d.bit (F.DMAc_CFG.BARRIER k) <;> rfl

end

end Sys2Proof.Machine

/-! # What a DMA completion and a bus error leave -/

namespace Sys2Proof.Machine

/-! ## A completion without a shadow -/

/-- Channel `k` has completed its transfer and is idle: DONE, DMAc_XFERS and the rill of `d`'s time. -/
structure CompletesIdle (k : Nat) (d e : Device) : Prop where
  state : e.dmaState k = dmIdle
  done : e.get (F.DMAc_FLAGS.DONE k) = 1
  xfers : e.get (F.DMAc_XFERS.V k) =
    min (d.get (F.DMAc_XFERS.V k) + 1) (2 ^ ((F.DMAc_XFERS.V k).hi + 1 - (F.DMAc_XFERS.V k).lo) - 1)
  rill : ({ rill := 142 + k, stamp := d.nowNs } : RillEvent) ∈ e.evt.inflight
  others : OnlyChan k d e
  frame : SameBut [R.DMAc_STATUS k, R.DMAc_FLAGS k, R.DMAc_XFERS k] [.evt, .dma] d e

theorem dmaCompleted_completesIdle {k : Nat} {d : Device} (h : d.bit (F.DMAc_STATUS.SHADOW_VALID k) = false) :
    CompletesIdle k d (dmaCompleted d k) := by
  have hdone := dmaDone_frame d k
  have hidle : SameBut [R.DMAc_STATUS k] [.dma] (dmaDone d k) (setDma (dmaDone d k) k dmIdle) :=
    (SameBut.refl _ _ _).setDma _ _ (by simp) (by simp)
  rw [dmaCompleted_eq, dmaHandOver_of_no_shadow ((hdone.bit (by simp)).trans h)]
  refine ⟨setDma_dmaState _ _ _ (by decide), (hidle.get (by simp)).trans (dmaDone_done d k),
    (hidle.get (by simp)).trans (dmaDone_xfers d k), ?_, (OnlyChan.of_dma_eq (hdone.parts .dma (by simp))).trans (onlyChan_setDma _ _ _), ?_⟩
  · rw [hidle.parts .evt (by simp)]
    exact mem_inflight_dmaDone d k
  · exact ((hdone.mono_regs (by simp)).mono_parts (by simp)).trans ((hidle.mono_regs (by simp)).mono_parts (by simp))

/-! ## A completion with an armed shadow -/

/-- Channel `k` has completed its transfer, and the shadow of `d` is its live transfer, which starts or waits for its rill. -/
structure HandsOver (k : Nat) (d e : Device) : Prop where
  src : dmaSrc e k = d.pair (R.DMAc_SH_SRC_LO k) (R.DMAc_SH_SRC_HI k)
  dst : dmaDst e k = d.pair (R.DMAc_SH_DST_LO k) (R.DMAc_SH_DST_HI k)
  len : dmaLen e k = (d.rd (R.DMAc_SH_LEN k)).toNat
  cfg : e.rd (R.DMAc_CFG k) = d.rd (R.DMAc_SH_CFG k)
  shadowValid : e.get (F.DMAc_STATUS.SHADOW_VALID k) = 0
  handover : e.get (F.DMAc_FLAGS.HANDOVER k) = 1
  done : e.get (F.DMAc_FLAGS.DONE k) = 1
  state : e.dmaState k =
    if d.bit (F.DMAc_SH_CFG.TRIG_EN k) then dmWait else if d.bit (F.DMAc_CTRL.PAUSE k) then dmPaused else dmRun
  others : OnlyChan k d e
  frame : SameBut [R.DMAc_SRC_LO k, R.DMAc_SRC_HI k, R.DMAc_DST_LO k, R.DMAc_DST_HI k, R.DMAc_LEN k, R.DMAc_CFG k, R.DMAc_STATUS k,
    R.DMAc_FLAGS k, R.DMAc_XFERS k, R.DMAc_CSUM k] [.dma, .evt] d e

theorem dmaCompleted_handsOver {k : Nat} {d : Device} (h : d.bit (F.DMAc_STATUS.SHADOW_VALID k) = true) :
    HandsOver k d (dmaCompleted d k) := by
  have hdone := dmaDone_frame d k
  have hdoneFlag := dmaDone_done d k
  rw [dmaCompleted_eq, dmaHandOver_of_shadow ((hdone.bit (by simp)).trans h)]
  generalize dmaDone d k = d1 at hdone hdoneFlag
  have hlive := dmaShadowLive_frame d1 k
  have hflag : SameBut [R.DMAc_FLAGS k] [.evt] (dmaShadowLive d1 k) ((dmaShadowLive d1 k).raise (F.DMAc_FLAGS.HANDOVER k)) :=
    (SameBut.refl _ _ _).raise (by simp) (by simp)
  have hhandover : ((dmaShadowLive d1 k).raise (F.DMAc_FLAGS.HANDOVER k)).get (F.DMAc_FLAGS.HANDOVER k) = 1 :=
    Device.get_raise_self _ _ rfl (by simp)
  have hdone2 : ((dmaShadowLive d1 k).raise (F.DMAc_FLAGS.HANDOVER k)).get (F.DMAc_FLAGS.DONE k) = 1 := by
    rw [Device.get_raise, Device.get_set_ne _ _ _ _ (by simp), hlive.get (by simp [dmaLiveRegs]), hdoneFlag]
  generalize (dmaShadowLive d1 k).raise (F.DMAc_FLAGS.HANDOVER k) = d2 at hflag hhandover hdone2
  have henter := dmaEnter_frame d2 k
  have hsrc : dmaSrc d2 k = d1.pair (R.DMAc_SH_SRC_LO k) (R.DMAc_SH_SRC_HI k) := (hflag.pair (by simp) (by simp)).trans (dmaShadowLive_src d1 k)
  have hdst : dmaDst d2 k = d1.pair (R.DMAc_SH_DST_LO k) (R.DMAc_SH_DST_HI k) := (hflag.pair (by simp) (by simp)).trans (dmaShadowLive_dst d1 k)
  have hlen : dmaLen d2 k = (d1.rd (R.DMAc_SH_LEN k)).toNat :=
    (congrArg BitVec.toNat (hflag.regs _ (by simp))).trans (dmaShadowLive_len d1 k)
  have hcfg : d2.rd (R.DMAc_CFG k) = d.rd (R.DMAc_SH_CFG k) :=
    ((hflag.regs _ (by simp)).trans (dmaShadowLive_cfg d1 k)).trans (hdone.regs _ (by simp))
  have hvalid : d2.get (F.DMAc_STATUS.SHADOW_VALID k) = 0 := (hflag.get (by simp)).trans (dmaShadowLive_shadowValid d1 k)
  have htrig : d2.bit (F.DMAc_CFG.TRIG_EN k) = d.bit (F.DMAc_SH_CFG.TRIG_EN k) :=
    congrArg (fun w => decide ((F.DMAc_SH_CFG.TRIG_EN k).of w ≠ 0)) hcfg
  have hpause : d2.bit (F.DMAc_CTRL.PAUSE k) = d.bit (F.DMAc_CTRL.PAUSE k) :=
    ((hflag.bit (by simp)).trans (hlive.bit (by simp [dmaLiveRegs]))).trans (hdone.bit (by simp))
  refine ⟨?_, ?_, ?_, (henter.regs _ (by simp)).trans hcfg, (dmaEnter_shadowValid d2 k).trans hvalid, (henter.get (by simp)).trans hhandover,
    (henter.get (by simp)).trans hdone2, ?_, ?_, ?_⟩
  · exact ((henter.pair (by simp) (by simp)).trans hsrc).trans (hdone.pair (by simp) (by simp))
  · exact ((henter.pair (by simp) (by simp)).trans hdst).trans (hdone.pair (by simp) (by simp))
  · exact ((congrArg BitVec.toNat (henter.regs _ (by simp))).trans hlen).trans (congrArg BitVec.toNat (hdone.regs _ (by simp)))
  · rw [dmaEnter_dmaState, htrig, hpause]
  · exact (OnlyChan.of_dma_eq (((hflag.parts .dma (by simp)).trans (hlive.parts .dma (by simp))).trans (hdone.parts .dma (by simp)))).trans
      (onlyChan_dmaEnter d2 k)
  · exact ((((hdone.mono_regs (by simp)).mono_parts (by simp)).trans ((hlive.mono_regs (by simp [dmaLiveRegs])).mono_parts (by simp))).trans
      ((hflag.mono_regs (by simp)).mono_parts (by simp))).trans ((henter.mono_regs (by simp)).mono_parts (by simp))

/-- Responses that return change the outstanding writes alone. -/
theorem dmaReturned_frame (d : Device) (k : Nat) : SameBut [] [.dmaOut] d (dmaReturned d k) := (SameBut.refl _ _ _).putDmaOut _ (by simp)

/-! ## What R363, R367, R371 and R374 say of the two commands -/

section
variable {k : Fin 16} {s : State}

theorem exec_dmaComplete : exec (.dmaComplete k) s = s.done (dmaCompleteDev k s.dev) := rfl

theorem exec_dmaBusError {n : Nat} {wr dram late : Bool} : exec (.dmaBusError k n wr dram late) s = s.done (dmaErrorDev k n wr dram late s.dev) := rfl

end

section
variable {k : Fin 16} {d : Device} {n : Nat} {wr dram late : Bool}

/-- A transfer of which nothing is left completes when its writes have returned. -/
theorem dmaCompleteDev_of_nothing_left (hrun : d.dmaState k = dmRun) (hlen : dmaLen d k = 0) (hsum : d.bit (F.DMAc_CFG.CSUM_WR k) = false) :
    dmaCompleteDev k d = dmaCompleted (dmaReturned d k) k := by
  rw [dmaCompleteDev, if_neg (not_not_intro hrun), hlen, dmaBytes_zero (.inr hsum) (.inl hrun)]
  rfl

/-- The address of a failing access. -/
def dmaFailAddr (d : Device) (k : Nat) (wr : Bool) : Nat := if wr then dmaDst d k else dmaSrc d k

theorem dmaFailAddr_mod (d : Device) (k : Nat) (wr : Bool) : dmaFailAddr d k wr % 2 ^ 64 = dmaFailAddr d k wr := by
  unfold dmaFailAddr
  split <;> exact Nat.mod_eq_of_lt (Device.pair_lt _ _ _)

/-- CAUSE of a failing access (R374). -/
def dmaFailCause (wr dram : Bool) : Nat := if dram ∧ ¬ wr then 1 else 0

theorem dmaFailCause_mod (wr dram : Bool) : dmaFailCause wr dram % 4 = dmaFailCause wr dram := by cases wr <;> cases dram <;> rfl

/-- An error before any byte halts the channel at once. -/
theorem dmaErrorDev_haltsOnBusError (hstate : d.dmaState k = dmRun ∨ d.dmaState k = dmDrain) (hdata : (unit d.dma k).data = [])
    (hlen : dmaLen d k ≠ 0) : HaltsOnBusError k (dmaFailAddr d k wr) wr (dmaFailCause wr dram) d (dmaErrorDev k 0 wr dram false d) := by
  have hactive : ¬ (d.dmaState k = dmIdle ∧ wr = true) := fun ⟨hidle, _⟩ => by
    rw [hidle] at hstate
    exact absurd hstate (by decide)
  have hnone : (if wr then 0 else max 0 (dmaHeld d k)) = 0 := by
    rw [dmaHeld, hdata]
    cases wr <;> rfl
  have hhalt : dmaErrorDev k 0 wr dram false d = dmaHalt (latchBusError d dmaMaster (dmaFailAddr d k wr) wr causeRefused) k
      (F.DMAc_FLAGS.BUS_ERR k) (dmaFailAddr d k wr) wr (dmaFailCause wr dram) := by
    unfold dmaErrorDev
    rw [if_neg (by simp [hactive]), if_pos hstate, hnone, dmaBytes_zero (.inl hlen) (.inr hdata)]
    rfl
  rw [hhalt]
  exact dmaHalt_haltsOnBusError d k _ wr _

/-- The late response of the last write halts the channel, and it is not awaited any more (log entry 223). -/
theorem dmaErrorDev_of_tail {a : Nat} (h : late = true ∨ (d.dmaState k = dmIdle ∧ wr = true)) (htail : dmaTail d k = some a) :
    HaltsOnBusError k a true 0 d (dmaErrorDev k n wr dram late d) := by
  have hhalt : dmaErrorDev k n wr dram late d = (dmaHalt (latchBusError d dmaMaster a true causeRefused) k
      (F.DMAc_FLAGS.BUS_ERR k) a true 0).withChan k (fun x => { x with tail := none }) := by
    unfold dmaErrorDev
    rw [if_pos h, htail]
  rw [hhalt]
  exact (dmaHalt_haltsOnBusError d k a true 0).withChan _

/-- Without such a write, and outside RUN and DRAIN, there is no access that could fail. -/
theorem dmaErrorDev_of_no_tail (h : late = true ∨ (d.dmaState k ≠ dmRun ∧ d.dmaState k ≠ dmDrain)) (htail : dmaTail d k = none) :
    dmaErrorDev k n wr dram late d = d := by
  unfold dmaErrorDev
  dsimp only
  split
  · rw [htail]
  next hnot =>
    obtain ⟨hrun, hdrain⟩ := h.resolve_left (fun hlate => hnot (.inl hlate))
    exact if_neg (not_or.2 ⟨hrun, hdrain⟩)

end

/-- Settles O41: a completion moves what is left and then hands over; a bus error before any byte, and the late one of the last write, is a
halt. -/
theorem dmaTransfer : Obligations.DmaTransfer := by
  unfold Obligations.DmaTransfer
  refine ⟨?element, ?handover, ?notRunning, ?busError, ?late, ?nothing⟩
  case element =>
    intro k s ⟨hrun, hesize, hlen, hcsum⟩ ⟨hcsumWr, hshadow⟩ ⟨hsrcLo, hsrcHi, hsrcAl, hopen, hphase⟩
      ⟨hdstLo, hdstHi, hdstAl, hdata, hroom⟩ halone
    have hone : OneElement k s.dev := ⟨⟨hrun, halone⟩, hesize, hlen, hcsum, hcsumWr, ⟨hsrcLo, by omega, hopen, hphase⟩, hsrcAl,
      ⟨hdstLo, by omega, hopen, hphase⟩, hdstAl⟩
    obtain ⟨w, hw, hdev⟩ := hone.dmaCompleteDev (by rwa [unit_fin]) hroom
    refine completes_done exec_dmaComplete ?_
    rw [hdev]
    have hend := dmaElementEnd_frame (s.dev.bit (F.DMAc_CFG.BARRIER k)) k (dmaDst s.dev k) w
    have hothers := hw.others.trans (onlyChan_dmaElementEnd (s.dev.bit (F.DMAc_CFG.BARRIER k)) k (dmaDst s.dev k) w)
    have hout := dmaElementEnd_dmaOut (s.dev.bit (F.DMAc_CFG.BARRIER k)) k (dmaDst s.dev k) w
    generalize dmaElementEnd (s.dev.bit (F.DMAc_CFG.BARRIER k)) k (dmaDst s.dev k) w = d1 at hend hothers hout
    have hbefore : SameButMem (dmaLiveRegs k) [.resv, .cores, .dma, .dmaOut] [(dmaDst s.dev k, 8)] s.dev d1 :=
      hw.frame.trans_sameBut ((hend.mono_regs (by simp)).mono_parts (by simp))
    have hidle := dmaCompleted_completesIdle ((hbefore.bit (by simp [dmaLiveRegs])).trans hshadow)
    generalize dmaCompleted d1 k = e at hidle
    have hlast : SameBut [R.DMAc_STATUS k, R.DMAc_FLAGS k, R.DMAc_XFERS k] [.evt, .dma, .dmaOut] w e :=
      ((hend.mono_regs (by simp)).mono_parts (by simp)).trans (hidle.frame.mono_parts (by simp))
    have hsrc : dmaSrc s.dev k + 8 < 2 ^ 64 := by omega
    have hdst : dmaDst s.dev k + 8 < 2 ^ 64 := by omega
    refine ⟨(Device.bytes_congr hlast.bytes 8 _).trans hw.bytes, ?_, hidle.state, hidle.done, ?_, ?_, ?_, ?_,
      (hothers.trans hidle.others).getElem, ?_, ?_⟩
    · exact (congrArg BitVec.toNat (hlast.regs _ (by simp))).trans hw.len
    · refine ((hlast.pair (by simp) (by simp)).trans hw.dst).trans ?_
      rw [Nat.mod_eq_of_lt hdst]
      split <;> rfl
    · refine ((hlast.pair (by simp) (by simp)).trans hw.src).trans ?_
      rw [Nat.mod_eq_of_lt hsrc]
      split <;> rfl
    · rw [hidle.xfers, hbefore.get (by simp [dmaLiveRegs])]
    · rw [hidle.frame.parts .dmaOut (by simp), hout]
      split
      · exact fun x hx => of_decide_eq_true (List.mem_filter.1 hx).2
      · exact hw.out
    · rw [← hbefore.nowNs (by simp)]
      exact hidle.rill
    · exact (hbefore.mono (by simp [dmaLiveRegs]) (by simp)).trans_sameBut ((hidle.frame.mono_regs (by simp)).mono_parts (by simp))
  case handover =>
    intro k s ⟨hrun, hlen, hcsumWr, hshadow⟩
    refine completes_done exec_dmaComplete ?_
    have hreturned := dmaReturned_frame s.dev k
    have hover := dmaCompleted_handsOver ((hreturned.bit (by simp)).trans hshadow)
    rw [dmaCompleteDev_of_nothing_left hrun hlen hcsumWr]
    exact ⟨hover.src, hover.dst, hover.len, hover.cfg, hover.shadowValid, hover.handover, hover.done, hover.state,
      hover.frame.parts .dmaOut (by simp), hover.others.getElem,
      ((hreturned.mono_regs (by simp)).mono_parts (by simp)).trans (hover.frame.mono_parts (by simp))⟩
  case notRunning =>
    intro k s hstate
    exact completes_done exec_dmaComplete (if_pos hstate)
  case busError =>
    intro k wr dram s ⟨hstate, hdata, hlen⟩
    refine completes_done exec_dmaBusError ?_
    have hhalts := dmaErrorDev_haltsOnBusError (wr := wr) (dram := dram) hstate (by rwa [unit_fin]) hlen
    obtain ⟨hhalted, hflag, hvalid, hinfo, hlatch, hkept, hout, hothers, hframe⟩ := hhalts
    rw [dmaFailAddr_mod, dmaFailCause_mod] at hinfo
    rw [dmaFailAddr_mod] at hlatch
    exact ⟨hhalted, hflag, hvalid, fun hfree => ⟨(hinfo hfree).1, (hinfo hfree).2.1⟩, fun hfree => (hinfo hfree).2.2, hlatch, hkept, hout,
      hothers.getElem, hframe⟩
  case late =>
    intro k n wr dram late a s ⟨hstate, htail⟩
    refine completes_done exec_dmaBusError ?_
    obtain ⟨hhalted, hflag, hvalid, hinfo, hlatch, -, hout, hothers, hframe⟩ :=
      dmaErrorDev_of_tail (n := n) (dram := dram) hstate htail
    exact ⟨hhalted, hflag, hvalid, hinfo, fun hfree => ⟨(hlatch hfree).1, (hlatch hfree).2.1⟩, hout, hothers.getElem, hframe⟩
  case nothing =>
    intro k n wr dram late s ⟨hstate, htail⟩
    exact completes_done exec_dmaBusError (dmaErrorDev_of_no_tail hstate htail)

end Sys2Proof.Machine

/-! # Two events at one rill interrupt

A form of the statement about rills that the model answers in another way: the event of a cell and the event that drives it may be candidates
of one rill interrupt, where they coalesce (R387), and COALESCE then fires the fabric's own rill (R384, Table 18.1). -/

namespace Sys2Proof.Machine

/-! ## Consumers that route no rill (Table 18.2) -/

/-- A fold whose every step leaves the start as it is leaves it so. -/
theorem foldl_eq_self_of_forall_mem {α β : Type} {f : β → α → β} {b : β} : ∀ {l : List α}, (∀ a ∈ l, f b a = b) → l.foldl f b = b
  | [], _ => rfl
  | a :: t, h => by
    rw [List.foldl_cons, h a List.mem_cons_self]
    exact foldl_eq_self_of_forall_mem fun x hx => h x (List.mem_cons_of_mem a hx)

/-- No consumer of `d` routes a rill: no timed output is armed, no reference latch is on a rill, capture is off, no DMA channel has a
trigger; and the live configuration is in force at every time. -/
structure RoutesNothing (d : Device) : Prop where
  timedOutputs : ∀ p < 16, tioArmed d p = false
  referenceLatches : ∀ n < 4, d.get (F.TRAn_REF.SRC n) ≠ 3
  capture : d.cap.enabled = false
  dmaChannels : ∀ c < 16, d.bit (F.DMAc_CFG.TRIG_EN c) = false
  notArmed : d.sluState ≠ sluArmed
  noOldBank : d.slu.old = none

section
variable {d e : Device} {r t : Nat}

theorem RoutesNothing.tioOnRill (h : RoutesNothing d) : tioOnRill d r t = d :=
  foldl_eq_self_of_forall_mem fun p hp =>
    if_neg fun hroutes => Bool.false_ne_true ((h.timedOutputs p (List.mem_range.1 hp)).symm.trans hroutes.1)

theorem RoutesNothing.capOnRill (h : RoutesNothing d) : capOnRill d r = d :=
  foldl_eq_self_of_forall_mem fun _ _ => if_neg fun hroutes => Bool.false_ne_true (h.capture.symm.trans hroutes.1)

theorem RoutesNothing.dmaOnRill (h : RoutesNothing d) : dmaOnRill d r = d :=
  foldl_eq_self_of_forall_mem fun c hc =>
    if_neg fun hroutes => Bool.false_ne_true ((h.dmaChannels c (List.mem_range.1 hc)).symm.trans hroutes.1)

theorem RoutesNothing.asOfTime (h : RoutesNothing d) : d.asOfTime t = d := by
  unfold Device.asOfTime
  rw [if_neg fun harmed => h.notArmed harmed.1, h.noOldBank]

/-- An event on a rill that no consumer routes changes nothing. -/
theorem RoutesNothing.consume (h : RoutesNothing d) : consume d r t = d := by
  unfold Machine.consume
  simp only [h.tioOnRill, h.asOfTime]
  rw [foldl_eq_self_of_forall_mem fun n hn => if_neg fun hroutes => h.referenceLatches n (List.mem_range.1 hn) hroutes.1,
    h.capOnRill, h.dmaOnRill]

/-- What changes the event fabric alone changes no routing: the fabric's registers are those of its page (chapter 18). -/
theorem RoutesNothing.of_frame {as : List Nat} (h : RoutesNothing d) (hf : SameBut as [.evt] d e)
    (has : ∀ a ∈ as, 0x10090000 ≤ a ∧ a < 0x100A0000) : RoutesNothing e :=
  have hbelow {a : Nat} (ha : a < 0x10090000) : a ∉ as := fun hmem => Nat.not_lt.2 (has a hmem).1 ha
  have habove {a : Nat} (ha : 0x100A0000 ≤ a) : a ∉ as := fun hmem => Nat.not_lt.2 ha (has a hmem).2
  { timedOutputs := fun p hp => (hf.bit (habove (Nat.le_add_right_of_le (by decide)))).trans (h.timedOutputs p hp)
    referenceLatches := fun n hn hsrc =>
      h.referenceLatches n hn ((hf.get (habove (Nat.le_add_right_of_le (by decide)))).symm.trans hsrc)
    capture := (congrArg Cap.enabled (hf.parts .cap (by simp))).trans h.capture
    dmaChannels := fun c hc => (hf.bit (hbelow (show 0x10070124 + c * 0x80 < 0x10090000 by omega))).trans (h.dmaChannels c hc)
    notArmed := fun hstate => h.notArmed ((hf.get (hbelow (by decide))).symm.trans hstate)
    noOldBank := (congrArg Sluice.old (hf.parts .slu (by simp))).trans h.noOldBank }

end

/-! ## A cell and the rill that drives it, at one rill interrupt (R386, R387) -/

/-- After start-up, with all else as at reset: cell 1 follows rill 256, on which an event is in flight; interrupt 16 enables rill 256 and
rill 257, which is the cell's; EVT_IRQ_EN enables COALESCE. -/
def cellBesideItsInput : State :=
  { dev := ((((({ boot := { phase := .done }, evt := { inflight := [{ rill := 256 }] } } : Device).wr R.EVT_IRQ_EN 1).wr
      (R.EVT_RIj_EN 16) 3).wr (R.EVT_Ck_CFG 1) 0x80000002).wr (R.EVT_Ck_IN01 1) 0x01FF0100) }

/-- A cycle in which events of one rill cross. -/
theorem exec_rillEvent_single (r : Fin 384) (n : Nat) (s : State) :
    exec (.rillEvent 0 [(r, n)]) s = s.done (rillEventDev 0 [(r.val, n)] s.dev) := rfl

theorem routesNothing_cellBesideItsInput : RoutesNothing cellBesideItsInput.dev where
  timedOutputs := by decide
  referenceLatches := by decide
  capture := rfl
  dmaChannels := by decide
  notArmed := by decide
  noOldBank := rfl

/-- The cycle in which the event crosses leaves an event on rill 201, that of the flags of the fabric. -/
theorem inflight_rillEventDev_cellBesideItsInput :
    (rillEventDev 0 [(256, 1)] cellBesideItsInput.dev).evt.inflight = [{ rill := 201 }] := by decide +kernel

/-- Refutes O46: rill 256 drives cell 1, whose rill 257 is a candidate of the same rill interrupt; where that interrupt enables both, their
events coalesce and set COALESCE (R387), which, enabled in EVT_IRQ_EN, fires rill 201 (R384). So an event is in flight after the cycle,
where the clause of a cell that fires has nothing there but the events that were behind the first. -/
theorem not_rillEventsAndCells : ¬ Obligations.RillEventsAndCells := by
  unfold Obligations.RillEventsAndCells
  rintro ⟨-, -, -, -, -, hFires, -⟩
  obtain ⟨e, hexec, -, -, -, -, ⟨hinflight, -⟩, hframe⟩ :=
    hFires 256 { rill := 256 } [] 1 cellBesideItsInput (by decide) (by decide +kernel) (by decide) (by decide) (by decide)
  have hroutes : RoutesNothing e := routesNothing_cellBesideItsInput.of_frame hframe (by decide)
  have hcycle : cyclePassed (consume (consume e 256 0) 257 0) = rillEventDev 0 [(256, 1)] cellBesideItsInput.dev :=
    dev_of_done_eq_next ((exec_rillEvent_single 256 1 cellBesideItsInput).symm.trans hexec)
  rw [hroutes.consume, hroutes.consume] at hcycle
  have hcrossed : e.evt.inflight = [{ rill := 201 }] := calc
    e.evt.inflight = (cyclePassed e).evt.inflight := rfl
    _ = (rillEventDev 0 [(256, 1)] cellBesideItsInput.dev).evt.inflight := by rw [hcycle]
    _ = [{ rill := 201 }] := inflight_rillEventDev_cellBesideItsInput
  rw [hinflight] at hcrossed
  exact absurd hcrossed (by decide)

end Sys2Proof.Machine

/-! # The last steps of the boot

What steps 8 to 10 of the boot leave as it is while the calibration sets of the image become live, and the registers and core 0 at their end
(R399, R402). -/

namespace Sys2Proof.Machine

/-! ## The course of the boot and the cores under the calibration load -/

/-- Neither the course of the boot nor the cores have changed. -/
structure SameRun (d e : Device) : Prop where
  boot : e.boot = d.boot
  cores : e.cores = d.cores

section
variable {c d e : Device}

theorem SameRun.refl (d : Device) : SameRun d d := ⟨rfl, rfl⟩

theorem SameRun.trans (h : SameRun c d) (h' : SameRun d e) : SameRun c e := ⟨h'.boot.trans h.boot, h'.cores.trans h.cores⟩

theorem SameRun.set (h : SameRun d e) (f : Fld) (v : Nat) : SameRun d (e.set f v) := ⟨h.boot, h.cores⟩

theorem SameRun.raise (h : SameRun d e) (f : Fld) : SameRun d (e.raise f) :=
  ⟨(e.raise_boot f).trans h.boot, (e.raise_cores f).trans h.cores⟩

theorem SameRun.setBytes (h : SameRun d e) (a : Nat) (bs : List Byte) : SameRun d (e.setBytes a bs) := by
  rw [Device.setBytes_eq]
  exact ⟨h.boot, h.cores⟩

theorem SameRun.foldl {α : Type} {f : Device → α → Device} (hf : ∀ d x, SameRun d (f d x)) : ∀ {d : Device} (l : List α), SameRun d (l.foldl f d)
  | d, [] => .refl d
  | d, x :: t => (hf d x).trans (SameRun.foldl hf t)

theorem SameRun.showApplied (h : SameRun d e) (c : Nat) (t : Option Nat) : SameRun d (Machine.showApplied e c t) := (h.set _ _).set _ _

end

/-- The calibration sets of a context are bytes of the working copy, registers of the context, and entries of the live table (R124). -/
theorem loadSets_sameRun (d : Device) (c : Nat) : SameRun d (loadSets d c) := by
  have hdiscarded (b : Bool) : SameRun d (if b then d.raise F.CAL_FLAGS.SETS_DISCARDED else d) := by
    split
    · exact (SameRun.refl d).raise _
    · exact .refl d
  unfold loadSets
  dsimp only
  split
  · exact hdiscarded _
  · have hslots (a : Nat) (bs : List Byte) (v : Nat → Nat) (b : Bool) :=
      ((hdiscarded b).setBytes a bs).trans (SameRun.foldl (f := fun d i => d.set (slotTempFld c i) (v i)) (fun d _ => (SameRun.refl d).set _ _) (List.range 4))
    split
    · exact (((hslots _ _ _ _).set _ _).showApplied _ _).setBytes _ _
    · exact ((hslots _ _ _ _).set _ _).showApplied _ _

theorem baseCopy_sameRun (d : Device) : SameRun d (baseCopy d) := (SameRun.refl d).setBytes _ _

/-! ## Steps 8 to 10 -/

/-- The sections of the image of the flash, loaded from step 8 on. -/
def imageLoaded (d : Device) : Device := loadSections (sectionsOf d (flashBytes d 0 256)) (d.set F.CHIP_BOOT.STAGE 8)

/-- The base copy of the live table and the sets of the 48 contexts, from the loaded sections on. -/
def calibrationLoaded (id : Nat) (d : Device) : Device :=
  (List.range 48).foldl loadSets (baseCopy { d with cal := { d.cal with baseId := id } })

/-- CHIP_BOOT at step 10. -/
def bootShownDone (d : Device) : Device := ((d.setBit F.CHIP_BOOT.DONE true).set F.CHIP_BOOT.STAGE 10).set F.CHIP_BOOT.CODE 0

/-- Step 10: CHIP_BOOT shows the end of the boot, core 0 jumps to ENTRY, and the runtime's network services start. -/
def bootCompleted (d : Device) : Device :=
  runtimeNet (jumpToEntry { bootShownDone d with boot := { (bootShownDone d).boot with phase := .done } })

theorem calibrationLoaded_sameRun (id : Nat) (d : Device) : SameRun d (calibrationLoaded id d) :=
  have hbase : SameRun d { d with cal := { d.cal with baseId := id } } := ⟨rfl, rfl⟩
  (hbase.trans (baseCopy_sameRun _)).trans (SameRun.foldl loadSets_sameRun _)

theorem dramReadyDev_of_running {d : Device} (hphase : d.boot.phase = .dram) (hrun : ∀ n : Fin 4, d.memState n = msRun) :
    ∃ id, dramReadyDev d = if (imageLoaded d).boot.phase = .failed then imageLoaded d
      else bootCompleted (calibrationLoaded id (imageLoaded d)) := by
  have hall : (List.range 4).any (fun n => d.memState n != msRun) = false := by
    rw [List.any_eq_false]
    intro n hn
    simp [hrun ⟨n, List.mem_range.1 hn⟩]
  unfold dramReadyDev
  rw [if_neg (by simp [hphase, hall])]
  unfold bootCompleted bootShownDone calibrationLoaded imageLoaded
  dsimp only
  exact ⟨_, rfl⟩

section
variable (d : Device)

theorem bootCompleted_boot : (bootCompleted d).boot = { d.boot with phase := .done } := rfl

/-- After CHIP_BOOT is shown, only KCP_CFG and KCP_CAP_TMPL change. -/
theorem bootCompleted_get_chipBoot {f : Fld} (hf : f.addr = R.CHIP_BOOT) : (bootCompleted d).get f = (bootShownDone d).get f := by
  have hjump : (jumpToEntry { bootShownDone d with boot := { (bootShownDone d).boot with phase := .done } }).get f = (bootShownDone d).get f := rfl
  rw [bootCompleted, runtimeNet, Device.get_set_ne _ _ _ _ (.inl (by rw [hf]; decide)), Device.get_setBit,
    Device.get_set_ne _ _ _ _ (.inl (by rw [hf]; decide)), hjump]

theorem bootShownDone_fields : (bootShownDone d).get F.CHIP_BOOT.DONE = 1 ∧ (bootShownDone d).get F.CHIP_BOOT.STAGE = 10 ∧
    (bootShownDone d).get F.CHIP_BOOT.CODE = 0 := by
  refine ⟨?_, ?_, Device.get_set_self _ _ _ (by decide)⟩
  · rw [bootShownDone, Device.get_set_ne _ _ _ _ (by decide), Device.get_set_ne _ _ _ _ (by decide)]
    exact Device.get_set_self _ _ _ (by decide)
  · rw [bootShownDone, Device.get_set_ne _ _ _ _ (by decide)]
    exact Device.get_set_self _ _ _ (by decide)

theorem bootCompleted_kcpEn : (bootCompleted d).get F.KCP_CFG.EN = 1 := by
  rw [bootCompleted, runtimeNet, Device.get_set_ne _ _ _ _ (by decide)]
  exact Device.get_set_self _ _ _ (by decide)

/-- Core 0 stands at ENTRY in machine mode. -/
theorem bootCompleted_core_zero : ((bootCompleted d).core 0).hart.pc = BitVec.ofNat 64 d.boot.entry ∧
    ((bootCompleted d).core 0).hart.machine = true := by
  have hcore : ∀ x : CoreX, (Device.setCore { bootShownDone d with boot := { (bootShownDone d).boot with phase := .done } } 0 x).core 0 = x :=
    Device.core_setCore_self _ (by decide)
  constructor
  · exact congrArg (fun x : CoreX => x.hart.pc) (hcore _)
  · exact congrArg (fun x : CoreX => x.hart.machine) (hcore _)

theorem bootCompleted_core_ne {n : Nat} (hn : n ≠ 0) : (bootCompleted d).core n = d.core n :=
  Device.core_setCore_ne { bootShownDone d with boot := { (bootShownDone d).boot with phase := .done } } hn _

end

theorem exec_bootDramReady (s : State) : exec .bootDramReady s = s.done (dramReadyDev s.dev) := rfl

/-- Settles O54: the calibration load leaves the course of the boot and the cores as the sections left them, and step 10 shows the rest. -/
theorem bootCompletion : Obligations.BootCompletion := by
  unfold Obligations.BootCompletion
  rintro d1 s ⟨hphase, hrun, hloaded⟩
  change d1 = imageLoaded s.dev at hloaded
  refine completes_done (exec_bootDramReady s) ?_
  obtain ⟨id, hready⟩ := dramReadyDev_of_running hphase hrun
  have hsame : SameRun d1 (calibrationLoaded id d1) := calibrationLoaded_sameRun id d1
  rw [hready, ← hloaded]
  generalize calibrationLoaded id d1 = e at hsame
  constructor
  · intro hok
    rw [if_neg hok]
    obtain ⟨hdone, hstage, hcode⟩ := bootShownDone_fields e
    obtain ⟨hpc, hmachine⟩ := bootCompleted_core_zero e
    refine ⟨congrArg Boot.phase (bootCompleted_boot e), (bootCompleted_get_chipBoot e rfl).trans hdone, (bootCompleted_get_chipBoot e rfl).trans hstage,
      (bootCompleted_get_chipBoot e rfl).trans hcode, bootCompleted_kcpEn e, ?_, hmachine, fun n hn => ?_⟩
    · rw [hpc, hsame.boot]
    · rw [bootCompleted_core_ne e (Fin.val_ne_of_ne hn), Device.core, hsame.cores, Device.core]
  · exact fun hfailed => if_pos hfailed

end Sys2Proof.Machine

/-! # A power-on reset during a commit to MRAM

A form of the statement about the boot that the model answers in another way: a power-on reset cuts a commit of calibration sets short, so that
the record it was writing fails its check (R124, R397). -/

namespace Sys2Proof.Machine

/-! ## Bytes over a filter, and numbers in memory -/

theorem Sparse.get_filter {β : Type} (df : Nat → β) {a : Nat} {p : Nat × β → Bool} (hp : ∀ v, p (a, v) = true) :
    ∀ l, Sparse.get df a (l.filter p) = Sparse.get df a l
  | [] => rfl
  | (k, v) :: t => by
    have ih := Sparse.get_filter df hp t
    by_cases hk : k = a
    · subst hk
      rw [List.filter_cons_of_pos (hp v), Sparse.get, Sparse.get, if_pos rfl, if_pos rfl]
    · rw [Sparse.get, if_neg hk, List.filter_cons]
      split
      · rw [Sparse.get, if_neg hk, ih]
      · exact ih

/-- A power-on reset keeps the bytes of MRAM as they stand after a commit in progress is cut short. -/
theorem porst_byte_of_mram (d : Device) {a : Nat} (ha : mramBase ≤ a ∧ a < mramBase + 0x1000000) : (porst d).byte a = (cutCommit d).byte a :=
  Sparse.get_filter _ (fun _ => decide_eq_true ha) _

theorem Device.bytes_congr_on {d e : Device} (n : Nat) : ∀ a, (∀ x, a ≤ x → x < a + n → e.byte x = d.byte x) → e.bytes a n = d.bytes a n := by
  induction n with
  | zero => exact fun _ _ => rfl
  | succ n ih =>
    intro a h
    rw [Device.bytes, Device.bytes, h a (Nat.le_refl a) (by omega), ih (a + 1) fun x hx hlt => h x (by omega) (by omega)]

theorem Device.num_setNum (d : Device) (a n v : Nat) : (d.setNum a n v).num a n = v % 256 ^ n := by
  have hbytes := d.setBytes_bytes (leBytes n v) a
  rw [leBytes_length] at hbytes
  rw [Device.num, Device.setNum, hbytes, leNat_leBytes]

theorem Device.num_congr_mem {d e : Device} (h : e.mem = d.mem) (a n : Nat) : e.num a n = d.num a n :=
  congrArg leNat (Device.bytes_congr (fun x => by rw [Device.byte, h]; rfl) n a)

/-! ## A commit that is cut short -/

/-- The CRC of a record without a footprint, after its commit is cut short: not the one of the record's bytes. -/
theorem cutCommit_num_of_no_footprint {d : Device} {m : MramCommit} (hm : d.cal.commit = some m) (hfoot : m.foot = [])
    (hnone : leAt (d.bytes m.recAddr 60) 24 2 * leAt (d.bytes m.recAddr 60) 26 1 = 0) :
    (cutCommit d).num (m.recAddr + 60) 4 = (crc32c (d.bytes m.recAddr 60) + 1 + Config.free d.fresh 1 % (2 ^ 32 - 1)) % 2 ^ 32 := by
  have hcut : (cutCommit d).mem =
      (d.setNum (m.recAddr + 60) 4 ((crc32c (d.bytes m.recAddr 60) + 1 + Config.free d.fresh 1 % (2 ^ 32 - 1)) % 2 ^ 32)).mem := by
    have hnil : d.setBytes m.footAddr [] = d := rfl
    have hnone' (a : Nat) : d.bytes a (8 * 0) = [] := rfl
    unfold cutCommit
    simp only [hm, hfoot, List.take_nil, hnil, hnone, hnone', List.append_nil]
  have hwidth : 256 ^ 4 = 2 ^ 32 := rfl
  rw [Device.num_congr_mem hcut, Device.num_setNum, hwidth, Nat.mod_mod]

/-- After start-up, with all else as at reset: both MRAM records of context 0 are valid, of empty footprints. -/
def validRecords : Device :=
  [0, 1].foldl (fun d k => d.setNum (recordAddr 0 k + 60) 4 (crc32c (List.replicate 60 0#8))) { boot := { phase := .done } }

/-- From there a commit of context 0 is in progress; it writes copy 0. -/
def commitUnderWay : State := { dev := commitQueue validRecords 0 }

theorem commitUnderWay_commit : ∃ m, commitUnderWay.dev.cal.commit = some m ∧ m.foot = [] ∧ m.recAddr = recordAddr 0 0 :=
  ⟨commitOf validRecords 0, by decide +kernel, by decide +kernel, by decide +kernel⟩

theorem commitUnderWay_bytes : commitUnderWay.dev.bytes (recordAddr 0 0) 60 = List.replicate 60 0#8 := by decide +kernel

theorem commitUnderWay_crc : commitUnderWay.dev.num (recordAddr 0 0 + 60) 4 = crc32c (List.replicate 60 0#8) := by decide +kernel

theorem exec_porst (held : Nat) (s : State) : exec (.porst held) s = s.done (porstDev held s.dev) := rfl

/-- Refutes O53: PORST_N cuts the commit in progress short, so that the CRC of the record that it writes is wrong from then on (R124); where
the record was valid before, its bytes in MRAM are not those that stood there, where the clause of PORST_N has every byte of MRAM as it was. -/
theorem not_bootSequence : ¬ Obligations.BootSequence := by
  unfold Obligations.BootSequence
  rintro ⟨hReset, -⟩
  obtain ⟨e, hexec, -, -, -, -, -, -, -, -, hkept, -⟩ := hReset 100 commitUnderWay (Nat.le_refl _)
  have he : e = porst commitUnderWay.dev := dev_of_done_eq_next ((exec_porst 100 commitUnderWay).symm.trans hexec)
  obtain ⟨m, hm, hfoot, haddr⟩ := commitUnderWay_commit
  have hcut : (cutCommit commitUnderWay.dev).num (recordAddr 0 0 + 60) 4 =
      (crc32c (List.replicate 60 0#8) + 1 + Config.free commitUnderWay.dev.fresh 1 % (2 ^ 32 - 1)) % 2 ^ 32 := by
    rw [← commitUnderWay_bytes, ← haddr]
    exact cutCommit_num_of_no_footprint hm hfoot (by rw [haddr, commitUnderWay_bytes]; rfl)
  have hsame : (cutCommit commitUnderWay.dev).bytes (recordAddr 0 0 + 60) 4 = commitUnderWay.dev.bytes (recordAddr 0 0 + 60) 4 := by
    refine Device.bytes_congr_on 4 _ fun x hx hlt => ?_
    have hmram : mramBase ≤ x ∧ x < mramBase + 0x1000000 := by
      simp only [recordAddr, mramBase] at hx hlt ⊢
      omega
    rw [← porst_byte_of_mram _ hmram, ← he]
    exact hkept x hmram.1 hmram.2
  rw [Device.num, hsame, ← Device.num, commitUnderWay_crc] at hcut
  have hlt : crc32c (List.replicate 60 0#8) < 2 ^ 32 := by decide +kernel
  omega

end Sys2Proof.Machine

/-! # A frame for a device without a route register

A form of the statement about peer frames that the model answers in another way: it ranges over every number as DST of a frame, where the route
registers are those of 16 devices (R452). The address formula of the route of a larger number may name another register. -/

namespace Sys2Proof.Machine

theorem exec_peerWindow (n : Fin 3) (h : PeerHdr) (w : WindowReq) (s : State) :
    exec (.peerWindow n h w) s = s.done (peerFrame n h (.window w) (windowRx h.line w) s.dev) := rfl

/-- The number whose route register would lie at the address of PEER2_FRAMES_RX: 0x5F85. -/
def farBeyond : Nat := (R.PEERn_FRAMES_RX 2 - R.PAIR_ROUTEd 0) / 4

/-- A WINDOW frame to that number. -/
def frameFarBeyond : PeerHdr := { dst := farBeyond }

/-- After start-up, with the peer lanes up: ports 1 and 2 are UP, and port 2 has counted 0x9FFF_FFFF frames, which read as a route names
port 1. -/
def countsAsRoute : State :=
  Tests.linked [(R.PEERn_STATUS 2, 5), (R.PEERn_STATUS 1, 5), (R.PEERn_FRAMES_RX 2, 0x9FFFFFFF)]

theorem routeTo_farBeyond : routeTo countsAsRoute.dev farBeyond = some 1 := by decide

/-- The frame is counted before its route is looked up, and 0xA000_0000 names port 2, which it came from and where the link is UP. -/
theorem peerFrame_farBeyond_ready :
    ((peerFrame 2 frameFarBeyond (.window {}) (windowRx 0 {}) countsAsRoute.dev).peer 1).ready = [] := by decide +kernel

/-- Refutes O47: the clause of a frame for another device lets DST be any number, and the route of number 0x5F85 would lie at PEER2_FRAMES_RX.
Port 2 counts the frame before it looks the route up, so that it leaves on port 2 where the route before the frame named port 1. -/
theorem not_peerReception : ¬ Obligations.PeerReception := by
  unfold Obligations.PeerReception
  rintro ⟨-, -, -, -, -, hForward, -⟩
  obtain ⟨e, hexec, hready, -⟩ := hForward 2 frameFarBeyond (.window {}) {} 1 countsAsRoute (by decide)
    ⟨by decide, routeTo_farBeyond, by decide, by decide⟩
  have he : e = peerFrame 2 frameFarBeyond (.window {}) (windowRx 0 {}) countsAsRoute.dev :=
    dev_of_done_eq_next ((exec_peerWindow 2 frameFarBeyond {} countsAsRoute).symm.trans hexec)
  rw [he, peerFrame_farBeyond_ready] at hready
  exact List.append_ne_nil_of_right_ne_nil _ (List.cons_ne_nil _ _) hready.symm

end Sys2Proof.Machine

/-! # The capture block restarts

A form of the statement about the power domains that the model answers in another way: its frame keeps the capture part where a waking domain
goes ON, but the capture block restarts from its live configuration (R429). -/

namespace Sys2Proof.Machine

theorem exec_domainPowerUp (k : Fin 2) (s : State) : exec (.domainPowerUp k) s = s.done (domainUpDev k s.dev) := rfl

theorem showCap_cap (d : Device) : (showCap d).cap = d.cap := by
  unfold showCap
  dsimp only
  rw [apply_ite Device.cap, Device.raise_cap, Device.set_cap, ite_self]

/-- A waking capture block goes ON with the registers that are live then. -/
theorem domainUpDev_capture {d : Device} (h : d.get (domState 1) = 1) :
    domainUpDev 1 d = showCap (takeKeys (d.set (domState 1) 0)) := by
  rw [domainUpDev, if_neg (not_not_intro h), if_pos rfl]

/-- Its EN is the live one. -/
theorem domainUpDev_capture_enabled {d : Device} (h : d.get (domState 1) = 1) :
    (domainUpDev 1 d).cap.enabled = d.bit F.CAP_CTRL.EN := by
  have hlive : (d.set (domState 1) 0).bit F.CAP_CTRL.EN = d.bit F.CAP_CTRL.EN := by
    unfold Device.bit
    rw [Device.get_set_ne _ _ _ _ (.inl (by decide))]
  rw [domainUpDev_capture h, showCap_cap]
  exact hlive

/-- After start-up, EN of CAP_CTRL has become live while the capture block was down, so that no group has started under it; the block is WAKING. -/
def captureWaking : State := Tests.onRegs [(R.CAP_CTRL, 0x80101C00), (R.RSV_POWER, 0x400)]

theorem captureWaking_domState : captureWaking.dev.get (domState 1) = 1 := by decide

theorem captureWaking_live : captureWaking.dev.bit F.CAP_CTRL.EN = true := by decide

theorem captureWaking_enabled : captureWaking.dev.cap.enabled = false := rfl

/-- Refutes O45: the clause of a waking domain keeps every part but the events, for the capture block too, which takes EN and the registers of
its windows as it restarts. Where EN became live while the block was down, capture is enabled from then on. -/
theorem not_reservoirPlansAndDomains : ¬ Obligations.ReservoirPlansAndDomains := by
  unfold Obligations.ReservoirPlansAndDomains
  rintro ⟨-, -, -, -, -, -, hUp, -⟩
  obtain ⟨e, hexec, -, -, hframe⟩ := hUp 1 captureWaking captureWaking_domState
  have he : e = domainUpDev 1 captureWaking.dev := dev_of_done_eq_next ((exec_domainPowerUp 1 captureWaking).symm.trans hexec)
  have hkept : e.cap.enabled = false := (congrArg Cap.enabled (hframe.parts .cap (by decide))).trans captureWaking_enabled
  have htaken : e.cap.enabled = true :=
    he ▸ (domainUpDev_capture_enabled captureWaking_domState).trans captureWaking_live
  exact Bool.false_ne_true (hkept.symm.trans htaken)

end Sys2Proof.Machine

/-! # Frames of parts, of folds and of recorded faults

What an update of one part, a fold of updates, and the record of a fault of level 2 leave unchanged. -/

namespace Sys2Proof.Machine

/-! ## Frames that follow one another -/

section
variable {as bs : List Nat} {ps qs : List Part} {rs : List (Nat × Nat)} {c d e : Device}

/-- An operation of a narrower frame comes after. -/
theorem SameBut.then (h : SameBut as ps c d) (h' : SameBut bs qs d e) (hregs : bs ⊆ as) (hparts : qs ⊆ ps) : SameBut as ps c e :=
  h.trans ((h'.mono_regs hregs).mono_parts hparts)

theorem SameBut.mono (h : SameBut as ps d e) (hregs : as ⊆ bs) (hparts : ps ⊆ qs) : SameBut bs qs d e :=
  (h.mono_regs hregs).mono_parts hparts

theorem SameBut.foldl {α : Type} {f : Device → α → Device} : ∀ {l : List α} {d : Device}, (∀ d, ∀ x ∈ l, SameBut as ps d (f d x)) →
    SameBut as ps d (l.foldl f d)
  | [], d, _ => .refl _ _ d
  | x :: _, d, h => (h d x List.mem_cons_self).trans (SameBut.foldl fun d y hy => h d y (List.mem_cons_of_mem x hy))

theorem SameBut.toMem (h : SameBut as ps d e) : SameButMem as ps rs d e := ⟨h.regs, h.parts, fun a _ => h.bytes a, h.tabs, h.flash⟩

/-- Bytes may have changed in one range that holds the range of the frame. -/
theorem SameButMem.within {a n b m : Nat} (h : SameButMem as ps [(a, n)] d e) (hlo : b ≤ a) (hhi : a + n ≤ b + m) :
    SameButMem as ps [(b, m)] d e :=
  have hbytes (x : Nat) (hx : x < b ∨ b + m ≤ x) : e.byte x = d.byte x := h.bytes x fun r hr => by
    obtain rfl := List.mem_singleton.1 hr
    dsimp only
    omega
  { h with bytes := fun x hx => hbytes x (hx _ (List.mem_singleton.2 rfl)) }

end

/-- What step `k` of a fold brings about holds at its end, where `k` comes once: from `Q`, which the other steps keep, step `k` makes `P`, which
they keep too. -/
theorem foldl_at {α β : Type} {f : β → α → β} {k : α} {P Q : β → Prop} (hstep : ∀ b, Q b → P (f b k)) : ∀ {l : List α} {b : β},
    l.Nodup → k ∈ l → (∀ b, ∀ j ∈ l, j ≠ k → Q b → Q (f b j)) → (∀ b, ∀ j ∈ l, j ≠ k → P b → P (f b j)) → Q b → P (l.foldl f b)
  | [], _, _, hk, _, _, _ => absurd hk List.not_mem_nil
  | x :: t, b, hnodup, hk, hQ, hP, hb => by
    obtain ⟨hx, ht⟩ := List.nodup_cons.1 hnodup
    rw [List.foldl_cons]
    by_cases hxk : x = k
    · subst hxk
      exact List.foldlRecOn t f (hstep b hb) fun b hPb j hj =>
        hP b j (List.mem_cons_of_mem x hj) (fun heq => hx (heq ▸ hj)) hPb
    · exact foldl_at hstep ht ((List.mem_cons.1 hk).resolve_left (Ne.symm hxk)) (fun b j hj => hQ b j (List.mem_cons_of_mem x hj))
        (fun b j hj => hP b j (List.mem_cons_of_mem x hj)) (hQ b x List.mem_cons_self hxk hb)

/-! ## Updates of one part -/

section
variable {as : List Nat} {ps : List Part} {d e : Device}

theorem SameBut.withPair (h : SameBut as ps d e) (x : Pair) (hp : Part.pr ∈ ps) : SameBut as ps d (e.withPair x) :=
  h.parts_only rfl rfl rfl rfl (fun p hp' => by
    cases p with
    | pr => exact absurd hp hp'
    | _ => rfl)

theorem SameBut.putBasin (h : SameBut as ps d e) (x : Basin) (hp : Part.basin ∈ ps) : SameBut as ps d { e with basin := x } :=
  h.parts_only rfl rfl rfl rfl (fun p hp' => by
    cases p with
    | basin => exact absurd hp hp'
    | _ => rfl)

theorem SameBut.putJud (h : SameBut as ps d e) (x : Judge) (hp : Part.jud ∈ ps) : SameBut as ps d { e with jud := x } :=
  h.parts_only rfl rfl rfl rfl (fun p hp' => by
    cases p with
    | jud => exact absurd hp hp'
    | _ => rfl)

theorem SameBut.setSpout (h : SameBut as ps d e) (n : Nat) (x : Spout) (hp : Part.ej ∈ ps) : SameBut as ps d (e.setSpout n x) :=
  h.parts_only rfl rfl rfl rfl (fun p hp' => by
    cases p with
    | ej => exact absurd hp hp'
    | _ => rfl)

theorem SameBut.setPeer (h : SameBut as ps d e) (n : Nat) (x : Peer) (hp : Part.peers ∈ ps) : SameBut as ps d (e.setPeer n x) :=
  h.parts_only rfl rfl rfl rfl (fun p hp' => by
    cases p with
    | peers => exact absurd hp hp'
    | _ => rfl)

theorem SameBut.queueFrame (h : SameBut as ps d e) (n : Nat) (f : PeerFrame) (hp : Part.peers ∈ ps) : SameBut as ps d (queueFrame e n f) :=
  h.setPeer _ _ hp

theorem SameBut.setLaneX (h : SameBut as ps d e) (l : Lane) (x : LaneX) (hp : Part.lanes ∈ ps) : SameBut as ps d (e.setLaneX l x) :=
  h.parts_only rfl rfl rfl rfl (fun p hp' => by
    cases p with
    | lanes => exact absurd hp hp'
    | _ => rfl)

theorem SameBut.elapse (h : SameBut as ps d e) (n : Nat) (hp : Part.tb ∈ ps) : SameBut as ps d (e.elapse n) :=
  h.parts_only rfl rfl rfl rfl (fun p hp' => by
    cases p with
    | tb => exact absurd hp hp'
    | _ => rfl)

end

/-! ## Faults of level 2 (R455, R469, R470) -/

theorem withCrc_length (bs : List Byte) : (withCrc bs).length = bs.length + 4 := by
  rw [withCrc, List.length_append, leBytes_length]

/-- Where FLT_LAST shows a fault. -/
def faultShown (d : Device) (code index : Nat) : Device :=
  ((d.set F.FLT_LAST.INDEX index).set F.FLT_LAST.CODE code).set F.FLT_LAST_LINE.V (d.get F.TB_LINE.L)

section
variable {code : Nat} (d : Device) (index : Nat)

theorem histAddr_in_faultBytes (seq : Nat) : faultBytes.1 ≤ histAddr seq ∧ histAddr seq + 32 ≤ faultBytes.1 + faultBytes.2 := by
  unfold faultBytes histAddr
  dsimp only
  omega

theorem histWrite_frame (code : Nat) : SameButMem [R.FLT_FLAGS, R.FLT_HIST_SEQ] [.resv, .evt] [faultBytes] d (histWrite d code index) := by
  have hrefl : SameBut [R.FLT_FLAGS, R.FLT_HIST_SEQ] [.resv, .evt] d d := .refl _ _ d
  have hentry (seq : Nat) {bs : List Byte} (hlen : bs.length = 32) :
      SameButMem [R.FLT_FLAGS, R.FLT_HIST_SEQ] [.resv, .evt] [faultBytes] d (d.setBytes (histAddr seq) bs) :=
    (hrefl.setBytes (by simp) _ _).within (histAddr_in_faultBytes seq).1 (hlen ▸ (histAddr_in_faultBytes seq).2)
  unfold histWrite
  dsimp only
  split
  · exact (hrefl.raise (by simp) (by simp)).toMem
  · split
    · exact hentry _ (by simp [withCrc_length, leBytes_length, Device.bytes_length])
    · exact (hentry _ (by simp [histEntry, withCrc_length, leBytes_length])).trans_sameBut ((SameBut.refl _ _ _).set _ (by simp))

variable (hlevel : faultLevel code = 2)
include hlevel

theorem fault_frame_of_shown :
    SameButMem [R.FLT_L2_COUNT, R.FLT_FLAGS, R.FLT_HIST_SEQ] [.resv, .evt] [faultBytes] (faultShown d code index) (d.fault code index) := by
  have hcounted (c : Bool) : SameBut [R.FLT_L2_COUNT, R.FLT_FLAGS, R.FLT_HIST_SEQ] [.resv, .evt] (faultShown d code index)
      ((((faultShown d code index).count F.FLT_L2_COUNT.V).raiseIf true F.FLT_FLAGS.FAULT).raiseIf c F.FLT_FLAGS.PIN_FAULT) :=
    (((SameBut.refl _ _ _).count _ (by simp)).raiseIf _ (by simp) (by simp)).raiseIf _ (by simp) (by simp)
  unfold Device.fault
  rw [hlevel]
  dsimp only
  split
  · exact (hcounted _).trans_sameButMem ((histWrite_frame _ _ _).mono (by simp) (by simp))
  · exact (hcounted _).toMem

theorem fault_frame : SameButMem faultRegs [.resv, .evt] [faultBytes] d (d.fault code index) := by
  have hshown : SameBut faultRegs [.resv, .evt] d (faultShown d code index) :=
    (((SameBut.refl _ _ d).set _ (by simp [faultRegs])).set _ (by simp [faultRegs])).set _ (by simp [faultRegs])
  exact hshown.trans_sameButMem ((fault_frame_of_shown d index hlevel).mono (by simp [faultRegs]) (by simp))

theorem fault_code : (d.fault code index).get F.FLT_LAST.CODE = code % 2 ^ 16 := by
  rw [(fault_frame_of_shown d index hlevel).get (by simp), faultShown, Device.get_set_ne _ _ _ _ (by simp), Device.get_set_self _ _ _ (by simp)]
  rfl

theorem fault_index : (d.fault code index).get F.FLT_LAST.INDEX = index % 2 ^ 16 := by
  rw [(fault_frame_of_shown d index hlevel).get (by simp), faultShown, Device.get_set_ne _ _ _ _ (by simp),
    Device.get_set_ne _ _ _ _ (by simp), Device.get_set_self _ _ _ (by simp)]
  rfl

end

end Sys2Proof.Machine

/-! # The state of the pair

What a unit shows once it has entered a pair state (R432, R433, Tables 21.1 and 21.2), and what the commands of chapter 21 that move the pair do. -/

namespace Sys2Proof.Machine

/-! ## Role priority and claim (R217, R432) -/

section
variable {d e : Device}

theorem rolePri_congr (hstate : e.pairState = d.pairState) (hhome : e.bit F.PAIR_CFG.HOME = d.bit F.PAIR_CFG.HOME) : rolePri e = rolePri d := by
  have hget : e.get F.PAIR_STATUS.STATE = d.get F.PAIR_STATUS.STATE := hstate
  rw [rolePri, rolePri, hget, hhome]

theorem rolePri_lt (d : Device) : rolePri d < 16 := by
  unfold rolePri
  split
  · decide
  · decide
  · split <;> decide
  · decide

theorem rolePri_of_idle (h : d.pairState = pairJoin ∨ d.pairState = pairFailed) : rolePri d = 0 := by
  unfold Device.pairState at h
  rcases h with h | h <;> rw [rolePri, h] <;> rfl

theorem rolePri_of_active (h : d.pairState = pairActive) : rolePri d = if d.bit F.PAIR_CFG.HOME then 0xA else 6 := by
  unfold Device.pairState at h
  rw [rolePri, h]
  rfl

theorem claimOf_congr (hpri : rolePri e = rolePri d) (hepoch : e.get F.PAIR_STATUS.EPOCH = d.get F.PAIR_STATUS.EPOCH) : claimOf e = claimOf d := by
  rw [claimOf, claimOf, hpri, hepoch]

theorem claimOf_of_idle (h : d.pairState = pairJoin ∨ d.pairState = pairFailed) : claimOf d = 0 := if_pos (rolePri_of_idle h)

/-- A frame that keeps what shows the pair state keeps the claim. -/
theorem SameBut.claimOf {as : List Nat} {ps : List Part} (h : SameBut as ps d e) (hstatus : R.PAIR_STATUS ∉ as) (hcfg : R.PAIR_CFG ∉ as) :
    Machine.claimOf e = Machine.claimOf d :=
  claimOf_congr (rolePri_congr (h.get hstatus) (h.bit hcfg)) (h.get hstatus)

theorem claimOf_lt (d : Device) : claimOf d < 2 ^ 16 := by
  have hpri := rolePri_lt d
  have hepoch := d.get_lt F.PAIR_STATUS.EPOCH
  unfold claimOf
  dsimp only at hepoch ⊢
  split <;> omega

end

/-! ## The registers that show the pair state -/

/-- The claims that the four spout ports show. -/
def claimRegs : List Nat := [R.SPn_CLAIM 0, R.SPn_CLAIM 1, R.SPn_CLAIM 2, R.SPn_CLAIM 3]

section
variable (d : Device)

theorem showClaim_frame (p : Nat) : SameBut [R.SPn_CLAIM p] [] d (showClaim d p) :=
  ((SameBut.refl _ _ d).set _ (by simp)).setBit _ (by simp)

theorem showClaim_claim (p : Nat) : (showClaim d p).get (F.SPn_CLAIM.CLAIM p) = if d.spState p = spRun then claimOf d else 0 := by
  have hlt : (if d.spState p = spRun then claimOf d else 0) < 2 ^ 16 := by
    split
    · exact claimOf_lt d
    · decide
  unfold showClaim
  rw [Device.get_setBit, Device.get_set_ne _ _ _ _ (by simp), Device.get_set_self _ _ _ (by simp)]
  exact Nat.mod_eq_of_lt hlt

theorem showClaims_frame : SameBut claimRegs [] d ((List.range 4).foldl showClaim d) :=
  SameBut.foldl fun d p hp => (showClaim_frame d p).mono_regs (by
    have : p < 4 := List.mem_range.1 hp
    interval_cases p <;> simp [claimRegs])

theorem showPair_frame : SameBut pairRegs [] d (showPair d) :=
  ((SameBut.refl pairRegs _ d).set _ (by simp [pairRegs])).then (showClaims_frame _) (by simp [claimRegs, pairRegs]) (by simp)

theorem showPair_get {f : Fld} (ha : f.addr = R.PAIR_STATUS) (hhi : f.hi < 28) : (showPair d).get f = d.get f := by
  unfold showPair
  rw [(showClaims_frame _).get (by rw [ha]; decide), Device.get_set_ne _ _ _ _ (.inr (.inr hhi))]

theorem showPair_pri : (showPair d).get F.PAIR_STATUS.PRI = rolePri d := by
  unfold showPair
  rw [(showClaims_frame _).get (by decide), Device.get_set_self _ _ _ (by decide)]
  exact Nat.mod_eq_of_lt (rolePri_lt d)

theorem showPair_rolePri : rolePri (showPair d) = rolePri d :=
  rolePri_congr (showPair_get d rfl (by decide)) ((showPair_frame d).bit (by decide))

theorem showPair_claimOf : claimOf (showPair d) = claimOf d := claimOf_congr (showPair_rolePri d) (showPair_get d rfl (by decide))

/-- CLAIM of a port is the unit's while the port is in RUN, and 0 otherwise. -/
def ShowsClaim (c : Nat) (p : Fin 4) (e : Device) : Prop := e.get (F.SPn_CLAIM.CLAIM p) = if e.spState p = spRun then c else 0

theorem showPair_claim (p : Fin 4) : ShowsClaim (claimOf (showPair d)) p (showPair d) := by
  have hkeeps (e : Device) (j : Nat) {f : Fld} (ha : f.addr ≠ R.SPn_CLAIM j) : (showClaim e j).get f = e.get f :=
    (showClaim_frame e j).get (by simpa using ha)
  have hstatus (e : Device) (j : Nat) (hj : j ∈ List.range 4) : (showClaim e j).spState p = e.spState p := by
    have := List.mem_range.1 hj
    exact hkeeps e j (by simp only [R.SPn_CLAIM, R.SPn_STATUS]; omega)
  have hclaim (e : Device) (j : Nat) : claimOf (showClaim e j) = claimOf e :=
    have hbelow {a : Nat} (ha : a < 0x50100008) : a ≠ R.SPn_CLAIM j := Nat.ne_of_lt (Nat.lt_add_right _ ha)
    (showClaim_frame e j).claimOf (by simpa using hbelow (by decide)) (by simpa using hbelow (by decide))
  rw [showPair_claimOf]
  refine foldl_at (k := p.val) (Q := fun e => claimOf e = claimOf d) (fun e he => ?_) List.nodup_range (List.mem_range.2 p.isLt)
    (fun e j _ _ he => (hclaim e j).trans he) (fun e j hj hne he => ?_) ?_
  · rw [ShowsClaim, showClaim_claim, hstatus e p (List.mem_range.2 p.isLt), he]
  · rw [ShowsClaim, hstatus e j hj, hkeeps e j (by simp only [R.SPn_CLAIM]; omega)]
    exact he
  · exact claimOf_congr (rolePri_congr (Device.get_set_ne _ _ _ _ (by decide)) (by simp [Device.bit, Device.get_set_ne])) (Device.get_set_ne _ _ _ _ (by decide))

end

/-! ## Entering a pair state (R433, Table 21.2) -/

section
variable (d : Device) (st : Nat)

/-- The registers follow the state that the unit enters. -/
theorem enterPair_eq : ∃ x b, enterPair d st = showPair { (d.set F.PAIR_STATUS.STATE st).withPair x with basin := b } := ⟨_, _, rfl⟩

theorem enterPair_frame : SameBut pairRegs [.pr, .basin] d (enterPair d st) := by
  obtain ⟨x, b, heq⟩ := enterPair_eq d st
  rw [heq]
  exact ((((SameBut.refl _ _ d).set _ (by simp [pairRegs])).withPair x (by simp)).putBasin b (by simp)).then (showPair_frame _) (by simp) (by simp)

theorem enterPair_get {f : Fld} (ha : f.addr = R.PAIR_STATUS) (hlo : 3 < f.lo) (hhi : f.hi < 28) : (enterPair d st).get f = d.get f := by
  obtain ⟨x, b, heq⟩ := enterPair_eq d st
  rw [heq, showPair_get _ ha hhi]
  exact Device.get_set_ne _ _ _ _ (.inr (.inl hlo))

theorem enterPair_pairState (hst : st < 16) : (enterPair d st).pairState = st := by
  obtain ⟨x, b, heq⟩ := enterPair_eq d st
  rw [heq, Device.pairState, showPair_get _ rfl (by decide)]
  exact (Device.get_set_self _ _ _ (by decide)).trans (Nat.mod_eq_of_lt hst)

theorem enterPair_pri : (enterPair d st).get F.PAIR_STATUS.PRI = rolePri (enterPair d st) := by
  obtain ⟨x, b, heq⟩ := enterPair_eq d st
  rw [heq, showPair_pri, showPair_rolePri]

theorem enterPair_claim (p : Fin 4) : ShowsClaim (claimOf (enterPair d st)) p (enterPair d st) := by
  obtain ⟨x, b, heq⟩ := enterPair_eq d st
  rw [heq]
  exact showPair_claim _ p

theorem enterPair_selfOut : (enterPair d st).pr.selfOut = d.pr.selfOut := by
  unfold enterPair
  rw [((showPair_frame _).parts .pr (by simp) : _ = _)]
  dsimp only [Device.withPair]
  split <;> split <;> rfl

/-- From JOIN on the joining starts anew (R440). -/
theorem enterPair_join : (enterPair d pairJoin).pr.items = [] ∧ (enterPair d pairJoin).pr.warm = none ∧ (enterPair d pairJoin).pr.counters = none := by
  unfold enterPair
  rw [((showPair_frame _).parts .pr (by simp) : _ = _)]
  exact ⟨rfl, rfl, rfl⟩

theorem nextEpoch_epoch : (nextEpoch d).get F.PAIR_STATUS.EPOCH = (d.get F.PAIR_STATUS.EPOCH + 1) % 4096 := Device.get_set_self _ _ _ (by decide)

theorem nextEpoch_frame : SameBut [R.PAIR_STATUS] [] d (nextEpoch d) := (SameBut.refl _ _ d).set _ (by simp)

theorem takeRole_epoch : (takeRole d).get F.PAIR_STATUS.EPOCH = (d.get F.PAIR_STATUS.EPOCH + 1) % 4096 :=
  (enterPair_get _ _ rfl (by decide) (by decide)).trans (nextEpoch_epoch d)

theorem takeRole_pairState : (takeRole d).pairState = pairActive := enterPair_pairState _ _ (by decide)

theorem takeRole_frame : SameBut pairRegs [.pr, .basin] d (takeRole d) :=
  ((nextEpoch_frame d).mono (by simp [pairRegs]) (by simp)).trans (enterPair_frame _ _)

end

end Sys2Proof.Machine

/-! # The commands that move the pair

Takeover, activation, yield, rejoin, the time-out of HELLO and the self-test (R433, R435, R443, R448, Table 21.2). -/

namespace Sys2Proof.Machine

section
variable {d : Device}

/-! ## Takeover and activation -/

theorem takeoverDev_of_passive (h : d.pairState = pairPassive) : ∃ n, takeoverDev d =
    ((takeRole (d.elapse n)).count F.PAIR_TAKEOVERS.V).raise F.PAIR_FLAGS.TAKEOVER :=
  ⟨_, by rw [takeoverDev, if_neg (not_not_intro h)]; exact if_pos h⟩

theorem takeoverDev_becomesActive (h : d.pairState = pairPassive) :
    (takeoverDev d).pairState = pairActive ∧ (takeoverDev d).get F.PAIR_STATUS.EPOCH = (d.get F.PAIR_STATUS.EPOCH + 1) % 4096 ∧
    (takeoverDev d).get F.PAIR_TAKEOVERS.V = min (d.get F.PAIR_TAKEOVERS.V + 1) 0xFFFFFFFF ∧ (takeoverDev d).get F.PAIR_FLAGS.TAKEOVER = 1 ∧
    (∀ p : Fin 4, ShowsClaim (claimOf (takeoverDev d)) p (takeoverDev d)) ∧
    SameBut (pairRegs ++ [R.PAIR_TAKEOVERS, R.PAIR_FLAGS]) [.pr, .basin, .tb, .evt] d (takeoverDev d) := by
  obtain ⟨n, heq⟩ := takeoverDev_of_passive h
  have htail : SameBut [R.PAIR_TAKEOVERS, R.PAIR_FLAGS] [.evt] (takeRole (d.elapse n)) (takeoverDev d) :=
    heq ▸ ((SameBut.refl _ _ _).count _ (by simp)).raise (by simp) (by simp)
  have hclaim : claimOf (takeoverDev d) = claimOf (takeRole (d.elapse n)) := htail.claimOf (by decide) (by decide)
  have htime : SameBut [] [.tb] d (d.elapse n) := (SameBut.refl _ _ d).elapse n (by simp)
  refine ⟨(htail.get (by decide)).trans (takeRole_pairState _), (htail.get (by decide)).trans (takeRole_epoch _), ?_, ?_, fun p => ?_, ?_⟩
  · rw [heq, Device.get_raise, Device.get_set_ne _ _ _ _ (by simp), Device.get_count_saturating _ _ _ (by decide),
      (takeRole_frame _).get (by decide), htime.get (by simp)]
    rfl
  · rw [heq, Device.get_raise_self _ _ rfl (by decide)]
  · rw [ShowsClaim, htail.get (by decide +revert), Device.spState, htail.get (by decide +revert), hclaim]
    exact enterPair_claim _ _ p
  · exact ((htime.mono (by simp) (by simp)).then (takeRole_frame _) (by simp) (by simp)).then htail (by simp) (by simp)

theorem activateTimeoutDev_of_other (hpaired : paired d = true) (happlied : d.slu.applied = true) (hoff : d.pairState = pairOff)
    (hhome : d.bit F.PAIR_CFG.HOME = false) (hpartner : partnerActive d = false) : activateTimeoutDev d = takeRole d := by
  simp [activateTimeoutDev, hpaired, happlied, hoff, hhome, hpartner]

theorem activateTimeoutDev_of_home (hpaired : paired d = true) (happlied : d.slu.applied = true) (hoff : d.pairState = pairOff)
    (hhome : d.bit F.PAIR_CFG.HOME = true) (hnone : d.pr.status = none) : activateTimeoutDev d = enterPair d pairActive := by
  simp [activateTimeoutDev, homeActive, hpaired, happlied, hoff, hhome, hnone]

theorem activateTimeoutDev_eq_self (h : paired d = false ∨ d.slu.applied = false ∨ d.pairState ≠ pairOff ∨
    (d.bit F.PAIR_CFG.HOME = true ∧ d.pr.status ≠ none) ∨ (d.bit F.PAIR_CFG.HOME = false ∧ partnerActive d = true)) : activateTimeoutDev d = d := by
  unfold activateTimeoutDev homeActive
  rcases h with h | h | h | ⟨hhome, hsome⟩ | ⟨hhome, hactive⟩
  · simp [h]
  · simp [h]
  · simp [h]
  · simp [hhome, hsome]
  · simp [hhome, hactive]

/-- PRI of a unit that has become ACTIVE. -/
theorem enterPair_active_pri (e : Device) : (enterPair e pairActive).get F.PAIR_STATUS.PRI = if e.bit F.PAIR_CFG.HOME then 0xA else 6 := by
  rw [enterPair_pri, rolePri_of_active (enterPair_pairState _ _ (by decide)), (enterPair_frame _ _).bit (by decide)]

/-! ## Yield and rejoin -/

theorem yieldDev_of_active (h : d.pairState = pairActive) : ∃ b,
    yieldDev d = (d.withPair { d.pr with yielding := true, thenJoin := b }).raise F.PAIR_FLAGS.YIELDED :=
  ⟨_, if_neg (not_not_intro h)⟩

theorem yieldDev_waits (h : d.pairState = pairActive) :
    (yieldDev d).pairState = pairActive ∧ (yieldDev d).pr.yielding = true ∧ (statusBody (yieldDev d)).state = pairPassive ∧
    (yieldDev d).get F.PAIR_FLAGS.YIELDED = 1 ∧ SameBut [R.PAIR_FLAGS] [.pr, .evt] d (yieldDev d) := by
  obtain ⟨b, heq⟩ := yieldDev_of_active h
  have hframe : SameBut [R.PAIR_FLAGS] [.pr, .evt] d (yieldDev d) :=
    heq ▸ ((SameBut.refl _ _ d).withPair _ (by simp)).raise (by simp) (by simp)
  have hyielding : (yieldDev d).pr.yielding = true := by rw [heq, Device.raise_pr]; rfl
  exact ⟨(hframe.get (by decide)).trans h, hyielding, if_pos hyielding, heq ▸ Device.get_raise_self _ _ rfl (by decide), hframe⟩

theorem enterPair_join_claim (e : Device) (p : Fin 4) : (enterPair e pairJoin).get (F.SPn_CLAIM.CLAIM p) = 0 := by
  have h := enterPair_claim e pairJoin p
  rw [claimOf_of_idle (.inl (enterPair_pairState e pairJoin (by decide))), ShowsClaim, ite_self] at h
  exact h

/-! ## The time-out of HELLO -/

theorem helloTimeoutDev_of_mismatch {p : Nat} (hport : p = d.get F.PAIR_CFG.PORT) (hp : p < 3) (hpaired : paired d = true)
    (hstate : d.peerState p = plHello) (hgreeted : (d.peer p).greeted = true) (hhome : d.bit F.PAIR_CFG.HOME = false) :
    helloTimeoutDev d = enterPair d pairFailed := by
  subst hport
  simp [helloTimeoutDev, hp, hpaired, hstate, hgreeted, hhome]

theorem helloTimeoutDev_of_home (h : d.bit F.PAIR_CFG.HOME = true) : helloTimeoutDev d = d := by
  simp [helloTimeoutDev, h]

/-! ## The self-test -/

/-- The self-test has ended with the result `pass`. -/
def selfEnded (pass : Bool) (d : Device) : Device :=
  (d.withPair { d.pr with self := .done pass, selfOut := if pass then 1 else 2 }).setBit F.PAIR_STATUS.SELFTEST false

theorem selfEnded_frame (pass : Bool) : SameBut [R.PAIR_STATUS] [.pr] d (selfEnded pass d) :=
  ((SameBut.refl _ _ d).withPair _ (by simp)).setBit _ (by simp)

theorem selfEnded_selftest (pass : Bool) : (selfEnded pass d).get F.PAIR_STATUS.SELFTEST = 0 := Device.get_set_self _ _ _ (by decide)

theorem selfEnded_get (pass : Bool) {f : Fld} (hf : f.hi < 5 ∨ 5 < f.lo) : (selfEnded pass d).get f = d.get f :=
  Device.get_set_ne _ _ _ _ (.inr hf.symm)

/-- The unit records the fault of a pair flag and enters the state `st`. -/
def faultEnter (flag : Fld) (code st : Nat) (e : Device) : Device := enterPair ((e.raise flag).fault code 0) st

section
variable {flag : Fld} {code : Nat} (st : Nat) (e : Device) (hlevel : faultLevel code = 2)
include hlevel

theorem faultEnter_code : (faultEnter flag code st e).get F.FLT_LAST.CODE = code % 2 ^ 16 := by
  rw [faultEnter, (enterPair_frame _ _).get (by decide), fault_code _ _ hlevel]

theorem faultEnter_selfOut : (faultEnter flag code st e).pr.selfOut = e.pr.selfOut := by
  rw [faultEnter, enterPair_selfOut, ((fault_frame _ 0 hlevel).parts .pr (by simp) : _ = _), Device.raise_pr]

variable (hflag : flag.addr = R.PAIR_FLAGS)
include hflag

theorem faultEnter_frame : SameButMem (pairRegs ++ [R.PAIR_FLAGS] ++ faultRegs) [.resv, .pr, .basin, .evt] [faultBytes] e (faultEnter flag code st e) := by
  have hraised : SameBut (pairRegs ++ [R.PAIR_FLAGS] ++ faultRegs) [.resv, .pr, .basin, .evt] e (e.raise flag) :=
    (SameBut.refl _ _ e).raise (by simp [hflag]) (by simp)
  exact (hraised.trans_sameButMem ((fault_frame _ 0 hlevel).mono (by simp) (by simp))).trans_sameBut ((enterPair_frame _ st).mono (by simp) (by simp))

theorem faultEnter_flag (hone : flag.hi = flag.lo) (hhi : flag.hi < 32) : (faultEnter flag code st e).get flag = 1 := by
  rw [faultEnter, (enterPair_frame _ _).get (by rw [hflag]; decide), (fault_frame _ 0 hlevel).get (by rw [hflag]; decide),
    Device.get_raise_self _ _ hone hhi]

theorem faultEnter_get {f : Fld} (ha : f.addr = R.PAIR_STATUS) (hlo : 3 < f.lo) (hhi : f.hi < 28) : (faultEnter flag code st e).get f = e.get f := by
  rw [faultEnter, enterPair_get _ _ ha hlo hhi, (fault_frame _ 0 hlevel).get (by rw [ha]; decide), Device.get_raise,
    Device.get_set_ne _ _ _ _ (.inl (by rw [ha, hflag]; decide))]

end

theorem selfDoneDev_of_failure (h : d.pr.self = .running) : ∃ x : Pair, x.selfOut = 2 ∧
    selfDoneDev false d = faultEnter F.PAIR_FLAGS.KAT_FAIL faultKatFail pairFailed ((selfEnded false d).withPair x) :=
  ⟨{ (selfEnded false d).pr with self := .none, farSelf := 0 }, rfl, by simp [selfDoneDev, h]; rfl⟩

theorem selfDoneDev_of_pass (h : d.pr.self = .running) : selfDoneDev true d = selfConclude (selfEnded true d) := by
  simp [selfDoneDev, h]
  rfl

theorem selfConclude_of_open (h : d.pr.farSelf = 0) : selfConclude d = d := by
  unfold selfConclude
  split
  · exact if_pos h
  · rfl

/-- Both self-tests have passed: the home unit that is not ACTIVE becomes so. -/
theorem selfConclude_of_divergence {e : Device} (hself : e.pr.self = .done true) (hfar : e.pr.farSelf = 1) (hhome : e.bit F.PAIR_CFG.HOME = true)
    (hstate : e.pairState ≠ pairActive) : ∃ x : Pair, selfConclude e = faultEnter F.PAIR_FLAGS.DIVERGENCE faultDivergence pairActive (e.withPair x) := by
  refine ⟨{ e.pr with self := .none, farSelf := 0 }, ?_⟩
  have hframe : SameButMem ([R.PAIR_FLAGS] ++ faultRegs) [.resv, .pr, .evt] [faultBytes] e
      (((e.withPair { e.pr with self := .none, farSelf := 0 }).raise F.PAIR_FLAGS.DIVERGENCE).fault faultDivergence 0) :=
    (((SameBut.refl _ _ e).withPair _ (by simp)).raise (by simp) (by simp)).trans_sameButMem ((fault_frame _ _ rfl).mono (by simp) (by simp))
  have hhome' := (hframe.bit (f := F.PAIR_CFG.HOME) (by decide)).trans hhome
  have hstate' := fun heq => hstate ((hframe.get (f := F.PAIR_STATUS.STATE) (by decide)).symm.trans heq)
  simp only [selfConclude, hself, hfar, Nat.one_ne_zero, and_self, if_false, if_true, hhome']
  exact if_neg hstate'

end

end Sys2Proof.Machine

/-! # Cycles that commit and that miss their limit

What a commit of a cycle does to its digest, to the spout ports and to the link of the pair, and what its missed limit does (R434, R441). -/

namespace Sys2Proof.Machine

/-! ## Units of the peer ports and of the spout ports -/

section
variable (d : Device)

theorem Device.spout_setSpout_self {p : Nat} (hp : p < 4) (x : Spout) : (d.setSpout p x).spout p = x := unit_withUnit_self _ hp _

theorem Device.spout_setSpout_ne {p q : Nat} (h : q ≠ p) (x : Spout) : (d.setSpout p x).spout q = d.spout q := unit_withUnit_ne _ h _

theorem Device.peer_setPeer_self {n : Nat} (hn : n < 3) (x : Peer) : (d.setPeer n x).peer n = x := unit_withUnit_self _ hn _

theorem Device.peer_setPeer_ne {n m : Nat} (h : m ≠ n) (x : Peer) : (d.setPeer n x).peer m = d.peer m := unit_withUnit_ne _ h _

theorem queueFrame_peer_self {n : Nat} (hn : n < 3) (f : PeerFrame) :
    (queueFrame d n f).peer n = { d.peer n with ready := (d.peer n).ready ++ [f] } :=
  d.peer_setPeer_self hn _

theorem queueFrame_peer_ne {n m : Nat} (h : m ≠ n) (f : PeerFrame) : (queueFrame d n f).peer m = d.peer m := d.peer_setPeer_ne h _

variable {d} {e : Device} {as : List Nat} {ps : List Part}

theorem SameBut.peer (h : SameBut as ps d e) (hp : Part.peers ∉ ps) (n : Nat) : e.peer n = d.peer n :=
  congrArg (unit · n) (h.parts .peers hp : e.peers = d.peers)

theorem SameBut.privateUp (h : SameBut [] ps d e) : privateUp e = privateUp d := by
  unfold Machine.privateUp paired peerUp
  rw [h.bit (by simp), h.get (by simp), h.get (by simp)]

theorem port_lt_of_privateUp (h : privateUp d = true) : d.get F.PAIR_CFG.PORT < 3 := by
  unfold privateUp peerUp at h
  simp only [Bool.and_eq_true, decide_eq_true_eq] at h
  exact h.2.1

end

/-! ## The spout ports (R434) -/

section
variable (d : Device) (c : Nat) (inTime : Bool)

theorem spoutCommit_frame : SameBut [] [.ej] d (spoutCommit d c inTime) :=
  SameBut.foldl fun d _ _ =>
    have hset (p : Nat) (x : Spout) : SameBut [] [.ej] d (d.setSpout p x) := (SameBut.refl _ _ d).setSpout p x (by simp)
    iteInduction (fun _ => hset _ _) fun _ => iteInduction (fun _ => hset _ _) fun _ => .refl _ _ d

theorem spoutCommit_windows : (spoutCommit d c inTime).ej.windows = d.ej.windows :=
  List.foldlRecOn (motive := fun e : Device => e.ej.windows = d.ej.windows) _ _ rfl fun _ he _ _ =>
    iteInduction (motive := fun e : Device => e.ej.windows = d.ej.windows) (fun _ => he) fun _ =>
      iteInduction (motive := fun e : Device => e.ej.windows = d.ej.windows) (fun _ => he) fun _ => he

/-- A commit in time ends HOLD. -/
theorem spoutCommit_next_of_hold {p : Fin 4} (h : d.spState p = spHold) : ((spoutCommit d c true).spout p).next = some spRun := by
  refine foldl_at (k := p.val) (P := fun e : Device => (e.spout p).next = some spRun) (Q := fun e => e.spState p = spHold) (fun e he => ?_)
    List.nodup_range (List.mem_range.2 p.isLt)
    (fun e j _ _ he => iteInduction (motive := fun e : Device => e.spState p = spHold) (fun _ => he) fun _ =>
      iteInduction (motive := fun e : Device => e.spState p = spHold) (fun _ => he) fun _ => he)
    (fun e j _ hne he => ?_) h
  · dsimp only
    rw [if_pos ⟨he, rfl⟩, Device.spout_setSpout_self _ p.isLt]
  · have hset (x : Spout) : ((e.setSpout j x).spout p).next = some spRun := (congrArg Spout.next (e.spout_setSpout_ne hne.symm x)).trans he
    exact iteInduction (motive := fun e : Device => (e.spout p).next = some spRun) (fun _ => hset _) fun _ =>
      iteInduction (motive := fun e : Device => (e.spout p).next = some spRun) (fun _ => hset _) fun _ => he

theorem spoutHold_frame : SameBut [] [.ej] d (spoutHold d) :=
  SameBut.foldl fun d _ _ => iteInduction (fun _ => (SameBut.refl _ _ d).setSpout _ _ (by simp)) fun _ => .refl _ _ d

theorem spoutHold_next_of_run {p : Fin 4} (h : d.spState p = spRun) : ((spoutHold d).spout p).next = some spHold := by
  refine foldl_at (k := p.val) (P := fun e : Device => (e.spout p).next = some spHold) (Q := fun e => e.spState p = spRun) (fun e he => ?_)
    List.nodup_range (List.mem_range.2 p.isLt)
    (fun e j _ _ he => iteInduction (motive := fun e : Device => e.spState p = spRun) (fun _ => he) fun _ => he) (fun e j _ hne he => ?_) h
  · rw [if_pos he, Device.spout_setSpout_self _ p.isLt]
  · split
    · rw [Device.spout_setSpout_ne _ hne.symm]
      exact he
    · exact he

end

/-! ## The commit of a cycle -/

section
variable (d : Device) (x : OpenCycle) (rest : List OpenCycle)

/-- The digest of a cycle, as it is kept. -/
def keptDigest : CycleDigest := { cycle := x.cycle, digest := digestOf d x.cycle, loss := lossOf d x.cycle }

/-- The oldest open cycle `x` has committed: its digest is kept, its records go, and the spout ports follow. -/
def cycleCommitted : Device :=
  let d1 := d.withPair { d.pr with cycles := rest, own := (keptDigest d x :: d.pr.own).take 16 }
  spoutCommit { d1 with jud := { d1.jud with digests := d1.jud.digests.filter (fun e => e.1 ≠ x.cycle) } } x.cycle (!x.late)

/-- The DIGEST frame of the cycle `x`. -/
def digestFrame : PeerFrame :=
  { body := .digest { cycle := x.cycle, digest := digestOf d x.cycle, loss := lossOf d x.cycle, selfTest := d.pr.selfOut }, src := deviceId d }

/-- The digest of the cycle `x` leaves on the link of the pair once it is kept. -/
def cycleSent : Device :=
  queueFrame ((cycleCommitted d x rest).withPair { (cycleCommitted d x rest).pr with selfOut := 0 }) (d.get F.PAIR_CFG.PORT) (digestFrame d x)

theorem cycleCommitted_pr : (cycleCommitted d x rest).pr = { d.pr with cycles := rest, own := (keptDigest d x :: d.pr.own).take 16 } :=
  (spoutCommit_frame _ _ _).parts .pr (by simp)

theorem cycleCommitted_jud : (cycleCommitted d x rest).jud = { d.jud with digests := d.jud.digests.filter (fun e => e.1 ≠ x.cycle) } :=
  (spoutCommit_frame _ _ _).parts .jud (by simp)

theorem cycleCommitted_frame : SameBut [] [.pr, .jud, .ej] d (cycleCommitted d x rest) :=
  (((SameBut.refl _ _ d).withPair _ (by simp)).putJud _ (by simp)).then (spoutCommit_frame _ _ _) (by simp) (by simp)

theorem cycleCommitted_no_records : ∀ g ∈ (cycleCommitted d x rest).jud.digests, g.1 ≠ x.cycle := by
  rw [cycleCommitted_jud]
  exact fun g hg => of_decide_eq_true (List.mem_filter.1 hg).2

theorem cycleSent_frame : SameBut [] [.pr, .jud, .ej, .peers] d (cycleSent d x rest) :=
  (((cycleCommitted_frame d x rest).mono_parts (by simp)).withPair _ (by simp)).queueFrame _ _ (by simp)

theorem cycleSent_pr : (cycleSent d x rest).pr = { d.pr with cycles := rest, own := (keptDigest d x :: d.pr.own).take 16, selfOut := 0 } :=
  congrArg (fun p : Pair => { p with selfOut := 0 }) (cycleCommitted_pr d x rest)

theorem cycleSent_ready (hport : d.get F.PAIR_CFG.PORT < 3) :
    ((cycleSent d x rest).peer (d.get F.PAIR_CFG.PORT)).ready = (d.peer (d.get F.PAIR_CFG.PORT)).ready ++ [digestFrame d x] := by
  have hpeer : ((cycleCommitted d x rest).withPair { (cycleCommitted d x rest).pr with selfOut := 0 }).peer (d.get F.PAIR_CFG.PORT) =
      d.peer (d.get F.PAIR_CFG.PORT) := (cycleCommitted_frame d x rest).peer (by simp) _
  rw [cycleSent, queueFrame_peer_self _ hport, hpeer]

variable {d x rest} (hcycles : d.pr.cycles = x :: rest) (hdone : cycleDone d x = true)
include hcycles hdone

theorem cycleCommitDev_of_done : cycleCommitDev d = if privateUp d then compareCycle (cycleSent d x rest) x.cycle else cycleCommitted d x rest := by
  have hframe := cycleCommitted_frame d x rest
  have hself : d.pr.selfOut = (cycleCommitted d x rest).pr.selfOut := by rw [cycleCommitted_pr]
  rw [← hframe.privateUp, cycleSent, digestFrame, ← hframe.get (by simp), hself]
  unfold cycleCommitDev
  simp only [hcycles, hdone, not_true_eq_false, if_false]
  rfl

end

/-- No digest of the partner for the cycle has come: nothing is compared. -/
theorem compareCycle_of_no_far {d : Device} {c : Nat} (h : d.pr.far.find? (fun e => e.cycle = c) = none) : compareCycle d c = d := by
  unfold compareCycle
  rw [h]
  cases d.pr.own.find? (fun e => e.cycle = c) <;> rfl

theorem cycleCommitDev_eq_self {d : Device} (h : d.pr.cycles = [] ∨ (d.pr.cycles.take 1).all (fun x => cycleDone d x) = false) :
    cycleCommitDev d = d := by
  unfold cycleCommitDev
  split
  · rfl
  next x rest hcycles =>
    have hopen : cycleDone d x = false := by simpa [hcycles] using h
    exact if_pos (by simp [hopen])

/-! ## A missed limit (R434) -/

section
variable {d : Device} {x : OpenCycle}

/-- The cycles of the pair, with `x` late. -/
def markLate (x : OpenCycle) (l : List OpenCycle) : List OpenCycle := l.map (fun y => if y = x then { y with late := true } else y)

theorem late_mem_markLate {l : List OpenCycle} (h : x ∈ l) : { x with late := true } ∈ markLate x l :=
  List.mem_map.2 ⟨x, h, if_pos rfl⟩

theorem commitDeadlineDev_of_open (h : d.pr.cycles.find? (fun y => y.last.isSome && !y.late) = some x) : ∃ n, commitDeadlineDev d =
    spoutHold ((((d.elapse n).withPair { d.pr with cycles := markLate x d.pr.cycles }).count F.PAIR_LATE_COMMIT.V).raise F.PAIR_FLAGS.LEASE_HOLD) := by
  refine ⟨edgesUntil d (x.nextT + 1000 * d.get F.PAIR_TIMING.COMMIT_US), ?_⟩
  unfold commitDeadlineDev
  rw [h]
  rfl

theorem commitDeadlineDev_holds (h : d.pr.cycles.find? (fun y => y.last.isSome && !y.late) = some x) :
    (commitDeadlineDev d).get F.PAIR_LATE_COMMIT.V = min (d.get F.PAIR_LATE_COMMIT.V + 1) 0xFFFFFFFF ∧
    (commitDeadlineDev d).get F.PAIR_FLAGS.LEASE_HOLD = 1 ∧
    ((∀ p : Fin 4, d.spState p = spRun → ((commitDeadlineDev d).spout p).next = some spHold) ∧
      { x with late := true } ∈ (commitDeadlineDev d).pr.cycles ∧ (commitDeadlineDev d).pr.cycles.length = d.pr.cycles.length) ∧
    SameBut [R.PAIR_LATE_COMMIT, R.PAIR_FLAGS] [.pr, .ej, .tb, .evt] d (commitDeadlineDev d) := by
  obtain ⟨n, heq⟩ := commitDeadlineDev_of_open h
  have hcycles : (commitDeadlineDev d).pr.cycles = markLate x d.pr.cycles := by
    rw [heq, ((spoutHold_frame _).parts .pr (by simp) : _ = _), Device.raise_pr]
    rfl
  have hcounted : SameBut [R.PAIR_LATE_COMMIT, R.PAIR_FLAGS] [.pr, .ej, .tb, .evt] d
      ((((d.elapse n).withPair { d.pr with cycles := markLate x d.pr.cycles }).count F.PAIR_LATE_COMMIT.V).raise F.PAIR_FLAGS.LEASE_HOLD) :=
    ((((SameBut.refl _ _ d).elapse n (by simp)).withPair _ (by simp)).count _ (by simp)).raise (by simp) (by simp)
  have hstatus (p : Fin 4) : (F.SPn_STATUS.STATE p).addr ∉ [R.PAIR_LATE_COMMIT, R.PAIR_FLAGS] := by decide +revert
  refine ⟨?_, ?_, ⟨fun p hp => ?_, ?_, ?_⟩, ?_⟩
  · rw [heq, (spoutHold_frame _).get (by simp), Device.get_raise, Device.get_set_ne _ _ _ _ (by simp),
      Device.get_count_saturating _ _ _ (by decide)]
    rfl
  · rw [heq, (spoutHold_frame _).get (by simp), Device.get_raise_self _ _ rfl (by decide)]
  · rw [heq]
    exact spoutHold_next_of_run _ ((hcounted.get (hstatus p)).trans hp)
  · rw [hcycles]
    exact late_mem_markLate (List.mem_of_find?_eq_some h)
  · rw [hcycles, markLate, List.length_map]
  · rw [heq]
    exact hcounted.then (spoutHold_frame _) (by simp) (by simp)

theorem commitDeadlineDev_eq_self (h : d.pr.cycles.find? (fun y => y.last.isSome && !y.late) = none) : commitDeadlineDev d = d := by
  unfold commitDeadlineDev
  rw [h]

end

/-! ## What R432 to R435, R441, R443 and R448 say of the commands -/

section
variable (s : State)

theorem exec_takeover : exec .takeover s = s.done (takeoverDev s.dev) := rfl

theorem exec_pairActivateTimeout : exec .pairActivateTimeout s = s.done (activateTimeoutDev s.dev) := rfl

theorem exec_pairYield (h : gateOpen s.dev R.PAIR_CTRL = true) : exec .pairYield s = s.done (yieldDev s.dev) :=
  congrArg s.done (regAccess_of_gateOpen h _ _)

theorem exec_pairRejoin (h : gateOpen s.dev R.PAIR_CTRL = true) : exec .pairRejoin s = s.done (rejoinDev s.dev) :=
  congrArg s.done (regAccess_of_gateOpen h _ _)

theorem exec_pairHelloTimeout : exec .pairHelloTimeout s = s.done (helloTimeoutDev s.dev) := rfl

theorem exec_selftestDone (pass : Bool) : exec (.selftestDone pass) s = s.done (selfDoneDev pass s.dev) := rfl

theorem exec_cycleCommit : exec .cycleCommit s = s.done (cycleCommitDev s.dev) := rfl

theorem exec_commitDeadline : exec .commitDeadline s = s.done (commitDeadlineDev s.dev) := rfl

end

/-- Settles O49: every command enters its pair state, whose registers follow it, or commits the oldest cycle, or marks a late one. -/
theorem pairTransitions : Obligations.PairTransitions := by
  unfold Obligations.PairTransitions
  refine ⟨fun s h => ?_, fun s h => ?_, fun s h => ?_, fun s h => ?_, fun s h => ?_, fun s h hgate => ?_, fun s h hgate => ?_, fun s h hgate => ?_,
    fun s h hgate => ?_, fun p s h => ?_, fun s h => ?_, fun s h => ?_, fun s h => ?_, fun s h => ?_, fun x rest s h => ?_, fun x rest p s h => ?_,
    fun s h => ?_, fun x s h => ?_, fun s h => ?_⟩
  · exact completes_done (exec_takeover s) (takeoverDev_becomesActive h)
  · exact completes_done (exec_takeover s) (if_pos h)
  · obtain ⟨hpaired, happlied, hoff, hhome, hpartner⟩ := h
    have heq := activateTimeoutDev_of_other hpaired happlied hoff hhome hpartner
    have hpri : (takeRole s.dev).get F.PAIR_STATUS.PRI = 6 := by
      rw [takeRole, enterPair_active_pri, (nextEpoch_frame _).bit (by decide), hhome]
      rfl
    exact completes_done (exec_pairActivateTimeout s) (heq ▸ ⟨takeRole_pairState _, takeRole_epoch _, hpri, takeRole_frame _⟩)
  · obtain ⟨hpaired, happlied, hoff, hhome, hnone⟩ := h
    have heq := activateTimeoutDev_of_home hpaired happlied hoff hhome hnone
    have hpri : (enterPair s.dev pairActive).get F.PAIR_STATUS.PRI = 10 := by rw [enterPair_active_pri, hhome]; rfl
    exact completes_done (exec_pairActivateTimeout s)
      (heq ▸ ⟨enterPair_pairState _ _ (by decide), enterPair_get _ _ rfl (by decide) (by decide), hpri, enterPair_frame _ _⟩)
  · exact completes_done (exec_pairActivateTimeout s) (activateTimeoutDev_eq_self h)
  · exact completes_done (exec_pairYield s hgate) (yieldDev_waits h)
  · exact completes_done (exec_pairYield s hgate) (if_pos h)
  · have heq : rejoinDev s.dev = enterPair s.dev pairJoin := if_neg h
    have hstate : (enterPair s.dev pairJoin).pairState = pairJoin := enterPair_pairState _ _ (by decide)
    obtain ⟨hitems, hwarm, hcounters⟩ := enterPair_join s.dev
    exact completes_done (exec_pairRejoin s hgate)
      (heq ▸ ⟨hstate, claimOf_of_idle (.inl hstate), (enterPair_pri _ _).trans (rolePri_of_idle (.inl hstate)),
        enterPair_get _ _ rfl (by decide) (by decide), hitems, hwarm, hcounters, enterPair_join_claim _, enterPair_frame _ _⟩)
  · exact completes_done (exec_pairRejoin s hgate) (if_pos h)
  · obtain ⟨hport, hp, hpaired, hstate, hgreeted, hhome⟩ := h
    have heq := helloTimeoutDev_of_mismatch hport hp hpaired hstate hgreeted hhome
    have hfailed : (enterPair s.dev pairFailed).pairState = pairFailed := enterPair_pairState _ _ (by decide)
    exact completes_done (exec_pairHelloTimeout s) (heq ▸ ⟨hfailed, claimOf_of_idle (.inr hfailed), enterPair_frame _ _⟩)
  · exact completes_done (exec_pairHelloTimeout s) (helloTimeoutDev_of_home h)
  · obtain ⟨x, hx, heq⟩ := selfDoneDev_of_failure h
    have hended : SameBut [R.PAIR_STATUS] [.pr] s.dev ((selfEnded false s.dev).withPair x) := (selfEnded_frame false).withPair x (by simp)
    have hselftest : ((selfEnded false s.dev).withPair x).get F.PAIR_STATUS.SELFTEST = 0 := selfEnded_selftest false
    exact completes_done (exec_selftestDone s false)
      (heq ▸ ⟨enterPair_pairState _ _ (by decide), faultEnter_flag _ _ rfl rfl rfl (by decide),
        (faultEnter_get _ _ rfl rfl rfl (by decide) (by decide)).trans hselftest, faultEnter_code _ _ rfl, (faultEnter_selfOut _ _ rfl).trans hx,
        (hended.mono (by simp [pairRegs]) (by simp)).trans_sameButMem (faultEnter_frame _ _ rfl rfl)⟩)
  · obtain ⟨hself, hfar⟩ := h
    have heq := (selfDoneDev_of_pass hself).trans (selfConclude_of_open hfar)
    exact completes_done (exec_selftestDone s true)
      (heq ▸ ⟨selfEnded_get true (.inl (by decide)), selfEnded_selftest true, rfl, rfl, selfEnded_frame true⟩)
  · obtain ⟨hself, hfar, hhome, hpassive⟩ := h
    have hhome' : (selfEnded true s.dev).bit F.PAIR_CFG.HOME = true := ((selfEnded_frame true).bit (by decide)).trans hhome
    have hstate' : (selfEnded true s.dev).pairState = pairPassive := (selfEnded_get true (.inl (by decide))).trans hpassive
    obtain ⟨x, hconclude⟩ := selfConclude_of_divergence (e := selfEnded true s.dev) rfl hfar hhome' (hstate'.trans_ne (by decide))
    have heq := (selfDoneDev_of_pass hself).trans hconclude
    have hended : SameBut [R.PAIR_STATUS] [.pr] s.dev ((selfEnded true s.dev).withPair x) := (selfEnded_frame true).withPair x (by simp)
    have hepoch : ((selfEnded true s.dev).withPair x).get F.PAIR_STATUS.EPOCH = s.dev.get F.PAIR_STATUS.EPOCH :=
      selfEnded_get true (.inr (by decide))
    exact completes_done (exec_selftestDone s true)
      (heq ▸ ⟨enterPair_pairState _ _ (by decide), faultEnter_flag _ _ rfl rfl rfl (by decide), faultEnter_code _ _ rfl,
        (faultEnter_get _ _ rfl rfl rfl (by decide) (by decide)).trans hepoch,
        (hended.mono (by simp [pairRegs]) (by simp)).trans_sameButMem (faultEnter_frame _ _ rfl rfl)⟩)
  · obtain ⟨hcycles, hdone, hdown⟩ := h
    have heq : cycleCommitDev s.dev = cycleCommitted s.dev x rest := by rw [cycleCommitDev_of_done hcycles hdone, hdown]; rfl
    have hhold (p : Fin 4) (hp : s.dev.spState p = spHold) (hlate : x.late = false) : ((cycleCommitted s.dev x rest).spout p).next = some spRun := by
      rw [cycleCommitted, hlate]
      exact spoutCommit_next_of_hold _ _ hp
    have hpr := cycleCommitted_pr s.dev x rest
    have hobjs : (cycleCommitted s.dev x rest).jud.objs = s.dev.jud.objs := by rw [cycleCommitted_jud]
    exact completes_done (exec_cycleCommit s)
      (heq ▸ ⟨congrArg Pair.cycles hpr, congrArg (fun p : Pair => p.own.head?) hpr, hhold, spoutCommit_windows _ _ _, hobjs,
        cycleCommitted_no_records _ _ _, cycleCommitted_frame _ _ _⟩)
  · obtain ⟨hcycles, hdone, hup, rfl, hfar⟩ := h
    have hpr := cycleSent_pr s.dev x rest
    have hfar' : (cycleSent s.dev x rest).pr.far.find? (fun e => e.cycle = x.cycle) = none := by rw [hpr]; exact hfar
    have heq : cycleCommitDev s.dev = cycleSent s.dev x rest := by
      rw [cycleCommitDev_of_done hcycles hdone, if_pos hup, compareCycle_of_no_far hfar']
    exact completes_done (exec_cycleCommit s)
      (heq ▸ ⟨cycleSent_ready _ _ _ (port_lt_of_privateUp hup), congrArg Pair.cycles hpr, congrArg Pair.selfOut hpr, cycleSent_frame _ _ _⟩)
  · exact completes_done (exec_cycleCommit s) (cycleCommitDev_eq_self h)
  · exact completes_done (exec_commitDeadline s) (commitDeadlineDev_holds h)
  · exact completes_done (exec_commitDeadline s) (commitDeadlineDev_eq_self h)

end Sys2Proof.Machine

/-! # Lanes of a peer port

What powering a lane of a peer port up and down, the end of its training, and symbols that leave on it change (R48, R50, R51). -/

namespace Sys2Proof.Machine

/-! ## One lane -/

/-- A lane of a peer port. -/
def IsPeerLane (l : Lane) : Prop := ∃ n k, l = .peerRx n k ∨ l = .peerTx n k

theorem isPeerLane_peerRxLane (n k : Nat) : IsPeerLane (peerRxLane n k) := ⟨_, _, .inl rfl⟩

theorem isPeerLane_peerTxLane (n k : Nat) : IsPeerLane (peerTxLane n k) := ⟨_, _, .inr rfl⟩

theorem isPeerLane_of_mem {n : Nat} : ∀ l ∈ peerLanes n, IsPeerLane l := by
  simp [peerLanes, isPeerLane_peerRxLane, isPeerLane_peerTxLane]

theorem laneIdx_lt (l : Lane) : laneIdx l < 88 := by
  cases l <;> simp only [laneIdx] <;> omega

theorem Device.laneX_setLaneX_self (d : Device) (l : Lane) (x : LaneX) : (d.setLaneX l x).laneX l = x := unit_withUnit_self _ (laneIdx_lt l) _

/-- The registers of a lane that the end of its training writes (R48). -/
def trainRegs (l : Lane) : List Nat := [R.LN_CTRL (laneBase l), R.LN_FAR_TAPS (laneBase l), R.LN_FLAGS (laneBase l)]

/-- The registers of a lane that a power-down may write. -/
def powerRegs (l : Lane) : List Nat := trainRegs l ++ [R.LN_STATUS (laneBase l), R.LN_EYE (laneBase l)]

section
variable (d : Device) (l : Lane)

theorem trainFinish_frame (t : Training) (fail : Bool) : SameBut (trainRegs l) [.lanes, .evt] d (trainFinish d l t fail) := by
  have hready : SameBut (trainRegs l) [.lanes, .evt] d ((d.setLaneX l { d.laneX l with train := none }).setBit (F.LN_CTRL.RETRAIN (laneBase l)) false) :=
    ((SameBut.refl _ _ d).setLaneX _ _ (by simp)).setBit _ (by simp [trainRegs])
  unfold trainFinish
  dsimp only
  refine SameBut.raiseIf ?_ _ (by simp [trainRegs]) (by simp)
  cases t.reply with
  | none => exact hready.set _ (by simp [trainRegs])
  | some w => exact (hready.wr _ (by simp [trainRegs])).set _ (by simp [trainRegs])

/-- The end of a training leaves POWER as it is. -/
theorem trainFinish_power (t : Training) (fail : Bool) :
    (trainFinish d l t fail).get (F.LN_CTRL.POWER (laneBase l)) = d.get (F.LN_CTRL.POWER (laneBase l)) := by
  have hrest : SameBut [R.LN_FAR_TAPS (laneBase l), R.LN_FLAGS (laneBase l)] [.evt]
      ((d.setLaneX l { d.laneX l with train := none }).setBit (F.LN_CTRL.RETRAIN (laneBase l)) false) (trainFinish d l t fail) := by
    unfold trainFinish
    dsimp only
    refine SameBut.raiseIf ?_ _ (by simp) (by simp)
    cases t.reply with
    | none => exact (SameBut.refl _ _ _).set _ (by simp)
    | some w => exact ((SameBut.refl _ _ _).wr _ (by simp)).set _ (by simp)
  rw [hrest.get (by simp)]
  exact Device.get_set_ne _ _ _ _ (.inr (.inr (by simp)))

theorem trainCut_frame : SameBut (trainRegs l) [.lanes, .evt] d (trainCut d l) := by
  unfold trainCut
  split
  · exact trainFinish_frame d l _ _
  · exact .refl _ _ d

theorem trainCut_power : (trainCut d l).get (F.LN_CTRL.POWER (laneBase l)) = d.get (F.LN_CTRL.POWER (laneBase l)) := by
  unfold trainCut
  split
  · exact trainFinish_power d l _ _
  · rfl

variable {l} (hl : IsPeerLane l)
include hl

theorem lnEnter_of_peer (st : Nat) : d.lnEnter l st =
    if d.lnState l = lnSync ∧ st ≠ lnSync then
      ((d.set (F.LN_STATUS.STATE (laneBase l)) st).set (F.LN_EYE.VALID (laneBase l)) 0).setLaneX l { d.laneX l with rx := [] }
    else d.set (F.LN_STATUS.STATE (laneBase l)) st := by
  obtain ⟨n, k, rfl | rfl⟩ := hl <;> rfl

theorem lnEnter_frame (st : Nat) : SameBut [R.LN_STATUS (laneBase l), R.LN_EYE (laneBase l)] [.lanes] d (d.lnEnter l st) := by
  have hset : SameBut [R.LN_STATUS (laneBase l), R.LN_EYE (laneBase l)] [.lanes] d (d.set (F.LN_STATUS.STATE (laneBase l)) st) :=
    (SameBut.refl _ _ d).set _ (by simp)
  rw [lnEnter_of_peer d hl]
  split
  · exact (hset.set _ (by simp)).setLaneX _ _ (by simp)
  · exact hset

theorem lnEnter_lnState {st : Nat} (hst : st < 16) : (d.lnEnter l st).lnState l = st := by
  have hset : (d.set (F.LN_STATUS.STATE (laneBase l)) st).lnState l = st :=
    (Device.get_set_self _ _ _ (by simp)).trans (Nat.mod_eq_of_lt hst)
  rw [lnEnter_of_peer d hl]
  split
  · have heye : SameBut [R.LN_EYE (laneBase l)] [.lanes] (d.set (F.LN_STATUS.STATE (laneBase l)) st)
        (((d.set (F.LN_STATUS.STATE (laneBase l)) st).set (F.LN_EYE.VALID (laneBase l)) 0).setLaneX l { d.laneX l with rx := [] }) :=
      ((SameBut.refl _ _ _).set _ (by simp)).setLaneX _ _ (by simp)
    exact (heye.get (by simp)).trans hset
  · exact hset

/-! ## Power (R50, R51) -/

omit hl in
theorem lnPowerDown_eq (standby : Bool) : ∃ x, lnPowerDown d l standby =
    ((trainCut ((d.set (F.LN_CTRL.POWER (laneBase l)) (if standby then 1 else 0)).setBit (F.LN_STATUS.ENABLE_PENDING (laneBase l)) false)
      l).setLaneX l x).lnEnter l
      (if d.lnState l = lnOff ∨ d.lnState l = lnStandby ∨ d.lnState l = lnWaking then (if standby then lnStandby else lnOff) else lnShutdown) := by
  unfold lnPowerDown
  exact ⟨_, (apply_ite (Device.lnEnter _ l) _ _ _).symm⟩

theorem lnPowerDown_frame (standby : Bool) : SameBut (powerRegs l) [.lanes, .evt] d (lnPowerDown d l standby) := by
  obtain ⟨x, heq⟩ := lnPowerDown_eq d standby
  have hset : SameBut (powerRegs l) [.lanes, .evt] d
      ((d.set (F.LN_CTRL.POWER (laneBase l)) (if standby then 1 else 0)).setBit (F.LN_STATUS.ENABLE_PENDING (laneBase l)) false) :=
    ((SameBut.refl _ _ d).set _ (by simp [powerRegs, trainRegs])).setBit _ (by simp [powerRegs])
  rw [heq]
  exact ((hset.then (trainCut_frame _ l) (by simp [powerRegs]) (by simp)).setLaneX _ _ (by simp)).then (lnEnter_frame _ hl _)
    (by simp [powerRegs]) (by simp)

/-- POWER := OFF: the lane is OFF at once, or goes there through SHUTDOWN. -/
theorem lnPowerDown_off : (lnPowerDown d l false).get (F.LN_CTRL.POWER (laneBase l)) = 0 ∧ (lnPowerDown d l false).lnState l =
    if d.lnState l = lnOff ∨ d.lnState l = lnStandby ∨ d.lnState l = lnWaking then lnOff else lnShutdown := by
  obtain ⟨x, heq⟩ := lnPowerDown_eq d false
  rw [heq]
  refine ⟨?_, lnEnter_lnState _ hl ?_⟩
  · rw [(lnEnter_frame _ hl _).get (by simp)]
    exact (trainCut_power _ l).trans ((Device.get_set_ne _ _ _ _ (.inl (by simp))).trans (Device.get_set_self _ _ _ (by simp)))
  · split <;> decide

omit hl in
theorem lnPowerUp_of_applied (happlied : d.slu.applied = true) : lnPowerUp d l =
    if d.lnState l = lnOff ∨ d.lnState l = lnStandby then (d.set (F.LN_CTRL.POWER (laneBase l)) 2).lnEnter l lnWaking
    else if d.lnState l = lnShutdown then (d.set (F.LN_CTRL.POWER (laneBase l)) 2).set (F.LN_STATUS.ENABLE_PENDING (laneBase l)) 1
    else d.set (F.LN_CTRL.POWER (laneBase l)) 2 :=
  if_neg (by simp [happlied])

theorem lnPowerUp_of_not_applied (happlied : d.slu.applied = false) : lnPowerUp d l = d := by
  obtain ⟨n, k, rfl | rfl⟩ := hl <;> exact if_pos (by simp [happlied, laneIsEth])

theorem lnPowerUp_frame : SameBut (powerRegs l) [.lanes] d (lnPowerUp d l) := by
  have hset : SameBut (powerRegs l) [.lanes] d (d.set (F.LN_CTRL.POWER (laneBase l)) 2) := (SameBut.refl _ _ d).set _ (by simp [powerRegs, trainRegs])
  cases happlied : d.slu.applied with
  | false =>
    rw [lnPowerUp_of_not_applied d hl happlied]
    exact .refl _ _ d
  | true =>
    rw [lnPowerUp_of_applied d happlied]
    split
    · exact hset.then (lnEnter_frame _ hl _) (by simp [powerRegs]) (by simp)
    · split
      · exact hset.set _ (by simp [powerRegs])
      · exact hset

/-- POWER := ACTIVE after the first apply: from OFF and STANDBY the lane wakes. -/
theorem lnPowerUp_on (happlied : d.slu.applied = true) : (lnPowerUp d l).get (F.LN_CTRL.POWER (laneBase l)) = 2 ∧
    (lnPowerUp d l).lnState l = if d.lnState l = lnOff ∨ d.lnState l = lnStandby then lnWaking else d.lnState l := by
  have hpower : (d.set (F.LN_CTRL.POWER (laneBase l)) 2).get (F.LN_CTRL.POWER (laneBase l)) = 2 := Device.get_set_self _ _ _ (by simp)
  have hstate : (d.set (F.LN_CTRL.POWER (laneBase l)) 2).lnState l = d.lnState l := Device.get_set_ne _ _ _ _ (.inl (by simp))
  rw [lnPowerUp_of_applied d happlied]
  split
  · exact ⟨((lnEnter_frame _ hl _).get (by simp)).trans hpower, lnEnter_lnState _ hl (by decide)⟩
  · split
    · exact ⟨(Device.get_set_ne _ _ _ _ (.inl (by simp))).trans hpower, (Device.get_set_ne _ _ _ _ (.inr (.inr (by simp)))).trans hstate⟩
    · exact ⟨hpower, hstate⟩

end

/-! ## The four lanes of a port -/

/-- The four lanes of port `n` are powered down. -/
def lanesDown (n : Nat) (d : Device) : Device := (peerLanes n).foldl (fun d l => lnPowerDown d l false) d

/-- The four lanes of port `n` are powered up. -/
def lanesUp (n : Nat) (d : Device) : Device := (peerLanes n).foldl lnPowerUp d

/-- The registers of the lanes of port `n` that powering them may write. -/
def lanesRegs (n : Nat) : List Nat := (peerLanes n).flatMap powerRegs

theorem powerRegs_subset_lanesRegs {n : Nat} {l : Lane} (h : l ∈ peerLanes n) : powerRegs l ⊆ lanesRegs n :=
  fun _ ha => List.mem_flatMap.2 ⟨l, h, ha⟩

theorem peerRxLane_mem (n : Fin 3) (k : Fin 2) : peerRxLane n k ∈ peerLanes n := by decide +revert

theorem peerTxLane_mem (n : Fin 3) (k : Fin 2) : peerTxLane n k ∈ peerLanes n := by decide +revert

theorem peerLanes_nodup (n : Fin 3) : (peerLanes n).Nodup := by decide +revert

theorem powerRegs_disjoint (n : Fin 3) : ∀ l ∈ peerLanes n, ∀ j ∈ peerLanes n, j ≠ l → ∀ a ∈ powerRegs l, a ∉ powerRegs j := by
  decide +kernel +revert

section
variable (n : Fin 3) (d : Device)

theorem lanesUp_frame : SameBut (lanesRegs n) [.lanes] d (lanesUp n d) :=
  SameBut.foldl fun d l hl => (lnPowerUp_frame d (isPeerLane_of_mem l hl)).mono_regs (powerRegs_subset_lanesRegs hl)

variable {n} {l : Lane} (hl : l ∈ peerLanes n)
include hl

/-- What powers another lane keeps POWER and the state of lane `l`. -/
theorem SameBut.lane_power_state {e : Device} {j : Lane} {ps : List Part} (hj : j ∈ peerLanes n) (hne : j ≠ l) (h : SameBut (powerRegs j) ps d e) :
    e.get (F.LN_CTRL.POWER (laneBase l)) = d.get (F.LN_CTRL.POWER (laneBase l)) ∧ e.lnState l = d.lnState l :=
  have hregs := powerRegs_disjoint n l hl j hj hne
  ⟨h.get (hregs _ (by simp [powerRegs, trainRegs])), h.get (hregs _ (by simp [powerRegs]))⟩

theorem lanesDown_off : (lanesDown n d).get (F.LN_CTRL.POWER (laneBase l)) = 0 ∧ (lanesDown n d).lnState l =
    if d.lnState l = lnOff ∨ d.lnState l = lnStandby ∨ d.lnState l = lnWaking then lnOff else lnShutdown := by
  refine foldl_at (k := l) (Q := fun e : Device => e.lnState l = d.lnState l) (P := fun e : Device => e.get (F.LN_CTRL.POWER (laneBase l)) = 0 ∧
      e.lnState l = if d.lnState l = lnOff ∨ d.lnState l = lnStandby ∨ d.lnState l = lnWaking then lnOff else lnShutdown)
    (fun e he => ?_) (peerLanes_nodup n) hl (fun e j hj hne he => ?_) (fun e j hj hne he => ?_) rfl
  · rw [← he]
    exact lnPowerDown_off e (isPeerLane_of_mem l hl)
  · exact (SameBut.lane_power_state e hl hj hne (lnPowerDown_frame e (isPeerLane_of_mem j hj) false)).2.trans he
  · obtain ⟨hpower, hstate⟩ := SameBut.lane_power_state e hl hj hne (lnPowerDown_frame e (isPeerLane_of_mem j hj) false)
    exact ⟨hpower.trans he.1, hstate.trans he.2⟩

theorem lanesUp_on (happlied : d.slu.applied = true) : (lanesUp n d).get (F.LN_CTRL.POWER (laneBase l)) = 2 ∧
    (lanesUp n d).lnState l = if d.lnState l = lnOff ∨ d.lnState l = lnStandby then lnWaking else d.lnState l := by
  have hkeeps (e : Device) (j : Lane) (hj : j ∈ peerLanes n) := lnPowerUp_frame e (isPeerLane_of_mem j hj)
  refine foldl_at (k := l) (Q := fun e : Device => e.slu.applied = true ∧ e.lnState l = d.lnState l)
    (P := fun e : Device => e.get (F.LN_CTRL.POWER (laneBase l)) = 2 ∧
      e.lnState l = if d.lnState l = lnOff ∨ d.lnState l = lnStandby then lnWaking else d.lnState l)
    (fun e he => ?_) (peerLanes_nodup n) hl (fun e j hj hne he => ?_) (fun e j hj hne he => ?_) ⟨happlied, rfl⟩
  · rw [← he.2]
    exact lnPowerUp_on e (isPeerLane_of_mem l hl) he.1
  · exact ⟨(congrArg Sluice.applied ((hkeeps e j hj).parts .slu (by simp))).trans he.1, (SameBut.lane_power_state e hl hj hne (hkeeps e j hj)).2.trans he.2⟩
  · obtain ⟨hpower, hstate⟩ := SameBut.lane_power_state e hl hj hne (hkeeps e j hj)
    exact ⟨hpower.trans he.1, hstate.trans he.2⟩

omit hl in
theorem lanesUp_of_not_applied (happlied : d.slu.applied = false) : lanesUp n d = d :=
  foldl_eq_self_of_forall_mem fun l hl => lnPowerUp_of_not_applied d (isPeerLane_of_mem l hl) happlied

/-- No lane that is powered up comes to SYNC by that. -/
theorem lanesUp_sync : (lanesUp n d).lnState l = lnSync ↔ d.lnState l = lnSync := by
  cases happlied : d.slu.applied with
  | false => rw [lanesUp_of_not_applied d happlied]
  | true =>
    rw [(lanesUp_on d hl happlied).2]
    split
    next hoff => rcases hoff with hoff | hoff <;> simp [hoff, lnWaking, lnSync, lnOff, lnStandby]
    next => rfl

end

theorem lanesUp_peerSync (n : Fin 3) (d : Device) : peerSync (lanesUp n d) n = peerSync d n := by
  have hsync (k : Fin 2) : ((lanesUp n d).lnState (peerRxLane n k) == lnSync) = (d.lnState (peerRxLane n k) == lnSync) :=
    Bool.eq_iff_iff.2 (by simpa using lanesUp_sync d (peerRxLane_mem n k))
  exact congrArg₂ (· && ·) (hsync 0) (hsync 1)

/-! ## Symbols that leave (R36, R52) -/

section
variable (d : Device) (l : Lane)

theorem lnSend_frame (syms : List (Nat × Bool)) : SameBut [R.LN_STATUS (laneBase l)] [.lanes] d (lnSend d l syms) := by
  have hrefl : SameBut [R.LN_STATUS (laneBase l)] [.lanes] d d := .refl _ _ d
  unfold lnSend lnOut
  dsimp only
  split
  · exact hrefl
  · split
    · exact (hrefl.setLaneX _ _ (by simp)).setLaneX _ _ (by simp)
    · exact (hrefl.setBit _ (by simp)).setLaneX _ _ (by simp)

end

end Sys2Proof.Machine

/-! # The link of a peer port

What entering a state, the loss of the link and a time-out in bring-up change (R445, R447, Table 21.6), and what a reset of the far device as a
master releases (R358, R362). -/

namespace Sys2Proof.Machine

/-! ## A reset of a master (Table 16.2) -/

/-- The registers of locks and mailboxes that a reset of a master may write. -/
def masterRegs : List Nat := (List.range 64).map R.LCKk ++ [R.LCK_FLAGS] ++ (List.range 32).map R.MBXk_STATUS

theorem lt_of_mem_masterRegs {a : Nat} (h : a ∈ masterRegs) : a < 0x10070000 := by
  simp only [masterRegs, List.mem_append, List.mem_map, List.mem_range, List.mem_singleton] at h
  rcases h with (⟨k, hk, rfl⟩ | rfl) | ⟨k, hk, rfl⟩
  · unfold R.LCKk; omega
  · decide
  · unfold R.MBXk_STATUS; omega

section
variable (d : Device) (m : Nat)

/-- Lock `k` is released where master `m` holds it. -/
def lockReleased (k : Nat) : Device := if (d.rd (R.LCKk k)).toNat = m + 1 then d.wr (R.LCKk k) 0#32 else d

theorem lockReleased_frame (k : Nat) : SameBut [R.LCKk k] [] d (lockReleased d m k) :=
  iteInduction (fun _ => (SameBut.refl _ _ d).wr _ (by simp)) fun _ => .refl _ _ d

theorem lockMasterReset_eq : lockMasterReset d m = lockFlag ((List.range 64).foldl (fun d k => lockReleased d m k) d) F.LCK_FLAGS.RESET_REL := rfl

theorem lockMasterReset_frame : SameBut masterRegs [.evt] d (lockMasterReset d m) := by
  rw [lockMasterReset_eq]
  exact SameBut.lockFlag (SameBut.foldl fun d k hk => (lockReleased_frame d m k).mono
    (List.cons_subset.2 ⟨List.mem_append_left _ (List.mem_append_left _ (List.mem_map_of_mem hk)), List.nil_subset _⟩) (by simp)) (by simp) (by simp)

/-- Mailbox `k` after a reset of the master that is its receiver or its sender (R358). -/
def mailboxReset (k : Nat) : Device :=
  let d1 := if d.get (F.MBXk_BIND.RECEIVER k) = m ∧ d.bit (F.MBXk_STATUS.FULL k) then d.set (F.MBXk_STATUS.STALE k) 1 else d
  if d.get (F.MBXk_BIND.SENDER k) = m then d1.set (F.MBXk_STATUS.SENDER_RESET k) 1 else d1

theorem mbxMasterReset_frame : SameBut ((List.range 32).map R.MBXk_STATUS) [] d (mbxMasterReset d m) :=
  SameBut.foldl (f := fun d k => mailboxReset d m k) fun d k hk => by
    have hmem : R.MBXk_STATUS k ∈ (List.range 32).map R.MBXk_STATUS := List.mem_map_of_mem hk
    have hstale : SameBut ((List.range 32).map R.MBXk_STATUS) [] d
        (if d.get (F.MBXk_BIND.RECEIVER k) = m ∧ d.bit (F.MBXk_STATUS.FULL k) then d.set (F.MBXk_STATUS.STALE k) 1 else d) :=
      iteInduction (fun _ => (SameBut.refl _ _ d).set _ hmem) fun _ => .refl _ _ d
    exact iteInduction (fun _ => hstale.set _ hmem) fun _ => hstale

theorem masterReset_frame : SameBut masterRegs [.evt] d (masterReset d m) :=
  (lockMasterReset_frame d m).then (mbxMasterReset_frame _ m) (List.subset_append_right _ _) (by simp)

/-- The master's locks are free. -/
theorem masterReset_lock {k : Fin 64} (h : (d.rd (R.LCKk k)).toNat = m + 1) : (masterReset d m).rd (R.LCKk k) = 0 := by
  have hmailbox : R.LCKk k ∉ (List.range 32).map R.MBXk_STATUS := by
    simp only [List.mem_map, List.mem_range, not_exists, not_and, R.LCKk, R.MBXk_STATUS]
    omega
  have hflag : R.LCKk k ≠ R.LCK_FLAGS := by unfold R.LCKk R.LCK_FLAGS; omega
  rw [masterReset, (mbxMasterReset_frame _ m).regs _ hmailbox, lockMasterReset_eq, lockFlag_rd, Device.rd_set_ne _ _ _ _ hflag]
  have hkeeps (e : Device) (j : Nat) (hne : j ≠ k) : (lockReleased e m j).rd (R.LCKk k) = e.rd (R.LCKk k) :=
    (lockReleased_frame e m j).regs _ (by simp only [List.mem_singleton, R.LCKk]; omega)
  refine foldl_at (k := k.val) (Q := fun e : Device => (e.rd (R.LCKk k)).toNat = m + 1) (P := fun e : Device => e.rd (R.LCKk k) = 0) (fun e he => ?_)
    List.nodup_range (List.mem_range.2 k.isLt) (fun e j _ hne he => ?_) (fun e j _ hne he => (hkeeps e j hne).trans he) h
  · rw [lockReleased, if_pos he, Device.rd_wr_self]
    rfl
  · rw [hkeeps e j hne]
    exact he

end

/-! ## Addresses of a port -/

/-- The registers that the end of training on a port's lanes writes. -/
def portTrainRegs (n : Fin 3) : List Nat := trainRegs (peerRxLane n 0) ++ trainRegs (peerRxLane n 1)

/-- The registers that a lost link may write beside its flag and its counts, and those of its locks and mailboxes. -/
def portLossRegs (n : Fin 3) : List Nat := portTrainRegs n ++ [R.PEERn_STATUS n, R.PAIR_STATUS, R.PAIR_FLAGS]

/-- The registers that show a lost link. -/
def portShowRegs (n : Fin 3) : List Nat := [R.CHAIN_FWD_DROP, R.PEERn_LINK_LOSS n, R.PEERn_FLAGS n]

section
variable (n : Fin 3)

theorem le_of_mem_portRegs : ∀ a ∈ portLossRegs n ++ portShowRegs n, 0x10070000 ≤ a := by decide +revert

theorem PEERn_STATUS_away : R.PEERn_STATUS n ∉ [R.PAIR_STATUS] := by decide +revert

theorem PEERn_STATUS_not_mem_PAIR_FLAGS : R.PEERn_STATUS n ∉ [R.PAIR_FLAGS] := by decide +revert

theorem PEERn_STATUS_not_mem_lanesRegs : R.PEERn_STATUS n ∉ lanesRegs n := by decide +revert

theorem PEERn_FLAGS_not_mem_portLossRegs : R.PEERn_FLAGS n ∉ portLossRegs n := by decide +revert

theorem PEERn_LINK_LOSS_not_mem_portLossRegs : R.PEERn_LINK_LOSS n ∉ portLossRegs n := by decide +revert

theorem PEERn_FLAGS_not_mem_counts : R.PEERn_FLAGS n ∉ [R.CHAIN_FWD_DROP, R.PEERn_LINK_LOSS n] := by decide +revert

theorem PEERn_LINK_LOSS_away : R.PEERn_LINK_LOSS n ≠ R.PEERn_FLAGS n ∧ R.PEERn_LINK_LOSS n ∉ [R.CHAIN_FWD_DROP] := by decide +revert

theorem LN_STATUS_away : ∀ l ∈ peerLanes n, R.LN_STATUS (laneBase l) ∉ portLossRegs n ++ portShowRegs n ∧ 0x10070000 ≤ R.LN_STATUS (laneBase l) := by
  decide +revert

end

/-! ## States of a port -/

section
variable (n : Fin 3) (d : Device)

/-- The port is in the state `st`, where its columns and its greeting start anew. -/
def portIn (st : Nat) : Device := (d.set (F.PEERn_STATUS.STATE n) st).setPeer n { d.peer n with deskewOk := 0, deskewBad := 0, greeted := false }

theorem peerEnter_frame_of_portIn (st : Nat) : SameBut [R.PAIR_STATUS] [] (portIn n d st) (peerEnter d n st) := by
  have hentered : SameBut [R.PAIR_STATUS] [] (portIn n d st) (portIn n d st) := .refl _ _ _
  unfold peerEnter
  dsimp only
  split
  · exact hentered.setBit _ (by simp)
  · exact hentered

theorem peerEnter_frame (st : Nat) : SameBut [R.PEERn_STATUS n, R.PAIR_STATUS] [.peers] d (peerEnter d n st) :=
  (((SameBut.refl _ _ d).set _ (by simp)).setPeer _ _ (by simp)).then (peerEnter_frame_of_portIn n d st) (by simp) (by simp)

theorem peerEnter_peerState {st : Nat} (hst : st < 16) : (peerEnter d n st).peerState n = st := by
  have hset : (portIn n d st).peerState n = st := (Device.get_set_self _ _ _ (by simp)).trans (Nat.mod_eq_of_lt hst)
  exact ((peerEnter_frame_of_portIn n d st).get (PEERn_STATUS_away n)).trans hset

theorem peerEnter_peer (st : Nat) : (peerEnter d n st).peer n = { d.peer n with deskewOk := 0, deskewBad := 0, greeted := false } :=
  ((peerEnter_frame_of_portIn n d st).peer (by simp) n).trans (Device.peer_setPeer_self _ n.isLt _)

theorem dropReady_frame : SameBut [R.CHAIN_FWD_DROP] [] d (dropReady d n) := (SameBut.refl _ _ d).count _ (by simp)

theorem peerTrainStop_frame : SameBut (portTrainRegs n) [.lanes, .evt] d (peerTrainStop d n) :=
  SameBut.foldl fun d l hl => by
    have hsub : trainRegs l ⊆ portTrainRegs n := by
      rcases List.mem_pair.1 hl with rfl | rfl
      · exact List.subset_append_left _ _
      · exact List.subset_append_right _ _
    exact ((trainCut_frame d l).mono_regs hsub).setBit _ (hsub (by simp [trainRegs]))

end

/-! ## Loss of the link (R445, R447) -/

section
variable (n : Fin 3) (d : Device)

/-- The loss of the link shows in its flag and its count. -/
def lossShown : Device := ((dropReady d n).count (F.PEERn_LINK_LOSS.COUNT n)).raise (F.PEERn_FLAGS.LINK_LOST n)

/-- What the far device held as a master is free. -/
def farReset : Device := masterReset (peerTrainStop (lossShown n d) n) (6 + n)

/-- The port waits for its lanes. -/
def portWaits : Device := peerEnter ((farReset n d).setPeer n (freshPeer ((farReset n d).peer n))) n plLaneWake

/-- The link is lost; the partner is, too, where it is the link of the pair. -/
def linkLost : Device :=
  if isPrivate d n then ((portWaits n d).raise F.PAIR_FLAGS.PEER_LOST).withPair { (portWaits n d).pr with lost := true } else portWaits n d

theorem peerLoss_eq : peerLoss n d = if peerSync (linkLost n d) n then peerTrainFrom (peerEnter (linkLost n d) n plTrain) n 3 0 else linkLost n d := rfl

theorem lossShown_frame : SameBut (portShowRegs n) [.evt] d (lossShown n d) :=
  (((dropReady_frame n d).mono (by simp [portShowRegs]) (by simp)).count _ (by simp [portShowRegs])).raise (by simp [portShowRegs]) (by simp)

theorem farReset_frame : SameBut (portTrainRegs n ++ masterRegs) [.lanes, .evt] (lossShown n d) (farReset n d) :=
  ((peerTrainStop_frame n _).mono_regs (List.subset_append_left _ _)).then (masterReset_frame _ _) (List.subset_append_right _ _) (by simp)

theorem portWaits_frame : SameBut [R.PEERn_STATUS n, R.PAIR_STATUS] [.peers] (farReset n d) (portWaits n d) :=
  ((SameBut.refl _ _ _).setPeer _ _ (by simp)).trans (peerEnter_frame n _ _)

theorem linkLost_frame_of_portWaits : SameBut [R.PAIR_FLAGS] [.evt, .pr] (portWaits n d) (linkLost n d) :=
  iteInduction (fun _ => ((SameBut.refl _ _ _).raise (by simp) (by simp)).withPair _ (by simp)) fun _ => .refl _ _ _

theorem linkLost_frame_of_lossShown : SameBut (portLossRegs n ++ masterRegs) [.lanes, .evt, .peers, .pr] (lossShown n d) (linkLost n d) :=
  (((farReset_frame n d).mono (by intro a; simp only [portLossRegs, List.mem_append]; tauto) (by simp)).then (portWaits_frame n d) (by simp [portLossRegs]) (by simp)).then
    (linkLost_frame_of_portWaits n d) (by simp [portLossRegs]) (by simp)

variable {n} in
theorem not_mem_lossRegs {a : Nat} (hlo : 0x10070000 ≤ a) (h : a ∉ portLossRegs n) : a ∉ portLossRegs n ++ masterRegs := fun hmem =>
  (List.mem_append.1 hmem).elim h fun hmaster => Nat.not_lt.2 hlo (lt_of_mem_masterRegs hmaster)

variable {n} in
theorem not_mem_lossRegs_of_show {a : Nat} (hshow : a ∈ portShowRegs n) (h : a ∉ portLossRegs n) : a ∉ portLossRegs n ++ masterRegs :=
  not_mem_lossRegs (le_of_mem_portRegs n a (List.mem_append_right _ hshow)) h

/-- The flags of the port but LINK_LOST stay as they were. -/
theorem linkLost_flag {f : Fld} (ha : f.addr = R.PEERn_FLAGS n) (hf : 1 < f.lo) : (linkLost n d).get f = d.get f := by
  have hcounted : SameBut [R.CHAIN_FWD_DROP, R.PEERn_LINK_LOSS n] [] d ((dropReady d n).count (F.PEERn_LINK_LOSS.COUNT n)) :=
    ((dropReady_frame n d).mono (by simp) (by simp)).count _ (by simp)
  rw [(linkLost_frame_of_lossShown n d).get
      (ha ▸ not_mem_lossRegs_of_show (by simp [portShowRegs]) (PEERn_FLAGS_not_mem_portLossRegs n)),
    lossShown, Device.get_raise, Device.get_set_ne _ _ _ _ (.inr (.inl hf)), hcounted.get (ha ▸ PEERn_FLAGS_not_mem_counts n)]

theorem linkLost_lost : (linkLost n d).get (F.PEERn_FLAGS.LINK_LOST n) = 1 := by
  rw [(linkLost_frame_of_lossShown n d).get (not_mem_lossRegs_of_show (by simp [portShowRegs]) (PEERn_FLAGS_not_mem_portLossRegs n)),
    lossShown, Device.get_raise_self _ _ rfl (by simp)]

theorem linkLost_count : (linkLost n d).get (F.PEERn_LINK_LOSS.COUNT n) = min (d.get (F.PEERn_LINK_LOSS.COUNT n) + 1) 0xFFFFFFFF := by
  obtain ⟨hflags, hdrop⟩ := PEERn_LINK_LOSS_away n
  rw [(linkLost_frame_of_lossShown n d).get (not_mem_lossRegs_of_show (by simp [portShowRegs]) (PEERn_LINK_LOSS_not_mem_portLossRegs n)),
    lossShown, Device.get_raise, Device.get_set_ne _ _ _ _ (.inl hflags), Device.get_count_saturating _ _ _ (by simp), (dropReady_frame n d).get hdrop]
  rfl

theorem linkLost_peerState : (linkLost n d).peerState n = plLaneWake :=
  ((linkLost_frame_of_portWaits n d).get (PEERn_STATUS_not_mem_PAIR_FLAGS n)).trans (peerEnter_peerState n _ (by decide))

theorem linkLost_peer : ∃ x, (linkLost n d).peer n = freshPeer x := by
  refine ⟨(farReset n d).peer n, ((linkLost_frame_of_portWaits n d).peer (by simp) n).trans ?_⟩
  rw [portWaits, peerEnter_peer, Device.peer_setPeer_self _ n.isLt]
  rfl

theorem linkLost_lock {k : Fin 64} (h : (d.rd (R.LCKk k)).toNat = 7 + n) : (linkLost n d).rd (R.LCKk k) = 0 := by
  have hlow : R.LCKk k < 0x10070000 := by unfold R.LCKk; omega
  have haway {as : List Nat} (hsub : as ⊆ portLossRegs n ++ portShowRegs n) : R.LCKk k ∉ as := fun hmem =>
    Nat.not_lt.2 (le_of_mem_portRegs n _ (hsub hmem)) hlow
  rw [(linkLost_frame_of_portWaits n d).regs _ (haway (by simp [portLossRegs])),
    (portWaits_frame n d).regs _ (haway (by simp [portLossRegs])), farReset]
  refine masterReset_lock _ _ ?_
  rw [(peerTrainStop_frame n _).regs _ (haway (by simp [portLossRegs])), (lossShown_frame n d).regs _ (haway (by simp)), h]
  omega

theorem linkLost_of_pair (h : isPrivate d n = true) : (linkLost n d).get F.PAIR_FLAGS.PEER_LOST = 1 ∧ (linkLost n d).pr.lost = true := by
  rw [linkLost, if_pos h]
  exact ⟨Device.get_raise_self _ _ rfl (by decide), rfl⟩

variable {n d} in
theorem peerSync_congr {e : Device} (h : ∀ k : Fin 2, e.lnState (peerRxLane n k) = d.lnState (peerRxLane n k)) : peerSync e n = peerSync d n :=
  congrArg₂ (· && ·) (congrArg (· == lnSync) (h 0)) (congrArg (· == lnSync) (h 1))

theorem linkLost_peerSync : peerSync (linkLost n d) n = peerSync d n := by
  have hlane (k : Fin 2) : (linkLost n d).lnState (peerRxLane n k) = d.lnState (peerRxLane n k) := by
    obtain ⟨haway, hlo⟩ := LN_STATUS_away n _ (peerRxLane_mem n k)
    obtain ⟨hloss, hshow⟩ := not_or.1 (mt List.mem_append.2 haway)
    exact ((linkLost_frame_of_lossShown n d).get (not_mem_lossRegs hlo hloss)).trans ((lossShown_frame n d).get hshow)
  exact peerSync_congr hlane

variable {d} in
theorem peerLoss_of_not_sync (h : peerSync d n = false) : peerLoss n d = linkLost n d := by
  rw [peerLoss_eq, linkLost_peerSync, h]
  rfl

end

/-! ## A time-out in bring-up (Table 21.6) -/

section
variable (n : Fin 3) {d : Device}

theorem peerTimeoutDev_of_bringUp (hresting : (d.peer n).resting = false) (hlo : plLaneWake ≤ d.peerState n) (hhi : d.peerState n ≤ plHello)
    (hgreeted : ¬ (d.peerState n = plHello ∧ (d.peer n).greeted = true)) : peerTimeoutDev n d =
    peerEnter ((lanesDown n (peerTrainStop (dropReady d n) n)).setPeer n { freshPeer (d.peer n) with resting := true }) n plLaneWake := by
  simp only [peerTimeoutDev, hresting, hlo, hhi, hgreeted, Bool.false_eq_true, not_false_eq_true, and_self, if_false, if_true]
  rfl

/-- The lanes of the port in a state of bring-up that has timed out. -/
theorem lanesDown_after_stop (d : Device) {l : Lane} (hl : l ∈ peerLanes n) :
    (lanesDown n (peerTrainStop (dropReady d n) n)).get (F.LN_CTRL.POWER (laneBase l)) = 0 ∧
    (lanesDown n (peerTrainStop (dropReady d n) n)).lnState l =
      if d.lnState l = lnOff ∨ d.lnState l = lnStandby ∨ d.lnState l = lnWaking then lnOff else lnShutdown := by
  obtain ⟨haway, -⟩ := LN_STATUS_away n l hl
  have hstop : R.LN_STATUS (laneBase l) ∉ portTrainRegs n := fun hmem => haway (List.mem_append_left _ (List.mem_append_left _ hmem))
  have hdrop : R.LN_STATUS (laneBase l) ∉ [R.CHAIN_FWD_DROP] := fun hmem =>
    haway (List.mem_append_right _ (List.mem_cons.2 (.inl (List.mem_singleton.1 hmem))))
  have hstate : (peerTrainStop (dropReady d n) n).lnState l = d.lnState l :=
    ((peerTrainStop_frame n _).get hstop).trans ((dropReady_frame n d).get hdrop)
  rw [← hstate]
  exact lanesDown_off _ hl

theorem peerTimeoutDev_of_resting (hresting : (d.peer n).resting = true) (hsync : peerSync d n = false) (hstate : d.peerState n = plLaneWake) :
    peerTimeoutDev n d = lanesUp n (d.setPeer n { d.peer n with resting := false }) := by
  have hup := lanesUp_frame n (d.setPeer n { d.peer n with resting := false })
  have hstate' : (lanesUp n (d.setPeer n { d.peer n with resting := false })).peerState n = plLaneWake := (hup.get (PEERn_STATUS_not_mem_lanesRegs n)).trans hstate
  have hsync' : peerSync (lanesUp n (d.setPeer n { d.peer n with resting := false })) n = false := (lanesUp_peerSync n _).trans hsync
  have hcheck : peerCheck n (lanesUp n (d.setPeer n { d.peer n with resting := false })) = lanesUp n (d.setPeer n { d.peer n with resting := false }) := by
    simp [peerCheck, hstate', hsync', plLaneWake, plUp]
  exact (if_pos hresting).trans hcheck

end

end Sys2Proof.Machine

/-! # Frames that peer ports send

What leaves at a frame boundary, and what becomes ready by the timers of a port (R444 to R446, R448, R449). -/

namespace Sys2Proof.Machine

/-! ## Columns -/

section
variable (n : Fin 3) (d : Device)

/-- The registers of the lanes that a frame leaves on. -/
def txStatusRegs : List Nat := [R.LN_STATUS (laneBase (peerTxLane n 0)), R.LN_STATUS (laneBase (peerTxLane n 1))]

theorem PEERn_FRAMES_TX_not_mem_txStatusRegs : R.PEERn_FRAMES_TX n ∉ txStatusRegs n := by decide +revert

variable (cols : List ((Nat × Bool) × (Nat × Bool)))

theorem columnsOut_eq : ∃ c a b, columnsOut d n cols =
    lnSend (lnSend (d.setPeer n { d.peer n with txCol := c }) (peerTxLane n 0) a) (peerTxLane n 1) b := ⟨_, _, _, rfl⟩

theorem columnsOut_frame : SameBut (txStatusRegs n) [.lanes, .peers] d (columnsOut d n cols) := by
  obtain ⟨c, a, b, heq⟩ := columnsOut_eq n d cols
  rw [heq]
  exact (((SameBut.refl _ _ d).setPeer _ _ (by simp)).then (lnSend_frame _ _ a) (by simp [txStatusRegs]) (by simp)).then (lnSend_frame _ _ b)
    (by simp [txStatusRegs]) (by simp)

/-- Of what the ports hold, only the count of columns of port `n` follows. -/
theorem columnsOut_peers : ∃ c, (columnsOut d n cols).peer n = { d.peer n with txCol := c } ∧
    ∀ k : Fin 3, k ≠ n → (columnsOut d n cols).peer k = d.peer k := by
  obtain ⟨c, a, b, heq⟩ := columnsOut_eq n d cols
  have hpeer (k : Nat) : (columnsOut d n cols).peer k = (d.setPeer n { d.peer n with txCol := c }).peer k := by
    rw [heq, (lnSend_frame _ _ b).peer (by simp), (lnSend_frame _ _ a).peer (by simp)]
  exact ⟨c, (hpeer n).trans (Device.peer_setPeer_self _ n.isLt _),
    fun k hk => (hpeer k).trans (Device.peer_setPeer_ne _ (fun hval => hk (Fin.ext hval)) _)⟩

end

/-! ## A frame that leaves (R444 to R446) -/

section
variable (n : Fin 3) (d : Device) (f : PeerFrame)

/-- The frame as it leaves: a TIME frame with its stamps, a reliable frame with its number. -/
def peerFrameOut : PeerFrame :=
  { f with body := fillTime d n f.body, rel := if isReliable f.body then some (f.rel.getD (d.peer n).relTx) else none }

/-- A reliable frame that leaves for the first time. -/
def isNewReliable : Bool := isReliable f.body && f.rel.isNone

/-- The port once the frame has left, but for its columns. -/
def portSent : Peer :=
  { d.peer n with
    seqTx := ((d.peer n).seqTx + 1) % 2 ^ 32
    sent := some { seq := (d.peer n).seqTx, frame := peerFrameOut n d f, confirm := confirmLine d,
                   bytes := peerBytes (peerFrameOut n d f) (d.peer n).seqTx }
    relTx := if isNewReliable f then ((d.peer n).relTx + 1) % 2 ^ 32 else (d.peer n).relTx
    unacked := if isNewReliable f then (d.peer n).unacked ++ [{ rel := (d.peer n).relTx, frame := peerFrameOut n d f }] else (d.peer n).unacked
    timeTx := if frameType (peerFrameOut n d f).body == 3 then (((d.peer n).seqTx, peerStamp d n true d.nowNs) :: (d.peer n).timeTx).take 8
      else (d.peer n).timeTx }

theorem frameLeaves_eq : ∃ cols,
    frameLeaves d n f = columnsOut ((d.setPeer n (portSent n d f)).count (F.PEERn_FRAMES_TX.COUNT n)) n cols := ⟨_, rfl⟩

theorem frameLeaves_frame : SameBut (R.PEERn_FRAMES_TX n :: txStatusRegs n) [.lanes, .peers] d (frameLeaves d n f) := by
  obtain ⟨cols, heq⟩ := frameLeaves_eq n d f
  rw [heq]
  exact (((SameBut.refl _ _ d).setPeer _ _ (by simp)).count _ (by simp)).then (columnsOut_frame n _ _) (by simp) (by simp)

theorem frameLeaves_count : (frameLeaves d n f).get (F.PEERn_FRAMES_TX.COUNT n) = min (d.get (F.PEERn_FRAMES_TX.COUNT n) + 1) 0xFFFFFFFF := by
  obtain ⟨cols, heq⟩ := frameLeaves_eq n d f
  rw [heq, (columnsOut_frame n _ _).get (PEERn_FRAMES_TX_not_mem_txStatusRegs n), Device.get_count_saturating _ _ _ (by simp)]
  rfl

theorem frameLeaves_peer : ∃ c, (frameLeaves d n f).peer n = { portSent n d f with txCol := c } := by
  obtain ⟨cols, heq⟩ := frameLeaves_eq n d f
  obtain ⟨c, hpeer, -⟩ := columnsOut_peers n ((d.setPeer n (portSent n d f)).count (F.PEERn_FRAMES_TX.COUNT n)) cols
  have hsent : ((d.setPeer n (portSent n d f)).count (F.PEERn_FRAMES_TX.COUNT n)).peer n = portSent n d f := Device.peer_setPeer_self _ n.isLt _
  exact ⟨c, by rw [heq, hpeer, hsent]⟩

theorem fillTime_of_reliable {b : PeerBody} (h : isReliable b = true) : fillTime d n b = b := by
  cases b with
  | time t => exact absurd h (by simp [isReliable, frameType])
  | _ => rfl

end

/-! ## A frame boundary (R446) -/

section
variable (n : Fin 3) {d : Device}

/-- The port sends coded data from TRAIN on. -/
structure SendsFrames (d : Device) : Prop where
  state : plTrain ≤ d.peerState n
  awake : (d.peer n).resting = false
  lane0 : lnSends d (peerTxLane n 0) = true
  lane1 : lnSends d (peerTxLane n 1) = true

/-- The device whose port `n` takes the frame `f` from its ready ones. -/
def frameTaken (d : Device) (f : PeerFrame) : Device := d.setPeer n { d.peer n with ready := (d.peer n).ready.erase f }

theorem frameTaken_peer (d : Device) (f : PeerFrame) : (frameTaken n d f).peer n = { d.peer n with ready := (d.peer n).ready.erase f } :=
  Device.peer_setPeer_self _ n.isLt _

theorem frameTaken_fillTime (d : Device) (f : PeerFrame) (b : PeerBody) : fillTime (frameTaken n d f) n b = fillTime d n b := by
  cases b with
  | time t => simp only [fillTime, frameTaken_peer]
  | _ => rfl

variable {n} in
theorem SendsFrames.takes_first (h : SendsFrames n d) {f : PeerFrame} (hf : firstReady (d.peer n).ready = some f) :
    peerSendDev n d = frameLeaves (frameTaken n d f) n f := by
  have hsends : ¬ (d.peerState n < plTrain ∨ (d.peer n).resting = true ∨
      ¬ (lnSends d (peerTxLane n 0) = true ∧ lnSends d (peerTxLane n 1) = true)) := by
    simp [Nat.not_lt.2 h.state, h.awake, h.lane0, h.lane1]
  unfold peerSendDev
  dsimp only
  rw [if_neg hsends, hf]
  rfl

variable {n} in
theorem SendsFrames.sent (h : SendsFrames n d) {f : PeerFrame} (hf : firstReady (d.peer n).ready = some f) :
    ∃ c, (peerSendDev n d).peer n = { portSent n (frameTaken n d f) f with txCol := c } := by
  rw [h.takes_first hf]
  exact frameLeaves_peer n _ f

variable {n} in
theorem SendsFrames.count (h : SendsFrames n d) {f : PeerFrame} (hf : firstReady (d.peer n).ready = some f) :
    (peerSendDev n d).get (F.PEERn_FRAMES_TX.COUNT n) = min (d.get (F.PEERn_FRAMES_TX.COUNT n) + 1) 0xFFFFFFFF := by
  rw [h.takes_first hf]
  exact frameLeaves_count n _ f

variable {n} in
theorem SendsFrames.frame (h : SendsFrames n d) {f : PeerFrame} (hf : firstReady (d.peer n).ready = some f) :
    SameBut (R.PEERn_FRAMES_TX n :: txStatusRegs n) [.lanes, .peers] d (peerSendDev n d) := by
  rw [h.takes_first hf]
  exact ((SameBut.refl _ _ d).setPeer _ _ (by simp)).trans (frameLeaves_frame n _ f)

/-- No frame leaves: K28.5 columns go out. -/
theorem peerSendDev_idle (h : d.peerState n < plTrain ∨ (d.peer n).resting = true ∨ (d.peer n).ready = [] ∨
    ¬ (lnSends d (peerTxLane n 0) = true ∧ lnSends d (peerTxLane n 1) = true)) :
    peerSendDev n d = columnsOut d n (List.replicate 4 ((0xBC, true), (0xBC, true))) := by
  unfold peerSendDev
  dsimp only
  split
  · rfl
  next hsends =>
    obtain ⟨hstate, hawake, hlanes⟩ : ¬ _ ∧ ¬ _ ∧ ¬ _ := ⟨fun hs => hsends (.inl hs), fun hr => hsends (.inr (.inl hr)), fun hl => hsends (.inr (.inr hl))⟩
    have hnone : (d.peer n).ready = [] := ((h.resolve_left hstate).resolve_left hawake).resolve_right hlanes
    rw [hnone]
    rfl

end

/-! ## Frames that become ready by a timer -/

section
variable (n : Fin 3) (d : Device) (f : PeerFrame)

/-- A frame becomes ready where `c` holds. -/
def queueIf (c : Prop) [Decidable c] : Device := if c then queueFrame d n f else d

theorem queueIf_frame (c : Prop) [Decidable c] : SameBut [] [.peers] d (queueIf n d f c) :=
  iteInduction (fun _ => (SameBut.refl _ _ d).queueFrame _ _ (by simp)) fun _ => .refl _ _ d

theorem queueIf_ready (c : Prop) [Decidable c] : ((queueIf n d f c).peer n).ready = (d.peer n).ready ++ if c then [f] else [] := by
  unfold queueIf
  split
  · rw [queueFrame_peer_self _ n.isLt]
  · exact (List.append_nil _).symm

end

/-- STATUS becomes ready on every link that is UP. -/
theorem statusDueDev_eq {d : Device} (hcounters : d.pr.counters = none) (hserve : d.pr.serve = none) : statusDueDev d =
    (List.range 3).foldl (fun e n => if e.peerState n = plUp then queueFrame e n { body := .status (statusBody d), src := deviceId e } else e) d := by
  have hsend : serveSend d = d := by unfold serveSend; rw [hserve]
  have hjoin : joinFinish d = d := by unfold joinFinish; rw [hcounters]
  unfold statusDueDev
  rw [hsend, hjoin]

theorem queueStatus_frame (d e : Device) (j : Nat) :
    SameBut [] [.peers] e (if e.peerState j = plUp then queueFrame e j { body := .status (statusBody d), src := deviceId e } else e) :=
  iteInduction (fun _ => (SameBut.refl _ _ e).queueFrame _ _ (by simp)) fun _ => .refl _ _ e

theorem statusDueDev_frame {d : Device} (hcounters : d.pr.counters = none) (hserve : d.pr.serve = none) : SameBut [] [.peers] d (statusDueDev d) := by
  rw [statusDueDev_eq hcounters hserve]
  exact SameBut.foldl fun e j _ => queueStatus_frame d e j

theorem statusDueDev_ready {d : Device} (hcounters : d.pr.counters = none) (hserve : d.pr.serve = none) (n : Fin 3) :
    ((statusDueDev d).peer n).ready =
      (d.peer n).ready ++ if d.peerState n = plUp then [{ body := .status (statusBody d), src := deviceId d }] else [] := by
  have hother (e : Device) (j : Nat) (hne : j ≠ n) :
      ((if e.peerState j = plUp then queueFrame e j { body := .status (statusBody d), src := deviceId e } else e).peer n).ready = (e.peer n).ready := by
    split
    · rw [queueFrame_peer_ne _ hne.symm]
    · rfl
  rw [statusDueDev_eq hcounters hserve]
  refine foldl_at (k := n.val) (Q := fun e : Device => SameBut [] [.peers] d e ∧ (e.peer n).ready = (d.peer n).ready)
    (P := fun e : Device => (e.peer n).ready = (d.peer n).ready ++ if d.peerState n = plUp then [{ body := .status (statusBody d), src := deviceId d }] else [])
    (fun e he => ?_) List.nodup_range (List.mem_range.2 n.isLt) (fun e j _ hne he => ?_) (fun e j _ hne he => (hother e j hne).trans he)
    ⟨.refl _ _ d, rfl⟩
  · obtain ⟨hframe, hready⟩ := he
    have hid : deviceId e = deviceId d := hframe.get (by simp)
    have hstate : e.peerState n = d.peerState n := hframe.get (by simp)
    rw [← hready, ← hstate, hid]
    exact queueIf_ready n e _ _
  · exact ⟨he.1.trans (queueStatus_frame d e j), (hother e j hne).trans he.2⟩

end Sys2Proof.Machine

/-! # Recovery on peer ports

Frames sent again, bad CRCs, marker columns and the requests of training (R58, R48, R49, R382, R445, R447, R448). -/

namespace Sys2Proof.Machine

/-! ## Frames sent again (R445) -/

/-- The frames that wait for their ACK, with one more repeat of number `r`. -/
def repeated (r : Nat) (l : List Unacked) : List Unacked := l.map (fun v => if v.rel = r then { v with repeats := v.repeats + 1 } else v)

theorem find?_repeated {r : Nat} {l : List Unacked} {u : Unacked} (h : l.find? (fun x => x.rel = r) = some u) :
    (repeated r l).find? (fun x => x.rel = r) = some { u with repeats := u.repeats + 1 } := by
  have hrel : ((fun x : Unacked => decide (x.rel = r)) ∘ fun v : Unacked => if v.rel = r then { v with repeats := v.repeats + 1 } else v) =
      fun x => decide (x.rel = r) := by
    funext v
    dsimp only [Function.comp]
    split <;> rfl
  rw [repeated, List.find?_map, hrel, h, Option.map_some, if_pos (by simpa using List.find?_some h)]

section
variable {n : Fin 3} {r : Nat} {u : Unacked} {d : Device} (hfind : (d.peer n).unacked.find? (fun x => x.rel = r) = some u)
include hfind

theorem peerRetransmitDev_of_repeat (h : u.repeats < 8) : peerRetransmitDev n r d =
    queueFrame ((d.count (F.PEERn_RETX.COUNT n)).setPeer n { d.peer n with unacked := repeated r (d.peer n).unacked }) n u.frame := by
  unfold peerRetransmitDev
  dsimp only
  rw [hfind]
  exact if_neg (Nat.not_le.2 h)

theorem peerRetransmitDev_of_loss (h : 8 ≤ u.repeats) (hup : d.peerState n = plUp) :
    peerRetransmitDev n r d = peerLoss n (d.raise (F.PEERn_FLAGS.RETX_FAIL n)) := by
  unfold peerRetransmitDev
  dsimp only
  rw [hfind]
  exact (if_pos h).trans (if_pos hup)

theorem peerRetransmitDev_repeats (h : u.repeats < 8) :
    ((peerRetransmitDev n r d).peer n).ready = (d.peer n).ready ++ [u.frame] ∧
    (peerRetransmitDev n r d).get (F.PEERn_RETX.COUNT n) = min (d.get (F.PEERn_RETX.COUNT n) + 1) 0xFFFFFFFF ∧
    (((peerRetransmitDev n r d).peer n).unacked.find? (fun x => x.rel = r)).map Unacked.repeats = some (u.repeats + 1) ∧
    ((peerRetransmitDev n r d).peer n).unacked.length = (d.peer n).unacked.length ∧
    SameBut [R.PEERn_RETX n] [.peers] d (peerRetransmitDev n r d) := by
  have hpeer : (peerRetransmitDev n r d).peer n =
      { d.peer n with unacked := repeated r (d.peer n).unacked, ready := (d.peer n).ready ++ [u.frame] } := by
    rw [peerRetransmitDev_of_repeat hfind h, queueFrame_peer_self _ n.isLt, Device.peer_setPeer_self _ n.isLt]
  refine ⟨by rw [hpeer], ?_, by rw [hpeer, find?_repeated hfind]; rfl, by rw [hpeer]; exact List.length_map _, ?_⟩
  · rw [peerRetransmitDev_of_repeat hfind h]
    exact Device.get_count_saturating _ _ _ (by simp)
  · rw [peerRetransmitDev_of_repeat hfind h]
    exact (((SameBut.refl _ _ d).count _ (by simp)).setPeer _ _ (by simp)).queueFrame _ _ (by simp)

end

/-! ## Bad CRCs (R382, R445) -/

section
variable (n : Fin 3) (d : Device)

/-- The registers that a bad CRC shows in. -/
def badCrcRegs : List Nat := [R.PEERn_CRC_ERR n, R.PEERn_FLAGS n]

/-- The registers that the snoop unit of the port shows a mismatch in. -/
def snoopRegs : List Nat := [R.CRC_SNOOP_ERRk (16 + n), R.CRC_FLAGS]

theorem crcRegs_disjoint_faultRegs : ∀ a ∈ badCrcRegs n ++ snoopRegs n, a ∉ faultRegs := by decide +revert

theorem badCrcRegs_disjoint_snoopRegs : ∀ a ∈ badCrcRegs n, a ∉ snoopRegs n := by decide +revert

theorem snoopRegs_disjoint_badCrcRegs : ∀ a ∈ snoopRegs n, a ∉ badCrcRegs n := by decide +revert

theorem PEERn_CRC_ERR_ne_PEERn_FLAGS : R.PEERn_CRC_ERR n ≠ R.PEERn_FLAGS n := by decide +revert

theorem CRC_SNOOP_ERRk_ne_CRC_FLAGS : R.CRC_SNOOP_ERRk (16 + n) ≠ R.CRC_FLAGS := by decide +revert

/-- A frame with a bad CRC is counted and flagged. -/
def badCrcShown : Device := (d.count (F.PEERn_CRC_ERR.COUNT n)).raise (F.PEERn_FLAGS.CRC_ERR n)

/-- The snoop unit of the port counts and flags the mismatch. -/
def snoopShown : Device := ((badCrcShown n d).count (F.CRC_SNOOP_ERRk.COUNT (16 + n))).raise (F.CRC_FLAGS.SNOOP_ERR.bitN (16 + n))

theorem badCrcShown_frame : SameBut (badCrcRegs n) [.evt] d (badCrcShown n d) :=
  ((SameBut.refl _ _ d).count _ (by simp [badCrcRegs])).raise (by simp [badCrcRegs]) (by simp)

theorem badCrcShown_count : (badCrcShown n d).get (F.PEERn_CRC_ERR.COUNT n) = min (d.get (F.PEERn_CRC_ERR.COUNT n) + 1) 0xFFFFFFFF := by
  rw [badCrcShown, Device.get_raise, Device.get_set_ne _ _ _ _ (.inl (PEERn_CRC_ERR_ne_PEERn_FLAGS n)), Device.get_count_saturating _ _ _ (by simp)]
  rfl

theorem badCrcShown_flag : (badCrcShown n d).get (F.PEERn_FLAGS.CRC_ERR n) = 1 := Device.get_raise_self _ _ rfl (by simp)

theorem snoopShown_frame : SameBut (snoopRegs n) [.evt] (badCrcShown n d) (snoopShown n d) :=
  ((SameBut.refl _ _ _).count _ (by simp [snoopRegs])).raise (by simp [snoopRegs, Fld.bitN]) (by simp)

theorem snoopShown_count : (snoopShown n d).get (F.CRC_SNOOP_ERRk.COUNT (16 + n)) =
    min (d.get (F.CRC_SNOOP_ERRk.COUNT (16 + n)) + 1) (2 ^ ((F.CRC_SNOOP_ERRk.COUNT (16 + n)).hi + 1) - 1) := by
  rw [snoopShown, Device.get_raise, Device.get_set_ne _ _ _ _ (.inl (CRC_SNOOP_ERRk_ne_CRC_FLAGS n)), Device.get_count_saturating _ _ _ (by simp),
    (badCrcShown_frame n d).get (snoopRegs_disjoint_badCrcRegs n _ (by simp [snoopRegs]))]
  rfl

theorem faultLevel_snoopPeer : faultLevel faultSnoopPeer = 2 := rfl

/-- A mismatch that the snoop unit of the port sees is a fault with the port as its index. -/
theorem peerCrcDev_snoop : peerCrcDev n true d = (snoopShown n d).fault faultSnoopPeer n := by
  rw [peerCrcDev, if_pos rfl, snoopMismatch]
  rfl

theorem peerCrcDev_plain : peerCrcDev n false d = badCrcShown n d := rfl

theorem snoopFault_frame : SameButMem faultRegs [.resv, .evt] [faultBytes] (snoopShown n d) (peerCrcDev n true d) := by
  rw [peerCrcDev_snoop]
  exact fault_frame _ _ faultLevel_snoopPeer

theorem snoopFault_get {f : Fld} (ha : f.addr ∈ badCrcRegs n) : (peerCrcDev n true d).get f = (badCrcShown n d).get f := by
  rw [(snoopFault_frame n d).get (crcRegs_disjoint_faultRegs n _ (List.mem_append_left _ ha)),
    (snoopShown_frame n d).get (badCrcRegs_disjoint_snoopRegs n _ ha)]

theorem peerCrcDev_count (snoop : Bool) :
    (peerCrcDev n snoop d).get (F.PEERn_CRC_ERR.COUNT n) = min (d.get (F.PEERn_CRC_ERR.COUNT n) + 1) 0xFFFFFFFF := by
  cases snoop with
  | false => rw [peerCrcDev_plain, badCrcShown_count]
  | true => rw [snoopFault_get n d (by simp [badCrcRegs]), badCrcShown_count]

theorem peerCrcDev_flag (snoop : Bool) : (peerCrcDev n snoop d).get (F.PEERn_FLAGS.CRC_ERR n) = 1 := by
  cases snoop with
  | false => rw [peerCrcDev_plain, badCrcShown_flag]
  | true => rw [snoopFault_get n d (by simp [badCrcRegs]), badCrcShown_flag]

theorem peerCrcDev_frame (snoop : Bool) :
    SameButMem (badCrcRegs n ++ snoopRegs n ++ faultRegs) [.resv, .evt] [faultBytes] d (peerCrcDev n snoop d) := by
  have hbad : SameBut (badCrcRegs n ++ snoopRegs n ++ faultRegs) [.resv, .evt] d (badCrcShown n d) :=
    (badCrcShown_frame n d).mono (by simp) (by simp)
  cases snoop with
  | false =>
    rw [peerCrcDev_plain]
    exact hbad.toMem
  | true => exact (hbad.then (snoopShown_frame n d) (by simp) (by simp)).trans_sameButMem ((snoopFault_frame n d).mono (by simp) (by simp))

theorem peerCrcDev_snoop_count : (peerCrcDev n true d).get (F.CRC_SNOOP_ERRk.COUNT (16 + n)) =
    min (d.get (F.CRC_SNOOP_ERRk.COUNT (16 + n)) + 1) (2 ^ ((F.CRC_SNOOP_ERRk.COUNT (16 + n)).hi + 1) - 1) := by
  rw [(snoopFault_frame n d).get (crcRegs_disjoint_faultRegs n _ (by simp [snoopRegs])), snoopShown_count]

theorem peerCrcDev_snoop_code : (peerCrcDev n true d).get F.FLT_LAST.CODE = faultSnoopPeer := by
  rw [peerCrcDev_snoop, fault_code _ _ faultLevel_snoopPeer]
  rfl

theorem peerCrcDev_snoop_index : (peerCrcDev n true d).get F.FLT_LAST.INDEX = n := by
  rw [peerCrcDev_snoop, fault_index _ _ faultLevel_snoopPeer, Nat.mod_eq_of_lt (by omega)]

theorem peerCrcDev_plain_last : (peerCrcDev n false d).rd R.FLT_LAST = d.rd R.FLT_LAST := by
  rw [peerCrcDev_plain]
  exact (badCrcShown_frame n d).regs _ fun h => crcRegs_disjoint_faultRegs n _ (List.mem_append_left _ h) (by simp [faultRegs])

theorem peerCrcDev_plain_mem : (peerCrcDev n false d).mem = d.mem := by
  rw [peerCrcDev_plain]
  exact Device.raise_mem _ _

end

/-! ## Marker columns (R58, R448) -/

section
variable (n : Fin 3) (d : Device)

/-- The registers that HELLO reports. -/
def helloRegs : List Nat :=
  [R.CHIP_ID, R.CHIP_LEVEL, R.CHIP_BUILD_ID, R.PAIR_CFG, R.PAIR_CHAIN, R.PAIR_GRID_BASE, R.PAIR_OWN_LO, R.PAIR_OWN_HI]

theorem helloRegs_away : ∀ a ∈ helloRegs, a ∉ [R.PEERn_STATUS n, R.PAIR_STATUS] := by decide +revert

theorem helloBody_congr {d e : Device} (h : ∀ a ∈ helloRegs, e.rd a = d.rd a) : helloBody e = helloBody d := by
  unfold helloBody Device.get
  rw [h R.CHIP_ID (by decide), h R.CHIP_LEVEL (by decide), h R.CHIP_BUILD_ID (by decide), h R.PAIR_CFG (by decide), h R.PAIR_CHAIN (by decide),
    h R.PAIR_GRID_BASE (by decide), h R.PAIR_OWN_LO (by decide), h R.PAIR_OWN_HI (by decide)]

variable {n d} {skew : List Int} {rest : List LinkEvent}

theorem peerDeskewDev_of_second (hstate : d.peerState n = plDeskew) (hone : (d.peer n).deskewOk = 1) (hsync : peerSync d n = true)
    (hevents : (d.peer n).rx.events = .marker true skew :: rest) : ∃ x : Peer, x.ready = (d.peer n).ready ∧ x.rx.events = rest ∧
    peerDeskewDev n d = sendHello (peerEnter (d.setPeer n x) n plHello) n := by
  refine ⟨{ d.peer n with rx := { (d.peer n).rx with events := rest }, deskewOk := (d.peer n).deskewOk + 1, deskewBad := 0 }, rfl, rfl, ?_⟩
  unfold peerDeskewDev
  dsimp only
  rw [hevents]
  exact if_pos ⟨hstate, by rw [hone], hsync⟩

theorem peerDeskewDev_greets (hstate : d.peerState n = plDeskew) (hone : (d.peer n).deskewOk = 1) (hsync : peerSync d n = true)
    (hevents : (d.peer n).rx.events = .marker true skew :: rest) :
    (peerDeskewDev n d).peerState n = plHello ∧
    ((peerDeskewDev n d).peer n).ready = (d.peer n).ready ++ [{ body := .hello (helloBody d), src := deviceId d }] ∧
    ((peerDeskewDev n d).peer n).rx.events = rest ∧ SameBut [R.PEERn_STATUS n, R.PAIR_STATUS] [.peers] d (peerDeskewDev n d) := by
  obtain ⟨x, hready, hrest, heq⟩ := peerDeskewDev_of_second hstate hone hsync hevents
  have hframe : SameBut [R.PEERn_STATUS n, R.PAIR_STATUS] [.peers] d (peerEnter (d.setPeer n x) n plHello) :=
    ((SameBut.refl _ _ d).setPeer n x (by simp)).trans (peerEnter_frame n _ _)
  have hbody : helloBody (peerEnter (d.setPeer n x) n plHello) = helloBody d :=
    helloBody_congr fun a ha => hframe.regs a (helloRegs_away n a ha)
  have hid : deviceId (peerEnter (d.setPeer n x) n plHello) = deviceId d := hframe.get (helloRegs_away n _ (by decide))
  have hpeer : (peerDeskewDev n d).peer n =
      { x with deskewOk := 0, deskewBad := 0, greeted := false, ready := (d.peer n).ready ++ [{ body := .hello (helloBody d), src := deviceId d }] } := by
    rw [heq, sendHello, queueFrame_peer_self _ n.isLt, peerEnter_peer, Device.peer_setPeer_self _ n.isLt, hbody, hid, hready]
  refine ⟨?_, by rw [hpeer], by rw [hpeer]; exact hrest, ?_⟩
  · rw [heq]
    exact peerEnter_peerState n _ (by decide)
  · rw [heq]
    exact hframe.queueFrame _ _ (by simp)

/-- What two misaligned columns in a row leave of the deskew. -/
def misaligned2 (bad : Nat) (x : LinkRx) : LinkRx := if bad + 1 = 2 then x.lose else x

theorem peerDeskewDev_of_misaligned (hevents : (d.peer n).rx.events = .marker false skew :: rest) : peerDeskewDev n d =
    d.setPeer n { d.peer n with
      rx := misaligned2 (d.peer n).deskewBad { (d.peer n).rx with events := rest }
      deskewOk := 0
      deskewBad := (d.peer n).deskewBad + 1 } := by
  unfold peerDeskewDev
  dsimp only
  rw [hevents]
  rfl

theorem misaligned2_events (bad : Nat) (x : LinkRx) : (misaligned2 bad x).events = x.events := by
  unfold misaligned2
  split <;> rfl

theorem misaligned2_marks (bad : Nat) (x : LinkRx) : (misaligned2 bad x).marks = if bad = 1 then none else x.marks := by
  unfold misaligned2
  by_cases hbad : bad = 1
  · rw [if_pos hbad, if_pos (by omega)]
    rfl
  · rw [if_neg hbad, if_neg (by omega)]

end

/-! ## Requests of training (R45, R48, R49) -/

section
variable {n : Fin 3} {d : Device}

theorem peerTrainReply_of_other {word : Nat} (h : (d.peer n).trainReq = none ∨ (d.peer n).trainReq ≠ some (bitsOf word 25 24)) :
    peerTrainReply n word d = d := by
  unfold peerTrainReply
  split
  · rfl
  next k hk =>
    have hne : k ≠ bitsOf word 25 24 := by
      rintro rfl
      exact h.elim (fun hnone => nomatch hnone.symm.trans hk) fun hother => hother hk
    exact if_pos (Ne.symm hne)

variable {k : Nat} {t : Training} (hreq : (d.peer n).trainReq = some k) (htrain : (d.laneX (peerRxLane n k)).train = some t)
include hreq htrain

theorem peerTrainReply_of_pending {word : Nat} (hk : k = bitsOf word 25 24) : peerTrainReply n word d =
    peerTrainIssue (peerTrainNext (d.setPeer n { d.peer n with trainReq := none }) n k
      (trainOnReply (d.setPeer n { d.peer n with trainReq := none }) (peerRxLane n k) t word)) n := by
  have htrain' : ((d.setPeer n { d.peer n with trainReq := none }).laneX (peerRxLane n k)).train = some t := htrain
  unfold peerTrainReply
  rw [hreq]
  dsimp only
  rw [if_neg (not_not_intro hk.symm), htrain']

theorem peerTrainTimeout_of_repeat (hresends : t.resends < 3) : peerTrainTimeout n d =
    queueFrame (d.setLaneX (peerRxLane n k) { d.laneX (peerRxLane n k) with train := some { t with resends := t.resends + 1 } }) n
      { body := .train t.request, src := deviceId d } := by
  unfold peerTrainTimeout
  rw [hreq]
  dsimp only
  rw [htrain]
  exact if_pos hresends

end

end Sys2Proof.Machine

/-! # Peer sending and recovery (O48)

Every clause is the equation of one transition of a peer port (chapter 21), read off the device that it leaves. -/

namespace Sys2Proof.Machine

/-! ## The commands of a peer port -/

section
variable (n : Fin 3) (s : State)

theorem exec_peerFrameSend : exec (.peerFrameSend n) s = s.done (peerSendDev n s.dev) := rfl

theorem exec_peerTimeDue : exec (.peerTimeDue n) s =
    s.done (queueIf n s.dev { body := .time {}, src := deviceId s.dev } (s.dev.peerState n = plUp)) := rfl

theorem exec_helloRepeat : exec (.helloRepeat n) s =
    s.done (queueIf n s.dev { body := .hello (helloBody s.dev), src := deviceId s.dev } (s.dev.peerState n = plHello)) := rfl

theorem exec_peerStatusDue : exec .peerStatusDue s = s.done (statusDueDev s.dev) := rfl

theorem exec_peerRetransmit (r : Nat) : exec (.peerRetransmit n r) s = s.done (peerRetransmitDev n r s.dev) := rfl

theorem exec_peerRxTimeout : exec (.peerRxTimeout n) s = s.done (if s.dev.peerState n = plUp then peerLoss n s.dev else s.dev) := rfl

theorem exec_peerStateTimeout : exec (.peerStateTimeout n) s = s.done (peerTimeoutDev n s.dev) := rfl

theorem exec_peerCrcErr (snoop : Bool) : exec (.peerCrcErr n snoop) s = s.done (peerCrcDev n snoop s.dev) := rfl

theorem exec_deskewColumn_peer : exec (.deskewColumn (.peer n)) s = s.done (peerDeskewDev n s.dev) := rfl

theorem exec_retrain_peer {k : Fin 2} (h : gateOpen s.dev (R.LN_CTRL (laneBase (.peerRx n k))) = true) :
    exec (.retrain (.peerRx n k)) s = s.done (peerRetrain n k s.dev) :=
  congrArg s.done (regAccess_of_gateOpen h _ _)

theorem exec_trainReply_peer (word : Word) : exec (.trainReply (.peer n) word) s = s.done (peerTrainReply n word.toNat s.dev) := rfl

theorem exec_trainReqTimeout_peer : exec (.trainReqTimeout (.peer n)) s = s.done (peerTrainTimeout n s.dev) := rfl

end

/-! ## What a port that sends a frame holds (R444, R446) -/

section
variable {n : Fin 3} {d : Device} {f : PeerFrame}

theorem peerFrameOut_of_new (hrel : isReliable f.body = true) (hnew : f.rel = none) :
    peerFrameOut n d f = { f with rel := some (d.peer n).relTx } := by
  rw [peerFrameOut, fillTime_of_reliable n d hrel, hrel, hnew]
  rfl

theorem peerFrameOut_of_old (h : isReliable f.body = false ∨ f.rel.isSome = true) :
    peerFrameOut n d f = { f with body := fillTime d n f.body, rel := if isReliable f.body then f.rel else none } := by
  obtain hplain | hsome := h
  · rw [peerFrameOut, hplain]
    rfl
  · obtain ⟨r, hr⟩ := Option.isSome_iff_exists.1 hsome
    rw [peerFrameOut, hr]
    rfl

theorem isNewReliable_of_old (h : isReliable f.body = false ∨ f.rel.isSome = true) : isNewReliable f = false := by
  obtain hplain | hsome := h
  · rw [isNewReliable, hplain, Bool.false_and]
  · rw [isNewReliable, Option.isNone_eq_false_iff.2 hsome, Bool.and_false]

variable (hsends : SendsFrames n d) (hfirst : firstReady (d.peer n).ready = some f)
include hsends hfirst

/-- A new reliable frame takes the next number and waits for its ACK. -/
theorem SendsFrames.sent_new (hrel : isReliable f.body = true) (hnew : f.rel = none) :
    ((peerSendDev n d).peer n).ready = (d.peer n).ready.erase f ∧
    ((peerSendDev n d).peer n).seqTx = ((d.peer n).seqTx + 1) % 2 ^ 32 ∧
    ((peerSendDev n d).peer n).relTx = ((d.peer n).relTx + 1) % 2 ^ 32 ∧
    ((peerSendDev n d).peer n).unacked.getLast?.map Unacked.rel = some (d.peer n).relTx ∧
    ((peerSendDev n d).peer n).sent = some
      { seq := (d.peer n).seqTx, frame := { f with rel := some (d.peer n).relTx }, confirm := confirmLine d,
        bytes := peerBytes { f with rel := some (d.peer n).relTx } (d.peer n).seqTx } := by
  obtain ⟨c, hpeer⟩ := hsends.sent hfirst
  have hisNew : isNewReliable f = true := by rw [isNewReliable, hrel, hnew]; rfl
  have hout : peerFrameOut n (frameTaken n d f) f = { f with rel := some (d.peer n).relTx } := by
    rw [peerFrameOut_of_new hrel hnew, frameTaken_peer]
  rw [hpeer, portSent, hisNew, hout, frameTaken_peer]
  exact ⟨rfl, rfl, rfl, by simp, rfl⟩

/-- Another frame leaves with the number that it has, where it has one. -/
theorem SendsFrames.sent_old (hold : isReliable f.body = false ∨ f.rel.isSome = true) :
    ((peerSendDev n d).peer n).ready = (d.peer n).ready.erase f ∧
    ((peerSendDev n d).peer n).seqTx = ((d.peer n).seqTx + 1) % 2 ^ 32 ∧
    ((peerSendDev n d).peer n).relTx = (d.peer n).relTx ∧
    ((peerSendDev n d).peer n).unacked = (d.peer n).unacked ∧
    ((peerSendDev n d).peer n).sent = some
      { seq := (d.peer n).seqTx, frame := { f with body := fillTime d n f.body, rel := if isReliable f.body then f.rel else none },
        confirm := confirmLine d,
        bytes := peerBytes { f with body := fillTime d n f.body, rel := if isReliable f.body then f.rel else none } (d.peer n).seqTx } := by
  obtain ⟨c, hpeer⟩ := hsends.sent hfirst
  rw [hpeer, portSent, isNewReliable_of_old hold, peerFrameOut_of_old hold, frameTaken_fillTime, frameTaken_peer]
  exact ⟨rfl, rfl, rfl, rfl, rfl⟩

end

/-! ## Time-outs of a peer port (R49, R445, R447, Table 21.6) -/

section
variable {n : Fin 3} {d : Device}

theorem LN_regs_away : ∀ l ∈ peerLanes n, R.LN_CTRL (laneBase l) ∉ [R.PEERn_STATUS n, R.PAIR_STATUS] ∧
    R.LN_STATUS (laneBase l) ∉ [R.PEERn_STATUS n, R.PAIR_STATUS] := by
  decide +revert

/-- The eighth repeat loses the link, and shows that it did. -/
theorem peerRetransmitDev_loses {r : Nat} {u : Unacked} (hfind : (d.peer n).unacked.find? (fun x => x.rel = r) = some u) (h : 8 ≤ u.repeats)
    (hup : d.peerState n = plUp) (hsync : peerSync d n = false) :
    (peerRetransmitDev n r d).peerState n = plLaneWake ∧ (peerRetransmitDev n r d).get (F.PEERn_FLAGS.RETX_FAIL n) = 1 ∧
    (peerRetransmitDev n r d).get (F.PEERn_FLAGS.LINK_LOST n) = 1 ∧ ((peerRetransmitDev n r d).peer n).unacked = [] ∧
    ((peerRetransmitDev n r d).peer n).ready = [] := by
  have hraised : SameBut (portShowRegs n) [.evt] d (d.raise (F.PEERn_FLAGS.RETX_FAIL n)) :=
    (SameBut.refl _ _ d).raise (by simp [portShowRegs]) (by simp)
  have hsync' : peerSync (d.raise (F.PEERn_FLAGS.RETX_FAIL n)) n = false := by
    refine (peerSync_congr fun k => hraised.get fun hmem => ?_).trans hsync
    exact (LN_STATUS_away n _ (peerRxLane_mem n k)).1 (List.mem_append_right _ hmem)
  rw [peerRetransmitDev_of_loss hfind h hup, peerLoss_of_not_sync n hsync']
  obtain ⟨x, hpeer⟩ := linkLost_peer n (d.raise (F.PEERn_FLAGS.RETX_FAIL n))
  have hfail : (linkLost n (d.raise (F.PEERn_FLAGS.RETX_FAIL n))).get (F.PEERn_FLAGS.RETX_FAIL n) = 1 :=
    (linkLost_flag n _ rfl (by simp)).trans (Device.get_raise_self _ _ rfl (by simp))
  exact ⟨linkLost_peerState n _, hfail, linkLost_lost n _, by rw [hpeer]; rfl, by rw [hpeer]; rfl⟩

theorem peerTimeoutDev_turns_off (hresting : (d.peer n).resting = false) (hlo : plLaneWake ≤ d.peerState n) (hhi : d.peerState n ≤ plHello)
    (hgreeted : ¬ (d.peerState n = plHello ∧ (d.peer n).greeted = true)) :
    (peerTimeoutDev n d).peerState n = plLaneWake ∧ ((peerTimeoutDev n d).peer n).resting = true ∧ ((peerTimeoutDev n d).peer n).ready = [] ∧
    ∀ l ∈ peerLanes n, (peerTimeoutDev n d).get (F.LN_CTRL.POWER (laneBase l)) = 0 ∧ (peerTimeoutDev n d).lnState l =
      if d.lnState l = lnOff ∨ d.lnState l = lnStandby ∨ d.lnState l = lnWaking then lnOff else lnShutdown := by
  rw [peerTimeoutDev_of_bringUp n hresting hlo hhi hgreeted]
  have henter := peerEnter_frame n
    ((lanesDown n (peerTrainStop (dropReady d n) n)).setPeer n { freshPeer (d.peer n) with resting := true }) plLaneWake
  refine ⟨peerEnter_peerState n _ (by decide), ?_, ?_, fun l hl => ?_⟩
  · rw [peerEnter_peer, Device.peer_setPeer_self _ n.isLt]
  · rw [peerEnter_peer, Device.peer_setPeer_self _ n.isLt]
    rfl
  · obtain ⟨hctrl, hstatus⟩ := LN_regs_away l hl
    obtain ⟨hpower, hstate⟩ := lanesDown_after_stop n d hl
    exact ⟨(henter.get hctrl).trans hpower, (henter.get hstatus).trans hstate⟩

theorem peerTimeoutDev_turns_on (hresting : (d.peer n).resting = true)
    (hsync : peerSync (d.setPeer n { d.peer n with resting := false }) n = false) (hstate : d.peerState n = plLaneWake) :
    ((peerTimeoutDev n d).peer n).resting = false ∧ (peerTimeoutDev n d).peerState n = plLaneWake ∧
    (d.slu.applied = true → ∀ l ∈ peerLanes n, (peerTimeoutDev n d).get (F.LN_CTRL.POWER (laneBase l)) = 2 ∧
      (d.lnState l = lnOff → (peerTimeoutDev n d).lnState l = lnWaking)) := by
  rw [peerTimeoutDev_of_resting n hresting hsync hstate]
  have hup := lanesUp_frame n (d.setPeer n { d.peer n with resting := false })
  refine ⟨?_, (hup.get (PEERn_STATUS_not_mem_lanesRegs n)).trans hstate, fun happlied l hl => ?_⟩
  · rw [hup.peer (by simp), Device.peer_setPeer_self _ n.isLt]
  · obtain ⟨hpower, hlane⟩ := lanesUp_on (d.setPeer n { d.peer n with resting := false }) hl happlied
    exact ⟨hpower, fun hoff => hlane.trans (if_pos (.inl hoff))⟩

/-- A request that found no answer is sent again, with one repeat more. -/
theorem peerTrainTimeout_sends_again {k : Nat} {t : Training} (hreq : (d.peer n).trainReq = some k)
    (htrain : (d.laneX (peerRxLane n k)).train = some t) (hresends : t.resends < 3) :
    ((peerTrainTimeout n d).peer n).ready = (d.peer n).ready ++ [{ body := .train t.request, src := deviceId d }] ∧
    ((peerTrainTimeout n d).laneX (peerRxLane n k)).train = some { t with resends := t.resends + 1 } ∧
    ((peerTrainTimeout n d).peer n).trainReq = some k ∧ SameBut [] [.peers, .lanes] d (peerTrainTimeout n d) := by
  rw [peerTrainTimeout_of_repeat hreq htrain hresends]
  have hlane : SameBut [] [.peers, .lanes] d
      (d.setLaneX (peerRxLane n k) { d.laneX (peerRxLane n k) with train := some { t with resends := t.resends + 1 } }) :=
    (SameBut.refl _ _ d).setLaneX _ _ (by simp)
  refine ⟨?_, ?_, ?_, hlane.queueFrame _ _ (by simp)⟩
  · rw [queueFrame_peer_self _ n.isLt]
    rfl
  · exact congrArg LaneX.train (Device.laneX_setLaneX_self d _ _)
  · rw [queueFrame_peer_self _ n.isLt]
    exact hreq

end

/-! ## The obligation -/

/-- Settles O48: a port that sends takes its first ready frame, every timer queues its frame where its state sends it, and silence, repeats, bad
CRCs, marker columns and training change the port that they reach. -/
theorem peerSendingAndRecovery : Obligations.PeerSendingAndRecovery := by
  unfold Obligations.PeerSendingAndRecovery
  refine ⟨?_, ?_, ?_, ?_, ?_, ?_, ?_, ?_, ?_, ?_, ?_, ?_, ?_, ?_, ?_, ?_, ?_, ?_, ?_⟩
  · intro n f s ⟨hstate, hawake, hlane0, hlane1⟩ ⟨hfirst, hrel, hnew⟩
    have hsends : SendsFrames n s.dev := ⟨hstate, hawake, hlane0, hlane1⟩
    obtain ⟨hready, hseq, hnum, hlast, hsent⟩ := hsends.sent_new hfirst hrel hnew
    exact completes_done (exec_peerFrameSend n s) ⟨hready, hseq, hnum, hlast, hsent, hsends.count hfirst, hsends.frame hfirst⟩
  · intro n f s ⟨hstate, hawake, hlane0, hlane1⟩ ⟨hfirst, hold⟩
    have hsends : SendsFrames n s.dev := ⟨hstate, hawake, hlane0, hlane1⟩
    obtain ⟨hready, hseq, hnum, hwaits, hsent⟩ := hsends.sent_old hfirst hold
    exact completes_done (exec_peerFrameSend n s) ⟨hready, hseq, hnum, hwaits, hsent, hsends.count hfirst, hsends.frame hfirst⟩
  · intro n s hidle
    refine completes_done (exec_peerFrameSend n s) ?_
    rw [peerSendDev_idle n hidle]
    obtain ⟨c, hself, hothers⟩ := columnsOut_peers n s.dev (List.replicate 4 ((0xBC, true), (0xBC, true)))
    exact ⟨⟨by rw [hself], hothers⟩, columnsOut_frame n _ _⟩
  · intro n s
    exact completes_done (exec_peerTimeDue n s) ⟨queueIf_ready n _ _ _, queueIf_frame n _ _ _⟩
  · intro n s
    exact completes_done (exec_helloRepeat n s) ⟨queueIf_ready n _ _ _, queueIf_frame n _ _ _⟩
  · intro s ⟨hcounters, hserve⟩
    exact completes_done (exec_peerStatusDue s) ⟨statusDueDev_ready hcounters hserve, statusDueDev_frame hcounters hserve⟩
  · intro n r u s ⟨hfind, hrepeats⟩
    exact completes_done (exec_peerRetransmit n s r) (peerRetransmitDev_repeats hfind hrepeats)
  · intro n r u s ⟨hfind, hrepeats, hup, hsync⟩
    exact completes_done (exec_peerRetransmit n s r) (peerRetransmitDev_loses hfind hrepeats hup hsync)
  · intro n s ⟨hup, hsync⟩
    refine completes_done (exec_peerRxTimeout n s) ?_
    rw [if_pos hup, peerLoss_of_not_sync n hsync]
    obtain ⟨x, hpeer⟩ := linkLost_peer n s.dev
    rw [hpeer]
    exact ⟨linkLost_peerState n _, linkLost_lost n _, linkLost_count n _, rfl, rfl, rfl, rfl, fun _ hk => linkLost_lock n _ hk, linkLost_of_pair n _⟩
  · intro n s hdown
    exact completes_done (exec_peerRxTimeout n s) (if_neg hdown)
  · intro n s ⟨hawake, hlo, hhi, hgreeted⟩
    obtain ⟨hstate, hresting, hready, hlanes⟩ := peerTimeoutDev_turns_off hawake hlo hhi hgreeted
    exact completes_done (exec_peerStateTimeout n s) ⟨hstate, hresting, hready,
      fun k => ⟨(hlanes _ (peerRxLane_mem n k)).1, (hlanes _ (peerTxLane_mem n k)).1⟩, fun k => (hlanes _ (peerTxLane_mem n k)).2⟩
  · intro n s ⟨hresting, hsync, hstate⟩
    obtain ⟨hawake, hwake, hlanes⟩ := peerTimeoutDev_turns_on hresting hsync hstate
    exact completes_done (exec_peerStateTimeout n s) ⟨hawake, hwake,
      fun happlied k => ⟨(hlanes happlied _ (peerRxLane_mem n k)).1, (hlanes happlied _ (peerTxLane_mem n k)).1⟩,
      fun happlied k => (hlanes happlied _ (peerTxLane_mem n k)).2⟩
  · intro n snoop s
    refine completes_done (exec_peerCrcErr n s snoop) ⟨peerCrcDev_count n _ _, peerCrcDev_flag n _ _, ?_, ?_, peerCrcDev_frame n _ _⟩
    · rintro rfl
      exact ⟨peerCrcDev_snoop_count n _, peerCrcDev_snoop_code n _, peerCrcDev_snoop_index n _⟩
    · rintro rfl
      exact ⟨peerCrcDev_plain_last n _, peerCrcDev_plain_mem n _⟩
  · intro n skew rest s ⟨hstate, hone, hsync, hevents⟩
    exact completes_done (exec_deskewColumn_peer n s) (peerDeskewDev_greets hstate hone hsync hevents)
  · intro n skew rest s hevents
    refine completes_done (exec_deskewColumn_peer n s) ?_
    rw [peerDeskewDev_of_misaligned hevents, Device.peer_setPeer_self _ n.isLt]
    exact ⟨misaligned2_events _ _, rfl, rfl, misaligned2_marks _ _,
      fun k hk => Device.peer_setPeer_ne _ (fun hval => hk (Fin.ext hval)) _, (SameBut.refl _ _ _).setPeer _ _ (by simp)⟩
  · intro n k s hup hgate
    exact completes_done (exec_retrain_peer n s hgate) (if_pos (.inl hup))
  · intro n word s hother
    exact completes_done (exec_trainReply_peer n s word) (peerTrainReply_of_other hother)
  · intro n word k t s ⟨hk, hreq, htrain⟩
    refine ⟨s.dev.setPeer n { s.dev.peer n with trainReq := none }, ?_, ⟨Device.peer_setPeer_self _ n.isLt _, ?_⟩,
      (SameBut.refl _ _ _).setPeer _ _ (by simp)⟩
    · rw [exec_trainReply_peer, peerTrainReply_of_pending hreq htrain hk]
      rfl
    · exact fun j hj => Device.peer_setPeer_ne _ (fun hval => hj (Fin.ext hval)) _
  · intro n k t s ⟨_, hreq, htrain, hresends⟩
    exact completes_done (exec_trainReqTimeout_peer n s) (peerTrainTimeout_sends_again hreq htrain hresends)

end Sys2Proof.Machine

/-! # The fault history while its supply has failed

A form of the statement about the safe state that the model answers in another way: a HIST_CLEAR while VDD_MRAM is outside its fault limits (R470,
log entry 250). -/

namespace Sys2Proof.Machine

/-- A HIST_CLEAR while VDD_MRAM has failed sets HIST_ERR and writes nothing. -/
theorem histClearDev_of_mramFails {d : Device} (h : mramFails d = true) : histClearDev d = d.raise F.FLT_FLAGS.HIST_ERR := if_pos h

/-- After start-up, with all else as at reset: the history holds a byte, and VDD_MRAM, rail 9, was outside its fault limits at the last sample. -/
def historyWithoutSupply : State := { dev := { boot := { phase := .done }, flt := { badRails := [9] }, mem := [(faultBytes.1, 1#8)] } }

theorem historyWithoutSupply_gateOpen : gateOpen historyWithoutSupply.dev R.FLT_CTRL = true := by decide

theorem historyWithoutSupply_mramFails : mramFails historyWithoutSupply.dev = true := by decide

theorem historyWithoutSupply_byte : historyWithoutSupply.dev.byte faultBytes.1 = 1#8 := by decide

theorem exec_histClear {s : State} (h : gateOpen s.dev R.FLT_CTRL = true) : exec .histClear s = s.done (histClearDev s.dev) :=
  congrArg s.done (regAccess_of_gateOpen h true _)

/-- Refutes O50: while VDD_MRAM is outside its fault limits a HIST_CLEAR sets HIST_ERR and leaves the history as it is (log entry 250), where the
clause of HIST_CLEAR has every byte of it zero. -/
theorem not_safeStateAndSupervision : ¬ Obligations.SafeStateAndSupervision := by
  unfold Obligations.SafeStateAndSupervision
  rintro ⟨-, -, -, -, -, -, -, -, -, -, -, -, -, hHistClear⟩
  obtain ⟨e, hexec, -, -, hzero, -⟩ := hHistClear historyWithoutSupply historyWithoutSupply_gateOpen
  have he : e = historyWithoutSupply.dev.raise F.FLT_FLAGS.HIST_ERR :=
    (dev_of_done_eq_next ((exec_histClear historyWithoutSupply_gateOpen).symm.trans hexec)).trans
      (histClearDev_of_mramFails historyWithoutSupply_mramFails)
  have hbyte : e.byte faultBytes.1 = 1#8 := by
    rw [he, Device.byte, Device.raise_mem]
    exact historyWithoutSupply_byte
  rw [hzero faultBytes.1 (Nat.le_refl _) (by decide)] at hbyte
  exact absurd hbyte (by decide)

end Sys2Proof.Machine

/-! # The record of a fault

What recording a fault of any level shows, counts and leaves unchanged (R455, R469, R470, Table 22.1). -/

namespace Sys2Proof.Machine

/-! ## Frames that follow one another -/

section
variable {as : List Nat} {ps : List Part} {rs : List (Nat × Nat)} {c d e : Device}

theorem SameButMem.trans (h : SameButMem as ps rs c d) (h' : SameButMem as ps rs d e) : SameButMem as ps rs c e where
  regs a ha := (h'.regs a ha).trans (h.regs a ha)
  parts p hp := Part.same_trans (h.parts p hp) (h'.parts p hp)
  bytes a ha := (h'.bytes a ha).trans (h.bytes a ha)
  tabs a := (h'.tabs a).trans (h.tabs a)
  flash := h'.flash.trans h.flash

theorem SameBut.withFlt (h : SameBut as ps d e) (x : Flt) (hp : Part.flt ∈ ps) : SameBut as ps d (e.withFlt x) :=
  h.parts_only rfl rfl rfl rfl (fun p hp' => by
    cases p with
    | flt => exact absurd hp hp'
    | _ => rfl)

theorem SameBut.putRsv (h : SameBut as ps d e) (x : Rsv) (hp : Part.rsv ∈ ps) : SameBut as ps d { e with rsv := x } :=
  h.parts_only rfl rfl rfl rfl (fun p hp' => by
    cases p with
    | rsv => exact absurd hp hp'
    | _ => rfl)

end

/-! ## Flags -/

/-- A write to the history keeps every flag but HIST_ERR. -/
theorem histWrite_flag (d : Device) (code index : Nat) {f : Fld} (ha : f.addr = R.FLT_FLAGS) (hf : f.hi < 5 ∨ 5 < f.lo) :
    (histWrite d code index).get f = d.get f := by
  have hseq : f.addr ≠ R.FLT_HIST_SEQ := by rw [ha]; decide
  unfold histWrite
  dsimp only
  split
  · rw [Device.get_raise, Device.get_set_ne _ _ _ _ (.inr hf.symm)]
  · split
    · exact congrArg f.of (Device.setBytes_rd _ _ _ _)
    · rw [Device.get_set_ne _ _ _ _ (.inl hseq)]
      exact congrArg f.of (Device.setBytes_rd _ _ _ _)

theorem Device.raiseIf_get_ne (d : Device) (c : Bool) {f g : Fld} (h : g.hi < f.lo ∨ f.hi < g.lo) : (d.raiseIf c f).get g = d.get g := by
  cases c with
  | false => rfl
  | true => exact (Device.get_raise _ _ _).trans (Device.get_set_ne _ _ _ _ (.inr h.symm))

/-! ## The steps of a record -/

section
variable (d : Device) (code index : Nat)

/-- A fault is shown, and counted by its level; a cell-level one is counted alone. -/
def faultCounted : Device :=
  if faultLevel code = 1 then d.count F.FLT_L1_COUNT.V
  else if faultLevel code = 2 then (faultShown d code index).count F.FLT_L2_COUNT.V
  else if faultLevel code = 3 then (faultShown d code index).count F.FLT_L3_COUNT.V
  else faultShown d code index

/-- Then it is flagged. -/
def faultFlagged : Device :=
  ((faultCounted d code index).raiseIf (2 ≤ faultLevel code) F.FLT_FLAGS.FAULT).raiseIf (decide (d.get F.FLT_CFG.PIN_LEVEL ≤ faultLevel code))
    F.FLT_FLAGS.PIN_FAULT

theorem fault_eq : d.fault code index =
    if d.get F.FLT_CFG.HIST_LEVEL ≤ faultLevel code ∨ code = faultDivergence then histWrite (faultFlagged d code index) code index
    else faultFlagged d code index := by
  have hcounted : faultCounted d code index =
      (let d1 := if faultLevel code = 1 then d.count F.FLT_L1_COUNT.V else faultShown d code index
       if faultLevel code = 2 then d1.count F.FLT_L2_COUNT.V else if faultLevel code = 3 then d1.count F.FLT_L3_COUNT.V else d1) := by
    unfold faultCounted
    dsimp only
    by_cases hone : faultLevel code = 1
    · simp only [hone, if_true, OfNat.one_ne_ofNat, if_false]
    · simp only [hone, if_false]
  unfold faultFlagged
  rw [hcounted]
  rfl

theorem faultShown_frame : SameBut [R.FLT_LAST, R.FLT_LAST_LINE] [] d (faultShown d code index) :=
  (((SameBut.refl _ _ d).set _ (by simp)).set _ (by simp)).set _ (by simp)

theorem faultCounted_frame :
    SameBut [R.FLT_L1_COUNT, R.FLT_L2_COUNT, R.FLT_L3_COUNT, R.FLT_LAST, R.FLT_LAST_LINE] [] d (faultCounted d code index) := by
  have hshown : SameBut [R.FLT_L1_COUNT, R.FLT_L2_COUNT, R.FLT_L3_COUNT, R.FLT_LAST, R.FLT_LAST_LINE] [] d (faultShown d code index) :=
    (faultShown_frame d code index).mono (by simp) (by simp)
  exact iteInduction (fun _ => (SameBut.refl _ _ d).count _ (by simp)) fun _ => iteInduction (fun _ => hshown.count _ (by simp)) fun _ =>
    iteInduction (fun _ => hshown.count _ (by simp)) fun _ => hshown

/-- After it is counted, a fault changes its flags and the history alone. -/
theorem fault_frame_of_counted :
    SameButMem [R.FLT_FLAGS, R.FLT_HIST_SEQ] [.resv, .evt] [faultBytes] (faultCounted d code index) (d.fault code index) := by
  have hflagged : SameBut [R.FLT_FLAGS, R.FLT_HIST_SEQ] [.resv, .evt] (faultCounted d code index) (faultFlagged d code index) :=
    ((SameBut.refl _ _ _).raiseIf _ (by simp) (by simp)).raiseIf _ (by simp) (by simp)
  rw [fault_eq]
  exact iteInduction (fun _ => hflagged.trans_sameButMem (histWrite_frame _ _ _)) fun _ => hflagged.toMem

/-- A fault of any level changes the registers of its record and the history. -/
theorem Device.fault_frame : SameButMem faultRegs [.resv, .evt] [faultBytes] d (d.fault code index) :=
  ((faultCounted_frame d code index).mono (by simp [faultRegs]) (by simp)).trans_sameButMem
    ((fault_frame_of_counted d code index).mono (by simp [faultRegs]) (by simp))

/-- The other flags stay as they are. -/
theorem Device.fault_flag {f : Fld} (ha : f.addr = R.FLT_FLAGS) (hfault : 0 < f.lo) (hpin : f.hi < 3 ∨ 3 < f.lo) (hhist : f.hi < 5 ∨ 5 < f.lo) :
    (d.fault code index).get f = d.get f := by
  have hflagged : (faultFlagged d code index).get f = d.get f := by
    rw [faultFlagged, Device.raiseIf_get_ne _ _ hpin, Device.raiseIf_get_ne _ _ (.inr hfault),
      (faultCounted_frame d code index).get (by rw [ha]; decide)]
  rw [fault_eq]
  exact iteInduction (motive := fun e : Device => e.get f = d.get f) (fun _ => (histWrite_flag _ _ _ ha hhist).trans hflagged) fun _ => hflagged

/-- A fault above cell level sets FAULT. -/
theorem Device.fault_flagged (h : 2 ≤ faultLevel code) : (d.fault code index).get F.FLT_FLAGS.FAULT = 1 := by
  have hflagged : (faultFlagged d code index).get F.FLT_FLAGS.FAULT = 1 := by
    rw [faultFlagged, Device.raiseIf_get_ne _ _ (.inl (by decide)), decide_eq_true h]
    exact Device.get_raise_self _ _ rfl (by decide)
  rw [fault_eq]
  exact iteInduction (motive := fun e : Device => e.get F.FLT_FLAGS.FAULT = 1)
    (fun _ => (histWrite_flag _ _ _ rfl (.inl (by decide))).trans hflagged) fun _ => hflagged

/-- A fault of level 2 is counted. -/
theorem Device.fault_count_two (h : faultLevel code = 2) :
    (d.fault code index).get F.FLT_L2_COUNT.V = min (d.get F.FLT_L2_COUNT.V + 1) 0xFFFFFFFF := by
  rw [(fault_frame_of_counted d code index).get (by decide), faultCounted, if_neg (by omega), if_pos h,
    Device.get_count_saturating _ _ _ (by decide), (faultShown_frame d code index).get (by decide)]
  rfl

section
variable {code} (h : faultLevel code = 1)
include h

/-- A cell-level fault is counted. -/
theorem Device.fault_count_one : (d.fault code index).get F.FLT_L1_COUNT.V = min (d.get F.FLT_L1_COUNT.V + 1) 0xFFFFFFFF := by
  rw [(fault_frame_of_counted d code index).get (by decide), faultCounted, if_pos h, Device.get_count_saturating _ _ _ (by decide)]
  rfl

/-- It is not shown. -/
theorem Device.fault_last_of_one : (d.fault code index).rd R.FLT_LAST = d.rd R.FLT_LAST := by
  rw [(fault_frame_of_counted d code index).regs _ (by decide), faultCounted, if_pos h, Device.rd_count, Device.rd_set_ne _ _ _ _ (by decide)]

end

section
variable {code} (h : faultLevel code ≠ 1)
include h

theorem faultCounted_frame_of_shown : SameBut [R.FLT_L2_COUNT, R.FLT_L3_COUNT] [] (faultShown d code index) (faultCounted d code index) := by
  rw [faultCounted, if_neg h]
  exact iteInduction (fun _ => (SameBut.refl _ _ _).count _ (by simp)) fun _ =>
    iteInduction (fun _ => (SameBut.refl _ _ _).count _ (by simp)) fun _ => .refl _ _ _

theorem Device.fault_last : (d.fault code index).rd R.FLT_LAST = (faultShown d code index).rd R.FLT_LAST :=
  ((fault_frame_of_counted d code index).regs _ (by decide)).trans ((faultCounted_frame_of_shown d index h).regs _ (by decide))

theorem Device.fault_code : (d.fault code index).get F.FLT_LAST.CODE = code % 65536 := by
  rw [Device.get, Device.fault_last d index h, ← Device.get, faultShown, Device.get_set_ne _ _ _ _ (by decide), Device.get_set_self _ _ _ (by decide)]
  rfl

theorem Device.fault_index : (d.fault code index).get F.FLT_LAST.INDEX = index % 65536 := by
  rw [Device.get, Device.fault_last d index h, ← Device.get, faultShown, Device.get_set_ne _ _ _ _ (by decide),
    Device.get_set_ne _ _ _ _ (by decide), Device.get_set_self _ _ _ (by decide)]
  rfl

end

/-! ## A fault after another one of the same cycle (R455) -/

theorem faultAfter_frame : SameButMem faultRegs [.resv, .evt] [faultBytes] d (d.faultAfter code index) :=
  (d.fault_frame code index).trans_sameBut (((SameBut.refl _ _ _).wr _ (by simp [faultRegs])).wr _ (by simp [faultRegs]))

theorem faultAfter_last : (d.faultAfter code index).rd R.FLT_LAST = d.rd R.FLT_LAST := by
  rw [Device.faultAfter, Device.rd_wr_ne _ _ _ _ (by decide), Device.rd_wr_self]

theorem faultAfter_flag {f : Fld} (ha : f.addr = R.FLT_FLAGS) (hfault : 0 < f.lo) (hpin : f.hi < 3 ∨ 3 < f.lo) (hhist : f.hi < 5 ∨ 5 < f.lo) :
    (d.faultAfter code index).get f = d.get f := by
  have hlast : SameBut [R.FLT_LAST, R.FLT_LAST_LINE] [] (d.fault code index) (d.faultAfter code index) :=
    ((SameBut.refl _ _ _).wr _ (by simp)).wr _ (by simp)
  rw [hlast.get (by rw [ha]; decide), d.fault_flag code index ha hfault hpin hhist]

end

end Sys2Proof.Machine

/-! # What leaves the fault collector alone

The registers of a range of addresses, and the fault collector's own part, over the operations that the safe state and the region resets are made
of (Tables 22.2 to 22.4). -/

namespace Sys2Proof.Machine

/-- The registers from `lo` on and below `hi`, and the fault collector's part, are the same in two devices. -/
structure SameRange (lo hi : Nat) (d e : Device) : Prop where
  regs : ∀ a, lo ≤ a → a < hi → e.rd a = d.rd a
  flt : e.flt = d.flt

/-- The page of the fault collector and its part are the same in two devices. -/
abbrev SameFaults : Device → Device → Prop := SameRange 0x10030000 0x10040000

/-- Register `a` lies outside the range. -/
abbrev Outside (lo hi a : Nat) : Prop := a < lo ∨ hi ≤ a

theorem Outside.of_base {lo hi base : Nat} {k : Nat} (h : hi ≤ base) : Outside lo hi (base + k) := .inr (Nat.le_add_right_of_le h)

/-! ## Updates -/

section
variable {lo hi : Nat} {c d e : Device}

theorem SameRange.refl (lo hi : Nat) (d : Device) : SameRange lo hi d d := ⟨fun _ _ _ => rfl, rfl⟩

theorem SameRange.trans (h : SameRange lo hi c d) (h' : SameRange lo hi d e) : SameRange lo hi c e :=
  ⟨fun a hlo hhi => (h'.regs a hlo hhi).trans (h.regs a hlo hhi), h'.flt.trans h.flt⟩

/-- An update of other parts. -/
theorem SameRange.parts (h : SameRange lo hi c d) (hregs : e.regs = d.regs) (hflt : e.flt = d.flt) : SameRange lo hi c e :=
  h.trans ⟨fun a _ _ => by unfold Device.rd; rw [hregs], hflt⟩

theorem SameRange.putFly (h : SameRange lo hi c d) (x : Fly) : SameRange lo hi c { d with fly := x } := h.parts rfl rfl

theorem SameRange.putGeo (h : SameRange lo hi c d) (x : Geo) : SameRange lo hi c { d with geo := x } := h.parts rfl rfl

theorem SameRange.putEj (h : SameRange lo hi c d) (x : Eject) : SameRange lo hi c { d with ej := x } := h.parts rfl rfl

theorem SameRange.putCap (h : SameRange lo hi c d) (x : Cap) : SameRange lo hi c { d with cap := x } := h.parts rfl rfl

theorem SameRange.putFresh (h : SameRange lo hi c d) (x : Nat) : SameRange lo hi c { d with fresh := x } := h.parts rfl rfl

theorem SameRange.putEvt (h : SameRange lo hi c d) (x : Evt) : SameRange lo hi c { d with evt := x } := h.parts rfl rfl

theorem SameRange.putCrc (h : SameRange lo hi c d) (x : Vector CrcUnit 8) : SameRange lo hi c { d with crc := x } := h.parts rfl rfl

/-- An operation with a frame that lies outside the range. -/
theorem SameBut.range {as : List Nat} {ps : List Part} (h : SameBut as ps d e) (has : ∀ a ∈ as, Outside lo hi a) (hps : Part.flt ∉ ps) :
    SameRange lo hi d e :=
  ⟨fun a hlo hhi => h.regs a fun ha => (has a ha).elim (Nat.not_lt.2 hlo) (Nat.not_le.2 hhi), h.parts .flt hps⟩

theorem SameRange.fold {α : Type} {f : Device → α → Device} : ∀ {l : List α} {d : Device}, (∀ d, ∀ x ∈ l, SameRange lo hi d (f d x)) →
    SameRange lo hi d (l.foldl f d)
  | [], d, _ => .refl _ _ d
  | x :: _, d, h => (h d x List.mem_cons_self).trans (SameRange.fold fun d y hy => h d y (List.mem_cons_of_mem x hy))

theorem SameRange.foldl {α : Type} {f : Device → α → Device} {l : List α} (h : SameRange lo hi c d) (hf : ∀ d, ∀ x ∈ l, SameRange lo hi d (f d x)) :
    SameRange lo hi c (l.foldl f d) :=
  h.trans (.fold hf)

theorem SameRange.ite {p : Prop} [Decidable p] (h : SameRange lo hi c d) (h' : SameRange lo hi c e) : SameRange lo hi c (if p then d else e) :=
  iteInduction (fun _ => h) fun _ => h'

theorem SameRange.wr (h : SameRange lo hi c d) {a : Nat} (v : Word) (ha : Outside lo hi a) : SameRange lo hi c (d.wr a v) :=
  h.trans ⟨fun b hlo hhi => Device.rd_wr_ne _ _ _ _ (by unfold Outside at ha; omega), rfl⟩

theorem SameRange.set (h : SameRange lo hi c d) {f : Fld} (v : Nat) (ha : Outside lo hi f.addr) : SameRange lo hi c (d.set f v) := h.wr _ ha

theorem SameRange.setBit (h : SameRange lo hi c d) {f : Fld} (b : Bool) (ha : Outside lo hi f.addr) : SameRange lo hi c (d.setBit f b) := h.wr _ ha

theorem SameRange.count (h : SameRange lo hi c d) {f : Fld} (n : Nat) (ha : Outside lo hi f.addr) : SameRange lo hi c (d.count f n) := h.wr _ ha

theorem SameRange.raise (h : SameRange lo hi c d) {f : Fld} (ha : Outside lo hi f.addr) : SameRange lo hi c (d.raise f) :=
  h.trans ⟨fun a hlo hhi => (Device.rd_raise _ _ _).trans (((SameRange.refl lo hi d).set 1 ha).regs a hlo hhi), Device.raise_flt _ _⟩

theorem SameRange.raiseIf (h : SameRange lo hi c d) (b : Bool) {f : Fld} (ha : Outside lo hi f.addr) : SameRange lo hi c (d.raiseIf b f) :=
  .ite (h.raise ha) h

theorem SameRange.setBytes (h : SameRange lo hi c d) (a : Nat) (bs : List Byte) : SameRange lo hi c (d.setBytes a bs) :=
  h.trans ⟨fun b _ _ => d.setBytes_rd a bs b, by rw [Device.setBytes_eq]⟩

theorem SameRange.get (h : SameRange lo hi d e) {f : Fld} (hlo : lo ≤ f.addr) (hhi : f.addr < hi) : e.get f = d.get f :=
  congrArg f.of (h.regs _ hlo hhi)

theorem SameRange.bit (h : SameRange lo hi d e) {f : Fld} (hlo : lo ≤ f.addr) (hhi : f.addr < hi) : e.bit f = d.bit f := by
  unfold Device.bit
  rw [h.get hlo hhi]

end

section
variable {d e : Device} (h : SameFaults d e)
include h

theorem SameRange.safe : e.safe = d.safe := h.bit (by decide) (by decide)

theorem SameRange.resetting (r : Nat) : e.resetting r = d.resetting r := by
  unfold Device.resetting
  rw [h.get (by decide) (by decide)]

theorem SameRange.regionPhase (r : Nat) : Machine.regionPhase e r = Machine.regionPhase d r := by
  unfold Machine.regionPhase
  rw [h.flt]

end

/-! ## Judgement stops -/

/-- One object in judgement takes the late path. -/
def stopObject (acc : Device × List JObj) (o : JObj) : Device × List JObj :=
  match o.forest with
  | some _ => (acc.1, acc.2 ++ [{ o with sel := .stopped }])
  | none => let (f, d1) := stoppedForest acc.1; (d1, acc.2 ++ [{ o with forest := some f, sel := .stopped }])

theorem stopJudgement_eq (d : Device) :
    stopJudgement d = (d.jud.objs.foldl stopObject (d, [])).1.setObjs (d.jud.objs.foldl stopObject (d, [])).2 := rfl

/-- Of the device only the free values advance. -/
theorem stopObject_fst (acc : Device × List JObj) (o : JObj) : ∃ n, (stopObject acc o).1 = { acc.1 with fresh := n } := by
  unfold stopObject
  split
  · exact ⟨_, rfl⟩
  · exact ⟨_, rfl⟩

/-! ## Spout ports, timed outputs, windows -/

section
variable {c d : Device} (h : SameFaults c d)
include h

theorem SameRange.showClaim (p : Nat) : SameFaults c (showClaim d p) :=
  h.trans ((showClaim_frame d p).range (by simpa using Outside.of_base (by decide)) (by simp))

theorem SameRange.setSpState (p st : Nat) : SameFaults c (setSpState d p st) := .showClaim (h.set st (.of_base (by decide))) p

theorem SameRange.setSpout (p : Nat) (x : Spout) : SameFaults c (d.setSpout p x) := .parts h rfl rfl

theorem SameRange.setWindows (ws : List Window) : SameFaults c (d.setWindows ws) := .set (.set (.putEj h _) _ (by decide)) _ (by decide)

theorem SameRange.spoutsSafe : SameFaults c (spoutsSafe d) :=
  .foldl (.setWindows h []) fun d _ _ => .ite (.refl _ _ d) (.setSpState (.setSpout (.refl _ _ d) _ _) _ _)

theorem SameRange.spoutsClear : SameFaults c (spoutsClear d) := .foldl h fun d _ _ => .setSpout (.refl _ _ d) _ _

theorem SameRange.spoutsAwait : SameFaults c (spoutsAwait d) := .foldl h fun d _ _ => .ite (.setSpout (.refl _ _ d) _ _) (.refl _ _ d)

theorem SameRange.setTio (p : Nat) (x : TioUnit) : SameFaults c (d.setTio p x) := .parts h rfl rfl

theorem SameRange.tioDisarm (p : Nat) : SameFaults c (tioDisarm d p) :=
  .setBit (.setBit (.setTio (.setTio h _ _) _ _) _ (.of_base (by decide))) _ (.of_base (by decide))

theorem SameRange.tioSafe : SameFaults c (tioSafe d) :=
  .foldl h fun d _ _ => .ite (.refl _ _ d) (.setTio (.tioDisarm (.refl _ _ d) _) _ _)

/-! ## Vision, Judgement, capture, Actuation -/

theorem SameRange.setSeg (v : Nat) (x : Seg) : SameFaults c (d.setSeg v x) := .parts h rfl rfl

theorem SameRange.setView (v : Nat) (x : View) : SameFaults c (d.setView v x) := .parts h rfl rfl

theorem SameRange.setAxis (n : Nat) (x : Axis) : SameFaults c (d.setAxis n x) := .parts h rfl rfl

theorem SameRange.setObjs (x : List JObj) : SameFaults c (d.setObjs x) := .parts h rfl rfl

theorem SameRange.showOpen (v : Nat) : SameFaults c (showOpen d v) := .set (.set h _ (.of_base (by decide))) _ (.of_base (by decide))

theorem SameRange.showWait (v peak : Nat) : SameFaults c (showWait d v peak) := .set (.set h _ (.of_base (by decide))) _ (.of_base (by decide))

theorem SameRange.showUpper : SameFaults c (showUpper d) := .set (.set h _ (by decide)) _ (by decide)

theorem SameRange.clearObjects : SameFaults c (clearObjects d) :=
  .showUpper (.putFly (.foldl h fun d _ _ => .showWait (.showOpen (.setSeg (.refl _ _ d) _ _) _) _ _) _)

theorem SameRange.clearVision : SameFaults c (clearVision d) :=
  .clearObjects (.putGeo (.foldl h fun d _ _ => .setView (.refl _ _ d) _ _) _)

theorem SameRange.stopJudgement : SameFaults c (stopJudgement d) := by
  rw [stopJudgement_eq]
  refine .setObjs (List.foldlRecOn (motive := fun acc : Device × List JObj => SameFaults c acc.1) _ _ h fun acc hacc o _ => ?_) _
  obtain ⟨n, heq⟩ := stopObject_fst acc o
  rw [heq]
  exact .putFresh hacc _

theorem SameRange.clearCapture : SameFaults c (clearCapture d) := .setBit (.set (.putCap h _) _ (by decide)) _ (by decide)

theorem SameRange.showCap : SameFaults c (showCap d) := .ite (.raise (.set h _ (by decide)) (by decide)) (.set h _ (by decide))

theorem SameRange.setMonChan (k : Nat) (x : MonChan) : SameFaults c (d.setMonChan k x) := .parts h rfl rfl

theorem SameRange.sigFail (k : Nat) : SameFaults c (sigFail d k) := by
  have hidle (x : MonChan) : SameFaults c ((d.setMonChan k x).setBit (F.MON_Cc_STATUS.ARMED k) false) :=
    .setBit (.setMonChan h k x) _ (.of_base (by decide))
  unfold Machine.sigFail
  dsimp only
  split
  · exact h
  · exact .count (.raise (.ite (.set (hidle _) _ (.of_base (by decide))) (.set (hidle _) _ (.of_base (by decide)))) (by decide)) _ (.of_base (by decide))

theorem SameRange.monRestart : SameFaults c (monRestart d) :=
  .foldl h fun d _ _ => .ite (.sigFail (.setBit (.refl _ _ d) _ (.of_base (by decide))) _) (.refl _ _ d)

theorem SameRange.clearActuation : SameFaults c (clearActuation d) :=
  .foldl (.monRestart (.spoutsClear (.setWindows h []))) fun d _ _ => .setAxis (.refl _ _ d) _ _

end

/-! ## Any lane -/

section
variable (d : Device) (l : Lane)

theorem lnEnter_frame_laneRegs (st : Nat) : SameBut (laneRegs l) [.lanes] d (d.lnEnter l st) := by
  have hset : SameBut (laneRegs l) [.lanes] d (d.set (F.LN_STATUS.STATE (laneBase l)) st) := (SameBut.refl _ _ d).set _ (by simp [laneRegs])
  have hleft : SameBut (laneRegs l) [.lanes] d (if d.lnState l = lnSync ∧ st ≠ lnSync then
      ((d.set (F.LN_STATUS.STATE (laneBase l)) st).set (F.LN_EYE.VALID (laneBase l)) 0).setLaneX l { d.laneX l with rx := [] }
      else d.set (F.LN_STATUS.STATE (laneBase l)) st) :=
    iteInduction (fun _ => (hset.set _ (by simp [laneRegs])).setLaneX _ _ (by simp)) fun _ => hset
  cases l with
  | cpRx p k => exact hleft.setBit _ (List.mem_append_right _ (List.mem_singleton.2 rfl))
  | _ => exact hleft

/-- The registers of a lane that powering it up or down may write. -/
def switchRegs (l : Lane) : List Nat := laneRegs l ++ trainRegs l

theorem lnPowerDown_frame_switchRegs (standby : Bool) : SameBut (switchRegs l) [.lanes, .evt] d (lnPowerDown d l standby) := by
  obtain ⟨x, heq⟩ := lnPowerDown_eq d standby
  have hset : SameBut (switchRegs l) [.lanes, .evt] d
      ((d.set (F.LN_CTRL.POWER (laneBase l)) (if standby then 1 else 0)).setBit (F.LN_STATUS.ENABLE_PENDING (laneBase l)) false) :=
    ((SameBut.refl _ _ d).set _ (by simp [switchRegs, laneRegs])).setBit _ (by simp [switchRegs, laneRegs])
  rw [heq]
  exact ((hset.then (trainCut_frame _ l) (by simp [switchRegs]) (by simp)).setLaneX _ _ (by simp)).then (lnEnter_frame_laneRegs _ l _)
    (by simp [switchRegs]) (by simp)

theorem lnPowerUp_frame_switchRegs : SameBut (switchRegs l) [.lanes, .evt] d (lnPowerUp d l) := by
  have hset : SameBut (switchRegs l) [.lanes, .evt] d (d.set (F.LN_CTRL.POWER (laneBase l)) 2) :=
    (SameBut.refl _ _ d).set _ (by simp [switchRegs, laneRegs])
  exact iteInduction (fun _ => .refl _ _ d) fun _ =>
    iteInduction (fun _ => hset.then (lnEnter_frame_laneRegs _ l _) (by simp [switchRegs]) (by simp)) fun _ =>
      iteInduction (fun _ => hset.set _ (by simp [switchRegs, laneRegs])) fun _ => hset

end

/-! ## Camera ports -/

section
variable {lo hi p : Nat} (hp : p < 12)
  (hpage : ∀ a, 0x20000000 + p * 0x10000 ≤ a → a < 0x20010000 + p * 0x10000 → Outside lo hi a)
include hpage

theorem outside_port {base : Nat} (hlo : 0x20000000 ≤ base) (hhi : base < 0x20010000) : Outside lo hi (base + p * 0x10000) :=
  hpage _ (Nat.add_le_add_right hlo _) (Nat.add_lt_add_right hhi _)

include hp in
theorem outside_port_lane {l : Lane} (hl : l = bcLane p ∨ ∃ k, l = rxLane p k) : ∀ a ∈ switchRegs l, Outside lo hi a := by
  have hport : (Fin.ofNat 12 p).val = p := Nat.mod_eq_of_lt hp
  have hbase : 0x20008000 + p * 0x10000 ≤ laneBase l ∧ laneBase l ≤ 0x20008400 + p * 0x10000 := by
    rcases hl with rfl | ⟨k, rfl⟩
    · rw [bcLane, laneBase, hport]; omega
    · rw [rxLane, laneBase, hport]; have := (Fin.ofNat 4 k).isLt; omega
  have hoffset (k : Nat) (hk : k < 0x100) : Outside lo hi (laneBase l + k) := hpage _ (by omega) (by omega)
  intro a ha
  simp only [switchRegs, laneRegs, trainRegs, List.mem_append, List.mem_cons, List.not_mem_nil, or_false] at ha
  rcases ha with ((rfl | rfl | rfl) | ha) | rfl | rfl | rfl
  case inl.inr =>
    rcases hl with rfl | ⟨k, rfl⟩
    · exact absurd ha List.not_mem_nil
    · rw [List.mem_singleton.1 ha, hport]
      exact outside_port hpage (by decide) (by decide)
  all_goals exact hoffset _ (by decide)

variable {c d : Device} (h : SameRange lo hi c d)
include h

omit hpage in
theorem SameRange.setPort (x : Port) : SameRange lo hi c (d.setPort p x) := h.parts rfl rfl

omit hpage in
theorem SameRange.setLaneX (l : Lane) (x : LaneX) : SameRange lo hi c (d.setLaneX l x) := h.parts rfl rfl

theorem SameRange.countLost (n : Nat) : SameRange lo hi c (countLost d p n) :=
  .ite h (.raise (.count h _ (outside_port hpage (by decide) (by decide))) (outside_port hpage (by decide) (by decide)))

theorem SameRange.loseAll : SameRange lo hi c (loseAll d p) :=
  .foldl h fun d _ _ => .countLost hpage (.setPort (.refl _ _ d) _) _

theorem SameRange.ctlEnd (result : Nat) : SameRange lo hi c (ctlEnd d p result) := by
  unfold Machine.ctlEnd
  dsimp only
  split
  · exact .set (.set (.setPort h _) _ (outside_port hpage (by decide) (by decide))) _ (outside_port hpage (by decide) (by decide))
  · exact .setPort h _

theorem SameRange.dropBackchannel (st : Nat) : SameRange lo hi c (dropBackchannel d p st) := .setPort (.ctlEnd hpage h 3) _

theorem SameRange.leaveRun : SameRange lo hi c (leaveRun d p) := by
  have hended : SameRange lo hi c ((Machine.ctlEnd d p 3).raise (F.CPn_FLAGS.CTL_REJ p)) :=
    .raise (.ctlEnd hpage h 3) (outside_port hpage (by decide) (by decide))
  unfold Machine.leaveRun
  dsimp only
  refine .ite (.raise (.set (.setPort ?_ _) _ (outside_port hpage (by decide) (by decide))) (outside_port hpage (by decide) (by decide))) ?_ <;>
  · split
    · exact hended
    · exact h

theorem SameRange.portEnter (st : Nat) : SameRange lo hi c (portEnter d p st) := by
  have hstate : SameRange lo hi c ((if d.portState p = psRun ∧ st ≠ psRun then Machine.leaveRun d p else d).set (F.CPn_STATUS.STATE p) st) :=
    .set (.ite (.leaveRun hpage h) h) _ (outside_port hpage (by decide) (by decide))
  have hflag {e : Device} (he : SameRange lo hi c e) (b b' : Bool) :
      SameRange lo hi c ((e.raiseIf b (F.CPn_FLAGS.FAULT p)).raiseIf b' (F.CPn_FLAGS.RESYNC p)) :=
    .raiseIf (.raiseIf he _ (outside_port hpage (by decide) (by decide))) _ (outside_port hpage (by decide) (by decide))
  unfold Machine.portEnter
  dsimp only
  refine .ite (.setPort (.set ?_ _ (outside_port hpage (by decide) (by decide))) _) ?_ <;>
  exact hflag (.ite (.dropBackchannel hpage (.loseAll hpage (.setPort hstate _)) _) (.setPort hstate _)) _ _

include hp

theorem SameRange.lnPowerUp {l : Lane} (hl : l = bcLane p ∨ ∃ k, l = rxLane p k) : SameRange lo hi c (lnPowerUp d l) :=
  h.trans ((lnPowerUp_frame_switchRegs d l).range (outside_port_lane hp hpage hl) (by simp))

theorem SameRange.lnPowerDown {l : Lane} (hl : l = bcLane p ∨ ∃ k, l = rxLane p k) (standby : Bool) :
    SameRange lo hi c (lnPowerDown d l standby) :=
  h.trans ((lnPowerDown_frame_switchRegs d l standby).range (outside_port_lane hp hpage hl) (by simp))

theorem SameRange.lnEnter {l : Lane} (hl : l = bcLane p ∨ ∃ k, l = rxLane p k) (st : Nat) : SameRange lo hi c (d.lnEnter l st) :=
  h.trans ((lnEnter_frame_laneRegs d l st).range (fun a ha => outside_port_lane hp hpage hl a (List.mem_append_left _ ha)) (by simp))

theorem SameRange.setRate (rate : Nat) : SameRange lo hi c (setRate d p rate) := by
  refine .foldl h fun d k _ => ?_
  have hlane : rxLane p k = bcLane p ∨ ∃ j, rxLane p k = rxLane p j := .inr ⟨k, rfl⟩
  have hrate : SameRange lo hi d (d.set (F.LN_STATUS.RATE (laneBase (rxLane p k))) rate) :=
    .set (.refl _ _ d) _ (outside_port_lane hp hpage hlane _ (by simp [switchRegs, laneRegs]))
  exact .ite (.refl _ _ d) (.ite (.lnEnter hp hpage (.setLaneX hrate _ _) hlane _) hrate)

theorem SameRange.portOn : SameRange lo hi c (portOn d p) :=
  .ite h (.portEnter hpage (.lnPowerUp hp hpage (.foldl (.setRate hp hpage h 1) fun d k _ =>
    .lnPowerUp hp hpage (.refl _ _ d) (.inr ⟨k, rfl⟩)) (.inl rfl)) psLaneWake)

theorem SameRange.portLanesOff : SameRange lo hi c (portLanesOff d p) :=
  .foldl (.lnPowerDown hp hpage h (.inl rfl) false) fun d k _ => .lnPowerDown hp hpage (.refl _ _ d) (.inr ⟨k, rfl⟩) false

theorem SameRange.portRestartDev : SameRange lo hi c (portRestartDev p d) :=
  .portOn hp hpage (.set (.portEnter hpage (.portLanesOff hp hpage h) psDisabled) _ (outside_port hpage (by decide) (by decide)))

end

/-! ## Calibration runs, the pipes -/

section
variable {lo hi : Nat} (hbelow : hi ≤ 0x20200000)
include hbelow

theorem outside_of_le {a : Nat} (ha : 0x20200000 ≤ a) : Outside lo hi a := .inr (Nat.le_trans hbelow ha)

variable {c d : Device} (h : SameRange lo hi c d)
include h

omit hbelow in
theorem SameRange.putCal (x : Cal) : SameRange lo hi c { d with cal := x } := h.parts rfl rfl

omit hbelow in
theorem SameRange.putPipesCal (x : Pipes) (y : Cal) : SameRange lo hi c { d with pipes := x, cal := y } := h.parts rfl rfl

theorem SameRange.takeSets (x : CalContent) : SameRange lo hi c (takeSets d x) := by
  refine .foldl (.setBytes h _ _) fun d e _ => iteInduction (fun hreg => .wr (.refl _ _ d) _ (outside_of_le hbelow ?_)) fun _ => .refl _ _ d
  simp only [List.contains_iff_mem, List.mem_cons, List.not_mem_nil, or_false, R.CAL_Cn_SETS, R.CAL_Cn_SETT01, R.CAL_Cn_RESID] at hreg
  omega

theorem SameRange.endRun (code : Nat) : SameRange lo hi c (endRun d code) :=
  .putCal (.set (.set (.set (.set h _ (outside_of_le hbelow (by decide))) _ (outside_of_le hbelow (by decide))) _
    (outside_of_le hbelow (Nat.le_add_right_of_le (by decide)))) _ (outside_of_le hbelow (by decide))) _

theorem SameRange.tempCheck (k : Nat) : SameRange lo hi c (tempCheck d k) := by
  unfold Machine.tempCheck
  split
  · exact h
  · have hdue : SameRange lo hi c (d.setBit (F.CAL_Cn_RESULT.TEMP_DUE k) true) :=
      .setBit h _ (outside_of_le hbelow (Nat.le_add_right_of_le (by decide)))
    exact .ite (.raiseIf (.ite (.setBit hdue _ (outside_of_le hbelow (a := R.CAL_DUE_LO) (by decide)))
      (.setBit hdue _ (outside_of_le hbelow (a := R.CAL_DUE_HI) (by decide)))) _ (outside_of_le hbelow (by decide))) h

theorem SameRange.discardRun : SameRange lo hi c (discardRun d) := by
  unfold Machine.discardRun
  split
  · exact h
  · refine .tempCheck hbelow (.raise (.count (.endRun hbelow ?_ 3) _ (outside_of_le hbelow (by decide))) (outside_of_le hbelow (by decide))) _
    split
    · exact .putCal (.takeSets hbelow h _) _
    · exact h

theorem SameRange.showWaiting : SameRange lo hi c (showWaiting d) :=
  .set (.set h _ (outside_of_le hbelow (by decide))) _ (outside_of_le hbelow (by decide))

end

/-! ## The Intake region -/

/-- Every camera port is without bytes in its ingress buffer. -/
def ingressEmptied (d : Device) : Device := (List.range 12).foldl (fun d p => d.setPort p { d.port p with ingress := 0, rx := {} }) d

/-- Every camera port that is on is restarted. -/
def portsRestarted (d : Device) : Device := (List.range 12).foldl (fun d p => if d.portState p = psDisabled then d else portRestartDev p d) d

/-- The calibration run is discarded, and the pipes are empty. -/
def pipesEmptied (d : Device) : Device :=
  showWaiting { (discardRun d).set F.PIPE_STATUS.BUSY 0 with
    pipes := { (discardRun d).pipes with waiting := [], pipe := Vector.replicate 8 none, openBlock := Vector.replicate 48 none },
    cal := { (discardRun d).cal with sets := [], olds := [] } }

theorem clearIntake_eq (d : Device) : clearIntake d = pipesEmptied (portsRestarted (ingressEmptied d)) := rfl

theorem outside_faults_of_port (p a : Nat) (hlo : 0x20000000 + p * 0x10000 ≤ a) (_ : a < 0x20010000 + p * 0x10000) : Outside 0x10030000 0x10040000 a :=
  .inr (by omega)

section
variable {lo hi : Nat} {c d : Device}

theorem SameRange.ingressEmptied (h : SameRange lo hi c d) : SameRange lo hi c (ingressEmptied d) := .foldl h fun d _ _ => .setPort (.refl _ _ d) _

theorem SameRange.pipesEmptied (hbelow : hi ≤ 0x20200000) (h : SameRange lo hi c d) : SameRange lo hi c (pipesEmptied d) :=
  .showWaiting hbelow (.putPipesCal (.set (.discardRun hbelow h) _ (outside_of_le hbelow (by decide))) _ _)

theorem SameRange.portsRestarted (h : SameFaults c d) : SameFaults c (portsRestarted d) :=
  .foldl h fun d p hp => .ite (.refl _ _ d) (.portRestartDev (List.mem_range.1 hp) (outside_faults_of_port p) (.refl _ _ d))

theorem SameRange.clearIntake (h : SameFaults c d) : SameFaults c (clearIntake d) :=
  .pipesEmptied (by decide) (.portsRestarted (.ingressEmptied h))

end

end Sys2Proof.Machine

/-! # The safe state

What a chip cause shows as it enters the safe state, and that in the safe state it is only recorded (R462, R464). -/

namespace Sys2Proof.Machine

/-! ## Entering it (R462, Table 22.4) -/

section
variable (code index : Nat) (d : Device)

/-- In the safe state a chip cause is only recorded (R464). -/
theorem enterSafe_of_safe {d : Device} (h : d.safe = true) : enterSafe code index d = d.fault code index := if_pos h

/-- The cause is recorded, and the safe state shown in the registers and at the pins. -/
def safeShown : Device :=
  let d1 := (((d.fault code index).setBit F.FLT_STATUS.SAFE true).set F.FLT_STATUS.SAFE_CODE code).raise F.FLT_FLAGS.SAFE_ENTERED
  let d2 := (d1.count F.FLT_SAFE_COUNT.V).set (⟨R.FLT_SUPPLY, 25, 16⟩) ((d1.flt.badRails.map (fun k => 2 ^ k)).sum)
  let d3 := (d2.setBit F.CHIP_PINS.SAFE_N false).setBit F.CHIP_PINS.READY false
  d3.withFlt { d3.flt with controlHeld := d.resetting 1 }

/-- The spout ports and outputs go to SAFE, and what the datapath and the capture block hold is discarded. -/
def datapathStopped (d : Device) : Device :=
  let d5 := clearCapture (stopJudgement (clearVision (clearIntake (tioSafe (spoutsSafe d)))))
  showCap ((d5.set F.RSV_POWER.JDG_STATE 2).set F.RSV_POWER.CAPT_STATE 2)

variable {code} in
theorem enterSafe_of_not_safe {d : Device} (h : d.safe = false) (hcode : code ≠ faultMemory) :
    enterSafe code index d = datapathStopped (safeShown code index d) := by
  have hsafe : ¬ d.safe = true := by rw [h]; decide
  exact (if_neg hsafe).trans (if_neg hcode)

theorem datapathStopped_faults : SameFaults d (datapathStopped d) :=
  .showCap (.set (.set (.clearCapture (.stopJudgement (.clearVision (.clearIntake (.tioSafe (.spoutsSafe (.refl _ _ d))))))) _ (by decide)) _ (by decide))

/-- Beside its record, a cause that enters the safe state is shown in these registers. -/
theorem safeShown_frame : SameBut [R.FLT_STATUS, R.FLT_FLAGS, R.FLT_SAFE_COUNT, R.FLT_SUPPLY, R.CHIP_PINS] [.evt, .flt] (d.fault code index)
    (safeShown code index d) :=
  have hcause : SameBut [R.FLT_STATUS, R.FLT_FLAGS, R.FLT_SAFE_COUNT, R.FLT_SUPPLY, R.CHIP_PINS] [.evt, .flt] (d.fault code index)
      ((((d.fault code index).setBit F.FLT_STATUS.SAFE true).set F.FLT_STATUS.SAFE_CODE code).raise F.FLT_FLAGS.SAFE_ENTERED) :=
    (((SameBut.refl _ _ _).setBit _ (by simp)).set _ (by simp)).raise (by simp) (by simp)
  ((((hcause.count _ (by simp)).set _ (by simp)).setBit _ (by simp)).setBit _ (by simp)).withFlt _ (by simp)

/-- What comes after SAFE_ENTERED keeps the status and the flags. -/
theorem safeShown_frame_of_flagged : SameBut [R.FLT_SAFE_COUNT, R.FLT_SUPPLY, R.CHIP_PINS] [.flt]
    ((((d.fault code index).setBit F.FLT_STATUS.SAFE true).set F.FLT_STATUS.SAFE_CODE code).raise F.FLT_FLAGS.SAFE_ENTERED)
    (safeShown code index d) :=
  (((((SameBut.refl _ _ _).count _ (by simp)).set _ (by simp)).setBit _ (by simp)).setBit _ (by simp)).withFlt _ (by simp)

theorem safeShown_safe : (safeShown code index d).safe = true := by
  rw [Device.safe, (safeShown_frame_of_flagged code index d).bit (by decide), Device.bit, Device.get_raise, Device.get_set_ne _ _ _ _ (by decide),
    Device.get_set_ne _ _ _ _ (by decide), ← Device.bit, Device.bit_setBit_self _ _ rfl (by decide)]

theorem safeShown_safeCode : (safeShown code index d).get F.FLT_STATUS.SAFE_CODE = code % 65536 := by
  rw [(safeShown_frame_of_flagged code index d).get (by decide), Device.get_raise, Device.get_set_ne _ _ _ _ (by decide),
    Device.get_set_self _ _ _ (by decide)]
  rfl

/-- The flags of the collector that no chip cause sets: ESCALATED, SUPPLY_WARN, EXIT_REJ and REGION_RESET. -/
structure KeptFlag (f : Fld) : Prop where
  addr : f.addr = R.FLT_FLAGS
  fault : 0 < f.lo
  pin : f.hi < 3 ∨ 3 < f.lo
  entered : f.hi < 4 ∨ 4 < f.lo
  hist : f.hi < 5 ∨ 5 < f.lo

theorem safeShown_flag {f : Fld} (hf : KeptFlag f) : (safeShown code index d).get f = d.get f := by
  have haddr := hf.addr
  rw [(safeShown_frame_of_flagged code index d).get (by rw [haddr]; decide), Device.get_raise, Device.get_set_ne _ _ _ _ (.inr hf.entered.symm),
    Device.get_set_ne _ _ _ _ (.inl (by rw [haddr]; decide)), Device.get_setBit, Device.get_set_ne _ _ _ _ (.inl (by rw [haddr]; decide)),
    d.fault_flag code index hf.addr hf.fault hf.pin hf.hist]

end

/-! ## A chip cause in any state -/

section
variable {code : Nat} (hcode : code ≠ faultMemory) (index : Nat) (d : Device)
include hcode

/-- A chip cause leaves the device in the safe state. -/
theorem enterSafe_safe : (enterSafe code index d).safe = true := by
  cases hsafe : d.safe with
  | true =>
    rw [enterSafe_of_safe code index hsafe, Device.safe, (d.fault_frame code index).bit (by decide)]
    exact hsafe
  | false => rw [enterSafe_of_not_safe index hsafe hcode, (datapathStopped_faults _).safe, safeShown_safe]

/-- SAFE_CODE shows the cause that enters it. -/
theorem enterSafe_safeCode (h : d.safe = false) : (enterSafe code index d).get F.FLT_STATUS.SAFE_CODE = code % 65536 := by
  rw [enterSafe_of_not_safe index h hcode, (datapathStopped_faults _).get (by decide) (by decide), safeShown_safeCode]

/-- FLT_LAST shows the cause. -/
theorem enterSafe_last : (enterSafe code index d).rd R.FLT_LAST = (d.fault code index).rd R.FLT_LAST := by
  cases hsafe : d.safe with
  | true => rw [enterSafe_of_safe code index hsafe]
  | false =>
    rw [enterSafe_of_not_safe index hsafe hcode, (datapathStopped_faults _).regs _ (by decide) (by decide), (safeShown_frame code index d).regs _ (by decide)]

theorem enterSafe_flag {f : Fld} (hf : KeptFlag f) : (enterSafe code index d).get f = d.get f := by
  cases hsafe : d.safe with
  | true => rw [enterSafe_of_safe code index hsafe, d.fault_flag code index hf.addr hf.fault hf.pin hf.hist]
  | false =>
    rw [enterSafe_of_not_safe index hsafe hcode, (datapathStopped_faults _).get (by rw [hf.addr]; decide) (by rw [hf.addr]; decide), safeShown_flag code index d hf]

end

end Sys2Proof.Machine

/-! # A chip cause against EXIT, and in the safe state (O51)

R464: a chip cause of the cycle of EXIT has it refused, and one that comes in the safe state is recorded alone. -/

namespace Sys2Proof.Machine

/-! ## The commands -/

theorem exec_fltSafe {s : State} (h : gateOpen s.dev R.FLT_CTRL = true) : exec .fltSafe s = s.done (enterSafe faultFwRequest 0 s.dev) :=
  congrArg s.done (regAccess_of_gateOpen h true _)

theorem exec_refclk (cause : RefclkCause) (s : State) : exec (.refclk cause) s = s.done (refclkDev s.dev) := rfl

theorem exec_resetRegion_fault (code index : Nat) (s : State) :
    exec (.resetRegion (.fault code index)) s = s.done (resetRegionDev (.fault code index) s.dev) := rfl

theorem exec_supplySample (levels : List Nat) (s : State) : exec (.supplySample levels) s = s.done (supplyDev levels s.dev) := rfl

theorem exec_energyMeterSample (energy : List Nat) (temps : List Int) (s : State) :
    exec (.energyMeterSample energy temps) s = s.done (energySampleDev energy temps s.dev) := rfl

/-! ## A write of SAFE and EXIT together -/

/-- The row of FLT_CTRL in the register map. -/
def fltCtrlRow : RegDesc := { base := R.FLT_CTRL, dims := [], reset := 0x0, w1s := 0xE000001F }

section
variable {d : Device}

/-- A core's word access reaches FLT_CTRL where the gate is open. -/
theorem reachesReg_fltCtrl (n : Fin 4) (h : gateOpen d R.FLT_CTRL = true) : reachesReg { master := .core n, addr := R.FLT_CTRL } fltCtrlRow d := by
  have harea : areaAt d R.FLT_CTRL = some (.reg fltCtrlRow) := rfl
  simp only [gateOpen, Bool.and_eq_true, decide_eq_true_eq, Option.isNone_iff_eq_none] at h
  obtain ⟨hphase, hshut⟩ := h
  refine ⟨harea, ?_, hphase, ?_, .inl rfl⟩
  · unfold misaligned
    have haligned : R.FLT_CTRL % 4 = 0 := by decide
    simp [haligned]
  · unfold accessCause
    rw [hshut, harea]
    have haligned : R.FLT_CTRL % 4 = 0 := by decide
    have hwidths : 4 ∈ areaWidths (.reg fltCtrlRow) := List.mem_of_elem_eq_true rfl
    simp [haligned, hwidths]

/-- A write of FLT_CTRL acts. -/
theorem writeActs_fltCtrl (m : Nat) (who : StagingOwner) (r : RegDesc) (w hwSet : Word) (d : Device) :
    writeActs m who R.FLT_CTRL r w hwSet d = some (fltCtrlDev w d) := by
  have hlane : writeLane R.FLT_CTRL w d = none := by
    have hnone : laneAt R.FLT_CTRL = none := by decide
    rw [writeLane, hnone]
  rw [writeActs, hlane]
  rfl

theorem accessWrite_fltCtrl (n : Fin 4) (w : DWord) (h : gateOpen d R.FLT_CTRL = true)
    (hstop : coreStops { master := .core n, addr := R.FLT_CTRL } true d = none) :
    accessWrite { master := .core n, addr := R.FLT_CTRL } w.toNat 0 d = fltCtrlDev (BitVec.ofNat 32 w.toNat) ((latchPlic d).reply 0) := by
  rw [accessWrite_of_reachesReg (reachesReg_fltCtrl n h) hstop, writeReg, writeActs_fltCtrl]

/-- SAFE comes first, and refuses the EXIT. -/
theorem fltCtrlDev_safe_exit {w : Word} (hsafe : F.FLT_CTRL.SAFE.of w = 1) (hexit : F.FLT_CTRL.EXIT.of w = 1)
    (hclear : F.FLT_CTRL.HIST_CLEAR.of w ≠ 1) (hreset : F.FLT_CTRL.RESET_REGION.of w = 0) (d : Device) :
    fltCtrlDev w d = (enterSafe faultFwRequest 0 d).raise F.FLT_FLAGS.EXIT_REJ := by
  have hnone (e : Device) : requestResets true 0 e = e := rfl
  simp [fltCtrlDev, hsafe, hexit, hclear, hreset, hnone, exitDev]

theorem refuses_exit (d : Device) : (fltCtrlDev 0xC0000000 d).safe = true ∧ (fltCtrlDev 0xC0000000 d).get F.FLT_FLAGS.EXIT_REJ = 1 ∧
    (fltCtrlDev 0xC0000000 d).get F.FLT_LAST.CODE = faultFwRequest := by
  rw [fltCtrlDev_safe_exit (by decide) (by decide) (by decide) (by decide)]
  refine ⟨?_, Device.get_raise_self _ _ rfl (by decide), ?_⟩
  · rw [Device.safe, Device.bit, Device.get_raise, Device.get_set_ne _ _ _ _ (by decide), ← Device.bit]
    exact enterSafe_safe (by decide) 0 d
  · rw [Device.get_raise, Device.get_set_ne _ _ _ _ (by decide), Device.get, enterSafe_last (by decide), ← Device.get, Device.fault_code _ _ (by decide)]
    rfl

end

/-! ## Chip causes in the safe state -/

section
variable {d : Device}

/-- A level-3 fault of the Memory region in the safe state: the chip cause that it gives is recorded, then the fault. -/
theorem regionFault_trainFail (index : Nat) (h : d.safe = true) :
    resetRegionDev (.fault faultTrainFail index) d = (d.fault faultMemory index).faultAfter faultTrainFail index := by
  rw [← enterSafe_of_safe faultMemory index h]
  rfl

/-- One chip cause of a sample in the safe state is recorded. -/
theorem chipCauses_of_safe (code k : Nat) (h : d.safe = true) : chipCauses code [k] d = d.fault code k := enterSafe_of_safe code k h

/-- A lost reference. -/
theorem refclkDev_of_safe (h : d.safe = true) (href : d.flt.refOk = true) :
    refclkDev d = (d.withFlt { d.flt with refOk := false }).fault faultRefclk 0 := by
  rw [refclkDev, if_pos href]
  exact enterSafe_of_safe _ _ h

/-- The sample of a rail shows in FLT_SUPPLY and in SUPPLY_WARN. -/
def supplyShown (levels : List Nat) (d : Device) : Device :=
  let ks := levels.zip (List.range 10)
  let warn := (ks.filter (fun e => railOutside d e.2 5 e.1 || (e.2 == 0 && coreSetBad d))).map Prod.snd
  (d.set (⟨R.FLT_SUPPLY, 9, 0⟩) ((warn.map (fun k => 2 ^ k)).sum)).raiseIf (ks.any (fun e => railOutside d e.2 5 e.1)) F.FLT_FLAGS.SUPPLY_WARN

theorem supplyShown_frame (levels : List Nat) (d : Device) : SameBut [R.FLT_SUPPLY, R.FLT_FLAGS] [.evt] d (supplyShown levels d) :=
  ((SameBut.refl _ _ d).set _ (by simp)).raiseIf _ (by simp) (by simp)

/-- Rail `k` lies outside 10 percent a second time, and its cause has not been taken. -/
theorem supplyDev_of_second {levels : List Nat} {k : Nat} (hphase : d.boot.phase ≠ .reset)
    (hlevels : (levels.zip (List.range 10)).all (fun l => decide (85 * railNominal d l.2 ≤ 100 * l.1)) = true)
    (hbad : ((levels.zip (List.range 10)).filter (fun l => railOutside d l.2 10 l.1)).map Prod.snd = [k]) (hbefore : d.flt.badRails = [k])
    (hcauses : d.flt.railCauses = []) : ∃ x, supplyDev levels d = chipCauses faultSupply [k] ((supplyShown levels d).withFlt x) := by
  have hup : (levels.zip (List.range 10)).any (fun e => decide (100 * e.1 < 85 * railNominal d e.2)) = false := by
    rw [List.any_eq_false]
    intro e he
    have hle := of_decide_eq_true (List.all_eq_true.1 hlevels e he)
    simpa using hle
  have htwice : ([k].filter fun j => d.flt.badRails.contains j) = [k] := by simp [hbefore]
  have hnew : ([k].filter fun j => !d.flt.railCauses.contains j) = [k] := by simp [hcauses]
  refine ⟨{ (supplyShown levels d).flt with badRails := [k], railCauses := [k] }, ?_⟩
  rw [supplyDev, if_neg hphase, if_neg (by rw [hup]; decide), supplyJudge]
  simp only [hbad, htwice, hnew]
  rfl

/-- Sensor `k` is at 140 °C or more a second time, and its cause has not been taken. -/
theorem energySampleDev_of_second (energy : List Nat) {temps : List Int} {k : Nat}
    (hhot : ((temps.zip (List.range 16)).filter (fun x => decide (1120 ≤ x.1))).map Prod.snd = [k]) (hbefore : d.flt.hot.contains k = true)
    (hcauses : d.flt.hotCauses = []) :
    ∃ x, energySampleDev energy temps d = chipCauses faultTjMax [k] ((meterSample energy temps d).withFlt x) := by
  have htwice : ([k].filter fun j => d.flt.hot.contains j) = [k] := List.filter_cons_of_pos hbefore
  have hnew : ([k].filter fun j => !d.flt.hotCauses.contains j) = [k] := by simp [hcauses]
  unfold energySampleDev
  simp only [hhot, htwice, hnew]
  exact ⟨_, rfl⟩

theorem meterSample_frame (energy : List Nat) (temps : List Int) (d : Device) : SameBut [R.RSV_FLAGS] [.evt, .rsv] d (meterSample energy temps d) :=
  SameBut.raiseIf ((SameBut.refl _ _ d).putRsv _ (by simp)) _ (by simp) (by simp)

end

/-- Settles O51: SAFE is recorded before its EXIT is judged; and in the safe state a chip cause is the record of its fault, for which alone the
registers of the collector and the history may change. -/
theorem chipCauseAgainstExit : Obligations.ChipCauseAgainstExit := by
  unfold Obligations.ChipCauseAgainstExit
  refine ⟨?_, ?_, ?_, ?_, ?_, ?_⟩
  · intro n s ⟨hgate, hstop⟩
    exact completes_done (congrArg s.done (accessWrite_fltCtrl n _ hgate hstop)) (refuses_exit _)
  · intro s hsafe hgate
    refine completes_done (exec_fltSafe hgate) ?_
    rw [enterSafe_of_safe _ _ hsafe]
    exact ⟨Device.fault_code _ _ (by decide), s.dev.fault_frame _ _⟩
  · intro cause s ⟨hsafe, href⟩
    refine completes_done (exec_refclk cause s) ?_
    rw [refclkDev_of_safe hsafe href]
    exact ⟨Device.fault_code _ _ (by decide), ((SameBut.refl _ _ s.dev).withFlt _ (by simp)).trans_sameButMem
      ((Device.fault_frame _ _ _).mono (by simp) (by simp))⟩
  · intro index s hsafe
    refine completes_done (exec_resetRegion_fault _ index s) ?_
    rw [regionFault_trainFail index hsafe]
    have hlast := faultAfter_last (s.dev.fault faultMemory index) faultTrainFail index
    exact ⟨(congrArg F.FLT_LAST.CODE.of hlast).trans (Device.fault_code _ _ (by decide)),
      (congrArg F.FLT_LAST.INDEX.of hlast).trans (Device.fault_index _ _ (by decide)),
      (s.dev.fault_frame _ _).trans (faultAfter_frame _ _ _)⟩
  · intro levels k s ⟨hphase, hsafe, hlevels⟩ ⟨hbad, hbefore, hcauses⟩
    refine completes_done (exec_supplySample levels s) ?_
    obtain ⟨x, heq⟩ := supplyDev_of_second hphase hlevels hbad hbefore hcauses
    have hshown := supplyShown_frame levels s.dev
    have hsafe' : ((supplyShown levels s.dev).withFlt x).safe = true := (hshown.bit (f := F.FLT_STATUS.SAFE) (by decide)).trans hsafe
    rw [heq, chipCauses_of_safe _ _ hsafe']
    exact ⟨Device.fault_code _ _ (by decide), ((hshown.mono (by simp [faultRegs]) (by simp)).withFlt x (by simp)).trans_sameButMem
      ((Device.fault_frame _ _ _).mono (by simp) (by simp))⟩
  · intro energy temps k s ⟨hhot, hbefore, hcauses, hsafe⟩
    refine completes_done (exec_energyMeterSample energy temps s) ?_
    obtain ⟨x, heq⟩ := energySampleDev_of_second energy hhot hbefore hcauses
    have hmeter := meterSample_frame energy temps s.dev
    have hsafe' : ((meterSample energy temps s.dev).withFlt x).safe = true := (hmeter.bit (f := F.FLT_STATUS.SAFE) (by decide)).trans hsafe
    rw [heq, chipCauses_of_safe _ _ hsafe']
    exact ⟨Device.fault_code _ _ (by decide), ((hmeter.mono (by simp) (by simp)).withFlt x (by simp)).trans_sameButMem
      ((Device.fault_frame _ _ _).mono (by simp) (by simp))⟩

end Sys2Proof.Machine

/-! # What a reset of Control leaves of the fault collector

The commit unit, the peer links, the cores, the DMA channels, the event fabric and the sessions (Table 22.3). -/

namespace Sys2Proof.Machine

theorem le_of_mem_masterRegs {a : Nat} (h : a ∈ masterRegs) : 0x10040000 ≤ a := by
  simp only [masterRegs, List.mem_append, List.mem_map, List.mem_range, List.mem_singleton] at h
  rcases h with (⟨k, -, rfl⟩ | rfl) | ⟨k, -, rfl⟩
  · unfold R.LCKk; omega
  · decide
  · unfold R.MBXk_STATUS; omega

/-- The registers of a receiving lane of a peer port lie above the page. -/
theorem outside_peerRx (n k a : Nat) : Outside 0x10030000 0x10040000 (laneBase (peerRxLane n k) + a) := by
  have hbase : 0x100E2000 ≤ laneBase (peerRxLane n k) := by
    change 0x100E2000 ≤ 0x100E2000 + _ + _
    omega
  exact .inr (by omega)

theorem outside_of_mem_trainRegs (n k : Nat) : ∀ a ∈ trainRegs (peerRxLane n k), Outside 0x10030000 0x10040000 a := by
  intro a ha
  simp only [trainRegs, List.mem_cons, List.not_mem_nil, or_false] at ha
  rcases ha with rfl | rfl | rfl
  · exact outside_peerRx n k _
  · exact outside_peerRx n k _
  · exact outside_peerRx n k _

section
variable {c d : Device} (h : SameFaults c d)
include h

/-! ## Parts of their own -/

theorem SameRange.setPair {lo hi : Nat} (v : Nat) (hlo : Outside 0x10030000 0x10040000 lo) (hhi : Outside 0x10030000 0x10040000 hi) :
    SameFaults c (d.setPair lo hi v) :=
  .wr (.wr h _ hlo) _ hhi

theorem SameRange.withSlu (x : Sluice) : SameFaults c (d.withSlu x) := .parts h rfl rfl

theorem SameRange.withEth (x : Eth) : SameFaults c (d.withEth x) := .parts h rfl rfl

theorem SameRange.withPair (x : Pair) : SameFaults c (d.withPair x) := .parts h rfl rfl

theorem SameRange.setPeer (n : Nat) (x : Peer) : SameFaults c (d.setPeer n x) := .parts h rfl rfl

theorem SameRange.setCell (k : Nat) (x : Cell) : SameFaults c (d.setCell k x) := .parts h rfl rfl

theorem SameRange.setCore (n : Nat) (x : CoreX) : SameFaults c (d.setCore n x) := .parts h rfl rfl

theorem SameRange.withChan (n : Nat) (f : DmaChan → DmaChan) : SameFaults c (d.withChan n f) := .parts h rfl rfl

theorem SameRange.putDma (x : Vector DmaChan 16) (y : List (Nat × Nat)) : SameFaults c { d with dma := x, dmaOut := y } := .parts h rfl rfl

theorem SameRange.putResvCores (x : List (Nat × Nat)) (y : Cores) : SameFaults c { d with resv := x, cores := y } := .parts h rfl rfl

theorem SameRange.putCores (x : Cores) : SameFaults c { d with cores := x } := .parts h rfl rfl

theorem SameRange.latchPlic : SameFaults c (latchPlic d) := .putCores h _

/-! ## The commit unit -/

theorem SameRange.queueFrame (n : Nat) (f : PeerFrame) : SameFaults c (queueFrame d n f) := .setPeer h _ _

theorem SameRange.commitTo (to_ : CommitRoot) (a : Nat) (m : CommitMsg) : SameFaults c (commitTo d to_ a m) := by
  unfold Machine.commitTo
  split
  · exact h
  · exact h
  · exact .ite (.queueFrame h _ _) h
  · split
    · exact .queueFrame h _ _
    · exact h

theorem SameRange.tellDown (m : CommitMsg) : SameFaults c (tellDown d m) := by
  unfold Machine.tellDown
  extract_lets a d1
  have hd1 : SameFaults c d1 := .foldl h fun d _ _ => .commitTo (.refl _ _ d) _ _ _
  exact .ite (.commitTo hd1 _ _ _) hd1

theorem SameRange.setOwner (o : StagingOwner) : SameFaults c (setOwner d o) := .set (.withSlu h _) _ (by decide)

theorem SameRange.discardStaged : SameFaults c (discardStaged d) := .withSlu h _

theorem SameRange.setResult (code item index : Nat) : SameFaults c (setResult d code item index) :=
  .set (f := F.SLU_RESULT.INDEX) (.set (f := F.SLU_RESULT.ITEM) (.set (f := F.SLU_RESULT.CODE) h _ (by decide)) _ (by decide)) _ (by decide)

theorem SameRange.pendingEnds (sid code status : Nat) (body : List Byte) : SameFaults c (pendingEnds d sid code status body) := by
  unfold Machine.pendingEnds
  split
  · exact .ite (.withEth h _) h
  · exact h

theorem SameRange.commitReplied (code : Nat) : SameFaults c (commitReplied d code) := by
  unfold Machine.commitReplied
  split
  · extract_lets d1 x d2
    have hd2 : SameFaults c d2 := .withSlu (.pendingEnds h _ _ _ _) _
    exact .ite (.setOwner hd2 _) hd2
  · exact h

theorem SameRange.commitEnded : SameFaults c (commitEnded d) := .ite (.setOwner h _) h

theorem SameRange.toOpen : SameFaults c (toOpen d) := .withSlu (.set h _ (by decide)) _

theorem SameRange.sluCancelled : SameFaults c (sluCancelled d) :=
  .toOpen (.commitEnded (.commitReplied (.count (f := F.SLU_CANCELS.V) (.setResult (.discardStaged (.commitTo (.tellDown h _) _ _ _)) _ _ _) _ (by decide)) _))

theorem SameRange.ownerLeaves (o : StagingOwner) : SameFaults c (ownerLeaves d o) := .ite (.setOwner (.discardStaged h) _) h

/-! ## Sessions, cells, units -/

theorem SameRange.closeSession (id : Nat) : SameFaults c (closeSession id d) := by
  unfold Machine.closeSession
  extract_lets e mine e1 d0 d0' d1 d2
  have hd0 : SameFaults c d0 := .withEth h _
  have hd0' : SameFaults c d0' := .ite (.setBit hd0 _ (by decide)) hd0
  have hd1 : SameFaults c d1 := .ite (.setOwner hd0' _) (.ownerLeaves hd0' _)
  have hd2 : SameFaults c d2 := .setBit hd1 _ (by decide)
  exact .ite (.withSlu hd2 _) hd2

theorem SameRange.mbxClear : SameFaults c (mbxClear d) :=
  .foldl h fun d _ _ => .wr (.wr (.refl _ _ d) _ (.of_base (by decide))) _ (.of_base (by decide))

theorem SameRange.setDma (n st : Nat) : SameFaults c (setDma d n st) :=
  h.trans ((((SameBut.refl [R.DMAc_STATUS n] [.dma] d).setDma n st (by simp) (by simp))).range (by simpa using Outside.of_base (by decide)) (by simp))

theorem SameRange.crcShow (u : Nat) : SameFaults c (crcShow d u) :=
  .setPair h _ (.of_base (by decide)) (.of_base (by decide))

/-! ## Masters and cores -/

theorem SameRange.lockMasterReset (m : Nat) : SameFaults c (lockMasterReset d m) :=
  h.trans ((lockMasterReset_frame d m).range (fun a ha => .inr (le_of_mem_masterRegs ha)) (by simp))

theorem SameRange.masterReset (m : Nat) : SameFaults c (masterReset d m) :=
  h.trans ((masterReset_frame d m).range (fun a ha => .inr (le_of_mem_masterRegs ha)) (by simp))

theorem SameRange.coreResetDev (n : Nat) : SameFaults c (coreResetDev n d) :=
  .ite (.masterReset (.setBit (.set (.putResvCores (.setCore h _ _) _ _) _ (.of_base (by decide))) _ (.of_base (by decide))) _) h

/-! ## Peer links -/

theorem SameRange.trainFinish (n k : Nat) (t : Training) (fail : Bool) : SameFaults c (trainFinish d (peerRxLane n k) t fail) :=
  h.trans ((trainFinish_frame d _ t fail).range (outside_of_mem_trainRegs n k) (by simp))

theorem SameRange.trainCut (n k : Nat) : SameFaults c (trainCut d (peerRxLane n k)) :=
  h.trans ((trainCut_frame d _).range (outside_of_mem_trainRegs n k) (by simp))

theorem SameRange.peerTrainStop (n : Nat) : SameFaults c (peerTrainStop d n) :=
  .setBit (.trainCut (.setBit (.trainCut h n 0) _ (outside_peerRx n 0 _)) n 1) _ (outside_peerRx n 1 _)

theorem SameRange.peerEnter (n st : Nat) : SameFaults c (peerEnter d n st) := by
  unfold Machine.peerEnter
  extract_lets d1 x d2
  have hd2 : SameFaults c d2 := .setPeer (.set h _ (.of_base (by decide))) _ _
  exact .ite (.setBit hd2 _ (by decide)) hd2

theorem SameRange.peerTrainIssue (n : Nat) : SameFaults c (peerTrainIssue d n) := by
  unfold Machine.peerTrainIssue
  split
  · exact h
  · split
    · exact h
    · dsimp only
      split
      · exact h
      · exact .queueFrame (.setPeer (.setLaneX h _ _) _ _) _ _

theorem SameRange.peerTrainFrom (n m k : Nat) : SameFaults c (peerTrainFrom d n m k) := by
  induction m generalizing d k with
  | zero => exact .peerEnter h _ _
  | succ m ih =>
    unfold Machine.peerTrainFrom
    refine .ite (.peerEnter h _ _) (.ite (ih h _) ?_)
    dsimp only
    split
    · exact .peerTrainIssue (.setPeer (.setBit (.setLaneX h _ _) _ (outside_peerRx n k _)) _ _) _
    · exact ih (.trainFinish h n k _ _) _

theorem SameRange.peerLoss (n : Nat) : SameFaults c (peerLoss n d) := by
  unfold Machine.peerLoss
  extract_lets d1 d2 d3 x d4
  have hd1 : SameFaults c d1 := .raise (.count (.count h (f := F.CHAIN_FWD_DROP.V) _ (by decide)) _ (.of_base (by decide))) (.of_base (by decide))
  have hd3 : SameFaults c d3 := .peerEnter (.setPeer (.masterReset (.peerTrainStop hd1 n) _) _ _) _ _
  have hd4 : SameFaults c d4 := .ite (.withPair (.raise hd3 (by decide)) _) hd3
  exact .ite (.peerTrainFrom (.peerEnter hd4 _ _) _ _ _) hd4

/-! ## Control, and every region -/

theorem SameRange.clearControl : SameFaults c (clearControl d) := by
  unfold Machine.clearControl
  extract_lets d0 d0' d1 d2 d3 d4 d5
  have hd0 : SameFaults c d0 := .ite (.sluCancelled h) h
  have hd0' : SameFaults c d0' := .foldl hd0 fun d _ _ => .ite (.peerLoss (.refl _ _ d) _) (.refl _ _ d)
  have hd1 : SameFaults c d1 := .mbxClear (.latchPlic (.foldl
    (.foldl hd0' fun d _ _ => .coreResetDev (.refl _ _ d) _) fun d _ _ => .lockMasterReset (.refl _ _ d) _))
  have hd2 : SameFaults c d2 := .foldl (.putDma hd1 _ _) fun d _ _ => .set (.setDma (.refl _ _ d) _ _) _ (.of_base (by decide))
  have hd3 : SameFaults c d3 := .foldl (.putCrc hd2 _) fun d _ _ =>
    .crcShow (.setPair (.refl _ _ d) _ (.of_base (by decide)) (.of_base (by decide))) _
  have hd4 : SameFaults c d4 := .foldl hd3 fun d _ _ => .setBit (.setCell (.refl _ _ d) _ _) _ (.of_base (by decide))
  exact .foldl (.putEvt hd4 _) fun d _ _ => .closeSession (.refl _ _ d) _

theorem SameRange.clearRegion (r : Nat) : SameFaults c (clearRegion r d) := by
  unfold Machine.clearRegion
  split
  · exact .clearControl h
  · exact .clearIntake h
  · exact .clearVision h
  · exact .stopJudgement h
  · exact .clearActuation h
  · exact h

end

end Sys2Proof.Machine

/-! # The start of a region reset

The first steps of Table 22.2, what they and a restart leave of the fault collector, and what a record keeps of what decides on a reset (R457). -/

namespace Sys2Proof.Machine

/-! ## What the steps leave of the fault collector -/

section
variable {c d : Device} (h : SameFaults c d)
include h

theorem SameRange.latchBusError (m addr : Nat) (write : Bool) (cause : Nat) : SameFaults c (latchBusError d m addr write cause) :=
  h.trans ((latchBusError_frame d m addr write cause).range (by decide) (by simp))

theorem SameRange.dmaHalt (n addr : Nat) (write : Bool) (cause : Nat) : SameFaults c (dmaHalt d n (F.DMAc_FLAGS.BUS_ERR n) addr write cause) := by
  have hregs : ∀ a ∈ dmaErrorRegs n, Outside 0x10030000 0x10040000 a := by
    intro a ha
    simp only [dmaErrorRegs, List.mem_cons, List.not_mem_nil, or_false] at ha
    rcases ha with rfl | rfl | rfl | rfl | rfl <;> exact .of_base (by decide)
  exact h.trans ((dmaHalt_frame d n addr write cause).range hregs (by simp))

theorem SameRange.dmaStops (n addr : Nat) (write : Bool) (cause : Nat) : SameFaults c (dmaStops d n addr write cause) :=
  .ite h (.ite (.dmaHalt (.latchBusError h _ _ _ _) _ _ _ _) (.withChan (.setDma (.latchBusError h _ _ _ _) _ _) _ _))

theorem SameRange.dmaRegion (r : Nat) : SameFaults c (dmaRegion r d) :=
  .foldl h fun d _ _ => .ite (.dmaStops (.refl _ _ d) _ _ _ _) (.ite (.dmaStops (.refl _ _ d) _ _ _ _) (.refl _ _ d))

theorem SameRange.pairRegionReset (r : Nat) : SameFaults c (pairRegionReset r d) :=
  .ite (.ite h (.raise (.withPair h _) (by decide))) h

theorem SameRange.pairRegionDone : SameFaults c (pairRegionDone d) :=
  .ite (h.trans ((enterPair_frame d pairJoin).range (by decide) (by simp))) h

theorem SameRange.restartLanes (cfg : Device) : SameFaults c (restartLanes d cfg) :=
  .foldl (.putFly h _) fun d _ _ => .set (.refl _ _ d) _ (.of_base (by decide))

theorem SameRange.rewriteLive (n : Nat) : SameFaults c (rewriteLive d n) := .ite (.setBytes h _ _) h

theorem SameRange.ringEmpty (cfg : Device) (v : Nat) : SameFaults c (ringEmpty d cfg v) := .setBytes h _ _

theorem SameRange.restartRegion (r : Nat) : SameFaults c (restartRegion r d) := by
  unfold Machine.restartRegion
  split
  · exact .foldl (.foldl h fun d _ _ => .rewriteLive (.refl _ _ d) _) fun d p hp =>
      .portOn (List.mem_range.1 hp) (outside_faults_of_port p) (.refl _ _ d)
  · exact .restartLanes (.foldl h fun d _ _ => .ite (.setView (.ringEmpty (.refl _ _ d) _ _) _ _) (.refl _ _ d)) _
  · exact .spoutsAwait (.setWindows h [])
  · exact .putEvt h _
  · exact h

end

/-! ## RESETTING and the phases -/

/-- RESETTING has a bit for each region. -/
theorem resetting_eq_bit (d : Device) {k : Nat} (hk : k < 5) : d.resetting (k + 1) = d.bit (F.FLT_STATUS.RESETTING.bitN k) := by
  have hlt : d.get (F.FLT_STATUS.RESETTING.bitN k) < 2 := (Fld.of_lt _ _).trans_eq (by simp [Fld.bitN])
  have hbit : (d.get (F.FLT_STATUS.RESETTING.bitN k)).testBit 0 = (d.rd R.FLT_STATUS).getLsbD (16 + k) := by
    rw [Device.get, Fld.of_testBit]
    simp [Fld.bitN]
  have hfield : d.resetting (k + 1) = (d.rd R.FLT_STATUS).getLsbD (16 + k) := by
    have hin : 16 + k < 21 + 1 := by omega
    rw [Device.resetting, bitAt, Device.get, Nat.add_sub_cancel, Fld.of_testBit, decide_eq_true hin, Bool.true_and]
  rw [hfield, ← hbit, Nat.testBit_zero, Device.bit]
  exact decide_eq_decide.2 (by omega)

theorem resetting_setBit_self (d : Device) {r : Nat} (hr : r < 5) (b : Bool) :
    (d.setBit (F.FLT_STATUS.RESETTING.bitN r) b).resetting (r + 1) = b := by
  rw [resetting_eq_bit _ hr]
  exact Device.bit_setBit_self _ _ rfl (by show 16 + r < 32; omega)

theorem resetting_setBit_ne (d : Device) {r k : Nat} (hk : k < 5) (hne : k ≠ r) (b : Bool) :
    (d.setBit (F.FLT_STATUS.RESETTING.bitN r) b).resetting (k + 1) = d.resetting (k + 1) := by
  rw [resetting_eq_bit _ hk, resetting_eq_bit _ hk, Device.bit, Device.get_setBit,
    Device.get_set_ne _ _ _ _ (.inr (by show 16 + r < 16 + k ∨ 16 + k < 16 + r; omega)), ← Device.bit]

theorem safe_setBit_resetting (d : Device) {r : Nat} (hr : r < 5) (b : Bool) : (d.setBit (F.FLT_STATUS.RESETTING.bitN r) b).safe = d.safe := by
  rw [Device.safe, Device.bit, Device.get_setBit, Device.get_set_ne _ _ _ _ (.inr (.inl (by show 16 + r < 31; omega))), ← Device.bit]
  rfl

theorem safe_congr {d e : Device} (h : e.rd R.FLT_STATUS = d.rd R.FLT_STATUS) : e.safe = d.safe := by
  unfold Device.safe Device.bit Device.get
  rw [h]

/-- Region `r + 1` is in the phase. -/
def inPhase (r : Nat) (x : RegionPhase) (d : Device) : Device := d.withFlt { d.flt with phase := withUnit d.flt.phase r x }

theorem regionPhase_inPhase_self (d : Device) {r : Nat} (hr : r < 5) (x : RegionPhase) : regionPhase (inPhase r x d) (r + 1) = x :=
  unit_withUnit_self _ (Nat.lt_succ_of_lt hr) x

theorem regionPhase_inPhase_ne (d : Device) {r k : Nat} (hne : k ≠ r) (x : RegionPhase) :
    regionPhase (inPhase r x d) (k + 1) = regionPhase d (k + 1) :=
  unit_withUnit_ne _ hne x

theorem resetting_congr {d e : Device} (h : e.rd R.FLT_STATUS = d.rd R.FLT_STATUS) (r : Nat) : e.resetting r = d.resetting r := by
  unfold Device.resetting Device.get
  rw [h]

/-! ## The record keeps what decides on a reset -/

section
variable {d e : Device} (h : SameButMem faultRegs [.resv, .evt] [faultBytes] d e)
include h

theorem SameButMem.flt_of_fault : e.flt = d.flt := h.parts .flt (by simp)

theorem SameButMem.resetting_of_fault (r : Nat) : e.resetting r = d.resetting r := resetting_congr (h.regs _ (by decide)) r

theorem SameButMem.safe_of_fault : e.safe = d.safe := h.bit (by decide)

theorem SameButMem.cannotReset_of_fault (r : Nat) : cannotReset r e = cannotReset r d := by
  rw [cannotReset, cannotReset, h.resetting_of_fault, h.safe_of_fault]

theorem SameButMem.resetStarts_of_fault (r : Nat) : resetStarts r e = resetStarts r d := by
  rw [resetStarts, resetStarts, h.flt_of_fault, h.nowNs (by simp)]

theorem SameButMem.escalates_of_fault (r : Nat) : escalates r e = escalates r d := by
  rw [escalates, escalates, h.cannotReset_of_fault, h.resetStarts_of_fault, h.get (by decide)]

end

/-! ## A reset starts -/

section
variable (r : Nat) (d : Device)

/-- Step 1 of Table 22.2 for region `r + 1`: RESETTING is set, and its DMA channels halt. -/
def resetShown : Device := dmaRegion (r + 1) (d.setBit (F.FLT_STATUS.RESETTING.bitN r) true)

/-- The reset of region `r + 1` is counted, and the region drains. -/
def resetCounted : Device := inPhase r .draining (d.count (F.FLT_Rr_RESETS.V r))

/-- What the region does at the start of its reset. -/
def regionStops : Device :=
  let d4 := if r + 1 = 5 then tioSafe (spoutsSafe d) else d
  pairRegionReset (r + 1) (if r + 1 = 4 then stopJudgement d4 else d4)

theorem beginReset_eq : beginReset (r + 1) d = regionStops r (resetCounted r (resetShown r d)) := by
  simp only [beginReset, Nat.add_sub_cancel, regionStops, resetCounted, resetShown, inPhase]

theorem resetShown_faults : SameFaults (d.setBit (F.FLT_STATUS.RESETTING.bitN r) true) (resetShown r d) := .dmaRegion (.refl _ _ _) _

theorem resetCounted_frame : SameBut [R.FLT_Rr_RESETS r] [.flt] d (resetCounted r d) :=
  ((SameBut.refl _ _ d).count _ (by simp)).withFlt _ (by simp)

theorem regionStops_faults : SameFaults d (regionStops r d) := by
  unfold regionStops
  extract_lets d4
  have hd4 : SameFaults d d4 := .ite (.tioSafe (.spoutsSafe (.refl _ _ d))) (.refl _ _ d)
  exact .pairRegionReset (.ite (.stopJudgement hd4) hd4) _

/-- The other registers of the collector show RESETTING alone. -/
theorem beginReset_rd {a : Nat} (hlo : 0x10030000 ≤ a) (hhi : a < 0x10040000) (hne : a ≠ R.FLT_Rr_RESETS r) :
    (beginReset (r + 1) d).rd a = (d.setBit (F.FLT_STATUS.RESETTING.bitN r) true).rd a := by
  rw [beginReset_eq, (regionStops_faults r _).regs a hlo hhi, (resetCounted_frame r _).regs a (by simpa using hne),
    (resetShown_faults r d).regs a hlo hhi]

theorem beginReset_phase (hr : r < 5) : regionPhase (beginReset (r + 1) d) (r + 1) = .draining := by
  rw [beginReset_eq, (regionStops_faults r _).regionPhase]
  exact regionPhase_inPhase_self _ hr _

theorem beginReset_resets (hr : r < 5) :
    (beginReset (r + 1) d).get (F.FLT_Rr_RESETS.V r) = min (d.get (F.FLT_Rr_RESETS.V r) + 1) 0xFFFFFFFF := by
  have hlo : 0x10030000 ≤ R.FLT_Rr_RESETS r := by unfold R.FLT_Rr_RESETS; omega
  have hhi : R.FLT_Rr_RESETS r < 0x10040000 := by unfold R.FLT_Rr_RESETS; omega
  have hstatus : R.FLT_Rr_RESETS r ≠ R.FLT_STATUS := by unfold R.FLT_Rr_RESETS R.FLT_STATUS; omega
  have hcount (e : Device) : (resetCounted r e).get (F.FLT_Rr_RESETS.V r) = min (e.get (F.FLT_Rr_RESETS.V r) + 1) 0xFFFFFFFF :=
    Device.get_count_saturating e (F.FLT_Rr_RESETS.V r) 1 (by simp)
  rw [beginReset_eq, (regionStops_faults r _).get hlo hhi, hcount, (resetShown_faults r d).get hlo hhi, Device.get_setBit,
    Device.get_set_ne _ _ _ _ (.inl hstatus)]

end

end Sys2Proof.Machine

/-! # Requests and faults of the regions

What starts a reset, enters the safe state or is only recorded (R457, R459, R461). -/

namespace Sys2Proof.Machine

/-! ## A request -/

theorem exec_resetRegion_write {s : State} (h : gateOpen s.dev R.FLT_CTRL = true) (bits : Nat) :
    exec (.resetRegion (.write bits)) s = s.done (requestResets false bits s.dev) :=
  congrArg s.done (regAccess_of_gateOpen h true _)

theorem filter_bitAt_two_pow (r : Fin 5) : (List.range 5).filter (bitAt (2 ^ r.val)) = [r.val] := by decide +revert

/-- A region is asked for where its bit is set and it can start a reset. -/
theorem requestedRegions_one {d : Device} (r : Fin 5) (h : cannotReset (r + 1) d = false) : requestedRegions (2 ^ r.val) d = [r.val + 1] := by
  rw [requestedRegions, filter_bitAt_two_pow, List.map_singleton, List.filter_cons_of_pos (by rw [h]; rfl), List.filter_nil]

theorem requestedRegions_none {d : Device} {bits : Nat} (h : ∀ r : Fin 5, bitAt bits r = true → cannotReset (r + 1) d = true) :
    requestedRegions bits d = [] := by
  rw [requestedRegions, List.filter_eq_nil_iff]
  intro k hk
  obtain ⟨r, hr, rfl⟩ := List.mem_map.1 hk
  obtain ⟨hlt, hbit⟩ := List.mem_filter.1 hr
  rw [h ⟨r, List.mem_range.1 hlt⟩ hbit]
  decide

/-- The resets of region `r + 1` within 60 s, as the limit counts them. -/
theorem escalates_eq (r : Fin 5) {d : Device} (h : cannotReset (r + 1) d = false) :
    escalates (r + 1) d = decide (max 1 (d.get F.FLT_CFG.ESC_MAX) ≤
      ((d.flt.starts[r]).filter (fun t => decide ((d.nowNs + 2 ^ 64 - t) % 2 ^ 64 < 60000000000))).length + 1) := by
  have hunit : unit d.flt.starts (r.val + 1 - 1) = d.flt.starts[r] := by
    show d.flt.starts[r.val]?.getD default = d.flt.starts[r]
    rw [Vector.getElem?_eq_getElem (Nat.lt_succ_of_lt r.isLt)]
    rfl
  rw [escalates, h, resetStarts, hunit]
  rfl

section
variable {d : Device} {r : Nat}

/-- Below the limit the request is recorded and its reset starts. -/
theorem requestResets_of_below {bits : Nat} (hone : requestedRegions bits d = [r]) (hcan : cannotReset r d = false) (hbelow : escalates r d = false) :
    ∃ x : Flt, requestResets false bits d = beginReset r ((d.fault (faultRequested r) 0).withFlt x) := by
  have hframe := d.fault_frame (faultRequested r) 0
  refine ⟨{ (d.fault (faultRequested r) 0).flt with
    starts := withUnit (d.fault (faultRequested r) 0).flt.starts (r - 1) (resetStarts r (d.fault (faultRequested r) 0)) }, ?_⟩
  have hnone : [r].find? (fun r => escalates r d) = none := by simp [hbelow]
  have hcan' : ¬ cannotReset r (d.fault (faultRequested r) 0) = true := by rw [hframe.cannotReset_of_fault, hcan]; decide
  have hbelow' : ¬ escalates r (d.fault (faultRequested r) 0) = true := by rw [hframe.escalates_of_fault, hbelow]; decide
  unfold requestResets
  rw [hone]
  dsimp only
  rw [hnone]
  exact (if_neg hcan').trans (if_neg hbelow')

/-- At the limit the chip cause is recorded first, then the request. -/
theorem requestResets_of_limit {bits : Nat} (hone : requestedRegions bits d = [r]) (hcan : cannotReset r d = false) (hlimit : escalates r d = true) :
    ∃ x : Flt, requestResets false bits d =
      (enterSafe faultEscalation r ((d.withFlt x).raise F.FLT_FLAGS.ESCALATED)).faultAfter (faultRequested r) 0 := by
  refine ⟨{ d.flt with starts := withUnit d.flt.starts (r - 1) (resetStarts r d) }, ?_⟩
  have hsome : [r].find? (fun r => escalates r d) = some r := by simp [hlimit]
  have hrest : [r].filter (fun k => decide (k ≠ r)) = [] := by simp
  have hcan' : ¬ cannotReset r d = true := by rw [hcan]; decide
  have hstart : startReset r d = enterSafe faultEscalation r
      ((d.withFlt { d.flt with starts := withUnit d.flt.starts (r - 1) (resetStarts r d) }).raise F.FLT_FLAGS.ESCALATED) :=
    (if_neg hcan').trans (if_pos hlimit)
  unfold requestResets
  rw [hone]
  dsimp only
  rw [hsome]
  dsimp only
  rw [hrest, hstart]
  rfl

theorem requestResets_of_none {bits : Nat} (hnone : requestedRegions bits d = []) : requestResets false bits d = d := by
  unfold requestResets
  rw [hnone]
  rfl

end

theorem FLT_Rr_RESETS_not_mem (r : Fin 5) : R.FLT_Rr_RESETS r ∉ R.FLT_STATUS :: faultRegs := by decide +revert

/-- The reset of region `r + 1` has started, beside its record. -/
theorem beginReset_starts (r : Fin 5) {d e : Device} (h : SameButMem faultRegs [.resv, .evt] [faultBytes] d e) (x : Flt) :
    (beginReset (r + 1) (e.withFlt x)).resetting (r + 1) = true ∧ (beginReset (r + 1) (e.withFlt x)).safe = d.safe ∧
      (beginReset (r + 1) (e.withFlt x)).get (F.FLT_Rr_RESETS.V r) = min (d.get (F.FLT_Rr_RESETS.V r) + 1) 0xFFFFFFFF ∧
      (beginReset (r + 1) (e.withFlt x)).get F.FLT_LAST.CODE = e.get F.FLT_LAST.CODE ∧
      (∀ k : Fin 5, k ≠ r → (beginReset (r + 1) (e.withFlt x)).resetting (k + 1) = d.resetting (k + 1)) := by
  have hcounter := FLT_Rr_RESETS_not_mem r
  have hcounter' : R.FLT_Rr_RESETS r ∉ faultRegs := fun hmem => hcounter (List.mem_cons_of_mem _ hmem)
  have hstatus := beginReset_rd r.val (e.withFlt x) (a := R.FLT_STATUS) (by decide) (by decide) (List.ne_of_not_mem_cons hcounter).symm
  have hlast := beginReset_rd r.val (e.withFlt x) (a := R.FLT_LAST) (by decide) (by decide) fun heq => hcounter' (heq ▸ by decide)
  refine ⟨?_, ?_, ?_, ?_, fun k hk => ?_⟩
  · rw [resetting_congr hstatus, resetting_setBit_self _ r.isLt]
  · rw [safe_congr hstatus, safe_setBit_resetting _ r.isLt, ← h.safe_of_fault]
    rfl
  · rw [beginReset_resets _ _ r.isLt, ← h.get hcounter']
    rfl
  · rw [Device.get, hlast, Device.rd_setBit, Device.rd_set_ne _ _ _ _ (by show R.FLT_LAST ≠ R.FLT_STATUS; decide)]
    rfl
  · rw [resetting_congr hstatus, resetting_setBit_ne _ k.isLt (fun heq => hk (Fin.ext heq)), ← h.resetting_of_fault]
    rfl

/-- A reset that comes at the limit has entered the safe state. -/
theorem escalated (r : Fin 5) {d : Device} (x : Flt) (h : d.safe = false) {e : Device}
    (he : e = (enterSafe faultEscalation (r + 1) ((d.withFlt x).raise F.FLT_FLAGS.ESCALATED)).faultAfter (faultRequested (r + 1)) 0) :
    e.safe = true ∧ e.get F.FLT_STATUS.SAFE_CODE = faultEscalation ∧ e.get F.FLT_FLAGS.ESCALATED = 1 ∧ e.get F.FLT_LAST.INDEX = r + 1 := by
  have hcode : faultEscalation ≠ faultMemory := by decide
  have hflag : KeptFlag F.FLT_FLAGS.ESCALATED := ⟨rfl, by decide, by decide, by decide, by decide⟩
  have hafter := faultAfter_frame (faultRequested (r + 1)) 0 (d := enterSafe faultEscalation (r + 1) ((d.withFlt x).raise F.FLT_FLAGS.ESCALATED))
  have hsafe : ((d.withFlt x).raise F.FLT_FLAGS.ESCALATED).safe = false := by
    rw [← h]
    exact safe_congr ((Device.rd_raise _ _ _).trans (Device.rd_set_ne _ _ _ _ (by decide)))
  subst he
  refine ⟨?_, ?_, ?_, ?_⟩
  · rw [hafter.safe_of_fault, enterSafe_safe hcode]
  · rw [hafter.get (by decide), enterSafe_safeCode hcode _ _ hsafe]
    rfl
  · rw [faultAfter_flag _ _ _ hflag.addr hflag.fault hflag.pin hflag.hist, enterSafe_flag hcode _ _ hflag, Device.get_raise_self _ _ rfl (by decide)]
  · have hlt : r.val + 1 < 65536 := by omega
    rw [Device.get, faultAfter_last, enterSafe_last hcode, ← Device.get, Device.fault_index _ _ (by decide), Nat.mod_eq_of_lt hlt]

/-! ## Faults that reset nothing -/

theorem resetRegionDev_of_recorded {code : Nat} (index : Nat) (d : Device) (hlevel : faultLevel code = 1 ∨ faultLevel code = 2)
    (hlo : 1 ≤ faultRegion code) (hhi : faultRegion code ≤ 6) : resetRegionDev (.fault code index) d = d.fault code index := by
  have hregion : ¬ (faultRegion code < 1 ∨ 6 < faultRegion code) := by omega
  have hthree : ¬ faultLevel code = 3 := by omega
  exact (if_neg hregion).trans ((if_neg hthree).trans (if_pos hlevel))

theorem resetRegionDev_of_other {code : Nat} (index : Nat) (d : Device)
    (h : faultLevel code = 0 ∨ 3 < faultLevel code ∨ faultRegion code = 0 ∨ 6 < faultRegion code) : resetRegionDev (.fault code index) d = d := by
  unfold resetRegionDev
  dsimp only
  by_cases hregion : faultRegion code < 1 ∨ 6 < faultRegion code
  · exact if_pos hregion
  · rw [if_neg hregion, if_neg (by omega), if_neg (by omega)]

/-- Where the latch was empty it holds the cause. -/
theorem latchBusError_cause {d : Device} {m addr : Nat} {write : Bool} {cause : Nat} (h : d.bit F.CORE_BUSERR_INFO.VALID = false) :
    (latchBusError d m addr write cause).get F.CORE_BUSERR_INFO.VALID = 1 ∧
      (latchBusError d m addr write cause).get F.CORE_BUSERR_INFO.CAUSE = cause % 16 := by
  rw [latchBusError_of_free h]
  refine ⟨Device.get_set_self _ _ _ (by decide), ?_⟩
  rw [Device.get_set_ne _ _ _ _ (by decide), Device.get_set_self _ _ _ (by decide)]
  rfl

theorem masterId_lt (m : Master) : masterId m < 16 := by
  cases m with
  | core n => exact Nat.lt_trans n.isLt (by decide)
  | peer n => show 6 + n.val < 16; omega
  | kcp | dma | debug => decide

/-- What the interconnect has latched of a bus error where its latch was empty. -/
theorem busErrorAs_latched (exc : Nat) (d : Device) (m : Master) (addr : Nat) (write : Bool) (cause : Nat) (h : d.bit F.CORE_BUSERR_INFO.VALID = false) :
    (busErrorAs exc d (masterId m) addr write cause).get F.CORE_BUSERR_INFO.VALID = 1 ∧
      (busErrorAs exc d (masterId m) addr write cause).get F.CORE_BUSERR_INFO.MASTER = masterId m ∧
      (busErrorAs exc d (masterId m) addr write cause).get F.CORE_BUSERR_INFO.CAUSE = cause % 16 := by
  rw [busErrorAs_eq]
  dsimp only
  have hframe (x : Cores) : SameBut [] [.cores, .fresh] d { trapMaster exc d (masterId m) addr with cores := x } :=
    ((SameBut.refl _ _ d).trapMaster exc _ _ (by simp) (by simp)).putCores _ (by simp)
  have hempty (x : Cores) := ((hframe x).bit (f := F.CORE_BUSERR_INFO.VALID) (by simp)).trans h
  obtain ⟨hvalid, hcause⟩ := latchBusError_cause (m := masterId m) (addr := addr) (write := write) (cause := cause) (hempty _)
  obtain ⟨-, hmaster, -⟩ := latchBusError_latched (m := masterId m) (addr := addr) (write := write) (cause := cause) (hempty _)
  exact ⟨hvalid, hmaster.trans (Nat.mod_eq_of_lt (masterId_lt m)), hcause⟩

end Sys2Proof.Machine

/-! # A drained region and its restart (O52)

What step 3 of Table 22.2 discards, what step 5 restarts, and the obligation itself. -/

namespace Sys2Proof.Machine

/-! ## The camera ports of Intake -/

section
variable (d : Device) (p : Nat)

theorem countLost_status (n : Nat) : (countLost d p n).rd (R.CPn_STATUS p) = d.rd (R.CPn_STATUS p) := by
  unfold countLost
  split
  · rfl
  · rw [Device.rd_raise, Device.rd_set_ne _ _ _ _ (by simp), Device.rd_count, Device.rd_set_ne _ _ _ _ (by simp)]

theorem loseAll_status : (loseAll d p).rd (R.CPn_STATUS p) = d.rd (R.CPn_STATUS p) :=
  List.foldlRecOn (motive := fun e : Device => e.rd (R.CPn_STATUS p) = d.rd (R.CPn_STATUS p)) _ _ rfl fun _ he _ _ =>
    (countLost_status _ _ _).trans he

theorem dropBackchannel_status (st : Nat) : (dropBackchannel d p st).rd (R.CPn_STATUS p) = d.rd (R.CPn_STATUS p) := by
  have hended : (ctlEnd d p 3).rd (R.CPn_STATUS p) = d.rd (R.CPn_STATUS p) := by
    unfold ctlEnd
    dsimp only
    split
    · rw [Device.rd_set_ne _ _ _ _ (by simp), Device.rd_set_ne _ _ _ _ (by simp)]
      rfl
    · rfl
  exact hended

/-- The entry of DISABLED discards the lines outstanding and what waits for the back-channel. -/
theorem portEnter_disabled_eq : ∃ (e : Device) (x : Port),
    portEnter d p psDisabled = dropBackchannel (loseAll ((e.set (F.CPn_STATUS.STATE p) psDisabled).setPort p x) p) p psDisabled := by
  have hrun : psDisabled ≠ psRun := by decide
  have hresync : psDisabled ≠ psResync := by decide
  have hfault : psDisabled ≠ psFault := by decide
  simp only [portEnter, hrun, hresync, hfault, true_or, if_true, if_false, decide_false, Device.raiseIf_false]
  exact ⟨_, _, rfl⟩

theorem portEnter_disabled : (portEnter d p psDisabled).portState p = psDisabled := by
  obtain ⟨e, x, heq⟩ := portEnter_disabled_eq d p
  rw [heq, Device.portState, Device.get, dropBackchannel_status, loseAll_status]
  exact Device.get_set_self e _ _ (by simp)

end

/-- A restart while Intake is in reset leaves the port DISABLED. -/
theorem portRestartDev_disabled {d : Device} {p : Nat} (hp : p < 12) (h : d.resetting 2 = true) : (portRestartDev p d).portState p = psDisabled := by
  have hoff : SameFaults d ((portEnter (portLanesOff d p) p psDisabled).set (F.CPn_STATUS.RETRIES p) 0) :=
    .set (.portEnter (outside_faults_of_port p) (.portLanesOff hp (outside_faults_of_port p) (.refl _ _ d)) _) _ (.of_base (by decide))
  rw [portRestartDev, portOn, if_pos (.inr (.inr (.inr ((hoff.resetting 2).trans h)))), Device.portState,
    Device.get_set_ne _ _ _ _ (.inr (by simp)), ← Device.portState, portEnter_disabled]

/-- Every camera port is DISABLED once Intake has drained. -/
theorem clearIntake_disabled {d : Device} (h : d.resetting 2 = true) (p : Fin 12) : (clearIntake d).portState p = psDisabled := by
  have hempty : (ingressEmptied d).resetting 2 = true := ((SameRange.ingressEmptied (.refl _ _ d)).resetting 2).trans h
  have hrest : SameRange (0x20000000 + p * 0x10000) (0x20010000 + p * 0x10000) (portsRestarted (ingressEmptied d)) (clearIntake d) := by
    rw [clearIntake_eq]
    exact .pipesEmptied (by omega) (.refl _ _ _)
  have hpage (j : Nat) (hne : j ≠ p) (a : Nat) (hlo : 0x20000000 + j * 0x10000 ≤ a) (hhi : a < 0x20010000 + j * 0x10000) :
      Outside (0x20000000 + p * 0x10000) (0x20010000 + p * 0x10000) a := by
    unfold Outside
    omega
  have hports : (portsRestarted (ingressEmptied d)).portState p = psDisabled := by
    refine foldl_at (k := p.val) (Q := fun e : Device => e.resetting 2 = true) (P := fun e : Device => e.portState p = psDisabled) (fun e he => ?_)
      List.nodup_range (List.mem_range.2 p.isLt) (fun e j hj _ he => ?_) (fun e j hj hne he => ?_) hempty
    · exact iteInduction (motive := fun e : Device => e.portState p = psDisabled) (fun hoff => hoff) fun _ => portRestartDev_disabled p.isLt he
    · exact iteInduction (motive := fun e : Device => e.resetting 2 = true) (fun _ => he) fun _ =>
        ((SameRange.portRestartDev (List.mem_range.1 hj) (outside_faults_of_port j) (.refl _ _ e)).resetting 2).trans he
    · exact iteInduction (motive := fun e : Device => e.portState p = psDisabled) (fun _ => he) fun _ =>
        ((SameRange.portRestartDev (List.mem_range.1 hj) (hpage j hne) (.refl _ _ e)).get (by simp) (by simp)).trans he
  exact (hrest.get (by simp) (by simp)).trans hports

theorem clearIntake_waiting (d : Device) : (clearIntake d).pipes.waiting = [] := by
  have hshow (e : Device) : (showWaiting e).pipes = e.pipes := rfl
  rw [clearIntake_eq, pipesEmptied, hshow]

theorem clearIntake_sets (d : Device) : (clearIntake d).cal.sets = [] := by
  have hshow (e : Device) : (showWaiting e).cal = e.cal := rfl
  rw [clearIntake_eq, pipesEmptied, hshow]

/-! ## Objects, sightings, windows -/

theorem Device.seg_setSeg_self (d : Device) (v : Fin 4) (x : Seg) : (d.setSeg v x).seg v = x := unit_withUnit_self d.basin.seg v.isLt x

theorem Device.seg_setSeg_ne (d : Device) {v w : Nat} (h : w ≠ v) (x : Seg) : (d.setSeg v x).seg w = d.seg w := unit_withUnit_ne d.basin.seg h x

/-- A view without objects, seeds and runs. -/
def viewCleared (d : Device) (v : Nat) : Device :=
  showWait (showOpen (d.setSeg v { d.seg v with
    objs := [], prev := none, runs := [], seeds := [], chains := [], split := [], queue := [], waiting := [] }) v) v 0

theorem clearObjects_eq (d : Device) : clearObjects d = showUpper { (List.range 4).foldl viewCleared d with
    fly := { ((List.range 4).foldl viewCleared d).fly with upper := [], lower := [] } } := rfl

theorem viewCleared_basin (d : Device) (v : Nat) : (viewCleared d v).basin = (d.setSeg v { d.seg v with
    objs := [], prev := none, runs := [], seeds := [], chains := [], split := [], queue := [], waiting := [] }).basin := rfl

theorem seg_congr {d e : Device} (h : e.basin = d.basin) (v : Nat) : e.seg v = d.seg v := by
  unfold Device.seg
  rw [h]

/-- No view has an open object. -/
theorem clearObjects_objs (d : Device) (v : Fin 4) : ((clearObjects d).seg v).objs = [] := by
  have hviews : (((List.range 4).foldl viewCleared d).seg v).objs = [] := by
    refine foldl_at (k := v.val) (Q := fun _ : Device => True) (P := fun e : Device => (e.seg v).objs = []) (fun e _ => ?_)
      List.nodup_range (List.mem_range.2 v.isLt) (fun _ _ _ _ _ => trivial) (fun e j _ hne he => ?_) trivial
    · rw [seg_congr (viewCleared_basin e v), Device.seg_setSeg_self]
    · rwa [seg_congr (viewCleared_basin e j), Device.seg_setSeg_ne _ (Ne.symm hne)]
  have hupper (e : Device) (x : Fly) : (showUpper { e with fly := x }).basin = e.basin := rfl
  rw [clearObjects_eq, seg_congr (hupper _ _), hviews]

theorem clearObjects_upper (d : Device) : (clearObjects d).fly.upper = [] := by
  have hupper (e : Device) : (showUpper e).fly = e.fly := rfl
  rw [clearObjects_eq, hupper]

theorem sigFail_ej (d : Device) (k : Nat) : (sigFail d k).ej = d.ej := by
  unfold sigFail
  dsimp only
  split
  · rfl
  · rw [Device.count_ej, Device.raise_ej, apply_ite Device.ej, Device.set_ej, Device.set_ej, ite_self]
    rfl

theorem clearActuation_windows (d : Device) : (clearActuation d).ej.windows = [] := by
  have hkeep {f : Device → Nat → Device} {e : Device} (l : List Nat) (hf : ∀ d k, (f d k).ej.windows = d.ej.windows) (he : e.ej.windows = []) :
      (l.foldl f e).ej.windows = [] :=
    List.foldlRecOn (motive := fun e : Device => e.ej.windows = []) l f he fun e he k _ => (hf e k).trans he
  refine hkeep _ (fun d n => rfl) (hkeep _ (fun d k => ?_) (hkeep _ (fun d p => rfl) rfl))
  split
  · exact congrArg Eject.windows (sigFail_ej _ k)
  · rfl

/-! ## The two steps -/

theorem exec_regionDrained (r : Fin 5) (s : State) : exec (.regionDrained r) s = s.done (regionDrainedDev (r + 1) s.dev) := rfl

theorem exec_resetRegion_memUncorr (m : Master) (addr : Nat) (s : State) : exec (.resetRegion (.memUncorr m addr)) s =
    s.done (busErrorAs excLoad (s.dev.fault faultMemUncorr 0) (masterId m) addr false causeRefused) := rfl

theorem exec_regionRestart (r : Fin 5) (s : State) : exec (.regionRestart r) s = s.done (regionRestartDev (r + 1) s.dev) := rfl

section
variable (r : Nat) (x : RegionPhase) (d : Device)

theorem inPhase_pipes : (inPhase r x d).pipes = d.pipes := rfl

theorem inPhase_cal : (inPhase r x d).cal = d.cal := rfl

theorem inPhase_fly : (inPhase r x d).fly = d.fly := rfl

theorem inPhase_ej : (inPhase r x d).ej = d.ej := rfl

theorem inPhase_seg (v : Nat) : (inPhase r x d).seg v = d.seg v := rfl

theorem inPhase_portState (p : Nat) : (inPhase r x d).portState p = d.portState p := rfl

end

section
variable {r : Fin 5} {d : Device}

theorem clearRegion_intake (h : r = 1) : clearRegion (r + 1) d = clearIntake d := by
  subst h
  rfl

theorem clearRegion_vision (h : r = 2) : clearRegion (r + 1) d = clearVision d := by
  subst h
  rfl

theorem clearRegion_actuation (h : r = 4) : clearRegion (r + 1) d = clearActuation d := by
  subst h
  rfl

end

section
variable {d : Device} {r : Nat}

/-- The drained region is held. -/
theorem regionDrainedDev_of_draining (h : regionPhase d (r + 1) = .draining) : regionDrainedDev (r + 1) d = inPhase r .held (clearRegion (r + 1) d) :=
  if_neg (not_not_intro h)

theorem regionDrainedDev_of_not_draining (h : regionPhase d r ≠ .draining) : regionDrainedDev r d = d := if_pos h

/-- RESETTING clears, and REGION_RESET is set. -/
def restartShown (r : Nat) (d : Device) : Device :=
  ((inPhase r .running d).setBit (F.FLT_STATUS.RESETTING.bitN r) false).raise F.FLT_FLAGS.REGION_RESET

/-- A held region that the safe state does not hold restarts. -/
theorem regionRestartDev_faults (hheld : regionPhase d (r + 1) = .held) (hfree : d.safe = false ∨ (r = 0 ∧ d.flt.controlHeld = false)) :
    SameFaults (restartShown r d) (regionRestartDev (r + 1) d) := by
  have hcond : ¬ (regionPhase d (r + 1) ≠ .held ∨ (d.safe = true ∧ (r + 1 ≠ 1 ∨ d.flt.controlHeld = true))) := by
    rintro (hne | ⟨hsafe, hor⟩)
    · exact hne hheld
    · rcases hfree with hfalse | ⟨hzero, hcontrol⟩
      · exact Bool.false_ne_true (hfalse.symm.trans hsafe)
      · rcases hor with hne | htrue
        · exact hne (by omega)
        · exact Bool.false_ne_true (hcontrol.symm.trans htrue)
  have hrestart : SameFaults (restartShown r d) (restartRegion (r + 1) (restartShown r d)) := .restartRegion (.refl _ _ _) _
  have heq : regionRestartDev (r + 1) d = if 2 ≤ r + 1 then pairRegionDone (restartRegion (r + 1) (restartShown r d))
      else restartRegion (r + 1) (restartShown r d) := if_neg hcond
  rw [heq]
  exact .ite (.pairRegionDone hrestart) hrestart

theorem regionRestartDev_of_kept (h : regionPhase d (r + 1) ≠ .held ∨ (d.safe = true ∧ (r ≠ 0 ∨ d.flt.controlHeld = true))) :
    regionRestartDev (r + 1) d = d := by
  refine if_pos (h.imp_right fun ⟨hsafe, hor⟩ => ⟨hsafe, hor.imp_left fun hne => ?_⟩)
  omega

theorem restartShown_status (r : Nat) (d : Device) :
    (restartShown r d).rd R.FLT_STATUS = (d.setBit (F.FLT_STATUS.RESETTING.bitN r) false).rd R.FLT_STATUS := by
  rw [restartShown, Device.rd_raise, Device.rd_set_ne _ _ _ _ (by decide)]
  rfl

theorem restartShown_phase (r k : Nat) (d : Device) : regionPhase (restartShown r d) k = regionPhase (inPhase r .running d) k := by
  unfold regionPhase restartShown
  rw [Device.raise_flt]
  rfl

end

theorem faultLevel_faultRequested (r : Fin 5) : faultLevel (faultRequested (r + 1)) ≠ 1 := by decide +revert

/-- Settles O52: each clause follows from the registers and the phase of the step itself, for what a reset discards and restarts lies outside the
fault collector. -/
theorem regionResets : Obligations.RegionResets := by
  unfold Obligations.RegionResets
  refine ⟨?_, ?_, ?_, ?_, ?_, ?_, ?_, ?_, ?_, ?_, ?_⟩
  · intro r s ⟨hgate, hcan, hbelow⟩
    refine completes_done (exec_resetRegion_write hgate _) ?_
    have hlimit : escalates (r + 1) s.dev = false := by
      rw [escalates_eq r hcan, decide_eq_false_iff_not]
      omega
    obtain ⟨x, heq⟩ := requestResets_of_below (requestedRegions_one r hcan) hcan hlimit
    rw [heq]
    obtain ⟨hresetting, hsafe, hcount, hcode, hothers⟩ := beginReset_starts r (s.dev.fault_frame (faultRequested (r + 1)) 0) x
    refine ⟨hresetting, beginReset_phase _ _ r.isLt, hsafe, hcount, ?_, hothers⟩
    rw [hcode, Device.fault_code _ _ (faultLevel_faultRequested r)]
    exact Nat.mod_eq_of_lt (by unfold faultRequested; omega)
  · intro r s ⟨hgate, hcan, hsafe, hreached⟩
    refine completes_done (exec_resetRegion_write hgate _) ?_
    have hlimit : escalates (r + 1) s.dev = true := by
      rw [escalates_eq r hcan, decide_eq_true_iff]
      exact hreached
    obtain ⟨x, heq⟩ := requestResets_of_limit (requestedRegions_one r hcan) hcan hlimit
    exact escalated r x hsafe heq
  · intro bits s ⟨hgate, hnone⟩
    exact completes_done (exec_resetRegion_write hgate _) (requestResets_of_none (requestedRegions_none hnone))
  · intro code index s hother
    exact completes_done (exec_resetRegion_fault code index s) (resetRegionDev_of_other index s.dev hother)
  · intro code index s ⟨hlevel, hlo, hhi⟩
    refine completes_done (exec_resetRegion_fault code index s) ?_
    rw [resetRegionDev_of_recorded index s.dev (.inr hlevel) hlo hhi]
    have hframe := s.dev.fault_frame code index
    have hone : faultLevel code ≠ 1 := by omega
    exact ⟨Device.fault_code _ _ hone, Device.fault_index _ _ hone, Device.fault_count_two _ _ _ hlevel, Device.fault_flagged _ _ _ hlevel.ge,
      fun k => hframe.resetting_of_fault _, hframe⟩
  · intro code index s ⟨hlevel, hlo, hhi⟩
    refine completes_done (exec_resetRegion_fault code index s) ?_
    rw [resetRegionDev_of_recorded index s.dev (.inl hlevel) hlo hhi]
    exact ⟨Device.fault_count_one _ _ hlevel, Device.fault_last_of_one _ _ hlevel, s.dev.fault_frame code index⟩
  · intro m addr s
    refine completes_done (exec_resetRegion_memUncorr m addr s) ?_
    have hfault := s.dev.fault_frame faultMemUncorr 0
    have hends := busErrorAs_endsInBusError { master := m, addr := addr } excLoad (s.dev.fault faultMemUncorr 0) false causeRefused
    refine ⟨?_, hends.busError, fun hempty => ?_, ?_⟩
    · exact (hends.frame.get (by decide)).trans (Device.fault_code _ _ (by decide))
    · exact busErrorAs_latched excLoad _ m addr false causeRefused ((hfault.bit (by decide)).trans hempty)
    · exact (hfault.mono (List.subset_append_left _ _) (by simp)).trans_sameBut (hends.frame.mono (List.subset_append_right _ _) (by simp))
  · intro r s hdraining
    refine completes_done (exec_regionDrained r s) ?_
    rw [regionDrainedDev_of_draining hdraining]
    refine ⟨regionPhase_inPhase_self _ r.isLt _, (SameRange.clearRegion (.refl _ _ s.dev) _).resetting _, ?_, ?_, ?_⟩
    · intro hr
      rw [clearRegion_intake hr, inPhase_pipes, inPhase_cal]
      exact ⟨clearIntake_waiting s.dev, clearIntake_sets s.dev, fun hreset p => (inPhase_portState _ _ _ _).trans (clearIntake_disabled hreset p)⟩
    · intro hr
      rw [clearRegion_vision hr, inPhase_fly]
      exact ⟨fun v => (congrArg Seg.objs (inPhase_seg _ _ _ _)).trans (clearObjects_objs _ v), clearObjects_upper _⟩
    · intro hr
      rw [clearRegion_actuation hr, inPhase_ej]
      exact clearActuation_windows s.dev
  · intro r s hphase
    exact completes_done (exec_regionDrained r s) (regionDrainedDev_of_not_draining hphase)
  · intro r s ⟨hheld, hfree⟩
    refine completes_done (exec_regionRestart r s) ?_
    have hfaults := regionRestartDev_faults hheld (hfree.imp_right fun ⟨hr, hcontrol⟩ => ⟨congrArg Fin.val hr, hcontrol⟩)
    have hstatus := restartShown_status r.val s.dev
    refine ⟨?_, ?_, ?_, fun k hk => ⟨?_, ?_⟩⟩
    · rw [hfaults.regionPhase, restartShown_phase, regionPhase_inPhase_self _ r.isLt]
    · rw [hfaults.resetting, resetting_congr hstatus, resetting_setBit_self _ r.isLt]
    · rw [hfaults.get (by decide) (by decide)]
      exact Device.get_raise_self _ _ rfl (by decide)
    · rw [hfaults.resetting, resetting_congr hstatus, resetting_setBit_ne _ k.isLt (fun heq => hk (Fin.ext heq))]
    · rw [hfaults.regionPhase, restartShown_phase, regionPhase_inPhase_ne _ (fun heq => hk (Fin.ext heq))]
  · intro r s hkept
    exact completes_done (exec_regionRestart r s) (regionRestartDev_of_kept (hkept.imp_right fun ⟨hsafe, hor⟩ =>
      ⟨hsafe, hor.imp_left fun hne heq => hne (Fin.ext heq)⟩))

end Sys2Proof.Machine

/-! # Every step keeps the stores canonical, and every command answers

The commands' own lemmas are those of Laws/Canonical*.lean; here they are put together for `exec` and `step`. -/

namespace Sys2Proof.Machine

/-- Where an outcome is a next state, its stores are canonical. -/
def OutcomeCanonical (o : Outcome) : Prop := ∀ t, o = .next t → t.dev.Canonical

theorem OutcomeCanonical.done {s : State} {d : Device} (h : d.Canonical) : OutcomeCanonical (s.done d) := by
  intro t ht
  cases ht
  exact h

/-- The device that STAGING_WRITE leaves is that of the access, where one takes place. -/
theorem canonical_stagingWrite (a : Access) (value : Word) {d : Device} (hd : d.Canonical) :
    Device.Canonical (match areaAt d a.addr with
      | some (.reg r) => if r.rws = 0 then d else accessWrite a value.toNat 0#32 d
      | some .table => accessWrite a value.toNat 0#32 d
      | some .defect => accessWrite a value.toNat 0#32 d
      | _ => d) := by
  have hwrite := canonical_accessWrite a value.toNat 0#32 hd
  split
  · exact canonical_ite (fun _ => hd) (fun _ => hwrite)
  · exact hwrite
  · exact hwrite
  · exact hd

/-- Every command keeps the stores canonical. -/
theorem canonical_exec (c : Instr) {s : State} (hd : s.dev.Canonical) : OutcomeCanonical (exec c s) := by
  cases c with
  | registerWrite _ _ _ => exact .done (canonical_accessWrite _ _ _ hd)
  | rcCounterRead _ _ => exact .done (canonical_accessRead _ _ hd)
  | lanePowerUp _ => exact .done (canonical_laneCheck _ (canonical_lnPowerUp _ hd))
  | lanePowerDown _ _ => exact .done (canonical_laneCheck _ (canonical_lnPowerDown _ _ hd))
  | laneWakeDone _ => exact .done (canonical_laneCheck _ (canonical_lnWakeDone _ hd))
  | laneShutdownDone _ => exact .done (canonical_laneCheck _ (canonical_lnShutdownDone _ hd))
  | lossOfSignal _ => exact .done (canonical_laneCheck _ (canonical_lnSignalLost _ hd))
  | signalPresent _ => exact .done (canonical_laneCheck _ (canonical_lnSignalPresent _ hd))
  | cdrLocked _ => exact .done (canonical_laneCheck _ (canonical_lnCdrLocked _ hd))
  | lockLost _ => exact .done (canonical_laneCheck _ (canonical_lnClockLost _ hd))
  | codeGroupReceive _ _ _ _ => exact .done (canonical_codeGroupDev _ _ _ _ hd)
  | scoreDecay _ => exact .done (canonical_lnScoreDecay _ hd)
  | txTapsWrite _ _ => exact .done (canonical_regAccess _ _ (fun _ hy => canonical_lnWriteTaps _ _ hy) hd)
  | eyeScanComplete _ _ => exact .done (canonical_eyeScanDev _ _ hd)
  | retrain _ => exact .done (canonical_regAccess _ _ (fun _ hy => canonical_retrainDev _ hy) hd)
  | trainReply _ _ => exact .done (canonical_trainReplyDev _ _ hd)
  | trainReqTimeout _ => exact .done (canonical_trainTimeoutDev _ hd)
  | linePacketReceive _ => exact .done (canonical_linePacketDev _ hd)
  | packetAbort _ => exact .done (canonical_packetAbortDev _ hd)
  | deskewColumn _ => exact .done (canonical_deskewDev _ hd)
  | ingressOverflow _ => exact .done (canonical_ingressOverflowDev _ hd)
  | triggerDue _ => exact .done (canonical_triggerDueDev _ hd)
  | backchannelSend _ => exact .done (canonical_backchannelDev _ hd)
  | timePacketDue _ => exact .done (canonical_timeDue _ hd)
  | noLines _ _ => exact .done (canonical_noLinesDev _ _ hd)
  | regReply _ => exact .done (canonical_regReplyDev _ hd)
  | camEvent _ => exact .done (canonical_camEventDev _ hd)
  | unknownCtl _ => exact .done (canonical_unknownCtlDev _ hd)
  | ctlGo _ _ => exact .done (canonical_regAccess _ _ (fun _ hy => canonical_ctlGoDev _ _ hy) hd)
  | ctlTimeout _ => exact .done (canonical_ctlTimeoutDev _ hd)
  | expGo _ _ => exact .done (canonical_regAccess _ _ (fun _ hy => canonical_expGoDev _ _ hy) hd)
  | portRestart _ => exact .done (canonical_regAccess _ _ (fun _ hy => canonical_portRestartDev _ hy) hd)
  | portStateTimeout _ => exact .done (canonical_portTimeoutDev _ hd)
  | retryEnd _ => exact .done (canonical_retryEndDev _ hd)
  | pipeStart => exact .done (canonical_pipeStartDev hd)
  | pipeComplete _ _ => exact .done (canonical_pipeCompleteDev _ _ hd)
  | statRelease _ => exact .done (canonical_regAccess _ _ (fun _ hy => canonical_statReleaseDev _ (canonical_latchPlic hy)) hd)
  | viewLineAssemble _ => exact .done (canonical_viewAssembleDev _ hd)
  | viewDeadline _ => exact .done (canonical_viewDeadlineDev _ hd)
  | histRowComplete _ => exact .done (canonical_histCompleteDev _ hd)
  | histRowDrop _ => exact .done (canonical_histDropDev _ hd)
  | segLineProcess _ => exact .done (canonical_segLineDev _ hd)
  | segLostLine _ => exact .done (canonical_segLostDev _ hd)
  | sightingFormation _ => exact .done (canonical_formationDev _ hd)
  | flightMatcherStep => exact .done (canonical_matcherDev hd)
  | forestDone _ _ => exact .done (canonical_forestDoneDev _ _ hd)
  | classifierDone _ => exact .done (canonical_classifierDoneDev _ hd)
  | decisionRelease => exact .done (canonical_releaseDev hd)
  | claPowerReq _ => exact .done (canonical_regAccess _ _ (fun _ hy => canonical_claPowerDev _ hy) hd)
  | claShutdownDone => exact .done (canonical_claOffDev hd)
  | claWakeDone => exact .done (canonical_claWakeDev hd)
  | spoutFrameSend _ _ => exact .done (canonical_spoutFrameDev _ _ hd)
  | returnFrameReceive _ _ _ _ => exact .done (canonical_returnFrameDev _ _ _ _ hd)
  | retLost _ => exact .done (canonical_retLostDev _ hd)
  | limitWrite _ _ _ => exact .done (canonical_regAccess _ _ (fun _ hy => canonical_limitWriteDev _ _ _ hy) hd)
  | encoderEdge _ _ _ _ _ _ => exact .done (canonical_encoderEdgeDev _ _ _ _ _ _ hd)
  | zEdge _ _ _ _ => exact .done (canonical_zEdgeDev _ _ _ _ hd)
  | qerrWindowEnd _ => exact .done (canonical_qerrWindowDev _ hd)
  | ssiFrameStart _ _ _ => exact .done (canonical_ssiStartDev _ _ _ hd)
  | ssiFrameDone _ _ _ => exact .done (canonical_ssiDoneDev _ _ _ hd)
  | standstillMeas _ => exact .done (canonical_standstillDev _ hd)
  | refArm _ => exact .done (canonical_regAccess _ _ (fun _ hy => canonical_refArmDev _ hy) hd)
  | listArm _ => exact .done (canonical_regAccess _ _ (fun _ hy => canonical_listArmDev _ hy) hd)
  | listStop _ => exact .done (canonical_regAccess _ _ (fun _ hy => canonical_listStopDev _ hy) hd)
  | clrUncert _ => exact .done (canonical_regAccess _ _ (fun _ hy => canonical_clrUncertDev _ hy) hd)
  | axisSnapshotRead _ _ => exact .done (canonical_regAccess _ _ (fun _ hy => canonical_axisSnapshotDev _ _ hy) hd)
  | monOutput _ => exact .done (canonical_monOutputDev _ hd)
  | monSlotGap _ => exact .done (canonical_monSlotGapDev _ hd)
  | monClkLost => exact .done (canonical_monClkLostDev hd)
  | monOutRead _ => exact .done (canonical_regAccess _ _ (fun _ hy => canonical_monOutReadDev _ hy) hd)
  | monClkEdge _ _ => exact .done (canonical_monClkDev _ _ hd)
  | tbAdjWrite _ => exact .done (canonical_regAccess _ _ (fun _ hy => canonical_tbAdjDev _ hy) hd)
  | tbSlewWrite _ => exact .done (canonical_regAccess _ _ (fun _ hy => canonical_tbSlewDev _ hy) hd)
  | slewEnd => exact .done (canonical_slewEndDev hd)
  | tbStep _ => exact .done (canonical_regAccess _ _ (fun _ hy => canonical_tbCtrlDev _ hy) hd)
  | todRead => exact .done (canonical_regAccess _ _ (fun _ hy => canonical_todReadDev hy) hd)
  | tsqRead => exact .done (canonical_regAccess _ _ (fun _ hy => canonical_tsqReadDev hy) hd)
  | ppsOutPulse _ => exact .done (canonical_ppsOutDev _ hd)
  | ppsInEdge _ _ _ => exact .done (canonical_ppsInDev _ _ _ hd)
  | tioArm _ _ => exact .done (canonical_regAccess _ _ (fun _ hy => canonical_tioCtrlDev _ _ hy) hd)
  | tioStop _ => exact .done (canonical_regAccess _ _ (fun _ hy => canonical_tioStopDev _ hy) hd)
  | tioPulseStart _ => exact .done (canonical_tioPulseStartDev _ hd)
  | tioPulseEnd _ => exact .done (canonical_tioPulseEndDev _ hd)
  | tioCaptureEdge _ _ _ _ => exact .done (canonical_tioCaptureDev _ _ _ _ hd)
  | tioCapRead _ => exact .done (canonical_regAccess _ _ (fun _ hy => canonical_tioCapReadDev _ hy) hd)
  | tioCfgWrite _ _ _ => exact .done (canonical_regAccess _ _ (fun _ hy => canonical_tioCfgWriteDev _ _ _ hy) hd)
  | mbxWrite _ _ _ => exact .done (canonical_regAccessBy _ _ _ (fun _ hy => canonical_mbxWriteDev _ _ _ hy) hd)
  | mbxRead _ _ => exact .done (canonical_regAccessBy _ _ _ (fun _ hy => canonical_mbxReadDev _ _ (canonical_latchPlic hy)) hd)
  | lockRead _ _ => exact .done (canonical_regAccessBy _ _ _ (fun _ hy => canonical_lockReadDev _ _ hy) hd)
  | lockWrite _ _ => exact .done (canonical_regAccessBy _ _ _ (fun _ hy => canonical_lockWriteDev _ _ hy) hd)
  | lockForce _ _ => exact .done (canonical_regAccess _ _ (fun _ hy => canonical_lockForceDev _ _ hy) hd)
  | coreReset _ => exact .done (canonical_regAccess _ _ (fun _ hy => canonical_coreResetDev _ hy) hd)
  | coreRelease _ => exact .done (canonical_regAccess _ _ (fun _ hy => canonical_coreReleaseDev _ hy) hd)
  | watchdogKick _ _ => exact .done (canonical_regAccess _ _ (fun _ hy => canonical_watchdogKickDev _ _ hy) hd)
  | watchdogExpire _ => exact .done (canonical_watchdogExpireDev _ hd)
  | cmoGo _ _ => exact .done (canonical_regAccess _ _ (fun _ hy => canonical_cmoGoDev _ _ hy) hd)
  | cmoDone _ => exact .done (canonical_cmoDoneDev _ hd)
  | mtimeRead => exact .done (canonical_regAccess _ _ (fun _ hy => canonical_mtimeReadDev hy) hd)
  | mtimerInterrupt _ => exact .done (canonical_mtimerDev _ hd)
  | plicClaim _ => exact .done (canonical_regAccess _ _ (fun _ hy => canonical_plicClaimDev _ hy) hd)
  | crcDataWrite _ _ _ => exact .done (canonical_regAccess _ _ (fun _ hy => canonical_crcDataDev _ _ _ hy) hd)
  | crcStart _ => exact .done (canonical_regAccess _ _ (fun _ hy => canonical_crcStartDev _ hy) hd)
  | crcStateWrite _ _ _ _ => exact .done (canonical_regAccess _ _ (fun _ hy => canonical_crcPairDev _ _ _ _ hy) hd)
  | crcCfgWrite _ _ => exact .done (canonical_regAccess _ _ (fun _ hy => canonical_crcCfgDev _ _ hy) hd)
  | memInit _ => exact .done (canonical_regAccess _ _ (fun _ hy => canonical_memInitDev _ hy) hd)
  | memTrainDone _ _ => exact .done (canonical_memTrainDoneDev _ _ hd)
  | memRequest _ _ _ _ _ _ _ => exact .done (canonical_memRequestDev _ _ _ _ _ _ _ hd)
  | memRequestComplete _ _ _ _ => exact .done (canonical_memCompleteDev _ _ _ _ hd)
  | urgencyStep _ _ => exact .done (canonical_urgencyDev _ _ hd)
  | refreshDebtStep _ => exact .done (canonical_refreshDebtDev _ hd)
  | refreshIssue _ => exact .done (canonical_refreshIssueDev _ hd)
  | mr4Poll _ _ _ => exact .done (canonical_mr4Dev _ _ _ hd)
  | driftCheck _ _ => exact .done (canonical_driftCheckDev _ _ hd)
  | driftRetrainDone _ _ => exact .done (canonical_driftDoneDev _ _ hd)
  | captureGroupComplete _ => exact .done (canonical_groupCompleteDev _ hd)
  | captureBlockStored => exact .done (canonical_blockStoredDev hd)
  | capPosRead _ => exact .done (canonical_regAccess _ _ (fun _ hy => canonical_capPosDev _ hy) hd)
  | dmaStart _ => exact .done (canonical_regAccess _ _ (fun _ hy => canonical_dmaStartDev _ hy) hd)
  | dmaFieldWrite _ _ _ => exact .done (canonical_regAccess _ _ (fun _ hy => canonical_dmaFieldDev _ _ _ hy) hd)
  | dmaShadowWrite _ _ _ => exact .done (canonical_regAccess _ _ (fun _ hy => canonical_dmaShadowDev _ _ _ hy) hd)
  | dmaArm _ => exact .done (canonical_regAccess _ _ (fun _ hy => canonical_dmaArmDev _ hy) hd)
  | dmaPause _ => exact .done (canonical_regAccess _ _ (fun _ hy => canonical_dmaPauseDev _ hy) hd)
  | dmaResume _ => exact .done (canonical_regAccess _ _ (fun _ hy => canonical_dmaResumeDev _ hy) hd)
  | dmaDrainDone _ _ => exact .done (canonical_dmaDrainDev _ _ hd)
  | dmaAbort _ _ => exact .done (canonical_regAccess _ _ (fun _ hy => canonical_dmaAbortDev _ _ hy) hd)
  | dmaComplete _ => exact .done (canonical_dmaCompleteDev _ hd)
  | dmaBusError _ _ _ _ _ => exact .done (canonical_dmaErrorDev _ _ _ _ _ hd)
  | dmaDomainTimeout _ _ _ _ => exact .done (canonical_dmaDomainDev _ _ _ _ hd)
  | planWrite _ _ => exact .done (canonical_regAccess _ _ (fun _ hy => canonical_planWriteDev _ _ hy) hd)
  | domainPowerDown _ => exact .done (canonical_domainDownDev _ hd)
  | domainPowerUp _ => exact .done (canonical_domainUpDev _ hd)
  | energyMeterSample _ _ => exact .done (canonical_energySampleDev _ _ hd)
  | rillEvent _ _ => exact .done (canonical_rillEventDev _ _ hd)
  | cellFilterExpire _ => exact .done (canonical_cellFilterDev _ hd)
  | cellRateWindow _ => exact .done (canonical_cellWindowDev _ hd)
  | evtFire _ => exact .done (canonical_regAccess _ _ (fun _ hy => canonical_evtFireDev _ hy) hd)
  | evtRearm _ _ => exact .done (canonical_regAccess _ _ (fun _ hy => canonical_evtRearmDev _ _ hy) hd)
  | peerCrcErr _ _ => exact .done (canonical_peerCrcDev _ _ hd)
  | peerFrameSend _ => exact .done (canonical_peerSendDev _ hd)
  | peerTimeDue _ => exact .done (canonical_peerTimeDueDev _ hd)
  | helloRepeat _ => exact .done (canonical_helloRepeatDev _ hd)
  | peerRetransmit _ _ => exact .done (canonical_peerRetransmitDev _ _ hd)
  | peerRxTimeout _ => exact .done (canonical_peerRxTimeoutDev _ hd)
  | peerStateTimeout _ => exact .done (canonical_peerTimeoutDev _ hd)
  | resetRegion cause =>
    cases cause with
    | write bits => exact .done (canonical_regAccess _ _ (fun _ hy => canonical_resetRegionDev _ hy) hd)
    | fault code index => exact .done (canonical_resetRegionDev _ hd)
    | memUncorr n addr => exact .done (canonical_resetRegionDev _ hd)
  | regionDrained _ => exact .done (canonical_regionDrainedDev _ hd)
  | regionRestart _ => exact .done (canonical_regionRestartDev _ hd)
  | fltSafe => exact .done (canonical_regAccess _ _ (fun _ hy => canonical_enterSafe _ _ hy) hd)
  | fltExit _ => exact .done (canonical_regAccess _ _ (fun _ hy => canonical_fltExitDev _ hy) hd)
  | histClear => exact .done (canonical_regAccess _ _ (fun _ hy => canonical_histClearDev hy) hd)
  | refclk _ => exact .done (canonical_refclkDev hd)
  | sysRefclkReturn => exact .done (canonical_refclkReturnDev hd)
  | calRunGo _ => exact .done (canonical_regAccess _ _ (fun _ hy => canonical_calGoDev _ hy) hd)
  | calAbort => exact .done (canonical_regAccess _ _ (fun _ hy => canonical_calAbortDev hy) hd)
  | calComputeDone => exact .done (canonical_calComputeDev hd)
  | calMramCommitDone _ => exact .done (canonical_calCommitDoneDev _ hd)
  | intervalDue _ => exact .done (canonical_intervalDueDev _ hd)
  | tableWindowWrite _ _ => exact .done (canonical_windowWrite _ _ _ _ hd)
  | nodeWindowWrite _ _ => exact .done (canonical_windowWrite _ _ _ _ hd)
  | weightsWindowWrite _ _ => exact .done (canonical_windowWrite _ _ _ _ hd)
  | linkUp => exact .done (canonical_linkUpRunDev hd)
  | linkDown => exact .done (canonical_linkDownDev hd)
  | anFail => exact .done (canonical_anFailDev hd)
  | porst _ => exact .done (canonical_porstDev _ hd)
  | resetRelease _ _ => exact .done (canonical_resetReleaseDev _ _ hd)
  | pllLock _ _ => exact .done (canonical_pllLockDev _ _ hd)
  | bootDramReady => exact .done (canonical_dramReadyDev hd)
  | stagingWrite a value => exact .done (canonical_stagingWrite a value hd)
  | sluCommit _ _ => exact .done (canonical_regAccessBy _ _ _ (fun _ hy => canonical_ite (fun _ => canonical_sluCmdDev _ _ hy) (fun _ => hy)) hd)
  | sluCancel => exact .done (canonical_regAccess _ _ (fun _ hy => canonical_sluCancel hy) hd)
  | sluCheckOnly => exact .done (canonical_regAccess _ _ (fun _ hy => canonical_sluCheckOnly hy) hd)
  | sluHwCheckDone => exact .done (canonical_hwDoneDev hd)
  | sluFwVerdict _ => exact .done (canonical_regAccess _ _ (fun _ hy => canonical_fwVerdictDev _ hy) hd)
  | sluFwTimeout => exact .done (canonical_fwTimeoutDev hd)
  | sluSwitchDone => exact .done (canonical_switchDoneDev hd)
  | firstApplyTimeout => exact .done (canonical_firstApplyTimeoutDev hd)
  | supplySample _ => exact .done (canonical_supplyDev _ hd)
  | cycleCommit => exact .done (canonical_cycleCommitDev hd)
  | commitDeadline => exact .done (canonical_commitDeadlineDev hd)
  | hello _ _ _ => exact .done (canonical_peerFrame _ _ _ (fun _ hy => canonical_helloRx _ _ hy) hd)
  | peerStatus _ _ _ => exact .done (canonical_peerFrame _ _ _ (fun _ hy => canonical_onPrivate _ (fun _ hz => canonical_statusRx _ hz) hy) hd)
  | peerTime _ _ _ => exact .done (canonical_peerFrame _ _ _ (fun _ hy => canonical_timeRx _ _ _ hy) hd)
  | peerLine _ _ _ _ => exact .done (canonical_peerFrame _ _ _ (fun _ hy => canonical_onPrivate _ (fun _ hz => canonical_lineRx _ _ _ hz) hy) hd)
  | peerWindow _ _ _ => exact .done (canonical_peerFrame _ _ _ (fun _ hy => canonical_windowRx _ _ hy) hd)
  | digest _ _ _ => exact .done (canonical_peerFrame _ _ _ (fun _ hy => canonical_onPrivate _ (fun _ hz => canonical_digestRx _ hz) hy) hd)
  | pairItem n h line b part more =>
    cases more with
    | true => exact .done (canonical_peerFrame _ _ _ (fun _ hy => hy) hd)
    | false => exact .done (canonical_peerFrame _ _ _ (fun _ hy => canonical_onPrivate _ (fun _ hz => canonical_itemRx _ _ hz) hy) hd)
  | peerCommit _ _ _ _ => exact .done (canonical_peerFrame _ _ _ (fun _ hy => canonical_commitRx _ _ _ hy) hd)
  | peerAccess n h b =>
    cases b with
    | request write addr data => exact .done (canonical_peerFrame _ _ _ (fun _ hy => canonical_accessRx _ _ _ _ _ hy) hd)
    | reply ok data => exact .done (canonical_peerFrame _ _ _ (fun _ hy => hy) hd)
  | peerAck _ _ _ => exact .done (canonical_peerFrame _ _ _ (fun _ hy => canonical_peerAck _ _ hy) hd)
  | peerTrain _ _ _ _ => exact .done (canonical_peerFrame _ _ _ (fun _ hy => canonical_peerTrainRx _ _ _ hy) hd)
  | peerStatusDue => exact .done (canonical_statusDueDev hd)
  | takeover => exact .done (canonical_takeoverDev hd)
  | pairActivateTimeout => exact .done (canonical_activateTimeoutDev hd)
  | pairYield => exact .done (canonical_regAccess _ _ (fun _ hy => canonical_yieldDev hy) hd)
  | pairRejoin => exact .done (canonical_regAccess _ _ (fun _ hy => canonical_rejoinDev hy) hd)
  | pairHelloTimeout => exact .done (canonical_helloTimeoutDev hd)
  | selftestDone _ => exact .done (canonical_selfDoneDev _ hd)
  | lineTrigger => exact .done (canonical_lineTriggerDev hd)
  | beltStamp => exact .done (canonical_beltStampDev hd)
  | ethFrameReceive _ _ _ _ => exact .done (canonical_ethRxDev _ _ _ _ hd)
  | pauseReceive _ => exact .done (canonical_pauseRxDev _ hd)
  | pauseExpire => exact .done (canonical_pauseExpireDev hd)
  | ethFrameTransmit _ => exact .done (canonical_ethTxDev _ hd)
  | objectStreamFlush => exact .done (canonical_objFlushDev hd)
  | captureFetchDatagram => exact .done (canonical_fetchDatagramDev hd)
  | kcpOpen _ => exact .done (canonical_kcpOpenDev _ hd)
  | kcpClose _ => exact .done (canonical_kcpServe _ _ _ _ (fun _ _ _ hy => canonical_runClose _ _ hy) hd)
  | kcpRead _ => exact .done (canonical_kcpServe _ _ _ _ (fun _ _ _ hy => canonical_runRead _ _ hy) hd)
  | kcpWrite _ => exact .done (canonical_kcpServe _ _ _ _ (fun _ _ _ hy => canonical_runWrite _ _ hy) hd)
  | stageAdd _ => exact .done (canonical_kcpServe _ _ _ _ (fun _ _ _ hy => canonical_runStageAdd _ _ hy) hd)
  | stageCancel _ => exact .done (canonical_kcpServe _ _ _ _ (fun _ _ _ hy => canonical_runStageCancel _ _ hy) hd)
  | kcpCommit _ => exact .done (canonical_kcpServe _ _ _ _ (fun _ _ _ hy => canonical_runCommit _ _ hy) hd)
  | kcpStatus _ => exact .done (canonical_kcpServe _ _ _ _ (fun _ _ _ hy => canonical_runStatus _ _ hy) hd)
  | objectStreamStart _ => exact .done (canonical_kcpServe _ _ _ _ (fun _ _ _ hy => canonical_runStreamStart _ _ hy) hd)
  | objectStreamStop _ => exact .done (canonical_kcpServe _ _ _ _ (fun _ _ _ hy => canonical_runStreamStop _ _ hy) hd)
  | captureFetch _ => exact .done (canonical_kcpServe _ _ _ _ (fun _ _ _ hy => canonical_runFetch _ _ hy) hd)
  | mailboxPost _ => exact .done (canonical_kcpServe _ _ _ _ (fun _ _ _ hy => canonical_runPost _ _ hy) hd)
  | mailboxRead _ => exact .done (canonical_kcpServe _ _ _ _ (fun _ _ _ hy => canonical_runMailRead _ _ hy) hd)
  | eventFire _ => exact .done (canonical_kcpServe _ _ _ _ (fun _ _ _ hy => canonical_runFire _ _ hy) hd)
  | nvErase _ => exact .done (canonical_kcpServe _ _ _ _ (fun _ _ _ hy => canonical_runNvStart _ _ _ hy) hd)
  | nvProgram _ => exact .done (canonical_kcpServe _ _ _ _ (fun _ _ _ hy => canonical_runNvStart _ _ _ hy) hd)
  | nvRead _ => exact .done (canonical_kcpServe _ _ _ _ (fun _ _ _ hy => canonical_runNvRead _ _ hy) hd)
  | nvCrc _ => exact .done (canonical_kcpServe _ _ _ _ (fun _ _ _ hy => canonical_runNvCrc _ _ hy) hd)
  | nvOpDone => exact .done (canonical_nvDoneDev hd)
  | kcpLog _ => exact .done (canonical_kcpServe _ _ _ _ (fun _ _ _ hy => canonical_runLog _ _ hy) hd)
  | unknownType _ _ => exact .done (canonical_ite (fun _ => hd) (fun _ => canonical_kcpServe _ _ _ _ (fun _ _ _ hy => canonical_runUnknown _ _ hy) hd))
  | kcpSessionIdle _ => exact .done (canonical_sessionIdleDev _ hd)
  | debugRequest _ => exact .done (canonical_debugDev _ hd)

/-- Settles O4: the front command keeps the stores canonical, and so does the clock edge of an empty queue. -/
theorem storesStayCanonical : Obligations.StoresStayCanonical := by
  intro s t hd hstep
  unfold step at hstep
  split at hstep
  · cases hstep
    exact canonical_idleTick hd
  · next c rest _ => exact canonical_exec c (s := { s with pending := rest }) hd t hstep

/-- Settles O3: each command's meaning is `State.done` of the device that it computes. -/
theorem everyCommandAnswers : Obligations.EveryCommandAnswers := by
  intro c s
  cases c with
  | peerAccess n h b =>
    cases b with
    | request write addr data => exact ⟨_, rfl⟩
    | reply ok data => exact ⟨_, rfl⟩
  | _ => exact ⟨_, rfl⟩

/-- Settles O1: the front command is what `step` matches on. -/
theorem stepRunsFrontCommand : Obligations.StepRunsFrontCommand := fun _ _ _ => rfl

/-- Settles O5: every store of the reset state is empty. -/
theorem resetIsCanonical : Obligations.ResetIsCanonical :=
  ⟨⟨rfl, rfl, rfl, rfl⟩, rfl, rfl, fun _ => rfl, fun _ => rfl, fun _ => rfl, rfl⟩

end Sys2Proof.Machine

/-! # A line that leaves its pipe

The statement about the pipes keeps the camera ports where a line is done; the model lowers there what the line's port holds in its ingress
buffer (R68). -/

namespace Sys2Proof.Machine

theorem exec_pipeComplete (p : Fin 8) (snoopOk : Bool) (s : State) :
    exec (.pipeComplete p snoopOk) s = s.done (pipeCompleteDev p snoopOk s.dev) := rfl

/-- A line of one byte of the ingress buffer, of port 0 and context 0. -/
def lineOfOneByte : CamLine := { held := 1 }

/-- Pipe 0 works on that line and port 0 counts its byte as held. -/
def lineInPipe : State :=
  (Tests.onRegs []).but (fun d => { d.setPipe 0 (some lineOfOneByte) with ports := withUnit d.ports 0 { ingress := 1 } })

theorem lineInPipe_held : (unit lineInPipe.dev.ports 0).ingress = 1 := by decide

theorem lineInPipe_released : (unit (pipeCompleteDev 0 true lineInPipe.dev).ports 0).ingress = 0 := by decide

/-- Refutes O15: the clause of a line done keeps the camera ports, but the bytes that the line held in the ingress buffer of its port are
released: a port that held one byte holds none. -/
theorem not_pipesAndStatistics : ¬ Obligations.PipesAndStatistics := by
  unfold Obligations.PipesAndStatistics
  rintro ⟨-, -, hComplete, -⟩
  obtain ⟨e, hexec, -, -, -, -, -, -, hsame⟩ := hComplete 0 lineOfOneByte lineInPipe (by decide) (by decide) (by decide)
  have he : e = pipeCompleteDev 0 true lineInPipe.dev := dev_of_done_eq_next ((exec_pipeComplete 0 true lineInPipe).symm.trans hexec)
  have hports : e.ports = lineInPipe.dev.ports := hsame.parts .ports (by decide)
  have hkept : (unit e.ports 0).ingress = 1 := by rw [hports, lineInPipe_held]
  rw [he, lineInPipe_released] at hkept
  exact absurd hkept (by decide)

end Sys2Proof.Machine

/-! # An abort of a run whose context is due

The statement about the calibration runs keeps the due bits where a run is aborted; the model tests there whether the context is due by its
temperature (R112, log entry "a due context and its run"). -/

namespace Sys2Proof.Machine

theorem exec_calAbort (s : State) : exec .calAbort s = s.done (regAccess R.CAL_RUN true calAbortDev s.dev) := rfl

/-- A run of context 0 waits for its start line; the context is live and allowed, has seen a temperature and has had no run yet. -/
def abortWhileDue : State :=
  (Tests.onRegs [(R.CAL_CTRL, 1), (R.CAL_Cn_CFG 0, 1), (R.CAL_Cn_TR 0, 0x8000), (R.CPn_CFG 0, 0x100), (R.CPn_HEAD_MAP 0, 0), (R.CAL_STATUS, 0x80000001)]).but
    (fun d => (d.setCalCtx 0 { tCur := some 20 }).setRun (some { startLine := 64 }))

theorem abortWhileDue_waits : abortWhileDue.dev.calState = csWaitStart := by decide

theorem abortWhileDue_gateOpen : gateOpen abortWhileDue.dev R.CAL_RUN = true := by decide

theorem abortWhileDue_due : (regAccess R.CAL_RUN true calAbortDev abortWhileDue.dev).rd R.CAL_DUE_LO = 1 := by decide

/-- Refutes O16: the clause of ABORT keeps every register but three, but the end of the run makes its context due where its temperature is
away from that of its last completed run, and sets the context's bit of CAL_DUE. -/
theorem not_calibrationRuns : ¬ Obligations.CalibrationRuns := by
  unfold Obligations.CalibrationRuns
  rintro ⟨-, -, hAbort, -⟩
  obtain ⟨e, hexec, -, -, -, -, hsame⟩ := hAbort abortWhileDue ⟨.inl abortWhileDue_waits, by decide⟩ abortWhileDue_gateOpen
  have he : e = regAccess R.CAL_RUN true calAbortDev abortWhileDue.dev :=
    dev_of_done_eq_next ((exec_calAbort abortWhileDue).symm.trans hexec)
  have hkept : e.rd R.CAL_DUE_LO = abortWhileDue.dev.rd R.CAL_DUE_LO := hsame.regs R.CAL_DUE_LO (by decide)
  rw [he, abortWhileDue_due] at hkept
  exact absurd hkept (by decide)

end Sys2Proof.Machine

/-! # A dropped history row at the start of its ring

The statement about a dropped history row leaves every byte outside its tag and the fault history; where the row is the first one of a ring
that starts empty (R143), the model first writes all ones to every tag of the ring. -/

namespace Sys2Proof.Machine

theorem exec_histRowDrop (v : Fin 4) (s : State) : exec (.histRowDrop v) s = s.done (histDropDev v s.dev) := rfl

/-- A row of line 0 in the second slot of the ring. -/
def rowInSecondSlot : HistRow := { tagAddr := dramBase + 8, rowAddr := dramBase + 0x1000 }

/-- A ring of two rows at the start of the memory, which is to start empty from line 0 on. -/
def ringToEmpty : State :=
  (Tests.onRegs [(R.GEO_Vv_HIST_BASE_HI 0, 1), (R.GEO_Vv_HIST 0, 0x01000000)]).but
    (fun d => d.setView 0 { starts := [0], rows := [rowInSecondSlot] })

/-- Below the tag and outside the fault history, a dropped row leaves the bytes that the start of its ring wrote. -/
theorem histDropDev_byte {d : Device} {v a : Nat} {r : HistRow} {rest : List HistRow} (hrows : (d.view v).rows = r :: rest)
    (hbelow : a < r.tagAddr) (houtside : a < faultBytes.1 ∨ faultBytes.1 + faultBytes.2 ≤ a) :
    (histDropDev v d).byte a = (ringStart d v r.first).byte a := by
  unfold histDropDev
  rw [hrows]
  dsimp only
  rw [(Device.fault_frame _ _ _).bytes a (by simpa using houtside), Device.byte, Device.raise_mem, Device.count_mem]
  exact Device.setBytes_byte_of_outside _ _ _ (.inl hbelow)

theorem ringToEmpty_started : (ringStart ringToEmpty.dev 0 rowInSecondSlot.first).byte dramBase = 0xFF#8 := by decide

theorem ringToEmpty_emptied : (histDropDev 0 ringToEmpty.dev).byte dramBase = 0xFF#8 :=
  (histDropDev_byte rfl (by decide) (.inr (by decide))).trans ringToEmpty_started

/-- Refutes O17: the clause of a dropped row keeps the bytes outside its tag and the fault history, but before the first row of a ring
that starts empty every tag of the ring is written: the tag of slot 0, too, where the row is that of slot 1. -/
theorem not_viewLinesAndHistory : ¬ Obligations.ViewLinesAndHistory := by
  unfold Obligations.ViewLinesAndHistory
  rintro ⟨-, -, -, -, -, hDrop⟩
  obtain ⟨e, hexec, -, -, -, -, hsame⟩ := hDrop 0 rowInSecondSlot [] ringToEmpty (by decide)
  have he : e = histDropDev 0 ringToEmpty.dev := dev_of_done_eq_next ((exec_histRowDrop 0 ringToEmpty).symm.trans hexec)
  have hkept : e.byte dramBase = ringToEmpty.dev.byte dramBase := hsame.bytes dramBase (by decide)
  rw [he, ringToEmpty_emptied] at hkept
  exact absurd hkept (by decide)

end Sys2Proof.Machine

/-! # A paired sighting with a foreign object flag

The statement about sighting formation reads the shared bit of a pair from the union of the two objects' flags; the model reads it from the
flags of the sighting, to which the bits of R165 are added as a number. -/

namespace Sys2Proof.Machine

theorem exec_sightingFormation (h : Fin 2) (s : State) : exec (.sightingFormation h) s = s.done (formationDev h s.dev) := rfl

/-- A front object with flag bit 8 set, and a rear object that it qualifies with. -/
def frontWithBit8 : Closed :=
  { closing := 18, desc := { view := 2, id := 4, first := 10, lines := 5, flags := 0x100, xMin := 3, xMax := 8, area := 30 } }
def rearOfPair : Closed := { closing := 19, desc := { view := 3, id := 7, first := 11, lines := 6, xMin := 4, xMax := 9, area := 30 } }

/-- Both alone wait in their views for the formation of line 20. -/
def pairWithBit8 : State :=
  (Tests.basinState 1 20).but (fun d => (d.setSeg 2 { width := 8, waiting := [frontWithBit8] }).setSeg 3 { width := 8, waiting := [rearOfPair] })

theorem pairWithBit8_shared : (formationDev 1 pairWithBit8.dev).rd (R.BSN_SHARED_h 1) = 1 := by decide

/-- Refutes O19: the clause of a pair keeps BSN_SHARED where the union of the two objects' flags has bit 10 clear, but the flags of the
sighting are that union plus 0x300, and bit 8 of an object carries into bit 10: the sighting counts as shared. -/
theorem not_sightingFormation : ¬ Obligations.SightingFormation := by
  unfold Obligations.SightingFormation
  rintro ⟨-, -, -, -, -, hPair, -⟩
  obtain ⟨e, hexec, -, -, -, -, -, -, -, hsame⟩ :=
    hPair 20 [] frontWithBit8 rearOfPair pairWithBit8 (by decide) (by decide) (by decide) (by decide) (by decide)
  have he : e = formationDev 1 pairWithBit8.dev := dev_of_done_eq_next ((exec_sightingFormation 1 pairWithBit8).symm.trans hexec)
  have hkept : e.rd (R.BSN_SHARED_h 1) = pairWithBit8.dev.rd (R.BSN_SHARED_h 1) := (hsame (by decide)).regs _ (by decide)
  rw [he, pairWithBit8_shared] at hkept
  exact absurd hkept (by decide)

end Sys2Proof.Machine

/-! # The claim of a frame past a named revert line

The statement about the spout frames gives a frame the claim of the pair state at its sending; where the line at which the primary hands back
is triggered by the frame's target instant, the model gives it the claim that the unit has then (R433, R436). -/

namespace Sys2Proof.Machine

theorem exec_spoutFrameSend (p : Fin 4) (snoopOk : Bool) (s : State) :
    exec (.spoutFrameSend p snoopOk) s = s.done (spoutFrameDev p snoopOk s.dev) := rfl

/-- A frame begins with its claim. -/
theorem frameBytes_take_two (cfg : Device) (p claim seq : Nat) (bits : List Nat) : (frameBytes cfg p claim seq bits).take 2 = leBytes 2 claim := by
  unfold frameBytes
  simp only [List.append_assoc]
  exact List.take_left' (leBytes_length 2 claim)

theorem lnSend_spout (d : Device) (l : Lane) (syms : List (Nat × Bool)) (p : Nat) : (lnSend d l syms).spout p = d.spout p := by
  have hej : (lnSend d l syms).ej = d.ej := (lnSend_frame d l syms).parts .ej (by decide)
  rw [Device.spout, hej, Device.spout]

theorem Device.spout_count (d : Device) (f : Fld) (n p : Nat) : (d.count f n).spout p = d.spout p := rfl

theorem frameOut_claim (d cfg : Device) {p : Nat} (hp : p < 4) (claim tf : Nat) (bits : List Nat) :
    ((frameOut d cfg p claim tf bits).spout p).sent.take 2 = leBytes 2 claim := by
  unfold frameOut
  dsimp only
  rw [lnSend_spout, Device.spout_count, Device.spout_setSpout_self _ hp]
  exact frameBytes_take_two _ _ _ _ _

/-- The claim that a port in RUN sends is that of the frame's target instant. -/
theorem spoutFrameDev_claim {d : Device} {p : Nat} (hp : p < 4) (hnext : (d.spout p).next = none) (hrun : (showClaim d p).spState p = spRun) 
    (hsends : lnSends (freeWindows (showClaim d p) p (transportAt (showClaim d p) (frameConfig (showClaim d p) p).2)) (spTxLane p) = true) :
    ((spoutFrameDev p true d).spout p).sent.take 2 =
      leBytes 2 (claimAt (freeWindows (showClaim d p) p (transportAt (showClaim d p) (frameConfig (showClaim d p) p).2)) (frameConfig (showClaim d p) p).2) := by
  have hentry : frameEntry d p = d := by unfold frameEntry; rw [hnext]
  unfold spoutFrameDev
  dsimp only
  rw [hentry, hrun, if_neg (by decide), hsends, if_neg (by decide), if_pos rfl]
  exact frameOut_claim _ _ hp _ _ _

/-- The home unit is SECONDARY in epoch 0 and is to become primary at line 0, whose instant has come; port 1 is in RUN. -/
def revertPassed : State :=
  (Tests.onRegs [(R.SPn_STATUS 1, 1), (R.LN_STATUS (laneBase (.spTx 1)), 8), (R.PAIR_STATUS, 2), (R.PAIR_CFG, 0x40000000), (R.TB_STATUS, 0x80000000)]).but
    (fun d => { d with pr := { d.pr with revert := some 0 } })

theorem revertPassed_claimOf : claimOf revertPassed.dev = 0x2000 := by decide

theorem revertPassed_claim : ((spoutFrameDev 1 true revertPassed.dev).spout 1).sent.take 2 = leBytes 2 0xA001 := by
  rw [spoutFrameDev_claim (by decide) (by decide) (by decide) (by decide)]
  decide

/-- Refutes O24: the clause of a port in RUN gives its frame the claim of the pair state, but where the line of a named hand-back is triggered
by the frame's target instant, the frame carries the claim after it: 0xA001 where the unit claims 0x2000. -/
theorem not_spoutFrames : ¬ Obligations.SpoutFrames := by
  unfold Obligations.SpoutFrames
  rintro ⟨hRun, -⟩
  obtain ⟨e, hexec, -, -, -, hsent, -⟩ := hRun 1 revertPassed (by decide)
  have he : e = spoutFrameDev 1 true revertPassed.dev :=
    dev_of_done_eq_next ((exec_spoutFrameSend 1 true revertPassed).symm.trans hexec)
  have hclaim : (e.spout 1).sent.take 2 = leBytes 2 0x2000 := by rw [← revertPassed_claimOf]; exact hsent ▸ frameBytes_take_two _ _ _ _ _
  rw [he, revertPassed_claim] at hclaim
  exact absurd hclaim (by decide)

end Sys2Proof.Machine

/-! # A disabled monitor channel while its region is in reset

The statement about the monitor chain lets a disabled pin channel leave service at every clock edge; while the Actuation region is in reset the
model takes no sample at all (Table 22.2), and the channel stays in service. -/

namespace Sys2Proof.Machine

theorem exec_monClkEdge (pins : Half) (t : Nat) (s : State) : exec (.monClkEdge pins t) s = s.done (monClkDev pins t s.dev) := rfl

/-- The monitor chain is enabled and channel 0, itself disabled, is still in service; the Actuation region is in reset. -/
def channelInReset : State := Tests.onRegs [(R.MON_CTRL, 1), (R.MON_Cc_STATUS 0, 0x80000000), (R.FLT_STATUS, 0x100000)]

theorem monSample_of_resetting {d : Device} (h : d.resetting 5 = true) (c n : Nat) (b : Bool) (t : Nat) (filler : Bool) :
    monSample d c n b t filler = d := by
  unfold monSample
  rw [if_pos h]

/-- While the region is in reset, a first clock edge moves nothing but the chain's clock. -/
theorem monClkDev_of_resetting {d : Device} {t : Nat} (hreset : d.resetting 5 = true) (hen : (d.asOfTime t).bit F.MON_CTRL.EN = true)
    (hfirst : d.mon.clk = 0) (pins : Half) :
    monClkDev pins t d = { d with mon := { d.mon with clk := 1, lastClk := t, clkTimes := (t :: d.mon.clkTimes).take 524288 } } := by
  unfold monClkDev
  simp only [hen, hfirst, not_true, if_false, true_or, if_true]
  refine List.foldl_fixed' (fun c => ?_) _
  rw [monSample_of_resetting, ite_self, ite_self]
  exact hreset

theorem channelInReset_kept (pins : Half) : (monClkDev pins 0 channelInReset.dev).get (F.MON_Cc_STATUS.IN_SERVICE 0) = 1 := by
  rw [monClkDev_of_resetting (by decide) (by decide) rfl]
  decide

/-- Refutes O28: the clause of a clock edge takes a disabled pin channel out of service in every state, but while the Actuation region is in
reset the channel stays in service. -/
theorem not_monitorChain : ¬ Obligations.MonitorChain := by
  unfold Obligations.MonitorChain
  rintro ⟨-, hEdge, -⟩
  obtain ⟨e, hexec, -, -, -, -, -, -, -, hleaves, -⟩ := hEdge 0 0 channelInReset (by decide)
  have he : e = monClkDev 0 0 channelInReset.dev := dev_of_done_eq_next ((exec_monClkEdge 0 0 channelInReset).symm.trans hexec)
  have hleft : e.get (F.MON_Cc_STATUS.IN_SERVICE 0) = 0 := hleaves 0 (by decide)
  rw [he, channelInReset_kept] at hleft
  exact absurd hleft (by decide)

end Sys2Proof.Machine

/-! # A pulse that ends as the next one starts

The statement about the timed I/O ends the active pulse of a SINGLE unit without a scheduled pulse; a unit that still names a line has the pulse
of that line to come, and the model lets the two merge where it starts by then (R276). -/

namespace Sys2Proof.Machine

theorem exec_tioPulseEnd (p : Fin 16) (s : State) : exec (.tioPulseEnd p) s = s.done (tioPulseEndDev p s.dev) := rfl

/-- Unit 0 in SINGLE mode, its pulse active until 5 ns, still names line 0, whose instant is 0 ns. -/
def pulseBeforeLine : State :=
  (Tests.onRegs [(R.TIO_Pn_CFG 0, 0x00200000), (R.TB_STATUS, 0x80000000)]).but (fun d => d.setTio 0 { endAt := some 5, line := some 0 })

theorem pulseBeforeLine_active : ((tioPulseEndDev 0 pulseBeforeLine.dev).tio 0).endAt = some 5 := by decide

/-- Refutes O31: the clause of a pulse that ends does not exclude a line that the unit names; where the line's pulse starts by the end, the
active pulse goes on. -/
theorem not_timedInputOutput : ¬ Obligations.TimedInputOutput := by
  unfold Obligations.TimedInputOutput
  rintro ⟨-, -, -, -, -, -, hEnd, -⟩
  obtain ⟨e, hexec, -, -, hended, -⟩ := hEnd 0 5 pulseBeforeLine (by decide)
  have he : e = tioPulseEndDev 0 pulseBeforeLine.dev := dev_of_done_eq_next ((exec_tioPulseEnd 0 pulseBeforeLine).symm.trans hexec)
  have hnone : (e.tio 0).endAt = none := hended
  rw [he, pulseBeforeLine_active] at hnone
  exact absurd hnone (by decide)

end Sys2Proof.Machine

/-! # A return slot under an armed configuration

The statement about the return frames tests the monitor chain's enable in the live configuration; the model tests it in the configuration in
force at the time of the slot's last sample, which is the armed one from the instant of its apply line on (R256, R409). -/

namespace Sys2Proof.Machine

theorem exec_returnFrameReceive (p : Fin 4) (framed : Bool) (bytes : List Byte) (t : Nat) (s : State) :
    exec (.returnFrameReceive p framed bytes t) s = s.done (returnFrameDev p framed bytes t s.dev) := rfl

theorem foldl_of_fixed {α β : Type} {f : β → α → β} {b : β} : ∀ {l : List α}, (∀ x ∈ l, f b x = b) → l.foldl f b = b
  | [], _ => rfl
  | x :: t, h => by
    rw [List.foldl_cons, h x List.mem_cons_self]
    exact foldl_of_fixed fun y hy => h y (List.mem_cons_of_mem x hy)

/-- A channel out of service takes no filler. -/
theorem monSample_filler_of_out {d : Device} {c : Nat} (hout : d.bit (F.MON_Cc_STATUS.IN_SERVICE c) = false) (n : Nat) (b : Bool) (t : Nat) :
    monSample d c n b t true = d := by
  unfold monSample
  simp [hout]

theorem monBit_filler_of_out {d : Device} {c : Nat} (hout : d.bit (F.MON_Cc_STATUS.IN_SERVICE c) = false) (p s base b : Nat) :
    monBit none p c s base d b = d := by
  unfold monBit
  simp [hout, monSample_filler_of_out hout]

/-- The fillers of a slot leave a channel that is out of service as it is. -/
theorem fillers_of_out {d : Device} {c : Nat} (hout : d.bit (F.MON_Cc_STATUS.IN_SERVICE c) = false) (p s base : Nat) :
    (List.range 16).foldl (monBit none p c s base) d = d :=
  foldl_of_fixed fun b _ => monBit_filler_of_out hout p s base b

/-- With every channel out of service, a slot without a frame changes the chain's own counts alone: those of an enabled chain. -/
theorem monSlot_of_out {d : Device} (hout : ∀ c < 32, d.bit (F.MON_Cc_STATUS.IN_SERVICE c) = false) {p t : Nat}
    (hon : (d.asOfTime ((wrapN 64 ((t : Int) - d.get (F.SPn_DELAY.DELAY p) - 128) + 120) % 2 ^ 64)).bit F.MON_CTRL.EN = true) :
    (monSlot d p t none).mon.slots = withUnit d.mon.slots p (d.mon.slots[p]?.getD 0 + 1) := by
  have hany : ((List.range 32).any fun c => d.bit (F.MON_Cc_STATUS.IN_SERVICE c) && monPortOf d c == some p) = false :=
    List.any_eq_false.2 fun c hc => by simp [hout c (List.mem_range.1 hc)]
  unfold monSlot
  dsimp only
  rw [hon, if_pos rfl]
  generalize he : ({ d with mon := _ } : Device) = e
  have hslots : e.mon.slots = withUnit d.mon.slots p (d.mon.slots[p]?.getD 0 + 1) := by rw [← he]
  have hstill : ∀ c < 32, e.bit (F.MON_Cc_STATUS.IN_SERVICE c) = false := by rw [← he]; exact hout
  rw [hany, if_neg (by decide : ¬ (none : Option (Nat × List Nat)).isSome = true), if_neg (fun h => Bool.false_ne_true h.2.2), foldl_of_fixed]
  · exact hslots
  · intro c hc
    have hc' := hstill c (List.mem_range.1 hc)
    simp only [fillers_of_out hc', hc', Bool.false_and, Bool.false_eq_true, and_false, if_false]

/-- Spout port 0 is in RUN with its return lane in SYNC; an armed commit, whose instant has come, enables the monitor chain. -/
def chainArmed : State :=
  (Tests.onRegs [(R.SPn_STATUS 0, 1), (R.LN_STATUS (laneBase (.spRx 0)), 7), (R.SLU_STATE, 2)]).but
    (fun d => { d with slu := { d.slu with staged := [(R.MON_CTRL, 1)] } })

theorem chainArmed_receives : chainArmed.dev.spState 0 ≠ spOff ∧ lnReceives chainArmed.dev (spRxLane 0) = true := by decide

theorem chainArmed_counted : unit (returnFrameDev 0 false [] 1000 chainArmed.dev).mon.slots 0 = 1 := by
  have hdev : returnFrameDev 0 false [] 1000 chainArmed.dev = monSlot (chainArmed.dev.count (F.SPn_RET_CRC_ERR.COUNT 0)) 0 1000 none := by
    unfold returnFrameDev
    rw [if_neg (not_or.2 ⟨chainArmed_receives.1, not_not_intro chainArmed_receives.2⟩), if_neg (by decide)]
  rw [hdev, monSlot_of_out (by decide) (by decide)]
  decide

/-- Refutes O25: the clause of a bad frame keeps all of the monitor chain but the time of the last slot where the live MON_CTRL.EN is 0, but
under an armed configuration that enables the chain the slot is counted. -/
theorem not_spoutReturnsAndLimits : ¬ Obligations.SpoutReturnsAndLimits := by
  unfold Obligations.SpoutReturnsAndLimits
  rintro ⟨-, hBad, -⟩
  obtain ⟨e, hexec, -, hkeeps⟩ := hBad 0 [] false 1000 chainArmed (by decide)
  have he : e = returnFrameDev 0 false [] 1000 chainArmed.dev :=
    dev_of_done_eq_next ((exec_returnFrameReceive 0 false [] 1000 chainArmed).symm.trans hexec)
  have hmon : e.mon.slots = chainArmed.dev.mon.slots := by rw [(hkeeps (by decide)).2]
  have hkept : unit e.mon.slots 0 = 0 := by rw [hmon]; decide
  rw [he, chainArmed_counted] at hkept
  exact absurd hkept (by decide)

end Sys2Proof.Machine

/-! # The configuration of a line after an update

What the configurations of R409 read after an update: the registers that it leaves. -/

namespace Sys2Proof.Machine

/-- An overlay reads in register `b` what depends on register `b` alone. -/
theorem overlayRegs_get_congr {b : Nat} : ∀ (ov : List (Nat × Word)) {r r' : List (Nat × Word)}, Sparse.get resetOf b r' = Sparse.get resetOf b r →
    Sparse.get resetOf b (overlayRegs ov r') = Sparse.get resetOf b (overlayRegs ov r)
  | [], _, _, h => h
  | (a, v) :: t, r, r', h => by
    refine overlayRegs_get_congr t ?_
    by_cases hab : b = a
    · subst hab
      rw [Sparse.get_put_self, Sparse.get_put_self, h]
    · rw [Sparse.get_put_ne _ _ _ _ _ hab, Sparse.get_put_ne _ _ _ _ _ hab, h]

section
variable {as : List Nat} {ps : List Part} {d e : Device}

theorem SameBut.sluState (h : SameBut as ps d e) (hstate : R.SLU_STATE ∉ as) : e.sluState = d.sluState := h.get hstate

theorem SameBut.withStaged_rd (h : SameBut as ps d e) (hslu : Part.slu ∉ ps) {b : Nat} (hb : b ∉ as) : e.withStaged.rd b = d.withStaged.rd b := by
  have hpart : e.slu = d.slu := h.parts .slu hslu
  unfold Device.withStaged Device.rd
  dsimp only
  rw [hpart]
  exact overlayRegs_get_congr _ (h.regs b hb)

theorem SameBut.withStaged_get (h : SameBut as ps d e) (hslu : Part.slu ∉ ps) {f : Fld} (hf : f.addr ∉ as) :
    e.withStaged.get f = d.withStaged.get f :=
  congrArg f.of (h.withStaged_rd hslu hf)

/-- The configuration of a line reads the same in the registers that an update leaves. -/
theorem SameBut.asOf_rd (h : SameBut as ps d e) (hstate : R.SLU_STATE ∉ as) (hslu : Part.slu ∉ ps) (c : Int) {b : Nat} (hb : b ∉ as) :
    (e.asOf c).rd b = (d.asOf c).rd b := by
  have hpart : e.slu = d.slu := h.parts .slu hslu
  unfold Device.asOf
  rw [h.sluState hstate, hpart]
  split
  · exact h.withStaged_rd hslu hb
  · split
    · split
      · rfl
      · exact h.regs b hb
    · exact h.regs b hb

theorem SameBut.asOf_get (h : SameBut as ps d e) (hstate : R.SLU_STATE ∉ as) (hslu : Part.slu ∉ ps) (c : Int) {f : Fld} (hf : f.addr ∉ as) :
    (e.asOf c).get f = (d.asOf c).get f :=
  congrArg f.of (h.asOf_rd hstate hslu c hf)

theorem SameBut.asOf_bit (h : SameBut as ps d e) (hstate : R.SLU_STATE ∉ as) (hslu : Part.slu ∉ ps) (c : Int) {f : Fld} (hf : f.addr ∉ as) :
    (e.asOf c).bit f = (d.asOf c).bit f := by
  unfold Device.bit
  rw [h.asOf_get hstate hslu c hf]

end

/-- With no commit armed and none applied, the live configuration governs every line. -/
theorem Device.asOf_of_none {d : Device} (hstate : d.sluState ≠ sluArmed) (hold : d.slu.old = none) (c : Int) : d.asOf c = d := by
  unfold Device.asOf
  rw [if_neg fun h => hstate h.1, hold]

end Sys2Proof.Machine

/-! # A web line is triggered, and gets its stamp

The time at which a line becomes current and what the trigger records, before the blocks take the line (R264 to R267, R409); and the stamp that
follows in belt mode. -/

namespace Sys2Proof.Machine

theorem exec_lineTrigger (s : State) : exec .lineTrigger s = s.done (lineTriggerDev s.dev) := rfl
theorem exec_beltStamp (s : State) : exec .beltStamp s = s.done (beltStampDev s.dev) := rfl

section
variable {as : List Nat} {ps : List Part} {d e : Device}

theorem SameBut.putTb (h : SameBut as ps d e) (x : TimeBase) (hp : Part.tb ∈ ps) : SameBut as ps d { e with tb := x } :=
  h.parts_only rfl rfl rfl rfl (fun p hp' => by
    cases p with
    | tb => exact absurd hp hp'
    | _ => rfl)

theorem SameBut.elapseTo (h : SameBut as ps d e) (t : Nat) (hp : Part.tb ∈ ps) : SameBut as ps d (e.elapseTo t) := h.elapse _ hp

theorem SameBut.recordStamp (h : SameBut as ps d e) (x : LineStamp) (hp : Part.tb ∈ ps) : SameBut as ps d (recordStamp e x) := h.putTb _ hp

end

theorem recordStamp_newest (d : Device) (x : LineStamp) : (recordStamp d x).tb.stamps.head? = some x := rfl

theorem wrapN_lt (n : Nat) (x : Int) : wrapN n x < 2 ^ n := by
  have hpos : (0 : Int) < ((2 ^ n : Nat) : Int) := by exact_mod_cast Nat.two_pow_pos n
  have hmod := Int.emod_lt_of_pos x hpos
  have hnonneg := Int.emod_nonneg x (Int.ne_of_gt hpos)
  unfold wrapN
  omega

/-- A field of the whole word is the word. -/
theorem Fld.of_word (f : Fld) (hlo : f.lo = 0) (hhi : f.hi = 31) (w : Word) : f.of w = w.toNat :=
  Nat.eq_of_testBit_eq fun i => by
    rw [Fld.of_testBit, hlo, hhi, Nat.zero_add, BitVec.testBit_toNat]
    by_cases hi : i < 32
    · rw [decide_eq_true hi, Bool.true_and]
    · rw [decide_eq_false hi, Bool.false_and, BitVec.getLsbD_of_ge _ _ (by omega)]

/-! ## The line becomes current -/

section
variable (d : Device)

/-- The generator's next line, triggered at its instant, with the clock, TB_LINE and its own number moved on. -/
def countedLine : Device :=
  { d.elapseTo (tLine d d.tb.next) with tb := { (d.elapseTo (tLine d d.tb.next)).tb with count := d.tb.next, next := d.tb.next + 1 } }.wr
    R.TB_LINE (BitVec.ofNat 32 (lineOf d.tb.next))

/-- That line with its stamp recorded or awaited. -/
def currentLine : Device := lineCurrent (d.elapseTo (tLine d d.tb.next)) d.tb.next (tLine d d.tb.next)

theorem countedLine_frame : SameBut [R.TB_LINE] [.tb] d (countedLine d) :=
  (((SameBut.refl _ _ d).elapseTo _ (by simp)).putTb _ (by simp)).wr _ (by simp)

theorem countedLine_line : (countedLine d).get F.TB_LINE.L = lineOf d.tb.next := by
  have hword : (countedLine d).rd R.TB_LINE = BitVec.ofNat 32 (lineOf d.tb.next) := Device.rd_wr_self _ _ _
  rw [Device.get, Fld.of_word _ rfl rfl, hword, BitVec.toNat_ofNat, lineOf, Nat.mod_eq_of_lt (wrapN_lt _ _)]

theorem countedLine_belt : ((countedLine d).asOf d.tb.next).bit F.TB_LINE_CFG.BELT = (d.asOf d.tb.next).bit F.TB_LINE_CFG.BELT :=
  (countedLine_frame d).asOf_bit (by simp) (by simp) _ (by simp)

/-- In free fall the trigger instant is the stamp, with speed 0. -/
theorem currentLine_of_freeFall (hbelt : (d.asOf d.tb.next).bit F.TB_LINE_CFG.BELT = false) :
    currentLine d = recordStamp (countedLine d) { count := d.tb.next, t := tLine d d.tb.next, ts := tLine d d.tb.next, speed := 0 } :=
  if_pos (by rw [← countedLine_belt] at hbelt; exact ne_true_of_eq_false hbelt)

/-- In belt mode a line without a stamp waits for one. -/
theorem currentLine_of_belt (hbelt : (d.asOf d.tb.next).bit F.TB_LINE_CFG.BELT = true) (hnone : stampOf d d.tb.next = none) :
    currentLine d =
      { countedLine d with tb := { (countedLine d).tb with unstamped := d.tb.unstamped ++ [(d.tb.next, tLine d d.tb.next)] } } := by
  have hstamp : stampOf (countedLine d) d.tb.next = none := hnone
  have hbelt' : ((countedLine d).asOf d.tb.next).bit F.TB_LINE_CFG.BELT = true := (countedLine_belt d).trans hbelt
  unfold countedLine at hbelt' hstamp ⊢
  unfold currentLine lineCurrent
  dsimp only
  rw [if_neg (not_not_intro hbelt')]
  split
  case h_1 x hsome => exact absurd (hstamp.symm.trans hsome) (by simp)
  case h_2 => rfl

theorem lineTriggerDev_of_lining (hrun : d.lining = true) (hgo : stopsBefore d d.tb.next = false) :
    lineTriggerDev d = lineReaches (applyAt (commitLine (currentLine d) d.tb.next) d.tb.next (tLine d d.tb.next)) d.tb.next (tLine d d.tb.next) := by
  unfold lineTriggerDev
  rw [if_neg (not_not_intro hrun)]
  dsimp only
  rw [hgo, if_neg Bool.false_ne_true]
  rfl

end

section
variable {as : List Nat} {ps : List Part} {d e : Device}

/-- An update outside the pair's configuration and the neighbours' states keeps the link to its partner's state. -/
theorem SameBut.privateUp_eq (h : SameBut as ps d e) (hcfg : F.PAIR_CFG.PORT.addr ∉ as) (hpeer : ∀ p, (F.PEERn_STATUS.STATE p).addr ∉ as) :
    Machine.privateUp e = Machine.privateUp d := by
  unfold Machine.privateUp paired peerUp
  rw [h.bit (f := F.PAIR_CFG.EN) hcfg, h.get (f := F.PAIR_CFG.PORT) hcfg, h.get (hpeer _)]

end

/-! ## The stamp of belt mode -/

section
variable {d : Device} {k : Int} {t : Nat} {rest : List (Int × Nat)}

/-- The oldest line without a stamp gets this one, 1 us after its trigger. -/
def stampedLine (d : Device) (k : Int) (t : Nat) (rest : List (Int × Nat)) (ts : Nat) (v : Int) : Device :=
  recordStamp { d.elapseTo (t + 1000) with tb := { (d.elapseTo (t + 1000)).tb with unstamped := rest } } { count := k, t := t, ts := ts, speed := v }

theorem stampedLine_frame (d : Device) (k : Int) (t : Nat) (rest : List (Int × Nat)) (ts : Nat) (v : Int) :
    SameBut [] [.tb] d (stampedLine d k t rest ts v) :=
  (((SameBut.refl _ _ d).elapseTo _ (by simp)).putTb _ (by simp)).recordStamp _ (by simp)

theorem peerStatus_ne_tbFlags (p : Nat) : R.PEERn_STATUS p ≠ R.TB_FLAGS := by
  unfold R.PEERn_STATUS R.TB_FLAGS
  omega

theorem oldStamp_of_none {d : Device} (hold : d.slu.old = none) (c : Int) (ts : Nat) : oldStamp d c ts = d := by
  unfold oldStamp
  rw [hold]

/-- A unit that stamps its own lines, without a partner, gives the oldest line without a stamp what its axis shows, or 0 with NO_POS. -/
theorem beltStampDev_of_alone (hline : d.tb.unstamped = (k, t) :: rest) (hown : ownStamps d = true) (hup : privateUp d = false)
    (hold : d.slu.old = none) (hstate : d.sluState ≠ sluArmed) :
    beltStampDev d = (stampedLine d k t rest ((beltStamp d d t).getD (0, 0)).1 ((beltStamp d d t).getD (0, 0)).2).raiseIf
      (beltStamp d d t).isNone F.TB_FLAGS.NO_POS := by
  have hcfg : (d.elapseTo (t + 1000)).asOf k = d.elapseTo (t + 1000) := Device.asOf_of_none (d := d.elapseTo (t + 1000)) hstate hold k
  have hstamp : beltStamp (d.elapseTo (t + 1000)) (d.elapseTo (t + 1000)) t = beltStamp d d t := rfl
  unfold beltStampDev
  rw [hline]
  dsimp only
  rw [if_neg (not_not_intro hown), hcfg, hstamp]
  generalize beltStamp d d t = r
  have hframe : SameBut [R.TB_FLAGS] [.tb, .evt] d ((stampedLine d k t rest (r.getD (0, 0)).1 (r.getD (0, 0)).2).raiseIf r.isNone F.TB_FLAGS.NO_POS) :=
    ((stampedLine_frame ..).mono (by simp) (by simp)).raiseIf _ (by simp) (by simp)
  have hslu : Device.slu _ = d.slu := hframe.parts .slu (by simp)
  have hsame := oldStamp_of_none ((congrArg Sluice.old hslu).trans hold) k (r.getD (0, 0)).1
  have hnoPeer := (hframe.privateUp_eq (by simp) fun p hp => absurd (List.mem_singleton.mp hp) (peerStatus_ne_tbFlags p)).trans hup
  unfold stampedLine at hsame hnoPeer ⊢
  rw [hsame, if_neg fun h => by rw [hnoPeer] at h; exact Bool.false_ne_true h.1]

end

/-- Settles O30: the line's clock, index and stamp move before the armed commit applies and the blocks take the line; in belt mode the stamp
follows from the source axis. -/
theorem lineTriggerAndStamps : Obligations.LineTriggerAndStamps := by
  unfold Obligations.LineTriggerAndStamps
  refine ⟨fun s hidle => ⟨_, exec_lineTrigger s, ?_⟩, fun s hrun hbelt => ?_, fun s hrun hbelt => ?_, fun k t rest o s hline hobs => ?_,
    fun k t rest s hline hobs => ?_⟩
  · exact if_pos (ne_true_of_eq_false hidle)
  · obtain ⟨hlining, hgo⟩ := hrun
    have heq := currentLine_of_freeFall s.dev hbelt
    refine ⟨currentLine s.dev, ?_, ?_⟩
    · rw [exec_lineTrigger, lineTriggerDev_of_lining _ hlining hgo]
      rfl
    · rw [heq]
      exact ⟨rfl, rfl, countedLine_line _, recordStamp_newest _ _, rfl, rfl, (countedLine_frame _).recordStamp _ (by simp)⟩
  · obtain ⟨hlining, hgo⟩ := hrun
    have heq := currentLine_of_belt s.dev hbelt.1 hbelt.2
    refine ⟨currentLine s.dev, ?_, ?_⟩
    · rw [exec_lineTrigger, lineTriggerDev_of_lining _ hlining hgo]
      rfl
    · rw [heq]
      exact ⟨rfl, rfl, countedLine_line _, rfl, rfl, (countedLine_frame _).putTb _ (by simp)⟩
  · obtain ⟨hnext, hown, hup, hold, hstate⟩ := hline
    have hstamp : beltStamp s.dev s.dev t = some (posAt o t, velAt o t) := by unfold beltStamp; rw [hobs]; rfl
    have heq := beltStampDev_of_alone hnext hown hup hold hstate
    rw [hstamp] at heq
    refine ⟨_, exec_beltStamp s, ?_⟩
    rw [heq]
    exact ⟨rfl, rfl, rfl, stampedLine_frame ..⟩
  · obtain ⟨hnext, hown, hup, hold, hstate⟩ := hline
    have hstamp : beltStamp s.dev s.dev t = none := by unfold beltStamp; rw [hobs]; rfl
    have heq := beltStampDev_of_alone hnext hown hup hold hstate
    rw [hstamp] at heq
    refine ⟨_, exec_beltStamp s, ?_⟩
    rw [heq]
    have hflag : SameBut [R.TB_FLAGS] [.evt] _ _ := (SameBut.refl _ _ (stampedLine s.dev k t rest 0 0)).raise (f := F.TB_FLAGS.NO_POS) (by simp) (by simp)
    have htb : Device.tb _ = (stampedLine s.dev k t rest 0 0).tb := hflag.parts .tb (by simp)
    have hraise : (stampedLine s.dev k t rest 0 0).raiseIf true F.TB_FLAGS.NO_POS = (stampedLine s.dev k t rest 0 0).raise F.TB_FLAGS.NO_POS := rfl
    dsimp only [Option.isNone_none, Option.getD_none]
    rw [hraise, htb]
    exact ⟨rfl, rfl, Device.get_raise_self _ _ rfl (by decide), ((stampedLine_frame ..).mono (by simp) (by simp)).raise (by simp) (by simp)⟩

end Sys2Proof.Machine

/-! # The mailboxes, and locks that are forced open

What a master's access to a mailbox channel does (R356), and which locks a write of LCK_FORCE releases (R362). -/

namespace Sys2Proof.Machine

theorem exec_mbxWrite (m : Master) (k : Fin 32) (value : Word) (s : State) : exec (.mbxWrite m k value) s =
    s.done (regAccessBy (masterId m) (R.MBXk_DATA k) true (mbxWriteDev (masterId m) k value) s.dev) := rfl
theorem exec_mbxRead (m : Master) (k : Fin 32) (s : State) : exec (.mbxRead m k) s =
    s.done (regAccessBy (masterId m) (R.MBXk_DATA k) false (fun d => mbxReadDev (masterId m) k (latchPlic d)) s.dev) := rfl
theorem exec_lockForce (hi : Bool) (value : Word) (s : State) : exec (.lockForce hi value) s =
    s.done (regAccess R.LCK_FORCE_LO true (lockForceDev hi value) s.dev) := rfl

/-! ## The channels -/

section
variable {d : Device} {m k : Nat}

theorem mbxFill_rd (d : Device) (k a : Nat) : (mbxFill d k).rd a = (d.set (F.MBXk_STATUS.FULL k) 1).rd a := by
  unfold mbxFill
  dsimp only
  split <;> rfl

theorem mbxFill_get (d : Device) (k : Nat) (f : Fld) : (mbxFill d k).get f = (d.set (F.MBXk_STATUS.FULL k) 1).get f :=
  congrArg f.of (mbxFill_rd d k f.addr)

theorem SameBut.mbxFill {as : List Nat} {ps : List Part} {d e : Device} (h : SameBut as ps d e) (k : Nat) (ha : R.MBXk_STATUS k ∈ as)
    (hp : Part.evt ∈ ps) : SameBut as ps d (mbxFill e k) := by
  unfold Machine.mbxFill
  dsimp only
  split
  · exact (h.set 1 ha).emit _ _ hp
  · exact h.set 1 ha

/-- A data word in a channel that was empty. -/
def mbxStored (d : Device) (k : Nat) (w : Word) : Device := mbxFill (d.wr (R.MBXk_DATA k) w) k

/-- A data word over the one of a full channel. -/
def mbxCollided (d : Device) (k : Nat) (w : Word) : Device :=
  ((mbxStored d k w).set (F.MBXk_STATUS.COLLISION k) 1).count (F.MBXk_COLLISIONS.COUNT k)

theorem mbxData_ne_status (k : Nat) : R.MBXk_DATA k ≠ R.MBXk_STATUS k := by unfold R.MBXk_DATA R.MBXk_STATUS; omega
theorem mbxData_ne_collisions (k : Nat) : R.MBXk_DATA k ≠ R.MBXk_COLLISIONS k := by unfold R.MBXk_DATA R.MBXk_COLLISIONS; omega
theorem mbxStatus_ne_collisions (k : Nat) : R.MBXk_STATUS k ≠ R.MBXk_COLLISIONS k := by unfold R.MBXk_STATUS R.MBXk_COLLISIONS; omega

theorem mbxStatus_not_mem_busErrorRegs (k : Nat) : R.MBXk_STATUS k ∉ busErrorRegs := by
  unfold busErrorRegs R.MBXk_STATUS R.CORE_BUSERR_ADDR_LO R.CORE_BUSERR_ADDR_HI R.CORE_BUSERR_INFO
  simp only [List.mem_cons, List.not_mem_nil, or_false, not_or]
  omega

theorem mbxStored_data (d : Device) (k : Nat) (w : Word) : (mbxStored d k w).rd (R.MBXk_DATA k) = w := by
  rw [mbxStored, mbxFill_rd, Device.set, Device.rd_wr_ne _ _ _ _ (mbxData_ne_status k), Device.rd_wr_self]

theorem mbxStored_full (d : Device) (k : Nat) (w : Word) : (mbxStored d k w).get (F.MBXk_STATUS.FULL k) = 1 := by
  rw [mbxStored, mbxFill_get, Device.get_set_self _ _ _ (by simp)]
  simp

theorem mbxStored_collision (d : Device) (k : Nat) (w : Word) :
    (mbxStored d k w).get (F.MBXk_STATUS.COLLISION k) = d.get (F.MBXk_STATUS.COLLISION k) := by
  rw [mbxStored, mbxFill_get, Device.get_set_ne _ _ _ _ (.inr (by simp))]
  exact congrArg (F.MBXk_STATUS.COLLISION k).of (Device.rd_wr_ne _ _ _ _ (mbxData_ne_status k).symm)

theorem mbxStored_frame (d : Device) (k : Nat) (w : Word) : SameBut [R.MBXk_DATA k, R.MBXk_STATUS k] [.evt] d (mbxStored d k w) :=
  ((SameBut.refl _ _ d).wr _ (by simp)).mbxFill k (by simp) (by simp)

theorem mbxCollided_data (d : Device) (k : Nat) (w : Word) : (mbxCollided d k w).rd (R.MBXk_DATA k) = w := by
  rw [mbxCollided, Device.count, Device.set, Device.rd_wr_ne _ _ _ _ (mbxData_ne_collisions k), Device.set, Device.rd_wr_ne _ _ _ _ (mbxData_ne_status k),
    mbxStored_data]

theorem mbxCollided_full (d : Device) (k : Nat) (w : Word) : (mbxCollided d k w).get (F.MBXk_STATUS.FULL k) = 1 := by
  rw [mbxCollided, Device.get_count, Device.get_set_ne _ _ _ _ (.inl (mbxStatus_ne_collisions k)), Device.get_set_ne _ _ _ _ (.inr (by simp)),
    mbxStored_full]

theorem mbxCollided_collision (d : Device) (k : Nat) (w : Word) : (mbxCollided d k w).get (F.MBXk_STATUS.COLLISION k) = 1 := by
  rw [mbxCollided, Device.get_count, Device.get_set_ne _ _ _ _ (.inl (mbxStatus_ne_collisions k)), Device.get_set_self _ _ _ (by simp)]
  simp

theorem mbxCollided_collisions (d : Device) (k : Nat) (w : Word) : (mbxCollided d k w).get (F.MBXk_COLLISIONS.COUNT k) =
    min (d.get (F.MBXk_COLLISIONS.COUNT k) + 1) (2 ^ ((F.MBXk_COLLISIONS.COUNT k).hi + 1 - (F.MBXk_COLLISIONS.COUNT k).lo) - 1) := by
  have hkept := (mbxStored_frame d k w).get (f := F.MBXk_COLLISIONS.COUNT k)
    (by simp)
  rw [mbxCollided, Device.get_count_saturating _ _ _ (by simp), Device.get_set_ne _ _ _ _ (.inl (mbxStatus_ne_collisions k).symm), hkept]

/-- The sender's write stores the word, over a full channel as a collision. -/
theorem mbxWriteDev_of_sender (hbound : d.bit (F.MBXk_BIND.EN k) = true ∧ d.get (F.MBXk_BIND.SENDER k) = m) (w : Word) :
    mbxWriteDev m k w d = (if d.bit (F.MBXk_STATUS.FULL k) then mbxCollided d k w else mbxStored d k w).reply 0 :=
  if_neg fun h => h.elim (· hbound.1) (· hbound.2)

theorem mbxReadDev_of_receiver (hbound : d.bit (F.MBXk_BIND.EN k) = true ∧ d.get (F.MBXk_BIND.RECEIVER k) = m) :
    mbxReadDev m k d = if d.bit (F.MBXk_STATUS.FULL k) then (d.set (F.MBXk_STATUS.FULL k) 0).reply (d.rd (R.MBXk_DATA k)).toNat
      else (d.set (F.MBXk_STATUS.EMPTY_RD k) 1).reply 0 :=
  if_neg fun h => h.elim (· hbound.1) (· hbound.2)

theorem mbxWriteDev_of_other (hother : d.bit (F.MBXk_BIND.EN k) = false ∨ d.get (F.MBXk_BIND.SENDER k) ≠ m) (w : Word) :
    mbxWriteDev m k w d = mbxRefuse d m k true :=
  if_pos (hother.imp_left ne_true_of_eq_false)

theorem mbxReadDev_of_other (hother : d.bit (F.MBXk_BIND.EN k) = false ∨ d.get (F.MBXk_BIND.RECEIVER k) ≠ m) :
    mbxReadDev m k d = mbxRefuse d m k false :=
  if_pos (hother.imp_left ne_true_of_eq_false)

/-- A refused access sets BIND_ERR and ends with a bus error. -/
theorem mbxRefuse_spec (d : Device) (m : Master) (k : Nat) (write : Bool) :
    (mbxRefuse d (masterId m) k write).get (F.MBXk_STATUS.BIND_ERR k) = 1 ∧ (mbxRefuse d (masterId m) k write).cores.busError = true ∧
      (mbxRefuse d (masterId m) k write).cores.reply = 0 ∧
      SameBut (busErrorRegs ++ [R.MBXk_STATUS k]) [.cores, .fresh] d (mbxRefuse d (masterId m) k write) := by
  have hends := busErrorAs_endsInBusError { master := m, addr := R.MBXk_DATA k } (if write then excStore else excLoad)
    (d.set (F.MBXk_STATUS.BIND_ERR k) 1) write causeMailbox
  refine ⟨?_, hends.busError, hends.reply, ((SameBut.refl _ _ d).set 1 (by simp)).trans (hends.frame.mono_regs (by simp))⟩
  have hset := Device.get_set_self d (F.MBXk_STATUS.BIND_ERR k) 1 (by simp)
  exact (hends.frame.get (mbxStatus_not_mem_busErrorRegs k)).trans (by rw [hset]; simp)

end

/-! ## Forced locks -/

/-- The register of lock `i` of the half that LCK_FORCE_HI (`hi`) or LCK_FORCE_LO names. -/
def halfLock (hi : Bool) (i : Nat) : Nat := R.LCKk (if hi then 32 + i else i)

theorem halfLock_inj {hi : Bool} {i j : Nat} (h : i ≠ j) : halfLock hi i ≠ halfLock hi j := by
  cases hi <;> simp [halfLock, h]

theorem halfLock_ne_flags {hi : Bool} {i : Nat} (h : i < 32) : halfLock hi i ≠ R.LCK_FLAGS := by
  unfold halfLock R.LCKk R.LCK_FLAGS
  split <;> omega

/-- Releases lock `i` where its bit of `w` is 1. -/
def releaseLock (hi : Bool) (w : Word) (d : Device) (i : Nat) : Device := if bitAt w.toNat i then d.wr (halfLock hi i) 0#32 else d

/-- Releases the locks of the bits `l` of `w`. -/
def releaseLocks (hi : Bool) (w : Word) (l : List Nat) (d : Device) : Device := l.foldl (releaseLock hi w) d

theorem releaseLock_kept {hi : Bool} {w : Word} {i j : Nat} (d : Device) (h : i ≠ j ∨ bitAt w.toNat i = false) :
    (releaseLock hi w d j).rd (halfLock hi i) = d.rd (halfLock hi i) := by
  unfold releaseLock
  split
  case isTrue hbit =>
    refine Device.rd_wr_ne _ _ _ _ (halfLock_inj (h.elim id fun hfalse heq => ?_))
    rw [← heq, hfalse] at hbit
    exact Bool.false_ne_true hbit
  case isFalse => rfl

theorem releaseLock_released {hi : Bool} {w : Word} {i : Nat} (d : Device) (h : bitAt w.toNat i = true) :
    (releaseLock hi w d i).rd (halfLock hi i) = 0#32 := by
  rw [releaseLock, if_pos h, Device.rd_wr_self]

theorem releaseLocks_kept {hi : Bool} {w : Word} {i : Nat} : ∀ {l : List Nat} (d : Device), (i ∉ l ∨ bitAt w.toNat i = false) →
    (releaseLocks hi w l d).rd (halfLock hi i) = d.rd (halfLock hi i)
  | [], _, _ => rfl
  | _ :: t, d, h =>
    (releaseLocks_kept (l := t) _ (h.imp_left fun hmem => List.not_mem_of_not_mem_cons hmem)).trans
      (releaseLock_kept d (h.imp_left List.ne_of_not_mem_cons))

theorem releaseLocks_released {hi : Bool} {w : Word} {i : Nat} (hbit : bitAt w.toNat i = true) : ∀ {l : List Nat} (d : Device), i ∈ l →
    (releaseLocks hi w l d).rd (halfLock hi i) = 0#32
  | [], _, h => absurd h List.not_mem_nil
  | j :: t, d, h => by
    by_cases ht : i ∈ t
    · exact releaseLocks_released hbit (l := t) _ ht
    · obtain rfl : i = j := (List.mem_cons.1 h).resolve_right ht
      exact (releaseLocks_kept (l := t) _ (.inl ht)).trans (releaseLock_released d hbit)

theorem releaseLocks_frame (hi : Bool) (w : Word) (l : List Nat) (d : Device) : SameBut (l.map (halfLock hi)) [] d (releaseLocks hi w l d) :=
  SameBut.foldl fun d i hmem => by
    unfold releaseLock
    split
    · exact (SameBut.refl _ _ d).wr _ (List.mem_map_of_mem hmem)
    · exact .refl _ _ d

theorem lockForceDev_eq (hi : Bool) (w : Word) (d : Device) :
    lockForceDev hi w d = if w = 0#32 then d else lockFlag (releaseLocks hi w (List.range 32) d) F.LCK_FLAGS.FORCED := rfl

theorem lockFlag_halfLock (d : Device) (hi : Bool) {i : Nat} (h : i < 32) :
    (lockFlag d F.LCK_FLAGS.FORCED).rd (halfLock hi i) = d.rd (halfLock hi i) :=
  (lockFlag_rd _ _ _).trans (Device.rd_wr_ne _ _ _ _ (halfLock_ne_flags h))

/-- Settles O36: a channel's access is the sender's, the receiver's or refused; LCK_FORCE writes exactly the locks of its bits. -/
theorem mailboxesAndForcedLocks : Obligations.MailboxesAndForcedLocks := by
  unfold Obligations.MailboxesAndForcedLocks
  refine ⟨fun m k value s hbound hgate => ?_, fun m k s hbound hgate => ?_, fun m k value s hother hgate => ?_, fun m k s hother hgate => ?_,
    fun hi value s hgate => ?_⟩
  · rw [exec_mbxWrite, regAccessBy_of_gateOpen hgate, mbxWriteDev_of_sender hbound]
    refine ⟨_, rfl, ?_⟩
    have hframe := (mbxStored_frame s.dev k value).mono (bs := [R.MBXk_DATA k, R.MBXk_STATUS k, R.MBXk_COLLISIONS k]) (qs := [.cores, .evt])
      (by simp) (by simp)
    cases hfull : s.dev.bit (F.MBXk_STATUS.FULL k) with
    | true =>
      refine ⟨mbxCollided_data _ _ _, mbxCollided_full _ _ _, rfl, fun _ => ⟨mbxCollided_collision _ _ _, mbxCollided_collisions _ _ _⟩, fun h => ?_,
        ((hframe.set 1 (by simp)).count 1 (by simp)).reply _ (by simp)⟩
      simp [Device.bit, h] at hfull
    | false =>
      refine ⟨mbxStored_data _ _ _, mbxStored_full _ _ _, rfl, fun h => ?_, fun _ => mbxStored_collision _ _ _, hframe.reply _ (by simp)⟩
      simp [Device.bit, h] at hfull
  · rw [exec_mbxRead, regAccessBy_of_gateOpen hgate]
    have hlatch : SameBut [] [.cores] s.dev (latchPlic s.dev) := (SameBut.refl _ _ _).latchPlic (by simp)
    refine ⟨_, rfl, ?_⟩
    generalize latchPlic s.dev = d at hlatch
    have hdata : d.rd (R.MBXk_DATA k) = s.dev.rd (R.MBXk_DATA k) := hlatch.regs _ (by simp)
    have hsame : d.bit (F.MBXk_STATUS.FULL k) = s.dev.bit (F.MBXk_STATUS.FULL k) := hlatch.bit (by simp)
    have hframe := hlatch.mono_regs (bs := [R.MBXk_STATUS k]) (by simp)
    rw [mbxReadDev_of_receiver (by rwa [hlatch.bit (by simp), hlatch.get (by simp)]), hsame, hdata]
    cases hfull : s.dev.bit (F.MBXk_STATUS.FULL k) with
    | true =>
      refine ⟨rfl, rfl, ?_, fun h => ?_, (hframe.set 0 (by simp)).reply _ (by simp)⟩
      · exact (Device.get_set_self d (F.MBXk_STATUS.FULL k) 0 (by simp)).trans (by simp)
      · simp [Device.bit, h] at hfull
    | false =>
      refine ⟨rfl, rfl, ?_, fun _ => ?_, (hframe.set 1 (by simp)).reply _ (by simp)⟩
      · refine (Device.get_set_ne d (F.MBXk_STATUS.EMPTY_RD k) (F.MBXk_STATUS.FULL k) 1 (.inr (by simp))).trans ?_
        have hlt := Device.get_lt d (F.MBXk_STATUS.FULL k)
        have hne : d.get (F.MBXk_STATUS.FULL k) ≠ 1 := fun h => by
          rw [← hsame] at hfull
          simp [Device.bit, h] at hfull
        simp only [Nat.add_sub_cancel_left] at hlt
        omega
      · exact (Device.get_set_self d (F.MBXk_STATUS.EMPTY_RD k) 1 (by simp)).trans (by simp)
  · rw [exec_mbxWrite, regAccessBy_of_gateOpen hgate, mbxWriteDev_of_other hother]
    obtain ⟨hflag, herror, -, hframe⟩ := mbxRefuse_spec s.dev m k true
    exact ⟨_, rfl, hflag, herror, hframe⟩
  · rw [exec_mbxRead, regAccessBy_of_gateOpen hgate]
    have hlatch : SameBut (busErrorRegs ++ [R.MBXk_STATUS k]) [.cores, .fresh] s.dev (latchPlic s.dev) :=
      ((SameBut.refl [] _ _).latchPlic (by simp)).mono_regs (by simp)
    have hbind : R.MBXk_BIND k ∉ busErrorRegs ++ [R.MBXk_STATUS k] := by
      unfold busErrorRegs R.MBXk_BIND R.MBXk_STATUS R.CORE_BUSERR_ADDR_LO R.CORE_BUSERR_ADDR_HI R.CORE_BUSERR_INFO
      simp only [List.cons_append, List.nil_append, List.mem_cons, List.not_mem_nil, or_false, not_or]
      omega
    refine ⟨_, rfl, ?_⟩
    generalize latchPlic s.dev = d at hlatch
    rw [mbxReadDev_of_other (by rwa [hlatch.bit hbind, hlatch.get hbind])]
    obtain ⟨hflag, herror, hreply, hframe⟩ := mbxRefuse_spec d m k false
    exact ⟨hflag, herror, hreply, hlatch.trans hframe⟩
  · rw [exec_lockForce, regAccess_of_gateOpen hgate, lockForceDev_eq]
    refine ⟨_, rfl, ?_⟩
    split
    case isTrue hzero =>
      subst hzero
      have hnone : ∀ i : Fin 32, ¬ bitAt (0#32).toNat i = true := by decide
      exact ⟨fun i h => absurd h (hnone i), fun i h => absurd h (hnone i), fun _ _ => rfl, .refl _ _ _⟩
    case isFalse =>
      refine ⟨fun i hbit => ?_, fun i _ => ?_, fun i hbit => ?_, ?_⟩
      · exact (lockFlag_halfLock _ hi i.isLt).trans (releaseLocks_released hbit _ (List.mem_range.2 i.isLt))
      · rw [lockFlag_get, Device.get_set_self _ _ _ (by decide)]
        rfl
      · exact (lockFlag_halfLock _ hi i.isLt).trans (releaseLocks_kept _ (.inr hbit))
      · exact ((releaseLocks_frame hi value (List.range 32) s.dev).mono (bs := R.LCK_FLAGS :: (List.range 32).map (halfLock hi)) (qs := [.evt])
          (List.subset_cons_of_subset _ (List.Subset.refl _)) (by simp)).lockFlag
          (by simp) (by simp)

end Sys2Proof.Machine

/-! # Capture groups and blocks

How a complete group fills the output buffer, and where a block of the buffer goes (R333 to R339). -/

namespace Sys2Proof.Machine

theorem exec_captureGroupComplete (bad : List Nat) (s : State) : exec (.captureGroupComplete bad) s = s.done (groupCompleteDev bad s.dev) := rfl
theorem exec_captureBlockStored (s : State) : exec .captureBlockStored s = s.done (blockStoredDev s.dev) := rfl
theorem exec_capPosRead (idx : Bool) (s : State) :
    exec (.capPosRead idx) s = s.done (regAccess R.CAP_WPOS_LO false (capPosDev idx) s.dev) := rfl

/-- The device with another capture block. -/
def Device.withCap (d : Device) (c : Cap) : Device := { d with cap := c }

section
variable {as : List Nat} {ps : List Part} {d e : Device}

theorem SameBut.withCap (h : SameBut as ps d e) (c : Cap) (hp : Part.cap ∈ ps) : SameBut as ps d (e.withCap c) :=
  h.parts_only rfl rfl rfl rfl (fun p hp' => by
    cases p with
    | cap => exact absurd hp hp'
    | _ => rfl)

end

/-! ## What the status shows -/

section
variable (d : Device)

theorem showCapture_cap : (showCapture d).cap = d.cap := rfl
theorem showCapture_mem : (showCapture d).mem = d.mem := rfl

theorem showCapture_get {f : Fld} (h : f.addr ≠ R.CAP_STATUS) : (showCapture d).get f = d.get f := by
  rw [showCapture, Device.get_setBit, Device.get_set_ne _ _ _ _ (.inl h), Device.get_set_ne _ _ _ _ (.inl h)]

theorem showCapture_coding : (showCapture d).get F.CAP_STATUS.CODING = if d.cap.groups.isEmpty then 0 else 1 := by
  rw [showCapture, Device.get_setBit, Device.get_set_self _ _ _ (by decide)]
  cases d.cap.groups.isEmpty <;> rfl

theorem SameBut.showCapture {as : List Nat} {ps : List Part} {d e : Device} (h : SameBut as ps d e) (ha : R.CAP_STATUS ∈ as) :
    SameBut as ps d (showCapture e) :=
  (h.set _ ha).setBit _ ha

end

/-! ## A complete group -/

/-- Whether a group is complete does not depend on the capture block. -/
theorem groupDone_withCap (d : Device) (c : Cap) (g : CapGroup) : groupDone (d.withCap c) g = groupDone d g := by
  have hasOf (k : Int) : (d.withCap c).asOf k = (d.asOf k).withCap c := by
    unfold Device.asOf
    rw [show (d.withCap c).sluState = d.sluState from rfl, show (d.withCap c).slu = d.slu from rfl]
    split
    · rfl
    · split
      · split <;> rfl
      · rfl
  unfold groupDone
  simp only [hasOf]
  rfl

/-- Blocks that fit the buffer join it in order. -/
theorem foldl_placeBlock : ∀ (l : List (CapBlock × Nat)) (d : Device), capHeld d + ((l.map Prod.fst).map (fun b => b.bytes.length)).sum ≤ 1048576 →
    l.foldl (fun d e => placeBlock d e.1) d = d.withCap { d.cap with buffer := d.cap.buffer ++ l.map Prod.fst }
  | [], d, _ => by rw [List.map_nil, List.append_nil]; rfl
  | (b, i) :: t, d, h => by
    simp only [List.map_cons, List.sum_cons] at h
    have hplaced : placeBlock d b = d.withCap { d.cap with buffer := d.cap.buffer ++ [b] } := if_neg (by omega)
    have hheld : capHeld (d.withCap { d.cap with buffer := d.cap.buffer ++ [b] }) = capHeld d + b.bytes.length := by
      simp [capHeld, Device.withCap]
    rw [List.foldl_cons, hplaced, foldl_placeBlock t _ (by omega)]
    simp [Device.withCap]

section
variable {d : Device} {g : CapGroup} {rest : List CapGroup} (hgroups : d.cap.groups.filter (fun x => !groupCut d x) = g :: rest)
include hgroups

/-- The groups that can still be complete, the oldest of them not yet. -/
theorem groupCompleteDev_of_waiting (bad : List Nat) (hwait : groupDone d g = false) :
    groupCompleteDev bad d = showCapture (d.withCap { d.cap with groups := g :: rest }) := by
  have hdone := groupDone_withCap d { d.cap with groups := g :: rest } g
  unfold Device.withCap at hdone ⊢
  unfold groupCompleteDev
  rw [hgroups]
  exact if_pos (by rw [hdone, hwait]; exact Bool.false_ne_true)

theorem groupCompleteDev_of_complete (hdone : groupDone d g = true)
    (hfit : capHeld d + ((g.wins.flatMap (windowBlocks g)).map (fun b => b.bytes.length)).sum ≤ 1048576) :
    groupCompleteDev [] d =
      showCapture (d.withCap { d.cap with groups := rest, buffer := d.cap.buffer ++ g.wins.flatMap (windowBlocks g) }) := by
  have hsame := (groupDone_withCap d { d.cap with groups := g :: rest } g).trans hdone
  have hplace := foldl_placeBlock ((g.wins.flatMap (windowBlocks g)).zip (List.range (g.wins.flatMap (windowBlocks g)).length))
    (d.withCap { d.cap with groups := rest })
  rw [List.map_fst_zip (by simp)] at hplace
  replace hplace := hplace hfit
  unfold Device.withCap at hsame hplace ⊢
  unfold groupCompleteDev
  rw [hgroups]
  refine (if_neg (not_not_intro hsame)).trans ?_
  simp only [List.contains_nil, Bool.false_eq_true, if_false]
  rw [hplace]

end

/-! ## A stored block -/

theorem Device.setBytes_withCap (c : Cap) : ∀ (bs : List Byte) (d : Device) (a : Nat), (d.withCap c).setBytes a bs = (d.setBytes a bs).withCap c
  | [], _, _ => rfl
  | b :: t, d, a => Device.setBytes_withCap c t (d.setByte a b) (a + 1)

/-- Block `b` and its index entry in its rings, at positions `w` and `i`. -/
def blockInRings (d : Device) (b : CapBlock) (w i : Nat) : Device :=
  (ringWrite d b.rings.data b.rings.dataLog w b.bytes).setBytes (b.rings.idx + 16 * (i % 2 ^ b.rings.idxLog)) (indexEntry b w)

theorem blockInRings_withCap (d : Device) (c : Cap) (b : CapBlock) (w i : Nat) :
    blockInRings (d.withCap c) b w i = (blockInRings d b w i).withCap c := by
  unfold blockInRings ringWrite
  dsimp only
  rw [Device.setBytes_withCap, Device.setBytes_withCap, Device.setBytes_withCap]

theorem indexEntry_length (b : CapBlock) (pos : Nat) : (indexEntry b pos).length = 16 := by
  simp [indexEntry, leBytes_length]

section
variable {as : List Nat} {ps : List Part} {rs qs : List (Nat × Nat)} {c d e : Device}

/-- Bytes may have changed in ranges that hold those of the frame. -/
theorem SameButMem.mono_ranges (h : SameButMem as ps rs d e) (hsub : ∀ r ∈ rs, ∃ q ∈ qs, q.1 ≤ r.1 ∧ r.1 + r.2 ≤ q.1 + q.2) :
    SameButMem as ps qs d e :=
  have houtside (a : Nat) (ha : ∀ q ∈ qs, a < q.1 ∨ q.1 + q.2 ≤ a) : ∀ r ∈ rs, a < r.1 ∨ r.1 + r.2 ≤ a := by
    intro r hr
    obtain ⟨q, hq, hlo, hhi⟩ := hsub r hr
    have := ha q hq
    omega
  { h with bytes := fun a ha => h.bytes a (houtside a ha) }

end

theorem blockInRings_frame (d : Device) (b : CapBlock) (w i : Nat) : SameButMem [] [.resv]
    [(b.rings.data + w % 2 ^ b.rings.dataLog, min b.bytes.length (2 ^ b.rings.dataLog - w % 2 ^ b.rings.dataLog)),
      (b.rings.data, b.bytes.length - (2 ^ b.rings.dataLog - w % 2 ^ b.rings.dataLog)), (b.rings.idx + 16 * (i % 2 ^ b.rings.idxLog), 16)]
    d (blockInRings d b w i) := by
  have hstep (d : Device) (a : Nat) (bs : List Byte) : SameButMem [] [.resv] [(a, bs.length)] d (d.setBytes a bs) :=
    (SameBut.refl _ _ d).setBytes (by simp) a bs
  have hwrite := hstep d (b.rings.data + w % 2 ^ b.rings.dataLog) (b.bytes.take (2 ^ b.rings.dataLog - w % 2 ^ b.rings.dataLog))
  refine (hwrite.mono_ranges ?_).trans (((hstep _ _ (b.bytes.drop (2 ^ b.rings.dataLog - w % 2 ^ b.rings.dataLog))).mono_ranges ?_).trans
    ((hstep _ _ (indexEntry b w)).mono_ranges ?_))
  · simp [Nat.min_comm]
  · simp
  · simp [indexEntry_length]

/-- The block leaves the buffer for its rings. -/
def storedBlock (d : Device) (b : CapBlock) (rest : List CapBlock) (w i : Nat) : Device :=
  ((((blockInRings d b w i).withCap { d.cap with buffer := rest }).count F.CAP_BLOCKS.COUNT).count F.CAP_RAW_BLOCKS.COUNT (if b.raw then 1 else 0))

/-- The block leaves the buffer and is lost. -/
def droppedBlock (d : Device) (rest : List CapBlock) : Device :=
  ((d.withCap { d.cap with buffer := rest }).count F.CAP_BLK_FULL.COUNT).raise F.CAP_FLAGS.FULL

section
variable {d : Device} {b : CapBlock} {rest : List CapBlock}

theorem blockStoredDev_of_fits (hbuffer : d.cap.buffer = b :: rest) (hstop : b.rings.stop = false) : blockStoredDev d = showCapture
    (setCapPos (storedBlock d b rest (capPos d b.rings).1 (capPos d b.rings).2) b.rings ((capPos d b.rings).1 + b.bytes.length)
      ((capPos d b.rings).2 + 1)) := by
  have hrings := blockInRings_withCap d { d.cap with buffer := rest } b (capPos d b.rings).1 (capPos d b.rings).2
  unfold storedBlock
  rw [← hrings]
  unfold blockStoredDev
  rw [hbuffer]
  exact if_neg fun h => by rw [hstop] at h; exact Bool.false_ne_true h.1

theorem blockStoredDev_of_full (hbuffer : d.cap.buffer = b :: rest) (hstop : b.rings.stop = true)
    (hfull : d.pair R.CAP_KEEP_LO R.CAP_KEEP_HI + 2 ^ b.rings.dataLog < (capPos d b.rings).1 + b.bytes.length) :
    blockStoredDev d = showCapture (droppedBlock d rest) := by
  unfold blockStoredDev
  rw [hbuffer]
  exact if_pos ⟨hstop, .inl hfull⟩

/-- Positions of the rings in force. -/
theorem capPos_of_current {r : CapRings} (h : r.gen = d.cap.gen) : capPos d r = (d.cap.wpos, d.cap.ipos) := if_pos h

theorem capPos_setCapPos {r : CapRings} (h : r.gen ≠ d.cap.gen) (w i : Nat) : capPos (setCapPos d r w i) r = (w, i) := by
  unfold setCapPos
  rw [if_neg h]
  unfold capPos
  rw [if_neg h]
  simp

theorem SameBut.setCapPos {as : List Nat} {ps : List Part} {d e : Device} (h : SameBut as ps d e) (r : CapRings) (w i : Nat) (hp : Part.cap ∈ ps) :
    SameBut as ps d (setCapPos e r w i) :=
  h.withCap _ hp

theorem storedBlock_frame (w i : Nat) : SameButMem [R.CAP_STATUS, R.CAP_BLOCKS, R.CAP_RAW_BLOCKS] [.resv, .cap]
    [(b.rings.data + w % 2 ^ b.rings.dataLog, min b.bytes.length (2 ^ b.rings.dataLog - w % 2 ^ b.rings.dataLog)),
      (b.rings.data, b.bytes.length - (2 ^ b.rings.dataLog - w % 2 ^ b.rings.dataLog)), (b.rings.idx + 16 * (i % 2 ^ b.rings.idxLog), 16)]
    d (showCapture (setCapPos (storedBlock d b rest w i) b.rings (w + b.bytes.length) (i + 1))) :=
  ((blockInRings_frame d b w i).mono (by simp) (by simp)).trans_sameBut
    ((((((SameBut.refl _ _ _).withCap _ (by simp)).count _ (by simp)).count _ (by simp)).setCapPos _ _ _ (by simp)).showCapture (by simp))

theorem Device.withCap_get (d : Device) (c : Cap) (f : Fld) : (d.withCap c).get f = d.get f := rfl

theorem blockInRings_get (w i : Nat) (c : Cap) (f : Fld) : ((blockInRings d b w i).withCap c).get f = d.get f := by
  rw [Device.withCap_get]
  exact (blockInRings_frame d b w i).get List.not_mem_nil

theorem storedBlock_blocks (w i : Nat) : (storedBlock d b rest w i).get F.CAP_BLOCKS.COUNT = min (d.get F.CAP_BLOCKS.COUNT + 1) 0xFFFFFFFF := by
  rw [storedBlock, Device.get_count, Device.get_set_ne _ _ _ _ (.inl (by decide)), Device.get_count_saturating _ _ _ (by decide), blockInRings_get]
  rfl

theorem storedBlock_rawBlocks (w i : Nat) : (storedBlock d b rest w i).get F.CAP_RAW_BLOCKS.COUNT =
    min (d.get F.CAP_RAW_BLOCKS.COUNT + (if b.raw then 1 else 0)) 0xFFFFFFFF := by
  rw [storedBlock, Device.get_count_saturating _ _ _ (by decide), Device.get_count, Device.get_set_ne _ _ _ _ (.inl (by decide)), blockInRings_get]
  rfl

theorem setCapPos_get (r : CapRings) (w i : Nat) (f : Fld) : (setCapPos d r w i).get f = d.get f := rfl

end

/-- Settles O42: a complete group's blocks join the buffer, and the first block goes to its rings or is dropped in stop mode. -/
theorem captureBlocksAndRings : Obligations.CaptureBlocksAndRings := by
  unfold Obligations.CaptureBlocksAndRings
  refine ⟨fun g rest s hgroups hfit => ?_, fun g rest bad s hgroups => ?_, fun b rest s hfirst => ?_, fun b rest s hfirst hfull => ?_,
    fun b rest s hfirst => ?_, fun idx s hgate => ?_⟩
  · rw [exec_captureGroupComplete, groupCompleteDev_of_complete hgroups.1 hgroups.2 hfit]
    exact ⟨_, rfl, rfl, rfl, showCapture_coding _, ((SameBut.refl _ _ _).withCap _ (by simp)).showCapture (by simp)⟩
  · rw [exec_captureGroupComplete, groupCompleteDev_of_waiting hgroups.1 bad hgroups.2]
    exact ⟨_, rfl, rfl, showCapture_coding _, ((SameBut.refl _ _ _).withCap _ (by simp)).showCapture (by simp)⟩
  · obtain ⟨hbuffer, hstop, hgen⟩ := hfirst
    rw [exec_captureBlockStored, blockStoredDev_of_fits hbuffer hstop, capPos_of_current hgen]
    have hcap : (setCapPos (storedBlock s.dev b rest s.dev.cap.wpos s.dev.cap.ipos) b.rings (s.dev.cap.wpos + b.bytes.length)
        (s.dev.cap.ipos + 1)).cap = { s.dev.cap with buffer := rest, wpos := s.dev.cap.wpos + b.bytes.length, ipos := s.dev.cap.ipos + 1 } :=
      if_pos hgen
    refine ⟨_, rfl, ?_, ?_, ?_, rfl, ?_, ?_, storedBlock_frame _ _⟩
    · rw [showCapture_cap, hcap]
    · rw [showCapture_cap, hcap]
    · rw [showCapture_cap, hcap]
    · rw [showCapture_get _ (by decide), setCapPos_get, storedBlock_blocks]
    · rw [showCapture_get _ (by decide), setCapPos_get, storedBlock_rawBlocks]
  · obtain ⟨hbuffer, hstop, hgen⟩ := hfirst
    have hpos := capPos_of_current hgen
    rw [exec_captureBlockStored, blockStoredDev_of_full hbuffer hstop (by rw [hpos]; exact hfull)]
    have hframe : SameBut [R.CAP_BLK_FULL, R.CAP_FLAGS] [.evt] (s.dev.withCap { s.dev.cap with buffer := rest }) (droppedBlock s.dev rest) :=
      ((SameBut.refl _ _ _).count _ (by simp)).raise (by simp) (by simp)
    have hcap : (droppedBlock s.dev rest).cap = { s.dev.cap with buffer := rest } := hframe.parts .cap (by simp)
    refine ⟨_, rfl, ?_, ?_, ?_, ?_, ?_, ?_⟩
    · rw [showCapture_cap, hcap]
    · rw [showCapture_cap, hcap]
    · rw [showCapture_cap, hcap]
    · rw [showCapture_get _ (by decide), droppedBlock, Device.get_raise_self _ _ rfl (by decide)]
    · rw [showCapture_get _ (by decide), droppedBlock, Device.get_raise, Device.get_set_ne _ _ _ _ (.inl (by decide)),
        Device.get_count_saturating _ _ _ (by decide)]
      rfl
    · exact ((((SameBut.refl _ _ _).withCap _ (by simp)).count _ (by simp)).raise (by simp) (by simp)).showCapture (by simp)
  · obtain ⟨hbuffer, hstop, hgen⟩ := hfirst
    rw [exec_captureBlockStored, blockStoredDev_of_fits hbuffer hstop]
    generalize hp : capPos s.dev b.rings = p
    have hgen' : b.rings.gen ≠ (storedBlock s.dev b rest p.1 p.2).cap.gen := hgen
    have hcap : (setCapPos (storedBlock s.dev b rest p.1 p.2) b.rings (p.1 + b.bytes.length) (p.2 + 1)).cap =
        { s.dev.cap with buffer := rest, olds := (b.rings.gen, p.1 + b.bytes.length, p.2 + 1) :: s.dev.cap.olds.filter (fun e => e.1 != b.rings.gen) } :=
      if_neg hgen
    have hlt : p.1 % 2 ^ b.rings.dataLog < 2 ^ b.rings.dataLog := Nat.mod_lt _ (Nat.two_pow_pos _)
    refine ⟨_, rfl, ?_, ?_, ?_, ?_, rfl, (storedBlock_frame _ _).mono_ranges ?_⟩
    · rw [showCapture_cap, hcap]
    · rw [showCapture_cap, hcap]
    · rw [showCapture_cap, hcap]
    · exact capPos_setCapPos hgen' _ _
    · simp only [List.mem_cons, List.not_mem_nil, or_false, forall_eq_or_imp, forall_eq, exists_eq_or_imp, exists_eq_left]
      refine ⟨.inl ?_, .inr (.inl ?_), .inr (.inr ?_)⟩ <;> omega
  · rw [exec_capPosRead, regAccess_of_gateOpen hgate]
    cases idx with
    | true => exact ⟨_, rfl, Device.pair_setPair_self _ (by decide) _, (SameBut.refl _ _ _).setPair _ (by simp) (by simp)⟩
    | false => exact ⟨_, rfl, Device.pair_setPair_self _ (by decide) _, (SameBut.refl _ _ _).setPair _ (by simp) (by simp)⟩

end Sys2Proof.Machine

/-! # The reset of a core

What a core's reset leaves of it, which locks it frees, and what its watchdog adds (R345 to R347, R358, R362). -/

namespace Sys2Proof.Machine

theorem exec_coreReset (n : Fin 4) (s : State) : exec (.coreReset n) s = s.done (regAccess (R.CORE_Cn_CTRL n) true (coreResetDev n) s.dev) := rfl
theorem exec_coreRelease (n : Fin 4) (s : State) : exec (.coreRelease n) s = s.done (regAccess (R.CORE_Cn_CTRL n) true (coreReleaseDev n) s.dev) :=
  rfl
theorem exec_watchdogKick (n : Fin 4) (value : Word) (s : State) :
    exec (.watchdogKick n value) s = s.done (regAccess (R.CORE_Cn_KICK n) true (watchdogKickDev n value) s.dev) := rfl
theorem exec_watchdogExpire (n : Fin 4) (s : State) : exec (.watchdogExpire n) s = s.done (watchdogExpireDev n s.dev) := rfl

section
variable {as : List Nat} {ps : List Part} {d e : Device}

theorem SameBut.setCore (h : SameBut as ps d e) (n : Nat) (x : CoreX) (hp : Part.cores ∈ ps) : SameBut as ps d (e.setCore n x) := h.putCores _ hp

end

/-! ## Locks and mailboxes of a master that is reset -/

/-- An address is none of these registers where it is no lock's, no mailbox status and not LCK_FLAGS. -/
theorem not_mem_masterRegs {a : Nat} (hflags : a ≠ R.LCK_FLAGS) (hlock : ∀ k, k < 64 → a ≠ R.LCKk k) (hmbx : ∀ k, k < 32 → a ≠ R.MBXk_STATUS k) :
    a ∉ masterRegs := by
  simp only [masterRegs, List.mem_append, List.mem_map, List.mem_range, List.mem_singleton]
  rintro ((⟨k, hk, rfl⟩ | rfl) | ⟨k, hk, rfl⟩)
  · exact hlock k hk rfl
  · exact hflags rfl
  · exact hmbx k hk rfl

theorem coreReg_not_mem_masterRegs {a : Nat} (hhi : a < 0x10050000) : a ∉ masterRegs :=
  not_mem_masterRegs (by unfold R.LCK_FLAGS; omega) (fun k _ => by unfold R.LCKk; omega) (fun k _ => by unfold R.MBXk_STATUS; omega)

/-- A register that is no mailbox status is as the locks' part of the reset leaves it. -/
theorem masterReset_rd (d : Device) (m : Nat) {a : Nat} (h : ∀ k, k < 32 → a ≠ R.MBXk_STATUS k) :
    (masterReset d m).rd a = (((List.range 64).foldl (fun d k => lockReleased d m k) d).set F.LCK_FLAGS.RESET_REL 1).rd a := by
  have hnot : a ∉ (List.range 32).map R.MBXk_STATUS := fun hmem => by
    obtain ⟨k, hlt, hk⟩ := List.mem_map.1 hmem
    exact h k (List.mem_range.1 hlt) hk.symm
  rw [masterReset, (mbxMasterReset_frame _ m).regs _ hnot, lockMasterReset_eq, lockFlag_rd]

/-- The locks of other masters stay. -/
theorem masterReset_otherLock (d : Device) (m : Nat) {k : Fin 64} (h : (d.rd (R.LCKk k)).toNat ≠ m + 1) :
    (masterReset d m).rd (R.LCKk k) = d.rd (R.LCKk k) := by
  rw [masterReset_rd d m (fun j _ => by unfold R.LCKk R.MBXk_STATUS; omega), Device.set, Device.rd_wr_ne _ _ _ _ (show R.LCKk k ≠ R.LCK_FLAGS by unfold R.LCKk R.LCK_FLAGS; omega)]
  refine List.foldlRecOn (motive := fun e : Device => e.rd (R.LCKk k) = d.rd (R.LCKk k)) _ _ rfl fun e he j _ => ?_
  by_cases hj : j = k.val
  · rw [hj, lockReleased, he, if_neg h, he]
  · refine ((lockReleased_frame e m j).regs _ ?_).trans he
    simp only [List.mem_singleton, R.LCKk]
    omega

theorem masterReset_released (d : Device) (m : Nat) : (masterReset d m).get F.LCK_FLAGS.RESET_REL = 1 := by
  have hrd := masterReset_rd d m (a := R.LCK_FLAGS) (fun j _ => by unfold R.LCK_FLAGS R.MBXk_STATUS; omega)
  have hset := Device.get_set_self ((List.range 64).foldl (fun d k => lockReleased d m k) d) F.LCK_FLAGS.RESET_REL 1 (by decide)
  exact (congrArg F.LCK_FLAGS.RESET_REL.of hrd).trans hset

theorem masterReset_mbxData (d : Device) (m : Nat) (k : Fin 32) : (masterReset d m).rd (R.MBXk_DATA k) = d.rd (R.MBXk_DATA k) :=
  (masterReset_frame d m).regs (R.MBXk_DATA k) (not_mem_masterRegs (by unfold R.LCK_FLAGS R.MBXk_DATA; omega)
    (fun j _ => by unfold R.LCKk R.MBXk_DATA; omega) (fun j _ => by unfold R.MBXk_STATUS R.MBXk_DATA; omega))

/-! ## The core -/

theorem startHart_pc (d : Device) (n : Nat) : (startHart d n).pc = (bootHart d n).pc := by
  unfold startHart
  dsimp only
  split <;> rfl

theorem startHart_machine (d : Device) (n : Nat) : (startHart d n).machine = true := by
  unfold startHart
  dsimp only
  split <;> rfl

/-- Core `n` as its reset leaves it. -/
def coreAfterReset (d : Device) (n : Nat) : CoreX :=
  { kickAt := d.tb.edges, hart := startHart d n, haltOnReset := (d.core n).haltOnReset,
    haltAt := if (d.core n).haltOnReset then some d.tb.edges else none, timer := (d.core n).timer }

/-- Core `n` after its reset, without its reservations and claims. -/
def coreEmptied (d : Device) (n : Nat) : Device :=
  let d1 := d.setCore n (coreAfterReset d n)
  { d1 with resv := d1.resv.filter (fun r => r.1 ≠ n), cores := { d1.cores with claimed := d1.cores.claimed.filter (fun e => e.2 ≠ n) } }

/-- The reset of a core before its locks and mailboxes. -/
def coreCleared (d : Device) (n : Nat) : Device :=
  ((coreEmptied d n).set (F.CORE_Cn_CMO.BUSY n) 0).setBit (F.CORE_Cn_STATUS.DEBUG_HALTED n) (d.core n).haltOnReset

theorem resetCore_eq (d : Device) (n : Nat) : resetCore d n = masterReset (coreCleared d n) n := rfl

/-- The registers that a core's reset may change. -/
def coreResetRegs (n : Nat) : List Nat := [R.CORE_Cn_CMO n, R.CORE_Cn_STATUS n] ++ masterRegs

section
variable (d : Device) {n : Nat}

theorem coreEmptied_frame (n : Nat) : SameBut [] [.resv, .cores] d (coreEmptied d n) :=
  (SameBut.refl _ _ d).parts_only rfl rfl rfl rfl (fun p hp => by
    cases p with
    | resv => exact absurd (by simp) hp
    | cores => exact absurd (by simp) hp
    | _ => rfl)

theorem coreCleared_frame (n : Nat) : SameBut [R.CORE_Cn_CMO n, R.CORE_Cn_STATUS n] [.resv, .cores] d (coreCleared d n) :=
  (((coreEmptied_frame d n).mono_regs (by simp)).set _ (by simp)).setBit _ (by simp)

theorem resetCore_frame (n : Nat) : SameBut (coreResetRegs n) [.resv, .cores, .evt] d (resetCore d n) := by
  rw [resetCore_eq]
  exact ((coreCleared_frame d n).mono (by simp [coreResetRegs]) (by simp)).trans
    ((masterReset_frame _ n).mono (by simp [coreResetRegs]) (by simp))

theorem resetCore_core (hn : n < 4) : (resetCore d n).core n = coreAfterReset d n := by
  have hcores : (resetCore d n).cores = (coreCleared d n).cores := (masterReset_frame (coreCleared d n) n).parts .cores (by simp)
  unfold Device.core
  rw [hcores]
  exact Device.core_setCore_self d hn _

theorem resetCore_resv (n : Nat) : (resetCore d n).resv = d.resv.filter (fun r => r.1 ≠ n) :=
  (masterReset_frame (coreCleared d n) n).parts .resv (by simp)

theorem coreStatus_ne_cmo (n : Nat) : R.CORE_Cn_STATUS n ≠ R.CORE_Cn_CMO n := by unfold R.CORE_Cn_STATUS R.CORE_Cn_CMO; omega

theorem coreStatus_not_mem_masterRegs (hn : n < 4) : R.CORE_Cn_STATUS n ∉ masterRegs :=
  coreReg_not_mem_masterRegs (by unfold R.CORE_Cn_STATUS; omega)

/-- A reset leaves a core's RUNNING and WDOG_EXPIRED. -/
theorem resetCore_status (hn : n < 4) {f : Fld} (ha : f.addr = R.CORE_Cn_STATUS n) (hf : f.hi < 30 ∨ 30 < f.lo) :
    (resetCore d n).get f = d.get f := by
  rw [resetCore_eq, (masterReset_frame _ n).get (by rw [ha]; exact coreStatus_not_mem_masterRegs hn), coreCleared, Device.get_setBit,
    Device.get_set_ne _ _ _ _ (.inr hf.symm), Device.get_set_ne _ _ _ _ (.inl (by rw [ha]; exact coreStatus_ne_cmo n))]
  rfl

theorem resetCore_runs (hn : n < 4) : coreRuns (resetCore d n) n = coreRuns d n := by
  unfold coreRuns Device.bit
  rw [resetCore_status d hn rfl (.inr (by simp))]

end

/-! ## The watchdog -/

section
variable (d : Device) {n : Nat}

theorem setExpired_frame (n : Nat) : SameBut [R.CORE_Cn_STATUS n] [.evt] d (setExpired d n) := by
  unfold setExpired
  dsimp only
  split
  · exact (SameBut.refl _ _ d).set 1 (by simp)
  · exact ((SameBut.refl _ _ d).set 1 (by simp)).emit _ _ (by simp)

theorem setExpired_rd (n a : Nat) : (setExpired d n).rd a = (d.set (F.CORE_Cn_STATUS.WDOG_EXPIRED n) 1).rd a := by
  unfold setExpired
  dsimp only
  split <;> rfl

theorem setExpired_get (n : Nat) (f : Fld) : (setExpired d n).get f = (d.set (F.CORE_Cn_STATUS.WDOG_EXPIRED n) 1).get f :=
  congrArg f.of (setExpired_rd d n f.addr)

theorem untilExpiry_frame (n : Nat) : SameBut [] [.tb] d (untilExpiry d n) := by
  unfold untilExpiry
  dsimp only
  split
  · exact (SameBut.refl _ _ d).elapse _ (by simp)
  · exact .refl _ _ d

theorem untilExpiry_edges (n : Nat) :
    (untilExpiry d n).tb.edges = max d.tb.edges ((d.core n).kickAt + 500 * d.get (F.CORE_Cn_WDOG.TIMEOUT n)) := by
  unfold untilExpiry
  dsimp only
  split
  case isTrue h => exact (show d.tb.edges + _ = _ by omega)
  case isFalse h => exact (Nat.max_eq_left (Nat.not_lt.1 h)).symm

theorem coreStatus_not_mem_faultRegs (hn : n < 4) : R.CORE_Cn_STATUS n ∉ faultRegs := by
  unfold faultRegs R.CORE_Cn_STATUS R.FLT_L1_COUNT R.FLT_L2_COUNT R.FLT_L3_COUNT R.FLT_LAST R.FLT_LAST_LINE R.FLT_FLAGS R.FLT_HIST_SEQ
  simp only [List.mem_cons, List.not_mem_nil, or_false, not_or]
  omega

/-- An enabled watchdog that no halt pauses expires. -/
theorem watchdogExpireDev_of_running (hrun : coreRuns d n = true) (hen : d.bit (F.CORE_Cn_WDOG.EN n) = true)
    (hhalt : d.bit (F.CORE_Cn_STATUS.DEBUG_HALTED n) = false) :
    watchdogExpireDev n d = (setExpired (resetCore (untilExpiry d n) n) n).fault faultWdog n :=
  if_neg fun h => by simp [hrun, hen, hhalt] at h

theorem watchdogExpireDev_of_idle (h : coreRuns d n = false ∨ d.bit (F.CORE_Cn_WDOG.EN n) = false ∨
    (d.bit F.CORE_DBG.WDOG_HALT = true ∧ d.bit (F.CORE_Cn_STATUS.DEBUG_HALTED n) = true)) : watchdogExpireDev n d = d :=
  if_pos (h.imp ne_true_of_eq_false (Or.imp_left ne_true_of_eq_false))

end

end Sys2Proof.Machine

/-! # Cache operations, the timer and interrupt claims

What CMO leaves of a core's data cache and of memory (R344), when the machine timer is pending (R348) and which source a context claims (R349). -/

namespace Sys2Proof.Machine

theorem exec_cmoGo (n : Fin 4) (value : Word) (s : State) :
    exec (.cmoGo n value) s = s.done (regAccess (R.CORE_Cn_CMO n) true (cmoGoDev n value) s.dev) := rfl
theorem exec_cmoDone (n : Fin 4) (s : State) : exec (.cmoDone n) s = s.done (cmoDoneDev n s.dev) := rfl
theorem exec_mtimeRead (s : State) : exec .mtimeRead s = s.done (regAccess R.CORE_MTIME_LO false mtimeReadDev s.dev) := rfl
theorem exec_mtimerInterrupt (n : Fin 4) (s : State) : exec (.mtimerInterrupt n) s = s.done (mtimerDev n s.dev) := rfl
theorem exec_plicClaim (k : Fin 4) (s : State) : exec (.plicClaim k) s =
    s.done (regAccess (plicBase + 0x200004 + 0x1000 * k) false (plicClaimDev k) s.dev) := rfl

/-! ## Bytes that leave a cache -/

/-- Memory takes the bytes as from a store; only the reservations differ. -/
theorem Device.putBytes_mem : ∀ (bs : List Byte) {d e : Device} (a : Nat), d.mem = e.mem → (d.putBytes a bs).mem = (e.setBytes a bs).mem
  | [], _, _, _, h => h
  | b :: t, _, _, a, h => Device.putBytes_mem t (a + 1) (congrArg (Sparse.put memDefault a b) h)

theorem Device.putBytes_eq : ∀ (bs : List Byte) (d : Device) (a : Nat), d.putBytes a bs = { d with mem := (d.putBytes a bs).mem }
  | [], _, _ => rfl
  | b :: t, d, a => Device.putBytes_eq t (d.putByte a b) (a + 1)

theorem Device.putBytes_byte (d : Device) (a : Nat) (bs : List Byte) (x : Nat) : (d.putBytes a bs).byte x = (d.setBytes a bs).byte x :=
  congrArg (Sparse.get memDefault x) (Device.putBytes_mem bs a rfl)

theorem Device.putBytes_byte_of_outside (d : Device) (a : Nat) (bs : List Byte) {x : Nat} (h : x < a ∨ a + bs.length ≤ x) :
    (d.putBytes a bs).byte x = d.byte x :=
  (Device.putBytes_byte d a bs x).trans (Device.setBytes_byte_of_outside bs d a h)

theorem Device.putBytes_bytes (d : Device) (a : Nat) (bs : List Byte) : (d.putBytes a bs).bytes a bs.length = bs :=
  (Device.bytes_congr (Device.putBytes_byte d a bs) _ a).trans (Device.setBytes_bytes bs d a)

theorem Device.putBytes_frame (d : Device) (a : Nat) (bs : List Byte) : SameButMem [] [] [(a, bs.length)] d (d.putBytes a bs) where
  regs r _ := by rw [Device.putBytes_eq]; rfl
  parts p _ := by
    rw [Device.putBytes_eq]
    cases p <;> rfl
  bytes x hx := Device.putBytes_byte_of_outside d a bs (hx _ (List.mem_singleton.2 rfl))
  tabs x := by rw [Device.putBytes_eq]; rfl
  flash := by rw [Device.putBytes_eq]

/-- Bytes elsewhere are read as before. -/
theorem Device.bytes_of_outside {d e : Device} {a : Nat} : ∀ (n : Nat) {b : Nat}, (∀ x, b ≤ x → x < b + n → e.byte x = d.byte x) →
    e.bytes b n = d.bytes b n
  | 0, _, _ => rfl
  | n + 1, b, h => by
    rw [Device.bytes, Device.bytes, h b (Nat.le_refl b) (by omega),
      Device.bytes_of_outside (a := a) n (b := b + 1) fun x hlo hhi => h x (by omega) (by omega)]

/-! ## Clean -/

/-- A line of the cache after line `k` has been cleaned. -/
def cleanLine (k : Nat) (l : CacheLine) : CacheLine := if l.line = k then { l with dirty := false } else l

theorem cleanLine_line (k : Nat) (l : CacheLine) : (cleanLine k l).line = l.line := by
  unfold cleanLine
  split <;> rfl

theorem cleanLine_bytes (k : Nat) (l : CacheLine) : (cleanLine k l).bytes = l.bytes := by
  unfold cleanLine
  split <;> rfl

theorem lineIn_map_cleanLine (c : List CacheLine) (k j : Nat) : lineIn (c.map (cleanLine k)) j = (lineIn c j).map (cleanLine k) := by
  unfold lineIn
  rw [List.find?_map]
  simp only [Function.comp_def, cleanLine_line]

theorem line_ne_of_lineIn_none {c : List CacheLine} {k : Nat} (h : lineIn c k = none) : ∀ l ∈ c, l.line ≠ k := fun l hl => by
  simpa using List.find?_eq_none.1 h l hl

theorem line_of_lineIn {c : List CacheLine} {k : Nat} {l : CacheLine} (h : lineIn c k = some l) : l.line = k := by
  simpa using List.find?_some h

theorem mem_of_lineIn {c : List CacheLine} {k : Nat} {l : CacheLine} (h : lineIn c k = some l) : l ∈ c := List.mem_of_find?_eq_some h

/-- Every line of core `n`'s data cache holds 64 bytes. -/
def WholeLines (n : Nat) (d : Device) : Prop := ∀ l ∈ (d.core n).dcache, l.bytes.length = 64

section
variable {d : Device} {n k : Nat}

theorem cacheOp_of_none (op : Nat) (h : lineIn (d.core n).dcache k = none) : cacheOp op n d k = d := by
  unfold cacheOp
  dsimp only
  rw [h]

theorem cacheOp_clean_of_some {l : CacheLine} (h : lineIn (d.core n).dcache k = some l) : cacheOp 1 n d k =
    (if l.dirty then writeBack d l else d).setCore n { d.core n with dcache := (d.core n).dcache.map (cleanLine k) } := by
  unfold cacheOp
  dsimp only
  rw [h]
  simp only [true_or, and_true, OfNat.one_ne_ofNat, if_true]
  rfl

theorem cacheOp_clean_core (hn : n < 4) : (cacheOp 1 n d k).core n = { d.core n with dcache := (d.core n).dcache.map (cleanLine k) } := by
  cases h : lineIn (d.core n).dcache k with
  | none =>
    have hsame : (d.core n).dcache.map (cleanLine k) = (d.core n).dcache :=
      (List.map_congr_left fun l hl => if_neg (line_ne_of_lineIn_none h l hl)).trans (List.map_id' _)
    rw [cacheOp_of_none 1 h, hsame]
  | some l => rw [cacheOp_clean_of_some h, Device.core_setCore_self _ hn]

theorem cacheOp_clean_frame (hwhole : WholeLines n d) : SameButMem [] [.cores] [(64 * k, 64)] d (cacheOp 1 n d k) := by
  cases h : lineIn (d.core n).dcache k with
  | none =>
    rw [cacheOp_of_none 1 h]
    exact (SameBut.refl _ _ d).toMem
  | some l =>
    rw [cacheOp_clean_of_some h]
    split
    · have hwrite := Device.putBytes_frame d (64 * l.line) l.bytes
      rw [line_of_lineIn h, hwhole l (mem_of_lineIn h)] at hwrite
      unfold writeBack
      rw [line_of_lineIn h]
      exact (hwrite.mono (by simp) (by simp)).trans_sameBut ((SameBut.refl _ _ _).setCore _ _ (by simp))
    · exact ((SameBut.refl _ _ d).setCore _ _ (by simp)).toMem

theorem WholeLines.clean (hwhole : WholeLines n d) (hn : n < 4) (k : Nat) : WholeLines n (cacheOp 1 n d k) := by
  intro l hl
  rw [cacheOp_clean_core hn] at hl
  obtain ⟨l0, hl0, rfl⟩ := List.mem_map.1 hl
  rw [cleanLine_bytes]
  exact hwhole l0 hl0

/-- The cleaning of another line leaves the bytes of line `j`. -/
theorem cacheOp_clean_bytes_ne (hwhole : WholeLines n d) {j : Nat} (h : j ≠ k) : (cacheOp 1 n d k).bytes (64 * j) 64 = d.bytes (64 * j) 64 :=
  Device.bytes_of_outside (a := 0) 64 fun x hlo hhi => (cacheOp_clean_frame hwhole).bytes x fun r hr => by
    obtain rfl := List.mem_singleton.1 hr
    dsimp only
    omega

/-- The cleaning of a clean line does, too. -/
theorem cacheOp_clean_bytes_of_clean {l : CacheLine} (hline : lineIn (d.core n).dcache k = some l) (hclean : l.dirty = false) :
    (cacheOp 1 n d k).bytes (64 * k) 64 = d.bytes (64 * k) 64 := by
  rw [cacheOp_clean_of_some hline, hclean, if_neg Bool.false_ne_true]
  exact Device.bytes_congr (fun _ => rfl) 64 (64 * k)

theorem cacheOp_clean_bytes_of_dirty (hwhole : WholeLines n d) {l : CacheLine} (hline : lineIn (d.core n).dcache k = some l)
    (hdirty : l.dirty = true) : (cacheOp 1 n d k).bytes (64 * k) 64 = l.bytes := by
  have hput := Device.putBytes_bytes d (64 * k) l.bytes
  rw [hwhole l (mem_of_lineIn hline)] at hput
  rw [cacheOp_clean_of_some hline, hdirty, if_pos rfl, writeBack, line_of_lineIn hline]
  exact (Device.bytes_congr (fun _ => rfl) 64 (64 * k)).trans hput

theorem cacheOp_clean_lineIn (hn : n < 4) (j : Nat) :
    lineIn ((cacheOp 1 n d k).core n).dcache j = (lineIn (d.core n).dcache j).map (cleanLine k) := by
  rw [cacheOp_clean_core hn]
  exact lineIn_map_cleanLine _ _ _

end

/-! ## A run of cleans -/

section
variable {n : Nat} (hn : n < 4)
include hn

/-- The lines `ks` are clean. -/
theorem foldl_clean_core : ∀ (ks : List Nat) (d : Device), (ks.foldl (cacheOp 1 n) d).core n =
    { d.core n with dcache := (d.core n).dcache.map fun l => if l.line ∈ ks then { l with dirty := false } else l }
  | [], d => by simp
  | k :: t, d => by
    rw [List.foldl_cons, foldl_clean_core t, cacheOp_clean_core hn, List.map_map]
    refine congrArg (fun c => { d.core n with dcache := c }) (List.map_congr_left fun l _ => ?_)
    rw [Function.comp_apply, cleanLine_line]
    by_cases hk : l.line = k
    · simp [cleanLine, hk]
    · simp [cleanLine, hk]

theorem foldl_clean_frame {a m : Nat} (halign : a % 64 = 0) : ∀ (ks : List Nat) (d : Device), WholeLines n d →
    (∀ k ∈ ks, a / 64 ≤ k ∧ k < a / 64 + m) → SameButMem [] [.cores] [(a, 64 * m)] d (ks.foldl (cacheOp 1 n) d)
  | [], d, _, _ => (SameBut.refl _ _ d).toMem
  | k :: t, d, hwhole, hin => by
    obtain ⟨hlo, hhi⟩ := hin k List.mem_cons_self
    exact ((cacheOp_clean_frame hwhole).within (by omega) (by omega)).trans
      (foldl_clean_frame halign t _ (hwhole.clean hn k) fun j hj => hin j (List.mem_cons_of_mem k hj))

/-- A clean line's bytes in memory stay. -/
theorem foldl_clean_bytes_of_clean {j : Nat} : ∀ (ks : List Nat) (d : Device) (l : CacheLine), WholeLines n d →
    lineIn (d.core n).dcache j = some l → l.dirty = false → (ks.foldl (cacheOp 1 n) d).bytes (64 * j) 64 = d.bytes (64 * j) 64
  | [], _, _, _, _, _ => rfl
  | k :: t, d, l, hwhole, hline, hclean => by
    have hnext : lineIn ((cacheOp 1 n d k).core n).dcache j = some (cleanLine k l) := by rw [cacheOp_clean_lineIn hn, hline, Option.map_some]
    have hstill : (cleanLine k l).dirty = false := by
      unfold cleanLine
      split
      · rfl
      · exact hclean
    refine (foldl_clean_bytes_of_clean t _ _ (hwhole.clean hn k) hnext hstill).trans ?_
    by_cases hk : j = k
    · subst hk
      exact cacheOp_clean_bytes_of_clean hline hclean
    · exact cacheOp_clean_bytes_ne hwhole hk

/-- A dirty line among `ks` reaches memory. -/
theorem foldl_clean_bytes_of_dirty {j : Nat} {l : CacheLine} (hdirty : l.dirty = true) : ∀ (ks : List Nat) (d : Device), WholeLines n d →
    lineIn (d.core n).dcache j = some l → j ∈ ks → (ks.foldl (cacheOp 1 n) d).bytes (64 * j) 64 = l.bytes
  | [], _, _, _, h => absurd h List.not_mem_nil
  | k :: t, d, hwhole, hline, h => by
    have hnext : lineIn ((cacheOp 1 n d k).core n).dcache j = some (cleanLine k l) := by rw [cacheOp_clean_lineIn hn, hline, Option.map_some]
    by_cases hk : j = k
    · subst hk
      have hclean : (cleanLine j l).dirty = false := by rw [cleanLine, if_pos (line_of_lineIn hline)]
      exact (foldl_clean_bytes_of_clean hn t _ _ (hwhole.clean hn j) hnext hclean).trans (cacheOp_clean_bytes_of_dirty hwhole hline hdirty)
    · have hsame : cleanLine k l = l := if_neg (by rw [line_of_lineIn hline]; exact hk)
      rw [hsame] at hnext
      exact foldl_clean_bytes_of_dirty hdirty t _ (hwhole.clean hn k) hnext ((List.mem_cons.1 h).resolve_left hk)

end

/-! ## Invalidate -/

section
variable {d : Device} {n : Nat} (hn : n < 4)
include hn

theorem cacheOp_invalidate_core (k : Nat) :
    (cacheOp 2 n d k).core n = { d.core n with dcache := (d.core n).dcache.filter fun l => l.line != k } := by
  cases h : lineIn (d.core n).dcache k with
  | none =>
    have hsame : (d.core n).dcache.filter (fun l => l.line != k) = (d.core n).dcache :=
      List.filter_eq_self.2 fun l hl => bne_iff_ne.2 (line_ne_of_lineIn_none h l hl)
    rw [cacheOp_of_none 2 h, hsame]
  | some l =>
    unfold cacheOp
    dsimp only
    rw [h]
    exact Device.core_setCore_self _ hn _

omit hn in
theorem cacheOp_invalidate_frame (k : Nat) : SameBut [] [.cores] d (cacheOp 2 n d k) := by
  cases h : lineIn (d.core n).dcache k with
  | none =>
    rw [cacheOp_of_none 2 h]
    exact .refl _ _ d
  | some l =>
    unfold cacheOp
    dsimp only
    rw [h]
    simp only [OfNat.ofNat_ne_one, Nat.reduceEqDiff, or_self, and_false, if_false]
    exact (SameBut.refl _ _ d).setCore _ _ (by simp)

end

theorem foldl_invalidate_core {n : Nat} (hn : n < 4) : ∀ (ks : List Nat) (d : Device), (ks.foldl (cacheOp 2 n) d).core n =
    { d.core n with dcache := (d.core n).dcache.filter fun l => !decide (l.line ∈ ks) }
  | [], d => by simp
  | k :: t, d => by
    rw [List.foldl_cons, foldl_invalidate_core hn t, cacheOp_invalidate_core hn, List.filter_filter]
    refine congrArg (fun c => { d.core n with dcache := c }) (List.filter_congr fun l _ => ?_)
    by_cases hk : l.line = k <;> simp [hk]

/-! ## The operation -/

/-- The lines of core `n`'s data cache in the range of `m` lines from `a` on. -/
def linesIn (d : Device) (n a m : Nat) : List Nat :=
  ((d.core n).dcache.map CacheLine.line).filter (fun k => decide (a / 64 ≤ k ∧ k < a / 64 + m))

theorem mem_linesIn {d : Device} {n a m : Nat} {l : CacheLine} (hl : l ∈ (d.core n).dcache) :
    l.line ∈ linesIn d n a m ↔ a / 64 ≤ l.line ∧ l.line < a / 64 + m := by
  unfold linesIn
  rw [List.mem_filter, decide_eq_true_iff]
  exact and_iff_right (List.mem_map_of_mem hl)

theorem linesIn_range {d : Device} {n a m k : Nat} (h : k ∈ linesIn d n a m) : a / 64 ≤ k ∧ k < a / 64 + m :=
  of_decide_eq_true (List.mem_filter.1 h).2

/-- The operation in progress is over. -/
def cmoOver (n : Nat) (d : Device) : Device := (d.setCore n { d.core n with cmo := none }).set (F.CORE_Cn_CMO.BUSY n) 0

theorem cmoDoneDev_of_some {d : Device} {n op a m : Nat} (h : (d.core n).cmo = some (op, a, m)) :
    cmoDoneDev n d = cmoOver n ((linesIn d n a m).foldl (cacheOp op n) d) := by
  unfold cmoDoneDev
  dsimp only
  rw [h]
  rfl

theorem cmoOver_busy (n : Nat) (d : Device) : (cmoOver n d).get (F.CORE_Cn_CMO.BUSY n) = 0 := by
  rw [cmoOver, Device.get_set_self _ _ _ (by simp)]
  simp

theorem cmoOver_core {n : Nat} (hn : n < 4) (d : Device) : (cmoOver n d).core n = { d.core n with cmo := none } := Device.core_setCore_self d hn _

theorem cmoOver_frame (n : Nat) (d : Device) : SameBut [R.CORE_Cn_CMO n] [.cores] d (cmoOver n d) :=
  ((SameBut.refl _ _ d).setCore _ _ (by simp)).set _ (by simp)

/-- An operation starts. -/
theorem cmoGoDev_of_go {d : Device} {n : Nat} {w : Word} (hgo : (F.CORE_Cn_CMO.GO n).of w = 1) (hidle : d.bit (F.CORE_Cn_CMO.BUSY n) = false) :
    cmoGoDev n w d =
      (((d.set (F.CORE_Cn_CMO.OP n) ((F.CORE_Cn_CMO.OP n).of w)).set (F.CORE_Cn_CMO.LINES n) ((F.CORE_Cn_CMO.LINES n).of w)).set
        (F.CORE_Cn_CMO.BUSY n) 1).setCore n { d.core n with cmo := some ((F.CORE_Cn_CMO.OP n).of w,
          d.pair (R.CORE_Cn_CMO_ADDR_LO n) (R.CORE_Cn_CMO_ADDR_HI n) / 64 * 64, (F.CORE_Cn_CMO.LINES n).of w) } :=
  if_neg fun h => by simp [hgo, hidle] at h

/-! ## The machine timer -/

/-- The clock has reached core `n`'s compare value. -/
def timerReached (d : Device) (n : Nat) : Device := if d.tb.edges < 4 * mtimecmp d n then d.elapse (4 * mtimecmp d n - d.tb.edges) else d

section
variable (d : Device) (n : Nat)

theorem mtimerDev_eq : mtimerDev n d = coreInterrupt n (showTimer (timerReached d n) n) := rfl

theorem timerReached_frame : SameBut [] [.tb] d (timerReached d n) := by
  unfold timerReached
  split
  · exact (SameBut.refl _ _ d).elapse _ (by simp)
  · exact .refl _ _ d

theorem timerReached_edges : (timerReached d n).tb.edges = max d.tb.edges (4 * mtimecmp d n) := by
  unfold timerReached
  split
  case isTrue h => exact (show d.tb.edges + _ = _ by omega)
  case isFalse h => exact (Nat.max_eq_left (Nat.not_lt.1 h)).symm

/-- Within the range of the 64-bit counter the compare value is reached. -/
theorem timerReached_mtime (h : d.tb.edges < 2 ^ 66) : mtimecmp (timerReached d n) n ≤ (timerReached d n).mtime := by
  have hcmp : mtimecmp (timerReached d n) n = mtimecmp d n := (timerReached_frame d n).pair (by simp) (by simp)
  have hlt : mtimecmp d n < 2 ^ 64 := d.pair_lt _ _
  rw [hcmp, Device.mtime, timerReached_edges]
  omega

/-- An interrupt of a core changes its hart. -/
theorem coreInterrupt_frame : SameBut [] [.fresh, .cores] d (coreInterrupt n d) :=
  (SameBut.refl _ _ d).parts_only rfl rfl rfl rfl (fun p hp => by
    cases p with
    | fresh => exact absurd (by simp) hp
    | cores => exact absurd (by simp) hp
    | _ => rfl)

theorem coreInterrupt_core {n : Nat} (hn : n < 4) : ∃ h, (coreInterrupt n d).core n = { d.core n with hart := h } ∧
    (coreActive d n = false → h = (d.core n).hart) :=
  ⟨_, Device.core_setCore_self d hn _, fun hidle => if_pos (by rw [hidle]; exact Bool.false_ne_true)⟩

end

/-! ## Claims -/

section
variable (d : Device) (ctx : Nat)

/-- Source `i` may be claimed by the context. -/
def claimable (i : Nat) : Prop := plicPending d i = true ∧ plicEnabled d ctx i = true ∧ 0 < plicPriority d i

/-- Where none of the sources is 0, the claimed one is the best claimable one, and 0 tells that there is none. -/
theorem plicBest_spec : ∀ (l : List Nat), 0 ∉ l → (plicBest d ctx l = 0 → ∀ i ∈ l, ¬ claimable d ctx i) ∧
    (plicBest d ctx l ≠ 0 → claimable d ctx (plicBest d ctx l) ∧ ∀ i ∈ l, claimable d ctx i → plicPriority d i ≤ plicPriority d (plicBest d ctx l))
  | [], _ => ⟨fun _ _ h => absurd h List.not_mem_nil, fun h => absurd rfl h⟩
  | i :: t, hzero => by
    obtain ⟨hnone, hbest⟩ := plicBest_spec t (List.not_mem_of_not_mem_cons hzero)
    have hi : i ≠ 0 := (List.ne_of_not_mem_cons hzero).symm
    rw [plicBest]
    split
    case isTrue hsel =>
      obtain ⟨hpend, hen, hprio, hmax⟩ := hsel
      refine ⟨fun h => absurd h hi, fun _ => ⟨⟨hpend, hen, hprio⟩, fun j hj hcl => ?_⟩⟩
      obtain rfl | hj := List.mem_cons.1 hj
      · exact Nat.le_refl _
      · by_cases hb : plicBest d ctx t = 0
        · exact absurd hcl (hnone hb j hj)
        · exact ((hbest hb).2 j hj hcl).trans (hmax.resolve_left hb)
    case isFalse hsel =>
      refine ⟨fun hb j hj hcl => ?_, fun hb => ⟨(hbest hb).1, fun j hj hcl => ?_⟩⟩
      · obtain rfl | hj := List.mem_cons.1 hj
        · exact hsel ⟨hcl.1, hcl.2.1, hcl.2.2, .inl hb⟩
        · exact hnone hb j hj hcl
      · obtain rfl | hj := List.mem_cons.1 hj
        · exact Nat.le_of_not_le fun hle => hsel ⟨hcl.1, hcl.2.1, hcl.2.2, .inr hle⟩
        · exact (hbest hb).2 j hj hcl

/-- A source that a context claims is pending and enabled, and no pending enabled source has a higher priority. -/
theorem plicBest_range (h : plicBest d ctx (List.range 512) ≠ 0) : plicPending d (plicBest d ctx (List.range 512)) = true ∧
    plicEnabled d ctx (plicBest d ctx (List.range 512)) = true ∧
    ∀ i < 512, plicPending d i = true → plicEnabled d ctx i = true → plicPriority d i ≤ plicPriority d (plicBest d ctx (List.range 512)) := by
  have hrange : List.range 512 = 0 :: (List.range 511).map Nat.succ := List.range_succ_eq_map
  obtain ⟨-, hbest⟩ := plicBest_spec d ctx ((List.range 511).map Nat.succ) (by simp)
  rw [hrange, plicBest] at h ⊢
  split at h
  case isTrue => exact absurd rfl h
  case isFalse hsel =>
    rw [if_neg hsel]
    obtain ⟨⟨hpend, hen, -⟩, hmax⟩ := hbest h
    refine ⟨hpend, hen, fun i hi hpi hei => ?_⟩
    by_cases hprio : plicPriority d i = 0
    · rw [hprio]
      exact Nat.zero_le _
    · have hcl : claimable d ctx i := ⟨hpi, hei, Nat.pos_of_ne_zero hprio⟩
      cases i with
      | zero => exact Nat.le_of_not_le fun hle => hsel ⟨hcl.1, hcl.2.1, hcl.2.2, .inr hle⟩
      | succ i => exact hmax _ (List.mem_map_of_mem (List.mem_range.2 (by omega))) hcl

variable {d ctx}

theorem plicClaimDev_of_best (h : plicBest d ctx (List.range 512) ≠ 0) : plicClaimDev ctx d =
    ({ d with cores := { d.cores with
      claimed := (plicBest d ctx (List.range 512), ctx) :: d.cores.claimed,
      latched := d.cores.latched.filter (fun j => j ≠ plicBest d ctx (List.range 512)) } } : Device).reply (plicBest d ctx (List.range 512)) := by
  unfold plicClaimDev
  dsimp only
  rw [if_neg h]

theorem plicClaimDev_of_none (h : plicBest d ctx (List.range 512) = 0) : plicClaimDev ctx d = d.reply 0 := by
  unfold plicClaimDev
  dsimp only
  rw [if_pos h, h]

/-- A source that is claimed is not pending. -/
theorem plicPending_of_claimed {d : Device} {i k : Nat} (h : (i, k) ∈ d.cores.claimed) : plicPending d i = false := by
  unfold plicPending
  rw [List.any_eq_true.2 ⟨_, h, beq_self_eq_true i⟩, Bool.not_true, Bool.and_false]

end

end Sys2Proof.Machine

/-! # A core's own accesses, and what the cores do

What a core's store that PMP denies and its accesses to MSCRATCH do (R341); then the statement of the cores, the timer and the claims. -/

namespace Sys2Proof.Machine

/-! ## Traps and registers of a hart -/

theorem Hart.csr_setCsr_self (h : Hart) (k : Nat) (v : DWord) : (h.setCsr k v).csr k = v := Sparse.get_put_self _ _ _ _

theorem Hart.csr_setCsr_ne (h : Hart) {k j : Nat} (v : DWord) (hne : j ≠ k) : (h.setCsr k v).csr j = h.csr j := Sparse.get_put_ne _ _ _ _ _ hne

theorem trapHart_mcause (h : Hart) (cause : Nat) (tval : DWord) : (trapHart h false cause tval).csr csrMcause = BitVec.ofNat 64 cause := by
  have hset : (trapHart h false cause tval).csr csrMcause =
      ((((h.setCsr csrMepc h.pc).setCsr csrMcause (BitVec.ofNat 64 (0 + cause))).setCsr csrMtval tval).setCsr csrMstatus
        ((h.csr csrMstatus &&& 0xFFFFFFFFFFFFE777#64) ||| (if (h.csr csrMstatus).getLsbD 3 then 0x80#64 else 0#64) |||
          (if h.machine then 0x1800#64 else 0#64))).csr csrMcause := rfl
  rw [hset, Hart.csr_setCsr_ne _ _ (by decide), Hart.csr_setCsr_ne _ _ (by decide), Hart.csr_setCsr_self, Nat.zero_add]

section
variable {d : Device} {n : Fin 4}

/-- A trap of a core that runs. -/
theorem coreTrap_core_of_active (hactive : coreActive d n = true) (cause a : Nat) :
    (coreTrap d n cause a).core n = { d.core n with hart := trapHart (ranHart d (d.core n).hart) false cause (BitVec.ofNat 64 a) } := by
  have hhart : (if coreActive d n then trapHart (ranHart d (d.core n).hart) false cause (BitVec.ofNat 64 a) else (d.core n).hart) = _ :=
    if_pos hactive
  rw [← hhart]
  exact Device.core_setCore_self d n.isLt _

/-- An access without data that ends with a bus error of its own core. -/
def refusedByCore (d : Device) : Device := { d with cores := { d.cores with reply := 0, busError := true } }

theorem refusedByCore_core (d : Device) (k : Nat) : (refusedByCore d).core k = d.core k := rfl

/-- A store that no trigger stops and PMP denies is an access fault of the core. -/
theorem coreStops_of_pmp {a : Nat} {u : Bool} (hactive : coreActive d n = true) (halign : misaligned n a 4 = false)
    (hdenied : (d.core n).hart.pmpAllows { user := u, write := true } a = false)
    (hquiet : trigFires { user := u, write := true } a 4 (d.core n).triggers.toList 0 (some []) = none) :
    coreStops { master := .core n, addr := a, user := u } true d = some (refusedByCore (coreTrap d n excStore a)) := by
  have huse : hartUse { master := .core n, addr := a, user := u } true = { user := u, write := true } := rfl
  unfold coreStops
  dsimp only
  rw [huse, hquiet, if_neg (not_not_intro hactive)]
  dsimp only [Option.filter_none]
  rw [if_neg (by rw [halign, hdenied]; simp)]
  rfl

end

/-! ## MSCRATCH -/

section
variable (d : Device) (n : Fin 4)

theorem csrDesc_mscratch : (csrDesc 0x340).isSome = true := by decide

theorem regRead_mscratch : regRead d n 0x340 = some ((d.core n).hart.csr 0x340) := by
  unfold regRead
  simp only [csrDesc_mscratch, Nat.reduceEqDiff, Nat.reduceLeDiff, Nat.reduceLT, false_and, if_false, if_true, or_self]

theorem csrTakes_mscratch (h : Hart) (v : DWord) : h.csrTakes 0x340 v = v := by
  have hdesc : csrDesc 0x340 = some ⟨0x340, "mscratch", 0#64, BitVec.allOnes 64⟩ := by decide
  unfold Hart.csrTakes
  simp only [hdesc, csrMstatus, Nat.reduceEqDiff, Nat.reduceLeDiff, false_and, if_false, or_self]
  rw [BitVec.not_allOnes, BitVec.and_zero, BitVec.zero_or, BitVec.and_allOnes]

theorem regWrite_mscratch (v : DWord) :
    regWrite n 0x340 v d = d.setCore n { d.core n with hart := (d.core n).hart.setCsr 0x340 v } := by
  unfold regWrite
  simp only [csrDesc_mscratch, csrTakes_mscratch, Nat.reduceEqDiff, if_false, if_true]

/-- MSCRATCH is the core's to write and read in machine mode. -/
theorem csrAccess_mscratch_write (v : Nat) :
    csrAccess n 0x340 false (some v) d = (d.setCore n { d.core n with hart := (d.core n).hart.setCsr 0x340 (BitVec.ofNat 64 v) }).reply 0 := by
  have hrw : bitsOf 0x340 11 10 ≠ 3 := by decide
  unfold csrAccess
  simp only [regRead_mscratch, regWrite_mscratch, hrw, Nat.reduceLT, if_true, Nat.reduceLeDiff, false_and, and_false, or_self, Bool.false_eq_true,
    if_false]

theorem csrAccess_mscratch_read : csrAccess n 0x340 false none d = d.reply ((d.core n).hart.csr 0x340).toNat := by
  unfold csrAccess
  simp only [regRead_mscratch, Nat.reduceLT, if_true, Nat.reduceLeDiff, false_and, Option.isSome_none, or_self, Bool.false_eq_true, if_false]

end

theorem exec_registerWrite_mscratch (n : Fin 4) (value : DWord) (s : State) :
    exec (.registerWrite { master := .core n, addr := 0x340, kind := .csr } value 0) s = s.done (csrAccess n 0x340 false (some value.toNat) s.dev) :=
  rfl

theorem exec_rcCounterRead_mscratch (n : Fin 4) (s : State) :
    exec (.rcCounterRead { master := .core n, addr := 0x340, kind := .csr } 0) s = s.done (csrAccess n 0x340 false none s.dev) := rfl

theorem exec_registerWrite_of_coreStops {a : Access} {value : DWord} {hwSet : Word} {s : State} {e : Device} (h : coreStops a true s.dev = some e) :
    exec (.registerWrite a value hwSet) s = s.done e := by
  rw [exec_registerWrite, accessWrite, h]

/-! ## The cores -/

theorem Device.setCore_get (d : Device) (n : Nat) (x : CoreX) (f : Fld) : (d.setCore n x).get f = d.get f := rfl
theorem Device.setCore_bit (d : Device) (n : Nat) (x : CoreX) (f : Fld) : (d.setCore n x).bit f = d.bit f := rfl

section
variable {d : Device} (n : Fin 4)

theorem coreResetDev_of_running (h : coreRuns d n = true) : coreResetDev n d = resetCore d n := if_pos h
theorem coreResetDev_of_held (h : coreRuns d n = false) : coreResetDev n d = d := if_neg (ne_true_of_eq_false h)
theorem coreReleaseDev_of_running (h : coreRuns d n = true) : coreReleaseDev n d = d := if_pos h

/-- A held core starts. -/
theorem coreReleaseDev_of_held (h : coreRuns d n = false) : coreReleaseDev n d =
    ((d.set (F.CORE_Cn_STATUS.RUNNING n) 1).setBit (F.CORE_Cn_STATUS.DEBUG_HALTED n) (d.core n).haltOnReset).setCore n
      { d.core n with kickAt := d.tb.edges, hart := startHart d n, haltAt := if (d.core n).haltOnReset then some d.tb.edges else none } :=
  if_neg (ne_true_of_eq_false h)

theorem watchdogKickDev_core (w : Word) : (watchdogKickDev n w d).core n =
    { d.core n with kickAt := if w.toNat % 256 = 0xA5 then d.tb.edges else (d.core n).kickAt } := by
  have hbyte : (F.CORE_Cn_KICK.V n).of w % 2 ^ 8 = w.toNat % 2 ^ 8 := Nat.eq_of_testBit_eq fun i => by
    rw [Nat.testBit_mod_two_pow, Nat.testBit_mod_two_pow, Fld.of_testBit, Nat.zero_add, BitVec.testBit_toNat]
    simp
  unfold watchdogKickDev
  rw [show (F.CORE_Cn_KICK.V n).of w % 256 = w.toNat % 256 from hbyte]
  split
  · exact Device.core_setCore_self d n.isLt _
  · rfl

theorem watchdogKickDev_frame (w : Word) : SameBut [] [.cores] d (watchdogKickDev n w d) :=
  iteInduction (fun _ => (SameBut.refl _ _ d).setCore _ _ (by simp)) fun _ => .refl _ _ d

/-- The registers of a core's reset as the statement lists them. -/
theorem coreResetRegs_subset : coreResetRegs n ⊆
    [R.CORE_Cn_CMO n, R.CORE_Cn_STATUS n, R.LCK_FLAGS] ++ (List.range 64).map R.LCKk ++ (List.range 32).map R.MBXk_STATUS := fun a ha => by
  simp only [coreResetRegs, masterRegs, List.mem_append, List.mem_cons, List.not_mem_nil, or_false] at ha ⊢
  tauto

end

section
variable {d : Device} (n : Fin 4)

/-- What the reset of a running core leaves. -/
theorem resetCore_spec (d : Device) (hhalt : (d.core n).haltOnReset = false) (hrun : coreRuns d n = true) :
    ((resetCore d n).core n).hart = bootHart d n ∧ ((resetCore d n).core n).dcache = [] ∧ ((resetCore d n).core n).icache = [] ∧
    ((resetCore d n).core n).cmo = none ∧ (resetCore d n).resv = d.resv.filter (fun r => r.1 ≠ n.val) ∧
    ((resetCore d n).core n).kickAt = d.tb.edges ∧ coreRuns (resetCore d n) n = true ∧ (resetCore d n).get F.LCK_FLAGS.RESET_REL = 1 ∧
    (∀ k : Fin 64, (d.rd (R.LCKk k)).toNat = n + 1 → (resetCore d n).rd (R.LCKk k) = 0) ∧
    (∀ k : Fin 64, (d.rd (R.LCKk k)).toNat ≠ n + 1 → (resetCore d n).rd (R.LCKk k) = d.rd (R.LCKk k)) ∧
    (∀ k : Fin 32, (resetCore d n).rd (R.MBXk_DATA k) = d.rd (R.MBXk_DATA k)) ∧
    SameBut ([R.CORE_Cn_CMO n, R.CORE_Cn_STATUS n, R.LCK_FLAGS] ++ (List.range 64).map R.LCKk ++ (List.range 32).map R.MBXk_STATUS)
      [.resv, .cores, .evt] d (resetCore d n) := by
  have hcleared := coreCleared_frame d n
  have hkept {a : Nat} (ha : 0x10050000 ≤ a) : a ∉ [R.CORE_Cn_CMO n, R.CORE_Cn_STATUS n] := by
    simp only [List.mem_cons, List.not_mem_nil, or_false, not_or, R.CORE_Cn_CMO, R.CORE_Cn_STATUS]
    omega
  have hlock (k : Fin 64) : (coreCleared d n).rd (R.LCKk k) = d.rd (R.LCKk k) := hcleared.regs _ (hkept (by unfold R.LCKk; omega))
  have hmbx (k : Fin 32) : (coreCleared d n).rd (R.MBXk_DATA k) = d.rd (R.MBXk_DATA k) := hcleared.regs _ (hkept (by unfold R.MBXk_DATA; omega))
  rw [resetCore_core d n.isLt]
  refine ⟨if_neg (ne_true_of_eq_false hhalt), rfl, rfl, rfl, resetCore_resv _ _, rfl, (resetCore_runs d n.isLt).trans hrun,
    masterReset_released _ _, fun k hk => masterReset_lock _ _ ((congrArg BitVec.toNat (hlock k)).trans hk), fun k hk => ?_, fun k => ?_,
    (resetCore_frame d n).mono_regs (coreResetRegs_subset n)⟩
  · rw [resetCore_eq, masterReset_otherLock _ _ (by rwa [hlock k]), hlock k]
  · rw [resetCore_eq, masterReset_mbxData, hmbx k]

/-- What the release of a held core leaves. -/
theorem coreReleaseDev_spec (h : coreRuns d n = false) : coreRuns (coreReleaseDev n d) n = true ∧ ((coreReleaseDev n d).core n).kickAt = d.tb.edges ∧
    ((coreReleaseDev n d).core n).hart.pc = (bootHart d n).pc ∧ ((coreReleaseDev n d).core n).hart.machine = true ∧
    ((coreReleaseDev n d).core n).dcache = (d.core n).dcache ∧
    (coreReleaseDev n d).bit (F.CORE_Cn_STATUS.DEBUG_HALTED n) = (d.core n).haltOnReset ∧
    SameBut [R.CORE_Cn_STATUS n] [.cores] d (coreReleaseDev n d) := by
  have hruns : ((d.set (F.CORE_Cn_STATUS.RUNNING n) 1).setBit (F.CORE_Cn_STATUS.DEBUG_HALTED n) (d.core n).haltOnReset).get
      (F.CORE_Cn_STATUS.RUNNING n) = 1 := by
    rw [Device.get_setBit, Device.get_set_ne _ _ _ _ (.inr (by simp)), Device.get_set_self _ _ _ (by simp)]
    simp
  have hbit : ((d.set (F.CORE_Cn_STATUS.RUNNING n) 1).setBit (F.CORE_Cn_STATUS.DEBUG_HALTED n) (d.core n).haltOnReset).bit
      (F.CORE_Cn_STATUS.RUNNING n) = true := by
    rw [Device.bit, hruns]
    rfl
  rw [coreReleaseDev_of_held n h, Device.core_setCore_self _ n.isLt, coreRuns, Device.setCore_bit, Device.setCore_bit]
  exact ⟨hbit, rfl, startHart_pc _ _, startHart_machine _ _, rfl, Device.bit_setBit_self _ _ rfl (by simp),
    (((SameBut.refl _ _ _).set 1 (by simp)).setBit _ (by simp)).setCore _ _ (by simp)⟩

/-- What an expired watchdog leaves. -/
theorem watchdogExpireDev_spec (hrun : coreRuns d n = true) (hen : d.bit (F.CORE_Cn_WDOG.EN n) = true)
    (hhalt : d.bit (F.CORE_Cn_STATUS.DEBUG_HALTED n) = false) :
    (watchdogExpireDev n d).get (F.CORE_Cn_STATUS.WDOG_EXPIRED n) = 1 ∧ (watchdogExpireDev n d).get F.FLT_LAST.CODE = faultWdog ∧
    (watchdogExpireDev n d).get F.FLT_LAST.INDEX = n ∧
    (watchdogExpireDev n d).tb.edges = max d.tb.edges ((d.core n).kickAt + 500 * d.get (F.CORE_Cn_WDOG.TIMEOUT n)) ∧
    ((watchdogExpireDev n d).core n).kickAt = (watchdogExpireDev n d).tb.edges ∧ ((watchdogExpireDev n d).core n).dcache = [] ∧
    ((watchdogExpireDev n d).core n).hart.pc = (bootHart d n).pc ∧ coreRuns (watchdogExpireDev n d) n = true ∧
    SameButMem ([R.CORE_Cn_CMO n, R.CORE_Cn_STATUS n, R.LCK_FLAGS] ++ (List.range 64).map R.LCKk ++ (List.range 32).map R.MBXk_STATUS ++ faultRegs)
      [.resv, .cores, .tb, .evt] [faultBytes] d (watchdogExpireDev n d) := by
  rw [watchdogExpireDev_of_running d hrun hen hhalt]
  have hwait := untilExpiry_frame d n
  have hedges := untilExpiry_edges d n
  generalize untilExpiry d n = d1 at hwait hedges
  have hreset := resetCore_frame d1 n
  have hflag := setExpired_frame (resetCore d1 n) n
  have hfault := Device.fault_frame (setExpired (resetCore d1 n) n) faultWdog n
  have hstatus := coreStatus_not_mem_faultRegs n.isLt
  have htb : ((setExpired (resetCore d1 n) n).fault faultWdog n).tb = d1.tb :=
    ((hfault.parts .tb (by simp)).trans (hflag.parts .tb (by simp))).trans (hreset.parts .tb (by simp))
  have hcore : ((setExpired (resetCore d1 n) n).fault faultWdog n).core n = coreAfterReset d1 n := by
    have hcores : ((setExpired (resetCore d1 n) n).fault faultWdog n).cores = (resetCore d1 n).cores :=
      (hfault.parts .cores (by simp)).trans (hflag.parts .cores (by simp))
    exact (congrArg (fun c : Cores => unit c.core n.val) hcores).trans (resetCore_core d1 n.isLt)
  have hlevel : faultLevel faultWdog ≠ 1 := by decide
  refine ⟨?_, ?_, ?_, ?_, ?_, ?_, ?_, ?_, ?_⟩
  · rw [hfault.get hstatus, setExpired_get, Device.get_set_self _ _ _ (by simp)]
    simp
  · rw [Device.fault_code _ _ hlevel]
    rfl
  · rw [Device.fault_index _ _ hlevel]
    omega
  · rw [htb, hedges]
  · rw [hcore, htb]
    rfl
  · rw [hcore]
    rfl
  · rw [hcore]
    refine (startHart_pc d1 n).trans ?_
    unfold bootHart
    rw [hwait.pair (by simp) (by simp)]
  · have hexpired : (setExpired (resetCore d1 n) n).get (F.CORE_Cn_STATUS.RUNNING n) = (resetCore d1 n).get (F.CORE_Cn_STATUS.RUNNING n) := by
      rw [setExpired_get, Device.get_set_ne _ _ _ _ (.inr (by simp))]
    have hsame : coreRuns ((setExpired (resetCore d1 n) n).fault faultWdog n) n = coreRuns (resetCore d1 n) n := by
      unfold coreRuns Device.bit
      rw [hfault.get hstatus, hexpired]
    rw [hsame, resetCore_runs d1 n.isLt, coreRuns, hwait.bit (by simp)]
    exact hrun
  · have hregs := List.append_subset.2 ⟨List.Subset.trans (coreResetRegs_subset n) (List.subset_append_left _ faultRegs), List.subset_append_right _ _⟩
    have hflag' : SameBut (coreResetRegs n) [.resv, .cores, .tb, .evt] _ _ := hflag.mono (by simp [coreResetRegs]) (by simp)
    have hall := (hwait.mono (List.nil_subset _) (by simp)).trans ((hreset.mono_parts (by simp)).trans hflag')
    exact ((hall.mono_regs (List.subset_append_left _ faultRegs)).trans_sameButMem
      (hfault.mono (List.subset_append_right _ _) (by simp))).mono hregs (List.Subset.refl _)

theorem cmoOver_bytes (m : Nat) (d : Device) (a k : Nat) : (cmoOver m d).bytes a k = d.bytes a k :=
  Device.bytes_congr (d := d) (e := cmoOver m d) (fun _ => rfl) k a

/-- What the start of a cache operation leaves. -/
theorem cmoGoDev_spec {w : Word} (hgo : (F.CORE_Cn_CMO.GO n).of w = 1) (hidle : d.bit (F.CORE_Cn_CMO.BUSY n) = false) :
    (cmoGoDev n w d).get (F.CORE_Cn_CMO.BUSY n) = 1 ∧
    ((cmoGoDev n w d).core n).cmo = some ((F.CORE_Cn_CMO.OP n).of w, d.pair (R.CORE_Cn_CMO_ADDR_LO n) (R.CORE_Cn_CMO_ADDR_HI n) / 64 * 64,
      (F.CORE_Cn_CMO.LINES n).of w) ∧
    ((cmoGoDev n w d).core n).dcache = (d.core n).dcache ∧ SameBut [R.CORE_Cn_CMO n] [.cores] d (cmoGoDev n w d) := by
  rw [cmoGoDev_of_go hgo hidle, Device.core_setCore_self _ n.isLt]
  generalize (F.CORE_Cn_CMO.OP n).of w = op
  generalize (F.CORE_Cn_CMO.LINES n).of w = m
  generalize d.pair (R.CORE_Cn_CMO_ADDR_LO n) (R.CORE_Cn_CMO_ADDR_HI n) / 64 * 64 = a
  refine ⟨?_, rfl, rfl, ((((SameBut.refl _ _ _).set _ (by simp)).set _ (by simp)).set _ (by simp)).setCore _ _ (by simp)⟩
  rw [Device.setCore_get, Device.get_set_self _ _ _ (by simp)]
  simp

/-- What a clean leaves. -/
theorem cmoDoneDev_clean {a k : Nat} (hcmo : (d.core n).cmo = some (1, a, k)) (halign : a % 64 = 0) (hwhole : WholeLines n d) :
    (cmoDoneDev n d).get (F.CORE_Cn_CMO.BUSY n) = 0 ∧ ((cmoDoneDev n d).core n).cmo = none ∧
    ((cmoDoneDev n d).core n).dcache =
      (d.core n).dcache.map (fun l => if a / 64 ≤ l.line ∧ l.line < a / 64 + k then { l with dirty := false } else l) ∧
    (∀ l ∈ (d.core n).dcache, lineIn (d.core n).dcache l.line = some l → l.dirty = true → a / 64 ≤ l.line ∧ l.line < a / 64 + k →
      (cmoDoneDev n d).bytes (64 * l.line) 64 = l.bytes) ∧
    SameButMem [R.CORE_Cn_CMO n] [.cores] [(a, 64 * k)] d (cmoDoneDev n d) := by
  have hin : ∀ j ∈ linesIn d n a k, a / 64 ≤ j ∧ j < a / 64 + k := fun j hj => linesIn_range hj
  rw [cmoDoneDev_of_some hcmo, cmoOver_core n.isLt, foldl_clean_core n.isLt]
  refine ⟨cmoOver_busy _ _, rfl, ?_, fun l hl hfirst hdirty hrange => ?_, ?_⟩
  · refine List.map_congr_left fun l hl => ?_
    simp only [mem_linesIn hl]
  · rw [cmoOver_bytes]
    exact foldl_clean_bytes_of_dirty n.isLt hdirty _ _ hwhole hfirst ((mem_linesIn hl).2 hrange)
  · exact ((foldl_clean_frame n.isLt halign _ _ hwhole hin).mono (by simp) (by simp)).trans_sameBut (cmoOver_frame _ _)

/-- What an invalidate leaves. -/
theorem cmoDoneDev_invalidate {a k : Nat} (hcmo : (d.core n).cmo = some (2, a, k)) :
    (cmoDoneDev n d).get (F.CORE_Cn_CMO.BUSY n) = 0 ∧ ((cmoDoneDev n d).core n).cmo = none ∧
    ((cmoDoneDev n d).core n).dcache = (d.core n).dcache.filter (fun l => !decide (a / 64 ≤ l.line ∧ l.line < a / 64 + k)) ∧
    SameBut [R.CORE_Cn_CMO n] [.cores] d (cmoDoneDev n d) := by
  have hlines : SameBut [] [.cores] d ((linesIn d n a k).foldl (cacheOp 2 n) d) := SameBut.foldl fun d j _ => cacheOp_invalidate_frame j
  rw [cmoDoneDev_of_some hcmo, cmoOver_core n.isLt, foldl_invalidate_core n.isLt]
  refine ⟨cmoOver_busy _ _, rfl, ?_, (hlines.mono_regs (by simp)).trans (cmoOver_frame _ _)⟩
  refine List.filter_congr fun l hl => ?_
  simp only [mem_linesIn hl]

/-- What the timer's interrupt leaves. -/
theorem mtimerDev_spec (hedges : d.tb.edges < 2 ^ 66) :
    ((mtimerDev n d).core n).timer = true ∧ (mtimerDev n d).tb.edges = max d.tb.edges (4 * mtimecmp d n) ∧
    (coreActive d n = false → ((mtimerDev n d).core n).hart = (d.core n).hart) ∧ SameBut [] [.fresh, .cores, .tb] d (mtimerDev n d) := by
  have hwait := timerReached_frame d n
  have hclock := timerReached_edges d n
  have htime := timerReached_mtime d n hedges
  rw [mtimerDev_eq]
  generalize timerReached d n = d1 at hwait hclock htime
  have hshown : SameBut [] [.cores] d1 (showTimer d1 n) := (SameBut.refl _ _ d1).setCore _ _ (by simp)
  have hcore : (showTimer d1 n).core n = { d1.core n with timer := true } := by
    rw [← decide_eq_true htime]
    exact Device.core_setCore_self d1 n.isLt _
  have hdev : d1.core n = d.core n := congrArg (fun c : Cores => unit c.core n.val) (hwait.parts .cores (by simp))
  have hirq := coreInterrupt_frame (showTimer d1 n) n
  obtain ⟨h, hint, hidle⟩ := coreInterrupt_core (showTimer d1 n) n.isLt
  rw [hint, hcore]
  have htb : (coreInterrupt n (showTimer d1 n)).tb = d1.tb := (hirq.parts .tb (by simp)).trans (hshown.parts .tb (by simp))
  refine ⟨rfl, (congrArg TimeBase.edges htb).trans hclock, fun hoff => ?_, ?_⟩
  · have hsame : coreActive (showTimer d1 n) n = coreActive d n := by
      unfold coreActive coreRuns
      rw [hshown.bit (by simp), hshown.bit (by simp), hwait.bit (by simp), hwait.bit (by simp)]
    refine (hidle (hsame.trans hoff)).trans ?_
    rw [hcore, hdev]
  · exact (hwait.mono_parts (by simp)).trans ((hshown.mono_parts (by simp)).trans (hirq.mono_parts (by simp)))

/-- What a claim of a source leaves. -/
theorem plicClaimDev_spec (k : Fin 4) (hbest : plicBest d k (List.range 512) ≠ 0) :
    (plicClaimDev k d).cores.reply = plicBest d k (List.range 512) ∧ plicPending d (plicClaimDev k d).cores.reply = true ∧
    plicEnabled d k (plicClaimDev k d).cores.reply = true ∧
    (plicClaimDev k d).cores.claimed = ((plicClaimDev k d).cores.reply, k.val) :: d.cores.claimed ∧
    plicPending (plicClaimDev k d) (plicClaimDev k d).cores.reply = false ∧
    (∀ i : Fin 512, plicPending d i = true → plicEnabled d k i = true → plicPriority d i ≤ plicPriority d (plicClaimDev k d).cores.reply) ∧
    SameBut [] [.cores] d (plicClaimDev k d) := by
  obtain ⟨hpend, hen, hmax⟩ := plicBest_range d k hbest
  rw [plicClaimDev_of_best hbest]
  generalize plicBest d k (List.range 512) = b at hpend hen hmax ⊢
  exact ⟨rfl, hpend, hen, rfl, plicPending_of_claimed List.mem_cons_self, fun i => hmax i i.isLt,
    ((SameBut.refl _ _ _).putCores _ (by simp)).reply _ (by simp)⟩

/-- What a write of MSCRATCH leaves. -/
theorem csrAccess_mscratch_spec (value : DWord) :
    ((csrAccess n 0x340 false (some value.toNat) d).core n).hart.csr 0x340 = value ∧
    ((csrAccess n 0x340 false (some value.toNat) d).core n).hart.pc = (d.core n).hart.pc ∧
    ((csrAccess n 0x340 false (some value.toNat) d).core n).hart.x = (d.core n).hart.x ∧
    (∀ k : Fin 4, k ≠ n → (csrAccess n 0x340 false (some value.toNat) d).core k = d.core k) ∧
    SameBut [] [.cores] d (csrAccess n 0x340 false (some value.toNat) d) := by
  have hcore : (csrAccess n 0x340 false (some value.toNat) d).core n = { d.core n with hart := (d.core n).hart.setCsr 0x340 value } := by
    rw [csrAccess_mscratch_write, BitVec.ofNat_toNat, BitVec.setWidth_eq]
    exact Device.core_setCore_self d n.isLt _
  rw [hcore, csrAccess_mscratch_write]
  exact ⟨Hart.csr_setCsr_self _ _ _, rfl, rfl, fun k hk => Device.core_setCore_ne d (fun h => hk (Fin.ext h)) _,
    ((SameBut.refl _ _ _).setCore _ _ (by simp)).reply _ (by simp)⟩

/-- What a store that PMP denies leaves. -/
theorem refusedByCore_spec (hactive : coreActive d n = true) (a : Nat) :
    ((refusedByCore (coreTrap d n excStore a)).core n).hart.csr csrMcause = 7 ∧
    ((refusedByCore (coreTrap d n excStore a)).core n).hart.machine = true ∧
    (∀ k : Fin 4, k ≠ n → (refusedByCore (coreTrap d n excStore a)).core k = d.core k) ∧
    ((refusedByCore (coreTrap d n excStore a)).core n).dcache = (d.core n).dcache ∧
    ((refusedByCore (coreTrap d n excStore a)).core n).icache = (d.core n).icache ∧
    ((refusedByCore (coreTrap d n excStore a)).core n).triggers = (d.core n).triggers ∧
    SameBut [] [.cores, .fresh] d (refusedByCore (coreTrap d n excStore a)) := by
  rw [refusedByCore_core, coreTrap_core_of_active hactive]
  exact ⟨trapHart_mcause _ _ _, rfl, fun k hk => coreTrap_core_ne d n excStore a fun h => hk (Fin.ext h), rfl, rfl, rfl,
    ((SameBut.refl _ _ _).coreTrap _ _ _ (by simp) (by simp)).putCores _ (by simp)⟩

end

/-- Settles O38: each command of a core's reset, watchdog, caches, timer and claims is the case of its definition that its hypothesis selects. -/
theorem coresAndTimer : Obligations.CoresAndTimer := by
  unfold Obligations.CoresAndTimer
  refine ⟨fun n s hrun hgate => ?_, fun n s hheld hgate => ?_, fun n s hheld hgate => ?_, fun n s hrun hgate => ?_, fun n value s hgate => ?_,
    fun n s hon => ?_, fun n s hoff => ?_, fun n value s hgo hgate => ?_, fun n a k s hclean => ?_, fun n a k s hinv => ?_, fun s hgate => ?_,
    fun n s hedges => ?_, fun k s hbest hgate => ?_, fun k s hnone hgate => ?_, fun n a u value s hpmp hquiet => ?_, fun n value s => ?_,
    fun n s => ?_⟩
  · rw [exec_coreReset, regAccess_of_gateOpen hgate, coreResetDev_of_running n hrun.1]
    exact ⟨_, rfl, resetCore_spec n s.dev hrun.2 hrun.1⟩
  · exact ⟨_, exec_coreReset n s, by rw [regAccess_of_gateOpen hgate, coreResetDev_of_held n hheld]⟩
  · rw [exec_coreRelease, regAccess_of_gateOpen hgate]
    exact ⟨_, rfl, coreReleaseDev_spec n hheld⟩
  · exact ⟨_, exec_coreRelease n s, by rw [regAccess_of_gateOpen hgate, coreReleaseDev_of_running n hrun]⟩
  · rw [exec_watchdogKick, regAccess_of_gateOpen hgate]
    exact ⟨_, rfl, watchdogKickDev_core n value, watchdogKickDev_frame n value⟩
  · obtain ⟨hrun, hen, hhalt⟩ := hon
    exact ⟨_, exec_watchdogExpire n s, watchdogExpireDev_spec n hrun hen hhalt⟩
  · exact ⟨_, exec_watchdogExpire n s, watchdogExpireDev_of_idle s.dev hoff⟩
  · rw [exec_cmoGo, regAccess_of_gateOpen hgate]
    exact ⟨_, rfl, cmoGoDev_spec n hgo.1 hgo.2⟩
  · obtain ⟨hcmo, halign, hwhole⟩ := hclean
    exact ⟨_, exec_cmoDone n s, cmoDoneDev_clean n hcmo halign fun l hl => by simpa using List.all_eq_true.1 hwhole l hl⟩
  · exact ⟨_, exec_cmoDone n s, cmoDoneDev_invalidate n hinv⟩
  · rw [exec_mtimeRead, regAccess_of_gateOpen hgate]
    refine ⟨_, rfl, ?_, rfl, ((SameBut.refl _ _ _).setPair _ (by simp) (by simp)).reply _ (by simp)⟩
    exact (Device.pair_setPair_self s.dev (by decide) s.dev.mtime).trans (Nat.mod_eq_of_lt (Nat.mod_lt _ (by decide)))
  · obtain ⟨htimer, hclock, hidle, hframe⟩ := mtimerDev_spec n hedges
    exact ⟨_, exec_mtimerInterrupt n s, ⟨htimer, hclock, hidle⟩, hframe⟩
  · rw [exec_plicClaim, regAccess_of_gateOpen hgate]
    exact ⟨_, rfl, plicClaimDev_spec k hbest⟩
  · rw [exec_plicClaim, regAccess_of_gateOpen hgate, plicClaimDev_of_none hnone]
    exact ⟨_, rfl, rfl, rfl, (SameBut.refl _ _ _).reply _ (by simp)⟩
  · obtain ⟨hactive, halign, hdenied⟩ := hpmp
    obtain ⟨hcause, hmode, hothers, hkept⟩ := refusedByCore_spec n hactive a
    exact ⟨_, exec_registerWrite_of_coreStops (coreStops_of_pmp hactive halign hdenied hquiet), ⟨rfl, rfl, hcause, hmode, hothers⟩, hkept⟩
  · obtain ⟨hvalue, hpc, hx, hothers, hframe⟩ := csrAccess_mscratch_spec (d := s.dev) n value
    exact ⟨_, exec_registerWrite_mscratch n value s, ⟨hvalue, hpc, hx, hothers⟩, hframe⟩
  · rw [exec_rcCounterRead_mscratch, csrAccess_mscratch_read]
    exact ⟨_, rfl, rfl, rfl, (SameBut.refl _ _ _).reply _ (by simp)⟩

end Sys2Proof.Machine

/-! # Samples of an axis

What a sample of an encoder or of SSI takes over, moves and counts, under the configuration of its time (R225 to R233, R241). -/

namespace Sys2Proof.Machine

theorem exec_encoderEdge (n : Fin 4) (a b : Bool) (t held : Nat) (z : Option Bool) (s : State) :
    exec (.encoderEdge n a b t held z) s = s.done (encoderEdgeDev n a b t held z s.dev) := rfl
theorem exec_ssiFrameStart (n : Fin 4) (g : Bool) (t : Nat) (s : State) : exec (.ssiFrameStart n g t) s = s.done (ssiStartDev n g t s.dev) := rfl
theorem exec_ssiFrameDone (n : Fin 4) (bits : Nat) (z : Option (Bool × Nat)) (s : State) :
    exec (.ssiFrameDone n bits z) s = s.done (ssiDoneDev n bits z s.dev) := rfl

/-! ## The axes of a device -/

/-- The device with other axes. -/
def Device.withAxes (d : Device) (v : Vector Axis 4) : Device := { d with axes := v }

theorem Device.axis_setAxis_self (d : Device) {n : Nat} (hn : n < 4) (x : Axis) : (d.setAxis n x).axis n = x := unit_withUnit_self _ hn x

section
variable {as : List Nat} {ps : List Part} {rs : List (Nat × Nat)} {d e : Device}

theorem SameBut.setAxis (h : SameBut as ps d e) (n : Nat) (x : Axis) (hp : Part.axes ∈ ps) : SameBut as ps d (e.setAxis n x) :=
  h.parts_only rfl rfl rfl rfl (fun p hp' => by
    cases p with
    | axes => exact absurd hp hp'
    | _ => rfl)

theorem SameBut.axis (h : SameBut as ps d e) (hp : Part.axes ∉ ps) (n : Nat) : e.axis n = d.axis n :=
  congrArg (fun v : Vector Axis 4 => unit v n) (h.parts .axes hp)

theorem SameButMem.axis (h : SameButMem as ps rs d e) (hp : Part.axes ∉ ps) (n : Nat) : e.axis n = d.axis n :=
  congrArg (fun v : Vector Axis 4 => unit v n) (h.parts .axes hp)

end

/-- The axes do not enter the configuration of a time. -/
theorem Device.withAxes_asOfTime (d : Device) (v : Vector Axis 4) (t : Nat) : (d.withAxes v).asOfTime t = (d.asOfTime t).withAxes v := by
  have hstate : (d.withAxes v).sluState = d.sluState := rfl
  have hslu : (d.withAxes v).slu = d.slu := rfl
  have hline (c : Int) : tLine (d.withAxes v) c = tLine d c := rfl
  unfold Device.asOfTime
  rw [hstate, hslu, hline]
  split
  · rfl
  · split
    · split <;> rfl
    · rfl

/-- A sample that meets an armed apply changes axes alone. -/
theorem axisCatch_eq (d : Device) (n t : Nat) : ∃ v, axisCatch d n t = d.withAxes v := by
  unfold axisCatch
  dsimp only
  split
  · exact ⟨d.axes, rfl⟩
  · exact ⟨_, rfl⟩

theorem axisCatch_frame (d : Device) (n t : Nat) : SameBut [] [.axes] d (axisCatch d n t) := by
  unfold axisCatch
  dsimp only
  split
  · exact .refl _ _ d
  · exact (SameBut.refl _ _ d).setAxis _ _ (by simp)

/-! ## Measurements -/

/-- Of axis `n` the observer's states alone differ. -/
def SameCount (n : Nat) (d e : Device) : Prop :=
  e.axis n = { d.axis n with obs := (e.axis n).obs, past := (e.axis n).past, stillAt := (e.axis n).stillAt }

theorem SameCount.refl (n : Nat) (d : Device) : SameCount n d d := rfl

theorem SameCount.n {n : Nat} {d e : Device} (h : SameCount n d e) : (e.axis n).n = (d.axis n).n  := by
  unfold SameCount at h
  rw [h]

section
variable (d cfg : Device) {n : Nat} (y t : Nat) (still : Bool)

/-- The measurement comes from before the restart of the observer. -/
def measureLost (d : Device) (n t : Nat) : Bool := match (d.axis n).initAt with | some a => stampBefore t a | none => false

/-- The observer with a measurement `y` at `t`. -/
def measured (n : Nat) : Device :=
  d.setAxis n { d.axis n with
    obs := axisMeasure (cfg.get (F.TRAn_CFG.BW n)) (statesBefore (d.axis n) t).1 y t
    past :=
      if (statesBefore (d.axis n) t).1.started then
        (statesBefore (d.axis n) t).1 :: ((statesBefore (d.axis n) t).2.takeWhile (fun o => stampBefore (obsHorizon d) (o.tu + 2000)) ++
          ((statesBefore (d.axis n) t).2.drop ((statesBefore (d.axis n) t).2.takeWhile
            (fun o => stampBefore (obsHorizon d) (o.tu + 2000))).length).take 1)
      else []
    stillAt := if still then some t else none }

theorem measure_eq (n : Nat) : measure d cfg n y t still = if measureLost d n t then d else measured d cfg y t still n := rfl

theorem measure_frame (n : Nat) : SameBut [] [.axes] d (measure d cfg n y t still) := by
  rw [measure_eq]
  exact iteInduction (fun _ => .refl _ _ d) fun _ => (SameBut.refl _ _ d).setAxis _ _ (by simp)

theorem measure_sameCount (hn : n < 4) : SameCount n d (measure d cfg n y t still) := by
  rw [measure_eq]
  split
  · rfl
  · unfold SameCount measured
    rw [Device.axis_setAxis_self _ hn]

/-- A measurement that no restart of the observer overtakes. -/
theorem measure_obs (hn : n < 4) (hinit : (d.axis n).initAt.all (fun a => !stampBefore t a) = true) :
    ((measure d cfg n y t still).axis n).obs = axisMeasure (cfg.get (F.TRAn_CFG.BW n)) (statesBefore (d.axis n) t).1 y t ∧
    ((measure d cfg n y t still).axis n).stillAt = if still then some t else none := by
  have hlive : measureLost d n t = false := by
    unfold measureLost
    cases h : (d.axis n).initAt with
    | none => rfl
    | some a =>
      rw [h, Option.all_some, Bool.not_eq_true'] at hinit
      exact hinit
  rw [measure_eq, hlive, if_neg Bool.false_ne_true, measured, Device.axis_setAxis_self _ hn]
  exact ⟨rfl, rfl⟩

theorem remeasureStill_frame (n : Nat) : SameBut [] [.axes] d (remeasureStill d cfg n t) := by
  unfold remeasureStill
  split
  · split
    · exact .refl _ _ d
    · exact measure_frame _ _ _ _ _ n
  · exact .refl _ _ d

theorem remeasureStill_sameCount (hn : n < 4) : SameCount n d (remeasureStill d cfg n t) := by
  unfold remeasureStill
  split
  · split
    · rfl
    · exact measure_sameCount _ _ _ _ _ hn
  · rfl

/-- An earlier standstill measurement stays. -/
theorem remeasureStill_of_before (n : Nat) (h : (d.axis n).stillAt.all (fun u => stampBefore u t) = true) : remeasureStill d cfg n t = d := by
  unfold remeasureStill
  cases hs : (d.axis n).stillAt with
  | none => rfl
  | some u =>
    rw [hs, Option.all_some] at h
    exact if_pos h

end

/-! ## The end of a sample -/

theorem refLatch_of_disarmed {d : Device} {n : Nat} (h : d.bit (F.TRAn_STATUS.REF_ARMED n) = false) (cfg : Device) (t : Nat) :
    refLatch d cfg n t = d :=
  if_pos (ne_true_of_eq_false h)

/-- Without a change of N, or with the list disarmed, list compare does nothing. -/
theorem listCompare_of_quiet {d : Device} {n o w : Nat} (h : o = w ∨ d.bit (F.TRAn_STATUS.LIST_ARMED n) = false) (t : Nat) (te : Option Nat) :
    listCompare d n o w t te = d := by
  unfold listCompare
  split
  · rfl
  case isFalse hne =>
    unfold listScan
    exact if_pos (ne_true_of_eq_false (h.resolve_left hne))

section
variable {d : Device} {n o : Nat}

/-- A sample without a reference edge that counts, and without a change of N that the list sees. -/
theorem sampleEnd_of_quiet {ref : Option Nat} (href : ref = none ∨ d.bit (F.TRAn_STATUS.REF_ARMED n) = false)
    (hlist : (d.axis n).n = o ∨ d.bit (F.TRAn_STATUS.LIST_ARMED n) = false) (cfg : Device) (t : Nat) (te : Option Nat) :
    sampleEnd d cfg n o t ref te = d := by
  have hend : sampleEnd d cfg n o t ref te = listCompare (listCompare d n o (d.axis n).n t te) n (d.axis n).n (d.axis n).n (ref.getD t) te := by
    unfold sampleEnd
    cases ref with
    | none => rfl
    | some tr =>
      have hlatch := refLatch_of_disarmed (href.resolve_left (by simp)) cfg tr
      dsimp only
      rw [hlatch]
  rw [hend, listCompare_of_quiet (hlist.imp_left Eq.symm), listCompare_of_quiet (.inl rfl)]

/-- Without a write of CTRL in its cycle or later, an event acts alone. -/
theorem beforeCtl_of_before {te : Nat} (h : (d.axis n).ctl.all (fun k => !notBefore d k.t k.cycle (some te)) = true) (act : Device → Device) :
    beforeCtl d n (some te) act = act d := by
  unfold beforeCtl
  split
  · rfl
  case h_2 c hc =>
    rw [hc, Option.all_some, Bool.not_eq_true'] at h
    exact if_pos (ne_true_of_eq_false h)

end

/-! ## The levels of a sample -/

theorem withZ_frame (d : Device) (n : Nat) (z : Option Bool) : SameBut [] [.axes] d (withZ d n z) := by
  unfold withZ
  split
  · exact (SameBut.refl _ _ d).setAxis _ _ (by simp)
  · exact .refl _ _ d

theorem withZ_axis (d : Device) {n : Nat} (hn : n < 4) (z : Option Bool) : (withZ d n z).axis n = { d.axis n with z := z.or (d.axis n).z } := by
  cases z with
  | none => rfl
  | some l => exact Device.axis_setAxis_self d hn _

/-- The level of an edge is the accepted one, whether or not it is new. -/
theorem zNew_or (d : Device) (n : Nat) (z : Option Bool) : (zNew d n z).or (d.axis n).z = z.or (d.axis n).z := by
  unfold zNew
  cases z with
  | none => rfl
  | some l =>
    by_cases hl : (d.axis n).z = some l
    · rw [hl, Option.filter_some_neg (by simp)]
      rfl
    · rw [Option.filter_some_pos (by simpa using hl)]

theorem any_zNew (d : Device) (n : Nat) (z : Option Bool) (p : Bool → Bool) : (zNew d n z).any p = z.any (fun l => p l && (d.axis n).z != some l) := by
  cases z with
  | none => rfl
  | some l =>
    by_cases hl : (d.axis n).z = some l
    · simp [zNew, hl]
    · simp [zNew, Bool.and_comm]

/-- The axis at a sample at `t`, with the level of its index edge. -/
def edgeStart (d : Device) (n t : Nat) (z : Option Bool) : Device := withZ (axisCatch d n t) n (zNew (axisCatch d n t) n z)

section
variable (d : Device) {n : Nat} (t : Nat) (z : Option Bool)

theorem edgeStart_frame (n : Nat) : SameBut [] [.axes] d (edgeStart d n t z) := (axisCatch_frame d n t).trans (withZ_frame _ n _)

theorem edgeStart_axis (hn : n < 4) :
    (edgeStart d n t z).axis n = { (axisCatch d n t).axis n with z := z.or ((axisCatch d n t).axis n).z } := by
  rw [edgeStart, withZ_axis _ hn, zNew_or]

/-- The index edge of a sample, where it is one and the axis selects it. -/
def sampleRef (d : Device) (n t : Nat) (z : Option Bool) : Option Nat :=
  if (zNew (axisCatch d n t) n z).any (zSelected (d.asOfTime t) n) then some t else none

theorem sampleRef_eq_none (n : Nat) (h : z.any (zSelected (d.asOfTime t) n) = false) : sampleRef d n t z = none := by
  unfold sampleRef
  rw [any_zNew, if_neg]
  cases z with
  | none => exact Bool.false_ne_true
  | some l =>
    have hl : zSelected (d.asOfTime t) n l = false := by simpa using h
    simp [hl]

end

/-- The configuration under which a sample is decoded enters it by its registers alone. -/
theorem encoderEdgeDev_of_held {d : Device} {n : Nat} {a b : Bool} {t held : Nat} {z : Option Bool}
    (hheld : (d.asOfTime t).get (F.TRAn_CFG.FILT n) < held) (hreset : d.resetting 5 = false) : encoderEdgeDev n a b t held z d =
      beforeCtl (edgeStart d n t z) n (some (acceptedAt (d.asOfTime t) n t)) (fun d1 =>
        sampleEnd (quadSample d1 (d.asOfTime t) n a b t) (d.asOfTime t) n (d1.axis n).n t (sampleRef d n t z)
          (some (acceptedAt (d.asOfTime t) n t))) := by
  obtain ⟨v, hv⟩ := axisCatch_eq d n t
  unfold sampleRef edgeStart encoderEdgeDev
  dsimp only
  rw [hv, Device.withAxes_asOfTime, if_neg (show ¬ held ≤ ((d.asOfTime t).withAxes v).get (F.TRAn_CFG.FILT n) from Nat.not_le.2 hheld), hreset,
    if_neg Bool.false_ne_true]
  rfl

theorem encoderEdgeDev_of_short {d : Device} {n : Nat} {a b : Bool} {t held : Nat} {z : Option Bool}
    (hheld : held ≤ (d.asOfTime t).get (F.TRAn_CFG.FILT n)) : encoderEdgeDev n a b t held z d = d := by
  obtain ⟨v, hv⟩ := axisCatch_eq d n t
  unfold encoderEdgeDev
  dsimp only
  rw [hv, Device.withAxes_asOfTime]
  exact if_pos hheld

theorem encoderEdgeDev_of_reset {d : Device} {n : Nat} {a b : Bool} {t held : Nat} {z : Option Bool}
    (hheld : (d.asOfTime t).get (F.TRAn_CFG.FILT n) < held) (hreset : d.resetting 5 = true) : encoderEdgeDev n a b t held z d =
      withZ (d.setAxis n { d.axis n with a := a, b := b }) n (zNew (axisCatch d n t) n z) := by
  obtain ⟨v, hv⟩ := axisCatch_eq d n t
  unfold encoderEdgeDev
  dsimp only
  rw [hv, Device.withAxes_asOfTime, if_neg (show ¬ held ≤ ((d.asOfTime t).withAxes v).get (F.TRAn_CFG.FILT n) from Nat.not_le.2 hheld), hreset,
    if_pos rfl]

end Sys2Proof.Machine

/-! # What a sample counts

The steps, double steps and frames of a sample, and what each leaves (R226 to R232). -/

namespace Sys2Proof.Machine

/-! ## Tracks A and B -/

/-- The axis with the levels of a sample. -/
def levelled (d : Device) (n : Nat) (a b : Bool) : Device := d.setAxis n { d.axis n with a := a, b := b }

/-- The axis after a step `s` of N. -/
def stepped (d : Device) (n : Nat) (a b : Bool) (s : Int) : Device :=
  ((((levelled d n a b).setAxis n { (levelled d n a b).axis n with n := wrapN 48 ((d.axis n).n + s), lastNeg := some (decide (s < 0)) }).count
    (F.TRAn_EDGES.COUNT n)).setBit (F.TRAn_STATUS.DIR n) (decide (s < 0))).setBit (F.TRAn_STATUS.STILL n) false

/-- The step of a sample. -/
def sampleStep (d cfg : Device) (n : Nat) (a b : Bool) : Int :=
  (if cfg.bit (F.TRAn_CFG.REVERSE n) then -1 else 1) * quadStep (d.axis n).a (d.axis n).b a b

/-- The axis decodes its tracks. -/
def decodes (cfg : Device) (n : Nat) : Prop := cfg.bit (F.TRAn_CFG.EN n) = true ∧ cfg.bit (F.TRAn_CFG.TYPE n) = false

section
variable {d cfg : Device} {n : Nat} {a b : Bool} {t : Nat}

theorem quadSample_of_off (h : cfg.bit (F.TRAn_CFG.EN n) = false ∨ cfg.bit (F.TRAn_CFG.TYPE n) = true) : quadSample d cfg n a b t = levelled d n a b :=
  if_pos (h.imp_left ne_true_of_eq_false)

theorem not_off_of_decodes (h : decodes cfg n) : ¬ (¬ cfg.bit (F.TRAn_CFG.EN n) = true ∨ cfg.bit (F.TRAn_CFG.TYPE n) = true) := by
  rw [h.1, h.2]
  simp

theorem quadSample_of_both (h : decodes cfg n) (hboth : (d.axis n).a ≠ a ∧ (d.axis n).b ≠ b) :
    quadSample d cfg n a b t = remeasureStill (qerrEvent (levelled d n a b) cfg n t) cfg n t :=
  (if_neg (not_off_of_decodes h)).trans (if_pos hboth)

theorem quadStep_of_both {a b a' b' : Bool} (h : a ≠ a' ∧ b ≠ b') : quadStep a b a' b' = 0 := by
  revert a b a' b'
  decide

theorem not_both_of_step (hs : sampleStep d cfg n a b ≠ 0) : ¬ ((d.axis n).a ≠ a ∧ (d.axis n).b ≠ b) := fun hboth =>
  hs (by rw [sampleStep, quadStep_of_both hboth, Int.mul_zero])

/-- A step that does not reverse is measured. -/
theorem quadSample_of_step (h : decodes cfg n) (hs : sampleStep d cfg n a b ≠ 0)
    (hlast : (d.axis n).lastNeg ≠ some (!decide (sampleStep d cfg n a b < 0))) : quadSample d cfg n a b t =
      measure (stepped d n a b (sampleStep d cfg n a b)) cfg n
        (65536 * (if decide (sampleStep d cfg n a b < 0) then (d.axis n).n else wrapN 48 ((d.axis n).n + sampleStep d cfg n a b))) t :=
  (if_neg (not_off_of_decodes h)).trans ((if_neg (not_both_of_step hs)).trans ((if_neg hs).trans (if_neg hlast)))

theorem quadSample_of_reversal (h : decodes cfg n) (hs : sampleStep d cfg n a b ≠ 0)
    (hlast : (d.axis n).lastNeg = some (!decide (sampleStep d cfg n a b < 0))) : quadSample d cfg n a b t =
      remeasureStill ((stepped d n a b (sampleStep d cfg n a b)).count (F.TRAn_REVERSALS.COUNT n)) cfg n t :=
  (if_neg (not_off_of_decodes h)).trans ((if_neg (not_both_of_step hs)).trans ((if_neg hs).trans (if_pos hlast)))

theorem levelled_axis (hn : n < 4) : (levelled d n a b).axis n = { d.axis n with a := a, b := b } := Device.axis_setAxis_self d hn _

theorem levelled_frame : SameBut [] [.axes] d (levelled d n a b) := (SameBut.refl _ _ d).setAxis _ _ (by simp)

theorem stepped_axis (hn : n < 4) (s : Int) : (stepped d n a b s).axis n =
    { d.axis n with a := a, b := b, n := wrapN 48 ((d.axis n).n + s), lastNeg := some (decide (s < 0)) } := by
  refine (Device.axis_setAxis_self (levelled d n a b) hn _).trans ?_
  rw [levelled_axis hn]

theorem stepped_frame (s : Int) : SameBut [R.TRAn_EDGES n, R.TRAn_STATUS n] [.axes] d (stepped d n a b s) :=
  ((((levelled_frame.mono_regs (List.nil_subset _)).setAxis _ _ (by simp)).count _ (by simp)).setBit _ (by simp)).setBit _ (by simp)

theorem edges_ne_status (n : Nat) : R.TRAn_EDGES n ≠ R.TRAn_STATUS n := by unfold R.TRAn_EDGES R.TRAn_STATUS; omega

theorem stepped_edges (s : Int) :
    (stepped d n a b s).get (F.TRAn_EDGES.COUNT n) = min (d.get (F.TRAn_EDGES.COUNT n) + 1) 0xFFFFFFFF := by
  rw [stepped, Device.get_setBit, Device.get_set_ne _ _ _ _ (.inl (edges_ne_status n)), Device.get_setBit,
    Device.get_set_ne _ _ _ _ (.inl (edges_ne_status n)), Device.get_count_saturating _ _ _ (by simp)]
  rfl

theorem stepped_dir (s : Int) : (stepped d n a b s).get (F.TRAn_STATUS.DIR n) = if s < 0 then 1 else 0 := by
  rw [stepped, Device.get_setBit, Device.get_set_ne _ _ _ _ (.inr (by simp)), Device.get_setBit, Device.get_set_self _ _ _ (by simp)]
  by_cases h : s < 0 <;> simp [h]

theorem stepped_still (s : Int) : (stepped d n a b s).get (F.TRAn_STATUS.STILL n) = 0 := by
  rw [stepped, Device.get_setBit, Device.get_set_self _ _ _ (by simp)]
  simp

/-- A step keeps the bits of the status that say what is armed. -/
theorem stepped_status (s : Int) {f : Fld} (ha : f.addr = R.TRAn_STATUS n) (hf : f.hi < 27 ∨ 28 < f.lo) : (stepped d n a b s).get f = d.get f := by
  rw [stepped, Device.get_setBit, Device.get_set_ne _ _ _ _ (.inr (hf.symm.imp (show 28 < f.lo → 27 < f.lo by omega) id)), Device.get_setBit,
    Device.get_set_ne _ _ _ _ (.inr (hf.symm.imp id (show f.hi < 27 → f.hi < 28 by omega))), Device.get_count,
    Device.get_set_ne _ _ _ _ (.inl (by rw [ha]; exact (edges_ne_status n).symm))]
  rfl

theorem stepped_bit (s : Int) {f : Fld} (ha : f.addr = R.TRAn_STATUS n) (hf : f.hi < 27 ∨ 28 < f.lo) : (stepped d n a b s).bit f = d.bit f := by
  unfold Device.bit
  rw [stepped_status s ha hf]

/-! ## Errors of the tracks -/

/-- A double step reports its second's window. -/
def qerrBeyond (d cfg : Device) (n t : Nat) : Bool :=
  !((d.axis n).qerrWin == some (t / 1000000000) && (d.axis n).qerrHit) &&
    decide (cfg.get (F.TRAn_LIMITS.QERR_MAX n) < (if (d.axis n).qerrWin == some (t / 1000000000) then (d.axis n).qerrs else 0) + 1)

/-- The axis with the count of the second's window. -/
def qerrAxis (d cfg : Device) (n t : Nat) : Axis :=
  { d.axis n with
    qerrs := (if (d.axis n).qerrWin == some (t / 1000000000) then (d.axis n).qerrs else 0) + 1
    qerrWin := some (t / 1000000000)
    qerrHit := ((d.axis n).qerrWin == some (t / 1000000000) && (d.axis n).qerrHit) || qerrBeyond d cfg n t }

/-- A double step is counted. -/
def qerrCounted (d cfg : Device) (n t : Nat) : Device :=
  (((d.setAxis n (qerrAxis d cfg n t)).count (F.TRAn_QERR.COUNT n)).setBit (F.TRAn_STATUS.UNCERTAIN n) true).raise (F.TRAn_FLAGS.QERR n)

theorem qerrEvent_eq : qerrEvent d cfg n t = if qerrBeyond d cfg n t then qerrRate (qerrCounted d cfg n t) n else qerrCounted d cfg n t := rfl

theorem qerrCounted_frame : SameBut [R.TRAn_QERR n, R.TRAn_STATUS n, R.TRAn_FLAGS n] [.axes, .evt] d (qerrCounted d cfg n t) :=
  ((((SameBut.refl _ _ d).setAxis _ _ (by simp)).count _ (by simp)).setBit _ (by simp)).raise (by simp) (by simp)

theorem qerrCounted_axis (hn : n < 4) : (qerrCounted d cfg n t).axis n = qerrAxis d cfg n t := by
  have hraise : SameBut [R.TRAn_FLAGS n] [.evt] _ (qerrCounted d cfg n t) := (SameBut.refl _ _ _).raise (by simp) (by simp)
  exact (hraise.axis (by simp) n).trans (Device.axis_setAxis_self d hn _)

theorem qerr_ne_status (n : Nat) : R.TRAn_QERR n ≠ R.TRAn_STATUS n := by unfold R.TRAn_QERR R.TRAn_STATUS; omega
theorem qerr_ne_flags (n : Nat) : R.TRAn_QERR n ≠ R.TRAn_FLAGS n := by unfold R.TRAn_QERR R.TRAn_FLAGS; omega
theorem status_ne_flags (n : Nat) : R.TRAn_STATUS n ≠ R.TRAn_FLAGS n := by unfold R.TRAn_STATUS R.TRAn_FLAGS; omega

theorem qerrCounted_count : (qerrCounted d cfg n t).get (F.TRAn_QERR.COUNT n) = min (d.get (F.TRAn_QERR.COUNT n) + 1) 0xFFFFFFFF := by
  rw [qerrCounted, Device.get_raise, Device.get_set_ne _ _ _ _ (.inl (qerr_ne_flags n)), Device.get_setBit,
    Device.get_set_ne _ _ _ _ (.inl (qerr_ne_status n)), Device.get_count_saturating _ _ _ (by simp)]
  rfl

theorem qerrCounted_uncertain : (qerrCounted d cfg n t).get (F.TRAn_STATUS.UNCERTAIN n) = 1 := by
  rw [qerrCounted, Device.get_raise, Device.get_set_ne _ _ _ _ (.inl (status_ne_flags n)), Device.get_setBit, Device.get_set_self _ _ _ (by simp)]
  simp

theorem qerrCounted_qerr : (qerrCounted d cfg n t).get (F.TRAn_FLAGS.QERR n) = 1 := Device.get_raise_self _ _ rfl (by simp)

theorem qerrCounted_status {f : Fld} (ha : f.addr = R.TRAn_STATUS n) (hf : f.hi < 31) : (qerrCounted d cfg n t).get f = d.get f := by
  rw [qerrCounted, Device.get_raise, Device.get_set_ne _ _ _ _ (.inl (by rw [ha]; exact status_ne_flags n)), Device.get_setBit,
    Device.get_set_ne _ _ _ _ (.inr (.inr hf)), Device.get_count, Device.get_set_ne _ _ _ _ (.inl (by rw [ha]; exact (qerr_ne_status n).symm))]
  rfl

theorem axisReg_not_mem_faultRegs {r : Nat} (h : 0x50000000 ≤ r) : r ∉ faultRegs := by
  unfold faultRegs R.FLT_L1_COUNT R.FLT_L2_COUNT R.FLT_L3_COUNT R.FLT_LAST R.FLT_LAST_LINE R.FLT_FLAGS R.FLT_HIST_SEQ
  simp only [List.mem_cons, List.not_mem_nil, or_false, not_or]
  omega

/-! ## The report of a window -/

theorem qerrRate_frame : SameButMem ([R.TRAn_FLAGS n] ++ faultRegs) [.resv, .evt] [faultBytes] d (qerrRate d n) := by
  have hraise : SameBut ([R.TRAn_FLAGS n] ++ faultRegs) [.resv, .evt] d (d.raise (F.TRAn_FLAGS.QERR_RATE n)) :=
    (SameBut.refl _ _ d).raise (by simp) (by simp)
  exact hraise.trans_sameButMem ((Device.fault_frame _ _ _).mono (List.subset_append_right _ _) (List.Subset.refl _))

theorem qerrRate_get {f : Fld} (hlo : 0x50000000 ≤ f.addr) : (qerrRate d n).get f = (d.raise (F.TRAn_FLAGS.QERR_RATE n)).get f :=
  (Device.fault_frame _ _ _).get (axisReg_not_mem_faultRegs hlo)

theorem qerrRate_flag : (qerrRate d n).get (F.TRAn_FLAGS.QERR_RATE n) = 1 := by
  rw [qerrRate_get (by simp only [R.TRAn_FLAGS]; omega), Device.get_raise_self _ _ rfl (by simp)]

theorem qerrRate_qerr : (qerrRate d n).get (F.TRAn_FLAGS.QERR n) = d.get (F.TRAn_FLAGS.QERR n) := by
  rw [qerrRate_get (by simp only [R.TRAn_FLAGS]; omega), Device.get_raise, Device.get_set_ne _ _ _ _ (.inr (by simp))]

theorem qerrRate_kept {f : Fld} (hlo : 0x50000000 ≤ f.addr) (hf : f.addr ≠ R.TRAn_FLAGS n) : (qerrRate d n).get f = d.get f := by
  rw [qerrRate_get hlo, Device.get_raise, Device.get_set_ne _ _ _ _ (.inl hf)]

theorem qerrEvent_axis (hn : n < 4) : (qerrEvent d cfg n t).axis n = qerrAxis d cfg n t := by
  rw [qerrEvent_eq]
  split
  · exact (qerrRate_frame.axis (by simp) n).trans (qerrCounted_axis hn)
  · exact qerrCounted_axis hn

theorem qerrEvent_status {f : Fld} (ha : f.addr = R.TRAn_STATUS n) (hf : f.hi < 31) : (qerrEvent d cfg n t).get f = d.get f := by
  rw [qerrEvent_eq]
  split
  · rw [qerrRate_kept (by rw [ha]; unfold R.TRAn_STATUS; omega) (by rw [ha]; exact status_ne_flags n), qerrCounted_status ha hf]
  · exact qerrCounted_status ha hf

theorem qerrEvent_count : (qerrEvent d cfg n t).get (F.TRAn_QERR.COUNT n) = min (d.get (F.TRAn_QERR.COUNT n) + 1) 0xFFFFFFFF := by
  rw [qerrEvent_eq]
  split
  · rw [qerrRate_kept (by simp only [R.TRAn_QERR]; omega) (qerr_ne_flags n), qerrCounted_count]
  · exact qerrCounted_count

theorem qerrEvent_uncertain : (qerrEvent d cfg n t).get (F.TRAn_STATUS.UNCERTAIN n) = 1 := by
  rw [qerrEvent_eq]
  split
  · rw [qerrRate_kept (by simp only [R.TRAn_STATUS]; omega) (status_ne_flags n), qerrCounted_uncertain]
  · exact qerrCounted_uncertain

theorem qerrEvent_qerr : (qerrEvent d cfg n t).get (F.TRAn_FLAGS.QERR n) = 1 := by
  rw [qerrEvent_eq]
  split
  · rw [qerrRate_qerr, qerrCounted_qerr]
  · exact qerrCounted_qerr

theorem qerrEvent_frame :
    SameButMem ([R.TRAn_QERR n, R.TRAn_STATUS n, R.TRAn_FLAGS n] ++ faultRegs) [.resv, .axes, .evt] [faultBytes] d (qerrEvent d cfg n t) := by
  have hcounted : SameBut ([R.TRAn_QERR n, R.TRAn_STATUS n, R.TRAn_FLAGS n] ++ faultRegs) [.resv, .axes, .evt] d (qerrCounted d cfg n t) :=
    qerrCounted_frame.mono (List.subset_append_left _ _) (by simp)
  rw [qerrEvent_eq]
  split
  · exact hcounted.trans_sameButMem (qerrRate_frame.mono (by simp) (by simp))
  · exact hcounted.toMem

theorem qerrRate_code : (qerrRate d n).get F.FLT_LAST.CODE = faultQerrRate := Device.fault_code _ _ (by decide)

end

/-! ## A sample without reference edge and list -/

section
variable {d : Device} {n : Fin 4} {a b : Bool} {t held : Nat} {z : Option Bool}

/-- The sample is accepted, and acts before any write of CTRL that its cycle has seen. -/
structure Accepted (d : Device) (n t held : Nat) : Prop where
  held : (d.asOfTime t).get (F.TRAn_CFG.FILT n) < held
  ctl : ((axisCatch d n t).axis n).ctl.all (fun k => !notBefore d k.t k.cycle (some (acceptedAt (d.asOfTime t) n t))) = true
  live : d.resetting 5 = false

/-- An accepted sample. -/
theorem encoderEdgeDev_of_accepted (h : Accepted d n t held) : encoderEdgeDev n a b t held z d =
    sampleEnd (quadSample (edgeStart d n t z) (d.asOfTime t) n a b t) (d.asOfTime t) n ((axisCatch d n t).axis n).n t (sampleRef d n t z)
      (some (acceptedAt (d.asOfTime t) n t)) := by
  have haxis := edgeStart_axis d t z n.isLt
  rw [encoderEdgeDev_of_held h.held h.live, beforeCtl_of_before (by rw [haxis]; exact h.ctl), haxis]

theorem encoderEdgeDev_of_quiet (h : Accepted d n t held)
    (href : z.any (zSelected (d.asOfTime t) n) = false ∨
      (quadSample (edgeStart d n t z) (d.asOfTime t) n a b t).bit (F.TRAn_STATUS.REF_ARMED n) = false)
    (hlist : ((quadSample (edgeStart d n t z) (d.asOfTime t) n a b t).axis n).n = ((axisCatch d n t).axis n).n ∨
      (quadSample (edgeStart d n t z) (d.asOfTime t) n a b t).bit (F.TRAn_STATUS.LIST_ARMED n) = false) :
    encoderEdgeDev n a b t held z d = quadSample (edgeStart d n t z) (d.asOfTime t) n a b t := by
  rw [encoderEdgeDev_of_accepted h, sampleEnd_of_quiet (href.imp_left (sampleRef_eq_none d t z n)) hlist]

end

end Sys2Proof.Machine

/-! # The counting of an axis

What encoder edges and SSI frames leave of an axis (R226 to R233). -/

namespace Sys2Proof.Machine

/-! ## Encoder edges -/

section
variable {d : Device} {n : Fin 4} {a b : Bool} {t held : Nat} {z : Option Bool}

/-- The sample at which both tracks have changed, before it is counted. -/
def bothStart (d : Device) (n : Nat) (a b : Bool) (t : Nat) (z : Option Bool) : Device := levelled (edgeStart d n t z) n a b

theorem bothStart_frame (n : Nat) : SameBut [] [.axes] d (bothStart d n a b t z) := (edgeStart_frame d t z n).trans levelled_frame

theorem bothStart_axis : (bothStart d n a b t z).axis n =
    { (axisCatch d n t).axis n with a := a, b := b, z := z.or ((axisCatch d n t).axis n).z } := by
  rw [bothStart, levelled_axis n.isLt, edgeStart_axis d t z n.isLt]

/-- A sample that no latch sees, with a double step. -/
theorem encoderEdgeDev_of_both (hacc : Accepted d n t held) (hdec : decodes (d.asOfTime t) n)
    (hboth : ((axisCatch d n t).axis n).a ≠ a ∧ ((axisCatch d n t).axis n).b ≠ b)
    (href : z.any (zSelected (d.asOfTime t) n) = false ∨ d.bit (F.TRAn_STATUS.REF_ARMED n) = false) :
    encoderEdgeDev n a b t held z d = remeasureStill (qerrEvent (bothStart d n a b t z) (d.asOfTime t) n t) (d.asOfTime t) n t := by
  have hstart := edgeStart_axis d t z n.isLt
  have hq : quadSample (edgeStart d n t z) (d.asOfTime t) n a b t =
      remeasureStill (qerrEvent (bothStart d n a b t z) (d.asOfTime t) n t) (d.asOfTime t) n t :=
    quadSample_of_both hdec (by rw [hstart]; exact hboth)
  have hstill := remeasureStill_frame (qerrEvent (bothStart d n a b t z) (d.asOfTime t) n t) (d.asOfTime t) t n
  have hcount := remeasureStill_sameCount (qerrEvent (bothStart d n a b t z) (d.asOfTime t) n t) (d.asOfTime t) t n.isLt
  rw [encoderEdgeDev_of_quiet hacc (href.imp_right fun hoff => ?_) (.inl ?_), hq]
  · rw [hq, hcount.n, qerrEvent_axis n.isLt, qerrAxis, bothStart_axis]
  · rw [hq, hstill.bit (by simp)]
    unfold Device.bit
    rw [qerrEvent_status rfl (by simp), (bothStart_frame _).get (by simp)]
    exact hoff

theorem qerrBeyond_iff {cfg : Device} : qerrBeyond d cfg n t = true ↔
    ¬ ((d.axis n).qerrWin = some (t / 1000000000) ∧ (d.axis n).qerrHit = true) ∧ cfg.get (F.TRAn_LIMITS.QERR_MAX n) < (qerrAxis d cfg n t).qerrs := by
  unfold qerrBeyond qerrAxis
  rw [Bool.and_eq_true, Bool.not_eq_true', decide_eq_true_iff, ← Bool.not_eq_true]
  simp only [Bool.and_eq_true, beq_iff_eq]

/-- What a double step leaves. -/
theorem both_spec {cfg : Device} {y : Axis} (hy : y = (axisCatch d n t).axis n) :
    let e := remeasureStill (qerrEvent (bothStart d n a b t z) cfg n t) cfg n t
    (e.axis n).n = y.n ∧ (e.axis n).a = a ∧ (e.axis n).b = b ∧
    (e.axis n).qerrs = (if y.qerrWin = some (t / 1000000000) then y.qerrs else 0) + 1 ∧ (e.axis n).qerrWin = some (t / 1000000000) ∧
    e.get (F.TRAn_QERR.COUNT n) = min (d.get (F.TRAn_QERR.COUNT n) + 1) 0xFFFFFFFF ∧
    e.get (F.TRAn_STATUS.UNCERTAIN n) = 1 ∧ e.get (F.TRAn_FLAGS.QERR n) = 1 ∧
    ((y.qerrWin = some (t / 1000000000) ∧ y.qerrHit = true) ∨ (e.axis n).qerrs ≤ cfg.get (F.TRAn_LIMITS.QERR_MAX n) →
      SameBut [R.TRAn_QERR n, R.TRAn_STATUS n, R.TRAn_FLAGS n] [.axes, .evt] d e) ∧
    (¬ (y.qerrWin = some (t / 1000000000) ∧ y.qerrHit = true) ∧ cfg.get (F.TRAn_LIMITS.QERR_MAX n) < (e.axis n).qerrs →
      e.get (F.TRAn_FLAGS.QERR_RATE n) = 1 ∧ e.get F.FLT_LAST.CODE = faultQerrRate) ∧
    SameButMem ([R.TRAn_QERR n, R.TRAn_STATUS n, R.TRAn_FLAGS n] ++ faultRegs) [.resv, .axes, .evt] [faultBytes] d e := by
  intro e
  have hstart : (bothStart d n a b t z).axis n = { y with a := a, b := b, z := z.or y.z } := by rw [bothStart_axis, hy]
  have hframe := bothStart_frame (d := d) (a := a) (b := b) (t := t) (z := z) n
  have hstill := remeasureStill_frame (qerrEvent (bothStart d n a b t z) cfg n t) cfg t n
  have hcount := remeasureStill_sameCount (qerrEvent (bothStart d n a b t z) cfg n t) cfg t n.isLt
  have hbeyond := qerrBeyond_iff (d := bothStart d n a b t z) (cfg := cfg) (n := n) (t := t)
  unfold SameCount at hcount
  rw [qerrEvent_axis n.isLt] at hcount
  have hqerrs : (e.axis n).qerrs = (qerrAxis (bothStart d n a b t z) cfg n t).qerrs := by rw [hcount]
  rw [hstart, ← hqerrs] at hbeyond
  have hwin : (qerrAxis (bothStart d n a b t z) cfg n t).qerrs = (if y.qerrWin = some (t / 1000000000) then y.qerrs else 0) + 1 := by
    unfold qerrAxis
    rw [hstart]
    simp only [beq_iff_eq]
  refine ⟨?_, ?_, ?_, hqerrs.trans hwin, ?_, ?_, ?_, ?_, fun hquiet => ?_, fun hloud => ?_, ?_⟩
  · rw [hcount, qerrAxis, hstart]
  · rw [hcount, qerrAxis, hstart]
  · rw [hcount, qerrAxis, hstart]
  · rw [hcount, qerrAxis]
  · rw [hstill.get (by simp), qerrEvent_count, hframe.get (by simp)]
  · rw [hstill.get (by simp), qerrEvent_uncertain]
  · rw [hstill.get (by simp), qerrEvent_qerr]
  · have hoff : qerrBeyond (bothStart d n a b t z) cfg n t = false := Bool.eq_false_iff.2 fun hon => by
      obtain ⟨hfresh, hover⟩ := hbeyond.1 hon
      exact hquiet.elim hfresh (Nat.not_le.2 hover)
    have hev : qerrEvent (bothStart d n a b t z) cfg n t = qerrCounted (bothStart d n a b t z) cfg n t := by
      rw [qerrEvent_eq, hoff, if_neg Bool.false_ne_true]
    have he : SameBut [] [.axes] (qerrCounted (bothStart d n a b t z) cfg n t) e := hev ▸ hstill
    exact (hframe.mono (List.nil_subset _) (by simp)).trans (qerrCounted_frame.trans (he.mono (List.nil_subset _) (by simp)))
  · have hev : qerrEvent (bothStart d n a b t z) cfg n t = qerrRate (qerrCounted (bothStart d n a b t z) cfg n t) n := by
      rw [qerrEvent_eq, if_pos (hbeyond.2 hloud)]
    exact ⟨by rw [hstill.get (by simp), hev, qerrRate_flag], by rw [hstill.get (by simp), hev, qerrRate_code]⟩
  · exact ((hframe.mono (List.nil_subset _) (by simp)).trans_sameButMem qerrEvent_frame).trans_sameBut (hstill.mono (List.nil_subset _) (by simp))

/-! ## Steps -/

/-- The sample of a step, with its levels and its count. -/
def stepStart (d : Device) (n : Nat) (a b : Bool) (t : Nat) (z : Option Bool) (k : Int) : Device := stepped (edgeStart d n t z) n a b k

theorem stepStart_frame (n : Nat) (k : Int) : SameBut [R.TRAn_EDGES n, R.TRAn_STATUS n] [.axes] d (stepStart d n a b t z k) :=
  ((edgeStart_frame d t z n).mono_regs (List.nil_subset _)).trans (stepped_frame k)

theorem stepStart_axis (k : Int) : (stepStart d n a b t z k).axis n =
    { (axisCatch d n t).axis n with
      a := a
      b := b
      z := z.or ((axisCatch d n t).axis n).z
      n := wrapN 48 (((axisCatch d n t).axis n).n + k)
      lastNeg := some (decide (k < 0)) } := by
  rw [stepStart, stepped_axis n.isLt, edgeStart_axis d t z n.isLt]

theorem stepStart_bit (k : Int) {f : Fld} (ha : f.addr = R.TRAn_STATUS n) (hf : f.hi < 27 ∨ 28 < f.lo) :
    (stepStart d n a b t z k).bit f = d.bit f := by
  rw [stepStart, stepped_bit k ha hf, (edgeStart_frame d t z n).bit (by simp)]

/-- The step that the tracks make in a sample. -/
theorem sampleStep_edgeStart (k : Int)
    (hk : k = (if (d.asOfTime t).bit (F.TRAn_CFG.REVERSE n) then -1 else 1) *
      quadStep ((axisCatch d n t).axis n).a ((axisCatch d n t).axis n).b a b) :
    sampleStep (edgeStart d n t z) (d.asOfTime t) n a b = k := by
  rw [sampleStep, edgeStart_axis d t z n.isLt, hk]

/-- A forward step is one that is not negative. -/
theorem not_decide_neg {k : Int} (hk : k ≠ 0) : (!decide (k < 0)) = decide (0 < k) := by
  rw [← decide_not]
  exact decide_eq_decide.2 (by omega)

section
variable {k : Int} (hacc : Accepted d n t held) (hdec : decodes (d.asOfTime t) n)
  (hk : k = (if (d.asOfTime t).bit (F.TRAn_CFG.REVERSE n) then -1 else 1) * quadStep ((axisCatch d n t).axis n).a ((axisCatch d n t).axis n).b a b)
  (hne : k ≠ 0)
include hdec hk hne

theorem quadSample_edgeStart_of_step (hlast : ((axisCatch d n t).axis n).lastNeg ≠ some (decide (0 < k))) :
    quadSample (edgeStart d n t z) (d.asOfTime t) n a b t = measure (stepStart d n a b t z k) (d.asOfTime t) n
      (65536 * (if k < 0 then ((axisCatch d n t).axis n).n else wrapN 48 (((axisCatch d n t).axis n).n + k))) t := by
  have hs := sampleStep_edgeStart (z := z) k hk
  have hstart := edgeStart_axis d t z n.isLt
  have hq := quadSample_of_step (d := edgeStart d n t z) (cfg := d.asOfTime t) (t := t) (a := a) (b := b) hdec (by rw [hs]; exact hne)
    (by rw [hs, hstart, not_decide_neg hne]; exact hlast)
  rw [hs, hstart] at hq
  simp only [decide_eq_true_eq] at hq
  exact hq

theorem quadSample_edgeStart_of_reversal (hlast : ((axisCatch d n t).axis n).lastNeg = some (decide (0 < k))) :
    quadSample (edgeStart d n t z) (d.asOfTime t) n a b t =
      remeasureStill ((stepStart d n a b t z k).count (F.TRAn_REVERSALS.COUNT n)) (d.asOfTime t) n t := by
  have hs := sampleStep_edgeStart (z := z) k hk
  have hstart := edgeStart_axis d t z n.isLt
  have hq := quadSample_of_reversal (d := edgeStart d n t z) (cfg := d.asOfTime t) (t := t) (a := a) (b := b) hdec (by rw [hs]; exact hne)
    (by rw [hs, hstart, not_decide_neg hne]; exact hlast)
  rwa [hs] at hq

end

theorem Device.count_axis (d : Device) (f : Fld) (m k : Nat) : (d.count f m).axis k = d.axis k := rfl

theorem reversals_ne_status (n : Nat) : R.TRAn_REVERSALS n ≠ R.TRAn_STATUS n := by unfold R.TRAn_REVERSALS R.TRAn_STATUS; omega

/-- What a step leaves. -/
theorem step_spec {cfg : Device} {y : Axis} {k : Int} {m : Nat} (hy : y = (axisCatch d n t).axis n) :
    let e := measure (stepStart d n a b t z k) cfg n m t
    (e.axis n).n = wrapN 48 (y.n + k) ∧ (e.axis n).a = a ∧ (e.axis n).b = b ∧ (e.axis n).lastNeg = some (decide (k < 0)) ∧
    (y.initAt.all (fun a => !stampBefore t a) = true →
      (e.axis n).obs = axisMeasure (cfg.get (F.TRAn_CFG.BW n)) (statesBefore y t).1 m t) ∧
    e.get (F.TRAn_EDGES.COUNT n) = min (d.get (F.TRAn_EDGES.COUNT n) + 1) 0xFFFFFFFF ∧
    e.get (F.TRAn_STATUS.DIR n) = (if k < 0 then 1 else 0) ∧ e.get (F.TRAn_STATUS.STILL n) = 0 ∧
    SameBut [R.TRAn_EDGES n, R.TRAn_STATUS n] [.axes] d e := by
  intro e
  have hframe := measure_frame (stepStart d n a b t z k) cfg m t false n
  have hcount := measure_sameCount (stepStart d n a b t z k) cfg m t false n.isLt
  unfold SameCount at hcount
  rw [stepStart_axis, ← hy] at hcount
  refine ⟨?_, ?_, ?_, ?_, fun hinit => ?_, ?_, ?_, ?_, (stepStart_frame n k).trans (hframe.mono_regs (List.nil_subset _))⟩
  · rw [hcount]
  · rw [hcount]
  · rw [hcount]
  · rw [hcount]
  · have hobs := (measure_obs (stepStart d n a b t z k) cfg m t false n.isLt (by rw [stepStart_axis, ← hy]; exact hinit)).1
    rw [stepStart_axis, ← hy] at hobs
    exact hobs
  · rw [hframe.get (by simp), stepStart, stepped_edges, (edgeStart_frame d t z n).get (by simp)]
  · rw [hframe.get (by simp), stepStart, stepped_dir]
  · rw [hframe.get (by simp), stepStart, stepped_still]

/-- What a step against the last one leaves. -/
theorem reversal_spec {cfg : Device} {y : Axis} {k : Int} (hy : y = (axisCatch d n t).axis n) :
    let e := remeasureStill ((stepStart d n a b t z k).count (F.TRAn_REVERSALS.COUNT n)) cfg n t
    ((e.axis n).n = wrapN 48 (y.n + k) ∧ (y.stillAt.all (fun u => stampBefore u t) = true → (e.axis n).obs = y.obs)) ∧
    e.get (F.TRAn_REVERSALS.COUNT n) = min (d.get (F.TRAn_REVERSALS.COUNT n) + 1) 0xFFFFFFFF ∧
    SameBut [R.TRAn_EDGES n, R.TRAn_STATUS n, R.TRAn_REVERSALS n] [.axes] d e := by
  intro e
  have hframe := remeasureStill_frame ((stepStart d n a b t z k).count (F.TRAn_REVERSALS.COUNT n)) cfg t n
  have hcount := remeasureStill_sameCount ((stepStart d n a b t z k).count (F.TRAn_REVERSALS.COUNT n)) cfg t n.isLt
  have hrev : R.TRAn_REVERSALS n.val ∉ [R.TRAn_EDGES n.val, R.TRAn_STATUS n.val] := by
    simp only [List.mem_cons, List.not_mem_nil, or_false, not_or, R.TRAn_REVERSALS, R.TRAn_EDGES, R.TRAn_STATUS]
    omega
  unfold SameCount at hcount
  rw [Device.count_axis, stepStart_axis, ← hy] at hcount
  refine ⟨⟨?_, fun hstill => ?_⟩, ?_, ?_⟩
  · rw [hcount]
  · have hsame : e = (stepStart d n a b t z k).count (F.TRAn_REVERSALS.COUNT n) :=
      remeasureStill_of_before _ _ _ _ (by rw [Device.count_axis, stepStart_axis, ← hy]; exact hstill)
    rw [hsame, Device.count_axis, stepStart_axis, ← hy]
  · rw [hframe.get (by simp), Device.get_count_saturating _ _ _ (by simp), (stepStart_frame n k).get hrev]
    rfl
  · exact (((stepStart_frame n k).mono_regs (by simp)).count _ (by simp)).trans (hframe.mono_regs (List.nil_subset _))

end

end Sys2Proof.Machine

/-! # SSI frames, and the statement of counting

What the start and the end of an SSI frame leave of an axis (R231, R232, R240); then the statement of the counting of an axis. -/

namespace Sys2Proof.Machine

/-! ## The start of a frame -/

section
variable {d : Device} {n : Fin 4}

/-- A frame starts on an enabled SSI axis. -/
theorem ssiStartDev_axis (g : Bool) (t : Nat) (hlive : d.resetting 5 = false) : (ssiStartDev n g t d).axis n =
    if (d.asOfTime t).bit (F.TRAn_CFG.EN n) ∧ (d.asOfTime t).bit (F.TRAn_CFG.TYPE n) then
      { (axisCatch d n t).axis n with frame := some { t := t, dataHigh := g }, clk := false } else d.axis n := by
  obtain ⟨v, hv⟩ := axisCatch_eq d n t
  have hen : ((axisCatch d n t).asOfTime t).bit (F.TRAn_CFG.EN n) = (d.asOfTime t).bit (F.TRAn_CFG.EN n) := by
    rw [hv, Device.withAxes_asOfTime]
    rfl
  have htype : ((axisCatch d n t).asOfTime t).bit (F.TRAn_CFG.TYPE n) = (d.asOfTime t).bit (F.TRAn_CFG.TYPE n) := by
    rw [hv, Device.withAxes_asOfTime]
    rfl
  unfold ssiStartDev
  simp only [hen, htype, hlive, Bool.false_eq_true, not_false_eq_true, and_true]
  split
  · exact Device.axis_setAxis_self _ n.isLt _
  · rfl

theorem ssiStartDev_frame (g : Bool) (t : Nat) : SameBut [] [.axes] d (ssiStartDev n g t d) := by
  unfold ssiStartDev
  dsimp only
  split
  · exact (axisCatch_frame d n t).setAxis _ _ (by simp)
  · exact .refl _ _ d

end

/-! ## The end of a frame -/

/-- The value of the bits of a frame that is not in Gray code. -/
def ssiValue (cfg : Device) (n bits : Nat) : Nat := bits % 2 ^ cfg.get (F.TRAn_SSI.NBITS n)

/-- The time of the cycle in which the frame `f` ends. -/
def ssiEnd (cfg : Device) (n : Nat) (f : SsiFrame) : Nat := (f.t + 4 * cfg.get (F.TRAn_SSI.DIV n) * cfg.get (F.TRAn_SSI.NBITS n)) % 2 ^ 64

/-- The instant that the frame `f` measures. -/
def ssiInstant (cfg : Device) (n : Nat) (f : SsiFrame) : Nat := (f.t + cfg.get (F.TRAn_SSI_LAT.LATCH_NS n)) % 2 ^ 64

/-- The signed difference from the value `u` to that of a frame. -/
def ssiStep (cfg : Device) (n bits u : Nat) : Int :=
  sx (cfg.get (F.TRAn_SSI.NBITS n)) (wrapN (cfg.get (F.TRAn_SSI.NBITS n)) ((ssiValue cfg n bits : Nat) - (u : Int)))

/-- The axis without a frame in progress. -/
def frameOver (d cfg : Device) (n : Nat) : Device := d.setAxis n { d.axis n with frame := none, clk := cfg.bit (F.TRAn_CFG.TYPE n) }

/-- The value `u` of a frame is taken over as the count `w` after a step `s`. -/
def ssiCounted (d cfg : Device) (n u w : Nat) (s : Int) : Device :=
  ((frameOver d cfg n).setAxis n { (frameOver d cfg n).axis n with
    n := w
    uPrev := some u
    lastNeg := if s = 0 then (d.axis n).lastNeg else some (decide (s < 0)) }).count (F.TRAn_EDGES.COUNT n)

/-- The direction of the step and the end of a standstill are shown. -/
def ssiShown (d cfg : Device) (n u w : Nat) (s : Int) : Device :=
  (if s = 0 then ssiCounted d cfg n u w s else (ssiCounted d cfg n u w s).setBit (F.TRAn_STATUS.DIR n) (decide (s < 0))).setBit
    (F.TRAn_STATUS.STILL n) false

section
variable {d cfg : Device} {n : Fin 4} {bits : Nat} {f : SsiFrame}

theorem ssiSample_of_low (hlow : f.dataHigh = false) :
    ssiSample d cfg n bits f = ((frameOver d cfg n).count (F.TRAn_SSI_ERR.COUNT n)).raise (F.TRAn_FLAGS.SSI_ERR n) :=
  if_pos (ne_true_of_eq_false hlow)

/-- The signed difference of a frame's value from the last one, 0 for the first. -/
def ssiMove (d cfg : Device) (n bits : Nat) : Int := match (d.axis n).uPrev with | none => 0 | some u => ssiStep cfg n bits u

/-- The count that a frame leads to. -/
def ssiTarget (d cfg : Device) (n bits : Nat) : Nat :=
  if (d.axis n).uPrev.isNone then ssiValue cfg n bits else wrapN 48 ((d.axis n).n + ssiMove d cfg n bits)

/-- A frame whose value is not taken over. -/
def ssiJumped (d cfg : Device) (n bits : Nat) : Device :=
  (((frameOver d cfg n).setAxis n { (frameOver d cfg n).axis n with uPrev := some (ssiValue cfg n bits) }).count
    (F.TRAn_SSI_JUMP.COUNT n)).raise (F.TRAn_FLAGS.SSI_JUMP n)

theorem ssiSample_of_high (hhigh : f.dataHigh = true) (hgray : cfg.bit (F.TRAn_SSI.GRAY n) = false) : ssiSample d cfg n bits f =
    if (d.axis n).uPrev.isSome ∧ cfg.get (F.TRAn_SSI_LAT.JUMP_MAX n) ≠ 0 ∧ cfg.get (F.TRAn_SSI_LAT.JUMP_MAX n) < (ssiMove d cfg n bits).natAbs then
      ssiJumped d cfg n bits
    else measure (ssiShown d cfg n (ssiValue cfg n bits) (ssiTarget d cfg n bits) (ssiMove d cfg n bits)) cfg n
      (65536 * ssiTarget d cfg n bits + 32768) (ssiInstant cfg n f) := by
  unfold ssiSample
  dsimp only
  rw [if_neg (not_not_intro hhigh), hgray, if_neg Bool.false_ne_true]
  rfl

theorem ssiMove_of_first (hfirst : (d.axis n).uPrev = none) : ssiMove d cfg n bits = 0 := by rw [ssiMove, hfirst]

theorem ssiMove_of_prev {u : Nat} (hprev : (d.axis n).uPrev = some u) : ssiMove d cfg n bits = ssiStep cfg n bits u := by rw [ssiMove, hprev]

theorem ssiSample_of_first (hhigh : f.dataHigh = true) (hgray : cfg.bit (F.TRAn_SSI.GRAY n) = false) (hfirst : (d.axis n).uPrev = none) :
    ssiSample d cfg n bits f = measure (ssiShown d cfg n (ssiValue cfg n bits) (ssiValue cfg n bits) 0) cfg n
      (65536 * ssiValue cfg n bits + 32768) (ssiInstant cfg n f) := by
  rw [ssiSample_of_high hhigh hgray, ssiTarget, ssiMove_of_first hfirst, hfirst, if_neg (fun h => Bool.false_ne_true h.1), if_pos Option.isNone_none]

theorem ssiSample_of_jump {u : Nat} (hhigh : f.dataHigh = true) (hgray : cfg.bit (F.TRAn_SSI.GRAY n) = false) (hprev : (d.axis n).uPrev = some u)
    (hlimit : cfg.get (F.TRAn_SSI_LAT.JUMP_MAX n) ≠ 0) (hjump : cfg.get (F.TRAn_SSI_LAT.JUMP_MAX n) < (ssiStep cfg n bits u).natAbs) :
    ssiSample d cfg n bits f = ssiJumped d cfg n bits := by
  rw [ssiSample_of_high hhigh hgray, ssiMove_of_prev hprev, hprev, if_pos ⟨Option.isSome_some, hlimit, hjump⟩]

theorem ssiSample_of_step {u : Nat} (hhigh : f.dataHigh = true) (hgray : cfg.bit (F.TRAn_SSI.GRAY n) = false) (hprev : (d.axis n).uPrev = some u)
    (hlimit : cfg.get (F.TRAn_SSI_LAT.JUMP_MAX n) = 0) :
    ssiSample d cfg n bits f = measure
      (ssiShown d cfg n (ssiValue cfg n bits) (wrapN 48 ((d.axis n).n + ssiStep cfg n bits u)) (ssiStep cfg n bits u)) cfg n
      (65536 * wrapN 48 ((d.axis n).n + ssiStep cfg n bits u) + 32768) (ssiInstant cfg n f) := by
  have hprev' : (d.axis n).uPrev.isNone = false := by rw [hprev]; rfl
  rw [ssiSample_of_high hhigh hgray, ssiTarget, ssiMove_of_prev hprev, if_neg (fun h => h.2.1 hlimit), hprev', if_neg Bool.false_ne_true]

theorem frameOver_axis : (frameOver d cfg n).axis n = { d.axis n with frame := none, clk := cfg.bit (F.TRAn_CFG.TYPE n) } :=
  Device.axis_setAxis_self d n.isLt _

theorem frameOver_frame (n : Nat) : SameBut [] [.axes] d (frameOver d cfg n) := (SameBut.refl _ _ d).setAxis _ _ (by simp)

section
variable (u w : Nat) (s : Int)

theorem ssiCounted_frame (n : Nat) : SameBut [R.TRAn_EDGES n] [.axes] d (ssiCounted d cfg n u w s) :=
  (((frameOver_frame n).mono_regs (List.nil_subset _)).setAxis _ _ (by simp)).count _ (by simp)

theorem ssiShown_frame_of_counted (n : Nat) : SameBut [R.TRAn_STATUS n] [] (ssiCounted d cfg n u w s) (ssiShown d cfg n u w s) := by
  unfold ssiShown
  split
  · exact (SameBut.refl _ _ _).setBit _ (by simp)
  · exact ((SameBut.refl _ _ _).setBit _ (by simp)).setBit _ (by simp)

theorem ssiShown_frame (n : Nat) : SameBut [R.TRAn_EDGES n, R.TRAn_STATUS n] [.axes] d (ssiShown d cfg n u w s) :=
  ((ssiCounted_frame u w s n).mono_regs (by simp)).trans ((ssiShown_frame_of_counted u w s n).mono (by simp) (by simp))

theorem ssiShown_axis : (ssiShown d cfg n u w s).axis n =
    { d.axis n with
      frame := none
      clk := cfg.bit (F.TRAn_CFG.TYPE n)
      n := w
      uPrev := some u
      lastNeg := if s = 0 then (d.axis n).lastNeg else some (decide (s < 0)) } := by
  rw [(ssiShown_frame_of_counted u w s n).axis (by simp), ssiCounted, Device.count_axis, Device.axis_setAxis_self _ n.isLt, frameOver_axis]

theorem ssiShown_edges : (ssiShown d cfg n u w s).get (F.TRAn_EDGES.COUNT n) = min (d.get (F.TRAn_EDGES.COUNT n) + 1) 0xFFFFFFFF := by
  rw [(ssiShown_frame_of_counted u w s n).get (by simp), ssiCounted, Device.get_count_saturating _ _ _ (by simp)]
  rfl

/-- What is armed stays so. -/
theorem ssiShown_bit {g : Fld} (ha : g.addr = R.TRAn_STATUS n) (hg : 28 < g.lo) : (ssiShown d cfg n u w s).bit g = d.bit g := by
  have hcounted : (ssiCounted d cfg n u w s).get g = d.get g :=
    (ssiCounted_frame u w s n).get (by rw [ha]; simp)
  have hshown : (ssiShown d cfg n u w s).get g = (ssiCounted d cfg n u w s).get g := by
    unfold ssiShown
    rw [Device.get_setBit, Device.get_set_ne _ _ _ _ (.inr (.inl (show 27 < g.lo by omega)))]
    split
    · rfl
    · rw [Device.get_setBit, Device.get_set_ne _ _ _ _ (.inr (.inl hg))]
  unfold Device.bit
  rw [hshown, hcounted]

end

/-! ## The sample of the end -/

/-- The device at the end of a frame, with the level of its index edge. -/
def frameStart (d : Device) (n : Nat) (z : Option (Bool × Nat)) : Device :=
  withZ d n ((z.filter (fun e => (d.axis n).z != some e.1)).map Prod.fst)

theorem frameStart_frame (n : Nat) (z : Option (Bool × Nat)) : SameBut [] [.axes] d (frameStart d n z) := withZ_frame d n _

theorem frameStart_axis (z : Option (Bool × Nat)) : (frameStart d n z).axis n = { d.axis n with z := (z.map Prod.fst).or (d.axis n).z } := by
  have hmap : (z.filter (fun e => (d.axis n).z != some e.1)).map Prod.fst = zNew d n (z.map Prod.fst) := by
    cases z with
    | none => rfl
    | some e =>
      unfold zNew
      rw [Option.map_some, Option.filter_some, Option.filter_some]
      split <;> rfl
  rw [frameStart, withZ_axis _ n.isLt, hmap, zNew_or]

/-- The end of a frame that no latch sees, before any write of CTRL that its cycle has seen. -/
theorem ssiDoneDev_of_quiet {z : Option (Bool × Nat)} (hframe : (d.axis n).frame = some f)
    (hctl : (d.axis n).ctl.all (fun k => !notBefore d k.t k.cycle (some (ssiEnd (d.asOfTime f.t) n f))) = true)
    (href : z.all (fun e => !zSelected (d.asOfTime f.t) n e.1) = true ∨
      (ssiSample (frameStart d n z) (d.asOfTime f.t) n bits f).bit (F.TRAn_STATUS.REF_ARMED n) = false)
    (hlist : ((ssiSample (frameStart d n z) (d.asOfTime f.t) n bits f).axis n).n = (d.axis n).n ∨
      (ssiSample (frameStart d n z) (d.asOfTime f.t) n bits f).bit (F.TRAn_STATUS.LIST_ARMED n) = false) :
    ssiDoneDev n bits z d = ssiSample (frameStart d n z) (d.asOfTime f.t) n bits f := by
  have hstart := frameStart_axis (d := d) (n := n) z
  have hnone : z.all (fun e => !zSelected (d.asOfTime f.t) n e.1) = true →
      (((z.filter (fun e => (d.axis n).z != some e.1)).filter (fun e => zSelected (d.asOfTime f.t) n e.1)).map Prod.snd) = none := fun hall => by
    cases z with
    | none => rfl
    | some e =>
      rw [Option.all_some, Bool.not_eq_true'] at hall
      rw [Option.filter_some]
      split
      · rw [Option.filter_some, hall, if_neg Bool.false_ne_true, Option.map_none]
      · rfl
  have hdone : ssiDoneDev n bits z d = beforeCtl (frameStart d n z) n (some (ssiEnd (d.asOfTime f.t) n f)) (fun d1 =>
      sampleEnd (ssiSample d1 (d.asOfTime f.t) n bits f) (d.asOfTime f.t) n (d1.axis n).n f.t
        (((z.filter (fun e => (d.axis n).z != some e.1)).filter (fun e => zSelected (d.asOfTime f.t) n e.1)).map Prod.snd)
        (some (ssiEnd (d.asOfTime f.t) n f))) := by
    unfold ssiDoneDev
    rw [hframe]
    rfl
  rw [hdone, beforeCtl_of_before (by rw [hstart]; exact hctl), sampleEnd_of_quiet (href.imp_left hnone) (by rw [hstart]; exact hlist)]

end

/-! ## What the end of a frame leaves -/

section
variable {d : Device} {n : Fin 4} {bits : Nat} {f : SsiFrame} {z : Option (Bool × Nat)}

theorem ssiJumped_frame {cfg : Device} (n : Nat) : SameBut [R.TRAn_SSI_JUMP n, R.TRAn_FLAGS n] [.axes, .evt] d (ssiJumped d cfg n bits) :=
  ((((frameOver_frame n).mono (List.nil_subset _) (by simp)).setAxis _ _ (by simp)).count _ (by simp)).raise (by simp) (by simp)

theorem ssiJumped_axis {cfg : Device} : (ssiJumped d cfg n bits).axis n =
    { d.axis n with frame := none, clk := cfg.bit (F.TRAn_CFG.TYPE n), uPrev := some (ssiValue cfg n bits) } := by
  have hraise : SameBut [R.TRAn_FLAGS n] [.evt] _ (ssiJumped d cfg n bits) := (SameBut.refl _ _ _).raise (by simp) (by simp)
  rw [hraise.axis (by simp) n, Device.count_axis, Device.axis_setAxis_self _ n.isLt, frameOver_axis]

theorem ssiJump_ne_flags (n : Nat) : R.TRAn_SSI_JUMP n ≠ R.TRAn_FLAGS n := by unfold R.TRAn_SSI_JUMP R.TRAn_FLAGS; omega
theorem ssiErr_ne_flags (n : Nat) : R.TRAn_SSI_ERR n ≠ R.TRAn_FLAGS n := by unfold R.TRAn_SSI_ERR R.TRAn_FLAGS; omega

theorem ssiJumped_count {cfg : Device} :
    (ssiJumped d cfg n bits).get (F.TRAn_SSI_JUMP.COUNT n) = min (d.get (F.TRAn_SSI_JUMP.COUNT n) + 1) 0xFFFFFFFF := by
  rw [ssiJumped, Device.get_raise, Device.get_set_ne _ _ _ _ (.inl (ssiJump_ne_flags n)), Device.get_count_saturating _ _ _ (by simp)]
  rfl

/-- A frame whose line was low. -/
def ssiFailed (d cfg : Device) (n : Nat) : Device := ((frameOver d cfg n).count (F.TRAn_SSI_ERR.COUNT n)).raise (F.TRAn_FLAGS.SSI_ERR n)

theorem ssiFailed_frame {cfg : Device} (n : Nat) : SameBut [R.TRAn_SSI_ERR n, R.TRAn_FLAGS n] [.axes, .evt] d (ssiFailed d cfg n) :=
  (((frameOver_frame n).mono (List.nil_subset _) (by simp)).count _ (by simp)).raise (by simp) (by simp)

theorem ssiFailed_axis {cfg : Device} : (ssiFailed d cfg n).axis n = { d.axis n with frame := none, clk := cfg.bit (F.TRAn_CFG.TYPE n) } := by
  have hraise : SameBut [R.TRAn_FLAGS n] [.evt] _ (ssiFailed d cfg n) := (SameBut.refl _ _ _).raise (by simp) (by simp)
  rw [hraise.axis (by simp) n, Device.count_axis, frameOver_axis]

theorem ssiFailed_count {cfg : Device} : (ssiFailed d cfg n).get (F.TRAn_SSI_ERR.COUNT n) = min (d.get (F.TRAn_SSI_ERR.COUNT n) + 1) 0xFFFFFFFF := by
  rw [ssiFailed, Device.get_raise, Device.get_set_ne _ _ _ _ (.inl (ssiErr_ne_flags n)), Device.get_count_saturating _ _ _ (by simp)]
  rfl

/-- The index edge of the frame's end is not the reference, or the latch is not armed. -/
def FrameQuiet (d : Device) (n : Nat) (f : SsiFrame) (z : Option (Bool × Nat)) : Prop :=
  z.all (fun e => !zSelected (d.asOfTime f.t) n e.1) = true ∨ d.bit (F.TRAn_STATUS.REF_ARMED n) = false

/-- No write of CTRL lies in the cycle of the frame's end or later. -/
def FrameFirst (d : Device) (n : Nat) (f : SsiFrame) : Prop :=
  (d.axis n).ctl.all (fun k => !notBefore d k.t k.cycle (some (ssiEnd (d.asOfTime f.t) n f))) = true

section
variable (hframe : (d.axis n).frame = some f) (hquiet : FrameQuiet d n f z) (hfirst : FrameFirst d n f)
include hframe hquiet hfirst

theorem ssiDoneDev_of_low (hlow : f.dataHigh = false) : ssiDoneDev n bits z d = ssiFailed (frameStart d n z) (d.asOfTime f.t) n := by
  have hs : ssiSample (frameStart d n z) (d.asOfTime f.t) n bits f = ssiFailed (frameStart d n z) (d.asOfTime f.t) n := ssiSample_of_low hlow
  have hkept := (ssiFailed_frame (d := frameStart d n z) (cfg := d.asOfTime f.t) n).bit (f := F.TRAn_STATUS.REF_ARMED n)
    (by simp only [List.mem_cons, List.not_mem_nil, or_false, not_or, R.TRAn_STATUS, R.TRAn_SSI_ERR, R.TRAn_FLAGS]; omega)
  rw [ssiDoneDev_of_quiet hframe hfirst (hquiet.imp_right fun hoff => ?_) (.inl ?_), hs]
  · rw [hs, ssiFailed_axis, frameStart_axis]
  · rw [hs, hkept, (frameStart_frame n z).bit (by simp)]
    exact hoff

theorem ssiDoneDev_of_jump {u : Nat} (hhigh : f.dataHigh = true) (hgray : (d.asOfTime f.t).bit (F.TRAn_SSI.GRAY n) = false)
    (hprev : (d.axis n).uPrev = some u) (hlimit : (d.asOfTime f.t).get (F.TRAn_SSI_LAT.JUMP_MAX n) ≠ 0)
    (hjump : (d.asOfTime f.t).get (F.TRAn_SSI_LAT.JUMP_MAX n) < (ssiStep (d.asOfTime f.t) n bits u).natAbs) :
    ssiDoneDev n bits z d = ssiJumped (frameStart d n z) (d.asOfTime f.t) n bits := by
  have hs : ssiSample (frameStart d n z) (d.asOfTime f.t) n bits f = ssiJumped (frameStart d n z) (d.asOfTime f.t) n bits :=
    ssiSample_of_jump hhigh hgray (by rw [frameStart_axis]; exact hprev) hlimit hjump
  have hkept := (ssiJumped_frame (d := frameStart d n z) (cfg := d.asOfTime f.t) (bits := bits) n).bit (f := F.TRAn_STATUS.REF_ARMED n)
    (by simp only [List.mem_cons, List.not_mem_nil, or_false, not_or, R.TRAn_STATUS, R.TRAn_SSI_JUMP, R.TRAn_FLAGS]; omega)
  rw [ssiDoneDev_of_quiet hframe hfirst (hquiet.imp_right fun hoff => ?_) (.inl ?_), hs]
  · rw [hs, ssiJumped_axis, frameStart_axis]
  · rw [hs, hkept, (frameStart_frame n z).bit (by simp)]
    exact hoff

/-- A frame that is taken over while the list is not armed. -/
theorem ssiDoneDev_of_counted {u w : Nat} {k : Int} {m t : Nat} (hlist : d.bit (F.TRAn_STATUS.LIST_ARMED n) = false)
    (hs : ssiSample (frameStart d n z) (d.asOfTime f.t) n bits f =
      measure (ssiShown (frameStart d n z) (d.asOfTime f.t) n u w k) (d.asOfTime f.t) n m t) :
    ssiDoneDev n bits z d = measure (ssiShown (frameStart d n z) (d.asOfTime f.t) n u w k) (d.asOfTime f.t) n m t := by
  have hkept {g : Fld} (ha : g.addr = R.TRAn_STATUS n) (hg : 28 < g.lo) :
      (ssiSample (frameStart d n z) (d.asOfTime f.t) n bits f).bit g = d.bit g := by
    rw [hs, (measure_frame _ _ _ _ _ n).bit (by simp), ssiShown_bit _ _ _ ha hg, (frameStart_frame n z).bit (by simp)]
  rw [ssiDoneDev_of_quiet hframe hfirst (hquiet.imp_right fun hoff => ?_) (.inr ?_), hs]
  · rw [hkept rfl (by simp)]
    exact hlist
  · rw [hkept rfl (by simp)]
    exact hoff

end

/-- What a frame that is taken over leaves. -/
theorem ssiCounted_spec {cfg : Device} (u w : Nat) (k : Int) (m t : Nat) :
    let e := measure (ssiShown (frameStart d n z) cfg n u w k) cfg n m t
    (e.axis n).n = w ∧ (e.axis n).uPrev = some u ∧ (e.axis n).frame = none ∧
    ((d.axis n).initAt.all (fun a => !stampBefore t a) = true →
      (e.axis n).obs = axisMeasure (cfg.get (F.TRAn_CFG.BW n)) (statesBefore (d.axis n) t).1 m t) ∧
    e.get (F.TRAn_EDGES.COUNT n) = min (d.get (F.TRAn_EDGES.COUNT n) + 1) 0xFFFFFFFF ∧
    SameBut [R.TRAn_EDGES n, R.TRAn_STATUS n] [.axes] d e := by
  intro e
  have hframe := measure_frame (ssiShown (frameStart d n z) cfg n u w k) cfg m t false n
  have hcount := measure_sameCount (ssiShown (frameStart d n z) cfg n u w k) cfg m t false n.isLt
  unfold SameCount at hcount
  rw [ssiShown_axis, frameStart_axis] at hcount
  refine ⟨?_, ?_, ?_, fun hinit => ?_, ?_, ?_⟩
  · rw [hcount]
  · rw [hcount]
  · rw [hcount]
  · have hobs := (measure_obs (ssiShown (frameStart d n z) cfg n u w k) cfg m t false n.isLt (by rw [ssiShown_axis, frameStart_axis]; exact hinit)).1
    rw [ssiShown_axis, frameStart_axis] at hobs
    exact hobs
  · rw [hframe.get (by simp), ssiShown_edges, (frameStart_frame n z).get (by simp)]
  · exact ((frameStart_frame n z).mono_regs (List.nil_subset _)).trans ((ssiShown_frame u w k n).trans (hframe.mono_regs (List.nil_subset _)))

end

/-! ## The statement -/

section

variable {d : Device} {n : Fin 4} {a b : Bool} {t : Nat} {z : Option Bool} {k : Int}

/-- A count leaves the bits of every other register. -/
theorem Device.count_bit_ne (d : Device) (f : Fld) (m : Nat) {g : Fld} (h : g.addr ≠ f.addr) : (d.count f m).bit g = d.bit g :=
  ((SameBut.refl [f.addr] [] d).count m (List.mem_singleton_self _)).bit (by simpa using h)

/-- A reversal leaves the status bits other than those of the direction and of standing still. -/
theorem reversed_bit (cfg : Device) {f : Fld} (ha : f.addr = R.TRAn_STATUS n) (hf : f.hi < 27 ∨ 28 < f.lo) :
    (remeasureStill ((stepStart d n a b t z k).count (F.TRAn_REVERSALS.COUNT n)) cfg n t).bit f = d.bit f := by
  rw [(remeasureStill_frame _ _ _ n).bit (by simp), Device.count_bit_ne, stepStart_bit k ha hf]
  rw [ha]
  exact (reversals_ne_status n).symm

/-- A reversal with no list and no latch at work ends its sample so. -/
theorem encoderEdgeDev_of_reversal {held : Nat} (hacc : Accepted d n t held)
    (hq : quadSample (edgeStart d n t z) (d.asOfTime t) n a b t =
      remeasureStill ((stepStart d n a b t z k).count (F.TRAn_REVERSALS.COUNT n)) (d.asOfTime t) n t)
    (hlist : d.bit (F.TRAn_STATUS.LIST_ARMED n) = false)
    (hquiet : z.any (zSelected (d.asOfTime t) n) = false ∨ d.bit (F.TRAn_STATUS.REF_ARMED n) = false) :
    encoderEdgeDev n a b t held z d =
      remeasureStill ((stepStart d n a b t z k).count (F.TRAn_REVERSALS.COUNT n)) (d.asOfTime t) n t := by
  rw [encoderEdgeDev_of_quiet hacc (hquiet.imp_right fun h => ?_) (.inr ?_), hq]
  · rw [hq, reversed_bit _ rfl (by simp)]
    exact hlist
  · rw [hq, reversed_bit _ rfl (by simp)]
    exact h

end

/-- Settles O26: each clause is the case of the sample that its hypotheses select; without a reference edge, and with the list quiet, the sample
ends as it was counted. -/
theorem axisCounting : Obligations.AxisCounting := by
  unfold Obligations.AxisCounting
  refine ⟨fun n a b t held z s hshort => ?_, fun n a b t held z y s hoff hacc hquiet => ?_, fun n a b t held z y s hdec hacc hquiet => ?_,
    fun n a b t held z y k s hdec hacc hstep hlast hquiet => ?_, fun n a b t held z y k s hdec hacc hstep hlast hquiet => ?_,
    fun n g t s hlive => ?_, fun n a b t held z s hreset => ?_, fun n bits z fr s hlow hquiet hfirst => ?_,
    fun n bits z fr s hgood hgray hquiet hfirst => ?_, fun n bits z fr u s hgood hcfg hjump hquiet hfirst => ?_,
    fun n bits z fr u t k s hgood hcfg hk ht hquiet hfirst => ?_⟩
  · exact ⟨_, exec_encoderEdge n a b t held z s, encoderEdgeDev_of_short hshort⟩
  · obtain ⟨hheld, rfl, hctl, hlive⟩ := hacc
    have hacc : Accepted s.dev n t held := ⟨hheld, hctl, hlive⟩
    have hstart := edgeStart_axis s.dev t z n.isLt
    have hq : quadSample (edgeStart s.dev n t z) (s.dev.asOfTime t) n a b t = bothStart s.dev n a b t z := quadSample_of_off hoff
    have hframe := bothStart_frame (d := s.dev) (a := a) (b := b) (t := t) (z := z) n
    refine ⟨bothStart s.dev n a b t z, ?_, bothStart_axis, hframe⟩
    rw [exec_encoderEdge, encoderEdgeDev_of_quiet hacc (hquiet.imp_right fun h => ?_) (.inl ?_), hq]
    · rfl
    · rw [hq, bothStart_axis]
    · rw [hq, hframe.bit (by simp)]
      exact h
  · obtain ⟨hen, htype, hheld⟩ := hdec
    obtain ⟨rfl, ha, hb, hctl, hlive⟩ := hacc
    refine ⟨_, exec_encoderEdge n a b t held z s, ?_⟩
    rw [encoderEdgeDev_of_both ⟨hheld, hctl, hlive⟩ ⟨hen, htype⟩ ⟨ha, hb⟩ hquiet]
    exact both_spec rfl
  · obtain ⟨hen, htype, hheld⟩ := hdec
    obtain ⟨rfl, hctl, hlive⟩ := hacc
    obtain ⟨hk, hne⟩ := hstep
    obtain ⟨hforward, hlist⟩ := hlast
    have hq := quadSample_edgeStart_of_step (z := z) ⟨hen, htype⟩ hk hne hforward
    refine ⟨_, exec_encoderEdge n a b t held z s, ?_⟩
    rw [encoderEdgeDev_of_quiet ⟨hheld, hctl, hlive⟩ (hquiet.imp_right fun h => ?_) (.inr ?_), hq]
    · exact step_spec rfl
    · rw [hq, (measure_frame _ _ _ _ _ n).bit (by simp), stepStart_bit k rfl (by simp)]
      exact hlist
    · rw [hq, (measure_frame _ _ _ _ _ n).bit (by simp), stepStart_bit k rfl (by simp)]
      exact h
  · obtain ⟨hen, htype, hheld⟩ := hdec
    obtain ⟨rfl, hctl, hlive⟩ := hacc
    obtain ⟨hk, hne⟩ := hstep
    obtain ⟨hback, hlist⟩ := hlast
    have hq := quadSample_edgeStart_of_reversal (z := z) ⟨hen, htype⟩ hk hne hback
    refine ⟨_, exec_encoderEdge n a b t held z s, ?_⟩
    rw [encoderEdgeDev_of_reversal ⟨hheld, hctl, hlive⟩ hq hlist hquiet]
    exact reversal_spec rfl
  · exact ⟨_, exec_ssiFrameStart n g t s, ssiStartDev_axis g t hlive, ssiStartDev_frame g t⟩
  · obtain ⟨hheld, hreset, hsame⟩ := hreset
    refine ⟨_, exec_encoderEdge n a b t held z s, ?_⟩
    rw [encoderEdgeDev_of_reset hheld hreset]
    refine ⟨?_, ((SameBut.refl _ _ _).setAxis _ _ (by simp)).trans (withZ_frame _ _ _)⟩
    have hz := zNew_or (axisCatch s.dev n t) n z
    rw [hsame] at hz
    rw [withZ_axis _ n.isLt, Device.axis_setAxis_self _ n.isLt]
    exact congrArg (fun l => ({ s.dev.axis n with a := a, b := b, z := l } : Axis)) hz
  · obtain ⟨hframe, hlow⟩ := hlow
    refine ⟨_, exec_ssiFrameDone n bits z s, ?_⟩
    rw [ssiDoneDev_of_low hframe hquiet hfirst hlow]
    refine ⟨?_, ?_, Device.get_raise_self _ _ rfl (by simp), ((frameStart_frame n z).mono (List.nil_subset _) (by simp)).trans (ssiFailed_frame n)⟩
    · rw [ssiFailed_axis, frameStart_axis]
    · rw [ssiFailed_count, (frameStart_frame n z).get (by simp)]
  · obtain ⟨hframe, hhigh, hprev, hlist⟩ := hgood
    refine ⟨_, exec_ssiFrameDone n bits z s, ?_⟩
    rw [ssiDoneDev_of_counted hframe hquiet hfirst hlist (ssiSample_of_first hhigh hgray (by rw [frameStart_axis]; exact hprev))]
    obtain ⟨hn, hu, hnone, -, hedges, hkept⟩ := ssiCounted_spec (d := s.dev) (n := n) (z := z) (cfg := s.dev.asOfTime fr.t)
      (ssiValue (s.dev.asOfTime fr.t) n bits) (ssiValue (s.dev.asOfTime fr.t) n bits) 0 (65536 * ssiValue (s.dev.asOfTime fr.t) n bits + 32768)
      (ssiInstant (s.dev.asOfTime fr.t) n fr)
    exact ⟨hn, by rw [hu, hn], hnone, hedges, hkept⟩
  · obtain ⟨hframe, hhigh, hprev⟩ := hgood
    refine ⟨_, exec_ssiFrameDone n bits z s, ?_⟩
    rw [ssiDoneDev_of_jump hframe hquiet hfirst hhigh hcfg.1 hprev hcfg.2 hjump]
    refine ⟨?_, ?_, Device.get_raise_self _ _ rfl (by simp), ((frameStart_frame n z).mono (List.nil_subset _) (by simp)).trans (ssiJumped_frame n)⟩
    · rw [ssiJumped_axis, frameStart_axis]
      rfl
    · rw [ssiJumped_count, (frameStart_frame n z).get (by simp)]
  · obtain ⟨hframe, hhigh, hprev, hlist⟩ := hgood
    have hn := congrArg Axis.n (frameStart_axis (d := s.dev) (n := n) z)
    refine ⟨_, exec_ssiFrameDone n bits z s, ?_⟩
    rw [ssiDoneDev_of_counted hframe hquiet hfirst hlist (ssiSample_of_step hhigh hcfg.1 (by rw [frameStart_axis]; exact hprev) hcfg.2), hn]
    subst hk ht
    obtain ⟨hn, hu, -, hobs, hedges, hkept⟩ := ssiCounted_spec (d := s.dev) (n := n) (z := z) (cfg := s.dev.asOfTime fr.t)
      (ssiValue (s.dev.asOfTime fr.t) n bits) (wrapN 48 ((s.dev.axis n).n + ssiStep (s.dev.asOfTime fr.t) n bits u))
      (ssiStep (s.dev.asOfTime fr.t) n bits u) (65536 * wrapN 48 ((s.dev.axis n).n + ssiStep (s.dev.asOfTime fr.t) n bits u) + 32768)
      (ssiInstant (s.dev.asOfTime fr.t) n fr)
    exact ⟨hn, hu, fun hinit => by rw [hobs hinit, hn]; rfl, hedges, hkept⟩

end Sys2Proof.Machine

/-! # Reference latch and list of an axis

What a reference edge latches and homes, and what a step onto the last entry of a list does (R238, R239). -/

namespace Sys2Proof.Machine

theorem exec_zEdge (n : Fin 4) (rising : Bool) (t held : Nat) (s : State) :
    exec (.zEdge n rising t held) s = s.done (zEdgeDev n rising t held s.dev) := rfl
theorem exec_qerrWindowEnd (n : Fin 4) (s : State) : exec (.qerrWindowEnd n) s = s.done (qerrWindowDev n s.dev) := rfl
theorem exec_standstillMeas (n : Fin 4) (s : State) : exec (.standstillMeas n) s = s.done (standstillDev n s.dev) := rfl

/-! ## The reference latch -/

/-- The registers of the reference latch. -/
abbrev refRegs (n : Nat) : List Nat :=
  [R.TRAn_REF_CNT_LO n, R.TRAn_REF_CNT_HI n, R.TRAn_REF_TIME_LO n, R.TRAn_REF_TIME_HI n, R.TRAn_STATUS n, R.TRAn_FLAGS n]

/-- N and the time latched, the latch disarmed. -/
def latched (d : Device) (n t : Nat) : Device :=
  ((((d.setPair (R.TRAn_REF_CNT_LO n) (R.TRAn_REF_CNT_HI n) (d.axis n).n).setPair (R.TRAn_REF_TIME_LO n) (R.TRAn_REF_TIME_HI n) t).setBit
    (F.TRAn_STATUS.REF_ARMED n) false).raise (F.TRAn_FLAGS.REF_LATCH n))

/-- N moved to REF_VAL. -/
def homed (d cfg : Device) (n : Nat) (x : Axis) : Device :=
  (d.setAxis n { x with
    n := refVal cfg n
    obs := shiftObs (((refVal cfg n : Int) - x.n) * 65536) x.obs
    past := x.past.map (shiftObs (((refVal cfg n : Int) - x.n) * 65536)) }).setBit (F.TRAn_STATUS.UNCERTAIN n) false

section
variable {d cfg : Device} {n t : Nat}

theorem refLatch_of_armed (h : d.bit (F.TRAn_STATUS.REF_ARMED n) = true) (hhome : cfg.bit (F.TRAn_REF.HOME n) = false) :
    refLatch d cfg n t = latched d n t :=
  (if_neg (not_not_intro h)).trans (if_pos (ne_true_of_eq_false hhome))

theorem refLatch_of_home (h : d.bit (F.TRAn_STATUS.REF_ARMED n) = true) (hhome : cfg.bit (F.TRAn_REF.HOME n) = true)
    (hsource : sourceAxis cfg n = false) : refLatch d cfg n t = homed (latched d n t) cfg n (d.axis n) :=
  (if_neg (not_not_intro h)).trans ((if_neg (not_not_intro hhome)).trans (if_neg (ne_true_of_eq_false hsource)))

theorem latched_frame : SameBut (refRegs n) [.evt] d (latched d n t) :=
  ((((SameBut.refl _ _ d).setPair _ (by simp) (by simp)).setPair _ (by simp) (by simp)).setBit _ (by simp)).raise (by simp) (by simp)

theorem latched_axis (k : Nat) : (latched d n t).axis k = d.axis k := latched_frame.axis (by simp) k

theorem latched_pairs_kept {e : Device} (h : SameBut [R.TRAn_STATUS n, R.TRAn_FLAGS n] [.evt, .axes] (latched d n t) e) :
    e.pair (R.TRAn_REF_CNT_LO n) (R.TRAn_REF_CNT_HI n) = (d.axis n).n % 2 ^ 64 ∧
    e.pair (R.TRAn_REF_TIME_LO n) (R.TRAn_REF_TIME_HI n) = t % 2 ^ 64 := by
  have hend : SameBut [R.TRAn_STATUS n, R.TRAn_FLAGS n] [.evt, .axes]
      ((d.setPair (R.TRAn_REF_CNT_LO n) (R.TRAn_REF_CNT_HI n) (d.axis n).n).setPair (R.TRAn_REF_TIME_LO n) (R.TRAn_REF_TIME_HI n) t) e :=
    (((SameBut.refl _ _ _).setBit _ (by simp)).raise (by simp) (by simp)).trans h
  have htime : SameBut [R.TRAn_REF_TIME_LO n, R.TRAn_REF_TIME_HI n] [] (d.setPair (R.TRAn_REF_CNT_LO n) (R.TRAn_REF_CNT_HI n) (d.axis n).n) _ :=
    (SameBut.refl _ _ _).setPair (lo := R.TRAn_REF_TIME_LO n) (hi := R.TRAn_REF_TIME_HI n) t (by simp) (by simp)
  constructor
  · rw [hend.pair (by simp [R.TRAn_REF_CNT_LO, R.TRAn_STATUS, R.TRAn_FLAGS]) (by simp [R.TRAn_REF_CNT_HI, R.TRAn_STATUS, R.TRAn_FLAGS]),
      htime.pair (by simp [R.TRAn_REF_CNT_LO, R.TRAn_REF_TIME_LO, R.TRAn_REF_TIME_HI])
        (by simp [R.TRAn_REF_CNT_HI, R.TRAn_REF_TIME_LO, R.TRAn_REF_TIME_HI]),
      Device.pair_setPair_self _ (by simp [R.TRAn_REF_CNT_LO, R.TRAn_REF_CNT_HI])]
  · rw [hend.pair (by simp [R.TRAn_REF_TIME_LO, R.TRAn_STATUS, R.TRAn_FLAGS]) (by simp [R.TRAn_REF_TIME_HI, R.TRAn_STATUS, R.TRAn_FLAGS]),
      Device.pair_setPair_self _ (by simp [R.TRAn_REF_TIME_LO, R.TRAn_REF_TIME_HI])]

theorem latched_disarmed : (latched d n t).get (F.TRAn_STATUS.REF_ARMED n) = 0 := by
  rw [latched, Device.get_raise, Device.get_set_ne _ _ _ _ (.inl (status_ne_flags n)), Device.get_setBit, Device.get_set_self _ _ _ (by simp)]
  simp

theorem latched_flag : (latched d n t).get (F.TRAn_FLAGS.REF_LATCH n) = 1 := Device.get_raise_self _ _ rfl (by simp)

/-- The latch keeps the status but its own bit. -/
theorem latched_status {f : Fld} (ha : f.addr = R.TRAn_STATUS n) (hf : f.hi < 30 ∨ 30 < f.lo) : (latched d n t).get f = d.get f := by
  rw [latched, Device.get_raise, Device.get_set_ne _ _ _ _ (.inl (by rw [ha]; exact status_ne_flags n)), Device.get_setBit,
    Device.get_set_ne _ _ _ _ (.inr hf.symm)]
  have hpairs : SameBut [R.TRAn_REF_CNT_LO n, R.TRAn_REF_CNT_HI n, R.TRAn_REF_TIME_LO n, R.TRAn_REF_TIME_HI n] [] d
      ((d.setPair (R.TRAn_REF_CNT_LO n) (R.TRAn_REF_CNT_HI n) (d.axis n).n).setPair (R.TRAn_REF_TIME_LO n) (R.TRAn_REF_TIME_HI n) t) :=
    ((SameBut.refl _ _ d).setPair _ (by simp) (by simp)).setPair _ (by simp) (by simp)
  exact hpairs.get (by
    rw [ha]
    simp [R.TRAn_STATUS, R.TRAn_REF_CNT_LO, R.TRAn_REF_CNT_HI, R.TRAn_REF_TIME_LO, R.TRAn_REF_TIME_HI])

theorem latched_bit {f : Fld} (ha : f.addr = R.TRAn_STATUS n) (hf : f.hi < 30 ∨ 30 < f.lo) : (latched d n t).bit f = d.bit f := by
  unfold Device.bit
  rw [latched_status ha hf]

theorem homed_frame (x : Axis) : SameBut [R.TRAn_STATUS n] [.axes] d (homed d cfg n x) :=
  ((SameBut.refl _ _ d).setAxis _ _ (by simp)).setBit _ (by simp)

theorem homed_axis (hn : n < 4) (x : Axis) : (homed d cfg n x).axis n =
    { x with
      n := refVal cfg n
      obs := shiftObs (((refVal cfg n : Int) - x.n) * 65536) x.obs
      past := x.past.map (shiftObs (((refVal cfg n : Int) - x.n) * 65536)) } :=
  Device.axis_setAxis_self d hn _

theorem homed_uncertain (x : Axis) : (homed d cfg n x).get (F.TRAn_STATUS.UNCERTAIN n) = 0 := by
  rw [homed, Device.get_setBit, Device.get_set_self _ _ _ (by simp)]
  simp

theorem homed_status (x : Axis) {f : Fld} (hf : f.hi < 31) : (homed d cfg n x).get f = d.get f := by
  rw [homed, Device.get_setBit, Device.get_set_ne _ _ _ _ (.inr (.inr hf))]
  rfl

theorem homed_bit (x : Axis) {f : Fld} (hf : f.hi < 31) : (homed d cfg n x).bit f = d.bit f := by
  unfold Device.bit
  rw [homed_status x hf]

end

/-! ## Samples of an index edge -/

section
variable {d : Device} {n : Fin 4} {rising : Bool} {t held : Nat}

theorem zEdgeDev_of_short (h : held ≤ (d.asOfTime t).get (F.TRAn_CFG.FILT n)) :
    zEdgeDev n rising t held d = withZ d n (if (d.axis n).z.isNone then some (!rising) else none) := by
  obtain ⟨v, hv⟩ := axisCatch_eq d n t
  unfold zEdgeDev
  dsimp only
  rw [hv, Device.withAxes_asOfTime]
  exact if_pos h

/-- An edge to the accepted level, or one that the axis does not select, moves the level alone. -/
theorem zEdgeDev_of_unselected (hheld : (d.asOfTime t).get (F.TRAn_CFG.FILT n) < held)
    (h : zSelected (d.asOfTime t) n rising = false ∨ ((axisCatch d n t).axis n).z = some rising) :
    zEdgeDev n rising t held d = withZ d n (zNew (axisCatch d n t) n (some rising)) := by
  obtain ⟨v, hv⟩ := axisCatch_eq d n t
  unfold zEdgeDev
  dsimp only
  rw [hv, Device.withAxes_asOfTime, if_neg (show ¬ held ≤ ((d.asOfTime t).withAxes v).get (F.TRAn_CFG.FILT n) from Nat.not_le.2 hheld), if_pos]
  rw [hv] at h
  rcases h with h | h
  · exact .inr (.inl (ne_true_of_eq_false h))
  · refine .inl ?_
    rw [zNew, h, Option.filter_some_neg (by simp)]
    rfl

/-- An edge that the axis selects is a sample of its own. -/
theorem zEdgeDev_of_selected (hheld : (d.asOfTime t).get (F.TRAn_CFG.FILT n) < held) (hsel : zSelected (d.asOfTime t) n rising = true)
    (hnew : ((axisCatch d n t).axis n).z ≠ some rising) (hlive : d.resetting 5 = false) :
    zEdgeDev n rising t held d = beforeCtl (edgeStart d n t (some rising)) n (some (acceptedAt (d.asOfTime t) n t))
      (fun d1 => refEdge d1 (d.asOfTime t) n t (some (acceptedAt (d.asOfTime t) n t))) := by
  obtain ⟨v, hv⟩ := axisCatch_eq d n t
  have hedge : zNew (axisCatch d n t) n (some rising) = some rising := Option.filter_some_pos (by simpa using hnew)
  unfold edgeStart zEdgeDev
  dsimp only
  rw [hedge, hv, Device.withAxes_asOfTime, if_neg (show ¬ held ≤ ((d.asOfTime t).withAxes v).get (F.TRAn_CFG.FILT n) from Nat.not_le.2 hheld), if_neg]
  · rfl
  · rintro (h | h | h)
    · exact Bool.false_ne_true h
    · exact h hsel
    · exact Bool.false_ne_true (hlive.symm.trans h)

theorem zEdgeDev_of_accepted (hacc : Accepted d n t held) (hsel : zSelected (d.asOfTime t) n rising = true)
    (hnew : ((axisCatch d n t).axis n).z ≠ some rising) :
    zEdgeDev n rising t held d =
      refEdge (edgeStart d n t (some rising)) (d.asOfTime t) n t (some (acceptedAt (d.asOfTime t) n t)) := by
  rw [zEdgeDev_of_selected hacc.held hsel hnew hacc.live, beforeCtl_of_before (by rw [edgeStart_axis d t _ n.isLt]; exact hacc.ctl)]

/-- A reference edge whose change of N meets no list. -/
theorem refEdge_of_quiet {cfg : Device} (te : Option Nat)
    (h : (d.axis n).n = ((refLatch d cfg n t).axis n).n ∨ (refLatch d cfg n t).bit (F.TRAn_STATUS.LIST_ARMED n) = false) :
    refEdge d cfg n t te = refLatch d cfg n t :=
  listCompare_of_quiet h t te

/-- The latch alone. -/
theorem zEdgeDev_of_latch (hacc : Accepted d n t held) (hsel : zSelected (d.asOfTime t) n rising = true)
    (hnew : ((axisCatch d n t).axis n).z ≠ some rising)
    (harmed : d.bit (F.TRAn_STATUS.REF_ARMED n) = true) (hhome : (d.asOfTime t).bit (F.TRAn_REF.HOME n) = false) :
    zEdgeDev n rising t held d = latched (edgeStart d n t (some rising)) n t := by
  have hl : refLatch (edgeStart d n t (some rising)) (d.asOfTime t) n t = latched (edgeStart d n t (some rising)) n t :=
    refLatch_of_armed (by rw [(edgeStart_frame d t _ n).bit (by simp)]; exact harmed) hhome
  rw [zEdgeDev_of_accepted hacc hsel hnew, refEdge_of_quiet _ (.inl _), hl]
  rw [hl, latched_axis]

/-- The latch with homing. -/
theorem zEdgeDev_of_home (hacc : Accepted d n t held) (hsel : zSelected (d.asOfTime t) n rising = true)
    (hnew : ((axisCatch d n t).axis n).z ≠ some rising)
    (harmed : d.bit (F.TRAn_STATUS.REF_ARMED n) = true) (hhome : (d.asOfTime t).bit (F.TRAn_REF.HOME n) = true)
    (hsource : sourceAxis (d.asOfTime t) n = false) (hlist : d.bit (F.TRAn_STATUS.LIST_ARMED n) = false) :
    zEdgeDev n rising t held d = homed (latched (edgeStart d n t (some rising)) n t) (d.asOfTime t) n ((edgeStart d n t (some rising)).axis n) := by
  have hkept {f : Fld} : (edgeStart d n t (some rising)).bit f = d.bit f := (edgeStart_frame d t _ n).bit (by simp)
  have hl : refLatch (edgeStart d n t (some rising)) (d.asOfTime t) n t =
      homed (latched (edgeStart d n t (some rising)) n t) (d.asOfTime t) n ((edgeStart d n t (some rising)).axis n) :=
    refLatch_of_home (hkept.trans harmed) hhome hsource
  rw [zEdgeDev_of_accepted hacc hsel hnew, refEdge_of_quiet _ (.inr _), hl]
  rw [hl, homed_bit _ (by simp), latched_bit rfl (by simp)]
  exact hkept.trans hlist

end

end Sys2Proof.Machine

/-! # A forward step that meets the index edge or the list

What a sample leaves whose step goes forward: the latch of its index edge, or the last entry of its list (R238 to R240). -/

namespace Sys2Proof.Machine

/-! ## A forward step -/

section
variable {d : Device} {n : Fin 4} {a b : Bool} {t held : Nat} {z : Option Bool}

/-- The device after steps 1 and 2 of a sample that goes one step forward. -/
structure ForwardStep (d : Device) (n t : Nat) (e : Device) : Prop where
  n_eq : (e.axis n).n = wrapN 48 (((axisCatch d n t).axis n).n + 1 : Nat)
  listOld : (e.axis n).listOld = ((axisCatch d n t).axis n).listOld
  status : ∀ f : Fld, f.addr = R.TRAn_STATUS n → f.hi < 27 ∨ 28 < f.lo → e.get f = d.get f
  frame : SameBut [R.TRAn_EDGES n, R.TRAn_REVERSALS n, R.TRAn_STATUS n] [.axes] d e

theorem ForwardStep.bit {e : Device} (h : ForwardStep d n t e) {f : Fld} (ha : f.addr = R.TRAn_STATUS n) (hf : f.hi < 27 ∨ 28 < f.lo) :
    e.bit f = d.bit f := by
  unfold Device.bit
  rw [h.status f ha hf]

theorem stepStart_get (k : Int) {f : Fld} (ha : f.addr = R.TRAn_STATUS n) (hf : f.hi < 27 ∨ 28 < f.lo) :
    (stepStart d n a b t z k).get f = d.get f :=
  (stepped_status k ha hf).trans ((edgeStart_frame d t z n).get List.not_mem_nil)

/-- A measurement after a forward step, counted as a reversal or not. -/
theorem forwardStep_of_measured {x e : Device} (hx : x = stepStart d n a b t z 1 ∨ x = (stepStart d n a b t z 1).count (F.TRAn_REVERSALS.COUNT n))
    (hcount : SameCount n x e) (hframe : SameBut [] [.axes] x e) : ForwardStep d n t e := by
  have hsub : [R.TRAn_EDGES n.val, R.TRAn_STATUS n.val] ⊆ [R.TRAn_EDGES n.val, R.TRAn_REVERSALS n.val, R.TRAn_STATUS n.val] := by simp
  have hstart := (stepStart_frame (d := d) (a := a) (b := b) (t := t) (z := z) n 1).mono_regs hsub
  have haxis : x.axis n = (stepStart d n a b t z 1).axis n := by
    rcases hx with rfl | rfl
    · rfl
    · exact Device.count_axis _ _ _ _
  unfold SameCount at hcount
  rw [haxis, stepStart_axis] at hcount
  refine ⟨?_, ?_, fun f ha hf => ?_, SameBut.trans ?_ (hframe.mono_regs (List.nil_subset _))⟩
  · rw [hcount, Nat.cast_add, Nat.cast_one]
  · rw [hcount]
  · rw [hframe.get (by simp)]
    rcases hx with rfl | rfl
    · exact stepStart_get 1 ha hf
    · rw [Device.get_count, Device.get_set_ne _ _ _ _ (.inl (by rw [ha]; exact (reversals_ne_status n).symm)), stepStart_get 1 ha hf]
  · rcases hx with rfl | rfl
    · exact hstart
    · exact hstart.count _ (by simp)

theorem quadSample_forward (hdec : decodes (d.asOfTime t) n) (hforward : (d.asOfTime t).bit (F.TRAn_CFG.REVERSE n) = false)
    (hstep : quadStep ((axisCatch d n t).axis n).a ((axisCatch d n t).axis n).b a b = 1) :
    ForwardStep d n t (quadSample (edgeStart d n t z) (d.asOfTime t) n a b t) := by
  have hk : (1 : Int) = (if (d.asOfTime t).bit (F.TRAn_CFG.REVERSE n) then -1 else 1) *
      quadStep ((axisCatch d n t).axis n).a ((axisCatch d n t).axis n).b a b := by
    rw [hforward, hstep]
    rfl
  by_cases hlast : ((axisCatch d n t).axis n).lastNeg = some (decide ((0 : Int) < 1))
  · rw [quadSample_edgeStart_of_reversal (z := z) hdec hk one_ne_zero hlast]
    exact forwardStep_of_measured (.inr rfl) (remeasureStill_sameCount _ _ _ n.isLt) (remeasureStill_frame _ _ _ n)
  · rw [quadSample_edgeStart_of_step (z := z) hdec hk one_ne_zero hlast]
    exact forwardStep_of_measured (.inl rfl) (measure_sameCount _ _ _ _ _ n.isLt) (measure_frame _ _ _ _ _ n)

/-! ## The index edge of the sample -/

/-- A sample with an index edge that latches, the list disarmed. -/
theorem sampleEnd_of_latch {cfg : Device} {o : Nat} (harmed : d.bit (F.TRAn_STATUS.REF_ARMED n) = true) (hhome : cfg.bit (F.TRAn_REF.HOME n) = false)
    (hlist : d.bit (F.TRAn_STATUS.LIST_ARMED n) = false) (te : Option Nat) : sampleEnd d cfg n o t (some t) te = latched d n t := by
  have hoff : (latched d n t).bit (F.TRAn_STATUS.LIST_ARMED n) = false := (latched_bit rfl (by simp)).trans hlist
  unfold sampleEnd
  dsimp only
  rw [refLatch_of_armed harmed hhome, listCompare_of_quiet (.inr hoff), listCompare_of_quiet (.inr hoff)]

/-- The registers of a step and of the latch. -/
abbrev stepRefRegs (n : Nat) : List Nat :=
  [R.TRAn_EDGES n, R.TRAn_REVERSALS n, R.TRAn_REF_CNT_LO n, R.TRAn_REF_CNT_HI n, R.TRAn_REF_TIME_LO n, R.TRAn_REF_TIME_HI n, R.TRAn_STATUS n,
    R.TRAn_FLAGS n]

/-- A step with an index edge latches N after the step. -/
theorem encoderEdgeDev_of_latch (hacc : Accepted d n t held) (hdec : decodes (d.asOfTime t) n)
    (hforward : (d.asOfTime t).bit (F.TRAn_CFG.REVERSE n) = false)
    (hstep : quadStep ((axisCatch d n t).axis n).a ((axisCatch d n t).axis n).b a b = 1)
    (hlist : d.bit (F.TRAn_STATUS.LIST_ARMED n) = false)
    (hz : z.any (fun l => zSelected (d.asOfTime t) n l && ((axisCatch d n t).axis n).z != some l) = true)
    (harmed : d.bit (F.TRAn_STATUS.REF_ARMED n) = true) (hhome : (d.asOfTime t).bit (F.TRAn_REF.HOME n) = false) :
    ∃ x, ForwardStep d n t x ∧ encoderEdgeDev n a b t held z d = latched x n t := by
  have hx := quadSample_forward (z := z) hdec hforward hstep
  refine ⟨_, hx, ?_⟩
  rw [encoderEdgeDev_of_accepted hacc, sampleRef, if_pos (by rw [any_zNew]; exact hz),
    sampleEnd_of_latch ((hx.bit rfl (by simp)).trans harmed) hhome ((hx.bit rfl (by simp)).trans hlist)]

/-! ## The last entry of the list -/

/-- The list fires its last entry and ends. -/
def listLast (d : Device) (n t : Nat) : Device := listEnd (listFire d n t) n

theorem countBelow_succ (o : Nat) : countBelow o ((o + 1) % 2 ^ 48) = true := by
  have hx : ((o + 1) % 2 ^ 48 + 2 ^ 48 - o % 2 ^ 48) % 2 ^ 48 = 1 := by omega
  unfold countBelow
  rw [hx]
  decide

theorem countBelow_self (e : Nat) : countBelow e e = false := by
  have hx : (e + 2 ^ 48 - e % 2 ^ 48) % 2 ^ 48 = 0 := by omega
  unfold countBelow
  rw [hx]
  rfl

theorem wrapN_natCast (w k : Nat) : wrapN w (k : Nat) = k % 2 ^ w := by
  unfold wrapN
  omega

/-- An upward step onto an entry passes it. -/
theorem listPassed_of_reached (o : Nat) : listPassed false ((o + 1) % 2 ^ 48) o ((o + 1) % 2 ^ 48) = true := by
  rw [listPassed, if_neg Bool.false_ne_true, countBelow_succ, countBelow_self]
  rfl

/-- A number's low digits are those of its first bytes. -/
theorem Device.num_mod (d : Device) (m k : Nat) : ∀ a, d.num a (m + k) % 256 ^ m = d.num a m := by
  induction m with
  | zero => exact fun _ => Nat.mod_one _
  | succ m ih =>
    intro a
    have hstep (j : Nat) : d.num a (j + 1) = (d.byte a).toNat + 256 * d.num (a + 1) j := rfl
    rw [Nat.add_right_comm, hstep, hstep, pow_succ', Nat.mod_mul, ← ih (a + 1), Nat.add_mul_mod_self_left, Nat.add_mul_div_left _ _ (by decide),
      Nat.mod_eq_of_lt (d.byte a).isLt, Nat.div_eq_of_lt (d.byte a).isLt, Nat.zero_add]

/-- The list that a step reaches the last entry of. -/
structure AtLastEntry (d : Device) (n : Nat) : Prop where
  armed : d.bit (F.TRAn_STATUS.LIST_ARMED n) = true
  len : d.get (F.TRAn_LIST_CFG.LEN_M1 n) = 0
  wrap : d.bit (F.TRAn_LIST_CFG.WRAP n) = false
  dir : d.bit (F.TRAn_LIST_CFG.DIR n) = false
  ptr : d.get (F.TRAn_STATUS.LIST_PTR n) = d.get (F.TRAn_LIST_CFG.START n)

theorem listCompare_of_last {o : Nat} {te : Option Nat} (h : AtLastEntry d n) (hold : (d.axis n).listOld = [])
    (hentry : d.num (listAddr n (d.get (F.TRAn_LIST_CFG.START n))) 6 = (o + 1) % 2 ^ 48) :
    listCompare d n o ((o + 1) % 2 ^ 48) t te = listLast d n t := by
  have hlast : d.get (F.TRAn_LIST_CFG.START n) = (d.get (F.TRAn_LIST_CFG.START n) + d.get (F.TRAn_LIST_CFG.LEN_M1 n)) % 4096 := by
    have hlt : d.get (F.TRAn_LIST_CFG.START n) < 4096 := d.get_lt (F.TRAn_LIST_CFG.START n)
    rw [h.len, Nat.add_zero, Nat.mod_eq_of_lt hlt]
  have hread : listEntry d n (d.get (F.TRAn_LIST_CFG.START n)) te = d.num (listAddr n (d.get (F.TRAn_LIST_CFG.START n))) 8 := by
    unfold listEntry
    rw [hold]
    rfl
  have hpassed : listPassed (d.bit (F.TRAn_LIST_CFG.DIR n)) (listEntry d n (d.get (F.TRAn_LIST_CFG.START n)) te % 2 ^ 48) o ((o + 1) % 2 ^ 48) = true := by
    have hlow : d.num (listAddr n (d.get (F.TRAn_LIST_CFG.START n))) 8 % 2 ^ 48 = (o + 1) % 2 ^ 48 := (d.num_mod 6 2 _).trans hentry
    rw [hread, hlow, h.dir]
    exact listPassed_of_reached o
  unfold listCompare listScan
  dsimp only
  rw [if_neg (by omega), if_neg (not_not_intro h.armed), h.ptr, if_neg (not_not_intro hpassed), if_pos hlast, h.wrap, if_neg Bool.false_ne_true]
  exact ite_self _

/-- Without a reference edge that counts, list compare takes the change of N alone. -/
theorem sampleEnd_of_unlatched {cfg : Device} {o : Nat} {ref te : Option Nat} (h : ref = none ∨ d.bit (F.TRAn_STATUS.REF_ARMED n) = false) :
    sampleEnd d cfg n o t ref te = listCompare d n o (d.axis n).n t te := by
  have hsecond (e : Device) (m : Nat) : listCompare e n (d.axis n).n (d.axis n).n m te = e := listCompare_of_quiet (.inl rfl) m te
  cases ref with
  | none => exact hsecond _ _
  | some tr =>
    unfold sampleEnd
    dsimp only
    rw [refLatch_of_disarmed (h.resolve_left (by simp)), hsecond]

/-- A step onto the last entry, without a reference edge that counts. -/
theorem encoderEdgeDev_of_last (hacc : Accepted d n t held) (hdec : decodes (d.asOfTime t) n)
    (hforward : (d.asOfTime t).bit (F.TRAn_CFG.REVERSE n) = false)
    (hstep : quadStep ((axisCatch d n t).axis n).a ((axisCatch d n t).axis n).b a b = 1)
    (hz : z.any (zSelected (d.asOfTime t) n) = false ∨ d.bit (F.TRAn_STATUS.REF_ARMED n) = false)
    (hlast : AtLastEntry d n) (hold : ((axisCatch d n t).axis n).listOld = [])
    (hentry : d.num (listAddr n (d.get (F.TRAn_LIST_CFG.START n))) 6 = wrapN 48 (((axisCatch d n t).axis n).n + 1 : Nat)) :
    ∃ x, ForwardStep d n t x ∧ encoderEdgeDev n a b t held z d = listLast x n t := by
  have hx := quadSample_forward (z := z) hdec hforward hstep
  refine ⟨_, hx, ?_⟩
  rw [encoderEdgeDev_of_accepted hacc]
  generalize quadSample (edgeStart d n t z) (d.asOfTime t) n a b t = x at hx ⊢
  have hnum (k m : Nat) : x.num k m = d.num k m := congrArg leNat (Device.bytes_congr hx.frame.bytes m k)
  have hcfg {f : Fld} (ha : f.addr = R.TRAn_LIST_CFG n) : x.get f = d.get f :=
    hx.frame.get (by
      rw [ha]
      simp [R.TRAn_LIST_CFG, R.TRAn_EDGES, R.TRAn_REVERSALS, R.TRAn_STATUS])
  have hcfgBit {f : Fld} (ha : f.addr = R.TRAn_LIST_CFG n) : x.bit f = d.bit f := by
    unfold Device.bit
    rw [hcfg ha]
  have hxlast : AtLastEntry x n :=
    { armed := (hx.bit rfl (by simp)).trans hlast.armed
      len := (hcfg rfl).trans hlast.len
      wrap := (hcfgBit rfl).trans hlast.wrap
      dir := (hcfgBit rfl).trans hlast.dir
      ptr := (hx.status _ rfl (by simp)).trans (hlast.ptr.trans (hcfg rfl).symm) }
  have hquiet {te : Option Nat} : listCompare x n ((axisCatch d n t).axis n).n (x.axis n).n t te = listLast x n t := by
    rw [hx.n_eq, wrapN_natCast]
    refine listCompare_of_last hxlast (hx.listOld.trans hold) ?_
    rw [hnum, hcfg rfl, hentry, wrapN_natCast]
  rw [sampleEnd_of_unlatched (hz.imp (sampleRef_eq_none d t z n) ((hx.bit rfl (by simp)).trans ·)), hquiet]

end

/-! ## What the last entry leaves -/

section
variable {d : Device} {n t : Nat}

/-- The registers that a firing and the end of a list write. -/
abbrev listLastRegs (n : Nat) : List Nat := [R.TRAn_STATUS n, R.TRAn_FLAGS n, R.TRAn_LIST_FIRES n, R.TRAn_LIST_TIME_LO n, R.TRAn_LIST_TIME_HI n]

theorem listFire_frame : SameBut [R.TRAn_LIST_FIRES n, R.TRAn_LIST_TIME_LO n, R.TRAn_LIST_TIME_HI n] [.evt] d (listFire d n t) :=
  (((SameBut.refl _ _ d).emit _ _ (by simp)).count _ (by simp)).setPair _ (by simp) (by simp)

theorem listEnd_frame : SameBut [R.TRAn_STATUS n, R.TRAn_FLAGS n] [.evt] d (listEnd d n) :=
  ((SameBut.refl _ _ d).setBit _ (by simp)).raise (by simp) (by simp)

theorem listLast_frame : SameBut (listLastRegs n) [.evt] d (listLast d n t) :=
  (listFire_frame.mono_regs (by simp)).trans (listEnd_frame.mono_regs (by simp))

theorem listLast_disarmed : (listLast d n t).get (F.TRAn_STATUS.LIST_ARMED n) = 0 := by
  rw [listLast, listEnd, Device.get_raise, Device.get_set_ne _ _ _ _ (.inl (status_ne_flags n)), Device.get_setBit, Device.get_set_self _ _ _ (by simp)]
  simp

theorem listLast_done : (listLast d n t).get (F.TRAn_FLAGS.LIST_DONE n) = 1 := Device.get_raise_self _ _ rfl (by simp)

theorem listLast_time : (listLast d n t).pair (R.TRAn_LIST_TIME_LO n) (R.TRAn_LIST_TIME_HI n) = t % 2 ^ 64 := by
  rw [listLast, listEnd_frame.pair (by simp [R.TRAn_LIST_TIME_LO, R.TRAn_STATUS, R.TRAn_FLAGS])
    (by simp [R.TRAn_LIST_TIME_HI, R.TRAn_STATUS, R.TRAn_FLAGS])]
  exact Device.pair_setPair_self _ (by simp [R.TRAn_LIST_TIME_LO, R.TRAn_LIST_TIME_HI]) _

theorem listLast_fires : (listLast d n t).get (F.TRAn_LIST_FIRES.COUNT n) = min (d.get (F.TRAn_LIST_FIRES.COUNT n) + 1) 0xFFFFFFFF := by
  have hpair : SameBut [R.TRAn_LIST_TIME_LO n, R.TRAn_LIST_TIME_HI n] [] _ (listFire d n t) := (SameBut.refl _ _ _).setPair _ (by simp) (by simp)
  rw [listLast, listEnd_frame.get (by simp [R.TRAn_LIST_FIRES, R.TRAn_STATUS, R.TRAn_FLAGS]),
    hpair.get (by simp [R.TRAn_LIST_FIRES, R.TRAn_LIST_TIME_LO, R.TRAn_LIST_TIME_HI]), Device.get_count_saturating _ _ _ (by simp)]
  rfl

/-- A flag that fires its rill does so after what is on the way already. -/
theorem raise_inflight_head {d : Device} {f : Fld} {v : RillEvent} (h : d.evt.inflight.head? = some v) : (d.raise f).evt.inflight.head? = some v := by
  have hset : (d.set f 1).evt = d.evt := rfl
  unfold Device.raise
  dsimp only
  split
  · exact h
  · split
    · unfold Device.fireFlags
      split
      · exact h
      · dsimp only
        split
        · exact h
        · exact (List.head?_append ..).trans (by rw [hset, h]; rfl)
    · exact h

theorem listLast_event (h : d.evt.inflight = []) : (listLast d n t).evt.inflight.head? = some { rill := 80 + n, stamp := t } := by
  refine raise_inflight_head ?_
  have hfire : (listFire d n t).evt.inflight = d.evt.inflight ++ [{ rill := 80 + n, stamp := t }] := rfl
  have hset : ((listFire d n t).setBit (F.TRAn_STATUS.LIST_ARMED n) false).evt = (listFire d n t).evt := rfl
  rw [hset, hfire, h]
  rfl

end

end Sys2Proof.Machine

/-! # Latches and controls of an axis

What writes of CTRL, the end of a second's window, a standstill and the reads of an axis do (R228, R235, R240); then the statement of
them. -/

namespace Sys2Proof.Machine

theorem exec_refArm (n : Fin 4) (s : State) : exec (.refArm n) s = s.done (regAccess (R.TRAn_CTRL n) true (refArmDev n) s.dev) := rfl
theorem exec_listArm (n : Fin 4) (s : State) : exec (.listArm n) s = s.done (regAccess (R.TRAn_CTRL n) true (listArmDev n) s.dev) := rfl
theorem exec_listStop (n : Fin 4) (s : State) : exec (.listStop n) s = s.done (regAccess (R.TRAn_CTRL n) true (listStopDev n) s.dev) := rfl
theorem exec_clrUncert (n : Fin 4) (s : State) : exec (.clrUncert n) s = s.done (regAccess (R.TRAn_CTRL n) true (clrUncertDev n) s.dev) := rfl
theorem exec_axisSnapshotRead (n : Fin 4) (pos : Bool) (s : State) :
    exec (.axisSnapshotRead n pos) s = s.done (regAccess (R.TRAn_COUNT_LO n) false (axisSnapshotDev n pos) s.dev) := rfl

/-! ## Writes of CTRL -/

/-- The device that keeps a write of CTRL for its cycle. -/
def ctlKept (d : Device) (n : Nat) (c : AxisCtl) : Device := d.setAxis n { d.axis n with ctl := some c }

section
variable {d : Device} {n : Fin 4}

theorem writeCtl_eq (refArm : Bool) (list : Option Bool) (clr : Bool) : ∃ c : AxisCtl, (refArm = true → c.refArm = true) ∧
    (list.isSome = true → c.list = list) ∧ writeCtl n refArm list clr d = ctlApply (ctlKept d n c) n refArm list clr :=
  ⟨_, fun h => by simp only [h, Bool.or_true], fun h => if_pos h, rfl⟩

theorem ctlKept_frame (c : AxisCtl) : SameBut [R.TRAn_STATUS n] [.axes] d (ctlKept d n c) := (SameBut.refl _ _ d).setAxis _ _ (by simp)

theorem ctlKept_axis (c : AxisCtl) : (ctlKept d n c).axis n = { d.axis n with ctl := some c } := Device.axis_setAxis_self d n.isLt _

theorem ctlKept_get (c : AxisCtl) (f : Fld) : (ctlKept d n c).get f = d.get f := rfl

theorem refArmDev_eq : ∃ c : AxisCtl, c.refArm = true ∧ refArmDev n d = (ctlKept d n c).setBit (F.TRAn_STATUS.REF_ARMED n) true := by
  obtain ⟨c, hc, -, he⟩ := writeCtl_eq (d := d) (n := n) true none false
  exact ⟨c, hc rfl, he⟩

theorem listArmDev_eq : ∃ c : AxisCtl, c.list = some true ∧ listArmDev n d =
    ((ctlKept d n c).set (F.TRAn_STATUS.LIST_PTR n) (d.get (F.TRAn_LIST_CFG.START n))).setBit (F.TRAn_STATUS.LIST_ARMED n) true := by
  obtain ⟨c, -, hc, he⟩ := writeCtl_eq (d := d) (n := n) false (some true) false
  exact ⟨c, hc rfl, he⟩

theorem listStopDev_eq : ∃ c, listStopDev n d = (ctlKept d n c).setBit (F.TRAn_STATUS.LIST_ARMED n) false := by
  obtain ⟨c, -, -, he⟩ := writeCtl_eq (d := d) (n := n) false (some false) false
  exact ⟨c, he⟩

theorem clrUncertDev_eq : ∃ c, clrUncertDev n d = (ctlKept d n c).setBit (F.TRAn_STATUS.UNCERTAIN n) false := by
  obtain ⟨c, -, -, he⟩ := writeCtl_eq (d := d) (n := n) false none true
  exact ⟨c, he⟩

/-- What a write that sets or clears one bit of the status leaves. -/
theorem ctlKept_setBit_spec (c : AxisCtl) {f : Fld} (b : Bool) (ha : f.addr = R.TRAn_STATUS n) (hone : f.hi = f.lo) (hlt : f.hi < 32) :
    ((ctlKept d n c).setBit f b).get f = b.toNat ∧
    (∀ g : Fld, f.hi < g.lo ∨ g.hi < f.lo → ((ctlKept d n c).setBit f b).get g = d.get g) ∧
    ((ctlKept d n c).setBit f b).axis n = { d.axis n with ctl := some c } ∧
    SameBut [R.TRAn_STATUS n] [.axes] d ((ctlKept d n c).setBit f b) := by
  refine ⟨?_, fun g hg => ?_, ctlKept_axis c, (ctlKept_frame c).setBit _ (by simp [ha])⟩
  · rw [Device.get_setBit, Device.get_set_self _ _ _ hlt, hone, Nat.add_sub_cancel_left]
    cases b <;> rfl
  · rw [Device.get_setBit, Device.get_set_ne _ _ _ _ (.inr hg), ctlKept_get]

theorem refArmDev_spec : (refArmDev n d).get (F.TRAn_STATUS.REF_ARMED n) = 1 ∧
    (refArmDev n d).get (F.TRAn_STATUS.LIST_ARMED n) = d.get (F.TRAn_STATUS.LIST_ARMED n) ∧
    (refArmDev n d).axis n = { d.axis n with ctl := ((refArmDev n d).axis n).ctl } ∧
    ((refArmDev n d).axis n).ctl.map AxisCtl.refArm = some true ∧ SameBut [R.TRAn_STATUS n] [.axes] d (refArmDev n d) := by
  obtain ⟨c, hc, he⟩ := refArmDev_eq (d := d) (n := n)
  obtain ⟨hbit, hkept, haxis, hframe⟩ := ctlKept_setBit_spec (d := d) c (f := F.TRAn_STATUS.REF_ARMED n) true rfl rfl (by simp)
  rw [← he] at hbit hkept haxis hframe
  refine ⟨hbit, hkept _ (by simp), ?_, ?_, hframe⟩
  · rw [haxis]
  · rw [haxis, Option.map_some, hc]

theorem listStopDev_spec : (listStopDev n d).get (F.TRAn_STATUS.LIST_ARMED n) = 0 ∧
    (listStopDev n d).get (F.TRAn_STATUS.LIST_PTR n) = d.get (F.TRAn_STATUS.LIST_PTR n) ∧
    (listStopDev n d).axis n = { d.axis n with ctl := ((listStopDev n d).axis n).ctl } ∧
    SameBut [R.TRAn_STATUS n] [.axes] d (listStopDev n d) := by
  obtain ⟨c, he⟩ := listStopDev_eq (d := d) (n := n)
  obtain ⟨hbit, hkept, haxis, hframe⟩ := ctlKept_setBit_spec (d := d) c (f := F.TRAn_STATUS.LIST_ARMED n) false rfl rfl (by simp)
  rw [← he] at hbit hkept haxis hframe
  refine ⟨hbit, hkept _ (by simp), ?_, hframe⟩
  rw [haxis]

theorem clrUncertDev_spec : (clrUncertDev n d).get (F.TRAn_STATUS.UNCERTAIN n) = 0 ∧
    (clrUncertDev n d).get (F.TRAn_STATUS.REF_ARMED n) = d.get (F.TRAn_STATUS.REF_ARMED n) ∧
    (clrUncertDev n d).axis n = { d.axis n with ctl := ((clrUncertDev n d).axis n).ctl } ∧
    SameBut [R.TRAn_STATUS n] [.axes] d (clrUncertDev n d) := by
  obtain ⟨c, he⟩ := clrUncertDev_eq (d := d) (n := n)
  obtain ⟨hbit, hkept, haxis, hframe⟩ := ctlKept_setBit_spec (d := d) c (f := F.TRAn_STATUS.UNCERTAIN n) false rfl rfl (by simp)
  rw [← he] at hbit hkept haxis hframe
  refine ⟨hbit, hkept _ (by simp), ?_, hframe⟩
  rw [haxis]

theorem listArmDev_spec : (listArmDev n d).get (F.TRAn_STATUS.LIST_ARMED n) = 1 ∧
    (listArmDev n d).get (F.TRAn_STATUS.LIST_PTR n) = d.get (F.TRAn_LIST_CFG.START n) ∧
    (listArmDev n d).get (F.TRAn_STATUS.REF_ARMED n) = d.get (F.TRAn_STATUS.REF_ARMED n) ∧
    (listArmDev n d).axis n = { d.axis n with ctl := ((listArmDev n d).axis n).ctl } ∧
    ((listArmDev n d).axis n).ctl.map AxisCtl.list = some (some true) ∧ SameBut [R.TRAn_STATUS n] [.axes] d (listArmDev n d) := by
  obtain ⟨c, hc, he⟩ := listArmDev_eq (d := d) (n := n)
  have haxis : (listArmDev n d).axis n = { d.axis n with ctl := some c } := by
    rw [he]
    exact ctlKept_axis c
  have hstart : d.get (F.TRAn_LIST_CFG.START n) < 4096 := d.get_lt (F.TRAn_LIST_CFG.START n)
  refine ⟨?_, ?_, ?_, ?_, ?_, ?_⟩
  · rw [he, Device.get_setBit, Device.get_set_self _ _ _ (by simp)]
    simp
  · rw [he, Device.get_setBit, Device.get_set_ne _ _ _ _ (.inr (by simp)), Device.get_set_self _ _ _ (by simp)]
    exact Nat.mod_eq_of_lt hstart
  · rw [he, Device.get_setBit, Device.get_set_ne _ _ _ _ (.inr (by simp)), Device.get_set_ne _ _ _ _ (.inr (by simp)), ctlKept_get]
  · rw [haxis]
  · rw [haxis, Option.map_some, hc]
  · rw [he]
    exact ((ctlKept_frame c).set _ (by simp)).setBit _ (by simp)

/-! ## An arm in the cycle of an index edge -/

theorem ctlUndo_frame (n : Nat) (c : AxisCtl) : SameBut [R.TRAn_STATUS n] [.axes] d (ctlUndo d n c) :=
  ((((SameBut.refl _ _ d).setBit _ (by simp)).setBit _ (by simp)).set _ (by simp)).setBit _ (by simp)

theorem ctlUndo_disarmed {c : AxisCtl} (h : c.refArmed = false) : (ctlUndo d n c).bit (F.TRAn_STATUS.REF_ARMED n) = false := by
  unfold Device.bit
  rw [ctlUndo, Device.get_setBit, Device.get_set_ne _ _ _ _ (.inr (by simp)), Device.get_set_ne _ _ _ _ (.inr (by simp)), Device.get_setBit,
    Device.get_set_ne _ _ _ _ (.inr (by simp)), Device.get_setBit, Device.get_set_self _ _ _ (by simp), h]
  simp

/-- An event in the cycle of writes of CTRL comes before them. -/
theorem beforeCtl_of_ctl {k : AxisCtl} {te : Nat} (hctl : (d.axis n).ctl = some k) (hcycle : (!stampBefore k.t te) = true) (act : Device → Device) :
    beforeCtl d n (some te) act =
      ctlApply (ctlKept (act (ctlUndo d n k)) n (ctlBefore (act (ctlUndo d n k)) n k)) n k.refArm k.list k.clr := by
  unfold beforeCtl
  rw [hctl]
  exact if_neg (not_not_intro hcycle)

/-- An arm in the cycle of the edge takes effect after it. -/
theorem zEdgeDev_of_arm {rising : Bool} {t held : Nat} {k : AxisCtl} (hheld : (d.asOfTime t).get (F.TRAn_CFG.FILT n) < held)
    (hsel : zSelected (d.asOfTime t) n rising = true) (hnew : ((axisCatch d n t).axis n).z ≠ some rising) (hlive : d.resetting 5 = false)
    (hctl : ((axisCatch d n t).axis n).ctl = some k) (hcycle : notBefore d k.t k.cycle (some (acceptedAt (d.asOfTime t) n t)) = true)
    (harmed : k.refArmed = false) (harm : k.refArm = true) (hlist : k.list = none) (hclr : k.clr = false) :
    ∃ c, zEdgeDev n rising t held d = (ctlKept (ctlUndo (edgeStart d n t (some rising)) n k) n c).setBit (F.TRAn_STATUS.REF_ARMED n) true := by
  have hhere : ((edgeStart d n t (some rising)).axis n).ctl = some k := by
    rw [edgeStart_axis d t _ n.isLt]
    exact hctl
  have hlatch := refLatch_of_disarmed (ctlUndo_disarmed (d := edgeStart d n t (some rising)) (n := n) harmed) (d.asOfTime t) t
  have hedge (te : Option Nat) : refEdge (ctlUndo (edgeStart d n t (some rising)) n k) (d.asOfTime t) n t te =
      ctlUndo (edgeStart d n t (some rising)) n k := by
    rw [refEdge_of_quiet te (.inl (by rw [hlatch])), hlatch]
  refine ⟨ctlBefore (ctlUndo (edgeStart d n t (some rising)) n k) n k, ?_⟩
  rw [zEdgeDev_of_selected hheld hsel hnew hlive, beforeCtl_of_ctl hhere hcycle, hedge, harm, hlist, hclr]
  rfl

/-! ## Standing still -/

/-- The measurement of a standstill. -/
theorem standstillDev_of_due {u t : Nat} (hu : u = ((d.axis n).obs.tu + 1000 * (d.asOfTime d.nowNs).get (F.TRAn_LIMITS.STILL n)) % 2 ^ 64)
    (ht : t = ((d.axis n).obs.tu + 1000 * (d.asOfTime u).get (F.TRAn_LIMITS.STILL n)) % 2 ^ 64)
    (hen : (d.asOfTime u).bit (F.TRAn_CFG.EN n) = true) (hstill : (d.asOfTime u).get (F.TRAn_LIMITS.STILL n) ≠ 0)
    (hstarted : ((axisCatch d n t).axis n).obs.started = true) (hlive : d.resetting 5 = false) : standstillDev n d =
      (measure ((axisCatch d n t).elapseTo t) (d.asOfTime u) n (65536 * ((axisCatch d n t).axis n).n + 32768) t true).setBit
        (F.TRAn_STATUS.STILL n) true := by
  subst hu ht
  refine if_neg ?_
  rintro (h | h | h | h)
  · exact h hen
  · exact hstill h
  · exact h hstarted
  · exact Bool.false_ne_true (hlive.symm.trans h)

/-! ## The end of a second's window -/

/-- The window ended, its count cleared. -/
def windowEnded (d : Device) (n k : Nat) : Device :=
  (d.elapseTo ((k + 1) * 1000000000)).setAxis n { d.axis n with qerrs := 0, qerrWin := none, qerrHit := false }

theorem qerrWindowDev_of_none (h : (d.axis n).qerrWin = none) : qerrWindowDev n d = d := by
  unfold qerrWindowDev
  dsimp only
  rw [h]

theorem qerrWindowDev_of_some {k : Nat} (h : (d.axis n).qerrWin = some k) : qerrWindowDev n d =
    if ¬ (d.axis n).qerrHit ∧ (d.asOfTime ((k + 1) * 1000000000)).get (F.TRAn_LIMITS.QERR_MAX n) < (d.axis n).qerrs
      then qerrRate (windowEnded d n k) n else windowEnded d n k := by
  unfold qerrWindowDev
  dsimp only
  rw [h]
  rfl

theorem windowEnded_frame (k : Nat) : SameBut [] [.axes, .tb] d (windowEnded d n k) :=
  ((SameBut.refl _ _ d).elapseTo _ (by simp)).setAxis _ _ (by simp)

theorem windowEnded_axis (k : Nat) : (windowEnded d n k).axis n = { d.axis n with qerrs := 0, qerrWin := none, qerrHit := false } :=
  Device.axis_setAxis_self _ n.isLt _

theorem windowEnded_tb (k : Nat) : (windowEnded d n k).tb = (d.elapseTo ((k + 1) * 1000000000)).tb := rfl

/-! ## Reads -/

/-- The registers of the observer's states. -/
abbrev snapRegs (n : Nat) : List Nat :=
  [R.TRAn_POS_LO n, R.TRAn_POS_HI n, R.TRAn_SPEED_LO n, R.TRAn_SPEED_HI n, R.TRAn_ACC_LO n, R.TRAn_ACC_HI n, R.TRAn_TUPD_LO n, R.TRAn_TUPD_HI n]

/-- A pair written and read over another one. -/
theorem pair_setPair_ne (d : Device) {lo hi lo' hi' : Nat} (v : Nat) (h : lo ≠ lo' ∧ lo ≠ hi' ∧ hi ≠ lo' ∧ hi ≠ hi') :
    (d.setPair lo' hi' v).pair lo hi = d.pair lo hi :=
  ((SameBut.refl [lo', hi'] [] d).setPair (lo := lo') (hi := hi') v (by simp) (by simp)).pair (by simp [h.1, h.2.1]) (by simp [h.2.2])

end

/-! ## What the samples and reads leave -/

section
variable {d : Device} {n : Fin 4}

/-- N latched at an index edge in a sample of its own. -/
theorem latched_edge_spec {t : Nat} {rising : Bool} {y : Axis} (hy : y = (axisCatch d n t).axis n) :
    let e := latched (edgeStart d n t (some rising)) n t
    e.pair (R.TRAn_REF_CNT_LO n) (R.TRAn_REF_CNT_HI n) = y.n % 2 ^ 64 ∧ e.axis n = { y with z := some rising } ∧
    e.pair (R.TRAn_REF_TIME_LO n) (R.TRAn_REF_TIME_HI n) = t % 2 ^ 64 ∧
    e.get (F.TRAn_STATUS.REF_ARMED n) = 0 ∧ e.get (F.TRAn_FLAGS.REF_LATCH n) = 1 ∧ SameBut (refRegs n) [.axes, .evt] d e := by
  intro e
  have haxis : e.axis n = { y with z := some rising } := by
    rw [latched_axis, edgeStart_axis d t _ n.isLt, ← hy]
    rfl
  obtain ⟨hcount, htime⟩ := latched_pairs_kept (d := edgeStart d n t (some rising)) (t := t) (n := n) (.refl _ _ e)
  rw [edgeStart_axis d t _ n.isLt, ← hy] at hcount
  exact ⟨hcount, haxis, htime, latched_disarmed, latched_flag,
    ((edgeStart_frame d t _ n).mono (List.nil_subset _) (by simp)).trans (latched_frame.mono (List.Subset.refl _) (by simp))⟩

/-- N homed at an index edge. -/
theorem homed_edge_spec {t : Nat} {rising : Bool} {y : Axis} (cfg : Device) (hy : y = (axisCatch d n t).axis n) :
    let e := homed (latched (edgeStart d n t (some rising)) n t) cfg n ((edgeStart d n t (some rising)).axis n)
    (e.axis n).n = refVal cfg n ∧ (e.axis n).obs.x1 = y.obs.x1 ∧
    (e.axis n).obs.x0 = (wrapN 64 (y.obs.x0 + ((refVal cfg n : Int) - y.n) * 65536) : Nat) ∧
    e.get (F.TRAn_STATUS.UNCERTAIN n) = 0 ∧ e.get (F.TRAn_STATUS.REF_ARMED n) = 0 ∧
    e.pair (R.TRAn_REF_CNT_LO n) (R.TRAn_REF_CNT_HI n) = y.n % 2 ^ 64 ∧ SameBut (refRegs n) [.evt, .axes] d e := by
  intro e
  have hhomed := homed_frame (d := latched (edgeStart d n t (some rising)) n t) (cfg := cfg) (n := n) ((edgeStart d n t (some rising)).axis n)
  have haxis := homed_axis (d := latched (edgeStart d n t (some rising)) n t) (cfg := cfg) n.isLt ((edgeStart d n t (some rising)).axis n)
  have hstart := edgeStart_axis d t (some rising) n.isLt
  rw [← hy] at hstart
  have hcount := (latched_pairs_kept (d := edgeStart d n t (some rising)) (t := t) (n := n) (e := e) (hhomed.mono (by simp) (by simp))).1
  rw [hstart] at hcount
  have hn : ((edgeStart d n t (some rising)).axis n).n = y.n := by rw [hstart]
  have hobs : ((edgeStart d n t (some rising)).axis n).obs = y.obs := by rw [hstart]
  refine ⟨?_, ?_, ?_, homed_uncertain _, (homed_status _ (by simp)).trans latched_disarmed, hcount,
    (((edgeStart_frame d t _ n).mono (List.nil_subset _) (by simp)).trans (latched_frame.mono (List.Subset.refl _) (by simp))).trans
      (hhomed.mono (by simp) (by simp))⟩
  · rw [haxis]
  · rw [haxis, ← hobs]
    rfl
  · rw [haxis, ← hobs, ← hn]
    rfl

/-- N latched after the step of its sample. -/
theorem latched_forward_spec {t : Nat} {x : Device} {y : Axis} (hy : y = (axisCatch d n t).axis n) (hx : ForwardStep d n t x) :
    let e := latched x n t
    (e.axis n).n = wrapN 48 (y.n + 1 : Nat) ∧ e.pair (R.TRAn_REF_CNT_LO n) (R.TRAn_REF_CNT_HI n) = (e.axis n).n % 2 ^ 64 ∧
    e.pair (R.TRAn_REF_TIME_LO n) (R.TRAn_REF_TIME_HI n) = t % 2 ^ 64 ∧
    e.get (F.TRAn_STATUS.REF_ARMED n) = 0 ∧ e.get (F.TRAn_FLAGS.REF_LATCH n) = 1 ∧ SameBut (stepRefRegs n) [.axes, .evt] d e := by
  intro e
  obtain ⟨hcount, htime⟩ := latched_pairs_kept (d := x) (t := t) (n := n) (.refl _ _ e)
  refine ⟨?_, ?_, htime, latched_disarmed, latched_flag,
    (hx.frame.mono (by simp) (by simp)).trans (latched_frame.mono (by simp) (by simp))⟩
  · rw [latched_axis, hx.n_eq, hy]
  · rw [hcount, latched_axis]

/-- The registers of a step onto the last entry of a list. -/
abbrev stepListRegs (n : Nat) : List Nat :=
  [R.TRAn_EDGES n, R.TRAn_REVERSALS n, R.TRAn_STATUS n, R.TRAn_FLAGS n, R.TRAn_LIST_FIRES n, R.TRAn_LIST_TIME_LO n, R.TRAn_LIST_TIME_HI n]

/-- The last entry fired after the step of its sample. -/
theorem listLast_forward_spec {t : Nat} {x : Device} {y : Axis} (hy : y = (axisCatch d n t).axis n) (hx : ForwardStep d n t x)
    (hidle : d.evt.inflight = []) :
    let e := listLast x n t
    (e.axis n).n = wrapN 48 (y.n + 1 : Nat) ∧ e.evt.inflight.head? = some { rill := 80 + n, stamp := t } ∧
    e.get (F.TRAn_LIST_FIRES.COUNT n) = min (d.get (F.TRAn_LIST_FIRES.COUNT n) + 1) 0xFFFFFFFF ∧
    e.pair (R.TRAn_LIST_TIME_LO n) (R.TRAn_LIST_TIME_HI n) = t % 2 ^ 64 ∧
    e.get (F.TRAn_STATUS.LIST_ARMED n) = 0 ∧ e.get (F.TRAn_FLAGS.LIST_DONE n) = 1 ∧ SameBut (stepListRegs n) [.axes, .evt] d e := by
  intro e
  have hevt : x.evt = d.evt := hx.frame.parts .evt (by simp)
  refine ⟨?_, listLast_event (by rw [hevt]; exact hidle), ?_, listLast_time, listLast_disarmed, listLast_done,
    (hx.frame.mono (by simp) (by simp)).trans (listLast_frame.mono (by simp) (by simp))⟩
  · rw [listLast_frame.axis (by simp), hx.n_eq, hy]
  · rw [listLast_fires, hx.frame.get (by simp [R.TRAn_LIST_FIRES, R.TRAn_EDGES, R.TRAn_REVERSALS, R.TRAn_STATUS])]

/-- The end of a window. -/
theorem qerrWindowDev_spec {k m : Nat} (h : (d.axis n).qerrWin = some k)
    (hm : m = (d.asOfTime ((k + 1) * 1000000000)).get (F.TRAn_LIMITS.QERR_MAX n)) :
    let e := qerrWindowDev n d
    e.axis n = { d.axis n with qerrs := 0, qerrWin := none, qerrHit := false } ∧ e.tb = (d.elapseTo ((k + 1) * 1000000000)).tb ∧
    (m < (d.axis n).qerrs ∧ (d.axis n).qerrHit = false →
      e.get (F.TRAn_FLAGS.QERR_RATE n) = 1 ∧ e.get F.FLT_LAST.CODE = faultQerrRate) ∧
    (¬ (m < (d.axis n).qerrs ∧ (d.axis n).qerrHit = false) → SameBut [] [.axes, .tb] d e) ∧
    SameButMem ([R.TRAn_FLAGS n] ++ faultRegs) [.resv, .axes, .evt, .tb] [faultBytes] d e := by
  intro e
  have hframe := windowEnded_frame (d := d) (n := n) k
  have he : e = if m < (d.axis n).qerrs ∧ (d.axis n).qerrHit = false then qerrRate (windowEnded d n k) n else windowEnded d n k := by
    refine (qerrWindowDev_of_some h).trans (if_congr ?_ rfl rfl)
    rw [hm, Bool.not_eq_true, and_comm]
  by_cases hreport : m < (d.axis n).qerrs ∧ (d.axis n).qerrHit = false
  · rw [if_pos hreport] at he
    have hrate := qerrRate_frame (d := windowEnded d n k) (n := n.val)
    rw [he]
    refine ⟨(hrate.axis (by simp) n).trans (windowEnded_axis k), (hrate.parts .tb (by simp)).trans (windowEnded_tb k),
      fun _ => ⟨qerrRate_flag, qerrRate_code⟩, fun hnot => absurd hreport hnot, ?_⟩
    exact (hframe.mono (List.nil_subset _) (by simp)).trans_sameButMem (hrate.mono (List.Subset.refl _) (by simp))
  · rw [if_neg hreport] at he
    rw [he]
    exact ⟨windowEnded_axis k, windowEnded_tb k, fun hyes => absurd hyes hreport, fun _ => hframe,
      (hframe.mono (List.nil_subset _) (by simp)).toMem⟩

/-- What a standstill leaves. -/
theorem standstill_spec {t : Nat} {cfg : Device} {y : Axis} (hy : y = (axisCatch d n t).axis n)
    (hinit : y.initAt.all (fun a => !stampBefore t a) = true) :
    let e := (measure ((axisCatch d n t).elapseTo t) cfg n (65536 * ((axisCatch d n t).axis n).n + 32768) t true).setBit (F.TRAn_STATUS.STILL n) true
    (e.axis n).obs = axisMeasure (cfg.get (F.TRAn_CFG.BW n)) (statesBefore y t).1 (65536 * y.n + 32768) t ∧
    (e.axis n).n = y.n ∧ (e.axis n).stillAt = some t ∧ e.get (F.TRAn_STATUS.STILL n) = 1 ∧ SameBut [R.TRAn_STATUS n] [.axes, .tb] d e := by
  intro e
  have haxis : ((axisCatch d n t).elapseTo t).axis n = y := hy.symm
  generalize hd : (axisCatch d n t).elapseTo t = x at haxis
  have hx : SameBut [R.TRAn_STATUS n.val] [.axes, .tb] d x := by
    rw [← hd]
    exact ((axisCatch_frame d n t).mono (List.nil_subset _) (by simp)).elapseTo t (by simp)
  have he : e = (measure x cfg n (65536 * y.n + 32768) t true).setBit (F.TRAn_STATUS.STILL n) true := by rw [← hd, hy]
  have hset (v : Device) : (v.setBit (F.TRAn_STATUS.STILL n) true).axis n = v.axis n := rfl
  obtain ⟨hobs, hstill⟩ := measure_obs x cfg (65536 * y.n + 32768) t true n.isLt (by rw [haxis]; exact hinit)
  have hn := (measure_sameCount x cfg (65536 * y.n + 32768) t true n.isLt).n
  rw [he, hset]
  refine ⟨?_, ?_, ?_, ?_, ?_⟩
  · rw [hobs, haxis]
  · rw [hn, haxis]
  · rw [hstill]
    rfl
  · rw [Device.get_setBit, Device.get_set_self _ _ _ (by simp)]
    simp
  · exact (hx.trans ((measure_frame x cfg _ t true n).mono (List.nil_subset _) (by simp))).setBit _ (by simp)

/-- The registers of a read of the states. -/
theorem snapshot_spec : let e := axisSnapshotDev n true d
    e.pair (R.TRAn_POS_LO n) (R.TRAn_POS_HI n) = wrapN 64 (d.axis n).obs.x0 ∧
    e.pair (R.TRAn_SPEED_LO n) (R.TRAn_SPEED_HI n) = wrapN 64 (d.axis n).obs.x1 ∧
    e.pair (R.TRAn_ACC_LO n) (R.TRAn_ACC_HI n) = wrapN 64 (d.axis n).obs.x2 ∧
    e.pair (R.TRAn_TUPD_LO n) (R.TRAn_TUPD_HI n) = (d.axis n).obs.tu % 2 ^ 64 ∧ SameBut (snapRegs n) [] d e := by
  intro e
  have hword (x : Int) : wrapN 64 x % 2 ^ 64 = wrapN 64 x := Nat.mod_eq_of_lt (wrapN_lt 64 x)
  have he : e = (((d.setPair (R.TRAn_POS_LO n) (R.TRAn_POS_HI n) (wrapN 64 (d.axis n).obs.x0)).setPair (R.TRAn_SPEED_LO n) (R.TRAn_SPEED_HI n)
      (wrapN 64 (d.axis n).obs.x1)).setPair (R.TRAn_ACC_LO n) (R.TRAn_ACC_HI n) (wrapN 64 (d.axis n).obs.x2)).setPair
        (R.TRAn_TUPD_LO n) (R.TRAn_TUPD_HI n) (d.axis n).obs.tu := rfl
  rw [he]
  refine ⟨?_, ?_, ?_, ?_, ?_⟩
  · rw [pair_setPair_ne _ _ (by simp [R.TRAn_POS_LO, R.TRAn_POS_HI, R.TRAn_TUPD_LO, R.TRAn_TUPD_HI]),
      pair_setPair_ne _ _ (by simp [R.TRAn_POS_LO, R.TRAn_POS_HI, R.TRAn_ACC_LO, R.TRAn_ACC_HI]),
      pair_setPair_ne _ _ (by simp [R.TRAn_POS_LO, R.TRAn_POS_HI, R.TRAn_SPEED_LO, R.TRAn_SPEED_HI]),
      Device.pair_setPair_self _ (by simp [R.TRAn_POS_LO, R.TRAn_POS_HI]), hword]
  · rw [pair_setPair_ne _ _ (by simp [R.TRAn_SPEED_LO, R.TRAn_SPEED_HI, R.TRAn_TUPD_LO, R.TRAn_TUPD_HI]),
      pair_setPair_ne _ _ (by simp [R.TRAn_SPEED_LO, R.TRAn_SPEED_HI, R.TRAn_ACC_LO, R.TRAn_ACC_HI]),
      Device.pair_setPair_self _ (by simp [R.TRAn_SPEED_LO, R.TRAn_SPEED_HI]), hword]
  · rw [pair_setPair_ne _ _ (by simp [R.TRAn_ACC_LO, R.TRAn_ACC_HI, R.TRAn_TUPD_LO, R.TRAn_TUPD_HI]),
      Device.pair_setPair_self _ (by simp [R.TRAn_ACC_LO, R.TRAn_ACC_HI]), hword]
  · rw [Device.pair_setPair_self _ (by simp [R.TRAn_TUPD_LO, R.TRAn_TUPD_HI])]
  · exact ((((SameBut.refl _ _ d).setPair _ (by simp) (by simp)).setPair _ (by simp) (by simp)).setPair _ (by simp) (by simp)).setPair _
      (by simp) (by simp)

/-- An arm that waits for the index edge of its cycle. -/
theorem arm_after_edge_spec {t : Nat} {rising : Bool} (k c : AxisCtl) :
    let e := (ctlKept (ctlUndo (edgeStart d n t (some rising)) n k) n c).setBit (F.TRAn_STATUS.REF_ARMED n) true
    e.get (F.TRAn_STATUS.REF_ARMED n) = 1 ∧ e.get (F.TRAn_FLAGS.REF_LATCH n) = d.get (F.TRAn_FLAGS.REF_LATCH n) ∧
    SameBut [R.TRAn_STATUS n] [.axes] d e := by
  intro e
  obtain ⟨hbit, -, -, hkept⟩ := ctlKept_setBit_spec (d := ctlUndo (edgeStart d n t (some rising)) n k) c (f := F.TRAn_STATUS.REF_ARMED n) true rfl rfl
    (by simp)
  have hframe : SameBut [R.TRAn_STATUS n] [.axes] d e :=
    (((edgeStart_frame d t _ n).mono_regs (List.nil_subset _)).trans (ctlUndo_frame n k)).trans hkept
  exact ⟨hbit, hframe.get (by simp), hframe⟩

end

/-- Settles O27, clause by clause, from what an index edge, a step, a write of CTRL, a window's end and a standstill each leave. -/
theorem axisLatchesAndControl : Obligations.AxisLatchesAndControl := by
  unfold Obligations.AxisLatchesAndControl
  refine ⟨fun n rising t held y s hsel hacc harm => ?_, fun n rising t held y s hsel hacc harm hquiet => ?_, fun n rising t held s hun => ?_,
    fun n rising t held s hshort => ?_, fun n a b t held z y s hdec hacc hstep href => ?_,
    fun n a b t held z y s hdec hacc hquiet hstep hlist hptr hentry => ?_, fun n s hnone => ?_, fun n k m s hsome => ?_,
    fun n u t y s hu ht hdue => ?_, fun n s hgate => ?_, fun n s hgate => ?_, fun n s hgate => ?_, fun n s hgate => ?_,
    fun n rising t held y k s hsel hacc hctl hk => ?_, fun n s hgate => ?_, fun n s hgate => ?_, fun n s hgate => ?_⟩
  · obtain ⟨rfl, hnew, hctl, hlive⟩ := hacc
    exact ⟨_, (exec_zEdge n rising t held s).trans (congrArg s.done (zEdgeDev_of_latch ⟨hsel.2, hctl, hlive⟩ hsel.1 hnew harm.1 harm.2)),
      latched_edge_spec rfl⟩
  · obtain ⟨rfl, hnew, hctl, hlive⟩ := hacc
    exact ⟨_, (exec_zEdge n rising t held s).trans
      (congrArg s.done (zEdgeDev_of_home ⟨hsel.2, hctl, hlive⟩ hsel.1 hnew harm.1 harm.2 hquiet.1 hquiet.2)), homed_edge_spec _ rfl⟩
  · refine ⟨_, (exec_zEdge n rising t held s).trans (congrArg s.done (zEdgeDev_of_unselected hun.2 hun.1)), ⟨?_, fun hnew => ?_⟩, withZ_frame _ _ _⟩
    · rw [withZ_axis _ n.isLt]
    · have hedge : zNew (axisCatch s.dev n t) n (some rising) = some rising := Option.filter_some_pos (by simpa using hnew)
      rw [withZ_axis _ n.isLt, hedge]
      rfl
  · refine ⟨_, (exec_zEdge n rising t held s).trans (congrArg s.done (zEdgeDev_of_short hshort)), ?_, withZ_frame _ _ _⟩
    rw [withZ_axis _ n.isLt]
    cases (s.dev.axis n).z <;> rfl
  · obtain ⟨rfl, hctl, hlive⟩ := hacc
    obtain ⟨x, hx, he⟩ := encoderEdgeDev_of_latch ⟨hdec.2.2, hctl, hlive⟩ ⟨hdec.1, hdec.2.1⟩ hstep.1 hstep.2.1 hstep.2.2 href.1 href.2.1 href.2.2
    exact ⟨_, (exec_encoderEdge n a b t held z s).trans (congrArg s.done he), latched_forward_spec rfl hx⟩
  · obtain ⟨rfl, hold, hctl, hlive⟩ := hacc
    obtain ⟨harmed, hlen, hwrap, hdir⟩ := hlist
    obtain ⟨hnum, hidle, -⟩ := hentry
    obtain ⟨x, hx, he⟩ := encoderEdgeDev_of_last ⟨hdec.2.2, hctl, hlive⟩ ⟨hdec.1, hdec.2.1⟩ hstep.1 hstep.2 hquiet ⟨harmed, hlen, hwrap, hdir, hptr⟩
      hold hnum
    exact ⟨_, (exec_encoderEdge n a b t held z s).trans (congrArg s.done he), listLast_forward_spec rfl hx hidle⟩
  · exact ⟨_, exec_qerrWindowEnd n s, qerrWindowDev_of_none hnone⟩
  · exact ⟨_, exec_qerrWindowEnd n s, qerrWindowDev_spec hsome.1 hsome.2⟩
  · obtain ⟨ht, rfl⟩ := ht
    obtain ⟨hen, hstill, hstarted, hinit, hlive⟩ := hdue
    exact ⟨_, (exec_standstillMeas n s).trans (congrArg s.done (standstillDev_of_due hu ht hen hstill hstarted hlive)), standstill_spec rfl hinit⟩
  · exact ⟨_, (exec_refArm n s).trans (congrArg s.done (regAccess_of_gateOpen hgate _ _)), refArmDev_spec⟩
  · exact ⟨_, (exec_listArm n s).trans (congrArg s.done (regAccess_of_gateOpen hgate _ _)), listArmDev_spec⟩
  · exact ⟨_, (exec_listStop n s).trans (congrArg s.done (regAccess_of_gateOpen hgate _ _)), listStopDev_spec⟩
  · exact ⟨_, (exec_clrUncert n s).trans (congrArg s.done (regAccess_of_gateOpen hgate _ _)), clrUncertDev_spec⟩
  · obtain ⟨rfl, hnew, hlive⟩ := hacc
    obtain ⟨harmed, harm, hlist, hclr⟩ := hk
    obtain ⟨c, he⟩ := zEdgeDev_of_arm hsel.2 hsel.1 hnew hlive hctl.1 hctl.2 harmed harm hlist hclr
    exact ⟨_, (exec_zEdge n rising t held s).trans (congrArg s.done he), arm_after_edge_spec k c⟩
  · obtain ⟨hbit, -, -, hframe⟩ := clrUncertDev_spec (d := s.dev) (n := n)
    exact ⟨_, (exec_clrUncert n s).trans (congrArg s.done (regAccess_of_gateOpen hgate _ _)), hbit, hframe⟩
  · exact ⟨_, (exec_axisSnapshotRead n false s).trans (congrArg s.done (regAccess_of_gateOpen hgate _ _)),
      Device.pair_setPair_self _ (by simp [R.TRAn_COUNT_LO, R.TRAn_COUNT_HI]) _, (SameBut.refl _ _ _).setPair _ (by simp) (by simp)⟩
  · exact ⟨_, (exec_axisSnapshotRead n true s).trans (congrArg s.done (regAccess_of_gateOpen hgate _ _)), snapshot_spec⟩

end Sys2Proof.Machine

/-! # Line packets that are not accepted

What a packet's end leaves where it is refused, aborted or dropped (R59, R60, R65, R68). -/

namespace Sys2Proof.Machine

theorem exec_linePacketReceive (p : Fin 12) (s : State) : exec (.linePacketReceive p) s = s.done (linePacketDev p s.dev) := rfl
theorem exec_packetAbort (p : Fin 12) (s : State) : exec (.packetAbort p) s = s.done (packetAbortDev p s.dev) := rfl
theorem exec_ingressOverflow (p : Fin 12) (s : State) : exec (.ingressOverflow p) s = s.done (ingressOverflowDev p s.dev) := rfl

/-! ## The camera ports of a device -/

section
variable {as : List Nat} {ps : List Part} {d e : Device}

theorem Device.port_setPort_self (d : Device) (p : Fin 12) (x : Port) : (d.setPort p x).port p = x := unit_withUnit_self _ p.isLt x

theorem SameBut.setPort (h : SameBut as ps d e) (p : Nat) (x : Port) (hp : Part.ports ∈ ps) : SameBut as ps d (e.setPort p x) :=
  h.parts_only rfl rfl rfl rfl (fun q hq => by
    cases q with
    | ports => exact absurd hp hq
    | _ => rfl)

theorem SameBut.port (h : SameBut as ps d e) (hp : Part.ports ∉ ps) (p : Nat) : e.port p = d.port p :=
  congrArg (fun v : Vector Port 12 => unit v p) (h.parts .ports hp)

end

/-! ## Events that are counted under a flag -/

section
variable {d : Device} {c f : Fld}

/-- A count with its flag. -/
theorem counted_flagged (hne : c.addr ≠ f.addr) (hc : c.hi < 32) (hone : f.hi = f.lo) (hf : f.hi < 32) :
    ((d.count c).raise f).get c = min (d.get c + 1) (2 ^ (c.hi + 1 - c.lo) - 1) ∧ ((d.count c).raise f).get f = 1 ∧
    SameBut [c.addr, f.addr] [.evt] d ((d.count c).raise f) := by
  refine ⟨?_, Device.get_raise_self _ _ hone hf, ((SameBut.refl _ _ d).count _ (by simp)).raise (by simp) (by simp)⟩
  rw [Device.get_raise, Device.get_set_ne _ _ _ _ (.inl hne), Device.get_count_saturating _ _ _ hc]

end

/-! ## The end of a packet -/

section
variable {d : Device} {p : Fin 12}

theorem popEvent_port (d : Device) (p : Fin 12) :
    (popEvent d p).port p = { d.port p with rx := { (d.port p).rx with events := (d.port p).rx.events.drop 1 } } :=
  Device.port_setPort_self d p _

theorem popEvent_frame (d : Device) (p : Nat) : SameBut [] [.ports] d (popEvent d p) := (SameBut.refl _ _ d).setPort _ _ (by simp)

theorem popEvent_get (d : Device) (p : Nat) (f : Fld) : (popEvent d p).get f = d.get f := rfl

theorem popEvent_port_of_cons {v : LinkEvent} {rest : List LinkEvent} (h : (d.port p).rx.events = v :: rest) :
    (popEvent d p).port p = { d.port p with rx := { (d.port p).rx with events := rest } } := by
  rw [popEvent_port, h]
  rfl

/-- What remains of a packet that is dropped under the count `c` and the flag `f`. -/
theorem packetDropped_spec {v : LinkEvent} {rest : List LinkEvent} (h : (d.port p).rx.events = v :: rest) {c f : Fld}
    (hne : c.addr ≠ f.addr) (hc : c.lo = 0 ∧ c.hi = 31) (hone : f.hi = f.lo) (hf : f.hi < 32) :
    let e := ((popEvent d p).count c).raise f
    e.get c = min (d.get c + 1) 0xFFFFFFFF ∧ e.get f = 1 ∧ e.port p = { d.port p with rx := { (d.port p).rx with events := rest } } ∧
    SameBut [c.addr, f.addr] [.ports, .evt] d e := by
  intro e
  obtain ⟨hlo, hhi⟩ := hc
  obtain ⟨hcount, hflag, hframe⟩ := counted_flagged (d := popEvent d p) hne (by omega) hone hf
  rw [hlo, hhi, popEvent_get] at hcount
  refine ⟨hcount, hflag, ?_, ((popEvent_frame d p).mono (List.nil_subset _) (by simp)).trans (hframe.mono_parts (by simp))⟩
  rw [hframe.port (by simp), popEvent_port_of_cons h]

theorem linePacketDev_of_line {framed : Bool} {bytes : List Byte} {rest : List LinkEvent} (h : (d.port p).rx.events = .line framed bytes :: rest)
    {e : Device} (hend : linePacket p framed bytes (popEvent d p) = (e, none)) : linePacketDev p d = e := by
  unfold linePacketDev
  rw [h]
  dsimp only
  rw [hend]

theorem linePacket_of_stopped {framed : Bool} {bytes : List Byte} (h : d.portState p ≠ psRun) : linePacket p framed bytes d = (d, none) := if_pos h

theorem linePacket_of_misframed {framed : Bool} {bytes : List Byte} (hrun : d.portState p = psRun)
    (h : framed = false ∨ leAt bytes 24 4 + 36 ≠ bytes.length) : linePacket p framed bytes d = (frameErr d p, none) :=
  (if_neg (not_not_intro hrun)).trans (if_pos (h.imp ne_true_of_eq_false .inr))

/-- The triggers of the head that a packet names. -/
def packetTrigs (d : Device) (p : Nat) (bytes : List Byte) : List Trigger := (unit (d.port p).heads (leAt bytes 0 1 % 4)).trigs

section
variable {bytes : List Byte} (hrun : d.portState p = psRun) (hlen : leAt bytes 24 4 + 36 = bytes.length)
include hrun hlen

theorem linePacket_of_framed : linePacket p true bytes d =
    match matchTrig (packetTrigs d p bytes) .outstanding bytes with
    | some t =>
      if headerOk (d.asOf t.count) (headCtx (d.asOf t.count) p (leAt bytes 0 1 % 4)) (lineOf t.count) bytes then
        ((acceptLine d p (leAt bytes 0 1 % 4) t bytes).1, some (acceptLine d p (leAt bytes 0 1 % 4) t bytes).2)
      else ((d.count (F.CPn_HDR_ERR.COUNT p)).raise (F.CPn_FLAGS.HDR_ERR p), none)
    | none =>
      match matchTrig (packetTrigs d p bytes) .received bytes with
      | some _ => ((d.count (F.CPn_DUP.COUNT p)).raise (F.CPn_FLAGS.DUP p), none)
      | none => ((d.count (F.CPn_CRC_ERR.COUNT p)).raise (F.CPn_FLAGS.CRC_ERR p), none) := by
  unfold linePacket
  rw [if_neg (not_not_intro hrun), if_neg]
  · rfl
  · rintro (h | h | h)
    · exact h rfl
    · omega
    · exact h hlen

theorem linePacket_of_disagreeing {t : Trigger} (hmatch : matchTrig (packetTrigs d p bytes) .outstanding bytes = some t)
    (hheader : headerOk (d.asOf t.count) (headCtx (d.asOf t.count) p (leAt bytes 0 1 % 4)) (lineOf t.count) bytes = false) :
    linePacket p true bytes d = ((d.count (F.CPn_HDR_ERR.COUNT p)).raise (F.CPn_FLAGS.HDR_ERR p), none) := by
  rw [linePacket_of_framed hrun hlen, hmatch]
  exact if_neg (ne_true_of_eq_false hheader)

theorem linePacket_of_repeated {t : Trigger} (hnone : matchTrig (packetTrigs d p bytes) .outstanding bytes = none)
    (hmatch : matchTrig (packetTrigs d p bytes) .received bytes = some t) :
    linePacket p true bytes d = ((d.count (F.CPn_DUP.COUNT p)).raise (F.CPn_FLAGS.DUP p), none) := by
  rw [linePacket_of_framed hrun hlen, hnone, hmatch]

theorem linePacket_of_unmatched (hnone : matchTrig (packetTrigs d p bytes) .outstanding bytes = none)
    (hnone' : matchTrig (packetTrigs d p bytes) .received bytes = none) :
    linePacket p true bytes d = ((d.count (F.CPn_CRC_ERR.COUNT p)).raise (F.CPn_FLAGS.CRC_ERR p), none) := by
  rw [linePacket_of_framed hrun hlen, hnone, hnone']

end

theorem packetTrigs_popEvent (d : Device) (p : Fin 12) (bytes : List Byte) :
    packetTrigs (popEvent d p) p bytes = (unit (d.port p).heads (leAt bytes 0 1 % 4)).trigs := by
  rw [packetTrigs, popEvent_port]

/-- The header of a packet is held against the configuration of its line. -/
theorem headerOk_congr {d e : Device} (h : ∀ a, e.rd a = d.rd a) (ctx l : Nat) (bytes : List Byte) : headerOk e ctx l bytes = headerOk d ctx l bytes := by
  have hget (f : Fld) : e.get f = d.get f := congrArg f.of (h f.addr)
  unfold headerOk ctxPixels ctxPixfmt ctxLayout
  rw [hget, hget, hget]

theorem headCtx_congr {d e : Device} (h : ∀ a, e.rd a = d.rd a) (p k : Nat) : headCtx e p k = headCtx d p k := by
  unfold headCtx
  rw [h]

theorem popEvent_asOf_rd (d : Device) (p : Nat) (c : Int) (a : Nat) : ((popEvent d p).asOf c).rd a = (d.asOf c).rd a :=
  (popEvent_frame d p).asOf_rd (by simp) (by simp) c (by simp)

end

/-- Settles O11, clause by clause, from the ways in which a packet ends without a line. -/
theorem cameraLineRejected : Obligations.CameraLineRejected := by
  unfold Obligations.CameraLineRejected
  refine ⟨fun p framed bytes rest s hstop => ?_, fun p framed bytes rest s hrun hbad => ?_, fun p bytes rest t s hrun hlen hnone hmatch => ?_,
    fun p bytes rest s hrun hlen hnone hnone' => ?_, fun p bytes rest t s hrun hlen hmatch hheader => ?_, fun p rest s habort => ?_,
    fun p rest s hover => ?_⟩
  · refine ⟨_, (exec_linePacketReceive p s).trans (congrArg s.done (linePacketDev_of_line hstop.2 (linePacket_of_stopped hstop.1))),
      popEvent_port_of_cons hstop.2, popEvent_frame _ _⟩
  · exact ⟨_, (exec_linePacketReceive p s).trans (congrArg s.done (linePacketDev_of_line hrun.2 (linePacket_of_misframed hrun.1 hbad))),
      packetDropped_spec hrun.2 (c := F.CPn_FRAME_ERR.COUNT p) (f := F.CPn_FLAGS.CRC_ERR p) (by simp [R.CPn_FRAME_ERR, R.CPn_FLAGS]) (by simp) rfl
        (by simp)⟩
  · exact ⟨_, (exec_linePacketReceive p s).trans (congrArg s.done (linePacketDev_of_line hrun.2 (linePacket_of_repeated hrun.1 hlen
        (by rw [packetTrigs_popEvent]; exact hnone) (by rw [packetTrigs_popEvent]; exact hmatch)))),
      packetDropped_spec hrun.2 (c := F.CPn_DUP.COUNT p) (f := F.CPn_FLAGS.DUP p) (by simp [R.CPn_DUP, R.CPn_FLAGS]) (by simp) rfl (by simp)⟩
  · exact ⟨_, (exec_linePacketReceive p s).trans (congrArg s.done (linePacketDev_of_line hrun.2 (linePacket_of_unmatched hrun.1 hlen
        (by rw [packetTrigs_popEvent]; exact hnone) (by rw [packetTrigs_popEvent]; exact hnone')))),
      packetDropped_spec hrun.2 (c := F.CPn_CRC_ERR.COUNT p) (f := F.CPn_FLAGS.CRC_ERR p) (by simp [R.CPn_CRC_ERR, R.CPn_FLAGS]) (by simp) rfl
        (by simp)⟩
  · have hdisagree : headerOk ((popEvent s.dev p).asOf t.count) (headCtx ((popEvent s.dev p).asOf t.count) p (leAt bytes 0 1 % 4)) (lineOf t.count) bytes
        = false := by
      rw [headerOk_congr (popEvent_asOf_rd s.dev p t.count), headCtx_congr (popEvent_asOf_rd s.dev p t.count)]
      exact hheader
    exact ⟨_, (exec_linePacketReceive p s).trans (congrArg s.done (linePacketDev_of_line hrun.2 (linePacket_of_disagreeing hrun.1 hlen
        (by rw [packetTrigs_popEvent]; exact hmatch) hdisagree))),
      packetDropped_spec hrun.2 (c := F.CPn_HDR_ERR.COUNT p) (f := F.CPn_FLAGS.HDR_ERR p) (by simp [R.CPn_HDR_ERR, R.CPn_FLAGS]) (by simp) rfl
        (by simp)⟩
  · have he : packetAbortDev p s.dev = ((popEvent s.dev p).count (F.CPn_ABORTS.COUNT p)).raise (F.CPn_FLAGS.ABORT p) := by
      unfold packetAbortDev
      rw [habort]
    exact ⟨_, (exec_packetAbort p s).trans (congrArg s.done he),
      packetDropped_spec habort (c := F.CPn_ABORTS.COUNT p) (f := F.CPn_FLAGS.ABORT p) (by simp [R.CPn_ABORTS, R.CPn_FLAGS]) (by simp) rfl (by simp)⟩
  · have he : ingressOverflowDev p s.dev = ((popEvent s.dev p).count (F.CPn_OVF.COUNT p)).raise (F.CPn_FLAGS.OVF p) := by
      unfold ingressOverflowDev
      rw [hover]
    exact ⟨_, (exec_ingressOverflow p s).trans (congrArg s.done he),
      packetDropped_spec hover (c := F.CPn_OVF.COUNT p) (f := F.CPn_FLAGS.OVF p) (by simp [R.CPn_OVF, R.CPn_FLAGS]) (by simp) rfl (by simp)⟩

end Sys2Proof.Machine

/-! # A line packet that is accepted

What the acceptance of a line leaves of its port, its triggers and the waiting lines (R65, R66, R77, R79). -/

namespace Sys2Proof.Machine

/-! ## Acceptance in the port -/

/-- The head of an accepted line. -/
def acceptedHead (hd : Head) (t : Trigger) : Head :=
  { hd with
    trigs := hd.trigs.map (fun u => if u.count = t.count then { u with st := .received } else u)
    silent := 0
    settings := expectedSettings hd t.count
    expect := hd.expect.filter (fun e => t.count < e.1) }

/-- The port of an accepted line of `n` bytes. -/
def acceptedPort (x : Port) (h : Nat) (t : Trigger) (n : Nat) : Port :=
  { x with heads := withUnit x.heads h (acceptedHead (unit x.heads h) t), ingress := x.ingress + n }

/-- A line counted, a settings ID other than `want` flagged. -/
def settingsChecked (d : Device) (p id want : Nat) : Device :=
  if id = want then d.count (F.CPn_LINES_OK.COUNT p)
  else ((d.count (F.CPn_LINES_OK.COUNT p)).count (F.CPn_SET_MISMATCH.COUNT p)).raise (F.CPn_FLAGS.SETTINGS_MISMATCH p)

/-- The settings and the temperature of a head shown. -/
def headShown (d : Device) (p h id temp : Nat) : Device := (d.set (headHalf (R.CPn_SETTINGS01 p) h) id).set (headHalf (R.CPn_TEMP01 p) h) temp

/-- The port once the lines before the accepted one are lost, and it is received. -/
def lineTaken (d : Device) (p h : Nat) (t : Trigger) (n : Nat) : Device :=
  (loseHead d p h (fun u => u.count < t.count)).setPort p (acceptedPort ((loseHead d p h (fun u => u.count < t.count)).port p) h t n)

/-- The line of an accepted packet. -/
def lineOfPacket (cfg : Device) (p h : Nat) (t : Trigger) (bytes : List Byte) : CamLine :=
  { port := p
    head := h
    ctx := headCtx cfg p h
    count := t.count
    deadline := (t.t + 1000 * cfg.get (F.CXn_LAT.LAT_TARGET (headCtx cfg p h))) % 2 ^ 64
    settings := leAt bytes 16 2
    temp := leAt bytes 18 2
    held := bytes.length
    payload := (bytes.drop 32).take (bytes.length - 36) }

theorem acceptLine_eq (d : Device) (p h : Nat) (t : Trigger) (bytes : List Byte) : ∃ want, acceptLine d p h t bytes =
    (headShown (settingsChecked (lineTaken d p h t bytes.length) p (leAt bytes 16 2) want) p h (leAt bytes 16 2) (leAt bytes 18 2),
      lineOfPacket (d.asOf t.count) p h t bytes) := ⟨_, rfl⟩

/-- The registers of a port that an accepted line may change. -/
abbrev acceptRegs (p : Nat) : List Nat :=
  [R.CPn_LINES_OK p, R.CPn_LINES_LOST p, R.CPn_FLAGS p, R.CPn_SET_MISMATCH p, R.CPn_SETTINGS01 p, R.CPn_SETTINGS23 p, R.CPn_TEMP01 p, R.CPn_TEMP23 p]

section
variable {d : Device} {p : Fin 12} {h : Fin 4} {t : Trigger} {n : Nat}

/-- The triggers before an accepted line are lost. -/
theorem loseHead_port (q : Trigger → Bool) : (loseHead d p h q).port p =
    { d.port p with heads := withUnit (d.port p).heads h { unit (d.port p).heads h with trigs := (loseTrigs q (unit (d.port p).heads h).trigs).1 } } := by
  have hkept (e : Device) (m : Nat) : (countLost e p m).port p = e.port p := by
    have hframe : SameBut [R.CPn_LINES_LOST p, R.CPn_FLAGS p] [.evt] e (countLost e p m) :=
      iteInduction (fun _ => .refl _ _ e) fun _ => ((SameBut.refl _ _ e).count _ (by simp)).raise (by simp) (by simp)
    exact hframe.port (by simp) p
  exact (hkept _ _).trans (Device.port_setPort_self d p _)

theorem loseHead_frame (q : Trigger → Bool) : SameBut [R.CPn_LINES_LOST p, R.CPn_FLAGS p] [.ports, .evt] d (loseHead d p h q) :=
  iteInduction (fun _ => (SameBut.refl _ _ d).setPort _ _ (by simp)) fun _ =>
    (((SameBut.refl _ _ d).setPort _ _ (by simp)).count _ (by simp)).raise (by simp) (by simp)

theorem lineTaken_frame : SameBut [R.CPn_LINES_LOST p, R.CPn_FLAGS p] [.ports, .evt] d (lineTaken d p h t n) :=
  (loseHead_frame _).setPort _ _ (by simp)

theorem lineTaken_port : (lineTaken d p h t n).port p =
    acceptedPort ((loseHead d p h (fun u => u.count < t.count)).port p) h t n :=
  Device.port_setPort_self _ p _

/-- The accepted line's trigger is received, the older outstanding ones are lost. -/
theorem received_of_lost (ts : List Trigger) (c : Int) :
    (loseTrigs (fun u => u.count < c) ts).1.map (fun u => if u.count = c then { u with st := .received } else u) =
      ts.map (fun u => if u.count = c then { u with st := .received } else if u.st = .outstanding ∧ u.count < c then { u with st := .lost } else u) := by
  rw [loseTrigs, List.map_map]
  refine List.map_congr_left fun u _ => ?_
  by_cases hc : u.count = c
  · simp [hc]
  · by_cases hlost : u.st = .outstanding ∧ u.count < c
    · simp [hc, hlost]
    · simp only [Function.comp_apply, decide_eq_true_eq, if_neg hlost, if_neg hc]

theorem lineTaken_trigs : (unit ((lineTaken d p h t n).port p).heads h).trigs = (unit (d.port p).heads h).trigs.map (fun u =>
    if u.count = t.count then { u with st := .received } else if u.st = .outstanding ∧ u.count < t.count then { u with st := .lost } else u) := by
  rw [lineTaken_port, loseHead_port, acceptedPort]
  dsimp only
  rw [unit_withUnit_self _ h.isLt, unit_withUnit_self _ h.isLt]
  exact received_of_lost _ _

theorem lineTaken_ingress : ((lineTaken d p h t n).port p).ingress = (d.port p).ingress + n := by
  rw [lineTaken_port, loseHead_port]
  rfl

theorem lineTaken_rx : ((lineTaken d p h t n).port p).rx = (d.port p).rx := by
  rw [lineTaken_port, loseHead_port]
  rfl

theorem settingsChecked_frame (id want : Nat) :
    SameBut [R.CPn_LINES_OK p, R.CPn_SET_MISMATCH p, R.CPn_FLAGS p] [.evt] d (settingsChecked d p id want) :=
  iteInduction (fun _ => (SameBut.refl _ _ d).count _ (by simp)) fun _ =>
    (((SameBut.refl _ _ d).count _ (by simp)).count _ (by simp)).raise (by simp) (by simp)

theorem settingsChecked_count (id want : Nat) :
    (settingsChecked d p id want).get (F.CPn_LINES_OK.COUNT p) = min (d.get (F.CPn_LINES_OK.COUNT p) + 1) 0xFFFFFFFF := by
  have hcount : (d.count (F.CPn_LINES_OK.COUNT p)).get (F.CPn_LINES_OK.COUNT p) = min (d.get (F.CPn_LINES_OK.COUNT p) + 1) 0xFFFFFFFF :=
    Device.get_count_saturating _ _ _ (by simp)
  unfold settingsChecked
  split
  · exact hcount
  · rw [Device.get_raise, Device.get_set_ne _ _ _ _ (.inl (by simp)), Device.get_count, Device.get_set_ne _ _ _ _ (.inl (by simp)), hcount]

/-- A two-head register is the one of heads 0 and 1, or the one of heads 2 and 3. -/
theorem headHalf_addr (r : Nat) : (headHalf r h).addr = r ∨ (headHalf r h).addr = r + 4 := by
  have hlt := h.isLt
  show r + 4 * (h.val / 2) = r ∨ r + 4 * (h.val / 2) = r + 4
  omega

theorem headHalf_settings : (headHalf (R.CPn_SETTINGS01 p) h).addr = R.CPn_SETTINGS01 p ∨ (headHalf (R.CPn_SETTINGS01 p) h).addr = R.CPn_SETTINGS23 p :=
  (headHalf_addr _).imp_right fun heq => heq.trans (by unfold R.CPn_SETTINGS01 R.CPn_SETTINGS23; omega)

theorem headHalf_temp : (headHalf (R.CPn_TEMP01 p) h).addr = R.CPn_TEMP01 p ∨ (headHalf (R.CPn_TEMP01 p) h).addr = R.CPn_TEMP23 p :=
  (headHalf_addr _).imp_right fun heq => heq.trans (by unfold R.CPn_TEMP01 R.CPn_TEMP23; omega)

theorem headShown_frame (id temp : Nat) :
    SameBut [R.CPn_SETTINGS01 p, R.CPn_SETTINGS23 p, R.CPn_TEMP01 p, R.CPn_TEMP23 p] [] d (headShown d p h id temp) :=
  ((SameBut.refl _ _ d).set _ (by rcases headHalf_settings (p := p) (h := h) with heq | heq <;> simp [heq])).set _
    (by rcases headHalf_temp (p := p) (h := h) with heq | heq <;> simp [heq])

theorem headShown_temp (id : Nat) {temp : Nat} (ht : temp < 2 ^ 16) : (headShown d p h id temp).get (headHalf (R.CPn_TEMP01 p) h) = temp := by
  have hlt := h.isLt
  have hwidth : (headHalf (R.CPn_TEMP01 p) h).hi + 1 - (headHalf (R.CPn_TEMP01 p) h).lo = 16 := by
    show 16 * (h.val % 2) + 15 + 1 - 16 * (h.val % 2) = 16
    omega
  rw [headShown, Device.get_set_self _ _ _ (show 16 * (h.val % 2) + 15 < 32 by omega), hwidth, Nat.mod_eq_of_lt ht]

theorem headShown_settings {id : Nat} (temp : Nat) (hid : id < 2 ^ 16) :
    (headShown d p h id temp).get (headHalf (R.CPn_SETTINGS01 p) h) = id := by
  have hlt := h.isLt
  have hwidth : (headHalf (R.CPn_SETTINGS01 p) h).hi + 1 - (headHalf (R.CPn_SETTINGS01 p) h).lo = 16 := by
    show 16 * (h.val % 2) + 15 + 1 - 16 * (h.val % 2) = 16
    omega
  have hne : (headHalf (R.CPn_SETTINGS01 p) h).addr ≠ (headHalf (R.CPn_TEMP01 p) h).addr := by
    show 0x20000070 + p * 0x10000 + 4 * (h.val / 2) ≠ 0x20000050 + p * 0x10000 + 4 * (h.val / 2)
    omega
  rw [headShown, Device.get_set_ne _ _ _ _ (.inl hne), Device.get_set_self _ _ _ (show 16 * (h.val % 2) + 15 < 32 by omega), hwidth,
    Nat.mod_eq_of_lt hid]

end

/-! ## The line in calibration and among the waiting ones -/

/-- The registers of the camera ports, the ports and the pipes are the same. -/
structure CameraKept (d e : Device) : Prop where
  range : SameRange 0x20000000 0x20200000 d e
  ports : e.ports = d.ports
  pipes : e.pipes = d.pipes

section
variable {c d e : Device}

theorem CameraKept.refl (d : Device) : CameraKept d d := ⟨.refl _ _ d, rfl, rfl⟩

theorem CameraKept.trans (h : CameraKept c d) (h' : CameraKept d e) : CameraKept c e :=
  ⟨h.range.trans h'.range, h'.ports.trans h.ports, h'.pipes.trans h.pipes⟩

theorem tempCheck_kept (d : Device) (k : Nat) : CameraKept d (tempCheck d k) := by
  refine ⟨.tempCheck (by decide) (.refl _ _ d) k, ?_, ?_⟩
  all_goals
    unfold tempCheck setDue
    dsimp only
    split
    · rfl
    · split
      · split <;> simp
      · rfl

theorem showApplied_kept (d : Device) (k : Nat) (t : Option Nat) : CameraKept d (showApplied d k t) :=
  ⟨.setBit (.set (.refl _ _ d) _ (outside_of_le (by decide) (Nat.le_add_right_of_le (by decide)))) _
    (outside_of_le (by decide) (Nat.le_add_right_of_le (by decide))), rfl, rfl⟩

theorem makeSet_kept (d : Device) (k : Nat) (t : Option Nat) (a : Int) (byRun : Bool) : CameraKept d (makeSet d k t a byRun) := by
  unfold makeSet
  dsimp only
  refine CameraKept.trans ?_ (showApplied_kept _ k t)
  exact ⟨.parts (.refl _ _ d) rfl rfl, rfl, rfl⟩

theorem tempRecompute_kept (d : Device) (k : Nat) (l : Int) : CameraKept d (tempRecompute d k l) := by
  unfold tempRecompute
  split
  · exact .refl d
  · dsimp only
    exact iteInduction (fun _ => makeSet_kept _ _ _ _ _) fun _ => .refl d

theorem calAccept_kept (d : Device) (l : CamLine) : CameraKept d (calAccept d l) := by
  unfold calAccept
  dsimp only
  split
  · exact .refl d
  · refine CameraKept.trans (CameraKept.trans ?_ (tempCheck_kept _ _)) (tempRecompute_kept _ _ _)
    split
    · exact ⟨.parts (.refl _ _ d) rfl rfl, rfl, rfl⟩
    · exact ⟨.parts (.refl _ _ d) rfl rfl, rfl, rfl⟩

theorem CameraKept.get (h : CameraKept d e) {f : Fld} (hlo : 0x20000000 ≤ f.addr) (hhi : f.addr < 0x20200000) : e.get f = d.get f := h.range.get hlo hhi

theorem CameraKept.port (h : CameraKept d e) (p : Nat) : e.port p = d.port p := congrArg (fun v : Vector Port 12 => unit v p) h.ports

theorem offerLine_frame (d : Device) (l : CamLine) : SameBut [R.PIPE_WAIT, R.PIPE_WAIT_HWM] [.pipes] d (offerLine d l) := by
  have hwait : SameBut [R.PIPE_WAIT, R.PIPE_WAIT_HWM] [.pipes] d { d with pipes := { d.pipes with waiting := d.pipes.waiting ++ [l] } } :=
    (SameBut.refl _ _ d).parts_only rfl rfl rfl rfl (fun q hq => by
      cases q with
      | pipes => exact absurd (List.mem_singleton_self _) hq
      | _ => rfl)
  exact (hwait.set _ (by simp)).set _ (by simp)

theorem offerLine_waiting (d : Device) (l : CamLine) : (offerLine d l).pipes.waiting = d.pipes.waiting ++ [l] := rfl

end

/-! ## The accepted line -/

section
variable {d : Device} {p : Fin 12} {bytes : List Byte}

/-- What the acceptance of a line leaves of a device whose packet has left the port. -/
def lineAccepted (d : Device) (p h : Nat) (t : Trigger) (bytes : List Byte) (want : Nat) : Device :=
  headShown (settingsChecked (lineTaken d p h t bytes.length) p (leAt bytes 16 2) want) p h (leAt bytes 16 2) (leAt bytes 18 2)

theorem linePacketDev_of_accepted {rest : List LinkEvent} {t : Trigger} {h : Fin 4} (hevents : (d.port p).rx.events = .line true bytes :: rest)
    (hrun : d.portState p = psRun) (hlen : leAt bytes 24 4 + 36 = bytes.length) (hhead : h.val = leAt bytes 0 1 % 4)
    (hmatch : matchTrig (unit (d.port p).heads h).trigs .outstanding bytes = some t)
    (hheader : headerOk (d.asOf t.count) (headCtx (d.asOf t.count) p h) (lineOf t.count) bytes = true) :
    ∃ want, linePacketDev p d = offerLine (calAccept (lineAccepted (popEvent d p) p h t bytes want)
      (lineOfPacket (d.asOf t.count) p h t bytes)) (lineOfPacket (d.asOf t.count) p h t bytes) := by
  have hasOf := popEvent_asOf_rd d p t.count
  have hctx (k : Nat) : headCtx ((popEvent d p).asOf t.count) p k = headCtx (d.asOf t.count) p k := headCtx_congr hasOf p k
  have hline : lineOfPacket ((popEvent d p).asOf t.count) p h t bytes = lineOfPacket (d.asOf t.count) p h t bytes := by
    have hlat (f : Fld) : ((popEvent d p).asOf t.count).get f = (d.asOf t.count).get f := congrArg f.of (hasOf f.addr)
    unfold lineOfPacket
    rw [hctx, hlat]
  rw [hhead] at hmatch hheader
  obtain ⟨want, haccept⟩ := acceptLine_eq (popEvent d p) p h t bytes
  rw [hhead] at haccept
  have hpacket : linePacket p true bytes (popEvent d p) = ((acceptLine (popEvent d p) p (leAt bytes 0 1 % 4) t bytes).1,
      some (acceptLine (popEvent d p) p (leAt bytes 0 1 % 4) t bytes).2) := by
    rw [linePacket_of_framed (d := popEvent d p) hrun hlen, packetTrigs_popEvent, hmatch]
    dsimp only
    rw [headerOk_congr hasOf, hctx, if_pos hheader]
  refine ⟨want, ?_⟩
  unfold linePacketDev
  rw [hevents]
  dsimp only
  rw [hpacket, haccept, ← hhead, hline]
  rfl

theorem leNat_lt : ∀ bs : List Byte, leNat bs < 256 ^ bs.length
  | [] => Nat.one_pos
  | b :: bs => by
    have hrest := leNat_lt bs
    have hb := b.isLt
    rw [leNat, List.length_cons, pow_succ']
    omega

theorem leAt_two_lt (bytes : List Byte) (k : Nat) : leAt bytes k 2 < 2 ^ 16 :=
  (leNat_lt _).trans_le (Nat.pow_le_pow_right (by decide) (List.length_take_le _ _))

theorem lineAccepted_frame {h : Fin 4} {t : Trigger} (want : Nat) :
    SameBut (acceptRegs p) [.ports, .evt] d (lineAccepted d p h t bytes want) :=
  ((lineTaken_frame.mono (by simp) (by simp)).trans ((settingsChecked_frame _ _).mono (by simp) (by simp))).trans
    ((headShown_frame _ _).mono (by simp) (by simp))

theorem lineAccepted_port {h : Fin 4} {t : Trigger} (want : Nat) :
    (lineAccepted d p h t bytes want).port p = (lineTaken d p h t bytes.length).port p :=
  ((headShown_frame _ _).port (by simp) p).trans ((settingsChecked_frame _ _).port (by simp) p)

theorem lineAccepted_count {h : Fin 4} {t : Trigger} (want : Nat) :
    (lineAccepted d p h t bytes want).get (F.CPn_LINES_OK.COUNT p) = min (d.get (F.CPn_LINES_OK.COUNT p) + 1) 0xFFFFFFFF := by
  rw [lineAccepted, (headShown_frame _ _).get (by simp), settingsChecked_count, lineTaken_frame.get (by simp)]

end

/-- Settles O10: acceptance in the port, then calibration, then the waiting lines. -/
theorem cameraLineAccepted : Obligations.CameraLineAccepted := by
  unfold Obligations.CameraLineAccepted
  intro p bytes rest h t s hrun hlen hmatch hheader
  obtain ⟨want, he⟩ := linePacketDev_of_accepted hrun.2 hrun.1 hlen.1 hlen.2 hmatch hheader
  refine ⟨_, (exec_linePacketReceive p s).trans (congrArg s.done he), ?_⟩
  generalize hl : lineOfPacket (s.dev.asOf t.count) p h t bytes = l
  generalize hx : lineAccepted (popEvent s.dev p) p h t bytes want = x
  have hoffer := offerLine_frame (calAccept x l) l
  have hcal := calAccept_kept x l
  have hpop := popEvent_port_of_cons hrun.2
  have hport : (offerLine (calAccept x l) l).port p = (lineTaken (popEvent s.dev p) p h t bytes.length).port p := by
    rw [hoffer.port (by simp), hcal.port, ← hx, lineAccepted_port]
  have hkept {f : Fld} (hlo : 0x20000000 ≤ f.addr) (hhi : f.addr < 0x20200000) : (offerLine (calAccept x l) l).get f = x.get f :=
    (hoffer.get (by simp [R.PIPE_WAIT, R.PIPE_WAIT_HWM]; omega)).trans (hcal.get hlo hhi)
  have hp := p.isLt
  have hh := h.isLt
  refine ⟨?_, ?_, ?_, ?_, ?_, ?_, ?_, fun htemp => ?_⟩
  · rw [hport, lineTaken_trigs, hpop]
  · rw [offerLine_waiting, hcal.pipes, ← hx, (lineAccepted_frame want).parts .pipes (by simp), ← hl]
    rfl
  · rw [hkept (Nat.le_add_right_of_le (by decide)) (show 0x20000020 + p.val * 0x10000 < 0x20200000 by omega), ← hx, lineAccepted_count, popEvent_get]
  · rw [hport, lineTaken_ingress, hpop]
  · rw [hport, lineTaken_rx, hpop]
  · rw [hkept (show 0x20000000 ≤ R.CPn_SETTINGS01 p + 4 * (h.val / 2) by unfold R.CPn_SETTINGS01; omega)
      (show R.CPn_SETTINGS01 p + 4 * (h.val / 2) < 0x20200000 by unfold R.CPn_SETTINGS01; omega), ← hx]
    exact headShown_settings _ (leAt_two_lt _ _)
  · rw [hkept (show 0x20000000 ≤ R.CPn_TEMP01 p + 4 * (h.val / 2) by unfold R.CPn_TEMP01; omega)
      (show R.CPn_TEMP01 p + 4 * (h.val / 2) < 0x20200000 by unfold R.CPn_TEMP01; omega), ← hx]
    exact headShown_temp _ (leAt_two_lt _ _)
  · have hidle : calAccept x l = x := if_pos (by rw [← hl]; exact htemp)
    rw [hidle] at hoffer ⊢
    rw [← hx] at hoffer ⊢
    exact (((popEvent_frame s.dev p).mono (List.nil_subset _) (by simp)).trans ((lineAccepted_frame want).mono (by simp) (by simp))).trans
      (hoffer.mono (by simp) (by simp))

end Sys2Proof.Machine

/-! # Camera register requests and exposure commands

What the commands of the control channel, its replies and its time limits leave of a port (R70 to R72, R76). -/

namespace Sys2Proof.Machine

theorem exec_ctlGo (p : Fin 12) (value : Word) (s : State) :
    exec (.ctlGo p value) s = s.done (regAccess (R.CPn_CTL_CMD p) true (ctlGoDev p value) s.dev) := rfl
theorem exec_regReply (p : Fin 12) (s : State) : exec (.regReply p) s = s.done (regReplyDev p s.dev) := rfl
theorem exec_ctlTimeout (p : Fin 12) (s : State) : exec (.ctlTimeout p) s = s.done (ctlTimeoutDev p s.dev) := rfl
theorem exec_camEvent (p : Fin 12) (s : State) : exec (.camEvent p) s = s.done (camEventDev p s.dev) := rfl
theorem exec_unknownCtl (p : Fin 12) (s : State) : exec (.unknownCtl p) s = s.done (unknownCtlDev p s.dev) := rfl
theorem exec_expGo (p : Fin 12) (value : Word) (s : State) :
    exec (.expGo p value) s = s.done (regAccess (R.CPn_EXP_CMD p) true (expGoDev p value) s.dev) := rfl

/-! ## The instants of lines -/

section
variable {as : List Nat} {ps : List Part} {d e : Device}

/-- The registers that the grid of the lines stands in. -/
abbrev gridRegs : List Nat :=
  [R.TB_STATUS, R.TB_PERIOD_NS, R.TB_PERIOD_FRAC, R.TB_ANCHOR_LINE, R.TB_ANCHOR_T_LO, R.TB_ANCHOR_T_HI, R.SLU_STATE]

/-- An update that leaves the grid, the time and the commit leaves the instants of the lines. -/
theorem SameBut.tLine (h : SameBut as ps d e) (hregs : ∀ a ∈ gridRegs, a ∉ as) (htb : Part.tb ∉ ps) (hslu : Part.slu ∉ ps) (c : Int) :
    Machine.tLine e c = Machine.tLine d c := by
  simp only [gridRegs, List.forall_mem_cons, List.not_mem_nil, false_imp_iff, implies_true, and_true] at hregs
  obtain ⟨hstatus, hns, hfrac, hline, hlo, hhi, hstate⟩ := hregs
  have hpart : e.tb = d.tb := h.parts .tb htb
  have hslu' : e.slu = d.slu := h.parts .slu hslu
  have hlining : e.lining = d.lining := h.bit hstatus
  have hperiod : periodQ e = periodQ d := by
    unfold periodQ
    rw [h.get hns, h.get hfrac]
  have hstaged : periodQ e.withStaged = periodQ d.withStaged := by
    unfold periodQ
    rw [h.withStaged_get hslu hns, h.withStaged_get hslu hfrac]
  have hanchor : anchorNow e = anchorNow d := by
    unfold anchorNow anchorT Device.countOf
    rw [hlining, hpart, h.get hline, h.pair hlo hhi]
  have hgrid : gridOf e c = gridOf d c := by
    unfold gridOf
    rw [hanchor, hperiod, hlining, hpart]
  unfold Machine.tLine
  rw [hgrid, hslu', hstaged, hlining, h.sluState hstate, hperiod]

theorem SameBut.trigDue (h : SameBut as ps d e) (hregs : ∀ a ∈ gridRegs, a ∉ as) (htb : Part.tb ∉ ps) (hslu : Part.slu ∉ ps) {p : Nat}
    (htrig : R.CPn_TRIG_CTRL p ∉ as) (c : Int) : Machine.trigDue e p c = Machine.trigDue d p c := by
  unfold Machine.trigDue trigLead
  rw [h.tLine hregs htb hslu, h.asOf_get (hregs _ (by simp)) hslu c htrig]

end

/-! ## Commands of the control channel -/

section
variable {d : Device} {p : Fin 12} {v : Word}

/-- The written fields of CPn_CTL_CMD. -/
def ctlWritten (d : Device) (p : Nat) (v : Word) : Device :=
  (d.set (F.CPn_CTL_CMD.COUNT p) ((F.CPn_CTL_CMD.COUNT p).of v)).set (F.CPn_CTL_CMD.WRITE p) ((F.CPn_CTL_CMD.WRITE p).of v)

/-- The request that a GO sends. -/
def goRequest (d : Device) (p : Nat) (v : Word) : RegRequest :=
  { purpose := .firmware
    write := (F.CPn_CTL_CMD.WRITE p).of v ≠ 0
    addr := d.get (F.CPn_CTL_ADDR.ADDR p)
    count := (F.CPn_CTL_CMD.COUNT p).of v
    data := if (F.CPn_CTL_CMD.WRITE p).of v ≠ 0 then
      (List.range ((F.CPn_CTL_CMD.COUNT p).of v)).map (fun k => (d.rd (R.CPn_CTL_DATAk p k)).toNat) else [] }

/-- A GO is refused. -/
def ctlRefused (d : Device) (p n : Nat) : Prop := d.bit (F.CPn_CTL_CMD.BUSY p) ∨ d.portState p ≠ psRun ∨ n = 0 ∨ 16 < n

theorem ctlGoDev_of_refused (hgo : (F.CPn_CTL_CMD.GO p).of v = 1) (h : ctlRefused (ctlWritten d p v) p ((F.CPn_CTL_CMD.COUNT p).of v)) :
    ctlGoDev p v d = ((ctlWritten d p v).set (F.CPn_CTL_CMD.RESULT p) 3).raise (F.CPn_FLAGS.CTL_REJ p) :=
  (if_neg (by rw [hgo]; decide)).trans (if_pos h)

theorem ctlGoDev_of_sent (hgo : (F.CPn_CTL_CMD.GO p).of v = 1) (h : ¬ ctlRefused (ctlWritten d p v) p ((F.CPn_CTL_CMD.COUNT p).of v)) :
    ctlGoDev p v d = regSend ((ctlWritten d p v).set (F.CPn_CTL_CMD.BUSY p) 1) p (goRequest (ctlWritten d p v) p v) :=
  (if_neg (by rw [hgo]; decide)).trans (if_neg h)

theorem ctlWritten_frame : SameBut [R.CPn_CTL_CMD p] [] d (ctlWritten d p v) := ((SameBut.refl _ _ d).set _ (by simp)).set _ (by simp)

theorem ctlWritten_busy : (ctlWritten d p v).get (F.CPn_CTL_CMD.BUSY p) = d.get (F.CPn_CTL_CMD.BUSY p) := by
  rw [ctlWritten, Device.get_set_ne _ _ _ _ (.inr (by simp)), Device.get_set_ne _ _ _ _ (.inr (by simp))]

theorem bit_iff_get_ne_zero (d : Device) (f : Fld) : d.bit f = true ↔ d.get f ≠ 0 := by
  unfold Device.bit
  simp

theorem Device.get_flag_lt_two (d : Device) {f : Fld} (hf : f.hi = f.lo) : d.get f < 2 := by
  have hlt := d.get_lt f
  rw [hf, Nat.add_sub_cancel_left] at hlt
  exact hlt

theorem ctlRefused_written_iff : ctlRefused (ctlWritten d p v) p ((F.CPn_CTL_CMD.COUNT p).of v) ↔
    d.get (F.CPn_CTL_CMD.BUSY p) = 1 ∨ d.portState p ≠ psRun ∨ (F.CPn_CTL_CMD.COUNT p).of v = 0 ∨ 16 < (F.CPn_CTL_CMD.COUNT p).of v := by
  have hlt := d.get_flag_lt_two (f := F.CPn_CTL_CMD.BUSY p) rfl
  have hstate : (ctlWritten d p v).portState p = d.portState p := ctlWritten_frame.get (by simp)
  unfold ctlRefused
  rw [bit_iff_get_ne_zero, ctlWritten_busy, hstate]
  exact or_congr_left (by omega)

/-- What a request that is sent leaves. -/
theorem regSend_port (d : Device) (p : Fin 12) (r : RegRequest) : ∃ tag, (regSend d p r).port p =
    { d.port p with regReq := some { r with tag := tag }, reqQ := (d.port p).reqQ ++ [false] } :=
  ⟨_, Device.port_setPort_self _ p _⟩

theorem regSend_frame (d : Device) (p : Fin 12) (r : RegRequest) : SameBut [] [.ports, .fresh] d (regSend d p r) := by
  have hfree : SameBut [] [.ports, .fresh] d { d with fresh := d.fresh + 1 } :=
    (SameBut.refl _ _ d).parts_only rfl rfl rfl rfl (fun q hq => by
      cases q with
      | fresh => exact absurd (by simp) hq
      | _ => rfl)
  exact hfree.setPort _ _ (by simp)

theorem ctlGo_sent_spec (hwrite : (F.CPn_CTL_CMD.WRITE p).of v < 2) :
    let e := regSend ((ctlWritten d p v).set (F.CPn_CTL_CMD.BUSY p) 1) p (goRequest (ctlWritten d p v) p v)
    e.get (F.CPn_CTL_CMD.BUSY p) = 1 ∧ (e.port p).reqQ = (d.port p).reqQ ++ [false] ∧
    (e.port p).regReq.map (fun r => (r.purpose, r.write, r.addr, r.count, r.resends)) =
      some (.firmware, decide ((F.CPn_CTL_CMD.WRITE p).of v = 1), d.get (F.CPn_CTL_ADDR.ADDR p), (F.CPn_CTL_CMD.COUNT p).of v, 0) ∧
    SameBut [R.CPn_CTL_CMD p] [.ports, .fresh] d e := by
  intro e
  have hset : SameBut [R.CPn_CTL_CMD p] [] d ((ctlWritten d p v).set (F.CPn_CTL_CMD.BUSY p) 1) := ctlWritten_frame.set _ (by simp)
  have hsend := regSend_frame ((ctlWritten d p v).set (F.CPn_CTL_CMD.BUSY p) 1) p (goRequest (ctlWritten d p v) p v)
  obtain ⟨tag, hport⟩ := regSend_port ((ctlWritten d p v).set (F.CPn_CTL_CMD.BUSY p) 1) p (goRequest (ctlWritten d p v) p v)
  refine ⟨?_, ?_, ?_, (hset.mono_parts (List.nil_subset _)).trans (hsend.mono_regs (List.nil_subset _))⟩
  · rw [hsend.get (by simp), Device.get_set_self _ _ _ (by simp)]
    simp
  · rw [hport, hset.port (by simp)]
  · have haddr : (ctlWritten d p v).get (F.CPn_CTL_ADDR.ADDR p) = d.get (F.CPn_CTL_ADDR.ADDR p) := ctlWritten_frame.get (by simp)
    have hflag : decide ((F.CPn_CTL_CMD.WRITE p).of v ≠ 0) = decide ((F.CPn_CTL_CMD.WRITE p).of v = 1) := decide_eq_decide.2 (by omega)
    rw [hport, Option.map_some, ← haddr, ← hflag]
    rfl

theorem ctlGo_refused_spec :
    let e := ((ctlWritten d p v).set (F.CPn_CTL_CMD.RESULT p) 3).raise (F.CPn_FLAGS.CTL_REJ p)
    e.get (F.CPn_CTL_CMD.RESULT p) = 3 ∧ e.get (F.CPn_FLAGS.CTL_REJ p) = 1 ∧
    e.get (F.CPn_CTL_CMD.BUSY p) = d.get (F.CPn_CTL_CMD.BUSY p) ∧ SameBut [R.CPn_CTL_CMD p, R.CPn_FLAGS p] [.evt] d e := by
  intro e
  refine ⟨?_, Device.get_raise_self _ _ rfl (by simp), ?_, ((ctlWritten_frame.mono (by simp) (by simp)).set _ (by simp)).raise (by simp) (by simp)⟩
  · rw [Device.get_raise, Device.get_set_ne _ _ _ _ (.inl (by simp)), Device.get_set_self _ _ _ (by simp)]
    simp
  · rw [Device.get_raise, Device.get_set_ne _ _ _ _ (.inl (by simp)), Device.get_set_ne _ _ _ _ (.inr (by simp)), ctlWritten_busy]

end

/-! ## Replies -/

section
variable {d : Device} {p : Fin 12}

/-- A control packet that can be read is the oldest event of its port. -/
theorem events_of_ctlEvent {type tag : Nat} {body : List Byte} (h : ctlEvent d p = some (type, tag, body)) : ∃ framed bytes rest,
    (d.port p).rx.events = .ctl framed bytes :: rest ∧ ctlParse framed bytes = some (type, tag, body) := by
  unfold ctlEvent at h
  split at h
  case h_1 framed bytes rest heq => exact ⟨framed, bytes, rest, heq, h⟩
  case h_2 => simp at h

/-- The body of a control packet is of 68 bytes at most. -/
theorem length_of_ctlEvent {type tag : Nat} {body : List Byte} (h : ctlEvent d p = some (type, tag, body)) : body.length ≤ 68 := by
  obtain ⟨framed, bytes, rest, -, hparse⟩ := events_of_ctlEvent h
  unfold ctlParse at hparse
  dsimp only at hparse
  split at hparse
  case isTrue hok =>
    obtain ⟨-, -, hlen, -⟩ := hok
    simp only [Option.some.injEq, Prod.mk.injEq] at hparse
    rw [← hparse.2.2]
    exact (List.length_take_le _ _).trans hlen
  case isFalse => simp at hparse

/-- The words of a reply. -/
def replyWords (body : List Byte) : List Nat := (List.range (body.length / 4 - 1)).map (fun k => leAt body (4 + 4 * k) 4)

theorem regReplyDev_of_event {tag : Nat} {body : List Byte} (h : ctlEvent d p = some (3, tag, body)) :
    regReplyDev p d = regReply p tag (leAt body 0 4) (replyWords body) (popEvent d p) := by
  unfold regReplyDev
  rw [h]
  rfl

/-- The port without the pending request. -/
def requestEnded (d : Device) (p : Nat) : Device := d.setPort p { d.port p with regReq := none, reqQ := (d.port p).reqQ.filter id }

theorem requestEnded_frame (d : Device) (p : Nat) : SameBut [] [.ports] d (requestEnded d p) := (SameBut.refl _ _ d).setPort _ _ (by simp)

theorem requestEnded_regReq (d : Device) (p : Fin 12) : ((requestEnded d p).port p).regReq = none := by
  rw [requestEnded, Device.port_setPort_self]

theorem regReply_of_none {tag status : Nat} {data : List Nat} (h : (d.port p).regReq = none) : regReply p tag status data d = frameErr d p := by
  unfold regReply
  dsimp only
  rw [h]

theorem regReply_of_firmware {tag status : Nat} {data : List Nat} {r : RegRequest} (h : (d.port p).regReq = some r) (hpurpose : r.purpose = .firmware)
    (htag : r.tag = tag) : regReply p tag status data d = firmwareReply (requestEnded d p) p r status data := by
  unfold regReply
  dsimp only
  rw [h]
  dsimp only
  rw [if_neg (not_not_intro htag), hpurpose]
  rfl

/-- The words of a reply stored. -/
def wordsStored (d : Device) (p : Nat) (data : List Nat) (n : Nat) : Device :=
  (List.range n).foldl (fun d k => d.wr (R.CPn_CTL_DATAk p k) (BitVec.ofNat 32 (data.getD k 0))) d

theorem wordsStored_succ (data : List Nat) (n : Nat) :
    wordsStored d p data (n + 1) = (wordsStored d p data n).wr (R.CPn_CTL_DATAk p n) (BitVec.ofNat 32 (data.getD n 0)) := by
  rw [wordsStored, List.range_succ, List.foldl_append]
  rfl

theorem ctlData_ne {k n : Nat} (h : k ≠ n) : R.CPn_CTL_DATAk p k ≠ R.CPn_CTL_DATAk p n := by
  unfold R.CPn_CTL_DATAk
  omega

theorem wordsStored_rd (data : List Nat) : ∀ n k, k < n → (wordsStored d p data n).rd (R.CPn_CTL_DATAk p k) = BitVec.ofNat 32 (data.getD k 0)
  | n + 1, k, hk => by
    rw [wordsStored_succ]
    by_cases hkn : k = n
    · rw [hkn, Device.rd_wr_self]
    · rw [Device.rd_wr_ne _ _ _ _ (ctlData_ne hkn), wordsStored_rd data n k (by omega)]

theorem wordsStored_frame (data : List Nat) : ∀ n, n ≤ 16 → SameBut ((List.range 16).map (R.CPn_CTL_DATAk p)) [] d (wordsStored d p data n)
  | 0, _ => .refl _ _ d
  | n + 1, hn => by
    rw [wordsStored_succ]
    exact (wordsStored_frame data n (by omega)).wr _ (List.mem_map.2 ⟨n, List.mem_range.2 (by omega), rfl⟩)

theorem ctlCmd_not_mem_data (p : Nat) : R.CPn_CTL_CMD p ∉ (List.range 16).map (R.CPn_CTL_DATAk p) := by
  rw [List.mem_map]
  rintro ⟨k, -, hk⟩
  unfold R.CPn_CTL_DATAk R.CPn_CTL_CMD at hk
  omega

/-- BUSY cleared and RESULT shown. -/
def resultShown (d : Device) (p result : Nat) : Device := (d.set (F.CPn_CTL_CMD.BUSY p) 0).set (F.CPn_CTL_CMD.RESULT p) result

theorem resultShown_frame (result : Nat) : SameBut [R.CPn_CTL_CMD p] [] d (resultShown d p result) :=
  ((SameBut.refl _ _ d).set _ (by simp)).set _ (by simp)

theorem resultShown_busy (result : Nat) : (resultShown d p result).get (F.CPn_CTL_CMD.BUSY p) = 0 := by
  rw [resultShown, Device.get_set_ne _ _ _ _ (.inr (by simp)), Device.get_set_self _ _ _ (by simp)]
  simp

theorem resultShown_result {result : Nat} (h : result < 8) : (resultShown d p result).get (F.CPn_CTL_CMD.RESULT p) = result := by
  rw [resultShown, Device.get_set_self _ _ _ (by simp)]
  exact Nat.mod_eq_of_lt h

theorem firmwareReply_eq (r : RegRequest) (status : Nat) (data : List Nat) : firmwareReply d p r status data =
    if status ≠ 0 then (resultShown d p (if status = 0 then 0 else 1)).set (F.CPn_CTL_CMD.CAM_STATUS p) status
    else if r.write then resultShown d p (if status = 0 then 0 else 1)
    else wordsStored (resultShown d p (if status = 0 then 0 else 1)) p data (min r.count data.length) := rfl

/-- What the reply to a firmware request leaves. -/
theorem firmwareReply_spec (r : RegRequest) (status : Nat) {data : List Nat} (hlen : data.length ≤ 16) : let e := firmwareReply d p r status data
    e.get (F.CPn_CTL_CMD.BUSY p) = 0 ∧ e.get (F.CPn_CTL_CMD.RESULT p) = (if status = 0 then 0 else 1) ∧
    (status ≠ 0 → e.get (F.CPn_CTL_CMD.CAM_STATUS p) = status % 256) ∧
    (status = 0 ∧ r.write = false → ∀ k, k < min r.count data.length → e.rd (R.CPn_CTL_DATAk p k) = BitVec.ofNat 32 (data.getD k 0)) ∧
    SameBut ([R.CPn_CTL_CMD p] ++ (List.range 16).map (R.CPn_CTL_DATAk p)) [] d e := by
  intro e
  have he : e = _ := firmwareReply_eq r status data
  have hresult : (if status = 0 then 0 else 1) < 8 := by split <;> decide
  have hframe : SameBut ([R.CPn_CTL_CMD p] ++ (List.range 16).map (R.CPn_CTL_DATAk p)) [] d (resultShown d p (if status = 0 then 0 else 1)) :=
    (resultShown_frame _).mono_regs (List.subset_append_left _ _)
  by_cases hstatus : status = 0
  · rw [if_neg (not_not_intro hstatus)] at he
    by_cases hwrite : r.write = true
    · rw [if_pos hwrite] at he
      rw [he]
      exact ⟨resultShown_busy _, resultShown_result hresult, fun h => absurd hstatus h, fun h => absurd hwrite (ne_true_of_eq_false h.2), hframe⟩
    · rw [if_neg hwrite] at he
      rw [he]
      have hstored := wordsStored_frame (d := resultShown d p (if status = 0 then 0 else 1)) (p := p) data (min r.count data.length) (by omega)
      refine ⟨?_, ?_, fun h => absurd hstatus h, fun _ k hk => wordsStored_rd data _ k hk, hframe.trans (hstored.mono_regs (List.subset_append_right _ _))⟩
      · rw [hstored.get (ctlCmd_not_mem_data p), resultShown_busy]
      · rw [hstored.get (ctlCmd_not_mem_data p), resultShown_result hresult]
  · rw [if_pos hstatus] at he
    rw [he]
    refine ⟨?_, ?_, fun _ => ?_, fun h => absurd h.1 hstatus, hframe.set _ (by simp)⟩
    · rw [Device.get_set_ne _ _ _ _ (.inr (by simp)), resultShown_busy]
    · rw [Device.get_set_ne _ _ _ _ (.inr (by simp)), resultShown_result hresult]
    · rw [Device.get_set_self _ _ _ (by simp)]
      rfl

/-- A count in CPn_FRAME_ERR, of a packet that has left its port. -/
theorem frameErr_spec : let e := frameErr (popEvent d p) p
    e.get (F.CPn_FRAME_ERR.COUNT p) = min (d.get (F.CPn_FRAME_ERR.COUNT p) + 1) 0xFFFFFFFF ∧ e.get (F.CPn_FLAGS.CRC_ERR p) = 1 ∧
    SameBut [R.CPn_FRAME_ERR p, R.CPn_FLAGS p] [.ports, .evt] d e := by
  intro e
  obtain ⟨hcount, hflag, hframe⟩ := counted_flagged (d := popEvent d p) (c := F.CPn_FRAME_ERR.COUNT p) (f := F.CPn_FLAGS.CRC_ERR p)
    (by simp) (by simp) rfl (by simp)
  exact ⟨hcount, hflag, ((popEvent_frame d p).mono (List.nil_subset _) (by simp)).trans (hframe.mono_parts (by simp))⟩

/-! ## Time limits, events and unknown packets -/

theorem ctlTimeoutDev_of_resend {r : RegRequest} (h : (d.port p).regReq = some r) (hsent : (d.port p).reqQ.contains false = false) (hless : r.resends < 3) :
    ctlTimeoutDev p d = d.setPort p { d.port p with regReq := some { r with resends := r.resends + 1 }, reqQ := (d.port p).reqQ ++ [false] } := by
  unfold ctlTimeoutDev
  dsimp only
  rw [h]
  exact (if_neg (ne_true_of_eq_false hsent)).trans (if_pos hless)

theorem ctlEnd_of_firmware {r : RegRequest} (h : (d.port p).regReq = some r) (hpurpose : r.purpose = .firmware) (result : Nat) :
    ctlEnd d p result = resultShown (requestEnded d p) p result := by
  obtain ⟨purpose, write, addr, count, data, tag, resends⟩ := r
  subst hpurpose
  unfold ctlEnd
  dsimp only
  rw [h]
  rfl

theorem ctlTimeoutDev_of_ended {r : RegRequest} (h : (d.port p).regReq = some r) (hsent : (d.port p).reqQ.contains false = false) (hthree : 3 ≤ r.resends)
    (hpurpose : r.purpose = .firmware) : ctlTimeoutDev p d = (resultShown (requestEnded d p) p 2).raise (F.CPn_FLAGS.CTL_TIMEOUT p) := by
  have hend : ctlTimeoutDev p d = (ctlEnd d p 2).raise (F.CPn_FLAGS.CTL_TIMEOUT p) := by
    unfold ctlTimeoutDev
    dsimp only
    rw [h]
    exact (if_neg (ne_true_of_eq_false hsent)).trans (if_neg (by omega))
  rw [hend, ctlEnd_of_firmware h hpurpose]

theorem ctlTimeout_ended_spec : let e := (resultShown (requestEnded d p) p 2).raise (F.CPn_FLAGS.CTL_TIMEOUT p)
    (e.port p).regReq = none ∧ e.get (F.CPn_CTL_CMD.BUSY p) = 0 ∧ e.get (F.CPn_CTL_CMD.RESULT p) = 2 ∧ e.get (F.CPn_FLAGS.CTL_TIMEOUT p) = 1 ∧
    SameBut [R.CPn_CTL_CMD p, R.CPn_FLAGS p] [.ports, .evt] d e := by
  intro e
  have hshown : SameBut [R.CPn_CTL_CMD p, R.CPn_FLAGS p] [.evt] (requestEnded d p) e :=
    ((resultShown_frame 2).mono (by simp) (by simp)).raise (by simp) (by simp)
  refine ⟨?_, ?_, ?_, Device.get_raise_self _ _ rfl (by simp), ((requestEnded_frame d p).mono (by simp) (by simp)).trans (hshown.mono_parts (by simp))⟩
  · rw [hshown.port (by simp), requestEnded_regReq]
  · rw [Device.get_raise, Device.get_set_ne _ _ _ _ (.inl (by simp)), resultShown_busy]
  · rw [Device.get_raise, Device.get_set_ne _ _ _ _ (.inl (by simp)), resultShown_result (by decide)]

theorem camEventDev_of_event {tag : Nat} {body : List Byte} (h : ctlEvent d p = some (8, tag, body)) :
    camEventDev p d = ((popEvent d p).set (F.CPn_CAM_EVENT.CODE p) (leAt body 0 4)).raise (F.CPn_FLAGS.CAM_EVENT p) := by
  unfold camEventDev
  rw [h]
  rfl

theorem leAt_four_lt (bytes : List Byte) (k : Nat) : leAt bytes k 4 < 2 ^ 32 :=
  (leNat_lt _).trans_le (Nat.pow_le_pow_right (by decide) (List.length_take_le _ _))

theorem camEvent_spec {code : Nat} (hcode : code < 2 ^ 32) :
    let e := ((popEvent d p).set (F.CPn_CAM_EVENT.CODE p) code).raise (F.CPn_FLAGS.CAM_EVENT p)
    e.get (F.CPn_CAM_EVENT.CODE p) = code ∧ e.get (F.CPn_FLAGS.CAM_EVENT p) = 1 ∧
    SameBut [R.CPn_CAM_EVENT p, R.CPn_FLAGS p] [.ports, .evt] d e := by
  intro e
  refine ⟨?_, Device.get_raise_self _ _ rfl (by simp), (((popEvent_frame d p).mono (by simp) (by simp)).set _ (by simp)).raise (by simp) (by simp)⟩
  rw [Device.get_raise, Device.get_set_ne _ _ _ _ (.inl (by simp)), Device.get_set_self _ _ _ (by simp)]
  exact Nat.mod_eq_of_lt hcode

theorem unknownCtlDev_of_unread {framed : Bool} {bytes : List Byte} {rest : List LinkEvent} (h : (d.port p).rx.events = .ctl framed bytes :: rest)
    (hparse : ctlParse framed bytes = none) : unknownCtlDev p d = frameErr (popEvent d p) p := by
  unfold unknownCtlDev
  rw [h]
  dsimp only
  rw [hparse]

theorem unknownCtlDev_of_type {type tag : Nat} {body : List Byte} (h : ctlEvent d p = some (type, tag, body)) (htype : type ≠ 3 ∧ type ≠ 5 ∧ type ≠ 8) :
    unknownCtlDev p d = (frameErr (popEvent d p) p).raise (F.CPn_FLAGS.UNKNOWN_CTL p) := by
  obtain ⟨framed, bytes, rest, hevents, hparse⟩ := events_of_ctlEvent h
  obtain ⟨h3, h5, h8⟩ := htype
  unfold unknownCtlDev
  rw [hevents]
  dsimp only
  rw [hparse]
  exact (if_neg (by rintro (h | ⟨h | h, -⟩) <;> contradiction)).trans (if_neg (by rintro (h | h) <;> contradiction))

theorem unknownCtl_spec : let e := (frameErr (popEvent d p) p).raise (F.CPn_FLAGS.UNKNOWN_CTL p)
    e.get (F.CPn_FRAME_ERR.COUNT p) = min (d.get (F.CPn_FRAME_ERR.COUNT p) + 1) 0xFFFFFFFF ∧ e.get (F.CPn_FLAGS.UNKNOWN_CTL p) = 1 ∧
    SameBut [R.CPn_FRAME_ERR p, R.CPn_FLAGS p] [.ports, .evt] d e := by
  intro e
  obtain ⟨hcount, -, hframe⟩ := frameErr_spec (d := d) (p := p)
  refine ⟨?_, Device.get_raise_self _ _ rfl (by simp), hframe.raise (by simp) (by simp)⟩
  rw [Device.get_raise, Device.get_set_ne _ _ _ _ (.inl (by simp)), hcount]

end

/-! ## Exposure commands -/

section
variable {d : Device} {p : Fin 12} {v : Word}

/-- The head of an exposure command written. -/
def expWritten (d : Device) (p : Nat) (v : Word) : Device := d.set (F.CPn_EXP_CMD.HEAD p) ((F.CPn_EXP_CMD.HEAD p).of v)

/-- The exposure that the registers of a port describe. -/
def exposureOf (d : Device) (p : Nat) (v : Word) : Exposure :=
  { head := (F.CPn_EXP_CMD.HEAD p).of v
    settings := d.get (F.CPn_EXP_SET.SETTINGS_ID p)
    line := d.get (F.CPn_EXP_LINE.APPLY_LINE p)
    count := d.countOf (d.get (F.CPn_EXP_LINE.APPLY_LINE p))
    expNs := d.get (F.CPn_EXP_TIME.EXPOSURE_NS p)
    gain := d.get (F.CPn_EXP_SET.GAIN p) }

theorem expWritten_frame : SameBut [R.CPn_EXP_CMD p] [] d (expWritten d p v) := (SameBut.refl _ _ d).set _ (by simp)

/-- The line count that an exposure command names. -/
def expCount (d : Device) (p : Nat) : Int := d.countOf (d.get (F.CPn_EXP_LINE.APPLY_LINE p))

/-- An exposure command is refused. -/
def expRefused (d : Device) (p : Nat) : Prop := d.bit (F.CPn_EXP_CMD.BUSY p) ∨ d.portState p ≠ psRun ∨ expTooLate d p (expCount d p)

theorem expTooLate_written (c : Int) : expTooLate (expWritten d p v) p c = expTooLate d p c := by
  have hframe := expWritten_frame (d := d) (p := p) (v := v)
  have houtside : ∀ a ∈ gridRegs, a < 0x20000000 ∨ 0x20100000 ≤ a := by decide
  have hgrid : ∀ a ∈ gridRegs, a ∉ [R.CPn_EXP_CMD p.val] := fun a ha hmem => by
    have hp := p.isLt
    have hout := houtside a ha
    rw [List.mem_singleton] at hmem
    unfold R.CPn_EXP_CMD at hmem
    omega
  have hlining : (expWritten d p v).lining = d.lining := hframe.bit (hgrid _ (by simp))
  have hdue : trigDue (expWritten d p v) p c = trigDue d p c := hframe.trigDue hgrid (by simp) (by simp) (by simp) c
  unfold expTooLate
  rw [hlining, hdue]
  rfl

theorem expCount_written : expCount (expWritten d p v) p = expCount d p := by
  unfold expCount
  rw [expWritten_frame.get (by simp)]
  rfl

theorem expRefused_written_iff : expRefused (expWritten d p v) p ↔
    d.get (F.CPn_EXP_CMD.BUSY p) = 1 ∨ d.portState p ≠ psRun ∨ expTooLate d p (expCount d p) = true := by
  have hlt := d.get_flag_lt_two (f := F.CPn_EXP_CMD.BUSY p) rfl
  have hbusy : (expWritten d p v).get (F.CPn_EXP_CMD.BUSY p) = d.get (F.CPn_EXP_CMD.BUSY p) := Device.get_set_ne _ _ _ _ (.inr (by simp))
  have hstate : (expWritten d p v).portState p = d.portState p := expWritten_frame.get (by simp)
  unfold expRefused
  rw [bit_iff_get_ne_zero, hbusy, hstate, expCount_written, expTooLate_written]
  exact or_congr_left (by omega)

theorem expGoDev_of_refused (hgo : (F.CPn_EXP_CMD.GO p).of v = 1) (h : expRefused (expWritten d p v) p) :
    expGoDev p v d = (expWritten d p v).raise (F.CPn_FLAGS.EXP_REJ p) :=
  (if_neg (by rw [hgo]; decide)).trans (if_pos h)

/-- An exposure command accepted. -/
def expTaken (d : Device) (p : Nat) (v : Word) : Device :=
  ((expWritten d p v).set (F.CPn_EXP_CMD.BUSY p) 1).setPort p
    { (expWritten d p v).port p with exposure := some (exposureOf (expWritten d p v) p v) }

theorem expGoDev_of_accepted (hgo : (F.CPn_EXP_CMD.GO p).of v = 1) (h : ¬ expRefused (expWritten d p v) p) : expGoDev p v d = expTaken d p v :=
  (if_neg (by rw [hgo]; decide)).trans (if_neg h)

theorem exposureOf_written : exposureOf (expWritten d p v) p v = exposureOf d p v := by
  have hframe := expWritten_frame (d := d) (p := p) (v := v)
  have hcount := expCount_written (d := d) (p := p) (v := v)
  unfold expCount at hcount
  unfold exposureOf
  rw [hcount, hframe.get (by simp), hframe.get (by simp), hframe.get (by simp), hframe.get (by simp)]

theorem expTaken_spec : (expTaken d p v).get (F.CPn_EXP_CMD.BUSY p) = 1 ∧ ((expTaken d p v).port p).exposure = some (exposureOf d p v) ∧
    SameBut [R.CPn_EXP_CMD p] [.ports] d (expTaken d p v) := by
  refine ⟨?_, ?_, ((expWritten_frame.mono_parts (List.nil_subset _)).set _ (by simp)).setPort _ _ (by simp)⟩
  · have hport : SameBut [] [.ports] ((expWritten d p v).set (F.CPn_EXP_CMD.BUSY p) 1) (expTaken d p v) := (SameBut.refl _ _ _).setPort _ _ (by simp)
    rw [hport.get (by simp), Device.get_set_self _ _ _ (by simp)]
    simp
  · rw [expTaken, Device.port_setPort_self, exposureOf_written]

end

/-- Settles O13, clause by clause, from what the commands, the replies and the time limits leave. -/
theorem cameraControlRequests : Obligations.CameraControlRequests := by
  unfold Obligations.CameraControlRequests
  refine ⟨fun p value s hgo hidle hgate => ?_, fun p value s hgo hrefused hgate => ?_, fun p tag body r s hevent hreq => ?_, fun p tag body s hevent => ?_,
    fun p r s hreq => ?_, fun p r s hreq => ?_, fun p tag body s hevent => ?_, fun p framed bytes rest s hevent => ?_, fun p type tag body s hevent => ?_,
    fun p value s hgo hlate hgate => ?_, fun p value s hgo hrefused hgate => ?_⟩
  · obtain ⟨hgo, hone, hmost⟩ := hgo
    have hsent : ¬ ctlRefused (ctlWritten s.dev p value) p ((F.CPn_CTL_CMD.COUNT p).of value) := by
      rw [ctlRefused_written_iff, hidle.1, hidle.2]
      omega
    exact ⟨_, (exec_ctlGo p value s).trans (congrArg s.done ((regAccess_of_gateOpen hgate _ _).trans (ctlGoDev_of_sent hgo hsent))),
      ctlGo_sent_spec ((F.CPn_CTL_CMD.WRITE p).of_lt value)⟩
  · exact ⟨_, (exec_ctlGo p value s).trans (congrArg s.done ((regAccess_of_gateOpen hgate _ _).trans
      (ctlGoDev_of_refused hgo (ctlRefused_written_iff.2 hrefused)))), ctlGo_refused_spec⟩
  · obtain ⟨hreg, hpurpose, htag⟩ := hreq
    have hlen := length_of_ctlEvent hevent
    have hwords : (replyWords body).length = body.length / 4 - 1 := by rw [replyWords, List.length_map, List.length_range]
    have hreply := (regReplyDev_of_event hevent).trans
      (regReply_of_firmware (d := popEvent s.dev p) (by rw [popEvent_port]; exact hreg) hpurpose htag)
    obtain ⟨hbusy, hresult, hstatus, hdata, hframe⟩ := firmwareReply_spec (d := requestEnded (popEvent s.dev p) p) (p := p) r (leAt body 0 4)
      (data := replyWords body) (by omega)
    have hended : SameBut [] [.ports] s.dev (requestEnded (popEvent s.dev p) p) := (popEvent_frame s.dev p).trans (requestEnded_frame _ p)
    refine ⟨_, (exec_regReply p s).trans (congrArg s.done hreply), hbusy, hresult, hstatus, fun hread k hk => ?_, ?_,
      (hended.mono_regs (List.nil_subset _)).trans (hframe.mono_parts (List.nil_subset _))⟩
    · rw [hdata hread k (by rw [hwords]; exact hk)]
      congr 1
      unfold replyWords
      rw [List.getD_eq_getElem _ _ (by simp; omega), List.getElem_map, List.getElem_range]
    · rw [hframe.port (by simp), requestEnded_regReq]
  · have hnone : ((popEvent s.dev p).port p).regReq = none := by
      rw [popEvent_port]
      exact hevent.2
    obtain ⟨hcount, -, hframe⟩ := frameErr_spec (d := s.dev) (p := p)
    exact ⟨_, (exec_regReply p s).trans (congrArg s.done ((regReplyDev_of_event hevent.1).trans (regReply_of_none hnone))), hcount, hframe⟩
  · refine ⟨_, (exec_ctlTimeout p s).trans (congrArg s.done (ctlTimeoutDev_of_resend hreq.1 hreq.2.1 hreq.2.2)), ?_, ?_,
      (SameBut.refl _ _ _).setPort _ _ (by simp)⟩
    · rw [Device.port_setPort_self]
    · rw [Device.port_setPort_self]
  · obtain ⟨hreg, hsent, hthree, hpurpose⟩ := hreq
    exact ⟨_, (exec_ctlTimeout p s).trans (congrArg s.done (ctlTimeoutDev_of_ended hreg hsent hthree hpurpose)), ctlTimeout_ended_spec⟩
  · exact ⟨_, (exec_camEvent p s).trans (congrArg s.done (camEventDev_of_event hevent)), camEvent_spec (leAt_four_lt _ _)⟩
  · exact ⟨_, (exec_unknownCtl p s).trans (congrArg s.done (unknownCtlDev_of_unread hevent.1 hevent.2)), frameErr_spec⟩
  · exact ⟨_, (exec_unknownCtl p s).trans (congrArg s.done (unknownCtlDev_of_type hevent.1 hevent.2)), unknownCtl_spec⟩
  · obtain ⟨hgo, hbusy, hrun⟩ := hgo
    have htaken : ¬ expRefused (expWritten s.dev p value) p := by
      rw [expRefused_written_iff, hbusy, hrun]
      rintro (h | h | h)
      · exact absurd h (by decide)
      · exact h rfl
      · exact Bool.false_ne_true (hlate.symm.trans h)
    exact ⟨_, (exec_expGo p value s).trans (congrArg s.done ((regAccess_of_gateOpen hgate _ _).trans (expGoDev_of_accepted hgo htaken))), expTaken_spec⟩
  · have hraise : SameBut [R.CPn_EXP_CMD p, R.CPn_FLAGS p] [.evt] s.dev ((expWritten s.dev p value).raise (F.CPn_FLAGS.EXP_REJ p)) :=
      (expWritten_frame.mono (by simp) (by simp)).raise (by simp) (by simp)
    exact ⟨_, (exec_expGo p value s).trans (congrArg s.done ((regAccess_of_gateOpen hgate _ _).trans
      (expGoDev_of_refused hgo (expRefused_written_iff.2 hrefused)))), Device.get_raise_self _ _ rfl (by simp),
      congrArg Port.exposure (hraise.port (by simp) p), hraise⟩

end Sys2Proof.Machine

/-! # One lane

What entering a state leaves of any lane, and how a lane's own state stands apart from the others' (R51, Table 2.3). -/

namespace Sys2Proof.Machine

/-! ## Further state -/

/-- The lane whose further state stands at place `i`. -/
def laneOfIdx (i : Nat) : Lane :=
  if i < 48 then .cpRx (Fin.ofNat 12 (i / 4)) (Fin.ofNat 4 i)
  else if i < 60 then .cpBc (Fin.ofNat 12 (i - 48))
  else if i < 66 then .peerRx (Fin.ofNat 3 ((i - 60) / 2)) (Fin.ofNat 2 (i - 60))
  else if i < 72 then .peerTx (Fin.ofNat 3 ((i - 66) / 2)) (Fin.ofNat 2 (i - 66))
  else if i < 76 then .spRx (Fin.ofNat 4 (i - 72))
  else if i < 80 then .spTx (Fin.ofNat 4 (i - 76))
  else if i < 84 then .ethRx (Fin.ofNat 4 (i - 80))
  else .ethTx (Fin.ofNat 4 (i - 84))

theorem laneOfIdx_laneIdx (l : Lane) : laneOfIdx (laneIdx l) = l := by
  cases l with
  | cpRx p k => decide +revert
  | cpBc p => decide +revert
  | peerRx n k => decide +revert
  | peerTx n k => decide +revert
  | spRx n => decide +revert
  | spTx n => decide +revert
  | ethRx k => decide +revert
  | ethTx k => decide +revert

theorem laneIdx_ne {k l : Lane} (h : k ≠ l) : laneIdx k ≠ laneIdx l := fun heq =>
  h (by rw [← laneOfIdx_laneIdx k, heq, laneOfIdx_laneIdx])

theorem Device.laneX_setLaneX_ne (d : Device) {k l : Lane} (h : k ≠ l) (x : LaneX) : (d.setLaneX l x).laneX k = d.laneX k :=
  unit_withUnit_ne _ (laneIdx_ne h) x

section
variable {as : List Nat} {ps : List Part} {d e : Device}

theorem SameBut.laneX (h : SameBut as ps d e) (hp : Part.lanes ∉ ps) (l : Lane) : e.laneX l = d.laneX l :=
  congrArg (fun v : Vector LaneX 88 => unit v (laneIdx l)) (h.parts .lanes hp)

end

/-! ## Entering a state -/

/-- The registers that entering a state writes. -/
def enterRegs (l : Lane) : List Nat :=
  [R.LN_STATUS (laneBase l), R.LN_EYE (laneBase l)] ++
    match l with
    | .cpRx p _ => [R.CPn_STATUS p.val]
    | _ => []

theorem enterRegs_subset_laneRegs (l : Lane) : enterRegs l ⊆ laneRegs l := List.subset_cons_self _ _

/-- The lane's STATE written, its eye no longer valid where it leaves SYNC. -/
def laneEntered (d : Device) (l : Lane) (st : Nat) : Device :=
  if d.lnState l = lnSync ∧ st ≠ lnSync then
    ((d.set (F.LN_STATUS.STATE (laneBase l)) st).set (F.LN_EYE.VALID (laneBase l)) 0).setLaneX l { d.laneX l with rx := [] }
  else d.set (F.LN_STATUS.STATE (laneBase l)) st

/-- The port of a camera lane counts it among those in SYNC. -/
def syncShown (d : Device) (l : Lane) (st : Nat) : Device :=
  match l with
  | .cpRx p k => d.setBit ((F.CPn_STATUS.SYNC_LANES p.val).bitN k.val) (st = lnSync)
  | _ => d

theorem laneBase_cpRx (p : Fin 12) (k : Fin 4) : laneBase (.cpRx p k) = 0x20008000 + 0x10000 * p.val + 0x100 * k.val := rfl

section
variable (d : Device) (l : Lane) (st : Nat)

theorem lnEnter_eq : d.lnEnter l st = syncShown (laneEntered d l st) l st := by cases l <;> rfl

/-- The registers of a lane's own slot. -/
def InSlot (l : Lane) (a : Nat) : Prop := laneBase l ≤ a ∧ a < laneBase l + 0x100

theorem syncShown_rd {a : Nat} (ha : InSlot l a) : (syncShown d l st).rd a = d.rd a := by
  obtain ⟨hlo, hhi⟩ := ha
  cases l with
  | cpRx p k =>
    refine Device.rd_wr_ne _ _ _ _ fun heq => ?_
    have hstatus : a = R.CPn_STATUS p := heq
    rw [laneBase_cpRx] at hlo hhi
    unfold R.CPn_STATUS at hstatus
    omega
  | _ => rfl

theorem syncShown_lanes : (syncShown d l st).lanes = d.lanes := by cases l <;> rfl

theorem syncShown_frame : SameBut (enterRegs l) [] d (syncShown d l st) := by
  cases l with
  | cpRx p k => exact (SameBut.refl _ _ d).setBit _ (List.mem_append_right _ (List.mem_singleton_self _))
  | _ => exact .refl _ _ d

theorem laneEntered_frame : SameBut [R.LN_STATUS (laneBase l), R.LN_EYE (laneBase l)] [.lanes] d (laneEntered d l st) :=
  iteInduction (fun _ => (((SameBut.refl _ _ d).set _ (by simp)).set _ (by simp)).setLaneX _ _ (by simp)) fun _ => (SameBut.refl _ _ d).set _ (by simp)

theorem lnEnter_frame_enterRegs : SameBut (enterRegs l) [.lanes] d (d.lnEnter l st) := by
  rw [lnEnter_eq]
  exact ((laneEntered_frame d l st).mono_regs (List.subset_append_left _ _)).trans ((syncShown_frame _ l st).mono_parts (List.nil_subset _))

/-- A lane that does not leave SYNC keeps its further state. -/
theorem lnEnter_frame_of_kept (h : d.lnState l ≠ lnSync ∨ st = lnSync) : SameBut (enterRegs l) [] d (d.lnEnter l st) := by
  rw [lnEnter_eq, laneEntered, if_neg (by rintro ⟨hsync, hne⟩; exact h.elim (· hsync) hne)]
  exact ((SameBut.refl _ _ d).set _ (by simp [enterRegs])).trans (syncShown_frame _ l st)

theorem inSlot_status : InSlot l (R.LN_STATUS (laneBase l)) := by unfold InSlot R.LN_STATUS; omega
theorem inSlot_ctrl : InSlot l (R.LN_CTRL (laneBase l)) := by unfold InSlot R.LN_CTRL; omega
theorem inSlot_flags : InSlot l (R.LN_FLAGS (laneBase l)) := by unfold InSlot R.LN_FLAGS; omega
theorem inSlot_farTaps : InSlot l (R.LN_FAR_TAPS (laneBase l)) := by unfold InSlot R.LN_FAR_TAPS; omega
theorem inSlot_lockLoss : InSlot l (R.LN_LOCK_LOSS (laneBase l)) := by unfold InSlot R.LN_LOCK_LOSS; omega

/-- Entering a state leaves the lane's slot but its LN_STATUS and LN_EYE. -/
theorem lnEnter_rd {a : Nat} (ha : InSlot l a) (hne : a ≠ R.LN_STATUS (laneBase l) ∧ a ≠ R.LN_EYE (laneBase l)) : (d.lnEnter l st).rd a = d.rd a := by
  rw [lnEnter_eq, syncShown_rd _ l st ha, (laneEntered_frame d l st).regs a (by simp [hne.1, hne.2])]

theorem lnEnter_get {f : Fld} (ha : InSlot l f.addr) (hne : f.addr ≠ R.LN_STATUS (laneBase l) ∧ f.addr ≠ R.LN_EYE (laneBase l)) :
    (d.lnEnter l st).get f = d.get f := congrArg f.of (lnEnter_rd d l st ha hne)

/-- The fields of LN_STATUS after a state is entered are those after STATE is written. -/
theorem lnEnter_status_rd : (d.lnEnter l st).rd (R.LN_STATUS (laneBase l)) = (d.set (F.LN_STATUS.STATE (laneBase l)) st).rd (R.LN_STATUS (laneBase l)) := by
  have heye : SameBut [R.LN_EYE (laneBase l)] [.lanes] (d.set (F.LN_STATUS.STATE (laneBase l)) st) (laneEntered d l st) :=
    iteInduction (fun _ => ((SameBut.refl _ _ _).set _ (by simp)).setLaneX _ _ (by simp)) fun _ => .refl _ _ _
  rw [lnEnter_eq, syncShown_rd _ l st (inSlot_status l), heye.regs _ (by simp)]

theorem lnEnter_state {st : Nat} (hst : st < 16) : (d.lnEnter l st).lnState l = st := by
  have hset : (d.set (F.LN_STATUS.STATE (laneBase l)) st).get (F.LN_STATUS.STATE (laneBase l)) = st :=
    (Device.get_set_self _ _ _ (by simp)).trans (Nat.mod_eq_of_lt hst)
  exact (congrArg (F.LN_STATUS.STATE (laneBase l)).of (lnEnter_status_rd d l st)).trans hset

/-- Entering a state keeps the other fields of LN_STATUS. -/
theorem lnEnter_status_get {f : Fld} (ha : f.addr = R.LN_STATUS (laneBase l)) (hf : 3 < f.lo) : (d.lnEnter l st).get f = d.get f := by
  have hset : (d.set (F.LN_STATUS.STATE (laneBase l)) st).get f = d.get f := Device.get_set_ne _ _ _ _ (.inr (.inl hf))
  unfold Device.get at hset ⊢
  rw [ha] at hset ⊢
  rw [lnEnter_status_rd, hset]

theorem lnEnter_laneX_ne {k : Lane} (h : k ≠ l) : (d.lnEnter l st).laneX k = d.laneX k := by
  have hentered : (laneEntered d l st).laneX k = d.laneX k := by
    unfold laneEntered
    split
    · exact Device.laneX_setLaneX_ne _ h _
    · rfl
  rw [lnEnter_eq, ← hentered]
  exact congrArg (fun v : Vector LaneX 88 => unit v (laneIdx k)) (syncShown_lanes _ l st)

/-- Entering a state changes no more of the lane's further state than what it has passed on. -/
theorem lnEnter_laneX_self : (d.lnEnter l st).laneX l = { d.laneX l with rx := ((d.lnEnter l st).laneX l).rx } := by
  have hshown : (d.lnEnter l st).laneX l = (laneEntered d l st).laneX l := by
    rw [lnEnter_eq]
    exact congrArg (fun v : Vector LaneX 88 => unit v (laneIdx l)) (syncShown_lanes _ l st)
  have hentered : (laneEntered d l st).laneX l = { d.laneX l with rx := ((laneEntered d l st).laneX l).rx } := by
    unfold laneEntered
    split
    · rw [Device.laneX_setLaneX_self]
    · rfl
  rw [hshown]
  exact hentered

end

end Sys2Proof.Machine

/-! # Signal and lock of a receive lane

What signal, lock and their loss leave of a lane, before its port follows (R39, R40, Table 2.3). -/

namespace Sys2Proof.Machine

theorem exec_lossOfSignal (l : Lane) (s : State) : exec (.lossOfSignal l) s = s.done (laneCheck l (lnSignalLost s.dev l)) := rfl
theorem exec_signalPresent (l : Lane) (s : State) : exec (.signalPresent l) s = s.done (laneCheck l (lnSignalPresent s.dev l)) := rfl
theorem exec_cdrLocked (l : Lane) (s : State) : exec (.cdrLocked l) s = s.done (laneCheck l (lnCdrLocked s.dev l)) := rfl
theorem exec_lockLost (l : Lane) (s : State) : exec (.lockLost l) s = s.done (laneCheck l (lnClockLost s.dev l)) := rfl

section
variable {d : Device} {l : Lane}

/-- The lane with signal or without. -/
def signalled (d : Device) (l : Lane) (present : Bool) : Device := d.setLaneX l { d.laneX l with signal := present }

theorem signalled_laneX (present : Bool) : (signalled d l present).laneX l = { d.laneX l with signal := present } := Device.laneX_setLaneX_self d l _

theorem signalled_laneX_ne (present : Bool) {k : Lane} (h : k ≠ l) : (signalled d l present).laneX k = d.laneX k := Device.laneX_setLaneX_ne d h _

theorem signalled_frame (present : Bool) : SameBut [] [.lanes] d (signalled d l present) := (SameBut.refl _ _ d).setLaneX _ _ (by simp)

theorem lnLocked_iff : lnLocked d l = true ↔ lnHunt ≤ d.lnState l ∧ d.lnState l ≤ lnSync := by
  unfold lnLocked
  rw [Bool.and_eq_true, decide_eq_true_eq, decide_eq_true_eq]

/-- Lock lost, before the state is left. -/
def unlocked (d : Device) (l : Lane) : Device :=
  ((d.count (F.LN_LOCK_LOSS.COUNT (laneBase l))).raise (F.LN_FLAGS.LOCK_LOST (laneBase l))).setLaneX l
    { d.laneX l with phase := 0, acq := 0, score := 0, validRun := 0 }

theorem lnLockLoss_eq : lnLockLoss d l = (unlocked d l).lnEnter l (if (d.laneX l).signal then lnLocking else lnLos) := rfl

theorem unlocked_frame : SameBut [R.LN_FLAGS (laneBase l), R.LN_LOCK_LOSS (laneBase l)] [.lanes, .evt] d (unlocked d l) :=
  (((SameBut.refl _ _ d).count _ (by simp)).raise (by simp) (by simp)).setLaneX _ _ (by simp)

theorem unlocked_laneX : (unlocked d l).laneX l = { d.laneX l with phase := 0, acq := 0, score := 0, validRun := 0 } := Device.laneX_setLaneX_self _ l _

theorem unlocked_laneX_ne {k : Lane} (h : k ≠ l) : (unlocked d l).laneX k = d.laneX k := by
  have hflag : SameBut [R.LN_FLAGS (laneBase l), R.LN_LOCK_LOSS (laneBase l)] [.evt] d
      ((d.count (F.LN_LOCK_LOSS.COUNT (laneBase l))).raise (F.LN_FLAGS.LOCK_LOST (laneBase l))) :=
    ((SameBut.refl _ _ d).count _ (by simp)).raise (by simp) (by simp)
  exact (Device.laneX_setLaneX_ne _ h _).trans (hflag.laneX (by simp) k)

theorem unlocked_counted : (unlocked d l).get (F.LN_LOCK_LOSS.COUNT (laneBase l)) = min (d.get (F.LN_LOCK_LOSS.COUNT (laneBase l)) + 1) 0xFFFFFFFF ∧
    (unlocked d l).get (F.LN_FLAGS.LOCK_LOST (laneBase l)) = 1 := by
  obtain ⟨hcount, hflag, -⟩ := counted_flagged (d := d) (c := F.LN_LOCK_LOSS.COUNT (laneBase l)) (f := F.LN_FLAGS.LOCK_LOST (laneBase l))
    (by simp) (by simp) rfl (by simp)
  have hlane : SameBut [] [.lanes] _ (unlocked d l) := (SameBut.refl _ _ _).setLaneX _ _ (by simp)
  exact ⟨(hlane.get (by simp)).trans hcount, (hlane.get (by simp)).trans hflag⟩

/-- What the loss of lock leaves. -/
theorem lnLockLoss_spec : let e := lnLockLoss d l
    e.lnState l = (if (d.laneX l).signal then lnLocking else lnLos) ∧
    (e.laneX l).signal = (d.laneX l).signal ∧ (e.laneX l).score = 0 ∧ (e.laneX l).phase = 0 ∧
    e.get (F.LN_LOCK_LOSS.COUNT (laneBase l)) = min (d.get (F.LN_LOCK_LOSS.COUNT (laneBase l)) + 1) 0xFFFFFFFF ∧
    e.get (F.LN_FLAGS.LOCK_LOST (laneBase l)) = 1 ∧ (∀ k : Lane, k ≠ l → e.laneX k = d.laneX k) ∧
    SameBut (laneRegs l ++ [R.LN_FLAGS (laneBase l), R.LN_LOCK_LOSS (laneBase l)]) [.lanes, .evt] d e := by
  intro e
  have hlane := (lnEnter_laneX_self (unlocked d l) l (if (d.laneX l).signal then lnLocking else lnLos))
  rw [← lnLockLoss_eq, unlocked_laneX] at hlane
  obtain ⟨hcount, hflag⟩ := unlocked_counted (d := d) (l := l)
  refine ⟨lnEnter_state _ _ (by split <;> decide), ?_, ?_, ?_, ?_, ?_, fun k hk => ?_, ?_⟩
  · exact (congrArg LaneX.signal hlane).trans rfl
  · exact congrArg LaneX.score hlane
  · exact congrArg LaneX.phase hlane
  · exact (lnEnter_get _ l _ (inSlot_lockLoss l) (by simp)).trans hcount
  · exact (lnEnter_get _ l _ (inSlot_flags l) (by simp)).trans hflag
  · exact (lnEnter_laneX_ne _ l _ hk).trans (unlocked_laneX_ne hk)
  · exact (unlocked_frame.mono_regs (List.subset_append_right _ _)).trans
      ((lnEnter_frame_enterRegs _ l _).mono (List.Subset.trans (enterRegs_subset_laneRegs l) (List.subset_append_left _ _)) (by simp))

theorem lnSignalLost_of_locked (hrx : laneIsRx l = true) (h : lnLocked d l = true) : lnSignalLost d l = lnLockLoss (signalled d l false) l :=
  (if_neg (not_not_intro hrx)).trans (if_pos h)

theorem lnSignalLost_of_locking (hrx : laneIsRx l = true) (h : d.lnState l = lnLocking) : lnSignalLost d l = (signalled d l false).lnEnter l lnLos := by
  have hunlocked : ¬ lnLocked d l = true := by
    rw [lnLocked_iff, h]
    decide
  exact (if_neg (not_not_intro hrx)).trans ((if_neg hunlocked).trans (if_pos h))

theorem lnSignalPresent_of_los (hrx : laneIsRx l = true) (h : d.lnState l = lnLos) : lnSignalPresent d l = (signalled d l true).lnEnter l lnLocking :=
  (if_neg (not_not_intro hrx)).trans (if_pos h)

theorem lnCdrLocked_of_locking (hrx : laneIsRx l = true) (h : d.lnState l = lnLocking) :
    lnCdrLocked d l = d.lnEnter l (if laneIsEth l then lnSync else lnHunt) :=
  if_pos ⟨hrx, h⟩

theorem lnClockLost_of_locked (hrx : laneIsRx l = true) (h : lnLocked d l = true) : lnClockLost d l = lnLockLoss d l := if_pos ⟨hrx, h⟩

/-- A lane outside SYNC that takes a state with its signal. -/
theorem signalled_entered_spec {st : Nat} (present : Bool) (hst : st < 16) : let e := (signalled d l present).lnEnter l st
    e.lnState l = st ∧ (e.laneX l).signal = present ∧ (∀ k : Lane, k ≠ l → e.laneX k = d.laneX k) ∧ SameBut (laneRegs l) [.lanes] d e := by
  intro e
  have hlane := lnEnter_laneX_self (signalled d l present) l st
  rw [signalled_laneX] at hlane
  exact ⟨lnEnter_state _ _ hst, congrArg LaneX.signal hlane, fun k hk => (lnEnter_laneX_ne _ l _ hk).trans (signalled_laneX_ne present hk),
    ((signalled_frame present).mono_regs (List.nil_subset _)).trans ((lnEnter_frame_enterRegs _ l st).mono_regs (enterRegs_subset_laneRegs l))⟩

end

/-- Settles O7, clause by clause: a lane's signal, the loss of its lock, and the states it enters. -/
theorem laneSignalAndLock : Obligations.LaneSignalAndLock := by
  unfold Obligations.LaneSignalAndLock
  refine ⟨fun l s hrx hlocked => ?_, fun l s hrx hlocking => ?_, fun l s hrx hlos => ?_, fun l s hrx hlocking => ?_, fun l s hrx hlocked => ?_⟩
  · obtain ⟨hstate, hsignal, hscore, hphase, hcount, hflag, hothers, hframe⟩ := lnLockLoss_spec (d := signalled s.dev l false) (l := l)
    have hquiet : ((signalled s.dev l false).laneX l).signal = false := congrArg LaneX.signal (signalled_laneX false)
    rw [hquiet] at hstate hsignal
    exact ⟨_, (exec_lossOfSignal l s).trans (congrArg (fun e => s.done (laneCheck l e)) (lnSignalLost_of_locked hrx (lnLocked_iff.2 hlocked))),
      hstate, hsignal, hscore, hphase, hcount, hflag, fun k hk => (hothers k hk).trans (signalled_laneX_ne false hk),
      ((signalled_frame false).mono (List.nil_subset _) (by simp)).trans hframe⟩
  · exact ⟨_, (exec_lossOfSignal l s).trans (congrArg (fun e => s.done (laneCheck l e)) (lnSignalLost_of_locking hrx hlocking)),
      signalled_entered_spec false (by decide)⟩
  · exact ⟨_, (exec_signalPresent l s).trans (congrArg (fun e => s.done (laneCheck l e)) (lnSignalPresent_of_los hrx hlos)),
      signalled_entered_spec true (by decide)⟩
  · refine ⟨_, (exec_cdrLocked l s).trans (congrArg (fun e => s.done (laneCheck l e)) (lnCdrLocked_of_locking hrx hlocking)),
      lnEnter_state _ _ (by split <;> decide), (lnEnter_frame_of_kept _ _ _ (.inl ?_)).mono_regs (enterRegs_subset_laneRegs l)⟩
    rw [hlocking]
    decide
  · obtain ⟨hstate, -, hscore, hphase, hcount, hflag, hothers, hframe⟩ := lnLockLoss_spec (d := s.dev) (l := l)
    exact ⟨_, (exec_lockLost l s).trans (congrArg (fun e => s.done (laneCheck l e)) (lnClockLost_of_locked hrx (lnLocked_iff.2 hlocked))),
      hstate, hscore, hphase, hcount, hflag, hothers, hframe⟩

end Sys2Proof.Machine

/-! # Power of a lane

What powering a lane up and down, and the completions of both, leave of it, before its port follows (R48, R50, R51, Table 2.6). -/

namespace Sys2Proof.Machine

theorem exec_lanePowerUp (l : Lane) (s : State) : exec (.lanePowerUp l) s = s.done (laneCheck l (lnPowerUp s.dev l)) := rfl
theorem exec_lanePowerDown (l : Lane) (standby : Bool) (s : State) :
    exec (.lanePowerDown l standby) s = s.done (laneCheck l (lnPowerDown s.dev l standby)) := rfl
theorem exec_laneWakeDone (l : Lane) (s : State) : exec (.laneWakeDone l) s = s.done (laneCheck l (lnWakeDone s.dev l)) := rfl
theorem exec_laneShutdownDone (l : Lane) (s : State) : exec (.laneShutdownDone l) s = s.done (laneCheck l (lnShutdownDone s.dev l)) := rfl

section
variable {d : Device} {l : Lane}

/-! ## Up -/

/-- A power-up that takes effect. -/
theorem lnPowerUp_of_allowed (h : d.slu.applied = true ∨ laneIsEth l = true) : lnPowerUp d l =
    if d.lnState l = lnOff ∨ d.lnState l = lnStandby then (d.set (F.LN_CTRL.POWER (laneBase l)) 2).lnEnter l lnWaking
    else if d.lnState l = lnShutdown then (d.set (F.LN_CTRL.POWER (laneBase l)) 2).set (F.LN_STATUS.ENABLE_PENDING (laneBase l)) 1
    else d.set (F.LN_CTRL.POWER (laneBase l)) 2 :=
  if_neg (by rintro ⟨hnot, heth⟩; exact h.elim hnot heth)

theorem powered_get : (d.set (F.LN_CTRL.POWER (laneBase l)) 2).get (F.LN_CTRL.POWER (laneBase l)) = 2 := Device.get_set_self _ _ _ (by simp)

theorem powered_state : (d.set (F.LN_CTRL.POWER (laneBase l)) 2).lnState l = d.lnState l := Device.get_set_ne _ _ _ _ (.inl (by simp))

theorem powered_frame : SameBut (laneRegs l) [] d (d.set (F.LN_CTRL.POWER (laneBase l)) 2) := (SameBut.refl _ _ d).set _ (by simp [laneRegs])

/-- A lane that is OFF or in STANDBY wakes. -/
theorem lnPowerUp_wakes (hstate : d.lnState l = lnOff ∨ d.lnState l = lnStandby) (h : d.slu.applied = true ∨ laneIsEth l = true) :
    (lnPowerUp d l).get (F.LN_CTRL.POWER (laneBase l)) = 2 ∧ (lnPowerUp d l).lnState l = lnWaking ∧ SameBut (laneRegs l) [] d (lnPowerUp d l) := by
  rw [lnPowerUp_of_allowed h, if_pos hstate]
  refine ⟨?_, lnEnter_state _ _ (by decide), powered_frame.trans ((lnEnter_frame_of_kept _ _ _ (.inl ?_)).mono_regs (enterRegs_subset_laneRegs l))⟩
  · rw [lnEnter_get _ l _ (inSlot_ctrl l) (by simp), powered_get]
  · rw [powered_state]
    rcases hstate with hstate | hstate
    · rw [hstate]
      decide
    · rw [hstate]
      decide

/-- A lane in SHUTDOWN holds the enable. -/
theorem lnPowerUp_holds (hstate : d.lnState l = lnShutdown) (h : d.slu.applied = true ∨ laneIsEth l = true) :
    (lnPowerUp d l).get (F.LN_CTRL.POWER (laneBase l)) = 2 ∧ (lnPowerUp d l).lnState l = lnShutdown ∧
    (lnPowerUp d l).get (F.LN_STATUS.ENABLE_PENDING (laneBase l)) = 1 ∧ SameBut (laneRegs l) [] d (lnPowerUp d l) := by
  rw [lnPowerUp_of_allowed h, if_neg (by rw [hstate]; decide), if_pos hstate]
  refine ⟨?_, ?_, ?_, powered_frame.set _ (by simp [laneRegs])⟩
  · rw [Device.get_set_ne _ _ _ _ (.inl (by simp)), powered_get]
  · exact (Device.get_set_ne _ _ _ _ (.inr (by simp))).trans (powered_state.trans hstate)
  · rw [Device.get_set_self _ _ _ (by simp)]
    simp

/-! ## The end of training -/

/-- The last scan lay below the minima. -/
def scanLow (d : Device) (l : Lane) : Bool := match (d.laneX l).eye with | some (ew, eh) => eyeLow d l ew eh | none => false

/-- No training runs, and RETRAIN reads 0. -/
def trainStopped (d : Device) (l : Lane) : Device := (d.setLaneX l { d.laneX l with train := none }).setBit (F.LN_CTRL.RETRAIN (laneBase l)) false

/-- The taps of the last reply shown. -/
def farShown (d : Device) (l : Lane) : Option Nat → Device
  | some w => (d.wr (R.LN_FAR_TAPS (laneBase l)) (BitVec.ofNat 32 w &&& 0x007FFF00#32)).set (F.LN_FAR_TAPS.VALID (laneBase l)) 1
  | none => d.set (F.LN_FAR_TAPS.VALID (laneBase l)) 1

theorem trainFinish_eq (t : Training) (fail : Bool) :
    trainFinish d l t fail = (farShown (trainStopped d l) l t.reply).raiseIf (fail || scanLow d l) (F.LN_FLAGS.TRAIN_FAIL (laneBase l)) := by
  unfold trainFinish farShown
  cases t.reply <;> rfl

theorem farShown_frame (r : Option Nat) : SameBut [R.LN_FAR_TAPS (laneBase l)] [] d (farShown d l r) := by
  cases r with
  | none => exact (SameBut.refl _ _ d).set _ (by simp)
  | some w => exact ((SameBut.refl _ _ d).wr _ (by simp)).set _ (by simp)

theorem farShown_valid (r : Option Nat) : (farShown d l r).get (F.LN_FAR_TAPS.VALID (laneBase l)) = 1 := by
  have hset (e : Device) : (e.set (F.LN_FAR_TAPS.VALID (laneBase l)) 1).get (F.LN_FAR_TAPS.VALID (laneBase l)) = 1 := by
    rw [Device.get_set_self _ _ _ (by simp)]
    simp
  cases r <;> exact hset _

theorem bitsOf_testBit (x hi lo i : Nat) : (bitsOf x hi lo).testBit i = (decide (i < hi + 1 - lo) && x.testBit (lo + i)) := by
  unfold bitsOf
  rw [Nat.testBit_mod_two_pow, Nat.testBit_shiftRight]

theorem Fld.of_eq_bitsOf (f : Fld) (w : Word) : f.of w = bitsOf w.toNat f.hi f.lo := by
  refine Nat.eq_of_testBit_eq fun i => ?_
  rw [Fld.of_testBit, bitsOf_testBit, BitVec.testBit_toNat]
  congr 1
  exact decide_eq_decide.2 (by omega)

/-- Bits 22 to 8 of a word that keeps them. -/
theorem bitsOf_taps (w : Nat) : bitsOf (BitVec.ofNat 32 w &&& 0x007FFF00#32).toNat 22 8 = bitsOf w 22 8 := by
  have hmask : ∀ i < 15, Nat.testBit 0x007FFF00 (8 + i) = true := by decide
  refine Nat.eq_of_testBit_eq fun i => ?_
  rw [bitsOf_testBit, bitsOf_testBit]
  by_cases hi : i < 15
  · have hword : 8 + i < 32 := by omega
    rw [BitVec.toNat_and, Nat.testBit_and, BitVec.toNat_ofNat, Nat.testBit_mod_two_pow, decide_eq_true hword, Bool.true_and]
    exact congrArg _ ((congrArg (_ && ·) (hmask i hi)).trans (Bool.and_true _))
  · rw [decide_eq_false hi, Bool.false_and, Bool.false_and]

theorem farShown_taps (w : Nat) : bitsOf ((farShown d l (some w)).rd (R.LN_FAR_TAPS (laneBase l))).toNat 22 8 = bitsOf w 22 8 := by
  have hkept := Device.get_set_ne (d.wr (R.LN_FAR_TAPS (laneBase l)) (BitVec.ofNat 32 w &&& 0x007FFF00#32)) (F.LN_FAR_TAPS.VALID (laneBase l))
    ⟨R.LN_FAR_TAPS (laneBase l), 22, 8⟩ 1 (.inr (by simp))
  unfold Device.get at hkept
  rw [Fld.of_eq_bitsOf, Fld.of_eq_bitsOf, Device.rd_wr_self, bitsOf_taps] at hkept
  exact hkept

theorem trainStopped_frame : SameBut [R.LN_CTRL (laneBase l)] [.lanes] d (trainStopped d l) :=
  ((SameBut.refl _ _ d).setLaneX _ _ (by simp)).setBit _ (by simp)

theorem trainStopped_retrain : (trainStopped d l).get (F.LN_CTRL.RETRAIN (laneBase l)) = 0 := by
  rw [trainStopped, Device.get_setBit, Device.get_set_self _ _ _ (by simp)]
  simp

theorem trainStopped_laneX : (trainStopped d l).laneX l = { d.laneX l with train := none } := Device.laneX_setLaneX_self d l _

theorem trainStopped_laneX_ne {k : Lane} (h : k ≠ l) : (trainStopped d l).laneX k = d.laneX k := Device.laneX_setLaneX_ne d h _

/-- The flag and the taps after a training do not reach further state. -/
theorem trainFinish_shown_frame (t : Training) (fail : Bool) :
    SameBut [R.LN_FAR_TAPS (laneBase l), R.LN_FLAGS (laneBase l)] [.evt] (trainStopped d l) (trainFinish d l t fail) := by
  rw [trainFinish_eq]
  exact ((farShown_frame _).mono (by simp) (by simp)).raiseIf _ (by simp) (by simp)

theorem raiseIf_get_ne {f g : Fld} (b : Bool) (h : g.addr ≠ f.addr) : (d.raiseIf b f).get g = d.get g := by
  cases b with
  | false => rfl
  | true => exact (Device.get_raise _ _ _).trans (Device.get_set_ne _ _ _ _ (.inl h))

/-- What the end of a training leaves. -/
theorem trainFinish_spec (t : Training) : let e := trainFinish d l t false
    (e.laneX l) = { d.laneX l with train := none } ∧ (∀ k : Lane, k ≠ l → e.laneX k = d.laneX k) ∧
    e.get (F.LN_CTRL.RETRAIN (laneBase l)) = 0 ∧ e.get (F.LN_FAR_TAPS.VALID (laneBase l)) = 1 ∧
    (∀ w ∈ t.reply, bitsOf (e.rd (R.LN_FAR_TAPS (laneBase l))).toNat 22 8 = bitsOf w 22 8) ∧
    e.get (F.LN_FLAGS.TRAIN_FAIL (laneBase l)) = (if scanLow d l then 1 else d.get (F.LN_FLAGS.TRAIN_FAIL (laneBase l))) := by
  intro e
  have he : e = _ := trainFinish_eq t false
  rw [Bool.false_or] at he
  have hshown : SameBut _ _ _ e := trainFinish_shown_frame t false
  refine ⟨?_, fun k hk => ?_, ?_, ?_, fun w hw => ?_, ?_⟩
  · rw [hshown.laneX (by simp), trainStopped_laneX]
  · rw [hshown.laneX (by simp), trainStopped_laneX_ne hk]
  · rw [hshown.get (by simp), trainStopped_retrain]
  · rw [he, raiseIf_get_ne _ (by simp), farShown_valid]
  · have hflag : SameBut [R.LN_FLAGS (laneBase l)] [.evt] (farShown (trainStopped d l) l t.reply) e := by
      rw [he]
      exact (SameBut.refl _ _ _).raiseIf _ (by simp) (by simp)
    rw [hflag.regs _ (by simp), Option.mem_def.1 hw, farShown_taps]
  · rw [he]
    cases scanLow d l with
    | true => exact Device.get_raise_self _ _ rfl (by simp)
    | false => exact ((farShown_frame _).get (by simp)).trans (trainStopped_frame.get (by simp))

/-! ## Down -/

/-- POWER written, a held enable dropped. -/
def powerWritten (d : Device) (l : Lane) (standby : Bool) : Device :=
  (d.set (F.LN_CTRL.POWER (laneBase l)) (if standby then 1 else 0)).setBit (F.LN_STATUS.ENABLE_PENDING (laneBase l)) false

/-- A lane that remembers where SHUTDOWN ends. -/
def parked (d : Device) (l : Lane) (standby : Bool) : Device := d.setLaneX l { d.laneX l with toStandby := standby }

/-- The state that a power-down leads to. -/
def downState (st : Nat) (standby : Bool) : Nat :=
  if st = lnOff ∨ st = lnStandby ∨ st = lnWaking then (if standby then lnStandby else lnOff) else lnShutdown

theorem lnPowerDown_eq_parked (standby : Bool) : lnPowerDown d l standby =
    (parked (trainCut (powerWritten d l standby) l) l standby).lnEnter l (downState (d.lnState l) standby) := by
  unfold lnPowerDown downState
  exact (apply_ite (Device.lnEnter _ l) _ _ _).symm

theorem downState_lt (st : Nat) (standby : Bool) : downState st standby < 16 := by
  unfold downState
  cases standby <;> split <;> decide

theorem powerWritten_frame (standby : Bool) : SameBut [R.LN_CTRL (laneBase l), R.LN_STATUS (laneBase l)] [] d (powerWritten d l standby) :=
  ((SameBut.refl _ _ d).set _ (by simp)).setBit _ (by simp)

theorem powerWritten_power (standby : Bool) :
    (powerWritten d l standby).get (F.LN_CTRL.POWER (laneBase l)) = if standby then 1 else 0 := by
  rw [powerWritten, Device.get_setBit, Device.get_set_ne _ _ _ _ (.inl (by simp)), Device.get_set_self _ _ _ (by simp)]
  cases standby <;> rfl

theorem powerWritten_pending (standby : Bool) : (powerWritten d l standby).get (F.LN_STATUS.ENABLE_PENDING (laneBase l)) = 0 := by
  rw [powerWritten, Device.get_setBit, Device.get_set_self _ _ _ (by simp)]
  simp

theorem powerWritten_retrain (standby : Bool) :
    (powerWritten d l standby).get (F.LN_CTRL.RETRAIN (laneBase l)) = d.get (F.LN_CTRL.RETRAIN (laneBase l)) := by
  rw [powerWritten, Device.get_setBit, Device.get_set_ne _ _ _ _ (.inl (by simp)), Device.get_set_ne _ _ _ _ (.inr (by simp))]

theorem powerWritten_scanLow (standby : Bool) : scanLow (powerWritten d l standby) l = scanLow d l := by
  have hframe := powerWritten_frame (d := d) (l := l) standby
  unfold scanLow eyeLow
  rw [hframe.laneX (by simp), hframe.get (by simp), hframe.get (by simp)]

theorem parked_frame (standby : Bool) : SameBut [] [.lanes] d (parked d l standby) := (SameBut.refl _ _ d).setLaneX _ _ (by simp)

theorem parked_laneX (standby : Bool) : (parked d l standby).laneX l = { d.laneX l with toStandby := standby } := Device.laneX_setLaneX_self d l _

theorem parked_laneX_ne (standby : Bool) {k : Lane} (h : k ≠ l) : (parked d l standby).laneX k = d.laneX k := Device.laneX_setLaneX_ne d h _

theorem trainCut_of_none (h : (d.laneX l).train = none) : trainCut d l = d := by
  unfold trainCut
  rw [h]

theorem trainCut_of_some {t : Training} (h : (d.laneX l).train = some t) : trainCut d l = trainFinish d l t false := by
  unfold trainCut
  rw [h]

theorem trainCut_laneX : (trainCut d l).laneX l = { d.laneX l with train := none } := by
  cases h : (d.laneX l).train with
  | none =>
    rw [trainCut_of_none h]
    exact congrArg (fun t => { d.laneX l with train := t }) h
  | some t => exact (congrArg (Device.laneX · l) (trainCut_of_some h)).trans (trainFinish_spec t).1

theorem trainCut_laneX_ne {k : Lane} (hk : k ≠ l) : (trainCut d l).laneX k = d.laneX k := by
  cases h : (d.laneX l).train with
  | none => rw [trainCut_of_none h]
  | some t => exact (congrArg (Device.laneX · k) (trainCut_of_some h)).trans ((trainFinish_spec t).2.1 k hk)

/-- What a power-down leaves of the lane's registers. -/
theorem lnPowerDown_rd (standby : Bool) {a : Nat} (ha : InSlot l a) (hne : a ≠ R.LN_STATUS (laneBase l) ∧ a ≠ R.LN_EYE (laneBase l)) :
    (lnPowerDown d l standby).rd a = (trainCut (powerWritten d l standby) l).rd a := by
  rw [lnPowerDown_eq_parked, lnEnter_rd _ l _ ha hne]
  rfl

theorem lnPowerDown_get (standby : Bool) {f : Fld} (ha : InSlot l f.addr) (hne : f.addr ≠ R.LN_STATUS (laneBase l) ∧ f.addr ≠ R.LN_EYE (laneBase l)) :
    (lnPowerDown d l standby).get f = (trainCut (powerWritten d l standby) l).get f := congrArg f.of (lnPowerDown_rd standby ha hne)

theorem lnPowerDown_laneX (standby : Bool) : (lnPowerDown d l standby).laneX l =
    { d.laneX l with train := none, toStandby := standby, rx := ((lnPowerDown d l standby).laneX l).rx } := by
  have hwritten : (powerWritten d l standby).laneX l = d.laneX l := (powerWritten_frame standby).laneX (by simp) l
  have hentered := lnEnter_laneX_self (parked (trainCut (powerWritten d l standby) l) l standby) l (downState (d.lnState l) standby)
  rw [← lnPowerDown_eq_parked, parked_laneX, trainCut_laneX, hwritten] at hentered
  exact hentered

theorem lnPowerDown_laneX_ne (standby : Bool) {k : Lane} (hk : k ≠ l) : (lnPowerDown d l standby).laneX k = d.laneX k := by
  rw [lnPowerDown_eq_parked, lnEnter_laneX_ne _ l _ hk, parked_laneX_ne standby hk, trainCut_laneX_ne hk, (powerWritten_frame standby).laneX (by simp)]

/-- A power-down of a lane that does not train keeps its flags, its taps and the events. -/
theorem lnPowerDown_untrained (standby : Bool) (h : (d.laneX l).train = none) :
    (lnPowerDown d l standby).rd (R.LN_FLAGS (laneBase l)) = d.rd (R.LN_FLAGS (laneBase l)) ∧
    (lnPowerDown d l standby).rd (R.LN_FAR_TAPS (laneBase l)) = d.rd (R.LN_FAR_TAPS (laneBase l)) ∧ (lnPowerDown d l standby).evt = d.evt := by
  have hframe := powerWritten_frame (d := d) (l := l) standby
  have hcut : trainCut (powerWritten d l standby) l = powerWritten d l standby := trainCut_of_none (by rw [hframe.laneX (by simp)]; exact h)
  refine ⟨?_, ?_, ?_⟩
  · rw [lnPowerDown_rd standby (inSlot_flags l) (by simp), hcut, hframe.regs _ (by simp)]
  · rw [lnPowerDown_rd standby (inSlot_farTaps l) (by simp), hcut, hframe.regs _ (by simp)]
  · rw [lnPowerDown_eq_parked, hcut]
    exact ((lnEnter_frame_enterRegs _ l _).parts .evt (by simp)).trans (((parked_frame standby).parts .evt (by simp)).trans (hframe.parts .evt (by simp)))

/-- A power-down of a lane that trains ends the training. -/
theorem lnPowerDown_trained (standby : Bool) {t : Training} (h : (d.laneX l).train = some t) : let e := lnPowerDown d l standby
    e.get (F.LN_CTRL.RETRAIN (laneBase l)) = 0 ∧ e.get (F.LN_FAR_TAPS.VALID (laneBase l)) = 1 ∧
    (∀ w ∈ t.reply, bitsOf (e.rd (R.LN_FAR_TAPS (laneBase l))).toNat 22 8 = bitsOf w 22 8) ∧
    e.get (F.LN_FLAGS.TRAIN_FAIL (laneBase l)) = (if scanLow d l then 1 else d.get (F.LN_FLAGS.TRAIN_FAIL (laneBase l))) := by
  intro e
  have hframe := powerWritten_frame (d := d) (l := l) standby
  have hcut : trainCut (powerWritten d l standby) l = trainFinish (powerWritten d l standby) l t false :=
    trainCut_of_some (by rw [hframe.laneX (by simp)]; exact h)
  obtain ⟨-, -, hretrain, hvalid, htaps, hfail⟩ := trainFinish_spec (d := powerWritten d l standby) (l := l) t
  rw [← hcut] at hretrain hvalid htaps hfail
  refine ⟨?_, ?_, fun w hw => ?_, ?_⟩
  · exact (lnPowerDown_get standby (inSlot_ctrl l) (by simp)).trans hretrain
  · exact (lnPowerDown_get standby (inSlot_farTaps l) (by simp)).trans hvalid
  · exact (congrArg (fun x : Word => bitsOf x.toNat 22 8) (lnPowerDown_rd standby (inSlot_farTaps l) (by simp))).trans (htaps w hw)
  · rw [powerWritten_scanLow, hframe.get (by simp)] at hfail
    exact (lnPowerDown_get standby (inSlot_flags l) (by simp)).trans hfail

theorem lnPowerDown_power (standby : Bool) : (lnPowerDown d l standby).get (F.LN_CTRL.POWER (laneBase l)) = if standby then 1 else 0 := by
  rw [lnPowerDown_get standby (inSlot_ctrl l) (by simp), trainCut_power, powerWritten_power]

theorem lnPowerDown_pending (standby : Bool) : (lnPowerDown d l standby).get (F.LN_STATUS.ENABLE_PENDING (laneBase l)) = 0 := by
  have hparked := parked_frame (d := trainCut (powerWritten d l standby) l) (l := l) standby
  rw [lnPowerDown_eq_parked, lnEnter_status_get _ l _ rfl (by simp), hparked.get (by simp), (trainCut_frame _ l).get (by simp [trainRegs]), powerWritten_pending]

theorem lnPowerDown_state (standby : Bool) : (lnPowerDown d l standby).lnState l = downState (d.lnState l) standby := by
  rw [lnPowerDown_eq_parked, lnEnter_state _ l (downState_lt _ _)]

theorem switchRegs_subset : switchRegs l ⊆ laneRegs l ++ [R.LN_FLAGS (laneBase l), R.LN_FAR_TAPS (laneBase l)] := by
  intro a ha
  simp only [switchRegs, laneRegs, trainRegs, List.mem_append, List.mem_cons, List.not_mem_nil, or_false] at ha ⊢
  tauto

/-- What a power-down leaves. -/
theorem lnPowerDown_spec (standby : Bool) : let e := lnPowerDown d l standby
    e.get (F.LN_CTRL.POWER (laneBase l)) = (if standby then 1 else 0) ∧ e.get (F.LN_STATUS.ENABLE_PENDING (laneBase l)) = 0 ∧
    e.lnState l = downState (d.lnState l) standby ∧ (e.laneX l).train = none ∧ (e.laneX l).toStandby = standby ∧
    e.get (F.LN_CTRL.RETRAIN (laneBase l)) = (if (d.laneX l).train.isSome then 0 else d.get (F.LN_CTRL.RETRAIN (laneBase l))) ∧
    ((d.laneX l).train = none → e.rd (R.LN_FLAGS (laneBase l)) = d.rd (R.LN_FLAGS (laneBase l)) ∧
      e.rd (R.LN_FAR_TAPS (laneBase l)) = d.rd (R.LN_FAR_TAPS (laneBase l)) ∧ e.evt = d.evt) ∧
    (∀ t ∈ (d.laneX l).train, e.get (F.LN_FAR_TAPS.VALID (laneBase l)) = 1 ∧
      (∀ w ∈ t.reply, bitsOf (e.rd (R.LN_FAR_TAPS (laneBase l))).toNat 22 8 = bitsOf w 22 8)) ∧
    e.get (F.LN_FLAGS.TRAIN_FAIL (laneBase l)) =
      (if (d.laneX l).train.isSome ∧ (d.laneX l).eye.any (fun y => eyeLow d l y.1 y.2) then 1 else d.get (F.LN_FLAGS.TRAIN_FAIL (laneBase l))) ∧
    (∀ k : Lane, k ≠ l → e.laneX k = d.laneX k) ∧
    SameBut (laneRegs l ++ [R.LN_FLAGS (laneBase l), R.LN_FAR_TAPS (laneBase l)]) [.lanes, .evt] d e := by
  intro e
  have hlane := lnPowerDown_laneX (d := d) (l := l) standby
  have hlow : (d.laneX l).eye.any (fun y => eyeLow d l y.1 y.2) = scanLow d l := by
    unfold scanLow
    cases (d.laneX l).eye <;> rfl
  have hframe : SameBut (laneRegs l ++ [R.LN_FLAGS (laneBase l), R.LN_FAR_TAPS (laneBase l)]) [.lanes, .evt] d e :=
    (lnPowerDown_frame_switchRegs d l standby).mono_regs switchRegs_subset
  refine ⟨lnPowerDown_power standby, lnPowerDown_pending standby, lnPowerDown_state standby, congrArg LaneX.train hlane, congrArg LaneX.toStandby hlane,
    ?_, lnPowerDown_untrained standby, fun t ht => ?_, ?_, fun k hk => lnPowerDown_laneX_ne standby hk, hframe⟩
  · cases h : (d.laneX l).train with
    | none =>
      have hcut : trainCut (powerWritten d l standby) l = powerWritten d l standby :=
        trainCut_of_none (by rw [(powerWritten_frame standby).laneX (by simp)]; exact h)
      exact (lnPowerDown_get standby (inSlot_ctrl l) (by simp)).trans ((congrArg (Device.get · _) hcut).trans (powerWritten_retrain standby))
    | some t => exact (lnPowerDown_trained standby h).1
  · obtain ⟨-, hvalid, htaps, -⟩ := lnPowerDown_trained standby (Option.mem_def.1 ht)
    exact ⟨hvalid, htaps⟩
  · rw [hlow]
    cases h : (d.laneX l).train with
    | none =>
      rw [if_neg (by simp)]
      exact congrArg (F.LN_FLAGS.TRAIN_FAIL (laneBase l)).of (lnPowerDown_untrained standby h).1
    | some t =>
      obtain ⟨-, -, -, hfail⟩ := lnPowerDown_trained standby h
      simpa using hfail

/-! ## Completions -/

/-- A lane that wakes. -/
theorem lnWakeDone_spec (h : d.lnState l = lnWaking) : let e := lnWakeDone d l
    e.lnState l = (if laneIsRx l then (if (d.laneX l).signal then lnLocking else lnLos) else lnTxActive) ∧
    (laneIsRx l = false → e.get (F.LN_STATUS.RD (laneBase l)) = 0) ∧ SameBut (laneRegs l) [] d e := by
  intro e
  have hkept (st : Nat) : SameBut (laneRegs l) [] d (d.lnEnter l st) :=
    (lnEnter_frame_of_kept _ _ _ (.inl (by rw [h]; decide))).mono_regs (enterRegs_subset_laneRegs l)
  have he : e = if laneIsRx l then d.lnEnter l (if (d.laneX l).signal then lnLocking else lnLos)
      else (d.lnEnter l lnTxActive).set (F.LN_STATUS.RD (laneBase l)) 0 := if_neg (not_not_intro h)
  cases hrx : laneIsRx l with
  | true =>
    rw [hrx, if_pos rfl] at he
    rw [he]
    exact ⟨lnEnter_state _ _ (by split <;> decide), fun hfalse => absurd hfalse.symm Bool.false_ne_true, hkept _⟩
  | false =>
    rw [hrx, if_neg Bool.false_ne_true] at he
    rw [he]
    refine ⟨?_, fun _ => ?_, (hkept _).set _ (by simp [laneRegs])⟩
    · exact (Device.get_set_ne _ _ _ _ (.inr (by simp))).trans (lnEnter_state _ _ (by decide))
    · rw [Device.get_set_self _ _ _ (by simp)]
      simp

/-- The state in which SHUTDOWN ends. -/
def parkedState (d : Device) (l : Lane) : Nat := if (d.laneX l).toStandby then lnStandby else lnOff

theorem parkedState_spec (d : Device) (l : Lane) : parkedState d l < 16 ∧ parkedState d l ≠ lnSync := by
  unfold parkedState
  split <;> decide

theorem lnShutdownDone_eq (h : d.lnState l = lnShutdown) : lnShutdownDone d l =
    if d.bit (F.LN_STATUS.ENABLE_PENDING (laneBase l)) then
      ((d.lnEnter l (parkedState d l)).set (F.LN_STATUS.ENABLE_PENDING (laneBase l)) 0).lnEnter l lnWaking
    else d.lnEnter l (parkedState d l) :=
  if_neg (not_not_intro h)

theorem lnShutdown_entered_frame (h : d.lnState l = lnShutdown) (st : Nat) : SameBut (laneRegs l) [] d (d.lnEnter l st) :=
  (lnEnter_frame_of_kept _ _ _ (.inl (by rw [h]; decide))).mono_regs (enterRegs_subset_laneRegs l)

/-- A lane that starts again from SHUTDOWN. -/
theorem lnShutdownDone_held (h : d.lnState l = lnShutdown) :
    let e := ((d.lnEnter l (parkedState d l)).set (F.LN_STATUS.ENABLE_PENDING (laneBase l)) 0).lnEnter l lnWaking
    e.lnState l = lnWaking ∧ e.get (F.LN_STATUS.ENABLE_PENDING (laneBase l)) = 0 ∧ SameBut (laneRegs l) [] d e := by
  intro e
  obtain ⟨hlt, hne⟩ := parkedState_spec d l
  have hentered := lnEnter_state d l hlt
  have hset : ((d.lnEnter l (parkedState d l)).set (F.LN_STATUS.ENABLE_PENDING (laneBase l)) 0).lnState l = parkedState d l :=
    (Device.get_set_ne _ _ _ _ (.inr (by simp))).trans hentered
  refine ⟨lnEnter_state _ _ (by decide), ?_, ((lnShutdown_entered_frame h _).set _ (by simp [laneRegs])).trans
    ((lnEnter_frame_of_kept _ _ _ (.inl (by rw [hset]; exact hne))).mono_regs (enterRegs_subset_laneRegs l))⟩
  rw [lnEnter_status_get _ l _ rfl (by simp), Device.get_set_self _ _ _ (by simp)]
  simp

/-- A lane whose SHUTDOWN ends. -/
theorem lnShutdownDone_spec (h : d.lnState l = lnShutdown) : let e := lnShutdownDone d l
    e.lnState l = (if d.get (F.LN_STATUS.ENABLE_PENDING (laneBase l)) = 1 then lnWaking else if (d.laneX l).toStandby then lnStandby else lnOff) ∧
    e.get (F.LN_STATUS.ENABLE_PENDING (laneBase l)) = 0 ∧ SameBut (laneRegs l) [] d e := by
  intro e
  have he : e = _ := lnShutdownDone_eq h
  by_cases hpending : d.bit (F.LN_STATUS.ENABLE_PENDING (laneBase l)) = true
  · have hone : d.get (F.LN_STATUS.ENABLE_PENDING (laneBase l)) = 1 := Device.get_of_bit rfl hpending
    rw [if_pos hpending] at he
    rw [he, hone, if_pos rfl]
    exact lnShutdownDone_held h
  · have hzero : d.get (F.LN_STATUS.ENABLE_PENDING (laneBase l)) = 0 := by
      rw [bit_iff_get_ne_zero, not_not] at hpending
      exact hpending
    rw [if_neg hpending] at he
    rw [he, hzero, if_neg (by decide)]
    exact ⟨lnEnter_state _ _ (parkedState_spec d l).1, (lnEnter_status_get _ l _ rfl (by simp)).trans hzero, lnShutdown_entered_frame h _⟩

end

/-- Settles O6, clause by clause, from what a power-up, a power-down and the completions leave. -/
theorem lanePowerTransitions : Obligations.LanePowerTransitions := by
  unfold Obligations.LanePowerTransitions
  refine ⟨fun l s h => ?_, fun l s h => ?_, fun l s h => ?_, fun l standby s => ?_, fun l s h => ?_, fun l s h => ?_⟩
  · exact ⟨_, exec_lanePowerUp l s, lnPowerUp_wakes h.1 h.2⟩
  · exact ⟨_, exec_lanePowerUp l s, if_pos (by rw [h.1, h.2]; exact ⟨Bool.false_ne_true, Bool.false_ne_true⟩)⟩
  · exact ⟨_, exec_lanePowerUp l s, lnPowerUp_holds h.1 h.2⟩
  · exact ⟨_, exec_lanePowerDown l standby s, lnPowerDown_spec standby⟩
  · exact ⟨_, exec_laneWakeDone l s, lnWakeDone_spec h⟩
  · exact ⟨_, exec_laneShutdownDone l s, lnShutdownDone_spec h⟩

end Sys2Proof.Machine


/-! # The states of a camera port

What a port is after it enters a state of Table 3.6, by the states that enter in one way. -/

namespace Sys2Proof.Machine

/-- The port in state `st`, its marker columns counted anew. -/
def stateEntered (d : Device) (p st : Nat) : Device :=
  (d.set (F.CPn_STATUS.STATE p) st).setPort p { d.port p with deskewOk := 0, deskewBad := 0 }

section
variable (d : Device) (p : Fin 12) (st : Nat)

theorem stateEntered_frame : SameBut [R.CPn_STATUS p] [.ports] d (stateEntered d p st) :=
  ((SameBut.refl _ _ d).set _ (by simp)).setPort _ _ (by simp)

theorem stateEntered_port : (stateEntered d p st).port p = { d.port p with deskewOk := 0, deskewBad := 0 } :=
  Device.port_setPort_self _ p _

theorem port_setPort_ne (x : Port) {n : Fin 12} (h : n ≠ p) : (d.setPort p x).port n = d.port n :=
  unit_withUnit_ne d.ports (fun heq => h (Fin.ext heq)) x

theorem stateEntered_port_ne {n : Fin 12} (h : n ≠ p) : (stateEntered d p st).port n = d.port n :=
  port_setPort_ne _ p _ h

theorem stateEntered_state {st : Nat} (h : st < 16) : (stateEntered d p st).portState p = st := by
  have hset : (stateEntered d p st).portState p = (d.set (F.CPn_STATUS.STATE p) st).portState p :=
    ((SameBut.refl [] [.ports] _).setPort _ _ (by simp)).get (by simp)
  rw [hset]
  exact (Device.get_set_self d _ _ (by simp)).trans (Nat.mod_eq_of_lt h)

theorem stateEntered_retries : (stateEntered d p st).get (F.CPn_STATUS.RETRIES p) = d.get (F.CPn_STATUS.RETRIES p) :=
  (((SameBut.refl [] [.ports] _).setPort _ _ (by simp)).get (by simp)).trans (Device.get_set_ne d _ _ _ (.inr (.inl (by simp))))

end

section
variable {d : Device} {p st : Nat}

/-- The states that nothing but themselves is tied to. -/
theorem portEnter_plain (hstate : d.portState p ≠ psRun) (hrun : st ≠ psRun) (hresync : st ≠ psResync) (hfault : st ≠ psFault)
    (hdisabled : st ≠ psDisabled) (hretry : st ≠ psRetry) : portEnter d p st = stateEntered d p st := by
  simp only [portEnter, hstate, hrun, hresync, hfault, hdisabled, hretry, false_and, false_or, if_false, decide_false, Device.raiseIf_false]
  rfl

theorem portEnter_run : portEnter d p psRun = ((stateEntered d p psRun).set (F.CPn_STATUS.RETRIES p) 0).setPort p
    { (stateEntered d p psRun).port p with eyeResync := false } := by
  have hresync : psRun ≠ psResync := by decide
  have hfault : psRun ≠ psFault := by decide
  have hdisabled : psRun ≠ psDisabled := by decide
  have hretry : psRun ≠ psRetry := by decide
  simp only [portEnter, ne_eq, not_true_eq_false, and_false, hresync, hfault, hdisabled, hretry, false_or, if_false, if_true, decide_false,
    Device.raiseIf_false]
  rfl

theorem portEnter_retry (hstate : d.portState p ≠ psRun) :
    portEnter d p psRetry = dropBackchannel (loseAll (stateEntered d p psRetry) p) p psRetry := by
  have hrun : psRetry ≠ psRun := by decide
  have hresync : psRetry ≠ psResync := by decide
  have hfault : psRetry ≠ psFault := by decide
  simp only [portEnter, hstate, hrun, hresync, hfault, false_and, or_true, if_true, if_false, decide_false, Device.raiseIf_false]
  rfl

theorem portEnter_fault (hstate : d.portState p ≠ psRun) : portEnter d p psFault = (stateEntered d p psFault).raise (F.CPn_FLAGS.FAULT p) := by
  have hrun : psFault ≠ psRun := by decide
  have hresync : psFault ≠ psResync := by decide
  have hdisabled : psFault ≠ psDisabled := by decide
  have hretry : psFault ≠ psRetry := by decide
  simp only [portEnter, hstate, hrun, hresync, hdisabled, hretry, false_and, false_or, if_false, decide_false, decide_true, Device.raiseIf_false,
    Device.raiseIf_true]
  rfl

/-- The port in RESYNC, its packet in progress discarded. -/
def resyncEntered (d : Device) (p : Nat) : Device :=
  (d.set (F.CPn_STATUS.STATE p) psResync).setPort p { d.port p with deskewOk := 0, deskewBad := 0, rx := (d.port p).rx.lose }

/-- Without a request or an exposure command to drop, a port leaves RUN as it is. -/
theorem leaveRun_of_idle (hreq : (d.port p).regReq = none) (hexposure : (d.port p).exposure = none) : leaveRun d p = d := by
  simp [leaveRun, hreq, hexposure]

theorem portEnter_resync (hreq : (d.port p).regReq = none) (hexposure : (d.port p).exposure = none) :
    portEnter d p psResync = (resyncEntered d p).raise (F.CPn_FLAGS.RESYNC p) := by
  have hrun : psResync ≠ psRun := by decide
  have hfault : psResync ≠ psFault := by decide
  have hdisabled : psResync ≠ psDisabled := by decide
  have hretry : psResync ≠ psRetry := by decide
  simp only [portEnter, leaveRun_of_idle hreq hexposure, ite_self, hrun, hfault, hdisabled, hretry, false_or, if_false, if_true, decide_false,
    decide_true, Device.raiseIf_false, Device.raiseIf_true]
  rfl

end

/-! ## Lines lost and requests dropped -/

section
variable (d : Device) (p : Fin 12)

/-- None of the list is outstanding. -/
def noneOutstanding (ts : List Trigger) : Prop := ts.all (fun t => t.st ≠ .outstanding) = true

theorem loseTrigs_noneOutstanding (ts : List Trigger) : noneOutstanding (loseTrigs (fun _ => true) ts).1 := by
  refine List.all_eq_true.2 fun t ht => ?_
  obtain ⟨u, -, rfl⟩ := List.mem_map.1 ht
  dsimp only
  by_cases hu : u.st = .outstanding
  · rw [if_pos ⟨hu, rfl⟩]
    rfl
  · rw [if_neg fun h => hu h.1]
    exact decide_eq_true hu

theorem loseAll_frame : SameBut [R.CPn_LINES_LOST p, R.CPn_FLAGS p] [.ports, .evt] d (loseAll d p) :=
  SameBut.foldl fun _ j hj => loseHead_frame (h := ⟨j, List.mem_range.1 hj⟩) _

theorem loseAll_lost (h : Fin 4) : noneOutstanding (unit ((loseAll d p).port p).heads h).trigs := by
  refine foldl_at (k := h.val) (Q := fun _ => True) (P := fun e : Device => noneOutstanding (unit (e.port p).heads h).trigs)
    (fun e _ => ?_) List.nodup_range (List.mem_range.2 h.isLt) (fun _ _ _ _ _ => trivial) (fun e j hj hne he => ?_) trivial
  · rw [loseHead_port]
    dsimp only
    rw [unit_withUnit_self _ h.isLt]
    exact loseTrigs_noneOutstanding _
  · rw [loseHead_port (h := ⟨j, List.mem_range.1 hj⟩)]
    dsimp only
    rwa [unit_withUnit_ne _ (Ne.symm hne)]

theorem ctlEnd_port (result : Nat) : (ctlEnd d p result).port p = { d.port p with regReq := none, reqQ := (d.port p).reqQ.filter id } := by
  have hended : (requestEnded d p).port p = { d.port p with regReq := none, reqQ := (d.port p).reqQ.filter id } := Device.port_setPort_self d p _
  unfold ctlEnd
  dsimp only
  split
  · exact hended
  · exact hended

theorem ctlEnd_frame (result : Nat) : SameBut [R.CPn_CTL_CMD p] [.ports] d (ctlEnd d p result) := by
  unfold ctlEnd
  dsimp only
  split
  · exact (((SameBut.refl _ _ d).setPort _ _ (by simp)).set _ (by simp)).set _ (by simp)
  · exact (SameBut.refl _ _ d).setPort _ _ (by simp)

theorem dropBackchannel_frame (st : Nat) : SameBut [R.CPn_CTL_CMD p] [.ports] d (dropBackchannel d p st) :=
  (ctlEnd_frame d p 3).setPort _ _ (by simp)

theorem dropBackchannel_port (st : Nat) : ((dropBackchannel d p st).port p).heads = (d.port p).heads ∧
    ((dropBackchannel d p st).port p).regReq = none ∧ ((dropBackchannel d p st).port p).trigQ = [] := by
  rw [dropBackchannel, Device.port_setPort_self, ctlEnd_port]
  split
  · exact ⟨rfl, rfl, rfl⟩
  · exact ⟨rfl, rfl, rfl⟩

end

end Sys2Proof.Machine


/-! # The marker columns of a camera port

An aligned column and a deskew error, and the states that they lead to (R58). -/

namespace Sys2Proof.Machine

theorem tbStatus_ne_cpStatus (p : Fin 12) : R.TB_STATUS ≠ R.CPn_STATUS p := by
  unfold R.TB_STATUS R.CPn_STATUS
  omega

theorem tbStatus_ne_cpSkew (p : Fin 12) : R.TB_STATUS ≠ R.CPn_SKEW p := by
  unfold R.TB_STATUS R.CPn_SKEW
  omega

theorem exec_deskewColumn_camera (p : Fin 12) (s : State) : exec (.deskewColumn (.camera p)) s = s.done (deskewColumnDev p s.dev) := rfl

/-! ## The skew shown -/

section
variable (d : Device) (p : Fin 12) (skew : List Int)

theorem showSkew_frame : SameBut [R.CPn_SKEW p] [] d (showSkew d p skew) :=
  (((SameBut.refl _ _ d).set _ (by simp)).set _ (by simp)).set _ (by simp)

theorem Device.get_setI_self (f : Fld) (v : Int) (h : f.hi < 32) : (d.setI f v).get f = wrapN (f.hi + 1 - f.lo) v :=
  (Device.get_set_self d _ _ h).trans (Nat.mod_eq_of_lt (wrapN_lt _ _))

theorem showSkew_get : (showSkew d p skew).get (F.CPn_SKEW.LANE1 p) = wrapN 8 (skew.getD 0 0) ∧
    (showSkew d p skew).get (F.CPn_SKEW.LANE2 p) = wrapN 8 (skew.getD 1 0) ∧
    (showSkew d p skew).get (F.CPn_SKEW.LANE3 p) = wrapN 8 (skew.getD 2 0) := by
  refine ⟨?_, ?_, Device.get_setI_self _ _ _ (by simp)⟩
  · exact (Device.get_set_ne _ _ _ _ (.inr (.inr (by simp)))).trans
      ((Device.get_set_ne _ _ _ _ (.inr (.inr (by simp)))).trans (Device.get_setI_self _ _ _ (by simp)))
  · exact (Device.get_set_ne _ _ _ _ (.inr (.inr (by simp)))).trans (Device.get_setI_self _ _ _ (by simp))

/-- The port has taken an aligned column. -/
def columnTaken (d : Device) (p : Nat) (skew : List Int) : Device :=
  (showSkew (popEvent d p) p skew).setPort p { (popEvent d p).port p with deskewOk := ((popEvent d p).port p).deskewOk + 1, deskewBad := 0 }

theorem columnTaken_frame : SameBut [R.CPn_SKEW p] [.ports] d (columnTaken d p skew) :=
  (((popEvent_frame d p).mono_regs (List.nil_subset _)).trans
    ((showSkew_frame (popEvent d p) p skew).mono_parts (List.nil_subset _))).setPort _ _ (by simp)

theorem columnTaken_port : (columnTaken d p skew).port p =
    { (popEvent d p).port p with deskewOk := ((popEvent d p).port p).deskewOk + 1, deskewBad := 0 } :=
  Device.port_setPort_self _ p _

theorem columnTaken_ports_ne {n : Fin 12} (h : n ≠ p) : (columnTaken d p skew).port n = d.port n := by
  rw [columnTaken, port_setPort_ne _ p _ h, (showSkew_frame (popEvent d p) p skew).port (by simp), popEvent, port_setPort_ne _ p _ h]

theorem columnTaken_skew : (columnTaken d p skew).get (F.CPn_SKEW.LANE1 p) = wrapN 8 (skew.getD 0 0) ∧
    (columnTaken d p skew).get (F.CPn_SKEW.LANE2 p) = wrapN 8 (skew.getD 1 0) ∧
    (columnTaken d p skew).get (F.CPn_SKEW.LANE3 p) = wrapN 8 (skew.getD 2 0) := by
  obtain ⟨hone, htwo, hthree⟩ := showSkew_get (popEvent d p) p skew
  have hport : SameBut [] [.ports] (showSkew (popEvent d p) p skew) (columnTaken d p skew) := (SameBut.refl _ _ _).setPort _ _ (by simp)
  exact ⟨(hport.get (by simp)).trans hone, (hport.get (by simp)).trans htwo, (hport.get (by simp)).trans hthree⟩

end

theorem popEvent_lanesSync (d : Device) (p n : Nat) : lanesSync (popEvent d p) p n = lanesSync d p n := rfl

theorem popEvent_portLanes (d : Device) (p : Nat) : portLanes (popEvent d p) p = portLanes d p := rfl

section
variable {d : Device} {p : Fin 12} {skew : List Int} {rest : List LinkEvent}

theorem popEvent_deskewOk (d : Device) (p : Fin 12) : ((popEvent d p).port p).deskewOk = (d.port p).deskewOk := by rw [popEvent_port]

theorem popEvent_deskewBad (d : Device) (p : Fin 12) : ((popEvent d p).port p).deskewBad = (d.port p).deskewBad := by rw [popEvent_port]

theorem deskewColumnDev_of_aligned (h : (d.port p).rx.events = .marker true skew :: rest) :
    deskewColumnDev p d = deskewGood p skew (popEvent d p) := by
  unfold deskewColumnDev
  rw [h]

theorem deskewColumnDev_of_error (h : (d.port p).rx.events = .marker false skew :: rest) :
    deskewColumnDev p d = deskewBad p (popEvent d p) := by
  unfold deskewColumnDev
  rw [h]

/-- The first aligned column only counts. -/
theorem deskewColumnDev_first (hevents : (d.port p).rx.events = .marker true skew :: rest) (hok : (d.port p).deskewOk = 0) :
    deskewColumnDev p d = columnTaken d p skew := by
  rw [deskewColumnDev_of_aligned hevents, deskewGood]
  refine if_neg fun h => ?_
  rw [popEvent_deskewOk, hok] at h
  exact absurd h.1 (by decide)

/-- The second in a row achieves deskew. -/
theorem deskewColumnDev_second (hevents : (d.port p).rx.events = .marker true skew :: rest) (hok : (d.port p).deskewOk = 1)
    (hsync : lanesSync d p (portLanes d p) = true) : deskewColumnDev p d = portDeskewed (columnTaken d p skew) p := by
  rw [deskewColumnDev_of_aligned hevents, deskewGood]
  refine if_pos ⟨?_, ?_⟩
  · rw [popEvent_deskewOk, hok]
  · rw [popEvent_portLanes, popEvent_lanesSync, hsync]

theorem columnTaken_first_spec (hok : (d.port p).deskewOk = 0) :
    let e := columnTaken d p skew
    e.portState p = d.portState p ∧ (e.port p).deskewOk = 1 ∧ (e.port p).deskewBad = 0 ∧
      e.get (F.CPn_SKEW.LANE1 p) = wrapN 8 (skew.getD 0 0) ∧ e.get (F.CPn_SKEW.LANE2 p) = wrapN 8 (skew.getD 1 0) ∧
      e.get (F.CPn_SKEW.LANE3 p) = wrapN 8 (skew.getD 2 0) ∧ SameBut [R.CPn_SKEW p] [.ports] d e := by
  intro e
  obtain ⟨hone, htwo, hthree⟩ := columnTaken_skew d p skew
  refine ⟨(columnTaken_frame d p skew).get (by simp), ?_, ?_, hone, htwo, hthree, columnTaken_frame d p skew⟩
  · rw [show e = columnTaken d p skew from rfl, columnTaken_port, popEvent_deskewOk, hok]
  · rw [show e = columnTaken d p skew from rfl, columnTaken_port]

end

/-! ## Deskew achieved -/

section
variable (d : Device) (p : Fin 12)

/-- The port in RUN, its triggers from line `c` on. -/
def runEntered (d : Device) (p : Nat) (c : Int) : Device :=
  (portEnter d p psRun).setPort p { (portEnter d p psRun).port p with nextTrig := some c }

theorem runEntered_port (c : Int) : (runEntered d p c).port p =
    { d.port p with deskewOk := 0, deskewBad := 0, eyeResync := false, nextTrig := some c } := by
  rw [runEntered, Device.port_setPort_self, portEnter_run, Device.port_setPort_self, stateEntered_port]

theorem runEntered_port_ne (c : Int) {n : Fin 12} (h : n ≠ p) : (runEntered d p c).port n = d.port n := by
  have hset : SameBut [R.CPn_STATUS p] [] (stateEntered d p psRun) ((stateEntered d p psRun).set (F.CPn_STATUS.RETRIES p) 0) :=
    (SameBut.refl _ _ _).set _ (by simp)
  rw [runEntered, port_setPort_ne _ p _ h, portEnter_run, port_setPort_ne _ p _ h, hset.port (by simp), stateEntered_port_ne _ _ _ h]

theorem runEntered_frame (c : Int) : SameBut [R.CPn_STATUS p] [.ports] d (runEntered d p c) := by
  rw [runEntered, portEnter_run]
  exact (((stateEntered_frame d p psRun).set _ (by simp)).setPort _ _ (by simp)).setPort _ _ (by simp)

theorem runEntered_status (c : Int) : (runEntered d p c).portState p = psRun ∧ (runEntered d p c).get (F.CPn_STATUS.RETRIES p) = 0 := by
  have hports : SameBut [] [.ports] ((stateEntered d p psRun).set (F.CPn_STATUS.RETRIES p) 0) (runEntered d p c) := by
    rw [runEntered, portEnter_run]
    exact ((SameBut.refl _ _ _).setPort _ _ (by simp)).setPort _ _ (by simp)
  constructor
  · exact (hports.get (by simp)).trans ((Device.get_set_ne _ _ _ _ (.inr (.inr (by simp)))).trans (stateEntered_state d p (by decide)))
  · exact (hports.get (by simp)).trans (Device.get_set_self _ _ _ (by simp))

/-- The port in START, a TIME packet due. -/
def startEntered (d : Device) (p : Nat) : Device := stateEntered (d.setPort p { d.port p with timeDue := true }) p psStart

theorem startEntered_frame : SameBut [R.CPn_STATUS p] [.ports] d (startEntered d p) :=
  ((SameBut.refl _ _ d).setPort _ _ (by simp)).trans (stateEntered_frame _ p psStart)

theorem startEntered_port : (startEntered d p).port p = { d.port p with deskewOk := 0, deskewBad := 0, timeDue := true } := by
  rw [startEntered, stateEntered_port, Device.port_setPort_self]

theorem startEntered_port_ne {n : Fin 12} (h : n ≠ p) : (startEntered d p).port n = d.port n := by
  rw [startEntered, stateEntered_port_ne _ p _ h, port_setPort_ne _ p _ h]

theorem startEntered_state : (startEntered d p).portState p = psStart := stateEntered_state _ p (by decide)

theorem startEntered_lining : (startEntered d p).lining = d.lining := (startEntered_frame d p).bit (by simpa using tbStatus_ne_cpStatus p)

end

section
variable {d : Device} {p : Fin 12} {skew : List Int} {rest : List LinkEvent}

/-- Deskew achieved in DESKEW leads to START, and on to RUN where the line generator runs. -/
theorem portDeskewed_eq (hstate : d.portState p = psDeskew) : ∃ c, portDeskewed d p =
    if d.lining = true then runEntered (startEntered d p) p c else startEntered d p := by
  have hlive : ¬ (d.portState p = psDisabled ∨ d.portState p = psRetry) := by rw [hstate]; decide
  have hdue : timeDue d p = d.setPort p { d.port p with timeDue := true } := if_neg hlive
  have hset : (d.setPort p { d.port p with timeDue := true }).portState p = d.portState p :=
    ((SameBut.refl [] [.ports] d).setPort _ _ (by simp)).get (by simp)
  have hrun : (d.setPort p { d.port p with timeDue := true }).portState p ≠ psRun := by rw [hset, hstate]; decide
  have hstart : portDeskewed d p = portStart (startEntered d p) p := by
    rw [portDeskewed, if_pos hstate, hdue, portEnter_plain hrun (by decide) (by decide) (by decide) (by decide) (by decide)]
    rfl
  refine ⟨firstTrig (startEntered d p) p 1024 (startEntered d p).tb.next, ?_⟩
  rw [hstart, portStart, startEntered_state, startEntered_lining]
  simp only [true_and]
  rfl

/-- What the second aligned column of a port in DESKEW brings about. -/
theorem portDeskewed_spec (hstate : d.portState p = psDeskew) : let e := portDeskewed d p
    e.portState p = (if d.lining then psRun else psStart) ∧
      ((e.port p).timeDue = true ∧ (d.lining = true → e.get (F.CPn_STATUS.RETRIES p) = 0 ∧ (e.port p).nextTrig.isSome = true)) ∧
      (∀ n : Fin 12, n ≠ p → e.port n = d.port n) ∧ SameBut [R.CPn_STATUS p] [.ports] d e := by
  intro e
  obtain ⟨c, heq⟩ := portDeskewed_eq hstate
  have he : e = if d.lining = true then runEntered (startEntered d p) p c else startEntered d p := heq
  rw [he]
  cases hlining : d.lining
  · simp only [Bool.false_eq_true, if_false, false_implies, and_true]
    exact ⟨startEntered_state d p, by rw [startEntered_port], fun n hn => startEntered_port_ne d p hn, startEntered_frame d p⟩
  · simp only [if_true, true_implies]
    obtain ⟨hrun, hretries⟩ := runEntered_status (startEntered d p) p c
    refine ⟨hrun, ⟨?_, hretries, ?_⟩, fun n hn => ?_, (startEntered_frame d p).trans (runEntered_frame _ p c)⟩
    · rw [runEntered_port, startEntered_port]
    · rw [runEntered_port]
      rfl
    · rw [runEntered_port_ne _ p c hn, startEntered_port_ne d p hn]

theorem columnTaken_second_spec (hstate : d.portState p = psDeskew) :
    let e := portDeskewed (columnTaken d p skew) p
    e.portState p = (if d.lining then psRun else psStart) ∧
      ((e.port p).timeDue = true ∧ (d.lining = true → e.get (F.CPn_STATUS.RETRIES p) = 0 ∧ (e.port p).nextTrig.isSome = true)) ∧
      e.get (F.CPn_SKEW.LANE1 p) = wrapN 8 (skew.getD 0 0) ∧ e.get (F.CPn_SKEW.LANE2 p) = wrapN 8 (skew.getD 1 0) ∧
      e.get (F.CPn_SKEW.LANE3 p) = wrapN 8 (skew.getD 2 0) ∧ (∀ n : Fin 12, n ≠ p → e.port n = d.port n) ∧
      SameBut [R.CPn_STATUS p, R.CPn_SKEW p] [.ports] d e := by
  intro e
  have htaken := columnTaken_frame d p skew
  obtain ⟨hone, htwo, hthree⟩ := columnTaken_skew d p skew
  have hlining : (columnTaken d p skew).lining = d.lining := htaken.bit (by simpa using tbStatus_ne_cpSkew p)
  obtain ⟨hnew, hstarted, hothers, hframe⟩ := portDeskewed_spec (d := columnTaken d p skew) (p := p) ((htaken.get (by simp)).trans hstate)
  rw [hlining] at hnew hstarted
  refine ⟨hnew, hstarted, (hframe.get (by simp)).trans hone, (hframe.get (by simp)).trans htwo, (hframe.get (by simp)).trans hthree,
    fun n hn => (hothers n hn).trans (columnTaken_ports_ne d p skew hn), ?_⟩
  exact (htaken.mono_regs (by simp)).trans (hframe.mono_regs (by simp))

end

/-! ## Deskew errors -/

section
variable (d : Device) (p : Fin 12)

/-- A deskew error has been counted and flagged. -/
def deskewErrCounted (d : Device) (p : Nat) : Device := (d.count (F.CPn_DESKEW_ERR.COUNT p)).raise (F.CPn_FLAGS.DESKEW_ERR p)

theorem deskewErrCounted_spec : (deskewErrCounted d p).get (F.CPn_DESKEW_ERR.COUNT p) = min (d.get (F.CPn_DESKEW_ERR.COUNT p) + 1) 0xFFFFFFFF ∧
    (deskewErrCounted d p).get (F.CPn_FLAGS.DESKEW_ERR p) = 1 ∧ SameBut [R.CPn_DESKEW_ERR p, R.CPn_FLAGS p] [.evt] d (deskewErrCounted d p) :=
  counted_flagged (by simp) (by simp) (by simp) (by simp)

/-- The port has taken a column out of order, as `x` of it. -/
def columnRefused (d : Device) (p : Nat) (x : Port) : Device := (deskewErrCounted (popEvent d p) p).setPort p x

theorem columnRefused_spec (x : Port) : let e := columnRefused d p x
    e.get (F.CPn_FLAGS.DESKEW_ERR p) = 1 ∧ e.get (F.CPn_DESKEW_ERR.COUNT p) = min (d.get (F.CPn_DESKEW_ERR.COUNT p) + 1) 0xFFFFFFFF ∧
      SameBut [R.CPn_FLAGS p, R.CPn_DESKEW_ERR p] [.ports, .evt] d e := by
  intro e
  obtain ⟨hcount, hflag, hcounted⟩ := deskewErrCounted_spec (popEvent d p) p
  have hport : SameBut [] [.ports] (deskewErrCounted (popEvent d p) p) e := (SameBut.refl _ _ _).setPort _ _ (by simp)
  rw [popEvent_get] at hcount
  exact ⟨(hport.get (by simp)).trans hflag, (hport.get (by simp)).trans hcount,
    (((popEvent_frame d p).mono (List.nil_subset _) (by simp)).then hcounted (by simp) (by simp)).setPort _ _ (by simp)⟩

/-- What a deskew error leaves of the port's own state. -/
def portRefused (x : Port) : Port :=
  { x with deskewOk := 0, deskewBad := x.deskewBad + 1, rx := if x.deskewBad + 1 = 2 then x.rx.lose else x.rx }

end

section
variable {d : Device} {p : Fin 12} {skew : List Int} {rest : List LinkEvent}

theorem deskewColumnDev_refused (hevents : (d.port p).rx.events = .marker false skew :: rest) (hstate : d.portState p ≠ psRun) :
    deskewColumnDev p d = columnRefused d p (portRefused ((popEvent d p).port p)) := by
  rw [deskewColumnDev_of_error hevents, deskewBad]
  exact if_neg fun h => hstate h.2

theorem columnRefused_port_spec :
    let e := columnRefused d p (portRefused ((popEvent d p).port p))
    e.portState p = d.portState p ∧ (e.port p).deskewOk = 0 ∧ e.get (F.CPn_FLAGS.DESKEW_ERR p) = 1 ∧
      e.get (F.CPn_DESKEW_ERR.COUNT p) = min (d.get (F.CPn_DESKEW_ERR.COUNT p) + 1) 0xFFFFFFFF ∧
      SameBut [R.CPn_FLAGS p, R.CPn_DESKEW_ERR p] [.ports, .evt] d e := by
  intro e
  obtain ⟨hflag, hcount, hframe⟩ := columnRefused_spec d p (portRefused ((popEvent d p).port p))
  refine ⟨hframe.get (by simp), ?_, hflag, hcount, hframe⟩
  rw [show e = columnRefused d p (portRefused ((popEvent d p).port p)) from rfl, columnRefused, Device.port_setPort_self]
  rfl

/-- The second error in a row, in RUN with nothing to drop. -/
theorem deskewColumnDev_resync (hevents : (d.port p).rx.events = .marker false skew :: rest) (hstate : d.portState p = psRun)
    (hbad : (d.port p).deskewBad = 1) (hreq : (d.port p).regReq = none) (hexposure : (d.port p).exposure = none) :
    deskewColumnDev p d =
      (resyncEntered (columnRefused d p (portRefused ((popEvent d p).port p))) p).raise (F.CPn_FLAGS.RESYNC p) := by
  have hport : (columnRefused d p (portRefused ((popEvent d p).port p))).port p = portRefused ((popEvent d p).port p) :=
    Device.port_setPort_self _ p _
  rw [deskewColumnDev_of_error hevents, deskewBad]
  have hkept : (portRefused ((popEvent d p).port p)).regReq = none ∧ (portRefused ((popEvent d p).port p)).exposure = none := by
    rw [popEvent_port]
    exact ⟨hreq, hexposure⟩
  have hsecond : ((popEvent d p).port p).deskewBad + 1 = 2 := by rw [popEvent_deskewBad, hbad]
  exact (if_pos ⟨hsecond, hstate⟩).trans
    (portEnter_resync ((congrArg Port.regReq hport).trans hkept.1) ((congrArg Port.exposure hport).trans hkept.2))

theorem resyncEntered_frame (d : Device) (p : Fin 12) : SameBut [R.CPn_STATUS p] [.ports] d (resyncEntered d p) :=
  ((SameBut.refl _ _ d).set _ (by simp)).setPort _ _ (by simp)

theorem resyncEntered_state (d : Device) (p : Fin 12) : (resyncEntered d p).portState p = psResync :=
  ((((SameBut.refl [] [.ports] (d.set (F.CPn_STATUS.STATE p) psResync)).setPort _ _ (by simp)).get (by simp)).trans
    (Device.get_set_self d _ _ (by simp)))

theorem Device.get_raise_ne (d : Device) (f g : Fld) (h : g.addr ≠ f.addr ∨ f.hi < g.lo ∨ g.hi < f.lo) : (d.raise f).get g = d.get g :=
  (Device.get_raise d f g).trans (Device.get_set_ne d f g 1 h)

theorem resync_raised_spec (d : Device) (p : Fin 12) (x : Port) :
    let e := (resyncEntered (columnRefused d p x) p).raise (F.CPn_FLAGS.RESYNC p)
    e.portState p = psResync ∧ e.get (F.CPn_FLAGS.RESYNC p) = 1 ∧ e.get (F.CPn_FLAGS.DESKEW_ERR p) = 1 ∧
      e.get (F.CPn_DESKEW_ERR.COUNT p) = min (d.get (F.CPn_DESKEW_ERR.COUNT p) + 1) 0xFFFFFFFF ∧
      SameBut [R.CPn_STATUS p, R.CPn_FLAGS p, R.CPn_DESKEW_ERR p] [.ports, .evt] d e := by
  intro e
  obtain ⟨hflag, hcount, hframe⟩ := columnRefused_spec d p x
  have hentered := resyncEntered_frame (columnRefused d p x) p
  refine ⟨(Device.get_raise_ne _ _ _ (.inl (by simp))).trans (resyncEntered_state _ p), Device.get_raise_self _ _ (by simp) (by simp), ?_, ?_, ?_⟩
  · exact (Device.get_raise_ne _ _ _ (.inr (by simp))).trans ((hentered.get (by simp)).trans hflag)
  · exact (Device.get_raise_ne _ _ _ (.inl (by simp))).trans ((hentered.get (by simp)).trans hcount)
  · exact ((hframe.mono_regs (by simp)).trans (hentered.mono (by simp) (by simp))).raise (by simp) (by simp)

end

end Sys2Proof.Machine


/-! # A camera port gives up, tries again and restarts

PORT_STATE_TIMEOUT, RETRY_END and RESTART (Table 3.6). -/

namespace Sys2Proof.Machine

theorem exec_portStateTimeout (p : Fin 12) (s : State) : exec (.portStateTimeout p) s = s.done (portTimeoutDev p s.dev) := rfl
theorem exec_retryEnd (p : Fin 12) (s : State) : exec (.retryEnd p) s = s.done (retryEndDev p s.dev) := rfl
theorem exec_portRestart (p : Fin 12) (s : State) :
    exec (.portRestart p) s = s.done (regAccess (R.CPn_LINK_CTRL p) true (portRestartDev p) s.dev) := rfl

/-! ## The lanes of a port and its registers -/

section
variable (p : Fin 12)

theorem bcLane_val : bcLane p = .cpBc p := congrArg Lane.cpBc (Fin.ext (Nat.mod_eq_of_lt p.isLt))

theorem rxLane_val (k : Fin 4) : rxLane p k = .cpRx p k :=
  congrArg₂ Lane.cpRx (Fin.ext (Nat.mod_eq_of_lt p.isLt)) (Fin.ext (Nat.mod_eq_of_lt k.isLt))

/-- The registers of the port itself, before those of its lanes. -/
def InPort (p a : Nat) : Prop := 0x20000000 + 0x10000 * p ≤ a ∧ a < 0x20008000 + 0x10000 * p

variable {p : Fin 12} {a : Nat}

theorem inPort_status : InPort p (R.CPn_STATUS p) := by unfold InPort R.CPn_STATUS; omega
theorem inPort_cfg : InPort p (R.CPn_CFG p) := by unfold InPort R.CPn_CFG; omega

theorem InPort.not_mem_bc (h : InPort p a) : a ∉ switchRegs (.cpBc p) := by
  unfold InPort at h
  simp only [switchRegs, laneRegs, trainRegs, laneBase, R.LN_CTRL, R.LN_STATUS, R.LN_EYE, R.LN_FAR_TAPS, R.LN_FLAGS,
    List.mem_append, List.mem_cons, List.not_mem_nil, or_false]
  omega

theorem InSlot.not_mem_bc {k : Fin 4} (h : InSlot (.cpRx p k) a) : a ∉ switchRegs (.cpBc p) := by
  unfold InSlot at h
  simp only [laneBase] at h
  simp only [switchRegs, laneRegs, trainRegs, laneBase, R.LN_CTRL, R.LN_STATUS, R.LN_EYE, R.LN_FAR_TAPS, R.LN_FLAGS,
    List.mem_append, List.mem_cons, List.not_mem_nil, or_false]
  omega

theorem InSlot.not_mem_rx {j k : Fin 4} (hne : j ≠ k) (h : InSlot (.cpRx p k) a) : a ∉ switchRegs (.cpRx p j) := by
  have hval : j.val ≠ k.val := fun heq => hne (Fin.ext heq)
  unfold InSlot at h
  simp only [laneBase] at h
  simp only [switchRegs, laneRegs, trainRegs, laneBase, R.LN_CTRL, R.LN_STATUS, R.LN_EYE, R.LN_FAR_TAPS, R.LN_FLAGS, R.CPn_STATUS,
    List.mem_append, List.mem_cons, List.not_mem_nil, or_false]
  omega

theorem InSlot.not_inPort {k : Fin 4} (h : InSlot (.cpRx p k) a) : ¬ InPort p a := by
  unfold InSlot at h
  simp only [laneBase] at h
  unfold InPort
  omega

theorem InSlot.not_inPort_bc (h : InSlot (.cpBc p) a) : ¬ InPort p a := by
  unfold InSlot at h
  simp only [laneBase] at h
  unfold InPort
  omega

theorem enterRegs_subset_switchRegs (l : Lane) : enterRegs l ⊆ switchRegs l :=
  fun _ ha => List.mem_append_left _ (enterRegs_subset_laneRegs l ha)

end

/-! ## PORT_STATE_TIMEOUT -/

section
variable {d : Device} {p : Fin 12}

/-- The states that a time limit ends. -/
def Limited (st : Nat) : Prop := (psLaneWake ≤ st ∧ st ≤ psRelock) ∨ st = psDeskew ∨ st = psResync

theorem Limited.ne_run {st : Nat} (h : Limited st) : st ≠ psRun := by
  unfold Limited psLaneWake psRelock psDeskew psResync at h
  unfold psRun
  omega

/-- The back-channel is OFF and the try counted. -/
def givenUp (d : Device) (p : Nat) : Device :=
  (lnPowerDown d (bcLane p) false).set (F.CPn_STATUS.RETRIES p) (d.get (F.CPn_STATUS.RETRIES p) + 1)

theorem bcDown_frame (d : Device) (p : Fin 12) : SameBut (switchRegs (.cpBc p)) [.lanes, .evt] d (lnPowerDown d (bcLane p) false) := by
  rw [bcLane_val]
  exact lnPowerDown_frame_switchRegs d _ false

theorem givenUp_state (d : Device) (p : Fin 12) : (givenUp d p).portState p = d.portState p :=
  (Device.get_set_ne _ _ _ _ (.inr (.inr (by simp)))).trans ((bcDown_frame d p).get inPort_status.not_mem_bc)

/-- The port in RETRY. -/
def retryEntered (d : Device) (p : Nat) : Device := dropBackchannel (loseAll (stateEntered d p psRetry) p) p psRetry

theorem retryEntered_frame (d : Device) (p : Fin 12) :
    SameBut [R.CPn_STATUS p, R.CPn_FLAGS p, R.CPn_LINES_LOST p, R.CPn_CTL_CMD p] [.ports, .evt] d (retryEntered d p) :=
  (((stateEntered_frame d p psRetry).mono (by simp) (by simp)).trans ((loseAll_frame _ p).mono (by simp) (by simp))).trans
    ((dropBackchannel_frame _ p psRetry).mono (by simp) (by simp))

theorem dropped_status (d : Device) (p : Fin 12) (st : Nat) :
    (dropBackchannel (loseAll d p) p st).rd (R.CPn_STATUS p) = d.rd (R.CPn_STATUS p) := by
  rw [dropBackchannel_status, loseAll_status]

theorem retryEntered_state (d : Device) (p : Fin 12) : (retryEntered d p).portState p = psRetry :=
  (congrArg (F.CPn_STATUS.STATE p).of (dropped_status (stateEntered d p psRetry) p psRetry)).trans (stateEntered_state d p (by decide))

theorem retryEntered_retries (d : Device) (p : Fin 12) : (retryEntered d p).get (F.CPn_STATUS.RETRIES p) = d.get (F.CPn_STATUS.RETRIES p) :=
  (congrArg (F.CPn_STATUS.RETRIES p).of (dropped_status (stateEntered d p psRetry) p psRetry)).trans (stateEntered_retries d p psRetry)

theorem portEnter_givenUp (h : Limited (d.portState p)) : portEnter (givenUp d p) p psRetry = retryEntered (givenUp d p) p :=
  portEnter_retry (by rw [givenUp_state]; exact h.ne_run)

theorem portTimeoutDev_eq (h : Limited (d.portState p)) : portTimeoutDev p d =
    if d.get (F.CPn_STATUS.RETRIES p) + 1 < 3 then retryEntered (givenUp d p) p
    else portEnter ((retryEntered (givenUp d p) p).fault faultPort p) p psFault := by
  rw [← portEnter_givenUp h]
  exact if_pos h

theorem portTimeoutDev_retry (h : Limited (d.portState p)) (hr : d.get (F.CPn_STATUS.RETRIES p) < 2) :
    portTimeoutDev p d = retryEntered (givenUp d p) p := by
  rw [portTimeoutDev_eq h, if_pos (by omega)]

theorem portTimeout_retry_spec (hr : d.get (F.CPn_STATUS.RETRIES p) < 2) : let e := retryEntered (givenUp d p) p
    e.portState p = psRetry ∧ e.get (F.CPn_STATUS.RETRIES p) = d.get (F.CPn_STATUS.RETRIES p) + 1 ∧
      (∀ h : Fin 4, (unit (e.port p).heads h).trigs.all (fun t => t.st ≠ .outstanding) = true) ∧
      (e.port p).regReq = none ∧ (e.port p).trigQ = [] ∧
      SameBut (laneRegs (.cpBc p) ++ [R.LN_FLAGS (laneBase (.cpBc p)), R.LN_FAR_TAPS (laneBase (.cpBc p)), R.CPn_STATUS p, R.CPn_FLAGS p,
        R.CPn_LINES_LOST p, R.CPn_CTL_CMD p]) [.ports, .lanes, .evt] d e := by
  intro e
  obtain ⟨hheads, hreq, htrig⟩ := dropBackchannel_port (loseAll (stateEntered (givenUp d p) p psRetry) p) p psRetry
  refine ⟨retryEntered_state _ p, ?_, fun h => ?_, hreq, htrig, ?_⟩
  · have hwritten : (givenUp d p).get (F.CPn_STATUS.RETRIES p) = (d.get (F.CPn_STATUS.RETRIES p) + 1) % 4 := Device.get_set_self _ _ _ (by simp)
    rw [show e = retryEntered (givenUp d p) p from rfl, retryEntered_retries, hwritten]
    omega
  · rw [show e.port p = (dropBackchannel (loseAll (stateEntered (givenUp d p) p psRetry) p) p psRetry).port p from rfl, hheads]
    exact loseAll_lost _ p h
  · have hgiven : SameBut (switchRegs (.cpBc p) ++ [R.CPn_STATUS p]) [.ports, .lanes, .evt] d (givenUp d p) :=
      ((bcDown_frame d p).mono (List.subset_append_left _ _) (by simp)).set _ (by simp)
    exact (hgiven.mono_regs (by simp [switchRegs, trainRegs, laneRegs])).then (retryEntered_frame (givenUp d p) p) (by simp) (by simp)

theorem portTimeoutDev_fault (h : Limited (d.portState p)) (hr : d.get (F.CPn_STATUS.RETRIES p) = 2) :
    portTimeoutDev p d = (stateEntered ((retryEntered (givenUp d p) p).fault faultPort p) p psFault).raise (F.CPn_FLAGS.FAULT p) := by
  have hnot : R.CPn_STATUS p ∉ faultRegs := by
    have hp := p.isLt
    simp only [faultRegs, List.mem_cons, List.not_mem_nil, or_false, R.CPn_STATUS, R.FLT_L1_COUNT, R.FLT_L2_COUNT, R.FLT_L3_COUNT, R.FLT_LAST,
      R.FLT_LAST_LINE, R.FLT_FLAGS, R.FLT_HIST_SEQ]
    omega
  have hstate : ((retryEntered (givenUp d p) p).fault faultPort p).portState p = psRetry :=
    (congrArg (F.CPn_STATUS.STATE p).of ((Device.fault_frame _ _ _).regs _ hnot)).trans (retryEntered_state _ p)
  rw [portTimeoutDev_eq h, if_neg (by omega)]
  exact portEnter_fault (by rw [hstate]; decide)

theorem faultEntered_spec (d : Device) (p : Fin 12) : let e := (stateEntered d p psFault).raise (F.CPn_FLAGS.FAULT p)
    e.portState p = psFault ∧ e.get (F.CPn_FLAGS.FAULT p) = 1 :=
  ⟨(Device.get_raise_ne _ _ _ (.inl (by simp))).trans (stateEntered_state d p (by decide)), Device.get_raise_self _ _ (by simp) (by simp)⟩

end

/-! ## The receive rate -/

section
variable (d : Device) (l : Lane) (rate : Nat)

/-- A lane at a receive rate: a locked one locks again at the new one (R31). -/
def laneRated (d : Device) (l : Lane) (rate : Nat) : Device :=
  if d.get (F.LN_STATUS.RATE (laneBase l)) = rate then d
  else if lnLocked d l ∨ d.lnState l = lnLocking then
    ((d.set (F.LN_STATUS.RATE (laneBase l)) rate).setLaneX l
      { d.laneX l with phase := 0, acq := 0, score := 0, validRun := 0 }).lnEnter l (if (d.laneX l).signal then lnLocking else lnLos)
  else d.set (F.LN_STATUS.RATE (laneBase l)) rate

theorem setRate_eq (p : Nat) : setRate d p rate = (List.range 4).foldl (fun d k => laneRated d (rxLane p k) rate) d := rfl

theorem laneRated_frame : SameBut (enterRegs l) [.lanes] d (laneRated d l rate) := by
  have hset : SameBut (enterRegs l) [.lanes] d (d.set (F.LN_STATUS.RATE (laneBase l)) rate) := (SameBut.refl _ _ d).set _ (by simp [enterRegs])
  exact iteInduction (fun _ => .refl _ _ d) fun _ => iteInduction (fun _ => (hset.setLaneX _ _ (by simp)).trans (lnEnter_frame_enterRegs _ l _)) fun _ => hset

variable {rate}

theorem laneRated_rate (h : rate < 8) : (laneRated d l rate).get (F.LN_STATUS.RATE (laneBase l)) = rate := by
  have hset : (d.set (F.LN_STATUS.RATE (laneBase l)) rate).get (F.LN_STATUS.RATE (laneBase l)) = rate :=
    (Device.get_set_self _ _ _ (by simp)).trans (Nat.mod_eq_of_lt h)
  refine iteInduction (motive := fun e : Device => e.get (F.LN_STATUS.RATE (laneBase l)) = rate) (fun heq => heq) fun _ =>
    iteInduction (motive := fun e : Device => e.get (F.LN_STATUS.RATE (laneBase l)) = rate) (fun _ => ?_) fun _ => hset
  have hlane : SameBut [] [.lanes] (d.set (F.LN_STATUS.RATE (laneBase l)) rate) ((d.set (F.LN_STATUS.RATE (laneBase l)) rate).setLaneX l
    { d.laneX l with phase := 0, acq := 0, score := 0, validRun := 0 }) := (SameBut.refl _ _ _).setLaneX _ _ (by simp)
  rw [lnEnter_status_get _ l _ rfl (by simp), hlane.get (by simp), hset]

/-- No lane reaches SYNC by a change of rate. -/
theorem laneRated_state (h : d.lnState l ≠ lnSync) : (laneRated d l rate).lnState l ≠ lnSync := by
  have hset : (d.set (F.LN_STATUS.RATE (laneBase l)) rate).lnState l = d.lnState l := Device.get_set_ne _ _ _ _ (.inr (.inr (by simp)))
  refine iteInduction (motive := fun e : Device => e.lnState l ≠ lnSync) (fun _ => h) fun _ =>
    iteInduction (motive := fun e : Device => e.lnState l ≠ lnSync) (fun _ => ?_) fun _ => by rwa [hset]
  cases (d.laneX l).signal
  · rw [if_neg (by decide), lnEnter_state _ l (by decide)]
    decide
  · rw [if_pos rfl, lnEnter_state _ l (by decide)]
    decide

theorem lnEnter_portState (p : Fin 12) (k : Fin 4) (st : Nat) : (d.lnEnter (.cpRx p k) st).portState p = d.portState p := by
  have hentered : (laneEntered d (.cpRx p k) st).portState p = d.portState p :=
    (laneEntered_frame d (.cpRx p k) st).get fun hmem => by
      simp only [laneBase, R.LN_STATUS, R.LN_EYE, R.CPn_STATUS, List.mem_cons, List.not_mem_nil, or_false] at hmem
      omega
  rw [lnEnter_eq, ← hentered]
  exact Device.get_set_ne _ _ _ _ (.inr (.inr (by simp only [Fld.bitN]; omega)))

theorem laneRated_portState (p : Fin 12) (k : Fin 4) : (laneRated d (.cpRx p k) rate).portState p = d.portState p := by
  have hset : (d.set (F.LN_STATUS.RATE (laneBase (.cpRx p k))) rate).portState p = d.portState p := Device.get_set_ne _ _ _ _ (.inl (by
    simp only [laneBase, R.LN_STATUS, R.CPn_STATUS, ne_eq]
    omega))
  exact iteInduction (motive := fun e : Device => e.portState p = d.portState p) (fun _ => rfl) fun _ =>
    iteInduction (motive := fun e : Device => e.portState p = d.portState p) (fun _ => (lnEnter_portState _ p k _).trans hset) fun _ => hset

end

section
variable (d : Device) {p : Fin 12}

theorem setRate_frame_lanes (rate : Nat) : SameBut ((List.range 4).flatMap fun k => enterRegs (rxLane p k)) [.lanes] d (setRate d p rate) := by
  rw [setRate_eq]
  exact SameBut.foldl fun e k hk => (laneRated_frame e _ rate).mono_regs fun a ha => List.mem_flatMap.2 ⟨k, hk, ha⟩

theorem setRate_portState (rate : Nat) : (setRate d p rate).portState p = d.portState p := by
  rw [setRate_eq]
  refine List.foldlRecOn (motive := fun e : Device => e.portState p = d.portState p) _ _ rfl fun e he k hk => ?_
  rw [show rxLane p k = .cpRx p ⟨k, List.mem_range.1 hk⟩ from rxLane_val p ⟨k, List.mem_range.1 hk⟩, laneRated_portState, he]

/-- What a change of rate brings about on one lane of the port holds after the change on all. -/
theorem setRate_at {rate : Nat} {Q P : Device → Prop} (k : Fin 4) (hQ : Q d) (hstep : ∀ e, Q e → P (laneRated e (.cpRx p k) rate))
    (hkept : ∀ e (j : Fin 4), j ≠ k → (Q e → Q (laneRated e (.cpRx p j) rate)) ∧ (P e → P (laneRated e (.cpRx p j) rate))) :
    P (setRate d p rate) := by
  have hval (j : Nat) (hj : j ∈ List.range 4) : rxLane p j = .cpRx p ⟨j, List.mem_range.1 hj⟩ := rxLane_val p ⟨j, List.mem_range.1 hj⟩
  have hother {j : Nat} (hj : j ∈ List.range 4) (hne : j ≠ k) : (⟨j, List.mem_range.1 hj⟩ : Fin 4) ≠ k := fun heq => hne (congrArg Fin.val heq)
  rw [setRate_eq]
  refine foldl_at (k := k.val) (Q := Q) (fun e he => ?_) List.nodup_range (List.mem_range.2 k.isLt) (fun e j hj hne he => ?_)
    (fun e j hj hne he => ?_) hQ
  · rw [rxLane_val]
    exact hstep e he
  · rw [hval j hj]
    exact (hkept e _ (hother hj hne)).1 he
  · rw [hval j hj]
    exact (hkept e _ (hother hj hne)).2 he

theorem laneRated_other {rate : Nat} (e : Device) {j k : Fin 4} (h : j ≠ k) {f : Fld} (hf : InSlot (.cpRx p k) f.addr) :
    (laneRated e (.cpRx p j) rate).get f = e.get f :=
  (laneRated_frame e _ rate).get fun hmem => hf.not_mem_rx h (enterRegs_subset_switchRegs _ hmem)

theorem setRate_rate (k : Fin 4) : (setRate d p 1).get (F.LN_STATUS.RATE (laneBase (.cpRx p k))) = 1 :=
  setRate_at d (P := fun e : Device => e.get (F.LN_STATUS.RATE (laneBase (.cpRx p k))) = 1) k trivial (Q := fun _ => True)
    (fun e _ => laneRated_rate e _ (by decide))
    fun e _ hne => ⟨fun _ => trivial, fun he => (laneRated_other e hne (inSlot_status _)).trans he⟩

theorem setRate_not_sync {rate : Nat} {k : Fin 4} (h : d.lnState (.cpRx p k) ≠ lnSync) : (setRate d p rate).lnState (.cpRx p k) ≠ lnSync :=
  setRate_at d (P := fun e : Device => e.lnState (.cpRx p k) ≠ lnSync) k h (Q := fun e : Device => e.lnState (.cpRx p k) ≠ lnSync)
    (fun e he => laneRated_state e _ he) fun e _ hne =>
      have hkept := laneRated_other (rate := rate) e hne (f := F.LN_STATUS.STATE (laneBase (.cpRx p k))) (inSlot_status _)
      ⟨fun he heq => he (hkept.symm.trans heq), fun he heq => he (hkept.symm.trans heq)⟩

/-- Lanes at the rate stay as they are. -/
theorem setRate_eq_self {rate : Nat} (h : ∀ k : Fin 4, d.get (F.LN_STATUS.RATE (laneBase (.cpRx p k))) = rate) : setRate d p rate = d := by
  rw [setRate_eq]
  refine List.foldl_fixed' (f := fun d k => laneRated d (rxLane p k) rate) (fun k => if_pos ?_) _
  rw [show rxLane p k = .cpRx p (Fin.ofNat 4 k) from congrArg (Lane.cpRx · _) (Fin.ext (Nat.mod_eq_of_lt p.isLt))]
  exact h _

end

/-! ## RETRY_END -/

section
variable {d : Device} {p : Fin 12}

theorem lnPowerUp_power {l : Lane} (h : d.slu.applied = true ∨ laneIsEth l = true) : (lnPowerUp d l).get (F.LN_CTRL.POWER (laneBase l)) = 2 := by
  rw [lnPowerUp_of_allowed h]
  refine iteInduction (motive := fun e : Device => e.get (F.LN_CTRL.POWER (laneBase l)) = 2) (fun _ => ?_) fun _ =>
    iteInduction (motive := fun e : Device => e.get (F.LN_CTRL.POWER (laneBase l)) = 2) (fun _ => ?_) fun _ => powered_get
  · rw [lnEnter_get _ l _ (inSlot_ctrl l) (by simp), powered_get]
  · rw [Device.get_set_ne _ _ _ _ (.inl (by simp)), powered_get]

theorem bcUp_frame (d : Device) (p : Fin 12) : SameBut (switchRegs (.cpBc p)) [.lanes, .evt] d (lnPowerUp d (bcLane p)) := by
  rw [bcLane_val]
  exact lnPowerUp_frame_switchRegs d _

/-- The lanes start again. -/
def lanesRestarted (d : Device) (p : Nat) : Device := lnPowerUp (setRate d p 1) (bcLane p)

theorem lanesRestarted_state (d : Device) (p : Fin 12) : (lanesRestarted d p).portState p = d.portState p :=
  ((bcUp_frame _ p).get inPort_status.not_mem_bc).trans (setRate_portState d 1)

/-- The port in LANE_WAKE, its lanes started again. -/
def wakeEntered (d : Device) (p : Nat) : Device := stateEntered (lanesRestarted d p) p psLaneWake

theorem wakeEntered_state (d : Device) (p : Fin 12) : (wakeEntered d p).portState p = psLaneWake := stateEntered_state _ p (by decide)

/-- The slots of the port's lanes are as the new start left them. -/
theorem wakeEntered_rx (d : Device) {k : Fin 4} {f : Fld} (hf : InSlot (.cpRx p k) f.addr) : (wakeEntered d p).get f = (setRate d p 1).get f :=
  ((stateEntered_frame _ p _).get fun hmem => hf.not_inPort (List.mem_singleton.1 hmem ▸ inPort_status)).trans
    ((bcUp_frame _ p).get hf.not_mem_bc)

theorem retryEndDev_eq (h : d.portState p = psRetry) : retryEndDev p d = portCheck p (wakeEntered d p) := by
  have hplain : portEnter (lanesRestarted d p) p psLaneWake = wakeEntered d p :=
    portEnter_plain (by rw [lanesRestarted_state, h]; decide) (by decide) (by decide) (by decide) (by decide) (by decide)
  rw [← hplain]
  exact if_pos h

theorem lanesSync_one (d : Device) (p : Fin 12) : lanesSync d p 1 = (d.lnState (.cpRx p 0) == lnSync) := by
  rw [← rxLane_val p 0]
  exact Bool.and_true _

/-- The port waits for lane 0. -/
theorem portCheck_waits (hstate : d.portState p = psLaneWake) (hsync : lanesSync d p 1 = false) : portCheck p d = d := by
  have hrelock : psLaneWake ≠ psRelock := by decide
  have htrain : psLaneWake ≠ psTrain := by decide
  have hrun : psLaneWake ≠ psRun := by decide
  simp only [portCheck, hstate, hsync, hrelock, htrain, hrun, Bool.false_eq_true, and_false, false_and, if_false]

theorem wakeEntered_not_sync (h : lanesSync d p 1 = false) : lanesSync (wakeEntered d p) p 1 = false := by
  rw [lanesSync_one, beq_eq_false_iff_ne] at h ⊢
  have hkept : (wakeEntered d p).lnState (.cpRx p 0) = (setRate d p 1).lnState (.cpRx p 0) := wakeEntered_rx d (inSlot_status _)
  rw [hkept]
  exact setRate_not_sync d h

theorem retryEndDev_waits (hstate : d.portState p = psRetry) (hsync : lanesSync d p 1 = false) : retryEndDev p d = wakeEntered d p :=
  (retryEndDev_eq hstate).trans (portCheck_waits (wakeEntered_state d p) (wakeEntered_not_sync hsync))

theorem retryEnd_waits_spec (d : Device) (p : Fin 12) : let e := wakeEntered d p
    e.portState p = psLaneWake ∧ (d.slu.applied = true → e.get (F.LN_CTRL.POWER (laneBase (.cpBc p))) = 2) ∧
      (∀ k : Fin 4, e.get (F.LN_STATUS.RATE (laneBase (.cpRx p k))) = 1) := by
  refine ⟨wakeEntered_state d p, fun happlied => ?_, fun k => (wakeEntered_rx d (inSlot_status _)).trans (setRate_rate d k)⟩
  have hslu : (setRate d p 1).slu.applied = true := (congrArg Sluice.applied ((setRate_frame_lanes d 1).parts .slu (by simp))).trans happlied
  have hpower : (lanesRestarted d p).get (F.LN_CTRL.POWER (laneBase (.cpBc p))) = 2 := by
    rw [lanesRestarted, bcLane_val]
    exact lnPowerUp_power (.inl hslu)
  exact ((stateEntered_frame _ p _).get (f := F.LN_CTRL.POWER (laneBase (.cpBc p))) fun hmem => (inSlot_ctrl (.cpBc p)).not_inPort_bc
    ((show R.LN_CTRL (laneBase (.cpBc p)) = R.CPn_STATUS p from List.mem_singleton.1 hmem) ▸ inPort_status)).trans hpower

/-- Lane 0 in SYNC leads on to DISCOVER. -/
theorem portCheck_discovers (hstate : d.portState p = psLaneWake) (hsync : lanesSync d p 1 = true) :
    portCheck p d = regSend (stateEntered d p psDiscover) p { purpose := .discover, addr := 0, count := 12 } := by
  have hplain : portEnter d p psDiscover = stateEntered d p psDiscover :=
    portEnter_plain (by rw [hstate]; decide) (by decide) (by decide) (by decide) (by decide) (by decide)
  rw [← hplain]
  exact if_pos ⟨hstate, hsync⟩

theorem wakeEntered_sync (h : lanesSync d p 1 = true) (hrate : ∀ k : Fin 4, d.get (F.LN_STATUS.RATE (laneBase (.cpRx p k))) = 1) :
    lanesSync (wakeEntered d p) p 1 = true := by
  have hkept : (wakeEntered d p).lnState (.cpRx p 0) = (setRate d p 1).lnState (.cpRx p 0) := wakeEntered_rx d (inSlot_status _)
  rw [lanesSync_one] at h ⊢
  rw [hkept, setRate_eq_self d hrate, h]

/-- The port in DISCOVER asks for the camera's registers. -/
def discoverAsked (d : Device) (p : Nat) : Device :=
  regSend (stateEntered (wakeEntered d p) p psDiscover) p { purpose := .discover, addr := 0, count := 12 }

theorem retryEndDev_discovers (hstate : d.portState p = psRetry) (hsync : lanesSync d p 1 = true)
    (hrate : ∀ k : Fin 4, d.get (F.LN_STATUS.RATE (laneBase (.cpRx p k))) = 1) : retryEndDev p d = discoverAsked d p :=
  (retryEndDev_eq hstate).trans (portCheck_discovers (wakeEntered_state d p) (wakeEntered_sync hsync hrate))

theorem retryEnd_discovers_spec (d : Device) (p : Fin 12) : let e := discoverAsked d p
    e.portState p = psDiscover ∧
      (e.port p).regReq.map (fun r => (r.purpose, r.write, r.addr, r.count)) = some (.discover, false, 0, 12) ∧
      (e.port p).reqQ = (d.port p).reqQ ++ [false] := by
  intro e
  obtain ⟨tag, hport⟩ := regSend_port (stateEntered (wakeEntered d p) p psDiscover) p { purpose := .discover, addr := 0, count := 12 }
  have he : e.port p = _ := hport
  have hbefore : (lanesRestarted d p).port p = d.port p :=
    ((bcUp_frame _ p).port (by simp) p).trans ((setRate_frame_lanes d 1).port (by simp) p)
  refine ⟨((regSend_frame _ p _).get (by simp)).trans (stateEntered_state _ p (by decide)), ?_, ?_⟩
  · rw [he]
    rfl
  · rw [he, stateEntered_port, wakeEntered, stateEntered_port, hbefore]

end

/-! ## RESTART -/

section
variable {d : Device} {p : Fin 12}

theorem leaveRun_frame (d : Device) (p : Fin 12) :
    SameBut [R.CPn_CTL_CMD p, R.CPn_FLAGS p, R.CPn_EXP_CMD p] [.ports, .evt] d (leaveRun d p) := by
  have hended : SameBut [R.CPn_CTL_CMD p, R.CPn_FLAGS p, R.CPn_EXP_CMD p] [.ports, .evt] d ((ctlEnd d p 3).raise (F.CPn_FLAGS.CTL_REJ p)) :=
    ((ctlEnd_frame d p 3).mono (by simp) (by simp)).raise (by simp) (by simp)
  unfold leaveRun
  dsimp only
  refine iteInduction (fun _ => ((SameBut.setPort ?_ _ _ (by simp)).set _ (by simp)).raise (by simp) (by simp)) fun _ => ?_ <;>
  · split
    · exact hended
    · exact .refl _ _ d

/-- The port DISABLED, what it was doing dropped. -/
theorem portEnter_disabled_eq_dropped (d : Device) (p : Nat) : portEnter d p psDisabled =
    dropBackchannel (loseAll (stateEntered (if d.portState p = psRun then leaveRun d p else d) p psDisabled) p) p psDisabled := by
  have hrun : psDisabled ≠ psRun := by decide
  have hresync : psDisabled ≠ psResync := by decide
  have hfault : psDisabled ≠ psFault := by decide
  simp only [portEnter, hrun, hresync, hfault, ne_eq, not_false_eq_true, and_true, true_or, if_true, if_false, decide_false, Device.raiseIf_false]
  rfl

/-- The registers that the entry of DISABLED may write. -/
abbrev disableRegs (p : Nat) : List Nat := [R.CPn_CTL_CMD p, R.CPn_FLAGS p, R.CPn_EXP_CMD p, R.CPn_STATUS p, R.CPn_LINES_LOST p]

theorem portEnter_disabled_frame (d : Device) (p : Fin 12) : SameBut (disableRegs p) [.ports, .evt] d (portEnter d p psDisabled) := by
  have hleft : SameBut (disableRegs p) [.ports, .evt] d (if d.portState p = psRun then leaveRun d p else d) :=
    iteInduction (fun _ => (leaveRun_frame d p).mono_regs (by simp)) fun _ => .refl _ _ d
  rw [portEnter_disabled_eq_dropped]
  exact ((hleft.then (stateEntered_frame _ p _) (by simp) (by simp)).then (loseAll_frame _ p) (by simp) (by simp)).then
    (dropBackchannel_frame _ p _) (by simp) (by simp)

theorem portEnter_disabled_lost (d : Device) (p : Fin 12) (h : Fin 4) :
    noneOutstanding (unit ((portEnter d p psDisabled).port p).heads h).trigs := by
  rw [portEnter_disabled_eq_dropped, (dropBackchannel_port _ p _).1]
  exact loseAll_lost _ p h

theorem lanesOff_frame_cfg (d : Device) (p : Fin 12) : (portLanesOff d p).get (F.CPn_CFG.HEAD_EN p) = d.get (F.CPn_CFG.HEAD_EN p) := by
  refine List.foldlRecOn (motive := fun e : Device => e.get (F.CPn_CFG.HEAD_EN p) = d.get (F.CPn_CFG.HEAD_EN p)) _ _
    ((bcDown_frame d p).get inPort_cfg.not_mem_bc) fun e he k hk => ?_
  rw [show rxLane p k = .cpRx p ⟨k, List.mem_range.1 hk⟩ from rxLane_val p ⟨k, List.mem_range.1 hk⟩, ← he]
  refine (lnPowerDown_frame_switchRegs e _ false).get fun hmem => ?_
  simp only [switchRegs, laneRegs, trainRegs, laneBase, R.LN_CTRL, R.LN_STATUS, R.LN_EYE, R.LN_FAR_TAPS, R.LN_FLAGS, R.CPn_STATUS, R.CPn_CFG,
    List.mem_append, List.mem_cons, List.not_mem_nil, or_false] at hmem
  omega

theorem lanesOff_power (d : Device) (p : Fin 12) (k : Fin 4) : (portLanesOff d p).get (F.LN_CTRL.POWER (laneBase (.cpRx p k))) = 0 := by
  refine foldl_at (k := k.val) (Q := fun _ => True) (P := fun e : Device => e.get (F.LN_CTRL.POWER (laneBase (.cpRx p k))) = 0)
    (fun e _ => ?_) List.nodup_range (List.mem_range.2 k.isLt) (fun _ _ _ _ _ => trivial) (fun e j hj hne he => ?_) trivial
  · rw [rxLane_val]
    exact lnPowerDown_power false
  · rw [show rxLane p j = .cpRx p ⟨j, List.mem_range.1 hj⟩ from rxLane_val p ⟨j, List.mem_range.1 hj⟩, ← he]
    exact (lnPowerDown_frame_switchRegs e _ false).get ((inSlot_ctrl _).not_mem_rx fun heq => hne (congrArg Fin.val heq))

/-- The port DISABLED by a restart. -/
def restartedOff (d : Device) (p : Nat) : Device := (portEnter (portLanesOff d p) p psDisabled).set (F.CPn_STATUS.RETRIES p) 0

/-- Without a head the port stays DISABLED. -/
theorem portRestartDev_off (h : d.get (F.CPn_CFG.HEAD_EN p) = 0) : portRestartDev p d = restartedOff d p := by
  have hcfg : (restartedOff d p).get (F.CPn_CFG.HEAD_EN p) = 0 :=
    (Device.get_set_ne _ _ _ _ (.inl (by simp))).trans (((portEnter_disabled_frame _ p).get (by simp)).trans ((lanesOff_frame_cfg d p).trans h))
  exact if_pos (.inr (.inl hcfg))

theorem portRestart_off_spec (d : Device) (p : Fin 12) : let e := restartedOff d p
    e.portState p = psDisabled ∧ e.get (F.CPn_STATUS.RETRIES p) = 0 ∧
      (∀ h : Fin 4, (unit (e.port p).heads h).trigs.all (fun t => t.st ≠ .outstanding) = true) ∧
      (∀ k : Fin 4, e.get (F.LN_CTRL.POWER (laneBase (.cpRx p k))) = 0) := by
  intro e
  have hset : SameBut [R.CPn_STATUS p] [] (portEnter (portLanesOff d p) p psDisabled) e := (SameBut.refl _ _ _).set _ (by simp)
  refine ⟨(Device.get_set_ne _ _ _ _ (.inr (.inr (by simp)))).trans (portEnter_disabled _ _), (Device.get_set_self _ _ _ (by simp)).trans (by simp),
    fun h => ?_, fun k => ?_⟩
  · rw [hset.port (by simp)]
    exact portEnter_disabled_lost _ p h
  · have hout : R.LN_CTRL (laneBase (.cpRx p k)) ∉ disableRegs p := by
      simp only [disableRegs, laneBase, R.LN_CTRL, R.CPn_STATUS, R.CPn_CTL_CMD, R.CPn_FLAGS, R.CPn_EXP_CMD, R.CPn_LINES_LOST, List.mem_cons,
        List.not_mem_nil, or_false]
      omega
    rw [hset.get (fun hmem => hout (by simp_all)), (portEnter_disabled_frame _ p).get hout, lanesOff_power]

end

/-- Settles O14, clause by clause, from what each entry of a state leaves of the port. -/
theorem cameraPortStates : Obligations.CameraPortStates := by
  unfold Obligations.CameraPortStates
  refine ⟨?_, ?_, ?_, ?_, ?_, ?_, ?_, ?_, ?_⟩
  · intro p skew rest s ⟨hstate, hok, hevents⟩ hsync
    exact ⟨_, (exec_deskewColumn_camera p s).trans (congrArg s.done (deskewColumnDev_second hevents hok hsync)), columnTaken_second_spec hstate⟩
  · intro p skew rest s ⟨hok, hevents⟩
    exact ⟨_, (exec_deskewColumn_camera p s).trans (congrArg s.done (deskewColumnDev_first hevents hok)), columnTaken_first_spec hok⟩
  · intro p skew rest s ⟨hevents, hstate⟩
    exact ⟨_, (exec_deskewColumn_camera p s).trans (congrArg s.done (deskewColumnDev_refused hevents hstate)), columnRefused_port_spec⟩
  · intro p skew rest s hevents ⟨hstate, hbad, hreq, hexposure⟩
    exact ⟨_, (exec_deskewColumn_camera p s).trans (congrArg s.done (deskewColumnDev_resync hevents hstate hbad hreq hexposure)),
      resync_raised_spec s.dev p _⟩
  · intro p s hstate hr
    exact ⟨_, (exec_portStateTimeout p s).trans (congrArg s.done (portTimeoutDev_retry hstate hr)), portTimeout_retry_spec hr⟩
  · intro p s hstate hr
    exact ⟨_, (exec_portStateTimeout p s).trans (congrArg s.done (portTimeoutDev_fault hstate hr)), faultEntered_spec _ p⟩
  · intro p s ⟨hstate, hsync⟩
    exact ⟨_, (exec_retryEnd p s).trans (congrArg s.done (retryEndDev_waits hstate hsync)), retryEnd_waits_spec s.dev p⟩
  · intro p s ⟨hstate, hsync, _⟩ hrate
    exact ⟨_, (exec_retryEnd p s).trans (congrArg s.done (retryEndDev_discovers hstate hsync hrate)), retryEnd_discovers_spec s.dev p⟩
  · intro p s hheads hgate
    exact ⟨_, (exec_portRestart p s).trans (congrArg s.done ((regAccess_of_gateOpen hgate _ _).trans (portRestartDev_off hheads))),
      portRestart_off_spec s.dev p⟩

end Sys2Proof.Machine


/-! # The classifier array

A patch that ends, and the power of the array (R182 to R186). -/

namespace Sys2Proof.Machine

theorem exec_classifierDone (ecc : Ecc) (s : State) : exec (.classifierDone ecc) s = s.done (classifierDoneDev ecc s.dev) := rfl
theorem exec_claPowerReq (value : Word) (s : State) :
    exec (.claPowerReq value) s = s.done (regAccess R.CLA_POWER true (claPowerDev value) s.dev) := rfl
theorem exec_claShutdownDone (s : State) : exec .claShutdownDone s = s.done (claOffDev s.dev) := rfl
theorem exec_claWakeDone (s : State) : exec .claWakeDone s = s.done (claWakeDev s.dev) := rfl

section
variable {as : List Nat} {ps : List Part} {d e : Device}

theorem SameBut.putDram (h : SameBut as ps d e) (x : Dram) (hp : Part.dram ∈ ps) : SameBut as ps d { e with dram := x } :=
  h.parts_only rfl rfl rfl rfl (fun p hp' => by
    cases p with
    | dram => exact absurd hp hp'
    | _ => rfl)

theorem SameBut.setObjs (h : SameBut as ps d e) (os : List JObj) (hp : Part.jud ∈ ps) : SameBut as ps d (e.setObjs os) := h.putJud _ hp

end

/-! ## A patch ends -/

section
variable (d : Device)

/-- The lost and the stale rows of a patch are counted; a stale row is a fault. -/
def rowsCounted (d : Device) (lost stale : Nat) : Device :=
  let d1 := (d.count F.CLA_ROWS_LOST.COUNT lost).count F.CLA_ROWS_STALE.COUNT stale
  if stale = 0 then d1 else (d1.raise F.CLA_FLAGS.ROWS_STALE).fault faultRowsStale 0

/-- The registers that a fault of the array may change. -/
abbrev claRegs : List Nat := faultRegs ++ [R.CLA_FLAGS, R.CLA_ROWS_LOST, R.CLA_ROWS_STALE]

theorem fault_frame_claRegs (code index : Nat) : SameButMem claRegs [.resv, .evt] [faultBytes] d (d.fault code index) :=
  (Device.fault_frame d code index).mono (List.subset_append_left _ _) (fun _ h => h)

theorem rowsCounted_frame (lost stale : Nat) : SameButMem claRegs [.resv, .evt] [faultBytes] d (rowsCounted d lost stale) := by
  have hcounted : SameBut claRegs [.resv, .evt] d ((d.count F.CLA_ROWS_LOST.COUNT lost).count F.CLA_ROWS_STALE.COUNT stale) :=
    ((SameBut.refl _ _ d).count _ (by simp)).count _ (by simp)
  exact iteInduction (fun _ => hcounted.toMem) fun _ => (hcounted.raise (by simp) (by simp)).trans_sameButMem (fault_frame_claRegs _ _ _)

theorem rowsCounted_spec (lost stale : Nat) :
    (rowsCounted d lost stale).get F.CLA_ROWS_LOST.COUNT = min (d.get F.CLA_ROWS_LOST.COUNT + lost) 0xFFFFFFFF ∧
    (rowsCounted d lost stale).get F.CLA_ROWS_STALE.COUNT = min (d.get F.CLA_ROWS_STALE.COUNT + stale) 0xFFFFFFFF ∧
    (stale ≠ 0 → (rowsCounted d lost stale).get F.CLA_FLAGS.ROWS_STALE = 1) := by
  have hlost : ((d.count F.CLA_ROWS_LOST.COUNT lost).count F.CLA_ROWS_STALE.COUNT stale).get F.CLA_ROWS_LOST.COUNT =
      min (d.get F.CLA_ROWS_LOST.COUNT + lost) 0xFFFFFFFF :=
    (Device.get_set_ne _ _ _ _ (.inl (by simp))).trans (Device.get_count_saturating _ _ _ (by simp))
  have hstale : ((d.count F.CLA_ROWS_LOST.COUNT lost).count F.CLA_ROWS_STALE.COUNT stale).get F.CLA_ROWS_STALE.COUNT =
      min (d.get F.CLA_ROWS_STALE.COUNT + stale) 0xFFFFFFFF := by
    have hkept : (d.count F.CLA_ROWS_LOST.COUNT lost).get F.CLA_ROWS_STALE.COUNT = d.get F.CLA_ROWS_STALE.COUNT :=
      Device.get_set_ne _ _ _ _ (.inl (by simp))
    rw [Device.get_count_saturating _ _ _ (by simp), hkept]
    rfl
  unfold rowsCounted
  dsimp only
  split
  next hzero => exact ⟨hlost, hstale, fun h => absurd hzero h⟩
  next =>
    generalize (d.count F.CLA_ROWS_LOST.COUNT lost).count F.CLA_ROWS_STALE.COUNT stale = e at hlost hstale ⊢
    have hfault := Device.fault_frame (e.raise F.CLA_FLAGS.ROWS_STALE) faultRowsStale 0
    refine ⟨?_, ?_, fun _ => ?_⟩
    · rw [hfault.get (by decide), Device.get_raise_ne _ _ _ (.inl (by simp)), hlost]
    · rw [hfault.get (by decide), Device.get_raise_ne _ _ _ (.inl (by simp)), hstale]
    · rw [hfault.get (by decide), Device.get_raise_self _ _ (by simp) (by simp)]

/-- The array's reads that failed are forgotten. -/
def readsForgotten (d : Device) : Device := { d with dram := { d.dram with badReads := d.dram.badReads.filter (fun r => r.1 != 1) } }

theorem readsForgotten_objs : (readsForgotten d).jud.objs = d.jud.objs := rfl

theorem readsForgotten_frame : SameBut [] [.dram] d (readsForgotten d) := (SameBut.refl _ _ d).putDram _ (by simp)

/-- The patch rows of an object are counted. -/
def patchCounted (d : Device) (o : JObj) : Device :=
  rowsCounted d (rowsIn d (d.asOf o.j) o (inChannels d (d.asOf o.j)) .lost) (rowsIn d (d.asOf o.j) o (inChannels d (d.asOf o.j)) .stale)

end

section
variable {d : Device} {o : JObj} {rest : List JObj}

/-- The first object is the one that the array ends. -/
theorem classifierDoneDev_of_first (hobjs : d.jud.objs = o :: rest) (hsel : o.sel = .granted) (ecc : Ecc) : classifierDoneDev ecc d =
    let d2 := patchCounted d o
    let d3 := match ecc with
      | .clean => d2
      | .corrected => ((d2.count F.CLA_ECC_CORR.COUNT).raise F.CLA_FLAGS.ECC_CORR).fault (faultEccCorr 4) 0
      | .uncorrected => (d2.raise F.CLA_FLAGS.ECC_UNCORR).fault faultClaUncorr 0
    let d4 := readsForgotten d3
    if ecc = .uncorrected then d4.setObjs (d4.jud.objs.set 0 { o with sel := .stopped })
    else (d4.setObjs (d4.jud.objs.set 0 { o with sel := .classified (argMax (classifierScores d (d.asOf o.j) o)) })).count F.CLA_PATCHES.COUNT := by
  have hfind : (d.jud.objs.zip (List.range d.jud.objs.length)).find? (fun e => e.1.sel = .granted) = some (o, 0) := by
    rw [hobjs, List.length_cons, List.range_succ_eq_map, List.zip_cons_cons]
    exact List.find?_cons_of_pos (by simpa using hsel)
  unfold classifierDoneDev
  rw [hfind]
  rfl

theorem classifierDoneDev_none (h : ∀ o ∈ d.jud.objs, o.sel ≠ .granted) (ecc : Ecc) : classifierDoneDev ecc d = d := by
  have hfind : (d.jud.objs.zip (List.range d.jud.objs.length)).find? (fun e => e.1.sel = .granted) = none :=
    List.find?_eq_none.2 fun e he => by simpa using h e.1 (List.of_mem_zip he).1
  unfold classifierDoneDev
  rw [hfind]

/-- The device after a patch of clean weights. -/
def classified (d : Device) (o : JObj) : Device :=
  ((readsForgotten (patchCounted d o)).setObjs ((readsForgotten (patchCounted d o)).jud.objs.set 0
    { o with sel := .classified (argMax (classifierScores d (d.asOf o.j) o)) })).count F.CLA_PATCHES.COUNT

/-- The device after a patch with a weight in error. -/
def classifyStopped (d : Device) (o : JObj) : Device :=
  let e := readsForgotten (((patchCounted d o).raise F.CLA_FLAGS.ECC_UNCORR).fault faultClaUncorr 0)
  e.setObjs (e.jud.objs.set 0 { o with sel := .stopped })

theorem patchCounted_frame (d : Device) (o : JObj) : SameButMem claRegs [.resv, .evt] [faultBytes] d (patchCounted d o) := rowsCounted_frame d _ _

theorem patchCounted_jud (d : Device) (o : JObj) : (patchCounted d o).jud = d.jud := (patchCounted_frame d o).parts .jud (by simp)

theorem objs_count_setObjs (d : Device) (os : List JObj) (f : Fld) : ((d.setObjs os).count f).jud.objs = os := rfl

theorem classified_spec (hobjs : d.jud.objs = o :: rest) : let e := classified d o
    e.jud.objs = { o with sel := .classified (argMax (classifierScores d (d.asOf o.j) o)) } :: rest ∧
      e.get F.CLA_PATCHES.COUNT = min (d.get F.CLA_PATCHES.COUNT + 1) 0xFFFFFFFF ∧
      e.get F.CLA_ROWS_LOST.COUNT = min (d.get F.CLA_ROWS_LOST.COUNT + rowsIn d (d.asOf o.j) o (inChannels d (d.asOf o.j)) .lost) 0xFFFFFFFF ∧
      e.get F.CLA_ROWS_STALE.COUNT = min (d.get F.CLA_ROWS_STALE.COUNT + rowsIn d (d.asOf o.j) o (inChannels d (d.asOf o.j)) .stale) 0xFFFFFFFF ∧
      (rowsIn d (d.asOf o.j) o (inChannels d (d.asOf o.j)) .stale ≠ 0 → e.get F.CLA_FLAGS.ROWS_STALE = 1) ∧
      SameButMem (faultRegs ++ [R.CLA_PATCHES, R.CLA_ROWS_LOST, R.CLA_ROWS_STALE, R.CLA_FLAGS]) [.resv, .jud, .dram, .evt] [faultBytes] d e := by
  intro e
  have hframe : SameButMem claRegs [.resv, .evt] [faultBytes] d (patchCounted d o) := patchCounted_frame d o
  have hparts : SameBut [] [.jud, .dram] (patchCounted d o) ((readsForgotten (patchCounted d o)).setObjs
      ((readsForgotten (patchCounted d o)).jud.objs.set 0 { o with sel := .classified (argMax (classifierScores d (d.asOf o.j) o)) })) :=
    ((readsForgotten_frame _).mono_parts (by simp)).setObjs _ (by simp)
  have hcount : SameBut [R.CLA_PATCHES] [] _ e := (SameBut.refl _ _ _).count _ (by simp)
  obtain ⟨hlost, hstale, hflag⟩ := rowsCounted_spec d (rowsIn d (d.asOf o.j) o (inChannels d (d.asOf o.j)) .lost)
    (rowsIn d (d.asOf o.j) o (inChannels d (d.asOf o.j)) .stale)
  refine ⟨?_, ?_, ?_, ?_, fun h => ?_, ?_⟩
  · have hset : e.jud.objs = (readsForgotten (patchCounted d o)).jud.objs.set 0
        { o with sel := .classified (argMax (classifierScores d (d.asOf o.j) o)) } := objs_count_setObjs _ _ _
    rw [hset, readsForgotten_objs, patchCounted_jud, hobjs, List.set_cons_zero]
  · refine (Device.get_count_saturating _ _ _ (by simp)).trans ?_
    rw [hparts.get (by simp), hframe.get (by decide)]
    rfl
  · exact (hcount.get (by simp)).trans ((hparts.get (by simp)).trans hlost)
  · exact (hcount.get (by simp)).trans ((hparts.get (by simp)).trans hstale)
  · exact (hcount.get (by simp)).trans ((hparts.get (by simp)).trans (hflag h))
  · exact ((hframe.mono (by simp) (by simp)).trans_sameBut (hparts.mono (by simp) (by simp))).trans_sameBut (hcount.mono (by simp) (by simp))

theorem classifyStopped_spec (hobjs : d.jud.objs = o :: rest) : let e := classifyStopped d o
    e.jud.objs = { o with sel := .stopped } :: rest ∧ e.get F.CLA_FLAGS.ECC_UNCORR = 1 ∧ e.get F.CLA_PATCHES.COUNT = d.get F.CLA_PATCHES.COUNT ∧
      SameButMem (faultRegs ++ [R.CLA_FLAGS, R.CLA_ROWS_LOST, R.CLA_ROWS_STALE]) [.resv, .jud, .dram, .evt] [faultBytes] d e := by
  intro e
  have hframe : SameButMem claRegs [.resv, .evt] [faultBytes] d (patchCounted d o) := patchCounted_frame d o
  have hfault := Device.fault_frame ((patchCounted d o).raise F.CLA_FLAGS.ECC_UNCORR) faultClaUncorr 0
  have hparts : SameBut [] [.jud, .dram] (((patchCounted d o).raise F.CLA_FLAGS.ECC_UNCORR).fault faultClaUncorr 0) e :=
    ((readsForgotten_frame _).mono_parts (by simp)).setObjs _ (by simp)
  have hall : SameButMem claRegs [.resv, .jud, .dram, .evt] [faultBytes] d e :=
    (((hframe.trans_sameBut ((SameBut.refl _ _ _).raise (by simp) (by simp))).trans (fault_frame_claRegs _ _ _)).mono
      (fun _ h => h) (by simp)).trans_sameBut (hparts.mono (by simp) (by simp))
  refine ⟨?_, ?_, hall.get (by decide), hall⟩
  · have hjud : (((patchCounted d o).raise F.CLA_FLAGS.ECC_UNCORR).fault faultClaUncorr 0).jud = (patchCounted d o).jud :=
      (hfault.parts .jud (by simp)).trans (Device.raise_jud _ _)
    have hset : e.jud.objs = (((patchCounted d o).raise F.CLA_FLAGS.ECC_UNCORR).fault faultClaUncorr 0).jud.objs.set 0 { o with sel := .stopped } := rfl
    rw [hset, hjud, patchCounted_jud, hobjs, List.set_cons_zero]
  · rw [hparts.get (by simp), hfault.get (by decide), Device.get_raise_self _ _ (by simp) (by simp)]

end

/-! ## The array's power -/

section
variable (d : Device)

theorem showCap_frame : SameBut [R.CASC_CAP, R.CASC_FLAGS] [.evt] d (showCap d) :=
  iteInduction (fun _ => ((SameBut.refl _ _ d).set _ (by simp)).raise (by simp) (by simp)) fun _ => (SameBut.refl _ _ d).set _ (by simp)

/-- CAP as the array's state lets it be. -/
def capShown (d : Device) : Nat := if d.get F.CLA_POWER.STATE = 0 ∧ d.get F.RSV_POWER.JDG_STATE = 0 then d.jud.capLive else 0

theorem showCap_eq : showCap d = if capShown d < d.get F.CASC_QUOTA.Q then (d.set F.CASC_CAP.CAP (capShown d)).raise F.CASC_FLAGS.QUOTA_CAP
    else d.set F.CASC_CAP.CAP (capShown d) := rfl

theorem showCap_get : (showCap d).get F.CASC_CAP.CAP = capShown d % 2 ^ (F.CASC_CAP.CAP.hi + 1 - F.CASC_CAP.CAP.lo) := by
  rw [showCap_eq]
  split
  · rw [Device.get_raise_ne _ _ _ (.inl (by simp)), Device.get_set_self _ _ _ (by simp)]
  · rw [Device.get_set_self _ _ _ (by simp)]

end

section
variable {d : Device} {value : Word}

theorem claPowerDev_down (hodd : value.toNat % 2 = 1) (hstate : d.get F.CLA_POWER.STATE < 2) :
    claPowerDev value d = showCap ((d.set F.CLA_POWER.REQ value.toNat).set F.CLA_POWER.STATE 3) := by
  unfold claPowerDev
  dsimp only
  rw [if_pos hodd, if_pos (by omega)]

theorem claPower_down_spec (hodd : value.toNat % 2 = 1) : let e := showCap ((d.set F.CLA_POWER.REQ value.toNat).set F.CLA_POWER.STATE 3)
    e.get F.CLA_POWER.STATE = 3 ∧ e.get F.CLA_POWER.REQ = 1 ∧ e.get F.CASC_CAP.CAP = 0 ∧ SameBut [R.CLA_POWER, R.CASC_CAP, R.CASC_FLAGS] [.evt] d e := by
  intro e
  have hshow := showCap_frame ((d.set F.CLA_POWER.REQ value.toNat).set F.CLA_POWER.STATE 3)
  have hstate : ((d.set F.CLA_POWER.REQ value.toNat).set F.CLA_POWER.STATE 3).get F.CLA_POWER.STATE = 3 := Device.get_set_self _ _ _ (by simp)
  refine ⟨(hshow.get (by simp)).trans hstate, (hshow.get (by simp)).trans ?_, ?_, ?_⟩
  · rw [Device.get_set_ne _ _ _ _ (.inr (.inr (by simp))), Device.get_set_self _ _ _ (by simp)]
    exact hodd
  · rw [show e.get F.CASC_CAP.CAP = _ from showCap_get _, capShown, if_neg (by rw [hstate]; exact fun h => absurd h.1 (by decide))]
    rfl
  · exact (((SameBut.refl _ _ d).set _ (by simp)).set _ (by simp)).trans (hshow.mono_regs (by simp))

theorem claPowerDev_stays (hodd : value.toNat % 2 = 1) (hstate : 2 ≤ d.get F.CLA_POWER.STATE) :
    claPowerDev value d = (d.set F.CLA_POWER.REQ value.toNat).setBit F.CLA_POWER.ENABLE_PENDING false := by
  unfold claPowerDev
  dsimp only
  rw [if_pos hodd, if_neg (by omega)]

theorem claPower_stays_spec (hodd : value.toNat % 2 = 1) : let e := (d.set F.CLA_POWER.REQ value.toNat).setBit F.CLA_POWER.ENABLE_PENDING false
    e.get F.CLA_POWER.STATE = d.get F.CLA_POWER.STATE ∧ e.get F.CLA_POWER.REQ = 1 ∧ e.get F.CLA_POWER.ENABLE_PENDING = 0 ∧
      SameBut [R.CLA_POWER] [] d e := by
  intro e
  refine ⟨?_, ?_, Device.get_set_self _ _ _ (by simp), ((SameBut.refl _ _ d).set _ (by simp)).setBit _ (by simp)⟩
  · exact (Device.get_set_ne _ _ _ _ (.inr (.inr (by simp)))).trans (Device.get_set_ne _ _ _ _ (.inr (.inl (by simp))))
  · exact (Device.get_set_ne _ _ _ _ (.inr (.inr (by simp)))).trans ((Device.get_set_self _ _ _ (by simp)).trans hodd)

theorem claPower_up_spec (heven : value.toNat % 2 = 0) : let e := claPowerDev value d
    e.get F.CLA_POWER.REQ = 0 ∧ (e.get F.CLA_POWER.STATE = if d.get F.CLA_POWER.STATE = 2 then 1 else d.get F.CLA_POWER.STATE) ∧
      (d.get F.CLA_POWER.STATE = 3 → e.get F.CLA_POWER.ENABLE_PENDING = 1) ∧ SameBut [R.CLA_POWER] [] d e := by
  have hreq : (d.set F.CLA_POWER.REQ value.toNat).get F.CLA_POWER.REQ = 0 := (Device.get_set_self _ _ _ (by simp)).trans heven
  have hstate : (d.set F.CLA_POWER.REQ value.toNat).get F.CLA_POWER.STATE = d.get F.CLA_POWER.STATE :=
    Device.get_set_ne _ _ _ _ (.inr (.inl (by simp)))
  have hset : SameBut [R.CLA_POWER] [] d (d.set F.CLA_POWER.REQ value.toNat) := (SameBut.refl _ _ d).set _ (by simp)
  intro e
  have he : e = if d.get F.CLA_POWER.STATE = 2 then (d.set F.CLA_POWER.REQ value.toNat).set F.CLA_POWER.STATE 1
      else if d.get F.CLA_POWER.STATE = 3 then (d.set F.CLA_POWER.REQ value.toNat).setBit F.CLA_POWER.ENABLE_PENDING true
      else d.set F.CLA_POWER.REQ value.toNat := if_neg (by omega)
  rw [he]
  by_cases hoff : d.get F.CLA_POWER.STATE = 2
  · rw [if_pos hoff, if_pos hoff]
    refine ⟨(Device.get_set_ne _ _ _ _ (.inr (.inr (by simp)))).trans hreq, (Device.get_set_self _ _ _ (by simp)).trans (by simp), fun h => ?_,
      hset.set _ (by simp)⟩
    omega
  · rw [if_neg hoff, if_neg hoff]
    by_cases hshut : d.get F.CLA_POWER.STATE = 3
    · rw [if_pos hshut]
      exact ⟨(Device.get_set_ne _ _ _ _ (.inr (.inr (by simp)))).trans hreq, (Device.get_set_ne _ _ _ _ (.inr (.inr (by simp)))).trans hstate,
        fun _ => (Device.get_set_self _ _ _ (by simp)).trans (by simp), hset.setBit _ (by simp)⟩
    · rw [if_neg hshut]
      exact ⟨hreq, hstate, fun h => absurd h hshut, hset⟩

/-- SHUTDOWN ends once nothing is granted. -/
theorem claOffDev_spec (hstate : d.get F.CLA_POWER.STATE = 3) (hobjs : ∀ o ∈ d.jud.objs, o.sel ≠ .granted) : let e := claOffDev d
    e.get F.CLA_POWER.STATE = (if d.bit F.CLA_POWER.ENABLE_PENDING then 1 else 2) ∧ e.get F.CLA_POWER.ENABLE_PENDING = 0 ∧
      SameBut [R.CLA_POWER] [] d e := by
  have hnone : d.jud.objs.any (fun o => o.sel = .granted) = false := by simpa using hobjs
  intro e
  have he : e = if d.bit F.CLA_POWER.ENABLE_PENDING then (d.setBit F.CLA_POWER.ENABLE_PENDING false).set F.CLA_POWER.STATE 1
      else d.set F.CLA_POWER.STATE 2 := if_neg (by simp [hstate, hnone])
  rw [he]
  cases hpending : d.bit F.CLA_POWER.ENABLE_PENDING
  · have hzero : d.get F.CLA_POWER.ENABLE_PENDING = 0 := by simpa [Device.bit] using hpending
    simp only [Bool.false_eq_true, if_false]
    exact ⟨Device.get_set_self _ _ _ (by simp), (Device.get_set_ne _ _ _ _ (.inr (.inl (by simp)))).trans hzero, (SameBut.refl _ _ d).set _ (by simp)⟩
  · simp only [if_true]
    exact ⟨Device.get_set_self _ _ _ (by simp),
      (Device.get_set_ne _ _ _ _ (.inr (.inl (by simp)))).trans (Device.get_set_self _ _ _ (by simp)),
      ((SameBut.refl _ _ d).setBit _ (by simp)).set _ (by simp)⟩

theorem claWakeDev_eq (hstate : d.get F.CLA_POWER.STATE = 1) : claWakeDev d = showCap (d.set F.CLA_POWER.STATE 0) := if_neg (not_not.2 hstate)

theorem claWake_spec : let e := showCap (d.set F.CLA_POWER.STATE 0)
    e.get F.CLA_POWER.STATE = 0 ∧
      (d.get F.RSV_POWER.JDG_STATE = 0 → d.jud.capLive < 65536 → e.get F.CASC_CAP.CAP = d.jud.capLive) ∧
      SameBut [R.CLA_POWER, R.CASC_CAP, R.CASC_FLAGS] [.evt] d e := by
  intro e
  have hshow := showCap_frame (d.set F.CLA_POWER.STATE 0)
  have hon : (d.set F.CLA_POWER.STATE 0).get F.CLA_POWER.STATE = 0 := Device.get_set_self _ _ _ (by simp)
  refine ⟨(hshow.get (by simp)).trans hon, fun hjdg hcap => ?_, ((SameBut.refl _ _ d).set _ (by simp)).trans (hshow.mono_regs (by simp))⟩
  have hkept : (d.set F.CLA_POWER.STATE 0).get F.RSV_POWER.JDG_STATE = d.get F.RSV_POWER.JDG_STATE := Device.get_set_ne _ _ _ _ (.inl (by simp))
  rw [show e.get F.CASC_CAP.CAP = _ from showCap_get _, capShown, if_pos ⟨hon, hkept.trans hjdg⟩]
  have hlive : (d.set F.CLA_POWER.STATE 0).jud.capLive = d.jud.capLive := rfl
  rw [hlive, Nat.mod_eq_of_lt (hcap.trans_le (by simp))]

end

/-- Settles O22, clause by clause, from the patch that ends and the states of the array. -/
theorem classifierAndPower : Obligations.ClassifierAndPower := by
  unfold Obligations.ClassifierAndPower
  refine ⟨?_, ?_, ?_, ?_, ?_, ?_, ?_, ?_⟩
  · intro o rest s ⟨hobjs, hsel⟩
    exact ⟨classified s.dev o, (exec_classifierDone .clean s).trans (congrArg s.done (classifierDoneDev_of_first hobjs hsel .clean)),
      classified_spec hobjs⟩
  · intro o rest s ⟨hobjs, hsel⟩
    exact ⟨classifyStopped s.dev o, (exec_classifierDone .uncorrected s).trans (congrArg s.done (classifierDoneDev_of_first hobjs hsel .uncorrected)),
      classifyStopped_spec hobjs⟩
  · intro ecc s hnone
    exact ⟨_, (exec_classifierDone ecc s).trans (congrArg s.done (classifierDoneDev_none hnone ecc)), rfl⟩
  · intro value s ⟨hodd, hstate⟩ hgate
    exact ⟨_, (exec_claPowerReq value s).trans (congrArg s.done ((regAccess_of_gateOpen hgate _ _).trans (claPowerDev_down hodd hstate))),
      claPower_down_spec hodd⟩
  · intro value s ⟨hodd, hstate⟩ hgate
    exact ⟨_, (exec_claPowerReq value s).trans (congrArg s.done ((regAccess_of_gateOpen hgate _ _).trans (claPowerDev_stays hodd hstate))),
      claPower_stays_spec hodd⟩
  · intro value s heven hgate
    exact ⟨_, (exec_claPowerReq value s).trans (congrArg s.done (regAccess_of_gateOpen hgate _ _)), claPower_up_spec heven⟩
  · intro s ⟨hstate, hobjs⟩
    exact ⟨_, exec_claShutdownDone s, claOffDev_spec hstate hobjs⟩
  · intro s hstate
    exact ⟨_, (exec_claWakeDone s).trans (congrArg s.done (claWakeDev_eq hstate)), claWake_spec⟩

end Sys2Proof.Machine


/-! # Selection by the cascade

A forest evaluation ends, and the cascade selects in judgement order (R176 to R179). -/

namespace Sys2Proof.Machine

theorem exec_forestDone (k : Nat) (ecc : Ecc) (s : State) : exec (.forestDone k ecc) s = s.done (forestDoneDev k ecc s.dev) := rfl

theorem SameBut.putFresh {as : List Nat} {ps : List Part} {d e : Device} (h : SameBut as ps d e) (n : Nat) (hp : Part.fresh ∈ ps) :
    SameBut as ps d { e with fresh := n } :=
  h.parts_only rfl rfl rfl rfl (fun p hp' => by
    cases p with
    | fresh => exact absurd hp hp'
    | _ => rfl)

/-! ## One object -/

section
variable {d : Device} {o : JObj} {f : Forest}

/-- The registers that selection may change. -/
abbrev selectRegs : List Nat := [R.CASC_CANDIDATES, R.CASC_CLASSIFIED, R.CASC_DENIED, R.CASC_FLAGS, R.CASC_USED]

/-- The forest decides alone. -/
def byForest (d : Device) (o : JObj) (f : Forest) : Prop :=
  f.stopped = true ∨ ¬ (d.asOf o.j).bit F.CASC_CFG.CLA_EN = true ∨ threshold (d.asOf o.j) f.cls ≤ f.margin

/-- A candidate is granted the array. -/
def isGranted (d : Device) (o : JObj) (f : Forest) : Prop :=
  f.margin < rneDiv (threshold (d.asOf o.j) f.cls * o.g) 256 ∧ usedIn d o.cycle < min o.q (capFor d o)

/-- The device and the object after a grant. -/
def granted (d : Device) (o : JObj) : Device × JObj :=
  ((useOne (d.count F.CASC_CANDIDATES.COUNT) o.cycle).count F.CASC_CLASSIFIED.COUNT, { o with sel := .granted, flags := o.flags ||| jfClassified })

/-- The device and the object after a denial. -/
def denied (d : Device) (o : JObj) : Device × JObj :=
  (((d.count F.CASC_CANDIDATES.COUNT).count F.CASC_DENIED.COUNT).raise F.CASC_FLAGS.DENIED,
    { o with sel := .denied, flags := o.flags ||| jfDenied })

theorem selectOne_of_forest (h : byForest d o f) : selectOne d o f = (d, { o with sel := .forest }) := if_pos h

theorem selectOne_of_granted (h : ¬ byForest d o f) (hgrant : isGranted d o f) : selectOne d o f = granted d o := (if_neg h).trans (if_pos hgrant)

theorem selectOne_of_denied (h : ¬ byForest d o f) (hgrant : ¬ isGranted d o f) : selectOne d o f = denied d o := (if_neg h).trans (if_neg hgrant)

theorem useOne_frame (d : Device) (c : Nat) : SameBut [R.CASC_USED] [.jud] d (useOne d c) := ((SameBut.refl _ _ d).putJud _ (by simp)).set _ (by simp)

theorem selectOne_frame (d : Device) (o : JObj) (f : Forest) : SameBut selectRegs [.jud, .evt] d (selectOne d o f).1 := by
  by_cases hforest : byForest d o f
  · rw [selectOne_of_forest hforest]
    exact .refl _ _ d
  · by_cases hgrant : isGranted d o f
    · rw [selectOne_of_granted hforest hgrant]
      exact ((((SameBut.refl _ _ d).count _ (by simp)).then (useOne_frame _ _) (by simp) (by simp)).count _ (by simp))
    · rw [selectOne_of_denied hforest hgrant]
      exact ((((SameBut.refl _ _ d).count _ (by simp)).count _ (by simp)).raise (by simp) (by simp))

/-- Selection keeps the forest result. -/
theorem selectOne_forest (d : Device) (o : JObj) (f : Forest) : (selectOne d o f).2.forest = o.forest := by
  by_cases hforest : byForest d o f
  · rw [selectOne_of_forest hforest]
  · by_cases hgrant : isGranted d o f
    · rw [selectOne_of_granted hforest hgrant]
      rfl
    · rw [selectOne_of_denied hforest hgrant]
      rfl

/-! ## In judgement order -/

variable {before rest : List JObj}

theorem selectFrom_of_unevaluated (h : o.forest = none) : selectFrom d before (o :: rest) = d.setObjs (before ++ o :: rest) := by
  rw [selectFrom, h]

theorem selectFrom_of_waiting (hforest : o.forest = some f) (hsel : o.sel = .waiting) :
    selectFrom d before (o :: rest) = selectFrom (selectOne d o f).1 (before ++ [(selectOne d o f).2]) rest := by
  rw [selectFrom, hforest]
  exact if_pos hsel

theorem selectFrom_of_selected (hforest : o.forest = some f) (hsel : o.sel ≠ .waiting) :
    selectFrom d before (o :: rest) = selectFrom d (before ++ [o]) rest := by
  rw [selectFrom, hforest]
  exact if_neg hsel

/-- Selection keeps the objects, their order and their forest results, and changes no more than its counters and flags. -/
theorem selectFrom_spec : ∀ (os : List JObj) (d : Device) (before : List JObj),
    (selectFrom d before os).jud.objs.map JObj.forest = (before ++ os).map JObj.forest ∧
      SameBut selectRegs [.jud, .evt] d (selectFrom d before os)
  | [], d, before => ⟨by rw [List.append_nil]; rfl, (SameBut.refl _ _ d).setObjs _ (by simp)⟩
  | o :: t, d, before => by
    cases hforest : o.forest with
    | none =>
      rw [selectFrom_of_unevaluated hforest]
      exact ⟨rfl, (SameBut.refl _ _ d).setObjs _ (by simp)⟩
    | some f =>
      by_cases hsel : o.sel = .waiting
      · obtain ⟨hobjs, hframe⟩ := selectFrom_spec t (selectOne d o f).1 (before ++ [(selectOne d o f).2])
        rw [selectFrom_of_waiting hforest hsel]
        refine ⟨?_, (selectOne_frame d o f).trans hframe⟩
        rw [hobjs, List.append_assoc, List.singleton_append, List.map_append, List.map_append, List.map_cons, List.map_cons, selectOne_forest]
      · obtain ⟨hobjs, hframe⟩ := selectFrom_spec t d (before ++ [o])
        rw [selectFrom_of_selected hforest hsel]
        exact ⟨by rw [hobjs, List.append_assoc, List.singleton_append], hframe⟩

/-- The objects already selected are passed over. -/
theorem selectFrom_append : ∀ (pre before rest : List JObj), (∀ x ∈ pre, x.forest.isSome = true ∧ x.sel ≠ .waiting) →
    selectFrom d before (pre ++ rest) = selectFrom d (before ++ pre) rest
  | [], before, rest, _ => by rw [List.nil_append, List.append_nil]
  | x :: t, before, rest, h => by
    obtain ⟨hevaluated, hsel⟩ := h x List.mem_cons_self
    obtain ⟨g, hg⟩ := Option.isSome_iff_exists.1 hevaluated
    rw [List.cons_append, selectFrom_of_selected hg hsel, selectFrom_append t _ rest fun y hy => h y (List.mem_cons_of_mem x hy), List.append_assoc,
      List.singleton_append]

/-- Selection ends at an object not evaluated. -/
theorem selectFrom_ends (h : ∀ x ∈ rest.head?, x.forest = none) : selectFrom d before rest = d.setObjs (before ++ rest) := by
  cases rest with
  | nil => rw [List.append_nil]; rfl
  | cons x t => exact selectFrom_of_unevaluated (h x rfl)

/-- One object alone is selected. -/
theorem selectFrom_one {pre : List JObj} (hpre : ∀ x ∈ pre, x.forest.isSome = true ∧ x.sel ≠ .waiting) (hrest : ∀ x ∈ rest.head?, x.forest = none)
    (hforest : o.forest = some f) (hsel : o.sel = .waiting) :
    selectFrom d [] (pre ++ o :: rest) = (selectOne d o f).1.setObjs (pre ++ (selectOne d o f).2 :: rest) := by
  rw [selectFrom_append pre [] _ hpre, selectFrom_of_waiting hforest hsel, selectFrom_ends hrest, List.nil_append, List.append_assoc,
    List.singleton_append]

end

/-! ## The evaluation ends -/

section
variable {d : Device} {o : JObj} {f : Forest} {k : Nat}

/-- The evaluation is counted. -/
def evalCounted (d : Device) : Device := d.count F.FOR_EVALS.COUNT

theorem evalCounted_frame (d : Device) : SameBut [R.FOR_EVALS] [] d (evalCounted d) := (SameBut.refl _ _ d).count _ (by simp)

theorem evalCounted_get (d : Device) : (evalCounted d).get F.FOR_EVALS.COUNT = min (d.get F.FOR_EVALS.COUNT + 1) 0xFFFFFFFF :=
  Device.get_count_saturating _ _ _ (by simp)

theorem forestDoneDev_clean (hk : d.jud.objs[k]? = some o) (hnone : o.forest = none) (hresult : forestResult d o = some f) :
    forestDoneDev k .clean d = selectFrom (evalCounted d) [] (d.jud.objs.set k { o with forest := some f }) := by
  simp only [forestDoneDev, hk, hnone, hresult, Option.isSome_none, Bool.false_eq_true, reduceCtorEq, if_false]
  rfl

/-- A node in error is flagged and a fault. -/
def evalFailed (d : Device) : Device := ((evalCounted d).raise F.FOR_FLAGS.ECC_UNCORR).fault faultForUncorr 0

theorem forestDoneDev_uncorrected (hk : d.jud.objs[k]? = some o) (hnone : o.forest = none) : forestDoneDev k .uncorrected d =
    selectFrom (stoppedForest (evalFailed d)).2 []
      ((stoppedForest (evalFailed d)).2.jud.objs.set k { o with forest := some (stoppedForest (evalFailed d)).1 }) := by
  simp only [forestDoneDev, hk, hnone, Option.isSome_none, Bool.false_eq_true, if_false, if_true]
  rfl

theorem forestDone_clean_spec (d : Device) (o : JObj) (f : Forest) (k : Nat) :
    let e := selectFrom (evalCounted d) [] (d.jud.objs.set k { o with forest := some f })
    e.get F.FOR_EVALS.COUNT = min (d.get F.FOR_EVALS.COUNT + 1) 0xFFFFFFFF ∧
      e.jud.objs.map JObj.forest = (d.jud.objs.map JObj.forest).set k (some f) ∧ e.jud.objs.length = d.jud.objs.length ∧
      SameBut [R.FOR_EVALS, R.CASC_CANDIDATES, R.CASC_CLASSIFIED, R.CASC_DENIED, R.CASC_FLAGS, R.CASC_USED] [.jud, .evt] d e := by
  intro e
  obtain ⟨hobjs, hframe⟩ := selectFrom_spec (d.jud.objs.set k { o with forest := some f }) (evalCounted d) []
  have hforest : e.jud.objs.map JObj.forest = (d.jud.objs.map JObj.forest).set k (some f) := hobjs.trans List.map_set
  refine ⟨(hframe.get (by simp)).trans (evalCounted_get d), hforest, ?_,
    ((evalCounted_frame d).mono (by simp) (List.nil_subset _)).trans (hframe.mono_regs (by simp))⟩
  have hlen := congrArg List.length hforest
  rwa [List.length_set, List.length_map, List.length_map] at hlen

theorem stoppedForest_spec (d : Device) : (stoppedForest d).1.stopped = true ∧ SameBut [] [.fresh] d (stoppedForest d).2 :=
  ⟨rfl, (SameBut.refl _ _ d).putFresh _ (by simp)⟩

theorem evalFailed_frame (d : Device) : SameButMem (faultRegs ++ [R.FOR_EVALS, R.FOR_FLAGS]) [.resv, .evt] [faultBytes] d (evalFailed d) :=
  (((evalCounted_frame d).mono (by simp) (List.nil_subset _)).raise (by simp) (by simp)).trans_sameButMem
    ((Device.fault_frame _ _ _).mono (List.subset_append_left _ _) fun _ h => h)

theorem evalFailed_get (d : Device) : (evalFailed d).get F.FOR_FLAGS.ECC_UNCORR = 1 ∧
    (evalFailed d).get F.FOR_EVALS.COUNT = min (d.get F.FOR_EVALS.COUNT + 1) 0xFFFFFFFF := by
  have hfault := Device.fault_frame ((evalCounted d).raise F.FOR_FLAGS.ECC_UNCORR) faultForUncorr 0
  constructor
  · exact (hfault.get (by decide)).trans (Device.get_raise_self _ _ (by simp) (by simp))
  · exact (hfault.get (by decide)).trans ((Device.get_raise_ne _ _ _ (.inl (by simp))).trans (evalCounted_get d))

theorem forestDone_uncorrected_spec (hk : d.jud.objs[k]? = some o) :
    let e := selectFrom (stoppedForest (evalFailed d)).2 []
      ((stoppedForest (evalFailed d)).2.jud.objs.set k { o with forest := some (stoppedForest (evalFailed d)).1 })
    e.get F.FOR_FLAGS.ECC_UNCORR = 1 ∧ e.get F.FOR_EVALS.COUNT = min (d.get F.FOR_EVALS.COUNT + 1) 0xFFFFFFFF ∧
      (e.jud.objs[k]?.bind JObj.forest).map Forest.stopped = some true ∧
      SameButMem (faultRegs ++ [R.FOR_EVALS, R.FOR_FLAGS, R.CASC_CANDIDATES, R.CASC_CLASSIFIED, R.CASC_DENIED, R.CASC_FLAGS, R.CASC_USED])
        [.resv, .jud, .evt, .fresh] [faultBytes] d e := by
  intro e
  obtain ⟨hstopped, hfresh⟩ := stoppedForest_spec (evalFailed d)
  obtain ⟨hflag, hcount⟩ := evalFailed_get d
  obtain ⟨hobjs, hframe⟩ := selectFrom_spec
    ((stoppedForest (evalFailed d)).2.jud.objs.set k { o with forest := some (stoppedForest (evalFailed d)).1 }) (stoppedForest (evalFailed d)).2 []
  have hjud : (stoppedForest (evalFailed d)).2.jud = d.jud := (hfresh.parts .jud (by simp)).trans ((evalFailed_frame d).parts .jud (by simp))
  have hforest : e.jud.objs.map JObj.forest = (d.jud.objs.map JObj.forest).set k (some (stoppedForest (evalFailed d)).1) := by
    refine hobjs.trans ?_
    rw [List.nil_append, hjud, List.map_set]
  refine ⟨(hframe.get (by simp)).trans ((hfresh.get (by simp)).trans hflag), (hframe.get (by simp)).trans ((hfresh.get (by simp)).trans hcount), ?_, ?_⟩
  · have hat : e.jud.objs[k]?.map JObj.forest = some (some (stoppedForest (evalFailed d)).1) := by
      have hlt : k < (d.jud.objs.map JObj.forest).length := by
        rw [List.length_map]
        exact (List.getElem?_eq_some_iff.1 hk).1
      rw [← List.getElem?_map, hforest, List.getElem?_set_self hlt]
    obtain ⟨x, hx, hxforest⟩ := Option.map_eq_some_iff.1 hat
    rw [hx, Option.bind_some, hxforest, Option.map_some, hstopped]
  · exact (((evalFailed_frame d).mono (by simp) (by simp)).trans_sameBut (hfresh.mono (List.nil_subset _) (by simp))).trans_sameBut
      (hframe.mono (by simp) (by simp))

/-! ## One object is selected -/

theorem evalCounted_asOf_bit (d : Device) (j : Int) : ((evalCounted d).asOf j).bit F.CASC_CFG.CLA_EN = (d.asOf j).bit F.CASC_CFG.CLA_EN :=
  (evalCounted_frame d).asOf_bit (by simp) (by simp) j (by simp)

theorem thr_ne_forEvals (m : Nat) : R.CASC_THRm m ≠ R.FOR_EVALS := by
  unfold R.CASC_THRm R.FOR_EVALS
  omega

theorem evalCounted_threshold (d : Device) (j : Int) (c : Nat) : threshold ((evalCounted d).asOf j) c = threshold (d.asOf j) c := by
  have hget (g : Fld) (m : Nat) (hg : g.addr = R.CASC_THRm m) : ((evalCounted d).asOf j).get g = (d.asOf j).get g :=
    (evalCounted_frame d).asOf_get (by simp) (by simp) j (by rw [hg, List.mem_singleton]; exact thr_ne_forEvals m)
  unfold threshold Device.getI
  rw [hget _ (c / 2) rfl, hget _ (c / 2) rfl]

theorem evalCounted_cap (d : Device) (o : JObj) : capFor (evalCounted d) o = capFor d o := by
  unfold capFor
  rw [(evalCounted_frame d).get (by simp), (evalCounted_frame d).get (by simp)]

/-- A finished evaluation was not stopped. -/
theorem forestResult_live (h : forestResult d o = some f) : f.stopped = false := by
  unfold forestResult at h
  dsimp only at h
  split at h
  · exact absurd h (by simp)
  · obtain rfl := Option.some.inj h
    rfl

variable {pre rest : List JObj}

/-- What a test of selection says of the evaluated object. -/
theorem byForest_evaluated_iff (hresult : forestResult d o = some f) : byForest (evalCounted d) { o with forest := some f } f ↔
    (d.asOf o.j).bit F.CASC_CFG.CLA_EN = false ∨ threshold (d.asOf o.j) f.cls ≤ f.margin := by
  unfold byForest
  rw [forestResult_live hresult, evalCounted_asOf_bit, evalCounted_threshold, Bool.not_eq_true]
  exact or_iff_right (by decide)

theorem isGranted_evaluated_iff : isGranted (evalCounted d) { o with forest := some f } f ↔
    f.margin < rneDiv (threshold (d.asOf o.j) f.cls * o.g) 256 ∧ usedIn d o.cycle < min o.q (capFor d o) := by
  unfold isGranted
  rw [evalCounted_threshold, evalCounted_cap]
  rfl

theorem forestDoneDev_one (hobjs : d.jud.objs = pre ++ o :: rest) (hpre : ∀ x ∈ pre, x.forest.isSome = true ∧ x.sel ≠ .waiting)
    (hrest : ∀ x ∈ rest.head?, x.forest = none) (hnone : o.forest = none) (hsel : o.sel = .waiting) (hresult : forestResult d o = some f) :
    forestDoneDev pre.length .clean d = (selectOne (evalCounted d) { o with forest := some f } f).1.setObjs
      (pre ++ (selectOne (evalCounted d) { o with forest := some f } f).2 :: rest) := by
  have hk : d.jud.objs[pre.length]? = some o := by rw [hobjs, List.getElem?_append_right (Nat.le_refl _), Nat.sub_self]; rfl
  have hset : d.jud.objs.set pre.length { o with forest := some f } = pre ++ { o with forest := some f } :: rest := by
    rw [hobjs, List.set_append_right _ _ (Nat.le_refl _), Nat.sub_self]
    rfl
  rw [forestDoneDev_clean hk hnone hresult, hset]
  exact selectFrom_one hpre hrest rfl hsel

theorem setObjs_frame (d : Device) (os : List JObj) : SameBut [] [.jud] d (d.setObjs os) := (SameBut.refl _ _ d).setObjs _ (by simp)

theorem granted_spec (d : Device) (o : JObj) (os : List JObj) : let e := (granted (evalCounted d) o).1.setObjs os
    usedIn e o.cycle = usedIn d o.cycle + 1 ∧ e.get F.CASC_CANDIDATES.COUNT = min (d.get F.CASC_CANDIDATES.COUNT + 1) 0xFFFFFFFF ∧
      e.get F.CASC_CLASSIFIED.COUNT = min (d.get F.CASC_CLASSIFIED.COUNT + 1) 0xFFFFFFFF := by
  intro e
  have hset := setObjs_frame (granted (evalCounted d) o).1 os
  have hcounted : SameBut [R.FOR_EVALS, R.CASC_CANDIDATES] [] d ((evalCounted d).count F.CASC_CANDIDATES.COUNT) :=
    ((evalCounted_frame d).mono_regs (by simp)).count _ (by simp)
  have huse := useOne_frame ((evalCounted d).count F.CASC_CANDIDATES.COUNT) o.cycle
  refine ⟨?_, (hset.get (by simp)).trans ?_, (hset.get (by simp)).trans ?_⟩
  · have hhead : usedIn e o.cycle = usedIn (useOne ((evalCounted d).count F.CASC_CANDIDATES.COUNT) o.cycle) o.cycle := rfl
    have hkept : usedIn ((evalCounted d).count F.CASC_CANDIDATES.COUNT) o.cycle = usedIn d o.cycle := rfl
    rw [hhead, ← hkept]
    simp [useOne, usedIn, Device.set, Device.wr]
  · refine (Device.get_set_ne _ _ _ _ (.inl (by simp))).trans ((huse.get (by simp)).trans ?_)
    refine (Device.get_count_saturating _ _ _ (by simp)).trans ?_
    rw [(evalCounted_frame d).get (by simp)]
    rfl
  · refine (Device.get_count_saturating _ _ _ (by simp)).trans ?_
    rw [huse.get (by simp), hcounted.get (by simp)]
    rfl

theorem denied_spec (d : Device) (o : JObj) (os : List JObj) : let e := (denied (evalCounted d) o).1.setObjs os
    e.get F.CASC_DENIED.COUNT = min (d.get F.CASC_DENIED.COUNT + 1) 0xFFFFFFFF ∧ e.get F.CASC_FLAGS.DENIED = 1 ∧
      e.get F.CASC_CLASSIFIED.COUNT = d.get F.CASC_CLASSIFIED.COUNT := by
  intro e
  have hset := setObjs_frame (denied (evalCounted d) o).1 os
  have hcounted : SameBut [R.FOR_EVALS, R.CASC_CANDIDATES] [] d ((evalCounted d).count F.CASC_CANDIDATES.COUNT) :=
    ((evalCounted_frame d).mono_regs (by simp)).count _ (by simp)
  refine ⟨(hset.get (by simp)).trans ?_, (hset.get (by simp)).trans (Device.get_raise_self _ _ (by simp) (by simp)), (hset.get (by simp)).trans ?_⟩
  · refine (Device.get_raise_ne _ _ _ (.inl (by simp))).trans ((Device.get_count_saturating _ _ _ (by simp)).trans ?_)
    rw [hcounted.get (by simp)]
    rfl
  · exact (Device.get_raise_ne _ _ _ (.inl (by simp))).trans ((Device.get_set_ne _ _ _ _ (.inl (by simp))).trans (hcounted.get (by simp)))

end

/-- Settles O21, clause by clause, from selection in judgement order. -/
theorem cascadeSelection : Obligations.CascadeSelection := by
  unfold Obligations.CascadeSelection
  refine ⟨?_, ?_, ?_, ?_, ?_⟩
  · intro k o f s ⟨hk, hnone, hresult⟩
    exact ⟨_, (exec_forestDone k .clean s).trans (congrArg s.done (forestDoneDev_clean hk hnone hresult)), forestDone_clean_spec s.dev o f k⟩
  · intro k o s ⟨hk, hnone⟩
    exact ⟨_, (exec_forestDone k .uncorrected s).trans (congrArg s.done (forestDoneDev_uncorrected hk hnone)), forestDone_uncorrected_spec hk⟩
  · intro pre o rest f s ⟨hobjs, hpre, hrest, hnone, hsel, hresult⟩ hforest
    have hone := forestDoneDev_one hobjs hpre hrest hnone hsel hresult
    rw [selectOne_of_forest ((byForest_evaluated_iff hresult).2 hforest)] at hone
    exact ⟨_, (exec_forestDone pre.length .clean s).trans (congrArg s.done hone), rfl,
      ((setObjs_frame _ _).get (by simp)).trans ((evalCounted_frame s.dev).get (by simp))⟩
  · intro pre o rest f s ⟨hobjs, hpre, hrest, hnone, hsel, hresult⟩ ⟨henabled, hmargin⟩ hgranted
    have hone := forestDoneDev_one hobjs hpre hrest hnone hsel hresult
    have hcandidate : ¬ byForest (evalCounted s.dev) { o with forest := some f } f :=
      mt (byForest_evaluated_iff hresult).1 (not_or_intro (by simp [henabled]) (not_le.2 hmargin))
    rw [selectOne_of_granted hcandidate (isGranted_evaluated_iff.2 hgranted)] at hone
    exact ⟨_, (exec_forestDone pre.length .clean s).trans (congrArg s.done hone), rfl, granted_spec s.dev { o with forest := some f } _⟩
  · intro pre o rest f s ⟨hobjs, hpre, hrest, hnone, hsel, hresult⟩ ⟨henabled, hmargin⟩ hrefused
    have hone := forestDoneDev_one hobjs hpre hrest hnone hsel hresult
    have hcandidate : ¬ byForest (evalCounted s.dev) { o with forest := some f } f :=
      mt (byForest_evaluated_iff hresult).1 (not_or_intro (by simp [henabled]) (not_le.2 hmargin))
    have hdenied : ¬ isGranted (evalCounted s.dev) { o with forest := some f } f := mt isGranted_evaluated_iff.1 fun ⟨hthr, hroom⟩ =>
      hrefused.elim (not_le.2 hthr) (not_le.2 hroom)
    rw [selectOne_of_denied hcandidate hdenied] at hone
    exact ⟨_, (exec_forestDone pre.length .clean s).trans (congrArg s.done hone), rfl, denied_spec s.dev { o with forest := some f } _⟩

end Sys2Proof.Machine


/-! # Writes of registers and of windows

A register without a meaning of its own, and the correction, node and weights windows (Table 0.4, R98, R111, R177, R185). -/

namespace Sys2Proof.Machine

theorem exec_tableWindowWrite (a : Access) (value : Word) (s : State) :
    exec (.tableWindowWrite a value) s = s.done (windowWrite 0x21000000 0x21200000 a value.toNat s.dev) := rfl
theorem exec_nodeWindowWrite (a : Access) (value : Word) (s : State) :
    exec (.nodeWindowWrite a value) s = s.done (windowWrite 0x41000000 0x41100000 a value.toNat s.dev) := rfl
theorem exec_weightsWindowWrite (a : Access) (value : Word) (s : State) :
    exec (.weightsWindowWrite a value) s = s.done (windowWrite 0x42000000 0x42400000 a value.toNat s.dev) := rfl

/-! ## A register without a meaning of its own -/

section
variable {who : StagingOwner} {a : Nat} {r : RegDesc} {w : Word} {d : Device}

/-- What a write of Table 0.4 leaves of a register without a staged part, where the hardware sets nothing in the same cycle. -/
theorem writePlain_eq_wr (hrws : r.rws = 0) : writePlain who a r w 0 d =
    d.wr a (((d.rd a &&& ~~~ (BitVec.ofNat 32 r.rw ||| (if regLocked d a then 0#32 else BitVec.ofNat 32 r.rwl))) |||
      (w &&& (BitVec.ofNat 32 r.rw ||| (if regLocked d a then 0#32 else BitVec.ofNat 32 r.rwl)))) &&& ~~~ (w &&& BitVec.ofNat 32 r.w1c)) := by
  have hnone : (List.range 32).filter (bitAt ((0 : Word).toNat &&& r.w1c)) = [] :=
    List.filter_eq_nil_iff.2 fun i _ => by simp [bitAt]
  have hall : (~~~ (0 : Word)) = BitVec.allOnes 32 := by decide
  unfold writePlain
  rw [hnone, if_pos hrws, hall, BitVec.and_allOnes]
  rfl

theorem regLocked_congr {d e : Device} (h : ∀ b, e.rd b = d.rd b) (hslu : e.slu = d.slu) (a : Nat) : regLocked e a = regLocked d a := by
  have hbit (f : Fld) : e.bit f = d.bit f := by
    unfold Device.bit Device.get
    rw [h]
  unfold regLocked
  rw [hbit, hbit, hbit, hslu]

/-- The device that a register write starts from: the interrupt lines latched, the answer prepared. -/
theorem answering_frame (d : Device) : SameBut [] [.cores] d ((latchPlic d).reply 0) := ((SameBut.refl _ _ d).latchPlic (by simp)).reply _ (by simp)

theorem accessWrite_plain_spec {x : Access} {v : Nat} {t : Word} (hreach : reachesReg x r d)
    (hacts : writeActs (masterId x.master) (ownerOf (masterId x.master) x.session) x.addr r (BitVec.ofNat 32 v) 0 ((latchPlic d).reply 0) = none)
    (hrws : r.rws = 0) (ht : t = BitVec.ofNat 32 r.rw ||| (if regLocked d x.addr then 0 else BitVec.ofNat 32 r.rwl))
    (hstop : coreStops x true d = none) : let e := accessWrite x v 0 d
    e.rd x.addr = ((d.rd x.addr &&& ~~~ t) ||| (BitVec.ofNat 32 v &&& t)) &&& ~~~ (BitVec.ofNat 32 v &&& BitVec.ofNat 32 r.w1c) ∧
      e.cores.busError = false ∧ SameBut [x.addr] [.cores] d e := by
  have hlatched := answering_frame d
  have hlocked : regLocked ((latchPlic d).reply 0) x.addr = regLocked d x.addr :=
    regLocked_congr (fun b => hlatched.regs b (by simp)) (hlatched.parts .slu (by simp)) _
  have hrd : ((latchPlic d).reply 0).rd x.addr = d.rd x.addr := hlatched.regs _ (by simp)
  intro e
  have he : e = ((latchPlic d).reply 0).wr x.addr
      (((d.rd x.addr &&& ~~~ t) ||| (BitVec.ofNat 32 v &&& t)) &&& ~~~ (BitVec.ofNat 32 v &&& BitVec.ofNat 32 r.w1c)) := by
    rw [show e = accessWrite x v 0 d from rfl, accessWrite_of_reachesReg hreach hstop, writeReg_of_writeActs_none hacts, writePlain_eq_wr hrws,
      hlocked, hrd, ht]
    rfl
  rw [he]
  exact ⟨Device.rd_wr_self _ _ _, rfl, (hlatched.mono_regs (List.nil_subset _)).wr _ (by simp)⟩

end

/-! ## The way of a write to a window -/

section
variable {x : Access} {d : Device} {lo hi v : Nat}

theorem windowWrite_outside (h : x.addr < lo ∨ hi ≤ x.addr) : windowWrite lo hi x v d = d := if_neg (by omega)

/-- An aligned 32-bit plain write that nothing shuts reaches the area of its address. -/
theorem accessWrite_of_area {area : Area} (harea : areaAt d x.addr = some area) (hshut : shutCause d x.addr = none) (hwidth : x.width = 4)
    (halign : x.addr % 4 = 0) (hkind : x.kind = .plain) (hphase : d.boot.phase ≠ .reset) (hwidths : 4 ∈ areaWidths area)
    (hdram : area ≠ .dram) (hstop : coreStops x true d = none) (v : Nat) : accessWrite x v 0 d =
      writeArea (masterId x.master) (ownerOf (masterId x.master) x.session) x.addr 4 area v 0 d := by
  have hmis : misaligned (masterId x.master) x.addr x.width = false := by
    rw [misaligned, hwidth, halign]
    simp
  have hatomic : (x.kind == AccessKind.atomic) = false := by rw [hkind]; rfl
  have hcause : accessCause d x.addr x.width false = none := by
    rw [accessCause, hshut, harea]
    dsimp only
    rw [hwidth, if_neg (by simp [halign, hwidths]), if_neg fun h => hdram h.1]
  rw [accessWrite, hstop]
  dsimp only
  rw [accessWriteThrough_of_plain (.inl hkind), hatomic, busWrite, if_neg hphase, hmis, if_neg Bool.false_ne_true, hcause, harea, hwidth]

/-- What a refused write of a window leaves. -/
theorem refused_spec (d : Device) (x : Access) : let e := busError d (masterId x.master) x.addr true causeRefused
    (e.cores.busError = true ∧ (d.bit F.CORE_BUSERR_INFO.VALID = false → e.get F.CORE_BUSERR_INFO.CAUSE = causeRefused)) ∧
      SameBut busErrorRegs [.cores, .fresh] d e := by
  have hends := busErrorAs_endsInBusError x excStore d true causeRefused
  refine ⟨⟨hends.busError, fun hfree => ?_⟩, hends.frame⟩
  obtain ⟨-, -, hcause⟩ := busErrorAs_latched excStore d x.master x.addr true causeRefused hfree
  exact hcause

theorem regionOf_of_lt {a : Nat} (hlo : 0x10000000 ≤ a) (hhi : a < 0x70000000) : regionOf a = some (a / 0x10000000) := if_pos ⟨hlo, hhi⟩

theorem shutCause_of_open {a k : Nat} (hregion : regionOf a = some k) (hreset : d.resetting k = false) (hpower : poweredDown d a = false) :
    shutCause d a = none := by
  simp only [shutCause, hregion, hreset, hpower, Bool.false_eq_true, if_false]

end

/-! ## Bytes that a write leaves apart -/

theorem Device.num_setBytes_self (d : Device) (a v : Nat) : (d.setBytes a (leBytes 4 v)).num a 4 = v % 256 ^ 4 := d.num_setNum a 4 v

theorem Device.num_setBytes_of_apart (d : Device) {a b n : Nat} {bs : List Byte} (h : b + n ≤ a ∨ a + bs.length ≤ b) :
    (d.setBytes a bs).num b n = d.num b n :=
  congrArg leNat (Device.bytes_of_outside (a := a) n fun _ _ _ => Device.setBytes_byte_of_outside bs d a (by omega))

/-! ## The correction window -/

section
variable {x : Access} {d : Device} {value : Word}

/-- The write is an aligned plain word in the window `[lo, hi)`, and accesses reach region `k`. -/
def WindowAccess (lo hi k : Nat) (x : Access) (d : Device) : Prop :=
  lo ≤ x.addr ∧ x.addr < hi ∧ x.width = 4 ∧ x.addr % 4 = 0 ∧ x.kind = .plain ∧ d.boot.phase ≠ .reset ∧ d.resetting k = false

theorem accessWrite_correction (h : WindowAccess 0x21000000 0x21200000 2 x d) (hstop : coreStops x true d = none) (v : Nat) :
    accessWrite x v 0 d = writeArea (masterId x.master) (ownerOf (masterId x.master) x.session) x.addr 4 .correction v 0 d := by
  obtain ⟨hlo, hhi, hwidth, halign, hkind, hphase, hreset⟩ := h
  have hregion : regionOf x.addr = some 2 := (regionOf_of_lt (by omega) (by omega)).trans (congrArg some (by omega))
  have hpower : poweredDown d x.addr = false := by
    have hjdg : ¬ (0x40000000 ≤ x.addr ∧ x.addr < 0x50000000) := by omega
    have hcapt : ¬ (0x60100000 ≤ x.addr ∧ x.addr < 0x60110000) := by omega
    simp only [poweredDown, decide_eq_false hjdg, decide_eq_false hcapt, Bool.false_and, Bool.or_false]
  have harea : areaAt d x.addr = some .correction := by
    rw [areaAt, if_neg (by omega), if_neg (by omega), if_neg (by omega), if_neg (by omega), if_neg (by unfold dramBase; omega), if_neg (by omega),
      if_neg (by omega), if_neg (by omega), if_neg (by omega), if_pos ⟨hlo, hhi⟩]
  exact accessWrite_of_area harea (shutCause_of_open hregion hreset hpower) hwidth halign hkind hphase (by decide) (by decide) hstop v

/-- The base copy starts at a multiple of 8 MiB. -/
theorem calBase_mod (d : Device) : calBase d % 2 ^ 23 = 0 := by
  unfold calBase
  dsimp only
  omega

theorem correction_entry {a : Nat} (hlo : 0x21000000 ≤ a) (halign : a % 4 = 0) : liveAddr ((a - 0x21000000) / 4) = a := by
  unfold liveAddr
  omega

/-- The base copy and the deltas of the entry take it. -/
def baseWritten (d0 d : Device) (e v : Nat) : Device := (d.setNum (baseAddr d0 e) 4 v).setBytes (setAddr d0 e) (List.replicate 8 0#8)

theorem writeCorrection_eq {a : Nat} (hlo : 0x21000000 ≤ a) (halign : a % 4 = 0) (v : Nat) (d : Device) :
    writeCorrection a (leBytes 4 v) d = baseWritten d (d.setBytes a (leBytes 4 v)) ((a - 0x21000000) / 4) (v % 256 ^ 4) := by
  have hentry : liveEntry (d.setBytes a (leBytes 4 v)) ((a - 0x21000000) / 4) = v % 256 ^ 4 := by
    rw [liveEntry, correction_entry hlo halign, Device.num_setBytes_self]
  unfold writeCorrection baseWritten
  dsimp only
  rw [hentry]

/-- The live entry keeps the value that the base copy takes. -/
theorem baseWritten_num {a v : Nat} (hlo : 0x21000000 ≤ a) (hhi : a < 0x21200000) (halign : a % 4 = 0) (d0 d : Device) (h : d.num a 4 = v)
    (hv : v < 256 ^ 4) : (baseWritten d0 d ((a - 0x21000000) / 4) v).num a 4 = v := by
  have hbase := calBase_mod d0
  have hset : (baseWritten d0 d ((a - 0x21000000) / 4) v).num a 4 = (d.setNum (baseAddr d0 ((a - 0x21000000) / 4)) 4 v).num a 4 :=
    Device.num_setBytes_of_apart _ (by rw [List.length_replicate]; unfold setAddr; omega)
  rw [hset]
  by_cases hsame : baseAddr d0 ((a - 0x21000000) / 4) = a
  · rw [hsame, Device.num_setNum, Nat.mod_eq_of_lt hv]
  · exact (Device.num_setBytes_of_apart _ (by rw [leBytes_length]; unfold baseAddr at hsame ⊢; omega)).trans h

theorem baseWritten_frame (d0 : Device) (e v : Nat) :
    SameButMem [] [.resv, .cores] [(baseAddr d0 e, 4), (setAddr d0 e, 8)] d (baseWritten d0 d e v) := by
  have hbase := ((SameBut.refl [] [.resv, .cores] d).setBytes (by simp) (baseAddr d0 e) (leBytes 4 v)).mono_ranges
    (qs := [(baseAddr d0 e, 4), (setAddr d0 e, 8)]) fun r hr => ⟨_, List.mem_cons_self, by rw [List.mem_singleton.1 hr, leBytes_length]; omega⟩
  have hset := ((SameBut.refl [] [.resv, .cores] (d.setNum (baseAddr d0 e) 4 v)).setBytes (by simp) (setAddr d0 e) (List.replicate 8 0#8)).mono_ranges
    (qs := [(baseAddr d0 e, 4), (setAddr d0 e, 8)])
    fun r hr => ⟨_, List.mem_cons_of_mem _ List.mem_cons_self, by rw [List.mem_singleton.1 hr, List.length_replicate]; omega⟩
  exact hbase.trans hset

theorem num_reply (d : Device) (v a n : Nat) : (d.reply v).num a n = d.num a n := Device.num_congr_mem (d := d) (e := d.reply v) rfl a n

theorem word_lt (w : Word) : w.toNat < 256 ^ 4 := w.isLt

theorem tableWindow_open_spec (h : WindowAccess 0x21000000 0x21200000 2 x d) (hlive : footLive d ((x.addr - 0x21000000) / 4) = false)
    (hstop : coreStops x true d = none) : let e := windowWrite 0x21000000 0x21200000 x value.toNat d
    e.num x.addr 4 = value.toNat ∧ e.cores.busError = false ∧
      SameButMem [] [.resv, .cores] [(x.addr, 4), (baseAddr d ((x.addr - 0x21000000) / 4), 4), (setAddr d ((x.addr - 0x21000000) / 4), 8)] d e := by
  intro e
  have hreach := accessWrite_correction h hstop value.toNat
  obtain ⟨hlo, hhi, -, halign, -, -, -⟩ := h
  have hv := Nat.mod_eq_of_lt (word_lt value)
  have he : e = (baseWritten d (d.setBytes x.addr (leBytes 4 value.toNat)) ((x.addr - 0x21000000) / 4) value.toNat).reply 0 := by
    rw [show e = accessWrite x value.toNat 0 d from if_pos ⟨hlo, hhi⟩, hreach, writeArea, hlive, if_neg Bool.false_ne_true, writeCorrection_eq hlo halign, hv]
  have hwritten := ((SameBut.refl [] [.resv, .cores] d).setBytes (by simp) x.addr (leBytes 4 value.toNat)).mono_ranges
    (qs := [(x.addr, 4), (baseAddr d ((x.addr - 0x21000000) / 4), 4), (setAddr d ((x.addr - 0x21000000) / 4), 8)])
    fun r hr => ⟨_, List.mem_cons_self, by rw [List.mem_singleton.1 hr, leBytes_length]; omega⟩
  have hbase := (baseWritten_frame (d := d.setBytes x.addr (leBytes 4 value.toNat)) d ((x.addr - 0x21000000) / 4) value.toNat).mono_ranges
    (qs := [(x.addr, 4), (baseAddr d ((x.addr - 0x21000000) / 4), 4), (setAddr d ((x.addr - 0x21000000) / 4), 8)])
    fun r hr => ⟨r, List.mem_cons_of_mem _ hr, by omega⟩
  rw [he]
  refine ⟨?_, rfl, (hwritten.trans hbase).trans_sameBut ((SameBut.refl _ _ _).reply _ (by simp))⟩
  rw [num_reply, baseWritten_num hlo hhi halign d _ (by rw [Device.num_setBytes_self, hv]) (word_lt value)]

theorem tableWindow_live (h : WindowAccess 0x21000000 0x21200000 2 x d) (hlive : footLive d ((x.addr - 0x21000000) / 4) = true)
    (hstop : coreStops x true d = none) :
    windowWrite 0x21000000 0x21200000 x value.toNat d = busError d (masterId x.master) x.addr true causeRefused := by
  have hreach := accessWrite_correction h hstop value.toNat
  obtain ⟨hlo, hhi, -, -, -, -, -⟩ := h
  rw [show windowWrite 0x21000000 0x21200000 x value.toNat d = accessWrite x value.toNat 0 d from if_pos ⟨hlo, hhi⟩, hreach, writeArea]
  exact if_pos hlive

end

/-! ## The node and weights windows -/

section
variable {as : List Nat} {ps : List Part} {d e : Device}

theorem SameBut.withSlu (h : SameBut as ps d e) (x : Sluice) (hp : Part.slu ∈ ps) : SameBut as ps d (e.withSlu x) :=
  h.parts_only rfl rfl rfl rfl (fun p hp' => by
    cases p with
    | slu => exact absurd hp hp'
    | _ => rfl)

end

section
variable {x : Access} {d : Device} {value : Word}

/-- A write of a word of the forest or of the weights, its bytes noted in `written`. -/
def contentWritten (d : Device) (a v : Nat) (written : List Nat) : Device :=
  ((d.setBytes a (leBytes 4 v)).withSlu { d.slu with written := written }).reply 0

theorem contentWritten_spec (d : Device) (a : Nat) (value : Word) (written : List Nat) : let e := contentWritten d a value.toNat written
    e.num a 4 = value.toNat ∧ e.cores.busError = false ∧ e.slu.written = written ∧ SameButMem [] [.resv, .cores, .slu] [(a, 4)] d e := by
  have hwritten := (SameBut.refl [] [.resv, .cores, .slu] d).setBytes (by simp) a (leBytes 4 value.toNat)
  rw [leBytes_length] at hwritten
  have hnote : SameBut [] [.resv, .cores, .slu] (d.setBytes a (leBytes 4 value.toNat)) (contentWritten d a value.toNat written) :=
    ((SameBut.refl _ _ _).withSlu _ (by simp)).reply _ (by simp)
  refine ⟨?_, rfl, rfl, hwritten.trans_sameBut hnote⟩
  have hmem : (contentWritten d a value.toNat written).mem = (d.setBytes a (leBytes 4 value.toNat)).mem := rfl
  rw [Device.num_congr_mem hmem, Device.num_setBytes_self, Nat.mod_eq_of_lt (word_lt value)]

theorem accessWrite_judgement {lo hi : Nat} {area : Area} (h : WindowAccess lo hi 4 x d) (hlo : 0x40000000 ≤ lo) (hhi : hi ≤ 0x50000000)
    (harea : areaAt d x.addr = some area) (hwidths : 4 ∈ areaWidths area) (hdram : area ≠ .dram)
    (hpower : poweredDown d x.addr = false) (hstop : coreStops x true d = none) (v : Nat) : windowWrite lo hi x v d =
      writeArea (masterId x.master) (ownerOf (masterId x.master) x.session) x.addr 4 area v 0 d := by
  obtain ⟨hfrom, hto, hwidth, halign, hkind, hphase, hreset⟩ := h
  have hregion : regionOf x.addr = some 4 := (regionOf_of_lt (by omega) (by omega)).trans (congrArg some (by omega))
  exact (if_pos ⟨hfrom, hto⟩).trans
    (accessWrite_of_area harea (shutCause_of_open hregion hreset hpower) hwidth halign hkind hphase hwidths hdram hstop v)

theorem areaAt_nodes (hlo : 0x41000000 ≤ x.addr) (hhi : x.addr < 0x41100000) : areaAt d x.addr = some .nodes := by
  rw [areaAt, if_neg (by omega), if_neg (by omega), if_neg (by omega), if_neg (by omega), if_neg (by unfold dramBase; omega), if_neg (by omega),
    if_neg (by omega), if_neg (by omega), if_neg (by omega), if_neg (by omega), if_neg (by omega), if_neg (by omega), if_pos ⟨hlo, hhi⟩]

theorem areaAt_weights (hlo : 0x42000000 ≤ x.addr) (hhi : x.addr < 0x42400000) : areaAt d x.addr = some .weights := by
  rw [areaAt, if_neg (by omega), if_neg (by omega), if_neg (by omega), if_neg (by omega), if_neg (by unfold dramBase; omega), if_neg (by omega),
    if_neg (by omega), if_neg (by omega), if_neg (by omega), if_neg (by omega), if_neg (by omega), if_neg (by omega), if_neg (by omega),
    if_pos ⟨hlo, hhi⟩]

/-- What a write of the node memory notes as written (R411). -/
def nodesNoted (d : Device) (a : Nat) : List Nat := if d.sluState = sluOpen then d.slu.written else a :: d.slu.written

theorem nodeWindow_open (h : WindowAccess 0x41000000 0x41100000 4 x d) (hpower : poweredDown d x.addr = false)
    (hlive : nodeLive d ((x.addr - nodeBase) / 8) = false) (hstop : coreStops x true d = none) :
    windowWrite 0x41000000 0x41100000 x value.toNat d = contentWritten d x.addr value.toNat (nodesNoted d x.addr) :=
  (accessWrite_judgement h (by decide) (by decide) (areaAt_nodes h.1 h.2.1) (by decide) (by decide) hpower hstop value.toNat).trans
    (if_neg (by rw [hlive]; exact Bool.false_ne_true))

theorem nodeWindow_live (h : WindowAccess 0x41000000 0x41100000 4 x d) (hpower : poweredDown d x.addr = false)
    (hlive : nodeLive d ((x.addr - nodeBase) / 8) = true) (hstop : coreStops x true d = none) :
    windowWrite 0x41000000 0x41100000 x value.toNat d = busError d (masterId x.master) x.addr true causeRefused :=
  (accessWrite_judgement h (by decide) (by decide) (areaAt_nodes h.1 h.2.1) (by decide) (by decide) hpower hstop value.toNat).trans (if_pos hlive)

/-- What a write of the weights memory notes as written (R411). -/
def weightsNoted (d : Device) (a : Nat) : List Nat :=
  if d.sluState = sluOpen then d.slu.written else (List.range 4).map (a + ·) ++ d.slu.written

theorem weightWindow_open (h : WindowAccess 0x42000000 0x42400000 4 x d) (hpower : poweredDown d x.addr = false)
    (hlive : ∀ i : Fin 4, weightLive d (x.addr + i - weightBase) = false) (hstop : coreStops x true d = none) :
    windowWrite 0x42000000 0x42400000 x value.toNat d = contentWritten d x.addr value.toNat (weightsNoted d x.addr) := by
  have hany : (List.range 4).any (fun i => weightLive d (x.addr + i - weightBase)) = false :=
    List.any_eq_false.2 fun i hi => by simpa using hlive ⟨i, List.mem_range.1 hi⟩
  exact (accessWrite_judgement h (by decide) (by decide) (areaAt_weights h.1 h.2.1) (by decide) (by decide) hpower hstop value.toNat).trans
    (if_neg (by rw [hany]; exact Bool.false_ne_true))

theorem weightWindow_live (h : WindowAccess 0x42000000 0x42400000 4 x d) (hpower : poweredDown d x.addr = false)
    (hlive : ∃ i : Fin 4, weightLive d (x.addr + i - weightBase) = true) (hstop : coreStops x true d = none) :
    windowWrite 0x42000000 0x42400000 x value.toNat d = busError d (masterId x.master) x.addr true causeRefused := by
  obtain ⟨i, hi⟩ := hlive
  have hany : (List.range 4).any (fun i => weightLive d (x.addr + i - weightBase)) = true :=
    List.any_eq_true.2 ⟨i, List.mem_range.2 i.isLt, hi⟩
  exact (accessWrite_judgement h (by decide) (by decide) (areaAt_weights h.1 h.2.1) (by decide) (by decide) hpower hstop value.toNat).trans
    (if_pos hany)

theorem nodesNoted_mem (h : d.sluState ≠ sluOpen) (a : Nat) : a ∈ nodesNoted d a := by
  rw [nodesNoted, if_neg h]
  exact List.mem_cons_self

theorem weightsNoted_mem (h : d.sluState ≠ sluOpen) (a : Nat) : a ∈ weightsNoted d a ∧ a + 3 ∈ weightsNoted d a := by
  rw [weightsNoted, if_neg h]
  exact ⟨List.mem_append_left _ (List.mem_map.2 ⟨0, by decide, rfl⟩), List.mem_append_left _ (List.mem_map.2 ⟨3, by decide, rfl⟩)⟩

end

end Sys2Proof.Machine


/-! # A store of a core to SRAM

It goes to the core's own data cache, which the coherent caches then answer with (R343, R344). -/

namespace Sys2Proof.Machine

/-! ## The line of a store -/

section
variable {d : Device} {n k : Nat}

/-- Every line of every data cache holds 64 bytes. -/
def AllWhole (d : Device) : Prop := ∀ m : Fin 4, WholeLines m d

theorem findSome_whole (h : AllWhole d) {f : Nat → Option CacheLine} (hf : ∀ m l, f m = some l → lineIn (d.core m).dcache k = some l)
    {l : CacheLine} (hl : (List.range 4).findSome? f = some l) : l.bytes.length = 64 := by
  obtain ⟨m, hm, hline⟩ := List.exists_of_findSome?_eq_some hl
  exact h ⟨m, List.mem_range.1 hm⟩ l (mem_of_lineIn (hf m l hline))

/-- A coherent line holds 64 bytes. -/
theorem coherentLine_length (h : AllWhole d) : (coherentLine d k).length = 64 := by
  unfold coherentLine
  split
  next l hdirty => exact findSome_whole h (fun _ _ => Option.eq_some_of_filter_eq_some) hdirty
  next =>
    split
    next l hclean => exact findSome_whole h (fun _ _ hline => hline) hclean
    next => exact d.bytes_length 64 _

theorem dcacheFill_frame (hroom : (d.core n).dcache.length < cacheLines) : SameBut [] [.cores] d (dcacheFill d n k) :=
  iteInduction (fun _ => .refl _ _ d) fun _ => by
    rw [if_pos hroom]
    exact (SameBut.refl _ _ d).putCores _ (by simp)

/-- The core has the line. -/
theorem dcacheFill_line (hn : n < 4) (h : AllWhole d) (hroom : (d.core n).dcache.length < cacheLines) :
    ∃ l, lineIn ((dcacheFill d n k).core n).dcache k = some l ∧ l.bytes.length = 64 := by
  unfold dcacheFill
  dsimp only
  split
  next hsome =>
    obtain ⟨l, hl⟩ := Option.isSome_iff_exists.1 hsome
    exact ⟨l, hl, h ⟨n, hn⟩ l (mem_of_lineIn hl)⟩
  next =>
    rw [Device.core_setCore_self d hn]
    exact ⟨_, List.find?_cons_of_pos (by simp), coherentLine_length h⟩

end

/-! ## The store -/

section
variable {d : Device} {n : Fin 4} {a : Nat} {bs : List Byte}

/-- Line `k` takes `bs` from byte `o` on and is dirty. -/
def lineStored (k o : Nat) (bs : List Byte) (l : CacheLine) : CacheLine :=
  if l.line = k then { l with bytes := l.bytes.take o ++ bs ++ l.bytes.drop (o + bs.length), dirty := true } else l

theorem lineStored_line (k o : Nat) (bs : List Byte) (l : CacheLine) : (lineStored k o bs l).line = l.line := by
  unfold lineStored
  split <;> rfl

theorem lineIn_map_lineStored (c : List CacheLine) (k o : Nat) (bs : List Byte) (j : Nat) :
    lineIn (c.map (lineStored k o bs)) j = (lineIn c j).map (lineStored k o bs) := by
  unfold lineIn
  rw [List.find?_map]
  simp only [Function.comp_def, lineStored_line]

/-- What a store of core `n` makes of the data cache of core `m`. -/
def cacheStored (n a : Nat) (bs : List Byte) (m : Nat) (c : List CacheLine) : List CacheLine :=
  if m = n then c.map (lineStored (a / 64) (a % 64) bs) else c.filter (fun l => l.line != a / 64)

/-- One core after a store of core `n`. -/
def coreStored (n a : Nat) (bs : List Byte) (d : Device) (m : Nat) : Device :=
  d.setCore m { d.core m with dcache := cacheStored n a bs m (d.core m).dcache }

/-- The cores after a store of core `n`. -/
def coresStored (d : Device) (n a : Nat) (bs : List Byte) : Device := (List.range 4).foldl (coreStored n a bs) (dcacheFill d n (a / 64))

theorem cacheStore_eq (d : Device) (n a : Nat) (bs : List Byte) : cacheStore d n a bs =
    { coresStored d n a bs with resv := (coresStored d n a bs).resv.filter (fun r => r.2 ≠ a / 64) } := rfl

theorem coresStored_dcache (m : Fin 4) : ((coresStored d n a bs).core m).dcache =
    cacheStored n a bs m ((dcacheFill d n (a / 64)).core m).dcache := by
  refine foldl_at (k := m.val) (Q := fun e : Device => e.core m = (dcacheFill d n (a / 64)).core m)
    (P := fun e : Device => (e.core m).dcache = cacheStored n a bs m ((dcacheFill d n (a / 64)).core m).dcache)
    (fun e he => ?_) List.nodup_range (List.mem_range.2 m.isLt) (fun e j _ hne he => ?_) (fun e j _ hne he => ?_) rfl
  · rw [coreStored, Device.core_setCore_self e m.isLt, he]
  · rw [coreStored, Device.core_setCore_ne e (Ne.symm hne), he]
  · rw [coreStored, Device.core_setCore_ne e (Ne.symm hne), he]

theorem coresStored_frame (hroom : (d.core n).dcache.length < cacheLines) : SameBut [] [.cores] d (coresStored d n a bs) :=
  (dcacheFill_frame hroom).trans (SameBut.foldl fun e _ _ => (SameBut.refl _ _ e).putCores _ (by simp))

/-- The stored bytes stand in the line where they were put. -/
theorem lineStored_bytes {l : CacheLine} {k o : Nat} (hline : l.line = k) (ho : o ≤ l.bytes.length) :
    ((lineStored k o bs l).bytes.drop o).take bs.length = bs := by
  have hput : (lineStored k o bs l).bytes = l.bytes.take o ++ bs ++ l.bytes.drop (o + bs.length) := by
    rw [lineStored, if_pos hline]
  have hlen : (l.bytes.take o).length = o := List.length_take_of_le ho
  rw [hput, List.append_assoc, List.drop_left' hlen, List.take_left' rfl]

theorem lineStored_dirty {l : CacheLine} {k o : Nat} (hline : l.line = k) : (lineStored k o bs l).dirty = true := by rw [lineStored, if_pos hline]

/-- No other core keeps the line. -/
theorem coresStored_other (m : Fin 4) (h : m ≠ n) : lineIn ((coresStored d n a bs).core m).dcache (a / 64) = none := by
  have hne : m.val ≠ n.val := fun heq => h (Fin.ext heq)
  rw [coresStored_dcache, cacheStored, if_neg hne]
  exact List.find?_eq_none.2 fun l hl => by simpa using (List.mem_filter.1 hl).2

/-- The storing core has the line, dirty, with the bytes. -/
theorem coresStored_own (h : AllWhole d) (hroom : (d.core n).dcache.length < cacheLines) :
    ∃ l, lineIn ((coresStored d n a bs).core n).dcache (a / 64) = some l ∧ l.dirty = true ∧ (l.bytes.drop (a % 64)).take bs.length = bs := by
  obtain ⟨l, hline, hlen⟩ := dcacheFill_line (k := a / 64) n.isLt h hroom
  refine ⟨lineStored (a / 64) (a % 64) bs l, ?_, lineStored_dirty (line_of_lineIn hline), lineStored_bytes (line_of_lineIn hline) (by omega)⟩
  rw [coresStored_dcache, cacheStored, if_pos rfl, lineIn_map_lineStored, hline, Option.map_some]

/-- A dirty line that one core alone has is the coherent one. -/
theorem coherentLine_of_dirty {e : Device} {k : Nat} {l : CacheLine} (hown : lineIn (e.core n).dcache k = some l) (hdirty : l.dirty = true)
    (hother : ∀ m : Fin 4, m ≠ n → lineIn (e.core m).dcache k = none) : coherentLine e k = l.bytes := by
  have hfind : (List.range 4).findSome? (fun m => (lineIn (e.core m).dcache k).filter CacheLine.dirty) = some l := by
    cases hsome : (List.range 4).findSome? (fun m => (lineIn (e.core m).dcache k).filter CacheLine.dirty) with
    | none =>
      have hn := List.findSome?_eq_none_iff.1 hsome n (List.mem_range.2 n.isLt)
      rw [hown, Option.filter_some, if_pos hdirty] at hn
      exact absurd hn (by simp)
    | some l' =>
      obtain ⟨m, hm, hline⟩ := List.exists_of_findSome?_eq_some hsome
      have hkept := Option.eq_some_of_filter_eq_some hline
      by_cases hmn : (⟨m, List.mem_range.1 hm⟩ : Fin 4) = n
      · rw [show m = n.val from congrArg Fin.val hmn, hown] at hkept
        exact hkept.symm
      · rw [show lineIn (e.core m).dcache k = none from hother ⟨m, List.mem_range.1 hm⟩ hmn] at hkept
        exact absurd hkept (by simp)
  unfold coherentLine
  rw [hfind]

theorem core_reply_resv (c : Device) (rs : List (Nat × Nat)) (v m : Nat) : (({ c with resv := rs } : Device).reply v).core m = c.core m := rfl

theorem resv_reply_resv (c : Device) (rs : List (Nat × Nat)) (v : Nat) : (({ c with resv := rs } : Device).reply v).resv = rs := rfl

/-- What a store of a core leaves. -/
theorem cacheStore_spec (h : AllWhole d) (hroom : (d.core n).dcache.length < cacheLines) : let e := (cacheStore d n a bs).reply 0
    cachedBytes (e.core n).dcache a bs.length = bs ∧ e.cores.busError = false ∧
      ((coherentLine e (a / 64)).drop (a % 64)).take bs.length = bs ∧
      ((∀ m : Fin 4, m ≠ n → lineIn (e.core m).dcache (a / 64) = none) ∧ e.resv = d.resv.filter (fun r => r.2 ≠ a / 64)) ∧
      SameBut [] [.cores, .resv] d e := by
  intro e
  have hframe := coresStored_frame (a := a) (bs := bs) hroom
  have hcore (m : Fin 4) : e.core m = (coresStored d n a bs).core m :=
    (congrArg (fun d : Device => (d.reply 0).core m) (cacheStore_eq d n a bs)).trans (core_reply_resv _ _ _ _)
  obtain ⟨l, hown, hdirty, hbytes⟩ := coresStored_own (a := a) (bs := bs) h hroom
  have hother (m : Fin 4) (hm : m ≠ n) : lineIn (e.core m).dcache (a / 64) = none := by
    rw [hcore m]
    exact coresStored_other m hm
  have hkept : lineIn (e.core n).dcache (a / 64) = some l := by rw [hcore n, hown]
  refine ⟨?_, rfl, ?_, ⟨hother, ?_⟩, ?_⟩
  · rw [cachedBytes, hkept]
    exact hbytes
  · rw [coherentLine_of_dirty hkept hdirty hother, hbytes]
  · have hresv : (coresStored d n a bs).resv = d.resv := hframe.parts .resv (by simp)
    rw [← hresv]
    exact (congrArg (fun d : Device => (d.reply 0).resv) (cacheStore_eq d n a bs)).trans (resv_reply_resv _ _ _)
  · have hlost : SameBut [] [.cores, .resv] (coresStored d n a bs)
        { coresStored d n a bs with resv := (coresStored d n a bs).resv.filter (fun r => r.2 ≠ a / 64) } :=
      (SameBut.refl _ _ _).putResv _ (by simp)
    exact ((hframe.mono_parts (by simp)).trans hlost).reply _ (by simp)

end

/-- An aligned 32-bit store of a core to SRAM goes to its data cache. -/
theorem accessWrite_core_sram {x : Access} {d : Device} {n : Fin 4} (hmaster : x.master = .core n) (hkind : x.kind = .plain)
    (hsram : ReachesSram x.addr d) (hwidth : x.width = 4) (halign : x.addr % 4 = 0) (hstop : coreStops x true d = none) (v : Nat) :
    accessWrite x v 0 d = (cacheStore d n x.addr (leBytes 4 v)).reply 0 := by
  have hn : masterId x.master = n.val := by rw [hmaster]; rfl
  rw [accessWrite_of_area hsram.areaAt hsram.shutCause hwidth halign hkind hsram.phase (by decide) (by decide) hstop v, hn]
  exact congrArg (Device.reply · 0) (if_pos ⟨n.isLt, rfl⟩)

/-- Settles O35, clause by clause, from the way of a write to its area. -/
theorem registerAndWindowWrites : Obligations.RegisterAndWindowWrites := by
  unfold Obligations.RegisterAndWindowWrites
  refine ⟨?_, ?_, ?_, ?_, ?_, ?_, ?_, ?_, ?_, ?_, ?_⟩
  · intro a value r t s hreach ⟨hacts, hrws⟩ ht hstop
    exact ⟨_, exec_registerWrite a value 0 s, accessWrite_plain_spec hreach hacts hrws ht hstop⟩
  · intro a value s hwindow hlive hstop
    exact ⟨_, exec_tableWindowWrite a value s, tableWindow_open_spec hwindow hlive hstop⟩
  · intro a value s hwindow hlive hstop
    exact ⟨_, (exec_tableWindowWrite a value s).trans (congrArg s.done (tableWindow_live hwindow hlive hstop)), refused_spec s.dev a⟩
  · intro a value s houtside
    exact ⟨_, (exec_tableWindowWrite a value s).trans (congrArg s.done (windowWrite_outside houtside)), rfl⟩
  · intro a value s hwindow ⟨hpower, hlive⟩ hstop
    obtain ⟨hnum, hok, hwritten, hframe⟩ := contentWritten_spec s.dev a.addr value (nodesNoted s.dev a.addr)
    exact ⟨_, (exec_nodeWindowWrite a value s).trans (congrArg s.done (nodeWindow_open hwindow hpower hlive hstop)), hnum, hok,
      fun hclosed => hwritten ▸ nodesNoted_mem hclosed a.addr, hframe⟩
  · intro a value s hwindow ⟨hpower, hlive⟩ hstop
    exact ⟨_, (exec_nodeWindowWrite a value s).trans (congrArg s.done (nodeWindow_live hwindow hpower hlive hstop)), refused_spec s.dev a⟩
  · intro a value s hwindow ⟨hpower, hlive⟩ hstop
    obtain ⟨hnum, hok, hwritten, hframe⟩ := contentWritten_spec s.dev a.addr value (weightsNoted s.dev a.addr)
    exact ⟨_, (exec_weightsWindowWrite a value s).trans (congrArg s.done (weightWindow_open hwindow hpower hlive hstop)), hnum, hok,
      fun hclosed => hwritten ▸ weightsNoted_mem hclosed a.addr, hframe⟩
  · intro a value s hwindow ⟨hpower, hlive⟩ hstop
    exact ⟨_, (exec_weightsWindowWrite a value s).trans (congrArg s.done (weightWindow_live hwindow hpower hlive hstop)), refused_spec s.dev a⟩
  · intro a value s houtside
    exact ⟨_, (exec_nodeWindowWrite a value s).trans (congrArg s.done (windowWrite_outside houtside)), rfl⟩
  · intro a value s houtside
    exact ⟨_, (exec_weightsWindowWrite a value s).trans (congrArg s.done (windowWrite_outside houtside)), rfl⟩
  · intro a value n s ⟨hmaster, hkind, hlo, hhi, hwidth, halign, hphase, hreset⟩ ⟨hwhole, hroom⟩ hstop
    have hsram : ReachesSram a.addr s.dev := ⟨hlo, by omega, hreset, hphase⟩
    have hlines : AllWhole s.dev := fun m l hl => beq_iff_eq.1 (List.all_eq_true.1 (hwhole m) l hl)
    have hstored := cacheStore_spec (a := a.addr) (bs := leBytes 4 value.toNat) hlines hroom
    rw [leBytes_length] at hstored
    exact ⟨_, (exec_registerWrite a value 0 s).trans (congrArg s.done (accessWrite_core_sram hmaster hkind hsram hwidth halign hstop value.toNat)),
      hstored⟩

end Sys2Proof.Machine


/-! # The flight matcher

The step of a line: its lower sightings, then the upper ones that expire (R195 to R206). -/

namespace Sys2Proof.Machine

theorem exec_flightMatcherStep (s : State) : exec .flightMatcherStep s = s.done (matcherDev s.dev) := rfl

section
variable {as : List Nat} {ps : List Part} {d e : Device}

theorem SameBut.putFly (h : SameBut as ps d e) (x : Fly) (hp : Part.fly ∈ ps) : SameBut as ps d { e with fly := x } :=
  h.parts_only rfl rfl rfl rfl (fun p hp' => by
    cases p with
    | fly => exact absurd hp hp'
    | _ => rfl)

end

/-! ## The step of a line -/

section
variable {d : Device} {k : Int} {rest : List Int}

/-- The matcher has taken its next line and the lower sightings formed by then. -/
def lineTakenUp (d : Device) (rest : List Int) (lower : List FlySight) : Device := { d with fly := { d.fly with stepQ := rest, lower := lower } }

theorem lineTakenUp_frame (d : Device) (rest : List Int) (lower : List FlySight) : SameBut [] [.fly] d (lineTakenUp d rest lower) :=
  (SameBut.refl _ _ d).putFly _ (by simp)

/-- The lower sightings that line `k` steps, and those that stay. -/
def formedBy (d : Device) (k : Int) : List FlySight := d.fly.lower.filter (fun w => decide (w.s.form ≤ k))
def notFormedBy (d : Device) (k : Int) : List FlySight := d.fly.lower.filter (fun w => !decide (w.s.form ≤ k))

/-- The upper sightings that expire at line `k`, oldest first. -/
def expiredAt (d : Device) (k : Int) : List UpperEntry :=
  sortBy (fun a b => idBefore a.f.s.id b.f.s.id) (d.fly.upper.filter (fun u => decide (u.exp ≤ k)))

/-- The device once the lower sightings of line `k` have been stepped. -/
def lowersStepped (d : Device) (k : Int) (rest : List Int) : Device :=
  (formedBy d k).foldl (if (d.asOf k).bit F.FLY_CFG.MODE then beltStep (d.asOf k) k else lowerStep (d.asOf k) k)
    (lineTakenUp d rest (notFormedBy d k))

/-- Without a joining unit to serve and a restart due, a step is that of the lower and of the expired upper sightings. -/
theorem matcherDev_eq (hq : d.fly.stepQ = k :: rest) (hserve : d.pr.serve = none) (hrestarts : ∀ a ∈ d.fly.restarts, k < a) :
    matcherDev d = (expiredAt (lowersStepped d k rest) k).foldl (expireStep (d.asOf k) k) (lowersStepped d k rest) := by
  have hserved : serveLanes d k = d := by
    unfold serveLanes serveAt
    rw [hserve]
    rfl
  have hnone : d.fly.restarts.any (fun a => decide (a ≤ k)) = false :=
    List.any_eq_false.2 fun a ha => by simpa using hrestarts a ha
  have hdue : dueRestarts { d with fly := { d.fly with stepQ := rest } } (d.asOf k) k = { d with fly := { d.fly with stepQ := rest } } :=
    if_neg (by rw [hnone]; exact Bool.false_ne_true)
  unfold matcherDev
  rw [hq]
  dsimp only
  rw [hserved, hdue]
  rfl

theorem matcherDev_idle (hq : d.fly.stepQ = []) : matcherDev d = d := by
  unfold matcherDev
  rw [hq]

theorem expiredAt_nil {e : Device} (h : ∀ u ∈ e.fly.upper, k < u.exp) : expiredAt e k = [] := by
  have hnone : e.fly.upper.filter (fun u => decide (u.exp ≤ k)) = [] := List.filter_eq_nil_iff.2 fun u hu => by simpa using h u hu
  rw [expiredAt, hnone]
  rfl

theorem expiredAt_one {e : Device} {u : UpperEntry} (hupper : e.fly.upper = [u]) (hexp : u.exp ≤ k) : expiredAt e k = [u] := by
  have hall : e.fly.upper.filter (fun u => decide (u.exp ≤ k)) = [u] := by
    rw [hupper]
    exact List.filter_cons_of_pos (by simpa using hexp)
  rw [expiredAt, hall]
  rfl

/-- A line without a lower sighting. -/
theorem lowersStepped_none (h : ∀ w ∈ d.fly.lower, k < w.s.form) : lowersStepped d k rest = lineTakenUp d rest d.fly.lower := by
  have hnone : formedBy d k = [] := List.filter_eq_nil_iff.2 fun w hw => by simpa using h w hw
  have hall : notFormedBy d k = d.fly.lower := List.filter_eq_self.2 fun w hw => by simpa using h w hw
  rw [lowersStepped, hnone, hall]
  rfl

/-- A line with one lower sighting. -/
theorem lowersStepped_one {w : FlySight} (hlower : d.fly.lower = [w]) (hform : w.s.form ≤ k) : lowersStepped d k rest =
    (if (d.asOf k).bit F.FLY_CFG.MODE then beltStep (d.asOf k) k else lowerStep (d.asOf k) k) (lineTakenUp d rest []) w := by
  have hone : formedBy d k = [w] := by
    rw [formedBy, hlower]
    exact List.filter_cons_of_pos (by simpa using hform)
  have hnone : notFormedBy d k = [] := by
    rw [notFormedBy, hlower]
    exact List.filter_cons_of_neg (by simpa using hform)
  rw [lowersStepped, hone, hnone]
  rfl

end

/-! ## Delivery -/

section
variable {d cfg : Device} {j : Int} {o : JObj}

/-- Neither the safe state nor a reset of the Judgement region stops objects. -/
def JudgementRuns (d : Device) : Prop := d.safe = false ∧ d.resetting 4 = false

theorem JudgementRuns.of_frame {as : List Nat} {ps : List Part} {e : Device} (h : JudgementRuns d) (hframe : SameBut as ps d e)
    (hstatus : R.FLT_STATUS ∉ as) : JudgementRuns e :=
  ⟨(hframe.bit hstatus).trans h.1, (resetting_congr (hframe.regs _ hstatus) 4).trans h.2⟩

/-- Outside a chain, while Judgement runs, an object joins judgement with the grant of its cycle. -/
theorem deliver_joins (hchain : cfg.bit F.PAIR_CHAIN.EN = false) (hruns : JudgementRuns d) : ∃ cyc g q cap,
    deliver d cfg j o = d.setObjs (d.jud.objs ++ [{ o with j := j, cycle := cyc, g := g, q := q, cap := cap }]) := by
  obtain ⟨hsafe, hreset⟩ := hruns
  unfold deliver
  simp only [hchain, hsafe, hreset, Bool.false_eq_true, Bool.false_and, false_and, or_self, if_false]
  exact ⟨_, _, _, _, rfl⟩

/-- The object `o` joins judgement behind the others, at line `j` with some grant. -/
def Joined (d e : Device) (j : Int) (o : JObj) : Prop :=
  ∃ cyc g q cap, e.jud.objs = d.jud.objs ++ [{ o with j := j, cycle := cyc, g := g, q := q, cap := cap }]

/-- What a delivery leaves. -/
structure Delivered (d e : Device) (j : Int) (o : JObj) : Prop where
  fly : e.fly = d.fly
  objs : Joined d e j o
  frame : SameBut [] [.jud] d e

theorem deliver_delivered (hchain : cfg.bit F.PAIR_CHAIN.EN = false) (hruns : JudgementRuns d) : Delivered d (deliver d cfg j o) j o := by
  obtain ⟨cyc, g, q, cap, heq⟩ := deliver_joins (j := j) (o := o) hchain hruns
  rw [heq]
  exact ⟨rfl, ⟨cyc, g, q, cap, rfl⟩, setObjs_frame d _⟩

/-- The newest object, seen by a function that the grant does not enter. -/
theorem Joined.map {e : Device} (h : Joined d e j o) {α : Type} (f : JObj → α) {x : α}
    (hf : ∀ cyc g q cap, f { o with j := j, cycle := cyc, g := g, q := q, cap := cap } = x) :
    e.jud.objs.map f = d.jud.objs.map f ++ [x] ∧ e.jud.objs.getLast?.map f = some x := by
  obtain ⟨cyc, g, q, cap, hobjs⟩ := h
  rw [hobjs, List.map_append, List.map_singleton, List.getLast?_concat, Option.map_some, hf]
  exact ⟨rfl, rfl⟩

theorem Joined.of_objs {d' e : Device} (h : Joined d' e j o) (hobjs : d'.jud.objs = d.jud.objs) : Joined d e j o := by
  unfold Joined at h ⊢
  rwa [hobjs] at h

end

/-! ## Lanes and the store -/

section
variable (d : Device)

theorem readLane_frame (k : Nat) : SameBut [R.FLY_FLAGS] [.evt] d (readLane d k) := (SameBut.refl _ _ d).raiseIf _ (by simp) (by simp)

theorem readLane_fly (k : Nat) : (readLane d k).fly = d.fly := (readLane_frame d k).parts .fly (by simp)

theorem showUpper_frame : SameBut [R.FLY_UPPER] [] d (showUpper d) := ((SameBut.refl _ _ d).set _ (by simp)).set _ (by simp)

theorem showUpper_count : (showUpper d).get F.FLY_UPPER.COUNT = d.fly.upper.length % 65536 :=
  (Device.get_set_ne _ _ _ _ (.inr (.inr (by simp)))).trans (Device.get_set_self _ _ _ (by simp))

/-- An upper sighting leaves the store. -/
def upperGone (d : Device) (u : UpperEntry) : Device := showUpper { d with fly := { d.fly with upper := d.fly.upper.erase u } }

theorem upperGone_frame (u : UpperEntry) : SameBut [R.FLY_UPPER] [.fly] d (upperGone d u) :=
  ((SameBut.refl [R.FLY_UPPER] [.fly] d).putFly { d.fly with upper := d.fly.upper.erase u } (by simp)).trans
    ((showUpper_frame _).mono_parts (List.nil_subset _))

theorem upperGone_fly (u : UpperEntry) : (upperGone d u).fly = { d.fly with upper := d.fly.upper.erase u } := rfl

/-- The last upper sighting leaves the store empty. -/
theorem upperGone_last {d : Device} {u : UpperEntry} (h : d.fly.upper = [u]) :
    (upperGone d u).fly = { d.fly with upper := [] } ∧ (upperGone d u).get F.FLY_UPPER.COUNT = 0 := by
  have herase : d.fly.upper.erase u = [] := by rw [h, List.erase_cons_head]
  refine ⟨by rw [upperGone_fly, herase], (showUpper_count _).trans ?_⟩
  show (d.fly.upper.erase u).length % 65536 = 0
  rw [herase]
  rfl

theorem feedLane_frame (cfg : Device) (k v t : Nat) : SameBut [R.FLY_LANEk_V k] [.fly] d (feedLane d cfg k v t) :=
  ((SameBut.refl _ _ d).putFly _ (by simp)).set _ (by simp)

theorem feedLane_fly (cfg : Device) (k v t : Nat) : ∃ obs, (feedLane d cfg k v t).fly = { d.fly with obs := obs } := ⟨_, rfl⟩

theorem laneOf_lt (cfg : Device) (cx : Nat) : laneOf cfg cx < 64 := Nat.lt_succ_of_le (Nat.min_le_left _ _)

theorem capN_eq_min (hi x : Nat) : capN hi x = min hi x := by
  unfold capN
  split <;> omega

end

/-! ## A lower sighting -/

section
variable {d cfg : Device} {j : Int} {u : UpperEntry} {w : FlySight}

theorem lowerStep_alone (h : ∀ u ∈ d.fly.upper, candidate cfg u.f w = false) : lowerStep cfg j d w = observed d cfg j w false := by
  have hnone : d.fly.upper.filter (fun u => candidate cfg u.f w) = [] := List.filter_eq_nil_iff.2 fun u hu => by simp [h u hu]
  unfold lowerStep
  dsimp only
  rw [hnone]
  rfl

/-- The only candidate is the partner. -/
theorem lowerStep_paired (hupper : d.fly.upper = [u]) (hcand : candidate cfg u.f w = true) :
    lowerStep cfg j d w = matched (readLane d (laneOf cfg w.s.cx)) cfg j u w := by
  have hone : d.fly.upper.filter (fun u => candidate cfg u.f w) = [u] := by
    rw [hupper]
    exact List.filter_cons_of_pos hcand
  unfold lowerStep
  dsimp only
  rw [hone]
  rfl

/-- The speed of a matched flight at the lower line (R200). -/
def matchedSpeed (cfg : Device) (u : UpperEntry) (w : FlySight) : Nat :=
  capN 0xFFFFFFFF (meanSpeed (cfg.get F.FLY_DUL.D_UL) (stampDiff w.t u.f.t).toNat +
    (rneDiv (cfg.get F.FLY_GEFF.G * (stampDiff w.t u.f.t).toNat : Nat) 2000000000).toNat)

/-- The device from which a matched flight is delivered. -/
def pairTaken (d cfg : Device) (u : UpperEntry) (w : FlySight) : Device :=
  feedLane ((upperGone d u).count F.FLY_MATCHED.COUNT) cfg (laneOf cfg w.s.cx)
    (meanSpeed (cfg.get F.FLY_DUL.D_UL) (stampDiff w.t u.f.t).toNat) u.f.t

/-- The object of a matched flight. -/
def matchedObj (cfg : Device) (u : UpperEntry) (w : FlySight) (rows : List RowFlight) : JObj :=
  { mode := 0, flags := jfMatched, dec := w, upper := some u.f, dt := some (stampDiff w.t u.f.t).toNat, vL := some (matchedSpeed cfg u w), rows := rows }

theorem matched_eq (d cfg : Device) (j : Int) (u : UpperEntry) (w : FlySight) : ∃ rows,
    matched d cfg j u w = deliver (pairTaken d cfg u w) cfg j (matchedObj cfg u w rows) := ⟨_, rfl⟩

/-- The registers that a match may change. -/
abbrev matchRegs : List Nat := [R.FLY_UPPER, R.FLY_MATCHED, R.FLY_FLAGS] ++ (List.range 64).map R.FLY_LANEk_V

theorem lane_ne_fly (k : Nat) : R.FLY_LANEk_V k ≠ R.FLY_UPPER ∧ R.FLY_LANEk_V k ≠ R.FLY_MATCHED ∧ R.FLY_LANEk_V k ≠ R.FLT_STATUS := by
  unfold R.FLY_LANEk_V R.FLY_UPPER R.FLY_MATCHED R.FLT_STATUS
  omega

theorem pairTaken_frame (d cfg : Device) (u : UpperEntry) (w : FlySight) : SameBut matchRegs [.fly] d (pairTaken d cfg u w) := by
  have hcounted : SameBut matchRegs [.fly] d ((upperGone d u).count F.FLY_MATCHED.COUNT) :=
    ((upperGone_frame d u).mono_regs (by simp)).count _ (by simp)
  refine hcounted.then (feedLane_frame _ cfg _ _ _) (List.cons_subset.2 ⟨List.mem_append_right _ ?_, List.nil_subset _⟩) (fun _ h => h)
  exact List.mem_map.2 ⟨_, List.mem_range.2 (laneOf_lt cfg w.s.cx), rfl⟩

theorem pairTaken_spec (hupper : d.fly.upper = [u]) : (∃ obs, (pairTaken d cfg u w).fly = { d.fly with upper := [], obs := obs }) ∧
    (pairTaken d cfg u w).get F.FLY_UPPER.COUNT = 0 ∧
    (pairTaken d cfg u w).get F.FLY_MATCHED.COUNT = min (d.get F.FLY_MATCHED.COUNT + 1) 0xFFFFFFFF := by
  obtain ⟨hfly, hcount⟩ := upperGone_last hupper
  obtain ⟨hupperNe, hmatchedNe, -⟩ := lane_ne_fly (laneOf cfg w.s.cx)
  have hfed := feedLane_frame ((upperGone d u).count F.FLY_MATCHED.COUNT) cfg (laneOf cfg w.s.cx)
    (meanSpeed (cfg.get F.FLY_DUL.D_UL) (stampDiff w.t u.f.t).toNat) u.f.t
  refine ⟨?_, ?_, ?_⟩
  · obtain ⟨obs, hobs⟩ := feedLane_fly ((upperGone d u).count F.FLY_MATCHED.COUNT) cfg (laneOf cfg w.s.cx)
      (meanSpeed (cfg.get F.FLY_DUL.D_UL) (stampDiff w.t u.f.t).toNat) u.f.t
    have hcounted : ((upperGone d u).count F.FLY_MATCHED.COUNT).fly = (upperGone d u).fly := rfl
    rw [hcounted, hfly] at hobs
    exact ⟨obs, hobs⟩
  · exact (hfed.get (by simpa using hupperNe.symm)).trans ((Device.get_set_ne _ _ _ _ (.inl (by simp))).trans hcount)
  · refine (hfed.get (by simpa using hmatchedNe.symm)).trans ((Device.get_count_saturating _ _ _ (by simp)).trans ?_)
    rw [(upperGone_frame d u).get (by simp)]
    rfl

/-- What a match of the one upper sighting leaves. -/
theorem lowerStep_paired_spec (hupper : d.fly.upper = [u]) (hcand : candidate cfg u.f w = true) (hchain : cfg.bit F.PAIR_CHAIN.EN = false)
    (hruns : JudgementRuns d) : let e := lowerStep cfg j d w
    (∃ obs, e.fly = { d.fly with upper := [], obs := obs }) ∧ e.get F.FLY_UPPER.COUNT = 0 ∧
      e.get F.FLY_MATCHED.COUNT = min (d.get F.FLY_MATCHED.COUNT + 1) 0xFFFFFFFF ∧
      (∃ rows, Joined d e j (matchedObj cfg u w rows)) ∧
      SameBut matchRegs [.fly, .jud, .evt] d e := by
  intro e
  have hread := readLane_frame d (laneOf cfg w.s.cx)
  have hreadFly := readLane_fly d (laneOf cfg w.s.cx)
  generalize hd : readLane d (laneOf cfg w.s.cx) = d1 at hread hreadFly
  obtain ⟨rows, heq⟩ := matched_eq d1 cfg j u w
  have he : e = deliver (pairTaken d1 cfg u w) cfg j (matchedObj cfg u w rows) := by
    rw [← heq, ← hd]
    exact lowerStep_paired hupper hcand
  have htaken := pairTaken_frame d1 cfg u w
  obtain ⟨⟨obs, hfly⟩, hcount, hmatched⟩ := pairTaken_spec (cfg := cfg) (w := w) (d := d1) (u := u) (by rw [hreadFly, hupper])
  have hall : SameBut matchRegs [.fly, .jud, .evt] d (pairTaken d1 cfg u w) :=
    (hread.mono (by simp) (by simp)).trans (htaken.mono_parts (by simp))
  have hruns' : JudgementRuns (pairTaken d1 cfg u w) := hruns.of_frame hall (by decide)
  have hdel := he ▸ deliver_delivered (j := j) (o := matchedObj cfg u w rows) hchain hruns'
  have hobjs : (pairTaken d1 cfg u w).jud.objs = d.jud.objs :=
    congrArg Judge.objs ((htaken.parts .jud (by simp)).trans (hread.parts .jud (by simp)))
  refine ⟨⟨obs, by rw [hdel.fly, hfly, hreadFly]⟩, (hdel.frame.get (by simp)).trans hcount, ?_, ⟨rows, hdel.objs.of_objs hobjs⟩,
    hall.trans (hdel.frame.mono (List.nil_subset _) (by simp))⟩
  rw [hdel.frame.get (by simp), hmatched, hread.get (by simp)]

/-- The speed of a lower sighting on the observer path (R204). -/
def observedSpeed (d cfg : Device) (w : FlySight) : Nat :=
  lowerSpeed (cfg.get F.FLY_GEFF.G) (laneEstimate (d.laneObs (laneOf cfg w.s.cx)) w.t) (cfg.get F.FLY_DUL.D_UL)

/-- The object of an unmatched sighting. -/
def observedObj (d cfg : Device) (w : FlySight) (rows : List RowFlight) : JObj :=
  { mode := 2, flags := jfObserver, dec := w, vL := some (observedSpeed d cfg w), rows := rows }

theorem observed_eq (d cfg : Device) (j : Int) (w : FlySight) : ∃ rows, observed d cfg j w false =
    deliver ((readLane d (laneOf cfg w.s.cx)).count F.FLY_UNMATCHED.COUNT) cfg j (observedObj d cfg w rows) := ⟨_, rfl⟩

/-- What the observer path leaves. -/
theorem observed_spec (hchain : cfg.bit F.PAIR_CHAIN.EN = false) (hruns : JudgementRuns d) : let e := observed d cfg j w false
    e.fly = d.fly ∧ e.get F.FLY_UNMATCHED.COUNT = min (d.get F.FLY_UNMATCHED.COUNT + 1) 0xFFFFFFFF ∧
      (∃ rows, Joined d e j (observedObj d cfg w rows)) ∧
      SameBut [R.FLY_UNMATCHED, R.FLY_FLAGS] [.jud, .evt] d e := by
  intro e
  obtain ⟨rows, he⟩ := observed_eq d cfg j w
  have hread := readLane_frame d (laneOf cfg w.s.cx)
  have hcounted : SameBut [R.FLY_UNMATCHED, R.FLY_FLAGS] [.jud, .evt] d ((readLane d (laneOf cfg w.s.cx)).count F.FLY_UNMATCHED.COUNT) :=
    (hread.mono (by simp) (by simp)).count _ (by simp)
  have hdel : Delivered ((readLane d (laneOf cfg w.s.cx)).count F.FLY_UNMATCHED.COUNT) e j (observedObj d cfg w rows) :=
    (show e = _ from he) ▸ deliver_delivered hchain (hruns.of_frame hcounted (by decide))
  have hobjs : ((readLane d (laneOf cfg w.s.cx)).count F.FLY_UNMATCHED.COUNT).jud.objs = d.jud.objs :=
    congrArg Judge.objs (hread.parts .jud (by simp))
  refine ⟨hdel.fly.trans (hcounted.parts .fly (by simp)), (hdel.frame.get (by simp)).trans ?_, ⟨rows, hdel.objs.of_objs hobjs⟩,
    hcounted.trans (hdel.frame.mono (List.nil_subset _) (by simp))⟩
  refine (Device.get_count_saturating _ _ _ (by simp)).trans ?_
  rw [hread.get (by simp)]
  rfl

/-- The flights of a belt-mode sighting (R205). -/
def beltRows (d cfg : Device) (j : Int) (w : FlySight) : List RowFlight :=
  (rowsInUse cfg).map (fun r => rowFlight d cfg j w r (cfg.get (F.FLY_DLEr.DLE r) * 65536) w.s.cx)

theorem beltStep_delivered (hchain : cfg.bit F.PAIR_CHAIN.EN = false) (hruns : JudgementRuns d) :
    Delivered d (beltStep cfg j d w) j { mode := 3, dec := w, rows := beltRows d cfg j w } := deliver_delivered hchain hruns

theorem beltRows_map (d cfg : Device) (j : Int) (w : FlySight) : (beltRows d cfg j w).map (fun x => (x.row, x.delta, x.xE)) =
    (rowsInUse cfg).map (fun r => (r, cfg.get (F.FLY_DLEr.DLE r) * 65536, w.s.cx)) := by
  rw [beltRows, List.map_map]
  rfl

/-! ## An upper sighting that expires -/

theorem expireStep_dropped (h : splitOrCont u.f.s = true ∨ cfg.bit F.FLY_CFG.UPPER_ONLY_EN = false) :
    expireStep cfg j d u = (upperGone d u).count F.FLY_UPPER_DROP.COUNT :=
  if_pos (h.imp_right fun hoff => by rw [hoff]; exact Bool.false_ne_true)

theorem expireStep_dropped_spec (hupper : d.fly.upper = [u]) : let e := (upperGone d u).count F.FLY_UPPER_DROP.COUNT
    e.fly = { d.fly with upper := [] } ∧ e.get F.FLY_UPPER_DROP.COUNT = min (d.get F.FLY_UPPER_DROP.COUNT + 1) 0xFFFFFFFF ∧
      e.get F.FLY_UPPER.COUNT = 0 ∧ SameBut [R.FLY_UPPER, R.FLY_UPPER_DROP] [.fly] d e := by
  intro e
  obtain ⟨hfly, hcount⟩ := upperGone_last hupper
  have hgone := upperGone_frame d u
  refine ⟨hfly, (Device.get_count_saturating _ _ _ (by simp)).trans ?_, (Device.get_set_ne _ _ _ _ (.inl (by simp))).trans hcount,
    (hgone.mono_regs (by simp)).count _ (by simp)⟩
  rw [hgone.get (by simp)]
  rfl

/-- The device from which an upper-only object is delivered. -/
def upperTaken (d cfg : Device) (u : UpperEntry) : Device := (readLane (upperGone d u) (laneOf cfg u.f.s.cx)).count F.FLY_UPPER_ONLY.COUNT

theorem expireStep_delivers (hsplit : splitOrCont u.f.s = false) (hon : cfg.bit F.FLY_CFG.UPPER_ONLY_EN = true) : ∃ v rows,
    expireStep cfg j d u = deliver (upperTaken d cfg u) cfg j { mode := 2, flags := jfObserver, dec := u.f, vL := some v, rows := rows } := by
  unfold expireStep
  dsimp only
  rw [if_neg (by rw [hsplit, hon]; decide)]
  exact ⟨_, _, rfl⟩

theorem expireStep_delivers_spec (hupper : d.fly.upper = [u]) (hsplit : splitOrCont u.f.s = false) (hon : cfg.bit F.FLY_CFG.UPPER_ONLY_EN = true)
    (hchain : cfg.bit F.PAIR_CHAIN.EN = false) (hruns : JudgementRuns d) : let e := expireStep cfg j d u
    e.fly = { d.fly with upper := [] } ∧ e.get F.FLY_UPPER_ONLY.COUNT = min (d.get F.FLY_UPPER_ONLY.COUNT + 1) 0xFFFFFFFF ∧
      e.get F.FLY_UPPER.COUNT = 0 ∧
      e.jud.objs.map (fun o => (o.mode, o.flags, o.j)) = d.jud.objs.map (fun o => (o.mode, o.flags, o.j)) ++ [(2, jfObserver, j)] ∧
      e.jud.objs.getLast?.map (fun o => (o.dec, o.upper)) = some (u.f, none) ∧
      SameBut [R.FLY_UPPER, R.FLY_UPPER_ONLY, R.FLY_FLAGS] [.fly, .jud, .evt] d e := by
  intro e
  obtain ⟨v, rows, he⟩ := expireStep_delivers (d := d) (j := j) hsplit hon
  obtain ⟨hfly, hcount⟩ := upperGone_last hupper
  have hgone := upperGone_frame d u
  have hread := readLane_frame (upperGone d u) (laneOf cfg u.f.s.cx)
  have htaken : SameBut [R.FLY_UPPER, R.FLY_UPPER_ONLY, R.FLY_FLAGS] [.fly, .jud, .evt] d (upperTaken d cfg u) :=
    ((hgone.mono (by simp) (by simp)).trans (hread.mono (by simp) (by simp))).count _ (by simp)
  have hdel : Delivered (upperTaken d cfg u) e j { mode := 2, flags := jfObserver, dec := u.f, vL := some v, rows := rows } :=
    (show e = _ from he) ▸ deliver_delivered hchain (hruns.of_frame htaken (by decide))
  have hobjs : (upperTaken d cfg u).jud.objs = d.jud.objs :=
    congrArg Judge.objs ((hread.parts .jud (by simp)).trans (hgone.parts .jud (by simp)))
  have htakenFly : (upperTaken d cfg u).fly = (upperGone d u).fly := hread.parts .fly (by simp)
  refine ⟨hdel.fly.trans (htakenFly.trans hfly), (hdel.frame.get (by simp)).trans ?_, (hdel.frame.get (by simp)).trans ?_, ?_, ?_,
    htaken.trans (hdel.frame.mono (List.nil_subset _) (by simp))⟩
  · refine (Device.get_count_saturating _ _ _ (by simp)).trans ?_
    rw [hread.get (by simp), hgone.get (by simp)]
    rfl
  · exact (Device.get_set_ne _ _ _ _ (.inl (by simp))).trans ((hread.get (by simp)).trans hcount)
  · exact ((hdel.objs.of_objs hobjs).map _ fun _ _ _ _ => rfl).1
  · exact (hdel.objs.map (fun o => (o.dec, o.upper)) fun _ _ _ _ => rfl).2

end

end Sys2Proof.Machine


/-! # The flight matcher: the obligation

Each kind of step, put together from the sightings that it takes. -/

namespace Sys2Proof.Machine

section
variable {d : Device} {k : Int} {rest : List Int} {u : UpperEntry} {w : FlySight}

/-- The line is the matcher's next, and nothing else is due at it. -/
structure PlainLine (d : Device) (k : Int) (rest : List Int) : Prop where
  queue : d.fly.stepQ = k :: rest
  serve : d.pr.serve = none
  restarts : d.fly.restarts = []

theorem PlainLine.eq (h : PlainLine d k rest) :
    matcherDev d = (expiredAt (lowersStepped d k rest) k).foldl (expireStep (d.asOf k) k) (lowersStepped d k rest) :=
  matcherDev_eq h.queue h.serve (by rw [h.restarts]; exact fun a ha => absurd ha List.not_mem_nil)

/-- No upper sighting expires. -/
theorem PlainLine.eq_lowers (h : PlainLine d k rest) (hlive : ∀ u ∈ (lowersStepped d k rest).fly.upper, k < u.exp) :
    matcherDev d = lowersStepped d k rest := by
  rw [h.eq, expiredAt_nil hlive]
  rfl

/-- One upper sighting expires on a line without a lower one. -/
theorem PlainLine.eq_expire (h : PlainLine d k rest) (hlower : d.fly.lower = []) (hupper : d.fly.upper = [u]) (hexp : u.exp ≤ k) :
    matcherDev d = expireStep (d.asOf k) k (lineTakenUp d rest []) u := by
  have hlowers : lowersStepped d k rest = lineTakenUp d rest [] := by
    rw [lowersStepped_none (by rw [hlower]; exact fun w hw => absurd hw List.not_mem_nil), hlower]
  rw [h.eq, hlowers, expiredAt_one (e := lineTakenUp d rest []) hupper hexp]
  rfl

theorem JudgementRuns.lineTakenUp (h : JudgementRuns d) (rest : List Int) (lower : List FlySight) : JudgementRuns (lineTakenUp d rest lower) :=
  h.of_frame (lineTakenUp_frame d rest lower) (by simp)

/-- In free fall the one lower sighting of the line is stepped. -/
theorem lowersStepped_freeFall (hlower : d.fly.lower = [w]) (hform : w.s.form ≤ k) (hmode : (d.asOf k).bit F.FLY_CFG.MODE = false) :
    lowersStepped d k rest = lowerStep (d.asOf k) k (lineTakenUp d rest []) w := by
  rw [lowersStepped_one hlower hform, hmode]
  rfl

theorem lowersStepped_belt (hlower : d.fly.lower = [w]) (hform : w.s.form ≤ k) (hmode : (d.asOf k).bit F.FLY_CFG.MODE = true) :
    lowersStepped d k rest = beltStep (d.asOf k) k (lineTakenUp d rest []) w := by
  rw [lowersStepped_one hlower hform, hmode]
  rfl

theorem matcherDev_unused (hq : d.fly.stepQ = k :: rest) (hserve : d.pr.serve = none) (hlower : ∀ w ∈ d.fly.lower, k < w.s.form)
    (hupper : ∀ u ∈ d.fly.upper, k < u.exp) (hrestarts : ∀ a ∈ d.fly.restarts, k < a) : matcherDev d = lineTakenUp d rest d.fly.lower := by
  rw [matcherDev_eq hq hserve hrestarts, lowersStepped_none hlower, expiredAt_nil (e := lineTakenUp d rest d.fly.lower) hupper]
  rfl

/-- A lower sighting with one candidate (R197, R200). -/
theorem matcherDev_matched (h : PlainLine d k rest) (hruns : JudgementRuns d) (hlower : d.fly.lower = [w]) (hform : w.s.form ≤ k)
    (hupper : d.fly.upper = [u]) (hcand : candidate (d.asOf k) u.f w = true) (hmode : (d.asOf k).bit F.FLY_CFG.MODE = false)
    (hchain : (d.asOf k).bit F.PAIR_CHAIN.EN = false) : let e := matcherDev d
    (∃ obs, e.fly = { d.fly with stepQ := rest, lower := [], upper := [], obs := obs }) ∧ e.get F.FLY_UPPER.COUNT = 0 ∧
      e.get F.FLY_MATCHED.COUNT = min (d.get F.FLY_MATCHED.COUNT + 1) 0xFFFFFFFF ∧
      (∃ rows, Joined d e k (matchedObj (d.asOf k) u w rows)) ∧ SameBut matchRegs [.fly, .jud, .evt] d e := by
  intro e
  obtain ⟨⟨obs, hfly⟩, hcount, hmatched, ⟨rows, hjoined⟩, hframe⟩ := lowerStep_paired_spec (d := lineTakenUp d rest []) (cfg := d.asOf k) (j := k)
    (u := u) (w := w) hupper hcand hchain (hruns.lineTakenUp rest [])
  have hlowers := lowersStepped_freeFall (rest := rest) hlower hform hmode
  have hnone : ∀ u ∈ (lowersStepped d k rest).fly.upper, k < u.exp := by
    rw [hlowers, hfly]
    exact fun u hu => absurd hu List.not_mem_nil
  have he : e = lowerStep (d.asOf k) k (lineTakenUp d rest []) w := (h.eq_lowers hnone).trans hlowers
  rw [he]
  exact ⟨⟨obs, hfly⟩, hcount, hmatched, ⟨rows, hjoined.of_objs rfl⟩, ((lineTakenUp_frame d rest []).mono (List.nil_subset _) (by simp)).trans hframe⟩

/-- A lower sighting without a candidate (R204). -/
theorem matcherDev_observed (h : PlainLine d k rest) (hruns : JudgementRuns d) (hlower : d.fly.lower = [w]) (hform : w.s.form ≤ k)
    (hupper : ∀ u ∈ d.fly.upper, k < u.exp ∧ candidate (d.asOf k) u.f w = false) (hmode : (d.asOf k).bit F.FLY_CFG.MODE = false)
    (hchain : (d.asOf k).bit F.PAIR_CHAIN.EN = false) : let e := matcherDev d
    e.fly = { d.fly with stepQ := rest, lower := [] } ∧ e.get F.FLY_UNMATCHED.COUNT = min (d.get F.FLY_UNMATCHED.COUNT + 1) 0xFFFFFFFF ∧
      (∃ rows, Joined d e k (observedObj d (d.asOf k) w rows)) ∧ SameBut [R.FLY_UNMATCHED, R.FLY_FLAGS] [.fly, .jud, .evt] d e := by
  intro e
  obtain ⟨hfly, hcount, ⟨rows, hjoined⟩, hframe⟩ := observed_spec (d := lineTakenUp d rest []) (cfg := d.asOf k) (j := k) (w := w) hchain
    (hruns.lineTakenUp rest [])
  have hlowers : lowersStepped d k rest = observed (lineTakenUp d rest []) (d.asOf k) k w false :=
    (lowersStepped_freeFall hlower hform hmode).trans (lowerStep_alone fun u hu => (hupper u hu).2)
  have hlive : ∀ u ∈ (lowersStepped d k rest).fly.upper, k < u.exp := by
    rw [hlowers, hfly]
    exact fun u hu => (hupper u hu).1
  have he : e = observed (lineTakenUp d rest []) (d.asOf k) k w false := (h.eq_lowers hlive).trans hlowers
  rw [he]
  exact ⟨hfly, hcount, ⟨rows, hjoined.of_objs rfl⟩,
    ((lineTakenUp_frame d rest []).mono (List.nil_subset _) (by simp)).trans (hframe.mono_parts (by simp))⟩

/-- A lower sighting in belt mode (R205). -/
theorem matcherDev_belt (h : PlainLine d k rest) (hruns : JudgementRuns d) (hlower : d.fly.lower = [w]) (hform : w.s.form ≤ k)
    (hupper : d.fly.upper = []) (hmode : (d.asOf k).bit F.FLY_CFG.MODE = true) (hchain : (d.asOf k).bit F.PAIR_CHAIN.EN = false) :
    let e := matcherDev d
    e.fly = { d.fly with stepQ := rest, lower := [] } ∧
      Joined d e k { mode := 3, dec := w, rows := beltRows (lineTakenUp d rest []) (d.asOf k) k w } ∧ SameBut [] [.fly, .jud] d e := by
  intro e
  have hdel := beltStep_delivered (d := lineTakenUp d rest []) (j := k) (w := w) hchain (hruns.lineTakenUp rest [])
  have hlowers := lowersStepped_belt (rest := rest) hlower hform hmode
  have hnone : ∀ u ∈ (lowersStepped d k rest).fly.upper, k < u.exp := by
    rw [hlowers, hdel.fly, show (lineTakenUp d rest []).fly.upper = [] from hupper]
    exact fun u hu => absurd hu List.not_mem_nil
  have he : e = beltStep (d.asOf k) k (lineTakenUp d rest []) w := (h.eq_lowers hnone).trans hlowers
  rw [he]
  exact ⟨hdel.fly, hdel.objs.of_objs rfl, ((lineTakenUp_frame d rest []).mono_parts (by simp)).trans (hdel.frame.mono_parts (by simp))⟩

theorem lineTakenUp_fly_upper (hlower : d.fly.lower = []) :
    ({ (lineTakenUp d rest []).fly with upper := [] } : Fly) = { d.fly with stepQ := rest, upper := [] } := by
  rw [← hlower]
  rfl

end

/-- Settles O20, clause by clause, from the kinds of step. -/
theorem flightMatcher : Obligations.FlightMatcher := by
  unfold Obligations.FlightMatcher
  refine ⟨?_, ?_, ?_, ?_, ?_, ?_, ?_⟩
  · intro s hq
    exact ⟨_, (exec_flightMatcherStep s).trans (congrArg s.done (matcherDev_idle hq)), rfl⟩
  · intro k rest s ⟨hq, hserve⟩ ⟨hlower, hupper, hrestarts⟩
    exact ⟨_, (exec_flightMatcherStep s).trans (congrArg s.done (matcherDev_unused hq hserve hlower hupper hrestarts)), rfl, lineTakenUp_frame _ _ _⟩
  · intro k rest u w s ⟨hq, hserve, hrestarts, hsafe, hreset⟩ ⟨hlower, hform, hupper, _, hcand⟩ ⟨hmode, hchain⟩
    obtain ⟨⟨obs, hfly⟩, hcount, hmatched, ⟨rows, hjoined⟩, hframe⟩ :=
      matcherDev_matched ⟨hq, hserve, hrestarts⟩ ⟨hsafe, hreset⟩ hlower hform hupper hcand hmode hchain
    refine ⟨_, exec_flightMatcherStep s, by rw [hfly], by rw [hfly], by rw [hfly], hcount, hmatched, ?_, ?_, ?_, hframe⟩
    · exact (hjoined.map _ fun _ _ _ _ => rfl).1
    · exact (hjoined.map (fun o => (o.dec, o.upper)) fun _ _ _ _ => rfl).2
    · rw [← capN_eq_min]
      exact (hjoined.map JObj.vL fun _ _ _ _ => rfl).2
  · intro k rest w s ⟨hq, hserve, hrestarts, hsafe, hreset⟩ ⟨hlower, hform, hupper⟩ ⟨hmode, hchain⟩
    obtain ⟨hfly, hcount, ⟨rows, hjoined⟩, hframe⟩ :=
      matcherDev_observed ⟨hq, hserve, hrestarts⟩ ⟨hsafe, hreset⟩ hlower hform hupper hmode hchain
    refine ⟨_, exec_flightMatcherStep s, hfly, hcount, ?_, ?_, ?_, hframe⟩
    · exact (hjoined.map _ fun _ _ _ _ => rfl).1
    · exact (hjoined.map (fun o => (o.dec, o.upper)) fun _ _ _ _ => rfl).2
    · exact (hjoined.map JObj.vL fun _ _ _ _ => rfl).2
  · intro k rest u s ⟨hq, hserve, hrestarts⟩ ⟨hlower, hupper, hexp, hoff⟩
    obtain ⟨hfly, hdrop, hcount, hframe⟩ := expireStep_dropped_spec (d := lineTakenUp s.dev rest []) (u := u) hupper
    have heq := (PlainLine.eq_expire ⟨hq, hserve, hrestarts⟩ hlower hupper hexp).trans (expireStep_dropped (.inr hoff))
    exact ⟨_, (exec_flightMatcherStep s).trans (congrArg s.done heq), hfly.trans (lineTakenUp_fly_upper hlower), hdrop, hcount,
      ((lineTakenUp_frame s.dev rest []).mono_regs (List.nil_subset _)).trans hframe⟩
  · intro k rest u s ⟨hq, hserve, hrestarts, hsafe, hreset⟩ ⟨hlower, hupper, hexp, hsplit⟩ ⟨hon, hchain⟩
    obtain ⟨hfly, honly, hcount, hobjs, hlast, hframe⟩ := expireStep_delivers_spec (d := lineTakenUp s.dev rest []) (u := u) (j := k) hupper hsplit hon
      hchain (JudgementRuns.lineTakenUp ⟨hsafe, hreset⟩ rest [])
    have heq := PlainLine.eq_expire ⟨hq, hserve, hrestarts⟩ hlower hupper hexp
    exact ⟨_, (exec_flightMatcherStep s).trans (congrArg s.done heq), hfly.trans (lineTakenUp_fly_upper hlower), honly, hcount, hobjs, hlast,
      ((lineTakenUp_frame s.dev rest []).mono (List.nil_subset _) (by simp)).trans hframe⟩
  · intro k rest w s ⟨hq, hserve, hrestarts, hsafe, hreset⟩ ⟨hlower, hform, hupper⟩ ⟨hmode, hchain⟩
    obtain ⟨hfly, hjoined, hframe⟩ := matcherDev_belt ⟨hq, hserve, hrestarts⟩ ⟨hsafe, hreset⟩ hlower hform hupper hmode hchain
    refine ⟨_, exec_flightMatcherStep s, hfly, ?_, ?_, ?_, hframe⟩
    · exact (hjoined.map _ fun _ _ _ _ => rfl).1
    · exact (hjoined.map (fun o => (o.dec, o.vL)) fun _ _ _ _ => rfl).2
    · rw [(hjoined.map JObj.rows fun _ _ _ _ => rfl).2, Option.map_some]
      exact congrArg some (beltRows_map _ _ _ _)

end Sys2Proof.Machine


/-! # Alignment of a receive lane

What a group does to a lane in HUNT, ACQ and SYNC, before its port follows (R35 to R37, R41, Table 2.3). -/

namespace Sys2Proof.Machine

theorem exec_codeGroupReceive (l : Lane) (group : BitVec 10) (phase : Fin 10) (t : Nat) (s : State) : exec (.codeGroupReceive l group phase t) s =
    s.done (portReceive l (laneCheck l (lnGroup s.dev l group.toNat phase t))) := rfl
theorem exec_scoreDecay (l : Lane) (s : State) : exec (.scoreDecay l) s = s.done (lnScoreDecay s.dev l) := rfl

section
variable {d : Device} {l : Lane} {g ph t : Nat}

/-- An 8b/10b receive lane that takes groups as they come. -/
structure Coded (d : Device) (l : Lane) : Prop where
  rx : laneIsRx l = true
  eth : laneIsEth l = false
  prbs : prbsOn d l = false
  polinv : d.bit (F.LN_CTRL.POLINV (laneBase l)) = false

theorem coded_of (hlane : laneIsRx l = true ∧ laneIsEth l = false)
    (hctrl : d.get (F.LN_CTRL.PRBS (laneBase l)) = 0 ∧ d.bit (F.LN_CTRL.POLINV (laneBase l)) = false) : Coded d l :=
  ⟨hlane.1, hlane.2, by rw [prbsOn, hctrl.1]; rfl, hctrl.2⟩

/-- The running disparity is written. -/
def rdSet (d : Device) (l : Lane) (rd : Bool) : Device := d.setBit (F.LN_STATUS.RD (laneBase l)) rd

theorem rdSet_frame (d : Device) (l : Lane) (rd : Bool) : SameBut [R.LN_STATUS (laneBase l)] [] d (rdSet d l rd) := (SameBut.refl _ _ d).setBit _ (by simp)

theorem rdSet_state (d : Device) (l : Lane) (rd : Bool) : (rdSet d l rd).lnState l = d.lnState l := Device.get_set_ne _ _ _ _ (.inr (.inr (by simp)))

theorem rdSet_bit (d : Device) (l : Lane) (rd : Bool) : (rdSet d l rd).bit (F.LN_STATUS.RD (laneBase l)) = rd :=
  Device.bit_setBit_self _ _ rfl (by simp)

/-! ## Writing the lane and entering a state -/

/-- The lane's own state is written and a state entered. -/
def laneMoved (d : Device) (l : Lane) (x : LaneX) (st : Nat) : Device := (d.setLaneX l x).lnEnter l st

theorem laneMoved_state (x : LaneX) {st : Nat} (h : st < 16) : (laneMoved d l x st).lnState l = st := lnEnter_state _ l h

theorem setLaneX_frame (d : Device) (l : Lane) (x : LaneX) : SameBut [] [.lanes] d (d.setLaneX l x) := (SameBut.refl _ _ d).setLaneX _ _ (by simp)

theorem laneMoved_frame (d : Device) (l : Lane) (x : LaneX) (st : Nat) : SameBut (enterRegs l) [.lanes] d (laneMoved d l x st) :=
  ((setLaneX_frame d l x).mono_regs (List.nil_subset _)).trans (lnEnter_frame_enterRegs _ l st)

theorem laneMoved_ne (x : LaneX) (st : Nat) {k : Lane} (h : k ≠ l) : (laneMoved d l x st).laneX k = d.laneX k :=
  (lnEnter_laneX_ne _ l st h).trans (Device.laneX_setLaneX_ne d h x)

/-- Outside SYNC the lane's own state is that written. -/
theorem laneMoved_self (x : LaneX) {st : Nat} (h : d.lnState l ≠ lnSync) : (laneMoved d l x st).laneX l = x := by
  have hkept : (d.setLaneX l x).lnState l = d.lnState l := (setLaneX_frame d l x).get (by simp)
  exact ((lnEnter_frame_of_kept _ l st (.inl (by rwa [hkept]))).laneX (by simp) l).trans (Device.laneX_setLaneX_self d l x)

/-- A lane that leaves SYNC forgets what it has passed on. -/
theorem lnEnter_laneX_leaving {st : Nat} (hsync : d.lnState l = lnSync) (hst : st ≠ lnSync) :
    (d.lnEnter l st).laneX l = { d.laneX l with rx := [] } := by
  have hshown : (d.lnEnter l st).laneX l = (laneEntered d l st).laneX l := by
    rw [lnEnter_eq]
    exact congrArg (fun v : Vector LaneX 88 => unit v (laneIdx l)) (syncShown_lanes _ l st)
  rw [hshown, laneEntered, if_pos ⟨hsync, hst⟩, Device.laneX_setLaneX_self]

/-! ## The group as it is read -/

/-- The lane has taken the phase of a comma. -/
def phaseTaken (d : Device) (l : Lane) (ph : Nat) : Device := d.setLaneX l { d.laneX l with phase := ph, acq := 1 }

theorem phaseTaken_frame (d : Device) (l : Lane) (ph : Nat) : SameBut [] [.lanes] d (phaseTaken d l ph) := setLaneX_frame d l _

theorem phaseTaken_laneX (d : Device) (l : Lane) (ph : Nat) : (phaseTaken d l ph).laneX l = { d.laneX l with phase := ph, acq := 1 } :=
  Device.laneX_setLaneX_self d l _

theorem phaseTaken_laneX_ne (ph : Nat) {k : Lane} (h : k ≠ l) : (phaseTaken d l ph).laneX k = d.laneX k := Device.laneX_setLaneX_ne d h _

theorem lnGroup_of_hunt (h : Coded d l) (hstate : d.lnState l = lnHunt) {rd : Bool} (hcomma : commaRd g = some rd) : lnGroup d l g ph t =
    (rdSet (phaseTaken d l ph) l (rdAfter rd g)).lnEnter l lnAcq := by
  simp only [lnGroup, h.polinv, h.rx, h.prbs, h.eth, hstate, hcomma, Bool.false_eq_true, not_true_eq_false, if_false, if_true]
  rfl

/-- The device after a symbol `s` has been read at the phase taken: counted where it is invalid, the disparity followed. -/
def symbolRead (d : Device) (l : Lane) (g : Nat) (s : Symbol) : Device :=
  rdSet (lnCountForm (lnCountInvalid d l s) l (d.bit (F.LN_STATUS.RD (laneBase l))) g s) l (rdAfter (d.bit (F.LN_STATUS.RD (laneBase l))) g)

/-- What the symbol `s` does to a lane in ACQ. -/
def acqStep (e : Device) (l : Lane) (x : LaneX) (s : Symbol) : Device :=
  if ¬ s.valid then (e.setLaneX l { x with acq := 0 }).lnEnter l lnHunt
  else if s = .ctl 0xBC then
    if x.acq + 1 = 3 then (e.setLaneX l { x with acq := 0, score := 0, validRun := 0 }).lnEnter l lnSync
    else e.setLaneX l { x with acq := x.acq + 1 }
  else e

/-- What the symbol `s` does to a lane in SYNC. -/
def syncStep (e : Device) (l : Lane) (x : LaneX) (t : Nat) (s : Symbol) : Device :=
  match s with
  | .data v => e.setLaneX l { lnPass x t (.data (BitVec.ofNat 8 v)) with validRun := x.validRun + 1 }
  | .ctl k => e.setLaneX l { lnPass x t (.ctl k) with validRun := x.validRun + 1 }
  | _ => lnBadSymbol e l t

theorem lnGroup_of_acq (h : Coded d l) (hstate : d.lnState l = lnAcq) (hphase : (d.laneX l).phase = ph) {s : Symbol}
    (hs : decodeGroup (d.bit (F.LN_STATUS.RD (laneBase l))) g = s) : lnGroup d l g ph t = acqStep (symbolRead d l g s) l (d.laneX l) s := by
  have hhunt : lnAcq ≠ lnHunt := by decide
  subst hphase
  simp only [lnGroup, h.polinv, h.rx, h.prbs, h.eth, hstate, hhunt, hs, Bool.false_eq_true, not_true_eq_false, true_or, if_false, if_true]
  rfl

theorem lnGroup_of_sync (h : Coded d l) (hstate : d.lnState l = lnSync) (hphase : (d.laneX l).phase = ph) {s : Symbol}
    (hs : decodeGroup (d.bit (F.LN_STATUS.RD (laneBase l))) g = s) : lnGroup d l g ph t = syncStep (symbolRead d l g s) l (d.laneX l) t s := by
  have hhunt : lnSync ≠ lnHunt := by decide
  have hacq : lnSync ≠ lnAcq := by decide
  subst hphase
  simp only [lnGroup, h.polinv, h.rx, h.prbs, h.eth, hstate, hhunt, hacq, hs, Bool.false_eq_true, not_true_eq_false, or_true, if_false, if_true]
  cases s <;> rfl

/-- A valid symbol is counted nowhere. -/
theorem symbolRead_of_valid {s : Symbol} (h : s.valid = true) : symbolRead d l g s = rdSet d l (rdAfter (d.bit (F.LN_STATUS.RD (laneBase l))) g) := by
  cases s with
  | data v => rfl
  | ctl k => rfl
  | codeErr | dispErr | unknownK => exact absurd h (by decide)

/-- An invalid symbol of the count `c` and the flag `f`. -/
def invalidCounted (d : Device) (c f : Fld) : Device := (d.count c).raise f

theorem symbolRead_codeErr : symbolRead d l g .codeErr = rdSet (invalidCounted d (F.LN_CODE_ERR.COUNT (laneBase l)) (F.LN_FLAGS.CODE_ERR (laneBase l))) l
    (rdAfter (d.bit (F.LN_STATUS.RD (laneBase l))) g) := rfl

theorem symbolRead_dispErr : symbolRead d l g .dispErr = rdSet (invalidCounted d (F.LN_DISP_ERR.COUNT (laneBase l)) (F.LN_FLAGS.DISP_ERR (laneBase l))) l
    (rdAfter (d.bit (F.LN_STATUS.RD (laneBase l))) g) := rfl

/-! ## HUNT and ACQ -/

/-- A comma in HUNT. -/
theorem hunt_comma_spec (hstate : d.lnState l = lnHunt) (rd : Bool) : let e := (rdSet (phaseTaken d l ph) l rd).lnEnter l lnAcq
    e.lnState l = lnAcq ∧ (e.laneX l).phase = ph ∧ (e.laneX l).acq = 1 ∧ (e.laneX l).rx = (d.laneX l).rx ∧
      e.bit (F.LN_STATUS.RD (laneBase l)) = rd ∧ (∀ k : Lane, k ≠ l → e.laneX k = d.laneX k) ∧ SameBut (laneRegs l) [.lanes] d e := by
  intro e
  have hset := phaseTaken_frame d l ph
  have hrd := rdSet_frame (phaseTaken d l ph) l rd
  have hbefore : (rdSet (phaseTaken d l ph) l rd).lnState l ≠ lnSync := by
    have hkept : (phaseTaken d l ph).lnState l = d.lnState l := hset.get (by simp)
    rw [rdSet_state, hkept, hstate]
    decide
  have hentered := lnEnter_frame_of_kept (rdSet (phaseTaken d l ph) l rd) l lnAcq (.inl hbefore)
  have hlane (k : Lane) : e.laneX k = (phaseTaken d l ph).laneX k := (hentered.laneX (by simp) k).trans (hrd.laneX (by simp) k)
  refine ⟨lnEnter_state _ l (by decide), ?_, ?_, ?_, ?_, fun k hk => (hlane k).trans (phaseTaken_laneX_ne ph hk), ?_⟩
  · rw [hlane, phaseTaken_laneX]
  · rw [hlane, phaseTaken_laneX]
  · rw [hlane, phaseTaken_laneX]
  · have hbit : e.get (F.LN_STATUS.RD (laneBase l)) = (rdSet (phaseTaken d l ph) l rd).get (F.LN_STATUS.RD (laneBase l)) :=
      lnEnter_status_get _ l _ rfl (by simp)
    have hread := rdSet_bit (phaseTaken d l ph) l rd
    unfold Device.bit at hread ⊢
    rw [hbit, hread]
  · exact ((hset.mono_regs (List.nil_subset _)).trans (hrd.mono (by simp [laneRegs]) (List.nil_subset _))).trans
      (hentered.mono (enterRegs_subset_laneRegs l) (List.nil_subset _))

/-- The third comma in ACQ. -/
theorem acq_third_spec (hstate : d.lnState l = lnAcq) (rd : Bool) :
    let e := laneMoved (rdSet d l rd) l { d.laneX l with acq := 0, score := 0, validRun := 0 } lnSync
    e.lnState l = lnSync ∧ (e.laneX l).score = 0 ∧ (e.laneX l).rx = (d.laneX l).rx ∧ (∀ k : Lane, k ≠ l → e.laneX k = d.laneX k) ∧
      SameBut (laneRegs l) [.lanes] d e := by
  intro e
  have hrd := rdSet_frame d l rd
  have hself : e.laneX l = { d.laneX l with acq := 0, score := 0, validRun := 0 } :=
    laneMoved_self _ (by rw [rdSet_state, hstate]; decide)
  refine ⟨laneMoved_state _ (by decide), by rw [hself], by rw [hself], fun k hk => (laneMoved_ne _ _ hk).trans (hrd.laneX (by simp) k), ?_⟩
  exact (hrd.mono (by simp [laneRegs]) (List.nil_subset _)).trans ((laneMoved_frame _ l _ _).mono_regs (enterRegs_subset_laneRegs l))

theorem invalidCounted_frame (d : Device) (c f : Fld) : SameBut [c.addr, f.addr] [.evt] d (invalidCounted d c f) :=
  ((SameBut.refl _ _ d).count _ (by simp)).raise (by simp) (by simp)

/-- A group with a code error in ACQ. -/
theorem acq_codeErr_spec (rd : Bool) :
    let e := laneMoved (rdSet (invalidCounted d (F.LN_CODE_ERR.COUNT (laneBase l)) (F.LN_FLAGS.CODE_ERR (laneBase l))) l rd) l
      { d.laneX l with acq := 0 } lnHunt
    e.lnState l = lnHunt ∧ e.get (F.LN_FLAGS.CODE_ERR (laneBase l)) = 1 ∧
      e.get (F.LN_CODE_ERR.COUNT (laneBase l)) = min (d.get (F.LN_CODE_ERR.COUNT (laneBase l)) + 1) 0xFFFFFFFF ∧
      (∀ k : Lane, k ≠ l → e.laneX k = d.laneX k) ∧
      SameBut (laneRegs l ++ [R.LN_FLAGS (laneBase l), R.LN_CODE_ERR (laneBase l)]) [.lanes, .evt] d e := by
  intro e
  obtain ⟨hcount, hflag, hcounted⟩ := counted_flagged (d := d) (c := F.LN_CODE_ERR.COUNT (laneBase l)) (f := F.LN_FLAGS.CODE_ERR (laneBase l))
    (by simp) (by simp) rfl (by simp)
  have hrd := rdSet_frame (invalidCounted d (F.LN_CODE_ERR.COUNT (laneBase l)) (F.LN_FLAGS.CODE_ERR (laneBase l))) l rd
  have hslot {f : Fld} (hf : InSlot l f.addr) (hne : f.addr ≠ R.LN_STATUS (laneBase l) ∧ f.addr ≠ R.LN_EYE (laneBase l)) :
      e.get f = (invalidCounted d (F.LN_CODE_ERR.COUNT (laneBase l)) (F.LN_FLAGS.CODE_ERR (laneBase l))).get f :=
    (lnEnter_get _ l _ hf hne).trans (((setLaneX_frame _ l _).get (by simp)).trans (hrd.get (by simpa using hne.1)))
  refine ⟨laneMoved_state _ (by decide), ?_, ?_, fun k hk => ?_, ?_⟩
  · exact (hslot (inSlot_flags l) (by simp)).trans hflag
  · exact (hslot (by unfold InSlot; simp only [R.LN_CODE_ERR]; omega) (by simp)).trans hcount
  · exact (laneMoved_ne _ _ hk).trans ((hrd.laneX (by simp) k).trans ((invalidCounted_frame d _ _).laneX (by simp) k))
  · exact (((invalidCounted_frame d _ _).mono (by simp) (by simp)).trans (hrd.mono (by simp [laneRegs]) (List.nil_subset _))).trans
      ((laneMoved_frame _ l _ _).mono (fun a ha => List.mem_append_left _ (enterRegs_subset_laneRegs l ha)) (by simp))

end

end Sys2Proof.Machine


/-! # Alignment of a receive lane: SYNC

Groups of a lane in SYNC, the score and its decay, and the obligation (Table 2.3). -/

namespace Sys2Proof.Machine

section
variable {d : Device} {l : Lane} {t : Nat}

/-! ## A valid group -/

/-- The lane passes a data symbol on. -/
def dataPassed (d : Device) (l : Lane) (t v : Nat) : Device :=
  d.setLaneX l { lnPass (d.laneX l) t (.data (BitVec.ofNat 8 v)) with validRun := (d.laneX l).validRun + 1 }

theorem dataPassed_laneX (v : Nat) : (dataPassed d l t v).laneX l =
    { lnPass (d.laneX l) t (.data (BitVec.ofNat 8 v)) with validRun := (d.laneX l).validRun + 1 } := Device.laneX_setLaneX_self d l _

theorem sync_data_spec (hstate : d.lnState l = lnSync) (rd : Bool) (v : Nat) : let e := dataPassed (rdSet d l rd) l t v
    e.lnState l = lnSync ∧ (e.laneX l).rx = (d.laneX l).rx ++ [((t : Int), .data (BitVec.ofNat 8 v))] ∧ (e.laneX l).rxAt = t ∧
      (e.laneX l).validRun = (d.laneX l).validRun + 1 ∧ (e.laneX l).score = (d.laneX l).score ∧ e.bit (F.LN_STATUS.RD (laneBase l)) = rd ∧
      (∀ k : Lane, k ≠ l → e.laneX k = d.laneX k) ∧ SameBut (laneRegs l) [.lanes] d e := by
  intro e
  have hrd := rdSet_frame d l rd
  have hpass : SameBut [] [.lanes] (rdSet d l rd) e := setLaneX_frame _ l _
  have hlane : (rdSet d l rd).laneX l = d.laneX l := hrd.laneX (by simp) l
  have hself := dataPassed_laneX (d := rdSet d l rd) (l := l) (t := t) v
  rw [hlane] at hself
  refine ⟨(hpass.get (by simp)).trans ((rdSet_state d l rd).trans hstate), ?_, ?_, ?_, ?_, (hpass.bit (by simp)).trans (rdSet_bit d l rd), fun k hk => ?_, ?_⟩
  · exact congrArg LaneX.rx hself
  · exact congrArg LaneX.rxAt hself
  · exact congrArg LaneX.validRun hself
  · exact (congrArg LaneX.score hself).trans rfl
  · exact (Device.laneX_setLaneX_ne _ hk _).trans (hrd.laneX (by simp) k)
  · exact (hrd.mono (by simp [laneRegs]) (List.nil_subset _)).trans (hpass.mono_regs (List.nil_subset _))

/-! ## An invalid symbol -/

/-- The symbol is passed on as invalid and scored. -/
def badPassed (d : Device) (l : Lane) (t : Nat) : Device :=
  d.setLaneX l { lnPass (d.laneX l) t .invalid with score := (d.laneX l).score + 1, validRun := 0 }

/-- Alignment is lost. -/
def alignLost (d : Device) (l : Lane) : Device :=
  ((d.setLaneX l { d.laneX l with score := 0, validRun := 0 }).count (F.LN_ALIGN_LOSS.COUNT (laneBase l))).raise (F.LN_FLAGS.ALIGN_LOST (laneBase l))

theorem lnBadSymbol_passed (h : (d.laneX l).score ≠ 3) : lnBadSymbol d l t = badPassed d l t := if_neg (by omega)

theorem lnBadSymbol_lost (h : (d.laneX l).score = 3) : lnBadSymbol d l t = (alignLost d l).lnEnter l lnHunt := if_pos (by omega)

theorem badPassed_frame (d : Device) (l : Lane) (t : Nat) : SameBut [] [.lanes] d (badPassed d l t) := setLaneX_frame d l _

theorem badPassed_laneX : (badPassed d l t).laneX l = { lnPass (d.laneX l) t .invalid with score := (d.laneX l).score + 1, validRun := 0 } :=
  Device.laneX_setLaneX_self d l _

theorem alignLost_frame (d : Device) (l : Lane) : SameBut [R.LN_FLAGS (laneBase l), R.LN_ALIGN_LOSS (laneBase l)] [.lanes, .evt] d (alignLost d l) :=
  (((SameBut.refl _ _ d).setLaneX _ _ (by simp)).count _ (by simp)).raise (by simp) (by simp)

theorem alignLost_counted : (alignLost d l).get (F.LN_ALIGN_LOSS.COUNT (laneBase l)) = min (d.get (F.LN_ALIGN_LOSS.COUNT (laneBase l)) + 1) 0xFFFFFFFF ∧
    (alignLost d l).get (F.LN_FLAGS.ALIGN_LOST (laneBase l)) = 1 := by
  have hset := setLaneX_frame d l { d.laneX l with score := 0, validRun := 0 }
  obtain ⟨hcount, hflag, -⟩ := counted_flagged (d := d.setLaneX l { d.laneX l with score := 0, validRun := 0 })
    (c := F.LN_ALIGN_LOSS.COUNT (laneBase l)) (f := F.LN_FLAGS.ALIGN_LOST (laneBase l)) (by simp) (by simp) rfl (by simp)
  rw [hset.get (by simp)] at hcount
  exact ⟨hcount, hflag⟩

theorem alignLost_laneX : (alignLost d l).laneX l = { d.laneX l with score := 0, validRun := 0 } := by
  have hcounted := invalidCounted_frame (d.setLaneX l { d.laneX l with score := 0, validRun := 0 }) (F.LN_ALIGN_LOSS.COUNT (laneBase l))
    (F.LN_FLAGS.ALIGN_LOST (laneBase l))
  exact (hcounted.laneX (by simp) l).trans (Device.laneX_setLaneX_self d l _)

theorem alignLost_laneX_ne {k : Lane} (h : k ≠ l) : (alignLost d l).laneX k = d.laneX k := by
  have hcounted := invalidCounted_frame (d.setLaneX l { d.laneX l with score := 0, validRun := 0 }) (F.LN_ALIGN_LOSS.COUNT (laneBase l))
    (F.LN_FLAGS.ALIGN_LOST (laneBase l))
  exact (hcounted.laneX (by simp) k).trans (Device.laneX_setLaneX_ne d h _)

/-- What an invalid symbol in SYNC leaves, by the score before it. -/
theorem lnBadSymbol_spec (hstate : d.lnState l = lnSync) : let e := lnBadSymbol d l t
    e.lnState l = (if (d.laneX l).score = 3 then lnHunt else lnSync) ∧
      (e.laneX l).score = (if (d.laneX l).score = 3 then 0 else (d.laneX l).score + 1) ∧
      (e.laneX l).rx = (if (d.laneX l).score = 3 then [] else (d.laneX l).rx ++ [((t : Int), .invalid)]) ∧
      e.get (F.LN_DISP_ERR.COUNT (laneBase l)) = d.get (F.LN_DISP_ERR.COUNT (laneBase l)) ∧
      ((d.laneX l).score = 3 → e.get (F.LN_FLAGS.ALIGN_LOST (laneBase l)) = 1 ∧
        e.get (F.LN_ALIGN_LOSS.COUNT (laneBase l)) = min (d.get (F.LN_ALIGN_LOSS.COUNT (laneBase l)) + 1) 0xFFFFFFFF) ∧
      (∀ k : Lane, k ≠ l → e.laneX k = d.laneX k) ∧
      SameBut (laneRegs l ++ [R.LN_FLAGS (laneBase l), R.LN_ALIGN_LOSS (laneBase l)]) [.lanes, .evt] d e := by
  intro e
  by_cases hscore : (d.laneX l).score = 3
  · have he : e = (alignLost d l).lnEnter l lnHunt := lnBadSymbol_lost hscore
    have hlost := alignLost_frame d l
    have hsync : (alignLost d l).lnState l = lnSync := (hlost.get (by simp)).trans hstate
    have hself : e.laneX l = { d.laneX l with score := 0, validRun := 0, rx := [] } := by
      rw [he, lnEnter_laneX_leaving hsync (by decide), alignLost_laneX]
    obtain ⟨hcount, hflag⟩ := alignLost_counted (d := d) (l := l)
    have hslot {f : Fld} (hf : InSlot l f.addr) (hne : f.addr ≠ R.LN_STATUS (laneBase l) ∧ f.addr ≠ R.LN_EYE (laneBase l)) :
        e.get f = (alignLost d l).get f := by
      rw [he]
      exact lnEnter_get _ l _ hf hne
    rw [if_pos hscore, if_pos hscore, if_pos hscore]
    refine ⟨he ▸ lnEnter_state _ l (by decide), congrArg LaneX.score hself, congrArg LaneX.rx hself, ?_, fun _ => ⟨?_, ?_⟩, fun k hk => ?_, ?_⟩
    · exact (hslot (by unfold InSlot; simp only [R.LN_DISP_ERR]; omega) (by simp)).trans (hlost.get (by simp))
    · exact (hslot (inSlot_flags l) (by simp)).trans hflag
    · exact (hslot (by unfold InSlot; simp only [R.LN_ALIGN_LOSS]; omega) (by simp)).trans hcount
    · rw [he, lnEnter_laneX_ne _ l _ hk, alignLost_laneX_ne hk]
    · rw [he]
      exact (hlost.mono_regs (by simp)).trans ((lnEnter_frame_laneRegs _ l _).mono (List.subset_append_left _ _) (by simp))
  · have he : e = badPassed d l t := lnBadSymbol_passed hscore
    have hpass := badPassed_frame d l t
    have hself : e.laneX l = _ := he ▸ badPassed_laneX
    rw [if_neg hscore, if_neg hscore, if_neg hscore]
    refine ⟨?_, congrArg LaneX.score hself, congrArg LaneX.rx hself, ?_, fun h => absurd h hscore, fun k hk => ?_, ?_⟩
    · rw [he]
      exact (hpass.get (by simp)).trans hstate
    · rw [he, hpass.get (by simp)]
    · rw [he]
      exact Device.laneX_setLaneX_ne d hk _
    · rw [he]
      exact hpass.mono (List.nil_subset _) (by simp)

/-- A group with a disparity error in SYNC. -/
theorem sync_dispErr_spec (hstate : d.lnState l = lnSync) (rd : Bool) :
    let e := lnBadSymbol (rdSet (invalidCounted d (F.LN_DISP_ERR.COUNT (laneBase l)) (F.LN_FLAGS.DISP_ERR (laneBase l))) l rd) l t
    e.lnState l = (if (d.laneX l).score = 3 then lnHunt else lnSync) ∧
      (e.laneX l).score = (if (d.laneX l).score = 3 then 0 else (d.laneX l).score + 1) ∧
      (e.laneX l).rx = (if (d.laneX l).score = 3 then [] else (d.laneX l).rx ++ [((t : Int), .invalid)]) ∧
      e.get (F.LN_DISP_ERR.COUNT (laneBase l)) = min (d.get (F.LN_DISP_ERR.COUNT (laneBase l)) + 1) 0xFFFFFFFF ∧
      ((d.laneX l).score = 3 → e.get (F.LN_FLAGS.ALIGN_LOST (laneBase l)) = 1 ∧
        e.get (F.LN_ALIGN_LOSS.COUNT (laneBase l)) = min (d.get (F.LN_ALIGN_LOSS.COUNT (laneBase l)) + 1) 0xFFFFFFFF) ∧
      (∀ k : Lane, k ≠ l → e.laneX k = d.laneX k) ∧
      SameBut (laneRegs l ++ [R.LN_FLAGS (laneBase l), R.LN_DISP_ERR (laneBase l), R.LN_ALIGN_LOSS (laneBase l)]) [.lanes, .evt] d e := by
  have hcounted := invalidCounted_frame d (F.LN_DISP_ERR.COUNT (laneBase l)) (F.LN_FLAGS.DISP_ERR (laneBase l))
  obtain ⟨hcount, -, -⟩ := counted_flagged (d := d) (c := F.LN_DISP_ERR.COUNT (laneBase l)) (f := F.LN_FLAGS.DISP_ERR (laneBase l))
    (by simp) (by simp) rfl (by simp)
  have hrd := rdSet_frame (invalidCounted d (F.LN_DISP_ERR.COUNT (laneBase l)) (F.LN_FLAGS.DISP_ERR (laneBase l))) l rd
  have hread : SameBut [R.LN_DISP_ERR (laneBase l), R.LN_FLAGS (laneBase l), R.LN_STATUS (laneBase l)] [.evt] d
      (rdSet (invalidCounted d (F.LN_DISP_ERR.COUNT (laneBase l)) (F.LN_FLAGS.DISP_ERR (laneBase l))) l rd) :=
    (hcounted.mono_regs (by simp)).trans (hrd.mono (by simp) (List.nil_subset _))
  have hsync : (rdSet (invalidCounted d (F.LN_DISP_ERR.COUNT (laneBase l)) (F.LN_FLAGS.DISP_ERR (laneBase l))) l rd).lnState l = lnSync :=
    (rdSet_state _ l rd).trans ((hcounted.get (by simp)).trans hstate)
  have hlane (k : Lane) := hread.laneX (by simp) k
  have hdisp := (hrd.get (f := F.LN_DISP_ERR.COUNT (laneBase l)) (by simp)).trans hcount
  have hloss := hread.get (f := F.LN_ALIGN_LOSS.COUNT (laneBase l)) (by simp)
  have hspec := lnBadSymbol_spec (t := t) hsync
  generalize rdSet (invalidCounted d (F.LN_DISP_ERR.COUNT (laneBase l)) (F.LN_FLAGS.DISP_ERR (laneBase l))) l rd = d1 at *
  intro e
  obtain ⟨hst, hscore, hrx, hkept, hlost, hother, hframe⟩ := hspec
  rw [hlane l] at hst hscore hrx hlost
  rw [hloss] at hlost
  exact ⟨hst, hscore, hrx, hkept.trans hdisp, hlost, fun k hk => (hother k hk).trans (hlane k),
    (hread.mono (by simp [laneRegs]) (by simp)).trans (hframe.mono_regs (by simp))⟩

/-! ## The decay of the score -/

/-- The score has decayed by one. -/
def scoreDecayed (d : Device) (l : Lane) : Device :=
  d.setLaneX l { d.laneX l with score := (d.laneX l).score - 1, validRun := (d.laneX l).validRun - 16 }

theorem lnScoreDecay_eq (hstate : d.lnState l = lnSync) (heth : laneIsEth l = false) (hrun : 16 ≤ (d.laneX l).validRun) :
    lnScoreDecay d l = scoreDecayed d l := if_pos ⟨hstate, by rw [heth]; exact Bool.false_ne_true, hrun⟩

theorem scoreDecayed_spec (d : Device) (l : Lane) : let e := scoreDecayed d l
    (e.laneX l).score = (d.laneX l).score - 1 ∧ (e.laneX l).validRun = (d.laneX l).validRun - 16 ∧ (∀ k : Lane, k ≠ l → e.laneX k = d.laneX k) ∧
      SameBut [] [.lanes] d e := by
  intro e
  have hself : e.laneX l = { d.laneX l with score := (d.laneX l).score - 1, validRun := (d.laneX l).validRun - 16 } := Device.laneX_setLaneX_self d l _
  exact ⟨congrArg LaneX.score hself, congrArg LaneX.validRun hself, fun k hk => Device.laneX_setLaneX_ne d hk _, setLaneX_frame d l _⟩

end

/-! ## The group's step, by the state -/

section
variable {d : Device} {l : Lane} {g ph t : Nat}

/-- The third comma. -/
theorem lnGroup_acq_third (h : Coded d l) (hstate : d.lnState l = lnAcq) (hphase : (d.laneX l).phase = ph) (hacq : (d.laneX l).acq = 2)
    (hs : decodeGroup (d.bit (F.LN_STATUS.RD (laneBase l))) g = .ctl 0xBC) : lnGroup d l g ph t =
    laneMoved (rdSet d l (rdAfter (d.bit (F.LN_STATUS.RD (laneBase l))) g)) l { d.laneX l with acq := 0, score := 0, validRun := 0 } lnSync := by
  rw [lnGroup_of_acq h hstate hphase hs, symbolRead_of_valid rfl, acqStep, if_neg (by decide), if_pos rfl, if_pos (by rw [hacq])]
  rfl

theorem lnGroup_acq_codeErr (h : Coded d l) (hstate : d.lnState l = lnAcq) (hphase : (d.laneX l).phase = ph)
    (hs : decodeGroup (d.bit (F.LN_STATUS.RD (laneBase l))) g = .codeErr) : lnGroup d l g ph t =
    laneMoved (rdSet (invalidCounted d (F.LN_CODE_ERR.COUNT (laneBase l)) (F.LN_FLAGS.CODE_ERR (laneBase l))) l
      (rdAfter (d.bit (F.LN_STATUS.RD (laneBase l))) g)) l { d.laneX l with acq := 0 } lnHunt := by
  rw [lnGroup_of_acq h hstate hphase hs, symbolRead_codeErr, acqStep, if_pos (by decide)]
  rfl

theorem lnGroup_sync_data (h : Coded d l) (hstate : d.lnState l = lnSync) (hphase : (d.laneX l).phase = ph) {v : Nat}
    (hs : decodeGroup (d.bit (F.LN_STATUS.RD (laneBase l))) g = .data v) : lnGroup d l g ph t =
    dataPassed (rdSet d l (rdAfter (d.bit (F.LN_STATUS.RD (laneBase l))) g)) l t v := by
  have hlane := (rdSet_frame d l (rdAfter (d.bit (F.LN_STATUS.RD (laneBase l))) g)).laneX (by simp) l
  rw [lnGroup_of_sync h hstate hphase hs, symbolRead_of_valid rfl, dataPassed, hlane]
  rfl

theorem lnGroup_sync_dispErr (h : Coded d l) (hstate : d.lnState l = lnSync) (hphase : (d.laneX l).phase = ph)
    (hs : decodeGroup (d.bit (F.LN_STATUS.RD (laneBase l))) g = .dispErr) : lnGroup d l g ph t =
    lnBadSymbol (rdSet (invalidCounted d (F.LN_DISP_ERR.COUNT (laneBase l)) (F.LN_FLAGS.DISP_ERR (laneBase l))) l
      (rdAfter (d.bit (F.LN_STATUS.RD (laneBase l))) g)) l t := by
  rw [lnGroup_of_sync h hstate hphase hs, symbolRead_dispErr]
  rfl

end

/-- A group's command, by what it makes of the lane. -/
theorem exec_codeGroupReceive_of {l : Lane} {group : BitVec 10} {phase : Fin 10} {t : Nat} {s : State} {e : Device}
    (h : lnGroup s.dev l group.toNat phase t = e) :
    exec (.codeGroupReceive l group phase t) s = .next { s with dev := portReceive l (laneCheck l e) } := by
  rw [exec_codeGroupReceive, h]
  rfl

/-- Settles O8, clause by clause, from the group's step in each state. -/
theorem laneAlignment : Obligations.LaneAlignment := by
  unfold Obligations.LaneAlignment
  refine ⟨?_, ?_, ?_, ?_, ?_, ?_⟩
  · intro l group phase t rd s hlane hctrl ⟨hstate, hcomma⟩
    exact ⟨_, exec_codeGroupReceive_of (lnGroup_of_hunt (coded_of hlane hctrl) hstate hcomma), hunt_comma_spec hstate _⟩
  · intro l group phase t s hlane hctrl ⟨hstate, hphase, hacq⟩ hs
    exact ⟨_, exec_codeGroupReceive_of (lnGroup_acq_third (coded_of hlane hctrl) hstate hphase hacq hs), acq_third_spec hstate _⟩
  · intro l group phase t s hlane hctrl ⟨hstate, hphase⟩ hs
    exact ⟨_, exec_codeGroupReceive_of (lnGroup_acq_codeErr (coded_of hlane hctrl) hstate hphase hs), acq_codeErr_spec _⟩
  · intro l group phase t v s hlane hctrl ⟨hstate, hphase⟩ hs
    exact ⟨_, exec_codeGroupReceive_of (lnGroup_sync_data (coded_of hlane hctrl) hstate hphase hs), sync_data_spec hstate _ v⟩
  · intro l group phase t s hlane hctrl ⟨hstate, hphase, _⟩ hs
    exact ⟨_, exec_codeGroupReceive_of (lnGroup_sync_dispErr (coded_of hlane hctrl) hstate hphase hs), sync_dispErr_spec hstate _⟩
  · intro l s ⟨hstate, heth, hrun⟩
    exact ⟨_, (exec_scoreDecay l s).trans (congrArg s.done (lnScoreDecay_eq hstate heth hrun)), scoreDecayed_spec s.dev l⟩

end Sys2Proof.Machine


/-! # Transmit taps and eye scans

A write of LN_TX_TAPS, and what the end of a scan shows of a receive lane (R42 to R44). -/

namespace Sys2Proof.Machine

theorem exec_txTapsWrite (l : Lane) (v : Word) (s : State) :
    exec (.txTapsWrite l v) s = s.done (regAccess (R.LN_TX_TAPS (laneBase l)) true (fun d => lnWriteTaps d l v) s.dev) := rfl
theorem exec_eyeScanComplete (l : Lane) (scan : EyeScan) (s : State) : exec (.eyeScanComplete l scan) s = s.done (eyeScanDev l scan s.dev) := rfl

/-! ## Taps -/

/-- The taps of a word are a valid setting. -/
def tapsOk (v : Word) : Bool := tapsValid ((F.LN_TX_TAPS.C_PRE 0).of v) ((F.LN_TX_TAPS.C_MAIN 0).of v) ((F.LN_TX_TAPS.C_POST 0).of v)

section
variable {d : Device} {l : Lane} {v : Word} (hl : laneIsRx l = false ∧ laneIsEth l = false)
include hl

theorem lnWriteTaps_eq :
    lnWriteTaps d l v = if tapsOk v then d.wr (R.LN_TX_TAPS (laneBase l)) (v &&& 0x007FFF00#32) else d.raise (F.LN_FLAGS.TAP_REJ (laneBase l)) :=
  if_neg (by rw [hl.1, hl.2]; decide)

theorem lnWriteTaps_of_valid (hv : tapsOk v = true) : let e := lnWriteTaps d l v
    e.get (F.LN_TX_TAPS.C_PRE (laneBase l)) = (F.LN_TX_TAPS.C_PRE 0).of v ∧
    e.get (F.LN_TX_TAPS.C_MAIN (laneBase l)) = (F.LN_TX_TAPS.C_MAIN 0).of v ∧
    e.get (F.LN_TX_TAPS.C_POST (laneBase l)) = (F.LN_TX_TAPS.C_POST 0).of v ∧
    SameBut [R.LN_TX_TAPS (laneBase l)] [] d e := by
  have he : lnWriteTaps d l v = _ := (lnWriteTaps_eq hl).trans (if_pos hv)
  have hget (hi lo : Nat) (hmask : 0x007FFF00#32 &&& (Fld.mk 0 hi lo).mask = (Fld.mk 0 hi lo).mask) :
      (d.wr (R.LN_TX_TAPS (laneBase l)) (v &&& 0x007FFF00#32)).get ⟨R.LN_TX_TAPS (laneBase l), hi, lo⟩ = (Fld.mk 0 hi lo).of v := by
    rw [Device.get, Device.rd_wr_self]
    exact Fld.of_and hmask v
  dsimp only
  rw [he]
  exact ⟨hget 11 8 (by decide), hget 22 17 (by decide), hget 16 12 (by decide), (SameBut.refl _ _ d).wr _ (by simp)⟩

theorem lnWriteTaps_of_invalid (hv : tapsOk v = false) : let e := lnWriteTaps d l v
    e.get (F.LN_FLAGS.TAP_REJ (laneBase l)) = 1 ∧ SameBut [R.LN_FLAGS (laneBase l)] [.evt] d e := by
  have he : lnWriteTaps d l v = d.raise (F.LN_FLAGS.TAP_REJ (laneBase l)) := (lnWriteTaps_eq hl).trans (if_neg (by rw [hv]; decide))
  dsimp only
  rw [he]
  exact ⟨Device.get_raise_self _ _ rfl (by simp), (SameBut.refl _ _ d).raise (by simp) (by simp)⟩

end

/-! ## The width and height of the eye -/

section
variable (d : Device) (l : Lane) (scan : EyeScan)

theorem openSteps_le (n : Nat) (errs : List Nat) : openSteps d l n errs ≤ n :=
  (List.takeWhile_sublist _).length_le.trans (List.length_take_le _ _)

theorem scanEw_lt : scanEw d l scan < 128 := by
  have hbefore := openSteps_le d l 32 scan.before
  have hafter := openSteps_le d l 31 scan.after
  unfold scanEw
  split <;> omega

theorem scanEh_lt : scanEh d l scan < 1024 := by
  have habove := openSteps_le d l 127 scan.above
  have hbelow := openSteps_le d l 127 scan.below
  unfold scanEh
  split <;> omega

end

/-! ## The end of a scan -/

/-- The measurement shown in LN_EYE. -/
def eyeShown (d : Device) (l : Lane) (ew eh : Nat) : Device :=
  ((((d.setLaneX l { d.laneX l with eye := some (ew, eh) }).set (F.LN_EYE.EW (laneBase l)) ew).set (F.LN_EYE.EH (laneBase l)) eh).set
    (F.LN_EYE.VALID (laneBase l)) 1).set (F.LN_EYE.SCAN_SEQ (laneBase l)) (d.get (F.LN_EYE.SCAN_SEQ (laneBase l)) + 1)

section
variable (d : Device) (l : Lane) (ew eh : Nat)

theorem eyeShown_frame : SameBut [R.LN_EYE (laneBase l)] [.lanes] d (eyeShown d l ew eh) :=
  ((((setLaneX_frame d l _).mono_regs (List.nil_subset _)).set _ (by simp)).set _ (by simp)).set _ (by simp) |>.set _ (by simp)

theorem eyeShown_written_frame : SameBut [R.LN_EYE (laneBase l)] [] (d.setLaneX l { d.laneX l with eye := some (ew, eh) }) (eyeShown d l ew eh) :=
  ((((SameBut.refl _ _ _).set _ (by simp)).set _ (by simp)).set _ (by simp)).set _ (by simp)

theorem eyeShown_laneX : (eyeShown d l ew eh).laneX l = { d.laneX l with eye := some (ew, eh) } :=
  ((eyeShown_written_frame d l ew eh).laneX (by simp) l).trans (Device.laneX_setLaneX_self d l _)

theorem eyeShown_laneX_ne {k : Lane} (h : k ≠ l) : (eyeShown d l ew eh).laneX k = d.laneX k :=
  ((eyeShown_written_frame d l ew eh).laneX (by simp) k).trans (Device.laneX_setLaneX_ne d h _)

theorem eyeShown_width (h : ew < 128) : (eyeShown d l ew eh).get (F.LN_EYE.EW (laneBase l)) = ew := by
  rw [eyeShown, Device.get_set_ne _ _ _ _ (.inr (by simp)), Device.get_set_ne _ _ _ _ (.inr (by simp)),
    Device.get_set_ne _ _ _ _ (.inr (by simp)), Device.get_set_self _ _ _ (by simp)]
  exact Nat.mod_eq_of_lt h

theorem eyeShown_height (h : eh < 1024) : (eyeShown d l ew eh).get (F.LN_EYE.EH (laneBase l)) = eh := by
  rw [eyeShown, Device.get_set_ne _ _ _ _ (.inr (by simp)), Device.get_set_ne _ _ _ _ (.inr (by simp)), Device.get_set_self _ _ _ (by simp)]
  exact Nat.mod_eq_of_lt h

theorem eyeShown_valid : (eyeShown d l ew eh).get (F.LN_EYE.VALID (laneBase l)) = 1 := by
  rw [eyeShown, Device.get_set_ne _ _ _ _ (.inr (by simp)), Device.get_set_self _ _ _ (by simp)]
  simp

theorem eyeShown_seq : (eyeShown d l ew eh).get (F.LN_EYE.SCAN_SEQ (laneBase l)) = (d.get (F.LN_EYE.SCAN_SEQ (laneBase l)) + 1) % 256 :=
  Device.get_set_self _ _ _ (by simp)

theorem eyeShown_eyeLow (w h : Nat) : eyeLow (eyeShown d l ew eh) l w h = eyeLow d l w h := by
  unfold eyeLow
  rw [(eyeShown_frame d l ew eh).get (by simp), (eyeShown_frame d l ew eh).get (by simp)]

end

section
variable {d : Device} {l : Lane} (ew eh : Nat) (hrx : laneIsRx l = true) (hsync : d.lnState l = lnSync)
include hrx hsync

theorem lnEyeScan_eq : lnEyeScan d l ew eh = (eyeShown d l ew eh).raiseIf (eyeLow d l ew eh) (F.LN_FLAGS.EYE_LOW (laneBase l)) :=
  if_neg (by rw [hrx, hsync]; decide)

theorem lnEyeScan_of_open (h : eyeLow d l ew eh = false) : lnEyeScan d l ew eh = eyeShown d l ew eh := by
  rw [lnEyeScan_eq ew eh hrx hsync, h]
  rfl

theorem lnEyeScan_of_low (h : eyeLow d l ew eh = true) :
    lnEyeScan d l ew eh = (eyeShown d l ew eh).raise (F.LN_FLAGS.EYE_LOW (laneBase l)) := by
  rw [lnEyeScan_eq ew eh hrx hsync, h]
  rfl

end

/-- What the port of the lane does about a scan. -/
def scanFollowed (l : Lane) (ew eh : Nat) (d : Device) : Device :=
  match l with
  | .cpRx p k => camEyeScan p k ew eh d
  | .peerRx n k => peerEyeScan n k ew eh d
  | _ => d

theorem eyeScanDev_eq (l : Lane) (scan : EyeScan) (d : Device) :
    eyeScanDev l scan d = scanFollowed l (scanEw d l scan) (scanEh d l scan) (lnEyeScan d l (scanEw d l scan) (scanEh d l scan)) := rfl

theorem peerRxLane_val (n : Fin 3) (k : Fin 2) : peerRxLane n k = .peerRx n k :=
  congrArg₂ Lane.peerRx (Fin.ext (Nat.mod_eq_of_lt n.isLt)) (Fin.ext (Nat.mod_eq_of_lt k.isLt))

/-- A lane that does not train and whose eye is wide enough leaves its port alone. -/
theorem scanFollowed_of_open {d : Device} {l : Lane} {ew eh : Nat} (htrain : (d.laneX l).train = none) (hlow : eyeLow d l ew eh = false) :
    scanFollowed l ew eh d = d := by
  cases l with
  | cpRx p k =>
    unfold scanFollowed camEyeScan
    dsimp only
    rw [rxLane_val, htrain, hlow]
    exact if_neg (by simp)
  | peerRx n k =>
    unfold scanFollowed peerEyeScan
    dsimp only
    rw [peerRxLane_val, htrain]
  | _ => rfl

section
variable {d : Device} {l : Lane} (scan : EyeScan)

theorem eyeScanDev_of_open (hrx : laneIsRx l = true) (hsync : d.lnState l = lnSync) (htrain : (d.laneX l).train = none)
    (hlow : eyeLow d l (scanEw d l scan) (scanEh d l scan) = false) :
    eyeScanDev l scan d = eyeShown d l (scanEw d l scan) (scanEh d l scan) := by
  rw [eyeScanDev_eq, lnEyeScan_of_open _ _ hrx hsync hlow, scanFollowed_of_open]
  · rw [eyeShown_laneX, htrain]
  · rw [eyeShown_eyeLow, hlow]

theorem eyeShown_spec : let e := eyeShown d l (scanEw d l scan) (scanEh d l scan)
    e.get (F.LN_EYE.EW (laneBase l)) =
      (if pointOpen d l scan.centre then 1 + openSteps d l 32 scan.before + openSteps d l 31 scan.after else 0) ∧
    e.get (F.LN_EYE.EH (laneBase l)) =
      (if pointOpen d l scan.centre then 4 * (openSteps d l 127 scan.above + openSteps d l 127 scan.below) else 0) ∧
    e.get (F.LN_EYE.VALID (laneBase l)) = 1 ∧
    e.get (F.LN_EYE.SCAN_SEQ (laneBase l)) = (d.get (F.LN_EYE.SCAN_SEQ (laneBase l)) + 1) % 256 ∧
    ((e.laneX l).eye = some (scanEw d l scan, scanEh d l scan) ∧ ∀ k : Lane, k ≠ l → e.laneX k = d.laneX k) ∧
    SameBut [R.LN_EYE (laneBase l)] [.lanes] d e :=
  ⟨eyeShown_width d l _ _ (scanEw_lt d l scan), eyeShown_height d l _ _ (scanEh_lt d l scan), eyeShown_valid d l _ _, eyeShown_seq d l _ _,
    ⟨congrArg LaneX.eye (eyeShown_laneX d l _ _), fun _ hk => eyeShown_laneX_ne d l _ _ hk⟩, eyeShown_frame d l _ _⟩

end

end Sys2Proof.Machine


/-! # A low eye

EYE_LOW stays set through what a scan starts: the next step of the training, and RESYNC (R43, R47, R54). -/

namespace Sys2Proof.Machine

theorem laneBase_mod (l : Lane) : laneBase l % 256 = 0 := by
  cases l <;> simp only [laneBase] <;> omega

/-! ## What the steps of a camera lane's training write -/

section
variable (d : Device) (l : Lane)

/-- EYE_LOW of a lane reads as before. -/
def EyeLowKept (l : Lane) (d e : Device) : Prop := e.get (F.LN_FLAGS.EYE_LOW (laneBase l)) = d.get (F.LN_FLAGS.EYE_LOW (laneBase l))

theorem EyeLowKept.trans {l : Lane} {c d e : Device} (h : EyeLowKept l d e) (h' : EyeLowKept l c d) : EyeLowKept l c e := Eq.trans h h'

theorem SameBut.eyeLowKept {as : List Nat} {ps : List Part} {d e : Device} {l : Lane} (h : SameBut as ps d e)
    (ha : R.LN_FLAGS (laneBase l) ∉ as) : EyeLowKept l d e := h.get ha

/-- The end of any lane's training writes TRAIN_FAIL alone of the flags. -/
theorem trainFinish_eyeLowKept (k : Lane) (t : Training) (fail : Bool) : EyeLowKept l d (trainFinish d k t fail) := by
  have hl := laneBase_mod l
  have hk := laneBase_mod k
  have hstopped : EyeLowKept l d (trainStopped d k) := trainStopped_frame.eyeLowKept (by simp only [List.mem_singleton, R.LN_FLAGS, R.LN_CTRL]; omega)
  have hfar : EyeLowKept l (trainStopped d k) (farShown (trainStopped d k) k t.reply) :=
    (farShown_frame t.reply).eyeLowKept (by simp only [List.mem_singleton, R.LN_FLAGS, R.LN_FAR_TAPS]; omega)
  have hflag (c : Device) (b : Bool) : EyeLowKept l c (c.raiseIf b (F.LN_FLAGS.TRAIN_FAIL (laneBase k))) := by
    cases b with
    | false => rfl
    | true => exact Device.get_raise_ne _ _ _ (.inr (.inr (by simp)))
  rw [trainFinish_eq]
  exact (hflag _ _).trans (hfar.trans hstopped)

theorem retrainSet_eyeLowKept (k : Lane) (x : LaneX) :
    EyeLowKept l d ((d.setLaneX k x).setBit (F.LN_CTRL.RETRAIN (laneBase k)) true) := by
  have hl := laneBase_mod l
  have hk := laneBase_mod k
  refine SameBut.eyeLowKept (as := [R.LN_CTRL (laneBase k)]) (((setLaneX_frame d k x).mono_regs (List.nil_subset _)).setBit _ (by simp)) ?_
  simp only [List.mem_singleton, R.LN_FLAGS, R.LN_CTRL]
  omega

theorem trainStart_eyeLowKept (k : Lane) (byPort : Bool) : EyeLowKept l d (trainStart d k byPort) := by
  unfold trainStart
  dsimp only
  split
  · exact retrainSet_eyeLowKept d l k _
  · exact trainFinish_eyeLowKept d l k _ _

end

section
variable (d : Device) (p : Nat)

theorem trainIssue_frame : SameBut [] [.fresh, .lanes, .ports] d (trainIssue d p) := by
  have hself : SameBut [] [.fresh, .lanes, .ports] d d := .refl _ _ d
  unfold trainIssue
  dsimp only
  refine iteInduction (fun _ => hself) fun _ => ?_
  split
  · exact hself
  · split
    · exact hself
    · exact ((hself.putFresh _ (by simp)).setLaneX _ _ (by simp)).setPort _ _ (by simp)

theorem trainIssue_eyeLowKept (l : Lane) : EyeLowKept l d (trainIssue d p) := (trainIssue_frame d p).eyeLowKept (List.not_mem_nil)

end

/-! ## What the states of a port write -/

section
variable (d : Device) (p : Fin 12) (l : Lane)

theorem lnFlags_not_mem_disableRegs : R.LN_FLAGS (laneBase l) ∉ disableRegs p := by
  have hl := laneBase_mod l
  simp only [disableRegs, R.CPn_CTL_CMD, R.CPn_FLAGS, R.CPn_EXP_CMD, R.CPn_STATUS, R.CPn_LINES_LOST, R.LN_FLAGS, List.mem_cons, List.not_mem_nil,
    or_false]
  omega

/-- A port that enters DESKEW. -/
theorem portEnter_deskew_frame : SameBut (disableRegs p) [.ports, .evt] d (portEnter d p psDeskew) := by
  have hrun : psDeskew ≠ psRun := by decide
  have hresync : psDeskew ≠ psResync := by decide
  have hfault : psDeskew ≠ psFault := by decide
  have hdisabled : psDeskew ≠ psDisabled := by decide
  have hretry : psDeskew ≠ psRetry := by decide
  have hleft : SameBut (disableRegs p) [.ports, .evt] d (if d.portState p = psRun then leaveRun d p else d) :=
    iteInduction (fun _ => (leaveRun_frame d p).mono_regs (by simp)) fun _ => .refl _ _ d
  simp only [portEnter, hrun, hresync, hfault, hdisabled, hretry, ne_eq, not_false_eq_true, and_true, or_self, if_false, decide_false,
    Device.raiseIf_false]
  exact (hleft.set _ (by simp)).setPort _ _ (by simp)

/-- A port that enters RESYNC has dropped what RUN held. -/
theorem portEnter_resync_eq : portEnter d p psResync =
    (resyncEntered (if d.portState p = psRun then leaveRun d p else d) p).raise (F.CPn_FLAGS.RESYNC p) := by
  have hrun : psResync ≠ psRun := by decide
  have hfault : psResync ≠ psFault := by decide
  have hdisabled : psResync ≠ psDisabled := by decide
  have hretry : psResync ≠ psRetry := by decide
  simp only [portEnter, hrun, hfault, hdisabled, hretry, ne_eq, not_false_eq_true, and_true, or_self, if_false, if_true, decide_false, decide_true,
    Device.raiseIf_false, Device.raiseIf_true]
  rfl

theorem resyncEntered_written_frame : SameBut [R.CPn_STATUS p] [.ports] d (resyncEntered d p) :=
  ((SameBut.refl _ _ d).set _ (by simp)).setPort _ _ (by simp)

theorem portEnter_resync_frame : SameBut (disableRegs p) [.ports, .evt] d (portEnter d p psResync) := by
  have hleft : SameBut (disableRegs p) [.ports, .evt] d (if d.portState p = psRun then leaveRun d p else d) :=
    iteInduction (fun _ => (leaveRun_frame d p).mono_regs (by simp)) fun _ => .refl _ _ d
  rw [portEnter_resync_eq]
  exact (hleft.then (resyncEntered_written_frame _ p) (by simp) (by simp)).raise (by simp) (by simp)

theorem portEnter_resync_state : (portEnter d p psResync).portState p = psResync := by
  rw [portEnter_resync_eq]
  refine (Device.get_raise_ne _ _ _ (.inl (by simp))).trans (?_ : (resyncEntered _ p).portState p = psResync)
  generalize (if d.portState p = psRun then leaveRun d p else d) = c
  exact (((SameBut.refl [] [.ports] _).setPort _ _ (by simp)).get (by simp)).trans
    ((Device.get_set_self c _ _ (by simp)).trans (Nat.mod_eq_of_lt (by decide : psResync < 16)))

theorem portEnter_resync_flag : (portEnter d p psResync).get (F.CPn_FLAGS.RESYNC p) = 1 := by
  rw [portEnter_resync_eq]
  exact Device.get_raise_self _ _ rfl (by simp)

theorem portTrain_eyeLowKept (n k : Nat) : EyeLowKept l d (portTrain d p n k) := by
  have hdeskew (c : Device) : EyeLowKept l c (portEnter c p psDeskew) := (portEnter_deskew_frame c p).eyeLowKept (lnFlags_not_mem_disableRegs p l)
  induction n generalizing d k with
  | zero => exact hdeskew d
  | succ n ih =>
    have hstart : EyeLowKept l d (trainStart (d.setPort p { d.port p with trainLane := k }) (rxLane p k) true) :=
      (trainStart_eyeLowKept _ l _ true).trans (((SameBut.refl [] [.ports] d).setPort _ _ (by simp)).eyeLowKept List.not_mem_nil)
    unfold portTrain
    dsimp only
    refine iteInduction (fun _ => hdeskew d) fun _ => iteInduction (fun _ => ih d _) fun _ => iteInduction (fun _ => ?_) fun _ => ?_
    · exact (trainIssue_eyeLowKept _ p l).trans hstart
    · exact (ih _ _).trans hstart

theorem camTrainNext_eyeLowKept (k : Nat) (nx : TrainNext) : EyeLowKept l d (camTrainNext d p k nx) := by
  have hset (x : LaneX) : EyeLowKept l d (d.setLaneX (rxLane p k) x) := (setLaneX_frame d _ x).eyeLowKept List.not_mem_nil
  cases nx with
  | send t => exact (trainIssue_eyeLowKept _ p l).trans (hset _)
  | wait t => exact hset _
  | finish t fail =>
    have hfinished : EyeLowKept l d (trainIssue (trainFinish d (rxLane p k) t fail) p) :=
      (trainIssue_eyeLowKept _ p l).trans (trainFinish_eyeLowKept d l _ t fail)
    exact iteInduction (motive := EyeLowKept l d) (fun _ => (portTrain_eyeLowKept _ p l 5 _).trans hfinished) fun _ => hfinished

theorem camEyeScan_eyeLowKept (k ew eh : Nat) : EyeLowKept l d (camEyeScan p k ew eh d) := by
  have htrained : EyeLowKept l d (match (d.laneX (rxLane p k)).train with
      | none => d
      | some t => camTrainNext d p k (trainOnScan d (rxLane p k) t (ew * eh))) := by
    split
    · exact rfl
    · exact camTrainNext_eyeLowKept d p l k _
  have hresync (c : Device) (x : Port) : EyeLowKept l c ((portEnter c p psResync).setPort p x) :=
    ((portEnter_resync_frame c p).setPort _ _ (by simp)).eyeLowKept (lnFlags_not_mem_disableRegs p l)
  exact iteInduction (motive := EyeLowKept l d) (fun _ => (hresync _ _).trans htrained) fun _ => htrained

end

/-! ## What the steps of a peer lane's training write -/

section
variable (d : Device) (n : Fin 3) (l : Lane)

theorem lnFlags_not_mem_peerEnter : R.LN_FLAGS (laneBase l) ∉ [R.PEERn_STATUS n, R.PAIR_STATUS] := by
  have hpair : laneBase l ≠ 0x100D0000 := by cases l <;> simp only [laneBase] <;> omega
  have hl := laneBase_mod l
  simp only [R.PEERn_STATUS, R.PAIR_STATUS, R.LN_FLAGS, List.mem_cons, List.not_mem_nil, or_false]
  omega

theorem peerTrainIssue_frame : SameBut [] [.lanes, .peers] d (peerTrainIssue d n) := by
  have hself : SameBut [] [.lanes, .peers] d d := .refl _ _ d
  unfold peerTrainIssue
  dsimp only
  refine iteInduction (fun _ => hself) fun _ => ?_
  split
  · exact hself
  · split
    · exact hself
    · exact ((hself.setLaneX _ _ (by simp)).setPeer _ _ (by simp)).queueFrame _ _ (by simp)

theorem peerTrainIssue_eyeLowKept : EyeLowKept l d (peerTrainIssue d n) := (peerTrainIssue_frame d n).eyeLowKept List.not_mem_nil

theorem peerTrainFrom_eyeLowKept (m k : Nat) : EyeLowKept l d (peerTrainFrom d n m k) := by
  have hdeskew (c : Device) : EyeLowKept l c (peerEnter c n plDeskew) := (peerEnter_frame n c plDeskew).eyeLowKept (lnFlags_not_mem_peerEnter n l)
  induction m generalizing d k with
  | zero => exact hdeskew d
  | succ m ih =>
    unfold peerTrainFrom
    dsimp only
    refine iteInduction (fun _ => hdeskew d) fun _ => iteInduction (fun _ => ih d _) fun _ => ?_
    split
    · have hset (c : Device) (x : Peer) : EyeLowKept l c (c.setPeer n x) := ((SameBut.refl [] [.peers] c).setPeer _ _ (by simp)).eyeLowKept List.not_mem_nil
      exact (peerTrainIssue_eyeLowKept _ n l).trans ((hset _ _).trans (retrainSet_eyeLowKept d l _ _))
    · exact (ih _ _).trans (trainFinish_eyeLowKept d l _ _ _)

theorem peerTrainNext_eyeLowKept (k : Nat) (nx : TrainNext) : EyeLowKept l d (peerTrainNext d n k nx) := by
  have hset (x : LaneX) : EyeLowKept l d (d.setLaneX (peerRxLane n k) x) := (setLaneX_frame d _ x).eyeLowKept List.not_mem_nil
  cases nx with
  | send t => exact (peerTrainIssue_eyeLowKept _ n l).trans (hset _)
  | wait t => exact hset _
  | finish t fail =>
    have hfinished : EyeLowKept l d (peerTrainIssue (trainFinish d (peerRxLane n k) t fail) n) :=
      (peerTrainIssue_eyeLowKept _ n l).trans (trainFinish_eyeLowKept d l _ t fail)
    exact iteInduction (motive := EyeLowKept l d) (fun _ => (peerTrainFrom_eyeLowKept _ n l 3 _).trans hfinished) fun _ => hfinished

theorem peerEyeScan_eyeLowKept (k ew eh : Nat) : EyeLowKept l d (peerEyeScan n k ew eh d) := by
  unfold peerEyeScan
  split
  · exact rfl
  · exact peerTrainNext_eyeLowKept d n l k _

end

/-! ## EYE_LOW -/

theorem scanFollowed_eyeLowKept (l : Lane) (ew eh : Nat) (d : Device) : EyeLowKept l d (scanFollowed l ew eh d) := by
  cases l with
  | cpRx p k => exact camEyeScan_eyeLowKept d p _ k ew eh
  | peerRx n k => exact peerEyeScan_eyeLowKept d n _ k ew eh
  | _ => rfl

section
variable {d : Device} {l : Lane} (scan : EyeScan) (hsync : d.lnState l = lnSync)
  (hlow : eyeLow d l (scanEw d l scan) (scanEh d l scan) = true)
include hsync hlow

theorem eyeScanDev_of_low (hrx : laneIsRx l = true) : (eyeScanDev l scan d).get (F.LN_FLAGS.EYE_LOW (laneBase l)) = 1 := by
  rw [eyeScanDev_eq, lnEyeScan_of_low _ _ hrx hsync hlow]
  exact Eq.trans (scanFollowed_eyeLowKept l _ _ _) (Device.get_raise_self _ _ rfl (by simp))

end

section
variable {d : Device} {p : Fin 12} {k : Fin 4} {ew eh : Nat}

/-- A low eye of a lane that a port in RUN delivers data on, with EYE_POLICY 1. -/
theorem camEyeScan_of_low (htrain : (d.laneX (.cpRx p k)).train = none) (hlow : eyeLow d (.cpRx p k) ew eh = true) (hrun : d.portState p = psRun)
    (hlane : k.val < portLanes d p) (hpolicy : d.bit (F.CPn_CFG.EYE_POLICY p) = true) :
    camEyeScan p k ew eh d = (portEnter d p psResync).setPort p { (portEnter d p psResync).port p with eyeResync := true } := by
  unfold camEyeScan
  dsimp only
  rw [rxLane_val, htrain]
  exact if_pos ⟨hlow, hrun, hlane, hpolicy⟩

theorem camEyeScan_low_spec (htrain : (d.laneX (.cpRx p k)).train = none) (hlow : eyeLow d (.cpRx p k) ew eh = true) (hrun : d.portState p = psRun)
    (hlane : k.val < portLanes d p) (hpolicy : d.bit (F.CPn_CFG.EYE_POLICY p) = true) : let e := camEyeScan p k ew eh d
    e.portState p = psResync ∧ (e.port p).eyeResync = true ∧ e.get (F.CPn_FLAGS.RESYNC p) = 1 := by
  have hport (x : Port) : SameBut [] [.ports] (portEnter d p psResync) ((portEnter d p psResync).setPort p x) := (SameBut.refl _ _ _).setPort _ _ (by simp)
  dsimp only
  rw [camEyeScan_of_low htrain hlow hrun hlane hpolicy]
  refine ⟨((hport _).get (by simp)).trans (portEnter_resync_state d p), ?_, ((hport _).get (by simp)).trans (portEnter_resync_flag d p)⟩
  rw [Device.port_setPort_self]

/-- The registers that a low eye shows in. -/
theorem lowShown_frame (d : Device) (l : Lane) (ew eh : Nat) : SameBut [R.LN_EYE (laneBase l), R.LN_FLAGS (laneBase l)] [.lanes, .evt] d
    ((eyeShown d l ew eh).raise (F.LN_FLAGS.EYE_LOW (laneBase l))) :=
  ((eyeShown_frame d l ew eh).mono (by simp) (by simp)).raise (by simp) (by simp)

end

section
variable {d : Device} {p : Fin 12} {k : Fin 4} (scan : EyeScan)

theorem cpRegs_not_mem_lane {a : Nat} (ha : InPort p a) :
    a ∉ [R.LN_EYE (laneBase (.cpRx p k)), R.LN_FLAGS (laneBase (.cpRx p k))] := by
  unfold InPort at ha
  simp only [laneBase_cpRx, R.LN_EYE, R.LN_FLAGS, List.mem_cons, List.not_mem_nil, or_false]
  omega

theorem eyeScanDev_of_low_run (hsync : d.lnState (.cpRx p k) = lnSync) (htrain : (d.laneX (.cpRx p k)).train = none)
    (hlow : eyeLow d (.cpRx p k) (scanEw d (.cpRx p k) scan) (scanEh d (.cpRx p k) scan) = true) (hrun : d.portState p = psRun)
    (hlane : k.val < portLanes d p) (hpolicy : d.bit (F.CPn_CFG.EYE_POLICY p) = true) : let e := eyeScanDev (.cpRx p k) scan d
    e.portState p = psResync ∧ (e.port p).eyeResync = true ∧ e.get (F.CPn_FLAGS.RESYNC p) = 1 := by
  have hshown := lowShown_frame d (.cpRx p k) (scanEw d (.cpRx p k) scan) (scanEh d (.cpRx p k) scan)
  have hraised : SameBut [R.LN_FLAGS (laneBase (.cpRx p k))] [.evt] (eyeShown d (.cpRx p k) (scanEw d (.cpRx p k) scan) (scanEh d (.cpRx p k) scan))
      ((eyeShown d (.cpRx p k) (scanEw d (.cpRx p k) scan) (scanEh d (.cpRx p k) scan)).raise (F.LN_FLAGS.EYE_LOW (laneBase (.cpRx p k)))) :=
    (SameBut.refl _ _ _).raise (by simp) (by simp)
  have hctrl : R.LN_EYE_CTRL (laneBase (.cpRx p k)) ∉ [R.LN_EYE (laneBase (.cpRx p k)), R.LN_FLAGS (laneBase (.cpRx p k))] := by simp
  dsimp only
  rw [eyeScanDev_eq, lnEyeScan_of_low _ _ rfl hsync hlow]
  refine camEyeScan_low_spec ?_ ?_ ((hshown.get (cpRegs_not_mem_lane inPort_status)).trans hrun) ?_
    ((hshown.bit (cpRegs_not_mem_lane inPort_cfg)).trans hpolicy)
  · rw [hraised.laneX (by simp), eyeShown_laneX, htrain]
  · rw [← hlow]
    unfold eyeLow
    rw [hshown.get hctrl, hshown.get hctrl]
  · unfold portLanes at hlane ⊢
    rwa [hshown.get (cpRegs_not_mem_lane inPort_cfg)]

end

end Sys2Proof.Machine


/-! # Requests of a camera lane's training

The start of a training, the reply to its request, and a request without a reply (R45, R48, R49, R71). -/

namespace Sys2Proof.Machine

theorem exec_retrain_camera {p : Fin 12} {k : Fin 4} {s : State} (h : gateOpen s.dev (R.LN_CTRL (laneBase (.cpRx p k))) = true) :
    exec (.retrain (.cpRx p k)) s = s.done (camRetrain p k s.dev) :=
  congrArg s.done (regAccess_of_gateOpen h _ _)
theorem exec_trainReply_camera (p : Fin 12) (word : Word) (s : State) : exec (.trainReply (.camera p) word) s = s.done (trainReplyCam p s.dev) := rfl
theorem exec_trainReqTimeout_camera (p : Fin 12) (s : State) : exec (.trainReqTimeout (.camera p)) s = s.done (camTrainTimeout p s.dev) := rfl

/-! ## The request that waits is sent -/

section
variable {d : Device} {p : Fin 12}

/-- No lane of the port waits to send a request. -/
def NoneQueued (d : Device) (p : Fin 12) : Prop := ∀ j : Fin 4, (d.laneX (.cpRx p j)).train.all (fun t => !t.queued) = true

theorem trainIssue_of_noneQueued (h : NoneQueued d p) : trainIssue d p = d := by
  unfold trainIssue
  dsimp only
  refine iteInduction (motive := (· = d)) (fun _ => rfl) fun _ => ?_
  split
  · rfl
  next j hfind =>
    have hj : j < 4 := List.mem_range.1 (List.mem_of_find?_eq_some hfind)
    have hqueued := List.find?_some hfind
    have hidle := h ⟨j, hj⟩
    rw [← rxLane_val p ⟨j, hj⟩] at hidle
    dsimp only at hqueued hidle
    split at hqueued
    next t ht => simp [ht, hqueued] at hidle
    · exact absurd hqueued (by decide)

variable {k : Fin 4} {t : Training}

/-- The lane's request joins the back-channel's with a new tag. -/
def requestIssued (d : Device) (p : Fin 12) (k : Fin 4) (t : Training) : Device :=
  let c := ((d.free 8).2).setLaneX (.cpRx p k) { d.laneX (.cpRx p k) with train := some { t with queued := false } }
  c.setPort p { c.port p with trainReq := some { lane := k, tag := (d.free 8).1, word := t.request }, reqQ := (c.port p).reqQ ++ [true] }

theorem trainIssue_of_queued (hreq : (d.port p).trainReq = none) (htrain : (d.laneX (.cpRx p k)).train = some t) (hqueued : t.queued = true)
    (hothers : ∀ j : Fin 4, j ≠ k → (d.laneX (.cpRx p j)).train = none) : trainIssue d p = requestIssued d p k t := by
  unfold trainIssue
  dsimp only
  rw [hreq]
  refine (if_neg (by simp)).trans ?_
  split
  next hfind =>
    have hnot := List.find?_eq_none.1 hfind k (List.mem_range.2 k.isLt)
    rw [rxLane_val, htrain] at hnot
    exact absurd hqueued hnot
  next j hfind =>
    have hj : j < 4 := List.mem_range.1 (List.mem_of_find?_eq_some hfind)
    have hfound := List.find?_some hfind
    have hjk : j = k.val := by
      by_contra hne
      have hnone := hothers ⟨j, hj⟩ fun heq => hne (congrArg Fin.val heq)
      rw [← rxLane_val p ⟨j, hj⟩] at hnone
      dsimp only at hnone hfound
      rw [hnone] at hfound
      exact absurd hfound (by decide)
    subst hjk
    rw [rxLane_val, htrain]
    rfl

theorem requestIssued_laneX : ((requestIssued d p k t).laneX (.cpRx p k)).train = some { t with queued := false } :=
  congrArg LaneX.train (Device.laneX_setLaneX_self _ _ _)

theorem requestIssued_reqQ : ((requestIssued d p k t).port p).reqQ = (d.port p).reqQ ++ [true] :=
  congrArg Port.reqQ (Device.port_setPort_self _ p _)

/-- A lane that does not train is left as it is. -/
theorem trainIssue_laneX_of_idle (h : (d.laneX (.cpRx p k)).train = none) : ((trainIssue d p).laneX (.cpRx p k)).train = none := by
  unfold trainIssue
  dsimp only
  refine iteInduction (motive := fun e : Device => (e.laneX (.cpRx p k)).train = none) (fun _ => h) fun _ => ?_
  split
  · exact h
  next j hfind =>
    have hj : j < 4 := List.mem_range.1 (List.mem_of_find?_eq_some hfind)
    rw [show rxLane p j = .cpRx p ⟨j, hj⟩ from rxLane_val p ⟨j, hj⟩]
    split
    · exact h
    next t ht =>
      have hne : Lane.cpRx p k ≠ .cpRx p ⟨j, hj⟩ := fun heq => nomatch (heq ▸ h).symm.trans ht
      exact (congrArg LaneX.train (Device.laneX_setLaneX_ne _ hne _)).trans h

end

/-! ## RETRAIN -/

section
variable {d : Device} {p : Fin 12} {k : Fin 4}

theorem camRetrain_of_run (h : d.portState p = psRun) : camRetrain p k d = d := if_pos (.inl h)

/-- A training at its first request. -/
def firstTraining (d : Device) (l : Lane) : Training :=
  { full := decide (trainMode d l = 2), wait := .presetReply, request := presetWord l, steps := 1 }

/-- The lane trains, its first request queued. -/
def trainStarted (d : Device) (l : Lane) : Device :=
  (d.setLaneX l { d.laneX l with train := some { firstTraining d l with queued := true } }).setBit (F.LN_CTRL.RETRAIN (laneBase l)) true

theorem trainStart_of_steps {l : Lane} (h : 1 ≤ d.get (F.LN_TRAIN_CTRL.MAX_STEPS (laneBase l))) : trainStart d l false = trainStarted d l := by
  have hsteps : ¬ d.get (F.LN_TRAIN_CTRL.MAX_STEPS (laneBase l)) ≤ 0 := Nat.not_le.2 h
  simp only [trainStart, trainSend, if_neg hsteps]
  rfl

theorem trainStarted_frame (l : Lane) : SameBut [R.LN_CTRL (laneBase l)] [.lanes] d (trainStarted d l) :=
  ((setLaneX_frame d l _).mono_regs (List.nil_subset _)).setBit _ (by simp)

theorem trainStarted_ctrl_frame (l : Lane) : SameBut [R.LN_CTRL (laneBase l)] []
    (d.setLaneX l { d.laneX l with train := some { firstTraining d l with queued := true } }) (trainStarted d l) :=
  (SameBut.refl _ _ _).setBit _ (by simp)

theorem trainStarted_train (l : Lane) : ((trainStarted d l).laneX l).train = some { firstTraining d l with queued := true } :=
  congrArg LaneX.train (((trainStarted_ctrl_frame l).laneX (by simp) l).trans (Device.laneX_setLaneX_self d l _))

theorem trainStarted_laneX_ne {j l : Lane} (h : j ≠ l) : (trainStarted d l).laneX j = d.laneX j :=
  ((trainStarted_ctrl_frame l).laneX (by simp) j).trans (Device.laneX_setLaneX_ne d h _)

theorem trainStarted_retrain (l : Lane) : (trainStarted d l).get (F.LN_CTRL.RETRAIN (laneBase l)) = 1 := by
  rw [trainStarted, Device.get_setBit, Device.get_set_self _ _ _ (by simp)]
  simp

theorem camRetrain_of_allowed (hrun : d.portState p ≠ psRun) (hreq : (d.port p).trainReq = none) (hmode : trainMode d (.cpRx p k) ≠ 0)
    (hsteps : 1 ≤ d.get (F.LN_TRAIN_CTRL.MAX_STEPS (laneBase (.cpRx p k)))) (hidle : ∀ j : Fin 4, (d.laneX (.cpRx p j)).train = none) :
    camRetrain p k d =
      requestIssued (trainStarted d (.cpRx p k)) p k { firstTraining d (.cpRx p k) with queued := true } := by
  unfold camRetrain
  dsimp only
  rw [rxLane_val, trainStart_of_steps hsteps]
  refine (if_neg ?_).trans (trainIssue_of_queued ?_ (trainStarted_train _) rfl fun j hj => ?_)
  · rintro (h | h | h)
    · exact hrun h
    · rw [hidle k] at h
      exact absurd h (by decide)
    · exact hmode h
  · rw [(trainStarted_frame _).port (by simp), hreq]
  · rw [trainStarted_laneX_ne fun heq => hj (by simpa using heq), hidle j]

theorem requestIssued_frame (d : Device) (p : Fin 12) (k : Fin 4) (t : Training) : SameBut [] [.fresh, .lanes, .ports] d (requestIssued d p k t) :=
  (((SameBut.refl _ _ d).putFresh _ (by simp)).setLaneX _ _ (by simp)).setPort _ _ (by simp)

theorem camRetrain_spec (hrun : d.portState p ≠ psRun) (hreq : (d.port p).trainReq = none) (hmode : trainMode d (.cpRx p k) ≠ 0)
    (hsteps : 1 ≤ d.get (F.LN_TRAIN_CTRL.MAX_STEPS (laneBase (.cpRx p k)))) (hidle : ∀ j : Fin 4, (d.laneX (.cpRx p j)).train = none) :
    let e := camRetrain p k d
    e.get (F.LN_CTRL.RETRAIN (laneBase (.cpRx p k))) = 1 ∧
    (e.laneX (.cpRx p k)).train = some (firstTraining d (.cpRx p k)) ∧
    (e.port p).reqQ = (d.port p).reqQ ++ [true] ∧
    SameBut [R.LN_CTRL (laneBase (.cpRx p k))] [.fresh, .lanes, .ports] d e := by
  have hstarted := trainStarted_frame (d := d) (.cpRx p k)
  have hissued := requestIssued_frame (trainStarted d (.cpRx p k)) p k { firstTraining d (.cpRx p k) with queued := true }
  dsimp only
  rw [camRetrain_of_allowed hrun hreq hmode hsteps hidle]
  refine ⟨(hissued.get (by simp)).trans (trainStarted_retrain _), requestIssued_laneX, ?_, ?_⟩
  · rw [requestIssued_reqQ, hstarted.port (by simp)]
  · exact (hstarted.mono (List.Subset.refl _) (by simp)).then hissued (List.nil_subset _) (List.Subset.refl _)

end

/-! ## The reply to a request -/

section
variable {d : Device} {p : Fin 12} {k : Fin 4} {tag : Nat} {t : Training}

/-- The pending request is answered. -/
def requestAnswered (d : Device) (p : Fin 12) : Device :=
  d.setPort p { d.port p with trainReq := none, reqQ := (d.port p).reqQ.filter (fun b => !b) }

/-- The training of a lane is `t`. -/
def trainingIs (d : Device) (l : Lane) (t : Training) : Device := d.setLaneX l { d.laneX l with train := some t }

theorem trainingIs_train (l : Lane) : ((trainingIs d l t).laneX l).train = some t := congrArg LaneX.train (Device.laneX_setLaneX_self d l _)

theorem trainingIs_laneX_ne {j l : Lane} (h : j ≠ l) : (trainingIs d l t).laneX j = d.laneX j := Device.laneX_setLaneX_ne d h _

/-- The reply to a PRESET request: the lane waits for a scan. -/
theorem camTrainReply_of_preset {word : Nat} {r : TrainReq} (hreq : (d.port p).trainReq = some r) (hlane : r.lane = k.val) (htag : r.tag = tag)
    (htrain : (d.laneX (.cpRx p k)).train = some t) (hwait : t.wait = .presetReply) (hqueued : NoneQueued d p) :
    camTrainReply p tag word d = trainingIs (requestAnswered d p) (.cpRx p k) { t with reply := some word, wait := .presetScan } := by
  have hanswered : ((requestAnswered d p).laneX (.cpRx p k)).train = some t := htrain
  have hnext : trainOnReply (requestAnswered d p) (.cpRx p k) t word = .wait { t with reply := some word, wait := .presetScan } := by
    unfold trainOnReply
    dsimp only
    rw [hwait]
  have hnone : NoneQueued (trainingIs (requestAnswered d p) (.cpRx p k) { t with reply := some word, wait := .presetScan }) p := by
    intro j
    by_cases hj : Lane.cpRx p j = .cpRx p k
    · have hold := hqueued j
      rw [hj, htrain] at hold
      rw [hj, trainingIs_train]
      exact hold
    · rw [trainingIs_laneX_ne hj]
      exact hqueued j
  unfold camTrainReply
  dsimp only
  rw [hreq]
  dsimp only
  rw [if_neg (not_not_intro htag), hlane, rxLane_val]
  change (match ((requestAnswered d p).laneX (.cpRx p k)).train with
    | none => trainIssue (requestAnswered d p) p
    | some t => trainIssue (camTrainNext (requestAnswered d p) p k (trainOnReply (requestAnswered d p) (.cpRx p k) t word)) p) = _
  rw [hanswered]
  dsimp only
  rw [hnext, camTrainNext, rxLane_val]
  exact trainIssue_of_noneQueued hnone

theorem requestAnswered_frame (d : Device) (p : Fin 12) : SameBut [] [.ports] d (requestAnswered d p) := (SameBut.refl _ _ d).setPort _ _ (by simp)

theorem requestAnswered_trainReq (d : Device) (p : Fin 12) : ((requestAnswered d p).port p).trainReq = none :=
  congrArg Port.trainReq (Device.port_setPort_self d p _)

theorem trainingIs_frame (d : Device) (l : Lane) (t : Training) : SameBut [] [.lanes] d (trainingIs d l t) := setLaneX_frame d l _

theorem trainReplyCam_spec {body : List Byte} (hevent : ctlEvent d p = some (5, tag, body))
    (hreq : (d.port p).trainReq = some { lane := k.val, tag := tag, word := t.request }) (htrain : (d.laneX (.cpRx p k)).train = some t)
    (hwait : t.wait = .presetReply) (hqueued : NoneQueued d p) : let e := trainReplyCam p d
    (e.laneX (.cpRx p k)).train = some { t with reply := some (leAt body 0 4), wait := .presetScan } ∧
    (e.port p).trainReq = none ∧
    SameBut [] [.lanes, .ports] d e := by
  have hpopped : ((popEvent d p).port p).trainReq = some { lane := k.val, tag := tag, word := t.request } := by rw [popEvent_port, hreq]
  have he : trainReplyCam p d =
      trainingIs (requestAnswered (popEvent d p) p) (.cpRx p k) { t with reply := some (leAt body 0 4), wait := .presetScan } := by
    unfold trainReplyCam
    rw [hevent]
    exact camTrainReply_of_preset hpopped rfl rfl htrain hwait hqueued
  dsimp only
  rw [he]
  refine ⟨trainingIs_train _, ?_, ?_⟩
  · rw [(trainingIs_frame _ _ _).port (by simp), requestAnswered_trainReq]
  · exact (((popEvent_frame d p).mono_parts (by simp)).then (requestAnswered_frame _ p) (List.Subset.refl _) (by simp)).then
      (trainingIs_frame _ _ _) (List.Subset.refl _) (by simp)

end

/-! ## A request without a reply -/

section
variable {d : Device} {p : Fin 12} {k : Fin 4} {tag : Nat} {t : Training}
  (hreq : (d.port p).trainReq = some { lane := k.val, tag := tag, word := t.request }) (hqueue : (d.port p).reqQ.contains true = false)
  (htrain : (d.laneX (.cpRx p k)).train = some t)
include hreq hqueue htrain

theorem camTrainTimeout_of_pending : camTrainTimeout p d =
    if t.resends < 3 then
      (trainingIs d (.cpRx p k) { t with resends := t.resends + 1 }).setPort p { d.port p with reqQ := (d.port p).reqQ ++ [true] }
    else camTrainNext (d.setPort p { d.port p with trainReq := none }) p k (.finish t true) := by
  unfold camTrainTimeout
  dsimp only
  rw [hreq]
  dsimp only
  rw [hqueue, if_neg (by decide), rxLane_val, htrain]
  rfl

theorem camTrainTimeout_resend_spec (hresends : t.resends < 3) : let e := camTrainTimeout p d
    (e.laneX (.cpRx p k)).train = some { t with resends := t.resends + 1 } ∧
    (e.port p).reqQ = (d.port p).reqQ ++ [true] ∧
    SameBut [] [.lanes, .ports] d e := by
  dsimp only
  rw [camTrainTimeout_of_pending hreq hqueue htrain, if_pos hresends]
  refine ⟨?_, ?_, ?_⟩
  · rw [((SameBut.refl [] [.ports] _).setPort _ _ (by simp)).laneX (by simp), trainingIs_train]
  · rw [Device.port_setPort_self]
  · exact ((trainingIs_frame _ _ _).mono_parts (by simp)).setPort _ _ (by simp)

theorem camTrainTimeout_end_spec (hresends : 3 ≤ t.resends) (hport : t.byPort = false) : let e := camTrainTimeout p d
    (e.laneX (.cpRx p k)).train = none ∧
    e.get (F.LN_FLAGS.TRAIN_FAIL (laneBase (.cpRx p k))) = 1 ∧
    e.get (F.LN_CTRL.RETRAIN (laneBase (.cpRx p k))) = 0 ∧
    e.get (F.LN_FAR_TAPS.VALID (laneBase (.cpRx p k))) = 1 ∧
    SameBut [R.LN_CTRL (laneBase (.cpRx p k)), R.LN_FLAGS (laneBase (.cpRx p k)), R.LN_FAR_TAPS (laneBase (.cpRx p k))]
      [.fresh, .lanes, .ports, .evt] d e := by
  generalize hfreed : d.setPort p { d.port p with trainReq := none } = c
  have hc : SameBut [] [.ports] d c := hfreed ▸ (SameBut.refl _ _ d).setPort _ _ (by simp)
  have he : camTrainTimeout p d = trainIssue (trainFinish c (.cpRx p k) t true) p := by
    rw [camTrainTimeout_of_pending hreq hqueue htrain, if_neg (Nat.not_lt.2 hresends), hfreed, camTrainNext, rxLane_val]
    exact if_neg (by simp [hport])
  have hissued := trainIssue_frame (trainFinish c (.cpRx p k) t true) p
  have hshown := trainFinish_shown_frame (d := c) (l := .cpRx p k) t true
  have hfinish : trainFinish c (.cpRx p k) t true =
      (farShown (trainStopped c (.cpRx p k)) (.cpRx p k) t.reply).raise (F.LN_FLAGS.TRAIN_FAIL (laneBase (.cpRx p k))) := by
    rw [trainFinish_eq, Bool.true_or, Device.raiseIf_true]
  dsimp only
  rw [he]
  refine ⟨?_, ?_, ?_, ?_, ?_⟩
  · refine trainIssue_laneX_of_idle ?_
    rw [hshown.laneX (by simp), trainStopped_laneX]
  · rw [hissued.get (by simp), hfinish]
    exact Device.get_raise_self _ _ rfl (by simp)
  · rw [hissued.get (by simp), hshown.get (by simp), trainStopped_retrain]
  · rw [hissued.get (by simp), hfinish, Device.get_raise_ne _ _ _ (.inl (by simp)), farShown_valid]
  · exact ((hc.mono (List.nil_subset _) (by simp)).then (trainFinish_frame c _ t true) (by simp [trainRegs]) (by simp)).then hissued
      (List.nil_subset _) (by simp)

end

/-- Settles O9: every clause is the equation of one step of a lane's taps, scans or training. -/
theorem laneTapsEyeAndTraining : Obligations.LaneTapsEyeAndTraining := by
  unfold Obligations.LaneTapsEyeAndTraining
  refine ⟨?_, ?_, ?_, ?_, ?_, ?_, ?_, ?_, ?_, ?_⟩
  · intro l value s hl hv hgate
    exact ⟨_, (exec_txTapsWrite l value s).trans (congrArg s.done (regAccess_of_gateOpen hgate _ _)), lnWriteTaps_of_valid hl hv⟩
  · intro l value s hl hv hgate
    exact ⟨_, (exec_txTapsWrite l value s).trans (congrArg s.done (regAccess_of_gateOpen hgate _ _)), lnWriteTaps_of_invalid hl hv⟩
  · intro l scan s ⟨hrx, hsync, htrain⟩ hlow
    exact ⟨_, (exec_eyeScanComplete l scan s).trans (congrArg s.done (eyeScanDev_of_open scan hrx hsync htrain hlow)), eyeShown_spec scan⟩
  · intro l scan s ⟨hrx, hsync⟩ hlow
    exact ⟨_, exec_eyeScanComplete l scan s, eyeScanDev_of_low scan hsync hlow hrx⟩
  · intro p k scan s ⟨hsync, htrain⟩ hlow ⟨hrun, hlane, hpolicy⟩
    exact ⟨_, exec_eyeScanComplete (.cpRx p k) scan s, eyeScanDev_of_low scan hsync hlow rfl,
      eyeScanDev_of_low_run scan hsync htrain hlow hrun hlane hpolicy⟩
  · intro p k s ⟨hrun, _, hreq⟩ ⟨hmode, hsteps⟩ hidle hgate
    exact ⟨_, exec_retrain_camera hgate, camRetrain_spec hrun hreq hmode hsteps hidle⟩
  · intro p k s hrun hgate
    exact ⟨_, exec_retrain_camera hgate, camRetrain_of_run hrun⟩
  · intro p k tag body word t s ⟨hevent, hreq⟩ ⟨htrain, hwait⟩ hqueued
    exact ⟨_, exec_trainReply_camera p word s, trainReplyCam_spec hevent hreq htrain hwait hqueued⟩
  · intro p k t tag s ⟨hreq, hqueue⟩ ⟨htrain, hresends⟩
    exact ⟨_, exec_trainReqTimeout_camera p s, camTrainTimeout_resend_spec hreq hqueue htrain hresends⟩
  · intro p k t tag s ⟨hreq, hqueue⟩ ⟨htrain, hresends, hport⟩
    exact ⟨_, exec_trainReqTimeout_camera p s, camTrainTimeout_end_spec hreq hqueue htrain hresends hport⟩

end Sys2Proof.Machine


/-! # A class outside Table 8.1 in a release

The clause of an eject that one valve covers does not bound the class of the object; the counter of a class that is none of the eight lies
on another register. -/

namespace Sys2Proof.Machine

theorem exec_decisionRelease (s : State) : exec .decisionRelease s = s.done (releaseDev s.dev) := rfl

/-- A class whose counter would lie on the count of windows. -/
def classOnWindows : Nat := (R.EJ_WINDOWS - R.CASC_CLASS_k 0) / 4

/-- The flight to row 0, due in time. -/
def flightInTime : RowFlight := { row := 0, tF := 5000000, tB := 6000000, deadline := 4000000 }

def oddForest : Forest := { cls := classOnWindows }

/-- An object of that class, which the flag rule ejects in row 0. -/
def oddClassObj : JObj := { forest := some oddForest, sel := .forest, dec := { s := { xMin := 2, xMax := 6, flags := 1 } }, rows := [flightInTime] }

/-- It waits for its release, valve 0 alone in service. -/
def oddClassState : State :=
  (Tests.onRegs [(R.CASC_FLAG_RULE, 0x90000001), (R.SPn_CFG 0, 0x80000000), (R.EJ_Vc_MAP 0, 0x800A0000), (R.EJ_Vc_OPEN 0, 1000)]).but
    (fun d => d.setObjs [oddClassObj])

theorem oddClassState_windows : (releaseDev oddClassState.dev).get F.EJ_WINDOWS.COUNT = 2 := by decide +kernel

/-- Refutes O23: the clause of an eject that one valve covers leaves the class open, and the counter of class 0x3F7FFC0 is EJ_WINDOWS, which
then counts the object and its window. -/
theorem not_decisionRelease : ¬ Obligations.DecisionRelease := by
  unfold Obligations.DecisionRelease
  rintro ⟨-, -, -, hEject⟩
  obtain ⟨e, hexec, -, -, hwindows, -⟩ := hEject oddClassObj [] oddForest flightInTime 0 oddClassState (by decide) (by decide +kernel)
    (by decide) (by decide +kernel) (by decide) (by decide) (by decide)
  have he : e = releaseDev oddClassState.dev := dev_of_done_eq_next ((exec_decisionRelease oddClassState).symm.trans hexec)
  rw [he, oddClassState_windows] at hwindows
  exact absurd hwindows (by decide)

end Sys2Proof.Machine


/-! # What a segmenter shows of a line

The line taken from geometry's store, the objects handed over, and the counters of a view (R152, R155 to R157). -/

namespace Sys2Proof.Machine

theorem exec_segLineProcess (v : Fin 4) (s : State) : exec (.segLineProcess v) s = s.done (segLineDev v s.dev) := rfl
theorem exec_segLostLine (v : Fin 4) (s : State) : exec (.segLostLine v) s = s.done (segLostDev v s.dev) := rfl

section
variable {as : List Nat} {ps : List Part} {d e : Device}

theorem SameBut.setView (h : SameBut as ps d e) (v : Nat) (x : View) (hp : Part.geo ∈ ps) : SameBut as ps d (e.setView v x) :=
  h.parts_only rfl rfl rfl rfl (fun p hp' => by
    cases p with
    | geo => exact absurd hp hp'
    | _ => rfl)

theorem SameBut.setSeg (h : SameBut as ps d e) (v : Nat) (x : Seg) (hp : Part.basin ∈ ps) : SameBut as ps d (e.setSeg v x) := h.putBasin _ hp

theorem SameBut.seg (h : SameBut as ps d e) (hp : Part.basin ∉ ps) (v : Nat) : e.seg v = d.seg v := seg_congr (h.parts .basin hp) v

end

/-! ## A count of nothing -/

theorem full_of_eq_toNat (a : Nat) (w : Word) : (Fld.mk a 31 0).of w = w.toNat := by
  rw [Fld.of_eq_bitsOf]
  exact Nat.mod_eq_of_lt w.isLt

/-- A count of 0 in a register that is one counter leaves it. -/
theorem count_zero_rd (d : Device) (a b : Nat) : (d.count ⟨a, 31, 0⟩ 0).rd b = d.rd b := by
  by_cases h : b = a
  · subst h
    have hcount : (d.count ⟨b, 31, 0⟩ 0).get ⟨b, 31, 0⟩ = d.get ⟨b, 31, 0⟩ := by
      have hlt : d.get ⟨b, 31, 0⟩ < 2 ^ 32 := Device.get_lt d ⟨b, 31, 0⟩
      rw [Device.get_count_saturating _ _ _ (by simp)]
      exact Nat.min_eq_left (Nat.le_sub_one_of_lt hlt)
    unfold Device.get at hcount
    rw [full_of_eq_toNat, full_of_eq_toNat] at hcount
    exact BitVec.eq_of_toNat_eq hcount
  · exact Device.rd_wr_ne _ _ _ _ h

theorem count_zero_frame (d : Device) (a : Nat) : SameBut [] [] d (d.count ⟨a, 31, 0⟩ 0) :=
  have hone : SameBut [a] [] d (d.count ⟨a, 31, 0⟩ 0) := (SameBut.refl _ _ d).count _ (by simp)
  { hone with regs := fun b _ => count_zero_rd d a b }

/-! ## The line taken -/

/-- Geometry's store after the view's first line has left. -/
def viewTaken (d : Device) (v : Nat) (l : Int) (rest : List ViewLine) : Device :=
  (serveView d v l).setView v { (serveView d v l).view v with store := rest }

section
variable (d : Device) (v : Fin 4) (l : Int) (rest : List ViewLine)

/-- Another pairing and another geometry. -/
def withPairGeo (d : Device) (x : Pair) (y : Geo) : Device := { d with pr := x, geo := y }

theorem serveView_eq (v : Nat) : ∃ x : Pair, serveView d v l = { d with pr := x } := by
  unfold serveView
  split
  · split
    · exact ⟨d.pr, rfl⟩
    · exact ⟨_, rfl⟩
  · exact ⟨d.pr, rfl⟩

theorem viewTaken_eq : ∃ (x : Pair) (y : Geo), viewTaken d v l rest = withPairGeo d x y := by
  obtain ⟨x, hx⟩ := serveView_eq d l v
  unfold viewTaken
  rw [hx]
  exact ⟨x, _, rfl⟩

theorem withPairGeo_asOf (x : Pair) (y : Geo) (c : Int) : (withPairGeo d x y).asOf c = withPairGeo (d.asOf c) x y := by
  by_cases harmed : d.sluState = sluArmed ∧ d.slu.count ≤ c
  · have hpending : d.asOf c = d.withStaged := if_pos harmed
    rw [hpending]
    exact if_pos harmed
  · cases hold : d.slu.old with
    | none =>
      have hlive (e : Device) (hslu : e.slu = d.slu) (hstate : e.sluState = d.sluState) : e.asOf c = e := by
        unfold Device.asOf
        rw [hslu, hstate, if_neg harmed, hold]
      rw [hlive d rfl rfl]
      exact hlive _ rfl rfl
    | some o =>
      have hold (e : Device) (hslu : e.slu = d.slu) (hstate : e.sluState = d.sluState) :
          e.asOf c = if c < o.count then { e with regs := o.regs, tabs := o.tabs } else e := by
        unfold Device.asOf
        rw [hslu, hstate, if_neg harmed, hold]
      rw [hold d rfl rfl, hold (withPairGeo d x y) rfl rfl]
      split <;> rfl

theorem viewTaken_frame : SameBut [] [.geo, .pr] d (viewTaken d v l rest) := by
  obtain ⟨x, hx⟩ := serveView_eq d l v
  unfold viewTaken
  rw [hx]
  exact ((SameBut.refl _ _ d).withPair x (by simp)).setView _ _ (by simp)

theorem viewTaken_store : ((viewTaken d v l rest).view v).store = rest :=
  congrArg View.store (unit_withUnit_self (serveView d v l).geo.views v.isLt _)

/-- The configuration of a line is that before the line left the store. -/
theorem viewTaken_asOf (c : Int) : ∃ (x : Pair) (y : Geo), (viewTaken d v l rest).asOf c = withPairGeo (d.asOf c) x y := by
  obtain ⟨x, y, h⟩ := viewTaken_eq d v l rest
  exact ⟨x, y, by rw [h, withPairGeo_asOf]⟩

theorem viewTaken_width (c : Int) (w : Nat) : viewWidth ((viewTaken d v l rest).asOf c) w = viewWidth (d.asOf c) w := by
  obtain ⟨x, y, h⟩ := viewTaken_asOf d v l rest c
  rw [h]
  rfl

theorem viewTaken_classes (c : Int) (w : Nat) : pixelClass ((viewTaken d v l rest).asOf c) w = pixelClass (d.asOf c) w := by
  obtain ⟨x, y, h⟩ := viewTaken_asOf d v l rest c
  rw [h]
  rfl

theorem viewTaken_get (c : Int) (f : Fld) : ((viewTaken d v l rest).asOf c).get f = (d.asOf c).get f := by
  obtain ⟨x, y, h⟩ := viewTaken_asOf d v l rest c
  rw [h]
  rfl

variable {d v l rest}

theorem segLineDev_of_line {b : List (List Nat)} (hstore : (d.view v).store = { count := l, bands := some b } :: rest) (hheld : heldLine d l = false) :
    segLineDev v d = segProcess (viewTaken d v l rest) v l b := by
  unfold segLineDev
  rw [hstore]
  exact if_neg (by rw [hheld]; decide)

theorem segLostDev_of_lost (hstore : (d.view v).store = { count := l, bands := none } :: rest) (hheld : heldLine d l = false) :
    segLostDev v d = segLost (viewTaken d v l rest) v l := by
  unfold segLostDev
  rw [hstore]
  exact if_neg (by rw [hheld]; decide)

end

/-- Without a calibration run the classes of a line reach nobody. -/
theorem calMask_of_idle {d : Device} (h : d.cal.run = none) (v : Nat) (l : Int) (fg : Option Nat) : calMask d v l fg = d := by
  unfold calMask
  rw [h]
  rfl

/-! ## Objects handed over -/

section
variable (d : Device) (v : Fin 4)

theorem handOver_frame (c : Int) (os : List Obj) : SameBut [R.SEGv_OBJ_CLOSED v] [.basin] d (handOver d v c os) :=
  ((SameBut.refl _ _ d).setSeg _ _ (by simp)).count _ (by simp)

theorem handOver_seg (c : Int) (os : List Obj) : (handOver d v c os).seg v =
    { d.seg v with queue := (d.seg v).queue ++ (sortBy closeBefore os).map (fun o => { closing := c, desc := descOf v o }) } :=
  (((SameBut.refl [R.SEGv_OBJ_CLOSED v] [] _).count _ (by simp)).seg (by simp) v).trans (Device.seg_setSeg_self d v _)

theorem handOver_closed (c : Int) (os : List Obj) : (handOver d v c os).get (F.SEGv_OBJ_CLOSED.COUNT v) =
    min (d.get (F.SEGv_OBJ_CLOSED.COUNT v) + os.length) 0xFFFFFFFF :=
  Device.get_count_saturating _ _ _ (by simp)

theorem showOpen_frame : SameBut [R.SEGv_OPEN v] [] d (showOpen d v) := ((SameBut.refl _ _ d).set _ (by simp)).set _ (by simp)

theorem showOpen_open (h : (d.seg v).objs.length ≤ 4096) : (showOpen d v).get (F.SEGv_OPEN.OPEN v) = (d.seg v).objs.length := by
  unfold showOpen
  rw [Device.get_set_ne _ _ _ _ (.inr (.inr (by simp))), Device.get_set_self _ _ _ (by simp)]
  exact Nat.mod_eq_of_lt (Nat.lt_of_le_of_lt h (by decide : 4096 < 2 ^ 13))

/-! ## A change of WIDTH -/

/-- The view's segmenter with nothing open. -/
def segEmptied (s : Seg) : Seg := { s with objs := [], split := [], runs := [], seeds := [], chains := [], prev := none }

theorem segFlush_frame (a : Int) : SameBut [R.SEGv_OBJ_CLOSED v, R.SEGv_OPEN v] [.basin] d (segFlush d v a) :=
  (((SameBut.refl _ _ d).setSeg _ _ (by simp)).then (handOver_frame _ v a _) (by simp) (by simp)).then (showOpen_frame _ v) (by simp) (by simp)

theorem segFlush_seg (a : Int) : ∃ q : List Closed, (segFlush d v a).seg v = { segEmptied (d.seg v) with queue := q } := by
  unfold segFlush
  dsimp only
  rw [(showOpen_frame _ v).seg (by simp), handOver_seg, Device.seg_setSeg_self]
  exact ⟨_, rfl⟩

/-- The view's segmenter at the line, its objects closed where WIDTH has changed. -/
def lineFlushed (d : Device) (v : Nat) (l : Int) (w : Nat) : Device := if (d.seg v).width ≠ w ∧ (d.seg v).width ≠ 0 then segFlush d v l else d

variable {d v} {l : Int} {w : Nat}

theorem lineFlushed_of_same (h : (d.seg v).width = w) : lineFlushed d v l w = d := if_neg fun hne => hne.1 h

theorem lineFlushed_frame : SameBut [R.SEGv_OBJ_CLOSED v, R.SEGv_OPEN v] [.basin] d (lineFlushed d v l w) :=
  iteInduction (fun _ => segFlush_frame d v l) fun _ => .refl _ _ d

theorem lineFlushed_seg : (lineFlushed d v l w).seg v = d.seg v ∨ ∃ q : List Closed, (lineFlushed d v l w).seg v = { segEmptied (d.seg v) with queue := q } :=
  iteInduction (motive := fun e : Device => e.seg v = d.seg v ∨ ∃ q : List Closed, e.seg v = { segEmptied (d.seg v) with queue := q })
    (fun _ => .inr (segFlush_seg d v l)) fun _ => .inl rfl

end

end Sys2Proof.Machine


/-! # The line step in its parts

Each part of Table 7.1 as a function of the view's segmenter and of the runs of the line, and the line step as what they show (R152). -/

namespace Sys2Proof.Machine

/-! ## The counters of a line -/

/-- The counters and flags of a processed line: objects absorbed, runs of the line, cells of the runs past the limit, openings refused and
objects closed by size. -/
def lineCounted (d : Device) (v absorbed runs excluded refused splits : Nat) : Device :=
  let d2 := (d.count (F.SEGv_LINES.COUNT v)).count (F.SEGv_OBJ_MERGES.COUNT v) absorbed
  let d3 := if runs ≤ 8192 then d2 else
    ((d2.count (F.SEGv_RUNLIM_LINES.COUNT v)).count (F.SEGv_CELLS_EXCL.COUNT v) excluded).raise (F.SEGv_FLAGS.RUNLIM v)
  let d4 := (d3.count (F.SEGv_OBJ_REFUSED.COUNT v) refused).raiseIf (0 < refused) (F.SEGv_FLAGS.OPENLIM v)
  (d4.count (F.SEGv_OVERSIZE.COUNT v) splits).raiseIf (0 < splits) (F.SEGv_FLAGS.OVERSIZE v)

/-- The registers that it writes after SEGv_LINES. -/
abbrev lineRegs (v : Nat) : List Nat :=
  [R.SEGv_OBJ_MERGES v, R.SEGv_RUNLIM_LINES v, R.SEGv_CELLS_EXCL v, R.SEGv_FLAGS v, R.SEGv_OBJ_REFUSED v, R.SEGv_OVERSIZE v]

section
variable (d : Device) (v : Fin 4) (absorbed runs excluded refused splits : Nat)

theorem lineCounted_frame : SameBut (lineRegs v) [.evt] (d.count (F.SEGv_LINES.COUNT v)) (lineCounted d v absorbed runs excluded refused splits) := by
  have hmerged : SameBut (lineRegs v) [.evt] (d.count (F.SEGv_LINES.COUNT v))
      ((d.count (F.SEGv_LINES.COUNT v)).count (F.SEGv_OBJ_MERGES.COUNT v) absorbed) := (SameBut.refl _ _ _).count _ (by simp)
  refine (((SameBut.count ?_ _ (by simp)).raiseIf _ (by simp) (by simp)).count _ (by simp)).raiseIf _ (by simp) (by simp)
  exact iteInduction (motive := SameBut (lineRegs v) [.evt] (d.count (F.SEGv_LINES.COUNT v))) (fun _ => hmerged) fun _ =>
    ((hmerged.count _ (by simp)).count _ (by simp)).raise (by simp) (by simp)

theorem lineCounted_lines : (lineCounted d v absorbed runs excluded refused splits).get (F.SEGv_LINES.COUNT v) =
    min (d.get (F.SEGv_LINES.COUNT v) + 1) 0xFFFFFFFF :=
  ((lineCounted_frame d v absorbed runs excluded refused splits).get (by simp)).trans (Device.get_count_saturating _ _ _ (by simp))

theorem lineCounted_all_frame :
    SameBut (R.SEGv_LINES v :: lineRegs v) [.evt] d (lineCounted d v absorbed runs excluded refused splits) :=
  ((SameBut.refl _ _ d).count _ (by simp)).then (lineCounted_frame d v absorbed runs excluded refused splits) (List.subset_cons_self _ _) (by simp)

/-- The view's segmenter becomes `x`, `closed` are handed over, and the counters and OPEN follow. -/
def lineShown (d : Device) (v : Nat) (l : Int) (x : Seg) (closed : List Obj) (absorbed runs excluded refused splits : Nat) : Device :=
  showOpen (lineCounted (handOver (d.setSeg v x) v l closed) v absorbed runs excluded refused splits) v

/-- The registers that a line shows in. -/
abbrev shownRegs (v : Nat) : List Nat := R.SEGv_OPEN v :: R.SEGv_OBJ_CLOSED v :: R.SEGv_LINES v :: lineRegs v

variable (l : Int) (x : Seg) (closed : List Obj)

theorem lineShown_frame : SameBut (shownRegs v) [.basin, .evt] d (lineShown d v l x closed absorbed runs excluded refused splits) :=
  ((((SameBut.refl _ _ d).setSeg _ _ (by simp)).then (handOver_frame _ v l closed) (by simp) (by simp)).then
    (lineCounted_all_frame _ v absorbed runs excluded refused splits) (by simp) (by simp)).then (showOpen_frame _ v) (by simp) (by simp)

theorem lineShown_seg : (lineShown d v l x closed absorbed runs excluded refused splits).seg v =
    { x with queue := x.queue ++ (sortBy closeBefore closed).map (fun o => { closing := l, desc := descOf v o }) } := by
  unfold lineShown
  rw [(showOpen_frame _ v).seg (by simp), (lineCounted_all_frame _ v absorbed runs excluded refused splits).seg (by simp), handOver_seg,
    Device.seg_setSeg_self]

theorem lineShown_lines : (lineShown d v l x closed absorbed runs excluded refused splits).get (F.SEGv_LINES.COUNT v) =
    min (d.get (F.SEGv_LINES.COUNT v) + 1) 0xFFFFFFFF := by
  unfold lineShown
  rw [(showOpen_frame _ v).get (by simp), lineCounted_lines, (handOver_frame _ v l closed).get (by simp)]
  rfl

theorem lineShown_closed : (lineShown d v l x closed absorbed runs excluded refused splits).get (F.SEGv_OBJ_CLOSED.COUNT v) =
    min (d.get (F.SEGv_OBJ_CLOSED.COUNT v) + closed.length) 0xFFFFFFFF := by
  unfold lineShown
  rw [(showOpen_frame _ v).get (by simp), (lineCounted_all_frame _ v absorbed runs excluded refused splits).get (by simp), handOver_closed]
  rfl

theorem lineShown_open (h : x.objs.length ≤ 4096) :
    (lineShown d v l x closed absorbed runs excluded refused splits).get (F.SEGv_OPEN.OPEN v) = x.objs.length := by
  have hobjs : ((lineCounted (handOver (d.setSeg v x) v l closed) v absorbed runs excluded refused splits).seg v).objs = x.objs := by
    rw [(lineCounted_all_frame _ v absorbed runs excluded refused splits).seg (by simp), handOver_seg, Device.seg_setSeg_self]
  unfold lineShown
  rw [showOpen_open _ _ (hobjs ▸ h), hobjs]

end

/-! ## Components and merges (steps 2 to 4) -/

section
variable (s : Seg) (all : List (Nat × Nat))

/-- The runs of the previous processed line. -/
def linePrev : List SegRun := if s.prev.isSome then s.runs else []

def lineComps : List Component := (all.take 8192).foldl (fun cs r => joinRun cs r (linksOf (linePrev s) r)) []

def lineMerged : List Obj × Nat := mergeAll s.objs (lineComps s all)

/-- The runs of the previous line with the objects that they passed to. -/
def lineHeld : List SegRun :=
  let heir (id : Nat) : Nat :=
    match (lineComps s all).find? (fun c => c.owners.contains id) with | some c => (compObj (lineMerged s all).1 c).getD id | none => id
  (linePrev s).map (fun r => { r with owner := r.owner.map (fun id => if s.seeds.contains id then id else heir id) })

/-! ## Objects that stay and that open (steps 5 and 6) -/

def lineStays (o : Obj) : Bool := (lineComps s all).any (fun c => c.owners.contains o.id)

def lineClosed : List Obj := ((lineMerged s all).1.filter (fun o => !lineStays s all o)).map (settleAll s.runs)

def lineKept : List Obj := (lineMerged s all).1.filter (lineStays s all)

/-- The components without an open object, from left to right. -/
def lineNew : List Component :=
  sortBy (fun a b => decide (compLeft a < compLeft b)) ((lineComps s all).filter (fun c => (compObj (lineKept s all) c).isNone))

def lineOpened (d : Device) (v : Nat) (l : Int) : OpenAcc :=
  (lineNew s all).foldl (openComp v l s.seeds s.chains)
    { dev := d, objs := lineKept s all, owned := (lineComps s all).filterMap (fun c => (compObj (lineKept s all) c).map (fun id => (c, id))), refused := 0 }

/-! ## Cells (step 7) -/

/-- The cells of one component into its object: its runs, and its flags and chain. -/
def compFilled (cells : Array (Nat × List Nat)) (w : Nat) (l : Int) (a : List Obj × List SegRun) (e : Component × Nat) : List Obj × List SegRun :=
  match a.1.find? (fun o => o.id = e.2) with
  | none => a
  | some o0 =>
    let above (x : Nat) : Bool := (lineHeld s all).any (fun r => r.owner == some e.2 && !s.seeds.contains e.2 && decide (r.first ≤ x) && decide (x ≤ r.last))
    let (o1, rs) := e.1.runs.foldl (fun (p : Obj × List SegRun) r => let (o, sr) := addRun cells above l r p.1; (o, p.2 ++ [sr])) (o0, [])
    let o2 := ((o1.flagIf (e.1.runs.any (fun r => r.1 == 0 || r.2 == w - 1)) vfEdge).flagIf (decide (0 < s.lostRun)) vfGap).flagIf
      (e.1.owners.any s.seeds.contains) vfCont |> withChains s.chains e.1.owners
    (a.1.map (fun o => if o.id = e.2 then o2 else o), a.2 ++ rs)

def lineFilled (cells : Array (Nat × List Nat)) (w : Nat) (d : Device) (v : Nat) (l : Int) : List Obj × List SegRun :=
  (lineOpened s all d v l).owned.foldl (compFilled s all cells w l) ((lineOpened s all d v l).objs, [])

/-- The cells of the previous line that the object no longer covers join PERIM. -/
def perimSettled (newRuns : List SegRun) (o : Obj) : Obj :=
  { o with
    perim := o.perim + ((((lineHeld s all).filter (fun r => r.owner == some o.id && !s.seeds.contains o.id)).flatMap SegRun.inner).filter
      (fun x => !coveredBy newRuns o.id x)).length }

end

/-! ## Objects closed by size (step 9) -/

section
variable (cfg : Device) (l : Int)

def tooBig (o : Obj) : Bool :=
  decide ((cfg.get F.BSN_CFG.LEN_MAX : Int) ≤ l - o.first + 1) || decide (cfg.get F.BSN_CFG.WID_MAX < o.xMax - o.xMin + 1)

variable (objs : List Obj) (newRuns : List SegRun)

def lineSplit : List Obj := (objs.filter (tooBig cfg l)).map (fun o => (settleAll newRuns o).flag (vfOversize + vfSplit))

/-- The view's segmenter after the line, from the objects and runs of step 7. -/
def lineSeg (x : Seg) (runs w : Nat) : Seg :=
  { x with
    objs := (objs.filter (fun o => !tooBig cfg l o)).map (fun o => o.flagIf (decide (8192 < runs)) vfRunlim), prev := some l,
    runs := newRuns.map (fun r => if r.owner.any ((lineSplit cfg l objs newRuns).map Obj.id).contains then { r with inner := [] } else r),
    seeds := (lineSplit cfg l objs newRuns).map Obj.id, chains := (lineSplit cfg l objs newRuns).map (fun o => (o.id, o.chain)), lostRun := 0,
    split := lineSplit cfg l objs newRuns, last := some l, width := w }

end

/-! ## The line step -/

section
variable (cfg : Device) (v : Nat) (bands : List (List Nat))

/-- The class of every cell of the line. -/
def lineClasses : List Nat := (transposeBands bands (viewWidth cfg v)).map (pixelClass cfg v)

def lineRuns : List (Nat × Nat) := runsFrom (lineClasses cfg v bands) 0 none

def lineCells : Array (Nat × List Nat) := ((lineClasses cfg v bands).zip (transposeBands bands (viewWidth cfg v))).toArray

/-- The objects and runs after step 7, from the device `d` and the view's segmenter `s` at the line. -/
def lineResult (d : Device) (s : Seg) (l : Int) : List Obj × List SegRun :=
  let filled := lineFilled s (lineRuns cfg v bands) (lineCells cfg v bands) (viewWidth cfg v) d v l
  (filled.1.map (perimSettled s (lineRuns cfg v bands) filled.2), filled.2)

/-- The line as it is shown. -/
def lineStep (d : Device) (s : Seg) (l : Int) : Device :=
  let all := lineRuns cfg v bands
  let opened := lineOpened s all d v l
  let r := lineResult cfg v bands d s l
  lineShown opened.dev v l (lineSeg cfg l r.1 r.2 (opened.dev.seg v) all.length (viewWidth cfg v)) (lineClosed s all ++ s.split) (lineMerged s all).2
    all.length ((all.drop 8192).map (fun r => r.2 + 1 - r.1)).sum opened.refused (lineSplit cfg l r.1 r.2).length

/-- The foreground of the line, a bit per cell. -/
def lineForeground : Nat :=
  ((lineClasses cfg v bands).zip (List.range (lineClasses cfg v bands).length)).foldl (fun m (k, c) => if k = 0 then m else m + 2 ^ c) 0

theorem segProcess_eq (d : Device) (l : Int) : segProcess d v l bands =
    calMask (lineStep (d.asOf l) v bands (lineFlushed d v l (viewWidth (d.asOf l) v)) ((lineFlushed d v l (viewWidth (d.asOf l) v)).seg v) l) v l
      (some (lineForeground (d.asOf l) v bands)) := by
  delta segProcess lineStep lineResult lineFilled lineSeg lineShown lineCounted
  rfl

end

end Sys2Proof.Machine


/-! # The objects of a line

How many objects are open after a line, and a line without foreground (R153 to R155). -/

namespace Sys2Proof.Machine

/-! ## How many objects are open -/

section
variable (s : Seg) (all : List (Nat × Nat)) (d : Device) (v : Fin 4) (l : Int)

theorem mergeComp_length (objs : List Obj) (c : Component) : (mergeComp objs c).1.length ≤ objs.length := by
  unfold mergeComp
  dsimp only
  split
  · exact Nat.le_refl _
  · split
    · exact Nat.le_refl _
    · exact (List.length_map _).le.trans (List.length_filter_le _ _)

theorem lineMerged_length : (lineMerged s all).1.length ≤ s.objs.length :=
  List.foldlRecOn (motive := fun acc : List Obj × Nat => acc.1.length ≤ s.objs.length) _ _ (Nat.le_refl _)
    fun acc h c _ => (mergeComp_length acc.1 c).trans h

theorem lineKept_length : (lineKept s all).length ≤ s.objs.length := (List.length_filter_le _ _).trans (lineMerged_length s all)

theorem openComp_length {seeds : List Nat} {chains : List (Nat × Int)} {acc : OpenAcc} {c : Component} (h : acc.objs.length ≤ 4096) :
    (openComp v l seeds chains acc c).objs.length ≤ 4096 := by
  unfold openComp
  split
  case isTrue hroom =>
    dsimp only
    rw [List.length_append]
    exact hroom
  case isFalse => exact h

theorem lineOpened_length (h : s.objs.length ≤ 4096) : (lineOpened s all d v l).objs.length ≤ 4096 :=
  List.foldlRecOn (motive := fun acc : OpenAcc => acc.objs.length ≤ 4096) _ _ ((lineKept_length s all).trans h)
    fun _ hacc _ _ => openComp_length v l hacc

/-- The registers that opening an object writes. -/
abbrev openRegs (v : Nat) : List Nat := [R.SEGv_NEXT_ID v, R.SEGv_OBJ_OPENED v]

theorem openComp_frame (seeds : List Nat) (chains : List (Nat × Int)) (acc : OpenAcc) (c : Component) :
    SameBut (openRegs v) [] acc.dev (openComp v l seeds chains acc c).dev := by
  unfold openComp
  split
  · exact ((SameBut.refl _ _ _).set _ (by simp)).count _ (by simp)
  · exact .refl _ _ _

theorem lineOpened_frame : SameBut (openRegs v) [] d (lineOpened s all d v l).dev :=
  List.foldlRecOn (motive := fun acc : OpenAcc => SameBut (openRegs v) [] d acc.dev) _ _ (.refl _ _ d)
    fun acc hacc c _ => hacc.trans (openComp_frame v l _ _ acc c)

theorem compFilled_length (cells : Array (Nat × List Nat)) (w : Nat) (a : List Obj × List SegRun) (e : Component × Nat) :
    (compFilled s all cells w l a e).1.length = a.1.length := by
  unfold compFilled
  split
  · rfl
  · exact List.length_map _

theorem lineFilled_length (cells : Array (Nat × List Nat)) (w : Nat) :
    (lineFilled s all cells w d v l).1.length = (lineOpened s all d v l).objs.length :=
  List.foldlRecOn (motive := fun a : List Obj × List SegRun => a.1.length = (lineOpened s all d v l).objs.length) _ _ rfl
    fun a h e _ => (compFilled_length s all l cells w a e).trans h

theorem lineResult_length (cfg : Device) (bands : List (List Nat)) :
    (lineResult cfg v bands d s l).1.length = (lineOpened s (lineRuns cfg v bands) d v l).objs.length :=
  (List.length_map _).trans (lineFilled_length s _ d v l _ _)

theorem lineSeg_length (cfg : Device) (objs : List Obj) (newRuns : List SegRun) (x : Seg) (runs w : Nat) :
    (lineSeg cfg l objs newRuns x runs w).objs.length ≤ objs.length :=
  (List.length_map _).le.trans (List.length_filter_le _ _)

end

/-! ## The line step shown -/

section
variable (cfg d : Device) (v : Fin 4) (bands : List (List Nat)) (s : Seg) (l : Int)

/-- The registers that a line step may write. -/
abbrev stepRegs (v : Nat) : List Nat := R.SEGv_NEXT_ID v :: R.SEGv_OBJ_OPENED v :: shownRegs v

/-- The view's segmenter that the line step shows. -/
def stepSeg : Seg :=
  lineSeg cfg l (lineResult cfg v bands d s l).1 (lineResult cfg v bands d s l).2 ((lineOpened s (lineRuns cfg v bands) d v l).dev.seg v)
    (lineRuns cfg v bands).length (viewWidth cfg v)

/-- What the line step shows beside the segmenter. -/
theorem lineStep_eq : ∃ absorbed runs excluded refused splits : Nat, lineStep cfg v bands d s l =
    lineShown (lineOpened s (lineRuns cfg v bands) d v l).dev v l (stepSeg cfg d v bands s l) (lineClosed s (lineRuns cfg v bands) ++ s.split)
      absorbed runs excluded refused splits :=
  ⟨_, _, _, _, _, rfl⟩

theorem lineStep_frame : SameBut (stepRegs v) [.basin, .evt] d (lineStep cfg v bands d s l) :=
  ((lineOpened_frame s (lineRuns cfg v bands) d v l).mono (by simp) (by simp)).then (lineShown_frame _ v _ _ _ _ _ _ _ _) (by simp) (by simp)

theorem lineStep_seg : (lineStep cfg v bands d s l).seg v = { stepSeg cfg d v bands s l with
    queue := (stepSeg cfg d v bands s l).queue ++ (sortBy closeBefore (lineClosed s (lineRuns cfg v bands) ++ s.split)).map
      (fun o => { closing := l, desc := descOf v o }) } :=
  lineShown_seg _ v _ _ _ _ _ _ _ _

theorem stepSeg_marks : (stepSeg cfg d v bands s l).last = some l ∧ (stepSeg cfg d v bands s l).prev = some l ∧
    (stepSeg cfg d v bands s l).lostRun = 0 ∧ (stepSeg cfg d v bands s l).width = viewWidth cfg v := ⟨rfl, rfl, rfl, rfl⟩

theorem stepSeg_length (h : s.objs.length ≤ 4096) : (stepSeg cfg d v bands s l).objs.length ≤ 4096 :=
  (lineSeg_length _ _ _ _ _ _ _).trans ((lineResult_length s d v l cfg bands).le.trans (lineOpened_length s _ d v l h))

theorem lineStep_spec (h : s.objs.length ≤ 4096) : let e := lineStep cfg v bands d s l
    (e.seg v).last = some l ∧ (e.seg v).prev = some l ∧ (e.seg v).lostRun = 0 ∧ (e.seg v).width = viewWidth cfg v ∧
      e.get (F.SEGv_LINES.COUNT v) = min (d.get (F.SEGv_LINES.COUNT v) + 1) 0xFFFFFFFF ∧
      (e.seg v).objs.length ≤ 4096 ∧ e.get (F.SEGv_OPEN.OPEN v) = (e.seg v).objs.length ∧
      SameBut (stepRegs v) [.basin, .evt] d e := by
  have hseg := lineStep_seg cfg d v bands s l
  have hopened := lineOpened_frame s (lineRuns cfg v bands) d v l
  have hlen := stepSeg_length cfg d v bands s l h
  have hlines : (lineStep cfg v bands d s l).get (F.SEGv_LINES.COUNT v) = min (d.get (F.SEGv_LINES.COUNT v) + 1) 0xFFFFFFFF := by
    obtain ⟨absorbed, runs, excluded, refused, splits, heq⟩ := lineStep_eq cfg d v bands s l
    rw [heq, lineShown_lines, hopened.get (by simp)]
  have hopen : (lineStep cfg v bands d s l).get (F.SEGv_OPEN.OPEN v) = (stepSeg cfg d v bands s l).objs.length := by
    obtain ⟨absorbed, runs, excluded, refused, splits, heq⟩ := lineStep_eq cfg d v bands s l
    rw [heq, lineShown_open _ v _ _ _ _ _ _ _ _ hlen]
  obtain ⟨hlast, hprev, hlost, hwidth⟩ := stepSeg_marks cfg d v bands s l
  dsimp only
  rw [hseg]
  generalize stepSeg cfg d v bands s l = x at hlen hopen hlast hprev hlost hwidth
  exact ⟨hlast, hprev, hlost, hwidth, hlines, hlen, hopen, lineStep_frame cfg d v bands s l⟩

end

/-! ## Any line -/

section
variable {d : Device} {v : Fin 4} {l : Int} {b : List (List Nat)} {rest : List ViewLine}

/-- The registers that a flush of the view writes are among those of the line step. -/
theorem lineFlushed_step_frame (d : Device) (v : Fin 4) (l : Int) (w : Nat) : SameBut (stepRegs v) [.basin, .evt] d (lineFlushed d v l w) :=
  lineFlushed_frame.mono (by simp) (by simp)

theorem lineFlushed_length {w : Nat} (h : (d.seg v).objs.length ≤ 4096) : ((lineFlushed d v l w).seg v).objs.length ≤ 4096 := by
  rcases lineFlushed_seg (d := d) (v := v) (l := l) (w := w) with heq | ⟨q, heq⟩
  · rwa [heq]
  · rw [heq]
    exact Nat.zero_le _

/-- The device that the line step starts from. -/
def lineStart (d : Device) (v : Nat) (l : Int) (rest : List ViewLine) : Device :=
  lineFlushed (viewTaken d v l rest) v l (viewWidth ((viewTaken d v l rest).asOf l) v)

theorem lineStart_frame (d : Device) (v : Fin 4) (l : Int) (rest : List ViewLine) :
    SameBut (stepRegs v) [.geo, .basin, .pr, .evt] d (lineStart d v l rest) :=
  ((viewTaken_frame d v l rest).mono (by simp) (by simp)).then (lineFlushed_step_frame _ v l _) (List.Subset.refl _) (by simp)

theorem lineStart_flush_frame (d : Device) (v : Fin 4) (l : Int) (rest : List ViewLine) :
    SameBut [R.SEGv_OBJ_CLOSED v, R.SEGv_OPEN v] [.geo, .basin, .pr] d (lineStart d v l rest) :=
  ((viewTaken_frame d v l rest).mono (by simp) (by simp)).then lineFlushed_frame (by simp) (by simp)

theorem viewTaken_seg (d : Device) (v : Fin 4) (l : Int) (rest : List ViewLine) : (viewTaken d v l rest).seg v = d.seg v :=
  (viewTaken_frame d v l rest).seg (by simp) v

theorem lineStart_length (h : (d.seg v).objs.length ≤ 4096) : ((lineStart d v l rest).seg v).objs.length ≤ 4096 :=
  lineFlushed_length (by rwa [viewTaken_seg])

/-- Where WIDTH has not changed, the line starts from the device as the line was taken. -/
theorem lineStart_of_same (h : (d.seg v).width = viewWidth (d.asOf l) v) : lineStart d v l rest = viewTaken d v l rest :=
  lineFlushed_of_same (by rw [viewTaken_seg, viewTaken_width, h])

/-- The line step of a view's first line. -/
theorem segLineDev_eq (hstore : (d.view v).store = { count := l, bands := some b } :: rest) (hheld : heldLine d l = false) (hidle : d.cal.run = none) :
    segLineDev v d = lineStep ((viewTaken d v l rest).asOf l) v b (lineStart d v l rest) ((lineStart d v l rest).seg v) l := by
  have hframe := (lineStart_frame d v l rest).then
    (lineStep_frame ((viewTaken d v l rest).asOf l) (lineStart d v l rest) v b ((lineStart d v l rest).seg v) l) (List.Subset.refl _) (by simp)
  have hcal : (lineStep ((viewTaken d v l rest).asOf l) v b (lineStart d v l rest) ((lineStart d v l rest).seg v) l).cal = d.cal :=
    hframe.parts .cal (by simp)
  have hstart : lineFlushed (viewTaken d v l rest) v l (viewWidth ((viewTaken d v l rest).asOf l) v) = lineStart d v l rest := rfl
  rw [segLineDev_of_line hstore hheld, segProcess_eq, hstart]
  exact calMask_of_idle (by rw [hcal, hidle]) v l _

end

end Sys2Proof.Machine


/-! # A line without foreground -/

namespace Sys2Proof.Machine

section
variable {d : Device} {v : Fin 4} {l : Int} {b : List (List Nat)} {rest : List ViewLine}

/-- The runs of the line as the configuration before it was taken gives them. -/
theorem lineRuns_viewTaken (d : Device) (v : Fin 4) (l : Int) (rest : List ViewLine) (b : List (List Nat)) :
    lineRuns ((viewTaken d v l rest).asOf l) v b =
      runsFrom ((transposeBands b (viewWidth (d.asOf l) v)).map (pixelClass (d.asOf l) v)) 0 none := by
  rw [lineRuns, lineClasses, viewTaken_width, viewTaken_classes]

theorem viewTaken_geo_store {as : List Nat} {ps : List Part} {e : Device} (h : SameBut as ps (viewTaken d v l rest) e) (hp : Part.geo ∉ ps) :
    (e.view v).store = rest := by
  have hgeo : e.geo = (viewTaken d v l rest).geo := h.parts .geo hp
  unfold Device.view
  rw [hgeo]
  exact viewTaken_store d v l rest

/-- The line step of a first line, from the device as it was taken. -/
theorem segLineDev_spec (hstore : (d.view v).store = { count := l, bands := some b } :: rest) (hheld : heldLine d l = false)
    (hidle : d.cal.run = none) (hlen : (d.seg v).objs.length ≤ 4096) : let e := segLineDev v d
    (e.view v).store = rest ∧
      (e.seg v).last = some l ∧ (e.seg v).prev = some l ∧ (e.seg v).lostRun = 0 ∧ (e.seg v).width = viewWidth (d.asOf l) v ∧
      e.get (F.SEGv_LINES.COUNT v) = min (d.get (F.SEGv_LINES.COUNT v) + 1) 0xFFFFFFFF ∧
      (e.seg v).objs.length ≤ 4096 ∧ e.get (F.SEGv_OPEN.OPEN v) = (e.seg v).objs.length ∧
      SameBut (stepRegs v) [.geo, .basin, .pr, .evt] d e := by
  have hstart : ((lineStart d v l rest).seg v).objs.length ≤ 4096 := lineStart_length hlen
  have hstep := lineStep_frame ((viewTaken d v l rest).asOf l) (lineStart d v l rest) v b ((lineStart d v l rest).seg v) l
  obtain ⟨hlast, hprev, hlost, hwidth, hlines, hobjs, hopen, -⟩ :=
    lineStep_spec ((viewTaken d v l rest).asOf l) (lineStart d v l rest) v b ((lineStart d v l rest).seg v) l hstart
  have hflush : SameBut (stepRegs v) [.basin, .evt] (viewTaken d v l rest) (lineStart d v l rest) := lineFlushed_step_frame _ v l _
  dsimp only
  rw [segLineDev_eq hstore hheld hidle]
  refine ⟨viewTaken_geo_store (hflush.trans hstep) (by simp), hlast, hprev, hlost, hwidth.trans (viewTaken_width d v l rest l v), ?_, hobjs, hopen,
    (lineStart_frame d v l rest).then hstep (List.Subset.refl _) (by simp)⟩
  rw [hlines, (lineStart_flush_frame d v l rest).get (by simp)]

end

section
variable (s : Seg) (d : Device) (v : Fin 4) (l : Int)

theorem lineClosed_nil : lineClosed s [] = s.objs.map (settleAll s.runs) := by
  have hall : (lineMerged s []).1.filter (fun o => !lineStays s [] o) = s.objs := List.filter_eq_self.2 fun _ _ => rfl
  rw [lineClosed, hall]

theorem lineKept_nil : lineKept s [] = [] := List.filter_eq_nil_iff.2 fun _ _ => Bool.false_ne_true

theorem lineOpened_nil : lineOpened s [] d v l = { dev := d, objs := [], owned := [], refused := 0 } := by
  have hnew : lineNew s [] = [] := rfl
  rw [lineOpened, hnew, lineKept_nil]
  rfl

variable {cfg : Device} {bands : List (List Nat)} (h : lineRuns cfg v bands = [])
include h

theorem lineResult_of_empty : lineResult cfg v bands d s l = ([], []) := by
  unfold lineResult lineFilled
  rw [h, lineOpened_nil]
  rfl

theorem stepSeg_of_empty : stepSeg cfg d v bands s l = lineSeg cfg l [] [] (d.seg v) 0 (viewWidth cfg v) := by
  unfold stepSeg
  rw [lineResult_of_empty s d v l h, h, lineOpened_nil]
  rfl

theorem lineStep_of_empty_spec : let e := lineStep cfg v bands d s l
    (e.seg v).objs = [] ∧ (e.seg v).runs = [] ∧
      (e.seg v).queue = (d.seg v).queue ++ (sortBy closeBefore (s.objs.map (settleAll s.runs) ++ s.split)).map
        (fun o => { closing := l, desc := descOf v o }) ∧
      e.get (F.SEGv_OBJ_CLOSED.COUNT v) = min (d.get (F.SEGv_OBJ_CLOSED.COUNT v) + (s.objs.length + s.split.length)) 0xFFFFFFFF ∧
      e.get (F.SEGv_NEXT_ID.OBJ_ID v) = d.get (F.SEGv_NEXT_ID.OBJ_ID v) := by
  intro e
  have hseg : e.seg v = _ := lineStep_seg cfg d v bands s l
  have hdev : (lineOpened s (lineRuns cfg v bands) d v l).dev = d := by rw [h, lineOpened_nil]
  have hclosed : lineClosed s (lineRuns cfg v bands) ++ s.split = s.objs.map (settleAll s.runs) ++ s.split := by rw [h, lineClosed_nil]
  rw [stepSeg_of_empty s d v l h, hclosed] at hseg
  refine ⟨?_, ?_, ?_, ?_, ?_⟩
  · rw [hseg]
    rfl
  · rw [hseg]
    rfl
  · rw [hseg]
    rfl
  · obtain ⟨absorbed, runs, excluded, refused, splits, heq⟩ := lineStep_eq cfg d v bands s l
    rw [show e = _ from heq, lineShown_closed, hdev, hclosed, List.length_append, List.length_map]
  · obtain ⟨absorbed, runs, excluded, refused, splits, heq⟩ := lineStep_eq cfg d v bands s l
    rw [show e = _ from heq, (lineShown_frame _ v _ _ _ _ _ _ _ _).get (by simp), hdev]

end

end Sys2Proof.Machine


/-! # A line of one run

What opens where nothing is open and the line has one run (R150, R153, R155). -/

namespace Sys2Proof.Machine

/-! ## The run lies within the line -/

theorem runsFrom_within {r : Nat × Nat} : ∀ {ks : List Nat} {c : Nat} {cur : Option Nat}, (∀ f ∈ cur, f < c) → r ∈ runsFrom ks c cur →
    r.1 ≤ r.2 ∧ r.2 < c + ks.length
  | [], c, some f, hcur, hr => by
    have hlt : f < c := hcur f rfl
    obtain rfl := List.mem_singleton.1 hr
    dsimp only [List.length_nil]
    omega
  | [], _, none, _, hr => absurd hr List.not_mem_nil
  | k :: t, c, cur, hcur, hr => by
    have hlater {cur' : Option Nat} (hcur' : ∀ f ∈ cur', f < c + 1) (hmem : r ∈ runsFrom t (c + 1) cur') :
        r.1 ≤ r.2 ∧ r.2 < c + (k :: t).length := by
      have := runsFrom_within hcur' hmem
      rw [List.length_cons]
      omega
    unfold runsFrom at hr
    split at hr
    · split at hr
      next f =>
        have hlt : f < c := hcur f rfl
        rcases List.mem_cons.1 hr with rfl | hmem
        · dsimp only
          rw [List.length_cons]
          omega
        · exact hlater (by simp) hmem
      · exact hlater (by simp) hr
    · refine hlater (fun f hf => ?_) hr
      obtain rfl := Option.some.inj hf
      cases cur with
      | none => exact Nat.lt_succ_self c
      | some g => exact Nat.lt_succ_of_lt (hcur g rfl)

theorem lineRuns_within {cfg : Device} {v : Nat} {bands : List (List Nat)} {x y : Nat} (h : lineRuns cfg v bands = [(x, y)]) :
    x ≤ y ∧ y < 0xFFFF := by
  have hmem : (x, y) ∈ runsFrom (lineClasses cfg v bands) 0 none := by
    rw [show runsFrom (lineClasses cfg v bands) 0 none = _ from h]
    exact List.mem_singleton_self _
  have hwidth : viewWidth cfg v < 2 ^ 16 := Device.get_lt cfg (F.GEO_Vv_CFG.WIDTH v)
  obtain ⟨hxy, hlt⟩ := runsFrom_within (by simp) hmem
  rw [lineClasses, List.length_map, transposeBands, List.length_map, List.length_range] at hlt
  dsimp only at hxy hlt
  omega

/-! ## Its cells -/

/-- An object of line `l` of `n` cells from `x` on, all of them in PERIM. -/
structure CellsOf (id : Nat) (l : Int) (x n : Nat) (o : Obj) : Prop where
  id_eq : o.id = id
  first : o.first = l
  last : o.last = l
  fresh : n = 0 → o.xMin = 0xFFFF ∧ o.xMax = 0
  span : 0 < n → o.xMin = x ∧ o.xMax = x + n - 1
  area : o.area = n
  perim : o.perim = n
  flags : o.flags = 0

theorem cellsOf_freshObj (id : Nat) (l : Int) (x : Nat) : CellsOf id l x 0 (freshObj id l) :=
  ⟨rfl, rfl, rfl, fun _ => ⟨rfl, rfl⟩, fun h => absurd h (Nat.lt_irrefl 0), rfl, rfl, rfl⟩

theorem CellsOf.addCell {id x n k : Nat} {l : Int} {o : Obj} {y : List Nat} (h : CellsOf id l x n o) (hx : x ≤ 0xFFFF) :
    CellsOf id l x (n + 1) (addCell o l (n + x) k y true) := by
  have hspan : Nat.min o.xMin (n + x) = x ∧ Nat.max o.xMax (n + x) = x + n := by
    show min o.xMin (n + x) = x ∧ max o.xMax (n + x) = x + n
    by_cases hn : n = 0
    · obtain ⟨hmin, hmax⟩ := h.fresh hn
      omega
    · obtain ⟨hmin, hmax⟩ := h.span (Nat.pos_of_ne_zero hn)
      omega
  exact ⟨h.id_eq, h.first, rfl, fun hn => absurd hn (Nat.succ_ne_zero n), fun _ => hspan, congrArg (· + 1) h.area, congrArg (· + 1) h.perim, h.flags⟩

theorem cellsOf_foldl {id x : Nat} {l : Int} (hx : x ≤ 0xFFFF) (f : Obj → Nat → Obj)
    (hf : ∀ (n : Nat) (o : Obj), CellsOf id l x n o → CellsOf id l x (n + 1) (f o (n + x))) :
    ∀ n : Nat, CellsOf id l x n (((List.range n).map (· + x)).foldl f (freshObj id l))
  | 0 => cellsOf_freshObj id l x
  | n + 1 => by
    rw [List.range_succ, List.map_append, List.foldl_append]
    exact hf n _ (cellsOf_foldl hx f hf n)

/-- The cells of a run with nothing above it. -/
theorem cellsOf_addRun {x y id : Nat} {l : Int} (cells : Array (Nat × List Nat)) {above : Nat → Bool} (habove : ∀ i, above i = false)
    (hx : x ≤ 0xFFFF) : CellsOf id l x (y + 1 - x) (addRun cells above l (x, y) (freshObj id l)).1 := by
  refine cellsOf_foldl hx _ (fun n o h => ?_) _
  dsimp only
  rw [habove, Bool.and_false]
  exact h.addCell hx

/-! ## Its object -/

section
variable {s : Seg} {x y : Nat} (hobjs : s.objs = []) (hprev : s.prev = none) (hlost : s.lostRun = 0) (hchains : s.chains = [])

/-- The component of a run that links to nothing. -/
def loneComp (x y : Nat) : Component := { runs := [(x, y)], owners := [] }

include hprev in
theorem linePrev_none : linePrev s = [] := by
  unfold linePrev
  rw [hprev]
  rfl

include hprev in
theorem lineComps_one : lineComps s [(x, y)] = [loneComp x y] := by
  unfold lineComps
  rw [linePrev_none hprev]
  rfl

include hprev in
theorem lineHeld_one : lineHeld s [(x, y)] = [] := by
  unfold lineHeld
  rw [linePrev_none hprev]
  rfl

include hobjs hprev in
theorem lineMerged_one : lineMerged s [(x, y)] = ([], 0) := by
  rw [lineMerged, lineComps_one hprev, hobjs]
  rfl

include hobjs hprev in
theorem lineKept_one : lineKept s [(x, y)] = [] := by
  rw [lineKept, lineMerged_one hobjs hprev]
  rfl

include hobjs hprev in
theorem lineNew_one : lineNew s [(x, y)] = [loneComp x y] := by
  rw [lineNew, lineKept_one hobjs hprev, lineComps_one hprev]
  rfl

/-- The object counter steps, and the opening counts. -/
def openCounted (d : Device) (v : Nat) : Device :=
  (d.set (F.SEGv_NEXT_ID.OBJ_ID v) (d.get (F.SEGv_NEXT_ID.OBJ_ID v) + 1)).count (F.SEGv_OBJ_OPENED.COUNT v)

include hobjs hprev hchains in
theorem lineOpened_one (d : Device) (v : Nat) (l : Int) : lineOpened s [(x, y)] d v l =
    { dev := openCounted d v, objs := [freshObj (d.get (F.SEGv_NEXT_ID.OBJ_ID v)) l], owned := [(loneComp x y, d.get (F.SEGv_NEXT_ID.OBJ_ID v))],
      refused := 0 } := by
  rw [lineOpened, lineNew_one hobjs hprev, lineKept_one hobjs hprev, lineComps_one hprev, hchains]
  rfl

/-- EDGE for a run at an end of the line. -/
def edgeFlagged (w x y : Nat) (o : Obj) : Obj := o.flagIf (x == 0 || y == w - 1) vfEdge

theorem edgeFlagged_eq (w x y : Nat) (o : Obj) :
    edgeFlagged w x y o = { o with flags := if x = 0 ∨ y = w - 1 then o.flags ||| vfEdge else o.flags } := by
  by_cases h : x = 0 ∨ y = w - 1
  · have hedge : (x == 0 || y == w - 1) = true := by simpa using h
    rw [edgeFlagged, hedge, if_pos h]
    rfl
  · have hedge : (x == 0 || y == w - 1) = false := by simpa using h
    rw [edgeFlagged, hedge, if_neg h]
    rfl

include hprev hlost hchains in
theorem compFilled_one (cells : Array (Nat × List Nat)) (w : Nat) (l : Int) (id : Nat) (hx : x ≤ 0xFFFF) : ∃ (o : Obj) (rs : List SegRun),
    compFilled s [(x, y)] cells w l ([freshObj id l], []) (loneComp x y, id) = ([edgeFlagged w x y o], rs) ∧ CellsOf id l x (y + 1 - x) o := by
  have hfound : [freshObj id l].find? (fun o => o.id = id) = some (freshObj id l) := List.find?_cons_of_pos (decide_eq_true rfl)
  refine ⟨(addRun cells (fun _ => false) l (x, y) (freshObj id l)).1, [(addRun cells (fun _ => false) l (x, y) (freshObj id l)).2], ?_,
    cellsOf_addRun cells (fun _ => rfl) hx⟩
  unfold compFilled
  dsimp only
  rw [hfound, lineHeld_one hprev, hlost, hchains]
  dsimp only [loneComp, List.foldl_cons, List.foldl_nil, List.any_nil]
  rw [List.map_singleton, if_pos (show (freshObj id l).id = id from rfl), List.any_cons, List.any_nil, Bool.or_false]
  rfl

include hobjs hprev hlost hchains in
theorem lineFilled_one (cells : Array (Nat × List Nat)) (w : Nat) (d : Device) (v : Nat) (l : Int) (hx : x ≤ 0xFFFF) : ∃ (o : Obj) (rs : List SegRun),
    lineFilled s [(x, y)] cells w d v l = ([edgeFlagged w x y o], rs) ∧ CellsOf (d.get (F.SEGv_NEXT_ID.OBJ_ID v)) l x (y + 1 - x) o := by
  rw [lineFilled, lineOpened_one hobjs hprev hchains]
  exact compFilled_one hprev hlost hchains cells w l _ hx

include hprev in
/-- Without a previous line nothing more joins PERIM. -/
theorem perimSettled_one (rs : List SegRun) (o : Obj) : perimSettled s [(x, y)] rs o = o := by
  unfold perimSettled
  rw [lineHeld_one hprev]
  rfl

include hobjs hprev hlost hchains in
/-- The object that the line leaves. -/
theorem lineResult_one {cfg d : Device} {v : Nat} {bands : List (List Nat)} {l : Int} (hruns : lineRuns cfg v bands = [(x, y)]) :
    ∃ (o : Obj) (rs : List SegRun), lineResult cfg v bands d s l = ([edgeFlagged (viewWidth cfg v) x y o], rs) ∧
      CellsOf (d.get (F.SEGv_NEXT_ID.OBJ_ID v)) l x (y + 1 - x) o := by
  obtain ⟨hxy, hy⟩ := lineRuns_within hruns
  obtain ⟨o, rs, hfilled, hcells⟩ := lineFilled_one hobjs hprev hlost hchains (lineCells cfg v bands) (viewWidth cfg v) d v l (x := x) (y := y) (by omega)
  refine ⟨o, rs, ?_, hcells⟩
  unfold lineResult
  rw [hruns, hfilled]
  exact Prod.ext (congrArg (fun t => [t]) (perimSettled_one hprev rs _)) rfl

theorem tooBig_one {cfg : Device} {l : Int} {w id : Nat} {o : Obj} (hcells : CellsOf id l x (y + 1 - x) o) (hxy : x ≤ y)
    (hlen : 1 < cfg.get F.BSN_CFG.LEN_MAX) (hwid : y - x + 1 ≤ cfg.get F.BSN_CFG.WID_MAX) : tooBig cfg l (edgeFlagged w x y o) = false := by
  obtain ⟨hmin, hmax⟩ := hcells.span (by omega)
  unfold tooBig
  rw [edgeFlagged_eq, Bool.or_eq_false_iff, decide_eq_false_iff_not, decide_eq_false_iff_not]
  dsimp only
  rw [hcells.first, hmin, hmax]
  omega

end

section
variable {cfg d : Device} {v : Fin 4} {bands : List (List Nat)} {s : Seg} {l : Int} {x y : Nat}
  (hobjs : s.objs = []) (hprev : s.prev = none) (hlost : s.lostRun = 0) (hchains : s.chains = []) (hruns : lineRuns cfg v bands = [(x, y)])
include hobjs hprev hlost hchains hruns

theorem stepSeg_of_one (hlen : 1 < cfg.get F.BSN_CFG.LEN_MAX) (hwid : y - x + 1 ≤ cfg.get F.BSN_CFG.WID_MAX) :
    ∃ o : Obj, (stepSeg cfg d v bands s l).objs = [edgeFlagged (viewWidth cfg v) x y o] ∧
      CellsOf (d.get (F.SEGv_NEXT_ID.OBJ_ID v)) l x (y + 1 - x) o := by
  obtain ⟨hxy, -⟩ := lineRuns_within hruns
  obtain ⟨o, rs, hresult, hcells⟩ := lineResult_one (d := d) (l := l) hobjs hprev hlost hchains hruns
  refine ⟨o, ?_, hcells⟩
  unfold stepSeg lineSeg
  dsimp only
  rw [hresult, hruns, List.filter_cons_of_pos (by rw [tooBig_one hcells hxy hlen hwid]; rfl)]
  rfl

omit hlost in
theorem lineStep_of_one_frame : SameBut (shownRegs v) [.basin, .evt] (openCounted d v) (lineStep cfg v bands d s l) := by
  obtain ⟨absorbed, runs, excluded, refused, splits, heq⟩ := lineStep_eq cfg d v bands s l
  rw [heq, hruns, lineOpened_one hobjs hprev hchains]
  exact lineShown_frame _ v _ _ _ _ _ _ _ _

theorem lineStep_of_one_spec (hlen : 1 < cfg.get F.BSN_CFG.LEN_MAX) (hwid : y - x + 1 ≤ cfg.get F.BSN_CFG.WID_MAX) :
    let e := lineStep cfg v bands d s l
    (e.seg v).objs.map (fun o => (o.id, o.first, o.last)) = [(d.get (F.SEGv_NEXT_ID.OBJ_ID v), l, l)] ∧
      (e.seg v).objs.map (fun o => (o.xMin, o.xMax, o.area)) = [(x, y, y + 1 - x)] ∧
      ((e.seg v).objs.map (fun o => (o.perim, o.flags)) = [(y + 1 - x, if x = 0 ∨ y = viewWidth cfg v - 1 then vfEdge else 0)]) ∧
      e.get (F.SEGv_NEXT_ID.OBJ_ID v) = (d.get (F.SEGv_NEXT_ID.OBJ_ID v) + 1) % 2 ^ 32 ∧
      e.get (F.SEGv_OBJ_OPENED.COUNT v) = min (d.get (F.SEGv_OBJ_OPENED.COUNT v) + 1) 0xFFFFFFFF := by
  obtain ⟨hxy, -⟩ := lineRuns_within hruns
  obtain ⟨o, hstep, hcells⟩ := stepSeg_of_one (d := d) (l := l) hobjs hprev hlost hchains hruns hlen hwid
  obtain ⟨hmin, hmax⟩ := hcells.span (by omega)
  have hseg : ((lineStep cfg v bands d s l).seg v).objs = [edgeFlagged (viewWidth cfg v) x y o] :=
    (congrArg Seg.objs (lineStep_seg cfg d v bands s l)).trans hstep
  have hframe := lineStep_of_one_frame (d := d) (l := l) hobjs hprev hchains hruns
  dsimp only
  rw [hseg, edgeFlagged_eq, List.map_singleton, List.map_singleton, List.map_singleton]
  rw [hcells.id_eq, hcells.first, hcells.last, hmin, hmax, hcells.area, hcells.perim, hcells.flags]
  refine ⟨rfl, ?_, rfl, ?_, ?_⟩
  · rw [show x + (y + 1 - x) - 1 = y by omega]
  · refine (hframe.get (by simp)).trans ((Device.get_set_ne _ _ _ _ (.inl (by simp))).trans ?_)
    exact Device.get_set_self _ _ _ (by simp)
  · refine (hframe.get (by simp)).trans ((Device.get_count_saturating _ _ _ (by simp)).trans ?_)
    rw [Device.get_set_ne _ _ _ _ (.inl (by simp))]
    rfl

end

end Sys2Proof.Machine


/-! # Lost lines

A lost-line marker within GAP_BRIDGE and past it (R156), and the obligation on the segmenters. -/

namespace Sys2Proof.Machine

/-! ## Sorting keeps the elements -/

section
variable {α : Type} (before : α → α → Bool)

theorem insertBy_perm (a : α) : ∀ l : List α, (insertBy before a l).Perm (a :: l)
  | [] => .refl _
  | b :: t => by
    unfold insertBy
    split
    · exact .refl _
    · exact ((insertBy_perm a t).cons b).trans (.swap a b t)

theorem foldl_insertBy_perm : ∀ (l acc : List α), (l.foldl (fun acc a => insertBy before a acc) acc).Perm (acc ++ l)
  | [], acc => by
    rw [List.append_nil]
    exact .refl _
  | a :: t, acc => (foldl_insertBy_perm t _).trans (((insertBy_perm before a acc).append_right t).trans List.perm_middle.symm)

theorem sortBy_perm (l : List α) : (sortBy before l).Perm l := foldl_insertBy_perm before l []

end

/-! ## A lost line shown -/

/-- The open objects with GAP. -/
def gapFlagged (os : List Obj) : List Obj := os.map (fun o => o.flag vfGap)

/-- The view's segmenter becomes `x`, `closed` are handed over and counted as closed by a gap. -/
def lostShown (d : Device) (v : Nat) (l : Int) (x : Seg) (closed : List Obj) : Device :=
  showOpen ((((handOver (d.setSeg v x) v l closed).count (F.SEGv_LINES.COUNT v)).count (F.SEGv_GAP_CLOSES.COUNT v) closed.length).raiseIf
    (0 < closed.length) (F.SEGv_FLAGS.GAP_CLOSE v)) v

/-- The view's segmenter after a lost line that it bridges. -/
def bridgedSeg (s : Seg) (l : Int) (w : Nat) : Seg :=
  { s with objs := gapFlagged s.objs, lostRun := s.lostRun + 1, split := [], last := some l, width := w }

/-- The view's segmenter after a lost line past the gap. -/
def gapSeg (s : Seg) (l : Int) (w : Nat) : Seg :=
  { s with objs := [], runs := [], seeds := [], chains := [], prev := none, lostRun := s.lostRun + 1, split := [], last := some l, width := w }

/-- What a gap closes. -/
def gapClosed (s : Seg) : List Obj := (gapFlagged s.objs).map (settleAll s.runs)

section
variable {d : Device} {v : Fin 4} {l : Int} (hwidth : (d.seg v).width = viewWidth (d.asOf l) v) (hsplit : (d.seg v).split = [])
include hwidth hsplit

theorem segLost_of_bridged (h : (d.seg v).lostRun + 1 ≤ (d.asOf l).get (F.SEGv_CFG.GAP_BRIDGE v)) :
    segLost d v l = calMask (lostShown d v l (bridgedSeg (d.seg v) l (viewWidth (d.asOf l) v)) []) v l none := by
  have hsame : ¬ ((d.seg v).width ≠ viewWidth (d.asOf l) v ∧ (d.seg v).width ≠ 0) := fun hne => hne.1 hwidth
  unfold segLost
  dsimp only
  rw [if_neg hsame, if_neg (Nat.not_lt.2 h), if_neg (Nat.not_lt.2 h), hsplit]
  rfl

theorem segLost_of_gap (h : (d.asOf l).get (F.SEGv_CFG.GAP_BRIDGE v) < (d.seg v).lostRun + 1) :
    segLost d v l = calMask (lostShown d v l (gapSeg (d.seg v) l (viewWidth (d.asOf l) v)) (gapClosed (d.seg v))) v l none := by
  have hsame : ¬ ((d.seg v).width ≠ viewWidth (d.asOf l) v ∧ (d.seg v).width ≠ 0) := fun hne => hne.1 hwidth
  unfold segLost
  dsimp only
  rw [if_neg hsame, if_pos h, if_pos h, hsplit, List.append_nil]
  rfl

end

section
variable (d : Device) (v : Fin 4) (l : Int) (x : Seg) (closed : List Obj)

theorem lostShown_frame : SameBut [R.SEGv_LINES v, R.SEGv_OPEN v, R.SEGv_OBJ_CLOSED v, R.SEGv_GAP_CLOSES v, R.SEGv_FLAGS v] [.basin, .evt] d
    (lostShown d v l x closed) :=
  ((((((SameBut.refl _ _ d).setSeg _ _ (by simp)).then (handOver_frame _ v l closed) (by simp) (by simp)).count _ (by simp)).count _
    (by simp)).raiseIf _ (by simp) (by simp)).then (showOpen_frame _ v) (by simp) (by simp)

/-- What follows the hand-over. -/
theorem lostShown_counted_frame : SameBut [R.SEGv_LINES v, R.SEGv_OPEN v, R.SEGv_GAP_CLOSES v, R.SEGv_FLAGS v] [.evt]
    (handOver (d.setSeg v x) v l closed) (lostShown d v l x closed) :=
  ((((SameBut.refl _ _ _).count _ (by simp)).count _ (by simp)).raiseIf _ (by simp) (by simp)).then (showOpen_frame _ v) (by simp) (by simp)

theorem lostShown_seg : (lostShown d v l x closed).seg v =
    { x with queue := x.queue ++ (sortBy closeBefore closed).map (fun o => { closing := l, desc := descOf v o }) } := by
  rw [(lostShown_counted_frame d v l x closed).seg (by simp), handOver_seg, Device.seg_setSeg_self]

theorem lostShown_lines : (lostShown d v l x closed).get (F.SEGv_LINES.COUNT v) = min (d.get (F.SEGv_LINES.COUNT v) + 1) 0xFFFFFFFF := by
  have hafter : SameBut [R.SEGv_GAP_CLOSES v, R.SEGv_FLAGS v, R.SEGv_OPEN v] [.evt]
      ((handOver (d.setSeg v x) v l closed).count (F.SEGv_LINES.COUNT v)) (lostShown d v l x closed) :=
    (((SameBut.refl _ _ _).count _ (by simp)).raiseIf _ (by simp) (by simp)).then (showOpen_frame _ v) (by simp) (by simp)
  rw [hafter.get (by simp), Device.get_count_saturating _ _ _ (by simp), (handOver_frame _ v l closed).get (by simp)]
  rfl

theorem lostShown_gapCloses : (lostShown d v l x closed).get (F.SEGv_GAP_CLOSES.COUNT v) =
    min (d.get (F.SEGv_GAP_CLOSES.COUNT v) + closed.length) 0xFFFFFFFF := by
  have hafter : SameBut [R.SEGv_FLAGS v, R.SEGv_OPEN v] [.evt]
      (((handOver (d.setSeg v x) v l closed).count (F.SEGv_LINES.COUNT v)).count (F.SEGv_GAP_CLOSES.COUNT v) closed.length) (lostShown d v l x closed) :=
    ((SameBut.refl _ _ _).raiseIf _ (by simp) (by simp)).then (showOpen_frame _ v) (by simp) (by simp)
  have hbefore : SameBut [R.SEGv_OBJ_CLOSED v, R.SEGv_LINES v] [.basin] (d.setSeg v x)
      ((handOver (d.setSeg v x) v l closed).count (F.SEGv_LINES.COUNT v)) :=
    ((handOver_frame _ v l closed).mono_regs (by simp)).count _ (by simp)
  rw [hafter.get (by simp), Device.get_count_saturating _ _ _ (by simp), hbefore.get (by simp)]
  rfl

theorem lostShown_flag (h : 0 < closed.length) : (lostShown d v l x closed).get (F.SEGv_FLAGS.GAP_CLOSE v) = 1 := by
  unfold lostShown
  rw [(showOpen_frame _ v).get (by simp), decide_eq_true h, Device.raiseIf_true]
  exact Device.get_raise_self _ _ rfl (by simp)

/-- Where nothing closes, only SEGv_LINES and SEGv_OPEN show the line. -/
theorem lostShown_none_frame : SameBut [R.SEGv_LINES v, R.SEGv_OPEN v] [.basin] d (lostShown d v l x []) := by
  have hhanded : SameBut [] [.basin] d (handOver (d.setSeg v x) v l []) :=
    (((SameBut.refl _ _ d).setSeg _ _ (by simp)).setSeg _ _ (by simp)).then (count_zero_frame _ _) (by simp) (by simp)
  have hcounted : SameBut [R.SEGv_LINES v, R.SEGv_OPEN v] [.basin] d
      (((handOver (d.setSeg v x) v l []).count (F.SEGv_LINES.COUNT v)).count (F.SEGv_GAP_CLOSES.COUNT v) 0) :=
    ((hhanded.mono_regs (by simp)).count _ (by simp)).then (count_zero_frame _ _) (by simp) (by simp)
  exact hcounted.then (showOpen_frame _ v) (by simp) (by simp)

end

/-! ## The lost-line marker taken -/

section
variable {d : Device} {v : Fin 4} {l : Int} {rest : List ViewLine}

theorem segLostDev_of_bridged (hstore : (d.view v).store = { count := l, bands := none } :: rest) (hheld : heldLine d l = false)
    (hidle : d.cal.run = none) (hwidth : (d.seg v).width = viewWidth (d.asOf l) v) (hsplit : (d.seg v).split = [])
    (h : (d.seg v).lostRun + 1 ≤ (d.asOf l).get (F.SEGv_CFG.GAP_BRIDGE v)) :
    segLostDev v d = lostShown (viewTaken d v l rest) v l (bridgedSeg (d.seg v) l (viewWidth (d.asOf l) v)) [] := by
  have hseg := viewTaken_seg d v l rest
  have hcal (x : Seg) : (lostShown (viewTaken d v l rest) v l x []).cal = d.cal :=
    (((viewTaken_frame d v l rest).mono (by simp) (qs := [.geo, .pr, .basin, .evt]) (by simp)).then
      (lostShown_frame _ v l x []) (List.Subset.refl _) (by simp)).parts .cal (by simp)
  rw [segLostDev_of_lost hstore hheld, segLost_of_bridged (by rw [hseg, viewTaken_width, hwidth]) (by rw [hseg, hsplit])
    (by rw [hseg, viewTaken_get]; exact h), hseg, viewTaken_width]
  exact calMask_of_idle (by rw [hcal, hidle]) v l none

theorem segLostDev_of_gap (hstore : (d.view v).store = { count := l, bands := none } :: rest) (hheld : heldLine d l = false)
    (hidle : d.cal.run = none) (hwidth : (d.seg v).width = viewWidth (d.asOf l) v) (hsplit : (d.seg v).split = [])
    (h : (d.asOf l).get (F.SEGv_CFG.GAP_BRIDGE v) < (d.seg v).lostRun + 1) :
    segLostDev v d = lostShown (viewTaken d v l rest) v l (gapSeg (d.seg v) l (viewWidth (d.asOf l) v)) (gapClosed (d.seg v)) := by
  have hseg := viewTaken_seg d v l rest
  have hcal (x : Seg) (os : List Obj) : (lostShown (viewTaken d v l rest) v l x os).cal = d.cal :=
    (((viewTaken_frame d v l rest).mono (by simp) (qs := [.geo, .pr, .basin, .evt]) (by simp)).then
      (lostShown_frame _ v l x os) (List.Subset.refl _) (by simp)).parts .cal (by simp)
  rw [segLostDev_of_lost hstore hheld, segLost_of_gap (by rw [hseg, viewTaken_width, hwidth]) (by rw [hseg, hsplit])
    (by rw [hseg, viewTaken_get]; exact h), hseg, viewTaken_width]
  exact calMask_of_idle (by rw [hcal, hidle]) v l none

/-- A bridged line. -/
theorem bridged_spec (d : Device) (v : Fin 4) (l : Int) (rest : List ViewLine) (w : Nat) :
    let e := lostShown (viewTaken d v l rest) v l (bridgedSeg (d.seg v) l w) []
    (e.view v).store = rest ∧ (e.seg v).lostRun = (d.seg v).lostRun + 1 ∧
      (e.seg v).objs = (d.seg v).objs.map (fun o => { o with flags := o.flags ||| vfGap }) ∧
      (e.seg v).queue = (d.seg v).queue ∧ (e.seg v).runs = (d.seg v).runs ∧
      e.get (F.SEGv_LINES.COUNT v) = min (d.get (F.SEGv_LINES.COUNT v) + 1) 0xFFFFFFFF ∧
      SameBut [R.SEGv_LINES v, R.SEGv_OPEN v] [.geo, .basin, .pr] d e := by
  have hframe := lostShown_none_frame (viewTaken d v l rest) v l (bridgedSeg (d.seg v) l w)
  dsimp only
  rw [lostShown_seg, lostShown_lines, (viewTaken_frame d v l rest).get (by simp)]
  exact ⟨viewTaken_geo_store hframe (by simp), rfl, rfl, List.append_nil _, rfl, rfl,
    ((viewTaken_frame d v l rest).mono (by simp) (by simp)).then hframe (List.Subset.refl _) (by simp)⟩

theorem or_and_right_self (a b : Nat) : (a ||| b) &&& b = b := by
  refine Nat.eq_of_testBit_eq fun i => ?_
  rw [Nat.testBit_and, Nat.testBit_or, Bool.and_comm, Bool.and_or_distrib_left, Bool.and_self]
  cases b.testBit i <;> simp

theorem gapClosed_gap (s : Seg) : ∀ o ∈ gapClosed s, o.flags &&& vfGap = vfGap := by
  intro o ho
  obtain ⟨u, hu, rfl⟩ := List.mem_map.1 ho
  obtain ⟨w, -, rfl⟩ := List.mem_map.1 hu
  exact or_and_right_self w.flags vfGap

theorem gapClosed_length (s : Seg) : (gapClosed s).length = s.objs.length := by
  rw [gapClosed, gapFlagged, List.length_map, List.length_map]

/-- A line past the gap. -/
theorem gap_spec (d : Device) (v : Fin 4) (l : Int) (rest : List ViewLine) (w : Nat) :
    let e := lostShown (viewTaken d v l rest) v l (gapSeg (d.seg v) l w) (gapClosed (d.seg v))
    (e.seg v).objs = [] ∧ (e.seg v).prev = none ∧ (e.seg v).lostRun = (d.seg v).lostRun + 1 ∧
      (e.seg v).queue.map Closed.closing = (d.seg v).queue.map Closed.closing ++ (d.seg v).objs.map (fun _ => l) ∧
      (∀ o ∈ (e.seg v).queue.drop (d.seg v).queue.length, o.desc.flags &&& vfGap = vfGap) ∧
      e.get (F.SEGv_GAP_CLOSES.COUNT v) = min (d.get (F.SEGv_GAP_CLOSES.COUNT v) + (d.seg v).objs.length) 0xFFFFFFFF ∧
      (0 < (d.seg v).objs.length → e.get (F.SEGv_FLAGS.GAP_CLOSE v) = 1) ∧
      SameBut [R.SEGv_LINES v, R.SEGv_OPEN v, R.SEGv_OBJ_CLOSED v, R.SEGv_GAP_CLOSES v, R.SEGv_FLAGS v] [.geo, .basin, .pr, .evt] d e := by
  have hperm := sortBy_perm closeBefore (gapClosed (d.seg v))
  have hlen := gapClosed_length (d.seg v)
  have hqueue : ((lostShown (viewTaken d v l rest) v l (gapSeg (d.seg v) l w) (gapClosed (d.seg v))).seg v).queue =
      (d.seg v).queue ++ (sortBy closeBefore (gapClosed (d.seg v))).map (fun o => { closing := l, desc := descOf v o }) :=
    congrArg Seg.queue (lostShown_seg _ v l _ _)
  dsimp only
  rw [hqueue]
  refine ⟨?_, ?_, ?_, ?_, ?_, ?_, fun h => lostShown_flag _ v l _ _ (hlen.symm ▸ h), ?_⟩
  · rw [lostShown_seg]
    rfl
  · rw [lostShown_seg]
    rfl
  · rw [lostShown_seg]
    rfl
  · rw [List.map_append, List.map_map, List.map_const', ← hlen, ← hperm.length_eq, ← List.map_const']
    rfl
  · rw [List.drop_left]
    intro o ho
    obtain ⟨u, hu, rfl⟩ := List.mem_map.1 ho
    exact gapClosed_gap _ u (hperm.mem_iff.1 hu)
  · rw [lostShown_gapCloses, hlen, (viewTaken_frame d v l rest).get (by simp)]
  · exact ((viewTaken_frame d v l rest).mono (by simp) (by simp)).then (lostShown_frame _ v l _ _) (List.Subset.refl _) (by simp)

end

/-! ## The obligation -/

section
variable {d : Device} {v : Fin 4} {l : Int} {b : List (List Nat)} {rest : List ViewLine}

/-- Nothing is open where the line starts, whether WIDTH has changed or not. -/
theorem lineStart_idle (hobjs : (d.seg v).objs = []) (hprev : (d.seg v).prev = none) (hlost : (d.seg v).lostRun = 0) (hchains : (d.seg v).chains = []) :
    ((lineStart d v l rest).seg v).objs = [] ∧ ((lineStart d v l rest).seg v).prev = none ∧ ((lineStart d v l rest).seg v).lostRun = 0 ∧
      ((lineStart d v l rest).seg v).chains = [] := by
  rcases lineFlushed_seg (d := viewTaken d v l rest) (v := v) (l := l) (w := viewWidth ((viewTaken d v l rest).asOf l) v) with heq | ⟨q, heq⟩
  · rw [lineStart, heq, viewTaken_seg]
    exact ⟨hobjs, hprev, hlost, hchains⟩
  · rw [lineStart, heq, viewTaken_seg]
    exact ⟨rfl, rfl, hlost, rfl⟩

/-- The line step of a line without foreground. -/
theorem segLineDev_of_empty (hstore : (d.view v).store = { count := l, bands := some b } :: rest) (hheld : heldLine d l = false)
    (hidle : d.cal.run = none) (hwidth : (d.seg v).width = viewWidth (d.asOf l) v) (hruns : lineRuns ((viewTaken d v l rest).asOf l) v b = []) :
    let e := segLineDev v d
    (e.seg v).objs = [] ∧ (e.seg v).runs = [] ∧
      (e.seg v).queue = (d.seg v).queue ++ (sortBy closeBefore ((d.seg v).objs.map (settleAll (d.seg v).runs) ++ (d.seg v).split)).map
        (fun o => { closing := l, desc := descOf v o }) ∧
      e.get (F.SEGv_OBJ_CLOSED.COUNT v) = min (d.get (F.SEGv_OBJ_CLOSED.COUNT v) + ((d.seg v).objs.length + (d.seg v).split.length)) 0xFFFFFFFF ∧
      e.get (F.SEGv_NEXT_ID.OBJ_ID v) = d.get (F.SEGv_NEXT_ID.OBJ_ID v) := by
  dsimp only
  have hstart := lineStart_of_same (rest := rest) hwidth
  obtain ⟨hobjs, hopen, hqueue, hclosed, hid⟩ :=
    lineStep_of_empty_spec ((viewTaken d v l rest).seg v) (viewTaken d v l rest) v l hruns
  rw [viewTaken_seg] at hqueue hclosed
  rw [segLineDev_eq hstore hheld hidle, hstart, viewTaken_seg]
  rw [viewTaken_seg] at hobjs hopen hid
  exact ⟨hobjs, hopen, hqueue, hclosed.trans (by rw [(viewTaken_frame d v l rest).get (by simp)]),
    hid.trans ((viewTaken_frame d v l rest).get (by simp))⟩

/-- The line step of one run where nothing is open. -/
theorem segLineDev_of_one {x y : Nat} (hstore : (d.view v).store = { count := l, bands := some b } :: rest) (hheld : heldLine d l = false)
    (hidle : d.cal.run = none) (hobjs : (d.seg v).objs = []) (hprev : (d.seg v).prev = none) (hlost : (d.seg v).lostRun = 0)
    (hchains : (d.seg v).chains = []) (hruns : lineRuns ((viewTaken d v l rest).asOf l) v b = [(x, y)])
    (hlen : 1 < (d.asOf l).get F.BSN_CFG.LEN_MAX) (hwid : y - x + 1 ≤ (d.asOf l).get F.BSN_CFG.WID_MAX) : let e := segLineDev v d
    (e.seg v).objs.map (fun o => (o.id, o.first, o.last)) = [(d.get (F.SEGv_NEXT_ID.OBJ_ID v), l, l)] ∧
      (e.seg v).objs.map (fun o => (o.xMin, o.xMax, o.area)) = [(x, y, y + 1 - x)] ∧
      ((e.seg v).objs.map (fun o => (o.perim, o.flags)) = [(y + 1 - x, if x = 0 ∨ y = viewWidth (d.asOf l) v - 1 then vfEdge else 0)]) ∧
      e.get (F.SEGv_NEXT_ID.OBJ_ID v) = (d.get (F.SEGv_NEXT_ID.OBJ_ID v) + 1) % 2 ^ 32 ∧
      e.get (F.SEGv_OBJ_OPENED.COUNT v) = min (d.get (F.SEGv_OBJ_OPENED.COUNT v) + 1) 0xFFFFFFFF := by
  obtain ⟨hobjs', hprev', hlost', hchains'⟩ := lineStart_idle (l := l) (rest := rest) hobjs hprev hlost hchains
  have hspec := lineStep_of_one_spec (d := lineStart d v l rest) (l := l) hobjs' hprev' hlost' hchains' hruns
    (by rw [viewTaken_get]; exact hlen) (by rw [viewTaken_get]; exact hwid)
  have hflush := lineStart_flush_frame d v l rest
  dsimp only at hspec ⊢
  rw [viewTaken_width, hflush.get (by simp), hflush.get (by simp)] at hspec
  rw [segLineDev_eq hstore hheld hidle]
  exact hspec

end

/-- Settles O18: the line step is the parts of Table 7.1 one after another, and each clause is what they leave. -/
theorem segmenterLineStep : Obligations.SegmenterLineStep := by
  unfold Obligations.SegmenterLineStep
  refine ⟨?_, ?_, ?_, ?_, ?_⟩
  · intro v l b rest s ⟨hstore, hheld, hidle⟩ hlen
    obtain ⟨hleft, hlast, hprev, hlost, hwidth, hlines, hobjs, hopen, hframe⟩ := segLineDev_spec hstore hheld hidle hlen
    exact ⟨_, exec_segLineProcess v s, hleft, hlast, hprev, hlost, hwidth, hlines, hobjs, hopen, hframe.mono_regs (by simp)⟩
  · intro v l b rest s ⟨hstore, hheld, hidle⟩ hwidth hruns
    exact ⟨_, exec_segLineProcess v s, segLineDev_of_empty hstore hheld hidle hwidth ((lineRuns_viewTaken s.dev v l rest b).trans hruns)⟩
  · intro v l b rest x y s ⟨hstore, hheld, hidle⟩ ⟨hobjs, hprev, hlost, hchains⟩ hruns ⟨hlen, hwid⟩
    exact ⟨_, exec_segLineProcess v s, segLineDev_of_one hstore hheld hidle hobjs hprev hlost hchains
      ((lineRuns_viewTaken s.dev v l rest b).trans hruns) hlen hwid⟩
  · intro v l rest s ⟨hstore, hheld, hidle⟩ ⟨hwidth, hsplit⟩ hgap
    exact ⟨_, (exec_segLostLine v s).trans (congrArg s.done (segLostDev_of_bridged hstore hheld hidle hwidth hsplit hgap)), bridged_spec _ v l rest _⟩
  · intro v l rest s ⟨hstore, hheld, hidle⟩ ⟨hwidth, hsplit⟩ hgap
    exact ⟨_, (exec_segLostLine v s).trans (congrArg s.done (segLostDev_of_gap hstore hheld hidle hwidth hsplit hgap)), gap_spec _ v l rest _⟩

end Sys2Proof.Machine
